-- ==== Sys2Proof/Word.lean ====
section
/-!
DEFINITION. The word types of the ZRT-5120 (R5): every register is 32 bits wide, memory is made of bytes,
and multi-byte values are little-endian.
-/

namespace Sys2Proof

/-- A register word (R5). -/
abbrev Word := BitVec 32

/-- A byte of memory, of a result item or of a flit. -/
abbrev Byte := BitVec 8

/-- A 64-bit quantity held in a _LO / _HI register pair (R6). -/
abbrev DWord := BitVec 64

end Sys2Proof
end

