-- ==== Sys2Proof/Machine/Types.lean ====
section
/-!
DEFINITION. The data that commands carry: fault scopes (Table 10-2), flits (Table 9-4), the producers of result items
(R198), raster sources of edges, and the directions of a web port.
-/

namespace Sys2Proof

/-- Scope kinds of Table 10-2. -/
inductive Scope where
  | none
  | channel (n : Nat)
  | octet (k : Nat)
  | tile (t : Nat)
  | device
  | felt (f : Nat)
  | port (p : Nat)
  | other (i : Nat)
  deriving DecidableEq, Repr

/-- A source of edges or beats that can go missing (R43): LINE_REF, or the beats of web port `p`. -/
inductive EdgeSrc where
  | line
  | beats (p : Nat)
  deriving DecidableEq, Repr

/-- A producer that pushes items: the stamping stage of a channel, or an internal agent (R183, R189). -/
inductive Producer where
  | channel (n : Nat)
  | agent (a : Nat)
  deriving DecidableEq, Repr

/-- A direction of a web port, seen from this device (R280). -/
inductive Dir where
  | rx
  | tx
  deriving DecidableEq, Repr

/-- A flit (Table 9-4): header fields, payload bytes from byte 16 on, and the trailer of the link. -/
structure Flit where
  dst : Nat
  src : Nat
  type : Nat
  tag : Nat
  len : Nat
  vc : Nat
  status : Nat
  addr : Nat
  stamp : Nat
  payload : List Byte
  seq : Nat
  ack : Nat
  nak : Bool
  cvc : Nat
  ccount : Nat
  hops : Nat
  deriving DecidableEq, Repr

end Sys2Proof
end

