-- ==== Sys2Proof/Syntax.lean ====
section
/-!
DEFINITION. The commands and events of the ZRT-5120, one constructor per row of the opcode table.
Every constructor's first operand `t` is the instant of the command, in 1/256 ns from the release of POR (notes/assumptions/1.md).
`m` is the master ID of the requester (Table 1-6), `a` a local address, `v` the word written, `n` a logical channel, `f` a felt,
`p` a web or memory port, `i` a physical slice t × 68 + s, `k` a generator, octet or source index. What only the analogue world,
a sensor, the stack or a peer device decides (conversion codes, measured values, parity failures, arriving flits) is an operand.
-/

namespace Sys2Proof

/-- The commands: constructor names follow the mnemonics of spec/opcode_table.json (R4 and the rules named there). -/
inductive Instr where
  -- DEVICE and register accesses (chapters 0 and 1)
  /-- REGISTER_WRITE (R397). A write to a register that has no row of its own updates its RW, W1C, W1S and WO fields under the access codes. -/
  | registerWrite (t : Nat) (m a : Nat) (v : Word)
  /-- RESERVED_ACCESS (R24). An access to a reserved address range returns an error, reads 0 or has no effect, and is logged as class A. -/
  | reservedAccess (t : Nat) (m a : Nat) (write : Bool) (v : Word)
  /-- UNALIGNED_ACCESS (R396). An access whose address is not 4-byte aligned is not performed, is answered with an error and is logged. -/
  | unalignedAccess (t : Nat) (m a : Nat) (write : Bool) (v : Word)
  /-- VAT_SRAM_WRITE (R26). A write to vat SRAM is performed only under TEST permission; otherwise it is handled as a reserved access. -/
  | vatSramWrite (t : Nat) (m a : Nat) (v : Word)
  /-- LO_READ (R28). A read of a _LO register captures both halves and stores the high half in the requester's snapshot shadow. -/
  | loRead (t : Nat) (m a : Nat)
  /-- HI_READ (R29). A read of a _HI register returns the requester's shadow for that pair, or the live bits if it holds none. -/
  | hiRead (t : Nat) (m a : Nat)
  /-- LO_WRITE_STAGE (R32). A write to _LO of a writable pair is held in the writer's staging register. -/
  | loWriteStage (t : Nat) (m a : Nat) (v : Word)
  /-- HI_WRITE_COMMIT (R32). A write to _HI commits a staged _LO value with it in one cycle, or writes the high half alone. -/
  | hiWriteCommit (t : Nat) (m a : Nat) (v : Word)
  /-- READ_CLEAR (R7). A read of an RC field returns its value and clears the field. -/
  | readClear (t : Nat) (m a : Nat)
  -- Raster timebase (chapter 2)
  /-- LINE_REF_EDGE (R43). An active LINE_REF edge arrives, is judged against its window, and drives qualification, lock and error measurement. -/
  | lineRefEdge (t : Nat)
  /-- FRAME_START_MARK (R40). FRAME_REF is sampled at the midpoint of a line and a newly active level marks a frame start. -/
  | frameStartMark (t : Nat) (active : Bool)
  /-- EDGE_MISSING (R43). The window of an expected edge or beat closes without an arrival, and the edge or beat counts as missing. -/
  | edgeMissing (t : Nat) (src : EdgeSrc)
  /-- PIXCLK_LOST (R42). PIXCLK stops or leaves tolerance, and the timebase continues on LINE_REF alone without a step. -/
  | pixclkLost (t : Nat)
  /-- PIXCLK_QUALIFIED (R42). PIXCLK qualifies again and pixel locking resumes through a slew. -/
  | pixclkQualified (t : Nat) (err : Int) (pix : Nat)
  /-- RASTER_BEAT (R52). A raster beat is received, checked for root, rank and holdover, and steers the follower's raster time. -/
  | rasterBeat (t : Nat) (p root rank : Nat) (hold : Bool) (frame line frac : Nat)
  /-- BEAT_SEND (R51). The root or a relay sends a beat carrying its raster time on every down port once per interval lines. -/
  | beatSend (t : Nat) (p : Nat)
  /-- DELAY_REQ_SEND (R55). Once per millisecond the follower sends a delay request on each primary or alternative port. -/
  | delayReqSend (t : Nat) (p : Nat) (t1 : Int)
  /-- DELAY_REQ (R283). The upstream device receives a delay request and answers with t3 minus t2 in a DELAY_RSP. -/
  | delayReq (t : Nat) (p tag : Nat) (t2 t3 : Int)
  /-- DELAY_RSP (R55). The follower receives a delay response, computes the one-way delay and updates TB_PORT_DELAY. -/
  | delayRsp (t : Nat) (p tag : Nat) (dt t4 : Int)
  /-- ANCHOR_FIRE (R60). Raster time reaches a global generator's target, and the generator asserts its event per its mode. -/
  | anchorFire (t : Nat) (k : Nat)
  /-- ARM (R61). Writing 1 to TB_ANCHOR_CTL.arm arms a disarmed generator and computes its target. -/
  | arm (t : Nat) (m k : Nat) (v : Word)
  /-- DISARM (R61). Writing 1 to TB_ANCHOR_CTL.disarm disarms the generator. -/
  | disarm (t : Nat) (m k : Nat) (v : Word)
  -- Forcing (chapter 3)
  /-- DAC_FRAME_BOUNDARY (R85). Each 256 ns DAC frame boundary steps the calender and releases the present code plus correction to the DAC. -/
  | dacFrameBoundary (t : Nat) (n : Nat) (meas : Int)
  /-- FORCE_COMMAND (R78). A host write to CH_FORCE_SET is one force command that changes code, mode, span or range as the state table gives. -/
  | forceCommand (t : Nat) (m n : Nat) (v : Word)
  /-- RANGE_CHANGE_COMPLETE (R87). The make-before-break range change completes after 8 µs, sets range_done and executes any pending command. -/
  | rangeChangeComplete (t : Nat) (n : Nat)
  /-- SPAN_HOLD_END (R90). The 79-frame hold at 0 V of a span change ends, the new span takes effect and the ramp up begins. -/
  | spanHoldEnd (t : Nat) (n : Nat)
  /-- ATTACHMENT (R77). At PHASE 0 of line 0 of its attachment frame an armed channel closes its switch at 0 V and enters ZEROED. -/
  | attachment (t : Nat) (n : Nat)
  /-- ENABLE_CLEAR (R79). Clearing CH_CTL.enable ramps the channel to zero, stops its sweep engine, discards a pending command and cuts the measurement. -/
  | enableClear (t : Nat) (m n : Nat) (v : Word) (codes : List Int)
  /-- DETACH (R80). Writing 1 to CH_CTL.detach opens the switch at 0 V, after disabling if needed, or holds the request in SAFE. -/
  | detach (t : Nat) (m n : Nat) (v : Word) (codes : List Int)
  /-- DECKLE_HIT (R93). The analogue clamp engages at the deckle, sets clamped, counts the hit and asserts the deckle-hit source. -/
  | deckleHit (t : Nat) (n : Nat)
  /-- CLAMP_RELEASE (R94). The clamped quantity stays below the limit for 250 ns, the clamp releases and the calender ramps from the measured code. -/
  | clampRelease (t : Nat) (n : Nat) (meas : Int)
  /-- SHORT (R95). The short-circuit limiter active for 50 ns sets short and logs a class-B SHORT fault. -/
  | short (t : Nat) (n : Nat)
  /-- SHORT_CLEAR (R95). The limiter inactive for 1 µs clears CH_STATE.short. -/
  | shortClear (t : Nat) (n : Nat)
  /-- SAFE_SWITCH_OPEN (R97). Under an opening policy the switch of a SAFE channel opens once the output is within 10 mV of 0 V or after 10 ms. -/
  | safeSwitchOpen (t : Nat) (n : Nat) (within : Bool)
  /-- BOOST_LOOP (R102). A booster output deviating by more than 3 V for 10 µs while not clamped is a class-C fault. -/
  | boostLoop (t : Nat) (b : Nat)
  /-- BOOST_SENSE (R102). A BST_ISNS voltage beyond its full-scale range is a class-C fault. -/
  | boostSense (t : Nat) (b : Nat)
  /-- GUARD_OVERLOAD (R104). A guard current beyond 25 mA for 1 µs is a class-C fault on the octet and the guard drives 0 V. -/
  | guardOverload (t : Nat) (k : Nat)
  -- Measuring (chapter 4)
  /-- CELL_ROTATION (R107). Every 12.8 ms the calibrated ADC cell replaces an active cell at a conversion slot boundary. -/
  | cellRotation (t : Nat) (i : Nat)
  /-- ADC_CELL (R108). A cell that fails calibration is retired and logged class B, or class C with SAFE at a second cell. -/
  | adcCell (t : Nat) (i : Nat)
  /-- ENTRY_COMPLETE (R112). A measurement entry's aperture ends and its result is formed, stamped and sent to its destination. -/
  | entryComplete (t : Nat) (n : Nat) (codes : List Int)
  /-- LOW_POWER_SWITCH_END (R110). The 20 µs low-power switch ends and the sequence starts at entry 0 of the current profile. -/
  | lowPowerSwitchEnd (t : Nat) (n : Nat)
  /-- TRIGGER (R125). A host write of 1 to CH_MEAS_TRIG.trigger delivers a trigger, which the policy turns into a pending restart or ignores. -/
  | trigger (t : Nat) (m n : Nat) (v : Word)
  /-- RESTART (R127). At the restart instant the sampling grid is moved and entry 0 begins, its result marked ANCHORED. -/
  | restart (t : Nat) (n : Nat)
  /-- RUN_SET (R111). Setting CH_MEAS_CTL.run starts the sequencer at entry 0 on the existing sampling grid. -/
  | runSet (t : Nat) (m n : Nat) (v : Word)
  /-- RUN_CLEAR (R130). Clearing run ends the entry in progress with a CUT result and drops a pending restart. -/
  | runClear (t : Nat) (m n : Nat) (v : Word) (codes : List Int)
  /-- AUTORANGE_CLEAR (R134). Clearing autorange while in effect changes the range to the ceiling in one range change. -/
  | autorangeClear (t : Nat) (m n : Nat) (v : Word)
  /-- RANGE_HOLD (R131). The analogue range hold limits the current below the ceiling range and sets range_hold. -/
  | rangeHold (t : Nat) (n : Nat)
  /-- CH_MEAS_SEQ_WRITE (R138). A write to a measurement entry word is applied, or refused with entry_refused and a class-A fault. -/
  | chMeasSeqWrite (t : Nat) (m n p e : Nat) (v : Word)
  -- Sweeps (chapter 5)
  /-- START (R172). Writing 1 to CH_SWEEP_CTL.start starts the engine immediately or at frame, or is refused or ignored. -/
  | start (t : Nat) (m n : Nat) (v : Word) (bad : Bool)
  /-- PRIME (R174). Writing 1 to CH_SWEEP_CTL.prime in IDLE loads the prefetch buffer and enters PRIMED. -/
  | prime (t : Nat) (m n : Nat) (v : Word)
  /-- PRIMING_COMPLETE (R172). The buffer holds 16 entries or the rest of the list, and an immediate start waiting on priming begins. -/
  | primingComplete (t : Nat) (n : Nat) (bad : List Nat)
  /-- START_INSTANT (R172). Raster time reaches line 0 of frame CH_SWEEP_AT and an armed engine starts running. -/
  | startInstant (t : Nat) (n : Nat)
  /-- STOP (R175). Writing 1 to CH_SWEEP_CTL.stop requests a host stop at the next DAC frame boundary. -/
  | stop (t : Nat) (m n : Nat) (v : Word)
  /-- LOOK_AHEAD_POINT (R150). At the look-ahead point the engine executes the following control entries and arms the next timed entry. -/
  | lookAheadPoint (t : Nat) (n : Nat) (bad : Bool)
  /-- EXECUTION_START (R156). At an execution's start instant the engine writes the deckle, issues the command, trigger and profile selection. -/
  | executionStart (t : Nat) (n : Nat) (meas : Int) (bad : Bool)
  /-- MOULD_POINT (R165). A mould point's start instant arrives and its code is issued, as a full command for point 0. -/
  | mouldPoint (t : Nat) (n : Nat) (meas : Int) (bad : Bool)
  /-- ADVANCE_CONSUMED (R167). The engine consumes one pending advance for a waiting WAIT_ANCHOR or a per-advance mould. -/
  | advanceConsumed (t : Nat) (n : Nat)
  /-- WAIT_TIMEOUT (R157). A WAIT_ANCHOR with anc 0 reaches its timeout, sets wait_timeout and ends the entry. -/
  | waitTimeout (t : Nat) (n : Nat)
  /-- PREFETCH_ARRIVAL (R171). Fetched entries arrive through P0 and a starved engine arms or starts the awaited entry. -/
  | prefetchArrival (t : Nat) (n : Nat) (bad : List Nat)
  -- Results and queues (chapter 6)
  /-- FELT_PUSH (R189). The stamping stage reads the stuff FIFO head, stamps it and pushes it into its felt with a credit. -/
  | feltPush (t : Nat) (p : Producer)
  /-- CREDIT_ASK (R198). A producer holding fewer than B credits for a felt it writes asks the vat manager for a batch. -/
  | creditAsk (t : Nat) (p f : Nat)
  /-- CREDIT_GRANT (R198). The vat manager grants credits from reserve, shared pool or spill, or none. -/
  | creditGrant (t : Nat) (p f : Nat)
  /-- FELT_POP (R193). A read of word 0 of QUE_FELT_POP takes the next item and stores words 1 to 7 in the pop shadow. -/
  | feltPop (t : Nat) (m f : Nat)
  /-- POP_SHADOW_READ (R193). A read of words 1 to 7 of QUE_FELT_POP returns the pop shadow, or 0 with a snapshot miss. -/
  | popShadowRead (t : Nat) (m f w : Nat)
  /-- CAPTURE_TAKE (R194). A CAPTURE consumer takes an item for its ring and writes bursts of 8 through P2. -/
  | captureTake (t : Nat) (f : Nat)
  /-- CAPTURE_WRITE_COMPLETE (R194). A capture write completes in HBM and QUE_FELT_RING_WR advances. -/
  | captureWriteComplete (t : Nat) (f : Nat)
  /-- STREAM_TAKE (R194). A STREAM consumer takes items and sends a result-stream flit of up to 7 items. -/
  | streamTake (t : Nat) (f : Nat)
  /-- RING_RD_ADVANCE (R194). A write to QUE_FELT_RING_RD releases ring places, or is refused if out of range. -/
  | ringRdAdvance (t : Nat) (m f : Nat) (v : Word)
  /-- REFILL (R201). A spill segment near the head of its lane is moved through P5 into the felt's refill buffers. -/
  | refill (t : Nat) (f : Nat) (bad : List Nat)
  /-- TAIL_TIMEOUT (R203). The tail timer reaches 2^n µs, sets tail and makes CAPTURE or STREAM send a part-filled burst or flit. -/
  | tailTimeout (t : Nat) (f : Nat)
  /-- WATERMARK_EVENT (R206). The watermark source of a felt pair fires in the cycle after a crossing, tail timeout or DRAINED. -/
  | watermarkEvent (t : Nat) (k : Nat)
  /-- FELT_ENABLE (R208). Setting QUE_FELT_CTL.enable makes an OFF or DRAINED felt ACTIVE, or is refused. -/
  | feltEnable (t : Nat) (m f : Nat) (v : Word)
  /-- FELT_DISABLE (R208). Clearing enable makes an ACTIVE felt DRAINING and withdraws its credits. -/
  | feltDisable (t : Nat) (m f : Nat) (v : Word)
  /-- DRAINED (R208). A draining felt reaches depth 0 with its last burst done and becomes DRAINED. -/
  | drained (t : Nat) (f : Nat)
  /-- FELT_EMPTY_FOR_1_US (R194). A felt whose CAPTURE or STREAM consumer holds a part-filled burst or flit has been empty for 1 µs, and the consumer sends the part-filled burst or flit. -/
  | feltEmptyFor1Us (t : Nat) (f : Nat)
  -- Event matrix (chapter 7)
  /-- FIRE (R217). Writing 1 to EVM_RC_CTL.fire by the owner fires the routing channel. -/
  | fire (t : Nat) (m c : Nat) (v : Word)
  /-- TASK_SINGLE_DELIVERY (R215). A Single-class input delivers one pending firing per event cycle. -/
  | taskSingleDelivery (t : Nat) (input : Nat)
  /-- COMMIT (R217). Writing EVM_RC_CTL with commit 1 applies all staged values in one cycle, or is refused whole. -/
  | commit (t : Nat) (m c : Nat) (v : Word)
  /-- STAGE (R217). An owner write of changed staged fields stages them without changing service. -/
  | stage (t : Nat) (m a : Nat) (v : Word)
  /-- RC_DIRECT_WRITE (R217). A write with fire 0 and commit 0 sets enable and trace at once. -/
  | rcDirectWrite (t : Nat) (m c : Nat) (v : Word)
  /-- RE_ENTRY (R227). A re-entry in a chain is made one cycle later, counted, and cut after 16. -/
  | reEntry (t : Nat)
  /-- FAR_FORK_SEND (R228). Within 100 ns of the firing an event-broadcast flit with delivery time D is sent to the group. -/
  | farForkSend (t : Nat)
  /-- EVENT_BCAST (R230). A received event-broadcast flit is ignored, rejected, or accepted as a pending delivery and forwarded on the tree. -/
  | eventBcast (t : Nat) (p : Nat) (f : Flit)
  /-- FAR_FORK_DELIVERY (R231). Raster time reaches D and the far-fork group source asserts. -/
  | farForkDelivery (t : Nat) (g : Nat)
  /-- EVIO_INPUT_EDGE (R233). A filtered EVIO input edge is accepted and its source asserts. -/
  | evioInputEdge (t : Nat) (j : Nat) (level : Bool)
  /-- EVIO_OUTPUT (R234). At the end of cycle c+3 an EVIO output starts a pulse or toggles. -/
  | evioOutput (t : Nat) (j : Nat)
  /-- PULSE_END (R234). An EVIO pulse width elapses and the pin returns inactive. -/
  | pulseEnd (t : Nat) (j : Nat)
  -- Memory controller (chapter 8)
  /-- PORT_REQUEST (R239). A memory port accepts a request and queues it for its pseudo-channel. -/
  | portRequest (t : Nat) (p : Nat) (write : Bool) (addr : Nat) (data : List Byte) (len : Nat)
  /-- URGENCY_LEVEL_3 (R240). A request's age reaches 0.9 of its port target, and the port's memory source asserts. -/
  | urgencyLevel3 (t : Nat) (id : Nat)
  /-- COMMAND_ISSUE (R241). A pseudo-channel chooses and issues its next command by urgency, row hit, age and port. -/
  | commandIssue (t : Nat) (q : Nat)
  /-- THROTTLE_END (R245). The row-disturbance window ends, the throttle ends and counts restart. -/
  | throttleEnd (t : Nat)
  /-- READ_DATA (R251). Read data returns from the stack and is parity-checked before reaching the port. -/
  | readData (t : Nat) (id : Nat) (bad copyBad : List Nat)
  /-- SOFT_REPAIR_COMPLETE (R254). The soft repair completes, the bank is released and a repair record is queued. -/
  | softRepairComplete (t : Nat) (b q : Nat)
  /-- REFRESH (R246). A per-bank refresh falls due and is issued. -/
  | refresh (t : Nat) (b q : Nat)
  /-- PAGE_CLOSE (R243). A bank's idle timer reaches idle_ns and its row closes. -/
  | pageClose (t : Nat) (b q : Nat)
  /-- SELF_REFRESH_ENTRY (R247). After idle_us without requests the stack is precharged and put into self-refresh. -/
  | selfRefreshEntry (t : Nat)
  /-- SELF_REFRESH_EXIT (R248). A request ends self-refresh and is served once the stack is ready. -/
  | selfRefreshExit (t : Nat)
  /-- RETENTION_ENTER (R249). Writing 1 to MEMC_PR_CTL.enter starts partial retention, or is refused. -/
  | retentionEnter (t : Nat) (m : Nat) (v : Word)
  /-- RETENTION_EXIT (R250). Partial retention ends and unretained banks are marked lost. -/
  | retentionExit (t : Nat) (m : Nat) (v : Word)
  /-- TRAINING_ROUND (R255). Background training completes a round and the shadow set becomes active. -/
  | trainingRound (t : Nat)
  /-- FREQ_REQ (R256). A write of a new rate to MEMC_FREQ.req starts or defers training at that rate. -/
  | freqReq (t : Nat) (m : Nat) (v : Word)
  /-- FREQ_SWITCH (R256). Training at the new rate completes and the controller switches rate in FREQ_SWITCH. -/
  | freqSwitch (t : Nat)
  -- The web, MGMT_SPI and JTAG (chapter 9)
  /-- PORT_ENABLE (R262). Setting WEB_PORT_CTL.enable takes a DISABLED port to DETECT. -/
  | portEnable (t : Nat) (m p : Nat) (v : Word)
  /-- SIGNAL_DETECTED (R262). Signal on both active receive lanes takes the port to TRAIN. -/
  | signalDetected (t : Nat) (p : Nat)
  /-- TRAIN_COMPLETE (R262). Both ends trained take the port to ALIGN. -/
  | trainComplete (t : Nat) (p : Nat)
  /-- TRAIN_TIMEOUT (R262). 100 ms without training returns the port to DETECT. -/
  | trainTimeout (t : Nat) (p : Nat)
  /-- ALIGNED (R262). Codeword alignment held for 1,024 codewords takes the port to PARAM. -/
  | aligned (t : Nat) (p skew count : Nat)
  /-- ALIGN_TIMEOUT (R262). 1 ms without alignment returns the port to DETECT. -/
  | alignTimeout (t : Nat) (p : Nat)
  /-- HELLO (R264). A LINK_PARAM HELLO is received and the peer check takes the port to ACTIVE or FAILED. -/
  | hello (t : Nat) (p node port rate : Nat) (spare : Bool)
  /-- FAILED_RETRY (R262). 1 s after entering FAILED an enabled port returns to DETECT. -/
  | failedRetry (t : Nat) (p : Nat)
  /-- RETRAIN_TIMEOUT (R262). 50 ms in RETRAIN without success takes the port to FAILED and discards its flits. -/
  | retrainTimeout (t : Nat) (p : Nat)
  /-- RETRAINED (R262). Retraining completes and the port returns to ACTIVE. -/
  | retrained (t : Nat) (p skew count : Nat)
  /-- LOSS_OF_ALIGNMENT (R262). The receiver of an ACTIVE port loses codeword alignment on both active lanes, and the port enters RETRAIN. -/
  | lossOfAlignment (t : Nat) (p : Nat)
  /-- FLIT_RECEIVE (R267). A flit is received, checked for CRC and sequence, acked, and delivered locally or routed on. -/
  | flitReceive (t : Nat) (p : Nat) (data : List Byte) (errs : List Nat)
  /-- REPLAY_TIMEOUT (R268). The oldest unacknowledged flit waits 4 µs and the sender replays. -/
  | replayTimeout (t : Nat) (p : Nat)
  /-- FLIT_SEND (R271). An output port chooses the next flit by class priority and credits and sends it. -/
  | flitSend (t : Nat) (p : Nat)
  /-- READ_REQ (R272). A READ_REQ is performed as word or memory reads and answered with READ_RSP. -/
  | readReq (t : Nat) (src tag addr len : Nat) (bad : Bool)
  /-- WRITE_REQ (R272). A WRITE_REQ is performed as word or memory writes and answered with WRITE_RSP. -/
  | writeReq (t : Nat) (src tag addr : Nat) (data : List Byte)
  /-- EYE_MEASUREMENT (R279). Once per millisecond each powered lane's eye is measured and its health state updated; the symbols corrected on it and the codewords
  charged to it since the last measurement join its counts. -/
  | eyeMeasurement (t : Nat) (p l width height : Nat)
  /-- LOSS_OF_SIGNAL (R281). Loss of signal or clock recovery on a lane makes it FAILED. -/
  | lossOfSignal (t : Nat) (p l : Nat)
  /-- SPARE_ON (R280). A SPARE_ON message asks the device to power and train its spare transmit lane. -/
  | spareOn (t : Nat) (p lane : Nat)
  /-- SPARE_TRAINED (R280). The spare lane finishes training and a swap is proposed. -/
  | spareTrained (t : Nat) (p : Nat) (d : Dir) (count : Nat)
  /-- SWAP_REQ (R280). A SWAP_REQ proposing a codeword count for the swap is received and acknowledged. -/
  | swapReq (t : Nat) (p : Nat) (d : Dir) (lane count : Nat)
  /-- SWAP_ACK (R280). A SWAP_ACK fixes the codeword count of the swap. -/
  | swapAck (t : Nat) (p : Nat) (d : Dir) (lane count : Nat)
  /-- LANE_SWAP (R280). At the agreed codeword the spare takes over the logical lane and LANE_SPARED is logged. -/
  | laneSwap (t : Nat) (p : Nat) (d : Dir)
  /-- LINK_EYE (R279). Every period seconds agent 16+p writes a LINK_EYE item. -/
  | linkEye (t : Nat) (p : Nat)
  /-- WEB_PORT_RATE_REQ (R282). A write of a new rate to WEB_PORT_RATE.req sends RATE_REQ or defers it. -/
  | webPortRateReq (t : Nat) (m p : Nat) (v : Word)
  /-- RATE_REQ (R282). A received RATE_REQ is answered with RATE_ACK or a refusal. -/
  | rateReq (t : Nat) (p code : Nat) (refuse : Bool)
  /-- RATE_ACK (R282). A received RATE_ACK starts the rate change through RETRAIN, or a refusal sets rate_refused. -/
  | rateAck (t : Nat) (p code : Nat)
  /-- SPI_WRITE (R286). MGMT_SPI command 0x02 writes a word with master ID 0x1020 when CS_N rises. -/
  | spiWrite (t : Nat) (mosi : List Byte)
  /-- SPI_READ (R286). MGMT_SPI command 0x03 reads a word and returns status and data bytes. -/
  | spiRead (t : Nat) (mosi : List Byte) (busy : Nat) (bad : Bool)
  /-- IDCODE (R287). The IDCODE instruction selects the identification register. -/
  | idcode (t : Nat) (trst : Bool)
  /-- BYPASS (R287). The BYPASS instruction, and every unused code, selects the bypass register. -/
  | bypass (t : Nat) (code : Nat)
  /-- SAMPLE_PRELOAD (R287). SAMPLE/PRELOAD captures and loads the boundary scan register. -/
  | samplePreload (t : Nat) (pins load : Nat)
  /-- EXTEST (R288). EXTEST drives boundary scan values, only in boot phases 0x0 to 0x2 or 0xF. -/
  | extest (t : Nat) (pins load : Nat)
  /-- EXTEST_PULSE (R288). EXTEST_PULSE tests AC-coupled lanes under IEEE 1149.6 in allowed phases. -/
  | extestPulse (t : Nat) (pins load : Nat)
  /-- EXTEST_TRAIN (R288). EXTEST_TRAIN drives trains on AC-coupled lanes in allowed phases. -/
  | extestTrain (t : Nat) (pins load : Nat)
  /-- HIGHZ (R288). HIGHZ places outputs in high impedance in allowed phases. -/
  | highz (t : Nat)
  /-- CLAMP (R288). CLAMP holds boundary outputs with bypass selected in allowed phases. -/
  | clamp (t : Nat)
  /-- MGMT_ACCESS (R287). The MGMT_ACCESS data register performs management reads and writes with master ID 0x1021. -/
  | mgmtAccess (t : Nat) (write : Bool) (a : Nat) (v : Word) (bad : Bool)
  -- Faults and safe state (chapter 10)
  /-- CAPTURE (R296). A hardware-detected fault is captured into a record and its reaction applied to its scope. -/
  | capture (t : Nat) (code cls : Nat) (sc : Scope) (master access addr detail : Nat)
  /-- FIRMWARE_FAULT (R294). Management firmware posts a fault to the collector, which captures and reacts within 1 µs. -/
  | firmwareFault (t : Nat) (code cls : Nat) (sc : Scope) (master : Nat)
  /-- QUEUED_CAPTURE (R295). A fault waiting in the capture queue is captured in a later cycle. -/
  | queuedCapture (t : Nat)
  /-- CONDITION_CLEAR (R300). A condition fault's cause ends and its record gains CLEARED and clr. -/
  | conditionClear (t : Nat) (code : Nat) (sc : Scope)
  /-- FLT_ACK (R302). A write to FLT_ACK acknowledges records of the masked classes and may release held channels. -/
  | fltAck (t : Nat) (m : Nat) (v : Word)
  /-- RELEASE (R305). The quiet period ends with all covering records cleared and the channels are released from SAFE. -/
  | release (t : Nat) (sc : Scope)
  /-- HOURLY_COUNT_STEP (R306). Each minute the 60-minute release counts move on by one step. -/
  | hourlyCountStep (t : Nat)
  /-- SAFE_N (R307). SAFE_N low for 20 ns is recognised as class-E EXT_SAFE. -/
  | safeN (t : Nat) (width : Nat)
  /-- SAFE_N_RELEASE (R307). SAFE_N high for 1 µs clears EXT_SAFE. -/
  | safeNRelease (t : Nat)
  /-- INJECTION_FIRE (R309). Writing 1 to FLT_INJ_CTL.fire fires an injection slot, or is refused. -/
  | injectionFire (t : Nat) (m j : Nat) (v : Word)
  /-- INJECTED_DETECTION (R309). An accepted injection is detected in the next cycle as a fault with INJECTED. -/
  | injectedDetection (t : Nat) (j : Nat)
  /-- INJECTION_CLEAR (R309). Writing 1 to FLT_INJ_CTL.clear clears a held injected condition. -/
  | injectionClear (t : Nat) (m j : Nat) (v : Word)
  /-- FIRST_REARM (R298). Writing 1 to FLT_CTL.first_rearm re-arms FLT_FIRST. -/
  | firstRearm (t : Nat) (m : Nat) (v : Word)
  -- Calibration and couching (chapter 11)
  /-- TEMP_TRIGGER (R320). A slice or group sensor moves beyond the threshold and a calibration run starts. -/
  | tempTrigger (t : Nat) (group : Bool) (i temp : Nat)
  /-- INTERVAL_TRIGGER (R320). A slice's last step lies interval_h hours back and the slice is run. -/
  | intervalTrigger (t : Nat) (i : Nat)
  /-- CAL_RUN (R320). A write of CAL_CMD.run starts a run of the named tiles or slice. -/
  | calRun (t : Nat) (m : Nat) (v : Word)
  /-- SLICE_STEP_START (R321). A slice step begins with its load sample. -/
  | sliceStepStart (t : Nat) (tile : Nat)
  /-- MEASURE_PATH_STEP (R323). The measure-path step begins and the channel's results carry STALE. -/
  | measurePathStep (t : Nat) (i : Nat) (loaded : Bool)
  /-- OPEN_OUTPUT_SLOT (R326). The open-output slot begins and the check is made, bridged or deferred. -/
  | openOutputSlot (t : Nat) (i : Nat)
  /-- BRIDGE_END (R325). The 40 µs disconnection ends, the home stage is reconnected and the spare released. -/
  | bridgeEnd (t : Nat) (i : Nat)
  /-- OPEN_OUTPUT_SLOT_END (R326). The open-output slot ends. -/
  | openOutputSlotEnd (t : Nat) (i : Nat)
  /-- SLICE_STEP_END (R328). The slice step ends, quality figures are formed and the force correction ramp begins. -/
  | sliceStepEnd (t : Nat) (i qSpan qRange segMin temp : Nat) (corr : Int) (sel ladder : DWord) (short lost : Bool)
  /-- DEFERRAL_RETRY (R326). retry_s after a deferral the slice is given a further slice step. -/
  | deferralRetry (t : Nat) (i : Nat)
  /-- CAL_BURN (R317). A write of CAL_CMD.burn requests a fuse generation burn. -/
  | calBurn (t : Nat) (m : Nat) (v : Word)
  /-- GENERATION_COMMITTED (R316). The commit marker is burnt and the generation commits. -/
  | generationCommitted (t : Nat)
  /-- CAL_COUCH_CMD (R330). A write of CAL_COUCH_CMD.go requests couching of a channel to a named slice. -/
  | calCouchCmd (t : Nat) (m : Nat) (v : Word)
  /-- COUCHING_START (R331). A due channel's couching begins with the spare's pre-calibration, or re-maps a DETACHED channel. -/
  | couchingStart (t : Nat) (tile : Nat)
  /-- MATCH (R332). Pre-calibration ends and the spare is matched to the output, the channel entering COUCHING. -/
  | couchMatch (t : Nat) (tile : Nat)
  /-- MATCH_TIMEOUT (R334). The match does not hold within 200 µs and the couching is abandoned. -/
  | matchTimeout (t : Nat) (tile : Nat)
  /-- CONNECT (R332). The matched spare is connected in parallel through the couch matrix. -/
  | connect (t : Nat) (tile : Nat)
  /-- HANDOVER_RAMP (R332). The spare's current share ramps from 0 to 100 % over 64 µs. -/
  | handoverRamp (t : Nat) (tile : Nat)
  /-- COUCH_RELEASE (R332). The old slice is disconnected and the channel's producer identity moves to the new slice. -/
  | couchRelease (t : Nat) (tile : Nat)
  /-- COUCH_RETRY (R334). 1 s after abandonment the couching is tried again. -/
  | couchRetry (t : Nat) (tile : Nat)
  /-- WEAR_ACCUMULATE (R336). Each millisecond weighted charge and thermal cycles are accumulated. -/
  | wearAccumulate (t : Nat) (i temp pah : Nat)
  /-- WEAR_LOG_SAVE (R337). Hourly the firmware saves wear to the alternate half of the wear log. -/
  | wearLogSave (t : Nat)
  -- Start-up, image, amendments, forerunner mode (chapter 12)
  /-- POR_RELEASE (R376). Rails, clocks and PORST_N meet their conditions and POR is released. -/
  | porRelease (t : Nat)
  /-- FUSE_LOAD (R341). Boot phase 0x0 loads the fuses and ends. -/
  | fuseLoad (t : Nat)
  /-- SLOT_SELECTION (R346). Boot phase 0x1 selects a slot and reads and hashes its header, manifest and sections. -/
  | slotSelection (t : Nat) (absentA absentB : Bool)
  /-- VERIFICATION (R351). Boot phase 0x2 verifies the slot, loads firmware and applies the MEMC section. -/
  | verification (t : Nat)
  /-- HBM_TRAINING (R398). Boot phase 0x3 trains the HBM and writes HBM_DATA sections. -/
  | hbmTraining (t : Nat)
  /-- WEB_TRAINING (R263). Boot phase 0x4 ends when ports are up or 100 ms pass, and DEVICE_NODE.valid becomes 1. -/
  | webTraining (t : Nat)
  /-- TILE_POWER_UP (R341). Boot phase 0x5 applies sections and powers the tiles. -/
  | tilePowerUp (t : Nat)
  /-- START_UP_RUN (R319). The start-up calibration run of all slices ends. -/
  | startUpRun (t : Nat)
  /-- RUNNING_ENTRY (R342). Phase 0x6 has applied its sections and raster_ready is 1, so the device enters phase 0x7. -/
  | runningEntry (t : Nat)
  /-- FLASH_READ (R345). BOOT_FLASH_CTL command 0x1 reads 64 bytes of a slot in phase 0xF. -/
  | flashRead (t : Nat) (m : Nat) (v : Word)
  /-- FLASH_PROGRAM (R345). BOOT_FLASH_CTL command 0x2 programs 64 bytes in phase 0xF. -/
  | flashProgram (t : Nat) (m : Nat) (v : Word)
  /-- FLASH_ERASE (R345). BOOT_FLASH_CTL command 0x3 erases a 64 KiB sector in phase 0xF. -/
  | flashErase (t : Nat) (m : Nat) (v : Word)
  /-- REBOOT (R345). BOOT_FLASH_CTL command 0xF restarts the device at phase 0x1. -/
  | reboot (t : Nat) (m : Nat) (v : Word)
  /-- FLASH_COMMAND_COMPLETE (R345). A flash command completes and busy clears. -/
  | flashCommandComplete (t : Nat) (error : Bool)
  /-- CORE_FAILED (R358). A core fails lockstep or its watchdog, is stopped and CORE_FAILED is logged. -/
  | coreFailed (t : Nat) (k : Nat)
  /-- CORE_TAKES_DUTY (R358). The spare core boots and takes the failed core's duty. -/
  | coreTakesDuty (t : Nat) (k duty : Nat)
  /-- CORE_RESTART (R359). During a bank switch each core restarts on the new bank in turn. -/
  | coreRestart (t : Nat)
  /-- DOORBELL (R360). The HOST core takes a pending doorbell and performs its action. -/
  | doorbell (t : Nat) (j : Nat)
  /-- AMEND_SEG (R361). An AMEND_SEG flit opens or fills the package in the staging area. -/
  | amendSeg (t : Nat) (src tag off : Nat) (data : List Byte)
  /-- STAGED (R362). Verification and preparation complete and the package is STAGED. -/
  | staged (t : Nat)
  /-- AMEND_TIMEOUT (R361). 10 s without completion rejects the package with TIMEOUT. -/
  | amendTimeout (t : Nat)
  /-- ABORT (R363). Writing BOOT_AMEND_CTL.abort before the boundary rejects the package. -/
  | abort (t : Nat) (m : Nat) (v : Word)
  /-- AMENDMENT_BOUNDARY (R364). At the boundary all amended values and tables take effect for every block in one cycle. -/
  | amendmentBoundary (t : Nat)
  /-- SLOT_WRITE (R367). After the boundary the CAL core writes a SLOT_IMAGE to the standby slot. -/
  | slotWrite (t : Nat)
  /-- SLOT_WRITE_COMPLETE (R367). The standby slot write ends with the header programmed, or fails. -/
  | slotWriteComplete (t : Nat) (error : Bool)
  /-- ATTEST_REQ (R368). An ATTEST_REQ with a nonce is queued or refused. -/
  | attestReq (t : Nat) (src tag : Nat) (nonce : BitVec 256)
  /-- ATTEST_RSP (R368). The report is signed and sent in three ATTEST_RSP flits. -/
  | attestRsp (t : Nat)
  /-- FORERUNNER_WINDOW_ACCESS (R370). An access to a virtual node reaches its forerunner window as a ZRT-2560 node. -/
  | forerunnerWindowAccess (t : Nat) (m node : Nat) (write : Bool) (a : Nat) (v : Word)
  -- Supplies, power and domains (chapter 13)
  /-- PORST_N (R376). PORST_N low for 1 µs restarts the device as at power-on. -/
  | porstN (t : Nat)
  /-- SUPPLY_TILE (R380). A tile rail is lost, a class-D fault puts the tile in tile safe state. -/
  | supplyTile (t : Nat) (tile : Nat)
  /-- TILE_DOMAINS_OFF (R380). The lost tile's domains switch off once outputs reach 0 V or 50 µs pass. -/
  | tileDomainsOff (t : Nat) (tile : Nat) (within : Bool)
  /-- SUPPLY_HUB (R380). A hub rail is lost, a class-E fault makes all tiles safe and the hub is held in reset. -/
  | supplyHub (t : Nat) (rail : Nat)
  /-- HUB_RESTART (R381). Hub rails back for 2 ms restart the device at phase 0x0 keeping always-on state. -/
  | hubRestart (t : Nat)
  /-- VDD_AON_LOSS (R380). Loss of VDD_AON causes a full POR. -/
  | vddAonLoss (t : Nat)
  /-- POWER_MEASUREMENT (R386). Every 1 ms device power and all sensors are measured and the excursion timer updated. -/
  | powerMeasurement (t : Nat) (mw : Nat) (tiles : List Nat) (stack hub : Nat)
  /-- DEVICE_STEP (R388). With the timer at allow_ms and power over budget the governor takes a device step every 10 ms. -/
  | deviceStep (t : Nat)
  /-- TILE_STEP (R389). A tile sensor at 115 °C takes a tile step every 10 ms. -/
  | tileStep (t : Nat) (tile : Nat)
  /-- STEP_RELEASE (R390). After a qualifying second a governor step is released. -/
  | stepRelease (t : Nat) (tile : Option Nat)
  /-- DOMAIN_ON (R392). PWR_DOMAIN_REQ with on switches a domain on. -/
  | domainOn (t : Nat) (m : Nat) (v : Word)
  /-- DOMAIN_OFF (R392). PWR_DOMAIN_REQ with off switches a domain off, or is refused if in use. -/
  | domainOff (t : Nat) (m : Nat) (v : Word)
  /-- SLICE_GROUP_POWERED (R392). A switched-on slice group is powered and a calibration run of its slices starts. -/
  | sliceGroupPowered (t : Nat) (d : Nat)
  deriving DecidableEq, Repr

end Sys2Proof
end

