-- ==== Sys2Proof/Decode.lean ====
section
/-!
DEFINITION. The command that a word spells by the bits of the opcode table. No row of the table gives bits: a command reaches the device as a
register access, a flit, a pin's event or the end of an interval, and none of them has one word that spells it.
-/

namespace Sys2Proof

/-- No row of spec/opcode_table.json gives a word, so no word spells a command. -/
def decodeTableWord (_nbits _w : Nat) : Option Instr := none

end Sys2Proof
end

