-- ==== Sys2Proof/Config.lean ====
section
/-!
DEFINITION. What an implementation fixes and the free values: opaque constants without a body, so that no proof can see them.
Every value drawn while the machine runs is taken from one of the `free...` sequences at the index `State.free`, which the step advances
(notes/assumptions/3.md).
-/

namespace Sys2Proof.Config

/-- A 32-bit value that the spec leaves open (notes/assumptions/3.md). -/
opaque freeWord : Nat → BitVec 32

/-- A 64-bit value that the spec leaves open (notes/assumptions/3.md). -/
opaque freeDWord : Nat → BitVec 64

/-- An integer that the spec leaves open (notes/assumptions/3.md). -/
opaque freeInt : Nat → Int

/-- gain_cal of R118 is `gainNum / (gainDen + 1)` and offset_cal `offsetNum / (offsetDen + 1)`: the running corrections of a slice,
by slice, number of the corrections in force, source, range or span, and gain. The fuses and the calibration runs decide them
(notes/assumptions/61.md). -/
opaque gainNum : Nat → Nat → Nat → Nat → Nat → Int
opaque gainDen : Nat → Nat → Nat → Nat → Nat → Nat
opaque offsetNum : Nat → Nat → Nat → Nat → Nat → Int
opaque offsetDen : Nat → Nat → Nat → Nat → Nat → Nat

/-- The marker code of a codeword, by its count (R259; the spec names no codes, notes/assumptions/104.md). -/
opaque markerCode : Nat → Nat

/-- The factory contents of a fuse word (R315, R353): serial number, keys, asymmetry corrections, selections and records burnt before
delivery. -/
opaque factoryFuse : Nat → BitVec 32

/-- Spare rows of bank b/q of the stack, by b × 32 + q (R254; the spec gives no number, notes/assumptions/74.md). -/
opaque spareRows : Nat → Nat

/-- The pseudo-channel under background training at an instant (R255; the spec gives no pace, notes/assumptions/76.md). -/
opaque trainPc : Nat → Nat

/-- What the stack holds at an address of a bank that lost its contents, by how often the bank has lost them (R250; the spec gives no
contents, notes/assumptions/4.md). -/
opaque lostByte : Nat → Nat → BitVec 8

/-- The SM3 digest of GB/T 32905, byte 0 lowest (R348, R351): the standard computes it, not this spec (notes/assumptions/80.md). -/
opaque sm3 : List (BitVec 8) → BitVec 256

/-- SM2 verification of GB/T 32918 with a distinguishing identifier (0 ELVOON, 1 SIENAILO-FW, 2 TILYS-ATTEST): public key, signed bytes
and signature (R352, notes/assumptions/80.md). -/
opaque sm2Verify : Nat → List (BitVec 8) → List (BitVec 8) → List (BitVec 8) → Bool

/-- The 64-byte SM2 signature that the security engine makes with the identity key, as a number, byte 0 lowest; by how many it has
made (R368, notes/assumptions/80.md). -/
opaque sm2Sign : Nat → List (BitVec 8) → BitVec 512

end Sys2Proof.Config
end

