-- ==== Sys2Proof/Machine/Bits.lean ====
section
/-!
DEFINITION. Bit fields, sign extension and byte order (R5), and saturating counters.
-/

namespace Sys2Proof.Machine

/-- The field of `len` bits from bit `lo` upwards, as a number. -/
def bits (w : Word) (lo len : Nat) : Nat := (w.toNat >>> lo) % 2 ^ len

/-- Bit `i` of a word. -/
def bit (w : Word) (i : Nat) : Bool := w.getLsbD i

/-- The mask with ones in `len` bits from bit `lo` upwards. -/
def maskOf (lo len : Nat) : Word := BitVec.ofNat 32 ((2 ^ len - 1) <<< lo)

/-- `v` placed in the `len` bits from bit `lo` upwards, zeros elsewhere. -/
def place (lo len v : Nat) : Word := BitVec.ofNat 32 ((v % 2 ^ len) <<< lo)

/-- A word with one field replaced. -/
def setBits (w : Word) (lo len v : Nat) : Word := (w &&& ~~~(maskOf lo len)) ||| place lo len v

/-- One bit as a number. -/
def b2n (b : Bool) : Nat := if b then 1 else 0

/-- Two's complement value of the low `len` bits of `v`. -/
def signed (len v : Nat) : Int :=
  let x := v % 2 ^ len
  if x < 2 ^ (len - 1) then (x : Int) else (x : Int) - (2 ^ len : Nat)

/-- An integer as a `len`-bit two's complement number. -/
def unsigned (len : Nat) (i : Int) : Nat := (i % ((2 ^ len : Nat) : Int)).toNat

/-- The low word of a 64-bit value (R6). -/
def loWord (v : Nat) : Word := BitVec.ofNat 32 v

/-- The high word of a 64-bit value (R6). -/
def hiWord (v : Nat) : Word := BitVec.ofNat 32 (v / 2 ^ 32)

/-- Saturating addition at `max`. -/
def satAdd (max a b : Nat) : Nat := min max (a + b)

/-- An integer clamped to the range from `-lim` to `lim`. -/
def clampInt (lim : Nat) (i : Int) : Int := if i > lim then lim else if i < -(lim : Int) then -(lim : Int) else i

/-- The word made of four bytes, first byte lowest (R5). -/
def wordOfBytes (b0 b1 b2 b3 : Byte) : Word :=
  BitVec.ofNat 32 (b0.toNat + b1.toNat * 2 ^ 8 + b2.toNat * 2 ^ 16 + b3.toNat * 2 ^ 24)

/-- Byte `i` of a word, byte 0 the least significant (R5). -/
def byteOf (w : Word) (i : Nat) : Byte := BitVec.ofNat 8 (w.toNat >>> (8 * i))

/-- The integer quotient rounded to the nearest, halves upwards. -/
def roundDiv (a : Int) (d : Nat) : Int := (2 * a + d) / (2 * (d : Int))

/-- Bit `i` of a number, set or cleared. -/
def setBitN (x i : Nat) (v : Bool) : Nat :=
  if v then x ||| 2 ^ i else x - (x &&& 2 ^ i)

/-- One bit step of CRC-32C in reflected form. -/
def crcBit (c : Word) : Word := if c.getLsbD 0 then (c >>> 1) ^^^ 0x82F63B78 else c >>> 1

def crcByte (c : Word) (b : Byte) : Word :=
  (List.range 8).foldl (fun c _ => crcBit c) (c ^^^ b.setWidth 32)

/-- CRC-32C as in IETF RFC 3720 (R265, R315, R337). -/
def crc32c (l : List Byte) : Word := ~~~ (l.foldl crcByte 0xFFFFFFFF)

end Sys2Proof.Machine
end

