-- ==== Sys2Proof/Machine/RegTable.lean ====
section
/-!
DEFINITION. The register map: every register of the spec's register tables with its block, offset, instance and array
strides, reset value and the fields that are not read-only (R4, R5, R22; Table 1-5; the register sections of every
chapter). Read-only fields are computed when a register is read.
-/

namespace Sys2Proof.Machine

/-- The register blocks of Table 1-5. -/
inductive Blk where
  | device | tb | evm | que | memc | web | flt | cal | boot | pwr | test | tile | ch
  deriving DecidableEq, Repr

/-- The access codes of Table 0-2 (read-only fields are not listed). -/
inductive Acc where
  | rw | rwi | w1c | w1s | rc | wo
  deriving DecidableEq, Repr

/-- Every register, under its own name. -/
inductive Reg where
  | DEVICE_ID | DEVICE_STATUS | DEVICE_NODE | DEVICE_CAPS | DEVICE_SERIAL_LO | DEVICE_SERIAL_HI
  | DEVICE_ABS_TIME_LO | DEVICE_ABS_TIME_HI | DEVICE_SPARE_MAP | DEVICE_SNAP_MISS | TB_CTL | TB_LINES_PER_FRAME
  | TB_H_TOTAL | TB_QUAL | TB_STATUS | TB_EVENTS | TB_TIME_LO | TB_TIME_HI
  | TB_LINE_PERIOD | TB_PHASE_ERR | TB_GLITCH_COUNT | TB_LATE_COUNT | TB_HOLDOVER_LINES | TB_FRAME_INIT
  | TB_BEAT_CTL | TB_BEAT_ROOT | TB_BEAT_STATUS | TB_ALT_OFFSET | TB_PORT_DELAY | TB_PORT_ASYM
  | TB_ANCHOR_CTL | TB_ANCHOR_STATUS | TB_ANCHOR_TARGET_LO | TB_ANCHOR_TARGET_HI | TB_ANCHOR_LAST_LO | TB_ANCHOR_LAST_HI
  | CH_CTL | CH_STATE | CH_ATTACH | CH_FORCE_SET | CH_FORCE_NOW | CH_DECKLE
  | CH_DECKLE_DEFAULT | CH_CALENDER | CH_CALENDER_RATE | CH_FORCE_EVENTS | CH_DECKLE_COUNT | TILE_BST_BIND
  | TILE_BST_COMP | TILE_BST_RSNS | TILE_GUARD_CTL | TILE_GUARD_STATUS | CH_MEAS_CTL | CH_MEAS_LEN
  | CH_MEAS_TRIG | CH_MEAS_DELAY | CH_MEAS_STATUS | CH_MEAS_EVENTS | CH_MEAS_CUT_COUNT | CH_MEAS_TRIG_COUNT
  | CH_MEAS_DROP_COUNT | CH_AUTORANGE | CH_MEAS_MON | CH_MEAS_MON_PEAK | CH_MEAS_LAST_LO | CH_MEAS_LAST_HI
  | CH_MEAS_LAST_INFO | CH_MEAS_SEQ | CH_SWEEP_CTL | CH_SWEEP_LIST | CH_SWEEP_ENTRY | CH_SWEEP_AT
  | CH_SWEEP_STATUS | CH_SWEEP_CUR | CH_SWEEP_POS | CH_SWEEP_EVENTS | CH_SWEEP_MARK | CH_SWEEP_LATE_COUNT
  | CH_SWEEP_STARVE_COUNT | CH_SWEEP_MOULD | CH_SWEEP_POINT | CH_SWEEP_LOOP_AT | CH_SWEEP_LOOP_LEFT | CH_RES_CTL
  | CH_RES_STATUS | CH_RES_EVENTS | CH_RES_NOCREDIT_COUNT | QUE_CTL | QUE_STATUS | QUE_VAT_FREE
  | QUE_SPILL_BASE | QUE_SPILL_SIZE | QUE_SPILL_USED | QUE_EVENTS | QUE_AGENT_CTL | QUE_AGENT_DROP_COUNT
  | QUE_FELT_CTL | QUE_FELT_RESERVE | QUE_FELT_LIMIT | QUE_FELT_STATUS | QUE_FELT_DEPTH | QUE_FELT_SPILLED
  | QUE_FELT_WM_HIGH | QUE_FELT_WM_LOW | QUE_FELT_WM_STATUS | QUE_FELT_DEST | QUE_FELT_RING_BASE | QUE_FELT_RING_SIZE
  | QUE_FELT_RING_WR | QUE_FELT_RING_RD | QUE_FELT_DROP_COUNT | QUE_FELT_POP | EVM_STATUS | EVM_EVENTS
  | EVM_LOOP_COUNT | EVM_FAR_LATE_COUNT | EVM_DROP_COUNT | EVM_LAST_REFUSED | EVM_FAR_GROUP | EVM_EVIO_CTL
  | EVM_EVIO_STATUS | EVM_RC_CTL | EVM_RC_OWNER | EVM_RC_TARGET | EVM_RC_FAR_OFS | EVM_RC_STATUS
  | EVM_TASK_PEND | EVM_TASK_OVF | MEMC_STATUS | MEMC_EVENTS | MEMC_FREQ | MEMC_TRAIN
  | MEMC_PAGE | MEMC_PORT_TARGET | MEMC_PORT_STATS | MEMC_RH_CTL | MEMC_RH_STATUS | MEMC_RH_COUNT
  | MEMC_SR_CTL | MEMC_SR_STATS | MEMC_PR_CTL | MEMC_PR_BANK | MEMC_PR_PC | MEMC_LOST_BANK
  | MEMC_LOST_PC | MEMC_PAR_STATS | MEMC_ERR_ADDR_LO | MEMC_ERR_ADDR_HI | MEMC_PPR_STATUS | MEMC_PPR_CTL
  | MEMC_REGION_BASE | MEMC_REGION_SIZE | MEMC_REGION_COPY | MEMC_REGION_ATTR | WEB_CTL | WEB_TORUS_BASE
  | WEB_EVENTS | WEB_DROP_COUNT | WEB_LANE_LIMIT | WEB_EYE_CTL | WEB_TARGET_STATUS | WEB_PORT_CTL
  | WEB_PORT_STATUS | WEB_PORT_RATE | WEB_PORT_STATS | WEB_PORT_RETRAIN | WEB_LANE_EYE | WEB_LANE_FEC
  | WEB_BCAST | WEB_ROUTE | FLT_STATUS | FLT_CTL | FLT_UNACK | FLT_ACK
  | FLT_SEQ | FLT_POLICY | FLT_RECOVERY | FLT_PIN | FLT_RECOVER_COUNT | FLT_LOST
  | FLT_FIRST | FLT_INJ_CTL | FLT_INJ_STATUS | FLT_RING | TEST_STATUS | CAL_CTL
  | CAL_CMD | CAL_STATUS | CAL_EVENTS | CAL_LIMIT | CAL_COUCH_CTL | CAL_WEAR_PROFILE
  | CAL_LAST_RUN_LO | CAL_LAST_RUN_HI | CAL_COUCH_CMD | CAL_SPARES | CAL_TILE_SPARES | CAL_COUCH_STATUS
  | CAL_SLICE_STATUS | CAL_SLICE_QUALITY | CAL_SLICE_CHARGE | CAL_SLICE_WEAR | BOOT_STATUS | BOOT_FAIL
  | BOOT_FW_VERSION | BOOT_CORE_STATUS | BOOT_AMEND_STATUS | BOOT_SLOT_WRITE | BOOT_FLASH_CTL | PWR_STATUS
  | PWR_CTL | PWR_POWER | PWR_EXCURSION | PWR_EVENTS | PWR_GOV | PWR_DOMAIN_REQ
  | PWR_DOMAIN_ON_LO | PWR_DOMAIN_ON_HI | PWR_TILE_TEMP | PWR_HUB_TEMP | EVM_STAMP_RT_LO | EVM_STAMP_RT_HI
  | EVM_STAMP_ABS_LO | EVM_STAMP_ABS_HI | EVM_STAMP_COUNT | TEST_WEB_DELAY | TEST_CREDIT_HOLD_LO | TEST_CREDIT_HOLD_HI
  | TEST_CONSUMER_HOLD_LO | TEST_CONSUMER_HOLD_HI | TEST_PORT_HOLD | TEST_HBM_STRETCH | TEST_BEAT_SKEW | TEST_OVERFILL
  | BOOT_AMEND_RX | BOOT_AMEND_ID | BOOT_AMEND_FRAME | BOOT_AMEND_COUNT | BOOT_AMEND_CTL | BOOT_IMAGE_DIGEST
  | BOOT_CONFIG_DIGEST | BOOT_FLASH_ADDR | BOOT_FLASH_DATA | BOOT_FUSE
  deriving DecidableEq, Repr

/-- A field of a register: its low bit, its width and its access code. -/
structure Fld where
  reg : Reg
  lo  : Nat
  len : Nat
  acc : Acc
  deriving DecidableEq, Repr

/-- A register of the map: instance `i` of `n` (stride `s`) and element `j` of `m` (stride `q`) lie at offset
`off + i * s + j * q` of the block. -/
structure RegRow where
  blk : Blk
  off : Nat
  s : Nat
  n : Nat
  q : Nat
  m : Nat
  reset : Nat
  fields : List Fld
  deriving Repr

/-! ## Fields, named `<register>_<field>` -/

def f_DEVICE_NODE_node_id : Fld := ⟨.DEVICE_NODE, 0, 12, .rwi⟩
def f_DEVICE_SNAP_MISS_count : Fld := ⟨.DEVICE_SNAP_MISS, 0, 16, .rc⟩
def f_TB_CTL_root : Fld := ⟨.TB_CTL, 31, 1, .rwi⟩
def f_TB_CTL_src : Fld := ⟨.TB_CTL, 28, 3, .rwi⟩
def f_TB_CTL_line_io : Fld := ⟨.TB_CTL, 27, 1, .rwi⟩
def f_TB_CTL_frame_io : Fld := ⟨.TB_CTL, 26, 1, .rwi⟩
def f_TB_CTL_line_edge : Fld := ⟨.TB_CTL, 25, 1, .rwi⟩
def f_TB_CTL_frame_level : Fld := ⟨.TB_CTL, 24, 1, .rwi⟩
def f_TB_CTL_pll_bw : Fld := ⟨.TB_CTL, 22, 2, .rwi⟩
def f_TB_CTL_slew : Fld := ⟨.TB_CTL, 20, 2, .rwi⟩
def f_TB_LINES_PER_FRAME_lines : Fld := ⟨.TB_LINES_PER_FRAME, 0, 16, .rwi⟩
def f_TB_H_TOTAL_pixels : Fld := ⟨.TB_H_TOTAL, 0, 16, .rwi⟩
def f_TB_QUAL_window : Fld := ⟨.TB_QUAL, 12, 3, .rwi⟩
def f_TB_QUAL_loss_count : Fld := ⟨.TB_QUAL, 8, 4, .rwi⟩
def f_TB_QUAL_qual_count : Fld := ⟨.TB_QUAL, 0, 8, .rwi⟩
def f_TB_EVENTS_out_of_range : Fld := ⟨.TB_EVENTS, 8, 1, .w1c⟩
def f_TB_EVENTS_alt_switch : Fld := ⟨.TB_EVENTS, 7, 1, .w1c⟩
def f_TB_EVENTS_late : Fld := ⟨.TB_EVENTS, 6, 1, .w1c⟩
def f_TB_EVENTS_beat_reject : Fld := ⟨.TB_EVENTS, 5, 1, .w1c⟩
def f_TB_EVENTS_beat_lost : Fld := ⟨.TB_EVENTS, 4, 1, .w1c⟩
def f_TB_EVENTS_pixclk_lost : Fld := ⟨.TB_EVENTS, 3, 1, .w1c⟩
def f_TB_EVENTS_frame_slip : Fld := ⟨.TB_EVENTS, 2, 1, .w1c⟩
def f_TB_EVENTS_relocked : Fld := ⟨.TB_EVENTS, 1, 1, .w1c⟩
def f_TB_EVENTS_ref_lost : Fld := ⟨.TB_EVENTS, 0, 1, .w1c⟩
def f_TB_GLITCH_COUNT_count : Fld := ⟨.TB_GLITCH_COUNT, 0, 16, .rc⟩
def f_TB_LATE_COUNT_count : Fld := ⟨.TB_LATE_COUNT, 0, 16, .rc⟩
def f_TB_FRAME_INIT_frame : Fld := ⟨.TB_FRAME_INIT, 0, 32, .rwi⟩
def f_TB_BEAT_CTL_rank : Fld := ⟨.TB_BEAT_CTL, 18, 7, .rwi⟩
def f_TB_BEAT_CTL_interval : Fld := ⟨.TB_BEAT_CTL, 12, 6, .rwi⟩
def f_TB_BEAT_CTL_down_mask : Fld := ⟨.TB_BEAT_CTL, 8, 4, .rwi⟩
def f_TB_BEAT_CTL_revert : Fld := ⟨.TB_BEAT_CTL, 7, 1, .rwi⟩
def f_TB_BEAT_CTL_alt_valid : Fld := ⟨.TB_BEAT_CTL, 6, 1, .rwi⟩
def f_TB_BEAT_CTL_alt_port : Fld := ⟨.TB_BEAT_CTL, 4, 2, .rwi⟩
def f_TB_BEAT_CTL_up_valid : Fld := ⟨.TB_BEAT_CTL, 2, 1, .rwi⟩
def f_TB_BEAT_CTL_up_port : Fld := ⟨.TB_BEAT_CTL, 0, 2, .rwi⟩
def f_TB_BEAT_ROOT_root_node : Fld := ⟨.TB_BEAT_ROOT, 0, 12, .rwi⟩
def f_TB_PORT_ASYM_ps : Fld := ⟨.TB_PORT_ASYM, 0, 16, .rwi⟩
def f_TB_ANCHOR_CTL_arm : Fld := ⟨.TB_ANCHOR_CTL, 31, 1, .w1s⟩
def f_TB_ANCHOR_CTL_disarm : Fld := ⟨.TB_ANCHOR_CTL, 30, 1, .wo⟩
def f_TB_ANCHOR_CTL_locked : Fld := ⟨.TB_ANCHOR_CTL, 29, 1, .rwi⟩
def f_TB_ANCHOR_CTL_mode : Fld := ⟨.TB_ANCHOR_CTL, 24, 3, .rw⟩
def f_TB_ANCHOR_CTL_n : Fld := ⟨.TB_ANCHOR_CTL, 8, 16, .rw⟩
def f_TB_ANCHOR_TARGET_LO_target : Fld := ⟨.TB_ANCHOR_TARGET_LO, 0, 32, .rw⟩
def f_TB_ANCHOR_TARGET_HI_target : Fld := ⟨.TB_ANCHOR_TARGET_HI, 0, 32, .rw⟩
def f_CH_CTL_enable : Fld := ⟨.CH_CTL, 31, 1, .rw⟩
def f_CH_CTL_detach : Fld := ⟨.CH_CTL, 30, 1, .wo⟩
def f_CH_CTL_attach_armed : Fld := ⟨.CH_CTL, 29, 1, .rwi⟩
def f_CH_CTL_attach_rel : Fld := ⟨.CH_CTL, 28, 1, .rwi⟩
def f_CH_CTL_filter : Fld := ⟨.CH_CTL, 26, 2, .rw⟩
def f_CH_CTL_local_sense : Fld := ⟨.CH_CTL, 25, 1, .rw⟩
def f_CH_ATTACH_frame : Fld := ⟨.CH_ATTACH, 0, 32, .rwi⟩
def f_CH_FORCE_SET_mode : Fld := ⟨.CH_FORCE_SET, 30, 1, .rw⟩
def f_CH_FORCE_SET_span : Fld := ⟨.CH_FORCE_SET, 28, 2, .rw⟩
def f_CH_FORCE_SET_range : Fld := ⟨.CH_FORCE_SET, 24, 3, .rw⟩
def f_CH_FORCE_SET_code : Fld := ⟨.CH_FORCE_SET, 0, 24, .rw⟩
def f_CH_DECKLE_pos : Fld := ⟨.CH_DECKLE, 16, 16, .rw⟩
def f_CH_DECKLE_neg : Fld := ⟨.CH_DECKLE, 0, 16, .rw⟩
def f_CH_DECKLE_DEFAULT_pos : Fld := ⟨.CH_DECKLE_DEFAULT, 16, 16, .rwi⟩
def f_CH_DECKLE_DEFAULT_neg : Fld := ⟨.CH_DECKLE_DEFAULT, 0, 16, .rwi⟩
def f_CH_CALENDER_enable : Fld := ⟨.CH_CALENDER, 31, 1, .rw⟩
def f_CH_CALENDER_step_m1 : Fld := ⟨.CH_CALENDER, 0, 20, .rw⟩
def f_CH_CALENDER_RATE_rate_m1 : Fld := ⟨.CH_CALENDER_RATE, 0, 16, .rw⟩
def f_CH_FORCE_EVENTS_booster_fault : Fld := ⟨.CH_FORCE_EVENTS, 6, 1, .w1c⟩
def f_CH_FORCE_EVENTS_refused : Fld := ⟨.CH_FORCE_EVENTS, 5, 1, .w1c⟩
def f_CH_FORCE_EVENTS_range_done : Fld := ⟨.CH_FORCE_EVENTS, 4, 1, .w1c⟩
def f_CH_FORCE_EVENTS_span_done : Fld := ⟨.CH_FORCE_EVENTS, 3, 1, .w1c⟩
def f_CH_FORCE_EVENTS_short : Fld := ⟨.CH_FORCE_EVENTS, 2, 1, .w1c⟩
def f_CH_FORCE_EVENTS_deckle_hit : Fld := ⟨.CH_FORCE_EVENTS, 1, 1, .w1c⟩
def f_CH_FORCE_EVENTS_clamp_release : Fld := ⟨.CH_FORCE_EVENTS, 0, 1, .w1c⟩
def f_CH_DECKLE_COUNT_count : Fld := ⟨.CH_DECKLE_COUNT, 0, 32, .rc⟩
def f_TILE_BST_BIND_valid : Fld := ⟨.TILE_BST_BIND, 31, 1, .rwi⟩
def f_TILE_BST_BIND_position : Fld := ⟨.TILE_BST_BIND, 0, 6, .rwi⟩
def f_TILE_BST_COMP_gbw : Fld := ⟨.TILE_BST_COMP, 16, 16, .rwi⟩
def f_TILE_BST_COMP_zero : Fld := ⟨.TILE_BST_COMP, 0, 16, .rwi⟩
def f_TILE_BST_RSNS_mohm : Fld := ⟨.TILE_BST_RSNS, 0, 24, .rwi⟩
def f_TILE_GUARD_CTL_mode : Fld := ⟨.TILE_GUARD_CTL, 30, 2, .rw⟩
def f_TILE_GUARD_CTL_follow : Fld := ⟨.TILE_GUARD_CTL, 24, 3, .rw⟩
def f_TILE_GUARD_CTL_level : Fld := ⟨.TILE_GUARD_CTL, 0, 16, .rw⟩
def f_CH_MEAS_CTL_run : Fld := ⟨.CH_MEAS_CTL, 31, 1, .rw⟩
def f_CH_MEAS_CTL_low_power : Fld := ⟨.CH_MEAS_CTL, 30, 1, .rw⟩
def f_CH_MEAS_CTL_profile : Fld := ⟨.CH_MEAS_CTL, 28, 2, .rw⟩
def f_CH_MEAS_CTL_policy : Fld := ⟨.CH_MEAS_CTL, 26, 2, .rw⟩
def f_CH_MEAS_CTL_autorange : Fld := ⟨.CH_MEAS_CTL, 25, 1, .rw⟩
def f_CH_MEAS_LEN_len_m1_0 : Fld := ⟨.CH_MEAS_LEN, 0, 4, .rw⟩
def f_CH_MEAS_LEN_len_m1_1 : Fld := ⟨.CH_MEAS_LEN, 4, 4, .rw⟩
def f_CH_MEAS_LEN_len_m1_2 : Fld := ⟨.CH_MEAS_LEN, 8, 4, .rw⟩
def f_CH_MEAS_LEN_len_m1_3 : Fld := ⟨.CH_MEAS_LEN, 12, 4, .rw⟩
def f_CH_MEAS_TRIG_trigger : Fld := ⟨.CH_MEAS_TRIG, 0, 1, .wo⟩
def f_CH_MEAS_DELAY_ticks : Fld := ⟨.CH_MEAS_DELAY, 0, 20, .rw⟩
def f_CH_MEAS_EVENTS_entry_refused : Fld := ⟨.CH_MEAS_EVENTS, 9, 1, .w1c⟩
def f_CH_MEAS_EVENTS_near_deckle : Fld := ⟨.CH_MEAS_EVENTS, 8, 1, .w1c⟩
def f_CH_MEAS_EVENTS_drop : Fld := ⟨.CH_MEAS_EVENTS, 7, 1, .w1c⟩
def f_CH_MEAS_EVENTS_range_down : Fld := ⟨.CH_MEAS_EVENTS, 6, 1, .w1c⟩
def f_CH_MEAS_EVENTS_range_up : Fld := ⟨.CH_MEAS_EVENTS, 5, 1, .w1c⟩
def f_CH_MEAS_EVENTS_range_hold : Fld := ⟨.CH_MEAS_EVENTS, 4, 1, .w1c⟩
def f_CH_MEAS_EVENTS_ignored : Fld := ⟨.CH_MEAS_EVENTS, 3, 1, .w1c⟩
def f_CH_MEAS_EVENTS_merged : Fld := ⟨.CH_MEAS_EVENTS, 2, 1, .w1c⟩
def f_CH_MEAS_EVENTS_cut : Fld := ⟨.CH_MEAS_EVENTS, 1, 1, .w1c⟩
def f_CH_MEAS_EVENTS_overrange : Fld := ⟨.CH_MEAS_EVENTS, 0, 1, .w1c⟩
def f_CH_MEAS_CUT_COUNT_count : Fld := ⟨.CH_MEAS_CUT_COUNT, 0, 16, .rc⟩
def f_CH_MEAS_TRIG_COUNT_merged : Fld := ⟨.CH_MEAS_TRIG_COUNT, 16, 16, .rc⟩
def f_CH_MEAS_TRIG_COUNT_ignored : Fld := ⟨.CH_MEAS_TRIG_COUNT, 0, 16, .rc⟩
def f_CH_MEAS_DROP_COUNT_count : Fld := ⟨.CH_MEAS_DROP_COUNT, 0, 16, .rc⟩
def f_CH_AUTORANGE_down_n : Fld := ⟨.CH_AUTORANGE, 16, 8, .rw⟩
def f_CH_AUTORANGE_max : Fld := ⟨.CH_AUTORANGE, 4, 3, .rw⟩
def f_CH_AUTORANGE_min : Fld := ⟨.CH_AUTORANGE, 0, 3, .rw⟩
def f_CH_MEAS_MON_warn : Fld := ⟨.CH_MEAS_MON, 0, 8, .rw⟩
def f_CH_MEAS_MON_PEAK_ratio : Fld := ⟨.CH_MEAS_MON_PEAK, 0, 16, .rc⟩
def f_CH_MEAS_SEQ_mark : Fld := ⟨.CH_MEAS_SEQ, 23, 1, .rw⟩
def f_CH_MEAS_SEQ_dest : Fld := ⟨.CH_MEAS_SEQ, 16, 7, .rw⟩
def f_CH_MEAS_SEQ_filter : Fld := ⟨.CH_MEAS_SEQ, 15, 1, .rw⟩
def f_CH_MEAS_SEQ_gain : Fld := ⟨.CH_MEAS_SEQ, 12, 3, .rw⟩
def f_CH_MEAS_SEQ_k : Fld := ⟨.CH_MEAS_SEQ, 7, 5, .rw⟩
def f_CH_MEAS_SEQ_source : Fld := ⟨.CH_MEAS_SEQ, 0, 3, .rw⟩
def f_CH_SWEEP_CTL_start : Fld := ⟨.CH_SWEEP_CTL, 31, 1, .wo⟩
def f_CH_SWEEP_CTL_stop : Fld := ⟨.CH_SWEEP_CTL, 30, 1, .wo⟩
def f_CH_SWEEP_CTL_prime : Fld := ⟨.CH_SWEEP_CTL, 29, 1, .wo⟩
def f_CH_SWEEP_CTL_start_mode : Fld := ⟨.CH_SWEEP_CTL, 28, 1, .rw⟩
def f_CH_SWEEP_CTL_auto_resume : Fld := ⟨.CH_SWEEP_CTL, 27, 1, .rw⟩
def f_CH_SWEEP_CTL_late_policy : Fld := ⟨.CH_SWEEP_CTL, 25, 2, .rw⟩
def f_CH_SWEEP_CTL_stop_zero : Fld := ⟨.CH_SWEEP_CTL, 24, 1, .rw⟩
def f_CH_SWEEP_LIST_list : Fld := ⟨.CH_SWEEP_LIST, 0, 12, .rw⟩
def f_CH_SWEEP_ENTRY_entry : Fld := ⟨.CH_SWEEP_ENTRY, 0, 24, .rw⟩
def f_CH_SWEEP_AT_frame : Fld := ⟨.CH_SWEEP_AT, 0, 32, .rw⟩
def f_CH_SWEEP_EVENTS_cut_over : Fld := ⟨.CH_SWEEP_EVENTS, 15, 1, .w1c⟩
def f_CH_SWEEP_EVENTS_resumed : Fld := ⟨.CH_SWEEP_EVENTS, 14, 1, .w1c⟩
def f_CH_SWEEP_EVENTS_start_missed : Fld := ⟨.CH_SWEEP_EVENTS, 13, 1, .w1c⟩
def f_CH_SWEEP_EVENTS_start_refused : Fld := ⟨.CH_SWEEP_EVENTS, 12, 1, .w1c⟩
def f_CH_SWEEP_EVENTS_start_ignored : Fld := ⟨.CH_SWEEP_EVENTS, 11, 1, .w1c⟩
def f_CH_SWEEP_EVENTS_ctl_stall : Fld := ⟨.CH_SWEEP_EVENTS, 10, 1, .w1c⟩
def f_CH_SWEEP_EVENTS_mould_error : Fld := ⟨.CH_SWEEP_EVENTS, 9, 1, .w1c⟩
def f_CH_SWEEP_EVENTS_wait_timeout : Fld := ⟨.CH_SWEEP_EVENTS, 8, 1, .w1c⟩
def f_CH_SWEEP_EVENTS_invalid : Fld := ⟨.CH_SWEEP_EVENTS, 7, 1, .w1c⟩
def f_CH_SWEEP_EVENTS_starved : Fld := ⟨.CH_SWEEP_EVENTS, 6, 1, .w1c⟩
def f_CH_SWEEP_EVENTS_skipped : Fld := ⟨.CH_SWEEP_EVENTS, 5, 1, .w1c⟩
def f_CH_SWEEP_EVENTS_late : Fld := ⟨.CH_SWEEP_EVENTS, 4, 1, .w1c⟩
def f_CH_SWEEP_EVENTS_empty : Fld := ⟨.CH_SWEEP_EVENTS, 3, 1, .w1c⟩
def f_CH_SWEEP_EVENTS_ran_off : Fld := ⟨.CH_SWEEP_EVENTS, 2, 1, .w1c⟩
def f_CH_SWEEP_EVENTS_stopped : Fld := ⟨.CH_SWEEP_EVENTS, 1, 1, .w1c⟩
def f_CH_SWEEP_LATE_COUNT_count : Fld := ⟨.CH_SWEEP_LATE_COUNT, 0, 16, .rc⟩
def f_CH_SWEEP_STARVE_COUNT_count : Fld := ⟨.CH_SWEEP_STARVE_COUNT, 0, 16, .rc⟩
def f_CH_RES_CTL_pace : Fld := ⟨.CH_RES_CTL, 31, 1, .rw⟩
def f_CH_RES_CTL_nocredit : Fld := ⟨.CH_RES_CTL, 30, 1, .rw⟩
def f_CH_RES_CTL_prio : Fld := ⟨.CH_RES_CTL, 26, 3, .rwi⟩
def f_CH_RES_EVENTS_nocredit : Fld := ⟨.CH_RES_EVENTS, 1, 1, .w1c⟩
def f_CH_RES_EVENTS_underrun : Fld := ⟨.CH_RES_EVENTS, 0, 1, .w1c⟩
def f_CH_RES_NOCREDIT_COUNT_count : Fld := ⟨.CH_RES_NOCREDIT_COUNT, 0, 16, .rc⟩
def f_QUE_CTL_spill_en : Fld := ⟨.QUE_CTL, 31, 1, .rwi⟩
def f_QUE_CTL_batch : Fld := ⟨.QUE_CTL, 24, 2, .rwi⟩
def f_QUE_CTL_spill_wm : Fld := ⟨.QUE_CTL, 0, 10, .rwi⟩
def f_QUE_SPILL_BASE_page : Fld := ⟨.QUE_SPILL_BASE, 0, 22, .rwi⟩
def f_QUE_SPILL_SIZE_pages : Fld := ⟨.QUE_SPILL_SIZE, 0, 22, .rwi⟩
def f_QUE_EVENTS_spill_full : Fld := ⟨.QUE_EVENTS, 1, 1, .w1c⟩
def f_QUE_EVENTS_spill_start : Fld := ⟨.QUE_EVENTS, 0, 1, .w1c⟩
def f_QUE_AGENT_CTL_enable : Fld := ⟨.QUE_AGENT_CTL, 31, 1, .rwi⟩
def f_QUE_AGENT_CTL_nocredit : Fld := ⟨.QUE_AGENT_CTL, 30, 1, .rwi⟩
def f_QUE_AGENT_CTL_prio : Fld := ⟨.QUE_AGENT_CTL, 27, 3, .rwi⟩
def f_QUE_AGENT_CTL_felt : Fld := ⟨.QUE_AGENT_CTL, 0, 6, .rwi⟩
def f_QUE_AGENT_DROP_COUNT_count : Fld := ⟨.QUE_AGENT_DROP_COUNT, 0, 16, .rc⟩
def f_QUE_FELT_CTL_enable : Fld := ⟨.QUE_FELT_CTL, 31, 1, .rw⟩
def f_QUE_FELT_CTL_consumer : Fld := ⟨.QUE_FELT_CTL, 28, 2, .rwi⟩
def f_QUE_FELT_CTL_tail_en : Fld := ⟨.QUE_FELT_CTL, 21, 1, .rw⟩
def f_QUE_FELT_CTL_tail_n : Fld := ⟨.QUE_FELT_CTL, 16, 5, .rw⟩
def f_QUE_FELT_RESERVE_items : Fld := ⟨.QUE_FELT_RESERVE, 0, 21, .rwi⟩
def f_QUE_FELT_LIMIT_items : Fld := ⟨.QUE_FELT_LIMIT, 0, 29, .rwi⟩
def f_QUE_FELT_WM_HIGH_items : Fld := ⟨.QUE_FELT_WM_HIGH, 0, 29, .rw⟩
def f_QUE_FELT_WM_LOW_items : Fld := ⟨.QUE_FELT_WM_LOW, 0, 29, .rw⟩
def f_QUE_FELT_WM_STATUS_tail : Fld := ⟨.QUE_FELT_WM_STATUS, 6, 1, .w1c⟩
def f_QUE_FELT_WM_STATUS_low_returned : Fld := ⟨.QUE_FELT_WM_STATUS, 5, 1, .w1c⟩
def f_QUE_FELT_WM_STATUS_low_crossed : Fld := ⟨.QUE_FELT_WM_STATUS, 4, 1, .w1c⟩
def f_QUE_FELT_WM_STATUS_high_returned : Fld := ⟨.QUE_FELT_WM_STATUS, 3, 1, .w1c⟩
def f_QUE_FELT_WM_STATUS_high_crossed : Fld := ⟨.QUE_FELT_WM_STATUS, 2, 1, .w1c⟩
def f_QUE_FELT_DEST_tag : Fld := ⟨.QUE_FELT_DEST, 12, 16, .rw⟩
def f_QUE_FELT_DEST_node : Fld := ⟨.QUE_FELT_DEST, 0, 12, .rw⟩
def f_QUE_FELT_RING_BASE_pages : Fld := ⟨.QUE_FELT_RING_BASE, 0, 22, .rw⟩
def f_QUE_FELT_RING_SIZE_pages : Fld := ⟨.QUE_FELT_RING_SIZE, 0, 22, .rw⟩
def f_QUE_FELT_RING_RD_count : Fld := ⟨.QUE_FELT_RING_RD, 0, 32, .rw⟩
def f_QUE_FELT_DROP_COUNT_count : Fld := ⟨.QUE_FELT_DROP_COUNT, 0, 16, .rc⟩
def f_EVM_EVENTS_far_reject : Fld := ⟨.EVM_EVENTS, 6, 1, .w1c⟩
def f_EVM_EVENTS_far_late : Fld := ⟨.EVM_EVENTS, 5, 1, .w1c⟩
def f_EVM_EVENTS_loop_cut : Fld := ⟨.EVM_EVENTS, 4, 1, .w1c⟩
def f_EVM_EVENTS_loop_delay : Fld := ⟨.EVM_EVENTS, 3, 1, .w1c⟩
def f_EVM_EVENTS_overflow : Fld := ⟨.EVM_EVENTS, 2, 1, .w1c⟩
def f_EVM_EVENTS_task_drop : Fld := ⟨.EVM_EVENTS, 1, 1, .w1c⟩
def f_EVM_EVENTS_refused : Fld := ⟨.EVM_EVENTS, 0, 1, .w1c⟩
def f_EVM_LOOP_COUNT_count : Fld := ⟨.EVM_LOOP_COUNT, 0, 16, .rc⟩
def f_EVM_FAR_LATE_COUNT_count : Fld := ⟨.EVM_FAR_LATE_COUNT, 0, 16, .rc⟩
def f_EVM_DROP_COUNT_far : Fld := ⟨.EVM_DROP_COUNT, 16, 16, .rc⟩
def f_EVM_DROP_COUNT_task : Fld := ⟨.EVM_DROP_COUNT, 0, 16, .rc⟩
def f_EVM_FAR_GROUP_member : Fld := ⟨.EVM_FAR_GROUP, 31, 1, .rwi⟩
def f_EVM_FAR_GROUP_secure_only : Fld := ⟨.EVM_FAR_GROUP, 30, 1, .rwi⟩
def f_EVM_EVIO_CTL_dir : Fld := ⟨.EVM_EVIO_CTL, 31, 1, .rwi⟩
def f_EVM_EVIO_CTL_invert : Fld := ⟨.EVM_EVIO_CTL, 30, 1, .rwi⟩
def f_EVM_EVIO_CTL_in_edge : Fld := ⟨.EVM_EVIO_CTL, 28, 2, .rw⟩
def f_EVM_EVIO_CTL_filter : Fld := ⟨.EVM_EVIO_CTL, 24, 4, .rw⟩
def f_EVM_EVIO_CTL_out_mode : Fld := ⟨.EVM_EVIO_CTL, 22, 2, .rw⟩
def f_EVM_EVIO_CTL_level : Fld := ⟨.EVM_EVIO_CTL, 21, 1, .rw⟩
def f_EVM_EVIO_CTL_width_m1 : Fld := ⟨.EVM_EVIO_CTL, 0, 16, .rw⟩
def f_EVM_RC_CTL_enable : Fld := ⟨.EVM_RC_CTL, 31, 1, .rw⟩
def f_EVM_RC_CTL_fire : Fld := ⟨.EVM_RC_CTL, 30, 1, .wo⟩
def f_EVM_RC_CTL_commit : Fld := ⟨.EVM_RC_CTL, 29, 1, .wo⟩
def f_EVM_RC_CTL_far_en : Fld := ⟨.EVM_RC_CTL, 28, 1, .rw⟩
def f_EVM_RC_CTL_far_align : Fld := ⟨.EVM_RC_CTL, 27, 1, .rw⟩
def f_EVM_RC_CTL_trace : Fld := ⟨.EVM_RC_CTL, 26, 1, .rw⟩
def f_EVM_RC_CTL_far_group : Fld := ⟨.EVM_RC_CTL, 22, 4, .rw⟩
def f_EVM_RC_CTL_source : Fld := ⟨.EVM_RC_CTL, 0, 12, .rw⟩
def f_EVM_RC_OWNER_secure : Fld := ⟨.EVM_RC_OWNER, 31, 1, .rwi⟩
def f_EVM_RC_OWNER_image : Fld := ⟨.EVM_RC_OWNER, 30, 1, .rwi⟩
def f_EVM_RC_OWNER_node : Fld := ⟨.EVM_RC_OWNER, 0, 12, .rwi⟩
def f_EVM_RC_TARGET_valid : Fld := ⟨.EVM_RC_TARGET, 31, 1, .rw⟩
def f_EVM_RC_TARGET_input : Fld := ⟨.EVM_RC_TARGET, 0, 11, .rw⟩
def f_EVM_RC_FAR_OFS_lines : Fld := ⟨.EVM_RC_FAR_OFS, 16, 16, .rw⟩
def f_EVM_RC_FAR_OFS_phase : Fld := ⟨.EVM_RC_FAR_OFS, 0, 16, .rw⟩
def f_EVM_TASK_OVF_overflow : Fld := ⟨.EVM_TASK_OVF, 0, 32, .w1c⟩
def f_MEMC_EVENTS_refused : Fld := ⟨.MEMC_EVENTS, 9, 1, .w1c⟩
def f_MEMC_EVENTS_lost : Fld := ⟨.MEMC_EVENTS, 8, 1, .w1c⟩
def f_MEMC_EVENTS_ppr : Fld := ⟨.MEMC_EVENTS, 7, 1, .w1c⟩
def f_MEMC_EVENTS_freq_done : Fld := ⟨.MEMC_EVENTS, 6, 1, .w1c⟩
def f_MEMC_EVENTS_train_done : Fld := ⟨.MEMC_EVENTS, 5, 1, .w1c⟩
def f_MEMC_EVENTS_sr_abort : Fld := ⟨.MEMC_EVENTS, 4, 1, .w1c⟩
def f_MEMC_EVENTS_sr_wait : Fld := ⟨.MEMC_EVENTS, 3, 1, .w1c⟩
def f_MEMC_EVENTS_uncorrectable : Fld := ⟨.MEMC_EVENTS, 2, 1, .w1c⟩
def f_MEMC_EVENTS_repaired : Fld := ⟨.MEMC_EVENTS, 1, 1, .w1c⟩
def f_MEMC_EVENTS_throttle : Fld := ⟨.MEMC_EVENTS, 0, 1, .w1c⟩
def f_MEMC_FREQ_req : Fld := ⟨.MEMC_FREQ, 16, 3, .rw⟩
def f_MEMC_PAGE_idle_ns : Fld := ⟨.MEMC_PAGE, 0, 13, .rw⟩
def f_MEMC_PORT_TARGET_target : Fld := ⟨.MEMC_PORT_TARGET, 0, 16, .rwi⟩
def f_MEMC_PORT_STATS_overdue : Fld := ⟨.MEMC_PORT_STATS, 16, 16, .rc⟩
def f_MEMC_PORT_STATS_urgent : Fld := ⟨.MEMC_PORT_STATS, 0, 16, .rc⟩
def f_MEMC_RH_CTL_spacing : Fld := ⟨.MEMC_RH_CTL, 24, 8, .rwi⟩
def f_MEMC_RH_CTL_window : Fld := ⟨.MEMC_RH_CTL, 16, 8, .rwi⟩
def f_MEMC_RH_CTL_threshold : Fld := ⟨.MEMC_RH_CTL, 0, 16, .rwi⟩
def f_MEMC_RH_COUNT_count : Fld := ⟨.MEMC_RH_COUNT, 0, 16, .rc⟩
def f_MEMC_SR_CTL_idle_us : Fld := ⟨.MEMC_SR_CTL, 0, 20, .rwi⟩
def f_MEMC_SR_STATS_waited : Fld := ⟨.MEMC_SR_STATS, 16, 16, .rc⟩
def f_MEMC_SR_STATS_aborted : Fld := ⟨.MEMC_SR_STATS, 0, 16, .rc⟩
def f_MEMC_PR_CTL_enter : Fld := ⟨.MEMC_PR_CTL, 31, 1, .wo⟩
def f_MEMC_PR_CTL_exit : Fld := ⟨.MEMC_PR_CTL, 30, 1, .wo⟩
def f_MEMC_PR_BANK_mask : Fld := ⟨.MEMC_PR_BANK, 0, 32, .rw⟩
def f_MEMC_PR_PC_mask : Fld := ⟨.MEMC_PR_PC, 0, 32, .rw⟩
def f_MEMC_LOST_BANK_lost : Fld := ⟨.MEMC_LOST_BANK, 0, 32, .w1c⟩
def f_MEMC_LOST_PC_lost : Fld := ⟨.MEMC_LOST_PC, 0, 32, .w1c⟩
def f_MEMC_PAR_STATS_lost_reads : Fld := ⟨.MEMC_PAR_STATS, 24, 8, .rc⟩
def f_MEMC_PAR_STATS_uncorrectable : Fld := ⟨.MEMC_PAR_STATS, 16, 8, .rc⟩
def f_MEMC_PAR_STATS_repaired : Fld := ⟨.MEMC_PAR_STATS, 0, 16, .rc⟩
def f_MEMC_PPR_CTL_threshold : Fld := ⟨.MEMC_PPR_CTL, 0, 4, .rwi⟩
def f_MEMC_REGION_BASE_mib : Fld := ⟨.MEMC_REGION_BASE, 0, 15, .rwi⟩
def f_MEMC_REGION_SIZE_mib : Fld := ⟨.MEMC_REGION_SIZE, 0, 15, .rwi⟩
def f_MEMC_REGION_COPY_mib : Fld := ⟨.MEMC_REGION_COPY, 0, 15, .rwi⟩
def f_MEMC_REGION_ATTR_valid : Fld := ⟨.MEMC_REGION_ATTR, 31, 1, .rwi⟩
def f_MEMC_REGION_ATTR_duplex : Fld := ⟨.MEMC_REGION_ATTR, 30, 1, .rwi⟩
def f_MEMC_REGION_ATTR_wprot : Fld := ⟨.MEMC_REGION_ATTR, 29, 1, .rwi⟩
def f_WEB_CTL_topo : Fld := ⟨.WEB_CTL, 30, 2, .rwi⟩
def f_WEB_CTL_dim_x_m1 : Fld := ⟨.WEB_CTL, 16, 6, .rwi⟩
def f_WEB_CTL_dim_y_m1 : Fld := ⟨.WEB_CTL, 8, 6, .rwi⟩
def f_WEB_CTL_max_hops : Fld := ⟨.WEB_CTL, 0, 7, .rwi⟩
def f_WEB_TORUS_BASE_node : Fld := ⟨.WEB_TORUS_BASE, 0, 12, .rwi⟩
def f_WEB_EVENTS_rate_refused : Fld := ⟨.WEB_EVENTS, 7, 1, .w1c⟩
def f_WEB_EVENTS_rate_done : Fld := ⟨.WEB_EVENTS, 6, 1, .w1c⟩
def f_WEB_EVENTS_peer_mismatch : Fld := ⟨.WEB_EVENTS, 5, 1, .w1c⟩
def f_WEB_EVENTS_port_down : Fld := ⟨.WEB_EVENTS, 4, 1, .w1c⟩
def f_WEB_EVENTS_retrain : Fld := ⟨.WEB_EVENTS, 3, 1, .w1c⟩
def f_WEB_EVENTS_lane_failed : Fld := ⟨.WEB_EVENTS, 2, 1, .w1c⟩
def f_WEB_EVENTS_lane_swap : Fld := ⟨.WEB_EVENTS, 1, 1, .w1c⟩
def f_WEB_EVENTS_lane_warn : Fld := ⟨.WEB_EVENTS, 0, 1, .w1c⟩
def f_WEB_DROP_COUNT_no_route : Fld := ⟨.WEB_DROP_COUNT, 16, 16, .rc⟩
def f_WEB_DROP_COUNT_ttl : Fld := ⟨.WEB_DROP_COUNT, 0, 16, .rc⟩
def f_WEB_LANE_LIMIT_warn_width : Fld := ⟨.WEB_LANE_LIMIT, 22, 10, .rwi⟩
def f_WEB_LANE_LIMIT_warn_height : Fld := ⟨.WEB_LANE_LIMIT, 16, 6, .rwi⟩
def f_WEB_LANE_LIMIT_fail_width : Fld := ⟨.WEB_LANE_LIMIT, 6, 10, .rwi⟩
def f_WEB_LANE_LIMIT_fail_height : Fld := ⟨.WEB_LANE_LIMIT, 0, 6, .rwi⟩
def f_WEB_EYE_CTL_period : Fld := ⟨.WEB_EYE_CTL, 0, 8, .rw⟩
def f_WEB_PORT_CTL_enable : Fld := ⟨.WEB_PORT_CTL, 31, 1, .rwi⟩
def f_WEB_PORT_CTL_check_peer : Fld := ⟨.WEB_PORT_CTL, 30, 1, .rwi⟩
def f_WEB_PORT_CTL_peer_port : Fld := ⟨.WEB_PORT_CTL, 12, 2, .rwi⟩
def f_WEB_PORT_CTL_peer_node : Fld := ⟨.WEB_PORT_CTL, 0, 12, .rwi⟩
def f_WEB_PORT_RATE_req : Fld := ⟨.WEB_PORT_RATE, 16, 2, .rw⟩
def f_WEB_PORT_STATS_replays : Fld := ⟨.WEB_PORT_STATS, 16, 16, .rc⟩
def f_WEB_PORT_STATS_crc_errors : Fld := ⟨.WEB_PORT_STATS, 0, 16, .rc⟩
def f_WEB_PORT_RETRAIN_discarded : Fld := ⟨.WEB_PORT_RETRAIN, 16, 16, .rc⟩
def f_WEB_PORT_RETRAIN_count : Fld := ⟨.WEB_PORT_RETRAIN, 0, 16, .rc⟩
def f_WEB_LANE_FEC_uncorrectable : Fld := ⟨.WEB_LANE_FEC, 24, 8, .rc⟩
def f_WEB_LANE_FEC_corrected : Fld := ⟨.WEB_LANE_FEC, 0, 24, .rc⟩
def f_WEB_BCAST_tree_mask : Fld := ⟨.WEB_BCAST, 0, 4, .rwi⟩
def f_WEB_ROUTE_valid : Fld := ⟨.WEB_ROUTE, 31, 1, .rwi⟩
def f_WEB_ROUTE_alt_valid : Fld := ⟨.WEB_ROUTE, 30, 1, .rwi⟩
def f_WEB_ROUTE_alt_port : Fld := ⟨.WEB_ROUTE, 4, 2, .rwi⟩
def f_WEB_ROUTE_port : Fld := ⟨.WEB_ROUTE, 0, 2, .rwi⟩
def f_FLT_CTL_first_rearm : Fld := ⟨.FLT_CTL, 31, 1, .wo⟩
def f_FLT_CTL_freeze_class : Fld := ⟨.FLT_CTL, 4, 3, .rw⟩
def f_FLT_CTL_ack_a_auto : Fld := ⟨.FLT_CTL, 0, 1, .rw⟩
def f_FLT_ACK_mask : Fld := ⟨.FLT_ACK, 0, 5, .wo⟩
def f_FLT_POLICY_ext_open : Fld := ⟨.FLT_POLICY, 3, 1, .rwi⟩
def f_FLT_POLICY_e_open : Fld := ⟨.FLT_POLICY, 2, 1, .rwi⟩
def f_FLT_POLICY_d_open : Fld := ⟨.FLT_POLICY, 1, 1, .rwi⟩
def f_FLT_POLICY_c_open : Fld := ⟨.FLT_POLICY, 0, 1, .rwi⟩
def f_FLT_RECOVERY_auto_en : Fld := ⟨.FLT_RECOVERY, 24, 3, .rwi⟩
def f_FLT_RECOVERY_hour_limit : Fld := ⟨.FLT_RECOVERY, 16, 8, .rwi⟩
def f_FLT_RECOVERY_quiet_ms : Fld := ⟨.FLT_RECOVERY, 0, 16, .rwi⟩
def f_FLT_PIN_alert_min : Fld := ⟨.FLT_PIN, 4, 3, .rw⟩
def f_FLT_PIN_fault_min : Fld := ⟨.FLT_PIN, 0, 3, .rw⟩
def f_FLT_RECOVER_COUNT_count : Fld := ⟨.FLT_RECOVER_COUNT, 0, 16, .rc⟩
def f_FLT_LOST_overwritten : Fld := ⟨.FLT_LOST, 16, 16, .rc⟩
def f_FLT_LOST_lost : Fld := ⟨.FLT_LOST, 0, 16, .rc⟩
def f_FLT_INJ_CTL_fire : Fld := ⟨.FLT_INJ_CTL, 31, 1, .wo⟩
def f_FLT_INJ_CTL_held : Fld := ⟨.FLT_INJ_CTL, 30, 1, .rw⟩
def f_FLT_INJ_CTL_clear : Fld := ⟨.FLT_INJ_CTL, 29, 1, .wo⟩
def f_FLT_INJ_CTL_class : Fld := ⟨.FLT_INJ_CTL, 26, 3, .rw⟩
def f_FLT_INJ_CTL_scope : Fld := ⟨.FLT_INJ_CTL, 23, 3, .rw⟩
def f_FLT_INJ_CTL_index : Fld := ⟨.FLT_INJ_CTL, 12, 11, .rw⟩
def f_FLT_INJ_CTL_code : Fld := ⟨.FLT_INJ_CTL, 0, 12, .rw⟩
def f_CAL_CTL_enable : Fld := ⟨.CAL_CTL, 31, 1, .rwi⟩
def f_CAL_CTL_burn_auto : Fld := ⟨.CAL_CTL, 30, 1, .rwi⟩
def f_CAL_CTL_interval_h : Fld := ⟨.CAL_CTL, 16, 8, .rwi⟩
def f_CAL_CTL_retry_s : Fld := ⟨.CAL_CTL, 8, 8, .rwi⟩
def f_CAL_CTL_temp_step : Fld := ⟨.CAL_CTL, 0, 6, .rwi⟩
def f_CAL_CMD_run : Fld := ⟨.CAL_CMD, 31, 1, .wo⟩
def f_CAL_CMD_burn : Fld := ⟨.CAL_CMD, 30, 1, .wo⟩
def f_CAL_CMD_slice_only : Fld := ⟨.CAL_CMD, 29, 1, .wo⟩
def f_CAL_CMD_tiles : Fld := ⟨.CAL_CMD, 12, 8, .wo⟩
def f_CAL_CMD_slice : Fld := ⟨.CAL_CMD, 0, 10, .wo⟩
def f_CAL_EVENTS_fuse_full : Fld := ⟨.CAL_EVENTS, 10, 1, .w1c⟩
def f_CAL_EVENTS_temp_trigger : Fld := ⟨.CAL_EVENTS, 9, 1, .w1c⟩
def f_CAL_EVENTS_quality_limit : Fld := ⟨.CAL_EVENTS, 8, 1, .w1c⟩
def f_CAL_EVENTS_spare_last : Fld := ⟨.CAL_EVENTS, 7, 1, .w1c⟩
def f_CAL_EVENTS_couch_abandoned : Fld := ⟨.CAL_EVENTS, 6, 1, .w1c⟩
def f_CAL_EVENTS_couch_done : Fld := ⟨.CAL_EVENTS, 5, 1, .w1c⟩
def f_CAL_EVENTS_couch_started : Fld := ⟨.CAL_EVENTS, 4, 1, .w1c⟩
def f_CAL_EVENTS_burn_abandoned : Fld := ⟨.CAL_EVENTS, 3, 1, .w1c⟩
def f_CAL_EVENTS_committed : Fld := ⟨.CAL_EVENTS, 2, 1, .w1c⟩
def f_CAL_EVENTS_deferred : Fld := ⟨.CAL_EVENTS, 1, 1, .w1c⟩
def f_CAL_EVENTS_run_done : Fld := ⟨.CAL_EVENTS, 0, 1, .w1c⟩
def f_CAL_LIMIT_span : Fld := ⟨.CAL_LIMIT, 16, 16, .rwi⟩
def f_CAL_LIMIT_range : Fld := ⟨.CAL_LIMIT, 0, 16, .rwi⟩
def f_CAL_COUCH_CTL_auto_en : Fld := ⟨.CAL_COUCH_CTL, 31, 1, .rwi⟩
def f_CAL_COUCH_CTL_wear_limit : Fld := ⟨.CAL_COUCH_CTL, 16, 8, .rwi⟩
def f_CAL_COUCH_CTL_bfault_window : Fld := ⟨.CAL_COUCH_CTL, 8, 8, .rwi⟩
def f_CAL_COUCH_CTL_bfault_n : Fld := ⟨.CAL_COUCH_CTL, 0, 4, .rwi⟩
def f_CAL_WEAR_PROFILE_charge : Fld := ⟨.CAL_WEAR_PROFILE, 16, 16, .rwi⟩
def f_CAL_WEAR_PROFILE_cycles : Fld := ⟨.CAL_WEAR_PROFILE, 0, 16, .rwi⟩
def f_CAL_COUCH_CMD_go : Fld := ⟨.CAL_COUCH_CMD, 31, 1, .wo⟩
def f_CAL_COUCH_CMD_target : Fld := ⟨.CAL_COUCH_CMD, 28, 3, .wo⟩
def f_CAL_COUCH_CMD_channel : Fld := ⟨.CAL_COUCH_CMD, 0, 9, .wo⟩
def f_BOOT_FLASH_CTL_cmd : Fld := ⟨.BOOT_FLASH_CTL, 28, 4, .wo⟩
def f_BOOT_FLASH_CTL_slot : Fld := ⟨.BOOT_FLASH_CTL, 0, 1, .rw⟩
def f_PWR_CTL_allow_ms : Fld := ⟨.PWR_CTL, 16, 10, .rwi⟩
def f_PWR_CTL_budget_w : Fld := ⟨.PWR_CTL, 0, 8, .rwi⟩
def f_PWR_EVENTS_refused : Fld := ⟨.PWR_EVENTS, 5, 1, .w1c⟩
def f_PWR_EVENTS_supply_hub : Fld := ⟨.PWR_EVENTS, 4, 1, .w1c⟩
def f_PWR_EVENTS_supply_tile : Fld := ⟨.PWR_EVENTS, 3, 1, .w1c⟩
def f_PWR_EVENTS_trip : Fld := ⟨.PWR_EVENTS, 2, 1, .w1c⟩
def f_PWR_EVENTS_release : Fld := ⟨.PWR_EVENTS, 1, 1, .w1c⟩
def f_PWR_EVENTS_step : Fld := ⟨.PWR_EVENTS, 0, 1, .w1c⟩
def f_PWR_DOMAIN_REQ_on : Fld := ⟨.PWR_DOMAIN_REQ, 31, 1, .wo⟩
def f_PWR_DOMAIN_REQ_off : Fld := ⟨.PWR_DOMAIN_REQ, 30, 1, .wo⟩
def f_PWR_DOMAIN_REQ_domain : Fld := ⟨.PWR_DOMAIN_REQ, 0, 6, .wo⟩
def f_TEST_WEB_DELAY_ns : Fld := ⟨.TEST_WEB_DELAY, 0, 16, .rw⟩
def f_TEST_CREDIT_HOLD_LO_mask : Fld := ⟨.TEST_CREDIT_HOLD_LO, 0, 32, .rw⟩
def f_TEST_CREDIT_HOLD_HI_mask : Fld := ⟨.TEST_CREDIT_HOLD_HI, 0, 32, .rw⟩
def f_TEST_CONSUMER_HOLD_LO_mask : Fld := ⟨.TEST_CONSUMER_HOLD_LO, 0, 32, .rw⟩
def f_TEST_CONSUMER_HOLD_HI_mask : Fld := ⟨.TEST_CONSUMER_HOLD_HI, 0, 32, .rw⟩
def f_TEST_PORT_HOLD_mask : Fld := ⟨.TEST_PORT_HOLD, 0, 4, .rw⟩
def f_TEST_HBM_STRETCH_ns : Fld := ⟨.TEST_HBM_STRETCH, 0, 16, .rw⟩
def f_TEST_BEAT_SKEW_ps : Fld := ⟨.TEST_BEAT_SKEW, 0, 16, .rw⟩
def f_TEST_OVERFILL_push : Fld := ⟨.TEST_OVERFILL, 31, 1, .wo⟩
def f_TEST_OVERFILL_write : Fld := ⟨.TEST_OVERFILL, 30, 1, .wo⟩
def f_TEST_OVERFILL_felt : Fld := ⟨.TEST_OVERFILL, 16, 6, .wo⟩
def f_TEST_OVERFILL_channel : Fld := ⟨.TEST_OVERFILL, 0, 9, .wo⟩
def f_BOOT_AMEND_CTL_abort : Fld := ⟨.BOOT_AMEND_CTL, 31, 1, .wo⟩
def f_BOOT_FLASH_ADDR_addr : Fld := ⟨.BOOT_FLASH_ADDR, 0, 29, .rw⟩
def f_BOOT_FLASH_DATA_data : Fld := ⟨.BOOT_FLASH_DATA, 0, 32, .rw⟩

/-! ## Rows, one function per block -/

/-- The row of a register (R4; the register tables of the chapters). -/
def regRow : Reg → RegRow
  | .DEVICE_ID => ⟨.device, 0x0, 0x0, 1, 0, 1, 0x5120B153, []⟩
  | .DEVICE_STATUS => ⟨.device, 0x4, 0x0, 1, 0, 1, 0x0, []⟩
  | .DEVICE_NODE => ⟨.device, 0x8, 0x0, 1, 0, 1, 0x0, [f_DEVICE_NODE_node_id]⟩
  | .DEVICE_CAPS => ⟨.device, 0xC, 0x0, 1, 0, 1, 0x8444410, []⟩
  | .DEVICE_SERIAL_LO => ⟨.device, 0x10, 0x0, 1, 0, 1, 0x0, []⟩
  | .DEVICE_SERIAL_HI => ⟨.device, 0x14, 0x0, 1, 0, 1, 0x0, []⟩
  | .DEVICE_ABS_TIME_LO => ⟨.device, 0x18, 0x0, 1, 0, 1, 0x0, []⟩
  | .DEVICE_ABS_TIME_HI => ⟨.device, 0x1C, 0x0, 1, 0, 1, 0x0, []⟩
  | .DEVICE_SPARE_MAP => ⟨.device, 0x20, 0x0, 1, 0, 1, 0x0, []⟩
  | .DEVICE_SNAP_MISS => ⟨.device, 0x24, 0x0, 1, 0, 1, 0x0, [f_DEVICE_SNAP_MISS_count]⟩
  | .TB_CTL => ⟨.tb, 0x0, 0x0, 1, 0, 1, 0x0, [f_TB_CTL_root, f_TB_CTL_src, f_TB_CTL_line_io, f_TB_CTL_frame_io, f_TB_CTL_line_edge, f_TB_CTL_frame_level, f_TB_CTL_pll_bw, f_TB_CTL_slew]⟩
  | .TB_LINES_PER_FRAME => ⟨.tb, 0x4, 0x0, 1, 0, 1, 0x0, [f_TB_LINES_PER_FRAME_lines]⟩
  | .TB_H_TOTAL => ⟨.tb, 0x8, 0x0, 1, 0, 1, 0x0, [f_TB_H_TOTAL_pixels]⟩
  | .TB_QUAL => ⟨.tb, 0xC, 0x0, 1, 0, 1, 0x210, [f_TB_QUAL_window, f_TB_QUAL_loss_count, f_TB_QUAL_qual_count]⟩
  | .TB_STATUS => ⟨.tb, 0x10, 0x0, 1, 0, 1, 0x0, []⟩
  | .TB_EVENTS => ⟨.tb, 0x14, 0x0, 1, 0, 1, 0x0, [f_TB_EVENTS_out_of_range, f_TB_EVENTS_alt_switch, f_TB_EVENTS_late, f_TB_EVENTS_beat_reject, f_TB_EVENTS_beat_lost, f_TB_EVENTS_pixclk_lost, f_TB_EVENTS_frame_slip, f_TB_EVENTS_relocked, f_TB_EVENTS_ref_lost]⟩
  | .TB_TIME_LO => ⟨.tb, 0x18, 0x0, 1, 0, 1, 0x0, []⟩
  | .TB_TIME_HI => ⟨.tb, 0x1C, 0x0, 1, 0, 1, 0x0, []⟩
  | .TB_LINE_PERIOD => ⟨.tb, 0x20, 0x0, 1, 0, 1, 0x0, []⟩
  | .TB_PHASE_ERR => ⟨.tb, 0x24, 0x0, 1, 0, 1, 0x0, []⟩
  | .TB_GLITCH_COUNT => ⟨.tb, 0x28, 0x0, 1, 0, 1, 0x0, [f_TB_GLITCH_COUNT_count]⟩
  | .TB_LATE_COUNT => ⟨.tb, 0x2C, 0x0, 1, 0, 1, 0x0, [f_TB_LATE_COUNT_count]⟩
  | .TB_HOLDOVER_LINES => ⟨.tb, 0x30, 0x0, 1, 0, 1, 0x0, []⟩
  | .TB_FRAME_INIT => ⟨.tb, 0x34, 0x0, 1, 0, 1, 0x0, [f_TB_FRAME_INIT_frame]⟩
  | .TB_BEAT_CTL => ⟨.tb, 0x40, 0x0, 1, 0, 1, 0x0, [f_TB_BEAT_CTL_rank, f_TB_BEAT_CTL_interval, f_TB_BEAT_CTL_down_mask, f_TB_BEAT_CTL_revert, f_TB_BEAT_CTL_alt_valid, f_TB_BEAT_CTL_alt_port, f_TB_BEAT_CTL_up_valid, f_TB_BEAT_CTL_up_port]⟩
  | .TB_BEAT_ROOT => ⟨.tb, 0x44, 0x0, 1, 0, 1, 0x0, [f_TB_BEAT_ROOT_root_node]⟩
  | .TB_BEAT_STATUS => ⟨.tb, 0x48, 0x0, 1, 0, 1, 0x0, []⟩
  | .TB_ALT_OFFSET => ⟨.tb, 0x4C, 0x0, 1, 0, 1, 0x0, []⟩
  | .TB_PORT_DELAY => ⟨.tb, 0x50, 0x4, 4, 0, 1, 0x0, []⟩
  | .TB_PORT_ASYM => ⟨.tb, 0x60, 0x4, 4, 0, 1, 0x0, [f_TB_PORT_ASYM_ps]⟩
  | .TB_ANCHOR_CTL => ⟨.tb, 0x1000, 0x20, 64, 0, 1, 0x0, [f_TB_ANCHOR_CTL_arm, f_TB_ANCHOR_CTL_disarm, f_TB_ANCHOR_CTL_locked, f_TB_ANCHOR_CTL_mode, f_TB_ANCHOR_CTL_n]⟩
  | .TB_ANCHOR_STATUS => ⟨.tb, 0x1004, 0x20, 64, 0, 1, 0x0, []⟩
  | .TB_ANCHOR_TARGET_LO => ⟨.tb, 0x1008, 0x20, 64, 0, 1, 0x0, [f_TB_ANCHOR_TARGET_LO_target]⟩
  | .TB_ANCHOR_TARGET_HI => ⟨.tb, 0x100C, 0x20, 64, 0, 1, 0x0, [f_TB_ANCHOR_TARGET_HI_target]⟩
  | .TB_ANCHOR_LAST_LO => ⟨.tb, 0x1010, 0x20, 64, 0, 1, 0x0, []⟩
  | .TB_ANCHOR_LAST_HI => ⟨.tb, 0x1014, 0x20, 64, 0, 1, 0x0, []⟩
  | .CH_CTL => ⟨.ch, 0x0, 0x1000, 512, 0, 1, 0x0, [f_CH_CTL_enable, f_CH_CTL_detach, f_CH_CTL_attach_armed, f_CH_CTL_attach_rel, f_CH_CTL_filter, f_CH_CTL_local_sense]⟩
  | .CH_STATE => ⟨.ch, 0x4, 0x1000, 512, 0, 1, 0x1400000, []⟩
  | .CH_ATTACH => ⟨.ch, 0x8, 0x1000, 512, 0, 1, 0x0, [f_CH_ATTACH_frame]⟩
  | .CH_FORCE_SET => ⟨.ch, 0x40, 0x1000, 512, 0, 1, 0x5000000, [f_CH_FORCE_SET_mode, f_CH_FORCE_SET_span, f_CH_FORCE_SET_range, f_CH_FORCE_SET_code]⟩
  | .CH_FORCE_NOW => ⟨.ch, 0x44, 0x1000, 512, 0, 1, 0x0, []⟩
  | .CH_DECKLE => ⟨.ch, 0x48, 0x1000, 512, 0, 1, 0x7FFF7FFF, [f_CH_DECKLE_pos, f_CH_DECKLE_neg]⟩
  | .CH_DECKLE_DEFAULT => ⟨.ch, 0x4C, 0x1000, 512, 0, 1, 0x7FFF7FFF, [f_CH_DECKLE_DEFAULT_pos, f_CH_DECKLE_DEFAULT_neg]⟩
  | .CH_CALENDER => ⟨.ch, 0x50, 0x1000, 512, 0, 1, 0x80003FFF, [f_CH_CALENDER_enable, f_CH_CALENDER_step_m1]⟩
  | .CH_CALENDER_RATE => ⟨.ch, 0x54, 0x1000, 512, 0, 1, 0x0, [f_CH_CALENDER_RATE_rate_m1]⟩
  | .CH_FORCE_EVENTS => ⟨.ch, 0x58, 0x1000, 512, 0, 1, 0x0, [f_CH_FORCE_EVENTS_booster_fault, f_CH_FORCE_EVENTS_refused, f_CH_FORCE_EVENTS_range_done, f_CH_FORCE_EVENTS_span_done, f_CH_FORCE_EVENTS_short, f_CH_FORCE_EVENTS_deckle_hit, f_CH_FORCE_EVENTS_clamp_release]⟩
  | .CH_DECKLE_COUNT => ⟨.ch, 0x5C, 0x1000, 512, 0, 1, 0x0, [f_CH_DECKLE_COUNT_count]⟩
  | .TILE_BST_BIND => ⟨.tile, 0x80000, 0x100000, 8, 4, 2, 0x0, [f_TILE_BST_BIND_valid, f_TILE_BST_BIND_position]⟩
  | .TILE_BST_COMP => ⟨.tile, 0x80008, 0x100000, 8, 4, 2, 0x3E800C8, [f_TILE_BST_COMP_gbw, f_TILE_BST_COMP_zero]⟩
  | .TILE_BST_RSNS => ⟨.tile, 0x80010, 0x100000, 8, 4, 2, 0x0, [f_TILE_BST_RSNS_mohm]⟩
  | .TILE_GUARD_CTL => ⟨.tile, 0x80020, 0x100000, 8, 4, 8, 0x0, [f_TILE_GUARD_CTL_mode, f_TILE_GUARD_CTL_follow, f_TILE_GUARD_CTL_level]⟩
  | .TILE_GUARD_STATUS => ⟨.tile, 0x80040, 0x100000, 8, 0, 1, 0x0, []⟩
  | .CH_MEAS_CTL => ⟨.ch, 0x80, 0x1000, 512, 0, 1, 0x0, [f_CH_MEAS_CTL_run, f_CH_MEAS_CTL_low_power, f_CH_MEAS_CTL_profile, f_CH_MEAS_CTL_policy, f_CH_MEAS_CTL_autorange]⟩
  | .CH_MEAS_LEN => ⟨.ch, 0x84, 0x1000, 512, 0, 1, 0x0, [f_CH_MEAS_LEN_len_m1_0, f_CH_MEAS_LEN_len_m1_1, f_CH_MEAS_LEN_len_m1_2, f_CH_MEAS_LEN_len_m1_3]⟩
  | .CH_MEAS_TRIG => ⟨.ch, 0x88, 0x1000, 512, 0, 1, 0x0, [f_CH_MEAS_TRIG_trigger]⟩
  | .CH_MEAS_DELAY => ⟨.ch, 0x8C, 0x1000, 512, 0, 1, 0x0, [f_CH_MEAS_DELAY_ticks]⟩
  | .CH_MEAS_STATUS => ⟨.ch, 0x90, 0x1000, 512, 0, 1, 0x100000, []⟩
  | .CH_MEAS_EVENTS => ⟨.ch, 0x94, 0x1000, 512, 0, 1, 0x0, [f_CH_MEAS_EVENTS_entry_refused, f_CH_MEAS_EVENTS_near_deckle, f_CH_MEAS_EVENTS_drop, f_CH_MEAS_EVENTS_range_down, f_CH_MEAS_EVENTS_range_up, f_CH_MEAS_EVENTS_range_hold, f_CH_MEAS_EVENTS_ignored, f_CH_MEAS_EVENTS_merged, f_CH_MEAS_EVENTS_cut, f_CH_MEAS_EVENTS_overrange]⟩
  | .CH_MEAS_CUT_COUNT => ⟨.ch, 0x98, 0x1000, 512, 0, 1, 0x0, [f_CH_MEAS_CUT_COUNT_count]⟩
  | .CH_MEAS_TRIG_COUNT => ⟨.ch, 0x9C, 0x1000, 512, 0, 1, 0x0, [f_CH_MEAS_TRIG_COUNT_merged, f_CH_MEAS_TRIG_COUNT_ignored]⟩
  | .CH_MEAS_DROP_COUNT => ⟨.ch, 0xA0, 0x1000, 512, 0, 1, 0x0, [f_CH_MEAS_DROP_COUNT_count]⟩
  | .CH_AUTORANGE => ⟨.ch, 0xA4, 0x1000, 512, 0, 1, 0x100050, [f_CH_AUTORANGE_down_n, f_CH_AUTORANGE_max, f_CH_AUTORANGE_min]⟩
  | .CH_MEAS_MON => ⟨.ch, 0xA8, 0x1000, 512, 0, 1, 0xF3, [f_CH_MEAS_MON_warn]⟩
  | .CH_MEAS_MON_PEAK => ⟨.ch, 0xAC, 0x1000, 512, 0, 1, 0x0, [f_CH_MEAS_MON_PEAK_ratio]⟩
  | .CH_MEAS_LAST_LO => ⟨.ch, 0xB0, 0x1000, 512, 0, 1, 0x0, []⟩
  | .CH_MEAS_LAST_HI => ⟨.ch, 0xB4, 0x1000, 512, 0, 1, 0x0, []⟩
  | .CH_MEAS_LAST_INFO => ⟨.ch, 0xB8, 0x1000, 512, 0, 1, 0x0, []⟩
  | .CH_MEAS_SEQ => ⟨.ch, 0x200, 0x1000, 512, 4, 64, 0x410000, [f_CH_MEAS_SEQ_mark, f_CH_MEAS_SEQ_dest, f_CH_MEAS_SEQ_filter, f_CH_MEAS_SEQ_gain, f_CH_MEAS_SEQ_k, f_CH_MEAS_SEQ_source]⟩
  | .CH_SWEEP_CTL => ⟨.ch, 0x100, 0x1000, 512, 0, 1, 0x0, [f_CH_SWEEP_CTL_start, f_CH_SWEEP_CTL_stop, f_CH_SWEEP_CTL_prime, f_CH_SWEEP_CTL_start_mode, f_CH_SWEEP_CTL_auto_resume, f_CH_SWEEP_CTL_late_policy, f_CH_SWEEP_CTL_stop_zero]⟩
  | .CH_SWEEP_LIST => ⟨.ch, 0x104, 0x1000, 512, 0, 1, 0x0, [f_CH_SWEEP_LIST_list]⟩
  | .CH_SWEEP_ENTRY => ⟨.ch, 0x108, 0x1000, 512, 0, 1, 0x0, [f_CH_SWEEP_ENTRY_entry]⟩
  | .CH_SWEEP_AT => ⟨.ch, 0x10C, 0x1000, 512, 0, 1, 0x0, [f_CH_SWEEP_AT_frame]⟩
  | .CH_SWEEP_STATUS => ⟨.ch, 0x110, 0x1000, 512, 0, 1, 0x0, []⟩
  | .CH_SWEEP_CUR => ⟨.ch, 0x114, 0x1000, 512, 0, 1, 0x0, []⟩
  | .CH_SWEEP_POS => ⟨.ch, 0x118, 0x1000, 512, 0, 1, 0xFFFFFFFF, []⟩
  | .CH_SWEEP_EVENTS => ⟨.ch, 0x11C, 0x1000, 512, 0, 1, 0x0, [f_CH_SWEEP_EVENTS_cut_over, f_CH_SWEEP_EVENTS_resumed, f_CH_SWEEP_EVENTS_start_missed, f_CH_SWEEP_EVENTS_start_refused, f_CH_SWEEP_EVENTS_start_ignored, f_CH_SWEEP_EVENTS_ctl_stall, f_CH_SWEEP_EVENTS_mould_error, f_CH_SWEEP_EVENTS_wait_timeout, f_CH_SWEEP_EVENTS_invalid, f_CH_SWEEP_EVENTS_starved, f_CH_SWEEP_EVENTS_skipped, f_CH_SWEEP_EVENTS_late, f_CH_SWEEP_EVENTS_empty, f_CH_SWEEP_EVENTS_ran_off, f_CH_SWEEP_EVENTS_stopped]⟩
  | .CH_SWEEP_MARK => ⟨.ch, 0x120, 0x1000, 512, 0, 1, 0x0, []⟩
  | .CH_SWEEP_LATE_COUNT => ⟨.ch, 0x124, 0x1000, 512, 0, 1, 0x0, [f_CH_SWEEP_LATE_COUNT_count]⟩
  | .CH_SWEEP_STARVE_COUNT => ⟨.ch, 0x128, 0x1000, 512, 0, 1, 0x0, [f_CH_SWEEP_STARVE_COUNT_count]⟩
  | .CH_SWEEP_MOULD => ⟨.ch, 0x12C, 0x1000, 512, 0, 1, 0x0, []⟩
  | .CH_SWEEP_POINT => ⟨.ch, 0x130, 0x1000, 512, 0, 1, 0x0, []⟩
  | .CH_SWEEP_LOOP_AT => ⟨.ch, 0x140, 0x1000, 512, 8, 4, 0x0, []⟩
  | .CH_SWEEP_LOOP_LEFT => ⟨.ch, 0x144, 0x1000, 512, 8, 4, 0x0, []⟩
  | .CH_RES_CTL => ⟨.ch, 0x300, 0x1000, 512, 0, 1, 0x4000000, [f_CH_RES_CTL_pace, f_CH_RES_CTL_nocredit, f_CH_RES_CTL_prio]⟩
  | .CH_RES_STATUS => ⟨.ch, 0x304, 0x1000, 512, 0, 1, 0x1, []⟩
  | .CH_RES_EVENTS => ⟨.ch, 0x308, 0x1000, 512, 0, 1, 0x0, [f_CH_RES_EVENTS_nocredit, f_CH_RES_EVENTS_underrun]⟩
  | .CH_RES_NOCREDIT_COUNT => ⟨.ch, 0x30C, 0x1000, 512, 0, 1, 0x0, [f_CH_RES_NOCREDIT_COUNT_count]⟩
  | .QUE_CTL => ⟨.que, 0x0, 0x0, 1, 0, 1, 0x2000080, [f_QUE_CTL_spill_en, f_QUE_CTL_batch, f_QUE_CTL_spill_wm]⟩
  | .QUE_STATUS => ⟨.que, 0x4, 0x0, 1, 0, 1, 0x0, []⟩
  | .QUE_VAT_FREE => ⟨.que, 0x8, 0x0, 1, 0, 1, 0xFC000, []⟩
  | .QUE_SPILL_BASE => ⟨.que, 0xC, 0x0, 1, 0, 1, 0x0, [f_QUE_SPILL_BASE_page]⟩
  | .QUE_SPILL_SIZE => ⟨.que, 0x10, 0x0, 1, 0, 1, 0x0, [f_QUE_SPILL_SIZE_pages]⟩
  | .QUE_SPILL_USED => ⟨.que, 0x14, 0x0, 1, 0, 1, 0x0, []⟩
  | .QUE_EVENTS => ⟨.que, 0x18, 0x0, 1, 0, 1, 0x0, [f_QUE_EVENTS_spill_full, f_QUE_EVENTS_spill_start]⟩
  | .QUE_AGENT_CTL => ⟨.que, 0x100, 0x4, 40, 0, 1, 0x0, [f_QUE_AGENT_CTL_enable, f_QUE_AGENT_CTL_nocredit, f_QUE_AGENT_CTL_prio, f_QUE_AGENT_CTL_felt]⟩
  | .QUE_AGENT_DROP_COUNT => ⟨.que, 0x200, 0x4, 40, 0, 1, 0x0, [f_QUE_AGENT_DROP_COUNT_count]⟩
  | .QUE_FELT_CTL => ⟨.que, 0x1000, 0x100, 64, 0, 1, 0x0, [f_QUE_FELT_CTL_enable, f_QUE_FELT_CTL_consumer, f_QUE_FELT_CTL_tail_en, f_QUE_FELT_CTL_tail_n]⟩
  | .QUE_FELT_RESERVE => ⟨.que, 0x1004, 0x100, 64, 0, 1, 0x0, [f_QUE_FELT_RESERVE_items]⟩
  | .QUE_FELT_LIMIT => ⟨.que, 0x1008, 0x100, 64, 0, 1, 0x0, [f_QUE_FELT_LIMIT_items]⟩
  | .QUE_FELT_STATUS => ⟨.que, 0x100C, 0x100, 64, 0, 1, 0x0, []⟩
  | .QUE_FELT_DEPTH => ⟨.que, 0x1010, 0x100, 64, 0, 1, 0x0, []⟩
  | .QUE_FELT_SPILLED => ⟨.que, 0x1014, 0x100, 64, 0, 1, 0x0, []⟩
  | .QUE_FELT_WM_HIGH => ⟨.que, 0x1018, 0x100, 64, 0, 1, 0x1FFFFFFF, [f_QUE_FELT_WM_HIGH_items]⟩
  | .QUE_FELT_WM_LOW => ⟨.que, 0x101C, 0x100, 64, 0, 1, 0x0, [f_QUE_FELT_WM_LOW_items]⟩
  | .QUE_FELT_WM_STATUS => ⟨.que, 0x1020, 0x100, 64, 0, 1, 0x2, [f_QUE_FELT_WM_STATUS_tail, f_QUE_FELT_WM_STATUS_low_returned, f_QUE_FELT_WM_STATUS_low_crossed, f_QUE_FELT_WM_STATUS_high_returned, f_QUE_FELT_WM_STATUS_high_crossed]⟩
  | .QUE_FELT_DEST => ⟨.que, 0x1024, 0x100, 64, 0, 1, 0x0, [f_QUE_FELT_DEST_tag, f_QUE_FELT_DEST_node]⟩
  | .QUE_FELT_RING_BASE => ⟨.que, 0x1028, 0x100, 64, 0, 1, 0x0, [f_QUE_FELT_RING_BASE_pages]⟩
  | .QUE_FELT_RING_SIZE => ⟨.que, 0x102C, 0x100, 64, 0, 1, 0x0, [f_QUE_FELT_RING_SIZE_pages]⟩
  | .QUE_FELT_RING_WR => ⟨.que, 0x1030, 0x100, 64, 0, 1, 0x0, []⟩
  | .QUE_FELT_RING_RD => ⟨.que, 0x1034, 0x100, 64, 0, 1, 0x0, [f_QUE_FELT_RING_RD_count]⟩
  | .QUE_FELT_DROP_COUNT => ⟨.que, 0x1038, 0x100, 64, 0, 1, 0x0, [f_QUE_FELT_DROP_COUNT_count]⟩
  | .QUE_FELT_POP => ⟨.que, 0x1040, 0x100, 64, 4, 8, 0x0, []⟩
  | .EVM_STATUS => ⟨.evm, 0x0, 0x0, 1, 0, 1, 0x0, []⟩
  | .EVM_EVENTS => ⟨.evm, 0x4, 0x0, 1, 0, 1, 0x0, [f_EVM_EVENTS_far_reject, f_EVM_EVENTS_far_late, f_EVM_EVENTS_loop_cut, f_EVM_EVENTS_loop_delay, f_EVM_EVENTS_overflow, f_EVM_EVENTS_task_drop, f_EVM_EVENTS_refused]⟩
  | .EVM_LOOP_COUNT => ⟨.evm, 0x8, 0x0, 1, 0, 1, 0x0, [f_EVM_LOOP_COUNT_count]⟩
  | .EVM_FAR_LATE_COUNT => ⟨.evm, 0xC, 0x0, 1, 0, 1, 0x0, [f_EVM_FAR_LATE_COUNT_count]⟩
  | .EVM_DROP_COUNT => ⟨.evm, 0x10, 0x0, 1, 0, 1, 0x0, [f_EVM_DROP_COUNT_far, f_EVM_DROP_COUNT_task]⟩
  | .EVM_LAST_REFUSED => ⟨.evm, 0x14, 0x0, 1, 0, 1, 0x0, []⟩
  | .EVM_FAR_GROUP => ⟨.evm, 0x100, 0x4, 16, 0, 1, 0x0, [f_EVM_FAR_GROUP_member, f_EVM_FAR_GROUP_secure_only]⟩
  | .EVM_EVIO_CTL => ⟨.evm, 0x200, 0x4, 16, 0, 1, 0x0, [f_EVM_EVIO_CTL_dir, f_EVM_EVIO_CTL_invert, f_EVM_EVIO_CTL_in_edge, f_EVM_EVIO_CTL_filter, f_EVM_EVIO_CTL_out_mode, f_EVM_EVIO_CTL_level, f_EVM_EVIO_CTL_width_m1]⟩
  | .EVM_EVIO_STATUS => ⟨.evm, 0x240, 0x0, 1, 0, 1, 0x0, []⟩
  | .EVM_RC_CTL => ⟨.evm, 0x1000, 0x40, 256, 0, 1, 0xFFF, [f_EVM_RC_CTL_enable, f_EVM_RC_CTL_fire, f_EVM_RC_CTL_commit, f_EVM_RC_CTL_far_en, f_EVM_RC_CTL_far_align, f_EVM_RC_CTL_trace, f_EVM_RC_CTL_far_group, f_EVM_RC_CTL_source]⟩
  | .EVM_RC_OWNER => ⟨.evm, 0x1004, 0x40, 256, 0, 1, 0xC0000000, [f_EVM_RC_OWNER_secure, f_EVM_RC_OWNER_image, f_EVM_RC_OWNER_node]⟩
  | .EVM_RC_TARGET => ⟨.evm, 0x1008, 0x40, 256, 4, 8, 0x0, [f_EVM_RC_TARGET_valid, f_EVM_RC_TARGET_input]⟩
  | .EVM_RC_FAR_OFS => ⟨.evm, 0x1028, 0x40, 256, 0, 1, 0x0, [f_EVM_RC_FAR_OFS_lines, f_EVM_RC_FAR_OFS_phase]⟩
  | .EVM_RC_STATUS => ⟨.evm, 0x102C, 0x40, 256, 0, 1, 0x0, []⟩
  | .EVM_TASK_PEND => ⟨.evm, 0x6000, 0x4, 224, 0, 1, 0x0, []⟩
  | .EVM_TASK_OVF => ⟨.evm, 0x6400, 0x4, 56, 0, 1, 0x0, [f_EVM_TASK_OVF_overflow]⟩
  | .MEMC_STATUS => ⟨.memc, 0x0, 0x0, 1, 0, 1, 0x2000000, []⟩
  | .MEMC_EVENTS => ⟨.memc, 0x4, 0x0, 1, 0, 1, 0x0, [f_MEMC_EVENTS_refused, f_MEMC_EVENTS_lost, f_MEMC_EVENTS_ppr, f_MEMC_EVENTS_freq_done, f_MEMC_EVENTS_train_done, f_MEMC_EVENTS_sr_abort, f_MEMC_EVENTS_sr_wait, f_MEMC_EVENTS_uncorrectable, f_MEMC_EVENTS_repaired, f_MEMC_EVENTS_throttle]⟩
  | .MEMC_FREQ => ⟨.memc, 0x8, 0x0, 1, 0, 1, 0x0, [f_MEMC_FREQ_req]⟩
  | .MEMC_TRAIN => ⟨.memc, 0xC, 0x0, 1, 0, 1, 0x0, []⟩
  | .MEMC_PAGE => ⟨.memc, 0x10, 0x0, 1, 0, 1, 0xC8, [f_MEMC_PAGE_idle_ns]⟩
  | .MEMC_PORT_TARGET => ⟨.memc, 0x20, 0x4, 6, 0, 1, 0x0, [f_MEMC_PORT_TARGET_target]⟩
  | .MEMC_PORT_STATS => ⟨.memc, 0x40, 0x4, 6, 0, 1, 0x0, [f_MEMC_PORT_STATS_overdue, f_MEMC_PORT_STATS_urgent]⟩
  | .MEMC_RH_CTL => ⟨.memc, 0x80, 0x0, 1, 0, 1, 0x8201000, [f_MEMC_RH_CTL_spacing, f_MEMC_RH_CTL_window, f_MEMC_RH_CTL_threshold]⟩
  | .MEMC_RH_STATUS => ⟨.memc, 0x84, 0x0, 1, 0, 1, 0x0, []⟩
  | .MEMC_RH_COUNT => ⟨.memc, 0x88, 0x0, 1, 0, 1, 0x0, [f_MEMC_RH_COUNT_count]⟩
  | .MEMC_SR_CTL => ⟨.memc, 0x90, 0x0, 1, 0, 1, 0x3E8, [f_MEMC_SR_CTL_idle_us]⟩
  | .MEMC_SR_STATS => ⟨.memc, 0x94, 0x0, 1, 0, 1, 0x0, [f_MEMC_SR_STATS_waited, f_MEMC_SR_STATS_aborted]⟩
  | .MEMC_PR_CTL => ⟨.memc, 0xA0, 0x0, 1, 0, 1, 0x0, [f_MEMC_PR_CTL_enter, f_MEMC_PR_CTL_exit]⟩
  | .MEMC_PR_BANK => ⟨.memc, 0xA4, 0x0, 1, 0, 1, 0xFFFFFFFF, [f_MEMC_PR_BANK_mask]⟩
  | .MEMC_PR_PC => ⟨.memc, 0xA8, 0x0, 1, 0, 1, 0xFFFFFFFF, [f_MEMC_PR_PC_mask]⟩
  | .MEMC_LOST_BANK => ⟨.memc, 0xAC, 0x0, 1, 0, 1, 0x0, [f_MEMC_LOST_BANK_lost]⟩
  | .MEMC_LOST_PC => ⟨.memc, 0xB0, 0x0, 1, 0, 1, 0x0, [f_MEMC_LOST_PC_lost]⟩
  | .MEMC_PAR_STATS => ⟨.memc, 0xC0, 0x0, 1, 0, 1, 0x0, [f_MEMC_PAR_STATS_lost_reads, f_MEMC_PAR_STATS_uncorrectable, f_MEMC_PAR_STATS_repaired]⟩
  | .MEMC_ERR_ADDR_LO => ⟨.memc, 0xC4, 0x0, 1, 0, 1, 0x0, []⟩
  | .MEMC_ERR_ADDR_HI => ⟨.memc, 0xC8, 0x0, 1, 0, 1, 0x0, []⟩
  | .MEMC_PPR_STATUS => ⟨.memc, 0xD0, 0x0, 1, 0, 1, 0x0, []⟩
  | .MEMC_PPR_CTL => ⟨.memc, 0xD4, 0x0, 1, 0, 1, 0x2, [f_MEMC_PPR_CTL_threshold]⟩
  | .MEMC_REGION_BASE => ⟨.memc, 0x100, 0x10, 16, 0, 1, 0x0, [f_MEMC_REGION_BASE_mib]⟩
  | .MEMC_REGION_SIZE => ⟨.memc, 0x104, 0x10, 16, 0, 1, 0x0, [f_MEMC_REGION_SIZE_mib]⟩
  | .MEMC_REGION_COPY => ⟨.memc, 0x10C, 0x10, 16, 0, 1, 0x0, [f_MEMC_REGION_COPY_mib]⟩
  | .MEMC_REGION_ATTR => ⟨.memc, 0x108, 0x10, 16, 0, 1, 0x0, [f_MEMC_REGION_ATTR_valid, f_MEMC_REGION_ATTR_duplex, f_MEMC_REGION_ATTR_wprot]⟩
  | .WEB_CTL => ⟨.web, 0x0, 0x0, 1, 0, 1, 0x60, [f_WEB_CTL_topo, f_WEB_CTL_dim_x_m1, f_WEB_CTL_dim_y_m1, f_WEB_CTL_max_hops]⟩
  | .WEB_TORUS_BASE => ⟨.web, 0x4, 0x0, 1, 0, 1, 0x0, [f_WEB_TORUS_BASE_node]⟩
  | .WEB_EVENTS => ⟨.web, 0x8, 0x0, 1, 0, 1, 0x0, [f_WEB_EVENTS_rate_refused, f_WEB_EVENTS_rate_done, f_WEB_EVENTS_peer_mismatch, f_WEB_EVENTS_port_down, f_WEB_EVENTS_retrain, f_WEB_EVENTS_lane_failed, f_WEB_EVENTS_lane_swap, f_WEB_EVENTS_lane_warn]⟩
  | .WEB_DROP_COUNT => ⟨.web, 0xC, 0x0, 1, 0, 1, 0x0, [f_WEB_DROP_COUNT_no_route, f_WEB_DROP_COUNT_ttl]⟩
  | .WEB_LANE_LIMIT => ⟨.web, 0x10, 0x0, 1, 0, 1, 0x2D0C1E08, [f_WEB_LANE_LIMIT_warn_width, f_WEB_LANE_LIMIT_warn_height, f_WEB_LANE_LIMIT_fail_width, f_WEB_LANE_LIMIT_fail_height]⟩
  | .WEB_EYE_CTL => ⟨.web, 0x14, 0x0, 1, 0, 1, 0x0, [f_WEB_EYE_CTL_period]⟩
  | .WEB_TARGET_STATUS => ⟨.web, 0x18, 0x0, 1, 0, 1, 0x0, []⟩
  | .WEB_PORT_CTL => ⟨.web, 0x100, 0x40, 4, 0, 1, 0x0, [f_WEB_PORT_CTL_enable, f_WEB_PORT_CTL_check_peer, f_WEB_PORT_CTL_peer_port, f_WEB_PORT_CTL_peer_node]⟩
  | .WEB_PORT_STATUS => ⟨.web, 0x104, 0x40, 4, 0, 1, 0xFF0000, []⟩
  | .WEB_PORT_RATE => ⟨.web, 0x108, 0x40, 4, 0, 1, 0x0, [f_WEB_PORT_RATE_req]⟩
  | .WEB_PORT_STATS => ⟨.web, 0x10C, 0x40, 4, 0, 1, 0x0, [f_WEB_PORT_STATS_replays, f_WEB_PORT_STATS_crc_errors]⟩
  | .WEB_PORT_RETRAIN => ⟨.web, 0x110, 0x40, 4, 0, 1, 0x0, [f_WEB_PORT_RETRAIN_discarded, f_WEB_PORT_RETRAIN_count]⟩
  | .WEB_LANE_EYE => ⟨.web, 0x120, 0x40, 4, 4, 3, 0x60000000, []⟩
  | .WEB_LANE_FEC => ⟨.web, 0x130, 0x40, 4, 4, 3, 0x0, [f_WEB_LANE_FEC_uncorrectable, f_WEB_LANE_FEC_corrected]⟩
  | .WEB_BCAST => ⟨.web, 0x300, 0x4, 16, 0, 1, 0x0, [f_WEB_BCAST_tree_mask]⟩
  | .WEB_ROUTE => ⟨.web, 0x4000, 0x4, 4096, 0, 1, 0x0, [f_WEB_ROUTE_valid, f_WEB_ROUTE_alt_valid, f_WEB_ROUTE_alt_port, f_WEB_ROUTE_port]⟩
  | .FLT_STATUS => ⟨.flt, 0x0, 0x0, 1, 0, 1, 0x0, []⟩
  | .FLT_CTL => ⟨.flt, 0x4, 0x0, 1, 0, 1, 0x21, [f_FLT_CTL_first_rearm, f_FLT_CTL_freeze_class, f_FLT_CTL_ack_a_auto]⟩
  | .FLT_UNACK => ⟨.flt, 0x8, 0x0, 1, 0, 1, 0x0, []⟩
  | .FLT_ACK => ⟨.flt, 0xC, 0x0, 1, 0, 1, 0x0, [f_FLT_ACK_mask]⟩
  | .FLT_SEQ => ⟨.flt, 0x10, 0x0, 1, 0, 1, 0x0, []⟩
  | .FLT_POLICY => ⟨.flt, 0x14, 0x0, 1, 0, 1, 0x8, [f_FLT_POLICY_ext_open, f_FLT_POLICY_e_open, f_FLT_POLICY_d_open, f_FLT_POLICY_c_open]⟩
  | .FLT_RECOVERY => ⟨.flt, 0x18, 0x0, 1, 0, 1, 0x7080064, [f_FLT_RECOVERY_auto_en, f_FLT_RECOVERY_hour_limit, f_FLT_RECOVERY_quiet_ms]⟩
  | .FLT_PIN => ⟨.flt, 0x1C, 0x0, 1, 0, 1, 0x23, [f_FLT_PIN_alert_min, f_FLT_PIN_fault_min]⟩
  | .FLT_RECOVER_COUNT => ⟨.flt, 0x20, 0x0, 1, 0, 1, 0x0, [f_FLT_RECOVER_COUNT_count]⟩
  | .FLT_LOST => ⟨.flt, 0x24, 0x0, 1, 0, 1, 0x0, [f_FLT_LOST_overwritten, f_FLT_LOST_lost]⟩
  | .FLT_FIRST => ⟨.flt, 0x400, 0x4, 16, 0, 1, 0x0, []⟩
  | .FLT_INJ_CTL => ⟨.flt, 0x800, 0x10, 16, 0, 1, 0x0, [f_FLT_INJ_CTL_fire, f_FLT_INJ_CTL_held, f_FLT_INJ_CTL_clear, f_FLT_INJ_CTL_class, f_FLT_INJ_CTL_scope, f_FLT_INJ_CTL_index, f_FLT_INJ_CTL_code]⟩
  | .FLT_INJ_STATUS => ⟨.flt, 0x804, 0x10, 16, 0, 1, 0x0, []⟩
  | .FLT_RING => ⟨.flt, 0x1000, 0x40, 64, 4, 16, 0x0, []⟩
  | .TEST_STATUS => ⟨.test, 0x0, 0x0, 1, 0, 1, 0x0, []⟩
  | .CAL_CTL => ⟨.cal, 0x0, 0x0, 1, 0, 1, 0xC0183C08, [f_CAL_CTL_enable, f_CAL_CTL_burn_auto, f_CAL_CTL_interval_h, f_CAL_CTL_retry_s, f_CAL_CTL_temp_step]⟩
  | .CAL_CMD => ⟨.cal, 0x4, 0x0, 1, 0, 1, 0x0, [f_CAL_CMD_run, f_CAL_CMD_burn, f_CAL_CMD_slice_only, f_CAL_CMD_tiles, f_CAL_CMD_slice]⟩
  | .CAL_STATUS => ⟨.cal, 0x8, 0x0, 1, 0, 1, 0x0, []⟩
  | .CAL_EVENTS => ⟨.cal, 0xC, 0x0, 1, 0, 1, 0x0, [f_CAL_EVENTS_fuse_full, f_CAL_EVENTS_temp_trigger, f_CAL_EVENTS_quality_limit, f_CAL_EVENTS_spare_last, f_CAL_EVENTS_couch_abandoned, f_CAL_EVENTS_couch_done, f_CAL_EVENTS_couch_started, f_CAL_EVENTS_burn_abandoned, f_CAL_EVENTS_committed, f_CAL_EVENTS_deferred, f_CAL_EVENTS_run_done]⟩
  | .CAL_LIMIT => ⟨.cal, 0x10, 0x0, 1, 0, 1, 0x1900190, [f_CAL_LIMIT_span, f_CAL_LIMIT_range]⟩
  | .CAL_COUCH_CTL => ⟨.cal, 0x14, 0x0, 1, 0, 1, 0x80641803, [f_CAL_COUCH_CTL_auto_en, f_CAL_COUCH_CTL_wear_limit, f_CAL_COUCH_CTL_bfault_window, f_CAL_COUCH_CTL_bfault_n]⟩
  | .CAL_WEAR_PROFILE => ⟨.cal, 0x18, 0x0, 1, 0, 1, 0xA461388, [f_CAL_WEAR_PROFILE_charge, f_CAL_WEAR_PROFILE_cycles]⟩
  | .CAL_LAST_RUN_LO => ⟨.cal, 0x20, 0x0, 1, 0, 1, 0x0, []⟩
  | .CAL_LAST_RUN_HI => ⟨.cal, 0x24, 0x0, 1, 0, 1, 0x0, []⟩
  | .CAL_COUCH_CMD => ⟨.cal, 0x30, 0x0, 1, 0, 1, 0x0, [f_CAL_COUCH_CMD_go, f_CAL_COUCH_CMD_target, f_CAL_COUCH_CMD_channel]⟩
  | .CAL_SPARES => ⟨.cal, 0x38, 0x0, 1, 0, 1, 0x8F000000, []⟩
  | .CAL_TILE_SPARES => ⟨.cal, 0x3C, 0x0, 1, 0, 1, 0x44444444, []⟩
  | .CAL_COUCH_STATUS => ⟨.cal, 0x40, 0x4, 8, 0, 1, 0x0, []⟩
  | .CAL_SLICE_STATUS => ⟨.cal, 0x1000, 0x10, 544, 0, 1, 0x0, []⟩
  | .CAL_SLICE_QUALITY => ⟨.cal, 0x1004, 0x10, 544, 0, 1, 0x0, []⟩
  | .CAL_SLICE_CHARGE => ⟨.cal, 0x1008, 0x10, 544, 0, 1, 0x0, []⟩
  | .CAL_SLICE_WEAR => ⟨.cal, 0x100C, 0x10, 544, 0, 1, 0x0, []⟩
  | .BOOT_STATUS => ⟨.boot, 0x0, 0x0, 1, 0, 1, 0x0, []⟩
  | .BOOT_FAIL => ⟨.boot, 0x4, 0x0, 1, 0, 1, 0x0, []⟩
  | .BOOT_FW_VERSION => ⟨.boot, 0x10, 0x4, 2, 0, 1, 0x0, []⟩
  | .BOOT_CORE_STATUS => ⟨.boot, 0x18, 0x0, 1, 0, 1, 0x3210, []⟩
  | .BOOT_AMEND_STATUS => ⟨.boot, 0x20, 0x0, 1, 0, 1, 0x0, []⟩
  | .BOOT_SLOT_WRITE => ⟨.boot, 0x38, 0x0, 1, 0, 1, 0x0, []⟩
  | .BOOT_FLASH_CTL => ⟨.boot, 0x200, 0x0, 1, 0, 1, 0x0, [f_BOOT_FLASH_CTL_cmd, f_BOOT_FLASH_CTL_slot]⟩
  | .PWR_STATUS => ⟨.pwr, 0x0, 0x0, 1, 0, 1, 0x0, []⟩
  | .PWR_CTL => ⟨.pwr, 0x4, 0x0, 1, 0, 1, 0x1F40057, [f_PWR_CTL_allow_ms, f_PWR_CTL_budget_w]⟩
  | .PWR_POWER => ⟨.pwr, 0x8, 0x0, 1, 0, 1, 0x0, []⟩
  | .PWR_EXCURSION => ⟨.pwr, 0xC, 0x0, 1, 0, 1, 0x0, []⟩
  | .PWR_EVENTS => ⟨.pwr, 0x10, 0x0, 1, 0, 1, 0x0, [f_PWR_EVENTS_refused, f_PWR_EVENTS_supply_hub, f_PWR_EVENTS_supply_tile, f_PWR_EVENTS_trip, f_PWR_EVENTS_release, f_PWR_EVENTS_step]⟩
  | .PWR_GOV => ⟨.pwr, 0x14, 0x0, 1, 0, 1, 0x0, []⟩
  | .PWR_DOMAIN_REQ => ⟨.pwr, 0x20, 0x0, 1, 0, 1, 0x0, [f_PWR_DOMAIN_REQ_on, f_PWR_DOMAIN_REQ_off, f_PWR_DOMAIN_REQ_domain]⟩
  | .PWR_DOMAIN_ON_LO => ⟨.pwr, 0x24, 0x0, 1, 0, 1, 0x0, []⟩
  | .PWR_DOMAIN_ON_HI => ⟨.pwr, 0x28, 0x0, 1, 0, 1, 0x80000000, []⟩
  | .PWR_TILE_TEMP => ⟨.pwr, 0x40, 0x4, 8, 0, 1, 0x0, []⟩
  | .PWR_HUB_TEMP => ⟨.pwr, 0x60, 0x0, 1, 0, 1, 0x0, []⟩
  | .EVM_STAMP_RT_LO => ⟨.evm, 0x300, 0x20, 8, 0, 1, 0x0, []⟩
  | .EVM_STAMP_RT_HI => ⟨.evm, 0x304, 0x20, 8, 0, 1, 0x0, []⟩
  | .EVM_STAMP_ABS_LO => ⟨.evm, 0x308, 0x20, 8, 0, 1, 0x0, []⟩
  | .EVM_STAMP_ABS_HI => ⟨.evm, 0x30C, 0x20, 8, 0, 1, 0x0, []⟩
  | .EVM_STAMP_COUNT => ⟨.evm, 0x310, 0x20, 8, 0, 1, 0x0, []⟩
  | .TEST_WEB_DELAY => ⟨.test, 0x10, 0x4, 4, 0, 1, 0x0, [f_TEST_WEB_DELAY_ns]⟩
  | .TEST_CREDIT_HOLD_LO => ⟨.test, 0x20, 0x0, 1, 0, 1, 0x0, [f_TEST_CREDIT_HOLD_LO_mask]⟩
  | .TEST_CREDIT_HOLD_HI => ⟨.test, 0x24, 0x0, 1, 0, 1, 0x0, [f_TEST_CREDIT_HOLD_HI_mask]⟩
  | .TEST_CONSUMER_HOLD_LO => ⟨.test, 0x28, 0x0, 1, 0, 1, 0x0, [f_TEST_CONSUMER_HOLD_LO_mask]⟩
  | .TEST_CONSUMER_HOLD_HI => ⟨.test, 0x2C, 0x0, 1, 0, 1, 0x0, [f_TEST_CONSUMER_HOLD_HI_mask]⟩
  | .TEST_PORT_HOLD => ⟨.test, 0x30, 0x0, 1, 0, 1, 0x0, [f_TEST_PORT_HOLD_mask]⟩
  | .TEST_HBM_STRETCH => ⟨.test, 0x40, 0x4, 6, 0, 1, 0x0, [f_TEST_HBM_STRETCH_ns]⟩
  | .TEST_BEAT_SKEW => ⟨.test, 0x60, 0x4, 4, 0, 1, 0x0, [f_TEST_BEAT_SKEW_ps]⟩
  | .TEST_OVERFILL => ⟨.test, 0x70, 0x0, 1, 0, 1, 0x0, [f_TEST_OVERFILL_push, f_TEST_OVERFILL_write, f_TEST_OVERFILL_felt, f_TEST_OVERFILL_channel]⟩
  | .BOOT_AMEND_RX => ⟨.boot, 0x24, 0x0, 1, 0, 1, 0x0, []⟩
  | .BOOT_AMEND_ID => ⟨.boot, 0x28, 0x0, 1, 0, 1, 0x0, []⟩
  | .BOOT_AMEND_FRAME => ⟨.boot, 0x2C, 0x0, 1, 0, 1, 0x0, []⟩
  | .BOOT_AMEND_COUNT => ⟨.boot, 0x30, 0x0, 1, 0, 1, 0x0, []⟩
  | .BOOT_AMEND_CTL => ⟨.boot, 0x34, 0x0, 1, 0, 1, 0x0, [f_BOOT_AMEND_CTL_abort]⟩
  | .BOOT_IMAGE_DIGEST => ⟨.boot, 0x100, 0x4, 8, 0, 1, 0x0, []⟩
  | .BOOT_CONFIG_DIGEST => ⟨.boot, 0x120, 0x4, 8, 0, 1, 0x0, []⟩
  | .BOOT_FLASH_ADDR => ⟨.boot, 0x204, 0x0, 1, 0, 1, 0x0, [f_BOOT_FLASH_ADDR_addr]⟩
  | .BOOT_FLASH_DATA => ⟨.boot, 0x240, 0x4, 16, 0, 1, 0x0, [f_BOOT_FLASH_DATA_data]⟩
  | .BOOT_FUSE => ⟨.boot, 0x2000, 0x4, 2048, 0, 1, 0x0, []⟩

/-- The registers of a block, in table order. -/
def blkRegs : Blk → List Reg
  | .device => [.DEVICE_ID, .DEVICE_STATUS, .DEVICE_NODE, .DEVICE_CAPS, .DEVICE_SERIAL_LO, .DEVICE_SERIAL_HI, .DEVICE_ABS_TIME_LO, .DEVICE_ABS_TIME_HI, .DEVICE_SPARE_MAP, .DEVICE_SNAP_MISS]
  | .tb => [.TB_CTL, .TB_LINES_PER_FRAME, .TB_H_TOTAL, .TB_QUAL, .TB_STATUS, .TB_EVENTS, .TB_TIME_LO, .TB_TIME_HI, .TB_LINE_PERIOD, .TB_PHASE_ERR, .TB_GLITCH_COUNT, .TB_LATE_COUNT, .TB_HOLDOVER_LINES, .TB_FRAME_INIT, .TB_BEAT_CTL, .TB_BEAT_ROOT, .TB_BEAT_STATUS, .TB_ALT_OFFSET, .TB_PORT_DELAY, .TB_PORT_ASYM, .TB_ANCHOR_CTL, .TB_ANCHOR_STATUS, .TB_ANCHOR_TARGET_LO, .TB_ANCHOR_TARGET_HI, .TB_ANCHOR_LAST_LO, .TB_ANCHOR_LAST_HI]
  | .evm => [.EVM_STATUS, .EVM_EVENTS, .EVM_LOOP_COUNT, .EVM_FAR_LATE_COUNT, .EVM_DROP_COUNT, .EVM_LAST_REFUSED, .EVM_FAR_GROUP, .EVM_EVIO_CTL, .EVM_EVIO_STATUS, .EVM_RC_CTL, .EVM_RC_OWNER, .EVM_RC_TARGET, .EVM_RC_FAR_OFS, .EVM_RC_STATUS, .EVM_TASK_PEND, .EVM_TASK_OVF, .EVM_STAMP_RT_LO, .EVM_STAMP_RT_HI, .EVM_STAMP_ABS_LO, .EVM_STAMP_ABS_HI, .EVM_STAMP_COUNT]
  | .que => [.QUE_CTL, .QUE_STATUS, .QUE_VAT_FREE, .QUE_SPILL_BASE, .QUE_SPILL_SIZE, .QUE_SPILL_USED, .QUE_EVENTS, .QUE_AGENT_CTL, .QUE_AGENT_DROP_COUNT, .QUE_FELT_CTL, .QUE_FELT_RESERVE, .QUE_FELT_LIMIT, .QUE_FELT_STATUS, .QUE_FELT_DEPTH, .QUE_FELT_SPILLED, .QUE_FELT_WM_HIGH, .QUE_FELT_WM_LOW, .QUE_FELT_WM_STATUS, .QUE_FELT_DEST, .QUE_FELT_RING_BASE, .QUE_FELT_RING_SIZE, .QUE_FELT_RING_WR, .QUE_FELT_RING_RD, .QUE_FELT_DROP_COUNT, .QUE_FELT_POP]
  | .memc => [.MEMC_STATUS, .MEMC_EVENTS, .MEMC_FREQ, .MEMC_TRAIN, .MEMC_PAGE, .MEMC_PORT_TARGET, .MEMC_PORT_STATS, .MEMC_RH_CTL, .MEMC_RH_STATUS, .MEMC_RH_COUNT, .MEMC_SR_CTL, .MEMC_SR_STATS, .MEMC_PR_CTL, .MEMC_PR_BANK, .MEMC_PR_PC, .MEMC_LOST_BANK, .MEMC_LOST_PC, .MEMC_PAR_STATS, .MEMC_ERR_ADDR_LO, .MEMC_ERR_ADDR_HI, .MEMC_PPR_STATUS, .MEMC_PPR_CTL, .MEMC_REGION_BASE, .MEMC_REGION_SIZE, .MEMC_REGION_COPY, .MEMC_REGION_ATTR]
  | .web => [.WEB_CTL, .WEB_TORUS_BASE, .WEB_EVENTS, .WEB_DROP_COUNT, .WEB_LANE_LIMIT, .WEB_EYE_CTL, .WEB_TARGET_STATUS, .WEB_PORT_CTL, .WEB_PORT_STATUS, .WEB_PORT_RATE, .WEB_PORT_STATS, .WEB_PORT_RETRAIN, .WEB_LANE_EYE, .WEB_LANE_FEC, .WEB_BCAST, .WEB_ROUTE]
  | .flt => [.FLT_STATUS, .FLT_CTL, .FLT_UNACK, .FLT_ACK, .FLT_SEQ, .FLT_POLICY, .FLT_RECOVERY, .FLT_PIN, .FLT_RECOVER_COUNT, .FLT_LOST, .FLT_FIRST, .FLT_INJ_CTL, .FLT_INJ_STATUS, .FLT_RING]
  | .cal => [.CAL_CTL, .CAL_CMD, .CAL_STATUS, .CAL_EVENTS, .CAL_LIMIT, .CAL_COUCH_CTL, .CAL_WEAR_PROFILE, .CAL_LAST_RUN_LO, .CAL_LAST_RUN_HI, .CAL_COUCH_CMD, .CAL_SPARES, .CAL_TILE_SPARES, .CAL_COUCH_STATUS, .CAL_SLICE_STATUS, .CAL_SLICE_QUALITY, .CAL_SLICE_CHARGE, .CAL_SLICE_WEAR]
  | .boot => [.BOOT_STATUS, .BOOT_FAIL, .BOOT_FW_VERSION, .BOOT_CORE_STATUS, .BOOT_AMEND_STATUS, .BOOT_SLOT_WRITE, .BOOT_FLASH_CTL, .BOOT_AMEND_RX, .BOOT_AMEND_ID, .BOOT_AMEND_FRAME, .BOOT_AMEND_COUNT, .BOOT_AMEND_CTL, .BOOT_IMAGE_DIGEST, .BOOT_CONFIG_DIGEST, .BOOT_FLASH_ADDR, .BOOT_FLASH_DATA, .BOOT_FUSE]
  | .pwr => [.PWR_STATUS, .PWR_CTL, .PWR_POWER, .PWR_EXCURSION, .PWR_EVENTS, .PWR_GOV, .PWR_DOMAIN_REQ, .PWR_DOMAIN_ON_LO, .PWR_DOMAIN_ON_HI, .PWR_TILE_TEMP, .PWR_HUB_TEMP]
  | .test => [.TEST_STATUS, .TEST_WEB_DELAY, .TEST_CREDIT_HOLD_LO, .TEST_CREDIT_HOLD_HI, .TEST_CONSUMER_HOLD_LO, .TEST_CONSUMER_HOLD_HI, .TEST_PORT_HOLD, .TEST_HBM_STRETCH, .TEST_BEAT_SKEW, .TEST_OVERFILL]
  | .tile => [.TILE_BST_BIND, .TILE_BST_COMP, .TILE_BST_RSNS, .TILE_GUARD_CTL, .TILE_GUARD_STATUS]
  | .ch => [.CH_CTL, .CH_STATE, .CH_ATTACH, .CH_FORCE_SET, .CH_FORCE_NOW, .CH_DECKLE, .CH_DECKLE_DEFAULT, .CH_CALENDER, .CH_CALENDER_RATE, .CH_FORCE_EVENTS, .CH_DECKLE_COUNT, .CH_MEAS_CTL, .CH_MEAS_LEN, .CH_MEAS_TRIG, .CH_MEAS_DELAY, .CH_MEAS_STATUS, .CH_MEAS_EVENTS, .CH_MEAS_CUT_COUNT, .CH_MEAS_TRIG_COUNT, .CH_MEAS_DROP_COUNT, .CH_AUTORANGE, .CH_MEAS_MON, .CH_MEAS_MON_PEAK, .CH_MEAS_LAST_LO, .CH_MEAS_LAST_HI, .CH_MEAS_LAST_INFO, .CH_MEAS_SEQ, .CH_SWEEP_CTL, .CH_SWEEP_LIST, .CH_SWEEP_ENTRY, .CH_SWEEP_AT, .CH_SWEEP_STATUS, .CH_SWEEP_CUR, .CH_SWEEP_POS, .CH_SWEEP_EVENTS, .CH_SWEEP_MARK, .CH_SWEEP_LATE_COUNT, .CH_SWEEP_STARVE_COUNT, .CH_SWEEP_MOULD, .CH_SWEEP_POINT, .CH_SWEEP_LOOP_AT, .CH_SWEEP_LOOP_LEFT, .CH_RES_CTL, .CH_RES_STATUS, .CH_RES_EVENTS, .CH_RES_NOCREDIT_COUNT]

/-- The base local address of a block (Table 1-5; instances of CH and TILE are strides of their registers). -/
def blkBase : Blk → Nat
  | .device => 0x800000000
  | .tb => 0x800100000
  | .evm => 0x800200000
  | .que => 0x800300000
  | .memc => 0x800400000
  | .web => 0x800500000
  | .flt => 0x800600000
  | .cal => 0x800700000
  | .boot => 0x800800000
  | .pwr => 0x800900000
  | .test => 0x800A00000
  | .tile => 0x801000000
  | .ch => 0x802000000

/-- The local address of a register (R4). -/
def regAddr (r : Reg) (i j : Nat) : Nat :=
  let w := regRow r
  blkBase w.blk + w.off + i * w.s + j * w.q

/-- The block that holds a local address of the register space, with the offset in it (Table 1-5, R22). -/
def blkOf (a : Nat) : Option (Blk × Nat) :=
  if a < 0x800000000 then none
  else if a < 0x800B00000 then
    let o := (a - 0x800000000) % 0x100000
    match (a - 0x800000000) / 0x100000 with
    | 0 => some (.device, o)
    | 1 => some (.tb, o)
    | 2 => some (.evm, o)
    | 3 => some (.que, o)
    | 4 => some (.memc, o)
    | 5 => some (.web, o)
    | 6 => some (.flt, o)
    | 7 => some (.cal, o)
    | 8 => some (.boot, o)
    | 9 => some (.pwr, o)
    | _ => some (.test, o)
  else if a < 0x801000000 then none
  else if a < 0x801800000 then some (.tile, a - 0x801000000)
  else if a < 0x802000000 then none
  else if a < 0x802200000 then some (.ch, a - 0x802000000)
  else none

/-- The indexes with which a row lies at offset `o` of its block, if any. -/
def rowIndex (w : RegRow) (o : Nat) : Option (Nat × Nat) :=
  if o < w.off then none
  else
    let d := o - w.off
    let i := if w.s = 0 then 0 else d / w.s
    let e := d - i * w.s
    let j := if w.q = 0 then 0 else e / w.q
    if i < w.n ∧ j < w.m ∧ e = j * w.q then some (i, j) else none

/-- The first register of a list that lies at offset `o` of their block. -/
def findReg (o : Nat) : List Reg → Option (Reg × Nat × Nat)
  | [] => none
  | r :: rs =>
    match rowIndex (regRow r) o with
    | some (i, j) => some (r, i, j)
    | none => findReg o rs

/-- The register at a local address: none for an unassigned offset (R25) and outside the register blocks. -/
def regAt (a : Nat) : Option (Reg × Nat × Nat) :=
  match blkOf a with
  | some (b, o) => findReg o (blkRegs b)
  | none => none

/-- The reset value of a register's stored fields: its table's reset, except where the table gives one value per instance
(MEMC_PORT_TARGET[p]). -/
def regReset (r : Reg) (i : Nat) : Word :=
  match r with
  | .MEMC_PORT_TARGET => BitVec.ofNat 32 (match i with | 0 => 0x14 | 1 => 0x0A | 2 => 0xC8 | 3 => 0x64 | 4 => 0x1F4 | _ => 0xC8)
  | _ => BitVec.ofNat 32 (regRow r).reset

/-- What the stored word at a local address reads as while nothing else is listed there. -/
def addrReset (a : Nat) : Word :=
  match regAt a with
  | some (r, i, _) => regReset r i
  | none => 0

/-- The mask of a register's fields whose access code satisfies `p`. -/
def accMask (r : Reg) (p : Acc → Bool) : Word :=
  (regRow r).fields.foldl (fun m f => if p f.acc then m ||| maskOf f.lo f.len else m) 0

end Sys2Proof.Machine
end

