-- ==== Sys2Proof/Machine/Table.lean ====
section
/-!
DEFINITION. Sparse tables: a list of (key, value) pairs with strictly rising keys in which no entry equals what an
unlisted key reads as. Registers, memory, fuses, flash, channels, slices and routing channels are held this way, so
that equal machines are equal data.
-/

namespace Sys2Proof.Machine

/-- A sparse table keyed by natural numbers (an address or an instance number). -/
abbrev Table (α : Type) := List (Nat × α)

/-- What key `k` reads as: its listed value, else `d`. -/
def Table.get {α : Type} (d : α) (k : Nat) : Table α → α
  | [] => d
  | (j, v) :: t => if k = j then v else if k < j then d else Table.get d k t

/-- Remove key `k`. -/
def Table.erase {α : Type} (k : Nat) : Table α → Table α
  | [] => []
  | (j, v) :: t => if k = j then t else if k < j then (j, v) :: t else (j, v) :: Table.erase k t

/-- Insert or replace key `k`, keeping keys rising. -/
def Table.insert {α : Type} (k : Nat) (w : α) : Table α → Table α
  | [] => [(k, w)]
  | (j, v) :: t =>
    if k = j then (k, w) :: t
    else if k < j then (k, w) :: (j, v) :: t
    else (j, v) :: Table.insert k w t

/-- Write `w` at key `k`, where an unlisted `k` reads `d`: writing `d` removes the entry. -/
def Table.put {α : Type} [DecidableEq α] (d : α) (k : Nat) (w : α) (t : Table α) : Table α :=
  if w = d then Table.erase k t else Table.insert k w t

/-- Every key listed is above `k`. -/
def Table.above {α : Type} (k : Nat) : Table α → Bool
  | [] => true
  | (j, _) :: t => decide (k < j) && Table.above k t

/-- Keys strictly rise. -/
def Table.rising {α : Type} : Table α → Bool
  | [] => true
  | (j, _) :: t => Table.above j t && Table.rising t

/-- The canonical form: keys strictly rising, no entry equal to its default. -/
def Table.wf {α : Type} [DecidableEq α] (d : Nat → α) : Table α → Bool
  | [] => true
  | (j, v) :: t => Table.above j t && decide (v ≠ d j) && Table.wf d t

end Sys2Proof.Machine
end

