-- ==== Sys2Proof/Machine/State.lean ====
section
/-!
DEFINITION. The state of the ZRT-5120 as plain data, and the machine right after reset.

Configuration, event and count registers are held as words in `regs`, keyed by local address; whatever a status register shows
is held in the typed structures below and computed when it is read. Times are instants in 1/256 ns from the release of POR.
-/

namespace Sys2Proof.Machine

/-! ## Device block and requesters (chapter 1) -/

/-- A snapshot shadow: the reading master, the address of the pair's _LO register and the captured high half (R28). -/
structure Shadow where
  master : Nat
  pair : Nat
  hi : Word
  deriving DecidableEq, Repr

/-- The staging register of a master: the address of the pair's _LO register and the staged low half (R32). -/
structure LoStage where
  master : Nat
  pair : Nat
  lo : Word
  deriving DecidableEq, Repr

/-- The answer of the last access: who asked, whether it ended in an error, and the data returned. -/
structure Resp where
  master : Nat
  error : Bool
  data : Word
  deriving DecidableEq, Repr

/-- Device-wide state of the DEVICE block. -/
structure Dev where
  /-- DEVICE_STATUS.boot_phase (R33). -/
  phase : Nat
  /-- DEVICE_NODE.valid (R34). -/
  nodeValid : Bool
  /-- The loaded image selects forerunner mode. -/
  forerunner : Bool
  /-- The loaded image grants TEST permission. -/
  test : Bool
  /-- Snapshot shadows of remote requesters, the one with the oldest _LO read first (R31). -/
  remote : List Shadow
  /-- Dedicated shadows of internal master IDs (R31). -/
  internal : List Shadow
  /-- Staging registers of the masters (R32). -/
  stages : List LoStage
  deriving DecidableEq, Repr

/-! ## Raster timebase (chapter 2) -/

/-- A raster time as software sees it (R36): FRAME, LINE, PHASE. -/
structure RTime where
  frame : Nat
  line : Nat
  phase : Nat
  deriving DecidableEq, Repr

/-- The internal raster position: `frac` counts 1/2^32 line (PHASE and 16 bits of sub-phase, R36) and `rem` is what the
division by the line period left over. -/
structure Raster where
  frame : Nat
  line : Nat
  frac : Nat
  rem : Nat
  deriving DecidableEq, Repr

/-- The timebase states of Table 2-2. -/
inductive TbState where
  | unlocked | acquiring | locked | holdover | slewing
  deriving DecidableEq, Repr

/-- What qualifies one source of edges or beats (R43). -/
structure Judge where
  /-- Instant of the last edge or beat received. -/
  last : Option Nat
  /-- Edges or beats that arrived since judging restarts and are not judged. -/
  seen : Nat
  /-- Consecutive judged arrivals in window. -/
  good : Nat
  /-- Consecutive missing or out-of-window ones. -/
  bad : Nat
  /-- Windows already counted as missing since the last arrival. -/
  missed : Nat
  qualified : Bool
  deriving DecidableEq, Repr

/-- One delay exchange kept: round trip and twice the one-way delay, in ps (R55). -/
structure Exchange where
  rtt : Int
  owd2 : Int
  deriving DecidableEq, Repr

/-- A raster beat (R51): the root node, the sender's rank and holdover status, and its raster time with sub-phase. -/
structure Beat where
  root : Nat
  rank : Nat
  hold : Bool
  frame : Nat
  line : Nat
  frac : Nat
  deriving DecidableEq, Repr

/-- The receiver side of a beat port (R52, R53, R55). -/
structure BeatPort where
  judge : Judge
  /-- The last beat accepted. -/
  beat : Option Beat
  /-- Lines between beats, as the last two that came without a gap and not across a frame start showed. -/
  ivl : Nat
  /-- Beats in a row in window and free of the holdover flag. -/
  clean : Nat
  /-- The last 16 differences, root time implied minus own raster time, in ps. -/
  offs : List Int
  /-- The last 16 delay exchanges, newest first. -/
  hist : List Exchange
  delayValid : Bool
  delayPs : Int
  /-- The tag and t1 (ps) of the delay request awaiting its response. -/
  req : Option (Nat × Int)
  tag : Nat
  deriving DecidableEq, Repr

/-- A source assertion not routed yet: its source, the number of its chain (0 while nothing has linked to it), and the routing channel whose
firing carried it (R227). -/
structure Assertion where
  src : Nat
  chain : Nat
  via : Option Nat
  /-- Event cycle from which a re-entry is made (R227). -/
  at_ : Nat
  deriving DecidableEq, Repr

/-- A chain (R227): its number, the sources that have asserted in it, and the re-entries that it has made. -/
structure Chain where
  id : Nat
  srcs : List Nat
  reentries : Nat
  deriving DecidableEq, Repr

/-- A global anchor generator (R57 to R62). -/
structure Gen where
  armed : Bool
  /-- Armed while raster_ready was 0 (R59). -/
  waiting : Bool
  /-- The next target. -/
  target : RTime
  /-- Event cycle from which the target is compared: a target committed to an armed generator is in force from the next one (R61). -/
  since : Nat
  /-- Armed late or on the present raster time: the firing falls in the next event cycle (R60). -/
  due : Option Nat
  dueLate : Bool
  /-- The assertion whose chain armed it through its task input (Table 7-7). -/
  link : Option Assertion
  /-- Event cycle of the last disarm (R61). -/
  offCycle : Option Nat
  late : Bool
  holdover : Bool
  fires : Nat
  lastTime : RTime
  deriving DecidableEq, Repr

/-- The raster timebase. -/
structure Tb where
  state : TbState
  ready : Bool
  raster : Raster
  /-- Line period in 1/256 ns. -/
  period : Nat
  /-- Error of R49 in 1/2^32 line. -/
  err : Int
  /-- Correction that LOCKED tracking adds per line, in 1/2^32 line (R49; its amount is left open). -/
  track : Int
  /-- Judged measurements in a row with an error above 1 phase unit. -/
  overs : Nat
  line : Judge
  /-- The last FRAME_REF sample (R40). -/
  frameLevel : Bool
  /-- LINE_REF edges since the last frame start that FRAME_REF marked. -/
  markAgo : Option Nat
  /-- Size of the last frame mismatch in lines, while the last mark was one (R41). -/
  mismatch : Option Int
  holdLines : Nat
  /-- TB_H_TOTAL periods of a qualified PIXCLK, in 1/256 ns, and whether the phase is locked to it (R42). -/
  pix : Option Nat
  pixActive : Bool
  active : Option Nat
  /-- The instant at which raster_ready became 1, and the first frame that starts after it (R59, R77). -/
  readyAt : Nat
  readyFrame : Nat
  ports : Table BeatPort
  gens : Table Gen
  /-- The last beat made due on each port. -/
  sent : Table Beat
  deriving DecidableEq, Repr

/-! ## Event matrix (chapter 7) -/

/-- A far fork awaiting transmission (R228). -/
structure FarFork where
  group : Nat
  time : RTime
  channel : Nat
  secure : Bool
  deriving DecidableEq, Repr

/-- A pending delivery of a far fork (R230, R231). -/
structure Delivery where
  group : Nat
  time : RTime
  /-- The sender's routing channel. -/
  channel : Nat
  /-- The instant of acceptance, and whether D had passed then. -/
  taken : Nat
  late : Bool
  /-- Accepted while raster_ready was 0. -/
  waiting : Bool
  deriving DecidableEq, Repr

/-- An EVIO pin (R233 to R235). -/
structure Evio where
  level : Bool
  out : Bool
  /-- The level at the pin of an input, and the event cycle of its last change; `level` is the one accepted (R233). -/
  raw : Bool
  rawAt : Nat
  /-- Event cycles of firings whose output action is to come. -/
  due : List Nat
  /-- End of the pulse in progress. -/
  pulseEnd : Option Nat
  deriving DecidableEq, Repr

/-- A stamp (R214, EVM_STAMP). -/
structure Stamp where
  rt : RTime
  abs : Nat
  count : Nat
  deriving DecidableEq, Repr

/-- Counters of one routing channel. -/
structure RcDyn where
  fires : Nat
  /-- Event cycle of the last firing (R216). -/
  lastFire : Option Nat
  /-- Event cycle of the last change in service, and what was in service before it: EVM_RC_CTL, the targets and EVM_RC_FAR_OFS
  (R219). -/
  was : Option (Nat × List Word)
  deriving DecidableEq, Repr

/-- The event matrix. In-service fields of the routing channels are registers. -/
structure Evm where
  /-- Staged register values of routing channels, by register address (R217). -/
  staged : Table Word
  rcs : Table RcDyn
  /-- Pending counts of task inputs (R215). -/
  pend : Table Nat
  /-- Event cycle plus 1 of the last firing of a Burst-class or delivery of a Single-class input, and firings counted in it. -/
  served : Table (Nat × Nat)
  /-- For each pending firing of a Single-class input, the assertion that carried it (R227). -/
  carried : Table (List Assertion)
  /-- Sources asserted in the present event cycle and not routed yet. -/
  asserted : List Assertion
  /-- Re-entries to be made one cycle later (R227). -/
  reentry : List Assertion
  /-- Sources that what a firing did beyond the links of Table 7-7 asserts: they assert in the next event cycle (R225). -/
  later : List Assertion
  /-- The chains in progress, and the number of the last one begun (R227). -/
  chains : List Chain
  chainNo : Nat
  farTx : List FarFork
  farRx : List Delivery
  evio : Table Evio
  stamps : Table Stamp
  lastMaster : Nat
  lastChannel : Nat
  deriving DecidableEq, Repr

/-! ## Fault collector (chapter 10) -/

/-- The flags of Table 10-6. -/
structure RecFlags where
  acked : Bool
  cleared : Bool
  injected : Bool
  escalated : Bool
  recovered : Bool
  held : Bool
  coincident : Bool
  condition : Bool
  deriving DecidableEq, Repr

/-- A detected fault on its way to the collector. Classes are numbered 1 (A) to 5 (E). -/
structure Detect where
  code : Nat
  cls : Nat
  scope : Scope
  master : Nat
  access : Nat
  addr : Nat
  rt : RTime
  abs : Nat
  detail : Nat
  slot : Option Nat
  /-- A held injection is a condition (R309). -/
  heldInj : Bool
  arg0 : Nat
  arg1 : Nat
  deriving DecidableEq, Repr

/-- A capture record (Table 10-5), with the instant of its last capture, recurrence, clear or raise (R305). -/
structure Record where
  det : Detect
  reaction : Nat
  flags : RecFlags
  seq : Nat
  recur : Nat
  clr : Nat
  touched : Nat
  deriving DecidableEq, Repr

/-- A release under auto_en counted for R306: the minute in which it was made, and what it released. -/
structure ReleaseMark where
  minute : Nat
  scope : Scope
  deriving DecidableEq, Repr

/-- An injection slot (R309). -/
structure Inj where
  active : Bool
  fires : Nat
  /-- Event cycle in which the accepted firing is to be detected. -/
  due : Option Nat
  deriving DecidableEq, Repr

/-- The fault collector. -/
structure Flt where
  /-- FLT_RING: the records held, newest first (R297). A record that a newer one replaced stays at the end of the list only
  while it still covers a channel or a tile. -/
  ring : List Record
  /-- What the records hold in SAFE: pairs of a channel n, or 512 + t for TILE[t], and a record's sequence number (R305). -/
  cover : List (Nat × Nat)
  seq : Nat
  first : Option Record
  firstFrozen : Bool
  /-- The capture queue (R295). -/
  queue : List Detect
  /-- Event cycle of the last captures, and their sequence numbers (R295, R304). -/
  capCycle : Nat
  capSeqs : List Nat
  deviceSafe : Bool
  /-- Bit t: tile safe state of TILE[t]. -/
  tileSafe : Nat
  safeN : Bool
  held : Bool
  releases : List ReleaseMark
  /-- Releases not counted yet: of each, the channels that have yet to enter ZEROED (R99, R305). -/
  recovering : List (List Nat)
  inj : Table Inj
  deriving DecidableEq, Repr

/-! ## Force path (chapter 3) -/

/-- The channel states of Table 3-4, in code order. -/
inductive ChState where
  | detached | zeroed | forcingV | forcingI | ranging | spanChange | couching | safe
  deriving DecidableEq, Repr

/-- A force command (R78): mode (true: current), span, range, code, and the fast bit of a sweep entry (R156). -/
structure ForceCmd where
  mode : Bool
  span : Nat
  range : Nat
  code : Int
  fast : Bool
  deriving DecidableEq, Repr

/-- One stage of a change under way: a ramp that always passes through the calender (R86), a new target of the calender as
it is set, a mode change (R83), a range switch (R87, R88) that rescales the code when forcing current, and the hold of a span
change (R90). -/
inductive FStep where
  | ramp (code : Int)
  | aim (code : Int)
  | mode (m : Bool)
  | switch (old r : Nat)
  | hold (span range : Nat)
  deriving DecidableEq, Repr

/-- A logical channel's force path. -/
structure Force where
  st : ChState
  mode : Bool
  span : Nat
  range : Nat
  closed : Bool
  clamped : Bool
  short : Bool
  disabling : Bool
  attachMissed : Bool
  /-- The calender (R85). -/
  present : Int
  target : Int
  rate : Nat
  /-- Force-path correction in force and the value it moves to (R85, chapter 11). -/
  corr : Int
  corrTo : Int
  /-- The code released to the DAC. -/
  dac : Int
  /-- Deckle and filter in force (R93, R73). -/
  deckle : Word
  filter : Nat
  /-- Governor steps in force (R96, R391). -/
  gov : Nat
  /-- Start of the DAC frame in progress. -/
  frameAt : Nat
  /-- The stages still to run, the current one first. -/
  steps : List FStep
  /-- End of the range switch or hold under way; 0 while it has not begun. -/
  due : Nat
  /-- The mode the change ends in (none: ZEROED). -/
  goal : Option Bool
  /-- The ramps of the present command use the full step (R156). -/
  fast : Bool
  /-- The range that autorange, cleared while it was in effect, still has to go to (R134). -/
  toTop : Option Nat
  pending : Option ForceCmd
  /-- A detach request waits (R80). -/
  detach : Bool
  /-- The state held before COUCHING (Table 3-5), or before RANGING (R131). -/
  before : ChState
  /-- Instant of entry to SAFE; the switch is to open (R97). -/
  safeAt : Nat
  openWanted : Bool
  /-- Ends of the last RANGING or switch interval, clamp and COUCHING, for the flags of R124. -/
  rangingEnd : Nat
  clampEnd : Nat
  couchEnd : Nat
  /-- The slice that serves the channel, 0 to 67. -/
  slice : Nat
  deriving DecidableEq, Repr

/-! ## Measuring (chapter 4) -/

/-- The measurement sequencer of a channel. -/
structure Seqr where
  running : Bool
  entry : Nat
  profile : Nat
  /-- The entry word in progress (R116). -/
  word : Word
  /-- Start of the entry, of its aperture, and end of its aperture; the end is 0 while no entry is in progress. -/
  start : Nat
  apStart : Nat
  apEnd : Nat
  /-- Origin of the sampling grid (R106, R127). -/
  grid : Nat
  /-- Source and gain of the entry executed before, none where a settle interval is due (R112). -/
  prev : Option (Nat × Nat)
  /-- The same before the entry in progress began. -/
  prev0 : Option (Nat × Nat)
  /-- Sweep position, holdover and raster time captured at the first sampling instant (R113). -/
  cap : Option (Word × Bool × RTime)
  /-- Trigger instants to come (R125), and the pending restart: its instant, or the earliest one under FINISH (R126, R127). -/
  trigs : List Nat
  /-- Where entry 0 is to begin at the next slot of the grid: that instant (R111, R130). -/
  startAt : Option Nat
  /-- Event cycle of the trigger instant of the last trigger that took effect (R129). -/
  trigAt : Option Nat
  /-- With the pending restart: whether it cuts the entry in progress (Table 4-5). -/
  pend : Option (Nat × Bool)
  anchored : Bool
  cut : Bool
  lp : Bool
  lpUntil : Option Nat
  rangeHold : Bool
  stale : Bool
  staleEnd : Nat
  up : Nat
  down : Nat
  /-- CH_AUTORANGE.min and max in force, while a later write of them waits for the next counted result (R133). -/
  arOld : Option (Nat × Nat)
  /-- The last result (R136). -/
  last : DWord
  info : Word
  /-- The last result without STALE, keyed by profile × 16 + entry: value and raw word (R323). -/
  good : Table (DWord × Word)
  /-- Measure-path corrections in force, and those that wait for a sequence boundary (R323). -/
  corr : Nat
  corrNext : Option Nat
  /-- The slice of the tile that executes the entry in progress, and the corrections of the slice that takes over with the next one (R332). -/
  onSlice : Nat
  corrSwap : Option Nat
  deriving DecidableEq, Repr

/-! ## Sweep engines (chapter 5) -/

/-- Engine states in the order of CH_SWEEP_STATUS.state. -/
inductive EngState where
  | idle | armed | primed | running | waiting | starved
  deriving DecidableEq, Repr

/-- When a start instant or a mould point comes: at an instant, when raster time reaches a target, or once raster_ready is
1 and the target has been computed (R59). -/
inductive When where
  | at (u : Nat)
  | raster (t : RTime)
  | ready
  deriving DecidableEq, Repr

/-- A loop frame (R158). -/
structure LoopFrame where
  index : Nat
  target : Nat
  left : Nat
  deriving DecidableEq, Repr

/-- A timed execution, armed or in force (R147 to R151): entry index, execution number, entry bits and start. -/
structure Exec where
  idx : Nat
  ord : Nat
  word : BitVec 128
  start : When
  /-- The anchor's target. -/
  target : RTime
  /-- Its look-ahead point has been handled. -/
  lookDone : Bool
  /-- End fixed by a consumed advance, a timeout or, with dwell 0, the start of the next execution. -/
  endAt : Option When
  /-- Mould played: byte address of point 0 and number of points; the number of the point in force counted over all plays,
  the starts of the points to come with their numbers, and how many points have been placed. -/
  mBase : Nat
  mLen : Nat
  point : Nat
  points : List (Nat × When)
  placed : Nat
  /-- The mould buffer: the number of its first point, and its codes, none where the word is uncorrectable (R142, R169). -/
  mLo : Nat
  mCodes : List (Option Int)
  /-- Its timeout has been reported (R157). -/
  timedOut : Bool
  deriving DecidableEq, Repr

/-- A mark to be asserted (R154, R160): code, whether it delivers a trigger, and its instant (`ready` while that waits for the
arming of the next execution). -/
structure Mark where
  code : Nat
  trig : Bool
  due : When
  deriving DecidableEq, Repr

/-- What priming is for (R172, R174). -/
inductive Priming where
  | prime | startNow | startAt
  deriving DecidableEq, Repr

/-- A sweep engine. -/
structure Eng where
  state : EngState
  reason : Nat
  list : Nat
  /-- Byte address of entry 0 and length of the list run. -/
  base : Nat
  len : Nat
  priming : Option Priming
  /-- The frame of a start at frame that is armed. -/
  frame : Option Nat
  /-- Index of the next entry to execute. -/
  next : Nat
  /-- Prefetch buffer: index of its first entry, and the entries (R170). -/
  bufLo : Nat
  buf : List (BitVec 128)
  /-- First entry and number of entries of the fetch under way. -/
  fetch : Option (Nat × Nat)
  stack : List LoopFrame
  latch : Bool
  cur : Option Exec
  /-- Executions armed and not started, in order (R149: a look-ahead point may precede its own execution's start). -/
  plan : List Exec
  marks : List Mark
  /-- A stop that takes effect at a DAC frame boundary: its reason and the instant from which it may. -/
  stop : Option (Nat × When)
  /-- Control entries wait for the next DAC frame boundary (R153). -/
  stall : Bool
  /-- A BRANCH_DECKLE tests the latch as its event cycle ends (R159): the control entries left, whether an unanchored entry starts at a
  boundary 300 ns on, and whether mould descriptors are read as uncorrectable. -/
  branch : Option (Nat × Bool × Bool)
  pos : Word
  markCode : Nat
  markCount : Nat
  /-- Mould in play or last played, its point in force and the plays completed. -/
  mould : Nat
  point : Nat
  plays : Nat
  /-- The descriptor of the list is valid. -/
  ok : Bool
  /-- Event cycles of the last start accepted, host stop and advance consumed (R167, Table 5-8). -/
  startCycle : Option Nat
  stopCycle : Option Nat
  advCycle : Option Nat
  /-- What a start in the present event cycle found, for a stop in the same cycle: whether the engine was PRIMED, its stop_reason, its list and
  the channel's pending advances (Table 5-8). -/
  prior : Option (Bool × Nat × Nat × Nat)
  /-- The entry to SAFE in force stopped the engine (R177). -/
  resume : Bool
  deriving DecidableEq, Repr


/-! ## Results, felts and the vat (chapter 6) -/

/-- A result item: eight words (Table 6-1). -/
structure Item where
  w0 : Word
  w1 : Word
  w2 : Word
  w3 : Word
  w4 : Word
  w5 : Word
  w6 : Word
  w7 : Word
  deriving DecidableEq, Repr

/-- An entry of a stuff FIFO: the item with its stamps, the felt it is bound for, and the event cycle of its write. -/
structure StuffEntry where
  item : Item
  felt : Nat
  cycle : Nat
  deriving DecidableEq, Repr

/-- Where a queued item lies (R201). -/
inductive Place where
  | vat | spill | refill
  deriving DecidableEq, Repr

/-- An item queued in a felt: the item, its place, the event cycle of its push, and, of a spilled one, the number of its place in the spill
region and whether the refill of its segment has begun (R201). -/
structure QItem where
  item : Item
  place : Place
  cycle : Nat
  slot : Nat
  begun : Bool
  deriving DecidableEq, Repr

/-- Felt states of R208, in code order. -/
inductive FeltState where
  | off | active | draining | drained
  deriving DecidableEq, Repr

/-- A felt (R191 to R209). -/
structure Felt where
  st : FeltState
  /-- The eight lanes, lane 7 the highest priority; oldest item first. -/
  lanes : Table (List QItem)
  /-- The part-filled burst or flit of a CAPTURE or STREAM consumer. -/
  burst : List Item
  /-- Bursts on their way to HBM: ring number of the first item, and the items. -/
  inflight : List (Nat × List Item)
  taken : Nat
  written : Nat
  /-- Event cycle of the consumer's last take. -/
  takeCycle : Option Nat
  /-- Start of the tail timer while it runs (R202). -/
  timer : Option Nat
  /-- Since when the felt is empty. -/
  emptyAt : Nat
  /-- The event cycle in which enable was cleared, until that cycle has ended (R208). -/
  closing : Option Nat
  hiLive : Bool
  loLive : Bool
  ringFull : Bool
  streamSeq : Nat
  deriving DecidableEq, Repr

/-- Credits of one producer for one felt (R198, R199): those that may pay for a push, and those granted in `cycle`. -/
structure Credit where
  vat : Nat
  spill : Nat
  newVat : Nat
  newSpill : Nat
  cycle : Nat
  deriving DecidableEq, Repr

/-- A pop shadow: the reading master, its felt and the item (R193). -/
structure PopShadow where
  master : Nat
  felt : Nat
  item : Item
  deriving DecidableEq, Repr

/-- Result-path state of one channel: the last entry read (R188), trigger instants that each cause a paced read (R187), and
the old slice whose FIFO is read first after couching (R190). -/
structure Res where
  lastEntry : StuffEntry
  paced : List Nat
  waiting : Bool
  oldSlice : Option Nat
  deriving DecidableEq, Repr

/-- The vat manager and the felts. -/
structure Que where
  felts : Table Felt
  /-- Keyed by producer number × 64 + felt. -/
  credits : Table Credit
  /-- Asks that await an answer: producer × 64 + felt, with the event cycle of the ask. -/
  asks : List (Nat × Nat)
  popRemote : List PopShadow
  popInternal : List PopShadow
  /-- Items held by agents of STALL policy (R200). -/
  agents : Table (List Item)
  /-- Watermark sources due in a later event cycle: k and the cycle of the happening (R206). -/
  wmDue : List (Nat × Nat)
  /-- TEST_OVERFILL armed for a felt push and for a stuff FIFO write (Table 10-8). -/
  overFelt : Option Nat
  overStuff : Option Nat
  /-- Buffers and spill places returned in `backCycle`, usable from the next event cycle (R199): felt numbers. -/
  backCycle : Nat
  backVat : List Nat
  backSpill : List Nat
  /-- Felts whose watermark level was written in the event cycle in progress (R204), and those whose CROSSED bits were, with the bits as they
  stood before: high, low (R205). -/
  wmWritten : List Nat
  wmWas : List (Nat × Bool × Bool)
  deriving DecidableEq, Repr


/-! ## Memory controller (chapter 8) -/

/-- Controller states in the order of MEMC_STATUS.state. -/
inductive MemState where
  | untrained | training | service | selfRefresh | retention | freqSwitch
  deriving DecidableEq, Repr

/-- A request held by a port (R239): a write carries its bytes, a read its length. -/
structure MReq where
  id : Nat
  port : Nat
  write : Bool
  addr : Nat
  data : List Byte
  len : Nat
  /-- Instant of acceptance. -/
  at_ : Nat
  /-- The entry into urgency level 3 has been counted (R240). -/
  urgent : Bool
  /-- The addresses of an issued read whose bytes queued writes supplied (R244). -/
  fwd : List Nat
  deriving DecidableEq, Repr

/-- A bank b/q (R243, R246, R254). -/
structure Bank where
  row : Option Nat
  /-- Instant of the last access. -/
  access : Nat
  /-- Soft repair under way: end of the hold, and the row. -/
  repair : Option (Nat × Nat)
  /-- Spare rows used. -/
  spares : Nat
  noSpare : Bool
  /-- Refreshes postponed since the last one, and the instant of the last one (R241, R246). -/
  postponed : Nat
  refAt : Nat
  deriving DecidableEq, Repr

/-- The memory controller. -/
structure Memc where
  st : MemState
  gathering : Bool
  /-- Rate under background training for a change, and a change deferred (R256). -/
  trainRate : Option Nat
  freqWait : Option Nat
  cur : Nat
  rounds : Nat
  /-- Parameter sets completed by training: the latest one, and the one active on each pseudo-channel (R255). -/
  setNo : Nat
  sets : Table Nat
  /-- Instant at which FREQ_SWITCH was entered, while in it (R256). -/
  switchAt : Nat
  /-- Requests accepted and not issued, oldest first; queued writes are among them (R244). -/
  reqs : List MReq
  /-- Reads issued whose data are to come. -/
  reading : List MReq
  nextId : Nat
  /-- The answer of the last read that returned: request, data, error mark. -/
  answer : Option (Nat × List Byte × Bool)
  banks : Table Bank
  /-- Activations of each row group in the present window (R245). -/
  acts : Table Nat
  windowAt : Nat
  /-- The ports throttled, one bit each; the instant of every port's last activation; and the rows refreshed at the last crossing, as
  bank × 16,384 + row (R245). -/
  throttled : Nat
  actAt : Table Nat
  rhRows : List Nat
  rhPort : Nat
  rhPc : Nat
  rhBank : Nat
  /-- Since when no request is held. -/
  idleAt : Nat
  /-- Self-refresh entry command issued; exit asked for (R247, R248). -/
  srAt : Option Nat
  srExit : Option Nat
  /-- Banks and pseudo-channels retained in partial retention (R249). -/
  retBanks : Word
  retPcs : Word
  errAddr : Nat
  errUncorr : Bool
  errPort : Nat
  /-- Parity errors per row (R254). -/
  rowErrs : Table Nat
  /-- The bytes of the stack whose parity is known to fail: 1 at their addresses (R251). -/
  spoilt : Table Nat
  soft : Nat
  /-- Repair records that wait for the fuse array: bank index b × 32 + q, and row (R254). -/
  repairs : List (Nat × Nat)
  deriving DecidableEq, Repr


/-! ## The web, MGMT_SPI and JTAG (chapter 9) -/

/-- Port states of Table 9-3, in code order. -/
inductive PortState where
  | disabled | detect | train | align | param | active | retrain | failed
  deriving DecidableEq, Repr

/-- Lane health, in the order of WEB_LANE_EYE.health. -/
inductive Health where
  | good | warn | failed | off
  deriving DecidableEq, Repr

/-- A physical receive lane (R279). -/
structure Lane where
  measured : Bool
  width : Nat
  height : Nat
  health : Health
  /-- Consecutive measurements below the warn limits, and above them. -/
  low : Nat
  high : Nat
  /-- Uncorrectable codewords charged to the lane since its last measurement. -/
  uncorr : Nat
  deriving DecidableEq, Repr

/-- How far the spare lane of one direction has come (R280); a trained one keeps the codeword count that this end proposed. -/
inductive Spare where
  | free | asked | training | trained (count : Nat) | agreed (lane count : Nat) | used
  deriving DecidableEq, Repr

/-- The codeword stream that a direction sends (R259): the even count of the pair of codewords under way, and its flits so far. -/
structure TxCode where
  count : Nat
  flits : List Flit
  deriving DecidableEq, Repr

/-- The codeword stream that a direction receives (R259, R260): the count of the pair, the place of the next flit among its five, and
which of its codewords could not be corrected. -/
structure RxCode where
  count : Nat
  place : Nat
  lost0 : Bool
  lost1 : Bool
  deriving DecidableEq, Repr

/-- A web port (R259 to R282). -/
structure Port where
  st : PortState
  /-- Instant of entry to the state. -/
  since : Nat
  peerNode : Nat
  peerPort : Nat
  peerValid : Bool
  /-- Whether the port has been ACTIVE since it last left DISABLED or FAILED (credits of R270). -/
  granted : Bool
  /-- Next sequence number to send, and the next one expected. -/
  txSeq : Nat
  rxSeq : Nat
  /-- Receiving: flits are discarded until the expected one comes; the next flit sent carries nak. -/
  skipping : Bool
  nakDue : Bool
  /-- Sent and not acknowledged, oldest first (R268); how many of them, counted from the newest, are still to be sent again. -/
  replay : List Flit
  again : Nat
  /-- Instant of the last sending of each flit of the replay buffer. -/
  sentAt : List Nat
  tries : Nat
  /-- Output queues: link-local, BCAST, RSP, REQ and STREAM (R271). -/
  qLocal : List Flit
  qBcast : List Flit
  qRsp : List Flit
  qReq : List Flit
  qStream : List Flit
  /-- Credits held for sending, by cvc, and credits to be returned to the peer (R270). -/
  credits : Table Nat
  giveBack : Table Nat
  /-- Slots since the last STREAM flit while one waits (R271). -/
  streamWait : Nat
  /-- The last flit put on the link. -/
  sent : Option Flit
  txCode : TxCode
  rxCode : RxCode
  rate : Nat
  /-- A rate asked of the peer, one deferred, and the one the present RETRAIN goes to (R282). -/
  rateAsked : Option Nat
  rateWait : Option Nat
  rateNew : Option Nat
  lanes : Table Lane
  /-- Physical lanes that carry logical lanes 0 and 1; 3 for none. -/
  rx0 : Nat
  rx1 : Nat
  tx0 : Nat
  tx1 : Nat
  rxSpare : Spare
  txSpare : Spare
  /-- The logical lane whose replacement was asked for. -/
  rxBad : Nat
  txBad : Nat
  degraded : Bool
  /-- Instant of the last LINK_EYE item of the period. -/
  eyeAt : Nat
  deriving DecidableEq, Repr

/-- The web block. -/
structure Web where
  ports : Table Port
  /-- REQ flits taken and not served yet, at most 256, and those that wait in the input buffer of a port meanwhile (R273); port 4: the
  port has granted its credits anew since. -/
  serving : List Flit
  waiting : List (Nat × Flit)
  deriving DecidableEq, Repr

/-- The states of the TAP controller of IEEE 1149.1 (R287). -/
inductive TapState where
  | reset | idle | selectDr | captureDr | shiftDr | exit1Dr | pauseDr | exit2Dr | updateDr
  | selectIr | captureIr | shiftIr | exit1Ir | pauseIr | exit2Ir | updateIr
  deriving DecidableEq, Repr

/-- MGMT_SPI and the TAP: the bytes that the SPI target returned in its last transaction (R286); the TAP's controller, instruction
register, boundary register, whether it drives the pins, the 72-bit MGMT_ACCESS register, and what the data register selected captured
last to be shifted out (R287, R288). -/
structure Jtag where
  miso : List Byte
  tap : TapState
  ir : Nat
  boundary : Nat
  drives : Bool
  mgmt : Nat
  out : Nat
  deriving DecidableEq, Repr


/-! ## Calibration, wear and spare capacity (chapter 11) -/

/-- Slice states in the order of CAL_SLICE_STATUS.state. -/
inductive SliceState where
  | serving | free | precal | matching | handover | bridging | retired
  deriving DecidableEq, Repr

/-- Where a slice step stands (Table 11-3). -/
inductive StepPhase where
  | none | load | measure | openSlot | rest
  deriving DecidableEq, Repr

/-- Why a slice is due for couching (R330). -/
inductive DueFor where
  | wear | drift | faults | command (target : Nat)
  deriving DecidableEq, Repr

/-- A physical slice TILE[t].SL[s], keyed by t × 68 + s. -/
structure Slice where
  st : SliceState
  /-- CAL_SLICE_STATUS.check: 0 none, 1 to 6 as Table 11-4, 5 running. -/
  check : Nat
  due : Option DueFor
  segMin : Nat
  /-- Channel served, 0x3FF for none. -/
  channel : Nat
  qSpan : Nat
  qRange : Nat
  /-- Weighted charge in pAh, and thermal cycles (R336). -/
  charge : Nat
  cycles : Nat
  /-- Last minimum of T_SLICE (0 before the first reading), and the maximum that followed once it has risen 20 K, in 1/256 K. -/
  tMin : Nat
  tMax : Option Nat
  /-- T_SLICE at the last completed slice step in 1/256 K; 0 while it is not known. -/
  stepTemp : Nat
  /-- ADC cell out for calibration, and cells that failed (R107, R108). -/
  cell : Nat
  failed : Nat
  /-- The one active cell, while a rotation in low-power mode has shown it (R109). -/
  lpCell : Option Nat
  rotAt : Nat
  /-- The stuff FIFO, oldest first (R185). -/
  fifo : List StuffEntry
  /-- Event cycle of the last read of the stuff FIFO (R186). -/
  readCycle : Option Nat
  phase : StepPhase
  phaseAt : Nat
  /-- The load sample exceeded 0.1 % of I_FS; a state that forbids the check arose (Table 11-4); a change that discards the in-place
  force result began (R340). -/
  loaded : Bool
  disturbed : Bool
  discard : Bool
  /-- The spare that bridges, while one does. -/
  bridge : Option Nat
  retryAt : Option Nat
  /-- Instant of the last completed slice step. -/
  stepped : Option Nat
  /-- Number of the measure-path corrections in force on the slice (R323), and its force correction in codes (R85, R324). -/
  corr : Nat
  forceCorr : Int
  deriving DecidableEq, Repr

/-- The couching of a tile (Table 11-5; CAL_COUCH_STATUS). -/
structure Couch where
  step : Nat
  outcome : Nat
  slice : Nat
  channel : Nat
  at_ : Nat
  /-- Attempts made for the trigger, and when the next is due (R334). -/
  tries : Nat
  retryAt : Option Nat
  deriving DecidableEq, Repr

/-- A fuse burn under way: generation slot, first data word, records and data words (R316). -/
structure Burn where
  gen : Nat
  start : Nat
  records : Nat
  data : List Word
  deriving DecidableEq, Repr

/-- The calibration engine. -/
structure Cal where
  slices : Table Slice
  /-- Slices queued for a step on each tile, and the one in its step plus 1. -/
  queue : Table (List Nat)
  current : Table Nat
  /-- A run is in progress. -/
  running : Bool
  /-- The instant at which the run in progress began (R325). -/
  runAt : Nat
  /-- The run in progress was asked for by CAL_CMD (R340). -/
  commanded : Bool
  /-- A segment was retired in the run (R317). -/
  segLost : Bool
  lastRun : Nat
  couch : Table Couch
  /-- Group sensor readings at the group's last completed run in 1/256 K, keyed by 4t + g; 0 while none is known. -/
  groupTemp : Table Nat
  /-- The last reading of each group sensor in 1/256 K. -/
  groupSeen : Table Nat
  /-- Running element selections that differ from the committed ones: element number to its two words (R316). -/
  sel : Table DWord
  gen : Nat
  claimed : Nat
  committed : Nat
  burn : Option Burn
  burnAgain : Bool
  lastCommit : Option Nat
  /-- Bit t: the last FREE spare of TILE[t] has entered a handover, and no spare has become FREE since (R338). -/
  sparesOut : Nat
  fuseFull : Bool
  couchFull : Bool
  repairFull : Bool
  /-- Instants of class-B faults that count towards couching, per channel (R330). -/
  bFaults : Table (List Nat)
  /-- The wear log halves saved: sequence number of the newest, and the instant of its save (R337). -/
  wearSeq : Nat
  deriving DecidableEq, Repr


/-! ## Start-up, image and security (chapter 12) -/

/-- A firmware bank: version word (0 when empty) and whether it holds verified firmware (R357, R359). -/
structure FwBank where
  version : Word
  good : Bool
  deriving DecidableEq, Repr

/-- A management core: the duty it carries (0 HOST, 1 CAL, 2 WATCH, 3 none), failed, restarting (R358, R359). -/
structure Core4 where
  duty : Nat
  failed : Bool
  restarting : Bool
  deriving DecidableEq, Repr

/-- Amendment states in the order of BOOT_AMEND_STATUS.state. -/
inductive AmendState where
  | idle | receiving | verifying | preparing | staged | switching
  deriving DecidableEq, Repr

/-- The amendment engine (R361 to R365). -/
structure Amend where
  st : AmendState
  reason : Nat
  opener : Nat
  /-- The byte offsets of the package that the staging area holds, as (start, length) pieces. -/
  have_ : List (Nat × Nat)
  /-- Instant of the latest segment. -/
  segAt : Nat
  id : Nat
  frame : Nat
  count : Nat
  /-- amend_id of the last amendment applied (BOOT_AMEND_ID). -/
  lastId : Nat
  /-- Cores still to restart in a bank switch, and the bank switched to (Table 12-7). -/
  switch : List Nat
  newBank : Nat
  /-- Event cycle of the last boundary, and the addresses and bits that its amendment wrote (Table 12-8). -/
  shieldAt : Nat
  shield : List (Nat × Word)
  deriving DecidableEq, Repr

/-- A doorbell record of the MANAGEMENT section (R360). -/
structure Doorbell where
  action : Nat
  arg : Word
  deriving DecidableEq, Repr

/-- Loader, amendment engine, security engine and management cores. -/
structure Boot where
  slot : Nat
  triedA : Bool
  triedB : Bool
  failA : Nat
  failB : Nat
  secVersion : Nat
  signer : Nat
  /-- Image and configuration digests, 32 bytes each as a number, byte 0 lowest. -/
  imageDigest : BitVec 256
  configDigest : BitVec 256
  /-- Image flags raise_floor, and the wear-log record: slot and offset (R349). -/
  raiseFloor : Bool
  wearLog : Option (Nat × Nat)
  bank0 : FwBank
  bank1 : FwBank
  active : Nat
  cores : Table Core4
  amend : Amend
  stagingMib : Option Nat
  doorbells : Table Doorbell
  /-- SLOT_IMAGE bytes that wait to be written to the standby slot (R367). -/
  slotState : Nat
  slotTo : Nat
  slotFailed : Bool
  slotProgress : Nat
  slotImage : List Byte
  /-- Attestation requests that wait: node, tag, nonce (R368). -/
  attest : List (Nat × Nat × Nat × BitVec 256)
  /-- The flash command under way: command, end, and error of the last (R345). -/
  flashCmd : Option (Nat × Nat)
  flashError : Bool
  /-- Instant of the start of the boot phase in progress. -/
  phaseAt : Nat
  /-- Forerunner settings and window memory (R369, R370). -/
  foreSet : List Byte
  deriving DecidableEq, Repr

/-! ## Power (chapter 13) -/

/-- The power controller. -/
structure Pwr where
  /-- Rails within limits: hub rails as bits, tiles whose rails are lost as bits. -/
  hubOk : Nat
  tileLost : Nat
  /-- Tile domains to be switched off after a rail loss: tile to instant of detection (R380). -/
  offDue : Table Nat
  /-- A hub rail is lost and the hub is held in reset. -/
  hubReset : Bool
  /-- POR is in force: PORST_N is low or VDD_AON was lost, and POR_RELEASE has not come (R376). -/
  porHeld : Bool
  /-- Switched domains that are on. -/
  on : BitVec 62
  /-- Slice groups switched on and not powered yet: domain and instant (R392). -/
  rising : Table Nat
  powerMw : Nat
  timer : Nat
  timerSub : Nat
  devSteps : Nat
  tileSteps : Table Nat
  /-- Instants of the last step, of the last release and since when each release condition holds (R388 to R390). -/
  stepAt : Option Nat
  tileStepAt : Table Nat
  relAt : Option Nat
  lowSince : Option Nat
  coolSince : Table Nat
  /-- Sensor readings: hottest of each tile, stack and hub, in the units of PWR_TILE_TEMP and PWR_HUB_TEMP. -/
  tileTemp : Table Nat
  stackTemp : Nat
  hubTemp : Nat
  deriving DecidableEq, Repr


/-! ## The whole machine -/

/-- The state of the block. -/
structure State where
  /-- The present instant, in 1/256 ns from the release of POR; absolute time is `now / 256` (R13). -/
  now : Nat
  /-- Configuration, event and count registers, by local address; an unlisted one holds its reset value. -/
  regs : Table Word
  dev : Dev
  tb : Tb
  evm : Evm
  /-- Force paths, sequencers, sweep engines and result stages of the channels. -/
  force : Table Force
  seqs : Table Seqr
  engs : Table Eng
  ress : Table Res
  /-- Guard overload, one bit per octet (R104). -/
  guards : Nat
  que : Que
  memc : Memc
  /-- HBM contents, by local address. -/
  hbm : Table Byte
  /-- How often each bank b × 32 + q has lost its contents (R250). -/
  losses : Table Nat
  /-- Vat SRAM bytes written or read through the memory window since an item was last written to the vat (R26). -/
  vat : Table Byte
  web : Web
  jtag : Jtag
  flt : Flt
  cal : Cal
  boot : Boot
  pwr : Pwr
  /-- Fuse bits burnt in service, added to the factory contents (R315). -/
  fuses : Table Word
  /-- xSPI flash of slots A and B: byte address + slot × 2^29 (R346). -/
  flash : Table Byte
  /-- Answer to the last access. -/
  resp : Resp
  /-- How many free values have been drawn (the model's own field, notes/assumptions/3.md). -/
  free : Nat
  /-- Commands that wait, first in, first out (the model's own field). -/
  pending : List Instr
  deriving DecidableEq, Repr

/-- Why the machine stops with a fault. -/
inductive Fault where
  /-- Raised by a command that names an instance the device does not have (a channel above 511, a felt above 63, a port above
  3, ...). Safe: no device receives such a command. -/
  | noSuchInstance
  deriving DecidableEq, Repr

/-- Why a command has no meaning. -/
inductive Refusal where
  /-- Raised by an arm of `exec` that is not modelled yet. Safe: nothing is said of that command. -/
  | notModelled (mnemonic : String)
  /-- Raised by an access (a register access, a web request, MGMT_ACCESS, FORERUNNER_WINDOW_ACCESS) that reaches a ZRT-2560 register
  of the forerunner window, which only the ZRT-2560 manual describes (R370). Safe: the model stops where the device goes on. -/
  | forerunnerRegister (offset : Nat)
  deriving DecidableEq, Repr

/-! ## Reset -/

def RTime.zero : RTime := ⟨0, 0, 0⟩

def Judge.reset : Judge := ⟨none, 0, 0, 0, 0, false⟩

def BeatPort.reset : BeatPort := ⟨Judge.reset, none, 0, 0, [], [], false, 0, none, 0⟩

def Gen.reset : Gen := ⟨false, false, RTime.zero, 0, none, false, none, none, false, false, 0, RTime.zero⟩

def Beat.reset : Beat := ⟨0, 0, false, 0, 0, 0⟩

def Tb.reset : Tb :=
  { state := .unlocked, ready := false, raster := ⟨0, 0, 0, 0⟩, period := 0, err := 0, track := 0, overs := 0,
    line := Judge.reset, frameLevel := false, markAgo := none, mismatch := none, holdLines := 0, pix := none, pixActive := false,
    active := none, readyAt := 0, readyFrame := 0, ports := [], gens := [], sent := [] }

def Dev.reset : Dev :=
  { phase := 0, nodeValid := false, forerunner := false, test := false, remote := [], internal := [], stages := [] }

def RcDyn.reset : RcDyn := ⟨0, none, none⟩

def Evio.reset : Evio := ⟨false, false, false, 0, [], none⟩

def Stamp.reset : Stamp := ⟨RTime.zero, 0, 0⟩

def Evm.reset : Evm :=
  { staged := [], rcs := [], pend := [], served := [], carried := [], asserted := [], reentry := [], later := [], chains := [],
    chainNo := 0, farTx := [], farRx := [], evio := [],
    stamps := [], lastMaster := 0, lastChannel := 0 }

def Inj.reset : Inj := ⟨false, 0, none⟩

def Flt.reset : Flt :=
  { ring := [], cover := [], seq := 0, first := none, firstFrozen := false, queue := [], capCycle := 0, capSeqs := [], deviceSafe := false,
    tileSafe := 0, safeN := false, held := false, releases := [], recovering := [], inj := [] }

/-- A channel's force path from POR (R76): DETACHED, code 0, SPAN_LOW, range 5, served by its home slice. -/
def Force.reset (n : Nat) : Force :=
  { st := .detached, mode := false, span := 0, range := 5, closed := false, clamped := false, short := false,
    disabling := false, attachMissed := false, present := 0, target := 0, rate := 0, corr := 0, corrTo := 0, dac := 0,
    deckle := 0x7FFF7FFF, filter := 0, gov := 0, frameAt := 0, steps := [], due := 0, goal := none, fast := false, toTop := none,
    pending := none, detach := false, before := .detached, safeAt := 0, openWanted := false, rangingEnd := 0, clampEnd := 0,
    couchEnd := 0, slice := n % 64 }

def Seqr.reset : Seqr :=
  { running := false, entry := 0, profile := 0, word := 0x00410000, start := 0, apStart := 0, apEnd := 0, grid := 0,
    prev := none, prev0 := none, cap := none, trigs := [], startAt := none, trigAt := none, pend := none, anchored := false, cut := false, lp := false, lpUntil := none, rangeHold := false,
    stale := false, staleEnd := 0, up := 0, down := 0, arOld := none, last := 0, info := 0, good := [], corr := 0, corrNext := none, onSlice := 0, corrSwap := none }

def Eng.reset : Eng :=
  { state := .idle, reason := 0, list := 0, base := 0, len := 0, priming := none, frame := none, next := 0, bufLo := 0,
    buf := [], fetch := none, stack := [], latch := false, cur := none, plan := [], marks := [], stop := none,
    stall := false, branch := none, pos := 0xFFFFFFFF, markCode := 0, markCount := 0, mould := 0, point := 0, plays := 0, ok := false, startCycle := none,
    stopCycle := none, advCycle := none, prior := none, resume := false }

def Item.zero : Item := ⟨0, 0, 0, 0, 0, 0, 0, 0⟩

/-- The zero entry of channel `n` that stands for the last entry read (R188). -/
def StuffEntry.zero (n : Nat) : StuffEntry :=
  ⟨{ Item.zero with w0 := BitVec.ofNat 32 (n * 2 ^ 22) }, 0, 0⟩

def Res.reset (n : Nat) : Res := ⟨StuffEntry.zero n, [], false, none⟩

def Felt.reset : Felt :=
  { st := .off, lanes := [], burst := [], inflight := [], taken := 0, written := 0, takeCycle := none, timer := none,
    emptyAt := 0, closing := none, hiLive := false, loLive := true, ringFull := false, streamSeq := 0 }

def Credit.reset : Credit := ⟨0, 0, 0, 0, 0⟩

def Que.reset : Que :=
  { felts := [], credits := [], asks := [], popRemote := [], popInternal := [], agents := [], wmDue := [], overFelt := none,
    overStuff := none, backCycle := 0, backVat := [], backSpill := [], wmWritten := [], wmWas := [] }

def Bank.reset : Bank := ⟨none, 0, none, 0, false, 0, 0⟩

def Memc.reset : Memc :=
  { st := .untrained, gathering := false, trainRate := none, freqWait := none, cur := 0, rounds := 0,
    setNo := 0, sets := [], switchAt := 0, reqs := [], reading := [], nextId := 0, answer := none, banks := [], acts := [], windowAt := 0,
    throttled := 0, actAt := [], rhRows := [], rhPort := 0, rhPc := 0, rhBank := 0, idleAt := 0, srAt := none, srExit := none,
    retBanks := 0xFFFFFFFF, retPcs := 0xFFFFFFFF, errAddr := 0, errUncorr := false, errPort := 0, rowErrs := [], spoilt := [], soft := 0,
    repairs := [] }

def Lane.reset : Lane := ⟨false, 0, 0, .off, 0, 0, 0⟩

def Port.reset : Port :=
  { st := .disabled, since := 0, peerNode := 0, peerPort := 0, peerValid := false, granted := false, txSeq := 0, rxSeq := 0,
    skipping := false, nakDue := false, replay := [], again := 0, sentAt := [], tries := 0, qLocal := [],
    qBcast := [], qRsp := [], qReq := [], qStream := [], credits := [], giveBack := [], streamWait := 0, sent := none,
    txCode := ⟨0, []⟩, rxCode := ⟨0, 0, false, false⟩, rate := 0, rateAsked := none, rateWait := none, rateNew := none, lanes := [],
    rx0 := 3, rx1 := 3, tx0 := 3, tx1 := 3,
    rxSpare := .free, txSpare := .free, rxBad := 0, txBad := 0, degraded := false, eyeAt := 0 }

def Web.reset : Web := ⟨[], [], []⟩

def Jtag.reset : Jtag := ⟨[], .reset, 1, 0, false, 0, 0⟩

/-- Slice `i` = t × 68 + s from POR: a home slice serves its channel, a spare is FREE (CAL_SLICE_STATUS). -/
def Slice.reset (i : Nat) : Slice :=
  let t := i / 68
  let s := i % 68
  { st := if s < 64 then .serving else .free, check := 0, due := none, segMin := 0,
    channel := if s < 64 then 64 * t + s else 0x3FF, qSpan := 0, qRange := 0, charge := 0, cycles := 0, tMin := 0,
    tMax := none, stepTemp := 0, cell := 4, failed := 0, lpCell := none, rotAt := 0, fifo := [], readCycle := none, phase := .none, phaseAt := 0,
    loaded := false, disturbed := false, discard := false, bridge := none, retryAt := none, stepped := none, corr := 0, forceCorr := 0 }

def Couch.reset : Couch := ⟨0, 0, 0, 0, 0, 0, none⟩

def Cal.reset : Cal :=
  { slices := [], queue := [], current := [], running := false, commanded := false, segLost := false, lastRun := 0,
    couch := [], groupTemp := [], groupSeen := [], runAt := 0, sel := [], gen := 0, claimed := 0, committed := 0, burn := none,
    burnAgain := false, lastCommit := none, sparesOut := 0, fuseFull := false, couchFull := false, repairFull := false, bFaults := [],
    wearSeq := 0 }

/-- Core k carries duty k; core 3 is the spare (BOOT_CORE_STATUS). -/
def Core4.reset (k : Nat) : Core4 := ⟨k, false, false⟩

def Amend.reset : Amend :=
  { st := .idle, reason := 0, opener := 0, have_ := [], segAt := 0, id := 0, frame := 0, count := 0,
    lastId := 0, switch := [], newBank := 0, shieldAt := 0, shield := [] }

def Doorbell.reset : Doorbell := ⟨0, 0⟩

def Boot.reset : Boot :=
  { slot := 0, triedA := false, triedB := false, failA := 0, failB := 0, secVersion := 0, signer := 0, imageDigest := 0,
    configDigest := 0, raiseFloor := false, wearLog := none, bank0 := ⟨0, false⟩, bank1 := ⟨0, false⟩, active := 0,
    cores := [], amend := Amend.reset, stagingMib := none, doorbells := [], slotState := 0, slotTo := 0, slotFailed := false,
    slotProgress := 0, slotImage := [], attest := [], flashCmd := none, flashError := false, phaseAt := 0,
    foreSet := [] }

/-- At the release of POR every hub rail is within limits (R376); no switched domain is on (PWR_DOMAIN_ON). -/
def Pwr.reset : Pwr :=
  { hubOk := 0x1FF, tileLost := 0, offDue := [], hubReset := false, porHeld := false, on := 0, rising := [], powerMw := 0,
    timer := 0, timerSub := 0, devSteps := 0, tileSteps := [], stepAt := none, tileStepAt := [], relAt := none,
    lowSince := none, coolSince := [], tileTemp := [], stackTemp := 0, hubTemp := 0 }

def Resp.reset : Resp := ⟨0, false, 0⟩

/-- The machine right after reset: the release of POR. -/
def State.reset : State :=
  { now := 0, regs := [], dev := Dev.reset, tb := Tb.reset, evm := Evm.reset, force := [], seqs := [], engs := [],
    ress := [], guards := 0, que := Que.reset, memc := Memc.reset, hbm := [], losses := [], vat := [], web := Web.reset,
    jtag := Jtag.reset, flt := Flt.reset, cal := Cal.reset, boot := Boot.reset, pwr := Pwr.reset, fuses := [], flash := [],
    resp := Resp.reset, free := 0, pending := [] }

end Sys2Proof.Machine
end

