-- ==== Sys2Proof/Machine/Flags.lean ====
section
/-!
DEFINITION. Stored registers, their fields, sticky event bits and saturating counts (R4, R5, R7).
-/

namespace Sys2Proof.Machine

/-- The stored word of a register: its reset value while nothing is listed at its address. -/
def State.rd (s : State) (r : Reg) (i : Nat := 0) (j : Nat := 0) : Word :=
  Table.get (regReset r i) (regAddr r i j) s.regs

/-- Store a register's word. -/
def State.wr (s : State) (r : Reg) (w : Word) (i : Nat := 0) (j : Nat := 0) : State :=
  { s with regs := Table.put (regReset r i) (regAddr r i j) w s.regs }

/-- A stored field, as a number. -/
def State.fld (s : State) (f : Fld) (i : Nat := 0) (j : Nat := 0) : Nat := bits (s.rd f.reg i j) f.lo f.len

/-- Whether a stored field is not 0. -/
def State.on (s : State) (f : Fld) (i : Nat := 0) (j : Nat := 0) : Bool := s.fld f i j != 0

/-- Store a field, the rest of its register unchanged. -/
def State.setFld (s : State) (f : Fld) (v : Nat) (i : Nat := 0) (j : Nat := 0) : State :=
  s.wr f.reg (setBits (s.rd f.reg i j) f.lo f.len v) i j

/-- Set a sticky bit. -/
def State.stick (s : State) (f : Fld) (i : Nat := 0) : State := s.setFld f 1 i

/-- Set a sticky bit if `b` holds. -/
def State.stickIf (s : State) (b : Bool) (f : Fld) (i : Nat := 0) : State := if b then s.stick f i else s

/-- Add `n` to a count that saturates at the largest value of its field. -/
def State.tally (s : State) (f : Fld) (n : Nat := 1) (i : Nat := 0) : State :=
  s.setFld f (satAdd (2 ^ f.len - 1) (s.fld f i) n) i

end Sys2Proof.Machine
end

