-- ==== Sys2Proof/Machine/Ops.lean ====
section
/-!
DEFINITION. Named operations that every family shares: reading and replacing one instance of the state's tables, time and raster
arithmetic (R13, R36 to R38, R401), binary64 (R11), free values, memory bytes, the answer of an access and the assertion of
event sources (R212).
-/

namespace Sys2Proof.Machine

open Sys2Proof

/-! ## One instance of a table -/

def State.forceOf (s : State) (n : Nat) : Force := Table.get (Force.reset n) n s.force
def State.setForce (s : State) (n : Nat) (x : Force) : State :=
  { s with force := Table.put (Force.reset n) n x s.force }
def State.seqOf (s : State) (n : Nat) : Seqr := Table.get Seqr.reset n s.seqs
def State.setSeq (s : State) (n : Nat) (x : Seqr) : State := { s with seqs := Table.put Seqr.reset n x s.seqs }
def State.engOf (s : State) (n : Nat) : Eng := Table.get Eng.reset n s.engs
def State.setEng (s : State) (n : Nat) (x : Eng) : State := { s with engs := Table.put Eng.reset n x s.engs }
def State.resOf (s : State) (n : Nat) : Res := Table.get (Res.reset n) n s.ress
def State.setRes (s : State) (n : Nat) (x : Res) : State := { s with ress := Table.put (Res.reset n) n x s.ress }
def State.feltOf (s : State) (f : Nat) : Felt := Table.get Felt.reset f s.que.felts
def State.setFelt (s : State) (f : Nat) (x : Felt) : State :=
  { s with que := { s.que with felts := Table.put Felt.reset f x s.que.felts } }
def State.creditOf (s : State) (p f : Nat) : Credit := Table.get Credit.reset (p * 64 + f) s.que.credits
def State.setCredit (s : State) (p f : Nat) (x : Credit) : State :=
  { s with que := { s.que with credits := Table.put Credit.reset (p * 64 + f) x s.que.credits } }
def State.sliceOf (s : State) (i : Nat) : Slice := Table.get (Slice.reset i) i s.cal.slices
def State.setSlice (s : State) (i : Nat) (x : Slice) : State :=
  { s with cal := { s.cal with slices := Table.put (Slice.reset i) i x s.cal.slices } }
def State.couchOf (s : State) (t : Nat) : Couch := Table.get Couch.reset t s.cal.couch
def State.setCouch (s : State) (t : Nat) (x : Couch) : State :=
  { s with cal := { s.cal with couch := Table.put Couch.reset t x s.cal.couch } }
def State.genOf (s : State) (k : Nat) : Gen := Table.get Gen.reset k s.tb.gens
def State.setGen (s : State) (k : Nat) (x : Gen) : State :=
  { s with tb := { s.tb with gens := Table.put Gen.reset k x s.tb.gens } }
def State.beatPortOf (s : State) (p : Nat) : BeatPort := Table.get BeatPort.reset p s.tb.ports
def State.setBeatPort (s : State) (p : Nat) (x : BeatPort) : State :=
  { s with tb := { s.tb with ports := Table.put BeatPort.reset p x s.tb.ports } }
def State.portOf (s : State) (p : Nat) : Port := Table.get Port.reset p s.web.ports
def State.setPort (s : State) (p : Nat) (x : Port) : State :=
  { s with web := { s.web with ports := Table.put Port.reset p x s.web.ports } }
def State.bankOf (s : State) (k : Nat) : Bank := Table.get Bank.reset k s.memc.banks
def State.setBank (s : State) (k : Nat) (x : Bank) : State :=
  { s with memc := { s.memc with banks := Table.put Bank.reset k x s.memc.banks } }
def State.injOf (s : State) (j : Nat) : Inj := Table.get Inj.reset j s.flt.inj
def State.setInj (s : State) (j : Nat) (x : Inj) : State :=
  { s with flt := { s.flt with inj := Table.put Inj.reset j x s.flt.inj } }
def State.rcDynOf (s : State) (c : Nat) : RcDyn := Table.get RcDyn.reset c s.evm.rcs
def State.setRcDyn (s : State) (c : Nat) (x : RcDyn) : State :=
  { s with evm := { s.evm with rcs := Table.put RcDyn.reset c x s.evm.rcs } }
def State.pendOf (s : State) (i : Nat) : Nat := Table.get 0 i s.evm.pend
def State.setPend (s : State) (i x : Nat) : State := { s with evm := { s.evm with pend := Table.put 0 i x s.evm.pend } }
def State.evioOf (s : State) (j : Nat) : Evio := Table.get Evio.reset j s.evm.evio
def State.setEvio (s : State) (j : Nat) (x : Evio) : State :=
  { s with evm := { s.evm with evio := Table.put Evio.reset j x s.evm.evio } }
def State.coreOf (s : State) (k : Nat) : Core4 := Table.get (Core4.reset k) k s.boot.cores
def State.setCore (s : State) (k : Nat) (x : Core4) : State :=
  { s with boot := { s.boot with cores := Table.put (Core4.reset k) k x s.boot.cores } }

/-- Apply `g` for every element of a list, in order. -/
def State.each {α : Type} (s : State) (l : List α) (g : α → State → State) : State :=
  l.foldl (fun s x => g x s) s

/-- Apply `g` if `b` holds. -/
def State.iff (s : State) (b : Bool) (g : State → State) : State := if b then g s else s

/-! ## Time (R13, R401) -/

/-- The event cycle in progress. -/
def State.cycle (s : State) : Nat := s.now / 256

/-- Absolute time in ns, 64 bits. -/
def State.abs (s : State) : Nat := s.now / 256 % 2 ^ 64

/-- `n` nanoseconds, in 1/256 ns. -/
def ns (n : Nat) : Nat := n * 256
/-- `n` microseconds. -/
def us (n : Nat) : Nat := n * 256000
/-- `n` milliseconds. -/
def ms (n : Nat) : Nat := n * 256000000

/-- `n` ns after the event cycle in progress, counted from its end (R401). -/
def State.afterCycle (s : State) (n : Nat) : Nat := (s.cycle + 1 + n) * 256

/-- Whether instant `u` lies in the event cycle in progress or before it. -/
def State.reached (s : State) (u : Nat) : Bool := decide (u / 256 ≤ s.cycle)

/-! ## Raster arithmetic -/

/-- L, lines per frame; a device without a configuration counts one line per frame. -/
def State.lines (s : State) : Nat := max 1 (s.fld f_TB_LINES_PER_FRAME_lines)

/-- raster_add of R37. -/
def rtAdd (L : Nat) (a : RTime) (f l p : Nat) : RTime :=
  let p' := a.phase + p
  let l' := a.line + l + p' / 65536
  ⟨(a.frame + f + l' / L) % 2 ^ 32, l' % L, p' % 65536⟩

/-- raster_before of R38: true if `a` lies before `b`. -/
def rtBefore (a b : RTime) : Bool :=
  let df := (b.frame + 2 ^ 32 - a.frame % 2 ^ 32) % 2 ^ 32
  if df = 0 then decide (a.line < b.line) || (decide (a.line = b.line) && decide (a.phase < b.phase))
  else decide (df < 2 ^ 31)

/-- The distance from `a` to `b` in phase units, the frame difference taken as in R38. -/
def rtDiff (L : Nat) (a b : RTime) : Int :=
  let df := signed 32 (b.frame + 2 ^ 32 - a.frame % 2 ^ 32)
  ((df * L + b.line - a.line) * 65536) + b.phase - a.phase

/-- The low word of a raster time: LINE and PHASE. -/
def RTime.lo (r : RTime) : Word := BitVec.ofNat 32 (r.line * 65536 + r.phase)
/-- The high word of a raster time: FRAME. -/
def RTime.hi (r : RTime) : Word := BitVec.ofNat 32 r.frame

/-- The raster time that a pair of words spells. -/
def RTime.ofWords (lo hi : Word) : RTime := ⟨hi.toNat, bits lo 16 16, bits lo 0 16⟩

/-- What software sees of a raster position (R36). -/
def Raster.seen (r : Raster) : RTime := ⟨r.frame, r.line, r.frac / 65536⟩

/-- A raster position as a count of 1/2^32 line from 0:0:0x0000. -/
def Raster.pos (L : Nat) (r : Raster) : Nat := (r.frame * L + r.line) * 2 ^ 32 + r.frac

/-- The raster position at a count of 1/2^32 line, with a remainder. -/
def Raster.ofPos (L pos rem : Nat) : Raster :=
  ⟨pos / 2 ^ 32 / L % 2 ^ 32, pos / 2 ^ 32 % L, pos % 2 ^ 32, rem⟩

/-- The slew step in phase units per line (TB_CTL.slew). -/
def State.slewStep (s : State) : Nat := match s.fld f_TB_CTL_slew with | 0 => 256 | 1 => 64 | _ => 16

/-- Advance of the raster in 1/2^32 line over one line period (R48, R49). -/
def State.speed (s : State) : Nat :=
  match s.tb.state with
  | .unlocked => 0
  | .acquiring => 0
  | .locked => (2 ^ 32 + s.tb.track).toNat
  | .holdover => 2 ^ 32
  | .slewing => if 0 ≤ s.tb.err then 65536 * (65536 + s.slewStep) else 65536 * (65536 - s.slewStep)

/-- The raster position at instant `u`, at the present rate. -/
def State.rasterAt (s : State) (u : Nat) : Raster :=
  let p := s.tb.period
  if p = 0 then s.tb.raster
  else
    let x : Int := (Raster.pos s.lines s.tb.raster * p + s.tb.raster.rem : Nat) + ((u : Int) - s.now) * s.speed
    Raster.ofPos s.lines (x.toNat / p) (x.toNat % p)

/-- Raster time now (R36); 0 before first lock. -/
def State.raster (s : State) : RTime := s.tb.raster.seen

/-- Raster time at instant `u`. -/
def State.rasterTime (s : State) (u : Nat) : RTime := (s.rasterAt u).seen

/-- The instant at which raster time reaches `t` at the present rate; none while the raster stands still. -/
def State.instantOf (s : State) (t : RTime) : Option Int :=
  if s.tb.period = 0 ∨ s.speed = 0 then none
  else
    let d : Int := rtDiff s.lines s.raster t * 65536 - (s.tb.raster.frac % 65536 : Nat)
    let num := d * s.tb.period - s.tb.raster.rem
    some (s.now - (-num) / (s.speed : Int))

/-- TB_STATUS.holdover (Table 2-2). -/
def State.holdover (s : State) : Bool :=
  match s.tb.state with
  | .holdover => true
  | .slewing => true
  | .locked =>
    match s.tb.active with
    | some p => match (s.beatPortOf p).beat with | some b => b.hold | none => false
    | none => false
  | _ => false

/-! ## Numbers (R11) -/

/-- num / den rounded to the nearest integer, ties to even. -/
def divEven (num den : Nat) : Nat :=
  let q := num / den
  let r := num % den
  if 2 * r < den then q else if den < 2 * r then q + 1 else if q % 2 = 0 then q else q + 1

/-- The IEEE 754 binary64 nearest to num / den, ties to even. -/
def f64 (num : Int) (den : Nat) : DWord :=
  let a := num.natAbs
  let sign := if num < 0 then 2 ^ 63 else 0
  if a = 0 ∨ den = 0 then 0
  else
    let e0 : Int := (Nat.log2 a : Int) - Nat.log2 den
    let le := if 0 ≤ e0 then den * 2 ^ e0.toNat ≤ a else den ≤ a * 2 ^ (-e0).toNat
    let e := max (if le then e0 else e0 - 1) (-1022)
    let k := 52 - e
    let m := if 0 ≤ k then divEven (a * 2 ^ k.toNat) den else divEven a (den * 2 ^ (-k).toNat)
    if 1023 < e then BitVec.ofNat 64 (sign + 0x7FF * 2 ^ 52)
    else BitVec.ofNat 64 (sign + ((e + 1022).toNat * 2 ^ 52 + m))

/-- binary64 infinity with a sign. -/
def f64Inf (neg : Bool) : DWord := if neg then 0xFFF0000000000000 else 0x7FF0000000000000

/-! ## Free values (notes/assumptions/3.md) -/

def State.freeWord (s : State) : Word × State := (Config.freeWord s.free, { s with free := s.free + 1 })
def State.freeDWord (s : State) : DWord × State := (Config.freeDWord s.free, { s with free := s.free + 1 })
def State.freeInt (s : State) : Int × State := (Config.freeInt s.free, { s with free := s.free + 1 })

/-! ## HBM bytes (R22) -/

/-- Bank index and pseudo-channel of an HBM address, and the number of its bank b/q (Table 8-1). -/
def bankIx (a : Nat) : Nat := a / 2 ^ 29 % 32
def pcOf (a : Nat) : Nat := a / 256 % 32
def bankKey (a : Nat) : Nat := bankIx a * 32 + pcOf a

/-- What HBM address `a` reads as while nothing has written it since its bank last lost its contents (DESIGN CHOICE,
notes/assumptions/4.md). -/
def State.hbmDefault (s : State) (a : Nat) : Byte :=
  match Table.get 0 (bankKey a) s.losses with
  | 0 => 0
  | k + 1 => Config.lostByte k a

/-- The byte that a read of HBM address `a` returns: that of the youngest queued write which covers it, else the stack's (R244). -/
def State.hbmByte (s : State) (a : Nat) : Byte :=
  match s.memc.reqs.reverse.find? fun r => r.write && decide (r.addr ≤ a ∧ a < r.addr + r.data.length) with
  | some r => r.data.getD (a - r.addr) 0
  | none => Table.get (s.hbmDefault a) a s.hbm

/-- A byte is written with its parity (R251). -/
def State.setHbm (s : State) (a : Nat) (b : Byte) : State :=
  { s with hbm := Table.put (s.hbmDefault a) a b s.hbm, memc := { s.memc with spoilt := Table.put 0 a 0 s.memc.spoilt } }

/-- `n` bytes of HBM from address `a`. -/
def State.hbmBytes (s : State) (a : Nat) : Nat → List Byte
  | 0 => []
  | n + 1 => s.hbmByte a :: s.hbmBytes (a + 1) n

/-- Write bytes to HBM from address `a`. -/
def State.writeHbm (s : State) (a : Nat) : List Byte → State
  | [] => s
  | b :: bs => (s.setHbm a b).writeHbm (a + 1) bs

/-- A little-endian number from bytes (R5). -/
def leNat : List Byte → Nat
  | [] => 0
  | b :: bs => b.toNat + 256 * leNat bs

/-- `n` bytes of a number, little-endian (R5). -/
def leBytes (v : Nat) : Nat → List Byte
  | 0 => []
  | n + 1 => BitVec.ofNat 8 v :: leBytes (v / 256) n

/-! ## Fuses (R315) -/

/-- A fuse word: the factory contents and the bits burnt since. -/
def State.fuseWord (s : State) (i : Nat) : Word := Config.factoryFuse i ||| Table.get 0 i s.fuses

/-- Burn bits of a fuse word: bits go from 0 to 1 only (R315). -/
def State.burnFuse (s : State) (i : Nat) (w : Word) : State := { s with fuses := Table.put 0 i (Table.get 0 i s.fuses ||| w) s.fuses }

/-! ## Flash (R346) -/

/-- What a flash byte that nothing has written reads as: erased (PRESUMED, notes/assumptions/5.md). -/
def flashDefault : Byte := 0xFF

/-- The key of byte `a` of slot `k` (0: A, 1: B). -/
def flashKey (k a : Nat) : Nat := k * 2 ^ 29 + a

def State.flashByte (s : State) (k a : Nat) : Byte := Table.get flashDefault (flashKey k a) s.flash

def State.setFlash (s : State) (k a : Nat) (b : Byte) : State := { s with flash := Table.put flashDefault (flashKey k a) b s.flash }

/-- `n` bytes of slot `k` from byte `a`. -/
def State.flashBytes (s : State) (k a : Nat) : Nat → List Byte
  | 0 => []
  | n + 1 => s.flashByte k a :: s.flashBytes k (a + 1) n

/-- Erase and program bytes of slot `k` from byte `a`. -/
def State.writeFlash (s : State) (k a : Nat) : List Byte → State
  | [] => s
  | b :: bs => (s.setFlash k a b).writeFlash k (a + 1) bs

/-! ## The answer of an access -/

def State.answer (s : State) (m : Nat) (v : Word) : State := { s with resp := ⟨m, false, v⟩ }
def State.answerError (s : State) (m : Nat) : State := { s with resp := ⟨m, true, 0⟩ }

/-! ## Node and domains -/

/-- This device's node ID. -/
def State.node (s : State) : Nat := s.fld f_DEVICE_NODE_node_id

/-- Whether switched domain `d` is on (R18). -/
def State.domainOn (s : State) (d : Nat) : Bool := s.pwr.on.getLsbD d

/-- The slice group of position `q` (R14). -/
def groupOf (q : Nat) : Nat := if q < 64 then q / 16 else q - 64

/-- The power domain of physical slice `i` = t × 68 + q (Table 1-2). -/
def sliceDomain (i : Nat) : Nat := 5 * (i / 68) + groupOf (i % 68)

/-- The physical slice t × 68 + q that serves channel `n` (R15). -/
def State.sliceIdx (s : State) (n : Nat) : Nat := n / 64 * 68 + (s.forceOf n).slice

/-! ## Event sources (Table 7-1) -/

def srcDeckle (n : Nat) : Nat := 4 * n
def srcMark (n : Nat) : Nat := 4 * n + 1
def srcSeqEnd (n : Nat) : Nat := 4 * n + 2
def srcChFault (n : Nat) : Nat := 4 * n + 3
def srcTile (t i : Nat) : Nat := 2048 + 8 * t + i
def srcAnchor (k : Nat) : Nat := 2112 + k
def srcFar (g : Nat) : Nat := 2176 + g
def srcEvio (j : Nat) : Nat := 2192 + j
def srcMem (i : Nat) : Nat := 2208 + i
def srcFault (i : Nat) : Nat := 2224 + i
def srcCal (i : Nat) : Nat := 2256 + i
def srcWm (k : Nat) : Nat := 2272 + k

/-- A source asserts, beginning a chain (R212, R227). -/
def State.assertSrc (s : State) (src : Nat) : State :=
  { s with evm := { s.evm with asserted := s.evm.asserted ++ [⟨src, 0, none, 0⟩] } }

/-- The sources asserted since there were `old` of them assert in the next event cycle instead (R225). -/
def State.deferFresh (s : State) (old : Nat) : State :=
  { s with evm := { s.evm with asserted := s.evm.asserted.take old, later := s.evm.later ++ s.evm.asserted.drop old } }

/-- Scope codes of Table 10-2. -/
def scopeCode : Scope → Nat
  | .none => 0 | .channel _ => 1 | .octet _ => 2 | .tile _ => 3 | .device => 4 | .felt _ => 5 | .port _ => 6 | .other _ => 7

/-- Scope index of Table 10-2. -/
def scopeIndex : Scope → Nat
  | .channel n => n | .octet k => k | .tile t => t | .felt f => f | .port p => p | .other i => i | .none => 0 | .device => 0

/-! ## Requests that arrive at the memory controller (R239, R247, R248) -/

def State.setMemc (s : State) (x : Memc) : State := { s with memc := x }

/-- A port holds a request: a queued one, a fetch of a sweep engine, or a burst on its way to a capture ring (R247, R249). -/
def State.memHeld (s : State) : Bool :=
  ! s.memc.reqs.isEmpty || ! s.memc.reading.isEmpty || (s.engs.any fun e => e.2.fetch.isSome || e.2.priming.isSome) ||
    s.que.felts.any fun e => ! e.2.inflight.isEmpty

/-- Whether self-refresh entry has begun and its command is not issued yet: the idle time has passed (R247, Table 8-4). -/
def State.srEntering (s : State) : Bool :=
  let idle := s.fld f_MEMC_SR_CTL_idle_us
  decide (s.memc.st = .service) && decide (idle ≠ 0) && ! s.memHeld && decide (s.memc.idleAt + us idle ≤ s.now)

/-- A request arrives (R248): it abandons an entry that has begun, or waits for the exit. -/
def State.memArrive (s : State) : State :=
  if s.srEntering then (s.tally f_MEMC_SR_STATS_aborted).stick f_MEMC_EVENTS_sr_abort
  else if s.memc.st = .selfRefresh ∨ s.memc.st = .retention then
    let s := (s.tally f_MEMC_SR_STATS_waited).stick f_MEMC_EVENTS_sr_wait
    s.setMemc { s.memc with srExit := some (s.memc.srExit.getD s.now) }
  else s

/-- A request is held by port `p` (R239). -/
def State.memAccept (s : State) (p : Nat) (write : Bool) (a : Nat) (data : List Byte) (len : Nat) : State :=
  let s := s.memArrive
  let x := s.memc
  let r : MReq := { id := x.nextId, port := p, write, addr := a, data := if write then data else [], len, at_ := s.now, urgent := false, fwd := [] }
  s.setMemc { x with reqs := x.reqs ++ [r], nextId := x.nextId + 1 }

end Sys2Proof.Machine
end

