-- ==== Sys2Proof/Machine/Felts.lean ====
section
/-!
DEFINITION. Felts, credits and the vat: the accounts of R196 to R201, pushes, takes, watermarks and the items of internal
agents (chapter 6).
-/

namespace Sys2Proof.Machine

open Sys2Proof

/-! ## Items (Tables 6-1 to 6-6) -/

def flagAnchored : Nat := 1
def flagStale : Nat := 2
def flagRanging : Nat := 4
def flagClamped : Nat := 8
def flagHoldover : Nat := 16
def flagCut : Nat := 32
def flagUnderrun : Nat := 64
def flagCouching : Nat := 128
def flagInjected : Nat := 256
def flagSpilled : Nat := 512

/-- A result item (R181). -/
def mkItem (chan entry kind flags : Nat) (rt : RTime) (value : DWord) (raw pos : Word) (abs : Nat) : Item :=
  { w0 := BitVec.ofNat 32 (chan * 2 ^ 22 + entry * 2 ^ 18 + kind * 2 ^ 12 + flags), w1 := rt.lo, w2 := rt.hi,
    w3 := loWord value.toNat, w4 := hiWord value.toNat, w5 := raw, w6 := pos, w7 := loWord abs }

/-- Add flags to an item's header (Table 6-2). -/
def Item.flag (x : Item) (f : Nat) : Item := { x with w0 := x.w0 ||| BitVec.ofNat 32 f }

/-- Word `w` of an item. -/
def Item.word (x : Item) (w : Nat) : Word :=
  match w with | 0 => x.w0 | 1 => x.w1 | 2 => x.w2 | 3 => x.w3 | 4 => x.w4 | 5 => x.w5 | 6 => x.w6 | _ => x.w7

/-- The 32 bytes of an item (R181). -/
def Item.bytes (x : Item) : List Byte :=
  (List.range 8).flatMap (fun w => leBytes (x.word w).toNat 4)

/-- The item that 32 bytes hold. -/
def Item.ofBytes (l : List Byte) : Item :=
  let w := fun k => BitVec.ofNat 32 (leNat ((l.drop (4 * k)).take 4))
  ⟨w 0, w 1, w 2, w 3, w 4, w 5, w 6, w 7⟩

/-- The idle item of R195. -/
def idleItem (rt : RTime) : Item := mkItem 0 0 0 0 rt 0 0 0 0

/-! ## Lanes -/

def Felt.lane (x : Felt) (q : Nat) : List QItem := Table.get [] q x.lanes
def Felt.setLane (x : Felt) (q : Nat) (l : List QItem) : Felt := { x with lanes := Table.put [] q l x.lanes }

/-- Every item queued in the felt. -/
def Felt.items (x : Felt) : List QItem := x.lanes.flatMap (fun e => e.2)

/-- The depth of R191. -/
def Felt.depth (x : Felt) : Nat := x.items.length

def Felt.inPlace (x : Felt) (p : Place) : Nat := (x.items.filter (fun q => q.place == p)).length

/-- Whether the felt takes pushes in event cycle `c`: it is ACTIVE, or enable was cleared in that cycle (R208). -/
def Felt.accepts (x : Felt) (c : Nat) : Bool := decide (x.st = .active) || decide (x.closing = some c)

/-! ## Accounts of the vat (R196, R197) -/

/-- B of R198. -/
def State.batch (s : State) : Nat := 4 * 2 ^ s.fld f_QUE_CTL_batch

/-- Credits held for felt `f` by all producers. -/
def State.feltCredits (s : State) (f : Nat) : List Credit :=
  (s.que.credits.filter (fun e => e.1 % 64 == f)).map (fun e => e.2)

def sumBy {α : Type} (g : α → Nat) (l : List α) : Nat := l.foldl (fun n x => n + g x) 0

/-- Vat allocation of a felt (R197). -/
def State.vatAlloc (s : State) (f : Nat) : Nat :=
  (s.feltOf f).inPlace .vat + sumBy (fun c : Credit => c.vat + c.newVat) (s.feltCredits f)

/-- Allocation of a felt (R197): its queued items and the credits held for it. -/
def State.feltAlloc (s : State) (f : Nat) : Nat :=
  (s.feltOf f).depth + sumBy (fun c : Credit => c.vat + c.newVat + c.spill + c.newSpill) (s.feltCredits f)

def State.reserve (s : State) (f : Nat) : Nat := s.fld f_QUE_FELT_RESERVE_items f

/-- Buffers returned in the event cycle in progress, which can be granted from the next one (R199). -/
def State.returnedVat (s : State) (f : Nat) : Nat :=
  if s.que.backCycle = s.cycle then (s.que.backVat.filter (fun x => x == f)).length else 0

/-- The shared free count without what was returned in this event cycle, of a reserve or of the shared pool (R197, R199). -/
def State.sharedUsable (s : State) : Nat :=
  1032192 - sumBy (fun f => max (s.vatAlloc f + s.returnedVat f) (s.reserve f)) (List.range 64)

/-- The shared free count (R197). -/
def State.sharedFree (s : State) : Nat :=
  1032192 - sumBy (fun f => max (s.vatAlloc f) (s.reserve f)) (List.range 64)

/-- Spill places held by credits and items (QUE_SPILL_USED). -/
def State.spillUsed (s : State) : Nat :=
  sumBy (fun e : Nat × Felt => e.2.inPlace .spill) s.que.felts + sumBy (fun e : Nat × Credit => e.2.spill + e.2.newSpill) s.que.credits

def State.spilling (s : State) : Bool := s.spillUsed != 0

/-- Return a vat buffer or a spill place of felt `f` (R199). -/
def State.giveBack (s : State) (f : Nat) (spill : Bool) (n : Nat) : State :=
  let q := s.que
  let fresh := q.backCycle = s.cycle
  let v := if fresh then q.backVat else []
  let p := if fresh then q.backSpill else []
  { s with que := { q with backCycle := s.cycle, backVat := if spill then v else List.replicate n f ++ v,
                           backSpill := if spill then List.replicate n f ++ p else p } }

/-- Credits of an earlier event cycle count as held (R189, R199). -/
def Credit.settle (c : Credit) (cycle : Nat) : Credit :=
  if c.cycle < cycle then { c with vat := c.vat + c.newVat, spill := c.spill + c.newSpill, newVat := 0, newSpill := 0 } else c

def Credit.usable (c : Credit) (cycle : Nat) : Nat := (c.settle cycle).vat + (c.settle cycle).spill

def Credit.held (c : Credit) : Nat := c.vat + c.newVat + c.spill + c.newSpill

/-- TEST_CREDIT_HOLD withholds credits of felt `f` (Table 10-8). -/
def State.creditHeld (s : State) (f : Nat) : Bool :=
  if f < 32 then bit (s.rd .TEST_CREDIT_HOLD_LO) f else bit (s.rd .TEST_CREDIT_HOLD_HI) (f - 32)

/-- The batch that felt `f` could be granted: 0 where its state, its limit or a hold stands against it (R198). -/
def State.grantable (s : State) (f : Nat) : Nat :=
  if (s.feltOf f).st ≠ .active ∨ s.creditHeld f then 0 else min s.batch (s.fld f_QUE_FELT_LIMIT_items f - s.feltAlloc f)

/-- Free places of the spill region, usable now (R199). -/
def State.spillFree (s : State) : Nat :=
  s.fld f_QUE_SPILL_SIZE_pages * 128 - s.spillUsed - (if s.que.backCycle = s.cycle then s.que.backSpill.length else 0)

/-- The grant of R198 for felt `f`: how many credits, and whether they are backed by the spill region. -/
def State.grant (s : State) (f : Nat) : Option (Nat × Bool) :=
  let b := s.grantable f
  if b = 0 then none
  else if s.vatAlloc f + s.returnedVat f + b ≤ s.reserve f then some (b, false)
  else if s.fld f_QUE_CTL_spill_wm * 1024 + b ≤ s.sharedUsable then some (b, false)
  else if s.on f_QUE_CTL_spill_en ∧ b ≤ s.spillFree then some (b, true)
  else none

/-- A grant that fails for lack of spill space (R201). -/
def State.grantLacksSpill (s : State) (f : Nat) : Bool :=
  decide (s.grantable f ≠ 0) && s.on f_QUE_CTL_spill_en && (s.grant f).isNone

/-- Whether producer `p` writes felt `f` (R198). -/
def State.writesFelt (s : State) (p f : Nat) : Bool :=
  if p < 544 then
    let n := (s.sliceOf p).channel
    decide (n < 512) && decide (s.sliceIdx n = p) &&
      (List.range 64).any (fun j => s.fld f_CH_MEAS_SEQ_dest n j == f)
  else s.on f_QUE_AGENT_CTL_enable (p - 544) && decide (s.fld f_QUE_AGENT_CTL_felt (p - 544) = f)

/-- CREDIT_RETURN (R198): producer `p` returns its credits for felts that it writes no longer. -/
def State.returnUnwritten (s : State) (p : Nat) : State :=
  s.each (List.range 64) fun f s =>
    let c := s.creditOf p f
    if c.held = 0 ∨ s.writesFelt p f then s
    else ((s.setCredit p f Credit.reset).giveBack f false (c.vat + c.newVat)).giveBack f true (c.spill + c.newSpill)

/-! ## Watermarks (R204 to R206), judged as an event cycle ends -/

/-- Note a happening of felt `f` for its watermark source (R206). -/
def State.noteWm (s : State) (f : Nat) : State :=
  { s with que := { s.que with wmDue := s.que.wmDue ++ [(f / 2, s.cycle)] } }

/-- One watermark: its live bit before and after, CROSSED at the start of the event cycle, and the sticky bits to set (R205). -/
def State.crossing (s : State) (f : Nat) (was now before : Bool) (crossed returned : Fld) : State :=
  if was = now then s
  else if now then (s.stick crossed f).noteWm f
  else (s.stickIf before returned f).noteWm f

/-- The CROSSED bits of felt `f`, high and low, as they stood at the start of the event cycle (R205). -/
def State.crossedWas (s : State) (f : Nat) : Bool × Bool :=
  match s.que.wmWas.find? fun e => decide (e.1 = f) with
  | some e => e.2
  | none => (s.on f_QUE_FELT_WM_STATUS_high_crossed f, s.on f_QUE_FELT_WM_STATUS_low_crossed f)

/-- Keep them before the first write to QUE_FELT_WM_STATUS[f] in an event cycle. -/
def State.keepCrossed (s : State) (f : Nat) : State :=
  if s.que.wmWas.any fun e => decide (e.1 = f) then s
  else { s with que := { s.que with wmWas := (f, s.crossedWas f) :: s.que.wmWas } }

/-- A level of felt `f` is written: its watermarks are judged at the end of the event cycle, though nothing was ever queued in it (R204). -/
def State.levelWritten (s : State) (f : Nat) : State :=
  if s.que.wmWritten.contains f then s else { s with que := { s.que with wmWritten := f :: s.que.wmWritten } }

/-- Compare the depth of felt `f` with its two levels. -/
def State.judgeWm (s : State) (f : Nat) : State :=
  let x := s.feltOf f
  let hi := decide (s.fld f_QUE_FELT_WM_HIGH_items f ≤ x.depth)
  let lo := decide (x.depth ≤ s.fld f_QUE_FELT_WM_LOW_items f)
  if hi = x.hiLive ∧ lo = x.loLive then s
  else
    let was := s.crossedWas f
    let s := s.crossing f x.hiLive hi was.1 f_QUE_FELT_WM_STATUS_high_crossed f_QUE_FELT_WM_STATUS_high_returned
    let s := s.crossing f x.loLive lo was.2 f_QUE_FELT_WM_STATUS_low_crossed f_QUE_FELT_WM_STATUS_low_returned
    s.setFelt f { x with hiLive := hi, loLive := lo }

/-- The watermarks of every felt that has been used or whose level has been written, at the end of an event cycle (R204, R205). -/
def State.judgeWms (s : State) : State :=
  let s := (s.each (s.que.felts.map fun e => e.1) fun f s => s.judgeWm f).each s.que.wmWritten fun f s => s.judgeWm f
  { s with que := { s.que with wmWritten := [], wmWas := [] } }

/-! ## Push and take -/

/-- The place of the spill region that a spilled item takes: the lowest free one (DESIGN CHOICE, notes/assumptions/103.md). -/
def State.spillSlot (s : State) : Nat :=
  let used := s.que.felts.flatMap fun e => (e.2.items.filter fun q => q.place == .spill).map fun q => q.slot
  ((List.range (used.length + 1)).find? fun k => ! used.contains k).getD 0

/-- The HBM address of a place of the spill region (QUE_SPILL_BASE). -/
def State.spillAddr (s : State) (slot : Nat) : Nat := s.fld f_QUE_SPILL_BASE_page * 4096 + 32 * slot

/-- Put an item at the tail of lane `prio` of felt `f` (R191, R201): a spilled one is written through port P5; a write into the vat leaves
no byte of it known to the window (R26). -/
def State.enqueue (s : State) (f prio : Nat) (it0 : Item) (spill : Bool) : State :=
  let it := if spill then it0.flag flagSpilled else it0
  let slot := if spill then s.spillSlot else 0
  let s := if spill then s.memAccept 5 true (s.spillAddr slot) it.bytes 32 else s
  let x := s.feltOf f
  let tail := (x.lane prio).getLast?
  let begun := spill && (match tail with | some q => q.place == .spill && q.begun | none => false)
  let y := x.setLane prio (x.lane prio ++ [⟨it, if spill then .spill else .vat, s.cycle, slot, begun⟩])
  { s.setFelt f { y with timer := if x.depth = 0 then some s.now else x.timer } with vat := if spill then s.vat else [] }

/-- How a push ended. -/
inductive Pushed where
  | done (s : State)
  | overfull (s : State)
  | nocredit

/-- Whether felt `f` is at its limit with no credit outstanding; a place that a take of this event cycle freed is not usable yet (Table
6-7). -/
def State.feltFullUp (s : State) (f : Nat) : Bool :=
  let x := s.feltOf f
  let taken := if x.takeCycle = some s.cycle then 1 else 0
  decide (s.fld f_QUE_FELT_LIMIT_items f ≤ x.depth + taken) && decide (sumBy Credit.held (s.feltCredits f) = 0)

/-- Producer `p` pushes an item into an ACTIVE felt, using one credit (R189, R199): a vat credit before a spill-backed one
(notes/assumptions/41.md). An armed TEST_OVERFILL makes the push without a credit (Table 10-8). -/
def State.push (s : State) (p f prio : Nat) (it : Item) : Pushed :=
  if s.que.overFelt = some f then
    let s := { s with que := { s.que with overFelt := none } }
    if s.feltFullUp f then .overfull (s.tally f_QUE_FELT_DROP_COUNT_count 1 f) else .done (s.enqueue f prio it false)
  else
    let c := (s.creditOf p f).settle s.cycle
    if 0 < c.vat then .done ((s.setCredit p f { c with vat := c.vat - 1 }).enqueue f prio it false)
    else if 0 < c.spill then .done ((s.setCredit p f { c with spill := c.spill - 1 }).enqueue f prio it true)
    else .nocredit

/-- The lane from which the next item is delivered: the highest one that holds an item of an earlier event cycle
(R191, R207). -/
def State.frontLane (s : State) (f : Nat) : Option Nat :=
  ([7, 6, 5, 4, 3, 2, 1, 0] : List Nat).find? fun q =>
    match (s.feltOf f).lane q with
    | [] => false
    | x :: _ => decide (x.cycle < s.cycle)

/-- The next item to deliver, if any. -/
def State.front (s : State) (f : Nat) : Option QItem :=
  match s.frontLane f with
  | some q => ((s.feltOf f).lane q).head?
  | none => none

/-- The consumer of felt `f` takes the next item; none if there is none or it waits in the spill region (R192, R201). -/
def State.take (s : State) (f : Nat) : Option (Item × State) :=
  match s.frontLane f with
  | none => none
  | some q =>
    match (s.feltOf f).lane q with
    | [] => none
    | x :: rest =>
      if x.place = .spill then none
      else
        let y := (s.feltOf f).setLane q rest
        let empty := decide (y.depth = 0)
        let y := { y with takeCycle := some s.cycle, timer := if empty then none else some s.now,
                          emptyAt := if empty then s.now else y.emptyAt }
        let s := s.setFelt f y
        some (x.item, if x.place = .vat then s.giveBack f false 1 else s)

/-! ## Internal agents (R183, R200) -/

/-- Items held by agent `a` of STALL policy. -/
def State.backlog (s : State) (a : Nat) : List Item := Table.get [] a s.que.agents

def State.setBacklog (s : State) (a : Nat) (l : List Item) : State :=
  { s with que := { s.que with agents := Table.put [] a l s.que.agents } }

/-- Agent `a` writes an item with the stamps of its occasion; an enabled agent with a credit pushes at once, without one it
holds or drops the item (R200). Whether the push met a full felt (Table 6-7). -/
def State.agentWrite (s : State) (a kind : Nat) (value : DWord) (raw : Word) (rt : RTime) (abs flags : Nat) : State × Bool :=
  if ! s.on f_QUE_AGENT_CTL_enable a then (s, false)
  else
    let hold := if s.holdover then flagHoldover else 0
    let it := mkItem (512 + a) 0 kind (flags ||| hold) rt value raw 0xFFFFFFFF abs
    let f := s.fld f_QUE_AGENT_CTL_felt a
    let prio := s.fld f_QUE_AGENT_CTL_prio a
    let later := if s.on f_QUE_AGENT_CTL_nocredit a then s.tally f_QUE_AGENT_DROP_COUNT_count 1 a
                 else s.setBacklog a (s.backlog a ++ [it])
    if s.backlog a ≠ [] ∨ ! (s.feltOf f).accepts s.cycle then (later, false)
    else
      match s.push (544 + a) f prio it with
      | .done s => (s, false)
      | .overfull s => (s, true)
      | .nocredit => (later, false)

end Sys2Proof.Machine
end

