-- ==== Sys2Proof/WellFormed.lean ====
section
/-!
DEFINITION. Which commands name an instance that the device has: channels 0 to 511, felts 0 to 63, ports 0 to 3, and so on (chapters 1 and
3 to 13). A command that is not well formed reaches no device; executing it is a fault.
-/

namespace Sys2Proof

/-- CH[0] to CH[511] (R3). -/
def isChan (n : Nat) : Bool := decide (n < 512)
/-- TILE[0] to TILE[7] (R3). -/
def isTile (t : Nat) : Bool := decide (t < 8)
/-- Physical slices t × 68 + s (R14). -/
def isSlice (i : Nat) : Bool := decide (i < 544)
/-- Felts 0 to 63 (R3). -/
def isFelt (f : Nat) : Bool := decide (f < 64)
/-- Web ports W[0] to W[3]. -/
def isPort (p : Nat) : Bool := decide (p < 4)
/-- Lanes of a port: two active ones and the spare. -/
def isLane (l : Nat) : Bool := decide (l < 3)
/-- The bytes of a flit (R265). -/
def isFlit (l : List Byte) : Bool := decide (l.length = 256)
/-- Memory ports P0 to P5. -/
def isMemPort (p : Nat) : Bool := decide (p < 6)
/-- A bank of a pseudo-channel. -/
def isBank (b q : Nat) : Bool := decide (b < 32 ∧ q < 32)
/-- Pseudo-channels. -/
def isPc (q : Nat) : Bool := decide (q < 32)
/-- Requests lie in HBM and carry at least one byte. -/
def isMemSpan (a len : Nat) : Bool := decide (0 < len ∧ a + len ≤ 2 ^ 34)
/-- Global generators. -/
def isGen (k : Nat) : Bool := decide (k < 64)
/-- Guard octets. -/
def isOctet (k : Nat) : Bool := decide (k < 64)
/-- Booster ports, two on each tile. -/
def isBooster (b : Nat) : Bool := decide (b < 16)
/-- Felt pairs of the watermark sources. -/
def isPair (k : Nat) : Bool := decide (k < 32)
/-- Producers of result items: 544 slices and 40 agents (R198). -/
def isCreditor (p : Nat) : Bool := decide (p < 584)
/-- A producer that pushes. -/
def isProducer : Producer → Bool
  | .channel n => isChan n
  | .agent a => decide (a < 40)
/-- Routing channels. -/
def isRc (c : Nat) : Bool := decide (c < 256)
/-- Task inputs (Table 7-4). -/
def isInput (i : Nat) : Bool := decide (i < 1792)
/-- Broadcast groups. -/
def isGroup (g : Nat) : Bool := decide (g < 16)
/-- EVIO pins. -/
def isEvio (j : Nat) : Bool := decide (j < 16)
/-- Injection slots. -/
def isInj (j : Nat) : Bool := decide (j < 16)
/-- Management cores. -/
def isCore (k : Nat) : Bool := decide (k < 4)
/-- Duties of the management cores: HOST, CAL, WATCH. -/
def isDuty (d : Nat) : Bool := decide (d < 3)
/-- Doorbells. -/
def isBell (j : Nat) : Bool := decide (j < 16)
/-- Entries of a measurement profile. -/
def isEntry (p e : Nat) : Bool := decide (p < 4 ∧ e < 16)
/-- Words 1 to 7 of a result item. -/
def isTailWord (w : Nat) : Bool := decide (1 ≤ w ∧ w ≤ 7)
/-- Switched domains of slice groups (Table 1-2). -/
def isGroupDomain (d : Nat) : Bool := decide (d < 40 ∧ d % 5 ≠ 4)
/-- Hub rails. -/
def isRail (r : Nat) : Bool := decide (r < 9)
/-- A scope whose index lies in its kind (Table 10-2). -/
def isScope : Scope → Bool
  | .none => true
  | .channel n => isChan n
  | .octet k => isOctet k
  | .tile t => isTile t
  | .device => true
  | .felt f => isFelt f
  | .port p => isPort p
  | .other i => decide (i < 2048)
/-- The source of a missing edge or beat. -/
def isEdgeSrc : EdgeSrc → Bool
  | .line => true
  | .beats p => isPort p
/-- A tile to be named, or none. -/
def isTile? : Option Nat → Bool
  | some t => isTile t
  | none => true

/-- Every code of Table 10-9. -/
def faultCodes : List Nat :=
  [0x001, 0x002, 0x003, 0x004, 0x005, 0x006, 0x010, 0x100, 0x101, 0x102, 0x103, 0x104, 0x105, 0x106, 0x200, 0x201, 0x300,
   0x301, 0x302, 0x303, 0x400, 0x401, 0x402, 0x500, 0x501, 0x502, 0x503, 0x504, 0x505, 0x506, 0x600, 0x601] ++
  [0x602, 0x603, 0x604, 0x605, 0x606, 0x700, 0x701, 0x702, 0x703, 0x704, 0x705, 0x706, 0x707, 0x708, 0x800, 0x801, 0x802,
   0x900, 0x901, 0x902, 0xA00, 0xA01, 0xB00, 0xB01, 0xB02, 0xB03]

/-- A fault code that is not reserved (R313). -/
def isCode (c : Nat) : Bool := faultCodes.contains c

/-- The classes of a code (Table 10-9). -/
def codeClasses (c : Nat) : List Nat :=
  if c = 0x104 then [3, 4]
  else if c = 0x200 then [2, 3]
  else if [0x010, 0xB03].contains c then [5]
  else if [0xB01, 0xB02].contains c then [4]
  else if [0x101, 0x102, 0x103].contains c then [3]
  else if [0x100, 0x400, 0x401, 0x506, 0x605, 0x606, 0x706, 0x707, 0x708, 0x900, 0x901, 0x902, 0xA01].contains c then [2]
  else [1]
/-- The scope kinds of a code (Table 10-9). -/
def codeScope (c : Nat) (sc : Scope) : Bool :=
  match sc with
  | .device => [0x010, 0xB03].contains c
  | .octet _ => decide (c = 0x103 ∨ c = 0x104)
  | .tile _ => [0x104, 0x900, 0xB00, 0xB01, 0xB02].contains c
  | .channel _ => [0x100, 0x101, 0x102, 0x105, 0x106, 0x200, 0x201, 0x300, 0x301, 0x302, 0x400, 0x901, 0x902].contains c
  | .felt _ => [0x401, 0x402, 0x605].contains c
  | .port _ => [0x700, 0x701, 0x702, 0x705, 0x706, 0x707, 0x708, 0x802].contains c
  | .other _ => [0x500, 0x501, 0x502, 0x503, 0x504, 0x505, 0x506, 0xA01].contains c
  | .none => [0x001, 0x002, 0x003, 0x004, 0x005, 0x006, 0x303, 0x600, 0x601, 0x602, 0x603, 0x604, 0x606, 0x703, 0x704, 0x800, 0x801,
      0xA00].contains c
/-- A fault with the class and the scope that its code gives it (R289, R313); EVENT_SAFE takes class C on an octet, class D on a tile. -/
def isFault (code cls : Nat) (sc : Scope) : Bool :=
  isCode code && (codeClasses code).contains cls && codeScope code sc && isScope sc &&
    (decide (code ≠ 0x104) || (match sc with | .octet _ => decide (cls = 3) | _ => decide (cls = 4)))
/-- Codes that management firmware detects (Table 10-9). -/
def isFirmwareCode (c : Nat) : Bool := [0x900, 0x901, 0x902, 0xA00].contains c

/-- Every instance that a command names exists. -/
def Instr.wf (i : Instr) : Bool :=
  match i with
  | .registerWrite _ _ _ _ => true
  | .reservedAccess _ _ _ _ _ => true
  | .unalignedAccess _ _ _ _ _ => true
  | .vatSramWrite _ _ _ _ => true
  | .loRead _ _ _ => true
  | .hiRead _ _ _ => true
  | .loWriteStage _ _ _ _ => true
  | .hiWriteCommit _ _ _ _ => true
  | .readClear _ _ _ => true
  | .lineRefEdge _ => true
  | .frameStartMark _ _ => true
  | .edgeMissing _ src => isEdgeSrc src
  | .pixclkLost _ => true
  | .pixclkQualified _ _ _ => true
  | .rasterBeat _ p _ _ _ _ _ _ => isPort p
  | .beatSend _ p => isPort p
  | .delayReqSend _ p _ => isPort p
  | .delayReq _ p _ _ _ => isPort p
  | .delayRsp _ p _ _ _ => isPort p
  | .anchorFire _ k => isGen k
  | .arm _ _ k _ => isGen k
  | .disarm _ _ k _ => isGen k
  | .dacFrameBoundary _ n _ => isChan n
  | .forceCommand _ _ n _ => isChan n
  | .rangeChangeComplete _ n => isChan n
  | .spanHoldEnd _ n => isChan n
  | .attachment _ n => isChan n
  | .enableClear _ _ n _ _ => isChan n
  | .detach _ _ n _ _ => isChan n
  | .deckleHit _ n => isChan n
  | .clampRelease _ n _ => isChan n
  | .short _ n => isChan n
  | .shortClear _ n => isChan n
  | .safeSwitchOpen _ n _ => isChan n
  | .boostLoop _ b => isBooster b
  | .boostSense _ b => isBooster b
  | .guardOverload _ k => isOctet k
  | .cellRotation _ i => isSlice i
  | .adcCell _ i => isSlice i
  | .entryComplete _ n _ => isChan n
  | .lowPowerSwitchEnd _ n => isChan n
  | .trigger _ _ n _ => isChan n
  | .restart _ n => isChan n
  | .runSet _ _ n _ => isChan n
  | .runClear _ _ n _ _ => isChan n
  | .autorangeClear _ _ n _ => isChan n
  | .rangeHold _ n => isChan n
  | .chMeasSeqWrite _ _ n p e _ => isChan n && isEntry p e
  | .start _ _ n _ _ => isChan n
  | .prime _ _ n _ => isChan n
  | .primingComplete _ n _ => isChan n
  | .startInstant _ n => isChan n
  | .stop _ _ n _ => isChan n
  | .lookAheadPoint _ n _ => isChan n
  | .executionStart _ n _ _ => isChan n
  | .mouldPoint _ n _ _ => isChan n
  | .advanceConsumed _ n => isChan n
  | .waitTimeout _ n => isChan n
  | .prefetchArrival _ n _ => isChan n
  | .feltPush _ p => isProducer p
  | .creditAsk _ p f => isCreditor p && isFelt f
  | .creditGrant _ p f => isCreditor p && isFelt f
  | .feltPop _ _ f => isFelt f
  | .popShadowRead _ _ f w => isFelt f && isTailWord w
  | .captureTake _ f => isFelt f
  | .captureWriteComplete _ f => isFelt f
  | .streamTake _ f => isFelt f
  | .ringRdAdvance _ _ f _ => isFelt f
  | .refill _ f _ => isFelt f
  | .tailTimeout _ f => isFelt f
  | .watermarkEvent _ k => isPair k
  | .feltEnable _ _ f _ => isFelt f
  | .feltDisable _ _ f _ => isFelt f
  | .drained _ f => isFelt f
  | .feltEmptyFor1Us _ f => isFelt f
  | .fire _ _ c _ => isRc c
  | .taskSingleDelivery _ input => isInput input
  | .commit _ _ c _ => isRc c
  | .stage _ _ _ _ => true
  | .rcDirectWrite _ _ c _ => isRc c
  | .reEntry _ => true
  | .farForkSend _ => true
  | .eventBcast _ p f => isPort p && isGroup f.dst
  | .farForkDelivery _ g => isGroup g
  | .evioInputEdge _ j _ => isEvio j
  | .evioOutput _ j => isEvio j
  | .pulseEnd _ j => isEvio j
  | .portRequest _ p write addr data len => isMemPort p && isMemSpan addr (if write then data.length else len)
  | .urgencyLevel3 _ _ => true
  | .commandIssue _ q => isPc q
  | .throttleEnd _ => true
  | .readData _ _ _ _ => true
  | .softRepairComplete _ b q => isBank b q
  | .refresh _ b q => isBank b q
  | .pageClose _ b q => isBank b q
  | .selfRefreshEntry _ => true
  | .selfRefreshExit _ => true
  | .retentionEnter _ _ _ => true
  | .retentionExit _ _ _ => true
  | .trainingRound _ => true
  | .freqReq _ _ _ => true
  | .freqSwitch _ => true
  | .portEnable _ _ p _ => isPort p
  | .signalDetected _ p => isPort p
  | .trainComplete _ p => isPort p
  | .trainTimeout _ p => isPort p
  | .aligned _ p _ _ => isPort p
  | .alignTimeout _ p => isPort p
  | .hello _ p _ _ _ _ => isPort p
  | .failedRetry _ p => isPort p
  | .retrainTimeout _ p => isPort p
  | .retrained _ p _ _ => isPort p
  | .lossOfAlignment _ p => isPort p
  | .flitReceive _ p data _ => isPort p && isFlit data
  | .replayTimeout _ p => isPort p
  | .flitSend _ p => isPort p
  | .readReq _ _ _ _ _ _ => true
  | .writeReq _ _ _ _ _ => true
  | .eyeMeasurement _ p l _ _ => isPort p && isLane l
  | .lossOfSignal _ p l => isPort p && isLane l
  | .spareOn _ p _ => isPort p
  | .spareTrained _ p _ _ => isPort p
  | .swapReq _ p _ _ _ => isPort p
  | .swapAck _ p _ _ _ => isPort p
  | .laneSwap _ p _ => isPort p
  | .linkEye _ p => isPort p
  | .webPortRateReq _ _ p _ => isPort p
  | .rateReq _ p _ _ => isPort p
  | .rateAck _ p _ => isPort p
  | .spiWrite _ _ => true
  | .spiRead _ _ _ _ => true
  | .idcode _ _ => true
  | .bypass _ _ => true
  | .samplePreload _ _ _ => true
  | .extest _ _ _ => true
  | .extestPulse _ _ _ => true
  | .extestTrain _ _ _ => true
  | .highz _ => true
  | .clamp _ => true
  | .mgmtAccess _ _ _ _ _ => true
  | .capture _ code cls sc _ _ _ _ => isFault code cls sc && ! isFirmwareCode code
  | .firmwareFault _ code cls sc _ => isFault code cls sc && isFirmwareCode code
  | .queuedCapture _ => true
  | .conditionClear _ code sc => isCode code && isScope sc
  | .fltAck _ _ _ => true
  | .release _ sc => isScope sc
  | .hourlyCountStep _ => true
  | .safeN _ _ => true
  | .safeNRelease _ => true
  | .injectionFire _ _ j _ => isInj j
  | .injectedDetection _ j => isInj j
  | .injectionClear _ _ j _ => isInj j
  | .firstRearm _ _ _ => true
  | .tempTrigger _ group i _ => (if group then decide (i < 32) else isSlice i)
  | .intervalTrigger _ i => isSlice i
  | .calRun _ _ _ => true
  | .sliceStepStart _ tile => isTile tile
  | .measurePathStep _ i _ => isSlice i
  | .openOutputSlot _ i => isSlice i
  | .bridgeEnd _ i => isSlice i
  | .openOutputSlotEnd _ i => isSlice i
  | .sliceStepEnd _ i _ _ _ _ _ _ _ _ _ => isSlice i
  | .deferralRetry _ i => isSlice i
  | .calBurn _ _ _ => true
  | .generationCommitted _ => true
  | .calCouchCmd _ _ _ => true
  | .couchingStart _ tile => isTile tile
  | .couchMatch _ tile => isTile tile
  | .matchTimeout _ tile => isTile tile
  | .connect _ tile => isTile tile
  | .handoverRamp _ tile => isTile tile
  | .couchRelease _ tile => isTile tile
  | .couchRetry _ tile => isTile tile
  | .wearAccumulate _ i _ _ => isSlice i
  | .wearLogSave _ => true
  | .porRelease _ => true
  | .fuseLoad _ => true
  | .slotSelection _ _ _ => true
  | .verification _ => true
  | .hbmTraining _ => true
  | .webTraining _ => true
  | .tilePowerUp _ => true
  | .startUpRun _ => true
  | .runningEntry _ => true
  | .flashRead _ _ _ => true
  | .flashProgram _ _ _ => true
  | .flashErase _ _ _ => true
  | .reboot _ _ _ => true
  | .flashCommandComplete _ _ => true
  | .coreFailed _ k => isCore k
  | .coreTakesDuty _ k duty => isCore k && isDuty duty
  | .coreRestart _ => true
  | .doorbell _ j => isBell j
  | .amendSeg _ _ _ _ _ => true
  | .staged _ => true
  | .amendTimeout _ => true
  | .abort _ _ _ => true
  | .amendmentBoundary _ => true
  | .slotWrite _ => true
  | .slotWriteComplete _ _ => true
  | .attestReq _ _ _ _ => true
  | .attestRsp _ => true
  | .forerunnerWindowAccess _ _ _ _ _ _ => true
  | .porstN _ => true
  | .supplyTile _ tile => isTile tile
  | .tileDomainsOff _ tile _ => isTile tile
  | .supplyHub _ rail => isRail rail
  | .hubRestart _ => true
  | .vddAonLoss _ => true
  | .powerMeasurement _ _ _ _ _ => true
  | .deviceStep _ => true
  | .tileStep _ tile => isTile tile
  | .stepRelease _ tile => isTile? tile
  | .domainOn _ _ _ => true
  | .domainOff _ _ _ => true
  | .sliceGroupPowered _ d => isGroupDomain d

end Sys2Proof
end

