-- ==== Sys2Proof/Machine/FaultOps.lean ====
section
/-!
DEFINITION. The fault collector: what a fault record says, coverage, the entry to SAFE and to tile safe state, capture,
recurrence, escalation and clearing (R97, R98, R177, R289 to R304).
-/

namespace Sys2Proof.Machine

open Sys2Proof

/-! ## Codes (Table 10-9) -/

/-- Codes of condition faults. -/
def conditionCodes : List Nat := [0x010, 0x100, 0x101, 0x102, 0x103, 0x706, 0x800, 0xB01, 0xB02, 0xB03]

/-- The scope of a kind code and an index; none where the index lies outside the kind (R309). -/
def scopeOf (kind index : Nat) : Option Scope :=
  let sc : Scope := match kind with
    | 0 => .none | 1 => .channel index | 2 => .octet index | 3 => .tile index | 4 => .device | 5 => .felt index
    | 6 => .port index | _ => .other index
  if (kind = 0 ∨ kind = 4) ∧ index ≠ 0 then none else if isScope sc then some sc else none

/-- The base of the block that raises a code without a scope of its own (R296). -/
def codeBase (code : Nat) : Nat :=
  match code / 256 with
  | 3 => blkBase .ch | 4 => blkBase .que | 5 => blkBase .evm | 6 => blkBase .memc | 7 => blkBase .web | 8 => blkBase .tb
  | 9 => blkBase .cal | 10 => blkBase .boot | 11 => blkBase .pwr
  | _ => if code = 6 then blkBase .test else if code = 3 then blkBase .pwr else blkBase .flt

/-- The local address that names a scope in a record (R296; for an octet DEDUCED, notes/assumptions/50.md). -/
def scopeBase (code : Nat) : Scope → Nat
  | .channel n => blkBase .ch + n * 0x1000
  | .octet k => blkBase .ch + 8 * k * 0x1000
  | .tile t => blkBase .tile + t * 0x100000
  | .device => blkBase .device
  | .felt f => blkBase .que + 0x1000 + f * 0x100
  | .port p => blkBase .web + 0x100 + p * 0x40
  | _ => codeBase code

/-- A fault detected now without an access; the detail word as R296 gives it for a CHANNEL scope. -/
def State.detect (s : State) (code cls : Nat) (sc : Scope) (master : Nat) : Detect :=
  { code, cls, scope := sc, master, access := 0, addr := s.node * 2 ^ 36 + scopeBase code sc,
    rt := if s.tb.ready then s.raster else RTime.zero, abs := s.abs,
    detail := match sc with | .channel n => s.sliceIdx n | _ => 0,
    slot := none, heldInj := false, arg0 := 0, arg1 := 0 }

def Detect.condition (d : Detect) : Bool :=
  match d.slot with | some _ => d.heldInj | none => conditionCodes.contains d.code

/-! ## Coverage (R291, R293, R305) -/

/-- Channels that a reaction of class `cls` concerns: the range of a class-C reaction, whole tiles above it (Table 10-3). -/
def reactRange (cls : Nat) (sc : Scope) : Nat × Nat :=
  if cls = 5 then (0, 512)
  else
    match sc with
    | .channel n => if cls = 4 then (n / 64 * 64, n / 64 * 64 + 64) else (n, n + 1)
    | .octet k => if cls = 4 then (k / 8 * 64, k / 8 * 64 + 64) else (8 * k, 8 * k + 8)
    | .tile t => (64 * t, 64 * t + 64)
    | _ => (0, 0)

/-- Channels that a fault concerns, for COINCIDENT (R304). -/
def concernRange (cls : Nat) (sc : Scope) : Nat × Nat := if sc = .device then (0, 512) else reactRange cls sc

/-- Tiles put in tile safe state (Table 10-3). -/
def reactTiles (cls : Nat) (sc : Scope) : List Nat :=
  if cls = 5 then List.range 8
  else if cls = 4 then
    match sc with | .channel n => [n / 64] | .octet k => [k / 8] | .tile t => [t] | _ => []
  else []

/-- The records that hold the newest 64 places of the ring (R297). -/
def State.records (s : State) : List Record := s.flt.ring.filter fun r => decide (s.flt.seq < r.seq + 64)

/-- Records that cover a unit: a channel, or 512 + t for TILE[t]. -/
def State.coverUnit (s : State) (u : Nat) : List Record :=
  s.flt.ring.filter fun r => s.flt.cover.contains (u, r.seq)

/-- Records that cover channel `n`, its tile's included. -/
def State.covering (s : State) (n : Nat) : List Record :=
  s.flt.ring.filter fun r => s.flt.cover.contains (n, r.seq) || s.flt.cover.contains (512 + n / 64, r.seq)

/-- Whether the policy of a reaction class opens the switch; SAFE_N follows ext_open (R293, R307). -/
def State.policyOpens (s : State) (cls code : Nat) : Bool :=
  if code = 0x010 then s.on f_FLT_POLICY_ext_open
  else match cls with
    | 3 => s.on f_FLT_POLICY_c_open | 4 => s.on f_FLT_POLICY_d_open | 5 => s.on f_FLT_POLICY_e_open | _ => false

/-- Whether the highest reaction class that covers channel `n`, this one included, opens the switch (R293). -/
def State.safeOpens (s : State) (n cls code : Nat) : Bool :=
  let rs := s.covering n
  let top := rs.foldl (fun m r => max m r.reaction) cls
  (decide (top = cls) && s.policyOpens cls code) ||
    rs.any fun r => decide (r.reaction = top) && s.policyOpens r.reaction r.det.code

/-! ## Entry to SAFE (R97, R98, R177) -/

/-- What a change under way leaves to be completed in SAFE (R98): a range switch or a hold that has begun. -/
def safeSteps : List FStep → List FStep
  | .switch o r :: _ => [.switch o r]
  | .hold sp r :: _ => [.hold sp r]
  | _ => []

/-- Channel `n`, released, has entered ZEROED or has left its change to range 5 in another way: a release counts once with the last of its
channels (R99, R305; DESIGN CHOICE where several channels are released together, notes/assumptions/96.md). -/
def State.recovered (s : State) (n : Nat) : State :=
  let l := s.flt.recovering.map fun g => g.filter fun m => m != n
  let done := (l.filter fun g => g.isEmpty).length
  let s := { s with flt := { s.flt with recovering := l.filter fun g => ! g.isEmpty } }
  if done = 0 then s else s.tally f_FLT_RECOVER_COUNT_count done

/-- The zero-scale command of R97. A range switch under way goes on, but the channel's RANGING state ends here (R98, R124). -/
def Force.zeroScale (x : Force) (deckle : Word) (now : Nat) (opens : Bool) : Force :=
  { x with st := .safe, mode := false, present := 0, target := 0, dac := 0, deckle, steps := safeSteps x.steps,
           goal := none, fast := false, toTop := none, pending := none, safeAt := now, openWanted := opens,
           rangingEnd := if x.st = .ranging then now else x.rangingEnd,
           couchEnd := if x.st = .couching then now else x.couchEnd }

/-- Stop the sweep engine of channel `n` in this event cycle with a stop reason (R175 to R177); SAFE, reason 6, notes whether it stopped it. -/
def State.haltEngine (s : State) (n reason : Nat) : State :=
  let e := s.engOf n
  if e.state = .idle then s.setEng n { e with resume := e.resume && decide (reason ≠ 6) }
  else
    (s.stick f_CH_SWEEP_EVENTS_stopped n).setEng n
      { e with state := .idle, reason, priming := none, frame := none, buf := [], fetch := none, stack := [], cur := none, plan := [],
               marks := [], stop := none, stall := false, branch := none, pos := 0xFFFFFFFF, prior := none, resume := decide (reason = 6) }

/-- A slice position is FREE again: a spare ends its tile's shortage (R338). -/
def State.sliceFreed (s : State) (i : Nat) : State :=
  if 64 ≤ i % 68 then { s with cal := { s.cal with sparesOut := setBitN s.cal.sparesOut (i / 68) false } } else s

/-- A couching of tile `t` is abandoned: the spare is disconnected and the channel stays on its old slice; after three further attempts
its trigger is spent (R334). -/
def State.abandonCouch (s : State) (t : Nat) (retired : Bool) : State :=
  let c := s.couchOf t
  let i := t * 68 + c.slice
  let sp := s.sliceOf i
  let s := s.setSlice i { sp with st := if retired then .retired else .free, channel := 0x3FF, bridge := none }
  let s := s.iff (! retired) fun s => s.sliceFreed i
  let s := s.setCouch t { c with step := 0, outcome := 2, at_ := s.now,
                                 retryAt := if c.tries < 3 then some (s.now + ms 1000) else none }
  let old := s.sliceIdx c.channel
  let s := if c.tries < 3 then s else s.setSlice old { s.sliceOf old with due := none }
  (s.stick f_CAL_EVENTS_couch_abandoned).assertSrc (srcCal 6)

/-- Channel `n`, attached, enters SAFE (R97); in SAFE already, a reaction may only open its switch (R293). -/
def State.enterSafe (s : State) (n : Nat) (opens : Bool) : State :=
  let x := s.forceOf n
  if x.st = .detached then s
  else if x.st = .safe then s.setForce n { x with openWanted := x.openWanted || opens }
  else
    let t := n / 64
    let c := s.couchOf t
    let d := s.rd .CH_DECKLE_DEFAULT n
    let s := ((s.wr .CH_DECKLE d n).setForce n (x.zeroScale d s.now opens)).recovered n
    let s := (s.haltEngine n 6).assertSrc (srcChFault n)
    if x.st = .couching ∧ c.channel = n % 64 + 64 * t ∧ (c.step = 2 ∨ c.step = 3) then s.abandonCouch t false else s

/-- Attached channels of a range. -/
def State.attachedIn (s : State) (lo hi : Nat) : List Nat :=
  (s.force.filter fun e => decide (lo ≤ e.1 ∧ e.1 < hi) && decide (e.2.st ≠ .detached)).map fun e => e.1

/-- Add a pair to the coverage. -/
def State.addCover (s : State) (u seq : Nat) : State :=
  if s.flt.cover.contains (u, seq) then s else { s with flt := { s.flt with cover := (u, seq) :: s.flt.cover } }

/-- TILE[t] enters tile safe state (R291). -/
def State.enterTileSafe (s : State) (t : Nat) : State :=
  if s.flt.tileSafe.testBit t then s
  else State.assertSrc { s with flt := { s.flt with tileSafe := setBitN s.flt.tileSafe t true } } (srcTile t 5)

/-- The output action of Table 10-3 for a reaction class and a scope, on behalf of record `seq` (0: none). -/
def State.react (s : State) (cls : Nat) (sc : Scope) (code seq : Nat) : State :=
  if cls < 3 then s
  else
    let tiles := reactTiles cls sc
    let r := reactRange cls sc
    let chans := s.attachedIn r.1 r.2
    let s := s.each tiles fun t s => (s.addCover (512 + t) seq).enterTileSafe t
    let s := if cls = 3 then s.each chans fun n s => s.addCover n seq else s
    let s := if cls = 5 then { s with flt := { s.flt with deviceSafe := true } } else s
    s.each chans fun n s => s.enterSafe n (s.safeOpens n cls code)

/-! ## Capture (R295 to R304) -/

/-- Sequence numbers of the records captured in the event cycle in progress. -/
def State.sameCycle (s : State) : List Nat := if s.flt.capCycle = s.cycle then s.flt.capSeqs else []

/-- Change the records that satisfy `p`. -/
def State.mapRecords (s : State) (p : Record → Bool) (g : Record → Record) : State :=
  { s with flt := { s.flt with ring := s.flt.ring.map fun r => if p r then g r else r } }

/-- Class-B faults of CHANNEL scope that count towards couching (R330). -/
def State.countBFault (s : State) (d : Detect) : State :=
  match d.scope with
  | .channel n =>
    if d.cls ≠ 2 ∨ d.code = 0x100 ∨ d.code = 0x400 ∨ d.code = 0x901 then s
    else
      let w := s.fld f_CAL_COUCH_CTL_bfault_window * 3600 * ms 1000
      let l := s.now :: (Table.get [] n s.cal.bFaults).filter fun u => decide (s.now < u + w)
      let s := { s with cal := { s.cal with bFaults := Table.put [] n l s.cal.bFaults } }
      let i := s.sliceIdx n
      let x := s.sliceOf i
      if s.fld f_CAL_COUCH_CTL_bfault_n ≤ l.length ∧ x.due = none then s.setSlice i { x with due := some .faults } else s
  | _ => s

/-- A record that is not acknowledged and matches a fault (R301). -/
def State.recurring (s : State) (d : Detect) : Option Record :=
  s.records.find? fun r => ! r.flags.acked && decide (r.det.code = d.code) && decide (r.det.cls = d.cls) &&
    decide (r.det.scope = d.scope) && decide (r.det.slot = d.slot)

/-- A recurrence (R301). An event fault is cleared again at its detection (DEDUCED, notes/assumptions/51.md). -/
def State.recur (s : State) (r : Record) (d : Detect) : State :=
  let s := s.mapRecords (fun q => decide (q.seq = r.seq)) fun q =>
    { q with recur := satAdd 0xFFFF q.recur 1, flags := { q.flags with cleared := ! q.flags.condition },
             clr := if q.flags.condition then 0 else d.abs, touched := s.now }
  (s.assertSrc (srcFault (r.reaction - 1))).react r.reaction r.det.scope r.det.code r.seq

/-- A detection among those that wait: after the earlier ones, and in order of master ID among those of its own event cycle. -/
def queueInsert (d : Detect) : List Detect → List Detect
  | [] => [d]
  | e :: rest => if e.abs = d.abs ∧ d.master < e.master then d :: e :: rest else e :: queueInsert d rest

/-- Put a detection into the capture queue; with the queue full it is lost (R295). -/
def State.queueDetect (s : State) (d : Detect) : State :=
  if s.flt.queue.length < 64 then { s with flt := { s.flt with queue := queueInsert d s.flt.queue } }
  else s.tally f_FLT_LOST_lost

/-- The FAULT item of agent 20 (R299). -/
def State.faultItem (s : State) (d : Detect) : State :=
  let raw := BitVec.ofNat 32 (d.cls + d.master * 2 ^ 16)
  let r := s.agentWrite 20 0x14 (f64 d.code 1) raw d.rt d.abs (if d.slot.isSome then flagInjected else 0)
  let f := s.fld f_QUE_AGENT_CTL_felt 20
  if r.2 then r.1.queueDetect (r.1.detect 0x401 2 (.felt f) 0x1115) else r.1

/-- Keep the records of the newest 64 places and those that still cover something (R297). -/
def State.pruneRing (s : State) : State :=
  let keep := fun r : Record => decide (s.flt.seq < r.seq + 64) || s.flt.cover.any fun c => decide (c.2 = r.seq)
  { s with flt := { s.flt with ring := s.flt.ring.filter keep } }

/-- FLT_FIRST (R298). -/
def State.freezeFirst (s : State) (r : Record) : State :=
  if s.flt.firstFrozen ∨ r.det.cls < s.fld f_FLT_CTL_freeze_class then s
  else State.assertSrc { s with flt := { s.flt with first := some r, firstFrozen := true } } (srcFault 10)

/-- Capture a fault that is no recurrence: record, escalation, sources, item and reaction (R296 to R299, R303, R304). -/
def State.captureNew (s : State) (d : Detect) : State :=
  let same := s.sameCycle
  let old := s.records.filter fun r => ! r.flags.acked && decide (r.det.cls = d.cls) && ! same.contains r.seq
  let esc := decide (d.cls ≤ 4) && decide (d.code ≠ 0x010) && ! old.isEmpty
  let reaction := if esc then d.cls + 1 else d.cls
  let cond := d.condition
  let rg := concernRange reaction d.scope
  let meets := fun q : Record =>
    let qr := concernRange q.reaction q.det.scope
    same.contains q.seq && decide (qr.1 < rg.2 ∧ rg.1 < qr.2)
  let seq := s.flt.seq + 1
  let r : Record :=
    { det := d, reaction, seq, recur := 0, clr := if cond then 0 else d.abs, touched := s.now,
      flags := { acked := decide (d.cls = 1) && s.on f_FLT_CTL_ack_a_auto, cleared := ! cond, injected := d.slot.isSome,
                 escalated := esc, recovered := false, held := false, coincident := s.flt.ring.any meets, condition := cond } }
  let s := if s.records.any fun q => decide (q.seq + 64 = seq) && ! q.flags.acked then s.tally f_FLT_LOST_overwritten else s
  let s := s.mapRecords meets fun q => { q with flags := { q.flags with coincident := true } }
  let s := { s with flt := { s.flt with ring := r :: s.flt.ring, seq, capCycle := s.cycle, capSeqs := seq :: same } }
  let s := s.mapRecords (fun q => esc && old.any fun o => decide (o.seq = q.seq)) fun q =>
    if q.reaction < reaction then { q with reaction, flags := { q.flags with escalated := true }, touched := s.now } else q
  let s := (s.pruneRing.freezeFirst r).assertSrc (srcFault (reaction - 1))
  let s := if esc then s.assertSrc (srcFault 5) else s
  let s := (s.faultItem d).react reaction d.scope d.code seq
  if esc then s.each old fun q s => s.react reaction q.det.scope q.det.code q.seq else s

/-- Capture one fault (R296, R301). -/
def State.capture (s : State) (d : Detect) : State :=
  let s := s.countBFault d
  match s.recurring d with
  | some r => s.recur r d
  | none => s.captureNew d

/-- Whether another fault can be captured in this event cycle (R295). -/
def State.canCapture (s : State) : Bool := decide (s.sameCycle.length < 4)

/-- Capture faults that wait, as far as the event cycle allows (R295). -/
def State.collect : Nat → State → State
  | 0, s => s
  | k + 1, s =>
    match s.flt.queue with
    | [] => s
    | d :: rest =>
      if s.canCapture then State.collect k (State.capture { s with flt := { s.flt with queue := rest } } d) else s

/-- A fault is detected: captured, queued or lost; its reaction does not wait for capture (R295). -/
def State.log (s : State) (d : Detect) : State :=
  let s := if s.canCapture ∧ s.flt.queue = [] then s.capture d else (s.queueDetect d).react d.cls d.scope d.code 0
  State.collect 4 s

/-- A fault without an access. -/
def State.fault (s : State) (code cls : Nat) (sc : Scope) (master : Nat) : State := s.log (s.detect code cls sc master)

/-- Agent `a` writes an item of its occasion now (R183); a push at full is FELT_FULL (Table 6-7). -/
def State.agentItem (s : State) (a kind : Nat) (value : DWord) (raw : Word) : State :=
  let r := s.agentWrite a kind value raw s.raster s.abs 0
  if r.2 then r.1.fault 0x401 2 (.felt (s.fld f_QUE_AGENT_CTL_felt a)) 0x1115 else r.1

/-- A fault raised by an access of requester `m` at local address `a` (R296). -/
def State.accessFault (s : State) (code cls : Nat) (sc : Scope) (m access a : Nat) : State :=
  s.log { s.detect code cls sc m with access, addr := s.node * 2 ^ 36 + a }

/-- A class-A fault of a register write. -/
def State.writeFault (s : State) (code : Nat) (sc : Scope) (m a : Nat) : State := s.accessFault code 1 sc m 2 a

/-- A condition fault's cause ends (R300). -/
def State.clearCondition (s : State) (code : Nat) (sc : Scope) (slot : Option Nat) : State :=
  let now := s.now
  let abs := s.abs
  s.mapRecords (fun r => r.flags.condition && ! r.flags.cleared && decide (r.det.code = code) && decide (r.det.scope = sc) &&
      decide (r.det.slot = slot))
    fun r => { r with flags := { r.flags with cleared := true }, clr := abs, touched := now }

/-- FLT_UNACK and max_class: records that are not acknowledged. -/
def State.unacked (s : State) : List Record := s.records.filter fun r => ! r.flags.acked

/-- DEVICE_STATUS.max_class: the highest reaction class of any record not acknowledged (R302). -/
def State.maxClass (s : State) : Nat := s.unacked.foldl (fun m r => max m r.reaction) 0

/-- FAULT_N is driven low (R308). -/
def State.faultPin (s : State) : Bool :=
  decide (s.dev.phase < 6) || decide (s.dev.phase = 15) || (s.force.any fun e => decide (e.2.st = .safe)) ||
    (s.on f_FLT_PIN_fault_min && decide (s.fld f_FLT_PIN_fault_min ≤ s.maxClass))

/-- ALERT_N is driven low (R308). -/
def State.alertPin (s : State) : Bool :=
  s.on f_FLT_PIN_alert_min && decide (s.fld f_FLT_PIN_alert_min ≤ s.maxClass)

/-- The sixteen words of a capture record (Table 10-5). -/
def Record.word (r : Record) (w : Nat) : Word :=
  let d := r.det
  let fl := b2n r.flags.acked + 2 * b2n r.flags.cleared + 4 * b2n r.flags.injected + 8 * b2n r.flags.escalated +
    16 * b2n r.flags.recovered + 32 * b2n r.flags.held + 64 * b2n r.flags.coincident + 128 * b2n r.flags.condition
  match w with
  | 0 => BitVec.ofNat 32 (d.code * 2 ^ 20 + d.cls * 2 ^ 17 + r.reaction * 2 ^ 14 + scopeCode d.scope * 2 ^ 11 + scopeIndex d.scope)
  | 1 => BitVec.ofNat 32 (d.master * 2 ^ 16 + d.access * 2 ^ 12 + fl)
  | 2 => BitVec.ofNat 32 r.seq
  | 3 => BitVec.ofNat 32 d.addr
  | 4 => BitVec.ofNat 32 (r.recur * 2 ^ 16 + d.addr / 2 ^ 32)
  | 5 => d.rt.lo
  | 6 => d.rt.hi
  | 7 => loWord d.abs
  | 8 => hiWord d.abs
  | 9 => loWord r.clr
  | 10 => hiWord r.clr
  | 11 => BitVec.ofNat 32 d.detail
  | 12 => BitVec.ofNat 32 (d.slot.getD 0)
  | 13 => BitVec.ofNat 32 d.arg0
  | 14 => BitVec.ofNat 32 d.arg1
  | _ => 0

end Sys2Proof.Machine
end

