-- ==== Sys2Proof/Machine/Operands.lean ====
section
/-!
DEFINITION. Operand forms: the fields of a measurement entry word (CH_MEAS_SEQ), of a sweep entry (Table 5-2) and the arithmetic
of measured values (R118 to R122).
-/

namespace Sys2Proof.Machine

open Sys2Proof

/-! ## Measurement entries (R112, CH_MEAS_SEQ) -/

def mMark (w : Word) : Bool := bit w 23
def mDest (w : Word) : Nat := bits w 16 7
def mSinc (w : Word) : Bool := bit w 15
def mGain (w : Word) : Nat := bits w 12 3
def mK (w : Word) : Nat := bits w 7 5
def mSource (w : Word) : Nat := bits w 0 3

/-- Whether a write of an entry word is refused (R138). -/
def mRefused (w : Word) : Bool :=
  decide (0x41 < mDest w) || decide (4 < mGain w) || decide (mSource w = 7) || decide (16 < mK w) ||
    (mSinc w && decide (mK w < 2)) || (decide (mDest w < 0x40) && decide (mK w < 2))

/-- Conversions in the aperture (R112). -/
def mCount (w : Word) (lp : Bool) : Nat := if lp then 2 ^ (mK w - 2) else 2 ^ mK w

/-- Length of the aperture (R112). -/
def mAperture (w : Word) (lp : Bool) : Nat :=
  if lp then max (ns 250 * 2 ^ mK w) (us 1) else ns 250 * 2 ^ mK w

/-- The conversion slot (R106, R109). -/
def slotLen (lp : Bool) : Nat := if lp then us 1 else ns 250

/-! ## Sweep entries (R144, Table 5-3) and PLAY_MOULD (R164) -/

/-- The field of `len` bits from bit `lo` upwards of a sweep entry. -/
def sBits (w : BitVec 128) (lo len : Nat) : Nat := w.toNat / 2 ^ lo % 2 ^ len

def sOp (w : BitVec 128) : Nat := sBits w 124 4
def sAnc (w : BitVec 128) : Bool := decide (sBits w 123 1 = 1)
def sForm (w : BitVec 128) : Nat := sBits w 121 2
def sTrig (w : BitVec 128) : Bool := decide (sBits w 120 1 = 1)
def sValue (w : BitVec 128) : Nat := sBits w 96 24
def sDeckle (w : BitVec 128) : Nat := sBits w 80 16
def sFast (w : BitVec 128) : Bool := decide (sBits w 79 1 = 1)
def sSpan (w : BitVec 128) : Nat := sBits w 76 2
def sRange (w : BitVec 128) : Nat := sBits w 72 3
def sPsel (w : BitVec 128) : Bool := decide (sBits w 71 1 = 1)
def sPnum (w : BitVec 128) : Nat := sBits w 68 2
def sLine (w : BitVec 128) : Nat := sBits w 52 16
def sPhase (w : BitVec 128) : Nat := sBits w 36 16
def sRepeat (w : BitVec 128) : Nat := sBits w 20 16
def sDwell (w : BitVec 128) : Nat := sBits w 4 16

def sMould (w : BitVec 128) : Nat := sValue w / 2 ^ 14
/-- The play mode: 0 divided, 1 per line, 2 per advance. -/
def sPlay (w : BitVec 128) : Nat := sValue w / 2 ^ 12 % 4
def sMouldMode (w : BitVec 128) : Bool := (sValue w).testBit 11
def sPointTrig (w : BitVec 128) : Bool := (sValue w).testBit 10

/-- FORCE_V, FORCE_I and HOLD, which dwell for a number of frames (Table 5-6). -/
def sDwells (w : BitVec 128) : Bool := decide (1 ≤ sOp w ∧ sOp w ≤ 3)
/-- WAIT_ANCHOR with anc 0, which waits for an advance (R157). -/
def sWaits (w : BitVec 128) : Bool := decide (sOp w = 4) && ! sAnc w
def sPlays (w : BitVec 128) : Bool := decide (sOp w = 5)
/-- A control entry (Table 5-4). -/
def sControl (w : BitVec 128) : Bool :=
  decide (sOp w = 0) || decide (sOp w = 7) || decide (sOp w = 8) || (decide (sOp w = 6) && ! sAnc w)

/-- An entry whose fields hold reserved values, or whose target lies outside the rules of R158 and R159, at index `i` of a list
of `len` entries (R163; the mould's descriptor is judged besides). -/
def sReserved (w : BitVec 128) (i len : Nat) : Bool :=
  let op := sOp w
  decide (8 < op) || (decide (1 ≤ op ∧ op ≤ 6) && sAnc w && decide (sForm w = 3)) ||
    (decide (op = 1 ∨ op = 2 ∨ op = 5) && (decide (sSpan w = 3) || decide (sRange w = 7))) ||
    (decide (op = 5) && (decide (sPlay w = 3) || (decide (sPlay w = 1) && ! sAnc w))) ||
    (decide (op = 7) && decide (i ≤ sValue w)) || (decide (op = 8) && (decide (sValue w = i) || decide (len ≤ sValue w)))

/-! ## Rational numbers: a numerator over a positive denominator -/

/-- A rational value: numerator and denominator. -/
structure Ratio where
  num : Int
  den : Nat
  deriving DecidableEq, Repr

def Ratio.mul (a b : Ratio) : Ratio := ⟨a.num * b.num, a.den * b.den⟩
def Ratio.sub (a b : Ratio) : Ratio := ⟨a.num * b.den - b.num * a.den, a.den * b.den⟩
def Ratio.add (a b : Ratio) : Ratio := ⟨a.num * b.den + b.num * a.den, a.den * b.den⟩
/-- The magnitude of `a` is at least that of `b`. -/
def Ratio.absGe (a b : Ratio) : Bool := decide (b.num.natAbs * a.den ≤ a.num.natAbs * b.den)
def Ratio.absGt (a b : Ratio) : Bool := decide (b.num.natAbs * a.den < a.num.natAbs * b.den)
def Ratio.f64 (a : Ratio) : DWord := Machine.f64 a.num a.den

/-- The rational value of a finite binary64; none for an infinity or a NaN. -/
def ratioOfF64 (v : DWord) : Option Ratio :=
  let b := v.toNat
  let e := b / 2 ^ 52 % 2 ^ 11
  let f := b % 2 ^ 52
  let m : Nat := if e = 0 then f else f + 2 ^ 52
  let k := max e 1
  let n : Int := if b / 2 ^ 63 = 1 then -(m : Int) else m
  if e = 0x7FF then none
  else if 1075 ≤ k then some ⟨n * (2 ^ (k - 1075) : Nat), 1⟩ else some ⟨n, 2 ^ (1075 - k)⟩

/-! ## Mean code and raw code (R120, R122) -/

/-- The weight of conversion `i` of `N`: the quadratic B-spline at 3 (i + 0.5) / N, times 8 N² (R122). -/
def sincWeight (N i : Nat) : Nat :=
  let x := 3 * (2 * i + 1)
  let d := 2 * N
  if x < d then x * x else if x < 2 * d then 6 * x * d - 2 * (x * x) - 3 * (d * d) else (3 * d - x) * (3 * d - x)

/-- The weights of the conversions taken, out of an aperture of `N`: truncated after a cut (R122, R130). -/
def weights (N taken : Nat) (sinc : Bool) : List Nat :=
  (List.range taken).map fun i => if sinc ∧ 4 ≤ N then sincWeight N i else 1

/-- The mean code m of R122 over the conversions taken. -/
def meanCode (N : Nat) (codes : List Int) (sinc : Bool) : Ratio :=
  let w := weights N codes.length sinc
  ⟨(List.zipWith (fun (a : Nat) (c : Int) => a * c) w codes).foldl (fun x y => x + y) 0, w.foldl (fun x y => x + y) 0⟩

/-- The raw code floor(m × 2^min(k,6)) as a 24-bit number (R120). -/
def rawCode (m : Ratio) (k : Nat) : Nat := unsigned 24 (m.num * (2 ^ min k 6 : Nat) / m.den)

/-! ## Full scales (Tables 3-1, 3-2, 4-2) -/

/-- V_FS of a span, 60 V on the booster span, in volts. -/
def vFs (span : Nat) (booster : Bool) : Ratio :=
  if booster then ⟨60, 1⟩ else match span with | 0 => ⟨5, 4⟩ | 1 => ⟨5, 1⟩ | _ => ⟨15, 1⟩

/-- I_FS of a range; range 6 through a sense resistor of `mohm` mΩ (R70), in amperes. -/
def iFs (range mohm : Nat) : Ratio :=
  if range = 6 then ⟨100, mohm⟩ else ⟨2 * 10 ^ range, 10 ^ 8⟩

end Sys2Proof.Machine
end

