-- ==== Sys2Proof/Machine/ForceOps.lean ====
section
/-!
DEFINITION. The force path of a channel: commands, changes of mode, range and span, the calender, disabling, attachment and
detachment (R66 to R99, R105, R131).
-/

namespace Sys2Proof.Machine

open Sys2Proof

/-! ## Codes and commands -/

/-- The limit of a 24-bit force code (R66). -/
def clampCode (c : Int) : Int := max (-8388608) (min 8388607 c)

/-- The force command spelled by a CH_FORCE_SET word (R105). -/
def ForceCmd.ofWord (w : Word) : ForceCmd :=
  ⟨bit w 30, bits w 28 2, bits w 24 3, signed 24 (bits w 0 24), false⟩

/-- The CH_FORCE_SET word of a force command (R105). -/
def ForceCmd.word (c : ForceCmd) : Word :=
  BitVec.ofNat 32 (b2n c.mode * 2 ^ 30 + c.span * 2 ^ 28 + c.range * 2 ^ 24 + unsigned 24 c.code)

/-- The nominal output that a code gives in a mode, span and range, in volts or amperes: code × FS / 8,388,608 (R68, R69). -/
def nominalOutput (mode : Bool) (span range mohm : Nat) (code : Int) : Ratio :=
  (if mode then iFs range mohm else vFs span (range = 6)).mul ⟨code, 8388608⟩

/-- Whether a booster port is bound to channel `n` (R101). -/
def State.boosterBound (s : State) (n : Nat) : Bool :=
  ([0, 1] : List Nat).any fun j =>
    s.on f_TILE_BST_BIND_valid (n / 64) j && decide (s.fld f_TILE_BST_BIND_position (n / 64) j = n % 64)

/-- A code of one current range as a code of another, the current in amperes unchanged (R88, Table 3-2); rounded to the nearest code, halves
upwards (DESIGN CHOICE, notes/assumptions/91.md). -/
def rescaleCode (c : Int) (old new : Nat) : Int :=
  if old ≤ new then clampCode (roundDiv c (10 ^ (new - old))) else clampCode (c * (10 ^ (old - new) : Nat))

/-- The value of ±I_FS of the smaller of two ranges, as a code of range `old` (R88), rounded down (DESIGN CHOICE, notes/assumptions/91.md). -/
def rangeBound (old new : Nat) : Nat := if new < old then min 8388607 (8388608 / 10 ^ (old - new)) else 8388608

/-- The forcing state of a mode. -/
def forcing (mode : Bool) : ChState := if mode then .forcingI else .forcingV

/-- The force path at instant `now`: 2 µs before a range switch ends, its loop is transferred to the new range (Table 3-7). -/
def Force.view (x : Force) (now : Nat) : Force :=
  match x.steps with
  | .switch _ r :: _ =>
    if x.due ≠ 0 ∧ x.due ≤ now + us 2 ∧ x.range ≠ r then
      let f := fun c => if x.mode then rescaleCode c x.range r else c
      { x with range := r, present := f x.present, target := f x.target,
               dac := if x.mode then clampCode (f x.present + x.corr) else x.dac }
    else x
  | _ => x

/-- The ramps to zero of R79 and R90. -/
def zeroSteps (mode : Bool) : List FStep := if mode then [.ramp 0, .mode false, .ramp 0] else [.ramp 0]

/-- The mode in force once the stages under way have run. -/
def endMode (mode : Bool) : List FStep → Bool
  | [] => mode
  | .mode m :: l => endMode m l
  | _ :: l => endMode mode l

/-- The last ramp of the stages with another code (R82). -/
def retarget (code : Int) : List FStep → List FStep
  | [] => []
  | [.ramp _] => [.ramp code]
  | [.aim _] => [.aim code]
  | f :: l => f :: retarget code l

/-! ## Changes (R83, R87, R88, R90) -/

/-- A span change, or a change into or out of range 6 (R90). -/
def Force.spanChange (x : Force) (c : ForceCmd) : Force :=
  { x with st := .spanChange, fast := c.fast, goal := some c.mode, due := 0,
           steps := zeroSteps x.mode ++ [.hold c.span c.range] ++
             (if c.mode then [.mode true, .ramp c.code] else [.ramp c.code]) }

/-- A range change that ends in `rest` (R87, R88). -/
def Force.rangeChange (x : Force) (r : Nat) (goal : Option Bool) (rest : List FStep) (now : Nat) : Force :=
  let bound := rangeBound x.range r
  let first : List FStep :=
    if x.mode ∧ bound < x.present.natAbs then [.ramp (if x.present < 0 then -(bound : Int) else bound)] else []
  { x with before := x.st, st := .ranging, goal, steps := first ++ [.switch x.range r] ++ rest, target := x.present,
           due := if first = [] then now + us 8 else 0 }

/-- Carry out a force command in ZEROED, FORCING_V, FORCING_I, or with the same span and range in COUCHING
(Table 3-5, R82). -/
def Force.apply (x0 : Force) (c : ForceCmd) (now : Nat) : Force :=
  let x := x0.view now
  if c.span ≠ x.span ∨ (c.range ≠ x.range ∧ (c.range = 6 ∨ x.range = 6)) then x.spanChange c
  else if c.range ≠ x.range then
    { x.rangeChange c.range (some c.mode)
        (if c.mode ≠ x.mode then [.mode c.mode, .ramp c.code] else if x.mode then [.ramp c.code] else [.aim c.code]) now
      with fast := c.fast }
  else
    let st := if x.st = .couching then .couching else forcing c.mode
    let before := if x.st = .couching then forcing c.mode else x.before
    if c.mode ≠ endMode x.mode x.steps then
      if c.mode = x.mode then { x with st, before, fast := c.fast, steps := [], target := c.code }
      else { x with st, before, fast := c.fast, steps := [.mode c.mode, .ramp c.code] }
    else if x.steps = [] then { x with st, before, fast := c.fast, target := c.code }
    else { x with st, before, fast := c.fast, steps := retarget c.code x.steps,
                  target := match x.steps with | [.ramp _] => c.code | _ => x.target }

/-- Whether autorange is in effect on channel `n` (R131). -/
def State.autorange (s : State) (n : Nat) : Bool :=
  let x := s.forceOf n
  s.on f_CH_MEAS_CTL_autorange n && ! s.boosterBound n &&
    (decide (x.st = .forcingV) || (decide (x.st = .ranging) && decide (x.before = .forcingV)))

/-- The command as it is carried out: while autorange is in effect a voltage command keeps the range in force (R131). -/
def State.rangedCmd (s : State) (n : Nat) (c : ForceCmd) : ForceCmd :=
  if s.autorange n ∧ c.mode = false then { c with range := ((s.forceOf n).view s.now).range } else c

/-- Carry out a force command on channel `n`; CH_FORCE_SET shows the range that autorange gives it (R131). -/
def State.applyForce (s : State) (n : Nat) (c : ForceCmd) : State :=
  let d := s.rangedCmd n c
  let s := if d = c then s else s.wr .CH_FORCE_SET d.word n
  s.setForce n ((s.forceOf n).apply d s.now)

/-! ## Acceptance (R71, R81, R82, R105) -/

/-- Whether a force command is refused (R81); autorange in effect ignores its range field (R131). -/
def State.forceRefused (s : State) (n : Nat) (c : ForceCmd) (host : Bool) : Bool :=
  let x := s.forceOf n
  let e := (s.engOf n).state
  decide (x.st = .detached) || decide (x.st = .safe) || ! s.on f_CH_CTL_enable n || x.disabling ||
    (host && (decide (e = .running) || decide (e = .waiting) || decide (e = .starved))) ||
    decide (c.span = 3) || decide ((s.rangedCmd n c).range = 7) ||
    (decide ((s.rangedCmd n c).range = 6) && (! s.boosterBound n || decide (c.span ≠ 2)))

/-- Accept a force command: hold it pending or carry it out (R82, R105). -/
def State.acceptForce (s : State) (n : Nat) (c0 : ForceCmd) : State :=
  let c := s.rangedCmd n c0
  let x := (s.forceOf n).view s.now
  let s := s.wr .CH_FORCE_SET c.word n
  let wait := decide (x.st = .ranging) || decide (x.st = .spanChange) ||
    (decide (x.st = .couching) && (decide (c.span ≠ x.span) || decide (c.range ≠ x.range)))
  if wait then s.setForce n { s.forceOf n with pending := some c } else s.applyForce n c

/-- Refuse a force command (R81): sticky bit and class-A fault; `m` is the host that wrote CH_FORCE_SET. -/
def State.refuseForce (s : State) (n : Nat) (m : Option Nat) : State :=
  let s := s.stick f_CH_FORCE_EVENTS_refused n
  match m with
  | some m => s.writeFault 0x105 (.channel n) m (regAddr .CH_FORCE_SET n 0)
  | none => s.fault 0x105 1 (.channel n) (0x1100 + n / 64)

/-! ## The end of a change -/

/-- The channel enters ZEROED at 0 V, its deckle that of CH_DECKLE_DEFAULT (Table 3-4); a detach request is then carried out (R79, R80). -/
def State.enterZeroed (s : State) (n : Nat) : State :=
  let x := s.forceOf n
  (s.wr .CH_DECKLE (s.rd .CH_DECKLE_DEFAULT n) n).setForce n
    { x with st := if x.detach then .detached else .zeroed, closed := x.closed && ! x.detach, detach := false,
             disabling := false, goal := none, steps := [], fast := false, toTop := none, target := 0 }

/-- A disable has come down to 0 V at DAC frame boundary `b`: the channel enters ZEROED, in another range by way of the change to range 5
that is part of the disable (R79, Tables 3-4 and 3-5; DEDUCED, notes/assumptions/57.md). -/
def State.zeroRange (s : State) (n b : Nat) : State :=
  let x := s.forceOf n
  if x.range = 5 then s.enterZeroed n
  else if x.range = 6 then
    s.setForce n { x with st := .spanChange, goal := none, steps := [.hold x.span 5], due := b + 79 * ns 256, rangingEnd := b + us 20 }
  else s.setForce n { x.rangeChange 5 none [] b with before := .zeroed }

/-- The channel forces voltage in another range than the one that a cleared autorange is to end in (R134). -/
def Force.belowTop (x : Force) : Option Nat := x.toTop.filter fun c => c != x.range

/-- A change ends in a forcing state: a disable that waited ramps to zero, a cleared autorange goes to its ceiling, else a pending command
is executed (R79, R82, R134). -/
def State.afterChange (s : State) (n : Nat) (mode : Bool) : State :=
  let x := { s.forceOf n with st := forcing mode, goal := none }
  if x.disabling then s.setForce n { x with steps := zeroSteps x.mode, toTop := none, pending := none }
  else
    match x.belowTop with
    | some c => s.setForce n (x.rangeChange c (some x.mode) (if x.steps = [] then [.aim x.target] else x.steps) s.now)
    | none =>
      match x.pending with
      | some c => (s.setForce n { x with toTop := none, pending := none }).applyForce n c
      | none => s.setForce n { x with toTop := none }

/-- Run the stages of a change as far as they have come by DAC frame boundary `b`; `meas` is the value measured in the new
mode's quantity, where a mode change may take place (R83). -/
def State.runSteps (n b : Nat) (meas : Option Int) : Nat → State → State
  | 0, s => s
  | k + 1, s =>
    let x := s.forceOf n
    match x.steps with
    | .ramp c :: rest =>
      if x.present = c then State.runSteps n b meas k (s.setForce n { x with steps := rest, target := c })
      else s.setForce n { x with target := c }
    | .aim c :: rest => s.setForce n { x with steps := rest, target := c }
    | .mode m :: rest =>
      match meas with
      | none => s
      | some v =>
        State.runSteps n b none k (s.setForce n { x with mode := m, present := clampCode v, target := clampCode v, steps := rest })
    | .switch _ _ :: _ => if x.due = 0 then s.setForce n { x with due := b + us 8 } else s
    | .hold _ _ :: _ =>
      if x.due = 0 then s.setForce n { x with due := b + 79 * ns 256, rangingEnd := b + us 20 } else s
    | [] =>
      if x.st = .spanChange then
        match x.goal with
        | some m => (s.stick f_CH_FORCE_EVENTS_span_done n).afterChange n m
        | none => (s.stick f_CH_FORCE_EVENTS_span_done n).enterZeroed n
      else if x.disabling ∧ (x.st = .forcingV ∨ x.st = .forcingI) then s.zeroRange n b
      else s

/-- Whether the ramp under way always passes through the calender (R86). -/
def Force.forced (x : Force) : Bool := match x.steps with | .ramp _ :: _ => true | _ => false

/-- The calender at a DAC frame boundary, `k` frames after the last one stepped (R85, R86, R156): the
counter restarts at each step, so `left` frames after the first step of the `k` it has stepped `left / rate` times more. -/
def Force.calender (x : Force) (enable : Bool) (step rate k : Nat) : Force :=
  let toward := fun (st : Nat) =>
    let d := x.target - x.present
    if d.natAbs ≤ st then x.target else if 0 < d then x.present + st else x.present - st
  if x.forced ∧ (! enable ∨ x.fast) ∨ x.fast then { x with rate := x.rate + k, present := toward (1048576 * max 1 k) }
  else if ! enable then { x with rate := x.rate + k, present := x.target }
  else if rate ≤ x.rate + k then
    let left := x.rate + k - max rate (x.rate + 1)
    { x with rate := left % rate, present := toward (step * (1 + left / rate)) }
  else { x with rate := x.rate + k }

/-- The force-path correction moves by at most one code per DAC frame (R85, R324). -/
def Force.correct (x : Force) (k : Nat) : Force :=
  let d := x.corrTo - x.corr
  { x with corr := if d.natAbs ≤ k then x.corrTo else if 0 < d then x.corr + k else x.corr - k }

/-- The governor steps that TILE[t] holds (R390). -/
def State.govSteps (s : State) (t : Nat) : Nat := min 7 (s.pwr.devSteps + Table.get 0 t s.pwr.tileSteps)

/-- A DAC frame boundary of channel `n` at instant `b`, `k` frames after the last one (R73, R83, R85, R93). -/
def State.dacBoundary (s : State) (n b k : Nat) (meas : Int) : State :=
  let x := (s.forceOf n).view b
  let x := { x with deckle := s.rd .CH_DECKLE n, filter := s.fld f_CH_CTL_filter n, gov := s.govSteps (n / 64), frameAt := b }
  let was := x.mode
  let s := State.runSteps n b (some meas) 8 (s.setForce n x)
  let x := s.forceOf n
  let x := if x.mode = was then
      x.calender (s.on f_CH_CALENDER_enable n) (s.fld f_CH_CALENDER_step_m1 n + 1) (s.fld f_CH_CALENDER_RATE_rate_m1 n + 1) k
    else { x with rate := x.rate + k }
  let s := State.runSteps n b none 8 (s.setForce n x)
  let x := (s.forceOf n).correct k
  s.setForce n { x with dac := clampCode (x.present + x.corr), fast := x.fast && decide (x.present ≠ x.target ∨ x.steps ≠ []) }

/-! ## Disabling, detaching, attaching (R77, R79, R80, R20) -/

/-- The force path after enable was cleared (R79). -/
def State.disableForce (s : State) (n : Nat) : State :=
  let x := s.forceOf n
  match x.st with
  | .forcingV => s.setForce n { x with disabling := true, pending := none, goal := none, fast := false, steps := zeroSteps x.mode }
  | .forcingI => s.setForce n { x with disabling := true, pending := none, goal := none, fast := false, steps := zeroSteps x.mode }
  | .ranging => s.setForce n { x with disabling := decide (x.goal ≠ none), pending := none }
  | .spanChange => s.setForce n { x with disabling := true, pending := none }
  | .couching => s.setForce n { x with disabling := decide (x.before ≠ .zeroed), pending := none }
  | _ => s

/-- The switch opens and the channel is DETACHED with code 0 and SPAN_LOW (R20). -/
def State.dropForce (s : State) (n : Nat) : State :=
  let x := s.forceOf n
  let s := (if x.short then s.clearCondition 0x100 (.channel n) none else s).recovered n
  s.setForce n { Force.reset n with slice := x.slice, attachMissed := x.attachMissed, frameAt := x.frameAt, rate := x.rate,
                                    corr := x.corrTo, corrTo := x.corrTo, rangingEnd := x.rangingEnd, clampEnd := x.clampEnd,
                                    couchEnd := x.couchEnd }

/-- Attachment of channel `n` (R77, R188, R291). -/
def State.attach (s : State) (n : Nat) : State :=
  let x := s.forceOf n
  let d := s.rd .CH_DECKLE_DEFAULT n
  let held := s.flt.tileSafe.testBit (n / 64)
  let opens := held && s.safeOpens n 0 0
  let s := (s.wr .CH_DECKLE d n).setFld f_CH_CTL_attach_armed 0 n
  let s := s.setForce n { x with st := .zeroed, mode := false, range := 5, closed := ! opens, present := 0, target := 0,
                                 dac := clampCode x.corrTo, corr := x.corrTo, deckle := d, steps := [], goal := none,
                                 pending := none, detach := false, disabling := false, openWanted := false, attachMissed := false }
  let s := s.setRes n { s.resOf n with lastEntry := StuffEntry.zero n }
  if held then
    let s := s.enterSafe n opens
    s.setForce n { s.forceOf n with openWanted := false }
  else s

end Sys2Proof.Machine
end

