-- ==== Sys2Proof/Machine/MeasOps.lean ====
section
/-!
DEFINITION. The measurement sequencer of a channel: entries, results, triggers and restarts, cuts, autorange and the deckle
monitor (R106 to R137, R185, R186, R310, R323).
-/

namespace Sys2Proof.Machine

open Sys2Proof

/-! ## Limits and corrections -/

/-- The sense resistor in mΩ of the booster port bound to channel `n` (R70). -/
def State.rsns (s : State) (n : Nat) : Nat :=
  let t := n / 64
  if s.on f_TILE_BST_BIND_valid t 0 ∧ s.fld f_TILE_BST_BIND_position t 0 = n % 64 then s.fld f_TILE_BST_RSNS_mohm t 0
  else s.fld f_TILE_BST_RSNS_mohm t 1

/-- gain_cal and offset_cal of R118 (notes/assumptions/61.md). -/
def gainCal (i corr source setting gain : Nat) : Ratio :=
  ⟨Config.gainNum i corr source setting gain, Config.gainDen i corr source setting gain + 1⟩
def offsetCal (i corr source setting gain : Nat) : Ratio :=
  ⟨Config.offsetNum i corr source setting gain, Config.offsetDen i corr source setting gain + 1⟩

/-- The smaller of two positive ratios. -/
def Ratio.least (a b : Ratio) : Ratio := if a.absGe b then b else a

/-- CH_AUTORANGE.min and max in force, the floor and the ceiling: a change of them waits for the next counted result (R133). -/
def State.floorOf (s : State) (n : Nat) : Nat := ((s.seqOf n).arOld.map fun p => p.1).getD (s.fld f_CH_AUTORANGE_min n)
def State.topOf (s : State) (n : Nat) : Nat := ((s.seqOf n).arOld.map fun p => p.2).getD (s.fld f_CH_AUTORANGE_max n)

/-- CH_AUTORANGE held `old` (R133). -/
def State.autorangeHeld (s : State) (n : Nat) (old : Word) : State :=
  let q := s.seqOf n
  if s.autorange n ∧ q.arOld = none then s.setSeq n { q with arOld := some (bits old 0 3, bits old 4 3) } else s

/-- The deckle limit in force on the side of a sign, in amperes while forcing voltage and in volts while forcing current, less
the governor's reduction (R89, R92, R96, R131, R134). -/
def State.deckleLimit (s : State) (n : Nat) (neg : Bool) : Ratio :=
  let x := (s.forceOf n).view s.now
  let code := if neg then bits x.deckle 0 16 else bits x.deckle 16 16
  let fs :=
    if x.mode then vFs x.span (x.range = 6)
    else if s.autorange n then iFs (s.topOf n) 1
    else
      match x.toTop with
      | some c => iFs c 1
      | none =>
        let cur := iFs x.range (s.rsns n)
        match (s.forceOf n).steps with
        | .switch o r :: _ => if x.due ≠ 0 then (iFs o (s.rsns n)).least (iFs r (s.rsns n)) else cur
        | .hold _ r :: _ => if x.range ≤ 5 ∧ r ≤ 5 then cur.least (iFs r 1) else cur
        | _ => cur
  ⟨fs.num * ((code + 1) * (8 - x.gov) : Nat), fs.den * (65536 * 8)⟩

/-! ## Entries (R111, R112, R115, R116) -/

/-- The next conversion slot boundary of the sampling grid at or after `u` (R111). The slots of low-power mode lie at multiples of 1 µs from
the origin of the grid (DESIGN CHOICE, notes/assumptions/95.md). -/
def Seqr.nextSlot (q : Seqr) (u : Nat) : Nat := u + (((q.grid : Int) - u) % (slotLen q.lp : Int)).toNat

/-- An entry is in progress, or due to begin. -/
def Seqr.busy (q : Seqr) : Bool := q.running && decide (q.apEnd ≠ 0)

/-- Begin entry `e` of the profile in execution at instant `u`, on the slice that then serves the channel (R332); entry 0 is a sequence
boundary (R112, R323). -/
def State.beginEntry (s : State) (n e u : Nat) : State :=
  let q := s.seqOf n
  let w := s.rd .CH_MEAS_SEQ n (q.profile * 16 + e)
  let src := (mSource w, mGain w)
  let ap := u + (if q.prev = some src then 0 else slotLen q.lp)
  let fresh := decide (e = 0) && q.corrNext.isSome
  s.setSeq n { q with entry := e, word := w, start := u, apStart := ap, apEnd := ap + mAperture w q.lp, prev := some src,
                      prev0 := q.prev, cap := none, onSlice := (s.forceOf n).slice, corrSwap := none,
                      corr := if fresh then q.corrNext.getD 0 else q.corrSwap.getD q.corr,
                      corrNext := if fresh then none else q.corrNext, stale := q.stale && ! fresh,
                      staleEnd := if fresh then u else q.staleEnd }

/-- Entry 0 begins at instant `u`, in the profile then chosen. -/
def State.beginZero (s : State) (n u : Nat) : State :=
  (s.setSeq n { s.seqOf n with startAt := none, profile := s.fld f_CH_MEAS_CTL_profile n }).beginEntry n 0 u

/-- Entry 0 begins at the first slot of the grid at or after `u` (R110, R111, R130); its word is read when it begins (R116). -/
def State.startAtSlot (s : State) (n u : Nat) : State :=
  let q := s.seqOf n
  let v := q.nextSlot u
  if v ≤ s.now then s.beginZero n v else s.setSeq n { q with apEnd := 0, startAt := some v }

/-- A low-power switch begins: no conversions for 20 µs (R110). -/
def Seqr.switching (q : Seqr) (u : Nat) : Seqr := { q with apEnd := 0, startAt := none, lpUntil := some (u + us 20) }

/-- The entry length of a profile minus 1 (CH_MEAS_LEN). -/
def State.lenM1 (s : State) (n p : Nat) : Nat := bits (s.rd .CH_MEAS_LEN n) (4 * p) 4

/-- Whether the slice group that serves channel `n` is on (R111). -/
def State.chanPowered (s : State) (n : Nat) : Bool := s.domainOn (sliceDomain (s.sliceIdx n))

/-- The sequencer goes on at the end of the entry in progress: a low-power switch (R110), a profile change (R115), the wrap or
the next entry (R111, R116). -/
def State.nextEntry (s : State) (n : Nat) : State :=
  let q := s.seqOf n
  let u := q.apEnd
  let want := s.fld f_CH_MEAS_CTL_profile n
  if s.on f_CH_MEAS_CTL_low_power n ≠ q.lp then s.setSeq n (q.switching u)
  else if want ≠ q.profile then (s.setSeq n { q with profile := want }).beginEntry n 0 u
  else s.beginEntry n (if s.lenM1 n q.profile ≤ q.entry then 0 else q.entry + 1) u

/-- The sequencer starts at entry 0 on the existing grid (R111); a low-power switch that is due comes first (R110). -/
def State.startSeq (s : State) (n : Nat) : State :=
  let q := { s.seqOf n with running := true, prev := none, profile := s.fld f_CH_MEAS_CTL_profile n, anchored := false, cut := false }
  if q.lpUntil.isSome then s.setSeq n { q with apEnd := 0 } else (s.setSeq n q).startAtSlot n s.now

/-- The sequencer stops: run cleared, or the domain off; a pending restart is dropped (R111, R130), and a change of low_power that waited for
the end of the entry is made (R110). -/
def State.stopSeq (s : State) (n : Nat) : State :=
  let q := { s.seqOf n with running := false, apEnd := 0, startAt := none, pend := none, anchored := false, cut := false }
  s.setSeq n (if q.lpUntil = none ∧ s.on f_CH_MEAS_CTL_low_power n ≠ q.lp then q.switching s.now else q)

/-! ## The stuff FIFO (R185, R186) -/

/-- The slice that executes the entry in progress (R332). -/
def State.entrySlice (s : State) (n : Nat) : Nat := n / 64 * 68 + (s.seqOf n).onSlice

/-- A result enters the stuff FIFO of the slice that measured it, or is dropped for want of a free place (R137, R186). -/
def State.stuffWrite (s : State) (n felt : Nat) (it : Item) : State :=
  let i := s.entrySlice n
  let x := s.sliceOf i
  let held := x.fifo.length + (if x.readCycle = some s.cycle then 1 else 0)
  let fill := decide (s.que.overStuff = some n)
  let s := if fill then { s with que := { s.que with overStuff := none } } else s
  if held < 16 then s.setSlice i { x with fifo := x.fifo ++ [⟨it, felt, s.cycle⟩] }
  else if fill then s.fault 0x400 2 (.channel n) (0x1108 + n / 64)
  else (s.tally f_CH_MEAS_DROP_COUNT_count 1 n).stick f_CH_MEAS_EVENTS_drop n

/-! ## Autorange (R131 to R134) and the deckle monitor (R135) -/

/-- One range change of a channel that forces voltage, its code unchanged (R87, R132). -/
def State.stepRange (s : State) (n r : Nat) : State :=
  let x := s.forceOf n
  s.setForce n (x.rangeChange r (some x.mode) (if x.steps = [] then [.aim x.target] else x.steps) s.now)

/-- A counted I_FORCE result takes over a change of floor and ceiling, moves the counts of autorange and may step the range (Table 4-7, R133). -/
def State.autorangeResult (s : State) (n : Nat) (high low : Bool) : State :=
  let s := s.setSeq n { s.seqOf n with arOld := none }
  let x := s.forceOf n
  let q := s.seqOf n
  let lo := s.floorOf n
  let hi := s.topOf n
  let up := fun s : State => ((s.stick f_CH_MEAS_EVENTS_range_up n).stepRange n (x.range + 1)).assertSrc (srcTile (n / 64) 7)
  let down := fun s : State => ((s.stick f_CH_MEAS_EVENTS_range_down n).stepRange n (x.range - 1)).assertSrc (srcTile (n / 64) 7)
  let zero := s.setSeq n { q with up := 0, down := 0 }
  if x.st ≠ .forcingV then zero
  else if x.range < lo then up zero
  else if hi < x.range then down zero
  else if high then
    if 2 ≤ q.up + 1 ∧ x.range ≠ hi then up zero else s.setSeq n { q with up := q.up + 1, down := 0 }
  else if low then
    if s.fld f_CH_AUTORANGE_down_n n ≤ q.down + 1 ∧ x.range ≠ lo then down zero
    else s.setSeq n { q with up := 0, down := q.down + 1 }
  else zero

/-- The deckle monitor's ratio for a value (R135): the peak in units of 1/32,768, and near_deckle. An infinity, and the NaN of a STALE result
with none before it, count as the largest ratio (DESIGN CHOICE, notes/assumptions/94.md). -/
def State.monitor (s : State) (n : Nat) (value : DWord) : State :=
  let lim := s.deckleLimit n (decide (value.toNat / 2 ^ 63 = 1))
  let warn := s.fld f_CH_MEAS_MON_warn n
  let q : Nat × Bool :=
    match ratioOfF64 value with
    | none => (0xFFFF, true)
    | some v => (min 0xFFFF (v.num.natAbs * lim.den * 0x8000 / (v.den * lim.num.natAbs)),
                 (⟨v.num * 256, v.den⟩ : Ratio).absGe ⟨lim.num * warn, lim.den⟩)
  let s := if s.fld f_CH_MEAS_MON_PEAK_ratio n < q.1 then s.setFld f_CH_MEAS_MON_PEAK_ratio q.1 n else s
  s.stickIf (q.2 && decide (warn ≠ 0)) f_CH_MEAS_EVENTS_near_deckle n

/-! ## Results (R113, R117 to R124, R136) -/

/-- The value of a mean code (R118, R119), corrected by the calibration engine's corrections in force. -/
def State.measValue (s : State) (n : Nat) (m : Ratio) : Ratio :=
  let q := s.seqOf n
  let x := (s.forceOf n).view s.now
  let src := mSource q.word
  if src = 4 then (⟨27315, 100⟩ : Ratio).add ⟨m.num, m.den * 256⟩
  else
    let boost := decide (x.range = 6)
    let fs : Ratio :=
      match src with
      | 0 => iFs x.range (s.rsns n)
      | 1 => vFs x.span boost
      | 2 => vFs x.span boost
      | 3 => ⟨15, 1⟩
      | _ => vFs x.span false
    let gain := if src < 4 then mGain q.word else 0
    let setting := if src = 0 then x.range else x.span
    let i := s.entrySlice n
    (((gainCal i q.corr src setting gain).mul (m.sub (offsetCal i q.corr src setting gain))).mul ⟨5, 4⟩).mul
      ⟨fs.num, fs.den * (131072 * 2 ^ gain)⟩

/-- The flags of a result (R93, R113, R124, R127, R128, R310, R323). -/
def State.resultFlags (s : State) (n : Nat) (cut hold : Bool) : Nat :=
  let q := s.seqOf n
  let x := s.forceOf n
  let f := fun (b : Bool) (v : Nat) => if b then v else 0
  f q.anchored flagAnchored + f (cut || q.cut) flagCut + f (q.stale || decide (q.apStart < q.staleEnd)) flagStale +
    f (decide (x.st = .ranging) || decide (q.apStart < x.rangingEnd)) flagRanging +
    f (x.clamped || decide (q.apStart < x.clampEnd)) flagClamped +
    f (decide (x.st = .couching) || decide (q.apStart < x.couchEnd)) flagCouching + f hold flagHoldover +
    f (decide (x.st ≠ .detached) && (s.covering n).any fun r => r.flags.injected) flagInjected

/-- What a result is made of: its value and raw word (R118 to R121; held under STALE, R323). -/
def State.resultWords (s : State) (n : Nat) (codes : List Int) (stale : Bool) : DWord × Word :=
  let q := s.seqOf n
  let x := (s.forceOf n).view s.now
  let w := q.word
  let m := meanCode (mCount w q.lp) codes (mSinc w)
  let clips := codes.any fun c => decide (c = -131072) || decide (c = 131071)
  let head := q.profile * 2 ^ 30 + b2n x.mode * 2 ^ 29 + x.span * 2 ^ 27 + x.range * 2 ^ 24
  if stale then
    match q.good.find? fun e => decide (e.1 = q.profile * 16 + q.entry) with
    | some e => e.2
    | none => (0x7FF8000000000000, BitVec.ofNat 32 head)
  else (if clips then f64Inf (decide (m.num < 0)) else (s.measValue n m).f64, BitVec.ofNat 32 (head + rawCode m (mK w)))

/-- The codes of the ADC (R118). -/
def adcCode (c : Int) : Int := max (-131072) (min 131071 c)

/-- A result is formed from the conversions taken, recorded, and sent to its destination; whether its entry was cut short by
R130. A conversion beyond the ADC's codes reads as the code at that end (R118). -/
def State.emit (s : State) (n : Nat) (l : List Int) (cut : Bool) : State :=
  let codes := l.map adcCode
  let q := s.seqOf n
  let w := q.word
  let cap := q.cap.getD ((s.engOf n).pos, s.holdover, s.rasterTime q.apStart)
  let flags := s.resultFlags n cut cap.2.1
  let stale := decide (flags / flagStale % 2 = 1)
  let clips := codes.any fun c => decide (c = -131072) || decide (c = 131071)
  let v := s.resultWords n codes stale
  let it := mkItem n q.entry (1 + mSource w) flags cap.2.2 v.1 v.2 cap.1 (q.apStart / 256)
  let info := BitVec.ofNat 32 (q.entry * 2 ^ 28 + q.profile * 2 ^ 26 + mDest w * 2 ^ 19 + mSource w * 2 ^ 16 + flags)
  let good := if stale then q.good else Table.insert (q.profile * 16 + q.entry) v q.good
  let x := s.forceOf n
  let s := s.setSeq n { q with last := v.1, info, good, anchored := false, cut := false }
  let s := s.stickIf clips f_CH_MEAS_EVENTS_overrange n
  let s := if mDest w ≤ 0x40 ∧ mSource w = b2n x.mode then s.monitor n v.1 else s
  let skip := decide (flags &&& (flagClamped + flagRanging + flagStale + flagCut) ≠ 0)
  let fs := iFs x.range 1
  let m := (ratioOfF64 v.1).getD ⟨0, 1⟩
  let s :=
    if mSource w = 0 ∧ s.autorange n then
      if skip then s.setSeq n { s.seqOf n with up := 0, down := 0 }
      else s.autorangeResult n (clips || (⟨m.num * 100, m.den⟩ : Ratio).absGt ⟨fs.num * 105, fs.den⟩)
        (! clips && ! (⟨m.num * 100, m.den⟩ : Ratio).absGe ⟨fs.num * 8, fs.den⟩)
    else s
  let s := if mMark w ∧ ! cut then s.assertSrc (srcSeqEnd n) else s
  if mDest w < 0x40 then s.stuffWrite n (mDest w) it else s

/-- How many conversions the entry in progress has taken (R130). -/
def State.takenCount (s : State) (n : Nat) : Nat :=
  let q := s.seqOf n
  if q.busy then min (mCount q.word q.lp) ((s.now - q.apStart) / slotLen q.lp) else 0

/-- Free conversion codes, for a register write that ends an entry (notes/assumptions/62.md). -/
def freeCodes : Nat → State → List Int × State
  | 0, s => ([], s)
  | k + 1, s =>
    let a := s.freeInt
    let r := freeCodes k a.2
    ((a.1 % 262144 - 131072) :: r.1, r.2)

/-- The entry in progress ends at once with the conversions taken so far (R130): those given, and free ones where fewer are given. -/
def State.cutShort (s : State) (n : Nat) (codes : List Int) : State :=
  if ! (s.seqOf n).busy then s
  else
    let k := s.takenCount n
    let rest := freeCodes (k - codes.length) s
    let s := if k = 0 then s else rest.2.emit n (codes.take k ++ rest.1) true
    s.setSeq n { s.seqOf n with apEnd := 0 }

/-- What clearing enable does to the sequencer: the cut of R130, then a low-power switch that waited for it (R110), or entry 0 on the existing
grid. A restart that is pending under FINISH waits until that entry has completed. -/
def State.enableCleared (s : State) (n : Nat) (codes : List Int) : State :=
  if ! (s.seqOf n).running then s
  else
    let s := s.cutShort n codes
    let q := { s.seqOf n with profile := s.fld f_CH_MEAS_CTL_profile n, anchored := false, cut := false }
    if q.lpUntil.isSome then s.setSeq n q
    else if s.on f_CH_MEAS_CTL_low_power n ≠ q.lp then s.setSeq n (q.switching s.now)
    else
      let pend := q.pend.map fun p => (if p.2 then p.1 else max p.1 (q.nextSlot s.now + 1), p.2)
      (s.setSeq n { q with pend }).startAtSlot n s.now

/-! ## Triggers and restarts (R125 to R129, R187) -/

/-- A trigger at its trigger instant `u` (Table 4-5, Table 4-6). The policy and the delay are those of that instant (DESIGN CHOICE,
notes/assumptions/93.md). The stamping stage reads once at each trigger instant under PACED, whatever becomes of the trigger (R187). -/
def State.judgeTrigger (s : State) (n u : Nat) : State :=
  let r := s.resOf n
  let s := if s.on f_CH_RES_CTL_pace n ∧ ! r.paced.contains u then s.setRes n { r with paced := r.paced ++ [u] } else s
  let q := s.seqOf n
  let policy := s.fld f_CH_MEAS_CTL_policy n
  if ! q.running ∨ ! s.chanPowered n ∨ 2 ≤ policy then
    (s.tally f_CH_MEAS_TRIG_COUNT_ignored 1 n).stick f_CH_MEAS_EVENTS_ignored n
  else if q.pend.isSome ∨ q.trigAt = some (u / 256) then (s.tally f_CH_MEAS_TRIG_COUNT_merged 1 n).stick f_CH_MEAS_EVENTS_merged n
  else
    let r := u + s.fld f_CH_MEAS_DELAY_ticks n * 16
    s.setSeq n { q with pend := some (max r (q.lpUntil.getD 0), decide (policy = 1)), trigAt := some (u / 256) }

/-- A trigger is delivered whose trigger instant is `u`, now or to come (R125). -/
def State.deliverTrigger (s : State) (n u : Nat) : State :=
  if u ≤ s.now then s.judgeTrigger n u
  else
    let q := s.seqOf n
    s.setSeq n { q with trigs := q.trigs ++ [u] }

/-- Restart at instant `u`: the grid is moved and entry 0 begins, ANCHORED; `cut` marks an entry abandoned, which the first result after the
restart shows (R127, R128). -/
def State.restartAt (s : State) (n u : Nat) (cut : Bool) : State :=
  let q := s.seqOf n
  let prev := if q.apEnd ≠ 0 ∧ q.start = u then q.prev0 else q.prev
  (s.setSeq n { q with grid := u, startAt := none, profile := s.fld f_CH_MEAS_CTL_profile n, pend := none, anchored := true,
                       cut := q.cut || cut, prev }).beginEntry n 0 u

/-- The restart instant (R126): the pending instant r under CUT or where no entry is in progress; under FINISH the start of an entry that has
just begun. None while the entry in progress must complete. -/
def State.restartInstant (s : State) (n : Nat) : Option Nat :=
  let q := s.seqOf n
  match q.pend with
  | none => none
  | some (r, cut) =>
    if ! q.running ∨ q.lpUntil.isSome ∨ s.now < r then none
    else if q.apEnd = 0 then some r
    else if cut then some (max r q.start)
    else if r ≤ q.start ∧ s.now / 256 ≤ q.start / 256 then some q.start
    else none

/-- The restart of R127, with the counts of an abandoned entry (R128). -/
def State.doRestart (s : State) (n u : Nat) : State :=
  let q := s.seqOf n
  let counted := q.busy && decide (q.start < u) && decide (mDest q.word ≤ 0x40)
  let s := if counted then (s.tally f_CH_MEAS_CUT_COUNT_count 1 n).stick f_CH_MEAS_EVENTS_cut n else s
  s.restartAt n u counted

end Sys2Proof.Machine
end

