-- ==== Sys2Proof/Machine/MemOps.lean ====
section
/-!
DEFINITION. The HBM controller: address mapping, regions and copies, ports and scheduling, row disturbance, self-refresh, retention,
parity, repair, training and data rate (R236 to R257, R398).
-/

namespace Sys2Proof.Machine

open Sys2Proof

/-! ## Address mapping (Table 8-1) -/

def rowOf (a : Nat) : Nat := a / 2 ^ 15 % 16384

/-- HBM's size (Table 1-5). -/
def hbmSize : Nat := 2 ^ 34

/-! ## Regions (R237, R238) -/

def mib (n : Nat) : Nat := n * 2 ^ 20

def State.regionBase (s : State) (r : Nat) : Nat := mib (s.fld f_MEMC_REGION_BASE_mib r)
def State.regionSize (s : State) (r : Nat) : Nat := mib (s.fld f_MEMC_REGION_SIZE_mib r)
def State.regionCopy (s : State) (r : Nat) : Nat := mib (s.fld f_MEMC_REGION_COPY_mib r)

/-- The valid region that holds address `a`. -/
def State.regionAt (s : State) (a : Nat) : Option Nat :=
  (List.range 16).find? fun r =>
    s.on f_MEMC_REGION_ATTR_valid r && decide (s.regionBase r ≤ a ∧ a < s.regionBase r + s.regionSize r)

/-- The copy of a byte of a duplex region. -/
def State.copyAddr (s : State) (a : Nat) : Option Nat :=
  match s.regionAt a with
  | some r => if s.on f_MEMC_REGION_ATTR_duplex r then some (a + s.regionCopy r - s.regionBase r) else none
  | none => none

/-- Whether a write of `k` bytes from address `a` meets a write-protected region (R238). -/
def State.wprotected (s : State) (a k : Nat) : Bool :=
  (List.range 16).any fun r =>
    s.on f_MEMC_REGION_ATTR_valid r && s.on f_MEMC_REGION_ATTR_wprot r &&
      decide (a < s.regionBase r + s.regionSize r ∧ s.regionBase r < a + k)

/-- Write bytes, in a duplex region to both addresses (R238). -/
def State.memWrite (s : State) (a : Nat) : List Byte → State
  | [] => s
  | b :: bs =>
    let s := s.setHbm a b
    let s := match s.copyAddr a with | some c => s.setHbm c b | none => s
    s.memWrite (a + 1) bs

/-! ## Notices (R257) -/

/-- Memory source `m` asserts, and agent 28 writes its item. -/
def State.memNotice (s : State) (m pc bank port : Nat) : State :=
  (s.assertSrc (srcMem m)).agentItem 28 0x18 (f64 m 1) (BitVec.ofNat 32 (pc + bank * 2 ^ 5 + port * 2 ^ 10))

/-- A fault of the memory controller at HBM address `a`, with bank and pseudo-channel in its detail word (Table 10-5). -/
def State.memFault (s : State) (code cls : Nat) (sc : Scope) (m access a : Nat) : State :=
  s.log { s.detect code cls sc m with access, addr := s.node * 2 ^ 36 + a, detail := bankIx a * 32 + pcOf a }

/-- The master ID of a memory port (Table 10-10). -/
def portMaster (p : Nat) : Nat := 0x1116 + p

/-! ## Self-refresh and retention (R247 to R250) -/

/-- The contents of every bank that was not retained are lost: what its bytes read as is open (notes/assumptions/4.md). -/
def State.loseBanks (s : State) : State :=
  let kept := fun b q : Nat => s.memc.retBanks.getLsbD b && s.memc.retPcs.getLsbD q
  let lost := (List.range 1024).filter fun k => ! kept (k / 32) (k % 32)
  { s with hbm := s.hbm.filter fun e => kept (bankIx e.1) (pcOf e.1)
           losses := lost.foldl (fun l k => Table.put 0 k (Table.get 0 k l + 1) l) s.losses }

/-- The controller leaves partial retention (R250). -/
def State.leaveRetention (s : State) : State :=
  let x := s.memc
  let l := s.loseBanks
  let s := l.setMemc { l.memc with st := .service, srAt := none, srExit := none, idleAt := s.now }
  let b := if x.retPcs = 0xFFFFFFFF then ~~~ x.retBanks else 0xFFFFFFFF
  let q := if x.retBanks = 0xFFFFFFFF then ~~~ x.retPcs else 0xFFFFFFFF
  let s := (s.wr .MEMC_LOST_BANK (s.rd .MEMC_LOST_BANK ||| b)).wr .MEMC_LOST_PC (s.rd .MEMC_LOST_PC ||| q)
  (s.stick f_MEMC_EVENTS_lost).memNotice 14 0 0 0

/-- The stack is ready again after self-refresh or partial retention. -/
def State.memWake (s : State) : State :=
  match s.memc.st with
  | .selfRefresh => (s.setMemc { s.memc with st := .service, srAt := none, srExit := none, idleAt := s.now }).memNotice 10 0 0 0
  | .retention => s.leaveRetention
  | _ => s

/-! ## Drain-wait (R244) -/

def State.stretching (s : State) : Bool := (List.range 6).any fun p => s.on f_TEST_HBM_STRETCH_ns p

/-- Drain-wait applies to every pseudo-channel. -/
def State.drainAll (s : State) : Bool :=
  decide (s.dev.phase < 7) || decide (s.memc.st = .training) || decide (s.memc.st = .freqSwitch) ||
    (s.dev.test && s.stretching) || decide (s.flt.tileSafe ≠ 0) || s.flt.deviceSafe

/-- A soft repair is in progress on pseudo-channel `q`. -/
def State.repairing (s : State) (q : Nat) : Bool := s.memc.banks.any fun e => decide (e.1 % 32 = q) && e.2.repair.isSome

/-- MEMC_STATUS.drain_wait. -/
def State.drainWait (s : State) : Bool := s.drainAll || s.memc.banks.any fun e => e.2.repair.isSome

/-! ## Requests (R239, R240) -/

def MReq.bytes (r : MReq) : Nat := if r.write then r.data.length else r.len

def MReq.overlaps (r q : MReq) : Bool := decide (r.addr < q.addr + q.bytes ∧ q.addr < r.addr + r.bytes)

/-- They overlap at the 32-byte granularity of the write queue (R244). -/
def MReq.sharesBurst (r q : MReq) : Bool :=
  decide (r.addr / 32 * 32 < q.addr + q.bytes ∧ q.addr / 32 * 32 < r.addr + r.bytes)

/-- Whether a write is in the write queue of its pseudo-channel, which holds the 128 oldest ones; a later one is held by its port (R244). -/
def State.queued (s : State) (w : MReq) : Bool :=
  w.write && decide ((s.memc.reqs.filter fun q => q.write && decide (pcOf q.addr = pcOf w.addr ∧ q.id < w.id)).length < 128)

/-- The target T of a port in 1/256 ns. -/
def State.portTarget (s : State) (p : Nat) : Nat := ns (100 * s.fld f_MEMC_PORT_TARGET_target p)

/-- Table 8-3. -/
def State.urgency (s : State) (r : MReq) : Nat :=
  let a := s.now - r.at_
  let t := s.portTarget r.port
  if 9 * t ≤ 10 * a then 3 else if 3 * t ≤ 4 * a then 2 else if t ≤ 2 * a then 1 else 0

/-- Bit p: port p holds a level-3 request (MEMC_STATUS.urgent). -/
def State.urgentPorts (s : State) : Nat :=
  (s.memc.reqs ++ s.memc.reading).foldl (fun m r => if s.urgency r = 3 then m ||| 2 ^ r.port else m) 0

/-- A port accepts a request (R239); a P3 write into a write-protected region has no effect (R238). -/
def State.memRequest (s : State) (p : Nat) (write : Bool) (a : Nat) (data : List Byte) (len : Nat) : State :=
  if write ∧ p = 3 ∧ s.wprotected a data.length then s.memFault 0x600 1 .none (portMaster 3) 4 a
  else s.memAccept p write a data len

/-- A request enters urgency level 3 (R240). -/
def State.enterUrgent (s : State) (id : Nat) : State :=
  match (s.memc.reqs ++ s.memc.reading).find? fun r => decide (r.id = id) with
  | none => s
  | some r =>
    if r.urgent ∨ s.urgency r ≠ 3 then s
    else
      let mark := List.map fun q : MReq => if q.id = id then { q with urgent := true } else q
      let s := s.setMemc { s.memc with reqs := mark s.memc.reqs, reading := mark s.memc.reading }
      (s.tally f_MEMC_PORT_STATS_urgent 1 r.port).memNotice r.port (pcOf r.addr) (bankIx r.addr) r.port

/-- A request has completed; it counts as overdue after its target (R240). -/
def State.memDone (s : State) (r : MReq) : State :=
  let s := if s.portTarget r.port < s.now - r.at_ then s.tally f_MEMC_PORT_STATS_overdue 1 r.port else s
  if s.memc.reqs.isEmpty ∧ s.memc.reading.isEmpty then s.setMemc { s.memc with idleAt := s.now } else s

/-! ## Row disturbance (R245) -/

def State.rhWindow (s : State) : Nat := ms (max 1 (s.fld f_MEMC_RH_CTL_window))

/-- The end of a window: counts restart and a throttle ends. -/
def State.rhRoll (s : State) : State :=
  let w := s.rhWindow
  if s.memc.windowAt + w ≤ s.now then
    s.setMemc { s.memc with windowAt := s.memc.windowAt + (s.now - s.memc.windowAt) / w * w, acts := [], throttled := 0 }
  else s

/-- The key of a row group: eight adjacent rows of one bank. -/
def rowGroup (a : Nat) : Nat := bankKey a * 2048 + rowOf a / 8

/-- The rows of the group of address `a` and two on each side, as bank × 16,384 + row. -/
def disturbed (a : Nat) : List Nat :=
  let r := rowOf a / 8 * 8
  (List.range' (r - 2) (min 16384 (r + 10) - (r - 2))).map fun x => bankKey a * 16384 + x

/-- A refresh of bank `k` is issued: it closes its row, and its pseudo-channel goes over to the latest parameter set (R243, R246, R255). -/
def State.refreshBank (s : State) (k : Nat) : State :=
  let s := s.setBank k { s.bankOf k with row := none, postponed := 0, refAt := s.now }
  s.setMemc { s.memc with sets := Table.put 0 (k % 32) s.memc.setNo s.memc.sets }

/-- Port `p` activates the row of address `a`. -/
def State.activateRow (s : State) (p a : Nat) : State :=
  let s := s.rhRoll
  let x := s.memc
  let k := Table.get 0 (rowGroup a) x.acts + 1
  let s := s.setMemc { x with acts := Table.put 0 (rowGroup a) k x.acts, actAt := Table.put 0 p s.now x.actAt }
  let s := s.setBank (bankKey a) { s.bankOf (bankKey a) with row := some (rowOf a) }
  if k = s.fld f_MEMC_RH_CTL_threshold + 1 then
    let s := s.setBank (bankKey a) { s.bankOf (bankKey a) with row := none }
    let s := s.setMemc { s.memc with throttled := s.memc.throttled ||| 2 ^ p, rhPort := p, rhPc := pcOf a, rhBank := bankIx a,
                                     rhRows := disturbed a }
    let s := (s.stick f_MEMC_EVENTS_throttle).tally f_MEMC_RH_COUNT_count
    (s.memNotice 6 (pcOf a) (bankIx a) p).memFault 0x601 1 .none (portMaster p) 0 a
  else s

/-- An access of port `p` to a 256-byte block: its row is opened, unless it is open, and the bank's idle timer restarts (R243). -/
def State.rowAccess (s : State) (p a : Nat) : State :=
  let k := bankKey a
  let s := if (s.bankOf k).row = some (rowOf a) then s else s.activateRow p a
  s.setBank k { s.bankOf k with access := s.now }

/-- The first address of an access in each 256-byte block that it meets. -/
def blocksOf (a len : Nat) : List Nat := (List.range ((a + len + 255) / 256 - a / 256)).map fun i => max a ((a / 256 + i) * 256)

/-- The data of an access of port `p` move (R243, R245); partial retention has ended before. -/
def State.memAccess (s : State) (p a len : Nat) : State :=
  let s := if s.memc.st = .retention then s.leaveRetention else s
  let s := s.each (blocksOf a len) fun b s => s.rowAccess p b
  s.setMemc { s.memc with idleAt := s.now }

/-- A client's access that this model performs whole: it arrives, and its data move (notes/assumptions/75.md). -/
def State.memTouch (s : State) (p a len : Nat) : State := s.memArrive.memAccess p a len

/-! ## Scheduling (R241, R244) -/

def State.rowHit (s : State) (r : MReq) : Bool := decide ((s.bankOf (bankKey r.addr)).row = some (rowOf r.addr))

/-- No soft repair holds bank `k`: it does so for at most 1 µs (R254). -/
def State.bankFree (s : State) (k : Nat) : Bool := match (s.bankOf k).repair with | some (u, _) => decide (u ≤ s.now) | none => true

/-- Whether request `r` may be issued now: earlier requests of its port on the same bytes go first, but that a read takes the bytes of a
queued write (R239, R244); a write has come into the write queue (R244); a read drains overlapping writes where drain-wait applies
(R244); a bank under repair holds its requests (R254); a throttled port spaces its activations (R245); a stretched write waits
(Table 10-8). -/
def State.issuable (s : State) (r : MReq) : Bool :=
  let first := s.memc.reqs.all fun q =>
    ! (decide (q.id < r.id ∧ q.port = r.port) && q.overlaps r) || (! r.write && (! q.write || s.queued q))
  let waits := s.drainAll || s.repairing (pcOf r.addr)
  let drained := r.write || ! waits ||
    ! s.memc.reqs.any fun q => q.sharesBurst r && s.queued q && ! decide (q.port = r.port ∧ r.id < q.id)
  let spaced := s.rowHit r || ! s.memc.throttled.testBit r.port || decide (Table.get 0 r.port s.memc.actAt = 0) ||
    decide (Table.get 0 r.port s.memc.actAt + ns (8 * s.fld f_MEMC_RH_CTL_spacing) ≤ s.now)
  let stretched := ! r.write || ! s.dev.test || decide (r.at_ + ns (s.fld f_TEST_HBM_STRETCH_ns r.port) ≤ s.now)
  first && (! r.write || s.queued r) && drained && spaced && stretched && s.bankFree (bankKey r.addr)

/-- Whether `a` goes before `b`: urgency, row hit, age, port number (R241). -/
def State.goesBefore (s : State) (a b : MReq) : Bool :=
  let ua := s.urgency a
  let ub := s.urgency b
  if ua ≠ ub then decide (ub < ua)
  else if s.rowHit a ≠ s.rowHit b then s.rowHit a
  else if a.at_ ≠ b.at_ then decide (a.at_ < b.at_)
  else if a.port ≠ b.port then decide (a.port < b.port)
  else decide (a.id < b.id)

/-- The request that pseudo-channel `q` issues next. -/
def State.nextIssue (s : State) (q : Nat) : Option MReq :=
  let c := s.memc.reqs.filter fun r => decide (pcOf r.addr = q) && s.issuable r
  c.find? fun r => c.all fun x => decide (x.id = r.id) || s.goesBefore r x

/-- The queued writes that a read sees: a later write of the same port does not count (R239, R244). -/
def State.seenWrites (s : State) (r : MReq) : List MReq :=
  s.memc.reqs.filter fun w => s.queued w && (decide (w.port ≠ r.port) || decide (w.id < r.id))

/-- What a read returns: every byte covered by a queued write takes the youngest one's value (R244). -/
def State.readBytes (s : State) (r : MReq) : List Byte :=
  State.hbmBytes { s with memc := { s.memc with reqs := s.seenWrites r } } r.addr r.len

/-- The addresses of the bytes that queued writes supply. -/
def State.forwarded (s : State) (r : MReq) : List Nat :=
  let l := s.seenWrites r
  (List.range' r.addr r.len).filter fun a => l.any fun w => decide (w.addr ≤ a ∧ a < w.addr + w.data.length)

/-- A request is issued to the stack: a write takes effect, the data of a read are on their way (R239, R243). -/
def State.issueReq (s : State) (r : MReq) : State :=
  let r' := { r with data := if r.write then r.data else s.readBytes r, fwd := s.forwarded r }
  let s := s.rowAccess r.port r.addr
  let s := s.setMemc { s.memc with reqs := s.memc.reqs.filter fun x => decide (x.id ≠ r.id) }
  if r.write then (s.memWrite r.addr r.data).memDone r
  else s.setMemc { s.memc with reading := s.memc.reading ++ [r'] }

/-- The refresh period of the stack's temperature (R246). -/
def State.refreshPeriod (s : State) : Nat := if 85 * 16 < signed 16 s.pwr.stackTemp then ms 16 else ms 32

/-- Banks of pseudo-channel `q` whose rows have not been refreshed for a whole period are refreshed before anything else (R246). -/
def State.refreshOverdue (s : State) (q : Nat) : State :=
  s.each ((s.memc.banks.filter fun e => decide (e.1 % 32 = q ∧ e.2.refAt + s.refreshPeriod ≤ s.now)).map fun e => e.1)
    fun k s => s.refreshBank k

/-- Pseudo-channel `q` issues its next command. -/
def State.memIssue (s : State) (q : Nat) : State :=
  if s.memc.st ≠ .service then s
  else
    let s := s.rhRoll.refreshOverdue q
    match s.nextIssue q with
    | none => s
    | some r => s.issueReq r

/-- Bank `k` holds a level-3 request. -/
def State.bankUrgent (s : State) (k : Nat) : Bool :=
  s.memc.reqs.any fun r => decide (bankKey r.addr = k) && decide (s.urgency r = 3)

/-- A refresh of bank `k` falls due: a level-3 request postpones it, eight times at most (R241). -/
def State.refreshDue (s : State) (k : Nat) : State :=
  if s.memc.st ≠ .service then s
  else
    let b := s.bankOf k
    if s.bankUrgent k ∧ b.postponed < 8 then s.setBank k { b with postponed := b.postponed + 1 } else s.refreshBank k

/-- Queued requests of port `p` on the bytes of an access that is performed whole take effect before it (R239). -/
def State.portOrder (s : State) (p a len : Nat) : State :=
  let probe : MReq := { id := 0, port := p, write := false, addr := a, data := [], len, at_ := 0, urgent := false, fwd := [] }
  s.each (s.memc.reqs.filter fun r => decide (r.port = p) && r.overlaps probe) fun r s => s.issueReq r

/-! ## Read data (R250 to R254) -/

/-- `k` free bytes. -/
def freeBytes : Nat → State → List Byte × State
  | 0, s => ([], s)
  | k + 1, s =>
    let a := s.freeWord
    let r := freeBytes k a.2
    (byteOf a.1 0 :: r.1, r.2)

/-- Bank b/q of an address has lost its contents (R250). -/
def State.lostBank (s : State) (a : Nat) : Bool := bit (s.rd .MEMC_LOST_BANK) (bankIx a) && bit (s.rd .MEMC_LOST_PC) (pcOf a)

/-- A read of a lost bank by requester `m` (R250). -/
def State.lostRead (s : State) (m a : Nat) : State :=
  (s.tally f_MEMC_PAR_STATS_lost_reads).memFault 0x604 1 .none m 3 a

/-- MEMC_ERR_ADDR. -/
def State.errorAt (s : State) (a : Nat) (uncorr : Bool) (port : Nat) : State :=
  s.setMemc { s.memc with errAddr := a / 32 * 32, errUncorr := uncorr, errPort := port }

/-- A row produces a parity error; at the threshold its soft repair begins, if the bank has a spare row (R254). -/
def State.rowError (s : State) (port a : Nat) : State :=
  let k := bankKey a
  let key := k * 16384 + rowOf a
  let b := s.bankOf k
  let n := Table.get 0 key s.memc.rowErrs + 1
  let s := s.setMemc { s.memc with rowErrs := Table.put 0 key n s.memc.rowErrs }
  if n < s.fld f_MEMC_PPR_CTL_threshold ∨ b.repair.isSome then s
  else if b.spares < Config.spareRows k then
    s.setBank k { b with repair := some (s.now + us 1, rowOf a), spares := b.spares + 1, row := none }
  else if b.noSpare then s
  else (s.setBank k { b with noSpare := true }).memFault 0x606 2 .none (portMaster port) 3 a

/-- The parity of `len` bytes from address `a` is known to fail. -/
def State.spoiltIn (s : State) (a len : Nat) : Bool := s.memc.spoilt.any fun e => decide (a ≤ e.1 ∧ e.1 < a + len)

/-- It is found to fail: until they are written again, so does every read of them (R251, notes/assumptions/98.md). -/
def State.spoil (s : State) (a len : Nat) : State :=
  s.setMemc { s.memc with spoilt := (List.range' a len).foldl (fun l x => Table.put 0 x 1 l) s.memc.spoilt }

/-- An uncorrectable read of port `p` at address `a` (R253). -/
def State.uncorrectable (s : State) (p a : Nat) : State :=
  let s := ((s.tally f_MEMC_PAR_STATS_uncorrectable).stick f_MEMC_EVENTS_uncorrectable).errorAt a true p
  (s.memNotice 8 (pcOf a) (bankIx a) p).rowError p a

/-- A read repaired from the copy (R252): the copy's bytes go back to the failing address. -/
def State.repaired (s : State) (p a : Nat) (good : List Byte) : State :=
  let s := s.writeHbm a good
  let s := ((s.tally f_MEMC_PAR_STATS_repaired).stick f_MEMC_EVENTS_repaired).errorAt a false p
  ((s.memNotice 7 (pcOf a) (bankIx a) p).memFault 0x602 1 .none (portMaster p) 3 a).rowError p a

/-- The client's part of an uncorrectable read (R253): P3 and P4 log it, P0, P1 and P5 act in their own commands. -/
def State.clientUncorrectable (s : State) (m p a : Nat) : State :=
  if p = 3 ∨ p = 4 then s.memFault 0x603 1 .none m 3 a else s

/-- The stack's bytes, whatever writes wait. -/
def State.stackBytes (s : State) (a n : Nat) : List Byte := (List.range' a n).map fun x => Table.get (s.hbmDefault x) x s.hbm

/-- The parity check of `len` bytes of one burst from address `a`, read for port `p`; `bad` and `copyBad`: it fails in the data and in the
copy. True for an uncorrectable read (R251 to R254). -/
def State.checkBurst (s : State) (p a len : Nat) (bad copyBad : Bool) : State × Bool :=
  if ! (bad || s.spoiltIn a len) then (s, false)
  else
    match s.copyAddr a with
    | some c =>
      if copyBad ∨ s.spoiltIn c len then ((((s.spoil a len).spoil c len).uncorrectable p a).rowError p c, true)
      else (s.repaired p a (s.stackBytes c len), false)
    | none => ((s.spoil a len).uncorrectable p a, true)

/-- The part of burst `i`, counted from the one of address `a`, that a read of `len` bytes meets: its first address and its length. -/
def burstPart (a len i : Nat) : Nat × Nat :=
  let lo := max a ((a / 32 + i) * 32)
  (lo, min ((a / 32 + i + 1) * 32) (a + len) - lo)

/-- The bursts of a read, counted from the one of its address. -/
def burstsOf (a len : Nat) : List Nat := List.range ((a + len + 31) / 32 - a / 32)

/-- The parity check of a whole read, burst by burst; bursts of a lost bank are not checked (R250). The bursts that are uncorrectable. -/
def State.checkRead (s : State) (p a len : Nat) (bad copyBad : List Nat) : State × List Nat :=
  (burstsOf a len).foldl (fun (r : State × List Nat) i =>
    let b := burstPart a len i
    if r.1.lostBank b.1 then r
    else
      let x := r.1.checkBurst p b.1 b.2 (bad.contains i) (copyBad.contains i)
      (x.1, if x.2 then r.2 ++ [i] else r.2)) (s, [])

/-- A read of lost banks is counted and logged once (R250). -/
def State.lostCheck (s : State) (m a len : Nat) : State :=
  match (blocksOf a len).find? fun b => s.lostBank b with
  | some b => s.lostRead m b
  | none => s

/-- A read of port `p` for requester `m` that this model performs whole; `bad` numbers the bursts that it reports as uncorrectable. The
bursts that are so. -/
def State.memRead (s : State) (m p a len : Nat) (bad : List Nat) : State × List Nat :=
  let r := ((s.portOrder p a len).memAccess p a len).checkRead p a len bad bad
  (r.1.lostCheck m a len, r.2)

/-- The bytes that a returning read delivers: those of the stack as the parity check leaves them, free ones in uncorrectable bursts, and
the forwarded ones as they are (R244, R251 to R253). -/
def State.delivered (s : State) (r : MReq) (checked uncorr : List Nat) : List Byte × State :=
  let f := freeBytes r.len s
  ((List.range r.len).map fun i =>
    let a := r.addr + i
    let b := a / 32 - r.addr / 32
    if r.fwd.contains a then r.data.getD i 0
    else if uncorr.contains b then f.1.getD i 0
    else if checked.contains b then Table.get (s.hbmDefault a) a s.hbm
    else r.data.getD i 0, if uncorr = [] then s else f.2)

/-- Read data returns to its port; `bad` and `copyBad` number the 32-byte bursts of the request whose parity fails, in the data and in
the copy (R251 to R253). -/
def State.memReturn (s : State) (id : Nat) (bad copyBad : List Nat) : State :=
  match s.memc.reading.find? fun r => decide (r.id = id) with
  | none => s
  | some r =>
    if s.dev.test ∧ s.now < r.at_ + ns (s.fld f_TEST_HBM_STRETCH_ns r.port) then s
    else
      let m := portMaster r.port
      let s := s.setMemc { s.memc with reading := s.memc.reading.filter fun x => decide (x.id ≠ id) }
      let failing := (burstsOf r.addr r.len).filter fun i =>
        let b := burstPart r.addr r.len i
        ! s.lostBank b.1 && (bad.contains i || s.spoiltIn b.1 b.2)
      let c := (s.lostCheck m r.addr r.len).checkRead r.port r.addr r.len bad copyBad
      let d := c.1.delivered r failing c.2
      let s := match c.2 with
        | i :: _ => d.2.clientUncorrectable m r.port (burstPart r.addr r.len i).1
        | [] => d.2
      (s.setMemc { s.memc with answer := some (id, d.1, decide (c.2 ≠ [])) }).memDone r

/-- A soft repair completes (R254); its record waits for the fuse array. -/
def State.softRepaired (s : State) (k : Nat) : State :=
  let b := s.bankOf k
  match b.repair with
  | none => s
  | some (_, row) =>
    let s := s.setBank k { b with repair := none }
    let s := s.setMemc { s.memc with soft := s.memc.soft + 1, rowErrs := Table.put 0 (k * 16384 + row) 0 s.memc.rowErrs,
                                     repairs := s.memc.repairs ++ [(k, row)] }
    (s.stick f_MEMC_EVENTS_ppr).memNotice 13 (k % 32) (k / 32) 0

/-! ## Banks (R243) -/

/-- A bank closes its row. -/
def State.closeRow (s : State) (k : Nat) : State := s.setBank k { s.bankOf k with row := none }

/-- Every bank closes its row. -/
def State.precharge (s : State) : State := s.each (s.memc.banks.map fun e => e.1) fun k s => s.closeRow k

/-- The stack enters self-refresh (R247). -/
def State.enterSelfRefresh (s : State) : State :=
  if s.srEntering then (s.precharge.setMemc { s.precharge.memc with st := .selfRefresh, srAt := some s.now }).memNotice 9 0 0 0 else s

/-- Whether partial retention is refused (R249). -/
def State.retentionRefused (s : State) : Bool :=
  let banks := s.rd .MEMC_PR_BANK
  let pcs := s.rd .MEMC_PR_PC
  let kept := fun lo size : Nat =>
    decide (size = 0) || (decide (pcs = 0xFFFFFFFF) &&
      (List.range 32).all fun b => decide (lo + size ≤ b * 2 ^ 29 ∨ (b + 1) * 2 ^ 29 ≤ lo) || bit banks b)
  let region := fun r =>
    ! s.on f_MEMC_REGION_ATTR_valid r ||
      (kept (s.regionBase r) (s.regionSize r) && (! s.on f_MEMC_REGION_ATTR_duplex r || kept (s.regionCopy r) (s.regionSize r)))
  s.memHeld || (s.engs.any fun e => decide (e.2.state ≠ .idle)) || s.spilling ||
    ! region 0 || ! region 1 || ! kept (s.fld f_QUE_SPILL_BASE_page * 4096) (s.fld f_QUE_SPILL_SIZE_pages * 4096)

/-- Writing 1 to MEMC_PR_CTL.enter (R249), in SERVICE or SELF_REFRESH; in any other state it is refused, or has happened
(DESIGN CHOICE, notes/assumptions/99.md). -/
def State.enterRetention (s : State) : State :=
  if s.memc.st = .retention then s
  else if (s.memc.st ≠ .service ∧ s.memc.st ≠ .selfRefresh) ∨ s.retentionRefused then s.stick f_MEMC_EVENTS_refused
  else
    let t := s.precharge
    t.setMemc { t.memc with
      st := .retention, srAt := some s.now, srExit := none, retBanks := s.rd .MEMC_PR_BANK, retPcs := s.rd .MEMC_PR_PC }

/-! ## Training and data rate (R255, R256) -/

/-- Training at a deferred rate begins once the gathering under way has completed. -/
def State.freqResume (s : State) : State :=
  match s.memc.freqWait with
  | some r => s.setMemc { s.memc with freqWait := none, trainRate := some r, gathering := false }
  | none => s.setMemc { s.memc with trainRate := none, gathering := true }

/-- A round of background training for the current rate completes: the shadow set waits for the next refresh of each pseudo-channel (R255);
the next round begins (notes/assumptions/76.md). -/
def State.trainRound (s : State) : State :=
  if s.memc.st ≠ .service ∨ s.memc.trainRate.isSome then s
  else
    let s := s.setMemc { s.memc with rounds := (s.memc.rounds + 1) % 65536, setNo := s.memc.setNo + 1 }
    ((s.stick f_MEMC_EVENTS_train_done).memNotice 11 0 0 0).freqResume

/-- A write of a new rate to MEMC_FREQ.req: started at once, or deferred while training data are gathered. -/
def State.freqWanted (s : State) (r : Nat) : State :=
  let x := s.memc
  if x.gathering ∨ x.trainRate.isSome then s.setMemc { x with freqWait := some r }
  else if r = x.cur then s
  else s.setMemc { x with trainRate := some r }

/-- The switch to the new rate and its shadow set is done: the controller returns to SERVICE (R256). -/
def State.freqDone (s : State) (r : Nat) : State :=
  let n := s.memc.setNo + 1
  let sets := (List.range 32).foldl (fun l q => Table.put 0 q n l) s.memc.sets
  let s := (s.setMemc { s.memc with st := .service, cur := r, setNo := n, sets, idleAt := s.now }).stick f_MEMC_EVENTS_freq_done
  (s.memNotice 12 0 0 0).freqResume

/-- Training at the new rate completes: the controller enters FREQ_SWITCH and holds all requests; when it comes again, or after 1.5 µs, the
switch is done (R256, notes/assumptions/42.md). -/
def State.freqSwitched (s : State) : State :=
  match s.memc.trainRate with
  | none => s
  | some r =>
    match s.memc.st with
    | .service => s.precharge.setMemc { s.precharge.memc with st := .freqSwitch, switchAt := s.now }
    | .freqSwitch => s.freqDone r
    | _ => s

/-- FREQ_SWITCH holds requests for at most 1.5 µs (R256). -/
def State.freqExpire (s : State) : State :=
  if s.memc.st = .freqSwitch ∧ s.memc.switchAt + ns 1500 ≤ s.now then s.freqSwitched else s

end Sys2Proof.Machine
end

