-- ==== Sys2Proof/Machine/LinkCode.lean ====
section
/-!
DEFINITION. What crosses a link of the web: the bytes of a flit with its CRC (R265), and the RS(544,514) codewords that carry the flits of
one direction of a port (R259).
-/

namespace Sys2Proof.Machine

open Sys2Proof

/-! ## The bytes of a flit (R265, Table 9-4) -/

/-- Header words H0 to H3. -/
def flitHeader (f : Flit) : List Nat :=
  [f.dst % 4096 * 2 ^ 20 + f.src % 4096 * 2 ^ 8 + f.type % 256,
   f.tag % 65536 * 2 ^ 16 + f.len % 256 * 2 ^ 8 + f.vc % 2 * 2 ^ 7 + f.status % 8 * 2 ^ 4 + f.addr / 2 ^ 32 % 16,
   f.addr % 2 ^ 32, f.stamp % 2 ^ 32]

/-- Trailer word T0. -/
def flitTrailer (f : Flit) : Nat :=
  f.seq % 512 * 2 ^ 23 + f.ack % 512 * 2 ^ 14 + b2n f.nak * 2 ^ 13 + f.cvc % 8 * 2 ^ 10 + f.ccount % 8 * 2 ^ 7 + f.hops % 128

/-- Bytes 0 to 251: header, payload filled with zeros to 232 bytes, and T0. -/
def flitCovered (f : Flit) : List Byte :=
  (flitHeader f).flatMap (fun h => leBytes h 4) ++ (f.payload ++ List.replicate (232 - f.payload.length) 0).take 232 ++ leBytes (flitTrailer f) 4

/-- The 256 bytes of a flit, with the CRC-32C over bytes 0 to 251. -/
def flitBytes (f : Flit) : List Byte := flitCovered f ++ leBytes (crc32c (flitCovered f)).toNat 4

/-- The flit that 256 bytes spell. -/
def flitOfBytes (l : List Byte) : Flit :=
  let w := fun (i : Nat) => leNat ((l.drop i).take 4)
  let f := fun (v lo len : Nat) => v / 2 ^ lo % 2 ^ len
  let t := w 248
  { dst := f (w 0) 20 12, src := f (w 0) 8 12, type := f (w 0) 0 8, tag := f (w 4) 16 16, len := f (w 4) 8 8, vc := f (w 4) 7 1,
    status := f (w 4) 4 3, addr := f (w 4) 0 4 * 2 ^ 32 + w 8, stamp := w 12, payload := (l.drop 16).take 232,
    seq := f t 23 9, ack := f t 14 9, nak := decide (f t 13 1 = 1), cvc := f t 10 3, ccount := f t 7 3, hops := f t 0 7 }

/-- Whether the CRC of 256 received bytes is correct. -/
def flitCrcOk (l : List Byte) : Bool := decide ((crc32c (l.take 252)).toNat = leNat ((l.drop 252).take 4))

/-! ## RS(544,514) over 10-bit symbols (R259)

The code is the one of IEEE 802.3, taken from that standard: the field GF(2^10) of x^10 + x^3 + 1, the generator with the roots α^0 to
α^29, the first symbol sent as the highest coefficient. The spec gives neither it nor the order of the bits (PRESUMED,
notes/assumptions/104.md). -/

/-- Multiplication by α. -/
def gfDouble (a : Nat) : Nat := if a < 512 then 2 * a else (2 * a) ^^^ 0x409

/-- The product of two field elements. -/
def gfMul (a b : Nat) : Nat :=
  (List.range 10).foldl (fun acc i => gfDouble acc ^^^ (if b.testBit (9 - i) then a else 0)) 0

/-- α to the power of `i`. -/
def gfPow (i : Nat) : Nat := (List.range i).foldl (fun a _ => gfDouble a) 1

/-- Coefficients of the generator below x^30, highest first: each root α^i multiplies the product so far by x + α^i. -/
def rsGen : List Nat :=
  ((List.range 30).foldl (fun g i => List.zipWith (fun a b => a ^^^ b) (g ++ [0]) (0 :: g.map (gfMul (gfPow i)))) [1]).drop 1

/-- The 30 parity symbols of a message: the remainder of its division by the generator. -/
def rsParity (m : List Nat) : List Nat :=
  m.foldl (fun r x =>
    let f := x ^^^ r.headD 0
    List.zipWith (fun c y => gfMul f c ^^^ y) rsGen (r.drop 1 ++ [0])) (List.replicate 30 0)

/-- The 514 message symbols of codeword `k` of a pair (0 or 1): the control field with the count and the marker code, then its half of
the 10,240 bits of five flits. -/
def messageSymbols (count marker k : Nat) (flits : List Flit) : List Nat :=
  let bits := leNat (flits.flatMap flitBytes) / 2 ^ (5120 * k) % 2 ^ 5120
  let v := (count + k) % 65536 + marker % 16 * 2 ^ 16 + bits * 2 ^ 20
  (List.range 514).map fun i => v / 2 ^ (10 * i) % 1024

/-- The 544 symbols of codeword `k` of the pair that a direction sends; none while its flits are not all formed. The spec names no marker
codes: they are free. -/
def TxCode.codeword (x : TxCode) (k : Nat) : Option (List Nat) :=
  if x.flits.length < 3 + 2 * k then none
  else
    let m := messageSymbols x.count (Config.markerCode ((x.count + k) % 65536)) k x.flits
    some (m ++ rsParity m)

/-- The symbols of a codeword that logical lane `l` carries: the even ones on lane 0, the odd ones on lane 1. -/
def laneSymbols (l : Nat) (c : List Nat) : List Nat := (List.range 272).map fun i => c.getD (2 * i + l) 0

/-! ## The receiver (R259, R260) -/

/-- Which of the two codewords of a pair a flit overlaps, by its place among the five: the third one lies across both. -/
def RxCode.spoils (x : RxCode) : Bool :=
  match x.place with
  | 0 | 1 => x.lost0
  | 2 => x.lost0 || x.lost1
  | _ => x.lost1

/-- A codeword of the pair is complete in front of the flit of place 0 and of the one of place 2. -/
def RxCode.fresh (x : RxCode) : Bool := decide (x.place = 0 ∨ x.place = 2)

/-- The codeword that comes with a flit is decoded: with `n` symbols in error it is corrected up to 15. -/
def RxCode.decoded (x : RxCode) (n : Nat) : RxCode :=
  match x.place with
  | 0 => { x with lost0 := decide (15 < n) }
  | 2 => { x with lost1 := decide (15 < n) }
  | _ => x

/-- The next flit of the stream; after five a pair of codewords has gone by. -/
def RxCode.next (x : RxCode) : RxCode :=
  if 4 ≤ x.place then { x with place := 0, count := (x.count + 2) % 65536 } else { x with place := x.place + 1 }

/-- A flit goes out: as the next of five, or as the first of the following pair. -/
def TxCode.sendFlit (x : TxCode) (f : Flit) : TxCode :=
  if x.flits.length < 5 then { x with flits := x.flits ++ [f] } else { count := (x.count + 2) % 65536, flits := [f] }

end Sys2Proof.Machine
end

