-- ==== Sys2Proof/Machine/WebOps.lean ====
section
/-!
DEFINITION. The web: flits, credits, sequence numbers and replay, port states, routing, broadcast trees and lanes (R262 to R282).
-/

namespace Sys2Proof.Machine

open Sys2Proof

/-! ## Flits (Tables 9-4 to 9-6) -/

/-- Classes of Table 9-5. -/
inductive FlitClass where
  | linkLocal | req | rsp | stream | bcast | reserved
  deriving DecidableEq, Repr

def flitClass (type : Nat) : FlitClass :=
  if type ≤ 4 then .linkLocal
  else if 0x10 ≤ type ∧ type ≤ 0x13 then .req
  else if 0x18 ≤ type ∧ type ≤ 0x1B then .rsp
  else if type = 0x20 then .stream
  else if type = 0x28 then .bcast
  else .reserved

/-- The credit code of a class and a virtual channel (Table 9-6). -/
def flitCvc (f : Flit) : Nat :=
  match flitClass f.type with
  | .bcast => 1 | .req => 2 + f.vc | .rsp => 4 + f.vc | .stream => 6 + f.vc | _ => 0

/-- Credits granted at entry to ACTIVE (Table 9-6). -/
def fullCredits : Table Nat := [(1, 16), (2, 32), (3, 32), (4, 32), (5, 32), (6, 64), (7, 64)]

/-- A flit formed in this device (R265); H3 holds LINE and PHASE of raster time. -/
def State.formFlit (s : State) (dst type tag len status addr : Nat) (payload : List Byte) : Flit :=
  { dst, src := s.node, type, tag, len, vc := 0, status, addr, stamp := if s.tb.ready then s.raster.lo.toNat else 0, payload,
    seq := 0, ack := 0, nak := false, cvc := 0, ccount := 0, hops := 0 }

/-- A LINK_PARAM message to the peer of port `p` (Table 9-8; the byte of each argument DEDUCED, notes/assumptions/70.md). -/
def State.linkParam (s : State) (p code : Nat) (args : List Nat) : Flit :=
  s.formFlit (s.portOf p).peerNode 1 0 (args.length + 1) 0 0 ((code :: args).map fun x => BitVec.ofNat 8 x)

/-- A response to a request from node `src` to node `me`: tag and address of the request, destination and source swapped, the data or
zeros (R266, Tables 9-5, 9-7). -/
def State.response (s : State) (me src type tag len status addr : Nat) (data : List Byte) : Flit :=
  let read := type = 0x10
  { s.formFlit src (type + 8) tag (if read then len else data.length) status addr
      (if read then (if status = 0 then data else List.replicate len 0) else data) with src := me }

/-! ## Port queues -/

def Port.credit (x : Port) (cvc : Nat) : Nat := Table.get 0 cvc x.credits

/-- The web block takes a value. -/
def State.setWeb (s : State) (w : Web) : State := { s with web := w }

/-- A credit to be returned to the peer (R270). -/
def Port.owe (x : Port) (cvc : Nat) : Port :=
  if cvc = 0 then x else { x with giveBack := Table.put 0 cvc (Table.get 0 cvc x.giveBack + 1) x.giveBack }

def Port.enqueue (x : Port) (f : Flit) : Port :=
  match flitClass f.type with
  | .linkLocal => { x with qLocal := x.qLocal ++ [f] }
  | .bcast => { x with qBcast := x.qBcast ++ [f] }
  | .rsp => { x with qRsp := x.qRsp ++ [f] }
  | .req => { x with qReq := x.qReq ++ [f] }
  | .stream => { x with qStream := x.qStream ++ [f] }
  | .reserved => x

/-- Flits held by the port. -/
def Port.held (x : Port) : Nat :=
  x.replay.length + x.qLocal.length + x.qBcast.length + x.qRsp.length + x.qReq.length + x.qStream.length

/-- Nothing held. -/
def Port.emptied (x : Port) : Port :=
  { x with replay := [], sentAt := [], again := 0, tries := 0, qLocal := [], qBcast := [], qRsp := [], qReq := [], qStream := [] }

/-- Put a flit into the output queue of port `p`. -/
def State.sendOn (s : State) (p : Nat) (f : Flit) : State := s.setPort p ((s.portOf p).enqueue f)

/-- Whether the web is powered at port `p` (Table 1-2). -/
def State.portPowered (s : State) (p : Nat) : Bool := s.domainOn (40 + p)

/-- Whether flits of every class cross port `p` (R262). -/
def State.portActive (s : State) (p : Nat) : Bool := decide (p < 4) && decide ((s.portOf p).st = .active)

/-! ## Port states (Table 9-3) -/

def webMaster (p : Nat) : Nat := 0x1110 + p

def State.enterPort (s : State) (p : Nat) (st : PortState) : State := s.setPort p { s.portOf p with st, since := s.now }

/-- Entry to RETRAIN: held flits and the replay buffer are kept. -/
def State.portRetrain (s : State) (p : Nat) : State :=
  let s := ((s.enterPort p .retrain).stick f_WEB_EVENTS_retrain).tally f_WEB_PORT_RETRAIN_count 1 p
  s.fault 0x700 1 (.port p) (webMaster p)

/-- Entry to FAILED: everything held is discarded and counted (R269). -/
def State.portFailed (s : State) (p : Nat) : State :=
  let x := s.portOf p
  let s := s.tally f_WEB_PORT_RETRAIN_discarded x.held p
  let s := s.setPort p { x.emptied with st := .failed, since := s.now, granted := false, rateNew := none, rateAsked := none }
  (s.stick f_WEB_EVENTS_port_down).fault 0x706 2 (.port p) (webMaster p)

/-- The codeword streams of a port begin anew, at the count `count` of the peer (R259). -/
def State.portAligned (s : State) (p count : Nat) : State :=
  let x := s.portOf p
  s.setPort p { x with txCode := ⟨0, []⟩, rxCode := ⟨count % 65536, 0, false, false⟩ }

/-- A failed training attempt. -/
def State.portRetry (s : State) (p : Nat) : State := (s.enterPort p .detect).tally f_WEB_PORT_RETRAIN_count 1 p

/-- Entry to ACTIVE: from PARAM with numbers and credits afresh (R270), link-local flits still to be sent being kept; from RETRAIN with
the replay buffer to be resent. A port down is up again. -/
def State.portUp (s : State) (p : Nat) : State :=
  let x := s.portOf p
  let y :=
    if x.granted then { x with again := x.replay.length, tries := 0, sentAt := x.sentAt.map fun _ => s.now }
    else { x.emptied with granted := true, txSeq := 0, rxSeq := 0, skipping := false, nakDue := false,
                          credits := fullCredits, giveBack := [], streamWait := 0, qLocal := x.qLocal }
  let left := if x.granted then s.web.waiting else s.web.waiting.map fun e => if e.1 = p then (4, e.2) else e
  let s := (State.setWeb s { s.web with waiting := left }).setPort p { y with st := .active, since := s.now }
  s.clearCondition 0x706 (.port p) none

/-- The port is disabled from any state; what it held is discarded (DESIGN CHOICE, notes/assumptions/71.md). -/
def State.portDisabled (s : State) (p : Nat) : State :=
  let x := s.portOf p
  s.setPort p { x.emptied with st := .disabled, since := s.now, granted := false, peerValid := false, rx0 := 3, rx1 := 3, tx0 := 3,
                               tx1 := 3, rateWait := none, rateNew := none, rateAsked := none }

/-! ## Routing (R274, R275) -/

/-- The output port of torus mode and whether it crosses the wrap link of its dimension; none where the column and the row match. -/
def torusPort (x y X Y dx dy : Nat) (back : Bool) : Option (Nat × Bool) :=
  let plus := fun (a b n : Nat) => decide (2 * ((b + n - a) % n) ≤ n) != back
  if dx ≠ x then
    if plus x dx X then some (0, decide (x + 1 = X)) else some (1, decide (x = 0))
  else if dy ≠ y then
    if plus y dy Y then some (2, decide (y + 1 = Y)) else some (3, decide (y = 0))
  else none

/-- The wrap links of this device's own row and column, by port (R276). -/
def wraps (x y X Y p : Nat) : Bool :=
  match p with | 0 => decide (x + 1 = X) | 1 => decide (x = 0) | 2 => decide (y + 1 = Y) | _ => decide (y = 0)

/-- The output port for node `dst`, and whether the link is a wrap link; none if no port is usable. -/
def State.routeTo (s : State) (dst : Nat) : Option (Nat × Bool) :=
  let r := s.rd .WEB_ROUTE dst
  let viaTable := if bit r 31 then some (bits r 0 2) else none
  if s.fld f_WEB_CTL_topo = 1 then
    let X := s.fld f_WEB_CTL_dim_x_m1 + 1
    let Y := s.fld f_WEB_CTL_dim_y_m1 + 1
    let base := s.fld f_WEB_TORUS_BASE_node
    let me := s.node - base
    let x := me % X
    let y := me / X
    let usable : Option (Nat × Bool) → Option (Nat × Bool) := fun o => o.filter fun e => s.portActive e.1
    if base ≤ dst ∧ dst < base + X * Y then
      let d := dst - base
      match usable (torusPort x y X Y (d % X) (d / X) false) with
      | some e => some e
      | none => usable (torusPort x y X Y (d % X) (d / X) true)
    else
      match viaTable with
      | none => none
      | some p => usable (some (if s.portActive p then (p, wraps x y X Y p) else (p ^^^ 1, wraps x y X Y (p ^^^ 1))))
  else
    match viaTable with
    | none => none
    | some p =>
      if s.portActive p then some (p, false)
      else if bit r 30 ∧ s.portActive (bits r 4 2) then some (bits r 4 2, false)
      else none

/-- The virtual channel on the link to port `q` of a flit that came in on port `i` (R276). -/
def nextVc (vc q : Nat) (wrap : Bool) (i : Option Nat) : Nat :=
  let turned : Bool := match i with | some i => decide (i < 2 ∧ 2 ≤ q) | none => false
  if wrap then 1 else if turned then 0 else vc

/-- A flit leaves on the port that routing gives; none without a usable port. -/
def State.tryRoute (s : State) (f : Flit) (i : Option Nat) : Option State :=
  match s.routeTo f.dst with
  | some (q, wrap) => some (s.sendOn q { f with vc := nextVc f.vc q wrap i })
  | none => none

/-- Route a flit that came in on port `i`, or was formed here (R274, R275, R277). -/
def State.routeFlit (s : State) (f : Flit) (i : Option Nat) : State :=
  let flitFault := fun (s : State) (code : Nat) =>
    s.log { s.detect code 1 .none (match i with | some p => webMaster p | none => 0x1115) with access := 5 }
  if i.isSome ∧ s.fld f_WEB_CTL_max_hops < f.hops + 1 then flitFault (s.tally f_WEB_DROP_COUNT_ttl) 0x704
  else
    match s.tryRoute f i with
    | some s => s
    | none =>
      let s := s.tally f_WEB_DROP_COUNT_no_route
      if flitClass f.type = .req then
        let s := flitFault s 0x703
        let rsp := s.response f.dst f.src f.type f.tag f.len 4 f.addr []
        match s.tryRoute rsp none with
        | some s => s
        | none => s.tally f_WEB_DROP_COUNT_no_route
      else s

/-- A response of node `me` is sent to its requester. -/
def State.respond (s : State) (me src type tag len status addr : Nat) (data : List Byte) : State :=
  s.routeFlit (s.response me src type tag len status addr data) none

/-! ## Broadcast trees (R278) -/

/-- Put an event-broadcast flit on every tree port of its group but the one it came in on. -/
def State.broadcast (s : State) (f : Flit) (i : Option Nat) : State :=
  s.each (List.range 4) fun p s =>
    if bit (s.rd .WEB_BCAST f.dst) p ∧ i ≠ some p then s.sendOn p f else s

/-- A received event broadcast goes on, as it is, to the other tree ports, unless it has travelled too far (R277, R278). -/
def State.forwardBcast (s : State) (f : Flit) (p : Nat) : State :=
  if (List.range 4).all fun q => ! bit (s.rd .WEB_BCAST f.dst) q || decide (q = p) then s
  else if s.fld f_WEB_CTL_max_hops < f.hops + 1 then
    let s := s.tally f_WEB_DROP_COUNT_ttl
    s.log { s.detect 0x704 1 .none (webMaster p) with access := 5 }
  else s.broadcast f (some p)

/-- The delivery time, routing channel and access class of a received event broadcast (Table 9-5). -/
def flitFarFork (f : Flit) : RTime × Nat × Bool :=
  let w := fun (i : Nat) => BitVec.ofNat 32 (leNat ((f.payload.drop i).take 4))
  (RTime.ofWords (w 0) (w 4), (f.payload.getD 8 0).toNat, (f.payload.getD 9 0).getLsbD 0)

/-- An event broadcast: delivery time, routing channel and access class (Table 9-5). -/
def State.bcastFlit (s : State) (g : Nat) (d : RTime) (channel : Nat) (secure : Bool) : Flit :=
  s.formFlit g 0x28 0 10 0 0 (leBytes d.lo.toNat 4 ++ leBytes d.hi.toNat 4 ++ [BitVec.ofNat 8 channel, BitVec.ofNat 8 (b2n secure)])

/-! ## Beats (R51, R283) -/

/-- The own raster position. -/
def State.ownPos (s : State) : Nat := Raster.pos s.lines s.tb.raster

/-- The beat that port `p` sends now, with the skew of the TEST block (R51, Table 10-8). -/
def State.ownBeat (s : State) (p : Nat) : Beat :=
  let skew := signed 16 (bits (s.rd .TEST_BEAT_SKEW p) 0 16)
  let add : Int := if s.tb.period = 0 then 0 else skew * 2 ^ 40 / (1000 * s.tb.period : Nat)
  let r := Raster.ofPos s.lines ((s.ownPos : Int) + add).toNat 0
  ⟨s.fld f_TB_BEAT_ROOT_root_node, s.fld f_TB_BEAT_CTL_rank, s.holdover, r.frame, r.line, r.frac⟩

/-- A beat as a flit (Table 9-5). -/
def State.beatFlit (s : State) (p : Nat) (b : Beat) : Flit :=
  s.formFlit (s.portOf p).peerNode 4 0 13 0 0
    (leBytes (b.frac / 65536 + 2 ^ 16 * b.line) 4 ++ leBytes b.frame 4 ++ leBytes (b.frac % 65536) 2 ++ leBytes (b.root % 4096) 2 ++
      [BitVec.ofNat 8 (b.rank % 128 + 128 * b2n b.hold)])

/-! ## Sending (R267, R268, R270, R271) -/

/-- The class whose credits the next trailer returns, and how many; no REQ credits while 256 requests are served, none under
TEST_PORT_HOLD (R270, R273, Table 10-8). -/
def State.creditsDue (s : State) (p : Nat) : Nat × Nat :=
  if bit (s.rd .TEST_PORT_HOLD) p then (0, 0)
  else
    match (s.portOf p).giveBack.find? fun e => decide (0 < e.2) && (decide (e.1 ≠ 2 ∧ e.1 ≠ 3) || decide (s.web.serving.length < 256)) with
    | some (c, k) => (c, min 7 k)
    | none => (0, 0)

/-- Put a flit on the link with the trailer of this link. -/
def State.putOnLink (s : State) (p : Nat) (f : Flit) (seq : Nat) : State :=
  let x := s.portOf p
  let c := s.creditsDue p
  let g := { f with seq, ack := (x.rxSeq + 511) % 512, nak := x.nakDue, cvc := c.1, ccount := c.2, hops := f.hops + 1 }
  s.setPort p { x with sent := some g, txCode := x.txCode.sendFlit g, nakDue := false,
                       giveBack := Table.put 0 c.1 (Table.get 0 c.1 x.giveBack - c.2) x.giveBack }

/-- A new flit that needs a credit: it takes the credit, a sequence number and a place in the replay buffer. -/
def State.sendNew (s : State) (p : Nat) (f : Flit) : State :=
  let x := s.portOf p
  let c := flitCvc f
  let s := s.putOnLink p f x.txSeq
  let y := s.portOf p
  s.setPort p { y with txSeq := (x.txSeq + 1) % 512, credits := Table.put 0 c (x.credit c - 1) y.credits,
                       replay := x.replay ++ [{ f with seq := x.txSeq }], sentAt := x.sentAt ++ [s.now],
                       streamWait := if 6 ≤ c then 0 else if x.qStream = [] then 0 else x.streamWait + 1 }

/-- Whether the head of a queue holds a credit. -/
def Port.ready (x : Port) (q : List Flit) : Bool := match q with | f :: _ => decide (0 < x.credit (flitCvc f)) | [] => false

/-- One flit slot of port `p` (R271); a beat takes the raster time of this instant (R283). In order: a waiting stream flit at least every fourth slot, link-local, resent flits
(DEDUCED, notes/assumptions/72.md), then the classes in order, else IDLE. -/
def State.flitSlot (s : State) (p : Nat) : State :=
  let x := s.portOf p
  let active := decide (x.st = .active)
  let free := active && decide (x.again = 0) && decide (x.replay.length < 255)
  let waited := { x with streamWait := if x.qStream = [] then 0 else x.streamWait + 1 }
  let idle := s.formFlit x.peerNode 0 0 0 0 0 []
  let stream := fun (f : Flit) (rest : List Flit) => (s.setPort p { x with qStream := rest }).sendNew p f
  if free ∧ 3 ≤ x.streamWait ∧ x.ready x.qStream then
    match x.qStream with | f :: rest => stream f rest | [] => s
  else
    match x.qLocal with
    | f :: rest =>
      let g := if f.type = 4 then s.beatFlit p (s.ownBeat p) else f
      (s.setPort p { waited with qLocal := rest }).putOnLink p { g with dst := x.peerNode } x.txSeq
    | [] =>
      if active ∧ 0 < x.again then
        match x.replay[x.replay.length - x.again]? with
        | some f =>
          let at_ := x.sentAt.set (x.replay.length - x.again) s.now
          (s.setPort p { waited with again := x.again - 1, sentAt := at_ }).putOnLink p f f.seq
        | none => s.setPort p { x with again := 0 }
      else if free ∧ x.ready x.qBcast then
        match x.qBcast with | f :: rest => (s.setPort p { x with qBcast := rest }).sendNew p f | [] => s
      else if free ∧ x.ready x.qRsp then
        match x.qRsp with | f :: rest => (s.setPort p { x with qRsp := rest }).sendNew p f | [] => s
      else if free ∧ x.ready x.qReq then
        match x.qReq with | f :: rest => (s.setPort p { x with qReq := rest }).sendNew p f | [] => s
      else if free ∧ x.ready x.qStream then
        match x.qStream with | f :: rest => stream f rest | [] => s
      else (s.setPort p waited).putOnLink p idle x.txSeq

/-! ## Receiving (R267, R268, R270) -/

/-- Resend every flit that is not acknowledged; after eight replays without progress the port retrains (R268). -/
def State.replay (s : State) (p : Nat) : State :=
  let x := s.portOf p
  if x.replay = [] then s
  else if 8 ≤ x.tries then s.portRetrain p
  else
    (s.setPort p { x with again := x.replay.length, tries := x.tries + 1, sentAt := x.sentAt.map fun _ => s.now }).tally
      f_WEB_PORT_STATS_replays 1 p

/-- An ack covers every flit up to its number. -/
def Port.acked (x : Port) (ack : Nat) : Port :=
  match x.replay with
  | [] => x
  | f :: _ =>
    let k := (ack + 513 - f.seq) % 512
    if k = 0 ∨ x.replay.length < k then x
    else
      let rest := x.replay.drop k
      { x with replay := rest, sentAt := x.sentAt.drop k, again := min x.again rest.length, tries := 0 }

/-- The trailer of a flit whose CRC is correct: ack, nak and credits. -/
def State.trailer (s : State) (p : Nat) (f : Flit) : State :=
  let x := (s.portOf p).acked f.ack
  let x := if f.cvc = 0 then x else { x with credits := Table.put 0 f.cvc (x.credit f.cvc + f.ccount) x.credits }
  let s := s.setPort p x
  if f.nak then s.replay p else s

/-- A discarded flit: the first one asks for a replay. -/
def State.discard (s : State) (p : Nat) : State :=
  let x := s.portOf p
  s.setPort p { x with skipping := true, nakDue := x.nakDue || ! x.skipping }

/-- A flit of a reserved type, or of a type that this device does not accept. -/
def State.badType (s : State) (p : Nat) : State := s.log { s.detect 0x702 1 (.port p) (webMaster p) with access := 5 }

/-- The node ID of virtual node `v` (R369). -/
def State.virtualNode (s : State) (v : Nat) : Nat := leNat ((s.boot.foreSet.drop (4 * v)).take 4) % 4096

/-- Whether a flit is addressed to this device: its own node ID, in forerunner mode also those of its virtual nodes (R370). -/
def State.isMine (s : State) (dst : Nat) : Bool :=
  decide (dst = s.node) || (s.dev.forerunner && (decide (dst = s.virtualNode 0) || decide (dst = s.virtualNode 1)))

/-- A request for this device: it is served, or waits in the input buffer of its port, its credit withheld, while 256 are served (R273). -/
def State.takeReq (s : State) (p : Nat) (f : Flit) : State :=
  if s.web.serving.length < 256 then
    let s := if p < 4 then s.setPort p ((s.portOf p).owe (flitCvc f)) else s
    s.setWeb { s.web with serving := s.web.serving ++ [f] }
  else s.setWeb { s.web with waiting := s.web.waiting ++ [(p, f)] }

/-- A flit taken in order is delivered to this device or routed on; its place in the input buffer is free again. The content of a flit
that ends here acts with the command of its own row (notes/assumptions/73.md). -/
def State.deliverFlit (s : State) (p : Nat) (f : Flit) : State :=
  let freed := s.setPort p ((s.portOf p).owe (flitCvc f))
  match flitClass f.type with
  | .linkLocal => freed
  | .bcast => freed
  | .reserved => freed.badType p
  | .req =>
    if ! s.isMine f.dst then freed.routeFlit f (some p)
    else if s.dev.nodeValid then s.takeReq p f
    else freed
  | .rsp => if ! s.isMine f.dst then freed.routeFlit f (some p) else freed.badType p
  | .stream => if ! s.isMine f.dst then freed.routeFlit f (some p) else freed.badType p

/-- The flit with the number expected ends a run of discarded ones; an IDLE flit shows that number too (R267, Table 9-5). -/
def State.seqSeen (s : State) (p : Nat) : State := s.setPort p { s.portOf p with skipping := false }

/-- A flit is received on port `p`; `ok`: its CRC is correct and no codeword was uncorrectable (R267). -/
def State.receiveFlit (s : State) (p : Nat) (f : Flit) (ok : Bool) : State :=
  if ! ok then (s.tally f_WEB_PORT_STATS_crc_errors 1 p).discard p
  else
    let s := s.trailer p f
    let x := s.portOf p
    if f.seq ≠ x.rxSeq then (if f.type = 0 then s else s.discard p)
    else if flitClass f.type = .linkLocal then s.seqSeen p
    else
      let s := (s.setPort p { x with rxSeq := (x.rxSeq + 1) % 512 }).seqSeen p
      if x.st = .active then s.deliverFlit p f else s

/-- Whether a flit is the request that a READ_REQ, WRITE_REQ, AMEND_SEG or ATTEST_REQ command serves. -/
def flitIsReq (f : Flit) (src type tag : Nat) : Bool := decide (f.src = src ∧ f.type = type ∧ f.tag = tag)

/-- The node that a request is addressed to, which answers it (R266, R370). -/
def State.servedAs (s : State) (src type tag : Nat) : Nat :=
  match s.web.serving.find? fun f => flitIsReq f src type tag with
  | some f => f.dst
  | none => s.node

/-- The request is served no longer; the first one that waits takes its place (R273). -/
def State.served (s : State) (src type tag : Nat) : State :=
  let s := s.setWeb { s.web with serving := s.web.serving.eraseP fun f => flitIsReq f src type tag }
  match s.web.waiting with
  | (p, f) :: rest =>
    if s.web.serving.length < 256 then (s.setWeb { s.web with waiting := rest }).takeReq p f else s
  | [] => s

/-- Whether an earlier register access of the same requester is still to be performed (R273). -/
def State.regWaits (s : State) (src type tag : Nat) (isReg : Nat → Bool) : Bool :=
  (s.web.serving.takeWhile fun f => ! flitIsReq f src type tag).any fun f =>
    decide (f.src = src) && (decide (f.type = 0x10) || decide (f.type = 0x11)) && isReg f.addr

/-! ## Lanes (R279 to R281) -/

def Port.lane (x : Port) (l : Nat) : Lane := Table.get Lane.reset l x.lanes
def Port.setLane (x : Port) (l : Nat) (v : Lane) : Port := { x with lanes := Table.put Lane.reset l v x.lanes }

/-- The logical lane that a physical receive lane carries. -/
def Port.logical (x : Port) (l : Nat) : Option Nat := if x.rx0 = l then some 0 else if x.rx1 = l then some 1 else none

/-- A LINK_EYE item of port `p` (Table 6-5). -/
def State.eyeItem (s : State) (p l : Nat) : State :=
  let v := (s.portOf p).lane l
  s.agentItem (16 + p) 0x13 (f64 v.width 1000) (BitVec.ofNat 32 (v.height + l * 2 ^ 12))

/-- The receiver asks the peer for its spare transmit lane (R280). -/
def State.askSpare (s : State) (p logical : Nat) : State :=
  let x := s.portOf p
  if x.rxSpare ≠ .free then s
  else
    let s := if s.domainOn 44 then s else { s with pwr := { s.pwr with on := s.pwr.on ||| BitVec.ofNat 62 (2 ^ 44) } }
    (s.setPort p { x with rxSpare := .asked, rxBad := logical }).sendOn p (s.linkParam p 2 [0, logical])

/-- A lane takes a health state; a change writes an item (R279). -/
def State.laneHealth (s : State) (p l : Nat) (v : Lane) : State :=
  let old := (s.portOf p).lane l
  let s := s.setPort p ((s.portOf p).setLane l v)
  if v.health = old.health then s else s.eyeItem p l

/-- A lane enters FAILED and is taken out (R281). -/
def State.laneFailed (s : State) (p l : Nat) : State :=
  let v := (s.portOf p).lane l
  if v.health = .failed then s
  else
    let s := s.laneHealth p l { v with health := .failed, low := 0, high := 0 }
    let x := s.portOf p
    match x.logical l with
    | none => s
    | some k =>
      if x.st ≠ .active then s
      else
        let s := s.stick f_WEB_EVENTS_lane_failed
        let s := s.log { s.detect 0x708 2 (.port p) (webMaster p) with detail := l }
        if x.degraded then s.portRetrain p
        else (s.setPort p { s.portOf p with degraded := true }).askSpare p k

/-- One measurement of a powered lane (R279). -/
def State.measureLane (s : State) (p l width height : Nat) : State :=
  let v0 := (s.portOf p).lane l
  let low := decide (width < s.fld f_WEB_LANE_LIMIT_warn_width) || decide (height < s.fld f_WEB_LANE_LIMIT_warn_height)
  let above := decide (s.fld f_WEB_LANE_LIMIT_warn_width < width) && decide (s.fld f_WEB_LANE_LIMIT_warn_height < height)
  let fail := decide (width < s.fld f_WEB_LANE_LIMIT_fail_width) || decide (height < s.fld f_WEB_LANE_LIMIT_fail_height)
  let v := { v0 with measured := true, width, height, uncorr := 0, low := if low then v0.low + 1 else 0,
                     high := if above then v0.high + 1 else 0 }
  if fail then (s.setPort p ((s.portOf p).setLane l v)).laneFailed p l
  else
    let h : Health :=
      match v0.health with
      | .good => if 3 ≤ v.low then .warn else .good
      | .warn => if 100 ≤ v.high then .good else .warn
      | .failed => if 100 ≤ v.high then .good else .failed
      | .off => if 3 ≤ v.low then .warn else .good
    let s := s.laneHealth p l { v with health := h }
    if h = .warn ∧ v0.health ≠ .warn then
      let s := s.stick f_WEB_EVENTS_lane_warn
      match (s.portOf p).logical l with | some k => s.askSpare p k | none => s
    else s

/-- The physical lane that carries symbol `i` of a codeword: the even ones are on logical lane 0, the odd ones on logical lane 1; a lane
that is taken out leaves every symbol to the other one (R259, R281). -/
def Port.carrier (x : Port) (i : Nat) : Nat :=
  let a := if i % 2 = 0 then x.rx0 else x.rx1
  let b := if i % 2 = 0 then x.rx1 else x.rx0
  if x.degraded ∧ (x.lane a).health = .failed then b else a

/-- Symbols in error are charged to the lanes that carried them: corrected ones each, an uncorrectable codeword once to every lane that
carried one of them (R260; the latter DESIGN CHOICE, notes/assumptions/104.md). More than 16 such codewords since the lane was
measured last fail it (R279). -/
def State.chargeLanes (s : State) (p : Nat) (errs : List Nat) : State :=
  let x := s.portOf p
  s.each (List.range 3) fun l s =>
    let n := (errs.filter fun i => decide (x.carrier i = l)).length
    if n = 0 then s
    else if errs.length ≤ 15 then
      s.setFld f_WEB_LANE_FEC_corrected (satAdd 0xFFFFFF (s.fld f_WEB_LANE_FEC_corrected p l) n) p l
    else
      let s := s.setFld f_WEB_LANE_FEC_uncorrectable (satAdd 0xFF (s.fld f_WEB_LANE_FEC_uncorrectable p l) 1) p l
      let v := (s.portOf p).lane l
      let s := s.setPort p ((s.portOf p).setLane l { v with uncorr := v.uncorr + 1 })
      if 16 < v.uncorr + 1 then s.laneFailed p l else s

/-- The codeword that comes with the next flit of the stream is decoded, `errs` being its symbols in error (R259, R260); with it, whether
an uncorrectable codeword overlaps the flit. -/
def State.takeCodeword (s : State) (p : Nat) (errs : List Nat) : State × Bool :=
  let e := (errs.filter fun i => decide (i < 544)).eraseDups
  let x := s.portOf p
  let r := x.rxCode.decoded e.length
  let s := s.setPort p { x with rxCode := r.next }
  (if x.rxCode.fresh then s.chargeLanes p e else s, r.spoils)

/-- The spare takes over a logical lane of one direction, and the lane it replaces is powered down; the receiver of the direction
records it (R280). A direction stays degraded while its other lane is out (R281). -/
def State.swapLane (s : State) (p : Nat) (d : Dir) : State :=
  let x := s.portOf p
  match d with
  | .rx =>
    let old := if x.rxBad = 0 then x.rx0 else x.rx1
    let other := if x.rxBad = 0 then x.rx1 else x.rx0
    let still := x.degraded && decide ((x.lane other).health = .failed)
    let y := if x.rxBad = 0 then { x with rx0 := 2 } else { x with rx1 := 2 }
    let s := (s.setPort p { y with rxSpare := .used, degraded := still }).laneHealth p old Lane.reset
    let s := s.stick f_WEB_EVENTS_lane_swap
    s.log { s.detect 0x707 2 (.port p) (webMaster p) with detail := old }
  | .tx =>
    let y := if x.txBad = 0 then { x with tx0 := 2 } else { x with tx1 := 2 }
    s.setPort p { y with txSpare := .used }

/-- Powered receive lanes that were off are GOOD. -/
def State.lanesOn (s : State) (p : Nat) : State :=
  s.each (List.range 3) fun l s =>
    let x := s.portOf p
    if (x.logical l).isSome ∧ (x.lane l).health = .off then s.laneHealth p l { Lane.reset with health := .good } else s

/-! ## Rates (R282) -/

/-- Training data are being gathered on the port. -/
def Port.training (x : Port) : Bool :=
  decide (x.st = .train) || decide (x.st = .retrain) || decide (x.rxSpare = .asked) || decide (x.rxSpare = .training) ||
    decide (x.txSpare = .training)

/-- A rate change that waited for training to end is asked of the peer. -/
def State.rateResume (s : State) (p : Nat) : State :=
  let x := s.portOf p
  match x.rateWait with
  | some r => if x.training then s else (s.setPort p { x with rateWait := none, rateAsked := some r }).sendOn p (s.linkParam p 5 [r])
  | none => s

/-- A write of a new rate to WEB_PORT_RATE.req. -/
def State.rateWanted (s : State) (p r : Nat) : State :=
  let x := s.portOf p
  if x.training then s.setPort p { x with rateWait := some r }
  else if r = x.rate then s
  else (s.setPort p { x with rateAsked := some r }).sendOn p (s.linkParam p 5 [r])

end Sys2Proof.Machine
end

