-- ==== Sys2Proof/Machine/QueOps.lean ====
section
/-!
DEFINITION. Stamping stages, asks and grants of credits, the CAPTURE and STREAM consumers, refill, tail timeouts, watermark sources and
the felt's states (R185 to R209).
-/

namespace Sys2Proof.Machine

open Sys2Proof

/-! ## The stamping stage (R186 to R190) -/

/-- The slice whose stuff FIFO the stamping stage of channel `n` reads: after couching the old one until it is empty (R190). -/
def State.stampSlice (s : State) (n : Nat) : Nat :=
  match (s.resOf n).oldSlice with
  | some i => if (s.sliceOf i).fifo = [] then s.sliceIdx n else i
  | none => s.sliceIdx n

/-- The old slice of a couching is done with: its stuff FIFO is empty, and the entry in progress is none of its own (R190, R332). -/
def State.oldDone (s : State) (n j : Nat) : Bool :=
  (s.sliceOf j).fifo.isEmpty && ! ((s.seqOf n).busy && decide (s.entrySlice n = j))

/-- The head entry is read: it leaves the FIFO and is the last entry read. -/
def State.headRead (s : State) (n i : Nat) (e : StuffEntry) : State :=
  let x := s.sliceOf i
  let s := s.setSlice i { x with fifo := x.fifo.drop 1, readCycle := some s.cycle }
  let r := s.resOf n
  let old := match r.oldSlice with | some j => if s.oldDone n j then none else some j | none => none
  s.setRes n { r with lastEntry := e, waiting := false, oldSlice := old }

/-- An item of channel `n` is dropped for want of a credit or of an ACTIVE felt (R189). -/
def State.nocreditDrop (s : State) (n : Nat) : State :=
  (s.tally f_CH_RES_NOCREDIT_COUNT_count 1 n).stick f_CH_RES_EVENTS_nocredit n

/-- The stamping stage of channel `n` works on entry `e` of slice `i`'s FIFO; `held` puts the entry back where it waits. -/
def State.stampEntry (s : State) (n i : Nat) (e : StuffEntry) (held : State → State) : State :=
  let read := fun s : State => s.headRead n i e
  if ! (s.feltOf e.felt).accepts s.cycle then (read s).nocreditDrop n
  else
    match s.push (s.sliceIdx n) e.felt (s.fld f_CH_RES_CTL_prio n) e.item with
    | .done s => read s
    | .overfull s => (read s).fault 0x401 2 (.felt e.felt) 0x1115
    | .nocredit => if s.on f_CH_RES_CTL_nocredit n then (read s).nocreditDrop n else held s

/-- A read of an empty stuff FIFO (R188). -/
def State.underrun (s : State) (n i : Nat) : State :=
  let last := (s.resOf n).lastEntry
  let e : StuffEntry := { last with item := last.item.flag flagUnderrun, cycle := s.cycle }
  let x := s.sliceOf i
  let s := (s.setSlice i { x with fifo := e :: x.fifo }).stick f_CH_RES_EVENTS_underrun n
  s.stampEntry n i e fun s => s.setRes n { s.resOf n with waiting := true }

/-- One turn of the stamping stage of channel `n` (R187, R189): an item that waits for its credit is tried again; STREAM reads an entry
of an earlier event cycle; PACED reads once for a trigger instant that has come. -/
def State.stampTurn (s : State) (n : Nat) : State :=
  let r := s.resOf n
  let i := s.stampSlice n
  let x := s.sliceOf i
  let wait := fun s : State => s.setRes n { s.resOf n with waiting := true }
  if x.readCycle = some s.cycle then s
  else if r.waiting then
    let s := s.setRes n { r with paced := r.paced.filter fun u => decide (s.now < u) }
    match x.fifo with
    | e :: _ => s.stampEntry n i e wait
    | [] => s.setRes n { s.resOf n with waiting := false }
  else if ! s.on f_CH_RES_CTL_pace n then
    let s := s.setRes n { r with paced := [] }
    match x.fifo with
    | e :: _ => if e.cycle < s.cycle then s.stampEntry n i e wait else s
    | [] => s
  else
    match r.paced.find? fun u => decide (u ≤ s.now) with
    | none => s
    | some u =>
      let s := s.setRes n { r with paced := r.paced.filter fun v => decide (v ≠ u) }
      match x.fifo with
      | e :: _ => if e.cycle < u / 256 then s.stampEntry n i e wait else s.underrun n i
      | [] => s.underrun n i

/-- Agent `a` of STALL policy pushes the item that it holds longest (R200). -/
def State.agentTurn (s : State) (a : Nat) : State :=
  let f := s.fld f_QUE_AGENT_CTL_felt a
  match s.backlog a with
  | [] => s
  | it :: rest =>
    if ! s.on f_QUE_AGENT_CTL_enable a ∨ ! (s.feltOf f).accepts s.cycle then s
    else
      match s.push (544 + a) f (s.fld f_QUE_AGENT_CTL_prio a) it with
      | .done s => s.setBacklog a rest
      | .overfull s => (s.setBacklog a rest).fault 0x401 2 (.felt f) 0x1115
      | .nocredit => s

/-! ## Credits (R198, R201) -/

/-- Producer `p` asks for a batch for felt `f`. -/
def State.ask (s : State) (p f : Nat) : State :=
  let k := p * 64 + f
  if ! s.writesFelt p f ∨ s.batch ≤ (s.creditOf p f).held ∨ (s.que.asks.any fun e => decide (e.1 = k)) then s
  else { s with que := { s.que with asks := s.que.asks ++ [(k, s.cycle)] } }

/-- The vat manager answers an ask; asks of one event cycle are answered in order of producer number. -/
def State.answerAsk (s : State) (p f : Nat) : State :=
  let k := p * 64 + f
  match s.que.asks.find? fun e => decide (e.1 = k) with
  | none => s
  | some (_, c) =>
    if s.que.asks.any fun e => decide (e.2 = c) && decide (e.1 / 64 < p) then s
    else
      let s := { s with que := { s.que with asks := s.que.asks.filter fun e => decide (e.1 ≠ k) } }
      if ! s.writesFelt p f then s
      else
        match s.grant f with
        | none => s.stickIf (s.grantLacksSpill f) f_QUE_EVENTS_spill_full
        | some (b, spill) =>
          let s := s.stickIf (spill && ! s.spilling) f_QUE_EVENTS_spill_start
          let x := (s.creditOf p f).settle s.cycle
          s.setCredit p f
            (if spill then { x with newSpill := x.newSpill + b, cycle := s.cycle } else { x with newVat := x.newVat + b, cycle := s.cycle })

/-! ## CAPTURE and STREAM (R194, R203) -/

def State.consumer (s : State) (f : Nat) : Nat := s.fld f_QUE_FELT_CTL_consumer f

/-- TEST_CONSUMER_HOLD holds felt `f` (Table 10-8). -/
def State.consumerHeld (s : State) (f : Nat) : Bool :=
  if f < 32 then bit (s.rd .TEST_CONSUMER_HOLD_LO) f else bit (s.rd .TEST_CONSUMER_HOLD_HI) (f - 32)

/-- S, the ring size in items. -/
def State.ringItems (s : State) (f : Nat) : Nat := 128 * s.fld f_QUE_FELT_RING_SIZE_pages f

/-- The first hop of felt `f`'s stream and the credit code it needs. -/
def State.streamHop (s : State) (f : Nat) : Option (Nat × Nat) :=
  match s.routeTo (s.fld f_QUE_FELT_DEST_node f) with
  | some (q, wrap) => some (q, 6 + nextVc 0 q wrap none)
  | none => none

/-- The web holds the stream of felt `f` back (R270). -/
def State.heldBack (s : State) (f : Nat) : Bool :=
  match s.streamHop f with
  | some (q, c) => decide ((s.portOf q).credit c = 0)
  | none => false

/-- A result-stream flit (Table 9-5); its length counts the bytes of the items, 224 for seven (DEDUCED, notes/assumptions/70.md). -/
def State.streamFlit (s : State) (f : Nat) (items : List Item) : Flit :=
  let x := s.feltOf f
  s.formFlit (s.fld f_QUE_FELT_DEST_node f) 0x20 (s.fld f_QUE_FELT_DEST_tag f) (32 * items.length) 0 0
    (leBytes (items.length * 2 ^ 29 + f) 4 ++ leBytes x.streamSeq 4 ++ items.flatMap Item.bytes)

/-- The consumer of felt `f` sends what its part-filled burst or flit holds. -/
def State.sendBurst (s : State) (f : Nat) : State :=
  let x := s.feltOf f
  if x.burst = [] then s
  else
    match s.consumer f with
    | 1 =>
      let from_ := (x.taken + 2 ^ 32 - x.burst.length) % 2 ^ 32
      s.memArrive.setFelt f { x with burst := [], inflight := x.inflight ++ [(from_, x.burst)] }
    | 2 =>
      let fl := s.streamFlit f x.burst
      (s.setFelt f { x with burst := [], streamSeq := (x.streamSeq + 1) % 2 ^ 32 }).routeFlit fl none
    | _ => s

/-- The capture ring has no place: the items taken and not released reach S (R194). -/
def State.ringIsFull (s : State) (f : Nat) : Bool :=
  decide (((s.feltOf f).taken + 2 ^ 32 - s.fld f_QUE_FELT_RING_RD_count f) % 2 ^ 32 = s.ringItems f)

/-- A draining felt that has become empty sends its last part-filled burst or flit (R208). -/
def State.drainBurst (s : State) (f : Nat) : State :=
  let x := s.feltOf f
  if x.st = .draining ∧ x.depth = 0 ∧ x.closing.isNone then s.sendBurst f else s

/-- Whether the consumer of felt `f` may take in this event cycle (R192, Table 10-8). -/
def State.mayTake (s : State) (f : Nat) : Bool :=
  (decide ((s.feltOf f).st = .active) || decide ((s.feltOf f).st = .draining)) && ! s.consumerHeld f &&
    decide ((s.feltOf f).takeCycle ≠ some s.cycle)

/-- A CAPTURE consumer takes an item; eight make a burst. On a full ring it stops, and memory source 15 asserts (Table 7-3). -/
def State.captureTake (s : State) (f : Nat) : State :=
  if s.consumer f ≠ 1 ∨ ! s.mayTake f then s
  else if s.ringIsFull f then
    let x := s.feltOf f
    if x.depth = 0 ∨ x.ringFull then s else (s.setFelt f { x with ringFull := true }).assertSrc (srcMem 15)
  else
    match s.take f with
    | none => s
    | some (it, s) =>
      let x := s.feltOf f
      let s := s.setFelt f { x with burst := x.burst ++ [it], taken := (x.taken + 1) % 2 ^ 32, ringFull := false }
      if x.burst.length = 7 then s.sendBurst f else s.drainBurst f

/-- The oldest burst under way is complete in HBM, written through P2, and RING_WR advances (R194). -/
def State.captureWritten (s : State) (f : Nat) : State :=
  let x := s.feltOf f
  let S := max 1 (s.ringItems f)
  let base := s.fld f_QUE_FELT_RING_BASE_pages f * 4096
  match x.inflight with
  | [] => s
  | (from_, items) :: rest =>
    let s := s.each items.zipIdx fun e s =>
      let a := base + (from_ + e.2) % 2 ^ 32 % S * 32
      ((s.portOrder 2 a 32).memAccess 2 a 32).memWrite a e.1.bytes
    s.setFelt f { s.feltOf f with inflight := rest, written := (x.written + items.length) % 2 ^ 32 }

/-- A STREAM consumer takes an item; seven make a flit. -/
def State.streamTake (s : State) (f : Nat) : State :=
  if s.consumer f ≠ 2 ∨ ! s.mayTake f ∨ s.heldBack f then s
  else
    match s.take f with
    | none => s
    | some (it, s) =>
      let x := s.feltOf f
      let s := s.setFelt f { x with burst := x.burst ++ [it] }
      if x.burst.length = 6 then s.sendBurst f else s.drainBurst f

/-- The felt of a part-filled burst or flit has been empty for 1 µs (R194). -/
def State.emptyFor (s : State) (f : Nat) : State :=
  let x := s.feltOf f
  if x.depth = 0 ∧ x.emptyAt + us 1 ≤ s.now then s.sendBurst f else s

/-- A write to QUE_FELT_RING_RD is refused where RING_WR − RING_RD would exceed S (R194). -/
def State.ringRdBad (s : State) (f : Nat) (v : Word) : Bool :=
  decide (s.ringItems f < ((s.feltOf f).written + 2 ^ 32 - v.toNat) % 2 ^ 32)

/-! ## Refill (R201) -/

/-- The spill segment to refill in a lane: the items ahead of it, the items to move, those behind. -/
def refillSplit (l : List QItem) (k : Nat) : List QItem × List QItem × List QItem :=
  let ahead := l.takeWhile fun q => q.place != .spill
  let rest := l.drop ahead.length
  let seg := (rest.takeWhile fun q => q.place == .spill).take k
  (ahead, seg, rest.drop seg.length)

/-- Whether a segment's refill begins, with at most 256 items ahead, or goes on. -/
def refillDue (l : List QItem) : Bool :=
  let r := refillSplit l 64
  match r.2.1 with | [] => false | q :: _ => decide (r.1.length ≤ 256) || q.begun

/-- The first spilled item of lane `q` of felt `f` is read back through port P5; one whose data cannot be corrected is removed from the felt
with MEM_SPILL_LOST (R201, R253). -/
def State.refillOne (s : State) (f q : Nat) (bad : Bool) : State :=
  let k := (refillSplit ((s.feltOf f).lane q) 1).1.length
  match ((s.feltOf f).lane q).drop k with
  | [] => s
  | x :: _ =>
    let a := s.spillAddr x.slot
    let r := s.memRead (portMaster 5) 5 a 32 (if bad then [0] else [])
    let s := r.1
    let ok := r.2.isEmpty
    let l := (s.feltOf f).lane q
    let back := if ok then [{ x with item := Item.ofBytes (s.hbmBytes a 32), place := .refill }] else []
    let s := (s.setFelt f ((s.feltOf f).setLane q (l.take k ++ back ++ l.drop (k + 1)))).giveBack f true 1
    if ok then s else s.fault 0x605 2 (.felt f) 0x111B

/-- One read of up to 64 items of the first spill segment of lane `q`; `bad` numbers those whose data cannot be corrected. -/
def State.refillLane (s : State) (f q : Nat) (bad : List Nat) : State :=
  let n := (refillSplit ((s.feltOf f).lane q) 64).2.1.length
  let s := s.memArrive.each (List.range n) fun i s => s.refillOne f q (bad.contains i)
  let x := s.feltOf f
  let l := x.lane q
  let ahead := (refillSplit l 1).1
  let rest := l.drop ahead.length
  let seg := rest.takeWhile fun i => i.place == .spill
  let y := x.setLane q (ahead ++ seg.map (fun i => { i with begun := true }) ++ rest.drop seg.length)
  let y := if y.depth = 0 then { y with timer := none, emptyAt := s.now } else y
  (s.setFelt f y).drainBurst f

/-- A refill read of the highest lane that has a segment to refill, when 64 refill buffers are free. -/
def State.refill (s : State) (f : Nat) (bad : List Nat) : State :=
  let x := s.feltOf f
  match ([7, 6, 5, 4, 3, 2, 1, 0] : List Nat).find? fun q => refillDue (x.lane q) with
  | none => s
  | some q => if 256 - x.inPlace .refill < 64 then s else s.refillLane f q bad

/-- QUE_FELT_STATUS.refill_wait: the next item to deliver lies in the spill region. -/
def State.refillWait (s : State) (f : Nat) : Bool := match s.front f with | some q => q.place == .spill | none => false

/-- A read that waits for the next item brings it from the spill region (R195). -/
def State.fetchFront (f : Nat) : Nat → State → State
  | 0, s => s
  | k + 1, s =>
    if s.refillWait f then
      match s.frontLane f with
      | some q => State.fetchFront f k (s.refillLane f q [])
      | none => s
    else s

/-! ## Tail timeout and watermark sources (R202, R203, R206) -/

/-- The tail timer stands at or above 2^n µs. -/
def State.tailDue (s : State) (f : Nat) : Bool :=
  s.on f_QUE_FELT_CTL_tail_en f &&
    match (s.feltOf f).timer with
    | some u => decide (u + us (2 ^ s.fld f_QUE_FELT_CTL_tail_n f) ≤ s.now)
    | none => false

def State.tailTimeout (s : State) (f : Nat) : State :=
  if ! s.tailDue f then s
  else
    let s := (s.stick f_QUE_FELT_WM_STATUS_tail f).noteWm f
    (s.setFelt f { s.feltOf f with timer := some s.now }).sendBurst f

/-- Watermark source `k` fires for the happenings of an earlier event cycle. -/
def State.fireWm (s : State) (k : Nat) : State :=
  match s.que.wmDue.find? fun e => decide (e.1 = k) && decide (e.2 < s.cycle) with
  | none => s
  | some d => State.assertSrc { s with que := { s.que with wmDue := s.que.wmDue.filter fun e => decide (e ≠ d) } } (srcWm k)

/-! ## Felt states (R208) -/

/-- OFF or DRAINED becomes ACTIVE. -/
def State.openFelt (s : State) (f : Nat) : State := s.setFelt f { s.feltOf f with st := .active, streamSeq := 0 }

/-- ACTIVE becomes DRAINING; pushes of this event cycle still land. -/
def State.closeFelt (s : State) (f : Nat) : State := s.setFelt f { s.feltOf f with st := .draining, closing := some s.cycle }

/-- At the end of the event cycle in which enable was cleared, every credit held for the felt is withdrawn (R199, R208). -/
def State.withdraw (s : State) (f : Nat) : State :=
  let s := s.each (List.range 584) fun p s =>
    let c := s.creditOf p f
    if c.held = 0 then s
    else ((s.setCredit p f Credit.reset).giveBack f false (c.vat + c.newVat)).giveBack f true (c.spill + c.newSpill)
  (s.setFelt f { s.feltOf f with closing := none }).drainBurst f

/-- The end of an event cycle for the felts. -/
def State.endFelts (s : State) : State :=
  s.judgeWms.each ((s.que.felts.filter fun e => e.2.closing.isSome).map fun e => e.1) fun f s => s.withdraw f

/-- A draining felt is empty and its last burst or flit complete. -/
def State.becomeDrained (s : State) (f : Nat) : State :=
  let x := s.feltOf f
  if x.st = .draining ∧ x.closing.isNone ∧ x.depth = 0 ∧ x.burst = [] ∧ x.inflight = [] then
    (s.setFelt f { x with st := .drained }).noteWm f
  else s

/-- The capture ring lies where R209 forbids it. -/
def State.ringBad (s : State) (f : Nat) : Bool :=
  let base := s.fld f_QUE_FELT_RING_BASE_pages f * 4096
  let size := s.fld f_QUE_FELT_RING_SIZE_pages f * 4096
  let meets := fun b k : Nat => decide (0 < k ∧ base < b + k ∧ b < base + size)
  let regions := (List.range 16).any fun r =>
    s.on f_MEMC_REGION_ATTR_valid r &&
      ((decide (r < 2) && meets (s.regionBase r) (s.regionSize r)) ||
        (s.on f_MEMC_REGION_ATTR_duplex r && meets (s.regionCopy r) (s.regionSize r)))
  let others := (List.range 64).any fun g =>
    decide (g ≠ f) && s.on f_QUE_FELT_CTL_enable g && decide (s.consumer g = 1) &&
      meets (s.fld f_QUE_FELT_RING_BASE_pages g * 4096) (s.fld f_QUE_FELT_RING_SIZE_pages g * 4096)
  let staging := match s.boot.stagingMib with | some m => meets (mib m) (mib 64) | none => false
  decide (size = 0) || decide (hbmSize < base + size) || regions || others || staging ||
    meets (s.fld f_QUE_SPILL_BASE_page * 4096) (s.fld f_QUE_SPILL_SIZE_pages * 4096)

end Sys2Proof.Machine
end

