-- ==== Sys2Proof/Machine/SweepOps.lean ====
section
/-!
DEFINITION. The sweep engine of a channel: lists and moulds in HBM, prefetch, control entries, arming and lateness, executions,
mould points, marks, advances, starts and stops (R57 to R59, R139 to R180, R395).
-/

namespace Sys2Proof.Machine

open Sys2Proof

/-! ## Lists and moulds (R139) -/

/-- Byte address of region `k`; none while the image defines no valid region `k`. -/
def State.region (s : State) (k : Nat) : Option Nat :=
  if s.on f_MEMC_REGION_ATTR_valid k then some (s.fld f_MEMC_REGION_BASE_mib k * 2 ^ 20) else none

/-- The descriptor of list `k`: validity, byte address of entry 0, length (Table 5-1). -/
def State.listDesc (s : State) (k : Nat) : Bool × Nat × Nat :=
  match s.region 0 with
  | none => (false, 0, 0)
  | some r =>
    let d := leNat (s.hbmBytes (r + 16 * k) 8)
    (d.testBit 31, r + 16 * (d / 2 ^ 32 % 2 ^ 29), d % 2 ^ 25)

/-- The descriptor of mould `m`: validity, byte address of point 0, number of points (Table 5-2). -/
def State.mouldDesc (s : State) (m : Nat) : Bool × Nat × Nat :=
  match s.region 1 with
  | none => (false, 0, 0)
  | some r =>
    let d := leNat (s.hbmBytes (r + 16 * m) 8)
    (d.testBit 31, r + d / 2 ^ 32, max 1 (d % 2 ^ 25))

/-- Entry `i` of a list whose entry 0 lies at `base` (R144). -/
def State.listEntry (s : State) (base i : Nat) : BitVec 128 := BitVec.ofNat 128 (leNat (s.hbmBytes (base + 16 * i) 16))

/-- A descriptor in table `r` is read through port `p`; `bad`: the read is reported as uncorrectable. Whether it can be used (R253). -/
def State.descRead (s : State) (p r k : Nat) (bad : Bool) : State × Bool :=
  match s.region r with
  | none => (s, false)
  | some a =>
    let x := s.memArrive.memRead (portMaster p) p (a + 16 * k) 16 (if bad then [0] else [])
    (x.1, x.2.isEmpty)

/-! ## Instants -/

/-- The instant that a start or end denotes at the present rate. -/
def State.whenAt (s : State) : When → Option Nat
  | .at u => some u
  | .raster t => (s.instantOf t).map Int.toNat
  | .ready => none

/-- Whether it has come. -/
def State.came (s : State) : When → Bool
  | .at u => decide (u ≤ s.now)
  | .raster t => s.tb.ready && (! rtBefore s.raster t || (match s.whenAt (.raster t) with | some u => decide (u ≤ s.now) | none => false))
  | .ready => false

/-- `k` DAC frames after it. -/
def State.plusFrames (s : State) (w : When) (k : Nat) : When :=
  if k = 0 then w else match s.whenAt w with | some u => .at (u + k * 65536) | none => w

/-- The first DAC frame boundary of channel `n` at or after instant `u`. -/
def State.boundaryFrom (s : State) (n u : Nat) : Nat :=
  let b := (s.forceOf n).frameAt
  if u ≤ b then b else b + (u - b + 65535) / 65536 * 65536

/-- The event cycle in progress as an arming instant: its start, or the lock that made raster_ready 1 in it (R59). -/
def State.cycleArm (s : State) : Nat := max (s.cycle * 256) s.tb.readyAt

/-- The arming instant of an entry armed in the event cycle in progress: the start instant where that cycle is the one of a start
at frame (R173), else the cycle itself. -/
def State.armAt (s : State) (n : Nat) : Nat :=
  let u := s.cycleArm
  match (s.engOf n).frame with
  | some f => if s.came (.raster ⟨f, 0, 0⟩) then max u ((s.whenAt (.raster ⟨f, 0, 0⟩)).getD u) else u
  | none => u

/-- How far raster time at 300 ns after the arming instant has passed a target, in 1/2^32 line; a positive amount is late (R58). -/
def State.lateBy (s : State) (u : Nat) (t : RTime) : Int :=
  let r := s.rasterAt (u + ns 300)
  rtDiff s.lines t r.seen * 65536 + (r.frac % 65536 : Nat)

/-- The target of an anchored entry armed at instant `u` (Table 2-6, R146, R395). -/
def State.anchorTarget (s : State) (u : Nat) (w : BitVec 128) : RTime :=
  let r := s.rasterTime u
  match sForm w with
  | 0 =>
    let t := rtAdd s.lines ⟨r.frame, 0, 0⟩ 0 (sLine w) (sPhase w)
    if rtBefore t r then rtAdd s.lines ⟨r.frame, 0, 0⟩ 1 (sLine w) (sPhase w) else t
  | 1 => rtAdd s.lines ⟨r.frame, r.line, 0⟩ 0 (sLine w) (sPhase w)
  | _ => rtAdd s.lines ⟨r.frame, 0, 0⟩ 0 (sLine w) (sPhase w)

/-! ## Ends and look-ahead points (Table 5-6) -/

/-- Points of all plays of a PLAY_MOULD; none when endless (R166). -/
def Exec.total (x : Exec) : Option Nat := if sRepeat x.word = 0xFFFF then none else some (x.mLen * (sRepeat x.word + 1))

/-- FORCE_V, FORCE_I or HOLD of dwell 0 whose end the next timed execution decides (R148). -/
def Exec.open_ (x : Exec) : Bool := sDwells x.word && decide (sDwell x.word = 0) && x.endAt.isNone

/-- The instant at which a waiting WAIT_ANCHOR times out (R157). -/
def State.timeoutOf (s : State) (x : Exec) : Option When :=
  if sWaits x.word ∧ sValue x.word ≠ 0 then some (s.plusFrames x.start (sValue x.word)) else none

/-- The end of an execution as far as it is known; dwell 0 counts as dwell 1. -/
def State.endOf (s : State) (x : Exec) : Option When :=
  match x.endAt with
  | some w => some w
  | none =>
    if sDwells x.word then some (s.plusFrames x.start (max 1 (sDwell x.word)))
    else if sWaits x.word then s.timeoutOf x
    else if sPlays x.word then
      match sPlay x.word, x.total with
      | _, none => none
      | 0, some k => some (s.plusFrames x.start (k * (sDwell x.word + 1)))
      | 1, some k => some (.raster (rtAdd s.lines x.target 0 k 0))
      | _, some _ => none
    else some x.start

/-- Whether the end instant of an execution has come. -/
def State.ended (s : State) (x : Exec) : Bool := match s.endOf x with | some w => s.came w | none => false

/-- A PLAY_MOULD entry is in progress on channel `n`: its end has not come. -/
def State.playing (s : State) (n : Nat) : Bool :=
  match (s.engOf n).cur with | some x => sPlays x.word && ! s.ended x | none => false

/-- The plays completed of the mould in play or last played: at the end of its entry, all of them (R166). -/
def State.playsDone (s : State) (n : Nat) : Nat :=
  let e := s.engOf n
  match e.cur with
  | some x => if sPlays x.word ∧ s.ended x then (match x.total with | some k => k / x.mLen | none => e.plays) else e.plays
  | none => e.plays

/-- They are kept when the execution is followed by another or by IDLE. -/
def State.keepPlays (s : State) (n : Nat) : State := s.setEng n { s.engOf n with plays := s.playsDone n }

/-- The execution armed or in force that comes last. -/
def Eng.last (e : Eng) : Option Exec := match e.plan.getLast? with | some x => some x | none => e.cur

/-- Change it. -/
def Eng.mapLast (e : Eng) (g : Exec → Exec) : Eng :=
  match e.plan.getLast? with
  | some x => { e with plan := e.plan.dropLast ++ [g x] }
  | none => { e with cur := e.cur.map g }

/-- The end instant that marks and END refer to: that of the last execution, or the start instant when there is none (R154,
R160); it is open after an execution of dwell 0. -/
def State.markDue (s : State) (n : Nat) : When :=
  let e := s.engOf n
  match e.last with
  | some x => if x.open_ then .ready else (s.endOf x).getD (.at s.now)
  | none => match e.frame with | some f => .raster ⟨f, 0, 0⟩ | none => .at s.now

/-- The end of an execution of dwell 0 becomes known: its marks and a stop that waits for it follow (R148). -/
def State.closeLast (s : State) (n : Nat) (anchored : Option When) : State :=
  let e := s.engOf n
  match e.last with
  | none => s
  | some x =>
    if ! x.open_ then s
    else
      let w := anchored.getD (s.plusFrames x.start 1)
      let fix := fun v : When => if v = .ready then w else v
      s.setEng n { e.mapLast (fun x => { x with endAt := some w }) with
                   marks := e.marks.map fun m => { m with due := fix m.due }, stop := e.stop.map fun p => (p.1, fix p.2) }

/-! ## Stops (R175) -/

/-- A stop that takes effect at the first DAC frame boundary from `w` on; a stop that comes no later is kept. All but those of END and of the
list's end have come in this event cycle (Table 5-8). -/
def State.askStop (s : State) (n reason : Nat) (w : When) : State :=
  let e := s.engOf n
  let keep : Bool :=
    match e.stop with
    | none => false
    | some (_, v) =>
      match s.whenAt v, s.whenAt w with
      | some a, some b => decide (s.boundaryFrom n a ≤ s.boundaryFrom n b)
      | _, none => true
      | none, _ => false
  let e := if reason = 1 ∨ reason = 2 then e else { e with stopCycle := some s.cycle }
  if e.state = .idle then s else if keep then s.setEng n e else s.setEng n { e with stop := some (reason, w) }

/-- CH_SWEEP_EVENTS.invalid and SWEEP_INVALID (R163). -/
def State.invalidEntry (s : State) (n i : Nat) : State :=
  let d := s.detect 0x300 1 (.channel n) (0x1100 + n / 64)
  let s := (s.stick f_CH_SWEEP_EVENTS_invalid n).askStop n 0xA (.at s.now)
  s.log { d with arg0 := i % 2 ^ 24, arg1 := (s.engOf n).list }

/-! ## Prefetch (R170, R171) -/

/-- Entry `i`, if the buffer holds it. -/
def Eng.entry? (e : Eng) (i : Nat) : Option (BitVec 128) := if e.bufLo ≤ i then e.buf[i - e.bufLo]? else none

/-- Let go of entries more than 16 before the entry in progress, and ask for the next 16 when as many places are free. -/
def State.topUp (s : State) (n : Nat) : State :=
  let e := s.engOf n
  let keep := min (match e.cur with | some x => x.idx | none => e.next) e.next - 16
  let cut := min (keep - e.bufLo) e.buf.length
  let e := { e with bufLo := e.bufLo + cut, buf := e.buf.drop cut }
  let from_ := e.bufLo + e.buf.length
  if e.fetch.isNone ∧ e.buf.length ≤ 48 ∧ from_ < e.len then s.memArrive.setEng n { e with fetch := some (from_, min 16 (e.len - from_)) }
  else s.setEng n e

/-- `k` entries from entry `i` on, fetched through port P0; one whose read is uncorrectable, as `bad` reports or the parity check finds,
is held as an entry of a reserved op, which is invalid when reached (R253). -/
def State.fetched (s : State) (base i k : Nat) (bad : List Nat) : State × List (BitVec 128) :=
  let a := base + 16 * i
  let burst := fun j : Nat => (a + 16 * j) / 32 - a / 32
  let r := s.memRead (portMaster 0) 0 a (16 * k) ((bad.filter fun j => decide (j < k)).map burst)
  (r.1, (List.range k).map fun j => if r.2.contains (burst j) then BitVec.allOnes 128 else r.1.listEntry base (i + j))

/-- The next entry is not in the buffer (R171). -/
def State.starve (s : State) (n : Nat) : State :=
  let e := s.engOf n
  let ask := e.fetch.isNone && e.priming.isNone
  let s := if ask then s.memArrive else s
  let e := if ask then { e with fetch := some (e.next, min 16 (e.len - e.next)) } else e
  if e.state = .starved then s.setEng n e
  else ((s.stick f_CH_SWEEP_EVENTS_starved n).tally f_CH_SWEEP_STARVE_COUNT_count 1 n).setEng n { e with state := .starved }

/-- The next entry index; a target that the buffer does not hold discards it and refetches from there (R158, R170). -/
def Eng.goTo (e : Eng) (d : Nat) : Eng :=
  if (e.entry? d).isSome then { e with next := d }
  else { e with next := d, bufLo := d, buf := [], fetch := some (d, min 16 (e.len - d)) }

/-- The jump of R158: frames whose body does not hold the target are popped. -/
def Eng.jump (e : Eng) (d : Nat) : Eng :=
  { e with stack := e.stack.dropWhile fun f => ! decide (f.target ≤ d ∧ d ≤ f.index) }.goTo d

/-- A LOOP entry at index `i` (R158); none for a fifth nested loop. The innermost frame is the first. -/
def Eng.loop (e : Eng) (i target count : Nat) : Option Eng :=
  let push := if count = 0 then some { e with next := i + 1 }
    else if 4 ≤ e.stack.length then none
    else some ({ e with stack := ⟨i, target, count⟩ :: e.stack }.jump target)
  match e.stack with
  | f :: rest =>
    if f.index ≠ i then push
    else if f.left = 0xFFFF then some (e.jump target)
    else if f.left = 1 then some { e with stack := rest, next := i + 1 }
    else some ({ e with stack := { f with left := f.left - 1 } :: rest }.jump target)
  | [] => push

/-! ## Arming (R57, R58, R148 to R153) -/

/-- A late anchor is counted under every policy (R58, R152). -/
def State.countLate (s : State) (n k : Nat) : State :=
  ((s.tally f_CH_SWEEP_LATE_COUNT_count k n).tally f_TB_LATE_COUNT_count k).stick f_TB_EVENTS_late

/-- Points `j` to `j + k - 1` of a mould, read through port P1 (R169). -/
def State.pointsRead (s : State) (base j k : Nat) : State × List (Option Int) :=
  let a := base + 4 * j
  let r := s.memArrive.memRead (portMaster 1) 1 a (4 * k) []
  (r.1, (List.range k).map fun i =>
    if r.2.contains ((a + 4 * i) / 32 - a / 32) then none else some (signed 24 (leNat (r.1.hbmBytes (a + 4 * i) 3))))

/-- Fill the mould buffer of 256 points: with the whole mould where it fits, else with the points from number `k` on; a word held is not
read again (R142, R169, notes/assumptions/100.md). -/
def State.mouldFill (s : State) (x : Exec) (k : Nat) : State × Exec :=
  if x.mLen ≤ 256 then
    if x.mCodes = [] then
      let r := s.pointsRead x.mBase 0 x.mLen
      (r.1, { x with mLo := 0, mCodes := r.2 })
    else (s, x)
  else
    let held := x.mCodes.drop (k - x.mLo)
    let next := (k + held.length) % x.mLen
    let r := s.pointsRead x.mBase next (min (256 - held.length) (x.mLen - next))
    (r.1, { x with mLo := k, mCodes := held ++ r.2 })

/-- The code that the mould buffer holds for point `k`. -/
def Exec.codeAt (x : Exec) (k : Nat) : Option Int :=
  if x.mLen ≤ 256 then x.mCodes.getD (k % x.mLen) none else x.mCodes.getD (k - x.mLo) none

/-- A new execution, which begins with point `first` of its mould. -/
def State.newExec (s : State) (i ord first : Nat) (w : BitVec 128) (start : When) (target : RTime) : State × Exec :=
  let m := s.mouldDesc (sMould w)
  let x : Exec :=
    { idx := i, ord, word := w, start, target, lookDone := false, endAt := none, mBase := if sPlays w then m.2.1 else 0,
      mLen := if sPlays w then m.2.2 else 1, point := first, points := [], placed := 0, mLo := first, mCodes := [], timedOut := false }
  if sPlays w then s.mouldFill x first else (s, x)

/-- Line periods by which raster time has passed a target that it is late for, rounded up: so many points of a per-line mould are late. -/
def lateLines (excess : Int) : Nat := ((excess + (2 ^ 32 - 1)) / 2 ^ 32).toNat

/-- Add an execution to those armed. -/
def State.addPlan (s : State) (n : Nat) (x : Exec) : State :=
  let e := s.engOf n
  s.setEng n { e with plan := e.plan ++ [x], next := x.idx }

/-- Arm execution `ord` of the timed entry at index `i`. With `free` an unanchored one starts at the first DAC frame boundary at
least 300 ns ahead (R153, R171, R173). True if the entry is skipped with its executions still to run: all of them are armed in
this event cycle and late alike (R152); of a per-line mould only the points that are late are skipped (R165). -/
def State.arm (s : State) (n i ord : Nat) (w : BitVec 128) (free : Bool) : State × Bool :=
  let begin_ := fun (s : State) (first : Nat) (start : When) (t : RTime) =>
    let x := s.newExec i ord first w start t
    x.1.addPlan n x.2
  let add := fun (s : State) (start : When) (t : RTime) => begin_ s 0 start t
  if ! sAnc w then
    let e := s.engOf n
    let start : When :=
      if free then .at (s.boundaryFrom n (s.now + ns 300))
      else match e.last with | some x => (s.endOf x).getD (.at s.now) | none => s.markDue n
    (add (s.closeLast n none) start RTime.zero, false)
  else if ! s.tb.ready then (add s .ready RTime.zero, false)
  else
    let u := s.armAt n
    let t := s.anchorTarget u w
    if s.lateBy u t ≤ 0 then (add (s.closeLast n (some (.raster t))) (.raster t) t, false)
    else
      match s.fld f_CH_SWEEP_CTL_late_policy n with
      | 1 =>
        let x := (s.newExec i ord 0 w .ready t).2
        let lines := sPlays w && decide (sPlay w = 1)
        let miss := lateLines (s.lateBy u t)
        let past := ! lines || (match x.total with | some m => decide (m ≤ miss) | none => false)
        let k := match lines, x.total with
          | true, some m => min miss m
          | true, none => miss
          | false, _ => if sPlays w ∨ sOp w = 6 then 1 else sRepeat w + 1 - ord
        let s := (s.countLate n k).stick f_CH_SWEEP_EVENTS_skipped n
        if past then (s, true)
        else
          let start := When.raster (rtAdd s.lines t 0 miss 0)
          (begin_ (s.closeLast n (some start)) miss start t, false)
      | 2 => ((((s.countLate n 1).closeLast n none)).askStop n 8 (.at s.now), false)
      | _ =>
        let start := When.at (u + ns 300)
        (add (((s.countLate n 1).closeLast n (some start)).stick f_CH_SWEEP_EVENTS_late n) start t, false)

/-! ## Control entries (R150, R153, R154, R158 to R160, R163) -/

/-- An entry is invalid (R163); a field marked 0 in Table 5-5 is ignored (R145). `ok`: its mould descriptor could be read. -/
def State.entryInvalid (s : State) (w : BitVec 128) (i len : Nat) (ok : Bool) : Bool :=
  sReserved w i len || (s.dev.forerunner && sAnc w && decide (1 ≤ sOp w ∧ sOp w ≤ 6)) ||
    (sPlays w && ! (ok && (s.mouldDesc (sMould w)).1))

/-- Go through the list from the engine's next entry: execute at most `c` control entries and arm the first timed entry. -/
def State.walk (n : Nat) (free bad : Bool) : Nat → Nat → State → State
  | 0, _, s => s
  | k + 1, c, s =>
    let e := s.engOf n
    let i := e.next
    let put := fun (e : Eng) (s : State) => s.setEng n e
    if e.len ≤ i then (s.askStop n 2 (s.markDue n)).closeLast n none
    else
      match e.entry? i with
      | none => s.starve n
      | some w =>
        let d := if sPlays w then s.descRead 1 1 (sMould w) bad else (s, true)
        let s := d.1
        if s.entryInvalid w i e.len d.2 then (s.invalidEntry n i).closeLast n none
        else if sControl w ∧ c = 0 then (put { e with stall := true } s).stick f_CH_SWEEP_EVENTS_ctl_stall n
        else
          match sOp w with
          | 0 =>
            let e := if sValue w % 2 = 1 then { e with marks := e.marks ++ [⟨0xFFFF, false, s.markDue n⟩] } else e
            ((put e s).askStop n 1 (s.markDue n)).closeLast n none
          | 7 =>
            match e.loop i (sValue w) (sRepeat w) with
            | none => (s.askStop n 9 (.at s.now)).closeLast n none
            | some e => State.walk n free bad k (c - 1) (put e s)
          | 8 => put { e with branch := some (c - 1, free, bad) } s
          | _ =>
            if sControl w then
              State.walk n free bad k (c - 1)
                (put { e with next := i + 1, marks := e.marks ++ [⟨sValue w % 65536, sTrig w, s.markDue n⟩] } s)
            else
              let r := s.arm n i 0 w free
              if r.2 then State.walk n free bad k c (r.1.setEng n { r.1.engOf n with next := i + 1 }) else r.1

/-- The walk goes on with at most `c` control entries; a refetch that it begins arrives at port P0 (R158, R170). -/
def State.walkOn (s : State) (n c : Nat) (free bad : Bool) : State :=
  let t := State.walk n free bad 1200 c s
  let asked := (t.engOf n).fetch
  let t := if asked.isSome ∧ asked ≠ (s.engOf n).fetch then t.memArrive else t
  t.topUp n

/-- A BRANCH_DECKLE tests and clears the latch as the event cycle of its look-ahead point ends, when every hit of the cycle is known
(R159, Table 5-8); the entries that follow run in the same cycle. -/
def State.branchTest (n : Nat) : Nat → State → State
  | 0, s => s
  | k + 1, s =>
    let e := s.engOf n
    match e.branch with
    | none => s
    | some (c, free, bad) =>
      let e := { e with branch := none, latch := false }
      if e.state = .idle ∨ e.stop.isSome then s.setEng n e
      else
        let d := match e.entry? e.next with | some w => sValue w | none => 0
        let e := if (s.engOf n).latch then e.jump d else { e with next := e.next + 1 }
        State.branchTest n k ((s.setEng n e).walkOn n c free bad)

/-- Assert marks: the source once, the code of the last, the count by one each, and the agent's item for each. -/
def State.assertMarks (s : State) (n : Nat) (l : List Mark) : State :=
  match l with
  | [] => s
  | _ =>
    let s := s.each l fun m s =>
      let e := s.engOf n
      let k := (e.markCount + 1) % 65536
      let s := s.setEng n { e with markCode := m.code, markCount := k }
      let s := s.agentItem (n / 64) 0x10 (f64 m.code 1) (BitVec.ofNat 32 (n + k * 65536))
      if m.trig then s.deliverTrigger n (((s.whenAt m.due).getD s.now)) else s
    s.assertSrc (srcMark n)

/-- Marks whose instant has come. -/
def State.dueMarks (s : State) (n : Nat) : State :=
  let e := s.engOf n
  let due := e.marks.filter fun m => s.came m.due
  if due = [] then s else (s.setEng n { e with marks := e.marks.filter fun m => ! s.came m.due }).assertMarks n due

/-- The stop takes effect (R175); a host stop with stop_zero commands 0 V. -/
def State.takeStop (s : State) (n reason : Nat) : State :=
  let s := ((s.stickIf (decide (reason = 2)) f_CH_SWEEP_EVENTS_ran_off n).keepPlays n).haltEngine n reason
  if reason = 4 ∧ s.on f_CH_SWEEP_CTL_stop_zero n then
    let x := (s.forceOf n).view s.now
    let c : ForceCmd := ⟨false, x.span, x.range, 0, false⟩
    if s.forceRefused n c false then s.refuseForce n none else s.acceptForce n c
  else s

/-- What comes at its own instant: marks, and the stop of END or of the list's end (R154, R160). -/
def State.sweepInstant (s : State) (n : Nat) : State :=
  let s := s.dueMarks n
  match (s.engOf n).stop with
  | some (r, w) => if (r = 1 ∨ r = 2) ∧ s.came w then s.takeStop n r else s
  | none => s

/-- The walk of one look-ahead point or boundary: 16 control entries (R153); marks whose instant has come assert in the same event cycle. -/
def State.controls (s : State) (n : Nat) (free bad : Bool) : State :=
  ((s.setEng n { s.engOf n with stall := false }).walkOn n 16 free bad).sweepInstant n

/-- The executions after the last one: its remaining executions, else the entries that follow (R150, R151). -/
def State.follow (s : State) (n : Nat) (x : Exec) (bad : Bool) : State :=
  let w := x.word
  let expired := sWaits w && (x.endAt.isNone || decide (x.endAt = s.timeoutOf x))
  let more := (sDwells w || decide (sOp w = 4)) && decide (x.ord < sRepeat w) && ! expired
  let on := fun s : State => (s.setEng n { s.engOf n with next := x.idx + 1 }).controls n false bad
  if more then
    let r := s.arm n x.idx (x.ord + 1) w false
    if r.2 then on r.1 else r.1
  else on s

/-- The event cycle of the look-ahead point of an execution; none while its end is not known (R148, R149). -/
def State.lookCycle (s : State) (x : Exec) : Option Nat :=
  match s.endOf x with | some w => (s.whenAt w).map fun u => (u - ns 300) / 256 | none => none

/-- The first execution of a start at frame is issued 300 ns before the start instant; its look-ahead point may lie before that
instant (R149). Nothing else is armed before the start instant (R173). With priming not complete by then the first entry is starved. -/
def State.issueEarly (s : State) (n : Nat) (bad : Bool) : State :=
  let e := s.engOf n
  match e.state, e.frame, e.priming, e.plan with
  | .armed, some f, some _, _ => if ! s.tb.ready ∨ s.lateBy s.cycleArm ⟨f, 0, 0⟩ < 0 then s else s.starve n
  | .armed, some f, none, [] =>
    if ! s.tb.ready ∨ s.lateBy s.cycleArm ⟨f, 0, 0⟩ < 0 then s
    else
      let s' := s.controls n false bad
      match (s'.engOf n).plan with
      | [x] =>
        let near : Bool := match s'.lookCycle x with | some c => decide (c ≤ s.cycle) | none => false
        if ! sAnc x.word ∧ near then s' else s
      | _ => s
  | _, _, _, _ => s

/-- The look-ahead point of the last execution (R150). -/
def State.lookAhead (s : State) (n : Nat) (bad : Bool) : State :=
  let s := s.issueEarly n bad
  let e := s.engOf n
  if e.state = .idle ∨ e.state = .starved ∨ e.stop.isSome ∨ e.stall then s
  else
    match e.last with
    | none => s
    | some x =>
      match s.lookCycle x with
      | none => s
      | some c =>
        if x.lookDone ∨ s.cycle < c then s
        else (s.setEng n (e.mapLast fun x => { x with lookDone := true })).follow n x bad

/-! ## DAC frame boundaries -/

/-- What the engine does at a DAC frame boundary: marks, a stop, control entries left over (R153, R154, R175). -/
def State.sweepBoundary (s : State) (n : Nat) : State :=
  let s := s.dueMarks n
  let e := s.engOf n
  match e.stop with
  | some (r, w) => if s.came w then s.takeStop n r else s
  | none => if e.stall then s.controls n true false else s

/-- Whether an execution or a mould point is due, so that its start begins the next DAC frame (R147). -/
def State.startDue (s : State) (n : Nat) : Bool :=
  let e := s.engOf n
  decide (e.state ≠ .idle) && decide (e.state ≠ .armed) &&
    ((match e.plan with | x :: _ => s.came x.start | [] => false) ||
     (match e.cur with | some x => (match x.points with | p :: _ => s.came p.2 | [] => false) | none => false))

/-- Frames of the calender that a new DAC frame at `b` ends: the frame in progress counts as one. -/
def State.framesTo (s : State) (n b : Nat) : Nat :=
  let a := (s.forceOf n).frameAt
  if b ≤ a then 0 else (b - a + 65535) / 65536

/-- A start instant `b` begins a DAC frame: the grid goes on from there (R147). -/
def State.rephase (s : State) (n b : Nat) : State := s.setForce n { s.forceOf n with frameAt := b }

/-! ## Mould points (R165 to R169) -/

/-- What a point that starts at `b` makes known of the points after it: their starts. -/
def State.nextPoints (s : State) (n : Nat) (x : Exec) (k b : Nat) : State :=
  let e := s.engOf n
  let more := fun j : Nat => match x.total with | none => true | some m => decide (j < m)
  let put := fun (s : State) (l : List (Nat × When)) => s.setEng n { s.engOf n with cur := some { x with points := x.points ++ l } }
  match sPlay x.word with
  | 0 => if more (k + 1) then
      match x.start with
      | .at u => put s [(k + 1, .at (u + (k + 1) * (sDwell x.word + 1) * 65536))]
      | _ => put s []
    else put s []
  | 1 =>
    if ! more (k + 1) then put s []
    else
      let t := rtAdd s.lines x.target 0 (k + 1) 0
      let excess := s.lateBy s.cycleArm t
      if excess ≤ 0 then put s [(k + 1, .raster t)]
      else
        match s.fld f_CH_SWEEP_CTL_late_policy n with
        | 1 =>
          let miss := lateLines excess
          let miss := match x.total with | none => miss | some m => min miss (m - (k + 1))
          let s := (s.countLate n miss).stick f_CH_SWEEP_EVENTS_skipped n
          if more (k + 1 + miss) then put s [(k + 1 + miss, .raster (rtAdd s.lines x.target 0 (k + 1 + miss) 0))] else put s []
        | 2 => ((s.setEng n { e with cur := some x }).countLate n 1).askStop n 8 (.at s.now)
        | _ => put ((s.countLate n 1).stick f_CH_SWEEP_EVENTS_late n) [(k + 1, .at (max b (s.cycle * 256) + ns 300))]
  | _ => put s []

/-- A command that the engine issues: accepted, or the engine stops with REFUSED (R162). -/
def State.engineForce (s : State) (n : Nat) (c : ForceCmd) : State :=
  if s.forceRefused n c false then (s.refuseForce n none).askStop n 7 (.at s.now) else s.acceptForce n c

/-- The deckle field of an entry is written to CH_DECKLE (R156). -/
def State.entryDeckle (s : State) (n : Nat) (w : BitVec 128) : State :=
  s.wr .CH_DECKLE (BitVec.ofNat 32 (sDeckle w * 65537)) n

/-- Point `k`, counted over all plays, of the mould in play starts at `b` (R155, R168, R169); `bad`: its word is reported as uncorrectable.
`first`: it is the first point that the execution issues, which carries the entry's command. -/
def State.playPoint (s : State) (n : Nat) (x0 : Exec) (k b : Nat) (first bad : Bool) : State :=
  let w := x0.word
  let j := k % x0.mLen
  let a := x0.mBase + 4 * j
  let s := if bad then (s.spoil a 4).uncorrectable 1 a else s
  let m := s.mouldFill x0 k
  let s := m.1
  let x := { m.2 with point := k }
  let held := if bad then none else x.codeAt k
  let bad := held.isNone
  let code := held.getD 0
  let e := s.engOf n
  let s := s.setEng n { e with cur := some x, pos := BitVec.ofNat 32 (j % 256 * 2 ^ 24 + x.idx), mould := sMould w, point := j,
                               plays := k / x.mLen }
  let s := if sPointTrig w ∨ (k = 0 ∧ sTrig w) then s.deliverTrigger n b else s
  let s :=
    if ! bad then s
    else
      let d := s.detect 0x302 1 (.channel n) (0x1100 + n / 64)
      (s.stick f_CH_SWEEP_EVENTS_mould_error n).log
        { d with access := 3, addr := s.node * 2 ^ 36 + a, arg0 := j, arg1 := sMould w }
  let s :=
    if first then
      let c := if bad then (s.forceOf n).present else code
      (s.entryDeckle n w).engineForce n ⟨sMouldMode w, sSpan w, sRange w, c, sFast w⟩
    else if bad then s
    else s.engineForce n { ForceCmd.ofWord (s.rd .CH_FORCE_SET n) with code, fast := sFast w }
  s.nextPoints n x k b

/-- A mould point whose start has come (R165). -/
def State.mouldPoint (s : State) (n : Nat) (meas : Int) (bad : Bool) : State :=
  let e := s.engOf n
  match e.state, e.cur with
  | .idle, _ => s
  | _, none => s
  | _, some x =>
    match x.points with
    | [] => s
    | (k, w) :: rest =>
      if ! s.came w then s
      else
        let b := min s.now ((s.whenAt w).getD s.now)
        let f := s.framesTo n b
        let s := (s.rephase n b).sweepBoundary n
        if (s.engOf n).state = .idle then s.dacBoundary n b f meas
        else (s.playPoint n { x with points := rest } k b false bad).dacBoundary n b f meas

/-! ## Executions (R147, R155, R156, R162) -/

/-- The first execution armed starts (R156); `bad` is for point 0 of a mould. -/
def State.startExec (s : State) (n : Nat) (meas : Int) (bad : Bool) : State :=
  let e := s.engOf n
  match e.plan with
  | [] => s
  | x0 :: rest =>
    if e.state = .idle ∨ e.state = .armed ∨ ! s.came x0.start then s
    else
      let b := min s.now ((s.whenAt x0.start).getD s.now)
      let f := s.framesTo n b
      let s := (s.rephase n b).sweepBoundary n
      if (s.engOf n).state = .idle then s.dacBoundary n b f meas
      else
        let s := s.keepPlays n
        let e := s.engOf n
        let w := x0.word
        let x := { x0 with start := .at b, placed := 1 }
        let s := s.setEng n { e with cur := some x, plan := rest, pos := BitVec.ofNat 32 (x.ord % 256 * 2 ^ 24 + x.idx) }
        let s := if sPsel w ∧ sOp w ≠ 6 then s.setFld f_CH_MEAS_CTL_profile (sPnum w) n else s
        let s := if sTrig w ∧ ! sPlays w ∧ sOp w ≠ 6 then s.deliverTrigger n b else s
        let s :=
          match sOp w with
          | 1 => (s.entryDeckle n w).engineForce n ⟨false, sSpan w, sRange w, signed 24 (sValue w), sFast w⟩
          | 2 => (s.entryDeckle n w).engineForce n ⟨true, sSpan w, sRange w, signed 24 (sValue w), sFast w⟩
          | 5 => s.playPoint n x x.point b true bad
          | 6 => s.assertMarks n [⟨sValue w % 65536, sTrig w, .at b⟩]
          | _ => s
        (s.topUp n).dacBoundary n b f meas

/-! ## Advances (R157, R166, R167) -/

/-- The task inputs of channel `n` (Table 7-4). -/
def inStart (n : Nat) : Nat := 3 * n
def inAdvance (n : Nat) : Nat := 3 * n + 1
def inRestart (n : Nat) : Nat := 3 * n + 2

/-- One pending advance is consumed, if the execution in force takes it in this event cycle. -/
def State.consumeAdvance (s : State) (n : Nat) : State :=
  let e := s.engOf n
  match e.cur with
  | none => s
  | some x =>
    let ended : Bool := match s.endOf x with | some w => s.came w | none => false
    let take := sWaits x.word || (sPlays x.word && decide (sPlay x.word = 2))
    if e.state = .idle ∨ e.stopCycle = some s.cycle ∨ ! take ∨ ended ∨ x.endAt.isSome ∨ s.pendOf (inAdvance n) = 0 ∨ e.advCycle = some s.cycle then s
    else
      let s := s.setPend (inAdvance n) (s.pendOf (inAdvance n) - 1)
      let u := s.afterCycle 300
      let x :=
        if sWaits x.word then
          match s.timeoutOf x with
          | some (.at v) => if v < u then { x with endAt := some (.at v) } else { x with endAt := some (.at u) }
          | _ => { x with endAt := some (.at u) }
        else
          match x.total with
          | some m => if m ≤ x.placed then { x with endAt := some (.at u) }
                      else { x with points := x.points ++ [(x.placed, .at u)], placed := x.placed + 1 }
          | none => { x with points := x.points ++ [(x.placed, .at u)], placed := x.placed + 1 }
      s.setEng n { e with cur := some x, advCycle := some s.cycle }

/-- The timeout of a WAIT_ANCHOR (R157). -/
def State.waitTimeout (s : State) (n : Nat) : State :=
  let e := s.engOf n
  match e.cur with
  | none => s
  | some x =>
    match s.timeoutOf x with
    | none => s
    | some w =>
      if e.state = .idle ∨ x.timedOut ∨ (x.endAt.isSome ∧ x.endAt ≠ some w) ∨ ! s.came w then s
      else (s.stick f_CH_SWEEP_EVENTS_wait_timeout n).setEng n { e with cur := some { x with endAt := some w, timedOut := true } }

/-! ## Starts (R161, R172 to R174, R177) -/

/-- The engine returns to IDLE without having run. -/
def State.cancelStart (s : State) (n reason : Nat) : State :=
  (s.stick f_CH_SWEEP_EVENTS_stopped n).setEng n
    { s.engOf n with state := .idle, reason, priming := none, frame := none, buf := [], fetch := none, plan := [], cur := none,
                     marks := [], stop := none, stall := false, branch := none, pos := 0xFFFFFFFF, prior := none }

def State.startFault (s : State) (n : Nat) : State := s.fault 0x301 1 (.channel n) (0x1100 + n / 64)

/-- The list that the engine is to run from CH_SWEEP_ENTRY on; `read`: its descriptor could be read. -/
def State.useList (s : State) (n k : Nat) (read : Bool) : State :=
  let i := s.fld f_CH_SWEEP_ENTRY_entry n
  let d := s.listDesc k
  let ok := d.1 && read
  s.setEng n { s.engOf n with list := k, ok, base := d.2.1, len := if ok then d.2.2 else 0, next := i, bufLo := i, buf := [],
                              fetch := none, branch := none }

/-- Read the descriptor of list `k`, for priming from CH_SWEEP_ENTRY; one whose read is uncorrectable counts as not valid (R172). -/
def State.loadList (s : State) (n k : Nat) : State :=
  let r := s.descRead 0 0 k false
  r.1.useList n k r.2

/-- The list named by CH_SWEEP_LIST. -/
def State.selectList (s : State) (n : Nat) : State := s.loadList n (s.fld f_CH_SWEEP_LIST_list n)

/-- Running begins at the start instant, now (R173); the first entry is armed. -/
def State.beginRun (s : State) (n : Nat) (free bad : Bool) : State :=
  (s.setEng n { s.engOf n with state := .running, priming := none }).controls n free bad

/-- The frame of a start at frame lies in the past (R172). -/
def State.frameMissed (s : State) (f : Nat) : Bool := s.tb.ready && rtBefore ⟨f, 0, 0⟩ s.raster

def State.missStart (s : State) (n : Nat) : State := ((s.cancelStart n 0xB).stick f_CH_SWEEP_EVENTS_start_missed n).startFault n

/-- Whether the channel's state refuses a start (R172). -/
def State.startBarred (s : State) (n : Nat) : Bool :=
  let x := s.forceOf n
  decide (x.st = .detached) || decide (x.st = .safe) || ! s.on f_CH_CTL_enable n || x.disabling

/-- A start by register or task input (R161, R172, Table 5-8); `bad`: the list descriptor's read is reported as uncorrectable. R161 names an
event bit `done`, which the register table does not hold: a start on an empty list sets `empty` and `stopped` (notes/assumptions/101.md). -/
def State.startEngine (s : State) (n : Nat) (bad : Bool) : State :=
  let e := s.engOf n
  let k := s.fld f_CH_SWEEP_LIST_list n
  let refuse := fun s : State => (s.stick f_CH_SWEEP_EVENTS_start_refused n).startFault n
  if e.stopCycle = some s.cycle ∨ (e.state ≠ .idle ∧ e.state ≠ .primed) then s.stick f_CH_SWEEP_EVENTS_start_ignored n
  else if s.startBarred n then refuse s
  else
    let d := s.descRead 0 0 k bad
    let s := d.1
    let e := s.engOf n
    if s.startBarred n ∨ ! d.2 ∨ ! (s.listDesc k).1 then refuse s
    else
      let primed := decide (e.state = .primed) && e.priming.isNone && decide (e.list = k) && decide (e.next = s.fld f_CH_SWEEP_ENTRY_entry n)
      let s := s.setEng n { e with stack := [], latch := false, reason := 0, startCycle := some s.cycle, cur := none, plan := [],
                                   marks := [], stall := false, branch := none, pos := 0xFFFFFFFF, advCycle := none, frame := none,
                                   prior := some (decide (e.state = .primed), e.reason, e.list, s.pendOf (inAdvance n)) }
      let s := s.setPend (inAdvance n) 0
      let s := if primed then s else s.useList n k true
      let f := s.fld f_CH_SWEEP_AT_frame n
      if (s.engOf n).len = 0 then (s.stick f_CH_SWEEP_EVENTS_empty n).cancelStart n 3
      else if s.on f_CH_SWEEP_CTL_start_mode n then
        if s.frameMissed f then s.missStart n
        else s.setEng n { s.engOf n with state := .armed, frame := some f, priming := if primed then none else some .startAt }
      else if primed then s.beginRun n true false
      else s.setEng n { s.engOf n with state := .armed, priming := some .startNow }

/-- PRIME in IDLE (R174). -/
def State.primeEngine (s : State) (n : Nat) : State :=
  if (s.engOf n).state ≠ .idle then s
  else
    let s := s.selectList n
    s.setEng n { s.engOf n with priming := some .prime }

/-- A write to CH_SWEEP_LIST or CH_SWEEP_ENTRY primes again in PRIMED, and in ARMED until the first execution's issue instant
(R174). -/
def State.reprime (s : State) (n : Nat) : State :=
  let e := s.engOf n
  let again := fun (p : Priming) =>
    let s := s.selectList n
    s.setEng n { s.engOf n with priming := some p, plan := [], marks := [] }
  match e.state with
  | .idle => if e.priming.isSome then again .prime else s
  | .primed => again .prime
  | .armed =>
    match e.frame with
    | none => again .startNow
    | some f => if s.tb.ready ∧ 0 ≤ s.lateBy s.cycleArm ⟨f, 0, 0⟩ then s else again .startAt
  | _ => s

/-- Priming is complete: the buffer holds 16 entries or the rest of the list (R172). -/
def State.primingDone (s : State) (n : Nat) (bad : List Nat) : State :=
  let e := s.engOf n
  match e.priming with
  | none => s
  | some p =>
    let k := min 16 (e.len - e.next)
    let load :=
      let r := s.fetched e.base e.next k bad
      (r.1.setEng n { e with buf := r.2, bufLo := e.next, fetch := none, priming := none }).topUp n
    let refuse := ((s.cancelStart n 0).stick f_CH_SWEEP_EVENTS_start_refused n).startFault n
    match p with
    | .prime => load.setEng n { load.engOf n with state := .primed }
    | .startNow =>
      if ! e.ok then refuse
      else if e.len = 0 then (s.stick f_CH_SWEEP_EVENTS_empty n).cancelStart n 3
      else load.beginRun n true (bad.contains 64)
    | .startAt =>
      if ! e.ok then refuse
      else if e.len = 0 then (s.stick f_CH_SWEEP_EVENTS_empty n).cancelStart n 3
      else if e.state = .starved then
        (load.setEng n { load.engOf n with state := if e.frame.isSome then .armed else .running }).controls n true (bad.contains 64)
      else
        match e.frame with
        | none => load
        | some f =>
          if s.tb.ready ∧ 0 ≤ s.lateBy s.cycleArm ⟨f, 0, 0⟩ then
            ((load.starve n).setEng n { (load.starve n).engOf n with state := .armed }).controls n true (bad.contains 64)
          else load

/-- The start instant of a start at frame (R149, R172, R173). -/
def State.startInstant (s : State) (n : Nat) : State :=
  let e := s.engOf n
  match e.state, e.frame with
  | .starved, some f => if s.came (.raster ⟨f, 0, 0⟩) then s.setEng n { e with frame := none } else s
  | .armed, some f =>
    if ! s.came (.raster ⟨f, 0, 0⟩) then s
    else if e.priming.isSome then (s.setEng n { e with frame := none }).starve n
    else if e.plan ≠ [] ∨ e.stop.isSome ∨ e.stall then s.setEng n { e with state := .running, frame := none }
    else
      let s := s.beginRun n false false
      s.setEng n { s.engOf n with frame := none }
  | _, _ => s

/-- Fetched entries arrive (R170, R171). -/
def State.prefetchArrival (s : State) (n : Nat) (bad : List Nat) : State :=
  let e := s.engOf n
  match e.fetch with
  | none => s
  | some (i, k) =>
    let r := s.fetched e.base i k bad
    let got := r.2
    let s := r.1
    let e := if i = e.bufLo + e.buf.length then { e with buf := e.buf ++ got, fetch := none } else { e with bufLo := i, buf := got, fetch := none }
    let s := (s.setEng n e).topUp n
    if e.state = .starved ∧ e.stop.isNone ∧ (e.entry? e.next).isSome then
      (s.setEng n { s.engOf n with state := if e.frame.isSome then .armed else .running }).controls n true (bad.contains 64)
    else s

/-- A start of this event cycle is undone by a stop in it: the engine is as the start found it (Table 5-8). -/
def State.undoStart (s : State) (n : Nat) : State :=
  let e := s.engOf n
  match e.prior with
  | none => s
  | some (primed, reason, list, adv) =>
    let s := s.setPend (inAdvance n) adv
    let e := { e with reason, list, startCycle := none, prior := none, priming := none, frame := none, plan := [], marks := [], stall := false,
                      branch := none, pos := 0xFFFFFFFF, state := if primed then .primed else .idle }
    s.setEng n (if primed then e else { e with buf := [], fetch := none })

/-- A host stop (R175, Table 5-8): it takes effect at the next DAC frame boundary, in PRIMED and ARMED too. -/
def State.stopEngine (s : State) (n : Nat) : State :=
  let e := s.engOf n
  let s := if e.startCycle = some s.cycle ∧ e.prior.isSome then (s.stick f_CH_SWEEP_EVENTS_start_ignored n).undoStart n else s
  let s := s.setEng n { s.engOf n with stopCycle := some s.cycle }
  s.askStop n 4 (.at s.now)

/-- A resumed start after a release from SAFE (R177). -/
def State.resumeEngine (s : State) (n : Nat) : State :=
  let e := s.engOf n
  if s.on f_CH_SWEEP_CTL_auto_resume n ∧ e.state = .idle ∧ e.reason = 6 ∧ e.resume then
    let mode := s.fld f_CH_SWEEP_CTL_start_mode n
    let s := (s.setFld f_CH_SWEEP_CTL_start_mode 0 n).startEngine n false
    let ran := decide ((s.engOf n).startCycle = some s.cycle)
    (s.stickIf ran f_CH_SWEEP_EVENTS_resumed n).setFld f_CH_SWEEP_CTL_start_mode mode n
  else s

/-- raster_ready becomes 1: start frames already past are missed, anchors that wait are judged (R59, R172). -/
def State.engineReady (s : State) (n : Nat) : State :=
  let e := s.engOf n
  match e.state, e.frame with
  | .armed, some f => if s.frameMissed f then s.missStart n else s
  | _, _ =>
    match e.plan.getLast? with
    | none => s
    | some x =>
      if x.start ≠ .ready then s
      else
        let s := s.setEng n { e with plan := e.plan.dropLast }
        let r := s.arm n x.idx x.ord x.word false
        if r.2 then (r.1.setEng n { r.1.engOf n with next := x.idx + 1 }).controls n false false else r.1

/-- CH_SWEEP_STATUS.state: WAITING between the end of one execution and the start of an anchored one (R150). -/
def State.shownState (s : State) (n : Nat) : EngState :=
  let e := s.engOf n
  match e.state, e.cur, e.plan with
  | .running, some x, p :: _ =>
    let past : Bool := ! x.open_ && (match s.endOf x with | some w => s.came w | none => false)
    if past ∧ sAnc p.word ∧ ! s.came p.start then .waiting else .running
  | .starved, _, _ => if e.frame.isSome then .armed else .starved
  | st, _, _ => st

/-- A deckle hit sets the latch while the engine is not IDLE (R159). -/
def State.latchHit (s : State) (n : Nat) : State :=
  let e := s.engOf n
  if e.state = .idle then s else s.setEng n { e with latch := true }

end Sys2Proof.Machine
end

