-- ==== Sys2Proof/Machine/TimeOps.lean ====
section
/-!
DEFINITION. The raster timebase: the passing of time, edges and beats, qualification, lock, loss and slewing, link delays, and the
global anchor generators (R39 to R62, R77).
-/

namespace Sys2Proof.Machine

open Sys2Proof

/-! ## Global anchor generators (R57, R60, R61, R395) -/

def genMode (s : State) (k : Nat) : Nat := s.fld f_TB_ANCHOR_CTL_mode k
def genN (s : State) (k : Nat) : Nat := s.fld f_TB_ANCHOR_CTL_n k

/-- The committed target pair of generator `k`. -/
def State.genPair (s : State) (k : Nat) : RTime := RTime.ofWords (s.rd .TB_ANCHOR_TARGET_LO k) (s.rd .TB_ANCHOR_TARGET_HI k)

/-- `n` lines after `t`, repeatedly, until it does not lie before `r`. -/
def State.occurrence (s : State) (t r : RTime) (n : Nat) : RTime :=
  let d := rtDiff s.lines t r
  if d ≤ 0 then t
  else rtAdd s.lines t 0 ((d.toNat + n * 65536 - 1) / (n * 65536) * n) 0

/-- The target that a generator armed now compares with: the first one for a periodic mode (Table 2-6, R60, R395). -/
def State.genTarget (s : State) (k : Nat) : RTime :=
  let L := s.lines
  let r := s.raster
  let o := s.genPair k
  let inFrame := fun f : Nat => rtAdd L ⟨f, 0, 0⟩ 0 o.line o.phase
  match genMode s k with
  | 0 => inFrame o.frame
  | 1 => let t := inFrame r.frame; if rtBefore t r then rtAdd L t 1 0 0 else t
  | 2 => rtAdd L ⟨r.frame, r.line, 0⟩ o.frame o.line o.phase
  | 3 => rtAdd L ⟨r.frame, 0, 0⟩ o.frame o.line o.phase
  | 4 => s.occurrence ⟨r.frame, r.line, o.phase⟩ r 1
  | 5 => s.occurrence ⟨r.frame, o.line, o.phase⟩ r L
  | _ => s.occurrence (inFrame o.frame) r (max 1 (genN s k))

/-- The target of an armed generator is judged (R59, R60): a one-shot target in the past fires late in the next event cycle, a
frame-absolute one equal to raster time fires there too and is not late. -/
def State.judgeGen (s : State) (k : Nat) : State :=
  let g := s.genOf k
  let t := s.genTarget k
  let shot := decide (genMode s k < 4)
  let late := shot && rtBefore t s.raster
  let same := decide (genMode s k = 1) && decide (t = s.raster)
  s.setGen k { g with waiting := false, target := t, since := s.cycle, due := if late || same then some (s.cycle + 1) else none,
                      dueLate := late }

/-- Arm generator `k` by a write or its task input (R61); `m` is the requester, named by a refusal, `link` the assertion whose
chain carried a firing. -/
def State.armGen (s : State) (m k : Nat) (link : Option Assertion) : State :=
  let g := s.genOf k
  let refused := decide (genMode s k = 7) || (decide (genMode s k = 6) && decide (genN s k = 0)) ||
    (decide (genMode s k = 5) && decide (s.lines ≤ (s.genPair k).line))
  if g.armed ∨ g.offCycle = some s.cycle then s
  else if refused then s.writeFault 0x004 .none m (regAddr .TB_ANCHOR_CTL k 0)
  else
    let s := s.setGen k { g with armed := true, waiting := ! s.tb.ready, due := none, dueLate := false, link }
    if s.tb.ready then s.judgeGen k else s

/-- Raster time at the end of the event cycle in progress. -/
def State.cycleEnd (s : State) : RTime := s.rasterTime ((s.cycle + 1) * 256)

/-- Whether generator `k` fires in this event cycle (R60). -/
def State.genMatches (s : State) (k : Nat) : Bool :=
  let g := s.genOf k
  g.armed && ! g.waiting && decide (g.since ≤ s.cycle) &&
    match g.due with
    | some c => decide (c ≤ s.cycle)
    | none => ! rtBefore s.cycleEnd g.target

/-- The chain of assertion `a`. -/
def State.chainOf (s : State) (a : Assertion) : Chain :=
  (s.evm.chains.find? fun c => decide (c.id = a.chain)).getD ⟨a.chain, [a.src], 0⟩

/-- Keep it. -/
def State.setChain (s : State) (c : Chain) : State :=
  { s with evm := { s.evm with chains := c :: s.evm.chains.filter fun x => decide (x.id ≠ c.id) } }

/-- A link asserts source `src` in the chain of `a`; a source that the chain has asserted already is a re-entry, made one event cycle
later, and after 16 of them the chain is cut (R227). -/
def State.linkAssert (s : State) (a : Assertion) (src : Nat) : State :=
  let c := s.chainOf a
  let b : Assertion := { a with src, at_ := 0 }
  if ! c.srcs.contains src then
    let s := s.setChain { c with srcs := src :: c.srcs }
    { s with evm := { s.evm with asserted := s.evm.asserted ++ [b] } }
  else if 16 ≤ c.reentries then
    let s := s.stick f_EVM_EVENTS_loop_cut
    (s.log { s.detect 0x506 2 (.other (a.via.getD 0)) 0x1114 with access := 6 }).deferFresh s.evm.asserted.length
  else
    let s := ((s.tally f_EVM_LOOP_COUNT_count).stick f_EVM_EVENTS_loop_delay).setChain { c with reentries := c.reentries + 1 }
    { s with evm := { s.evm with reentry := s.evm.reentry ++ [{ b with at_ := s.cycle + 1 }] } }

/-- Generator `k` fires (R60): source, count, status, item of agent 22; a one-shot mode disarms. -/
def State.fireGen (s : State) (k : Nat) : State :=
  let g := s.genOf k
  let L := s.lines
  let at_ := if g.dueLate then s.raster else g.target
  let fires := (g.fires + 1) % 65536
  let next := match genMode s k with
    | 4 => rtAdd L g.target 0 1 0 | 5 => rtAdd L g.target 1 0 0 | 6 => rtAdd L g.target 0 (max 1 (genN s k)) 0 | _ => g.target
  let shot := decide (genMode s k < 4)
  let late := g.dueLate
  let s := s.setGen k { g with armed := g.armed && ! shot, target := next, due := none, dueLate := false, fires, late,
                               holdover := s.holdover, lastTime := at_, offCycle := if shot then some s.cycle else g.offCycle }
  let s := if late then (s.tally f_TB_LATE_COUNT_count).stick f_TB_EVENTS_late else s
  let r := s.agentWrite 22 0x11 (f64 k 1) (BitVec.ofNat 32 fires) at_ s.abs 0
  let s := if r.2 then r.1.fault 0x401 2 (.felt (s.fld f_QUE_AGENT_CTL_felt 22)) 0x1115 else r.1
  let s :=
    match if g.due.isSome then g.link else none with
    | some a => s.linkAssert a (srcAnchor k)
    | none => s.assertSrc (srcAnchor k)
  s.setGen k { s.genOf k with link := none }

/-- Disarm generator `k`; a match in the same event cycle fires first (R61). -/
def State.disarmGen (s : State) (k : Nat) : State :=
  let s := if s.genMatches k then s.fireGen k else s
  s.setGen k { s.genOf k with armed := false, waiting := false, due := none, dueLate := false, offCycle := some s.cycle }

/-- A target is committed by requester `m`: an armed generator is judged as if just armed, after a match of this event cycle, and compares
with the new target from the next one (R61); one that arming would refuse for its target is left disarmed (R395). -/
def State.genCommitted (s : State) (m k : Nat) (old : State) : State :=
  if ! (old.genOf k).armed then s
  else
    let fired := old.genMatches k
    let s := if fired then s.fireGen k else s
    if ! (s.genOf k).armed then s
    else if genMode s k = 5 ∧ s.lines ≤ (s.genPair k).line then
      (s.setGen k { s.genOf k with armed := false, waiting := false, due := none, dueLate := false }).writeFault 0x004 .none m
        (regAddr .TB_ANCHOR_TARGET_HI k 0)
    else if ! s.tb.ready then s.setGen k { s.genOf k with waiting := true }
    else let s := s.judgeGen k; s.setGen k { s.genOf k with since := s.cycle + 1 }

/-! ## raster_ready (R46, R59, R77, R172) -/

/-- An absolute attachment frame in the past, judged when raster_ready becomes 1 and when an amendment has set attach_armed (R77). -/
def State.attachMissed (s : State) (n : Nat) : State :=
  let x := s.forceOf n
  if s.tb.ready ∧ x.st = .detached ∧ s.on f_CH_CTL_attach_armed n ∧ ! s.on f_CH_CTL_attach_rel n ∧
      rtBefore ⟨s.fld f_CH_ATTACH_frame n, 0, 0⟩ (s.rasterTime (s.cycle * 256)) then
    (s.setForce n { x with attachMissed := true }).fault 0x106 1 (.channel n) (0x1108 + n / 64)
  else s

/-- The delivery of a far fork of the sender's routing channel `c` is late (R231). -/
def State.farLate (s : State) (c : Nat) : State :=
  let s := (s.tally f_EVM_FAR_LATE_COUNT_count).stick f_EVM_EVENTS_far_late
  s.log { s.detect 0x505 1 (.other c) 0x1114 with access := 5 }

/-- raster_ready becomes 1: what waited for it is judged in this event cycle. -/
def State.becomeReady (s : State) : State :=
  let s := { s with tb := { s.tb with ready := true, readyAt := s.now, readyFrame := (s.raster.frame + 1) % 2 ^ 32 } }
  let s := s.each (List.range 64) fun k s => if (s.genOf k).waiting then s.judgeGen k else s
  let s := s.each (s.engs.map fun e => e.1) fun n s => s.engineReady n
  let s := s.each (List.range 512) fun n s => s.attachMissed n
  let past := s.evm.farRx.filter fun d : Delivery => d.waiting && rtBefore d.time s.raster
  let s : State := { s with evm := { s.evm with farRx := s.evm.farRx.map fun d : Delivery =>
      if d.waiting then { d with waiting := false, late := rtBefore d.time s.raster, taken := s.now } else d } }
  s.each past fun d s => s.farLate d.channel

/-! ## States (R45 to R49) -/

def State.setTb (s : State) (x : Tb) : State := { s with tb := x }

/-- W of R43. -/
def State.windowW (s : State) : Nat := 16 * 2 ^ s.fld f_TB_QUAL_window

def State.qualCount (s : State) : Nat := s.fld f_TB_QUAL_qual_count
def State.lossCount (s : State) : Nat := s.fld f_TB_QUAL_loss_count
def State.src (s : State) : Nat := s.fld f_TB_CTL_src
/-- LINE_REF sources (Table 2-1). -/
def State.external (s : State) : Bool := decide (1 ≤ s.src ∧ s.src ≤ 4)
def State.framed (s : State) : Bool := decide (s.src = 1) || decide (s.src = 3)

/-- One phase unit in 1/2^32 line. -/
def oneUnit : Int := 65536

/-- A PIXCLK that has qualified takes over the phase once the raster runs on its source (R42). -/
def Tb.takePix (x : Tb) : Tb := match x.pix with | some p => { x with pixActive := true, period := p } | none => x

/-- First lock at a raster position (R46). -/
def State.firstLock (s : State) (pos : Nat) : State :=
  (s.setTb { s.tb.takePix with state := .locked, raster := Raster.ofPos s.lines pos 0, err := 0, track := 0, overs := 0 }).becomeReady

/-- Entry to LOCKED from HOLDOVER or SLEWING (R45, R300). -/
def State.relock (s : State) (err : Int) : State :=
  ((s.setTb { s.tb with state := .locked, err, track := 0, overs := 0, mismatch := none }).stick f_TB_EVENTS_relocked).clearCondition
    0x800 .none none

/-- Return to a qualified source with an error (R49). -/
def State.resolve (s : State) (err : Int) : State :=
  let s := s.setTb s.tb.takePix
  if err.natAbs ≤ oneUnit.toNat then
    match s.tb.state with
    | .locked => s.setTb { s.tb with err, overs := 0 }
    | _ => s.relock err
  else s.setTb { s.tb with state := .slewing, err, overs := 0, track := 0, mismatch := none }

/-- Entry to HOLDOVER; from LOCKED it is logged (Table 2-3). -/
def State.enterHoldover (s : State) : State :=
  let log := decide (s.tb.state = .locked)
  let s := (s.setTb { s.tb with state := .holdover, holdLines := 0, overs := 0, track := 0, mismatch := none }).stick f_TB_EVENTS_ref_lost
  if log then s.fault 0x800 1 .none 0x111C else s

/-- A measurement of the error in LOCKED (R45, R49): tracked, or a slew after qual_count in a row above 1 phase unit. How fast the
tracking takes an error away is left open; it lies between 0 and the error. -/
def State.measureErr (s : State) (e : Int) : State :=
  match s.tb.state with
  | .locked =>
    let overs := if e.natAbs ≤ oneUnit.toNat then 0 else s.tb.overs + 1
    if s.qualCount ≤ overs then s.resolve e
    else
      let f := s.freeInt
      let k := (f.1 % ((e.natAbs + 1 : Nat) : Int))
      f.2.setTb { f.2.tb with err := e, overs, track := if e < 0 then -k else k }
  | _ => s

/-! ## Judging (R43) -/

/-- An arrival after a time `d` since the last one, judged against the nearest of the instants `unit`, 2 `unit`, ... away: how many
units lie between, and whether it is in window. -/
def judgeArrival (d unit period w : Nat) : Nat × Bool :=
  let m := max 1 ((2 * d + unit) / (2 * max 1 unit))
  (m, decide ((((d : Int) - (m * unit : Nat)).natAbs) * w ≤ period))

/-- A judged arrival. -/
def Judge.arrive (j : Judge) (now qual : Nat) (ok : Bool) : Judge :=
  { j with last := some now, seen := j.seen + 1, good := if ok then j.good + 1 else 0, bad := if ok then 0 else j.bad + 1, missed := 0,
           qualified := j.qualified || (ok && decide (qual ≤ j.good + 1)) }

/-- An arrival that is not judged. -/
def Judge.first (j : Judge) (now : Nat) : Judge := { j with last := some now, seen := j.seen + 1, good := 0, bad := 0, missed := 0 }

/-- R39: a line period of 833.3 ns to 1.000 ms. -/
def periodOk (d : Nat) : Bool := decide (8333 * 256 ≤ 10 * d) && decide (d ≤ ms 1)

/-! ## External sources -/

/-- The error of an edge: its line start against the raster's own phase (R49). -/
def edgeError (frac : Nat) : Int := if frac < 2 ^ 31 then -(frac : Int) else 2 ^ 32 - (frac : Int)

/-- The line source is lost (R43, R45). -/
def State.lineLost (s : State) : State :=
  let s := s.setTb { s.tb with line := { Judge.reset with last := s.tb.line.last } }
  match s.tb.state with
  | .acquiring => s.setTb { s.tb with state := .unlocked, period := 0, line := Judge.reset, markAgo := none }
  | .locked => s.enterHoldover
  | .slewing => s.enterHoldover
  | _ => s

/-- One more missing or out-of-window edge: counted, and the source lost after loss_count in a row. -/
def State.lineFailed (s : State) (j : Judge) : State :=
  let s := (s.setTb { s.tb with line := j }).tally f_TB_GLITCH_COUNT_count
  if s.lossCount ≤ j.bad then s.lineLost else s

/-- An in-window edge of a source in a state that may lock (R45, R46). -/
def State.lineGood (s : State) (was : Judge) : State :=
  let j := s.tb.line
  match s.tb.state with
  | .acquiring => if was.qualified ∧ ! s.framed then s.firstLock (s.fld f_TB_FRAME_INIT_frame * s.lines * 2 ^ 32) else s
  | .locked => s.measureErr (edgeError s.tb.raster.frac)
  | .holdover => if j.qualified ∧ ! was.qualified then s.resolve (edgeError s.tb.raster.frac) else s
  | _ => s

/-- The line period once an in-window arrival has shown `d`, the source's judge being `j` before it and `j'` after it: in HOLDOVER the one
held until the source qualifies again (R43, R48), and that of PIXCLK while the phase is locked to it (R42). -/
def State.measured (s : State) (j j' : Judge) (d : Nat) : Nat :=
  if s.tb.pixActive ∨ (s.tb.state = .holdover ∧ (j.qualified ∨ ! j'.qualified)) then s.tb.period else d

/-- An active LINE_REF edge now (R40, R43). -/
def State.lineEdge (s : State) : State :=
  let now := s.now
  let j := s.tb.line
  if ! s.external then s
  else
    let s := s.setTb { s.tb with markAgo := s.tb.markAgo.map fun k => k + 1 }
    match s.tb.state, j.last with
    | .unlocked, _ => s.setTb { s.tb with state := .acquiring, line := (Judge.reset).first now }
    | _, none => s.setTb { s.tb with line := j.first now }
    | st, some l =>
      let d := now - l
      if st = .acquiring ∧ j.seen = 1 then
        if periodOk d then s.setTb { s.tb with line := j.first now, period := d }
        else (s.setTb { s.tb with line := (Judge.reset).first now }).stick f_TB_EVENTS_out_of_range
      else if st = .holdover ∧ j.seen = 0 then s.setTb { s.tb with line := j.first now }
      else
        let p := s.tb.period
        let a := judgeArrival d p p s.windowW
        let j' := j.arrive now s.qualCount a.2
        let s := s.stickIf (! periodOk (d / a.1)) f_TB_EVENTS_out_of_range
        if ! a.2 then
          let s := s.lineFailed j'
          if j.qualified ∧ st = .acquiring ∧ ! s.framed ∧ s.tb.state = .acquiring then
            s.firstLock (s.fld f_TB_FRAME_INIT_frame * s.lines * 2 ^ 32)
          else s
        else if ! periodOk (d / a.1) then
          s.setTb { s.tb with line := { j' with good := 0, qualified := j.qualified } }
        else (s.setTb { s.tb with line := j', period := s.measured j j' (d / a.1) }).lineGood j

/-- The window of the next LINE_REF edge has closed without it (R43). -/
def State.lineMissing (s : State) : State :=
  let j := s.tb.line
  match j.last with
  | none => s
  | some l =>
    let p := s.tb.period
    let judged := match s.tb.state with
      | .acquiring => decide (2 ≤ j.seen) | .locked => true | .slewing => true | .holdover => decide (1 ≤ j.seen) | .unlocked => false
    if ! s.external ∨ ! judged ∨ p = 0 ∨ (s.now - l) * s.windowW ≤ (j.missed + 1) * p * s.windowW + p then s
    else s.lineFailed { j with missed := j.missed + 1, bad := j.bad + 1, good := 0 }

/-- Frame lines from a count of lines, in the range of R41. -/
def frameOffset (L l : Nat) : Int := let k := (L - l % L) % L; if L < 2 * k then (k : Int) - L else k

/-- FRAME_REF marks a frame start now, at the midpoint of a line (R40, R41, R46). R41 speaks of a timebase that is locked; a mark seen in
HOLDOVER or SLEWING confirms nothing and is no mismatch (DESIGN CHOICE, notes/assumptions/88.md). -/
def State.frameMark (s : State) : State :=
  let ago := s.tb.markAgo
  let s := s.setTb { s.tb with markAgo := some 0 }
  match s.tb.state with
  | .acquiring =>
    if s.tb.line.qualified ∧ s.framed ∧ ago = some s.lines then
      s.firstLock (s.fld f_TB_FRAME_INIT_frame * s.lines * 2 ^ 32 + 2 ^ 31)
    else s
  | .locked =>
    if ! s.framed then s
    else
      let k := frameOffset s.lines s.raster.line
      if k = 0 then s.setTb { s.tb with mismatch := none }
      else if s.tb.mismatch = some k then
        let s := (s.stick f_TB_EVENTS_frame_slip).fault 0x801 1 .none 0x111C
        s.setTb { s.tb with state := .slewing, err := k * 2 ^ 32, overs := 0, track := 0, mismatch := none }
      else (s.setTb { s.tb with mismatch := some k }).tally f_TB_GLITCH_COUNT_count
  | _ => s

/-- FRAME_REF is sampled at the midpoint of a line. -/
def State.frameSample (s : State) (active : Bool) : State :=
  let rise := active && ! s.tb.frameLevel
  let s := s.setTb { s.tb with frameLevel := active }
  if rise ∧ s.external then s.frameMark else s

/-! ## Beats (R51 to R54) -/

/-- The raster position that a beat implies at its arrival on port `p` (R52). -/
def State.impliedPos (s : State) (p : Nat) (b : Beat) : Nat :=
  let d := (s.beatPortOf p).delayPs
  let add : Int := if s.tb.period = 0 then 0 else d * 2 ^ 40 / (1000 * s.tb.period : Nat)
  (((b.frame * s.lines + b.line) * 2 ^ 32 + b.frac : Nat) + add).toNat

/-- The difference of two raster positions, FRAME taken modulo 2^32, in 1/2^32 line. -/
def State.posDiff (s : State) (a b : Nat) : Int :=
  let M := s.lines * 2 ^ 64
  let d := (a + M - b % M) % M
  if 2 * d < M then d else (d : Int) - M

/-- A raster difference in ps. -/
def State.toPs (s : State) (e : Int) : Int := e * (s.tb.period * 1000 : Nat) / (2 ^ 40 : Nat)

/-- TB_ALT_OFFSET: the mean of the last 16 differences, in ps. -/
def BeatPort.offset (b : BeatPort) : Int :=
  if b.offs = [] then 0 else roundDiv (b.offs.foldl (fun x y => x + y) 0) b.offs.length

/-- The primary and the alternative beat port. -/
def State.upPort (s : State) : Option Nat := if s.on f_TB_BEAT_CTL_up_valid then some (s.fld f_TB_BEAT_CTL_up_port) else none
def State.altPort (s : State) : Option Nat := if s.on f_TB_BEAT_CTL_alt_valid then some (s.fld f_TB_BEAT_CTL_alt_port) else none

/-- Whether port `p` is qualified and its beats are free of the holdover flag. -/
def State.beatFree (s : State) (p : Nat) : Bool :=
  (s.beatPortOf p).judge.qualified && match (s.beatPortOf p).beat with | some b => ! b.hold | none => false

/-- Port `p` becomes the active port with an error (R53). -/
def State.activate (s : State) (p : Nat) (err : Int) : State :=
  ((s.setTb { s.tb with active := some p }).stick f_TB_EVENTS_alt_switch).resolve err

/-- The mean difference of port `p` in 1/2^32 line. -/
def State.offsetErr (s : State) (p : Nat) : Int :=
  if s.tb.period = 0 then 0 else (s.beatPortOf p).offset * 2 ^ 40 / (s.tb.period * 1000 : Nat)

/-- The active port after a beat or a loss (R53): the alternative when the primary is lost or in holdover while the alternative is
not, the primary again under revert. -/
def State.chooseActive (s : State) : State :=
  match decide (s.tb.state = .locked) || decide (s.tb.state = .slewing), s.tb.active, s.upPort, s.altPort with
  | true, some a, some u, some v =>
    let up := s.beatPortOf u
    if a = u then
      let held : Bool := match up.beat with | some b => b.hold | none => false
      if ! up.judge.qualified ∧ (s.beatPortOf v).judge.qualified then s.activate v (s.offsetErr v)
      else if held ∧ s.beatFree v then s.activate v (s.offsetErr v)
      else s
    else if s.on f_TB_BEAT_CTL_revert ∧ s.qualCount ≤ up.clean ∧ up.judge.qualified then s.activate u (s.offsetErr u)
    else s
  | _, _, _, _ => s

/-- A beat port is lost (R43, R45). -/
def State.beatLost (s : State) (p : Nat) : State :=
  let b := s.beatPortOf p
  let s := (s.setBeatPort p { b with judge := { Judge.reset with last := b.judge.last }, clean := 0, offs := [] }).stick
    f_TB_EVENTS_beat_lost
  match s.tb.state with
  | .acquiring =>
    let other : Option Nat → Bool := fun q => match q with | some q => decide (q ≠ p) && decide (0 < (s.beatPortOf q).judge.seen) | none => false
    if other s.upPort ∨ other s.altPort then s else s.setTb { s.tb with state := .unlocked, period := 0 }
  | .locked =>
    if s.tb.active ≠ some p then s
    else
      let s := s.chooseActive
      let on : Bool := match s.tb.active with | some a => (s.beatPortOf a).judge.qualified | none => false
      let spare : Bool := match s.upPort with | some u => decide (u ≠ p) && (s.beatPortOf u).judge.qualified | none => false
      if on then s
      else match spare, s.upPort with
        | true, some u => s.activate u (s.offsetErr u)
        | _, _ => s.enterHoldover
  | .slewing => if s.tb.active = some p then s.enterHoldover else s
  | _ => s

/-- One more missing or out-of-window beat on port `p`. -/
def State.beatFailed (s : State) (p : Nat) (j : Judge) : State :=
  let s := (s.setBeatPort p { s.beatPortOf p with judge := j, clean := 0 }).tally f_TB_GLITCH_COUNT_count
  if s.lossCount ≤ j.bad then s.beatLost p else s

/-- An in-window beat on port `p` steers the follower (R45, R46, R52, R53). At first lock, and on return from HOLDOVER, the port that
qualifies first becomes active, be it the alternative (DESIGN CHOICE, notes/assumptions/89.md). -/
def State.beatGood (s : State) (p : Nat) : State :=
  let x := s.beatPortOf p
  match x.beat with
  | none => s
  | some b =>
    let pos := s.impliedPos p b
    let e := s.posDiff pos s.ownPos
    let s := s.setBeatPort p { x with offs := (s.toPs e :: x.offs).take 16 }
    match s.tb.state with
    | .acquiring => if x.judge.qualified ∧ x.delayValid then (s.setTb { s.tb with active := some p }).firstLock pos else s
    | .locked => (if s.tb.active = some p then s.measureErr e else s).chooseActive
    | .slewing => s.chooseActive
    | .holdover =>
      if x.judge.qualified then
        let s := if s.tb.active = some p then s else (s.setTb { s.tb with active := some p }).stick f_TB_EVENTS_alt_switch
        s.resolve e
      else s
    | .unlocked => s

/-- A beat accepted on port `p` now (R43, R52). -/
def State.beatAccepted (s : State) (p : Nat) (b : Beat) : State :=
  let now := s.now
  let x := s.beatPortOf p
  let j := x.judge
  let lines := match x.beat with
    | some o => (s.posDiff (b.frame * s.lines + b.line) (o.frame * s.lines + o.line)).toNat
    | none => 0
  let s0 := s
  let gap := decide (lines = 0) || decide (0 < j.missed) || (decide (b.line = 0) && decide (x.ivl ≠ 0))
  let s := s.setBeatPort p { x with beat := some b, ivl := if gap then x.ivl else lines,
                                    clean := if b.hold then 0 else x.clean }
  let put := fun (s : State) (j : Judge) => s.setBeatPort p { s.beatPortOf p with judge := j }
  match s.tb.state, j.last with
  | .unlocked, _ =>
    if x.delayValid then put (s.setTb { s.tb with state := .acquiring }) ((Judge.reset).first now) else s0
  | _, none => put s (j.first now)
  | st, some l =>
    let d := now - l
    if j.seen = 0 then put s (j.first now)
    else if st = .acquiring ∧ j.seen = 1 then
      if lines ≠ 0 ∧ periodOk (d / lines) then put (s.setTb { s.tb with period := d / lines }) (j.first now)
      else (put s ((Judge.reset).first now)).stick f_TB_EVENTS_out_of_range
    else
      let pd := s.tb.period
      let a := judgeArrival d (max 1 lines * pd) pd s.windowW
      let j' := j.arrive now s.qualCount a.2
      if ! a.2 then (s.beatFailed p j').stickIf (! periodOk (d / (max 1 lines * a.1))) f_TB_EVENTS_out_of_range
      else
        let k := max 1 lines * a.1
        if ! periodOk (d / k) then (put s { j' with good := 0, qualified := j.qualified }).stick f_TB_EVENTS_out_of_range
        else
          let s := put s j'
          let s := s.setBeatPort p { s.beatPortOf p with clean := if b.hold then 0 else x.clean + 1 }
          let s := if s.tb.active = some p ∨ st = .acquiring then s.setTb { s.tb with period := s.measured j j' (d / k) } else s
          s.beatGood p

/-- Lines from line `l` to the `k`-th beat after it: a beat comes in every line that the interval `i` divides, and the last interval of a
frame may be shorter (R51). -/
def beatLines (L i l : Nat) : Nat → Nat
  | 0 => 0
  | k + 1 =>
    let n := if (l / i + 1) * i < L then (l / i + 1) * i - l else L - l
    n + beatLines L i ((l + n) % L) k

/-- The window of the next beat on port `p` has closed without it (R43, R51). The interval of the sender is known from its beats. -/
def State.beatMissing (s : State) (p : Nat) : State :=
  let x := s.beatPortOf p
  let j := x.judge
  match j.last with
  | none => s
  | some l =>
    let pd := s.tb.period
    let judged := match s.tb.state with | .acquiring => decide (2 ≤ j.seen) | .unlocked => false | _ => decide (1 ≤ j.seen)
    let line := match x.beat with | some b => b.line | none => 0
    if s.src ≠ 5 ∨ ! judged ∨ pd = 0 ∨
        (s.now - l) * s.windowW ≤ beatLines s.lines (max 1 x.ivl) line (j.missed + 1) * pd * s.windowW + pd then s
    else s.beatFailed p { j with missed := j.missed + 1, bad := j.bad + 1, good := 0 }

/-- A beat is received on port `p` (R53). -/
def State.receiveBeat (s : State) (p : Nat) (b : Beat) : State :=
  if s.on f_TB_CTL_root ∨ b.root ≠ s.fld f_TB_BEAT_ROOT_root_node ∨ s.fld f_TB_BEAT_CTL_rank ≤ b.rank then
    (s.stick f_TB_EVENTS_beat_reject).fault 0x802 1 (.port p) (0x1110 + p)
  else if s.src = 5 ∧ (s.upPort = some p ∨ s.altPort = some p) then s.beatAccepted p b
  else s

/-- A beat is due on port `p` (R51): the root or a follower, in a line whose number the interval divides, once. -/
def State.beatDue (s : State) (p : Nat) : Bool :=
  let i := s.fld f_TB_BEAT_CTL_interval
  let b := s.ownBeat p
  let last := Table.get Beat.reset p s.tb.sent
  s.tb.ready && (s.on f_TB_CTL_root || decide (s.src = 5)) && decide (0 < i) &&
    (s.fld f_TB_BEAT_CTL_down_mask).testBit p && decide (s.raster.line % i = 0) &&
    (decide (last = Beat.reset) || decide ((last.frame, last.line) ≠ (b.frame, b.line)))

/-! ## Link delay (R55) -/

def sumInt (l : List Int) : Int := l.foldl (fun x y => x + y) 0

def insertInt (a : Int) : List Int → List Int
  | [] => [a]
  | b :: l => if a ≤ b then a :: b :: l else b :: insertInt a l

/-- Twice the median of a list. -/
def median2 (l : List Int) : Int :=
  let m := l.foldr insertInt []
  let n := m.length
  (m[(n - 1) / 2]?.getD 0) + (m[n / 2]?.getD 0)

/-- One delay exchange of port `p` is complete. The mean of the halved round trips is rounded to the nearest ps, halves upwards (DESIGN
CHOICE, notes/assumptions/90.md). -/
def State.delayExchange (s : State) (p : Nat) (rtt : Int) : State :=
  let x := s.beatPortOf p
  let fuse := signed 32 (s.fuseWord (88 + p)).toNat
  let asym := signed 16 (s.fld f_TB_PORT_ASYM_ps p)
  let e : Exchange := ⟨rtt, rtt + 2 * (fuse + asym)⟩
  let rtts := x.hist.map fun e => e.rtt
  let keep :=
    if x.hist = [] then true
    else if x.delayValid then decide ((rtt * x.hist.length - sumInt rtts).natAbs ≤ 1000 * x.hist.length)
    else decide ((2 * rtt - median2 rtts).natAbs ≤ 2000)
  if ! keep then s.tally f_TB_GLITCH_COUNT_count
  else
    let h := (e :: x.hist).take 16
    if h.length < 16 then s.setBeatPort p { x with hist := h }
    else
      let r := h.map fun e => e.rtt
      let span := r.foldl max (r.headD 0) - r.foldl min (r.headD 0)
      if ! x.delayValid ∧ 2000 < span then (s.setBeatPort p { x with hist := [] }).tally f_TB_GLITCH_COUNT_count 16
      else s.setBeatPort p { x with hist := h, delayValid := true, delayPs := roundDiv (sumInt (h.map fun e => e.owd2)) 32 }

/-! ## The passing of time (R36, R44, R48, R49) -/

/-- Move raster time on to instant `u` at the present rate. -/
def State.runTo (s : State) (u : Nat) : State :=
  let r := s.rasterAt u
  let passed := (Raster.pos s.lines r / 2 ^ 32 + s.lines * 2 ^ 32 - Raster.pos s.lines s.tb.raster / 2 ^ 32) % (s.lines * 2 ^ 32)
  let t := s.tb
  let t := if t.state = .holdover then { t with holdLines := satAdd (2 ^ 32 - 1) t.holdLines passed } else t
  { s with now := u, tb := { t with raster := r } }

/-- Move on to instant `u`; a slew ends when the error has come down to 1 phase unit. -/
def State.advanceTime (s : State) (u : Nat) : State :=
  if u ≤ s.now then s
  else
    match s.tb.state with
    | .slewing =>
      let p := s.tb.period
      let rate := s.slewStep * 65536
      let excess := s.tb.err.natAbs - oneUnit.toNat
      let need := (excess * p + rate - 1) / rate
      let left := fun (k : Nat) => let d := rate * k / max 1 p; if 0 ≤ s.tb.err then s.tb.err - d else s.tb.err + d
      if u - s.now < need then let e := left (u - s.now); let s := s.runTo u; s.setTb { s.tb with err := e }
      else
        let e := left need
        ((s.runTo (s.now + need)).relock e).runTo u
    | _ => s.runTo u

end Sys2Proof.Machine
end

