-- ==== Sys2Proof/Machine/EventOps.lean ====
section
/-!
DEFINITION. The event matrix: routing channels, task inputs, chains, far forks, EVIO pins, stamps and injection slots (R212 to R235,
R309), and what every command does first and last: the passing of time and the routing of the sources it asserted.
-/

namespace Sys2Proof.Machine

open Sys2Proof

/-! ## Domains of sources and inputs (R212, R224) -/

/-- Whether the block of a source is powered. -/
def State.sourceOn (s : State) (src : Nat) : Bool :=
  if src < 2048 then
    let n := src / 4
    match src % 4 with
    | 0 => s.chanPowered n | 1 => s.domainOn (47 + n / 64) | 2 => s.chanPowered n | _ => true
  else if src < 2112 then
    let i := (src - 2048) % 8
    if i ≤ 3 ∨ i = 7 then s.domainOn (5 * ((src - 2048) / 8) + 4) else true
  else if src < 2176 then true
  else if src < 2208 then s.domainOn 55
  else if src < 2224 then s.domainOn 46
  else if src < 2256 then true
  else if src < 2272 then s.domainOn 56
  else true

/-- Whether the block of a task input is powered (R224). -/
def State.inputOn (s : State) (i : Nat) : Bool :=
  if i < 1536 then (if i % 3 = 2 then s.chanPowered (i / 3) else s.domainOn (47 + i / 3 / 64))
  else if i < 1600 then true
  else if i < 1616 then s.domainOn 55
  else if i < 1784 then true
  else s.domainOn 55

/-- Input classes of Table 7-4: Single, Held, else Burst. -/
def inputSingle (i : Nat) : Bool := decide (1600 ≤ i ∧ i < 1616) || decide (1752 ≤ i ∧ i < 1768)
def inputHeld (i : Nat) : Bool := decide (i < 1536 ∧ i % 3 = 1) || decide (1768 ≤ i ∧ i < 1784)

/-- Whether an input is protected (R214). -/
def State.inputProtected (s : State) (i : Nat) : Bool :=
  if 1536 ≤ i ∧ i < 1600 then s.on f_TB_ANCHOR_CTL_locked (i - 1536) else decide (1680 ≤ i ∧ i < 1768)

/-! ## Routing channels in service (R217, R219) -/

/-- Registers of routing channel `c` in service now: EVM_RC_CTL, its targets, EVM_RC_FAR_OFS, EVM_RC_OWNER. -/
def State.rcNow (s : State) (c : Nat) : List Word :=
  s.rd .EVM_RC_CTL c :: (List.range 8).map (fun j => s.rd .EVM_RC_TARGET c j) ++ [s.rd .EVM_RC_FAR_OFS c, s.rd .EVM_RC_OWNER c]

/-- The same at the start of the event cycle (R219). -/
def State.rcState (s : State) (c : Nat) : List Word :=
  match (s.rcDynOf c).was with
  | some (k, l) => if k = s.cycle then l else s.rcNow c
  | none => s.rcNow c

/-- Keep what is in service before a change made in this event cycle. -/
def State.rcKeep (s : State) (c : Nat) : State :=
  let x := s.rcDynOf c
  let kept : Bool := match x.was with | some (k, _) => decide (k = s.cycle) | none => false
  if kept then s else s.setRcDyn c { x with was := some (s.cycle, s.rcNow c) }

def rcOpen (s : State) (c : Nat) : Bool := ! s.on f_EVM_RC_OWNER_secure c

/-- The attribute in the state `l` of a routing channel (R220). -/
def openIn (l : List Word) : Bool := ! bit (l.getD 10 0) 31

/-! ## Injection (R309) -/

/-- A firing of injection slot `j` by requester `m`; the fault source asserts. -/
def State.fireInj (s : State) (m access j : Nat) : State :=
  let x := s.injOf j
  let cls := s.fld f_FLT_INJ_CTL_class j
  let sc := scopeOf (s.fld f_FLT_INJ_CTL_scope j) (s.fld f_FLT_INJ_CTL_index j)
  if ! s.dev.test ∨ cls = 0 ∨ 5 < cls ∨ sc = none ∨ ! faultCodes.contains (s.fld f_FLT_INJ_CTL_code j) then
    s.accessFault 0x006 1 .none m access (regAddr .FLT_INJ_CTL j 0)
  else (s.setInj j { x with fires := (x.fires + 1) % 65536, due := some (s.cycle + 1) }).assertSrc (srcFault (12 + j))

/-! ## Delivery (R214, R215) -/

/-- A stamp is taken at the end of the event cycle. -/
def State.stamp (s : State) (j : Nat) : State :=
  let x := Table.get Stamp.reset j s.evm.stamps
  let y : Stamp := ⟨if s.tb.ready then s.cycleEnd else RTime.zero, (s.cycle + 1) % 2 ^ 64, (x.count + 1) % 65536⟩
  { s with evm := { s.evm with stamps := Table.put Stamp.reset j y s.evm.stamps } }

/-- A fault that an event firing raises. -/
def State.firingFault (s : State) (code cls : Nat) (sc : Scope) : State :=
  s.log { s.detect code cls sc 0x1114 with access := 6 }

/-- One firing of a Burst-class input is delivered; `again` after another one in this event cycle (R215). -/
def State.deliver (s : State) (i : Nat) (a : Assertion) (again : Bool) : State :=
  if i < 1536 then
    let n := i / 3
    if i % 3 = 0 then
      if again then s.stick f_CH_SWEEP_EVENTS_start_ignored n else s.startEngine n false
    else s.deliverTrigger n (s.afterCycle 40)
  else if i < 1600 then (if again then s else s.armGen 0x1114 (i - 1536) (some a))
  else if 1616 ≤ i ∧ i < 1680 then s.sendBurst (i - 1616)
  else if 1680 ≤ i ∧ i < 1744 then (if again then s else s.firingFault 0x104 3 (.octet (i - 1680)))
  else if 1744 ≤ i ∧ i < 1752 then (if again then s else s.firingFault 0x104 4 (.tile (i - 1744)))
  else if 1784 ≤ i ∧ i < 1792 then s.stamp (i - 1784)
  else s

/-- A firing that is dropped (R214, R224). -/
def State.dropFiring (s : State) (i : Nat) : State :=
  ((s.tally f_EVM_DROP_COUNT_task).stick f_EVM_EVENTS_task_drop).firingFault 0x502 1 (.other i)

/-- A firing finds its input's count full (R223). -/
def State.loseFiring (s : State) (i : Nat) : State :=
  let w := i / 32
  let s := s.wr .EVM_TASK_OVF (s.rd .EVM_TASK_OVF w ||| BitVec.ofNat 32 (2 ^ (i % 32))) w
  (s.stick f_EVM_EVENTS_overflow).firingFault 0x501 1 (.other i)

/-- Task input `i` receives a firing carried by assertion `a` (R215, R223). -/
def State.receiveFiring (s : State) (i : Nat) (a : Assertion) : State :=
  if inputSingle i ∨ inputHeld i then
    if 15 ≤ s.pendOf i then s.loseFiring i
    else
      let s := s.setPend i (s.pendOf i + 1)
      if inputSingle i then
        { s with evm := { s.evm with carried := Table.put [] i (Table.get [] i s.evm.carried ++ [a]) s.evm.carried } }
      else s
  else
    let v := Table.get (0, 0) i s.evm.served
    let k := if v.1 = s.cycle + 1 then v.2 else 0
    if 15 ≤ k then s.loseFiring i
    else
      let s := { s with evm := { s.evm with served := Table.put (0, 0) i (s.cycle + 1, k + 1) s.evm.served } }
      s.deliver i a (decide (0 < k))

/-! ## Chains (R225, R227) -/

/-- The sources that a firing of input `i` can assert in the same event cycle (Table 7-7). -/
def linkAllows (i src : Nat) : Bool :=
  let faults := decide (2224 ≤ src ∧ src ≤ 2229)
  if i < 1536 ∧ i % 3 = 0 then decide (src = 4 * (i / 3) + 1)
  else if 1680 ≤ i ∧ i < 1744 then (decide (src < 2048) && decide (src % 4 = 3) && decide (src / 32 = i - 1680)) || faults
  else if 1744 ≤ i ∧ i < 1752 then
    (decide (src < 2048) && decide (src % 4 = 3) && decide (src / 256 = i - 1744)) || decide (src = 2048 + 8 * (i - 1744) + 5) || faults
  else if 1752 ≤ i ∧ i < 1768 then decide (src = 2236 + (i - 1752)) || faults
  else false

/-- Assertions that a delivery to input `i` made: those of its links belong to the chain of `a`, and one that its chain has asserted already
is a re-entry; the others assert in the next event cycle (R225, R227). -/
def State.linkChain (s : State) (old i : Nat) (a : Assertion) : State :=
  let fresh := s.evm.asserted.drop old
  let s := { s with evm := { s.evm with asserted := s.evm.asserted.take old,
                                        later := s.evm.later ++ fresh.filter fun (b : Assertion) => ! linkAllows i b.src } }
  s.each (fresh.filter fun (b : Assertion) => linkAllows i b.src) fun b s => s.linkAssert a b.src

/-- A chain begins, unless `a` belongs to one already. -/
def State.openChain (s : State) (a : Assertion) : State × Assertion :=
  if a.chain ≠ 0 then (s, a)
  else
    let k := s.evm.chainNo + 1
    (State.setChain { s with evm := { s.evm with chainNo := k } } ⟨k, [a.src], 0⟩, { a with chain := k })

/-- As an event cycle ends, chains end that no assertion, re-entry, pending firing or armed generator carries on (R227). -/
def State.endChains (s : State) : State :=
  let live := s.evm.asserted ++ s.evm.reentry ++ (s.evm.carried.flatMap fun e => e.2) ++ s.tb.gens.filterMap fun e => e.2.link
  { s with evm := { s.evm with chains := s.evm.chains.filter fun c => live.any fun a => decide (a.chain = c.id) } }

/-- The sources left over from an earlier event cycle assert (R225). -/
def State.assertLater (s : State) : State :=
  { s with evm := { s.evm with asserted := s.evm.asserted ++ s.evm.later, later := [] } }

/-! ## Far forks (R228 to R231) -/

/-- A far fork is dropped (R228, R229). -/
def State.dropFar (s : State) (c : Nat) : State := (s.tally f_EVM_DROP_COUNT_far).firingFault 0x503 1 (.other c)

/-- The far fork of a firing of routing channel `c` with the SECURE attribute or without it. -/
def State.farFork (s : State) (c : Nat) (ctl ofs : Word) (secure : Bool) : State :=
  if ! s.tb.ready ∨ 32 ≤ s.evm.farTx.length then s.dropFar c
  else
    let t := s.rasterTime (s.cycle * 256)
    let t := if bit ctl 27 then { t with phase := 0 } else t
    let d := rtAdd s.lines t 0 (bits ofs 16 16) (bits ofs 0 16)
    { s with evm := { s.evm with farTx := s.evm.farTx ++ [⟨bits ctl 22 4, d, c, secure⟩] } }

/-- A far fork is received for group `g` (R230, R231). -/
def State.acceptFar (s : State) (g : Nat) (d : RTime) (c : Nat) (secure : Bool) : State :=
  if ! s.on f_EVM_FAR_GROUP_member g then s
  else if (s.on f_EVM_FAR_GROUP_secure_only g ∧ ! secure) ∨ 64 ≤ s.evm.farRx.length then
    ((s.stick f_EVM_EVENTS_far_reject).tally f_EVM_DROP_COUNT_far).log { s.detect 0x504 1 (.other c) 0x1114 with access := 5 }
  else
    let late := s.tb.ready && rtBefore d s.raster
    let s := { s with evm := { s.evm with farRx := s.evm.farRx ++ [⟨g, d, c, s.now, late, ! s.tb.ready⟩] } }
    if late then s.farLate c else s

/-- Whether a delivery's source asserts in this event cycle (R231). -/
def State.farDue (s : State) (x : Delivery) : Bool :=
  ! x.waiting && (if x.late then decide (x.taken / 256 < s.cycle) else ! rtBefore s.cycleEnd x.time)

/-! ## Firing (R216, R220) -/

/-- Routing channel `c`, its state `l` given, fires for assertion `a`. Faults of dropped firings and far forks assert their source in the next
event cycle (R225). -/
def State.fireRc (s : State) (c : Nat) (l : List Word) (a0 : Assertion) : State :=
  let ctl := l.headD 0
  let o := s.openChain a0
  let a := { o.2 with via := some c }
  let s := o.1
  let x := s.rcDynOf c
  let old := s.evm.asserted.length
  let s := s.setRcDyn c { x with fires := (x.fires + 1) % 65536, lastFire := some s.cycle }
  let s :=
    if bit ctl 26 then
      s.agentItem 23 0x16 (f64 (bits ctl 0 12) 1) (BitVec.ofNat 32 c)
    else s
  let s := (if bit ctl 28 then s.farFork c ctl (l.getD 9 0) (! openIn l) else s).deferFresh old
  s.each ((l.drop 1).take 8) fun t s =>
    let i := bits t 0 11
    let old := s.evm.asserted.length
    if ! bit t 31 ∨ 1792 ≤ i then s
    else if (s.inputProtected i ∧ openIn l) ∨ ! s.inputOn i then (s.dropFiring i).deferFresh old
    else (s.receiveFiring i a).linkChain old i a

/-- The routing channels of an assertion fire, each once in an event cycle. -/
def State.route (s : State) (a : Assertion) : State :=
  if ! s.domainOn 55 ∨ ! s.sourceOn a.src then s
  else
    let o := s.openChain a
    o.1.each (List.range 256) fun c s =>
      let l := s.rcState c
      let ctl := l.headD 0
      if bit ctl 31 ∧ bits ctl 0 12 = a.src ∧ (s.rcDynOf c).lastFire ≠ some s.cycle then s.fireRc c l o.2 else s

/-- Route the assertions of the event cycle in progress. -/
def State.settle : Nat → State → State
  | 0, s => s
  | k + 1, s =>
    match s.evm.asserted with
    | [] => s
    | a :: rest => State.settle k (State.route { s with evm := { s.evm with asserted := rest } } a)

/-! ## EVIO pins (R233, R234) -/

/-- Whether EVIO pin `j` is an output of its task input: as a forerunner trigger line it is none, and EVM_EVIO_CTL is ignored (R371). -/
def State.evioDrives (s : State) (j : Nat) : Bool := s.on f_EVM_EVIO_CTL_dir j && ! s.dev.forerunner

/-- Whether an edge to `level` on input pin `j` is of the kind that asserts its source (R233); a forerunner trigger line is active low (R371). -/
def State.evioHit (s : State) (j : Nat) (level : Bool) : Bool :=
  if s.dev.forerunner then ! level
  else match s.fld f_EVM_EVIO_CTL_in_edge j with | 0 => level | 1 => ! level | 2 => true | _ => false

/-- An input pin whose level has been sampled in filter + 1 consecutive event cycles behind its synchroniser of two stages: the edge is
accepted, and the source asserts in the cycle after (R233). -/
def State.evioAccept (s : State) (j : Nat) : State :=
  let x := s.evioOf j
  if s.evioDrives j ∨ x.raw = x.level ∨ s.cycle < x.rawAt + s.fld f_EVM_EVIO_CTL_filter j + 4 then s
  else
    let s := s.setEvio j { x with level := x.raw }
    if s.evioHit j x.raw then s.assertSrc (srcEvio j) else s

/-- Every pin. -/
def State.evioAccepts (s : State) : State := s.each (s.evm.evio.map fun e => e.1) fun j s => s.evioAccept j

/-- The level that EVIO pin `j` drives. -/
def State.evioLevel (s : State) (j : Nat) : Bool :=
  let x := s.evioOf j
  match s.fld f_EVM_EVIO_CTL_out_mode j with
  | 2 => s.on f_EVM_EVIO_CTL_level j
  | _ => x.out != s.on f_EVM_EVIO_CTL_invert j

/-- One firing delivered to the output input of pin `j` in this event cycle (R234). -/
def State.evioFire (s : State) (j : Nat) : State :=
  let x := s.evioOf j
  s.setEvio j { x with due := x.due ++ [s.cycle] }

/-- The output acts at the end of cycle c + 3 (R234). -/
def State.evioAct (s : State) (j : Nat) : State :=
  let x := s.evioOf j
  match x.due with
  | [] => s
  | c :: rest =>
    if s.now < (c + 4) * 256 then s
    else
      match s.fld f_EVM_EVIO_CTL_out_mode j with
      | 0 => s.setEvio j { x with due := rest, out := true, pulseEnd := some ((c + 4 + s.fld f_EVM_EVIO_CTL_width_m1 j + 1) * 256) }
      | 1 => s.setEvio j { x with due := rest, out := ! x.out }
      | _ => s.setEvio j { x with due := rest }

/-- The end of a pulse (R234): a firing delivered during it that is still to act restarts the width, so the pin does not return before. -/
def State.evioEnd (s : State) (j : Nat) : State :=
  let x := s.evioOf j
  match x.pulseEnd with
  | some u =>
    if s.now < u ∨ x.due.any (fun c => decide (c * 256 < u)) then s else s.setEvio j { x with out := false, pulseEnd := none }
  | none => s

/-! ## Every command -/

/-- Instants up to `t` at which a sequencer does something of itself: entry 0 begins, the first sampling instant of an entry, which a command at
that very instant precedes, and trigger instants. -/
def Seqr.instants (q : Seqr) (t : Nat) : List Nat :=
  (q.startAt.toList ++ q.trigs).filter (fun u => decide (u ≤ t)) ++
    if q.busy && q.cap.isNone && decide (q.apStart < t) then [q.apStart] else []

/-- At instant `u` on the way to `t`: entry 0 begins (R116), the captures of first sampling instants (R113), triggers (R125). -/
def State.measBefore (s : State) (n u t : Nat) : State :=
  let s := match (s.seqOf n).startAt with | some v => if v ≤ u then s.beginZero n v else s | none => s
  let q := s.seqOf n
  let s := if q.busy ∧ q.cap = none ∧ q.apStart ≤ u ∧ q.apStart < t then
      s.setSeq n { q with cap := some ((s.engOf n).pos, s.holdover, s.rasterTime q.apStart) }
    else s
  let due := q.trigs.filter fun v => decide (v ≤ u)
  if due = [] then s
  else (s.setSeq n { s.seqOf n with trigs := q.trigs.filter fun v => decide (u < v) }).each due fun v s => s.judgeTrigger n v

/-- The instants up to `t` at which an engine's marks and its stop at an end come (R154, R160). -/
def State.sweepInstants (s : State) (t : Nat) (e : Eng) : List Nat :=
  let ends := match e.stop with | some (r, w) => if r = 1 ∨ r = 2 then [w] else [] | none => []
  (e.marks.map (fun m => m.due) ++ ends).filterMap fun w =>
    match s.whenAt w with | some u => if u ≤ t then some u else none | none => none

/-- The next instant up to `t` at which a sequencer or an engine does something. -/
def State.nextInstant (s : State) (t : Nat) : Option Nat :=
  ((s.seqs.flatMap fun e => e.2.instants t) ++ s.engs.flatMap fun e => s.sweepInstants t e.2).foldl (fun m u => some (min u (m.getD u))) none

/-- What the sequencers and engines do as time moves on to `t`, in the order of its instants. -/
def State.measAdvance (t : Nat) : Nat → State → State
  | 0, s => s
  | k + 1, s =>
    match s.nextInstant t with
    | none => s
    | some u => let s := (s.advanceTime u).each (s.seqs.map fun e => e.1) fun n s => s.measBefore n u t
      State.measAdvance t k (s.each (s.engs.map fun e => e.1) fun n s => s.sweepInstant n)

/-- As many instants as the sequencers can have: each begins entry 0 and captures at most once, and judges its triggers. -/
def State.instantCount (s : State) : Nat :=
  sumBy (fun e : Nat × Seqr => 2 + e.2.trigs.length) s.seqs + sumBy (fun e : Nat × Eng => 1 + e.2.marks.length) s.engs

/-- Tests of deckle latches made in the event cycle that ends (R159). -/
def State.endBranches (s : State) : State :=
  s.each ((s.engs.filter fun e => e.2.branch.isSome).map fun e => e.1) fun n s => State.branchTest n 17 s

/-- Time passes to the instant of a command: watermarks are judged and closing felts lose their credits as an event cycle ends (R204, R208), captures and trigger instants
come (R113, R125), raster time moves on. -/
def State.begin (t : Nat) (s : State) : State :=
  let u := max t s.now
  let next := decide (s.cycle < u / 256)
  let s := if next then s.endBranches.endFelts.endChains else s
  let s := ((State.measAdvance u s.instantCount s).advanceTime u).freqExpire.evioAccepts
  if next then s.assertLater else s

end Sys2Proof.Machine
end

