-- ==== Sys2Proof/Machine/CalOps.lean ====
section
/-!
DEFINITION. The calibration engine: fuse records and burns, runs and slice steps, open-output checks and bridges, couching, wear
(R315 to R340).
-/

namespace Sys2Proof.Machine

open Sys2Proof

def State.setCal (s : State) (x : Cal) : State := { s with cal := x }

/-- The core that has taken a duty (0 HOST, 1 CAL, 2 WATCH; R358). -/
def State.dutyCore (s : State) (d : Nat) : Option Nat := (List.range 4).find? fun k => decide ((s.coreOf k).duty = d) && ! (s.coreOf k).failed

/-- A spare core boots to take a duty over. -/
def State.spareBoots (s : State) : Bool :=
  (List.range 4).any fun k => (s.coreOf k).restarting && decide ((s.coreOf k).duty = 3) && ! (s.coreOf k).failed

/-- A duty pauses until the spare core has it; the WATCH duty never does, for the CAL core shadows it (R358). -/
def State.dutyPaused (s : State) (d : Nat) : Bool := decide (d ≠ 2) && (s.dutyCore d).isNone && s.spareBoots

/-- The core that carries a duty: its own, which the CAL core replaces for WATCH while that restarts or is gone (R358, Table 12-7); else the
lowest-numbered of those that remain (DESIGN CHOICE, notes/assumptions/106.md). -/
def State.dutyHolder (s : State) (d : Nat) : Nat :=
  let up := fun k => ! (s.coreOf k).failed && ! (s.coreOf k).restarting
  let own := (s.dutyCore d).filter fun k => decide (d ≠ 2) || up k
  let shadow := if d = 2 then s.dutyCore 1 else none
  let rest := (List.range 4).find? fun k => up k && decide ((s.coreOf k).duty < 3)
  ((own.or shadow).or rest).getD d

/-- The master ID of the management core that carries a duty. -/
def State.dutyMaster (s : State) (d : Nat) : Nat := 0x1000 + s.dutyHolder d

/-- A fault that management firmware logs for its CAL duty. -/
def State.firmwareLog (s : State) (code cls : Nat) (sc : Scope) (duty : Nat) : State :=
  s.log { s.detect code cls sc (s.dutyMaster duty) with access := 7 }

/-! ## Fuse generations (R315 to R317) -/

def fuseMarker : Word := 0x5A3CC3A5

/-- Header word `j` of generation `g`. -/
def State.genWord (s : State) (g j : Nat) : Word := s.fuseWord (256 + 4 * g + j)

/-- First data word and number of data words of generation `g`. -/
def State.genStart (s : State) (g : Nat) : Nat := bits (s.genWord g 0) 21 11
def State.genRecords (s : State) (g : Nat) : Nat := bits (s.genWord g 0) 11 10
def State.genWords (s : State) (g : Nat) : Nat := if g = 0 then 2 * s.genRecords g else 3 * s.genRecords g

def wordsBytes (l : List Word) : List Byte := l.flatMap fun w => leBytes w.toNat 4

/-- The check word of a generation (Table 11-2). -/
def genCrc (h0 h1 : Word) (data : List Word) : Word := crc32c (wordsBytes (h0 :: h1 :: data))

def State.genData (s : State) (g : Nat) : List Word := (List.range (s.genWords g)).map fun i => s.fuseWord (s.genStart g + i)

/-- Generation `g` is committed: marker and check word are right (R316). -/
def State.genOk (s : State) (g : Nat) : Bool :=
  decide (s.genWord g 3 = fuseMarker) && decide (s.genWord g 2 = genCrc (s.genWord g 0) (s.genWord g 1) (s.genData g))

/-- Generation slot `g` is claimed: committed or abandoned. -/
def State.genClaimed (s : State) (g : Nat) : Bool := decide (s.genWord g 0 ≠ 0)

/-- The record of element `e` in field generation `g`, the last one of it. -/
def State.genRecord (s : State) (g e : Nat) : Option DWord :=
  let at_ := fun r => s.genStart g + 3 * r
  ((List.range (s.genRecords g)).reverse.find? fun r => decide (bits (s.fuseWord (at_ r)) 16 16 = e)).map fun r =>
    BitVec.ofNat 64 ((s.fuseWord (at_ r + 1)).toNat + (s.fuseWord (at_ r + 2)).toNat * 2 ^ 32)

/-- The selection of element `e` that the committed generations give (R316). -/
def State.committedSel (s : State) (e : Nat) : DWord :=
  let a := if e < 544 then 288 + 2 * e else 1376 + 2 * (e - 544)
  let g0 := BitVec.ofNat 64 ((s.fuseWord a).toNat + (s.fuseWord (a + 1)).toNat * 2 ^ 32)
  (List.range 7).foldl (fun v g => if s.genOk (g + 1) then (s.genRecord (g + 1) e).getD v else v) g0

/-- An element's running selection. -/
def State.setSel (s : State) (e : Nat) (v : DWord) : State :=
  let l := if v = s.committedSel e then Table.erase e s.cal.sel else Table.insert e v s.cal.sel
  s.setCal { s.cal with sel := l }

/-- The first pool word after the highest one that any generation has claimed. -/
def State.poolNext (s : State) : Nat :=
  (List.range 7).foldl (fun m g => if s.genClaimed (g + 1) then max m (s.genStart (g + 1) + s.genWords (g + 1)) else m) 1392

/-- Burn fuse words in ascending order from word `i`. -/
def State.burnWords (s : State) (i : Nat) : List Word → State
  | [] => s
  | w :: ws => (s.burnFuse i w).burnWords (i + 1) ws

/-- Begin a burn: H0, H1 and the data words (R316, R317). The hours of H1 are a free value: the spec gives the device no operating-hour
counter. -/
def State.startBurn (s : State) : State :=
  let recs := s.cal.sel
  let n := recs.length
  let start := s.poolNext
  match (List.range 7).find? fun g => ! s.genClaimed (g + 1) with
  | none => if n = 0 then s else (s.setCal { s.cal with fuseFull := true }).stick f_CAL_EVENTS_fuse_full
  | some g =>
    if n = 0 then s
    else if 1920 < start + 3 * n then (s.setCal { s.cal with fuseFull := true }).stick f_CAL_EVENTS_fuse_full
    else
      let h := s.freeWord
      let s := h.2
      let data := recs.flatMap fun e => [BitVec.ofNat 32 (e.1 * 2 ^ 16), loWord e.2.toNat, hiWord e.2.toNat]
      let h0 := BitVec.ofNat 32 (start * 2 ^ 21 + n * 2 ^ 11)
      let s := ((s.burnFuse (256 + 4 * (g + 1)) h0).burnFuse (257 + 4 * (g + 1)) h.1).burnWords start data
      s.setCal { s.cal with burn := some ⟨g + 1, start, n, data⟩ }

/-- A burn is asked for; one in progress goes first (R317). -/
def State.requestBurn (s : State) : State :=
  if s.cal.burn.isSome then s.setCal { s.cal with burnAgain := true } else s.startBurn

/-- H2 and then the marker are burnt, and the generation commits (R316, R317). -/
def State.commitBurn (s : State) : State :=
  match s.cal.burn with
  | none => s
  | some b =>
    if s.dutyPaused 1 then s else
    let crc := genCrc (s.genWord b.gen 0) (s.genWord b.gen 1) b.data
    let s := (s.burnFuse (258 + 4 * b.gen) crc).burnFuse (259 + 4 * b.gen) fuseMarker
    let again := s.cal.burnAgain
    let s := s.setCal { s.cal with burn := none, burnAgain := false, gen := b.gen, claimed := s.cal.claimed ||| 2 ^ b.gen,
                                   committed := s.cal.committed ||| 2 ^ b.gen, lastCommit := some s.now,
                                   sel := s.cal.sel.filter fun e => decide (e.2 ≠ s.committedSel e.1) }
    let s := (s.stick f_CAL_EVENTS_committed).assertSrc (srcCal 3)
    if again then s.startBurn else s

/-! ## Couching and repair records (R318) -/

/-- The first place of 32 from word `base` whose words are both 0. -/
def State.freePlace (s : State) (base : Nat) : Option Nat :=
  (List.range 32).find? fun k => decide (s.fuseWord (base + 2 * k) = 0 ∧ s.fuseWord (base + 2 * k + 1) = 0)

/-- Burn a record, word first and marker second. -/
def State.burnRecord (s : State) (base k : Nat) (w : Word) : State :=
  (s.burnFuse (base + 2 * k) w).burnFuse (base + 2 * k + 1) fuseMarker

/-- The couching record of channel `n`, now on slice `q` of its tile; `retire`: the released slice is retired. -/
def State.recordCouch (s : State) (n q : Nat) (retire : Bool) : State :=
  match s.freePlace 1920 with
  | some k => s.burnRecord 1920 k (BitVec.ofNat 32 (n * 2 ^ 16 + b2n retire * 2 ^ 15 + q))
  | none => s.setCal { s.cal with couchFull := true }

/-- The records of soft repairs that wait are burnt (R254). -/
def State.recordRepairs (s : State) : State :=
  let l := s.memc.repairs
  let s := s.setMemc { s.memc with repairs := [] }
  s.each l fun e s =>
    match s.freePlace 1984 with
    | some k => s.burnRecord 1984 k (BitVec.ofNat 32 (e.1 / 32 * 2 ^ 24 + e.1 % 32 * 2 ^ 16 + e.2))
    | none => s.setCal { s.cal with repairFull := true }

/-! ## Runs (R320, R321) -/

/-- The channel that slice `i` serves, if any. -/
def State.sliceChannel (s : State) (i : Nat) : Option Nat :=
  let n := (s.sliceOf i).channel
  if n < 512 ∧ s.sliceIdx n = i then some n else none

def State.queueOf (s : State) (t : Nat) : List Nat := Table.get [] t s.cal.queue
def State.setQueue (s : State) (t : Nat) (l : List Nat) : State :=
  s.setCal { s.cal with queue := Table.put [] t l s.cal.queue }

/-- The slice of TILE[t] that is in its step. -/
def State.inStep (s : State) (t : Nat) : Option Nat :=
  let k := Table.get 0 t s.cal.current
  if k = 0 then none else some (k - 1)

def State.setStep (s : State) (t k : Nat) : State := s.setCal { s.cal with current := Table.put 0 t k s.cal.current }

/-- Queue slices for a step; a run that begins asserts source 0. -/
def State.addRun (s : State) (l : List Nat) (commanded : Bool) : State :=
  let fresh := l.filter fun i =>
    ! (s.queueOf (i / 68)).contains i && decide (s.inStep (i / 68) ≠ some i) && decide ((s.sliceOf i).st ≠ .retired) &&
      s.domainOn (sliceDomain i)
  if fresh = [] then s
  else
    let s := s.each fresh fun i s => s.setQueue (i / 68) (s.queueOf (i / 68) ++ [i])
    let s := s.setCal { s.cal with commanded := s.cal.commanded || commanded }
    if s.cal.running then s else (s.setCal { s.cal with running := true, runAt := s.now }).assertSrc (srcCal 0)

/-- The 17 slices of slice group 4t + g (R14). -/
def groupSlices (k : Nat) : List Nat :=
  let t := k / 4
  let g := k % 4
  (List.range 16).map (fun j => t * 68 + 16 * g + j) ++ [t * 68 + 64 + g]

/-- Whether a slice is in a couching of its tile. -/
def State.inCouching (s : State) (i : Nat) : Bool :=
  let c := s.couchOf (i / 68)
  decide (c.step ≠ 0) && (decide (c.slice = i % 68) || decide (s.sliceIdx c.channel = i))

/-- The slice that TILE[t] takes next: FREE spares, FREE home slices, then serving slices in ascending index (R321). -/
def State.nextStep (s : State) (t : Nat) : Option Nat :=
  let l := (s.queueOf t).filter fun i => ! s.inCouching i
  let ranks : List (Nat → Bool) :=
    [fun i => decide ((s.sliceOf i).st = .free ∧ 64 ≤ i % 68), fun i => decide ((s.sliceOf i).st = .free ∧ i % 68 < 64),
     fun i => decide ((s.sliceOf i).st = .serving)]
  ranks.findSome? fun r => (List.range 68).findSome? fun q => if l.contains (t * 68 + q) && r (t * 68 + q) then some (t * 68 + q) else none

/-- A slice step begins with its load sample (Table 11-3); automatic steps need CAL_CTL.enable (R340). -/
def State.startStep (s : State) (t : Nat) : State :=
  if (s.inStep t).isSome ∨ (! s.on f_CAL_CTL_enable ∧ ! s.cal.commanded) ∨ s.dutyPaused 1 then s
  else
    match s.nextStep t with
    | none => s
    | some i =>
      let s := (s.setQueue t ((s.queueOf t).filter fun j => decide (j ≠ i))).setStep t (i + 1)
      s.setSlice i { s.sliceOf i with phase := .load, phaseAt := s.now, loaded := false, disturbed := false, discard := false, retryAt := none }

/-- The run ends with its last slice step (R320); segments retired in it start a burn (R317). -/
def State.endRun (s : State) : State :=
  let busy := (List.range 8).any fun t => (s.inStep t).isSome || ! (s.queueOf t).isEmpty
  if busy ∨ ! s.cal.running then s
  else
    let lost := s.cal.segLost
    let s := s.setCal { s.cal with running := false, commanded := false, segLost := false }
    let s := (s.stick f_CAL_EVENTS_run_done).assertSrc (srcCal 1)
    let recent : Bool := match s.cal.lastCommit with | some u => decide (s.now < u + ms (30 * 86400000)) | none => false
    if lost ∧ s.on f_CAL_CTL_burn_auto ∧ ! recent then s.requestBurn else s

/-! ## The slice step (R321 to R326, R340) -/

/-- States of a channel that forbid the open-output check (Table 11-4). -/
def Force.forbidsCheck (x : Force) : Bool :=
  decide (x.st = .safe) || decide (x.st = .ranging) || decide (x.st = .spanChange) || decide (x.st = .couching) ||
    (decide (x.st ≠ .detached) && decide (x.range = 6))

/-- What a command's state changes mean for the slice steps in progress (R340). -/
def State.watchSteps (s : State) : State :=
  s.each s.cal.current fun e s =>
    let i := e.2 - 1
    let y := s.sliceOf i
    match s.sliceChannel i with
    | none => s
    | some n =>
      let x := (s.forceOf n).view s.now
      let d := y.phase ≠ .rest && x.forbidsCheck
      let c := decide (x.st = .ranging) || decide (x.st = .spanChange)
      if (d ∧ ! y.disturbed) ∨ (c ∧ ! y.discard) then
        s.setSlice i { y with disturbed := y.disturbed || d, discard := y.discard || c } else s

/-- t1: the measure-path step begins; `loaded` says whether the load sample exceeds 0.1 % of I_FS. -/
def State.measurePath (s : State) (i : Nat) (loaded : Bool) : State :=
  let y := s.sliceOf i
  if y.phase ≠ .load ∨ s.now < y.phaseAt + us 64 then s
  else
    let s := s.setSlice i { y with phase := .measure, phaseAt := s.now, loaded }
    match s.sliceChannel i with
    | some n => s.setSeq n { s.seqOf n with stale := true }
    | none => s

/-- A FREE spare of TILE[t] that is calibrated (R325). -/
def State.calibratedSpare (s : State) (t : Nat) : Option Nat :=
  (([64, 65, 66, 67] : List Nat).map fun q => t * 68 + q).find? fun i =>
    decide ((s.sliceOf i).st = .free) && s.domainOn (sliceDomain i) && decide (s.inStep t ≠ some i) &&
      match (s.sliceOf i).stepped with
      | some u => (s.cal.running && decide (s.cal.runAt ≤ u)) || decide (s.now ≤ u + ms (s.fld f_CAL_CTL_interval_h * 3600000))
      | none => false

/-- The check is deferred: the slice gets a further step retry_s later (R326). -/
def State.deferCheck (s : State) (i outcome : Nat) : State :=
  s.setSlice i { s.sliceOf i with check := outcome, retryAt := some (s.now + ms (1000 * s.fld f_CAL_CTL_retry_s)) }

/-- t2: the open-output slot begins, with the outcome of Table 11-4 (a state that forbids the check goes before the load, R340). -/
def State.openSlot (s : State) (i : Nat) : State :=
  let y := s.sliceOf i
  if y.phase ≠ .measure ∨ s.now < y.phaseAt + us 1000 then s
  else
    let s := s.setSlice i { y with phase := .openSlot, phaseAt := s.now }
    let done := fun s : State => s.setSlice i { s.sliceOf i with check := 1 }
    match s.sliceChannel i with
    | none => done s
    | some n =>
      let x := (s.forceOf n).view s.now
      if x.st = .detached then done s
      else if y.disturbed ∨ x.forbidsCheck then s.deferCheck i 4
      else if y.loaded then ((s.deferCheck i 2).stick f_CAL_EVENTS_deferred).assertSrc (srcCal 2)
      else
        match s.calibratedSpare (i / 68) with
        | none => s.deferCheck i 3
        | some p =>
          let s := s.setSlice p { s.sliceOf p with st := .bridging }
          s.setSlice i { s.sliceOf i with check := 1, bridge := some p }

/-- A bridge ends: the home stage is reconnected and the spare released (R325). -/
def State.unbridge (s : State) (i : Nat) : State :=
  let y := s.sliceOf i
  match y.bridge with
  | none => s
  | some p => (s.setSlice i { y with bridge := none }).setSlice p { s.sliceOf p with st := .free }

/-- The 40 µs disconnection ends, or a forbidding state ends it early (R340). -/
def State.bridgeEnd (s : State) (i : Nat) : State :=
  let y := s.sliceOf i
  if y.phaseAt + us 40 ≤ s.now ∨ y.disturbed then s.unbridge i else s

/-- t3: the open-output slot ends; a forbidding state that arose in it changes the outcome. -/
def State.openSlotEnd (s : State) (i : Nat) : State :=
  let y := s.sliceOf i
  if y.phase ≠ .openSlot ∨ s.now < y.phaseAt + us 240 then s
  else
    let s := s.unbridge i
    let s := s.setSlice i { s.sliceOf i with phase := .rest, phaseAt := s.now }
    match s.sliceChannel i with
    | some n => if y.disturbed ∧ (s.forceOf n).st ≠ .detached ∧ y.check ≠ 4 then s.deferCheck i 4 else s
    | none => s

/-- A slice has drifted (R329); one that fails its pre-calibration is RETIRED (R334). -/
def State.drifted (s : State) (i : Nat) (short : Bool) : State :=
  let s := (s.stick f_CAL_EVENTS_quality_limit).assertSrc (srcCal 8)
  let y := s.sliceOf i
  match s.sliceChannel i with
  | some n =>
    let s := s.setSlice i { y with due := some (y.due.getD .drift) }
    s.firmwareLog 0x902 2 (.channel n) 1
  | none =>
    if 64 ≤ i % 68 ∨ y.st = .precal then s.setSlice i { y with st := .retired, check := if short then 6 else y.check } else s

/-- The slice's new measure-path selection and corrections: at a sequence boundary of a channel that measures, else at once (R323). -/
def State.newCorrections (s : State) (i : Nat) : State :=
  let k := (s.sliceOf i).corr + 1
  let s := s.setSlice i { s.sliceOf i with corr := k }
  match s.sliceChannel i with
  | none => s
  | some n =>
    let q := s.seqOf n
    if q.running then s.setSeq n { q with corrNext := some k }
    else s.setSeq n { q with corr := k, corrNext := none, stale := false, staleEnd := s.now }

/-- The slice's new force correction (R324); a change of span or range during the step discards it (R340). -/
def State.newForceCorr (s : State) (i : Nat) (corr : Int) : State :=
  let y := s.sliceOf i
  if y.discard then s
  else
    let s := s.setSlice i { y with forceCorr := corr }
    match s.sliceChannel i with
    | none => s
    | some n =>
      let x := s.forceOf n
      if x.st = .detached then s.setForce n { x with corr, corrTo := corr } else s.setForce n { x with corrTo := corr }

/-- Where the slices of group `g` of a tile have no step left, the group's run is complete, at the last reading of its sensor (R320). -/
def State.groupDone (s : State) (t g : Nat) : State :=
  let k := 4 * t + g
  if (groupSlices k).any fun j => (s.queueOf t).contains j then s
  else s.setCal { s.cal with groupTemp := Table.put 0 k (Table.get 0 k s.cal.groupSeen) s.cal.groupTemp }

/-- t4: the slice step ends (R323, R324, R328, R329); `sel` is the slice's new selection and `ladder` that of the tile's reference (R322). -/
def State.endStep (s : State) (i qSpan qRange segMin temp : Nat) (corr : Int) (sel ladder : DWord) (short lost : Bool) : State :=
  let y := s.sliceOf i
  let t := i / 68
  if y.phase ≠ .rest ∨ s.now < y.phaseAt + us 808 then s
  else
    let s := s.setSlice i { y with qSpan, qRange, segMin, stepTemp := temp, stepped := some s.now, phase := .none }
    let s := (s.newCorrections i).newForceCorr i corr
    let s := (s.setSel i sel).setSel (544 + t) ladder
    let s := if s.inStep t = some i then s.setStep t 0 else s
    let s := s.setCal { s.cal with lastRun := s.abs, segLost := s.cal.segLost || lost }
    let s := (s.agentItem 21 0x15 (f64 qSpan 10) (BitVec.ofNat 32 i)).agentItem 21 0x15 (f64 qRange 10) (BitVec.ofNat 32 (i + 65536))
    let s := if s.fld f_CAL_LIMIT_span < qSpan ∨ s.fld f_CAL_LIMIT_range < qRange ∨ short then s.drifted i short else s
    (s.groupDone t (groupOf (i % 68))).endRun

/-! ## Couching (R330 to R335) -/

/-- The spare that a trigger takes (R330); none while it is not FREE. -/
def State.spareFor (s : State) (n : Nat) (d : DueFor) : Option Nat :=
  let t := n / 64
  let free := fun q : Nat => decide ((s.sliceOf (t * 68 + q)).st = .free) && s.domainOn (sliceDomain (t * 68 + q))
  let any := ([64 + n % 64 / 16, 64, 65, 66, 67] : List Nat).find? free
  match d with
  | .command 0 => any
  | .command 5 => if free (n % 64) then some (n % 64) else none
  | .command k => if free (63 + k) then some (63 + k) else none
  | _ => any

/-- Whether channel `n` may begin its couching now, and with which slice (R331). -/
def State.couchReady (s : State) (n : Nat) : Option (DueFor × Nat) :=
  let t := n / 64
  let i := s.sliceIdx n
  let x := (s.forceOf n).view s.now
  match (s.sliceOf i).due with
  | none => none
  | some d =>
    let auto : Bool := match d with | .command _ => true | _ => s.on f_CAL_COUCH_CTL_auto_en
    let waits := decide (x.st = .ranging) || decide (x.st = .spanChange) || decide (x.st = .safe) ||
      (decide (x.st ≠ .detached) && decide (x.range = 6)) || decide (s.inStep t = some i)
    if ! auto ∨ waits then none
    else
      match s.spareFor n d with
      | some q => if s.inStep t = some (t * 68 + q) then none else some (d, q)
      | none => none

/-- Credits held for a channel pass to its new slice (R190). -/
def State.moveCredits (s : State) (old new : Nat) : State :=
  s.each (List.range 64) fun f s =>
    let a := (s.creditOf old f).settle s.cycle
    if a.held = 0 then s
    else
      let b := (s.creditOf new f).settle s.cycle
      (s.setCredit old f Credit.reset).setCredit new f
        ⟨a.vat + b.vat, a.spill + b.spill, a.newVat + b.newVat, a.newSpill + b.newSpill, s.cycle⟩

/-- Channel `n` is served by slice `q` of its tile from now on: producer identity, stuff FIFOs, corrections and record (R190, R332,
R335); the entry in progress completes on the old slice. -/
def State.remap (s : State) (n q : Nat) : State :=
  let t := n / 64
  let old := s.sliceIdx n
  let new := t * 68 + q
  let y := s.sliceOf old
  let retire : Bool := match y.due with | some (.command _) => false | some _ => true | none => false
  let s := s.moveCredits old new
  let s := s.setSlice old { y with st := if retire then .retired else .free, channel := 0x3FF, due := none, bridge := none, fifo := y.fifo }
  let s := s.iff (! retire) fun s => s.sliceFreed old
  let s := s.setSlice new { s.sliceOf new with st := .serving, channel := n }
  let c := (s.sliceOf new).forceCorr
  let s := s.setForce n { s.forceOf n with slice := q, corr := c, corrTo := c }
  let m := s.seqOf n
  let k := (s.sliceOf new).corr
  let s := s.setSeq n (if m.busy then { m with corrSwap := some k, corrNext := none } else { m with corr := k, corrNext := none })
  let s := s.setRes n { s.resOf n with oldSlice := if s.oldDone n old then none else some old }
  s.recordCouch n q retire

/-- The couching of TILE[t] that comes next: the lowest due channel that need not wait. -/
def State.nextCouch (s : State) (t : Nat) : Option (Nat × DueFor × Nat) :=
  (List.range 64).findSome? fun j => (s.couchReady (64 * t + j)).map fun e => (64 * t + j, e.1, e.2)

/-- A couching begins (R331, R332): pre-calibration of the spare by a slice step of its own, or the re-mapping of a DETACHED channel. -/
def State.beginCouch (s : State) (t n q tries : Nat) : State :=
  let c := s.couchOf t
  if (s.forceOf n).st = .detached then
    (s.remap n q).setCouch t { c with step := 0, outcome := 1, slice := q, channel := n, at_ := s.now, tries := 0, retryAt := none }
  else
    let i := t * 68 + q
    (s.setSlice i { s.sliceOf i with st := .precal, phase := .load, phaseAt := s.now, loaded := false, disturbed := false,
                                     discard := false, retryAt := none }).setCouch t { c with step := 1, slice := q, channel := n, at_ := s.now, tries, retryAt := none }

def State.startCouch (s : State) (t : Nat) : State :=
  if (s.couchOf t).step ≠ 0 ∨ (s.couchOf t).retryAt.isSome ∨ s.dutyPaused 1 then s
  else match s.nextCouch t with | some (n, _, q) => s.beginCouch t n q 0 | none => s

/-- The couching is tried again 1 s after it was abandoned (R334). -/
def State.retryCouch (s : State) (t : Nat) : State :=
  let c := s.couchOf t
  match c.retryAt with
  | none => s
  | some u =>
    if s.now < u ∨ s.dutyPaused 1 then s
    else
      match s.couchReady c.channel with
      | some (_, q) => s.beginCouch t c.channel q (c.tries + 1)
      | none => s

/-- The channel leaves COUCHING for the state it held; a disable, a pending command or a detach that waited is carried out (R82). -/
def State.leaveCouching (s : State) (n : Nat) : State :=
  let x := s.forceOf n
  if x.st ≠ .couching then s
  else
    let x := { x with st := x.before, couchEnd := s.now }
    if x.disabling then s.setForce n { x with steps := zeroSteps x.mode, pending := none }
    else
      match x.pending with
      | some c => (s.setForce n { x with pending := none }).applyForce n c
      | none => if x.st = .zeroed ∧ x.detach then (s.setForce n x).enterZeroed n else s.setForce n x

/-- A couching is abandoned (R334). -/
def State.giveUpCouch (s : State) (t : Nat) (retired logged : Bool) : State :=
  let n := (s.couchOf t).channel
  let s := (s.abandonCouch t retired).leaveCouching n
  if logged then s.firmwareLog 0x901 2 (.channel n) 1 else s

/-- Step 2: the spare's slice step has ended, and it is matched, or given up where it failed. A channel in range 6 waits until it leaves it
(R102). -/
def State.matchCouch (s : State) (t : Nat) : State :=
  let c := s.couchOf t
  let n := c.channel
  let x := (s.forceOf n).view s.now
  let i := t * 68 + c.slice
  let y := s.sliceOf i
  let stepped : Bool := match y.stepped with | some u => decide (c.at_ < u) | none => false
  if c.step ≠ 1 ∨ ! stepped ∨ s.dutyPaused 1 then s
  else if y.st = .retired then s.giveUpCouch t true true
  else if (x.st = .zeroed ∨ x.st = .forcingV ∨ x.st = .forcingI) ∧ x.range ≠ 6 then
    let s := s.setSlice i { y with st := .matching }
    let s := s.setForce n { x with before := x.st, st := .couching }
    let s := s.setCouch t { c with step := 2, at_ := s.now }
    (s.stick f_CAL_EVENTS_couch_started).assertSrc (srcCal 4)
  else s

/-- The match has not held within 200 µs. -/
def State.matchFailed (s : State) (t : Nat) : State :=
  let c := s.couchOf t
  if c.step = 2 ∧ c.at_ + us 200 ≤ s.now then s.giveUpCouch t false true else s

/-- Step 3: the spare is connected in parallel. -/
def State.connectSpare (s : State) (t : Nat) : State :=
  let c := s.couchOf t
  let i := t * 68 + c.slice
  if c.step ≠ 2 ∨ s.dutyPaused 1 then s
  else (s.setSlice i { s.sliceOf i with st := .handover }).setCouch t { c with step := 3, at_ := s.now }

/-- Step 4: the handover ramp begins; the tile's last FREE spare is noted (R338). -/
def State.handover (s : State) (t : Nat) : State :=
  let c := s.couchOf t
  if c.step ≠ 3 ∨ s.now < c.at_ + us 2 ∨ s.dutyPaused 1 then s
  else
    let s := s.setCouch t { c with step := 4, at_ := s.now }
    let free := ([64, 65, 66, 67] : List Nat).any fun q => decide ((s.sliceOf (t * 68 + q)).st = .free)
    if free ∨ c.slice < 64 then s
    else
      let s := (s.setCal { s.cal with sparesOut := setBitN s.cal.sparesOut t true }).stick f_CAL_EVENTS_spare_last
      (s.assertSrc (srcCal 7)).firmwareLog 0x900 2 (.tile t) 1

/-- Step 5: the old slice is disconnected, and the couching is done. -/
def State.releaseCouch (s : State) (t : Nat) : State :=
  let c := s.couchOf t
  if c.step ≠ 4 ∨ s.now < c.at_ + us 66 ∨ s.dutyPaused 1 then s
  else
    let s := (s.remap c.channel c.slice).setCouch t { c with step := 0, outcome := 1, at_ := s.now, tries := 0, retryAt := none }
    let s := (s.stick f_CAL_EVENTS_couch_done).assertSrc (srcCal 5)
    s.leaveCouching c.channel

/-- A write of 1 to CAL_COUCH_CMD.go (R330): the channel becomes due, or the command is refused where the named slice is not FREE. A couching
of the tile under way or to be tried again keeps its channel and slice in CAL_COUCH_STATUS (DESIGN CHOICE, notes/assumptions/46.md). -/
def State.commandCouch (s : State) (n target : Nat) : State :=
  let i := s.sliceIdx n
  let t := n / 64
  match s.spareFor n (.command target) with
  | none =>
    let c := s.couchOf t
    let c := { c with outcome := 3 }
    s.setCouch t (if c.step ≠ 0 ∨ c.retryAt.isSome then c
                  else { c with slice := if target = 5 then n % 64 else if target = 0 then 0 else 63 + target, channel := n })
  | some _ => s.setSlice i { s.sliceOf i with due := some (.command target) }

/-! ## Wear (R336, R337) -/

/-- Thermal cycles: 20 K above the last minimum and then 20 K below the maximum that followed. -/
def Slice.cycle (y : Slice) (temp : Nat) : Slice :=
  match y.tMax with
  | none =>
    if y.tMin = 0 ∨ temp < y.tMin then { y with tMin := temp }
    else if y.tMin + 20 * 256 ≤ temp then { y with tMax := some temp }
    else y
  | some m =>
    if m < temp then { y with tMax := some temp }
    else if temp + 20 * 256 ≤ m then { y with tMin := temp, tMax := none, cycles := satAdd 0xFFFF y.cycles 1 }
    else y

/-- Wear in 1/1,024 of the profile. -/
def State.wearOf (s : State) (y : Slice) : Nat :=
  let q := s.fld f_CAL_WEAR_PROFILE_charge * 10 ^ 11
  let c := s.fld f_CAL_WEAR_PROFILE_cycles * 10
  min 0xFFFF (max (y.charge * 1024 / max 1 q) (y.cycles * 1024 / max 1 c))

/-- Whether the wear of a slice reaches its limit (R330). -/
def State.wornOut (s : State) (y : Slice) : Bool :=
  let l := s.fld f_CAL_COUCH_CTL_wear_limit
  decide (l * (s.fld f_CAL_WEAR_PROFILE_charge * 10 ^ 11) ≤ 100 * y.charge) || decide (l * (s.fld f_CAL_WEAR_PROFILE_cycles * 10) ≤ 100 * y.cycles)

/-- A millisecond of wear: T_SLICE and the weighted charge of the millisecond, in pAh. -/
def State.accumulate (s : State) (i temp pah : Nat) : State :=
  let y := s.sliceOf i
  let six : Bool := match s.sliceChannel i with | some n => decide ((s.forceOf n).range = 6) | none => false
  let y := (if six then y else { y with charge := y.charge + pah }).cycle temp
  let y := if (s.sliceChannel i).isSome ∧ y.due.isNone ∧ s.wornOut y then { y with due := some .wear } else y
  s.setSlice i y

/-- A half of the wear log: sequence number, charge in µAh and cycles of every slice, CRC-32C (R337; its layout is the model's choice,
notes/assumptions/77.md). -/
def State.wearHalf (s : State) (seq : Nat) : List Byte :=
  let body := leBytes seq 4 ++ (List.range 544).flatMap fun i =>
    let y := s.sliceOf i
    leBytes (min 0xFFFFFFFF (y.charge / 10 ^ 6)) 4 ++ leBytes y.cycles 4
  body ++ leBytes (crc32c body).toNat 4

/-- The firmware saves wear to the half not written last, unless the CAL duty pauses. -/
def State.saveWear (s : State) : State :=
  match s.boot.wearLog with
  | none => s
  | some (k, off) =>
    if s.dutyPaused 1 then s else
    let seq := s.cal.wearSeq + 1
    (s.writeFlash k (off + seq % 2 * 32768) (s.wearHalf seq)).setCal { s.cal with wearSeq := seq }

/-- Length of a half that is in use. -/
def wearLen : Nat := 4 + 544 * 8 + 4

/-- The sequence number of a half whose CRC matches. -/
def wearValid (l : List Byte) : Option Nat :=
  let body := l.take (wearLen - 4)
  if (crc32c body).toNat = leNat (l.drop (wearLen - 4)) then some (leNat (body.take 4)) else none

/-- The newest valid half of the wear log at byte `off` of slot `k`: its sequence number and its bytes (R337). -/
def State.wearPick (s : State) (k off : Nat) : Option (Nat × List Byte) :=
  let a := s.flashBytes k off wearLen
  let b := s.flashBytes k (off + 32768) wearLen
  match wearValid a, wearValid b with
  | some x, some y => some (if x < y then (y, b) else (x, a))
  | some x, none => some (x, a)
  | none, some y => some (y, b)
  | none, none => none

/-- The wear of every slice, as a half holds it. -/
def State.loadHalf (s : State) (seq : Nat) (l : List Byte) : State :=
  (s.setCal { s.cal with wearSeq := seq }).each (List.range 544) fun i s =>
    let r := l.drop (4 + 8 * i)
    s.setSlice i { s.sliceOf i with charge := leNat (r.take 4) * 10 ^ 6, cycles := min 0xFFFF (leNat ((r.drop 4).take 4)) }

/-- The newest valid half of the wear log at byte `off` of slot `k` is loaded; with none valid wear stays as it is. -/
def State.loadNewest (s : State) (k off : Nat) : State := (s.wearPick k off).elim s fun x => s.loadHalf x.1 x.2

/-- At start-up the newest valid half is loaded (R337). -/
def State.loadWear (s : State) : State :=
  match s.boot.wearLog with
  | none => s
  | some (k, off) => s.loadNewest k off

end Sys2Proof.Machine
end

