-- ==== Sys2Proof/Machine/PwrOps.lean ====
section
/-!
DEFINITION. Supplies, the thermal governor and the power domains (R18 to R20, R376, R380, R381, R386 to R392).
-/

namespace Sys2Proof.Machine

open Sys2Proof

def State.setPwr (s : State) (x : Pwr) : State := { s with pwr := x }

/-- The power controller's master ID (Table 10-10). -/
def pwrMaster : Nat := 0x111F

/-- Mark a switched domain on or off. -/
def State.markDomain (s : State) (d : Nat) (on : Bool) : State :=
  s.setPwr { s.pwr with on := BitVec.ofNat 62 (setBitN s.pwr.on.toNat d on) }

/-! ## Slice groups (R19, R20, R392) -/

/-- The slice group of number 4t + g that domain 5t + g switches. -/
def domainSlices (d : Nat) : List Nat := groupSlices (4 * (d / 5) + d % 5)

/-- Channels that the slices of a slice-group domain serve. -/
def State.domainChannels (s : State) (d : Nat) : List Nat :=
  ((List.range 64).map fun k => 64 * (d / 5) + k).filter fun n => decide (sliceDomain (s.sliceIdx n) = d)

/-- A slice group is in use (Table 1-3). A spare that bridges an open-output check counts as being calibrated (DESIGN CHOICE,
notes/assumptions/87.md). -/
def State.groupInUse (s : State) (d : Nat) : Bool :=
  ((s.domainChannels d).any fun n => decide ((s.forceOf n).st ≠ .detached)) ||
    (domainSlices d).any fun i =>
      decide ((s.sliceOf i).phase ≠ .none) || decide ((s.sliceOf i).st = .bridging) || s.inCouching i

/-- What a slice loses with its power: a step and a couching it is in, a bridge, and its stuff FIFO. -/
def State.sliceOff (s : State) (i : Nat) : State :=
  let t := i / 68
  let s := s.iff (s.inCouching i) fun s => s.giveUpCouch t false false
  let s := s.iff (decide (s.inStep t = some i)) fun s => (s.unbridge i).setStep t 0
  let s := s.setQueue t ((s.queueOf t).filter fun j => decide (j ≠ i))
  s.setSlice i { s.sliceOf i with phase := .none, fifo := [] }

/-- A slice group is off: its channels are DETACHED and their sequencers stop (R20, R111). -/
def State.groupOff (s : State) (d : Nat) : State :=
  if ! s.domainOn d then s
  else
    let s := s.each (domainSlices d) fun i s => s.sliceOff i
    let s := s.each (s.domainChannels d) fun n s => (s.dropForce n).stopSeq n
    let s := (s.markDomain d false).setPwr { s.pwr with on := (s.markDomain d false).pwr.on, rising := Table.erase d s.pwr.rising }
    s.endRun

/-- A slice group is switched on: its slices come up DETACHED, and sequencers whose run is still 1 start (R20, R111). -/
def State.groupOn (s : State) (d : Nat) : State :=
  if s.domainOn d then s
  else
    let s := s.markDomain d true
    let s := s.setPwr { s.pwr with rising := Table.insert d s.now s.pwr.rising }
    s.each (s.domainChannels d) fun n s =>
      let s := s.dropForce n
      if s.on f_CH_MEAS_CTL_run n then s.startSeq n else s

/-- The slice-group domains of TILE[t]. -/
def tileGroups (t : Nat) : List Nat := [5 * t, 5 * t + 1, 5 * t + 2, 5 * t + 3]

/-- The tile common domain: a guard that reported an overload is off with it (R104). -/
def State.tileCommonOff (s : State) (t : Nat) : State :=
  let s := s.markDomain (5 * t + 4) false
  { s with guards := (List.range 8).foldl (fun g k => setBitN g (8 * t + k) false) s.guards }

/-- Every domain of TILE[t] is switched off after a rail loss (R380). -/
def State.tileOff (s : State) (t : Nat) : State :=
  let s := (s.each (tileGroups t) fun d s => s.groupOff d).tileCommonOff t
  s.setPwr { s.pwr with offDue := Table.erase t s.pwr.offDue }

/-- The tile common domain is switched on; tile source 6 asserts as it comes on (Table 7-2). -/
def State.tileCommonOn (s : State) (t : Nat) : State :=
  if s.domainOn (5 * t + 4) then s else (s.markDomain (5 * t + 4) true).assertSrc (srcTile t 6)

/-- Every domain of TILE[t] is switched on. -/
def State.tileOn (s : State) (t : Nat) : State :=
  (s.tileCommonOn t).each (tileGroups t) fun d s => s.groupOn d

/-- A slice group is powered within 200 µs, and a calibration run of its slices starts (R392). -/
def State.groupPowered (s : State) (d : Nat) : State :=
  if ! (s.pwr.rising.any fun e => decide (e.1 = d)) ∨ ! s.domainOn d then s
  else
    let s := s.setPwr { s.pwr with rising := Table.erase d s.pwr.rising }
    s.addRun (domainSlices d) true

/-! ## Web ports (Table 1-3, Table 9-3) -/

/-- A port carries the raster root path: on a follower its beat ports, the primary and the alternative, and on the root and on a follower
the ports that it sends beats on; with root 0 and src none no beat port is used (R65). Which ports carry the path is a DESIGN CHOICE
(notes/assumptions/87.md). -/
def State.rootPath (s : State) (p : Nat) : Bool :=
  let follower := ! s.on f_TB_CTL_root && decide (s.fld f_TB_CTL_src = 5)
  (follower && s.on f_TB_BEAT_CTL_up_valid && decide (s.fld f_TB_BEAT_CTL_up_port = p)) ||
  (follower && s.on f_TB_BEAT_CTL_alt_valid && decide (s.fld f_TB_BEAT_CTL_alt_port = p)) ||
  ((s.on f_TB_CTL_root || follower) && decide (0 < s.fld f_TB_BEAT_CTL_interval) && (s.fld f_TB_BEAT_CTL_down_mask).testBit p)

/-- A web port is in use: it carries the raster root path or a route of the routing table (R19); a host bridge link is reached by a
route. -/
def State.webPortInUse (s : State) (p : Nat) : Bool :=
  s.rootPath p ||
  s.regs.any fun e =>
    decide (regAddr .WEB_ROUTE 0 0 ≤ e.1 ∧ e.1 < regAddr .WEB_ROUTE 4096 0) && bit e.2 31 &&
      (decide (bits e.2 0 2 = p) || (bit e.2 30 && decide (bits e.2 4 2 = p)))

/-- The web rails are within limits. -/
def State.webRails (s : State) : Bool := s.pwr.hubOk.testBit 3 && s.pwr.hubOk.testBit 4

/-- An enabled, powered port that is DISABLED looks for its peer (Table 9-3); none does while a web rail is lost (R380). -/
def State.portStart (s : State) (p : Nat) : State :=
  if s.portPowered p ∧ s.webRails ∧ s.on f_WEB_PORT_CTL_enable p ∧ (s.portOf p).st = .disabled then s.enterPort p .detect else s

/-! ## Domain requests (R19, R392) -/

/-- A request is refused with a class-A fault: REG_REFUSED or DOMAIN_REFUSED. -/
def State.domainRefused (s : State) (m code : Nat) : State :=
  (s.stick f_PWR_EVENTS_refused).writeFault code .none m (regAddr .PWR_DOMAIN_REQ 0 0)

/-- Switch domain `d` on. -/
def State.switchOn (s : State) (d : Nat) : State :=
  if 40 ≤ d then (s.markDomain d true).portStart (d - 40)
  else if d % 5 = 4 then s.tileCommonOn (d / 5)
  else (s.tileCommonOn (d / 5)).groupOn d

/-- Switch domain `d` off, or refuse while it is in use. -/
def State.switchOff (s : State) (m d : Nat) : State :=
  if 40 ≤ d then
    if s.webPortInUse (d - 40) then s.domainRefused m 0x003 else (s.markDomain d false).portDisabled (d - 40)
  else if d % 5 = 4 then
    if (tileGroups (d / 5)).any fun g => s.domainOn g && s.groupInUse g then s.domainRefused m 0x003
    else (s.each (tileGroups (d / 5)) fun g s => s.groupOff g).tileCommonOff (d / 5)
  else if s.groupInUse d then s.domainRefused m 0x003
  else s.groupOff d

/-- A write to PWR_DOMAIN_REQ (R392). -/
def State.domainRequest (s : State) (m : Nat) (v : Word) : State :=
  let d := bits v 0 6
  if 43 < d ∨ bit v 31 = bit v 30 then s.domainRefused m 0x004
  else if bit v 31 then s.switchOn d
  else s.switchOff m d

/-! ## Supply loss (Table 13-3) -/

/-- A rail of TILE[t] is lost. -/
def State.tileRailLost (s : State) (t : Nat) : State :=
  if s.pwr.tileLost.testBit t then s
  else
    let s := s.setPwr { s.pwr with tileLost := setBitN s.pwr.tileLost t true, offDue := Table.insert t s.now s.pwr.offDue }
    (s.stick f_PWR_EVENTS_supply_tile).fault 0xB02 4 (.tile t) pwrMaster

/-- SUPPLY_TILE clears: the tile's domains are switched on, and a calibration run of the tile starts. -/
def State.tileRailBack (s : State) (t : Nat) : State :=
  if ! s.pwr.tileLost.testBit t then s
  else
    let s := s.setPwr { s.pwr with tileLost := setBitN s.pwr.tileLost t false, offDue := Table.erase t s.pwr.offDue }
    if s.dev.phase < 5 ∨ s.dev.phase = 0xF then s
    else (s.tileOn t).addRun ((List.range 68).map fun q => 68 * t + q) true

/-- The lost tile's domains switch off once its outputs are within 10 mV of 0 V, or 50 µs after detection. -/
def State.tileDomainsOff (s : State) (t : Nat) (within : Bool) : State :=
  match s.pwr.offDue.find? fun e => decide (e.1 = t) with
  | some e => if within ∨ e.2 + us 50 ≤ s.now then s.tileOff t else s
  | none => s

/-- The registers of the always-on domain: the timebase and the fault collector (R381). -/
def keptAddr (a : Nat) : Bool := decide (blkBase .tb ≤ a ∧ a < blkBase .evm) || decide (blkBase .flt ≤ a ∧ a < blkBase .cal)

/-- The hub loses everything outside the always-on domain (R381). -/
def State.hubLost (s : State) : State :=
  { State.reset with
    now := s.now, regs := s.regs.filter (fun e => keptAddr e.1), tb := s.tb, flt := s.flt, fuses := s.fuses, flash := s.flash,
    pwr := { Pwr.reset with hubOk := s.pwr.hubOk, tileLost := s.pwr.tileLost, hubReset := true },
    free := s.free, pending := s.pending }

/-- A full POR: only fuses and flash keep their contents (R376). -/
def State.porReset (s : State) : State :=
  { State.reset with fuses := s.fuses, flash := s.flash, free := s.free, pending := s.pending, pwr := { Pwr.reset with porHeld := true } }

/-- A hub rail is lost: bits of PWR_STATUS.hub_rail_ok; bits 3 and 4 are the web rails. -/
def State.hubRailLost (s : State) (r : Nat) : State :=
  if r = 2 then s.porReset
  else if ! s.pwr.hubOk.testBit r ∨ s.pwr.hubReset then s.setPwr { s.pwr with hubOk := setBitN s.pwr.hubOk r false }
  else
    let s := s.setPwr { s.pwr with hubOk := setBitN s.pwr.hubOk r false }
    let s := (s.stick f_PWR_EVENTS_supply_hub).fault 0xB03 5 .device pwrMaster
    if r = 3 ∨ r = 4 then s.each ((List.range 4).filter fun p => s.portPowered p) fun p s => s.portFailed p
    else s.hubLost

/-- SUPPLY_HUB clears: the rails are back, and an enabled port that waited for them looks for its peer. -/
def State.hubRailsBack (s : State) : State :=
  (s.setPwr { s.pwr with hubOk := 0x1FF }).each (List.range 4) fun p s => s.portStart p

/-- The device starts again at boot phase 0x0 (R380). -/
def State.hubRestart (s : State) : State :=
  if ! s.pwr.hubReset then s
  else (s.setPwr { s.pwr with hubOk := 0x1FF, hubReset := false }).clearCondition 0xB03 .device none

/-! ## Thermal governor (R386 to R391) -/

/-- A temperature in units of 1/16 °C. -/
def sixteenths (v : Nat) : Int := signed 16 v

/-- The POWER item of agent 29 (R391). -/
def State.powerItem (s : State) : State :=
  let k := (List.range 8).foldl (fun m t => max m (s.govSteps t)) 0
  s.agentItem 29 0x19 (f64 s.pwr.powerMw 1000) (BitVec.ofNat 32 k)

/-- The excursion timer after a millisecond of power `mw` (R387). -/
def State.excursion (s : State) (mw : Nat) : Nat × Nat :=
  let allow := s.fld f_PWR_CTL_allow_ms
  if s.fld f_PWR_CTL_budget_w * 1000 < mw then (min allow (s.pwr.timer + 1), 0)
  else if s.pwr.timerSub + 1 < 10 then (min allow s.pwr.timer, s.pwr.timerSub + 1)
  else (min allow (s.pwr.timer - 1), 0)

/-- A measurement of power and of every sensor (R386, R389). -/
def State.measurePower (s : State) (mw : Nat) (tiles : List Nat) (stack hub : Nat) : State :=
  let x := s.pwr
  let tm := s.excursion mw
  let low := decide (16 * mw ≤ 15 * (s.fld f_PWR_CTL_budget_w * 1000))
  let temp := fun t => tiles.getD t 0 % 65536
  let cool := (List.range 8).filter fun t => decide (sixteenths (temp t) < 1760)
  let since := cool.map fun t => (t, ((x.coolSince.find? fun e => decide (e.1 = t)).map fun e => e.2).getD s.now)
  let hot := (List.range 8).filter fun t =>
    decide (2000 ≤ sixteenths (temp t)) && decide (sixteenths (Table.get 0 t x.tileTemp) < 2000)
  let s := s.setPwr { x with
    powerMw := mw % 2 ^ 20, timer := tm.1, timerSub := tm.2, lowSince := if low then some (x.lowSince.getD s.now) else none,
    coolSince := since, tileTemp := (List.range 8).foldl (fun l t => Table.put 0 t (temp t) l) x.tileTemp,
    stackTemp := stack % 65536, hubTemp := hub % 65536 }
  s.each hot fun t s => (s.stick f_PWR_EVENTS_trip).fault 0xB01 4 (.tile t) pwrMaster

/-- Ten milliseconds have passed since the last step, and no step was released in them. -/
def State.stepFree (s : State) (last : Option Nat) : Bool :=
  let far : Option Nat → Bool := fun u => match u with | some u => decide (u + ms 10 ≤ s.now) | none => true
  far last && far s.pwr.relAt

/-- What a step taken says: tile source 4 and THERMAL_STEP for each tile whose k changes (R391). -/
def State.stepNotices (s : State) (tiles : List Nat) : State :=
  let s := s.each tiles fun t s => (s.assertSrc (srcTile t 4)).fault 0xB00 1 (.tile t) pwrMaster
  let s := s.stick f_PWR_EVENTS_step
  if tiles = [] then s else s.powerItem

/-- A device step (R388). -/
def State.deviceStep (s : State) : State :=
  let x := s.pwr
  if x.timer < s.fld f_PWR_CTL_allow_ms ∨ x.powerMw ≤ s.fld f_PWR_CTL_budget_w * 1000 ∨ 7 ≤ x.devSteps ∨ ! s.stepFree x.stepAt then s
  else
    let tiles := (List.range 8).filter fun t => decide (s.govSteps t < 7)
    (s.setPwr { x with devSteps := x.devSteps + 1, stepAt := some s.now }).stepNotices tiles

/-- A tile step (R389). -/
def State.tileStep (s : State) (t : Nat) : State :=
  let x := s.pwr
  let last := (x.tileStepAt.find? fun e => decide (e.1 = t)).map fun e => e.2
  if sixteenths (Table.get 0 t x.tileTemp) < 1840 ∨ 7 ≤ s.govSteps t ∨ ! s.stepFree last then s
  else
    (s.setPwr { x with tileSteps := Table.put 0 t (Table.get 0 t x.tileSteps + 1) x.tileSteps,
                       tileStepAt := Table.insert t s.now x.tileStepAt }).stepNotices [t]

/-- A second has passed since an instant. -/
def State.secondSince (s : State) (u : Option Nat) : Bool := match u with | some u => decide (u + ms 1000 ≤ s.now) | none => false

/-- A step has been released from `old`: the POWER item is written where the steps of some tile change (R391). -/
def State.stepReleased (s old : State) : State :=
  let s := s.stick f_PWR_EVENTS_release
  if (List.range 8).any fun t => decide (s.govSteps t ≠ old.govSteps t) then s.powerItem else s

/-- A step is released (R390): a device step, or one of a tile. -/
def State.releaseStep (s : State) (tile : Option Nat) : State :=
  let x := s.pwr
  let free : Bool := match x.relAt with | some u => decide (u + ms 1000 ≤ s.now) | none => true
  match tile with
  | none =>
    if x.devSteps = 0 ∨ ! s.secondSince x.lowSince ∨ ! free then s
    else ((s.setPwr { x with devSteps := x.devSteps - 1, relAt := some s.now }).stepReleased s)
  | some t =>
    let k := Table.get 0 t x.tileSteps
    if k = 0 ∨ ! s.secondSince ((x.coolSince.find? fun e => decide (e.1 = t)).map fun e => e.2) ∨ ! free then s
    else ((s.setPwr { x with tileSteps := Table.put 0 t (k - 1) x.tileSteps, relAt := some s.now }).stepReleased s)

end Sys2Proof.Machine
end

