-- ==== Sys2Proof/Machine/RegView.lean ====
section
/-!
DEFINITION. What a register reads as: its stored fields, and the read-only fields computed from the state (R7, R9, R33; the register
sections of every chapter). A write-only field reads 0.
-/

namespace Sys2Proof.Machine

open Sys2Proof

/-- A word with one field. -/
def fieldIf (b : Bool) (i : Nat) : Word := place i 1 (b2n b)

/-- A word made of parts. -/
def orAll (l : List Word) : Word := l.foldl (fun a b => a ||| b) 0

/-- A field of `k` bits at `lo` + `step` × i for each i below `n`. -/
def packed (n step k : Nat) (g : Nat → Nat) : Word := orAll ((List.range n).map fun i => place (step * i) k (g i))

/-! ## Identity and keys (R353, R355) -/

/-- The security floor: the number of 1 bits of fuse words 2 and 3. -/
def State.secFloor (s : State) : Nat :=
  (List.range 64).foldl (fun n i => n + b2n (bit (s.fuseWord (2 + i / 32)) (i % 32))) 0

/-- A digest held in eight fuse words from word `i`, byte 0 lowest. -/
def State.fuseDigest (s : State) (i : Nat) : BitVec 256 :=
  BitVec.ofNat 256 ((List.range 8).foldl (fun v j => v + (s.fuseWord (i + j)).toNat * 2 ^ (32 * j)) 0)

/-- Key slot states in the coding of BOOT_STATUS.key_state: 0 EMPTY, 1 VALID, 2 REVOKED, 3 ABANDONED. -/
def State.keyState (s : State) (k : Nat) : Nat :=
  let c := s.fuseWord 4
  if bit c k then 2 else if bit c (4 + k) then 1 else if s.fuseDigest (8 + 8 * k) = 0 then 0 else 3

/-- The four key states, two bits each. -/
def State.keyStates (s : State) : Nat := (List.range 4).foldl (fun v k => v + s.keyState k * 4 ^ k) 0

/-- The serial number. -/
def State.serial (s : State) : Nat := (s.fuseWord 0).toNat + (s.fuseWord 1).toNat * 2 ^ 32

/-! ## DEVICE -/

/-- DEVICE_SPARE_MAP: spare SL[64+j] of TILE[t] serves a channel, from the handover ramp on. -/
def State.spareServes (s : State) (t j : Nat) : Bool :=
  let c := s.couchOf t
  ((List.range 64).any fun k => decide ((s.forceOf (64 * t + k)).slice = 64 + j)) || (decide (4 ≤ c.step) && decide (c.slice = 64 + j))

def State.spareMap (s : State) (t : Nat) : Nat := (List.range 4).foldl (fun v j => v + b2n (s.spareServes t j) * 2 ^ j) 0

/-- DEVICE_STATUS.spare_exhausted (R33, R338): some tile has all four spares in service, or its last FREE one has entered a handover and none
has become FREE since. -/
def State.sparesGone (s : State) : Bool := s.cal.sparesOut != 0 || (List.range 8).any fun t => decide (s.spareMap t = 15)

def State.tilePowered (s : State) : Nat := (List.range 8).foldl (fun v t => v + b2n (s.domainOn (5 * t + 4)) * 2 ^ t) 0

def State.staged (s : State) : Bool := decide (s.boot.amend.st = .staged)

def State.deviceStatus (s : State) : Word :=
  orAll [place 28 4 s.dev.phase, place 24 3 s.maxClass, fieldIf s.dev.forerunner 23, fieldIf s.holdover 22,
    fieldIf ((List.range 8).any fun t => s.govSteps t != 0) 21, fieldIf s.sparesGone 20, fieldIf s.dev.test 19, fieldIf s.staged 18,
    place 17 1 s.boot.active, fieldIf s.tb.ready 16, place 8 8 s.flt.tileSafe, place 0 8 s.tilePowered]

/-! ## TB -/

def TbState.code : TbState → Nat
  | .unlocked => 0 | .acquiring => 1 | .locked => 2 | .holdover => 3 | .slewing => 4

/-- TB_PHASE_ERR: the error in phase units, saturated. -/
def State.phaseErr (s : State) : Word := BitVec.ofInt 32 (clampInt (2 ^ 31 - 1) (s.tb.err / 65536))

def State.altOffset (s : State) : Word :=
  match s.altPort with
  | some p => if (s.beatPortOf p).judge.qualified then BitVec.ofInt 32 (s.beatPortOf p).offset else 0
  | none => 0

def State.beatStatus (s : State) : Word :=
  let altOk : Bool := match s.altPort with | some p => (s.beatPortOf p).judge.qualified | none => false
  let upHold : Bool := match s.tb.active with
    | some p => (match (s.beatPortOf p).beat with | some b => b.hold | none => false)
    | none => false
  orAll [fieldIf altOk 4, fieldIf upHold 3, fieldIf s.tb.active.isSome 2, place 0 2 (s.tb.active.getD 0)]

/-! ## CH and TILE -/

def ChState.code : ChState → Nat
  | .detached => 0 | .zeroed => 1 | .forcingV => 2 | .forcingI => 3 | .ranging => 4 | .spanChange => 5 | .couching => 6 | .safe => 7

def State.chState (s : State) (n : Nat) : Word :=
  let x := (s.forceOf n).view s.now
  orAll [place 28 4 x.st.code, fieldIf x.mode 27, place 25 2 x.span, place 22 3 x.range, fieldIf (x.closed && decide (x.range ≠ 6)) 21, fieldIf x.clamped 20,
    fieldIf x.short 19, fieldIf (decide (x.present ≠ x.target)) 18, fieldIf x.disabling 17, fieldIf x.pending.isSome 16,
    fieldIf x.attachMissed 15, fieldIf (decide (x.range = 6) && s.boosterBound n) 14, place 7 7 x.slice]

/-- A channel that a guard may follow (R103). -/
def State.followable (s : State) (n : Nat) : Bool :=
  let x := s.forceOf n
  decide (x.st ≠ .detached) && ! (decide (x.st = .safe) && ! x.closed)

/-- What a guard drives (R103): 0 V, a fixed level in units of 15 V / 32,768, or the voltage at SENSE of a channel; of one in range 6 four
times the voltage at BST_VSNS. -/
inductive GuardDrive where
  | zero
  | fixed (level : Int)
  | sense (n : Nat)
  | boost (n : Nat)
  deriving DecidableEq, Repr

/-- The drive of a guard that follows channel `n`, where it qualifies. -/
def State.followDrive (s : State) (n : Nat) : GuardDrive := if ((s.forceOf n).view s.now).range = 6 then .boost n else .sense n

/-- What guard 8t + j drives now (R103, R104); the channel is chosen anew in every event cycle. -/
def State.guardDrive (s : State) (t j : Nat) : GuardDrive :=
  let k := 8 * t + j
  if s.guards.testBit k ∨ ! s.domainOn (5 * t + 4) then .zero
  else
    match s.fld f_TILE_GUARD_CTL_mode t j with
    | 0 => match (List.range 8).find? fun c => s.followable (8 * k + c) with | some c => s.followDrive (8 * k + c) | none => .zero
    | 1 =>
      let n := 8 * k + s.fld f_TILE_GUARD_CTL_follow t j
      if s.followable n then s.followDrive n else .zero
    | 2 => .fixed (signed 16 (s.fld f_TILE_GUARD_CTL_level t j))
    | _ => .zero

/-- The level of a guard in volts, `sense` and `vsns` being the voltages at SENSE and at BST_VSNS of a channel (R103). -/
def GuardDrive.level (d : GuardDrive) (sense vsns : Nat → Ratio) : Ratio :=
  match d with
  | .zero => ⟨0, 1⟩
  | .fixed l => ⟨15 * l, 32768⟩
  | .sense n => sense n
  | .boost n =>
    let v := (vsns n).mul ⟨4, 1⟩
    if v.absGt ⟨15, 1⟩ then (if v.num < 0 then ⟨-15, 1⟩ else ⟨15, 1⟩) else v

/-- Guard 8t + j drives a followed or fixed level (TILE_GUARD_STATUS.driving). -/
def State.guardDrives (s : State) (t j : Nat) : Bool := s.guardDrive t j != .zero

def State.measStatus (s : State) (n : Nat) : Word :=
  let q := s.seqOf n
  let y := s.sliceOf (s.sliceIdx n)
  orAll [place 28 4 q.entry, place 26 2 q.profile, fieldIf q.pend.isSome 25, fieldIf q.lp 24, fieldIf q.lpUntil.isSome 23,
    fieldIf (q.rangeHold && s.autorange n) 22, fieldIf q.stale 21, place 18 3 (if y.failed = 0 then y.cell else 7)]

def EngState.code : EngState → Nat
  | .idle => 0 | .armed => 1 | .primed => 2 | .running => 3 | .waiting => 4 | .starved => 5

def State.sweepStatus (s : State) (n : Nat) : Word :=
  let e := s.engOf n
  let ahead := if e.buf = [] then 0 else e.bufLo + e.buf.length - e.next
  orAll [place 28 4 (s.shownState n).code, place 24 4 e.reason, place 16 8 ahead, place 13 3 e.stack.length, fieldIf e.latch 12,
    fieldIf (s.playing n) 11]

/-- Loop frame `d`, 0 the outermost. -/
def Eng.frameAt (e : Eng) (d : Nat) : Option LoopFrame := e.stack.reverse[d]?

def State.resStatus (s : State) (n : Nat) : Word :=
  let l := (s.sliceOf (s.stampSlice n)).fifo
  let head := match l with | e :: _ => e.felt | [] => 0
  orAll [place 8 6 head, fieldIf (s.resOf n).waiting 7, place 1 5 l.length, fieldIf l.isEmpty 0]

/-! ## QUE and EVM -/

def FeltState.code : FeltState → Nat
  | .off => 0 | .active => 1 | .draining => 2 | .drained => 3

def State.feltStatus (s : State) (f : Nat) : Word :=
  let x := s.feltOf f
  orAll [place 30 2 x.st.code, fieldIf (s.refillWait f) 29, packed 8 1 1 (fun q => b2n (! (x.lane q).isEmpty)) <<< 16]

/-- Staged values await a commit of routing channel `c` (R217). -/
def State.rcStaged (s : State) (c : Nat) : Bool :=
  s.evm.staged.any fun e => decide (regAddr .EVM_RC_CTL c 0 ≤ e.1 ∧ e.1 < regAddr .EVM_RC_CTL (c + 1) 0)

/-! ## MEMC -/

def MemState.code : MemState → Nat
  | .untrained => 0 | .training => 1 | .service => 2 | .selfRefresh => 3 | .retention => 4 | .freqSwitch => 5

/-- MEMC_TRAIN.pc: 0 until start-up training has ended. -/
def State.trainingPc (s : State) : Nat :=
  if s.memc.st = .untrained ∨ s.memc.st = .training then 0 else Config.trainPc s.now % 32

/-- Fewest spare rows left in any bank; 0 before the end of start-up training. -/
def State.spareMin (s : State) : Nat :=
  if s.memc.st = .untrained ∨ s.memc.st = .training then 0
  else (List.range 1024).foldl (fun m k => min m (Config.spareRows k - (s.bankOf k).spares)) 255

def State.memcStatus (s : State) : Word :=
  orAll [place 28 4 s.memc.st.code, fieldIf s.memc.gathering 27, fieldIf s.memc.freqWait.isSome 26,
    fieldIf s.drainWait 25, fieldIf (decide (s.memc.throttled ≠ 0)) 24, place 16 6 s.urgentPorts]

/-! ## WEB -/

def PortState.code : PortState → Nat
  | .disabled => 0 | .detect => 1 | .train => 2 | .align => 3 | .param => 4 | .active => 5 | .retrain => 6 | .failed => 7

def Health.code : Health → Nat
  | .good => 0 | .warn => 1 | .failed => 2 | .off => 3

def State.portStatus (s : State) (p : Nat) : Word :=
  let x := s.portOf p
  orAll [place 28 4 x.st.code, fieldIf x.degraded 27, fieldIf (x.rateAsked.isSome || x.rateWait.isSome || x.rateNew.isSome) 26,
    place 22 2 x.rx1, place 20 2 x.rx0, place 18 2 x.tx1, place 16 2 x.tx0, place 14 2 x.peerPort, fieldIf x.peerValid 13,
    place 0 12 x.peerNode]

/-! ## FLT and TEST -/

def State.fltStatus (s : State) : Word :=
  orAll [place 29 3 s.maxClass, fieldIf s.flt.deviceSafe 28, fieldIf s.flt.safeN 27, fieldIf s.flt.held 26, fieldIf s.flt.firstFrozen 25,
    fieldIf s.faultPin 24, fieldIf s.alertPin 23, place 8 8 s.flt.tileSafe]

/-- FLT_UNACK: unacknowledged records by reaction class. -/
def State.unackWord (s : State) : Word :=
  packed 5 6 6 fun c => min 63 (s.unacked.filter fun r => decide (r.det.cls = c + 1)).length

/-- The record at place `i` of the ring (R297). -/
def State.ringAt (s : State) (i : Nat) : Option Record := s.records.find? fun r => decide (r.seq % 64 = i)

def recordWord (r : Option Record) (w : Nat) : Word := match r with | some r => r.word w | none => 0

def State.testStatus (s : State) : Word :=
  let any := fun (r : Reg) (k : Nat) => (List.range k).any fun i => s.rd r i != 0
  orAll [fieldIf s.dev.test 31, fieldIf (s.que.overFelt.isSome || s.que.overStuff.isSome) 5, fieldIf (any .TEST_BEAT_SKEW 4) 4,
    fieldIf (any .TEST_HBM_STRETCH 6) 3,
    fieldIf (any .TEST_CONSUMER_HOLD_LO 1 || any .TEST_CONSUMER_HOLD_HI 1 || any .TEST_PORT_HOLD 1) 2,
    fieldIf (any .TEST_CREDIT_HOLD_LO 1 || any .TEST_CREDIT_HOLD_HI 1) 1, fieldIf (any .TEST_WEB_DELAY 4) 0]

/-! ## CAL -/

def State.calStatus (s : State) : Word :=
  orAll [fieldIf s.cal.running 31, fieldIf s.cal.burn.isSome 30, fieldIf s.cal.fuseFull 29, fieldIf s.cal.couchFull 28,
    fieldIf s.cal.repairFull 27, place 24 3 s.cal.gen, place 16 8 s.cal.claimed,
    packed 8 1 1 (fun t => b2n (s.inStep t).isSome) <<< 8, place 0 8 s.cal.committed]

def SliceState.code : SliceState → Nat
  | .serving => 0 | .free => 1 | .precal => 2 | .matching => 3 | .handover => 4 | .bridging => 5 | .retired => 6

/-- CAL_SLICE_STATUS.check: 5 while a step runs or its results wait for a sequence boundary. -/
def State.checkView (s : State) (i : Nat) : Nat :=
  let y := s.sliceOf i
  let waits : Bool := match s.sliceChannel i with
    | some n => (s.seqOf n).stale || (s.seqOf n).corrNext.isSome
    | none => false
  if y.phase ≠ .none ∨ waits then 5 else y.check

def State.sliceStatus (s : State) (i : Nat) : Word :=
  let y := s.sliceOf i
  orAll [place 28 4 y.st.code, place 25 3 (s.checkView i), fieldIf y.due.isSome 24, place 16 8 y.segMin, place 0 10 y.channel]

def State.couchStatus (s : State) (t : Nat) : Word :=
  let c := s.couchOf t
  orAll [place 28 4 c.step, place 24 4 c.outcome, place 9 7 c.slice, place 0 9 c.channel]

/-- CAL_SPARES: the spare core, the spare receive lanes, and the fewest spare rows. -/
def State.sparesWord (s : State) : Word :=
  let core := (List.range 4).any fun k => decide ((s.coreOf k).duty = 3) && ! (s.coreOf k).failed
  let lane := fun p => let x := s.portOf p; decide (x.rx0 ≠ 2) && decide (x.rx1 ≠ 2)
  orAll [fieldIf core 31, packed 4 1 1 (fun p => b2n (lane p)) <<< 24, place 16 8 s.spareMin]

def State.freeSpares (s : State) (t : Nat) : Nat :=
  (([64, 65, 66, 67] : List Nat).filter fun q => decide ((s.sliceOf (68 * t + q)).st = .free)).length

/-! ## BOOT and PWR -/

def AmendState.code : AmendState → Nat
  | .idle => 0 | .receiving => 1 | .verifying => 2 | .preparing => 3 | .staged => 4 | .switching => 5

def State.bootStatus (s : State) : Word :=
  let b := s.boot
  let fuses := if s.dev.phase = 0 then 0 else place 17 6 s.secFloor ||| place 8 8 s.keyStates
  orAll [place 31 1 b.slot, fieldIf b.triedB 30, fieldIf b.triedA 29, place 23 6 b.secVersion, place 6 2 b.signer, fuses]

def State.coreStatus (s : State) : Word :=
  orAll ((List.range 4).map fun k =>
    let c := s.coreOf k
    orAll [fieldIf c.restarting (4 * k + 3), fieldIf c.failed (4 * k + 2), place (4 * k) 2 c.duty])

/-- Bytes of the package held (BOOT_AMEND_RX). -/
def Amend.received (a : Amend) : Nat := a.have_.foldl (fun n p => n + p.2) 0

def State.domainWord (s : State) (hi : Bool) : Word :=
  if hi then BitVec.ofNat 32 (s.pwr.on.toNat / 2 ^ 32) ||| 0x80000000 else BitVec.ofNat 32 s.pwr.on.toNat

def State.pwrStatus (s : State) : Word :=
  orAll [place 28 4 s.pwr.devSteps, fieldIf (decide (s.fld f_PWR_CTL_budget_w * 1000 < s.pwr.powerMw)) 27, place 16 8 s.pwr.tileLost,
    place 0 9 s.pwr.hubOk]

/-! ## Every register -/

/-- The read-only fields of a register, in place. -/
def State.roFields (s : State) (r : Reg) (i j : Nat) : Word :=
  match r with
  | .DEVICE_ID => 0x5120B153
  | .DEVICE_STATUS => s.deviceStatus
  | .DEVICE_NODE => fieldIf s.dev.nodeValid 31
  | .DEVICE_CAPS => 0x08444410
  | .DEVICE_SERIAL_LO => s.fuseWord 0
  | .DEVICE_SERIAL_HI => s.fuseWord 1
  | .DEVICE_ABS_TIME_LO => loWord s.abs
  | .DEVICE_ABS_TIME_HI => hiWord s.abs
  | .DEVICE_SPARE_MAP => packed 8 4 4 s.spareMap
  | .TB_STATUS => orAll [fieldIf (s.tb.active.isSome && decide (s.tb.active = s.altPort)) 7, fieldIf s.tb.pixActive 6, fieldIf s.tb.ready 5,
      fieldIf s.holdover 4, place 0 4 s.tb.state.code]
  | .TB_TIME_LO => s.raster.lo
  | .TB_TIME_HI => s.raster.hi
  | .TB_LINE_PERIOD => BitVec.ofNat 32 s.tb.period
  | .TB_PHASE_ERR => s.phaseErr
  | .TB_HOLDOVER_LINES => BitVec.ofNat 32 (min (2 ^ 32 - 1) s.tb.holdLines)
  | .TB_BEAT_STATUS => s.beatStatus
  | .TB_ALT_OFFSET => s.altOffset
  | .TB_PORT_DELAY =>
    let b := s.beatPortOf i
    fieldIf b.delayValid 31 ||| place 0 24 (unsigned 24 b.delayPs)
  | .TB_ANCHOR_CTL => fieldIf (s.genOf i).armed 31
  | .TB_ANCHOR_STATUS =>
    let g := s.genOf i
    orAll [fieldIf g.armed 31, fieldIf g.late 30, fieldIf g.holdover 29, place 0 16 g.fires]
  | .TB_ANCHOR_LAST_LO => (s.genOf i).lastTime.lo
  | .TB_ANCHOR_LAST_HI => (s.genOf i).lastTime.hi
  | .CH_STATE => s.chState i
  | .CH_FORCE_NOW => BitVec.ofInt 32 ((s.forceOf i).view s.now).present
  | .TILE_GUARD_STATUS =>
    place 8 8 (s.guards >>> (8 * i)) ||| packed 8 1 1 fun k => b2n (s.guardDrives i k)
  | .CH_MEAS_STATUS => s.measStatus i
  | .CH_MEAS_LAST_LO => loWord (s.seqOf i).last.toNat
  | .CH_MEAS_LAST_HI => hiWord (s.seqOf i).last.toNat
  | .CH_MEAS_LAST_INFO => (s.seqOf i).info
  | .CH_SWEEP_STATUS => s.sweepStatus i
  | .CH_SWEEP_CUR => place 0 12 (s.engOf i).list
  | .CH_SWEEP_POS => (s.engOf i).pos
  | .CH_SWEEP_MARK => place 16 16 (s.engOf i).markCount ||| place 0 16 (s.engOf i).markCode
  | .CH_SWEEP_MOULD => place 16 10 (s.engOf i).mould ||| place 0 16 (s.playsDone i)
  | .CH_SWEEP_POINT => place 0 24 (s.engOf i).point
  | .CH_SWEEP_LOOP_AT => match (s.engOf i).frameAt j with | some f => place 31 1 1 ||| place 0 24 f.index | none => 0
  | .CH_SWEEP_LOOP_LEFT => match (s.engOf i).frameAt j with | some f => place 0 16 f.left | none => 0
  | .CH_RES_STATUS => s.resStatus i
  | .QUE_STATUS => fieldIf s.spilling 31
  | .QUE_VAT_FREE => place 0 21 s.sharedFree
  | .QUE_SPILL_USED => place 0 29 s.spillUsed
  | .QUE_FELT_STATUS => s.feltStatus i
  | .QUE_FELT_DEPTH => place 0 29 (s.feltOf i).depth
  | .QUE_FELT_SPILLED => place 0 29 ((s.feltOf i).inPlace .spill)
  | .QUE_FELT_WM_STATUS => fieldIf (s.feltOf i).loLive 1 ||| fieldIf (s.feltOf i).hiLive 0
  | .QUE_FELT_RING_WR => BitVec.ofNat 32 (s.feltOf i).written
  | .EVM_STATUS => place 16 6 s.evm.farTx.length ||| place 8 7 s.evm.farRx.length
  | .EVM_LAST_REFUSED => place 16 16 s.evm.lastMaster ||| place 0 8 s.evm.lastChannel
  | .EVM_EVIO_STATUS => packed 16 1 1 (fun k => b2n (s.on f_EVM_EVIO_CTL_dir k && s.evioLevel k)) <<< 16 |||
      packed 16 1 1 fun k => b2n (s.evioOf k).level
  | .EVM_STAMP_RT_LO => (Table.get Stamp.reset i s.evm.stamps).rt.lo
  | .EVM_STAMP_RT_HI => (Table.get Stamp.reset i s.evm.stamps).rt.hi
  | .EVM_STAMP_ABS_LO => loWord (Table.get Stamp.reset i s.evm.stamps).abs
  | .EVM_STAMP_ABS_HI => hiWord (Table.get Stamp.reset i s.evm.stamps).abs
  | .EVM_STAMP_COUNT => place 0 16 (Table.get Stamp.reset i s.evm.stamps).count
  | .EVM_RC_STATUS => fieldIf (s.rcStaged i) 31 ||| place 0 16 (s.rcDynOf i).fires
  | .EVM_TASK_PEND => packed 8 4 4 fun q => s.pendOf (8 * i + q)
  | .MEMC_STATUS => s.memcStatus
  | .MEMC_FREQ => place 0 3 s.memc.cur
  | .MEMC_TRAIN => place 16 5 s.trainingPc ||| place 0 16 s.memc.rounds
  | .MEMC_RH_STATUS => orAll [fieldIf (decide (s.memc.throttled ≠ 0)) 31, place 24 3 s.memc.rhPort, place 16 5 s.memc.rhPc, place 0 5 s.memc.rhBank]
  | .MEMC_PR_CTL => fieldIf (decide (s.memc.st = .retention)) 0
  | .MEMC_ERR_ADDR_LO => BitVec.ofNat 32 s.memc.errAddr
  | .MEMC_ERR_ADDR_HI => orAll [fieldIf s.memc.errUncorr 31, place 28 3 s.memc.errPort, place 0 2 (s.memc.errAddr / 2 ^ 32)]
  | .MEMC_PPR_STATUS => orAll [place 24 8 (min 255 s.memc.soft), place 16 8 (min 255 s.memc.soft), place 0 8 s.spareMin]
  | .WEB_TARGET_STATUS => place 0 9 s.web.serving.length
  | .WEB_PORT_STATUS => s.portStatus i
  | .WEB_PORT_RATE => place 0 2 (s.portOf i).rate
  | .WEB_LANE_EYE =>
    let l := (s.portOf i).lane j
    orAll [fieldIf l.measured 31, place 29 2 l.health.code, place 16 10 l.width, place 0 8 l.height]
  | .FLT_STATUS => s.fltStatus
  | .FLT_UNACK => s.unackWord
  | .FLT_SEQ => BitVec.ofNat 32 s.flt.seq
  | .FLT_FIRST => recordWord s.flt.first i
  | .FLT_INJ_STATUS => fieldIf (s.injOf i).active 31 ||| place 0 16 (s.injOf i).fires
  | .FLT_RING => recordWord (s.ringAt i) j
  | .TEST_STATUS => s.testStatus
  | .CAL_STATUS => s.calStatus
  | .CAL_LAST_RUN_LO => loWord s.cal.lastRun
  | .CAL_LAST_RUN_HI => hiWord s.cal.lastRun
  | .CAL_SPARES => s.sparesWord
  | .CAL_TILE_SPARES => packed 8 4 4 s.freeSpares
  | .CAL_COUCH_STATUS => s.couchStatus i
  | .CAL_SLICE_STATUS => s.sliceStatus i
  | .CAL_SLICE_QUALITY => place 16 16 (s.sliceOf i).qSpan ||| place 0 16 (s.sliceOf i).qRange
  | .CAL_SLICE_CHARGE => BitVec.ofNat 32 (min (2 ^ 32 - 1) ((s.sliceOf i).charge / 10 ^ 6))
  | .CAL_SLICE_WEAR => place 16 16 (s.sliceOf i).cycles ||| place 0 16 (s.wearOf (s.sliceOf i))
  | .BOOT_STATUS => s.bootStatus
  | .BOOT_FAIL => place 8 8 s.boot.failB ||| place 0 8 s.boot.failA
  | .BOOT_FW_VERSION => if i = 0 then s.boot.bank0.version else s.boot.bank1.version
  | .BOOT_CORE_STATUS => s.coreStatus
  | .BOOT_AMEND_STATUS => orAll [place 28 4 s.boot.amend.st.code, place 20 8 s.boot.amend.reason, place 0 12 s.boot.amend.opener]
  | .BOOT_AMEND_RX => place 0 27 s.boot.amend.received
  | .BOOT_AMEND_ID => BitVec.ofNat 32 s.boot.amend.id
  | .BOOT_AMEND_FRAME => BitVec.ofNat 32 s.boot.amend.frame
  | .BOOT_AMEND_COUNT => place 0 16 s.boot.amend.count
  | .BOOT_IMAGE_DIGEST => BitVec.ofNat 32 (s.boot.imageDigest.toNat / 2 ^ (32 * i))
  | .BOOT_CONFIG_DIGEST => BitVec.ofNat 32 (s.boot.configDigest.toNat / 2 ^ (32 * i))
  | .BOOT_SLOT_WRITE => orAll [place 30 2 s.boot.slotState, place 29 1 s.boot.slotTo, fieldIf s.boot.slotFailed 28, place 0 13 s.boot.slotProgress]
  | .BOOT_FLASH_CTL => fieldIf s.boot.flashCmd.isSome 27 ||| fieldIf s.boot.flashError 26
  | .BOOT_FUSE => if 80 ≤ i ∧ i < 88 then 0 else s.fuseWord i
  | .PWR_STATUS => s.pwrStatus
  | .PWR_POWER => place 0 20 s.pwr.powerMw
  | .PWR_EXCURSION => place 0 10 s.pwr.timer
  | .PWR_GOV => packed 8 4 4 s.govSteps
  | .PWR_DOMAIN_ON_LO => s.domainWord false
  | .PWR_DOMAIN_ON_HI => s.domainWord true
  | .PWR_TILE_TEMP => place 0 16 (Table.get 0 i s.pwr.tileTemp)
  | .PWR_HUB_TEMP => place 16 16 s.pwr.stackTemp ||| place 0 16 s.pwr.hubTemp
  | _ => 0

/-- The word that a register holds now (R7, R9): what a read returns, before the read itself acts. -/
def State.viewReg (s : State) (r : Reg) (i j : Nat) : Word :=
  (s.rd r i j &&& accMask r fun a => a != .wo && a != .w1s) ||| s.roFields r i j

end Sys2Proof.Machine
end

