-- ==== Sys2Proof/Machine/Access.lean ====
section
/-!
DEFINITION. The local address map, and reads of registers: snapshot shadows, read-clear fields and pop shadows (R7, R22 to R31, R193,
R195, R396).
-/

namespace Sys2Proof.Machine

open Sys2Proof

/-! ## The address map (Table 1-5, R23) -/

/-- What lies at a local address. -/
inductive Target where
  | hbm
  | vat
  | reg (r : Reg) (i j : Nat)
  | unassigned
  | window
  | reserved
  deriving DecidableEq, Repr

/-- Whether an offset of the TILE blocks is one of its slices' or its common registers' (R23). -/
def tileAssigned (o : Nat) : Bool := decide (o % 0x100000 < 0x44000) || decide (o % 0x100000 / 0x1000 = 0x80)

/-- Decode a local address; outside forerunner mode its window is a reserved range (R24). -/
def State.target (s : State) (a : Nat) : Target :=
  if a < 2 ^ 34 then .hbm
  else if a < 2 ^ 34 + 2 ^ 25 then .vat
  else if 0x900000000 ≤ a ∧ a < 0x901000000 then (if s.dev.forerunner then .window else .reserved)
  else
    match blkOf a with
    | none => .reserved
    | some (b, o) =>
      if b = .tile ∧ ! tileAssigned o then .reserved
      else match regAt a with | some (r, i, j) => .reg r i j | none => .unassigned

/-- How an access ended: the state it leaves, its status (Table 9-7: 0 OK, 1 ADDR, 2 WPROT, 3 UNCORR, 5 REFUSED) and the data returned. -/
structure Done where
  st : State
  status : Nat
  data : Word

/-- The access type of Table 10-7: register or memory, read or write. -/
def accessType (a : Nat) (write : Bool) : Nat := (if a < 2 ^ 35 then 3 else 1) + b2n write

/-- RESERVED_ACCESS (R24, R26, R396). -/
def State.reservedAccess (s : State) (m a : Nat) (write : Bool) : State := s.accessFault 0x002 1 .none m (accessType a write) a

/-! ## Snapshot shadows (R28 to R31) -/

/-- The half of a _LO, _HI pair that a register is: some false for _LO. Words 5 to 10 of a capture record are pairs too (R297). -/
def pairHalf (r : Reg) (i j : Nat) : Option Bool :=
  let word := fun w => if w = 5 ∨ w = 7 ∨ w = 9 then some false else if w = 6 ∨ w = 8 ∨ w = 10 then some true else none
  match r with
  | .DEVICE_SERIAL_LO | .DEVICE_ABS_TIME_LO | .TB_TIME_LO | .TB_ANCHOR_TARGET_LO | .TB_ANCHOR_LAST_LO | .CH_MEAS_LAST_LO
  | .MEMC_ERR_ADDR_LO | .CAL_LAST_RUN_LO | .PWR_DOMAIN_ON_LO | .EVM_STAMP_RT_LO | .EVM_STAMP_ABS_LO | .TEST_CREDIT_HOLD_LO
  | .TEST_CONSUMER_HOLD_LO => some false
  | .DEVICE_SERIAL_HI | .DEVICE_ABS_TIME_HI | .TB_TIME_HI | .TB_ANCHOR_TARGET_HI | .TB_ANCHOR_LAST_HI | .CH_MEAS_LAST_HI
  | .MEMC_ERR_ADDR_HI | .CAL_LAST_RUN_HI | .PWR_DOMAIN_ON_HI | .EVM_STAMP_RT_HI | .EVM_STAMP_ABS_HI | .TEST_CREDIT_HOLD_HI
  | .TEST_CONSUMER_HOLD_HI => some true
  | .FLT_FIRST => word i
  | .FLT_RING => word j
  | _ => none

/-- The word at a register address; 0 where no register is assigned. -/
def State.viewAt (s : State) (a : Nat) : Word := match regAt a with | some (r, i, j) => s.viewReg r i j | none => 0

/-- The shadow that master `m` holds for the pair at address `p`. -/
def State.shadowOf (s : State) (m p : Nat) : Option Word :=
  ((if m < 0x1000 then s.dev.remote else s.dev.internal).find? fun x => decide (x.master = m ∧ x.pair = p)).map fun x => x.hi

/-- Store a shadow: 64 are held for remote requesters, the one read longest ago goes first (R31). -/
def State.storeShadow (s : State) (m p : Nat) (hi : Word) : State :=
  let other := List.filter fun x : Shadow => decide (x.master ≠ m)
  if m < 0x1000 then
    let l := other s.dev.remote
    { s with dev := { s.dev with remote := (if 64 ≤ l.length then l.drop 1 else l) ++ [⟨m, p, hi⟩] } }
  else { s with dev := { s.dev with internal := other s.dev.internal ++ [⟨m, p, hi⟩] } }

/-- A read of the _LO register at address `a` (R28). -/
def State.readLo (s : State) (m a : Nat) : State × Word := (s.storeShadow m a (s.viewAt (a + 4)), s.viewAt a)

/-- A read of the _HI register at address `a` (R29, R30). -/
def State.readHi (s : State) (m a : Nat) : State × Word :=
  match s.shadowOf m (a - 4) with
  | some w => (s, w)
  | none => (s.tally f_DEVICE_SNAP_MISS_count, s.viewAt a)

/-! ## Reading a felt (R193, R195) -/

/-- The pop shadow that master `m` holds for felt `f`. -/
def State.popShadow (s : State) (m f : Nat) : Option Item :=
  ((if m < 0x1000 then s.que.popRemote else s.que.popInternal).find? fun x => decide (x.master = m ∧ x.felt = f)).map fun x => x.item

/-- Store a pop shadow, reclaimed as snapshot shadows are. -/
def State.storePop (s : State) (m f : Nat) (it : Item) : State :=
  let other := List.filter fun x : PopShadow => decide (x.master ≠ m)
  if m < 0x1000 then
    let l := other s.que.popRemote
    { s with que := { s.que with popRemote := (if 64 ≤ l.length then l.drop 1 else l) ++ [⟨m, f, it⟩] } }
  else { s with que := { s.que with popInternal := other s.que.popInternal ++ [⟨m, f, it⟩] } }

/-- A read of word 0 of QUE_FELT_POP[f]: one item an event cycle, a read that meets another one waiting for the next cycle (R192,
notes/assumptions/40.md); one whose item lies in the spill region waits for its refill (R195). A read that takes no item returns the idle item,
which replaces the requester's shadow too. -/
def State.popRead (s : State) (m f : Nat) : State × Word :=
  let idle := fun s : State => (s.storePop m f (idleItem s.raster), (idleItem s.raster).w0)
  if s.consumer f ≠ 0 then idle (s.accessFault 0x402 1 (.felt f) m 1 (regAddr .QUE_FELT_POP f 0))
  else if s.consumerHeld f then idle s
  else
    let s := if (s.feltOf f).takeCycle = some s.cycle then s.begin ((s.cycle + 1) * 256) else s
    let s := State.fetchFront f (s.feltOf f).depth s
    match s.take f with
    | some (it, s) => (s.storePop m f it, it.w0)
    | none => idle s

/-- A read of word `w`, 1 to 7, of QUE_FELT_POP[f]. -/
def State.popWord (s : State) (m f w : Nat) : State × Word :=
  match s.popShadow m f with
  | some it => (s, it.word w)
  | none => (s.tally f_DEVICE_SNAP_MISS_count, 0)

/-! ## Reading a register -/

/-- A read clears the RC fields that it returned (R7). -/
def State.readClear (s : State) (r : Reg) (i j : Nat) : State × Word :=
  let v := s.viewReg r i j
  let m := accMask r fun a => a == .rc
  (if m = 0 then s else s.wr r (s.rd r i j &&& ~~~m) i j, v)

/-- A read of a register by master `m`. -/
def State.readReg (s : State) (m : Nat) (r : Reg) (i j : Nat) : State × Word :=
  match r with
  | .QUE_FELT_POP => if j = 0 then s.popRead m i else s.popWord m i j
  | _ =>
    match pairHalf r i j with
    | some false => s.readLo m (regAddr r i j)
    | some true => s.readHi m (regAddr r i j)
    | none => s.readClear r i j

/-! ## Reading memory -/

/-- The device does not answer: it is held in POR, or the hub is held in reset (R376, R381). -/
def State.dead (s : State) : Bool := s.pwr.porHeld || s.pwr.hubReset

/-- Whether a requester is answered: until DEVICE_NODE.valid is 1 only MGMT_SPI, JTAG and internal agents are (R34). -/
def State.answers (s : State) (m : Nat) : Bool := ! s.dead && (s.dev.nodeValid || decide (0x1000 ≤ m))

/-- The port of a client: P3 for web requesters, P4 for management (chapter 1). -/
def clientPort (m : Nat) : Nat := if m < 0x1000 then 3 else 4

/-- The stack answers reads and takes writes: it is trained (R398). -/
def State.memReady (s : State) : Bool := decide (s.memc.st ≠ .untrained ∧ s.memc.st ≠ .training)

/-- A word of memory read by master `m`; `bad`: its parity fails and no copy repairs it (R253). Before the stack is trained the word is
a free value. -/
def State.readMem (s : State) (m a : Nat) (bad : Bool) : Done :=
  if ! s.memReady then
    let w := s.freeWord
    ⟨w.2, 0, w.1⟩
  else
    let r := s.memArrive.memRead m (clientPort m) a 4 (if bad then [0] else [])
    if r.2 = [] then ⟨r.1, 0, BitVec.ofNat 32 (leNat (r.1.hbmBytes a 4))⟩
    else ⟨r.1.clientUncorrectable m (clientPort m) a, 3, 0⟩

/-- `k` bytes of the vat from offset `o` (R26). The spec gives no place of an item in the vat: a byte that this window has neither written
nor read since an item was last written is a free value, which stays there. -/
def State.vatBytes (o : Nat) : Nat → State → List Byte × State
  | 0, s => ([], s)
  | k + 1, s =>
    match s.vat.find? fun e => decide (e.1 = o) with
    | some e =>
      let r := State.vatBytes (o + 1) k s
      (e.2 :: r.1, r.2)
    | none =>
      let w := s.freeWord
      let b := byteOf w.1 0
      let r := State.vatBytes (o + 1) k { w.2 with vat := Table.insert o b w.2.vat }
      (b :: r.1, r.2)

/-- The offset of a window address in its virtual node's 8 MiB (R369). -/
def foreOffset (a : Nat) : Nat := (a - 0x900000000) % 0x800000

/-- The identity word of the virtual node at a window address (R369). -/
def State.foreIdentity (s : State) (a : Nat) : Word :=
  let v := (a - 0x900000000) / 0x800000
  place 16 16 0x2560 ||| place 8 8 (s.boot.foreSet.getD (9 - v) 0).toNat ||| 0x53

/-- An access that reaches a ZRT-2560 register of the forerunner window other than a read of its identity word: the manual leaves it to
another one (R370). -/
def State.foreign (s : State) (a : Nat) (write : Bool) : Option Nat :=
  if s.target a = .window ∧ a % 4 = 0 ∧ (write ∨ foreOffset a ≠ 0) then some (foreOffset a) else none

/-- A read of a word by master `m` (R24 to R26, R396). -/
def State.readAt (s : State) (m a : Nat) (bad : Bool) : Done :=
  if a % 4 ≠ 0 then ⟨s.reservedAccess m a false, 5, 0⟩
  else
    match s.target a with
    | .hbm => s.readMem m a bad
    | .vat =>
      let r := State.vatBytes (a - 2 ^ 34) 4 s
      ⟨r.2, 0, BitVec.ofNat 32 (leNat r.1)⟩
    | .reg r i j =>
      let x := s.readReg m r i j
      ⟨x.1, 0, x.2⟩
    | .unassigned => ⟨s, 0, 0⟩
    | .window => ⟨s, 0, s.foreIdentity a⟩
    | .reserved => ⟨s.reservedAccess m a false, 1, 0⟩

end Sys2Proof.Machine
end

