-- ==== Sys2Proof/Machine/RegChange.lean ====
section
/-!
DEFINITION. What follows when the stored value of a register changes, whoever changes it: enabling and disabling of channels, sequencers,
felts and ports, and the direct writes of the image loader and the amendment engine (R7, R32, R77, R79, R80, R110, R111, R130, R134, R174,
R199, R208, R256, R282).
-/

namespace Sys2Proof.Machine

open Sys2Proof

/-! ## Channels -/

/-- The conversion codes of an entry that is cut: those given, else free values (notes/assumptions/62.md). -/
def State.cutCodes (s : State) (n : Nat) (codes : Option (List Int)) : List Int × State :=
  match codes with
  | some l => (l, s)
  | none => freeCodes (s.takenCount n) s

/-- CH_CTL.enable goes from 1 to 0 (R79, R130, R176). -/
def State.clearEnable (s : State) (n : Nat) (codes : Option (List Int)) : State :=
  let c := s.cutCodes n codes
  ((c.2.disableForce n).haltEngine n 5).enableCleared n c.1

/-- A detach request (R80). -/
def State.detachChannel (s : State) (n : Nat) (codes : Option (List Int)) : State :=
  let x := s.forceOf n
  match x.st with
  | .detached => s
  | .safe => s.setForce n { x with detach := true }
  | .zeroed => (s.haltEngine n 5).setForce n { x with st := .detached, closed := false, detach := false }
  | _ =>
    let was := s.on f_CH_CTL_enable n
    let s := s.setFld f_CH_CTL_enable 0 n
    let s := if was then s.clearEnable n codes else s
    s.setForce n { s.forceOf n with detach := true }

/-- Autorange that has come into effect with the range in force outside its interval steps towards the nearer bound (R133). -/
def State.autorangeCheck (s : State) (n : Nat) : State :=
  let x := s.forceOf n
  if ! s.autorange n ∨ x.st ≠ .forcingV then s
  else if x.range < s.floorOf n then
    ((s.stick f_CH_MEAS_EVENTS_range_up n).stepRange n (x.range + 1)).assertSrc (srcTile (n / 64) 7)
  else if s.topOf n < x.range then
    ((s.stick f_CH_MEAS_EVENTS_range_down n).stepRange n (x.range - 1)).assertSrc (srcTile (n / 64) 7)
  else s

/-- Autorange has come into effect: floor and ceiling are those of CH_AUTORANGE (R133). -/
def State.autorangeFresh (s : State) (n : Nat) : State := (s.setSeq n { s.seqOf n with arOld := none }).autorangeCheck n

/-- Autorange was in effect before CH_MEAS_CTL held its new word, and no longer is: the range in force goes to the ceiling, once a step under
way has ended; a command that is pending takes that range (R131, R134). -/
def State.autorangeCleared (s : State) (n : Nat) (old : Word) : State :=
  let x := (s.forceOf n).view s.now
  let top := s.topOf n
  if ! (s.wr .CH_MEAS_CTL old n).autorange n then s
  else if x.st = .forcingV then
    if x.range = top then s else (s.setForce n { s.forceOf n with toTop := some top }).stepRange n top
  else
    let s := s.setForce n { s.forceOf n with toTop := some top }
    match x.pending with
    | some c =>
      let d := if c.mode then c else { c with range := top }
      (s.wr .CH_FORCE_SET d.word n).setForce n { s.forceOf n with pending := some d }
    | none => s

/-- A change of low_power while no entry is in progress starts the switch at once (R110). -/
def State.lowPowerChanged (s : State) (n : Nat) : State :=
  let q := s.seqOf n
  if q.busy ∨ q.lpUntil.isSome ∨ s.on f_CH_MEAS_CTL_low_power n = q.lp then s else s.setSeq n (q.switching s.now)

/-- CH_MEAS_CTL held `old` (R110, R111, R130, R134). -/
def State.measCtlChanged (s : State) (n : Nat) (codes : Option (List Int)) (old : Word) : State :=
  let new := s.rd .CH_MEAS_CTL n
  let s := if bit old 25 ∧ ! bit new 25 then s.autorangeCleared n old else s
  let s := if ! bit old 25 ∧ bit new 25 then s.autorangeFresh n else s
  let s :=
    if bit old 31 ∧ ! bit new 31 then
      let c := s.cutCodes n codes
      (c.2.cutShort n c.1).stopSeq n
    else s
  let s := if bit old 30 ≠ bit new 30 then s.lowPowerChanged n else s
  if ! bit old 31 ∧ bit new 31 ∧ s.chanPowered n then s.startSeq n else s

/-! ## Felts -/

/-- QUE_FELT_CTL held `old` (R208). -/
def State.feltCtlChanged (s : State) (f : Nat) (old : Word) : State :=
  let new := s.rd .QUE_FELT_CTL f
  if ! bit old 31 ∧ bit new 31 then s.openFelt f
  else if bit old 31 ∧ ! bit new 31 ∧ (s.feltOf f).st = .active then s.closeFelt f
  else s

/-! ## Force commands -/

/-- A write to CH_FORCE_SET is one force command (R78, R81, R105). -/
def State.writeForce (s : State) (m n : Nat) (v : Word) : State :=
  let c := ForceCmd.ofWord v
  if s.forceRefused n c true then s.refuseForce n (some m) else s.acceptForce n c

/-! ## Every register -/

/-- The stored value of a register was `old` and may differ now. -/
def State.changed (s : State) (r : Reg) (i j : Nat) (codes : Option (List Int)) (old : Word) : State :=
  let new := s.rd r i j
  if new = old then s
  else
    match r with
    | .CH_CTL => if bit old 31 ∧ ! bit new 31 then s.clearEnable i codes else s
    | .CH_MEAS_CTL => s.measCtlChanged i codes old
    | .CH_AUTORANGE => s.autorangeHeld i old
    | .CH_MEAS_SEQ => s.returnUnwritten (s.sliceIdx i)
    | .CH_SWEEP_LIST => s.reprime i
    | .CH_SWEEP_ENTRY => s.reprime i
    | .QUE_AGENT_CTL => s.returnUnwritten (544 + i)
    | .QUE_FELT_CTL => s.feltCtlChanged i old
    | .QUE_FELT_WM_HIGH => s.levelWritten i
    | .QUE_FELT_WM_LOW => s.levelWritten i
    | .CH_RES_CTL => if s.on f_CH_RES_CTL_pace i then s else s.setRes i { s.resOf i with paced := [] }
    | .MEMC_FREQ => if bits old 16 3 = bits new 16 3 then s else s.freqWanted (bits new 16 3)
    | .WEB_PORT_RATE => if bits old 16 2 = bits new 16 2 then s else s.rateWanted i (bits new 16 2)
    | .WEB_PORT_CTL => if bit old 31 = bit new 31 then s else if bit new 31 then s.portStart i else s.portDisabled i
    | _ => s

/-! ## Direct writes (R32, R217, R350) -/

/-- The fields that a record of the loader or the amendment engine writes: RW, RWI and W1S. -/
def recordMask (r : Reg) : Word := accMask r fun a => a == .rw || a == .rwi || a == .w1s

/-- A register is written directly: its RW and RWI fields take the value. -/
def State.loadWord (s : State) (r : Reg) (i j : Nat) (v : Word) : State :=
  let m := accMask r fun a => a == .rw || a == .rwi
  let s := match r with | .EVM_RC_CTL | .EVM_RC_TARGET | .EVM_RC_FAR_OFS | .EVM_RC_OWNER => s.rcKeep i | _ => s
  s.wr r ((s.rd r i j &&& ~~~m) ||| (v &&& m)) i j

/-- What of a felt's control, destination and ring registers a direct write may not change now: enable to 1 while DRAINING; the consumer, the
destination and the ring unless the felt is OFF or DRAINED (R209). -/
def State.feltGuard (s : State) (r : Reg) (f : Nat) (v : Word) : Word :=
  let st := (s.feltOf f).st
  let open_ := decide (st ≠ .off ∧ st ≠ .drained)
  match r with
  | .QUE_FELT_CTL =>
    (if bit v 31 ∧ st = .draining then maskOf 31 1 else 0) |||
      (if open_ ∧ bits v 28 2 ≠ s.consumer f then maskOf 28 2 else 0)
  | .QUE_FELT_DEST | .QUE_FELT_RING_BASE | .QUE_FELT_RING_SIZE => if open_ ∧ v ≠ s.rd r f then BitVec.allOnes 32 else 0
  | _ => 0

/-- A direct write by master `m` with what follows from it; a record of CH_FORCE_SET is a force command (R105). -/
def State.loadReg (m : Nat) (s : State) (r : Reg) (i j : Nat) (v : Word) : State :=
  match r with
  | .CH_FORCE_SET => s.writeForce m i v
  | _ =>
    let old := s.rd r i j
    let g := s.feltGuard r i v
    let s := if g = 0 then s else s.accessFault 0x402 1 (.felt i) m 4 (regAddr r i j)
    (s.loadWord r i j ((v &&& ~~~g) ||| (old &&& g))).changed r i j none old

/-- The W1S bits of a record: arming a global anchor generator (R60, R350). -/
def State.loadArm (s : State) (m : Nat) (r : Reg) (i : Nat) (v : Word) : State :=
  match r with
  | .TB_ANCHOR_CTL => if bit v 31 then s.armGen m i none else s
  | _ => s

end Sys2Proof.Machine
end

