-- ==== Sys2Proof/Machine/ImageCheck.lean ====
section
/-!
DEFINITION. Elvoon images and amendment packages: their layout, the checks of R351 and the rules under which the loader and the amendment
engine reject a configuration (R65, R101, R114, R138 to R140, R145, R153, R196, R209, R218, R226, R237, R240, R274, R348 to R355).
-/

namespace Sys2Proof.Machine

open Sys2Proof

/-- The bytes of an image or package: `n` bytes from an offset. -/
abbrev Bytes := Nat → Nat → List Byte

def Bytes.num (g : Bytes) (o n : Nat) : Nat := leNat (g o n)

/-! ## Header and sections (Tables 12-2 to 12-5) -/

/-- The fields of an Elvoon header. -/
structure Header where
  kind : Nat
  flags : Nat
  sequence : Nat
  total : Nat
  manOff : Nat
  manSize : Nat
  secVersion : Nat
  amendId : Nat
  frame : Nat
  base : BitVec 256
  deriving DecidableEq, Repr

def headerOf (g : Bytes) : Header :=
  { kind := g.num 6 1, flags := g.num 7 1, sequence := g.num 8 4, total := g.num 12 4, manOff := g.num 16 4, manSize := g.num 20 4,
    secVersion := g.num 24 1, amendId := g.num 28 4, frame := g.num 32 4, base := BitVec.ofNat 256 (g.num 40 32) }

def Header.forerunner (h : Header) : Bool := h.flags.testBit 0
def Header.test (h : Header) : Bool := h.flags.testBit 1
def Header.raiseFloor (h : Header) : Bool := h.flags.testBit 2
def Header.fwSwitch (h : Header) : Bool := h.flags.testBit 3

/-- A plausible header of a kind: magic, format, CRC and kind (R347). -/
def plausible (g : Bytes) (kind : Nat) : Bool :=
  decide (g.num 0 4 = 0x4E564C45) && decide (g.num 4 2 = 1) && decide (g.num 6 1 = kind) &&
    decide ((crc32c (g 0 124)).toNat = g.num 124 4)

/-- A section entry of the manifest. -/
structure Section where
  type : Nat
  flags : Nat
  offset : Nat
  size : Nat
  target : Nat
  digest : BitVec 256
  deriving DecidableEq, Repr

/-- The sections that a manifest names. -/
def sectionsOf (g : Bytes) (h : Header) : List Section :=
  (List.range (g.num (h.manOff + 4) 4)).map fun i =>
    let o := h.manOff + 128 + 64 * i
    { type := g.num o 2, flags := g.num (o + 2) 2, offset := g.num (o + 8) 8, size := g.num (o + 16) 8, target := g.num (o + 24) 8,
      digest := BitVec.ofNat 256 (g.num (o + 32) 32) }

def Section.bytes (x : Section) (g : Bytes) : List Byte := g x.offset x.size

/-- The section of a type, if there is one. -/
def sectionOf (l : List Section) (type : Nat) : Option Section := l.find? fun x => decide (x.type = type)

/-- The configuration sections: all but HBM_DATA and SLOT_IMAGE (R349). -/
def Section.config (x : Section) : Bool := decide (x.type ≠ 2 ∧ x.type ≠ 6)

/-- The blocks of register sections, by number b of type 0x0100 + b. -/
def sectionBlock (b : Nat) : Option Blk :=
  ([.device, .tb, .evm, .que, .memc, .web, .flt, .cal, .pwr, .test, .tile, .ch] : List Blk)[b]?

/-- Step 6: the limits of R349 and the counts of Table 12-5. -/
def layoutOk (g : Bytes) (h : Header) (l : List Section) : Bool :=
  let count := fun t => (l.filter fun x => decide (x.type = t)).length
  let image := decide (h.kind = 0)
  let one := fun t => if image then decide (count t = 1) else decide (count t ≤ 1)
  let known := l.all fun x => decide (1 ≤ x.type ∧ x.type ≤ 6) || decide (0x100 ≤ x.type ∧ x.type < 0x10C)
  let start := h.manOff + h.manSize
  let apart := (l.zip (l.drop 1)).all fun p => decide (p.1.offset + p.1.size ≤ p.2.offset)
  decide (g.num h.manOff 4 = 0x4E414D45) && decide (1 ≤ l.length ∧ l.length ≤ 64) && known &&
    l.all (fun x => decide (x.offset % 64 = 0 ∧ start ≤ x.offset ∧ x.offset + x.size ≤ h.total)) && apart &&
    decide (sumBy (fun x : Section => x.size) (l.filter fun x => x.config) ≤ 2 ^ 24) &&
    one 1 && decide (count 3 ≤ 1) && one 4 && decide (count 5 = b2n h.forerunner) &&
    decide (count 6 ≤ if image then 0 else 1) && ((List.range 12).all fun b => decide (count (0x100 + b) ≤ 1)) &&
    (h.test || decide (count 0x109 = 0))

/-- Step 1: the offsets lie within R349 and within the slot or package of `size` bytes. -/
def headerOk (h : Header) (size : Nat) : Bool :=
  decide (h.total ≤ size ∧ h.total ≤ (if h.kind = 0 then 2 ^ 28 else 2 ^ 26)) &&
    decide (128 ≤ h.manOff ∧ 256 ≤ h.manSize ∧ h.manSize ≤ 192 + 64 * 64 ∧ h.manSize % 64 = 0 ∧ h.manOff + h.manSize ≤ h.total)

/-! ## Records (R350) -/

/-- A register record: address, value and mask. -/
structure RegRecord where
  addr : Nat
  value : Word
  mask : Word
  deriving DecidableEq, Repr

def recordOf (l : List Byte) : RegRecord :=
  { addr := leNat (l.take 4) + leNat ((l.drop 4).take 4) % 16 * 2 ^ 32, value := BitVec.ofNat 32 (leNat ((l.drop 8).take 4)),
    mask := BitVec.ofNat 32 (leNat ((l.drop 12).take 4)) }

/-- The 16-byte pieces of a list of bytes. -/
def pieces (k : Nat) : Nat → List Byte → List (List Byte)
  | 0, _ => []
  | n + 1, l => if l = [] then [] else l.take k :: pieces k n (l.drop k)

/-- The records of a register section; the CAL section begins with the wear-log record. -/
def Section.records (x : Section) (g : Bytes) : List RegRecord :=
  let l := x.bytes g
  let l := if x.type = 0x107 then l.drop 16 else l
  (pieces 16 (l.length / 16 + 1) l).map recordOf

/-- A valid record of block `b`. -/
def RegRecord.ok (r : RegRecord) (b : Blk) : Bool :=
  decide (r.addr % 4 = 0) &&
    match regAt r.addr with
    | some (x, _, _) => decide ((regRow x).blk = b) && decide (r.mask &&& ~~~ recordMask x = 0)
    | none => false

/-- Whether the records of a section are whole and valid. -/
def Section.recordsOk (x : Section) (g : Bytes) : Bool :=
  match sectionBlock (x.type - 0x100) with
  | some b => decide (x.size % 16 = 0) && (decide (b ≠ .cal) || decide (16 ≤ x.size)) && (x.records g).all fun r => r.ok b
  | none => false

/-- A record is written directly. -/
def State.applyRecord (s : State) (r : RegRecord) (write : State → Reg → Nat → Nat → Word → State) : State :=
  match regAt r.addr with
  | some (x, i, j) => write s x i j ((s.rd x i j &&& ~~~ r.mask) ||| (r.value &&& r.mask))
  | none => s

/-- Register sections in the order of their blocks. -/
def registerSections (l : List Section) : List Section := l.filter fun x => decide (0x100 ≤ x.type)

/-! ## Sweep lists (R140, R145, R153) -/

/-- The fields that an op leaves unused are 0, reserved bits included (Table 5-5). -/
def sFieldsOk (w : BitVec 128) : Bool :=
  let op := sOp w
  let force := decide (op = 1 ∨ op = 2 ∨ op = 5)
  let zero := fun lo len => decide (sBits w lo len = 0)
  let anchored := decide (1 ≤ op ∧ op ≤ 6)
  decide (op ≤ 8) && zero 78 1 && zero 75 1 && zero 70 1 && zero 0 4 &&
    (force || (zero 80 16 && zero 79 1 && zero 76 2 && zero 72 3)) &&
    (decide (1 ≤ op ∧ op ≤ 5) || (zero 71 1 && zero 68 2)) &&
    (anchored || (zero 123 1 && zero 121 2 && zero 36 32)) && (sAnc w || zero 121 2) && (anchored || zero 120 1) &&
    (decide (1 ≤ op ∧ op ≤ 5) || decide (op = 7) || zero 20 16) &&
    (decide (1 ≤ op ∧ op ≤ 3) || (decide (op = 5) && decide (sPlay w = 0)) || zero 4 16) &&
    (decide (op ≠ 3) || zero 96 24) && (decide (op ≠ 4) || ! sAnc w || zero 96 24) && (decide (op ≠ 6) || zero 112 8) &&
    (decide (op ≠ 0) || zero 97 23) && (decide (op ≠ 5) || zero 96 10)

/-- A timed entry (Table 5-4). -/
def sTimed (w : BitVec 128) : Bool := decide (1 ≤ sOp w ∧ sOp w ≤ 5) || (decide (sOp w = 6) && sAnc w)

/-- A backward LOOP or BRANCH_DECKLE at index `i` encloses a timed entry. -/
def State.loopOk (s : State) (base i : Nat) (w : BitVec 128) : Bool :=
  if (sOp w = 7 ∨ sOp w = 8) ∧ sValue w ≤ i then
    (List.range (i - sValue w)).any fun k => sTimed (s.listEntry base (sValue w + k))
  else true

/-- The list with a valid descriptor `d`, `k` its number. -/
def State.listOk (s : State) (k : Nat) : Bool :=
  match s.region 0 with
  | none => true
  | some r =>
    let d := s.hbmBytes (r + 16 * k) 16
    let w0 := leNat (d.take 4)
    let w1 := leNat ((d.drop 4).take 4)
    if ! w0.testBit 31 then true
    else
      let len := w0 % 2 ^ 25
      let off := w1 % 2 ^ 29 * 16
      decide (w0 / 2 ^ 25 % 64 = 0 ∧ w1 / 2 ^ 29 = 0 ∧ leNat (d.drop 8) = 0 ∧ len ≤ 2 ^ 24) &&
        decide (len = 0 ∨ (0x10000 ≤ off ∧ off + 16 * len ≤ s.regionSize 0)) &&
        (List.range len).all fun i =>
          let w := s.listEntry (r + off) i
          sFieldsOk w && ! sReserved w i len && ! (s.dev.forerunner && sAnc w) && s.loopOk (r + off) i w

/-- The mould with a valid descriptor, `m` its number. -/
def State.mouldOk (s : State) (m : Nat) : Bool :=
  match s.region 1 with
  | none => true
  | some r =>
    let d := s.hbmBytes (r + 16 * m) 16
    let w0 := leNat (d.take 4)
    let off := leNat ((d.drop 4).take 4)
    if ! w0.testBit 31 then true
    else
      let len := w0 % 2 ^ 25
      decide (w0 / 2 ^ 25 % 64 = 0 ∧ leNat (d.drop 8) = 0 ∧ 1 ≤ len ∧ len ≤ 2 ^ 24) &&
        decide (off % 64 = 0 ∧ 0x4000 ≤ off ∧ off + 4 * len ≤ s.regionSize 1)

def State.listsOk (s : State) : Bool := (List.range 4096).all s.listOk && (List.range 1024).all s.mouldOk

/-! ## Routing channels (R218, R226) -/

/-- A routing channel's registers in service `l` would break R218: a reserved source or input, one input in two valid targets, a protected
input under OPEN. -/
def State.rcBad (s : State) (isOpen : Bool) (l : List Word) : Bool :=
  let src := bits (l.headD 0) 0 12
  let ts := (l.drop 1).take 8
  let valid := (ts.filter fun t => bit t 31).map fun t => bits t 0 11
  (decide (2304 ≤ src) && decide (src ≤ 4094)) || (ts.any fun t => decide (1792 ≤ bits t 0 11 ∧ bits t 0 11 ≤ 2046)) ||
    (valid.any fun i => decide (i ≠ 2047) && decide (2 ≤ (valid.filter fun x => x == i).length)) || (isOpen && valid.any fun i => s.inputProtected i)

/-- Sources that an input can assert in the same event cycle (Table 7-7). -/
def linkedSources (i : Nat) : List Nat :=
  if i < 1536 ∧ i % 3 = 0 then [srcMark (i / 3)]
  else if 1680 ≤ i ∧ i < 1744 then ((List.range 8).map fun c => srcChFault (8 * (i - 1680) + c)) ++ [srcFault 2, srcFault 3, srcFault 5]
  else if 1744 ≤ i ∧ i < 1752 then
    ((List.range 64).map fun c => srcChFault (64 * (i - 1744) + c)) ++ [srcTile (i - 1744) 5, srcFault 3, srcFault 4, srcFault 5]
  else if 1752 ≤ i ∧ i < 1768 then srcFault (12 + (i - 1752)) :: (List.range 6).map srcFault
  else []

/-- Drop routing channels, given as source and linked sources, that lead to none of those left. -/
def pruneRoutes : Nat → List (Nat × List Nat) → List (Nat × List Nat)
  | 0, l => l
  | k + 1, l => pruneRoutes k (l.filter fun c => l.any fun d => c.2.contains d.1)

/-- The enabled routing channels hold no cycle of links of delay 0. -/
def State.routesAcyclic (s : State) : Bool :=
  let on := (List.range 256).filter fun c => s.on f_EVM_RC_CTL_enable c
  let arcs := on.map fun c =>
    let l := s.rcNow c
    let ts := ((l.drop 1).take 8).filter fun t => bit t 31
    (bits (l.headD 0) 0 12, ts.flatMap fun t => linkedSources (bits t 0 11))
  (pruneRoutes 256 arcs).isEmpty

def State.routesOk (s : State) : Bool := ((List.range 256).all fun c => ! s.rcBad (rcOpen s c) (s.rcNow c)) && s.routesAcyclic

/-! ## Memory (R196, R237, R360) -/

/-- Byte ranges: start and length. -/
def disjoint (a b : Nat × Nat) : Bool := decide (a.2 = 0 ∨ b.2 = 0 ∨ a.1 + a.2 ≤ b.1 ∨ b.1 + b.2 ≤ a.1)

def allDisjoint : List (Nat × Nat) → Bool
  | [] => true
  | a :: l => (l.all fun b => disjoint a b) && allDisjoint l

def State.regionRanges (s : State) (r : Nat) : List (Nat × Nat) :=
  if ! s.on f_MEMC_REGION_ATTR_valid r then []
  else (s.regionBase r, s.regionSize r) :: (if s.on f_MEMC_REGION_ATTR_duplex r then [(s.regionCopy r, s.regionSize r)] else [])

def State.spillRange (s : State) : Nat × Nat := (s.fld f_QUE_SPILL_BASE_page * 4096, s.fld f_QUE_SPILL_SIZE_pages * 4096)

def State.captureRings (s : State) : List (Nat × Nat) :=
  ((List.range 64).filter fun f => s.on f_QUE_FELT_CTL_enable f && decide (s.consumer f = 1)).map fun f =>
    (s.fld f_QUE_FELT_RING_BASE_pages f * 4096, s.fld f_QUE_FELT_RING_SIZE_pages f * 4096)

def State.memoryOk (s : State) : Bool :=
  let all := (List.range 16).flatMap s.regionRanges
  let copies := (List.range 16).flatMap fun r => if r < 2 then s.regionRanges r else (s.regionRanges r).drop 1
  let others := s.spillRange :: s.captureRings
  let staging := match s.boot.stagingMib with | some m => [(mib m, mib 64)] | none => []
  let dup := (List.range 16).all fun r =>
    ! s.on f_MEMC_REGION_ATTR_valid r || ! s.on f_MEMC_REGION_ATTR_duplex r ||
      (decide (s.regionCopy r ≠ s.regionBase r) && decide (((s.regionCopy r : Int) - s.regionBase r) % (2 ^ 29 : Nat) = 0))
  let size := fun r k => decide (! s.on f_MEMC_REGION_ATTR_valid r ∨ s.regionSize r ≤ mib k)
  let reserves := (List.range 64).foldl (fun n f => n + s.reserve f) 0
  size 0 8192 && size 1 4096 && (all.all fun a => decide (a.1 + a.2 ≤ hbmSize)) && dup && allDisjoint all &&
    (copies.all fun a => others.all fun b => disjoint a b) &&
    (staging.all fun a => decide (a.1 + a.2 ≤ hbmSize) && (all ++ others).all fun b => disjoint a b) &&
    decide (reserves ≤ 1032192) && ((List.range 64).all fun f => decide (s.reserve f ≤ s.fld f_QUE_FELT_LIMIT_items f)) &&
    (! s.on f_QUE_CTL_spill_en || decide (2 ^ 20 ≤ s.spillRange.2)) &&
    ((List.range 64).all fun f => ! s.on f_QUE_FELT_CTL_enable f || decide (s.consumer f ≠ 1) || ! s.ringBad f)

/-! ## Registers with reserved values -/

/-- A register word that the loader rejects by itself (R65, R101, R114, R138, R192, R240, R274, R305). -/
def State.wordOk (s : State) (r : Reg) (i j : Nat) (v : Word) : Bool :=
  match r with
  | .CH_MEAS_SEQ => ! mRefused v
  | .TILE_BST_BIND => ! bit v 31 || decide (100 ≤ s.fld f_TILE_BST_RSNS_mohm i j ∧ s.fld f_TILE_BST_RSNS_mohm i j ≤ 10000000)
  | .QUE_FELT_CTL => decide (bits v 28 2 ≠ 3)
  | .MEMC_PORT_TARGET => decide (5 ≤ bits v 0 16)
  | .WEB_CTL => decide (bits v 30 2 < 2)
  | .FLT_RECOVERY => decide (1 ≤ bits v 0 16 ∧ bits v 0 16 ≤ 60000)
  | .TB_QUAL => decide (bits v 12 3 ≤ 4 ∧ bits v 8 4 ≠ 0 ∧ 4 ≤ bits v 0 8)
  | _ => true

/-- R65; the rules of an image only are those on root, src, L and the pixel count. -/
def State.timebaseOk (s : State) (image : Bool) : Bool :=
  let root := s.on f_TB_CTL_root
  let src := s.src
  let rank := s.fld f_TB_BEAT_CTL_rank
  decide (s.fld f_TB_CTL_pll_bw ≠ 3 ∧ s.fld f_TB_CTL_slew ≠ 3) && (! root || decide (rank = 0)) &&
    (root || decide (src ≠ 5) || decide (rank ≠ 0)) && (! s.dev.forerunner || decide (src = 0)) &&
    (! image ||
      ((if root then s.external else decide (src = 0 ∨ src = 5)) && (decide (src = 0) || s.on f_TB_LINES_PER_FRAME_lines) &&
        (decide (src ≠ 3 ∧ src ≠ 4) || decide (16 ≤ s.fld f_TB_H_TOTAL_pixels))))

/-- R274. -/
def State.torusOk (s : State) : Bool :=
  let base := s.fld f_WEB_TORUS_BASE_node
  let k := (s.fld f_WEB_CTL_dim_x_m1 + 1) * (s.fld f_WEB_CTL_dim_y_m1 + 1)
  decide (s.fld f_WEB_CTL_topo ≠ 1) || (decide (base + k ≤ 4096) && decide (base ≤ s.node ∧ s.node < base + k))

/-- The configuration of a candidate state. -/
def State.configOk (s : State) (image : Bool) : Bool :=
  (s.regs.all fun e => match regAt e.1 with | some (r, i, j) => s.wordOk r i j e.2 | none => true) && s.timebaseOk image &&
    (! image || s.torusOk) && s.memoryOk && s.routesOk && s.listsOk

/-! ## Keys (R353, R354) -/

/-- A KEYS operation on the fuses; none where it is rejected. -/
def State.keyOp (s : State) (signer : Nat) (l : List Byte) : Option State :=
  let w := leNat (l.take 4)
  let op := w / 2 ^ 28 % 16
  let k := w % 4
  let d := l.drop 16
  if leNat ((l.drop 4).take 12) ≠ 0 ∨ w / 4 % 2 ^ 26 ≠ 0 then none
  else if op = 2 then
    if k = signer ∨ leNat d ≠ 0 then none else some (s.burnFuse 4 (BitVec.ofNat 32 (2 ^ k)))
  else if op = 1 then
    match s.keyState k with
    | 0 =>
      let s := s.each (List.range 8) fun j s => s.burnFuse (8 + 8 * k + j) (BitVec.ofNat 32 (leNat ((d.drop (4 * j)).take 4)))
      some (s.burnFuse 4 (BitVec.ofNat 32 (2 ^ (4 + k))))
    | 1 => if (s.fuseDigest (8 + 8 * k)).toNat = leNat d then some s else none
    | _ => none
  else none

def State.keyOps (signer : Nat) : List (List Byte) → State → Option State
  | [], s => if (List.range 4).any fun k => decide (s.keyState k = 1) then some s else none
  | l :: rest, s =>
    match s.keyOp signer l with
    | some s => State.keyOps signer rest s
    | none => none

/-- The KEYS operations of a package, made on the fuses; none where they are rejected. -/
def State.keysOf (s : State) (g : Bytes) (l : List Section) (signer : Nat) : Option State :=
  match sectionOf l 3 with
  | none => some s
  | some x => if x.size % 48 = 0 then State.keyOps signer (pieces 48 (x.size / 48 + 1) (x.bytes g)) s else none

/-- The KEYS operations of a package are burnt (R354). -/
def State.burnKeys (s : State) (g : Bytes) (l : List Section) (signer : Nat) : State :=
  match s.keysOf g l signer with
  | some u => { s with fuses := u.fuses }
  | none => s

/-! ## Firmware (R357) -/

/-- The FIRMWARE section is well formed, its key is Sienailo's and its signature verifies. -/
def State.firmwareOk (s : State) (b : List Byte) : Bool :=
  let size := leNat ((b.drop 4).take 4)
  let key := (b.drop 8).take 64
  decide (size ≤ 8 * 2 ^ 20 ∧ b.length = 256 + size + 64) && decide (Config.sm3 key = s.fuseDigest 40) &&
    Config.sm2Verify 1 key (b.take (256 + size)) (b.drop (256 + size))

def firmwareVersion (b : List Byte) : Word := BitVec.ofNat 32 (leNat (b.take 4))

/-! ## Sections that are not records -/

/-- The MANAGEMENT section: staging base and doorbell records (R360). -/
def State.applyManagement (s : State) (b : List Byte) : State :=
  let bell := fun j => let r := b.drop (16 + 16 * j); (⟨leNat (r.take 4), BitVec.ofNat 32 (leNat ((r.drop 4).take 4))⟩ : Doorbell)
  { s with boot := { s.boot with
      stagingMib := some (leNat (b.take 4)),
      doorbells := (List.range 16).foldl (fun t j => Table.put Doorbell.reset j (bell j) t) s.boot.doorbells } }

/-- The wear-log record of a CAL section (R349). -/
def State.applyWearLog (s : State) (b : List Byte) : State :=
  let w := leNat (b.take 4)
  { s with boot := { s.boot with wearLog := if w.testBit 31 then some (w % 2, leNat ((b.drop 4).take 4)) else none } }

def wearLogOk (b : List Byte) : Bool :=
  let off := leNat ((b.drop 4).take 4)
  ! (leNat (b.take 4)).testBit 31 || decide (off % 65536 = 0 ∧ 2 ^ 28 ≤ off)

/-- What the sections would leave, for judging: records, management, forerunner settings and HBM data. -/
def State.candidate (s : State) (g : Bytes) (h : Header) (l : List Section) : State :=
  let s := { s with dev := { s.dev with forerunner := h.forerunner } }
  let s := match sectionOf l 4 with | some x => s.applyManagement (x.bytes g) | none => s
  let s := s.each (registerSections l) fun x s => s.each (x.records g) fun r s => s.applyRecord r State.loadWord
  s.each (l.filter fun x => decide (x.type = 2)) fun x s => s.writeHbm x.target (x.bytes g)

/-! ## The checks of R351 -/

/-- The reason of the first check that fails; 0 when all pass. -/
def firstReason : List (Nat × Bool) → Nat
  | [] => 0
  | (r, ok) :: rest => if ok then firstReason rest else r

/-- HBM_DATA targets lie in memory. -/
def dataOk (l : List Section) : Bool :=
  l.all fun x => decide (x.type ≠ 2) || decide (x.target + x.size ≤ hbmSize)

/-- Steps 1 to 9 (and, for a package, step 10 over the bytes staged), with the reasons of Table 12-10. `s` is the state judged
against. -/
def State.imageReason (s : State) (g : Bytes) (size : Nat) (all : Bool) : Nat :=
  let h := headerOf g
  let l := sectionsOf g h
  let m := h.manOff
  let slot := g.num (m + 40) 1
  let key := g (m + 48) 64
  let man := g m (h.manSize - 64)
  let sound := fun x : Section => decide (Config.sm3 (x.bytes g) = x.digest)
  let cal := match sectionOf l 0x107 with | some x => wearLogOk (x.bytes g) | none => true
  let fw := match sectionOf l 1 with | some x => s.firmwareOk (x.bytes g) | none => true
  let c := s.candidate g h l
  firstReason
    [(0x02, headerOk h size), (0x03, decide (slot < 4 ∧ s.keyState slot = 1) && decide (Config.sm3 key = s.fuseDigest (8 + 8 * slot))),
      (0x04, Config.sm2Verify 0 key man (g (m + h.manSize - 64) 64)), (0x04, decide (Config.sm3 (g 0 128) = BitVec.ofNat 256 (g.num (m + 8) 32))),
      (0x05, decide (s.secFloor ≤ h.secVersion)), (0x06, layoutOk g h l), (0x07, (l.filter fun x => x.config).all sound), (0x08, fw),
      (0x09, (registerSections l).all fun x => x.recordsOk g), (0x0A, dataOk l && cal && c.configOk (decide (h.kind = 0))),
      (0x0B, (s.keysOf g l slot).isSome), (0x07, ! all || l.all sound)]

end Sys2Proof.Machine
end

