-- ==== Sys2Proof/Machine/BootOps.lean ====
section
/-!
DEFINITION. Start-up, flash access, management cores, doorbells and attestation (R33, R318, R341 to R347, R355, R357 to R360, R367 to
R369).
-/

namespace Sys2Proof.Machine

open Sys2Proof

def State.setBoot (s : State) (x : Boot) : State := { s with boot := x }

/-- Boot phase `p` begins. -/
def State.setPhase (s : State) (p : Nat) : State :=
  { s with dev := { s.dev with phase := p }, boot := { s.boot with phaseAt := s.now } }

/-- Rejection reasons of Table 12-10. -/
def whyRead : Nat := 0x01
def whyHeader : Nat := 0x02
def whyDigest : Nat := 0x07
def whyFirmware : Nat := 0x08
def whyConfig : Nat := 0x0A
def whyBase : Nat := 0x0C
def whyLate : Nat := 0x0D
def whySpace : Nat := 0x0E
def whyBusy : Nat := 0x0F
def whyAborted : Nat := 0x10
def whyTimeout : Nat := 0x11

/-- The bytes of slot `k` (0: A, 1: B). -/
def State.slotBytes (s : State) (k : Nat) : Bytes := fun o n => s.flashBytes k o n

/-! ## Phase 0x0: fuses (R316, R318) -/

/-- A couching record is applied: the channel is connected to its new slice unless that one has been retired. -/
def State.applyCouchRecord (s : State) (k : Nat) : State :=
  let w := s.fuseWord (1920 + 2 * k)
  let n := bits w 16 9
  let q := bits w 0 7
  let new := n / 64 * 68 + q
  if s.fuseWord (1921 + 2 * k) ≠ fuseMarker ∨ 68 ≤ q then s
  else
    let old := s.sliceIdx n
    let s := s.setSlice old { s.sliceOf old with st := if bit w 15 then .retired else .free, channel := 0x3FF }
    if (s.sliceOf new).st = .retired then s
    else (s.setSlice new { s.sliceOf new with st := .serving, channel := n }).setForce n { s.forceOf n with slice := q }

/-- A memory-repair record is applied: its bank uses one spare row more. -/
def State.applyRepairRecord (s : State) (k : Nat) : State :=
  let w := s.fuseWord (1984 + 2 * k)
  let b := bits w 24 5 * 32 + bits w 16 5
  if s.fuseWord (1985 + 2 * k) ≠ fuseMarker then s else s.setBank b { s.bankOf b with spares := (s.bankOf b).spares + 1 }

/-- Boot phase 0x0: generations, couching and repair records are read. -/
def State.loadFuses (s : State) : State :=
  if s.dev.phase ≠ 0 then s
  else
    let gens := List.range 8
    let s := s.setCal { s.cal with
      gen := gens.foldl (fun m g => if s.genOk g then g else m) 0
      claimed := gens.foldl (fun m g => m + b2n (s.genClaimed g) * 2 ^ g) 0
      committed := gens.foldl (fun m g => m + b2n (s.genOk g) * 2 ^ g) 0 }
    let s := s.stickIf (gens.any fun g => s.genClaimed g && ! s.genOk g) f_CAL_EVENTS_burn_abandoned
    let s := s.each (List.range 32) fun k s => s.applyCouchRecord k
    (s.each (List.range 32) fun k s => s.applyRepairRecord k).setPhase 1

/-! ## Slots (R344 to R347) -/

/-- The state at the end of phase 0x0: what the fuses gave, the always-on domain, time and the record of the slots stay. -/
def State.bootBack (s : State) : State :=
  { State.reset with
    now := s.now, regs := s.regs.filter (fun e => keptAddr e.1), tb := s.tb, flt := s.flt, force := s.force, cal := s.cal,
    memc := { Memc.reset with banks := s.memc.banks.map fun e => (e.1, { Bank.reset with spares := e.2.spares }) },
    boot := { Boot.reset with triedA := s.boot.triedA, triedB := s.boot.triedB, failA := s.boot.failA, failB := s.boot.failB },
    pwr := { s.pwr with on := 0, rising := [] }, dev := { Dev.reset with phase := 1 }, fuses := s.fuses, flash := s.flash,
    resp := s.resp, free := s.free, pending := s.pending }

/-- BOOT_FAIL of slot `k`. -/
def State.setFail (s : State) (k reason : Nat) : State :=
  if k = 0 then s.setBoot { s.boot with failA := reason } else s.setBoot { s.boot with failB := reason }

def State.tried (s : State) (k : Nat) : Bool := if k = 0 then s.boot.triedA else s.boot.triedB
def State.failed (s : State) (k : Nat) : Nat := if k = 0 then s.boot.failA else s.boot.failB

/-- Slot `k` is rejected after it was tried: phase 0x1 on the other slot, or phase 0xF (R344). -/
def State.rejectSlot (s : State) (k reason : Nat) : State :=
  let s := ((s.setFail k reason).bootBack).setPhase 1
  if s.tried (1 - k) ∨ s.failed (1 - k) ≠ 0 then s.setPhase 0xF else s

/-- Sequence `b` is later than `a` (R347). -/
def later (a b : Nat) : Bool := decide (1 ≤ (b + 2 ^ 32 - a) % 2 ^ 32 ∧ (b + 2 ^ 32 - a) % 2 ^ 32 < 2 ^ 31)

/-- Boot phase 0x1: a slot is selected (R346, R347). -/
def State.selectSlot (s : State) (absentA absentB : Bool) : State :=
  if s.dev.phase ≠ 1 then s
  else
    let judge := fun (k : Nat) (absent : Bool) (s : State) =>
      if s.tried k ∨ s.failed k ≠ 0 then s
      else if absent then s.setFail k whyRead
      else if plausible (s.slotBytes k) 0 then s
      else s.setFail k whyHeader
    let s := judge 1 absentB (judge 0 absentA s)
    let ok := fun k => ! s.tried k && decide (s.failed k = 0)
    let pick := fun k (s : State) =>
      (s.setBoot { s.boot with slot := k, triedA := s.boot.triedA || decide (k = 0), triedB := s.boot.triedB || decide (k = 1) }).setPhase 2
    if ok 0 ∧ ok 1 then
      pick (if later (headerOf (s.slotBytes 0)).sequence (headerOf (s.slotBytes 1)).sequence then 1 else 0) s
    else if ok 0 then pick 0 s
    else if ok 1 then pick 1 s
    else s.setPhase 0xF

/-! ## Phases 0x2 to 0x7 (R341, R342, R350, R398) -/

/-- The image selected, its header and its sections. -/
def State.image (s : State) : Bytes := s.slotBytes s.boot.slot
def State.imageHead (s : State) : Header := headerOf s.image
def State.imageSections (s : State) : List Section := sectionsOf s.image s.imageHead

/-- Apply the register sections of the blocks given, by the number b of their type. -/
def State.applyBlocks (s : State) (g : Bytes) (l : List Section) (blocks : List Nat) : State :=
  s.each blocks fun b s =>
    match sectionOf l (0x100 + b) with
    | some x => s.each (x.records g) fun r s => s.applyRecord r (State.loadReg 0x1010)
    | none => s

/-- The W1S bits of every record, in record order (R350). -/
def State.applyArms (s : State) (m : Nat) (g : Bytes) (l : List Section) : State :=
  s.each (registerSections l) fun x s =>
    s.each (x.records g) fun r s =>
      match regAt r.addr with
      | some (q, i, _) => s.loadArm m q i (r.value &&& r.mask)
      | none => s

def State.domainsOn (s : State) (l : List Nat) : State := s.each l fun d s => s.markDomain d true

/-- Phase 0x2 (R351, R357, R365): firmware and the MEMC section. -/
def State.verifySlot (s : State) : State :=
  if s.dev.phase ≠ 2 then s
  else
    let k := s.boot.slot
    let g := s.image
    let h := s.imageHead
    let l := s.imageSections
    let why := s.imageReason g (2 ^ 28) false
    if why ≠ 0 then s.rejectSlot k why
    else
      let version := match sectionOf l 1 with | some x => firmwareVersion (x.bytes g) | none => 0
      let digest := Config.sm3 (g h.manOff h.manSize)
      let s := s.setBoot { s.boot with
        bank0 := ⟨version, true⟩, bank1 := ⟨0, false⟩, active := 0, secVersion := h.secVersion, signer := g.num (h.manOff + 40) 1 % 4,
        imageDigest := digest, configDigest := digest, raiseFloor := h.raiseFloor }
      let s := (s.domainsOn [45, 46, 57, 58, 59, 60]).applyBlocks g l [4]
      (s.setMemc { s.memc with st := .training }).setPhase 3

/-- Phase 0x3: the stack is trained and HBM_DATA is written and hashed. -/
def State.trainHbm (s : State) : State :=
  if s.dev.phase ≠ 3 then s
  else
    let g := s.image
    let h := s.imageHead
    let l := s.imageSections
    let data := l.filter fun x => decide (x.type = 2)
    let s := s.setMemc { s.memc with st := .service, gathering := true, idleAt := s.now, windowAt := s.now }
    let s := s.each data fun x s => s.memWrite x.target (x.bytes g)
    if ! data.all fun x => decide (Config.sm3 (x.bytes g) = x.digest) then s.rejectSlot s.boot.slot whyDigest
    else
      let s := { s with dev := { s.dev with forerunner := h.forerunner } }
      let s := match sectionOf l 5 with | some x => s.setBoot { s.boot with foreSet := (x.bytes g).take 16 } | none => s
      let s := (s.applyBlocks g l [0, 5, 1]).domainsOn [40, 41, 42, 43, 44]
      (s.each (List.range 4) fun p s => s.portStart p).setPhase 4

/-- Phase 0x4 ends when every enabled port is ACTIVE or FAILED, or after 100 ms (R263, R34). -/
def State.endWebTraining (s : State) : State :=
  let up := (List.range 4).all fun p => ! s.on f_WEB_PORT_CTL_enable p || decide ((s.portOf p).st = .active) || decide ((s.portOf p).st = .failed)
  if s.dev.phase ≠ 4 ∨ (! up ∧ s.now < s.boot.phaseAt + ms 100) then s
  else ({ s with dev := { s.dev with nodeValid := true } }).setPhase 5

/-- A tile at the start of phase 0x5: on, or off with a SUPPLY_TILE fault where a rail is not within limits (R378). -/
def State.firstTileOn (s : State) (t : Nat) : State :=
  if s.pwr.tileLost.testBit t then s.fault 0xB02 4 (.tile t) pwrMaster else s.tileOn t

/-- Phase 0x5: PWR, TILE and CAL sections, the tiles, and the start-up run (R319, R337, R378). -/
def State.powerTiles (s : State) : State :=
  if s.dev.phase ≠ 5 ∨ s.cal.running then s
  else
    let g := s.image
    let l := s.imageSections
    let s := s.applyBlocks g l [8, 10, 7]
    let s := match sectionOf l 0x107 with | some x => s.applyWearLog (x.bytes g) | none => s
    let s := s.loadWear.domainsOn [47, 48, 49, 50, 51, 52, 53, 54, 55, 56]
    let s := s.each (List.range 8) fun t s => s.firstTileOn t
    (s.setPwr { s.pwr with rising := [] }).addRun (List.range 544) true

/-- A slice step of the start-up run, whose figures the analogue world decides (R319, R323, R328). -/
def State.startUpStep (s : State) (i : Nat) : State :=
  let a := s.freeWord
  let b := a.2.freeWord
  let c := b.2.freeInt
  let d := c.2.freeDWord
  let s := d.2
  let q := a.1
  let s := s.setSlice i { s.sliceOf i with qSpan := bits q 0 16, qRange := bits q 16 16, segMin := bits b.1 0 8, stepTemp := bits b.1 8 17,
                                           stepped := some s.now, check := 1 }
  let s := ((s.newCorrections i).newForceCorr i c.1).setSel i d.1
  let s := s.setCal { s.cal with lastRun := s.abs }
  let s := (s.agentItem 21 0x15 (f64 (bits q 0 16) 10) (BitVec.ofNat 32 i)).agentItem 21 0x15 (f64 (bits q 16 16) 10) (BitVec.ofNat 32 (i + 65536))
  if s.fld f_CAL_LIMIT_span < bits q 0 16 ∨ s.fld f_CAL_LIMIT_range < bits q 16 16 then s.drifted i false else s

/-- The security floor is raised to the image's version (R355). -/
def State.raiseFloor (s : State) : State :=
  let w := 2 ^ s.boot.secVersion - 1
  if ! s.boot.raiseFloor ∨ s.boot.secVersion ≤ s.secFloor then s
  else (s.burnFuse 2 (loWord w)).burnFuse 3 (hiWord w)

/-- The start-up run of tile `t` is over: each slice still waiting or in a step has had its step. -/
def State.endTileRun (s : State) (t : Nat) : State :=
  let todo := (match s.inStep t with | some i => [i] | none => []) ++ s.queueOf t
  let s := s.each todo fun i s => s.startUpStep i
  match s.inStep t with
  | some i => ((s.setSlice i { s.sliceOf i with phase := .none }).setStep t 0).setQueue t []
  | none => s.setQueue t []

/-- The start-up run ends, and phase 0x6 applies its sections. -/
def State.endStartUpRun (s : State) : State :=
  if s.dev.phase ≠ 5 ∨ ! s.cal.running then s
  else
    let s := (s.each (List.range 8) fun t s => s.endTileRun t).endRun.setPhase 6
    let g := s.image
    let h := s.imageHead
    let l := s.imageSections
    let s := { s with dev := { s.dev with test := h.test } }
    let s := match sectionOf l 4 with | some x => s.applyManagement (x.bytes g) | none => s
    let s := s.burnKeys g l s.boot.signer
    ((s.raiseFloor.applyBlocks g l [2, 3, 6, 9, 11])).applyArms 0x1010 g l

/-- The device runs (R342). -/
def State.enterRunning (s : State) : State :=
  if s.dev.phase = 6 ∧ (s.tb.ready ∨ s.dev.forerunner) then s.setPhase 7 else s

/-! ## Flash access in phase 0xF (R345) -/

/-- A write of a command to BOOT_FLASH_CTL; one that comes while a command is in progress has no effect (notes/assumptions/81.md). -/
def State.flashCommand (s : State) (cmd : Nat) : State :=
  if s.boot.flashCmd.isSome then s
  else
    let key := s.fld f_BOOT_FLASH_CTL_slot * 2 ^ 29 + s.fld f_BOOT_FLASH_ADDR_addr
    if 1 ≤ cmd ∧ cmd ≤ 3 then s.setBoot { s.boot with flashCmd := some (cmd, key) }
    else if cmd = 0xF then
      let s := s.bootBack
      (s.setBoot Boot.reset).setPhase 1
    else s

/-- Bytes `a` to `a + 63` of the flash, keyed with their slot. -/
def flashLine (key : Nat) : List Nat := (List.range 64).map fun i => key / 2 ^ 29 * 2 ^ 29 + (key + i) % 2 ^ 29

/-- A flash command completes; one that fails leaves what it works on as it was. -/
def State.flashDone (s : State) (error : Bool) : State :=
  match s.boot.flashCmd with
  | none => s
  | some (cmd, key) =>
    let s := s.setBoot { s.boot with flashCmd := none, flashError := error }
    let old := fun (s : State) k => Table.get flashDefault k s.flash
    let set := fun (s : State) k b => { s with flash := Table.put flashDefault k b s.flash }
    if error then s
    else
      match cmd with
      | 1 =>
        let l := (flashLine key).map (old s)
        s.each (List.range 16) fun w s => s.wr .BOOT_FLASH_DATA (BitVec.ofNat 32 (leNat ((l.drop (4 * w)).take 4))) w
      | 2 =>
        s.each ((flashLine key).zip (List.range 64)) fun e s =>
          set s e.1 (old s e.1 &&& byteOf (s.rd .BOOT_FLASH_DATA (e.2 / 4)) (e.2 % 4))
      | _ => { s with flash := s.flash.filter fun e => decide (e.1 / 65536 ≠ key / 65536) }

/-! ## Management cores (R358, R359) -/

/-- Host service is paused: during a bank switch, and while the spare core boots to take the HOST duty. -/
def State.hostPaused (s : State) : Bool :=
  decide (s.boot.amend.st = .switching) ||
    s.dutyPaused 0

/-- A core is stopped (R358); the spare core, if it exists, begins to boot. -/
def State.coreFails (s : State) (k : Nat) : State :=
  let x := s.coreOf k
  if x.failed ∨ ! s.domainOn (58 + k) then s
  else
    let s := (s.setCore k { x with duty := 3, failed := true, restarting := false }).fault 0xA01 2 (.other k) (0x1000 + k)
    let spare := (List.range 4).find? fun j => decide ((s.coreOf j).duty = 3) && ! (s.coreOf j).failed && ! (s.coreOf j).restarting
    match x.duty, spare with
    | 3, _ => s
    | _, none => s
    | _, some j => (s.markDomain (58 + j) true).setCore j { s.coreOf j with restarting := true }

/-- The spare core has booted and takes a duty that no core carries. -/
def State.takeDuty (s : State) (k d : Nat) : State :=
  let x := s.coreOf k
  if x.failed ∨ ! x.restarting ∨ x.duty ≠ 3 ∨ 3 ≤ d ∨ (s.dutyCore d).isSome then s
  else s.setCore k { x with duty := d, restarting := false }

/-- The core of the next duty in a bank switch restarts on the new bank. -/
def State.restartNext (s : State) : State :=
  match s.boot.amend.switch with
  | [] => s
  | d :: _ => match s.dutyCore d with | some k => s.setCore k { s.coreOf k with restarting := true } | none => s

/-- A bank switch begins (Table 12-7): CAL, WATCH and HOST restart in turn. -/
def State.beginSwitch (s : State) : State :=
  (s.setBoot { s.boot with amend := { s.boot.amend with st := .switching, switch := [1, 2, 0], newBank := 1 - s.boot.active } }).restartNext

/-- A core of the switch runs again, once its duty no longer pauses; after the last one the new bank is active. -/
def State.coreRestarted (s : State) : State :=
  let a := s.boot.amend
  match a.st, a.switch with
  | .switching, d :: rest =>
    if s.dutyPaused d then s else
    let s := match s.dutyCore d with | some k => s.setCore k { s.coreOf k with restarting := false } | none => s
    if rest = [] then s.setBoot { s.boot with active := a.newBank, amend := { a with st := .idle, switch := [] } }
    else (s.setBoot { s.boot with amend := { a with switch := rest } }).restartNext
  | _, _ => s

/-! ## Doorbells (R215, R360) -/

/-- The HOST core takes one pending doorbell. -/
def State.takeDoorbell (s : State) (j : Nat) : State :=
  let i := 1768 + j
  if s.pendOf i = 0 ∨ s.hostPaused ∨ s.dev.phase < 6 ∨ s.dev.phase = 0xF then s
  else
    let s := s.setPend i (s.pendOf i - 1)
    let b := Table.get Doorbell.reset j s.boot.doorbells
    match b.action with
    | 1 =>
      let w := s.freeWord
      w.2.agentItem (24 + s.dutyHolder 0) 0x17 (f64 b.arg.toNat 1) w.1
    | 2 => s.addRun (((List.range 8).filter fun t => bit b.arg t).flatMap fun t => (List.range 68).map fun q => 68 * t + q) true
    | 3 => s.saveWear
    | _ => s

/-! ## Standby slot (R367) -/

/-- The CAL core begins to write a SLOT_IMAGE: the sector that holds the header is erased. -/
def State.slotWriteStart (s : State) : State :=
  if s.boot.slotImage = [] ∨ s.boot.slotState ≠ 0 ∨ s.dutyPaused 1 then s
  else
    let k := 1 - s.boot.slot
    let s := { s with flash := s.flash.filter fun e => decide (e.1 / 65536 ≠ k * 2 ^ 13) }
    s.setBoot { s.boot with slotState := 1, slotTo := k, slotFailed := false, slotProgress := 0 }

/-- The write ends with the header programmed, or with a program or verify error. -/
def State.slotWriteEnd (s : State) (error : Bool) : State :=
  let x := s.boot
  if x.slotState = 0 ∨ s.dutyPaused 1 then s
  else
    let s := s.setBoot { x with slotState := 0, slotImage := [], slotFailed := error }
    if error then s.firmwareLog 0xA00 1 .none 1
    else
      let n := (x.slotImage.length + 65535) / 65536
      let pad := List.replicate (n * 65536 - x.slotImage.length) flashDefault
      (s.writeFlash x.slotTo 0 (x.slotImage ++ pad)).setBoot { s.boot with slotProgress := n }

/-! ## Attestation (R368) -/

/-- An ATTEST_REQ: queued, or REFUSED beyond four. -/
def State.attestRequest (s : State) (src tag : Nat) (nonce : BitVec 256) : State :=
  if s.hostPaused then s
  else
    let me := s.servedAs src 0x13 tag
    let s := s.served src 0x13 tag
    if 4 ≤ s.boot.attest.length then s.respond me src 0x13 tag 0 5 0 []
    else s.setBoot { s.boot with attest := s.boot.attest ++ [(me, src, tag, nonce)] }

/-- Bytes 0 to 447 of the report (Table 12-9). -/
def State.report (s : State) (nonce : BitVec 256) : List Byte :=
  let b := s.boot
  let words := fun (i n : Nat) => (List.range n).flatMap fun j => leBytes (s.fuseWord (i + j)).toNat 4
  let r := if s.tb.ready then s.raster else RTime.zero
  let flags := b2n s.dev.forerunner + 2 * b2n s.dev.test + 4 * b2n s.staged + 8 * b.slot
  leBytes 1 4 ++ leBytes (s.viewReg .DEVICE_ID 0 0).toNat 4 ++ leBytes s.serial 8 ++ leBytes s.node 2 ++ leBytes flags 1 ++
    leBytes b.secVersion 1 ++ leBytes nonce.toNat 32 ++ leBytes b.imageDigest.toNat 32 ++ leBytes b.configDigest.toNat 32 ++
    leBytes b.amend.lastId 4 ++ leBytes b.amend.count 4 ++ leBytes (s.cal.committed + s.cal.gen % 8 * 2 ^ 8 + s.cal.claimed * 2 ^ 16) 4 ++
    leBytes b.bank0.version.toNat 4 ++ leBytes b.bank1.version.toNat 4 ++ leBytes b.active 1 ++ leBytes s.secFloor 1 ++
    leBytes s.keyStates 1 ++ leBytes 0 1 ++ leBytes r.lo.toNat 4 ++ leBytes r.hi.toNat 4 ++ leBytes s.abs 8 ++ words 48 16 ++ words 64 16 ++
    List.replicate 164 0

/-- The report is signed and sent in three ATTEST_RSP flits. -/
def State.attestAnswer (s : State) : State :=
  match s.boot.attest with
  | [] => s
  | (me, src, tag, nonce) :: rest =>
    if s.hostPaused then s
    else
      let body := s.report nonce
      let sig := leBytes (Config.sm2Sign s.free body).toNat 64
      let s := { s with free := s.free + 1, boot := { s.boot with attest := rest } }
      let part := fun (o n : Nat) (s : State) => s.respond me src 0x13 tag n 0 o (((body ++ sig).drop o).take n)
      part 448 64 (part 224 224 (part 0 224 s))

end Sys2Proof.Machine
end

