-- ==== Sys2Proof/Machine/AmendOps.lean ====
section
/-!
DEFINITION. Amendments: reception, checks, staging, rejection and the boundary (R63, R64, R179, R311, R359 to R367).
-/

namespace Sys2Proof.Machine

open Sys2Proof

def State.setAmend (s : State) (a : Amend) : State := s.setBoot { s.boot with amend := a }

/-- The staging area's base; a package is taken only where the image names one. -/
def State.stagingBase (s : State) : Nat := match s.boot.stagingMib with | some m => mib m | none => 0

/-- The bytes of the package in the staging area. -/
def State.staging (s : State) : Bytes := fun o n => s.hbmBytes (s.stagingBase + o) n

def State.stagingHead (s : State) : Header := headerOf s.staging
def State.stagingSections (s : State) : List Section := sectionsOf s.staging s.stagingHead

/-- The package is rejected whole (R363). -/
def State.rejectAmend (s : State) (reason : Nat) : State :=
  let b := s.boot
  let a := b.amend
  let s := s.setBoot { b with
    amend := { a with st := .idle, reason, have_ := [], id := a.lastId, frame := 0 },
    bank0 := if b.active = 0 then b.bank0 else ⟨0, false⟩, bank1 := if b.active = 0 then ⟨0, false⟩ else b.bank1 }
  s.firmwareLog 0xA00 1 .none 0

/-! ## Reception (R361, R366) -/

/-- Pieces with another one added: rising, apart from each other. -/
def mergePiece (p : Nat × Nat) : List (Nat × Nat) → List (Nat × Nat)
  | [] => [p]
  | q :: l =>
    if p.1 + p.2 < q.1 then p :: q :: l
    else if q.1 + q.2 < p.1 then q :: mergePiece p l
    else mergePiece (min p.1 q.1, max (p.1 + p.2) (q.1 + q.2) - min p.1 q.1) l

/-- Bytes `o` to `o + n - 1` are held. -/
def Amend.holds (a : Amend) (o n : Nat) : Bool := a.have_.any fun p => decide (p.1 ≤ o ∧ o + n ≤ p.1 + p.2)

/-- The largest size that the package held may have: `total` once its bytes are held. -/
def State.amendLimit (s : State) : Nat := if s.boot.amend.holds 12 4 then min (2 ^ 26) s.stagingHead.total else 2 ^ 26

/-- An AMEND_SEG flit of `src`: bytes at offset `off`. While the HOST duty pauses it waits in its request slot. -/
def State.amendSegment (s : State) (src tag off : Nat) (data : List Byte) : State :=
  if s.hostPaused ∧ s.boot.amend.st ≠ .switching then s
  else if s.boot.amend.st = .switching ∧ off ≠ 0 then s
  else
    let me := s.servedAs src 0x12 tag
    let s := s.served src 0x12 tag
    let a := s.boot.amend
    let no := s.respond me src 0x12 tag 0 5 off []
    let opens := decide (a.st = .idle ∧ off = 0)
    let fits := opens || decide (a.st = .receiving ∧ a.opener = src)
    if ! fits ∨ s.boot.stagingMib.isNone then no
    else
      let a := if opens then { a with st := .receiving, opener := src, have_ := [], reason := a.reason } else a
      let limit := (s.setAmend a).amendLimit
      if limit < off + data.length then no
      else
        let a := { a with have_ := mergePiece (off, data.length) a.have_, segAt := s.now }
        let at_ := s.stagingBase + off
        let s := ((((s.portOrder 4 at_ data.length).memTouch 4 at_ data.length).memWrite at_ data)).setAmend a
        let h := s.stagingHead
        let a := if a.holds 0 36 then { a with id := h.amendId, frame := h.frame } else a
        let a := if a.holds 12 4 ∧ a.holds 0 h.total then { a with st := .verifying } else a
        (s.setAmend a).respond me src 0x12 tag 0 0 off []

/-- Ten seconds have passed since the last segment of a package that is not complete. -/
def State.amendTimeout (s : State) : State :=
  let a := s.boot.amend
  if a.st = .receiving ∧ a.segAt + ms 10000 ≤ s.now then s.rejectAmend whyTimeout else s

/-- BOOT_AMEND_CTL.abort (R363). -/
def State.amendAbort (s : State) : State :=
  match s.boot.amend.st with
  | .idle => s
  | .switching => s
  | _ => s.rejectAmend whyAborted

/-! ## Checks (R362, R365, R367) -/

/-- The list table and the mould table: byte ranges. -/
def State.tables (s : State) : List (Nat × Nat) :=
  (match s.region 0 with | some r => [(r, 0x10000)] | none => []) ++ (match s.region 1 with | some r => [(r, 0x4000)] | none => [])

def inRange (a : Nat) (p : Nat × Nat) : Bool := decide (p.1 ≤ a ∧ a < p.1 + p.2)

/-- Whether an address lies in a table. -/
def State.inTable (s : State) (a : Nat) : Bool := s.tables.any fun p => inRange a p

/-- The part of a byte range outside another one. -/
def minusRange (a b : Nat × Nat) : List (Nat × Nat) :=
  List.filter (fun p : Nat × Nat => decide (0 < p.2))
    [(a.1, min a.2 (b.1 - a.1)), (max a.1 (b.1 + b.2), a.1 + a.2 - max a.1 (b.1 + b.2))]

/-- What HBM_DATA writes outside the tables. -/
def State.outside (s : State) (x : Section) : List (Nat × Nat) :=
  s.tables.foldl (fun l t => l.flatMap fun p => minusRange p t) [(x.target, x.size)]

/-- Lists and moulds that a valid descriptor names or an engine uses, and the staging area (R362). -/
def State.inUse (s : State) : List (Nat × Nat) :=
  let lists := ((List.range 4096).map s.listDesc).filterMap fun d => if d.1 then some (d.2.1, 16 * d.2.2) else none
  let moulds := ((List.range 1024).map s.mouldDesc).filterMap fun d => if d.1 then some (d.2.1, 4 * d.2.2) else none
  let engines := s.engs.flatMap fun e =>
    if e.2.state = .idle then []
    else (e.2.base, 16 * e.2.len) :: ((match e.2.cur with | some x => [x] | none => []) ++ e.2.plan).map fun x => (x.mBase, 4 * x.mLen)
  (s.stagingBase, mib 64) :: (lists ++ moulds ++ engines)

/-- What an amendment may not write, over the configuration `c` that it leads to (R63, R101, R350, R361, R363). -/
def State.amendOk (s c : State) (g : Bytes) (h : Header) (l : List Section) : Bool :=
  let record := fun r : RegRecord =>
    decide (r.mask = 0) ||
      match regAt r.addr with
      | some (.MEMC_REGION_BASE, i, _) => ! s.on f_MEMC_REGION_ATTR_valid i
      | some (.MEMC_REGION_SIZE, i, _) => ! s.on f_MEMC_REGION_ATTR_valid i
      | some (.MEMC_REGION_COPY, i, _) => ! s.on f_MEMC_REGION_ATTR_valid i
      | some (.MEMC_REGION_ATTR, i, _) => ! s.on f_MEMC_REGION_ATTR_valid i
      | some (.QUE_SPILL_BASE, _, _) => false
      | some (.QUE_SPILL_SIZE, _, _) => false
      | some (.DEVICE_NODE, _, _) => false
      | some (.TILE_BST_BIND, t, j) =>
        ! c.on f_TILE_BST_BIND_valid t j || decide ((s.forceOf (64 * t + c.fld f_TILE_BST_BIND_position t j)).st = .detached)
      | _ => true
  let within := fun (x : Section) (r : Nat) =>
    match s.region r with
    | some b => decide (b ≤ x.target ∧ x.target + x.size ≤ b + s.regionSize r)
    | none => false
  ((registerSections l).all fun x => (x.records g).all record) &&
    (l.all fun x => decide (x.type ≠ 2) || within x 0 || within x 1) &&
    (s.dev.forerunner || decide (c.src ≠ 0) || decide (s.src = 0)) &&
    (! s.tb.ready || ! c.on f_TB_CTL_root || s.on f_TB_CTL_root) && (! h.forerunner || decide (h.frame = 0)) && decide (h.amendId ≠ 0)

/-- The SLOT_IMAGE of a package (R367): 0, or the reason of its rejection. -/
def State.slotImageReason (s : State) (g : Bytes) (l : List Section) : Nat :=
  match sectionOf l 6 with
  | none => 0
  | some x =>
    let im : Bytes := fun o n => g (x.offset + o) n
    let h := headerOf im
    let fresh : State := { State.reset with fuses := s.fuses }
    if s.boot.slotState ≠ 0 ∨ s.boot.slotImage ≠ [] then whyBusy
    else if ! plausible im 0 ∨ fresh.imageReason im x.size true ≠ 0 ∨ ! later s.imageHead.sequence h.sequence then whyConfig
    else 0

/-- The bank that an amendment's firmware goes to. -/
def State.setInactive (s : State) (b : FwBank) : State :=
  if s.boot.active = 0 then s.setBoot { s.boot with bank1 := b } else s.setBoot { s.boot with bank0 := b }

def State.inactiveBank (s : State) : FwBank := if s.boot.active = 0 then s.boot.bank1 else s.boot.bank0

/-- The boundary of frame `f` has come (R38, R363). -/
def State.boundaryCame (s : State) (f : Nat) : Bool := s.tb.ready && ! rtBefore s.raster ⟨f, 0, 0⟩

/-- The reason for which a complete package is rejected before anything of it is used; 0 when it is accepted. -/
def State.packageReason (s : State) : Nat :=
  let g := s.staging
  let h := s.stagingHead
  let l := s.stagingSections
  let c := s.candidate g h l
  let data := l.filter fun x => decide (x.type = 2)
  if ! plausible g 1 then whyHeader
  else
    let why := s.imageReason g (2 ^ 26) true
    if why ≠ 0 then why
    else
      firstReason
        [(whyConfig, s.amendOk c g h l), (whyBase, decide (h.base = s.boot.configDigest) && decide (h.forerunner = s.dev.forerunner)),
          (whySpace, data.all fun x => (s.outside x).all fun p => s.inUse.all fun q => disjoint p q),
          (whyFirmware, ! h.fwSwitch || (sectionOf l 1).isSome || s.inactiveBank.good), (s.slotImageReason g l, decide (s.slotImageReason g l = 0))]

/-- Bytes are written where `p` holds. -/
def State.writeWhere (p : Nat → Bool) : Nat → List Byte → State → State
  | _, [], s => s
  | a, b :: bs, s => State.writeWhere p (a + 1) bs (if p a then s.memWrite a [b] else s)

/-- A package that has been verified is prepared and STAGED, unless its boundary has passed. -/
def State.prepare (s : State) : State :=
  let a := s.boot.amend
  let g := s.staging
  let l := s.stagingSections
  let s := match sectionOf l 1 with | some x => s.setInactive ⟨firmwareVersion (x.bytes g), true⟩ | none => s
  if ! s.dev.forerunner ∧ s.boundaryCame a.frame then s.rejectAmend whyLate
  else
    let out := fun x => ! s.inTable x
    let s := s.each (l.filter fun x => decide (x.type = 2)) fun x s =>
      State.writeWhere out x.target (x.bytes g) (s.memTouch 4 x.target x.size)
    s.setAmend { a with st := .staged, segAt := s.now }

/-- VERIFYING and PREPARING end, and the package is STAGED (R362); the engine is told of a read that cannot be corrected (R253). -/
def State.stage (s : State) : State :=
  if s.boot.amend.st ≠ .verifying ∨ s.hostPaused then s
  else
    let r := s.memArrive.memRead (portMaster 4) 4 s.stagingBase s.stagingHead.total []
    if r.2 ≠ [] then (r.1.clientUncorrectable (portMaster 4) 4 r.1.stagingBase).rejectAmend whyRead
    else
      let why := r.1.packageReason
      if why ≠ 0 then r.1.rejectAmend why else r.1.prepare

/-! ## The timebase at a boundary (R63, R64) -/

/-- The old source is lost and the new one qualifies; no fault is logged (R63). -/
def State.sourceChanged (s : State) : State :=
  let t := s.tb
  let ports := t.ports.map fun e => (e.1, { e.2 with judge := Judge.reset, beat := none, clean := 0, offs := [] })
  let t := { t with line := Judge.reset, ports, active := none, markAgo := none, mismatch := none, pixActive := false }
  match t.state with
  | .unlocked => s.setTb t
  | .acquiring => s.setTb { t with state := .unlocked, period := 0 }
  | .holdover => s.setTb t
  | _ => (s.setTb { t with state := .holdover, holdLines := 0, overs := 0, track := 0 }).stick f_TB_EVENTS_ref_lost

/-- The fields of which R63 speaks: source, root bit, pixel count and beat ports. -/
def State.sourceFields (s : State) : List Nat :=
  [s.src, s.fld f_TB_CTL_root, s.fld f_TB_H_TOTAL_pixels, s.fld f_TB_BEAT_CTL_up_valid, s.fld f_TB_BEAT_CTL_up_port,
   s.fld f_TB_BEAT_CTL_alt_valid, s.fld f_TB_BEAT_CTL_alt_port]

/-- A target read again with the present L: its excess lines carry into the frame. -/
def State.carry (s : State) (t : RTime) : RTime :=
  if s.lines ≤ t.line then rtAdd s.lines ⟨t.frame, 0, 0⟩ 0 t.line t.phase else t

def State.carryWhen (s : State) : When → When
  | .raster t => .raster (s.carry t)
  | w => w

/-- `n` lines before `t`. -/
def State.linesBefore (s : State) (t : RTime) (n : Nat) : RTime :=
  let p := (t.frame * s.lines + t.line + 2 ^ 32 * s.lines - n) % (2 ^ 32 * s.lines)
  ⟨p / s.lines, p % s.lines, t.phase⟩

/-- An execution's times; the points of a per-line mould go on from the next one with the new L. -/
def State.carryExec (s : State) (x : Exec) : Exec :=
  let x := { x with start := s.carryWhen x.start, target := s.carry x.target, endAt := x.endAt.map s.carryWhen,
                    points := x.points.map fun (p : Nat × When) => (p.1, s.carryWhen p.2) }
  match x.points with
  | (k, .raster t) :: _ => if sPlay x.word = 1 then { x with target := s.linesBefore t k } else x
  | _ => x

/-- An armed execution of channel `n` whose carried target lies at or before the boundary is late (R58, R64). -/
def State.carryLate (s : State) (n : Nat) (x : Exec) (moved : Bool) : State :=
  let put := fun (s : State) (x : Exec) => s.setEng n { s.engOf n with plan := (s.engOf n).plan ++ [x] }
  match x.start with
  | .raster t =>
    if ! moved ∨ rtBefore s.raster t then put s x
    else
      match s.fld f_CH_SWEEP_CTL_late_policy n with
      | 1 => (s.countLate n 1).stick f_CH_SWEEP_EVENTS_skipped n
      | 2 => (s.countLate n 1).askStop n 8 (.at s.now)
      | _ => put ((s.countLate n 1).stick f_CH_SWEEP_EVENTS_late n) { x with start := .at (s.cycle * 256 + ns 300) }
  | _ => put s x

/-- What the new L means for an engine. -/
def State.carryEngine (s : State) (n : Nat) : State :=
  let e := s.engOf n
  let s := s.setEng n { e with
    cur := e.cur.map s.carryExec, plan := [], marks := e.marks.map fun m => { m with due := s.carryWhen m.due },
    stop := e.stop.map fun p => (p.1, s.carryWhen p.2) }
  s.each e.plan fun x s => s.carryLate n (s.carryExec x) (decide (s.carryExec x ≠ x))

/-- What the new L means for a generator. -/
def State.carryGen (s : State) (k : Nat) : State :=
  let g := s.genOf k
  if ! g.armed then s
  else if genMode s k = 5 then
    if s.lines ≤ (s.genPair k).line then
      (s.setGen k { g with armed := false, waiting := false, due := none, dueLate := false, offCycle := some s.cycle }).writeFault 0x004 .none
        0x1011 (regAddr .TB_ANCHOR_CTL k 0)
    else s
  else
    let t := s.carry g.target
    if t = g.target then s
    else
      let late := decide (genMode s k < 4) && ! g.waiting && ! rtBefore s.raster t
      s.setGen k { g with target := t, due := if late then some (s.cycle + 1) else g.due, dueLate := late || g.dueLate }

/-- An amendment has changed L (R64). -/
def State.linesChanged (s : State) : State :=
  let s := s.each (s.tb.gens.map fun e => e.1) fun k s => s.carryGen k
  let s := s.each (s.engs.map fun e => e.1) fun n s => s.carryEngine n
  let far := s.evm.farRx.map fun (d : Delivery) =>
    let t := s.carry d.time
    if t = d.time ∨ d.late ∨ d.waiting ∨ rtBefore s.raster t then { d with time := t } else { d with time := t, late := true, taken := s.now }
  let late := (s.evm.farRx.zip far).filter fun e => e.2.late && ! e.1.late
  let s : State := { s with evm := { s.evm with farRx := far } }
  s.each late fun e s => s.farLate e.2.channel

/-! ## Lists at a boundary (R179) -/

/-- The boundary of a list with the cut-over flag: an immediate start of its new contents with the boundary as start instant, the buffer
primed beforehand; a stop that has come takes effect instead (Table 5-8). -/
def State.cutOver (s : State) (n : Nat) : State :=
  let e := s.engOf n
  let stopped : Bool := match e.stop with | some (_, w) => s.came w | none => false
  if stopped then s
  else
    let s := s.stick f_CH_SWEEP_EVENTS_cut_over n
    let s := s.setEng n { e with state := .armed, reason := 0, stack := [], latch := false, startCycle := some s.cycle, cur := none,
                                 plan := [], marks := [], stop := none, stall := false, branch := none, advCycle := none, frame := none,
                                 priming := none, fetch := none, pos := 0xFFFFFFFF, prior := none }
    let s := (s.setPend (inAdvance n) 0).loadList n e.list
    let e := s.engOf n
    if ! e.ok then ((s.cancelStart n 0).stick f_CH_SWEEP_EVENTS_start_refused n).startFault n
    else if e.len = 0 then (s.stick f_CH_SWEEP_EVENTS_empty n).cancelStart n 3
    else
      let r := s.fetched e.base e.next (min 16 (e.len - e.next)) []
      ((r.1.setEng n { e with buf := r.2, bufLo := e.next }).topUp n).beginRun n true false

/-- The sections that write the descriptor of list `k`. -/
def State.rewrites (s : State) (l : List Section) (k : Nat) : List Section :=
  match s.region 0 with
  | none => []
  | some r => l.filter fun x => decide (x.type = 2) && decide (x.target < r + 16 * (k + 1) ∧ r + 16 * k < x.target + x.size)

/-- An engine on a replaced list: PRIMED and ARMED ones prime again, a running one cuts over if its flag says so. -/
def State.listReplaced (s : State) (n : Nat) (l : List Section) : State :=
  let e := s.engOf n
  let x := s.rewrites l e.list
  if x = [] then s
  else
    match e.state with
    | .idle => s.reprime n
    | .primed => s.reprime n
    | .armed => s.reprime n
    | _ => if x.any fun y => y.flags.testBit 0 then s.cutOver n else s

/-! ## The boundary (R364) -/

/-- TEST permission is withdrawn: the TEST registers take their reset values (R311). -/
def State.testWithdrawn (s : State) : State :=
  let kept := s.regs.filter fun e => match regAt e.1 with | some (r, _, _) => decide ((regRow r).blk ≠ .test) | none => true
  { s with regs := kept, que := { s.que with overFelt := none, overStuff := none } }

/-- The registers, tables of memory, wear log and settings of the virtual nodes that a package replaces. -/
def State.amendTables (s : State) (g : Bytes) (l : List Section) (recs : List RegRecord) : State :=
  let s : State := s.each recs fun r s => s.applyRecord r (State.loadReg 0x1011)
  let s := s.each (l.filter fun x => decide (x.type = 2)) fun x s =>
    State.writeWhere s.inTable x.target (x.bytes g) (s.memTouch 4 x.target x.size)
  let s := match sectionOf l 0x107 with | some x => s.applyWearLog (x.bytes g) | none => s
  match sectionOf l 5 with | some x => s.setBoot { s.boot with foreSet := (x.bytes g).take 16 } | none => s

/-- TEST permission as a package gives it. -/
def State.amendTest (s : State) (test : Bool) : State :=
  let s : State := if s.dev.test ∧ ! test then s.testWithdrawn else s
  { s with dev := { s.dev with test } }

/-- What follows from a changed source of time, a changed frame height and replaced lists. -/
def State.amendFollow (s : State) (old : List Nat) (lines : Nat) (l : List Section) : State :=
  let s : State := if s.sourceFields = old then s else s.sourceChanged
  let s := if s.lines = lines then s else s.linesChanged
  s.each (s.engs.map fun e => e.1) fun n s => s.listReplaced n l

/-- The record of the package in the state: its digest, its SLOT_IMAGE, its number and the fields that it wrote. -/
def State.amendRecord (s : State) (g : Bytes) (h : Header) (l : List Section) (recs : List RegRecord) : State :=
  let slot := match sectionOf l 6 with | some x => x.bytes g | none => s.boot.slotImage
  let b := s.boot
  let digest := Config.sm3 (leBytes b.configDigest.toNat 32 ++ leBytes (Config.sm3 (g h.manOff h.manSize)).toNat 32)
  s.setBoot { b with
    configDigest := digest, slotImage := slot,
    amend := { b.amend with st := .idle, have_ := [], frame := 0, lastId := h.amendId, count := (b.amend.count + 1) % 65536,
                            shieldAt := s.cycle, shield := recs.map fun r => (r.addr, r.mask) } }

/-- The MANAGEMENT section of a package (R360). -/
def State.amendManagement (s : State) (g : Bytes) (l : List Section) : State :=
  match sectionOf l 4 with | some x => s.applyManagement (x.bytes g) | none => s

/-- The channels whose attach_armed the records of a package set (R77). -/
def armedBy (recs : List RegRecord) : List Nat :=
  recs.filterMap fun r => match regAt r.addr with
    | some (.CH_CTL, n, _) => if bit (r.value &&& r.mask) 29 then some n else none
    | _ => none

/-- The amended values of every block. -/
def State.applyAmendment (s : State) : State :=
  let g := s.staging
  let h := s.stagingHead
  let l := s.stagingSections
  let recs := (registerSections l).flatMap fun x => x.records g
  let t := ((s.amendTables g l recs).amendTest h.test).amendFollow s.sourceFields s.lines l
  let t := t.each (armedBy recs) fun n t => t.attachMissed n
  let t := ((t.applyArms 0x1011 g l).burnKeys g l (g.num (h.manOff + 40) 1 % 4)).amendRecord g h l recs
  let t := t.amendManagement g l
  if h.fwSwitch then t.beginSwitch else t

/-- The boundary of the package in hand has come: a STAGED one is applied, another one is LATE (R363, R364). -/
def State.amendBoundary (s : State) : State :=
  let a := s.boot.amend
  if a.st = .idle ∨ a.st = .switching then s
  else if s.dev.forerunner then (if a.st = .staged ∧ a.segAt / 256 < s.cycle then s.applyAmendment else s)
  else if ! a.holds 0 36 ∨ ! s.boundaryCame a.frame then s
  else if a.st ≠ .staged ∨ rtBefore ⟨a.frame, 0, 0⟩ ⟨(s.tb.readyFrame + 2 ^ 32 - 1) % 2 ^ 32, 0, 0⟩ then s.rejectAmend whyLate
  else s.applyAmendment

/-- The bits of a word that a write in the boundary cycle of an amendment may not change (Table 12-8). -/
def State.shielded (s : State) (a : Nat) : Word :=
  let x := s.boot.amend
  if x.shieldAt ≠ s.cycle then 0 else x.shield.foldl (fun m p => if p.1 = a then m ||| p.2 else m) 0

end Sys2Proof.Machine
end

