-- ==== Sys2Proof/Machine/ReleaseOps.lean ====
section
/-!
DEFINITION. Acknowledgement of fault records and release from SAFE (R99, R302, R305, R306).
-/

namespace Sys2Proof.Machine

open Sys2Proof

/-! ## Units released together -/

/-- Channels in SAFE of a scope that are released together: a channel, the channels of an octet, a tile safe state, or all of them. -/
def State.safeIn (s : State) (sc : Scope) : List Nat :=
  let held := fun lo hi : Nat => (s.force.filter fun e => decide (lo ≤ e.1 ∧ e.1 < hi) && decide (e.2.st = .safe)).map fun e => e.1
  match sc with
  | .channel n => held n (n + 1)
  | .octet k => held (8 * k) (8 * k + 8)
  | .tile t => held (64 * t) (64 * t + 64)
  | .device => held 0 512
  | _ => []

/-- The tiles whose tile safe state a release of the scope ends. -/
def State.safeTiles (s : State) (sc : Scope) : List Nat :=
  match sc with
  | .tile t => if s.flt.tileSafe.testBit t then [t] else []
  | .device => (List.range 8).filter fun t => s.flt.tileSafe.testBit t
  | _ => []

/-- Whether a scope is one that is released by itself: under class E the device, in tile safe state the tile, else octets and channels. -/
def State.isUnit (s : State) (sc : Scope) : Bool :=
  match sc with
  | .channel n => ! s.flt.deviceSafe && ! s.flt.tileSafe.testBit (n / 64) && ! (s.safeIn sc).isEmpty
  | .octet k => ! s.flt.deviceSafe && ! s.flt.tileSafe.testBit (k / 8) && (! (s.safeIn sc).isEmpty || s.guards.testBit k)
  | .tile t => ! s.flt.deviceSafe && s.flt.tileSafe.testBit t
  | .device => s.flt.deviceSafe
  | _ => false

/-- Units that the pairs of the coverage name for a scope. -/
def State.coverKeys (s : State) (sc : Scope) : List Nat := s.safeIn sc ++ (s.safeTiles sc).map fun t => 512 + t

/-- A record that holds the guard of a scope's octet at 0 V (R104). -/
def State.guardRecord (s : State) (sc : Scope) (r : Record) : Bool :=
  match sc with
  | .octet k => s.guards.testBit k && decide (r.det.code = 0x103 ∧ r.det.scope = .octet k) && ! r.flags.recovered
  | _ => false

/-- The records that cover a scope. -/
def State.coverRecords (s : State) (sc : Scope) : List Record :=
  let keys := s.coverKeys sc
  s.flt.ring.filter fun r => s.guardRecord sc r || s.flt.cover.any fun c => keys.contains c.1 && decide (c.2 = r.seq)

/-- The octets of a scope that a release of channels leaves without a channel in SAFE: their guards resume (R104). -/
def State.freeOctets (s : State) (sc : Scope) (chans : List Nat) : List Nat :=
  let named := match sc with | .octet k => [k] | .tile t => (List.range 8).map (fun j => 8 * t + j) | .device => List.range 64 | _ => []
  (named ++ chans.map fun n => n / 8).filter fun k => (s.safeIn (.octet k)).all fun n => chans.contains n

/-! ## Counts of releases under auto_en (R306) -/

def State.minute (s : State) : Nat := s.now / ms 60000

/-- Releases of a channel or tile counted over the last 60 minutes. -/
def State.releaseCount (s : State) (sc : Scope) : Nat :=
  (s.flt.releases.filter fun r => decide (r.scope = sc) && decide (s.minute < r.minute + 60)).length

/-- The channels or tiles for which a release counts. -/
def State.countedFor (s : State) (sc : Scope) (top : Nat) : List Scope :=
  if top = 5 then (List.range 8).map Scope.tile
  else match s.safeTiles sc with
    | [] => (s.safeIn sc).map Scope.channel
    | l => l.map Scope.tile

/-! ## Release (R99, R305) -/

/-- One channel leaves SAFE: its switch closes at 0 V, its range becomes 5, and it enters ZEROED; a detach request comes before the
automatic resumption of its engine. -/
def State.releaseChannel (s : State) (n : Nat) : State :=
  let x := (s.forceOf n).view s.now
  let x := { x with closed := true, openWanted := false, steps := [], target := 0, present := 0, goal := none }
  if x.range = 5 then
    let s := (s.setForce n x).enterZeroed n
    if (s.forceOf n).st = .zeroed then s.resumeEngine n else s
  else s.setForce n { x with before := .safe, st := .ranging, steps := [.switch x.range 5], due := s.now + us 8 }

/-- A detection of class C or above that still waits in the capture queue holds a channel or a tile of the scope: its record, when
captured, covers the scope (R295, R305). -/
def State.waitingDetect (s : State) (sc : Scope) : Bool :=
  s.flt.queue.any fun d => decide (3 ≤ d.cls) &&
    ((s.safeIn sc).any (fun n => decide ((reactRange d.cls d.scope).1 ≤ n ∧ n < (reactRange d.cls d.scope).2)) ||
      (s.safeTiles sc).any fun t => (reactTiles d.cls d.scope).contains t)

/-- The conditions of R305 other than who lets the release happen. -/
def State.quiet (s : State) (sc : Scope) : Bool :=
  ! s.waitingDetect sc &&
  (s.coverRecords sc).all fun r => r.flags.cleared && decide (r.touched + ms (s.fld f_FLT_RECOVERY_quiet_ms) ≤ s.now)

/-- A release is made: its records gain RECOVERED, tile safe states end, guards resume. -/
def State.makeRelease (s : State) (sc : Scope) : State :=
  let keys := s.coverKeys sc
  let recs := (s.coverRecords sc).map fun r => r.seq
  let chans := s.safeIn sc
  let tiles := s.safeTiles sc
  let s := s.mapRecords (fun r => recs.contains r.seq) fun r => { r with flags := { r.flags with recovered := true } }
  let cover := s.flt.cover.filter fun c => ! keys.contains c.1
  let left := s.flt.ring.filter fun r => cover.any fun c => decide (c.2 = r.seq)
  let s := { s with
    flt := { s.flt with cover, tileSafe := tiles.foldl (fun m t => setBitN m t false) s.flt.tileSafe,
                        deviceSafe := left.any (fun r => decide (r.reaction = 5)), held := left.any fun r => r.flags.held }
    guards := (s.freeOctets sc chans).foldl (fun m k => setBitN m k false) s.guards }
  let s : State := s.pruneRing.each chans fun n s => s.releaseChannel n
  let left := chans.filter fun (n : Nat) => decide ((s.forceOf n).st = .ranging)
  let s : State := if left = [] then s.tally f_FLT_RECOVER_COUNT_count
    else { s with flt := { s.flt with recovering := s.flt.recovering ++ [left] } }
  s.assertSrc (srcFault 6)

/-- RELEASE of a scope (R305, R306): made, held for an acknowledgement, or not yet due. -/
def State.release (s : State) (sc : Scope) : State :=
  let recs := s.coverRecords sc
  let top := recs.foldl (fun m r => max m r.reaction) 0
  let ext := recs.any fun r => decide (r.reaction = top) && decide (r.det.code = 0x010)
  if ! s.isUnit sc ∨ ! s.quiet sc then s
  else if recs.all fun r => r.flags.acked then s.makeRelease sc
  else if top < 3 ∨ ! (s.fld f_FLT_RECOVERY_auto_en).testBit (top - 3) then s
  else if ext then s.makeRelease sc
  else
    let l := s.countedFor sc top
    if l.any fun c => decide (s.fld f_FLT_RECOVERY_hour_limit < s.releaseCount c + 1) then
      if recs.all fun r => r.flags.held then s
      else
        let s := s.mapRecords (fun r => recs.any fun q => decide (q.seq = r.seq)) fun r => { r with flags := { r.flags with held := true } }
        State.assertSrc { s with flt := { s.flt with held := true } } (srcFault 7)
    else
      let marks := l.map fun c => (⟨s.minute, c⟩ : ReleaseMark)
      State.makeRelease { s with flt := { s.flt with releases := s.flt.releases ++ marks } } sc

/-- The counts move on by a minute (R306). -/
def State.hourStep (s : State) : State :=
  { s with flt := { s.flt with releases := s.flt.releases.filter fun r => decide (s.minute < r.minute + 60) } }

/-! ## Acknowledgement (R302) -/

/-- A held unit all of whose records are acknowledged is released now, and its counts return to 0 (R306). -/
def State.releaseHeld (s : State) (sc : Scope) : State :=
  let recs := s.coverRecords sc
  if s.isUnit sc ∧ (recs.any fun r => r.flags.held) ∧ (recs.all fun r => r.flags.acked && r.flags.cleared) then
    let top := recs.foldl (fun m r => max m r.reaction) 0
    let l := s.countedFor sc top
    State.makeRelease { s with flt := { s.flt with releases := s.flt.releases.filter fun r => ! l.contains r.scope } } sc
  else s

/-- Acknowledge the classes of a mask: bit 0 for class A to bit 4 for class E. -/
def State.acknowledge (s : State) (mask : Nat) : State :=
  if mask % 32 = 0 then s
  else
    let same := s.sameCycle
    let s := s.mapRecords (fun r => mask.testBit (r.det.cls - 1) && ! same.contains r.seq) fun r => { r with flags := { r.flags with acked := true } }
    let s := s.assertSrc (srcFault 11)
    if ! s.flt.held then s
    else
      let s := s.releaseHeld .device
      let s := s.each (List.range 8) fun t s => s.releaseHeld (.tile t)
      s.each (s.safeIn .device) fun n s => s.releaseHeld (.channel n)

end Sys2Proof.Machine
end

