-- ==== Sys2Proof/Machine/RegWrite.lean ====
section
/-!
DEFINITION. Writes of registers by requesters: access codes, refusals, staging, and the bits that act (R7 to R9, R32, R61, R62, R78, R138,
R172 to R175, R209, R217 to R222, R302, R309, R311, R345, R363, R392, R397).
-/

namespace Sys2Proof.Machine

open Sys2Proof

/-- Masks of the fields of a register by access code. -/
def rwMask (r : Reg) : Word := accMask r fun a => a == .rw
def rwiMask (r : Reg) : Word := accMask r fun a => a == .rwi
def w1cMask (r : Reg) : Word := accMask r fun a => a == .w1c
def actMask (r : Reg) : Word := accMask r fun a => a == .wo || a == .w1s

/-- Whether a write of `v` writes any of the bits of `mask` in the sense of R397: a value other than the present one. -/
def differs (present v mask : Word) : Bool := decide ((present ^^^ v) &&& mask ≠ 0)

/-! ## Routing channels (R217 to R222) -/

/-- The staged fields of the routing-channel registers (R217). -/
def stagedMask (r : Reg) : Word :=
  match r with
  | .EVM_RC_CTL => 0x1BC00FFF
  | .EVM_RC_TARGET => 0x800007FF
  | .EVM_RC_FAR_OFS => 0xFFFFFFFF
  | _ => 0

/-- The value of a staged register's fields: staged, else in service. -/
def State.stagedOr (s : State) (r : Reg) (i j : Nat) : Word :=
  match s.evm.staged.find? fun e => decide (e.1 = regAddr r i j) with
  | some e => (s.rd r i j &&& ~~~ stagedMask r) ||| e.2
  | none => s.rd r i j

/-- Whether master `m` may write routing channel `c` (Table 7-5). -/
def State.rcGranted (s : State) (m c : Nat) : Bool :=
  rcOpen s c && (if s.on f_EVM_RC_OWNER_image c then decide (0x1000 ≤ m ∧ m ≤ 0x1003) else decide (m = s.fld f_EVM_RC_OWNER_node c))

/-- A write or a commit is refused (R218, R222). -/
def State.refuseRc (s : State) (m c a : Nat) : State :=
  let s := { s with evm := { s.evm with lastMaster := m, lastChannel := c } }
  (s.stick f_EVM_EVENTS_refused).writeFault 0x500 (.other c) m a

/-- The addresses of routing channel `c`'s staged registers. -/
def rcAddrs (c : Nat) : List Nat :=
  regAddr .EVM_RC_CTL c 0 :: (List.range 8).map (fun j => regAddr .EVM_RC_TARGET c j) ++ [regAddr .EVM_RC_FAR_OFS c 0]

/-- Discard what is staged for routing channel `c`. -/
def State.unstage (s : State) (c : Nat) : State :=
  { s with evm := { s.evm with staged := s.evm.staged.filter fun e => ! (rcAddrs c).contains e.1 } }

/-- Stage a value. -/
def State.stageRc (s : State) (r : Reg) (i j : Nat) (v : Word) : State :=
  let m := stagedMask r
  if ! differs (s.stagedOr r i j) v m then s
  else { s with evm := { s.evm with staged := Table.insert (regAddr r i j) (v &&& m) s.evm.staged } }

/-- The enable and trace bits of a write to EVM_RC_CTL. -/
def rcNowMask : Word := 0x84000000

/-- A commit: every staged value with the enable and trace bits of the write, or a refusal (R217, R218). -/
def State.commitRc (s : State) (m c : Nat) (v : Word) : State :=
  let ctl := (s.stagedOr .EVM_RC_CTL c 0 &&& ~~~ rcNowMask) ||| (v &&& rcNowMask)
  let ts := (List.range 8).map fun j => s.stagedOr .EVM_RC_TARGET c j
  let ofs := s.stagedOr .EVM_RC_FAR_OFS c 0
  if s.rcBad (rcOpen s c) (ctl :: ts ++ [ofs]) then (s.unstage c).refuseRc m c (regAddr .EVM_RC_CTL c 0)
  else
    let s := ((s.rcKeep c).unstage c).wr .EVM_RC_CTL ctl c
    let s := s.each (List.range 8) fun j s => s.wr .EVM_RC_TARGET (ts.getD j 0) c j
    s.wr .EVM_RC_FAR_OFS ofs c

/-- A firing by the fire bit (R216, R219). -/
def State.fireBit (s : State) (c : Nat) : State :=
  let l := s.rcState c
  if bit (l.headD 0) 31 ∧ s.domainOn 55 ∧ (s.rcDynOf c).lastFire ≠ some s.cycle then s.fireRc c l ⟨0xFFF, 0, none, 0⟩ else s

/-- A write to a register of routing channel `c`; `barred`: an amendment writes it in this event cycle (Table 12-8). -/
def State.writeRc (s : State) (m : Nat) (r : Reg) (c j : Nat) (v : Word) (barred : Bool) : State :=
  let ctl := decide (r = .EVM_RC_CTL)
  let acts := ctl && (bit v 30 || bit v 29)
  let counts := acts || differs (s.stagedOr r c j) v (stagedMask r ||| if ctl then rcNowMask else 0)
  if ! counts then s
  else if barred ∨ ! s.rcGranted m c then s.refuseRc m c (regAddr r c j)
  else if ! ctl then s.stageRc r c j v
  else if bit v 30 then s.fireBit c
  else
    let s := s.stageRc r c j v
    if bit v 29 then s.commitRc m c v
    else (s.rcKeep c).wr .EVM_RC_CTL ((s.rd .EVM_RC_CTL c &&& ~~~ rcNowMask) ||| (v &&& rcNowMask)) c

/-! ## Refusals of a field or register -/

/-- Bits of RW fields that a write of `v` may not change, each set with the code and scope of its class-A fault. A reserved or
out-of-range value that no rule names carries REG_REFUSED (R313). -/
def State.refusals (s : State) (r : Reg) (i : Nat) (v : Word) : List (Word × Nat × Scope) :=
  let reg := fun (b : Bool) (m : Word) => (if b then m else 0, 0x004, Scope.none)
  let felt := fun (b : Bool) (m : Word) => (if b then m else 0, 0x402, Scope.felt i)
  let all := BitVec.allOnes 32
  let st := (s.feltOf i).st
  let open_ := decide (st ≠ .off ∧ st ≠ .drained)
  match r with
  | .CH_CTL => [reg (decide (bits v 26 2 = 3)) (maskOf 26 2)]
  | .CH_MEAS_CTL => [reg (decide (bits v 26 2 = 3)) (maskOf 26 2)]
  | .CH_SWEEP_CTL => [reg (decide (bits v 25 2 = 3)) (maskOf 25 2)]
  | .CH_AUTORANGE => [reg (decide (bits v 4 3 < bits v 0 3) || decide (6 ≤ bits v 4 3) || decide (bits v 16 8 = 0)) all]
  | .CH_MEAS_SEQ => [(if mRefused v then all else 0, 0x201, .channel i)]
  | .TB_ANCHOR_CTL => [reg (s.genOf i).armed (maskOf 24 3 ||| maskOf 8 16)]
  | .QUE_FELT_CTL =>
    [felt (bit v 31 && (decide (st = .draining) || (decide (s.consumer i = 1) && s.ringBad i))) (maskOf 31 1),
     reg (decide (20 < bits v 16 5)) (maskOf 16 5)]
  | .QUE_FELT_DEST => [felt open_ all]
  | .QUE_FELT_RING_BASE => [felt open_ all]
  | .QUE_FELT_RING_SIZE => [felt open_ all]
  | .QUE_FELT_RING_RD => [reg (s.ringRdBad i v) all]
  | .EVM_EVIO_CTL => [reg true ((if bits v 28 2 = 3 then maskOf 28 2 else 0) ||| (if bits v 22 2 = 3 then maskOf 22 2 else 0))]
  | .FLT_CTL => [reg (decide (bits v 4 3 = 0 ∨ 5 < bits v 4 3)) (maskOf 4 3)]
  | .FLT_PIN => [reg true ((if 5 < bits v 4 3 then maskOf 4 3 else 0) ||| (if 5 < bits v 0 3 then maskOf 0 3 else 0))]
  | .MEMC_FREQ => [reg (decide (4 < bits v 16 3)) (maskOf 16 3)]
  | .MEMC_PAGE => [reg (decide (bits v 0 13 < 16 ∨ 4096 < bits v 0 13)) (maskOf 0 13)]
  | .WEB_PORT_RATE => [reg (decide (1 < bits v 16 2)) (maskOf 16 2)]
  | _ => []

/-- A write that the register as a whole does not take: the code of its class-A fault. -/
def State.barred (s : State) (m : Nat) (r : Reg) (i : Nat) (v old : Word) : Option Nat :=
  let counts := differs old v (rwMask r) || decide (v &&& actMask r ≠ 0)
  if ! counts then none
  else
    match r with
    | .FLT_INJ_CTL => if s.dev.test then none else some 0x006
    | .TB_ANCHOR_CTL => if s.on f_TB_ANCHOR_CTL_locked i then some 0x001 else none
    | .TB_ANCHOR_TARGET_LO => if s.on f_TB_ANCHOR_CTL_locked i then some 0x001 else none
    | .TB_ANCHOR_TARGET_HI => if s.on f_TB_ANCHOR_CTL_locked i then some 0x001 else none
    | .BOOT_FLASH_CTL => if s.dev.phase = 0xF then none else some 0x004
    | .BOOT_FLASH_ADDR => if s.dev.phase = 0xF then none else some 0x004
    | .BOOT_FLASH_DATA => if s.dev.phase = 0xF then none else some 0x004
    | .BOOT_AMEND_CTL => if m = s.boot.amend.opener ∨ m = 0x1020 ∨ m = 0x1021 then none else some 0x001
    | _ => if (regRow r).blk = .test ∧ ! s.dev.test then some 0x006 else none

/-! ## Bits that act -/

/-- Writing 1 to FLT_INJ_CTL[j].clear: a held injected condition ends (R309). -/
def State.clearInj (s : State) (j : Nat) : State :=
  let now := s.now
  let abs := s.abs
  (s.setInj j { s.injOf j with active := false }).mapRecords
    (fun r => r.flags.condition && ! r.flags.cleared && decide (r.det.slot = some j))
    fun r => { r with flags := { r.flags with cleared := true }, clr := abs, touched := now }

/-- CH_SWEEP_CTL: stop prevails over start, start over prime (Table 5-8). -/
def State.sweepBits (s : State) (n : Nat) (v : Word) (bad : Bool) : State :=
  if bit v 30 then
    let s := s.stopEngine n
    if bit v 31 then s.stick f_CH_SWEEP_EVENTS_start_ignored n else s
  else if bit v 31 then s.startEngine n bad
  else if bit v 29 then s.primeEngine n
  else s

/-- CAL_CMD (R317, R320). -/
def State.calBits (s : State) (m : Nat) (v : Word) : State :=
  let i := bits v 0 10
  if 544 ≤ i then (if bit v 31 ∨ bit v 30 then s.writeFault 0x004 .none m (regAddr .CAL_CMD 0 0) else s)
  else
    let tiles := (List.range 8).filter fun t => bit v (12 + t)
    let l := if bit v 29 then [i] else tiles.flatMap fun t => (List.range 68).map fun q => 68 * t + q
    let s := if bit v 31 then s.addRun l true else s
    if bit v 30 then s.requestBurn else s

/-- The WO and W1S bits of a write, and what a write means besides storing (R7). -/
def State.acted (s : State) (m : Nat) (r : Reg) (i : Nat) (v : Word) (codes : Option (List Int)) (bad : Bool) : State :=
  match r with
  | .TB_ANCHOR_CTL => if bit v 30 then s.disarmGen i else if bit v 31 then s.armGen m i none else s
  | .CH_CTL => if bit v 30 then s.detachChannel i codes else s
  | .CH_MEAS_TRIG => if bit v 0 then s.deliverTrigger i (s.afterCycle 40) else s
  | .CH_SWEEP_CTL => s.sweepBits i v bad
  | .MEMC_PR_CTL =>
    if bit v 31 then
      let t := s.enterRetention
      if t.memc.st = .retention ∧ s.memc.st ≠ .retention then t else t.writeFault 0x004 .none m (regAddr .MEMC_PR_CTL 0 0)
    else if bit v 30 ∧ s.memc.st = .retention then s.leaveRetention
    else s
  | .FLT_CTL => if bit v 31 then { s with flt := { s.flt with firstFrozen := false } } else s
  | .FLT_ACK => s.acknowledge (bits v 0 5)
  | .FLT_INJ_CTL =>
    let s := if bit v 29 then s.clearInj i else s
    if bit v 31 then s.fireInj m 2 i else s
  | .TEST_OVERFILL =>
    let q := s.que
    { s with que := { q with overFelt := if bit v 31 then some (bits v 16 6) else q.overFelt,
                             overStuff := if bit v 30 then some (bits v 0 9) else q.overStuff } }
  | .CAL_CMD => s.calBits m v
  | .CAL_COUCH_CMD =>
    if ! bit v 31 then s
    else if 5 < bits v 28 3 then s.writeFault 0x004 .none m (regAddr .CAL_COUCH_CMD 0 0)
    else s.commandCouch (bits v 0 9) (bits v 28 3)
  | .PWR_DOMAIN_REQ => s.domainRequest m v
  | .BOOT_FLASH_CTL => s.flashCommand (bits v 28 4)
  | .BOOT_AMEND_CTL => if bit v 31 then s.amendAbort else s
  | .QUE_FELT_RING_RD => if s.ringIsFull i then s else s.setFelt i { s.feltOf i with ringFull := false }
  | _ => s

/-! ## Storing -/

/-- The word that a write leaves in a register: RW fields but for those of `keep` take the value, W1C bits written 1 are cleared. -/
def stored (r : Reg) (old v keep : Word) : Word :=
  let m := rwMask r &&& ~~~ keep
  ((old &&& ~~~ m) ||| (v &&& m)) &&& ~~~ (v &&& w1cMask r)

/-- A write to a register that has no rule of its own for the whole word. -/
def State.writePlain (s : State) (m : Nat) (r : Reg) (i j : Nat) (v : Word) (codes : Option (List Int)) (bad : Bool) : State :=
  let a := regAddr r i j
  let old := s.rd r i j
  let s := if r = .QUE_FELT_WM_STATUS then s.keepCrossed i else s
  let s := if differs old v (rwiMask r) then s.writeFault 0x001 .none m a else s
  match s.barred m r i v old with
  | some code => s.writeFault code .none m a
  | none =>
    let fs := s.refusals r i v
    let s := s.each (fs.filter fun f => differs old v (f.1 &&& rwMask r)) fun f s =>
      (s.stickIf (decide (r = .CH_MEAS_SEQ)) f_CH_MEAS_EVENTS_entry_refused i).writeFault f.2.1 f.2.2 m a
    let keep := fs.foldl (fun k f => k ||| f.1) 0
    let s := (s.wr r (stored r old v keep) i j).changed r i j codes old
    s.acted m r i v codes bad

/-! ## Pairs of which both halves are writable (R32) -/

/-- The _HI register of a writable pair of which `r` is the _LO register. -/
def pairHi (r : Reg) : Option Reg :=
  match r with
  | .TB_ANCHOR_TARGET_LO => some .TB_ANCHOR_TARGET_HI
  | .TEST_CREDIT_HOLD_LO => some .TEST_CREDIT_HOLD_HI
  | .TEST_CONSUMER_HOLD_LO => some .TEST_CONSUMER_HOLD_HI
  | _ => none

/-- The _LO register of a writable pair of which `r` is the _HI register. -/
def pairLo (r : Reg) : Option Reg :=
  match r with
  | .TB_ANCHOR_TARGET_HI => some .TB_ANCHOR_TARGET_LO
  | .TEST_CREDIT_HOLD_HI => some .TEST_CREDIT_HOLD_LO
  | .TEST_CONSUMER_HOLD_HI => some .TEST_CONSUMER_HOLD_LO
  | _ => none

/-- A write to the _LO register of a pair is held in the writer's staging register; what a rule says of a write to the pair is judged when it
is committed (DEDUCED, notes/assumptions/85.md). -/
def State.stageLo (s : State) (m : Nat) (r : Reg) (i : Nat) (v : Word) : State :=
  let l := s.dev.stages.filter fun x => decide (x.master ≠ m)
  { s with dev := { s.dev with stages := l ++ [⟨m, regAddr r i 0, v⟩] } }

/-- The value that master `m` has staged for the pair at address `a`. -/
def State.stagedLo (s : State) (m a : Nat) : Option Word :=
  (s.dev.stages.find? fun x => decide (x.master = m ∧ x.pair = a)).map fun x => x.lo

/-- A write to the _HI register of a pair commits both halves. -/
def State.commitPair (s : State) (m : Nat) (lo hi : Reg) (i : Nat) (v : Word) : State :=
  let w := (s.stagedLo m (regAddr lo i 0)).getD (s.rd lo i 0)
  let bar := match s.barred m hi i v (s.rd hi i 0) with | some c => some c | none => s.barred m lo i w (s.rd lo i 0)
  let free := fun s : State =>
    { s with dev := { s.dev with stages := s.dev.stages.filter fun x => ! decide (x.master = m ∧ x.pair = regAddr lo i 0) } }
  match bar with
  | some code => (free s).writeFault code .none m (regAddr hi i 0)
  | none =>
    let old := s
    let s := ((free s).wr lo w i).wr hi v i
    if lo = .TB_ANCHOR_TARGET_LO ∧ (s.rd lo i 0 ≠ old.rd lo i 0 ∨ s.rd hi i 0 ≠ old.rd hi i 0) then s.genCommitted m i old else s

/-! ## Every register -/

/-- A write of `v` to a register by master `m`; `codes` are the conversions of an entry it cuts, `bad` a list descriptor it starts on that
reads as uncorrectable. -/
def State.regWrite (s : State) (m : Nat) (r : Reg) (i j : Nat) (v0 : Word) (codes : Option (List Int)) (bad : Bool) : State :=
  let sh := s.shielded (regAddr r i j)
  let v := (v0 &&& ~~~ sh) ||| (s.rd r i j &&& sh)
  match r with
  | .CH_FORCE_SET => if sh ≠ 0 then s else s.writeForce m i v
  | .EVM_RC_CTL => s.writeRc m r i j v0 (decide (sh ≠ 0))
  | .EVM_RC_TARGET => s.writeRc m r i j v0 (decide (sh ≠ 0))
  | .EVM_RC_FAR_OFS => s.writeRc m r i j v0 (decide (sh ≠ 0))
  | _ =>
    match pairHi r, pairLo r with
    | some _, _ => s.stageLo m r i v
    | none, some lo => s.commitPair m lo r i v
    | none, none => s.writePlain m r i j v codes bad

end Sys2Proof.Machine
end

