-- ==== Sys2Proof/Machine/Bus.lean ====
section
/-!
DEFINITION. Accesses of requesters to the local address map, the requests of the web, MGMT_SPI and JTAG, and what every command does around
its own effect (R24 to R26, R34, R141, R227, R238, R272, R286 to R288, R340, R396).
-/

namespace Sys2Proof.Machine

open Sys2Proof

/-- What a command answers. -/
abbrev Out := Host.Outcome State Fault Refusal

/-! ## Writes (R24 to R26, R141, R238, R396) -/

/-- Whether a write of `k` bytes from address `a` meets the list table or the mould table. -/
def State.tableWrite (s : State) (a k : Nat) : Bool := s.tables.any fun t => ! disjoint t (a, k)

/-- A write to memory by requester `m`. -/
def State.writeMem (s : State) (m a : Nat) (l : List Byte) : Done :=
  if s.tableWrite a l.length then ⟨s.memFault 0x303 1 .none m 4 a, 2, 0⟩
  else if m < 0x1000 ∧ s.wprotected a l.length then ⟨s.memFault 0x600 1 .none m 4 a, 2, 0⟩
  else if ! s.memReady then ⟨s, 0, 0⟩
  else ⟨((s.portOrder (clientPort m) a l.length).memTouch (clientPort m) a l.length).memWrite a l, 0, 0⟩

/-- A write to vat SRAM under TEST permission. -/
def State.writeVat (s : State) (m a : Nat) (l : List Byte) : Done :=
  if ! s.dev.test then ⟨s.reservedAccess m a true, 1, 0⟩
  else
    let put := fun (e : Byte × Nat) (t : Table Byte) => Table.insert (a - 2 ^ 34 + e.2) e.1 t
    ⟨{ s with vat := (l.zip (List.range l.length)).foldl (fun t e => put e t) s.vat }, 0, 0⟩

/-- A write of a word by master `m`. -/
def State.writeAt (s : State) (m a : Nat) (v : Word) (codes : Option (List Int)) (bad : Bool) : Done :=
  if a % 4 ≠ 0 then ⟨s.reservedAccess m a true, 5, 0⟩
  else
    match s.target a with
    | .hbm => s.writeMem m a (leBytes v.toNat 4)
    | .vat => s.writeVat m a (leBytes v.toNat 4)
    | .reg r i j => ⟨s.regWrite m r i j v codes bad, 0, 0⟩
    | .unassigned => ⟨s, 0, 0⟩
    | .window => ⟨s, 0, 0⟩
    | .reserved => ⟨s.reservedAccess m a true, 1, 0⟩

/-! ## The answer -/

/-- An access by master `m`, with its answer; a requester that the device does not answer changes nothing (R34, R376, R381). -/
def State.access (s : State) (m : Nat) (f : State → Done) : State :=
  if s.answers m then let d := f s; { d.st with resp := ⟨m, decide (d.status ≠ 0), d.data⟩ } else s.answerError m

/-- A write to a register by its name. -/
def State.accessReg (s : State) (m : Nat) (r : Reg) (i j : Nat) (v : Word) (codes : Option (List Int)) (bad : Bool) : State :=
  s.access m fun s => ⟨s.regWrite m r i j v codes bad, 0, 0⟩

/-! ## Requests of the web (R272) -/

/-- The largest length that a request at an address may have. -/
def reqLimit (a : Nat) : Nat := if 0x800000000 ≤ a ∧ a < 0x901000000 then 64 else 224

/-- An address in the register ranges. -/
def isRegAddr (a : Nat) : Bool := decide (reqLimit a = 64)

/-- A well-formed request (R272). -/
def reqOk (a len : Nat) : Bool :=
  decide (a % 4 = 0 ∧ len % 4 = 0 ∧ 4 ≤ len ∧ len ≤ reqLimit a ∧ a % 256 + len ≤ 256)

/-- `n` words of registers read in ascending order: the first error met, and their bytes (R272). -/
def State.readWords (m : Nat) (bad : Bool) : Nat → Nat → State → State × Nat × List Byte
  | 0, _, s => (s, 0, [])
  | n + 1, a, s =>
    let d := s.readAt m a bad
    let r := State.readWords m bad n (a + 4) d.st
    (r.1, if d.status ≠ 0 then d.status else r.2.1, leBytes d.data.toNat 4 ++ r.2.2)

/-- A block of memory read through port P3. -/
def State.readBlock (s : State) (m a len : Nat) (bad : Bool) : State × Nat × List Byte :=
  if ! s.memReady then let r := freeBytes len s; (r.2, 0, r.1)
  else
    let r := s.memArrive.memRead m 3 a len (if bad then [0] else [])
    match r.2 with
    | [] => (r.1, 0, r.1.hbmBytes a len)
    | i :: _ => (r.1.clientUncorrectable m 3 (burstPart a len i).1, 3, [])

/-- A READ_REQ of node `src`; a register access of a requester is performed when its earlier ones are (R273). A request to memory or to a
reserved range is one access, and in a reserved range logs one fault (DESIGN CHOICE, notes/assumptions/86.md); in register ranges each
word is one (R272). The ranges of the map begin and end at multiples of 256 bytes, so that no request lies in two of them. -/
def State.webRead (s : State) (src tag a len : Nat) (bad : Bool) : State :=
  if ! s.answers src ∨ (isRegAddr a && s.regWaits src 0x10 tag isRegAddr) then s
  else
    let me := s.servedAs src 0x10 tag
    let s := s.served src 0x10 tag
    if a % 4 ≠ 0 then (s.reservedAccess src a false).respond me src 0x10 tag len 5 a []
    else if ! reqOk a len then s.respond me src 0x10 tag len 5 a []
    else
      let r : State × Nat × List Byte :=
        match s.target a with
        | .hbm => s.readBlock src a len bad
        | .vat => let r := State.vatBytes (a - 2 ^ 34) len s; (r.2, 0, r.1)
        | .reserved => (s.reservedAccess src a false, 1, List.replicate len 0)
        | _ => State.readWords src bad (len / 4) a s
      r.1.respond me src 0x10 tag len r.2.1 a r.2.2

/-- Words of registers written in ascending order: the first error met (R272). -/
def State.writeWords (m : Nat) : Nat → List Byte → Nat → State → State × Nat
  | 0, _, _, s => (s, 0)
  | n + 1, l, a, s =>
    let d := s.writeAt m a (BitVec.ofNat 32 (leNat (l.take 4))) none false
    let r := State.writeWords m n (l.drop 4) (a + 4) d.st
    (r.1, if d.status ≠ 0 then d.status else r.2)

/-- A WRITE_REQ of node `src`; what counts as one access is as for READ_REQ. -/
def State.webWrite (s : State) (src tag a : Nat) (l : List Byte) : State :=
  if ! s.answers src ∨ (isRegAddr a && s.regWaits src 0x11 tag isRegAddr) then s
  else
    let me := s.servedAs src 0x11 tag
    let s := s.served src 0x11 tag
    let len := l.length
    if a % 4 ≠ 0 then (s.reservedAccess src a true).respond me src 0x11 tag 0 5 a []
    else if ! reqOk a len then s.respond me src 0x11 tag 0 5 a []
    else
      match s.target a with
      | .hbm => let d := s.writeMem src a l; d.st.respond me src 0x11 tag 0 d.status a []
      | .vat => let d := s.writeVat src a l; d.st.respond me src 0x11 tag 0 d.status a []
      | .reserved => (s.reservedAccess src a true).respond me src 0x11 tag 0 1 a []
      | _ => let r := State.writeWords src (len / 4) l a s; r.1.respond me src 0x11 tag 0 r.2 a []

/-- An access that reaches a ZRT-2560 register among the words of a request (R370). -/
def State.foreignIn (s : State) (a len : Nat) (write : Bool) : Option Nat :=
  (List.range (len / 4)).findSome? fun k => s.foreign (a + 4 * k) write

/-- The window address of an access to virtual node `node` (R369, R370): none where the node is none of them or the address lies beyond. -/
def State.windowAddr (s : State) (node a : Nat) : Option Nat :=
  if 0x800000 ≤ a then none
  else if node = s.virtualNode 0 then some (0x900000000 + a)
  else if node = s.virtualNode 1 then some (0x900800000 + a)
  else none

/-! ## The TAP (R287, R288) -/

/-- Boot phases in which the driving instructions take effect. -/
def State.scanPhase (s : State) : Bool := decide (s.dev.phase ≤ 2) || decide (s.dev.phase = 0xF)

/-- The next state of the TAP controller at a rising edge of TCK (IEEE 1149.1, R287). -/
def TapState.next : TapState → Bool → TapState
  | .reset, m => if m then .reset else .idle
  | .idle, m => if m then .selectDr else .idle
  | .selectDr, m => if m then .selectIr else .captureDr
  | .captureDr, m => if m then .exit1Dr else .shiftDr
  | .shiftDr, m => if m then .exit1Dr else .shiftDr
  | .exit1Dr, m => if m then .updateDr else .pauseDr
  | .pauseDr, m => if m then .exit2Dr else .pauseDr
  | .exit2Dr, m => if m then .updateDr else .shiftDr
  | .updateDr, m => if m then .selectDr else .idle
  | .selectIr, m => if m then .reset else .captureIr
  | .captureIr, m => if m then .exit1Ir else .shiftIr
  | .shiftIr, m => if m then .exit1Ir else .shiftIr
  | .exit1Ir, m => if m then .updateIr else .pauseIr
  | .pauseIr, m => if m then .exit2Ir else .pauseIr
  | .exit2Ir, m => if m then .updateIr else .shiftIr
  | .updateIr, m => if m then .selectDr else .idle

/-- The controller follows the values of TMS. -/
def TapState.walk (x : TapState) (tms : List Bool) : TapState := tms.foldl TapState.next x

/-- TMS for a scan of the 8-bit instruction register from Test-Logic-Reset or Run-Test/Idle, back to Run-Test/Idle. -/
def scanIr : List Bool := [false, true, true, false, false] ++ List.replicate 7 false ++ [true, true, false]

/-- TMS for a scan of a data register of `n` bits from Run-Test/Idle. -/
def scanDr (n : Nat) : List Bool := [true, false, false] ++ List.replicate (n - 1) false ++ [true, true, false]

/-- An instruction that leaves the pins to the device is scanned in. -/
def State.tapLoad (s : State) (ir : Nat) : State :=
  { s with jtag := { s.jtag with ir, drives := false, tap := s.jtag.tap.walk scanIr } }

/-- The data register that is selected, of `n` bits, captures a value and is scanned. -/
def State.tapCapture (s : State) (n v : Nat) : State :=
  { s with jtag := { s.jtag with out := v, tap := s.jtag.tap.walk (scanDr n) } }

/-- The bits of the boundary register: as many as it takes to hold what is captured (the spec gives no length). -/
def scanLength (v : Nat) : Nat := v.log2 + 1

/-- A driving instruction: loaded, or BYPASS in its place with JTAG_REFUSED. With `scan` it selects the boundary register, which captures
the pins and takes what is shifted in; else the bypass register, which captures 0. -/
def State.tapDrive (s : State) (ir : Nat) (scan : Option (Nat × Nat)) : State :=
  if s.scanPhase then
    let s := s.tapLoad ir
    match scan with
    | some (pins, load) =>
      let s := s.tapCapture (scanLength (max pins load)) pins
      { s with jtag := { s.jtag with drives := true, boundary := load } }
    | none => let s := s.tapCapture 1 0; { s with jtag := { s.jtag with drives := true } }
  else ((s.tapLoad 0xFF).tapCapture 1 0).fault 0x005 1 .none 0x1021

/-- The 72-bit MGMT_ACCESS register after an access (the places of its fields are the model's choice, notes/assumptions/105.md): the
status of MGMT_SPI in bits [71:68], the address in [67:32], the data in [31:0]. -/
def State.tapAnswer (s : State) (a : Nat) : State :=
  let v := (if s.resp.error then 2 else 1) * 2 ^ 68 + a % 2 ^ 36 * 2 ^ 32 + s.resp.data.toNat
  { s with jtag := { s.jtag with mgmt := v } }.tapCapture 72 v

/-! ## Every command -/

/-- After a command: slice steps see the changes of state (R340), and autorange that has come into effect looks at its range (R133). -/
def State.watch (old s : State) : State :=
  let s := s.watchSteps
  let fresh := (s.force.filter fun e => s.autorange e.1 && ! old.autorange e.1).map fun e => e.1
  s.each fresh fun n s => s.autorangeFresh n

/-- What follows a command's own effect `e` in the same event cycle, `b` being the state before it: sources are routed and their firings
delivered (R222, R223); while the hub is held in reset no source reaches the event matrix (R380). -/
def State.finish (b e : State) : State :=
  if e.pwr.hubReset then { e with evm := { e.evm with asserted := [] } } else State.settle 2400 (State.watch b (State.settle 2400 e))

/-- A command at instant `t`: time passes, its body acts, and its sources are routed. -/
def State.go (s : State) (t : Nat) (body : State → State) : State := State.finish (s.begin t) (body (s.begin t))

/-- A command of a block that is powered with the hub. -/
def State.act (s : State) (t : Nat) (body : State → State) : State :=
  if s.pwr.porHeld then s else if s.pwr.hubReset then s.begin t else s.go t body

/-- A command of a block of the always-on domain. -/
def State.actOn (s : State) (t : Nat) (body : State → State) : State := if s.pwr.porHeld then s else s.go t body

/-- The outcome of a command that names an instance: `b` says whether the device has it. -/
def outIf (b : Bool) (s : State) : Out := if b then .next s else .fault .noSuchInstance

end Sys2Proof.Machine
end

