-- ==== Sys2Proof/Machine/Calibration.lean ====
section
/-!
DEFINITION. Meanings of the commands of calibration and renewal (chapter 11): triggers, slice steps, bridges, burns, couching and wear.
-/

namespace Sys2Proof.Machine

open Sys2Proof

/-! ## Triggers (R320) -/

/-- Whether a reading lies further from the last one than CAL_CTL.temp_step half degrees; both in 1/256 K, a last reading of 0 is none. -/
def State.tempMoved (s : State) (last temp : Nat) : Bool :=
  decide (last = 0) || decide (128 * s.fld f_CAL_CTL_temp_step < (if temp < last then last - temp else temp - last))

/-- Slices in service run because a temperature has moved. -/
def State.tempRun (s : State) (l : List Nat) : State :=
  ((s.stick f_CAL_EVENTS_temp_trigger).assertSrc (srcCal 9)).addRun l false

/-- The TILE_TEMP item of a reading of slice group `i` in 1/256 K (Table 6-5). The spec does not say on which readings it is written: the model
writes one at each that a command brings (DESIGN CHOICE, notes/assumptions/102.md). -/
def State.tempItem (s : State) (i temp : Nat) : State := s.agentItem (8 + i / 4) 0x12 (f64 temp 256) (BitVec.ofNat 32 (i % 4))

/-- A sensor of slice `i`, or of slice group `i` of all groups, reads `temp`. -/
def State.tempSeen (s : State) (group : Bool) (i temp : Nat) : State :=
  let s := if group then s.setCal { s.cal with groupSeen := Table.put 0 i temp s.cal.groupSeen } else s
  if ! s.on f_CAL_CTL_enable then s
  else if group then
    if s.domainOn (5 * (i / 4) + i % 4) && s.tempMoved (Table.get 0 i s.cal.groupTemp) temp then s.tempRun (groupSlices i) else s
  else if s.domainOn (sliceDomain i) && s.tempMoved (s.sliceOf i).stepTemp temp then s.tempRun [i]
  else s

/-- TEMP_TRIGGER (R183, R320): a temperature in 1/256 K. -/
def execTempTrigger (t : Nat) (group : Bool) (i temp : Nat) (s : State) : Out :=
  outIf (if group then decide (i < 32) else isSlice i) (s.act t fun s => (if group then s.tempItem i temp else s).tempSeen group i temp)

/-- The last completed step of slice `i` lies interval_h hours back. -/
def State.intervalSeen (s : State) (i : Nat) : State :=
  let old : Bool := match (s.sliceOf i).stepped with | some u => decide (u + ms (s.fld f_CAL_CTL_interval_h * 3600000) ≤ s.now) | none => false
  if s.on f_CAL_CTL_enable ∧ old then s.addRun [i] false else s

/-- INTERVAL_TRIGGER (R320). -/
def execIntervalTrigger (t i : Nat) (s : State) : Out := outIf (isSlice i) (s.act t fun s => s.intervalSeen i)

/-- CAL_RUN (R320): a write to CAL_CMD. -/
def execCalRun (t m : Nat) (v : Word) (s : State) : Out := .next (s.act t fun s => s.accessReg m .CAL_CMD 0 0 v none false)

/-! ## Slice steps (R321 to R329, R340) -/

/-- SLICE_STEP_START (R321). -/
def execSliceStepStart (t tile : Nat) (s : State) : Out := outIf (isTile tile) (s.act t fun s => s.startStep tile)

/-- MEASURE_PATH_STEP (R321 to R323): `loaded` says whether the load sample exceeds 0.1 % of I_FS. -/
def execMeasurePathStep (t i : Nat) (loaded : Bool) (s : State) : Out := outIf (isSlice i) (s.act t fun s => s.measurePath i loaded)

/-- OPEN_OUTPUT_SLOT (R325, R326). -/
def execOpenOutputSlot (t i : Nat) (s : State) : Out := outIf (isSlice i) (s.act t fun s => s.openSlot i)

/-- BRIDGE_END (R325, R340). -/
def execBridgeEnd (t i : Nat) (s : State) : Out := outIf (isSlice i) (s.act t fun s => s.bridgeEnd i)

/-- OPEN_OUTPUT_SLOT_END (R326). -/
def execOpenOutputSlotEnd (t i : Nat) (s : State) : Out := outIf (isSlice i) (s.act t fun s => s.openSlotEnd i)

/-- SLICE_STEP_END (R320, R322 to R324, R328, R329): the quality figures in ppm, the good segments, T_SLICE in 1/256 K, the new force
correction, the new selections of the slice and of the tile's reference ladder, and whether a bank is short of good segments or lost
one. -/
def execSliceStepEnd (t i qSpan qRange segMin temp : Nat) (corr : Int) (sel ladder : DWord) (short lost : Bool) (s : State) : Out :=
  outIf (isSlice i) (s.act t fun s =>
    s.endStep i (qSpan % 2 ^ 16) (qRange % 2 ^ 16) (segMin % 2 ^ 8) temp corr sel ladder short lost)

/-- The retry of a deferred check is due. -/
def State.retryStep (s : State) (i : Nat) : State :=
  match (s.sliceOf i).retryAt with
  | some u => if u ≤ s.now then (s.setSlice i { s.sliceOf i with retryAt := none }).addRun [i] false else s
  | none => s

/-- DEFERRAL_RETRY (R326). -/
def execDeferralRetry (t i : Nat) (s : State) : Out := outIf (isSlice i) (s.act t fun s => s.retryStep i)

/-! ## Burns (R316, R317) -/

/-- CAL_BURN (R317): a write to CAL_CMD. -/
def execCalBurn (t m : Nat) (v : Word) (s : State) : Out := .next (s.act t fun s => s.accessReg m .CAL_CMD 0 0 v none false)

/-- GENERATION_COMMITTED (R316, R317). -/
def execGenerationCommitted (t : Nat) (s : State) : Out := .next (s.act t fun s => s.commitBurn)

/-! ## Couching (R318, R330 to R335, R338) -/

/-- CAL_COUCH_CMD (R330): a write to CAL_COUCH_CMD. -/
def execCalCouchCmd (t m : Nat) (v : Word) (s : State) : Out := .next (s.act t fun s => s.accessReg m .CAL_COUCH_CMD 0 0 v none false)

/-- COUCHING_START (R331, R332). -/
def execCouchingStart (t tile : Nat) (s : State) : Out := outIf (isTile tile) (s.act t fun s => s.startCouch tile)

/-- MATCH (R332, R334). -/
def execCouchMatch (t tile : Nat) (s : State) : Out := outIf (isTile tile) (s.act t fun s => s.matchCouch tile)

/-- MATCH_TIMEOUT (R334). -/
def execMatchTimeout (t tile : Nat) (s : State) : Out := outIf (isTile tile) (s.act t fun s => s.matchFailed tile)

/-- CONNECT (R332). -/
def execConnect (t tile : Nat) (s : State) : Out := outIf (isTile tile) (s.act t fun s => s.connectSpare tile)

/-- HANDOVER_RAMP (R332, R338). -/
def execHandoverRamp (t tile : Nat) (s : State) : Out := outIf (isTile tile) (s.act t fun s => s.handover tile)

/-- COUCH_RELEASE (R190, R318, R332). -/
def execCouchRelease (t tile : Nat) (s : State) : Out := outIf (isTile tile) (s.act t fun s => s.releaseCouch tile)

/-- COUCH_RETRY (R334). -/
def execCouchRetry (t tile : Nat) (s : State) : Out := outIf (isTile tile) (s.act t fun s => s.retryCouch tile)

/-! ## Wear (R336, R337) -/

/-- WEAR_ACCUMULATE (R336): T_SLICE in 1/256 K and the weighted charge of a millisecond in pAh, of a slice that is powered. -/
def execWearAccumulate (t i temp pah : Nat) (s : State) : Out :=
  outIf (isSlice i) (s.act t fun s => if s.domainOn (sliceDomain i) then s.accumulate i temp pah else s)

/-- WEAR_LOG_SAVE (R337). -/
def execWearLogSave (t : Nat) (s : State) : Out := .next (s.act t fun s => s.saveWear)

end Sys2Proof.Machine
end

