-- ==== Sys2Proof/Machine/Device.lean ====
section
/-!
DEFINITION. Meanings of the register-access commands of chapters 0 and 1: REGISTER_WRITE to READ_CLEAR. Each is an access of a master at a
local address; what the address names decides what happens. An access that reaches a ZRT-2560 register is refused by name (R370).
-/

namespace Sys2Proof.Machine

open Sys2Proof

/-- A write access. -/
def State.busWrite (s : State) (t m a : Nat) (v : Word) : Out :=
  match s.foreign a true with
  | some o => .refused (.forerunnerRegister o)
  | none => .next (s.act t fun s => s.access m fun s => s.writeAt m a v none false)

/-- A read access. -/
def State.busRead (s : State) (t m a : Nat) : Out :=
  match s.foreign a false with
  | some o => .refused (.forerunnerRegister o)
  | none => .next (s.act t fun s => s.access m fun s => s.readAt m a false)

/-- REGISTER_WRITE (R8, R32, R397). -/
def execRegisterWrite (t m a : Nat) (v : Word) (s : State) : Out := s.busWrite t m a v

/-- RESERVED_ACCESS (R24). -/
def execReservedAccess (t m a : Nat) (write : Bool) (v : Word) (s : State) : Out :=
  if write then s.busWrite t m a v else s.busRead t m a

/-- UNALIGNED_ACCESS (R396). -/
def execUnalignedAccess (t m a : Nat) (write : Bool) (v : Word) (s : State) : Out :=
  if write then s.busWrite t m a v else s.busRead t m a

/-- VAT_SRAM_WRITE (R26). -/
def execVatSramWrite (t m a : Nat) (v : Word) (s : State) : Out := s.busWrite t m a v

/-- LO_READ (R28). -/
def execLoRead (t m a : Nat) (s : State) : Out := s.busRead t m a

/-- HI_READ (R29, R30). -/
def execHiRead (t m a : Nat) (s : State) : Out := s.busRead t m a

/-- LO_WRITE_STAGE (R32). -/
def execLoWriteStage (t m a : Nat) (v : Word) (s : State) : Out := s.busWrite t m a v

/-- HI_WRITE_COMMIT (R32). -/
def execHiWriteCommit (t m a : Nat) (v : Word) (s : State) : Out := s.busWrite t m a v

/-- READ_CLEAR (R7). -/
def execReadClear (t m a : Nat) (s : State) : Out := s.busRead t m a

end Sys2Proof.Machine
end

