-- ==== Sys2Proof/Machine/Events.lean ====
section
/-!
DEFINITION. Meanings of the commands of the event matrix (chapter 7): firing, staging and committing routing channels, Single-class inputs,
re-entries, far forks and EVIO pins.
-/

namespace Sys2Proof.Machine

open Sys2Proof

/-- FIRE (R216, R217, R222): a write to EVM_RC_CTL. -/
def execFire (t m c : Nat) (v : Word) (s : State) : Out :=
  outIf (isRc c) (s.act t fun s => s.accessReg m .EVM_RC_CTL c 0 v none false)

/-- COMMIT (R217, R218, R219, R222): a write to EVM_RC_CTL. -/
def execCommit (t m c : Nat) (v : Word) (s : State) : Out :=
  outIf (isRc c) (s.act t fun s => s.accessReg m .EVM_RC_CTL c 0 v none false)

/-- RC_DIRECT_WRITE (R217, R219, R222): a write to EVM_RC_CTL. -/
def execRcDirectWrite (t m c : Nat) (v : Word) (s : State) : Out :=
  outIf (isRc c) (s.act t fun s => s.accessReg m .EVM_RC_CTL c 0 v none false)

/-- STAGE (R217, R222): a write to a register of a routing channel. -/
def execStage (t m a : Nat) (v : Word) (s : State) : Out := s.busWrite t m a v

/-! ## Single-class inputs (R215) -/

/-- The action of one firing of a Single-class input: an EVIO output or an injection slot (Table 7-4). -/
def State.singleAction (s : State) (i : Nat) : State :=
  if i < 1616 then (if s.evioDrives (i - 1600) then s.evioFire (i - 1600) else s) else s.fireInj 0x1114 6 (i - 1752)

/-- One pending firing of input `i` is delivered, once in an event cycle. -/
def State.deliverSingle (s : State) (i : Nat) : State :=
  let k := s.pendOf i
  if ! inputSingle i ∨ k = 0 ∨ (Table.get (0, 0) i s.evm.served).1 = s.cycle + 1 then s
  else
    let l := Table.get [] i s.evm.carried
    let s := s.setPend i (k - 1)
    let s := { s with evm := { s.evm with served := Table.put (0, 0) i (s.cycle + 1, 1) s.evm.served,
                                          carried := Table.put [] i (l.drop 1) s.evm.carried } }
    let old := s.evm.asserted.length
    let s := s.singleAction i
    match l with
    | a :: _ => s.linkChain old i a
    | [] => s

/-- TASK_SINGLE_DELIVERY (R214, R215). -/
def execTaskSingleDelivery (t input : Nat) (s : State) : Out := outIf (isInput input) (s.act t fun s => s.deliverSingle input)

/-! ## Chains (R227) -/

/-- The re-entries whose event cycle has come are made. -/
def State.reenter (s : State) : State :=
  let due := s.evm.reentry.filter fun a => decide (a.at_ ≤ s.cycle)
  { s with evm := { s.evm with reentry := s.evm.reentry.filter fun a => decide (s.cycle < a.at_), asserted := s.evm.asserted ++ due } }

/-- RE_ENTRY (R227). -/
def execReEntry (t : Nat) (s : State) : Out := .next (s.act t fun s => s.reenter)

/-! ## Far forks (R228 to R231, R278) -/

/-- The oldest far fork that waits is sent to its group; a member device delivers it to itself as well. -/
def State.sendFar (s : State) : State :=
  match s.evm.farTx with
  | [] => s
  | x :: rest =>
    let s := { s with evm := { s.evm with farTx := rest } }
    (s.broadcast (s.bcastFlit x.group x.time x.channel x.secure) none).acceptFar x.group x.time x.channel x.secure

/-- FAR_FORK_SEND (R228, R230, R278). -/
def execFarForkSend (t : Nat) (s : State) : Out := .next (s.act t fun s => s.sendFar)


/-- An event broadcast that arrives on a tree port is forwarded on the other ones and received; on another port it is discarded. -/
def State.takeBcast (s : State) (p : Nat) (f : Flit) : State :=
  if ! bit (s.rd .WEB_BCAST f.dst) p then s.log { s.detect 0x705 1 (.port p) (webMaster p) with access := 5 }
  else
    let e := flitFarFork f
    (s.forwardBcast f p).acceptFar f.dst e.1 e.2.1 e.2.2

/-- EVENT_BCAST (R230, R231, R277, R278), on a port that is ACTIVE (R262). -/
def execEventBcast (t p : Nat) (f : Flit) (s : State) : Out :=
  outIf (isPort p && isGroup f.dst) (s.act t fun s => if s.portPowered p && s.portActive p then s.takeBcast p f else s)

/-- The deliveries of group `g` that are due assert its source once. -/
def State.deliverFar (s : State) (g : Nat) : State :=
  if s.evm.farRx.any fun x => decide (x.group = g) && s.farDue x then
    State.assertSrc { s with evm := { s.evm with farRx := s.evm.farRx.filter fun x => ! (decide (x.group = g) && s.farDue x) } } (srcFar g)
  else s

/-- FAR_FORK_DELIVERY (R231). -/
def execFarForkDelivery (t g : Nat) (s : State) : Out := outIf (isGroup g) (s.act t fun s => s.deliverFar g)

/-! ## EVIO pins (R233, R234, R371) -/

/-- The level at an input pin changes: it is accepted, or not, as time passes (R233). -/
def State.evioEdge (s : State) (j : Nat) (level : Bool) : State :=
  let x := s.evioOf j
  if s.evioDrives j ∨ x.raw = level then s else s.setEvio j { x with raw := level, rawAt := s.cycle }

/-- EVIO_INPUT_EDGE (R233): an edge reaches the pin; the source asserts filter + 3 to filter + 4 ns later. -/
def execEvioInputEdge (t j : Nat) (level : Bool) (s : State) : Out := outIf (isEvio j) (s.act t fun s => s.evioEdge j level)

/-- EVIO_OUTPUT (R234). -/
def execEvioOutput (t j : Nat) (s : State) : Out := outIf (isEvio j) (s.act t fun s => s.evioAct j)

/-- PULSE_END (R234). -/
def execPulseEnd (t j : Nat) (s : State) : Out := outIf (isEvio j) (s.act t fun s => s.evioEnd j)

end Sys2Proof.Machine
end

