-- ==== Sys2Proof/Machine/Faults.lean ====
section
/-!
DEFINITION. Meanings of the commands of the fault collector (chapter 10): capture, firmware faults, clearing, acknowledgement, release,
SAFE_N and injection. The collector is in the always-on domain.
-/

namespace Sys2Proof.Machine

open Sys2Proof

/-- The detail word of a record (R296): the serving slice of a channel, else the lane of a port or the bank that the detection names. -/
def State.detailWord (s : State) (code : Nat) (sc : Scope) (detail : Nat) : Nat :=
  match sc with
  | .channel n => s.sliceIdx n
  | .port _ => detail % 4
  | _ => if 0x600 ≤ code ∧ code ≤ 0x606 then detail % 1024 else 0

/-- CAPTURE (R289, R294 to R304): a fault detected in hardware, with the class and the scope of its code. -/
def execCapture (t code cls : Nat) (sc : Scope) (master access addr detail : Nat) (s : State) : Out :=
  outIf (isFault code cls sc && ! isFirmwareCode code)
    (s.actOn t fun s => s.log { s.detect code cls sc (master % 2 ^ 16) with
      access := access % 16, addr := addr % 2 ^ 48, detail := s.detailWord code sc detail })

/-- FIRMWARE_FAULT (R289, R294, R313): a fault that management firmware posts, with access type 0x7. -/
def execFirmwareFault (t code cls : Nat) (sc : Scope) (master : Nat) (s : State) : Out :=
  outIf (isFault code cls sc && isFirmwareCode code)
    (s.actOn t fun s => s.log { s.detect code cls sc (master % 2 ^ 16) with access := 7 })

/-- QUEUED_CAPTURE (R295). -/
def execQueuedCapture (t : Nat) (s : State) : Out := .next (s.actOn t fun s => State.collect 4 s)

/-! ## Clearing (R300) -/

/-- Whether nothing of the state says that the cause of a condition is still there: the states and readings that R300 names. -/
def State.causeGone (s : State) (code : Nat) (sc : Scope) : Bool :=
  match code, sc with
  | 0x010, _ => ! s.flt.safeN
  | 0x706, .port p => decide ((s.portOf p).st = .active)
  | 0x800, _ => decide (s.tb.state = .locked)
  | 0xB01, .tile t => decide (sixteenths (Table.get 0 t s.pwr.tileTemp) < 1840)
  | _, _ => true

/-- The cause of a condition fault ends, with what follows from it (R95, R300, R380). -/
def State.causeEnds (s : State) (code : Nat) (sc : Scope) : State :=
  match code, sc with
  | 0x100, .channel n =>
    let x := s.forceOf n
    (s.setForce n { x with short := false }).clearCondition 0x100 sc none
  | 0xB02, .tile t => (s.clearCondition 0xB02 sc none).tileRailBack t
  | 0xB03, .device => (s.clearCondition 0xB03 sc none).hubRailsBack
  | _, _ => s.clearCondition code sc none

/-- CONDITION_CLEAR (R300, R380). -/
def execConditionClear (t code : Nat) (sc : Scope) (s : State) : Out :=
  outIf (isCode code && isScope sc) (s.actOn t fun s => if s.causeGone code sc then s.causeEnds code sc else s)

/-! ## Acknowledgement and release (R302, R305, R306) -/

/-- FLT_ACK (R302): a write to FLT_ACK. -/
def execFltAck (t m : Nat) (v : Word) (s : State) : Out := .next (s.actOn t fun s => s.accessReg m .FLT_ACK 0 0 v none false)

/-- RELEASE (R99, R305, R306). -/
def execRelease (t : Nat) (sc : Scope) (s : State) : Out := outIf (isScope sc) (s.actOn t fun s => s.release sc)

/-- HOURLY_COUNT_STEP (R306). -/
def execHourlyCountStep (t : Nat) (s : State) : Out := .next (s.actOn t fun s => s.hourStep)

/-! ## SAFE_N (R307) -/

/-- The master IDs that Tables 1-6 and 10-10 issue, numbered from 0. -/
def issuedMaster (k : Nat) : Nat :=
  if k < 0x1000 then k
  else if k < 0x1004 then k
  else if k < 0x1006 then 0x1010 + (k - 0x1004)
  else if k < 0x1008 then 0x1020 + (k - 0x1006)
  else 0x1100 + (k - 0x1008) % 34

/-- SAFE_N is recognised low. The spec names no master ID for it: the record's is a free one among those that are issued (R27). -/
def State.safeLow (s : State) : State :=
  if s.flt.safeN then s
  else
    let w := s.freeWord
    let s := State.assertSrc { w.2 with flt := { w.2.flt with safeN := true } } (srcFault 8)
    s.fault 0x010 5 .device (issuedMaster (w.1.toNat % 0x102A))

/-- SAFE_N has been high for 1 µs. -/
def State.safeHigh (s : State) : State :=
  if ! s.flt.safeN then s
  else (State.clearCondition { s with flt := { s.flt with safeN := false } } 0x010 .device none).assertSrc (srcFault 9)

/-- A low level on SAFE_N of `width` ns: recognised from 20 ns on, ignored below 5 ns. The spec leaves open what happens between: a free
value decides (R307). -/
def State.safePulse (s : State) (width : Nat) : State :=
  if 20 ≤ width then s.safeLow
  else if width < 5 then s
  else let w := s.freeWord; if w.1.getLsbD 0 then w.2.safeLow else w.2

/-- SAFE_N (R307). -/
def execSafeN (t width : Nat) (s : State) : Out := .next (s.actOn t fun s => s.safePulse width)

/-- SAFE_N_RELEASE (R307). -/
def execSafeNRelease (t : Nat) (s : State) : Out := .next (s.actOn t fun s => s.safeHigh)

/-! ## Injection (R309, R311) -/

/-- INJECTION_FIRE (R309): a write to FLT_INJ_CTL[j]. -/
def execInjectionFire (t m j : Nat) (v : Word) (s : State) : Out :=
  outIf (isInj j) (s.actOn t fun s => s.accessReg m .FLT_INJ_CTL j 0 v none false)

/-- An accepted firing of slot `j` is detected. -/
def State.injected (s : State) (j : Nat) : State :=
  let x := s.injOf j
  match x.due, scopeOf (s.fld f_FLT_INJ_CTL_scope j) (s.fld f_FLT_INJ_CTL_index j) with
  | some c, some sc =>
    if s.cycle < c then s
    else
      let held := s.on f_FLT_INJ_CTL_held j
      let s := s.setInj j { x with due := none, active := x.active || held }
      s.log { s.detect (s.fld f_FLT_INJ_CTL_code j) (s.fld f_FLT_INJ_CTL_class j) sc 0x1120 with access := 8, slot := some j, heldInj := held }
  | _, _ => s

/-- INJECTED_DETECTION (R309): in the event cycle after the firing. -/
def execInjectedDetection (t j : Nat) (s : State) : Out := outIf (isInj j) (s.actOn t fun s => s.injected j)

/-- INJECTION_CLEAR (R309): a write to FLT_INJ_CTL[j]. -/
def execInjectionClear (t m j : Nat) (v : Word) (s : State) : Out :=
  outIf (isInj j) (s.actOn t fun s => s.accessReg m .FLT_INJ_CTL j 0 v none false)

/-- FIRST_REARM (R298): a write to FLT_CTL. -/
def execFirstRearm (t m : Nat) (v : Word) (s : State) : Out := .next (s.actOn t fun s => s.accessReg m .FLT_CTL 0 0 v none false)

end Sys2Proof.Machine
end

