-- ==== Sys2Proof/Machine/Forcing.lean ====
section
/-!
DEFINITION. Meanings of the forcing commands (chapter 3): DAC frames, force commands, range and span changes, attachment, detachment, the
deckle, the short-circuit limiter, SAFE switches, boosters and guards.
-/

namespace Sys2Proof.Machine

open Sys2Proof

/-- The master ID of TILE[t] of channel `n` (Table 10-10). -/
def tileMaster (n : Nat) : Nat := 0x1108 + n / 64

/-! ## DAC frames (R85) -/

/-- The DAC frame boundaries of channel `n` that have come since the last one; where an execution or a mould point is due, its own command
begins the next frame (R147). -/
def State.dacFrame (s : State) (n : Nat) (meas : Int) : State :=
  let a := (s.forceOf n).frameAt
  let k := (s.now - a) / 65536
  if k = 0 ∨ s.startDue n ∨ ! s.chanPowered n then s else (s.sweepBoundary n).dacBoundary n (a + k * 65536) k meas

/-- DAC_FRAME_BOUNDARY (R83, R85, R175): `meas` is the output measured in the quantity not forced, as a code (R83). -/
def execDacFrameBoundary (t n : Nat) (meas : Int) (s : State) : Out := outIf (isChan n) (s.act t fun s => s.dacFrame n meas)

/-- FORCE_COMMAND (R78, R81, R82): a write to CH_FORCE_SET. -/
def execForceCommand (t m n : Nat) (v : Word) (s : State) : Out :=
  outIf (isChan n) (s.act t fun s => s.accessReg m .CH_FORCE_SET n 0 v none false)

/-! ## The end of range and span changes (R87, R88, R90, R98) -/

/-- A range switch has ended: the counts of autorange restart at 0 (R132), and a range hold has ended (notes/assumptions/84.md). -/
def State.zeroCounts (s : State) (n : Nat) : State := s.setSeq n { s.seqOf n with up := 0, down := 0, rangeHold := false }

/-- A command held pending through the change to ZEROED is executed (R82, R99). -/
def State.takePending (s : State) (n : Nat) : State :=
  let x := s.forceOf n
  match x.pending with
  | some c => (s.setForce n { x with pending := none }).applyForce n c
  | none => s

/-- A range switch ends: the new range is in force, and the change goes on as it was begun. -/
def State.endRange (s : State) (n : Nat) : State :=
  let x := s.forceOf n
  match x.steps with
  | .switch _ r :: rest =>
    if x.due = 0 ∨ s.now < x.due then s
    else
      let y := x.view s.now
      let y := { y with range := r, rangingEnd := if x.st = .ranging then s.now else x.rangingEnd, due := 0, steps := rest }
      let s := ((s.setForce n y).stick f_CH_FORCE_EVENTS_range_done n).zeroCounts n
      if x.st = .ranging then
        match x.goal with
        | some g => (s.afterChange n g).autorangeCheck n
        | none =>
          if x.disabling then s.enterZeroed n
          else
            let s := (s.enterZeroed n).recovered n
            if (s.forceOf n).st = .zeroed then (s.takePending n).resumeEngine n else s
      else s
  | _ => s

/-- RANGE_CHANGE_COMPLETE (R87, R88, R98, R99). -/
def execRangeChangeComplete (t n : Nat) (s : State) : Out := outIf (isChan n) (s.act t fun s => s.endRange n)

/-- A pending command for the span and range of the hold takes the place of the command that the ramp up would carry out
(R82 with the example of Table 3-8, DEDUCED: notes/assumptions/82.md). -/
def Force.rampUp (x : Force) (rest : List FStep) (sp r : Nat) : Force :=
  match x.pending, x.goal with
  | some c, some _ =>
    if c.span = sp ∧ c.range = r then
      { x with pending := none, goal := some c.mode, fast := c.fast, steps := if c.mode then [.mode true, .ramp c.code] else [.ramp c.code] }
    else { x with steps := rest }
  | _, _ => { x with steps := rest }

/-- The hold of a span change ends at a DAC frame boundary: the new span and range are in force. -/
def State.endHold (s0 : State) (n : Nat) : State :=
  let s := s0.dacFrame n 0
  let x := s.forceOf n
  match x.steps with
  | .hold sp r :: rest =>
    if x.due = 0 ∨ s.now < x.due then s
    else
      let y := { x with span := sp, range := r, due := 0 }
      let s := s.setForce n (y.rampUp rest sp r)
      if r ≠ x.range then s.stick f_CH_FORCE_EVENTS_range_done n else s
  | _ => s

/-- SPAN_HOLD_END (R90, R98, R101). -/
def execSpanHoldEnd (t n : Nat) (s : State) : Out := outIf (isChan n) (s.act t fun s => s.endHold n)

/-! ## Attachment and detachment (R77, R79, R80, R343) -/

/-- The attachment frame of channel `n`. -/
def State.attachFrame (s : State) (n : Nat) : Nat :=
  let f := (s.rd .CH_ATTACH n).toNat
  if s.on f_CH_CTL_attach_rel n then (s.tb.readyFrame + f) % 2 ^ 32 else f

/-- Raster time reaches PHASE 0 of line 0 of frame `f` in this event cycle. -/
def State.frameBegins (s : State) (f : Nat) : Bool :=
  let r := s.tb.raster
  s.tb.ready && decide (r.frame = f) && decide (r.line = 0) && decide (r.frac * s.tb.period < 256 * 2 ^ 32)

/-- An armed channel attaches at its attachment frame. -/
def State.attachDue (s : State) (n : Nat) : State :=
  if (s.forceOf n).st = .detached ∧ s.on f_CH_CTL_attach_armed n ∧ s.dev.phase = 7 ∧ s.chanPowered n ∧
      s.frameBegins (s.attachFrame n) then s.attach n
  else s

/-- ATTACHMENT (R77, R188, R291). -/
def execAttachment (t n : Nat) (s : State) : Out := outIf (isChan n) (s.act t fun s => s.attachDue n)

/-- ENABLE_CLEAR (R79, R130, R176): a write to CH_CTL; `codes` are the conversions of an entry that is cut. -/
def execEnableClear (t m n : Nat) (v : Word) (codes : List Int) (s : State) : Out :=
  outIf (isChan n) (s.act t fun s => s.accessReg m .CH_CTL n 0 v (some codes) false)

/-- DETACH (R80): a write to CH_CTL. -/
def execDetach (t m n : Nat) (v : Word) (codes : List Int) (s : State) : Out :=
  outIf (isChan n) (s.act t fun s => s.accessReg m .CH_CTL n 0 v (some codes) false)

/-! ## The deckle clamp (R93, R94) -/

/-- The clamp engages on an attached channel. -/
def State.clampOn (s : State) (n : Nat) : State :=
  let x := s.forceOf n
  if x.clamped ∨ x.st = .detached then s
  else
    let s := (s.setForce n { x with clamped := true }).stick f_CH_FORCE_EVENTS_deckle_hit n
    ((s.tally f_CH_DECKLE_COUNT_count 1 n).assertSrc (srcDeckle n)).latchHit n

/-- DECKLE_HIT (R93, R159). -/
def execDeckleHit (t n : Nat) (s : State) : Out := outIf (isChan n) (s.act t fun s => s.clampOn n)

/-- The clamp releases: the calender goes on from the measured code, which the DAC takes at once (DESIGN CHOICE, notes/assumptions/92.md); in
SAFE the zero-scale command of R97 stays (notes/assumptions/83.md). -/
def State.clampOff (s : State) (n : Nat) (meas : Int) : State :=
  let x := s.forceOf n
  if ! x.clamped then s
  else
    let present := if x.st = .safe then x.present else clampCode meas
    (s.setForce n { x with clamped := false, clampEnd := s.now, present, dac := clampCode (present + x.corr) }).stick
      f_CH_FORCE_EVENTS_clamp_release n

/-- CLAMP_RELEASE (R94): `meas` is the measured output in the forced quantity, as a code. -/
def execClampRelease (t n : Nat) (meas : Int) (s : State) : Out := outIf (isChan n) (s.act t fun s => s.clampOff n meas)

/-! ## The short-circuit limiter (R95) -/

/-- The limiter qualifies. -/
def State.shortOn (s : State) (n : Nat) : State :=
  let x := s.forceOf n
  if x.short ∨ x.st = .detached then s
  else
    let s := ((s.setForce n { x with short := true }).stick f_CH_FORCE_EVENTS_short n).assertSrc (srcTile (n / 64) 3)
    s.fault 0x100 2 (.channel n) (tileMaster n)

/-- SHORT (R95). -/
def execShort (t n : Nat) (s : State) : Out := outIf (isChan n) (s.act t fun s => s.shortOn n)

/-- The limiter has been inactive for 1 µs. -/
def State.shortOff (s : State) (n : Nat) : State :=
  let x := s.forceOf n
  if x.short then (s.setForce n { x with short := false }).clearCondition 0x100 (.channel n) none else s

/-- SHORT_CLEAR (R95, R300). -/
def execShortClear (t n : Nat) (s : State) : Out := outIf (isChan n) (s.act t fun s => s.shortOff n)

/-! ## SAFE switches (R97) -/

/-- Under an opening policy the switch opens near 0 V, or 10 ms after entry to SAFE. -/
def State.openSafe (s : State) (n : Nat) (within : Bool) : State :=
  let x := s.forceOf n
  if x.st = .safe ∧ x.openWanted ∧ (within ∨ x.safeAt + ms 10 ≤ s.now) then
    s.setForce n { x with closed := false, openWanted := false }
  else s

/-- SAFE_SWITCH_OPEN (R97). -/
def execSafeSwitchOpen (t n : Nat) (within : Bool) (s : State) : Out := outIf (isChan n) (s.act t fun s => s.openSafe n within)

/-! ## Boosters and guards (R102, R104) -/

/-- The channel bound to booster port `b` of the device, two ports to a tile (R101). -/
def State.boundChan (s : State) (b : Nat) : Option Nat :=
  if s.on f_TILE_BST_BIND_valid (b / 2) (b % 2) then some (64 * (b / 2) + s.fld f_TILE_BST_BIND_position (b / 2) (b % 2)) else none

/-- A booster fault of a channel that forces through its port. -/
def State.boostFault (s : State) (b code : Nat) : State :=
  match s.boundChan b with
  | none => s
  | some n =>
    let x := s.forceOf n
    if x.range ≠ 6 ∨ x.st = .detached ∨ (code = 0x101 ∧ x.clamped) then s
    else
      ((s.stick f_CH_FORCE_EVENTS_booster_fault n).assertSrc (srcTile (b / 2) (b % 2))).fault code 3 (.channel n) (tileMaster n)

/-- BOOST_LOOP (R102). -/
def execBoostLoop (t b : Nat) (s : State) : Out := outIf (isBooster b) (s.act t fun s => s.boostFault b 0x101)

/-- BOOST_SENSE (R102). -/
def execBoostSense (t b : Nat) (s : State) : Out := outIf (isBooster b) (s.act t fun s => s.boostFault b 0x102)

/-- The guard of octet `k` drives 0 V until the octet is released; a guard driver whose tile is off carries no current. -/
def State.guardOver (s : State) (k : Nat) : State :=
  if ! s.domainOn (5 * (k / 8) + 4) then s
  else
    let s := { s with guards := setBitN s.guards k true }
    (s.assertSrc (srcTile (k / 8) 2)).fault 0x103 3 (.octet k) (0x1108 + k / 8)

/-- GUARD_OVERLOAD (R104). -/
def execGuardOverload (t k : Nat) (s : State) : Out := outIf (isOctet k) (s.act t fun s => s.guardOver k)

end Sys2Proof.Machine
end

