-- ==== Sys2Proof/Machine/Measuring.lean ====
section
/-!
DEFINITION. Meanings of the measuring commands (chapter 4): ADC cells, entries, triggers, restarts, run, autorange and the entry words.
-/

namespace Sys2Proof.Machine

open Sys2Proof

/-! ## ADC cells (R107, R108) -/

/-- The cells of a slice after `k` rotations: the next in order leaves for calibration (R107); in low-power mode the calibrated cell and the
one active cell change places, that one being at first the cell which would have left next (R109; DESIGN CHOICE, notes/assumptions/97.md). -/
def Slice.rotated (y : Slice) (lp : Bool) (k : Nat) : Slice :=
  if y.failed ≠ 0 then y
  else if ! lp then { y with cell := (y.cell + k) % 5, lpCell := none }
  else
    let a := y.lpCell.getD ((y.cell + 1) % 5)
    if k % 2 = 0 then { y with lpCell := some a } else { y with cell := a, lpCell := some y.cell }

/-- Rotation on slice `i`: one cell for every 12.8 ms that have passed; none once a cell has been retired. -/
def State.rotate (s : State) (i : Nat) : State :=
  let y := s.sliceOf i
  let k := (s.now - y.rotAt) / us 12800
  let lp : Bool := match s.sliceChannel i with | some n => (s.seqOf n).lp | none => false
  if k = 0 ∨ ! s.domainOn (sliceDomain i) then s
  else s.setSlice i { y.rotated lp k with rotAt := y.rotAt + k * us 12800 }

/-- CELL_ROTATION (R107, R109). -/
def execCellRotation (t i : Nat) (s : State) : Out := outIf (isSlice i) (s.act t fun s => s.rotate i)

/-- A cell of slice `i` fails its calibration; the fault names the channel that the slice serves. -/
def State.cellFails (s : State) (i : Nat) : State :=
  let y := s.sliceOf i
  if ! s.domainOn (sliceDomain i) ∨ 5 ≤ y.failed then s
  else
    let s := s.setSlice i { y with failed := y.failed + 1 }
    match s.sliceChannel i with
    | none => s
    | some n => s.fault 0x200 (if y.failed = 0 then 2 else 3) (.channel n) (0x1108 + n / 64)

/-- ADC_CELL (R108). -/
def execAdcCell (t i : Nat) (s : State) : Out := outIf (isSlice i) (s.act t fun s => s.cellFails i)

/-! ## Entries (R110 to R112) -/

/-- The aperture of the entry in progress has ended with a conversion in each of its slots. -/
def State.entryEnds (s : State) (n : Nat) (codes : List Int) : State :=
  let q := s.seqOf n
  if q.busy ∧ q.apEnd ≤ s.now ∧ codes.length = mCount q.word q.lp then (s.emit n codes false).nextEntry n else s

/-- ENTRY_COMPLETE (R112 to R124, R130, R135 to R137): `codes` are the conversions of the aperture. -/
def execEntryComplete (t n : Nat) (codes : List Int) (s : State) : Out :=
  outIf (isChan n) (s.act t fun s => s.entryEnds n codes)

/-- The 20 µs of a low-power switch have passed: the mode asked for is in force, and the sequence starts at entry 0. -/
def State.switchEnds (s : State) (n : Nat) : State :=
  let q := s.seqOf n
  match q.lpUntil with
  | none => s
  | some u =>
    if s.now < u then s
    else
      let q := { q with lpUntil := none, lp := s.on f_CH_MEAS_CTL_low_power n, prev := none, profile := s.fld f_CH_MEAS_CTL_profile n }
      if q.running then (s.setSeq n q).startAtSlot n u else s.setSeq n q

/-- LOW_POWER_SWITCH_END (R109, R110). -/
def execLowPowerSwitchEnd (t n : Nat) (s : State) : Out := outIf (isChan n) (s.act t fun s => s.switchEnds n)

/-! ## Triggers and restarts (R125 to R129) -/

/-- TRIGGER (R125): a write to CH_MEAS_TRIG. -/
def execTrigger (t m n : Nat) (v : Word) (s : State) : Out :=
  outIf (isChan n) (s.act t fun s => s.accessReg m .CH_MEAS_TRIG n 0 v none false)

/-- A pending restart whose instant has come. -/
def State.restartDue (s : State) (n : Nat) : State :=
  match s.restartInstant n with
  | some u => s.doRestart n u
  | none => s

/-- RESTART (R106, R127, R128). -/
def execRestart (t n : Nat) (s : State) : Out := outIf (isChan n) (s.act t fun s => s.restartDue n)

/-! ## Writes to CH_MEAS_CTL and CH_MEAS_SEQ (R111, R130, R134, R138) -/

/-- RUN_SET (R111). -/
def execRunSet (t m n : Nat) (v : Word) (s : State) : Out :=
  outIf (isChan n) (s.act t fun s => s.accessReg m .CH_MEAS_CTL n 0 v none false)

/-- RUN_CLEAR (R130): `codes` are the conversions taken of the entry that is cut. -/
def execRunClear (t m n : Nat) (v : Word) (codes : List Int) (s : State) : Out :=
  outIf (isChan n) (s.act t fun s => s.accessReg m .CH_MEAS_CTL n 0 v (some codes) false)

/-- AUTORANGE_CLEAR (R134). -/
def execAutorangeClear (t m n : Nat) (v : Word) (s : State) : Out :=
  outIf (isChan n) (s.act t fun s => s.accessReg m .CH_MEAS_CTL n 0 v none false)

/-- The range hold engages below the ceiling range while autorange is in effect. -/
def State.holdRange (s : State) (n : Nat) : State :=
  if s.autorange n ∧ (s.forceOf n).range < s.topOf n then
    (s.setSeq n { s.seqOf n with rangeHold := true }).stick f_CH_MEAS_EVENTS_range_hold n
  else s

/-- RANGE_HOLD (R131). -/
def execRangeHold (t n : Nat) (s : State) : Out := outIf (isChan n) (s.act t fun s => s.holdRange n)

/-- CH_MEAS_SEQ_WRITE (R114, R138): a write to entry `e` of profile `p`. -/
def execChMeasSeqWrite (t m n p e : Nat) (v : Word) (s : State) : Out :=
  outIf (isChan n && isEntry p e) (s.act t fun s => s.accessReg m .CH_MEAS_SEQ n (p * 16 + e) v none false)

end Sys2Proof.Machine
end

