-- ==== Sys2Proof/Machine/MemoryCmd.lean ====
section
/-!
DEFINITION. Meanings of the commands of the memory controller (chapter 8): requests, command issue, read data, refresh, self-refresh, partial
retention, training and rates.
-/

namespace Sys2Proof.Machine

open Sys2Proof

/-- A request of port `p`; a write of P3 or P4 into the list table or the mould table has no effect (R141). -/
def State.portAsks (s : State) (p : Nat) (write : Bool) (a : Nat) (data : List Byte) (len : Nat) : State :=
  if write ∧ (p = 3 ∨ p = 4) ∧ s.tableWrite a data.length then s.memFault 0x303 1 .none (portMaster p) 4 a
  else s.memRequest p write a data len

/-- PORT_REQUEST (R141, R238, R239, R247 to R249). -/
def execPortRequest (t p : Nat) (write : Bool) (addr : Nat) (data : List Byte) (len : Nat) (s : State) : Out :=
  outIf (isMemPort p && isMemSpan addr (if write then data.length else len)) (s.act t fun s => s.portAsks p write addr data len)

/-- URGENCY_LEVEL_3 (R240). -/
def execUrgencyLevel3 (t id : Nat) (s : State) : Out := .next (s.act t fun s => s.enterUrgent id)

/-- COMMAND_ISSUE (R238, R239, R241, R243 to R245). -/
def execCommandIssue (t q : Nat) (s : State) : Out := outIf (isPc q) (s.act t fun s => s.memIssue q)

/-- THROTTLE_END (R245). -/
def execThrottleEnd (t : Nat) (s : State) : Out := .next (s.act t fun s => s.rhRoll)

/-- READ_DATA (R143, R239, R250 to R254): `bad` and `copyBad` number the 32-byte bursts whose parity fails, in the data and in the copy. -/
def execReadData (t id : Nat) (bad copyBad : List Nat) (s : State) : Out := .next (s.act t fun s => s.memReturn id bad copyBad)

/-- A soft repair completes, at most 1 µs after it began, and its record is burnt into the fuse array (R254, R318). -/
def State.repairEnds (s : State) (k : Nat) : State :=
  match (s.bankOf k).repair with
  | some _ => (s.softRepaired k).recordRepairs
  | none => s

/-- SOFT_REPAIR_COMPLETE (R254). -/
def execSoftRepairComplete (t b q : Nat) (s : State) : Out := outIf (isBank b q) (s.act t fun s => s.repairEnds (b * 32 + q))

/-- REFRESH (R241, R243, R246). -/
def execRefresh (t b q : Nat) (s : State) : Out :=
  outIf (isBank b q) (s.act t fun s => s.refreshDue (b * 32 + q))

/-- A bank's idle timer has run out. -/
def State.pageIdle (s : State) (k : Nat) : State :=
  let b := s.bankOf k
  if b.row.isSome ∧ b.access + ns (s.fld f_MEMC_PAGE_idle_ns) ≤ s.now then s.closeRow k else s

/-- PAGE_CLOSE (R243). -/
def execPageClose (t b q : Nat) (s : State) : Out := outIf (isBank b q) (s.act t fun s => s.pageIdle (b * 32 + q))

/-- SELF_REFRESH_ENTRY (R247). -/
def execSelfRefreshEntry (t : Nat) (s : State) : Out := .next (s.act t fun s => s.enterSelfRefresh)

/-- A request waits for the stack, which is ready (R248, R249). -/
def State.stackReady (s : State) : State :=
  match s.memc.srExit, s.memc.srAt with
  | some _, some u => if s.now < u + ns 500 then s else s.memWake
  | _, _ => s

/-- SELF_REFRESH_EXIT (R248). -/
def execSelfRefreshExit (t : Nat) (s : State) : Out := .next (s.act t fun s => s.stackReady)

/-- RETENTION_ENTER (R249): a write to MEMC_PR_CTL. -/
def execRetentionEnter (t m : Nat) (v : Word) (s : State) : Out := .next (s.act t fun s => s.accessReg m .MEMC_PR_CTL 0 0 v none false)

/-- RETENTION_EXIT (R249, R250): a write to MEMC_PR_CTL. -/
def execRetentionExit (t m : Nat) (v : Word) (s : State) : Out := .next (s.act t fun s => s.accessReg m .MEMC_PR_CTL 0 0 v none false)

/-- TRAINING_ROUND (R255). -/
def execTrainingRound (t : Nat) (s : State) : Out := .next (s.act t fun s => s.trainRound)

/-- FREQ_REQ (R256): a write to MEMC_FREQ. -/
def execFreqReq (t m : Nat) (v : Word) (s : State) : Out := .next (s.act t fun s => s.accessReg m .MEMC_FREQ 0 0 v none false)

/-- FREQ_SWITCH (R256). -/
def execFreqSwitch (t : Nat) (s : State) : Out := .next (s.act t fun s => s.freqSwitched)

end Sys2Proof.Machine
end

