-- ==== Sys2Proof/Machine/Mgmt.lean ====
section
/-!
DEFINITION. Meanings of the commands of MGMT_SPI and of the TAP (R286 to R288): management accesses and boundary scan.
-/

namespace Sys2Proof.Machine

open Sys2Proof

/-- The master ID of MGMT_SPI. -/
def spiMaster : Nat := 0x1020
/-- The master ID of MGMT_ACCESS. -/
def jtagMaster : Nat := 0x1021

/-- The number that bytes spell, the most significant one first (R286). -/
def beNat (l : List Byte) : Nat := l.foldl (fun n b => 256 * n + b.toNat) 0

/-- A management transaction: what the controller shifts in from CS_N falling to CS_N rising, as first byte, address and the rest; none
where CS_N rises before the address is complete. -/
def spiFrame (mosi : List Byte) : Option (Nat × Nat × List Byte) :=
  match mosi with
  | first :: rest => if rest.length < 5 then none else some (first.toNat, beNat (rest.take 5), rest.drop 5)
  | [] => none

/-- The bytes that the target returned. -/
def State.setMiso (s : State) (l : List Byte) : State := { s with jtag := { s.jtag with miso := l } }

/-- SPI_WRITE (R286): byte 0x02, five address bytes and four data bytes; performed when CS_N rises. A transaction that ends before its
data, or that begins with another byte, writes nothing. -/
def execSpiWrite (t : Nat) (mosi : List Byte) (s : State) : Out :=
  match spiFrame mosi with
  | some (0x02, a, data) =>
    if data.length < 4 then .next (s.act t fun s => s.setMiso [])
    else
      match s.foreign a true with
      | some o => .refused (.forerunnerRegister o)
      | none => .next (s.act t fun s =>
          (s.access spiMaster fun s => s.writeAt spiMaster a (BitVec.ofNat 32 (beNat (data.take 4))) none false).setMiso [])
  | _ => .next (s.act t fun s => s.setMiso [])

/-- The answer of a read: 0x00 for each byte clocked while the access is in progress, then 0x01 and the data, most significant byte first,
or 0x02 and four zeros. -/
def State.spiAnswer (s : State) (busy : Nat) : List Byte :=
  List.replicate busy 0 ++ (if s.resp.error then [2, 0, 0, 0, 0] else 1 :: (leBytes s.resp.data.toNat 4).reverse)

/-- SPI_READ (R286): byte 0x03 and five address bytes, then further bytes that clock the answer out; `busy` of them pass while the access
is in progress, and `bad` marks memory data that cannot be corrected. CS_N rising earlier leaves the access to complete. -/
def execSpiRead (t : Nat) (mosi : List Byte) (busy : Nat) (bad : Bool) (s : State) : Out :=
  match spiFrame mosi with
  | some (0x03, a, rest) =>
    match s.foreign a false with
    | some o => .refused (.forerunnerRegister o)
    | none => .next (s.act t fun s =>
        let s := s.access spiMaster fun s => s.readAt spiMaster a bad
        s.setMiso ((s.spiAnswer busy).take rest.length))
  | _ => .next (s.act t fun s => s.setMiso [])

/-- IDCODE (R287): version 1, part 0x5120, manufacturer field 0x053. With `trst` it is selected by TRST_N, which takes the controller to
Test-Logic-Reset and scans nothing. -/
def execIdcode (t : Nat) (trst : Bool) (s : State) : Out :=
  .next (s.act t fun s =>
    if trst then { s with jtag := { s.jtag with ir := 0x01, drives := false, tap := .reset } }
    else (s.tapLoad 0x01).tapCapture 32 0x151200A7)

/-- The codes of the instructions (R287); every other one acts as BYPASS. -/
def tapCodes : List Nat := [0x01, 0x02, 0x03, 0x04, 0x05, 0x06, 0x07, 0x20]

/-- BYPASS (R287), and any code that is no other instruction's. -/
def execBypass (t code : Nat) (s : State) : Out :=
  .next (s.act t fun s => if tapCodes.contains (code % 256) then s else (s.tapLoad 0xFF).tapCapture 1 0)

/-- SAMPLE_PRELOAD (R287): the pins are captured and shifted out, and `load` is shifted in. -/
def execSamplePreload (t pins load : Nat) (s : State) : Out :=
  .next (s.act t fun s =>
    let s := (s.tapLoad 0x02).tapCapture (scanLength (max pins load)) pins
    { s with jtag := { s.jtag with boundary := load } })

/-- EXTEST (R288). -/
def execExtest (t pins load : Nat) (s : State) : Out := .next (s.act t fun s => s.tapDrive 0x03 (some (pins, load)))

/-- EXTEST_PULSE (R288). -/
def execExtestPulse (t pins load : Nat) (s : State) : Out := .next (s.act t fun s => s.tapDrive 0x04 (some (pins, load)))

/-- EXTEST_TRAIN (R288). -/
def execExtestTrain (t pins load : Nat) (s : State) : Out := .next (s.act t fun s => s.tapDrive 0x05 (some (pins, load)))

/-- HIGHZ (R288). -/
def execHighz (t : Nat) (s : State) : Out := .next (s.act t fun s => s.tapDrive 0x06 none)

/-- CLAMP (R288). -/
def execClamp (t : Nat) (s : State) : Out := .next (s.act t fun s => s.tapDrive 0x07 none)

/-- MGMT_ACCESS (R287): the access, then its answer in the 72-bit register; `bad` as for SPI_READ. -/
def execMgmtAccess (t : Nat) (write : Bool) (a : Nat) (v : Word) (bad : Bool) (s : State) : Out :=
  match s.foreign a write with
  | some o => .refused (.forerunnerRegister o)
  | none => .next (s.act t fun s =>
      ((s.tapLoad 0x20).access jtagMaster fun s =>
        if write then s.writeAt jtagMaster a v none false else s.readAt jtagMaster a bad).tapAnswer a)

end Sys2Proof.Machine
end

