-- ==== Sys2Proof/Machine/Power.lean ====
section
/-!
DEFINITION. Meanings of the commands of supplies, thermal governor and power domains (chapters 1 and 13).
-/

namespace Sys2Proof.Machine

open Sys2Proof

/-! ## Resets and rails (R376, R380, R381) -/

/-- PORST_N (R376): held low, the device restarts as at power-on, and POR is in force until POR_RELEASE. -/
def execPorstN (_t : Nat) (s : State) : Out := .next s.porReset

/-- VDD_AON_LOSS (R380): a full POR. -/
def execVddAonLoss (_t : Nat) (s : State) : Out := .next s.porReset

/-- SUPPLY_TILE (R380). -/
def execSupplyTile (t tile : Nat) (s : State) : Out := outIf (isTile tile) (s.actOn t fun s => s.tileRailLost tile)

/-- TILE_DOMAINS_OFF (R20, R380): `within` says whether every output of the tile is within ±10 mV of 0 V. -/
def execTileDomainsOff (t tile : Nat) (within : Bool) (s : State) : Out :=
  outIf (isTile tile) (s.actOn t fun s => s.tileDomainsOff tile within)

/-- SUPPLY_HUB (R380, R381): the rail is a bit of PWR_STATUS.hub_rail_ok. -/
def execSupplyHub (t rail : Nat) (s : State) : Out := outIf (isRail rail) (s.actOn t fun s => s.hubRailLost rail)

/-- HUB_RESTART (R380, R381). -/
def execHubRestart (t : Nat) (s : State) : Out := .next (s.actOn t fun s => s.hubRestart)

/-! ## Power and temperature (R386 to R391) -/

/-- POWER_MEASUREMENT (R386, R387, R389): power in mW, the sensors of tiles, stack and hub in 1/16 °C. -/
def execPowerMeasurement (t mw : Nat) (tiles : List Nat) (stack hub : Nat) (s : State) : Out :=
  .next (s.act t fun s => s.measurePower mw tiles stack hub)

/-- DEVICE_STEP (R388, R391). -/
def execDeviceStep (t : Nat) (s : State) : Out := .next (s.act t fun s => s.deviceStep)

/-- TILE_STEP (R389, R391). -/
def execTileStep (t tile : Nat) (s : State) : Out := outIf (isTile tile) (s.act t fun s => s.tileStep tile)

/-- STEP_RELEASE (R390, R391): a device step, or one of a tile. -/
def execStepRelease (t : Nat) (tile : Option Nat) (s : State) : Out := outIf (isTile? tile) (s.act t fun s => s.releaseStep tile)

/-! ## Power domains (R19, R20, R392) -/

/-- DOMAIN_ON (R392): a write to PWR_DOMAIN_REQ. -/
def execDomainOn (t m : Nat) (v : Word) (s : State) : Out := .next (s.act t fun s => s.accessReg m .PWR_DOMAIN_REQ 0 0 v none false)

/-- DOMAIN_OFF (R19, R20, R392): a write to PWR_DOMAIN_REQ. -/
def execDomainOff (t m : Nat) (v : Word) (s : State) : Out := .next (s.act t fun s => s.accessReg m .PWR_DOMAIN_REQ 0 0 v none false)

/-- SLICE_GROUP_POWERED (R392). -/
def execSliceGroupPowered (t d : Nat) (s : State) : Out := outIf (isGroupDomain d) (s.act t fun s => s.groupPowered d)

end Sys2Proof.Machine
end

