-- ==== Sys2Proof/Machine/Results.lean ====
section
/-!
DEFINITION. Meanings of the commands of results and queues (chapter 6): stamping, credits, pops, consumers, refill, watermarks and the states
of felts.
-/

namespace Sys2Proof.Machine

open Sys2Proof

/-- FELT_PUSH (R183, R187 to R189, R199 to R201, R207). -/
def execFeltPush (t : Nat) (p : Producer) (s : State) : Out :=
  outIf (isProducer p) (s.act t fun s => match p with | .channel n => s.stampTurn n | .agent a => s.agentTurn a)

/-- CREDIT_ASK (R198): producers are the slices, then the agents. -/
def execCreditAsk (t p f : Nat) (s : State) : Out := outIf (isCreditor p && isFelt f) (s.act t fun s => s.ask p f)

/-- CREDIT_GRANT (R198, R201). -/
def execCreditGrant (t p f : Nat) (s : State) : Out := outIf (isCreditor p && isFelt f) (s.act t fun s => s.answerAsk p f)

/-- FELT_POP (R192, R193, R195): a read of word 0. -/
def execFeltPop (t m f : Nat) (s : State) : Out :=
  outIf (isFelt f) (s.act t fun s => s.access m fun s => s.readAt m (regAddr .QUE_FELT_POP f 0) false)

/-- POP_SHADOW_READ (R193): a read of one of words 1 to 7. -/
def execPopShadowRead (t m f w : Nat) (s : State) : Out :=
  outIf (isFelt f && isTailWord w) (s.act t fun s => s.access m fun s => s.readAt m (regAddr .QUE_FELT_POP f w) false)

/-- CAPTURE_TAKE (R192, R194). -/
def execCaptureTake (t f : Nat) (s : State) : Out := outIf (isFelt f) (s.act t fun s => s.captureTake f)

/-- CAPTURE_WRITE_COMPLETE (R194). -/
def execCaptureWriteComplete (t f : Nat) (s : State) : Out := outIf (isFelt f) (s.act t fun s => s.captureWritten f)

/-- STREAM_TAKE (R192, R194). -/
def execStreamTake (t f : Nat) (s : State) : Out := outIf (isFelt f) (s.act t fun s => s.streamTake f)

/-- RING_RD_ADVANCE (R194): a write to QUE_FELT_RING_RD. -/
def execRingRdAdvance (t m f : Nat) (v : Word) (s : State) : Out :=
  outIf (isFelt f) (s.act t fun s => s.accessReg m .QUE_FELT_RING_RD f 0 v none false)

/-- REFILL (R201, R253): `bad` numbers the items of the segment whose data cannot be corrected. -/
def execRefill (t f : Nat) (bad : List Nat) (s : State) : Out := outIf (isFelt f) (s.act t fun s => s.refill f bad)

/-- TAIL_TIMEOUT (R202, R203). -/
def execTailTimeout (t f : Nat) (s : State) : Out := outIf (isFelt f) (s.act t fun s => s.tailTimeout f)

/-- WATERMARK_EVENT (R206). -/
def execWatermarkEvent (t k : Nat) (s : State) : Out := outIf (isPair k) (s.act t fun s => s.fireWm k)

/-- FELT_ENABLE (R208, R209): a write to QUE_FELT_CTL. -/
def execFeltEnable (t m f : Nat) (v : Word) (s : State) : Out :=
  outIf (isFelt f) (s.act t fun s => s.accessReg m .QUE_FELT_CTL f 0 v none false)

/-- FELT_DISABLE (R208): a write to QUE_FELT_CTL. -/
def execFeltDisable (t m f : Nat) (v : Word) (s : State) : Out :=
  outIf (isFelt f) (s.act t fun s => s.accessReg m .QUE_FELT_CTL f 0 v none false)

/-- DRAINED (R208). -/
def execDrained (t f : Nat) (s : State) : Out := outIf (isFelt f) (s.act t fun s => s.becomeDrained f)

/-- FELT_EMPTY_FOR_1_US (R194). -/
def execFeltEmptyFor1Us (t f : Nat) (s : State) : Out := outIf (isFelt f) (s.act t fun s => s.emptyFor f)

end Sys2Proof.Machine
end

