-- ==== Sys2Proof/Machine/StartUp.lean ====
section
/-!
DEFINITION. Meanings of the commands of start-up, image and security (chapter 12): boot phases, flash, management cores, amendments, the
standby slot, attestation and the forerunner windows.
-/

namespace Sys2Proof.Machine

open Sys2Proof

/-! ## Boot phases (R341 to R347, R351, R376) -/

/-- POR_RELEASE (R13, R376): the device starts at phase 0x0 with absolute time 0; without a POR in force nothing happens. -/
def execPorRelease (t : Nat) (s : State) : Out :=
  .next (if s.pwr.porHeld then s.setPwr { s.pwr with porHeld := false } else s.act t fun s => s)

/-- FUSE_LOAD (R316, R318, R341). -/
def execFuseLoad (t : Nat) (s : State) : Out := .next (s.act t fun s => s.loadFuses)

/-- SLOT_SELECTION (R344 to R347): a slot is absent where its xSPI device does not answer. -/
def execSlotSelection (t : Nat) (absentA absentB : Bool) (s : State) : Out := .next (s.act t fun s => s.selectSlot absentA absentB)

/-- VERIFICATION (R341, R344, R351). -/
def execVerification (t : Nat) (s : State) : Out := .next (s.act t fun s => s.verifySlot)

/-- HBM_TRAINING (R341, R398). -/
def execHbmTraining (t : Nat) (s : State) : Out := .next (s.act t fun s => s.trainHbm)

/-- WEB_TRAINING (R34, R263, R341). -/
def execWebTraining (t : Nat) (s : State) : Out := .next (s.act t fun s => s.endWebTraining)

/-- TILE_POWER_UP (R319, R337, R341). -/
def execTilePowerUp (t : Nat) (s : State) : Out := .next (s.act t fun s => s.powerTiles)

/-- START_UP_RUN (R319, R341, R354, R355): the end of the run, with phase 0x6. -/
def execStartUpRun (t : Nat) (s : State) : Out := .next (s.act t fun s => s.endStartUpRun)

/-- RUNNING_ENTRY (R342). -/
def execRunningEntry (t : Nat) (s : State) : Out := .next (s.act t fun s => s.enterRunning)

/-! ## Flash (R345) -/

/-- FLASH_READ (R345): a write to BOOT_FLASH_CTL. -/
def execFlashRead (t m : Nat) (v : Word) (s : State) : Out := .next (s.act t fun s => s.accessReg m .BOOT_FLASH_CTL 0 0 v none false)

/-- FLASH_PROGRAM (R345): a write to BOOT_FLASH_CTL. -/
def execFlashProgram (t m : Nat) (v : Word) (s : State) : Out := .next (s.act t fun s => s.accessReg m .BOOT_FLASH_CTL 0 0 v none false)

/-- FLASH_ERASE (R345): a write to BOOT_FLASH_CTL. -/
def execFlashErase (t m : Nat) (v : Word) (s : State) : Out := .next (s.act t fun s => s.accessReg m .BOOT_FLASH_CTL 0 0 v none false)

/-- REBOOT (R345): a write to BOOT_FLASH_CTL. -/
def execReboot (t m : Nat) (v : Word) (s : State) : Out := .next (s.act t fun s => s.accessReg m .BOOT_FLASH_CTL 0 0 v none false)

/-- FLASH_COMMAND_COMPLETE (R345). -/
def execFlashCommandComplete (t : Nat) (error : Bool) (s : State) : Out := .next (s.act t fun s => s.flashDone error)

/-! ## Management cores (R358 to R360) -/

/-- CORE_FAILED (R358). -/
def execCoreFailed (t k : Nat) (s : State) : Out := outIf (isCore k) (s.act t fun s => s.coreFails k)

/-- CORE_TAKES_DUTY (R358). -/
def execCoreTakesDuty (t k duty : Nat) (s : State) : Out := outIf (isCore k && isDuty duty) (s.act t fun s => s.takeDuty k duty)

/-- CORE_RESTART (R359). -/
def execCoreRestart (t : Nat) (s : State) : Out := .next (s.act t fun s => s.coreRestarted)

/-- DOORBELL (R215, R360). -/
def execDoorbell (t j : Nat) (s : State) : Out := outIf (isBell j) (s.act t fun s => s.takeDoorbell j)

/-! ## Amendments (R361 to R367) -/

/-- AMEND_SEG (R34, R361). -/
def execAmendSeg (t src tag off : Nat) (data : List Byte) (s : State) : Out :=
  .next (s.act t fun s => if s.answers src then s.amendSegment src tag off data else s)

/-- STAGED (R362, R363, R365). -/
def execStaged (t : Nat) (s : State) : Out := .next (s.act t fun s => s.stage)

/-- AMEND_TIMEOUT (R361, R363). -/
def execAmendTimeout (t : Nat) (s : State) : Out := .next (s.act t fun s => s.amendTimeout)

/-- ABORT (R363): a write to BOOT_AMEND_CTL. -/
def execAbort (t m : Nat) (v : Word) (s : State) : Out := .next (s.act t fun s => s.accessReg m .BOOT_AMEND_CTL 0 0 v none false)

/-- AMENDMENT_BOUNDARY (R63, R64, R179, R359, R363, R364). -/
def execAmendmentBoundary (t : Nat) (s : State) : Out := .next (s.act t fun s => s.amendBoundary)

/-- SLOT_WRITE (R367). -/
def execSlotWrite (t : Nat) (s : State) : Out := .next (s.act t fun s => s.slotWriteStart)

/-- SLOT_WRITE_COMPLETE (R367). -/
def execSlotWriteComplete (t : Nat) (error : Bool) (s : State) : Out := .next (s.act t fun s => s.slotWriteEnd error)

/-! ## Attestation (R368) -/

/-- ATTEST_REQ (R34, R368). -/
def execAttestReq (t src tag : Nat) (nonce : BitVec 256) (s : State) : Out :=
  .next (s.act t fun s => if s.answers src then s.attestRequest src tag nonce else s)

/-- ATTEST_RSP (R368). -/
def execAttestRsp (t : Nat) (s : State) : Out := .next (s.act t fun s => s.attestAnswer)

/-! ## Forerunner windows (R369 to R372) -/

/-- An access of requester `m` to virtual node `node`: an address beyond 8 MiB answers ADDR; a flit to a node that the device does not serve
is not accepted. -/
def State.windowAccess (s : State) (m node : Nat) (write : Bool) (a : Nat) (v : Word) : State :=
  if ! s.dev.forerunner ∨ (node ≠ s.virtualNode 0 ∧ node ≠ s.virtualNode 1) then s
  else
    s.access m fun s =>
      match s.windowAddr node a with
      | none => ⟨s, 1, 0⟩
      | some w => if write then s.writeAt m w v none false else s.readAt m w false

/-- The register of the ZRT-2560 that an access to a virtual node reaches. -/
def State.windowForeign (s : State) (node : Nat) (write : Bool) (a : Nat) : Option Nat :=
  if ! s.dev.forerunner then none
  else match s.windowAddr node a with | some w => s.foreign w write | none => none

/-- FORERUNNER_WINDOW_ACCESS (R369, R370): a register of the ZRT-2560 is refused by name, for its behaviour stands in another manual. -/
def execForerunnerWindowAccess (t m node : Nat) (write : Bool) (a : Nat) (v : Word) (s : State) : Out :=
  match s.windowForeign node write a with
  | some o => .refused (.forerunnerRegister o)
  | none => .next (s.act t fun s => s.windowAccess m node write a v)

end Sys2Proof.Machine
end

