-- ==== Sys2Proof/Machine/Sweeps.lean ====
section
/-!
DEFINITION. Meanings of the sweep commands (chapter 5): start, prime, stop, look-ahead points, executions, mould points, advances and
prefetch. `bad` marks an uncorrectable read of a point word, or names the entries whose read is uncorrectable (R143, R169).
-/

namespace Sys2Proof.Machine

open Sys2Proof

/-- START (R172, R173): a write to CH_SWEEP_CTL. -/
def execStart (t m n : Nat) (v : Word) (bad : Bool) (s : State) : Out :=
  outIf (isChan n) (s.act t fun s => s.accessReg m .CH_SWEEP_CTL n 0 v none bad)

/-- PRIME (R174): a write to CH_SWEEP_CTL. -/
def execPrime (t m n : Nat) (v : Word) (s : State) : Out :=
  outIf (isChan n) (s.act t fun s => s.accessReg m .CH_SWEEP_CTL n 0 v none false)

/-- PRIMING_COMPLETE (R172, R174). -/
def execPrimingComplete (t n : Nat) (bad : List Nat) (s : State) : Out := outIf (isChan n) (s.act t fun s => s.primingDone n bad)

/-- START_INSTANT (R172). -/
def execStartInstant (t n : Nat) (s : State) : Out := outIf (isChan n) (s.act t fun s => s.startInstant n)

/-- STOP (R175): a write to CH_SWEEP_CTL. -/
def execStop (t m n : Nat) (v : Word) (s : State) : Out :=
  outIf (isChan n) (s.act t fun s => s.accessReg m .CH_SWEEP_CTL n 0 v none false)

/-- LOOK_AHEAD_POINT (R150 to R153, R158 to R160, R163, R171). -/
def execLookAheadPoint (t n : Nat) (bad : Bool) (s : State) : Out := outIf (isChan n) (s.act t fun s => s.lookAhead n bad)

/-- EXECUTION_START (R147, R154 to R156, R162): `meas` as in DAC_FRAME_BOUNDARY, whose place it takes. -/
def execExecutionStart (t n : Nat) (meas : Int) (bad : Bool) (s : State) : Out :=
  outIf (isChan n) (s.act t fun s => s.startExec n meas bad)

/-- MOULD_POINT (R164 to R169). -/
def execMouldPoint (t n : Nat) (meas : Int) (bad : Bool) (s : State) : Out :=
  outIf (isChan n) (s.act t fun s => s.mouldPoint n meas bad)

/-- ADVANCE_CONSUMED (R157, R165, R167). -/
def execAdvanceConsumed (t n : Nat) (s : State) : Out := outIf (isChan n) (s.act t fun s => s.consumeAdvance n)

/-- WAIT_TIMEOUT (R157). -/
def execWaitTimeout (t n : Nat) (s : State) : Out := outIf (isChan n) (s.act t fun s => s.waitTimeout n)

/-- PREFETCH_ARRIVAL (R170, R171). -/
def execPrefetchArrival (t n : Nat) (bad : List Nat) (s : State) : Out := outIf (isChan n) (s.act t fun s => s.prefetchArrival n bad)

end Sys2Proof.Machine
end

