-- ==== Sys2Proof/Machine/Timebase.lean ====
section
/-!
DEFINITION. Meanings of the raster timebase commands (chapter 2): edges, frame marks, beats, delay exchanges and the global generators.
The timebase belongs to the always-on domain.
-/

namespace Sys2Proof.Machine

open Sys2Proof

/-- LINE_REF_EDGE (R39, R43, R45, R46). -/
def execLineRefEdge (t : Nat) (s : State) : Out := .next (s.actOn t fun s => s.lineEdge)

/-- FRAME_START_MARK (R40, R41). -/
def execFrameStartMark (t : Nat) (active : Bool) (s : State) : Out := .next (s.actOn t fun s => s.frameSample active)

/-- EDGE_MISSING (R43). -/
def execEdgeMissing (t : Nat) (src : EdgeSrc) (s : State) : Out :=
  outIf (isEdgeSrc src) (s.actOn t fun s => match src with | .line => s.lineMissing | .beats p => s.beatMissing p)

/-- PIXCLK stops or leaves tolerance (R42): the timebase goes on at the period it has, and LINE_REF sets the next one. -/
def State.pixLost (s : State) : State :=
  (s.setTb { s.tb with pix := none, pixActive := false }).stickIf s.tb.pixActive f_TB_EVENTS_pixclk_lost

/-- PIXCLK_LOST (R42). -/
def execPixclkLost (t : Nat) (s : State) : Out := .next (s.actOn t fun s => s.pixLost)

/-- TB_H_TOTAL pixel periods in 1/256 ns, `pix` being 2^16 of them in 1/256 ns (R42). -/
def State.pixLine (s : State) (pix : Nat) : Nat := s.fld f_TB_H_TOTAL_pixels * pix / 65536

/-- PIXCLK has shown the rate of LINE_REF within 100 ppm over qual_count lines in a pixel-locked source. Where the raster runs on the source,
pixel locking resumes, and an error above 1 phase unit is slewed away; before that it takes over at lock (R42). -/
def State.pixGood (s : State) (err : Int) (pix : Nat) : State :=
  let p := s.pixLine pix
  if (s.src = 3 ∨ s.src = 4) ∧ ((p : Int) - s.tb.period).natAbs * 10000 ≤ s.tb.period then
    let t := s.setTb { s.tb with pix := some p }
    if ! s.tb.pixActive ∧ s.tb.ready ∧ (s.tb.state = .locked ∨ s.tb.state = .slewing) then t.resolve err else t
  else s

/-- PIXCLK_QUALIFIED (R42). -/
def execPixclkQualified (t : Nat) (err : Int) (pix : Nat) (s : State) : Out := .next (s.actOn t fun s => s.pixGood err pix)

/-- RASTER_BEAT (R52, R53). -/
def execRasterBeat (t p root rank : Nat) (hold : Bool) (frame line frac : Nat) (s : State) : Out :=
  outIf (isPort p) (s.act t fun s => s.receiveBeat p ⟨root, rank, hold, frame, line, frac⟩)

/-- A due beat is queued; its raster time is written as it leaves the port (R51, R283). -/
def State.sendBeat (s : State) (p : Nat) : State :=
  if s.beatDue p then
    let b := s.ownBeat p
    (s.setTb { s.tb with sent := Table.put Beat.reset p b s.tb.sent }).sendOn p (s.beatFlit p b)
  else s

/-- BEAT_SEND (R51, R283). -/
def execBeatSend (t p : Nat) (s : State) : Out := outIf (isPort p) (s.act t fun s => s.sendBeat p)

/-- A follower sends a delay request on a port named as primary or alternative (R55). -/
def State.askDelay (s : State) (p : Nat) (t1 : Int) : State :=
  if s.src = 5 ∧ (s.upPort = some p ∨ s.altPort = some p) then
    let x := s.beatPortOf p
    let tag := (x.tag + 1) % 65536
    (s.setBeatPort p { x with req := some (tag, t1), tag }).sendOn p (s.formFlit (s.portOf p).peerNode 2 tag 0 0 0 [])
  else s

/-- DELAY_REQ_SEND (R55). -/
def execDelayReqSend (t p : Nat) (t1 : Int) (s : State) : Out := outIf (isPort p) (s.act t fun s => s.askDelay p t1)

/-- DELAY_REQ (R55, R283): the answer carries t3 − t2 in ps. -/
def execDelayReq (t p tag : Nat) (t2 t3 : Int) (s : State) : Out :=
  outIf (isPort p) (s.act t fun s =>
    s.sendOn p (s.formFlit (s.portOf p).peerNode 3 tag 4 0 0 (leBytes (unsigned 32 (t3 - t2)) 4)))

/-- The response to the last request of port `p`; `dt` is t3 − t2. -/
def State.delayAnswer (s : State) (p tag dt : Nat) (t4 : Int) : State :=
  let x := s.beatPortOf p
  match x.req with
  | some (k, t1) => if k = tag then (s.setBeatPort p { x with req := none }).delayExchange p (t4 - t1 - dt) else s
  | none => s

/-- DELAY_RSP (R55). -/
def execDelayRsp (t p tag : Nat) (dt t4 : Int) (s : State) : Out :=
  outIf (isPort p) (s.act t fun s => s.delayAnswer p tag dt.toNat t4)

/-- ANCHOR_FIRE (R60). -/
def execAnchorFire (t k : Nat) (s : State) : Out :=
  outIf (isGen k) (s.actOn t fun s => if s.genMatches k then s.fireGen k else s)

/-- ARM (R57, R61, R62): a write to TB_ANCHOR_CTL. -/
def execArm (t m k : Nat) (v : Word) (s : State) : Out := outIf (isGen k) (s.act t fun s => s.accessReg m .TB_ANCHOR_CTL k 0 v none false)

/-- DISARM (R61, R62): a write to TB_ANCHOR_CTL. -/
def execDisarm (t m k : Nat) (v : Word) (s : State) : Out := outIf (isGen k) (s.act t fun s => s.accessReg m .TB_ANCHOR_CTL k 0 v none false)

end Sys2Proof.Machine
end

