-- ==== Sys2Proof/Machine/WebCmd.lean ====
section
/-!
DEFINITION. Meanings of the commands of the web (chapter 9): bringing ports up and down, flits, requests, lanes and their spares, and rates.
-/

namespace Sys2Proof.Machine

open Sys2Proof

/-! ## Port states (Table 9-3) -/

/-- A write to WEB_PORT_CTL: the image loader and the amendment engine write its RWI fields directly (R8, R350); a write by any other
requester is an access. -/
def State.portCtl (s : State) (m p : Nat) (v : Word) : State :=
  if m = 0x1010 ∨ m = 0x1011 then s.loadReg m .WEB_PORT_CTL p 0 v else s.accessReg m .WEB_PORT_CTL p 0 v none false

/-- PORT_ENABLE (R8, R262): a write to WEB_PORT_CTL. -/
def execPortEnable (t m p : Nat) (v : Word) (s : State) : Out := outIf (isPort p) (s.act t fun s => s.portCtl m p v)

/-- `g` on a powered port that is in state `st`. -/
def State.inPort (s : State) (p : Nat) (st : PortState) (g : State → State) : State :=
  if s.portPowered p ∧ (s.portOf p).st = st then g s else s

/-- Whether `w` has passed since the port entered its state. -/
def State.portTime (s : State) (p w : Nat) : Bool := decide ((s.portOf p).since + w ≤ s.now)

/-- The lanes that carry logical lanes 0 and 1; a spare in service stays in service until POR (R280). A port that trains runs on both. -/
def Port.mapLanes (x : Port) : Port :=
  let rx := decide (x.rxSpare = .used)
  let tx := decide (x.txSpare = .used)
  { x with rx0 := if rx && decide (x.rxBad = 0) then 2 else 0, rx1 := if rx && decide (x.rxBad ≠ 0) then 2 else 1,
           tx0 := if tx && decide (x.txBad = 0) then 2 else 0, tx1 := if tx && decide (x.txBad ≠ 0) then 2 else 1,
           degraded := false }

/-- Signal on both active receive lanes. -/
def State.signalOn (s : State) (p : Nat) : State :=
  s.inPort p .detect fun s => ((s.setPort p (s.portOf p).mapLanes).lanesOn p).enterPort p .train

/-- SIGNAL_DETECTED (R262). -/
def execSignalDetected (t p : Nat) (s : State) : Out := outIf (isPort p) (s.act t fun s => s.signalOn p)

/-- `g` on a port in state `st` that entered it no longer than `w` ago: what the table allows only within that time (R262). -/
def State.inPortWithin (s : State) (p : Nat) (st : PortState) (w : Nat) (g : State → State) : State :=
  s.inPort p st fun s => if s.now ≤ (s.portOf p).since + w then g s else s

/-- TRAIN_COMPLETE (R262, R282). -/
def execTrainComplete (t p : Nat) (s : State) : Out :=
  outIf (isPort p) (s.act t fun s => s.inPortWithin p .train (ms 100) fun s => (s.enterPort p .align).rateResume p)

/-- TRAIN_TIMEOUT (R262). -/
def execTrainTimeout (t p : Nat) (s : State) : Out :=
  outIf (isPort p) (s.act t fun s => s.inPort p .train fun s => if s.portTime p (ms 100) then s.portRetry p else s)

/-- Table 9-8: HELLO with this device's node ID, the port number, the highest rate and a spare lane. -/
def State.helloFlit (s : State) (p : Nat) : Flit := s.linkParam p 1 [s.node % 256, s.node / 256, p, 0, 1]

/-- Whether the receiver can remove the skew between the two lanes, in ns (R259). -/
def deskewable (skew : Nat) : Bool := decide (skew ≤ 20)

/-- ALIGNED (R259, R262, R264): the codewords of the peer are at `count`, and the lanes are `skew` ns apart; in PARAM the device sends
its HELLO. -/
def execAligned (t p skew count : Nat) (s : State) : Out :=
  outIf (isPort p) (s.act t fun s => s.inPortWithin p .align (ms 1) fun s =>
    if deskewable skew then ((s.portAligned p count).enterPort p .param).sendOn p (s.helloFlit p) else s)

/-- ALIGN_TIMEOUT (R262). -/
def execAlignTimeout (t p : Nat) (s : State) : Out :=
  outIf (isPort p) (s.act t fun s => s.inPort p .align fun s => if s.portTime p (ms 1) then s.enterPort p .detect else s)

/-- The peer's HELLO: its node and port are shown, and in PARAM the peer check decides. -/
def State.takeHello (s : State) (p node port : Nat) : State :=
  let x := s.portOf p
  if ! s.portPowered p ∨ x.st = .disabled then s
  else
    let s := s.setPort p { x with peerNode := node, peerPort := port, peerValid := true }
    let wrong := s.on f_WEB_PORT_CTL_check_peer p &&
      (decide (node ≠ s.fld f_WEB_PORT_CTL_peer_node p) || decide (port ≠ s.fld f_WEB_PORT_CTL_peer_port p))
    if x.st ≠ .param then s
    else if wrong then ((s.stick f_WEB_EVENTS_peer_mismatch).fault 0x701 1 (.port p) (webMaster p)).portFailed p
    else s.portUp p

/-- HELLO (R264, R269, R270). The rate and the spare that the peer names change nothing here. -/
def execHello (t p node port _rate : Nat) (_spare : Bool) (s : State) : Out := outIf (isPort p) (s.act t fun s => s.takeHello p node port)

/-- FAILED_RETRY (R262); while a web rail is lost the port stays FAILED (R380). -/
def execFailedRetry (t p : Nat) (s : State) : Out :=
  outIf (isPort p) (s.act t fun s => s.inPort p .failed fun s =>
    if s.on f_WEB_PORT_CTL_enable p ∧ s.webRails ∧ s.portTime p (ms 1000) then s.enterPort p .detect else s)

/-- RETRAIN_TIMEOUT (R262, R269). -/
def execRetrainTimeout (t p : Nat) (s : State) : Out :=
  outIf (isPort p) (s.act t fun s => s.inPort p .retrain fun s => if s.portTime p (ms 50) then s.portFailed p else s)

/-- A spare trained at the old rate is trained again at the new one (R282). -/
def Spare.again : Spare → Spare
  | .trained _ => .training
  | .agreed _ _ => .training
  | x => x

/-- Retraining completes, at the new rate where a change is under way; the codewords of the peer are at `count`. -/
def State.retrainDone (s : State) (p count : Nat) : State :=
  let s := s.portAligned p count
  let x := s.portOf p
  let s := match x.rateNew with
    | some r =>
      (s.setPort p { x with rate := r, rateNew := none, rxSpare := x.rxSpare.again, txSpare := x.txSpare.again }).stick f_WEB_EVENTS_rate_done
    | none => s
  (s.portUp p).rateResume p

/-- RETRAINED (R259, R262, R282). -/
def execRetrained (t p skew count : Nat) (s : State) : Out :=
  outIf (isPort p) (s.act t fun s => s.inPortWithin p .retrain (ms 50) fun s => if deskewable skew then s.retrainDone p count else s)

/-- LOSS_OF_ALIGNMENT (R262). -/
def execLossOfAlignment (t p : Nat) (s : State) : Out := outIf (isPort p) (s.act t fun s => s.inPort p .active fun s => s.portRetrain p)

/-! ## Flits (R265 to R278) -/

/-- Whether flits cross the port: of every class in ACTIVE, link-local ones in PARAM. -/
def State.flitsCross (s : State) (p : Nat) : Bool :=
  s.portPowered p && (decide ((s.portOf p).st = .active) || decide ((s.portOf p).st = .param))

/-- The next flit of the stream: its codeword is decoded, its CRC checked. -/
def State.takeFlit (s : State) (p : Nat) (data : List Byte) (errs : List Nat) : State :=
  let r := s.takeCodeword p errs
  r.1.receiveFlit p (flitOfBytes data) (! r.2 && flitCrcOk data)

/-- FLIT_RECEIVE (R259, R260, R265 to R270, R273 to R277): the 256 bytes of the flit as the decoder gives them, and the symbols in error
of the codeword that comes with it. -/
def execFlitReceive (t p : Nat) (data : List Byte) (errs : List Nat) (s : State) : Out :=
  outIf (isPort p && isFlit data) (s.act t fun s => if s.flitsCross p then s.takeFlit p data errs else s)

/-- The oldest flit not acknowledged has waited 4 µs. -/
def State.replayDue (s : State) (p : Nat) : State :=
  match (s.portOf p).sentAt with
  | at_ :: _ => if at_ + us 4 ≤ s.now then s.replay p else s
  | [] => s

/-- REPLAY_TIMEOUT (R268). -/
def execReplayTimeout (t p : Nat) (s : State) : Out := outIf (isPort p) (s.act t fun s => s.inPort p .active fun s => s.replayDue p)

/-- FLIT_SEND (R265, R268, R270, R271): one flit slot; the delay of TEST_WEB_DELAY lies before the command's instant. -/
def execFlitSend (t p : Nat) (s : State) : Out :=
  outIf (isPort p) (s.act t fun s => if s.flitsCross p then s.flitSlot p else s)

/-- READ_REQ (R24, R28, R34, R272, R396): `bad` marks memory data that cannot be corrected. -/
def execReadReq (t src tag addr len : Nat) (bad : Bool) (s : State) : Out :=
  match s.foreignIn addr len false with
  | some o => .refused (.forerunnerRegister o)
  | none => .next (s.act t fun s => s.webRead src tag addr len bad)

/-- WRITE_REQ (R8, R24, R34, R141, R238, R272, R396). -/
def execWriteReq (t src tag addr : Nat) (data : List Byte) (s : State) : Out :=
  match s.foreignIn addr data.length true with
  | some o => .refused (.forerunnerRegister o)
  | none => .next (s.act t fun s => s.webWrite src tag addr data)

/-! ## Lanes (R279 to R281) -/

/-- A receive lane is powered: it carries a logical lane, or it is the spare that is wanted. -/
def State.lanePowered (s : State) (p l : Nat) : Bool :=
  let x := s.portOf p
  s.portPowered p && decide (x.st ≠ .disabled) &&
    ((x.logical l).isSome || (decide (l = 2) && decide (x.rxSpare ≠ .free) && s.domainOn 44))

/-- EYE_MEASUREMENT (R279, R281): the worst of the three eyes of a powered lane. -/
def execEyeMeasurement (t p l width height : Nat) (s : State) : Out :=
  outIf (isPort p && isLane l) (s.act t fun s => if s.lanePowered p l then s.measureLane p l width height else s)

/-- LOSS_OF_SIGNAL (R279, R281). -/
def execLossOfSignal (t p l : Nat) (s : State) : Out :=
  outIf (isPort p && isLane l) (s.act t fun s => if s.lanePowered p l then s.laneFailed p l else s)

/-- The peer asks for the spare transmit lane: it is powered and trained. -/
def State.spareWanted (s : State) (p lane : Nat) : State :=
  let x := s.portOf p
  if x.txSpare ≠ .free ∨ 2 ≤ lane then s
  else
    let s := if s.domainOn 44 then s else s.markDomain 44 true
    s.setPort p { x with txSpare := .training, txBad := lane }

/-- SPARE_ON (R280). -/
def execSpareOn (t p lane : Nat) (s : State) : Out := outIf (isPort p) (s.act t fun s => s.inPort p .active fun s => s.spareWanted p lane)

/-- The message of a swap, with the direction as the end that began it sees it (notes/assumptions/70.md). -/
def State.swapFlit (s : State) (p code dir lane count : Nat) : Flit := s.linkParam p code [dir, lane, count % 256, count / 256]

/-- The spare lane of a direction is trained; the receiver of the direction proposes the swap. -/
def State.spareReady (s : State) (p : Nat) (d : Dir) (count : Nat) : State :=
  let x := s.portOf p
  let s : State :=
    match d with
    | .rx =>
      if x.rxSpare = Spare.asked ∨ x.rxSpare = Spare.training then
        (s.setPort p { x with rxSpare := .trained count }).sendOn p (s.swapFlit p 3 0 x.rxBad count)
      else s
    | .tx => if x.txSpare = Spare.training then s.setPort p { x with txSpare := .trained count } else s
  s.rateResume p

/-- SPARE_TRAINED (R280, R282). -/
def execSpareTrained (t p : Nat) (d : Dir) (count : Nat) (s : State) : Out :=
  outIf (isPort p) (s.act t fun s => s.inPort p .active fun s => s.spareReady p d count)

/-- The spare lane is trained and no swap is agreed on yet. -/
def Spare.isTrained : Spare → Bool
  | .trained _ => true
  | _ => false

/-- A swap is proposed: a spare that is trained is agreed on and acknowledged. -/
def State.swapAsked (s : State) (p : Nat) (d : Dir) (lane count : Nat) : State :=
  let x := s.portOf p
  match d with
  | .rx =>
    if x.rxSpare.isTrained ∧ lane = x.rxBad then
      (s.setPort p { x with rxSpare := .agreed lane count }).sendOn p (s.swapFlit p 4 1 lane count)
    else s
  | .tx =>
    if x.txSpare.isTrained ∧ lane = x.txBad then
      (s.setPort p { x with txSpare := .agreed lane count }).sendOn p (s.swapFlit p 4 0 lane count)
    else s

/-- SWAP_REQ (R280). -/
def execSwapReq (t p : Nat) (d : Dir) (lane count : Nat) (s : State) : Out :=
  outIf (isPort p) (s.act t fun s => s.inPort p .active fun s => s.swapAsked p d lane count)

/-- The peer agrees to the swap at the count that was proposed. -/
def State.swapAgreed (s : State) (p : Nat) (d : Dir) (lane count : Nat) : State :=
  let x := s.portOf p
  match d with
  | .rx => if x.rxSpare = .trained count ∧ lane = x.rxBad then s.setPort p { x with rxSpare := .agreed lane count } else s
  | .tx => if x.txSpare = .trained count ∧ lane = x.txBad then s.setPort p { x with txSpare := .agreed lane count } else s

/-- SWAP_ACK (R280). -/
def execSwapAck (t p : Nat) (d : Dir) (lane count : Nat) (s : State) : Out :=
  outIf (isPort p) (s.act t fun s => s.inPort p .active fun s => s.swapAgreed p d lane count)

/-- The codeword agreed for a swap has come. -/
def State.swapDue (s : State) (p : Nat) (d : Dir) : State :=
  let x := s.portOf p
  match (match d with | .rx => x.rxSpare | .tx => x.txSpare) with
  | .agreed _ _ => s.swapLane p d
  | _ => s

/-- LANE_SWAP (R280). -/
def execLaneSwap (t p : Nat) (d : Dir) (s : State) : Out := outIf (isPort p) (s.act t fun s => s.inPort p .active fun s => s.swapDue p d)

/-- A period of WEB_EYE_CTL has passed: an item for each powered receive lane. -/
def State.eyePeriod (s : State) (p : Nat) : State :=
  let w := s.fld f_WEB_EYE_CTL_period
  if w = 0 ∨ s.now < (s.portOf p).eyeAt + ms (1000 * w) then s
  else
    let s := s.setPort p { s.portOf p with eyeAt := s.now }
    s.each (List.range 3) fun l s => if s.lanePowered p l then s.eyeItem p l else s

/-- LINK_EYE (R183, R279). -/
def execLinkEye (t p : Nat) (s : State) : Out := outIf (isPort p) (s.act t fun s => s.eyePeriod p)

/-! ## Rates (R282) -/

/-- WEB_PORT_RATE_REQ (R282): a write to WEB_PORT_RATE. -/
def execWebPortRateReq (t m p : Nat) (v : Word) (s : State) : Out :=
  outIf (isPort p) (s.act t fun s => s.accessReg m .WEB_PORT_RATE p 0 v none false)

/-- The peer asks for a rate: an acknowledged one comes into force with the next retraining. A reserved rate is refused. -/
def State.rateAskedFor (s : State) (p code : Nat) (refuse : Bool) : State :=
  if refuse ∨ 2 ≤ code then s.sendOn p (s.linkParam p 6 [0xFF])
  else (s.setPort p { s.portOf p with rateNew := some code }).sendOn p (s.linkParam p 6 [code])

/-- RATE_REQ (R282): when a device refuses a rate is left open, so `refuse` says it. -/
def execRateReq (t p code : Nat) (refuse : Bool) (s : State) : Out :=
  outIf (isPort p) (s.act t fun s => s.inPort p .active fun s => s.rateAskedFor p code refuse)

/-- The peer's answer to the rate asked for. -/
def State.rateAnswered (s : State) (p code : Nat) : State :=
  let x := s.portOf p
  match x.rateAsked with
  | none => s
  | some r =>
    if code = 0xFF then (s.setPort p { x with rateAsked := none }).stick f_WEB_EVENTS_rate_refused
    else if code = r then (s.setPort p { x with rateAsked := none, rateNew := some r }).portRetrain p
    else s

/-- RATE_ACK (R262, R282). -/
def execRateAck (t p code : Nat) (s : State) : Out :=
  outIf (isPort p) (s.act t fun s => s.inPort p .active fun s => s.rateAnswered p code)

end Sys2Proof.Machine
end

