-- ==== Sys2Proof/Machine/Dispatch.lean ====
section
/-!
DEFINITION. One arm per command: its meaning. What the meanings leave as it is is the queue of commands that wait.
-/

namespace Sys2Proof.Machine

open Sys2Proof

def exec (i : Instr) (s : State) : Host.Outcome State Fault Refusal :=
  match i with
  | .registerWrite t m a v => Sys2Proof.Machine.execRegisterWrite t m a v s
  | .reservedAccess t m a write v => Sys2Proof.Machine.execReservedAccess t m a write v s
  | .unalignedAccess t m a write v => Sys2Proof.Machine.execUnalignedAccess t m a write v s
  | .vatSramWrite t m a v => Sys2Proof.Machine.execVatSramWrite t m a v s
  | .loRead t m a => Sys2Proof.Machine.execLoRead t m a s
  | .hiRead t m a => Sys2Proof.Machine.execHiRead t m a s
  | .loWriteStage t m a v => Sys2Proof.Machine.execLoWriteStage t m a v s
  | .hiWriteCommit t m a v => Sys2Proof.Machine.execHiWriteCommit t m a v s
  | .readClear t m a => Sys2Proof.Machine.execReadClear t m a s
  | .lineRefEdge t => Sys2Proof.Machine.execLineRefEdge t s
  | .frameStartMark t active => Sys2Proof.Machine.execFrameStartMark t active s
  | .edgeMissing t src => Sys2Proof.Machine.execEdgeMissing t src s
  | .pixclkLost t => Sys2Proof.Machine.execPixclkLost t s
  | .pixclkQualified t err pix => Sys2Proof.Machine.execPixclkQualified t err pix s
  | .rasterBeat t p root rank hold frame line frac => Sys2Proof.Machine.execRasterBeat t p root rank hold frame line frac s
  | .beatSend t p => Sys2Proof.Machine.execBeatSend t p s
  | .delayReqSend t p t1 => Sys2Proof.Machine.execDelayReqSend t p t1 s
  | .delayReq t p tag t2 t3 => Sys2Proof.Machine.execDelayReq t p tag t2 t3 s
  | .delayRsp t p tag dt t4 => Sys2Proof.Machine.execDelayRsp t p tag dt t4 s
  | .anchorFire t k => Sys2Proof.Machine.execAnchorFire t k s
  | .arm t m k v => Sys2Proof.Machine.execArm t m k v s
  | .disarm t m k v => Sys2Proof.Machine.execDisarm t m k v s
  | .dacFrameBoundary t n meas => Sys2Proof.Machine.execDacFrameBoundary t n meas s
  | .forceCommand t m n v => Sys2Proof.Machine.execForceCommand t m n v s
  | .rangeChangeComplete t n => Sys2Proof.Machine.execRangeChangeComplete t n s
  | .spanHoldEnd t n => Sys2Proof.Machine.execSpanHoldEnd t n s
  | .attachment t n => Sys2Proof.Machine.execAttachment t n s
  | .enableClear t m n v codes => Sys2Proof.Machine.execEnableClear t m n v codes s
  | .detach t m n v codes => Sys2Proof.Machine.execDetach t m n v codes s
  | .deckleHit t n => Sys2Proof.Machine.execDeckleHit t n s
  | .clampRelease t n meas => Sys2Proof.Machine.execClampRelease t n meas s
  | .short t n => Sys2Proof.Machine.execShort t n s
  | .shortClear t n => Sys2Proof.Machine.execShortClear t n s
  | .safeSwitchOpen t n within => Sys2Proof.Machine.execSafeSwitchOpen t n within s
  | .boostLoop t b => Sys2Proof.Machine.execBoostLoop t b s
  | .boostSense t b => Sys2Proof.Machine.execBoostSense t b s
  | .guardOverload t k => Sys2Proof.Machine.execGuardOverload t k s
  | .cellRotation t ix => Sys2Proof.Machine.execCellRotation t ix s
  | .adcCell t ix => Sys2Proof.Machine.execAdcCell t ix s
  | .entryComplete t n codes => Sys2Proof.Machine.execEntryComplete t n codes s
  | .lowPowerSwitchEnd t n => Sys2Proof.Machine.execLowPowerSwitchEnd t n s
  | .trigger t m n v => Sys2Proof.Machine.execTrigger t m n v s
  | .restart t n => Sys2Proof.Machine.execRestart t n s
  | .runSet t m n v => Sys2Proof.Machine.execRunSet t m n v s
  | .runClear t m n v codes => Sys2Proof.Machine.execRunClear t m n v codes s
  | .autorangeClear t m n v => Sys2Proof.Machine.execAutorangeClear t m n v s
  | .rangeHold t n => Sys2Proof.Machine.execRangeHold t n s
  | .chMeasSeqWrite t m n p e v => Sys2Proof.Machine.execChMeasSeqWrite t m n p e v s
  | .start t m n v bad => Sys2Proof.Machine.execStart t m n v bad s
  | .prime t m n v => Sys2Proof.Machine.execPrime t m n v s
  | .primingComplete t n bad => Sys2Proof.Machine.execPrimingComplete t n bad s
  | .startInstant t n => Sys2Proof.Machine.execStartInstant t n s
  | .stop t m n v => Sys2Proof.Machine.execStop t m n v s
  | .lookAheadPoint t n bad => Sys2Proof.Machine.execLookAheadPoint t n bad s
  | .executionStart t n meas bad => Sys2Proof.Machine.execExecutionStart t n meas bad s
  | .mouldPoint t n meas bad => Sys2Proof.Machine.execMouldPoint t n meas bad s
  | .advanceConsumed t n => Sys2Proof.Machine.execAdvanceConsumed t n s
  | .waitTimeout t n => Sys2Proof.Machine.execWaitTimeout t n s
  | .prefetchArrival t n bad => Sys2Proof.Machine.execPrefetchArrival t n bad s
  | .feltPush t p => Sys2Proof.Machine.execFeltPush t p s
  | .creditAsk t p f => Sys2Proof.Machine.execCreditAsk t p f s
  | .creditGrant t p f => Sys2Proof.Machine.execCreditGrant t p f s
  | .feltPop t m f => Sys2Proof.Machine.execFeltPop t m f s
  | .popShadowRead t m f w => Sys2Proof.Machine.execPopShadowRead t m f w s
  | .captureTake t f => Sys2Proof.Machine.execCaptureTake t f s
  | .captureWriteComplete t f => Sys2Proof.Machine.execCaptureWriteComplete t f s
  | .streamTake t f => Sys2Proof.Machine.execStreamTake t f s
  | .ringRdAdvance t m f v => Sys2Proof.Machine.execRingRdAdvance t m f v s
  | .refill t f bad => Sys2Proof.Machine.execRefill t f bad s
  | .tailTimeout t f => Sys2Proof.Machine.execTailTimeout t f s
  | .watermarkEvent t k => Sys2Proof.Machine.execWatermarkEvent t k s
  | .feltEnable t m f v => Sys2Proof.Machine.execFeltEnable t m f v s
  | .feltDisable t m f v => Sys2Proof.Machine.execFeltDisable t m f v s
  | .drained t f => Sys2Proof.Machine.execDrained t f s
  | .feltEmptyFor1Us t f => Sys2Proof.Machine.execFeltEmptyFor1Us t f s
  | .fire t m c v => Sys2Proof.Machine.execFire t m c v s
  | .taskSingleDelivery t input => Sys2Proof.Machine.execTaskSingleDelivery t input s
  | .commit t m c v => Sys2Proof.Machine.execCommit t m c v s
  | .stage t m a v => Sys2Proof.Machine.execStage t m a v s
  | .rcDirectWrite t m c v => Sys2Proof.Machine.execRcDirectWrite t m c v s
  | .reEntry t => Sys2Proof.Machine.execReEntry t s
  | .farForkSend t => Sys2Proof.Machine.execFarForkSend t s
  | .eventBcast t p f => Sys2Proof.Machine.execEventBcast t p f s
  | .farForkDelivery t g => Sys2Proof.Machine.execFarForkDelivery t g s
  | .evioInputEdge t j level => Sys2Proof.Machine.execEvioInputEdge t j level s
  | .evioOutput t j => Sys2Proof.Machine.execEvioOutput t j s
  | .pulseEnd t j => Sys2Proof.Machine.execPulseEnd t j s
  | .portRequest t p write addr data len => Sys2Proof.Machine.execPortRequest t p write addr data len s
  | .urgencyLevel3 t id => Sys2Proof.Machine.execUrgencyLevel3 t id s
  | .commandIssue t q => Sys2Proof.Machine.execCommandIssue t q s
  | .throttleEnd t => Sys2Proof.Machine.execThrottleEnd t s
  | .readData t id bad copyBad => Sys2Proof.Machine.execReadData t id bad copyBad s
  | .softRepairComplete t b q => Sys2Proof.Machine.execSoftRepairComplete t b q s
  | .refresh t b q => Sys2Proof.Machine.execRefresh t b q s
  | .pageClose t b q => Sys2Proof.Machine.execPageClose t b q s
  | .selfRefreshEntry t => Sys2Proof.Machine.execSelfRefreshEntry t s
  | .selfRefreshExit t => Sys2Proof.Machine.execSelfRefreshExit t s
  | .retentionEnter t m v => Sys2Proof.Machine.execRetentionEnter t m v s
  | .retentionExit t m v => Sys2Proof.Machine.execRetentionExit t m v s
  | .trainingRound t => Sys2Proof.Machine.execTrainingRound t s
  | .freqReq t m v => Sys2Proof.Machine.execFreqReq t m v s
  | .freqSwitch t => Sys2Proof.Machine.execFreqSwitch t s
  | .portEnable t m p v => Sys2Proof.Machine.execPortEnable t m p v s
  | .signalDetected t p => Sys2Proof.Machine.execSignalDetected t p s
  | .trainComplete t p => Sys2Proof.Machine.execTrainComplete t p s
  | .trainTimeout t p => Sys2Proof.Machine.execTrainTimeout t p s
  | .aligned t p skew count => Sys2Proof.Machine.execAligned t p skew count s
  | .alignTimeout t p => Sys2Proof.Machine.execAlignTimeout t p s
  | .hello t p node port rate spare => Sys2Proof.Machine.execHello t p node port rate spare s
  | .failedRetry t p => Sys2Proof.Machine.execFailedRetry t p s
  | .retrainTimeout t p => Sys2Proof.Machine.execRetrainTimeout t p s
  | .retrained t p skew count => Sys2Proof.Machine.execRetrained t p skew count s
  | .lossOfAlignment t p => Sys2Proof.Machine.execLossOfAlignment t p s
  | .flitReceive t p data errs => Sys2Proof.Machine.execFlitReceive t p data errs s
  | .replayTimeout t p => Sys2Proof.Machine.execReplayTimeout t p s
  | .flitSend t p => Sys2Proof.Machine.execFlitSend t p s
  | .readReq t src tag addr len bad => Sys2Proof.Machine.execReadReq t src tag addr len bad s
  | .writeReq t src tag addr data => Sys2Proof.Machine.execWriteReq t src tag addr data s
  | .eyeMeasurement t p l width height => Sys2Proof.Machine.execEyeMeasurement t p l width height s
  | .lossOfSignal t p l => Sys2Proof.Machine.execLossOfSignal t p l s
  | .spareOn t p lane => Sys2Proof.Machine.execSpareOn t p lane s
  | .spareTrained t p d count => Sys2Proof.Machine.execSpareTrained t p d count s
  | .swapReq t p d lane count => Sys2Proof.Machine.execSwapReq t p d lane count s
  | .swapAck t p d lane count => Sys2Proof.Machine.execSwapAck t p d lane count s
  | .laneSwap t p d => Sys2Proof.Machine.execLaneSwap t p d s
  | .linkEye t p => Sys2Proof.Machine.execLinkEye t p s
  | .webPortRateReq t m p v => Sys2Proof.Machine.execWebPortRateReq t m p v s
  | .rateReq t p code refuse => Sys2Proof.Machine.execRateReq t p code refuse s
  | .rateAck t p code => Sys2Proof.Machine.execRateAck t p code s
  | .spiWrite t mosi => Sys2Proof.Machine.execSpiWrite t mosi s
  | .spiRead t mosi busy bad => Sys2Proof.Machine.execSpiRead t mosi busy bad s
  | .idcode t trst => Sys2Proof.Machine.execIdcode t trst s
  | .bypass t code => Sys2Proof.Machine.execBypass t code s
  | .samplePreload t pins load => Sys2Proof.Machine.execSamplePreload t pins load s
  | .extest t pins load => Sys2Proof.Machine.execExtest t pins load s
  | .extestPulse t pins load => Sys2Proof.Machine.execExtestPulse t pins load s
  | .extestTrain t pins load => Sys2Proof.Machine.execExtestTrain t pins load s
  | .highz t => Sys2Proof.Machine.execHighz t s
  | .clamp t => Sys2Proof.Machine.execClamp t s
  | .mgmtAccess t write a v bad => Sys2Proof.Machine.execMgmtAccess t write a v bad s
  | .capture t code cls sc master access addr detail => Sys2Proof.Machine.execCapture t code cls sc master access addr detail s
  | .firmwareFault t code cls sc master => Sys2Proof.Machine.execFirmwareFault t code cls sc master s
  | .queuedCapture t => Sys2Proof.Machine.execQueuedCapture t s
  | .conditionClear t code sc => Sys2Proof.Machine.execConditionClear t code sc s
  | .fltAck t m v => Sys2Proof.Machine.execFltAck t m v s
  | .release t sc => Sys2Proof.Machine.execRelease t sc s
  | .hourlyCountStep t => Sys2Proof.Machine.execHourlyCountStep t s
  | .safeN t width => Sys2Proof.Machine.execSafeN t width s
  | .safeNRelease t => Sys2Proof.Machine.execSafeNRelease t s
  | .injectionFire t m j v => Sys2Proof.Machine.execInjectionFire t m j v s
  | .injectedDetection t j => Sys2Proof.Machine.execInjectedDetection t j s
  | .injectionClear t m j v => Sys2Proof.Machine.execInjectionClear t m j v s
  | .firstRearm t m v => Sys2Proof.Machine.execFirstRearm t m v s
  | .tempTrigger t group ix temp => Sys2Proof.Machine.execTempTrigger t group ix temp s
  | .intervalTrigger t ix => Sys2Proof.Machine.execIntervalTrigger t ix s
  | .calRun t m v => Sys2Proof.Machine.execCalRun t m v s
  | .sliceStepStart t tile => Sys2Proof.Machine.execSliceStepStart t tile s
  | .measurePathStep t ix loaded => Sys2Proof.Machine.execMeasurePathStep t ix loaded s
  | .openOutputSlot t ix => Sys2Proof.Machine.execOpenOutputSlot t ix s
  | .bridgeEnd t ix => Sys2Proof.Machine.execBridgeEnd t ix s
  | .openOutputSlotEnd t ix => Sys2Proof.Machine.execOpenOutputSlotEnd t ix s
  | .sliceStepEnd t ix qSpan qRange segMin temp corr sel ladder short lost => Sys2Proof.Machine.execSliceStepEnd t ix qSpan qRange segMin temp corr sel ladder short lost s
  | .deferralRetry t ix => Sys2Proof.Machine.execDeferralRetry t ix s
  | .calBurn t m v => Sys2Proof.Machine.execCalBurn t m v s
  | .generationCommitted t => Sys2Proof.Machine.execGenerationCommitted t s
  | .calCouchCmd t m v => Sys2Proof.Machine.execCalCouchCmd t m v s
  | .couchingStart t tile => Sys2Proof.Machine.execCouchingStart t tile s
  | .couchMatch t tile => Sys2Proof.Machine.execCouchMatch t tile s
  | .matchTimeout t tile => Sys2Proof.Machine.execMatchTimeout t tile s
  | .connect t tile => Sys2Proof.Machine.execConnect t tile s
  | .handoverRamp t tile => Sys2Proof.Machine.execHandoverRamp t tile s
  | .couchRelease t tile => Sys2Proof.Machine.execCouchRelease t tile s
  | .couchRetry t tile => Sys2Proof.Machine.execCouchRetry t tile s
  | .wearAccumulate t ix temp pah => Sys2Proof.Machine.execWearAccumulate t ix temp pah s
  | .wearLogSave t => Sys2Proof.Machine.execWearLogSave t s
  | .porRelease t => Sys2Proof.Machine.execPorRelease t s
  | .fuseLoad t => Sys2Proof.Machine.execFuseLoad t s
  | .slotSelection t absentA absentB => Sys2Proof.Machine.execSlotSelection t absentA absentB s
  | .verification t => Sys2Proof.Machine.execVerification t s
  | .hbmTraining t => Sys2Proof.Machine.execHbmTraining t s
  | .webTraining t => Sys2Proof.Machine.execWebTraining t s
  | .tilePowerUp t => Sys2Proof.Machine.execTilePowerUp t s
  | .startUpRun t => Sys2Proof.Machine.execStartUpRun t s
  | .runningEntry t => Sys2Proof.Machine.execRunningEntry t s
  | .flashRead t m v => Sys2Proof.Machine.execFlashRead t m v s
  | .flashProgram t m v => Sys2Proof.Machine.execFlashProgram t m v s
  | .flashErase t m v => Sys2Proof.Machine.execFlashErase t m v s
  | .reboot t m v => Sys2Proof.Machine.execReboot t m v s
  | .flashCommandComplete t error => Sys2Proof.Machine.execFlashCommandComplete t error s
  | .coreFailed t k => Sys2Proof.Machine.execCoreFailed t k s
  | .coreTakesDuty t k duty => Sys2Proof.Machine.execCoreTakesDuty t k duty s
  | .coreRestart t => Sys2Proof.Machine.execCoreRestart t s
  | .doorbell t j => Sys2Proof.Machine.execDoorbell t j s
  | .amendSeg t src tag off data => Sys2Proof.Machine.execAmendSeg t src tag off data s
  | .staged t => Sys2Proof.Machine.execStaged t s
  | .amendTimeout t => Sys2Proof.Machine.execAmendTimeout t s
  | .abort t m v => Sys2Proof.Machine.execAbort t m v s
  | .amendmentBoundary t => Sys2Proof.Machine.execAmendmentBoundary t s
  | .slotWrite t => Sys2Proof.Machine.execSlotWrite t s
  | .slotWriteComplete t error => Sys2Proof.Machine.execSlotWriteComplete t error s
  | .attestReq t src tag nonce => Sys2Proof.Machine.execAttestReq t src tag nonce s
  | .attestRsp t => Sys2Proof.Machine.execAttestRsp t s
  | .forerunnerWindowAccess t m node write a v => Sys2Proof.Machine.execForerunnerWindowAccess t m node write a v s
  | .porstN t => Sys2Proof.Machine.execPorstN t s
  | .supplyTile t tile => Sys2Proof.Machine.execSupplyTile t tile s
  | .tileDomainsOff t tile within => Sys2Proof.Machine.execTileDomainsOff t tile within s
  | .supplyHub t rail => Sys2Proof.Machine.execSupplyHub t rail s
  | .hubRestart t => Sys2Proof.Machine.execHubRestart t s
  | .vddAonLoss t => Sys2Proof.Machine.execVddAonLoss t s
  | .powerMeasurement t mw tiles stack hub => Sys2Proof.Machine.execPowerMeasurement t mw tiles stack hub s
  | .deviceStep t => Sys2Proof.Machine.execDeviceStep t s
  | .tileStep t tile => Sys2Proof.Machine.execTileStep t tile s
  | .stepRelease t tile => Sys2Proof.Machine.execStepRelease t tile s
  | .domainOn t m v => Sys2Proof.Machine.execDomainOn t m v s
  | .domainOff t m v => Sys2Proof.Machine.execDomainOff t m v s
  | .sliceGroupPowered t d => Sys2Proof.Machine.execSliceGroupPowered t d s

end Sys2Proof.Machine
end

