-- ==== Sys2Proof/Machine/Step.lean ====
section
/-!
DEFINITION. One step: the command at the front of the queue is taken off it and carried out; with nothing waiting, an event cycle passes
(DESIGN CHOICE, notes/assumptions/2.md).
-/

namespace Sys2Proof.Machine

open Sys2Proof

/-- An event cycle passes without a command: the next one begins (R9). -/
def State.tick (s : State) : State := s.act ((s.cycle + 1) * 256) fun s => s

def step (s : State) : Host.Outcome State Fault Refusal :=
  match s.pending with
  | [] => .next s.tick
  | c :: rest => exec c { s with pending := rest }

/-- The state with the command that a word spells in front of its queue. -/
def State.withFetchWord (s : State) (nbits w : Nat) : State :=
  match decodeTableWord nbits w with
  | some c => { s with pending := c :: s.pending }
  | none => s

end Sys2Proof.Machine
end

