-- ==== Sys2Proof/Safety.lean ====
section
/-!
DEFINITION. What counts as a safe state and a safe run: the canonical form of memory and of every table of the state, and the commands that
the device takes.
-/

namespace Sys2Proof.Machine

open Sys2Proof

/-- The canonical form of the memories: HBM, flash, the burnt fuses and the losses of banks list rising addresses and no entry equal to what
an unlisted address reads as; vat SRAM lists rising addresses. -/
def Memory.wf (s : State) : Bool :=
  Table.wf s.hbmDefault s.hbm && Table.wf (fun _ => flashDefault) s.flash && Table.wf (fun _ => 0) s.fuses && Table.wf (fun _ => 0) s.losses &&
    Table.rising s.vat

/-- The tables of instances list each instance once, in rising order. -/
def State.tablesRise (s : State) : Bool :=
  Table.rising s.regs && Table.rising s.force && Table.rising s.seqs && Table.rising s.engs && Table.rising s.ress &&
    Table.rising s.que.felts && Table.rising s.que.credits && Table.rising s.cal.slices && Table.rising s.cal.couch &&
    Table.rising s.tb.gens && Table.rising s.tb.ports && Table.rising s.web.ports && Table.rising s.memc.banks &&
    Table.rising s.flt.inj && Table.rising s.evm.rcs && Table.rising s.evm.pend && Table.rising s.evm.evio && Table.rising s.boot.cores

/-- The state is in canonical form: equal machines are equal data, and a value put into a table is read back. -/
abbrev State.canonical (s : State) : Prop := Memory.wf s = true ∧ s.tablesRise = true

/-- No bit of the fuse array that is burnt in `s` is clear in `t` (R315). -/
def State.fusesGrow (s t : State) : Prop := ∀ i, s.fuseWord i ||| t.fuseWord i = t.fuseWord i

/-- The hub is powered and out of reset, so that commands act (R376, R380). -/
abbrev State.powered (s : State) : Prop := s.pwr.porHeld = false ∧ s.pwr.hubReset = false

/-- The HBM controller serves at once: in SERVICE, with no request held, no byte whose parity fails and no loss of a bank's contents on record. -/
abbrev State.memQuiet (s : State) : Prop := s.memc.st = .service ∧ s.memc.reqs = [] ∧ s.memc.spoilt = [] ∧ s.losses = []

/-- Commands that start a POR: absolute time starts again from 0 (R13, R376, R380). -/
def startsPor : Instr → Bool
  | .porstN _ => true
  | .vddAonLoss _ => true
  | .supplyHub _ rail => decide (rail = 2)
  | _ => false

/-! ## What a command does -/

/-- The parts of the state that a statement speaks of: the fields of State but the queue and the time. -/
inductive Part where
  | regs | dev | tb | evm | force | seqs | engs | ress | guards | que | memc | hbm | losses | vat | web | jtag | flt | cal | boot | pwr
  | fuses | flash | resp | free
  deriving DecidableEq, Repr

/-- A part is the same in both states. -/
def Part.Same (b e : State) : Part → Prop
  | .regs => e.regs = b.regs
  | .dev => e.dev = b.dev
  | .tb => e.tb = b.tb
  | .evm => e.evm = b.evm
  | .force => e.force = b.force
  | .seqs => e.seqs = b.seqs
  | .engs => e.engs = b.engs
  | .ress => e.ress = b.ress
  | .guards => e.guards = b.guards
  | .que => e.que = b.que
  | .memc => e.memc = b.memc
  | .hbm => e.hbm = b.hbm
  | .losses => e.losses = b.losses
  | .vat => e.vat = b.vat
  | .web => e.web = b.web
  | .jtag => e.jtag = b.jtag
  | .flt => e.flt = b.flt
  | .cal => e.cal = b.cal
  | .boot => e.boot = b.boot
  | .pwr => e.pwr = b.pwr
  | .fuses => e.fuses = b.fuses
  | .flash => e.flash = b.flash
  | .resp => e.resp = b.resp
  | .free => e.free = b.free

/-- The frame of a way from `b` to `e`: nothing but the parts listed changes. -/
def OnlyChanges (l : List Part) (b e : State) : Prop := e.pending = b.pending ∧ e.now = b.now ∧ ∀ p, p ∉ l → Part.Same b e p

/-- Two tables read alike at every key but those listed. -/
def Table.SameBut {α : Type} (l : List Nat) (t u : Table α) : Prop := ∀ k, k ∉ l → ∀ d : α, Table.get d k u = Table.get d k t

/-- Every register reads as before: the word of register `r`, instance `i`, is stored again as it was, and no other is stored. -/
def RegsAlike (r : Reg) (i : Nat) (b e : State) : Prop := Table.SameBut [regAddr r i 0] b.regs e.regs ∧ e.rd r i = b.rd r i

/-- Command `c` at instant `t` completes from `s`: its own effect leads from `s.begin t`, the state at that instant, to a state `e` with `P e`
in which nothing but the parts in `l` has changed, and exec answers `e` with the event cycle carried on from there (`State.finish`). -/
def Completes (c : Instr) (t : Nat) (s : State) (l : List Part) (P : State → State → Prop) : Prop :=
  ∃ e, exec c s = .next (State.finish (s.begin t) e) ∧ OnlyChanges l (s.begin t) e ∧ P (s.begin t) e

/-- Fault `d`, whose class is its reaction class, is captured (R296, R297, R300): the newest record is its record, each record that still
holds its place of the ring stays, and the source of the reaction class asserts (Table 10-8). -/
def Recorded (d : Detect) (b e : State) : Prop :=
  e.flt.seq = b.flt.seq + 1 ∧
    (∃ r : Record, e.flt.ring.head? = some r ∧ r.det = d ∧ r.seq = b.flt.seq + 1 ∧ r.reaction = d.cls ∧ r.recur = 0 ∧ r.touched = b.now ∧
      r.clr = (if d.condition then 0 else d.abs) ∧ r.flags.cleared = ! d.condition ∧ r.flags.condition = d.condition ∧
      r.flags.injected = d.slot.isSome ∧ r.flags.escalated = false ∧ r.flags.recovered = false ∧ r.flags.held = false ∧
      r.flags.acked = (decide (d.cls = 1) && b.on f_FLT_CTL_ack_a_auto)) ∧
    (∀ q ∈ b.flt.ring, b.flt.seq + 1 < q.seq + 64 → ∃ r ∈ e.flt.ring, r.det = q.det ∧ r.seq = q.seq ∧ r.recur = q.recur ∧ r.clr = q.clr ∧
      r.flags.acked = q.flags.acked ∧ r.flags.cleared = q.flags.cleared) ∧
    ∃ a ∈ e.evm.asserted, a.src = srcFault (d.cls - 1)

/-- The records of a condition that are not cleared yet are cleared now (R300). -/
def ConditionEnds (code : Nat) (sc : Scope) (b e : State) : Prop :=
  e.flt = { b.flt with ring := e.flt.ring } ∧ e.flt.ring.length = b.flt.ring.length ∧
    ∀ (k : Nat) (r : Record), b.flt.ring[k]? = some r →
      e.flt.ring[k]? = some (if r.flags.condition = true ∧ r.flags.cleared = false ∧ r.det.code = code ∧ r.det.scope = sc ∧ r.det.slot = none
        then { r with flags := { r.flags with cleared := true }, clr := b.abs, touched := b.now } else r)

/-- The parts that time's passing and the event cycle around a command may change besides the command's own effect. -/
def Part.around : List Part :=
  [.regs, .tb, .evm, .force, .seqs, .engs, .ress, .que, .memc, .hbm, .losses, .vat, .web, .flt, .cal]

end Sys2Proof.Machine
end

