-- ==== Sys2Proof/Certificates/Slice0/Obligations.lean ====
section
/-!
DEFINITION. The statements for the provers: the machine as a whole, then the commands of each family.
-/

open Sys2Proof Sys2Proof.Machine

/-- The rule of a block: a step carries out the command at the front of the queue on the state with the rest. -/
def Obligations.StepRunsTheFrontCommand : Prop :=
  ∀ (s : State) (c : Instr), Sys2Proof.Machine.step { s with pending := c :: s.pending } = exec c s

/-- R9, with the model's choice of notes/assumptions/2.md: with no command waiting an event cycle passes. Nothing but time and what surrounds a command acts;
while the device is held in POR nothing changes. The model's choices it rests on: notes/assumptions/2. -/
def Obligations.AnEmptyQueuePassesAnEventCycle : Prop :=
  ∀ s : State, s.pending = [] →
    (s.pwr.porHeld = true → Sys2Proof.Machine.step s = .next s) ∧
    (s.powered → ∃ u, Sys2Proof.Machine.step s = .next u ∧ u.now = (s.cycle + 1) * 256 ∧ u.pending = [] ∧ ∀ p, p ∉ Part.around → Part.Same s u p)

/-- The canonical form of the model's data (no rule of the spec): reset meets it, with time 0, no command waiting, POR released and no fuse burnt since
delivery. The model's choices it rests on: notes/assumptions/4, 6, 80. -/
def Obligations.ResetIsCanonical : Prop :=
  State.reset.canonical ∧ State.reset.pending = [] ∧ State.reset.now = 0 ∧ State.reset.powered ∧ State.reset.dev.phase = 0 ∧
    ∀ i, State.reset.fuseWord i = Config.factoryFuse i

/-- Every step keeps the canonical form: memory lists no unwritten byte and every table lists each instance once. The model's choices it rests on:
notes/assumptions/4, 6. -/
def Obligations.StepKeepsTheCanonicalForm : Prop :=
  ∀ s t : State, s.canonical → Sys2Proof.Machine.step s = .next t → t.canonical

/-- R315 and the text before it: fuses change only from 0 to 1, so no step clears a bit of the fuse array. The model's choices it rests on:
notes/assumptions/80. -/
def Obligations.StepNeverClearsAFuse : Prop :=
  ∀ (s t : State) (i : Nat), s.canonical → Sys2Proof.Machine.step s = .next t → s.fuseWord i ||| t.fuseWord i = t.fuseWord i

/-- R13, R376, R381: time goes on, and only a POR starts it again from 0; while PORST_N holds the device in POR no command but its release or a new POR changes
anything; and a command's effect leaves the queue of waiting commands alone. The model's choices it rests on: notes/assumptions/1, 39. -/
def Obligations.TimeQueueAndPor : Prop :=
  ∀ (c : Instr) (s t : State), exec c s = .next t → t.pending = s.pending ∧ (startsPor c = false → s.now ≤ t.now) ∧
    (startsPor c = true → t = s ∨ t.now = 0) ∧
    (s.pwr.porHeld = true → startsPor c = false → (∀ n, c ≠ .porRelease n) → t = s)

/-- A command that names instances the device has goes on, but for an access that reaches a ZRT-2560 register (R370); one that names any other instance is a
fault. The model's choices it rests on: notes/assumptions/8, 9. -/
def Obligations.WellFormedCommandsRun : Prop :=
  ∀ (c : Instr) (s : State), (c.wf = true → (∃ t, exec c s = .next t) ∨ ∃ o, exec c s = .refused (.forerunnerRegister o)) ∧
    (c.wf = false → exec c s = .fault .noSuchInstance)

/-- R345, R346, R367, R337: flash changes only by its own commands, the log writes of the CAL core and a slot write. The model's choices it rests on:
notes/assumptions/5, 18, 34. -/
def Obligations.FlashChangesOnlyByItsCommands : Prop :=
  ∀ (c : Instr) (s t : State), exec c s = .next t → t.flash ≠ s.flash →
    (∃ n, c = .wearLogSave n) ∨ (∃ n e, c = .flashCommandComplete n e) ∨ (∃ n j, c = .doorbell n j) ∨ (∃ n, c = .slotWrite n) ∨
      ∃ n e, c = .slotWriteComplete n e

/-- What surrounds a command (time passing to its instant before, sources routed and queued faults captured after) leaves the device block, the guards, the TAP,
boot, power, fuses, flash, the answer and the free values alone; it moves time to the command's instant and leaves the queue of waiting commands as it is. The
model's choices it rests on: notes/assumptions/1. -/
def Obligations.WhatSurroundsACommand : Prop :=
  ∀ (s b e : State) (t : Nat), (s.begin t).now = max t s.now ∧ (s.begin t).pending = s.pending ∧ (∀ p, p ∉ Part.around → Part.Same s (s.begin t) p) ∧
    OnlyChanges Part.around e (State.finish b e)

/-- R7, R8, R397: a write to a register that no rule of its own governs (all but those listed) stores its RW fields, clears the W1C bits written 1 and leaves
every other bit and register as it was; where it writes another value to an RWI field, that field keeps its value and the write is logged as a class-A fault of
code 0x001 with the writer and the register. R34: a requester that is not answered gets an error response and nothing else changes. Every other write access
goes on and is answered without an error. R32: a write to the _LO register of a pair of which both halves are writable is held for its writer, in place of
anything held before; a write to _HI commits both halves, the low one as held or else as it was; a pair that is locked (R62) or that TEST permission guards
(R311) is refused whole, and the target of an armed generator is compared from the next event cycle on (R61). Bits that an amendment writes in the same event
cycle keep its values (R364, Table 12-8). REGISTER_WRITE, LO_WRITE_STAGE, HI_WRITE_COMMIT. The model's choices it rests on: notes/assumptions/1, 13, 59, 85. -/
def Obligations.RegisterWrites : Prop :=
  ∀ (s : State) (t m a : Nat) (v : Word), s.canonical → s.powered →
    (s.answers m = false → s.foreign a true = none → ∀ c, c = Instr.registerWrite t m a v ∨ c = .loWriteStage t m a v ∨ c = .hiWriteCommit t m a v →
      Completes c t s [.resp] fun _ e => e.resp = ⟨m, true, 0⟩) ∧
    (s.answers m = true → a % 4 = 0 → ∀ r i j, s.target a = .reg r i j →
      ∀ c, c = Instr.registerWrite t m a v ∨ c = .loWriteStage t m a v ∨ c = .hiWriteCommit t m a v →
      Completes c t s [.regs, .dev, .tb, .evm, .force, .seqs, .engs, .ress, .guards, .que, .memc, .hbm, .losses, .vat, .web, .jtag, .flt, .cal, .boot,
        .pwr, .fuses, .resp, .free] fun _ e => e.resp = ⟨m, false, 0⟩) ∧
    (s.answers m = true → a % 4 = 0 → s.target a = .unassigned → Completes (.registerWrite t m a v) t s [.resp] fun _ e => e.resp = ⟨m, false, 0⟩) ∧
    (∀ (r : Reg) (i j : Nat) (old w : Word), s.answers m = true → a % 4 = 0 → s.target a = .reg r i j →
      r ∉ [Reg.CH_FORCE_SET, .EVM_RC_CTL, .EVM_RC_TARGET, .EVM_RC_FAR_OFS, .TB_ANCHOR_TARGET_LO, .TB_ANCHOR_TARGET_HI, .TEST_CREDIT_HOLD_LO,
        .TEST_CREDIT_HOLD_HI, .TEST_CONSUMER_HOLD_LO, .TEST_CONSUMER_HOLD_HI, .TEST_WEB_DELAY, .TEST_PORT_HOLD, .TEST_HBM_STRETCH, .TEST_BEAT_SKEW,
        .TEST_OVERFILL, .CH_CTL, .CH_MEAS_CTL, .CH_AUTORANGE, .CH_MEAS_SEQ, .CH_MEAS_TRIG, .CH_SWEEP_LIST, .CH_SWEEP_ENTRY, .CH_SWEEP_CTL,
        .CH_RES_CTL, .QUE_AGENT_CTL, .QUE_FELT_CTL, .QUE_FELT_WM_HIGH, .QUE_FELT_WM_LOW, .QUE_FELT_WM_STATUS, .QUE_FELT_RING_RD, .QUE_FELT_DEST,
        .QUE_FELT_RING_BASE, .QUE_FELT_RING_SIZE, .MEMC_FREQ, .MEMC_PAGE, .MEMC_PR_CTL, .WEB_PORT_RATE, .WEB_PORT_CTL, .TB_ANCHOR_CTL, .FLT_CTL,
        .FLT_ACK, .FLT_PIN, .FLT_INJ_CTL, .EVM_EVIO_CTL, .CAL_CMD, .CAL_COUCH_CMD, .PWR_DOMAIN_REQ, .BOOT_FLASH_CTL, .BOOT_FLASH_ADDR,
        .BOOT_FLASH_DATA, .BOOT_AMEND_CTL] →
      old = (s.begin t).rd r i j →
      w = (v &&& ~~~ (s.begin t).shielded (regAddr r i j)) ||| (old &&& (s.begin t).shielded (regAddr r i j)) →
      ((old ^^^ w) &&& rwiMask r = 0 →
        Completes (.registerWrite t m a v) t s [.regs, .resp] fun b e =>
          e.rd r i j = ((old &&& ~~~ rwMask r) ||| (w &&& rwMask r)) &&& ~~~ (w &&& w1cMask r) ∧ Table.SameBut [regAddr r i j] b.regs e.regs ∧
            e.resp = ⟨m, false, 0⟩) ∧
      ((old ^^^ w) &&& rwiMask r ≠ 0 →
        Completes (.registerWrite t m a v) t s [.regs, .evm, .force, .engs, .que, .memc, .vat, .flt, .cal, .resp] fun b e =>
          e.rd r i j = ((old &&& ~~~ rwMask r) ||| (w &&& rwMask r)) &&& ~~~ (w &&& w1cMask r) ∧
            ∃ x : State, x = b.accessFault 0x001 1 .none m 2 (regAddr r i j) ∧ OnlyChanges [.regs, .resp] x e ∧
              Table.SameBut [regAddr r i j] x.regs e.regs ∧ e.resp = ⟨m, false, 0⟩)) ∧
    (∀ (lo hi : Reg) (i : Nat), s.answers m = true → a % 4 = 0 → pairHi lo = some hi → s.target a = .reg lo i 0 →
      Completes (.loWriteStage t m a v) t s [.dev, .resp] fun b e =>
        e.resp = ⟨m, false, 0⟩ ∧
          e.stagedLo m (regAddr lo i 0) = some ((v &&& ~~~ b.shielded (regAddr lo i 0)) ||| (b.rd lo i &&& b.shielded (regAddr lo i 0))) ∧
          (∀ p, p ≠ regAddr lo i 0 → e.stagedLo m p = none) ∧ (∀ n p, n ≠ m → e.stagedLo n p = b.stagedLo n p) ∧
          e.dev = { b.dev with stages := e.dev.stages }) ∧
    (∀ (lo hi : Reg) (i : Nat) (h l : Word), s.answers m = true → a % 4 = 0 → pairHi lo = some hi → s.target a = .reg hi i 0 →
      h = (v &&& ~~~ (s.begin t).shielded (regAddr hi i 0)) ||| ((s.begin t).rd hi i &&& (s.begin t).shielded (regAddr hi i 0)) →
      l = ((s.begin t).stagedLo m (regAddr lo i 0)).getD ((s.begin t).rd lo i) →
      ((s.begin t).barred m hi i h ((s.begin t).rd hi i) = none → (s.begin t).barred m lo i l ((s.begin t).rd lo i) = none →
        (lo = .TB_ANCHOR_TARGET_LO → ((s.begin t).genOf i).armed = false) →
        Completes (.hiWriteCommit t m a v) t s [.regs, .dev, .resp] fun b e =>
          e.resp = ⟨m, false, 0⟩ ∧ e.rd hi i = h ∧ e.rd lo i = l ∧ e.stagedLo m (regAddr lo i 0) = none ∧
            e.dev = { b.dev with stages := e.dev.stages } ∧ Table.SameBut [regAddr lo i 0, regAddr hi i 0] b.regs e.regs) ∧
      ((s.begin t).barred m hi i h ((s.begin t).rd hi i) = none → (s.begin t).barred m lo i l ((s.begin t).rd lo i) = none →
        lo = .TB_ANCHOR_TARGET_LO → ((s.begin t).genOf i).armed = true → (s.begin t).genMatches i = false → (s.begin t).tb.ready = true →
        genMode (s.begin t) i ≠ 5 → (h ≠ (s.begin t).rd hi i ∨ l ≠ (s.begin t).rd lo i) →
        Completes (.hiWriteCommit t m a v) t s [.regs, .dev, .tb, .resp] fun b e =>
          e.resp = ⟨m, false, 0⟩ ∧ e.rd hi i = h ∧ e.rd lo i = l ∧ e.stagedLo m (regAddr lo i 0) = none ∧
            Table.SameBut [regAddr lo i 0, regAddr hi i 0] b.regs e.regs ∧ (e.genOf i).armed = true ∧ (e.genOf i).waiting = false ∧
            (e.genOf i).target = e.genTarget i ∧ (e.genOf i).since = b.cycle + 1 ∧ (e.genOf i).fires = (b.genOf i).fires ∧
            Table.SameBut [i] b.tb.gens e.tb.gens ∧ e.tb = { b.tb with gens := e.tb.gens }) ∧
      (∀ code, (s.begin t).barred m hi i h ((s.begin t).rd hi i) = some code ∨
          (s.begin t).barred m hi i h ((s.begin t).rd hi i) = none ∧ (s.begin t).barred m lo i l ((s.begin t).rd lo i) = some code →
        Completes (.hiWriteCommit t m a v) t s [.regs, .dev, .evm, .force, .engs, .que, .memc, .vat, .flt, .cal, .resp] fun b e =>
          (code = (if lo = .TB_ANCHOR_TARGET_LO then 0x001 else 0x006)) ∧
            ∃ x : State, OnlyChanges [.dev] b x ∧ x.dev = { b.dev with stages := x.dev.stages } ∧ x.stagedLo m (regAddr lo i 0) = none ∧
              e = { x.accessFault code 1 .none m 2 (regAddr hi i 0) with resp := ⟨m, false, 0⟩ }))

/-- R7, R28, R29, R30: what reads of registers answer and leave. A read of a register outside a pair answers what it holds and clears its RC fields; a _LO read
answers the low half and keeps the high half in the master's shadow; a _HI read answers the shadow of its pair, or the live half with DEVICE_SNAP_MISS counted.
READ_CLEAR, LO_READ, HI_READ. -/
def Obligations.RegisterReads : Prop :=
  ∀ (s : State) (t m a : Nat) (r : Reg) (i j : Nat), s.canonical → s.powered → s.answers m = true → a % 4 = 0 → s.target a = .reg r i j →
    (pairHalf r i j = none → r ≠ .QUE_FELT_POP →
      Completes (.readClear t m a) t s [.regs, .resp] fun b e =>
        e.resp = ⟨m, false, b.viewReg r i j⟩ ∧ e.rd r i j = b.rd r i j &&& ~~~ accMask r (fun x => x == .rc) ∧
          Table.SameBut [regAddr r i j] b.regs e.regs) ∧
    (pairHalf r i j = some false →
      Completes (.loRead t m a) t s [.dev, .resp] fun b e =>
        e.resp = ⟨m, false, b.viewAt (regAddr r i j)⟩ ∧ e.shadowOf m (regAddr r i j) = some (b.viewAt (regAddr r i j + 4)) ∧
          (∀ p, p ≠ regAddr r i j → e.shadowOf m p = none) ∧ e.dev.stages = b.dev.stages) ∧
    (pairHalf r i j = some true → ∀ w, (s.begin t).shadowOf m (regAddr r i j - 4) = some w →
      Completes (.hiRead t m a) t s [.resp] fun _ e => e.resp = ⟨m, false, w⟩) ∧
    (pairHalf r i j = some true → (s.begin t).shadowOf m (regAddr r i j - 4) = none →
      Completes (.hiRead t m a) t s [.regs, .resp] fun b e =>
        e.resp = ⟨m, false, b.viewAt (regAddr r i j)⟩ ∧
          e.fld f_DEVICE_SNAP_MISS_count = min 0xFFFF (b.fld f_DEVICE_SNAP_MISS_count + 1) ∧
          Table.SameBut [regAddr .DEVICE_SNAP_MISS 0 0] b.regs e.regs)

/-- R24, R26, R396: an access to a reserved range, one that is not 4-byte aligned and a write to vat SRAM without TEST permission are not performed, answered
with an error and logged as a class-A fault 0x002 with the requester; a write to vat SRAM with the permission stores its four bytes. Outside forerunner mode the
forerunner window is a reserved range. RESERVED_ACCESS, UNALIGNED_ACCESS, VAT_SRAM_WRITE. -/
def Obligations.AccessesThatAreNotPerformed : Prop :=
  ∀ (s : State) (t m a : Nat) (v : Word), s.canonical → s.powered →
    (s.answers m = true → a % 4 = 0 → s.target a = .reserved → ∀ w,
      Completes (.reservedAccess t m a w v) t s [.regs, .evm, .force, .engs, .que, .memc, .vat, .flt, .cal, .resp] fun b e =>
        e = { b.accessFault 0x002 1 .none m (accessType a w) a with resp := ⟨m, true, 0⟩ }) ∧
    (s.answers m = true → a % 4 ≠ 0 → ∀ w,
      Completes (.unalignedAccess t m a w v) t s [.regs, .evm, .force, .engs, .que, .memc, .vat, .flt, .cal, .resp] fun b e =>
        e = { b.accessFault 0x002 1 .none m (accessType a w) a with resp := ⟨m, true, 0⟩ }) ∧
    (s.answers m = true → ∀ o, o % 4 = 0 → o < 2 ^ 25 → s.dev.test = false →
      Completes (.vatSramWrite t m (2 ^ 34 + o) v) t s [.regs, .evm, .force, .engs, .que, .memc, .vat, .flt, .cal, .resp] fun b e =>
        e = { b.accessFault 0x002 1 .none m 4 (2 ^ 34 + o) with resp := ⟨m, true, 0⟩ }) ∧
    (s.answers m = true → ∀ o, o % 4 = 0 → o < 2 ^ 25 → s.dev.test = true →
      Completes (.vatSramWrite t m (2 ^ 34 + o) v) t s [.vat, .resp] fun b e =>
        e.resp = ⟨m, false, 0⟩ ∧ (∀ k, k < 4 → Table.get 0 (o + k) e.vat = byteOf v k) ∧
          Table.SameBut [o, o + 1, o + 2, o + 3] b.vat e.vat) ∧
    (s.dev.forerunner = false → 0x900000000 ≤ a → a < 0x901000000 → s.target a = .reserved)

/-- R39, R43, R45: what an active edge of LINE_REF and a missing one do while the timebase is not LOCKED: the first edge starts ACQUIRING, the second gives the
line period if it lies in range, and a closed window counts as missing. R40, R41: FRAME_REF is sampled at the midpoint of a line; in LOCKED a mark that does not
meet a frame start is a glitch, and a second one with the same mismatch slews the raster and is logged. R42: PIXCLK's loss is an event and ends its use; one
that has shown the rate of LINE_REF within 100 ppm sets the line period, and an error above 1 phase unit is slewed away. LINE_REF_EDGE, EDGE_MISSING,
FRAME_START_MARK, PIXCLK_LOST, PIXCLK_QUALIFIED. The model's choices it rests on: notes/assumptions/1, 53, 54, 88. -/
def Obligations.LineFrameAndPixelReferences : Prop :=
  ∀ (s : State) (t : Nat), s.canonical → s.pwr.porHeld = false →
    ((s.begin t).external = false → Completes (.lineRefEdge t) t s [] fun _ _ => True) ∧
    ((s.begin t).external = true → (s.begin t).tb.state = .unlocked →
      Completes (.lineRefEdge t) t s [.tb] fun b e =>
        e.tb = { b.tb with markAgo := b.tb.markAgo.map (· + 1), state := .acquiring, line := ⟨some b.now, 1, 0, 0, 0, false⟩ }) ∧
    (∀ l, (s.begin t).external = true → (s.begin t).tb.state = .acquiring → (s.begin t).tb.line.last = some l → (s.begin t).tb.line.seen = 1 →
      8333 * 256 ≤ 10 * ((s.begin t).now - l) → (s.begin t).now - l ≤ 256000000 →
      Completes (.lineRefEdge t) t s [.tb] fun b e =>
        e.tb.period = b.now - l ∧ e.tb.state = .acquiring ∧ e.tb.line.last = some b.now ∧ e.tb.line.seen = 2 ∧ e.tb.raster = b.tb.raster) ∧
    (∀ l, (s.begin t).external = true → (s.begin t).tb.state = .acquiring → (s.begin t).tb.line.last = some l → (s.begin t).tb.line.seen = 1 →
      256000000 < (s.begin t).now - l →
      Completes (.lineRefEdge t) t s [.tb, .regs] fun b e =>
        e.tb.period = b.tb.period ∧ e.tb.line.seen = 1 ∧ e.tb.line.last = some b.now ∧ e.on f_TB_EVENTS_out_of_range = true ∧
          Table.SameBut [regAddr .TB_EVENTS 0 0] b.regs e.regs) ∧
    (∀ l, (s.begin t).external = true → (s.begin t).tb.state = .locked → (s.begin t).tb.line.last = some l → (s.begin t).tb.period ≠ 0 →
      ((s.begin t).tb.line.missed + 1) * (s.begin t).tb.period * (s.begin t).windowW + (s.begin t).tb.period
        < ((s.begin t).now - l) * (s.begin t).windowW →
      (s.begin t).tb.line.bad + 1 < (s.begin t).lossCount →
      Completes (.edgeMissing t .line) t s [.tb, .regs] fun b e =>
        e.tb = { b.tb with line := { b.tb.line with missed := b.tb.line.missed + 1, bad := b.tb.line.bad + 1, good := 0 } } ∧
          e.fld f_TB_GLITCH_COUNT_count = min 0xFFFF (b.fld f_TB_GLITCH_COUNT_count + 1) ∧
          Table.SameBut [regAddr .TB_GLITCH_COUNT 0 0] b.regs e.regs) ∧
    (∀ l, (s.begin t).external = true → (s.begin t).tb.state = .locked → (s.begin t).tb.line.last = some l → (s.begin t).tb.period ≠ 0 →
      ((s.begin t).tb.line.missed + 1) * (s.begin t).tb.period * (s.begin t).windowW + (s.begin t).tb.period
        < ((s.begin t).now - l) * (s.begin t).windowW →
      (s.begin t).lossCount ≤ (s.begin t).tb.line.bad + 1 →
      Completes (.edgeMissing t .line) t s [.tb, .regs, .evm, .force, .engs, .que, .memc, .vat, .flt, .cal] fun b e =>
        e.tb.state = .holdover ∧ e.tb.holdLines = 0 ∧ e.tb.line.qualified = false ∧ e.tb.raster = b.tb.raster ∧ e.tb.period = b.tb.period ∧
          ∃ x : State, e = x.fault 0x800 1 .none 0x111C ∧ x.on f_TB_EVENTS_ref_lost = true) ∧
    (∀ a, a = false ∨ (s.begin t).tb.frameLevel = true ∨ (s.begin t).external = false →
      Completes (.frameStartMark t a) t s [.tb] fun b e => e.tb = { b.tb with frameLevel := a }) ∧
    (∀ k, (s.begin t).tb.frameLevel = false → (s.begin t).external = true → (s.begin t).framed = true → (s.begin t).tb.state = .locked →
      k = frameOffset (s.begin t).lines (s.begin t).raster.line → k ≠ 0 → (s.begin t).tb.mismatch ≠ some k →
      Completes (.frameStartMark t true) t s [.tb, .regs] fun b e =>
        e.tb = { b.tb with frameLevel := true, markAgo := some 0, mismatch := some k } ∧
          e.fld f_TB_GLITCH_COUNT_count = min 0xFFFF (b.fld f_TB_GLITCH_COUNT_count + 1) ∧
          Table.SameBut [regAddr .TB_GLITCH_COUNT 0 0] b.regs e.regs) ∧
    (∀ k, (s.begin t).tb.frameLevel = false → (s.begin t).external = true → (s.begin t).framed = true → (s.begin t).tb.state = .locked →
      k = frameOffset (s.begin t).lines (s.begin t).raster.line → k ≠ 0 → (s.begin t).tb.mismatch = some k →
      Completes (.frameStartMark t true) t s [.tb, .regs, .evm, .force, .engs, .que, .memc, .vat, .flt, .cal] fun b e =>
        e.tb = { b.tb with frameLevel := true, markAgo := some 0, state := .slewing, err := k * 2 ^ 32, overs := 0, track := 0, mismatch := none } ∧
          ∃ x y : State, y = x.fault 0x801 1 .none 0x111C ∧ x.on f_TB_EVENTS_frame_slip = true ∧ e.flt = y.flt ∧ e.regs = y.regs) ∧
    ((s.begin t).tb.pixActive = true →
      Completes (.pixclkLost t) t s [.tb, .regs] fun b e =>
        e.tb = { b.tb with pix := none, pixActive := false } ∧ e.on f_TB_EVENTS_pixclk_lost = true ∧
          Table.SameBut [regAddr .TB_EVENTS 0 0] b.regs e.regs) ∧
    ((s.begin t).tb.pixActive = false → Completes (.pixclkLost t) t s [.tb] fun b e => e.tb = { b.tb with pix := none }) ∧
    (∀ (err : Int) (pix p : Nat), p = (s.begin t).fld f_TB_H_TOTAL_pixels * pix / 65536 →
      ((s.begin t).src ≠ 3 ∧ (s.begin t).src ≠ 4 ∨ (s.begin t).tb.period < ((p : Int) - (s.begin t).tb.period).natAbs * 10000 →
        Completes (.pixclkQualified t err pix) t s [] fun _ _ => True) ∧
      ((s.begin t).src = 3 ∨ (s.begin t).src = 4 → ((p : Int) - (s.begin t).tb.period).natAbs * 10000 ≤ (s.begin t).tb.period →
        ((s.begin t).tb.pixActive = true ∨ (s.begin t).tb.ready = false ∨ (s.begin t).tb.state = .unlocked ∨ (s.begin t).tb.state = .acquiring ∨
            (s.begin t).tb.state = .holdover →
          Completes (.pixclkQualified t err pix) t s [.tb] fun b e => e.tb = { b.tb with pix := some p }) ∧
        ((s.begin t).tb.pixActive = false → (s.begin t).tb.ready = true → (s.begin t).tb.state = .locked →
          (err.natAbs ≤ 65536 →
            Completes (.pixclkQualified t err pix) t s [.tb] fun b e =>
              e.tb = { b.tb with pix := some p, pixActive := true, period := p, err := err, overs := 0 }) ∧
          (65536 < err.natAbs →
            Completes (.pixclkQualified t err pix) t s [.tb] fun b e =>
              e.tb = { b.tb with pix := some p, pixActive := true, period := p, state := .slewing, err := err, overs := 0, track := 0, mismatch := none }))))

/-- R51 to R55, R43, R283: a beat that may not be taken is rejected and logged; one on a named port of a follower is kept for that port alone and starts
ACQUIRING once the port's delay is valid; a beat whose window closed counts as missing; a beat that is due goes into the output queue of its port once; and a
delay exchange runs by its tag: the request carries a new tag, the answer carries t3 − t2, and the response to the last request alone is taken, the first one
becoming the port's history. RASTER_BEAT, EDGE_MISSING of a beat port, BEAT_SEND, DELAY_REQ_SEND, DELAY_REQ, DELAY_RSP. The model's choices it rests on:
notes/assumptions/1, 54, 70, 89, 90. -/
def Obligations.RasterBeatsAndDelayExchanges : Prop :=
  ∀ (s : State) (t p : Nat), s.canonical → s.powered → p < 4 →
    (∀ (root rank frame line frac : Nat) (hold : Bool),
      ((s.begin t).on f_TB_CTL_root = true ∨ root ≠ (s.begin t).fld f_TB_BEAT_ROOT_root_node ∨ (s.begin t).fld f_TB_BEAT_CTL_rank ≤ rank →
        Completes (.rasterBeat t p root rank hold frame line frac) t s [.regs, .evm, .force, .engs, .que, .memc, .vat, .flt, .cal] fun b e =>
          ∃ x : State, e = x.fault 0x802 1 (.port p) (0x1110 + p) ∧ x.on f_TB_EVENTS_beat_reject = true ∧ OnlyChanges [.regs] b x ∧
            Table.SameBut [regAddr .TB_EVENTS 0 0] b.regs x.regs) ∧
      ((s.begin t).on f_TB_CTL_root = false → root = (s.begin t).fld f_TB_BEAT_ROOT_root_node → rank < (s.begin t).fld f_TB_BEAT_CTL_rank →
        ((s.begin t).src ≠ 5 ∨ (s.begin t).upPort ≠ some p ∧ (s.begin t).altPort ≠ some p) →
        Completes (.rasterBeat t p root rank hold frame line frac) t s [] fun _ _ => True) ∧
      ((s.begin t).on f_TB_CTL_root = false → root = (s.begin t).fld f_TB_BEAT_ROOT_root_node → rank < (s.begin t).fld f_TB_BEAT_CTL_rank →
        (s.begin t).src = 5 → ((s.begin t).upPort = some p ∨ (s.begin t).altPort = some p) → (s.begin t).tb.state = .unlocked →
        ((s.begin t).beatPortOf p).delayValid = true →
        Completes (.rasterBeat t p root rank hold frame line frac) t s [.tb] fun b e =>
          e.tb.state = .acquiring ∧ (e.beatPortOf p).beat = some ⟨root, rank, hold, frame, line, frac⟩ ∧
            (e.beatPortOf p).judge = ⟨some b.now, 1, 0, 0, 0, false⟩ ∧ Table.SameBut [p] b.tb.ports e.tb.ports ∧ e.tb.raster = b.tb.raster ∧
            e.tb.gens = b.tb.gens)) ∧
    (∀ l, (s.begin t).src = 5 → (s.begin t).tb.state = .locked → ((s.begin t).beatPortOf p).judge.last = some l →
      0 < ((s.begin t).beatPortOf p).judge.seen → (s.begin t).tb.period ≠ 0 →
      beatLines (s.begin t).lines (max 1 ((s.begin t).beatPortOf p).ivl) (((s.begin t).beatPortOf p).beat.elim 0 fun b => b.line)
          (((s.begin t).beatPortOf p).judge.missed + 1) * (s.begin t).tb.period * (s.begin t).windowW + (s.begin t).tb.period
        < ((s.begin t).now - l) * (s.begin t).windowW →
      ((s.begin t).beatPortOf p).judge.bad + 1 < (s.begin t).lossCount →
      Completes (.edgeMissing t (.beats p)) t s [.tb, .regs] fun b e =>
        e.beatPortOf p = { b.beatPortOf p with
          clean := 0
          judge := { (b.beatPortOf p).judge with
            missed := (b.beatPortOf p).judge.missed + 1, bad := (b.beatPortOf p).judge.bad + 1, good := 0 } } ∧
          Table.SameBut [p] b.tb.ports e.tb.ports ∧ e.tb.state = .locked ∧
          e.fld f_TB_GLITCH_COUNT_count = min 0xFFFF (b.fld f_TB_GLITCH_COUNT_count + 1) ∧
          Table.SameBut [regAddr .TB_GLITCH_COUNT 0 0] b.regs e.regs) ∧
    ((s.begin t).beatDue p = true →
      Completes (.beatSend t p) t s [.tb, .web] fun b e =>
        Table.get Beat.reset p e.tb.sent = b.ownBeat p ∧ Table.SameBut [p] b.tb.sent e.tb.sent ∧ e.tb.raster = b.tb.raster ∧
          Table.SameBut [p] b.web.ports e.web.ports ∧
          ∃ f : Flit, e.portOf p = (b.portOf p).enqueue f ∧ f.type = 4 ∧ f.len = 13 ∧
            f.payload = leBytes ((b.ownBeat p).frac / 65536 + 2 ^ 16 * (b.ownBeat p).line) 4 ++ leBytes (b.ownBeat p).frame 4 ++
              leBytes ((b.ownBeat p).frac % 65536) 2 ++ leBytes ((b.ownBeat p).root % 4096) 2 ++
                [BitVec.ofNat 8 ((b.ownBeat p).rank % 128 + 128 * b2n (b.ownBeat p).hold)]) ∧
    ((s.begin t).beatDue p = false → Completes (.beatSend t p) t s [] fun _ _ => True) ∧
    (∀ t1 : Int, (s.begin t).src = 5 → ((s.begin t).upPort = some p ∨ (s.begin t).altPort = some p) →
      Completes (.delayReqSend t p t1) t s [.tb, .web] fun b e =>
        (e.beatPortOf p).tag = ((b.beatPortOf p).tag + 1) % 65536 ∧ (e.beatPortOf p).req = some ((e.beatPortOf p).tag, t1) ∧
          (e.beatPortOf p).hist = (b.beatPortOf p).hist ∧ (e.beatPortOf p).judge = (b.beatPortOf p).judge ∧
          Table.SameBut [p] b.tb.ports e.tb.ports ∧ e.tb.state = b.tb.state ∧ e.tb.raster = b.tb.raster ∧
          ∃ f : Flit, e.portOf p = (b.portOf p).enqueue f ∧ f.type = 2 ∧ f.tag = (e.beatPortOf p).tag ∧ f.len = 0) ∧
    (∀ (tag : Nat) (t2 t3 : Int),
      Completes (.delayReq t p tag t2 t3) t s [.web] fun b e =>
        Table.SameBut [p] b.web.ports e.web.ports ∧
          ∃ f : Flit, e.portOf p = (b.portOf p).enqueue f ∧ f.type = 3 ∧ f.tag = tag ∧ f.payload = leBytes (unsigned 32 (t3 - t2)) 4) ∧
    (∀ (tag dt : Nat) (t1 t4 : Int), ((s.begin t).beatPortOf p).req = some (tag, t1) → ((s.begin t).beatPortOf p).hist = [] →
      Completes (.delayRsp t p tag dt t4) t s [.tb] fun b e =>
        (e.beatPortOf p).req = none ∧ (e.beatPortOf p).hist.map (fun x => x.rtt) = [t4 - t1 - dt] ∧
          (e.beatPortOf p).delayValid = (b.beatPortOf p).delayValid ∧ Table.SameBut [p] b.tb.ports e.tb.ports ∧ e.tb.state = b.tb.state) ∧
    (∀ (tag k dt : Nat) (t1 t4 : Int), ((s.begin t).beatPortOf p).req = some (k, t1) → k ≠ tag →
      Completes (.delayRsp t p tag dt t4) t s [] fun _ _ => True)

/-- R60: a generator whose target raster time has reached, or whose late firing is due, fires: its count rises by one, it notes its time and whether it was
late, it asserts its event (on the chain that armed it, where that holds), a one-shot mode disarms and a periodic one goes on to its next target; one whose
target is not reached does not fire. R61, R62: every write that disarms is answered; disarming takes effect at once and stores the mode and the count with it, a
match of the same event cycle fires first, a change of an armed generator's mode or count is refused with 0x004, and a locked generator is left alone by every
requester but the loader and the amendment engine, as in R8. ANCHOR_FIRE, DISARM. The model's choices it rests on: notes/assumptions/1. -/
def Obligations.GlobalGeneratorsFireAndDisarm : Prop :=
  ∀ (s : State) (t k : Nat), s.canonical → k < 64 →
    (s.pwr.porHeld = false → (s.begin t).genMatches k = false → Completes (.anchorFire t k) t s [] fun _ _ => True) ∧
    (s.pwr.porHeld = false → (s.begin t).genMatches k = true →
      Completes (.anchorFire t k) t s [.tb, .regs, .evm, .force, .engs, .que, .memc, .vat, .flt, .cal] fun b e =>
        (e.genOf k).fires = ((b.genOf k).fires + 1) % 65536 ∧ (e.genOf k).armed = ((b.genOf k).armed && !decide (genMode b k < 4)) ∧
          (e.genOf k).target = (match genMode b k with
            | 4 => rtAdd b.lines (b.genOf k).target 0 1 0
            | 5 => rtAdd b.lines (b.genOf k).target 1 0 0
            | 6 => rtAdd b.lines (b.genOf k).target 0 (max 1 (genN b k)) 0
            | _ => (b.genOf k).target) ∧
          (e.genOf k).due = none ∧ (e.genOf k).late = (b.genOf k).dueLate ∧ (e.genOf k).holdover = b.holdover ∧
          (e.genOf k).lastTime = (if (b.genOf k).dueLate then b.raster else (b.genOf k).target) ∧
          Table.SameBut [k] b.tb.gens e.tb.gens ∧ e.tb = { b.tb with gens := e.tb.gens } ∧
          ((b.genOf k).due = none ∨ (b.genOf k).link = none → ∃ a ∈ e.evm.asserted, a.src = 2112 + k)) ∧
    (∀ (m : Nat) (v : Word), s.powered → s.answers m = true →
      Completes (.disarm t m k v) t s [.tb, .regs, .evm, .force, .engs, .que, .memc, .vat, .flt, .cal, .resp] fun _ e => e.resp = ⟨m, false, 0⟩) ∧
    (∀ (m : Nat) (v : Word), s.powered → s.answers m = true → (s.begin t).shielded (regAddr .TB_ANCHOR_CTL k 0) = 0 →
      (s.begin t).on f_TB_ANCHOR_CTL_locked k = false → bit v 29 = false → bit v 30 = true →
      ((s.begin t).genMatches k = false →
        ((s.begin t).genOf k).armed = false ∨ bits v 24 3 = genMode (s.begin t) k ∧ bits v 8 16 = genN (s.begin t) k →
        Completes (.disarm t m k v) t s [.tb, .regs, .resp] fun b e =>
          e.genOf k = { b.genOf k with armed := false, waiting := false, due := none, dueLate := false, offCycle := some b.cycle } ∧
            genMode e k = bits v 24 3 ∧ genN e k = bits v 8 16 ∧ e.tb = { b.tb with gens := e.tb.gens } ∧
            Table.SameBut [k] b.tb.gens e.tb.gens ∧ Table.SameBut [regAddr .TB_ANCHOR_CTL k 0] b.regs e.regs) ∧
      ((s.begin t).genMatches k = false → ((s.begin t).genOf k).armed = true →
        bits v 24 3 ≠ genMode (s.begin t) k ∨ bits v 8 16 ≠ genN (s.begin t) k →
        Completes (.disarm t m k v) t s [.tb, .regs, .evm, .force, .engs, .que, .memc, .vat, .flt, .cal, .resp] fun b e =>
          e.genOf k = { b.genOf k with armed := false, waiting := false, due := none, dueLate := false, offCycle := some b.cycle } ∧
            e.rd .TB_ANCHOR_CTL k = b.rd .TB_ANCHOR_CTL k ∧ e.tb = { b.tb with gens := e.tb.gens } ∧ Table.SameBut [k] b.tb.gens e.tb.gens ∧
            e.flt = (b.accessFault 0x004 1 .none m 2 (regAddr .TB_ANCHOR_CTL k 0)).flt) ∧
      ((s.begin t).genMatches k = true →
        Completes (.disarm t m k v) t s [.tb, .regs, .evm, .force, .engs, .que, .memc, .vat, .flt, .cal, .resp] fun b e =>
          (e.genOf k).armed = false ∧ (e.genOf k).fires = ((b.genOf k).fires + 1) % 65536 ∧ (e.genOf k).offCycle = some b.cycle ∧
            Table.SameBut [k] b.tb.gens e.tb.gens)) ∧
    (∀ (m : Nat) (v : Word), s.powered → s.answers m = true → (s.begin t).shielded (regAddr .TB_ANCHOR_CTL k 0) = 0 →
      (s.begin t).on f_TB_ANCHOR_CTL_locked k = true → bit v 29 = true → bit v 30 = true ∨ bit v 31 = true →
      (∀ c, c = Instr.arm t m k v ∨ c = Instr.disarm t m k v →
        Completes c t s [.regs, .evm, .force, .engs, .que, .memc, .vat, .flt, .cal, .resp] fun b e =>
          e = { b.accessFault 0x001 1 .none m 2 (regAddr .TB_ANCHOR_CTL k 0) with resp := ⟨m, false, 0⟩ }))

/-- R59, R61: a write with the arm bit stores the mode and the count and arms the generator: its target is computed at once while raster time is ready, and it
waits otherwise; an anchor form that may not be armed is refused with 0x004 and the generator stays disarmed. ARM. The model's choices it rests on:
notes/assumptions/1. -/
def Obligations.ArmingAGlobalGenerator : Prop :=
  ∀ (s : State) (t k m : Nat) (v : Word), s.canonical → k < 64 → s.powered → s.answers m = true →
    (s.begin t).shielded (regAddr .TB_ANCHOR_CTL k 0) = 0 → (s.begin t).on f_TB_ANCHOR_CTL_locked k = false → bit v 29 = false →
    bit v 30 = false → bit v 31 = true → ((s.begin t).genOf k).armed = false → ((s.begin t).genOf k).offCycle ≠ some (s.begin t).cycle →
    (bits v 24 3 < 5 ∨ bits v 24 3 = 6 ∧ 0 < bits v 8 16 ∨ bits v 24 3 = 5 ∧ ((s.begin t).genPair k).line < (s.begin t).lines →
      Completes (.arm t m k v) t s [.tb, .regs, .resp] fun b e =>
        (e.genOf k).armed = true ∧ (e.genOf k).waiting = !b.tb.ready ∧ (b.tb.ready = true → (e.genOf k).target = e.genTarget k) ∧
          (e.genOf k).fires = (b.genOf k).fires ∧ genMode e k = bits v 24 3 ∧ genN e k = bits v 8 16 ∧
          Table.SameBut [k] b.tb.gens e.tb.gens ∧ Table.SameBut [regAddr .TB_ANCHOR_CTL k 0] b.regs e.regs ∧ e.tb.raster = b.tb.raster) ∧
    (bits v 24 3 = 7 ∨ bits v 24 3 = 6 ∧ bits v 8 16 = 0 ∨ bits v 24 3 = 5 ∧ (s.begin t).lines ≤ ((s.begin t).genPair k).line →
      Completes (.arm t m k v) t s [.regs, .evm, .force, .engs, .que, .memc, .vat, .flt, .cal, .resp] fun b e =>
        ∃ x : State, e = { x.accessFault 0x004 1 .none m 2 (regAddr .TB_ANCHOR_CTL k 0) with resp := ⟨m, false, 0⟩ } ∧
          genMode x k = bits v 24 3 ∧ genN x k = bits v 8 16 ∧ OnlyChanges [.regs] b x ∧
          Table.SameBut [regAddr .TB_ANCHOR_CTL k 0] b.regs x.regs)

/-- R85, R86: what a DAC frame boundary does to a channel that forces voltage with no change under way and no sweep: the settings of the frame come into force,
the correction moves towards its target by at most one code a frame, and the present code goes to the target, at once without the calender, by the calender's
step each time its rate is reached in the frames that have ended. A frame that is not over changes nothing. DAC_FRAME_BOUNDARY. The model's choices it rests on:
notes/assumptions/1, 20. -/
def Obligations.DacFrames : Prop :=
  ∀ (s : State) (t n : Nat) (meas : Int), s.canonical → s.powered → n < 512 →
    ((s.begin t).now < ((s.begin t).forceOf n).frameAt + 65536 → Completes (.dacFrameBoundary t n meas) t s [] fun _ _ => True) ∧
    (∀ k, ((s.begin t).forceOf n).frameAt + k * 65536 ≤ (s.begin t).now → (s.begin t).now < ((s.begin t).forceOf n).frameAt + (k + 1) * 65536 →
      0 < k → (s.begin t).chanPowered n = true → ((s.begin t).engOf n).state = .idle → ((s.begin t).engOf n).marks = [] →
      ((s.begin t).engOf n).stop = none → ((s.begin t).engOf n).stall = false → ((s.begin t).forceOf n).st = .forcingV →
      ((s.begin t).forceOf n).steps = [] → ((s.begin t).forceOf n).disabling = false → ((s.begin t).forceOf n).fast = false →
      Completes (.dacFrameBoundary t n meas) t s [.force] fun b e =>
        let x := b.forceOf n
        let y := e.forceOf n
        Table.SameBut [n] b.force e.force ∧ y.st = .forcingV ∧ y.mode = x.mode ∧ y.span = x.span ∧ y.range = x.range ∧ y.target = x.target ∧
          y.deckle = b.rd .CH_DECKLE n ∧ y.filter = b.fld f_CH_CTL_filter n ∧ y.frameAt = x.frameAt + k * 65536 ∧
          (x.corrTo - x.corr).natAbs - k = (y.corrTo - y.corr).natAbs ∧ y.corrTo = x.corrTo ∧ (y.corr - x.corr).natAbs ≤ k ∧
          y.dac = max (-8388608) (min 8388607 (y.present + y.corr)) ∧
          (b.on f_CH_CALENDER_enable n = false → y.present = x.target) ∧
          (b.on f_CH_CALENDER_enable n = true → x.rate + k < b.fld f_CH_CALENDER_RATE_rate_m1 n + 1 →
            y.present = x.present ∧ y.rate = x.rate + k) ∧
          (∀ r left, b.on f_CH_CALENDER_enable n = true → r = b.fld f_CH_CALENDER_RATE_rate_m1 n + 1 → r ≤ x.rate + k →
            left = x.rate + k - max r (x.rate + 1) →
            y.rate = left % r ∧ (y.present - x.present).natAbs ≤ (b.fld f_CH_CALENDER_step_m1 n + 1) * (1 + left / r) ∧
            (x.target - y.present).natAbs = (x.target - x.present).natAbs - (b.fld f_CH_CALENDER_step_m1 n + 1) * (1 + left / r)))

/-- R78, R81, R82, R83, R87, R90, R105: a force command in the span, range and mode in force is carried out at once and shows in CH_FORCE_SET; one in another
mode waits for the mode change and ramps from the measured value; one in another range starts the range switch of 8 µs, and one in another span, into range 6 or
out of it the span change; one that meets a range or a span change waits; one to a channel that is DETACHED, in SAFE, disabling or not enabled, or whose engine
runs, or that names a reserved span or range or a range 6 that may not be used, is refused with the sticky bit and fault 0x105 and changes nothing of the force
path. FORCE_COMMAND. The model's choices it rests on: notes/assumptions/1, 13. -/
def Obligations.ForceCommands : Prop :=
  ∀ (s : State) (t m n : Nat) (v : Word), s.canonical → s.powered → n < 512 → s.answers m = true →
    (s.begin t).shielded (regAddr .CH_FORCE_SET n 0) = 0 →
    (((s.begin t).forceOf n).st = .detached ∨ ((s.begin t).forceOf n).st = .safe ∨ (s.begin t).on f_CH_CTL_enable n = false ∨
        ((s.begin t).forceOf n).disabling = true ∨ ((s.begin t).engOf n).state ∈ [EngState.running, .waiting, .starved] ∨ bits v 28 2 = 3 ∨
        (s.begin t).autorange n = false ∧ (bits v 24 3 = 7 ∨ bits v 24 3 = 6 ∧ ((s.begin t).boosterBound n = false ∨ bits v 28 2 ≠ 2)) →
      Completes (.forceCommand t m n v) t s [.regs, .evm, .force, .engs, .que, .memc, .vat, .flt, .cal, .resp] fun b e =>
        ∃ x : State, e = { x.accessFault 0x105 1 (.channel n) m 2 (regAddr .CH_FORCE_SET n 0) with resp := ⟨m, false, 0⟩ } ∧
          x.on f_CH_FORCE_EVENTS_refused n = true ∧ OnlyChanges [.regs] b x ∧ Table.SameBut [regAddr .CH_FORCE_EVENTS n 0] b.regs x.regs) ∧
    ((s.begin t).on f_CH_CTL_enable n = true → ((s.begin t).forceOf n).disabling = false → (s.begin t).on f_CH_MEAS_CTL_autorange n = false →
      ((s.begin t).engOf n).state ∈ [EngState.idle, .armed, .primed] → bits v 28 2 ≠ 3 →
      bits v 24 3 < 6 ∨ bits v 24 3 = 6 ∧ (s.begin t).boosterBound n = true ∧ bits v 28 2 = 2 →
      (((s.begin t).forceOf n).st ∈ [ChState.forcingV, .forcingI, .zeroed] → ((s.begin t).forceOf n).steps = [] →
        (bits v 28 2 = ((s.begin t).forceOf n).span → bits v 24 3 = ((s.begin t).forceOf n).range → bit v 30 = ((s.begin t).forceOf n).mode →
          Completes (.forceCommand t m n v) t s [.regs, .force, .resp] fun b e =>
            e.resp = ⟨m, false, 0⟩ ∧ e.rd .CH_FORCE_SET n = (ForceCmd.ofWord v).word ∧ Table.SameBut [regAddr .CH_FORCE_SET n 0] b.regs e.regs ∧
              e.forceOf n = { b.forceOf n with
                st := if bit v 30 then .forcingI else .forcingV, target := signed 24 (bits v 0 24), fast := false } ∧
              Table.SameBut [n] b.force e.force) ∧
        (bits v 28 2 = ((s.begin t).forceOf n).span → bits v 24 3 = ((s.begin t).forceOf n).range → bit v 30 ≠ ((s.begin t).forceOf n).mode →
          Completes (.forceCommand t m n v) t s [.regs, .force, .resp] fun b e =>
            e.resp = ⟨m, false, 0⟩ ∧ Table.SameBut [regAddr .CH_FORCE_SET n 0] b.regs e.regs ∧
              e.forceOf n = { b.forceOf n with
                st := if bit v 30 then .forcingI else .forcingV, fast := false, steps := [.mode (bit v 30), .ramp (signed 24 (bits v 0 24))] } ∧
              Table.SameBut [n] b.force e.force) ∧
        (bits v 28 2 = ((s.begin t).forceOf n).span → bits v 24 3 ≠ ((s.begin t).forceOf n).range → bits v 24 3 ≠ 6 →
          ((s.begin t).forceOf n).range ≠ 6 → ((s.begin t).forceOf n).mode = false → bit v 30 = false →
          Completes (.forceCommand t m n v) t s [.regs, .force, .resp] fun b e =>
            e.resp = ⟨m, false, 0⟩ ∧ Table.SameBut [regAddr .CH_FORCE_SET n 0] b.regs e.regs ∧
              e.forceOf n = { b.forceOf n with
                before := (b.forceOf n).st, st := .ranging, goal := some false, target := (b.forceOf n).present, due := b.now + 8 * 256000,
                fast := false, steps := [.switch (b.forceOf n).range (bits v 24 3), .aim (signed 24 (bits v 0 24))] } ∧
              Table.SameBut [n] b.force e.force) ∧
        (bits v 28 2 ≠ ((s.begin t).forceOf n).span ∨ bits v 24 3 ≠ ((s.begin t).forceOf n).range ∧
            (bits v 24 3 = 6 ∨ ((s.begin t).forceOf n).range = 6) → ((s.begin t).forceOf n).mode = false → bit v 30 = false →
          Completes (.forceCommand t m n v) t s [.regs, .force, .resp] fun b e =>
            e.resp = ⟨m, false, 0⟩ ∧ Table.SameBut [regAddr .CH_FORCE_SET n 0] b.regs e.regs ∧
              e.forceOf n = { b.forceOf n with
                st := .spanChange, fast := false, goal := some false, due := 0,
                steps := [.ramp 0, .hold (bits v 28 2) (bits v 24 3), .ramp (signed 24 (bits v 0 24))] } ∧
              Table.SameBut [n] b.force e.force)) ∧
      (((s.begin t).forceOf n).st = .ranging ∨ ((s.begin t).forceOf n).st = .spanChange →
        Completes (.forceCommand t m n v) t s [.regs, .force, .resp] fun b e =>
          e.resp = ⟨m, false, 0⟩ ∧ e.forceOf n = { b.forceOf n with pending := some (ForceCmd.ofWord v) } ∧ Table.SameBut [n] b.force e.force ∧
            Table.SameBut [regAddr .CH_FORCE_SET n 0] b.regs e.regs))

/-- R79, R87, R88, R90, R132: a range switch that has run its time leaves the new range in force, the channel in its forcing state and range_done set, with the
counts of autorange at 0; one that is part of a disable ends in ZEROED with the default deckle, or DETACHED where a detach waits; before that time nothing
changes. The hold of a span change ends with the new span and range in force and the ramp that follows it still to run. RANGE_CHANGE_COMPLETE, SPAN_HOLD_END.
The model's choices it rests on: notes/assumptions/1, 20, 57, 82, 91. -/
def Obligations.RangeAndSpanChangesEnd : Prop :=
  ∀ (s : State) (t n : Nat), s.canonical → s.powered → n < 512 →
    (∀ o r rest, ((s.begin t).forceOf n).steps = .switch o r :: rest → (s.begin t).now < ((s.begin t).forceOf n).due →
      Completes (.rangeChangeComplete t n) t s [] fun _ _ => True) ∧
    (∀ o r g, ((s.begin t).forceOf n).steps = [.switch o r] → ((s.begin t).forceOf n).due ≠ 0 → ((s.begin t).forceOf n).due ≤ (s.begin t).now →
      ((s.begin t).forceOf n).st = .ranging → ((s.begin t).forceOf n).goal = some g → ((s.begin t).forceOf n).disabling = false →
      ((s.begin t).forceOf n).pending = none → ((s.begin t).forceOf n).toTop = none → (s.begin t).on f_CH_MEAS_CTL_autorange n = false →
      Completes (.rangeChangeComplete t n) t s [.force, .regs, .seqs] fun b e =>
        let x := b.forceOf n
        let y := e.forceOf n
        y.range = r ∧ y.st = (if g then .forcingI else .forcingV) ∧ y.steps = [] ∧ y.due = 0 ∧ y.goal = none ∧ y.rangingEnd = b.now ∧
          y.mode = x.mode ∧ y.span = x.span ∧ (x.mode = false → y.present = x.present ∧ y.target = x.target ∧ y.dac = x.dac) ∧
          Table.SameBut [n] b.force e.force ∧ e.on f_CH_FORCE_EVENTS_range_done n = true ∧
          Table.SameBut [regAddr .CH_FORCE_EVENTS n 0] b.regs e.regs ∧
          (e.seqOf n).up = 0 ∧ (e.seqOf n).down = 0 ∧ Table.SameBut [n] b.seqs e.seqs) ∧
    (∀ o r, ((s.begin t).forceOf n).steps = [.switch o r] → ((s.begin t).forceOf n).due ≠ 0 → ((s.begin t).forceOf n).due ≤ (s.begin t).now →
      ((s.begin t).forceOf n).st = .ranging → ((s.begin t).forceOf n).goal = none → ((s.begin t).forceOf n).disabling = true →
      Completes (.rangeChangeComplete t n) t s [.force, .regs, .seqs] fun b e =>
        let x := b.forceOf n
        let y := e.forceOf n
        y.range = r ∧ y.st = (if x.detach then .detached else .zeroed) ∧ y.closed = (x.closed && !x.detach) ∧ y.disabling = false ∧ y.steps = [] ∧
          y.target = 0 ∧ Table.SameBut [n] b.force e.force ∧ e.rd .CH_DECKLE n = b.rd .CH_DECKLE_DEFAULT n ∧
          e.on f_CH_FORCE_EVENTS_range_done n = true ∧
          Table.SameBut [regAddr .CH_FORCE_EVENTS n 0, regAddr .CH_DECKLE n 0] b.regs e.regs ∧ Table.SameBut [n] b.seqs e.seqs) ∧
    (∀ sp r rest, ((s.begin t).forceOf n).steps = .hold sp r :: rest → ((s.begin t).forceOf n).due ≠ 0 →
      ((s.begin t).forceOf n).due ≤ (s.begin t).now → (s.begin t).now < ((s.begin t).forceOf n).frameAt + 65536 →
      ((s.begin t).forceOf n).pending = none →
      Completes (.spanHoldEnd t n) t s [.force, .regs] fun b e =>
        e.forceOf n = { b.forceOf n with span := sp, range := r, due := 0, steps := rest } ∧ Table.SameBut [n] b.force e.force ∧
          (r ≠ (b.forceOf n).range → e.on f_CH_FORCE_EVENTS_range_done n = true) ∧
          Table.SameBut [regAddr .CH_FORCE_EVENTS n 0] b.regs e.regs) ∧
    (∀ sp r rest, ((s.begin t).forceOf n).steps = .hold sp r :: rest → (s.begin t).now < ((s.begin t).forceOf n).due →
      (s.begin t).now < ((s.begin t).forceOf n).frameAt + 65536 → Completes (.spanHoldEnd t n) t s [] fun _ _ => True)

/-- R77, R79, R80: an armed channel of a device in RUNNING attaches at its attachment frame with its switch closed, 0 V in SPAN as held and range 5, and the
default deckle; clearing the enable of a channel that forces starts its ramp to zero and drops what was pending; a detach opens the switch from ZEROED, clears
enable first where the channel forces, is held in SAFE and does nothing in DETACHED. ATTACHMENT, ENABLE_CLEAR, DETACH. The model's choices it rests on:
notes/assumptions/1, 15, 57, 107. -/
def Obligations.AttachmentDisableAndDetach : Prop :=
  ∀ (s : State) (t m n : Nat) (v : Word) (codes : List Int), s.canonical → s.powered → n < 512 →
    (((s.begin t).forceOf n).st = .detached → (s.begin t).on f_CH_CTL_attach_armed n = true → (s.begin t).dev.phase = 7 →
      (s.begin t).chanPowered n = true → (s.begin t).frameBegins ((s.begin t).attachFrame n) = true →
      (s.begin t).flt.tileSafe.testBit (n / 64) = false →
      Completes (.attachment t n) t s [.force, .regs, .ress] fun b e =>
        let y := e.forceOf n
        y.st = .zeroed ∧ y.closed = true ∧ y.mode = false ∧ y.range = 5 ∧ y.span = (b.forceOf n).span ∧ y.present = 0 ∧ y.target = 0 ∧
          y.deckle = b.rd .CH_DECKLE_DEFAULT n ∧ Table.SameBut [n] b.force e.force ∧ e.rd .CH_DECKLE n = b.rd .CH_DECKLE_DEFAULT n ∧
          e.on f_CH_CTL_attach_armed n = false ∧ e.fld f_CH_CTL_enable n = b.fld f_CH_CTL_enable n ∧
          Table.SameBut [regAddr .CH_DECKLE n 0, regAddr .CH_CTL n 0] b.regs e.regs) ∧
    (((s.begin t).forceOf n).st ≠ .detached ∨ (s.begin t).on f_CH_CTL_attach_armed n = false ∨ (s.begin t).dev.phase ≠ 7 ∨
        (s.begin t).tb.ready = false → Completes (.attachment t n) t s [] fun _ _ => True) ∧
    (s.answers m = true → (s.begin t).shielded (regAddr .CH_CTL n 0) = 0 → (s.begin t).on f_CH_CTL_enable n = true →
      v = (s.begin t).rd .CH_CTL n &&& 0x3FFFFFFF → ((s.begin t).forceOf n).st = .forcingV ∨ ((s.begin t).forceOf n).st = .forcingI →
      ((s.begin t).engOf n).state = .idle → ((s.begin t).seqOf n).running = false →
      Completes (.enableClear t m n v codes) t s [.force, .regs, .engs, .resp] fun b e =>
        e.resp = ⟨m, false, 0⟩ ∧ Table.SameBut [] b.engs e.engs ∧ e.on f_CH_CTL_enable n = false ∧ Table.SameBut [regAddr .CH_CTL n 0] b.regs e.regs ∧
          e.forceOf n = { b.forceOf n with
            disabling := true, pending := none, goal := none, fast := false
            steps := if (b.forceOf n).mode then [.ramp 0, .mode false, .ramp 0] else [.ramp 0] } ∧
          Table.SameBut [n] b.force e.force) ∧
    (s.answers m = true → (s.begin t).shielded (regAddr .CH_CTL n 0) = 0 →
      (((s.begin t).rd .CH_CTL n ^^^ v) &&& 0xBFFFFFFF = 0) → bit v 30 = true →
      (((s.begin t).forceOf n).st = .zeroed → ((s.begin t).engOf n).state = .idle →
        Completes (.detach t m n v codes) t s [.force, .regs, .engs, .resp] fun b e =>
          e.resp = ⟨m, false, 0⟩ ∧ e.forceOf n = { b.forceOf n with st := .detached, closed := false, detach := false } ∧
            Table.SameBut [n] b.force e.force ∧ Table.SameBut [] b.engs e.engs ∧ ∀ r i, e.rd r i = b.rd r i) ∧
      (((s.begin t).forceOf n).st = .forcingV ∨ ((s.begin t).forceOf n).st = .forcingI → (s.begin t).on f_CH_CTL_enable n = true →
        ((s.begin t).engOf n).state = .idle → ((s.begin t).seqOf n).running = false →
        Completes (.detach t m n v codes) t s [.force, .regs, .engs, .resp] fun b e =>
          e.resp = ⟨m, false, 0⟩ ∧ e.on f_CH_CTL_enable n = false ∧ Table.SameBut [regAddr .CH_CTL n 0] b.regs e.regs ∧
            Table.SameBut [] b.engs e.engs ∧
            e.forceOf n = { b.forceOf n with
              disabling := true, detach := true, pending := none, goal := none, fast := false
              steps := if (b.forceOf n).mode then [.ramp 0, .mode false, .ramp 0] else [.ramp 0] } ∧
            Table.SameBut [n] b.force e.force) ∧
      (((s.begin t).forceOf n).st = .safe →
        Completes (.detach t m n v codes) t s [.force, .regs, .resp] fun b e =>
          e.resp = ⟨m, false, 0⟩ ∧ e.forceOf n = { b.forceOf n with detach := true } ∧ Table.SameBut [n] b.force e.force) ∧
      (((s.begin t).forceOf n).st = .detached → Completes (.detach t m n v codes) t s [.regs, .resp] fun _ e => e.resp = ⟨m, false, 0⟩))

/-- R93, R94, R95, R97, R102, R104: the deckle clamp engages on an attached channel with its event, count and sticky bit and releases to the measured code; the
short-circuit limiter reports a class-B fault; under an opening policy the switch of a channel in SAFE opens near 0 V or after 10 ms; the booster conditions are
class-C faults of the bound channel in range 6; a guard overload is a class-C fault of its octet, whose bit is set. DECKLE_HIT, CLAMP_RELEASE, SHORT,
SHORT_CLEAR, SAFE_SWITCH_OPEN, BOOST_LOOP, BOOST_SENSE, GUARD_OVERLOAD. The model's choices it rests on: notes/assumptions/1, 27, 68, 83, 92. -/
def Obligations.ProtectionOfTheForcePath : Prop :=
  ∀ (s : State) (t n : Nat), s.canonical → s.powered → n < 512 →
    (((s.begin t).forceOf n).clamped = false → ((s.begin t).forceOf n).st ≠ .detached →
      Completes (.deckleHit t n) t s [.force, .regs, .evm, .engs] fun b e =>
        e.forceOf n = { b.forceOf n with clamped := true } ∧ Table.SameBut [n] b.force e.force ∧ e.on f_CH_FORCE_EVENTS_deckle_hit n = true ∧
          e.fld f_CH_DECKLE_COUNT_count n = min 0xFFFFFFFF (b.fld f_CH_DECKLE_COUNT_count n + 1) ∧
          e.evm.asserted = b.evm.asserted ++ [⟨4 * n, 0, none, 0⟩] ∧ ((b.engOf n).state ≠ .idle → (e.engOf n).latch = true) ∧
          Table.SameBut [n] b.engs e.engs ∧
          Table.SameBut [regAddr .CH_FORCE_EVENTS n 0, regAddr .CH_DECKLE_COUNT n 0] b.regs e.regs) ∧
    (∀ meas : Int, ((s.begin t).forceOf n).clamped = true → ((s.begin t).forceOf n).st ≠ .safe →
      Completes (.clampRelease t n meas) t s [.force, .regs] fun b e =>
        let c := max (-8388608) (min 8388607 meas)
        e.forceOf n = { b.forceOf n with
          clamped := false, clampEnd := b.now, present := c, dac := max (-8388608) (min 8388607 (c + (b.forceOf n).corr)) } ∧
          Table.SameBut [n] b.force e.force ∧ e.on f_CH_FORCE_EVENTS_clamp_release n = true ∧
          Table.SameBut [regAddr .CH_FORCE_EVENTS n 0] b.regs e.regs) ∧
    (∀ meas : Int, ((s.begin t).forceOf n).clamped = true → ((s.begin t).forceOf n).st = .safe →
      Completes (.clampRelease t n meas) t s [.force, .regs] fun b e =>
        (e.forceOf n).clamped = false ∧ (e.forceOf n).clampEnd = b.now ∧ (e.forceOf n).present = (b.forceOf n).present ∧
          Table.SameBut [n] b.force e.force ∧ e.on f_CH_FORCE_EVENTS_clamp_release n = true ∧
          Table.SameBut [regAddr .CH_FORCE_EVENTS n 0] b.regs e.regs) ∧
    (((s.begin t).forceOf n).clamped = true ∨ ((s.begin t).forceOf n).st = .detached → Completes (.deckleHit t n) t s [] fun _ _ => True) ∧
    (((s.begin t).forceOf n).short = false → ((s.begin t).forceOf n).st ≠ .detached →
      Completes (.short t n) t s [.force, .regs, .evm, .engs, .que, .memc, .vat, .flt, .cal] fun b e =>
        ∃ x : State, e = x.fault 0x100 2 (.channel n) (0x1108 + n / 64) ∧ x.forceOf n = { b.forceOf n with short := true } ∧
          x.on f_CH_FORCE_EVENTS_short n = true ∧ x.evm.asserted = b.evm.asserted ++ [⟨2048 + 8 * (n / 64) + 3, 0, none, 0⟩] ∧
          OnlyChanges [.force, .regs, .evm] b x) ∧
    (((s.begin t).forceOf n).short = true →
      Completes (.shortClear t n) t s [.force, .flt] fun b e =>
        e.forceOf n = { b.forceOf n with short := false } ∧ Table.SameBut [n] b.force e.force) ∧
    (∀ w, ((s.begin t).forceOf n).st = .safe → ((s.begin t).forceOf n).openWanted = true →
      (w = true ∨ ((s.begin t).forceOf n).safeAt + 10 * 256000000 ≤ (s.begin t).now) →
      Completes (.safeSwitchOpen t n w) t s [.force] fun b e =>
        e.forceOf n = { b.forceOf n with closed := false, openWanted := false } ∧ Table.SameBut [n] b.force e.force) ∧
    (∀ b' n', b' < 16 → (s.begin t).boundChan b' = some n' → ((s.begin t).forceOf n').range = 6 → ((s.begin t).forceOf n').st ≠ .detached →
      (((s.begin t).forceOf n').clamped = false →
        Completes (.boostLoop t b') t s [.force, .regs, .evm, .engs, .que, .memc, .vat, .flt, .cal] fun b e =>
          ∃ x : State, e = x.fault 0x101 3 (.channel n') (0x1108 + n' / 64) ∧ x.on f_CH_FORCE_EVENTS_booster_fault n' = true ∧
            OnlyChanges [.regs, .evm] b x) ∧
      Completes (.boostSense t b') t s [.force, .regs, .evm, .engs, .que, .memc, .vat, .flt, .cal] fun b e =>
        ∃ x : State, e = x.fault 0x102 3 (.channel n') (0x1108 + n' / 64) ∧ x.on f_CH_FORCE_EVENTS_booster_fault n' = true ∧
          OnlyChanges [.regs, .evm] b x) ∧
    (∀ k, k < 64 → (s.begin t).domainOn (5 * (k / 8) + 4) = true →
      Completes (.guardOverload t k) t s [.guards, .force, .regs, .evm, .engs, .que, .memc, .vat, .flt, .cal] fun b e =>
        e.guards.testBit k = true ∧ (∀ j, j ≠ k → e.guards.testBit j = b.guards.testBit j) ∧
          ∃ x : State, e = x.fault 0x103 3 (.octet k) (0x1108 + k / 8) ∧ OnlyChanges [.guards, .evm] b x)

/-- R107 to R110, R131: the calibrated cell moves on by one cell for each 12.8 ms on a slice without a retired cell, and in low-power mode changes places with
the one active cell; a cell that fails is counted and is a fault of the channel served, class B the first time and class C after it; 20 µs after a change of low
power the mode asked for is in force; the range hold of autorange engages below the ceiling. CELL_ROTATION, ADC_CELL, LOW_POWER_SWITCH_END, RANGE_HOLD. The
model's choices it rests on: notes/assumptions/1, 21, 84, 95, 97. -/
def Obligations.CellsAndLowPower : Prop :=
  ∀ (s : State) (t i n : Nat), s.canonical → s.powered → i < 544 → n < 512 →
    (∀ k, (s.begin t).domainOn (sliceDomain i) = true → 0 < k → ((s.begin t).sliceOf i).rotAt + k * 3276800000 ≤ (s.begin t).now →
      (s.begin t).now < ((s.begin t).sliceOf i).rotAt + (k + 1) * 3276800000 →
      ((s.begin t).sliceOf i).failed ≠ 0 ∨ (∀ c, (s.begin t).sliceChannel i = some c → ((s.begin t).seqOf c).lp = false) →
      Completes (.cellRotation t i) t s [.cal] fun b e =>
        e.sliceOf i = { b.sliceOf i with
          rotAt := (b.sliceOf i).rotAt + k * 3276800000
          cell := if (b.sliceOf i).failed = 0 then ((b.sliceOf i).cell + k) % 5 else (b.sliceOf i).cell
          lpCell := if (b.sliceOf i).failed = 0 then none else (b.sliceOf i).lpCell } ∧
          Table.SameBut [i] b.cal.slices e.cal.slices ∧ e.cal = { b.cal with slices := e.cal.slices }) ∧
    (∀ k c a, (s.begin t).domainOn (sliceDomain i) = true → 0 < k → ((s.begin t).sliceOf i).rotAt + k * 3276800000 ≤ (s.begin t).now →
      (s.begin t).now < ((s.begin t).sliceOf i).rotAt + (k + 1) * 3276800000 → ((s.begin t).sliceOf i).failed = 0 →
      (s.begin t).sliceChannel i = some c → ((s.begin t).seqOf c).lp = true → ((s.begin t).sliceOf i).lpCell = some a →
      Completes (.cellRotation t i) t s [.cal] fun b e =>
        e.sliceOf i = { b.sliceOf i with
          rotAt := (b.sliceOf i).rotAt + k * 3276800000
          cell := if k % 2 = 0 then (b.sliceOf i).cell else a
          lpCell := some (if k % 2 = 0 then a else (b.sliceOf i).cell) } ∧
          Table.SameBut [i] b.cal.slices e.cal.slices ∧ e.cal = { b.cal with slices := e.cal.slices }) ∧
    ((s.begin t).now < ((s.begin t).sliceOf i).rotAt + 3276800000 → Completes (.cellRotation t i) t s [] fun _ _ => True) ∧
    (∀ c, (s.begin t).domainOn (sliceDomain i) = true → ((s.begin t).sliceOf i).failed < 5 →
      (s.begin t).sliceChannel i = some c →
      Completes (.adcCell t i) t s [.regs, .evm, .force, .engs, .que, .memc, .vat, .flt, .cal] fun b e =>
        ∃ x : State, e = x.fault 0x200 (if (b.sliceOf i).failed = 0 then 2 else 3) (.channel c) (0x1108 + c / 64) ∧
          x.sliceOf i = { b.sliceOf i with failed := (b.sliceOf i).failed + 1 } ∧ OnlyChanges [.cal] b x ∧
          Table.SameBut [i] b.cal.slices x.cal.slices) ∧
    (∀ u, ((s.begin t).seqOf n).lpUntil = some u → u ≤ (s.begin t).now →
      Completes (.lowPowerSwitchEnd t n) t s [.seqs] fun b e =>
        let q := e.seqOf n
        q.lpUntil = none ∧ q.lp = b.on f_CH_MEAS_CTL_low_power n ∧ q.profile = b.fld f_CH_MEAS_CTL_profile n ∧
          q.running = (b.seqOf n).running ∧ Table.SameBut [n] b.seqs e.seqs ∧
          ((b.seqOf n).running = true → ∃ w, u ≤ w ∧ w < u + (if q.lp then 256000 else 64000) ∧
            (w ≤ b.now → q.startAt = none ∧ q.entry = 0 ∧ q.start = w ∧ q.word = b.rd .CH_MEAS_SEQ n (q.profile * 16)) ∧
            (b.now < w → q.startAt = some w ∧ q.apEnd = 0))) ∧
    (∀ u, ((s.begin t).seqOf n).lpUntil = some u → (s.begin t).now < u → Completes (.lowPowerSwitchEnd t n) t s [] fun _ _ => True) ∧
    ((s.begin t).autorange n = true → ((s.begin t).forceOf n).range < (s.begin t).topOf n →
      Completes (.rangeHold t n) t s [.seqs, .regs] fun b e =>
        e.seqOf n = { b.seqOf n with rangeHold := true } ∧ Table.SameBut [n] b.seqs e.seqs ∧
          e.on f_CH_MEAS_EVENTS_range_hold n = true ∧ Table.SameBut [regAddr .CH_MEAS_EVENTS n 0] b.regs e.regs) ∧
    ((s.begin t).autorange n = false ∨ (s.begin t).topOf n ≤ ((s.begin t).forceOf n).range → Completes (.rangeHold t n) t s [] fun _ _ => True)

/-- R111, R130, R134, R138: setting run starts the sequencer at entry 0 at the next slot boundary of its grid; clearing it with no conversion taken stops it
without a result; clearing autorange while it is in effect starts a change to the ceiling range that keeps the code; an entry word that R138 refuses leaves the
entry, sets the sticky bit and is fault 0x201, and any other is stored. RUN_SET, RUN_CLEAR, AUTORANGE_CLEAR, CH_MEAS_SEQ_WRITE. The model's choices it rests on:
notes/assumptions/1, 57. -/
def Obligations.SequencerSettings : Prop :=
  ∀ (s : State) (t m n : Nat) (v : Word), s.canonical → s.powered → n < 512 → s.answers m = true →
    ((s.begin t).shielded (regAddr .CH_MEAS_CTL n 0) = 0 → v = (s.begin t).rd .CH_MEAS_CTL n ||| 0x80000000 →
      (s.begin t).on f_CH_MEAS_CTL_run n = false → (s.begin t).chanPowered n = true → ((s.begin t).seqOf n).lpUntil = none →
      Completes (.runSet t m n v) t s [.regs, .seqs, .resp] fun b e =>
        let q := e.seqOf n
        e.resp = ⟨m, false, 0⟩ ∧ e.on f_CH_MEAS_CTL_run n = true ∧ Table.SameBut [regAddr .CH_MEAS_CTL n 0] b.regs e.regs ∧
          q.running = true ∧ q.profile = b.fld f_CH_MEAS_CTL_profile n ∧ q.grid = (b.seqOf n).grid ∧ q.lp = (b.seqOf n).lp ∧
          (∃ w, b.now ≤ w ∧ w < b.now + (if q.lp then 256000 else 64000) ∧
            (w = b.now → q.startAt = none ∧ q.entry = 0 ∧ q.start = w ∧ q.word = b.rd .CH_MEAS_SEQ n (q.profile * 16)) ∧
            (b.now < w → q.startAt = some w ∧ q.apEnd = 0)) ∧ Table.SameBut [n] b.seqs e.seqs) ∧
    (∀ codes, (s.begin t).shielded (regAddr .CH_MEAS_CTL n 0) = 0 → v = (s.begin t).rd .CH_MEAS_CTL n &&& 0x7FFFFFFF →
      (s.begin t).on f_CH_MEAS_CTL_run n = true →
      (s.begin t).on f_CH_MEAS_CTL_low_power n = ((s.begin t).seqOf n).lp →
      (((s.begin t).seqOf n).apEnd = 0 ∨
        (s.begin t).now < ((s.begin t).seqOf n).apStart + (if ((s.begin t).seqOf n).lp then 256000 else 64000)) →
      Completes (.runClear t m n v codes) t s [.regs, .seqs, .resp] fun b e =>
        e.resp = ⟨m, false, 0⟩ ∧ e.on f_CH_MEAS_CTL_run n = false ∧ Table.SameBut [regAddr .CH_MEAS_CTL n 0] b.regs e.regs ∧
          e.seqOf n = { b.seqOf n with running := false, apEnd := 0, startAt := none, pend := none, anchored := false, cut := false } ∧
          Table.SameBut [n] b.seqs e.seqs) ∧
    ((s.begin t).shielded (regAddr .CH_MEAS_CTL n 0) = 0 → v = (s.begin t).rd .CH_MEAS_CTL n &&& 0xFDFFFFFF →
      (s.begin t).on f_CH_MEAS_CTL_autorange n = true → (s.begin t).boosterBound n = false → ((s.begin t).forceOf n).st = .forcingV →
      ((s.begin t).forceOf n).mode = false → ((s.begin t).forceOf n).steps = [] →
      ((s.begin t).forceOf n).range ≠ (s.begin t).topOf n →
      Completes (.autorangeClear t m n v) t s [.regs, .force, .resp] fun b e =>
        e.resp = ⟨m, false, 0⟩ ∧ e.on f_CH_MEAS_CTL_autorange n = false ∧ Table.SameBut [regAddr .CH_MEAS_CTL n 0] b.regs e.regs ∧
          (e.forceOf n).st = .ranging ∧ (e.forceOf n).due = b.now + 8 * 256000 ∧ (e.forceOf n).present = (b.forceOf n).present ∧
          (e.forceOf n).steps = [.switch (b.forceOf n).range (b.topOf n), .aim (b.forceOf n).target] ∧
          Table.SameBut [n] b.force e.force) ∧
    (∀ p k, p < 4 → k < 16 → (s.begin t).shielded (regAddr .CH_MEAS_SEQ n (p * 16 + k)) = 0 →
      (mRefused v = false →
        Completes (.chMeasSeqWrite t m n p k v) t s [.regs, .que, .resp] fun b e =>
          e.resp = ⟨m, false, 0⟩ ∧ e.rd .CH_MEAS_SEQ n (p * 16 + k) =
            (b.rd .CH_MEAS_SEQ n (p * 16 + k) &&& ~~~ rwMask .CH_MEAS_SEQ) ||| (v &&& rwMask .CH_MEAS_SEQ) ∧
          Table.SameBut [regAddr .CH_MEAS_SEQ n (p * 16 + k)] b.regs e.regs) ∧
      (mRefused v = true → ((s.begin t).rd .CH_MEAS_SEQ n (p * 16 + k) ^^^ v) &&& rwMask .CH_MEAS_SEQ ≠ 0 →
        Completes (.chMeasSeqWrite t m n p k v) t s [.regs, .evm, .force, .engs, .que, .memc, .vat, .flt, .cal, .resp] fun b e =>
          e.resp = ⟨m, false, 0⟩ ∧ e.rd .CH_MEAS_SEQ n (p * 16 + k) = b.rd .CH_MEAS_SEQ n (p * 16 + k) ∧
            ∃ x : State, x.on f_CH_MEAS_EVENTS_entry_refused n = true ∧ OnlyChanges [.regs] b x ∧
              e.flt = (x.accessFault 0x201 1 (.channel n) m 2 (regAddr .CH_MEAS_SEQ n (p * 16 + k))).flt))

/-- R112, R113, R117 to R122, R185: an entry whose aperture has ended with a conversion in each slot gives its result to the stuff FIFO of the slice that serves
the channel, stamped as captured at its first sampling instant, and the next entry of the profile begins where it ended. R125, R126, R127, R128: a trigger lies
40 ns after the event cycle of its write; a pending restart that cuts moves the grid to its instant, begins entry 0 there and counts the entry it abandons.
ENTRY_COMPLETE, TRIGGER, RESTART. The model's choices it rests on: notes/assumptions/1, 22, 55, 56, 61, 93. -/
def Obligations.EntriesTriggersAndRestarts : Prop :=
  ∀ (s : State) (t m n : Nat) (v : Word) (codes : List Int), s.canonical → s.powered → n < 512 →
    (∀ w pos hold rt, w = ((s.begin t).seqOf n).word → ((s.begin t).seqOf n).running = true → ((s.begin t).seqOf n).entry < 16 → ((s.begin t).seqOf n).apEnd ≠ 0 →
      ((s.begin t).seqOf n).apEnd ≤ (s.begin t).now → codes.length = mCount w ((s.begin t).seqOf n).lp →
      (∀ c ∈ codes, -131072 < c ∧ c < 131071) → mDest w < 0x40 → mMark w = false → mSource w ≠ 0 →
      mSource w ≠ b2n ((s.begin t).forceOf n).mode → ((s.begin t).seqOf n).cap = some (pos, hold, rt) →
      ((s.begin t).seqOf n).stale = false → ((s.begin t).seqOf n).staleEnd ≤ ((s.begin t).seqOf n).apStart →
      (s.begin t).on f_CH_MEAS_CTL_low_power n = ((s.begin t).seqOf n).lp →
      (s.begin t).fld f_CH_MEAS_CTL_profile n = ((s.begin t).seqOf n).profile →
      ((s.begin t).sliceOf ((s.begin t).entrySlice n)).fifo.length < 15 → (s.begin t).que.overStuff ≠ some n →
      Completes (.entryComplete t n codes) t s [.seqs, .cal] fun b e =>
        let q := b.seqOf n
        let y := e.seqOf n
        let i := b.entrySlice n
        y.last = (b.measValue n (meanCode (mCount w q.lp) codes (mSinc w))).f64 ∧
          (∃ it : Item, (e.sliceOf i).fifo = (b.sliceOf i).fifo ++ [⟨it, mDest w, b.cycle⟩] ∧
            bits it.w0 22 9 = n ∧ bits it.w0 18 4 = q.entry ∧ bits it.w0 12 6 = 1 + mSource w ∧ it.w1 = rt.lo ∧ it.w2 = rt.hi ∧
            it.w3 = loWord y.last.toNat ∧ it.w4 = hiWord y.last.toNat ∧ it.w6 = pos ∧ it.w7 = loWord (q.apStart / 256)) ∧
          y.entry = (if b.lenM1 n q.profile ≤ q.entry then 0 else q.entry + 1) ∧ y.start = q.apEnd ∧
          y.word = b.rd .CH_MEAS_SEQ n (q.profile * 16 + y.entry) ∧ Table.SameBut [n] b.seqs e.seqs ∧
          Table.SameBut [i] b.cal.slices e.cal.slices) ∧
    (((s.begin t).seqOf n).apEnd = 0 ∨ (s.begin t).now < ((s.begin t).seqOf n).apEnd →
      Completes (.entryComplete t n codes) t s [] fun _ _ => True) ∧
    (s.answers m = true → (s.begin t).shielded (regAddr .CH_MEAS_TRIG n 0) = 0 → bit v 0 = true →
      Completes (.trigger t m n v) t s [.regs, .seqs, .resp] fun b e =>
        e.resp = ⟨m, false, 0⟩ ∧ e.seqOf n = { b.seqOf n with trigs := (b.seqOf n).trigs ++ [(b.cycle + 1 + 40) * 256] } ∧
          Table.SameBut [n] b.seqs e.seqs ∧ RegsAlike .CH_MEAS_TRIG n b e) ∧
    (∀ r, ((s.begin t).seqOf n).pend = some (r, true) → ((s.begin t).seqOf n).running = true → ((s.begin t).seqOf n).lpUntil = none →
      ((s.begin t).seqOf n).start < r → r ≤ (s.begin t).now → ((s.begin t).seqOf n).apEnd ≠ 0 → mDest ((s.begin t).seqOf n).word ≤ 0x40 →
      Completes (.restart t n) t s [.seqs, .regs] fun b e =>
        let y := e.seqOf n
        y.grid = r ∧ y.entry = 0 ∧ y.start = r ∧ y.pend = none ∧ y.anchored = true ∧ y.cut = true ∧ y.running = true ∧
          y.profile = b.fld f_CH_MEAS_CTL_profile n ∧ Table.SameBut [n] b.seqs e.seqs ∧
          e.fld f_CH_MEAS_CUT_COUNT_count n = min 0xFFFF (b.fld f_CH_MEAS_CUT_COUNT_count n + 1) ∧ e.on f_CH_MEAS_EVENTS_cut n = true ∧
          Table.SameBut [regAddr .CH_MEAS_CUT_COUNT n 0, regAddr .CH_MEAS_EVENTS n 0] b.regs e.regs) ∧
    (((s.begin t).seqOf n).pend = none → Completes (.restart t n) t s [] fun _ _ => True)

/-- R161, R172 to R175: with the HBM controller serving at once, an accepted start in IDLE reads the list's descriptor, primes from CH_SWEEP_ENTRY and waits in
ARMED, for the priming or for the frame of CH_SWEEP_AT; from PRIMED with that list it runs at once and its first unanchored force entry begins at the first DAC
frame boundary at least 300 ns ahead; on a channel that is DETACHED, in SAFE, disabling or not enabled, or for a list without a valid descriptor, it is refused
with fault 0x301; while the engine runs it is ignored; an empty list stops the engine again. Priming loads in IDLE. A stop of an engine that is not IDLE asks
for the next DAC frame boundary, which ends it with HOST. START, PRIME, STOP, DAC_FRAME_BOUNDARY. The model's choices it rests on: notes/assumptions/1, 14, 49,
52, 101. -/
def Obligations.StartsPrimesAndStops : Prop :=
  ∀ (s : State) (t m n : Nat) (v : Word), s.canonical → s.powered → n < 512 → s.answers m = true →
    (s.begin t).shielded (regAddr .CH_SWEEP_CTL n 0) = 0 → (v ^^^ (s.begin t).rd .CH_SWEEP_CTL n) &&& 0x1F000000 = 0 →
    (bit v 31 = true → bit v 30 = false →
      (∀ k, k = (s.begin t).fld f_CH_SWEEP_LIST_list n → (s.begin t).memQuiet → ((s.begin t).engOf n).stopCycle ≠ some (s.begin t).cycle →
        (s.begin t).startBarred n = false →
        (((s.begin t).engOf n).state = .idle → ((s.begin t).listDesc k).1 = true → 0 < ((s.begin t).listDesc k).2.2 →
          bit v 28 = true ∧ (s.begin t).frameMissed ((s.begin t).fld f_CH_SWEEP_AT_frame n) = false ∨ bit v 28 = false →
          Completes (.start t m n v false) t s [.regs, .evm, .force, .engs, .que, .memc, .vat, .flt, .cal, .resp] fun b e =>
            e.resp = ⟨m, false, 0⟩ ∧ ∃ y z : State, OnlyChanges [.regs] b y ∧ RegsAlike .CH_SWEEP_CTL n b y ∧ z = (y.descRead 0 0 k false).1 ∧
              (z.startBarred n = false →
                let x := e.engOf n
                x.state = .armed ∧ x.list = k ∧ x.base = (b.listDesc k).2.1 ∧ x.len = (b.listDesc k).2.2 ∧
                  x.next = b.fld f_CH_SWEEP_ENTRY_entry n ∧ x.buf = [] ∧ x.stack = [] ∧ x.latch = false ∧ x.reason = 0 ∧ x.plan = [] ∧ x.cur = none ∧
                  x.priming = some (if bit v 28 then .startAt else .startNow) ∧
                  x.frame = (if bit v 28 then some (b.fld f_CH_SWEEP_AT_frame n) else none) ∧ e.pendOf (inAdvance n) = 0 ∧
                  OnlyChanges [.engs, .evm, .resp] z e ∧ Table.SameBut [n] z.engs e.engs ∧ Table.SameBut [inAdvance n] z.evm.pend e.evm.pend)) ∧
        (((s.begin t).engOf n).state = .idle → ((s.begin t).listDesc k).1 = true → ((s.begin t).listDesc k).2.2 = 0 →
          Completes (.start t m n v false) t s [.regs, .evm, .force, .engs, .que, .memc, .vat, .flt, .cal, .resp] fun b e =>
            e.resp = ⟨m, false, 0⟩ ∧ ∃ y z : State, OnlyChanges [.regs] b y ∧ RegsAlike .CH_SWEEP_CTL n b y ∧ z = (y.descRead 0 0 k false).1 ∧
              (z.startBarred n = false →
                (e.engOf n).state = .idle ∧ (e.engOf n).reason = 3 ∧ e.on f_CH_SWEEP_EVENTS_empty n = true ∧
                  e.on f_CH_SWEEP_EVENTS_stopped n = true ∧ Table.SameBut [regAddr .CH_SWEEP_EVENTS n 0] z.regs e.regs ∧
                  OnlyChanges [.engs, .evm, .regs, .resp] z e ∧ Table.SameBut [n] z.engs e.engs)) ∧
        (((s.begin t).engOf n).state = .idle ∨ ((s.begin t).engOf n).state = .primed → ((s.begin t).listDesc k).1 = false →
          Completes (.start t m n v false) t s [.regs, .evm, .force, .engs, .que, .memc, .vat, .flt, .cal, .resp] fun b e =>
            ∃ y x : State, OnlyChanges [.regs] b y ∧ RegsAlike .CH_SWEEP_CTL n b y ∧ OnlyChanges [.regs] (y.descRead 0 0 k false).1 x ∧
              e = { x.fault 0x301 1 (.channel n) (0x1100 + n / 64) with resp := ⟨m, false, 0⟩ } ∧
              x.on f_CH_SWEEP_EVENTS_start_refused n = true) ∧
        (∀ w, ((s.begin t).engOf n).state = .primed → ((s.begin t).engOf n).priming = none → ((s.begin t).engOf n).list = k →
          ((s.begin t).listDesc k).1 = true → ((s.begin t).engOf n).stop = none →
          ((s.begin t).engOf n).next = (s.begin t).fld f_CH_SWEEP_ENTRY_entry n → ((s.begin t).engOf n).next < ((s.begin t).engOf n).len →
          bit v 28 = false → ((s.begin t).engOf n).entry? ((s.begin t).engOf n).next = some w →
          (sOp w = 1 ∨ sOp w = 2) → sAnc w = false → sSpan w ≠ 3 → sRange w ≠ 7 →
          Completes (.start t m n v false) t s [.regs, .evm, .force, .engs, .que, .memc, .vat, .flt, .cal, .resp] fun b e =>
            e.resp = ⟨m, false, 0⟩ ∧ ∃ y z : State, OnlyChanges [.regs] b y ∧ RegsAlike .CH_SWEEP_CTL n b y ∧ z = (y.descRead 0 0 k false).1 ∧
              (z.startBarred n = false → z.engOf n = b.engOf n →
                let x := e.engOf n
                x.state = .running ∧ x.next = (b.engOf n).next ∧ x.cur = none ∧ x.reason = 0 ∧ x.stop = none ∧
                  (∃ y' : Exec, x.plan = [y'] ∧ y'.word = w ∧ y'.idx = (b.engOf n).next ∧ y'.ord = 0 ∧
                    y'.start = .at (z.boundaryFrom n (b.now + 76800))) ∧
                  e.pendOf (inAdvance n) = 0 ∧ OnlyChanges [.engs, .evm, .memc, .regs, .resp] z e ∧ Table.SameBut [n] z.engs e.engs))) ∧
      (((s.begin t).engOf n).stopCycle ≠ some (s.begin t).cycle →
        ((s.begin t).engOf n).state = .idle ∨ ((s.begin t).engOf n).state = .primed → (s.begin t).startBarred n = true →
        Completes (.start t m n v false) t s [.regs, .evm, .force, .engs, .que, .memc, .vat, .flt, .cal, .resp] fun b e =>
          ∃ x : State, e = { x.fault 0x301 1 (.channel n) (0x1100 + n / 64) with resp := ⟨m, false, 0⟩ } ∧
            x.on f_CH_SWEEP_EVENTS_start_refused n = true ∧ OnlyChanges [.regs] b x ∧ Table.SameBut [regAddr .CH_SWEEP_EVENTS n 0] b.regs x.regs) ∧
      (((s.begin t).engOf n).stopCycle = some (s.begin t).cycle ∨ ((s.begin t).engOf n).state ≠ .idle ∧ ((s.begin t).engOf n).state ≠ .primed →
        Completes (.start t m n v false) t s [.regs, .resp] fun b e =>
          e.resp = ⟨m, false, 0⟩ ∧ e.on f_CH_SWEEP_EVENTS_start_ignored n = true ∧ Table.SameBut [regAddr .CH_SWEEP_EVENTS n 0] b.regs e.regs)) ∧
    (bit v 31 = false → bit v 30 = false → bit v 29 = true →
      (∀ k, k = (s.begin t).fld f_CH_SWEEP_LIST_list n → (s.begin t).memQuiet → ((s.begin t).engOf n).state = .idle →
        Completes (.prime t m n v) t s [.regs, .evm, .force, .engs, .que, .memc, .vat, .flt, .cal, .resp] fun b e =>
          e.resp = ⟨m, false, 0⟩ ∧ ∃ y z : State, OnlyChanges [.regs] b y ∧ RegsAlike .CH_SWEEP_CTL n b y ∧ z = (y.descRead 0 0 k false).1 ∧
            OnlyChanges [.engs, .resp] z e ∧ Table.SameBut [n] z.engs e.engs ∧
            e.engOf n = { z.engOf n with
              list := k, ok := (b.listDesc k).1, base := (b.listDesc k).2.1, len := if (b.listDesc k).1 then (b.listDesc k).2.2 else 0,
              next := b.fld f_CH_SWEEP_ENTRY_entry n, bufLo := b.fld f_CH_SWEEP_ENTRY_entry n, buf := [], fetch := none, branch := none,
              priming := some .prime }) ∧
      (((s.begin t).engOf n).state ≠ .idle → Completes (.prime t m n v) t s [.regs, .resp] fun b e => RegsAlike .CH_SWEEP_CTL n b e)) ∧
    (bit v 31 = false → bit v 30 = true →
      (((s.begin t).engOf n).startCycle ≠ some (s.begin t).cycle → ((s.begin t).engOf n).state ≠ .idle → ((s.begin t).engOf n).stop = none →
        Completes (.stop t m n v) t s [.engs, .regs, .resp] fun b e =>
          e.resp = ⟨m, false, 0⟩ ∧ RegsAlike .CH_SWEEP_CTL n b e ∧
            e.engOf n = { b.engOf n with stop := some (4, .at b.now), stopCycle := some b.cycle } ∧ Table.SameBut [n] b.engs e.engs) ∧
      (((s.begin t).engOf n).startCycle ≠ some (s.begin t).cycle → ((s.begin t).engOf n).state = .idle →
        Completes (.stop t m n v) t s [.engs, .regs, .resp] fun b e =>
          RegsAlike .CH_SWEEP_CTL n b e ∧ e.engOf n = { b.engOf n with stopCycle := some b.cycle } ∧ Table.SameBut [n] b.engs e.engs)) ∧
    (∀ (u : Nat) (meas : Int), ((s.begin t).forceOf n).frameAt + 65536 ≤ (s.begin t).now → (s.begin t).chanPowered n = true →
      ((s.begin t).engOf n).state = .primed → ((s.begin t).engOf n).plan = [] → ((s.begin t).engOf n).cur = none →
      ((s.begin t).engOf n).marks = [] → ((s.begin t).engOf n).stop = some (4, .at u) → u ≤ (s.begin t).now →
      (s.begin t).on f_CH_SWEEP_CTL_stop_zero n = false →
      Completes (.dacFrameBoundary t n meas) t s [.engs, .regs, .force] fun b e =>
        (e.engOf n).state = .idle ∧ (e.engOf n).reason = 4 ∧ (e.engOf n).stop = none ∧ e.on f_CH_SWEEP_EVENTS_stopped n = true ∧
          Table.SameBut [n] b.engs e.engs ∧ Table.SameBut [n] b.force e.force)

/-- R149, R171 to R174: with the HBM controller serving at once, priming complete gives the buffer its first sixteen entries, or those there are, and the engine
is PRIMED; a start at frame whose instant has come runs, and starves where the priming is not complete; fetched entries join the buffer, and a starved engine
goes on with them. PRIMING_COMPLETE, START_INSTANT, PREFETCH_ARRIVAL. The model's choices it rests on: notes/assumptions/1, 14, 49, 100. -/
def Obligations.PrimingStartInstantsAndPrefetch : Prop :=
  ∀ (s : State) (t n : Nat) (bad : List Nat), s.canonical → s.powered → n < 512 →
    (((s.begin t).engOf n).priming = some .prime →
      Completes (.primingComplete t n bad) t s [.regs, .evm, .force, .engs, .que, .memc, .hbm, .losses, .vat, .flt, .cal] fun b e =>
        let x := b.engOf n
        let k := min 16 (x.len - x.next)
        let r := b.fetched x.base x.next k bad
        let y := e.engOf n
        y.state = .primed ∧ y.priming = none ∧ y.next = x.next ∧ y.bufLo = x.next ∧ y.buf = r.2 ∧
          y.fetch = (if x.next + 16 < x.len then some (x.next + 16, min 16 (x.len - (x.next + 16))) else none) ∧ y.len = x.len ∧
          OnlyChanges [.engs, .memc, .regs] r.1 e ∧ Table.SameBut [n] r.1.engs e.engs ∧
          Table.SameBut [regAddr .MEMC_SR_STATS 0 0, regAddr .MEMC_EVENTS 0 0] r.1.regs e.regs) ∧
    (((s.begin t).engOf n).priming = none → Completes (.primingComplete t n bad) t s [] fun _ _ => True) ∧
    (∀ f, ((s.begin t).engOf n).frame = some f →
      (((s.begin t).engOf n).state = .armed ∨ ((s.begin t).engOf n).state = .starved →
        (s.begin t).came (.raster ⟨f, 0, 0⟩) = false → Completes (.startInstant t n) t s [] fun _ _ => True) ∧
      (((s.begin t).engOf n).state = .armed → (s.begin t).came (.raster ⟨f, 0, 0⟩) = true →
        (((s.begin t).engOf n).priming = none → ((s.begin t).engOf n).plan ≠ [] →
          Completes (.startInstant t n) t s [.engs] fun b e =>
            e.engOf n = { b.engOf n with state := .running, frame := none } ∧ Table.SameBut [n] b.engs e.engs) ∧
        (((s.begin t).engOf n).priming ≠ none →
          Completes (.startInstant t n) t s [.engs, .regs] fun b e =>
            e.engOf n = { b.engOf n with state := .starved, frame := none } ∧ Table.SameBut [n] b.engs e.engs ∧
              e.on f_CH_SWEEP_EVENTS_starved n = true ∧
              e.fld f_CH_SWEEP_STARVE_COUNT_count n = min 0xFFFF (b.fld f_CH_SWEEP_STARVE_COUNT_count n + 1) ∧
              Table.SameBut [regAddr .CH_SWEEP_EVENTS n 0, regAddr .CH_SWEEP_STARVE_COUNT n 0] b.regs e.regs)) ∧
      (((s.begin t).engOf n).state = .starved → (s.begin t).came (.raster ⟨f, 0, 0⟩) = true →
        Completes (.startInstant t n) t s [.engs] fun b e =>
          e.engOf n = { b.engOf n with frame := none } ∧ Table.SameBut [n] b.engs e.engs)) ∧
    (((s.begin t).engOf n).frame = none → Completes (.startInstant t n) t s [] fun _ _ => True) ∧
    (∀ i k, ((s.begin t).engOf n).fetch = some (i, k) → i = ((s.begin t).engOf n).bufLo + ((s.begin t).engOf n).buf.length →
      ((s.begin t).engOf n).state = .running →
      Completes (.prefetchArrival t n bad) t s [.regs, .evm, .force, .engs, .que, .memc, .hbm, .losses, .vat, .flt, .cal] fun b e =>
        let x := b.engOf n
        let r := b.fetched x.base i k bad
        let y := e.engOf n
        y.state = .running ∧ y.next = x.next ∧ x.bufLo ≤ y.bufLo ∧ y.plan = x.plan ∧ y.cur = x.cur ∧
          y.buf = (x.buf ++ r.2).drop (y.bufLo - x.bufLo) ∧ OnlyChanges [.engs, .memc, .regs] r.1 e ∧ Table.SameBut [n] r.1.engs e.engs) ∧
    (∀ i k w, (s.begin t).memQuiet → ((s.begin t).engOf n).fetch = some (i, k) → ((s.begin t).engOf n).buf = [] → ((s.begin t).engOf n).next = i →
      ((s.begin t).engOf n).cur = none → ((s.begin t).engOf n).state = .starved → ((s.begin t).engOf n).frame = none →
      ((s.begin t).engOf n).stop = none → ((s.begin t).engOf n).marks = [] → 0 < k → k ≤ 16 → i + k ≤ ((s.begin t).engOf n).len →
      bad = [] → (s.begin t).listEntry ((s.begin t).engOf n).base i = w → (sOp w = 1 ∨ sOp w = 2) → sAnc w = false → sSpan w ≠ 3 → sRange w ≠ 7 →
      ((s.begin t).engOf n).plan = [] → i = ((s.begin t).engOf n).bufLo →
      Completes (.prefetchArrival t n bad) t s [.regs, .evm, .force, .engs, .que, .memc, .hbm, .losses, .vat, .flt, .cal] fun b e =>
        let r := b.fetched (b.engOf n).base i k bad
        let y := e.engOf n
        y.state = .running ∧ y.next = i ∧ OnlyChanges [.engs, .memc, .regs] r.1 e ∧ Table.SameBut [n] r.1.engs e.engs ∧
          ∃ z : Exec, y.plan = [z] ∧ z.word = w ∧ z.idx = i ∧ z.start = .at (r.1.boundaryFrom n (b.now + 76800))) ∧
    (((s.begin t).engOf n).fetch = none → Completes (.prefetchArrival t n bad) t s [] fun _ _ => True)

/-- R57, R58, R148 to R154: at its look-ahead point an execution arms the one that follows: its own next repetition; the unanchored entry after it, at its end;
the anchored entry after it, at its target or, late under the policy ISSUE, 300 ns after the arming instant and counted. A mark and END before any timed entry
take the execution's end. Before the look-ahead point, and in IDLE, nothing happens. LOOK_AHEAD_POINT. The model's choices it rests on: notes/assumptions/1, 14,
40. -/
def Obligations.LookAheadPoints : Prop :=
  ∀ (s : State) (t n : Nat), s.canonical → s.powered → n < 512 →
    (((s.begin t).engOf n).state = .idle → Completes (.lookAheadPoint t n false) t s [] fun _ _ => True) ∧
    (∀ (d u0 : Nat) (x : Exec), ((s.begin t).engOf n).state = .running →
    ((s.begin t).engOf n).stop = none → ((s.begin t).engOf n).stall = false → ((s.begin t).engOf n).plan = [] → ((s.begin t).engOf n).frame = none →
    ((s.begin t).engOf n).marks = [] →
    ((s.begin t).engOf n).cur = some x → x.lookDone = false → x.start = .at u0 → x.endAt = none → (sOp x.word = 1 ∨ sOp x.word = 2 ∨ sOp x.word = 3) →
    sDwell x.word = d → 0 < d →
    ((s.begin t).cycle < (u0 + d * 65536 - 76800) / 256 → Completes (.lookAheadPoint t n false) t s [] fun _ _ => True) ∧
    ((u0 + d * 65536 - 76800) / 256 ≤ (s.begin t).cycle → x.ord < sRepeat x.word → sAnc x.word = false →
      Completes (.lookAheadPoint t n false) t s [.engs] fun b e =>
        e.engOf n = { b.engOf n with
          next := x.idx, cur := some { x with lookDone := true },
          plan := [(b.newExec x.idx (x.ord + 1) 0 x.word (.at (u0 + d * 65536)) RTime.zero).2] } ∧ Table.SameBut [n] b.engs e.engs) ∧
    (∀ w, (u0 + d * 65536 - 76800) / 256 ≤ (s.begin t).cycle → sRepeat x.word ≤ x.ord → x.idx + 1 < ((s.begin t).engOf n).len →
      ((s.begin t).engOf n).entry? (x.idx + 1) = some w → (sOp w = 1 ∨ sOp w = 2) → sSpan w ≠ 3 → sRange w ≠ 7 →
      (sAnc w = false →
        Completes (.lookAheadPoint t n false) t s [.engs, .memc, .regs] fun b e =>
          (e.engOf n).plan = [(b.newExec (x.idx + 1) 0 0 w (.at (u0 + d * 65536)) RTime.zero).2] ∧ (e.engOf n).next = x.idx + 1 ∧
            (e.engOf n).cur = some { x with lookDone := true } ∧ (e.engOf n).state = .running ∧ (e.engOf n).stop = none ∧
            Table.SameBut [n] b.engs e.engs ∧ Table.SameBut [regAddr .MEMC_SR_STATS 0 0, regAddr .MEMC_EVENTS 0 0] b.regs e.regs) ∧
      (sAnc w = true → sForm w ≠ 3 → (s.begin t).dev.forerunner = false → (s.begin t).tb.ready = true →
        (s.begin t).lateBy (s.begin t).cycleArm ((s.begin t).anchorTarget (s.begin t).cycleArm w) ≤ 0 →
        Completes (.lookAheadPoint t n false) t s [.engs, .memc, .regs] fun b e =>
          let g := b.anchorTarget b.cycleArm w
          (e.engOf n).plan = [(b.newExec (x.idx + 1) 0 0 w (.raster g) g).2] ∧ (e.engOf n).next = x.idx + 1 ∧ (e.engOf n).stop = none ∧
            Table.SameBut [n] b.engs e.engs ∧ Table.SameBut [regAddr .MEMC_SR_STATS 0 0, regAddr .MEMC_EVENTS 0 0] b.regs e.regs) ∧
      (sAnc w = true → sForm w ≠ 3 → (s.begin t).dev.forerunner = false → (s.begin t).tb.ready = true →
        0 < (s.begin t).lateBy (s.begin t).cycleArm ((s.begin t).anchorTarget (s.begin t).cycleArm w) →
        (s.begin t).fld f_CH_SWEEP_CTL_late_policy n = 0 →
        Completes (.lookAheadPoint t n false) t s [.engs, .memc, .regs] fun b e =>
          let g := b.anchorTarget b.cycleArm w
          (∃ y, (e.engOf n).plan = [y] ∧ y.word = w ∧ y.idx = x.idx + 1 ∧ y.start = .at (b.cycleArm + 76800) ∧ y.target = g) ∧
            (e.engOf n).stop = none ∧ Table.SameBut [n] b.engs e.engs ∧ e.on f_CH_SWEEP_EVENTS_late n = true ∧ e.on f_TB_EVENTS_late = true ∧
            e.fld f_CH_SWEEP_LATE_COUNT_count n = min 0xFFFF (b.fld f_CH_SWEEP_LATE_COUNT_count n + 1) ∧
            Table.SameBut [regAddr .CH_SWEEP_LATE_COUNT n 0, regAddr .TB_LATE_COUNT 0 0, regAddr .TB_EVENTS 0 0, regAddr .CH_SWEEP_EVENTS n 0,
              regAddr .MEMC_SR_STATS 0 0, regAddr .MEMC_EVENTS 0 0] b.regs e.regs)) ∧
    (∀ w w', (u0 + d * 65536 - 76800) / 256 ≤ (s.begin t).cycle → (s.begin t).now < u0 + d * 65536 → sRepeat x.word ≤ x.ord →
      x.idx + 2 < ((s.begin t).engOf n).len → ((s.begin t).engOf n).entry? (x.idx + 1) = some w → sOp w = 6 → sAnc w = false →
      ((s.begin t).engOf n).entry? (x.idx + 2) = some w' → sOp w' = 0 → sValue w' % 2 = 0 →
      Completes (.lookAheadPoint t n false) t s [.engs, .memc, .regs] fun b e =>
        (e.engOf n).marks = [⟨sValue w % 65536, sTrig w, .at (u0 + d * 65536)⟩] ∧
          (e.engOf n).stop = some (1, .at (u0 + d * 65536)) ∧ (e.engOf n).plan = [] ∧ Table.SameBut [n] b.engs e.engs ∧
          Table.SameBut [regAddr .MEMC_SR_STATS 0 0, regAddr .MEMC_EVENTS 0 0] b.regs e.regs))

/-- R157, R166, R167: a waiting WAIT_ANCHOR takes one pending advance and ends 300 ns after that event cycle; a mould played per advance places its next point
there; with no advance pending nothing happens. A WAIT_ANCHOR whose timeout has come ends at it with the sticky bit. ADVANCE_CONSUMED, WAIT_TIMEOUT. The model's
choices it rests on: notes/assumptions/1, 40. -/
def Obligations.AdvancesAndTimeouts : Prop :=
  ∀ (s : State) (t n : Nat) (x : Exec), s.canonical → s.powered → n < 512 → ((s.begin t).engOf n).state = .running →
    ((s.begin t).engOf n).stopCycle ≠ some (s.begin t).cycle → ((s.begin t).engOf n).cur = some x → x.endAt = none →
    ((s.begin t).pendOf (inAdvance n) = 0 → Completes (.advanceConsumed t n) t s [] fun _ _ => True) ∧
    ((s.begin t).pendOf (inAdvance n) ≠ 0 → ((s.begin t).engOf n).advCycle ≠ some (s.begin t).cycle → sOp x.word = 4 → sAnc x.word = false →
      sValue x.word = 0 →
      Completes (.advanceConsumed t n) t s [.engs, .evm] fun b e =>
        e.engOf n = { b.engOf n with
          cur := some { x with endAt := some (.at ((b.cycle + 301) * 256)) }, advCycle := some b.cycle } ∧ Table.SameBut [n] b.engs e.engs ∧
          e.pendOf (inAdvance n) + 1 = b.pendOf (inAdvance n) ∧ Table.SameBut [inAdvance n] b.evm.pend e.evm.pend) ∧
    ((s.begin t).pendOf (inAdvance n) ≠ 0 → ((s.begin t).engOf n).advCycle ≠ some (s.begin t).cycle → sOp x.word = 5 → sPlay x.word = 2 →
      (sRepeat x.word = 0xFFFF ∨ x.placed < x.mLen * (sRepeat x.word + 1)) →
      Completes (.advanceConsumed t n) t s [.engs, .evm] fun b e =>
        e.engOf n = { b.engOf n with
          cur := some { x with points := x.points ++ [(x.placed, .at ((b.cycle + 301) * 256))], placed := x.placed + 1 },
          advCycle := some b.cycle } ∧ Table.SameBut [n] b.engs e.engs ∧
          e.pendOf (inAdvance n) + 1 = b.pendOf (inAdvance n) ∧ Table.SameBut [inAdvance n] b.evm.pend e.evm.pend) ∧
    (∀ u, sOp x.word = 4 → sAnc x.word = false → sValue x.word ≠ 0 → x.start = .at u → x.timedOut = false →
      ((s.begin t).now < u + sValue x.word * 65536 → Completes (.waitTimeout t n) t s [] fun _ _ => True) ∧
      (u + sValue x.word * 65536 ≤ (s.begin t).now →
        Completes (.waitTimeout t n) t s [.engs, .regs] fun b e =>
          e.engOf n = { b.engOf n with cur := some { x with endAt := some (.at (u + sValue x.word * 65536)), timedOut := true } } ∧
            Table.SameBut [n] b.engs e.engs ∧ e.on f_CH_SWEEP_EVENTS_wait_timeout n = true ∧
            Table.SameBut [regAddr .CH_SWEEP_EVENTS n 0] b.regs e.regs))

/-- R147, R155, R156, R162, R165, R168: an execution that is due starts the next DAC frame: FORCE_V writes its deckle pair and its force command, HOLD keeps the
command; one that is not due does not start. A point of a mould that the buffer holds whole, after the first, changes only the code of the command and places
the next point. EXECUTION_START, MOULD_POINT. The model's choices it rests on: notes/assumptions/1, 20, 49, 100. -/
def Obligations.ExecutionsAndMouldPoints : Prop :=
  ∀ (s : State) (t n u : Nat) (meas : Int), s.canonical → s.powered → n < 512 → ((s.begin t).engOf n).state = .running →
    ((s.begin t).engOf n).stop = none → ((s.begin t).engOf n).stall = false → ((s.begin t).engOf n).marks = [] →
    ((s.begin t).forceOf n).st = .forcingV → ((s.begin t).forceOf n).mode = false → ((s.begin t).forceOf n).steps = [] →
    ((s.begin t).forceOf n).disabling = false → (s.begin t).on f_CH_CTL_enable n = true → (s.begin t).on f_CH_MEAS_CTL_autorange n = false →
    (s.begin t).on f_CH_CALENDER_enable n = false →
    (∀ x rest, ((s.begin t).engOf n).plan = x :: rest → x.start = .at u →
      ((s.begin t).now < u → Completes (.executionStart t n meas false) t s [] fun _ _ => True) ∧
      (u ≤ (s.begin t).now → sOp x.word = 1 → sPsel x.word = false → sTrig x.word = false → sFast x.word = false → sSpan x.word ≠ 3 →
        sRange x.word < 6 → sSpan x.word = ((s.begin t).forceOf n).span → sRange x.word = ((s.begin t).forceOf n).range →
        Completes (.executionStart t n meas false) t s [.engs, .memc, .regs, .force] fun b e =>
          let w := x.word
          let c := signed 24 (sValue w)
          let y := e.forceOf n
          (e.engOf n).cur = some { x with placed := 1 } ∧ (e.engOf n).plan = rest ∧ (e.engOf n).state = .running ∧
            (e.engOf n).pos = BitVec.ofNat 32 (x.ord % 256 * 2 ^ 24 + x.idx) ∧ Table.SameBut [n] b.engs e.engs ∧
            e.rd .CH_DECKLE n = BitVec.ofNat 32 (sDeckle w * 65537) ∧ e.rd .CH_FORCE_SET n = (ForceCmd.mk false (sSpan w) (sRange w) c false).word ∧
            Table.SameBut [regAddr .CH_DECKLE n 0, regAddr .CH_FORCE_SET n 0, regAddr .MEMC_SR_STATS 0 0, regAddr .MEMC_EVENTS 0 0] b.regs e.regs ∧
            y.st = .forcingV ∧ y.target = c ∧ y.present = c ∧ y.dac = max (-8388608) (min 8388607 (c + y.corr)) ∧
            y.deckle = e.rd .CH_DECKLE n ∧ y.frameAt = u ∧ Table.SameBut [n] b.force e.force) ∧
      (u ≤ (s.begin t).now → sOp x.word = 3 → sPsel x.word = false → sTrig x.word = false → ((s.begin t).forceOf n).fast = false →
        Completes (.executionStart t n meas false) t s [.engs, .memc, .regs, .force] fun b e =>
          (e.engOf n).cur = some { x with placed := 1 } ∧ (e.engOf n).plan = rest ∧ Table.SameBut [n] b.engs e.engs ∧
            (e.forceOf n).target = (b.forceOf n).target ∧ (e.forceOf n).frameAt = u ∧ Table.SameBut [n] b.force e.force ∧
            Table.SameBut [regAddr .MEMC_SR_STATS 0 0, regAddr .MEMC_EVENTS 0 0] b.regs e.regs)) ∧
    (∀ x k rest u0 c, ((s.begin t).engOf n).cur = some x → x.mLen ≤ 256 → x.mCodes.getD (k % x.mLen) none = some c → x.points = (k, .at u) :: rest → sOp x.word = 5 → sPlay x.word = 0 → x.start = .at u0 →
      0 < k → sPointTrig x.word = false → sFast x.word = false → (ForceCmd.ofWord ((s.begin t).rd .CH_FORCE_SET n)).mode = false →
      (ForceCmd.ofWord ((s.begin t).rd .CH_FORCE_SET n)).span ≠ 3 → (ForceCmd.ofWord ((s.begin t).rd .CH_FORCE_SET n)).range < 6 →
      (ForceCmd.ofWord ((s.begin t).rd .CH_FORCE_SET n)).span = ((s.begin t).forceOf n).span →
      (ForceCmd.ofWord ((s.begin t).rd .CH_FORCE_SET n)).range = ((s.begin t).forceOf n).range →
      ((s.begin t).now < u → Completes (.mouldPoint t n meas false) t s [] fun _ _ => True) ∧
      (u ≤ (s.begin t).now →
        Completes (.mouldPoint t n meas false) t s [.engs, .regs, .force] fun b e =>
          let j := k % x.mLen
          let last : Bool := sRepeat x.word ≠ 0xFFFF ∧ x.mLen * (sRepeat x.word + 1) ≤ k + 1
          (e.engOf n).cur = some { x with
              point := k, points := if last then rest else rest ++ [(k + 1, .at (u0 + (k + 1) * (sDwell x.word + 1) * 65536))] } ∧
            (e.engOf n).point = j ∧ (e.engOf n).plays = k / x.mLen ∧ (e.engOf n).mould = sMould x.word ∧ Table.SameBut [n] b.engs e.engs ∧
            e.rd .CH_FORCE_SET n = { ForceCmd.ofWord (b.rd .CH_FORCE_SET n) with code := c }.word ∧
            Table.SameBut [regAddr .CH_FORCE_SET n 0] b.regs e.regs ∧ (e.forceOf n).target = c ∧ (e.forceOf n).present = c ∧
            (e.forceOf n).frameAt = u ∧ Table.SameBut [n] b.force e.force))

/-- R187 to R189, R199, R200: the stamping stage of a channel in STREAM pushes the entry at the head of its stuff FIFO, stuffed in an earlier event cycle, with
a credit into its felt, holds it under STALL and drops and counts it under DROP without one, and reads no empty FIFO; in PACED it reads once for a trigger
instant, and an empty FIFO gives the last entry again with UNDERRUN. An agent of STALL policy pushes the item it holds longest. FELT_PUSH completes for every
producer. The model's choices it rests on: notes/assumptions/1, 41, 58. -/
def Obligations.PushesIntoFelts : Prop :=
  ∀ (s : State) (t f : Nat), s.canonical → s.powered → (s.begin t).que.overFelt ≠ some f →
    (∀ n i q x rest P, n < 512 → i = (s.begin t).sliceIdx n → q = (s.begin t).fld f_CH_RES_CTL_prio n →
      ((s.begin t).resOf n).oldSlice = none → ((s.begin t).resOf n).waiting = false → ((s.begin t).sliceOf i).readCycle ≠ some (s.begin t).cycle →
      (((s.begin t).sliceOf i).fifo = x :: rest → x.felt = f →
        ((s.begin t).on f_CH_RES_CTL_pace n = false ∧ x.cycle < (s.begin t).cycle ∧ P = [] ∨
          (s.begin t).on f_CH_RES_CTL_pace n = true ∧ ∃ u, ((s.begin t).resOf n).paced = [u] ∧ u ≤ (s.begin t).now ∧ x.cycle < u / 256 ∧ P = []) →
        (((s.begin t).feltOf f).accepts (s.begin t).cycle = true → 0 < ((s.begin t).creditOf i f).vat →
          Completes (.feltPush t (.channel n)) t s [.que, .vat, .ress, .cal] fun b e =>
            (let y := b.feltOf f
             e.feltOf f = { y.setLane q (y.lane q ++ [⟨x.item, .vat, b.cycle, 0, false⟩]) with timer := if y.depth = 0 then some b.now else y.timer }) ∧
              (e.creditOf i f).held + 1 = (b.creditOf i f).held ∧ e.sliceOf i = { b.sliceOf i with fifo := rest, readCycle := some b.cycle } ∧
              e.resOf n = { b.resOf n with paced := P, lastEntry := x } ∧ Table.SameBut [f] b.que.felts e.que.felts ∧
              Table.SameBut [i * 64 + f] b.que.credits e.que.credits ∧ Table.SameBut [i] b.cal.slices e.cal.slices ∧ Table.SameBut [n] b.ress e.ress) ∧
        (((s.begin t).feltOf f).accepts (s.begin t).cycle = true → ((s.begin t).creditOf i f).usable (s.begin t).cycle = 0 →
          (s.begin t).on f_CH_RES_CTL_nocredit n = false →
          Completes (.feltPush t (.channel n)) t s [.ress] fun b e =>
            e.resOf n = { b.resOf n with paced := P, waiting := true } ∧ Table.SameBut [n] b.ress e.ress) ∧
        (((s.begin t).creditOf i f).usable (s.begin t).cycle = 0 ∧ (s.begin t).on f_CH_RES_CTL_nocredit n = true ∨
            ((s.begin t).feltOf f).accepts (s.begin t).cycle = false →
          Completes (.feltPush t (.channel n)) t s [.regs, .ress, .cal] fun b e =>
            e.sliceOf i = { b.sliceOf i with fifo := rest, readCycle := some b.cycle } ∧ e.resOf n = { b.resOf n with paced := P, lastEntry := x } ∧
              e.fld f_CH_RES_NOCREDIT_COUNT_count n = min 0xFFFF (b.fld f_CH_RES_NOCREDIT_COUNT_count n + 1) ∧ e.on f_CH_RES_EVENTS_nocredit n = true ∧
              Table.SameBut [regAddr .CH_RES_NOCREDIT_COUNT n 0, regAddr .CH_RES_EVENTS n 0] b.regs e.regs ∧
              Table.SameBut [i] b.cal.slices e.cal.slices ∧ Table.SameBut [n] b.ress e.ress)) ∧
      ((s.begin t).on f_CH_RES_CTL_pace n = false → ((s.begin t).sliceOf i).fifo = [] →
        Completes (.feltPush t (.channel n)) t s [.ress] fun b e => e.resOf n = { b.resOf n with paced := [] } ∧ Table.SameBut [n] b.ress e.ress) ∧
      (∀ u, (s.begin t).on f_CH_RES_CTL_pace n = true → ((s.begin t).sliceOf i).fifo = [] → ((s.begin t).resOf n).paced = [u] → u ≤ (s.begin t).now →
        ((s.begin t).resOf n).lastEntry = x → x.felt = f → ((s.begin t).feltOf f).accepts (s.begin t).cycle = true → 0 < ((s.begin t).creditOf i f).vat →
        Completes (.feltPush t (.channel n)) t s [.regs, .que, .vat, .ress, .cal] fun b e =>
          (let y := b.feltOf f
           e.feltOf f = { y.setLane q (y.lane q ++ [⟨x.item.flag flagUnderrun, .vat, b.cycle, 0, false⟩]) with
             timer := if y.depth = 0 then some b.now else y.timer }) ∧
            e.on f_CH_RES_EVENTS_underrun n = true ∧ (e.resOf n).paced = [] ∧ (e.sliceOf i).fifo = [] ∧
            (e.creditOf i f).held + 1 = (b.creditOf i f).held ∧ Table.SameBut [regAddr .CH_RES_EVENTS n 0] b.regs e.regs ∧
            Table.SameBut [f] b.que.felts e.que.felts)) ∧
    (∀ a it l p, a < 40 → (s.begin t).backlog a = it :: l → f = (s.begin t).fld f_QUE_AGENT_CTL_felt a → p = (s.begin t).fld f_QUE_AGENT_CTL_prio a →
      (s.begin t).on f_QUE_AGENT_CTL_enable a = true → ((s.begin t).feltOf f).accepts (s.begin t).cycle = true →
      Table.rising (s.begin t).que.agents = true →
      (0 < ((s.begin t).creditOf (544 + a) f).vat →
        Completes (.feltPush t (.agent a)) t s [.que, .vat] fun b e =>
          e.backlog a = l ∧ (e.creditOf (544 + a) f).held + 1 = (b.creditOf (544 + a) f).held ∧
            (let y := b.feltOf f
             e.feltOf f = { y.setLane p (y.lane p ++ [⟨it, .vat, b.cycle, 0, false⟩]) with timer := if y.depth = 0 then some b.now else y.timer }) ∧
            Table.SameBut [f] b.que.felts e.que.felts ∧ Table.SameBut [a] b.que.agents e.que.agents) ∧
      (((s.begin t).creditOf (544 + a) f).usable (s.begin t).cycle = 0 → Completes (.feltPush t (.agent a)) t s [] fun _ _ => True)) ∧
    (∀ a, a < 40 → (s.begin t).backlog a = [] → Completes (.feltPush t (.agent a)) t s [] fun _ _ => True) ∧
    ∀ p, isProducer p = true →
      Completes (.feltPush t p) t s [.regs, .evm, .force, .engs, .ress, .que, .memc, .vat, .flt, .cal] fun _ _ => True

/-- R198, R201: a producer that writes a felt and holds fewer than B credits for it asks, once until it is answered. The answer is a batch of B credits, less
where the limit leaves less: vat credits within the reserve or above the spill watermark of the shared pool, else spill-backed ones while spill is enabled and
has place for them, else none; CREDIT_ASK, CREDIT_GRANT complete for every producer and felt. The model's choices it rests on: notes/assumptions/1, 41. -/
def Obligations.CreditsAreAskedAndGranted : Prop :=
  ∀ (s : State) (t p f : Nat), s.canonical → s.powered → p < 584 → f < 64 →
    ((s.begin t).writesFelt p f = true → ((s.begin t).creditOf p f).held < (s.begin t).batch → (∀ c, (p * 64 + f, c) ∉ (s.begin t).que.asks) →
      Completes (.creditAsk t p f) t s [.que] fun b e =>
        e.que = { b.que with asks := b.que.asks ++ [(p * 64 + f, b.cycle)] }) ∧
    ((s.begin t).writesFelt p f = false ∨ (s.begin t).batch ≤ ((s.begin t).creditOf p f).held ∨ (∃ c, (p * 64 + f, c) ∈ (s.begin t).que.asks) →
      Completes (.creditAsk t p f) t s [] fun _ _ => True) ∧
    (∀ c k, (s.begin t).que.asks.find? (fun a => decide (a.1 = p * 64 + f)) = some (p * 64 + f, c) →
      (∀ a ∈ (s.begin t).que.asks, a.2 = c → p ≤ a.1 / 64) → (s.begin t).writesFelt p f = true → ((s.begin t).feltOf f).st = .active →
      (s.begin t).creditHeld f = false →
      k = min (s.begin t).batch ((s.begin t).fld f_QUE_FELT_LIMIT_items f - (s.begin t).feltAlloc f) → 0 < k →
      ((s.begin t).vatAlloc f + (s.begin t).returnedVat f + k ≤ (s.begin t).reserve f ∨
          (s.begin t).fld f_QUE_CTL_spill_wm * 1024 + k ≤ (s.begin t).sharedUsable →
        Completes (.creditGrant t p f) t s [.que] fun b e =>
          e.que.asks = b.que.asks.filter (fun a => decide (a.1 ≠ p * 64 + f)) ∧
            (e.creditOf p f).newVat = (if (b.creditOf p f).cycle < b.cycle then 0 else (b.creditOf p f).newVat) + k ∧
            (e.creditOf p f).held = (b.creditOf p f).held + k ∧ (e.creditOf p f).cycle = b.cycle ∧
            Table.SameBut [p * 64 + f] b.que.credits e.que.credits ∧ e.que.felts = b.que.felts) ∧
      ((s.begin t).reserve f < (s.begin t).vatAlloc f + (s.begin t).returnedVat f + k →
        (s.begin t).sharedUsable < (s.begin t).fld f_QUE_CTL_spill_wm * 1024 + k →
        ((s.begin t).on f_QUE_CTL_spill_en = true → k ≤ (s.begin t).spillFree →
          Completes (.creditGrant t p f) t s [.regs, .que] fun b e =>
            e.que.asks = b.que.asks.filter (fun a => decide (a.1 ≠ p * 64 + f)) ∧
              (e.creditOf p f).newSpill = (if (b.creditOf p f).cycle < b.cycle then 0 else (b.creditOf p f).newSpill) + k ∧
              (e.creditOf p f).held = (b.creditOf p f).held + k ∧ e.que.felts = b.que.felts ∧
              e.on f_QUE_EVENTS_spill_start = (b.on f_QUE_EVENTS_spill_start || decide (b.spillUsed = 0)) ∧
              Table.SameBut [p * 64 + f] b.que.credits e.que.credits ∧ Table.SameBut [regAddr .QUE_EVENTS 0 0] b.regs e.regs) ∧
        ((s.begin t).on f_QUE_CTL_spill_en = true → (s.begin t).spillFree < k →
          Completes (.creditGrant t p f) t s [.regs, .que] fun b e =>
            e.que = { b.que with asks := b.que.asks.filter fun a => decide (a.1 ≠ p * 64 + f) } ∧ e.on f_QUE_EVENTS_spill_full = true ∧
              Table.SameBut [regAddr .QUE_EVENTS 0 0] b.regs e.regs) ∧
        ((s.begin t).on f_QUE_CTL_spill_en = false →
          Completes (.creditGrant t p f) t s [.que] fun b e =>
            e.que = { b.que with asks := b.que.asks.filter fun a => decide (a.1 ≠ p * 64 + f) }))) ∧
    ((∀ c, (p * 64 + f, c) ∉ (s.begin t).que.asks) → Completes (.creditGrant t p f) t s [] fun _ _ => True) ∧
    Completes (.creditAsk t p f) t s [.que] (fun b e => e.que.credits = b.que.credits) ∧
    Completes (.creditGrant t p f) t s [.regs, .que] fun b e => Table.SameBut [p * 64 + f] b.que.credits e.que.credits

/-- R192, R193, R195: a read of word 0 of a HOST felt answers word 0 of the next item, which leaves the felt, and keeps the item in the reader's pop shadow,
from which reads of words 1 to 7 are answered; an empty felt and a felt under TEST_CONSUMER_HOLD answer the idle item with the raster time; a felt with another
consumer answers word 0 of the idle item and is a class-A fault; without a shadow words 1 to 7 are 0 and counted. FELT_POP, POP_SHADOW_READ complete. The
model's choices it rests on: notes/assumptions/1, 63, 64. -/
def Obligations.HostReadsOfFelts : Prop :=
  ∀ (s : State) (t m f : Nat), s.canonical → s.powered → f < 64 → s.answers m = true →
    ((s.begin t).fld f_QUE_FELT_CTL_consumer f = 0 → (s.begin t).consumerHeld f = false → ((s.begin t).feltOf f).takeCycle ≠ some (s.begin t).cycle →
      (∀ q x rest, (s.begin t).frontLane f = some q → ((s.begin t).feltOf f).lane q = x :: rest → x.place ≠ .spill →
        Completes (.feltPop t m f) t s [.que, .resp] fun b e =>
          let y := (b.feltOf f).setLane q rest
          e.resp = ⟨m, false, x.item.w0⟩ ∧ e.popShadow m f = some x.item ∧ (∀ g, g ≠ f → e.popShadow m g = none) ∧
            e.feltOf f = { y with
              takeCycle := some b.cycle, timer := if y.depth = 0 then none else some b.now, emptyAt := if y.depth = 0 then b.now else y.emptyAt } ∧
            Table.SameBut [f] b.que.felts e.que.felts ∧ e.returnedVat f = b.returnedVat f + (if x.place = .vat then 1 else 0)) ∧
      ((s.begin t).frontLane f = none →
        Completes (.feltPop t m f) t s [.que, .resp] fun b e =>
          e.resp = ⟨m, false, 0⟩ ∧ e.popShadow m f = some (idleItem b.raster) ∧ e.que.felts = b.que.felts)) ∧
    ((s.begin t).fld f_QUE_FELT_CTL_consumer f = 0 → (s.begin t).consumerHeld f = true →
      Completes (.feltPop t m f) t s [.que, .resp] fun b e =>
        e.resp = ⟨m, false, 0⟩ ∧ e.popShadow m f = some (idleItem b.raster) ∧ e.que.felts = b.que.felts) ∧
    ((s.begin t).fld f_QUE_FELT_CTL_consumer f ≠ 0 →
      Completes (.feltPop t m f) t s [.regs, .evm, .force, .engs, .que, .memc, .vat, .flt, .cal, .resp] fun b e =>
        e.resp = ⟨m, false, 0⟩ ∧ e.flt = (b.accessFault 0x402 1 (.felt f) m 1 (regAddr .QUE_FELT_POP f 0)).flt ∧
          ∃ r, e.popShadow m f = some (idleItem r)) ∧
    (∀ w, 1 ≤ w → w ≤ 7 →
      (∀ it, (s.begin t).popShadow m f = some it → Completes (.popShadowRead t m f w) t s [.resp] fun _ e => e.resp = ⟨m, false, it.word w⟩) ∧
      ((s.begin t).popShadow m f = none →
        Completes (.popShadowRead t m f w) t s [.regs, .resp] fun b e =>
          e.resp = ⟨m, false, 0⟩ ∧ e.fld f_DEVICE_SNAP_MISS_count = min 0xFFFF (b.fld f_DEVICE_SNAP_MISS_count + 1) ∧
            Table.SameBut [regAddr .DEVICE_SNAP_MISS 0 0] b.regs e.regs)) ∧
    (∀ w, 1 ≤ w → w ≤ 7 → ∀ r, Completes (.popShadowRead t r f w) t s [.regs, .resp] fun b e => e.que = b.que) ∧
    ∀ r, ∃ e, exec (.feltPop t r f) s = .next e

/-- R192, R194: a CAPTURE consumer takes the next item into its burst, which eight items complete, and takes none from a full ring, which asserts memory source
15 once; the oldest complete burst is written to its places of the ring and RING_WR counts its items; a STREAM consumer takes the next item into its flit, which
seven items complete, while the web does not hold it back; a part-filled burst is sent after 1 µs with the felt empty; a write to RING_RD that would exceed the
ring is refused. CAPTURE_TAKE, CAPTURE_WRITE_COMPLETE, STREAM_TAKE, FELT_EMPTY_FOR_1_US, RING_RD_ADVANCE complete for every felt. The model's choices it rests
on: notes/assumptions/1, 43. -/
def Obligations.CaptureAndStreamConsumers : Prop :=
  ∀ (s : State) (t f : Nat), s.canonical → s.powered → f < 64 →
    (∀ q x rest, (s.begin t).frontLane f = some q → ((s.begin t).feltOf f).lane q = x :: rest → x.place ≠ .spill → (s.begin t).mayTake f = true →
      ((s.begin t).feltOf f).st = .active →
      ((s.begin t).fld f_QUE_FELT_CTL_consumer f = 1 → (s.begin t).ringIsFull f = false →
        (((s.begin t).feltOf f).burst.length < 7 →
          Completes (.captureTake t f) t s [.que] fun b e =>
            let y := (b.feltOf f).setLane q rest
            e.feltOf f = { y with
              takeCycle := some b.cycle, timer := if y.depth = 0 then none else some b.now, emptyAt := if y.depth = 0 then b.now else y.emptyAt,
              burst := y.burst ++ [x.item], taken := (y.taken + 1) % 2 ^ 32, ringFull := false } ∧ Table.SameBut [f] b.que.felts e.que.felts) ∧
        (((s.begin t).feltOf f).burst.length = 7 →
          Completes (.captureTake t f) t s [.regs, .que, .memc] fun b e =>
            let y := (b.feltOf f).setLane q rest
            e.feltOf f = { y with
              takeCycle := some b.cycle, timer := if y.depth = 0 then none else some b.now, emptyAt := if y.depth = 0 then b.now else y.emptyAt,
              burst := [], taken := (y.taken + 1) % 2 ^ 32, ringFull := false,
              inflight := y.inflight ++ [(((y.taken + 1) % 2 ^ 32 + 2 ^ 32 - 8) % 2 ^ 32, y.burst ++ [x.item])] } ∧
            Table.SameBut [f] b.que.felts e.que.felts ∧
            Table.SameBut [regAddr .MEMC_SR_STATS 0 0, regAddr .MEMC_EVENTS 0 0] b.regs e.regs)) ∧
      ((s.begin t).fld f_QUE_FELT_CTL_consumer f = 2 → (s.begin t).heldBack f = false →
        (((s.begin t).feltOf f).burst.length < 6 →
          Completes (.streamTake t f) t s [.que] fun b e =>
            let y := (b.feltOf f).setLane q rest
            e.feltOf f = { y with
              takeCycle := some b.cycle, timer := if y.depth = 0 then none else some b.now, emptyAt := if y.depth = 0 then b.now else y.emptyAt,
              burst := y.burst ++ [x.item] } ∧ Table.SameBut [f] b.que.felts e.que.felts) ∧
        (∀ p c, ((s.begin t).feltOf f).burst.length = 6 → (s.begin t).streamHop f = some (p, c) →
          Completes (.streamTake t f) t s [.que, .web] fun b e =>
            let y := (b.feltOf f).setLane q rest
            e.feltOf f = { y with
              takeCycle := some b.cycle, timer := if y.depth = 0 then none else some b.now, emptyAt := if y.depth = 0 then b.now else y.emptyAt,
              burst := [], streamSeq := (y.streamSeq + 1) % 2 ^ 32 } ∧ Table.SameBut [f] b.que.felts e.que.felts ∧
            e.web = (b.sendOn p { b.streamFlit f (y.burst ++ [x.item]) with vc := c - 6 }).web))) ∧
    ((s.begin t).fld f_QUE_FELT_CTL_consumer f = 1 → (s.begin t).mayTake f = true → (s.begin t).ringIsFull f = true → ((s.begin t).feltOf f).depth ≠ 0 →
      ((s.begin t).feltOf f).ringFull = false →
      Completes (.captureTake t f) t s [.que, .evm] fun b e =>
        e.feltOf f = { b.feltOf f with ringFull := true } ∧ Table.SameBut [f] b.que.felts e.que.felts ∧ ∃ a ∈ e.evm.asserted, a.src = 2223) ∧
    ((s.begin t).heldBack f = true → Completes (.streamTake t f) t s [] fun _ _ => True) ∧
    (∀ k it l a, ((s.begin t).feltOf f).inflight = (k, [it]) :: l → (s.begin t).memc.reqs = [] → (s.begin t).memc.st = .service →
      0 < (s.begin t).ringItems f →
      a = (s.begin t).fld f_QUE_FELT_RING_BASE_pages f * 4096 + k % 2 ^ 32 % (s.begin t).ringItems f * 32 →
      (∀ j, j < 32 → ((s.begin t).memAccess 2 a 32).copyAddr (a + j) = none) →
      Completes (.captureWriteComplete t f) t s [.regs, .evm, .force, .engs, .que, .memc, .hbm, .vat, .flt, .cal] fun b e =>
        e.feltOf f = { (b.memAccess 2 a 32).feltOf f with inflight := l, written := ((b.feltOf f).written + 1) % 2 ^ 32 } ∧
          e.regs = (b.memAccess 2 a 32).regs ∧ e.flt = (b.memAccess 2 a 32).flt ∧
          e.stackBytes a 32 = it.bytes ∧ Table.SameBut ((List.range 32).map fun j => a + j) b.hbm e.hbm) ∧
    (((s.begin t).feltOf f).inflight = [] → Completes (.captureWriteComplete t f) t s [] fun _ _ => True) ∧
    (∀ k items l, ((s.begin t).feltOf f).inflight = (k, items) :: l →
      Completes (.captureWriteComplete t f) t s [.regs, .evm, .force, .engs, .que, .memc, .hbm, .losses, .vat, .flt, .cal] fun b e =>
        (e.feltOf f).inflight = l ∧ (e.feltOf f).written = ((b.feltOf f).written + items.length) % 2 ^ 32) ∧
    (((s.begin t).feltOf f).depth = 0 → ((s.begin t).feltOf f).burst ≠ [] →
      (((s.begin t).feltOf f).emptyAt + 256000 ≤ (s.begin t).now →
        ((s.begin t).fld f_QUE_FELT_CTL_consumer f = 1 →
          Completes (.feltEmptyFor1Us t f) t s [.regs, .que, .memc] fun b e =>
            (∃ k, e.feltOf f = { b.feltOf f with burst := [], inflight := (b.feltOf f).inflight ++ [(k, (b.feltOf f).burst)] } ∧
              ((k + (b.feltOf f).burst.length) % 2 ^ 32 = (b.feltOf f).taken % 2 ^ 32 ∨ 2 ^ 32 < (b.feltOf f).burst.length)) ∧
              Table.SameBut [f] b.que.felts e.que.felts ∧
              Table.SameBut [regAddr .MEMC_SR_STATS 0 0, regAddr .MEMC_EVENTS 0 0] b.regs e.regs) ∧
        (∀ p c, (s.begin t).fld f_QUE_FELT_CTL_consumer f = 2 → (s.begin t).streamHop f = some (p, c) →
          Completes (.feltEmptyFor1Us t f) t s [.que, .web] fun b e =>
            e.feltOf f = { b.feltOf f with burst := [], streamSeq := ((b.feltOf f).streamSeq + 1) % 2 ^ 32 } ∧
              Table.SameBut [f] b.que.felts e.que.felts ∧
              e.web = (b.sendOn p { b.streamFlit f (b.feltOf f).burst with vc := c - 6 }).web)) ∧
      ((s.begin t).now < ((s.begin t).feltOf f).emptyAt + 256000 → Completes (.feltEmptyFor1Us t f) t s [] fun _ _ => True)) ∧
    (∀ m v, s.answers m = true → (s.begin t).shielded (regAddr .QUE_FELT_RING_RD f 0) = 0 →
      (((s.begin t).feltOf f).written + 2 ^ 32 - v.toNat) % 2 ^ 32 ≤ (s.begin t).ringItems f →
      Completes (.ringRdAdvance t m f v) t s [.regs, .que, .resp] fun b e =>
        e.resp = ⟨m, false, 0⟩ ∧ e.rd .QUE_FELT_RING_RD f = v ∧ Table.SameBut [regAddr .QUE_FELT_RING_RD f 0] b.regs e.regs ∧
          e.feltOf f = { b.feltOf f with ringFull := (b.feltOf f).ringFull && e.ringIsFull f } ∧ Table.SameBut [f] b.que.felts e.que.felts) ∧
    (∀ m v, s.answers m = true → (s.begin t).shielded (regAddr .QUE_FELT_RING_RD f 0) = 0 → v ≠ (s.begin t).rd .QUE_FELT_RING_RD f →
      (s.begin t).ringItems f < (((s.begin t).feltOf f).written + 2 ^ 32 - v.toNat) % 2 ^ 32 → (s.begin t).ringIsFull f = true →
      Completes (.ringRdAdvance t m f v) t s [.regs, .evm, .force, .engs, .que, .memc, .vat, .flt, .cal, .resp] fun b e =>
        e.resp = ⟨m, false, 0⟩ ∧ e.rd .QUE_FELT_RING_RD f = b.rd .QUE_FELT_RING_RD f ∧
          e.flt = (b.accessFault 0x004 1 .none m 2 (regAddr .QUE_FELT_RING_RD f 0)).flt) ∧
    (∀ c ∈ [Instr.captureTake t f, .streamTake t f, .feltEmptyFor1Us t f],
      Completes c t s [.regs, .evm, .force, .engs, .que, .memc, .vat, .web, .flt, .cal] fun _ _ => True) ∧
    ∀ m v, Completes (.ringRdAdvance t m f v) t s [.regs, .evm, .force, .engs, .que, .memc, .vat, .flt, .cal, .resp] fun _ _ => True

/-- R201 to R203, R206, R208, R209: a refill read brings a spilled item back from its place in HBM into its place in the lane, or removes it where its data
cannot be corrected; the tail timer at 2^n µs sets the sticky bit, restarts and makes the watermark source of the felt's pair fire in a later event cycle;
setting enable opens a felt that is OFF or DRAINED and is refused while it drains; clearing it makes the felt drain; an empty draining felt with nothing on its
way is DRAINED. REFILL, TAIL_TIMEOUT, WATERMARK_EVENT, FELT_ENABLE, FELT_DISABLE, DRAINED complete for every felt. The model's choices it rests on:
notes/assumptions/1, 58, 103. -/
def Obligations.FeltStatesAndSpill : Prop :=
  ∀ (s : State) (t f : Nat), s.canonical → s.powered → f < 64 →
    (∀ q l x l' a, ((s.begin t).feltOf f).lane q = l ++ x :: l' → (∀ y ∈ l, y.place ≠ .spill) → x.place = .spill → (∀ y ∈ l', y.place ≠ .spill) →
      l.length ≤ 256 ∨ x.begun = true → (∀ r, q < r → r < 8 → refillDue (((s.begin t).feltOf f).lane r) = false) → q < 8 →
      ((s.begin t).feltOf f).inPlace .refill ≤ 192 → ((s.begin t).feltOf f).st = .active →
      (s.begin t).memQuiet → (s.begin t).srEntering = false → Table.rising ((s.begin t).feltOf f).lanes = true → a = (s.begin t).spillAddr x.slot →
      (((s.begin t).memRead (portMaster 5) 5 a 32 []).1.feltOf f = (s.begin t).feltOf f →
        Completes (.refill t f []) t s [.regs, .evm, .force, .engs, .que, .memc, .vat, .flt, .cal] fun b e =>
          let r := (b.memRead (portMaster 5) 5 a 32 []).1
          e.feltOf f = (b.feltOf f).setLane q (l ++ { x with item := Item.ofBytes (r.hbmBytes a 32), place := .refill } :: l') ∧
            e.regs = r.regs ∧ e.flt = r.flt ∧ Table.SameBut [f] r.que.felts e.que.felts ∧ e.que.credits = r.que.credits) ∧
      (∀ r X, r = (s.begin t).memRead (portMaster 5) 5 a 32 [0] → r.2 ≠ [] → r.1.feltOf f = (s.begin t).feltOf f →
        X = ((r.1.setFelt f (((s.begin t).feltOf f).setLane q (l ++ l'))).giveBack f true 1).fault 0x605 2 (.felt f) 0x111B →
        (X.feltOf f).st = .active →
        Completes (.refill t f [0]) t s [.regs, .evm, .force, .engs, .que, .memc, .vat, .flt, .cal] fun _ e =>
          e.flt = X.flt ∧ e.regs = X.regs ∧ (e.feltOf f).depth = (X.feltOf f).depth ∧ e.que.credits = X.que.credits)) ∧
    ((∀ q x, x ∈ ((s.begin t).feltOf f).lane q → x.place ≠ .spill) → ∀ bad, Completes (.refill t f bad) t s [] fun _ _ => True) ∧
    (∀ bad, Completes (.refill t f bad) t s [.regs, .evm, .force, .engs, .que, .memc, .hbm, .losses, .vat, .web, .flt, .cal] fun _ _ => True) ∧
    ((s.begin t).tailDue f = false → Completes (.tailTimeout t f) t s [] fun _ _ => True) ∧
    ((s.begin t).tailDue f = true → (s.begin t).fld f_QUE_FELT_CTL_consumer f = 0 ∨ ((s.begin t).feltOf f).burst = [] →
      Completes (.tailTimeout t f) t s [.regs, .que] fun b e =>
        e.on f_QUE_FELT_WM_STATUS_tail f = true ∧ e.que.wmDue = b.que.wmDue ++ [(f / 2, b.cycle)] ∧
          e.feltOf f = { b.feltOf f with timer := some b.now } ∧ Table.SameBut [f] b.que.felts e.que.felts ∧
          Table.SameBut [regAddr .QUE_FELT_WM_STATUS f 0] b.regs e.regs) ∧
    ((s.begin t).tailDue f = true →
      Completes (.tailTimeout t f) t s [.regs, .evm, .force, .engs, .que, .memc, .vat, .web, .flt, .cal] fun _ _ => True) ∧
    (∀ k, k < 32 →
      (∀ c l, (s.begin t).que.wmDue = (k, c) :: l → c < (s.begin t).cycle → (k, c) ∉ l →
        Completes (.watermarkEvent t k) t s [.que, .evm] fun b e =>
          e.que = { b.que with wmDue := l } ∧ ∃ a ∈ e.evm.asserted, a.src = 2272 + k) ∧
      ((∀ c, (k, c) ∈ (s.begin t).que.wmDue → (s.begin t).cycle ≤ c) → Completes (.watermarkEvent t k) t s [] fun _ _ => True) ∧
      Completes (.watermarkEvent t k) t s [.que, .evm] fun b e => e.que.felts = b.que.felts) ∧
    (∀ m v, s.answers m = true → (s.begin t).shielded (regAddr .QUE_FELT_CTL f 0) = 0 → (v ^^^ (s.begin t).rd .QUE_FELT_CTL f) &&& 0x7FFFFFFF = 0 →
      (bit v 31 = true → (s.begin t).on f_QUE_FELT_CTL_enable f = false → (s.begin t).fld f_QUE_FELT_CTL_consumer f ≠ 1 ∨ (s.begin t).ringBad f = false →
        (((s.begin t).feltOf f).st ≠ .draining →
          Completes (.feltEnable t m f v) t s [.regs, .que, .resp] fun b e =>
            e.resp = ⟨m, false, 0⟩ ∧ e.rd .QUE_FELT_CTL f = v ∧ e.feltOf f = { b.feltOf f with st := .active, streamSeq := 0 } ∧
              Table.SameBut [f] b.que.felts e.que.felts ∧ Table.SameBut [regAddr .QUE_FELT_CTL f 0] b.regs e.regs)) ∧
      (bit v 31 = true → (s.begin t).on f_QUE_FELT_CTL_enable f = false →
        ((s.begin t).feltOf f).st = .draining ∨ (s.begin t).fld f_QUE_FELT_CTL_consumer f = 1 ∧ (s.begin t).ringBad f = true →
        Completes (.feltEnable t m f v) t s [.regs, .evm, .force, .engs, .que, .memc, .vat, .flt, .cal, .resp] fun b e =>
          e.resp = ⟨m, false, 0⟩ ∧ e.on f_QUE_FELT_CTL_enable f = false ∧
            e.flt = (b.accessFault 0x402 1 (.felt f) m 2 (regAddr .QUE_FELT_CTL f 0)).flt) ∧
      (bit v 31 = false → (s.begin t).on f_QUE_FELT_CTL_enable f = true → ((s.begin t).feltOf f).st = .active →
        Completes (.feltDisable t m f v) t s [.regs, .que, .resp] fun b e =>
          e.resp = ⟨m, false, 0⟩ ∧ e.rd .QUE_FELT_CTL f = v ∧ e.feltOf f = { b.feltOf f with st := .draining, closing := some b.cycle } ∧
            Table.SameBut [f] b.que.felts e.que.felts ∧ Table.SameBut [regAddr .QUE_FELT_CTL f 0] b.regs e.regs)) ∧
    (∀ m v, ∀ c ∈ [Instr.feltEnable t m f v, .feltDisable t m f v],
      Completes c t s [.regs, .evm, .force, .engs, .que, .memc, .vat, .flt, .cal, .resp] fun _ _ => True) ∧
    (((s.begin t).feltOf f).st = .draining → ((s.begin t).feltOf f).closing = none → ((s.begin t).feltOf f).depth = 0 →
      ((s.begin t).feltOf f).burst = [] → ((s.begin t).feltOf f).inflight = [] →
      Completes (.drained t f) t s [.que] fun b e =>
        e.feltOf f = { b.feltOf f with st := .drained } ∧ Table.SameBut [f] b.que.felts e.que.felts ∧
          e.que.wmDue = b.que.wmDue ++ [(f / 2, b.cycle)]) ∧
    (((s.begin t).feltOf f).st ≠ .draining ∨ ((s.begin t).feltOf f).closing ≠ none ∨ ((s.begin t).feltOf f).depth ≠ 0 ∨
        ((s.begin t).feltOf f).burst ≠ [] ∨ ((s.begin t).feltOf f).inflight ≠ [] →
      Completes (.drained t f) t s [] fun _ _ => True)

/-- R216, R219, R222: a write with the fire bit by a requester that the routing channel is granted to fires it once in an event cycle: a Held input that it
targets counts one firing more, the channel counts its firing, and nothing else of it changes; a channel that is disabled or has fired in the event cycle does
not fire. The same write by another requester changes nothing of the channel, records who was refused and is logged. FIRE completes for every requester. The
model's choices it rests on: notes/assumptions/1, 35. -/
def Obligations.FiringARoutingChannel : Prop :=
  ∀ (s : State) (t m c : Nat) (v : Word), s.canonical → s.powered → c < 256 → s.answers m = true → (s.begin t).shielded (regAddr .EVM_RC_CTL c 0) = 0 →
    bit v 30 = true →
    ((s.begin t).rcGranted m c = true →
      (∀ j i, j < 8 → bit (((s.begin t).rcState c).headD 0) 31 = true → bit (((s.begin t).rcState c).headD 0) 26 = false →
        bit (((s.begin t).rcState c).headD 0) 28 = false → (s.begin t).domainOn 55 = true → ((s.begin t).rcDynOf c).lastFire ≠ some (s.begin t).cycle →
        (∀ k, k < 8 → bit (((s.begin t).rcState c).getD (k + 1) 0) 31 = decide (k = j)) → bits (((s.begin t).rcState c).getD (j + 1) 0) 0 11 = i →
        inputHeld i = true → (s.begin t).inputOn i = true → (s.begin t).pendOf i < 15 →
        Completes (.fire t m c v) t s [.evm, .resp] fun b e =>
          e.resp = ⟨m, false, 0⟩ ∧ e.pendOf i = b.pendOf i + 1 ∧ Table.SameBut [i] b.evm.pend e.evm.pend ∧
            e.rcDynOf c = { b.rcDynOf c with fires := ((b.rcDynOf c).fires + 1) % 65536, lastFire := some b.cycle } ∧
            Table.SameBut [c] b.evm.rcs e.evm.rcs ∧ e.evm.chainNo = b.evm.chainNo + 1 ∧
            e.evm = { b.evm with pend := e.evm.pend, rcs := e.evm.rcs, chains := e.evm.chains, chainNo := e.evm.chainNo }) ∧
      (bit (((s.begin t).rcState c).headD 0) 31 = false ∨ ((s.begin t).rcDynOf c).lastFire = some (s.begin t).cycle ∨ (s.begin t).domainOn 55 = false →
        Completes (.fire t m c v) t s [.resp] fun _ e => e.resp = ⟨m, false, 0⟩)) ∧
    ((s.begin t).rcGranted m c = false →
      Completes (.fire t m c v) t s [.regs, .evm, .force, .engs, .que, .memc, .vat, .flt, .cal, .resp] fun b e =>
        e.resp = ⟨m, false, 0⟩ ∧ e.evm.lastMaster = m ∧ e.evm.lastChannel = c ∧ e.evm.rcs = b.evm.rcs ∧ e.evm.pend = b.evm.pend ∧
          e.evm.staged = b.evm.staged ∧ e.on f_EVM_EVENTS_refused = true ∧ e.rd .EVM_RC_CTL c = b.rd .EVM_RC_CTL c ∧
          let x := State.stick { b with evm := { b.evm with lastMaster := m, lastChannel := c } } f_EVM_EVENTS_refused
          e.flt = (x.accessFault 0x500 1 (.other c) m 2 (regAddr .EVM_RC_CTL c 0)).flt) ∧
    ∀ r w, ∃ e, exec (.fire t r c w) s = .next e

/-- R217, R218, R219: a write of a target or of the far-fork offset stages the value and changes nothing in service; a write of EVM_RC_CTL with neither commit
nor fire sets enable and trace at once and stages the rest of its value; a commit puts every staged value with the enable and trace bits of the write in
service, and keeps what was in service before for the event cycle; a commit that R218 refuses discards what is staged and is logged. STAGE, RC_DIRECT_WRITE,
COMMIT. The model's choices it rests on: notes/assumptions/1. -/
def Obligations.StagingAndCommits : Prop :=
  ∀ (s : State) (t m c : Nat) (v : Word), s.canonical → s.powered → c < 256 → s.answers m = true → (s.begin t).rcGranted m c = true →
    Table.rising (s.begin t).evm.staged = true → (s.begin t).boot.amend.shieldAt ≠ (s.begin t).cycle →
    (∀ j, j < 8 →
      Completes (.stage t m (regAddr .EVM_RC_TARGET c j) v) t s [.evm, .resp] fun b e =>
        e.resp = ⟨m, false, 0⟩ ∧ e.stagedOr .EVM_RC_TARGET c j &&& 0x800007FF = v &&& 0x800007FF ∧
          e.evm = { b.evm with staged := e.evm.staged } ∧ Table.SameBut [regAddr .EVM_RC_TARGET c j] b.evm.staged e.evm.staged) ∧
    Completes (.stage t m (regAddr .EVM_RC_FAR_OFS c 0) v) t s [.evm, .resp] (fun b e =>
      e.resp = ⟨m, false, 0⟩ ∧ e.stagedOr .EVM_RC_FAR_OFS c 0 = v ∧
        e.evm = { b.evm with staged := e.evm.staged } ∧ Table.SameBut [regAddr .EVM_RC_FAR_OFS c 0] b.evm.staged e.evm.staged) ∧
    (bit v 30 = false → bit v 29 = false →
      ((s.begin t).stagedOr .EVM_RC_CTL c 0 ^^^ (s.begin t).rd .EVM_RC_CTL c) &&& ~~~ 0x1BC00FFF = 0 →
      Completes (.rcDirectWrite t m c v) t s [.regs, .evm, .resp] fun b e =>
        e.resp = ⟨m, false, 0⟩ ∧ e.rd .EVM_RC_CTL c = (b.rd .EVM_RC_CTL c &&& ~~~ 0x84000000) ||| (v &&& 0x84000000) ∧
          Table.SameBut [regAddr .EVM_RC_CTL c 0] b.regs e.regs ∧ e.stagedOr .EVM_RC_CTL c 0 &&& 0x1BC00FFF = v &&& 0x1BC00FFF ∧
          Table.SameBut [regAddr .EVM_RC_CTL c 0] b.evm.staged e.evm.staged ∧
          e.evm = { b.evm with staged := e.evm.staged, rcs := e.evm.rcs } ∧ Table.SameBut [c] b.evm.rcs e.evm.rcs) ∧
    (∀ ctl, bit v 30 = false → bit v 29 = true →
      ((s.begin t).stagedOr .EVM_RC_CTL c 0 ^^^ (s.begin t).rd .EVM_RC_CTL c) &&& ~~~ 0x1BC00FFF = 0 →
      ctl = ((s.begin t).rd .EVM_RC_CTL c &&& ~~~ 0x9FC00FFF) ||| (v &&& 0x9FC00FFF) →
      ((s.begin t).rcBad (rcOpen (s.begin t) c)
          (ctl :: (List.range 8).map (fun j => (s.begin t).stagedOr .EVM_RC_TARGET c j) ++ [(s.begin t).stagedOr .EVM_RC_FAR_OFS c 0]) = false →
        Completes (.commit t m c v) t s [.regs, .evm, .resp] fun b e =>
          e.resp = ⟨m, false, 0⟩ ∧ e.rd .EVM_RC_CTL c = ctl ∧ (∀ j, j < 8 → e.rd .EVM_RC_TARGET c j = b.stagedOr .EVM_RC_TARGET c j) ∧
            e.rd .EVM_RC_FAR_OFS c = b.stagedOr .EVM_RC_FAR_OFS c 0 ∧ Table.SameBut (rcAddrs c) b.regs e.regs ∧
            (∀ x ∈ e.evm.staged, x.1 ∉ rcAddrs c) ∧ Table.SameBut (rcAddrs c) b.evm.staged e.evm.staged ∧
            e.rcState c = b.rcState c ∧ Table.SameBut [c] b.evm.rcs e.evm.rcs ∧
            e.evm = { b.evm with staged := e.evm.staged, rcs := e.evm.rcs }) ∧
      ((s.begin t).rcBad (rcOpen (s.begin t) c)
          (ctl :: (List.range 8).map (fun j => (s.begin t).stagedOr .EVM_RC_TARGET c j) ++ [(s.begin t).stagedOr .EVM_RC_FAR_OFS c 0]) = true →
        Completes (.commit t m c v) t s [.regs, .evm, .force, .engs, .que, .memc, .vat, .flt, .cal, .resp] fun b e =>
          e.resp = ⟨m, false, 0⟩ ∧ (∀ x ∈ e.evm.staged, x.1 ∉ rcAddrs c) ∧ e.evm.lastMaster = m ∧ e.evm.lastChannel = c ∧
            e.rd .EVM_RC_CTL c = b.rd .EVM_RC_CTL c ∧ (∀ j, j < 8 → e.rd .EVM_RC_TARGET c j = b.rd .EVM_RC_TARGET c j) ∧
            e.rd .EVM_RC_FAR_OFS c = b.rd .EVM_RC_FAR_OFS c ∧ e.on f_EVM_EVENTS_refused = true ∧
            let x := State.stick { b with evm := { b.evm with staged := e.evm.staged, lastMaster := m, lastChannel := c } } f_EVM_EVENTS_refused
            e.flt = (x.accessFault 0x500 1 (.other c) m 2 (regAddr .EVM_RC_CTL c 0)).flt)) ∧
    ∀ r w, ∀ k ∈ [Instr.rcDirectWrite t r c w, .commit t r c w, .stage t r (regAddr .EVM_RC_FAR_OFS c 0) w], ∃ e, exec k s = .next e

/-- R215, R227, R234: one pending firing of a Single-class input is delivered in an event cycle: an EVIO output input lets its pin act later; an injection
slot's input injects, or is refused where TEST permission is missing. With no firing pending, or one delivered in the event cycle, nothing happens. The
re-entries whose event cycle has come are asserted again in it, in their order, and those to come wait on. TASK_SINGLE_DELIVERY, RE_ENTRY. The model's choices
it rests on: notes/assumptions/1, 23. -/
def Obligations.SingleClassDeliveriesAndReEntries : Prop :=
  ∀ (s : State) (t i : Nat), s.canonical → s.powered → i < 1792 → Table.rising (s.begin t).evm.served = true →
    Table.rising (s.begin t).evm.carried = true →
    (∃ e, exec (.taskSingleDelivery t i) s = .next e) ∧
    Completes (.reEntry t) t s [.evm] (fun b e =>
      e.evm.asserted = b.evm.asserted ++ b.evm.reentry.filter (fun a => decide (a.at_ ≤ b.cycle)) ∧
        (∀ a, a ∈ e.evm.reentry ↔ a ∈ b.evm.reentry ∧ b.cycle < a.at_) ∧
        e.evm = { b.evm with asserted := e.evm.asserted, reentry := e.evm.reentry }) ∧
    (inputSingle i = false ∨ (s.begin t).pendOf i = 0 ∨ (Table.get (0, 0) i (s.begin t).evm.served).1 = (s.begin t).cycle + 1 →
      Completes (.taskSingleDelivery t i) t s [] fun _ _ => True) ∧
    ((s.begin t).pendOf i ≠ 0 → (Table.get (0, 0) i (s.begin t).evm.served).1 ≠ (s.begin t).cycle + 1 →
      (∀ j, i = 1600 + j → j < 16 → (s.begin t).evioDrives j = true →
        Completes (.taskSingleDelivery t i) t s [.evm] fun b e =>
          e.pendOf i + 1 = b.pendOf i ∧ Table.SameBut [i] b.evm.pend e.evm.pend ∧
            e.evioOf j = { b.evioOf j with due := (b.evioOf j).due ++ [b.cycle] } ∧ Table.SameBut [j] b.evm.evio e.evm.evio ∧
            Table.get (0, 0) i e.evm.served = (b.cycle + 1, 1) ∧ Table.get [] i e.evm.carried = (Table.get [] i b.evm.carried).drop 1 ∧
            e.evm.asserted = b.evm.asserted ∧ e.evm.reentry = b.evm.reentry) ∧
      (∀ j sc, i = 1752 + j → j < 16 → (s.begin t).dev.test = true → 1 ≤ (s.begin t).fld f_FLT_INJ_CTL_class j →
        (s.begin t).fld f_FLT_INJ_CTL_class j ≤ 5 → scopeOf ((s.begin t).fld f_FLT_INJ_CTL_scope j) ((s.begin t).fld f_FLT_INJ_CTL_index j) = sc →
        sc ≠ none → faultCodes.contains ((s.begin t).fld f_FLT_INJ_CTL_code j) = true → Table.get [] i (s.begin t).evm.carried = [] →
        Completes (.taskSingleDelivery t i) t s [.evm, .flt] fun b e =>
          e.pendOf i + 1 = b.pendOf i ∧ Table.SameBut [i] b.evm.pend e.evm.pend ∧
            e.injOf j = { b.injOf j with fires := ((b.injOf j).fires + 1) % 65536, due := some (b.cycle + 1) } ∧
            Table.SameBut [j] b.flt.inj e.flt.inj ∧ (∃ a ∈ e.evm.asserted, a.src = 2236 + j) ∧ e.flt = { b.flt with inj := e.flt.inj }))

/-- R228, R230, R231, R278: the oldest waiting far fork is sent on every tree port of its group with its group, time, channel and class, and a member device
delivers it to itself; an event broadcast on a tree port that is ACTIVE goes on unchanged to the other tree ports, unless it has travelled too far, and is
received by a member, while one on another port is discarded and logged. The deliveries of a group whose time has come assert the group's source once and are
removed. FAR_FORK_SEND, EVENT_BCAST, FAR_FORK_DELIVERY. The model's choices it rests on: notes/assumptions/1, 55. -/
def Obligations.FarForks : Prop :=
  ∀ (s : State) (t g c : Nat) (d : RTime) (sec : Bool), s.canonical → s.powered → g < 16 → c < 256 →
    ((s.begin t).evm.farTx = [] → Completes (.farForkSend t) t s [] fun _ _ => True) ∧
    (∀ rest, (s.begin t).evm.farTx = ⟨g, d, c, sec⟩ :: rest → (s.begin t).on f_EVM_FAR_GROUP_member g = false →
      Completes (.farForkSend t) t s [.evm, .web] fun b e =>
        e.evm = { b.evm with farTx := rest } ∧
          (∀ p, p < 4 → e.portOf p =
            if bit (b.rd .WEB_BCAST g) p then { b.portOf p with qBcast := (b.portOf p).qBcast ++ [b.bcastFlit g d c sec] } else b.portOf p) ∧
          Table.SameBut [0, 1, 2, 3] b.web.ports e.web.ports) ∧
    (∀ rest, (s.begin t).evm.farTx = ⟨g, d, c, sec⟩ :: rest → (s.begin t).on f_EVM_FAR_GROUP_member g = true →
      (s.begin t).on f_EVM_FAR_GROUP_secure_only g = false → (s.begin t).evm.farRx.length < 64 →
      ((s.begin t).tb.ready = true → rtBefore d (s.begin t).raster = false) →
      Completes (.farForkSend t) t s [.evm, .web] fun b e =>
        e.evm = { b.evm with farTx := rest, farRx := b.evm.farRx ++ [⟨g, d, c, b.now, false, ! b.tb.ready⟩] } ∧
          (∀ p, p < 4 → bit (b.rd .WEB_BCAST g) p = true → b.bcastFlit g d c sec ∈ (e.portOf p).qBcast)) ∧
    (∀ p f, p < 4 → f.dst = g → flitFarFork f = (d, c, sec) → flitClass f.type = .bcast →
      ((s.begin t).portPowered p = false ∨ (s.begin t).portActive p = false → Completes (.eventBcast t p f) t s [] fun _ _ => True) ∧
      ((s.begin t).portPowered p = true → (s.begin t).portActive p = true →
        (bit ((s.begin t).rd .WEB_BCAST g) p = true → f.hops + 1 ≤ (s.begin t).fld f_WEB_CTL_max_hops →
          ((s.begin t).on f_EVM_FAR_GROUP_member g = false ∨ ((s.begin t).on f_EVM_FAR_GROUP_secure_only g = true → sec = true) ∧
              (s.begin t).evm.farRx.length < 64 ∧ ((s.begin t).tb.ready = true → rtBefore d (s.begin t).raster = false) →
            Completes (.eventBcast t p f) t s [.evm, .web] fun b e =>
              e.evm = { b.evm with farRx := b.evm.farRx ++
                (if b.on f_EVM_FAR_GROUP_member g then [⟨g, d, c, b.now, false, ! b.tb.ready⟩] else []) } ∧
                ∀ q, q < 4 → e.portOf q =
                  if bit (b.rd .WEB_BCAST g) q ∧ q ≠ p then { b.portOf q with qBcast := (b.portOf q).qBcast ++ [f] } else b.portOf q) ∧
          ((s.begin t).on f_EVM_FAR_GROUP_member g = true → ((s.begin t).on f_EVM_FAR_GROUP_secure_only g = true → sec = true) →
            (s.begin t).evm.farRx.length < 64 → (s.begin t).tb.ready = true → rtBefore d (s.begin t).raster = true →
            Completes (.eventBcast t p f) t s [.regs, .evm, .force, .engs, .que, .memc, .vat, .web, .flt, .cal] fun b e =>
              let x := b.broadcast f (some p)
              e = State.farLate { x with evm := { x.evm with farRx := x.evm.farRx ++ [⟨g, d, c, b.now, true, false⟩] } } c)) ∧
        (bit ((s.begin t).rd .WEB_BCAST g) p = true → (s.begin t).fld f_WEB_CTL_max_hops < f.hops + 1 →
          (∃ q, q < 4 ∧ q ≠ p ∧ bit ((s.begin t).rd .WEB_BCAST g) q = true) → (s.begin t).on f_EVM_FAR_GROUP_member g = false →
          Completes (.eventBcast t p f) t s [.regs, .evm, .force, .engs, .que, .memc, .vat, .flt, .cal] fun b e =>
            let x := b.tally f_WEB_DROP_COUNT_ttl
            e = x.log { x.detect 0x704 1 .none (0x1110 + p) with access := 5 }) ∧
        (bit ((s.begin t).rd .WEB_BCAST g) p = false →
          Completes (.eventBcast t p f) t s [.regs, .evm, .force, .engs, .que, .memc, .vat, .flt, .cal] fun b e =>
            e = b.log { b.detect 0x705 1 (.port p) (0x1110 + p) with access := 5 })) ∧
      ∃ e, exec (.eventBcast t p f) s = .next e) ∧
    (∃ e, exec (.farForkSend t) s = .next e) ∧
    ((∀ x ∈ (s.begin t).evm.farRx, x.group = g → (s.begin t).farDue x = false) → Completes (.farForkDelivery t g) t s [] fun _ _ => True) ∧
    ((∃ x ∈ (s.begin t).evm.farRx, x.group = g ∧ (s.begin t).farDue x = true) →
      Completes (.farForkDelivery t g) t s [.evm] fun b e =>
        e.evm.asserted = b.evm.asserted ++ [⟨2176 + g, 0, none, 0⟩] ∧
          (∀ x, x ∈ e.evm.farRx ↔ x ∈ b.evm.farRx ∧ ¬ (x.group = g ∧ b.farDue x = true)) ∧
          e.evm = { b.evm with asserted := e.evm.asserted, farRx := e.evm.farRx }) ∧
    (∀ x, (s.begin t).tb.ready = true → x.waiting = false → x.late = false →
      ((s.begin t).farDue x = true ↔ rtBefore (s.begin t).cycleEnd x.time = false)) ∧
    (∀ x, x.waiting = false → x.late = true → ((s.begin t).farDue x = true ↔ x.taken / 256 < (s.begin t).cycle))

/-- R233, R234: an edge at an input pin is accepted once its level has stood for filter + 1 samples behind the synchroniser, and then asserts the pin's source
where in_edge selects it, so that after any passing of time no such edge waits; a firing of an output pin acts at the end of the third event cycle after its
own, as a pulse, a change of level or nothing; a pulse ends after its width, unless a firing in it is to restart it. EVIO_INPUT_EDGE, EVIO_OUTPUT, PULSE_END.
The model's choices it rests on: notes/assumptions/1, 23, 68. -/
def Obligations.EvioPins : Prop :=
  ∀ (s : State) (t j : Nat) (level : Bool), s.canonical → s.powered → j < 16 →
    ((s.begin t).evioDrives j = true ∨ ((s.begin t).evioOf j).raw = level → Completes (.evioInputEdge t j level) t s [] fun _ _ => True) ∧
    ((s.begin t).evioDrives j = false → ((s.begin t).evioOf j).raw ≠ level →
      Completes (.evioInputEdge t j level) t s [.evm] fun b e =>
        e.evioOf j = { b.evioOf j with raw := level, rawAt := b.cycle } ∧ Table.SameBut [j] b.evm.evio e.evm.evio ∧
          e.evm = { b.evm with evio := e.evm.evio }) ∧
    (s.evioDrives j = false → (s.evioOf j).raw = level → (s.evioOf j).level ≠ level →
      (s.evioOf j).rawAt + s.fld f_EVM_EVIO_CTL_filter j + 4 ≤ s.cycle →
      (s.evioAccept j).evioOf j = { s.evioOf j with level := level } ∧ Table.SameBut [j] s.evm.evio (s.evioAccept j).evm.evio ∧
        (s.dev.forerunner = false → (s.evioAccept j).evm.asserted = s.evm.asserted ++
          (if (s.fld f_EVM_EVIO_CTL_in_edge j = 0 ∧ level = true) ∨ (s.fld f_EVM_EVIO_CTL_in_edge j = 1 ∧ level = false) ∨
              s.fld f_EVM_EVIO_CTL_in_edge j = 2 then [⟨2192 + j, 0, none, 0⟩] else []))) ∧
    ((s.begin t).evioDrives j = true ∨ ((s.begin t).evioOf j).raw = ((s.begin t).evioOf j).level ∨
      (s.begin t).cycle < ((s.begin t).evioOf j).rawAt + (s.begin t).fld f_EVM_EVIO_CTL_filter j + 4) ∧
    (∀ c rest, ((s.begin t).evioOf j).due = c :: rest →
      ((s.begin t).now < (c + 4) * 256 → Completes (.evioOutput t j) t s [] fun _ _ => True) ∧
      ((c + 4) * 256 ≤ (s.begin t).now →
        Completes (.evioOutput t j) t s [.evm] fun b e =>
          (b.fld f_EVM_EVIO_CTL_out_mode j = 0 → e.evioOf j = { b.evioOf j with
            due := rest, out := true, pulseEnd := some ((c + 5 + b.fld f_EVM_EVIO_CTL_width_m1 j) * 256) }) ∧
          (b.fld f_EVM_EVIO_CTL_out_mode j = 1 → e.evioOf j = { b.evioOf j with due := rest, out := ! (b.evioOf j).out }) ∧
          (2 ≤ b.fld f_EVM_EVIO_CTL_out_mode j → e.evioOf j = { b.evioOf j with due := rest }) ∧
          Table.SameBut [j] b.evm.evio e.evm.evio ∧ e.evm = { b.evm with evio := e.evm.evio })) ∧
    (((s.begin t).evioOf j).due = [] → Completes (.evioOutput t j) t s [] fun _ _ => True) ∧
    (((s.begin t).evioOf j).pulseEnd = none → Completes (.pulseEnd t j) t s [] fun _ _ => True) ∧
    (∀ u, ((s.begin t).evioOf j).pulseEnd = some u →
      ((s.begin t).now < u ∨ (∃ c ∈ ((s.begin t).evioOf j).due, c * 256 < u) → Completes (.pulseEnd t j) t s [] fun _ _ => True) ∧
      (u ≤ (s.begin t).now → (∀ c ∈ ((s.begin t).evioOf j).due, u ≤ c * 256) →
        Completes (.pulseEnd t j) t s [.evm] fun b e =>
          e.evioOf j = { b.evioOf j with out := false, pulseEnd := none } ∧ Table.SameBut [j] b.evm.evio e.evm.evio ∧
            e.evm = { b.evm with evio := e.evm.evio }))

/-- R141, R238, R239, R240, R248: an accepted request joins its port's requests with its instant of acceptance; one that finds the stack in self-refresh or
partial retention is counted and asks for the exit; a write by P3 into a write-protected region, or by P3 or P4 into the list table or the mould table, has no
effect and is logged. A request whose age reaches 90 % of its target enters urgency level 3 once: its port's count moves on and its memory source asserts. A
request of any port that finds self-refresh entry begun abandons it and is counted. PORT_REQUEST, URGENCY_LEVEL_3 complete. The model's choices it rests on:
notes/assumptions/1, 28, 42, 75. -/
def Obligations.MemoryRequests : Prop :=
  ∀ (s : State) (t p a len : Nat) (write : Bool) (data : List Byte), s.canonical → s.powered → p < 6 →
    0 < (if write then data.length else len) → a + (if write then data.length else len) ≤ 2 ^ 34 →
    ((write = true → p = 3 ∨ p = 4 → (s.begin t).tableWrite a data.length = false) → (write = true → p = 3 → (s.begin t).wprotected a data.length = false) →
      ((s.begin t).memc.st ≠ .selfRefresh → (s.begin t).memc.st ≠ .retention →
        ((s.begin t).srEntering = false →
          Completes (.portRequest t p write a data len) t s [.memc] fun b e =>
            e.memc = { b.memc with
              reqs := b.memc.reqs ++ [{ id := b.memc.nextId, port := p, write, addr := a, data := if write then data else [], len, at_ := b.now,
                                        urgent := false, fwd := [] }],
              nextId := b.memc.nextId + 1 }) ∧
        ((s.begin t).srEntering = true →
          Completes (.portRequest t p write a data len) t s [.regs, .memc] fun b e =>
            (∃ r, e.memc.reqs = b.memc.reqs ++ [r] ∧ r.addr = a ∧ r.port = p) ∧ e.memc.st = b.memc.st ∧
              e.fld f_MEMC_SR_STATS_aborted = min 0xFFFF (b.fld f_MEMC_SR_STATS_aborted + 1) ∧ e.on f_MEMC_EVENTS_sr_abort = true ∧
              Table.SameBut [regAddr .MEMC_SR_STATS 0 0, regAddr .MEMC_EVENTS 0 0] b.regs e.regs)) ∧
      ((s.begin t).memc.st = .selfRefresh ∨ (s.begin t).memc.st = .retention →
        Completes (.portRequest t p write a data len) t s [.regs, .memc] fun b e =>
          e.memc.srExit = some (b.memc.srExit.getD b.now) ∧ e.memc.st = b.memc.st ∧ (∃ r, e.memc.reqs = b.memc.reqs ++ [r] ∧ r.addr = a ∧ r.port = p) ∧
            e.fld f_MEMC_SR_STATS_waited = min 0xFFFF (b.fld f_MEMC_SR_STATS_waited + 1) ∧ e.on f_MEMC_EVENTS_sr_wait = true ∧
            Table.SameBut [regAddr .MEMC_SR_STATS 0 0, regAddr .MEMC_EVENTS 0 0] b.regs e.regs)) ∧
    (write = true → p = 3 ∨ p = 4 → (s.begin t).tableWrite a data.length = true →
      Completes (.portRequest t p write a data len) t s [.regs, .evm, .force, .engs, .que, .memc, .vat, .flt, .cal] fun b e =>
        e = b.memFault 0x303 1 .none (0x1116 + p) 4 a) ∧
    (write = true → p = 3 → (s.begin t).tableWrite a data.length = false → (s.begin t).wprotected a data.length = true →
      Completes (.portRequest t p write a data len) t s [.regs, .evm, .force, .engs, .que, .memc, .vat, .flt, .cal] fun b e =>
        e = b.memFault 0x600 1 .none 0x1119 4 a) ∧
    (∀ id r, ((s.begin t).memc.reqs ++ (s.begin t).memc.reading).find? (fun q => decide (q.id = id)) = some r →
      ((s.begin t).urgency r = 3 ↔ 9 * (25600 * (s.begin t).fld f_MEMC_PORT_TARGET_target r.port) ≤ 10 * ((s.begin t).now - r.at_)) ∧
      ((s.begin t).urgency r ≠ 3 ∨ r.urgent = true → Completes (.urgencyLevel3 t id) t s [] fun _ _ => True) ∧
      ((s.begin t).urgency r = 3 → r.urgent = false → r.port < 6 → (s.begin t).on f_QUE_AGENT_CTL_enable 28 = false →
        Completes (.urgencyLevel3 t id) t s [.regs, .evm, .memc] fun b e =>
          e.memc = { b.memc with
            reqs := b.memc.reqs.map fun q => if q.id = id then { q with urgent := true } else q
            reading := b.memc.reading.map fun q => if q.id = id then { q with urgent := true } else q } ∧
          e.fld f_MEMC_PORT_STATS_urgent r.port = min 0xFFFF (b.fld f_MEMC_PORT_STATS_urgent r.port + 1) ∧
          Table.SameBut [regAddr .MEMC_PORT_STATS r.port 0] b.regs e.regs ∧
          e.evm = { b.evm with asserted := b.evm.asserted ++ [⟨2208 + r.port, 0, none, 0⟩] })) ∧
    (∃ e, exec (.portRequest t p write a data len) s = .next e) ∧ ∀ id, ∃ e, exec (.urgencyLevel3 t id) s = .next e

/-- R238, R239, R241, R244, R245: in service a pseudo-channel issues the request that goes next: a write puts its bytes at their addresses, and in a duplex
region at those of the copy; a read takes the bytes the queued writes and the stack give and waits for its data; an access restarts its bank's timer; a row that
is not open is opened and counted in its row group, and the activation that exceeds the threshold begins a throttle of its port and is logged. Out of service,
or without a request that may go, nothing is issued. A window that has passed restarts the counts. COMMAND_ISSUE, THROTTLE_END. The model's choices it rests on:
notes/assumptions/1, 4, 42, 48. -/
def Obligations.MemoryCommands : Prop :=
  ∀ (s : State) (t q : Nat), s.canonical → s.powered → q < 32 →
    ((s.begin t).memc.st ≠ .service → Completes (.commandIssue t q) t s [] fun _ _ => True) ∧
    ((s.begin t).now < (s.begin t).memc.windowAt + (s.begin t).rhWindow → Completes (.throttleEnd t) t s [] fun _ _ => True) ∧
    ((s.begin t).memc.windowAt + (s.begin t).rhWindow ≤ (s.begin t).now →
      Completes (.throttleEnd t) t s [.memc] fun b e =>
        ∃ k, e.memc = { b.memc with windowAt := b.memc.windowAt + k * b.rhWindow, acts := [], throttled := 0 } ∧ e.memc.windowAt ≤ b.now ∧
          b.now < e.memc.windowAt + b.rhWindow) ∧
    (∃ e, exec (.commandIssue t q) s = .next e) ∧
    ((s.begin t).memc.st = .service → (s.begin t).now < (s.begin t).memc.windowAt + (s.begin t).rhWindow →
      (∀ k ∈ (s.begin t).memc.banks, k.1 % 32 = q → (s.begin t).now < k.2.refAt + (s.begin t).refreshPeriod) →
      ((s.begin t).nextIssue q = none → Completes (.commandIssue t q) t s [] fun _ _ => True) ∧
      (∀ r, (s.begin t).nextIssue q = some r →
        (∀ c : Option Nat, (s.begin t).rowHit r = true → r.write = true → (s.begin t).now - r.at_ ≤ (s.begin t).portTarget r.port →
          (∀ k, k < r.data.length → (s.begin t).copyAddr (r.addr + k) = c.map (· + k)) →
          (∀ d, c = some d → d + r.data.length ≤ r.addr ∨ r.addr + r.data.length ≤ d) →
          Completes (.commandIssue t q) t s [.memc, .hbm] fun b e =>
            (∀ k, k < r.data.length → Table.get (e.hbmDefault (r.addr + k)) (r.addr + k) e.hbm = r.data.getD k 0) ∧
              (∀ d k, c = some d → k < r.data.length → Table.get (e.hbmDefault (d + k)) (d + k) e.hbm = r.data.getD k 0) ∧
              (∀ x y, (x < r.addr ∨ r.addr + r.data.length ≤ x) → (∀ d, c = some d → x < d ∨ d + r.data.length ≤ x) →
                Table.get y x e.hbm = Table.get y x b.hbm) ∧
              e.memc.reqs = b.memc.reqs.filter (fun x => decide (x.id ≠ r.id)) ∧
              e.bankOf (bankKey r.addr) = { b.bankOf (bankKey r.addr) with access := b.now } ∧
              Table.SameBut [bankKey r.addr] b.memc.banks e.memc.banks ∧
              e.memc = { b.memc with banks := e.memc.banks, reqs := e.memc.reqs, idleAt := e.memc.idleAt, spoilt := e.memc.spoilt }) ∧
        ((s.begin t).rowHit r = true → r.write = false →
          Completes (.commandIssue t q) t s [.memc] fun b e =>
            e.memc.reading = b.memc.reading ++ [{ r with data := b.readBytes r, fwd := b.forwarded r }] ∧
              e.memc.reqs = b.memc.reqs.filter (fun x => decide (x.id ≠ r.id)) ∧
              e.bankOf (bankKey r.addr) = { b.bankOf (bankKey r.addr) with access := b.now } ∧
              Table.SameBut [bankKey r.addr] b.memc.banks e.memc.banks ∧
              e.memc = { b.memc with banks := e.memc.banks, reqs := e.memc.reqs, reading := e.memc.reading }) ∧
        ((s.begin t).rowHit r = false → r.write = false → Table.rising (s.begin t).memc.acts = true →
          (Table.get 0 (rowGroup r.addr) (s.begin t).memc.acts < (s.begin t).fld f_MEMC_RH_CTL_threshold →
            Completes (.commandIssue t q) t s [.memc] fun b e =>
              (e.bankOf (bankKey r.addr)).row = some (rowOf r.addr) ∧ (e.bankOf (bankKey r.addr)).access = b.now ∧
                Table.SameBut [bankKey r.addr] b.memc.banks e.memc.banks ∧
                Table.get 0 (rowGroup r.addr) e.memc.acts = Table.get 0 (rowGroup r.addr) b.memc.acts + 1 ∧
                Table.SameBut [rowGroup r.addr] b.memc.acts e.memc.acts ∧ e.memc.reading = b.memc.reading ++ [{ r with data := b.readBytes r, fwd := b.forwarded r }] ∧
                e.memc.reqs = b.memc.reqs.filter (fun x => decide (x.id ≠ r.id))) ∧
          (Table.get 0 (rowGroup r.addr) (s.begin t).memc.acts = (s.begin t).fld f_MEMC_RH_CTL_threshold →
            Completes (.commandIssue t q) t s [.regs, .evm, .force, .engs, .que, .memc, .vat, .flt, .cal] fun b e =>
              e.memc.throttled = b.memc.throttled ||| 2 ^ r.port ∧ e.memc.rhRows = disturbed r.addr ∧ e.memc.rhPort = r.port ∧ e.memc.rhPc = pcOf r.addr ∧ e.memc.rhBank = bankIx r.addr ∧
                e.on f_MEMC_EVENTS_throttle = true ∧ (∃ y ∈ e.evm.asserted, y.src = 2214) ∧
                e.memc.reading = b.memc.reading ++ [{ r with data := b.readBytes r, fwd := b.forwarded r }]))))

/-- R238, R239, R250, R252, R253: the data of a read return to its port and are its answer, counted where the target has passed; data that fail parity in a
duplex region are repaired from the copy, which is written back, and logged, while bytes that queued writes supplied stay as they are; without a copy they carry
an error mark; a bank whose contents were lost answers what the stack holds, counted and logged. READ_DATA completes for every request. The model's choices it
rests on: notes/assumptions/1, 4, 48, 98. -/
def Obligations.ReadDataReturns : Prop :=
  ∀ (s : State) (t id : Nat) (r : MReq), s.canonical → s.powered →
    (∀ bad copyBad, ∃ e, exec (.readData t id bad copyBad) s = .next e) ∧
    ((s.begin t).dev.test = false → ((s.begin t).memc.reading.find? fun q => decide (q.id = id)) = some r → 0 < r.len → r.data.length = r.len →
      ((∀ x, r.addr ≤ x → x < r.addr + r.len → (s.begin t).lostBank x = false) → (s.begin t).memc.spoilt = [] →
        ((s.begin t).now - r.at_ ≤ (s.begin t).portTarget r.port →
          Completes (.readData t id [] []) t s [.memc] fun b e =>
            e.memc = { b.memc with
              reading := b.memc.reading.filter fun x => decide (x.id ≠ id)
              answer := some (id, r.data, false), idleAt := e.memc.idleAt }) ∧
        ((s.begin t).portTarget r.port < (s.begin t).now - r.at_ → r.port < 6 →
          Completes (.readData t id [] []) t s [.regs, .memc] fun b e =>
            e.memc.answer = some (id, r.data, false) ∧
              e.fld f_MEMC_PORT_STATS_overdue r.port = min 0xFFFF (b.fld f_MEMC_PORT_STATS_overdue r.port + 1) ∧
              Table.SameBut [regAddr .MEMC_PORT_STATS r.port 0] b.regs e.regs) ∧
        (r.addr % 32 = 0 → r.len = 32 →
          (∀ c, (s.begin t).copyAddr r.addr = some c →
            Completes (.readData t id [0] []) t s [.regs, .evm, .force, .engs, .que, .memc, .hbm, .vat, .flt, .cal] fun b e =>
              e.memc.answer = some (id, (List.range 32).map (fun i =>
                if r.fwd.contains (r.addr + i) then r.data.getD i 0 else (b.stackBytes c 32).getD i 0), false) ∧
                e.stackBytes r.addr 32 = b.stackBytes c 32 ∧
                Table.SameBut ((List.range 32).map fun k => r.addr + k) b.hbm e.hbm ∧ e.memc.errAddr = r.addr ∧ e.memc.errUncorr = false ∧
                e.memc.errPort = r.port ∧ e.on f_MEMC_EVENTS_repaired = true ∧
                e.fld f_MEMC_PAR_STATS_repaired = min 0xFFFF (b.fld f_MEMC_PAR_STATS_repaired + 1) ∧ ∃ y ∈ e.evm.asserted, y.src = 2215) ∧
          ((s.begin t).copyAddr r.addr = none →
            Completes (.readData t id [0] []) t s [.regs, .evm, .force, .engs, .que, .memc, .vat, .flt, .cal, .free] fun b e =>
              (∃ d : List Byte, d.length = 32 ∧ e.memc.answer = some (id, d, true)) ∧ e.memc.errAddr = r.addr ∧ e.memc.errUncorr = true ∧
                e.memc.errPort = r.port ∧ e.on f_MEMC_EVENTS_uncorrectable = true ∧
                e.fld f_MEMC_PAR_STATS_uncorrectable = min 0xFF (b.fld f_MEMC_PAR_STATS_uncorrectable + 1) ∧ ∃ y ∈ e.evm.asserted, y.src = 2216))) ∧
      ((∀ x, r.addr ≤ x → x < r.addr + r.len → (s.begin t).lostBank x = true) →
        ∀ bad, Completes (.readData t id bad []) t s [.regs, .evm, .force, .engs, .que, .memc, .vat, .flt, .cal] fun b e =>
          e.memc.answer = some (id, r.data, false) ∧
            e.fld f_MEMC_PAR_STATS_lost_reads = min 0xFF (b.fld f_MEMC_PAR_STATS_lost_reads + 1)))

/-- R241, R243, R246, R247, R248: a refresh closes its bank's row, and is postponed for a level-3 request eight times at most; a bank's idle timer closes it;
the stack enters self-refresh with every row closed once it has been idle long enough, and is in service again no sooner than 500 ns after its entry once a
request waits, each with its memory source. REFRESH, PAGE_CLOSE, SELF_REFRESH_ENTRY, SELF_REFRESH_EXIT complete. The model's choices it rests on:
notes/assumptions/1, 28, 42. -/
def Obligations.RowsAndSelfRefresh : Prop :=
  ∀ (s : State) (t b0 q : Nat), s.canonical → s.powered → b0 < 32 → q < 32 →
    ((s.begin t).memc.st = .service →
      ((s.begin t).bankUrgent (b0 * 32 + q) = false ∨ 8 ≤ ((s.begin t).bankOf (b0 * 32 + q)).postponed →
        Completes (.refresh t b0 q) t s [.memc] fun b e =>
          e.bankOf (b0 * 32 + q) = { b.bankOf (b0 * 32 + q) with row := none, postponed := 0, refAt := b.now } ∧
            Table.SameBut [b0 * 32 + q] b.memc.banks e.memc.banks ∧
            e.memc = { b.memc with banks := e.memc.banks, sets := Table.put 0 q b.memc.setNo b.memc.sets }) ∧
      ((s.begin t).bankUrgent (b0 * 32 + q) = true → ((s.begin t).bankOf (b0 * 32 + q)).postponed < 8 →
        Completes (.refresh t b0 q) t s [.memc] fun b e =>
          e.bankOf (b0 * 32 + q) = { b.bankOf (b0 * 32 + q) with postponed := (b.bankOf (b0 * 32 + q)).postponed + 1 } ∧
            Table.SameBut [b0 * 32 + q] b.memc.banks e.memc.banks ∧ e.memc = { b.memc with banks := e.memc.banks })) ∧
    ((s.begin t).memc.st ≠ .service → Completes (.refresh t b0 q) t s [] fun _ _ => True) ∧
    (((s.begin t).bankOf (b0 * 32 + q)).row ≠ none →
      (((s.begin t).bankOf (b0 * 32 + q)).access + 256 * (s.begin t).fld f_MEMC_PAGE_idle_ns ≤ (s.begin t).now →
        Completes (.pageClose t b0 q) t s [.memc] fun b e =>
          e.bankOf (b0 * 32 + q) = { b.bankOf (b0 * 32 + q) with row := none } ∧ Table.SameBut [b0 * 32 + q] b.memc.banks e.memc.banks ∧
            e.memc = { b.memc with banks := e.memc.banks }) ∧
      ((s.begin t).now < ((s.begin t).bankOf (b0 * 32 + q)).access + 256 * (s.begin t).fld f_MEMC_PAGE_idle_ns →
        Completes (.pageClose t b0 q) t s [] fun _ _ => True)) ∧
    ((s.begin t).srEntering = false → Completes (.selfRefreshEntry t) t s [] fun _ _ => True) ∧
    ((s.begin t).on f_QUE_AGENT_CTL_enable 28 = false →
      ((s.begin t).memc.st = .service → (s.begin t).memHeld = false → (s.begin t).fld f_MEMC_SR_CTL_idle_us ≠ 0 →
        (s.begin t).memc.idleAt + 256000 * (s.begin t).fld f_MEMC_SR_CTL_idle_us ≤ (s.begin t).now →
        Completes (.selfRefreshEntry t) t s [.evm, .memc] fun b e =>
          e.memc = { b.memc with banks := e.memc.banks, st := .selfRefresh, srAt := some b.now } ∧
            (∀ k, e.bankOf k = { b.bankOf k with row := none }) ∧
            e.evm = { b.evm with asserted := b.evm.asserted ++ [⟨2217, 0, none, 0⟩] }) ∧
      (∀ u w, (s.begin t).memc.st = .selfRefresh → (s.begin t).memc.srAt = some u → (s.begin t).memc.srExit = some w →
        ((s.begin t).now < u + 128000 → Completes (.selfRefreshExit t) t s [] fun _ _ => True) ∧
        (u + 128000 ≤ (s.begin t).now →
          Completes (.selfRefreshExit t) t s [.evm, .memc] fun b e =>
            e.memc = { b.memc with st := .service, srAt := none, srExit := none, idleAt := b.now } ∧
              e.evm = { b.evm with asserted := b.evm.asserted ++ [⟨2218, 0, none, 0⟩] }))) ∧
    ((s.begin t).memc.srExit = none → Completes (.selfRefreshExit t) t s [] fun _ _ => True) ∧
    ∀ c ∈ [Instr.refresh t b0 q, .pageClose t b0 q, .selfRefreshEntry t, .selfRefreshExit t], ∃ e, exec c s = .next e

/-- R249, R250: partial retention is entered with every row closed and the banks of MEMC_PR_BANK and MEMC_PR_PC retained, or refused with its sticky bit and a
fault; on leaving it every byte of a retained bank is as before, and where a bank was not retained the lost bits are set and memory source 14 asserts.
RETENTION_ENTER, RETENTION_EXIT. The model's choices it rests on: notes/assumptions/1, 42, 99. -/
def Obligations.PartialRetention : Prop :=
  ∀ (s : State) (t m : Nat) (v : Word), s.canonical → s.powered → s.answers m = true → (s.begin t).shielded (regAddr .MEMC_PR_CTL 0 0) = 0 →
    (bit v 31 = true → (s.begin t).memc.st = .service ∨ (s.begin t).memc.st = .selfRefresh → (s.begin t).retentionRefused = false →
      Completes (.retentionEnter t m v) t s [.regs, .memc, .resp] fun b e =>
        e.resp = ⟨m, false, 0⟩ ∧ RegsAlike .MEMC_PR_CTL 0 b e ∧ (∀ k, e.bankOf k = { b.bankOf k with row := none }) ∧
          e.memc = { b.memc with banks := e.memc.banks, st := .retention, srAt := some b.now, srExit := none,
                                 retBanks := b.rd .MEMC_PR_BANK, retPcs := b.rd .MEMC_PR_PC }) ∧
    (bit v 31 = true → (s.begin t).memc.st ≠ .retention →
      (s.begin t).memc.st ≠ .service ∧ (s.begin t).memc.st ≠ .selfRefresh ∨ (s.begin t).retentionRefused = true →
      Completes (.retentionEnter t m v) t s [.regs, .evm, .force, .engs, .que, .memc, .vat, .flt, .cal, .resp] fun b e =>
        e.resp = ⟨m, false, 0⟩ ∧ e.on f_MEMC_EVENTS_refused = true ∧
          ∃ x : State, x.flt = b.flt ∧ x.now = b.now ∧ e.flt = (x.accessFault 0x004 1 .none m 2 (regAddr .MEMC_PR_CTL 0 0)).flt) ∧
    (bit v 31 = false → bit v 30 = true → (s.begin t).memc.st = .retention → (s.begin t).on f_QUE_AGENT_CTL_enable 28 = false →
      Completes (.retentionExit t m v) t s [.regs, .evm, .hbm, .losses, .memc, .resp] fun b e =>
        e.resp = ⟨m, false, 0⟩ ∧ e.memc = { b.memc with st := .service, srAt := none, srExit := none, idleAt := b.now } ∧
          (∀ a, b.memc.retBanks.getLsbD (bankIx a) = true → b.memc.retPcs.getLsbD (pcOf a) = true →
            Table.get (e.hbmDefault a) a e.hbm = Table.get (b.hbmDefault a) a b.hbm) ∧
          e.rd .MEMC_LOST_BANK = (b.rd .MEMC_LOST_BANK ||| if b.memc.retPcs = 0xFFFFFFFF then ~~~ b.memc.retBanks else 0xFFFFFFFF) ∧
          e.rd .MEMC_LOST_PC = (b.rd .MEMC_LOST_PC ||| if b.memc.retBanks = 0xFFFFFFFF then ~~~ b.memc.retPcs else 0xFFFFFFFF) ∧
          e.on f_MEMC_EVENTS_lost = true ∧ e.evm = { b.evm with asserted := b.evm.asserted ++ [⟨2222, 0, none, 0⟩] }) ∧
    (bit v 31 = false → bit v 30 = true → (s.begin t).memc.st ≠ .retention →
      Completes (.retentionExit t m v) t s [.regs, .resp] fun b e => e.resp = ⟨m, false, 0⟩ ∧ RegsAlike .MEMC_PR_CTL 0 b e) ∧
    ∀ r w, (∃ e, exec (.retentionEnter t r w) s = .next e) ∧ ∃ e, exec (.retentionExit t r w) s = .next e

/-- R254, R255, R256: a soft repair completes: its bank serves again and the repair is recorded in the fuse array; a round of background training completes, and
a rate change that waited for it begins its training; a new rate code starts training at once, or waits while data are gathered; training at the new rate ends
with every row closed in FREQ_SWITCH, and that with service at the new rate. SOFT_REPAIR_COMPLETE, TRAINING_ROUND, FREQ_REQ, FREQ_SWITCH. The model's choices it
rests on: notes/assumptions/1, 42, 74, 76. -/
def Obligations.RepairTrainingAndRate : Prop :=
  ∀ (s : State) (t m b0 q : Nat) (v : Word), s.canonical → s.powered → b0 < 32 → q < 32 →
    (∀ u row, ((s.begin t).bankOf (b0 * 32 + q)).repair = some (u, row) →
      (∀ k, (s.begin t).on f_QUE_AGENT_CTL_enable 28 = false → (s.begin t).memc.repairs = [] →
        (s.begin t).freePlace 1984 = some k → row < 65536 →
        Completes (.softRepairComplete t b0 q) t s [.regs, .evm, .memc, .fuses] fun b e =>
          e.bankOf (b0 * 32 + q) = { b.bankOf (b0 * 32 + q) with repair := none } ∧ Table.SameBut [b0 * 32 + q] b.memc.banks e.memc.banks ∧
            e.memc = { b.memc with banks := e.memc.banks, rowErrs := e.memc.rowErrs, soft := b.memc.soft + 1 } ∧
            e.on f_MEMC_EVENTS_ppr = true ∧ Table.SameBut [regAddr .MEMC_EVENTS 0 0] b.regs e.regs ∧
            e.evm = { b.evm with asserted := b.evm.asserted ++ [⟨2221, 0, none, 0⟩] } ∧
            e.fuseWord (1984 + 2 * k) = BitVec.ofNat 32 (b0 * 2 ^ 24 + q * 2 ^ 16 + row) ∧ e.fuseWord (1985 + 2 * k) = 0x5A3CC3A5 ∧
            (∀ i, i ≠ 1984 + 2 * k → i ≠ 1985 + 2 * k → e.fuseWord i = b.fuseWord i))) ∧
    (((s.begin t).bankOf (b0 * 32 + q)).repair = none → Completes (.softRepairComplete t b0 q) t s [] fun _ _ => True) ∧
    ((s.begin t).on f_QUE_AGENT_CTL_enable 28 = false →
      ((s.begin t).memc.st = .service → (s.begin t).memc.trainRate = none →
        Completes (.trainingRound t) t s [.regs, .evm, .memc] fun b e =>
          e.memc = { b.memc with rounds := (b.memc.rounds + 1) % 65536, setNo := b.memc.setNo + 1, freqWait := none,
                                 trainRate := b.memc.freqWait, gathering := b.memc.freqWait.isNone } ∧
            e.on f_MEMC_EVENTS_train_done = true ∧ Table.SameBut [regAddr .MEMC_EVENTS 0 0] b.regs e.regs ∧
            e.evm = { b.evm with asserted := b.evm.asserted ++ [⟨2219, 0, none, 0⟩] }) ∧
      (∀ r, (s.begin t).memc.trainRate = some r →
        ((s.begin t).memc.st = .service →
          Completes (.freqSwitch t) t s [.memc] fun b e =>
            e.memc = { b.memc with banks := e.memc.banks, st := .freqSwitch, switchAt := b.now } ∧ ∀ k, e.bankOf k = { b.bankOf k with row := none }) ∧
        ((s.begin t).memc.st = .freqSwitch →
          Completes (.freqSwitch t) t s [.regs, .evm, .memc] fun b e =>
            e.memc = { b.memc with st := .service, cur := r, setNo := b.memc.setNo + 1, sets := e.memc.sets, idleAt := b.now, freqWait := none,
                                   trainRate := b.memc.freqWait, gathering := b.memc.freqWait.isNone } ∧
              e.on f_MEMC_EVENTS_freq_done = true ∧ Table.SameBut [regAddr .MEMC_EVENTS 0 0] b.regs e.regs ∧
              e.evm = { b.evm with asserted := b.evm.asserted ++ [⟨2220, 0, none, 0⟩] }))) ∧
    ((s.begin t).memc.st ≠ .service ∨ (s.begin t).memc.trainRate ≠ none → Completes (.trainingRound t) t s [] fun _ _ => True) ∧
    ((s.begin t).memc.st ≠ .service ∧ (s.begin t).memc.st ≠ .freqSwitch ∨ (s.begin t).memc.trainRate = none → Completes (.freqSwitch t) t s [] fun _ _ => True) ∧
    (s.answers m = true → (s.begin t).shielded (regAddr .MEMC_FREQ 0 0) = 0 → bits v 16 3 ≠ (s.begin t).fld f_MEMC_FREQ_req →
      (bits v 16 3 ≤ 4 →
        Completes (.freqReq t m v) t s [.regs, .memc, .resp] fun b e =>
          e.resp = ⟨m, false, 0⟩ ∧ e.fld f_MEMC_FREQ_req = bits v 16 3 ∧ Table.SameBut [regAddr .MEMC_FREQ 0 0] b.regs e.regs ∧
            (b.memc.gathering = true ∨ b.memc.trainRate ≠ none → e.memc = { b.memc with freqWait := some (bits v 16 3) }) ∧
            (b.memc.gathering = false → b.memc.trainRate = none →
              e.memc = if bits v 16 3 = b.memc.cur then b.memc else { b.memc with trainRate := some (bits v 16 3) })) ∧
      (4 < bits v 16 3 →
        Completes (.freqReq t m v) t s [.regs, .evm, .force, .engs, .que, .memc, .vat, .flt, .cal, .resp] fun b e =>
          e.resp = ⟨m, false, 0⟩ ∧ e.fld f_MEMC_FREQ_req = b.fld f_MEMC_FREQ_req ∧
            e.flt = (b.accessFault 0x004 1 .none m 2 (regAddr .MEMC_FREQ 0 0)).flt)) ∧
    ∀ r w, ∀ c ∈ [Instr.softRepairComplete t b0 q, .trainingRound t, .freqReq t r w, .freqSwitch t], ∃ e, exec c s = .next e

/-- R8, R262, R264, R269, R270, Table 9-3: a web port that is powered changes state only as its table gives. Enabling by the image loader or an amendment takes
it from DISABLED to DETECT, and clearing enable to DISABLED from any state, while a write by another requester is refused as one of RWI fields; signal, training
and alignment take it on to PARAM, where it sends its HELLO; the peer's HELLO makes it ACTIVE with fresh credits or, where the peer check fails, FAILED;
timeouts take it back, to DETECT or to FAILED, with what it held discarded and counted; loss of alignment takes it to RETRAIN with what it held kept. All
complete. PORT_ENABLE, SIGNAL_DETECTED, TRAIN_COMPLETE, TRAIN_TIMEOUT, ALIGNED, ALIGN_TIMEOUT, HELLO, FAILED_RETRY, RETRAIN_TIMEOUT, RETRAINED,
LOSS_OF_ALIGNMENT. The model's choices it rests on: notes/assumptions/1, 24, 25, 26, 39, 71. -/
def Obligations.PortStates : Prop :=
  ∀ (s : State) (t p : Nat) (x : Port), s.canonical → s.powered → p < 4 → (s.begin t).domainOn (40 + p) = true → (s.begin t).portOf p = x →
    (∀ m v, m = 0x1010 ∨ m = 0x1011 →
      (bit v 31 = true → (s.begin t).on f_WEB_PORT_CTL_enable p = false → (s.begin t).webRails = true → x.st = .disabled →
        Completes (.portEnable t m p v) t s [.regs, .web] fun b e =>
          e.rd .WEB_PORT_CTL p = (b.rd .WEB_PORT_CTL p &&& ~~~ 0xC0003FFF) ||| (v &&& 0xC0003FFF) ∧
            Table.SameBut [regAddr .WEB_PORT_CTL p 0] b.regs e.regs ∧ e.portOf p = { x with st := .detect, since := b.now } ∧
            Table.SameBut [p] b.web.ports e.web.ports ∧ e.web.serving = b.web.serving) ∧
      (bit v 31 = false → (s.begin t).on f_WEB_PORT_CTL_enable p = true →
        Completes (.portEnable t m p v) t s [.regs, .web] fun b e =>
          e.rd .WEB_PORT_CTL p = (b.rd .WEB_PORT_CTL p &&& ~~~ 0xC0003FFF) ||| (v &&& 0xC0003FFF) ∧
            Table.SameBut [regAddr .WEB_PORT_CTL p 0] b.regs e.regs ∧ (e.portOf p).st = .disabled ∧ (e.portOf p).held = 0 ∧
            Table.SameBut [p] b.web.ports e.web.ports ∧ e.web.serving = b.web.serving)) ∧
    (∀ m v, m ≠ 0x1010 → m ≠ 0x1011 → s.answers m = true → (s.begin t).shielded (regAddr .WEB_PORT_CTL p 0) = 0 →
      (v ^^^ (s.begin t).rd .WEB_PORT_CTL p) &&& 0xC0003FFF ≠ 0 →
      Completes (.portEnable t m p v) t s [.regs, .evm, .force, .engs, .que, .memc, .vat, .flt, .cal, .resp] fun b e =>
        e = { (b.accessFault 0x001 1 .none m 2 (regAddr .WEB_PORT_CTL p 0)).wr .WEB_PORT_CTL (b.rd .WEB_PORT_CTL p) p with resp := ⟨m, false, 0⟩ }) ∧
    (x.st = .detect →
      Completes (.signalDetected t p) t s [.regs, .evm, .force, .engs, .que, .memc, .vat, .web, .flt, .cal] fun b e =>
        (∃ l, e.portOf p = { x.mapLanes with lanes := l, st := .train, since := b.now }) ∧ Table.SameBut [p] b.web.ports e.web.ports ∧
          e.web.serving = b.web.serving ∧ ∀ l, l < 3 → (x.mapLanes.logical l).isSome = true →
            ((e.portOf p).lane l).health = if (x.lane l).health = .off then .good else (x.lane l).health) ∧
    (x.st ≠ .detect → Completes (.signalDetected t p) t s [] fun _ _ => True) ∧
    (x.st = .train →
      ((s.begin t).now ≤ x.since + 25600000000 → x.rateWait = none →
        Completes (.trainComplete t p) t s [.web] fun b e =>
          e.portOf p = { x with st := .align, since := b.now } ∧ Table.SameBut [p] b.web.ports e.web.ports ∧ e.web.serving = b.web.serving) ∧
      (∀ r, (s.begin t).now ≤ x.since + 25600000000 → x.rateWait = some r → Port.training { x with st := .align } = false →
        Completes (.trainComplete t p) t s [.web] fun b e =>
          e.portOf p = { x with st := .align, since := b.now, rateWait := none, rateAsked := some r,
                                qLocal := x.qLocal ++ [b.linkParam p 5 [r]] } ∧ Table.SameBut [p] b.web.ports e.web.ports) ∧
      (x.since + 25600000000 < (s.begin t).now → Completes (.trainComplete t p) t s [] fun _ _ => True) ∧
      (x.since + 25600000000 ≤ (s.begin t).now →
        Completes (.trainTimeout t p) t s [.regs, .web] fun b e =>
          e.portOf p = { x with st := .detect, since := b.now } ∧ Table.SameBut [p] b.web.ports e.web.ports ∧ e.web.serving = b.web.serving ∧
            e.fld f_WEB_PORT_RETRAIN_count p = min 0xFFFF (b.fld f_WEB_PORT_RETRAIN_count p + 1) ∧
            Table.SameBut [regAddr .WEB_PORT_RETRAIN p 0] b.regs e.regs) ∧
      ((s.begin t).now < x.since + 25600000000 → Completes (.trainTimeout t p) t s [] fun _ _ => True)) ∧
    (x.st = .align →
      (∀ skew count, skew ≤ 20 → (s.begin t).now ≤ x.since + 256000000 →
        Completes (.aligned t p skew count) t s [.web] fun b e =>
          e.portOf p = { x with st := .param, since := b.now, txCode := ⟨0, []⟩, rxCode := ⟨count % 65536, 0, false, false⟩,
                                qLocal := x.qLocal ++ [b.helloFlit p] } ∧
            Table.SameBut [p] b.web.ports e.web.ports ∧ e.web.serving = b.web.serving) ∧
      (∀ skew count, 20 < skew ∨ x.since + 256000000 < (s.begin t).now → Completes (.aligned t p skew count) t s [] fun _ _ => True) ∧
      (x.since + 256000000 ≤ (s.begin t).now →
        Completes (.alignTimeout t p) t s [.web] fun b e =>
          e.portOf p = { x with st := .detect, since := b.now } ∧ Table.SameBut [p] b.web.ports e.web.ports ∧ e.web.serving = b.web.serving) ∧
      ((s.begin t).now < x.since + 256000000 → Completes (.alignTimeout t p) t s [] fun _ _ => True)) ∧
    (∀ node port rate spare, x.st = .param →
      ((s.begin t).on f_WEB_PORT_CTL_check_peer p = false ∨
          (node = (s.begin t).fld f_WEB_PORT_CTL_peer_node p ∧ port = (s.begin t).fld f_WEB_PORT_CTL_peer_port p) → x.granted = false →
        Completes (.hello t p node port rate spare) t s [.web, .flt] fun b e =>
          e.portOf p = { x.emptied with st := .active, since := b.now, peerNode := node, peerPort := port, peerValid := true, granted := true,
                                        txSeq := 0, rxSeq := 0, skipping := false, nakDue := false, credits := fullCredits, giveBack := [],
                                        streamWait := 0, qLocal := x.qLocal } ∧ Table.SameBut [p] b.web.ports e.web.ports ∧
            e.web = { b.web with ports := e.web.ports, waiting := b.web.waiting.map fun w => if w.1 = p then (4, w.2) else w } ∧
            e.flt = (b.clearCondition 0x706 (.port p) none).flt) ∧
      ((s.begin t).on f_WEB_PORT_CTL_check_peer p = true →
        (node ≠ (s.begin t).fld f_WEB_PORT_CTL_peer_node p ∨ port ≠ (s.begin t).fld f_WEB_PORT_CTL_peer_port p) →
        Completes (.hello t p node port rate spare) t s [.regs, .evm, .force, .engs, .que, .memc, .vat, .web, .flt, .cal] fun b e =>
          e.portOf p = { x.emptied with st := .failed, since := b.now, peerNode := node, peerPort := port, peerValid := true, granted := false,
                                        rateNew := none, rateAsked := none } ∧
            e.on f_WEB_EVENTS_peer_mismatch = true ∧ e.on f_WEB_EVENTS_port_down = true ∧ Table.SameBut [p] b.web.ports e.web.ports)) ∧
    (x.st = .failed →
      ((s.begin t).on f_WEB_PORT_CTL_enable p = true → (s.begin t).webRails = true → x.since + 256000000000 ≤ (s.begin t).now →
        Completes (.failedRetry t p) t s [.web] fun b e =>
          e.portOf p = { x with st := .detect, since := b.now } ∧ Table.SameBut [p] b.web.ports e.web.ports ∧ e.web.serving = b.web.serving) ∧
      ((s.begin t).on f_WEB_PORT_CTL_enable p = false ∨ (s.begin t).webRails = false ∨ (s.begin t).now < x.since + 256000000000 →
        Completes (.failedRetry t p) t s [] fun _ _ => True)) ∧
    (x.st = .retrain →
      (x.since + 12800000000 ≤ (s.begin t).now →
        Completes (.retrainTimeout t p) t s [.regs, .evm, .force, .engs, .que, .memc, .vat, .web, .flt, .cal] fun b e =>
          e.portOf p = { x.emptied with st := .failed, since := b.now, granted := false, rateNew := none, rateAsked := none } ∧
            e.fld f_WEB_PORT_RETRAIN_discarded p = min 0xFFFF (b.fld f_WEB_PORT_RETRAIN_discarded p + x.held) ∧
            e.on f_WEB_EVENTS_port_down = true ∧ Table.SameBut [p] b.web.ports e.web.ports) ∧
      ((s.begin t).now < x.since + 12800000000 → Completes (.retrainTimeout t p) t s [] fun _ _ => True) ∧
      (∀ skew count, 20 < skew ∨ x.since + 12800000000 < (s.begin t).now → Completes (.retrained t p skew count) t s [] fun _ _ => True) ∧
      (∀ skew count, skew ≤ 20 → (s.begin t).now ≤ x.since + 12800000000 → x.rateWait = none → x.granted = true →
        (x.rateNew = none →
          Completes (.retrained t p skew count) t s [.web, .flt] fun b e =>
            e.portOf p = { x with st := .active, since := b.now, txCode := ⟨0, []⟩, rxCode := ⟨count % 65536, 0, false, false⟩,
                                  again := x.replay.length, tries := 0, sentAt := x.sentAt.map fun _ => b.now } ∧
              Table.SameBut [p] b.web.ports e.web.ports ∧ e.web.serving = b.web.serving ∧ e.flt = (b.clearCondition 0x706 (.port p) none).flt) ∧
        (∀ r, x.rateNew = some r →
          Completes (.retrained t p skew count) t s [.regs, .web, .flt] fun b e =>
            (e.portOf p).st = .active ∧ (e.portOf p).rate = r ∧ (e.portOf p).rateNew = none ∧ (e.portOf p).replay = x.replay ∧
              (e.portOf p).rxCode = ⟨count % 65536, 0, false, false⟩ ∧ (e.portOf p).again = x.replay.length ∧ e.on f_WEB_EVENTS_rate_done = true ∧
              Table.SameBut [regAddr .WEB_EVENTS 0 0] b.regs e.regs ∧ Table.SameBut [p] b.web.ports e.web.ports))) ∧
    (x.st = .active →
      Completes (.lossOfAlignment t p) t s [.regs, .evm, .force, .engs, .que, .memc, .vat, .web, .flt, .cal] fun b e =>
        e.portOf p = { x with st := .retrain, since := b.now } ∧ Table.SameBut [p] b.web.ports e.web.ports ∧ e.web.serving = b.web.serving ∧
          e.on f_WEB_EVENTS_retrain = true ∧ e.fld f_WEB_PORT_RETRAIN_count p = min 0xFFFF (b.fld f_WEB_PORT_RETRAIN_count p + 1)) ∧
    (x.st ≠ .active → Completes (.lossOfAlignment t p) t s [] fun _ _ => True) ∧
    ∀ r v node port rate spare skew count, ∀ c ∈ [Instr.portEnable t r p v, .signalDetected t p, .trainComplete t p, .trainTimeout t p,
      .aligned t p skew count, .alignTimeout t p, .hello t p node port rate spare, .failedRetry t p, .retrainTimeout t p, .retrained t p skew count,
      .lossOfAlignment t p], ∃ e, exec c s = .next e

/-- R5, R265, Table 9-4: the bytes of a flit whose fields fit Table 9-4 spell it again, its payload filled up with zeros to 232 bytes, and its header and
trailer words hold each field where the table puts it. -/
def Obligations.FlitBytesSpellTheFlit : Prop :=
  ∀ f : Flit, f.dst < 2 ^ 12 → f.src < 2 ^ 12 → f.type < 2 ^ 8 → f.tag < 2 ^ 16 → f.len < 2 ^ 8 → f.vc < 2 → f.status < 2 ^ 3 → f.addr < 2 ^ 36 →
    f.stamp < 2 ^ 32 → f.payload.length ≤ 232 → f.seq < 2 ^ 9 → f.ack < 2 ^ 9 → f.cvc < 2 ^ 3 → f.ccount < 2 ^ 3 → f.hops < 2 ^ 7 →
    flitOfBytes (flitBytes f) = { f with payload := f.payload ++ List.replicate (232 - f.payload.length) 0 } ∧
      leNat ((flitBytes f).take 4) = f.dst * 2 ^ 20 + f.src * 2 ^ 8 + f.type ∧
      leNat (((flitBytes f).drop 4).take 4) = f.tag * 2 ^ 16 + f.len * 2 ^ 8 + f.vc * 2 ^ 7 + f.status * 2 ^ 4 + f.addr / 2 ^ 32 ∧
      leNat (((flitBytes f).drop 8).take 4) = f.addr % 2 ^ 32 ∧ leNat (((flitBytes f).drop 12).take 4) = f.stamp ∧
      leNat (((flitBytes f).drop 248).take 4) =
        f.seq * 2 ^ 23 + f.ack * 2 ^ 14 + b2n f.nak * 2 ^ 13 + f.cvc * 2 ^ 10 + f.ccount * 2 ^ 7 + f.hops

/-- R260, R265 to R268, R270, R271, R273, R275, R277: a flit with a wrong CRC, or one that an uncorrectable codeword overlaps, is counted and discarded, and the
first one discarded asks for a replay; symbols in error are charged to the lanes that carried them; an IDLE flit acknowledges; a request in order for this
device joins those served and its place is owed back as a credit, one for another node leaves on the port that routing gives; a replay that is due sends every
unacknowledged flit again, and the port retrains after eight without progress; a flit slot sends what goes first: a link-local flit, a new flit that holds a
credit, which takes the next sequence number and a place in the replay buffer, or IDLE. FLIT_RECEIVE, REPLAY_TIMEOUT, FLIT_SEND complete. The model's choices it
rests on: notes/assumptions/1, 26, 43, 72, 73. -/
def Obligations.Flits : Prop :=
  ∀ (s : State) (t p : Nat) (x : Port), s.canonical → s.powered → p < 4 → (s.begin t).domainOn (40 + p) = true → (s.begin t).portOf p = x →
    x.st = .active →
    (∀ data errs n, data.length = 256 → n = ((errs.filter fun k => decide (k < 544)).eraseDups).length →
      (flitCrcOk data = false → n ≤ 15 →
        Completes (.flitReceive t p data errs) t s [.regs, .web] fun b e =>
          e.portOf p = { x with rxCode := (x.rxCode.decoded n).next, skipping := true, nakDue := x.nakDue || ! x.skipping } ∧
            Table.SameBut [p] b.web.ports e.web.ports ∧
            e.fld f_WEB_PORT_STATS_crc_errors p = min 0xFFFF (b.fld f_WEB_PORT_STATS_crc_errors p + 1) ∧
            (∀ l, l < 3 → x.rxCode.fresh = true → e.fld f_WEB_LANE_FEC_corrected p l = min 0xFFFFFF (b.fld f_WEB_LANE_FEC_corrected p l +
              (((errs.filter fun k => decide (k < 544)).eraseDups).filter fun k => decide (x.carrier k = l)).length)) ∧
            Table.SameBut (regAddr .WEB_PORT_STATS p 0 :: (List.range 3).map fun l => regAddr .WEB_LANE_FEC p l) b.regs e.regs) ∧
      (15 < n → x.rxCode.fresh = true → (∀ l, l < 3 → (x.lane l).uncorr < 16) →
        Completes (.flitReceive t p data errs) t s [.regs, .web] fun b e =>
          (e.portOf p).rxSeq = x.rxSeq ∧ (e.portOf p).skipping = true ∧ (e.portOf p).rxCode = (x.rxCode.decoded n).next ∧
            e.fld f_WEB_PORT_STATS_crc_errors p = min 0xFFFF (b.fld f_WEB_PORT_STATS_crc_errors p + 1) ∧
            (∀ l, l < 3 → (∃ k ∈ errs, k < 544 ∧ x.carrier k = l) →
              e.fld f_WEB_LANE_FEC_uncorrectable p l = min 0xFF (b.fld f_WEB_LANE_FEC_uncorrectable p l + 1)) ∧
            e.web.serving = b.web.serving ∧ Table.SameBut [p] b.web.ports e.web.ports)) ∧
    (∀ data f y, data.length = 256 → flitOfBytes data = f → flitCrcOk data = true → (x.rxCode.decoded 0).spoils = false →
      y = { x with rxCode := (x.rxCode.decoded 0).next } → f.nak = false → f.cvc = 0 →
      (f.type = 0 →
        Completes (.flitReceive t p data []) t s [.web] fun b e =>
          e.portOf p = (if f.seq = x.rxSeq then { y.acked f.ack with skipping := false } else y.acked f.ack) ∧
            Table.SameBut [p] b.web.ports e.web.ports ∧ e.web.serving = b.web.serving) ∧
      (x.replay = [] → f.type = 0x10 → f.seq = x.rxSeq → f.dst = (s.begin t).node → (s.begin t).dev.nodeValid = true →
        ((s.begin t).web.serving.length < 256 →
          Completes (.flitReceive t p data []) t s [.web] fun b e =>
            e.web.serving = b.web.serving ++ [f] ∧ e.web.waiting = b.web.waiting ∧
              e.portOf p = { y with rxSeq := (x.rxSeq + 1) % 512, skipping := false,
                                    giveBack := Table.put 0 (2 + f.vc) (Table.get 0 (2 + f.vc) x.giveBack + 1) x.giveBack } ∧
              Table.SameBut [p] b.web.ports e.web.ports) ∧
        (256 ≤ (s.begin t).web.serving.length →
          Completes (.flitReceive t p data []) t s [.web] fun b e =>
            e.web.serving = b.web.serving ∧ e.web.waiting = b.web.waiting ++ [(p, f)] ∧
              e.portOf p = { y with rxSeq := (x.rxSeq + 1) % 512, skipping := false } ∧ Table.SameBut [p] b.web.ports e.web.ports)) ∧
      (∀ q w, x.replay = [] → f.type = 0x10 → f.seq = x.rxSeq → (s.begin t).isMine f.dst = false →
        f.hops + 1 ≤ (s.begin t).fld f_WEB_CTL_max_hops → (s.begin t).routeTo f.dst = some (q, w) → q ≠ p →
        Completes (.flitReceive t p data []) t s [.web] fun b e =>
          e.web.serving = b.web.serving ∧ (∃ g, (e.portOf q).qReq = (b.portOf q).qReq ++ [g] ∧ g = { f with vc := g.vc }) ∧
            (e.portOf p).rxSeq = (x.rxSeq + 1) % 512 ∧ Table.SameBut [p, q] b.web.ports e.web.ports) ∧
      (x.replay = [] → f.type ≠ 0 → f.seq ≠ x.rxSeq →
        Completes (.flitReceive t p data []) t s [.web] fun b e =>
          e.portOf p = { y with skipping := true, nakDue := x.nakDue || ! x.skipping } ∧ Table.SameBut [p] b.web.ports e.web.ports ∧
            e.web.serving = b.web.serving)) ∧
    (x.sentAt = [] ∨ x.replay = [] → Completes (.replayTimeout t p) t s [] fun _ _ => True) ∧
    (∀ a l, x.sentAt = a :: l → x.replay ≠ [] →
      ((s.begin t).now < a + 1024000 → Completes (.replayTimeout t p) t s [] fun _ _ => True) ∧
      (a + 1024000 ≤ (s.begin t).now →
        (x.tries < 8 →
          Completes (.replayTimeout t p) t s [.regs, .web] fun b e =>
            e.portOf p = { x with again := x.replay.length, tries := x.tries + 1, sentAt := x.sentAt.map fun _ => b.now } ∧
              Table.SameBut [p] b.web.ports e.web.ports ∧
              e.fld f_WEB_PORT_STATS_replays p = min 0xFFFF (b.fld f_WEB_PORT_STATS_replays p + 1) ∧
              Table.SameBut [regAddr .WEB_PORT_STATS p 0] b.regs e.regs) ∧
        (8 ≤ x.tries →
          Completes (.replayTimeout t p) t s [.regs, .evm, .force, .engs, .que, .memc, .vat, .web, .flt, .cal] fun b e =>
            e.portOf p = { x with st := .retrain, since := b.now } ∧ Table.SameBut [p] b.web.ports e.web.ports ∧
              e.on f_WEB_EVENTS_retrain = true))) ∧
    (x.streamWait < 3 →
      (∀ f rest, x.qLocal = f :: rest →
        Completes (.flitSend t p) t s [.web] fun b e =>
          (e.portOf p).qLocal = rest ∧ (e.portOf p).replay = x.replay ∧ (e.portOf p).txSeq = x.txSeq ∧ (e.portOf p).credits = x.credits ∧
            (∃ g, (e.portOf p).sent = some g ∧ g.type = f.type ∧ g.dst = x.peerNode ∧
              g.payload = (if f.type = 4 then (b.beatFlit p (b.ownBeat p)).payload else f.payload) ∧ g.ack = (x.rxSeq + 511) % 512 ∧
              g.nak = x.nakDue) ∧ Table.SameBut [p] b.web.ports e.web.ports ∧ e.web.serving = b.web.serving) ∧
      (∀ f rest, x.qLocal = [] → x.again = 0 → x.replay.length < 255 → x.qBcast = [] → x.qRsp = [] → x.qReq = f :: rest → f.type = 0x10 → f.vc < 2 →
        Table.rising x.credits = true → 0 < Table.get 0 (2 + f.vc) x.credits →
        Completes (.flitSend t p) t s [.web] fun b e =>
          (e.portOf p).qReq = rest ∧ (e.portOf p).txSeq = (x.txSeq + 1) % 512 ∧ (e.portOf p).replay = x.replay ++ [{ f with seq := x.txSeq }] ∧
            Table.get 0 (2 + f.vc) (e.portOf p).credits + 1 = Table.get 0 (2 + f.vc) x.credits ∧
            Table.SameBut [2 + f.vc] x.credits (e.portOf p).credits ∧
            (e.portOf p).sentAt = x.sentAt ++ [b.now] ∧
            (∃ g, (e.portOf p).sent = some g ∧ g = { f with seq := x.txSeq, ack := (x.rxSeq + 511) % 512, nak := x.nakDue, cvc := g.cvc,
                                                            ccount := g.ccount, hops := f.hops + 1 }) ∧
            Table.SameBut [p] b.web.ports e.web.ports ∧ e.web.serving = b.web.serving) ∧
      (x.qLocal = [] → x.again = 0 → (255 ≤ x.replay.length ∨ (x.qBcast = [] ∧ x.qRsp = [] ∧ x.qReq = [] ∧ x.qStream = [])) →
        Completes (.flitSend t p) t s [.web] fun b e =>
          (∃ g, (e.portOf p).sent = some g ∧ g.type = 0 ∧ g.dst = x.peerNode) ∧ (e.portOf p).replay = x.replay ∧ (e.portOf p).txSeq = x.txSeq ∧
            (e.portOf p).held = x.held ∧ Table.SameBut [p] b.web.ports e.web.ports ∧ e.web.serving = b.web.serving)) ∧
    (∀ f rest, 3 ≤ x.streamWait → x.qStream = f :: rest → x.again = 0 → x.replay.length < 255 → f.type = 0x20 → f.vc < 2 →
      Table.rising x.credits = true → 0 < Table.get 0 (6 + f.vc) x.credits →
      Completes (.flitSend t p) t s [.web] fun b e =>
        (e.portOf p).qStream = rest ∧ (e.portOf p).streamWait = 0 ∧ (e.portOf p).replay = x.replay ++ [{ f with seq := x.txSeq }] ∧
          (∃ g, (e.portOf p).sent = some g ∧ g.type = 0x20 ∧ g.payload = f.payload) ∧
          Table.SameBut [p] b.web.ports e.web.ports ∧ e.web.serving = b.web.serving) ∧
    ∀ data errs, data.length = 256 → ∀ c ∈ [Instr.flitReceive t p data errs, .replayTimeout t p, .flitSend t p], ∃ e, exec c s = .next e

/-- R34, R238, R272, R273, Table 9-7: a READ_REQ of memory is answered OK with its bytes, of a register with its word, a WRITE_REQ puts its bytes into memory
and is answered OK; a request that R272 does not allow is answered REFUSED and changes nothing, one to a reserved range is answered RESERVED and a write into a
write-protected region WPROT, and both are logged. The response goes to the port that routing gives for the requester. READ_REQ, WRITE_REQ complete for every
request that reaches no ZRT-2560 register. The model's choices it rests on: notes/assumptions/1, 59, 70, 75, 86. -/
def Obligations.WebRequests : Prop :=
  ∀ (s : State) (t src tag a len q : Nat) (w : Bool) (data : List Byte),
    (∀ bad, s.foreignIn a len false = none → ∃ e, exec (.readReq t src tag a len bad) s = .next e) ∧
    (s.foreignIn a data.length true = none → ∃ e, exec (.writeReq t src tag a data) s = .next e) ∧
    (s.canonical → s.powered → src < 0x1000 → s.answers src = true → a % 4 = 0 →
      (s.begin t).routeTo src = some (q, w) → (s.begin t).web.waiting = [] →
      (reqOk a len = true → a + len ≤ 2 ^ 34 → (s.begin t).memQuiet → (s.begin t).srEntering = false →
        Completes (.readReq t src tag a len false) t s [.regs, .evm, .force, .engs, .que, .memc, .vat, .web, .flt, .cal] fun b e =>
          let r := ((b.served src 0x10 tag).memRead src 3 a len []).1
          e.regs = r.regs ∧ e.memc = r.memc ∧ e.flt = r.flt ∧
            (∃ g, (e.portOf q).qRsp = (b.portOf q).qRsp ++ [g] ∧ g.type = 0x18 ∧ g.dst = src ∧ g.src = b.servedAs src 0x10 tag ∧ g.tag = tag ∧
              g.len = len ∧ g.status = 0 ∧ g.addr = a ∧ g.payload = r.hbmBytes a len) ∧
            Table.SameBut [q] b.web.ports e.web.ports) ∧
      (∀ r i j, s.target a = .reg r i j → len = 4 → reqOk a len = true → (s.begin t).regWaits src 0x10 tag isRegAddr = false →
        s.foreignIn a len false = none → ∃ e, exec (.readReq t src tag a len false) s = .next (State.finish (s.begin t) e) ∧
          let d := ((s.begin t).served src 0x10 tag).readAt src a false
          e = d.st.respond ((s.begin t).servedAs src 0x10 tag) src 0x10 tag 4 d.status a (leBytes d.data.toNat 4)) ∧
      (reqOk a len = false → s.foreignIn a len false = none → (isRegAddr a && (s.begin t).regWaits src 0x10 tag isRegAddr) = false →
        Completes (.readReq t src tag a len false) t s [.web] fun b e =>
          (∃ g, (e.portOf q).qRsp = (b.portOf q).qRsp ++ [g] ∧ g.type = 0x18 ∧ g.dst = src ∧ g.tag = tag ∧ g.status = 5) ∧
            Table.SameBut [q] b.web.ports e.web.ports) ∧
      (reqOk a data.length = false → s.foreignIn a data.length true = none → (isRegAddr a && (s.begin t).regWaits src 0x11 tag isRegAddr) = false →
        Completes (.writeReq t src tag a data) t s [.web] fun b e =>
          (∃ g, (e.portOf q).qRsp = (b.portOf q).qRsp ++ [g] ∧ g.type = 0x19 ∧ g.dst = src ∧ g.tag = tag ∧ g.status = 5) ∧
            Table.SameBut [q] b.web.ports e.web.ports) ∧
      (reqOk a data.length = true → s.target a = .reserved → s.foreignIn a data.length true = none →
        (isRegAddr a && (s.begin t).regWaits src 0x11 tag isRegAddr) = false →
        Completes (.writeReq t src tag a data) t s [.regs, .evm, .force, .engs, .que, .memc, .vat, .web, .flt, .cal] fun b e =>
          (∃ g, (e.portOf q).qRsp = (b.portOf q).qRsp ++ [g] ∧ g.type = 0x19 ∧ g.dst = src ∧ g.tag = tag ∧ g.status = 1) ∧
            e.flt = ((b.served src 0x11 tag).accessFault 0x002 1 .none src (accessType a true) a).flt) ∧
      (reqOk a data.length = true → a + data.length ≤ 2 ^ 34 → (s.begin t).tableWrite a data.length = false →
        ((s.begin t).wprotected a data.length = false → (s.begin t).memQuiet → (s.begin t).srEntering = false →
          (∀ k, k < data.length → (((s.begin t).served src 0x11 tag).memTouch 3 a data.length).copyAddr (a + k) = none) →
          Completes (.writeReq t src tag a data) t s [.regs, .evm, .force, .engs, .que, .memc, .vat, .hbm, .web, .flt, .cal] fun b e =>
            let m := (b.served src 0x11 tag).memTouch 3 a data.length
            e.regs = m.regs ∧ e.memc = { m.memc with spoilt := e.memc.spoilt } ∧ e.flt = m.flt ∧ e.stackBytes a data.length = data ∧
              Table.SameBut ((List.range data.length).map fun k => a + k) b.hbm e.hbm ∧
              (∃ g, (e.portOf q).qRsp = (b.portOf q).qRsp ++ [g] ∧ g.type = 0x19 ∧ g.dst = src ∧ g.tag = tag ∧ g.status = 0) ∧
              Table.SameBut [q] b.web.ports e.web.ports) ∧
        ((s.begin t).wprotected a data.length = true →
          Completes (.writeReq t src tag a data) t s [.regs, .evm, .force, .engs, .que, .memc, .vat, .web, .flt, .cal] fun b e =>
            (∃ g, (e.portOf q).qRsp = (b.portOf q).qRsp ++ [g] ∧ g.type = 0x19 ∧ g.dst = src ∧ g.tag = tag ∧ g.status = 2) ∧
              e.flt = ((b.served src 0x11 tag).memFault 0x600 1 .none src 4 a).flt)))

/-- R183, R279 to R281: a measurement of a powered lane is kept; the third one below a warn limit takes the lane to WARN, and with the spare free the peer is
asked for its spare; a measurement below a fail limit or a loss of signal takes it to FAILED, and on a port that is ACTIVE the first failed lane is taken out,
logged and replaced, and a further one makes the port retrain. An item for each powered lane is written once a period. A lane that is not powered measures
nothing. EYE_MEASUREMENT, LOSS_OF_SIGNAL, LINK_EYE complete. The model's choices it rests on: notes/assumptions/1, 24, 26, 68, 104. -/
def Obligations.LaneHealth : Prop :=
  ∀ (s : State) (t p l : Nat) (x : Port), s.canonical → s.powered → p < 4 → l < 3 → (s.begin t).portOf p = x →
    ((s.begin t).lanePowered p l = false →
      Completes (.lossOfSignal t p l) t s [] (fun _ _ => True) ∧ ∀ w h, Completes (.eyeMeasurement t p l w h) t s [] fun _ _ => True) ∧
    ((s.begin t).lanePowered p l = true → (s.begin t).on f_QUE_AGENT_CTL_enable (16 + p) = false →
      (∀ w h, (s.begin t).fld f_WEB_LANE_LIMIT_fail_width ≤ w → (s.begin t).fld f_WEB_LANE_LIMIT_fail_height ≤ h →
        ((x.lane l).health = .good → (s.begin t).fld f_WEB_LANE_LIMIT_warn_width < w → (s.begin t).fld f_WEB_LANE_LIMIT_warn_height < h →
          Completes (.eyeMeasurement t p l w h) t s [.web] fun b e =>
            e.portOf p = x.setLane l { x.lane l with measured := true, width := w, height := h, uncorr := 0, low := 0, high := (x.lane l).high + 1 } ∧
              Table.SameBut [p] b.web.ports e.web.ports ∧ e.web.serving = b.web.serving) ∧
        (∀ k, (x.lane l).health = .good → (x.lane l).low = 2 → w < (s.begin t).fld f_WEB_LANE_LIMIT_warn_width → x.logical l = some k →
          x.rxSpare = .free →
          Completes (.eyeMeasurement t p l w h) t s [.regs, .web, .pwr] fun b e =>
            e.portOf p = { x.setLane l { x.lane l with measured := true, width := w, height := h, uncorr := 0, low := 3, high := 0, health := .warn } with
                rxSpare := .asked, rxBad := k, qLocal := x.qLocal ++ [b.linkParam p 2 [0, k]] } ∧
              e.on f_WEB_EVENTS_lane_warn = true ∧ Table.SameBut [regAddr .WEB_EVENTS 0 0] b.regs e.regs ∧
              e.domainOn 44 = true ∧ (∀ d, d ≠ 44 → e.domainOn d = b.domainOn d) ∧ Table.SameBut [p] b.web.ports e.web.ports)) ∧
      (∀ w h k, (w < (s.begin t).fld f_WEB_LANE_LIMIT_fail_width ∨ h < (s.begin t).fld f_WEB_LANE_LIMIT_fail_height) →
        (x.lane l).health ≠ .failed → x.logical l = some k → x.st = .active → x.degraded = false → x.rxSpare = .free →
        Completes (.eyeMeasurement t p l w h) t s [.regs, .evm, .force, .engs, .que, .memc, .vat, .web, .flt, .cal, .pwr] fun b e =>
          ((e.portOf p).lane l).health = .failed ∧ (e.portOf p).degraded = true ∧ (e.portOf p).rxSpare = .asked ∧ (e.portOf p).rxBad = k ∧
            (e.portOf p).qLocal = x.qLocal ++ [b.linkParam p 2 [0, k]] ∧ (e.portOf p).st = .active ∧ e.on f_WEB_EVENTS_lane_failed = true ∧
            e.domainOn 44 = true ∧ Table.SameBut [p] b.web.ports e.web.ports) ∧
      ((x.lane l).health = .failed → Completes (.lossOfSignal t p l) t s [] fun _ _ => True) ∧
      (∀ k, (x.lane l).health ≠ .failed → x.logical l = some k → x.st = .active → x.degraded = false → x.rxSpare = .free →
        Completes (.lossOfSignal t p l) t s [.regs, .evm, .force, .engs, .que, .memc, .vat, .web, .flt, .cal, .pwr] fun b e =>
          e.portOf p = { x.setLane l { x.lane l with health := .failed, low := 0, high := 0 } with
              degraded := true, rxSpare := .asked, rxBad := k, qLocal := x.qLocal ++ [b.linkParam p 2 [0, k]] } ∧
            e.on f_WEB_EVENTS_lane_failed = true ∧ e.domainOn 44 = true ∧ (∀ d, d ≠ 44 → e.domainOn d = b.domainOn d) ∧
            Table.SameBut [p] b.web.ports e.web.ports ∧ ∃ y : State, y.flt = b.flt ∧ y.now = b.now ∧
              e.flt = (y.log { y.detect 0x708 2 (.port p) (0x1110 + p) with detail := l }).flt) ∧
      (∀ k, (x.lane l).health ≠ .failed → x.logical l = some k → x.st = .active → x.degraded = true →
        Completes (.lossOfSignal t p l) t s [.regs, .evm, .force, .engs, .que, .memc, .vat, .web, .flt, .cal] fun b e =>
          (e.portOf p).st = .retrain ∧ ((e.portOf p).lane l).health = .failed ∧ e.on f_WEB_EVENTS_retrain = true ∧
            Table.SameBut [p] b.web.ports e.web.ports)) ∧
    ((s.begin t).fld f_WEB_EYE_CTL_period = 0 ∨ (s.begin t).now < x.eyeAt + 256000000000 * (s.begin t).fld f_WEB_EYE_CTL_period →
      Completes (.linkEye t p) t s [] fun _ _ => True) ∧
    ((s.begin t).fld f_WEB_EYE_CTL_period ≠ 0 → x.eyeAt + 256000000000 * (s.begin t).fld f_WEB_EYE_CTL_period ≤ (s.begin t).now →
      Completes (.linkEye t p) t s [.regs, .evm, .force, .engs, .que, .memc, .vat, .web, .flt, .cal] fun b e =>
        e.portOf p = { x with eyeAt := b.now } ∧ Table.SameBut [p] b.web.ports e.web.ports ∧
          e = (b.setPort p { x with eyeAt := b.now }).each ((List.range 3).filter fun k => b.lanePowered p k) fun k y =>
            y.agentItem (16 + p) 0x13 (f64 (x.lane k).width 1000) (BitVec.ofNat 32 ((x.lane k).height + k * 2 ^ 12))) ∧
    ∀ w h, ∀ c ∈ [Instr.eyeMeasurement t p l w h, .lossOfSignal t p l, .linkEye t p], ∃ e, exec c s = .next e

/-- R262, R280, R282: on an ACTIVE port the peer's request powers and trains the spare transmit lane; a spare that is trained leads to the proposal of a swap,
which is agreed for the lane concerned and acknowledged; at the agreed codeword the spare takes over the logical lane, and its receiver logs the swap. A write
of a new rate asks the peer for it or waits while training data are gathered; the peer's answer refuses it or takes the port to RETRAIN at the new rate; the
device answers the peer's own request. SPARE_ON, SPARE_TRAINED, SWAP_REQ, SWAP_ACK, LANE_SWAP, WEB_PORT_RATE_REQ, RATE_REQ, RATE_ACK. The model's choices it
rests on: notes/assumptions/1, 24, 25, 70, 104. -/
def Obligations.SpareLanesAndRates : Prop :=
  ∀ (s : State) (t p lane count : Nat) (x : Port), s.canonical → s.powered → p < 4 → (s.begin t).domainOn (40 + p) = true →
    (s.begin t).portOf p = x → x.st = .active →
    (x.txSpare = .free → lane < 2 →
      Completes (.spareOn t p lane) t s [.web, .pwr] fun b e =>
        e.portOf p = { x with txSpare := .training, txBad := lane } ∧ Table.SameBut [p] b.web.ports e.web.ports ∧ e.domainOn 44 = true ∧
          (∀ d, d ≠ 44 → e.domainOn d = b.domainOn d) ∧ e.pwr = { b.pwr with on := e.pwr.on }) ∧
    (x.txSpare ≠ .free → Completes (.spareOn t p lane) t s [] fun _ _ => True) ∧
    (x.rateWait = none →
      (x.rxSpare = .asked ∨ x.rxSpare = .training →
        Completes (.spareTrained t p .rx count) t s [.web] fun b e =>
          e.portOf p = { x with rxSpare := .trained count, qLocal := x.qLocal ++ [b.swapFlit p 3 0 x.rxBad count] } ∧
            Table.SameBut [p] b.web.ports e.web.ports) ∧
      (x.txSpare = .training →
        Completes (.spareTrained t p .tx count) t s [.web] fun b e =>
          e.portOf p = { x with txSpare := .trained count } ∧ Table.SameBut [p] b.web.ports e.web.ports)) ∧
    (∀ r, x.rateWait = some r → x.txSpare = .training → x.rxSpare ≠ .asked → x.rxSpare ≠ .training →
      Completes (.spareTrained t p .tx count) t s [.web] fun b e =>
        e.portOf p = { x with txSpare := .trained count, rateWait := none, rateAsked := some r, qLocal := x.qLocal ++ [b.linkParam p 5 [r]] } ∧
          Table.SameBut [p] b.web.ports e.web.ports) ∧
    (lane = x.rxBad →
      (∀ c, x.rxSpare = .trained c →
        Completes (.swapReq t p .rx lane count) t s [.web] fun b e =>
          e.portOf p = { x with rxSpare := .agreed lane count, qLocal := x.qLocal ++ [b.swapFlit p 4 1 lane count] } ∧
            Table.SameBut [p] b.web.ports e.web.ports) ∧
      (x.rxSpare = .trained count →
        Completes (.swapAck t p .rx lane count) t s [.web] fun b e =>
          e.portOf p = { x with rxSpare := .agreed lane count } ∧ Table.SameBut [p] b.web.ports e.web.ports)) ∧
    (lane = x.txBad →
      (∀ c, x.txSpare = .trained c →
        Completes (.swapReq t p .tx lane count) t s [.web] fun b e =>
          e.portOf p = { x with txSpare := .agreed lane count, qLocal := x.qLocal ++ [b.swapFlit p 4 0 lane count] } ∧
            Table.SameBut [p] b.web.ports e.web.ports) ∧
      (x.txSpare = .trained count →
        Completes (.swapAck t p .tx lane count) t s [.web] fun b e =>
          e.portOf p = { x with txSpare := .agreed lane count } ∧ Table.SameBut [p] b.web.ports e.web.ports)) ∧
    ((∀ c, x.rxSpare ≠ .trained c) ∨ lane ≠ x.rxBad → Completes (.swapReq t p .rx lane count) t s [] fun _ _ => True) ∧
    (x.rxSpare ≠ .trained count ∨ lane ≠ x.rxBad → Completes (.swapAck t p .rx lane count) t s [] fun _ _ => True) ∧
    (∀ a c, x.rxSpare = .agreed a c →
      Completes (.laneSwap t p .rx) t s [.regs, .evm, .force, .engs, .que, .memc, .vat, .web, .flt, .cal] fun b e =>
        (e.portOf p).rx0 = (if x.rxBad = 0 then 2 else x.rx0) ∧ (e.portOf p).rx1 = (if x.rxBad = 0 then x.rx1 else 2) ∧
          (e.portOf p).rxSpare = .used ∧ (e.portOf p).st = .active ∧
          (e.portOf p).degraded = (x.degraded && decide ((x.lane (if x.rxBad = 0 then x.rx1 else x.rx0)).health = .failed)) ∧
          e.on f_WEB_EVENTS_lane_swap = true ∧
          Table.SameBut [p] b.web.ports e.web.ports ∧ ∃ y : State, y.flt = b.flt ∧ y.now = b.now ∧
            e.flt = (y.log { y.detect 0x707 2 (.port p) (0x1110 + p) with detail := if x.rxBad = 0 then x.rx0 else x.rx1 }).flt) ∧
    (∀ a c, x.txSpare = .agreed a c →
      Completes (.laneSwap t p .tx) t s [.web] fun b e =>
        e.portOf p = { x with tx0 := if x.txBad = 0 then 2 else x.tx0, tx1 := if x.txBad = 0 then x.tx1 else 2, txSpare := .used } ∧
          Table.SameBut [p] b.web.ports e.web.ports) ∧
    (∀ m v, s.answers m = true → (s.begin t).shielded (regAddr .WEB_PORT_RATE p 0) = 0 → bits v 16 2 ≠ (s.begin t).fld f_WEB_PORT_RATE_req p →
      (bits v 16 2 ≤ 1 →
        Completes (.webPortRateReq t m p v) t s [.regs, .web, .resp] fun b e =>
          e.resp = ⟨m, false, 0⟩ ∧ e.fld f_WEB_PORT_RATE_req p = bits v 16 2 ∧ Table.SameBut [regAddr .WEB_PORT_RATE p 0] b.regs e.regs ∧
            Table.SameBut [p] b.web.ports e.web.ports ∧
            e.portOf p = if x.training then { x with rateWait := some (bits v 16 2) } else if bits v 16 2 = x.rate then x
              else { x with rateAsked := some (bits v 16 2), qLocal := x.qLocal ++ [b.linkParam p 5 [bits v 16 2]] }) ∧
      (1 < bits v 16 2 →
        Completes (.webPortRateReq t m p v) t s [.regs, .evm, .force, .engs, .que, .memc, .vat, .flt, .cal, .resp] fun b e =>
          e.resp = ⟨m, false, 0⟩ ∧ e.fld f_WEB_PORT_RATE_req p = b.fld f_WEB_PORT_RATE_req p ∧
            e.flt = (b.accessFault 0x004 1 .none m 2 (regAddr .WEB_PORT_RATE p 0)).flt)) ∧
    (∀ code refuse,
      (refuse = false → code < 2 →
        Completes (.rateReq t p code refuse) t s [.web] fun b e =>
          e.portOf p = { x with rateNew := some code, qLocal := x.qLocal ++ [b.linkParam p 6 [code]] } ∧
            Table.SameBut [p] b.web.ports e.web.ports) ∧
      (refuse = true ∨ 2 ≤ code →
        Completes (.rateReq t p code refuse) t s [.web] fun b e =>
          e.portOf p = { x with qLocal := x.qLocal ++ [b.linkParam p 6 [0xFF]] } ∧ Table.SameBut [p] b.web.ports e.web.ports) ∧
      (x.rateAsked = none → Completes (.rateAck t p code) t s [] fun _ _ => True) ∧
      (∀ r, x.rateAsked = some r →
        (code = 0xFF →
          Completes (.rateAck t p code) t s [.regs, .web] fun b e =>
            e.portOf p = { x with rateAsked := none } ∧ Table.SameBut [p] b.web.ports e.web.ports ∧ e.on f_WEB_EVENTS_rate_refused = true ∧
              Table.SameBut [regAddr .WEB_EVENTS 0 0] b.regs e.regs) ∧
        (code ≠ 0xFF → code = r →
          Completes (.rateAck t p code) t s [.regs, .evm, .force, .engs, .que, .memc, .vat, .web, .flt, .cal] fun b e =>
            e.portOf p = { x with rateAsked := none, rateNew := some r, st := .retrain, since := b.now } ∧
              Table.SameBut [p] b.web.ports e.web.ports ∧ e.on f_WEB_EVENTS_retrain = true))) ∧
    ∀ d m v code refuse, ∀ c ∈ [Instr.spareOn t p lane, .spareTrained t p d count, .swapReq t p d lane count, .swapAck t p d lane count,
      .laneSwap t p d, .webPortRateReq t m p v, .rateReq t p code refuse, .rateAck t p code], ∃ e, exec c s = .next e

/-- R286, R287, Table 9-10: a management transaction of MGMT_SPI writes or reads a register as master 0x1020 when it is complete, and returns 0x00 while the
access is in progress and then 0x01 with the data, or 0x02 with zeros; one that is cut short or begins with another byte does nothing. MGMT_ACCESS does so as
master 0x1021 with the status, the address and the data in its data register; the TAP answers its identity, captures pins, and takes any other code as BYPASS,
ending every scan in Run-Test/Idle. SPI_WRITE, SPI_READ, MGMT_ACCESS, IDCODE, BYPASS, SAMPLE_PRELOAD complete. The model's choices it rests on:
notes/assumptions/1, 29, 105. -/
def Obligations.ManagementPorts : Prop :=
  ∀ (s : State) (t : Nat),
    (∀ mosi, ((spiFrame mosi).all fun f => decide (f.1 ≠ 2) || (s.foreign f.2.1 true).isNone) = true → ∃ e, exec (.spiWrite t mosi) s = .next e) ∧
    (∀ mosi busy bad, ((spiFrame mosi).all fun f => decide (f.1 ≠ 3) || (s.foreign f.2.1 false).isNone) = true →
      ∃ e, exec (.spiRead t mosi busy bad) s = .next e) ∧
    (∀ w a v bad, s.foreign a w = none → ∃ e, exec (.mgmtAccess t w a v bad) s = .next e) ∧
    (∀ trst code pins load, ∀ c ∈ [Instr.idcode t trst, .bypass t code, .samplePreload t pins load], ∃ e, exec c s = .next e) ∧
    (s.canonical → s.powered →
      (∀ mosi a data v r i j, spiFrame mosi = some (0x02, a, data) → 4 ≤ data.length → v = BitVec.ofNat 32 (beNat (data.take 4)) → a % 4 = 0 →
        s.target a = .reg r i j → (s.begin t).shielded (regAddr r i j) = 0 →
        r ∈ [Reg.CH_DECKLE, .CH_CALENDER, .CH_CALENDER_RATE, .TILE_GUARD_CTL, .CH_MEAS_LEN, .CH_MEAS_DELAY, .CH_MEAS_MON, .CH_SWEEP_AT,
          .MEMC_PR_BANK, .MEMC_PR_PC, .WEB_EYE_CTL] →
        Completes (.spiWrite t mosi) t s [.regs, .resp, .jtag] (fun b e =>
          e.rd r i j = (b.rd r i j &&& ~~~ rwMask r) ||| (v &&& rwMask r) ∧ Table.SameBut [regAddr r i j] b.regs e.regs ∧
            e.resp = ⟨0x1020, false, 0⟩ ∧ e.jtag = { b.jtag with miso := [] }) ∧
        ∀ bad, Completes (.mgmtAccess t true a v bad) t s [.regs, .resp, .jtag] fun b e =>
          e.rd r i j = (b.rd r i j &&& ~~~ rwMask r) ||| (v &&& rwMask r) ∧ Table.SameBut [regAddr r i j] b.regs e.regs ∧
            e.resp = ⟨0x1021, false, 0⟩ ∧ e.jtag.ir = 0x20 ∧ e.jtag.drives = false ∧ e.jtag.mgmt = 2 ^ 68 + a % 2 ^ 36 * 2 ^ 32 ∧
            e.jtag.boundary = b.jtag.boundary) ∧
      (∀ mosi, (∀ a data, spiFrame mosi = some (0x02, a, data) → data.length < 4) →
        Completes (.spiWrite t mosi) t s [.jtag] fun b e => e.jtag = { b.jtag with miso := [] }) ∧
      (∀ mosi busy bad, (∀ a rest, spiFrame mosi ≠ some (0x03, a, rest)) →
        Completes (.spiRead t mosi busy bad) t s [.jtag] fun b e => e.jtag = { b.jtag with miso := [] }) ∧
      (∀ a r i j, a % 4 = 0 → s.target a = .reg r i j → pairHalf r i j = none → r ≠ .QUE_FELT_POP →
        (∀ mosi rest busy bad, spiFrame mosi = some (0x03, a, rest) →
          Completes (.spiRead t mosi busy bad) t s [.regs, .resp, .jtag] fun b e =>
            e.resp = ⟨0x1020, false, b.viewReg r i j⟩ ∧ e.rd r i j = b.rd r i j &&& ~~~ accMask r (fun x => x == .rc) ∧
              Table.SameBut [regAddr r i j] b.regs e.regs ∧
              e.jtag = { b.jtag with
                miso := (List.replicate busy 0 ++ 1 :: (leBytes (b.viewReg r i j).toNat 4).reverse).take rest.length }) ∧
        ∀ v bad, Completes (.mgmtAccess t false a v bad) t s [.regs, .resp, .jtag] fun b e =>
          e.resp = ⟨0x1021, false, b.viewReg r i j⟩ ∧ e.rd r i j = b.rd r i j &&& ~~~ accMask r (fun x => x == .rc) ∧
            Table.SameBut [regAddr r i j] b.regs e.regs ∧ e.jtag.ir = 0x20 ∧ e.jtag.drives = false ∧
            e.jtag.mgmt = 2 ^ 68 + a % 2 ^ 36 * 2 ^ 32 + (b.viewReg r i j).toNat ∧ e.jtag.out = e.jtag.mgmt) ∧
      (∀ a, a % 4 = 0 → s.target a = .reserved →
        (∀ mosi rest busy bad, spiFrame mosi = some (0x03, a, rest) →
          Completes (.spiRead t mosi busy bad) t s [.regs, .evm, .force, .engs, .que, .memc, .vat, .flt, .cal, .resp, .jtag] fun b e =>
            e.resp = ⟨0x1020, true, 0⟩ ∧ e.jtag = { b.jtag with miso := (List.replicate busy 0 ++ [2, 0, 0, 0, 0]).take rest.length } ∧
              e.flt = (b.accessFault 0x002 1 .none 0x1020 (accessType a false) a).flt) ∧
        ∀ v w bad, Completes (.mgmtAccess t w a v bad) t s [.regs, .evm, .force, .engs, .que, .memc, .vat, .flt, .cal, .resp, .jtag] fun b e =>
          e.resp = ⟨0x1021, true, 0⟩ ∧ e.jtag.mgmt = 2 ^ 69 + a % 2 ^ 36 * 2 ^ 32 ∧
            e.flt = (b.accessFault 0x002 1 .none 0x1021 (accessType a w) a).flt) ∧
      Completes (.idcode t true) t s [.jtag] (fun b e => e.jtag = { b.jtag with ir := 0x01, drives := false, tap := .reset }) ∧
      Completes (.idcode t false) t s [.jtag] (fun b e =>
        e.jtag = { b.jtag with ir := 0x01, drives := false, out := 0x151200A7, tap := e.jtag.tap } ∧
          (b.jtag.tap = .reset ∨ b.jtag.tap = .idle → e.jtag.tap = .idle)) ∧
      (∀ code, code % 256 ∉ [0x01, 0x02, 0x03, 0x04, 0x05, 0x06, 0x07, 0x20] →
        Completes (.bypass t code) t s [.jtag] fun b e =>
          e.jtag = { b.jtag with ir := 0xFF, drives := false, out := 0, tap := e.jtag.tap } ∧
            (b.jtag.tap = .reset ∨ b.jtag.tap = .idle → e.jtag.tap = .idle)) ∧
      (∀ pins load, Completes (.samplePreload t pins load) t s [.jtag] fun b e =>
        e.jtag = { b.jtag with ir := 0x02, drives := false, out := pins, boundary := load, tap := e.jtag.tap } ∧
          (b.jtag.tap = .reset ∨ b.jtag.tap = .idle → e.jtag.tap = .idle)))

/-- R288: the driving instructions take effect in boot phases 0x0 to 0x2 and 0xF alone; at any other time the TAP loads BYPASS in their place and a class-A
fault JTAG_REFUSED (0x005) is logged. EXTEST, EXTEST_PULSE, EXTEST_TRAIN, HIGHZ, CLAMP complete in every phase. -/
def Obligations.DrivingInstructions : Prop :=
  ∀ (s : State) (t : Nat),
    (∀ pins load, ∀ c ∈ [Instr.extest t pins load, .extestPulse t pins load, .extestTrain t pins load, .highz t, .clamp t],
      ∃ e, exec c s = .next e) ∧
    (s.canonical → s.powered →
      (s.dev.phase ≤ 2 ∨ s.dev.phase = 0xF →
        (∀ pins load c, c ∈ [(Instr.extest t pins load, 0x03), (.extestPulse t pins load, 0x04), (.extestTrain t pins load, 0x05)] →
          Completes c.1 t s [.jtag] fun b e =>
            e.jtag = { b.jtag with ir := c.2, drives := true, boundary := load, out := pins, tap := e.jtag.tap }) ∧
        ∀ c, c ∈ [(Instr.highz t, 0x06), (.clamp t, 0x07)] →
          Completes c.1 t s [.jtag] fun b e => e.jtag = { b.jtag with ir := c.2, drives := true, out := 0, tap := e.jtag.tap }) ∧
      (2 < s.dev.phase → s.dev.phase ≠ 0xF → ∀ pins load c,
        c ∈ [Instr.extest t pins load, .extestPulse t pins load, .extestTrain t pins load, .highz t, .clamp t] →
        Completes c t s [.regs, .evm, .force, .engs, .que, .memc, .vat, .jtag, .flt, .cal] fun b e =>
          e.jtag = { b.jtag with ir := 0xFF, drives := false, out := 0, tap := e.jtag.tap } ∧ e.flt = (b.fault 0x005 1 .none 0x1021).flt))

/-- R293 to R297, R299 to R301, R307, R380: a fault of class A or B is recorded; one of class C of a channel also takes the channel to SAFE under its policy; a
repeated one counts in its record; one that finds the event cycle's four captures used up waits in the queue, or is lost, and one that waits is captured with
its own times. SAFE_N recognised low is a class-E condition that takes every attached channel and every tile to its safe state, and it clears with SAFE_N high.
A condition is cleared once its cause is gone; with that of a lost rail the rail is back. CAPTURE, FIRMWARE_FAULT, QUEUED_CAPTURE, CONDITION_CLEAR, SAFE_N,
SAFE_N_RELEASE complete for every operand. The model's choices it rests on: notes/assumptions/1, 16, 33, 50, 51. -/
def Obligations.FaultsAreCaptured : Prop :=
  ∀ (s : State) (t : Nat),
    (∀ code cls sc m access a detail, isFault code cls sc = true →
      (isFirmwareCode code = false → ∃ e, exec (.capture t code cls sc m access a detail) s = .next e) ∧
      (isFirmwareCode code = true → ∃ e, exec (.firmwareFault t code cls sc m) s = .next e)) ∧
    (∀ code sc, isCode code = true → isScope sc = true → ∃ e, exec (.conditionClear t code sc) s = .next e) ∧
    (∀ width, ∀ c ∈ [Instr.queuedCapture t, .safeN t width, .safeNRelease t], ∃ e, exec c s = .next e) ∧
    (s.canonical → s.pwr.porHeld = false →
      (∀ c code cls sc m access a detail, isFault code cls sc = true →
        (∀ d, (isFirmwareCode code = false ∧ c = Instr.capture t code cls sc m access a detail ∧
              d = { (s.begin t).detect code cls sc (m % 2 ^ 16) with
                access := access % 16, addr := a % 2 ^ 48, detail := (s.begin t).detailWord code sc detail }) ∨
            (isFirmwareCode code = true ∧ c = .firmwareFault t code cls sc m ∧
              d = { (s.begin t).detect code cls sc (m % 2 ^ 16) with access := 7 }) →
          (exec c s = .next (State.finish (s.begin t) ((s.begin t).log d))) ∧
          ((s.begin t).canCapture = true → (s.begin t).flt.queue = [] →
            (s.begin t).que.overFelt ≠ some ((s.begin t).fld f_QUE_AGENT_CTL_felt 20) →
            (cls ≤ 2 → (∀ r ∈ (s.begin t).unacked, r.det.cls ≠ cls) →
              Completes c t s [.regs, .evm, .que, .memc, .vat, .flt, .cal] fun b e =>
                Recorded d b e ∧ e.flt.cover = b.flt.cover ∧ e.flt.queue = [] ∧
                  Table.SameBut [regAddr .FLT_LOST 0 0, regAddr .QUE_AGENT_DROP_COUNT 20 0, regAddr .MEMC_SR_STATS 0 0, regAddr .MEMC_EVENTS 0 0]
                    b.regs e.regs) ∧
            (∀ n x, sc = .channel n → cls = 3 → (s.begin t).forceOf n = x → x.st ≠ .detached → x.st ≠ .safe → x.st ≠ .couching →
              (∀ r ∈ (s.begin t).unacked, r.det.cls ≠ 3) →
              Completes c t s [.regs, .evm, .force, .engs, .que, .memc, .vat, .flt] fun b e =>
                let y := e.forceOf n
                Recorded d b e ∧
                  y.st = .safe ∧ y.mode = false ∧ y.present = 0 ∧ y.target = 0 ∧ y.dac = 0 ∧ y.pending = none ∧ y.closed = x.closed ∧
                  y.span = x.span ∧ y.range = x.range ∧ y.deckle = b.rd .CH_DECKLE_DEFAULT n ∧ e.rd .CH_DECKLE n = b.rd .CH_DECKLE_DEFAULT n ∧
                  Table.SameBut [n] b.force e.force ∧ (e.engOf n).state = .idle ∧ Table.SameBut [n] b.engs e.engs ∧
                  (n, b.flt.seq + 1) ∈ e.flt.cover ∧ e.flt.tileSafe = b.flt.tileSafe ∧ e.flt.deviceSafe = b.flt.deviceSafe ∧
                  (b.covering n = [] → (∀ q ∈ b.flt.ring, q.seq ≤ b.flt.seq) → y.openWanted = b.on f_FLT_POLICY_c_open) ∧
                  Table.SameBut [regAddr .CH_DECKLE n 0, regAddr .CH_SWEEP_EVENTS n 0, regAddr .FLT_LOST 0 0, regAddr .FLT_RECOVER_COUNT 0 0,
                    regAddr .QUE_AGENT_DROP_COUNT 20 0, regAddr .MEMC_SR_STATS 0 0, regAddr .MEMC_EVENTS 0 0] b.regs e.regs)) ∧
          (∀ r, cls ≤ 2 → (s.begin t).canCapture = true → (s.begin t).flt.queue = [] → r.reaction ≤ 2 → (s.begin t).recurring d = some r →
            Completes c t s [.evm, .flt, .cal] fun b e =>
              e.flt.seq = b.flt.seq ∧ e.flt.ring.map (fun q => (q.seq, q.det)) = b.flt.ring.map (fun q => (q.seq, q.det)) ∧
                ∃ q ∈ e.flt.ring, q.seq = r.seq ∧ q.det = r.det ∧ q.recur = min 0xFFFF (r.recur + 1) ∧ q.touched = b.now) ∧
          (cls ≤ 2 → (s.begin t).canCapture = false →
            ((s.begin t).flt.queue.length < 64 →
              Completes c t s [.flt] fun b e => e.flt = { b.flt with queue := queueInsert d b.flt.queue }) ∧
            (64 ≤ (s.begin t).flt.queue.length →
              Completes c t s [.regs] fun b e =>
                e.fld f_FLT_LOST_lost = min (2 ^ f_FLT_LOST_lost.len - 1) (b.fld f_FLT_LOST_lost + 1) ∧
                  Table.SameBut [regAddr .FLT_LOST 0 0] b.regs e.regs)))) ∧
      ((s.begin t).flt.queue = [] → Completes (.queuedCapture t) t s [] fun _ _ => True) ∧
      (∀ d, (s.begin t).canCapture = true → (s.begin t).que.overFelt ≠ some ((s.begin t).fld f_QUE_AGENT_CTL_felt 20) →
        (s.begin t).flt.queue = [d] → 1 ≤ d.cls → d.cls ≤ 2 → (∀ r ∈ (s.begin t).unacked, r.det.cls ≠ d.cls) →
        Completes (.queuedCapture t) t s [.regs, .evm, .que, .memc, .vat, .flt, .cal] fun b e =>
          Recorded d b e ∧ e.flt.queue = [] ∧ e.flt.cover = b.flt.cover ∧
            Table.SameBut [regAddr .FLT_LOST 0 0, regAddr .QUE_AGENT_DROP_COUNT 20 0, regAddr .MEMC_SR_STATS 0 0, regAddr .MEMC_EVENTS 0 0]
              b.regs e.regs) ∧
      (∀ code sc, isCode code = true → isScope sc = true → code ∉ [0x010, 0x100, 0x706, 0x800, 0xB01, 0xB02, 0xB03] →
        Completes (.conditionClear t code sc) t s [.flt] fun b e => ConditionEnds code sc b e) ∧
      (∀ sc, isScope sc = true →
        ((s.begin t).tb.state = .locked → Completes (.conditionClear t 0x800 sc) t s [.flt] fun b e => ConditionEnds 0x800 sc b e) ∧
        ((s.begin t).tb.state ≠ .locked → Completes (.conditionClear t 0x800 sc) t s [] fun _ _ => True) ∧
        ((s.begin t).flt.safeN = true → Completes (.conditionClear t 0x010 sc) t s [] fun _ _ => True) ∧
        ((s.begin t).flt.safeN = false → Completes (.conditionClear t 0x010 sc) t s [.flt] fun b e => ConditionEnds 0x010 sc b e)) ∧
      (∀ k, k < 8 → s.dev.phase < 5 →
        Completes (.conditionClear t 0xB02 (.tile k)) t s [.flt, .pwr] fun b e =>
          ConditionEnds 0xB02 (.tile k) b e ∧ e.pwr.tileLost.testBit k = false ∧ e.pwr.on = b.pwr.on ∧
            ∀ j, j ≠ k → e.pwr.tileLost.testBit j = b.pwr.tileLost.testBit j) ∧
      Completes (.conditionClear t 0xB03 .device) t s [.flt, .web, .pwr] (fun b e =>
        ConditionEnds 0xB03 .device b e ∧ e.pwr = { b.pwr with hubOk := 0x1FF } ∧ ∀ p, p < 4 →
          (e.portOf p).st =
            if (b.portOf p).st = .disabled ∧ b.domainOn (40 + p) = true ∧ b.on f_WEB_PORT_CTL_enable p = true then .detect else (b.portOf p).st) ∧
      (∀ k, k < 8 →
        (sixteenths (Table.get 0 k (s.begin t).pwr.tileTemp) < 1840 →
          Completes (.conditionClear t 0xB01 (.tile k)) t s [.flt] fun b e => ConditionEnds 0xB01 (.tile k) b e) ∧
        (1840 ≤ sixteenths (Table.get 0 k (s.begin t).pwr.tileTemp) → Completes (.conditionClear t 0xB01 (.tile k)) t s [] fun _ _ => True)) ∧
      (∀ p, p < 4 →
        (((s.begin t).portOf p).st = .active →
          Completes (.conditionClear t 0x706 (.port p)) t s [.flt] fun b e => ConditionEnds 0x706 (.port p) b e) ∧
        (((s.begin t).portOf p).st ≠ .active → Completes (.conditionClear t 0x706 (.port p)) t s [] fun _ _ => True)) ∧
      (∀ n, n < 512 → Completes (.conditionClear t 0x100 (.channel n)) t s [.force, .flt] fun b e =>
        ConditionEnds 0x100 (.channel n) b e ∧ e.forceOf n = { b.forceOf n with short := false } ∧ Table.SameBut [n] b.force e.force) ∧
      (∀ width, 20 ≤ width → (s.begin t).flt.safeN = false → (s.begin t).canCapture = true → (s.begin t).flt.queue = [] →
        (s.begin t).que.overFelt ≠ some ((s.begin t).fld f_QUE_AGENT_CTL_felt 20) → (∀ r ∈ (s.begin t).unacked, r.det.code ≠ 0x010) →
        Completes (.safeN t width) t s [.regs, .evm, .force, .engs, .que, .memc, .vat, .flt, .cal, .free] fun b e =>
          e.flt.safeN = true ∧ e.flt.deviceSafe = true ∧ (∀ k, k < 8 → e.flt.tileSafe.testBit k = true) ∧
            (∀ n, n < 512 → (b.forceOf n).st ≠ .detached → (e.forceOf n).st = .safe) ∧
            (∀ n, (b.forceOf n).st = .detached → e.forceOf n = b.forceOf n) ∧
            (∃ d : Detect, d.code = 0x010 ∧ d.cls = 5 ∧ d.scope = .device ∧ d.access = 0 ∧ d.abs = b.abs ∧ d.slot = none ∧
              (∃ k, d.master = issuedMaster k) ∧ Recorded d b e) ∧
            ∃ y ∈ e.evm.asserted, y.src = srcFault 8) ∧
      (∀ width, width < 5 ∨ 20 ≤ width ∧ (s.begin t).flt.safeN = true → Completes (.safeN t width) t s [] fun _ _ => True) ∧
      ((s.begin t).flt.safeN = true →
        Completes (.safeNRelease t) t s [.evm, .flt] fun b e =>
          ConditionEnds 0x010 .device { b with flt := { b.flt with safeN := false } } e ∧
            e.evm = { b.evm with asserted := b.evm.asserted ++ [⟨srcFault 9, 0, none, 0⟩] }) ∧
      ((s.begin t).flt.safeN = false → Completes (.safeNRelease t) t s [] fun _ _ => True))

/-- R7, R99, R298, R302, R305, R306, R309: a write to FLT_ACK acknowledges the records of its classes captured before its event cycle; a channel in SAFE, and a
tile safe state, is released when every record that covers it is cleared, quiet and acknowledged or released under auto_en within the hourly limit, and beyond
that limit it is held; counts of releases are kept for an hour; an injection slot fires under TEST permission, is detected in the next event cycle as a record
marked INJECTED, and its held condition is cleared by a write; FLT_CTL re-arms FLT_FIRST. FLT_ACK, RELEASE, HOURLY_COUNT_STEP, INJECTION_FIRE,
INJECTED_DETECTION, INJECTION_CLEAR, FIRST_REARM complete for every operand. The model's choices it rests on: notes/assumptions/1, 12, 32, 33, 96. -/
def Obligations.AcknowledgeReleaseInject : Prop :=
  ∀ (s : State) (t m : Nat) (v : Word), s.canonical → s.powered →
    (s.answers m = true → (s.begin t).shielded (regAddr .FLT_ACK 0 0) = 0 → bits v 0 5 ≠ 0 → (s.begin t).flt.held = false →
      Completes (.fltAck t m v) t s [.regs, .evm, .flt, .resp] fun b e =>
        e.resp = ⟨m, false, 0⟩ ∧ RegsAlike .FLT_ACK 0 b e ∧ e.flt = { b.flt with ring := e.flt.ring } ∧
          e.flt.ring.map (fun r => (r.seq, r.det)) = b.flt.ring.map (fun r => (r.seq, r.det)) ∧
          (∀ (k : Nat) (r q : Record), b.flt.ring[k]? = some r → e.flt.ring[k]? = some q →
            q.flags.acked = (r.flags.acked || (bit v (r.det.cls - 1) && decide (r.det.cls - 1 < 5) && ! b.sameCycle.contains r.seq))) ∧
          e.evm = { b.evm with asserted := b.evm.asserted ++ [⟨srcFault 11, 0, none, 0⟩] }) ∧
    (∀ n x, n < 512 → (s.begin t).forceOf n = x → x.st = .safe → (s.begin t).flt.queue = [] → (s.begin t).flt.deviceSafe = false →
      (s.begin t).flt.tileSafe.testBit (n / 64) = false →
      ((∃ r ∈ (s.begin t).flt.ring, (n, r.seq) ∈ (s.begin t).flt.cover ∧
          (r.flags.cleared = false ∨ (s.begin t).now < r.touched + 256000000 * (s.begin t).fld f_FLT_RECOVERY_quiet_ms)) →
        Completes (.release t (.channel n)) t s [] fun _ _ => True) ∧
      ((∀ r ∈ (s.begin t).flt.ring, (n, r.seq) ∈ (s.begin t).flt.cover → r.flags.cleared = true ∧ r.reaction = 3 ∧ r.det.code ≠ 0x010 ∧
          r.touched + 256000000 * (s.begin t).fld f_FLT_RECOVERY_quiet_ms ≤ (s.begin t).now) →
        (x.steps = [] → x.range = 5 → (s.begin t).on f_CH_SWEEP_CTL_auto_resume n = false →
          (∀ r ∈ (s.begin t).flt.ring, (n, r.seq) ∈ (s.begin t).flt.cover → r.flags.acked = true) →
          Completes (.release t (.channel n)) t s [.regs, .evm, .force, .guards, .flt] fun b e =>
            let y := e.forceOf n
            y.st = (if x.detach then .detached else .zeroed) ∧ y.closed = ! x.detach ∧ y.openWanted = false ∧ y.present = 0 ∧ y.target = 0 ∧
              y.range = 5 ∧ y.span = x.span ∧ y.steps = [] ∧ Table.SameBut [n] b.force e.force ∧
              e.flt.cover = b.flt.cover.filter (fun c => decide (c.1 ≠ n)) ∧ e.flt.releases = b.flt.releases ∧ e.flt.seq = b.flt.seq ∧
              (∀ r ∈ e.flt.ring, (n, r.seq) ∈ b.flt.cover → r.flags.recovered = true) ∧
              e.fld f_FLT_RECOVER_COUNT_count = min (2 ^ f_FLT_RECOVER_COUNT_count.len - 1) (b.fld f_FLT_RECOVER_COUNT_count + 1) ∧
              e.rd .CH_DECKLE n = b.rd .CH_DECKLE_DEFAULT n ∧
              Table.SameBut [regAddr .FLT_RECOVER_COUNT 0 0, regAddr .CH_DECKLE n 0] b.regs e.regs ∧
              (∀ k, k ≠ n / 8 → e.guards.testBit k = b.guards.testBit k) ∧ ∃ a ∈ e.evm.asserted, a.src = srcFault 6) ∧
        ((∃ r ∈ (s.begin t).flt.ring, (n, r.seq) ∈ (s.begin t).flt.cover ∧ r.flags.acked = false) →
          (((s.begin t).fld f_FLT_RECOVERY_auto_en).testBit 0 = false → Completes (.release t (.channel n)) t s [] fun _ _ => True) ∧
          (((s.begin t).fld f_FLT_RECOVERY_auto_en).testBit 0 = true →
            ((s.begin t).releaseCount (.channel n) < (s.begin t).fld f_FLT_RECOVERY_hour_limit → x.steps = [] → x.range ≠ 5 →
              Completes (.release t (.channel n)) t s [.regs, .evm, .force, .guards, .flt] fun b e =>
                (e.forceOf n).st = .ranging ∧ (e.forceOf n).closed = true ∧ (e.forceOf n).steps = [.switch x.range 5] ∧
                  (e.forceOf n).due = b.now + 2048000 ∧ Table.SameBut [n] b.force e.force ∧
                  e.flt.releases = b.flt.releases ++ [⟨b.now / 15360000000000, .channel n⟩] ∧
                  e.flt.recovering = b.flt.recovering ++ [[n]] ∧
                  e.flt.cover = b.flt.cover.filter (fun c => decide (c.1 ≠ n)) ∧ ∃ a ∈ e.evm.asserted, a.src = srcFault 6) ∧
            ((s.begin t).fld f_FLT_RECOVERY_hour_limit ≤ (s.begin t).releaseCount (.channel n) →
              (∃ r ∈ (s.begin t).flt.ring, (n, r.seq) ∈ (s.begin t).flt.cover ∧ r.flags.held = false) →
              Completes (.release t (.channel n)) t s [.evm, .flt] fun b e =>
                e.flt = { b.flt with ring := e.flt.ring, held := true } ∧ e.flt.ring.map (fun r => (r.seq, r.det)) = b.flt.ring.map (fun r => (r.seq, r.det)) ∧
                  (∀ r ∈ e.flt.ring, (n, r.seq) ∈ b.flt.cover → r.flags.held = true) ∧ ∃ a ∈ e.evm.asserted, a.src = srcFault 7))))) ∧
    (∀ k, k < 8 → (s.begin t).flt.queue = [] → (s.begin t).flt.deviceSafe = false → (s.begin t).flt.tileSafe.testBit k = true →
      (∀ n, n < 512 → n / 64 = k → (s.begin t).on f_CH_SWEEP_CTL_auto_resume n = false) →
      (∀ r ∈ (s.begin t).flt.ring, r.flags.cleared = true ∧ r.flags.acked = true ∧
        r.touched + 256000000 * (s.begin t).fld f_FLT_RECOVERY_quiet_ms ≤ (s.begin t).now) →
      Completes (.release t (.tile k)) t s [.regs, .evm, .force, .guards, .flt] fun b e =>
        e.flt.tileSafe.testBit k = false ∧ (∀ j, j ≠ k → e.flt.tileSafe.testBit j = b.flt.tileSafe.testBit j) ∧
          (∀ n, n < 512 → n / 64 = k → (e.forceOf n).st ≠ .safe) ∧ (∀ n, n / 64 ≠ k → e.forceOf n = b.forceOf n) ∧
          (∀ c ∈ e.flt.cover, c.1 ≠ 512 + k) ∧ ∃ a ∈ e.evm.asserted, a.src = srcFault 6) ∧
    Completes (.hourlyCountStep t) t s [.flt] (fun b e =>
      e.flt = { b.flt with releases := b.flt.releases.filter fun r => decide (b.now / 15360000000000 < r.minute + 60) }) ∧
    (∀ j, j < 16 → s.answers m = true → (s.begin t).shielded (regAddr .FLT_INJ_CTL j 0) = 0 →
      (s.dev.test = true → bit v 31 = true → bit v 29 = false → 1 ≤ bits v 26 3 → bits v 26 3 ≤ 5 → isCode (bits v 0 12) = true →
        (scopeOf (bits v 23 3) (bits v 12 11)).isSome = true →
        Completes (.injectionFire t m j v) t s [.regs, .evm, .flt, .resp] fun b e =>
          e.resp = ⟨m, false, 0⟩ ∧ e.rd .FLT_INJ_CTL j = (b.rd .FLT_INJ_CTL j &&& ~~~ 0x5FFFFFFF) ||| (v &&& 0x5FFFFFFF) ∧
            Table.SameBut [regAddr .FLT_INJ_CTL j 0] b.regs e.regs ∧
            e.injOf j = { b.injOf j with fires := ((b.injOf j).fires + 1) % 65536, due := some (b.cycle + 1) } ∧
            Table.SameBut [j] b.flt.inj e.flt.inj ∧ e.flt = { b.flt with inj := e.flt.inj } ∧
            e.evm = { b.evm with asserted := b.evm.asserted ++ [⟨srcFault (12 + j), 0, none, 0⟩] }) ∧
      (s.dev.test = false → bit v 31 = true →
        Completes (.injectionFire t m j v) t s [.regs, .evm, .force, .engs, .que, .memc, .vat, .flt, .cal, .resp] fun b e =>
          e = { b.accessFault 0x006 1 .none m 2 (regAddr .FLT_INJ_CTL j 0) with resp := ⟨m, false, 0⟩ }) ∧
      (s.dev.test = true → bit v 29 = true → bit v 31 = false → (v ^^^ (s.begin t).rd .FLT_INJ_CTL j) &&& 0x5FFFFFFF = 0 →
        Completes (.injectionClear t m j v) t s [.regs, .flt, .resp] fun b e =>
          e.resp = ⟨m, false, 0⟩ ∧ RegsAlike .FLT_INJ_CTL j b e ∧ e.injOf j = { b.injOf j with active := false } ∧
            Table.SameBut [j] b.flt.inj e.flt.inj ∧ e.flt = { b.flt with ring := e.flt.ring, inj := e.flt.inj } ∧
            e.flt.ring.map (fun r => (r.seq, r.det)) = b.flt.ring.map (fun r => (r.seq, r.det)) ∧
            ∀ r ∈ e.flt.ring, r.flags.condition = true → r.det.slot = some j → r.flags.cleared = true)) ∧
    (∀ j c sc, j < 16 → (s.begin t).que.overFelt ≠ some ((s.begin t).fld f_QUE_AGENT_CTL_felt 20) → (s.begin t).canCapture = true → (s.begin t).flt.queue = [] →
      ((s.begin t).injOf j).due = some c → scopeOf ((s.begin t).fld f_FLT_INJ_CTL_scope j) ((s.begin t).fld f_FLT_INJ_CTL_index j) = some sc →
      1 ≤ (s.begin t).fld f_FLT_INJ_CTL_class j → (s.begin t).fld f_FLT_INJ_CTL_class j ≤ 2 →
      (∀ r ∈ (s.begin t).unacked, r.det.cls ≠ (s.begin t).fld f_FLT_INJ_CTL_class j) →
      ((s.begin t).cycle < c → Completes (.injectedDetection t j) t s [] fun _ _ => True) ∧
      (c ≤ (s.begin t).cycle →
        Completes (.injectedDetection t j) t s [.regs, .evm, .que, .memc, .vat, .flt, .cal] fun b e =>
          Recorded { b.detect (b.fld f_FLT_INJ_CTL_code j) (b.fld f_FLT_INJ_CTL_class j) sc 0x1120 with
            access := 8, slot := some j, heldInj := b.on f_FLT_INJ_CTL_held j } b e ∧
          e.injOf j = { b.injOf j with due := none, active := (b.injOf j).active || b.on f_FLT_INJ_CTL_held j } ∧
          Table.SameBut [j] b.flt.inj e.flt.inj ∧
          Table.SameBut [regAddr .FLT_LOST 0 0, regAddr .QUE_AGENT_DROP_COUNT 20 0, regAddr .MEMC_SR_STATS 0 0, regAddr .MEMC_EVENTS 0 0]
            b.regs e.regs)) ∧
    (s.answers m = true → (s.begin t).shielded (regAddr .FLT_CTL 0 0) = 0 → bit v 31 = true → (v ^^^ (s.begin t).rd .FLT_CTL) &&& 0x71 = 0 →
      Completes (.firstRearm t m v) t s [.regs, .flt, .resp] fun b e =>
        e.resp = ⟨m, false, 0⟩ ∧ RegsAlike .FLT_CTL 0 b e ∧ e.flt = { b.flt with firstFrozen := false }) ∧
    (∀ sc, isScope sc = true → ∃ e, exec (.release t sc) s = .next e) ∧
    ∀ j, j < 16 → ∀ c ∈ [Instr.fltAck t m v, .hourlyCountStep t, .injectionFire t m j v, .injectedDetection t j, .injectionClear t m j v,
      .firstRearm t m v], ∃ e, exec c s = .next e

/-- R108, R316, R317, R320, R321, R323 to R326, R328, R329, Tables 11-3, 11-4: a run starts for a slice or slice group whose temperature has moved, for a slice
whose last step lies back interval_h hours, and on a write to CAL_CMD; a tile takes FREE spares first; the step of a slice passes its phases at their times,
with the open-output outcome that its channel's state, load and the tile's spares give; a burn writes a header, its data and then check word and marker.
TEMP_TRIGGER, INTERVAL_TRIGGER, CAL_RUN, SLICE_STEP_START, MEASURE_PATH_STEP, OPEN_OUTPUT_SLOT, BRIDGE_END, OPEN_OUTPUT_SLOT_END, SLICE_STEP_END,
DEFERRAL_RETRY, CAL_BURN, GENERATION_COMMITTED. The model's choices it rests on: notes/assumptions/1, 17, 35, 37, 44, 45. -/
def Obligations.RunsStepsAndBurns : Prop :=
  ∀ (s : State) (t i k : Nat) (y : Slice), s.canonical → s.powered → i < 544 → k = i / 68 → (s.begin t).sliceOf i = y →
    Table.rising (s.begin t).cal.queue = true → Table.rising (s.begin t).cal.current = true →
    ((s.begin t).on f_CAL_CTL_enable = false → ∀ g temp,
      Completes (.tempTrigger t false i temp) t s [] (fun _ _ => True) ∧ Completes (.intervalTrigger t i) t s [] (fun _ _ => True) ∧
        (g < 32 → (s.begin t).on f_QUE_AGENT_CTL_enable (8 + g / 4) = false →
          Completes (.tempTrigger t true g temp) t s [.cal] fun b e =>
            e.cal = { b.cal with groupSeen := Table.put 0 g temp b.cal.groupSeen })) ∧
    ((s.begin t).on f_CAL_CTL_enable = true → (s.begin t).domainOn (sliceDomain i) = true → y.st ≠ .retired →
      (∀ temp, y.stepTemp ≠ 0 →
        (128 * (s.begin t).fld f_CAL_CTL_temp_step + y.stepTemp < temp ∨ temp + 128 * (s.begin t).fld f_CAL_CTL_temp_step < y.stepTemp →
          Completes (.tempTrigger t false i temp) t s [.regs, .evm, .cal] fun b e =>
            (i ∈ e.queueOf k ∨ b.inStep k = some i) ∧ e.on f_CAL_EVENTS_temp_trigger = true ∧
              Table.SameBut [regAddr .CAL_EVENTS 0 0] b.regs e.regs ∧ (∃ a ∈ e.evm.asserted, a.src = srcCal 9) ∧ e.cal.slices = b.cal.slices ∧
              ∀ j, j ≠ k → e.queueOf j = b.queueOf j) ∧
        (temp ≤ 128 * (s.begin t).fld f_CAL_CTL_temp_step + y.stepTemp → y.stepTemp ≤ temp + 128 * (s.begin t).fld f_CAL_CTL_temp_step →
          Completes (.tempTrigger t false i temp) t s [] fun _ _ => True)) ∧
      (∀ g temp, g < 32 → Table.get 0 g (s.begin t).cal.groupTemp ≠ 0 → (s.begin t).domainOn (5 * (g / 4) + g % 4) = true →
        (s.begin t).on f_QUE_AGENT_CTL_enable (8 + g / 4) = false →
        Table.get 0 g (s.begin t).cal.groupTemp + 128 * (s.begin t).fld f_CAL_CTL_temp_step < temp ∨
          temp + 128 * (s.begin t).fld f_CAL_CTL_temp_step < Table.get 0 g (s.begin t).cal.groupTemp →
        Completes (.tempTrigger t true g temp) t s [.regs, .evm, .cal] fun b e =>
          e.on f_CAL_EVENTS_temp_trigger = true ∧ Table.SameBut [regAddr .CAL_EVENTS 0 0] b.regs e.regs ∧ e.cal.slices = b.cal.slices ∧
            ∀ j ∈ groupSlices g, (b.sliceOf j).st ≠ .retired → j ∈ e.queueOf (g / 4) ∨ b.inStep (g / 4) = some j) ∧
      (∀ u, y.stepped = some u →
        (u + 256000000 * ((s.begin t).fld f_CAL_CTL_interval_h * 3600000) ≤ (s.begin t).now →
          Completes (.intervalTrigger t i) t s [.evm, .cal] fun b e =>
            (i ∈ e.queueOf k ∨ b.inStep k = some i) ∧ e.cal.slices = b.cal.slices ∧ ∀ j, j ≠ k → e.queueOf j = b.queueOf j) ∧
        ((s.begin t).now < u + 256000000 * ((s.begin t).fld f_CAL_CTL_interval_h * 3600000) →
          Completes (.intervalTrigger t i) t s [] fun _ _ => True))) ∧
    (∀ m v, s.answers m = true → (s.begin t).shielded (regAddr .CAL_CMD 0 0) = 0 →
      (bit v 31 = true → bit v 30 = false → bit v 29 = true → bits v 0 10 = i → (s.begin t).domainOn (sliceDomain i) = true → y.st ≠ .retired →
        i ∉ (s.begin t).queueOf k → (s.begin t).inStep k ≠ some i →
        Completes (.calRun t m v) t s [.regs, .evm, .cal, .resp] fun b e =>
          e.resp = ⟨m, false, 0⟩ ∧ RegsAlike .CAL_CMD 0 b e ∧ e.queueOf k = b.queueOf k ++ [i] ∧ (∀ j, j ≠ k → e.queueOf j = b.queueOf j) ∧
            e.cal.running = true ∧ e.cal.commanded = true ∧ e.cal.slices = b.cal.slices ∧
            (b.cal.running = false → ∃ a ∈ e.evm.asserted, a.src = srcCal 0)) ∧
      (bit v 31 = true → bit v 30 = false → bit v 29 = false → bits v 0 10 < 544 →
        Completes (.calRun t m v) t s [.regs, .evm, .cal, .resp] fun b e =>
          e.resp = ⟨m, false, 0⟩ ∧ RegsAlike .CAL_CMD 0 b e ∧ e.cal.slices = b.cal.slices ∧
            ∀ j, j < 544 → (bit v (12 + j / 68) = true → (b.sliceOf j).st ≠ .retired → b.domainOn (sliceDomain j) = true →
                j ∈ e.queueOf (j / 68) ∨ b.inStep (j / 68) = some j) ∧
              (bit v (12 + j / 68) = false → e.queueOf (j / 68) = b.queueOf (j / 68))) ∧
      (bit v 31 = false → bit v 30 = false →
        Completes (.calRun t m v) t s [.regs, .resp] fun b e => e.resp = ⟨m, false, 0⟩ ∧ RegsAlike .CAL_CMD 0 b e) ∧
      (bit v 31 = true → bit v 30 = false → 544 ≤ bits v 0 10 →
        Completes (.calRun t m v) t s [.regs, .evm, .force, .engs, .que, .memc, .vat, .flt, .cal, .resp] fun b e =>
          e.resp = ⟨m, false, 0⟩ ∧ ∃ x : State, x.flt = b.flt ∧ x.now = b.now ∧
            e.flt = (x.accessFault 0x004 1 .none m 2 (regAddr .CAL_CMD 0 0)).flt) ∧
      (bit v 31 = false → bit v 30 = true → bits v 0 10 = i →
        ((s.begin t).cal.burn.isSome = true →
          Completes (.calBurn t m v) t s [.regs, .cal, .resp] fun b e =>
            e.resp = ⟨m, false, 0⟩ ∧ RegsAlike .CAL_CMD 0 b e ∧ e.cal = { b.cal with burnAgain := true }) ∧
        ((s.begin t).cal.burn = none → (s.begin t).cal.sel = [] →
          Completes (.calBurn t m v) t s [.regs, .resp] fun b e => e.resp = ⟨m, false, 0⟩ ∧ RegsAlike .CAL_CMD 0 b e) ∧
        ((s.begin t).cal.burn = none → (s.begin t).cal.sel ≠ [] →
          Completes (.calBurn t m v) t s [.regs, .cal, .fuses, .free, .resp] fun b e =>
            e.resp = ⟨m, false, 0⟩ ∧ b.fusesGrow e ∧ Table.SameBut [regAddr .CAL_CMD 0 0, regAddr .CAL_EVENTS 0 0] b.regs e.regs ∧
              (∀ g, g < 7 → (∀ j, j < g → b.genClaimed (j + 1) = true) → b.genClaimed (g + 1) = false → b.poolNext + 3 * b.cal.sel.length ≤ 1920 →
                RegsAlike .CAL_CMD 0 b e ∧ e.free = b.free + 1 ∧
                  e.genWord (g + 1) 0 = BitVec.ofNat 32 (b.poolNext * 2 ^ 21 + b.cal.sel.length * 2 ^ 11) ∧
                  e.genWord (g + 1) 2 = b.genWord (g + 1) 2 ∧ e.genWord (g + 1) 3 = b.genWord (g + 1) 3 ∧
                  ∃ x, e.cal = { b.cal with burn := some x } ∧ x.gen = g + 1 ∧ x.start = b.poolNext ∧ x.records = b.cal.sel.length ∧
                    x.data.length = 3 * b.cal.sel.length ∧ ∀ (j : Nat) (w : Word), x.data[j]? = some w →
                      e.fuseWord (b.poolNext + j) = b.fuseWord (b.poolNext + j) ||| w) ∧
              ((∀ j, j < 7 → b.genClaimed (j + 1) = true) ∨ 1920 < b.poolNext + 3 * b.cal.sel.length →
                e.cal = { b.cal with fuseFull := true } ∧ e.on f_CAL_EVENTS_fuse_full = true ∧ e.fuses = b.fuses ∧ e.free = b.free)))) ∧
    ((s.begin t).cal.burn = none ∨ (s.begin t).dutyPaused 1 = true → Completes (.generationCommitted t) t s [] fun _ _ => True) ∧
    (∀ x, (s.begin t).cal.burn = some x → (s.begin t).dutyPaused 1 = false → 1 ≤ x.gen → x.gen < 8 → (s.begin t).cal.burnAgain = false →
      Completes (.generationCommitted t) t s [.regs, .evm, .cal, .fuses] fun b e =>
        e.genWord x.gen 2 = b.genWord x.gen 2 ||| genCrc (b.genWord x.gen 0) (b.genWord x.gen 1) x.data ∧
          e.genWord x.gen 3 = b.genWord x.gen 3 ||| fuseMarker ∧ b.fusesGrow e ∧
          (∀ j, j ≠ 258 + 4 * x.gen → j ≠ 259 + 4 * x.gen → e.fuseWord j = b.fuseWord j) ∧ e.cal.burn = none ∧ e.cal.gen = x.gen ∧
          e.cal.committed = b.cal.committed ||| 2 ^ x.gen ∧ e.cal.lastCommit = some b.now ∧ e.cal.slices = b.cal.slices ∧
          e.on f_CAL_EVENTS_committed = true ∧ Table.SameBut [regAddr .CAL_EVENTS 0 0] b.regs e.regs ∧
          ∃ a ∈ e.evm.asserted, a.src = srcCal 3) ∧
    (((s.begin t).inStep k).isSome = true ∨ ((s.begin t).on f_CAL_CTL_enable = false ∧ (s.begin t).cal.commanded = false) ∨
        (s.begin t).queueOf k = [] ∨ (s.begin t).dutyPaused 1 = true → Completes (.sliceStepStart t k) t s [] fun _ _ => True) ∧
    ((s.begin t).inStep k = none → (s.begin t).dutyPaused 1 = false → (s.begin t).on f_CAL_CTL_enable = true ∨ (s.begin t).cal.commanded = true → (s.begin t).nextStep k = some i →
      Completes (.sliceStepStart t k) t s [.cal] fun b e =>
        e.inStep k = some i ∧ e.queueOf k = (b.queueOf k).filter (fun j => decide (j ≠ i)) ∧
          e.sliceOf i = { y with phase := .load, phaseAt := b.now, loaded := false, disturbed := false, discard := false, retryAt := none } ∧
          Table.SameBut [i] b.cal.slices e.cal.slices ∧ (∀ j, j ≠ k → e.queueOf j = b.queueOf j ∧ e.inStep j = b.inStep j) ∧
          ((∃ j ∈ b.queueOf k, j / 68 = k ∧ b.inCouching j = false ∧ (b.sliceOf j).st = .free ∧ 64 ≤ j % 68) → y.st = .free ∧ 64 ≤ i % 68)) ∧
    (∀ w, (y.phase ≠ .load ∨ (s.begin t).now < y.phaseAt + 16384000 → Completes (.measurePathStep t i w) t s [] fun _ _ => True) ∧
      (y.phase = .load → y.phaseAt + 16384000 ≤ (s.begin t).now →
        Completes (.measurePathStep t i w) t s [.seqs, .cal] fun b e =>
          e.sliceOf i = { y with phase := .measure, phaseAt := b.now, loaded := w } ∧ Table.SameBut [i] b.cal.slices e.cal.slices ∧
            (∀ n, b.sliceChannel i = some n → (e.seqOf n).stale = true ∧ Table.SameBut [n] b.seqs e.seqs) ∧
            (b.sliceChannel i = none → e.seqs = b.seqs))) ∧
    (y.phase ≠ .measure ∨ (s.begin t).now < y.phaseAt + 256000000 → Completes (.openOutputSlot t i) t s [] fun _ _ => True) ∧
    (y.phase = .measure → y.phaseAt + 256000000 ≤ (s.begin t).now →
      ((s.begin t).sliceChannel i = none ∨
          (∃ n, (s.begin t).sliceChannel i = some n ∧ ((s.begin t).forceOf n).steps = [] ∧ ((s.begin t).forceOf n).st = .detached) →
        Completes (.openOutputSlot t i) t s [.cal] fun b e =>
          e.sliceOf i = { y with phase := .openSlot, phaseAt := b.now, check := 1 } ∧ Table.SameBut [i] b.cal.slices e.cal.slices) ∧
      (∀ n, (s.begin t).sliceChannel i = some n → ((s.begin t).forceOf n).steps = [] → ((s.begin t).forceOf n).st ≠ .detached →
        (y.disturbed = true ∨ ((s.begin t).forceOf n).forbidsCheck = true →
          Completes (.openOutputSlot t i) t s [.cal] fun b e =>
            e.sliceOf i = { y with phase := .openSlot, phaseAt := b.now, check := 4,
                                   retryAt := some (b.now + 256000000 * (1000 * b.fld f_CAL_CTL_retry_s)) } ∧
              Table.SameBut [i] b.cal.slices e.cal.slices) ∧
        (y.disturbed = false → ((s.begin t).forceOf n).forbidsCheck = false →
          (y.loaded = true →
            Completes (.openOutputSlot t i) t s [.regs, .evm, .cal] fun b e =>
              e.sliceOf i = { y with phase := .openSlot, phaseAt := b.now, check := 2,
                                     retryAt := some (b.now + 256000000 * (1000 * b.fld f_CAL_CTL_retry_s)) } ∧
                Table.SameBut [i] b.cal.slices e.cal.slices ∧ e.on f_CAL_EVENTS_deferred = true ∧ ∃ a ∈ e.evm.asserted, a.src = srcCal 2) ∧
          (y.loaded = false →
            ((s.begin t).calibratedSpare k = none →
              Completes (.openOutputSlot t i) t s [.cal] fun b e =>
                e.sliceOf i = { y with phase := .openSlot, phaseAt := b.now, check := 3,
                                       retryAt := some (b.now + 256000000 * (1000 * b.fld f_CAL_CTL_retry_s)) } ∧
                  Table.SameBut [i] b.cal.slices e.cal.slices) ∧
            (∀ p, (s.begin t).calibratedSpare k = some p → p ≠ i →
              Completes (.openOutputSlot t i) t s [.cal] fun b e =>
                e.sliceOf i = { y with phase := .openSlot, phaseAt := b.now, check := 1, bridge := some p } ∧
                  e.sliceOf p = { b.sliceOf p with st := .bridging } ∧ Table.SameBut [i, p] b.cal.slices e.cal.slices))))) ∧
    (y.bridge = none ∨ ((s.begin t).now < y.phaseAt + 10240000 ∧ y.disturbed = false) → Completes (.bridgeEnd t i) t s [] fun _ _ => True) ∧
    (∀ p, y.bridge = some p → p ≠ i → y.phaseAt + 10240000 ≤ (s.begin t).now ∨ y.disturbed = true →
      Completes (.bridgeEnd t i) t s [.cal] fun b e =>
        e.sliceOf i = { y with bridge := none } ∧ e.sliceOf p = { b.sliceOf p with st := .free } ∧ Table.SameBut [i, p] b.cal.slices e.cal.slices) ∧
    (y.phase ≠ .openSlot ∨ (s.begin t).now < y.phaseAt + 61440000 → Completes (.openOutputSlotEnd t i) t s [] fun _ _ => True) ∧
    (y.phase = .openSlot → y.phaseAt + 61440000 ≤ (s.begin t).now → y.bridge = none → y.disturbed = false →
      Completes (.openOutputSlotEnd t i) t s [.cal] fun b e =>
        e.sliceOf i = { y with phase := .rest, phaseAt := b.now } ∧ Table.SameBut [i] b.cal.slices e.cal.slices) ∧
    (∀ qs qr seg temp corr sel ladder short lost,
      (y.phase ≠ .rest ∨ (s.begin t).now < y.phaseAt + 206848000 →
        Completes (.sliceStepEnd t i qs qr seg temp corr sel ladder short lost) t s [] fun _ _ => True) ∧
      (y.phase = .rest → y.phaseAt + 206848000 ≤ (s.begin t).now → (s.begin t).inStep k = some i →
        (s.begin t).on f_QUE_AGENT_CTL_enable 21 = false →
        (short = false → qs % 65536 ≤ (s.begin t).fld f_CAL_LIMIT_span → qr % 65536 ≤ (s.begin t).fld f_CAL_LIMIT_range →
          Completes (.sliceStepEnd t i qs qr seg temp corr sel ladder short lost) t s [.regs, .evm, .force, .seqs, .cal, .fuses, .free] fun b e =>
            e.sliceOf i = { y with qSpan := qs % 65536, qRange := qr % 65536, segMin := seg % 256, stepTemp := temp, stepped := some b.now,
                                   phase := .none, corr := y.corr + 1, forceCorr := if y.discard then y.forceCorr else corr } ∧
              Table.SameBut [i] b.cal.slices e.cal.slices ∧ e.inStep k = none ∧ e.cal.lastRun = b.abs ∧
              (b.sliceChannel i = none → e.force = b.force ∧ e.seqs = b.seqs) ∧
              (∀ n, b.sliceChannel i = some n → Table.SameBut [n] b.force e.force ∧ Table.SameBut [n] b.seqs e.seqs ∧
                ((b.seqOf n).running = true → (e.seqOf n).corrNext = some (y.corr + 1)) ∧
                ((b.seqOf n).running = false → (e.seqOf n).corr = y.corr + 1 ∧ (e.seqOf n).stale = false) ∧
                (y.discard = false → (e.forceOf n).corrTo = corr ∧ ((b.forceOf n).st = .detached → (e.forceOf n).corr = corr)) ∧
                (y.discard = true → e.forceOf n = b.forceOf n)) ∧
              ((∀ j, j < 8 → b.queueOf j = [] ∧ (j ≠ k → b.inStep j = none)) → b.cal.running = true →
                e.cal.running = false ∧ e.on f_CAL_EVENTS_run_done = true ∧ ∃ a ∈ e.evm.asserted, a.src = srcCal 1)) ∧
        (short = true ∨ (s.begin t).fld f_CAL_LIMIT_span < qs % 65536 ∨ (s.begin t).fld f_CAL_LIMIT_range < qr % 65536 →
          Completes (.sliceStepEnd t i qs qr seg temp corr sel ladder short lost) t s
              [.regs, .evm, .force, .seqs, .engs, .que, .memc, .vat, .flt, .cal, .fuses, .free] fun b e =>
            (e.sliceOf i).qSpan = qs % 65536 ∧ (e.sliceOf i).qRange = qr % 65536 ∧ e.inStep k = none ∧ e.on f_CAL_EVENTS_quality_limit = true ∧
              (∃ a ∈ e.evm.asserted, a.src = srcCal 8) ∧
              (b.flt.queue = [] → (∀ r ∈ b.unacked, r.det.cls ≠ 2) → (b.sliceChannel i).isSome = true → (e.sliceOf i).due.isSome = true) ∧
              (b.sliceChannel i = none → 64 ≤ i % 68 ∨ y.st = .precal → (e.sliceOf i).st = .retired)))) ∧
    (∀ u, y.retryAt = some u →
      ((s.begin t).now < u → Completes (.deferralRetry t i) t s [] fun _ _ => True) ∧
      (u ≤ (s.begin t).now → (s.begin t).domainOn (sliceDomain i) = true → y.st ≠ .retired →
        Completes (.deferralRetry t i) t s [.evm, .cal] fun b e =>
          e.sliceOf i = { y with retryAt := none } ∧ Table.SameBut [i] b.cal.slices e.cal.slices ∧ (i ∈ e.queueOf k ∨ b.inStep k = some i))) ∧
    ∀ g j temp qs qr seg m v corr sel ladder x short lost, g < 32 → j < 8 → ∀ c,
      c ∈ [Instr.tempTrigger t true g temp, .tempTrigger t false i temp, .intervalTrigger t i, .calRun t m v, .sliceStepStart t j,
          .measurePathStep t i x, .openOutputSlot t i, .bridgeEnd t i, .openOutputSlotEnd t i,
          .sliceStepEnd t i qs qr seg temp corr sel ladder short lost, .deferralRetry t i, .calBurn t m v, .generationCommitted t] →
      ∃ e, exec c s = .next e

/-- R190, R318, R330 to R338, Table 11-5: CAL_COUCH_CMD makes a slice due or is refused; a tile begins the couching of its lowest due channel, at once where
that is DETACHED; it passes pre-calibration, match, connection, ramp and release at their times, is abandoned where the spare fails or the match does not hold,
and is tried again; the channel then runs on the new slice, recorded in the fuses; wear counts charge and thermal cycles and is saved in turn to the halves of
the wear log. CAL_COUCH_CMD, COUCHING_START, MATCH, MATCH_TIMEOUT, CONNECT, HANDOVER_RAMP, COUCH_RELEASE, COUCH_RETRY, WEAR_ACCUMULATE, WEAR_LOG_SAVE. The
model's choices it rests on: notes/assumptions/1, 18, 46, 77. -/
def Obligations.CouchingAndWear : Prop :=
  ∀ (s : State) (t k : Nat) (c : Couch) (i n : Nat), s.canonical → s.powered → k < 8 → (s.begin t).couchOf k = c → i = 68 * k + c.slice →
    c.channel = n →
    (∀ m v, s.answers m = true → (s.begin t).shielded (regAddr .CAL_COUCH_CMD 0 0) = 0 →
      (bit v 31 = false → Completes (.calCouchCmd t m v) t s [.regs, .resp] fun b e => e.resp = ⟨m, false, 0⟩ ∧ RegsAlike .CAL_COUCH_CMD 0 b e) ∧
      (∀ a, bit v 31 = true → bits v 28 3 ≤ 5 → bits v 0 9 = a →
        ((s.begin t).spareFor a (.command (bits v 28 3)) = none →
          Completes (.calCouchCmd t m v) t s [.regs, .cal, .resp] fun b e =>
            let j := a / 64
            e.resp = ⟨m, false, 0⟩ ∧ RegsAlike .CAL_COUCH_CMD 0 b e ∧ (e.couchOf j).outcome = 3 ∧
              ((b.couchOf j).step = 0 → (b.couchOf j).retryAt = none → (e.couchOf j).channel = a) ∧
              ((b.couchOf j).step ≠ 0 ∨ (b.couchOf j).retryAt.isSome = true → e.couchOf j = { b.couchOf j with outcome := 3 }) ∧
              (e.couchOf j).step = (b.couchOf j).step ∧ e.cal = { b.cal with couch := e.cal.couch } ∧ Table.SameBut [j] b.cal.couch e.cal.couch) ∧
        (∀ q, (s.begin t).spareFor a (.command (bits v 28 3)) = some q →
          Completes (.calCouchCmd t m v) t s [.regs, .cal, .resp] fun b e =>
            e.resp = ⟨m, false, 0⟩ ∧ RegsAlike .CAL_COUCH_CMD 0 b e ∧
              e.sliceOf (b.sliceIdx a) = { b.sliceOf (b.sliceIdx a) with due := some (.command (bits v 28 3)) } ∧
              Table.SameBut [b.sliceIdx a] b.cal.slices e.cal.slices ∧ e.cal = { b.cal with slices := e.cal.slices })) ∧
      (bit v 31 = true → 5 < bits v 28 3 →
        Completes (.calCouchCmd t m v) t s [.regs, .evm, .force, .engs, .que, .memc, .vat, .flt, .cal, .resp] fun b e =>
          e.resp = ⟨m, false, 0⟩ ∧ ∃ x : State, x.flt = b.flt ∧ x.now = b.now ∧
            e.flt = (x.accessFault 0x004 1 .none m 2 (regAddr .CAL_COUCH_CMD 0 0)).flt)) ∧
    (c.step ≠ 0 ∨ c.retryAt.isSome = true ∨ (s.begin t).nextCouch k = none ∨ (s.begin t).dutyPaused 1 = true →
      Completes (.couchingStart t k) t s [] fun _ _ => True) ∧
    (∀ a d q, c.step = 0 → (s.begin t).dutyPaused 1 = false → c.retryAt = none → (s.begin t).nextCouch k = some (a, d, q) → q < 68 →
      (((s.begin t).forceOf a).st ≠ .detached →
        Completes (.couchingStart t k) t s [.cal] fun b e =>
          a / 64 = k ∧ (∀ j, 64 * k ≤ j → j < a → b.couchReady j = none) ∧
            e.couchOf k = { c with step := 1, slice := q, channel := a, at_ := b.now, tries := 0, retryAt := none } ∧
            Table.SameBut [k] b.cal.couch e.cal.couch ∧
            e.sliceOf (68 * k + q) =
              { b.sliceOf (68 * k + q) with
                st := .precal, phase := .load, phaseAt := b.now, loaded := false, disturbed := false, discard := false, retryAt := none } ∧
            Table.SameBut [68 * k + q] b.cal.slices e.cal.slices) ∧
      (((s.begin t).forceOf a).st = .detached → (s.begin t).sliceIdx a ≠ 68 * k + q →
        Completes (.couchingStart t k) t s [.force, .seqs, .ress, .que, .cal, .fuses] fun b e =>
          (e.couchOf k).step = 0 ∧ (e.couchOf k).outcome = 1 ∧ (e.couchOf k).channel = a ∧
            e.forceOf a = { b.forceOf a with slice := q, corr := (b.sliceOf (68 * k + q)).forceCorr, corrTo := (b.sliceOf (68 * k + q)).forceCorr } ∧
            Table.SameBut [a] b.force e.force ∧ (e.sliceOf (68 * k + q)).st = .serving ∧ (e.sliceOf (68 * k + q)).channel = a ∧
            (e.sliceOf (b.sliceIdx a)).channel = 0x3FF ∧ Table.SameBut [68 * k + q, b.sliceIdx a] b.cal.slices e.cal.slices)) ∧
    (c.step ≠ 1 ∨ (∀ u, ((s.begin t).sliceOf i).stepped = some u → u ≤ c.at_) ∨ (s.begin t).dutyPaused 1 = true →
      Completes (.couchMatch t k) t s [] fun _ _ => True) ∧
    (∀ u, c.step = 1 → n / 64 = k → (s.begin t).dutyPaused 1 = false → ((s.begin t).sliceOf i).stepped = some u → c.at_ < u →
      (((s.begin t).sliceOf i).st ≠ .retired → ((s.begin t).forceOf n).steps = [] →
        (((s.begin t).forceOf n).st = .zeroed ∨ ((s.begin t).forceOf n).st = .forcingV ∨ ((s.begin t).forceOf n).st = .forcingI →
          ((s.begin t).forceOf n).range ≠ 6 →
          Completes (.couchMatch t k) t s [.regs, .evm, .force, .cal] fun b e =>
            e.couchOf k = { c with step := 2, at_ := b.now } ∧ e.forceOf n = { b.forceOf n with before := (b.forceOf n).st, st := .couching } ∧
              Table.SameBut [n] b.force e.force ∧ e.sliceOf i = { b.sliceOf i with st := .matching } ∧
              Table.SameBut [i] b.cal.slices e.cal.slices ∧ e.on f_CAL_EVENTS_couch_started = true ∧ ∃ a ∈ e.evm.asserted, a.src = srcCal 4) ∧
        (((s.begin t).forceOf n).range = 6 ∨ ((s.begin t).forceOf n).st = .safe ∨ ((s.begin t).forceOf n).st = .ranging ∨
            ((s.begin t).forceOf n).st = .spanChange → Completes (.couchMatch t k) t s [] fun _ _ => True)) ∧
      (((s.begin t).sliceOf i).st = .retired → (s.begin t).flt.queue = [] → (∀ r ∈ (s.begin t).unacked, r.det.cls ≠ 2) →
        Completes (.couchMatch t k) t s [.regs, .evm, .force, .engs, .que, .memc, .vat, .flt, .cal] fun b e =>
          (e.couchOf k).step = 0 ∧ (e.couchOf k).outcome = 2 ∧ (e.sliceOf i).st = .retired ∧ e.on f_CAL_EVENTS_couch_abandoned = true ∧
            (∃ a ∈ e.evm.asserted, a.src = srcCal 6) ∧
            (e.couchOf k).retryAt = (if c.tries < 3 then some (b.now + 256000000000) else none))) ∧
    (c.step ≠ 2 ∨ (s.begin t).now < c.at_ + 51200000 → Completes (.matchTimeout t k) t s [] fun _ _ => True) ∧
    (c.step = 2 → c.at_ + 51200000 ≤ (s.begin t).now → (s.begin t).flt.queue = [] → (∀ r ∈ (s.begin t).unacked, r.det.cls ≠ 2) →
      Completes (.matchTimeout t k) t s [.regs, .evm, .force, .engs, .que, .memc, .vat, .flt, .cal] fun b e =>
        (e.couchOf k).step = 0 ∧ (e.couchOf k).outcome = 2 ∧ (e.sliceOf i).st = .free ∧ e.on f_CAL_EVENTS_couch_abandoned = true ∧
          (e.couchOf k).retryAt = (if c.tries < 3 then some (b.now + 256000000000) else none) ∧
          (3 ≤ c.tries → (e.sliceOf (b.sliceIdx n)).due = none)) ∧
    (c.step ≠ 2 ∨ (s.begin t).dutyPaused 1 = true → Completes (.connect t k) t s [] fun _ _ => True) ∧
    (c.step = 2 → (s.begin t).dutyPaused 1 = false →
      Completes (.connect t k) t s [.cal] fun b e =>
        e.couchOf k = { c with step := 3, at_ := b.now } ∧ e.sliceOf i = { b.sliceOf i with st := .handover } ∧
          Table.SameBut [i] b.cal.slices e.cal.slices ∧ Table.SameBut [k] b.cal.couch e.cal.couch) ∧
    (c.step ≠ 3 ∨ (s.begin t).now < c.at_ + 512000 ∨ (s.begin t).dutyPaused 1 = true → Completes (.handoverRamp t k) t s [] fun _ _ => True) ∧
    (c.step = 3 → (s.begin t).dutyPaused 1 = false → c.at_ + 512000 ≤ (s.begin t).now →
      (c.slice < 64 ∨ (∃ q, 64 ≤ q ∧ q < 68 ∧ ((s.begin t).sliceOf (68 * k + q)).st = .free) →
        Completes (.handoverRamp t k) t s [.cal] fun b e =>
          e.couchOf k = { c with step := 4, at_ := b.now } ∧ Table.SameBut [k] b.cal.couch e.cal.couch ∧ e.cal = { b.cal with couch := e.cal.couch }) ∧
      (64 ≤ c.slice → (∀ q, 64 ≤ q → q < 68 → ((s.begin t).sliceOf (68 * k + q)).st ≠ .free) →
        Completes (.handoverRamp t k) t s [.regs, .evm, .force, .engs, .que, .memc, .vat, .flt, .cal] fun b e =>
          (e.couchOf k).step = 4 ∧ (e.couchOf k).at_ = b.now ∧ e.on f_CAL_EVENTS_spare_last = true ∧
            (∃ a ∈ e.evm.asserted, a.src = srcCal 7) ∧ ((∀ j, j < 8 → (b.couchOf j).slice < 68) → e.sparesGone = true))) ∧
    (c.step ≠ 4 ∨ (s.begin t).now < c.at_ + 16896000 ∨ (s.begin t).dutyPaused 1 = true → Completes (.couchRelease t k) t s [] fun _ _ => True) ∧
    (c.step = 4 → (s.begin t).dutyPaused 1 = false → n / 64 = k → c.slice < 68 → c.at_ + 16896000 ≤ (s.begin t).now → ((s.begin t).forceOf n).st = .couching → ((s.begin t).forceOf n).disabling = false →
      ((s.begin t).forceOf n).pending = none →
      ((s.begin t).forceOf n).before = .forcingV ∨ ((s.begin t).forceOf n).before = .forcingI ∨
        (((s.begin t).forceOf n).before = .zeroed ∧ ((s.begin t).forceOf n).detach = false) →
      (s.begin t).sliceIdx n ≠ i →
      Completes (.couchRelease t k) t s [.regs, .evm, .force, .seqs, .ress, .que, .cal, .fuses] fun b e =>
        let old := b.sliceIdx n
        let fc := (b.sliceOf i).forceCorr
        e.forceOf n = { b.forceOf n with slice := c.slice, corr := fc, corrTo := fc, st := (b.forceOf n).before, couchEnd := b.now } ∧ Table.SameBut [n] b.force e.force ∧
          (e.couchOf k).step = 0 ∧ (e.couchOf k).outcome = 1 ∧ (e.sliceOf i).st = .serving ∧ (e.sliceOf i).channel = n ∧
          (e.sliceOf old).channel = 0x3FF ∧ (e.sliceOf old).due = none ∧
          (((b.sliceOf old).due = none ∨ ∃ x, (b.sliceOf old).due = some (.command x)) → (e.sliceOf old).st = .free) ∧
          ((b.sliceOf old).due = some .wear ∨ (b.sliceOf old).due = some .drift ∨ (b.sliceOf old).due = some .faults → (e.sliceOf old).st = .retired) ∧
          Table.SameBut [i, old] b.cal.slices e.cal.slices ∧ ((b.seqOf n).busy = true → (e.seqOf n).corrSwap = some (b.sliceOf i).corr) ∧
          ((b.seqOf n).busy = false → (e.seqOf n).corr = (b.sliceOf i).corr) ∧ Table.SameBut [n] b.seqs e.seqs ∧
          (∀ r, b.freePlace 1920 = some r →
            e.fuseWord (1921 + 2 * r) = fuseMarker ∧ bits (e.fuseWord (1920 + 2 * r)) 16 16 = n ∧ bits (e.fuseWord (1920 + 2 * r)) 0 7 = c.slice) ∧
          e.on f_CAL_EVENTS_couch_done = true ∧ ∃ a ∈ e.evm.asserted, a.src = srcCal 5) ∧
    (c.retryAt = none ∨ (s.begin t).dutyPaused 1 = true ∨ (s.begin t).couchReady n = none → Completes (.couchRetry t k) t s [] fun _ _ => True) ∧
    (∀ u, c.retryAt = some u →
      ((s.begin t).now < u → Completes (.couchRetry t k) t s [] fun _ _ => True) ∧
      (∀ d q, u ≤ (s.begin t).now → (s.begin t).dutyPaused 1 = false → (s.begin t).couchReady n = some (d, q) → ((s.begin t).forceOf n).st ≠ .detached →
        Completes (.couchRetry t k) t s [.cal] fun b e =>
          e.couchOf k = { c with step := 1, slice := q, channel := n, at_ := b.now, tries := c.tries + 1, retryAt := none } ∧
            e.sliceOf (68 * k + q) =
              { b.sliceOf (68 * k + q) with
                st := .precal, phase := .load, phaseAt := b.now, loaded := false, disturbed := false, discard := false, retryAt := none } ∧ Table.SameBut [68 * k + q] b.cal.slices e.cal.slices)) ∧
    (∀ j temp pah y, j < 544 → (s.begin t).sliceOf j = y →
      ((s.begin t).domainOn (sliceDomain j) = false → Completes (.wearAccumulate t j temp pah) t s [] fun _ _ => True) ∧
      ((s.begin t).domainOn (sliceDomain j) = true →
        Completes (.wearAccumulate t j temp pah) t s [.cal] fun b e =>
          let z := e.sliceOf j
          Table.SameBut [j] b.cal.slices e.cal.slices ∧ e.cal = { b.cal with slices := e.cal.slices } ∧ z.st = y.st ∧ z.channel = y.channel ∧
            (b.sliceChannel j = none → z.charge = y.charge + pah ∧ z.due = y.due) ∧
            (∀ a, b.sliceChannel j = some a → z.charge = if (b.forceOf a).range = 6 then y.charge else y.charge + pah) ∧
            (∀ x, y.tMax = some x → temp ≤ x → temp + 5120 ≤ x → z.cycles = min 0xFFFF (y.cycles + 1) ∧ z.tMin = temp ∧ z.tMax = none) ∧
            (y.tMax = none → z.cycles = y.cycles))) ∧
    ((s.begin t).boot.wearLog = none ∨ (s.begin t).dutyPaused 1 = true → Completes (.wearLogSave t) t s [] fun _ _ => True) ∧
    (∀ slot off, (s.begin t).boot.wearLog = some (slot, off) → (s.begin t).dutyPaused 1 = false →
      Completes (.wearLogSave t) t s [.cal, .flash] fun b e =>
        let seq := b.cal.wearSeq + 1
        e.cal = { b.cal with wearSeq := seq } ∧ e.flashBytes slot (off + seq % 2 * 32768) wearLen = b.wearHalf seq ∧
          Table.SameBut ((List.range wearLen).map fun j => flashKey slot (off + seq % 2 * 32768) + j) b.flash e.flash) ∧
    ∀ j temp pah m v, j < 544 → ∀ c,
      c ∈ [Instr.calCouchCmd t m v, .couchingStart t k, .couchMatch t k, .matchTimeout t k, .connect t k, .handoverRamp t k, .couchRelease t k,
          .couchRetry t k, .wearAccumulate t j temp pah, .wearLogSave t] → ∃ e, exec c s = .next e

/-- R13, R34, R263, R315, R316, R318, R341 to R347, R351, R376, R398, Tables 12-1, 12-2: from the release of POR the boot phases follow each other, each command
acting in its own phase alone: fuses are loaded, a slot is selected by header and sequence, judged and rejected with its reason or taken, the stack is trained,
the web is waited for at most 100 ms, tiles come up and have their start-up run, and the device enters RUNNING once the raster is ready; in phase 0xF the flash
is read, programmed (bits go from 1 to 0), erased by sectors, and the device boots again. POR_RELEASE, FUSE_LOAD, SLOT_SELECTION, VERIFICATION, HBM_TRAINING,
WEB_TRAINING, TILE_POWER_UP, START_UP_RUN, RUNNING_ENTRY, FLASH_READ, FLASH_PROGRAM, FLASH_ERASE, REBOOT, FLASH_COMMAND_COMPLETE. The model's choices it rests
on: notes/assumptions/1, 5, 67, 79, 80, 81. -/
def Obligations.StartUpAndFlash : Prop :=
  ∀ (s : State) (t : Nat), s.canonical →
    (s.pwr.porHeld = true → exec (.porRelease t) s = .next { s with pwr := { s.pwr with porHeld := false } }) ∧
    (s.powered →
    Completes (.porRelease t) t s [] (fun _ _ => True) ∧
    (s.dev.phase ≠ 0 → Completes (.fuseLoad t) t s [] fun _ _ => True) ∧
    (s.dev.phase = 0 →
      Completes (.fuseLoad t) t s [.regs, .dev, .force, .memc, .cal, .boot] fun b e =>
        e.dev = { b.dev with phase := 1 } ∧ e.boot = { b.boot with phaseAt := b.now } ∧
          (∀ g, g < 8 → e.cal.committed.testBit g = b.genOk g ∧ e.cal.claimed.testBit g = b.genClaimed g ∧ (b.genOk g = true → g ≤ e.cal.gen)) ∧
          (e.cal.gen = 0 ∨ b.genOk e.cal.gen = true) ∧
          ((∃ g, g < 8 ∧ b.genClaimed g = true ∧ b.genOk g = false) → e.on f_CAL_EVENTS_burn_abandoned = true) ∧
          ((∀ r, r < 32 → b.fuseWord (1921 + 2 * r) ≠ fuseMarker) → e.force = b.force ∧ e.cal.slices = b.cal.slices) ∧
          ((∀ r, r < 32 → b.fuseWord (1985 + 2 * r) ≠ fuseMarker) → e.memc = b.memc) ∧
          (∀ r n q, r < 32 → n = bits (b.fuseWord (1920 + 2 * r)) 16 9 → q = bits (b.fuseWord (1920 + 2 * r)) 0 7 → q < 68 →
            b.fuseWord (1921 + 2 * r) = fuseMarker → (∀ p, p < 32 → p ≠ r → b.fuseWord (1921 + 2 * p) ≠ fuseMarker) →
            (b.sliceOf (n / 64 * 68 + q)).st ≠ .retired → n / 64 * 68 + q ≠ b.sliceIdx n →
            e.forceOf n = { b.forceOf n with slice := q } ∧ Table.SameBut [n] b.force e.force ∧
              (e.sliceOf (n / 64 * 68 + q)).st = .serving ∧ (e.sliceOf (n / 64 * 68 + q)).channel = n ∧
              (e.sliceOf (b.sliceIdx n)).channel = 0x3FF ∧
              (e.sliceOf (b.sliceIdx n)).st = if bit (b.fuseWord (1920 + 2 * r)) 15 then .retired else .free)) ∧
    (∀ x y, s.dev.phase ≠ 1 → Completes (.slotSelection t x y) t s [] fun _ _ => True) ∧
    (∀ x y, s.dev.phase = 1 →
      Completes (.slotSelection t x y) t s [.dev, .boot] fun b e =>
        let fresh := b.boot.triedA = false ∧ b.boot.triedB = false ∧ b.boot.failA = 0 ∧ b.boot.failB = 0
        let p := plausible (b.slotBytes 0) 0
        let q := plausible (b.slotBytes 1) 0
        (x = true → y = true → e.dev.phase = 0xF) ∧
          (fresh → x = true → e.boot.failA = 0x01) ∧ (fresh → y = true → e.boot.failB = 0x01) ∧
          (fresh → x = false → p = false → e.boot.failA = 0x02) ∧ (fresh → y = false → q = false → e.boot.failB = 0x02) ∧
          (fresh → x = false → p = true → y = true ∨ q = false → e.boot.slot = 0 ∧ e.boot.triedA = true ∧ e.dev.phase = 2) ∧
          (fresh → y = false → q = true → x = true ∨ p = false → e.boot.slot = 1 ∧ e.boot.triedB = true ∧ e.dev.phase = 2) ∧
          (fresh → x = false → y = false → p = true → q = true →
            e.dev.phase = 2 ∧ e.boot.slot = if later (headerOf (b.slotBytes 0)).sequence (headerOf (b.slotBytes 1)).sequence then 1 else 0) ∧
          (b.boot.triedA = true ∨ b.boot.failA ≠ 0 → b.boot.triedB = true ∨ b.boot.failB ≠ 0 → e.dev.phase = 0xF)) ∧
    (s.dev.phase ≠ 2 → Completes (.verification t) t s [] fun _ _ => True) ∧
    (s.dev.phase = 2 →
      Completes (.verification t) t s [.regs, .dev, .evm, .force, .seqs, .engs, .ress, .guards, .que, .memc, .hbm, .losses, .vat, .web, .jtag,
          .flt, .cal, .boot, .pwr, .free] fun b e =>
        let why := b.imageReason b.image (2 ^ 28) false
        (why = 0 → e.dev.phase = 3 ∧ e.memc.st = .training ∧ e.boot.bank0.good = true ∧ e.boot.active = 0 ∧
          e.boot.secVersion = b.imageHead.secVersion ∧ e.boot.imageDigest = Config.sm3 (b.image b.imageHead.manOff b.imageHead.manSize) ∧
          e.boot.configDigest = e.boot.imageDigest ∧ ∀ d, d ∈ [45, 46, 57, 58, 59, 60] → e.domainOn d = true) ∧
        (why ≠ 0 → e.failed b.boot.slot = why ∧ e.pwr.on = 0 ∧ e.hbm = [] ∧ e.force = b.force ∧ e.flt = b.flt ∧
          e.dev.phase = if b.tried (1 - b.boot.slot) ∨ b.failed (1 - b.boot.slot) ≠ 0 then 0xF else 1)) ∧
    (s.dev.phase ≠ 3 → Completes (.hbmTraining t) t s [] fun _ _ => True) ∧
    (s.dev.phase = 3 →
      Completes (.hbmTraining t) t s [.regs, .dev, .evm, .force, .seqs, .engs, .ress, .guards, .que, .memc, .hbm, .losses, .vat, .web, .jtag,
          .flt, .cal, .boot, .pwr, .free] fun b e =>
        let data := b.imageSections.filter fun x => decide (x.type = 2)
        ((∀ x ∈ data, Config.sm3 (x.bytes b.image) = x.digest) →
          e.dev.phase = 4 ∧ e.dev.forerunner = b.imageHead.forerunner ∧ ∀ d, d ∈ [40, 41, 42, 43, 44] → e.domainOn d = true) ∧
        ((∃ x ∈ data, Config.sm3 (x.bytes b.image) ≠ x.digest) → e.failed b.boot.slot = 0x07 ∧
          e.dev.phase = if b.tried (1 - b.boot.slot) ∨ b.failed (1 - b.boot.slot) ≠ 0 then 0xF else 1)) ∧
    (s.dev.phase ≠ 4 ∨ ((s.begin t).now < (s.begin t).boot.phaseAt + 25600000000 ∧
        ∃ p, p < 4 ∧ (s.begin t).on f_WEB_PORT_CTL_enable p = true ∧ ((s.begin t).portOf p).st ≠ .active ∧ ((s.begin t).portOf p).st ≠ .failed) →
      Completes (.webTraining t) t s [] fun _ _ => True) ∧
    (s.dev.phase = 4 → (s.begin t).boot.phaseAt + 25600000000 ≤ (s.begin t).now ∨
        (∀ p, p < 4 → (s.begin t).on f_WEB_PORT_CTL_enable p = false ∨ ((s.begin t).portOf p).st = .active ∨ ((s.begin t).portOf p).st = .failed) →
      Completes (.webTraining t) t s [.dev, .boot] fun b e =>
        e.dev = { b.dev with nodeValid := true, phase := 5 } ∧ e.boot = { b.boot with phaseAt := b.now }) ∧
    (s.dev.phase ≠ 5 ∨ (s.begin t).cal.running = true → Completes (.tilePowerUp t) t s [] fun _ _ => True) ∧
    (s.dev.phase = 5 → (s.begin t).cal.running = false → Table.rising (s.begin t).cal.queue = true →
      Completes (.tilePowerUp t) t s [.regs, .evm, .force, .seqs, .engs, .ress, .que, .memc, .hbm, .losses, .vat, .web, .flt, .cal, .boot, .pwr, .free] fun b e =>
        (∀ d, 47 ≤ d → d ≤ 56 → e.domainOn d = true) ∧ e.pwr.rising = [] ∧
          ∀ k, k < 8 → b.pwr.tileLost.testBit k = false →
            (∀ d, 5 * k ≤ d → d < 5 * k + 5 → e.domainOn d = true) ∧
              ∀ i, i / 68 = k → (b.sliceOf i).st ≠ .retired → i ∈ e.queueOf k ∨ b.inStep k = some i) ∧
    (s.dev.phase ≠ 5 ∨ (s.begin t).cal.running = false → Completes (.startUpRun t) t s [] fun _ _ => True) ∧
    (s.dev.phase = 5 → (s.begin t).cal.running = true → Table.rising (s.begin t).cal.queue = true → Table.rising (s.begin t).cal.current = true →
      Completes (.startUpRun t) t s [.regs, .dev, .tb, .evm, .force, .seqs, .engs, .ress, .que, .memc, .hbm, .losses, .vat, .web, .flt, .cal, .boot, .fuses, .free] fun b e =>
        e.dev.phase = 6 ∧ e.dev.test = b.imageHead.test ∧ e.cal.running = false ∧ (∀ k, k < 8 → e.queueOf k = [] ∧ e.inStep k = none) ∧
          b.fusesGrow e) ∧
    (s.dev.phase ≠ 6 ∨ ((s.begin t).tb.ready = false ∧ s.dev.forerunner = false) → Completes (.runningEntry t) t s [] fun _ _ => True) ∧
    (s.dev.phase = 6 → (s.begin t).tb.ready = true ∨ s.dev.forerunner = true →
      Completes (.runningEntry t) t s [.dev, .boot] fun b e =>
        e.dev = { b.dev with phase := 7 } ∧ e.boot = { b.boot with phaseAt := b.now }) ∧
    (∀ m v, s.answers m = true → (s.begin t).shielded (regAddr .BOOT_FLASH_CTL 0 0) = 0 →
      (∀ c, c ∈ [(Instr.flashRead t m v, 1), (.flashProgram t m v, 2), (.flashErase t m v, 3)] → bits v 28 4 = c.2 →
        (s.dev.phase = 0xF → (s.begin t).boot.flashCmd = none →
          Completes c.1 t s [.regs, .boot, .resp] fun b e =>
            e.resp = ⟨m, false, 0⟩ ∧ e.fld f_BOOT_FLASH_CTL_slot = bits v 0 1 ∧ Table.SameBut [regAddr .BOOT_FLASH_CTL 0 0] b.regs e.regs ∧
              e.boot = { b.boot with flashCmd := some (c.2, bits v 0 1 * 2 ^ 29 + b.fld f_BOOT_FLASH_ADDR_addr) }) ∧
        (s.dev.phase ≠ 0xF →
          Completes c.1 t s [.regs, .evm, .force, .engs, .que, .memc, .vat, .flt, .cal, .resp] fun b e =>
            e = { b.accessFault 0x004 1 .none m 2 (regAddr .BOOT_FLASH_CTL 0 0) with resp := ⟨m, false, 0⟩ })) ∧
      (s.dev.phase = 0xF → (s.begin t).boot.flashCmd = none → bits v 28 4 = 0xF →
        Completes (.reboot t m v) t s [.regs, .dev, .evm, .seqs, .engs, .ress, .guards, .que, .memc, .hbm, .losses, .vat, .web, .jtag, .boot,
            .pwr, .resp] fun b e =>
          e.dev = { State.reset.dev with phase := 1 } ∧ e.boot = { Boot.reset with phaseAt := b.now } ∧ e.pwr.on = 0 ∧ e.resp = ⟨m, false, 0⟩)) ∧
    ((s.begin t).boot.flashCmd = none → ∀ x, Completes (.flashCommandComplete t x) t s [] fun _ _ => True) ∧
    (∀ cmd key, (s.begin t).boot.flashCmd = some (cmd, key) →
      Completes (.flashCommandComplete t true) t s [.boot] (fun b e => e.boot = { b.boot with flashCmd := none, flashError := true }) ∧
      (cmd = 1 →
        Completes (.flashCommandComplete t false) t s [.regs, .boot] fun b e =>
          e.boot = { b.boot with flashCmd := none, flashError := false } ∧
            (∀ w, w < 16 → e.rd .BOOT_FLASH_DATA w =
              BitVec.ofNat 32 (leNat ((((flashLine key).map fun a => Table.get flashDefault a b.flash).drop (4 * w)).take 4))) ∧
            Table.SameBut ((List.range 16).map fun w => regAddr .BOOT_FLASH_DATA w 0) b.regs e.regs) ∧
      (cmd = 2 →
        Completes (.flashCommandComplete t false) t s [.boot, .flash] fun b e =>
          e.boot = { b.boot with flashCmd := none, flashError := false } ∧ Table.SameBut (flashLine key) b.flash e.flash ∧
            ∀ (j a : Nat), (flashLine key)[j]? = some a →
              Table.get flashDefault a e.flash = Table.get flashDefault a b.flash &&& byteOf (b.rd .BOOT_FLASH_DATA (j / 4)) (j % 4)) ∧
      (cmd = 3 →
        Completes (.flashCommandComplete t false) t s [.boot, .flash] fun b e =>
          e.boot = { b.boot with flashCmd := none, flashError := false } ∧
            (∀ a, a / 65536 = key / 65536 → Table.get flashDefault a e.flash = 0xFF) ∧
            ∀ a, a / 65536 ≠ key / 65536 → Table.get flashDefault a e.flash = Table.get flashDefault a b.flash))) ∧
    ∀ m v x y c, c ∈ [Instr.porRelease t, .fuseLoad t, .slotSelection t x y, .verification t, .hbmTraining t, .webTraining t, .tilePowerUp t,
        .startUpRun t, .runningEntry t, .flashRead t m v, .flashProgram t m v, .flashErase t m v, .reboot t m v, .flashCommandComplete t x] →
      ∃ e, exec c s = .next e

/-- R33, R34, R215, R358 to R370, Tables 12-7, 12-8, 12-10: a failed core is logged and the spare takes its duty; a doorbell is taken; a package is received
from one requester, staged or rejected with its reason, timed out, aborted, applied at the boundary of its frame or rejected LATE; the cores then restart in
turn; the standby slot is written; attestation requests wait, at most four, and are answered in order; an access to a forerunner window reaches the identity
word, or is refused by name for a register of the ZRT-2560. CORE_FAILED, CORE_TAKES_DUTY, CORE_RESTART, DOORBELL, AMEND_SEG, STAGED, AMEND_TIMEOUT, ABORT,
AMENDMENT_BOUNDARY, SLOT_WRITE, SLOT_WRITE_COMPLETE, ATTEST_REQ, ATTEST_RSP, FORERUNNER_WINDOW_ACCESS. The model's choices it rests on: notes/assumptions/1, 9,
30, 34, 47, 65, 66, 70, 106. -/
def Obligations.CoresAmendmentsAttestation : Prop :=
  ∀ (s : State) (t : Nat) (a : Amend), s.canonical → s.powered → (s.begin t).boot.amend = a →
    (∀ k x, k < 4 → (s.begin t).coreOf k = x →
      (x.failed = true ∨ (s.begin t).domainOn (58 + k) = false → Completes (.coreFailed t k) t s [] fun _ _ => True) ∧
      (x.failed = false → (s.begin t).domainOn (58 + k) = true →
        Completes (.coreFailed t k) t s [.regs, .evm, .force, .engs, .que, .memc, .vat, .flt, .cal, .boot, .pwr] fun b e =>
          e.coreOf k = { duty := 3, failed := true, restarting := false } ∧
            (x.duty = 3 → e.pwr = b.pwr ∧ Table.SameBut [k] b.boot.cores e.boot.cores) ∧
            ∀ j, x.duty ≠ 3 → j < 4 → j ≠ k → (b.coreOf j).duty = 3 → (b.coreOf j).failed = false → (b.coreOf j).restarting = false →
              ∃ i, i ≤ j ∧ i ≠ k ∧ (e.coreOf i).restarting = true ∧ (e.coreOf i).duty = 3 ∧ e.domainOn (58 + i) = true ∧
                Table.SameBut [k, i] b.boot.cores e.boot.cores) ∧
      ∀ d, d < 3 →
        (x.failed = true ∨ x.restarting = false ∨ x.duty ≠ 3 ∨ ((s.begin t).dutyCore d).isSome = true →
          Completes (.coreTakesDuty t k d) t s [] fun _ _ => True) ∧
        (x.failed = false → x.restarting = true → x.duty = 3 → (s.begin t).dutyCore d = none →
          Completes (.coreTakesDuty t k d) t s [.boot] fun b e =>
            e.coreOf k = { x with duty := d, restarting := false } ∧ Table.SameBut [k] b.boot.cores e.boot.cores ∧
              e.boot = { b.boot with cores := e.boot.cores })) ∧
    (a.st ≠ .switching ∨ a.switch = [] → Completes (.coreRestart t) t s [] fun _ _ => True) ∧
    (∀ d rest, a.st = .switching → a.switch = d :: rest → (s.begin t).dutyPaused d = true →
      Completes (.coreRestart t) t s [] fun _ _ => True) ∧
    (∀ d rest, a.st = .switching → a.switch = d :: rest → (s.begin t).dutyPaused d = false →
      Completes (.coreRestart t) t s [.boot] fun b e =>
        (rest = [] → e.boot.active = a.newBank ∧ e.boot.amend = { a with st := .idle, switch := [] }) ∧
          (rest ≠ [] → e.boot.active = b.boot.active ∧ e.boot.amend = { a with switch := rest } ∧
            ∀ d' k, rest.head? = some d' → e.dutyCore d' = some k → (e.coreOf k).restarting = true)) ∧
    (∀ j, j < 16 →
      ((s.begin t).pendOf (1768 + j) = 0 ∨ s.dev.phase < 6 ∨ s.dev.phase = 0xF ∨ a.st = .switching →
        Completes (.doorbell t j) t s [] fun _ _ => True) ∧
      (∀ x, (s.begin t).pendOf (1768 + j) ≠ 0 → (s.begin t).hostPaused = false → 6 ≤ s.dev.phase → s.dev.phase ≠ 0xF →
        Table.get Doorbell.reset j (s.begin t).boot.doorbells = x → Table.rising (s.begin t).evm.pend = true →
        (x.action ∉ [1, 2, 3] →
          Completes (.doorbell t j) t s [.evm] fun b e =>
            e.pendOf (1768 + j) = b.pendOf (1768 + j) - 1 ∧ Table.SameBut [1768 + j] b.evm.pend e.evm.pend ∧
              e.evm = { b.evm with pend := e.evm.pend }) ∧
        (x.action = 1 → (∀ c, c < 4 → (s.begin t).on f_QUE_AGENT_CTL_enable (24 + c) = false) →
          Completes (.doorbell t j) t s [.evm, .free] fun b e => e.pendOf (1768 + j) = b.pendOf (1768 + j) - 1 ∧ e.free = b.free + 1) ∧
        (x.action = 2 → Table.rising (s.begin t).cal.queue = true →
          Completes (.doorbell t j) t s [.evm, .cal] fun b e =>
            e.pendOf (1768 + j) = b.pendOf (1768 + j) - 1 ∧ ∀ i, i < 544 → bit x.arg (i / 68) = true → (b.sliceOf i).st ≠ .retired →
              b.domainOn (sliceDomain i) = true → i ∈ e.queueOf (i / 68) ∨ b.inStep (i / 68) = some i) ∧
        (x.action = 3 →
          Completes (.doorbell t j) t s [.evm, .cal, .flash] fun b e =>
            e.pendOf (1768 + j) = b.pendOf (1768 + j) - 1 ∧ (b.boot.wearLog = none ∨ b.dutyPaused 1 = true → e.cal = b.cal ∧ e.flash = b.flash) ∧
              (b.boot.wearLog.isSome = true → b.dutyPaused 1 = false → e.cal = { b.cal with wearSeq := b.cal.wearSeq + 1 })))) ∧
    (∀ src tag off data, s.answers src = true → (s.begin t).hostPaused = false →
      ((a.st = .idle ∧ off ≠ 0) ∨ (a.st = .receiving ∧ a.opener ≠ src) ∨ (a.st ≠ .idle ∧ a.st ≠ .receiving) ∨
          (s.begin t).boot.stagingMib = none ∨ 2 ^ 26 < off + data.length →
        Completes (.amendSeg t src tag off data) t s [.regs, .evm, .force, .engs, .que, .memc, .vat, .web, .flt, .cal] fun _ _ => True) ∧
      (∀ mb, a.st = .idle → off = 0 → (s.begin t).boot.stagingMib = some mb → a.holds 12 4 = false → data.length < 16 →
        Completes (.amendSeg t src tag off data) t s [.regs, .evm, .force, .engs, .que, .memc, .hbm, .losses, .vat, .web, .flt, .cal, .boot] fun b e =>
          e.boot = { b.boot with amend := { a with st := .receiving, opener := src, have_ := [(0, data.length)], segAt := b.now } } ∧
            (b.memQuiet → (∀ j, j < data.length → b.copyAddr (1048576 * mb + j) = none) →
              (∀ j, j < data.length → e.hbmByte (1048576 * mb + j) = data.getD j 0) ∧
            Table.SameBut ((List.range data.length).map fun j => 1048576 * mb + j) b.hbm e.hbm)) ∧
      (∀ mb, a.st = .receiving → a.opener = src → (s.begin t).boot.stagingMib = some mb → a.holds 12 4 = false → off + data.length < 16 →
        Completes (.amendSeg t src tag off data) t s [.regs, .evm, .force, .engs, .que, .memc, .hbm, .losses, .vat, .web, .flt, .cal, .boot] fun b e =>
          e.boot.amend.have_ = mergePiece (off, data.length) a.have_ ∧ e.boot.amend.segAt = b.now ∧ e.boot.amend.opener = src)) ∧
    (∀ src tag off data, s.answers src = true →
      (a.st = .switching → off ≠ 0 → Completes (.amendSeg t src tag off data) t s [] fun _ _ => True) ∧
      (a.st ≠ .switching → (s.begin t).hostPaused = true → Completes (.amendSeg t src tag off data) t s [] fun _ _ => True)) ∧
    (∀ src tag off data, s.answers src = false → Completes (.amendSeg t src tag off data) t s [] fun _ _ => True) ∧
    (a.st ≠ .verifying ∨ (s.begin t).hostPaused = true → Completes (.staged t) t s [] fun _ _ => True) ∧
    (a.st = .verifying → (s.begin t).hostPaused = false →
      Completes (.staged t) t s [.regs, .evm, .force, .engs, .que, .memc, .hbm, .losses, .vat, .flt, .cal, .boot] fun b e =>
        let r := b.memArrive.memRead (portMaster 4) 4 b.stagingBase b.stagingHead.total []
        let why := if r.2 ≠ [] then 0x01 else r.1.packageReason
        (why ≠ 0 → e.boot.amend.st = .idle ∧ e.boot.amend.reason = why ∧ e.boot.amend.have_ = [] ∧ e.hbm = r.1.hbm) ∧
          (why = 0 → b.dev.forerunner = false → b.boundaryCame a.frame = true → e.boot.amend.st = .idle ∧ e.boot.amend.reason = 0x0D) ∧
          (why = 0 → b.dev.forerunner = true ∨ b.boundaryCame a.frame = false → e.boot.amend = { a with st := .staged, segAt := b.now }) ∧
          e.boot.active = b.boot.active ∧ e.boot.configDigest = b.boot.configDigest) ∧
    (a.st ≠ .receiving ∨ (s.begin t).now < a.segAt + 2560000000000 → Completes (.amendTimeout t) t s [] fun _ _ => True) ∧
    (a.st = .receiving → a.segAt + 2560000000000 ≤ (s.begin t).now →
      Completes (.amendTimeout t) t s [.regs, .evm, .force, .engs, .que, .memc, .vat, .flt, .cal, .boot] fun b e =>
        e.boot.amend = { a with st := .idle, reason := 0x11, have_ := [], id := a.lastId, frame := 0 } ∧ e.boot.active = b.boot.active) ∧
    (∀ m v, s.answers m = true → (s.begin t).shielded (regAddr .BOOT_AMEND_CTL 0 0) = 0 → bit v 31 = true →
      (m = a.opener ∨ m = 0x1020 ∨ m = 0x1021 →
        (a.st = .idle ∨ a.st = .switching →
          Completes (.abort t m v) t s [.regs, .resp] fun b e => e.resp = ⟨m, false, 0⟩ ∧ RegsAlike .BOOT_AMEND_CTL 0 b e) ∧
        (a.st ≠ .idle → a.st ≠ .switching →
          Completes (.abort t m v) t s [.regs, .evm, .force, .engs, .que, .memc, .vat, .flt, .cal, .boot, .resp] fun b e =>
            e.resp = ⟨m, false, 0⟩ ∧ e.boot.active = b.boot.active ∧
              e.boot.amend = { a with st := .idle, reason := 0x10, have_ := [], id := a.lastId, frame := 0 })) ∧
      (m ≠ a.opener → m ≠ 0x1020 → m ≠ 0x1021 →
        Completes (.abort t m v) t s [.regs, .evm, .force, .engs, .que, .memc, .vat, .flt, .cal, .resp] fun b e =>
          e = { b.accessFault 0x001 1 .none m 2 (regAddr .BOOT_AMEND_CTL 0 0) with resp := ⟨m, false, 0⟩ })) ∧
    (a.st = .idle ∨ a.st = .switching ∨ (s.dev.forerunner = false ∧ (a.holds 0 36 = false ∨ (s.begin t).boundaryCame a.frame = false)) ∨
        (s.dev.forerunner = true ∧ (a.st ≠ .staged ∨ (s.begin t).cycle ≤ a.segAt / 256)) →
      Completes (.amendmentBoundary t) t s [] fun _ _ => True) ∧
    (let gone := rtBefore ⟨a.frame, 0, 0⟩ ⟨((s.begin t).tb.readyFrame + 2 ^ 32 - 1) % 2 ^ 32, 0, 0⟩
      let due := s.dev.forerunner = false ∧ a.holds 0 36 = true ∧ (s.begin t).boundaryCame a.frame = true
      (due → a.st ≠ .idle → a.st ≠ .switching → a.st ≠ .staged ∨ gone = true →
        Completes (.amendmentBoundary t) t s [.regs, .evm, .force, .engs, .que, .memc, .vat, .flt, .cal, .boot] fun b e =>
          e.boot.amend = { a with st := .idle, reason := 0x0D, have_ := [], id := a.lastId, frame := 0 } ∧ e.boot.active = b.boot.active) ∧
      (a.st = .staged → (due ∧ gone = false) ∨ (s.dev.forerunner = true ∧ a.segAt / 256 < (s.begin t).cycle) →
        Completes (.amendmentBoundary t) t s [.regs, .dev, .tb, .evm, .force, .seqs, .engs, .ress, .que, .memc, .hbm, .losses, .vat, .web, .flt,
            .cal, .boot, .fuses, .free] fun b e =>
          e.boot.amend.st = (if b.stagingHead.fwSwitch then .switching else .idle) ∧ e.boot.amend.lastId = b.stagingHead.amendId ∧
            e.boot.amend.count = (a.count + 1) % 65536 ∧ e.boot.amend.shieldAt = b.cycle ∧ e.dev.test = b.stagingHead.test ∧
            e.boot.configDigest = Config.sm3 (leBytes b.boot.configDigest.toNat 32 ++
              leBytes (Config.sm3 (b.staging b.stagingHead.manOff b.stagingHead.manSize)).toNat 32) ∧
            e.boot.active = b.boot.active ∧ b.fusesGrow e)) ∧
    ((s.begin t).boot.slotImage = [] ∨ (s.begin t).boot.slotState ≠ 0 ∨ (s.begin t).dutyPaused 1 = true → Completes (.slotWrite t) t s [] fun _ _ => True) ∧
    ((s.begin t).boot.slotImage ≠ [] → (s.begin t).boot.slotState = 0 → (s.begin t).dutyPaused 1 = false →
      Completes (.slotWrite t) t s [.boot, .flash] fun b e =>
        e.boot = { b.boot with slotState := 1, slotTo := 1 - b.boot.slot, slotFailed := false, slotProgress := 0 } ∧
          ∀ k j, j < 2 ^ 29 → e.flashByte k j = if k = 1 - b.boot.slot ∧ j < 65536 then 0xFF else b.flashByte k j) ∧
    ((s.begin t).boot.slotState = 0 ∨ (s.begin t).dutyPaused 1 = true → ∀ x, Completes (.slotWriteComplete t x) t s [] fun _ _ => True) ∧
    ((s.begin t).boot.slotState ≠ 0 → (s.begin t).dutyPaused 1 = false →
      Completes (.slotWriteComplete t true) t s [.regs, .evm, .force, .engs, .que, .memc, .vat, .flt, .cal, .boot] (fun b e =>
        e.boot = { b.boot with slotState := 0, slotImage := [], slotFailed := true }) ∧
      Completes (.slotWriteComplete t false) t s [.boot, .flash] fun b e =>
        e.boot = { b.boot with slotState := 0, slotImage := [], slotFailed := false, slotProgress := (b.boot.slotImage.length + 65535) / 65536 } ∧
          e.flashBytes b.boot.slotTo 0 b.boot.slotImage.length = b.boot.slotImage ∧
          Table.SameBut ((List.range ((b.boot.slotImage.length + 65535) / 65536 * 65536)).map fun j => flashKey b.boot.slotTo j) b.flash e.flash) ∧
    (∀ src tag nonce, s.answers src = true →
      ((s.begin t).hostPaused = true → Completes (.attestReq t src tag nonce) t s [] fun _ _ => True) ∧
      ((s.begin t).hostPaused = false → (s.begin t).boot.attest.length < 4 →
        Completes (.attestReq t src tag nonce) t s [.web, .boot] fun b e =>
          e.boot = { b.boot with attest := b.boot.attest ++ [(b.servedAs src 0x13 tag, src, tag, nonce)] } ∧ e.web = { b.web with serving := e.web.serving }) ∧
      ((s.begin t).hostPaused = false → 4 ≤ (s.begin t).boot.attest.length →
        Completes (.attestReq t src tag nonce) t s [.regs, .evm, .force, .engs, .que, .memc, .vat, .web, .flt, .cal] fun _ _ => True)) ∧
    ((s.begin t).boot.attest = [] ∨ (s.begin t).hostPaused = true → Completes (.attestRsp t) t s [] fun _ _ => True) ∧
    (∀ x rest, (s.begin t).boot.attest = x :: rest → (s.begin t).hostPaused = false →
      Completes (.attestRsp t) t s [.regs, .evm, .force, .engs, .que, .memc, .vat, .web, .flt, .cal, .boot, .free] fun b e =>
        e.boot = { b.boot with attest := rest } ∧ e.free = b.free + 1) ∧
    (∀ m node w ad v, s.answers m = true →
      (s.dev.forerunner = false ∨ (node ≠ s.virtualNode 0 ∧ node ≠ s.virtualNode 1) →
        Completes (.forerunnerWindowAccess t m node w ad v) t s [] fun _ _ => True) ∧
      (∀ k, k < 2 → s.dev.forerunner = true → node = s.virtualNode k → (k = 1 → node ≠ s.virtualNode 0) →
        Completes (.forerunnerWindowAccess t m node false 0 v) t s [.resp] (fun b e =>
          e.resp = ⟨m, false, place 16 16 0x2560 ||| place 8 8 (b.boot.foreSet.getD (9 - k) 0).toNat ||| 0x53⟩) ∧
        (0x800000 ≤ ad →
          Completes (.forerunnerWindowAccess t m node w ad v) t s [.resp] fun _ e => e.resp = ⟨m, true, 0⟩) ∧
        (ad < 0x800000 → ad % 4 = 0 → w = true ∨ ad ≠ 0 →
          exec (.forerunnerWindowAccess t m node w ad v) s = .refused (.forerunnerRegister ad)))) ∧
    ∀ k d j src tag off m v x nonce data, k < 4 → d < 3 → j < 16 → ∀ c,
      c ∈ [Instr.coreFailed t k, .coreTakesDuty t k d, .coreRestart t, .doorbell t j, .amendSeg t src tag off data, .staged t, .amendTimeout t,
          .abort t m v, .amendmentBoundary t, .slotWrite t, .slotWriteComplete t x, .attestReq t src tag nonce, .attestRsp t] →
      ∃ e, exec c s = .next e

/-- R13, R18 to R20, R294, R376, R380, R381, R386 to R392, Tables 1-3, 13-3: PORST_N, loss of VDD_AON and of its hub rail restart the device as at power-on with
fuses and flash kept; the loss of a tile rail takes the tile to its safe state and then switches its domains off; that of a web rail fails the web ports and
that of another hub rail takes the hub to reset with TB, FLT and time kept, until it restarts; the governor measures, trips, steps and releases; a slice group
or web domain is switched on and off by request, and off only while it is not in use. PORST_N, VDD_AON_LOSS, SUPPLY_TILE, TILE_DOMAINS_OFF, SUPPLY_HUB,
HUB_RESTART, POWER_MEASUREMENT, DEVICE_STEP, TILE_STEP, STEP_RELEASE, DOMAIN_ON, DOMAIN_OFF, SLICE_GROUP_POWERED. The model's choices it rests on:
notes/assumptions/1, 19, 38, 39, 79, 102, 107. -/
def Obligations.SuppliesAndGovernor : Prop :=
  ∀ (s : State) (t : Nat), s.canonical → s.pwr.porHeld = false →
    (s.pwr.hubReset = true →
      Completes (.hubRestart t) t s [.flt, .pwr] fun b e =>
        e.pwr = { b.pwr with hubOk := 0x1FF, hubReset := false } ∧ ConditionEnds 0xB03 .device b e) ∧
    (s.pwr.hubReset = false →
    (∀ c, c ∈ [Instr.porstN t, .vddAonLoss t, .supplyHub t 2] →
      exec c s = .next { State.reset with
        fuses := s.fuses, flash := s.flash, free := s.free, pending := s.pending, pwr := { Pwr.reset with porHeld := true } }) ∧
    (∀ k, k < 8 →
      ((s.begin t).pwr.tileLost.testBit k = true → Completes (.supplyTile t k) t s [] fun _ _ => True) ∧
      ((s.begin t).pwr.tileLost.testBit k = false → (∀ r ∈ (s.begin t).unacked, r.det.code ≠ 0xB02) →
        Completes (.supplyTile t k) t s [.regs, .evm, .force, .engs, .que, .memc, .vat, .flt, .cal, .pwr] fun b e =>
          e.pwr.tileLost.testBit k = true ∧ (k, b.now) ∈ e.pwr.offDue ∧ e.pwr.on = b.pwr.on ∧ e.on f_PWR_EVENTS_supply_tile = true ∧
            e.flt.tileSafe.testBit k = true ∧ ∀ n, n < 512 → n / 64 = k → (b.forceOf n).st ≠ .detached → (e.forceOf n).st = .safe) ∧
      (∀ w, (s.begin t).pwr.offDue.find? (fun x => decide (x.1 = k)) = none → Completes (.tileDomainsOff t k w) t s [] fun _ _ => True) ∧
      (∀ w x, (s.begin t).pwr.offDue.find? (fun x => decide (x.1 = k)) = some x →
        (w = false → (s.begin t).now < x.2 + 12800000 → Completes (.tileDomainsOff t k w) t s [] fun _ _ => True) ∧
        (w = true ∨ x.2 + 12800000 ≤ (s.begin t).now →
          Completes (.tileDomainsOff t k w) t s [.regs, .evm, .force, .seqs, .engs, .guards, .que, .memc, .vat, .flt, .cal, .pwr, .fuses, .free] fun b e =>
            (∀ d, 5 * k ≤ d → d < 5 * k + 5 → e.domainOn d = false) ∧
              (∀ d, d < 5 * k ∨ 5 * k + 5 ≤ d → e.domainOn d = b.domainOn d) ∧
              ∀ n, n < 512 → n / 64 = k → sliceDomain (b.sliceIdx n) / 5 = k → b.domainOn (sliceDomain (b.sliceIdx n)) = true →
                sliceDomain (b.sliceIdx n) % 5 ≠ 4 → (e.forceOf n).st = .detached))) ∧
    (∀ r, r < 9 → r ≠ 2 → (s.begin t).pwr.hubOk.testBit r = false →
      Completes (.supplyHub t r) t s [.pwr] fun b e => e.pwr = { b.pwr with hubOk := e.pwr.hubOk } ∧ ∀ k, e.pwr.hubOk.testBit k = b.pwr.hubOk.testBit k) ∧
    (∀ r, r = 3 ∨ r = 4 → (s.begin t).pwr.hubOk.testBit r = true → (∀ x ∈ (s.begin t).unacked, x.det.code ≠ 0xB03) →
      Completes (.supplyHub t r) t s [.regs, .evm, .force, .engs, .que, .memc, .vat, .web, .flt, .cal, .pwr] fun b e =>
        e.pwr = { b.pwr with hubOk := e.pwr.hubOk } ∧ (∀ k, e.pwr.hubOk.testBit k = (b.pwr.hubOk.testBit k && decide (k ≠ r))) ∧
          e.on f_PWR_EVENTS_supply_hub = true ∧ e.flt.deviceSafe = true ∧
          (∀ n, n < 512 → (b.forceOf n).st ≠ .detached → (e.forceOf n).st = .safe) ∧
          ∀ p, p < 4 → b.domainOn (40 + p) = true → (e.portOf p).st = .failed) ∧
    (∀ r, r < 9 → r ≠ 2 → r ≠ 3 → r ≠ 4 → (s.begin t).pwr.hubOk.testBit r = true →
      Completes (.supplyHub t r) t s [.regs, .dev, .evm, .force, .seqs, .engs, .ress, .guards, .que, .memc, .hbm, .losses, .vat, .web, .jtag, .flt,
          .cal, .boot, .pwr, .resp] fun b e =>
        e.pwr.hubReset = true ∧ e.pwr.porHeld = false ∧ e.pwr.hubOk.testBit r = false ∧ e.pwr.on = State.reset.pwr.on ∧ e.dev = State.reset.dev ∧
          e.boot = State.reset.boot ∧ (∀ n, n < 512 → (e.forceOf n).st = .detached) ∧
          (∀ q i j, keptAddr (regAddr q i j) = false → e.rd q i j = State.reset.rd q i j) ∧
          ∀ q i j, keptAddr (regAddr q i j) = true → q ≠ .FLT_LOST → e.rd q i j = b.rd q i j) ∧
    (Completes (.hubRestart t) t s [] fun _ _ => True) ∧
    (∀ mw tiles stack hub, Table.rising (s.begin t).pwr.tileTemp = true →
      ((∀ k, k < 8 → sixteenths (tiles.getD k 0 % 65536) < 2000 ∨ 2000 ≤ sixteenths (Table.get 0 k (s.begin t).pwr.tileTemp)) →
        Completes (.powerMeasurement t mw tiles stack hub) t s [.pwr] fun b e =>
          e.pwr.powerMw = mw % 2 ^ 20 ∧ e.pwr.stackTemp = stack % 65536 ∧ e.pwr.hubTemp = hub % 65536 ∧
            (∀ k, k < 8 → Table.get 0 k e.pwr.tileTemp = tiles.getD k 0 % 65536) ∧
            (b.fld f_PWR_CTL_budget_w * 1000 < mw → e.pwr.timer = min (b.fld f_PWR_CTL_allow_ms) (b.pwr.timer + 1)) ∧
            (mw ≤ b.fld f_PWR_CTL_budget_w * 1000 → b.pwr.timerSub < 9 → e.pwr.timer = min (b.fld f_PWR_CTL_allow_ms) b.pwr.timer ∧
              e.pwr.timerSub = b.pwr.timerSub + 1) ∧
            (mw ≤ b.fld f_PWR_CTL_budget_w * 1000 → b.pwr.timerSub = 9 → e.pwr.timer = min (b.fld f_PWR_CTL_allow_ms) (b.pwr.timer - 1)) ∧
            e.pwr.devSteps = b.pwr.devSteps ∧ e.pwr.tileSteps = b.pwr.tileSteps ∧ e.pwr.on = b.pwr.on ∧ e.pwr.hubOk = b.pwr.hubOk) ∧
      (∀ k, k < 8 → 2000 ≤ sixteenths (tiles.getD k 0 % 65536) → sixteenths (Table.get 0 k (s.begin t).pwr.tileTemp) < 2000 →
        (∀ r ∈ (s.begin t).unacked, r.det.code ≠ 0xB01) →
        Completes (.powerMeasurement t mw tiles stack hub) t s [.regs, .evm, .force, .engs, .que, .memc, .vat, .flt, .cal, .pwr] fun b e =>
          e.on f_PWR_EVENTS_trip = true ∧ e.flt.tileSafe.testBit k = true ∧ e.pwr.powerMw = mw % 2 ^ 20 ∧
            ∀ n, n < 512 → n / 64 = k → (b.forceOf n).st ≠ .detached → (e.forceOf n).st = .safe)) ∧
    (((s.begin t).pwr.timer < (s.begin t).fld f_PWR_CTL_allow_ms ∨ (s.begin t).pwr.powerMw ≤ (s.begin t).fld f_PWR_CTL_budget_w * 1000 ∨
        7 ≤ (s.begin t).pwr.devSteps ∨ (∃ u, (s.begin t).pwr.stepAt = some u ∧ (s.begin t).now < u + 2560000000)) →
      Completes (.deviceStep t) t s [] fun _ _ => True) ∧
    ((s.begin t).fld f_PWR_CTL_allow_ms ≤ (s.begin t).pwr.timer → (s.begin t).fld f_PWR_CTL_budget_w * 1000 < (s.begin t).pwr.powerMw →
      (s.begin t).pwr.devSteps < 7 → (∀ u, (s.begin t).pwr.stepAt = some u ∨ (s.begin t).pwr.relAt = some u → u + 2560000000 ≤ (s.begin t).now) →
      Completes (.deviceStep t) t s [.regs, .evm, .force, .engs, .que, .memc, .vat, .flt, .cal, .pwr] fun b e =>
        e.pwr = { b.pwr with devSteps := b.pwr.devSteps + 1, stepAt := some b.now } ∧ e.on f_PWR_EVENTS_step = true ∧
          ∀ k, k < 8 → b.govSteps k < 7 → ∃ a ∈ e.evm.asserted, a.src = srcTile k 4) ∧
    (∀ k, k < 8 → Table.rising (s.begin t).pwr.tileSteps = true →
      (sixteenths (Table.get 0 k (s.begin t).pwr.tileTemp) < 1840 ∨ 7 ≤ (s.begin t).govSteps k →
        Completes (.tileStep t k) t s [] fun _ _ => True) ∧
      (1840 ≤ sixteenths (Table.get 0 k (s.begin t).pwr.tileTemp) → (s.begin t).govSteps k < 7 →
        (s.begin t).pwr.tileStepAt.find? (fun x => decide (x.1 = k)) = none → (s.begin t).pwr.relAt = none →
        Completes (.tileStep t k) t s [.regs, .evm, .force, .engs, .que, .memc, .vat, .flt, .cal, .pwr] fun b e =>
          Table.get 0 k e.pwr.tileSteps = Table.get 0 k b.pwr.tileSteps + 1 ∧ Table.SameBut [k] b.pwr.tileSteps e.pwr.tileSteps ∧
            e.pwr = { b.pwr with tileSteps := e.pwr.tileSteps, tileStepAt := e.pwr.tileStepAt } ∧ (k, b.now) ∈ e.pwr.tileStepAt ∧
            e.on f_PWR_EVENTS_step = true ∧ ∃ a ∈ e.evm.asserted, a.src = srcTile k 4) ∧
      ((s.begin t).on f_QUE_AGENT_CTL_enable 29 = false → (∀ u, (s.begin t).pwr.relAt = some u → u + 256000000000 ≤ (s.begin t).now) →
        (Table.get 0 k (s.begin t).pwr.tileSteps = 0 → Completes (.stepRelease t (some k)) t s [] fun _ _ => True) ∧
        (∀ x, Table.get 0 k (s.begin t).pwr.tileSteps ≠ 0 → (s.begin t).pwr.coolSince.find? (fun x => decide (x.1 = k)) = some x →
          x.2 + 256000000000 ≤ (s.begin t).now →
          Completes (.stepRelease t (some k)) t s [.regs, .pwr] fun b e =>
            Table.get 0 k e.pwr.tileSteps = Table.get 0 k b.pwr.tileSteps - 1 ∧ Table.SameBut [k] b.pwr.tileSteps e.pwr.tileSteps ∧
              e.pwr = { b.pwr with tileSteps := e.pwr.tileSteps, relAt := some b.now } ∧ e.on f_PWR_EVENTS_release = true ∧
              Table.SameBut [regAddr .PWR_EVENTS 0 0] b.regs e.regs) ∧
        ((s.begin t).pwr.devSteps = 0 ∨ (s.begin t).pwr.lowSince = none → Completes (.stepRelease t none) t s [] fun _ _ => True) ∧
        (∀ u, (s.begin t).pwr.devSteps ≠ 0 → (s.begin t).pwr.lowSince = some u → u + 256000000000 ≤ (s.begin t).now →
          Completes (.stepRelease t none) t s [.regs, .pwr] fun b e =>
            e.pwr = { b.pwr with devSteps := b.pwr.devSteps - 1, relAt := some b.now } ∧ e.on f_PWR_EVENTS_release = true ∧
              Table.SameBut [regAddr .PWR_EVENTS 0 0] b.regs e.regs))) ∧
    (∀ m v d, s.answers m = true → (s.begin t).shielded (regAddr .PWR_DOMAIN_REQ 0 0) = 0 → bits v 0 6 = d →
      (43 < d ∨ bit v 31 = bit v 30 → ∀ c, c ∈ [Instr.domainOn t m v, .domainOff t m v] →
        Completes c t s [.regs, .evm, .force, .engs, .que, .memc, .vat, .flt, .cal, .resp] fun b e =>
          e.resp = ⟨m, false, 0⟩ ∧ e.on f_PWR_EVENTS_refused = true ∧ ∃ x : State, x.flt = b.flt ∧ x.now = b.now ∧
            e.flt = (x.accessFault 0x004 1 .none m 2 (regAddr .PWR_DOMAIN_REQ 0 0)).flt) ∧
      (bit v 31 = true → bit v 30 = false →
        (d < 40 → d % 5 ≠ 4 → (s.begin t).domainOn d = false →
          Completes (.domainOn t m v) t s [.regs, .evm, .force, .seqs, .flt, .pwr, .resp] fun b e =>
            e.resp = ⟨m, false, 0⟩ ∧ (b.flt.recovering = [] → RegsAlike .PWR_DOMAIN_REQ 0 b e) ∧ e.domainOn d = true ∧
              e.domainOn (5 * (d / 5) + 4) = true ∧
              (∀ k, k ≠ d → k ≠ 5 * (d / 5) + 4 → e.domainOn k = b.domainOn k) ∧ (d, b.now) ∈ e.pwr.rising ∧
              ∀ n, n < 512 → n / 64 = d / 5 → sliceDomain (b.sliceIdx n) = d →
                (e.forceOf n).st = .detached ∧ (b.on f_CH_MEAS_CTL_run n = true → (e.seqOf n).running = true)) ∧
        (40 ≤ d → d ≤ 43 → (s.begin t).on f_WEB_PORT_CTL_enable (d - 40) = true → (s.begin t).webRails = true → ((s.begin t).portOf (d - 40)).st = .disabled →
          Completes (.domainOn t m v) t s [.regs, .web, .pwr, .resp] fun b e =>
            e.resp = ⟨m, false, 0⟩ ∧ RegsAlike .PWR_DOMAIN_REQ 0 b e ∧ e.domainOn d = true ∧ (∀ k, k ≠ d → e.domainOn k = b.domainOn k) ∧
              e.portOf (d - 40) = { b.portOf (d - 40) with st := .detect, since := b.now } ∧ Table.SameBut [d - 40] b.web.ports e.web.ports)) ∧
      (bit v 31 = false → bit v 30 = true →
        ((d < 40 ∧ d % 5 ≠ 4 ∧ (s.begin t).groupInUse d = true) ∨ (40 ≤ d ∧ d ≤ 43 ∧ (s.begin t).webPortInUse (d - 40) = true) →
          Completes (.domainOff t m v) t s [.regs, .evm, .force, .engs, .que, .memc, .vat, .flt, .cal, .resp] fun b e =>
            e.resp = ⟨m, false, 0⟩ ∧ e.on f_PWR_EVENTS_refused = true ∧ ∃ x : State, x.flt = b.flt ∧ x.now = b.now ∧
              e.flt = (x.accessFault 0x003 1 .none m 2 (regAddr .PWR_DOMAIN_REQ 0 0)).flt) ∧
        (d < 40 → d % 5 ≠ 4 → (s.begin t).groupInUse d = false → (s.begin t).domainOn d = true →
          Completes (.domainOff t m v) t s [.regs, .evm, .force, .seqs, .engs, .que, .memc, .vat, .flt, .cal, .pwr, .fuses, .free, .resp] fun b e =>
            e.resp = ⟨m, false, 0⟩ ∧ e.domainOn d = false ∧ (∀ k, k ≠ d → e.domainOn k = b.domainOn k) ∧
              ∀ n, n < 512 → n / 64 = d / 5 → sliceDomain (b.sliceIdx n) = d → (e.seqOf n).running = false ∧ (e.forceOf n).st = .detached) ∧
        (40 ≤ d → d ≤ 43 → (s.begin t).webPortInUse (d - 40) = false →
          Completes (.domainOff t m v) t s [.regs, .web, .pwr, .resp] fun b e =>
            e.resp = ⟨m, false, 0⟩ ∧ RegsAlike .PWR_DOMAIN_REQ 0 b e ∧ e.domainOn d = false ∧ (∀ k, k ≠ d → e.domainOn k = b.domainOn k) ∧
              (e.portOf (d - 40)).st = .disabled ∧ (e.portOf (d - 40)).held = 0 ∧ Table.SameBut [d - 40] b.web.ports e.web.ports))) ∧
    (∀ d, d < 40 → d % 5 ≠ 4 →
      ((s.begin t).domainOn d = false → Completes (.sliceGroupPowered t d) t s [] fun _ _ => True) ∧
      ((s.begin t).domainOn d = true → (∃ x ∈ (s.begin t).pwr.rising, x.1 = d) → Table.rising (s.begin t).cal.queue = true →
        Completes (.sliceGroupPowered t d) t s [.evm, .cal, .pwr] fun b e =>
          e.domainOn d = true ∧ e.pwr = { b.pwr with rising := e.pwr.rising } ∧
            ∀ i ∈ domainSlices d, (b.sliceOf i).st ≠ .retired → i ∈ e.queueOf (d / 5) ∨ b.inStep (d / 5) = some i))) ∧
    ∀ k d r m v w mw tiles stack hub step, k < 8 → isGroupDomain d = true → r < 9 → isTile? step = true → ∀ c,
      c ∈ [Instr.porstN t, .vddAonLoss t, .supplyTile t k, .tileDomainsOff t k w, .supplyHub t r, .hubRestart t,
          .powerMeasurement t mw tiles stack hub, .deviceStep t, .tileStep t k, .stepRelease t step, .domainOn t m v, .domainOff t m v,
          .sliceGroupPowered t d] → ∃ e, exec c s = .next e
end

