-- ==== Sys2Proof/Laws/Table.lean ====
section
/-!
SUPPORT. Laws of sparse tables: what a read gives after a write, and that every operation keeps keys rising and the canonical form.
-/

namespace Sys2Proof.Machine

variable {α : Type}

/-! ## Keys above a bound -/

theorem Table.above_mono {k j : Nat} (h : k ≤ j) : ∀ {t : Table α}, Table.above j t = true → Table.above k t = true
  | [], _ => rfl
  | (i, v) :: t, ha => by
    simp only [Table.above, Bool.and_eq_true, decide_eq_true_eq] at ha ⊢
    exact ⟨by omega, Table.above_mono h ha.2⟩

theorem Table.above_insert {k j : Nat} {w : α} (hj : j < k) : ∀ {t : Table α}, Table.above j t = true → Table.above j (Table.insert k w t) = true
  | [], _ => by simp [Table.insert, Table.above, hj]
  | (i, v) :: t, ha => by
    simp only [Table.above, Bool.and_eq_true, decide_eq_true_eq] at ha
    unfold Table.insert
    split
    · simp [Table.above, hj, ha.2]
    · split
      · simp [Table.above, hj, ha.1, ha.2]
      · simp [Table.above, ha.1, Table.above_insert hj ha.2]

theorem Table.above_erase {k j : Nat} : ∀ {t : Table α}, Table.above j t = true → Table.above j (Table.erase k t) = true
  | [], _ => rfl
  | (i, v) :: t, ha => by
    have hb := ha
    simp only [Table.above, Bool.and_eq_true, decide_eq_true_eq] at ha
    unfold Table.erase
    split
    · exact ha.2
    · split
      · exact hb
      · simp [Table.above, ha.1, Table.above_erase ha.2]

theorem Table.above_filter {j : Nat} (p : Nat × α → Bool) : ∀ {t : Table α}, Table.above j t = true → Table.above j (t.filter p) = true
  | [], _ => rfl
  | (i, v) :: t, ha => by
    simp only [Table.above, Bool.and_eq_true, decide_eq_true_eq] at ha
    rw [List.filter_cons]
    split
    · simp [Table.above, ha.1, Table.above_filter p ha.2]
    · exact Table.above_filter p ha.2

theorem Table.above_map {β : Type} {j : Nat} (g : Nat × α → β) :
    ∀ {t : Table α}, Table.above j t = true → Table.above j (t.map fun e => (e.1, g e)) = true
  | [], _ => rfl
  | (i, v) :: t, ha => by
    simp only [Table.above, Bool.and_eq_true, decide_eq_true_eq] at ha
    simp [Table.above, ha.1, Table.above_map g ha.2]

/-! ## Keys rise -/

theorem Table.rising_insert {k : Nat} {w : α} : ∀ {t : Table α}, Table.rising t = true → Table.rising (Table.insert k w t) = true
  | [], _ => by simp [Table.insert, Table.rising, Table.above]
  | (i, v) :: t, hr => by
    simp only [Table.rising, Bool.and_eq_true] at hr
    unfold Table.insert
    split
    · next h => subst h; simp [Table.rising, hr.1, hr.2]
    · split
      · next h => simp [Table.rising, Table.above, h, hr.1, hr.2, Table.above_mono (Nat.le_of_lt h) hr.1]
      · next h h' => simp [Table.rising, Table.above_insert (k := k) (w := w) (by omega : i < k) hr.1, Table.rising_insert hr.2]

theorem Table.rising_erase {k : Nat} : ∀ {t : Table α}, Table.rising t = true → Table.rising (Table.erase k t) = true
  | [], _ => rfl
  | (i, v) :: t, hr => by
    have hb := hr
    simp only [Table.rising, Bool.and_eq_true] at hr
    unfold Table.erase
    split
    · exact hr.2
    · split
      · exact hb
      · simp [Table.rising, Table.above_erase (k := k) hr.1, Table.rising_erase hr.2]

theorem Table.rising_put [DecidableEq α] {d : α} {k : Nat} {w : α} {t : Table α} (hr : Table.rising t = true) :
    Table.rising (Table.put d k w t) = true := by
  unfold Table.put; split
  · exact Table.rising_erase hr
  · exact Table.rising_insert hr

theorem Table.rising_filter (p : Nat × α → Bool) : ∀ {t : Table α}, Table.rising t = true → Table.rising (t.filter p) = true
  | [], _ => rfl
  | (i, v) :: t, hr => by
    simp only [Table.rising, Bool.and_eq_true] at hr
    rw [List.filter_cons]
    split
    · simp [Table.rising, Table.above_filter p hr.1, Table.rising_filter p hr.2]
    · exact Table.rising_filter p hr.2

theorem Table.rising_map {β : Type} (g : Nat × α → β) :
    ∀ {t : Table α}, Table.rising t = true → Table.rising (t.map fun e => (e.1, g e)) = true
  | [], _ => rfl
  | (i, v) :: t, hr => by
    simp only [Table.rising, Bool.and_eq_true] at hr
    simp [Table.rising, Table.above_map g hr.1, Table.rising_map g hr.2]

/-! ## Reads after writes -/

theorem Table.get_insert_same {d : α} {k : Nat} {w : α} : ∀ (t : Table α), Table.get d k (Table.insert k w t) = w
  | [] => by simp [Table.insert, Table.get]
  | (i, v) :: t => by
    unfold Table.insert
    split
    · simp [Table.get]
    · split
      · simp [Table.get]
      · next h h' => simp [Table.get, h, h', Table.get_insert_same t]

theorem Table.get_insert_other {d : α} {k m : Nat} {w : α} (h : m ≠ k) : ∀ {t : Table α}, Table.get d m (Table.insert k w t) = Table.get d m t
  | [] => by simp [Table.insert, Table.get, h]
  | (i, v) :: t => by
    unfold Table.insert
    split
    · next e => subst e; simp [Table.get, h]
    · split
      · next e e' =>
        simp only [Table.get, h, if_false]
        split
        · have : m ≠ i := by omega
          simp [this]; omega
        · rfl
      · next e e' =>
        simp only [Table.get]
        split
        · rfl
        · split
          · rfl
          · exact Table.get_insert_other h

theorem Table.get_of_above {d : α} {k j : Nat} (h : k ≤ j) : ∀ {t : Table α}, Table.above j t = true → Table.get d k t = d
  | [], _ => rfl
  | (i, v) :: t, ha => by
    simp only [Table.above, Bool.and_eq_true, decide_eq_true_eq] at ha
    have h1 : k ≠ i := by omega
    have h2 : k < i := by omega
    simp [Table.get, h1, h2]

theorem Table.get_erase_same {d : α} {k : Nat} : ∀ {t : Table α}, Table.rising t = true → Table.get d k (Table.erase k t) = d
  | [], _ => rfl
  | (i, v) :: t, hr => by
    simp only [Table.rising, Bool.and_eq_true] at hr
    unfold Table.erase
    split
    · next e => subst e; exact Table.get_of_above (Nat.le_refl _) hr.1
    · split
      · next e e' => simp [Table.get, e, e']
      · next e e' => simp [Table.get, e, e', Table.get_erase_same hr.2]

theorem Table.get_erase_other {d : α} {k m : Nat} (h : m ≠ k) : ∀ {t : Table α}, Table.rising t = true →
    Table.get d m (Table.erase k t) = Table.get d m t
  | [], _ => rfl
  | (i, v) :: t, hr => by
    simp only [Table.rising, Bool.and_eq_true] at hr
    unfold Table.erase
    split
    · next e =>
      subst e
      simp only [Table.get, h, if_false]
      split
      · next e' => exact Table.get_of_above (Nat.le_of_lt e') hr.1
      · rfl
    · split
      · rfl
      · simp only [Table.get]
        split
        · rfl
        · split
          · rfl
          · exact Table.get_erase_other h hr.2

theorem Table.get_put_same [DecidableEq α] {d : α} {k : Nat} {w : α} {t : Table α} (hr : Table.rising t = true) :
    Table.get d k (Table.put d k w t) = w := by
  unfold Table.put; split
  · next e => rw [Table.get_erase_same hr, e]
  · exact Table.get_insert_same t

/-- A value that is no default is read back whatever the table. -/
theorem Table.get_put_ne [DecidableEq α] {d e : α} {k : Nat} {w : α} {t : Table α} (hw : w ≠ d) : Table.get e k (Table.put d k w t) = w := by
  unfold Table.put; rw [if_neg hw]; exact Table.get_insert_same t

theorem Table.get_put_other [DecidableEq α] {d e : α} {k m : Nat} {w : α} {t : Table α} (h : m ≠ k) (hr : Table.rising t = true) :
    Table.get e m (Table.put d k w t) = Table.get e m t := by
  unfold Table.put; split
  · exact Table.get_erase_other h hr
  · exact Table.get_insert_other h

/-! ## The canonical form -/

section Canonical
variable [DecidableEq α] {d : Nat → α}

theorem Table.wf_rising : ∀ {t : Table α}, Table.wf d t = true → Table.rising t = true
  | [], _ => rfl
  | (i, v) :: t, hw => by
    simp only [Table.wf, Bool.and_eq_true] at hw
    simp [Table.rising, hw.1.1, Table.wf_rising hw.2]

theorem Table.wf_erase {k : Nat} : ∀ {t : Table α}, Table.wf d t = true → Table.wf d (Table.erase k t) = true
  | [], _ => rfl
  | (i, v) :: t, hw => by
    have hb := hw
    simp only [Table.wf, Bool.and_eq_true] at hw
    unfold Table.erase
    split
    · exact hw.2
    · split
      · exact hb
      · simp only [Table.wf, Bool.and_eq_true]
        exact ⟨⟨Table.above_erase hw.1.1, hw.1.2⟩, Table.wf_erase hw.2⟩

theorem Table.wf_insert {k : Nat} {w : α} (h : w ≠ d k) : ∀ {t : Table α}, Table.wf d t = true → Table.wf d (Table.insert k w t) = true
  | [], _ => by simp [Table.insert, Table.wf, Table.above, h]
  | (i, v) :: t, hw => by
    have hb := hw
    simp only [Table.wf, Bool.and_eq_true] at hw
    unfold Table.insert
    split
    · next e => subst e; simp [Table.wf, hw.1.1, hw.2, h]
    · split
      · next e e' =>
        have h1 : Table.above k ((i, v) :: t) = true := by simp [Table.above, e', Table.above_mono (Nat.le_of_lt e') hw.1.1]
        rw [Table.wf, h1, hb]; simp [h]
      · next e e' =>
        simp only [Table.wf, Bool.and_eq_true]
        exact ⟨⟨Table.above_insert (by omega) hw.1.1, hw.1.2⟩, Table.wf_insert h hw.2⟩

theorem Table.wf_put {k : Nat} {w : α} {t : Table α} (hw : Table.wf d t = true) : Table.wf d (Table.put (d k) k w t) = true := by
  unfold Table.put; split
  · exact Table.wf_erase hw
  · next h => exact Table.wf_insert h hw

/-- Entries may be dropped, and the defaults of dropped keys may change. -/
theorem Table.wf_filter {e : Nat → α} (p : Nat × α → Bool) : ∀ {t : Table α}, Table.wf d t = true →
    (∀ x ∈ t, p x = true → d x.1 = e x.1) → Table.wf e (t.filter p) = true
  | [], _, _ => rfl
  | (i, v) :: t, hw, hd => by
    simp only [Table.wf, Bool.and_eq_true] at hw
    have ih := Table.wf_filter p hw.2 fun x hx => hd x (List.mem_cons_of_mem _ hx)
    rw [List.filter_cons]
    split
    · next hp =>
      simp only [Table.wf, Bool.and_eq_true]
      exact ⟨⟨Table.above_filter p hw.1.1, by rw [← hd (i, v) (List.mem_cons_self ..) hp]; exact hw.1.2⟩, ih⟩
    · exact ih

end Canonical

end Sys2Proof.Machine
end

