-- ==== Sys2Proof/Laws/Keeps.lean ====
section
/-!
SUPPORT. What every operation of the model keeps, and the parts of the state that it may change. A set of parts is a number: bit k stands for
the k-th field of State. `Keeps F s t` says of a way from `s` to `t` that it changes no part outside `F`, leaves the queue of commands as it
was, loses no burnt fuse bit and leaves a canonical state canonical. One lemma for each operation follows in the files beside this one.
-/

namespace Sys2Proof.Machine

open Sys2Proof

/-- The parts of the state that `Keeps` speaks of. -/
structure Kept where
  pending : List Instr
  now : Nat
  regs : Table Word
  force : Table Force
  seqs : Table Seqr
  engs : Table Eng
  ress : Table Res
  felts : Table Felt
  credits : Table Credit
  slices : Table Slice
  couch : Table Couch
  gens : Table Gen
  beats : Table BeatPort
  ports : Table Port
  banks : Table Bank
  inj : Table Inj
  rcs : Table RcDyn
  pend : Table Nat
  evio : Table Evio
  cores : Table Core4
  hbm : Table Byte
  losses : Table Nat
  vat : Table Byte
  fuses : Table Word
  flash : Table Byte

@[reducible] def State.kept (s : State) : Kept :=
  ⟨s.pending, s.now, s.regs, s.force, s.seqs, s.engs, s.ress, s.que.felts, s.que.credits, s.cal.slices, s.cal.couch, s.tb.gens, s.tb.ports,
    s.web.ports, s.memc.banks, s.flt.inj, s.evm.rcs, s.evm.pend, s.evm.evio, s.boot.cores, s.hbm, s.losses, s.vat, s.fuses, s.flash⟩

/-- Each table of a state in canonical form. -/
structure Kept.Fine (k : Kept) : Prop where
  regs : Table.rising k.regs = true
  force : Table.rising k.force = true
  seqs : Table.rising k.seqs = true
  engs : Table.rising k.engs = true
  ress : Table.rising k.ress = true
  felts : Table.rising k.felts = true
  credits : Table.rising k.credits = true
  slices : Table.rising k.slices = true
  couch : Table.rising k.couch = true
  gens : Table.rising k.gens = true
  beats : Table.rising k.beats = true
  ports : Table.rising k.ports = true
  banks : Table.rising k.banks = true
  inj : Table.rising k.inj = true
  rcs : Table.rising k.rcs = true
  pend : Table.rising k.pend = true
  evio : Table.rising k.evio = true
  cores : Table.rising k.cores = true
  hbm : Table.wf (fun a => match Table.get 0 (bankKey a) k.losses with | 0 => 0 | n + 1 => Config.lostByte n a) k.hbm = true
  flash : Table.wf (fun _ => flashDefault) k.flash = true
  fuses : Table.wf (fun _ => (0 : Word)) k.fuses = true
  losses : Table.wf (fun _ => (0 : Nat)) k.losses = true
  vat : Table.rising k.vat = true

theorem State.canonical_iff (s : State) : s.canonical ↔ s.kept.Fine := by
  unfold State.canonical Memory.wf State.tablesRise State.hbmDefault
  simp only [Bool.and_eq_true]
  constructor
  · rintro ⟨⟨⟨⟨⟨h1, h2⟩, h3⟩, h4⟩, h5⟩, ⟨⟨⟨⟨⟨⟨⟨⟨⟨⟨⟨⟨⟨⟨⟨⟨⟨g1, g2⟩, g3⟩, g4⟩, g5⟩, g6⟩, g7⟩, g8⟩, g9⟩, g10⟩, g11⟩, g12⟩, g13⟩, g14⟩, g15⟩, g16⟩, g17⟩, g18⟩⟩
    exact ⟨g1, g2, g3, g4, g5, g6, g7, g8, g9, g10, g11, g12, g13, g14, g15, g16, g17, g18, h1, h2, h3, h4, h5⟩
  · rintro ⟨g1, g2, g3, g4, g5, g6, g7, g8, g9, g10, g11, g12, g13, g14, g15, g16, g17, g18, h1, h2, h3, h4, h5⟩
    exact ⟨⟨⟨⟨⟨h1, h2⟩, h3⟩, h4⟩, h5⟩, ⟨⟨⟨⟨⟨⟨⟨⟨⟨⟨⟨⟨⟨⟨⟨⟨⟨g1, g2⟩, g3⟩, g4⟩, g5⟩, g6⟩, g7⟩, g8⟩, g9⟩, g10⟩, g11⟩, g12⟩, g13⟩, g14⟩, g15⟩, g16⟩, g17⟩, g18⟩⟩

/-- Every part of `m` is a part of `F`. -/
def Within (m F : Nat) : Prop := m ||| F = F

theorem Within.sub {m n F : Nat} (h : Within n F) (e : m ||| n = n) : Within m F := by
  unfold Within at *
  rw [← h, ← Nat.lor_assoc, e]

theorem Within.refl (m : Nat) : Within m m := Nat.or_self m

theorem Within.out {α : Prop} {m F k : Nat} (h : Within m F) (e : m.testBit k = true) (f : F.testBit k = false) : α := by
  rw [← h, Nat.testBit_or, e] at f
  exact Bool.noConfusion f

/-- The parts outside `F`, and the queue of commands, are the same in both states. -/
structure Frame (F : Nat) (s t : State) : Prop where
  pending : t.pending = s.pending
  regs : F.testBit 1 = false → t.regs = s.regs
  dev : F.testBit 2 = false → t.dev = s.dev
  tb : F.testBit 3 = false → t.tb = s.tb
  evm : F.testBit 4 = false → t.evm = s.evm
  force : F.testBit 5 = false → t.force = s.force
  seqs : F.testBit 6 = false → t.seqs = s.seqs
  engs : F.testBit 7 = false → t.engs = s.engs
  ress : F.testBit 8 = false → t.ress = s.ress
  guards : F.testBit 9 = false → t.guards = s.guards
  que : F.testBit 10 = false → t.que = s.que
  memc : F.testBit 11 = false → t.memc = s.memc
  hbm : F.testBit 12 = false → t.hbm = s.hbm
  losses : F.testBit 13 = false → t.losses = s.losses
  vat : F.testBit 14 = false → t.vat = s.vat
  web : F.testBit 15 = false → t.web = s.web
  jtag : F.testBit 16 = false → t.jtag = s.jtag
  flt : F.testBit 17 = false → t.flt = s.flt
  cal : F.testBit 18 = false → t.cal = s.cal
  boot : F.testBit 19 = false → t.boot = s.boot
  pwr : F.testBit 20 = false → t.pwr = s.pwr
  fuses : F.testBit 21 = false → t.fuses = s.fuses
  flash : F.testBit 22 = false → t.flash = s.flash
  resp : F.testBit 23 = false → t.resp = s.resp
  free : F.testBit 24 = false → t.free = s.free

/-- A way from `s` to `t` that changes parts of `F` only; from a canonical state no fuse bit is lost and the state stays canonical. -/
structure Keeps (F : Nat) (s t : State) : Prop extends Frame F s t where
  now : t.now = s.now
  fuse : s.canonical → s.fusesGrow t
  fine : s.canonical → t.canonical

variable {F m : Nat} {s t u : State}

theorem Frame.refl (s : State) : Frame F s s := by constructor <;> intros <;> rfl

theorem Frame.trans (h : Frame F s t) (g : Frame F t u) : Frame F s u where
  pending := g.pending.trans h.pending
  regs := fun e => (g.regs e).trans (h.regs e)
  dev := fun e => (g.dev e).trans (h.dev e)
  tb := fun e => (g.tb e).trans (h.tb e)
  evm := fun e => (g.evm e).trans (h.evm e)
  force := fun e => (g.force e).trans (h.force e)
  seqs := fun e => (g.seqs e).trans (h.seqs e)
  engs := fun e => (g.engs e).trans (h.engs e)
  ress := fun e => (g.ress e).trans (h.ress e)
  guards := fun e => (g.guards e).trans (h.guards e)
  que := fun e => (g.que e).trans (h.que e)
  memc := fun e => (g.memc e).trans (h.memc e)
  hbm := fun e => (g.hbm e).trans (h.hbm e)
  losses := fun e => (g.losses e).trans (h.losses e)
  vat := fun e => (g.vat e).trans (h.vat e)
  web := fun e => (g.web e).trans (h.web e)
  jtag := fun e => (g.jtag e).trans (h.jtag e)
  flt := fun e => (g.flt e).trans (h.flt e)
  cal := fun e => (g.cal e).trans (h.cal e)
  boot := fun e => (g.boot e).trans (h.boot e)
  pwr := fun e => (g.pwr e).trans (h.pwr e)
  fuses := fun e => (g.fuses e).trans (h.fuses e)
  flash := fun e => (g.flash e).trans (h.flash e)
  resp := fun e => (g.resp e).trans (h.resp e)
  free := fun e => (g.free e).trans (h.free e)

theorem Frame.mono {G : Nat} (h : Frame m s t) (e : Within m G) : Frame G s t := by
  have f : ∀ k, G.testBit k = false → m.testBit k = false := fun k g => by
    cases b : m.testBit k
    · rfl
    · exact e.out b g
  constructor
  · exact h.pending
  · exact fun g => h.regs (f _ g)
  · exact fun g => h.dev (f _ g)
  · exact fun g => h.tb (f _ g)
  · exact fun g => h.evm (f _ g)
  · exact fun g => h.force (f _ g)
  · exact fun g => h.seqs (f _ g)
  · exact fun g => h.engs (f _ g)
  · exact fun g => h.ress (f _ g)
  · exact fun g => h.guards (f _ g)
  · exact fun g => h.que (f _ g)
  · exact fun g => h.memc (f _ g)
  · exact fun g => h.hbm (f _ g)
  · exact fun g => h.losses (f _ g)
  · exact fun g => h.vat (f _ g)
  · exact fun g => h.web (f _ g)
  · exact fun g => h.jtag (f _ g)
  · exact fun g => h.flt (f _ g)
  · exact fun g => h.cal (f _ g)
  · exact fun g => h.boot (f _ g)
  · exact fun g => h.pwr (f _ g)
  · exact fun g => h.fuses (f _ g)
  · exact fun g => h.flash (f _ g)
  · exact fun g => h.resp (f _ g)
  · exact fun g => h.free (f _ g)

theorem Keeps.refl (s : State) : Keeps F s s := ⟨.refl s, rfl, fun _ i => by simp, id⟩

theorem Keeps.trans (h : Keeps F s t) (g : Keeps F t u) : Keeps F s u :=
  ⟨h.toFrame.trans g.toFrame, g.now.trans h.now, fun c i => by rw [← g.fuse (h.fine c) i, ← BitVec.or_assoc, h.fuse c i], g.fine ∘ h.fine⟩

theorem Keeps.mono {G : Nat} (h : Keeps m s t) (e : Within m G) : Keeps G s t := ⟨h.toFrame.mono e, h.now, h.fuse, h.fine⟩

/-- The same of a way on which time may pass: the present instant never goes back. -/
structure Passes (F : Nat) (s t : State) : Prop extends Frame F s t where
  later : s.now ≤ t.now
  fuse : s.canonical → s.fusesGrow t
  fine : s.canonical → t.canonical

theorem Keeps.passes (h : Keeps F s t) : Passes F s t := ⟨h.toFrame, h.now.ge, h.fuse, h.fine⟩

theorem Passes.trans (h : Passes F s t) (g : Passes F t u) : Passes F s u :=
  ⟨h.toFrame.trans g.toFrame, h.later.trans g.later, fun c i => by rw [← g.fuse (h.fine c) i, ← BitVec.or_assoc, h.fuse c i], g.fine ∘ h.fine⟩

theorem Passes.keeps (h : Passes F s t) (g : Keeps F t u) : Passes F s u := h.trans g.passes

theorem Passes.mono {G : Nat} (h : Passes m s t) (e : Within m G) : Passes G s t := ⟨h.toFrame.mono e, h.later, h.fuse, h.fine⟩

theorem Passes.ite {c : Prop} {_ : Decidable c} (h : Passes F s t) (g : Passes F s u) : Passes F s (if c then t else u) := by
  split <;> assumption

/-- The machine right after reset is in canonical form. -/
theorem State.reset_fine : State.reset.kept.Fine := by constructor <;> rfl

/-- An update of parts of the state that burns no fuse. -/
theorem Keeps.step (h : Keeps F s t) (g : Frame F t u) (n : u.now = t.now) (e : u.fuses = t.fuses) (c : t.kept.Fine → u.kept.Fine) : Keeps F s u := by
  refine h.trans ⟨g, n, fun _ i => ?_, fun d => ?_⟩
  · simp [State.fuseWord, e]
  · rw [State.canonical_iff] at d ⊢; exact c d

/-- An update of parts of the state that holds no table. -/
theorem Keeps.same (h : Keeps F s t) (g : Frame F t u) (e : u.kept = t.kept) : Keeps F s u :=
  h.step g (congrArg Kept.now e) (congrArg Kept.fuses e) fun c => by rwa [e]

/-! ## One part replaced -/

theorem Frame.regs' (hF : Within 2 F) (t : State) (x) : Frame F t { t with regs := x } where
  pending := rfl
  regs := fun e => hF.out rfl e
  dev := fun _ => rfl
  tb := fun _ => rfl
  evm := fun _ => rfl
  force := fun _ => rfl
  seqs := fun _ => rfl
  engs := fun _ => rfl
  ress := fun _ => rfl
  guards := fun _ => rfl
  que := fun _ => rfl
  memc := fun _ => rfl
  hbm := fun _ => rfl
  losses := fun _ => rfl
  vat := fun _ => rfl
  web := fun _ => rfl
  jtag := fun _ => rfl
  flt := fun _ => rfl
  cal := fun _ => rfl
  boot := fun _ => rfl
  pwr := fun _ => rfl
  fuses := fun _ => rfl
  flash := fun _ => rfl
  resp := fun _ => rfl
  free := fun _ => rfl
theorem Frame.dev' (hF : Within 4 F) (t : State) (x) : Frame F t { t with dev := x } where
  pending := rfl
  regs := fun _ => rfl
  dev := fun e => hF.out rfl e
  tb := fun _ => rfl
  evm := fun _ => rfl
  force := fun _ => rfl
  seqs := fun _ => rfl
  engs := fun _ => rfl
  ress := fun _ => rfl
  guards := fun _ => rfl
  que := fun _ => rfl
  memc := fun _ => rfl
  hbm := fun _ => rfl
  losses := fun _ => rfl
  vat := fun _ => rfl
  web := fun _ => rfl
  jtag := fun _ => rfl
  flt := fun _ => rfl
  cal := fun _ => rfl
  boot := fun _ => rfl
  pwr := fun _ => rfl
  fuses := fun _ => rfl
  flash := fun _ => rfl
  resp := fun _ => rfl
  free := fun _ => rfl
theorem Frame.tb' (hF : Within 8 F) (t : State) (x) : Frame F t { t with tb := x } where
  pending := rfl
  regs := fun _ => rfl
  dev := fun _ => rfl
  tb := fun e => hF.out rfl e
  evm := fun _ => rfl
  force := fun _ => rfl
  seqs := fun _ => rfl
  engs := fun _ => rfl
  ress := fun _ => rfl
  guards := fun _ => rfl
  que := fun _ => rfl
  memc := fun _ => rfl
  hbm := fun _ => rfl
  losses := fun _ => rfl
  vat := fun _ => rfl
  web := fun _ => rfl
  jtag := fun _ => rfl
  flt := fun _ => rfl
  cal := fun _ => rfl
  boot := fun _ => rfl
  pwr := fun _ => rfl
  fuses := fun _ => rfl
  flash := fun _ => rfl
  resp := fun _ => rfl
  free := fun _ => rfl
theorem Frame.evm' (hF : Within 16 F) (t : State) (x) : Frame F t { t with evm := x } where
  pending := rfl
  regs := fun _ => rfl
  dev := fun _ => rfl
  tb := fun _ => rfl
  evm := fun e => hF.out rfl e
  force := fun _ => rfl
  seqs := fun _ => rfl
  engs := fun _ => rfl
  ress := fun _ => rfl
  guards := fun _ => rfl
  que := fun _ => rfl
  memc := fun _ => rfl
  hbm := fun _ => rfl
  losses := fun _ => rfl
  vat := fun _ => rfl
  web := fun _ => rfl
  jtag := fun _ => rfl
  flt := fun _ => rfl
  cal := fun _ => rfl
  boot := fun _ => rfl
  pwr := fun _ => rfl
  fuses := fun _ => rfl
  flash := fun _ => rfl
  resp := fun _ => rfl
  free := fun _ => rfl
theorem Frame.force' (hF : Within 32 F) (t : State) (x) : Frame F t { t with force := x } where
  pending := rfl
  regs := fun _ => rfl
  dev := fun _ => rfl
  tb := fun _ => rfl
  evm := fun _ => rfl
  force := fun e => hF.out rfl e
  seqs := fun _ => rfl
  engs := fun _ => rfl
  ress := fun _ => rfl
  guards := fun _ => rfl
  que := fun _ => rfl
  memc := fun _ => rfl
  hbm := fun _ => rfl
  losses := fun _ => rfl
  vat := fun _ => rfl
  web := fun _ => rfl
  jtag := fun _ => rfl
  flt := fun _ => rfl
  cal := fun _ => rfl
  boot := fun _ => rfl
  pwr := fun _ => rfl
  fuses := fun _ => rfl
  flash := fun _ => rfl
  resp := fun _ => rfl
  free := fun _ => rfl
theorem Frame.seqs' (hF : Within 64 F) (t : State) (x) : Frame F t { t with seqs := x } where
  pending := rfl
  regs := fun _ => rfl
  dev := fun _ => rfl
  tb := fun _ => rfl
  evm := fun _ => rfl
  force := fun _ => rfl
  seqs := fun e => hF.out rfl e
  engs := fun _ => rfl
  ress := fun _ => rfl
  guards := fun _ => rfl
  que := fun _ => rfl
  memc := fun _ => rfl
  hbm := fun _ => rfl
  losses := fun _ => rfl
  vat := fun _ => rfl
  web := fun _ => rfl
  jtag := fun _ => rfl
  flt := fun _ => rfl
  cal := fun _ => rfl
  boot := fun _ => rfl
  pwr := fun _ => rfl
  fuses := fun _ => rfl
  flash := fun _ => rfl
  resp := fun _ => rfl
  free := fun _ => rfl
theorem Frame.engs' (hF : Within 128 F) (t : State) (x) : Frame F t { t with engs := x } where
  pending := rfl
  regs := fun _ => rfl
  dev := fun _ => rfl
  tb := fun _ => rfl
  evm := fun _ => rfl
  force := fun _ => rfl
  seqs := fun _ => rfl
  engs := fun e => hF.out rfl e
  ress := fun _ => rfl
  guards := fun _ => rfl
  que := fun _ => rfl
  memc := fun _ => rfl
  hbm := fun _ => rfl
  losses := fun _ => rfl
  vat := fun _ => rfl
  web := fun _ => rfl
  jtag := fun _ => rfl
  flt := fun _ => rfl
  cal := fun _ => rfl
  boot := fun _ => rfl
  pwr := fun _ => rfl
  fuses := fun _ => rfl
  flash := fun _ => rfl
  resp := fun _ => rfl
  free := fun _ => rfl
theorem Frame.ress' (hF : Within 256 F) (t : State) (x) : Frame F t { t with ress := x } where
  pending := rfl
  regs := fun _ => rfl
  dev := fun _ => rfl
  tb := fun _ => rfl
  evm := fun _ => rfl
  force := fun _ => rfl
  seqs := fun _ => rfl
  engs := fun _ => rfl
  ress := fun e => hF.out rfl e
  guards := fun _ => rfl
  que := fun _ => rfl
  memc := fun _ => rfl
  hbm := fun _ => rfl
  losses := fun _ => rfl
  vat := fun _ => rfl
  web := fun _ => rfl
  jtag := fun _ => rfl
  flt := fun _ => rfl
  cal := fun _ => rfl
  boot := fun _ => rfl
  pwr := fun _ => rfl
  fuses := fun _ => rfl
  flash := fun _ => rfl
  resp := fun _ => rfl
  free := fun _ => rfl
theorem Frame.guards' (hF : Within 512 F) (t : State) (x) : Frame F t { t with guards := x } where
  pending := rfl
  regs := fun _ => rfl
  dev := fun _ => rfl
  tb := fun _ => rfl
  evm := fun _ => rfl
  force := fun _ => rfl
  seqs := fun _ => rfl
  engs := fun _ => rfl
  ress := fun _ => rfl
  guards := fun e => hF.out rfl e
  que := fun _ => rfl
  memc := fun _ => rfl
  hbm := fun _ => rfl
  losses := fun _ => rfl
  vat := fun _ => rfl
  web := fun _ => rfl
  jtag := fun _ => rfl
  flt := fun _ => rfl
  cal := fun _ => rfl
  boot := fun _ => rfl
  pwr := fun _ => rfl
  fuses := fun _ => rfl
  flash := fun _ => rfl
  resp := fun _ => rfl
  free := fun _ => rfl
theorem Frame.que' (hF : Within 1024 F) (t : State) (x) : Frame F t { t with que := x } where
  pending := rfl
  regs := fun _ => rfl
  dev := fun _ => rfl
  tb := fun _ => rfl
  evm := fun _ => rfl
  force := fun _ => rfl
  seqs := fun _ => rfl
  engs := fun _ => rfl
  ress := fun _ => rfl
  guards := fun _ => rfl
  que := fun e => hF.out rfl e
  memc := fun _ => rfl
  hbm := fun _ => rfl
  losses := fun _ => rfl
  vat := fun _ => rfl
  web := fun _ => rfl
  jtag := fun _ => rfl
  flt := fun _ => rfl
  cal := fun _ => rfl
  boot := fun _ => rfl
  pwr := fun _ => rfl
  fuses := fun _ => rfl
  flash := fun _ => rfl
  resp := fun _ => rfl
  free := fun _ => rfl
theorem Frame.memc' (hF : Within 2048 F) (t : State) (x) : Frame F t { t with memc := x } where
  pending := rfl
  regs := fun _ => rfl
  dev := fun _ => rfl
  tb := fun _ => rfl
  evm := fun _ => rfl
  force := fun _ => rfl
  seqs := fun _ => rfl
  engs := fun _ => rfl
  ress := fun _ => rfl
  guards := fun _ => rfl
  que := fun _ => rfl
  memc := fun e => hF.out rfl e
  hbm := fun _ => rfl
  losses := fun _ => rfl
  vat := fun _ => rfl
  web := fun _ => rfl
  jtag := fun _ => rfl
  flt := fun _ => rfl
  cal := fun _ => rfl
  boot := fun _ => rfl
  pwr := fun _ => rfl
  fuses := fun _ => rfl
  flash := fun _ => rfl
  resp := fun _ => rfl
  free := fun _ => rfl
theorem Frame.hbm' (hF : Within 4096 F) (t : State) (x) : Frame F t { t with hbm := x } where
  pending := rfl
  regs := fun _ => rfl
  dev := fun _ => rfl
  tb := fun _ => rfl
  evm := fun _ => rfl
  force := fun _ => rfl
  seqs := fun _ => rfl
  engs := fun _ => rfl
  ress := fun _ => rfl
  guards := fun _ => rfl
  que := fun _ => rfl
  memc := fun _ => rfl
  hbm := fun e => hF.out rfl e
  losses := fun _ => rfl
  vat := fun _ => rfl
  web := fun _ => rfl
  jtag := fun _ => rfl
  flt := fun _ => rfl
  cal := fun _ => rfl
  boot := fun _ => rfl
  pwr := fun _ => rfl
  fuses := fun _ => rfl
  flash := fun _ => rfl
  resp := fun _ => rfl
  free := fun _ => rfl
theorem Frame.losses' (hF : Within 8192 F) (t : State) (x) : Frame F t { t with losses := x } where
  pending := rfl
  regs := fun _ => rfl
  dev := fun _ => rfl
  tb := fun _ => rfl
  evm := fun _ => rfl
  force := fun _ => rfl
  seqs := fun _ => rfl
  engs := fun _ => rfl
  ress := fun _ => rfl
  guards := fun _ => rfl
  que := fun _ => rfl
  memc := fun _ => rfl
  hbm := fun _ => rfl
  losses := fun e => hF.out rfl e
  vat := fun _ => rfl
  web := fun _ => rfl
  jtag := fun _ => rfl
  flt := fun _ => rfl
  cal := fun _ => rfl
  boot := fun _ => rfl
  pwr := fun _ => rfl
  fuses := fun _ => rfl
  flash := fun _ => rfl
  resp := fun _ => rfl
  free := fun _ => rfl
theorem Frame.vat' (hF : Within 16384 F) (t : State) (x) : Frame F t { t with vat := x } where
  pending := rfl
  regs := fun _ => rfl
  dev := fun _ => rfl
  tb := fun _ => rfl
  evm := fun _ => rfl
  force := fun _ => rfl
  seqs := fun _ => rfl
  engs := fun _ => rfl
  ress := fun _ => rfl
  guards := fun _ => rfl
  que := fun _ => rfl
  memc := fun _ => rfl
  hbm := fun _ => rfl
  losses := fun _ => rfl
  vat := fun e => hF.out rfl e
  web := fun _ => rfl
  jtag := fun _ => rfl
  flt := fun _ => rfl
  cal := fun _ => rfl
  boot := fun _ => rfl
  pwr := fun _ => rfl
  fuses := fun _ => rfl
  flash := fun _ => rfl
  resp := fun _ => rfl
  free := fun _ => rfl
theorem Frame.web' (hF : Within 32768 F) (t : State) (x) : Frame F t { t with web := x } where
  pending := rfl
  regs := fun _ => rfl
  dev := fun _ => rfl
  tb := fun _ => rfl
  evm := fun _ => rfl
  force := fun _ => rfl
  seqs := fun _ => rfl
  engs := fun _ => rfl
  ress := fun _ => rfl
  guards := fun _ => rfl
  que := fun _ => rfl
  memc := fun _ => rfl
  hbm := fun _ => rfl
  losses := fun _ => rfl
  vat := fun _ => rfl
  web := fun e => hF.out rfl e
  jtag := fun _ => rfl
  flt := fun _ => rfl
  cal := fun _ => rfl
  boot := fun _ => rfl
  pwr := fun _ => rfl
  fuses := fun _ => rfl
  flash := fun _ => rfl
  resp := fun _ => rfl
  free := fun _ => rfl
theorem Frame.jtag' (hF : Within 65536 F) (t : State) (x) : Frame F t { t with jtag := x } where
  pending := rfl
  regs := fun _ => rfl
  dev := fun _ => rfl
  tb := fun _ => rfl
  evm := fun _ => rfl
  force := fun _ => rfl
  seqs := fun _ => rfl
  engs := fun _ => rfl
  ress := fun _ => rfl
  guards := fun _ => rfl
  que := fun _ => rfl
  memc := fun _ => rfl
  hbm := fun _ => rfl
  losses := fun _ => rfl
  vat := fun _ => rfl
  web := fun _ => rfl
  jtag := fun e => hF.out rfl e
  flt := fun _ => rfl
  cal := fun _ => rfl
  boot := fun _ => rfl
  pwr := fun _ => rfl
  fuses := fun _ => rfl
  flash := fun _ => rfl
  resp := fun _ => rfl
  free := fun _ => rfl
theorem Frame.flt' (hF : Within 131072 F) (t : State) (x) : Frame F t { t with flt := x } where
  pending := rfl
  regs := fun _ => rfl
  dev := fun _ => rfl
  tb := fun _ => rfl
  evm := fun _ => rfl
  force := fun _ => rfl
  seqs := fun _ => rfl
  engs := fun _ => rfl
  ress := fun _ => rfl
  guards := fun _ => rfl
  que := fun _ => rfl
  memc := fun _ => rfl
  hbm := fun _ => rfl
  losses := fun _ => rfl
  vat := fun _ => rfl
  web := fun _ => rfl
  jtag := fun _ => rfl
  flt := fun e => hF.out rfl e
  cal := fun _ => rfl
  boot := fun _ => rfl
  pwr := fun _ => rfl
  fuses := fun _ => rfl
  flash := fun _ => rfl
  resp := fun _ => rfl
  free := fun _ => rfl
theorem Frame.cal' (hF : Within 262144 F) (t : State) (x) : Frame F t { t with cal := x } where
  pending := rfl
  regs := fun _ => rfl
  dev := fun _ => rfl
  tb := fun _ => rfl
  evm := fun _ => rfl
  force := fun _ => rfl
  seqs := fun _ => rfl
  engs := fun _ => rfl
  ress := fun _ => rfl
  guards := fun _ => rfl
  que := fun _ => rfl
  memc := fun _ => rfl
  hbm := fun _ => rfl
  losses := fun _ => rfl
  vat := fun _ => rfl
  web := fun _ => rfl
  jtag := fun _ => rfl
  flt := fun _ => rfl
  cal := fun e => hF.out rfl e
  boot := fun _ => rfl
  pwr := fun _ => rfl
  fuses := fun _ => rfl
  flash := fun _ => rfl
  resp := fun _ => rfl
  free := fun _ => rfl
theorem Frame.boot' (hF : Within 524288 F) (t : State) (x) : Frame F t { t with boot := x } where
  pending := rfl
  regs := fun _ => rfl
  dev := fun _ => rfl
  tb := fun _ => rfl
  evm := fun _ => rfl
  force := fun _ => rfl
  seqs := fun _ => rfl
  engs := fun _ => rfl
  ress := fun _ => rfl
  guards := fun _ => rfl
  que := fun _ => rfl
  memc := fun _ => rfl
  hbm := fun _ => rfl
  losses := fun _ => rfl
  vat := fun _ => rfl
  web := fun _ => rfl
  jtag := fun _ => rfl
  flt := fun _ => rfl
  cal := fun _ => rfl
  boot := fun e => hF.out rfl e
  pwr := fun _ => rfl
  fuses := fun _ => rfl
  flash := fun _ => rfl
  resp := fun _ => rfl
  free := fun _ => rfl
theorem Frame.pwr' (hF : Within 1048576 F) (t : State) (x) : Frame F t { t with pwr := x } where
  pending := rfl
  regs := fun _ => rfl
  dev := fun _ => rfl
  tb := fun _ => rfl
  evm := fun _ => rfl
  force := fun _ => rfl
  seqs := fun _ => rfl
  engs := fun _ => rfl
  ress := fun _ => rfl
  guards := fun _ => rfl
  que := fun _ => rfl
  memc := fun _ => rfl
  hbm := fun _ => rfl
  losses := fun _ => rfl
  vat := fun _ => rfl
  web := fun _ => rfl
  jtag := fun _ => rfl
  flt := fun _ => rfl
  cal := fun _ => rfl
  boot := fun _ => rfl
  pwr := fun e => hF.out rfl e
  fuses := fun _ => rfl
  flash := fun _ => rfl
  resp := fun _ => rfl
  free := fun _ => rfl
theorem Frame.fuses' (hF : Within 2097152 F) (t : State) (x) : Frame F t { t with fuses := x } where
  pending := rfl
  regs := fun _ => rfl
  dev := fun _ => rfl
  tb := fun _ => rfl
  evm := fun _ => rfl
  force := fun _ => rfl
  seqs := fun _ => rfl
  engs := fun _ => rfl
  ress := fun _ => rfl
  guards := fun _ => rfl
  que := fun _ => rfl
  memc := fun _ => rfl
  hbm := fun _ => rfl
  losses := fun _ => rfl
  vat := fun _ => rfl
  web := fun _ => rfl
  jtag := fun _ => rfl
  flt := fun _ => rfl
  cal := fun _ => rfl
  boot := fun _ => rfl
  pwr := fun _ => rfl
  fuses := fun e => hF.out rfl e
  flash := fun _ => rfl
  resp := fun _ => rfl
  free := fun _ => rfl
theorem Frame.flash' (hF : Within 4194304 F) (t : State) (x) : Frame F t { t with flash := x } where
  pending := rfl
  regs := fun _ => rfl
  dev := fun _ => rfl
  tb := fun _ => rfl
  evm := fun _ => rfl
  force := fun _ => rfl
  seqs := fun _ => rfl
  engs := fun _ => rfl
  ress := fun _ => rfl
  guards := fun _ => rfl
  que := fun _ => rfl
  memc := fun _ => rfl
  hbm := fun _ => rfl
  losses := fun _ => rfl
  vat := fun _ => rfl
  web := fun _ => rfl
  jtag := fun _ => rfl
  flt := fun _ => rfl
  cal := fun _ => rfl
  boot := fun _ => rfl
  pwr := fun _ => rfl
  fuses := fun _ => rfl
  flash := fun e => hF.out rfl e
  resp := fun _ => rfl
  free := fun _ => rfl
theorem Frame.resp' (hF : Within 8388608 F) (t : State) (x) : Frame F t { t with resp := x } where
  pending := rfl
  regs := fun _ => rfl
  dev := fun _ => rfl
  tb := fun _ => rfl
  evm := fun _ => rfl
  force := fun _ => rfl
  seqs := fun _ => rfl
  engs := fun _ => rfl
  ress := fun _ => rfl
  guards := fun _ => rfl
  que := fun _ => rfl
  memc := fun _ => rfl
  hbm := fun _ => rfl
  losses := fun _ => rfl
  vat := fun _ => rfl
  web := fun _ => rfl
  jtag := fun _ => rfl
  flt := fun _ => rfl
  cal := fun _ => rfl
  boot := fun _ => rfl
  pwr := fun _ => rfl
  fuses := fun _ => rfl
  flash := fun _ => rfl
  resp := fun e => hF.out rfl e
  free := fun _ => rfl
theorem Frame.free' (hF : Within 16777216 F) (t : State) (x) : Frame F t { t with free := x } where
  pending := rfl
  regs := fun _ => rfl
  dev := fun _ => rfl
  tb := fun _ => rfl
  evm := fun _ => rfl
  force := fun _ => rfl
  seqs := fun _ => rfl
  engs := fun _ => rfl
  ress := fun _ => rfl
  guards := fun _ => rfl
  que := fun _ => rfl
  memc := fun _ => rfl
  hbm := fun _ => rfl
  losses := fun _ => rfl
  vat := fun _ => rfl
  web := fun _ => rfl
  jtag := fun _ => rfl
  flt := fun _ => rfl
  cal := fun _ => rfl
  boot := fun _ => rfl
  pwr := fun _ => rfl
  fuses := fun _ => rfl
  flash := fun _ => rfl
  resp := fun _ => rfl
  free := fun e => hF.out rfl e

theorem Keeps.regs' {x} (hF : Within 2 F) (h : Keeps F s t)
    (e : State.kept ⟨t.now, x, t.dev, t.tb, t.evm, t.force, t.seqs, t.engs, t.ress, t.guards, t.que, t.memc, t.hbm, t.losses, t.vat, t.web, t.jtag, t.flt, t.cal, t.boot, t.pwr, t.fuses, t.flash, t.resp, t.free, t.pending⟩ = t.kept) :
    Keeps F s ⟨t.now, x, t.dev, t.tb, t.evm, t.force, t.seqs, t.engs, t.ress, t.guards, t.que, t.memc, t.hbm, t.losses, t.vat, t.web, t.jtag, t.flt, t.cal, t.boot, t.pwr, t.fuses, t.flash, t.resp, t.free, t.pending⟩ := h.same (Frame.regs' hF t x) e
theorem Keeps.dev' {x} (hF : Within 4 F) (h : Keeps F s t)
    (e : State.kept ⟨t.now, t.regs, x, t.tb, t.evm, t.force, t.seqs, t.engs, t.ress, t.guards, t.que, t.memc, t.hbm, t.losses, t.vat, t.web, t.jtag, t.flt, t.cal, t.boot, t.pwr, t.fuses, t.flash, t.resp, t.free, t.pending⟩ = t.kept) :
    Keeps F s ⟨t.now, t.regs, x, t.tb, t.evm, t.force, t.seqs, t.engs, t.ress, t.guards, t.que, t.memc, t.hbm, t.losses, t.vat, t.web, t.jtag, t.flt, t.cal, t.boot, t.pwr, t.fuses, t.flash, t.resp, t.free, t.pending⟩ := h.same (Frame.dev' hF t x) e
theorem Keeps.tb' {x} (hF : Within 8 F) (h : Keeps F s t)
    (e : State.kept ⟨t.now, t.regs, t.dev, x, t.evm, t.force, t.seqs, t.engs, t.ress, t.guards, t.que, t.memc, t.hbm, t.losses, t.vat, t.web, t.jtag, t.flt, t.cal, t.boot, t.pwr, t.fuses, t.flash, t.resp, t.free, t.pending⟩ = t.kept) :
    Keeps F s ⟨t.now, t.regs, t.dev, x, t.evm, t.force, t.seqs, t.engs, t.ress, t.guards, t.que, t.memc, t.hbm, t.losses, t.vat, t.web, t.jtag, t.flt, t.cal, t.boot, t.pwr, t.fuses, t.flash, t.resp, t.free, t.pending⟩ := h.same (Frame.tb' hF t x) e
theorem Keeps.evm' {x} (hF : Within 16 F) (h : Keeps F s t)
    (e : State.kept ⟨t.now, t.regs, t.dev, t.tb, x, t.force, t.seqs, t.engs, t.ress, t.guards, t.que, t.memc, t.hbm, t.losses, t.vat, t.web, t.jtag, t.flt, t.cal, t.boot, t.pwr, t.fuses, t.flash, t.resp, t.free, t.pending⟩ = t.kept) :
    Keeps F s ⟨t.now, t.regs, t.dev, t.tb, x, t.force, t.seqs, t.engs, t.ress, t.guards, t.que, t.memc, t.hbm, t.losses, t.vat, t.web, t.jtag, t.flt, t.cal, t.boot, t.pwr, t.fuses, t.flash, t.resp, t.free, t.pending⟩ := h.same (Frame.evm' hF t x) e
theorem Keeps.force' {x} (hF : Within 32 F) (h : Keeps F s t)
    (e : State.kept ⟨t.now, t.regs, t.dev, t.tb, t.evm, x, t.seqs, t.engs, t.ress, t.guards, t.que, t.memc, t.hbm, t.losses, t.vat, t.web, t.jtag, t.flt, t.cal, t.boot, t.pwr, t.fuses, t.flash, t.resp, t.free, t.pending⟩ = t.kept) :
    Keeps F s ⟨t.now, t.regs, t.dev, t.tb, t.evm, x, t.seqs, t.engs, t.ress, t.guards, t.que, t.memc, t.hbm, t.losses, t.vat, t.web, t.jtag, t.flt, t.cal, t.boot, t.pwr, t.fuses, t.flash, t.resp, t.free, t.pending⟩ := h.same (Frame.force' hF t x) e
theorem Keeps.seqs' {x} (hF : Within 64 F) (h : Keeps F s t)
    (e : State.kept ⟨t.now, t.regs, t.dev, t.tb, t.evm, t.force, x, t.engs, t.ress, t.guards, t.que, t.memc, t.hbm, t.losses, t.vat, t.web, t.jtag, t.flt, t.cal, t.boot, t.pwr, t.fuses, t.flash, t.resp, t.free, t.pending⟩ = t.kept) :
    Keeps F s ⟨t.now, t.regs, t.dev, t.tb, t.evm, t.force, x, t.engs, t.ress, t.guards, t.que, t.memc, t.hbm, t.losses, t.vat, t.web, t.jtag, t.flt, t.cal, t.boot, t.pwr, t.fuses, t.flash, t.resp, t.free, t.pending⟩ := h.same (Frame.seqs' hF t x) e
theorem Keeps.engs' {x} (hF : Within 128 F) (h : Keeps F s t)
    (e : State.kept ⟨t.now, t.regs, t.dev, t.tb, t.evm, t.force, t.seqs, x, t.ress, t.guards, t.que, t.memc, t.hbm, t.losses, t.vat, t.web, t.jtag, t.flt, t.cal, t.boot, t.pwr, t.fuses, t.flash, t.resp, t.free, t.pending⟩ = t.kept) :
    Keeps F s ⟨t.now, t.regs, t.dev, t.tb, t.evm, t.force, t.seqs, x, t.ress, t.guards, t.que, t.memc, t.hbm, t.losses, t.vat, t.web, t.jtag, t.flt, t.cal, t.boot, t.pwr, t.fuses, t.flash, t.resp, t.free, t.pending⟩ := h.same (Frame.engs' hF t x) e
theorem Keeps.ress' {x} (hF : Within 256 F) (h : Keeps F s t)
    (e : State.kept ⟨t.now, t.regs, t.dev, t.tb, t.evm, t.force, t.seqs, t.engs, x, t.guards, t.que, t.memc, t.hbm, t.losses, t.vat, t.web, t.jtag, t.flt, t.cal, t.boot, t.pwr, t.fuses, t.flash, t.resp, t.free, t.pending⟩ = t.kept) :
    Keeps F s ⟨t.now, t.regs, t.dev, t.tb, t.evm, t.force, t.seqs, t.engs, x, t.guards, t.que, t.memc, t.hbm, t.losses, t.vat, t.web, t.jtag, t.flt, t.cal, t.boot, t.pwr, t.fuses, t.flash, t.resp, t.free, t.pending⟩ := h.same (Frame.ress' hF t x) e
theorem Keeps.guards' {x} (hF : Within 512 F) (h : Keeps F s t)
    (e : State.kept ⟨t.now, t.regs, t.dev, t.tb, t.evm, t.force, t.seqs, t.engs, t.ress, x, t.que, t.memc, t.hbm, t.losses, t.vat, t.web, t.jtag, t.flt, t.cal, t.boot, t.pwr, t.fuses, t.flash, t.resp, t.free, t.pending⟩ = t.kept) :
    Keeps F s ⟨t.now, t.regs, t.dev, t.tb, t.evm, t.force, t.seqs, t.engs, t.ress, x, t.que, t.memc, t.hbm, t.losses, t.vat, t.web, t.jtag, t.flt, t.cal, t.boot, t.pwr, t.fuses, t.flash, t.resp, t.free, t.pending⟩ := h.same (Frame.guards' hF t x) e
theorem Keeps.que' {x} (hF : Within 1024 F) (h : Keeps F s t)
    (e : State.kept ⟨t.now, t.regs, t.dev, t.tb, t.evm, t.force, t.seqs, t.engs, t.ress, t.guards, x, t.memc, t.hbm, t.losses, t.vat, t.web, t.jtag, t.flt, t.cal, t.boot, t.pwr, t.fuses, t.flash, t.resp, t.free, t.pending⟩ = t.kept) :
    Keeps F s ⟨t.now, t.regs, t.dev, t.tb, t.evm, t.force, t.seqs, t.engs, t.ress, t.guards, x, t.memc, t.hbm, t.losses, t.vat, t.web, t.jtag, t.flt, t.cal, t.boot, t.pwr, t.fuses, t.flash, t.resp, t.free, t.pending⟩ := h.same (Frame.que' hF t x) e
theorem Keeps.memc' {x} (hF : Within 2048 F) (h : Keeps F s t)
    (e : State.kept ⟨t.now, t.regs, t.dev, t.tb, t.evm, t.force, t.seqs, t.engs, t.ress, t.guards, t.que, x, t.hbm, t.losses, t.vat, t.web, t.jtag, t.flt, t.cal, t.boot, t.pwr, t.fuses, t.flash, t.resp, t.free, t.pending⟩ = t.kept) :
    Keeps F s ⟨t.now, t.regs, t.dev, t.tb, t.evm, t.force, t.seqs, t.engs, t.ress, t.guards, t.que, x, t.hbm, t.losses, t.vat, t.web, t.jtag, t.flt, t.cal, t.boot, t.pwr, t.fuses, t.flash, t.resp, t.free, t.pending⟩ := h.same (Frame.memc' hF t x) e
theorem Keeps.hbm' {x} (hF : Within 4096 F) (h : Keeps F s t)
    (e : State.kept ⟨t.now, t.regs, t.dev, t.tb, t.evm, t.force, t.seqs, t.engs, t.ress, t.guards, t.que, t.memc, x, t.losses, t.vat, t.web, t.jtag, t.flt, t.cal, t.boot, t.pwr, t.fuses, t.flash, t.resp, t.free, t.pending⟩ = t.kept) :
    Keeps F s ⟨t.now, t.regs, t.dev, t.tb, t.evm, t.force, t.seqs, t.engs, t.ress, t.guards, t.que, t.memc, x, t.losses, t.vat, t.web, t.jtag, t.flt, t.cal, t.boot, t.pwr, t.fuses, t.flash, t.resp, t.free, t.pending⟩ := h.same (Frame.hbm' hF t x) e
theorem Keeps.losses' {x} (hF : Within 8192 F) (h : Keeps F s t)
    (e : State.kept ⟨t.now, t.regs, t.dev, t.tb, t.evm, t.force, t.seqs, t.engs, t.ress, t.guards, t.que, t.memc, t.hbm, x, t.vat, t.web, t.jtag, t.flt, t.cal, t.boot, t.pwr, t.fuses, t.flash, t.resp, t.free, t.pending⟩ = t.kept) :
    Keeps F s ⟨t.now, t.regs, t.dev, t.tb, t.evm, t.force, t.seqs, t.engs, t.ress, t.guards, t.que, t.memc, t.hbm, x, t.vat, t.web, t.jtag, t.flt, t.cal, t.boot, t.pwr, t.fuses, t.flash, t.resp, t.free, t.pending⟩ := h.same (Frame.losses' hF t x) e
theorem Keeps.vat' {x} (hF : Within 16384 F) (h : Keeps F s t)
    (e : State.kept ⟨t.now, t.regs, t.dev, t.tb, t.evm, t.force, t.seqs, t.engs, t.ress, t.guards, t.que, t.memc, t.hbm, t.losses, x, t.web, t.jtag, t.flt, t.cal, t.boot, t.pwr, t.fuses, t.flash, t.resp, t.free, t.pending⟩ = t.kept) :
    Keeps F s ⟨t.now, t.regs, t.dev, t.tb, t.evm, t.force, t.seqs, t.engs, t.ress, t.guards, t.que, t.memc, t.hbm, t.losses, x, t.web, t.jtag, t.flt, t.cal, t.boot, t.pwr, t.fuses, t.flash, t.resp, t.free, t.pending⟩ := h.same (Frame.vat' hF t x) e
theorem Keeps.web' {x} (hF : Within 32768 F) (h : Keeps F s t)
    (e : State.kept ⟨t.now, t.regs, t.dev, t.tb, t.evm, t.force, t.seqs, t.engs, t.ress, t.guards, t.que, t.memc, t.hbm, t.losses, t.vat, x, t.jtag, t.flt, t.cal, t.boot, t.pwr, t.fuses, t.flash, t.resp, t.free, t.pending⟩ = t.kept) :
    Keeps F s ⟨t.now, t.regs, t.dev, t.tb, t.evm, t.force, t.seqs, t.engs, t.ress, t.guards, t.que, t.memc, t.hbm, t.losses, t.vat, x, t.jtag, t.flt, t.cal, t.boot, t.pwr, t.fuses, t.flash, t.resp, t.free, t.pending⟩ := h.same (Frame.web' hF t x) e
theorem Keeps.jtag' {x} (hF : Within 65536 F) (h : Keeps F s t)
    (e : State.kept ⟨t.now, t.regs, t.dev, t.tb, t.evm, t.force, t.seqs, t.engs, t.ress, t.guards, t.que, t.memc, t.hbm, t.losses, t.vat, t.web, x, t.flt, t.cal, t.boot, t.pwr, t.fuses, t.flash, t.resp, t.free, t.pending⟩ = t.kept) :
    Keeps F s ⟨t.now, t.regs, t.dev, t.tb, t.evm, t.force, t.seqs, t.engs, t.ress, t.guards, t.que, t.memc, t.hbm, t.losses, t.vat, t.web, x, t.flt, t.cal, t.boot, t.pwr, t.fuses, t.flash, t.resp, t.free, t.pending⟩ := h.same (Frame.jtag' hF t x) e
theorem Keeps.flt' {x} (hF : Within 131072 F) (h : Keeps F s t)
    (e : State.kept ⟨t.now, t.regs, t.dev, t.tb, t.evm, t.force, t.seqs, t.engs, t.ress, t.guards, t.que, t.memc, t.hbm, t.losses, t.vat, t.web, t.jtag, x, t.cal, t.boot, t.pwr, t.fuses, t.flash, t.resp, t.free, t.pending⟩ = t.kept) :
    Keeps F s ⟨t.now, t.regs, t.dev, t.tb, t.evm, t.force, t.seqs, t.engs, t.ress, t.guards, t.que, t.memc, t.hbm, t.losses, t.vat, t.web, t.jtag, x, t.cal, t.boot, t.pwr, t.fuses, t.flash, t.resp, t.free, t.pending⟩ := h.same (Frame.flt' hF t x) e
theorem Keeps.cal' {x} (hF : Within 262144 F) (h : Keeps F s t)
    (e : State.kept ⟨t.now, t.regs, t.dev, t.tb, t.evm, t.force, t.seqs, t.engs, t.ress, t.guards, t.que, t.memc, t.hbm, t.losses, t.vat, t.web, t.jtag, t.flt, x, t.boot, t.pwr, t.fuses, t.flash, t.resp, t.free, t.pending⟩ = t.kept) :
    Keeps F s ⟨t.now, t.regs, t.dev, t.tb, t.evm, t.force, t.seqs, t.engs, t.ress, t.guards, t.que, t.memc, t.hbm, t.losses, t.vat, t.web, t.jtag, t.flt, x, t.boot, t.pwr, t.fuses, t.flash, t.resp, t.free, t.pending⟩ := h.same (Frame.cal' hF t x) e
theorem Keeps.boot' {x} (hF : Within 524288 F) (h : Keeps F s t)
    (e : State.kept ⟨t.now, t.regs, t.dev, t.tb, t.evm, t.force, t.seqs, t.engs, t.ress, t.guards, t.que, t.memc, t.hbm, t.losses, t.vat, t.web, t.jtag, t.flt, t.cal, x, t.pwr, t.fuses, t.flash, t.resp, t.free, t.pending⟩ = t.kept) :
    Keeps F s ⟨t.now, t.regs, t.dev, t.tb, t.evm, t.force, t.seqs, t.engs, t.ress, t.guards, t.que, t.memc, t.hbm, t.losses, t.vat, t.web, t.jtag, t.flt, t.cal, x, t.pwr, t.fuses, t.flash, t.resp, t.free, t.pending⟩ := h.same (Frame.boot' hF t x) e
theorem Keeps.pwr' {x} (hF : Within 1048576 F) (h : Keeps F s t)
    (e : State.kept ⟨t.now, t.regs, t.dev, t.tb, t.evm, t.force, t.seqs, t.engs, t.ress, t.guards, t.que, t.memc, t.hbm, t.losses, t.vat, t.web, t.jtag, t.flt, t.cal, t.boot, x, t.fuses, t.flash, t.resp, t.free, t.pending⟩ = t.kept) :
    Keeps F s ⟨t.now, t.regs, t.dev, t.tb, t.evm, t.force, t.seqs, t.engs, t.ress, t.guards, t.que, t.memc, t.hbm, t.losses, t.vat, t.web, t.jtag, t.flt, t.cal, t.boot, x, t.fuses, t.flash, t.resp, t.free, t.pending⟩ := h.same (Frame.pwr' hF t x) e
theorem Keeps.fuses' {x} (hF : Within 2097152 F) (h : Keeps F s t)
    (e : State.kept ⟨t.now, t.regs, t.dev, t.tb, t.evm, t.force, t.seqs, t.engs, t.ress, t.guards, t.que, t.memc, t.hbm, t.losses, t.vat, t.web, t.jtag, t.flt, t.cal, t.boot, t.pwr, x, t.flash, t.resp, t.free, t.pending⟩ = t.kept) :
    Keeps F s ⟨t.now, t.regs, t.dev, t.tb, t.evm, t.force, t.seqs, t.engs, t.ress, t.guards, t.que, t.memc, t.hbm, t.losses, t.vat, t.web, t.jtag, t.flt, t.cal, t.boot, t.pwr, x, t.flash, t.resp, t.free, t.pending⟩ := h.same (Frame.fuses' hF t x) e
theorem Keeps.flash' {x} (hF : Within 4194304 F) (h : Keeps F s t)
    (e : State.kept ⟨t.now, t.regs, t.dev, t.tb, t.evm, t.force, t.seqs, t.engs, t.ress, t.guards, t.que, t.memc, t.hbm, t.losses, t.vat, t.web, t.jtag, t.flt, t.cal, t.boot, t.pwr, t.fuses, x, t.resp, t.free, t.pending⟩ = t.kept) :
    Keeps F s ⟨t.now, t.regs, t.dev, t.tb, t.evm, t.force, t.seqs, t.engs, t.ress, t.guards, t.que, t.memc, t.hbm, t.losses, t.vat, t.web, t.jtag, t.flt, t.cal, t.boot, t.pwr, t.fuses, x, t.resp, t.free, t.pending⟩ := h.same (Frame.flash' hF t x) e
theorem Keeps.resp' {x} (hF : Within 8388608 F) (h : Keeps F s t)
    (e : State.kept ⟨t.now, t.regs, t.dev, t.tb, t.evm, t.force, t.seqs, t.engs, t.ress, t.guards, t.que, t.memc, t.hbm, t.losses, t.vat, t.web, t.jtag, t.flt, t.cal, t.boot, t.pwr, t.fuses, t.flash, x, t.free, t.pending⟩ = t.kept) :
    Keeps F s ⟨t.now, t.regs, t.dev, t.tb, t.evm, t.force, t.seqs, t.engs, t.ress, t.guards, t.que, t.memc, t.hbm, t.losses, t.vat, t.web, t.jtag, t.flt, t.cal, t.boot, t.pwr, t.fuses, t.flash, x, t.free, t.pending⟩ := h.same (Frame.resp' hF t x) e
theorem Keeps.free' {x} (hF : Within 16777216 F) (h : Keeps F s t)
    (e : State.kept ⟨t.now, t.regs, t.dev, t.tb, t.evm, t.force, t.seqs, t.engs, t.ress, t.guards, t.que, t.memc, t.hbm, t.losses, t.vat, t.web, t.jtag, t.flt, t.cal, t.boot, t.pwr, t.fuses, t.flash, t.resp, x, t.pending⟩ = t.kept) :
    Keeps F s ⟨t.now, t.regs, t.dev, t.tb, t.evm, t.force, t.seqs, t.engs, t.ress, t.guards, t.que, t.memc, t.hbm, t.losses, t.vat, t.web, t.jtag, t.flt, t.cal, t.boot, t.pwr, t.fuses, t.flash, t.resp, x, t.pending⟩ := h.same (Frame.free' hF t x) e

/-- Flash erased, or one of its bytes written. -/
theorem Keeps.flashFilter (hF : Within 4194304 F) (h : Keeps F s t) (p : Nat × Byte → Bool) : Keeps F s { t with flash := t.flash.filter p } :=
  h.step (Frame.flash' hF t _) rfl rfl fun c => { c with flash := Table.wf_filter p c.flash fun _ _ _ => rfl }
theorem Keeps.flashPut (hF : Within 4194304 F) (h : Keeps F s t) (k : Nat) (b : Byte) :
    Keeps F s { t with flash := Table.put flashDefault k b t.flash } :=
  h.step (Frame.flash' hF t _) rfl rfl fun c => { c with flash := Table.wf_put (d := fun _ => flashDefault) c.flash }

/-- Registers that return to their reset values. -/
theorem Keeps.regsFilter (hF : Within 2 F) (h : Keeps F s t) (p : Nat × Word → Bool) : Keeps F s { t with regs := t.regs.filter p } :=
  h.step (Frame.regs' hF t _) rfl rfl fun c => { c with regs := Table.rising_filter p c.regs }

/-- The fuses that another way from the same state has burnt. -/
theorem Keeps.fusesOf (hF : Within 2097152 F) (h : Keeps F s t) (g : Keeps m t u) : Keeps F s { t with fuses := u.fuses } := by
  refine h.trans ⟨Frame.fuses' hF t _, rfl, g.fuse, fun c => ?_⟩
  have d := (State.canonical_iff u).1 (g.fine c)
  rw [State.canonical_iff] at c ⊢
  exact { c with fuses := d.fuses }

/-- Sources asserted, or waiting to re-enter. -/
theorem Keeps.asserted (hF : Within 16 F) (h : Keeps F s t) (l : List Assertion) : Keeps F s { t with evm := { t.evm with asserted := l } } :=
  h.same (Frame.evm' hF t _) rfl
theorem Keeps.reentry (hF : Within 16 F) (h : Keeps F s t) (l : List Assertion) : Keeps F s { t with evm := { t.evm with reentry := l } } :=
  h.same (Frame.evm' hF t _) rfl

/-- A state that a proof names once. -/
theorem Keeps.cut (x : State) (h : Keeps F s x) (g : Keeps F s x → Keeps F s t) : Keeps F s t := g h

/-- A choice between two states. -/
theorem Keeps.ite {c : Prop} {_ : Decidable c} (h : Keeps F s t) (g : Keeps F s u) : Keeps F s (if c then t else u) := by split <;> assumption

theorem Keeps.iteFst {α : Type} {c : Prop} {_ : Decidable c} {p q : State × α} (h : Keeps F s p.1) (g : Keeps F s q.1) :
    Keeps F s (if c then p else q).1 := by split <;> assumption
theorem Keeps.iteSnd {α : Type} {c : Prop} {_ : Decidable c} {p q : α × State} (h : Keeps F s p.2) (g : Keeps F s q.2) :
    Keeps F s (if c then p else q).2 := by split <;> assumption

theorem Keeps.elim {α : Type} {f : α → State} (o : Option α) (h : Keeps F s t) (g : ∀ x, Keeps F s (f x)) : Keeps F s (o.elim t f) := by
  cases o
  · exact h
  · exact g _

/-- The state of a pair. -/
theorem Keeps.ofFst {α : Type} {p : State × α} {w : α} (e : p = (t, w)) (h : Keeps F s p.1) : Keeps F s t := by rw [e] at h; exact h
theorem Keeps.ofSnd {α : Type} {p : α × State} {w : α} (e : p = (w, t)) (h : Keeps F s p.2) : Keeps F s t := by rw [e] at h; exact h
theorem Keeps.ofSome {o : Option State} (e : o = some t) (h : ∀ v, o = some v → Keeps F s v) : Keeps F s t := h t e

/-- Operations repeated for the elements of a list. -/
theorem Keeps.foldl {α : Type} {g : State → α → State} (hg : ∀ a v, Keeps F s v → Keeps F s (g v a)) :
    ∀ (l : List α) (v : State), Keeps F s v → Keeps F s (l.foldl g v)
  | [], _, h => h
  | a :: l, v, h => Keeps.foldl hg l (g v a) (hg a v h)

theorem Keeps.foldlFst {α β : Type} {g : State × β → α → State × β} (hg : ∀ a p, Keeps F s p.1 → Keeps F s (g p a).1) :
    ∀ (l : List α) (p : State × β), Keeps F s p.1 → Keeps F s (l.foldl g p).1
  | [], _, h => h
  | a :: l, p, h => Keeps.foldlFst hg l (g p a) (hg a p h)

end Sys2Proof.Machine
end

