-- ==== Sys2Proof/Laws/Flags.lean ====
section
/-!
SUPPORT. The operations of Machine/Flags.lean: the parts of the state that each may change, and what it keeps.
-/

namespace Sys2Proof.Machine

open Sys2Proof

set_option linter.all false

theorem State.keeps_wr {F : Nat} {s t : State} (hF : Within 2 F) (h : Keeps F s t) (r : Reg) (w : Word) (i j : Nat) : Keeps F s (t.wr r w i j) :=
  h.step (Frame.regs' hF t _) rfl rfl fun c => { c with regs := Table.rising_put c.regs }

theorem State.keeps_setFld {F : Nat} {s t : State} (hF : Within 2 F) (h : Keeps F s t) (f : Fld) (v : Nat) (i : Nat) (j : Nat) : Keeps F s (t.setFld f v i j) := by
  unfold State.setFld
  repeat' first
    | with_reducible assumption
    | with_reducible first | apply State.keeps_wr
    | with_reducible exact hF.sub rfl
    | intro

theorem State.keeps_stick {F : Nat} {s t : State} (hF : Within 2 F) (h : Keeps F s t) (f : Fld) (i : Nat) : Keeps F s (t.stick f i) := by
  unfold State.stick
  repeat' first
    | with_reducible assumption
    | with_reducible first | apply State.keeps_setFld
    | with_reducible exact hF.sub rfl
    | intro

theorem State.keeps_stickIf {F : Nat} {s t : State} (hF : Within 2 F) (h : Keeps F s t) (b : Bool) (f : Fld) (i : Nat) : Keeps F s (t.stickIf b f i) := by
  unfold State.stickIf
  repeat' first
    | with_reducible assumption
    | with_reducible refine Keeps.ite ?_ ?_
    | with_reducible first | apply State.keeps_stick
    | with_reducible exact hF.sub rfl
    | split
    | intro

theorem State.keeps_tally {F : Nat} {s t : State} (hF : Within 2 F) (h : Keeps F s t) (f : Fld) (n : Nat) (i : Nat) : Keeps F s (t.tally f n i) := by
  unfold State.tally
  repeat' first
    | with_reducible assumption
    | with_reducible first | apply State.keeps_setFld
    | with_reducible exact hF.sub rfl
    | intro

end Sys2Proof.Machine
end

