-- ==== Sys2Proof/Laws/Ops.lean ====
section
/-!
SUPPORT. The operations of Machine/Ops.lean: the parts of the state that each may change, and what it keeps.
-/

namespace Sys2Proof.Machine

open Sys2Proof

set_option linter.all false

theorem State.keeps_setForce {F : Nat} {s t : State} (hF : Within 32 F) (h : Keeps F s t) (n : Nat) (x : Force) :
    Keeps F s (t.setForce n x) := h.step (Frame.force' hF t _) rfl rfl fun c => { c with force := Table.rising_put c.force }

theorem State.keeps_setSeq {F : Nat} {s t : State} (hF : Within 64 F) (h : Keeps F s t) (n : Nat) (x : Seqr) :
    Keeps F s (t.setSeq n x) := h.step (Frame.seqs' hF t _) rfl rfl fun c => { c with seqs := Table.rising_put c.seqs }

theorem State.keeps_setEng {F : Nat} {s t : State} (hF : Within 128 F) (h : Keeps F s t) (n : Nat) (x : Eng) :
    Keeps F s (t.setEng n x) := h.step (Frame.engs' hF t _) rfl rfl fun c => { c with engs := Table.rising_put c.engs }

theorem State.keeps_setRes {F : Nat} {s t : State} (hF : Within 256 F) (h : Keeps F s t) (n : Nat) (x : Res) :
    Keeps F s (t.setRes n x) := h.step (Frame.ress' hF t _) rfl rfl fun c => { c with ress := Table.rising_put c.ress }

theorem State.keeps_setFelt {F : Nat} {s t : State} (hF : Within 1024 F) (h : Keeps F s t) (f : Nat) (x : Felt) :
    Keeps F s (t.setFelt f x) := h.step (Frame.que' hF t _) rfl rfl fun c => { c with felts := Table.rising_put c.felts }

theorem State.keeps_setCredit {F : Nat} {s t : State} (hF : Within 1024 F) (h : Keeps F s t) (p f : Nat) (x : Credit) :
    Keeps F s (t.setCredit p f x) := h.step (Frame.que' hF t _) rfl rfl fun c => { c with credits := Table.rising_put c.credits }

theorem State.keeps_setSlice {F : Nat} {s t : State} (hF : Within 262144 F) (h : Keeps F s t) (i : Nat) (x : Slice) :
    Keeps F s (t.setSlice i x) := h.step (Frame.cal' hF t _) rfl rfl fun c => { c with slices := Table.rising_put c.slices }

theorem State.keeps_setCouch {F : Nat} {s t : State} (hF : Within 262144 F) (h : Keeps F s t) (i : Nat) (x : Couch) :
    Keeps F s (t.setCouch i x) := h.step (Frame.cal' hF t _) rfl rfl fun c => { c with couch := Table.rising_put c.couch }

theorem State.keeps_setGen {F : Nat} {s t : State} (hF : Within 8 F) (h : Keeps F s t) (k : Nat) (x : Gen) :
    Keeps F s (t.setGen k x) := h.step (Frame.tb' hF t _) rfl rfl fun c => { c with gens := Table.rising_put c.gens }

theorem State.keeps_setBeatPort {F : Nat} {s t : State} (hF : Within 8 F) (h : Keeps F s t) (p : Nat) (x : BeatPort) :
    Keeps F s (t.setBeatPort p x) := h.step (Frame.tb' hF t _) rfl rfl fun c => { c with beats := Table.rising_put c.beats }

theorem State.keeps_setPort {F : Nat} {s t : State} (hF : Within 32768 F) (h : Keeps F s t) (p : Nat) (x : Port) :
    Keeps F s (t.setPort p x) := h.step (Frame.web' hF t _) rfl rfl fun c => { c with ports := Table.rising_put c.ports }

theorem State.keeps_setBank {F : Nat} {s t : State} (hF : Within 2048 F) (h : Keeps F s t) (k : Nat) (x : Bank) :
    Keeps F s (t.setBank k x) := h.step (Frame.memc' hF t _) rfl rfl fun c => { c with banks := Table.rising_put c.banks }

theorem State.keeps_setInj {F : Nat} {s t : State} (hF : Within 131072 F) (h : Keeps F s t) (j : Nat) (x : Inj) :
    Keeps F s (t.setInj j x) := h.step (Frame.flt' hF t _) rfl rfl fun c => { c with inj := Table.rising_put c.inj }

theorem State.keeps_setRcDyn {F : Nat} {s t : State} (hF : Within 16 F) (h : Keeps F s t) (n : Nat) (x : RcDyn) :
    Keeps F s (t.setRcDyn n x) := h.step (Frame.evm' hF t _) rfl rfl fun c => { c with rcs := Table.rising_put c.rcs }

theorem State.keeps_setPend {F : Nat} {s t : State} (hF : Within 16 F) (h : Keeps F s t) (i : Nat) (x : Nat) :
    Keeps F s (t.setPend i x) := h.step (Frame.evm' hF t _) rfl rfl fun c => { c with pend := Table.rising_put c.pend }

theorem State.keeps_setEvio {F : Nat} {s t : State} (hF : Within 16 F) (h : Keeps F s t) (j : Nat) (x : Evio) :
    Keeps F s (t.setEvio j x) := h.step (Frame.evm' hF t _) rfl rfl fun c => { c with evio := Table.rising_put c.evio }

theorem State.keeps_setCore {F : Nat} {s t : State} (hF : Within 524288 F) (h : Keeps F s t) (k : Nat) (x : Core4) :
    Keeps F s (t.setCore k x) := h.step (Frame.boot' hF t _) rfl rfl fun c => { c with cores := Table.rising_put c.cores }

theorem State.keeps_each {F : Nat} {s t : State} {α : Type} (h : Keeps F s t) (l : List α) (g : α → State → State) (hg : ∀ a v, Keeps F s v → Keeps F s (g a v)) :
    Keeps F s (t.each l g) := Keeps.foldl (g := fun s x => g x s) hg l t h

theorem State.keeps_iff {F : Nat} {s t : State} (hF : Within 0 F) (h : Keeps F s t) (b : Bool) (g : State → State) (hg : Keeps F s (g t)) : Keeps F s (t.iff b g) := by
  unfold State.iff; split <;> assumption

theorem State.keeps_freeWord {F : Nat} {s t : State} (hF : Within 16777216 F) (h : Keeps F s t) : Keeps F s (t.freeWord).2 := by
  unfold State.freeWord
  repeat' first
    | with_reducible assumption
    | fail_if_no_progress (with_reducible refine Keeps.free' (hF.sub rfl) ?_ (by with_reducible rfl))
    | intro

theorem State.keeps_freeDWord {F : Nat} {s t : State} (hF : Within 16777216 F) (h : Keeps F s t) : Keeps F s (t.freeDWord).2 := by
  unfold State.freeDWord
  repeat' first
    | with_reducible assumption
    | fail_if_no_progress (with_reducible refine Keeps.free' (hF.sub rfl) ?_ (by with_reducible rfl))
    | intro

theorem State.keeps_freeInt {F : Nat} {s t : State} (hF : Within 16777216 F) (h : Keeps F s t) : Keeps F s (t.freeInt).2 := by
  unfold State.freeInt
  repeat' first
    | with_reducible assumption
    | fail_if_no_progress (with_reducible refine Keeps.free' (hF.sub rfl) ?_ (by with_reducible rfl))
    | intro

theorem State.keeps_setHbm {F : Nat} {s t : State} (hF : Within 6144 F) (h : Keeps F s t) (a : Nat) (b : Byte) : Keeps F s (t.setHbm a b) :=
  h.step ((Frame.hbm' (hF.sub rfl) t (Table.put (t.hbmDefault a) a b t.hbm)).trans
    (Frame.memc' (hF.sub rfl) { t with hbm := Table.put (t.hbmDefault a) a b t.hbm } _)) rfl rfl fun c => { c with hbm := Table.wf_put c.hbm }

theorem State.keeps_writeHbm {F : Nat} {s : State} (hF : Within 6144 F) : ∀ (l : List Byte) {t : State} (_ : Keeps F s t) (a : Nat), Keeps F s (t.writeHbm a l)
  | [], _, h, _ => h
  | b :: l, _, h, a => State.keeps_writeHbm (hF.sub rfl) l (State.keeps_setHbm (hF.sub rfl) h a b) (a + 1)

/-- What a fuse word holds after a burn (R315). -/
theorem State.fuseWord_burnFuse (t : State) (i j : Nat) (w : Word) (c : t.canonical) :
    (t.burnFuse i w).fuseWord j = if j = i then t.fuseWord i ||| w else t.fuseWord j := by
  have f := (State.canonical_iff t).1 c
  unfold State.burnFuse State.fuseWord
  by_cases e : j = i
  · subst e
    simp [Table.get_put_same (Table.wf_rising f.fuses), BitVec.or_assoc]
  · simp [e, Table.get_put_other e (Table.wf_rising f.fuses)]

theorem State.keeps_burnFuse {F : Nat} {s t : State} (hF : Within 2097152 F) (h : Keeps F s t) (i : Nat) (w : Word) : Keeps F s (t.burnFuse i w) := by
  refine h.trans ⟨Frame.fuses' hF t _, rfl, fun c j => ?_, fun c => ?_⟩
  · rw [State.fuseWord_burnFuse t i j w c]
    split
    · next e => subst e; rw [← BitVec.or_assoc, BitVec.or_self]
    · exact BitVec.or_self
  · rw [State.canonical_iff] at c ⊢
    exact { c with fuses := Table.wf_put (d := fun _ => 0) c.fuses }

theorem State.keeps_setFlash {F : Nat} {s t : State} (hF : Within 4194304 F) (h : Keeps F s t) (k a : Nat) (b : Byte) : Keeps F s (t.setFlash k a b) :=
  h.step (Frame.flash' hF t _) rfl rfl fun c => { c with flash := Table.wf_put (d := fun _ => flashDefault) c.flash }

theorem State.keeps_writeFlash {F : Nat} {s : State} (hF : Within 4194304 F) : ∀ (l : List Byte) {t : State} (_ : Keeps F s t) (k a : Nat), Keeps F s (t.writeFlash k a l)
  | [], _, h, _, _ => h
  | b :: l, _, h, k, a => State.keeps_writeFlash (hF.sub rfl) l (State.keeps_setFlash (hF.sub rfl) h k a b) k (a + 1)

theorem State.writeFlash_cal : ∀ (l : List Byte) (t : State) (k a : Nat), (t.writeFlash k a l).cal = t.cal
  | [], _, _, _ => rfl
  | b :: l, t, k, a => State.writeFlash_cal l (t.setFlash k a b) k (a + 1)

theorem State.writeFlash_boot : ∀ (l : List Byte) (t : State) (k a : Nat), (t.writeFlash k a l).boot = t.boot
  | [], _, _, _ => rfl
  | b :: l, t, k, a => State.writeFlash_boot l (t.setFlash k a b) k (a + 1)

theorem State.keeps_answer {F : Nat} {s t : State} (hF : Within 8388608 F) (h : Keeps F s t) (m : Nat) (v : Word) : Keeps F s (t.answer m v) := by
  unfold State.answer
  repeat' first
    | with_reducible assumption
    | fail_if_no_progress (with_reducible refine Keeps.resp' (hF.sub rfl) ?_ (by with_reducible rfl))
    | intro

theorem State.keeps_answerError {F : Nat} {s t : State} (hF : Within 8388608 F) (h : Keeps F s t) (m : Nat) : Keeps F s (t.answerError m) := by
  unfold State.answerError
  repeat' first
    | with_reducible assumption
    | fail_if_no_progress (with_reducible refine Keeps.resp' (hF.sub rfl) ?_ (by with_reducible rfl))
    | intro

theorem State.keeps_assertSrc {F : Nat} {s t : State} (hF : Within 16 F) (h : Keeps F s t) (src : Nat) : Keeps F s (t.assertSrc src) := by
  unfold State.assertSrc
  repeat' first
    | with_reducible assumption
    | fail_if_no_progress (with_reducible refine Keeps.evm' (hF.sub rfl) ?_ (by with_reducible rfl))
    | intro

theorem State.keeps_deferFresh {F : Nat} {s t : State} (hF : Within 16 F) (h : Keeps F s t) (old : Nat) : Keeps F s (t.deferFresh old) := by
  unfold State.deferFresh
  repeat' first
    | with_reducible assumption
    | fail_if_no_progress (with_reducible refine Keeps.evm' (hF.sub rfl) ?_ (by with_reducible rfl))
    | intro

theorem State.keeps_setMemc {F : Nat} {s t : State} (hF : Within 2048 F) (h : Keeps F s t) (x : Memc)
    (e0 : Table.rising t.memc.banks = true → Table.rising x.banks = true) :
    Keeps F s (t.setMemc x) := h.step (Frame.memc' hF t x) rfl rfl fun c => { c with banks := e0 c.banks }

theorem State.keeps_memArrive {F : Nat} {s t : State} (hF : Within 2050 F) (h : Keeps F s t) : Keeps F s (t.memArrive) := by
  unfold State.memArrive
  repeat' first
    | with_reducible assumption
    | with_reducible refine Keeps.ite ?_ ?_
    | with_reducible first | apply State.keeps_stick | apply State.keeps_tally | apply State.keeps_setMemc
    | with_reducible exact hF.sub rfl
    | with_reducible exact id
    | split
    | refine Keeps.ofFst (by assumption) ?_
    | refine Keeps.ofSnd (by assumption) ?_
    | ((fail_if_no_progress extract_lets +onlyGivenNames x); first
      | (have g : State := x; clear g; refine Keeps.cut x ?_ ?_; (on_goal 2 => (intro _; try clear_value x)); (on_goal 1 => subst x))
      | (have g : _ → State := x; clear g; subst x) | (have g : _ → _ → State := x; clear g; subst x) | (have g : Option _ := x; clear g; subst x) | skip)
    | intro

theorem State.keeps_memAccept {F : Nat} {s t : State} (hF : Within 2050 F) (h : Keeps F s t) (p : Nat) (write : Bool) (a : Nat) (data : List Byte) (len : Nat) : Keeps F s (t.memAccept p write a data len) := by
  unfold State.memAccept
  repeat' first
    | with_reducible assumption
    | with_reducible refine Keeps.ite ?_ ?_
    | with_reducible first | apply State.keeps_setMemc | apply State.keeps_memArrive
    | with_reducible exact hF.sub rfl
    | with_reducible exact id
    | split
    | refine Keeps.ofFst (by assumption) ?_
    | refine Keeps.ofSnd (by assumption) ?_
    | ((fail_if_no_progress extract_lets +onlyGivenNames x); first
      | (have g : State := x; clear g; refine Keeps.cut x ?_ ?_; (on_goal 2 => (intro _; try clear_value x)); (on_goal 1 => subst x))
      | (have g : _ → State := x; clear g; subst x) | (have g : _ → _ → State := x; clear g; subst x) | (have g : Option _ := x; clear g; subst x) | skip)
    | intro

end Sys2Proof.Machine
end

