-- ==== Sys2Proof/Laws/Felts.lean ====
section
/-!
SUPPORT. The operations of Machine/Felts.lean: the parts of the state that each may change, and what it keeps.
-/

namespace Sys2Proof.Machine

open Sys2Proof

set_option linter.all false

theorem State.keeps_giveBack {F : Nat} {s t : State} (hF : Within 1024 F) (h : Keeps F s t) (f : Nat) (spill : Bool) (n : Nat) : Keeps F s (t.giveBack f spill n) := by
  unfold State.giveBack
  repeat' first
    | with_reducible assumption
    | ((fail_if_no_progress extract_lets +onlyGivenNames x); first
      | (have g : State := x; clear g; refine Keeps.cut x ?_ ?_; (on_goal 2 => (intro _; try clear_value x)); (on_goal 1 => subst x))
      | (have g : _ → State := x; clear g; subst x) | (have g : _ → _ → State := x; clear g; subst x) | (have g : Option _ := x; clear g; subst x) | skip)
    | with_reducible refine Keeps.ite ?_ ?_
    | fail_if_no_progress (with_reducible refine Keeps.que' (hF.sub rfl) ?_ (by with_reducible rfl))
    | split
    | refine Keeps.ofFst (by assumption) ?_
    | refine Keeps.ofSnd (by assumption) ?_
    | intro

theorem State.keeps_returnUnwritten {F : Nat} {s t : State} (hF : Within 1024 F) (h : Keeps F s t) (p : Nat) : Keeps F s (t.returnUnwritten p) := by
  unfold State.returnUnwritten
  repeat' first
    | with_reducible assumption
    | with_reducible refine Keeps.ite ?_ ?_
    | with_reducible first | apply State.keeps_giveBack | apply State.keeps_setCredit | apply State.keeps_each
    | with_reducible exact hF.sub rfl
    | split
    | refine Keeps.ofFst (by assumption) ?_
    | refine Keeps.ofSnd (by assumption) ?_
    | ((fail_if_no_progress extract_lets +onlyGivenNames x); first
      | (have g : State := x; clear g; refine Keeps.cut x ?_ ?_; (on_goal 2 => (intro _; try clear_value x)); (on_goal 1 => subst x))
      | (have g : _ → State := x; clear g; subst x) | (have g : _ → _ → State := x; clear g; subst x) | (have g : Option _ := x; clear g; subst x) | skip)
    | intro

theorem State.keeps_noteWm {F : Nat} {s t : State} (hF : Within 1024 F) (h : Keeps F s t) (f : Nat) : Keeps F s (t.noteWm f) := by
  unfold State.noteWm
  repeat' first
    | with_reducible assumption
    | fail_if_no_progress (with_reducible refine Keeps.que' (hF.sub rfl) ?_ (by with_reducible rfl))
    | intro

theorem State.keeps_crossing {F : Nat} {s t : State} (hF : Within 1026 F) (h : Keeps F s t) (f : Nat) (was : Bool) (now : Bool) (before : Bool) (crossed : Fld) (returned : Fld) : Keeps F s (t.crossing f was now before crossed returned) := by
  unfold State.crossing
  repeat' first
    | with_reducible assumption
    | with_reducible refine Keeps.ite ?_ ?_
    | with_reducible first | apply State.keeps_noteWm | apply State.keeps_stick | apply State.keeps_stickIf
    | with_reducible exact hF.sub rfl
    | split
    | intro

theorem State.keeps_keepCrossed {F : Nat} {s t : State} (hF : Within 1024 F) (h : Keeps F s t) (f : Nat) : Keeps F s (t.keepCrossed f) := by
  unfold State.keepCrossed
  repeat' first
    | with_reducible assumption
    | with_reducible refine Keeps.ite ?_ ?_
    | fail_if_no_progress (with_reducible refine Keeps.que' (hF.sub rfl) ?_ (by with_reducible rfl))
    | split
    | intro

theorem State.keeps_levelWritten {F : Nat} {s t : State} (hF : Within 1024 F) (h : Keeps F s t) (f : Nat) : Keeps F s (t.levelWritten f) := by
  unfold State.levelWritten
  repeat' first
    | with_reducible assumption
    | with_reducible refine Keeps.ite ?_ ?_
    | fail_if_no_progress (with_reducible refine Keeps.que' (hF.sub rfl) ?_ (by with_reducible rfl))
    | split
    | intro

theorem State.keeps_judgeWm {F : Nat} {s t : State} (hF : Within 1026 F) (h : Keeps F s t) (f : Nat) : Keeps F s (t.judgeWm f) := by
  unfold State.judgeWm
  repeat' first
    | with_reducible assumption
    | with_reducible refine Keeps.ite ?_ ?_
    | with_reducible first | apply State.keeps_crossing | apply State.keeps_setFelt
    | with_reducible exact hF.sub rfl
    | split
    | refine Keeps.ofFst (by assumption) ?_
    | refine Keeps.ofSnd (by assumption) ?_
    | ((fail_if_no_progress extract_lets +onlyGivenNames x); first
      | (have g : State := x; clear g; refine Keeps.cut x ?_ ?_; (on_goal 2 => (intro _; try clear_value x)); (on_goal 1 => subst x))
      | (have g : _ → State := x; clear g; subst x) | (have g : _ → _ → State := x; clear g; subst x) | (have g : Option _ := x; clear g; subst x) | skip)
    | intro

theorem State.keeps_judgeWms {F : Nat} {s t : State} (hF : Within 1026 F) (h : Keeps F s t) : Keeps F s (t.judgeWms) := by
  unfold State.judgeWms
  repeat' first
    | with_reducible assumption
    | with_reducible first | apply State.keeps_judgeWm | apply State.keeps_each
    | fail_if_no_progress (with_reducible refine Keeps.que' (hF.sub rfl) ?_ (by with_reducible rfl))
    | with_reducible exact hF.sub rfl
    | refine Keeps.ofFst (by assumption) ?_
    | refine Keeps.ofSnd (by assumption) ?_
    | ((fail_if_no_progress extract_lets +onlyGivenNames x); first
      | (have g : State := x; clear g; refine Keeps.cut x ?_ ?_; (on_goal 2 => (intro _; try clear_value x)); (on_goal 1 => subst x))
      | (have g : _ → State := x; clear g; subst x) | (have g : _ → _ → State := x; clear g; subst x) | (have g : Option _ := x; clear g; subst x) | skip)
    | intro

theorem State.keeps_enqueue {F : Nat} {s t : State} (hF : Within 19458 F) (h : Keeps F s t) (f prio : Nat) (it : Item) (spill : Bool) :
    Keeps F s (t.enqueue f prio it spill) := by
  have g : ∀ v y, Keeps F s v → Keeps F s { v.setFelt f y with vat := if spill then v.vat else [] } := fun v y k =>
    (State.keeps_setFelt (hF.sub rfl) k f y).step (Frame.vat' (hF.sub rfl) _ _) rfl rfl fun c =>
      { c with vat := by cases spill; exacts [rfl, c.vat] }
  unfold State.enqueue
  exact g _ _ (Keeps.ite (State.keeps_memAccept (hF.sub rfl) h ..) h)

theorem State.keeps_push {F : Nat} {s t u : State} (hF : Within 19458 F) (h : Keeps F s t) (p f prio : Nat) (it : Item)
    (e : t.push p f prio it = .done u ∨ t.push p f prio it = .overfull u) : Keeps F s u := by
  unfold State.push at e
  have g : Keeps F s { t with que := { t.que with overFelt := none } } := h.same (Frame.que' (hF.sub rfl) t _) rfl
  dsimp only at e
  split at e
  · split at e
    · rcases e with e | e
      · cases e
      · rw [← Pushed.overfull.inj e]
        exact State.keeps_tally (hF.sub rfl) g _ _ _
    · rcases e with e | e <;> cases e
      exact State.keeps_enqueue (hF.sub rfl) g ..
  · split at e
    · rcases e with e | e <;> cases e
      exact State.keeps_enqueue (hF.sub rfl) (State.keeps_setCredit (hF.sub rfl) h ..) ..
    · split at e
      · rcases e with e | e <;> cases e
        exact State.keeps_enqueue (hF.sub rfl) (State.keeps_setCredit (hF.sub rfl) h ..) ..
      · rcases e with e | e <;> cases e

theorem State.keeps_take {F : Nat} {s t u : State} (hF : Within 1024 F) (h : Keeps F s t) (f : Nat) (it : Item) (e : t.take f = some (it, u)) : Keeps F s u := by
  unfold State.take at e
  dsimp only at e
  repeat' split at e
  all_goals cases e
  all_goals first | exact State.keeps_giveBack (hF.sub rfl) (State.keeps_setFelt (hF.sub rfl) h ..) .. | exact State.keeps_setFelt (hF.sub rfl) h ..

theorem State.keeps_setBacklog {F : Nat} {s t : State} (hF : Within 1024 F) (h : Keeps F s t) (a : Nat) (l : List Item) : Keeps F s (t.setBacklog a l) := by
  unfold State.setBacklog
  repeat' first
    | with_reducible assumption
    | fail_if_no_progress (with_reducible refine Keeps.que' (hF.sub rfl) ?_ (by with_reducible rfl))
    | intro

theorem State.keeps_agentWrite {F : Nat} {s t : State} (hF : Within 19458 F) (h : Keeps F s t) (a : Nat) (kind : Nat) (value : DWord) (raw : Word) (rt : RTime) (abs : Nat) (flags : Nat) : Keeps F s (t.agentWrite a kind value raw rt abs flags).1 := by
  unfold State.agentWrite
  repeat' first
    | with_reducible assumption
    | ((fail_if_no_progress extract_lets +onlyGivenNames x); first
      | (have g : State := x; clear g; refine Keeps.cut x ?_ ?_; (on_goal 2 => (intro _; try clear_value x)); (on_goal 1 => subst x))
      | (have g : _ → State := x; clear g; subst x) | (have g : _ → _ → State := x; clear g; subst x) | (have g : Option _ := x; clear g; subst x) | skip)
    | with_reducible refine Keeps.ite ?_ ?_
    | with_reducible refine Keeps.iteFst ?_ ?_
    | with_reducible first | apply State.keeps_setBacklog | apply State.keeps_tally
    | refine State.keeps_push (hF.sub rfl) ?_ (e := by first | (left; assumption) | (right; assumption)) ..
    | with_reducible exact hF.sub rfl
    | split
    | refine Keeps.ofFst (by assumption) ?_
    | refine Keeps.ofSnd (by assumption) ?_
    | intro

end Sys2Proof.Machine
end

