-- ==== Sys2Proof/Laws/FaultOps.lean ====
section
/-!
SUPPORT. The operations of Machine/FaultOps.lean: the parts of the state that each may change, and what it keeps.
-/

namespace Sys2Proof.Machine

open Sys2Proof

set_option linter.all false

theorem State.keeps_recovered {F : Nat} {s t : State} (hF : Within 131074 F) (h : Keeps F s t) (n : Nat) : Keeps F s (t.recovered n) := by
  unfold State.recovered
  repeat' first
    | with_reducible assumption
    | with_reducible refine Keeps.ite ?_ ?_
    | with_reducible first | apply State.keeps_tally
    | fail_if_no_progress (with_reducible refine Keeps.flt' (hF.sub rfl) ?_ (by with_reducible rfl))
    | with_reducible exact hF.sub rfl
    | split
    | refine Keeps.ofFst (by assumption) ?_
    | refine Keeps.ofSnd (by assumption) ?_
    | ((fail_if_no_progress extract_lets +onlyGivenNames x); first
      | (have g : State := x; clear g; refine Keeps.cut x ?_ ?_; (on_goal 2 => (intro _; try clear_value x)); (on_goal 1 => subst x))
      | (have g : _ → State := x; clear g; subst x) | (have g : _ → _ → State := x; clear g; subst x) | (have g : Option _ := x; clear g; subst x) | skip)
    | intro

theorem State.keeps_haltEngine {F : Nat} {s t : State} (hF : Within 130 F) (h : Keeps F s t) (n : Nat) (reason : Nat) : Keeps F s (t.haltEngine n reason) := by
  unfold State.haltEngine
  repeat' first
    | with_reducible assumption
    | with_reducible refine Keeps.ite ?_ ?_
    | with_reducible first | apply State.keeps_stick | apply State.keeps_setEng
    | with_reducible exact hF.sub rfl
    | split
    | refine Keeps.ofFst (by assumption) ?_
    | refine Keeps.ofSnd (by assumption) ?_
    | ((fail_if_no_progress extract_lets +onlyGivenNames x); first
      | (have g : State := x; clear g; refine Keeps.cut x ?_ ?_; (on_goal 2 => (intro _; try clear_value x)); (on_goal 1 => subst x))
      | (have g : _ → State := x; clear g; subst x) | (have g : _ → _ → State := x; clear g; subst x) | (have g : Option _ := x; clear g; subst x) | skip)
    | intro

theorem State.keeps_sliceFreed {F : Nat} {s t : State} (hF : Within 262144 F) (h : Keeps F s t) (i : Nat) : Keeps F s (t.sliceFreed i) := by
  unfold State.sliceFreed
  repeat' first
    | with_reducible assumption
    | with_reducible refine Keeps.ite ?_ ?_
    | fail_if_no_progress (with_reducible refine Keeps.cal' (hF.sub rfl) ?_ (by with_reducible rfl))
    | split
    | intro

theorem State.keeps_abandonCouch {F : Nat} {s t : State} (hF : Within 262162 F) (h : Keeps F s t) (t' : Nat) (retired : Bool) : Keeps F s (t.abandonCouch t' retired) := by
  unfold State.abandonCouch
  repeat' first
    | with_reducible assumption
    | with_reducible refine Keeps.ite ?_ ?_
    | with_reducible first | apply State.keeps_sliceFreed | apply State.keeps_stick | apply State.keeps_setSlice | apply State.keeps_setCouch | apply State.keeps_iff | apply State.keeps_assertSrc
    | with_reducible exact hF.sub rfl
    | split
    | refine Keeps.ofFst (by assumption) ?_
    | refine Keeps.ofSnd (by assumption) ?_
    | ((fail_if_no_progress extract_lets +onlyGivenNames x); first
      | (have g : State := x; clear g; refine Keeps.cut x ?_ ?_; (on_goal 2 => (intro _; try clear_value x)); (on_goal 1 => subst x))
      | (have g : _ → State := x; clear g; subst x) | (have g : _ → _ → State := x; clear g; subst x) | (have g : Option _ := x; clear g; subst x) | skip)
    | intro

theorem State.keeps_enterSafe {F : Nat} {s t : State} (hF : Within 393394 F) (h : Keeps F s t) (n : Nat) (opens : Bool) : Keeps F s (t.enterSafe n opens) := by
  unfold State.enterSafe
  repeat' first
    | with_reducible assumption
    | with_reducible refine Keeps.ite ?_ ?_
    | with_reducible first | apply State.keeps_recovered | apply State.keeps_haltEngine | apply State.keeps_abandonCouch | apply State.keeps_wr | apply State.keeps_setForce | apply State.keeps_assertSrc
    | with_reducible exact hF.sub rfl
    | split
    | refine Keeps.ofFst (by assumption) ?_
    | refine Keeps.ofSnd (by assumption) ?_
    | ((fail_if_no_progress extract_lets +onlyGivenNames x); first
      | (have g : State := x; clear g; refine Keeps.cut x ?_ ?_; (on_goal 2 => (intro _; try clear_value x)); (on_goal 1 => subst x))
      | (have g : _ → State := x; clear g; subst x) | (have g : _ → _ → State := x; clear g; subst x) | (have g : Option _ := x; clear g; subst x) | skip)
    | intro

theorem State.keeps_addCover {F : Nat} {s t : State} (hF : Within 131072 F) (h : Keeps F s t) (u' : Nat) (seq : Nat) : Keeps F s (t.addCover u' seq) := by
  unfold State.addCover
  repeat' first
    | with_reducible assumption
    | with_reducible refine Keeps.ite ?_ ?_
    | fail_if_no_progress (with_reducible refine Keeps.flt' (hF.sub rfl) ?_ (by with_reducible rfl))
    | split
    | intro

theorem State.keeps_enterTileSafe {F : Nat} {s t : State} (hF : Within 131088 F) (h : Keeps F s t) (t' : Nat) : Keeps F s (t.enterTileSafe t') := by
  unfold State.enterTileSafe
  repeat' first
    | with_reducible assumption
    | with_reducible refine Keeps.ite ?_ ?_
    | with_reducible first | apply State.keeps_assertSrc
    | fail_if_no_progress (with_reducible refine Keeps.flt' (hF.sub rfl) ?_ (by with_reducible rfl))
    | with_reducible exact hF.sub rfl
    | split
    | intro

theorem State.keeps_react {F : Nat} {s t : State} (hF : Within 393394 F) (h : Keeps F s t) (cls : Nat) (sc : Scope) (code : Nat) (seq : Nat) : Keeps F s (t.react cls sc code seq) := by
  unfold State.react
  repeat' first
    | with_reducible assumption
    | with_reducible refine Keeps.ite ?_ ?_
    | with_reducible first | apply State.keeps_enterSafe | apply State.keeps_addCover | apply State.keeps_enterTileSafe | apply State.keeps_each
    | fail_if_no_progress (with_reducible refine Keeps.flt' (hF.sub rfl) ?_ (by with_reducible rfl))
    | with_reducible exact hF.sub rfl
    | split
    | refine Keeps.ofFst (by assumption) ?_
    | refine Keeps.ofSnd (by assumption) ?_
    | ((fail_if_no_progress extract_lets +onlyGivenNames x); first
      | (have g : State := x; clear g; refine Keeps.cut x ?_ ?_; (on_goal 2 => (intro _; try clear_value x)); (on_goal 1 => subst x))
      | (have g : _ → State := x; clear g; subst x) | (have g : _ → _ → State := x; clear g; subst x) | (have g : Option _ := x; clear g; subst x) | skip)
    | intro

theorem State.keeps_mapRecords {F : Nat} {s t : State} (hF : Within 131072 F) (h : Keeps F s t) (p : Record → Bool) (g : Record → Record) : Keeps F s (t.mapRecords p g) := by
  unfold State.mapRecords
  repeat' first
    | with_reducible assumption
    | with_reducible refine Keeps.ite ?_ ?_
    | fail_if_no_progress (with_reducible refine Keeps.flt' (hF.sub rfl) ?_ (by with_reducible rfl))
    | split
    | intro

theorem State.keeps_countBFault {F : Nat} {s t : State} (hF : Within 262144 F) (h : Keeps F s t) (d : Detect) : Keeps F s (t.countBFault d) := by
  unfold State.countBFault
  repeat' first
    | with_reducible assumption
    | with_reducible refine Keeps.ite ?_ ?_
    | with_reducible first | apply State.keeps_setSlice
    | fail_if_no_progress (with_reducible refine Keeps.cal' (hF.sub rfl) ?_ (by with_reducible rfl))
    | with_reducible exact hF.sub rfl
    | split
    | refine Keeps.ofFst (by assumption) ?_
    | refine Keeps.ofSnd (by assumption) ?_
    | ((fail_if_no_progress extract_lets +onlyGivenNames x); first
      | (have g : State := x; clear g; refine Keeps.cut x ?_ ?_; (on_goal 2 => (intro _; try clear_value x)); (on_goal 1 => subst x))
      | (have g : _ → State := x; clear g; subst x) | (have g : _ → _ → State := x; clear g; subst x) | (have g : Option _ := x; clear g; subst x) | skip)
    | intro

theorem State.keeps_recur {F : Nat} {s t : State} (hF : Within 393394 F) (h : Keeps F s t) (r : Record) (d : Detect) : Keeps F s (t.recur r d) := by
  unfold State.recur
  repeat' first
    | with_reducible assumption
    | with_reducible refine Keeps.ite ?_ ?_
    | with_reducible first | apply State.keeps_react | apply State.keeps_mapRecords | apply State.keeps_assertSrc
    | with_reducible exact hF.sub rfl
    | split
    | refine Keeps.ofFst (by assumption) ?_
    | refine Keeps.ofSnd (by assumption) ?_
    | ((fail_if_no_progress extract_lets +onlyGivenNames x); first
      | (have g : State := x; clear g; refine Keeps.cut x ?_ ?_; (on_goal 2 => (intro _; try clear_value x)); (on_goal 1 => subst x))
      | (have g : _ → State := x; clear g; subst x) | (have g : _ → _ → State := x; clear g; subst x) | (have g : Option _ := x; clear g; subst x) | skip)
    | intro

theorem State.keeps_queueDetect {F : Nat} {s t : State} (hF : Within 131074 F) (h : Keeps F s t) (d : Detect) : Keeps F s (t.queueDetect d) := by
  unfold State.queueDetect
  repeat' first
    | with_reducible assumption
    | with_reducible refine Keeps.ite ?_ ?_
    | with_reducible first | apply State.keeps_tally
    | fail_if_no_progress (with_reducible refine Keeps.flt' (hF.sub rfl) ?_ (by with_reducible rfl))
    | with_reducible exact hF.sub rfl
    | split
    | intro

theorem State.keeps_faultItem {F : Nat} {s t : State} (hF : Within 150530 F) (h : Keeps F s t) (d : Detect) : Keeps F s (t.faultItem d) := by
  unfold State.faultItem
  repeat' first
    | with_reducible assumption
    | with_reducible refine Keeps.ite ?_ ?_
    | with_reducible first | apply State.keeps_queueDetect | apply State.keeps_agentWrite
    | with_reducible exact hF.sub rfl
    | split
    | refine Keeps.ofFst (by assumption) ?_
    | refine Keeps.ofSnd (by assumption) ?_
    | ((fail_if_no_progress extract_lets +onlyGivenNames x); first
      | (have g : State := x; clear g; refine Keeps.cut x ?_ ?_; (on_goal 2 => (intro _; try clear_value x)); (on_goal 1 => subst x))
      | (have g : _ → State := x; clear g; subst x) | (have g : _ → _ → State := x; clear g; subst x) | (have g : Option _ := x; clear g; subst x) | skip)
    | intro

theorem State.keeps_pruneRing {F : Nat} {s t : State} (hF : Within 131072 F) (h : Keeps F s t) : Keeps F s (t.pruneRing) := by
  unfold State.pruneRing
  repeat' first
    | with_reducible assumption
    | ((fail_if_no_progress extract_lets +onlyGivenNames x); first
      | (have g : State := x; clear g; refine Keeps.cut x ?_ ?_; (on_goal 2 => (intro _; try clear_value x)); (on_goal 1 => subst x))
      | (have g : _ → State := x; clear g; subst x) | (have g : _ → _ → State := x; clear g; subst x) | (have g : Option _ := x; clear g; subst x) | skip)
    | fail_if_no_progress (with_reducible refine Keeps.flt' (hF.sub rfl) ?_ (by with_reducible rfl))
    | refine Keeps.ofFst (by assumption) ?_
    | refine Keeps.ofSnd (by assumption) ?_
    | intro

theorem State.keeps_freezeFirst {F : Nat} {s t : State} (hF : Within 131088 F) (h : Keeps F s t) (r : Record) : Keeps F s (t.freezeFirst r) := by
  unfold State.freezeFirst
  repeat' first
    | with_reducible assumption
    | with_reducible refine Keeps.ite ?_ ?_
    | with_reducible first | apply State.keeps_assertSrc
    | fail_if_no_progress (with_reducible refine Keeps.flt' (hF.sub rfl) ?_ (by with_reducible rfl))
    | with_reducible exact hF.sub rfl
    | split
    | intro

theorem State.keeps_captureNew {F : Nat} {s t : State} (hF : Within 412850 F) (h : Keeps F s t) (d : Detect) : Keeps F s (t.captureNew d) := by
  unfold State.captureNew
  repeat' first
    | with_reducible assumption
    | with_reducible refine Keeps.ite ?_ ?_
    | with_reducible first | apply State.keeps_react | apply State.keeps_mapRecords | apply State.keeps_faultItem | apply State.keeps_pruneRing | apply State.keeps_freezeFirst | apply State.keeps_tally | apply State.keeps_each | apply State.keeps_assertSrc
    | fail_if_no_progress (with_reducible refine Keeps.flt' (hF.sub rfl) ?_ (by with_reducible rfl))
    | with_reducible exact hF.sub rfl
    | split
    | refine Keeps.ofFst (by assumption) ?_
    | refine Keeps.ofSnd (by assumption) ?_
    | ((fail_if_no_progress extract_lets +onlyGivenNames x); first
      | (have g : State := x; clear g; refine Keeps.cut x ?_ ?_; (on_goal 2 => (intro _; try clear_value x)); (on_goal 1 => subst x))
      | (have g : _ → State := x; clear g; subst x) | (have g : _ → _ → State := x; clear g; subst x) | (have g : Option _ := x; clear g; subst x) | skip)
    | intro

theorem State.keeps_capture {F : Nat} {s t : State} (hF : Within 412850 F) (h : Keeps F s t) (d : Detect) : Keeps F s (t.capture d) := by
  unfold State.capture
  repeat' first
    | with_reducible assumption
    | with_reducible first | apply State.keeps_countBFault | apply State.keeps_recur | apply State.keeps_captureNew
    | with_reducible exact hF.sub rfl
    | split
    | refine Keeps.ofFst (by assumption) ?_
    | refine Keeps.ofSnd (by assumption) ?_
    | ((fail_if_no_progress extract_lets +onlyGivenNames x); first
      | (have g : State := x; clear g; refine Keeps.cut x ?_ ?_; (on_goal 2 => (intro _; try clear_value x)); (on_goal 1 => subst x))
      | (have g : _ → State := x; clear g; subst x) | (have g : _ → _ → State := x; clear g; subst x) | (have g : Option _ := x; clear g; subst x) | skip)
    | intro

theorem State.keeps_collect {F : Nat} {s : State} (hF : Within 412850 F) : ∀ (k : Nat) {t : State} (_ : Keeps F s t), Keeps F s (State.collect k t)
  | 0, _, h => h
  | k + 1, t, h => by
    unfold State.collect
    split
    · exact h
    · split
      · refine State.keeps_collect (hF.sub rfl) k (State.keeps_capture (hF.sub rfl) ?_ _)
        exact h.same (Frame.flt' (hF.sub rfl) t _) rfl
      · exact h

theorem State.keeps_log {F : Nat} {s t : State} (hF : Within 412850 F) (h : Keeps F s t) (d : Detect) : Keeps F s (t.log d) := by
  unfold State.log
  repeat' first
    | with_reducible assumption
    | with_reducible refine Keeps.ite ?_ ?_
    | with_reducible first | apply State.keeps_react | apply State.keeps_queueDetect | apply State.keeps_capture | apply State.keeps_collect
    | with_reducible exact hF.sub rfl
    | split
    | refine Keeps.ofFst (by assumption) ?_
    | refine Keeps.ofSnd (by assumption) ?_
    | ((fail_if_no_progress extract_lets +onlyGivenNames x); first
      | (have g : State := x; clear g; refine Keeps.cut x ?_ ?_; (on_goal 2 => (intro _; try clear_value x)); (on_goal 1 => subst x))
      | (have g : _ → State := x; clear g; subst x) | (have g : _ → _ → State := x; clear g; subst x) | (have g : Option _ := x; clear g; subst x) | skip)
    | intro

theorem State.keeps_fault {F : Nat} {s t : State} (hF : Within 412850 F) (h : Keeps F s t) (code : Nat) (cls : Nat) (sc : Scope) (master : Nat) : Keeps F s (t.fault code cls sc master) := by
  unfold State.fault
  repeat' first
    | with_reducible assumption
    | with_reducible first | apply State.keeps_log
    | with_reducible exact hF.sub rfl
    | intro

theorem State.keeps_agentItem {F : Nat} {s t : State} (hF : Within 412850 F) (h : Keeps F s t) (a : Nat) (kind : Nat) (value : DWord) (raw : Word) : Keeps F s (t.agentItem a kind value raw) := by
  unfold State.agentItem
  repeat' first
    | with_reducible assumption
    | with_reducible refine Keeps.ite ?_ ?_
    | with_reducible first | apply State.keeps_fault | apply State.keeps_agentWrite
    | with_reducible exact hF.sub rfl
    | split
    | refine Keeps.ofFst (by assumption) ?_
    | refine Keeps.ofSnd (by assumption) ?_
    | ((fail_if_no_progress extract_lets +onlyGivenNames x); first
      | (have g : State := x; clear g; refine Keeps.cut x ?_ ?_; (on_goal 2 => (intro _; try clear_value x)); (on_goal 1 => subst x))
      | (have g : _ → State := x; clear g; subst x) | (have g : _ → _ → State := x; clear g; subst x) | (have g : Option _ := x; clear g; subst x) | skip)
    | intro

theorem State.keeps_accessFault {F : Nat} {s t : State} (hF : Within 412850 F) (h : Keeps F s t) (code : Nat) (cls : Nat) (sc : Scope) (m : Nat) (access : Nat) (a : Nat) : Keeps F s (t.accessFault code cls sc m access a) := by
  unfold State.accessFault
  repeat' first
    | with_reducible assumption
    | with_reducible first | apply State.keeps_log
    | with_reducible exact hF.sub rfl
    | intro

theorem State.keeps_writeFault {F : Nat} {s t : State} (hF : Within 412850 F) (h : Keeps F s t) (code : Nat) (sc : Scope) (m : Nat) (a : Nat) : Keeps F s (t.writeFault code sc m a) := by
  unfold State.writeFault
  repeat' first
    | with_reducible assumption
    | with_reducible first | apply State.keeps_accessFault
    | with_reducible exact hF.sub rfl
    | intro

theorem State.keeps_clearCondition {F : Nat} {s t : State} (hF : Within 131072 F) (h : Keeps F s t) (code : Nat) (sc : Scope) (slot : Option Nat) : Keeps F s (t.clearCondition code sc slot) := by
  unfold State.clearCondition
  repeat' first
    | with_reducible assumption
    | with_reducible first | apply State.keeps_mapRecords
    | with_reducible exact hF.sub rfl
    | refine Keeps.ofFst (by assumption) ?_
    | refine Keeps.ofSnd (by assumption) ?_
    | ((fail_if_no_progress extract_lets +onlyGivenNames x); first
      | (have g : State := x; clear g; refine Keeps.cut x ?_ ?_; (on_goal 2 => (intro _; try clear_value x)); (on_goal 1 => subst x))
      | (have g : _ → State := x; clear g; subst x) | (have g : _ → _ → State := x; clear g; subst x) | (have g : Option _ := x; clear g; subst x) | skip)
    | intro

end Sys2Proof.Machine
end

