-- ==== Sys2Proof/Laws/MemOps.lean ====
section
/-!
SUPPORT. The operations of Machine/MemOps.lean: the parts of the state that each may change, and what it keeps.
-/

namespace Sys2Proof.Machine

open Sys2Proof

set_option linter.all false

theorem State.keeps_memWrite {F : Nat} {s : State} (hF : Within 6144 F) : ∀ (l : List Byte) {t : State} (_ : Keeps F s t) (a : Nat), Keeps F s (t.memWrite a l)
  | [], _, h, _ => h
  | b :: l, _, h, a => State.keeps_memWrite (hF.sub rfl) l
    (by split
        · exact State.keeps_setHbm (hF.sub rfl) (State.keeps_setHbm (hF.sub rfl) h ..) ..
        · exact State.keeps_setHbm (hF.sub rfl) h ..) (a + 1)

theorem State.keeps_memNotice {F : Nat} {s t : State} (hF : Within 412850 F) (h : Keeps F s t) (m : Nat) (pc : Nat) (bank : Nat) (port : Nat) : Keeps F s (t.memNotice m pc bank port) := by
  unfold State.memNotice
  repeat' first
    | with_reducible assumption
    | with_reducible first | apply State.keeps_agentItem | apply State.keeps_assertSrc
    | with_reducible exact hF.sub rfl
    | intro

theorem State.keeps_memFault {F : Nat} {s t : State} (hF : Within 412850 F) (h : Keeps F s t) (code : Nat) (cls : Nat) (sc : Scope) (m : Nat) (access : Nat) (a : Nat) : Keeps F s (t.memFault code cls sc m access a) := by
  unfold State.memFault
  repeat' first
    | with_reducible assumption
    | with_reducible first | apply State.keeps_log
    | with_reducible exact hF.sub rfl
    | intro

/-- Losing the contents of banks. -/
theorem Keeps.lose {F : Nat} {s t : State} (hF : Within 12288 F) (h : Keeps F s t) (kept : Nat → Nat → Bool) (lost : List Nat) (e : ∀ k ∈ lost, kept (k / 32) (k % 32) = false) :
    Keeps F s { t with hbm := t.hbm.filter fun e => kept (bankIx e.1) (pcOf e.1), losses := lost.foldl (fun l k => Table.put 0 k (Table.get 0 k l + 1) l) t.losses } := by
  have put : ∀ (l : List Nat) (u : Table Nat), Table.wf (fun _ => (0 : Nat)) u = true →
      Table.wf (fun _ => (0 : Nat)) (l.foldl (fun l k => Table.put 0 k (Table.get 0 k l + 1) l) u) = true := by
    intro l
    induction l with
    | nil => exact fun _ => id
    | cons k l ih => exact fun u w => ih _ (Table.wf_put (d := fun _ => 0) w)
  have get : ∀ (l : List Nat) (u : Table Nat) (j : Nat), Table.wf (fun _ => (0 : Nat)) u = true → j ∉ l →
      Table.get 0 j (l.foldl (fun l k => Table.put 0 k (Table.get 0 k l + 1) l) u) = Table.get 0 j u := by
    intro l
    induction l with
    | nil => exact fun _ _ _ _ => rfl
    | cons k l ih =>
      intro u j w n
      rw [List.mem_cons, not_or] at n
      rw [List.foldl_cons, ih _ j (Table.wf_put (d := fun _ => 0) w) n.2, Table.get_put_other n.1 (Table.wf_rising w)]
  refine h.step (by constructor <;> intros <;> first | rfl | exact hF.out rfl (by assumption)) rfl rfl fun c => ?_
  refine { c with losses := put lost t.losses c.losses, hbm := Table.wf_filter _ c.hbm fun x _ hx => ?_ }
  have n : bankKey x.1 ∉ lost := fun m => by
    have k := e _ m
    rw [show bankKey x.1 / 32 = bankIx x.1 by unfold bankKey pcOf; omega, show bankKey x.1 % 32 = pcOf x.1 by unfold bankKey pcOf; omega, hx] at k
    exact Bool.noConfusion k
  have q := get lost t.losses _ c.losses n
  dsimp only
  rw [← q]

theorem State.keeps_loseBanks {F : Nat} {s t : State} (hF : Within 12288 F) (h : Keeps F s t) : Keeps F s t.loseBanks :=
  Keeps.lose hF h (fun b q => t.memc.retBanks.getLsbD b && t.memc.retPcs.getLsbD q) _ fun k m => Bool.not_eq_true' _ ▸ (List.mem_filter.1 m).2

theorem State.keeps_leaveRetention {F : Nat} {s t : State} (hF : Within 425138 F) (h : Keeps F s t) : Keeps F s (t.leaveRetention) := by
  unfold State.leaveRetention
  repeat' first
    | with_reducible assumption
    | with_reducible refine Keeps.ite ?_ ?_
    | with_reducible first | apply State.keeps_wr | apply State.keeps_stick | apply State.keeps_memNotice | apply State.keeps_loseBanks | apply State.keeps_setMemc
    | with_reducible exact hF.sub rfl
    | with_reducible exact id
    | split
    | refine Keeps.ofFst (by assumption) ?_
    | refine Keeps.ofSnd (by assumption) ?_
    | ((fail_if_no_progress extract_lets +onlyGivenNames x); first
      | (have g : State := x; clear g; refine Keeps.cut x ?_ ?_; (on_goal 2 => (intro _; try clear_value x)); (on_goal 1 => subst x))
      | (have g : _ → State := x; clear g; subst x) | (have g : _ → _ → State := x; clear g; subst x) | (have g : Option _ := x; clear g; subst x) | skip)
    | intro

theorem State.keeps_memWake {F : Nat} {s t : State} (hF : Within 425138 F) (h : Keeps F s t) : Keeps F s (t.memWake) := by
  unfold State.memWake
  repeat' first
    | with_reducible assumption
    | with_reducible first | apply State.keeps_memNotice | apply State.keeps_leaveRetention | apply State.keeps_setMemc
    | with_reducible exact hF.sub rfl
    | with_reducible exact id
    | split
    | refine Keeps.ofFst (by assumption) ?_
    | refine Keeps.ofSnd (by assumption) ?_
    | intro

theorem State.keeps_memRequest {F : Nat} {s t : State} (hF : Within 412850 F) (h : Keeps F s t) (p : Nat) (write : Bool) (a : Nat) (data : List Byte) (len : Nat) : Keeps F s (t.memRequest p write a data len) := by
  unfold State.memRequest
  repeat' first
    | with_reducible assumption
    | with_reducible refine Keeps.ite ?_ ?_
    | with_reducible first | apply State.keeps_memFault | apply State.keeps_memAccept
    | with_reducible exact hF.sub rfl
    | split
    | intro

theorem State.keeps_enterUrgent {F : Nat} {s t : State} (hF : Within 412850 F) (h : Keeps F s t) (id : Nat) : Keeps F s (t.enterUrgent id) := by
  unfold State.enterUrgent
  repeat' first
    | with_reducible assumption
    | with_reducible refine Keeps.ite ?_ ?_
    | with_reducible first | apply State.keeps_tally | apply State.keeps_memNotice | apply State.keeps_setMemc
    | with_reducible exact hF.sub rfl
    | with_reducible exact id
    | split
    | refine Keeps.ofFst (by assumption) ?_
    | refine Keeps.ofSnd (by assumption) ?_
    | ((fail_if_no_progress extract_lets +onlyGivenNames x); first
      | (have g : State := x; clear g; refine Keeps.cut x ?_ ?_; (on_goal 2 => (intro _; try clear_value x)); (on_goal 1 => subst x))
      | (have g : _ → State := x; clear g; subst x) | (have g : _ → _ → State := x; clear g; subst x) | (have g : Option _ := x; clear g; subst x) | skip)
    | intro

theorem State.keeps_memDone {F : Nat} {s t : State} (hF : Within 2050 F) (h : Keeps F s t) (r : MReq) : Keeps F s (t.memDone r) := by
  unfold State.memDone
  repeat' first
    | with_reducible assumption
    | with_reducible refine Keeps.ite ?_ ?_
    | with_reducible first | apply State.keeps_tally | apply State.keeps_setMemc
    | with_reducible exact hF.sub rfl
    | with_reducible exact id
    | split
    | refine Keeps.ofFst (by assumption) ?_
    | refine Keeps.ofSnd (by assumption) ?_
    | ((fail_if_no_progress extract_lets +onlyGivenNames x); first
      | (have g : State := x; clear g; refine Keeps.cut x ?_ ?_; (on_goal 2 => (intro _; try clear_value x)); (on_goal 1 => subst x))
      | (have g : _ → State := x; clear g; subst x) | (have g : _ → _ → State := x; clear g; subst x) | (have g : Option _ := x; clear g; subst x) | skip)
    | intro

theorem State.keeps_rhRoll {F : Nat} {s t : State} (hF : Within 2048 F) (h : Keeps F s t) : Keeps F s (t.rhRoll) := by
  unfold State.rhRoll
  repeat' first
    | with_reducible assumption
    | with_reducible refine Keeps.ite ?_ ?_
    | with_reducible first | apply State.keeps_setMemc
    | with_reducible exact hF.sub rfl
    | with_reducible exact id
    | split
    | refine Keeps.ofFst (by assumption) ?_
    | refine Keeps.ofSnd (by assumption) ?_
    | ((fail_if_no_progress extract_lets +onlyGivenNames x); first
      | (have g : State := x; clear g; refine Keeps.cut x ?_ ?_; (on_goal 2 => (intro _; try clear_value x)); (on_goal 1 => subst x))
      | (have g : _ → State := x; clear g; subst x) | (have g : _ → _ → State := x; clear g; subst x) | (have g : Option _ := x; clear g; subst x) | skip)
    | intro

theorem State.keeps_refreshBank {F : Nat} {s t : State} (hF : Within 2048 F) (h : Keeps F s t) (k : Nat) : Keeps F s (t.refreshBank k) := by
  unfold State.refreshBank
  repeat' first
    | with_reducible assumption
    | with_reducible first | apply State.keeps_setBank | apply State.keeps_setMemc
    | with_reducible exact hF.sub rfl
    | with_reducible exact id
    | refine Keeps.ofFst (by assumption) ?_
    | refine Keeps.ofSnd (by assumption) ?_
    | ((fail_if_no_progress extract_lets +onlyGivenNames x); first
      | (have g : State := x; clear g; refine Keeps.cut x ?_ ?_; (on_goal 2 => (intro _; try clear_value x)); (on_goal 1 => subst x))
      | (have g : _ → State := x; clear g; subst x) | (have g : _ → _ → State := x; clear g; subst x) | (have g : Option _ := x; clear g; subst x) | skip)
    | intro

theorem State.keeps_activateRow {F : Nat} {s t : State} (hF : Within 412850 F) (h : Keeps F s t) (p : Nat) (a : Nat) :
    Keeps F s (t.activateRow p a) := by
  unfold State.activateRow
  have g : ∀ (v : State) (A B : Table Nat), Keeps F s v → Keeps F s (v.setMemc { v.memc with acts := A, actAt := B }) :=
    fun _ _ _ k => State.keeps_setMemc (hF.sub rfl) k _ id
  have g2 : ∀ (v : State) (a b c d : Nat) (l : List Nat), Keeps F s v →
      Keeps F s (v.setMemc { v.memc with throttled := a, rhPort := b, rhPc := c, rhBank := d, rhRows := l }) :=
    fun _ _ _ _ _ _ k => State.keeps_setMemc (hF.sub rfl) k _ id
  have k1 := g _ (Table.put 0 (rowGroup a) (Table.get 0 (rowGroup a) t.rhRoll.memc.acts + 1) t.rhRoll.memc.acts)
    (Table.put 0 p t.rhRoll.now t.rhRoll.memc.actAt) (State.keeps_rhRoll (hF.sub rfl) h)
  have k2 := fun x => State.keeps_setBank (hF.sub rfl) k1 (bankKey a) x
  dsimp only
  split
  · exact State.keeps_memFault (hF.sub rfl) (State.keeps_memNotice (hF.sub rfl) (State.keeps_tally (hF.sub rfl) (State.keeps_stick (hF.sub rfl)
      (g2 _ _ _ _ _ _ (State.keeps_setBank (hF.sub rfl) (k2 _) ..)) ..) ..) ..) ..
  · exact k2 _

theorem State.keeps_rowAccess {F : Nat} {s t : State} (hF : Within 412850 F) (h : Keeps F s t) (p : Nat) (a : Nat) : Keeps F s (t.rowAccess p a) := by
  unfold State.rowAccess
  repeat' first
    | with_reducible assumption
    | with_reducible refine Keeps.ite ?_ ?_
    | with_reducible first | apply State.keeps_activateRow | apply State.keeps_setBank
    | with_reducible exact hF.sub rfl
    | split
    | refine Keeps.ofFst (by assumption) ?_
    | refine Keeps.ofSnd (by assumption) ?_
    | ((fail_if_no_progress extract_lets +onlyGivenNames x); first
      | (have g : State := x; clear g; refine Keeps.cut x ?_ ?_; (on_goal 2 => (intro _; try clear_value x)); (on_goal 1 => subst x))
      | (have g : _ → State := x; clear g; subst x) | (have g : _ → _ → State := x; clear g; subst x) | (have g : Option _ := x; clear g; subst x) | skip)
    | intro

theorem State.keeps_memAccess {F : Nat} {s t : State} (hF : Within 425138 F) (h : Keeps F s t) (p : Nat) (a : Nat) (len : Nat) : Keeps F s (t.memAccess p a len) := by
  unfold State.memAccess
  repeat' first
    | with_reducible assumption
    | with_reducible refine Keeps.ite ?_ ?_
    | with_reducible first | apply State.keeps_leaveRetention | apply State.keeps_rowAccess | apply State.keeps_each | apply State.keeps_setMemc
    | with_reducible exact hF.sub rfl
    | with_reducible exact id
    | split
    | refine Keeps.ofFst (by assumption) ?_
    | refine Keeps.ofSnd (by assumption) ?_
    | ((fail_if_no_progress extract_lets +onlyGivenNames x); first
      | (have g : State := x; clear g; refine Keeps.cut x ?_ ?_; (on_goal 2 => (intro _; try clear_value x)); (on_goal 1 => subst x))
      | (have g : _ → State := x; clear g; subst x) | (have g : _ → _ → State := x; clear g; subst x) | (have g : Option _ := x; clear g; subst x) | skip)
    | intro

theorem State.keeps_memTouch {F : Nat} {s t : State} (hF : Within 425138 F) (h : Keeps F s t) (p : Nat) (a : Nat) (len : Nat) : Keeps F s (t.memTouch p a len) := by
  unfold State.memTouch
  repeat' first
    | with_reducible assumption
    | with_reducible first | apply State.keeps_memAccess | apply State.keeps_memArrive
    | with_reducible exact hF.sub rfl
    | intro

theorem State.keeps_issueReq {F : Nat} {s t : State} (hF : Within 416946 F) (h : Keeps F s t) (r : MReq) : Keeps F s (t.issueReq r) := by
  unfold State.issueReq
  repeat' first
    | with_reducible assumption
    | with_reducible refine Keeps.ite ?_ ?_
    | with_reducible first | apply State.keeps_memWrite | apply State.keeps_memDone | apply State.keeps_rowAccess | apply State.keeps_setMemc
    | fail_if_no_progress (with_reducible refine Keeps.memc' (hF.sub rfl) ?_ (by with_reducible rfl))
    | with_reducible exact hF.sub rfl
    | with_reducible exact id
    | split
    | refine Keeps.ofFst (by assumption) ?_
    | refine Keeps.ofSnd (by assumption) ?_
    | ((fail_if_no_progress extract_lets +onlyGivenNames x); first
      | (have g : State := x; clear g; refine Keeps.cut x ?_ ?_; (on_goal 2 => (intro _; try clear_value x)); (on_goal 1 => subst x))
      | (have g : _ → State := x; clear g; subst x) | (have g : _ → _ → State := x; clear g; subst x) | (have g : Option _ := x; clear g; subst x) | skip)
    | intro

theorem State.keeps_refreshOverdue {F : Nat} {s t : State} (hF : Within 2048 F) (h : Keeps F s t) (q : Nat) : Keeps F s (t.refreshOverdue q) := by
  unfold State.refreshOverdue
  repeat' first
    | with_reducible assumption
    | with_reducible first | apply State.keeps_refreshBank | apply State.keeps_each
    | with_reducible exact hF.sub rfl
    | intro

theorem State.keeps_memIssue {F : Nat} {s t : State} (hF : Within 416946 F) (h : Keeps F s t) (q : Nat) : Keeps F s (t.memIssue q) := by
  unfold State.memIssue
  repeat' first
    | with_reducible assumption
    | with_reducible refine Keeps.ite ?_ ?_
    | with_reducible first | apply State.keeps_rhRoll | apply State.keeps_issueReq | apply State.keeps_refreshOverdue
    | with_reducible exact hF.sub rfl
    | split
    | refine Keeps.ofFst (by assumption) ?_
    | refine Keeps.ofSnd (by assumption) ?_
    | ((fail_if_no_progress extract_lets +onlyGivenNames x); first
      | (have g : State := x; clear g; refine Keeps.cut x ?_ ?_; (on_goal 2 => (intro _; try clear_value x)); (on_goal 1 => subst x))
      | (have g : _ → State := x; clear g; subst x) | (have g : _ → _ → State := x; clear g; subst x) | (have g : Option _ := x; clear g; subst x) | skip)
    | intro

theorem State.keeps_refreshDue {F : Nat} {s t : State} (hF : Within 2048 F) (h : Keeps F s t) (k : Nat) : Keeps F s (t.refreshDue k) := by
  unfold State.refreshDue
  repeat' first
    | with_reducible assumption
    | with_reducible refine Keeps.ite ?_ ?_
    | with_reducible first | apply State.keeps_refreshBank | apply State.keeps_setBank
    | with_reducible exact hF.sub rfl
    | split
    | refine Keeps.ofFst (by assumption) ?_
    | refine Keeps.ofSnd (by assumption) ?_
    | ((fail_if_no_progress extract_lets +onlyGivenNames x); first
      | (have g : State := x; clear g; refine Keeps.cut x ?_ ?_; (on_goal 2 => (intro _; try clear_value x)); (on_goal 1 => subst x))
      | (have g : _ → State := x; clear g; subst x) | (have g : _ → _ → State := x; clear g; subst x) | (have g : Option _ := x; clear g; subst x) | skip)
    | intro

theorem State.keeps_portOrder {F : Nat} {s t : State} (hF : Within 416946 F) (h : Keeps F s t) (p : Nat) (a : Nat) (len : Nat) : Keeps F s (t.portOrder p a len) := by
  unfold State.portOrder
  repeat' first
    | with_reducible assumption
    | with_reducible first | apply State.keeps_issueReq | apply State.keeps_each
    | with_reducible exact hF.sub rfl
    | refine Keeps.ofFst (by assumption) ?_
    | refine Keeps.ofSnd (by assumption) ?_
    | ((fail_if_no_progress extract_lets +onlyGivenNames x); first
      | (have g : State := x; clear g; refine Keeps.cut x ?_ ?_; (on_goal 2 => (intro _; try clear_value x)); (on_goal 1 => subst x))
      | (have g : _ → State := x; clear g; subst x) | (have g : _ → _ → State := x; clear g; subst x) | (have g : Option _ := x; clear g; subst x) | skip)
    | intro

theorem keeps_freeBytes {F : Nat} {s : State} (hF : Within 16777216 F) : ∀ (n : Nat) {t : State} (_ : Keeps F s t), Keeps F s (freeBytes n t).2
  | 0, _, h => h
  | n + 1, _, h => keeps_freeBytes (hF.sub rfl) n (State.keeps_freeWord (hF.sub rfl) h)

theorem State.keeps_lostRead {F : Nat} {s t : State} (hF : Within 412850 F) (h : Keeps F s t) (m : Nat) (a : Nat) : Keeps F s (t.lostRead m a) := by
  unfold State.lostRead
  repeat' first
    | with_reducible assumption
    | with_reducible first | apply State.keeps_tally | apply State.keeps_memFault
    | with_reducible exact hF.sub rfl
    | intro

theorem State.keeps_errorAt {F : Nat} {s t : State} (hF : Within 2048 F) (h : Keeps F s t) (a : Nat) (uncorr : Bool) (port : Nat) : Keeps F s (t.errorAt a uncorr port) := by
  unfold State.errorAt
  repeat' first
    | with_reducible assumption
    | with_reducible first | apply State.keeps_setMemc
    | with_reducible exact hF.sub rfl
    | with_reducible exact id
    | intro

theorem State.keeps_rowError {F : Nat} {s t : State} (hF : Within 412850 F) (h : Keeps F s t) (port : Nat) (a : Nat) : Keeps F s (t.rowError port a) := by
  unfold State.rowError
  repeat' first
    | with_reducible assumption
    | with_reducible refine Keeps.ite ?_ ?_
    | with_reducible first | apply State.keeps_memFault | apply State.keeps_setBank | apply State.keeps_setMemc
    | with_reducible exact hF.sub rfl
    | with_reducible exact id
    | split
    | refine Keeps.ofFst (by assumption) ?_
    | refine Keeps.ofSnd (by assumption) ?_
    | ((fail_if_no_progress extract_lets +onlyGivenNames x); first
      | (have g : State := x; clear g; refine Keeps.cut x ?_ ?_; (on_goal 2 => (intro _; try clear_value x)); (on_goal 1 => subst x))
      | (have g : _ → State := x; clear g; subst x) | (have g : _ → _ → State := x; clear g; subst x) | (have g : Option _ := x; clear g; subst x) | skip)
    | intro

theorem State.keeps_spoil {F : Nat} {s t : State} (hF : Within 2048 F) (h : Keeps F s t) (a : Nat) (len : Nat) : Keeps F s (t.spoil a len) := by
  unfold State.spoil
  repeat' first
    | with_reducible assumption
    | with_reducible first | apply State.keeps_setMemc
    | with_reducible exact hF.sub rfl
    | with_reducible exact id
    | intro

theorem State.keeps_uncorrectable {F : Nat} {s t : State} (hF : Within 412850 F) (h : Keeps F s t) (p : Nat) (a : Nat) : Keeps F s (t.uncorrectable p a) := by
  unfold State.uncorrectable
  repeat' first
    | with_reducible assumption
    | with_reducible first | apply State.keeps_stick | apply State.keeps_tally | apply State.keeps_memNotice | apply State.keeps_errorAt | apply State.keeps_rowError
    | with_reducible exact hF.sub rfl
    | refine Keeps.ofFst (by assumption) ?_
    | refine Keeps.ofSnd (by assumption) ?_
    | ((fail_if_no_progress extract_lets +onlyGivenNames x); first
      | (have g : State := x; clear g; refine Keeps.cut x ?_ ?_; (on_goal 2 => (intro _; try clear_value x)); (on_goal 1 => subst x))
      | (have g : _ → State := x; clear g; subst x) | (have g : _ → _ → State := x; clear g; subst x) | (have g : Option _ := x; clear g; subst x) | skip)
    | intro

theorem State.keeps_repaired {F : Nat} {s t : State} (hF : Within 416946 F) (h : Keeps F s t) (p : Nat) (a : Nat) (good : List Byte) : Keeps F s (t.repaired p a good) := by
  unfold State.repaired
  repeat' first
    | with_reducible assumption
    | with_reducible first | apply State.keeps_stick | apply State.keeps_tally | apply State.keeps_memNotice | apply State.keeps_memFault | apply State.keeps_errorAt | apply State.keeps_rowError | apply State.keeps_writeHbm
    | with_reducible exact hF.sub rfl
    | refine Keeps.ofFst (by assumption) ?_
    | refine Keeps.ofSnd (by assumption) ?_
    | ((fail_if_no_progress extract_lets +onlyGivenNames x); first
      | (have g : State := x; clear g; refine Keeps.cut x ?_ ?_; (on_goal 2 => (intro _; try clear_value x)); (on_goal 1 => subst x))
      | (have g : _ → State := x; clear g; subst x) | (have g : _ → _ → State := x; clear g; subst x) | (have g : Option _ := x; clear g; subst x) | skip)
    | intro

theorem State.keeps_clientUncorrectable {F : Nat} {s t : State} (hF : Within 412850 F) (h : Keeps F s t) (m : Nat) (p : Nat) (a : Nat) : Keeps F s (t.clientUncorrectable m p a) := by
  unfold State.clientUncorrectable
  repeat' first
    | with_reducible assumption
    | with_reducible refine Keeps.ite ?_ ?_
    | with_reducible first | apply State.keeps_memFault
    | with_reducible exact hF.sub rfl
    | split
    | intro

theorem State.keeps_checkBurst {F : Nat} {s t : State} (hF : Within 416946 F) (h : Keeps F s t) (p : Nat) (a : Nat) (len : Nat) (bad : Bool) (copyBad : Bool) : Keeps F s (t.checkBurst p a len bad copyBad).1 := by
  unfold State.checkBurst
  repeat' first
    | with_reducible assumption
    | with_reducible refine Keeps.ite ?_ ?_
    | with_reducible refine Keeps.iteFst ?_ ?_
    | with_reducible first | apply State.keeps_rowError | apply State.keeps_spoil | apply State.keeps_uncorrectable | apply State.keeps_repaired
    | with_reducible exact hF.sub rfl
    | split
    | refine Keeps.ofFst (by assumption) ?_
    | refine Keeps.ofSnd (by assumption) ?_
    | intro

theorem State.keeps_checkRead {F : Nat} {s t : State} (hF : Within 416946 F) (h : Keeps F s t) (p a len : Nat) (bad copyBad : List Nat) :
    Keeps F s (t.checkRead p a len bad copyBad).1 := by
  unfold State.checkRead
  refine Keeps.foldlFst (fun i r k => ?_) _ _ h
  dsimp only
  split
  · exact k
  · exact State.keeps_checkBurst (hF.sub rfl) k ..

theorem State.keeps_lostCheck {F : Nat} {s t : State} (hF : Within 412850 F) (h : Keeps F s t) (m : Nat) (a : Nat) (len : Nat) : Keeps F s (t.lostCheck m a len) := by
  unfold State.lostCheck
  repeat' first
    | with_reducible assumption
    | with_reducible first | apply State.keeps_lostRead
    | with_reducible exact hF.sub rfl
    | split
    | refine Keeps.ofFst (by assumption) ?_
    | refine Keeps.ofSnd (by assumption) ?_
    | intro

theorem State.keeps_memRead {F : Nat} {s t : State} (hF : Within 425138 F) (h : Keeps F s t) (m : Nat) (p : Nat) (a : Nat) (len : Nat) (bad : List Nat) : Keeps F s (t.memRead m p a len bad).1 := by
  unfold State.memRead
  repeat' first
    | with_reducible assumption
    | with_reducible first | apply State.keeps_memAccess | apply State.keeps_portOrder | apply State.keeps_checkRead | apply State.keeps_lostCheck
    | with_reducible exact hF.sub rfl
    | refine Keeps.ofFst (by assumption) ?_
    | refine Keeps.ofSnd (by assumption) ?_
    | ((fail_if_no_progress extract_lets +onlyGivenNames x); first
      | (have g : State := x; clear g; refine Keeps.cut x ?_ ?_; (on_goal 2 => (intro _; try clear_value x)); (on_goal 1 => subst x))
      | (have g : _ → State := x; clear g; subst x) | (have g : _ → _ → State := x; clear g; subst x) | (have g : Option _ := x; clear g; subst x) | skip)
    | intro

theorem State.keeps_delivered {F : Nat} {s t : State} (hF : Within 16777216 F) (h : Keeps F s t) (r : MReq) (checked : List Nat) (uncorr : List Nat) : Keeps F s (t.delivered r checked uncorr).2 := by
  unfold State.delivered
  repeat' first
    | with_reducible assumption
    | with_reducible refine Keeps.ite ?_ ?_
    | with_reducible refine Keeps.iteSnd ?_ ?_
    | with_reducible first | apply keeps_freeBytes
    | with_reducible exact hF.sub rfl
    | split
    | refine Keeps.ofFst (by assumption) ?_
    | refine Keeps.ofSnd (by assumption) ?_
    | ((fail_if_no_progress extract_lets +onlyGivenNames x); first
      | (have g : State := x; clear g; refine Keeps.cut x ?_ ?_; (on_goal 2 => (intro _; try clear_value x)); (on_goal 1 => subst x))
      | (have g : _ → State := x; clear g; subst x) | (have g : _ → _ → State := x; clear g; subst x) | (have g : Option _ := x; clear g; subst x) | skip)
    | intro

theorem State.keeps_memReturn {F : Nat} {s t : State} (hF : Within 17194162 F) (h : Keeps F s t) (id : Nat) (bad : List Nat) (copyBad : List Nat) : Keeps F s (t.memReturn id bad copyBad) := by
  unfold State.memReturn
  repeat' first
    | with_reducible assumption
    | with_reducible refine Keeps.ite ?_ ?_
    | with_reducible first | apply State.keeps_memDone | apply State.keeps_clientUncorrectable | apply State.keeps_checkRead | apply State.keeps_lostCheck | apply State.keeps_delivered | apply State.keeps_setMemc
    | with_reducible exact hF.sub rfl
    | with_reducible exact id
    | split
    | refine Keeps.ofFst (by assumption) ?_
    | refine Keeps.ofSnd (by assumption) ?_
    | ((fail_if_no_progress extract_lets +onlyGivenNames x); first
      | (have g : State := x; clear g; refine Keeps.cut x ?_ ?_; (on_goal 2 => (intro _; try clear_value x)); (on_goal 1 => subst x))
      | (have g : _ → State := x; clear g; subst x) | (have g : _ → _ → State := x; clear g; subst x) | (have g : Option _ := x; clear g; subst x) | skip)
    | intro

theorem State.keeps_softRepaired {F : Nat} {s t : State} (hF : Within 412850 F) (h : Keeps F s t) (k : Nat) : Keeps F s (t.softRepaired k) := by
  unfold State.softRepaired
  repeat' first
    | with_reducible assumption
    | with_reducible first | apply State.keeps_stick | apply State.keeps_memNotice | apply State.keeps_setBank | apply State.keeps_setMemc
    | with_reducible exact hF.sub rfl
    | with_reducible exact id
    | split
    | refine Keeps.ofFst (by assumption) ?_
    | refine Keeps.ofSnd (by assumption) ?_
    | ((fail_if_no_progress extract_lets +onlyGivenNames x); first
      | (have g : State := x; clear g; refine Keeps.cut x ?_ ?_; (on_goal 2 => (intro _; try clear_value x)); (on_goal 1 => subst x))
      | (have g : _ → State := x; clear g; subst x) | (have g : _ → _ → State := x; clear g; subst x) | (have g : Option _ := x; clear g; subst x) | skip)
    | intro

theorem State.keeps_closeRow {F : Nat} {s t : State} (hF : Within 2048 F) (h : Keeps F s t) (k : Nat) : Keeps F s (t.closeRow k) := by
  unfold State.closeRow
  repeat' first
    | with_reducible assumption
    | with_reducible first | apply State.keeps_setBank
    | with_reducible exact hF.sub rfl
    | intro

theorem State.keeps_precharge {F : Nat} {s t : State} (hF : Within 2048 F) (h : Keeps F s t) : Keeps F s (t.precharge) := by
  unfold State.precharge
  repeat' first
    | with_reducible assumption
    | with_reducible first | apply State.keeps_closeRow | apply State.keeps_each
    | with_reducible exact hF.sub rfl
    | intro

theorem State.keeps_enterSelfRefresh {F : Nat} {s t : State} (hF : Within 412850 F) (h : Keeps F s t) : Keeps F s (t.enterSelfRefresh) := by
  unfold State.enterSelfRefresh
  repeat' first
    | with_reducible assumption
    | with_reducible refine Keeps.ite ?_ ?_
    | with_reducible first | apply State.keeps_memNotice | apply State.keeps_precharge | apply State.keeps_setMemc
    | with_reducible exact hF.sub rfl
    | with_reducible exact id
    | split
    | intro

theorem State.keeps_enterRetention {F : Nat} {s t : State} (hF : Within 2050 F) (h : Keeps F s t) : Keeps F s (t.enterRetention) := by
  unfold State.enterRetention
  repeat' first
    | with_reducible assumption
    | with_reducible refine Keeps.ite ?_ ?_
    | with_reducible first | apply State.keeps_stick | apply State.keeps_precharge | apply State.keeps_setMemc
    | with_reducible exact hF.sub rfl
    | with_reducible exact id
    | split
    | refine Keeps.ofFst (by assumption) ?_
    | refine Keeps.ofSnd (by assumption) ?_
    | ((fail_if_no_progress extract_lets +onlyGivenNames x); first
      | (have g : State := x; clear g; refine Keeps.cut x ?_ ?_; (on_goal 2 => (intro _; try clear_value x)); (on_goal 1 => subst x))
      | (have g : _ → State := x; clear g; subst x) | (have g : _ → _ → State := x; clear g; subst x) | (have g : Option _ := x; clear g; subst x) | skip)
    | intro

theorem State.keeps_freqResume {F : Nat} {s t : State} (hF : Within 2048 F) (h : Keeps F s t) : Keeps F s (t.freqResume) := by
  unfold State.freqResume
  repeat' first
    | with_reducible assumption
    | with_reducible first | apply State.keeps_setMemc
    | with_reducible exact hF.sub rfl
    | with_reducible exact id
    | split
    | refine Keeps.ofFst (by assumption) ?_
    | refine Keeps.ofSnd (by assumption) ?_
    | intro

theorem State.keeps_trainRound {F : Nat} {s t : State} (hF : Within 412850 F) (h : Keeps F s t) : Keeps F s (t.trainRound) := by
  unfold State.trainRound
  repeat' first
    | with_reducible assumption
    | with_reducible refine Keeps.ite ?_ ?_
    | with_reducible first | apply State.keeps_stick | apply State.keeps_memNotice | apply State.keeps_freqResume | apply State.keeps_setMemc
    | with_reducible exact hF.sub rfl
    | with_reducible exact id
    | split
    | refine Keeps.ofFst (by assumption) ?_
    | refine Keeps.ofSnd (by assumption) ?_
    | ((fail_if_no_progress extract_lets +onlyGivenNames x); first
      | (have g : State := x; clear g; refine Keeps.cut x ?_ ?_; (on_goal 2 => (intro _; try clear_value x)); (on_goal 1 => subst x))
      | (have g : _ → State := x; clear g; subst x) | (have g : _ → _ → State := x; clear g; subst x) | (have g : Option _ := x; clear g; subst x) | skip)
    | intro

theorem State.keeps_freqWanted {F : Nat} {s t : State} (hF : Within 2048 F) (h : Keeps F s t) (r : Nat) : Keeps F s (t.freqWanted r) := by
  unfold State.freqWanted
  repeat' first
    | with_reducible assumption
    | with_reducible refine Keeps.ite ?_ ?_
    | with_reducible first | apply State.keeps_setMemc
    | with_reducible exact hF.sub rfl
    | with_reducible exact id
    | split
    | refine Keeps.ofFst (by assumption) ?_
    | refine Keeps.ofSnd (by assumption) ?_
    | ((fail_if_no_progress extract_lets +onlyGivenNames x); first
      | (have g : State := x; clear g; refine Keeps.cut x ?_ ?_; (on_goal 2 => (intro _; try clear_value x)); (on_goal 1 => subst x))
      | (have g : _ → State := x; clear g; subst x) | (have g : _ → _ → State := x; clear g; subst x) | (have g : Option _ := x; clear g; subst x) | skip)
    | intro

theorem State.keeps_freqDone {F : Nat} {s t : State} (hF : Within 412850 F) (h : Keeps F s t) (r : Nat) : Keeps F s (t.freqDone r) := by
  unfold State.freqDone
  repeat' first
    | with_reducible assumption
    | with_reducible first | apply State.keeps_stick | apply State.keeps_memNotice | apply State.keeps_freqResume | apply State.keeps_setMemc
    | with_reducible exact hF.sub rfl
    | with_reducible exact id
    | refine Keeps.ofFst (by assumption) ?_
    | refine Keeps.ofSnd (by assumption) ?_
    | ((fail_if_no_progress extract_lets +onlyGivenNames x); first
      | (have g : State := x; clear g; refine Keeps.cut x ?_ ?_; (on_goal 2 => (intro _; try clear_value x)); (on_goal 1 => subst x))
      | (have g : _ → State := x; clear g; subst x) | (have g : _ → _ → State := x; clear g; subst x) | (have g : Option _ := x; clear g; subst x) | skip)
    | intro

theorem State.keeps_freqSwitched {F : Nat} {s t : State} (hF : Within 412850 F) (h : Keeps F s t) : Keeps F s (t.freqSwitched) := by
  unfold State.freqSwitched
  repeat' first
    | with_reducible assumption
    | with_reducible first | apply State.keeps_precharge | apply State.keeps_freqDone | apply State.keeps_setMemc
    | with_reducible exact hF.sub rfl
    | with_reducible exact id
    | split
    | refine Keeps.ofFst (by assumption) ?_
    | refine Keeps.ofSnd (by assumption) ?_
    | intro

theorem State.keeps_freqExpire {F : Nat} {s t : State} (hF : Within 412850 F) (h : Keeps F s t) : Keeps F s (t.freqExpire) := by
  unfold State.freqExpire
  repeat' first
    | with_reducible assumption
    | with_reducible refine Keeps.ite ?_ ?_
    | with_reducible first | apply State.keeps_freqSwitched
    | with_reducible exact hF.sub rfl
    | split
    | intro

end Sys2Proof.Machine
end

