-- ==== Sys2Proof/Laws/WebOps.lean ====
section
/-!
SUPPORT. The operations of Machine/WebOps.lean: the parts of the state that each may change, and what it keeps.
-/

namespace Sys2Proof.Machine

open Sys2Proof

set_option linter.all false

theorem State.keeps_setWeb {F : Nat} {s t : State} (hF : Within 32768 F) (h : Keeps F s t) (x : Web)
    (e0 : Table.rising t.web.ports = true → Table.rising x.ports = true) :
    Keeps F s (t.setWeb x) := h.step (Frame.web' hF t x) rfl rfl fun c => { c with ports := e0 c.ports }

theorem State.keeps_sendOn {F : Nat} {s t : State} (hF : Within 32768 F) (h : Keeps F s t) (p : Nat) (f : Flit) : Keeps F s (t.sendOn p f) := by
  unfold State.sendOn
  repeat' first
    | with_reducible assumption
    | with_reducible first | apply State.keeps_setPort
    | with_reducible exact hF.sub rfl
    | intro

theorem State.keeps_enterPort {F : Nat} {s t : State} (hF : Within 32768 F) (h : Keeps F s t) (p : Nat) (st : PortState) : Keeps F s (t.enterPort p st) := by
  unfold State.enterPort
  repeat' first
    | with_reducible assumption
    | with_reducible first | apply State.keeps_setPort
    | with_reducible exact hF.sub rfl
    | intro

theorem State.keeps_portRetrain {F : Nat} {s t : State} (hF : Within 445618 F) (h : Keeps F s t) (p : Nat) : Keeps F s (t.portRetrain p) := by
  unfold State.portRetrain
  repeat' first
    | with_reducible assumption
    | with_reducible first | apply State.keeps_fault | apply State.keeps_stick | apply State.keeps_tally | apply State.keeps_enterPort
    | with_reducible exact hF.sub rfl
    | refine Keeps.ofFst (by assumption) ?_
    | refine Keeps.ofSnd (by assumption) ?_
    | ((fail_if_no_progress extract_lets +onlyGivenNames x); first
      | (have g : State := x; clear g; refine Keeps.cut x ?_ ?_; (on_goal 2 => (intro _; try clear_value x)); (on_goal 1 => subst x))
      | (have g : _ → State := x; clear g; subst x) | (have g : _ → _ → State := x; clear g; subst x) | (have g : Option _ := x; clear g; subst x) | skip)
    | intro

theorem State.keeps_portFailed {F : Nat} {s t : State} (hF : Within 445618 F) (h : Keeps F s t) (p : Nat) : Keeps F s (t.portFailed p) := by
  unfold State.portFailed
  repeat' first
    | with_reducible assumption
    | with_reducible first | apply State.keeps_fault | apply State.keeps_stick | apply State.keeps_tally | apply State.keeps_setPort
    | with_reducible exact hF.sub rfl
    | refine Keeps.ofFst (by assumption) ?_
    | refine Keeps.ofSnd (by assumption) ?_
    | ((fail_if_no_progress extract_lets +onlyGivenNames x); first
      | (have g : State := x; clear g; refine Keeps.cut x ?_ ?_; (on_goal 2 => (intro _; try clear_value x)); (on_goal 1 => subst x))
      | (have g : _ → State := x; clear g; subst x) | (have g : _ → _ → State := x; clear g; subst x) | (have g : Option _ := x; clear g; subst x) | skip)
    | intro

theorem State.keeps_portAligned {F : Nat} {s t : State} (hF : Within 32768 F) (h : Keeps F s t) (p : Nat) (count : Nat) : Keeps F s (t.portAligned p count) := by
  unfold State.portAligned
  repeat' first
    | with_reducible assumption
    | with_reducible first | apply State.keeps_setPort
    | with_reducible exact hF.sub rfl
    | refine Keeps.ofFst (by assumption) ?_
    | refine Keeps.ofSnd (by assumption) ?_
    | ((fail_if_no_progress extract_lets +onlyGivenNames x); first
      | (have g : State := x; clear g; refine Keeps.cut x ?_ ?_; (on_goal 2 => (intro _; try clear_value x)); (on_goal 1 => subst x))
      | (have g : _ → State := x; clear g; subst x) | (have g : _ → _ → State := x; clear g; subst x) | (have g : Option _ := x; clear g; subst x) | skip)
    | intro

theorem State.keeps_portRetry {F : Nat} {s t : State} (hF : Within 32770 F) (h : Keeps F s t) (p : Nat) : Keeps F s (t.portRetry p) := by
  unfold State.portRetry
  repeat' first
    | with_reducible assumption
    | with_reducible first | apply State.keeps_tally | apply State.keeps_enterPort
    | with_reducible exact hF.sub rfl
    | intro

theorem State.keeps_portUp {F : Nat} {s t : State} (hF : Within 163840 F) (h : Keeps F s t) (p : Nat) : Keeps F s (t.portUp p) := by
  unfold State.portUp
  repeat' first
    | with_reducible assumption
    | with_reducible refine Keeps.ite ?_ ?_
    | with_reducible first | apply State.keeps_clearCondition | apply State.keeps_setPort | apply State.keeps_setWeb
    | with_reducible exact hF.sub rfl
    | with_reducible exact id
    | split
    | refine Keeps.ofFst (by assumption) ?_
    | refine Keeps.ofSnd (by assumption) ?_
    | ((fail_if_no_progress extract_lets +onlyGivenNames x); first
      | (have g : State := x; clear g; refine Keeps.cut x ?_ ?_; (on_goal 2 => (intro _; try clear_value x)); (on_goal 1 => subst x))
      | (have g : _ → State := x; clear g; subst x) | (have g : _ → _ → State := x; clear g; subst x) | (have g : Option _ := x; clear g; subst x) | skip)
    | intro

theorem State.keeps_portDisabled {F : Nat} {s t : State} (hF : Within 32768 F) (h : Keeps F s t) (p : Nat) : Keeps F s (t.portDisabled p) := by
  unfold State.portDisabled
  repeat' first
    | with_reducible assumption
    | with_reducible first | apply State.keeps_setPort
    | with_reducible exact hF.sub rfl
    | refine Keeps.ofFst (by assumption) ?_
    | refine Keeps.ofSnd (by assumption) ?_
    | ((fail_if_no_progress extract_lets +onlyGivenNames x); first
      | (have g : State := x; clear g; refine Keeps.cut x ?_ ?_; (on_goal 2 => (intro _; try clear_value x)); (on_goal 1 => subst x))
      | (have g : _ → State := x; clear g; subst x) | (have g : _ → _ → State := x; clear g; subst x) | (have g : Option _ := x; clear g; subst x) | skip)
    | intro

theorem State.keeps_tryRoute {F : Nat} {s t u : State} (hF : Within 32768 F) (h : Keeps F s t) (f : Flit) (i : Option Nat) (e : t.tryRoute f i = some u) : Keeps F s u := by
  unfold State.tryRoute at e
  split at e <;> cases e
  exact State.keeps_sendOn (hF.sub rfl) h ..

theorem State.keeps_routeFlit {F : Nat} {s t : State} (hF : Within 445618 F) (h : Keeps F s t) (f : Flit) (i : Option Nat) : Keeps F s (t.routeFlit f i) := by
  unfold State.routeFlit
  repeat' first
    | with_reducible assumption
    | with_reducible refine Keeps.ite ?_ ?_
    | with_reducible first | apply State.keeps_log | apply State.keeps_tally
    | refine State.keeps_tryRoute (hF.sub rfl) ?_ (e := by assumption) ..
    | with_reducible exact hF.sub rfl
    | split
    | refine Keeps.ofFst (by assumption) ?_
    | refine Keeps.ofSnd (by assumption) ?_
    | ((fail_if_no_progress extract_lets +onlyGivenNames x); first
      | (have g : State := x; clear g; refine Keeps.cut x ?_ ?_; (on_goal 2 => (intro _; try clear_value x)); (on_goal 1 => subst x))
      | (have g : _ → State := x; clear g; subst x) | (have g : _ → _ → State := x; clear g; subst x) | (have g : Option _ := x; clear g; subst x) | skip)
    | intro

theorem State.keeps_respond {F : Nat} {s t : State} (hF : Within 445618 F) (h : Keeps F s t) (me : Nat) (src : Nat) (type : Nat) (tag : Nat) (len : Nat) (status : Nat) (addr : Nat) (data : List Byte) : Keeps F s (t.respond me src type tag len status addr data) := by
  unfold State.respond
  repeat' first
    | with_reducible assumption
    | with_reducible first | apply State.keeps_routeFlit
    | with_reducible exact hF.sub rfl
    | intro

theorem State.keeps_broadcast {F : Nat} {s t : State} (hF : Within 32768 F) (h : Keeps F s t) (f : Flit) (i : Option Nat) : Keeps F s (t.broadcast f i) := by
  unfold State.broadcast
  repeat' first
    | with_reducible assumption
    | with_reducible refine Keeps.ite ?_ ?_
    | with_reducible first | apply State.keeps_each | apply State.keeps_sendOn
    | with_reducible exact hF.sub rfl
    | split
    | intro

theorem State.keeps_forwardBcast {F : Nat} {s t : State} (hF : Within 445618 F) (h : Keeps F s t) (f : Flit) (p : Nat) : Keeps F s (t.forwardBcast f p) := by
  unfold State.forwardBcast
  repeat' first
    | with_reducible assumption
    | with_reducible refine Keeps.ite ?_ ?_
    | with_reducible first | apply State.keeps_log | apply State.keeps_tally | apply State.keeps_broadcast
    | with_reducible exact hF.sub rfl
    | split
    | refine Keeps.ofFst (by assumption) ?_
    | refine Keeps.ofSnd (by assumption) ?_
    | ((fail_if_no_progress extract_lets +onlyGivenNames x); first
      | (have g : State := x; clear g; refine Keeps.cut x ?_ ?_; (on_goal 2 => (intro _; try clear_value x)); (on_goal 1 => subst x))
      | (have g : _ → State := x; clear g; subst x) | (have g : _ → _ → State := x; clear g; subst x) | (have g : Option _ := x; clear g; subst x) | skip)
    | intro

theorem State.keeps_putOnLink {F : Nat} {s t : State} (hF : Within 32768 F) (h : Keeps F s t) (p : Nat) (f : Flit) (seq : Nat) : Keeps F s (t.putOnLink p f seq) := by
  unfold State.putOnLink
  repeat' first
    | with_reducible assumption
    | with_reducible first | apply State.keeps_setPort
    | with_reducible exact hF.sub rfl
    | refine Keeps.ofFst (by assumption) ?_
    | refine Keeps.ofSnd (by assumption) ?_
    | ((fail_if_no_progress extract_lets +onlyGivenNames x); first
      | (have g : State := x; clear g; refine Keeps.cut x ?_ ?_; (on_goal 2 => (intro _; try clear_value x)); (on_goal 1 => subst x))
      | (have g : _ → State := x; clear g; subst x) | (have g : _ → _ → State := x; clear g; subst x) | (have g : Option _ := x; clear g; subst x) | skip)
    | intro

theorem State.keeps_sendNew {F : Nat} {s t : State} (hF : Within 32768 F) (h : Keeps F s t) (p : Nat) (f : Flit) : Keeps F s (t.sendNew p f) := by
  unfold State.sendNew
  repeat' first
    | with_reducible assumption
    | with_reducible refine Keeps.ite ?_ ?_
    | with_reducible first | apply State.keeps_setPort | apply State.keeps_putOnLink
    | with_reducible exact hF.sub rfl
    | split
    | refine Keeps.ofFst (by assumption) ?_
    | refine Keeps.ofSnd (by assumption) ?_
    | ((fail_if_no_progress extract_lets +onlyGivenNames x); first
      | (have g : State := x; clear g; refine Keeps.cut x ?_ ?_; (on_goal 2 => (intro _; try clear_value x)); (on_goal 1 => subst x))
      | (have g : _ → State := x; clear g; subst x) | (have g : _ → _ → State := x; clear g; subst x) | (have g : Option _ := x; clear g; subst x) | skip)
    | intro

theorem State.keeps_flitSlot {F : Nat} {s t : State} (hF : Within 32768 F) (h : Keeps F s t) (p : Nat) : Keeps F s (t.flitSlot p) := by
  unfold State.flitSlot
  repeat' first
    | with_reducible assumption
    | with_reducible refine Keeps.ite ?_ ?_
    | with_reducible first | apply State.keeps_setPort | apply State.keeps_putOnLink | apply State.keeps_sendNew
    | with_reducible exact hF.sub rfl
    | split
    | refine Keeps.ofFst (by assumption) ?_
    | refine Keeps.ofSnd (by assumption) ?_
    | ((fail_if_no_progress extract_lets +onlyGivenNames x); first
      | (have g : State := x; clear g; refine Keeps.cut x ?_ ?_; (on_goal 2 => (intro _; try clear_value x)); (on_goal 1 => subst x))
      | (have g : _ → State := x; clear g; subst x) | (have g : _ → _ → State := x; clear g; subst x) | (have g : Option _ := x; clear g; subst x) | skip)
    | intro

theorem State.keeps_replay {F : Nat} {s t : State} (hF : Within 445618 F) (h : Keeps F s t) (p : Nat) : Keeps F s (t.replay p) := by
  unfold State.replay
  repeat' first
    | with_reducible assumption
    | with_reducible refine Keeps.ite ?_ ?_
    | with_reducible first | apply State.keeps_tally | apply State.keeps_setPort | apply State.keeps_portRetrain
    | with_reducible exact hF.sub rfl
    | split
    | refine Keeps.ofFst (by assumption) ?_
    | refine Keeps.ofSnd (by assumption) ?_
    | ((fail_if_no_progress extract_lets +onlyGivenNames x); first
      | (have g : State := x; clear g; refine Keeps.cut x ?_ ?_; (on_goal 2 => (intro _; try clear_value x)); (on_goal 1 => subst x))
      | (have g : _ → State := x; clear g; subst x) | (have g : _ → _ → State := x; clear g; subst x) | (have g : Option _ := x; clear g; subst x) | skip)
    | intro

theorem State.keeps_trailer {F : Nat} {s t : State} (hF : Within 445618 F) (h : Keeps F s t) (p : Nat) (f : Flit) : Keeps F s (t.trailer p f) := by
  unfold State.trailer
  repeat' first
    | with_reducible assumption
    | with_reducible refine Keeps.ite ?_ ?_
    | with_reducible first | apply State.keeps_setPort | apply State.keeps_replay
    | with_reducible exact hF.sub rfl
    | split
    | refine Keeps.ofFst (by assumption) ?_
    | refine Keeps.ofSnd (by assumption) ?_
    | ((fail_if_no_progress extract_lets +onlyGivenNames x); first
      | (have g : State := x; clear g; refine Keeps.cut x ?_ ?_; (on_goal 2 => (intro _; try clear_value x)); (on_goal 1 => subst x))
      | (have g : _ → State := x; clear g; subst x) | (have g : _ → _ → State := x; clear g; subst x) | (have g : Option _ := x; clear g; subst x) | skip)
    | intro

theorem State.keeps_discard {F : Nat} {s t : State} (hF : Within 32768 F) (h : Keeps F s t) (p : Nat) : Keeps F s (t.discard p) := by
  unfold State.discard
  repeat' first
    | with_reducible assumption
    | with_reducible first | apply State.keeps_setPort
    | with_reducible exact hF.sub rfl
    | refine Keeps.ofFst (by assumption) ?_
    | refine Keeps.ofSnd (by assumption) ?_
    | ((fail_if_no_progress extract_lets +onlyGivenNames x); first
      | (have g : State := x; clear g; refine Keeps.cut x ?_ ?_; (on_goal 2 => (intro _; try clear_value x)); (on_goal 1 => subst x))
      | (have g : _ → State := x; clear g; subst x) | (have g : _ → _ → State := x; clear g; subst x) | (have g : Option _ := x; clear g; subst x) | skip)
    | intro

theorem State.keeps_badType {F : Nat} {s t : State} (hF : Within 412850 F) (h : Keeps F s t) (p : Nat) : Keeps F s (t.badType p) := by
  unfold State.badType
  repeat' first
    | with_reducible assumption
    | with_reducible first | apply State.keeps_log
    | with_reducible exact hF.sub rfl
    | intro

theorem State.keeps_takeReq {F : Nat} {s t : State} (hF : Within 32768 F) (h : Keeps F s t) (p : Nat) (f : Flit) : Keeps F s (t.takeReq p f) := by
  unfold State.takeReq
  repeat' first
    | with_reducible assumption
    | with_reducible refine Keeps.ite ?_ ?_
    | with_reducible first | apply State.keeps_setPort | apply State.keeps_setWeb
    | with_reducible exact hF.sub rfl
    | with_reducible exact id
    | split
    | refine Keeps.ofFst (by assumption) ?_
    | refine Keeps.ofSnd (by assumption) ?_
    | ((fail_if_no_progress extract_lets +onlyGivenNames x); first
      | (have g : State := x; clear g; refine Keeps.cut x ?_ ?_; (on_goal 2 => (intro _; try clear_value x)); (on_goal 1 => subst x))
      | (have g : _ → State := x; clear g; subst x) | (have g : _ → _ → State := x; clear g; subst x) | (have g : Option _ := x; clear g; subst x) | skip)
    | intro

theorem State.keeps_deliverFlit {F : Nat} {s t : State} (hF : Within 445618 F) (h : Keeps F s t) (p : Nat) (f : Flit) : Keeps F s (t.deliverFlit p f) := by
  unfold State.deliverFlit
  repeat' first
    | with_reducible assumption
    | with_reducible refine Keeps.ite ?_ ?_
    | with_reducible first | apply State.keeps_setPort | apply State.keeps_routeFlit | apply State.keeps_badType | apply State.keeps_takeReq
    | with_reducible exact hF.sub rfl
    | split
    | refine Keeps.ofFst (by assumption) ?_
    | refine Keeps.ofSnd (by assumption) ?_
    | ((fail_if_no_progress extract_lets +onlyGivenNames x); first
      | (have g : State := x; clear g; refine Keeps.cut x ?_ ?_; (on_goal 2 => (intro _; try clear_value x)); (on_goal 1 => subst x))
      | (have g : _ → State := x; clear g; subst x) | (have g : _ → _ → State := x; clear g; subst x) | (have g : Option _ := x; clear g; subst x) | skip)
    | intro

theorem State.keeps_seqSeen {F : Nat} {s t : State} (hF : Within 32768 F) (h : Keeps F s t) (p : Nat) : Keeps F s (t.seqSeen p) := by
  unfold State.seqSeen
  repeat' first
    | with_reducible assumption
    | with_reducible first | apply State.keeps_setPort
    | with_reducible exact hF.sub rfl
    | intro

theorem State.keeps_receiveFlit {F : Nat} {s t : State} (hF : Within 445618 F) (h : Keeps F s t) (p : Nat) (f : Flit) (ok : Bool) : Keeps F s (t.receiveFlit p f ok) := by
  unfold State.receiveFlit
  repeat' first
    | with_reducible assumption
    | with_reducible refine Keeps.ite ?_ ?_
    | with_reducible first | apply State.keeps_tally | apply State.keeps_setPort | apply State.keeps_trailer | apply State.keeps_discard | apply State.keeps_deliverFlit | apply State.keeps_seqSeen
    | with_reducible exact hF.sub rfl
    | split
    | refine Keeps.ofFst (by assumption) ?_
    | refine Keeps.ofSnd (by assumption) ?_
    | ((fail_if_no_progress extract_lets +onlyGivenNames x); first
      | (have g : State := x; clear g; refine Keeps.cut x ?_ ?_; (on_goal 2 => (intro _; try clear_value x)); (on_goal 1 => subst x))
      | (have g : _ → State := x; clear g; subst x) | (have g : _ → _ → State := x; clear g; subst x) | (have g : Option _ := x; clear g; subst x) | skip)
    | intro

theorem State.keeps_served {F : Nat} {s t : State} (hF : Within 32768 F) (h : Keeps F s t) (src : Nat) (type : Nat) (tag : Nat) : Keeps F s (t.served src type tag) := by
  unfold State.served
  repeat' first
    | with_reducible assumption
    | ((fail_if_no_progress extract_lets +onlyGivenNames x); first
      | (have g : State := x; clear g; refine Keeps.cut x ?_ ?_; (on_goal 2 => (intro _; try clear_value x)); (on_goal 1 => subst x))
      | (have g : _ → State := x; clear g; subst x) | (have g : _ → _ → State := x; clear g; subst x) | (have g : Option _ := x; clear g; subst x) | skip)
    | with_reducible refine Keeps.ite ?_ ?_
    | with_reducible first | apply State.keeps_setWeb | apply State.keeps_takeReq
    | with_reducible exact hF.sub rfl
    | with_reducible exact id
    | split
    | refine Keeps.ofFst (by assumption) ?_
    | refine Keeps.ofSnd (by assumption) ?_
    | intro

theorem State.keeps_eyeItem {F : Nat} {s t : State} (hF : Within 412850 F) (h : Keeps F s t) (p : Nat) (l : Nat) : Keeps F s (t.eyeItem p l) := by
  unfold State.eyeItem
  repeat' first
    | with_reducible assumption
    | with_reducible first | apply State.keeps_agentItem
    | with_reducible exact hF.sub rfl
    | refine Keeps.ofFst (by assumption) ?_
    | refine Keeps.ofSnd (by assumption) ?_
    | ((fail_if_no_progress extract_lets +onlyGivenNames x); first
      | (have g : State := x; clear g; refine Keeps.cut x ?_ ?_; (on_goal 2 => (intro _; try clear_value x)); (on_goal 1 => subst x))
      | (have g : _ → State := x; clear g; subst x) | (have g : _ → _ → State := x; clear g; subst x) | (have g : Option _ := x; clear g; subst x) | skip)
    | intro

theorem State.keeps_askSpare {F : Nat} {s t : State} (hF : Within 1081344 F) (h : Keeps F s t) (p : Nat) (logical : Nat) : Keeps F s (t.askSpare p logical) := by
  unfold State.askSpare
  repeat' first
    | with_reducible assumption
    | with_reducible refine Keeps.ite ?_ ?_
    | with_reducible first | apply State.keeps_setPort | apply State.keeps_sendOn
    | fail_if_no_progress (with_reducible refine Keeps.pwr' (hF.sub rfl) ?_ (by with_reducible rfl))
    | with_reducible exact hF.sub rfl
    | split
    | refine Keeps.ofFst (by assumption) ?_
    | refine Keeps.ofSnd (by assumption) ?_
    | ((fail_if_no_progress extract_lets +onlyGivenNames x); first
      | (have g : State := x; clear g; refine Keeps.cut x ?_ ?_; (on_goal 2 => (intro _; try clear_value x)); (on_goal 1 => subst x))
      | (have g : _ → State := x; clear g; subst x) | (have g : _ → _ → State := x; clear g; subst x) | (have g : Option _ := x; clear g; subst x) | skip)
    | intro

theorem State.keeps_laneHealth {F : Nat} {s t : State} (hF : Within 445618 F) (h : Keeps F s t) (p : Nat) (l : Nat) (v : Lane) : Keeps F s (t.laneHealth p l v) := by
  unfold State.laneHealth
  repeat' first
    | with_reducible assumption
    | with_reducible refine Keeps.ite ?_ ?_
    | with_reducible first | apply State.keeps_setPort | apply State.keeps_eyeItem
    | with_reducible exact hF.sub rfl
    | split
    | refine Keeps.ofFst (by assumption) ?_
    | refine Keeps.ofSnd (by assumption) ?_
    | ((fail_if_no_progress extract_lets +onlyGivenNames x); first
      | (have g : State := x; clear g; refine Keeps.cut x ?_ ?_; (on_goal 2 => (intro _; try clear_value x)); (on_goal 1 => subst x))
      | (have g : _ → State := x; clear g; subst x) | (have g : _ → _ → State := x; clear g; subst x) | (have g : Option _ := x; clear g; subst x) | skip)
    | intro

theorem State.keeps_laneFailed {F : Nat} {s t : State} (hF : Within 1494194 F) (h : Keeps F s t) (p : Nat) (l : Nat) : Keeps F s (t.laneFailed p l) := by
  unfold State.laneFailed
  repeat' first
    | with_reducible assumption
    | with_reducible refine Keeps.ite ?_ ?_
    | with_reducible first | apply State.keeps_log | apply State.keeps_stick | apply State.keeps_setPort | apply State.keeps_portRetrain | apply State.keeps_askSpare | apply State.keeps_laneHealth
    | with_reducible exact hF.sub rfl
    | split
    | refine Keeps.ofFst (by assumption) ?_
    | refine Keeps.ofSnd (by assumption) ?_
    | ((fail_if_no_progress extract_lets +onlyGivenNames x); first
      | (have g : State := x; clear g; refine Keeps.cut x ?_ ?_; (on_goal 2 => (intro _; try clear_value x)); (on_goal 1 => subst x))
      | (have g : _ → State := x; clear g; subst x) | (have g : _ → _ → State := x; clear g; subst x) | (have g : Option _ := x; clear g; subst x) | skip)
    | intro

theorem State.keeps_measureLane {F : Nat} {s t : State} (hF : Within 1494194 F) (h : Keeps F s t) (p : Nat) (l : Nat) (width : Nat) (height : Nat) : Keeps F s (t.measureLane p l width height) := by
  unfold State.measureLane
  repeat' first
    | with_reducible assumption
    | with_reducible refine Keeps.ite ?_ ?_
    | with_reducible first | apply State.keeps_stick | apply State.keeps_setPort | apply State.keeps_askSpare | apply State.keeps_laneHealth | apply State.keeps_laneFailed
    | with_reducible exact hF.sub rfl
    | split
    | refine Keeps.ofFst (by assumption) ?_
    | refine Keeps.ofSnd (by assumption) ?_
    | ((fail_if_no_progress extract_lets +onlyGivenNames x); first
      | (have g : State := x; clear g; refine Keeps.cut x ?_ ?_; (on_goal 2 => (intro _; try clear_value x)); (on_goal 1 => subst x))
      | (have g : _ → State := x; clear g; subst x) | (have g : _ → _ → State := x; clear g; subst x) | (have g : Option _ := x; clear g; subst x) | skip)
    | intro

theorem State.keeps_chargeLanes {F : Nat} {s t : State} (hF : Within 1494194 F) (h : Keeps F s t) (p : Nat) (errs : List Nat) : Keeps F s (t.chargeLanes p errs) := by
  unfold State.chargeLanes
  repeat' first
    | with_reducible assumption
    | with_reducible refine Keeps.ite ?_ ?_
    | with_reducible first | apply State.keeps_setFld | apply State.keeps_setPort | apply State.keeps_each | apply State.keeps_laneFailed
    | with_reducible exact hF.sub rfl
    | split
    | refine Keeps.ofFst (by assumption) ?_
    | refine Keeps.ofSnd (by assumption) ?_
    | ((fail_if_no_progress extract_lets +onlyGivenNames x); first
      | (have g : State := x; clear g; refine Keeps.cut x ?_ ?_; (on_goal 2 => (intro _; try clear_value x)); (on_goal 1 => subst x))
      | (have g : _ → State := x; clear g; subst x) | (have g : _ → _ → State := x; clear g; subst x) | (have g : Option _ := x; clear g; subst x) | skip)
    | intro

theorem State.keeps_takeCodeword {F : Nat} {s t : State} (hF : Within 1494194 F) (h : Keeps F s t) (p : Nat) (errs : List Nat) : Keeps F s (t.takeCodeword p errs).1 := by
  unfold State.takeCodeword
  repeat' first
    | with_reducible assumption
    | with_reducible refine Keeps.ite ?_ ?_
    | with_reducible refine Keeps.iteFst ?_ ?_
    | with_reducible first | apply State.keeps_setPort | apply State.keeps_chargeLanes
    | with_reducible exact hF.sub rfl
    | split
    | refine Keeps.ofFst (by assumption) ?_
    | refine Keeps.ofSnd (by assumption) ?_
    | ((fail_if_no_progress extract_lets +onlyGivenNames x); first
      | (have g : State := x; clear g; refine Keeps.cut x ?_ ?_; (on_goal 2 => (intro _; try clear_value x)); (on_goal 1 => subst x))
      | (have g : _ → State := x; clear g; subst x) | (have g : _ → _ → State := x; clear g; subst x) | (have g : Option _ := x; clear g; subst x) | skip)
    | intro

theorem State.keeps_swapLane {F : Nat} {s t : State} (hF : Within 445618 F) (h : Keeps F s t) (p : Nat) (d : Dir) : Keeps F s (t.swapLane p d) := by
  unfold State.swapLane
  repeat' first
    | with_reducible assumption
    | with_reducible refine Keeps.ite ?_ ?_
    | with_reducible first | apply State.keeps_log | apply State.keeps_stick | apply State.keeps_setPort | apply State.keeps_laneHealth
    | with_reducible exact hF.sub rfl
    | split
    | refine Keeps.ofFst (by assumption) ?_
    | refine Keeps.ofSnd (by assumption) ?_
    | ((fail_if_no_progress extract_lets +onlyGivenNames x); first
      | (have g : State := x; clear g; refine Keeps.cut x ?_ ?_; (on_goal 2 => (intro _; try clear_value x)); (on_goal 1 => subst x))
      | (have g : _ → State := x; clear g; subst x) | (have g : _ → _ → State := x; clear g; subst x) | (have g : Option _ := x; clear g; subst x) | skip)
    | intro

theorem State.keeps_lanesOn {F : Nat} {s t : State} (hF : Within 445618 F) (h : Keeps F s t) (p : Nat) : Keeps F s (t.lanesOn p) := by
  unfold State.lanesOn
  repeat' first
    | with_reducible assumption
    | with_reducible refine Keeps.ite ?_ ?_
    | with_reducible first | apply State.keeps_each | apply State.keeps_laneHealth
    | with_reducible exact hF.sub rfl
    | split
    | refine Keeps.ofFst (by assumption) ?_
    | refine Keeps.ofSnd (by assumption) ?_
    | ((fail_if_no_progress extract_lets +onlyGivenNames x); first
      | (have g : State := x; clear g; refine Keeps.cut x ?_ ?_; (on_goal 2 => (intro _; try clear_value x)); (on_goal 1 => subst x))
      | (have g : _ → State := x; clear g; subst x) | (have g : _ → _ → State := x; clear g; subst x) | (have g : Option _ := x; clear g; subst x) | skip)
    | intro

theorem State.keeps_rateResume {F : Nat} {s t : State} (hF : Within 32768 F) (h : Keeps F s t) (p : Nat) : Keeps F s (t.rateResume p) := by
  unfold State.rateResume
  repeat' first
    | with_reducible assumption
    | with_reducible refine Keeps.ite ?_ ?_
    | with_reducible first | apply State.keeps_setPort | apply State.keeps_sendOn
    | with_reducible exact hF.sub rfl
    | split
    | refine Keeps.ofFst (by assumption) ?_
    | refine Keeps.ofSnd (by assumption) ?_
    | ((fail_if_no_progress extract_lets +onlyGivenNames x); first
      | (have g : State := x; clear g; refine Keeps.cut x ?_ ?_; (on_goal 2 => (intro _; try clear_value x)); (on_goal 1 => subst x))
      | (have g : _ → State := x; clear g; subst x) | (have g : _ → _ → State := x; clear g; subst x) | (have g : Option _ := x; clear g; subst x) | skip)
    | intro

theorem State.keeps_rateWanted {F : Nat} {s t : State} (hF : Within 32768 F) (h : Keeps F s t) (p : Nat) (r : Nat) : Keeps F s (t.rateWanted p r) := by
  unfold State.rateWanted
  repeat' first
    | with_reducible assumption
    | with_reducible refine Keeps.ite ?_ ?_
    | with_reducible first | apply State.keeps_setPort | apply State.keeps_sendOn
    | with_reducible exact hF.sub rfl
    | split
    | refine Keeps.ofFst (by assumption) ?_
    | refine Keeps.ofSnd (by assumption) ?_
    | ((fail_if_no_progress extract_lets +onlyGivenNames x); first
      | (have g : State := x; clear g; refine Keeps.cut x ?_ ?_; (on_goal 2 => (intro _; try clear_value x)); (on_goal 1 => subst x))
      | (have g : _ → State := x; clear g; subst x) | (have g : _ → _ → State := x; clear g; subst x) | (have g : Option _ := x; clear g; subst x) | skip)
    | intro

end Sys2Proof.Machine
end

