-- ==== Sys2Proof/Laws/ForceOps.lean ====
section
/-!
SUPPORT. The operations of Machine/ForceOps.lean: the parts of the state that each may change, and what it keeps.
-/

namespace Sys2Proof.Machine

open Sys2Proof

set_option linter.all false

theorem State.keeps_applyForce {F : Nat} {s t : State} (hF : Within 34 F) (h : Keeps F s t) (n : Nat) (c : ForceCmd) : Keeps F s (t.applyForce n c) := by
  unfold State.applyForce
  repeat' first
    | with_reducible assumption
    | with_reducible refine Keeps.ite ?_ ?_
    | with_reducible first | apply State.keeps_wr | apply State.keeps_setForce
    | with_reducible exact hF.sub rfl
    | split
    | refine Keeps.ofFst (by assumption) ?_
    | refine Keeps.ofSnd (by assumption) ?_
    | ((fail_if_no_progress extract_lets +onlyGivenNames x); first
      | (have g : State := x; clear g; refine Keeps.cut x ?_ ?_; (on_goal 2 => (intro _; try clear_value x)); (on_goal 1 => subst x))
      | (have g : _ → State := x; clear g; subst x) | (have g : _ → _ → State := x; clear g; subst x) | (have g : Option _ := x; clear g; subst x) | skip)
    | intro

theorem State.keeps_acceptForce {F : Nat} {s t : State} (hF : Within 34 F) (h : Keeps F s t) (n : Nat) (c0 : ForceCmd) : Keeps F s (t.acceptForce n c0) := by
  unfold State.acceptForce
  repeat' first
    | with_reducible assumption
    | with_reducible refine Keeps.ite ?_ ?_
    | with_reducible first | apply State.keeps_wr | apply State.keeps_applyForce | apply State.keeps_setForce
    | with_reducible exact hF.sub rfl
    | split
    | refine Keeps.ofFst (by assumption) ?_
    | refine Keeps.ofSnd (by assumption) ?_
    | ((fail_if_no_progress extract_lets +onlyGivenNames x); first
      | (have g : State := x; clear g; refine Keeps.cut x ?_ ?_; (on_goal 2 => (intro _; try clear_value x)); (on_goal 1 => subst x))
      | (have g : _ → State := x; clear g; subst x) | (have g : _ → _ → State := x; clear g; subst x) | (have g : Option _ := x; clear g; subst x) | skip)
    | intro

theorem State.keeps_refuseForce {F : Nat} {s t : State} (hF : Within 412850 F) (h : Keeps F s t) (n : Nat) (m : Option Nat) : Keeps F s (t.refuseForce n m) := by
  unfold State.refuseForce
  repeat' first
    | with_reducible assumption
    | with_reducible first | apply State.keeps_fault | apply State.keeps_writeFault | apply State.keeps_stick
    | with_reducible exact hF.sub rfl
    | split
    | refine Keeps.ofFst (by assumption) ?_
    | refine Keeps.ofSnd (by assumption) ?_
    | ((fail_if_no_progress extract_lets +onlyGivenNames x); first
      | (have g : State := x; clear g; refine Keeps.cut x ?_ ?_; (on_goal 2 => (intro _; try clear_value x)); (on_goal 1 => subst x))
      | (have g : _ → State := x; clear g; subst x) | (have g : _ → _ → State := x; clear g; subst x) | (have g : Option _ := x; clear g; subst x) | skip)
    | intro

theorem State.keeps_enterZeroed {F : Nat} {s t : State} (hF : Within 34 F) (h : Keeps F s t) (n : Nat) : Keeps F s (t.enterZeroed n) := by
  unfold State.enterZeroed
  repeat' first
    | with_reducible assumption
    | with_reducible refine Keeps.ite ?_ ?_
    | with_reducible first | apply State.keeps_wr | apply State.keeps_setForce
    | with_reducible exact hF.sub rfl
    | split
    | refine Keeps.ofFst (by assumption) ?_
    | refine Keeps.ofSnd (by assumption) ?_
    | ((fail_if_no_progress extract_lets +onlyGivenNames x); first
      | (have g : State := x; clear g; refine Keeps.cut x ?_ ?_; (on_goal 2 => (intro _; try clear_value x)); (on_goal 1 => subst x))
      | (have g : _ → State := x; clear g; subst x) | (have g : _ → _ → State := x; clear g; subst x) | (have g : Option _ := x; clear g; subst x) | skip)
    | intro

theorem State.keeps_zeroRange {F : Nat} {s t : State} (hF : Within 34 F) (h : Keeps F s t) (n : Nat) (b : Nat) : Keeps F s (t.zeroRange n b) := by
  unfold State.zeroRange
  repeat' first
    | with_reducible assumption
    | with_reducible refine Keeps.ite ?_ ?_
    | with_reducible first | apply State.keeps_enterZeroed | apply State.keeps_setForce
    | with_reducible exact hF.sub rfl
    | split
    | refine Keeps.ofFst (by assumption) ?_
    | refine Keeps.ofSnd (by assumption) ?_
    | ((fail_if_no_progress extract_lets +onlyGivenNames x); first
      | (have g : State := x; clear g; refine Keeps.cut x ?_ ?_; (on_goal 2 => (intro _; try clear_value x)); (on_goal 1 => subst x))
      | (have g : _ → State := x; clear g; subst x) | (have g : _ → _ → State := x; clear g; subst x) | (have g : Option _ := x; clear g; subst x) | skip)
    | intro

theorem State.keeps_afterChange {F : Nat} {s t : State} (hF : Within 34 F) (h : Keeps F s t) (n : Nat) (mode : Bool) : Keeps F s (t.afterChange n mode) := by
  unfold State.afterChange
  repeat' first
    | with_reducible assumption
    | with_reducible refine Keeps.ite ?_ ?_
    | with_reducible first | apply State.keeps_applyForce | apply State.keeps_setForce
    | with_reducible exact hF.sub rfl
    | split
    | refine Keeps.ofFst (by assumption) ?_
    | refine Keeps.ofSnd (by assumption) ?_
    | ((fail_if_no_progress extract_lets +onlyGivenNames x); first
      | (have g : State := x; clear g; refine Keeps.cut x ?_ ?_; (on_goal 2 => (intro _; try clear_value x)); (on_goal 1 => subst x))
      | (have g : _ → State := x; clear g; subst x) | (have g : _ → _ → State := x; clear g; subst x) | (have g : Option _ := x; clear g; subst x) | skip)
    | intro

theorem State.keeps_runSteps {F : Nat} {s : State} (hF : Within 34 F) (n b : Nat) : ∀ (k : Nat) (meas : Option Int) {t : State} (_ : Keeps F s t), Keeps F s (State.runSteps n b meas k t)
  | 0, _, _, h => h
  | k + 1, meas, t, h => by
    unfold State.runSteps
    dsimp only
    repeat' split
    all_goals first
      | assumption
      | exact State.keeps_setForce (hF.sub rfl) h ..
      | exact State.keeps_runSteps (hF.sub rfl) n b k _ (State.keeps_setForce (hF.sub rfl) h ..)
      | exact State.keeps_afterChange (hF.sub rfl) (State.keeps_stick (hF.sub rfl) h ..) ..
      | exact State.keeps_enterZeroed (hF.sub rfl) h ..
      | exact State.keeps_enterZeroed (hF.sub rfl) (State.keeps_stick (hF.sub rfl) h ..) ..
      | exact State.keeps_zeroRange (hF.sub rfl) h ..

theorem State.keeps_dacBoundary {F : Nat} {s t : State} (hF : Within 34 F) (h : Keeps F s t) (n : Nat) (b : Nat) (k : Nat) (meas : Int) : Keeps F s (t.dacBoundary n b k meas) := by
  unfold State.dacBoundary
  repeat' first
    | with_reducible assumption
    | with_reducible refine Keeps.ite ?_ ?_
    | with_reducible first | apply State.keeps_runSteps | apply State.keeps_setForce
    | with_reducible exact hF.sub rfl
    | split
    | refine Keeps.ofFst (by assumption) ?_
    | refine Keeps.ofSnd (by assumption) ?_
    | ((fail_if_no_progress extract_lets +onlyGivenNames x); first
      | (have g : State := x; clear g; refine Keeps.cut x ?_ ?_; (on_goal 2 => (intro _; try clear_value x)); (on_goal 1 => subst x))
      | (have g : _ → State := x; clear g; subst x) | (have g : _ → _ → State := x; clear g; subst x) | (have g : Option _ := x; clear g; subst x) | skip)
    | intro

theorem State.keeps_disableForce {F : Nat} {s t : State} (hF : Within 32 F) (h : Keeps F s t) (n : Nat) : Keeps F s (t.disableForce n) := by
  unfold State.disableForce
  repeat' first
    | with_reducible assumption
    | with_reducible first | apply State.keeps_setForce
    | with_reducible exact hF.sub rfl
    | split
    | refine Keeps.ofFst (by assumption) ?_
    | refine Keeps.ofSnd (by assumption) ?_
    | ((fail_if_no_progress extract_lets +onlyGivenNames x); first
      | (have g : State := x; clear g; refine Keeps.cut x ?_ ?_; (on_goal 2 => (intro _; try clear_value x)); (on_goal 1 => subst x))
      | (have g : _ → State := x; clear g; subst x) | (have g : _ → _ → State := x; clear g; subst x) | (have g : Option _ := x; clear g; subst x) | skip)
    | intro

theorem State.keeps_dropForce {F : Nat} {s t : State} (hF : Within 131106 F) (h : Keeps F s t) (n : Nat) : Keeps F s (t.dropForce n) := by
  unfold State.dropForce
  repeat' first
    | with_reducible assumption
    | with_reducible refine Keeps.ite ?_ ?_
    | with_reducible first | apply State.keeps_recovered | apply State.keeps_clearCondition | apply State.keeps_setForce
    | with_reducible exact hF.sub rfl
    | split
    | refine Keeps.ofFst (by assumption) ?_
    | refine Keeps.ofSnd (by assumption) ?_
    | ((fail_if_no_progress extract_lets +onlyGivenNames x); first
      | (have g : State := x; clear g; refine Keeps.cut x ?_ ?_; (on_goal 2 => (intro _; try clear_value x)); (on_goal 1 => subst x))
      | (have g : _ → State := x; clear g; subst x) | (have g : _ → _ → State := x; clear g; subst x) | (have g : Option _ := x; clear g; subst x) | skip)
    | intro

theorem State.keeps_attach {F : Nat} {s t : State} (hF : Within 393650 F) (h : Keeps F s t) (n : Nat) : Keeps F s (t.attach n) := by
  unfold State.attach
  repeat' first
    | with_reducible assumption
    | with_reducible refine Keeps.ite ?_ ?_
    | with_reducible first | apply State.keeps_enterSafe | apply State.keeps_wr | apply State.keeps_setFld | apply State.keeps_setForce | apply State.keeps_setRes
    | with_reducible exact hF.sub rfl
    | split
    | refine Keeps.ofFst (by assumption) ?_
    | refine Keeps.ofSnd (by assumption) ?_
    | ((fail_if_no_progress extract_lets +onlyGivenNames x); first
      | (have g : State := x; clear g; refine Keeps.cut x ?_ ?_; (on_goal 2 => (intro _; try clear_value x)); (on_goal 1 => subst x))
      | (have g : _ → State := x; clear g; subst x) | (have g : _ → _ → State := x; clear g; subst x) | (have g : Option _ := x; clear g; subst x) | skip)
    | intro

end Sys2Proof.Machine
end

