-- ==== Sys2Proof/Laws/MeasOps.lean ====
section
/-!
SUPPORT. The operations of Machine/MeasOps.lean: the parts of the state that each may change, and what it keeps.
-/

namespace Sys2Proof.Machine

open Sys2Proof

set_option linter.all false

theorem State.keeps_autorangeHeld {F : Nat} {s t : State} (hF : Within 64 F) (h : Keeps F s t) (n : Nat) (old : Word) : Keeps F s (t.autorangeHeld n old) := by
  unfold State.autorangeHeld
  repeat' first
    | with_reducible assumption
    | with_reducible refine Keeps.ite ?_ ?_
    | with_reducible first | apply State.keeps_setSeq
    | with_reducible exact hF.sub rfl
    | split
    | refine Keeps.ofFst (by assumption) ?_
    | refine Keeps.ofSnd (by assumption) ?_
    | ((fail_if_no_progress extract_lets +onlyGivenNames x); first
      | (have g : State := x; clear g; refine Keeps.cut x ?_ ?_; (on_goal 2 => (intro _; try clear_value x)); (on_goal 1 => subst x))
      | (have g : _ → State := x; clear g; subst x) | (have g : _ → _ → State := x; clear g; subst x) | (have g : Option _ := x; clear g; subst x) | skip)
    | intro

theorem State.keeps_beginEntry {F : Nat} {s t : State} (hF : Within 64 F) (h : Keeps F s t) (n : Nat) (e : Nat) (u' : Nat) : Keeps F s (t.beginEntry n e u') := by
  unfold State.beginEntry
  repeat' first
    | with_reducible assumption
    | with_reducible refine Keeps.ite ?_ ?_
    | with_reducible first | apply State.keeps_setSeq
    | with_reducible exact hF.sub rfl
    | split
    | refine Keeps.ofFst (by assumption) ?_
    | refine Keeps.ofSnd (by assumption) ?_
    | ((fail_if_no_progress extract_lets +onlyGivenNames x); first
      | (have g : State := x; clear g; refine Keeps.cut x ?_ ?_; (on_goal 2 => (intro _; try clear_value x)); (on_goal 1 => subst x))
      | (have g : _ → State := x; clear g; subst x) | (have g : _ → _ → State := x; clear g; subst x) | (have g : Option _ := x; clear g; subst x) | skip)
    | intro

theorem State.keeps_beginZero {F : Nat} {s t : State} (hF : Within 64 F) (h : Keeps F s t) (n : Nat) (u' : Nat) : Keeps F s (t.beginZero n u') := by
  unfold State.beginZero
  repeat' first
    | with_reducible assumption
    | with_reducible first | apply State.keeps_beginEntry | apply State.keeps_setSeq
    | with_reducible exact hF.sub rfl
    | intro

theorem State.keeps_startAtSlot {F : Nat} {s t : State} (hF : Within 64 F) (h : Keeps F s t) (n : Nat) (u' : Nat) : Keeps F s (t.startAtSlot n u') := by
  unfold State.startAtSlot
  repeat' first
    | with_reducible assumption
    | with_reducible refine Keeps.ite ?_ ?_
    | with_reducible first | apply State.keeps_beginZero | apply State.keeps_setSeq
    | with_reducible exact hF.sub rfl
    | split
    | refine Keeps.ofFst (by assumption) ?_
    | refine Keeps.ofSnd (by assumption) ?_
    | ((fail_if_no_progress extract_lets +onlyGivenNames x); first
      | (have g : State := x; clear g; refine Keeps.cut x ?_ ?_; (on_goal 2 => (intro _; try clear_value x)); (on_goal 1 => subst x))
      | (have g : _ → State := x; clear g; subst x) | (have g : _ → _ → State := x; clear g; subst x) | (have g : Option _ := x; clear g; subst x) | skip)
    | intro

theorem State.keeps_nextEntry {F : Nat} {s t : State} (hF : Within 64 F) (h : Keeps F s t) (n : Nat) : Keeps F s (t.nextEntry n) := by
  unfold State.nextEntry
  repeat' first
    | with_reducible assumption
    | with_reducible refine Keeps.ite ?_ ?_
    | with_reducible first | apply State.keeps_beginEntry | apply State.keeps_setSeq
    | with_reducible exact hF.sub rfl
    | split
    | refine Keeps.ofFst (by assumption) ?_
    | refine Keeps.ofSnd (by assumption) ?_
    | ((fail_if_no_progress extract_lets +onlyGivenNames x); first
      | (have g : State := x; clear g; refine Keeps.cut x ?_ ?_; (on_goal 2 => (intro _; try clear_value x)); (on_goal 1 => subst x))
      | (have g : _ → State := x; clear g; subst x) | (have g : _ → _ → State := x; clear g; subst x) | (have g : Option _ := x; clear g; subst x) | skip)
    | intro

theorem State.keeps_startSeq {F : Nat} {s t : State} (hF : Within 64 F) (h : Keeps F s t) (n : Nat) : Keeps F s (t.startSeq n) := by
  unfold State.startSeq
  repeat' first
    | with_reducible assumption
    | with_reducible refine Keeps.ite ?_ ?_
    | with_reducible first | apply State.keeps_startAtSlot | apply State.keeps_setSeq
    | with_reducible exact hF.sub rfl
    | split
    | refine Keeps.ofFst (by assumption) ?_
    | refine Keeps.ofSnd (by assumption) ?_
    | ((fail_if_no_progress extract_lets +onlyGivenNames x); first
      | (have g : State := x; clear g; refine Keeps.cut x ?_ ?_; (on_goal 2 => (intro _; try clear_value x)); (on_goal 1 => subst x))
      | (have g : _ → State := x; clear g; subst x) | (have g : _ → _ → State := x; clear g; subst x) | (have g : Option _ := x; clear g; subst x) | skip)
    | intro

theorem State.keeps_stopSeq {F : Nat} {s t : State} (hF : Within 64 F) (h : Keeps F s t) (n : Nat) : Keeps F s (t.stopSeq n) := by
  unfold State.stopSeq
  repeat' first
    | with_reducible assumption
    | with_reducible refine Keeps.ite ?_ ?_
    | with_reducible first | apply State.keeps_setSeq
    | with_reducible exact hF.sub rfl
    | split
    | refine Keeps.ofFst (by assumption) ?_
    | refine Keeps.ofSnd (by assumption) ?_
    | ((fail_if_no_progress extract_lets +onlyGivenNames x); first
      | (have g : State := x; clear g; refine Keeps.cut x ?_ ?_; (on_goal 2 => (intro _; try clear_value x)); (on_goal 1 => subst x))
      | (have g : _ → State := x; clear g; subst x) | (have g : _ → _ → State := x; clear g; subst x) | (have g : Option _ := x; clear g; subst x) | skip)
    | intro

theorem State.keeps_stuffWrite {F : Nat} {s t : State} (hF : Within 412850 F) (h : Keeps F s t) (n : Nat) (felt : Nat) (it : Item) : Keeps F s (t.stuffWrite n felt it) := by
  unfold State.stuffWrite
  repeat' first
    | with_reducible assumption
    | with_reducible refine Keeps.ite ?_ ?_
    | with_reducible first | apply State.keeps_fault | apply State.keeps_stick | apply State.keeps_tally | apply State.keeps_setSlice
    | fail_if_no_progress (with_reducible refine Keeps.que' (hF.sub rfl) ?_ (by with_reducible rfl))
    | with_reducible exact hF.sub rfl
    | split
    | refine Keeps.ofFst (by assumption) ?_
    | refine Keeps.ofSnd (by assumption) ?_
    | ((fail_if_no_progress extract_lets +onlyGivenNames x); first
      | (have g : State := x; clear g; refine Keeps.cut x ?_ ?_; (on_goal 2 => (intro _; try clear_value x)); (on_goal 1 => subst x))
      | (have g : _ → State := x; clear g; subst x) | (have g : _ → _ → State := x; clear g; subst x) | (have g : Option _ := x; clear g; subst x) | skip)
    | intro

theorem State.keeps_stepRange {F : Nat} {s t : State} (hF : Within 32 F) (h : Keeps F s t) (n : Nat) (r : Nat) : Keeps F s (t.stepRange n r) := by
  unfold State.stepRange
  repeat' first
    | with_reducible assumption
    | with_reducible refine Keeps.ite ?_ ?_
    | with_reducible first | apply State.keeps_setForce
    | with_reducible exact hF.sub rfl
    | split
    | refine Keeps.ofFst (by assumption) ?_
    | refine Keeps.ofSnd (by assumption) ?_
    | ((fail_if_no_progress extract_lets +onlyGivenNames x); first
      | (have g : State := x; clear g; refine Keeps.cut x ?_ ?_; (on_goal 2 => (intro _; try clear_value x)); (on_goal 1 => subst x))
      | (have g : _ → State := x; clear g; subst x) | (have g : _ → _ → State := x; clear g; subst x) | (have g : Option _ := x; clear g; subst x) | skip)
    | intro

theorem State.keeps_autorangeResult {F : Nat} {s t : State} (hF : Within 114 F) (h : Keeps F s t) (n : Nat) (high : Bool) (low : Bool) : Keeps F s (t.autorangeResult n high low) := by
  unfold State.autorangeResult
  repeat' first
    | with_reducible assumption
    | with_reducible refine Keeps.ite ?_ ?_
    | with_reducible first | apply State.keeps_stick | apply State.keeps_stepRange | apply State.keeps_setSeq | apply State.keeps_assertSrc
    | with_reducible exact hF.sub rfl
    | split
    | refine Keeps.ofFst (by assumption) ?_
    | refine Keeps.ofSnd (by assumption) ?_
    | ((fail_if_no_progress extract_lets +onlyGivenNames x); first
      | (have g : State := x; clear g; refine Keeps.cut x ?_ ?_; (on_goal 2 => (intro _; try clear_value x)); (on_goal 1 => subst x))
      | (have g : _ → State := x; clear g; subst x) | (have g : _ → _ → State := x; clear g; subst x) | (have g : Option _ := x; clear g; subst x) | skip)
    | intro

theorem State.keeps_monitor {F : Nat} {s t : State} (hF : Within 2 F) (h : Keeps F s t) (n : Nat) (value : DWord) : Keeps F s (t.monitor n value) := by
  unfold State.monitor
  repeat' first
    | with_reducible assumption
    | with_reducible refine Keeps.ite ?_ ?_
    | with_reducible first | apply State.keeps_setFld | apply State.keeps_stickIf
    | with_reducible exact hF.sub rfl
    | split
    | refine Keeps.ofFst (by assumption) ?_
    | refine Keeps.ofSnd (by assumption) ?_
    | ((fail_if_no_progress extract_lets +onlyGivenNames x); first
      | (have g : State := x; clear g; refine Keeps.cut x ?_ ?_; (on_goal 2 => (intro _; try clear_value x)); (on_goal 1 => subst x))
      | (have g : _ → State := x; clear g; subst x) | (have g : _ → _ → State := x; clear g; subst x) | (have g : Option _ := x; clear g; subst x) | skip)
    | intro

theorem State.keeps_emit {F : Nat} {s t : State} (hF : Within 412914 F) (h : Keeps F s t) (n : Nat) (l : List Int) (cut : Bool) : Keeps F s (t.emit n l cut) := by
  unfold State.emit
  repeat' first
    | with_reducible assumption
    | with_reducible refine Keeps.ite ?_ ?_
    | with_reducible first | apply State.keeps_stickIf | apply State.keeps_stuffWrite | apply State.keeps_autorangeResult | apply State.keeps_monitor | apply State.keeps_setSeq | apply State.keeps_assertSrc
    | with_reducible exact hF.sub rfl
    | split
    | refine Keeps.ofFst (by assumption) ?_
    | refine Keeps.ofSnd (by assumption) ?_
    | ((fail_if_no_progress extract_lets +onlyGivenNames x); first
      | (have g : State := x; clear g; refine Keeps.cut x ?_ ?_; (on_goal 2 => (intro _; try clear_value x)); (on_goal 1 => subst x))
      | (have g : _ → State := x; clear g; subst x) | (have g : _ → _ → State := x; clear g; subst x) | (have g : Option _ := x; clear g; subst x) | skip)
    | intro

theorem keeps_freeCodes {F : Nat} {s : State} (hF : Within 16777216 F) : ∀ (n : Nat) {t : State} (_ : Keeps F s t), Keeps F s (freeCodes n t).2
  | 0, _, h => h
  | n + 1, _, h => keeps_freeCodes (hF.sub rfl) n (State.keeps_freeInt (hF.sub rfl) h)

theorem State.keeps_cutShort {F : Nat} {s t : State} (hF : Within 17190130 F) (h : Keeps F s t) (n : Nat) (codes : List Int) : Keeps F s (t.cutShort n codes) := by
  unfold State.cutShort
  repeat' first
    | with_reducible assumption
    | with_reducible refine Keeps.ite ?_ ?_
    | with_reducible first | apply State.keeps_emit | apply keeps_freeCodes | apply State.keeps_setSeq
    | with_reducible exact hF.sub rfl
    | split
    | refine Keeps.ofFst (by assumption) ?_
    | refine Keeps.ofSnd (by assumption) ?_
    | ((fail_if_no_progress extract_lets +onlyGivenNames x); first
      | (have g : State := x; clear g; refine Keeps.cut x ?_ ?_; (on_goal 2 => (intro _; try clear_value x)); (on_goal 1 => subst x))
      | (have g : _ → State := x; clear g; subst x) | (have g : _ → _ → State := x; clear g; subst x) | (have g : Option _ := x; clear g; subst x) | skip)
    | intro

theorem State.keeps_enableCleared {F : Nat} {s t : State} (hF : Within 17190130 F) (h : Keeps F s t) (n : Nat) (codes : List Int) : Keeps F s (t.enableCleared n codes) := by
  unfold State.enableCleared
  repeat' first
    | with_reducible assumption
    | with_reducible refine Keeps.ite ?_ ?_
    | with_reducible first | apply State.keeps_startAtSlot | apply State.keeps_cutShort | apply State.keeps_setSeq
    | with_reducible exact hF.sub rfl
    | split
    | refine Keeps.ofFst (by assumption) ?_
    | refine Keeps.ofSnd (by assumption) ?_
    | ((fail_if_no_progress extract_lets +onlyGivenNames x); first
      | (have g : State := x; clear g; refine Keeps.cut x ?_ ?_; (on_goal 2 => (intro _; try clear_value x)); (on_goal 1 => subst x))
      | (have g : _ → State := x; clear g; subst x) | (have g : _ → _ → State := x; clear g; subst x) | (have g : Option _ := x; clear g; subst x) | skip)
    | intro

theorem State.keeps_judgeTrigger {F : Nat} {s t : State} (hF : Within 322 F) (h : Keeps F s t) (n : Nat) (u' : Nat) : Keeps F s (t.judgeTrigger n u') := by
  unfold State.judgeTrigger
  repeat' first
    | with_reducible assumption
    | with_reducible refine Keeps.ite ?_ ?_
    | with_reducible first | apply State.keeps_stick | apply State.keeps_tally | apply State.keeps_setSeq | apply State.keeps_setRes
    | with_reducible exact hF.sub rfl
    | split
    | refine Keeps.ofFst (by assumption) ?_
    | refine Keeps.ofSnd (by assumption) ?_
    | ((fail_if_no_progress extract_lets +onlyGivenNames x); first
      | (have g : State := x; clear g; refine Keeps.cut x ?_ ?_; (on_goal 2 => (intro _; try clear_value x)); (on_goal 1 => subst x))
      | (have g : _ → State := x; clear g; subst x) | (have g : _ → _ → State := x; clear g; subst x) | (have g : Option _ := x; clear g; subst x) | skip)
    | intro

theorem State.keeps_deliverTrigger {F : Nat} {s t : State} (hF : Within 322 F) (h : Keeps F s t) (n : Nat) (u' : Nat) : Keeps F s (t.deliverTrigger n u') := by
  unfold State.deliverTrigger
  repeat' first
    | with_reducible assumption
    | with_reducible refine Keeps.ite ?_ ?_
    | with_reducible first | apply State.keeps_judgeTrigger | apply State.keeps_setSeq
    | with_reducible exact hF.sub rfl
    | split
    | refine Keeps.ofFst (by assumption) ?_
    | refine Keeps.ofSnd (by assumption) ?_
    | ((fail_if_no_progress extract_lets +onlyGivenNames x); first
      | (have g : State := x; clear g; refine Keeps.cut x ?_ ?_; (on_goal 2 => (intro _; try clear_value x)); (on_goal 1 => subst x))
      | (have g : _ → State := x; clear g; subst x) | (have g : _ → _ → State := x; clear g; subst x) | (have g : Option _ := x; clear g; subst x) | skip)
    | intro

theorem State.keeps_restartAt {F : Nat} {s t : State} (hF : Within 64 F) (h : Keeps F s t) (n : Nat) (u' : Nat) (cut : Bool) : Keeps F s (t.restartAt n u' cut) := by
  unfold State.restartAt
  repeat' first
    | with_reducible assumption
    | with_reducible refine Keeps.ite ?_ ?_
    | with_reducible first | apply State.keeps_beginEntry | apply State.keeps_setSeq
    | with_reducible exact hF.sub rfl
    | split
    | refine Keeps.ofFst (by assumption) ?_
    | refine Keeps.ofSnd (by assumption) ?_
    | ((fail_if_no_progress extract_lets +onlyGivenNames x); first
      | (have g : State := x; clear g; refine Keeps.cut x ?_ ?_; (on_goal 2 => (intro _; try clear_value x)); (on_goal 1 => subst x))
      | (have g : _ → State := x; clear g; subst x) | (have g : _ → _ → State := x; clear g; subst x) | (have g : Option _ := x; clear g; subst x) | skip)
    | intro

theorem State.keeps_doRestart {F : Nat} {s t : State} (hF : Within 66 F) (h : Keeps F s t) (n : Nat) (u' : Nat) : Keeps F s (t.doRestart n u') := by
  unfold State.doRestart
  repeat' first
    | with_reducible assumption
    | with_reducible refine Keeps.ite ?_ ?_
    | with_reducible first | apply State.keeps_stick | apply State.keeps_tally | apply State.keeps_restartAt
    | with_reducible exact hF.sub rfl
    | split
    | refine Keeps.ofFst (by assumption) ?_
    | refine Keeps.ofSnd (by assumption) ?_
    | ((fail_if_no_progress extract_lets +onlyGivenNames x); first
      | (have g : State := x; clear g; refine Keeps.cut x ?_ ?_; (on_goal 2 => (intro _; try clear_value x)); (on_goal 1 => subst x))
      | (have g : _ → State := x; clear g; subst x) | (have g : _ → _ → State := x; clear g; subst x) | (have g : Option _ := x; clear g; subst x) | skip)
    | intro

end Sys2Proof.Machine
end

