-- ==== Sys2Proof/Laws/QueOps.lean ====
section
/-!
SUPPORT. The operations of Machine/QueOps.lean: the parts of the state that each may change, and what it keeps.
-/

namespace Sys2Proof.Machine

open Sys2Proof

set_option linter.all false

theorem State.keeps_headRead {F : Nat} {s t : State} (hF : Within 262400 F) (h : Keeps F s t) (n : Nat) (i : Nat) (e : StuffEntry) : Keeps F s (t.headRead n i e) := by
  unfold State.headRead
  repeat' first
    | with_reducible assumption
    | with_reducible refine Keeps.ite ?_ ?_
    | with_reducible first | apply State.keeps_setRes | apply State.keeps_setSlice
    | with_reducible exact hF.sub rfl
    | split
    | refine Keeps.ofFst (by assumption) ?_
    | refine Keeps.ofSnd (by assumption) ?_
    | ((fail_if_no_progress extract_lets +onlyGivenNames x); first
      | (have g : State := x; clear g; refine Keeps.cut x ?_ ?_; (on_goal 2 => (intro _; try clear_value x)); (on_goal 1 => subst x))
      | (have g : _ → State := x; clear g; subst x) | (have g : _ → _ → State := x; clear g; subst x) | (have g : Option _ := x; clear g; subst x) | skip)
    | intro

theorem State.keeps_nocreditDrop {F : Nat} {s t : State} (hF : Within 2 F) (h : Keeps F s t) (n : Nat) : Keeps F s (t.nocreditDrop n) := by
  unfold State.nocreditDrop
  repeat' first
    | with_reducible assumption
    | with_reducible first | apply State.keeps_stick | apply State.keeps_tally
    | with_reducible exact hF.sub rfl
    | intro

theorem State.keeps_stampEntry {F : Nat} {s t : State} (hF : Within 413106 F) (h : Keeps F s t) (n i : Nat) (e : StuffEntry) (held : State → State)
    (g : ∀ v, Keeps F s v → Keeps F s (held v)) : Keeps F s (t.stampEntry n i e held) := by
  have r : ∀ v, Keeps F s v → Keeps F s (v.headRead n i e) := fun v k => State.keeps_headRead (hF.sub rfl) k ..
  unfold State.stampEntry
  dsimp only
  split
  · exact State.keeps_nocreditDrop (hF.sub rfl) (r _ h) ..
  · split
    · exact r _ (State.keeps_push (hF.sub rfl) h (e := Or.inl ‹_›) ..)
    · exact State.keeps_fault (hF.sub rfl) (r _ (State.keeps_push (hF.sub rfl) h (e := Or.inr ‹_›) ..)) ..
    · split
      · exact State.keeps_nocreditDrop (hF.sub rfl) (r _ h) ..
      · exact g _ h

theorem State.keeps_underrun {F : Nat} {s t : State} (hF : Within 413106 F) (h : Keeps F s t) (n : Nat) (i : Nat) : Keeps F s (t.underrun n i) := by
  unfold State.underrun
  repeat' first
    | with_reducible assumption
    | with_reducible first | apply State.keeps_stick | apply State.keeps_setRes | apply State.keeps_setSlice | apply State.keeps_stampEntry
    | with_reducible exact hF.sub rfl
    | refine Keeps.ofFst (by assumption) ?_
    | refine Keeps.ofSnd (by assumption) ?_
    | ((fail_if_no_progress extract_lets +onlyGivenNames x); first
      | (have g : State := x; clear g; refine Keeps.cut x ?_ ?_; (on_goal 2 => (intro _; try clear_value x)); (on_goal 1 => subst x))
      | (have g : _ → State := x; clear g; subst x) | (have g : _ → _ → State := x; clear g; subst x) | (have g : Option _ := x; clear g; subst x) | skip)
    | intro

theorem State.keeps_stampTurn {F : Nat} {s t : State} (hF : Within 413106 F) (h : Keeps F s t) (n : Nat) : Keeps F s (t.stampTurn n) := by
  unfold State.stampTurn
  repeat' first
    | with_reducible assumption
    | with_reducible refine Keeps.ite ?_ ?_
    | with_reducible first | apply State.keeps_setRes | apply State.keeps_stampEntry | apply State.keeps_underrun
    | with_reducible exact hF.sub rfl
    | split
    | refine Keeps.ofFst (by assumption) ?_
    | refine Keeps.ofSnd (by assumption) ?_
    | ((fail_if_no_progress extract_lets +onlyGivenNames x); first
      | (have g : State := x; clear g; refine Keeps.cut x ?_ ?_; (on_goal 2 => (intro _; try clear_value x)); (on_goal 1 => subst x))
      | (have g : _ → State := x; clear g; subst x) | (have g : _ → _ → State := x; clear g; subst x) | (have g : Option _ := x; clear g; subst x) | skip)
    | intro

theorem State.keeps_agentTurn {F : Nat} {s t : State} (hF : Within 412850 F) (h : Keeps F s t) (a : Nat) : Keeps F s (t.agentTurn a) := by
  unfold State.agentTurn
  repeat' first
    | with_reducible assumption
    | with_reducible refine Keeps.ite ?_ ?_
    | with_reducible first | apply State.keeps_fault | apply State.keeps_setBacklog
    | refine State.keeps_push (hF.sub rfl) ?_ (e := by first | (left; assumption) | (right; assumption)) ..
    | with_reducible exact hF.sub rfl
    | split
    | refine Keeps.ofFst (by assumption) ?_
    | refine Keeps.ofSnd (by assumption) ?_
    | ((fail_if_no_progress extract_lets +onlyGivenNames x); first
      | (have g : State := x; clear g; refine Keeps.cut x ?_ ?_; (on_goal 2 => (intro _; try clear_value x)); (on_goal 1 => subst x))
      | (have g : _ → State := x; clear g; subst x) | (have g : _ → _ → State := x; clear g; subst x) | (have g : Option _ := x; clear g; subst x) | skip)
    | intro

theorem State.keeps_ask {F : Nat} {s t : State} (hF : Within 1024 F) (h : Keeps F s t) (p : Nat) (f : Nat) : Keeps F s (t.ask p f) := by
  unfold State.ask
  repeat' first
    | with_reducible assumption
    | ((fail_if_no_progress extract_lets +onlyGivenNames x); first
      | (have g : State := x; clear g; refine Keeps.cut x ?_ ?_; (on_goal 2 => (intro _; try clear_value x)); (on_goal 1 => subst x))
      | (have g : _ → State := x; clear g; subst x) | (have g : _ → _ → State := x; clear g; subst x) | (have g : Option _ := x; clear g; subst x) | skip)
    | with_reducible refine Keeps.ite ?_ ?_
    | fail_if_no_progress (with_reducible refine Keeps.que' (hF.sub rfl) ?_ (by with_reducible rfl))
    | split
    | refine Keeps.ofFst (by assumption) ?_
    | refine Keeps.ofSnd (by assumption) ?_
    | intro

theorem State.keeps_answerAsk {F : Nat} {s t : State} (hF : Within 1026 F) (h : Keeps F s t) (p : Nat) (f : Nat) : Keeps F s (t.answerAsk p f) := by
  unfold State.answerAsk
  repeat' first
    | with_reducible assumption
    | with_reducible refine Keeps.ite ?_ ?_
    | with_reducible first | apply State.keeps_stickIf | apply State.keeps_setCredit
    | fail_if_no_progress (with_reducible refine Keeps.que' (hF.sub rfl) ?_ (by with_reducible rfl))
    | with_reducible exact hF.sub rfl
    | split
    | refine Keeps.ofFst (by assumption) ?_
    | refine Keeps.ofSnd (by assumption) ?_
    | ((fail_if_no_progress extract_lets +onlyGivenNames x); first
      | (have g : State := x; clear g; refine Keeps.cut x ?_ ?_; (on_goal 2 => (intro _; try clear_value x)); (on_goal 1 => subst x))
      | (have g : _ → State := x; clear g; subst x) | (have g : _ → _ → State := x; clear g; subst x) | (have g : Option _ := x; clear g; subst x) | skip)
    | intro

theorem State.keeps_sendBurst {F : Nat} {s t : State} (hF : Within 445618 F) (h : Keeps F s t) (f : Nat) : Keeps F s (t.sendBurst f) := by
  unfold State.sendBurst
  repeat' first
    | with_reducible assumption
    | with_reducible refine Keeps.ite ?_ ?_
    | with_reducible first | apply State.keeps_setFelt | apply State.keeps_memArrive | apply State.keeps_routeFlit
    | with_reducible exact hF.sub rfl
    | split
    | refine Keeps.ofFst (by assumption) ?_
    | refine Keeps.ofSnd (by assumption) ?_
    | ((fail_if_no_progress extract_lets +onlyGivenNames x); first
      | (have g : State := x; clear g; refine Keeps.cut x ?_ ?_; (on_goal 2 => (intro _; try clear_value x)); (on_goal 1 => subst x))
      | (have g : _ → State := x; clear g; subst x) | (have g : _ → _ → State := x; clear g; subst x) | (have g : Option _ := x; clear g; subst x) | skip)
    | intro

theorem State.keeps_drainBurst {F : Nat} {s t : State} (hF : Within 445618 F) (h : Keeps F s t) (f : Nat) : Keeps F s (t.drainBurst f) := by
  unfold State.drainBurst
  repeat' first
    | with_reducible assumption
    | with_reducible refine Keeps.ite ?_ ?_
    | with_reducible first | apply State.keeps_sendBurst
    | with_reducible exact hF.sub rfl
    | split
    | refine Keeps.ofFst (by assumption) ?_
    | refine Keeps.ofSnd (by assumption) ?_
    | ((fail_if_no_progress extract_lets +onlyGivenNames x); first
      | (have g : State := x; clear g; refine Keeps.cut x ?_ ?_; (on_goal 2 => (intro _; try clear_value x)); (on_goal 1 => subst x))
      | (have g : _ → State := x; clear g; subst x) | (have g : _ → _ → State := x; clear g; subst x) | (have g : Option _ := x; clear g; subst x) | skip)
    | intro

theorem State.keeps_captureTake {F : Nat} {s t : State} (hF : Within 445618 F) (h : Keeps F s t) (f : Nat) : Keeps F s (t.captureTake f) := by
  unfold State.captureTake
  repeat' first
    | with_reducible assumption
    | with_reducible refine Keeps.ite ?_ ?_
    | with_reducible first | apply State.keeps_setFelt | apply State.keeps_assertSrc | apply State.keeps_sendBurst | apply State.keeps_drainBurst
    | refine State.keeps_take (hF.sub rfl) ?_ (e := by assumption) ..
    | with_reducible exact hF.sub rfl
    | split
    | refine Keeps.ofFst (by assumption) ?_
    | refine Keeps.ofSnd (by assumption) ?_
    | ((fail_if_no_progress extract_lets +onlyGivenNames x); first
      | (have g : State := x; clear g; refine Keeps.cut x ?_ ?_; (on_goal 2 => (intro _; try clear_value x)); (on_goal 1 => subst x))
      | (have g : _ → State := x; clear g; subst x) | (have g : _ → _ → State := x; clear g; subst x) | (have g : Option _ := x; clear g; subst x) | skip)
    | intro

theorem State.keeps_captureWritten {F : Nat} {s t : State} (hF : Within 425138 F) (h : Keeps F s t) (f : Nat) : Keeps F s (t.captureWritten f) := by
  unfold State.captureWritten
  repeat' first
    | with_reducible assumption
    | with_reducible first | apply State.keeps_memWrite | apply State.keeps_memAccess | apply State.keeps_portOrder | apply State.keeps_setFelt | apply State.keeps_each
    | with_reducible exact hF.sub rfl
    | split
    | refine Keeps.ofFst (by assumption) ?_
    | refine Keeps.ofSnd (by assumption) ?_
    | ((fail_if_no_progress extract_lets +onlyGivenNames x); first
      | (have g : State := x; clear g; refine Keeps.cut x ?_ ?_; (on_goal 2 => (intro _; try clear_value x)); (on_goal 1 => subst x))
      | (have g : _ → State := x; clear g; subst x) | (have g : _ → _ → State := x; clear g; subst x) | (have g : Option _ := x; clear g; subst x) | skip)
    | intro

theorem State.keeps_streamTake {F : Nat} {s t : State} (hF : Within 445618 F) (h : Keeps F s t) (f : Nat) : Keeps F s (t.streamTake f) := by
  unfold State.streamTake
  repeat' first
    | with_reducible assumption
    | with_reducible refine Keeps.ite ?_ ?_
    | with_reducible first | apply State.keeps_setFelt | apply State.keeps_sendBurst | apply State.keeps_drainBurst
    | refine State.keeps_take (hF.sub rfl) ?_ (e := by assumption) ..
    | with_reducible exact hF.sub rfl
    | split
    | refine Keeps.ofFst (by assumption) ?_
    | refine Keeps.ofSnd (by assumption) ?_
    | ((fail_if_no_progress extract_lets +onlyGivenNames x); first
      | (have g : State := x; clear g; refine Keeps.cut x ?_ ?_; (on_goal 2 => (intro _; try clear_value x)); (on_goal 1 => subst x))
      | (have g : _ → State := x; clear g; subst x) | (have g : _ → _ → State := x; clear g; subst x) | (have g : Option _ := x; clear g; subst x) | skip)
    | intro

theorem State.keeps_emptyFor {F : Nat} {s t : State} (hF : Within 445618 F) (h : Keeps F s t) (f : Nat) : Keeps F s (t.emptyFor f) := by
  unfold State.emptyFor
  repeat' first
    | with_reducible assumption
    | with_reducible refine Keeps.ite ?_ ?_
    | with_reducible first | apply State.keeps_sendBurst
    | with_reducible exact hF.sub rfl
    | split
    | refine Keeps.ofFst (by assumption) ?_
    | refine Keeps.ofSnd (by assumption) ?_
    | ((fail_if_no_progress extract_lets +onlyGivenNames x); first
      | (have g : State := x; clear g; refine Keeps.cut x ?_ ?_; (on_goal 2 => (intro _; try clear_value x)); (on_goal 1 => subst x))
      | (have g : _ → State := x; clear g; subst x) | (have g : _ → _ → State := x; clear g; subst x) | (have g : Option _ := x; clear g; subst x) | skip)
    | intro

theorem State.keeps_refillOne {F : Nat} {s t : State} (hF : Within 425138 F) (h : Keeps F s t) (f : Nat) (q : Nat) (bad : Bool) : Keeps F s (t.refillOne f q bad) := by
  unfold State.refillOne
  repeat' first
    | with_reducible assumption
    | with_reducible refine Keeps.ite ?_ ?_
    | with_reducible first | apply State.keeps_fault | apply State.keeps_giveBack | apply State.keeps_memRead | apply State.keeps_setFelt
    | with_reducible exact hF.sub rfl
    | split
    | refine Keeps.ofFst (by assumption) ?_
    | refine Keeps.ofSnd (by assumption) ?_
    | ((fail_if_no_progress extract_lets +onlyGivenNames x); first
      | (have g : State := x; clear g; refine Keeps.cut x ?_ ?_; (on_goal 2 => (intro _; try clear_value x)); (on_goal 1 => subst x))
      | (have g : _ → State := x; clear g; subst x) | (have g : _ → _ → State := x; clear g; subst x) | (have g : Option _ := x; clear g; subst x) | skip)
    | intro

theorem State.keeps_refillLane {F : Nat} {s t : State} (hF : Within 457906 F) (h : Keeps F s t) (f : Nat) (q : Nat) (bad : List Nat) : Keeps F s (t.refillLane f q bad) := by
  unfold State.refillLane
  repeat' first
    | with_reducible assumption
    | with_reducible refine Keeps.ite ?_ ?_
    | with_reducible first | apply State.keeps_setFelt | apply State.keeps_each | apply State.keeps_memArrive | apply State.keeps_drainBurst | apply State.keeps_refillOne
    | with_reducible exact hF.sub rfl
    | split
    | refine Keeps.ofFst (by assumption) ?_
    | refine Keeps.ofSnd (by assumption) ?_
    | ((fail_if_no_progress extract_lets +onlyGivenNames x); first
      | (have g : State := x; clear g; refine Keeps.cut x ?_ ?_; (on_goal 2 => (intro _; try clear_value x)); (on_goal 1 => subst x))
      | (have g : _ → State := x; clear g; subst x) | (have g : _ → _ → State := x; clear g; subst x) | (have g : Option _ := x; clear g; subst x) | skip)
    | intro

theorem State.keeps_refill {F : Nat} {s t : State} (hF : Within 457906 F) (h : Keeps F s t) (f : Nat) (bad : List Nat) : Keeps F s (t.refill f bad) := by
  unfold State.refill
  repeat' first
    | with_reducible assumption
    | with_reducible refine Keeps.ite ?_ ?_
    | with_reducible first | apply State.keeps_refillLane
    | with_reducible exact hF.sub rfl
    | split
    | refine Keeps.ofFst (by assumption) ?_
    | refine Keeps.ofSnd (by assumption) ?_
    | ((fail_if_no_progress extract_lets +onlyGivenNames x); first
      | (have g : State := x; clear g; refine Keeps.cut x ?_ ?_; (on_goal 2 => (intro _; try clear_value x)); (on_goal 1 => subst x))
      | (have g : _ → State := x; clear g; subst x) | (have g : _ → _ → State := x; clear g; subst x) | (have g : Option _ := x; clear g; subst x) | skip)
    | intro

theorem State.keeps_fetchFront {F : Nat} {s : State} (hF : Within 457906 F) (f : Nat) :
    ∀ (k : Nat) {t : State} (_ : Keeps F s t), Keeps F s (State.fetchFront f k t)
  | 0, _, h => h
  | k + 1, t, h => by
    unfold State.fetchFront
    repeat' split
    · exact State.keeps_fetchFront (hF.sub rfl) f k (State.keeps_refillLane (hF.sub rfl) h ..)
    · exact h
    · exact h

theorem State.keeps_tailTimeout {F : Nat} {s t : State} (hF : Within 445618 F) (h : Keeps F s t) (f : Nat) : Keeps F s (t.tailTimeout f) := by
  unfold State.tailTimeout
  repeat' first
    | with_reducible assumption
    | with_reducible refine Keeps.ite ?_ ?_
    | with_reducible first | apply State.keeps_noteWm | apply State.keeps_stick | apply State.keeps_setFelt | apply State.keeps_sendBurst
    | with_reducible exact hF.sub rfl
    | split
    | refine Keeps.ofFst (by assumption) ?_
    | refine Keeps.ofSnd (by assumption) ?_
    | ((fail_if_no_progress extract_lets +onlyGivenNames x); first
      | (have g : State := x; clear g; refine Keeps.cut x ?_ ?_; (on_goal 2 => (intro _; try clear_value x)); (on_goal 1 => subst x))
      | (have g : _ → State := x; clear g; subst x) | (have g : _ → _ → State := x; clear g; subst x) | (have g : Option _ := x; clear g; subst x) | skip)
    | intro

theorem State.keeps_fireWm {F : Nat} {s t : State} (hF : Within 1040 F) (h : Keeps F s t) (k : Nat) : Keeps F s (t.fireWm k) := by
  unfold State.fireWm
  repeat' first
    | with_reducible assumption
    | with_reducible first | apply State.keeps_assertSrc
    | fail_if_no_progress (with_reducible refine Keeps.que' (hF.sub rfl) ?_ (by with_reducible rfl))
    | with_reducible exact hF.sub rfl
    | split
    | refine Keeps.ofFst (by assumption) ?_
    | refine Keeps.ofSnd (by assumption) ?_
    | intro

theorem State.keeps_openFelt {F : Nat} {s t : State} (hF : Within 1024 F) (h : Keeps F s t) (f : Nat) : Keeps F s (t.openFelt f) := by
  unfold State.openFelt
  repeat' first
    | with_reducible assumption
    | with_reducible first | apply State.keeps_setFelt
    | with_reducible exact hF.sub rfl
    | intro

theorem State.keeps_closeFelt {F : Nat} {s t : State} (hF : Within 1024 F) (h : Keeps F s t) (f : Nat) : Keeps F s (t.closeFelt f) := by
  unfold State.closeFelt
  repeat' first
    | with_reducible assumption
    | with_reducible first | apply State.keeps_setFelt
    | with_reducible exact hF.sub rfl
    | intro

theorem State.keeps_withdraw {F : Nat} {s t : State} (hF : Within 445618 F) (h : Keeps F s t) (f : Nat) : Keeps F s (t.withdraw f) := by
  unfold State.withdraw
  repeat' first
    | with_reducible assumption
    | with_reducible refine Keeps.ite ?_ ?_
    | with_reducible first | apply State.keeps_giveBack | apply State.keeps_setFelt | apply State.keeps_setCredit | apply State.keeps_each | apply State.keeps_drainBurst
    | with_reducible exact hF.sub rfl
    | split
    | refine Keeps.ofFst (by assumption) ?_
    | refine Keeps.ofSnd (by assumption) ?_
    | ((fail_if_no_progress extract_lets +onlyGivenNames x); first
      | (have g : State := x; clear g; refine Keeps.cut x ?_ ?_; (on_goal 2 => (intro _; try clear_value x)); (on_goal 1 => subst x))
      | (have g : _ → State := x; clear g; subst x) | (have g : _ → _ → State := x; clear g; subst x) | (have g : Option _ := x; clear g; subst x) | skip)
    | intro

theorem State.keeps_endFelts {F : Nat} {s t : State} (hF : Within 445618 F) (h : Keeps F s t) : Keeps F s (t.endFelts) := by
  unfold State.endFelts
  repeat' first
    | with_reducible assumption
    | with_reducible first | apply State.keeps_judgeWms | apply State.keeps_each | apply State.keeps_withdraw
    | with_reducible exact hF.sub rfl
    | intro

theorem State.keeps_becomeDrained {F : Nat} {s t : State} (hF : Within 1024 F) (h : Keeps F s t) (f : Nat) : Keeps F s (t.becomeDrained f) := by
  unfold State.becomeDrained
  repeat' first
    | with_reducible assumption
    | with_reducible refine Keeps.ite ?_ ?_
    | with_reducible first | apply State.keeps_noteWm | apply State.keeps_setFelt
    | with_reducible exact hF.sub rfl
    | split
    | refine Keeps.ofFst (by assumption) ?_
    | refine Keeps.ofSnd (by assumption) ?_
    | ((fail_if_no_progress extract_lets +onlyGivenNames x); first
      | (have g : State := x; clear g; refine Keeps.cut x ?_ ?_; (on_goal 2 => (intro _; try clear_value x)); (on_goal 1 => subst x))
      | (have g : _ → State := x; clear g; subst x) | (have g : _ → _ → State := x; clear g; subst x) | (have g : Option _ := x; clear g; subst x) | skip)
    | intro

end Sys2Proof.Machine
end

