-- ==== Sys2Proof/Laws/SweepOps.lean ====
section
/-!
SUPPORT. The operations of Machine/SweepOps.lean: the parts of the state that each may change, and what it keeps.
-/

namespace Sys2Proof.Machine

open Sys2Proof

set_option linter.all false

theorem State.keeps_descRead {F : Nat} {s t : State} (hF : Within 425138 F) (h : Keeps F s t) (p : Nat) (r : Nat) (k : Nat) (bad : Bool) : Keeps F s (t.descRead p r k bad).1 := by
  unfold State.descRead
  repeat' first
    | with_reducible assumption
    | with_reducible refine Keeps.ite ?_ ?_
    | with_reducible refine Keeps.iteFst ?_ ?_
    | with_reducible first | apply State.keeps_memRead | apply State.keeps_memArrive
    | with_reducible exact hF.sub rfl
    | split
    | refine Keeps.ofFst (by assumption) ?_
    | refine Keeps.ofSnd (by assumption) ?_
    | ((fail_if_no_progress extract_lets +onlyGivenNames x); first
      | (have g : State := x; clear g; refine Keeps.cut x ?_ ?_; (on_goal 2 => (intro _; try clear_value x)); (on_goal 1 => subst x))
      | (have g : _ → State := x; clear g; subst x) | (have g : _ → _ → State := x; clear g; subst x) | (have g : Option _ := x; clear g; subst x) | skip)
    | intro

theorem State.keeps_keepPlays {F : Nat} {s t : State} (hF : Within 128 F) (h : Keeps F s t) (n : Nat) : Keeps F s (t.keepPlays n) := by
  unfold State.keepPlays
  repeat' first
    | with_reducible assumption
    | with_reducible first | apply State.keeps_setEng
    | with_reducible exact hF.sub rfl
    | intro

theorem State.keeps_closeLast {F : Nat} {s t : State} (hF : Within 128 F) (h : Keeps F s t) (n : Nat) (anchored : Option When) : Keeps F s (t.closeLast n anchored) := by
  unfold State.closeLast
  repeat' first
    | with_reducible assumption
    | with_reducible refine Keeps.ite ?_ ?_
    | with_reducible first | apply State.keeps_setEng
    | with_reducible exact hF.sub rfl
    | split
    | refine Keeps.ofFst (by assumption) ?_
    | refine Keeps.ofSnd (by assumption) ?_
    | ((fail_if_no_progress extract_lets +onlyGivenNames x); first
      | (have g : State := x; clear g; refine Keeps.cut x ?_ ?_; (on_goal 2 => (intro _; try clear_value x)); (on_goal 1 => subst x))
      | (have g : _ → State := x; clear g; subst x) | (have g : _ → _ → State := x; clear g; subst x) | (have g : Option _ := x; clear g; subst x) | skip)
    | intro

theorem State.keeps_askStop {F : Nat} {s t : State} (hF : Within 128 F) (h : Keeps F s t) (n : Nat) (reason : Nat) (w : When) : Keeps F s (t.askStop n reason w) := by
  unfold State.askStop
  repeat' first
    | with_reducible assumption
    | with_reducible refine Keeps.ite ?_ ?_
    | with_reducible first | apply State.keeps_setEng
    | with_reducible exact hF.sub rfl
    | split
    | refine Keeps.ofFst (by assumption) ?_
    | refine Keeps.ofSnd (by assumption) ?_
    | ((fail_if_no_progress extract_lets +onlyGivenNames x); first
      | (have g : State := x; clear g; refine Keeps.cut x ?_ ?_; (on_goal 2 => (intro _; try clear_value x)); (on_goal 1 => subst x))
      | (have g : _ → State := x; clear g; subst x) | (have g : _ → _ → State := x; clear g; subst x) | (have g : Option _ := x; clear g; subst x) | skip)
    | intro

theorem State.keeps_invalidEntry {F : Nat} {s t : State} (hF : Within 412850 F) (h : Keeps F s t) (n : Nat) (i : Nat) : Keeps F s (t.invalidEntry n i) := by
  unfold State.invalidEntry
  repeat' first
    | with_reducible assumption
    | with_reducible first | apply State.keeps_log | apply State.keeps_stick | apply State.keeps_askStop
    | with_reducible exact hF.sub rfl
    | refine Keeps.ofFst (by assumption) ?_
    | refine Keeps.ofSnd (by assumption) ?_
    | ((fail_if_no_progress extract_lets +onlyGivenNames x); first
      | (have g : State := x; clear g; refine Keeps.cut x ?_ ?_; (on_goal 2 => (intro _; try clear_value x)); (on_goal 1 => subst x))
      | (have g : _ → State := x; clear g; subst x) | (have g : _ → _ → State := x; clear g; subst x) | (have g : Option _ := x; clear g; subst x) | skip)
    | intro

theorem State.keeps_topUp {F : Nat} {s t : State} (hF : Within 2178 F) (h : Keeps F s t) (n : Nat) : Keeps F s (t.topUp n) := by
  unfold State.topUp
  repeat' first
    | with_reducible assumption
    | with_reducible refine Keeps.ite ?_ ?_
    | with_reducible first | apply State.keeps_setEng | apply State.keeps_memArrive
    | with_reducible exact hF.sub rfl
    | split
    | refine Keeps.ofFst (by assumption) ?_
    | refine Keeps.ofSnd (by assumption) ?_
    | ((fail_if_no_progress extract_lets +onlyGivenNames x); first
      | (have g : State := x; clear g; refine Keeps.cut x ?_ ?_; (on_goal 2 => (intro _; try clear_value x)); (on_goal 1 => subst x))
      | (have g : _ → State := x; clear g; subst x) | (have g : _ → _ → State := x; clear g; subst x) | (have g : Option _ := x; clear g; subst x) | skip)
    | intro

theorem State.keeps_fetched {F : Nat} {s t : State} (hF : Within 425138 F) (h : Keeps F s t) (base : Nat) (i : Nat) (k : Nat) (bad : List Nat) : Keeps F s (t.fetched base i k bad).1 := by
  unfold State.fetched
  repeat' first
    | with_reducible assumption
    | with_reducible refine Keeps.ite ?_ ?_
    | with_reducible refine Keeps.iteFst ?_ ?_
    | with_reducible first | apply State.keeps_memRead
    | with_reducible exact hF.sub rfl
    | split
    | refine Keeps.ofFst (by assumption) ?_
    | refine Keeps.ofSnd (by assumption) ?_
    | ((fail_if_no_progress extract_lets +onlyGivenNames x); first
      | (have g : State := x; clear g; refine Keeps.cut x ?_ ?_; (on_goal 2 => (intro _; try clear_value x)); (on_goal 1 => subst x))
      | (have g : _ → State := x; clear g; subst x) | (have g : _ → _ → State := x; clear g; subst x) | (have g : Option _ := x; clear g; subst x) | skip)
    | intro

theorem State.keeps_starve {F : Nat} {s t : State} (hF : Within 2178 F) (h : Keeps F s t) (n : Nat) : Keeps F s (t.starve n) := by
  unfold State.starve
  repeat' first
    | with_reducible assumption
    | with_reducible refine Keeps.ite ?_ ?_
    | with_reducible first | apply State.keeps_stick | apply State.keeps_tally | apply State.keeps_setEng | apply State.keeps_memArrive
    | with_reducible exact hF.sub rfl
    | split
    | refine Keeps.ofFst (by assumption) ?_
    | refine Keeps.ofSnd (by assumption) ?_
    | ((fail_if_no_progress extract_lets +onlyGivenNames x); first
      | (have g : State := x; clear g; refine Keeps.cut x ?_ ?_; (on_goal 2 => (intro _; try clear_value x)); (on_goal 1 => subst x))
      | (have g : _ → State := x; clear g; subst x) | (have g : _ → _ → State := x; clear g; subst x) | (have g : Option _ := x; clear g; subst x) | skip)
    | intro

theorem State.keeps_countLate {F : Nat} {s t : State} (hF : Within 2 F) (h : Keeps F s t) (n : Nat) (k : Nat) : Keeps F s (t.countLate n k) := by
  unfold State.countLate
  repeat' first
    | with_reducible assumption
    | with_reducible first | apply State.keeps_stick | apply State.keeps_tally
    | with_reducible exact hF.sub rfl
    | intro

theorem State.keeps_pointsRead {F : Nat} {s t : State} (hF : Within 425138 F) (h : Keeps F s t) (base : Nat) (j : Nat) (k : Nat) : Keeps F s (t.pointsRead base j k).1 := by
  unfold State.pointsRead
  repeat' first
    | with_reducible assumption
    | with_reducible refine Keeps.ite ?_ ?_
    | with_reducible refine Keeps.iteFst ?_ ?_
    | with_reducible first | apply State.keeps_memRead | apply State.keeps_memArrive
    | with_reducible exact hF.sub rfl
    | split
    | refine Keeps.ofFst (by assumption) ?_
    | refine Keeps.ofSnd (by assumption) ?_
    | ((fail_if_no_progress extract_lets +onlyGivenNames x); first
      | (have g : State := x; clear g; refine Keeps.cut x ?_ ?_; (on_goal 2 => (intro _; try clear_value x)); (on_goal 1 => subst x))
      | (have g : _ → State := x; clear g; subst x) | (have g : _ → _ → State := x; clear g; subst x) | (have g : Option _ := x; clear g; subst x) | skip)
    | intro

theorem State.keeps_mouldFill {F : Nat} {s t : State} (hF : Within 425138 F) (h : Keeps F s t) (x : Exec) (k : Nat) : Keeps F s (t.mouldFill x k).1 := by
  unfold State.mouldFill
  repeat' first
    | with_reducible assumption
    | with_reducible refine Keeps.ite ?_ ?_
    | with_reducible refine Keeps.iteFst ?_ ?_
    | with_reducible first | apply State.keeps_pointsRead
    | with_reducible exact hF.sub rfl
    | split
    | refine Keeps.ofFst (by assumption) ?_
    | refine Keeps.ofSnd (by assumption) ?_
    | ((fail_if_no_progress extract_lets +onlyGivenNames x); first
      | (have g : State := x; clear g; refine Keeps.cut x ?_ ?_; (on_goal 2 => (intro _; try clear_value x)); (on_goal 1 => subst x))
      | (have g : _ → State := x; clear g; subst x) | (have g : _ → _ → State := x; clear g; subst x) | (have g : Option _ := x; clear g; subst x) | skip)
    | intro

theorem State.keeps_newExec {F : Nat} {s t : State} (hF : Within 425138 F) (h : Keeps F s t) (i : Nat) (ord : Nat) (first : Nat) (w : BitVec 128) (start : When) (target : RTime) : Keeps F s (t.newExec i ord first w start target).1 := by
  unfold State.newExec
  repeat' first
    | with_reducible assumption
    | with_reducible refine Keeps.ite ?_ ?_
    | with_reducible refine Keeps.iteFst ?_ ?_
    | with_reducible first | apply State.keeps_mouldFill
    | with_reducible exact hF.sub rfl
    | split
    | refine Keeps.ofFst (by assumption) ?_
    | refine Keeps.ofSnd (by assumption) ?_
    | ((fail_if_no_progress extract_lets +onlyGivenNames x); first
      | (have g : State := x; clear g; refine Keeps.cut x ?_ ?_; (on_goal 2 => (intro _; try clear_value x)); (on_goal 1 => subst x))
      | (have g : _ → State := x; clear g; subst x) | (have g : _ → _ → State := x; clear g; subst x) | (have g : Option _ := x; clear g; subst x) | skip)
    | intro

theorem State.keeps_addPlan {F : Nat} {s t : State} (hF : Within 128 F) (h : Keeps F s t) (n : Nat) (x : Exec) : Keeps F s (t.addPlan n x) := by
  unfold State.addPlan
  repeat' first
    | with_reducible assumption
    | with_reducible first | apply State.keeps_setEng
    | with_reducible exact hF.sub rfl
    | refine Keeps.ofFst (by assumption) ?_
    | refine Keeps.ofSnd (by assumption) ?_
    | ((fail_if_no_progress extract_lets +onlyGivenNames x); first
      | (have g : State := x; clear g; refine Keeps.cut x ?_ ?_; (on_goal 2 => (intro _; try clear_value x)); (on_goal 1 => subst x))
      | (have g : _ → State := x; clear g; subst x) | (have g : _ → _ → State := x; clear g; subst x) | (have g : Option _ := x; clear g; subst x) | skip)
    | intro

theorem State.keeps_arm {F : Nat} {s t : State} (hF : Within 425138 F) (h : Keeps F s t) (n : Nat) (i : Nat) (ord : Nat) (w : BitVec 128) (free : Bool) : Keeps F s (t.arm n i ord w free).1 := by
  unfold State.arm
  repeat' first
    | with_reducible assumption
    | ((fail_if_no_progress extract_lets +onlyGivenNames x); first
      | (have g : State := x; clear g; refine Keeps.cut x ?_ ?_; (on_goal 2 => (intro _; try clear_value x)); (on_goal 1 => subst x))
      | (have g : _ → State := x; clear g; subst x) | (have g : _ → _ → State := x; clear g; subst x) | (have g : Option _ := x; clear g; subst x) | skip)
    | with_reducible refine Keeps.ite ?_ ?_
    | with_reducible refine Keeps.iteFst ?_ ?_
    | with_reducible first | apply State.keeps_stick | apply State.keeps_closeLast | apply State.keeps_askStop | apply State.keeps_countLate | apply State.keeps_newExec | apply State.keeps_addPlan
    | with_reducible exact hF.sub rfl
    | split
    | refine Keeps.ofFst (by assumption) ?_
    | refine Keeps.ofSnd (by assumption) ?_
    | intro

theorem State.keeps_walk {F : Nat} {s : State} (hF : Within 425138 F) (n : Nat) (free bad : Bool) : ∀ (k c : Nat) {t : State} (_ : Keeps F s t), Keeps F s (State.walk n free bad k c t)
  | 0, _, _, h => h
  | k + 1, c, t, h => by
    have ih := fun c v (g : Keeps F s v) => State.keeps_walk (hF.sub rfl) n free bad k c g
    unfold State.walk
    repeat' first
      | with_reducible assumption
      | with_reducible apply ih
      | with_reducible refine Keeps.ite ?_ ?_
      | with_reducible refine Keeps.iteFst ?_ ?_
      | with_reducible first | apply State.keeps_setEng | apply State.keeps_askStop | apply State.keeps_closeLast | apply State.keeps_starve | apply State.keeps_invalidEntry | apply State.keeps_stick | apply State.keeps_arm | apply State.keeps_descRead
      | with_reducible exact hF.sub rfl
      | split
      | refine Keeps.ofFst (by assumption) ?_
      | refine Keeps.ofSnd (by assumption) ?_
      | ((fail_if_no_progress extract_lets +onlyGivenNames x); first
        | (have g : State := x; clear g; refine Keeps.cut x ?_ ?_; (on_goal 2 => (intro _; try clear_value x)); (on_goal 1 => subst x))
        | (have g : State × Bool := x; clear g; subst x) | (have g : _ → State := x; clear g; subst x) | (have g : _ → _ → State := x; clear g; subst x) | (have g : Option _ := x; clear g; subst x) | skip)
      | intro

theorem State.keeps_walkOn {F : Nat} {s t : State} (hF : Within 425138 F) (h : Keeps F s t) (n : Nat) (c : Nat) (free : Bool) (bad : Bool) : Keeps F s (t.walkOn n c free bad) := by
  unfold State.walkOn
  repeat' first
    | with_reducible assumption
    | with_reducible refine Keeps.ite ?_ ?_
    | with_reducible first | apply State.keeps_memArrive | apply State.keeps_topUp | apply State.keeps_walk
    | with_reducible exact hF.sub rfl
    | split
    | refine Keeps.ofFst (by assumption) ?_
    | refine Keeps.ofSnd (by assumption) ?_
    | ((fail_if_no_progress extract_lets +onlyGivenNames x); first
      | (have g : State := x; clear g; refine Keeps.cut x ?_ ?_; (on_goal 2 => (intro _; try clear_value x)); (on_goal 1 => subst x))
      | (have g : _ → State := x; clear g; subst x) | (have g : _ → _ → State := x; clear g; subst x) | (have g : Option _ := x; clear g; subst x) | skip)
    | intro

theorem State.keeps_branchTest {F : Nat} {s : State} (hF : Within 425138 F) (n : Nat) :
    ∀ (k : Nat) {t : State} (_ : Keeps F s t), Keeps F s (State.branchTest n k t)
  | 0, _, h => h
  | k + 1, t, h => by
    unfold State.branchTest
    dsimp only
    split
    · exact h
    · split
      · exact State.keeps_setEng (hF.sub rfl) h ..
      · exact State.keeps_branchTest (hF.sub rfl) n k (State.keeps_walkOn (hF.sub rfl) (State.keeps_setEng (hF.sub rfl) h ..) ..)

theorem State.keeps_assertMarks {F : Nat} {s t : State} (hF : Within 413170 F) (h : Keeps F s t) (n : Nat) (l : List Mark) : Keeps F s (t.assertMarks n l) := by
  unfold State.assertMarks
  repeat' first
    | with_reducible assumption
    | with_reducible refine Keeps.ite ?_ ?_
    | with_reducible first | apply State.keeps_agentItem | apply State.keeps_deliverTrigger | apply State.keeps_setEng | apply State.keeps_each | apply State.keeps_assertSrc
    | with_reducible exact hF.sub rfl
    | split
    | refine Keeps.ofFst (by assumption) ?_
    | refine Keeps.ofSnd (by assumption) ?_
    | ((fail_if_no_progress extract_lets +onlyGivenNames x); first
      | (have g : State := x; clear g; refine Keeps.cut x ?_ ?_; (on_goal 2 => (intro _; try clear_value x)); (on_goal 1 => subst x))
      | (have g : _ → State := x; clear g; subst x) | (have g : _ → _ → State := x; clear g; subst x) | (have g : Option _ := x; clear g; subst x) | skip)
    | intro

theorem State.keeps_dueMarks {F : Nat} {s t : State} (hF : Within 413170 F) (h : Keeps F s t) (n : Nat) : Keeps F s (t.dueMarks n) := by
  unfold State.dueMarks
  repeat' first
    | with_reducible assumption
    | with_reducible refine Keeps.ite ?_ ?_
    | with_reducible first | apply State.keeps_setEng | apply State.keeps_assertMarks
    | with_reducible exact hF.sub rfl
    | split
    | refine Keeps.ofFst (by assumption) ?_
    | refine Keeps.ofSnd (by assumption) ?_
    | ((fail_if_no_progress extract_lets +onlyGivenNames x); first
      | (have g : State := x; clear g; refine Keeps.cut x ?_ ?_; (on_goal 2 => (intro _; try clear_value x)); (on_goal 1 => subst x))
      | (have g : _ → State := x; clear g; subst x) | (have g : _ → _ → State := x; clear g; subst x) | (have g : Option _ := x; clear g; subst x) | skip)
    | intro

theorem State.keeps_takeStop {F : Nat} {s t : State} (hF : Within 412850 F) (h : Keeps F s t) (n : Nat) (reason : Nat) : Keeps F s (t.takeStop n reason) := by
  unfold State.takeStop
  repeat' first
    | with_reducible assumption
    | with_reducible refine Keeps.ite ?_ ?_
    | with_reducible first | apply State.keeps_haltEngine | apply State.keeps_stickIf | apply State.keeps_acceptForce | apply State.keeps_refuseForce | apply State.keeps_keepPlays
    | with_reducible exact hF.sub rfl
    | split
    | refine Keeps.ofFst (by assumption) ?_
    | refine Keeps.ofSnd (by assumption) ?_
    | ((fail_if_no_progress extract_lets +onlyGivenNames x); first
      | (have g : State := x; clear g; refine Keeps.cut x ?_ ?_; (on_goal 2 => (intro _; try clear_value x)); (on_goal 1 => subst x))
      | (have g : _ → State := x; clear g; subst x) | (have g : _ → _ → State := x; clear g; subst x) | (have g : Option _ := x; clear g; subst x) | skip)
    | intro

theorem State.keeps_sweepInstant {F : Nat} {s t : State} (hF : Within 413170 F) (h : Keeps F s t) (n : Nat) : Keeps F s (t.sweepInstant n) := by
  unfold State.sweepInstant
  repeat' first
    | with_reducible assumption
    | with_reducible refine Keeps.ite ?_ ?_
    | with_reducible first | apply State.keeps_dueMarks | apply State.keeps_takeStop
    | with_reducible exact hF.sub rfl
    | split
    | refine Keeps.ofFst (by assumption) ?_
    | refine Keeps.ofSnd (by assumption) ?_
    | ((fail_if_no_progress extract_lets +onlyGivenNames x); first
      | (have g : State := x; clear g; refine Keeps.cut x ?_ ?_; (on_goal 2 => (intro _; try clear_value x)); (on_goal 1 => subst x))
      | (have g : _ → State := x; clear g; subst x) | (have g : _ → _ → State := x; clear g; subst x) | (have g : Option _ := x; clear g; subst x) | skip)
    | intro

theorem State.keeps_controls {F : Nat} {s t : State} (hF : Within 425458 F) (h : Keeps F s t) (n : Nat) (free : Bool) (bad : Bool) : Keeps F s (t.controls n free bad) := by
  unfold State.controls
  repeat' first
    | with_reducible assumption
    | with_reducible first | apply State.keeps_setEng | apply State.keeps_walkOn | apply State.keeps_sweepInstant
    | with_reducible exact hF.sub rfl
    | intro

theorem State.keeps_follow {F : Nat} {s t : State} (hF : Within 425458 F) (h : Keeps F s t) (n : Nat) (x : Exec) (bad : Bool) : Keeps F s (t.follow n x bad) := by
  unfold State.follow
  repeat' first
    | with_reducible assumption
    | with_reducible refine Keeps.ite ?_ ?_
    | with_reducible first | apply State.keeps_setEng | apply State.keeps_arm | apply State.keeps_controls
    | with_reducible exact hF.sub rfl
    | split
    | refine Keeps.ofFst (by assumption) ?_
    | refine Keeps.ofSnd (by assumption) ?_
    | ((fail_if_no_progress extract_lets +onlyGivenNames x); first
      | (have g : State := x; clear g; refine Keeps.cut x ?_ ?_; (on_goal 2 => (intro _; try clear_value x)); (on_goal 1 => subst x))
      | (have g : _ → State := x; clear g; subst x) | (have g : _ → _ → State := x; clear g; subst x) | (have g : Option _ := x; clear g; subst x) | skip)
    | intro

theorem State.keeps_issueEarly {F : Nat} {s t : State} (hF : Within 425458 F) (h : Keeps F s t) (n : Nat) (bad : Bool) : Keeps F s (t.issueEarly n bad) := by
  unfold State.issueEarly
  repeat' first
    | with_reducible assumption
    | with_reducible refine Keeps.ite ?_ ?_
    | with_reducible first | apply State.keeps_starve | apply State.keeps_controls
    | with_reducible exact hF.sub rfl
    | split
    | refine Keeps.ofFst (by assumption) ?_
    | refine Keeps.ofSnd (by assumption) ?_
    | ((fail_if_no_progress extract_lets +onlyGivenNames x); first
      | (have g : State := x; clear g; refine Keeps.cut x ?_ ?_; (on_goal 2 => (intro _; try clear_value x)); (on_goal 1 => subst x))
      | (have g : _ → State := x; clear g; subst x) | (have g : _ → _ → State := x; clear g; subst x) | (have g : Option _ := x; clear g; subst x) | skip)
    | intro

theorem State.keeps_lookAhead {F : Nat} {s t : State} (hF : Within 425458 F) (h : Keeps F s t) (n : Nat) (bad : Bool) : Keeps F s (t.lookAhead n bad) := by
  unfold State.lookAhead
  repeat' first
    | with_reducible assumption
    | with_reducible refine Keeps.ite ?_ ?_
    | with_reducible first | apply State.keeps_setEng | apply State.keeps_follow | apply State.keeps_issueEarly
    | with_reducible exact hF.sub rfl
    | split
    | refine Keeps.ofFst (by assumption) ?_
    | refine Keeps.ofSnd (by assumption) ?_
    | ((fail_if_no_progress extract_lets +onlyGivenNames x); first
      | (have g : State := x; clear g; refine Keeps.cut x ?_ ?_; (on_goal 2 => (intro _; try clear_value x)); (on_goal 1 => subst x))
      | (have g : _ → State := x; clear g; subst x) | (have g : _ → _ → State := x; clear g; subst x) | (have g : Option _ := x; clear g; subst x) | skip)
    | intro

theorem State.keeps_sweepBoundary {F : Nat} {s t : State} (hF : Within 425458 F) (h : Keeps F s t) (n : Nat) : Keeps F s (t.sweepBoundary n) := by
  unfold State.sweepBoundary
  repeat' first
    | with_reducible assumption
    | with_reducible refine Keeps.ite ?_ ?_
    | with_reducible first | apply State.keeps_dueMarks | apply State.keeps_takeStop | apply State.keeps_controls
    | with_reducible exact hF.sub rfl
    | split
    | refine Keeps.ofFst (by assumption) ?_
    | refine Keeps.ofSnd (by assumption) ?_
    | ((fail_if_no_progress extract_lets +onlyGivenNames x); first
      | (have g : State := x; clear g; refine Keeps.cut x ?_ ?_; (on_goal 2 => (intro _; try clear_value x)); (on_goal 1 => subst x))
      | (have g : _ → State := x; clear g; subst x) | (have g : _ → _ → State := x; clear g; subst x) | (have g : Option _ := x; clear g; subst x) | skip)
    | intro

theorem State.keeps_rephase {F : Nat} {s t : State} (hF : Within 32 F) (h : Keeps F s t) (n : Nat) (b : Nat) : Keeps F s (t.rephase n b) := by
  unfold State.rephase
  repeat' first
    | with_reducible assumption
    | with_reducible first | apply State.keeps_setForce
    | with_reducible exact hF.sub rfl
    | intro

theorem State.keeps_nextPoints {F : Nat} {s t : State} (hF : Within 130 F) (h : Keeps F s t) (n : Nat) (x : Exec) (k : Nat) (b : Nat) : Keeps F s (t.nextPoints n x k b) := by
  unfold State.nextPoints
  repeat' first
    | with_reducible assumption
    | with_reducible refine Keeps.ite ?_ ?_
    | with_reducible first | apply State.keeps_stick | apply State.keeps_setEng | apply State.keeps_askStop | apply State.keeps_countLate
    | with_reducible exact hF.sub rfl
    | split
    | refine Keeps.ofFst (by assumption) ?_
    | refine Keeps.ofSnd (by assumption) ?_
    | ((fail_if_no_progress extract_lets +onlyGivenNames x); first
      | (have g : State := x; clear g; refine Keeps.cut x ?_ ?_; (on_goal 2 => (intro _; try clear_value x)); (on_goal 1 => subst x))
      | (have g : _ → State := x; clear g; subst x) | (have g : _ → _ → State := x; clear g; subst x) | (have g : Option _ := x; clear g; subst x) | skip)
    | intro

theorem State.keeps_engineForce {F : Nat} {s t : State} (hF : Within 412850 F) (h : Keeps F s t) (n : Nat) (c : ForceCmd) : Keeps F s (t.engineForce n c) := by
  unfold State.engineForce
  repeat' first
    | with_reducible assumption
    | with_reducible refine Keeps.ite ?_ ?_
    | with_reducible first | apply State.keeps_acceptForce | apply State.keeps_refuseForce | apply State.keeps_askStop
    | with_reducible exact hF.sub rfl
    | split
    | intro

theorem State.keeps_entryDeckle {F : Nat} {s t : State} (hF : Within 2 F) (h : Keeps F s t) (n : Nat) (w : BitVec 128) : Keeps F s (t.entryDeckle n w) := by
  unfold State.entryDeckle
  repeat' first
    | with_reducible assumption
    | with_reducible first | apply State.keeps_wr
    | with_reducible exact hF.sub rfl
    | intro

theorem State.keeps_playPoint {F : Nat} {s t : State} (hF : Within 425458 F) (h : Keeps F s t) (n : Nat) (x0 : Exec) (k : Nat) (b : Nat) (first : Bool) (bad : Bool) : Keeps F s (t.playPoint n x0 k b first bad) := by
  unfold State.playPoint
  repeat' first
    | with_reducible assumption
    | with_reducible refine Keeps.ite ?_ ?_
    | with_reducible first | apply State.keeps_log | apply State.keeps_stick | apply State.keeps_deliverTrigger | apply State.keeps_spoil | apply State.keeps_uncorrectable | apply State.keeps_setEng | apply State.keeps_mouldFill | apply State.keeps_nextPoints | apply State.keeps_engineForce | apply State.keeps_entryDeckle
    | with_reducible exact hF.sub rfl
    | split
    | refine Keeps.ofFst (by assumption) ?_
    | refine Keeps.ofSnd (by assumption) ?_
    | ((fail_if_no_progress extract_lets +onlyGivenNames x); first
      | (have g : State := x; clear g; refine Keeps.cut x ?_ ?_; (on_goal 2 => (intro _; try clear_value x)); (on_goal 1 => subst x))
      | (have g : _ → State := x; clear g; subst x) | (have g : _ → _ → State := x; clear g; subst x) | (have g : Option _ := x; clear g; subst x) | skip)
    | intro

theorem State.keeps_mouldPoint {F : Nat} {s t : State} (hF : Within 425458 F) (h : Keeps F s t) (n : Nat) (meas : Int) (bad : Bool) : Keeps F s (t.mouldPoint n meas bad) := by
  unfold State.mouldPoint
  repeat' first
    | with_reducible assumption
    | with_reducible refine Keeps.ite ?_ ?_
    | with_reducible first | apply State.keeps_dacBoundary | apply State.keeps_sweepBoundary | apply State.keeps_rephase | apply State.keeps_playPoint
    | with_reducible exact hF.sub rfl
    | split
    | refine Keeps.ofFst (by assumption) ?_
    | refine Keeps.ofSnd (by assumption) ?_
    | ((fail_if_no_progress extract_lets +onlyGivenNames x); first
      | (have g : State := x; clear g; refine Keeps.cut x ?_ ?_; (on_goal 2 => (intro _; try clear_value x)); (on_goal 1 => subst x))
      | (have g : _ → State := x; clear g; subst x) | (have g : _ → _ → State := x; clear g; subst x) | (have g : Option _ := x; clear g; subst x) | skip)
    | intro

theorem State.keeps_startExec {F : Nat} {s t : State} (hF : Within 425458 F) (h : Keeps F s t) (n : Nat) (meas : Int) (bad : Bool) : Keeps F s (t.startExec n meas bad) := by
  unfold State.startExec
  repeat' first
    | with_reducible assumption
    | with_reducible refine Keeps.ite ?_ ?_
    | with_reducible first | apply State.keeps_setFld | apply State.keeps_dacBoundary | apply State.keeps_deliverTrigger | apply State.keeps_setEng | apply State.keeps_keepPlays | apply State.keeps_topUp | apply State.keeps_assertMarks | apply State.keeps_sweepBoundary | apply State.keeps_rephase | apply State.keeps_engineForce | apply State.keeps_entryDeckle | apply State.keeps_playPoint
    | with_reducible exact hF.sub rfl
    | split
    | refine Keeps.ofFst (by assumption) ?_
    | refine Keeps.ofSnd (by assumption) ?_
    | ((fail_if_no_progress extract_lets +onlyGivenNames x); first
      | (have g : State := x; clear g; refine Keeps.cut x ?_ ?_; (on_goal 2 => (intro _; try clear_value x)); (on_goal 1 => subst x))
      | (have g : _ → State := x; clear g; subst x) | (have g : _ → _ → State := x; clear g; subst x) | (have g : Option _ := x; clear g; subst x) | skip)
    | intro

theorem State.keeps_consumeAdvance {F : Nat} {s t : State} (hF : Within 144 F) (h : Keeps F s t) (n : Nat) : Keeps F s (t.consumeAdvance n) := by
  unfold State.consumeAdvance
  repeat' first
    | with_reducible assumption
    | with_reducible refine Keeps.ite ?_ ?_
    | with_reducible first | apply State.keeps_setEng | apply State.keeps_setPend
    | with_reducible exact hF.sub rfl
    | split
    | refine Keeps.ofFst (by assumption) ?_
    | refine Keeps.ofSnd (by assumption) ?_
    | ((fail_if_no_progress extract_lets +onlyGivenNames x); first
      | (have g : State := x; clear g; refine Keeps.cut x ?_ ?_; (on_goal 2 => (intro _; try clear_value x)); (on_goal 1 => subst x))
      | (have g : _ → State := x; clear g; subst x) | (have g : _ → _ → State := x; clear g; subst x) | (have g : Option _ := x; clear g; subst x) | skip)
    | intro

theorem State.keeps_waitTimeout {F : Nat} {s t : State} (hF : Within 130 F) (h : Keeps F s t) (n : Nat) : Keeps F s (t.waitTimeout n) := by
  unfold State.waitTimeout
  repeat' first
    | with_reducible assumption
    | with_reducible refine Keeps.ite ?_ ?_
    | with_reducible first | apply State.keeps_stick | apply State.keeps_setEng
    | with_reducible exact hF.sub rfl
    | split
    | refine Keeps.ofFst (by assumption) ?_
    | refine Keeps.ofSnd (by assumption) ?_
    | ((fail_if_no_progress extract_lets +onlyGivenNames x); first
      | (have g : State := x; clear g; refine Keeps.cut x ?_ ?_; (on_goal 2 => (intro _; try clear_value x)); (on_goal 1 => subst x))
      | (have g : _ → State := x; clear g; subst x) | (have g : _ → _ → State := x; clear g; subst x) | (have g : Option _ := x; clear g; subst x) | skip)
    | intro

theorem State.keeps_cancelStart {F : Nat} {s t : State} (hF : Within 130 F) (h : Keeps F s t) (n : Nat) (reason : Nat) : Keeps F s (t.cancelStart n reason) := by
  unfold State.cancelStart
  repeat' first
    | with_reducible assumption
    | with_reducible first | apply State.keeps_stick | apply State.keeps_setEng
    | with_reducible exact hF.sub rfl
    | intro

theorem State.keeps_startFault {F : Nat} {s t : State} (hF : Within 412850 F) (h : Keeps F s t) (n : Nat) : Keeps F s (t.startFault n) := by
  unfold State.startFault
  repeat' first
    | with_reducible assumption
    | with_reducible first | apply State.keeps_fault
    | with_reducible exact hF.sub rfl
    | intro

theorem State.keeps_useList {F : Nat} {s t : State} (hF : Within 128 F) (h : Keeps F s t) (n : Nat) (k : Nat) (read : Bool) : Keeps F s (t.useList n k read) := by
  unfold State.useList
  repeat' first
    | with_reducible assumption
    | with_reducible refine Keeps.ite ?_ ?_
    | with_reducible first | apply State.keeps_setEng
    | with_reducible exact hF.sub rfl
    | split
    | refine Keeps.ofFst (by assumption) ?_
    | refine Keeps.ofSnd (by assumption) ?_
    | ((fail_if_no_progress extract_lets +onlyGivenNames x); first
      | (have g : State := x; clear g; refine Keeps.cut x ?_ ?_; (on_goal 2 => (intro _; try clear_value x)); (on_goal 1 => subst x))
      | (have g : _ → State := x; clear g; subst x) | (have g : _ → _ → State := x; clear g; subst x) | (have g : Option _ := x; clear g; subst x) | skip)
    | intro

theorem State.keeps_loadList {F : Nat} {s t : State} (hF : Within 425138 F) (h : Keeps F s t) (n : Nat) (k : Nat) : Keeps F s (t.loadList n k) := by
  unfold State.loadList
  repeat' first
    | with_reducible assumption
    | with_reducible first | apply State.keeps_descRead | apply State.keeps_useList
    | with_reducible exact hF.sub rfl
    | refine Keeps.ofFst (by assumption) ?_
    | refine Keeps.ofSnd (by assumption) ?_
    | ((fail_if_no_progress extract_lets +onlyGivenNames x); first
      | (have g : State := x; clear g; refine Keeps.cut x ?_ ?_; (on_goal 2 => (intro _; try clear_value x)); (on_goal 1 => subst x))
      | (have g : _ → State := x; clear g; subst x) | (have g : _ → _ → State := x; clear g; subst x) | (have g : Option _ := x; clear g; subst x) | skip)
    | intro

theorem State.keeps_selectList {F : Nat} {s t : State} (hF : Within 425138 F) (h : Keeps F s t) (n : Nat) : Keeps F s (t.selectList n) := by
  unfold State.selectList
  repeat' first
    | with_reducible assumption
    | with_reducible first | apply State.keeps_loadList
    | with_reducible exact hF.sub rfl
    | intro

theorem State.keeps_beginRun {F : Nat} {s t : State} (hF : Within 425458 F) (h : Keeps F s t) (n : Nat) (free : Bool) (bad : Bool) : Keeps F s (t.beginRun n free bad) := by
  unfold State.beginRun
  repeat' first
    | with_reducible assumption
    | with_reducible first | apply State.keeps_setEng | apply State.keeps_controls
    | with_reducible exact hF.sub rfl
    | intro

theorem State.keeps_missStart {F : Nat} {s t : State} (hF : Within 412850 F) (h : Keeps F s t) (n : Nat) : Keeps F s (t.missStart n) := by
  unfold State.missStart
  repeat' first
    | with_reducible assumption
    | with_reducible first | apply State.keeps_stick | apply State.keeps_cancelStart | apply State.keeps_startFault
    | with_reducible exact hF.sub rfl
    | intro

theorem State.keeps_startEngine {F : Nat} {s t : State} (hF : Within 425458 F) (h : Keeps F s t) (n : Nat) (bad : Bool) : Keeps F s (t.startEngine n bad) := by
  unfold State.startEngine
  repeat' first
    | with_reducible assumption
    | with_reducible refine Keeps.ite ?_ ?_
    | with_reducible first | apply State.keeps_stick | apply State.keeps_setEng | apply State.keeps_setPend | apply State.keeps_descRead | apply State.keeps_cancelStart | apply State.keeps_startFault | apply State.keeps_useList | apply State.keeps_beginRun | apply State.keeps_missStart
    | with_reducible exact hF.sub rfl
    | split
    | refine Keeps.ofFst (by assumption) ?_
    | refine Keeps.ofSnd (by assumption) ?_
    | ((fail_if_no_progress extract_lets +onlyGivenNames x); first
      | (have g : State := x; clear g; refine Keeps.cut x ?_ ?_; (on_goal 2 => (intro _; try clear_value x)); (on_goal 1 => subst x))
      | (have g : _ → State := x; clear g; subst x) | (have g : _ → _ → State := x; clear g; subst x) | (have g : Option _ := x; clear g; subst x) | skip)
    | intro

theorem State.keeps_primeEngine {F : Nat} {s t : State} (hF : Within 425138 F) (h : Keeps F s t) (n : Nat) : Keeps F s (t.primeEngine n) := by
  unfold State.primeEngine
  repeat' first
    | with_reducible assumption
    | with_reducible refine Keeps.ite ?_ ?_
    | with_reducible first | apply State.keeps_setEng | apply State.keeps_selectList
    | with_reducible exact hF.sub rfl
    | split
    | refine Keeps.ofFst (by assumption) ?_
    | refine Keeps.ofSnd (by assumption) ?_
    | ((fail_if_no_progress extract_lets +onlyGivenNames x); first
      | (have g : State := x; clear g; refine Keeps.cut x ?_ ?_; (on_goal 2 => (intro _; try clear_value x)); (on_goal 1 => subst x))
      | (have g : _ → State := x; clear g; subst x) | (have g : _ → _ → State := x; clear g; subst x) | (have g : Option _ := x; clear g; subst x) | skip)
    | intro

theorem State.keeps_reprime {F : Nat} {s t : State} (hF : Within 425138 F) (h : Keeps F s t) (n : Nat) : Keeps F s (t.reprime n) := by
  unfold State.reprime
  repeat' first
    | with_reducible assumption
    | with_reducible refine Keeps.ite ?_ ?_
    | with_reducible first | apply State.keeps_setEng | apply State.keeps_selectList
    | with_reducible exact hF.sub rfl
    | split
    | refine Keeps.ofFst (by assumption) ?_
    | refine Keeps.ofSnd (by assumption) ?_
    | ((fail_if_no_progress extract_lets +onlyGivenNames x); first
      | (have g : State := x; clear g; refine Keeps.cut x ?_ ?_; (on_goal 2 => (intro _; try clear_value x)); (on_goal 1 => subst x))
      | (have g : _ → State := x; clear g; subst x) | (have g : _ → _ → State := x; clear g; subst x) | (have g : Option _ := x; clear g; subst x) | skip)
    | intro

theorem State.keeps_primingDone {F : Nat} {s t : State} (hF : Within 425458 F) (h : Keeps F s t) (n : Nat) (bad : List Nat) : Keeps F s (t.primingDone n bad) := by
  unfold State.primingDone
  repeat' first
    | with_reducible assumption
    | with_reducible refine Keeps.ite ?_ ?_
    | with_reducible first | apply State.keeps_stick | apply State.keeps_setEng | apply State.keeps_topUp | apply State.keeps_fetched | apply State.keeps_starve | apply State.keeps_controls | apply State.keeps_cancelStart | apply State.keeps_startFault | apply State.keeps_beginRun
    | with_reducible exact hF.sub rfl
    | split
    | refine Keeps.ofFst (by assumption) ?_
    | refine Keeps.ofSnd (by assumption) ?_
    | ((fail_if_no_progress extract_lets +onlyGivenNames x); first
      | (have g : State := x; clear g; refine Keeps.cut x ?_ ?_; (on_goal 2 => (intro _; try clear_value x)); (on_goal 1 => subst x))
      | (have g : _ → State := x; clear g; subst x) | (have g : _ → _ → State := x; clear g; subst x) | (have g : Option _ := x; clear g; subst x) | skip)
    | intro

theorem State.keeps_startInstant {F : Nat} {s t : State} (hF : Within 425458 F) (h : Keeps F s t) (n : Nat) : Keeps F s (t.startInstant n) := by
  unfold State.startInstant
  repeat' first
    | with_reducible assumption
    | with_reducible refine Keeps.ite ?_ ?_
    | with_reducible first | apply State.keeps_setEng | apply State.keeps_starve | apply State.keeps_beginRun
    | with_reducible exact hF.sub rfl
    | split
    | refine Keeps.ofFst (by assumption) ?_
    | refine Keeps.ofSnd (by assumption) ?_
    | ((fail_if_no_progress extract_lets +onlyGivenNames x); first
      | (have g : State := x; clear g; refine Keeps.cut x ?_ ?_; (on_goal 2 => (intro _; try clear_value x)); (on_goal 1 => subst x))
      | (have g : _ → State := x; clear g; subst x) | (have g : _ → _ → State := x; clear g; subst x) | (have g : Option _ := x; clear g; subst x) | skip)
    | intro

theorem State.keeps_prefetchArrival {F : Nat} {s t : State} (hF : Within 425458 F) (h : Keeps F s t) (n : Nat) (bad : List Nat) : Keeps F s (t.prefetchArrival n bad) := by
  unfold State.prefetchArrival
  repeat' first
    | with_reducible assumption
    | with_reducible refine Keeps.ite ?_ ?_
    | with_reducible first | apply State.keeps_setEng | apply State.keeps_topUp | apply State.keeps_fetched | apply State.keeps_controls
    | with_reducible exact hF.sub rfl
    | split
    | refine Keeps.ofFst (by assumption) ?_
    | refine Keeps.ofSnd (by assumption) ?_
    | ((fail_if_no_progress extract_lets +onlyGivenNames x); first
      | (have g : State := x; clear g; refine Keeps.cut x ?_ ?_; (on_goal 2 => (intro _; try clear_value x)); (on_goal 1 => subst x))
      | (have g : _ → State := x; clear g; subst x) | (have g : _ → _ → State := x; clear g; subst x) | (have g : Option _ := x; clear g; subst x) | skip)
    | intro

theorem State.keeps_undoStart {F : Nat} {s t : State} (hF : Within 144 F) (h : Keeps F s t) (n : Nat) : Keeps F s (t.undoStart n) := by
  unfold State.undoStart
  repeat' first
    | with_reducible assumption
    | with_reducible refine Keeps.ite ?_ ?_
    | with_reducible first | apply State.keeps_setEng | apply State.keeps_setPend
    | with_reducible exact hF.sub rfl
    | split
    | refine Keeps.ofFst (by assumption) ?_
    | refine Keeps.ofSnd (by assumption) ?_
    | ((fail_if_no_progress extract_lets +onlyGivenNames x); first
      | (have g : State := x; clear g; refine Keeps.cut x ?_ ?_; (on_goal 2 => (intro _; try clear_value x)); (on_goal 1 => subst x))
      | (have g : _ → State := x; clear g; subst x) | (have g : _ → _ → State := x; clear g; subst x) | (have g : Option _ := x; clear g; subst x) | skip)
    | intro

theorem State.keeps_stopEngine {F : Nat} {s t : State} (hF : Within 146 F) (h : Keeps F s t) (n : Nat) : Keeps F s (t.stopEngine n) := by
  unfold State.stopEngine
  repeat' first
    | with_reducible assumption
    | with_reducible refine Keeps.ite ?_ ?_
    | with_reducible first | apply State.keeps_stick | apply State.keeps_setEng | apply State.keeps_askStop | apply State.keeps_undoStart
    | with_reducible exact hF.sub rfl
    | split
    | refine Keeps.ofFst (by assumption) ?_
    | refine Keeps.ofSnd (by assumption) ?_
    | ((fail_if_no_progress extract_lets +onlyGivenNames x); first
      | (have g : State := x; clear g; refine Keeps.cut x ?_ ?_; (on_goal 2 => (intro _; try clear_value x)); (on_goal 1 => subst x))
      | (have g : _ → State := x; clear g; subst x) | (have g : _ → _ → State := x; clear g; subst x) | (have g : Option _ := x; clear g; subst x) | skip)
    | intro

theorem State.keeps_resumeEngine {F : Nat} {s t : State} (hF : Within 425458 F) (h : Keeps F s t) (n : Nat) : Keeps F s (t.resumeEngine n) := by
  unfold State.resumeEngine
  repeat' first
    | with_reducible assumption
    | with_reducible refine Keeps.ite ?_ ?_
    | with_reducible first | apply State.keeps_setFld | apply State.keeps_stickIf | apply State.keeps_startEngine
    | with_reducible exact hF.sub rfl
    | split
    | refine Keeps.ofFst (by assumption) ?_
    | refine Keeps.ofSnd (by assumption) ?_
    | ((fail_if_no_progress extract_lets +onlyGivenNames x); first
      | (have g : State := x; clear g; refine Keeps.cut x ?_ ?_; (on_goal 2 => (intro _; try clear_value x)); (on_goal 1 => subst x))
      | (have g : _ → State := x; clear g; subst x) | (have g : _ → _ → State := x; clear g; subst x) | (have g : Option _ := x; clear g; subst x) | skip)
    | intro

theorem State.keeps_engineReady {F : Nat} {s t : State} (hF : Within 425458 F) (h : Keeps F s t) (n : Nat) : Keeps F s (t.engineReady n) := by
  unfold State.engineReady
  repeat' first
    | with_reducible assumption
    | with_reducible refine Keeps.ite ?_ ?_
    | with_reducible first | apply State.keeps_setEng | apply State.keeps_arm | apply State.keeps_controls | apply State.keeps_missStart
    | with_reducible exact hF.sub rfl
    | split
    | refine Keeps.ofFst (by assumption) ?_
    | refine Keeps.ofSnd (by assumption) ?_
    | ((fail_if_no_progress extract_lets +onlyGivenNames x); first
      | (have g : State := x; clear g; refine Keeps.cut x ?_ ?_; (on_goal 2 => (intro _; try clear_value x)); (on_goal 1 => subst x))
      | (have g : _ → State := x; clear g; subst x) | (have g : _ → _ → State := x; clear g; subst x) | (have g : Option _ := x; clear g; subst x) | skip)
    | intro

theorem State.keeps_latchHit {F : Nat} {s t : State} (hF : Within 128 F) (h : Keeps F s t) (n : Nat) : Keeps F s (t.latchHit n) := by
  unfold State.latchHit
  repeat' first
    | with_reducible assumption
    | with_reducible refine Keeps.ite ?_ ?_
    | with_reducible first | apply State.keeps_setEng
    | with_reducible exact hF.sub rfl
    | split
    | refine Keeps.ofFst (by assumption) ?_
    | refine Keeps.ofSnd (by assumption) ?_
    | ((fail_if_no_progress extract_lets +onlyGivenNames x); first
      | (have g : State := x; clear g; refine Keeps.cut x ?_ ?_; (on_goal 2 => (intro _; try clear_value x)); (on_goal 1 => subst x))
      | (have g : _ → State := x; clear g; subst x) | (have g : _ → _ → State := x; clear g; subst x) | (have g : Option _ := x; clear g; subst x) | skip)
    | intro

end Sys2Proof.Machine
end

