-- ==== Sys2Proof/Laws/TimeOps.lean ====
section
/-!
SUPPORT. The operations of Machine/TimeOps.lean: the parts of the state that each may change, and what it keeps.
-/

namespace Sys2Proof.Machine

open Sys2Proof

set_option linter.all false

theorem State.keeps_judgeGen {F : Nat} {s t : State} (hF : Within 8 F) (h : Keeps F s t) (k : Nat) : Keeps F s (t.judgeGen k) := by
  unfold State.judgeGen
  repeat' first
    | with_reducible assumption
    | with_reducible refine Keeps.ite ?_ ?_
    | with_reducible first | apply State.keeps_setGen
    | with_reducible exact hF.sub rfl
    | split
    | refine Keeps.ofFst (by assumption) ?_
    | refine Keeps.ofSnd (by assumption) ?_
    | ((fail_if_no_progress extract_lets +onlyGivenNames x); first
      | (have g : State := x; clear g; refine Keeps.cut x ?_ ?_; (on_goal 2 => (intro _; try clear_value x)); (on_goal 1 => subst x))
      | (have g : _ → State := x; clear g; subst x) | (have g : _ → _ → State := x; clear g; subst x) | (have g : Option _ := x; clear g; subst x) | skip)
    | intro

theorem State.keeps_armGen {F : Nat} {s t : State} (hF : Within 412858 F) (h : Keeps F s t) (m : Nat) (k : Nat) (link : Option Assertion) : Keeps F s (t.armGen m k link) := by
  unfold State.armGen
  repeat' first
    | with_reducible assumption
    | with_reducible refine Keeps.ite ?_ ?_
    | with_reducible first | apply State.keeps_writeFault | apply State.keeps_setGen | apply State.keeps_judgeGen
    | with_reducible exact hF.sub rfl
    | split
    | refine Keeps.ofFst (by assumption) ?_
    | refine Keeps.ofSnd (by assumption) ?_
    | ((fail_if_no_progress extract_lets +onlyGivenNames x); first
      | (have g : State := x; clear g; refine Keeps.cut x ?_ ?_; (on_goal 2 => (intro _; try clear_value x)); (on_goal 1 => subst x))
      | (have g : _ → State := x; clear g; subst x) | (have g : _ → _ → State := x; clear g; subst x) | (have g : Option _ := x; clear g; subst x) | skip)
    | intro

theorem State.keeps_setChain {F : Nat} {s t : State} (hF : Within 16 F) (h : Keeps F s t) (c : Chain) : Keeps F s (t.setChain c) := by
  unfold State.setChain
  repeat' first
    | with_reducible assumption
    | fail_if_no_progress (with_reducible refine Keeps.evm' (hF.sub rfl) ?_ (by with_reducible rfl))
    | intro

theorem State.keeps_linkAssert {F : Nat} {s t : State} (hF : Within 412850 F) (h : Keeps F s t) (a : Assertion) (src : Nat) :
    Keeps F s (t.linkAssert a src) := by
  unfold State.linkAssert
  dsimp only
  refine Keeps.ite ((State.keeps_setChain (hF.sub rfl) h _).asserted (hF.sub rfl) _) (Keeps.ite ?_ ?_)
  · exact State.keeps_deferFresh (hF.sub rfl) (State.keeps_log (hF.sub rfl) (State.keeps_stick (hF.sub rfl) h ..) ..) ..
  · exact (State.keeps_setChain (hF.sub rfl) (State.keeps_stick (hF.sub rfl) (State.keeps_tally (hF.sub rfl) h ..) ..) _).reentry (hF.sub rfl) _

theorem State.keeps_fireGen {F : Nat} {s t : State} (hF : Within 412858 F) (h : Keeps F s t) (k : Nat) : Keeps F s (t.fireGen k) := by
  unfold State.fireGen
  repeat' first
    | with_reducible assumption
    | with_reducible refine Keeps.ite ?_ ?_
    | with_reducible first | apply State.keeps_fault | apply State.keeps_agentWrite | apply State.keeps_stick | apply State.keeps_tally | apply State.keeps_setGen | apply State.keeps_assertSrc | apply State.keeps_linkAssert
    | with_reducible exact hF.sub rfl
    | split
    | refine Keeps.ofFst (by assumption) ?_
    | refine Keeps.ofSnd (by assumption) ?_
    | ((fail_if_no_progress extract_lets +onlyGivenNames x); first
      | (have g : State := x; clear g; refine Keeps.cut x ?_ ?_; (on_goal 2 => (intro _; try clear_value x)); (on_goal 1 => subst x))
      | (have g : _ → State := x; clear g; subst x) | (have g : _ → _ → State := x; clear g; subst x) | (have g : Option _ := x; clear g; subst x) | skip)
    | intro

theorem State.keeps_disarmGen {F : Nat} {s t : State} (hF : Within 412858 F) (h : Keeps F s t) (k : Nat) : Keeps F s (t.disarmGen k) := by
  unfold State.disarmGen
  repeat' first
    | with_reducible assumption
    | with_reducible refine Keeps.ite ?_ ?_
    | with_reducible first | apply State.keeps_setGen | apply State.keeps_fireGen
    | with_reducible exact hF.sub rfl
    | split
    | refine Keeps.ofFst (by assumption) ?_
    | refine Keeps.ofSnd (by assumption) ?_
    | ((fail_if_no_progress extract_lets +onlyGivenNames x); first
      | (have g : State := x; clear g; refine Keeps.cut x ?_ ?_; (on_goal 2 => (intro _; try clear_value x)); (on_goal 1 => subst x))
      | (have g : _ → State := x; clear g; subst x) | (have g : _ → _ → State := x; clear g; subst x) | (have g : Option _ := x; clear g; subst x) | skip)
    | intro

theorem State.keeps_genCommitted {F : Nat} {s t : State} (hF : Within 412858 F) (h : Keeps F s t) (m : Nat) (k : Nat) (old : State) : Keeps F s (t.genCommitted m k old) := by
  unfold State.genCommitted
  repeat' first
    | with_reducible assumption
    | with_reducible refine Keeps.ite ?_ ?_
    | with_reducible first | apply State.keeps_writeFault | apply State.keeps_setGen | apply State.keeps_judgeGen | apply State.keeps_fireGen
    | with_reducible exact hF.sub rfl
    | split
    | refine Keeps.ofFst (by assumption) ?_
    | refine Keeps.ofSnd (by assumption) ?_
    | ((fail_if_no_progress extract_lets +onlyGivenNames x); first
      | (have g : State := x; clear g; refine Keeps.cut x ?_ ?_; (on_goal 2 => (intro _; try clear_value x)); (on_goal 1 => subst x))
      | (have g : _ → State := x; clear g; subst x) | (have g : _ → _ → State := x; clear g; subst x) | (have g : Option _ := x; clear g; subst x) | skip)
    | intro

theorem State.keeps_attachMissed {F : Nat} {s t : State} (hF : Within 412850 F) (h : Keeps F s t) (n : Nat) : Keeps F s (t.attachMissed n) := by
  unfold State.attachMissed
  repeat' first
    | with_reducible assumption
    | with_reducible refine Keeps.ite ?_ ?_
    | with_reducible first | apply State.keeps_fault | apply State.keeps_setForce
    | with_reducible exact hF.sub rfl
    | split
    | refine Keeps.ofFst (by assumption) ?_
    | refine Keeps.ofSnd (by assumption) ?_
    | ((fail_if_no_progress extract_lets +onlyGivenNames x); first
      | (have g : State := x; clear g; refine Keeps.cut x ?_ ?_; (on_goal 2 => (intro _; try clear_value x)); (on_goal 1 => subst x))
      | (have g : _ → State := x; clear g; subst x) | (have g : _ → _ → State := x; clear g; subst x) | (have g : Option _ := x; clear g; subst x) | skip)
    | intro

theorem State.keeps_farLate {F : Nat} {s t : State} (hF : Within 412850 F) (h : Keeps F s t) (c : Nat) : Keeps F s (t.farLate c) := by
  unfold State.farLate
  repeat' first
    | with_reducible assumption
    | with_reducible first | apply State.keeps_log | apply State.keeps_stick | apply State.keeps_tally
    | with_reducible exact hF.sub rfl
    | refine Keeps.ofFst (by assumption) ?_
    | refine Keeps.ofSnd (by assumption) ?_
    | ((fail_if_no_progress extract_lets +onlyGivenNames x); first
      | (have g : State := x; clear g; refine Keeps.cut x ?_ ?_; (on_goal 2 => (intro _; try clear_value x)); (on_goal 1 => subst x))
      | (have g : _ → State := x; clear g; subst x) | (have g : _ → _ → State := x; clear g; subst x) | (have g : Option _ := x; clear g; subst x) | skip)
    | intro

theorem State.keeps_becomeReady {F : Nat} {s t : State} (hF : Within 425466 F) (h : Keeps F s t) : Keeps F s (t.becomeReady) := by
  unfold State.becomeReady
  repeat' first
    | with_reducible assumption
    | with_reducible refine Keeps.ite ?_ ?_
    | with_reducible first | apply State.keeps_each | apply State.keeps_engineReady | apply State.keeps_judgeGen | apply State.keeps_attachMissed | apply State.keeps_farLate
    | fail_if_no_progress (with_reducible refine Keeps.tb' (hF.sub rfl) ?_ (by with_reducible rfl))
    | fail_if_no_progress (with_reducible refine Keeps.evm' (hF.sub rfl) ?_ (by with_reducible rfl))
    | with_reducible exact hF.sub rfl
    | split
    | refine Keeps.ofFst (by assumption) ?_
    | refine Keeps.ofSnd (by assumption) ?_
    | ((fail_if_no_progress extract_lets +onlyGivenNames x); first
      | (have g : State := x; clear g; refine Keeps.cut x ?_ ?_; (on_goal 2 => (intro _; try clear_value x)); (on_goal 1 => subst x))
      | (have g : _ → State := x; clear g; subst x) | (have g : _ → _ → State := x; clear g; subst x) | (have g : Option _ := x; clear g; subst x) | skip)
    | intro

theorem State.keeps_setTb {F : Nat} {s t : State} (hF : Within 8 F) (h : Keeps F s t) (x : Tb)
    (e0 : Table.rising t.tb.gens = true → Table.rising x.gens = true) (e1 : Table.rising t.tb.ports = true → Table.rising x.ports = true) :
    Keeps F s (t.setTb x) := h.step (Frame.tb' hF t x) rfl rfl fun c => { c with gens := e0 c.gens, beats := e1 c.beats }

@[simp] theorem Tb.takePix_gens (x : Tb) : x.takePix.gens = x.gens := by unfold Tb.takePix; split <;> rfl

@[simp] theorem Tb.takePix_ports (x : Tb) : x.takePix.ports = x.ports := by unfold Tb.takePix; split <;> rfl

theorem State.keeps_firstLock {F : Nat} {s t : State} (hF : Within 425466 F) (h : Keeps F s t) (pos : Nat) : Keeps F s (t.firstLock pos) := by
  unfold State.firstLock
  repeat' first
    | with_reducible assumption
    | with_reducible first | apply State.keeps_becomeReady | apply State.keeps_setTb
    | with_reducible exact hF.sub rfl
    | with_reducible exact id
    | (intro h0; first | exact h0 | simpa using h0)
    | intro

theorem State.keeps_relock {F : Nat} {s t : State} (hF : Within 131082 F) (h : Keeps F s t) (err : Int) : Keeps F s (t.relock err) := by
  unfold State.relock
  repeat' first
    | with_reducible assumption
    | with_reducible first | apply State.keeps_clearCondition | apply State.keeps_stick | apply State.keeps_setTb
    | with_reducible exact hF.sub rfl
    | with_reducible exact id
    | split
    | refine Keeps.ofFst (by assumption) ?_
    | refine Keeps.ofSnd (by assumption) ?_
    | intro

theorem State.keeps_resolve {F : Nat} {s t : State} (hF : Within 131082 F) (h : Keeps F s t) (err : Int) : Keeps F s (t.resolve err) := by
  unfold State.resolve
  repeat' first
    | with_reducible assumption
    | with_reducible refine Keeps.ite ?_ ?_
    | with_reducible first | apply State.keeps_setTb | apply State.keeps_relock
    | with_reducible exact hF.sub rfl
    | with_reducible exact id
    | split
    | refine Keeps.ofFst (by assumption) ?_
    | refine Keeps.ofSnd (by assumption) ?_
    | ((fail_if_no_progress extract_lets +onlyGivenNames x); first
      | (have g : State := x; clear g; refine Keeps.cut x ?_ ?_; (on_goal 2 => (intro _; try clear_value x)); (on_goal 1 => subst x))
      | (have g : _ → State := x; clear g; subst x) | (have g : _ → _ → State := x; clear g; subst x) | (have g : Option _ := x; clear g; subst x) | skip)
    | (intro h0; first | exact h0 | simpa using h0)
    | intro

theorem State.keeps_enterHoldover {F : Nat} {s t : State} (hF : Within 412858 F) (h : Keeps F s t) : Keeps F s (t.enterHoldover) := by
  unfold State.enterHoldover
  repeat' first
    | with_reducible assumption
    | with_reducible refine Keeps.ite ?_ ?_
    | with_reducible first | apply State.keeps_fault | apply State.keeps_stick | apply State.keeps_setTb
    | with_reducible exact hF.sub rfl
    | with_reducible exact id
    | split
    | refine Keeps.ofFst (by assumption) ?_
    | refine Keeps.ofSnd (by assumption) ?_
    | ((fail_if_no_progress extract_lets +onlyGivenNames x); first
      | (have g : State := x; clear g; refine Keeps.cut x ?_ ?_; (on_goal 2 => (intro _; try clear_value x)); (on_goal 1 => subst x))
      | (have g : _ → State := x; clear g; subst x) | (have g : _ → _ → State := x; clear g; subst x) | (have g : Option _ := x; clear g; subst x) | skip)
    | intro

theorem State.keeps_measureErr {F : Nat} {s t : State} (hF : Within 16908298 F) (h : Keeps F s t) (e : Int) : Keeps F s (t.measureErr e) := by
  unfold State.measureErr
  repeat' first
    | with_reducible assumption
    | with_reducible refine Keeps.ite ?_ ?_
    | with_reducible first | apply State.keeps_freeInt | apply State.keeps_setTb | apply State.keeps_resolve
    | with_reducible exact hF.sub rfl
    | with_reducible exact id
    | split
    | refine Keeps.ofFst (by assumption) ?_
    | refine Keeps.ofSnd (by assumption) ?_
    | ((fail_if_no_progress extract_lets +onlyGivenNames x); first
      | (have g : State := x; clear g; refine Keeps.cut x ?_ ?_; (on_goal 2 => (intro _; try clear_value x)); (on_goal 1 => subst x))
      | (have g : _ → State := x; clear g; subst x) | (have g : _ → _ → State := x; clear g; subst x) | (have g : Option _ := x; clear g; subst x) | skip)
    | intro

theorem State.keeps_lineLost {F : Nat} {s t : State} (hF : Within 412858 F) (h : Keeps F s t) : Keeps F s (t.lineLost) := by
  unfold State.lineLost
  repeat' first
    | with_reducible assumption
    | with_reducible first | apply State.keeps_setTb | apply State.keeps_enterHoldover
    | with_reducible exact hF.sub rfl
    | with_reducible exact id
    | split
    | refine Keeps.ofFst (by assumption) ?_
    | refine Keeps.ofSnd (by assumption) ?_
    | ((fail_if_no_progress extract_lets +onlyGivenNames x); first
      | (have g : State := x; clear g; refine Keeps.cut x ?_ ?_; (on_goal 2 => (intro _; try clear_value x)); (on_goal 1 => subst x))
      | (have g : _ → State := x; clear g; subst x) | (have g : _ → _ → State := x; clear g; subst x) | (have g : Option _ := x; clear g; subst x) | skip)
    | intro

theorem State.keeps_lineFailed {F : Nat} {s t : State} (hF : Within 412858 F) (h : Keeps F s t) (j : Judge) : Keeps F s (t.lineFailed j) := by
  unfold State.lineFailed
  repeat' first
    | with_reducible assumption
    | with_reducible refine Keeps.ite ?_ ?_
    | with_reducible first | apply State.keeps_tally | apply State.keeps_setTb | apply State.keeps_lineLost
    | with_reducible exact hF.sub rfl
    | with_reducible exact id
    | split
    | refine Keeps.ofFst (by assumption) ?_
    | refine Keeps.ofSnd (by assumption) ?_
    | ((fail_if_no_progress extract_lets +onlyGivenNames x); first
      | (have g : State := x; clear g; refine Keeps.cut x ?_ ?_; (on_goal 2 => (intro _; try clear_value x)); (on_goal 1 => subst x))
      | (have g : _ → State := x; clear g; subst x) | (have g : _ → _ → State := x; clear g; subst x) | (have g : Option _ := x; clear g; subst x) | skip)
    | intro

theorem State.keeps_lineGood {F : Nat} {s t : State} (hF : Within 17202682 F) (h : Keeps F s t) (was : Judge) : Keeps F s (t.lineGood was) := by
  unfold State.lineGood
  repeat' first
    | with_reducible assumption
    | with_reducible refine Keeps.ite ?_ ?_
    | with_reducible first | apply State.keeps_firstLock | apply State.keeps_resolve | apply State.keeps_measureErr
    | with_reducible exact hF.sub rfl
    | split
    | refine Keeps.ofFst (by assumption) ?_
    | refine Keeps.ofSnd (by assumption) ?_
    | ((fail_if_no_progress extract_lets +onlyGivenNames x); first
      | (have g : State := x; clear g; refine Keeps.cut x ?_ ?_; (on_goal 2 => (intro _; try clear_value x)); (on_goal 1 => subst x))
      | (have g : _ → State := x; clear g; subst x) | (have g : _ → _ → State := x; clear g; subst x) | (have g : Option _ := x; clear g; subst x) | skip)
    | intro

theorem State.keeps_lineEdge {F : Nat} {s t : State} (hF : Within 17202682 F) (h : Keeps F s t) : Keeps F s (t.lineEdge) := by
  unfold State.lineEdge
  repeat' first
    | with_reducible assumption
    | with_reducible refine Keeps.ite ?_ ?_
    | with_reducible first | apply State.keeps_stick | apply State.keeps_stickIf | apply State.keeps_setTb | apply State.keeps_firstLock | apply State.keeps_lineFailed | apply State.keeps_lineGood
    | with_reducible exact hF.sub rfl
    | with_reducible exact id
    | split
    | refine Keeps.ofFst (by assumption) ?_
    | refine Keeps.ofSnd (by assumption) ?_
    | ((fail_if_no_progress extract_lets +onlyGivenNames x); first
      | (have g : State := x; clear g; refine Keeps.cut x ?_ ?_; (on_goal 2 => (intro _; try clear_value x)); (on_goal 1 => subst x))
      | (have g : _ → State := x; clear g; subst x) | (have g : _ → _ → State := x; clear g; subst x) | (have g : Option _ := x; clear g; subst x) | skip)
    | intro

theorem State.keeps_lineMissing {F : Nat} {s t : State} (hF : Within 412858 F) (h : Keeps F s t) : Keeps F s (t.lineMissing) := by
  unfold State.lineMissing
  repeat' first
    | with_reducible assumption
    | with_reducible refine Keeps.ite ?_ ?_
    | with_reducible first | apply State.keeps_lineFailed
    | with_reducible exact hF.sub rfl
    | split
    | refine Keeps.ofFst (by assumption) ?_
    | refine Keeps.ofSnd (by assumption) ?_
    | ((fail_if_no_progress extract_lets +onlyGivenNames x); first
      | (have g : State := x; clear g; refine Keeps.cut x ?_ ?_; (on_goal 2 => (intro _; try clear_value x)); (on_goal 1 => subst x))
      | (have g : _ → State := x; clear g; subst x) | (have g : _ → _ → State := x; clear g; subst x) | (have g : Option _ := x; clear g; subst x) | skip)
    | intro

theorem State.keeps_frameMark {F : Nat} {s t : State} (hF : Within 425466 F) (h : Keeps F s t) : Keeps F s (t.frameMark) := by
  unfold State.frameMark
  repeat' first
    | with_reducible assumption
    | with_reducible refine Keeps.ite ?_ ?_
    | with_reducible first | apply State.keeps_fault | apply State.keeps_stick | apply State.keeps_tally | apply State.keeps_setTb | apply State.keeps_firstLock
    | with_reducible exact hF.sub rfl
    | with_reducible exact id
    | split
    | refine Keeps.ofFst (by assumption) ?_
    | refine Keeps.ofSnd (by assumption) ?_
    | ((fail_if_no_progress extract_lets +onlyGivenNames x); first
      | (have g : State := x; clear g; refine Keeps.cut x ?_ ?_; (on_goal 2 => (intro _; try clear_value x)); (on_goal 1 => subst x))
      | (have g : _ → State := x; clear g; subst x) | (have g : _ → _ → State := x; clear g; subst x) | (have g : Option _ := x; clear g; subst x) | skip)
    | intro

theorem State.keeps_frameSample {F : Nat} {s t : State} (hF : Within 425466 F) (h : Keeps F s t) (active : Bool) : Keeps F s (t.frameSample active) := by
  unfold State.frameSample
  repeat' first
    | with_reducible assumption
    | with_reducible refine Keeps.ite ?_ ?_
    | with_reducible first | apply State.keeps_setTb | apply State.keeps_frameMark
    | with_reducible exact hF.sub rfl
    | with_reducible exact id
    | split
    | refine Keeps.ofFst (by assumption) ?_
    | refine Keeps.ofSnd (by assumption) ?_
    | ((fail_if_no_progress extract_lets +onlyGivenNames x); first
      | (have g : State := x; clear g; refine Keeps.cut x ?_ ?_; (on_goal 2 => (intro _; try clear_value x)); (on_goal 1 => subst x))
      | (have g : _ → State := x; clear g; subst x) | (have g : _ → _ → State := x; clear g; subst x) | (have g : Option _ := x; clear g; subst x) | skip)
    | intro

theorem State.keeps_activate {F : Nat} {s t : State} (hF : Within 131082 F) (h : Keeps F s t) (p : Nat) (err : Int) : Keeps F s (t.activate p err) := by
  unfold State.activate
  repeat' first
    | with_reducible assumption
    | with_reducible first | apply State.keeps_stick | apply State.keeps_setTb | apply State.keeps_resolve
    | with_reducible exact hF.sub rfl
    | with_reducible exact id
    | intro

theorem State.keeps_chooseActive {F : Nat} {s t : State} (hF : Within 131082 F) (h : Keeps F s t) : Keeps F s (t.chooseActive) := by
  unfold State.chooseActive
  repeat' first
    | with_reducible assumption
    | with_reducible refine Keeps.ite ?_ ?_
    | with_reducible first | apply State.keeps_activate
    | with_reducible exact hF.sub rfl
    | split
    | refine Keeps.ofFst (by assumption) ?_
    | refine Keeps.ofSnd (by assumption) ?_
    | ((fail_if_no_progress extract_lets +onlyGivenNames x); first
      | (have g : State := x; clear g; refine Keeps.cut x ?_ ?_; (on_goal 2 => (intro _; try clear_value x)); (on_goal 1 => subst x))
      | (have g : _ → State := x; clear g; subst x) | (have g : _ → _ → State := x; clear g; subst x) | (have g : Option _ := x; clear g; subst x) | skip)
    | intro

theorem State.keeps_beatLost {F : Nat} {s t : State} (hF : Within 412858 F) (h : Keeps F s t) (p : Nat) : Keeps F s (t.beatLost p) := by
  unfold State.beatLost
  repeat' first
    | with_reducible assumption
    | with_reducible refine Keeps.ite ?_ ?_
    | with_reducible first | apply State.keeps_stick | apply State.keeps_setBeatPort | apply State.keeps_setTb | apply State.keeps_enterHoldover | apply State.keeps_activate | apply State.keeps_chooseActive
    | with_reducible exact hF.sub rfl
    | with_reducible exact id
    | split
    | refine Keeps.ofFst (by assumption) ?_
    | refine Keeps.ofSnd (by assumption) ?_
    | ((fail_if_no_progress extract_lets +onlyGivenNames x); first
      | (have g : State := x; clear g; refine Keeps.cut x ?_ ?_; (on_goal 2 => (intro _; try clear_value x)); (on_goal 1 => subst x))
      | (have g : _ → State := x; clear g; subst x) | (have g : _ → _ → State := x; clear g; subst x) | (have g : Option _ := x; clear g; subst x) | skip)
    | intro

theorem State.keeps_beatFailed {F : Nat} {s t : State} (hF : Within 412858 F) (h : Keeps F s t) (p : Nat) (j : Judge) : Keeps F s (t.beatFailed p j) := by
  unfold State.beatFailed
  repeat' first
    | with_reducible assumption
    | with_reducible refine Keeps.ite ?_ ?_
    | with_reducible first | apply State.keeps_tally | apply State.keeps_setBeatPort | apply State.keeps_beatLost
    | with_reducible exact hF.sub rfl
    | split
    | refine Keeps.ofFst (by assumption) ?_
    | refine Keeps.ofSnd (by assumption) ?_
    | ((fail_if_no_progress extract_lets +onlyGivenNames x); first
      | (have g : State := x; clear g; refine Keeps.cut x ?_ ?_; (on_goal 2 => (intro _; try clear_value x)); (on_goal 1 => subst x))
      | (have g : _ → State := x; clear g; subst x) | (have g : _ → _ → State := x; clear g; subst x) | (have g : Option _ := x; clear g; subst x) | skip)
    | intro

theorem State.keeps_beatGood {F : Nat} {s t : State} (hF : Within 17202682 F) (h : Keeps F s t) (p : Nat) : Keeps F s (t.beatGood p) := by
  unfold State.beatGood
  repeat' first
    | with_reducible assumption
    | with_reducible refine Keeps.ite ?_ ?_
    | with_reducible first | apply State.keeps_stick | apply State.keeps_setBeatPort | apply State.keeps_setTb | apply State.keeps_firstLock | apply State.keeps_resolve | apply State.keeps_measureErr | apply State.keeps_chooseActive
    | with_reducible exact hF.sub rfl
    | with_reducible exact id
    | split
    | refine Keeps.ofFst (by assumption) ?_
    | refine Keeps.ofSnd (by assumption) ?_
    | ((fail_if_no_progress extract_lets +onlyGivenNames x); first
      | (have g : State := x; clear g; refine Keeps.cut x ?_ ?_; (on_goal 2 => (intro _; try clear_value x)); (on_goal 1 => subst x))
      | (have g : _ → State := x; clear g; subst x) | (have g : _ → _ → State := x; clear g; subst x) | (have g : Option _ := x; clear g; subst x) | skip)
    | intro

theorem State.keeps_beatAccepted {F : Nat} {s t : State} (hF : Within 17202682 F) (h : Keeps F s t) (p : Nat) (b : Beat) : Keeps F s (t.beatAccepted p b) := by
  unfold State.beatAccepted
  repeat' first
    | with_reducible assumption
    | with_reducible refine Keeps.ite ?_ ?_
    | with_reducible first | apply State.keeps_stick | apply State.keeps_stickIf | apply State.keeps_setBeatPort | apply State.keeps_setTb | apply State.keeps_beatFailed | apply State.keeps_beatGood
    | with_reducible exact hF.sub rfl
    | with_reducible exact id
    | split
    | refine Keeps.ofFst (by assumption) ?_
    | refine Keeps.ofSnd (by assumption) ?_
    | ((fail_if_no_progress extract_lets +onlyGivenNames x); first
      | (have g : State := x; clear g; refine Keeps.cut x ?_ ?_; (on_goal 2 => (intro _; try clear_value x)); (on_goal 1 => subst x))
      | (have g : _ → State := x; clear g; subst x) | (have g : _ → _ → State := x; clear g; subst x) | (have g : Option _ := x; clear g; subst x) | skip)
    | intro

theorem State.keeps_beatMissing {F : Nat} {s t : State} (hF : Within 412858 F) (h : Keeps F s t) (p : Nat) : Keeps F s (t.beatMissing p) := by
  unfold State.beatMissing
  repeat' first
    | with_reducible assumption
    | with_reducible refine Keeps.ite ?_ ?_
    | with_reducible first | apply State.keeps_beatFailed
    | with_reducible exact hF.sub rfl
    | split
    | refine Keeps.ofFst (by assumption) ?_
    | refine Keeps.ofSnd (by assumption) ?_
    | ((fail_if_no_progress extract_lets +onlyGivenNames x); first
      | (have g : State := x; clear g; refine Keeps.cut x ?_ ?_; (on_goal 2 => (intro _; try clear_value x)); (on_goal 1 => subst x))
      | (have g : _ → State := x; clear g; subst x) | (have g : _ → _ → State := x; clear g; subst x) | (have g : Option _ := x; clear g; subst x) | skip)
    | intro

theorem State.keeps_receiveBeat {F : Nat} {s t : State} (hF : Within 17202682 F) (h : Keeps F s t) (p : Nat) (b : Beat) : Keeps F s (t.receiveBeat p b) := by
  unfold State.receiveBeat
  repeat' first
    | with_reducible assumption
    | with_reducible refine Keeps.ite ?_ ?_
    | with_reducible first | apply State.keeps_fault | apply State.keeps_stick | apply State.keeps_beatAccepted
    | with_reducible exact hF.sub rfl
    | split
    | intro

theorem State.keeps_delayExchange {F : Nat} {s t : State} (hF : Within 10 F) (h : Keeps F s t) (p : Nat) (rtt : Int) : Keeps F s (t.delayExchange p rtt) := by
  unfold State.delayExchange
  repeat' first
    | with_reducible assumption
    | with_reducible refine Keeps.ite ?_ ?_
    | with_reducible first | apply State.keeps_tally | apply State.keeps_setBeatPort
    | with_reducible exact hF.sub rfl
    | split
    | refine Keeps.ofFst (by assumption) ?_
    | refine Keeps.ofSnd (by assumption) ?_
    | ((fail_if_no_progress extract_lets +onlyGivenNames x); first
      | (have g : State := x; clear g; refine Keeps.cut x ?_ ?_; (on_goal 2 => (intro _; try clear_value x)); (on_goal 1 => subst x))
      | (have g : _ → State := x; clear g; subst x) | (have g : _ → _ → State := x; clear g; subst x) | (have g : Option _ := x; clear g; subst x) | skip)
    | intro

theorem State.passes_runTo {F : Nat} (hF : Within 9 F) (t : State) (u : Nat) (h : t.now ≤ u) : Passes F t (t.runTo u) := by
  refine ⟨by constructor <;> intros <;> first | rfl | exact hF.out rfl (by assumption), h, fun _ i => BitVec.or_self, fun c => ?_⟩
  rw [State.canonical_iff] at c ⊢
  have g : (t.runTo u).tb.gens = t.tb.gens ∧ (t.runTo u).tb.ports = t.tb.ports := by
    unfold State.runTo; dsimp only; split <;> exact ⟨rfl, rfl⟩
  exact { c with gens := by rw [State.kept, g.1]; exact c.gens, beats := by rw [State.kept, g.2]; exact c.beats }

theorem State.passes_advanceTime {F : Nat} (hF : Within 131083 F) (t : State) (u : Nat) : Passes F t (t.advanceTime u) := by
  unfold State.advanceTime
  split
  · exact (Keeps.refl t).passes
  · next hu =>
    have hu : t.now ≤ u := by omega
    split
    · dsimp only
      split
      · exact (State.passes_runTo (hF.sub rfl) t u hu).keeps (State.keeps_setTb (hF.sub rfl) (Keeps.refl _) _ id id)
      · next hn =>
        refine ((State.passes_runTo (hF.sub rfl) t _ (Nat.le_add_right ..)).keeps (State.keeps_relock (hF.sub rfl) (Keeps.refl _) _)).trans (State.passes_runTo (hF.sub rfl) _ u ?_)
        rw [(State.keeps_relock (hF.sub rfl) (Keeps.refl _) _).now]
        show t.now + _ ≤ u
        omega
    · exact State.passes_runTo (hF.sub rfl) t u hu

theorem State.runTo_now (t : State) (u : Nat) : (t.runTo u).now = u := rfl

/-- The present instant of `v` is `u`. -/
structure NowIs (u : Nat) (v : State) : Prop where
  eq : v.now = u

theorem NowIs.ite {u : Nat} {v w : State} {c : Prop} {_ : Decidable c} (h : NowIs u v) (g : NowIs u w) : NowIs u (if c then v else w) := by
  split <;> assumption

theorem State.advanceTime_nowIs (t : State) (u : Nat) (h : t.now < u) : NowIs u (t.advanceTime u) := by
  unfold State.advanceTime
  rw [if_neg (by omega)]
  split
  · dsimp only
    exact NowIs.ite ⟨rfl⟩ ⟨State.runTo_now ..⟩
  · exact ⟨State.runTo_now ..⟩

theorem State.advanceTime_now (t : State) (u : Nat) : (t.advanceTime u).now = max u t.now := by
  by_cases h : t.now < u
  · rw [(State.advanceTime_nowIs t u h).eq]; omega
  · unfold State.advanceTime
    rw [if_pos (by omega)]; omega

end Sys2Proof.Machine
end

