-- ==== Sys2Proof/Laws/EventOps.lean ====
section
/-!
SUPPORT. The operations of Machine/EventOps.lean: the parts of the state that each may change, and what it keeps.
-/

namespace Sys2Proof.Machine

open Sys2Proof

set_option linter.all false

theorem State.keeps_rcKeep {F : Nat} {s t : State} (hF : Within 16 F) (h : Keeps F s t) (c : Nat) : Keeps F s (t.rcKeep c) := by
  unfold State.rcKeep
  repeat' first
    | with_reducible assumption
    | with_reducible refine Keeps.ite ?_ ?_
    | with_reducible first | apply State.keeps_setRcDyn
    | with_reducible exact hF.sub rfl
    | split
    | refine Keeps.ofFst (by assumption) ?_
    | refine Keeps.ofSnd (by assumption) ?_
    | ((fail_if_no_progress extract_lets +onlyGivenNames x); first
      | (have g : State := x; clear g; refine Keeps.cut x ?_ ?_; (on_goal 2 => (intro _; try clear_value x)); (on_goal 1 => subst x))
      | (have g : _ → State := x; clear g; subst x) | (have g : _ → _ → State := x; clear g; subst x) | (have g : Option _ := x; clear g; subst x) | skip)
    | intro

theorem State.keeps_fireInj {F : Nat} {s t : State} (hF : Within 412850 F) (h : Keeps F s t) (m : Nat) (access : Nat) (j : Nat) : Keeps F s (t.fireInj m access j) := by
  unfold State.fireInj
  repeat' first
    | with_reducible assumption
    | with_reducible refine Keeps.ite ?_ ?_
    | with_reducible first | apply State.keeps_accessFault | apply State.keeps_setInj | apply State.keeps_assertSrc
    | with_reducible exact hF.sub rfl
    | split
    | refine Keeps.ofFst (by assumption) ?_
    | refine Keeps.ofSnd (by assumption) ?_
    | ((fail_if_no_progress extract_lets +onlyGivenNames x); first
      | (have g : State := x; clear g; refine Keeps.cut x ?_ ?_; (on_goal 2 => (intro _; try clear_value x)); (on_goal 1 => subst x))
      | (have g : _ → State := x; clear g; subst x) | (have g : _ → _ → State := x; clear g; subst x) | (have g : Option _ := x; clear g; subst x) | skip)
    | intro

theorem State.keeps_stamp {F : Nat} {s t : State} (hF : Within 16 F) (h : Keeps F s t) (j : Nat) : Keeps F s (t.stamp j) := by
  unfold State.stamp
  repeat' first
    | with_reducible assumption
    | ((fail_if_no_progress extract_lets +onlyGivenNames x); first
      | (have g : State := x; clear g; refine Keeps.cut x ?_ ?_; (on_goal 2 => (intro _; try clear_value x)); (on_goal 1 => subst x))
      | (have g : _ → State := x; clear g; subst x) | (have g : _ → _ → State := x; clear g; subst x) | (have g : Option _ := x; clear g; subst x) | skip)
    | with_reducible refine Keeps.ite ?_ ?_
    | fail_if_no_progress (with_reducible refine Keeps.evm' (hF.sub rfl) ?_ (by with_reducible rfl))
    | split
    | refine Keeps.ofFst (by assumption) ?_
    | refine Keeps.ofSnd (by assumption) ?_
    | intro

theorem State.keeps_firingFault {F : Nat} {s t : State} (hF : Within 412850 F) (h : Keeps F s t) (code : Nat) (cls : Nat) (sc : Scope) : Keeps F s (t.firingFault code cls sc) := by
  unfold State.firingFault
  repeat' first
    | with_reducible assumption
    | with_reducible first | apply State.keeps_log
    | with_reducible exact hF.sub rfl
    | intro

theorem State.keeps_deliver {F : Nat} {s t : State} (hF : Within 458234 F) (h : Keeps F s t) (i : Nat) (a : Assertion) (again : Bool) : Keeps F s (t.deliver i a again) := by
  unfold State.deliver
  repeat' first
    | with_reducible assumption
    | with_reducible refine Keeps.ite ?_ ?_
    | with_reducible first | apply State.keeps_stamp | apply State.keeps_firingFault | apply State.keeps_stick | apply State.keeps_deliverTrigger | apply State.keeps_sendBurst | apply State.keeps_startEngine | apply State.keeps_armGen
    | with_reducible exact hF.sub rfl
    | split
    | refine Keeps.ofFst (by assumption) ?_
    | refine Keeps.ofSnd (by assumption) ?_
    | ((fail_if_no_progress extract_lets +onlyGivenNames x); first
      | (have g : State := x; clear g; refine Keeps.cut x ?_ ?_; (on_goal 2 => (intro _; try clear_value x)); (on_goal 1 => subst x))
      | (have g : _ → State := x; clear g; subst x) | (have g : _ → _ → State := x; clear g; subst x) | (have g : Option _ := x; clear g; subst x) | skip)
    | intro

theorem State.keeps_dropFiring {F : Nat} {s t : State} (hF : Within 412850 F) (h : Keeps F s t) (i : Nat) : Keeps F s (t.dropFiring i) := by
  unfold State.dropFiring
  repeat' first
    | with_reducible assumption
    | with_reducible first | apply State.keeps_firingFault | apply State.keeps_stick | apply State.keeps_tally
    | with_reducible exact hF.sub rfl
    | intro

theorem State.keeps_loseFiring {F : Nat} {s t : State} (hF : Within 412850 F) (h : Keeps F s t) (i : Nat) : Keeps F s (t.loseFiring i) := by
  unfold State.loseFiring
  repeat' first
    | with_reducible assumption
    | with_reducible first | apply State.keeps_firingFault | apply State.keeps_wr | apply State.keeps_stick
    | with_reducible exact hF.sub rfl
    | refine Keeps.ofFst (by assumption) ?_
    | refine Keeps.ofSnd (by assumption) ?_
    | ((fail_if_no_progress extract_lets +onlyGivenNames x); first
      | (have g : State := x; clear g; refine Keeps.cut x ?_ ?_; (on_goal 2 => (intro _; try clear_value x)); (on_goal 1 => subst x))
      | (have g : _ → State := x; clear g; subst x) | (have g : _ → _ → State := x; clear g; subst x) | (have g : Option _ := x; clear g; subst x) | skip)
    | intro

theorem State.keeps_receiveFiring {F : Nat} {s t : State} (hF : Within 458234 F) (h : Keeps F s t) (i : Nat) (a : Assertion) : Keeps F s (t.receiveFiring i a) := by
  unfold State.receiveFiring
  repeat' first
    | with_reducible assumption
    | with_reducible refine Keeps.ite ?_ ?_
    | with_reducible first | apply State.keeps_deliver | apply State.keeps_loseFiring | apply State.keeps_setPend
    | fail_if_no_progress (with_reducible refine Keeps.evm' (hF.sub rfl) ?_ (by with_reducible rfl))
    | with_reducible exact hF.sub rfl
    | split
    | refine Keeps.ofFst (by assumption) ?_
    | refine Keeps.ofSnd (by assumption) ?_
    | ((fail_if_no_progress extract_lets +onlyGivenNames x); first
      | (have g : State := x; clear g; refine Keeps.cut x ?_ ?_; (on_goal 2 => (intro _; try clear_value x)); (on_goal 1 => subst x))
      | (have g : _ → State := x; clear g; subst x) | (have g : _ → _ → State := x; clear g; subst x) | (have g : Option _ := x; clear g; subst x) | skip)
    | intro

theorem State.keeps_linkChain {F : Nat} {s t : State} (hF : Within 412850 F) (h : Keeps F s t) (old : Nat) (i : Nat) (a : Assertion) : Keeps F s (t.linkChain old i a) := by
  unfold State.linkChain
  repeat' first
    | with_reducible assumption
    | with_reducible first | apply State.keeps_each | apply State.keeps_linkAssert
    | fail_if_no_progress (with_reducible refine Keeps.evm' (hF.sub rfl) ?_ (by with_reducible rfl))
    | with_reducible exact hF.sub rfl
    | refine Keeps.ofFst (by assumption) ?_
    | refine Keeps.ofSnd (by assumption) ?_
    | ((fail_if_no_progress extract_lets +onlyGivenNames x); first
      | (have g : State := x; clear g; refine Keeps.cut x ?_ ?_; (on_goal 2 => (intro _; try clear_value x)); (on_goal 1 => subst x))
      | (have g : _ → State := x; clear g; subst x) | (have g : _ → _ → State := x; clear g; subst x) | (have g : Option _ := x; clear g; subst x) | skip)
    | intro

theorem State.keeps_openChain {F : Nat} {s t : State} (hF : Within 16 F) (h : Keeps F s t) (a : Assertion) : Keeps F s (t.openChain a).1 := by
  unfold State.openChain
  repeat' first
    | with_reducible assumption
    | with_reducible refine Keeps.ite ?_ ?_
    | with_reducible refine Keeps.iteFst ?_ ?_
    | with_reducible first | apply State.keeps_setChain
    | fail_if_no_progress (with_reducible refine Keeps.evm' (hF.sub rfl) ?_ (by with_reducible rfl))
    | with_reducible exact hF.sub rfl
    | split
    | refine Keeps.ofFst (by assumption) ?_
    | refine Keeps.ofSnd (by assumption) ?_
    | ((fail_if_no_progress extract_lets +onlyGivenNames x); first
      | (have g : State := x; clear g; refine Keeps.cut x ?_ ?_; (on_goal 2 => (intro _; try clear_value x)); (on_goal 1 => subst x))
      | (have g : _ → State := x; clear g; subst x) | (have g : _ → _ → State := x; clear g; subst x) | (have g : Option _ := x; clear g; subst x) | skip)
    | intro

theorem State.keeps_endChains {F : Nat} {s t : State} (hF : Within 16 F) (h : Keeps F s t) : Keeps F s (t.endChains) := by
  unfold State.endChains
  repeat' first
    | with_reducible assumption
    | fail_if_no_progress (with_reducible refine Keeps.evm' (hF.sub rfl) ?_ (by with_reducible rfl))
    | refine Keeps.ofFst (by assumption) ?_
    | refine Keeps.ofSnd (by assumption) ?_
    | ((fail_if_no_progress extract_lets +onlyGivenNames x); first
      | (have g : State := x; clear g; refine Keeps.cut x ?_ ?_; (on_goal 2 => (intro _; try clear_value x)); (on_goal 1 => subst x))
      | (have g : _ → State := x; clear g; subst x) | (have g : _ → _ → State := x; clear g; subst x) | (have g : Option _ := x; clear g; subst x) | skip)
    | intro

theorem State.keeps_assertLater {F : Nat} {s t : State} (hF : Within 16 F) (h : Keeps F s t) : Keeps F s (t.assertLater) := by
  unfold State.assertLater
  repeat' first
    | with_reducible assumption
    | fail_if_no_progress (with_reducible refine Keeps.evm' (hF.sub rfl) ?_ (by with_reducible rfl))
    | intro

theorem State.keeps_dropFar {F : Nat} {s t : State} (hF : Within 412850 F) (h : Keeps F s t) (c : Nat) : Keeps F s (t.dropFar c) := by
  unfold State.dropFar
  repeat' first
    | with_reducible assumption
    | with_reducible first | apply State.keeps_firingFault | apply State.keeps_tally
    | with_reducible exact hF.sub rfl
    | intro

theorem State.keeps_farFork {F : Nat} {s t : State} (hF : Within 412850 F) (h : Keeps F s t) (c : Nat) (ctl : Word) (ofs : Word) (secure : Bool) : Keeps F s (t.farFork c ctl ofs secure) := by
  unfold State.farFork
  repeat' first
    | with_reducible assumption
    | with_reducible refine Keeps.ite ?_ ?_
    | with_reducible first | apply State.keeps_dropFar
    | fail_if_no_progress (with_reducible refine Keeps.evm' (hF.sub rfl) ?_ (by with_reducible rfl))
    | with_reducible exact hF.sub rfl
    | split
    | refine Keeps.ofFst (by assumption) ?_
    | refine Keeps.ofSnd (by assumption) ?_
    | ((fail_if_no_progress extract_lets +onlyGivenNames x); first
      | (have g : State := x; clear g; refine Keeps.cut x ?_ ?_; (on_goal 2 => (intro _; try clear_value x)); (on_goal 1 => subst x))
      | (have g : _ → State := x; clear g; subst x) | (have g : _ → _ → State := x; clear g; subst x) | (have g : Option _ := x; clear g; subst x) | skip)
    | intro

theorem State.keeps_acceptFar {F : Nat} {s t : State} (hF : Within 412850 F) (h : Keeps F s t) (g : Nat) (d : RTime) (c : Nat) (secure : Bool) : Keeps F s (t.acceptFar g d c secure) := by
  unfold State.acceptFar
  repeat' first
    | with_reducible assumption
    | with_reducible refine Keeps.ite ?_ ?_
    | with_reducible first | apply State.keeps_log | apply State.keeps_stick | apply State.keeps_tally | apply State.keeps_farLate
    | fail_if_no_progress (with_reducible refine Keeps.evm' (hF.sub rfl) ?_ (by with_reducible rfl))
    | with_reducible exact hF.sub rfl
    | split
    | refine Keeps.ofFst (by assumption) ?_
    | refine Keeps.ofSnd (by assumption) ?_
    | ((fail_if_no_progress extract_lets +onlyGivenNames x); first
      | (have g : State := x; clear g; refine Keeps.cut x ?_ ?_; (on_goal 2 => (intro _; try clear_value x)); (on_goal 1 => subst x))
      | (have g : _ → State := x; clear g; subst x) | (have g : _ → _ → State := x; clear g; subst x) | (have g : Option _ := x; clear g; subst x) | skip)
    | intro

theorem State.keeps_fireRc {F : Nat} {s t : State} (hF : Within 458234 F) (h : Keeps F s t) (c : Nat) (l : List Word) (a0 : Assertion) : Keeps F s (t.fireRc c l a0) := by
  unfold State.fireRc
  repeat' first
    | with_reducible assumption
    | with_reducible refine Keeps.ite ?_ ?_
    | with_reducible first | apply State.keeps_dropFiring | apply State.keeps_receiveFiring | apply State.keeps_linkChain | apply State.keeps_openChain | apply State.keeps_farFork | apply State.keeps_agentItem | apply State.keeps_setRcDyn | apply State.keeps_each | apply State.keeps_deferFresh
    | with_reducible exact hF.sub rfl
    | split
    | refine Keeps.ofFst (by assumption) ?_
    | refine Keeps.ofSnd (by assumption) ?_
    | ((fail_if_no_progress extract_lets +onlyGivenNames x); first
      | (have g : State := x; clear g; refine Keeps.cut x ?_ ?_; (on_goal 2 => (intro _; try clear_value x)); (on_goal 1 => subst x))
      | (have g : _ → State := x; clear g; subst x) | (have g : _ → _ → State := x; clear g; subst x) | (have g : Option _ := x; clear g; subst x) | skip)
    | intro

theorem State.keeps_route {F : Nat} {s t : State} (hF : Within 458234 F) (h : Keeps F s t) (a : Assertion) : Keeps F s (t.route a) := by
  unfold State.route
  repeat' first
    | with_reducible assumption
    | with_reducible refine Keeps.ite ?_ ?_
    | with_reducible first | apply State.keeps_openChain | apply State.keeps_fireRc | apply State.keeps_each
    | with_reducible exact hF.sub rfl
    | split
    | refine Keeps.ofFst (by assumption) ?_
    | refine Keeps.ofSnd (by assumption) ?_
    | ((fail_if_no_progress extract_lets +onlyGivenNames x); first
      | (have g : State := x; clear g; refine Keeps.cut x ?_ ?_; (on_goal 2 => (intro _; try clear_value x)); (on_goal 1 => subst x))
      | (have g : _ → State := x; clear g; subst x) | (have g : _ → _ → State := x; clear g; subst x) | (have g : Option _ := x; clear g; subst x) | skip)
    | intro

theorem State.keeps_settle {F : Nat} {s : State} (hF : Within 458234 F) : ∀ (k : Nat) {t : State} (_ : Keeps F s t), Keeps F s (State.settle k t)
  | 0, _, h => h
  | k + 1, t, h => by
    have ih := fun v (g : Keeps F s v) => State.keeps_settle (hF.sub rfl) k g
    unfold State.settle
    repeat' first
      | with_reducible assumption
      | with_reducible apply ih
      | with_reducible first | apply State.keeps_route
      | fail_if_no_progress (with_reducible refine Keeps.evm' (hF.sub rfl) ?_ (by with_reducible rfl))
      | with_reducible exact hF.sub rfl
      | split
      | refine Keeps.ofFst (by assumption) ?_
      | refine Keeps.ofSnd (by assumption) ?_
      | intro

theorem State.keeps_evioAccept {F : Nat} {s t : State} (hF : Within 16 F) (h : Keeps F s t) (j : Nat) : Keeps F s (t.evioAccept j) := by
  unfold State.evioAccept
  repeat' first
    | with_reducible assumption
    | with_reducible refine Keeps.ite ?_ ?_
    | with_reducible first | apply State.keeps_setEvio | apply State.keeps_assertSrc
    | with_reducible exact hF.sub rfl
    | split
    | refine Keeps.ofFst (by assumption) ?_
    | refine Keeps.ofSnd (by assumption) ?_
    | ((fail_if_no_progress extract_lets +onlyGivenNames x); first
      | (have g : State := x; clear g; refine Keeps.cut x ?_ ?_; (on_goal 2 => (intro _; try clear_value x)); (on_goal 1 => subst x))
      | (have g : _ → State := x; clear g; subst x) | (have g : _ → _ → State := x; clear g; subst x) | (have g : Option _ := x; clear g; subst x) | skip)
    | intro

theorem State.keeps_evioAccepts {F : Nat} {s t : State} (hF : Within 16 F) (h : Keeps F s t) : Keeps F s (t.evioAccepts) := by
  unfold State.evioAccepts
  repeat' first
    | with_reducible assumption
    | with_reducible first | apply State.keeps_evioAccept | apply State.keeps_each
    | with_reducible exact hF.sub rfl
    | intro

theorem State.keeps_evioFire {F : Nat} {s t : State} (hF : Within 16 F) (h : Keeps F s t) (j : Nat) : Keeps F s (t.evioFire j) := by
  unfold State.evioFire
  repeat' first
    | with_reducible assumption
    | with_reducible first | apply State.keeps_setEvio
    | with_reducible exact hF.sub rfl
    | refine Keeps.ofFst (by assumption) ?_
    | refine Keeps.ofSnd (by assumption) ?_
    | ((fail_if_no_progress extract_lets +onlyGivenNames x); first
      | (have g : State := x; clear g; refine Keeps.cut x ?_ ?_; (on_goal 2 => (intro _; try clear_value x)); (on_goal 1 => subst x))
      | (have g : _ → State := x; clear g; subst x) | (have g : _ → _ → State := x; clear g; subst x) | (have g : Option _ := x; clear g; subst x) | skip)
    | intro

theorem State.keeps_evioAct {F : Nat} {s t : State} (hF : Within 16 F) (h : Keeps F s t) (j : Nat) : Keeps F s (t.evioAct j) := by
  unfold State.evioAct
  repeat' first
    | with_reducible assumption
    | with_reducible refine Keeps.ite ?_ ?_
    | with_reducible first | apply State.keeps_setEvio
    | with_reducible exact hF.sub rfl
    | split
    | refine Keeps.ofFst (by assumption) ?_
    | refine Keeps.ofSnd (by assumption) ?_
    | ((fail_if_no_progress extract_lets +onlyGivenNames x); first
      | (have g : State := x; clear g; refine Keeps.cut x ?_ ?_; (on_goal 2 => (intro _; try clear_value x)); (on_goal 1 => subst x))
      | (have g : _ → State := x; clear g; subst x) | (have g : _ → _ → State := x; clear g; subst x) | (have g : Option _ := x; clear g; subst x) | skip)
    | intro

theorem State.keeps_evioEnd {F : Nat} {s t : State} (hF : Within 16 F) (h : Keeps F s t) (j : Nat) : Keeps F s (t.evioEnd j) := by
  unfold State.evioEnd
  repeat' first
    | with_reducible assumption
    | with_reducible refine Keeps.ite ?_ ?_
    | with_reducible first | apply State.keeps_setEvio
    | with_reducible exact hF.sub rfl
    | split
    | refine Keeps.ofFst (by assumption) ?_
    | refine Keeps.ofSnd (by assumption) ?_
    | ((fail_if_no_progress extract_lets +onlyGivenNames x); first
      | (have g : State := x; clear g; refine Keeps.cut x ?_ ?_; (on_goal 2 => (intro _; try clear_value x)); (on_goal 1 => subst x))
      | (have g : _ → State := x; clear g; subst x) | (have g : _ → _ → State := x; clear g; subst x) | (have g : Option _ := x; clear g; subst x) | skip)
    | intro

theorem State.keeps_measBefore {F : Nat} {s t : State} (hF : Within 322 F) (h : Keeps F s t) (n : Nat) (u' : Nat) (t' : Nat) : Keeps F s (t.measBefore n u' t') := by
  unfold State.measBefore
  repeat' first
    | with_reducible assumption
    | with_reducible refine Keeps.ite ?_ ?_
    | with_reducible first | apply State.keeps_beginZero | apply State.keeps_judgeTrigger | apply State.keeps_setSeq | apply State.keeps_each
    | with_reducible exact hF.sub rfl
    | split
    | refine Keeps.ofFst (by assumption) ?_
    | refine Keeps.ofSnd (by assumption) ?_
    | ((fail_if_no_progress extract_lets +onlyGivenNames x); first
      | (have g : State := x; clear g; refine Keeps.cut x ?_ ?_; (on_goal 2 => (intro _; try clear_value x)); (on_goal 1 => subst x))
      | (have g : _ → State := x; clear g; subst x) | (have g : _ → _ → State := x; clear g; subst x) | (have g : Option _ := x; clear g; subst x) | skip)
    | intro

theorem State.passes_measAdvance {F : Nat} (hF : Within 413179 F) (t : Nat) : ∀ (k : Nat) (s : State), Passes F s (State.measAdvance t k s)
  | 0, s => (Keeps.refl s).passes
  | k + 1, s => by
    unfold State.measAdvance
    split
    · exact (Keeps.refl s).passes
    · refine Passes.trans ?_ (State.passes_measAdvance (hF.sub rfl) t k _)
      refine Passes.keeps ?_ (State.keeps_each (Keeps.refl _) _ _ fun n v g => State.keeps_sweepInstant (hF.sub rfl) g ..)
      exact (State.passes_advanceTime (hF.sub rfl) ..).keeps (State.keeps_each (Keeps.refl _) _ _ fun n v g => State.keeps_measBefore (hF.sub rfl) g ..)

theorem min_le_of_foldl {t : Nat} : ∀ (l : List Nat) (m : Option Nat), (∀ x ∈ l, x ≤ t) → (∀ x, m = some x → x ≤ t) →
    ∀ u, l.foldl (fun m u => some (min u (m.getD u))) m = some u → u ≤ t
  | [], _, _, g, u, e => g u e
  | x :: l, m, h, _, u, e =>
    min_le_of_foldl l _ (fun y i => h y (List.mem_cons_of_mem x i))
      (fun y i => by cases i; exact le_trans (Nat.min_le_left ..) (h x (List.mem_cons_self ..))) u e

/-- Nothing of itself comes after the instant to which time moves on. -/
theorem State.nextInstant_le {s : State} {t u : Nat} (h : s.nextInstant t = some u) : u ≤ t := by
  refine min_le_of_foldl _ none (fun x i => ?_) (fun _ e => nomatch e) u h
  rcases List.mem_append.1 i with i | i
  · obtain ⟨e, -, j⟩ := List.mem_flatMap.1 i
    rcases List.mem_append.1 j with j | j
    · exact of_decide_eq_true (List.mem_filter.1 j).2
    · split at j
      · next c =>
        simp only [Bool.and_eq_true, decide_eq_true_eq] at c
        simp only [List.mem_singleton] at j
        omega
      · cases j
  · obtain ⟨e, -, j⟩ := List.mem_flatMap.1 i
    obtain ⟨w, -, k⟩ := List.mem_filterMap.1 j
    split at k
    · split at k <;> cases k
      assumption
    · cases k

theorem State.measAdvance_now (t : Nat) : ∀ (k : Nat) (s : State), (State.measAdvance t k s).now ≤ max t s.now
  | 0, s => by unfold State.measAdvance; omega
  | k + 1, s => by
    unfold State.measAdvance
    split
    · omega
    · next u e =>
      have a := State.nextInstant_le e
      refine le_trans (State.measAdvance_now t k _) ?_
      rw [(State.keeps_each (Keeps.refl _) _ _ fun n v g => State.keeps_sweepInstant (Within.refl _) g ..).now,
        (State.keeps_each (Keeps.refl _) _ _ fun n v g => State.keeps_measBefore (Within.refl _) g ..).now, State.advanceTime_now]
      omega

theorem State.keeps_endBranches {F : Nat} {s t : State} (hF : Within 425138 F) (h : Keeps F s t) : Keeps F s (t.endBranches) := by
  unfold State.endBranches
  repeat' first
    | with_reducible assumption
    | with_reducible first | apply State.keeps_each | apply State.keeps_branchTest
    | with_reducible exact hF.sub rfl
    | intro

/-- Time passes up to instant `u`. -/
theorem State.passes_begin {F : Nat} (hF : Within 458235 F) (s : State) (u : Nat) : Passes F s (s.begin u) := by
  unfold State.begin
  dsimp only
  have a : Keeps F s (if s.cycle < max u s.now / 256 then s.endBranches.endFelts.endChains else s) :=
    Keeps.ite (State.keeps_endChains (hF.sub rfl) (State.keeps_endFelts (hF.sub rfl) (State.keeps_endBranches (hF.sub rfl) (Keeps.refl s)))) (Keeps.refl s)
  simp only [decide_eq_true_eq]
  generalize (if s.cycle < max u s.now / 256 then s.endBranches.endFelts.endChains else s) = v at a ⊢
  have b : Passes F s (((State.measAdvance (max u s.now) v.instantCount v).advanceTime (max u s.now)).freqExpire.evioAccepts) :=
    ((a.passes.trans (State.passes_measAdvance (hF.sub rfl) ..)).trans (State.passes_advanceTime (hF.sub rfl) ..)).keeps
      (State.keeps_evioAccepts (hF.sub rfl) (State.keeps_freqExpire (hF.sub rfl) (Keeps.refl _)))
  exact Passes.ite (b.keeps (State.keeps_assertLater (hF.sub rfl) (Keeps.refl _))) b

/-- The present instant never goes back (R13). -/
theorem State.begin_now (s : State) (u : Nat) : (s.begin u).now = max u s.now := by
  unfold State.begin
  dsimp only
  simp only [decide_eq_true_eq]
  have a : NowIs s.now (if s.cycle < max u s.now / 256 then s.endBranches.endFelts.endChains else s) :=
    NowIs.ite ⟨by rw [(State.keeps_endChains (Within.refl _) (Keeps.refl _)).now, (State.keeps_endFelts (Within.refl _) (Keeps.refl _)).now,
      (State.keeps_endBranches (Within.refl _) (Keeps.refl _)).now]⟩ ⟨rfl⟩
  generalize (if s.cycle < max u s.now / 256 then s.endBranches.endFelts.endChains else s) = v at a ⊢
  have b : NowIs (max u s.now) (((State.measAdvance (max u s.now) v.instantCount v).advanceTime (max u s.now)).freqExpire.evioAccepts) := by
    constructor
    rw [(State.keeps_evioAccepts (Within.refl _) (Keeps.refl _)).now, (State.keeps_freqExpire (Within.refl _) (Keeps.refl _)).now,
      State.advanceTime_now]
    have c := State.measAdvance_now (max u s.now) v.instantCount v
    rw [a.eq] at c
    omega
  exact (NowIs.ite ⟨by rw [(State.keeps_assertLater (Within.refl _) (Keeps.refl _)).now, b.eq]⟩ b).eq

end Sys2Proof.Machine
end

