-- ==== Sys2Proof/Laws/CalOps.lean ====
section
/-!
SUPPORT. The operations of Machine/CalOps.lean: the parts of the state that each may change, and what it keeps.
-/

namespace Sys2Proof.Machine

open Sys2Proof

set_option linter.all false

theorem State.keeps_setCal {F : Nat} {s t : State} (hF : Within 262144 F) (h : Keeps F s t) (x : Cal)
    (e0 : Table.rising t.cal.slices = true → Table.rising x.slices = true) (e1 : Table.rising t.cal.couch = true → Table.rising x.couch = true) :
    Keeps F s (t.setCal x) := h.step (Frame.cal' hF t x) rfl rfl fun c => { c with slices := e0 c.slices, couch := e1 c.couch }

theorem State.keeps_firmwareLog {F : Nat} {s t : State} (hF : Within 412850 F) (h : Keeps F s t) (code : Nat) (cls : Nat) (sc : Scope) (duty : Nat) : Keeps F s (t.firmwareLog code cls sc duty) := by
  unfold State.firmwareLog
  repeat' first
    | with_reducible assumption
    | with_reducible first | apply State.keeps_log
    | with_reducible exact hF.sub rfl
    | intro

theorem State.keeps_setSel {F : Nat} {s t : State} (hF : Within 262144 F) (h : Keeps F s t) (e : Nat) (v : DWord) : Keeps F s (t.setSel e v) := by
  unfold State.setSel
  repeat' first
    | with_reducible assumption
    | with_reducible refine Keeps.ite ?_ ?_
    | with_reducible first | apply State.keeps_setCal
    | with_reducible exact hF.sub rfl
    | with_reducible exact id
    | split
    | refine Keeps.ofFst (by assumption) ?_
    | refine Keeps.ofSnd (by assumption) ?_
    | ((fail_if_no_progress extract_lets +onlyGivenNames x); first
      | (have g : State := x; clear g; refine Keeps.cut x ?_ ?_; (on_goal 2 => (intro _; try clear_value x)); (on_goal 1 => subst x))
      | (have g : _ → State := x; clear g; subst x) | (have g : _ → _ → State := x; clear g; subst x) | (have g : Option _ := x; clear g; subst x) | skip)
    | intro

theorem State.keeps_burnWords {F : Nat} {s : State} (hF : Within 2097152 F) : ∀ (l : List Word) {t : State} (_ : Keeps F s t) (i : Nat), Keeps F s (t.burnWords i l)
  | [], _, h, _ => h
  | w :: l, _, h, i => State.keeps_burnWords (hF.sub rfl) l (State.keeps_burnFuse (hF.sub rfl) h i w) (i + 1)

theorem State.keeps_startBurn {F : Nat} {s t : State} (hF : Within 19136514 F) (h : Keeps F s t) : Keeps F s (t.startBurn) := by
  unfold State.startBurn
  repeat' first
    | with_reducible assumption
    | with_reducible refine Keeps.ite ?_ ?_
    | with_reducible first | apply State.keeps_setCal | apply State.keeps_burnWords | apply State.keeps_stick | apply State.keeps_freeWord | apply State.keeps_burnFuse
    | with_reducible exact hF.sub rfl
    | with_reducible exact id
    | split
    | refine Keeps.ofFst (by assumption) ?_
    | refine Keeps.ofSnd (by assumption) ?_
    | ((fail_if_no_progress extract_lets +onlyGivenNames x); first
      | (have g : State := x; clear g; refine Keeps.cut x ?_ ?_; (on_goal 2 => (intro _; try clear_value x)); (on_goal 1 => subst x))
      | (have g : _ → State := x; clear g; subst x) | (have g : _ → _ → State := x; clear g; subst x) | (have g : Option _ := x; clear g; subst x) | skip)
    | intro

theorem State.keeps_requestBurn {F : Nat} {s t : State} (hF : Within 19136514 F) (h : Keeps F s t) : Keeps F s (t.requestBurn) := by
  unfold State.requestBurn
  repeat' first
    | with_reducible assumption
    | with_reducible refine Keeps.ite ?_ ?_
    | with_reducible first | apply State.keeps_setCal | apply State.keeps_startBurn
    | with_reducible exact hF.sub rfl
    | with_reducible exact id
    | split
    | intro

theorem State.keeps_commitBurn {F : Nat} {s t : State} (hF : Within 19136530 F) (h : Keeps F s t) : Keeps F s (t.commitBurn) := by
  unfold State.commitBurn
  repeat' first
    | with_reducible assumption
    | with_reducible refine Keeps.ite ?_ ?_
    | with_reducible first | apply State.keeps_setCal | apply State.keeps_startBurn | apply State.keeps_stick | apply State.keeps_burnFuse | apply State.keeps_assertSrc
    | with_reducible exact hF.sub rfl
    | with_reducible exact id
    | split
    | refine Keeps.ofFst (by assumption) ?_
    | refine Keeps.ofSnd (by assumption) ?_
    | ((fail_if_no_progress extract_lets +onlyGivenNames x); first
      | (have g : State := x; clear g; refine Keeps.cut x ?_ ?_; (on_goal 2 => (intro _; try clear_value x)); (on_goal 1 => subst x))
      | (have g : _ → State := x; clear g; subst x) | (have g : _ → _ → State := x; clear g; subst x) | (have g : Option _ := x; clear g; subst x) | skip)
    | intro

theorem State.keeps_burnRecord {F : Nat} {s t : State} (hF : Within 2097152 F) (h : Keeps F s t) (base : Nat) (k : Nat) (w : Word) : Keeps F s (t.burnRecord base k w) := by
  unfold State.burnRecord
  repeat' first
    | with_reducible assumption
    | with_reducible first | apply State.keeps_burnFuse
    | with_reducible exact hF.sub rfl
    | intro

theorem State.keeps_recordCouch {F : Nat} {s t : State} (hF : Within 2359296 F) (h : Keeps F s t) (n : Nat) (q : Nat) (retire : Bool) : Keeps F s (t.recordCouch n q retire) := by
  unfold State.recordCouch
  repeat' first
    | with_reducible assumption
    | with_reducible first | apply State.keeps_setCal | apply State.keeps_burnRecord
    | with_reducible exact hF.sub rfl
    | with_reducible exact id
    | split
    | refine Keeps.ofFst (by assumption) ?_
    | refine Keeps.ofSnd (by assumption) ?_
    | intro

theorem State.keeps_recordRepairs {F : Nat} {s t : State} (hF : Within 2361344 F) (h : Keeps F s t) : Keeps F s (t.recordRepairs) := by
  unfold State.recordRepairs
  repeat' first
    | with_reducible assumption
    | with_reducible first | apply State.keeps_setCal | apply State.keeps_burnRecord | apply State.keeps_each | apply State.keeps_setMemc
    | with_reducible exact hF.sub rfl
    | with_reducible exact id
    | split
    | refine Keeps.ofFst (by assumption) ?_
    | refine Keeps.ofSnd (by assumption) ?_
    | ((fail_if_no_progress extract_lets +onlyGivenNames x); first
      | (have g : State := x; clear g; refine Keeps.cut x ?_ ?_; (on_goal 2 => (intro _; try clear_value x)); (on_goal 1 => subst x))
      | (have g : _ → State := x; clear g; subst x) | (have g : _ → _ → State := x; clear g; subst x) | (have g : Option _ := x; clear g; subst x) | skip)
    | intro

theorem State.keeps_setQueue {F : Nat} {s t : State} (hF : Within 262144 F) (h : Keeps F s t) (t' : Nat) (l : List Nat) : Keeps F s (t.setQueue t' l) := by
  unfold State.setQueue
  repeat' first
    | with_reducible assumption
    | with_reducible first | apply State.keeps_setCal
    | with_reducible exact hF.sub rfl
    | with_reducible exact id
    | intro

theorem State.keeps_setStep {F : Nat} {s t : State} (hF : Within 262144 F) (h : Keeps F s t) (t' : Nat) (k : Nat) : Keeps F s (t.setStep t' k) := by
  unfold State.setStep
  repeat' first
    | with_reducible assumption
    | with_reducible first | apply State.keeps_setCal
    | with_reducible exact hF.sub rfl
    | with_reducible exact id
    | intro

theorem State.keeps_addRun {F : Nat} {s t : State} (hF : Within 262160 F) (h : Keeps F s t) (l : List Nat) (commanded : Bool) : Keeps F s (t.addRun l commanded) := by
  unfold State.addRun
  repeat' first
    | with_reducible assumption
    | with_reducible refine Keeps.ite ?_ ?_
    | with_reducible first | apply State.keeps_setCal | apply State.keeps_setQueue | apply State.keeps_each | apply State.keeps_assertSrc
    | with_reducible exact hF.sub rfl
    | with_reducible exact id
    | split
    | refine Keeps.ofFst (by assumption) ?_
    | refine Keeps.ofSnd (by assumption) ?_
    | ((fail_if_no_progress extract_lets +onlyGivenNames x); first
      | (have g : State := x; clear g; refine Keeps.cut x ?_ ?_; (on_goal 2 => (intro _; try clear_value x)); (on_goal 1 => subst x))
      | (have g : _ → State := x; clear g; subst x) | (have g : _ → _ → State := x; clear g; subst x) | (have g : Option _ := x; clear g; subst x) | skip)
    | intro

theorem State.keeps_startStep {F : Nat} {s t : State} (hF : Within 262144 F) (h : Keeps F s t) (t' : Nat) : Keeps F s (t.startStep t') := by
  unfold State.startStep
  repeat' first
    | with_reducible assumption
    | with_reducible refine Keeps.ite ?_ ?_
    | with_reducible first | apply State.keeps_setQueue | apply State.keeps_setStep | apply State.keeps_setSlice
    | with_reducible exact hF.sub rfl
    | split
    | refine Keeps.ofFst (by assumption) ?_
    | refine Keeps.ofSnd (by assumption) ?_
    | ((fail_if_no_progress extract_lets +onlyGivenNames x); first
      | (have g : State := x; clear g; refine Keeps.cut x ?_ ?_; (on_goal 2 => (intro _; try clear_value x)); (on_goal 1 => subst x))
      | (have g : _ → State := x; clear g; subst x) | (have g : _ → _ → State := x; clear g; subst x) | (have g : Option _ := x; clear g; subst x) | skip)
    | intro

theorem State.keeps_endRun {F : Nat} {s t : State} (hF : Within 19136530 F) (h : Keeps F s t) : Keeps F s (t.endRun) := by
  unfold State.endRun
  repeat' first
    | with_reducible assumption
    | with_reducible refine Keeps.ite ?_ ?_
    | with_reducible first | apply State.keeps_setCal | apply State.keeps_requestBurn | apply State.keeps_stick | apply State.keeps_assertSrc
    | with_reducible exact hF.sub rfl
    | with_reducible exact id
    | split
    | refine Keeps.ofFst (by assumption) ?_
    | refine Keeps.ofSnd (by assumption) ?_
    | ((fail_if_no_progress extract_lets +onlyGivenNames x); first
      | (have g : State := x; clear g; refine Keeps.cut x ?_ ?_; (on_goal 2 => (intro _; try clear_value x)); (on_goal 1 => subst x))
      | (have g : _ → State := x; clear g; subst x) | (have g : _ → _ → State := x; clear g; subst x) | (have g : Option _ := x; clear g; subst x) | skip)
    | intro

theorem State.keeps_watchSteps {F : Nat} {s t : State} (hF : Within 262144 F) (h : Keeps F s t) : Keeps F s (t.watchSteps) := by
  unfold State.watchSteps
  repeat' first
    | with_reducible assumption
    | with_reducible refine Keeps.ite ?_ ?_
    | with_reducible first | apply State.keeps_setSlice | apply State.keeps_each
    | with_reducible exact hF.sub rfl
    | split
    | refine Keeps.ofFst (by assumption) ?_
    | refine Keeps.ofSnd (by assumption) ?_
    | ((fail_if_no_progress extract_lets +onlyGivenNames x); first
      | (have g : State := x; clear g; refine Keeps.cut x ?_ ?_; (on_goal 2 => (intro _; try clear_value x)); (on_goal 1 => subst x))
      | (have g : _ → State := x; clear g; subst x) | (have g : _ → _ → State := x; clear g; subst x) | (have g : Option _ := x; clear g; subst x) | skip)
    | intro

theorem State.keeps_measurePath {F : Nat} {s t : State} (hF : Within 262208 F) (h : Keeps F s t) (i : Nat) (loaded : Bool) : Keeps F s (t.measurePath i loaded) := by
  unfold State.measurePath
  repeat' first
    | with_reducible assumption
    | with_reducible refine Keeps.ite ?_ ?_
    | with_reducible first | apply State.keeps_setSeq | apply State.keeps_setSlice
    | with_reducible exact hF.sub rfl
    | split
    | refine Keeps.ofFst (by assumption) ?_
    | refine Keeps.ofSnd (by assumption) ?_
    | ((fail_if_no_progress extract_lets +onlyGivenNames x); first
      | (have g : State := x; clear g; refine Keeps.cut x ?_ ?_; (on_goal 2 => (intro _; try clear_value x)); (on_goal 1 => subst x))
      | (have g : _ → State := x; clear g; subst x) | (have g : _ → _ → State := x; clear g; subst x) | (have g : Option _ := x; clear g; subst x) | skip)
    | intro

theorem State.keeps_deferCheck {F : Nat} {s t : State} (hF : Within 262144 F) (h : Keeps F s t) (i : Nat) (outcome : Nat) : Keeps F s (t.deferCheck i outcome) := by
  unfold State.deferCheck
  repeat' first
    | with_reducible assumption
    | with_reducible first | apply State.keeps_setSlice
    | with_reducible exact hF.sub rfl
    | intro

theorem State.keeps_openSlot {F : Nat} {s t : State} (hF : Within 262162 F) (h : Keeps F s t) (i : Nat) : Keeps F s (t.openSlot i) := by
  unfold State.openSlot
  repeat' first
    | with_reducible assumption
    | with_reducible refine Keeps.ite ?_ ?_
    | with_reducible first | apply State.keeps_deferCheck | apply State.keeps_stick | apply State.keeps_setSlice | apply State.keeps_assertSrc
    | with_reducible exact hF.sub rfl
    | split
    | refine Keeps.ofFst (by assumption) ?_
    | refine Keeps.ofSnd (by assumption) ?_
    | ((fail_if_no_progress extract_lets +onlyGivenNames x); first
      | (have g : State := x; clear g; refine Keeps.cut x ?_ ?_; (on_goal 2 => (intro _; try clear_value x)); (on_goal 1 => subst x))
      | (have g : _ → State := x; clear g; subst x) | (have g : _ → _ → State := x; clear g; subst x) | (have g : Option _ := x; clear g; subst x) | skip)
    | intro

theorem State.keeps_unbridge {F : Nat} {s t : State} (hF : Within 262144 F) (h : Keeps F s t) (i : Nat) : Keeps F s (t.unbridge i) := by
  unfold State.unbridge
  repeat' first
    | with_reducible assumption
    | with_reducible first | apply State.keeps_setSlice
    | with_reducible exact hF.sub rfl
    | split
    | refine Keeps.ofFst (by assumption) ?_
    | refine Keeps.ofSnd (by assumption) ?_
    | ((fail_if_no_progress extract_lets +onlyGivenNames x); first
      | (have g : State := x; clear g; refine Keeps.cut x ?_ ?_; (on_goal 2 => (intro _; try clear_value x)); (on_goal 1 => subst x))
      | (have g : _ → State := x; clear g; subst x) | (have g : _ → _ → State := x; clear g; subst x) | (have g : Option _ := x; clear g; subst x) | skip)
    | intro

theorem State.keeps_bridgeEnd {F : Nat} {s t : State} (hF : Within 262144 F) (h : Keeps F s t) (i : Nat) : Keeps F s (t.bridgeEnd i) := by
  unfold State.bridgeEnd
  repeat' first
    | with_reducible assumption
    | with_reducible refine Keeps.ite ?_ ?_
    | with_reducible first | apply State.keeps_unbridge
    | with_reducible exact hF.sub rfl
    | split
    | refine Keeps.ofFst (by assumption) ?_
    | refine Keeps.ofSnd (by assumption) ?_
    | ((fail_if_no_progress extract_lets +onlyGivenNames x); first
      | (have g : State := x; clear g; refine Keeps.cut x ?_ ?_; (on_goal 2 => (intro _; try clear_value x)); (on_goal 1 => subst x))
      | (have g : _ → State := x; clear g; subst x) | (have g : _ → _ → State := x; clear g; subst x) | (have g : Option _ := x; clear g; subst x) | skip)
    | intro

theorem State.keeps_openSlotEnd {F : Nat} {s t : State} (hF : Within 262144 F) (h : Keeps F s t) (i : Nat) : Keeps F s (t.openSlotEnd i) := by
  unfold State.openSlotEnd
  repeat' first
    | with_reducible assumption
    | with_reducible refine Keeps.ite ?_ ?_
    | with_reducible first | apply State.keeps_deferCheck | apply State.keeps_unbridge | apply State.keeps_setSlice
    | with_reducible exact hF.sub rfl
    | split
    | refine Keeps.ofFst (by assumption) ?_
    | refine Keeps.ofSnd (by assumption) ?_
    | ((fail_if_no_progress extract_lets +onlyGivenNames x); first
      | (have g : State := x; clear g; refine Keeps.cut x ?_ ?_; (on_goal 2 => (intro _; try clear_value x)); (on_goal 1 => subst x))
      | (have g : _ → State := x; clear g; subst x) | (have g : _ → _ → State := x; clear g; subst x) | (have g : Option _ := x; clear g; subst x) | skip)
    | intro

theorem State.keeps_drifted {F : Nat} {s t : State} (hF : Within 412850 F) (h : Keeps F s t) (i : Nat) (short : Bool) : Keeps F s (t.drifted i short) := by
  unfold State.drifted
  repeat' first
    | with_reducible assumption
    | with_reducible refine Keeps.ite ?_ ?_
    | with_reducible first | apply State.keeps_firmwareLog | apply State.keeps_stick | apply State.keeps_setSlice | apply State.keeps_assertSrc
    | with_reducible exact hF.sub rfl
    | split
    | refine Keeps.ofFst (by assumption) ?_
    | refine Keeps.ofSnd (by assumption) ?_
    | ((fail_if_no_progress extract_lets +onlyGivenNames x); first
      | (have g : State := x; clear g; refine Keeps.cut x ?_ ?_; (on_goal 2 => (intro _; try clear_value x)); (on_goal 1 => subst x))
      | (have g : _ → State := x; clear g; subst x) | (have g : _ → _ → State := x; clear g; subst x) | (have g : Option _ := x; clear g; subst x) | skip)
    | intro

theorem State.keeps_newCorrections {F : Nat} {s t : State} (hF : Within 262208 F) (h : Keeps F s t) (i : Nat) : Keeps F s (t.newCorrections i) := by
  unfold State.newCorrections
  repeat' first
    | with_reducible assumption
    | with_reducible refine Keeps.ite ?_ ?_
    | with_reducible first | apply State.keeps_setSeq | apply State.keeps_setSlice
    | with_reducible exact hF.sub rfl
    | split
    | refine Keeps.ofFst (by assumption) ?_
    | refine Keeps.ofSnd (by assumption) ?_
    | ((fail_if_no_progress extract_lets +onlyGivenNames x); first
      | (have g : State := x; clear g; refine Keeps.cut x ?_ ?_; (on_goal 2 => (intro _; try clear_value x)); (on_goal 1 => subst x))
      | (have g : _ → State := x; clear g; subst x) | (have g : _ → _ → State := x; clear g; subst x) | (have g : Option _ := x; clear g; subst x) | skip)
    | intro

theorem State.keeps_newForceCorr {F : Nat} {s t : State} (hF : Within 262176 F) (h : Keeps F s t) (i : Nat) (corr : Int) : Keeps F s (t.newForceCorr i corr) := by
  unfold State.newForceCorr
  repeat' first
    | with_reducible assumption
    | with_reducible refine Keeps.ite ?_ ?_
    | with_reducible first | apply State.keeps_setForce | apply State.keeps_setSlice
    | with_reducible exact hF.sub rfl
    | split
    | refine Keeps.ofFst (by assumption) ?_
    | refine Keeps.ofSnd (by assumption) ?_
    | ((fail_if_no_progress extract_lets +onlyGivenNames x); first
      | (have g : State := x; clear g; refine Keeps.cut x ?_ ?_; (on_goal 2 => (intro _; try clear_value x)); (on_goal 1 => subst x))
      | (have g : _ → State := x; clear g; subst x) | (have g : _ → _ → State := x; clear g; subst x) | (have g : Option _ := x; clear g; subst x) | skip)
    | intro

theorem State.keeps_groupDone {F : Nat} {s t : State} (hF : Within 262144 F) (h : Keeps F s t) (t' : Nat) (g : Nat) : Keeps F s (t.groupDone t' g) := by
  unfold State.groupDone
  repeat' first
    | with_reducible assumption
    | with_reducible refine Keeps.ite ?_ ?_
    | with_reducible first | apply State.keeps_setCal
    | with_reducible exact hF.sub rfl
    | with_reducible exact id
    | split
    | refine Keeps.ofFst (by assumption) ?_
    | refine Keeps.ofSnd (by assumption) ?_
    | ((fail_if_no_progress extract_lets +onlyGivenNames x); first
      | (have g : State := x; clear g; refine Keeps.cut x ?_ ?_; (on_goal 2 => (intro _; try clear_value x)); (on_goal 1 => subst x))
      | (have g : _ → State := x; clear g; subst x) | (have g : _ → _ → State := x; clear g; subst x) | (have g : Option _ := x; clear g; subst x) | skip)
    | intro

theorem State.keeps_endStep {F : Nat} {s t : State} (hF : Within 19287282 F) (h : Keeps F s t) (i : Nat) (qSpan : Nat) (qRange : Nat) (segMin : Nat) (temp : Nat) (corr : Int) (sel : DWord) (ladder : DWord) (short : Bool) (lost : Bool) : Keeps F s (t.endStep i qSpan qRange segMin temp corr sel ladder short lost) := by
  unfold State.endStep
  repeat' first
    | with_reducible assumption
    | with_reducible refine Keeps.ite ?_ ?_
    | with_reducible first | apply State.keeps_setCal | apply State.keeps_setSel | apply State.keeps_setStep | apply State.keeps_endRun | apply State.keeps_drifted | apply State.keeps_newCorrections | apply State.keeps_newForceCorr | apply State.keeps_groupDone | apply State.keeps_agentItem | apply State.keeps_setSlice
    | with_reducible exact hF.sub rfl
    | with_reducible exact id
    | split
    | refine Keeps.ofFst (by assumption) ?_
    | refine Keeps.ofSnd (by assumption) ?_
    | ((fail_if_no_progress extract_lets +onlyGivenNames x); first
      | (have g : State := x; clear g; refine Keeps.cut x ?_ ?_; (on_goal 2 => (intro _; try clear_value x)); (on_goal 1 => subst x))
      | (have g : _ → State := x; clear g; subst x) | (have g : _ → _ → State := x; clear g; subst x) | (have g : Option _ := x; clear g; subst x) | skip)
    | intro

theorem State.keeps_moveCredits {F : Nat} {s t : State} (hF : Within 1024 F) (h : Keeps F s t) (old : Nat) (new : Nat) : Keeps F s (t.moveCredits old new) := by
  unfold State.moveCredits
  repeat' first
    | with_reducible assumption
    | with_reducible refine Keeps.ite ?_ ?_
    | with_reducible first | apply State.keeps_setCredit | apply State.keeps_each
    | with_reducible exact hF.sub rfl
    | split
    | refine Keeps.ofFst (by assumption) ?_
    | refine Keeps.ofSnd (by assumption) ?_
    | ((fail_if_no_progress extract_lets +onlyGivenNames x); first
      | (have g : State := x; clear g; refine Keeps.cut x ?_ ?_; (on_goal 2 => (intro _; try clear_value x)); (on_goal 1 => subst x))
      | (have g : _ → State := x; clear g; subst x) | (have g : _ → _ → State := x; clear g; subst x) | (have g : Option _ := x; clear g; subst x) | skip)
    | intro

theorem State.keeps_remap {F : Nat} {s t : State} (hF : Within 2360672 F) (h : Keeps F s t) (n : Nat) (q : Nat) : Keeps F s (t.remap n q) := by
  unfold State.remap
  repeat' first
    | with_reducible assumption
    | with_reducible refine Keeps.ite ?_ ?_
    | with_reducible first | apply State.keeps_recordCouch | apply State.keeps_moveCredits | apply State.keeps_sliceFreed | apply State.keeps_setForce | apply State.keeps_setSeq | apply State.keeps_setRes | apply State.keeps_setSlice | apply State.keeps_iff
    | with_reducible exact hF.sub rfl
    | split
    | refine Keeps.ofFst (by assumption) ?_
    | refine Keeps.ofSnd (by assumption) ?_
    | ((fail_if_no_progress extract_lets +onlyGivenNames x); first
      | (have g : State := x; clear g; refine Keeps.cut x ?_ ?_; (on_goal 2 => (intro _; try clear_value x)); (on_goal 1 => subst x))
      | (have g : _ → State := x; clear g; subst x) | (have g : _ → _ → State := x; clear g; subst x) | (have g : Option _ := x; clear g; subst x) | skip)
    | intro

theorem State.keeps_beginCouch {F : Nat} {s t : State} (hF : Within 2360672 F) (h : Keeps F s t) (t' : Nat) (n : Nat) (q : Nat) (tries : Nat) : Keeps F s (t.beginCouch t' n q tries) := by
  unfold State.beginCouch
  repeat' first
    | with_reducible assumption
    | with_reducible refine Keeps.ite ?_ ?_
    | with_reducible first | apply State.keeps_remap | apply State.keeps_setSlice | apply State.keeps_setCouch
    | with_reducible exact hF.sub rfl
    | split
    | refine Keeps.ofFst (by assumption) ?_
    | refine Keeps.ofSnd (by assumption) ?_
    | ((fail_if_no_progress extract_lets +onlyGivenNames x); first
      | (have g : State := x; clear g; refine Keeps.cut x ?_ ?_; (on_goal 2 => (intro _; try clear_value x)); (on_goal 1 => subst x))
      | (have g : _ → State := x; clear g; subst x) | (have g : _ → _ → State := x; clear g; subst x) | (have g : Option _ := x; clear g; subst x) | skip)
    | intro

theorem State.keeps_startCouch {F : Nat} {s t : State} (hF : Within 2360672 F) (h : Keeps F s t) (t' : Nat) : Keeps F s (t.startCouch t') := by
  unfold State.startCouch
  repeat' first
    | with_reducible assumption
    | with_reducible refine Keeps.ite ?_ ?_
    | with_reducible first | apply State.keeps_beginCouch
    | with_reducible exact hF.sub rfl
    | split
    | refine Keeps.ofFst (by assumption) ?_
    | refine Keeps.ofSnd (by assumption) ?_
    | intro

theorem State.keeps_retryCouch {F : Nat} {s t : State} (hF : Within 2360672 F) (h : Keeps F s t) (t' : Nat) : Keeps F s (t.retryCouch t') := by
  unfold State.retryCouch
  repeat' first
    | with_reducible assumption
    | with_reducible refine Keeps.ite ?_ ?_
    | with_reducible first | apply State.keeps_beginCouch
    | with_reducible exact hF.sub rfl
    | split
    | refine Keeps.ofFst (by assumption) ?_
    | refine Keeps.ofSnd (by assumption) ?_
    | ((fail_if_no_progress extract_lets +onlyGivenNames x); first
      | (have g : State := x; clear g; refine Keeps.cut x ?_ ?_; (on_goal 2 => (intro _; try clear_value x)); (on_goal 1 => subst x))
      | (have g : _ → State := x; clear g; subst x) | (have g : _ → _ → State := x; clear g; subst x) | (have g : Option _ := x; clear g; subst x) | skip)
    | intro

theorem State.keeps_leaveCouching {F : Nat} {s t : State} (hF : Within 34 F) (h : Keeps F s t) (n : Nat) : Keeps F s (t.leaveCouching n) := by
  unfold State.leaveCouching
  repeat' first
    | with_reducible assumption
    | with_reducible refine Keeps.ite ?_ ?_
    | with_reducible first | apply State.keeps_applyForce | apply State.keeps_enterZeroed | apply State.keeps_setForce
    | with_reducible exact hF.sub rfl
    | split
    | refine Keeps.ofFst (by assumption) ?_
    | refine Keeps.ofSnd (by assumption) ?_
    | ((fail_if_no_progress extract_lets +onlyGivenNames x); first
      | (have g : State := x; clear g; refine Keeps.cut x ?_ ?_; (on_goal 2 => (intro _; try clear_value x)); (on_goal 1 => subst x))
      | (have g : _ → State := x; clear g; subst x) | (have g : _ → _ → State := x; clear g; subst x) | (have g : Option _ := x; clear g; subst x) | skip)
    | intro

theorem State.keeps_giveUpCouch {F : Nat} {s t : State} (hF : Within 412850 F) (h : Keeps F s t) (t' : Nat) (retired : Bool) (logged : Bool) : Keeps F s (t.giveUpCouch t' retired logged) := by
  unfold State.giveUpCouch
  repeat' first
    | with_reducible assumption
    | with_reducible refine Keeps.ite ?_ ?_
    | with_reducible first | apply State.keeps_firmwareLog | apply State.keeps_leaveCouching | apply State.keeps_abandonCouch
    | with_reducible exact hF.sub rfl
    | split
    | refine Keeps.ofFst (by assumption) ?_
    | refine Keeps.ofSnd (by assumption) ?_
    | ((fail_if_no_progress extract_lets +onlyGivenNames x); first
      | (have g : State := x; clear g; refine Keeps.cut x ?_ ?_; (on_goal 2 => (intro _; try clear_value x)); (on_goal 1 => subst x))
      | (have g : _ → State := x; clear g; subst x) | (have g : _ → _ → State := x; clear g; subst x) | (have g : Option _ := x; clear g; subst x) | skip)
    | intro

theorem State.keeps_matchCouch {F : Nat} {s t : State} (hF : Within 412850 F) (h : Keeps F s t) (t' : Nat) : Keeps F s (t.matchCouch t') := by
  unfold State.matchCouch
  repeat' first
    | with_reducible assumption
    | with_reducible refine Keeps.ite ?_ ?_
    | with_reducible first | apply State.keeps_giveUpCouch | apply State.keeps_stick | apply State.keeps_setForce | apply State.keeps_setSlice | apply State.keeps_setCouch | apply State.keeps_assertSrc
    | with_reducible exact hF.sub rfl
    | split
    | refine Keeps.ofFst (by assumption) ?_
    | refine Keeps.ofSnd (by assumption) ?_
    | ((fail_if_no_progress extract_lets +onlyGivenNames x); first
      | (have g : State := x; clear g; refine Keeps.cut x ?_ ?_; (on_goal 2 => (intro _; try clear_value x)); (on_goal 1 => subst x))
      | (have g : _ → State := x; clear g; subst x) | (have g : _ → _ → State := x; clear g; subst x) | (have g : Option _ := x; clear g; subst x) | skip)
    | intro

theorem State.keeps_matchFailed {F : Nat} {s t : State} (hF : Within 412850 F) (h : Keeps F s t) (t' : Nat) : Keeps F s (t.matchFailed t') := by
  unfold State.matchFailed
  repeat' first
    | with_reducible assumption
    | with_reducible refine Keeps.ite ?_ ?_
    | with_reducible first | apply State.keeps_giveUpCouch
    | with_reducible exact hF.sub rfl
    | split
    | refine Keeps.ofFst (by assumption) ?_
    | refine Keeps.ofSnd (by assumption) ?_
    | ((fail_if_no_progress extract_lets +onlyGivenNames x); first
      | (have g : State := x; clear g; refine Keeps.cut x ?_ ?_; (on_goal 2 => (intro _; try clear_value x)); (on_goal 1 => subst x))
      | (have g : _ → State := x; clear g; subst x) | (have g : _ → _ → State := x; clear g; subst x) | (have g : Option _ := x; clear g; subst x) | skip)
    | intro

theorem State.keeps_connectSpare {F : Nat} {s t : State} (hF : Within 262144 F) (h : Keeps F s t) (t' : Nat) : Keeps F s (t.connectSpare t') := by
  unfold State.connectSpare
  repeat' first
    | with_reducible assumption
    | with_reducible refine Keeps.ite ?_ ?_
    | with_reducible first | apply State.keeps_setSlice | apply State.keeps_setCouch
    | with_reducible exact hF.sub rfl
    | split
    | refine Keeps.ofFst (by assumption) ?_
    | refine Keeps.ofSnd (by assumption) ?_
    | ((fail_if_no_progress extract_lets +onlyGivenNames x); first
      | (have g : State := x; clear g; refine Keeps.cut x ?_ ?_; (on_goal 2 => (intro _; try clear_value x)); (on_goal 1 => subst x))
      | (have g : _ → State := x; clear g; subst x) | (have g : _ → _ → State := x; clear g; subst x) | (have g : Option _ := x; clear g; subst x) | skip)
    | intro

theorem State.keeps_handover {F : Nat} {s t : State} (hF : Within 412850 F) (h : Keeps F s t) (t' : Nat) : Keeps F s (t.handover t') := by
  unfold State.handover
  repeat' first
    | with_reducible assumption
    | with_reducible refine Keeps.ite ?_ ?_
    | with_reducible first | apply State.keeps_setCal | apply State.keeps_firmwareLog | apply State.keeps_stick | apply State.keeps_setCouch | apply State.keeps_assertSrc
    | with_reducible exact hF.sub rfl
    | with_reducible exact id
    | split
    | refine Keeps.ofFst (by assumption) ?_
    | refine Keeps.ofSnd (by assumption) ?_
    | ((fail_if_no_progress extract_lets +onlyGivenNames x); first
      | (have g : State := x; clear g; refine Keeps.cut x ?_ ?_; (on_goal 2 => (intro _; try clear_value x)); (on_goal 1 => subst x))
      | (have g : _ → State := x; clear g; subst x) | (have g : _ → _ → State := x; clear g; subst x) | (have g : Option _ := x; clear g; subst x) | skip)
    | intro

theorem State.keeps_releaseCouch {F : Nat} {s t : State} (hF : Within 2360690 F) (h : Keeps F s t) (t' : Nat) : Keeps F s (t.releaseCouch t') := by
  unfold State.releaseCouch
  repeat' first
    | with_reducible assumption
    | with_reducible refine Keeps.ite ?_ ?_
    | with_reducible first | apply State.keeps_remap | apply State.keeps_leaveCouching | apply State.keeps_stick | apply State.keeps_setCouch | apply State.keeps_assertSrc
    | with_reducible exact hF.sub rfl
    | split
    | refine Keeps.ofFst (by assumption) ?_
    | refine Keeps.ofSnd (by assumption) ?_
    | ((fail_if_no_progress extract_lets +onlyGivenNames x); first
      | (have g : State := x; clear g; refine Keeps.cut x ?_ ?_; (on_goal 2 => (intro _; try clear_value x)); (on_goal 1 => subst x))
      | (have g : _ → State := x; clear g; subst x) | (have g : _ → _ → State := x; clear g; subst x) | (have g : Option _ := x; clear g; subst x) | skip)
    | intro

theorem State.keeps_commandCouch {F : Nat} {s t : State} (hF : Within 262144 F) (h : Keeps F s t) (n : Nat) (target : Nat) : Keeps F s (t.commandCouch n target) := by
  unfold State.commandCouch
  repeat' first
    | with_reducible assumption
    | with_reducible refine Keeps.ite ?_ ?_
    | with_reducible first | apply State.keeps_setSlice | apply State.keeps_setCouch
    | with_reducible exact hF.sub rfl
    | split
    | refine Keeps.ofFst (by assumption) ?_
    | refine Keeps.ofSnd (by assumption) ?_
    | ((fail_if_no_progress extract_lets +onlyGivenNames x); first
      | (have g : State := x; clear g; refine Keeps.cut x ?_ ?_; (on_goal 2 => (intro _; try clear_value x)); (on_goal 1 => subst x))
      | (have g : _ → State := x; clear g; subst x) | (have g : _ → _ → State := x; clear g; subst x) | (have g : Option _ := x; clear g; subst x) | skip)
    | intro

theorem State.keeps_accumulate {F : Nat} {s t : State} (hF : Within 262144 F) (h : Keeps F s t) (i : Nat) (temp : Nat) (pah : Nat) : Keeps F s (t.accumulate i temp pah) := by
  unfold State.accumulate
  repeat' first
    | with_reducible assumption
    | with_reducible refine Keeps.ite ?_ ?_
    | with_reducible first | apply State.keeps_setSlice
    | with_reducible exact hF.sub rfl
    | split
    | refine Keeps.ofFst (by assumption) ?_
    | refine Keeps.ofSnd (by assumption) ?_
    | ((fail_if_no_progress extract_lets +onlyGivenNames x); first
      | (have g : State := x; clear g; refine Keeps.cut x ?_ ?_; (on_goal 2 => (intro _; try clear_value x)); (on_goal 1 => subst x))
      | (have g : _ → State := x; clear g; subst x) | (have g : _ → _ → State := x; clear g; subst x) | (have g : Option _ := x; clear g; subst x) | skip)
    | intro

theorem State.keeps_saveWear {F : Nat} {s t : State} (hF : Within 4456448 F) (h : Keeps F s t) : Keeps F s (t.saveWear) := by
  unfold State.saveWear
  repeat' first
    | with_reducible assumption
    | (rw [State.writeFlash_cal]; exact id)
    | with_reducible refine Keeps.ite ?_ ?_
    | with_reducible first | apply State.keeps_setCal | apply State.keeps_writeFlash
    | with_reducible exact hF.sub rfl
    | with_reducible exact id
    | split
    | refine Keeps.ofFst (by assumption) ?_
    | refine Keeps.ofSnd (by assumption) ?_
    | ((fail_if_no_progress extract_lets +onlyGivenNames x); first
      | (have g : State := x; clear g; refine Keeps.cut x ?_ ?_; (on_goal 2 => (intro _; try clear_value x)); (on_goal 1 => subst x))
      | (have g : _ → State := x; clear g; subst x) | (have g : _ → _ → State := x; clear g; subst x) | (have g : Option _ := x; clear g; subst x) | skip)
    | intro

theorem State.keeps_loadHalf {F : Nat} {s t : State} (hF : Within 262144 F) (h : Keeps F s t) (seq : Nat) (l : List Byte) : Keeps F s (t.loadHalf seq l) := by
  unfold State.loadHalf
  repeat' first
    | with_reducible assumption
    | with_reducible first | apply State.keeps_setCal | apply State.keeps_setSlice | apply State.keeps_each
    | with_reducible exact hF.sub rfl
    | with_reducible exact id
    | refine Keeps.ofFst (by assumption) ?_
    | refine Keeps.ofSnd (by assumption) ?_
    | ((fail_if_no_progress extract_lets +onlyGivenNames x); first
      | (have g : State := x; clear g; refine Keeps.cut x ?_ ?_; (on_goal 2 => (intro _; try clear_value x)); (on_goal 1 => subst x))
      | (have g : _ → State := x; clear g; subst x) | (have g : _ → _ → State := x; clear g; subst x) | (have g : Option _ := x; clear g; subst x) | skip)
    | intro

theorem State.keeps_loadNewest {F : Nat} {s t : State} (hF : Within 262144 F) (h : Keeps F s t) (k off : Nat) : Keeps F s (t.loadNewest k off) :=
  Keeps.elim (t.wearPick k off) h fun x => State.keeps_loadHalf (hF.sub rfl) h x.1 x.2

theorem State.keeps_loadWear {F : Nat} {s t : State} (hF : Within 262144 F) (h : Keeps F s t) : Keeps F s (t.loadWear) := by
  unfold State.loadWear
  repeat' first
    | with_reducible assumption
    | with_reducible first | apply State.keeps_loadNewest
    | with_reducible exact hF.sub rfl
    | split
    | refine Keeps.ofFst (by assumption) ?_
    | refine Keeps.ofSnd (by assumption) ?_
    | intro

end Sys2Proof.Machine
end

