-- ==== Sys2Proof/Laws/PwrOps.lean ====
section
/-!
SUPPORT. The operations of Machine/PwrOps.lean: the parts of the state that each may change, and what it keeps.
-/

namespace Sys2Proof.Machine

open Sys2Proof

set_option linter.all false

theorem State.keeps_setPwr {F : Nat} {s t : State} (hF : Within 1048576 F) (h : Keeps F s t) (x : Pwr) : Keeps F s (t.setPwr x) := by
  unfold State.setPwr
  repeat' first
    | with_reducible assumption
    | fail_if_no_progress (with_reducible refine Keeps.pwr' (hF.sub rfl) ?_ (by with_reducible rfl))
    | intro

theorem State.keeps_markDomain {F : Nat} {s t : State} (hF : Within 1048576 F) (h : Keeps F s t) (d : Nat) (on : Bool) : Keeps F s (t.markDomain d on) := by
  unfold State.markDomain
  repeat' first
    | with_reducible assumption
    | with_reducible first | apply State.keeps_setPwr
    | with_reducible exact hF.sub rfl
    | intro

theorem State.keeps_sliceOff {F : Nat} {s t : State} (hF : Within 412850 F) (h : Keeps F s t) (i : Nat) : Keeps F s (t.sliceOff i) := by
  unfold State.sliceOff
  repeat' first
    | with_reducible assumption
    | with_reducible first | apply State.keeps_setQueue | apply State.keeps_setStep | apply State.keeps_unbridge | apply State.keeps_giveUpCouch | apply State.keeps_setSlice | apply State.keeps_iff
    | with_reducible exact hF.sub rfl
    | refine Keeps.ofFst (by assumption) ?_
    | refine Keeps.ofSnd (by assumption) ?_
    | ((fail_if_no_progress extract_lets +onlyGivenNames x); first
      | (have g : State := x; clear g; refine Keeps.cut x ?_ ?_; (on_goal 2 => (intro _; try clear_value x)); (on_goal 1 => subst x))
      | (have g : _ → State := x; clear g; subst x) | (have g : _ → _ → State := x; clear g; subst x) | (have g : Option _ := x; clear g; subst x) | skip)
    | intro

theorem State.keeps_groupOff {F : Nat} {s t : State} (hF : Within 20335858 F) (h : Keeps F s t) (d : Nat) : Keeps F s (t.groupOff d) := by
  unfold State.groupOff
  repeat' first
    | with_reducible assumption
    | with_reducible refine Keeps.ite ?_ ?_
    | with_reducible first | apply State.keeps_endRun | apply State.keeps_dropForce | apply State.keeps_stopSeq | apply State.keeps_each | apply State.keeps_setPwr | apply State.keeps_markDomain | apply State.keeps_sliceOff
    | with_reducible exact hF.sub rfl
    | split
    | refine Keeps.ofFst (by assumption) ?_
    | refine Keeps.ofSnd (by assumption) ?_
    | ((fail_if_no_progress extract_lets +onlyGivenNames x); first
      | (have g : State := x; clear g; refine Keeps.cut x ?_ ?_; (on_goal 2 => (intro _; try clear_value x)); (on_goal 1 => subst x))
      | (have g : _ → State := x; clear g; subst x) | (have g : _ → _ → State := x; clear g; subst x) | (have g : Option _ := x; clear g; subst x) | skip)
    | intro

theorem State.keeps_groupOn {F : Nat} {s t : State} (hF : Within 1179746 F) (h : Keeps F s t) (d : Nat) : Keeps F s (t.groupOn d) := by
  unfold State.groupOn
  repeat' first
    | with_reducible assumption
    | with_reducible refine Keeps.ite ?_ ?_
    | with_reducible first | apply State.keeps_dropForce | apply State.keeps_startSeq | apply State.keeps_each | apply State.keeps_setPwr | apply State.keeps_markDomain
    | with_reducible exact hF.sub rfl
    | split
    | refine Keeps.ofFst (by assumption) ?_
    | refine Keeps.ofSnd (by assumption) ?_
    | ((fail_if_no_progress extract_lets +onlyGivenNames x); first
      | (have g : State := x; clear g; refine Keeps.cut x ?_ ?_; (on_goal 2 => (intro _; try clear_value x)); (on_goal 1 => subst x))
      | (have g : _ → State := x; clear g; subst x) | (have g : _ → _ → State := x; clear g; subst x) | (have g : Option _ := x; clear g; subst x) | skip)
    | intro

theorem State.keeps_tileCommonOff {F : Nat} {s t : State} (hF : Within 1049088 F) (h : Keeps F s t) (t' : Nat) : Keeps F s (t.tileCommonOff t') := by
  unfold State.tileCommonOff
  repeat' first
    | with_reducible assumption
    | with_reducible first | apply State.keeps_markDomain
    | fail_if_no_progress (with_reducible refine Keeps.guards' (hF.sub rfl) ?_ (by with_reducible rfl))
    | with_reducible exact hF.sub rfl
    | refine Keeps.ofFst (by assumption) ?_
    | refine Keeps.ofSnd (by assumption) ?_
    | ((fail_if_no_progress extract_lets +onlyGivenNames x); first
      | (have g : State := x; clear g; refine Keeps.cut x ?_ ?_; (on_goal 2 => (intro _; try clear_value x)); (on_goal 1 => subst x))
      | (have g : _ → State := x; clear g; subst x) | (have g : _ → _ → State := x; clear g; subst x) | (have g : Option _ := x; clear g; subst x) | skip)
    | intro

theorem State.keeps_tileOff {F : Nat} {s t : State} (hF : Within 20336370 F) (h : Keeps F s t) (t' : Nat) : Keeps F s (t.tileOff t') := by
  unfold State.tileOff
  repeat' first
    | with_reducible assumption
    | with_reducible first | apply State.keeps_each | apply State.keeps_setPwr | apply State.keeps_groupOff | apply State.keeps_tileCommonOff
    | with_reducible exact hF.sub rfl
    | refine Keeps.ofFst (by assumption) ?_
    | refine Keeps.ofSnd (by assumption) ?_
    | ((fail_if_no_progress extract_lets +onlyGivenNames x); first
      | (have g : State := x; clear g; refine Keeps.cut x ?_ ?_; (on_goal 2 => (intro _; try clear_value x)); (on_goal 1 => subst x))
      | (have g : _ → State := x; clear g; subst x) | (have g : _ → _ → State := x; clear g; subst x) | (have g : Option _ := x; clear g; subst x) | skip)
    | intro

theorem State.keeps_tileCommonOn {F : Nat} {s t : State} (hF : Within 1048592 F) (h : Keeps F s t) (t' : Nat) : Keeps F s (t.tileCommonOn t') := by
  unfold State.tileCommonOn
  repeat' first
    | with_reducible assumption
    | with_reducible refine Keeps.ite ?_ ?_
    | with_reducible first | apply State.keeps_assertSrc | apply State.keeps_markDomain
    | with_reducible exact hF.sub rfl
    | split
    | intro

theorem State.keeps_tileOn {F : Nat} {s t : State} (hF : Within 1179762 F) (h : Keeps F s t) (t' : Nat) : Keeps F s (t.tileOn t') := by
  unfold State.tileOn
  repeat' first
    | with_reducible assumption
    | with_reducible first | apply State.keeps_each | apply State.keeps_groupOn | apply State.keeps_tileCommonOn
    | with_reducible exact hF.sub rfl
    | intro

theorem State.keeps_groupPowered {F : Nat} {s t : State} (hF : Within 1310736 F) (h : Keeps F s t) (d : Nat) : Keeps F s (t.groupPowered d) := by
  unfold State.groupPowered
  repeat' first
    | with_reducible assumption
    | with_reducible refine Keeps.ite ?_ ?_
    | with_reducible first | apply State.keeps_addRun | apply State.keeps_setPwr
    | with_reducible exact hF.sub rfl
    | split
    | refine Keeps.ofFst (by assumption) ?_
    | refine Keeps.ofSnd (by assumption) ?_
    | ((fail_if_no_progress extract_lets +onlyGivenNames x); first
      | (have g : State := x; clear g; refine Keeps.cut x ?_ ?_; (on_goal 2 => (intro _; try clear_value x)); (on_goal 1 => subst x))
      | (have g : _ → State := x; clear g; subst x) | (have g : _ → _ → State := x; clear g; subst x) | (have g : Option _ := x; clear g; subst x) | skip)
    | intro

theorem State.keeps_portStart {F : Nat} {s t : State} (hF : Within 32768 F) (h : Keeps F s t) (p : Nat) : Keeps F s (t.portStart p) := by
  unfold State.portStart
  repeat' first
    | with_reducible assumption
    | with_reducible refine Keeps.ite ?_ ?_
    | with_reducible first | apply State.keeps_enterPort
    | with_reducible exact hF.sub rfl
    | split
    | intro

theorem State.keeps_domainRefused {F : Nat} {s t : State} (hF : Within 412850 F) (h : Keeps F s t) (m : Nat) (code : Nat) : Keeps F s (t.domainRefused m code) := by
  unfold State.domainRefused
  repeat' first
    | with_reducible assumption
    | with_reducible first | apply State.keeps_writeFault | apply State.keeps_stick
    | with_reducible exact hF.sub rfl
    | intro

theorem State.keeps_switchOn {F : Nat} {s t : State} (hF : Within 1212530 F) (h : Keeps F s t) (d : Nat) : Keeps F s (t.switchOn d) := by
  unfold State.switchOn
  repeat' first
    | with_reducible assumption
    | with_reducible refine Keeps.ite ?_ ?_
    | with_reducible first | apply State.keeps_markDomain | apply State.keeps_groupOn | apply State.keeps_tileCommonOn | apply State.keeps_portStart
    | with_reducible exact hF.sub rfl
    | split
    | intro

theorem State.keeps_switchOff {F : Nat} {s t : State} (hF : Within 20369138 F) (h : Keeps F s t) (m : Nat) (d : Nat) : Keeps F s (t.switchOff m d) := by
  unfold State.switchOff
  repeat' first
    | with_reducible assumption
    | with_reducible refine Keeps.ite ?_ ?_
    | with_reducible first | apply State.keeps_each | apply State.keeps_markDomain | apply State.keeps_groupOff | apply State.keeps_tileCommonOff | apply State.keeps_domainRefused | apply State.keeps_portDisabled
    | with_reducible exact hF.sub rfl
    | split
    | intro

theorem State.keeps_domainRequest {F : Nat} {s t : State} (hF : Within 20369138 F) (h : Keeps F s t) (m : Nat) (v : Word) : Keeps F s (t.domainRequest m v) := by
  unfold State.domainRequest
  repeat' first
    | with_reducible assumption
    | with_reducible refine Keeps.ite ?_ ?_
    | with_reducible first | apply State.keeps_domainRefused | apply State.keeps_switchOn | apply State.keeps_switchOff
    | with_reducible exact hF.sub rfl
    | split
    | refine Keeps.ofFst (by assumption) ?_
    | refine Keeps.ofSnd (by assumption) ?_
    | ((fail_if_no_progress extract_lets +onlyGivenNames x); first
      | (have g : State := x; clear g; refine Keeps.cut x ?_ ?_; (on_goal 2 => (intro _; try clear_value x)); (on_goal 1 => subst x))
      | (have g : _ → State := x; clear g; subst x) | (have g : _ → _ → State := x; clear g; subst x) | (have g : Option _ := x; clear g; subst x) | skip)
    | intro

theorem State.keeps_tileRailLost {F : Nat} {s t : State} (hF : Within 1461426 F) (h : Keeps F s t) (t' : Nat) : Keeps F s (t.tileRailLost t') := by
  unfold State.tileRailLost
  repeat' first
    | with_reducible assumption
    | with_reducible refine Keeps.ite ?_ ?_
    | with_reducible first | apply State.keeps_fault | apply State.keeps_stick | apply State.keeps_setPwr
    | with_reducible exact hF.sub rfl
    | split
    | refine Keeps.ofFst (by assumption) ?_
    | refine Keeps.ofSnd (by assumption) ?_
    | ((fail_if_no_progress extract_lets +onlyGivenNames x); first
      | (have g : State := x; clear g; refine Keeps.cut x ?_ ?_; (on_goal 2 => (intro _; try clear_value x)); (on_goal 1 => subst x))
      | (have g : _ → State := x; clear g; subst x) | (have g : _ → _ → State := x; clear g; subst x) | (have g : Option _ := x; clear g; subst x) | skip)
    | intro

theorem State.keeps_tileRailBack {F : Nat} {s t : State} (hF : Within 1441906 F) (h : Keeps F s t) (t' : Nat) : Keeps F s (t.tileRailBack t') := by
  unfold State.tileRailBack
  repeat' first
    | with_reducible assumption
    | with_reducible refine Keeps.ite ?_ ?_
    | with_reducible first | apply State.keeps_addRun | apply State.keeps_setPwr | apply State.keeps_tileOn
    | with_reducible exact hF.sub rfl
    | split
    | refine Keeps.ofFst (by assumption) ?_
    | refine Keeps.ofSnd (by assumption) ?_
    | ((fail_if_no_progress extract_lets +onlyGivenNames x); first
      | (have g : State := x; clear g; refine Keeps.cut x ?_ ?_; (on_goal 2 => (intro _; try clear_value x)); (on_goal 1 => subst x))
      | (have g : _ → State := x; clear g; subst x) | (have g : _ → _ → State := x; clear g; subst x) | (have g : Option _ := x; clear g; subst x) | skip)
    | intro

theorem State.keeps_tileDomainsOff {F : Nat} {s t : State} (hF : Within 20336370 F) (h : Keeps F s t) (t' : Nat) (within : Bool) : Keeps F s (t.tileDomainsOff t' within) := by
  unfold State.tileDomainsOff
  repeat' first
    | with_reducible assumption
    | with_reducible refine Keeps.ite ?_ ?_
    | with_reducible first | apply State.keeps_tileOff
    | with_reducible exact hF.sub rfl
    | split
    | refine Keeps.ofFst (by assumption) ?_
    | refine Keeps.ofSnd (by assumption) ?_
    | intro

theorem State.keeps_hubLost {F : Nat} {s t : State} (hF : Within 10354678 F) (h : Keeps F s t) : Keeps F s t.hubLost :=
  h.step (by constructor <;> intros <;> first | rfl | exact hF.out rfl (by assumption)) rfl rfl fun c =>
    { State.reset_fine with regs := Table.rising_filter _ c.regs, gens := c.gens, beats := c.beats, inj := c.inj, flash := c.flash, fuses := c.fuses }

/-- A full POR keeps the queue, the fuses and the flash; time starts again (R376). -/
theorem State.keptBy_porReset (t : State) :
    t.porReset.pending = t.pending ∧ t.fusesGrow t.porReset ∧ (t.canonical → t.porReset.canonical) := by
  refine ⟨rfl, fun i => by simp [State.fuseWord, State.porReset], fun c => ?_⟩
  rw [State.canonical_iff] at c ⊢
  exact { State.reset_fine with flash := c.flash, fuses := c.fuses }

theorem State.keeps_hubRailLost {F : Nat} {s t : State} (hF : Within 10485750 F) (h : Keeps F s t) (r : Nat) (hr : r ≠ 2) : Keeps F s (t.hubRailLost r) := by
  unfold State.hubRailLost
  rw [if_neg hr]
  have g := State.keeps_setPwr (hF.sub rfl) h { t.pwr with hubOk := setBitN t.pwr.hubOk r false }
  have f := fun x => State.keeps_fault (hF.sub rfl) (State.keeps_stick (hF.sub rfl) g f_PWR_EVENTS_supply_hub x) 0xB03 5 .device pwrMaster
  exact Keeps.ite g (Keeps.ite (State.keeps_each (f _ ..) _ _ fun p v k => State.keeps_portFailed (hF.sub rfl) k p) (State.keeps_hubLost (hF.sub rfl) (f _ ..)))

theorem State.keeps_hubRailsBack {F : Nat} {s t : State} (hF : Within 1081344 F) (h : Keeps F s t) : Keeps F s (t.hubRailsBack) := by
  unfold State.hubRailsBack
  repeat' first
    | with_reducible assumption
    | with_reducible first | apply State.keeps_each | apply State.keeps_setPwr | apply State.keeps_portStart
    | with_reducible exact hF.sub rfl
    | intro

theorem State.keeps_hubRestart {F : Nat} {s t : State} (hF : Within 1179648 F) (h : Keeps F s t) : Keeps F s (t.hubRestart) := by
  unfold State.hubRestart
  repeat' first
    | with_reducible assumption
    | with_reducible refine Keeps.ite ?_ ?_
    | with_reducible first | apply State.keeps_clearCondition | apply State.keeps_setPwr
    | with_reducible exact hF.sub rfl
    | split
    | intro

theorem State.keeps_powerItem {F : Nat} {s t : State} (hF : Within 412850 F) (h : Keeps F s t) : Keeps F s (t.powerItem) := by
  unfold State.powerItem
  repeat' first
    | with_reducible assumption
    | with_reducible first | apply State.keeps_agentItem
    | with_reducible exact hF.sub rfl
    | refine Keeps.ofFst (by assumption) ?_
    | refine Keeps.ofSnd (by assumption) ?_
    | ((fail_if_no_progress extract_lets +onlyGivenNames x); first
      | (have g : State := x; clear g; refine Keeps.cut x ?_ ?_; (on_goal 2 => (intro _; try clear_value x)); (on_goal 1 => subst x))
      | (have g : _ → State := x; clear g; subst x) | (have g : _ → _ → State := x; clear g; subst x) | (have g : Option _ := x; clear g; subst x) | skip)
    | intro

theorem State.keeps_measurePower {F : Nat} {s t : State} (hF : Within 1461426 F) (h : Keeps F s t) (mw : Nat) (tiles : List Nat) (stack : Nat) (hub : Nat) : Keeps F s (t.measurePower mw tiles stack hub) := by
  unfold State.measurePower
  repeat' first
    | with_reducible assumption
    | with_reducible refine Keeps.ite ?_ ?_
    | with_reducible first | apply State.keeps_fault | apply State.keeps_stick | apply State.keeps_each | apply State.keeps_setPwr
    | with_reducible exact hF.sub rfl
    | split
    | refine Keeps.ofFst (by assumption) ?_
    | refine Keeps.ofSnd (by assumption) ?_
    | ((fail_if_no_progress extract_lets +onlyGivenNames x); first
      | (have g : State := x; clear g; refine Keeps.cut x ?_ ?_; (on_goal 2 => (intro _; try clear_value x)); (on_goal 1 => subst x))
      | (have g : _ → State := x; clear g; subst x) | (have g : _ → _ → State := x; clear g; subst x) | (have g : Option _ := x; clear g; subst x) | skip)
    | intro

theorem State.keeps_stepNotices {F : Nat} {s t : State} (hF : Within 412850 F) (h : Keeps F s t) (tiles : List Nat) : Keeps F s (t.stepNotices tiles) := by
  unfold State.stepNotices
  repeat' first
    | with_reducible assumption
    | with_reducible refine Keeps.ite ?_ ?_
    | with_reducible first | apply State.keeps_fault | apply State.keeps_stick | apply State.keeps_each | apply State.keeps_assertSrc | apply State.keeps_powerItem
    | with_reducible exact hF.sub rfl
    | split
    | refine Keeps.ofFst (by assumption) ?_
    | refine Keeps.ofSnd (by assumption) ?_
    | ((fail_if_no_progress extract_lets +onlyGivenNames x); first
      | (have g : State := x; clear g; refine Keeps.cut x ?_ ?_; (on_goal 2 => (intro _; try clear_value x)); (on_goal 1 => subst x))
      | (have g : _ → State := x; clear g; subst x) | (have g : _ → _ → State := x; clear g; subst x) | (have g : Option _ := x; clear g; subst x) | skip)
    | intro

theorem State.keeps_deviceStep {F : Nat} {s t : State} (hF : Within 1461426 F) (h : Keeps F s t) : Keeps F s (t.deviceStep) := by
  unfold State.deviceStep
  repeat' first
    | with_reducible assumption
    | with_reducible refine Keeps.ite ?_ ?_
    | with_reducible first | apply State.keeps_setPwr | apply State.keeps_stepNotices
    | with_reducible exact hF.sub rfl
    | split
    | refine Keeps.ofFst (by assumption) ?_
    | refine Keeps.ofSnd (by assumption) ?_
    | ((fail_if_no_progress extract_lets +onlyGivenNames x); first
      | (have g : State := x; clear g; refine Keeps.cut x ?_ ?_; (on_goal 2 => (intro _; try clear_value x)); (on_goal 1 => subst x))
      | (have g : _ → State := x; clear g; subst x) | (have g : _ → _ → State := x; clear g; subst x) | (have g : Option _ := x; clear g; subst x) | skip)
    | intro

theorem State.keeps_tileStep {F : Nat} {s t : State} (hF : Within 1461426 F) (h : Keeps F s t) (t' : Nat) : Keeps F s (t.tileStep t') := by
  unfold State.tileStep
  repeat' first
    | with_reducible assumption
    | with_reducible refine Keeps.ite ?_ ?_
    | with_reducible first | apply State.keeps_setPwr | apply State.keeps_stepNotices
    | with_reducible exact hF.sub rfl
    | split
    | refine Keeps.ofFst (by assumption) ?_
    | refine Keeps.ofSnd (by assumption) ?_
    | ((fail_if_no_progress extract_lets +onlyGivenNames x); first
      | (have g : State := x; clear g; refine Keeps.cut x ?_ ?_; (on_goal 2 => (intro _; try clear_value x)); (on_goal 1 => subst x))
      | (have g : _ → State := x; clear g; subst x) | (have g : _ → _ → State := x; clear g; subst x) | (have g : Option _ := x; clear g; subst x) | skip)
    | intro

theorem State.keeps_stepReleased {F : Nat} {s t : State} (hF : Within 412850 F) (h : Keeps F s t) (old : State) : Keeps F s (t.stepReleased old) := by
  unfold State.stepReleased
  repeat' first
    | with_reducible assumption
    | with_reducible refine Keeps.ite ?_ ?_
    | with_reducible first | apply State.keeps_stick | apply State.keeps_powerItem
    | with_reducible exact hF.sub rfl
    | split
    | refine Keeps.ofFst (by assumption) ?_
    | refine Keeps.ofSnd (by assumption) ?_
    | ((fail_if_no_progress extract_lets +onlyGivenNames x); first
      | (have g : State := x; clear g; refine Keeps.cut x ?_ ?_; (on_goal 2 => (intro _; try clear_value x)); (on_goal 1 => subst x))
      | (have g : _ → State := x; clear g; subst x) | (have g : _ → _ → State := x; clear g; subst x) | (have g : Option _ := x; clear g; subst x) | skip)
    | intro

theorem State.keeps_releaseStep {F : Nat} {s t : State} (hF : Within 1461426 F) (h : Keeps F s t) (tile : Option Nat) : Keeps F s (t.releaseStep tile) := by
  unfold State.releaseStep
  repeat' first
    | with_reducible assumption
    | with_reducible refine Keeps.ite ?_ ?_
    | with_reducible first | apply State.keeps_setPwr | apply State.keeps_stepReleased
    | with_reducible exact hF.sub rfl
    | split
    | refine Keeps.ofFst (by assumption) ?_
    | refine Keeps.ofSnd (by assumption) ?_
    | ((fail_if_no_progress extract_lets +onlyGivenNames x); first
      | (have g : State := x; clear g; refine Keeps.cut x ?_ ?_; (on_goal 2 => (intro _; try clear_value x)); (on_goal 1 => subst x))
      | (have g : _ → State := x; clear g; subst x) | (have g : _ → _ → State := x; clear g; subst x) | (have g : Option _ := x; clear g; subst x) | skip)
    | intro

end Sys2Proof.Machine
end

