-- ==== Sys2Proof/Laws/RegView.lean ====
section
/-!
SUPPORT. The operations of Machine/RegView.lean: the parts of the state that each may change, and what it keeps.
-/

namespace Sys2Proof.Machine

open Sys2Proof

set_option linter.all false

end Sys2Proof.Machine
end

