-- ==== Sys2Proof/Laws/Access.lean ====
section
/-!
SUPPORT. The operations of Machine/Access.lean: the parts of the state that each may change, and what it keeps.
-/

namespace Sys2Proof.Machine

open Sys2Proof

set_option linter.all false

theorem State.keeps_reservedAccess {F : Nat} {s t : State} (hF : Within 412850 F) (h : Keeps F s t) (m : Nat) (a : Nat) (write : Bool) : Keeps F s (t.reservedAccess m a write) := by
  unfold State.reservedAccess
  repeat' first
    | with_reducible assumption
    | with_reducible first | apply State.keeps_accessFault
    | with_reducible exact hF.sub rfl
    | intro

theorem State.keeps_storeShadow {F : Nat} {s t : State} (hF : Within 4 F) (h : Keeps F s t) (m : Nat) (p : Nat) (hi : Word) : Keeps F s (t.storeShadow m p hi) := by
  unfold State.storeShadow
  repeat' first
    | with_reducible assumption
    | ((fail_if_no_progress extract_lets +onlyGivenNames x); first
      | (have g : State := x; clear g; refine Keeps.cut x ?_ ?_; (on_goal 2 => (intro _; try clear_value x)); (on_goal 1 => subst x))
      | (have g : _ → State := x; clear g; subst x) | (have g : _ → _ → State := x; clear g; subst x) | (have g : Option _ := x; clear g; subst x) | skip)
    | with_reducible refine Keeps.ite ?_ ?_
    | fail_if_no_progress (with_reducible refine Keeps.dev' (hF.sub rfl) ?_ (by with_reducible rfl))
    | split
    | refine Keeps.ofFst (by assumption) ?_
    | refine Keeps.ofSnd (by assumption) ?_
    | intro

theorem State.keeps_readLo {F : Nat} {s t : State} (hF : Within 4 F) (h : Keeps F s t) (m : Nat) (a : Nat) : Keeps F s (t.readLo m a).1 := by
  unfold State.readLo
  repeat' first
    | with_reducible assumption
    | with_reducible first | apply State.keeps_storeShadow
    | with_reducible exact hF.sub rfl
    | intro

theorem State.keeps_readHi {F : Nat} {s t : State} (hF : Within 2 F) (h : Keeps F s t) (m : Nat) (a : Nat) : Keeps F s (t.readHi m a).1 := by
  unfold State.readHi
  repeat' first
    | with_reducible assumption
    | with_reducible first | apply State.keeps_tally
    | with_reducible exact hF.sub rfl
    | split
    | refine Keeps.ofFst (by assumption) ?_
    | refine Keeps.ofSnd (by assumption) ?_
    | intro

theorem State.keeps_storePop {F : Nat} {s t : State} (hF : Within 1024 F) (h : Keeps F s t) (m : Nat) (f : Nat) (it : Item) : Keeps F s (t.storePop m f it) := by
  unfold State.storePop
  repeat' first
    | with_reducible assumption
    | ((fail_if_no_progress extract_lets +onlyGivenNames x); first
      | (have g : State := x; clear g; refine Keeps.cut x ?_ ?_; (on_goal 2 => (intro _; try clear_value x)); (on_goal 1 => subst x))
      | (have g : _ → State := x; clear g; subst x) | (have g : _ → _ → State := x; clear g; subst x) | (have g : Option _ := x; clear g; subst x) | skip)
    | with_reducible refine Keeps.ite ?_ ?_
    | fail_if_no_progress (with_reducible refine Keeps.que' (hF.sub rfl) ?_ (by with_reducible rfl))
    | split
    | refine Keeps.ofFst (by assumption) ?_
    | refine Keeps.ofSnd (by assumption) ?_
    | intro

theorem State.passes_popRead {F : Nat} (hF : Within 458235 F) (t : State) (m f : Nat) : Passes F t (t.popRead m f).1 := by
  unfold State.popRead
  dsimp only
  have idle : ∀ v : State, Keeps F v (v.storePop m f (idleItem v.raster)) := fun v => State.keeps_storePop (hF.sub rfl) (Keeps.refl v) ..
  split
  · exact ((State.keeps_accessFault (hF.sub rfl) (Keeps.refl _) ..).trans (idle _)).passes
  · split
    · exact (idle t).passes
    · have a : Passes F t (if (t.feltOf f).takeCycle = some t.cycle then t.begin ((t.cycle + 1) * 256) else t) :=
        Passes.ite (State.passes_begin (hF.sub rfl) ..) (Keeps.refl t).passes
      generalize (if (t.feltOf f).takeCycle = some t.cycle then t.begin ((t.cycle + 1) * 256) else t) = v at a ⊢
      have b : Keeps F v (State.fetchFront f (v.feltOf f).depth v) := State.keeps_fetchFront (hF.sub rfl) f _ (Keeps.refl v)
      split
      · exact a.keeps (State.keeps_storePop (hF.sub rfl) (State.keeps_take (hF.sub rfl) b (e := by assumption) ..) ..)
      · exact a.keeps (b.trans (idle _))

theorem State.keeps_popWord {F : Nat} {s t : State} (hF : Within 2 F) (h : Keeps F s t) (m : Nat) (f : Nat) (w : Nat) : Keeps F s (t.popWord m f w).1 := by
  unfold State.popWord
  repeat' first
    | with_reducible assumption
    | with_reducible first | apply State.keeps_tally
    | with_reducible exact hF.sub rfl
    | split
    | refine Keeps.ofFst (by assumption) ?_
    | refine Keeps.ofSnd (by assumption) ?_
    | intro

theorem State.keeps_readClear {F : Nat} {s t : State} (hF : Within 2 F) (h : Keeps F s t) (r : Reg) (i : Nat) (j : Nat) : Keeps F s (t.readClear r i j).1 := by
  unfold State.readClear
  repeat' first
    | with_reducible assumption
    | ((fail_if_no_progress extract_lets +onlyGivenNames x); first
      | (have g : State := x; clear g; refine Keeps.cut x ?_ ?_; (on_goal 2 => (intro _; try clear_value x)); (on_goal 1 => subst x))
      | (have g : _ → State := x; clear g; subst x) | (have g : _ → _ → State := x; clear g; subst x) | (have g : Option _ := x; clear g; subst x) | skip)
    | with_reducible refine Keeps.ite ?_ ?_
    | with_reducible refine Keeps.iteFst ?_ ?_
    | with_reducible first | apply State.keeps_wr
    | with_reducible exact hF.sub rfl
    | split
    | refine Keeps.ofFst (by assumption) ?_
    | refine Keeps.ofSnd (by assumption) ?_
    | intro

theorem State.passes_readReg {F : Nat} (hF : Within 458239 F) (t : State) (m : Nat) (r : Reg) (i j : Nat) : Passes F t (t.readReg m r i j).1 := by
  unfold State.readReg
  split
  · split
    · exact State.passes_popRead (hF.sub rfl) ..
    · exact (State.keeps_popWord (hF.sub rfl) (Keeps.refl _) ..).passes
  · split
    · exact (State.keeps_readLo (hF.sub rfl) (Keeps.refl _) ..).passes
    · exact (State.keeps_readHi (hF.sub rfl) (Keeps.refl _) ..).passes
    · exact (State.keeps_readClear (hF.sub rfl) (Keeps.refl _) ..).passes

theorem State.keeps_readMem {F : Nat} {s t : State} (hF : Within 17202354 F) (h : Keeps F s t) (m : Nat) (a : Nat) (bad : Bool) : Keeps F s (t.readMem m a bad).st := by
  unfold State.readMem
  repeat' first
    | with_reducible assumption
    | with_reducible refine Keeps.ite ?_ ?_
    | with_reducible first | apply State.keeps_clientUncorrectable | apply State.keeps_memRead | apply State.keeps_freeWord | apply State.keeps_memArrive
    | with_reducible exact hF.sub rfl
    | split
    | refine Keeps.ofFst (by assumption) ?_
    | refine Keeps.ofSnd (by assumption) ?_
    | ((fail_if_no_progress extract_lets +onlyGivenNames x); first
      | (have g : State := x; clear g; refine Keeps.cut x ?_ ?_; (on_goal 2 => (intro _; try clear_value x)); (on_goal 1 => subst x))
      | (have g : _ → State := x; clear g; subst x) | (have g : _ → _ → State := x; clear g; subst x) | (have g : Option _ := x; clear g; subst x) | skip)
    | intro

theorem State.keeps_vatBytes {F : Nat} {s : State} (hF : Within 16793600 F) : ∀ (k o : Nat) {t : State} (_ : Keeps F s t),
    Keeps F s (State.vatBytes o k t).2
  | 0, _, _, h => h
  | k + 1, o, t, h => by
    unfold State.vatBytes
    split
    · exact State.keeps_vatBytes (hF.sub rfl) k (o + 1) h
    · exact State.keeps_vatBytes (hF.sub rfl) k (o + 1) ((State.keeps_freeWord (hF.sub rfl) h).step (Frame.vat' (hF.sub rfl) _ _) rfl rfl
        fun c => { c with vat := Table.rising_insert c.vat })

theorem State.passes_readAt {F : Nat} (hF : Within 17235455 F) (t : State) (m a : Nat) (bad : Bool) : Passes F t (t.readAt m a bad).st := by
  unfold State.readAt
  split
  · exact (State.keeps_reservedAccess (hF.sub rfl) (Keeps.refl _) ..).passes
  · split
    · exact (State.keeps_readMem (hF.sub rfl) (Keeps.refl _) ..).passes
    · exact (State.keeps_vatBytes (hF.sub rfl) _ _ (Keeps.refl _)).passes
    · exact State.passes_readReg (hF.sub rfl) ..
    · exact (Keeps.refl _).passes
    · exact (Keeps.refl _).passes
    · exact (State.keeps_reservedAccess (hF.sub rfl) (Keeps.refl _) ..).passes

end Sys2Proof.Machine
end

