-- ==== Sys2Proof/Laws/RegChange.lean ====
section
/-!
SUPPORT. The operations of Machine/RegChange.lean: the parts of the state that each may change, and what it keeps.
-/

namespace Sys2Proof.Machine

open Sys2Proof

set_option linter.all false

theorem State.keeps_cutCodes {F : Nat} {s t : State} (hF : Within 16777216 F) (h : Keeps F s t) (n : Nat) (codes : Option (List Int)) : Keeps F s (t.cutCodes n codes).2 := by
  unfold State.cutCodes
  repeat' first
    | with_reducible assumption
    | with_reducible first | apply keeps_freeCodes
    | with_reducible exact hF.sub rfl
    | split
    | refine Keeps.ofFst (by assumption) ?_
    | refine Keeps.ofSnd (by assumption) ?_
    | intro

theorem State.keeps_clearEnable {F : Nat} {s t : State} (hF : Within 17190130 F) (h : Keeps F s t) (n : Nat) (codes : Option (List Int)) : Keeps F s (t.clearEnable n codes) := by
  unfold State.clearEnable
  repeat' first
    | with_reducible assumption
    | with_reducible first | apply State.keeps_haltEngine | apply State.keeps_disableForce | apply State.keeps_enableCleared | apply State.keeps_cutCodes
    | with_reducible exact hF.sub rfl
    | refine Keeps.ofFst (by assumption) ?_
    | refine Keeps.ofSnd (by assumption) ?_
    | ((fail_if_no_progress extract_lets +onlyGivenNames x); first
      | (have g : State := x; clear g; refine Keeps.cut x ?_ ?_; (on_goal 2 => (intro _; try clear_value x)); (on_goal 1 => subst x))
      | (have g : _ → State := x; clear g; subst x) | (have g : _ → _ → State := x; clear g; subst x) | (have g : Option _ := x; clear g; subst x) | skip)
    | intro

theorem State.keeps_detachChannel {F : Nat} {s t : State} (hF : Within 17190130 F) (h : Keeps F s t) (n : Nat) (codes : Option (List Int)) : Keeps F s (t.detachChannel n codes) := by
  unfold State.detachChannel
  repeat' first
    | with_reducible assumption
    | with_reducible refine Keeps.ite ?_ ?_
    | with_reducible first | apply State.keeps_haltEngine | apply State.keeps_setFld | apply State.keeps_setForce | apply State.keeps_clearEnable
    | with_reducible exact hF.sub rfl
    | split
    | refine Keeps.ofFst (by assumption) ?_
    | refine Keeps.ofSnd (by assumption) ?_
    | ((fail_if_no_progress extract_lets +onlyGivenNames x); first
      | (have g : State := x; clear g; refine Keeps.cut x ?_ ?_; (on_goal 2 => (intro _; try clear_value x)); (on_goal 1 => subst x))
      | (have g : _ → State := x; clear g; subst x) | (have g : _ → _ → State := x; clear g; subst x) | (have g : Option _ := x; clear g; subst x) | skip)
    | intro

theorem State.keeps_autorangeCheck {F : Nat} {s t : State} (hF : Within 50 F) (h : Keeps F s t) (n : Nat) : Keeps F s (t.autorangeCheck n) := by
  unfold State.autorangeCheck
  repeat' first
    | with_reducible assumption
    | with_reducible refine Keeps.ite ?_ ?_
    | with_reducible first | apply State.keeps_stick | apply State.keeps_stepRange | apply State.keeps_assertSrc
    | with_reducible exact hF.sub rfl
    | split
    | refine Keeps.ofFst (by assumption) ?_
    | refine Keeps.ofSnd (by assumption) ?_
    | ((fail_if_no_progress extract_lets +onlyGivenNames x); first
      | (have g : State := x; clear g; refine Keeps.cut x ?_ ?_; (on_goal 2 => (intro _; try clear_value x)); (on_goal 1 => subst x))
      | (have g : _ → State := x; clear g; subst x) | (have g : _ → _ → State := x; clear g; subst x) | (have g : Option _ := x; clear g; subst x) | skip)
    | intro

theorem State.keeps_autorangeFresh {F : Nat} {s t : State} (hF : Within 114 F) (h : Keeps F s t) (n : Nat) : Keeps F s (t.autorangeFresh n) := by
  unfold State.autorangeFresh
  repeat' first
    | with_reducible assumption
    | with_reducible first | apply State.keeps_setSeq | apply State.keeps_autorangeCheck
    | with_reducible exact hF.sub rfl
    | intro

theorem State.keeps_autorangeCleared {F : Nat} {s t : State} (hF : Within 34 F) (h : Keeps F s t) (n : Nat) (old : Word) : Keeps F s (t.autorangeCleared n old) := by
  unfold State.autorangeCleared
  repeat' first
    | with_reducible assumption
    | with_reducible refine Keeps.ite ?_ ?_
    | with_reducible first | apply State.keeps_wr | apply State.keeps_stepRange | apply State.keeps_setForce
    | with_reducible exact hF.sub rfl
    | split
    | refine Keeps.ofFst (by assumption) ?_
    | refine Keeps.ofSnd (by assumption) ?_
    | ((fail_if_no_progress extract_lets +onlyGivenNames x); first
      | (have g : State := x; clear g; refine Keeps.cut x ?_ ?_; (on_goal 2 => (intro _; try clear_value x)); (on_goal 1 => subst x))
      | (have g : _ → State := x; clear g; subst x) | (have g : _ → _ → State := x; clear g; subst x) | (have g : Option _ := x; clear g; subst x) | skip)
    | intro

theorem State.keeps_lowPowerChanged {F : Nat} {s t : State} (hF : Within 64 F) (h : Keeps F s t) (n : Nat) : Keeps F s (t.lowPowerChanged n) := by
  unfold State.lowPowerChanged
  repeat' first
    | with_reducible assumption
    | with_reducible refine Keeps.ite ?_ ?_
    | with_reducible first | apply State.keeps_setSeq
    | with_reducible exact hF.sub rfl
    | split
    | refine Keeps.ofFst (by assumption) ?_
    | refine Keeps.ofSnd (by assumption) ?_
    | ((fail_if_no_progress extract_lets +onlyGivenNames x); first
      | (have g : State := x; clear g; refine Keeps.cut x ?_ ?_; (on_goal 2 => (intro _; try clear_value x)); (on_goal 1 => subst x))
      | (have g : _ → State := x; clear g; subst x) | (have g : _ → _ → State := x; clear g; subst x) | (have g : Option _ := x; clear g; subst x) | skip)
    | intro

theorem State.keeps_measCtlChanged {F : Nat} {s t : State} (hF : Within 17190130 F) (h : Keeps F s t) (n : Nat) (codes : Option (List Int)) (old : Word) : Keeps F s (t.measCtlChanged n codes old) := by
  unfold State.measCtlChanged
  repeat' first
    | with_reducible assumption
    | with_reducible refine Keeps.ite ?_ ?_
    | with_reducible first | apply State.keeps_startSeq | apply State.keeps_stopSeq | apply State.keeps_cutShort | apply State.keeps_cutCodes | apply State.keeps_autorangeFresh | apply State.keeps_autorangeCleared | apply State.keeps_lowPowerChanged
    | with_reducible exact hF.sub rfl
    | split
    | refine Keeps.ofFst (by assumption) ?_
    | refine Keeps.ofSnd (by assumption) ?_
    | ((fail_if_no_progress extract_lets +onlyGivenNames x); first
      | (have g : State := x; clear g; refine Keeps.cut x ?_ ?_; (on_goal 2 => (intro _; try clear_value x)); (on_goal 1 => subst x))
      | (have g : _ → State := x; clear g; subst x) | (have g : _ → _ → State := x; clear g; subst x) | (have g : Option _ := x; clear g; subst x) | skip)
    | intro

theorem State.keeps_feltCtlChanged {F : Nat} {s t : State} (hF : Within 1024 F) (h : Keeps F s t) (f : Nat) (old : Word) : Keeps F s (t.feltCtlChanged f old) := by
  unfold State.feltCtlChanged
  repeat' first
    | with_reducible assumption
    | with_reducible refine Keeps.ite ?_ ?_
    | with_reducible first | apply State.keeps_openFelt | apply State.keeps_closeFelt
    | with_reducible exact hF.sub rfl
    | split
    | refine Keeps.ofFst (by assumption) ?_
    | refine Keeps.ofSnd (by assumption) ?_
    | ((fail_if_no_progress extract_lets +onlyGivenNames x); first
      | (have g : State := x; clear g; refine Keeps.cut x ?_ ?_; (on_goal 2 => (intro _; try clear_value x)); (on_goal 1 => subst x))
      | (have g : _ → State := x; clear g; subst x) | (have g : _ → _ → State := x; clear g; subst x) | (have g : Option _ := x; clear g; subst x) | skip)
    | intro

theorem State.keeps_writeForce {F : Nat} {s t : State} (hF : Within 412850 F) (h : Keeps F s t) (m : Nat) (n : Nat) (v : Word) : Keeps F s (t.writeForce m n v) := by
  unfold State.writeForce
  repeat' first
    | with_reducible assumption
    | with_reducible refine Keeps.ite ?_ ?_
    | with_reducible first | apply State.keeps_acceptForce | apply State.keeps_refuseForce
    | with_reducible exact hF.sub rfl
    | split
    | refine Keeps.ofFst (by assumption) ?_
    | refine Keeps.ofSnd (by assumption) ?_
    | ((fail_if_no_progress extract_lets +onlyGivenNames x); first
      | (have g : State := x; clear g; refine Keeps.cut x ?_ ?_; (on_goal 2 => (intro _; try clear_value x)); (on_goal 1 => subst x))
      | (have g : _ → State := x; clear g; subst x) | (have g : _ → _ → State := x; clear g; subst x) | (have g : Option _ := x; clear g; subst x) | skip)
    | intro

theorem State.keeps_changed {F : Nat} {s t : State} (hF : Within 17235442 F) (h : Keeps F s t) (r : Reg) (i : Nat) (j : Nat) (codes : Option (List Int)) (old : Word) : Keeps F s (t.changed r i j codes old) := by
  unfold State.changed
  repeat' first
    | with_reducible assumption
    | with_reducible refine Keeps.ite ?_ ?_
    | with_reducible first | apply State.keeps_returnUnwritten | apply State.keeps_levelWritten | apply State.keeps_autorangeHeld | apply State.keeps_freqWanted | apply State.keeps_setRes | apply State.keeps_portStart | apply State.keeps_clearEnable | apply State.keeps_measCtlChanged | apply State.keeps_feltCtlChanged | apply State.keeps_reprime | apply State.keeps_portDisabled | apply State.keeps_rateWanted
    | with_reducible exact hF.sub rfl
    | split
    | refine Keeps.ofFst (by assumption) ?_
    | refine Keeps.ofSnd (by assumption) ?_
    | ((fail_if_no_progress extract_lets +onlyGivenNames x); first
      | (have g : State := x; clear g; refine Keeps.cut x ?_ ?_; (on_goal 2 => (intro _; try clear_value x)); (on_goal 1 => subst x))
      | (have g : _ → State := x; clear g; subst x) | (have g : _ → _ → State := x; clear g; subst x) | (have g : Option _ := x; clear g; subst x) | skip)
    | intro

theorem State.keeps_loadWord {F : Nat} {s t : State} (hF : Within 18 F) (h : Keeps F s t) (r : Reg) (i : Nat) (j : Nat) (v : Word) : Keeps F s (t.loadWord r i j v) := by
  unfold State.loadWord
  repeat' first
    | with_reducible assumption
    | with_reducible first | apply State.keeps_rcKeep | apply State.keeps_wr
    | with_reducible exact hF.sub rfl
    | split
    | refine Keeps.ofFst (by assumption) ?_
    | refine Keeps.ofSnd (by assumption) ?_
    | ((fail_if_no_progress extract_lets +onlyGivenNames x); first
      | (have g : State := x; clear g; refine Keeps.cut x ?_ ?_; (on_goal 2 => (intro _; try clear_value x)); (on_goal 1 => subst x))
      | (have g : _ → State := x; clear g; subst x) | (have g : _ → _ → State := x; clear g; subst x) | (have g : Option _ := x; clear g; subst x) | skip)
    | intro

theorem State.keeps_loadReg {F : Nat} {s t : State} (hF : Within 17235442 F) (h : Keeps F s t) (m : Nat) (r : Reg) (i : Nat) (j : Nat) (v : Word) : Keeps F s (State.loadReg m t r i j v) := by
  unfold State.loadReg
  repeat' first
    | with_reducible assumption
    | with_reducible refine Keeps.ite ?_ ?_
    | with_reducible first | apply State.keeps_accessFault | apply State.keeps_writeForce | apply State.keeps_changed | apply State.keeps_loadWord
    | with_reducible exact hF.sub rfl
    | split
    | refine Keeps.ofFst (by assumption) ?_
    | refine Keeps.ofSnd (by assumption) ?_
    | ((fail_if_no_progress extract_lets +onlyGivenNames x); first
      | (have g : State := x; clear g; refine Keeps.cut x ?_ ?_; (on_goal 2 => (intro _; try clear_value x)); (on_goal 1 => subst x))
      | (have g : _ → State := x; clear g; subst x) | (have g : _ → _ → State := x; clear g; subst x) | (have g : Option _ := x; clear g; subst x) | skip)
    | intro

theorem State.keeps_loadArm {F : Nat} {s t : State} (hF : Within 412858 F) (h : Keeps F s t) (m : Nat) (r : Reg) (i : Nat) (v : Word) : Keeps F s (t.loadArm m r i v) := by
  unfold State.loadArm
  repeat' first
    | with_reducible assumption
    | with_reducible refine Keeps.ite ?_ ?_
    | with_reducible first | apply State.keeps_armGen
    | with_reducible exact hF.sub rfl
    | split
    | refine Keeps.ofFst (by assumption) ?_
    | refine Keeps.ofSnd (by assumption) ?_
    | intro

end Sys2Proof.Machine
end

