-- ==== Sys2Proof/Laws/ImageCheck.lean ====
section
/-!
SUPPORT. The operations of Machine/ImageCheck.lean: the parts of the state that each may change, and what it keeps.
-/

namespace Sys2Proof.Machine

open Sys2Proof

set_option linter.all false

theorem State.keeps_applyRecord {F : Nat} {s t : State} (hF : Within 0 F) (h : Keeps F s t) (r : RegRecord) (write : State → Reg → Nat → Nat → Word → State)
    (g : ∀ v x i j w, Keeps F s v → Keeps F s (write v x i j w)) : Keeps F s (t.applyRecord r write) := by
  unfold State.applyRecord
  split
  · exact g _ _ _ _ _ h
  · exact h

/-- Where an operation that may refuse ends. -/
structure MayKeep (F : Nat) (s : State) (o : Option State) : Prop where
  of : ∀ u, o = some u → Keeps F s u

theorem MayKeep.none {F : Nat} {s : State} : MayKeep F s none := ⟨fun _ e => nomatch e⟩

theorem MayKeep.some {F : Nat} {s t : State} (h : Keeps F s t) : MayKeep F s (some t) := ⟨fun _ e => Option.some.inj e ▸ h⟩

theorem MayKeep.ite {F : Nat} {s : State} {c : Prop} {_ : Decidable c} {o p : Option State} (h : MayKeep F s o) (g : MayKeep F s p) :
    MayKeep F s (if c then o else p) := by split <;> assumption

theorem State.mayKeep_keyOp {F : Nat} {s t : State} (hF : Within 2097152 F) (h : Keeps F s t) (signer : Nat) (l : List Byte) : MayKeep F s (t.keyOp signer l) := by
  unfold State.keyOp
  dsimp only
  refine .ite .none (.ite (.ite .none (.some (State.keeps_burnFuse (hF.sub rfl) h ..))) (.ite ?_ .none))
  split
  · exact .some (State.keeps_burnFuse (hF.sub rfl) (State.keeps_each h _ _ fun j v g => State.keeps_burnFuse (hF.sub rfl) g ..) ..)
  · exact .ite (.some h) .none
  · exact .none

theorem State.mayKeep_keyOps {F : Nat} {s : State} (hF : Within 2097152 F) (signer : Nat) : ∀ (l : List (List Byte)) {t : State} (_ : Keeps F s t), MayKeep F s (State.keyOps signer l t)
  | [], t, h => by
    unfold State.keyOps
    exact .ite (.some h) .none
  | x :: l, t, h => by
    unfold State.keyOps
    split
    · exact State.mayKeep_keyOps (hF.sub rfl) signer l ((State.mayKeep_keyOp (hF.sub rfl) h signer x).of _ (by assumption))
    · exact .none

theorem State.mayKeep_keysOf {F : Nat} {s t : State} (hF : Within 2097152 F) (h : Keeps F s t) (g : Bytes) (l : List Section) (signer : Nat) : MayKeep F s (t.keysOf g l signer) := by
  unfold State.keysOf
  split
  · exact .some h
  · exact .ite (State.mayKeep_keyOps (hF.sub rfl) signer _ h) .none

theorem State.keeps_keysOf {F : Nat} {s t u : State} (hF : Within 2097152 F) (h : Keeps F s t) (g : Bytes) (l : List Section) (signer : Nat) (e : t.keysOf g l signer = some u) :
    Keeps F s u := (State.mayKeep_keysOf (hF.sub rfl) h g l signer).of u e

theorem State.keeps_burnKeys {F : Nat} {s t : State} (hF : Within 2097152 F) (h : Keeps F s t) (g : Bytes) (l : List Section) (signer : Nat) : Keeps F s (t.burnKeys g l signer) := by
  unfold State.burnKeys
  split
  · exact Keeps.fusesOf (hF.sub rfl) h (State.keeps_keysOf (hF.sub rfl) (Keeps.refl t) g l signer (by assumption))
  · exact h

theorem State.keeps_applyManagement {F : Nat} {s t : State} (hF : Within 524288 F) (h : Keeps F s t) (b : List Byte) : Keeps F s (t.applyManagement b) := by
  unfold State.applyManagement
  repeat' first
    | with_reducible assumption
    | ((fail_if_no_progress extract_lets +onlyGivenNames x); first
      | (have g : State := x; clear g; refine Keeps.cut x ?_ ?_; (on_goal 2 => (intro _; try clear_value x)); (on_goal 1 => subst x))
      | (have g : _ → State := x; clear g; subst x) | (have g : _ → _ → State := x; clear g; subst x) | (have g : Option _ := x; clear g; subst x) | skip)
    | fail_if_no_progress (with_reducible refine Keeps.boot' (hF.sub rfl) ?_ (by with_reducible rfl))
    | refine Keeps.ofFst (by assumption) ?_
    | refine Keeps.ofSnd (by assumption) ?_
    | intro

theorem State.keeps_applyWearLog {F : Nat} {s t : State} (hF : Within 524288 F) (h : Keeps F s t) (b : List Byte) : Keeps F s (t.applyWearLog b) := by
  unfold State.applyWearLog
  repeat' first
    | with_reducible assumption
    | ((fail_if_no_progress extract_lets +onlyGivenNames x); first
      | (have g : State := x; clear g; refine Keeps.cut x ?_ ?_; (on_goal 2 => (intro _; try clear_value x)); (on_goal 1 => subst x))
      | (have g : _ → State := x; clear g; subst x) | (have g : _ → _ → State := x; clear g; subst x) | (have g : Option _ := x; clear g; subst x) | skip)
    | with_reducible refine Keeps.ite ?_ ?_
    | fail_if_no_progress (with_reducible refine Keeps.boot' (hF.sub rfl) ?_ (by with_reducible rfl))
    | split
    | refine Keeps.ofFst (by assumption) ?_
    | refine Keeps.ofSnd (by assumption) ?_
    | intro

theorem State.keeps_candidate {F : Nat} {s t : State} (hF : Within 530454 F) (h : Keeps F s t) (g : Bytes) (h' : Header) (l : List Section) : Keeps F s (t.candidate g h' l) := by
  unfold State.candidate
  repeat' first
    | with_reducible assumption
    | with_reducible first | apply State.keeps_applyRecord | apply State.keeps_applyManagement | apply State.keeps_each | apply State.keeps_writeHbm | apply State.keeps_loadWord
    | fail_if_no_progress (with_reducible refine Keeps.dev' (hF.sub rfl) ?_ (by with_reducible rfl))
    | with_reducible exact hF.sub rfl
    | split
    | refine Keeps.ofFst (by assumption) ?_
    | refine Keeps.ofSnd (by assumption) ?_
    | ((fail_if_no_progress extract_lets +onlyGivenNames x); first
      | (have g : State := x; clear g; refine Keeps.cut x ?_ ?_; (on_goal 2 => (intro _; try clear_value x)); (on_goal 1 => subst x))
      | (have g : _ → State := x; clear g; subst x) | (have g : _ → _ → State := x; clear g; subst x) | (have g : Option _ := x; clear g; subst x) | skip)
    | intro

end Sys2Proof.Machine
end

