-- ==== Sys2Proof/Laws/BootOps.lean ====
section
/-!
SUPPORT. The operations of Machine/BootOps.lean: the parts of the state that each may change, and what it keeps.
-/

namespace Sys2Proof.Machine

open Sys2Proof

set_option linter.all false

theorem State.keeps_setBoot {F : Nat} {s t : State} (hF : Within 524288 F) (h : Keeps F s t) (x : Boot)
    (e0 : Table.rising t.boot.cores = true → Table.rising x.cores = true) :
    Keeps F s (t.setBoot x) := h.step (Frame.boot' hF t x) rfl rfl fun c => { c with cores := e0 c.cores }

theorem State.keeps_setPhase {F : Nat} {s t : State} (hF : Within 524292 F) (h : Keeps F s t) (p : Nat) : Keeps F s (t.setPhase p) := by
  unfold State.setPhase
  repeat' first
    | with_reducible assumption
    | exact Keeps.same h (by constructor <;> intros <;> first | rfl | exact hF.out rfl (by assumption)) rfl
    | fail_if_no_progress (with_reducible refine Keeps.dev' (hF.sub rfl) ?_ (by with_reducible rfl))
    | fail_if_no_progress (with_reducible refine Keeps.boot' (hF.sub rfl) ?_ (by with_reducible rfl))
    | intro

theorem State.keeps_applyCouchRecord {F : Nat} {s t : State} (hF : Within 262176 F) (h : Keeps F s t) (k : Nat) : Keeps F s (t.applyCouchRecord k) := by
  unfold State.applyCouchRecord
  repeat' first
    | with_reducible assumption
    | with_reducible refine Keeps.ite ?_ ?_
    | with_reducible first | apply State.keeps_setForce | apply State.keeps_setSlice
    | with_reducible exact hF.sub rfl
    | split
    | refine Keeps.ofFst (by assumption) ?_
    | refine Keeps.ofSnd (by assumption) ?_
    | ((fail_if_no_progress extract_lets +onlyGivenNames x); first
      | (have g : State := x; clear g; refine Keeps.cut x ?_ ?_; (on_goal 2 => (intro _; try clear_value x)); (on_goal 1 => subst x))
      | (have g : _ → State := x; clear g; subst x) | (have g : _ → _ → State := x; clear g; subst x) | (have g : Option _ := x; clear g; subst x) | skip)
    | intro

theorem State.keeps_applyRepairRecord {F : Nat} {s t : State} (hF : Within 2048 F) (h : Keeps F s t) (k : Nat) : Keeps F s (t.applyRepairRecord k) := by
  unfold State.applyRepairRecord
  repeat' first
    | with_reducible assumption
    | with_reducible refine Keeps.ite ?_ ?_
    | with_reducible first | apply State.keeps_setBank
    | with_reducible exact hF.sub rfl
    | split
    | refine Keeps.ofFst (by assumption) ?_
    | refine Keeps.ofSnd (by assumption) ?_
    | ((fail_if_no_progress extract_lets +onlyGivenNames x); first
      | (have g : State := x; clear g; refine Keeps.cut x ?_ ?_; (on_goal 2 => (intro _; try clear_value x)); (on_goal 1 => subst x))
      | (have g : _ → State := x; clear g; subst x) | (have g : _ → _ → State := x; clear g; subst x) | (have g : Option _ := x; clear g; subst x) | skip)
    | intro

theorem State.keeps_loadFuses {F : Nat} {s t : State} (hF : Within 788518 F) (h : Keeps F s t) : Keeps F s (t.loadFuses) := by
  unfold State.loadFuses
  repeat' first
    | with_reducible assumption
    | with_reducible refine Keeps.ite ?_ ?_
    | with_reducible first | apply State.keeps_setPhase | apply State.keeps_applyCouchRecord | apply State.keeps_applyRepairRecord | apply State.keeps_setCal | apply State.keeps_stickIf | apply State.keeps_each
    | with_reducible exact hF.sub rfl
    | with_reducible exact id
    | split
    | refine Keeps.ofFst (by assumption) ?_
    | refine Keeps.ofSnd (by assumption) ?_
    | ((fail_if_no_progress extract_lets +onlyGivenNames x); first
      | (have g : State := x; clear g; refine Keeps.cut x ?_ ?_; (on_goal 2 => (intro _; try clear_value x)); (on_goal 1 => subst x))
      | (have g : _ → State := x; clear g; subst x) | (have g : _ → _ → State := x; clear g; subst x) | (have g : Option _ := x; clear g; subst x) | skip)
    | intro

theorem State.keeps_bootBack {F : Nat} {s t : State} (hF : Within 1703894 F) (h : Keeps F s t) : Keeps F s t.bootBack :=
  h.step (by constructor <;> intros <;> first | rfl | exact hF.out rfl (by assumption)) rfl rfl fun c =>
    { State.reset_fine with regs := Table.rising_filter _ c.regs, force := c.force, slices := c.slices, couch := c.couch, gens := c.gens,
                            beats := c.beats, banks := Table.rising_map _ c.banks, inj := c.inj, flash := c.flash, fuses := c.fuses }

theorem State.keeps_setFail {F : Nat} {s t : State} (hF : Within 524288 F) (h : Keeps F s t) (k : Nat) (reason : Nat) : Keeps F s (t.setFail k reason) := by
  unfold State.setFail
  repeat' first
    | with_reducible assumption
    | with_reducible refine Keeps.ite ?_ ?_
    | with_reducible first | apply State.keeps_setBoot
    | with_reducible exact hF.sub rfl
    | with_reducible exact id
    | split
    | intro

theorem State.keeps_rejectSlot {F : Nat} {s t : State} (hF : Within 1703894 F) (h : Keeps F s t) (k : Nat) (reason : Nat) : Keeps F s (t.rejectSlot k reason) := by
  unfold State.rejectSlot
  repeat' first
    | with_reducible assumption
    | with_reducible refine Keeps.ite ?_ ?_
    | with_reducible first | apply State.keeps_setPhase | apply State.keeps_bootBack | apply State.keeps_setFail
    | with_reducible exact hF.sub rfl
    | split
    | refine Keeps.ofFst (by assumption) ?_
    | refine Keeps.ofSnd (by assumption) ?_
    | ((fail_if_no_progress extract_lets +onlyGivenNames x); first
      | (have g : State := x; clear g; refine Keeps.cut x ?_ ?_; (on_goal 2 => (intro _; try clear_value x)); (on_goal 1 => subst x))
      | (have g : _ → State := x; clear g; subst x) | (have g : _ → _ → State := x; clear g; subst x) | (have g : Option _ := x; clear g; subst x) | skip)
    | intro

theorem State.keeps_selectSlot {F : Nat} {s t : State} (hF : Within 524292 F) (h : Keeps F s t) (absentA : Bool) (absentB : Bool) : Keeps F s (t.selectSlot absentA absentB) := by
  unfold State.selectSlot
  repeat' first
    | with_reducible assumption
    | with_reducible refine Keeps.ite ?_ ?_
    | with_reducible first | apply State.keeps_setBoot | apply State.keeps_setPhase | apply State.keeps_setFail
    | with_reducible exact hF.sub rfl
    | with_reducible exact id
    | split
    | refine Keeps.ofFst (by assumption) ?_
    | refine Keeps.ofSnd (by assumption) ?_
    | ((fail_if_no_progress extract_lets +onlyGivenNames x); first
      | (have g : State := x; clear g; refine Keeps.cut x ?_ ?_; (on_goal 2 => (intro _; try clear_value x)); (on_goal 1 => subst x))
      | (have g : _ → State := x; clear g; subst x) | (have g : _ → _ → State := x; clear g; subst x) | (have g : Option _ := x; clear g; subst x) | skip)
    | intro

theorem State.keeps_applyBlocks {F : Nat} {s t : State} (hF : Within 17235442 F) (h : Keeps F s t) (g : Bytes) (l : List Section) (blocks : List Nat) : Keeps F s (t.applyBlocks g l blocks) := by
  unfold State.applyBlocks
  repeat' first
    | with_reducible assumption
    | with_reducible first | apply State.keeps_applyRecord | apply State.keeps_each | apply State.keeps_loadReg
    | with_reducible exact hF.sub rfl
    | split
    | refine Keeps.ofFst (by assumption) ?_
    | refine Keeps.ofSnd (by assumption) ?_
    | intro

theorem State.keeps_applyArms {F : Nat} {s t : State} (hF : Within 412858 F) (h : Keeps F s t) (m : Nat) (g : Bytes) (l : List Section) : Keeps F s (t.applyArms m g l) := by
  unfold State.applyArms
  repeat' first
    | with_reducible assumption
    | with_reducible first | apply State.keeps_each | apply State.keeps_loadArm
    | with_reducible exact hF.sub rfl
    | split
    | refine Keeps.ofFst (by assumption) ?_
    | refine Keeps.ofSnd (by assumption) ?_
    | intro

theorem State.keeps_domainsOn {F : Nat} {s t : State} (hF : Within 1048576 F) (h : Keeps F s t) (l : List Nat) : Keeps F s (t.domainsOn l) := by
  unfold State.domainsOn
  repeat' first
    | with_reducible assumption
    | with_reducible first | apply State.keeps_each | apply State.keeps_markDomain
    | with_reducible exact hF.sub rfl
    | intro

theorem State.keeps_verifySlot {F : Nat} {s t : State} (hF : Within 20971510 F) (h : Keeps F s t) : Keeps F s (t.verifySlot) := by
  unfold State.verifySlot
  repeat' first
    | with_reducible assumption
    | with_reducible refine Keeps.ite ?_ ?_
    | with_reducible first | apply State.keeps_setBoot | apply State.keeps_setPhase | apply State.keeps_rejectSlot | apply State.keeps_applyBlocks | apply State.keeps_domainsOn | apply State.keeps_candidate | apply State.keeps_setMemc
    | with_reducible exact hF.sub rfl
    | with_reducible exact id
    | split
    | refine Keeps.ofFst (by assumption) ?_
    | refine Keeps.ofSnd (by assumption) ?_
    | ((fail_if_no_progress extract_lets +onlyGivenNames x); first
      | (have g : State := x; clear g; refine Keeps.cut x ?_ ?_; (on_goal 2 => (intro _; try clear_value x)); (on_goal 1 => subst x))
      | (have g : _ → State := x; clear g; subst x) | (have g : _ → _ → State := x; clear g; subst x) | (have g : Option _ := x; clear g; subst x) | skip)
    | intro

theorem State.keeps_trainHbm {F : Nat} {s t : State} (hF : Within 18874358 F) (h : Keeps F s t) : Keeps F s (t.trainHbm) := by
  unfold State.trainHbm
  repeat' first
    | with_reducible assumption
    | with_reducible refine Keeps.ite ?_ ?_
    | with_reducible first | apply State.keeps_setBoot | apply State.keeps_setPhase | apply State.keeps_rejectSlot | apply State.keeps_applyBlocks | apply State.keeps_domainsOn | apply State.keeps_memWrite | apply State.keeps_each | apply State.keeps_setMemc | apply State.keeps_portStart
    | fail_if_no_progress (with_reducible refine Keeps.dev' (hF.sub rfl) ?_ (by with_reducible rfl))
    | with_reducible exact hF.sub rfl
    | with_reducible exact id
    | split
    | refine Keeps.ofFst (by assumption) ?_
    | refine Keeps.ofSnd (by assumption) ?_
    | ((fail_if_no_progress extract_lets +onlyGivenNames x); first
      | (have g : State := x; clear g; refine Keeps.cut x ?_ ?_; (on_goal 2 => (intro _; try clear_value x)); (on_goal 1 => subst x))
      | (have g : _ → State := x; clear g; subst x) | (have g : _ → _ → State := x; clear g; subst x) | (have g : Option _ := x; clear g; subst x) | skip)
    | intro

theorem State.keeps_endWebTraining {F : Nat} {s t : State} (hF : Within 524292 F) (h : Keeps F s t) : Keeps F s (t.endWebTraining) := by
  unfold State.endWebTraining
  repeat' first
    | with_reducible assumption
    | with_reducible refine Keeps.ite ?_ ?_
    | with_reducible first | apply State.keeps_setPhase
    | fail_if_no_progress (with_reducible refine Keeps.dev' (hF.sub rfl) ?_ (by with_reducible rfl))
    | with_reducible exact hF.sub rfl
    | split
    | refine Keeps.ofFst (by assumption) ?_
    | refine Keeps.ofSnd (by assumption) ?_
    | ((fail_if_no_progress extract_lets +onlyGivenNames x); first
      | (have g : State := x; clear g; refine Keeps.cut x ?_ ?_; (on_goal 2 => (intro _; try clear_value x)); (on_goal 1 => subst x))
      | (have g : _ → State := x; clear g; subst x) | (have g : _ → _ → State := x; clear g; subst x) | (have g : Option _ := x; clear g; subst x) | skip)
    | intro

theorem State.keeps_firstTileOn {F : Nat} {s t : State} (hF : Within 1461490 F) (h : Keeps F s t) (t' : Nat) : Keeps F s (t.firstTileOn t') := by
  unfold State.firstTileOn
  repeat' first
    | with_reducible assumption
    | with_reducible refine Keeps.ite ?_ ?_
    | with_reducible first | apply State.keeps_fault | apply State.keeps_tileOn
    | with_reducible exact hF.sub rfl
    | split
    | intro

theorem State.keeps_powerTiles {F : Nat} {s t : State} (hF : Within 18808306 F) (h : Keeps F s t) : Keeps F s (t.powerTiles) := by
  unfold State.powerTiles
  repeat' first
    | with_reducible assumption
    | with_reducible refine Keeps.ite ?_ ?_
    | with_reducible first | apply State.keeps_applyBlocks | apply State.keeps_domainsOn | apply State.keeps_firstTileOn | apply State.keeps_addRun | apply State.keeps_loadWear | apply State.keeps_applyWearLog | apply State.keeps_each | apply State.keeps_setPwr
    | with_reducible exact hF.sub rfl
    | split
    | refine Keeps.ofFst (by assumption) ?_
    | refine Keeps.ofSnd (by assumption) ?_
    | ((fail_if_no_progress extract_lets +onlyGivenNames x); first
      | (have g : State := x; clear g; refine Keeps.cut x ?_ ?_; (on_goal 2 => (intro _; try clear_value x)); (on_goal 1 => subst x))
      | (have g : _ → State := x; clear g; subst x) | (have g : _ → _ → State := x; clear g; subst x) | (have g : Option _ := x; clear g; subst x) | skip)
    | intro

theorem State.keeps_startUpStep {F : Nat} {s t : State} (hF : Within 17190130 F) (h : Keeps F s t) (i : Nat) : Keeps F s (t.startUpStep i) := by
  unfold State.startUpStep
  repeat' first
    | with_reducible assumption
    | with_reducible refine Keeps.ite ?_ ?_
    | with_reducible first | apply State.keeps_setCal | apply State.keeps_setSel | apply State.keeps_drifted | apply State.keeps_newCorrections | apply State.keeps_newForceCorr | apply State.keeps_agentItem | apply State.keeps_setSlice | apply State.keeps_freeWord | apply State.keeps_freeDWord | apply State.keeps_freeInt
    | with_reducible exact hF.sub rfl
    | with_reducible exact id
    | split
    | refine Keeps.ofFst (by assumption) ?_
    | refine Keeps.ofSnd (by assumption) ?_
    | ((fail_if_no_progress extract_lets +onlyGivenNames x); first
      | (have g : State := x; clear g; refine Keeps.cut x ?_ ?_; (on_goal 2 => (intro _; try clear_value x)); (on_goal 1 => subst x))
      | (have g : _ → State := x; clear g; subst x) | (have g : _ → _ → State := x; clear g; subst x) | (have g : Option _ := x; clear g; subst x) | skip)
    | intro

theorem State.keeps_raiseFloor {F : Nat} {s t : State} (hF : Within 2097152 F) (h : Keeps F s t) : Keeps F s (t.raiseFloor) := by
  unfold State.raiseFloor
  repeat' first
    | with_reducible assumption
    | with_reducible refine Keeps.ite ?_ ?_
    | with_reducible first | apply State.keeps_burnFuse
    | with_reducible exact hF.sub rfl
    | split
    | refine Keeps.ofFst (by assumption) ?_
    | refine Keeps.ofSnd (by assumption) ?_
    | ((fail_if_no_progress extract_lets +onlyGivenNames x); first
      | (have g : State := x; clear g; refine Keeps.cut x ?_ ?_; (on_goal 2 => (intro _; try clear_value x)); (on_goal 1 => subst x))
      | (have g : _ → State := x; clear g; subst x) | (have g : _ → _ → State := x; clear g; subst x) | (have g : Option _ := x; clear g; subst x) | skip)
    | intro

theorem State.keeps_endTileRun {F : Nat} {s t : State} (hF : Within 17190130 F) (h : Keeps F s t) (t' : Nat) : Keeps F s (t.endTileRun t') := by
  unfold State.endTileRun
  repeat' first
    | with_reducible assumption
    | with_reducible first | apply State.keeps_startUpStep | apply State.keeps_setQueue | apply State.keeps_setStep | apply State.keeps_setSlice | apply State.keeps_each
    | with_reducible exact hF.sub rfl
    | split
    | refine Keeps.ofFst (by assumption) ?_
    | refine Keeps.ofSnd (by assumption) ?_
    | ((fail_if_no_progress extract_lets +onlyGivenNames x); first
      | (have g : State := x; clear g; refine Keeps.cut x ?_ ?_; (on_goal 2 => (intro _; try clear_value x)); (on_goal 1 => subst x))
      | (have g : _ → State := x; clear g; subst x) | (have g : _ → _ → State := x; clear g; subst x) | (have g : Option _ := x; clear g; subst x) | skip)
    | intro

theorem State.keeps_endStartUpRun {F : Nat} {s t : State} (hF : Within 19856894 F) (h : Keeps F s t) : Keeps F s t.endStartUpRun := by
  unfold State.endStartUpRun
  refine Keeps.ite h ?_
  have a := State.keeps_setPhase (hF.sub rfl) (State.keeps_endRun (hF.sub rfl) (State.keeps_each h (List.range 8) (fun i v => v.endTileRun i)
    fun i v k => State.keeps_endTileRun (hF.sub rfl) k i)) 6
  generalize ((t.each (List.range 8) fun i v => v.endTileRun i).endRun.setPhase 6) = v at a ⊢
  refine State.keeps_applyArms (hF.sub rfl) (State.keeps_applyBlocks (hF.sub rfl) (State.keeps_raiseFloor (hF.sub rfl) (State.keeps_burnKeys (hF.sub rfl) ?_ ..)) ..) ..
  split
  · refine State.keeps_applyManagement (hF.sub rfl) ?_ _
    exact a.same (Frame.dev' (hF.sub rfl) _ _) rfl
  · exact a.same (Frame.dev' (hF.sub rfl) _ _) rfl

theorem State.keeps_enterRunning {F : Nat} {s t : State} (hF : Within 524292 F) (h : Keeps F s t) : Keeps F s (t.enterRunning) := by
  unfold State.enterRunning
  repeat' first
    | with_reducible assumption
    | with_reducible refine Keeps.ite ?_ ?_
    | with_reducible first | apply State.keeps_setPhase
    | with_reducible exact hF.sub rfl
    | split
    | intro

theorem State.keeps_flashCommand {F : Nat} {s t : State} (hF : Within 1703894 F) (h : Keeps F s t) (cmd : Nat) : Keeps F s (t.flashCommand cmd) := by
  unfold State.flashCommand
  repeat' first
    | with_reducible assumption
    | (intro _; rfl)
    | with_reducible refine Keeps.ite ?_ ?_
    | with_reducible first | apply State.keeps_setBoot | apply State.keeps_setPhase | apply State.keeps_bootBack
    | with_reducible exact hF.sub rfl
    | with_reducible exact id
    | split
    | refine Keeps.ofFst (by assumption) ?_
    | refine Keeps.ofSnd (by assumption) ?_
    | ((fail_if_no_progress extract_lets +onlyGivenNames x); first
      | (have g : State := x; clear g; refine Keeps.cut x ?_ ?_; (on_goal 2 => (intro _; try clear_value x)); (on_goal 1 => subst x))
      | (have g : _ → State := x; clear g; subst x) | (have g : _ → _ → State := x; clear g; subst x) | (have g : Option _ := x; clear g; subst x) | skip)
    | intro

theorem State.keeps_flashDone {F : Nat} {s t : State} (hF : Within 4718594 F) (h : Keeps F s t) (error : Bool) : Keeps F s (t.flashDone error) := by
  unfold State.flashDone
  repeat' first
    | with_reducible assumption
    | with_reducible refine Keeps.ite ?_ ?_
    | with_reducible first | apply State.keeps_setBoot | apply State.keeps_wr | apply State.keeps_each
    | with_reducible first | refine Keeps.flashFilter (hF.sub rfl) ?_ _ | refine Keeps.flashPut (hF.sub rfl) ?_ _ _
    | fail_if_no_progress (with_reducible refine Keeps.flash' (hF.sub rfl) ?_ (by with_reducible rfl))
    | with_reducible exact hF.sub rfl
    | with_reducible exact id
    | split
    | refine Keeps.ofFst (by assumption) ?_
    | refine Keeps.ofSnd (by assumption) ?_
    | ((fail_if_no_progress extract_lets +onlyGivenNames x); first
      | (have g : State := x; clear g; refine Keeps.cut x ?_ ?_; (on_goal 2 => (intro _; try clear_value x)); (on_goal 1 => subst x))
      | (have g : _ → State := x; clear g; subst x) | (have g : _ → _ → State := x; clear g; subst x) | (have g : Option _ := x; clear g; subst x) | skip)
    | intro

theorem State.keeps_coreFails {F : Nat} {s t : State} (hF : Within 1985714 F) (h : Keeps F s t) (k : Nat) : Keeps F s (t.coreFails k) := by
  unfold State.coreFails
  repeat' first
    | with_reducible assumption
    | with_reducible refine Keeps.ite ?_ ?_
    | with_reducible first | apply State.keeps_fault | apply State.keeps_setCore | apply State.keeps_markDomain
    | with_reducible exact hF.sub rfl
    | split
    | refine Keeps.ofFst (by assumption) ?_
    | refine Keeps.ofSnd (by assumption) ?_
    | ((fail_if_no_progress extract_lets +onlyGivenNames x); first
      | (have g : State := x; clear g; refine Keeps.cut x ?_ ?_; (on_goal 2 => (intro _; try clear_value x)); (on_goal 1 => subst x))
      | (have g : _ → State := x; clear g; subst x) | (have g : _ → _ → State := x; clear g; subst x) | (have g : Option _ := x; clear g; subst x) | skip)
    | intro

theorem State.keeps_takeDuty {F : Nat} {s t : State} (hF : Within 524288 F) (h : Keeps F s t) (k : Nat) (d : Nat) : Keeps F s (t.takeDuty k d) := by
  unfold State.takeDuty
  repeat' first
    | with_reducible assumption
    | with_reducible refine Keeps.ite ?_ ?_
    | with_reducible first | apply State.keeps_setCore
    | with_reducible exact hF.sub rfl
    | split
    | refine Keeps.ofFst (by assumption) ?_
    | refine Keeps.ofSnd (by assumption) ?_
    | ((fail_if_no_progress extract_lets +onlyGivenNames x); first
      | (have g : State := x; clear g; refine Keeps.cut x ?_ ?_; (on_goal 2 => (intro _; try clear_value x)); (on_goal 1 => subst x))
      | (have g : _ → State := x; clear g; subst x) | (have g : _ → _ → State := x; clear g; subst x) | (have g : Option _ := x; clear g; subst x) | skip)
    | intro

theorem State.keeps_restartNext {F : Nat} {s t : State} (hF : Within 524288 F) (h : Keeps F s t) : Keeps F s (t.restartNext) := by
  unfold State.restartNext
  repeat' first
    | with_reducible assumption
    | with_reducible first | apply State.keeps_setCore
    | with_reducible exact hF.sub rfl
    | split
    | refine Keeps.ofFst (by assumption) ?_
    | refine Keeps.ofSnd (by assumption) ?_
    | intro

theorem State.keeps_beginSwitch {F : Nat} {s t : State} (hF : Within 524288 F) (h : Keeps F s t) : Keeps F s (t.beginSwitch) := by
  unfold State.beginSwitch
  repeat' first
    | with_reducible assumption
    | with_reducible first | apply State.keeps_setBoot | apply State.keeps_restartNext
    | with_reducible exact hF.sub rfl
    | with_reducible exact id
    | intro

theorem State.keeps_coreRestarted {F : Nat} {s t : State} (hF : Within 524288 F) (h : Keeps F s t) : Keeps F s (t.coreRestarted) := by
  unfold State.coreRestarted
  repeat' first
    | with_reducible assumption
    | with_reducible refine Keeps.ite ?_ ?_
    | with_reducible first | apply State.keeps_setBoot | apply State.keeps_restartNext | apply State.keeps_setCore
    | with_reducible exact hF.sub rfl
    | with_reducible exact id
    | split
    | refine Keeps.ofFst (by assumption) ?_
    | refine Keeps.ofSnd (by assumption) ?_
    | ((fail_if_no_progress extract_lets +onlyGivenNames x); first
      | (have g : State := x; clear g; refine Keeps.cut x ?_ ?_; (on_goal 2 => (intro _; try clear_value x)); (on_goal 1 => subst x))
      | (have g : _ → State := x; clear g; subst x) | (have g : _ → _ → State := x; clear g; subst x) | (have g : Option _ := x; clear g; subst x) | skip)
    | intro

theorem State.keeps_takeDoorbell {F : Nat} {s t : State} (hF : Within 21384370 F) (h : Keeps F s t) (j : Nat) : Keeps F s (t.takeDoorbell j) := by
  unfold State.takeDoorbell
  repeat' first
    | with_reducible assumption
    | with_reducible refine Keeps.ite ?_ ?_
    | with_reducible first | apply State.keeps_addRun | apply State.keeps_saveWear | apply State.keeps_agentItem | apply State.keeps_setPend | apply State.keeps_freeWord
    | with_reducible exact hF.sub rfl
    | split
    | refine Keeps.ofFst (by assumption) ?_
    | refine Keeps.ofSnd (by assumption) ?_
    | ((fail_if_no_progress extract_lets +onlyGivenNames x); first
      | (have g : State := x; clear g; refine Keeps.cut x ?_ ?_; (on_goal 2 => (intro _; try clear_value x)); (on_goal 1 => subst x))
      | (have g : _ → State := x; clear g; subst x) | (have g : _ → _ → State := x; clear g; subst x) | (have g : Option _ := x; clear g; subst x) | skip)
    | intro

theorem State.keeps_slotWriteStart {F : Nat} {s t : State} (hF : Within 4718592 F) (h : Keeps F s t) : Keeps F s (t.slotWriteStart) := by
  unfold State.slotWriteStart
  repeat' first
    | with_reducible assumption
    | with_reducible refine Keeps.ite ?_ ?_
    | with_reducible first | apply State.keeps_setBoot
    | with_reducible first | refine Keeps.flashFilter (hF.sub rfl) ?_ _ | refine Keeps.flashPut (hF.sub rfl) ?_ _ _
    | fail_if_no_progress (with_reducible refine Keeps.flash' (hF.sub rfl) ?_ (by with_reducible rfl))
    | with_reducible exact hF.sub rfl
    | with_reducible exact id
    | split
    | refine Keeps.ofFst (by assumption) ?_
    | refine Keeps.ofSnd (by assumption) ?_
    | ((fail_if_no_progress extract_lets +onlyGivenNames x); first
      | (have g : State := x; clear g; refine Keeps.cut x ?_ ?_; (on_goal 2 => (intro _; try clear_value x)); (on_goal 1 => subst x))
      | (have g : _ → State := x; clear g; subst x) | (have g : _ → _ → State := x; clear g; subst x) | (have g : Option _ := x; clear g; subst x) | skip)
    | intro

theorem State.keeps_slotWriteEnd {F : Nat} {s t : State} (hF : Within 5131442 F) (h : Keeps F s t) (error : Bool) : Keeps F s (t.slotWriteEnd error) := by
  unfold State.slotWriteEnd
  repeat' first
    | with_reducible assumption
    | (rw [State.writeFlash_boot]; exact id)
    | with_reducible refine Keeps.ite ?_ ?_
    | with_reducible first | apply State.keeps_setBoot | apply State.keeps_firmwareLog | apply State.keeps_writeFlash
    | with_reducible exact hF.sub rfl
    | with_reducible exact id
    | split
    | refine Keeps.ofFst (by assumption) ?_
    | refine Keeps.ofSnd (by assumption) ?_
    | ((fail_if_no_progress extract_lets +onlyGivenNames x); first
      | (have g : State := x; clear g; refine Keeps.cut x ?_ ?_; (on_goal 2 => (intro _; try clear_value x)); (on_goal 1 => subst x))
      | (have g : _ → State := x; clear g; subst x) | (have g : _ → _ → State := x; clear g; subst x) | (have g : Option _ := x; clear g; subst x) | skip)
    | intro

theorem State.keeps_attestRequest {F : Nat} {s t : State} (hF : Within 969906 F) (h : Keeps F s t) (src : Nat) (tag : Nat) (nonce : BitVec 256) : Keeps F s (t.attestRequest src tag nonce) := by
  unfold State.attestRequest
  repeat' first
    | with_reducible assumption
    | with_reducible refine Keeps.ite ?_ ?_
    | with_reducible first | apply State.keeps_setBoot | apply State.keeps_respond | apply State.keeps_served
    | with_reducible exact hF.sub rfl
    | with_reducible exact id
    | split
    | refine Keeps.ofFst (by assumption) ?_
    | refine Keeps.ofSnd (by assumption) ?_
    | ((fail_if_no_progress extract_lets +onlyGivenNames x); first
      | (have g : State := x; clear g; refine Keeps.cut x ?_ ?_; (on_goal 2 => (intro _; try clear_value x)); (on_goal 1 => subst x))
      | (have g : _ → State := x; clear g; subst x) | (have g : _ → _ → State := x; clear g; subst x) | (have g : Option _ := x; clear g; subst x) | skip)
    | intro

theorem State.keeps_attestAnswer {F : Nat} {s t : State} (hF : Within 17747122 F) (h : Keeps F s t) : Keeps F s (t.attestAnswer) := by
  unfold State.attestAnswer
  repeat' first
    | with_reducible assumption
    | exact Keeps.same h (by constructor <;> intros <;> first | rfl | exact hF.out rfl (by assumption)) rfl
    | with_reducible refine Keeps.ite ?_ ?_
    | with_reducible first | apply State.keeps_respond
    | fail_if_no_progress (with_reducible refine Keeps.boot' (hF.sub rfl) ?_ (by with_reducible rfl))
    | fail_if_no_progress (with_reducible refine Keeps.free' (hF.sub rfl) ?_ (by with_reducible rfl))
    | with_reducible exact hF.sub rfl
    | split
    | refine Keeps.ofFst (by assumption) ?_
    | refine Keeps.ofSnd (by assumption) ?_
    | ((fail_if_no_progress extract_lets +onlyGivenNames x); first
      | (have g : State := x; clear g; refine Keeps.cut x ?_ ?_; (on_goal 2 => (intro _; try clear_value x)); (on_goal 1 => subst x))
      | (have g : _ → State := x; clear g; subst x) | (have g : _ → _ → State := x; clear g; subst x) | (have g : Option _ := x; clear g; subst x) | skip)
    | intro

end Sys2Proof.Machine
end

