-- ==== Sys2Proof/Laws/AmendOps.lean ====
section
/-!
SUPPORT. The operations of Machine/AmendOps.lean: the parts of the state that each may change, and what it keeps.
-/

namespace Sys2Proof.Machine

open Sys2Proof

set_option linter.all false

theorem State.keeps_setAmend {F : Nat} {s t : State} (hF : Within 524288 F) (h : Keeps F s t) (a : Amend) : Keeps F s (t.setAmend a) := by
  unfold State.setAmend
  repeat' first
    | with_reducible assumption
    | with_reducible first | apply State.keeps_setBoot
    | with_reducible exact hF.sub rfl
    | with_reducible exact id
    | intro

theorem State.keeps_rejectAmend {F : Nat} {s t : State} (hF : Within 937138 F) (h : Keeps F s t) (reason : Nat) : Keeps F s (t.rejectAmend reason) := by
  unfold State.rejectAmend
  repeat' first
    | with_reducible assumption
    | with_reducible refine Keeps.ite ?_ ?_
    | with_reducible first | apply State.keeps_setBoot | apply State.keeps_firmwareLog
    | with_reducible exact hF.sub rfl
    | with_reducible exact id
    | split
    | refine Keeps.ofFst (by assumption) ?_
    | refine Keeps.ofSnd (by assumption) ?_
    | ((fail_if_no_progress extract_lets +onlyGivenNames x); first
      | (have g : State := x; clear g; refine Keeps.cut x ?_ ?_; (on_goal 2 => (intro _; try clear_value x)); (on_goal 1 => subst x))
      | (have g : _ → State := x; clear g; subst x) | (have g : _ → _ → State := x; clear g; subst x) | (have g : Option _ := x; clear g; subst x) | skip)
    | intro

theorem State.keeps_amendSegment {F : Nat} {s t : State} (hF : Within 982194 F) (h : Keeps F s t) (src : Nat) (tag : Nat) (off : Nat) (data : List Byte) : Keeps F s (t.amendSegment src tag off data) := by
  unfold State.amendSegment
  repeat' first
    | with_reducible assumption
    | with_reducible refine Keeps.ite ?_ ?_
    | with_reducible first | apply State.keeps_setAmend | apply State.keeps_memWrite | apply State.keeps_memTouch | apply State.keeps_portOrder | apply State.keeps_respond | apply State.keeps_served
    | with_reducible exact hF.sub rfl
    | split
    | refine Keeps.ofFst (by assumption) ?_
    | refine Keeps.ofSnd (by assumption) ?_
    | ((fail_if_no_progress extract_lets +onlyGivenNames x); first
      | (have g : State := x; clear g; refine Keeps.cut x ?_ ?_; (on_goal 2 => (intro _; try clear_value x)); (on_goal 1 => subst x))
      | (have g : _ → State := x; clear g; subst x) | (have g : _ → _ → State := x; clear g; subst x) | (have g : Option _ := x; clear g; subst x) | skip)
    | intro

theorem State.keeps_amendTimeout {F : Nat} {s t : State} (hF : Within 937138 F) (h : Keeps F s t) : Keeps F s (t.amendTimeout) := by
  unfold State.amendTimeout
  repeat' first
    | with_reducible assumption
    | with_reducible refine Keeps.ite ?_ ?_
    | with_reducible first | apply State.keeps_rejectAmend
    | with_reducible exact hF.sub rfl
    | split
    | refine Keeps.ofFst (by assumption) ?_
    | refine Keeps.ofSnd (by assumption) ?_
    | ((fail_if_no_progress extract_lets +onlyGivenNames x); first
      | (have g : State := x; clear g; refine Keeps.cut x ?_ ?_; (on_goal 2 => (intro _; try clear_value x)); (on_goal 1 => subst x))
      | (have g : _ → State := x; clear g; subst x) | (have g : _ → _ → State := x; clear g; subst x) | (have g : Option _ := x; clear g; subst x) | skip)
    | intro

theorem State.keeps_amendAbort {F : Nat} {s t : State} (hF : Within 937138 F) (h : Keeps F s t) : Keeps F s (t.amendAbort) := by
  unfold State.amendAbort
  repeat' first
    | with_reducible assumption
    | with_reducible first | apply State.keeps_rejectAmend
    | with_reducible exact hF.sub rfl
    | split
    | refine Keeps.ofFst (by assumption) ?_
    | refine Keeps.ofSnd (by assumption) ?_
    | intro

theorem State.keeps_setInactive {F : Nat} {s t : State} (hF : Within 524288 F) (h : Keeps F s t) (b : FwBank) : Keeps F s (t.setInactive b) := by
  unfold State.setInactive
  repeat' first
    | with_reducible assumption
    | with_reducible refine Keeps.ite ?_ ?_
    | with_reducible first | apply State.keeps_setBoot
    | with_reducible exact hF.sub rfl
    | with_reducible exact id
    | split
    | intro

theorem State.keeps_writeWhere {F : Nat} {s : State} (hF : Within 6144 F) (p : Nat → Bool) : ∀ (l : List Byte) (a : Nat) {t : State} (_ : Keeps F s t), Keeps F s (State.writeWhere p a l t)
  | [], _, _, h => h
  | b :: l, a, _, h => State.keeps_writeWhere (hF.sub rfl) p l (a + 1) (Keeps.ite (State.keeps_memWrite (hF.sub rfl) _ h _) h)

theorem State.keeps_prepare {F : Nat} {s t : State} (hF : Within 949426 F) (h : Keeps F s t) : Keeps F s (t.prepare) := by
  unfold State.prepare
  repeat' first
    | with_reducible assumption
    | with_reducible refine Keeps.ite ?_ ?_
    | with_reducible first | apply State.keeps_setAmend | apply State.keeps_rejectAmend | apply State.keeps_setInactive | apply State.keeps_writeWhere | apply State.keeps_memTouch | apply State.keeps_each
    | with_reducible exact hF.sub rfl
    | split
    | refine Keeps.ofFst (by assumption) ?_
    | refine Keeps.ofSnd (by assumption) ?_
    | ((fail_if_no_progress extract_lets +onlyGivenNames x); first
      | (have g : State := x; clear g; refine Keeps.cut x ?_ ?_; (on_goal 2 => (intro _; try clear_value x)); (on_goal 1 => subst x))
      | (have g : _ → State := x; clear g; subst x) | (have g : _ → _ → State := x; clear g; subst x) | (have g : Option _ := x; clear g; subst x) | skip)
    | intro

theorem State.keeps_stage {F : Nat} {s t : State} (hF : Within 3046582 F) (h : Keeps F s t) : Keeps F s (t.stage) := by
  unfold State.stage
  repeat' first
    | with_reducible assumption
    | with_reducible refine Keeps.ite ?_ ?_
    | with_reducible first | apply State.keeps_rejectAmend | apply State.keeps_prepare | apply State.keeps_candidate | apply State.keeps_clientUncorrectable | apply State.keeps_memRead | apply State.keeps_memArrive
    | with_reducible exact hF.sub rfl
    | split
    | refine Keeps.ofFst (by assumption) ?_
    | refine Keeps.ofSnd (by assumption) ?_
    | ((fail_if_no_progress extract_lets +onlyGivenNames x); first
      | (have g : State := x; clear g; refine Keeps.cut x ?_ ?_; (on_goal 2 => (intro _; try clear_value x)); (on_goal 1 => subst x))
      | (have g : _ → State := x; clear g; subst x) | (have g : _ → _ → State := x; clear g; subst x) | (have g : Option _ := x; clear g; subst x) | skip)
    | intro

theorem State.keeps_sourceChanged {F : Nat} {s t : State} (hF : Within 10 F) (h : Keeps F s t)  :
    Keeps F s (t.sourceChanged) := by
  unfold State.sourceChanged
  repeat' first
    | with_reducible assumption
    | with_reducible exact Table.rising_map _ (by assumption)
    | with_reducible first | apply State.keeps_setTb | apply State.keeps_stick
    | with_reducible exact hF.sub rfl
    | with_reducible exact id
    | split
    | refine Keeps.ofFst (by assumption) ?_
    | refine Keeps.ofSnd (by assumption) ?_
    | ((fail_if_no_progress extract_lets +onlyGivenNames x); first
      | (have g : State := x; clear g; refine Keeps.cut x ?_ ?_; (on_goal 2 => (intro _; try clear_value x)); (on_goal 1 => subst x))
      | (have g : _ → State := x; clear g; subst x) | (have g : _ → _ → State := x; clear g; subst x) | (have g : Option _ := x; clear g; subst x) | skip)
    | intro

theorem State.keeps_carryLate {F : Nat} {s t : State} (hF : Within 130 F) (h : Keeps F s t) (n : Nat) (x : Exec) (moved : Bool) : Keeps F s (t.carryLate n x moved) := by
  unfold State.carryLate
  repeat' first
    | with_reducible assumption
    | with_reducible refine Keeps.ite ?_ ?_
    | with_reducible first | apply State.keeps_stick | apply State.keeps_setEng | apply State.keeps_askStop | apply State.keeps_countLate
    | with_reducible exact hF.sub rfl
    | split
    | refine Keeps.ofFst (by assumption) ?_
    | refine Keeps.ofSnd (by assumption) ?_
    | ((fail_if_no_progress extract_lets +onlyGivenNames x); first
      | (have g : State := x; clear g; refine Keeps.cut x ?_ ?_; (on_goal 2 => (intro _; try clear_value x)); (on_goal 1 => subst x))
      | (have g : _ → State := x; clear g; subst x) | (have g : _ → _ → State := x; clear g; subst x) | (have g : Option _ := x; clear g; subst x) | skip)
    | intro

theorem State.keeps_carryEngine {F : Nat} {s t : State} (hF : Within 130 F) (h : Keeps F s t) (n : Nat) : Keeps F s (t.carryEngine n) := by
  unfold State.carryEngine
  repeat' first
    | with_reducible assumption
    | with_reducible first | apply State.keeps_carryLate | apply State.keeps_setEng | apply State.keeps_each
    | with_reducible exact hF.sub rfl
    | refine Keeps.ofFst (by assumption) ?_
    | refine Keeps.ofSnd (by assumption) ?_
    | ((fail_if_no_progress extract_lets +onlyGivenNames x); first
      | (have g : State := x; clear g; refine Keeps.cut x ?_ ?_; (on_goal 2 => (intro _; try clear_value x)); (on_goal 1 => subst x))
      | (have g : _ → State := x; clear g; subst x) | (have g : _ → _ → State := x; clear g; subst x) | (have g : Option _ := x; clear g; subst x) | skip)
    | intro

theorem State.keeps_carryGen {F : Nat} {s t : State} (hF : Within 412858 F) (h : Keeps F s t) (k : Nat) : Keeps F s (t.carryGen k) := by
  unfold State.carryGen
  repeat' first
    | with_reducible assumption
    | with_reducible refine Keeps.ite ?_ ?_
    | with_reducible first | apply State.keeps_writeFault | apply State.keeps_setGen
    | with_reducible exact hF.sub rfl
    | split
    | refine Keeps.ofFst (by assumption) ?_
    | refine Keeps.ofSnd (by assumption) ?_
    | ((fail_if_no_progress extract_lets +onlyGivenNames x); first
      | (have g : State := x; clear g; refine Keeps.cut x ?_ ?_; (on_goal 2 => (intro _; try clear_value x)); (on_goal 1 => subst x))
      | (have g : _ → State := x; clear g; subst x) | (have g : _ → _ → State := x; clear g; subst x) | (have g : Option _ := x; clear g; subst x) | skip)
    | intro

theorem State.keeps_linesChanged {F : Nat} {s t : State} (hF : Within 412858 F) (h : Keeps F s t) : Keeps F s (t.linesChanged) := by
  unfold State.linesChanged
  repeat' first
    | with_reducible assumption
    | with_reducible refine Keeps.ite ?_ ?_
    | with_reducible first | apply State.keeps_carryEngine | apply State.keeps_carryGen | apply State.keeps_each | apply State.keeps_farLate
    | fail_if_no_progress (with_reducible refine Keeps.evm' (hF.sub rfl) ?_ (by with_reducible rfl))
    | with_reducible exact hF.sub rfl
    | split
    | refine Keeps.ofFst (by assumption) ?_
    | refine Keeps.ofSnd (by assumption) ?_
    | ((fail_if_no_progress extract_lets +onlyGivenNames x); first
      | (have g : State := x; clear g; refine Keeps.cut x ?_ ?_; (on_goal 2 => (intro _; try clear_value x)); (on_goal 1 => subst x))
      | (have g : _ → State := x; clear g; subst x) | (have g : _ → _ → State := x; clear g; subst x) | (have g : Option _ := x; clear g; subst x) | skip)
    | intro

theorem State.keeps_cutOver {F : Nat} {s t : State} (hF : Within 425458 F) (h : Keeps F s t) (n : Nat) : Keeps F s (t.cutOver n) := by
  unfold State.cutOver
  repeat' first
    | with_reducible assumption
    | with_reducible refine Keeps.ite ?_ ?_
    | with_reducible first | apply State.keeps_stick | apply State.keeps_setEng | apply State.keeps_setPend | apply State.keeps_topUp | apply State.keeps_fetched | apply State.keeps_cancelStart | apply State.keeps_startFault | apply State.keeps_loadList | apply State.keeps_beginRun
    | with_reducible exact hF.sub rfl
    | split
    | refine Keeps.ofFst (by assumption) ?_
    | refine Keeps.ofSnd (by assumption) ?_
    | ((fail_if_no_progress extract_lets +onlyGivenNames x); first
      | (have g : State := x; clear g; refine Keeps.cut x ?_ ?_; (on_goal 2 => (intro _; try clear_value x)); (on_goal 1 => subst x))
      | (have g : _ → State := x; clear g; subst x) | (have g : _ → _ → State := x; clear g; subst x) | (have g : Option _ := x; clear g; subst x) | skip)
    | intro

theorem State.keeps_listReplaced {F : Nat} {s t : State} (hF : Within 425458 F) (h : Keeps F s t) (n : Nat) (l : List Section) : Keeps F s (t.listReplaced n l) := by
  unfold State.listReplaced
  repeat' first
    | with_reducible assumption
    | with_reducible refine Keeps.ite ?_ ?_
    | with_reducible first | apply State.keeps_cutOver | apply State.keeps_reprime
    | with_reducible exact hF.sub rfl
    | split
    | refine Keeps.ofFst (by assumption) ?_
    | refine Keeps.ofSnd (by assumption) ?_
    | ((fail_if_no_progress extract_lets +onlyGivenNames x); first
      | (have g : State := x; clear g; refine Keeps.cut x ?_ ?_; (on_goal 2 => (intro _; try clear_value x)); (on_goal 1 => subst x))
      | (have g : _ → State := x; clear g; subst x) | (have g : _ → _ → State := x; clear g; subst x) | (have g : Option _ := x; clear g; subst x) | skip)
    | intro

theorem State.keeps_testWithdrawn {F : Nat} {s t : State} (hF : Within 1026 F) (h : Keeps F s t) : Keeps F s t.testWithdrawn := (Keeps.regsFilter (hF.sub rfl) h _).same (Frame.que' (hF.sub rfl) _ _) rfl

theorem State.keeps_amendTables {F : Nat} {s t : State} (hF : Within 17759730 F) (h : Keeps F s t) (g : Bytes) (l : List Section) (recs : List RegRecord) : Keeps F s (t.amendTables g l recs) := by
  unfold State.amendTables
  repeat' first
    | with_reducible assumption
    | with_reducible first | apply State.keeps_writeWhere | apply State.keeps_setBoot | apply State.keeps_applyRecord | apply State.keeps_applyWearLog | apply State.keeps_memTouch | apply State.keeps_each | apply State.keeps_loadReg
    | with_reducible exact hF.sub rfl
    | with_reducible exact id
    | split
    | refine Keeps.ofFst (by assumption) ?_
    | refine Keeps.ofSnd (by assumption) ?_
    | ((fail_if_no_progress extract_lets +onlyGivenNames x); first
      | (have g : State := x; clear g; refine Keeps.cut x ?_ ?_; (on_goal 2 => (intro _; try clear_value x)); (on_goal 1 => subst x))
      | (have g : _ → State := x; clear g; subst x) | (have g : _ → _ → State := x; clear g; subst x) | (have g : Option _ := x; clear g; subst x) | skip)
    | intro

theorem State.keeps_amendTest {F : Nat} {s t : State} (hF : Within 1030 F) (h : Keeps F s t) (test : Bool) : Keeps F s (t.amendTest test) := by
  unfold State.amendTest
  repeat' first
    | with_reducible assumption
    | with_reducible refine Keeps.ite ?_ ?_
    | with_reducible first | apply State.keeps_testWithdrawn
    | fail_if_no_progress (with_reducible refine Keeps.dev' (hF.sub rfl) ?_ (by with_reducible rfl))
    | with_reducible exact hF.sub rfl
    | split
    | refine Keeps.ofFst (by assumption) ?_
    | refine Keeps.ofSnd (by assumption) ?_
    | ((fail_if_no_progress extract_lets +onlyGivenNames x); first
      | (have g : State := x; clear g; refine Keeps.cut x ?_ ?_; (on_goal 2 => (intro _; try clear_value x)); (on_goal 1 => subst x))
      | (have g : _ → State := x; clear g; subst x) | (have g : _ → _ → State := x; clear g; subst x) | (have g : Option _ := x; clear g; subst x) | skip)
    | intro

theorem State.keeps_amendFollow {F : Nat} {s t : State} (hF : Within 425466 F) (h : Keeps F s t) (old : List Nat) (lines : Nat) (l : List Section) : Keeps F s (t.amendFollow old lines l) := by
  unfold State.amendFollow
  repeat' first
    | with_reducible assumption
    | with_reducible refine Keeps.ite ?_ ?_
    | with_reducible first | apply State.keeps_sourceChanged | apply State.keeps_linesChanged | apply State.keeps_listReplaced | apply State.keeps_each
    | with_reducible exact hF.sub rfl
    | split
    | refine Keeps.ofFst (by assumption) ?_
    | refine Keeps.ofSnd (by assumption) ?_
    | ((fail_if_no_progress extract_lets +onlyGivenNames x); first
      | (have g : State := x; clear g; refine Keeps.cut x ?_ ?_; (on_goal 2 => (intro _; try clear_value x)); (on_goal 1 => subst x))
      | (have g : _ → State := x; clear g; subst x) | (have g : _ → _ → State := x; clear g; subst x) | (have g : Option _ := x; clear g; subst x) | skip)
    | intro

theorem State.keeps_amendRecord {F : Nat} {s t : State} (hF : Within 524288 F) (h : Keeps F s t) (g : Bytes) (h' : Header) (l : List Section) (recs : List RegRecord) : Keeps F s (t.amendRecord g h' l recs) := by
  unfold State.amendRecord
  repeat' first
    | with_reducible assumption
    | with_reducible first | apply State.keeps_setBoot
    | with_reducible exact hF.sub rfl
    | with_reducible exact id
    | split
    | refine Keeps.ofFst (by assumption) ?_
    | refine Keeps.ofSnd (by assumption) ?_
    | ((fail_if_no_progress extract_lets +onlyGivenNames x); first
      | (have g : State := x; clear g; refine Keeps.cut x ?_ ?_; (on_goal 2 => (intro _; try clear_value x)); (on_goal 1 => subst x))
      | (have g : _ → State := x; clear g; subst x) | (have g : _ → _ → State := x; clear g; subst x) | (have g : Option _ := x; clear g; subst x) | skip)
    | intro

theorem State.keeps_amendManagement {F : Nat} {s t : State} (hF : Within 524288 F) (h : Keeps F s t) (g : Bytes) (l : List Section) : Keeps F s (t.amendManagement g l) := by
  unfold State.amendManagement
  repeat' first
    | with_reducible assumption
    | with_reducible first | apply State.keeps_applyManagement
    | with_reducible exact hF.sub rfl
    | split
    | refine Keeps.ofFst (by assumption) ?_
    | refine Keeps.ofSnd (by assumption) ?_
    | intro

theorem State.keeps_applyAmendment {F : Nat} {s t : State} (hF : Within 19856894 F) (h : Keeps F s t) : Keeps F s (t.applyAmendment) := by
  unfold State.applyAmendment
  repeat' first
    | with_reducible assumption
    | with_reducible refine Keeps.ite ?_ ?_
    | with_reducible first | apply State.keeps_amendTables | apply State.keeps_amendTest | apply State.keeps_amendFollow | apply State.keeps_amendRecord | apply State.keeps_amendManagement | apply State.keeps_applyArms | apply State.keeps_beginSwitch | apply State.keeps_burnKeys | apply State.keeps_each | apply State.keeps_attachMissed
    | with_reducible exact hF.sub rfl
    | split
    | refine Keeps.ofFst (by assumption) ?_
    | refine Keeps.ofSnd (by assumption) ?_
    | ((fail_if_no_progress extract_lets +onlyGivenNames x); first
      | (have g : State := x; clear g; refine Keeps.cut x ?_ ?_; (on_goal 2 => (intro _; try clear_value x)); (on_goal 1 => subst x))
      | (have g : _ → State := x; clear g; subst x) | (have g : _ → _ → State := x; clear g; subst x) | (have g : Option _ := x; clear g; subst x) | skip)
    | intro

theorem State.keeps_amendBoundary {F : Nat} {s t : State} (hF : Within 19856894 F) (h : Keeps F s t) : Keeps F s (t.amendBoundary) := by
  unfold State.amendBoundary
  repeat' first
    | with_reducible assumption
    | with_reducible refine Keeps.ite ?_ ?_
    | with_reducible first | apply State.keeps_rejectAmend | apply State.keeps_applyAmendment
    | with_reducible exact hF.sub rfl
    | split
    | refine Keeps.ofFst (by assumption) ?_
    | refine Keeps.ofSnd (by assumption) ?_
    | ((fail_if_no_progress extract_lets +onlyGivenNames x); first
      | (have g : State := x; clear g; refine Keeps.cut x ?_ ?_; (on_goal 2 => (intro _; try clear_value x)); (on_goal 1 => subst x))
      | (have g : _ → State := x; clear g; subst x) | (have g : _ → _ → State := x; clear g; subst x) | (have g : Option _ := x; clear g; subst x) | skip)
    | intro

end Sys2Proof.Machine
end

