-- ==== Sys2Proof/Laws/ReleaseOps.lean ====
section
/-!
SUPPORT. The operations of Machine/ReleaseOps.lean: the parts of the state that each may change, and what it keeps.
-/

namespace Sys2Proof.Machine

open Sys2Proof

set_option linter.all false

theorem State.keeps_releaseChannel {F : Nat} {s t : State} (hF : Within 425458 F) (h : Keeps F s t) (n : Nat) : Keeps F s (t.releaseChannel n) := by
  unfold State.releaseChannel
  repeat' first
    | with_reducible assumption
    | with_reducible refine Keeps.ite ?_ ?_
    | with_reducible first | apply State.keeps_enterZeroed | apply State.keeps_setForce | apply State.keeps_resumeEngine
    | with_reducible exact hF.sub rfl
    | split
    | refine Keeps.ofFst (by assumption) ?_
    | refine Keeps.ofSnd (by assumption) ?_
    | ((fail_if_no_progress extract_lets +onlyGivenNames x); first
      | (have g : State := x; clear g; refine Keeps.cut x ?_ ?_; (on_goal 2 => (intro _; try clear_value x)); (on_goal 1 => subst x))
      | (have g : _ → State := x; clear g; subst x) | (have g : _ → _ → State := x; clear g; subst x) | (have g : Option _ := x; clear g; subst x) | skip)
    | intro

theorem State.keeps_makeRelease {F : Nat} {s t : State} (hF : Within 425970 F) (h : Keeps F s t) (sc : Scope) :
    Keeps F s (t.makeRelease sc) := by
  unfold State.makeRelease
  extract_lets keys recs chans tiles v cover left x w z left' y0 y
  have a : Keeps F s v := State.keeps_mapRecords (hF.sub rfl) h _ _
  have b : Keeps F s w := a.same (by constructor <;> intros <;> first | rfl | exact hF.out rfl (by assumption)) rfl
  clear_value w
  have c : Keeps F s z := State.keeps_each (State.keeps_pruneRing (hF.sub rfl) b) _ _ fun n _ g => State.keeps_releaseChannel (hF.sub rfl) g n
  clear_value z
  have d : Keeps F s y := Keeps.ite (State.keeps_tally (hF.sub rfl) c ..) (Keeps.flt' (hF.sub rfl) c rfl)
  exact State.keeps_assertSrc (hF.sub rfl) d ..

theorem State.keeps_release {F : Nat} {s t : State} (hF : Within 425970 F) (h : Keeps F s t) (sc : Scope) : Keeps F s (t.release sc) := by
  unfold State.release
  repeat' first
    | with_reducible assumption
    | with_reducible refine Keeps.ite ?_ ?_
    | with_reducible first | apply State.keeps_mapRecords | apply State.keeps_assertSrc | apply State.keeps_makeRelease
    | fail_if_no_progress (with_reducible refine Keeps.flt' (hF.sub rfl) ?_ (by with_reducible rfl))
    | with_reducible exact hF.sub rfl
    | split
    | refine Keeps.ofFst (by assumption) ?_
    | refine Keeps.ofSnd (by assumption) ?_
    | ((fail_if_no_progress extract_lets +onlyGivenNames x); first
      | (have g : State := x; clear g; refine Keeps.cut x ?_ ?_; (on_goal 2 => (intro _; try clear_value x)); (on_goal 1 => subst x))
      | (have g : _ → State := x; clear g; subst x) | (have g : _ → _ → State := x; clear g; subst x) | (have g : Option _ := x; clear g; subst x) | skip)
    | intro

theorem State.keeps_hourStep {F : Nat} {s t : State} (hF : Within 131072 F) (h : Keeps F s t) : Keeps F s (t.hourStep) := by
  unfold State.hourStep
  repeat' first
    | with_reducible assumption
    | fail_if_no_progress (with_reducible refine Keeps.flt' (hF.sub rfl) ?_ (by with_reducible rfl))
    | intro

theorem State.keeps_releaseHeld {F : Nat} {s t : State} (hF : Within 425970 F) (h : Keeps F s t) (sc : Scope) : Keeps F s (t.releaseHeld sc) := by
  unfold State.releaseHeld
  repeat' first
    | with_reducible assumption
    | with_reducible refine Keeps.ite ?_ ?_
    | with_reducible first | apply State.keeps_makeRelease
    | fail_if_no_progress (with_reducible refine Keeps.flt' (hF.sub rfl) ?_ (by with_reducible rfl))
    | with_reducible exact hF.sub rfl
    | split
    | refine Keeps.ofFst (by assumption) ?_
    | refine Keeps.ofSnd (by assumption) ?_
    | ((fail_if_no_progress extract_lets +onlyGivenNames x); first
      | (have g : State := x; clear g; refine Keeps.cut x ?_ ?_; (on_goal 2 => (intro _; try clear_value x)); (on_goal 1 => subst x))
      | (have g : _ → State := x; clear g; subst x) | (have g : _ → _ → State := x; clear g; subst x) | (have g : Option _ := x; clear g; subst x) | skip)
    | intro

theorem State.keeps_acknowledge {F : Nat} {s t : State} (hF : Within 425970 F) (h : Keeps F s t) (mask : Nat) : Keeps F s (t.acknowledge mask) := by
  unfold State.acknowledge
  repeat' first
    | with_reducible assumption
    | with_reducible refine Keeps.ite ?_ ?_
    | with_reducible first | apply State.keeps_mapRecords | apply State.keeps_each | apply State.keeps_assertSrc | apply State.keeps_releaseHeld
    | with_reducible exact hF.sub rfl
    | split
    | refine Keeps.ofFst (by assumption) ?_
    | refine Keeps.ofSnd (by assumption) ?_
    | ((fail_if_no_progress extract_lets +onlyGivenNames x); first
      | (have g : State := x; clear g; refine Keeps.cut x ?_ ?_; (on_goal 2 => (intro _; try clear_value x)); (on_goal 1 => subst x))
      | (have g : _ → State := x; clear g; subst x) | (have g : _ → _ → State := x; clear g; subst x) | (have g : Option _ := x; clear g; subst x) | skip)
    | intro

end Sys2Proof.Machine
end

