-- ==== Sys2Proof/Laws/RegWrite.lean ====
section
/-!
SUPPORT. The operations of Machine/RegWrite.lean: the parts of the state that each may change, and what it keeps.
-/

namespace Sys2Proof.Machine

open Sys2Proof

set_option linter.all false

theorem State.keeps_refuseRc {F : Nat} {s t : State} (hF : Within 412850 F) (h : Keeps F s t) (m : Nat) (c : Nat) (a : Nat) : Keeps F s (t.refuseRc m c a) := by
  unfold State.refuseRc
  repeat' first
    | with_reducible assumption
    | with_reducible first | apply State.keeps_writeFault | apply State.keeps_stick
    | fail_if_no_progress (with_reducible refine Keeps.evm' (hF.sub rfl) ?_ (by with_reducible rfl))
    | with_reducible exact hF.sub rfl
    | refine Keeps.ofFst (by assumption) ?_
    | refine Keeps.ofSnd (by assumption) ?_
    | ((fail_if_no_progress extract_lets +onlyGivenNames x); first
      | (have g : State := x; clear g; refine Keeps.cut x ?_ ?_; (on_goal 2 => (intro _; try clear_value x)); (on_goal 1 => subst x))
      | (have g : _ → State := x; clear g; subst x) | (have g : _ → _ → State := x; clear g; subst x) | (have g : Option _ := x; clear g; subst x) | skip)
    | intro

theorem State.keeps_unstage {F : Nat} {s t : State} (hF : Within 16 F) (h : Keeps F s t) (c : Nat) : Keeps F s (t.unstage c) := by
  unfold State.unstage
  repeat' first
    | with_reducible assumption
    | fail_if_no_progress (with_reducible refine Keeps.evm' (hF.sub rfl) ?_ (by with_reducible rfl))
    | intro

theorem State.keeps_stageRc {F : Nat} {s t : State} (hF : Within 16 F) (h : Keeps F s t) (r : Reg) (i : Nat) (j : Nat) (v : Word) : Keeps F s (t.stageRc r i j v) := by
  unfold State.stageRc
  repeat' first
    | with_reducible assumption
    | ((fail_if_no_progress extract_lets +onlyGivenNames x); first
      | (have g : State := x; clear g; refine Keeps.cut x ?_ ?_; (on_goal 2 => (intro _; try clear_value x)); (on_goal 1 => subst x))
      | (have g : _ → State := x; clear g; subst x) | (have g : _ → _ → State := x; clear g; subst x) | (have g : Option _ := x; clear g; subst x) | skip)
    | with_reducible refine Keeps.ite ?_ ?_
    | fail_if_no_progress (with_reducible refine Keeps.evm' (hF.sub rfl) ?_ (by with_reducible rfl))
    | split
    | refine Keeps.ofFst (by assumption) ?_
    | refine Keeps.ofSnd (by assumption) ?_
    | intro

theorem State.keeps_commitRc {F : Nat} {s t : State} (hF : Within 412850 F) (h : Keeps F s t) (m : Nat) (c : Nat) (v : Word) : Keeps F s (t.commitRc m c v) := by
  unfold State.commitRc
  repeat' first
    | with_reducible assumption
    | with_reducible refine Keeps.ite ?_ ?_
    | with_reducible first | apply State.keeps_rcKeep | apply State.keeps_wr | apply State.keeps_each | apply State.keeps_refuseRc | apply State.keeps_unstage
    | with_reducible exact hF.sub rfl
    | split
    | refine Keeps.ofFst (by assumption) ?_
    | refine Keeps.ofSnd (by assumption) ?_
    | ((fail_if_no_progress extract_lets +onlyGivenNames x); first
      | (have g : State := x; clear g; refine Keeps.cut x ?_ ?_; (on_goal 2 => (intro _; try clear_value x)); (on_goal 1 => subst x))
      | (have g : _ → State := x; clear g; subst x) | (have g : _ → _ → State := x; clear g; subst x) | (have g : Option _ := x; clear g; subst x) | skip)
    | intro

theorem State.keeps_fireBit {F : Nat} {s t : State} (hF : Within 458234 F) (h : Keeps F s t) (c : Nat) : Keeps F s (t.fireBit c) := by
  unfold State.fireBit
  repeat' first
    | with_reducible assumption
    | with_reducible refine Keeps.ite ?_ ?_
    | with_reducible first | apply State.keeps_fireRc
    | with_reducible exact hF.sub rfl
    | split
    | refine Keeps.ofFst (by assumption) ?_
    | refine Keeps.ofSnd (by assumption) ?_
    | ((fail_if_no_progress extract_lets +onlyGivenNames x); first
      | (have g : State := x; clear g; refine Keeps.cut x ?_ ?_; (on_goal 2 => (intro _; try clear_value x)); (on_goal 1 => subst x))
      | (have g : _ → State := x; clear g; subst x) | (have g : _ → _ → State := x; clear g; subst x) | (have g : Option _ := x; clear g; subst x) | skip)
    | intro

theorem State.keeps_writeRc {F : Nat} {s t : State} (hF : Within 458234 F) (h : Keeps F s t) (m : Nat) (r : Reg) (c : Nat) (j : Nat) (v : Word) (barred : Bool) : Keeps F s (t.writeRc m r c j v barred) := by
  unfold State.writeRc
  repeat' first
    | with_reducible assumption
    | with_reducible refine Keeps.ite ?_ ?_
    | with_reducible first | apply State.keeps_rcKeep | apply State.keeps_wr | apply State.keeps_refuseRc | apply State.keeps_stageRc | apply State.keeps_commitRc | apply State.keeps_fireBit
    | with_reducible exact hF.sub rfl
    | split
    | refine Keeps.ofFst (by assumption) ?_
    | refine Keeps.ofSnd (by assumption) ?_
    | ((fail_if_no_progress extract_lets +onlyGivenNames x); first
      | (have g : State := x; clear g; refine Keeps.cut x ?_ ?_; (on_goal 2 => (intro _; try clear_value x)); (on_goal 1 => subst x))
      | (have g : _ → State := x; clear g; subst x) | (have g : _ → _ → State := x; clear g; subst x) | (have g : Option _ := x; clear g; subst x) | skip)
    | intro

theorem State.keeps_clearInj {F : Nat} {s t : State} (hF : Within 131072 F) (h : Keeps F s t) (j : Nat) : Keeps F s (t.clearInj j) := by
  unfold State.clearInj
  repeat' first
    | with_reducible assumption
    | with_reducible first | apply State.keeps_mapRecords | apply State.keeps_setInj
    | with_reducible exact hF.sub rfl
    | refine Keeps.ofFst (by assumption) ?_
    | refine Keeps.ofSnd (by assumption) ?_
    | ((fail_if_no_progress extract_lets +onlyGivenNames x); first
      | (have g : State := x; clear g; refine Keeps.cut x ?_ ?_; (on_goal 2 => (intro _; try clear_value x)); (on_goal 1 => subst x))
      | (have g : _ → State := x; clear g; subst x) | (have g : _ → _ → State := x; clear g; subst x) | (have g : Option _ := x; clear g; subst x) | skip)
    | intro

theorem State.keeps_sweepBits {F : Nat} {s t : State} (hF : Within 425458 F) (h : Keeps F s t) (n : Nat) (v : Word) (bad : Bool) : Keeps F s (t.sweepBits n v bad) := by
  unfold State.sweepBits
  repeat' first
    | with_reducible assumption
    | with_reducible refine Keeps.ite ?_ ?_
    | with_reducible first | apply State.keeps_stick | apply State.keeps_startEngine | apply State.keeps_primeEngine | apply State.keeps_stopEngine
    | with_reducible exact hF.sub rfl
    | split
    | refine Keeps.ofFst (by assumption) ?_
    | refine Keeps.ofSnd (by assumption) ?_
    | ((fail_if_no_progress extract_lets +onlyGivenNames x); first
      | (have g : State := x; clear g; refine Keeps.cut x ?_ ?_; (on_goal 2 => (intro _; try clear_value x)); (on_goal 1 => subst x))
      | (have g : _ → State := x; clear g; subst x) | (have g : _ → _ → State := x; clear g; subst x) | (have g : Option _ := x; clear g; subst x) | skip)
    | intro

theorem State.keeps_calBits {F : Nat} {s t : State} (hF : Within 19287218 F) (h : Keeps F s t) (m : Nat) (v : Word) : Keeps F s (t.calBits m v) := by
  unfold State.calBits
  repeat' first
    | with_reducible assumption
    | with_reducible refine Keeps.ite ?_ ?_
    | with_reducible first | apply State.keeps_requestBurn | apply State.keeps_addRun | apply State.keeps_writeFault
    | with_reducible exact hF.sub rfl
    | split
    | refine Keeps.ofFst (by assumption) ?_
    | refine Keeps.ofSnd (by assumption) ?_
    | ((fail_if_no_progress extract_lets +onlyGivenNames x); first
      | (have g : State := x; clear g; refine Keeps.cut x ?_ ?_; (on_goal 2 => (intro _; try clear_value x)); (on_goal 1 => subst x))
      | (have g : _ → State := x; clear g; subst x) | (have g : _ → _ → State := x; clear g; subst x) | (have g : Option _ := x; clear g; subst x) | skip)
    | intro

theorem State.keeps_acted {F : Nat} {s t : State} (hF : Within 20971518 F) (h : Keeps F s t) (m : Nat) (r : Reg) (i : Nat) (v : Word) (codes : Option (List Int)) (bad : Bool) : Keeps F s (t.acted m r i v codes bad) := by
  unfold State.acted
  repeat' first
    | with_reducible assumption
    | with_reducible refine Keeps.ite ?_ ?_
    | with_reducible first | apply State.keeps_amendAbort | apply State.keeps_flashCommand | apply State.keeps_commandCouch | apply State.keeps_fireInj | apply State.keeps_writeFault | apply State.keeps_deliverTrigger | apply State.keeps_leaveRetention | apply State.keeps_enterRetention | apply State.keeps_setFelt | apply State.keeps_domainRequest | apply State.keeps_detachChannel | apply State.keeps_clearInj | apply State.keeps_sweepBits | apply State.keeps_calBits | apply State.keeps_acknowledge | apply State.keeps_armGen | apply State.keeps_disarmGen
    | fail_if_no_progress (with_reducible refine Keeps.que' (hF.sub rfl) ?_ (by with_reducible rfl))
    | fail_if_no_progress (with_reducible refine Keeps.flt' (hF.sub rfl) ?_ (by with_reducible rfl))
    | with_reducible exact hF.sub rfl
    | split
    | refine Keeps.ofFst (by assumption) ?_
    | refine Keeps.ofSnd (by assumption) ?_
    | ((fail_if_no_progress extract_lets +onlyGivenNames x); first
      | (have g : State := x; clear g; refine Keeps.cut x ?_ ?_; (on_goal 2 => (intro _; try clear_value x)); (on_goal 1 => subst x))
      | (have g : _ → State := x; clear g; subst x) | (have g : _ → _ → State := x; clear g; subst x) | (have g : Option _ := x; clear g; subst x) | skip)
    | intro

theorem State.keeps_writePlain {F : Nat} {s t : State} (hF : Within 20971518 F) (h : Keeps F s t) (m : Nat) (r : Reg) (i : Nat) (j : Nat) (v : Word) (codes : Option (List Int)) (bad : Bool) : Keeps F s (t.writePlain m r i j v codes bad) := by
  unfold State.writePlain
  repeat' first
    | with_reducible assumption
    | with_reducible refine Keeps.ite ?_ ?_
    | with_reducible first | apply State.keeps_writeFault | apply State.keeps_keepCrossed | apply State.keeps_wr | apply State.keeps_stickIf | apply State.keeps_each | apply State.keeps_changed | apply State.keeps_acted
    | with_reducible exact hF.sub rfl
    | split
    | refine Keeps.ofFst (by assumption) ?_
    | refine Keeps.ofSnd (by assumption) ?_
    | ((fail_if_no_progress extract_lets +onlyGivenNames x); first
      | (have g : State := x; clear g; refine Keeps.cut x ?_ ?_; (on_goal 2 => (intro _; try clear_value x)); (on_goal 1 => subst x))
      | (have g : _ → State := x; clear g; subst x) | (have g : _ → _ → State := x; clear g; subst x) | (have g : Option _ := x; clear g; subst x) | skip)
    | intro

theorem State.keeps_stageLo {F : Nat} {s t : State} (hF : Within 4 F) (h : Keeps F s t) (m : Nat) (r : Reg) (i : Nat) (v : Word) : Keeps F s (t.stageLo m r i v) := by
  unfold State.stageLo
  repeat' first
    | with_reducible assumption
    | ((fail_if_no_progress extract_lets +onlyGivenNames x); first
      | (have g : State := x; clear g; refine Keeps.cut x ?_ ?_; (on_goal 2 => (intro _; try clear_value x)); (on_goal 1 => subst x))
      | (have g : _ → State := x; clear g; subst x) | (have g : _ → _ → State := x; clear g; subst x) | (have g : Option _ := x; clear g; subst x) | skip)
    | fail_if_no_progress (with_reducible refine Keeps.dev' (hF.sub rfl) ?_ (by with_reducible rfl))
    | refine Keeps.ofFst (by assumption) ?_
    | refine Keeps.ofSnd (by assumption) ?_
    | intro

theorem State.keeps_commitPair {F : Nat} {s t : State} (hF : Within 412862 F) (h : Keeps F s t) (m : Nat) (lo : Reg) (hi : Reg) (i : Nat) (v : Word) : Keeps F s (t.commitPair m lo hi i v) := by
  unfold State.commitPair
  repeat' first
    | with_reducible assumption
    | with_reducible refine Keeps.ite ?_ ?_
    | with_reducible first | apply State.keeps_writeFault | apply State.keeps_wr | apply State.keeps_genCommitted
    | fail_if_no_progress (with_reducible refine Keeps.dev' (hF.sub rfl) ?_ (by with_reducible rfl))
    | with_reducible exact hF.sub rfl
    | split
    | refine Keeps.ofFst (by assumption) ?_
    | refine Keeps.ofSnd (by assumption) ?_
    | ((fail_if_no_progress extract_lets +onlyGivenNames x); first
      | (have g : State := x; clear g; refine Keeps.cut x ?_ ?_; (on_goal 2 => (intro _; try clear_value x)); (on_goal 1 => subst x))
      | (have g : _ → State := x; clear g; subst x) | (have g : _ → _ → State := x; clear g; subst x) | (have g : Option _ := x; clear g; subst x) | skip)
    | intro

theorem State.keeps_regWrite {F : Nat} {s t : State} (hF : Within 20971518 F) (h : Keeps F s t) (m : Nat) (r : Reg) (i : Nat) (j : Nat) (v0 : Word) (codes : Option (List Int)) (bad : Bool) : Keeps F s (t.regWrite m r i j v0 codes bad) := by
  unfold State.regWrite
  repeat' first
    | with_reducible assumption
    | with_reducible refine Keeps.ite ?_ ?_
    | with_reducible first | apply State.keeps_writeForce | apply State.keeps_writeRc | apply State.keeps_writePlain | apply State.keeps_stageLo | apply State.keeps_commitPair
    | with_reducible exact hF.sub rfl
    | split
    | refine Keeps.ofFst (by assumption) ?_
    | refine Keeps.ofSnd (by assumption) ?_
    | ((fail_if_no_progress extract_lets +onlyGivenNames x); first
      | (have g : State := x; clear g; refine Keeps.cut x ?_ ?_; (on_goal 2 => (intro _; try clear_value x)); (on_goal 1 => subst x))
      | (have g : _ → State := x; clear g; subst x) | (have g : _ → _ → State := x; clear g; subst x) | (have g : Option _ := x; clear g; subst x) | skip)
    | intro

end Sys2Proof.Machine
end

