-- ==== Sys2Proof/Laws/Bus.lean ====
section
/-!
SUPPORT. The operations of Machine/Bus.lean: the parts of the state that each may change, and what it keeps.
-/

namespace Sys2Proof.Machine

open Sys2Proof

set_option linter.all false

theorem State.keeps_writeMem {F : Nat} {s t : State} (hF : Within 425138 F) (h : Keeps F s t) (m : Nat) (a : Nat) (l : List Byte) : Keeps F s (t.writeMem m a l).st := by
  unfold State.writeMem
  repeat' first
    | with_reducible assumption
    | with_reducible refine Keeps.ite ?_ ?_
    | with_reducible first | apply State.keeps_memWrite | apply State.keeps_memFault | apply State.keeps_memTouch | apply State.keeps_portOrder
    | with_reducible exact hF.sub rfl
    | split
    | intro

theorem State.keeps_writeVat {F : Nat} {s t : State} (hF : Within 412850 F) (h : Keeps F s t) (m a : Nat) (l : List Byte) : Keeps F s (t.writeVat m a l).st := by
  have put : ∀ (l : List (Byte × Nat)) (u : Table Byte), Table.rising u = true →
      Table.rising (l.foldl (fun u e => Table.insert (a - 2 ^ 34 + e.2) e.1 u) u) = true := by
    intro l
    induction l with
    | nil => exact fun _ => id
    | cons e l ih => exact fun u w => ih _ (Table.rising_insert w)
  unfold State.writeVat
  split
  · exact State.keeps_reservedAccess (hF.sub rfl) h ..
  · exact h.step (Frame.vat' (hF.sub rfl) t _) rfl rfl fun c => { c with vat := put _ _ c.vat }

theorem State.keeps_writeAt {F : Nat} {s t : State} (hF : Within 20971518 F) (h : Keeps F s t) (m : Nat) (a : Nat) (v : Word) (codes : Option (List Int)) (bad : Bool) : Keeps F s (t.writeAt m a v codes bad).st := by
  unfold State.writeAt
  repeat' first
    | with_reducible assumption
    | with_reducible refine Keeps.ite ?_ ?_
    | with_reducible first | apply State.keeps_reservedAccess | apply State.keeps_writeMem | apply State.keeps_writeVat | apply State.keeps_regWrite
    | with_reducible exact hF.sub rfl
    | split
    | refine Keeps.ofFst (by assumption) ?_
    | refine Keeps.ofSnd (by assumption) ?_
    | intro

theorem State.passes_access {F : Nat} (hF : Within 8388608 F) (t : State) (m : Nat) (f : State → Done) (g : Passes F t (f t).st) : Passes F t (t.access m f) := by
  unfold State.access
  split
  · exact g.keeps ((Keeps.refl _).same (Frame.resp' (hF.sub rfl) _ _) rfl)
  · exact (State.keeps_answerError (hF.sub rfl) (Keeps.refl _) ..).passes

theorem State.keeps_access {F : Nat} {s t : State} (hF : Within 8388608 F) (h : Keeps F s t) (m : Nat) (f : State → Done) (g : Keeps F s (f t).st) : Keeps F s (t.access m f) := by
  unfold State.access
  split
  · exact g.same (Frame.resp' (hF.sub rfl) _ _) rfl
  · exact State.keeps_answerError (hF.sub rfl) h ..

theorem State.keeps_accessReg {F : Nat} {s t : State} (hF : Within 29360126 F) (h : Keeps F s t) (m : Nat) (r : Reg) (i j : Nat) (v : Word) (codes : Option (List Int)) (bad : Bool) :
    Keeps F s (t.accessReg m r i j v codes bad) := State.keeps_access (hF.sub rfl) h m _ (State.keeps_regWrite (hF.sub rfl) h ..)

theorem State.passes_readWords {F : Nat} (hF : Within 17235455 F) (m : Nat) (bad : Bool) : ∀ (n a : Nat) (t : State), Passes F t (State.readWords m bad n a t).1
  | 0, _, t => (Keeps.refl t).passes
  | n + 1, a, t => (State.passes_readAt (hF.sub rfl) t m a bad).trans (State.passes_readWords (hF.sub rfl) m bad n (a + 4) _)

theorem State.keeps_readBlock {F : Nat} {s t : State} (hF : Within 17202354 F) (h : Keeps F s t) (m : Nat) (a : Nat) (len : Nat) (bad : Bool) : Keeps F s (t.readBlock m a len bad).1 := by
  unfold State.readBlock
  repeat' first
    | with_reducible assumption
    | ((fail_if_no_progress extract_lets +onlyGivenNames x); first
      | (have g : State := x; clear g; refine Keeps.cut x ?_ ?_; (on_goal 2 => (intro _; try clear_value x)); (on_goal 1 => subst x))
      | (have g : _ → State := x; clear g; subst x) | (have g : _ → _ → State := x; clear g; subst x) | (have g : Option _ := x; clear g; subst x) | skip)
    | with_reducible refine Keeps.ite ?_ ?_
    | with_reducible refine Keeps.iteFst ?_ ?_
    | with_reducible first | apply keeps_freeBytes | apply State.keeps_clientUncorrectable | apply State.keeps_memRead | apply State.keeps_memArrive
    | with_reducible exact hF.sub rfl
    | split
    | refine Keeps.ofFst (by assumption) ?_
    | refine Keeps.ofSnd (by assumption) ?_
    | intro

theorem State.passes_webRead {F : Nat} (hF : Within 17235455 F) (t : State) (src tag a len : Nat) (bad : Bool) : Passes F t (t.webRead src tag a len bad) := by
  unfold State.webRead
  have k := State.keeps_served (hF.sub rfl) (Keeps.refl t) src 0x10 tag
  dsimp only
  split
  · exact (Keeps.refl t).passes
  · split
    · exact (State.keeps_respond (hF.sub rfl) (State.keeps_reservedAccess (hF.sub rfl) k ..) ..).passes
    · split
      · exact (State.keeps_respond (hF.sub rfl) k ..).passes
      · refine Passes.keeps ?_ (State.keeps_respond (hF.sub rfl) (Keeps.refl _) ..)
        split
        · exact (State.keeps_readBlock (hF.sub rfl) k ..).passes
        · exact (State.keeps_vatBytes (hF.sub rfl) _ _ k).passes
        · exact (State.keeps_reservedAccess (hF.sub rfl) k ..).passes
        · exact k.passes.trans (State.passes_readWords (hF.sub rfl) ..)

theorem State.keeps_writeWords {F : Nat} {s : State} (hF : Within 20971518 F) (m : Nat) : ∀ (n : Nat) (l : List Byte) (a : Nat) {t : State} (_ : Keeps F s t),
    Keeps F s (State.writeWords m n l a t).1
  | 0, _, _, _, h => h
  | n + 1, l, a, _, h => State.keeps_writeWords (hF.sub rfl) m n (l.drop 4) (a + 4) (State.keeps_writeAt (hF.sub rfl) h m a _ none false)

theorem State.keeps_webWrite {F : Nat} {s t : State} (hF : Within 20971518 F) (h : Keeps F s t) (src : Nat) (tag : Nat) (a : Nat) (l : List Byte) : Keeps F s (t.webWrite src tag a l) := by
  unfold State.webWrite
  repeat' first
    | with_reducible assumption
    | with_reducible refine Keeps.ite ?_ ?_
    | with_reducible first | apply State.keeps_reservedAccess | apply State.keeps_writeMem | apply State.keeps_writeVat | apply State.keeps_writeWords | apply State.keeps_respond | apply State.keeps_served
    | with_reducible exact hF.sub rfl
    | split
    | refine Keeps.ofFst (by assumption) ?_
    | refine Keeps.ofSnd (by assumption) ?_
    | ((fail_if_no_progress extract_lets +onlyGivenNames x); first
      | (have g : State := x; clear g; refine Keeps.cut x ?_ ?_; (on_goal 2 => (intro _; try clear_value x)); (on_goal 1 => subst x))
      | (have g : _ → State := x; clear g; subst x) | (have g : _ → _ → State := x; clear g; subst x) | (have g : Option _ := x; clear g; subst x) | skip)
    | intro

theorem State.keeps_tapLoad {F : Nat} {s t : State} (hF : Within 65536 F) (h : Keeps F s t) (ir : Nat) : Keeps F s (t.tapLoad ir) := by
  unfold State.tapLoad
  repeat' first
    | with_reducible assumption
    | fail_if_no_progress (with_reducible refine Keeps.jtag' (hF.sub rfl) ?_ (by with_reducible rfl))
    | intro

theorem State.keeps_tapCapture {F : Nat} {s t : State} (hF : Within 65536 F) (h : Keeps F s t) (n : Nat) (v : Nat) : Keeps F s (t.tapCapture n v) := by
  unfold State.tapCapture
  repeat' first
    | with_reducible assumption
    | fail_if_no_progress (with_reducible refine Keeps.jtag' (hF.sub rfl) ?_ (by with_reducible rfl))
    | intro

theorem State.keeps_tapDrive {F : Nat} {s t : State} (hF : Within 478386 F) (h : Keeps F s t) (ir : Nat) (scan : Option (Nat × Nat)) : Keeps F s (t.tapDrive ir scan) := by
  unfold State.tapDrive
  repeat' first
    | with_reducible assumption
    | with_reducible refine Keeps.ite ?_ ?_
    | with_reducible first | apply State.keeps_tapLoad | apply State.keeps_tapCapture | apply State.keeps_fault
    | fail_if_no_progress (with_reducible refine Keeps.jtag' (hF.sub rfl) ?_ (by with_reducible rfl))
    | with_reducible exact hF.sub rfl
    | split
    | refine Keeps.ofFst (by assumption) ?_
    | refine Keeps.ofSnd (by assumption) ?_
    | ((fail_if_no_progress extract_lets +onlyGivenNames x); first
      | (have g : State := x; clear g; refine Keeps.cut x ?_ ?_; (on_goal 2 => (intro _; try clear_value x)); (on_goal 1 => subst x))
      | (have g : _ → State := x; clear g; subst x) | (have g : _ → _ → State := x; clear g; subst x) | (have g : Option _ := x; clear g; subst x) | skip)
    | intro

theorem State.keeps_tapAnswer {F : Nat} {s t : State} (hF : Within 65536 F) (h : Keeps F s t) (a : Nat) : Keeps F s (t.tapAnswer a) := by
  unfold State.tapAnswer
  repeat' first
    | with_reducible assumption
    | with_reducible refine Keeps.ite ?_ ?_
    | with_reducible first | apply State.keeps_tapCapture
    | fail_if_no_progress (with_reducible refine Keeps.jtag' (hF.sub rfl) ?_ (by with_reducible rfl))
    | with_reducible exact hF.sub rfl
    | split
    | refine Keeps.ofFst (by assumption) ?_
    | refine Keeps.ofSnd (by assumption) ?_
    | ((fail_if_no_progress extract_lets +onlyGivenNames x); first
      | (have g : State := x; clear g; refine Keeps.cut x ?_ ?_; (on_goal 2 => (intro _; try clear_value x)); (on_goal 1 => subst x))
      | (have g : _ → State := x; clear g; subst x) | (have g : _ → _ → State := x; clear g; subst x) | (have g : Option _ := x; clear g; subst x) | skip)
    | intro

theorem State.keeps_watch {F : Nat} {s t : State} (hF : Within 262258 F) (h : Keeps F s t) (old : State) : Keeps F s (State.watch old t) :=
  State.keeps_each (State.keeps_watchSteps (hF.sub rfl) h) _ _ fun n _ g => State.keeps_autorangeFresh (hF.sub rfl) g n

theorem State.keeps_finish {F : Nat} {s t : State} (hF : Within 458234 F) (h : Keeps F s t) (b : State) : Keeps F s (State.finish b t) := by
  unfold State.finish
  exact Keeps.ite (h.asserted (hF.sub rfl) _) (State.keeps_settle (hF.sub rfl) _ (State.keeps_watch (hF.sub rfl) (State.keeps_settle (hF.sub rfl) _ h) b))

theorem State.passes_go {F : Nat} (hF : Within 458235 F) (t : State) (u : Nat) (body : State → State) (g : ∀ v, Passes F v (body v)) : Passes F t (t.go u body) :=
  ((State.passes_begin (hF.sub rfl) t u).trans (g _)).keeps (State.keeps_finish (hF.sub rfl) (Keeps.refl _) _)

theorem State.passes_act {F : Nat} (hF : Within 458235 F) (t : State) (u : Nat) (body : State → State) (g : ∀ v, Passes F v (body v)) : Passes F t (t.act u body) := by
  unfold State.act
  exact Passes.ite (Keeps.refl t).passes (Passes.ite (State.passes_begin (hF.sub rfl) ..) (State.passes_go (hF.sub rfl) t u body g))

theorem State.passes_actOn {F : Nat} (hF : Within 458235 F) (t : State) (u : Nat) (body : State → State) (g : ∀ v, Passes F v (body v)) : Passes F t (t.actOn u body) := by
  unfold State.actOn
  exact Passes.ite (Keeps.refl t).passes (State.passes_go (hF.sub rfl) t u body g)

/-- Where a command that goes on may lead: the queue stays, time does not go back, no fuse bit is lost and the state stays canonical. -/
structure Leads (F : Nat) (s : State) (o : Out) : Prop where
  passes : ∀ t, o = .next t → Passes F s t

theorem Leads.next {F : Nat} {s t : State} (h : Passes F s t) : Leads F s (.next t) := ⟨fun _ e => Host.Outcome.next.inj e ▸ h⟩

theorem Leads.fault {F : Nat} {s : State} {f : Fault} : Leads F s (.fault f) := ⟨fun _ e => nomatch e⟩

theorem Leads.refused {F : Nat} {s : State} {r : Refusal} : Leads F s (.refused r) := ⟨fun _ e => nomatch e⟩

theorem Leads.outIf {F : Nat} {s t : State} (b : Bool) (h : Passes F s t) : Leads F s (outIf b t) := by
  unfold Machine.outIf
  split
  · exact .next h
  · exact .fault

theorem Leads.ite {F : Nat} {s : State} {c : Prop} {_ : Decidable c} {o p : Out} (h : Leads F s o) (g : Leads F s p) : Leads F s (if c then o else p) := by
  split <;> assumption

end Sys2Proof.Machine
end

