-- ==== Sys2Proof/Laws/Device.lean ====
section
/-!
SUPPORT. The operations of Machine/Device.lean: the parts of the state that each may change, and what it keeps.
-/

namespace Sys2Proof.Machine

open Sys2Proof

set_option linter.all false

theorem State.leads_busWrite {F : Nat} (hF : Within 29360127 F) (s : State) (t m a : Nat) (v : Word) : Leads F s (s.busWrite t m a v) := by
  unfold State.busWrite
  split
  · exact .refused
  · exact .next (State.passes_act (hF.sub rfl) _ _ _ fun u => (State.keeps_access (hF.sub rfl) (Keeps.refl u) _ _ (State.keeps_writeAt (hF.sub rfl) (Keeps.refl u) ..)).passes)

theorem State.leads_busRead {F : Nat} (hF : Within 25624063 F) (s : State) (t m a : Nat) : Leads F s (s.busRead t m a) := by
  unfold State.busRead
  split
  · exact .refused
  · exact .next (State.passes_act (hF.sub rfl) _ _ _ fun u => State.passes_access (hF.sub rfl) u _ _ (State.passes_readAt (hF.sub rfl) ..))

theorem leads_execRegisterWrite {F : Nat} (hF : Within 29360127 F) (t' : Nat) (m : Nat) (a : Nat) (v : Word) (s : State) : Leads F s (execRegisterWrite t' m a v s) := by
  unfold execRegisterWrite
  first
    | exact State.leads_busWrite (hF.sub rfl) ..
    | exact State.leads_busRead (hF.sub rfl) ..
    | exact .ite (State.leads_busWrite (hF.sub rfl) ..) (State.leads_busRead (hF.sub rfl) ..)

theorem leads_execReservedAccess {F : Nat} (hF : Within 29360127 F) (t' : Nat) (m : Nat) (a : Nat) (write : Bool) (v : Word) (s : State) : Leads F s (execReservedAccess t' m a write v s) := by
  unfold execReservedAccess
  first
    | exact State.leads_busWrite (hF.sub rfl) ..
    | exact State.leads_busRead (hF.sub rfl) ..
    | exact .ite (State.leads_busWrite (hF.sub rfl) ..) (State.leads_busRead (hF.sub rfl) ..)

theorem leads_execUnalignedAccess {F : Nat} (hF : Within 29360127 F) (t' : Nat) (m : Nat) (a : Nat) (write : Bool) (v : Word) (s : State) : Leads F s (execUnalignedAccess t' m a write v s) := by
  unfold execUnalignedAccess
  first
    | exact State.leads_busWrite (hF.sub rfl) ..
    | exact State.leads_busRead (hF.sub rfl) ..
    | exact .ite (State.leads_busWrite (hF.sub rfl) ..) (State.leads_busRead (hF.sub rfl) ..)

theorem leads_execVatSramWrite {F : Nat} (hF : Within 29360127 F) (t' : Nat) (m : Nat) (a : Nat) (v : Word) (s : State) : Leads F s (execVatSramWrite t' m a v s) := by
  unfold execVatSramWrite
  first
    | exact State.leads_busWrite (hF.sub rfl) ..
    | exact State.leads_busRead (hF.sub rfl) ..
    | exact .ite (State.leads_busWrite (hF.sub rfl) ..) (State.leads_busRead (hF.sub rfl) ..)

theorem leads_execLoRead {F : Nat} (hF : Within 25624063 F) (t' : Nat) (m : Nat) (a : Nat) (s : State) : Leads F s (execLoRead t' m a s) := by
  unfold execLoRead
  first
    | exact State.leads_busWrite (hF.sub rfl) ..
    | exact State.leads_busRead (hF.sub rfl) ..
    | exact .ite (State.leads_busWrite (hF.sub rfl) ..) (State.leads_busRead (hF.sub rfl) ..)

theorem leads_execHiRead {F : Nat} (hF : Within 25624063 F) (t' : Nat) (m : Nat) (a : Nat) (s : State) : Leads F s (execHiRead t' m a s) := by
  unfold execHiRead
  first
    | exact State.leads_busWrite (hF.sub rfl) ..
    | exact State.leads_busRead (hF.sub rfl) ..
    | exact .ite (State.leads_busWrite (hF.sub rfl) ..) (State.leads_busRead (hF.sub rfl) ..)

theorem leads_execLoWriteStage {F : Nat} (hF : Within 29360127 F) (t' : Nat) (m : Nat) (a : Nat) (v : Word) (s : State) : Leads F s (execLoWriteStage t' m a v s) := by
  unfold execLoWriteStage
  first
    | exact State.leads_busWrite (hF.sub rfl) ..
    | exact State.leads_busRead (hF.sub rfl) ..
    | exact .ite (State.leads_busWrite (hF.sub rfl) ..) (State.leads_busRead (hF.sub rfl) ..)

theorem leads_execHiWriteCommit {F : Nat} (hF : Within 29360127 F) (t' : Nat) (m : Nat) (a : Nat) (v : Word) (s : State) : Leads F s (execHiWriteCommit t' m a v s) := by
  unfold execHiWriteCommit
  first
    | exact State.leads_busWrite (hF.sub rfl) ..
    | exact State.leads_busRead (hF.sub rfl) ..
    | exact .ite (State.leads_busWrite (hF.sub rfl) ..) (State.leads_busRead (hF.sub rfl) ..)

theorem leads_execReadClear {F : Nat} (hF : Within 25624063 F) (t' : Nat) (m : Nat) (a : Nat) (s : State) : Leads F s (execReadClear t' m a s) := by
  unfold execReadClear
  first
    | exact State.leads_busWrite (hF.sub rfl) ..
    | exact State.leads_busRead (hF.sub rfl) ..
    | exact .ite (State.leads_busWrite (hF.sub rfl) ..) (State.leads_busRead (hF.sub rfl) ..)

end Sys2Proof.Machine
end

