-- ==== Sys2Proof/Laws/Timebase.lean ====
section
/-!
SUPPORT. The operations of Machine/Timebase.lean: the parts of the state that each may change, and what it keeps.
-/

namespace Sys2Proof.Machine

open Sys2Proof

set_option linter.all false

theorem leads_execLineRefEdge {F : Nat} (hF : Within 17235451 F) (t' : Nat) (s : State) : Leads F s (execLineRefEdge t' s) := by
  unfold execLineRefEdge
  repeat' first
    | with_reducible refine Leads.next ?_
    | with_reducible refine State.passes_actOn (hF.sub rfl) _ _ _ fun v => ?_
    | with_reducible refine Keeps.passes ?_
    | with_reducible exact Keeps.refl _
    | with_reducible assumption
    | with_reducible first | apply State.keeps_lineEdge
    | with_reducible exact hF.sub rfl
    | intro

theorem leads_execFrameStartMark {F : Nat} (hF : Within 458235 F) (t' : Nat) (active : Bool) (s : State) : Leads F s (execFrameStartMark t' active s) := by
  unfold execFrameStartMark
  repeat' first
    | with_reducible refine Leads.next ?_
    | with_reducible refine State.passes_actOn (hF.sub rfl) _ _ _ fun v => ?_
    | with_reducible refine Keeps.passes ?_
    | with_reducible exact Keeps.refl _
    | with_reducible assumption
    | with_reducible first | apply State.keeps_frameSample
    | with_reducible exact hF.sub rfl
    | intro

theorem leads_execEdgeMissing {F : Nat} (hF : Within 458235 F) (t' : Nat) (src : EdgeSrc) (s : State) : Leads F s (execEdgeMissing t' src s) := by
  unfold execEdgeMissing
  repeat' first
    | with_reducible refine .outIf _ ?_
    | with_reducible refine State.passes_actOn (hF.sub rfl) _ _ _ fun v => ?_
    | with_reducible refine Keeps.passes ?_
    | with_reducible exact Keeps.refl _
    | with_reducible assumption
    | with_reducible first | apply State.keeps_lineMissing | apply State.keeps_beatMissing
    | with_reducible exact hF.sub rfl
    | split
    | intro

theorem State.keeps_pixLost {F : Nat} {s t : State} (hF : Within 10 F) (h : Keeps F s t) : Keeps F s (t.pixLost) := by
  unfold State.pixLost
  repeat' first
    | with_reducible assumption
    | with_reducible first | apply State.keeps_stickIf | apply State.keeps_setTb
    | with_reducible exact hF.sub rfl
    | with_reducible exact id
    | intro

theorem leads_execPixclkLost {F : Nat} (hF : Within 458235 F) (t' : Nat) (s : State) : Leads F s (execPixclkLost t' s) := by
  unfold execPixclkLost
  repeat' first
    | with_reducible refine Leads.next ?_
    | with_reducible refine State.passes_actOn (hF.sub rfl) _ _ _ fun v => ?_
    | with_reducible refine Keeps.passes ?_
    | with_reducible exact Keeps.refl _
    | with_reducible assumption
    | with_reducible first | apply State.keeps_pixLost
    | with_reducible exact hF.sub rfl
    | intro

theorem State.keeps_pixGood {F : Nat} {s t : State} (hF : Within 131082 F) (h : Keeps F s t) (err : Int) (pix : Nat) : Keeps F s (t.pixGood err pix) := by
  unfold State.pixGood
  repeat' first
    | with_reducible assumption
    | with_reducible refine Keeps.ite ?_ ?_
    | with_reducible first | apply State.keeps_setTb | apply State.keeps_resolve
    | with_reducible exact hF.sub rfl
    | with_reducible exact id
    | split
    | refine Keeps.ofFst (by assumption) ?_
    | refine Keeps.ofSnd (by assumption) ?_
    | ((fail_if_no_progress extract_lets +onlyGivenNames x); first
      | (have g : State := x; clear g; refine Keeps.cut x ?_ ?_; (on_goal 2 => (intro _; try clear_value x)); (on_goal 1 => subst x))
      | (have g : _ → State := x; clear g; subst x) | (have g : _ → _ → State := x; clear g; subst x) | (have g : Option _ := x; clear g; subst x) | skip)
    | intro

theorem leads_execPixclkQualified {F : Nat} (hF : Within 458235 F) (t' : Nat) (err : Int) (pix : Nat) (s : State) : Leads F s (execPixclkQualified t' err pix s) := by
  unfold execPixclkQualified
  repeat' first
    | with_reducible refine Leads.next ?_
    | with_reducible refine State.passes_actOn (hF.sub rfl) _ _ _ fun v => ?_
    | with_reducible refine Keeps.passes ?_
    | with_reducible exact Keeps.refl _
    | with_reducible assumption
    | with_reducible first | apply State.keeps_pixGood
    | with_reducible exact hF.sub rfl
    | intro

theorem leads_execRasterBeat {F : Nat} (hF : Within 17235451 F) (t' : Nat) (p : Nat) (root : Nat) (rank : Nat) (hold : Bool) (frame : Nat) (line : Nat) (frac : Nat) (s : State) : Leads F s (execRasterBeat t' p root rank hold frame line frac s) := by
  unfold execRasterBeat
  repeat' first
    | with_reducible refine .outIf _ ?_
    | with_reducible refine State.passes_act (hF.sub rfl) _ _ _ fun v => ?_
    | with_reducible refine Keeps.passes ?_
    | with_reducible exact Keeps.refl _
    | with_reducible assumption
    | with_reducible first | apply State.keeps_receiveBeat
    | with_reducible exact hF.sub rfl
    | intro

theorem State.keeps_sendBeat {F : Nat} {s t : State} (hF : Within 32776 F) (h : Keeps F s t) (p : Nat) : Keeps F s (t.sendBeat p) := by
  unfold State.sendBeat
  repeat' first
    | with_reducible assumption
    | with_reducible refine Keeps.ite ?_ ?_
    | with_reducible first | apply State.keeps_setTb | apply State.keeps_sendOn
    | with_reducible exact hF.sub rfl
    | with_reducible exact id
    | split
    | refine Keeps.ofFst (by assumption) ?_
    | refine Keeps.ofSnd (by assumption) ?_
    | ((fail_if_no_progress extract_lets +onlyGivenNames x); first
      | (have g : State := x; clear g; refine Keeps.cut x ?_ ?_; (on_goal 2 => (intro _; try clear_value x)); (on_goal 1 => subst x))
      | (have g : _ → State := x; clear g; subst x) | (have g : _ → _ → State := x; clear g; subst x) | (have g : Option _ := x; clear g; subst x) | skip)
    | intro

theorem leads_execBeatSend {F : Nat} (hF : Within 458235 F) (t' : Nat) (p : Nat) (s : State) : Leads F s (execBeatSend t' p s) := by
  unfold execBeatSend
  repeat' first
    | with_reducible refine .outIf _ ?_
    | with_reducible refine State.passes_act (hF.sub rfl) _ _ _ fun v => ?_
    | with_reducible refine Keeps.passes ?_
    | with_reducible exact Keeps.refl _
    | with_reducible assumption
    | with_reducible first | apply State.keeps_sendBeat
    | with_reducible exact hF.sub rfl
    | intro

theorem State.keeps_askDelay {F : Nat} {s t : State} (hF : Within 32776 F) (h : Keeps F s t) (p : Nat) (t1 : Int) : Keeps F s (t.askDelay p t1) := by
  unfold State.askDelay
  repeat' first
    | with_reducible assumption
    | with_reducible refine Keeps.ite ?_ ?_
    | with_reducible first | apply State.keeps_setBeatPort | apply State.keeps_sendOn
    | with_reducible exact hF.sub rfl
    | split
    | refine Keeps.ofFst (by assumption) ?_
    | refine Keeps.ofSnd (by assumption) ?_
    | ((fail_if_no_progress extract_lets +onlyGivenNames x); first
      | (have g : State := x; clear g; refine Keeps.cut x ?_ ?_; (on_goal 2 => (intro _; try clear_value x)); (on_goal 1 => subst x))
      | (have g : _ → State := x; clear g; subst x) | (have g : _ → _ → State := x; clear g; subst x) | (have g : Option _ := x; clear g; subst x) | skip)
    | intro

theorem leads_execDelayReqSend {F : Nat} (hF : Within 458235 F) (t' : Nat) (p : Nat) (t1 : Int) (s : State) : Leads F s (execDelayReqSend t' p t1 s) := by
  unfold execDelayReqSend
  repeat' first
    | with_reducible refine .outIf _ ?_
    | with_reducible refine State.passes_act (hF.sub rfl) _ _ _ fun v => ?_
    | with_reducible refine Keeps.passes ?_
    | with_reducible exact Keeps.refl _
    | with_reducible assumption
    | with_reducible first | apply State.keeps_askDelay
    | with_reducible exact hF.sub rfl
    | intro

theorem leads_execDelayReq {F : Nat} (hF : Within 458235 F) (t' : Nat) (p : Nat) (tag : Nat) (t2 : Int) (t3 : Int) (s : State) : Leads F s (execDelayReq t' p tag t2 t3 s) := by
  unfold execDelayReq
  repeat' first
    | with_reducible refine .outIf _ ?_
    | with_reducible refine State.passes_act (hF.sub rfl) _ _ _ fun v => ?_
    | with_reducible refine Keeps.passes ?_
    | with_reducible exact Keeps.refl _
    | with_reducible assumption
    | with_reducible first | apply State.keeps_sendOn
    | with_reducible exact hF.sub rfl
    | intro

theorem State.keeps_delayAnswer {F : Nat} {s t : State} (hF : Within 10 F) (h : Keeps F s t) (p : Nat) (tag : Nat) (dt : Nat) (t4 : Int) : Keeps F s (t.delayAnswer p tag dt t4) := by
  unfold State.delayAnswer
  repeat' first
    | with_reducible assumption
    | with_reducible refine Keeps.ite ?_ ?_
    | with_reducible first | apply State.keeps_setBeatPort | apply State.keeps_delayExchange
    | with_reducible exact hF.sub rfl
    | split
    | refine Keeps.ofFst (by assumption) ?_
    | refine Keeps.ofSnd (by assumption) ?_
    | ((fail_if_no_progress extract_lets +onlyGivenNames x); first
      | (have g : State := x; clear g; refine Keeps.cut x ?_ ?_; (on_goal 2 => (intro _; try clear_value x)); (on_goal 1 => subst x))
      | (have g : _ → State := x; clear g; subst x) | (have g : _ → _ → State := x; clear g; subst x) | (have g : Option _ := x; clear g; subst x) | skip)
    | intro

theorem leads_execDelayRsp {F : Nat} (hF : Within 458235 F) (t' : Nat) (p : Nat) (tag : Nat) (dt : Int) (t4 : Int) (s : State) : Leads F s (execDelayRsp t' p tag dt t4 s) := by
  unfold execDelayRsp
  repeat' first
    | with_reducible refine .outIf _ ?_
    | with_reducible refine State.passes_act (hF.sub rfl) _ _ _ fun v => ?_
    | with_reducible refine Keeps.passes ?_
    | with_reducible exact Keeps.refl _
    | with_reducible assumption
    | with_reducible first | apply State.keeps_delayAnswer
    | with_reducible exact hF.sub rfl
    | intro

theorem leads_execAnchorFire {F : Nat} (hF : Within 458235 F) (t' : Nat) (k : Nat) (s : State) : Leads F s (execAnchorFire t' k s) := by
  unfold execAnchorFire
  repeat' first
    | with_reducible refine .outIf _ ?_
    | with_reducible refine Leads.ite ?_ ?_
    | with_reducible refine State.passes_actOn (hF.sub rfl) _ _ _ fun v => ?_
    | with_reducible refine Keeps.passes ?_
    | with_reducible exact Keeps.refl _
    | with_reducible assumption
    | with_reducible refine Keeps.ite ?_ ?_
    | with_reducible first | apply State.keeps_fireGen
    | with_reducible exact hF.sub rfl
    | split
    | intro

theorem leads_execArm {F : Nat} (hF : Within 29360127 F) (t' : Nat) (m : Nat) (k : Nat) (v : Word) (s : State) : Leads F s (execArm t' m k v s) := by
  unfold execArm
  repeat' first
    | with_reducible refine .outIf _ ?_
    | with_reducible refine State.passes_act (hF.sub rfl) _ _ _ fun v => ?_
    | with_reducible refine Keeps.passes ?_
    | with_reducible exact Keeps.refl _
    | with_reducible assumption
    | with_reducible first | apply State.keeps_accessReg
    | with_reducible exact hF.sub rfl
    | intro

theorem leads_execDisarm {F : Nat} (hF : Within 29360127 F) (t' : Nat) (m : Nat) (k : Nat) (v : Word) (s : State) : Leads F s (execDisarm t' m k v s) := by
  unfold execDisarm
  repeat' first
    | with_reducible refine .outIf _ ?_
    | with_reducible refine State.passes_act (hF.sub rfl) _ _ _ fun v => ?_
    | with_reducible refine Keeps.passes ?_
    | with_reducible exact Keeps.refl _
    | with_reducible assumption
    | with_reducible first | apply State.keeps_accessReg
    | with_reducible exact hF.sub rfl
    | intro

end Sys2Proof.Machine
end

