-- ==== Sys2Proof/Laws/Forcing.lean ====
section
/-!
SUPPORT. The operations of Machine/Forcing.lean: the parts of the state that each may change, and what it keeps.
-/

namespace Sys2Proof.Machine

open Sys2Proof

set_option linter.all false

theorem State.keeps_dacFrame {F : Nat} {s t : State} (hF : Within 425458 F) (h : Keeps F s t) (n : Nat) (meas : Int) : Keeps F s (t.dacFrame n meas) := by
  unfold State.dacFrame
  repeat' first
    | with_reducible assumption
    | with_reducible refine Keeps.ite ?_ ?_
    | with_reducible first | apply State.keeps_dacBoundary | apply State.keeps_sweepBoundary
    | with_reducible exact hF.sub rfl
    | split
    | refine Keeps.ofFst (by assumption) ?_
    | refine Keeps.ofSnd (by assumption) ?_
    | ((fail_if_no_progress extract_lets +onlyGivenNames x); first
      | (have g : State := x; clear g; refine Keeps.cut x ?_ ?_; (on_goal 2 => (intro _; try clear_value x)); (on_goal 1 => subst x))
      | (have g : _ → State := x; clear g; subst x) | (have g : _ → _ → State := x; clear g; subst x) | (have g : Option _ := x; clear g; subst x) | skip)
    | intro

theorem leads_execDacFrameBoundary {F : Nat} (hF : Within 458235 F) (t' : Nat) (n : Nat) (meas : Int) (s : State) : Leads F s (execDacFrameBoundary t' n meas s) := by
  unfold execDacFrameBoundary
  repeat' first
    | with_reducible refine .outIf _ ?_
    | with_reducible refine State.passes_act (hF.sub rfl) _ _ _ fun v => ?_
    | with_reducible refine Keeps.passes ?_
    | with_reducible exact Keeps.refl _
    | with_reducible assumption
    | with_reducible first | apply State.keeps_dacFrame
    | with_reducible exact hF.sub rfl
    | intro

theorem leads_execForceCommand {F : Nat} (hF : Within 29360127 F) (t' : Nat) (m : Nat) (n : Nat) (v : Word) (s : State) : Leads F s (execForceCommand t' m n v s) := by
  unfold execForceCommand
  repeat' first
    | with_reducible refine .outIf _ ?_
    | with_reducible refine State.passes_act (hF.sub rfl) _ _ _ fun v => ?_
    | with_reducible refine Keeps.passes ?_
    | with_reducible exact Keeps.refl _
    | with_reducible assumption
    | with_reducible first | apply State.keeps_accessReg
    | with_reducible exact hF.sub rfl
    | intro

theorem State.keeps_zeroCounts {F : Nat} {s t : State} (hF : Within 64 F) (h : Keeps F s t) (n : Nat) : Keeps F s (t.zeroCounts n) := by
  unfold State.zeroCounts
  repeat' first
    | with_reducible assumption
    | with_reducible first | apply State.keeps_setSeq
    | with_reducible exact hF.sub rfl
    | intro

theorem State.keeps_takePending {F : Nat} {s t : State} (hF : Within 34 F) (h : Keeps F s t) (n : Nat) : Keeps F s (t.takePending n) := by
  unfold State.takePending
  repeat' first
    | with_reducible assumption
    | with_reducible first | apply State.keeps_applyForce | apply State.keeps_setForce
    | with_reducible exact hF.sub rfl
    | split
    | refine Keeps.ofFst (by assumption) ?_
    | refine Keeps.ofSnd (by assumption) ?_
    | ((fail_if_no_progress extract_lets +onlyGivenNames x); first
      | (have g : State := x; clear g; refine Keeps.cut x ?_ ?_; (on_goal 2 => (intro _; try clear_value x)); (on_goal 1 => subst x))
      | (have g : _ → State := x; clear g; subst x) | (have g : _ → _ → State := x; clear g; subst x) | (have g : Option _ := x; clear g; subst x) | skip)
    | intro

theorem State.keeps_endRange {F : Nat} {s t : State} (hF : Within 425458 F) (h : Keeps F s t) (n : Nat) : Keeps F s (t.endRange n) := by
  unfold State.endRange
  repeat' first
    | with_reducible assumption
    | with_reducible refine Keeps.ite ?_ ?_
    | with_reducible first | apply State.keeps_recovered | apply State.keeps_stick | apply State.keeps_enterZeroed | apply State.keeps_afterChange | apply State.keeps_zeroCounts | apply State.keeps_takePending | apply State.keeps_setForce | apply State.keeps_autorangeCheck | apply State.keeps_resumeEngine
    | with_reducible exact hF.sub rfl
    | split
    | refine Keeps.ofFst (by assumption) ?_
    | refine Keeps.ofSnd (by assumption) ?_
    | ((fail_if_no_progress extract_lets +onlyGivenNames x); first
      | (have g : State := x; clear g; refine Keeps.cut x ?_ ?_; (on_goal 2 => (intro _; try clear_value x)); (on_goal 1 => subst x))
      | (have g : _ → State := x; clear g; subst x) | (have g : _ → _ → State := x; clear g; subst x) | (have g : Option _ := x; clear g; subst x) | skip)
    | intro

theorem leads_execRangeChangeComplete {F : Nat} (hF : Within 458235 F) (t' : Nat) (n : Nat) (s : State) : Leads F s (execRangeChangeComplete t' n s) := by
  unfold execRangeChangeComplete
  repeat' first
    | with_reducible refine .outIf _ ?_
    | with_reducible refine State.passes_act (hF.sub rfl) _ _ _ fun v => ?_
    | with_reducible refine Keeps.passes ?_
    | with_reducible exact Keeps.refl _
    | with_reducible assumption
    | with_reducible first | apply State.keeps_endRange
    | with_reducible exact hF.sub rfl
    | intro

theorem State.keeps_endHold {F : Nat} {s t : State} (hF : Within 425458 F) (h : Keeps F s t) (n : Nat) : Keeps F s (t.endHold n) := by
  unfold State.endHold
  repeat' first
    | with_reducible assumption
    | with_reducible refine Keeps.ite ?_ ?_
    | with_reducible first | apply State.keeps_stick | apply State.keeps_dacFrame | apply State.keeps_setForce
    | with_reducible exact hF.sub rfl
    | split
    | refine Keeps.ofFst (by assumption) ?_
    | refine Keeps.ofSnd (by assumption) ?_
    | ((fail_if_no_progress extract_lets +onlyGivenNames x); first
      | (have g : State := x; clear g; refine Keeps.cut x ?_ ?_; (on_goal 2 => (intro _; try clear_value x)); (on_goal 1 => subst x))
      | (have g : _ → State := x; clear g; subst x) | (have g : _ → _ → State := x; clear g; subst x) | (have g : Option _ := x; clear g; subst x) | skip)
    | intro

theorem leads_execSpanHoldEnd {F : Nat} (hF : Within 458235 F) (t' : Nat) (n : Nat) (s : State) : Leads F s (execSpanHoldEnd t' n s) := by
  unfold execSpanHoldEnd
  repeat' first
    | with_reducible refine .outIf _ ?_
    | with_reducible refine State.passes_act (hF.sub rfl) _ _ _ fun v => ?_
    | with_reducible refine Keeps.passes ?_
    | with_reducible exact Keeps.refl _
    | with_reducible assumption
    | with_reducible first | apply State.keeps_endHold
    | with_reducible exact hF.sub rfl
    | intro

theorem State.keeps_attachDue {F : Nat} {s t : State} (hF : Within 393650 F) (h : Keeps F s t) (n : Nat) : Keeps F s (t.attachDue n) := by
  unfold State.attachDue
  repeat' first
    | with_reducible assumption
    | with_reducible refine Keeps.ite ?_ ?_
    | with_reducible first | apply State.keeps_attach
    | with_reducible exact hF.sub rfl
    | split
    | intro

theorem leads_execAttachment {F : Nat} (hF : Within 458235 F) (t' : Nat) (n : Nat) (s : State) : Leads F s (execAttachment t' n s) := by
  unfold execAttachment
  repeat' first
    | with_reducible refine .outIf _ ?_
    | with_reducible refine State.passes_act (hF.sub rfl) _ _ _ fun v => ?_
    | with_reducible refine Keeps.passes ?_
    | with_reducible exact Keeps.refl _
    | with_reducible assumption
    | with_reducible first | apply State.keeps_attachDue
    | with_reducible exact hF.sub rfl
    | intro

theorem leads_execEnableClear {F : Nat} (hF : Within 29360127 F) (t' : Nat) (m : Nat) (n : Nat) (v : Word) (codes : List Int) (s : State) : Leads F s (execEnableClear t' m n v codes s) := by
  unfold execEnableClear
  repeat' first
    | with_reducible refine .outIf _ ?_
    | with_reducible refine State.passes_act (hF.sub rfl) _ _ _ fun v => ?_
    | with_reducible refine Keeps.passes ?_
    | with_reducible exact Keeps.refl _
    | with_reducible assumption
    | with_reducible first | apply State.keeps_accessReg
    | with_reducible exact hF.sub rfl
    | intro

theorem leads_execDetach {F : Nat} (hF : Within 29360127 F) (t' : Nat) (m : Nat) (n : Nat) (v : Word) (codes : List Int) (s : State) : Leads F s (execDetach t' m n v codes s) := by
  unfold execDetach
  repeat' first
    | with_reducible refine .outIf _ ?_
    | with_reducible refine State.passes_act (hF.sub rfl) _ _ _ fun v => ?_
    | with_reducible refine Keeps.passes ?_
    | with_reducible exact Keeps.refl _
    | with_reducible assumption
    | with_reducible first | apply State.keeps_accessReg
    | with_reducible exact hF.sub rfl
    | intro

theorem State.keeps_clampOn {F : Nat} {s t : State} (hF : Within 178 F) (h : Keeps F s t) (n : Nat) : Keeps F s (t.clampOn n) := by
  unfold State.clampOn
  repeat' first
    | with_reducible assumption
    | with_reducible refine Keeps.ite ?_ ?_
    | with_reducible first | apply State.keeps_stick | apply State.keeps_tally | apply State.keeps_setForce | apply State.keeps_assertSrc | apply State.keeps_latchHit
    | with_reducible exact hF.sub rfl
    | split
    | refine Keeps.ofFst (by assumption) ?_
    | refine Keeps.ofSnd (by assumption) ?_
    | ((fail_if_no_progress extract_lets +onlyGivenNames x); first
      | (have g : State := x; clear g; refine Keeps.cut x ?_ ?_; (on_goal 2 => (intro _; try clear_value x)); (on_goal 1 => subst x))
      | (have g : _ → State := x; clear g; subst x) | (have g : _ → _ → State := x; clear g; subst x) | (have g : Option _ := x; clear g; subst x) | skip)
    | intro

theorem leads_execDeckleHit {F : Nat} (hF : Within 458235 F) (t' : Nat) (n : Nat) (s : State) : Leads F s (execDeckleHit t' n s) := by
  unfold execDeckleHit
  repeat' first
    | with_reducible refine .outIf _ ?_
    | with_reducible refine State.passes_act (hF.sub rfl) _ _ _ fun v => ?_
    | with_reducible refine Keeps.passes ?_
    | with_reducible exact Keeps.refl _
    | with_reducible assumption
    | with_reducible first | apply State.keeps_clampOn
    | with_reducible exact hF.sub rfl
    | intro

theorem State.keeps_clampOff {F : Nat} {s t : State} (hF : Within 34 F) (h : Keeps F s t) (n : Nat) (meas : Int) : Keeps F s (t.clampOff n meas) := by
  unfold State.clampOff
  repeat' first
    | with_reducible assumption
    | with_reducible refine Keeps.ite ?_ ?_
    | with_reducible first | apply State.keeps_stick | apply State.keeps_setForce
    | with_reducible exact hF.sub rfl
    | split
    | refine Keeps.ofFst (by assumption) ?_
    | refine Keeps.ofSnd (by assumption) ?_
    | ((fail_if_no_progress extract_lets +onlyGivenNames x); first
      | (have g : State := x; clear g; refine Keeps.cut x ?_ ?_; (on_goal 2 => (intro _; try clear_value x)); (on_goal 1 => subst x))
      | (have g : _ → State := x; clear g; subst x) | (have g : _ → _ → State := x; clear g; subst x) | (have g : Option _ := x; clear g; subst x) | skip)
    | intro

theorem leads_execClampRelease {F : Nat} (hF : Within 458235 F) (t' : Nat) (n : Nat) (meas : Int) (s : State) : Leads F s (execClampRelease t' n meas s) := by
  unfold execClampRelease
  repeat' first
    | with_reducible refine .outIf _ ?_
    | with_reducible refine State.passes_act (hF.sub rfl) _ _ _ fun v => ?_
    | with_reducible refine Keeps.passes ?_
    | with_reducible exact Keeps.refl _
    | with_reducible assumption
    | with_reducible first | apply State.keeps_clampOff
    | with_reducible exact hF.sub rfl
    | intro

theorem State.keeps_shortOn {F : Nat} {s t : State} (hF : Within 412850 F) (h : Keeps F s t) (n : Nat) : Keeps F s (t.shortOn n) := by
  unfold State.shortOn
  repeat' first
    | with_reducible assumption
    | with_reducible refine Keeps.ite ?_ ?_
    | with_reducible first | apply State.keeps_fault | apply State.keeps_stick | apply State.keeps_setForce | apply State.keeps_assertSrc
    | with_reducible exact hF.sub rfl
    | split
    | refine Keeps.ofFst (by assumption) ?_
    | refine Keeps.ofSnd (by assumption) ?_
    | ((fail_if_no_progress extract_lets +onlyGivenNames x); first
      | (have g : State := x; clear g; refine Keeps.cut x ?_ ?_; (on_goal 2 => (intro _; try clear_value x)); (on_goal 1 => subst x))
      | (have g : _ → State := x; clear g; subst x) | (have g : _ → _ → State := x; clear g; subst x) | (have g : Option _ := x; clear g; subst x) | skip)
    | intro

theorem leads_execShort {F : Nat} (hF : Within 458235 F) (t' : Nat) (n : Nat) (s : State) : Leads F s (execShort t' n s) := by
  unfold execShort
  repeat' first
    | with_reducible refine .outIf _ ?_
    | with_reducible refine State.passes_act (hF.sub rfl) _ _ _ fun v => ?_
    | with_reducible refine Keeps.passes ?_
    | with_reducible exact Keeps.refl _
    | with_reducible assumption
    | with_reducible first | apply State.keeps_shortOn
    | with_reducible exact hF.sub rfl
    | intro

theorem State.keeps_shortOff {F : Nat} {s t : State} (hF : Within 131104 F) (h : Keeps F s t) (n : Nat) : Keeps F s (t.shortOff n) := by
  unfold State.shortOff
  repeat' first
    | with_reducible assumption
    | with_reducible refine Keeps.ite ?_ ?_
    | with_reducible first | apply State.keeps_clearCondition | apply State.keeps_setForce
    | with_reducible exact hF.sub rfl
    | split
    | refine Keeps.ofFst (by assumption) ?_
    | refine Keeps.ofSnd (by assumption) ?_
    | ((fail_if_no_progress extract_lets +onlyGivenNames x); first
      | (have g : State := x; clear g; refine Keeps.cut x ?_ ?_; (on_goal 2 => (intro _; try clear_value x)); (on_goal 1 => subst x))
      | (have g : _ → State := x; clear g; subst x) | (have g : _ → _ → State := x; clear g; subst x) | (have g : Option _ := x; clear g; subst x) | skip)
    | intro

theorem leads_execShortClear {F : Nat} (hF : Within 458235 F) (t' : Nat) (n : Nat) (s : State) : Leads F s (execShortClear t' n s) := by
  unfold execShortClear
  repeat' first
    | with_reducible refine .outIf _ ?_
    | with_reducible refine State.passes_act (hF.sub rfl) _ _ _ fun v => ?_
    | with_reducible refine Keeps.passes ?_
    | with_reducible exact Keeps.refl _
    | with_reducible assumption
    | with_reducible first | apply State.keeps_shortOff
    | with_reducible exact hF.sub rfl
    | intro

theorem State.keeps_openSafe {F : Nat} {s t : State} (hF : Within 32 F) (h : Keeps F s t) (n : Nat) (within : Bool) : Keeps F s (t.openSafe n within) := by
  unfold State.openSafe
  repeat' first
    | with_reducible assumption
    | with_reducible refine Keeps.ite ?_ ?_
    | with_reducible first | apply State.keeps_setForce
    | with_reducible exact hF.sub rfl
    | split
    | refine Keeps.ofFst (by assumption) ?_
    | refine Keeps.ofSnd (by assumption) ?_
    | ((fail_if_no_progress extract_lets +onlyGivenNames x); first
      | (have g : State := x; clear g; refine Keeps.cut x ?_ ?_; (on_goal 2 => (intro _; try clear_value x)); (on_goal 1 => subst x))
      | (have g : _ → State := x; clear g; subst x) | (have g : _ → _ → State := x; clear g; subst x) | (have g : Option _ := x; clear g; subst x) | skip)
    | intro

theorem leads_execSafeSwitchOpen {F : Nat} (hF : Within 458235 F) (t' : Nat) (n : Nat) (within : Bool) (s : State) : Leads F s (execSafeSwitchOpen t' n within s) := by
  unfold execSafeSwitchOpen
  repeat' first
    | with_reducible refine .outIf _ ?_
    | with_reducible refine State.passes_act (hF.sub rfl) _ _ _ fun v => ?_
    | with_reducible refine Keeps.passes ?_
    | with_reducible exact Keeps.refl _
    | with_reducible assumption
    | with_reducible first | apply State.keeps_openSafe
    | with_reducible exact hF.sub rfl
    | intro

theorem State.keeps_boostFault {F : Nat} {s t : State} (hF : Within 412850 F) (h : Keeps F s t) (b : Nat) (code : Nat) : Keeps F s (t.boostFault b code) := by
  unfold State.boostFault
  repeat' first
    | with_reducible assumption
    | with_reducible refine Keeps.ite ?_ ?_
    | with_reducible first | apply State.keeps_fault | apply State.keeps_stick | apply State.keeps_assertSrc
    | with_reducible exact hF.sub rfl
    | split
    | refine Keeps.ofFst (by assumption) ?_
    | refine Keeps.ofSnd (by assumption) ?_
    | ((fail_if_no_progress extract_lets +onlyGivenNames x); first
      | (have g : State := x; clear g; refine Keeps.cut x ?_ ?_; (on_goal 2 => (intro _; try clear_value x)); (on_goal 1 => subst x))
      | (have g : _ → State := x; clear g; subst x) | (have g : _ → _ → State := x; clear g; subst x) | (have g : Option _ := x; clear g; subst x) | skip)
    | intro

theorem leads_execBoostLoop {F : Nat} (hF : Within 458235 F) (t' : Nat) (b : Nat) (s : State) : Leads F s (execBoostLoop t' b s) := by
  unfold execBoostLoop
  repeat' first
    | with_reducible refine .outIf _ ?_
    | with_reducible refine State.passes_act (hF.sub rfl) _ _ _ fun v => ?_
    | with_reducible refine Keeps.passes ?_
    | with_reducible exact Keeps.refl _
    | with_reducible assumption
    | with_reducible first | apply State.keeps_boostFault
    | with_reducible exact hF.sub rfl
    | intro

theorem leads_execBoostSense {F : Nat} (hF : Within 458235 F) (t' : Nat) (b : Nat) (s : State) : Leads F s (execBoostSense t' b s) := by
  unfold execBoostSense
  repeat' first
    | with_reducible refine .outIf _ ?_
    | with_reducible refine State.passes_act (hF.sub rfl) _ _ _ fun v => ?_
    | with_reducible refine Keeps.passes ?_
    | with_reducible exact Keeps.refl _
    | with_reducible assumption
    | with_reducible first | apply State.keeps_boostFault
    | with_reducible exact hF.sub rfl
    | intro

theorem State.keeps_guardOver {F : Nat} {s t : State} (hF : Within 413362 F) (h : Keeps F s t) (k : Nat) : Keeps F s (t.guardOver k) := by
  unfold State.guardOver
  repeat' first
    | with_reducible assumption
    | with_reducible refine Keeps.ite ?_ ?_
    | with_reducible first | apply State.keeps_fault | apply State.keeps_assertSrc
    | fail_if_no_progress (with_reducible refine Keeps.guards' (hF.sub rfl) ?_ (by with_reducible rfl))
    | with_reducible exact hF.sub rfl
    | split
    | refine Keeps.ofFst (by assumption) ?_
    | refine Keeps.ofSnd (by assumption) ?_
    | ((fail_if_no_progress extract_lets +onlyGivenNames x); first
      | (have g : State := x; clear g; refine Keeps.cut x ?_ ?_; (on_goal 2 => (intro _; try clear_value x)); (on_goal 1 => subst x))
      | (have g : _ → State := x; clear g; subst x) | (have g : _ → _ → State := x; clear g; subst x) | (have g : Option _ := x; clear g; subst x) | skip)
    | intro

theorem leads_execGuardOverload {F : Nat} (hF : Within 458747 F) (t' : Nat) (k : Nat) (s : State) : Leads F s (execGuardOverload t' k s) := by
  unfold execGuardOverload
  repeat' first
    | with_reducible refine .outIf _ ?_
    | with_reducible refine State.passes_act (hF.sub rfl) _ _ _ fun v => ?_
    | with_reducible refine Keeps.passes ?_
    | with_reducible exact Keeps.refl _
    | with_reducible assumption
    | with_reducible first | apply State.keeps_guardOver
    | with_reducible exact hF.sub rfl
    | intro

end Sys2Proof.Machine
end

