-- ==== Sys2Proof/Laws/Measuring.lean ====
section
/-!
SUPPORT. The operations of Machine/Measuring.lean: the parts of the state that each may change, and what it keeps.
-/

namespace Sys2Proof.Machine

open Sys2Proof

set_option linter.all false

theorem State.keeps_rotate {F : Nat} {s t : State} (hF : Within 262144 F) (h : Keeps F s t) (i : Nat) : Keeps F s (t.rotate i) := by
  unfold State.rotate
  repeat' first
    | with_reducible assumption
    | with_reducible refine Keeps.ite ?_ ?_
    | with_reducible first | apply State.keeps_setSlice
    | with_reducible exact hF.sub rfl
    | split
    | refine Keeps.ofFst (by assumption) ?_
    | refine Keeps.ofSnd (by assumption) ?_
    | ((fail_if_no_progress extract_lets +onlyGivenNames x); first
      | (have g : State := x; clear g; refine Keeps.cut x ?_ ?_; (on_goal 2 => (intro _; try clear_value x)); (on_goal 1 => subst x))
      | (have g : _ → State := x; clear g; subst x) | (have g : _ → _ → State := x; clear g; subst x) | (have g : Option _ := x; clear g; subst x) | skip)
    | intro

theorem leads_execCellRotation {F : Nat} (hF : Within 458235 F) (t' : Nat) (i : Nat) (s : State) : Leads F s (execCellRotation t' i s) := by
  unfold execCellRotation
  repeat' first
    | with_reducible refine .outIf _ ?_
    | with_reducible refine State.passes_act (hF.sub rfl) _ _ _ fun v => ?_
    | with_reducible refine Keeps.passes ?_
    | with_reducible exact Keeps.refl _
    | with_reducible assumption
    | with_reducible first | apply State.keeps_rotate
    | with_reducible exact hF.sub rfl
    | intro

theorem State.keeps_cellFails {F : Nat} {s t : State} (hF : Within 412850 F) (h : Keeps F s t) (i : Nat) : Keeps F s (t.cellFails i) := by
  unfold State.cellFails
  repeat' first
    | with_reducible assumption
    | with_reducible refine Keeps.ite ?_ ?_
    | with_reducible first | apply State.keeps_fault | apply State.keeps_setSlice
    | with_reducible exact hF.sub rfl
    | split
    | refine Keeps.ofFst (by assumption) ?_
    | refine Keeps.ofSnd (by assumption) ?_
    | ((fail_if_no_progress extract_lets +onlyGivenNames x); first
      | (have g : State := x; clear g; refine Keeps.cut x ?_ ?_; (on_goal 2 => (intro _; try clear_value x)); (on_goal 1 => subst x))
      | (have g : _ → State := x; clear g; subst x) | (have g : _ → _ → State := x; clear g; subst x) | (have g : Option _ := x; clear g; subst x) | skip)
    | intro

theorem leads_execAdcCell {F : Nat} (hF : Within 458235 F) (t' : Nat) (i : Nat) (s : State) : Leads F s (execAdcCell t' i s) := by
  unfold execAdcCell
  repeat' first
    | with_reducible refine .outIf _ ?_
    | with_reducible refine State.passes_act (hF.sub rfl) _ _ _ fun v => ?_
    | with_reducible refine Keeps.passes ?_
    | with_reducible exact Keeps.refl _
    | with_reducible assumption
    | with_reducible first | apply State.keeps_cellFails
    | with_reducible exact hF.sub rfl
    | intro

theorem State.keeps_entryEnds {F : Nat} {s t : State} (hF : Within 412914 F) (h : Keeps F s t) (n : Nat) (codes : List Int) : Keeps F s (t.entryEnds n codes) := by
  unfold State.entryEnds
  repeat' first
    | with_reducible assumption
    | with_reducible refine Keeps.ite ?_ ?_
    | with_reducible first | apply State.keeps_nextEntry | apply State.keeps_emit
    | with_reducible exact hF.sub rfl
    | split
    | refine Keeps.ofFst (by assumption) ?_
    | refine Keeps.ofSnd (by assumption) ?_
    | ((fail_if_no_progress extract_lets +onlyGivenNames x); first
      | (have g : State := x; clear g; refine Keeps.cut x ?_ ?_; (on_goal 2 => (intro _; try clear_value x)); (on_goal 1 => subst x))
      | (have g : _ → State := x; clear g; subst x) | (have g : _ → _ → State := x; clear g; subst x) | (have g : Option _ := x; clear g; subst x) | skip)
    | intro

theorem leads_execEntryComplete {F : Nat} (hF : Within 458235 F) (t' : Nat) (n : Nat) (codes : List Int) (s : State) : Leads F s (execEntryComplete t' n codes s) := by
  unfold execEntryComplete
  repeat' first
    | with_reducible refine .outIf _ ?_
    | with_reducible refine State.passes_act (hF.sub rfl) _ _ _ fun v => ?_
    | with_reducible refine Keeps.passes ?_
    | with_reducible exact Keeps.refl _
    | with_reducible assumption
    | with_reducible first | apply State.keeps_entryEnds
    | with_reducible exact hF.sub rfl
    | intro

theorem State.keeps_switchEnds {F : Nat} {s t : State} (hF : Within 64 F) (h : Keeps F s t) (n : Nat) : Keeps F s (t.switchEnds n) := by
  unfold State.switchEnds
  repeat' first
    | with_reducible assumption
    | with_reducible refine Keeps.ite ?_ ?_
    | with_reducible first | apply State.keeps_startAtSlot | apply State.keeps_setSeq
    | with_reducible exact hF.sub rfl
    | split
    | refine Keeps.ofFst (by assumption) ?_
    | refine Keeps.ofSnd (by assumption) ?_
    | ((fail_if_no_progress extract_lets +onlyGivenNames x); first
      | (have g : State := x; clear g; refine Keeps.cut x ?_ ?_; (on_goal 2 => (intro _; try clear_value x)); (on_goal 1 => subst x))
      | (have g : _ → State := x; clear g; subst x) | (have g : _ → _ → State := x; clear g; subst x) | (have g : Option _ := x; clear g; subst x) | skip)
    | intro

theorem leads_execLowPowerSwitchEnd {F : Nat} (hF : Within 458235 F) (t' : Nat) (n : Nat) (s : State) : Leads F s (execLowPowerSwitchEnd t' n s) := by
  unfold execLowPowerSwitchEnd
  repeat' first
    | with_reducible refine .outIf _ ?_
    | with_reducible refine State.passes_act (hF.sub rfl) _ _ _ fun v => ?_
    | with_reducible refine Keeps.passes ?_
    | with_reducible exact Keeps.refl _
    | with_reducible assumption
    | with_reducible first | apply State.keeps_switchEnds
    | with_reducible exact hF.sub rfl
    | intro

theorem leads_execTrigger {F : Nat} (hF : Within 29360127 F) (t' : Nat) (m : Nat) (n : Nat) (v : Word) (s : State) : Leads F s (execTrigger t' m n v s) := by
  unfold execTrigger
  repeat' first
    | with_reducible refine .outIf _ ?_
    | with_reducible refine State.passes_act (hF.sub rfl) _ _ _ fun v => ?_
    | with_reducible refine Keeps.passes ?_
    | with_reducible exact Keeps.refl _
    | with_reducible assumption
    | with_reducible first | apply State.keeps_accessReg
    | with_reducible exact hF.sub rfl
    | intro

theorem State.keeps_restartDue {F : Nat} {s t : State} (hF : Within 66 F) (h : Keeps F s t) (n : Nat) : Keeps F s (t.restartDue n) := by
  unfold State.restartDue
  repeat' first
    | with_reducible assumption
    | with_reducible first | apply State.keeps_doRestart
    | with_reducible exact hF.sub rfl
    | split
    | refine Keeps.ofFst (by assumption) ?_
    | refine Keeps.ofSnd (by assumption) ?_
    | intro

theorem leads_execRestart {F : Nat} (hF : Within 458235 F) (t' : Nat) (n : Nat) (s : State) : Leads F s (execRestart t' n s) := by
  unfold execRestart
  repeat' first
    | with_reducible refine .outIf _ ?_
    | with_reducible refine State.passes_act (hF.sub rfl) _ _ _ fun v => ?_
    | with_reducible refine Keeps.passes ?_
    | with_reducible exact Keeps.refl _
    | with_reducible assumption
    | with_reducible first | apply State.keeps_restartDue
    | with_reducible exact hF.sub rfl
    | intro

theorem leads_execRunSet {F : Nat} (hF : Within 29360127 F) (t' : Nat) (m : Nat) (n : Nat) (v : Word) (s : State) : Leads F s (execRunSet t' m n v s) := by
  unfold execRunSet
  repeat' first
    | with_reducible refine .outIf _ ?_
    | with_reducible refine State.passes_act (hF.sub rfl) _ _ _ fun v => ?_
    | with_reducible refine Keeps.passes ?_
    | with_reducible exact Keeps.refl _
    | with_reducible assumption
    | with_reducible first | apply State.keeps_accessReg
    | with_reducible exact hF.sub rfl
    | intro

theorem leads_execRunClear {F : Nat} (hF : Within 29360127 F) (t' : Nat) (m : Nat) (n : Nat) (v : Word) (codes : List Int) (s : State) : Leads F s (execRunClear t' m n v codes s) := by
  unfold execRunClear
  repeat' first
    | with_reducible refine .outIf _ ?_
    | with_reducible refine State.passes_act (hF.sub rfl) _ _ _ fun v => ?_
    | with_reducible refine Keeps.passes ?_
    | with_reducible exact Keeps.refl _
    | with_reducible assumption
    | with_reducible first | apply State.keeps_accessReg
    | with_reducible exact hF.sub rfl
    | intro

theorem leads_execAutorangeClear {F : Nat} (hF : Within 29360127 F) (t' : Nat) (m : Nat) (n : Nat) (v : Word) (s : State) : Leads F s (execAutorangeClear t' m n v s) := by
  unfold execAutorangeClear
  repeat' first
    | with_reducible refine .outIf _ ?_
    | with_reducible refine State.passes_act (hF.sub rfl) _ _ _ fun v => ?_
    | with_reducible refine Keeps.passes ?_
    | with_reducible exact Keeps.refl _
    | with_reducible assumption
    | with_reducible first | apply State.keeps_accessReg
    | with_reducible exact hF.sub rfl
    | intro

theorem State.keeps_holdRange {F : Nat} {s t : State} (hF : Within 66 F) (h : Keeps F s t) (n : Nat) : Keeps F s (t.holdRange n) := by
  unfold State.holdRange
  repeat' first
    | with_reducible assumption
    | with_reducible refine Keeps.ite ?_ ?_
    | with_reducible first | apply State.keeps_stick | apply State.keeps_setSeq
    | with_reducible exact hF.sub rfl
    | split
    | intro

theorem leads_execRangeHold {F : Nat} (hF : Within 458235 F) (t' : Nat) (n : Nat) (s : State) : Leads F s (execRangeHold t' n s) := by
  unfold execRangeHold
  repeat' first
    | with_reducible refine .outIf _ ?_
    | with_reducible refine State.passes_act (hF.sub rfl) _ _ _ fun v => ?_
    | with_reducible refine Keeps.passes ?_
    | with_reducible exact Keeps.refl _
    | with_reducible assumption
    | with_reducible first | apply State.keeps_holdRange
    | with_reducible exact hF.sub rfl
    | intro

theorem leads_execChMeasSeqWrite {F : Nat} (hF : Within 29360127 F) (t' : Nat) (m : Nat) (n : Nat) (p : Nat) (e : Nat) (v : Word) (s : State) : Leads F s (execChMeasSeqWrite t' m n p e v s) := by
  unfold execChMeasSeqWrite
  repeat' first
    | with_reducible refine .outIf _ ?_
    | with_reducible refine State.passes_act (hF.sub rfl) _ _ _ fun v => ?_
    | with_reducible refine Keeps.passes ?_
    | with_reducible exact Keeps.refl _
    | with_reducible assumption
    | with_reducible first | apply State.keeps_accessReg
    | with_reducible exact hF.sub rfl
    | intro

end Sys2Proof.Machine
end

