-- ==== Sys2Proof/Laws/Sweeps.lean ====
section
/-!
SUPPORT. The operations of Machine/Sweeps.lean: the parts of the state that each may change, and what it keeps.
-/

namespace Sys2Proof.Machine

open Sys2Proof

set_option linter.all false

theorem leads_execStart {F : Nat} (hF : Within 29360127 F) (t' : Nat) (m : Nat) (n : Nat) (v : Word) (bad : Bool) (s : State) : Leads F s (execStart t' m n v bad s) := by
  unfold execStart
  repeat' first
    | with_reducible refine .outIf _ ?_
    | with_reducible refine State.passes_act (hF.sub rfl) _ _ _ fun v => ?_
    | with_reducible refine Keeps.passes ?_
    | with_reducible exact Keeps.refl _
    | with_reducible assumption
    | with_reducible first | apply State.keeps_accessReg
    | with_reducible exact hF.sub rfl
    | intro

theorem leads_execPrime {F : Nat} (hF : Within 29360127 F) (t' : Nat) (m : Nat) (n : Nat) (v : Word) (s : State) : Leads F s (execPrime t' m n v s) := by
  unfold execPrime
  repeat' first
    | with_reducible refine .outIf _ ?_
    | with_reducible refine State.passes_act (hF.sub rfl) _ _ _ fun v => ?_
    | with_reducible refine Keeps.passes ?_
    | with_reducible exact Keeps.refl _
    | with_reducible assumption
    | with_reducible first | apply State.keeps_accessReg
    | with_reducible exact hF.sub rfl
    | intro

theorem leads_execPrimingComplete {F : Nat} (hF : Within 458235 F) (t' : Nat) (n : Nat) (bad : List Nat) (s : State) : Leads F s (execPrimingComplete t' n bad s) := by
  unfold execPrimingComplete
  repeat' first
    | with_reducible refine .outIf _ ?_
    | with_reducible refine State.passes_act (hF.sub rfl) _ _ _ fun v => ?_
    | with_reducible refine Keeps.passes ?_
    | with_reducible exact Keeps.refl _
    | with_reducible assumption
    | with_reducible first | apply State.keeps_primingDone
    | with_reducible exact hF.sub rfl
    | intro

theorem leads_execStartInstant {F : Nat} (hF : Within 458235 F) (t' : Nat) (n : Nat) (s : State) : Leads F s (execStartInstant t' n s) := by
  unfold execStartInstant
  repeat' first
    | with_reducible refine .outIf _ ?_
    | with_reducible refine State.passes_act (hF.sub rfl) _ _ _ fun v => ?_
    | with_reducible refine Keeps.passes ?_
    | with_reducible exact Keeps.refl _
    | with_reducible assumption
    | with_reducible first | apply State.keeps_startInstant
    | with_reducible exact hF.sub rfl
    | intro

theorem leads_execStop {F : Nat} (hF : Within 29360127 F) (t' : Nat) (m : Nat) (n : Nat) (v : Word) (s : State) : Leads F s (execStop t' m n v s) := by
  unfold execStop
  repeat' first
    | with_reducible refine .outIf _ ?_
    | with_reducible refine State.passes_act (hF.sub rfl) _ _ _ fun v => ?_
    | with_reducible refine Keeps.passes ?_
    | with_reducible exact Keeps.refl _
    | with_reducible assumption
    | with_reducible first | apply State.keeps_accessReg
    | with_reducible exact hF.sub rfl
    | intro

theorem leads_execLookAheadPoint {F : Nat} (hF : Within 458235 F) (t' : Nat) (n : Nat) (bad : Bool) (s : State) : Leads F s (execLookAheadPoint t' n bad s) := by
  unfold execLookAheadPoint
  repeat' first
    | with_reducible refine .outIf _ ?_
    | with_reducible refine State.passes_act (hF.sub rfl) _ _ _ fun v => ?_
    | with_reducible refine Keeps.passes ?_
    | with_reducible exact Keeps.refl _
    | with_reducible assumption
    | with_reducible first | apply State.keeps_lookAhead
    | with_reducible exact hF.sub rfl
    | intro

theorem leads_execExecutionStart {F : Nat} (hF : Within 458235 F) (t' : Nat) (n : Nat) (meas : Int) (bad : Bool) (s : State) : Leads F s (execExecutionStart t' n meas bad s) := by
  unfold execExecutionStart
  repeat' first
    | with_reducible refine .outIf _ ?_
    | with_reducible refine State.passes_act (hF.sub rfl) _ _ _ fun v => ?_
    | with_reducible refine Keeps.passes ?_
    | with_reducible exact Keeps.refl _
    | with_reducible assumption
    | with_reducible first | apply State.keeps_startExec
    | with_reducible exact hF.sub rfl
    | intro

theorem leads_execMouldPoint {F : Nat} (hF : Within 458235 F) (t' : Nat) (n : Nat) (meas : Int) (bad : Bool) (s : State) : Leads F s (execMouldPoint t' n meas bad s) := by
  unfold execMouldPoint
  repeat' first
    | with_reducible refine .outIf _ ?_
    | with_reducible refine State.passes_act (hF.sub rfl) _ _ _ fun v => ?_
    | with_reducible refine Keeps.passes ?_
    | with_reducible exact Keeps.refl _
    | with_reducible assumption
    | with_reducible first | apply State.keeps_mouldPoint
    | with_reducible exact hF.sub rfl
    | intro

theorem leads_execAdvanceConsumed {F : Nat} (hF : Within 458235 F) (t' : Nat) (n : Nat) (s : State) : Leads F s (execAdvanceConsumed t' n s) := by
  unfold execAdvanceConsumed
  repeat' first
    | with_reducible refine .outIf _ ?_
    | with_reducible refine State.passes_act (hF.sub rfl) _ _ _ fun v => ?_
    | with_reducible refine Keeps.passes ?_
    | with_reducible exact Keeps.refl _
    | with_reducible assumption
    | with_reducible first | apply State.keeps_consumeAdvance
    | with_reducible exact hF.sub rfl
    | intro

theorem leads_execWaitTimeout {F : Nat} (hF : Within 458235 F) (t' : Nat) (n : Nat) (s : State) : Leads F s (execWaitTimeout t' n s) := by
  unfold execWaitTimeout
  repeat' first
    | with_reducible refine .outIf _ ?_
    | with_reducible refine State.passes_act (hF.sub rfl) _ _ _ fun v => ?_
    | with_reducible refine Keeps.passes ?_
    | with_reducible exact Keeps.refl _
    | with_reducible assumption
    | with_reducible first | apply State.keeps_waitTimeout
    | with_reducible exact hF.sub rfl
    | intro

theorem leads_execPrefetchArrival {F : Nat} (hF : Within 458235 F) (t' : Nat) (n : Nat) (bad : List Nat) (s : State) : Leads F s (execPrefetchArrival t' n bad s) := by
  unfold execPrefetchArrival
  repeat' first
    | with_reducible refine .outIf _ ?_
    | with_reducible refine State.passes_act (hF.sub rfl) _ _ _ fun v => ?_
    | with_reducible refine Keeps.passes ?_
    | with_reducible exact Keeps.refl _
    | with_reducible assumption
    | with_reducible first | apply State.keeps_prefetchArrival
    | with_reducible exact hF.sub rfl
    | intro

end Sys2Proof.Machine
end

