-- ==== Sys2Proof/Laws/Results.lean ====
section
/-!
SUPPORT. The operations of Machine/Results.lean: the parts of the state that each may change, and what it keeps.
-/

namespace Sys2Proof.Machine

open Sys2Proof

set_option linter.all false

theorem leads_execFeltPush {F : Nat} (hF : Within 458235 F) (t' : Nat) (p : Producer) (s : State) : Leads F s (execFeltPush t' p s) := by
  unfold execFeltPush
  repeat' first
    | with_reducible refine .outIf _ ?_
    | with_reducible refine State.passes_act (hF.sub rfl) _ _ _ fun v => ?_
    | with_reducible refine Keeps.passes ?_
    | with_reducible exact Keeps.refl _
    | with_reducible assumption
    | with_reducible first | apply State.keeps_stampTurn | apply State.keeps_agentTurn
    | with_reducible exact hF.sub rfl
    | split
    | intro

theorem leads_execCreditAsk {F : Nat} (hF : Within 458235 F) (t' : Nat) (p : Nat) (f : Nat) (s : State) : Leads F s (execCreditAsk t' p f s) := by
  unfold execCreditAsk
  repeat' first
    | with_reducible refine .outIf _ ?_
    | with_reducible refine State.passes_act (hF.sub rfl) _ _ _ fun v => ?_
    | with_reducible refine Keeps.passes ?_
    | with_reducible exact Keeps.refl _
    | with_reducible assumption
    | with_reducible first | apply State.keeps_ask
    | with_reducible exact hF.sub rfl
    | intro

theorem leads_execCreditGrant {F : Nat} (hF : Within 458235 F) (t' : Nat) (p : Nat) (f : Nat) (s : State) : Leads F s (execCreditGrant t' p f s) := by
  unfold execCreditGrant
  repeat' first
    | with_reducible refine .outIf _ ?_
    | with_reducible refine State.passes_act (hF.sub rfl) _ _ _ fun v => ?_
    | with_reducible refine Keeps.passes ?_
    | with_reducible exact Keeps.refl _
    | with_reducible assumption
    | with_reducible first | apply State.keeps_answerAsk
    | with_reducible exact hF.sub rfl
    | intro

theorem leads_execFeltPop {F : Nat} (hF : Within 25624063 F) (t' : Nat) (m : Nat) (f : Nat) (s : State) : Leads F s (execFeltPop t' m f s) := by
  unfold execFeltPop
  repeat' first
    | with_reducible refine .outIf _ ?_
    | with_reducible refine State.passes_act (hF.sub rfl) _ _ _ fun v => ?_
    | with_reducible exact State.passes_access (hF.sub rfl) _ _ _ (State.passes_readAt (hF.sub rfl) ..)
    | with_reducible refine Keeps.passes ?_
    | with_reducible exact Keeps.refl _
    | with_reducible assumption
    | with_reducible first | apply State.keeps_access
    | with_reducible exact hF.sub rfl
    | intro

theorem leads_execPopShadowRead {F : Nat} (hF : Within 25624063 F) (t' : Nat) (m : Nat) (f : Nat) (w : Nat) (s : State) : Leads F s (execPopShadowRead t' m f w s) := by
  unfold execPopShadowRead
  repeat' first
    | with_reducible refine .outIf _ ?_
    | with_reducible refine State.passes_act (hF.sub rfl) _ _ _ fun v => ?_
    | with_reducible exact State.passes_access (hF.sub rfl) _ _ _ (State.passes_readAt (hF.sub rfl) ..)
    | with_reducible refine Keeps.passes ?_
    | with_reducible exact Keeps.refl _
    | with_reducible assumption
    | with_reducible first | apply State.keeps_access
    | with_reducible exact hF.sub rfl
    | intro

theorem leads_execCaptureTake {F : Nat} (hF : Within 458235 F) (t' : Nat) (f : Nat) (s : State) : Leads F s (execCaptureTake t' f s) := by
  unfold execCaptureTake
  repeat' first
    | with_reducible refine .outIf _ ?_
    | with_reducible refine State.passes_act (hF.sub rfl) _ _ _ fun v => ?_
    | with_reducible refine Keeps.passes ?_
    | with_reducible exact Keeps.refl _
    | with_reducible assumption
    | with_reducible first | apply State.keeps_captureTake
    | with_reducible exact hF.sub rfl
    | intro

theorem leads_execCaptureWriteComplete {F : Nat} (hF : Within 458235 F) (t' : Nat) (f : Nat) (s : State) : Leads F s (execCaptureWriteComplete t' f s) := by
  unfold execCaptureWriteComplete
  repeat' first
    | with_reducible refine .outIf _ ?_
    | with_reducible refine State.passes_act (hF.sub rfl) _ _ _ fun v => ?_
    | with_reducible refine Keeps.passes ?_
    | with_reducible exact Keeps.refl _
    | with_reducible assumption
    | with_reducible first | apply State.keeps_captureWritten
    | with_reducible exact hF.sub rfl
    | intro

theorem leads_execStreamTake {F : Nat} (hF : Within 458235 F) (t' : Nat) (f : Nat) (s : State) : Leads F s (execStreamTake t' f s) := by
  unfold execStreamTake
  repeat' first
    | with_reducible refine .outIf _ ?_
    | with_reducible refine State.passes_act (hF.sub rfl) _ _ _ fun v => ?_
    | with_reducible refine Keeps.passes ?_
    | with_reducible exact Keeps.refl _
    | with_reducible assumption
    | with_reducible first | apply State.keeps_streamTake
    | with_reducible exact hF.sub rfl
    | intro

theorem leads_execRingRdAdvance {F : Nat} (hF : Within 29360127 F) (t' : Nat) (m : Nat) (f : Nat) (v : Word) (s : State) : Leads F s (execRingRdAdvance t' m f v s) := by
  unfold execRingRdAdvance
  repeat' first
    | with_reducible refine .outIf _ ?_
    | with_reducible refine State.passes_act (hF.sub rfl) _ _ _ fun v => ?_
    | with_reducible refine Keeps.passes ?_
    | with_reducible exact Keeps.refl _
    | with_reducible assumption
    | with_reducible first | apply State.keeps_accessReg
    | with_reducible exact hF.sub rfl
    | intro

theorem leads_execRefill {F : Nat} (hF : Within 458235 F) (t' : Nat) (f : Nat) (bad : List Nat) (s : State) : Leads F s (execRefill t' f bad s) := by
  unfold execRefill
  repeat' first
    | with_reducible refine .outIf _ ?_
    | with_reducible refine State.passes_act (hF.sub rfl) _ _ _ fun v => ?_
    | with_reducible refine Keeps.passes ?_
    | with_reducible exact Keeps.refl _
    | with_reducible assumption
    | with_reducible first | apply State.keeps_refill
    | with_reducible exact hF.sub rfl
    | intro

theorem leads_execTailTimeout {F : Nat} (hF : Within 458235 F) (t' : Nat) (f : Nat) (s : State) : Leads F s (execTailTimeout t' f s) := by
  unfold execTailTimeout
  repeat' first
    | with_reducible refine .outIf _ ?_
    | with_reducible refine State.passes_act (hF.sub rfl) _ _ _ fun v => ?_
    | with_reducible refine Keeps.passes ?_
    | with_reducible exact Keeps.refl _
    | with_reducible assumption
    | with_reducible first | apply State.keeps_tailTimeout
    | with_reducible exact hF.sub rfl
    | intro

theorem leads_execWatermarkEvent {F : Nat} (hF : Within 458235 F) (t' : Nat) (k : Nat) (s : State) : Leads F s (execWatermarkEvent t' k s) := by
  unfold execWatermarkEvent
  repeat' first
    | with_reducible refine .outIf _ ?_
    | with_reducible refine State.passes_act (hF.sub rfl) _ _ _ fun v => ?_
    | with_reducible refine Keeps.passes ?_
    | with_reducible exact Keeps.refl _
    | with_reducible assumption
    | with_reducible first | apply State.keeps_fireWm
    | with_reducible exact hF.sub rfl
    | intro

theorem leads_execFeltEnable {F : Nat} (hF : Within 29360127 F) (t' : Nat) (m : Nat) (f : Nat) (v : Word) (s : State) : Leads F s (execFeltEnable t' m f v s) := by
  unfold execFeltEnable
  repeat' first
    | with_reducible refine .outIf _ ?_
    | with_reducible refine State.passes_act (hF.sub rfl) _ _ _ fun v => ?_
    | with_reducible refine Keeps.passes ?_
    | with_reducible exact Keeps.refl _
    | with_reducible assumption
    | with_reducible first | apply State.keeps_accessReg
    | with_reducible exact hF.sub rfl
    | intro

theorem leads_execFeltDisable {F : Nat} (hF : Within 29360127 F) (t' : Nat) (m : Nat) (f : Nat) (v : Word) (s : State) : Leads F s (execFeltDisable t' m f v s) := by
  unfold execFeltDisable
  repeat' first
    | with_reducible refine .outIf _ ?_
    | with_reducible refine State.passes_act (hF.sub rfl) _ _ _ fun v => ?_
    | with_reducible refine Keeps.passes ?_
    | with_reducible exact Keeps.refl _
    | with_reducible assumption
    | with_reducible first | apply State.keeps_accessReg
    | with_reducible exact hF.sub rfl
    | intro

theorem leads_execDrained {F : Nat} (hF : Within 458235 F) (t' : Nat) (f : Nat) (s : State) : Leads F s (execDrained t' f s) := by
  unfold execDrained
  repeat' first
    | with_reducible refine .outIf _ ?_
    | with_reducible refine State.passes_act (hF.sub rfl) _ _ _ fun v => ?_
    | with_reducible refine Keeps.passes ?_
    | with_reducible exact Keeps.refl _
    | with_reducible assumption
    | with_reducible first | apply State.keeps_becomeDrained
    | with_reducible exact hF.sub rfl
    | intro

theorem leads_execFeltEmptyFor1Us {F : Nat} (hF : Within 458235 F) (t' : Nat) (f : Nat) (s : State) : Leads F s (execFeltEmptyFor1Us t' f s) := by
  unfold execFeltEmptyFor1Us
  repeat' first
    | with_reducible refine .outIf _ ?_
    | with_reducible refine State.passes_act (hF.sub rfl) _ _ _ fun v => ?_
    | with_reducible refine Keeps.passes ?_
    | with_reducible exact Keeps.refl _
    | with_reducible assumption
    | with_reducible first | apply State.keeps_emptyFor
    | with_reducible exact hF.sub rfl
    | intro

end Sys2Proof.Machine
end

