-- ==== Sys2Proof/Laws/Events.lean ====
section
/-!
SUPPORT. The operations of Machine/Events.lean: the parts of the state that each may change, and what it keeps.
-/

namespace Sys2Proof.Machine

open Sys2Proof

set_option linter.all false

theorem leads_execFire {F : Nat} (hF : Within 29360127 F) (t' : Nat) (m : Nat) (c : Nat) (v : Word) (s : State) : Leads F s (execFire t' m c v s) := by
  unfold execFire
  repeat' first
    | with_reducible refine .outIf _ ?_
    | with_reducible refine State.passes_act (hF.sub rfl) _ _ _ fun v => ?_
    | with_reducible refine Keeps.passes ?_
    | with_reducible exact Keeps.refl _
    | with_reducible assumption
    | with_reducible first | apply State.keeps_accessReg
    | with_reducible exact hF.sub rfl
    | intro

theorem leads_execCommit {F : Nat} (hF : Within 29360127 F) (t' : Nat) (m : Nat) (c : Nat) (v : Word) (s : State) : Leads F s (execCommit t' m c v s) := by
  unfold execCommit
  repeat' first
    | with_reducible refine .outIf _ ?_
    | with_reducible refine State.passes_act (hF.sub rfl) _ _ _ fun v => ?_
    | with_reducible refine Keeps.passes ?_
    | with_reducible exact Keeps.refl _
    | with_reducible assumption
    | with_reducible first | apply State.keeps_accessReg
    | with_reducible exact hF.sub rfl
    | intro

theorem leads_execRcDirectWrite {F : Nat} (hF : Within 29360127 F) (t' : Nat) (m : Nat) (c : Nat) (v : Word) (s : State) : Leads F s (execRcDirectWrite t' m c v s) := by
  unfold execRcDirectWrite
  repeat' first
    | with_reducible refine .outIf _ ?_
    | with_reducible refine State.passes_act (hF.sub rfl) _ _ _ fun v => ?_
    | with_reducible refine Keeps.passes ?_
    | with_reducible exact Keeps.refl _
    | with_reducible assumption
    | with_reducible first | apply State.keeps_accessReg
    | with_reducible exact hF.sub rfl
    | intro

theorem leads_execStage {F : Nat} (hF : Within 29360127 F) (t' : Nat) (m : Nat) (a : Nat) (v : Word) (s : State) : Leads F s (execStage t' m a v s) := by
  unfold execStage
  first
    | exact State.leads_busWrite (hF.sub rfl) ..
    | exact State.leads_busRead (hF.sub rfl) ..
    | exact .ite (State.leads_busWrite (hF.sub rfl) ..) (State.leads_busRead (hF.sub rfl) ..)

theorem State.keeps_singleAction {F : Nat} {s t : State} (hF : Within 412850 F) (h : Keeps F s t) (i : Nat) : Keeps F s (t.singleAction i) := by
  unfold State.singleAction
  repeat' first
    | with_reducible assumption
    | with_reducible refine Keeps.ite ?_ ?_
    | with_reducible first | apply State.keeps_fireInj | apply State.keeps_evioFire
    | with_reducible exact hF.sub rfl
    | split
    | intro

theorem State.keeps_deliverSingle {F : Nat} {s t : State} (hF : Within 412850 F) (h : Keeps F s t) (i : Nat) : Keeps F s (t.deliverSingle i) := by
  unfold State.deliverSingle
  repeat' first
    | with_reducible assumption
    | with_reducible refine Keeps.ite ?_ ?_
    | with_reducible first | apply State.keeps_linkChain | apply State.keeps_singleAction | apply State.keeps_setPend
    | fail_if_no_progress (with_reducible refine Keeps.evm' (hF.sub rfl) ?_ (by with_reducible rfl))
    | with_reducible exact hF.sub rfl
    | split
    | refine Keeps.ofFst (by assumption) ?_
    | refine Keeps.ofSnd (by assumption) ?_
    | ((fail_if_no_progress extract_lets +onlyGivenNames x); first
      | (have g : State := x; clear g; refine Keeps.cut x ?_ ?_; (on_goal 2 => (intro _; try clear_value x)); (on_goal 1 => subst x))
      | (have g : _ → State := x; clear g; subst x) | (have g : _ → _ → State := x; clear g; subst x) | (have g : Option _ := x; clear g; subst x) | subst x)
    | intro

theorem leads_execTaskSingleDelivery {F : Nat} (hF : Within 458235 F) (t' : Nat) (input : Nat) (s : State) : Leads F s (execTaskSingleDelivery t' input s) := by
  unfold execTaskSingleDelivery
  repeat' first
    | with_reducible refine .outIf _ ?_
    | with_reducible refine State.passes_act (hF.sub rfl) _ _ _ fun v => ?_
    | with_reducible refine Keeps.passes ?_
    | with_reducible exact Keeps.refl _
    | with_reducible assumption
    | with_reducible first | apply State.keeps_deliverSingle
    | with_reducible exact hF.sub rfl
    | intro

theorem State.keeps_reenter {F : Nat} {s t : State} (hF : Within 16 F) (h : Keeps F s t) : Keeps F s (t.reenter) := by
  unfold State.reenter
  repeat' first
    | with_reducible assumption
    | ((fail_if_no_progress extract_lets +onlyGivenNames x); first
      | (have g : State := x; clear g; refine Keeps.cut x ?_ ?_; (on_goal 2 => (intro _; try clear_value x)); (on_goal 1 => subst x))
      | (have g : _ → State := x; clear g; subst x) | (have g : _ → _ → State := x; clear g; subst x) | (have g : Option _ := x; clear g; subst x) | skip)
    | fail_if_no_progress (with_reducible refine Keeps.evm' (hF.sub rfl) ?_ (by with_reducible rfl))
    | refine Keeps.ofFst (by assumption) ?_
    | refine Keeps.ofSnd (by assumption) ?_
    | intro

theorem leads_execReEntry {F : Nat} (hF : Within 458235 F) (t' : Nat) (s : State) : Leads F s (execReEntry t' s) := by
  unfold execReEntry
  repeat' first
    | with_reducible refine Leads.next ?_
    | with_reducible refine State.passes_act (hF.sub rfl) _ _ _ fun v => ?_
    | with_reducible refine Keeps.passes ?_
    | with_reducible exact Keeps.refl _
    | with_reducible assumption
    | with_reducible first | apply State.keeps_reenter
    | with_reducible exact hF.sub rfl
    | intro

theorem State.keeps_sendFar {F : Nat} {s t : State} (hF : Within 445618 F) (h : Keeps F s t) : Keeps F s (t.sendFar) := by
  unfold State.sendFar
  repeat' first
    | with_reducible assumption
    | with_reducible first | apply State.keeps_acceptFar | apply State.keeps_broadcast
    | fail_if_no_progress (with_reducible refine Keeps.evm' (hF.sub rfl) ?_ (by with_reducible rfl))
    | with_reducible exact hF.sub rfl
    | split
    | refine Keeps.ofFst (by assumption) ?_
    | refine Keeps.ofSnd (by assumption) ?_
    | ((fail_if_no_progress extract_lets +onlyGivenNames x); first
      | (have g : State := x; clear g; refine Keeps.cut x ?_ ?_; (on_goal 2 => (intro _; try clear_value x)); (on_goal 1 => subst x))
      | (have g : _ → State := x; clear g; subst x) | (have g : _ → _ → State := x; clear g; subst x) | (have g : Option _ := x; clear g; subst x) | skip)
    | intro

theorem leads_execFarForkSend {F : Nat} (hF : Within 458235 F) (t' : Nat) (s : State) : Leads F s (execFarForkSend t' s) := by
  unfold execFarForkSend
  repeat' first
    | with_reducible refine Leads.next ?_
    | with_reducible refine State.passes_act (hF.sub rfl) _ _ _ fun v => ?_
    | with_reducible refine Keeps.passes ?_
    | with_reducible exact Keeps.refl _
    | with_reducible assumption
    | with_reducible first | apply State.keeps_sendFar
    | with_reducible exact hF.sub rfl
    | intro

theorem State.keeps_takeBcast {F : Nat} {s t : State} (hF : Within 445618 F) (h : Keeps F s t) (p : Nat) (f : Flit) : Keeps F s (t.takeBcast p f) := by
  unfold State.takeBcast
  repeat' first
    | with_reducible assumption
    | with_reducible refine Keeps.ite ?_ ?_
    | with_reducible first | apply State.keeps_acceptFar | apply State.keeps_log | apply State.keeps_forwardBcast
    | with_reducible exact hF.sub rfl
    | split
    | refine Keeps.ofFst (by assumption) ?_
    | refine Keeps.ofSnd (by assumption) ?_
    | ((fail_if_no_progress extract_lets +onlyGivenNames x); first
      | (have g : State := x; clear g; refine Keeps.cut x ?_ ?_; (on_goal 2 => (intro _; try clear_value x)); (on_goal 1 => subst x))
      | (have g : _ → State := x; clear g; subst x) | (have g : _ → _ → State := x; clear g; subst x) | (have g : Option _ := x; clear g; subst x) | skip)
    | intro

theorem leads_execEventBcast {F : Nat} (hF : Within 458235 F) (t' : Nat) (p : Nat) (f : Flit) (s : State) : Leads F s (execEventBcast t' p f s) := by
  unfold execEventBcast
  repeat' first
    | with_reducible refine .outIf _ ?_
    | with_reducible refine Leads.ite ?_ ?_
    | with_reducible refine State.passes_act (hF.sub rfl) _ _ _ fun v => ?_
    | with_reducible refine Keeps.passes ?_
    | with_reducible exact Keeps.refl _
    | with_reducible assumption
    | with_reducible refine Keeps.ite ?_ ?_
    | with_reducible first | apply State.keeps_takeBcast
    | with_reducible exact hF.sub rfl
    | split
    | intro

theorem State.keeps_deliverFar {F : Nat} {s t : State} (hF : Within 16 F) (h : Keeps F s t) (g : Nat) : Keeps F s (t.deliverFar g) := by
  unfold State.deliverFar
  repeat' first
    | with_reducible assumption
    | with_reducible refine Keeps.ite ?_ ?_
    | with_reducible first | apply State.keeps_assertSrc
    | fail_if_no_progress (with_reducible refine Keeps.evm' (hF.sub rfl) ?_ (by with_reducible rfl))
    | with_reducible exact hF.sub rfl
    | split
    | intro

theorem leads_execFarForkDelivery {F : Nat} (hF : Within 458235 F) (t' : Nat) (g : Nat) (s : State) : Leads F s (execFarForkDelivery t' g s) := by
  unfold execFarForkDelivery
  repeat' first
    | with_reducible refine .outIf _ ?_
    | with_reducible refine State.passes_act (hF.sub rfl) _ _ _ fun v => ?_
    | with_reducible refine Keeps.passes ?_
    | with_reducible exact Keeps.refl _
    | with_reducible assumption
    | with_reducible first | apply State.keeps_deliverFar
    | with_reducible exact hF.sub rfl
    | intro

theorem State.keeps_evioEdge {F : Nat} {s t : State} (hF : Within 16 F) (h : Keeps F s t) (j : Nat) (level : Bool) : Keeps F s (t.evioEdge j level) := by
  unfold State.evioEdge
  repeat' first
    | with_reducible assumption
    | with_reducible refine Keeps.ite ?_ ?_
    | with_reducible first | apply State.keeps_setEvio
    | with_reducible exact hF.sub rfl
    | split
    | refine Keeps.ofFst (by assumption) ?_
    | refine Keeps.ofSnd (by assumption) ?_
    | ((fail_if_no_progress extract_lets +onlyGivenNames x); first
      | (have g : State := x; clear g; refine Keeps.cut x ?_ ?_; (on_goal 2 => (intro _; try clear_value x)); (on_goal 1 => subst x))
      | (have g : _ → State := x; clear g; subst x) | (have g : _ → _ → State := x; clear g; subst x) | (have g : Option _ := x; clear g; subst x) | skip)
    | intro

theorem leads_execEvioInputEdge {F : Nat} (hF : Within 458235 F) (t' : Nat) (j : Nat) (level : Bool) (s : State) : Leads F s (execEvioInputEdge t' j level s) := by
  unfold execEvioInputEdge
  repeat' first
    | with_reducible refine .outIf _ ?_
    | with_reducible refine State.passes_act (hF.sub rfl) _ _ _ fun v => ?_
    | with_reducible refine Keeps.passes ?_
    | with_reducible exact Keeps.refl _
    | with_reducible assumption
    | with_reducible first | apply State.keeps_evioEdge
    | with_reducible exact hF.sub rfl
    | intro

theorem leads_execEvioOutput {F : Nat} (hF : Within 458235 F) (t' : Nat) (j : Nat) (s : State) : Leads F s (execEvioOutput t' j s) := by
  unfold execEvioOutput
  repeat' first
    | with_reducible refine .outIf _ ?_
    | with_reducible refine State.passes_act (hF.sub rfl) _ _ _ fun v => ?_
    | with_reducible refine Keeps.passes ?_
    | with_reducible exact Keeps.refl _
    | with_reducible assumption
    | with_reducible first | apply State.keeps_evioAct
    | with_reducible exact hF.sub rfl
    | intro

theorem leads_execPulseEnd {F : Nat} (hF : Within 458235 F) (t' : Nat) (j : Nat) (s : State) : Leads F s (execPulseEnd t' j s) := by
  unfold execPulseEnd
  repeat' first
    | with_reducible refine .outIf _ ?_
    | with_reducible refine State.passes_act (hF.sub rfl) _ _ _ fun v => ?_
    | with_reducible refine Keeps.passes ?_
    | with_reducible exact Keeps.refl _
    | with_reducible assumption
    | with_reducible first | apply State.keeps_evioEnd
    | with_reducible exact hF.sub rfl
    | intro

end Sys2Proof.Machine
end

