-- ==== Sys2Proof/Laws/MemoryCmd.lean ====
section
/-!
SUPPORT. The operations of Machine/MemoryCmd.lean: the parts of the state that each may change, and what it keeps.
-/

namespace Sys2Proof.Machine

open Sys2Proof

set_option linter.all false

theorem State.keeps_portAsks {F : Nat} {s t : State} (hF : Within 412850 F) (h : Keeps F s t) (p : Nat) (write : Bool) (a : Nat) (data : List Byte) (len : Nat) : Keeps F s (t.portAsks p write a data len) := by
  unfold State.portAsks
  repeat' first
    | with_reducible assumption
    | with_reducible refine Keeps.ite ?_ ?_
    | with_reducible first | apply State.keeps_memFault | apply State.keeps_memRequest
    | with_reducible exact hF.sub rfl
    | split
    | intro

theorem leads_execPortRequest {F : Nat} (hF : Within 458235 F) (t' : Nat) (p : Nat) (write : Bool) (addr : Nat) (data : List Byte) (len : Nat) (s : State) : Leads F s (execPortRequest t' p write addr data len s) := by
  unfold execPortRequest
  repeat' first
    | with_reducible refine .outIf _ ?_
    | with_reducible refine Leads.ite ?_ ?_
    | with_reducible refine State.passes_act (hF.sub rfl) _ _ _ fun v => ?_
    | with_reducible refine Keeps.passes ?_
    | with_reducible exact Keeps.refl _
    | with_reducible assumption
    | with_reducible refine Keeps.ite ?_ ?_
    | with_reducible first | apply State.keeps_portAsks
    | with_reducible exact hF.sub rfl
    | split
    | intro

theorem leads_execUrgencyLevel3 {F : Nat} (hF : Within 458235 F) (t' : Nat) (id : Nat) (s : State) : Leads F s (execUrgencyLevel3 t' id s) := by
  unfold execUrgencyLevel3
  repeat' first
    | with_reducible refine Leads.next ?_
    | with_reducible refine State.passes_act (hF.sub rfl) _ _ _ fun v => ?_
    | with_reducible refine Keeps.passes ?_
    | with_reducible exact Keeps.refl _
    | with_reducible assumption
    | with_reducible first | apply State.keeps_enterUrgent
    | with_reducible exact hF.sub rfl
    | intro

theorem leads_execCommandIssue {F : Nat} (hF : Within 458235 F) (t' : Nat) (q : Nat) (s : State) : Leads F s (execCommandIssue t' q s) := by
  unfold execCommandIssue
  repeat' first
    | with_reducible refine .outIf _ ?_
    | with_reducible refine State.passes_act (hF.sub rfl) _ _ _ fun v => ?_
    | with_reducible refine Keeps.passes ?_
    | with_reducible exact Keeps.refl _
    | with_reducible assumption
    | with_reducible first | apply State.keeps_memIssue
    | with_reducible exact hF.sub rfl
    | intro

theorem leads_execThrottleEnd {F : Nat} (hF : Within 458235 F) (t' : Nat) (s : State) : Leads F s (execThrottleEnd t' s) := by
  unfold execThrottleEnd
  repeat' first
    | with_reducible refine Leads.next ?_
    | with_reducible refine State.passes_act (hF.sub rfl) _ _ _ fun v => ?_
    | with_reducible refine Keeps.passes ?_
    | with_reducible exact Keeps.refl _
    | with_reducible assumption
    | with_reducible first | apply State.keeps_rhRoll
    | with_reducible exact hF.sub rfl
    | intro

theorem leads_execReadData {F : Nat} (hF : Within 17235451 F) (t' : Nat) (id : Nat) (bad : List Nat) (copyBad : List Nat) (s : State) : Leads F s (execReadData t' id bad copyBad s) := by
  unfold execReadData
  repeat' first
    | with_reducible refine Leads.next ?_
    | with_reducible refine State.passes_act (hF.sub rfl) _ _ _ fun v => ?_
    | with_reducible refine Keeps.passes ?_
    | with_reducible exact Keeps.refl _
    | with_reducible assumption
    | with_reducible first | apply State.keeps_memReturn
    | with_reducible exact hF.sub rfl
    | intro

theorem State.keeps_repairEnds {F : Nat} {s t : State} (hF : Within 2510002 F) (h : Keeps F s t) (k : Nat) : Keeps F s (t.repairEnds k) := by
  unfold State.repairEnds
  repeat' first
    | with_reducible assumption
    | with_reducible first | apply State.keeps_recordRepairs | apply State.keeps_softRepaired
    | with_reducible exact hF.sub rfl
    | split
    | refine Keeps.ofFst (by assumption) ?_
    | refine Keeps.ofSnd (by assumption) ?_
    | intro

theorem leads_execSoftRepairComplete {F : Nat} (hF : Within 2555387 F) (t' : Nat) (b : Nat) (q : Nat) (s : State) : Leads F s (execSoftRepairComplete t' b q s) := by
  unfold execSoftRepairComplete
  repeat' first
    | with_reducible refine .outIf _ ?_
    | with_reducible refine State.passes_act (hF.sub rfl) _ _ _ fun v => ?_
    | with_reducible refine Keeps.passes ?_
    | with_reducible exact Keeps.refl _
    | with_reducible assumption
    | with_reducible first | apply State.keeps_repairEnds
    | with_reducible exact hF.sub rfl
    | intro

theorem leads_execRefresh {F : Nat} (hF : Within 458235 F) (t' : Nat) (b : Nat) (q : Nat) (s : State) : Leads F s (execRefresh t' b q s) := by
  unfold execRefresh
  repeat' first
    | with_reducible refine .outIf _ ?_
    | with_reducible refine State.passes_act (hF.sub rfl) _ _ _ fun v => ?_
    | with_reducible refine Keeps.passes ?_
    | with_reducible exact Keeps.refl _
    | with_reducible assumption
    | with_reducible first | apply State.keeps_refreshDue
    | with_reducible exact hF.sub rfl
    | intro

theorem State.keeps_pageIdle {F : Nat} {s t : State} (hF : Within 2048 F) (h : Keeps F s t) (k : Nat) : Keeps F s (t.pageIdle k) := by
  unfold State.pageIdle
  repeat' first
    | with_reducible assumption
    | with_reducible refine Keeps.ite ?_ ?_
    | with_reducible first | apply State.keeps_closeRow
    | with_reducible exact hF.sub rfl
    | split
    | refine Keeps.ofFst (by assumption) ?_
    | refine Keeps.ofSnd (by assumption) ?_
    | ((fail_if_no_progress extract_lets +onlyGivenNames x); first
      | (have g : State := x; clear g; refine Keeps.cut x ?_ ?_; (on_goal 2 => (intro _; try clear_value x)); (on_goal 1 => subst x))
      | (have g : _ → State := x; clear g; subst x) | (have g : _ → _ → State := x; clear g; subst x) | (have g : Option _ := x; clear g; subst x) | skip)
    | intro

theorem leads_execPageClose {F : Nat} (hF : Within 458235 F) (t' : Nat) (b : Nat) (q : Nat) (s : State) : Leads F s (execPageClose t' b q s) := by
  unfold execPageClose
  repeat' first
    | with_reducible refine .outIf _ ?_
    | with_reducible refine State.passes_act (hF.sub rfl) _ _ _ fun v => ?_
    | with_reducible refine Keeps.passes ?_
    | with_reducible exact Keeps.refl _
    | with_reducible assumption
    | with_reducible first | apply State.keeps_pageIdle
    | with_reducible exact hF.sub rfl
    | intro

theorem leads_execSelfRefreshEntry {F : Nat} (hF : Within 458235 F) (t' : Nat) (s : State) : Leads F s (execSelfRefreshEntry t' s) := by
  unfold execSelfRefreshEntry
  repeat' first
    | with_reducible refine Leads.next ?_
    | with_reducible refine State.passes_act (hF.sub rfl) _ _ _ fun v => ?_
    | with_reducible refine Keeps.passes ?_
    | with_reducible exact Keeps.refl _
    | with_reducible assumption
    | with_reducible first | apply State.keeps_enterSelfRefresh
    | with_reducible exact hF.sub rfl
    | intro

theorem State.keeps_stackReady {F : Nat} {s t : State} (hF : Within 425138 F) (h : Keeps F s t) : Keeps F s (t.stackReady) := by
  unfold State.stackReady
  repeat' first
    | with_reducible assumption
    | with_reducible refine Keeps.ite ?_ ?_
    | with_reducible first | apply State.keeps_memWake
    | with_reducible exact hF.sub rfl
    | split
    | refine Keeps.ofFst (by assumption) ?_
    | refine Keeps.ofSnd (by assumption) ?_
    | intro

theorem leads_execSelfRefreshExit {F : Nat} (hF : Within 458235 F) (t' : Nat) (s : State) : Leads F s (execSelfRefreshExit t' s) := by
  unfold execSelfRefreshExit
  repeat' first
    | with_reducible refine Leads.next ?_
    | with_reducible refine State.passes_act (hF.sub rfl) _ _ _ fun v => ?_
    | with_reducible refine Keeps.passes ?_
    | with_reducible exact Keeps.refl _
    | with_reducible assumption
    | with_reducible first | apply State.keeps_stackReady
    | with_reducible exact hF.sub rfl
    | intro

theorem leads_execRetentionEnter {F : Nat} (hF : Within 29360127 F) (t' : Nat) (m : Nat) (v : Word) (s : State) : Leads F s (execRetentionEnter t' m v s) := by
  unfold execRetentionEnter
  repeat' first
    | with_reducible refine Leads.next ?_
    | with_reducible refine State.passes_act (hF.sub rfl) _ _ _ fun v => ?_
    | with_reducible refine Keeps.passes ?_
    | with_reducible exact Keeps.refl _
    | with_reducible assumption
    | with_reducible first | apply State.keeps_accessReg
    | with_reducible exact hF.sub rfl
    | intro

theorem leads_execRetentionExit {F : Nat} (hF : Within 29360127 F) (t' : Nat) (m : Nat) (v : Word) (s : State) : Leads F s (execRetentionExit t' m v s) := by
  unfold execRetentionExit
  repeat' first
    | with_reducible refine Leads.next ?_
    | with_reducible refine State.passes_act (hF.sub rfl) _ _ _ fun v => ?_
    | with_reducible refine Keeps.passes ?_
    | with_reducible exact Keeps.refl _
    | with_reducible assumption
    | with_reducible first | apply State.keeps_accessReg
    | with_reducible exact hF.sub rfl
    | intro

theorem leads_execTrainingRound {F : Nat} (hF : Within 458235 F) (t' : Nat) (s : State) : Leads F s (execTrainingRound t' s) := by
  unfold execTrainingRound
  repeat' first
    | with_reducible refine Leads.next ?_
    | with_reducible refine State.passes_act (hF.sub rfl) _ _ _ fun v => ?_
    | with_reducible refine Keeps.passes ?_
    | with_reducible exact Keeps.refl _
    | with_reducible assumption
    | with_reducible first | apply State.keeps_trainRound
    | with_reducible exact hF.sub rfl
    | intro

theorem leads_execFreqReq {F : Nat} (hF : Within 29360127 F) (t' : Nat) (m : Nat) (v : Word) (s : State) : Leads F s (execFreqReq t' m v s) := by
  unfold execFreqReq
  repeat' first
    | with_reducible refine Leads.next ?_
    | with_reducible refine State.passes_act (hF.sub rfl) _ _ _ fun v => ?_
    | with_reducible refine Keeps.passes ?_
    | with_reducible exact Keeps.refl _
    | with_reducible assumption
    | with_reducible first | apply State.keeps_accessReg
    | with_reducible exact hF.sub rfl
    | intro

theorem leads_execFreqSwitch {F : Nat} (hF : Within 458235 F) (t' : Nat) (s : State) : Leads F s (execFreqSwitch t' s) := by
  unfold execFreqSwitch
  repeat' first
    | with_reducible refine Leads.next ?_
    | with_reducible refine State.passes_act (hF.sub rfl) _ _ _ fun v => ?_
    | with_reducible refine Keeps.passes ?_
    | with_reducible exact Keeps.refl _
    | with_reducible assumption
    | with_reducible first | apply State.keeps_freqSwitched
    | with_reducible exact hF.sub rfl
    | intro

end Sys2Proof.Machine
end

