-- ==== Sys2Proof/Laws/WebCmd.lean ====
section
/-!
SUPPORT. The operations of Machine/WebCmd.lean: the parts of the state that each may change, and what it keeps.
-/

namespace Sys2Proof.Machine

open Sys2Proof

set_option linter.all false

theorem State.keeps_portCtl {F : Nat} {s t : State} (hF : Within 29360126 F) (h : Keeps F s t) (m : Nat) (p : Nat) (v : Word) : Keeps F s (t.portCtl m p v) := by
  unfold State.portCtl
  repeat' first
    | with_reducible assumption
    | with_reducible refine Keeps.ite ?_ ?_
    | with_reducible first | apply State.keeps_accessReg | apply State.keeps_loadReg
    | with_reducible exact hF.sub rfl
    | split
    | intro

theorem leads_execPortEnable {F : Nat} (hF : Within 29360127 F) (t' : Nat) (m : Nat) (p : Nat) (v : Word) (s : State) : Leads F s (execPortEnable t' m p v s) := by
  unfold execPortEnable
  repeat' first
    | with_reducible refine .outIf _ ?_
    | with_reducible refine State.passes_act (hF.sub rfl) _ _ _ fun v => ?_
    | with_reducible refine Keeps.passes ?_
    | with_reducible exact Keeps.refl _
    | with_reducible assumption
    | with_reducible first | apply State.keeps_portCtl
    | with_reducible exact hF.sub rfl
    | intro

theorem State.keeps_inPort {F : Nat} {s t : State} (hF : Within 0 F) (h : Keeps F s t) (p : Nat) (st : PortState) (g : State → State) (hg : Keeps F s (g t)) : Keeps F s (t.inPort p st g) := by
  unfold State.inPort
  split <;> assumption

theorem State.keeps_signalOn {F : Nat} {s t : State} (hF : Within 445618 F) (h : Keeps F s t) (p : Nat) : Keeps F s (t.signalOn p) := by
  unfold State.signalOn
  repeat' first
    | with_reducible assumption
    | with_reducible first | apply State.keeps_setPort | apply State.keeps_inPort | apply State.keeps_enterPort | apply State.keeps_lanesOn
    | with_reducible exact hF.sub rfl
    | intro

theorem leads_execSignalDetected {F : Nat} (hF : Within 458235 F) (t' : Nat) (p : Nat) (s : State) : Leads F s (execSignalDetected t' p s) := by
  unfold execSignalDetected
  repeat' first
    | with_reducible refine .outIf _ ?_
    | with_reducible refine State.passes_act (hF.sub rfl) _ _ _ fun v => ?_
    | with_reducible refine Keeps.passes ?_
    | with_reducible exact Keeps.refl _
    | with_reducible assumption
    | with_reducible first | apply State.keeps_signalOn
    | with_reducible exact hF.sub rfl
    | intro

theorem State.keeps_inPortWithin {F : Nat} {s t : State} (hF : Within 0 F) (h : Keeps F s t) (p : Nat) (st : PortState) (w : Nat)
    (g : State → State) (hg : Keeps F s (g t)) : Keeps F s (t.inPortWithin p st w g) :=
  State.keeps_inPort (hF.sub rfl) h p st _ (Keeps.ite hg h)

theorem leads_execTrainComplete {F : Nat} (hF : Within 458235 F) (t' : Nat) (p : Nat) (s : State) : Leads F s (execTrainComplete t' p s) := by
  unfold execTrainComplete
  repeat' first
    | with_reducible refine .outIf _ ?_
    | with_reducible refine State.passes_act (hF.sub rfl) _ _ _ fun v => ?_
    | with_reducible refine Keeps.passes ?_
    | with_reducible exact Keeps.refl _
    | with_reducible assumption
    | with_reducible first | apply State.keeps_inPortWithin | apply State.keeps_enterPort | apply State.keeps_rateResume
    | with_reducible exact hF.sub rfl
    | intro

theorem leads_execTrainTimeout {F : Nat} (hF : Within 458235 F) (t' : Nat) (p : Nat) (s : State) : Leads F s (execTrainTimeout t' p s) := by
  unfold execTrainTimeout
  repeat' first
    | with_reducible refine .outIf _ ?_
    | with_reducible refine Leads.ite ?_ ?_
    | with_reducible refine State.passes_act (hF.sub rfl) _ _ _ fun v => ?_
    | with_reducible refine Keeps.passes ?_
    | with_reducible exact Keeps.refl _
    | with_reducible assumption
    | with_reducible refine Keeps.ite ?_ ?_
    | with_reducible first | apply State.keeps_inPort | apply State.keeps_portRetry
    | with_reducible exact hF.sub rfl
    | split
    | intro

theorem leads_execAligned {F : Nat} (hF : Within 458235 F) (t' : Nat) (p : Nat) (skew : Nat) (count : Nat) (s : State) : Leads F s (execAligned t' p skew count s) := by
  unfold execAligned
  repeat' first
    | with_reducible refine .outIf _ ?_
    | with_reducible refine Leads.ite ?_ ?_
    | with_reducible refine State.passes_act (hF.sub rfl) _ _ _ fun v => ?_
    | with_reducible refine Keeps.passes ?_
    | with_reducible exact Keeps.refl _
    | with_reducible assumption
    | with_reducible refine Keeps.ite ?_ ?_
    | with_reducible first | apply State.keeps_inPortWithin | apply State.keeps_sendOn | apply State.keeps_enterPort | apply State.keeps_portAligned
    | with_reducible exact hF.sub rfl
    | split
    | intro

theorem leads_execAlignTimeout {F : Nat} (hF : Within 458235 F) (t' : Nat) (p : Nat) (s : State) : Leads F s (execAlignTimeout t' p s) := by
  unfold execAlignTimeout
  repeat' first
    | with_reducible refine .outIf _ ?_
    | with_reducible refine Leads.ite ?_ ?_
    | with_reducible refine State.passes_act (hF.sub rfl) _ _ _ fun v => ?_
    | with_reducible refine Keeps.passes ?_
    | with_reducible exact Keeps.refl _
    | with_reducible assumption
    | with_reducible refine Keeps.ite ?_ ?_
    | with_reducible first | apply State.keeps_inPort | apply State.keeps_enterPort
    | with_reducible exact hF.sub rfl
    | split
    | intro

theorem State.keeps_takeHello {F : Nat} {s t : State} (hF : Within 445618 F) (h : Keeps F s t) (p : Nat) (node : Nat) (port : Nat) : Keeps F s (t.takeHello p node port) := by
  unfold State.takeHello
  repeat' first
    | with_reducible assumption
    | with_reducible refine Keeps.ite ?_ ?_
    | with_reducible first | apply State.keeps_fault | apply State.keeps_stick | apply State.keeps_setPort | apply State.keeps_portFailed | apply State.keeps_portUp
    | with_reducible exact hF.sub rfl
    | split
    | refine Keeps.ofFst (by assumption) ?_
    | refine Keeps.ofSnd (by assumption) ?_
    | ((fail_if_no_progress extract_lets +onlyGivenNames x); first
      | (have g : State := x; clear g; refine Keeps.cut x ?_ ?_; (on_goal 2 => (intro _; try clear_value x)); (on_goal 1 => subst x))
      | (have g : _ → State := x; clear g; subst x) | (have g : _ → _ → State := x; clear g; subst x) | (have g : Option _ := x; clear g; subst x) | skip)
    | intro

theorem leads_execHello {F : Nat} (hF : Within 458235 F) (t' : Nat) (p : Nat) (node : Nat) (port : Nat) (rate : Nat) (spare : Bool) (s : State) : Leads F s (execHello t' p node port rate spare s) := by
  unfold execHello
  repeat' first
    | with_reducible refine .outIf _ ?_
    | with_reducible refine State.passes_act (hF.sub rfl) _ _ _ fun v => ?_
    | with_reducible refine Keeps.passes ?_
    | with_reducible exact Keeps.refl _
    | with_reducible assumption
    | with_reducible first | apply State.keeps_takeHello
    | with_reducible exact hF.sub rfl
    | intro

theorem leads_execFailedRetry {F : Nat} (hF : Within 458235 F) (t' : Nat) (p : Nat) (s : State) : Leads F s (execFailedRetry t' p s) := by
  unfold execFailedRetry
  repeat' first
    | with_reducible refine .outIf _ ?_
    | with_reducible refine Leads.ite ?_ ?_
    | with_reducible refine State.passes_act (hF.sub rfl) _ _ _ fun v => ?_
    | with_reducible refine Keeps.passes ?_
    | with_reducible exact Keeps.refl _
    | with_reducible assumption
    | with_reducible refine Keeps.ite ?_ ?_
    | with_reducible first | apply State.keeps_inPort | apply State.keeps_enterPort
    | with_reducible exact hF.sub rfl
    | split
    | intro

theorem leads_execRetrainTimeout {F : Nat} (hF : Within 458235 F) (t' : Nat) (p : Nat) (s : State) : Leads F s (execRetrainTimeout t' p s) := by
  unfold execRetrainTimeout
  repeat' first
    | with_reducible refine .outIf _ ?_
    | with_reducible refine Leads.ite ?_ ?_
    | with_reducible refine State.passes_act (hF.sub rfl) _ _ _ fun v => ?_
    | with_reducible refine Keeps.passes ?_
    | with_reducible exact Keeps.refl _
    | with_reducible assumption
    | with_reducible refine Keeps.ite ?_ ?_
    | with_reducible first | apply State.keeps_inPort | apply State.keeps_portFailed
    | with_reducible exact hF.sub rfl
    | split
    | intro

theorem State.keeps_retrainDone {F : Nat} {s t : State} (hF : Within 163842 F) (h : Keeps F s t) (p : Nat) (count : Nat) : Keeps F s (t.retrainDone p count) := by
  unfold State.retrainDone
  repeat' first
    | with_reducible assumption
    | with_reducible first | apply State.keeps_stick | apply State.keeps_setPort | apply State.keeps_portAligned | apply State.keeps_portUp | apply State.keeps_rateResume
    | with_reducible exact hF.sub rfl
    | split
    | refine Keeps.ofFst (by assumption) ?_
    | refine Keeps.ofSnd (by assumption) ?_
    | ((fail_if_no_progress extract_lets +onlyGivenNames x); first
      | (have g : State := x; clear g; refine Keeps.cut x ?_ ?_; (on_goal 2 => (intro _; try clear_value x)); (on_goal 1 => subst x))
      | (have g : _ → State := x; clear g; subst x) | (have g : _ → _ → State := x; clear g; subst x) | (have g : Option _ := x; clear g; subst x) | skip)
    | intro

theorem leads_execRetrained {F : Nat} (hF : Within 458235 F) (t' : Nat) (p : Nat) (skew : Nat) (count : Nat) (s : State) : Leads F s (execRetrained t' p skew count s) := by
  unfold execRetrained
  repeat' first
    | with_reducible refine .outIf _ ?_
    | with_reducible refine Leads.ite ?_ ?_
    | with_reducible refine State.passes_act (hF.sub rfl) _ _ _ fun v => ?_
    | with_reducible refine Keeps.passes ?_
    | with_reducible exact Keeps.refl _
    | with_reducible assumption
    | with_reducible refine Keeps.ite ?_ ?_
    | with_reducible first | apply State.keeps_inPortWithin | apply State.keeps_retrainDone
    | with_reducible exact hF.sub rfl
    | split
    | intro

theorem leads_execLossOfAlignment {F : Nat} (hF : Within 458235 F) (t' : Nat) (p : Nat) (s : State) : Leads F s (execLossOfAlignment t' p s) := by
  unfold execLossOfAlignment
  repeat' first
    | with_reducible refine .outIf _ ?_
    | with_reducible refine State.passes_act (hF.sub rfl) _ _ _ fun v => ?_
    | with_reducible refine Keeps.passes ?_
    | with_reducible exact Keeps.refl _
    | with_reducible assumption
    | with_reducible first | apply State.keeps_inPort | apply State.keeps_portRetrain
    | with_reducible exact hF.sub rfl
    | intro

theorem State.keeps_takeFlit {F : Nat} {s t : State} (hF : Within 1494194 F) (h : Keeps F s t) (p : Nat) (data : List Byte) (errs : List Nat) : Keeps F s (t.takeFlit p data errs) := by
  unfold State.takeFlit
  repeat' first
    | with_reducible assumption
    | with_reducible first | apply State.keeps_receiveFlit | apply State.keeps_takeCodeword
    | with_reducible exact hF.sub rfl
    | refine Keeps.ofFst (by assumption) ?_
    | refine Keeps.ofSnd (by assumption) ?_
    | ((fail_if_no_progress extract_lets +onlyGivenNames x); first
      | (have g : State := x; clear g; refine Keeps.cut x ?_ ?_; (on_goal 2 => (intro _; try clear_value x)); (on_goal 1 => subst x))
      | (have g : _ → State := x; clear g; subst x) | (have g : _ → _ → State := x; clear g; subst x) | (have g : Option _ := x; clear g; subst x) | skip)
    | intro

theorem leads_execFlitReceive {F : Nat} (hF : Within 1506811 F) (t' : Nat) (p : Nat) (data : List Byte) (errs : List Nat) (s : State) : Leads F s (execFlitReceive t' p data errs s) := by
  unfold execFlitReceive
  repeat' first
    | with_reducible refine .outIf _ ?_
    | with_reducible refine Leads.ite ?_ ?_
    | with_reducible refine State.passes_act (hF.sub rfl) _ _ _ fun v => ?_
    | with_reducible refine Keeps.passes ?_
    | with_reducible exact Keeps.refl _
    | with_reducible assumption
    | with_reducible refine Keeps.ite ?_ ?_
    | with_reducible first | apply State.keeps_takeFlit
    | with_reducible exact hF.sub rfl
    | split
    | intro

theorem State.keeps_replayDue {F : Nat} {s t : State} (hF : Within 445618 F) (h : Keeps F s t) (p : Nat) : Keeps F s (t.replayDue p) := by
  unfold State.replayDue
  repeat' first
    | with_reducible assumption
    | with_reducible refine Keeps.ite ?_ ?_
    | with_reducible first | apply State.keeps_replay
    | with_reducible exact hF.sub rfl
    | split
    | refine Keeps.ofFst (by assumption) ?_
    | refine Keeps.ofSnd (by assumption) ?_
    | intro

theorem leads_execReplayTimeout {F : Nat} (hF : Within 458235 F) (t' : Nat) (p : Nat) (s : State) : Leads F s (execReplayTimeout t' p s) := by
  unfold execReplayTimeout
  repeat' first
    | with_reducible refine .outIf _ ?_
    | with_reducible refine State.passes_act (hF.sub rfl) _ _ _ fun v => ?_
    | with_reducible refine Keeps.passes ?_
    | with_reducible exact Keeps.refl _
    | with_reducible assumption
    | with_reducible first | apply State.keeps_inPort | apply State.keeps_replayDue
    | with_reducible exact hF.sub rfl
    | intro

theorem leads_execFlitSend {F : Nat} (hF : Within 458235 F) (t' : Nat) (p : Nat) (s : State) : Leads F s (execFlitSend t' p s) := by
  unfold execFlitSend
  repeat' first
    | with_reducible refine .outIf _ ?_
    | with_reducible refine Leads.ite ?_ ?_
    | with_reducible refine State.passes_act (hF.sub rfl) _ _ _ fun v => ?_
    | with_reducible refine Keeps.passes ?_
    | with_reducible exact Keeps.refl _
    | with_reducible assumption
    | with_reducible refine Keeps.ite ?_ ?_
    | with_reducible first | apply State.keeps_flitSlot
    | with_reducible exact hF.sub rfl
    | split
    | intro

theorem leads_execReadReq {F : Nat} (hF : Within 17235455 F) (t' : Nat) (src : Nat) (tag : Nat) (addr : Nat) (len : Nat) (bad : Bool) (s : State) : Leads F s (execReadReq t' src tag addr len bad s) := by
  unfold execReadReq
  repeat' first
    | with_reducible refine Leads.next ?_
    | with_reducible refine State.passes_act (hF.sub rfl) _ _ _ fun v => ?_
    | with_reducible exact .refused
    | with_reducible exact State.passes_webRead (hF.sub rfl) ..
    | with_reducible refine Keeps.passes ?_
    | with_reducible exact Keeps.refl _
    | with_reducible assumption
    | with_reducible exact hF.sub rfl
    | split
    | intro

theorem leads_execWriteReq {F : Nat} (hF : Within 20971519 F) (t' : Nat) (src : Nat) (tag : Nat) (addr : Nat) (data : List Byte) (s : State) : Leads F s (execWriteReq t' src tag addr data s) := by
  unfold execWriteReq
  repeat' first
    | with_reducible refine Leads.next ?_
    | with_reducible refine State.passes_act (hF.sub rfl) _ _ _ fun v => ?_
    | with_reducible exact .refused
    | with_reducible refine Keeps.passes ?_
    | with_reducible exact Keeps.refl _
    | with_reducible assumption
    | with_reducible first | apply State.keeps_webWrite
    | with_reducible exact hF.sub rfl
    | split
    | intro

theorem leads_execEyeMeasurement {F : Nat} (hF : Within 1506811 F) (t' : Nat) (p : Nat) (l : Nat) (width : Nat) (height : Nat) (s : State) : Leads F s (execEyeMeasurement t' p l width height s) := by
  unfold execEyeMeasurement
  repeat' first
    | with_reducible refine .outIf _ ?_
    | with_reducible refine Leads.ite ?_ ?_
    | with_reducible refine State.passes_act (hF.sub rfl) _ _ _ fun v => ?_
    | with_reducible refine Keeps.passes ?_
    | with_reducible exact Keeps.refl _
    | with_reducible assumption
    | with_reducible refine Keeps.ite ?_ ?_
    | with_reducible first | apply State.keeps_measureLane
    | with_reducible exact hF.sub rfl
    | split
    | intro

theorem leads_execLossOfSignal {F : Nat} (hF : Within 1506811 F) (t' : Nat) (p : Nat) (l : Nat) (s : State) : Leads F s (execLossOfSignal t' p l s) := by
  unfold execLossOfSignal
  repeat' first
    | with_reducible refine .outIf _ ?_
    | with_reducible refine Leads.ite ?_ ?_
    | with_reducible refine State.passes_act (hF.sub rfl) _ _ _ fun v => ?_
    | with_reducible refine Keeps.passes ?_
    | with_reducible exact Keeps.refl _
    | with_reducible assumption
    | with_reducible refine Keeps.ite ?_ ?_
    | with_reducible first | apply State.keeps_laneFailed
    | with_reducible exact hF.sub rfl
    | split
    | intro

theorem State.keeps_spareWanted {F : Nat} {s t : State} (hF : Within 1081344 F) (h : Keeps F s t) (p : Nat) (lane : Nat) : Keeps F s (t.spareWanted p lane) := by
  unfold State.spareWanted
  repeat' first
    | with_reducible assumption
    | with_reducible refine Keeps.ite ?_ ?_
    | with_reducible first | apply State.keeps_setPort | apply State.keeps_markDomain
    | with_reducible exact hF.sub rfl
    | split
    | refine Keeps.ofFst (by assumption) ?_
    | refine Keeps.ofSnd (by assumption) ?_
    | ((fail_if_no_progress extract_lets +onlyGivenNames x); first
      | (have g : State := x; clear g; refine Keeps.cut x ?_ ?_; (on_goal 2 => (intro _; try clear_value x)); (on_goal 1 => subst x))
      | (have g : _ → State := x; clear g; subst x) | (have g : _ → _ → State := x; clear g; subst x) | (have g : Option _ := x; clear g; subst x) | skip)
    | intro

theorem leads_execSpareOn {F : Nat} (hF : Within 1506811 F) (t' : Nat) (p : Nat) (lane : Nat) (s : State) : Leads F s (execSpareOn t' p lane s) := by
  unfold execSpareOn
  repeat' first
    | with_reducible refine .outIf _ ?_
    | with_reducible refine State.passes_act (hF.sub rfl) _ _ _ fun v => ?_
    | with_reducible refine Keeps.passes ?_
    | with_reducible exact Keeps.refl _
    | with_reducible assumption
    | with_reducible first | apply State.keeps_inPort | apply State.keeps_spareWanted
    | with_reducible exact hF.sub rfl
    | intro

theorem State.keeps_spareReady {F : Nat} {s t : State} (hF : Within 32768 F) (h : Keeps F s t) (p : Nat) (d : Dir) (count : Nat) : Keeps F s (t.spareReady p d count) := by
  unfold State.spareReady
  repeat' first
    | with_reducible assumption
    | with_reducible refine Keeps.ite ?_ ?_
    | with_reducible first | apply State.keeps_setPort | apply State.keeps_sendOn | apply State.keeps_rateResume
    | with_reducible exact hF.sub rfl
    | split
    | refine Keeps.ofFst (by assumption) ?_
    | refine Keeps.ofSnd (by assumption) ?_
    | ((fail_if_no_progress extract_lets +onlyGivenNames x); first
      | (have g : State := x; clear g; refine Keeps.cut x ?_ ?_; (on_goal 2 => (intro _; try clear_value x)); (on_goal 1 => subst x))
      | (have g : _ → State := x; clear g; subst x) | (have g : _ → _ → State := x; clear g; subst x) | (have g : Option _ := x; clear g; subst x) | skip)
    | intro

theorem leads_execSpareTrained {F : Nat} (hF : Within 458235 F) (t' : Nat) (p : Nat) (d : Dir) (count : Nat) (s : State) : Leads F s (execSpareTrained t' p d count s) := by
  unfold execSpareTrained
  repeat' first
    | with_reducible refine .outIf _ ?_
    | with_reducible refine State.passes_act (hF.sub rfl) _ _ _ fun v => ?_
    | with_reducible refine Keeps.passes ?_
    | with_reducible exact Keeps.refl _
    | with_reducible assumption
    | with_reducible first | apply State.keeps_inPort | apply State.keeps_spareReady
    | with_reducible exact hF.sub rfl
    | intro

theorem State.keeps_swapAsked {F : Nat} {s t : State} (hF : Within 32768 F) (h : Keeps F s t) (p : Nat) (d : Dir) (lane : Nat) (count : Nat) : Keeps F s (t.swapAsked p d lane count) := by
  unfold State.swapAsked
  repeat' first
    | with_reducible assumption
    | with_reducible refine Keeps.ite ?_ ?_
    | with_reducible first | apply State.keeps_setPort | apply State.keeps_sendOn
    | with_reducible exact hF.sub rfl
    | split
    | refine Keeps.ofFst (by assumption) ?_
    | refine Keeps.ofSnd (by assumption) ?_
    | ((fail_if_no_progress extract_lets +onlyGivenNames x); first
      | (have g : State := x; clear g; refine Keeps.cut x ?_ ?_; (on_goal 2 => (intro _; try clear_value x)); (on_goal 1 => subst x))
      | (have g : _ → State := x; clear g; subst x) | (have g : _ → _ → State := x; clear g; subst x) | (have g : Option _ := x; clear g; subst x) | skip)
    | intro

theorem leads_execSwapReq {F : Nat} (hF : Within 458235 F) (t' : Nat) (p : Nat) (d : Dir) (lane : Nat) (count : Nat) (s : State) : Leads F s (execSwapReq t' p d lane count s) := by
  unfold execSwapReq
  repeat' first
    | with_reducible refine .outIf _ ?_
    | with_reducible refine State.passes_act (hF.sub rfl) _ _ _ fun v => ?_
    | with_reducible refine Keeps.passes ?_
    | with_reducible exact Keeps.refl _
    | with_reducible assumption
    | with_reducible first | apply State.keeps_inPort | apply State.keeps_swapAsked
    | with_reducible exact hF.sub rfl
    | intro

theorem State.keeps_swapAgreed {F : Nat} {s t : State} (hF : Within 32768 F) (h : Keeps F s t) (p : Nat) (d : Dir) (lane : Nat) (count : Nat) : Keeps F s (t.swapAgreed p d lane count) := by
  unfold State.swapAgreed
  repeat' first
    | with_reducible assumption
    | with_reducible refine Keeps.ite ?_ ?_
    | with_reducible first | apply State.keeps_setPort
    | with_reducible exact hF.sub rfl
    | split
    | refine Keeps.ofFst (by assumption) ?_
    | refine Keeps.ofSnd (by assumption) ?_
    | ((fail_if_no_progress extract_lets +onlyGivenNames x); first
      | (have g : State := x; clear g; refine Keeps.cut x ?_ ?_; (on_goal 2 => (intro _; try clear_value x)); (on_goal 1 => subst x))
      | (have g : _ → State := x; clear g; subst x) | (have g : _ → _ → State := x; clear g; subst x) | (have g : Option _ := x; clear g; subst x) | skip)
    | intro

theorem leads_execSwapAck {F : Nat} (hF : Within 458235 F) (t' : Nat) (p : Nat) (d : Dir) (lane : Nat) (count : Nat) (s : State) : Leads F s (execSwapAck t' p d lane count s) := by
  unfold execSwapAck
  repeat' first
    | with_reducible refine .outIf _ ?_
    | with_reducible refine State.passes_act (hF.sub rfl) _ _ _ fun v => ?_
    | with_reducible refine Keeps.passes ?_
    | with_reducible exact Keeps.refl _
    | with_reducible assumption
    | with_reducible first | apply State.keeps_inPort | apply State.keeps_swapAgreed
    | with_reducible exact hF.sub rfl
    | intro

theorem State.keeps_swapDue {F : Nat} {s t : State} (hF : Within 445618 F) (h : Keeps F s t) (p : Nat) (d : Dir) : Keeps F s (t.swapDue p d) := by
  unfold State.swapDue
  repeat' first
    | with_reducible assumption
    | with_reducible first | apply State.keeps_swapLane
    | with_reducible exact hF.sub rfl
    | split
    | refine Keeps.ofFst (by assumption) ?_
    | refine Keeps.ofSnd (by assumption) ?_
    | ((fail_if_no_progress extract_lets +onlyGivenNames x); first
      | (have g : State := x; clear g; refine Keeps.cut x ?_ ?_; (on_goal 2 => (intro _; try clear_value x)); (on_goal 1 => subst x))
      | (have g : _ → State := x; clear g; subst x) | (have g : _ → _ → State := x; clear g; subst x) | (have g : Option _ := x; clear g; subst x) | skip)
    | intro

theorem leads_execLaneSwap {F : Nat} (hF : Within 458235 F) (t' : Nat) (p : Nat) (d : Dir) (s : State) : Leads F s (execLaneSwap t' p d s) := by
  unfold execLaneSwap
  repeat' first
    | with_reducible refine .outIf _ ?_
    | with_reducible refine State.passes_act (hF.sub rfl) _ _ _ fun v => ?_
    | with_reducible refine Keeps.passes ?_
    | with_reducible exact Keeps.refl _
    | with_reducible assumption
    | with_reducible first | apply State.keeps_inPort | apply State.keeps_swapDue
    | with_reducible exact hF.sub rfl
    | intro

theorem State.keeps_eyePeriod {F : Nat} {s t : State} (hF : Within 445618 F) (h : Keeps F s t) (p : Nat) : Keeps F s (t.eyePeriod p) := by
  unfold State.eyePeriod
  repeat' first
    | with_reducible assumption
    | with_reducible refine Keeps.ite ?_ ?_
    | with_reducible first | apply State.keeps_setPort | apply State.keeps_each | apply State.keeps_eyeItem
    | with_reducible exact hF.sub rfl
    | split
    | refine Keeps.ofFst (by assumption) ?_
    | refine Keeps.ofSnd (by assumption) ?_
    | ((fail_if_no_progress extract_lets +onlyGivenNames x); first
      | (have g : State := x; clear g; refine Keeps.cut x ?_ ?_; (on_goal 2 => (intro _; try clear_value x)); (on_goal 1 => subst x))
      | (have g : _ → State := x; clear g; subst x) | (have g : _ → _ → State := x; clear g; subst x) | (have g : Option _ := x; clear g; subst x) | skip)
    | intro

theorem leads_execLinkEye {F : Nat} (hF : Within 458235 F) (t' : Nat) (p : Nat) (s : State) : Leads F s (execLinkEye t' p s) := by
  unfold execLinkEye
  repeat' first
    | with_reducible refine .outIf _ ?_
    | with_reducible refine State.passes_act (hF.sub rfl) _ _ _ fun v => ?_
    | with_reducible refine Keeps.passes ?_
    | with_reducible exact Keeps.refl _
    | with_reducible assumption
    | with_reducible first | apply State.keeps_eyePeriod
    | with_reducible exact hF.sub rfl
    | intro

theorem leads_execWebPortRateReq {F : Nat} (hF : Within 29360127 F) (t' : Nat) (m : Nat) (p : Nat) (v : Word) (s : State) : Leads F s (execWebPortRateReq t' m p v s) := by
  unfold execWebPortRateReq
  repeat' first
    | with_reducible refine .outIf _ ?_
    | with_reducible refine State.passes_act (hF.sub rfl) _ _ _ fun v => ?_
    | with_reducible refine Keeps.passes ?_
    | with_reducible exact Keeps.refl _
    | with_reducible assumption
    | with_reducible first | apply State.keeps_accessReg
    | with_reducible exact hF.sub rfl
    | intro

theorem State.keeps_rateAskedFor {F : Nat} {s t : State} (hF : Within 32768 F) (h : Keeps F s t) (p : Nat) (code : Nat) (refuse : Bool) : Keeps F s (t.rateAskedFor p code refuse) := by
  unfold State.rateAskedFor
  repeat' first
    | with_reducible assumption
    | with_reducible refine Keeps.ite ?_ ?_
    | with_reducible first | apply State.keeps_setPort | apply State.keeps_sendOn
    | with_reducible exact hF.sub rfl
    | split
    | intro

theorem leads_execRateReq {F : Nat} (hF : Within 458235 F) (t' : Nat) (p : Nat) (code : Nat) (refuse : Bool) (s : State) : Leads F s (execRateReq t' p code refuse s) := by
  unfold execRateReq
  repeat' first
    | with_reducible refine .outIf _ ?_
    | with_reducible refine State.passes_act (hF.sub rfl) _ _ _ fun v => ?_
    | with_reducible refine Keeps.passes ?_
    | with_reducible exact Keeps.refl _
    | with_reducible assumption
    | with_reducible first | apply State.keeps_inPort | apply State.keeps_rateAskedFor
    | with_reducible exact hF.sub rfl
    | intro

theorem State.keeps_rateAnswered {F : Nat} {s t : State} (hF : Within 445618 F) (h : Keeps F s t) (p : Nat) (code : Nat) : Keeps F s (t.rateAnswered p code) := by
  unfold State.rateAnswered
  repeat' first
    | with_reducible assumption
    | with_reducible refine Keeps.ite ?_ ?_
    | with_reducible first | apply State.keeps_stick | apply State.keeps_setPort | apply State.keeps_portRetrain
    | with_reducible exact hF.sub rfl
    | split
    | refine Keeps.ofFst (by assumption) ?_
    | refine Keeps.ofSnd (by assumption) ?_
    | ((fail_if_no_progress extract_lets +onlyGivenNames x); first
      | (have g : State := x; clear g; refine Keeps.cut x ?_ ?_; (on_goal 2 => (intro _; try clear_value x)); (on_goal 1 => subst x))
      | (have g : _ → State := x; clear g; subst x) | (have g : _ → _ → State := x; clear g; subst x) | (have g : Option _ := x; clear g; subst x) | skip)
    | intro

theorem leads_execRateAck {F : Nat} (hF : Within 458235 F) (t' : Nat) (p : Nat) (code : Nat) (s : State) : Leads F s (execRateAck t' p code s) := by
  unfold execRateAck
  repeat' first
    | with_reducible refine .outIf _ ?_
    | with_reducible refine State.passes_act (hF.sub rfl) _ _ _ fun v => ?_
    | with_reducible refine Keeps.passes ?_
    | with_reducible exact Keeps.refl _
    | with_reducible assumption
    | with_reducible first | apply State.keeps_inPort | apply State.keeps_rateAnswered
    | with_reducible exact hF.sub rfl
    | intro

end Sys2Proof.Machine
end

