-- ==== Sys2Proof/Laws/Mgmt.lean ====
section
/-!
SUPPORT. The operations of Machine/Mgmt.lean: the parts of the state that each may change, and what it keeps.
-/

namespace Sys2Proof.Machine

open Sys2Proof

set_option linter.all false

theorem State.keeps_setMiso {F : Nat} {s t : State} (hF : Within 65536 F) (h : Keeps F s t) (l : List Byte) : Keeps F s (t.setMiso l) := by
  unfold State.setMiso
  repeat' first
    | with_reducible assumption
    | fail_if_no_progress (with_reducible refine Keeps.jtag' (hF.sub rfl) ?_ (by with_reducible rfl))
    | intro

theorem leads_execSpiWrite {F : Nat} (hF : Within 29360127 F) (t' : Nat) (mosi : List Byte) (s : State) : Leads F s (execSpiWrite t' mosi s) := by
  unfold execSpiWrite
  have idle : Leads F s (.next (s.act t' fun s => s.setMiso [])) :=
    .next (State.passes_act (hF.sub rfl) _ _ _ fun u => (State.keeps_setMiso (hF.sub rfl) (Keeps.refl u) _).passes)
  split
  · split
    · exact idle
    · split
      · exact .refused
      · exact .next (State.passes_act (hF.sub rfl) _ _ _ fun u => (State.keeps_setMiso (hF.sub rfl)
          (State.keeps_access (hF.sub rfl) (Keeps.refl u) _ _ (State.keeps_writeAt (hF.sub rfl) (Keeps.refl u) ..)) _).passes)
  · exact idle

theorem leads_execSpiRead {F : Nat} (hF : Within 25689599 F) (t' : Nat) (mosi : List Byte) (busy : Nat) (bad : Bool) (s : State) :
    Leads F s (execSpiRead t' mosi busy bad s) := by
  unfold execSpiRead
  split
  · split
    · exact .refused
    · exact .next (State.passes_act (hF.sub rfl) _ _ _ fun u =>
        (State.passes_access (hF.sub rfl) u _ _ (State.passes_readAt (hF.sub rfl) ..)).keeps (State.keeps_setMiso (hF.sub rfl) (Keeps.refl _) _))
  · exact .next (State.passes_act (hF.sub rfl) _ _ _ fun u => (State.keeps_setMiso (hF.sub rfl) (Keeps.refl u) _).passes)

theorem leads_execIdcode {F : Nat} (hF : Within 523771 F) (t' : Nat) (trst : Bool) (s : State) : Leads F s (execIdcode t' trst s) := by
  unfold execIdcode
  repeat' first
    | with_reducible refine Leads.next ?_
    | with_reducible refine Leads.ite ?_ ?_
    | with_reducible refine State.passes_act (hF.sub rfl) _ _ _ fun v => ?_
    | with_reducible refine Keeps.passes ?_
    | with_reducible exact Keeps.refl _
    | with_reducible assumption
    | with_reducible refine Keeps.ite ?_ ?_
    | with_reducible first | apply State.keeps_tapLoad | apply State.keeps_tapCapture
    | fail_if_no_progress (with_reducible refine Keeps.jtag' (hF.sub rfl) ?_ (by with_reducible rfl))
    | with_reducible exact hF.sub rfl
    | split
    | intro

theorem leads_execBypass {F : Nat} (hF : Within 523771 F) (t' : Nat) (code : Nat) (s : State) : Leads F s (execBypass t' code s) := by
  unfold execBypass
  repeat' first
    | with_reducible refine Leads.next ?_
    | with_reducible refine Leads.ite ?_ ?_
    | with_reducible refine State.passes_act (hF.sub rfl) _ _ _ fun v => ?_
    | with_reducible refine Keeps.passes ?_
    | with_reducible exact Keeps.refl _
    | with_reducible assumption
    | with_reducible refine Keeps.ite ?_ ?_
    | with_reducible first | apply State.keeps_tapLoad | apply State.keeps_tapCapture
    | with_reducible exact hF.sub rfl
    | split
    | intro

theorem leads_execSamplePreload {F : Nat} (hF : Within 523771 F) (t' : Nat) (pins : Nat) (load : Nat) (s : State) : Leads F s (execSamplePreload t' pins load s) := by
  unfold execSamplePreload
  repeat' first
    | with_reducible refine Leads.next ?_
    | with_reducible refine State.passes_act (hF.sub rfl) _ _ _ fun v => ?_
    | with_reducible refine Keeps.passes ?_
    | with_reducible exact Keeps.refl _
    | with_reducible assumption
    | with_reducible first | apply State.keeps_tapLoad | apply State.keeps_tapCapture
    | fail_if_no_progress (with_reducible refine Keeps.jtag' (hF.sub rfl) ?_ (by with_reducible rfl))
    | with_reducible exact hF.sub rfl
    | intro

theorem leads_execExtest {F : Nat} (hF : Within 523771 F) (t' : Nat) (pins : Nat) (load : Nat) (s : State) : Leads F s (execExtest t' pins load s) := by
  unfold execExtest
  repeat' first
    | with_reducible refine Leads.next ?_
    | with_reducible refine State.passes_act (hF.sub rfl) _ _ _ fun v => ?_
    | with_reducible refine Keeps.passes ?_
    | with_reducible exact Keeps.refl _
    | with_reducible assumption
    | with_reducible first | apply State.keeps_tapDrive
    | with_reducible exact hF.sub rfl
    | intro

theorem leads_execExtestPulse {F : Nat} (hF : Within 523771 F) (t' : Nat) (pins : Nat) (load : Nat) (s : State) : Leads F s (execExtestPulse t' pins load s) := by
  unfold execExtestPulse
  repeat' first
    | with_reducible refine Leads.next ?_
    | with_reducible refine State.passes_act (hF.sub rfl) _ _ _ fun v => ?_
    | with_reducible refine Keeps.passes ?_
    | with_reducible exact Keeps.refl _
    | with_reducible assumption
    | with_reducible first | apply State.keeps_tapDrive
    | with_reducible exact hF.sub rfl
    | intro

theorem leads_execExtestTrain {F : Nat} (hF : Within 523771 F) (t' : Nat) (pins : Nat) (load : Nat) (s : State) : Leads F s (execExtestTrain t' pins load s) := by
  unfold execExtestTrain
  repeat' first
    | with_reducible refine Leads.next ?_
    | with_reducible refine State.passes_act (hF.sub rfl) _ _ _ fun v => ?_
    | with_reducible refine Keeps.passes ?_
    | with_reducible exact Keeps.refl _
    | with_reducible assumption
    | with_reducible first | apply State.keeps_tapDrive
    | with_reducible exact hF.sub rfl
    | intro

theorem leads_execHighz {F : Nat} (hF : Within 523771 F) (t' : Nat) (s : State) : Leads F s (execHighz t' s) := by
  unfold execHighz
  repeat' first
    | with_reducible refine Leads.next ?_
    | with_reducible refine State.passes_act (hF.sub rfl) _ _ _ fun v => ?_
    | with_reducible refine Keeps.passes ?_
    | with_reducible exact Keeps.refl _
    | with_reducible assumption
    | with_reducible first | apply State.keeps_tapDrive
    | with_reducible exact hF.sub rfl
    | intro

theorem leads_execClamp {F : Nat} (hF : Within 523771 F) (t' : Nat) (s : State) : Leads F s (execClamp t' s) := by
  unfold execClamp
  repeat' first
    | with_reducible refine Leads.next ?_
    | with_reducible refine State.passes_act (hF.sub rfl) _ _ _ fun v => ?_
    | with_reducible refine Keeps.passes ?_
    | with_reducible exact Keeps.refl _
    | with_reducible assumption
    | with_reducible first | apply State.keeps_tapDrive
    | with_reducible exact hF.sub rfl
    | intro

theorem State.passes_rw {F : Nat} (hF : Within 20971519 F) (t : State) (m a : Nat) (write : Bool) (v : Word) (bad : Bool) :
    Passes F t (if write then t.writeAt m a v none false else t.readAt m a bad).st := by
  split
  · exact (State.keeps_writeAt (hF.sub rfl) (Keeps.refl t) ..).passes
  · exact State.passes_readAt (hF.sub rfl) ..

theorem leads_execMgmtAccess {F : Nat} (hF : Within 29360127 F) (t' : Nat) (write : Bool) (a : Nat) (v : Word) (bad : Bool) (s : State) :
    Leads F s (execMgmtAccess t' write a v bad s) := by
  unfold execMgmtAccess
  split
  · exact .refused
  · refine .next (State.passes_act (hF.sub rfl) _ _ _ fun u => Passes.keeps ?_ (State.keeps_tapAnswer (hF.sub rfl) (Keeps.refl _) _))
    exact (State.keeps_tapLoad (hF.sub rfl) (Keeps.refl u) _).passes.trans (State.passes_access (hF.sub rfl) _ _ _ (State.passes_rw (hF.sub rfl) ..))

end Sys2Proof.Machine
end

