-- ==== Sys2Proof/Laws/Faults.lean ====
section
/-!
SUPPORT. The operations of Machine/Faults.lean: the parts of the state that each may change, and what it keeps.
-/

namespace Sys2Proof.Machine

open Sys2Proof

set_option linter.all false

theorem leads_execCapture {F : Nat} (hF : Within 458235 F) (t' : Nat) (code : Nat) (cls : Nat) (sc : Scope) (master : Nat) (access : Nat) (addr : Nat) (detail : Nat) (s : State) : Leads F s (execCapture t' code cls sc master access addr detail s) := by
  unfold execCapture
  repeat' first
    | with_reducible refine .outIf _ ?_
    | with_reducible refine State.passes_actOn (hF.sub rfl) _ _ _ fun v => ?_
    | with_reducible refine Keeps.passes ?_
    | with_reducible exact Keeps.refl _
    | with_reducible assumption
    | with_reducible first | apply State.keeps_log
    | with_reducible exact hF.sub rfl
    | intro

theorem leads_execFirmwareFault {F : Nat} (hF : Within 458235 F) (t' : Nat) (code : Nat) (cls : Nat) (sc : Scope) (master : Nat) (s : State) : Leads F s (execFirmwareFault t' code cls sc master s) := by
  unfold execFirmwareFault
  repeat' first
    | with_reducible refine .outIf _ ?_
    | with_reducible refine State.passes_actOn (hF.sub rfl) _ _ _ fun v => ?_
    | with_reducible refine Keeps.passes ?_
    | with_reducible exact Keeps.refl _
    | with_reducible assumption
    | with_reducible first | apply State.keeps_log
    | with_reducible exact hF.sub rfl
    | intro

theorem leads_execQueuedCapture {F : Nat} (hF : Within 458235 F) (t' : Nat) (s : State) : Leads F s (execQueuedCapture t' s) := by
  unfold execQueuedCapture
  repeat' first
    | with_reducible refine Leads.next ?_
    | with_reducible refine State.passes_actOn (hF.sub rfl) _ _ _ fun v => ?_
    | with_reducible refine Keeps.passes ?_
    | with_reducible exact Keeps.refl _
    | with_reducible assumption
    | with_reducible first | apply State.keeps_collect
    | with_reducible exact hF.sub rfl
    | intro

theorem State.keeps_causeEnds {F : Nat} {s t : State} (hF : Within 1474674 F) (h : Keeps F s t) (code : Nat) (sc : Scope) : Keeps F s (t.causeEnds code sc) := by
  unfold State.causeEnds
  repeat' first
    | with_reducible assumption
    | with_reducible first | apply State.keeps_clearCondition | apply State.keeps_setForce | apply State.keeps_tileRailBack | apply State.keeps_hubRailsBack
    | with_reducible exact hF.sub rfl
    | split
    | refine Keeps.ofFst (by assumption) ?_
    | refine Keeps.ofSnd (by assumption) ?_
    | ((fail_if_no_progress extract_lets +onlyGivenNames x); first
      | (have g : State := x; clear g; refine Keeps.cut x ?_ ?_; (on_goal 2 => (intro _; try clear_value x)); (on_goal 1 => subst x))
      | (have g : _ → State := x; clear g; subst x) | (have g : _ → _ → State := x; clear g; subst x) | (have g : Option _ := x; clear g; subst x) | skip)
    | intro

theorem leads_execConditionClear {F : Nat} (hF : Within 1506811 F) (t' : Nat) (code : Nat) (sc : Scope) (s : State) : Leads F s (execConditionClear t' code sc s) := by
  unfold execConditionClear
  repeat' first
    | with_reducible refine .outIf _ ?_
    | with_reducible refine Leads.ite ?_ ?_
    | with_reducible refine State.passes_actOn (hF.sub rfl) _ _ _ fun v => ?_
    | with_reducible refine Keeps.passes ?_
    | with_reducible exact Keeps.refl _
    | with_reducible assumption
    | with_reducible refine Keeps.ite ?_ ?_
    | with_reducible first | apply State.keeps_causeEnds
    | with_reducible exact hF.sub rfl
    | split
    | intro

theorem leads_execFltAck {F : Nat} (hF : Within 29360127 F) (t' : Nat) (m : Nat) (v : Word) (s : State) : Leads F s (execFltAck t' m v s) := by
  unfold execFltAck
  repeat' first
    | with_reducible refine Leads.next ?_
    | with_reducible refine State.passes_actOn (hF.sub rfl) _ _ _ fun v => ?_
    | with_reducible refine Keeps.passes ?_
    | with_reducible exact Keeps.refl _
    | with_reducible assumption
    | with_reducible first | apply State.keeps_accessReg
    | with_reducible exact hF.sub rfl
    | intro

theorem leads_execRelease {F : Nat} (hF : Within 458747 F) (t' : Nat) (sc : Scope) (s : State) : Leads F s (execRelease t' sc s) := by
  unfold execRelease
  repeat' first
    | with_reducible refine .outIf _ ?_
    | with_reducible refine State.passes_actOn (hF.sub rfl) _ _ _ fun v => ?_
    | with_reducible refine Keeps.passes ?_
    | with_reducible exact Keeps.refl _
    | with_reducible assumption
    | with_reducible first | apply State.keeps_release
    | with_reducible exact hF.sub rfl
    | intro

theorem leads_execHourlyCountStep {F : Nat} (hF : Within 458235 F) (t' : Nat) (s : State) : Leads F s (execHourlyCountStep t' s) := by
  unfold execHourlyCountStep
  repeat' first
    | with_reducible refine Leads.next ?_
    | with_reducible refine State.passes_actOn (hF.sub rfl) _ _ _ fun v => ?_
    | with_reducible refine Keeps.passes ?_
    | with_reducible exact Keeps.refl _
    | with_reducible assumption
    | with_reducible first | apply State.keeps_hourStep
    | with_reducible exact hF.sub rfl
    | intro

theorem State.keeps_safeLow {F : Nat} {s t : State} (hF : Within 17190066 F) (h : Keeps F s t) : Keeps F s (t.safeLow) := by
  unfold State.safeLow
  repeat' first
    | with_reducible assumption
    | with_reducible refine Keeps.ite ?_ ?_
    | with_reducible first | apply State.keeps_fault | apply State.keeps_freeWord | apply State.keeps_assertSrc
    | fail_if_no_progress (with_reducible refine Keeps.flt' (hF.sub rfl) ?_ (by with_reducible rfl))
    | with_reducible exact hF.sub rfl
    | split
    | refine Keeps.ofFst (by assumption) ?_
    | refine Keeps.ofSnd (by assumption) ?_
    | ((fail_if_no_progress extract_lets +onlyGivenNames x); first
      | (have g : State := x; clear g; refine Keeps.cut x ?_ ?_; (on_goal 2 => (intro _; try clear_value x)); (on_goal 1 => subst x))
      | (have g : _ → State := x; clear g; subst x) | (have g : _ → _ → State := x; clear g; subst x) | (have g : Option _ := x; clear g; subst x) | skip)
    | intro

theorem State.keeps_safeHigh {F : Nat} {s t : State} (hF : Within 131088 F) (h : Keeps F s t) : Keeps F s (t.safeHigh) := by
  unfold State.safeHigh
  repeat' first
    | with_reducible assumption
    | with_reducible refine Keeps.ite ?_ ?_
    | with_reducible first | apply State.keeps_clearCondition | apply State.keeps_assertSrc
    | fail_if_no_progress (with_reducible refine Keeps.flt' (hF.sub rfl) ?_ (by with_reducible rfl))
    | with_reducible exact hF.sub rfl
    | split
    | intro

theorem State.keeps_safePulse {F : Nat} {s t : State} (hF : Within 17190066 F) (h : Keeps F s t) (width : Nat) : Keeps F s (t.safePulse width) := by
  unfold State.safePulse
  repeat' first
    | with_reducible assumption
    | with_reducible refine Keeps.ite ?_ ?_
    | with_reducible first | apply State.keeps_safeLow | apply State.keeps_freeWord
    | with_reducible exact hF.sub rfl
    | split
    | refine Keeps.ofFst (by assumption) ?_
    | refine Keeps.ofSnd (by assumption) ?_
    | ((fail_if_no_progress extract_lets +onlyGivenNames x); first
      | (have g : State := x; clear g; refine Keeps.cut x ?_ ?_; (on_goal 2 => (intro _; try clear_value x)); (on_goal 1 => subst x))
      | (have g : _ → State := x; clear g; subst x) | (have g : _ → _ → State := x; clear g; subst x) | (have g : Option _ := x; clear g; subst x) | skip)
    | intro

theorem leads_execSafeN {F : Nat} (hF : Within 17235451 F) (t' : Nat) (width : Nat) (s : State) : Leads F s (execSafeN t' width s) := by
  unfold execSafeN
  repeat' first
    | with_reducible refine Leads.next ?_
    | with_reducible refine State.passes_actOn (hF.sub rfl) _ _ _ fun v => ?_
    | with_reducible refine Keeps.passes ?_
    | with_reducible exact Keeps.refl _
    | with_reducible assumption
    | with_reducible first | apply State.keeps_safePulse
    | with_reducible exact hF.sub rfl
    | intro

theorem leads_execSafeNRelease {F : Nat} (hF : Within 458235 F) (t' : Nat) (s : State) : Leads F s (execSafeNRelease t' s) := by
  unfold execSafeNRelease
  repeat' first
    | with_reducible refine Leads.next ?_
    | with_reducible refine State.passes_actOn (hF.sub rfl) _ _ _ fun v => ?_
    | with_reducible refine Keeps.passes ?_
    | with_reducible exact Keeps.refl _
    | with_reducible assumption
    | with_reducible first | apply State.keeps_safeHigh
    | with_reducible exact hF.sub rfl
    | intro

theorem leads_execInjectionFire {F : Nat} (hF : Within 29360127 F) (t' : Nat) (m : Nat) (j : Nat) (v : Word) (s : State) : Leads F s (execInjectionFire t' m j v s) := by
  unfold execInjectionFire
  repeat' first
    | with_reducible refine .outIf _ ?_
    | with_reducible refine State.passes_actOn (hF.sub rfl) _ _ _ fun v => ?_
    | with_reducible refine Keeps.passes ?_
    | with_reducible exact Keeps.refl _
    | with_reducible assumption
    | with_reducible first | apply State.keeps_accessReg
    | with_reducible exact hF.sub rfl
    | intro

theorem State.keeps_injected {F : Nat} {s t : State} (hF : Within 412850 F) (h : Keeps F s t) (j : Nat) : Keeps F s (t.injected j) := by
  unfold State.injected
  repeat' first
    | with_reducible assumption
    | with_reducible refine Keeps.ite ?_ ?_
    | with_reducible first | apply State.keeps_log | apply State.keeps_setInj
    | with_reducible exact hF.sub rfl
    | split
    | refine Keeps.ofFst (by assumption) ?_
    | refine Keeps.ofSnd (by assumption) ?_
    | ((fail_if_no_progress extract_lets +onlyGivenNames x); first
      | (have g : State := x; clear g; refine Keeps.cut x ?_ ?_; (on_goal 2 => (intro _; try clear_value x)); (on_goal 1 => subst x))
      | (have g : _ → State := x; clear g; subst x) | (have g : _ → _ → State := x; clear g; subst x) | (have g : Option _ := x; clear g; subst x) | skip)
    | intro

theorem leads_execInjectedDetection {F : Nat} (hF : Within 458235 F) (t' : Nat) (j : Nat) (s : State) : Leads F s (execInjectedDetection t' j s) := by
  unfold execInjectedDetection
  repeat' first
    | with_reducible refine .outIf _ ?_
    | with_reducible refine State.passes_actOn (hF.sub rfl) _ _ _ fun v => ?_
    | with_reducible refine Keeps.passes ?_
    | with_reducible exact Keeps.refl _
    | with_reducible assumption
    | with_reducible first | apply State.keeps_injected
    | with_reducible exact hF.sub rfl
    | intro

theorem leads_execInjectionClear {F : Nat} (hF : Within 29360127 F) (t' : Nat) (m : Nat) (j : Nat) (v : Word) (s : State) : Leads F s (execInjectionClear t' m j v s) := by
  unfold execInjectionClear
  repeat' first
    | with_reducible refine .outIf _ ?_
    | with_reducible refine State.passes_actOn (hF.sub rfl) _ _ _ fun v => ?_
    | with_reducible refine Keeps.passes ?_
    | with_reducible exact Keeps.refl _
    | with_reducible assumption
    | with_reducible first | apply State.keeps_accessReg
    | with_reducible exact hF.sub rfl
    | intro

theorem leads_execFirstRearm {F : Nat} (hF : Within 29360127 F) (t' : Nat) (m : Nat) (v : Word) (s : State) : Leads F s (execFirstRearm t' m v s) := by
  unfold execFirstRearm
  repeat' first
    | with_reducible refine Leads.next ?_
    | with_reducible refine State.passes_actOn (hF.sub rfl) _ _ _ fun v => ?_
    | with_reducible refine Keeps.passes ?_
    | with_reducible exact Keeps.refl _
    | with_reducible assumption
    | with_reducible first | apply State.keeps_accessReg
    | with_reducible exact hF.sub rfl
    | intro

end Sys2Proof.Machine
end

