-- ==== Sys2Proof/Laws/Calibration.lean ====
section
/-!
SUPPORT. The operations of Machine/Calibration.lean: the parts of the state that each may change, and what it keeps.
-/

namespace Sys2Proof.Machine

open Sys2Proof

set_option linter.all false

theorem State.keeps_tempRun {F : Nat} {s t : State} (hF : Within 262162 F) (h : Keeps F s t) (l : List Nat) : Keeps F s (t.tempRun l) := by
  unfold State.tempRun
  repeat' first
    | with_reducible assumption
    | with_reducible first | apply State.keeps_addRun | apply State.keeps_stick | apply State.keeps_assertSrc
    | with_reducible exact hF.sub rfl
    | intro

theorem State.keeps_tempItem {F : Nat} {s t : State} (hF : Within 412850 F) (h : Keeps F s t) (i : Nat) (temp : Nat) : Keeps F s (t.tempItem i temp) := by
  unfold State.tempItem
  repeat' first
    | with_reducible assumption
    | with_reducible first | apply State.keeps_agentItem
    | with_reducible exact hF.sub rfl
    | intro

theorem State.keeps_tempSeen {F : Nat} {s t : State} (hF : Within 262162 F) (h : Keeps F s t) (group : Bool) (i : Nat) (temp : Nat) : Keeps F s (t.tempSeen group i temp) := by
  unfold State.tempSeen
  repeat' first
    | with_reducible assumption
    | with_reducible refine Keeps.ite ?_ ?_
    | with_reducible first | apply State.keeps_setCal | apply State.keeps_tempRun
    | with_reducible exact hF.sub rfl
    | with_reducible exact id
    | split
    | refine Keeps.ofFst (by assumption) ?_
    | refine Keeps.ofSnd (by assumption) ?_
    | ((fail_if_no_progress extract_lets +onlyGivenNames x); first
      | (have g : State := x; clear g; refine Keeps.cut x ?_ ?_; (on_goal 2 => (intro _; try clear_value x)); (on_goal 1 => subst x))
      | (have g : _ → State := x; clear g; subst x) | (have g : _ → _ → State := x; clear g; subst x) | (have g : Option _ := x; clear g; subst x) | skip)
    | intro

theorem leads_execTempTrigger {F : Nat} (hF : Within 458235 F) (t' : Nat) (group : Bool) (i : Nat) (temp : Nat) (s : State) : Leads F s (execTempTrigger t' group i temp s) := by
  unfold execTempTrigger
  repeat' first
    | with_reducible refine .outIf _ ?_
    | with_reducible refine Leads.ite ?_ ?_
    | with_reducible refine State.passes_act (hF.sub rfl) _ _ _ fun v => ?_
    | with_reducible refine Keeps.passes ?_
    | with_reducible exact Keeps.refl _
    | with_reducible assumption
    | with_reducible refine Keeps.ite ?_ ?_
    | with_reducible first | apply State.keeps_tempItem | apply State.keeps_tempSeen
    | with_reducible exact hF.sub rfl
    | split
    | intro

theorem State.keeps_intervalSeen {F : Nat} {s t : State} (hF : Within 262160 F) (h : Keeps F s t) (i : Nat) : Keeps F s (t.intervalSeen i) := by
  unfold State.intervalSeen
  repeat' first
    | with_reducible assumption
    | with_reducible refine Keeps.ite ?_ ?_
    | with_reducible first | apply State.keeps_addRun
    | with_reducible exact hF.sub rfl
    | split
    | refine Keeps.ofFst (by assumption) ?_
    | refine Keeps.ofSnd (by assumption) ?_
    | ((fail_if_no_progress extract_lets +onlyGivenNames x); first
      | (have g : State := x; clear g; refine Keeps.cut x ?_ ?_; (on_goal 2 => (intro _; try clear_value x)); (on_goal 1 => subst x))
      | (have g : _ → State := x; clear g; subst x) | (have g : _ → _ → State := x; clear g; subst x) | (have g : Option _ := x; clear g; subst x) | skip)
    | intro

theorem leads_execIntervalTrigger {F : Nat} (hF : Within 458235 F) (t' : Nat) (i : Nat) (s : State) : Leads F s (execIntervalTrigger t' i s) := by
  unfold execIntervalTrigger
  repeat' first
    | with_reducible refine .outIf _ ?_
    | with_reducible refine State.passes_act (hF.sub rfl) _ _ _ fun v => ?_
    | with_reducible refine Keeps.passes ?_
    | with_reducible exact Keeps.refl _
    | with_reducible assumption
    | with_reducible first | apply State.keeps_intervalSeen
    | with_reducible exact hF.sub rfl
    | intro

theorem leads_execCalRun {F : Nat} (hF : Within 29360127 F) (t' : Nat) (m : Nat) (v : Word) (s : State) : Leads F s (execCalRun t' m v s) := by
  unfold execCalRun
  repeat' first
    | with_reducible refine Leads.next ?_
    | with_reducible refine State.passes_act (hF.sub rfl) _ _ _ fun v => ?_
    | with_reducible refine Keeps.passes ?_
    | with_reducible exact Keeps.refl _
    | with_reducible assumption
    | with_reducible first | apply State.keeps_accessReg
    | with_reducible exact hF.sub rfl
    | intro

theorem leads_execSliceStepStart {F : Nat} (hF : Within 458235 F) (t' : Nat) (tile : Nat) (s : State) : Leads F s (execSliceStepStart t' tile s) := by
  unfold execSliceStepStart
  repeat' first
    | with_reducible refine .outIf _ ?_
    | with_reducible refine State.passes_act (hF.sub rfl) _ _ _ fun v => ?_
    | with_reducible refine Keeps.passes ?_
    | with_reducible exact Keeps.refl _
    | with_reducible assumption
    | with_reducible first | apply State.keeps_startStep
    | with_reducible exact hF.sub rfl
    | intro

theorem leads_execMeasurePathStep {F : Nat} (hF : Within 458235 F) (t' : Nat) (i : Nat) (loaded : Bool) (s : State) : Leads F s (execMeasurePathStep t' i loaded s) := by
  unfold execMeasurePathStep
  repeat' first
    | with_reducible refine .outIf _ ?_
    | with_reducible refine State.passes_act (hF.sub rfl) _ _ _ fun v => ?_
    | with_reducible refine Keeps.passes ?_
    | with_reducible exact Keeps.refl _
    | with_reducible assumption
    | with_reducible first | apply State.keeps_measurePath
    | with_reducible exact hF.sub rfl
    | intro

theorem leads_execOpenOutputSlot {F : Nat} (hF : Within 458235 F) (t' : Nat) (i : Nat) (s : State) : Leads F s (execOpenOutputSlot t' i s) := by
  unfold execOpenOutputSlot
  repeat' first
    | with_reducible refine .outIf _ ?_
    | with_reducible refine State.passes_act (hF.sub rfl) _ _ _ fun v => ?_
    | with_reducible refine Keeps.passes ?_
    | with_reducible exact Keeps.refl _
    | with_reducible assumption
    | with_reducible first | apply State.keeps_openSlot
    | with_reducible exact hF.sub rfl
    | intro

theorem leads_execBridgeEnd {F : Nat} (hF : Within 458235 F) (t' : Nat) (i : Nat) (s : State) : Leads F s (execBridgeEnd t' i s) := by
  unfold execBridgeEnd
  repeat' first
    | with_reducible refine .outIf _ ?_
    | with_reducible refine State.passes_act (hF.sub rfl) _ _ _ fun v => ?_
    | with_reducible refine Keeps.passes ?_
    | with_reducible exact Keeps.refl _
    | with_reducible assumption
    | with_reducible first | apply State.keeps_bridgeEnd
    | with_reducible exact hF.sub rfl
    | intro

theorem leads_execOpenOutputSlotEnd {F : Nat} (hF : Within 458235 F) (t' : Nat) (i : Nat) (s : State) : Leads F s (execOpenOutputSlotEnd t' i s) := by
  unfold execOpenOutputSlotEnd
  repeat' first
    | with_reducible refine .outIf _ ?_
    | with_reducible refine State.passes_act (hF.sub rfl) _ _ _ fun v => ?_
    | with_reducible refine Keeps.passes ?_
    | with_reducible exact Keeps.refl _
    | with_reducible assumption
    | with_reducible first | apply State.keeps_openSlotEnd
    | with_reducible exact hF.sub rfl
    | intro

theorem leads_execSliceStepEnd {F : Nat} (hF : Within 19332603 F) (t' : Nat) (i : Nat) (qSpan : Nat) (qRange : Nat) (segMin : Nat) (temp : Nat) (corr : Int) (sel : DWord) (ladder : DWord) (short : Bool) (lost : Bool) (s : State) : Leads F s (execSliceStepEnd t' i qSpan qRange segMin temp corr sel ladder short lost s) := by
  unfold execSliceStepEnd
  repeat' first
    | with_reducible refine .outIf _ ?_
    | with_reducible refine State.passes_act (hF.sub rfl) _ _ _ fun v => ?_
    | with_reducible refine Keeps.passes ?_
    | with_reducible exact Keeps.refl _
    | with_reducible assumption
    | with_reducible first | apply State.keeps_endStep
    | with_reducible exact hF.sub rfl
    | intro

theorem State.keeps_retryStep {F : Nat} {s t : State} (hF : Within 262160 F) (h : Keeps F s t) (i : Nat) : Keeps F s (t.retryStep i) := by
  unfold State.retryStep
  repeat' first
    | with_reducible assumption
    | with_reducible refine Keeps.ite ?_ ?_
    | with_reducible first | apply State.keeps_addRun | apply State.keeps_setSlice
    | with_reducible exact hF.sub rfl
    | split
    | refine Keeps.ofFst (by assumption) ?_
    | refine Keeps.ofSnd (by assumption) ?_
    | intro

theorem leads_execDeferralRetry {F : Nat} (hF : Within 458235 F) (t' : Nat) (i : Nat) (s : State) : Leads F s (execDeferralRetry t' i s) := by
  unfold execDeferralRetry
  repeat' first
    | with_reducible refine .outIf _ ?_
    | with_reducible refine State.passes_act (hF.sub rfl) _ _ _ fun v => ?_
    | with_reducible refine Keeps.passes ?_
    | with_reducible exact Keeps.refl _
    | with_reducible assumption
    | with_reducible first | apply State.keeps_retryStep
    | with_reducible exact hF.sub rfl
    | intro

theorem leads_execCalBurn {F : Nat} (hF : Within 29360127 F) (t' : Nat) (m : Nat) (v : Word) (s : State) : Leads F s (execCalBurn t' m v s) := by
  unfold execCalBurn
  repeat' first
    | with_reducible refine Leads.next ?_
    | with_reducible refine State.passes_act (hF.sub rfl) _ _ _ fun v => ?_
    | with_reducible refine Keeps.passes ?_
    | with_reducible exact Keeps.refl _
    | with_reducible assumption
    | with_reducible first | apply State.keeps_accessReg
    | with_reducible exact hF.sub rfl
    | intro

theorem leads_execGenerationCommitted {F : Nat} (hF : Within 19332603 F) (t' : Nat) (s : State) : Leads F s (execGenerationCommitted t' s) := by
  unfold execGenerationCommitted
  repeat' first
    | with_reducible refine Leads.next ?_
    | with_reducible refine State.passes_act (hF.sub rfl) _ _ _ fun v => ?_
    | with_reducible refine Keeps.passes ?_
    | with_reducible exact Keeps.refl _
    | with_reducible assumption
    | with_reducible first | apply State.keeps_commitBurn
    | with_reducible exact hF.sub rfl
    | intro

theorem leads_execCalCouchCmd {F : Nat} (hF : Within 29360127 F) (t' : Nat) (m : Nat) (v : Word) (s : State) : Leads F s (execCalCouchCmd t' m v s) := by
  unfold execCalCouchCmd
  repeat' first
    | with_reducible refine Leads.next ?_
    | with_reducible refine State.passes_act (hF.sub rfl) _ _ _ fun v => ?_
    | with_reducible refine Keeps.passes ?_
    | with_reducible exact Keeps.refl _
    | with_reducible assumption
    | with_reducible first | apply State.keeps_accessReg
    | with_reducible exact hF.sub rfl
    | intro

theorem leads_execCouchingStart {F : Nat} (hF : Within 2555387 F) (t' : Nat) (tile : Nat) (s : State) : Leads F s (execCouchingStart t' tile s) := by
  unfold execCouchingStart
  repeat' first
    | with_reducible refine .outIf _ ?_
    | with_reducible refine State.passes_act (hF.sub rfl) _ _ _ fun v => ?_
    | with_reducible refine Keeps.passes ?_
    | with_reducible exact Keeps.refl _
    | with_reducible assumption
    | with_reducible first | apply State.keeps_startCouch
    | with_reducible exact hF.sub rfl
    | intro

theorem leads_execCouchMatch {F : Nat} (hF : Within 458235 F) (t' : Nat) (tile : Nat) (s : State) : Leads F s (execCouchMatch t' tile s) := by
  unfold execCouchMatch
  repeat' first
    | with_reducible refine .outIf _ ?_
    | with_reducible refine State.passes_act (hF.sub rfl) _ _ _ fun v => ?_
    | with_reducible refine Keeps.passes ?_
    | with_reducible exact Keeps.refl _
    | with_reducible assumption
    | with_reducible first | apply State.keeps_matchCouch
    | with_reducible exact hF.sub rfl
    | intro

theorem leads_execMatchTimeout {F : Nat} (hF : Within 458235 F) (t' : Nat) (tile : Nat) (s : State) : Leads F s (execMatchTimeout t' tile s) := by
  unfold execMatchTimeout
  repeat' first
    | with_reducible refine .outIf _ ?_
    | with_reducible refine State.passes_act (hF.sub rfl) _ _ _ fun v => ?_
    | with_reducible refine Keeps.passes ?_
    | with_reducible exact Keeps.refl _
    | with_reducible assumption
    | with_reducible first | apply State.keeps_matchFailed
    | with_reducible exact hF.sub rfl
    | intro

theorem leads_execConnect {F : Nat} (hF : Within 458235 F) (t' : Nat) (tile : Nat) (s : State) : Leads F s (execConnect t' tile s) := by
  unfold execConnect
  repeat' first
    | with_reducible refine .outIf _ ?_
    | with_reducible refine State.passes_act (hF.sub rfl) _ _ _ fun v => ?_
    | with_reducible refine Keeps.passes ?_
    | with_reducible exact Keeps.refl _
    | with_reducible assumption
    | with_reducible first | apply State.keeps_connectSpare
    | with_reducible exact hF.sub rfl
    | intro

theorem leads_execHandoverRamp {F : Nat} (hF : Within 458235 F) (t' : Nat) (tile : Nat) (s : State) : Leads F s (execHandoverRamp t' tile s) := by
  unfold execHandoverRamp
  repeat' first
    | with_reducible refine .outIf _ ?_
    | with_reducible refine State.passes_act (hF.sub rfl) _ _ _ fun v => ?_
    | with_reducible refine Keeps.passes ?_
    | with_reducible exact Keeps.refl _
    | with_reducible assumption
    | with_reducible first | apply State.keeps_handover
    | with_reducible exact hF.sub rfl
    | intro

theorem leads_execCouchRelease {F : Nat} (hF : Within 2555387 F) (t' : Nat) (tile : Nat) (s : State) : Leads F s (execCouchRelease t' tile s) := by
  unfold execCouchRelease
  repeat' first
    | with_reducible refine .outIf _ ?_
    | with_reducible refine State.passes_act (hF.sub rfl) _ _ _ fun v => ?_
    | with_reducible refine Keeps.passes ?_
    | with_reducible exact Keeps.refl _
    | with_reducible assumption
    | with_reducible first | apply State.keeps_releaseCouch
    | with_reducible exact hF.sub rfl
    | intro

theorem leads_execCouchRetry {F : Nat} (hF : Within 2555387 F) (t' : Nat) (tile : Nat) (s : State) : Leads F s (execCouchRetry t' tile s) := by
  unfold execCouchRetry
  repeat' first
    | with_reducible refine .outIf _ ?_
    | with_reducible refine State.passes_act (hF.sub rfl) _ _ _ fun v => ?_
    | with_reducible refine Keeps.passes ?_
    | with_reducible exact Keeps.refl _
    | with_reducible assumption
    | with_reducible first | apply State.keeps_retryCouch
    | with_reducible exact hF.sub rfl
    | intro

theorem leads_execWearAccumulate {F : Nat} (hF : Within 458235 F) (t' : Nat) (i : Nat) (temp : Nat) (pah : Nat) (s : State) : Leads F s (execWearAccumulate t' i temp pah s) := by
  unfold execWearAccumulate
  repeat' first
    | with_reducible refine .outIf _ ?_
    | with_reducible refine Leads.ite ?_ ?_
    | with_reducible refine State.passes_act (hF.sub rfl) _ _ _ fun v => ?_
    | with_reducible refine Keeps.passes ?_
    | with_reducible exact Keeps.refl _
    | with_reducible assumption
    | with_reducible refine Keeps.ite ?_ ?_
    | with_reducible first | apply State.keeps_accumulate
    | with_reducible exact hF.sub rfl
    | split
    | intro

theorem leads_execWearLogSave {F : Nat} (hF : Within 4652539 F) (t' : Nat) (s : State) : Leads F s (execWearLogSave t' s) := by
  unfold execWearLogSave
  repeat' first
    | with_reducible refine Leads.next ?_
    | with_reducible refine State.passes_act (hF.sub rfl) _ _ _ fun v => ?_
    | with_reducible refine Keeps.passes ?_
    | with_reducible exact Keeps.refl _
    | with_reducible assumption
    | with_reducible first | apply State.keeps_saveWear
    | with_reducible exact hF.sub rfl
    | intro

end Sys2Proof.Machine
end

