-- ==== Sys2Proof/Laws/Fields.lean ====
section
/-!
SUPPORT. Laws of bit fields and of stored fields: what a field reads as after a field is written, and which registers a write leaves alone.
-/

namespace Sys2Proof.Machine

open Sys2Proof

variable {s : State}

theorem bits_testBit (w : Word) (lo len i : Nat) : (bits w lo len).testBit i = (decide (i < len) && w.getLsbD (lo + i)) := by
  simp only [bits, Nat.testBit_mod_two_pow, Nat.testBit_shiftRight]
  rfl

theorem maskOf_getLsbD (lo len i : Nat) (h : lo + len ≤ 32) : (maskOf lo len).getLsbD i = (decide (lo ≤ i) && decide (i < lo + len)) := by
  unfold maskOf
  rw [BitVec.getLsbD_ofNat, Nat.testBit_shiftLeft, Nat.testBit_two_pow_sub_one]
  by_cases a : lo ≤ i
  · by_cases b : i < lo + len
    · have c : i < 32 := by omega
      have e : i - lo < len := by omega
      simp [a, b, c, e]
    · have e : ¬ i - lo < len := by omega
      simp [a, b, e]
  · simp [a]

theorem place_getLsbD (lo len v i : Nat) (h : lo + len ≤ 32) :
    (place lo len v).getLsbD i = (decide (lo ≤ i) && decide (i < lo + len) && v.testBit (i - lo)) := by
  unfold place
  rw [BitVec.getLsbD_ofNat, Nat.testBit_shiftLeft, Nat.testBit_mod_two_pow]
  by_cases a : lo ≤ i
  · by_cases b : i < lo + len
    · have c : i < 32 := by omega
      have e : i - lo < len := by omega
      simp [a, b, c, e]
    · have e : ¬ i - lo < len := by omega
      simp [a, b, e]
  · simp [a]

theorem setBits_getLsbD (w : Word) (lo len v i : Nat) (h : lo + len ≤ 32) :
    (setBits w lo len v).getLsbD i = if lo ≤ i ∧ i < lo + len then v.testBit (i - lo) else w.getLsbD i := by
  unfold setBits
  rw [BitVec.getLsbD_or, BitVec.getLsbD_and, BitVec.getLsbD_not, maskOf_getLsbD _ _ _ h, place_getLsbD _ _ _ _ h]
  by_cases a : lo ≤ i <;> by_cases b : i < lo + len
  · simp [a, b]
  · by_cases c : i < 32
    · simp [a, b, c]
    · simp [a, b, c, BitVec.getLsbD_of_ge w i (by omega)]
  · by_cases c : i < 32
    · simp [a, b, c]
    · simp [a, b, c, BitVec.getLsbD_of_ge w i (by omega)]
  · by_cases c : i < 32
    · simp [a, b, c]
    · simp [a, b, c, BitVec.getLsbD_of_ge w i (by omega)]

theorem bits_setBits_same (w : Word) {lo len : Nat} (v : Nat) (h : lo + len ≤ 32) : bits (setBits w lo len v) lo len = v % 2 ^ len := by
  apply Nat.eq_of_testBit_eq
  intro i
  rw [bits_testBit, setBits_getLsbD _ _ _ _ _ h, Nat.testBit_mod_two_pow]
  by_cases a : i < len <;> simp [a]

theorem bits_setBits_other (w : Word) {lo len lo' len' : Nat} (v : Nat) (h : lo + len ≤ 32) (d : lo + len ≤ lo' ∨ lo' + len' ≤ lo) :
    bits (setBits w lo len v) lo' len' = bits w lo' len' := by
  apply Nat.eq_of_testBit_eq
  intro i
  rw [bits_testBit, bits_testBit, setBits_getLsbD _ _ _ _ _ h]
  by_cases a : i < len'
  · rw [if_neg (by omega)]
  · simp [a]

theorem bits_lt (w : Word) (lo len : Nat) : bits w lo len < 2 ^ len := Nat.mod_lt _ (Nat.two_pow_pos len)

theorem State.canonical.fine (h : s.canonical) : s.kept.Fine := (State.canonical_iff s).1 h

/-! ## Stored registers -/

theorem State.rd_wr_same (h : Table.rising s.regs = true) (r : Reg) (w : Word) (i j : Nat) : (s.wr r w i j).rd r i j = w := Table.get_put_same h

theorem State.rd_wr_other (h : Table.rising s.regs = true) {r q : Reg} (w : Word) {i j k l : Nat} (n : regAddr q k l ≠ regAddr r i j) :
    (s.wr r w i j).rd q k l = s.rd q k l := Table.get_put_other n h

theorem State.fld_setFld_same (h : Table.rising s.regs = true) {f : Fld} (v i j : Nat) (g : f.lo + f.len ≤ 32) :
    (s.setFld f v i j).fld f i j = v % 2 ^ f.len := by
  unfold State.fld State.setFld
  rw [State.rd_wr_same h, bits_setBits_same _ _ g]

theorem State.fld_setFld_field (h : Table.rising s.regs = true) {f q : Fld} (v i j : Nat) (g : f.lo + f.len ≤ 32) (e : q.reg = f.reg)
    (d : f.lo + f.len ≤ q.lo ∨ q.lo + q.len ≤ f.lo) : (s.setFld f v i j).fld q i j = s.fld q i j := by
  unfold State.fld State.setFld
  rw [e, State.rd_wr_same h, bits_setBits_other _ _ g d]

theorem State.fld_setFld_other (h : Table.rising s.regs = true) {f q : Fld} (v : Nat) {i j k l : Nat} (n : regAddr q.reg k l ≠ regAddr f.reg i j) :
    (s.setFld f v i j).fld q k l = s.fld q k l := by
  unfold State.fld State.setFld
  rw [State.rd_wr_other h _ n]

theorem State.on_stick (h : Table.rising s.regs = true) {f : Fld} (i : Nat) (g : f.lo + f.len ≤ 32) (k : f.len ≠ 0) : (s.stick f i).on f i = true := by
  unfold State.on State.stick
  rw [State.fld_setFld_same h _ _ _ g, Nat.mod_eq_of_lt (Nat.one_lt_two_pow k)]
  rfl

theorem State.fld_tally (h : Table.rising s.regs = true) {f : Fld} (n i : Nat) (g : f.lo + f.len ≤ 32) :
    (s.tally f n i).fld f i = satAdd (2 ^ f.len - 1) (s.fld f i) n := by
  unfold State.tally
  rw [State.fld_setFld_same h _ _ _ g, Nat.mod_eq_of_lt]
  have := Nat.two_pow_pos f.len
  unfold satAdd
  omega

/-! ## Other keys of a table -/

theorem Table.SameBut.refl {α : Type} (l : List Nat) (t : Table α) : Table.SameBut l t t := fun _ _ _ => rfl

theorem Table.SameBut.trans {α : Type} {l : List Nat} {t u v : Table α} (h : Table.SameBut l t u) (g : Table.SameBut l u v) :
    Table.SameBut l t v := fun k n d => (g k n d).trans (h k n d)

theorem Table.SameBut.mono {α : Type} {l m : List Nat} {t u : Table α} (h : Table.SameBut l t u) (g : ∀ k ∈ l, k ∈ m) : Table.SameBut m t u :=
  fun k n d => h k (fun x => n (g k x)) d

theorem Table.SameBut.put {α : Type} [DecidableEq α] {t : Table α} (h : Table.rising t = true) (d : α) (k : Nat) (w : α) :
    Table.SameBut [k] t (Table.put d k w t) := fun m n e => Table.get_put_other (by simpa using n) h

theorem State.sameBut_setFld (h : Table.rising s.regs = true) (f : Fld) (v i j : Nat) :
    Table.SameBut [regAddr f.reg i j] s.regs (s.setFld f v i j).regs := Table.SameBut.put h _ _ _

end Sys2Proof.Machine
end

