-- ==== Sys2Proof/Laws/LinkCode.lean ====
section
/-!
SUPPORT. What crosses a link: the length of a flit's bytes, that they pass the CRC check (R265), and the receiver's place in the pair of
codewords (R259).
-/

namespace Sys2Proof.Machine

open Sys2Proof

@[simp] theorem leBytes_length (v : Nat) : ∀ n, (leBytes v n).length = n
  | 0 => rfl
  | n + 1 => by simp [leBytes, leBytes_length (v / 256) n]

/-- The number that the bytes of a number spell (R5). -/
theorem leNat_leBytes : ∀ n v, leNat (leBytes v n) = v % 256 ^ n
  | 0, v => by simp [leBytes, leNat, Nat.mod_one]
  | n + 1, v => by
    simp only [leBytes, leNat, BitVec.toNat_ofNat, leNat_leBytes n (v / 256)]
    rw [show v % 2 ^ 8 = v % 256 from rfl, Nat.pow_succ', Nat.mod_mul]

theorem flitCovered_length (f : Flit) : (flitCovered f).length = 252 := by
  simp [flitCovered, flitHeader]
  omega

/-- A flit occupies 256 bytes (R265). -/
theorem flitBytes_length (f : Flit) : (flitBytes f).length = 256 := by simp [flitBytes, flitCovered_length]

/-- The check of the CRC compares the last four bytes with the CRC of the 252 before them (R265). -/
theorem flitCrcOk_append (c : List Byte) (n : Nat) (hc : c.length = 252) (hn : n < 2 ^ 32) :
    flitCrcOk (c ++ leBytes n 4) = decide ((crc32c c).toNat = n) := by
  have t : (c ++ leBytes n 4).take 252 = c := by simp [← hc]
  have u : ((c ++ leBytes n 4).drop 252).take 4 = leBytes n 4 := by simp [← hc, List.take_of_length_le]
  rw [flitCrcOk, t, u, leNat_leBytes, Nat.mod_eq_of_lt (by omega)]

/-- What the device sends passes the check. -/
theorem flitCrcOk_flitBytes (f : Flit) : flitCrcOk (flitBytes f) = true := by
  simp [flitBytes, flitCrcOk_append _ _ (flitCovered_length f) (crc32c (flitCovered f)).isLt]

/-- A pair of codewords is five flits (R259). -/
theorem RxCode.next_place (x : RxCode) (h : x.place < 5) : x.next.place = (x.place + 1) % 5 := by
  unfold RxCode.next
  split <;> simp <;> omega

/-- A flit overlaps the first codeword of its pair at places 0 to 2 and the second one at places 2 to 4 (R260). -/
theorem RxCode.spoils_iff (x : RxCode) :
    x.spoils = ((decide (x.place ≤ 2) && x.lost0) || (decide (2 ≤ x.place) && x.lost1)) := by
  obtain ⟨c, p, a, b⟩ := x
  match p with
  | 0 | 1 | 2 => simp [RxCode.spoils]
  | p + 3 => simp [RxCode.spoils]

end Sys2Proof.Machine
end

