-- ==== Sys2Proof/Laws/StartUp.lean ====
section
/-!
SUPPORT. The operations of Machine/StartUp.lean: the parts of the state that each may change, and what it keeps.
-/

namespace Sys2Proof.Machine

open Sys2Proof

set_option linter.all false

theorem leads_execPorRelease {F : Nat} (hF : Within 1506811 F) (t' : Nat) (s : State) : Leads F s (execPorRelease t' s) := by
  unfold execPorRelease
  exact .next (.ite (State.keeps_setPwr (hF.sub rfl) (Keeps.refl s) _).passes (State.passes_act (hF.sub rfl) _ _ _ fun v => (Keeps.refl v).passes))

theorem leads_execFuseLoad {F : Nat} (hF : Within 982527 F) (t' : Nat) (s : State) : Leads F s (execFuseLoad t' s) := by
  unfold execFuseLoad
  repeat' first
    | with_reducible refine Leads.next ?_
    | with_reducible refine State.passes_act (hF.sub rfl) _ _ _ fun v => ?_
    | with_reducible refine Keeps.passes ?_
    | with_reducible exact Keeps.refl _
    | with_reducible assumption
    | with_reducible first | apply State.keeps_loadFuses
    | with_reducible exact hF.sub rfl
    | intro

theorem leads_execSlotSelection {F : Nat} (hF : Within 982527 F) (t' : Nat) (absentA : Bool) (absentB : Bool) (s : State) : Leads F s (execSlotSelection t' absentA absentB s) := by
  unfold execSlotSelection
  repeat' first
    | with_reducible refine Leads.next ?_
    | with_reducible refine State.passes_act (hF.sub rfl) _ _ _ fun v => ?_
    | with_reducible refine Keeps.passes ?_
    | with_reducible exact Keeps.refl _
    | with_reducible assumption
    | with_reducible first | apply State.keeps_selectSlot
    | with_reducible exact hF.sub rfl
    | intro

theorem leads_execVerification {F : Nat} (hF : Within 20971519 F) (t' : Nat) (s : State) : Leads F s (execVerification t' s) := by
  unfold execVerification
  repeat' first
    | with_reducible refine Leads.next ?_
    | with_reducible refine State.passes_act (hF.sub rfl) _ _ _ fun v => ?_
    | with_reducible refine Keeps.passes ?_
    | with_reducible exact Keeps.refl _
    | with_reducible assumption
    | with_reducible first | apply State.keeps_verifySlot
    | with_reducible exact hF.sub rfl
    | intro

theorem leads_execHbmTraining {F : Nat} (hF : Within 18874367 F) (t' : Nat) (s : State) : Leads F s (execHbmTraining t' s) := by
  unfold execHbmTraining
  repeat' first
    | with_reducible refine Leads.next ?_
    | with_reducible refine State.passes_act (hF.sub rfl) _ _ _ fun v => ?_
    | with_reducible refine Keeps.passes ?_
    | with_reducible exact Keeps.refl _
    | with_reducible assumption
    | with_reducible first | apply State.keeps_trainHbm
    | with_reducible exact hF.sub rfl
    | intro

theorem leads_execWebTraining {F : Nat} (hF : Within 982527 F) (t' : Nat) (s : State) : Leads F s (execWebTraining t' s) := by
  unfold execWebTraining
  repeat' first
    | with_reducible refine Leads.next ?_
    | with_reducible refine State.passes_act (hF.sub rfl) _ _ _ fun v => ?_
    | with_reducible refine Keeps.passes ?_
    | with_reducible exact Keeps.refl _
    | with_reducible assumption
    | with_reducible first | apply State.keeps_endWebTraining
    | with_reducible exact hF.sub rfl
    | intro

theorem leads_execTilePowerUp {F : Nat} (hF : Within 18808315 F) (t' : Nat) (s : State) : Leads F s (execTilePowerUp t' s) := by
  unfold execTilePowerUp
  repeat' first
    | with_reducible refine Leads.next ?_
    | with_reducible refine State.passes_act (hF.sub rfl) _ _ _ fun v => ?_
    | with_reducible refine Keeps.passes ?_
    | with_reducible exact Keeps.refl _
    | with_reducible assumption
    | with_reducible first | apply State.keeps_powerTiles
    | with_reducible exact hF.sub rfl
    | intro

theorem leads_execStartUpRun {F : Nat} (hF : Within 19856895 F) (t' : Nat) (s : State) : Leads F s (execStartUpRun t' s) := by
  unfold execStartUpRun
  repeat' first
    | with_reducible refine Leads.next ?_
    | with_reducible refine State.passes_act (hF.sub rfl) _ _ _ fun v => ?_
    | with_reducible refine Keeps.passes ?_
    | with_reducible exact Keeps.refl _
    | with_reducible assumption
    | with_reducible first | apply State.keeps_endStartUpRun
    | with_reducible exact hF.sub rfl
    | intro

theorem leads_execRunningEntry {F : Nat} (hF : Within 982527 F) (t' : Nat) (s : State) : Leads F s (execRunningEntry t' s) := by
  unfold execRunningEntry
  repeat' first
    | with_reducible refine Leads.next ?_
    | with_reducible refine State.passes_act (hF.sub rfl) _ _ _ fun v => ?_
    | with_reducible refine Keeps.passes ?_
    | with_reducible exact Keeps.refl _
    | with_reducible assumption
    | with_reducible first | apply State.keeps_enterRunning
    | with_reducible exact hF.sub rfl
    | intro

theorem leads_execFlashRead {F : Nat} (hF : Within 29360127 F) (t' : Nat) (m : Nat) (v : Word) (s : State) : Leads F s (execFlashRead t' m v s) := by
  unfold execFlashRead
  repeat' first
    | with_reducible refine Leads.next ?_
    | with_reducible refine State.passes_act (hF.sub rfl) _ _ _ fun v => ?_
    | with_reducible refine Keeps.passes ?_
    | with_reducible exact Keeps.refl _
    | with_reducible assumption
    | with_reducible first | apply State.keeps_accessReg
    | with_reducible exact hF.sub rfl
    | intro

theorem leads_execFlashProgram {F : Nat} (hF : Within 29360127 F) (t' : Nat) (m : Nat) (v : Word) (s : State) : Leads F s (execFlashProgram t' m v s) := by
  unfold execFlashProgram
  repeat' first
    | with_reducible refine Leads.next ?_
    | with_reducible refine State.passes_act (hF.sub rfl) _ _ _ fun v => ?_
    | with_reducible refine Keeps.passes ?_
    | with_reducible exact Keeps.refl _
    | with_reducible assumption
    | with_reducible first | apply State.keeps_accessReg
    | with_reducible exact hF.sub rfl
    | intro

theorem leads_execFlashErase {F : Nat} (hF : Within 29360127 F) (t' : Nat) (m : Nat) (v : Word) (s : State) : Leads F s (execFlashErase t' m v s) := by
  unfold execFlashErase
  repeat' first
    | with_reducible refine Leads.next ?_
    | with_reducible refine State.passes_act (hF.sub rfl) _ _ _ fun v => ?_
    | with_reducible refine Keeps.passes ?_
    | with_reducible exact Keeps.refl _
    | with_reducible assumption
    | with_reducible first | apply State.keeps_accessReg
    | with_reducible exact hF.sub rfl
    | intro

theorem leads_execReboot {F : Nat} (hF : Within 29360127 F) (t' : Nat) (m : Nat) (v : Word) (s : State) : Leads F s (execReboot t' m v s) := by
  unfold execReboot
  repeat' first
    | with_reducible refine Leads.next ?_
    | with_reducible refine State.passes_act (hF.sub rfl) _ _ _ fun v => ?_
    | with_reducible refine Keeps.passes ?_
    | with_reducible exact Keeps.refl _
    | with_reducible assumption
    | with_reducible first | apply State.keeps_accessReg
    | with_reducible exact hF.sub rfl
    | intro

theorem leads_execFlashCommandComplete {F : Nat} (hF : Within 5176827 F) (t' : Nat) (error : Bool) (s : State) : Leads F s (execFlashCommandComplete t' error s) := by
  unfold execFlashCommandComplete
  repeat' first
    | with_reducible refine Leads.next ?_
    | with_reducible refine State.passes_act (hF.sub rfl) _ _ _ fun v => ?_
    | with_reducible refine Keeps.passes ?_
    | with_reducible exact Keeps.refl _
    | with_reducible assumption
    | with_reducible first | apply State.keeps_flashDone
    | with_reducible exact hF.sub rfl
    | intro

theorem leads_execCoreFailed {F : Nat} (hF : Within 2031099 F) (t' : Nat) (k : Nat) (s : State) : Leads F s (execCoreFailed t' k s) := by
  unfold execCoreFailed
  repeat' first
    | with_reducible refine .outIf _ ?_
    | with_reducible refine State.passes_act (hF.sub rfl) _ _ _ fun v => ?_
    | with_reducible refine Keeps.passes ?_
    | with_reducible exact Keeps.refl _
    | with_reducible assumption
    | with_reducible first | apply State.keeps_coreFails
    | with_reducible exact hF.sub rfl
    | intro

theorem leads_execCoreTakesDuty {F : Nat} (hF : Within 982523 F) (t' : Nat) (k : Nat) (duty : Nat) (s : State) : Leads F s (execCoreTakesDuty t' k duty s) := by
  unfold execCoreTakesDuty
  repeat' first
    | with_reducible refine .outIf _ ?_
    | with_reducible refine State.passes_act (hF.sub rfl) _ _ _ fun v => ?_
    | with_reducible refine Keeps.passes ?_
    | with_reducible exact Keeps.refl _
    | with_reducible assumption
    | with_reducible first | apply State.keeps_takeDuty
    | with_reducible exact hF.sub rfl
    | intro

theorem leads_execCoreRestart {F : Nat} (hF : Within 982523 F) (t' : Nat) (s : State) : Leads F s (execCoreRestart t' s) := by
  unfold execCoreRestart
  repeat' first
    | with_reducible refine Leads.next ?_
    | with_reducible refine State.passes_act (hF.sub rfl) _ _ _ fun v => ?_
    | with_reducible refine Keeps.passes ?_
    | with_reducible exact Keeps.refl _
    | with_reducible assumption
    | with_reducible first | apply State.keeps_coreRestarted
    | with_reducible exact hF.sub rfl
    | intro

theorem leads_execDoorbell {F : Nat} (hF : Within 21429755 F) (t' : Nat) (j : Nat) (s : State) : Leads F s (execDoorbell t' j s) := by
  unfold execDoorbell
  repeat' first
    | with_reducible refine .outIf _ ?_
    | with_reducible refine State.passes_act (hF.sub rfl) _ _ _ fun v => ?_
    | with_reducible refine Keeps.passes ?_
    | with_reducible exact Keeps.refl _
    | with_reducible assumption
    | with_reducible first | apply State.keeps_takeDoorbell
    | with_reducible exact hF.sub rfl
    | intro

theorem leads_execAmendSeg {F : Nat} (hF : Within 982523 F) (t' : Nat) (src : Nat) (tag : Nat) (off : Nat) (data : List Byte) (s : State) : Leads F s (execAmendSeg t' src tag off data s) := by
  unfold execAmendSeg
  repeat' first
    | with_reducible refine Leads.next ?_
    | with_reducible refine Leads.ite ?_ ?_
    | with_reducible refine State.passes_act (hF.sub rfl) _ _ _ fun v => ?_
    | with_reducible refine Keeps.passes ?_
    | with_reducible exact Keeps.refl _
    | with_reducible assumption
    | with_reducible refine Keeps.ite ?_ ?_
    | with_reducible first | apply State.keeps_amendSegment
    | with_reducible exact hF.sub rfl
    | split
    | intro

theorem leads_execStaged {F : Nat} (hF : Within 3079679 F) (t' : Nat) (s : State) : Leads F s (execStaged t' s) := by
  unfold execStaged
  repeat' first
    | with_reducible refine Leads.next ?_
    | with_reducible refine State.passes_act (hF.sub rfl) _ _ _ fun v => ?_
    | with_reducible refine Keeps.passes ?_
    | with_reducible exact Keeps.refl _
    | with_reducible assumption
    | with_reducible first | apply State.keeps_stage
    | with_reducible exact hF.sub rfl
    | intro

theorem leads_execAmendTimeout {F : Nat} (hF : Within 982523 F) (t' : Nat) (s : State) : Leads F s (execAmendTimeout t' s) := by
  unfold execAmendTimeout
  repeat' first
    | with_reducible refine Leads.next ?_
    | with_reducible refine State.passes_act (hF.sub rfl) _ _ _ fun v => ?_
    | with_reducible refine Keeps.passes ?_
    | with_reducible exact Keeps.refl _
    | with_reducible assumption
    | with_reducible first | apply State.keeps_amendTimeout
    | with_reducible exact hF.sub rfl
    | intro

theorem leads_execAbort {F : Nat} (hF : Within 29360127 F) (t' : Nat) (m : Nat) (v : Word) (s : State) : Leads F s (execAbort t' m v s) := by
  unfold execAbort
  repeat' first
    | with_reducible refine Leads.next ?_
    | with_reducible refine State.passes_act (hF.sub rfl) _ _ _ fun v => ?_
    | with_reducible refine Keeps.passes ?_
    | with_reducible exact Keeps.refl _
    | with_reducible assumption
    | with_reducible first | apply State.keeps_accessReg
    | with_reducible exact hF.sub rfl
    | intro

theorem leads_execAmendmentBoundary {F : Nat} (hF : Within 19856895 F) (t' : Nat) (s : State) : Leads F s (execAmendmentBoundary t' s) := by
  unfold execAmendmentBoundary
  repeat' first
    | with_reducible refine Leads.next ?_
    | with_reducible refine State.passes_act (hF.sub rfl) _ _ _ fun v => ?_
    | with_reducible refine Keeps.passes ?_
    | with_reducible exact Keeps.refl _
    | with_reducible assumption
    | with_reducible first | apply State.keeps_amendBoundary
    | with_reducible exact hF.sub rfl
    | intro

theorem leads_execSlotWrite {F : Nat} (hF : Within 5176827 F) (t' : Nat) (s : State) : Leads F s (execSlotWrite t' s) := by
  unfold execSlotWrite
  repeat' first
    | with_reducible refine Leads.next ?_
    | with_reducible refine State.passes_act (hF.sub rfl) _ _ _ fun v => ?_
    | with_reducible refine Keeps.passes ?_
    | with_reducible exact Keeps.refl _
    | with_reducible assumption
    | with_reducible first | apply State.keeps_slotWriteStart
    | with_reducible exact hF.sub rfl
    | intro

theorem leads_execSlotWriteComplete {F : Nat} (hF : Within 5176827 F) (t' : Nat) (error : Bool) (s : State) : Leads F s (execSlotWriteComplete t' error s) := by
  unfold execSlotWriteComplete
  repeat' first
    | with_reducible refine Leads.next ?_
    | with_reducible refine State.passes_act (hF.sub rfl) _ _ _ fun v => ?_
    | with_reducible refine Keeps.passes ?_
    | with_reducible exact Keeps.refl _
    | with_reducible assumption
    | with_reducible first | apply State.keeps_slotWriteEnd
    | with_reducible exact hF.sub rfl
    | intro

theorem leads_execAttestReq {F : Nat} (hF : Within 982523 F) (t' : Nat) (src : Nat) (tag : Nat) (nonce : BitVec 256) (s : State) : Leads F s (execAttestReq t' src tag nonce s) := by
  unfold execAttestReq
  repeat' first
    | with_reducible refine Leads.next ?_
    | with_reducible refine Leads.ite ?_ ?_
    | with_reducible refine State.passes_act (hF.sub rfl) _ _ _ fun v => ?_
    | with_reducible refine Keeps.passes ?_
    | with_reducible exact Keeps.refl _
    | with_reducible assumption
    | with_reducible refine Keeps.ite ?_ ?_
    | with_reducible first | apply State.keeps_attestRequest
    | with_reducible exact hF.sub rfl
    | split
    | intro

theorem leads_execAttestRsp {F : Nat} (hF : Within 17759739 F) (t' : Nat) (s : State) : Leads F s (execAttestRsp t' s) := by
  unfold execAttestRsp
  repeat' first
    | with_reducible refine Leads.next ?_
    | with_reducible refine State.passes_act (hF.sub rfl) _ _ _ fun v => ?_
    | with_reducible refine Keeps.passes ?_
    | with_reducible exact Keeps.refl _
    | with_reducible assumption
    | with_reducible first | apply State.keeps_attestAnswer
    | with_reducible exact hF.sub rfl
    | intro

theorem State.passes_windowAccess {F : Nat} (hF : Within 29360127 F) (t : State) (m node : Nat) (write : Bool) (a : Nat) (v : Word) : Passes F t (t.windowAccess m node write a v) := by
  unfold State.windowAccess
  split
  · exact (Keeps.refl t).passes
  · refine State.passes_access (hF.sub rfl) _ _ _ ?_
    split
    · exact (Keeps.refl t).passes
    · exact State.passes_rw (hF.sub rfl) ..

theorem leads_execForerunnerWindowAccess {F : Nat} (hF : Within 29360127 F) (t' m node : Nat) (write : Bool) (a : Nat) (v : Word) (s : State) :
    Leads F s (execForerunnerWindowAccess t' m node write a v s) := by
  unfold execForerunnerWindowAccess
  split
  · exact .refused
  · exact .next (State.passes_act (hF.sub rfl) _ _ _ fun u => State.passes_windowAccess (hF.sub rfl) ..)

end Sys2Proof.Machine
end

