-- ==== Sys2Proof/Laws/Power.lean ====
section
/-!
SUPPORT. The operations of Machine/Power.lean: the parts of the state that each may change, and what it keeps.
-/

namespace Sys2Proof.Machine

open Sys2Proof

set_option linter.all false

theorem leads_execSupplyTile {F : Nat} (hF : Within 1506811 F) (t' : Nat) (tile : Nat) (s : State) : Leads F s (execSupplyTile t' tile s) := by
  unfold execSupplyTile
  repeat' first
    | with_reducible refine .outIf _ ?_
    | with_reducible refine State.passes_actOn (hF.sub rfl) _ _ _ fun v => ?_
    | with_reducible refine Keeps.passes ?_
    | with_reducible exact Keeps.refl _
    | with_reducible assumption
    | with_reducible first | apply State.keeps_tileRailLost
    | with_reducible exact hF.sub rfl
    | intro

theorem leads_execTileDomainsOff {F : Nat} (hF : Within 20381691 F) (t' : Nat) (tile : Nat) (within : Bool) (s : State) : Leads F s (execTileDomainsOff t' tile within s) := by
  unfold execTileDomainsOff
  repeat' first
    | with_reducible refine .outIf _ ?_
    | with_reducible refine State.passes_actOn (hF.sub rfl) _ _ _ fun v => ?_
    | with_reducible refine Keeps.passes ?_
    | with_reducible exact Keeps.refl _
    | with_reducible assumption
    | with_reducible first | apply State.keeps_tileDomainsOff
    | with_reducible exact hF.sub rfl
    | intro

theorem leads_execSupplyHub {F : Nat} (hF : Within 10485759 F) (t rail : Nat) (s : State) (h : rail ≠ 2) : Leads F s (execSupplyHub t rail s) :=
  .outIf _ (State.passes_actOn (hF.sub rfl) _ _ _ fun v => (State.keeps_hubRailLost (hF.sub rfl) (Keeps.refl v) rail h).passes)

theorem leads_execHubRestart {F : Nat} (hF : Within 1506811 F) (t' : Nat) (s : State) : Leads F s (execHubRestart t' s) := by
  unfold execHubRestart
  repeat' first
    | with_reducible refine Leads.next ?_
    | with_reducible refine State.passes_actOn (hF.sub rfl) _ _ _ fun v => ?_
    | with_reducible refine Keeps.passes ?_
    | with_reducible exact Keeps.refl _
    | with_reducible assumption
    | with_reducible first | apply State.keeps_hubRestart
    | with_reducible exact hF.sub rfl
    | intro

theorem leads_execPowerMeasurement {F : Nat} (hF : Within 1506811 F) (t' : Nat) (mw : Nat) (tiles : List Nat) (stack : Nat) (hub : Nat) (s : State) : Leads F s (execPowerMeasurement t' mw tiles stack hub s) := by
  unfold execPowerMeasurement
  repeat' first
    | with_reducible refine Leads.next ?_
    | with_reducible refine State.passes_act (hF.sub rfl) _ _ _ fun v => ?_
    | with_reducible refine Keeps.passes ?_
    | with_reducible exact Keeps.refl _
    | with_reducible assumption
    | with_reducible first | apply State.keeps_measurePower
    | with_reducible exact hF.sub rfl
    | intro

theorem leads_execDeviceStep {F : Nat} (hF : Within 1506811 F) (t' : Nat) (s : State) : Leads F s (execDeviceStep t' s) := by
  unfold execDeviceStep
  repeat' first
    | with_reducible refine Leads.next ?_
    | with_reducible refine State.passes_act (hF.sub rfl) _ _ _ fun v => ?_
    | with_reducible refine Keeps.passes ?_
    | with_reducible exact Keeps.refl _
    | with_reducible assumption
    | with_reducible first | apply State.keeps_deviceStep
    | with_reducible exact hF.sub rfl
    | intro

theorem leads_execTileStep {F : Nat} (hF : Within 1506811 F) (t' : Nat) (tile : Nat) (s : State) : Leads F s (execTileStep t' tile s) := by
  unfold execTileStep
  repeat' first
    | with_reducible refine .outIf _ ?_
    | with_reducible refine State.passes_act (hF.sub rfl) _ _ _ fun v => ?_
    | with_reducible refine Keeps.passes ?_
    | with_reducible exact Keeps.refl _
    | with_reducible assumption
    | with_reducible first | apply State.keeps_tileStep
    | with_reducible exact hF.sub rfl
    | intro

theorem leads_execStepRelease {F : Nat} (hF : Within 1506811 F) (t' : Nat) (tile : Option Nat) (s : State) : Leads F s (execStepRelease t' tile s) := by
  unfold execStepRelease
  repeat' first
    | with_reducible refine .outIf _ ?_
    | with_reducible refine State.passes_act (hF.sub rfl) _ _ _ fun v => ?_
    | with_reducible refine Keeps.passes ?_
    | with_reducible exact Keeps.refl _
    | with_reducible assumption
    | with_reducible first | apply State.keeps_releaseStep
    | with_reducible exact hF.sub rfl
    | intro

theorem leads_execDomainOn {F : Nat} (hF : Within 29360127 F) (t' : Nat) (m : Nat) (v : Word) (s : State) : Leads F s (execDomainOn t' m v s) := by
  unfold execDomainOn
  repeat' first
    | with_reducible refine Leads.next ?_
    | with_reducible refine State.passes_act (hF.sub rfl) _ _ _ fun v => ?_
    | with_reducible refine Keeps.passes ?_
    | with_reducible exact Keeps.refl _
    | with_reducible assumption
    | with_reducible first | apply State.keeps_accessReg
    | with_reducible exact hF.sub rfl
    | intro

theorem leads_execDomainOff {F : Nat} (hF : Within 29360127 F) (t' : Nat) (m : Nat) (v : Word) (s : State) : Leads F s (execDomainOff t' m v s) := by
  unfold execDomainOff
  repeat' first
    | with_reducible refine Leads.next ?_
    | with_reducible refine State.passes_act (hF.sub rfl) _ _ _ fun v => ?_
    | with_reducible refine Keeps.passes ?_
    | with_reducible exact Keeps.refl _
    | with_reducible assumption
    | with_reducible first | apply State.keeps_accessReg
    | with_reducible exact hF.sub rfl
    | intro

theorem leads_execSliceGroupPowered {F : Nat} (hF : Within 1506811 F) (t' : Nat) (d : Nat) (s : State) : Leads F s (execSliceGroupPowered t' d s) := by
  unfold execSliceGroupPowered
  repeat' first
    | with_reducible refine .outIf _ ?_
    | with_reducible refine State.passes_act (hF.sub rfl) _ _ _ fun v => ?_
    | with_reducible refine Keeps.passes ?_
    | with_reducible exact Keeps.refl _
    | with_reducible assumption
    | with_reducible first | apply State.keeps_groupPowered
    | with_reducible exact hF.sub rfl
    | intro

end Sys2Proof.Machine
end

