-- ==== Sys2Proof/Laws/Memory.lean ====
section
/-!
SUPPORT. Memory: every operation that writes HBM, flash, fuses or vat SRAM keeps the canonical form, and what a read gives after a write.
-/

namespace Sys2Proof.Machine

open Sys2Proof

variable {s : State}

theorem Memory.wf_iff (s : State) : Memory.wf s = true ↔
    Table.wf s.hbmDefault s.hbm = true ∧ Table.wf (fun _ => flashDefault) s.flash = true ∧ Table.wf (fun _ => (0 : Word)) s.fuses = true ∧
      Table.wf (fun _ => (0 : Nat)) s.losses = true ∧ Table.rising s.vat = true := by
  simp [Memory.wf, and_assoc]

theorem Memory.wf_reset : Memory.wf State.reset = true := rfl

theorem Memory.wf_setHbm (h : Memory.wf s = true) (a : Nat) (b : Byte) : Memory.wf (s.setHbm a b) = true := by
  rw [Memory.wf_iff] at h ⊢
  exact ⟨Table.wf_put h.1, h.2⟩

theorem Memory.wf_writeHbm (l : List Byte) : ∀ {s : State} (_ : Memory.wf s = true) (a : Nat), Memory.wf (s.writeHbm a l) = true := by
  induction l with
  | nil => exact fun h _ => h
  | cons b l ih => exact fun h a => ih (Memory.wf_setHbm h a b) (a + 1)

theorem Memory.wf_memWrite (l : List Byte) : ∀ {s : State} (_ : Memory.wf s = true) (a : Nat), Memory.wf (s.memWrite a l) = true := by
  induction l with
  | nil => exact fun h _ => h
  | cons b l ih =>
    intro s h a
    unfold State.memWrite
    dsimp only
    split
    · exact ih (Memory.wf_setHbm (Memory.wf_setHbm h a b) _ b) (a + 1)
    · exact ih (Memory.wf_setHbm h a b) (a + 1)

theorem Memory.wf_burnFuse (h : Memory.wf s = true) (i : Nat) (w : Word) : Memory.wf (s.burnFuse i w) = true := by
  rw [Memory.wf_iff] at h ⊢
  exact ⟨h.1, h.2.1, Table.wf_put (d := fun _ => (0 : Word)) h.2.2.1, h.2.2.2⟩

theorem Memory.wf_setFlash (h : Memory.wf s = true) (k a : Nat) (b : Byte) : Memory.wf (s.setFlash k a b) = true := by
  rw [Memory.wf_iff] at h ⊢
  exact ⟨h.1, Table.wf_put (d := fun _ => flashDefault) h.2.1, h.2.2⟩

theorem Memory.wf_writeFlash (l : List Byte) : ∀ {s : State} (_ : Memory.wf s = true) (k a : Nat), Memory.wf (s.writeFlash k a l) = true := by
  induction l with
  | nil => exact fun h _ _ => h
  | cons b l ih => exact fun h k a => ih (Memory.wf_setFlash h k a b) k (a + 1)

/-- What any operation does to the memories of a canonical state, told by its `Keeps` law. -/
theorem Keeps.memory {F : Nat} {s t : State} (h : Keeps F s t) (c : s.canonical) : Memory.wf t = true := (h.fine c).1

theorem Memory.wf_loseBanks (h : s.canonical) : Memory.wf s.loseBanks = true :=
  (State.keeps_loseBanks (Within.refl _) (Keeps.refl s)).memory h

theorem Memory.wf_writeVat (h : s.canonical) (m a : Nat) (l : List Byte) : Memory.wf (s.writeVat m a l).st = true :=
  (State.keeps_writeVat (Within.refl _) (Keeps.refl s) m a l).memory h

/-! ## Reads after writes -/

theorem State.setHbm_same (h : Table.rising s.hbm = true) (a : Nat) (b : Byte) : Table.get (s.hbmDefault a) a (s.setHbm a b).hbm = b :=
  Table.get_put_same h

theorem State.setHbm_other (h : Table.rising s.hbm = true) {a c : Nat} (b : Byte) (n : c ≠ a) (d : Byte) :
    Table.get d c (s.setHbm a b).hbm = Table.get d c s.hbm :=
  Table.get_put_other n h

theorem State.flashByte_setFlash (h : Table.rising s.flash = true) (k a : Nat) (b : Byte) : (s.setFlash k a b).flashByte k a = b :=
  Table.get_put_same h

theorem State.flashByte_setFlash_other (h : Table.rising s.flash = true) {k a j c : Nat} (b : Byte) (n : flashKey j c ≠ flashKey k a) :
    (s.setFlash k a b).flashByte j c = s.flashByte j c :=
  Table.get_put_other n h

end Sys2Proof.Machine
end

