-- ==== Sys2Proof/Laws/State.lean ====
section
/-!
SUPPORT. One lemma for each field and each update of the state: what the update leaves alone, true by unfolding it once; and what the
accessors of tables and registers read after it.
-/

namespace Sys2Proof.Machine

open Sys2Proof

variable (s : State)

/-! ### `setForce` -/

@[simp] theorem State.setForce_now (n : Nat) (x : Force) : (s.setForce n x).now = s.now := rfl
@[simp] theorem State.setForce_regs (n : Nat) (x : Force) : (s.setForce n x).regs = s.regs := rfl
@[simp] theorem State.setForce_dev (n : Nat) (x : Force) : (s.setForce n x).dev = s.dev := rfl
@[simp] theorem State.setForce_tb (n : Nat) (x : Force) : (s.setForce n x).tb = s.tb := rfl
@[simp] theorem State.setForce_evm (n : Nat) (x : Force) : (s.setForce n x).evm = s.evm := rfl
@[simp] theorem State.setForce_seqs (n : Nat) (x : Force) : (s.setForce n x).seqs = s.seqs := rfl
@[simp] theorem State.setForce_engs (n : Nat) (x : Force) : (s.setForce n x).engs = s.engs := rfl
@[simp] theorem State.setForce_ress (n : Nat) (x : Force) : (s.setForce n x).ress = s.ress := rfl
@[simp] theorem State.setForce_guards (n : Nat) (x : Force) : (s.setForce n x).guards = s.guards := rfl
@[simp] theorem State.setForce_que (n : Nat) (x : Force) : (s.setForce n x).que = s.que := rfl
@[simp] theorem State.setForce_memc (n : Nat) (x : Force) : (s.setForce n x).memc = s.memc := rfl
@[simp] theorem State.setForce_hbm (n : Nat) (x : Force) : (s.setForce n x).hbm = s.hbm := rfl
@[simp] theorem State.setForce_losses (n : Nat) (x : Force) : (s.setForce n x).losses = s.losses := rfl
@[simp] theorem State.setForce_vat (n : Nat) (x : Force) : (s.setForce n x).vat = s.vat := rfl
@[simp] theorem State.setForce_web (n : Nat) (x : Force) : (s.setForce n x).web = s.web := rfl
@[simp] theorem State.setForce_jtag (n : Nat) (x : Force) : (s.setForce n x).jtag = s.jtag := rfl
@[simp] theorem State.setForce_flt (n : Nat) (x : Force) : (s.setForce n x).flt = s.flt := rfl
@[simp] theorem State.setForce_cal (n : Nat) (x : Force) : (s.setForce n x).cal = s.cal := rfl
@[simp] theorem State.setForce_boot (n : Nat) (x : Force) : (s.setForce n x).boot = s.boot := rfl
@[simp] theorem State.setForce_pwr (n : Nat) (x : Force) : (s.setForce n x).pwr = s.pwr := rfl
@[simp] theorem State.setForce_fuses (n : Nat) (x : Force) : (s.setForce n x).fuses = s.fuses := rfl
@[simp] theorem State.setForce_flash (n : Nat) (x : Force) : (s.setForce n x).flash = s.flash := rfl
@[simp] theorem State.setForce_resp (n : Nat) (x : Force) : (s.setForce n x).resp = s.resp := rfl
@[simp] theorem State.setForce_free (n : Nat) (x : Force) : (s.setForce n x).free = s.free := rfl
@[simp] theorem State.setForce_pending (n : Nat) (x : Force) : (s.setForce n x).pending = s.pending := rfl
@[simp] theorem State.setForce_seqOf (n : Nat) (x : Force) (n' : Nat) : (s.setForce n x).seqOf n' = s.seqOf n' := rfl
@[simp] theorem State.setForce_engOf (n : Nat) (x : Force) (n' : Nat) : (s.setForce n x).engOf n' = s.engOf n' := rfl
@[simp] theorem State.setForce_resOf (n : Nat) (x : Force) (n' : Nat) : (s.setForce n x).resOf n' = s.resOf n' := rfl
@[simp] theorem State.setForce_feltOf (n : Nat) (x : Force) (f : Nat) : (s.setForce n x).feltOf f = s.feltOf f := rfl
@[simp] theorem State.setForce_creditOf (n : Nat) (x : Force) (p f : Nat) : (s.setForce n x).creditOf p f = s.creditOf p f := rfl
@[simp] theorem State.setForce_sliceOf (n : Nat) (x : Force) (i : Nat) : (s.setForce n x).sliceOf i = s.sliceOf i := rfl
@[simp] theorem State.setForce_couchOf (n : Nat) (x : Force) (t : Nat) : (s.setForce n x).couchOf t = s.couchOf t := rfl
@[simp] theorem State.setForce_genOf (n : Nat) (x : Force) (k : Nat) : (s.setForce n x).genOf k = s.genOf k := rfl
@[simp] theorem State.setForce_beatPortOf (n : Nat) (x : Force) (p : Nat) : (s.setForce n x).beatPortOf p = s.beatPortOf p := rfl
@[simp] theorem State.setForce_portOf (n : Nat) (x : Force) (p : Nat) : (s.setForce n x).portOf p = s.portOf p := rfl
@[simp] theorem State.setForce_bankOf (n : Nat) (x : Force) (k : Nat) : (s.setForce n x).bankOf k = s.bankOf k := rfl
@[simp] theorem State.setForce_injOf (n : Nat) (x : Force) (j : Nat) : (s.setForce n x).injOf j = s.injOf j := rfl
@[simp] theorem State.setForce_rcDynOf (n : Nat) (x : Force) (c : Nat) : (s.setForce n x).rcDynOf c = s.rcDynOf c := rfl
@[simp] theorem State.setForce_pendOf (n : Nat) (x : Force) (i : Nat) : (s.setForce n x).pendOf i = s.pendOf i := rfl
@[simp] theorem State.setForce_evioOf (n : Nat) (x : Force) (j : Nat) : (s.setForce n x).evioOf j = s.evioOf j := rfl
@[simp] theorem State.setForce_coreOf (n : Nat) (x : Force) (k : Nat) : (s.setForce n x).coreOf k = s.coreOf k := rfl
@[simp] theorem State.setForce_fuseWord (n : Nat) (x : Force) (i : Nat) : (s.setForce n x).fuseWord i = s.fuseWord i := rfl
@[simp] theorem State.setForce_flashByte (n : Nat) (x : Force) (k a : Nat) : (s.setForce n x).flashByte k a = s.flashByte k a := rfl
@[simp] theorem State.setForce_domainOn (n : Nat) (x : Force) (d : Nat) : (s.setForce n x).domainOn d = s.domainOn d := rfl
@[simp] theorem State.setForce_rd (n : Nat) (x : Force) (r : Reg) (i j : Nat) : (s.setForce n x).rd r i j = s.rd r i j := rfl
@[simp] theorem State.setForce_fld (n : Nat) (x : Force) (f : Fld) (i j : Nat) : (s.setForce n x).fld f i j = s.fld f i j := rfl
@[simp] theorem State.setForce_on (n : Nat) (x : Force) (f : Fld) (i j : Nat) : (s.setForce n x).on f i j = s.on f i j := rfl
@[simp] theorem State.setForce_cycle (n : Nat) (x : Force)  : (s.setForce n x).cycle = s.cycle := rfl

/-! ### `setSeq` -/

@[simp] theorem State.setSeq_now (n : Nat) (x : Seqr) : (s.setSeq n x).now = s.now := rfl
@[simp] theorem State.setSeq_regs (n : Nat) (x : Seqr) : (s.setSeq n x).regs = s.regs := rfl
@[simp] theorem State.setSeq_dev (n : Nat) (x : Seqr) : (s.setSeq n x).dev = s.dev := rfl
@[simp] theorem State.setSeq_tb (n : Nat) (x : Seqr) : (s.setSeq n x).tb = s.tb := rfl
@[simp] theorem State.setSeq_evm (n : Nat) (x : Seqr) : (s.setSeq n x).evm = s.evm := rfl
@[simp] theorem State.setSeq_force (n : Nat) (x : Seqr) : (s.setSeq n x).force = s.force := rfl
@[simp] theorem State.setSeq_engs (n : Nat) (x : Seqr) : (s.setSeq n x).engs = s.engs := rfl
@[simp] theorem State.setSeq_ress (n : Nat) (x : Seqr) : (s.setSeq n x).ress = s.ress := rfl
@[simp] theorem State.setSeq_guards (n : Nat) (x : Seqr) : (s.setSeq n x).guards = s.guards := rfl
@[simp] theorem State.setSeq_que (n : Nat) (x : Seqr) : (s.setSeq n x).que = s.que := rfl
@[simp] theorem State.setSeq_memc (n : Nat) (x : Seqr) : (s.setSeq n x).memc = s.memc := rfl
@[simp] theorem State.setSeq_hbm (n : Nat) (x : Seqr) : (s.setSeq n x).hbm = s.hbm := rfl
@[simp] theorem State.setSeq_losses (n : Nat) (x : Seqr) : (s.setSeq n x).losses = s.losses := rfl
@[simp] theorem State.setSeq_vat (n : Nat) (x : Seqr) : (s.setSeq n x).vat = s.vat := rfl
@[simp] theorem State.setSeq_web (n : Nat) (x : Seqr) : (s.setSeq n x).web = s.web := rfl
@[simp] theorem State.setSeq_jtag (n : Nat) (x : Seqr) : (s.setSeq n x).jtag = s.jtag := rfl
@[simp] theorem State.setSeq_flt (n : Nat) (x : Seqr) : (s.setSeq n x).flt = s.flt := rfl
@[simp] theorem State.setSeq_cal (n : Nat) (x : Seqr) : (s.setSeq n x).cal = s.cal := rfl
@[simp] theorem State.setSeq_boot (n : Nat) (x : Seqr) : (s.setSeq n x).boot = s.boot := rfl
@[simp] theorem State.setSeq_pwr (n : Nat) (x : Seqr) : (s.setSeq n x).pwr = s.pwr := rfl
@[simp] theorem State.setSeq_fuses (n : Nat) (x : Seqr) : (s.setSeq n x).fuses = s.fuses := rfl
@[simp] theorem State.setSeq_flash (n : Nat) (x : Seqr) : (s.setSeq n x).flash = s.flash := rfl
@[simp] theorem State.setSeq_resp (n : Nat) (x : Seqr) : (s.setSeq n x).resp = s.resp := rfl
@[simp] theorem State.setSeq_free (n : Nat) (x : Seqr) : (s.setSeq n x).free = s.free := rfl
@[simp] theorem State.setSeq_pending (n : Nat) (x : Seqr) : (s.setSeq n x).pending = s.pending := rfl
@[simp] theorem State.setSeq_forceOf (n : Nat) (x : Seqr) (n' : Nat) : (s.setSeq n x).forceOf n' = s.forceOf n' := rfl
@[simp] theorem State.setSeq_engOf (n : Nat) (x : Seqr) (n' : Nat) : (s.setSeq n x).engOf n' = s.engOf n' := rfl
@[simp] theorem State.setSeq_resOf (n : Nat) (x : Seqr) (n' : Nat) : (s.setSeq n x).resOf n' = s.resOf n' := rfl
@[simp] theorem State.setSeq_feltOf (n : Nat) (x : Seqr) (f : Nat) : (s.setSeq n x).feltOf f = s.feltOf f := rfl
@[simp] theorem State.setSeq_creditOf (n : Nat) (x : Seqr) (p f : Nat) : (s.setSeq n x).creditOf p f = s.creditOf p f := rfl
@[simp] theorem State.setSeq_sliceOf (n : Nat) (x : Seqr) (i : Nat) : (s.setSeq n x).sliceOf i = s.sliceOf i := rfl
@[simp] theorem State.setSeq_couchOf (n : Nat) (x : Seqr) (t : Nat) : (s.setSeq n x).couchOf t = s.couchOf t := rfl
@[simp] theorem State.setSeq_genOf (n : Nat) (x : Seqr) (k : Nat) : (s.setSeq n x).genOf k = s.genOf k := rfl
@[simp] theorem State.setSeq_beatPortOf (n : Nat) (x : Seqr) (p : Nat) : (s.setSeq n x).beatPortOf p = s.beatPortOf p := rfl
@[simp] theorem State.setSeq_portOf (n : Nat) (x : Seqr) (p : Nat) : (s.setSeq n x).portOf p = s.portOf p := rfl
@[simp] theorem State.setSeq_bankOf (n : Nat) (x : Seqr) (k : Nat) : (s.setSeq n x).bankOf k = s.bankOf k := rfl
@[simp] theorem State.setSeq_injOf (n : Nat) (x : Seqr) (j : Nat) : (s.setSeq n x).injOf j = s.injOf j := rfl
@[simp] theorem State.setSeq_rcDynOf (n : Nat) (x : Seqr) (c : Nat) : (s.setSeq n x).rcDynOf c = s.rcDynOf c := rfl
@[simp] theorem State.setSeq_pendOf (n : Nat) (x : Seqr) (i : Nat) : (s.setSeq n x).pendOf i = s.pendOf i := rfl
@[simp] theorem State.setSeq_evioOf (n : Nat) (x : Seqr) (j : Nat) : (s.setSeq n x).evioOf j = s.evioOf j := rfl
@[simp] theorem State.setSeq_coreOf (n : Nat) (x : Seqr) (k : Nat) : (s.setSeq n x).coreOf k = s.coreOf k := rfl
@[simp] theorem State.setSeq_fuseWord (n : Nat) (x : Seqr) (i : Nat) : (s.setSeq n x).fuseWord i = s.fuseWord i := rfl
@[simp] theorem State.setSeq_flashByte (n : Nat) (x : Seqr) (k a : Nat) : (s.setSeq n x).flashByte k a = s.flashByte k a := rfl
@[simp] theorem State.setSeq_domainOn (n : Nat) (x : Seqr) (d : Nat) : (s.setSeq n x).domainOn d = s.domainOn d := rfl
@[simp] theorem State.setSeq_rd (n : Nat) (x : Seqr) (r : Reg) (i j : Nat) : (s.setSeq n x).rd r i j = s.rd r i j := rfl
@[simp] theorem State.setSeq_fld (n : Nat) (x : Seqr) (f : Fld) (i j : Nat) : (s.setSeq n x).fld f i j = s.fld f i j := rfl
@[simp] theorem State.setSeq_on (n : Nat) (x : Seqr) (f : Fld) (i j : Nat) : (s.setSeq n x).on f i j = s.on f i j := rfl
@[simp] theorem State.setSeq_cycle (n : Nat) (x : Seqr)  : (s.setSeq n x).cycle = s.cycle := rfl

/-! ### `setEng` -/

@[simp] theorem State.setEng_now (n : Nat) (x : Eng) : (s.setEng n x).now = s.now := rfl
@[simp] theorem State.setEng_regs (n : Nat) (x : Eng) : (s.setEng n x).regs = s.regs := rfl
@[simp] theorem State.setEng_dev (n : Nat) (x : Eng) : (s.setEng n x).dev = s.dev := rfl
@[simp] theorem State.setEng_tb (n : Nat) (x : Eng) : (s.setEng n x).tb = s.tb := rfl
@[simp] theorem State.setEng_evm (n : Nat) (x : Eng) : (s.setEng n x).evm = s.evm := rfl
@[simp] theorem State.setEng_force (n : Nat) (x : Eng) : (s.setEng n x).force = s.force := rfl
@[simp] theorem State.setEng_seqs (n : Nat) (x : Eng) : (s.setEng n x).seqs = s.seqs := rfl
@[simp] theorem State.setEng_ress (n : Nat) (x : Eng) : (s.setEng n x).ress = s.ress := rfl
@[simp] theorem State.setEng_guards (n : Nat) (x : Eng) : (s.setEng n x).guards = s.guards := rfl
@[simp] theorem State.setEng_que (n : Nat) (x : Eng) : (s.setEng n x).que = s.que := rfl
@[simp] theorem State.setEng_memc (n : Nat) (x : Eng) : (s.setEng n x).memc = s.memc := rfl
@[simp] theorem State.setEng_hbm (n : Nat) (x : Eng) : (s.setEng n x).hbm = s.hbm := rfl
@[simp] theorem State.setEng_losses (n : Nat) (x : Eng) : (s.setEng n x).losses = s.losses := rfl
@[simp] theorem State.setEng_vat (n : Nat) (x : Eng) : (s.setEng n x).vat = s.vat := rfl
@[simp] theorem State.setEng_web (n : Nat) (x : Eng) : (s.setEng n x).web = s.web := rfl
@[simp] theorem State.setEng_jtag (n : Nat) (x : Eng) : (s.setEng n x).jtag = s.jtag := rfl
@[simp] theorem State.setEng_flt (n : Nat) (x : Eng) : (s.setEng n x).flt = s.flt := rfl
@[simp] theorem State.setEng_cal (n : Nat) (x : Eng) : (s.setEng n x).cal = s.cal := rfl
@[simp] theorem State.setEng_boot (n : Nat) (x : Eng) : (s.setEng n x).boot = s.boot := rfl
@[simp] theorem State.setEng_pwr (n : Nat) (x : Eng) : (s.setEng n x).pwr = s.pwr := rfl
@[simp] theorem State.setEng_fuses (n : Nat) (x : Eng) : (s.setEng n x).fuses = s.fuses := rfl
@[simp] theorem State.setEng_flash (n : Nat) (x : Eng) : (s.setEng n x).flash = s.flash := rfl
@[simp] theorem State.setEng_resp (n : Nat) (x : Eng) : (s.setEng n x).resp = s.resp := rfl
@[simp] theorem State.setEng_free (n : Nat) (x : Eng) : (s.setEng n x).free = s.free := rfl
@[simp] theorem State.setEng_pending (n : Nat) (x : Eng) : (s.setEng n x).pending = s.pending := rfl
@[simp] theorem State.setEng_forceOf (n : Nat) (x : Eng) (n' : Nat) : (s.setEng n x).forceOf n' = s.forceOf n' := rfl
@[simp] theorem State.setEng_seqOf (n : Nat) (x : Eng) (n' : Nat) : (s.setEng n x).seqOf n' = s.seqOf n' := rfl
@[simp] theorem State.setEng_resOf (n : Nat) (x : Eng) (n' : Nat) : (s.setEng n x).resOf n' = s.resOf n' := rfl
@[simp] theorem State.setEng_feltOf (n : Nat) (x : Eng) (f : Nat) : (s.setEng n x).feltOf f = s.feltOf f := rfl
@[simp] theorem State.setEng_creditOf (n : Nat) (x : Eng) (p f : Nat) : (s.setEng n x).creditOf p f = s.creditOf p f := rfl
@[simp] theorem State.setEng_sliceOf (n : Nat) (x : Eng) (i : Nat) : (s.setEng n x).sliceOf i = s.sliceOf i := rfl
@[simp] theorem State.setEng_couchOf (n : Nat) (x : Eng) (t : Nat) : (s.setEng n x).couchOf t = s.couchOf t := rfl
@[simp] theorem State.setEng_genOf (n : Nat) (x : Eng) (k : Nat) : (s.setEng n x).genOf k = s.genOf k := rfl
@[simp] theorem State.setEng_beatPortOf (n : Nat) (x : Eng) (p : Nat) : (s.setEng n x).beatPortOf p = s.beatPortOf p := rfl
@[simp] theorem State.setEng_portOf (n : Nat) (x : Eng) (p : Nat) : (s.setEng n x).portOf p = s.portOf p := rfl
@[simp] theorem State.setEng_bankOf (n : Nat) (x : Eng) (k : Nat) : (s.setEng n x).bankOf k = s.bankOf k := rfl
@[simp] theorem State.setEng_injOf (n : Nat) (x : Eng) (j : Nat) : (s.setEng n x).injOf j = s.injOf j := rfl
@[simp] theorem State.setEng_rcDynOf (n : Nat) (x : Eng) (c : Nat) : (s.setEng n x).rcDynOf c = s.rcDynOf c := rfl
@[simp] theorem State.setEng_pendOf (n : Nat) (x : Eng) (i : Nat) : (s.setEng n x).pendOf i = s.pendOf i := rfl
@[simp] theorem State.setEng_evioOf (n : Nat) (x : Eng) (j : Nat) : (s.setEng n x).evioOf j = s.evioOf j := rfl
@[simp] theorem State.setEng_coreOf (n : Nat) (x : Eng) (k : Nat) : (s.setEng n x).coreOf k = s.coreOf k := rfl
@[simp] theorem State.setEng_fuseWord (n : Nat) (x : Eng) (i : Nat) : (s.setEng n x).fuseWord i = s.fuseWord i := rfl
@[simp] theorem State.setEng_flashByte (n : Nat) (x : Eng) (k a : Nat) : (s.setEng n x).flashByte k a = s.flashByte k a := rfl
@[simp] theorem State.setEng_domainOn (n : Nat) (x : Eng) (d : Nat) : (s.setEng n x).domainOn d = s.domainOn d := rfl
@[simp] theorem State.setEng_rd (n : Nat) (x : Eng) (r : Reg) (i j : Nat) : (s.setEng n x).rd r i j = s.rd r i j := rfl
@[simp] theorem State.setEng_fld (n : Nat) (x : Eng) (f : Fld) (i j : Nat) : (s.setEng n x).fld f i j = s.fld f i j := rfl
@[simp] theorem State.setEng_on (n : Nat) (x : Eng) (f : Fld) (i j : Nat) : (s.setEng n x).on f i j = s.on f i j := rfl
@[simp] theorem State.setEng_cycle (n : Nat) (x : Eng)  : (s.setEng n x).cycle = s.cycle := rfl

/-! ### `setRes` -/

@[simp] theorem State.setRes_now (n : Nat) (x : Res) : (s.setRes n x).now = s.now := rfl
@[simp] theorem State.setRes_regs (n : Nat) (x : Res) : (s.setRes n x).regs = s.regs := rfl
@[simp] theorem State.setRes_dev (n : Nat) (x : Res) : (s.setRes n x).dev = s.dev := rfl
@[simp] theorem State.setRes_tb (n : Nat) (x : Res) : (s.setRes n x).tb = s.tb := rfl
@[simp] theorem State.setRes_evm (n : Nat) (x : Res) : (s.setRes n x).evm = s.evm := rfl
@[simp] theorem State.setRes_force (n : Nat) (x : Res) : (s.setRes n x).force = s.force := rfl
@[simp] theorem State.setRes_seqs (n : Nat) (x : Res) : (s.setRes n x).seqs = s.seqs := rfl
@[simp] theorem State.setRes_engs (n : Nat) (x : Res) : (s.setRes n x).engs = s.engs := rfl
@[simp] theorem State.setRes_guards (n : Nat) (x : Res) : (s.setRes n x).guards = s.guards := rfl
@[simp] theorem State.setRes_que (n : Nat) (x : Res) : (s.setRes n x).que = s.que := rfl
@[simp] theorem State.setRes_memc (n : Nat) (x : Res) : (s.setRes n x).memc = s.memc := rfl
@[simp] theorem State.setRes_hbm (n : Nat) (x : Res) : (s.setRes n x).hbm = s.hbm := rfl
@[simp] theorem State.setRes_losses (n : Nat) (x : Res) : (s.setRes n x).losses = s.losses := rfl
@[simp] theorem State.setRes_vat (n : Nat) (x : Res) : (s.setRes n x).vat = s.vat := rfl
@[simp] theorem State.setRes_web (n : Nat) (x : Res) : (s.setRes n x).web = s.web := rfl
@[simp] theorem State.setRes_jtag (n : Nat) (x : Res) : (s.setRes n x).jtag = s.jtag := rfl
@[simp] theorem State.setRes_flt (n : Nat) (x : Res) : (s.setRes n x).flt = s.flt := rfl
@[simp] theorem State.setRes_cal (n : Nat) (x : Res) : (s.setRes n x).cal = s.cal := rfl
@[simp] theorem State.setRes_boot (n : Nat) (x : Res) : (s.setRes n x).boot = s.boot := rfl
@[simp] theorem State.setRes_pwr (n : Nat) (x : Res) : (s.setRes n x).pwr = s.pwr := rfl
@[simp] theorem State.setRes_fuses (n : Nat) (x : Res) : (s.setRes n x).fuses = s.fuses := rfl
@[simp] theorem State.setRes_flash (n : Nat) (x : Res) : (s.setRes n x).flash = s.flash := rfl
@[simp] theorem State.setRes_resp (n : Nat) (x : Res) : (s.setRes n x).resp = s.resp := rfl
@[simp] theorem State.setRes_free (n : Nat) (x : Res) : (s.setRes n x).free = s.free := rfl
@[simp] theorem State.setRes_pending (n : Nat) (x : Res) : (s.setRes n x).pending = s.pending := rfl
@[simp] theorem State.setRes_forceOf (n : Nat) (x : Res) (n' : Nat) : (s.setRes n x).forceOf n' = s.forceOf n' := rfl
@[simp] theorem State.setRes_seqOf (n : Nat) (x : Res) (n' : Nat) : (s.setRes n x).seqOf n' = s.seqOf n' := rfl
@[simp] theorem State.setRes_engOf (n : Nat) (x : Res) (n' : Nat) : (s.setRes n x).engOf n' = s.engOf n' := rfl
@[simp] theorem State.setRes_feltOf (n : Nat) (x : Res) (f : Nat) : (s.setRes n x).feltOf f = s.feltOf f := rfl
@[simp] theorem State.setRes_creditOf (n : Nat) (x : Res) (p f : Nat) : (s.setRes n x).creditOf p f = s.creditOf p f := rfl
@[simp] theorem State.setRes_sliceOf (n : Nat) (x : Res) (i : Nat) : (s.setRes n x).sliceOf i = s.sliceOf i := rfl
@[simp] theorem State.setRes_couchOf (n : Nat) (x : Res) (t : Nat) : (s.setRes n x).couchOf t = s.couchOf t := rfl
@[simp] theorem State.setRes_genOf (n : Nat) (x : Res) (k : Nat) : (s.setRes n x).genOf k = s.genOf k := rfl
@[simp] theorem State.setRes_beatPortOf (n : Nat) (x : Res) (p : Nat) : (s.setRes n x).beatPortOf p = s.beatPortOf p := rfl
@[simp] theorem State.setRes_portOf (n : Nat) (x : Res) (p : Nat) : (s.setRes n x).portOf p = s.portOf p := rfl
@[simp] theorem State.setRes_bankOf (n : Nat) (x : Res) (k : Nat) : (s.setRes n x).bankOf k = s.bankOf k := rfl
@[simp] theorem State.setRes_injOf (n : Nat) (x : Res) (j : Nat) : (s.setRes n x).injOf j = s.injOf j := rfl
@[simp] theorem State.setRes_rcDynOf (n : Nat) (x : Res) (c : Nat) : (s.setRes n x).rcDynOf c = s.rcDynOf c := rfl
@[simp] theorem State.setRes_pendOf (n : Nat) (x : Res) (i : Nat) : (s.setRes n x).pendOf i = s.pendOf i := rfl
@[simp] theorem State.setRes_evioOf (n : Nat) (x : Res) (j : Nat) : (s.setRes n x).evioOf j = s.evioOf j := rfl
@[simp] theorem State.setRes_coreOf (n : Nat) (x : Res) (k : Nat) : (s.setRes n x).coreOf k = s.coreOf k := rfl
@[simp] theorem State.setRes_fuseWord (n : Nat) (x : Res) (i : Nat) : (s.setRes n x).fuseWord i = s.fuseWord i := rfl
@[simp] theorem State.setRes_flashByte (n : Nat) (x : Res) (k a : Nat) : (s.setRes n x).flashByte k a = s.flashByte k a := rfl
@[simp] theorem State.setRes_domainOn (n : Nat) (x : Res) (d : Nat) : (s.setRes n x).domainOn d = s.domainOn d := rfl
@[simp] theorem State.setRes_rd (n : Nat) (x : Res) (r : Reg) (i j : Nat) : (s.setRes n x).rd r i j = s.rd r i j := rfl
@[simp] theorem State.setRes_fld (n : Nat) (x : Res) (f : Fld) (i j : Nat) : (s.setRes n x).fld f i j = s.fld f i j := rfl
@[simp] theorem State.setRes_on (n : Nat) (x : Res) (f : Fld) (i j : Nat) : (s.setRes n x).on f i j = s.on f i j := rfl
@[simp] theorem State.setRes_cycle (n : Nat) (x : Res)  : (s.setRes n x).cycle = s.cycle := rfl

/-! ### `setFelt` -/

@[simp] theorem State.setFelt_now (f : Nat) (x : Felt) : (s.setFelt f x).now = s.now := rfl
@[simp] theorem State.setFelt_regs (f : Nat) (x : Felt) : (s.setFelt f x).regs = s.regs := rfl
@[simp] theorem State.setFelt_dev (f : Nat) (x : Felt) : (s.setFelt f x).dev = s.dev := rfl
@[simp] theorem State.setFelt_tb (f : Nat) (x : Felt) : (s.setFelt f x).tb = s.tb := rfl
@[simp] theorem State.setFelt_evm (f : Nat) (x : Felt) : (s.setFelt f x).evm = s.evm := rfl
@[simp] theorem State.setFelt_force (f : Nat) (x : Felt) : (s.setFelt f x).force = s.force := rfl
@[simp] theorem State.setFelt_seqs (f : Nat) (x : Felt) : (s.setFelt f x).seqs = s.seqs := rfl
@[simp] theorem State.setFelt_engs (f : Nat) (x : Felt) : (s.setFelt f x).engs = s.engs := rfl
@[simp] theorem State.setFelt_ress (f : Nat) (x : Felt) : (s.setFelt f x).ress = s.ress := rfl
@[simp] theorem State.setFelt_guards (f : Nat) (x : Felt) : (s.setFelt f x).guards = s.guards := rfl
@[simp] theorem State.setFelt_memc (f : Nat) (x : Felt) : (s.setFelt f x).memc = s.memc := rfl
@[simp] theorem State.setFelt_hbm (f : Nat) (x : Felt) : (s.setFelt f x).hbm = s.hbm := rfl
@[simp] theorem State.setFelt_losses (f : Nat) (x : Felt) : (s.setFelt f x).losses = s.losses := rfl
@[simp] theorem State.setFelt_vat (f : Nat) (x : Felt) : (s.setFelt f x).vat = s.vat := rfl
@[simp] theorem State.setFelt_web (f : Nat) (x : Felt) : (s.setFelt f x).web = s.web := rfl
@[simp] theorem State.setFelt_jtag (f : Nat) (x : Felt) : (s.setFelt f x).jtag = s.jtag := rfl
@[simp] theorem State.setFelt_flt (f : Nat) (x : Felt) : (s.setFelt f x).flt = s.flt := rfl
@[simp] theorem State.setFelt_cal (f : Nat) (x : Felt) : (s.setFelt f x).cal = s.cal := rfl
@[simp] theorem State.setFelt_boot (f : Nat) (x : Felt) : (s.setFelt f x).boot = s.boot := rfl
@[simp] theorem State.setFelt_pwr (f : Nat) (x : Felt) : (s.setFelt f x).pwr = s.pwr := rfl
@[simp] theorem State.setFelt_fuses (f : Nat) (x : Felt) : (s.setFelt f x).fuses = s.fuses := rfl
@[simp] theorem State.setFelt_flash (f : Nat) (x : Felt) : (s.setFelt f x).flash = s.flash := rfl
@[simp] theorem State.setFelt_resp (f : Nat) (x : Felt) : (s.setFelt f x).resp = s.resp := rfl
@[simp] theorem State.setFelt_free (f : Nat) (x : Felt) : (s.setFelt f x).free = s.free := rfl
@[simp] theorem State.setFelt_pending (f : Nat) (x : Felt) : (s.setFelt f x).pending = s.pending := rfl
@[simp] theorem State.setFelt_forceOf (f : Nat) (x : Felt) (n : Nat) : (s.setFelt f x).forceOf n = s.forceOf n := rfl
@[simp] theorem State.setFelt_seqOf (f : Nat) (x : Felt) (n : Nat) : (s.setFelt f x).seqOf n = s.seqOf n := rfl
@[simp] theorem State.setFelt_engOf (f : Nat) (x : Felt) (n : Nat) : (s.setFelt f x).engOf n = s.engOf n := rfl
@[simp] theorem State.setFelt_resOf (f : Nat) (x : Felt) (n : Nat) : (s.setFelt f x).resOf n = s.resOf n := rfl
@[simp] theorem State.setFelt_creditOf (f : Nat) (x : Felt) (p f' : Nat) : (s.setFelt f x).creditOf p f' = s.creditOf p f' := rfl
@[simp] theorem State.setFelt_sliceOf (f : Nat) (x : Felt) (i : Nat) : (s.setFelt f x).sliceOf i = s.sliceOf i := rfl
@[simp] theorem State.setFelt_couchOf (f : Nat) (x : Felt) (t : Nat) : (s.setFelt f x).couchOf t = s.couchOf t := rfl
@[simp] theorem State.setFelt_genOf (f : Nat) (x : Felt) (k : Nat) : (s.setFelt f x).genOf k = s.genOf k := rfl
@[simp] theorem State.setFelt_beatPortOf (f : Nat) (x : Felt) (p : Nat) : (s.setFelt f x).beatPortOf p = s.beatPortOf p := rfl
@[simp] theorem State.setFelt_portOf (f : Nat) (x : Felt) (p : Nat) : (s.setFelt f x).portOf p = s.portOf p := rfl
@[simp] theorem State.setFelt_bankOf (f : Nat) (x : Felt) (k : Nat) : (s.setFelt f x).bankOf k = s.bankOf k := rfl
@[simp] theorem State.setFelt_injOf (f : Nat) (x : Felt) (j : Nat) : (s.setFelt f x).injOf j = s.injOf j := rfl
@[simp] theorem State.setFelt_rcDynOf (f : Nat) (x : Felt) (c : Nat) : (s.setFelt f x).rcDynOf c = s.rcDynOf c := rfl
@[simp] theorem State.setFelt_pendOf (f : Nat) (x : Felt) (i : Nat) : (s.setFelt f x).pendOf i = s.pendOf i := rfl
@[simp] theorem State.setFelt_evioOf (f : Nat) (x : Felt) (j : Nat) : (s.setFelt f x).evioOf j = s.evioOf j := rfl
@[simp] theorem State.setFelt_coreOf (f : Nat) (x : Felt) (k : Nat) : (s.setFelt f x).coreOf k = s.coreOf k := rfl
@[simp] theorem State.setFelt_fuseWord (f : Nat) (x : Felt) (i : Nat) : (s.setFelt f x).fuseWord i = s.fuseWord i := rfl
@[simp] theorem State.setFelt_flashByte (f : Nat) (x : Felt) (k a : Nat) : (s.setFelt f x).flashByte k a = s.flashByte k a := rfl
@[simp] theorem State.setFelt_domainOn (f : Nat) (x : Felt) (d : Nat) : (s.setFelt f x).domainOn d = s.domainOn d := rfl
@[simp] theorem State.setFelt_rd (f : Nat) (x : Felt) (r : Reg) (i j : Nat) : (s.setFelt f x).rd r i j = s.rd r i j := rfl
@[simp] theorem State.setFelt_fld (f : Nat) (x : Felt) (f' : Fld) (i j : Nat) : (s.setFelt f x).fld f' i j = s.fld f' i j := rfl
@[simp] theorem State.setFelt_on (f : Nat) (x : Felt) (f' : Fld) (i j : Nat) : (s.setFelt f x).on f' i j = s.on f' i j := rfl
@[simp] theorem State.setFelt_cycle (f : Nat) (x : Felt)  : (s.setFelt f x).cycle = s.cycle := rfl

/-! ### `setCredit` -/

@[simp] theorem State.setCredit_now (p f : Nat) (x : Credit) : (s.setCredit p f x).now = s.now := rfl
@[simp] theorem State.setCredit_regs (p f : Nat) (x : Credit) : (s.setCredit p f x).regs = s.regs := rfl
@[simp] theorem State.setCredit_dev (p f : Nat) (x : Credit) : (s.setCredit p f x).dev = s.dev := rfl
@[simp] theorem State.setCredit_tb (p f : Nat) (x : Credit) : (s.setCredit p f x).tb = s.tb := rfl
@[simp] theorem State.setCredit_evm (p f : Nat) (x : Credit) : (s.setCredit p f x).evm = s.evm := rfl
@[simp] theorem State.setCredit_force (p f : Nat) (x : Credit) : (s.setCredit p f x).force = s.force := rfl
@[simp] theorem State.setCredit_seqs (p f : Nat) (x : Credit) : (s.setCredit p f x).seqs = s.seqs := rfl
@[simp] theorem State.setCredit_engs (p f : Nat) (x : Credit) : (s.setCredit p f x).engs = s.engs := rfl
@[simp] theorem State.setCredit_ress (p f : Nat) (x : Credit) : (s.setCredit p f x).ress = s.ress := rfl
@[simp] theorem State.setCredit_guards (p f : Nat) (x : Credit) : (s.setCredit p f x).guards = s.guards := rfl
@[simp] theorem State.setCredit_memc (p f : Nat) (x : Credit) : (s.setCredit p f x).memc = s.memc := rfl
@[simp] theorem State.setCredit_hbm (p f : Nat) (x : Credit) : (s.setCredit p f x).hbm = s.hbm := rfl
@[simp] theorem State.setCredit_losses (p f : Nat) (x : Credit) : (s.setCredit p f x).losses = s.losses := rfl
@[simp] theorem State.setCredit_vat (p f : Nat) (x : Credit) : (s.setCredit p f x).vat = s.vat := rfl
@[simp] theorem State.setCredit_web (p f : Nat) (x : Credit) : (s.setCredit p f x).web = s.web := rfl
@[simp] theorem State.setCredit_jtag (p f : Nat) (x : Credit) : (s.setCredit p f x).jtag = s.jtag := rfl
@[simp] theorem State.setCredit_flt (p f : Nat) (x : Credit) : (s.setCredit p f x).flt = s.flt := rfl
@[simp] theorem State.setCredit_cal (p f : Nat) (x : Credit) : (s.setCredit p f x).cal = s.cal := rfl
@[simp] theorem State.setCredit_boot (p f : Nat) (x : Credit) : (s.setCredit p f x).boot = s.boot := rfl
@[simp] theorem State.setCredit_pwr (p f : Nat) (x : Credit) : (s.setCredit p f x).pwr = s.pwr := rfl
@[simp] theorem State.setCredit_fuses (p f : Nat) (x : Credit) : (s.setCredit p f x).fuses = s.fuses := rfl
@[simp] theorem State.setCredit_flash (p f : Nat) (x : Credit) : (s.setCredit p f x).flash = s.flash := rfl
@[simp] theorem State.setCredit_resp (p f : Nat) (x : Credit) : (s.setCredit p f x).resp = s.resp := rfl
@[simp] theorem State.setCredit_free (p f : Nat) (x : Credit) : (s.setCredit p f x).free = s.free := rfl
@[simp] theorem State.setCredit_pending (p f : Nat) (x : Credit) : (s.setCredit p f x).pending = s.pending := rfl
@[simp] theorem State.setCredit_forceOf (p f : Nat) (x : Credit) (n : Nat) : (s.setCredit p f x).forceOf n = s.forceOf n := rfl
@[simp] theorem State.setCredit_seqOf (p f : Nat) (x : Credit) (n : Nat) : (s.setCredit p f x).seqOf n = s.seqOf n := rfl
@[simp] theorem State.setCredit_engOf (p f : Nat) (x : Credit) (n : Nat) : (s.setCredit p f x).engOf n = s.engOf n := rfl
@[simp] theorem State.setCredit_resOf (p f : Nat) (x : Credit) (n : Nat) : (s.setCredit p f x).resOf n = s.resOf n := rfl
@[simp] theorem State.setCredit_feltOf (p f : Nat) (x : Credit) (f' : Nat) : (s.setCredit p f x).feltOf f' = s.feltOf f' := rfl
@[simp] theorem State.setCredit_sliceOf (p f : Nat) (x : Credit) (i : Nat) : (s.setCredit p f x).sliceOf i = s.sliceOf i := rfl
@[simp] theorem State.setCredit_couchOf (p f : Nat) (x : Credit) (t : Nat) : (s.setCredit p f x).couchOf t = s.couchOf t := rfl
@[simp] theorem State.setCredit_genOf (p f : Nat) (x : Credit) (k : Nat) : (s.setCredit p f x).genOf k = s.genOf k := rfl
@[simp] theorem State.setCredit_beatPortOf (p f : Nat) (x : Credit) (p' : Nat) : (s.setCredit p f x).beatPortOf p' = s.beatPortOf p' := rfl
@[simp] theorem State.setCredit_portOf (p f : Nat) (x : Credit) (p' : Nat) : (s.setCredit p f x).portOf p' = s.portOf p' := rfl
@[simp] theorem State.setCredit_bankOf (p f : Nat) (x : Credit) (k : Nat) : (s.setCredit p f x).bankOf k = s.bankOf k := rfl
@[simp] theorem State.setCredit_injOf (p f : Nat) (x : Credit) (j : Nat) : (s.setCredit p f x).injOf j = s.injOf j := rfl
@[simp] theorem State.setCredit_rcDynOf (p f : Nat) (x : Credit) (c : Nat) : (s.setCredit p f x).rcDynOf c = s.rcDynOf c := rfl
@[simp] theorem State.setCredit_pendOf (p f : Nat) (x : Credit) (i : Nat) : (s.setCredit p f x).pendOf i = s.pendOf i := rfl
@[simp] theorem State.setCredit_evioOf (p f : Nat) (x : Credit) (j : Nat) : (s.setCredit p f x).evioOf j = s.evioOf j := rfl
@[simp] theorem State.setCredit_coreOf (p f : Nat) (x : Credit) (k : Nat) : (s.setCredit p f x).coreOf k = s.coreOf k := rfl
@[simp] theorem State.setCredit_fuseWord (p f : Nat) (x : Credit) (i : Nat) : (s.setCredit p f x).fuseWord i = s.fuseWord i := rfl
@[simp] theorem State.setCredit_flashByte (p f : Nat) (x : Credit) (k a : Nat) : (s.setCredit p f x).flashByte k a = s.flashByte k a := rfl
@[simp] theorem State.setCredit_domainOn (p f : Nat) (x : Credit) (d : Nat) : (s.setCredit p f x).domainOn d = s.domainOn d := rfl
@[simp] theorem State.setCredit_rd (p f : Nat) (x : Credit) (r : Reg) (i j : Nat) : (s.setCredit p f x).rd r i j = s.rd r i j := rfl
@[simp] theorem State.setCredit_fld (p f : Nat) (x : Credit) (f' : Fld) (i j : Nat) : (s.setCredit p f x).fld f' i j = s.fld f' i j := rfl
@[simp] theorem State.setCredit_on (p f : Nat) (x : Credit) (f' : Fld) (i j : Nat) : (s.setCredit p f x).on f' i j = s.on f' i j := rfl
@[simp] theorem State.setCredit_cycle (p f : Nat) (x : Credit)  : (s.setCredit p f x).cycle = s.cycle := rfl

/-! ### `setSlice` -/

@[simp] theorem State.setSlice_now (i : Nat) (x : Slice) : (s.setSlice i x).now = s.now := rfl
@[simp] theorem State.setSlice_regs (i : Nat) (x : Slice) : (s.setSlice i x).regs = s.regs := rfl
@[simp] theorem State.setSlice_dev (i : Nat) (x : Slice) : (s.setSlice i x).dev = s.dev := rfl
@[simp] theorem State.setSlice_tb (i : Nat) (x : Slice) : (s.setSlice i x).tb = s.tb := rfl
@[simp] theorem State.setSlice_evm (i : Nat) (x : Slice) : (s.setSlice i x).evm = s.evm := rfl
@[simp] theorem State.setSlice_force (i : Nat) (x : Slice) : (s.setSlice i x).force = s.force := rfl
@[simp] theorem State.setSlice_seqs (i : Nat) (x : Slice) : (s.setSlice i x).seqs = s.seqs := rfl
@[simp] theorem State.setSlice_engs (i : Nat) (x : Slice) : (s.setSlice i x).engs = s.engs := rfl
@[simp] theorem State.setSlice_ress (i : Nat) (x : Slice) : (s.setSlice i x).ress = s.ress := rfl
@[simp] theorem State.setSlice_guards (i : Nat) (x : Slice) : (s.setSlice i x).guards = s.guards := rfl
@[simp] theorem State.setSlice_que (i : Nat) (x : Slice) : (s.setSlice i x).que = s.que := rfl
@[simp] theorem State.setSlice_memc (i : Nat) (x : Slice) : (s.setSlice i x).memc = s.memc := rfl
@[simp] theorem State.setSlice_hbm (i : Nat) (x : Slice) : (s.setSlice i x).hbm = s.hbm := rfl
@[simp] theorem State.setSlice_losses (i : Nat) (x : Slice) : (s.setSlice i x).losses = s.losses := rfl
@[simp] theorem State.setSlice_vat (i : Nat) (x : Slice) : (s.setSlice i x).vat = s.vat := rfl
@[simp] theorem State.setSlice_web (i : Nat) (x : Slice) : (s.setSlice i x).web = s.web := rfl
@[simp] theorem State.setSlice_jtag (i : Nat) (x : Slice) : (s.setSlice i x).jtag = s.jtag := rfl
@[simp] theorem State.setSlice_flt (i : Nat) (x : Slice) : (s.setSlice i x).flt = s.flt := rfl
@[simp] theorem State.setSlice_boot (i : Nat) (x : Slice) : (s.setSlice i x).boot = s.boot := rfl
@[simp] theorem State.setSlice_pwr (i : Nat) (x : Slice) : (s.setSlice i x).pwr = s.pwr := rfl
@[simp] theorem State.setSlice_fuses (i : Nat) (x : Slice) : (s.setSlice i x).fuses = s.fuses := rfl
@[simp] theorem State.setSlice_flash (i : Nat) (x : Slice) : (s.setSlice i x).flash = s.flash := rfl
@[simp] theorem State.setSlice_resp (i : Nat) (x : Slice) : (s.setSlice i x).resp = s.resp := rfl
@[simp] theorem State.setSlice_free (i : Nat) (x : Slice) : (s.setSlice i x).free = s.free := rfl
@[simp] theorem State.setSlice_pending (i : Nat) (x : Slice) : (s.setSlice i x).pending = s.pending := rfl
@[simp] theorem State.setSlice_forceOf (i : Nat) (x : Slice) (n : Nat) : (s.setSlice i x).forceOf n = s.forceOf n := rfl
@[simp] theorem State.setSlice_seqOf (i : Nat) (x : Slice) (n : Nat) : (s.setSlice i x).seqOf n = s.seqOf n := rfl
@[simp] theorem State.setSlice_engOf (i : Nat) (x : Slice) (n : Nat) : (s.setSlice i x).engOf n = s.engOf n := rfl
@[simp] theorem State.setSlice_resOf (i : Nat) (x : Slice) (n : Nat) : (s.setSlice i x).resOf n = s.resOf n := rfl
@[simp] theorem State.setSlice_feltOf (i : Nat) (x : Slice) (f : Nat) : (s.setSlice i x).feltOf f = s.feltOf f := rfl
@[simp] theorem State.setSlice_creditOf (i : Nat) (x : Slice) (p f : Nat) : (s.setSlice i x).creditOf p f = s.creditOf p f := rfl
@[simp] theorem State.setSlice_couchOf (i : Nat) (x : Slice) (t : Nat) : (s.setSlice i x).couchOf t = s.couchOf t := rfl
@[simp] theorem State.setSlice_genOf (i : Nat) (x : Slice) (k : Nat) : (s.setSlice i x).genOf k = s.genOf k := rfl
@[simp] theorem State.setSlice_beatPortOf (i : Nat) (x : Slice) (p : Nat) : (s.setSlice i x).beatPortOf p = s.beatPortOf p := rfl
@[simp] theorem State.setSlice_portOf (i : Nat) (x : Slice) (p : Nat) : (s.setSlice i x).portOf p = s.portOf p := rfl
@[simp] theorem State.setSlice_bankOf (i : Nat) (x : Slice) (k : Nat) : (s.setSlice i x).bankOf k = s.bankOf k := rfl
@[simp] theorem State.setSlice_injOf (i : Nat) (x : Slice) (j : Nat) : (s.setSlice i x).injOf j = s.injOf j := rfl
@[simp] theorem State.setSlice_rcDynOf (i : Nat) (x : Slice) (c : Nat) : (s.setSlice i x).rcDynOf c = s.rcDynOf c := rfl
@[simp] theorem State.setSlice_pendOf (i : Nat) (x : Slice) (i' : Nat) : (s.setSlice i x).pendOf i' = s.pendOf i' := rfl
@[simp] theorem State.setSlice_evioOf (i : Nat) (x : Slice) (j : Nat) : (s.setSlice i x).evioOf j = s.evioOf j := rfl
@[simp] theorem State.setSlice_coreOf (i : Nat) (x : Slice) (k : Nat) : (s.setSlice i x).coreOf k = s.coreOf k := rfl
@[simp] theorem State.setSlice_fuseWord (i : Nat) (x : Slice) (i' : Nat) : (s.setSlice i x).fuseWord i' = s.fuseWord i' := rfl
@[simp] theorem State.setSlice_flashByte (i : Nat) (x : Slice) (k a : Nat) : (s.setSlice i x).flashByte k a = s.flashByte k a := rfl
@[simp] theorem State.setSlice_domainOn (i : Nat) (x : Slice) (d : Nat) : (s.setSlice i x).domainOn d = s.domainOn d := rfl
@[simp] theorem State.setSlice_rd (i : Nat) (x : Slice) (r : Reg) (i' j : Nat) : (s.setSlice i x).rd r i' j = s.rd r i' j := rfl
@[simp] theorem State.setSlice_fld (i : Nat) (x : Slice) (f : Fld) (i' j : Nat) : (s.setSlice i x).fld f i' j = s.fld f i' j := rfl
@[simp] theorem State.setSlice_on (i : Nat) (x : Slice) (f : Fld) (i' j : Nat) : (s.setSlice i x).on f i' j = s.on f i' j := rfl
@[simp] theorem State.setSlice_cycle (i : Nat) (x : Slice)  : (s.setSlice i x).cycle = s.cycle := rfl

/-! ### `setCouch` -/

@[simp] theorem State.setCouch_now (t : Nat) (x : Couch) : (s.setCouch t x).now = s.now := rfl
@[simp] theorem State.setCouch_regs (t : Nat) (x : Couch) : (s.setCouch t x).regs = s.regs := rfl
@[simp] theorem State.setCouch_dev (t : Nat) (x : Couch) : (s.setCouch t x).dev = s.dev := rfl
@[simp] theorem State.setCouch_tb (t : Nat) (x : Couch) : (s.setCouch t x).tb = s.tb := rfl
@[simp] theorem State.setCouch_evm (t : Nat) (x : Couch) : (s.setCouch t x).evm = s.evm := rfl
@[simp] theorem State.setCouch_force (t : Nat) (x : Couch) : (s.setCouch t x).force = s.force := rfl
@[simp] theorem State.setCouch_seqs (t : Nat) (x : Couch) : (s.setCouch t x).seqs = s.seqs := rfl
@[simp] theorem State.setCouch_engs (t : Nat) (x : Couch) : (s.setCouch t x).engs = s.engs := rfl
@[simp] theorem State.setCouch_ress (t : Nat) (x : Couch) : (s.setCouch t x).ress = s.ress := rfl
@[simp] theorem State.setCouch_guards (t : Nat) (x : Couch) : (s.setCouch t x).guards = s.guards := rfl
@[simp] theorem State.setCouch_que (t : Nat) (x : Couch) : (s.setCouch t x).que = s.que := rfl
@[simp] theorem State.setCouch_memc (t : Nat) (x : Couch) : (s.setCouch t x).memc = s.memc := rfl
@[simp] theorem State.setCouch_hbm (t : Nat) (x : Couch) : (s.setCouch t x).hbm = s.hbm := rfl
@[simp] theorem State.setCouch_losses (t : Nat) (x : Couch) : (s.setCouch t x).losses = s.losses := rfl
@[simp] theorem State.setCouch_vat (t : Nat) (x : Couch) : (s.setCouch t x).vat = s.vat := rfl
@[simp] theorem State.setCouch_web (t : Nat) (x : Couch) : (s.setCouch t x).web = s.web := rfl
@[simp] theorem State.setCouch_jtag (t : Nat) (x : Couch) : (s.setCouch t x).jtag = s.jtag := rfl
@[simp] theorem State.setCouch_flt (t : Nat) (x : Couch) : (s.setCouch t x).flt = s.flt := rfl
@[simp] theorem State.setCouch_boot (t : Nat) (x : Couch) : (s.setCouch t x).boot = s.boot := rfl
@[simp] theorem State.setCouch_pwr (t : Nat) (x : Couch) : (s.setCouch t x).pwr = s.pwr := rfl
@[simp] theorem State.setCouch_fuses (t : Nat) (x : Couch) : (s.setCouch t x).fuses = s.fuses := rfl
@[simp] theorem State.setCouch_flash (t : Nat) (x : Couch) : (s.setCouch t x).flash = s.flash := rfl
@[simp] theorem State.setCouch_resp (t : Nat) (x : Couch) : (s.setCouch t x).resp = s.resp := rfl
@[simp] theorem State.setCouch_free (t : Nat) (x : Couch) : (s.setCouch t x).free = s.free := rfl
@[simp] theorem State.setCouch_pending (t : Nat) (x : Couch) : (s.setCouch t x).pending = s.pending := rfl
@[simp] theorem State.setCouch_forceOf (t : Nat) (x : Couch) (n : Nat) : (s.setCouch t x).forceOf n = s.forceOf n := rfl
@[simp] theorem State.setCouch_seqOf (t : Nat) (x : Couch) (n : Nat) : (s.setCouch t x).seqOf n = s.seqOf n := rfl
@[simp] theorem State.setCouch_engOf (t : Nat) (x : Couch) (n : Nat) : (s.setCouch t x).engOf n = s.engOf n := rfl
@[simp] theorem State.setCouch_resOf (t : Nat) (x : Couch) (n : Nat) : (s.setCouch t x).resOf n = s.resOf n := rfl
@[simp] theorem State.setCouch_feltOf (t : Nat) (x : Couch) (f : Nat) : (s.setCouch t x).feltOf f = s.feltOf f := rfl
@[simp] theorem State.setCouch_creditOf (t : Nat) (x : Couch) (p f : Nat) : (s.setCouch t x).creditOf p f = s.creditOf p f := rfl
@[simp] theorem State.setCouch_sliceOf (t : Nat) (x : Couch) (i : Nat) : (s.setCouch t x).sliceOf i = s.sliceOf i := rfl
@[simp] theorem State.setCouch_genOf (t : Nat) (x : Couch) (k : Nat) : (s.setCouch t x).genOf k = s.genOf k := rfl
@[simp] theorem State.setCouch_beatPortOf (t : Nat) (x : Couch) (p : Nat) : (s.setCouch t x).beatPortOf p = s.beatPortOf p := rfl
@[simp] theorem State.setCouch_portOf (t : Nat) (x : Couch) (p : Nat) : (s.setCouch t x).portOf p = s.portOf p := rfl
@[simp] theorem State.setCouch_bankOf (t : Nat) (x : Couch) (k : Nat) : (s.setCouch t x).bankOf k = s.bankOf k := rfl
@[simp] theorem State.setCouch_injOf (t : Nat) (x : Couch) (j : Nat) : (s.setCouch t x).injOf j = s.injOf j := rfl
@[simp] theorem State.setCouch_rcDynOf (t : Nat) (x : Couch) (c : Nat) : (s.setCouch t x).rcDynOf c = s.rcDynOf c := rfl
@[simp] theorem State.setCouch_pendOf (t : Nat) (x : Couch) (i : Nat) : (s.setCouch t x).pendOf i = s.pendOf i := rfl
@[simp] theorem State.setCouch_evioOf (t : Nat) (x : Couch) (j : Nat) : (s.setCouch t x).evioOf j = s.evioOf j := rfl
@[simp] theorem State.setCouch_coreOf (t : Nat) (x : Couch) (k : Nat) : (s.setCouch t x).coreOf k = s.coreOf k := rfl
@[simp] theorem State.setCouch_fuseWord (t : Nat) (x : Couch) (i : Nat) : (s.setCouch t x).fuseWord i = s.fuseWord i := rfl
@[simp] theorem State.setCouch_flashByte (t : Nat) (x : Couch) (k a : Nat) : (s.setCouch t x).flashByte k a = s.flashByte k a := rfl
@[simp] theorem State.setCouch_domainOn (t : Nat) (x : Couch) (d : Nat) : (s.setCouch t x).domainOn d = s.domainOn d := rfl
@[simp] theorem State.setCouch_rd (t : Nat) (x : Couch) (r : Reg) (i j : Nat) : (s.setCouch t x).rd r i j = s.rd r i j := rfl
@[simp] theorem State.setCouch_fld (t : Nat) (x : Couch) (f : Fld) (i j : Nat) : (s.setCouch t x).fld f i j = s.fld f i j := rfl
@[simp] theorem State.setCouch_on (t : Nat) (x : Couch) (f : Fld) (i j : Nat) : (s.setCouch t x).on f i j = s.on f i j := rfl
@[simp] theorem State.setCouch_cycle (t : Nat) (x : Couch)  : (s.setCouch t x).cycle = s.cycle := rfl

/-! ### `setGen` -/

@[simp] theorem State.setGen_now (k : Nat) (x : Gen) : (s.setGen k x).now = s.now := rfl
@[simp] theorem State.setGen_regs (k : Nat) (x : Gen) : (s.setGen k x).regs = s.regs := rfl
@[simp] theorem State.setGen_dev (k : Nat) (x : Gen) : (s.setGen k x).dev = s.dev := rfl
@[simp] theorem State.setGen_evm (k : Nat) (x : Gen) : (s.setGen k x).evm = s.evm := rfl
@[simp] theorem State.setGen_force (k : Nat) (x : Gen) : (s.setGen k x).force = s.force := rfl
@[simp] theorem State.setGen_seqs (k : Nat) (x : Gen) : (s.setGen k x).seqs = s.seqs := rfl
@[simp] theorem State.setGen_engs (k : Nat) (x : Gen) : (s.setGen k x).engs = s.engs := rfl
@[simp] theorem State.setGen_ress (k : Nat) (x : Gen) : (s.setGen k x).ress = s.ress := rfl
@[simp] theorem State.setGen_guards (k : Nat) (x : Gen) : (s.setGen k x).guards = s.guards := rfl
@[simp] theorem State.setGen_que (k : Nat) (x : Gen) : (s.setGen k x).que = s.que := rfl
@[simp] theorem State.setGen_memc (k : Nat) (x : Gen) : (s.setGen k x).memc = s.memc := rfl
@[simp] theorem State.setGen_hbm (k : Nat) (x : Gen) : (s.setGen k x).hbm = s.hbm := rfl
@[simp] theorem State.setGen_losses (k : Nat) (x : Gen) : (s.setGen k x).losses = s.losses := rfl
@[simp] theorem State.setGen_vat (k : Nat) (x : Gen) : (s.setGen k x).vat = s.vat := rfl
@[simp] theorem State.setGen_web (k : Nat) (x : Gen) : (s.setGen k x).web = s.web := rfl
@[simp] theorem State.setGen_jtag (k : Nat) (x : Gen) : (s.setGen k x).jtag = s.jtag := rfl
@[simp] theorem State.setGen_flt (k : Nat) (x : Gen) : (s.setGen k x).flt = s.flt := rfl
@[simp] theorem State.setGen_cal (k : Nat) (x : Gen) : (s.setGen k x).cal = s.cal := rfl
@[simp] theorem State.setGen_boot (k : Nat) (x : Gen) : (s.setGen k x).boot = s.boot := rfl
@[simp] theorem State.setGen_pwr (k : Nat) (x : Gen) : (s.setGen k x).pwr = s.pwr := rfl
@[simp] theorem State.setGen_fuses (k : Nat) (x : Gen) : (s.setGen k x).fuses = s.fuses := rfl
@[simp] theorem State.setGen_flash (k : Nat) (x : Gen) : (s.setGen k x).flash = s.flash := rfl
@[simp] theorem State.setGen_resp (k : Nat) (x : Gen) : (s.setGen k x).resp = s.resp := rfl
@[simp] theorem State.setGen_free (k : Nat) (x : Gen) : (s.setGen k x).free = s.free := rfl
@[simp] theorem State.setGen_pending (k : Nat) (x : Gen) : (s.setGen k x).pending = s.pending := rfl
@[simp] theorem State.setGen_forceOf (k : Nat) (x : Gen) (n : Nat) : (s.setGen k x).forceOf n = s.forceOf n := rfl
@[simp] theorem State.setGen_seqOf (k : Nat) (x : Gen) (n : Nat) : (s.setGen k x).seqOf n = s.seqOf n := rfl
@[simp] theorem State.setGen_engOf (k : Nat) (x : Gen) (n : Nat) : (s.setGen k x).engOf n = s.engOf n := rfl
@[simp] theorem State.setGen_resOf (k : Nat) (x : Gen) (n : Nat) : (s.setGen k x).resOf n = s.resOf n := rfl
@[simp] theorem State.setGen_feltOf (k : Nat) (x : Gen) (f : Nat) : (s.setGen k x).feltOf f = s.feltOf f := rfl
@[simp] theorem State.setGen_creditOf (k : Nat) (x : Gen) (p f : Nat) : (s.setGen k x).creditOf p f = s.creditOf p f := rfl
@[simp] theorem State.setGen_sliceOf (k : Nat) (x : Gen) (i : Nat) : (s.setGen k x).sliceOf i = s.sliceOf i := rfl
@[simp] theorem State.setGen_couchOf (k : Nat) (x : Gen) (t : Nat) : (s.setGen k x).couchOf t = s.couchOf t := rfl
@[simp] theorem State.setGen_beatPortOf (k : Nat) (x : Gen) (p : Nat) : (s.setGen k x).beatPortOf p = s.beatPortOf p := rfl
@[simp] theorem State.setGen_portOf (k : Nat) (x : Gen) (p : Nat) : (s.setGen k x).portOf p = s.portOf p := rfl
@[simp] theorem State.setGen_bankOf (k : Nat) (x : Gen) (k' : Nat) : (s.setGen k x).bankOf k' = s.bankOf k' := rfl
@[simp] theorem State.setGen_injOf (k : Nat) (x : Gen) (j : Nat) : (s.setGen k x).injOf j = s.injOf j := rfl
@[simp] theorem State.setGen_rcDynOf (k : Nat) (x : Gen) (c : Nat) : (s.setGen k x).rcDynOf c = s.rcDynOf c := rfl
@[simp] theorem State.setGen_pendOf (k : Nat) (x : Gen) (i : Nat) : (s.setGen k x).pendOf i = s.pendOf i := rfl
@[simp] theorem State.setGen_evioOf (k : Nat) (x : Gen) (j : Nat) : (s.setGen k x).evioOf j = s.evioOf j := rfl
@[simp] theorem State.setGen_coreOf (k : Nat) (x : Gen) (k' : Nat) : (s.setGen k x).coreOf k' = s.coreOf k' := rfl
@[simp] theorem State.setGen_fuseWord (k : Nat) (x : Gen) (i : Nat) : (s.setGen k x).fuseWord i = s.fuseWord i := rfl
@[simp] theorem State.setGen_flashByte (k : Nat) (x : Gen) (k' a : Nat) : (s.setGen k x).flashByte k' a = s.flashByte k' a := rfl
@[simp] theorem State.setGen_domainOn (k : Nat) (x : Gen) (d : Nat) : (s.setGen k x).domainOn d = s.domainOn d := rfl
@[simp] theorem State.setGen_rd (k : Nat) (x : Gen) (r : Reg) (i j : Nat) : (s.setGen k x).rd r i j = s.rd r i j := rfl
@[simp] theorem State.setGen_fld (k : Nat) (x : Gen) (f : Fld) (i j : Nat) : (s.setGen k x).fld f i j = s.fld f i j := rfl
@[simp] theorem State.setGen_on (k : Nat) (x : Gen) (f : Fld) (i j : Nat) : (s.setGen k x).on f i j = s.on f i j := rfl
@[simp] theorem State.setGen_cycle (k : Nat) (x : Gen)  : (s.setGen k x).cycle = s.cycle := rfl

/-! ### `setBeatPort` -/

@[simp] theorem State.setBeatPort_now (p : Nat) (x : BeatPort) : (s.setBeatPort p x).now = s.now := rfl
@[simp] theorem State.setBeatPort_regs (p : Nat) (x : BeatPort) : (s.setBeatPort p x).regs = s.regs := rfl
@[simp] theorem State.setBeatPort_dev (p : Nat) (x : BeatPort) : (s.setBeatPort p x).dev = s.dev := rfl
@[simp] theorem State.setBeatPort_evm (p : Nat) (x : BeatPort) : (s.setBeatPort p x).evm = s.evm := rfl
@[simp] theorem State.setBeatPort_force (p : Nat) (x : BeatPort) : (s.setBeatPort p x).force = s.force := rfl
@[simp] theorem State.setBeatPort_seqs (p : Nat) (x : BeatPort) : (s.setBeatPort p x).seqs = s.seqs := rfl
@[simp] theorem State.setBeatPort_engs (p : Nat) (x : BeatPort) : (s.setBeatPort p x).engs = s.engs := rfl
@[simp] theorem State.setBeatPort_ress (p : Nat) (x : BeatPort) : (s.setBeatPort p x).ress = s.ress := rfl
@[simp] theorem State.setBeatPort_guards (p : Nat) (x : BeatPort) : (s.setBeatPort p x).guards = s.guards := rfl
@[simp] theorem State.setBeatPort_que (p : Nat) (x : BeatPort) : (s.setBeatPort p x).que = s.que := rfl
@[simp] theorem State.setBeatPort_memc (p : Nat) (x : BeatPort) : (s.setBeatPort p x).memc = s.memc := rfl
@[simp] theorem State.setBeatPort_hbm (p : Nat) (x : BeatPort) : (s.setBeatPort p x).hbm = s.hbm := rfl
@[simp] theorem State.setBeatPort_losses (p : Nat) (x : BeatPort) : (s.setBeatPort p x).losses = s.losses := rfl
@[simp] theorem State.setBeatPort_vat (p : Nat) (x : BeatPort) : (s.setBeatPort p x).vat = s.vat := rfl
@[simp] theorem State.setBeatPort_web (p : Nat) (x : BeatPort) : (s.setBeatPort p x).web = s.web := rfl
@[simp] theorem State.setBeatPort_jtag (p : Nat) (x : BeatPort) : (s.setBeatPort p x).jtag = s.jtag := rfl
@[simp] theorem State.setBeatPort_flt (p : Nat) (x : BeatPort) : (s.setBeatPort p x).flt = s.flt := rfl
@[simp] theorem State.setBeatPort_cal (p : Nat) (x : BeatPort) : (s.setBeatPort p x).cal = s.cal := rfl
@[simp] theorem State.setBeatPort_boot (p : Nat) (x : BeatPort) : (s.setBeatPort p x).boot = s.boot := rfl
@[simp] theorem State.setBeatPort_pwr (p : Nat) (x : BeatPort) : (s.setBeatPort p x).pwr = s.pwr := rfl
@[simp] theorem State.setBeatPort_fuses (p : Nat) (x : BeatPort) : (s.setBeatPort p x).fuses = s.fuses := rfl
@[simp] theorem State.setBeatPort_flash (p : Nat) (x : BeatPort) : (s.setBeatPort p x).flash = s.flash := rfl
@[simp] theorem State.setBeatPort_resp (p : Nat) (x : BeatPort) : (s.setBeatPort p x).resp = s.resp := rfl
@[simp] theorem State.setBeatPort_free (p : Nat) (x : BeatPort) : (s.setBeatPort p x).free = s.free := rfl
@[simp] theorem State.setBeatPort_pending (p : Nat) (x : BeatPort) : (s.setBeatPort p x).pending = s.pending := rfl
@[simp] theorem State.setBeatPort_forceOf (p : Nat) (x : BeatPort) (n : Nat) : (s.setBeatPort p x).forceOf n = s.forceOf n := rfl
@[simp] theorem State.setBeatPort_seqOf (p : Nat) (x : BeatPort) (n : Nat) : (s.setBeatPort p x).seqOf n = s.seqOf n := rfl
@[simp] theorem State.setBeatPort_engOf (p : Nat) (x : BeatPort) (n : Nat) : (s.setBeatPort p x).engOf n = s.engOf n := rfl
@[simp] theorem State.setBeatPort_resOf (p : Nat) (x : BeatPort) (n : Nat) : (s.setBeatPort p x).resOf n = s.resOf n := rfl
@[simp] theorem State.setBeatPort_feltOf (p : Nat) (x : BeatPort) (f : Nat) : (s.setBeatPort p x).feltOf f = s.feltOf f := rfl
@[simp] theorem State.setBeatPort_creditOf (p : Nat) (x : BeatPort) (p' f : Nat) : (s.setBeatPort p x).creditOf p' f = s.creditOf p' f := rfl
@[simp] theorem State.setBeatPort_sliceOf (p : Nat) (x : BeatPort) (i : Nat) : (s.setBeatPort p x).sliceOf i = s.sliceOf i := rfl
@[simp] theorem State.setBeatPort_couchOf (p : Nat) (x : BeatPort) (t : Nat) : (s.setBeatPort p x).couchOf t = s.couchOf t := rfl
@[simp] theorem State.setBeatPort_genOf (p : Nat) (x : BeatPort) (k : Nat) : (s.setBeatPort p x).genOf k = s.genOf k := rfl
@[simp] theorem State.setBeatPort_portOf (p : Nat) (x : BeatPort) (p' : Nat) : (s.setBeatPort p x).portOf p' = s.portOf p' := rfl
@[simp] theorem State.setBeatPort_bankOf (p : Nat) (x : BeatPort) (k : Nat) : (s.setBeatPort p x).bankOf k = s.bankOf k := rfl
@[simp] theorem State.setBeatPort_injOf (p : Nat) (x : BeatPort) (j : Nat) : (s.setBeatPort p x).injOf j = s.injOf j := rfl
@[simp] theorem State.setBeatPort_rcDynOf (p : Nat) (x : BeatPort) (c : Nat) : (s.setBeatPort p x).rcDynOf c = s.rcDynOf c := rfl
@[simp] theorem State.setBeatPort_pendOf (p : Nat) (x : BeatPort) (i : Nat) : (s.setBeatPort p x).pendOf i = s.pendOf i := rfl
@[simp] theorem State.setBeatPort_evioOf (p : Nat) (x : BeatPort) (j : Nat) : (s.setBeatPort p x).evioOf j = s.evioOf j := rfl
@[simp] theorem State.setBeatPort_coreOf (p : Nat) (x : BeatPort) (k : Nat) : (s.setBeatPort p x).coreOf k = s.coreOf k := rfl
@[simp] theorem State.setBeatPort_fuseWord (p : Nat) (x : BeatPort) (i : Nat) : (s.setBeatPort p x).fuseWord i = s.fuseWord i := rfl
@[simp] theorem State.setBeatPort_flashByte (p : Nat) (x : BeatPort) (k a : Nat) : (s.setBeatPort p x).flashByte k a = s.flashByte k a := rfl
@[simp] theorem State.setBeatPort_domainOn (p : Nat) (x : BeatPort) (d : Nat) : (s.setBeatPort p x).domainOn d = s.domainOn d := rfl
@[simp] theorem State.setBeatPort_rd (p : Nat) (x : BeatPort) (r : Reg) (i j : Nat) : (s.setBeatPort p x).rd r i j = s.rd r i j := rfl
@[simp] theorem State.setBeatPort_fld (p : Nat) (x : BeatPort) (f : Fld) (i j : Nat) : (s.setBeatPort p x).fld f i j = s.fld f i j := rfl
@[simp] theorem State.setBeatPort_on (p : Nat) (x : BeatPort) (f : Fld) (i j : Nat) : (s.setBeatPort p x).on f i j = s.on f i j := rfl
@[simp] theorem State.setBeatPort_cycle (p : Nat) (x : BeatPort)  : (s.setBeatPort p x).cycle = s.cycle := rfl

/-! ### `setPort` -/

@[simp] theorem State.setPort_now (p : Nat) (x : Port) : (s.setPort p x).now = s.now := rfl
@[simp] theorem State.setPort_regs (p : Nat) (x : Port) : (s.setPort p x).regs = s.regs := rfl
@[simp] theorem State.setPort_dev (p : Nat) (x : Port) : (s.setPort p x).dev = s.dev := rfl
@[simp] theorem State.setPort_tb (p : Nat) (x : Port) : (s.setPort p x).tb = s.tb := rfl
@[simp] theorem State.setPort_evm (p : Nat) (x : Port) : (s.setPort p x).evm = s.evm := rfl
@[simp] theorem State.setPort_force (p : Nat) (x : Port) : (s.setPort p x).force = s.force := rfl
@[simp] theorem State.setPort_seqs (p : Nat) (x : Port) : (s.setPort p x).seqs = s.seqs := rfl
@[simp] theorem State.setPort_engs (p : Nat) (x : Port) : (s.setPort p x).engs = s.engs := rfl
@[simp] theorem State.setPort_ress (p : Nat) (x : Port) : (s.setPort p x).ress = s.ress := rfl
@[simp] theorem State.setPort_guards (p : Nat) (x : Port) : (s.setPort p x).guards = s.guards := rfl
@[simp] theorem State.setPort_que (p : Nat) (x : Port) : (s.setPort p x).que = s.que := rfl
@[simp] theorem State.setPort_memc (p : Nat) (x : Port) : (s.setPort p x).memc = s.memc := rfl
@[simp] theorem State.setPort_hbm (p : Nat) (x : Port) : (s.setPort p x).hbm = s.hbm := rfl
@[simp] theorem State.setPort_losses (p : Nat) (x : Port) : (s.setPort p x).losses = s.losses := rfl
@[simp] theorem State.setPort_vat (p : Nat) (x : Port) : (s.setPort p x).vat = s.vat := rfl
@[simp] theorem State.setPort_jtag (p : Nat) (x : Port) : (s.setPort p x).jtag = s.jtag := rfl
@[simp] theorem State.setPort_flt (p : Nat) (x : Port) : (s.setPort p x).flt = s.flt := rfl
@[simp] theorem State.setPort_cal (p : Nat) (x : Port) : (s.setPort p x).cal = s.cal := rfl
@[simp] theorem State.setPort_boot (p : Nat) (x : Port) : (s.setPort p x).boot = s.boot := rfl
@[simp] theorem State.setPort_pwr (p : Nat) (x : Port) : (s.setPort p x).pwr = s.pwr := rfl
@[simp] theorem State.setPort_fuses (p : Nat) (x : Port) : (s.setPort p x).fuses = s.fuses := rfl
@[simp] theorem State.setPort_flash (p : Nat) (x : Port) : (s.setPort p x).flash = s.flash := rfl
@[simp] theorem State.setPort_resp (p : Nat) (x : Port) : (s.setPort p x).resp = s.resp := rfl
@[simp] theorem State.setPort_free (p : Nat) (x : Port) : (s.setPort p x).free = s.free := rfl
@[simp] theorem State.setPort_pending (p : Nat) (x : Port) : (s.setPort p x).pending = s.pending := rfl
@[simp] theorem State.setPort_forceOf (p : Nat) (x : Port) (n : Nat) : (s.setPort p x).forceOf n = s.forceOf n := rfl
@[simp] theorem State.setPort_seqOf (p : Nat) (x : Port) (n : Nat) : (s.setPort p x).seqOf n = s.seqOf n := rfl
@[simp] theorem State.setPort_engOf (p : Nat) (x : Port) (n : Nat) : (s.setPort p x).engOf n = s.engOf n := rfl
@[simp] theorem State.setPort_resOf (p : Nat) (x : Port) (n : Nat) : (s.setPort p x).resOf n = s.resOf n := rfl
@[simp] theorem State.setPort_feltOf (p : Nat) (x : Port) (f : Nat) : (s.setPort p x).feltOf f = s.feltOf f := rfl
@[simp] theorem State.setPort_creditOf (p : Nat) (x : Port) (p' f : Nat) : (s.setPort p x).creditOf p' f = s.creditOf p' f := rfl
@[simp] theorem State.setPort_sliceOf (p : Nat) (x : Port) (i : Nat) : (s.setPort p x).sliceOf i = s.sliceOf i := rfl
@[simp] theorem State.setPort_couchOf (p : Nat) (x : Port) (t : Nat) : (s.setPort p x).couchOf t = s.couchOf t := rfl
@[simp] theorem State.setPort_genOf (p : Nat) (x : Port) (k : Nat) : (s.setPort p x).genOf k = s.genOf k := rfl
@[simp] theorem State.setPort_beatPortOf (p : Nat) (x : Port) (p' : Nat) : (s.setPort p x).beatPortOf p' = s.beatPortOf p' := rfl
@[simp] theorem State.setPort_bankOf (p : Nat) (x : Port) (k : Nat) : (s.setPort p x).bankOf k = s.bankOf k := rfl
@[simp] theorem State.setPort_injOf (p : Nat) (x : Port) (j : Nat) : (s.setPort p x).injOf j = s.injOf j := rfl
@[simp] theorem State.setPort_rcDynOf (p : Nat) (x : Port) (c : Nat) : (s.setPort p x).rcDynOf c = s.rcDynOf c := rfl
@[simp] theorem State.setPort_pendOf (p : Nat) (x : Port) (i : Nat) : (s.setPort p x).pendOf i = s.pendOf i := rfl
@[simp] theorem State.setPort_evioOf (p : Nat) (x : Port) (j : Nat) : (s.setPort p x).evioOf j = s.evioOf j := rfl
@[simp] theorem State.setPort_coreOf (p : Nat) (x : Port) (k : Nat) : (s.setPort p x).coreOf k = s.coreOf k := rfl
@[simp] theorem State.setPort_fuseWord (p : Nat) (x : Port) (i : Nat) : (s.setPort p x).fuseWord i = s.fuseWord i := rfl
@[simp] theorem State.setPort_flashByte (p : Nat) (x : Port) (k a : Nat) : (s.setPort p x).flashByte k a = s.flashByte k a := rfl
@[simp] theorem State.setPort_domainOn (p : Nat) (x : Port) (d : Nat) : (s.setPort p x).domainOn d = s.domainOn d := rfl
@[simp] theorem State.setPort_rd (p : Nat) (x : Port) (r : Reg) (i j : Nat) : (s.setPort p x).rd r i j = s.rd r i j := rfl
@[simp] theorem State.setPort_fld (p : Nat) (x : Port) (f : Fld) (i j : Nat) : (s.setPort p x).fld f i j = s.fld f i j := rfl
@[simp] theorem State.setPort_on (p : Nat) (x : Port) (f : Fld) (i j : Nat) : (s.setPort p x).on f i j = s.on f i j := rfl
@[simp] theorem State.setPort_cycle (p : Nat) (x : Port)  : (s.setPort p x).cycle = s.cycle := rfl

/-! ### `setBank` -/

@[simp] theorem State.setBank_now (k : Nat) (x : Bank) : (s.setBank k x).now = s.now := rfl
@[simp] theorem State.setBank_regs (k : Nat) (x : Bank) : (s.setBank k x).regs = s.regs := rfl
@[simp] theorem State.setBank_dev (k : Nat) (x : Bank) : (s.setBank k x).dev = s.dev := rfl
@[simp] theorem State.setBank_tb (k : Nat) (x : Bank) : (s.setBank k x).tb = s.tb := rfl
@[simp] theorem State.setBank_evm (k : Nat) (x : Bank) : (s.setBank k x).evm = s.evm := rfl
@[simp] theorem State.setBank_force (k : Nat) (x : Bank) : (s.setBank k x).force = s.force := rfl
@[simp] theorem State.setBank_seqs (k : Nat) (x : Bank) : (s.setBank k x).seqs = s.seqs := rfl
@[simp] theorem State.setBank_engs (k : Nat) (x : Bank) : (s.setBank k x).engs = s.engs := rfl
@[simp] theorem State.setBank_ress (k : Nat) (x : Bank) : (s.setBank k x).ress = s.ress := rfl
@[simp] theorem State.setBank_guards (k : Nat) (x : Bank) : (s.setBank k x).guards = s.guards := rfl
@[simp] theorem State.setBank_que (k : Nat) (x : Bank) : (s.setBank k x).que = s.que := rfl
@[simp] theorem State.setBank_hbm (k : Nat) (x : Bank) : (s.setBank k x).hbm = s.hbm := rfl
@[simp] theorem State.setBank_losses (k : Nat) (x : Bank) : (s.setBank k x).losses = s.losses := rfl
@[simp] theorem State.setBank_vat (k : Nat) (x : Bank) : (s.setBank k x).vat = s.vat := rfl
@[simp] theorem State.setBank_web (k : Nat) (x : Bank) : (s.setBank k x).web = s.web := rfl
@[simp] theorem State.setBank_jtag (k : Nat) (x : Bank) : (s.setBank k x).jtag = s.jtag := rfl
@[simp] theorem State.setBank_flt (k : Nat) (x : Bank) : (s.setBank k x).flt = s.flt := rfl
@[simp] theorem State.setBank_cal (k : Nat) (x : Bank) : (s.setBank k x).cal = s.cal := rfl
@[simp] theorem State.setBank_boot (k : Nat) (x : Bank) : (s.setBank k x).boot = s.boot := rfl
@[simp] theorem State.setBank_pwr (k : Nat) (x : Bank) : (s.setBank k x).pwr = s.pwr := rfl
@[simp] theorem State.setBank_fuses (k : Nat) (x : Bank) : (s.setBank k x).fuses = s.fuses := rfl
@[simp] theorem State.setBank_flash (k : Nat) (x : Bank) : (s.setBank k x).flash = s.flash := rfl
@[simp] theorem State.setBank_resp (k : Nat) (x : Bank) : (s.setBank k x).resp = s.resp := rfl
@[simp] theorem State.setBank_free (k : Nat) (x : Bank) : (s.setBank k x).free = s.free := rfl
@[simp] theorem State.setBank_pending (k : Nat) (x : Bank) : (s.setBank k x).pending = s.pending := rfl
@[simp] theorem State.setBank_forceOf (k : Nat) (x : Bank) (n : Nat) : (s.setBank k x).forceOf n = s.forceOf n := rfl
@[simp] theorem State.setBank_seqOf (k : Nat) (x : Bank) (n : Nat) : (s.setBank k x).seqOf n = s.seqOf n := rfl
@[simp] theorem State.setBank_engOf (k : Nat) (x : Bank) (n : Nat) : (s.setBank k x).engOf n = s.engOf n := rfl
@[simp] theorem State.setBank_resOf (k : Nat) (x : Bank) (n : Nat) : (s.setBank k x).resOf n = s.resOf n := rfl
@[simp] theorem State.setBank_feltOf (k : Nat) (x : Bank) (f : Nat) : (s.setBank k x).feltOf f = s.feltOf f := rfl
@[simp] theorem State.setBank_creditOf (k : Nat) (x : Bank) (p f : Nat) : (s.setBank k x).creditOf p f = s.creditOf p f := rfl
@[simp] theorem State.setBank_sliceOf (k : Nat) (x : Bank) (i : Nat) : (s.setBank k x).sliceOf i = s.sliceOf i := rfl
@[simp] theorem State.setBank_couchOf (k : Nat) (x : Bank) (t : Nat) : (s.setBank k x).couchOf t = s.couchOf t := rfl
@[simp] theorem State.setBank_genOf (k : Nat) (x : Bank) (k' : Nat) : (s.setBank k x).genOf k' = s.genOf k' := rfl
@[simp] theorem State.setBank_beatPortOf (k : Nat) (x : Bank) (p : Nat) : (s.setBank k x).beatPortOf p = s.beatPortOf p := rfl
@[simp] theorem State.setBank_portOf (k : Nat) (x : Bank) (p : Nat) : (s.setBank k x).portOf p = s.portOf p := rfl
@[simp] theorem State.setBank_injOf (k : Nat) (x : Bank) (j : Nat) : (s.setBank k x).injOf j = s.injOf j := rfl
@[simp] theorem State.setBank_rcDynOf (k : Nat) (x : Bank) (c : Nat) : (s.setBank k x).rcDynOf c = s.rcDynOf c := rfl
@[simp] theorem State.setBank_pendOf (k : Nat) (x : Bank) (i : Nat) : (s.setBank k x).pendOf i = s.pendOf i := rfl
@[simp] theorem State.setBank_evioOf (k : Nat) (x : Bank) (j : Nat) : (s.setBank k x).evioOf j = s.evioOf j := rfl
@[simp] theorem State.setBank_coreOf (k : Nat) (x : Bank) (k' : Nat) : (s.setBank k x).coreOf k' = s.coreOf k' := rfl
@[simp] theorem State.setBank_fuseWord (k : Nat) (x : Bank) (i : Nat) : (s.setBank k x).fuseWord i = s.fuseWord i := rfl
@[simp] theorem State.setBank_flashByte (k : Nat) (x : Bank) (k' a : Nat) : (s.setBank k x).flashByte k' a = s.flashByte k' a := rfl
@[simp] theorem State.setBank_domainOn (k : Nat) (x : Bank) (d : Nat) : (s.setBank k x).domainOn d = s.domainOn d := rfl
@[simp] theorem State.setBank_rd (k : Nat) (x : Bank) (r : Reg) (i j : Nat) : (s.setBank k x).rd r i j = s.rd r i j := rfl
@[simp] theorem State.setBank_fld (k : Nat) (x : Bank) (f : Fld) (i j : Nat) : (s.setBank k x).fld f i j = s.fld f i j := rfl
@[simp] theorem State.setBank_on (k : Nat) (x : Bank) (f : Fld) (i j : Nat) : (s.setBank k x).on f i j = s.on f i j := rfl
@[simp] theorem State.setBank_cycle (k : Nat) (x : Bank)  : (s.setBank k x).cycle = s.cycle := rfl

/-! ### `setInj` -/

@[simp] theorem State.setInj_now (j : Nat) (x : Inj) : (s.setInj j x).now = s.now := rfl
@[simp] theorem State.setInj_regs (j : Nat) (x : Inj) : (s.setInj j x).regs = s.regs := rfl
@[simp] theorem State.setInj_dev (j : Nat) (x : Inj) : (s.setInj j x).dev = s.dev := rfl
@[simp] theorem State.setInj_tb (j : Nat) (x : Inj) : (s.setInj j x).tb = s.tb := rfl
@[simp] theorem State.setInj_evm (j : Nat) (x : Inj) : (s.setInj j x).evm = s.evm := rfl
@[simp] theorem State.setInj_force (j : Nat) (x : Inj) : (s.setInj j x).force = s.force := rfl
@[simp] theorem State.setInj_seqs (j : Nat) (x : Inj) : (s.setInj j x).seqs = s.seqs := rfl
@[simp] theorem State.setInj_engs (j : Nat) (x : Inj) : (s.setInj j x).engs = s.engs := rfl
@[simp] theorem State.setInj_ress (j : Nat) (x : Inj) : (s.setInj j x).ress = s.ress := rfl
@[simp] theorem State.setInj_guards (j : Nat) (x : Inj) : (s.setInj j x).guards = s.guards := rfl
@[simp] theorem State.setInj_que (j : Nat) (x : Inj) : (s.setInj j x).que = s.que := rfl
@[simp] theorem State.setInj_memc (j : Nat) (x : Inj) : (s.setInj j x).memc = s.memc := rfl
@[simp] theorem State.setInj_hbm (j : Nat) (x : Inj) : (s.setInj j x).hbm = s.hbm := rfl
@[simp] theorem State.setInj_losses (j : Nat) (x : Inj) : (s.setInj j x).losses = s.losses := rfl
@[simp] theorem State.setInj_vat (j : Nat) (x : Inj) : (s.setInj j x).vat = s.vat := rfl
@[simp] theorem State.setInj_web (j : Nat) (x : Inj) : (s.setInj j x).web = s.web := rfl
@[simp] theorem State.setInj_jtag (j : Nat) (x : Inj) : (s.setInj j x).jtag = s.jtag := rfl
@[simp] theorem State.setInj_cal (j : Nat) (x : Inj) : (s.setInj j x).cal = s.cal := rfl
@[simp] theorem State.setInj_boot (j : Nat) (x : Inj) : (s.setInj j x).boot = s.boot := rfl
@[simp] theorem State.setInj_pwr (j : Nat) (x : Inj) : (s.setInj j x).pwr = s.pwr := rfl
@[simp] theorem State.setInj_fuses (j : Nat) (x : Inj) : (s.setInj j x).fuses = s.fuses := rfl
@[simp] theorem State.setInj_flash (j : Nat) (x : Inj) : (s.setInj j x).flash = s.flash := rfl
@[simp] theorem State.setInj_resp (j : Nat) (x : Inj) : (s.setInj j x).resp = s.resp := rfl
@[simp] theorem State.setInj_free (j : Nat) (x : Inj) : (s.setInj j x).free = s.free := rfl
@[simp] theorem State.setInj_pending (j : Nat) (x : Inj) : (s.setInj j x).pending = s.pending := rfl
@[simp] theorem State.setInj_forceOf (j : Nat) (x : Inj) (n : Nat) : (s.setInj j x).forceOf n = s.forceOf n := rfl
@[simp] theorem State.setInj_seqOf (j : Nat) (x : Inj) (n : Nat) : (s.setInj j x).seqOf n = s.seqOf n := rfl
@[simp] theorem State.setInj_engOf (j : Nat) (x : Inj) (n : Nat) : (s.setInj j x).engOf n = s.engOf n := rfl
@[simp] theorem State.setInj_resOf (j : Nat) (x : Inj) (n : Nat) : (s.setInj j x).resOf n = s.resOf n := rfl
@[simp] theorem State.setInj_feltOf (j : Nat) (x : Inj) (f : Nat) : (s.setInj j x).feltOf f = s.feltOf f := rfl
@[simp] theorem State.setInj_creditOf (j : Nat) (x : Inj) (p f : Nat) : (s.setInj j x).creditOf p f = s.creditOf p f := rfl
@[simp] theorem State.setInj_sliceOf (j : Nat) (x : Inj) (i : Nat) : (s.setInj j x).sliceOf i = s.sliceOf i := rfl
@[simp] theorem State.setInj_couchOf (j : Nat) (x : Inj) (t : Nat) : (s.setInj j x).couchOf t = s.couchOf t := rfl
@[simp] theorem State.setInj_genOf (j : Nat) (x : Inj) (k : Nat) : (s.setInj j x).genOf k = s.genOf k := rfl
@[simp] theorem State.setInj_beatPortOf (j : Nat) (x : Inj) (p : Nat) : (s.setInj j x).beatPortOf p = s.beatPortOf p := rfl
@[simp] theorem State.setInj_portOf (j : Nat) (x : Inj) (p : Nat) : (s.setInj j x).portOf p = s.portOf p := rfl
@[simp] theorem State.setInj_bankOf (j : Nat) (x : Inj) (k : Nat) : (s.setInj j x).bankOf k = s.bankOf k := rfl
@[simp] theorem State.setInj_rcDynOf (j : Nat) (x : Inj) (c : Nat) : (s.setInj j x).rcDynOf c = s.rcDynOf c := rfl
@[simp] theorem State.setInj_pendOf (j : Nat) (x : Inj) (i : Nat) : (s.setInj j x).pendOf i = s.pendOf i := rfl
@[simp] theorem State.setInj_evioOf (j : Nat) (x : Inj) (j' : Nat) : (s.setInj j x).evioOf j' = s.evioOf j' := rfl
@[simp] theorem State.setInj_coreOf (j : Nat) (x : Inj) (k : Nat) : (s.setInj j x).coreOf k = s.coreOf k := rfl
@[simp] theorem State.setInj_fuseWord (j : Nat) (x : Inj) (i : Nat) : (s.setInj j x).fuseWord i = s.fuseWord i := rfl
@[simp] theorem State.setInj_flashByte (j : Nat) (x : Inj) (k a : Nat) : (s.setInj j x).flashByte k a = s.flashByte k a := rfl
@[simp] theorem State.setInj_domainOn (j : Nat) (x : Inj) (d : Nat) : (s.setInj j x).domainOn d = s.domainOn d := rfl
@[simp] theorem State.setInj_rd (j : Nat) (x : Inj) (r : Reg) (i j' : Nat) : (s.setInj j x).rd r i j' = s.rd r i j' := rfl
@[simp] theorem State.setInj_fld (j : Nat) (x : Inj) (f : Fld) (i j' : Nat) : (s.setInj j x).fld f i j' = s.fld f i j' := rfl
@[simp] theorem State.setInj_on (j : Nat) (x : Inj) (f : Fld) (i j' : Nat) : (s.setInj j x).on f i j' = s.on f i j' := rfl
@[simp] theorem State.setInj_cycle (j : Nat) (x : Inj)  : (s.setInj j x).cycle = s.cycle := rfl

/-! ### `setRcDyn` -/

@[simp] theorem State.setRcDyn_now (c : Nat) (x : RcDyn) : (s.setRcDyn c x).now = s.now := rfl
@[simp] theorem State.setRcDyn_regs (c : Nat) (x : RcDyn) : (s.setRcDyn c x).regs = s.regs := rfl
@[simp] theorem State.setRcDyn_dev (c : Nat) (x : RcDyn) : (s.setRcDyn c x).dev = s.dev := rfl
@[simp] theorem State.setRcDyn_tb (c : Nat) (x : RcDyn) : (s.setRcDyn c x).tb = s.tb := rfl
@[simp] theorem State.setRcDyn_force (c : Nat) (x : RcDyn) : (s.setRcDyn c x).force = s.force := rfl
@[simp] theorem State.setRcDyn_seqs (c : Nat) (x : RcDyn) : (s.setRcDyn c x).seqs = s.seqs := rfl
@[simp] theorem State.setRcDyn_engs (c : Nat) (x : RcDyn) : (s.setRcDyn c x).engs = s.engs := rfl
@[simp] theorem State.setRcDyn_ress (c : Nat) (x : RcDyn) : (s.setRcDyn c x).ress = s.ress := rfl
@[simp] theorem State.setRcDyn_guards (c : Nat) (x : RcDyn) : (s.setRcDyn c x).guards = s.guards := rfl
@[simp] theorem State.setRcDyn_que (c : Nat) (x : RcDyn) : (s.setRcDyn c x).que = s.que := rfl
@[simp] theorem State.setRcDyn_memc (c : Nat) (x : RcDyn) : (s.setRcDyn c x).memc = s.memc := rfl
@[simp] theorem State.setRcDyn_hbm (c : Nat) (x : RcDyn) : (s.setRcDyn c x).hbm = s.hbm := rfl
@[simp] theorem State.setRcDyn_losses (c : Nat) (x : RcDyn) : (s.setRcDyn c x).losses = s.losses := rfl
@[simp] theorem State.setRcDyn_vat (c : Nat) (x : RcDyn) : (s.setRcDyn c x).vat = s.vat := rfl
@[simp] theorem State.setRcDyn_web (c : Nat) (x : RcDyn) : (s.setRcDyn c x).web = s.web := rfl
@[simp] theorem State.setRcDyn_jtag (c : Nat) (x : RcDyn) : (s.setRcDyn c x).jtag = s.jtag := rfl
@[simp] theorem State.setRcDyn_flt (c : Nat) (x : RcDyn) : (s.setRcDyn c x).flt = s.flt := rfl
@[simp] theorem State.setRcDyn_cal (c : Nat) (x : RcDyn) : (s.setRcDyn c x).cal = s.cal := rfl
@[simp] theorem State.setRcDyn_boot (c : Nat) (x : RcDyn) : (s.setRcDyn c x).boot = s.boot := rfl
@[simp] theorem State.setRcDyn_pwr (c : Nat) (x : RcDyn) : (s.setRcDyn c x).pwr = s.pwr := rfl
@[simp] theorem State.setRcDyn_fuses (c : Nat) (x : RcDyn) : (s.setRcDyn c x).fuses = s.fuses := rfl
@[simp] theorem State.setRcDyn_flash (c : Nat) (x : RcDyn) : (s.setRcDyn c x).flash = s.flash := rfl
@[simp] theorem State.setRcDyn_resp (c : Nat) (x : RcDyn) : (s.setRcDyn c x).resp = s.resp := rfl
@[simp] theorem State.setRcDyn_free (c : Nat) (x : RcDyn) : (s.setRcDyn c x).free = s.free := rfl
@[simp] theorem State.setRcDyn_pending (c : Nat) (x : RcDyn) : (s.setRcDyn c x).pending = s.pending := rfl
@[simp] theorem State.setRcDyn_forceOf (c : Nat) (x : RcDyn) (n : Nat) : (s.setRcDyn c x).forceOf n = s.forceOf n := rfl
@[simp] theorem State.setRcDyn_seqOf (c : Nat) (x : RcDyn) (n : Nat) : (s.setRcDyn c x).seqOf n = s.seqOf n := rfl
@[simp] theorem State.setRcDyn_engOf (c : Nat) (x : RcDyn) (n : Nat) : (s.setRcDyn c x).engOf n = s.engOf n := rfl
@[simp] theorem State.setRcDyn_resOf (c : Nat) (x : RcDyn) (n : Nat) : (s.setRcDyn c x).resOf n = s.resOf n := rfl
@[simp] theorem State.setRcDyn_feltOf (c : Nat) (x : RcDyn) (f : Nat) : (s.setRcDyn c x).feltOf f = s.feltOf f := rfl
@[simp] theorem State.setRcDyn_creditOf (c : Nat) (x : RcDyn) (p f : Nat) : (s.setRcDyn c x).creditOf p f = s.creditOf p f := rfl
@[simp] theorem State.setRcDyn_sliceOf (c : Nat) (x : RcDyn) (i : Nat) : (s.setRcDyn c x).sliceOf i = s.sliceOf i := rfl
@[simp] theorem State.setRcDyn_couchOf (c : Nat) (x : RcDyn) (t : Nat) : (s.setRcDyn c x).couchOf t = s.couchOf t := rfl
@[simp] theorem State.setRcDyn_genOf (c : Nat) (x : RcDyn) (k : Nat) : (s.setRcDyn c x).genOf k = s.genOf k := rfl
@[simp] theorem State.setRcDyn_beatPortOf (c : Nat) (x : RcDyn) (p : Nat) : (s.setRcDyn c x).beatPortOf p = s.beatPortOf p := rfl
@[simp] theorem State.setRcDyn_portOf (c : Nat) (x : RcDyn) (p : Nat) : (s.setRcDyn c x).portOf p = s.portOf p := rfl
@[simp] theorem State.setRcDyn_bankOf (c : Nat) (x : RcDyn) (k : Nat) : (s.setRcDyn c x).bankOf k = s.bankOf k := rfl
@[simp] theorem State.setRcDyn_injOf (c : Nat) (x : RcDyn) (j : Nat) : (s.setRcDyn c x).injOf j = s.injOf j := rfl
@[simp] theorem State.setRcDyn_pendOf (c : Nat) (x : RcDyn) (i : Nat) : (s.setRcDyn c x).pendOf i = s.pendOf i := rfl
@[simp] theorem State.setRcDyn_evioOf (c : Nat) (x : RcDyn) (j : Nat) : (s.setRcDyn c x).evioOf j = s.evioOf j := rfl
@[simp] theorem State.setRcDyn_coreOf (c : Nat) (x : RcDyn) (k : Nat) : (s.setRcDyn c x).coreOf k = s.coreOf k := rfl
@[simp] theorem State.setRcDyn_fuseWord (c : Nat) (x : RcDyn) (i : Nat) : (s.setRcDyn c x).fuseWord i = s.fuseWord i := rfl
@[simp] theorem State.setRcDyn_flashByte (c : Nat) (x : RcDyn) (k a : Nat) : (s.setRcDyn c x).flashByte k a = s.flashByte k a := rfl
@[simp] theorem State.setRcDyn_domainOn (c : Nat) (x : RcDyn) (d : Nat) : (s.setRcDyn c x).domainOn d = s.domainOn d := rfl
@[simp] theorem State.setRcDyn_rd (c : Nat) (x : RcDyn) (r : Reg) (i j : Nat) : (s.setRcDyn c x).rd r i j = s.rd r i j := rfl
@[simp] theorem State.setRcDyn_fld (c : Nat) (x : RcDyn) (f : Fld) (i j : Nat) : (s.setRcDyn c x).fld f i j = s.fld f i j := rfl
@[simp] theorem State.setRcDyn_on (c : Nat) (x : RcDyn) (f : Fld) (i j : Nat) : (s.setRcDyn c x).on f i j = s.on f i j := rfl
@[simp] theorem State.setRcDyn_cycle (c : Nat) (x : RcDyn)  : (s.setRcDyn c x).cycle = s.cycle := rfl

/-! ### `setPend` -/

@[simp] theorem State.setPend_now (i x : Nat) : (s.setPend i x).now = s.now := rfl
@[simp] theorem State.setPend_regs (i x : Nat) : (s.setPend i x).regs = s.regs := rfl
@[simp] theorem State.setPend_dev (i x : Nat) : (s.setPend i x).dev = s.dev := rfl
@[simp] theorem State.setPend_tb (i x : Nat) : (s.setPend i x).tb = s.tb := rfl
@[simp] theorem State.setPend_force (i x : Nat) : (s.setPend i x).force = s.force := rfl
@[simp] theorem State.setPend_seqs (i x : Nat) : (s.setPend i x).seqs = s.seqs := rfl
@[simp] theorem State.setPend_engs (i x : Nat) : (s.setPend i x).engs = s.engs := rfl
@[simp] theorem State.setPend_ress (i x : Nat) : (s.setPend i x).ress = s.ress := rfl
@[simp] theorem State.setPend_guards (i x : Nat) : (s.setPend i x).guards = s.guards := rfl
@[simp] theorem State.setPend_que (i x : Nat) : (s.setPend i x).que = s.que := rfl
@[simp] theorem State.setPend_memc (i x : Nat) : (s.setPend i x).memc = s.memc := rfl
@[simp] theorem State.setPend_hbm (i x : Nat) : (s.setPend i x).hbm = s.hbm := rfl
@[simp] theorem State.setPend_losses (i x : Nat) : (s.setPend i x).losses = s.losses := rfl
@[simp] theorem State.setPend_vat (i x : Nat) : (s.setPend i x).vat = s.vat := rfl
@[simp] theorem State.setPend_web (i x : Nat) : (s.setPend i x).web = s.web := rfl
@[simp] theorem State.setPend_jtag (i x : Nat) : (s.setPend i x).jtag = s.jtag := rfl
@[simp] theorem State.setPend_flt (i x : Nat) : (s.setPend i x).flt = s.flt := rfl
@[simp] theorem State.setPend_cal (i x : Nat) : (s.setPend i x).cal = s.cal := rfl
@[simp] theorem State.setPend_boot (i x : Nat) : (s.setPend i x).boot = s.boot := rfl
@[simp] theorem State.setPend_pwr (i x : Nat) : (s.setPend i x).pwr = s.pwr := rfl
@[simp] theorem State.setPend_fuses (i x : Nat) : (s.setPend i x).fuses = s.fuses := rfl
@[simp] theorem State.setPend_flash (i x : Nat) : (s.setPend i x).flash = s.flash := rfl
@[simp] theorem State.setPend_resp (i x : Nat) : (s.setPend i x).resp = s.resp := rfl
@[simp] theorem State.setPend_free (i x : Nat) : (s.setPend i x).free = s.free := rfl
@[simp] theorem State.setPend_pending (i x : Nat) : (s.setPend i x).pending = s.pending := rfl
@[simp] theorem State.setPend_forceOf (i x : Nat) (n : Nat) : (s.setPend i x).forceOf n = s.forceOf n := rfl
@[simp] theorem State.setPend_seqOf (i x : Nat) (n : Nat) : (s.setPend i x).seqOf n = s.seqOf n := rfl
@[simp] theorem State.setPend_engOf (i x : Nat) (n : Nat) : (s.setPend i x).engOf n = s.engOf n := rfl
@[simp] theorem State.setPend_resOf (i x : Nat) (n : Nat) : (s.setPend i x).resOf n = s.resOf n := rfl
@[simp] theorem State.setPend_feltOf (i x : Nat) (f : Nat) : (s.setPend i x).feltOf f = s.feltOf f := rfl
@[simp] theorem State.setPend_creditOf (i x : Nat) (p f : Nat) : (s.setPend i x).creditOf p f = s.creditOf p f := rfl
@[simp] theorem State.setPend_sliceOf (i x : Nat) (i' : Nat) : (s.setPend i x).sliceOf i' = s.sliceOf i' := rfl
@[simp] theorem State.setPend_couchOf (i x : Nat) (t : Nat) : (s.setPend i x).couchOf t = s.couchOf t := rfl
@[simp] theorem State.setPend_genOf (i x : Nat) (k : Nat) : (s.setPend i x).genOf k = s.genOf k := rfl
@[simp] theorem State.setPend_beatPortOf (i x : Nat) (p : Nat) : (s.setPend i x).beatPortOf p = s.beatPortOf p := rfl
@[simp] theorem State.setPend_portOf (i x : Nat) (p : Nat) : (s.setPend i x).portOf p = s.portOf p := rfl
@[simp] theorem State.setPend_bankOf (i x : Nat) (k : Nat) : (s.setPend i x).bankOf k = s.bankOf k := rfl
@[simp] theorem State.setPend_injOf (i x : Nat) (j : Nat) : (s.setPend i x).injOf j = s.injOf j := rfl
@[simp] theorem State.setPend_rcDynOf (i x : Nat) (c : Nat) : (s.setPend i x).rcDynOf c = s.rcDynOf c := rfl
@[simp] theorem State.setPend_evioOf (i x : Nat) (j : Nat) : (s.setPend i x).evioOf j = s.evioOf j := rfl
@[simp] theorem State.setPend_coreOf (i x : Nat) (k : Nat) : (s.setPend i x).coreOf k = s.coreOf k := rfl
@[simp] theorem State.setPend_fuseWord (i x : Nat) (i' : Nat) : (s.setPend i x).fuseWord i' = s.fuseWord i' := rfl
@[simp] theorem State.setPend_flashByte (i x : Nat) (k a : Nat) : (s.setPend i x).flashByte k a = s.flashByte k a := rfl
@[simp] theorem State.setPend_domainOn (i x : Nat) (d : Nat) : (s.setPend i x).domainOn d = s.domainOn d := rfl
@[simp] theorem State.setPend_rd (i x : Nat) (r : Reg) (i' j : Nat) : (s.setPend i x).rd r i' j = s.rd r i' j := rfl
@[simp] theorem State.setPend_fld (i x : Nat) (f : Fld) (i' j : Nat) : (s.setPend i x).fld f i' j = s.fld f i' j := rfl
@[simp] theorem State.setPend_on (i x : Nat) (f : Fld) (i' j : Nat) : (s.setPend i x).on f i' j = s.on f i' j := rfl
@[simp] theorem State.setPend_cycle (i x : Nat)  : (s.setPend i x).cycle = s.cycle := rfl

/-! ### `setEvio` -/

@[simp] theorem State.setEvio_now (j : Nat) (x : Evio) : (s.setEvio j x).now = s.now := rfl
@[simp] theorem State.setEvio_regs (j : Nat) (x : Evio) : (s.setEvio j x).regs = s.regs := rfl
@[simp] theorem State.setEvio_dev (j : Nat) (x : Evio) : (s.setEvio j x).dev = s.dev := rfl
@[simp] theorem State.setEvio_tb (j : Nat) (x : Evio) : (s.setEvio j x).tb = s.tb := rfl
@[simp] theorem State.setEvio_force (j : Nat) (x : Evio) : (s.setEvio j x).force = s.force := rfl
@[simp] theorem State.setEvio_seqs (j : Nat) (x : Evio) : (s.setEvio j x).seqs = s.seqs := rfl
@[simp] theorem State.setEvio_engs (j : Nat) (x : Evio) : (s.setEvio j x).engs = s.engs := rfl
@[simp] theorem State.setEvio_ress (j : Nat) (x : Evio) : (s.setEvio j x).ress = s.ress := rfl
@[simp] theorem State.setEvio_guards (j : Nat) (x : Evio) : (s.setEvio j x).guards = s.guards := rfl
@[simp] theorem State.setEvio_que (j : Nat) (x : Evio) : (s.setEvio j x).que = s.que := rfl
@[simp] theorem State.setEvio_memc (j : Nat) (x : Evio) : (s.setEvio j x).memc = s.memc := rfl
@[simp] theorem State.setEvio_hbm (j : Nat) (x : Evio) : (s.setEvio j x).hbm = s.hbm := rfl
@[simp] theorem State.setEvio_losses (j : Nat) (x : Evio) : (s.setEvio j x).losses = s.losses := rfl
@[simp] theorem State.setEvio_vat (j : Nat) (x : Evio) : (s.setEvio j x).vat = s.vat := rfl
@[simp] theorem State.setEvio_web (j : Nat) (x : Evio) : (s.setEvio j x).web = s.web := rfl
@[simp] theorem State.setEvio_jtag (j : Nat) (x : Evio) : (s.setEvio j x).jtag = s.jtag := rfl
@[simp] theorem State.setEvio_flt (j : Nat) (x : Evio) : (s.setEvio j x).flt = s.flt := rfl
@[simp] theorem State.setEvio_cal (j : Nat) (x : Evio) : (s.setEvio j x).cal = s.cal := rfl
@[simp] theorem State.setEvio_boot (j : Nat) (x : Evio) : (s.setEvio j x).boot = s.boot := rfl
@[simp] theorem State.setEvio_pwr (j : Nat) (x : Evio) : (s.setEvio j x).pwr = s.pwr := rfl
@[simp] theorem State.setEvio_fuses (j : Nat) (x : Evio) : (s.setEvio j x).fuses = s.fuses := rfl
@[simp] theorem State.setEvio_flash (j : Nat) (x : Evio) : (s.setEvio j x).flash = s.flash := rfl
@[simp] theorem State.setEvio_resp (j : Nat) (x : Evio) : (s.setEvio j x).resp = s.resp := rfl
@[simp] theorem State.setEvio_free (j : Nat) (x : Evio) : (s.setEvio j x).free = s.free := rfl
@[simp] theorem State.setEvio_pending (j : Nat) (x : Evio) : (s.setEvio j x).pending = s.pending := rfl
@[simp] theorem State.setEvio_forceOf (j : Nat) (x : Evio) (n : Nat) : (s.setEvio j x).forceOf n = s.forceOf n := rfl
@[simp] theorem State.setEvio_seqOf (j : Nat) (x : Evio) (n : Nat) : (s.setEvio j x).seqOf n = s.seqOf n := rfl
@[simp] theorem State.setEvio_engOf (j : Nat) (x : Evio) (n : Nat) : (s.setEvio j x).engOf n = s.engOf n := rfl
@[simp] theorem State.setEvio_resOf (j : Nat) (x : Evio) (n : Nat) : (s.setEvio j x).resOf n = s.resOf n := rfl
@[simp] theorem State.setEvio_feltOf (j : Nat) (x : Evio) (f : Nat) : (s.setEvio j x).feltOf f = s.feltOf f := rfl
@[simp] theorem State.setEvio_creditOf (j : Nat) (x : Evio) (p f : Nat) : (s.setEvio j x).creditOf p f = s.creditOf p f := rfl
@[simp] theorem State.setEvio_sliceOf (j : Nat) (x : Evio) (i : Nat) : (s.setEvio j x).sliceOf i = s.sliceOf i := rfl
@[simp] theorem State.setEvio_couchOf (j : Nat) (x : Evio) (t : Nat) : (s.setEvio j x).couchOf t = s.couchOf t := rfl
@[simp] theorem State.setEvio_genOf (j : Nat) (x : Evio) (k : Nat) : (s.setEvio j x).genOf k = s.genOf k := rfl
@[simp] theorem State.setEvio_beatPortOf (j : Nat) (x : Evio) (p : Nat) : (s.setEvio j x).beatPortOf p = s.beatPortOf p := rfl
@[simp] theorem State.setEvio_portOf (j : Nat) (x : Evio) (p : Nat) : (s.setEvio j x).portOf p = s.portOf p := rfl
@[simp] theorem State.setEvio_bankOf (j : Nat) (x : Evio) (k : Nat) : (s.setEvio j x).bankOf k = s.bankOf k := rfl
@[simp] theorem State.setEvio_injOf (j : Nat) (x : Evio) (j' : Nat) : (s.setEvio j x).injOf j' = s.injOf j' := rfl
@[simp] theorem State.setEvio_rcDynOf (j : Nat) (x : Evio) (c : Nat) : (s.setEvio j x).rcDynOf c = s.rcDynOf c := rfl
@[simp] theorem State.setEvio_pendOf (j : Nat) (x : Evio) (i : Nat) : (s.setEvio j x).pendOf i = s.pendOf i := rfl
@[simp] theorem State.setEvio_coreOf (j : Nat) (x : Evio) (k : Nat) : (s.setEvio j x).coreOf k = s.coreOf k := rfl
@[simp] theorem State.setEvio_fuseWord (j : Nat) (x : Evio) (i : Nat) : (s.setEvio j x).fuseWord i = s.fuseWord i := rfl
@[simp] theorem State.setEvio_flashByte (j : Nat) (x : Evio) (k a : Nat) : (s.setEvio j x).flashByte k a = s.flashByte k a := rfl
@[simp] theorem State.setEvio_domainOn (j : Nat) (x : Evio) (d : Nat) : (s.setEvio j x).domainOn d = s.domainOn d := rfl
@[simp] theorem State.setEvio_rd (j : Nat) (x : Evio) (r : Reg) (i j' : Nat) : (s.setEvio j x).rd r i j' = s.rd r i j' := rfl
@[simp] theorem State.setEvio_fld (j : Nat) (x : Evio) (f : Fld) (i j' : Nat) : (s.setEvio j x).fld f i j' = s.fld f i j' := rfl
@[simp] theorem State.setEvio_on (j : Nat) (x : Evio) (f : Fld) (i j' : Nat) : (s.setEvio j x).on f i j' = s.on f i j' := rfl
@[simp] theorem State.setEvio_cycle (j : Nat) (x : Evio)  : (s.setEvio j x).cycle = s.cycle := rfl

/-! ### `setCore` -/

@[simp] theorem State.setCore_now (k : Nat) (x : Core4) : (s.setCore k x).now = s.now := rfl
@[simp] theorem State.setCore_regs (k : Nat) (x : Core4) : (s.setCore k x).regs = s.regs := rfl
@[simp] theorem State.setCore_dev (k : Nat) (x : Core4) : (s.setCore k x).dev = s.dev := rfl
@[simp] theorem State.setCore_tb (k : Nat) (x : Core4) : (s.setCore k x).tb = s.tb := rfl
@[simp] theorem State.setCore_evm (k : Nat) (x : Core4) : (s.setCore k x).evm = s.evm := rfl
@[simp] theorem State.setCore_force (k : Nat) (x : Core4) : (s.setCore k x).force = s.force := rfl
@[simp] theorem State.setCore_seqs (k : Nat) (x : Core4) : (s.setCore k x).seqs = s.seqs := rfl
@[simp] theorem State.setCore_engs (k : Nat) (x : Core4) : (s.setCore k x).engs = s.engs := rfl
@[simp] theorem State.setCore_ress (k : Nat) (x : Core4) : (s.setCore k x).ress = s.ress := rfl
@[simp] theorem State.setCore_guards (k : Nat) (x : Core4) : (s.setCore k x).guards = s.guards := rfl
@[simp] theorem State.setCore_que (k : Nat) (x : Core4) : (s.setCore k x).que = s.que := rfl
@[simp] theorem State.setCore_memc (k : Nat) (x : Core4) : (s.setCore k x).memc = s.memc := rfl
@[simp] theorem State.setCore_hbm (k : Nat) (x : Core4) : (s.setCore k x).hbm = s.hbm := rfl
@[simp] theorem State.setCore_losses (k : Nat) (x : Core4) : (s.setCore k x).losses = s.losses := rfl
@[simp] theorem State.setCore_vat (k : Nat) (x : Core4) : (s.setCore k x).vat = s.vat := rfl
@[simp] theorem State.setCore_web (k : Nat) (x : Core4) : (s.setCore k x).web = s.web := rfl
@[simp] theorem State.setCore_jtag (k : Nat) (x : Core4) : (s.setCore k x).jtag = s.jtag := rfl
@[simp] theorem State.setCore_flt (k : Nat) (x : Core4) : (s.setCore k x).flt = s.flt := rfl
@[simp] theorem State.setCore_cal (k : Nat) (x : Core4) : (s.setCore k x).cal = s.cal := rfl
@[simp] theorem State.setCore_pwr (k : Nat) (x : Core4) : (s.setCore k x).pwr = s.pwr := rfl
@[simp] theorem State.setCore_fuses (k : Nat) (x : Core4) : (s.setCore k x).fuses = s.fuses := rfl
@[simp] theorem State.setCore_flash (k : Nat) (x : Core4) : (s.setCore k x).flash = s.flash := rfl
@[simp] theorem State.setCore_resp (k : Nat) (x : Core4) : (s.setCore k x).resp = s.resp := rfl
@[simp] theorem State.setCore_free (k : Nat) (x : Core4) : (s.setCore k x).free = s.free := rfl
@[simp] theorem State.setCore_pending (k : Nat) (x : Core4) : (s.setCore k x).pending = s.pending := rfl
@[simp] theorem State.setCore_forceOf (k : Nat) (x : Core4) (n : Nat) : (s.setCore k x).forceOf n = s.forceOf n := rfl
@[simp] theorem State.setCore_seqOf (k : Nat) (x : Core4) (n : Nat) : (s.setCore k x).seqOf n = s.seqOf n := rfl
@[simp] theorem State.setCore_engOf (k : Nat) (x : Core4) (n : Nat) : (s.setCore k x).engOf n = s.engOf n := rfl
@[simp] theorem State.setCore_resOf (k : Nat) (x : Core4) (n : Nat) : (s.setCore k x).resOf n = s.resOf n := rfl
@[simp] theorem State.setCore_feltOf (k : Nat) (x : Core4) (f : Nat) : (s.setCore k x).feltOf f = s.feltOf f := rfl
@[simp] theorem State.setCore_creditOf (k : Nat) (x : Core4) (p f : Nat) : (s.setCore k x).creditOf p f = s.creditOf p f := rfl
@[simp] theorem State.setCore_sliceOf (k : Nat) (x : Core4) (i : Nat) : (s.setCore k x).sliceOf i = s.sliceOf i := rfl
@[simp] theorem State.setCore_couchOf (k : Nat) (x : Core4) (t : Nat) : (s.setCore k x).couchOf t = s.couchOf t := rfl
@[simp] theorem State.setCore_genOf (k : Nat) (x : Core4) (k' : Nat) : (s.setCore k x).genOf k' = s.genOf k' := rfl
@[simp] theorem State.setCore_beatPortOf (k : Nat) (x : Core4) (p : Nat) : (s.setCore k x).beatPortOf p = s.beatPortOf p := rfl
@[simp] theorem State.setCore_portOf (k : Nat) (x : Core4) (p : Nat) : (s.setCore k x).portOf p = s.portOf p := rfl
@[simp] theorem State.setCore_bankOf (k : Nat) (x : Core4) (k' : Nat) : (s.setCore k x).bankOf k' = s.bankOf k' := rfl
@[simp] theorem State.setCore_injOf (k : Nat) (x : Core4) (j : Nat) : (s.setCore k x).injOf j = s.injOf j := rfl
@[simp] theorem State.setCore_rcDynOf (k : Nat) (x : Core4) (c : Nat) : (s.setCore k x).rcDynOf c = s.rcDynOf c := rfl
@[simp] theorem State.setCore_pendOf (k : Nat) (x : Core4) (i : Nat) : (s.setCore k x).pendOf i = s.pendOf i := rfl
@[simp] theorem State.setCore_evioOf (k : Nat) (x : Core4) (j : Nat) : (s.setCore k x).evioOf j = s.evioOf j := rfl
@[simp] theorem State.setCore_fuseWord (k : Nat) (x : Core4) (i : Nat) : (s.setCore k x).fuseWord i = s.fuseWord i := rfl
@[simp] theorem State.setCore_flashByte (k : Nat) (x : Core4) (k' a : Nat) : (s.setCore k x).flashByte k' a = s.flashByte k' a := rfl
@[simp] theorem State.setCore_domainOn (k : Nat) (x : Core4) (d : Nat) : (s.setCore k x).domainOn d = s.domainOn d := rfl
@[simp] theorem State.setCore_rd (k : Nat) (x : Core4) (r : Reg) (i j : Nat) : (s.setCore k x).rd r i j = s.rd r i j := rfl
@[simp] theorem State.setCore_fld (k : Nat) (x : Core4) (f : Fld) (i j : Nat) : (s.setCore k x).fld f i j = s.fld f i j := rfl
@[simp] theorem State.setCore_on (k : Nat) (x : Core4) (f : Fld) (i j : Nat) : (s.setCore k x).on f i j = s.on f i j := rfl
@[simp] theorem State.setCore_cycle (k : Nat) (x : Core4)  : (s.setCore k x).cycle = s.cycle := rfl

/-! ### `setTb` -/

@[simp] theorem State.setTb_tb (x : Tb) : (s.setTb x).tb = x := rfl
@[simp] theorem State.setTb_now (x : Tb) : (s.setTb x).now = s.now := rfl
@[simp] theorem State.setTb_regs (x : Tb) : (s.setTb x).regs = s.regs := rfl
@[simp] theorem State.setTb_dev (x : Tb) : (s.setTb x).dev = s.dev := rfl
@[simp] theorem State.setTb_evm (x : Tb) : (s.setTb x).evm = s.evm := rfl
@[simp] theorem State.setTb_force (x : Tb) : (s.setTb x).force = s.force := rfl
@[simp] theorem State.setTb_seqs (x : Tb) : (s.setTb x).seqs = s.seqs := rfl
@[simp] theorem State.setTb_engs (x : Tb) : (s.setTb x).engs = s.engs := rfl
@[simp] theorem State.setTb_ress (x : Tb) : (s.setTb x).ress = s.ress := rfl
@[simp] theorem State.setTb_guards (x : Tb) : (s.setTb x).guards = s.guards := rfl
@[simp] theorem State.setTb_que (x : Tb) : (s.setTb x).que = s.que := rfl
@[simp] theorem State.setTb_memc (x : Tb) : (s.setTb x).memc = s.memc := rfl
@[simp] theorem State.setTb_hbm (x : Tb) : (s.setTb x).hbm = s.hbm := rfl
@[simp] theorem State.setTb_losses (x : Tb) : (s.setTb x).losses = s.losses := rfl
@[simp] theorem State.setTb_vat (x : Tb) : (s.setTb x).vat = s.vat := rfl
@[simp] theorem State.setTb_web (x : Tb) : (s.setTb x).web = s.web := rfl
@[simp] theorem State.setTb_jtag (x : Tb) : (s.setTb x).jtag = s.jtag := rfl
@[simp] theorem State.setTb_flt (x : Tb) : (s.setTb x).flt = s.flt := rfl
@[simp] theorem State.setTb_cal (x : Tb) : (s.setTb x).cal = s.cal := rfl
@[simp] theorem State.setTb_boot (x : Tb) : (s.setTb x).boot = s.boot := rfl
@[simp] theorem State.setTb_pwr (x : Tb) : (s.setTb x).pwr = s.pwr := rfl
@[simp] theorem State.setTb_fuses (x : Tb) : (s.setTb x).fuses = s.fuses := rfl
@[simp] theorem State.setTb_flash (x : Tb) : (s.setTb x).flash = s.flash := rfl
@[simp] theorem State.setTb_resp (x : Tb) : (s.setTb x).resp = s.resp := rfl
@[simp] theorem State.setTb_free (x : Tb) : (s.setTb x).free = s.free := rfl
@[simp] theorem State.setTb_pending (x : Tb) : (s.setTb x).pending = s.pending := rfl
@[simp] theorem State.setTb_forceOf (x : Tb) (n : Nat) : (s.setTb x).forceOf n = s.forceOf n := rfl
@[simp] theorem State.setTb_seqOf (x : Tb) (n : Nat) : (s.setTb x).seqOf n = s.seqOf n := rfl
@[simp] theorem State.setTb_engOf (x : Tb) (n : Nat) : (s.setTb x).engOf n = s.engOf n := rfl
@[simp] theorem State.setTb_resOf (x : Tb) (n : Nat) : (s.setTb x).resOf n = s.resOf n := rfl
@[simp] theorem State.setTb_feltOf (x : Tb) (f : Nat) : (s.setTb x).feltOf f = s.feltOf f := rfl
@[simp] theorem State.setTb_creditOf (x : Tb) (p f : Nat) : (s.setTb x).creditOf p f = s.creditOf p f := rfl
@[simp] theorem State.setTb_sliceOf (x : Tb) (i : Nat) : (s.setTb x).sliceOf i = s.sliceOf i := rfl
@[simp] theorem State.setTb_couchOf (x : Tb) (t : Nat) : (s.setTb x).couchOf t = s.couchOf t := rfl
@[simp] theorem State.setTb_portOf (x : Tb) (p : Nat) : (s.setTb x).portOf p = s.portOf p := rfl
@[simp] theorem State.setTb_bankOf (x : Tb) (k : Nat) : (s.setTb x).bankOf k = s.bankOf k := rfl
@[simp] theorem State.setTb_injOf (x : Tb) (j : Nat) : (s.setTb x).injOf j = s.injOf j := rfl
@[simp] theorem State.setTb_rcDynOf (x : Tb) (c : Nat) : (s.setTb x).rcDynOf c = s.rcDynOf c := rfl
@[simp] theorem State.setTb_pendOf (x : Tb) (i : Nat) : (s.setTb x).pendOf i = s.pendOf i := rfl
@[simp] theorem State.setTb_evioOf (x : Tb) (j : Nat) : (s.setTb x).evioOf j = s.evioOf j := rfl
@[simp] theorem State.setTb_coreOf (x : Tb) (k : Nat) : (s.setTb x).coreOf k = s.coreOf k := rfl
@[simp] theorem State.setTb_fuseWord (x : Tb) (i : Nat) : (s.setTb x).fuseWord i = s.fuseWord i := rfl
@[simp] theorem State.setTb_flashByte (x : Tb) (k a : Nat) : (s.setTb x).flashByte k a = s.flashByte k a := rfl
@[simp] theorem State.setTb_domainOn (x : Tb) (d : Nat) : (s.setTb x).domainOn d = s.domainOn d := rfl
@[simp] theorem State.setTb_rd (x : Tb) (r : Reg) (i j : Nat) : (s.setTb x).rd r i j = s.rd r i j := rfl
@[simp] theorem State.setTb_fld (x : Tb) (f : Fld) (i j : Nat) : (s.setTb x).fld f i j = s.fld f i j := rfl
@[simp] theorem State.setTb_on (x : Tb) (f : Fld) (i j : Nat) : (s.setTb x).on f i j = s.on f i j := rfl
@[simp] theorem State.setTb_cycle (x : Tb)  : (s.setTb x).cycle = s.cycle := rfl

/-! ### `setMemc` -/

@[simp] theorem State.setMemc_memc (x : Memc) : (s.setMemc x).memc = x := rfl
@[simp] theorem State.setMemc_now (x : Memc) : (s.setMemc x).now = s.now := rfl
@[simp] theorem State.setMemc_regs (x : Memc) : (s.setMemc x).regs = s.regs := rfl
@[simp] theorem State.setMemc_dev (x : Memc) : (s.setMemc x).dev = s.dev := rfl
@[simp] theorem State.setMemc_tb (x : Memc) : (s.setMemc x).tb = s.tb := rfl
@[simp] theorem State.setMemc_evm (x : Memc) : (s.setMemc x).evm = s.evm := rfl
@[simp] theorem State.setMemc_force (x : Memc) : (s.setMemc x).force = s.force := rfl
@[simp] theorem State.setMemc_seqs (x : Memc) : (s.setMemc x).seqs = s.seqs := rfl
@[simp] theorem State.setMemc_engs (x : Memc) : (s.setMemc x).engs = s.engs := rfl
@[simp] theorem State.setMemc_ress (x : Memc) : (s.setMemc x).ress = s.ress := rfl
@[simp] theorem State.setMemc_guards (x : Memc) : (s.setMemc x).guards = s.guards := rfl
@[simp] theorem State.setMemc_que (x : Memc) : (s.setMemc x).que = s.que := rfl
@[simp] theorem State.setMemc_hbm (x : Memc) : (s.setMemc x).hbm = s.hbm := rfl
@[simp] theorem State.setMemc_losses (x : Memc) : (s.setMemc x).losses = s.losses := rfl
@[simp] theorem State.setMemc_vat (x : Memc) : (s.setMemc x).vat = s.vat := rfl
@[simp] theorem State.setMemc_web (x : Memc) : (s.setMemc x).web = s.web := rfl
@[simp] theorem State.setMemc_jtag (x : Memc) : (s.setMemc x).jtag = s.jtag := rfl
@[simp] theorem State.setMemc_flt (x : Memc) : (s.setMemc x).flt = s.flt := rfl
@[simp] theorem State.setMemc_cal (x : Memc) : (s.setMemc x).cal = s.cal := rfl
@[simp] theorem State.setMemc_boot (x : Memc) : (s.setMemc x).boot = s.boot := rfl
@[simp] theorem State.setMemc_pwr (x : Memc) : (s.setMemc x).pwr = s.pwr := rfl
@[simp] theorem State.setMemc_fuses (x : Memc) : (s.setMemc x).fuses = s.fuses := rfl
@[simp] theorem State.setMemc_flash (x : Memc) : (s.setMemc x).flash = s.flash := rfl
@[simp] theorem State.setMemc_resp (x : Memc) : (s.setMemc x).resp = s.resp := rfl
@[simp] theorem State.setMemc_free (x : Memc) : (s.setMemc x).free = s.free := rfl
@[simp] theorem State.setMemc_pending (x : Memc) : (s.setMemc x).pending = s.pending := rfl
@[simp] theorem State.setMemc_forceOf (x : Memc) (n : Nat) : (s.setMemc x).forceOf n = s.forceOf n := rfl
@[simp] theorem State.setMemc_seqOf (x : Memc) (n : Nat) : (s.setMemc x).seqOf n = s.seqOf n := rfl
@[simp] theorem State.setMemc_engOf (x : Memc) (n : Nat) : (s.setMemc x).engOf n = s.engOf n := rfl
@[simp] theorem State.setMemc_resOf (x : Memc) (n : Nat) : (s.setMemc x).resOf n = s.resOf n := rfl
@[simp] theorem State.setMemc_feltOf (x : Memc) (f : Nat) : (s.setMemc x).feltOf f = s.feltOf f := rfl
@[simp] theorem State.setMemc_creditOf (x : Memc) (p f : Nat) : (s.setMemc x).creditOf p f = s.creditOf p f := rfl
@[simp] theorem State.setMemc_sliceOf (x : Memc) (i : Nat) : (s.setMemc x).sliceOf i = s.sliceOf i := rfl
@[simp] theorem State.setMemc_couchOf (x : Memc) (t : Nat) : (s.setMemc x).couchOf t = s.couchOf t := rfl
@[simp] theorem State.setMemc_genOf (x : Memc) (k : Nat) : (s.setMemc x).genOf k = s.genOf k := rfl
@[simp] theorem State.setMemc_beatPortOf (x : Memc) (p : Nat) : (s.setMemc x).beatPortOf p = s.beatPortOf p := rfl
@[simp] theorem State.setMemc_portOf (x : Memc) (p : Nat) : (s.setMemc x).portOf p = s.portOf p := rfl
@[simp] theorem State.setMemc_injOf (x : Memc) (j : Nat) : (s.setMemc x).injOf j = s.injOf j := rfl
@[simp] theorem State.setMemc_rcDynOf (x : Memc) (c : Nat) : (s.setMemc x).rcDynOf c = s.rcDynOf c := rfl
@[simp] theorem State.setMemc_pendOf (x : Memc) (i : Nat) : (s.setMemc x).pendOf i = s.pendOf i := rfl
@[simp] theorem State.setMemc_evioOf (x : Memc) (j : Nat) : (s.setMemc x).evioOf j = s.evioOf j := rfl
@[simp] theorem State.setMemc_coreOf (x : Memc) (k : Nat) : (s.setMemc x).coreOf k = s.coreOf k := rfl
@[simp] theorem State.setMemc_fuseWord (x : Memc) (i : Nat) : (s.setMemc x).fuseWord i = s.fuseWord i := rfl
@[simp] theorem State.setMemc_flashByte (x : Memc) (k a : Nat) : (s.setMemc x).flashByte k a = s.flashByte k a := rfl
@[simp] theorem State.setMemc_domainOn (x : Memc) (d : Nat) : (s.setMemc x).domainOn d = s.domainOn d := rfl
@[simp] theorem State.setMemc_rd (x : Memc) (r : Reg) (i j : Nat) : (s.setMemc x).rd r i j = s.rd r i j := rfl
@[simp] theorem State.setMemc_fld (x : Memc) (f : Fld) (i j : Nat) : (s.setMemc x).fld f i j = s.fld f i j := rfl
@[simp] theorem State.setMemc_on (x : Memc) (f : Fld) (i j : Nat) : (s.setMemc x).on f i j = s.on f i j := rfl
@[simp] theorem State.setMemc_cycle (x : Memc)  : (s.setMemc x).cycle = s.cycle := rfl

/-! ### `setWeb` -/

@[simp] theorem State.setWeb_web (x : Web) : (s.setWeb x).web = x := rfl
@[simp] theorem State.setWeb_now (x : Web) : (s.setWeb x).now = s.now := rfl
@[simp] theorem State.setWeb_regs (x : Web) : (s.setWeb x).regs = s.regs := rfl
@[simp] theorem State.setWeb_dev (x : Web) : (s.setWeb x).dev = s.dev := rfl
@[simp] theorem State.setWeb_tb (x : Web) : (s.setWeb x).tb = s.tb := rfl
@[simp] theorem State.setWeb_evm (x : Web) : (s.setWeb x).evm = s.evm := rfl
@[simp] theorem State.setWeb_force (x : Web) : (s.setWeb x).force = s.force := rfl
@[simp] theorem State.setWeb_seqs (x : Web) : (s.setWeb x).seqs = s.seqs := rfl
@[simp] theorem State.setWeb_engs (x : Web) : (s.setWeb x).engs = s.engs := rfl
@[simp] theorem State.setWeb_ress (x : Web) : (s.setWeb x).ress = s.ress := rfl
@[simp] theorem State.setWeb_guards (x : Web) : (s.setWeb x).guards = s.guards := rfl
@[simp] theorem State.setWeb_que (x : Web) : (s.setWeb x).que = s.que := rfl
@[simp] theorem State.setWeb_hbm (x : Web) : (s.setWeb x).hbm = s.hbm := rfl
@[simp] theorem State.setWeb_losses (x : Web) : (s.setWeb x).losses = s.losses := rfl
@[simp] theorem State.setWeb_vat (x : Web) : (s.setWeb x).vat = s.vat := rfl
@[simp] theorem State.setWeb_jtag (x : Web) : (s.setWeb x).jtag = s.jtag := rfl
@[simp] theorem State.setWeb_flt (x : Web) : (s.setWeb x).flt = s.flt := rfl
@[simp] theorem State.setWeb_cal (x : Web) : (s.setWeb x).cal = s.cal := rfl
@[simp] theorem State.setWeb_boot (x : Web) : (s.setWeb x).boot = s.boot := rfl
@[simp] theorem State.setWeb_pwr (x : Web) : (s.setWeb x).pwr = s.pwr := rfl
@[simp] theorem State.setWeb_fuses (x : Web) : (s.setWeb x).fuses = s.fuses := rfl
@[simp] theorem State.setWeb_flash (x : Web) : (s.setWeb x).flash = s.flash := rfl
@[simp] theorem State.setWeb_resp (x : Web) : (s.setWeb x).resp = s.resp := rfl
@[simp] theorem State.setWeb_free (x : Web) : (s.setWeb x).free = s.free := rfl
@[simp] theorem State.setWeb_pending (x : Web) : (s.setWeb x).pending = s.pending := rfl
@[simp] theorem State.setWeb_forceOf (x : Web) (n : Nat) : (s.setWeb x).forceOf n = s.forceOf n := rfl
@[simp] theorem State.setWeb_seqOf (x : Web) (n : Nat) : (s.setWeb x).seqOf n = s.seqOf n := rfl
@[simp] theorem State.setWeb_engOf (x : Web) (n : Nat) : (s.setWeb x).engOf n = s.engOf n := rfl
@[simp] theorem State.setWeb_resOf (x : Web) (n : Nat) : (s.setWeb x).resOf n = s.resOf n := rfl
@[simp] theorem State.setWeb_feltOf (x : Web) (f : Nat) : (s.setWeb x).feltOf f = s.feltOf f := rfl
@[simp] theorem State.setWeb_creditOf (x : Web) (p f : Nat) : (s.setWeb x).creditOf p f = s.creditOf p f := rfl
@[simp] theorem State.setWeb_sliceOf (x : Web) (i : Nat) : (s.setWeb x).sliceOf i = s.sliceOf i := rfl
@[simp] theorem State.setWeb_couchOf (x : Web) (t : Nat) : (s.setWeb x).couchOf t = s.couchOf t := rfl
@[simp] theorem State.setWeb_genOf (x : Web) (k : Nat) : (s.setWeb x).genOf k = s.genOf k := rfl
@[simp] theorem State.setWeb_beatPortOf (x : Web) (p : Nat) : (s.setWeb x).beatPortOf p = s.beatPortOf p := rfl
@[simp] theorem State.setWeb_injOf (x : Web) (j : Nat) : (s.setWeb x).injOf j = s.injOf j := rfl
@[simp] theorem State.setWeb_rcDynOf (x : Web) (c : Nat) : (s.setWeb x).rcDynOf c = s.rcDynOf c := rfl
@[simp] theorem State.setWeb_pendOf (x : Web) (i : Nat) : (s.setWeb x).pendOf i = s.pendOf i := rfl
@[simp] theorem State.setWeb_evioOf (x : Web) (j : Nat) : (s.setWeb x).evioOf j = s.evioOf j := rfl
@[simp] theorem State.setWeb_coreOf (x : Web) (k : Nat) : (s.setWeb x).coreOf k = s.coreOf k := rfl
@[simp] theorem State.setWeb_fuseWord (x : Web) (i : Nat) : (s.setWeb x).fuseWord i = s.fuseWord i := rfl
@[simp] theorem State.setWeb_flashByte (x : Web) (k a : Nat) : (s.setWeb x).flashByte k a = s.flashByte k a := rfl
@[simp] theorem State.setWeb_domainOn (x : Web) (d : Nat) : (s.setWeb x).domainOn d = s.domainOn d := rfl
@[simp] theorem State.setWeb_rd (x : Web) (r : Reg) (i j : Nat) : (s.setWeb x).rd r i j = s.rd r i j := rfl
@[simp] theorem State.setWeb_fld (x : Web) (f : Fld) (i j : Nat) : (s.setWeb x).fld f i j = s.fld f i j := rfl
@[simp] theorem State.setWeb_on (x : Web) (f : Fld) (i j : Nat) : (s.setWeb x).on f i j = s.on f i j := rfl
@[simp] theorem State.setWeb_cycle (x : Web)  : (s.setWeb x).cycle = s.cycle := rfl
@[simp] theorem State.setWeb_memc (x : Web) : (s.setWeb x).memc = s.memc := rfl
@[simp] theorem State.setWeb_bankOf (x : Web) (k : Nat) : (s.setWeb x).bankOf k = s.bankOf k := rfl

/-! ### `setMiso` -/

@[simp] theorem State.setMiso_now (l : List Byte) : (s.setMiso l).now = s.now := rfl
@[simp] theorem State.setMiso_regs (l : List Byte) : (s.setMiso l).regs = s.regs := rfl
@[simp] theorem State.setMiso_dev (l : List Byte) : (s.setMiso l).dev = s.dev := rfl
@[simp] theorem State.setMiso_tb (l : List Byte) : (s.setMiso l).tb = s.tb := rfl
@[simp] theorem State.setMiso_evm (l : List Byte) : (s.setMiso l).evm = s.evm := rfl
@[simp] theorem State.setMiso_force (l : List Byte) : (s.setMiso l).force = s.force := rfl
@[simp] theorem State.setMiso_seqs (l : List Byte) : (s.setMiso l).seqs = s.seqs := rfl
@[simp] theorem State.setMiso_engs (l : List Byte) : (s.setMiso l).engs = s.engs := rfl
@[simp] theorem State.setMiso_ress (l : List Byte) : (s.setMiso l).ress = s.ress := rfl
@[simp] theorem State.setMiso_guards (l : List Byte) : (s.setMiso l).guards = s.guards := rfl
@[simp] theorem State.setMiso_que (l : List Byte) : (s.setMiso l).que = s.que := rfl
@[simp] theorem State.setMiso_hbm (l : List Byte) : (s.setMiso l).hbm = s.hbm := rfl
@[simp] theorem State.setMiso_losses (l : List Byte) : (s.setMiso l).losses = s.losses := rfl
@[simp] theorem State.setMiso_vat (l : List Byte) : (s.setMiso l).vat = s.vat := rfl
@[simp] theorem State.setMiso_web (l : List Byte) : (s.setMiso l).web = s.web := rfl
@[simp] theorem State.setMiso_flt (l : List Byte) : (s.setMiso l).flt = s.flt := rfl
@[simp] theorem State.setMiso_cal (l : List Byte) : (s.setMiso l).cal = s.cal := rfl
@[simp] theorem State.setMiso_boot (l : List Byte) : (s.setMiso l).boot = s.boot := rfl
@[simp] theorem State.setMiso_pwr (l : List Byte) : (s.setMiso l).pwr = s.pwr := rfl
@[simp] theorem State.setMiso_fuses (l : List Byte) : (s.setMiso l).fuses = s.fuses := rfl
@[simp] theorem State.setMiso_flash (l : List Byte) : (s.setMiso l).flash = s.flash := rfl
@[simp] theorem State.setMiso_resp (l : List Byte) : (s.setMiso l).resp = s.resp := rfl
@[simp] theorem State.setMiso_free (l : List Byte) : (s.setMiso l).free = s.free := rfl
@[simp] theorem State.setMiso_pending (l : List Byte) : (s.setMiso l).pending = s.pending := rfl
@[simp] theorem State.setMiso_forceOf (l : List Byte) (n : Nat) : (s.setMiso l).forceOf n = s.forceOf n := rfl
@[simp] theorem State.setMiso_seqOf (l : List Byte) (n : Nat) : (s.setMiso l).seqOf n = s.seqOf n := rfl
@[simp] theorem State.setMiso_engOf (l : List Byte) (n : Nat) : (s.setMiso l).engOf n = s.engOf n := rfl
@[simp] theorem State.setMiso_resOf (l : List Byte) (n : Nat) : (s.setMiso l).resOf n = s.resOf n := rfl
@[simp] theorem State.setMiso_feltOf (l : List Byte) (f : Nat) : (s.setMiso l).feltOf f = s.feltOf f := rfl
@[simp] theorem State.setMiso_creditOf (l : List Byte) (p f : Nat) : (s.setMiso l).creditOf p f = s.creditOf p f := rfl
@[simp] theorem State.setMiso_sliceOf (l : List Byte) (i : Nat) : (s.setMiso l).sliceOf i = s.sliceOf i := rfl
@[simp] theorem State.setMiso_couchOf (l : List Byte) (t : Nat) : (s.setMiso l).couchOf t = s.couchOf t := rfl
@[simp] theorem State.setMiso_genOf (l : List Byte) (k : Nat) : (s.setMiso l).genOf k = s.genOf k := rfl
@[simp] theorem State.setMiso_beatPortOf (l : List Byte) (p : Nat) : (s.setMiso l).beatPortOf p = s.beatPortOf p := rfl
@[simp] theorem State.setMiso_portOf (l : List Byte) (p : Nat) : (s.setMiso l).portOf p = s.portOf p := rfl
@[simp] theorem State.setMiso_injOf (l : List Byte) (j : Nat) : (s.setMiso l).injOf j = s.injOf j := rfl
@[simp] theorem State.setMiso_rcDynOf (l : List Byte) (c : Nat) : (s.setMiso l).rcDynOf c = s.rcDynOf c := rfl
@[simp] theorem State.setMiso_pendOf (l : List Byte) (i : Nat) : (s.setMiso l).pendOf i = s.pendOf i := rfl
@[simp] theorem State.setMiso_evioOf (l : List Byte) (j : Nat) : (s.setMiso l).evioOf j = s.evioOf j := rfl
@[simp] theorem State.setMiso_coreOf (l : List Byte) (k : Nat) : (s.setMiso l).coreOf k = s.coreOf k := rfl
@[simp] theorem State.setMiso_fuseWord (l : List Byte) (i : Nat) : (s.setMiso l).fuseWord i = s.fuseWord i := rfl
@[simp] theorem State.setMiso_flashByte (l : List Byte) (k a : Nat) : (s.setMiso l).flashByte k a = s.flashByte k a := rfl
@[simp] theorem State.setMiso_domainOn (l : List Byte) (d : Nat) : (s.setMiso l).domainOn d = s.domainOn d := rfl
@[simp] theorem State.setMiso_rd (l : List Byte) (r : Reg) (i j : Nat) : (s.setMiso l).rd r i j = s.rd r i j := rfl
@[simp] theorem State.setMiso_fld (l : List Byte) (f : Fld) (i j : Nat) : (s.setMiso l).fld f i j = s.fld f i j := rfl
@[simp] theorem State.setMiso_on (l : List Byte) (f : Fld) (i j : Nat) : (s.setMiso l).on f i j = s.on f i j := rfl
@[simp] theorem State.setMiso_cycle (l : List Byte)  : (s.setMiso l).cycle = s.cycle := rfl
@[simp] theorem State.setMiso_memc (l : List Byte) : (s.setMiso l).memc = s.memc := rfl
@[simp] theorem State.setMiso_bankOf (l : List Byte) (k : Nat) : (s.setMiso l).bankOf k = s.bankOf k := rfl

/-! ### `setPhase` -/

@[simp] theorem State.setPhase_now (p : Nat) : (s.setPhase p).now = s.now := rfl
@[simp] theorem State.setPhase_regs (p : Nat) : (s.setPhase p).regs = s.regs := rfl
@[simp] theorem State.setPhase_tb (p : Nat) : (s.setPhase p).tb = s.tb := rfl
@[simp] theorem State.setPhase_evm (p : Nat) : (s.setPhase p).evm = s.evm := rfl
@[simp] theorem State.setPhase_force (p : Nat) : (s.setPhase p).force = s.force := rfl
@[simp] theorem State.setPhase_seqs (p : Nat) : (s.setPhase p).seqs = s.seqs := rfl
@[simp] theorem State.setPhase_engs (p : Nat) : (s.setPhase p).engs = s.engs := rfl
@[simp] theorem State.setPhase_ress (p : Nat) : (s.setPhase p).ress = s.ress := rfl
@[simp] theorem State.setPhase_guards (p : Nat) : (s.setPhase p).guards = s.guards := rfl
@[simp] theorem State.setPhase_que (p : Nat) : (s.setPhase p).que = s.que := rfl
@[simp] theorem State.setPhase_hbm (p : Nat) : (s.setPhase p).hbm = s.hbm := rfl
@[simp] theorem State.setPhase_losses (p : Nat) : (s.setPhase p).losses = s.losses := rfl
@[simp] theorem State.setPhase_vat (p : Nat) : (s.setPhase p).vat = s.vat := rfl
@[simp] theorem State.setPhase_web (p : Nat) : (s.setPhase p).web = s.web := rfl
@[simp] theorem State.setPhase_jtag (p : Nat) : (s.setPhase p).jtag = s.jtag := rfl
@[simp] theorem State.setPhase_flt (p : Nat) : (s.setPhase p).flt = s.flt := rfl
@[simp] theorem State.setPhase_cal (p : Nat) : (s.setPhase p).cal = s.cal := rfl
@[simp] theorem State.setPhase_pwr (p : Nat) : (s.setPhase p).pwr = s.pwr := rfl
@[simp] theorem State.setPhase_fuses (p : Nat) : (s.setPhase p).fuses = s.fuses := rfl
@[simp] theorem State.setPhase_flash (p : Nat) : (s.setPhase p).flash = s.flash := rfl
@[simp] theorem State.setPhase_resp (p : Nat) : (s.setPhase p).resp = s.resp := rfl
@[simp] theorem State.setPhase_free (p : Nat) : (s.setPhase p).free = s.free := rfl
@[simp] theorem State.setPhase_pending (p : Nat) : (s.setPhase p).pending = s.pending := rfl
@[simp] theorem State.setPhase_forceOf (p : Nat) (n : Nat) : (s.setPhase p).forceOf n = s.forceOf n := rfl
@[simp] theorem State.setPhase_seqOf (p : Nat) (n : Nat) : (s.setPhase p).seqOf n = s.seqOf n := rfl
@[simp] theorem State.setPhase_engOf (p : Nat) (n : Nat) : (s.setPhase p).engOf n = s.engOf n := rfl
@[simp] theorem State.setPhase_resOf (p : Nat) (n : Nat) : (s.setPhase p).resOf n = s.resOf n := rfl
@[simp] theorem State.setPhase_feltOf (p : Nat) (f : Nat) : (s.setPhase p).feltOf f = s.feltOf f := rfl
@[simp] theorem State.setPhase_creditOf (p : Nat) (q f : Nat) : (s.setPhase p).creditOf q f = s.creditOf q f := rfl
@[simp] theorem State.setPhase_sliceOf (p : Nat) (i : Nat) : (s.setPhase p).sliceOf i = s.sliceOf i := rfl
@[simp] theorem State.setPhase_couchOf (p : Nat) (t : Nat) : (s.setPhase p).couchOf t = s.couchOf t := rfl
@[simp] theorem State.setPhase_genOf (p : Nat) (k : Nat) : (s.setPhase p).genOf k = s.genOf k := rfl
@[simp] theorem State.setPhase_beatPortOf (p : Nat) (i : Nat) : (s.setPhase p).beatPortOf i = s.beatPortOf i := rfl
@[simp] theorem State.setPhase_portOf (p : Nat) (i : Nat) : (s.setPhase p).portOf i = s.portOf i := rfl
@[simp] theorem State.setPhase_injOf (p : Nat) (j : Nat) : (s.setPhase p).injOf j = s.injOf j := rfl
@[simp] theorem State.setPhase_rcDynOf (p : Nat) (c : Nat) : (s.setPhase p).rcDynOf c = s.rcDynOf c := rfl
@[simp] theorem State.setPhase_pendOf (p : Nat) (i : Nat) : (s.setPhase p).pendOf i = s.pendOf i := rfl
@[simp] theorem State.setPhase_evioOf (p : Nat) (j : Nat) : (s.setPhase p).evioOf j = s.evioOf j := rfl
@[simp] theorem State.setPhase_coreOf (p : Nat) (k : Nat) : (s.setPhase p).coreOf k = s.coreOf k := rfl
@[simp] theorem State.setPhase_fuseWord (p : Nat) (i : Nat) : (s.setPhase p).fuseWord i = s.fuseWord i := rfl
@[simp] theorem State.setPhase_flashByte (p : Nat) (k a : Nat) : (s.setPhase p).flashByte k a = s.flashByte k a := rfl
@[simp] theorem State.setPhase_domainOn (p : Nat) (d : Nat) : (s.setPhase p).domainOn d = s.domainOn d := rfl
@[simp] theorem State.setPhase_rd (p : Nat) (r : Reg) (i j : Nat) : (s.setPhase p).rd r i j = s.rd r i j := rfl
@[simp] theorem State.setPhase_fld (p : Nat) (f : Fld) (i j : Nat) : (s.setPhase p).fld f i j = s.fld f i j := rfl
@[simp] theorem State.setPhase_on (p : Nat) (f : Fld) (i j : Nat) : (s.setPhase p).on f i j = s.on f i j := rfl
@[simp] theorem State.setPhase_cycle (p : Nat)  : (s.setPhase p).cycle = s.cycle := rfl
@[simp] theorem State.setPhase_memc (p : Nat) : (s.setPhase p).memc = s.memc := rfl
@[simp] theorem State.setPhase_bankOf (p : Nat) (k : Nat) : (s.setPhase p).bankOf k = s.bankOf k := rfl

/-! ### `setCal` -/

@[simp] theorem State.setCal_cal (x : Cal) : (s.setCal x).cal = x := rfl
@[simp] theorem State.setCal_now (x : Cal) : (s.setCal x).now = s.now := rfl
@[simp] theorem State.setCal_regs (x : Cal) : (s.setCal x).regs = s.regs := rfl
@[simp] theorem State.setCal_dev (x : Cal) : (s.setCal x).dev = s.dev := rfl
@[simp] theorem State.setCal_tb (x : Cal) : (s.setCal x).tb = s.tb := rfl
@[simp] theorem State.setCal_evm (x : Cal) : (s.setCal x).evm = s.evm := rfl
@[simp] theorem State.setCal_force (x : Cal) : (s.setCal x).force = s.force := rfl
@[simp] theorem State.setCal_seqs (x : Cal) : (s.setCal x).seqs = s.seqs := rfl
@[simp] theorem State.setCal_engs (x : Cal) : (s.setCal x).engs = s.engs := rfl
@[simp] theorem State.setCal_ress (x : Cal) : (s.setCal x).ress = s.ress := rfl
@[simp] theorem State.setCal_guards (x : Cal) : (s.setCal x).guards = s.guards := rfl
@[simp] theorem State.setCal_que (x : Cal) : (s.setCal x).que = s.que := rfl
@[simp] theorem State.setCal_memc (x : Cal) : (s.setCal x).memc = s.memc := rfl
@[simp] theorem State.setCal_hbm (x : Cal) : (s.setCal x).hbm = s.hbm := rfl
@[simp] theorem State.setCal_losses (x : Cal) : (s.setCal x).losses = s.losses := rfl
@[simp] theorem State.setCal_vat (x : Cal) : (s.setCal x).vat = s.vat := rfl
@[simp] theorem State.setCal_web (x : Cal) : (s.setCal x).web = s.web := rfl
@[simp] theorem State.setCal_jtag (x : Cal) : (s.setCal x).jtag = s.jtag := rfl
@[simp] theorem State.setCal_flt (x : Cal) : (s.setCal x).flt = s.flt := rfl
@[simp] theorem State.setCal_boot (x : Cal) : (s.setCal x).boot = s.boot := rfl
@[simp] theorem State.setCal_pwr (x : Cal) : (s.setCal x).pwr = s.pwr := rfl
@[simp] theorem State.setCal_fuses (x : Cal) : (s.setCal x).fuses = s.fuses := rfl
@[simp] theorem State.setCal_flash (x : Cal) : (s.setCal x).flash = s.flash := rfl
@[simp] theorem State.setCal_resp (x : Cal) : (s.setCal x).resp = s.resp := rfl
@[simp] theorem State.setCal_free (x : Cal) : (s.setCal x).free = s.free := rfl
@[simp] theorem State.setCal_pending (x : Cal) : (s.setCal x).pending = s.pending := rfl
@[simp] theorem State.setCal_forceOf (x : Cal) (n : Nat) : (s.setCal x).forceOf n = s.forceOf n := rfl
@[simp] theorem State.setCal_seqOf (x : Cal) (n : Nat) : (s.setCal x).seqOf n = s.seqOf n := rfl
@[simp] theorem State.setCal_engOf (x : Cal) (n : Nat) : (s.setCal x).engOf n = s.engOf n := rfl
@[simp] theorem State.setCal_resOf (x : Cal) (n : Nat) : (s.setCal x).resOf n = s.resOf n := rfl
@[simp] theorem State.setCal_feltOf (x : Cal) (f : Nat) : (s.setCal x).feltOf f = s.feltOf f := rfl
@[simp] theorem State.setCal_creditOf (x : Cal) (p f : Nat) : (s.setCal x).creditOf p f = s.creditOf p f := rfl
@[simp] theorem State.setCal_genOf (x : Cal) (k : Nat) : (s.setCal x).genOf k = s.genOf k := rfl
@[simp] theorem State.setCal_beatPortOf (x : Cal) (p : Nat) : (s.setCal x).beatPortOf p = s.beatPortOf p := rfl
@[simp] theorem State.setCal_portOf (x : Cal) (p : Nat) : (s.setCal x).portOf p = s.portOf p := rfl
@[simp] theorem State.setCal_bankOf (x : Cal) (k : Nat) : (s.setCal x).bankOf k = s.bankOf k := rfl
@[simp] theorem State.setCal_injOf (x : Cal) (j : Nat) : (s.setCal x).injOf j = s.injOf j := rfl
@[simp] theorem State.setCal_rcDynOf (x : Cal) (c : Nat) : (s.setCal x).rcDynOf c = s.rcDynOf c := rfl
@[simp] theorem State.setCal_pendOf (x : Cal) (i : Nat) : (s.setCal x).pendOf i = s.pendOf i := rfl
@[simp] theorem State.setCal_evioOf (x : Cal) (j : Nat) : (s.setCal x).evioOf j = s.evioOf j := rfl
@[simp] theorem State.setCal_coreOf (x : Cal) (k : Nat) : (s.setCal x).coreOf k = s.coreOf k := rfl
@[simp] theorem State.setCal_fuseWord (x : Cal) (i : Nat) : (s.setCal x).fuseWord i = s.fuseWord i := rfl
@[simp] theorem State.setCal_flashByte (x : Cal) (k a : Nat) : (s.setCal x).flashByte k a = s.flashByte k a := rfl
@[simp] theorem State.setCal_domainOn (x : Cal) (d : Nat) : (s.setCal x).domainOn d = s.domainOn d := rfl
@[simp] theorem State.setCal_rd (x : Cal) (r : Reg) (i j : Nat) : (s.setCal x).rd r i j = s.rd r i j := rfl
@[simp] theorem State.setCal_fld (x : Cal) (f : Fld) (i j : Nat) : (s.setCal x).fld f i j = s.fld f i j := rfl
@[simp] theorem State.setCal_on (x : Cal) (f : Fld) (i j : Nat) : (s.setCal x).on f i j = s.on f i j := rfl
@[simp] theorem State.setCal_cycle (x : Cal)  : (s.setCal x).cycle = s.cycle := rfl

/-! ### `setBoot` -/

@[simp] theorem State.setBoot_boot (x : Boot) : (s.setBoot x).boot = x := rfl
@[simp] theorem State.setBoot_now (x : Boot) : (s.setBoot x).now = s.now := rfl
@[simp] theorem State.setBoot_regs (x : Boot) : (s.setBoot x).regs = s.regs := rfl
@[simp] theorem State.setBoot_dev (x : Boot) : (s.setBoot x).dev = s.dev := rfl
@[simp] theorem State.setBoot_tb (x : Boot) : (s.setBoot x).tb = s.tb := rfl
@[simp] theorem State.setBoot_evm (x : Boot) : (s.setBoot x).evm = s.evm := rfl
@[simp] theorem State.setBoot_force (x : Boot) : (s.setBoot x).force = s.force := rfl
@[simp] theorem State.setBoot_seqs (x : Boot) : (s.setBoot x).seqs = s.seqs := rfl
@[simp] theorem State.setBoot_engs (x : Boot) : (s.setBoot x).engs = s.engs := rfl
@[simp] theorem State.setBoot_ress (x : Boot) : (s.setBoot x).ress = s.ress := rfl
@[simp] theorem State.setBoot_guards (x : Boot) : (s.setBoot x).guards = s.guards := rfl
@[simp] theorem State.setBoot_que (x : Boot) : (s.setBoot x).que = s.que := rfl
@[simp] theorem State.setBoot_memc (x : Boot) : (s.setBoot x).memc = s.memc := rfl
@[simp] theorem State.setBoot_hbm (x : Boot) : (s.setBoot x).hbm = s.hbm := rfl
@[simp] theorem State.setBoot_losses (x : Boot) : (s.setBoot x).losses = s.losses := rfl
@[simp] theorem State.setBoot_vat (x : Boot) : (s.setBoot x).vat = s.vat := rfl
@[simp] theorem State.setBoot_web (x : Boot) : (s.setBoot x).web = s.web := rfl
@[simp] theorem State.setBoot_jtag (x : Boot) : (s.setBoot x).jtag = s.jtag := rfl
@[simp] theorem State.setBoot_flt (x : Boot) : (s.setBoot x).flt = s.flt := rfl
@[simp] theorem State.setBoot_cal (x : Boot) : (s.setBoot x).cal = s.cal := rfl
@[simp] theorem State.setBoot_pwr (x : Boot) : (s.setBoot x).pwr = s.pwr := rfl
@[simp] theorem State.setBoot_fuses (x : Boot) : (s.setBoot x).fuses = s.fuses := rfl
@[simp] theorem State.setBoot_flash (x : Boot) : (s.setBoot x).flash = s.flash := rfl
@[simp] theorem State.setBoot_resp (x : Boot) : (s.setBoot x).resp = s.resp := rfl
@[simp] theorem State.setBoot_free (x : Boot) : (s.setBoot x).free = s.free := rfl
@[simp] theorem State.setBoot_pending (x : Boot) : (s.setBoot x).pending = s.pending := rfl
@[simp] theorem State.setBoot_forceOf (x : Boot) (n : Nat) : (s.setBoot x).forceOf n = s.forceOf n := rfl
@[simp] theorem State.setBoot_seqOf (x : Boot) (n : Nat) : (s.setBoot x).seqOf n = s.seqOf n := rfl
@[simp] theorem State.setBoot_engOf (x : Boot) (n : Nat) : (s.setBoot x).engOf n = s.engOf n := rfl
@[simp] theorem State.setBoot_resOf (x : Boot) (n : Nat) : (s.setBoot x).resOf n = s.resOf n := rfl
@[simp] theorem State.setBoot_feltOf (x : Boot) (f : Nat) : (s.setBoot x).feltOf f = s.feltOf f := rfl
@[simp] theorem State.setBoot_creditOf (x : Boot) (p f : Nat) : (s.setBoot x).creditOf p f = s.creditOf p f := rfl
@[simp] theorem State.setBoot_sliceOf (x : Boot) (i : Nat) : (s.setBoot x).sliceOf i = s.sliceOf i := rfl
@[simp] theorem State.setBoot_couchOf (x : Boot) (t : Nat) : (s.setBoot x).couchOf t = s.couchOf t := rfl
@[simp] theorem State.setBoot_genOf (x : Boot) (k : Nat) : (s.setBoot x).genOf k = s.genOf k := rfl
@[simp] theorem State.setBoot_beatPortOf (x : Boot) (p : Nat) : (s.setBoot x).beatPortOf p = s.beatPortOf p := rfl
@[simp] theorem State.setBoot_portOf (x : Boot) (p : Nat) : (s.setBoot x).portOf p = s.portOf p := rfl
@[simp] theorem State.setBoot_bankOf (x : Boot) (k : Nat) : (s.setBoot x).bankOf k = s.bankOf k := rfl
@[simp] theorem State.setBoot_injOf (x : Boot) (j : Nat) : (s.setBoot x).injOf j = s.injOf j := rfl
@[simp] theorem State.setBoot_rcDynOf (x : Boot) (c : Nat) : (s.setBoot x).rcDynOf c = s.rcDynOf c := rfl
@[simp] theorem State.setBoot_pendOf (x : Boot) (i : Nat) : (s.setBoot x).pendOf i = s.pendOf i := rfl
@[simp] theorem State.setBoot_evioOf (x : Boot) (j : Nat) : (s.setBoot x).evioOf j = s.evioOf j := rfl
@[simp] theorem State.setBoot_fuseWord (x : Boot) (i : Nat) : (s.setBoot x).fuseWord i = s.fuseWord i := rfl
@[simp] theorem State.setBoot_flashByte (x : Boot) (k a : Nat) : (s.setBoot x).flashByte k a = s.flashByte k a := rfl
@[simp] theorem State.setBoot_domainOn (x : Boot) (d : Nat) : (s.setBoot x).domainOn d = s.domainOn d := rfl
@[simp] theorem State.setBoot_rd (x : Boot) (r : Reg) (i j : Nat) : (s.setBoot x).rd r i j = s.rd r i j := rfl
@[simp] theorem State.setBoot_fld (x : Boot) (f : Fld) (i j : Nat) : (s.setBoot x).fld f i j = s.fld f i j := rfl
@[simp] theorem State.setBoot_on (x : Boot) (f : Fld) (i j : Nat) : (s.setBoot x).on f i j = s.on f i j := rfl
@[simp] theorem State.setBoot_cycle (x : Boot)  : (s.setBoot x).cycle = s.cycle := rfl

/-! ### `setPwr` -/

@[simp] theorem State.setPwr_pwr (x : Pwr) : (s.setPwr x).pwr = x := rfl
@[simp] theorem State.setPwr_now (x : Pwr) : (s.setPwr x).now = s.now := rfl
@[simp] theorem State.setPwr_regs (x : Pwr) : (s.setPwr x).regs = s.regs := rfl
@[simp] theorem State.setPwr_dev (x : Pwr) : (s.setPwr x).dev = s.dev := rfl
@[simp] theorem State.setPwr_tb (x : Pwr) : (s.setPwr x).tb = s.tb := rfl
@[simp] theorem State.setPwr_evm (x : Pwr) : (s.setPwr x).evm = s.evm := rfl
@[simp] theorem State.setPwr_force (x : Pwr) : (s.setPwr x).force = s.force := rfl
@[simp] theorem State.setPwr_seqs (x : Pwr) : (s.setPwr x).seqs = s.seqs := rfl
@[simp] theorem State.setPwr_engs (x : Pwr) : (s.setPwr x).engs = s.engs := rfl
@[simp] theorem State.setPwr_ress (x : Pwr) : (s.setPwr x).ress = s.ress := rfl
@[simp] theorem State.setPwr_guards (x : Pwr) : (s.setPwr x).guards = s.guards := rfl
@[simp] theorem State.setPwr_que (x : Pwr) : (s.setPwr x).que = s.que := rfl
@[simp] theorem State.setPwr_memc (x : Pwr) : (s.setPwr x).memc = s.memc := rfl
@[simp] theorem State.setPwr_hbm (x : Pwr) : (s.setPwr x).hbm = s.hbm := rfl
@[simp] theorem State.setPwr_losses (x : Pwr) : (s.setPwr x).losses = s.losses := rfl
@[simp] theorem State.setPwr_vat (x : Pwr) : (s.setPwr x).vat = s.vat := rfl
@[simp] theorem State.setPwr_web (x : Pwr) : (s.setPwr x).web = s.web := rfl
@[simp] theorem State.setPwr_jtag (x : Pwr) : (s.setPwr x).jtag = s.jtag := rfl
@[simp] theorem State.setPwr_flt (x : Pwr) : (s.setPwr x).flt = s.flt := rfl
@[simp] theorem State.setPwr_cal (x : Pwr) : (s.setPwr x).cal = s.cal := rfl
@[simp] theorem State.setPwr_boot (x : Pwr) : (s.setPwr x).boot = s.boot := rfl
@[simp] theorem State.setPwr_fuses (x : Pwr) : (s.setPwr x).fuses = s.fuses := rfl
@[simp] theorem State.setPwr_flash (x : Pwr) : (s.setPwr x).flash = s.flash := rfl
@[simp] theorem State.setPwr_resp (x : Pwr) : (s.setPwr x).resp = s.resp := rfl
@[simp] theorem State.setPwr_free (x : Pwr) : (s.setPwr x).free = s.free := rfl
@[simp] theorem State.setPwr_pending (x : Pwr) : (s.setPwr x).pending = s.pending := rfl
@[simp] theorem State.setPwr_forceOf (x : Pwr) (n : Nat) : (s.setPwr x).forceOf n = s.forceOf n := rfl
@[simp] theorem State.setPwr_seqOf (x : Pwr) (n : Nat) : (s.setPwr x).seqOf n = s.seqOf n := rfl
@[simp] theorem State.setPwr_engOf (x : Pwr) (n : Nat) : (s.setPwr x).engOf n = s.engOf n := rfl
@[simp] theorem State.setPwr_resOf (x : Pwr) (n : Nat) : (s.setPwr x).resOf n = s.resOf n := rfl
@[simp] theorem State.setPwr_feltOf (x : Pwr) (f : Nat) : (s.setPwr x).feltOf f = s.feltOf f := rfl
@[simp] theorem State.setPwr_creditOf (x : Pwr) (p f : Nat) : (s.setPwr x).creditOf p f = s.creditOf p f := rfl
@[simp] theorem State.setPwr_sliceOf (x : Pwr) (i : Nat) : (s.setPwr x).sliceOf i = s.sliceOf i := rfl
@[simp] theorem State.setPwr_couchOf (x : Pwr) (t : Nat) : (s.setPwr x).couchOf t = s.couchOf t := rfl
@[simp] theorem State.setPwr_genOf (x : Pwr) (k : Nat) : (s.setPwr x).genOf k = s.genOf k := rfl
@[simp] theorem State.setPwr_beatPortOf (x : Pwr) (p : Nat) : (s.setPwr x).beatPortOf p = s.beatPortOf p := rfl
@[simp] theorem State.setPwr_portOf (x : Pwr) (p : Nat) : (s.setPwr x).portOf p = s.portOf p := rfl
@[simp] theorem State.setPwr_bankOf (x : Pwr) (k : Nat) : (s.setPwr x).bankOf k = s.bankOf k := rfl
@[simp] theorem State.setPwr_injOf (x : Pwr) (j : Nat) : (s.setPwr x).injOf j = s.injOf j := rfl
@[simp] theorem State.setPwr_rcDynOf (x : Pwr) (c : Nat) : (s.setPwr x).rcDynOf c = s.rcDynOf c := rfl
@[simp] theorem State.setPwr_pendOf (x : Pwr) (i : Nat) : (s.setPwr x).pendOf i = s.pendOf i := rfl
@[simp] theorem State.setPwr_evioOf (x : Pwr) (j : Nat) : (s.setPwr x).evioOf j = s.evioOf j := rfl
@[simp] theorem State.setPwr_coreOf (x : Pwr) (k : Nat) : (s.setPwr x).coreOf k = s.coreOf k := rfl
@[simp] theorem State.setPwr_fuseWord (x : Pwr) (i : Nat) : (s.setPwr x).fuseWord i = s.fuseWord i := rfl
@[simp] theorem State.setPwr_flashByte (x : Pwr) (k a : Nat) : (s.setPwr x).flashByte k a = s.flashByte k a := rfl
@[simp] theorem State.setPwr_rd (x : Pwr) (r : Reg) (i j : Nat) : (s.setPwr x).rd r i j = s.rd r i j := rfl
@[simp] theorem State.setPwr_fld (x : Pwr) (f : Fld) (i j : Nat) : (s.setPwr x).fld f i j = s.fld f i j := rfl
@[simp] theorem State.setPwr_on (x : Pwr) (f : Fld) (i j : Nat) : (s.setPwr x).on f i j = s.on f i j := rfl
@[simp] theorem State.setPwr_cycle (x : Pwr)  : (s.setPwr x).cycle = s.cycle := rfl

/-! ### `wr` -/

@[simp] theorem State.wr_now (r : Reg) (w : Word) (i j : Nat) : (s.wr r w i j).now = s.now := rfl
@[simp] theorem State.wr_dev (r : Reg) (w : Word) (i j : Nat) : (s.wr r w i j).dev = s.dev := rfl
@[simp] theorem State.wr_tb (r : Reg) (w : Word) (i j : Nat) : (s.wr r w i j).tb = s.tb := rfl
@[simp] theorem State.wr_evm (r : Reg) (w : Word) (i j : Nat) : (s.wr r w i j).evm = s.evm := rfl
@[simp] theorem State.wr_force (r : Reg) (w : Word) (i j : Nat) : (s.wr r w i j).force = s.force := rfl
@[simp] theorem State.wr_seqs (r : Reg) (w : Word) (i j : Nat) : (s.wr r w i j).seqs = s.seqs := rfl
@[simp] theorem State.wr_engs (r : Reg) (w : Word) (i j : Nat) : (s.wr r w i j).engs = s.engs := rfl
@[simp] theorem State.wr_ress (r : Reg) (w : Word) (i j : Nat) : (s.wr r w i j).ress = s.ress := rfl
@[simp] theorem State.wr_guards (r : Reg) (w : Word) (i j : Nat) : (s.wr r w i j).guards = s.guards := rfl
@[simp] theorem State.wr_que (r : Reg) (w : Word) (i j : Nat) : (s.wr r w i j).que = s.que := rfl
@[simp] theorem State.wr_memc (r : Reg) (w : Word) (i j : Nat) : (s.wr r w i j).memc = s.memc := rfl
@[simp] theorem State.wr_hbm (r : Reg) (w : Word) (i j : Nat) : (s.wr r w i j).hbm = s.hbm := rfl
@[simp] theorem State.wr_losses (r : Reg) (w : Word) (i j : Nat) : (s.wr r w i j).losses = s.losses := rfl
@[simp] theorem State.wr_vat (r : Reg) (w : Word) (i j : Nat) : (s.wr r w i j).vat = s.vat := rfl
@[simp] theorem State.wr_web (r : Reg) (w : Word) (i j : Nat) : (s.wr r w i j).web = s.web := rfl
@[simp] theorem State.wr_jtag (r : Reg) (w : Word) (i j : Nat) : (s.wr r w i j).jtag = s.jtag := rfl
@[simp] theorem State.wr_flt (r : Reg) (w : Word) (i j : Nat) : (s.wr r w i j).flt = s.flt := rfl
@[simp] theorem State.wr_cal (r : Reg) (w : Word) (i j : Nat) : (s.wr r w i j).cal = s.cal := rfl
@[simp] theorem State.wr_boot (r : Reg) (w : Word) (i j : Nat) : (s.wr r w i j).boot = s.boot := rfl
@[simp] theorem State.wr_pwr (r : Reg) (w : Word) (i j : Nat) : (s.wr r w i j).pwr = s.pwr := rfl
@[simp] theorem State.wr_fuses (r : Reg) (w : Word) (i j : Nat) : (s.wr r w i j).fuses = s.fuses := rfl
@[simp] theorem State.wr_flash (r : Reg) (w : Word) (i j : Nat) : (s.wr r w i j).flash = s.flash := rfl
@[simp] theorem State.wr_resp (r : Reg) (w : Word) (i j : Nat) : (s.wr r w i j).resp = s.resp := rfl
@[simp] theorem State.wr_free (r : Reg) (w : Word) (i j : Nat) : (s.wr r w i j).free = s.free := rfl
@[simp] theorem State.wr_pending (r : Reg) (w : Word) (i j : Nat) : (s.wr r w i j).pending = s.pending := rfl
@[simp] theorem State.wr_forceOf (r : Reg) (w : Word) (i j : Nat) (n : Nat) : (s.wr r w i j).forceOf n = s.forceOf n := rfl
@[simp] theorem State.wr_seqOf (r : Reg) (w : Word) (i j : Nat) (n : Nat) : (s.wr r w i j).seqOf n = s.seqOf n := rfl
@[simp] theorem State.wr_engOf (r : Reg) (w : Word) (i j : Nat) (n : Nat) : (s.wr r w i j).engOf n = s.engOf n := rfl
@[simp] theorem State.wr_resOf (r : Reg) (w : Word) (i j : Nat) (n : Nat) : (s.wr r w i j).resOf n = s.resOf n := rfl
@[simp] theorem State.wr_feltOf (r : Reg) (w : Word) (i j : Nat) (f : Nat) : (s.wr r w i j).feltOf f = s.feltOf f := rfl
@[simp] theorem State.wr_creditOf (r : Reg) (w : Word) (i j : Nat) (p f : Nat) : (s.wr r w i j).creditOf p f = s.creditOf p f := rfl
@[simp] theorem State.wr_sliceOf (r : Reg) (w : Word) (i j : Nat) (i' : Nat) : (s.wr r w i j).sliceOf i' = s.sliceOf i' := rfl
@[simp] theorem State.wr_couchOf (r : Reg) (w : Word) (i j : Nat) (t : Nat) : (s.wr r w i j).couchOf t = s.couchOf t := rfl
@[simp] theorem State.wr_genOf (r : Reg) (w : Word) (i j : Nat) (k : Nat) : (s.wr r w i j).genOf k = s.genOf k := rfl
@[simp] theorem State.wr_beatPortOf (r : Reg) (w : Word) (i j : Nat) (p : Nat) : (s.wr r w i j).beatPortOf p = s.beatPortOf p := rfl
@[simp] theorem State.wr_portOf (r : Reg) (w : Word) (i j : Nat) (p : Nat) : (s.wr r w i j).portOf p = s.portOf p := rfl
@[simp] theorem State.wr_bankOf (r : Reg) (w : Word) (i j : Nat) (k : Nat) : (s.wr r w i j).bankOf k = s.bankOf k := rfl
@[simp] theorem State.wr_injOf (r : Reg) (w : Word) (i j : Nat) (j' : Nat) : (s.wr r w i j).injOf j' = s.injOf j' := rfl
@[simp] theorem State.wr_rcDynOf (r : Reg) (w : Word) (i j : Nat) (c : Nat) : (s.wr r w i j).rcDynOf c = s.rcDynOf c := rfl
@[simp] theorem State.wr_pendOf (r : Reg) (w : Word) (i j : Nat) (i' : Nat) : (s.wr r w i j).pendOf i' = s.pendOf i' := rfl
@[simp] theorem State.wr_evioOf (r : Reg) (w : Word) (i j : Nat) (j' : Nat) : (s.wr r w i j).evioOf j' = s.evioOf j' := rfl
@[simp] theorem State.wr_coreOf (r : Reg) (w : Word) (i j : Nat) (k : Nat) : (s.wr r w i j).coreOf k = s.coreOf k := rfl
@[simp] theorem State.wr_fuseWord (r : Reg) (w : Word) (i j : Nat) (i' : Nat) : (s.wr r w i j).fuseWord i' = s.fuseWord i' := rfl
@[simp] theorem State.wr_flashByte (r : Reg) (w : Word) (i j : Nat) (k a : Nat) : (s.wr r w i j).flashByte k a = s.flashByte k a := rfl
@[simp] theorem State.wr_domainOn (r : Reg) (w : Word) (i j : Nat) (d : Nat) : (s.wr r w i j).domainOn d = s.domainOn d := rfl
@[simp] theorem State.wr_cycle (r : Reg) (w : Word) (i j : Nat)  : (s.wr r w i j).cycle = s.cycle := rfl

/-! ### `setFld` -/

@[simp] theorem State.setFld_now (f : Fld) (v i j : Nat) : (s.setFld f v i j).now = s.now := rfl
@[simp] theorem State.setFld_dev (f : Fld) (v i j : Nat) : (s.setFld f v i j).dev = s.dev := rfl
@[simp] theorem State.setFld_tb (f : Fld) (v i j : Nat) : (s.setFld f v i j).tb = s.tb := rfl
@[simp] theorem State.setFld_evm (f : Fld) (v i j : Nat) : (s.setFld f v i j).evm = s.evm := rfl
@[simp] theorem State.setFld_force (f : Fld) (v i j : Nat) : (s.setFld f v i j).force = s.force := rfl
@[simp] theorem State.setFld_seqs (f : Fld) (v i j : Nat) : (s.setFld f v i j).seqs = s.seqs := rfl
@[simp] theorem State.setFld_engs (f : Fld) (v i j : Nat) : (s.setFld f v i j).engs = s.engs := rfl
@[simp] theorem State.setFld_ress (f : Fld) (v i j : Nat) : (s.setFld f v i j).ress = s.ress := rfl
@[simp] theorem State.setFld_guards (f : Fld) (v i j : Nat) : (s.setFld f v i j).guards = s.guards := rfl
@[simp] theorem State.setFld_que (f : Fld) (v i j : Nat) : (s.setFld f v i j).que = s.que := rfl
@[simp] theorem State.setFld_memc (f : Fld) (v i j : Nat) : (s.setFld f v i j).memc = s.memc := rfl
@[simp] theorem State.setFld_hbm (f : Fld) (v i j : Nat) : (s.setFld f v i j).hbm = s.hbm := rfl
@[simp] theorem State.setFld_losses (f : Fld) (v i j : Nat) : (s.setFld f v i j).losses = s.losses := rfl
@[simp] theorem State.setFld_vat (f : Fld) (v i j : Nat) : (s.setFld f v i j).vat = s.vat := rfl
@[simp] theorem State.setFld_web (f : Fld) (v i j : Nat) : (s.setFld f v i j).web = s.web := rfl
@[simp] theorem State.setFld_jtag (f : Fld) (v i j : Nat) : (s.setFld f v i j).jtag = s.jtag := rfl
@[simp] theorem State.setFld_flt (f : Fld) (v i j : Nat) : (s.setFld f v i j).flt = s.flt := rfl
@[simp] theorem State.setFld_cal (f : Fld) (v i j : Nat) : (s.setFld f v i j).cal = s.cal := rfl
@[simp] theorem State.setFld_boot (f : Fld) (v i j : Nat) : (s.setFld f v i j).boot = s.boot := rfl
@[simp] theorem State.setFld_pwr (f : Fld) (v i j : Nat) : (s.setFld f v i j).pwr = s.pwr := rfl
@[simp] theorem State.setFld_fuses (f : Fld) (v i j : Nat) : (s.setFld f v i j).fuses = s.fuses := rfl
@[simp] theorem State.setFld_flash (f : Fld) (v i j : Nat) : (s.setFld f v i j).flash = s.flash := rfl
@[simp] theorem State.setFld_resp (f : Fld) (v i j : Nat) : (s.setFld f v i j).resp = s.resp := rfl
@[simp] theorem State.setFld_free (f : Fld) (v i j : Nat) : (s.setFld f v i j).free = s.free := rfl
@[simp] theorem State.setFld_pending (f : Fld) (v i j : Nat) : (s.setFld f v i j).pending = s.pending := rfl
@[simp] theorem State.setFld_forceOf (f : Fld) (v i j : Nat) (n : Nat) : (s.setFld f v i j).forceOf n = s.forceOf n := rfl
@[simp] theorem State.setFld_seqOf (f : Fld) (v i j : Nat) (n : Nat) : (s.setFld f v i j).seqOf n = s.seqOf n := rfl
@[simp] theorem State.setFld_engOf (f : Fld) (v i j : Nat) (n : Nat) : (s.setFld f v i j).engOf n = s.engOf n := rfl
@[simp] theorem State.setFld_resOf (f : Fld) (v i j : Nat) (n : Nat) : (s.setFld f v i j).resOf n = s.resOf n := rfl
@[simp] theorem State.setFld_feltOf (f : Fld) (v i j : Nat) (f' : Nat) : (s.setFld f v i j).feltOf f' = s.feltOf f' := rfl
@[simp] theorem State.setFld_creditOf (f : Fld) (v i j : Nat) (p f' : Nat) : (s.setFld f v i j).creditOf p f' = s.creditOf p f' := rfl
@[simp] theorem State.setFld_sliceOf (f : Fld) (v i j : Nat) (i' : Nat) : (s.setFld f v i j).sliceOf i' = s.sliceOf i' := rfl
@[simp] theorem State.setFld_couchOf (f : Fld) (v i j : Nat) (t : Nat) : (s.setFld f v i j).couchOf t = s.couchOf t := rfl
@[simp] theorem State.setFld_genOf (f : Fld) (v i j : Nat) (k : Nat) : (s.setFld f v i j).genOf k = s.genOf k := rfl
@[simp] theorem State.setFld_beatPortOf (f : Fld) (v i j : Nat) (p : Nat) : (s.setFld f v i j).beatPortOf p = s.beatPortOf p := rfl
@[simp] theorem State.setFld_portOf (f : Fld) (v i j : Nat) (p : Nat) : (s.setFld f v i j).portOf p = s.portOf p := rfl
@[simp] theorem State.setFld_bankOf (f : Fld) (v i j : Nat) (k : Nat) : (s.setFld f v i j).bankOf k = s.bankOf k := rfl
@[simp] theorem State.setFld_injOf (f : Fld) (v i j : Nat) (j' : Nat) : (s.setFld f v i j).injOf j' = s.injOf j' := rfl
@[simp] theorem State.setFld_rcDynOf (f : Fld) (v i j : Nat) (c : Nat) : (s.setFld f v i j).rcDynOf c = s.rcDynOf c := rfl
@[simp] theorem State.setFld_pendOf (f : Fld) (v i j : Nat) (i' : Nat) : (s.setFld f v i j).pendOf i' = s.pendOf i' := rfl
@[simp] theorem State.setFld_evioOf (f : Fld) (v i j : Nat) (j' : Nat) : (s.setFld f v i j).evioOf j' = s.evioOf j' := rfl
@[simp] theorem State.setFld_coreOf (f : Fld) (v i j : Nat) (k : Nat) : (s.setFld f v i j).coreOf k = s.coreOf k := rfl
@[simp] theorem State.setFld_fuseWord (f : Fld) (v i j : Nat) (i' : Nat) : (s.setFld f v i j).fuseWord i' = s.fuseWord i' := rfl
@[simp] theorem State.setFld_flashByte (f : Fld) (v i j : Nat) (k a : Nat) : (s.setFld f v i j).flashByte k a = s.flashByte k a := rfl
@[simp] theorem State.setFld_domainOn (f : Fld) (v i j : Nat) (d : Nat) : (s.setFld f v i j).domainOn d = s.domainOn d := rfl
@[simp] theorem State.setFld_cycle (f : Fld) (v i j : Nat)  : (s.setFld f v i j).cycle = s.cycle := rfl

/-! ### `stick` -/

@[simp] theorem State.stick_now (f : Fld) (i : Nat) : (s.stick f i).now = s.now := rfl
@[simp] theorem State.stick_dev (f : Fld) (i : Nat) : (s.stick f i).dev = s.dev := rfl
@[simp] theorem State.stick_tb (f : Fld) (i : Nat) : (s.stick f i).tb = s.tb := rfl
@[simp] theorem State.stick_evm (f : Fld) (i : Nat) : (s.stick f i).evm = s.evm := rfl
@[simp] theorem State.stick_force (f : Fld) (i : Nat) : (s.stick f i).force = s.force := rfl
@[simp] theorem State.stick_seqs (f : Fld) (i : Nat) : (s.stick f i).seqs = s.seqs := rfl
@[simp] theorem State.stick_engs (f : Fld) (i : Nat) : (s.stick f i).engs = s.engs := rfl
@[simp] theorem State.stick_ress (f : Fld) (i : Nat) : (s.stick f i).ress = s.ress := rfl
@[simp] theorem State.stick_guards (f : Fld) (i : Nat) : (s.stick f i).guards = s.guards := rfl
@[simp] theorem State.stick_que (f : Fld) (i : Nat) : (s.stick f i).que = s.que := rfl
@[simp] theorem State.stick_memc (f : Fld) (i : Nat) : (s.stick f i).memc = s.memc := rfl
@[simp] theorem State.stick_hbm (f : Fld) (i : Nat) : (s.stick f i).hbm = s.hbm := rfl
@[simp] theorem State.stick_losses (f : Fld) (i : Nat) : (s.stick f i).losses = s.losses := rfl
@[simp] theorem State.stick_vat (f : Fld) (i : Nat) : (s.stick f i).vat = s.vat := rfl
@[simp] theorem State.stick_web (f : Fld) (i : Nat) : (s.stick f i).web = s.web := rfl
@[simp] theorem State.stick_jtag (f : Fld) (i : Nat) : (s.stick f i).jtag = s.jtag := rfl
@[simp] theorem State.stick_flt (f : Fld) (i : Nat) : (s.stick f i).flt = s.flt := rfl
@[simp] theorem State.stick_cal (f : Fld) (i : Nat) : (s.stick f i).cal = s.cal := rfl
@[simp] theorem State.stick_boot (f : Fld) (i : Nat) : (s.stick f i).boot = s.boot := rfl
@[simp] theorem State.stick_pwr (f : Fld) (i : Nat) : (s.stick f i).pwr = s.pwr := rfl
@[simp] theorem State.stick_fuses (f : Fld) (i : Nat) : (s.stick f i).fuses = s.fuses := rfl
@[simp] theorem State.stick_flash (f : Fld) (i : Nat) : (s.stick f i).flash = s.flash := rfl
@[simp] theorem State.stick_resp (f : Fld) (i : Nat) : (s.stick f i).resp = s.resp := rfl
@[simp] theorem State.stick_free (f : Fld) (i : Nat) : (s.stick f i).free = s.free := rfl
@[simp] theorem State.stick_pending (f : Fld) (i : Nat) : (s.stick f i).pending = s.pending := rfl
@[simp] theorem State.stick_forceOf (f : Fld) (i : Nat) (n : Nat) : (s.stick f i).forceOf n = s.forceOf n := rfl
@[simp] theorem State.stick_seqOf (f : Fld) (i : Nat) (n : Nat) : (s.stick f i).seqOf n = s.seqOf n := rfl
@[simp] theorem State.stick_engOf (f : Fld) (i : Nat) (n : Nat) : (s.stick f i).engOf n = s.engOf n := rfl
@[simp] theorem State.stick_resOf (f : Fld) (i : Nat) (n : Nat) : (s.stick f i).resOf n = s.resOf n := rfl
@[simp] theorem State.stick_feltOf (f : Fld) (i : Nat) (f' : Nat) : (s.stick f i).feltOf f' = s.feltOf f' := rfl
@[simp] theorem State.stick_creditOf (f : Fld) (i : Nat) (p f' : Nat) : (s.stick f i).creditOf p f' = s.creditOf p f' := rfl
@[simp] theorem State.stick_sliceOf (f : Fld) (i : Nat) (i' : Nat) : (s.stick f i).sliceOf i' = s.sliceOf i' := rfl
@[simp] theorem State.stick_couchOf (f : Fld) (i : Nat) (t : Nat) : (s.stick f i).couchOf t = s.couchOf t := rfl
@[simp] theorem State.stick_genOf (f : Fld) (i : Nat) (k : Nat) : (s.stick f i).genOf k = s.genOf k := rfl
@[simp] theorem State.stick_beatPortOf (f : Fld) (i : Nat) (p : Nat) : (s.stick f i).beatPortOf p = s.beatPortOf p := rfl
@[simp] theorem State.stick_portOf (f : Fld) (i : Nat) (p : Nat) : (s.stick f i).portOf p = s.portOf p := rfl
@[simp] theorem State.stick_bankOf (f : Fld) (i : Nat) (k : Nat) : (s.stick f i).bankOf k = s.bankOf k := rfl
@[simp] theorem State.stick_injOf (f : Fld) (i : Nat) (j : Nat) : (s.stick f i).injOf j = s.injOf j := rfl
@[simp] theorem State.stick_rcDynOf (f : Fld) (i : Nat) (c : Nat) : (s.stick f i).rcDynOf c = s.rcDynOf c := rfl
@[simp] theorem State.stick_pendOf (f : Fld) (i : Nat) (i' : Nat) : (s.stick f i).pendOf i' = s.pendOf i' := rfl
@[simp] theorem State.stick_evioOf (f : Fld) (i : Nat) (j : Nat) : (s.stick f i).evioOf j = s.evioOf j := rfl
@[simp] theorem State.stick_coreOf (f : Fld) (i : Nat) (k : Nat) : (s.stick f i).coreOf k = s.coreOf k := rfl
@[simp] theorem State.stick_fuseWord (f : Fld) (i : Nat) (i' : Nat) : (s.stick f i).fuseWord i' = s.fuseWord i' := rfl
@[simp] theorem State.stick_flashByte (f : Fld) (i : Nat) (k a : Nat) : (s.stick f i).flashByte k a = s.flashByte k a := rfl
@[simp] theorem State.stick_domainOn (f : Fld) (i : Nat) (d : Nat) : (s.stick f i).domainOn d = s.domainOn d := rfl
@[simp] theorem State.stick_cycle (f : Fld) (i : Nat)  : (s.stick f i).cycle = s.cycle := rfl

/-! ### `tally` -/

@[simp] theorem State.tally_now (f : Fld) (k i : Nat) : (s.tally f k i).now = s.now := rfl
@[simp] theorem State.tally_dev (f : Fld) (k i : Nat) : (s.tally f k i).dev = s.dev := rfl
@[simp] theorem State.tally_tb (f : Fld) (k i : Nat) : (s.tally f k i).tb = s.tb := rfl
@[simp] theorem State.tally_evm (f : Fld) (k i : Nat) : (s.tally f k i).evm = s.evm := rfl
@[simp] theorem State.tally_force (f : Fld) (k i : Nat) : (s.tally f k i).force = s.force := rfl
@[simp] theorem State.tally_seqs (f : Fld) (k i : Nat) : (s.tally f k i).seqs = s.seqs := rfl
@[simp] theorem State.tally_engs (f : Fld) (k i : Nat) : (s.tally f k i).engs = s.engs := rfl
@[simp] theorem State.tally_ress (f : Fld) (k i : Nat) : (s.tally f k i).ress = s.ress := rfl
@[simp] theorem State.tally_guards (f : Fld) (k i : Nat) : (s.tally f k i).guards = s.guards := rfl
@[simp] theorem State.tally_que (f : Fld) (k i : Nat) : (s.tally f k i).que = s.que := rfl
@[simp] theorem State.tally_memc (f : Fld) (k i : Nat) : (s.tally f k i).memc = s.memc := rfl
@[simp] theorem State.tally_hbm (f : Fld) (k i : Nat) : (s.tally f k i).hbm = s.hbm := rfl
@[simp] theorem State.tally_losses (f : Fld) (k i : Nat) : (s.tally f k i).losses = s.losses := rfl
@[simp] theorem State.tally_vat (f : Fld) (k i : Nat) : (s.tally f k i).vat = s.vat := rfl
@[simp] theorem State.tally_web (f : Fld) (k i : Nat) : (s.tally f k i).web = s.web := rfl
@[simp] theorem State.tally_jtag (f : Fld) (k i : Nat) : (s.tally f k i).jtag = s.jtag := rfl
@[simp] theorem State.tally_flt (f : Fld) (k i : Nat) : (s.tally f k i).flt = s.flt := rfl
@[simp] theorem State.tally_cal (f : Fld) (k i : Nat) : (s.tally f k i).cal = s.cal := rfl
@[simp] theorem State.tally_boot (f : Fld) (k i : Nat) : (s.tally f k i).boot = s.boot := rfl
@[simp] theorem State.tally_pwr (f : Fld) (k i : Nat) : (s.tally f k i).pwr = s.pwr := rfl
@[simp] theorem State.tally_fuses (f : Fld) (k i : Nat) : (s.tally f k i).fuses = s.fuses := rfl
@[simp] theorem State.tally_flash (f : Fld) (k i : Nat) : (s.tally f k i).flash = s.flash := rfl
@[simp] theorem State.tally_resp (f : Fld) (k i : Nat) : (s.tally f k i).resp = s.resp := rfl
@[simp] theorem State.tally_free (f : Fld) (k i : Nat) : (s.tally f k i).free = s.free := rfl
@[simp] theorem State.tally_pending (f : Fld) (k i : Nat) : (s.tally f k i).pending = s.pending := rfl
@[simp] theorem State.tally_forceOf (f : Fld) (k i : Nat) (n : Nat) : (s.tally f k i).forceOf n = s.forceOf n := rfl
@[simp] theorem State.tally_seqOf (f : Fld) (k i : Nat) (n : Nat) : (s.tally f k i).seqOf n = s.seqOf n := rfl
@[simp] theorem State.tally_engOf (f : Fld) (k i : Nat) (n : Nat) : (s.tally f k i).engOf n = s.engOf n := rfl
@[simp] theorem State.tally_resOf (f : Fld) (k i : Nat) (n : Nat) : (s.tally f k i).resOf n = s.resOf n := rfl
@[simp] theorem State.tally_feltOf (f : Fld) (k i : Nat) (f' : Nat) : (s.tally f k i).feltOf f' = s.feltOf f' := rfl
@[simp] theorem State.tally_creditOf (f : Fld) (k i : Nat) (p f' : Nat) : (s.tally f k i).creditOf p f' = s.creditOf p f' := rfl
@[simp] theorem State.tally_sliceOf (f : Fld) (k i : Nat) (i' : Nat) : (s.tally f k i).sliceOf i' = s.sliceOf i' := rfl
@[simp] theorem State.tally_couchOf (f : Fld) (k i : Nat) (t : Nat) : (s.tally f k i).couchOf t = s.couchOf t := rfl
@[simp] theorem State.tally_genOf (f : Fld) (k i : Nat) (k' : Nat) : (s.tally f k i).genOf k' = s.genOf k' := rfl
@[simp] theorem State.tally_beatPortOf (f : Fld) (k i : Nat) (p : Nat) : (s.tally f k i).beatPortOf p = s.beatPortOf p := rfl
@[simp] theorem State.tally_portOf (f : Fld) (k i : Nat) (p : Nat) : (s.tally f k i).portOf p = s.portOf p := rfl
@[simp] theorem State.tally_bankOf (f : Fld) (k i : Nat) (k' : Nat) : (s.tally f k i).bankOf k' = s.bankOf k' := rfl
@[simp] theorem State.tally_injOf (f : Fld) (k i : Nat) (j : Nat) : (s.tally f k i).injOf j = s.injOf j := rfl
@[simp] theorem State.tally_rcDynOf (f : Fld) (k i : Nat) (c : Nat) : (s.tally f k i).rcDynOf c = s.rcDynOf c := rfl
@[simp] theorem State.tally_pendOf (f : Fld) (k i : Nat) (i' : Nat) : (s.tally f k i).pendOf i' = s.pendOf i' := rfl
@[simp] theorem State.tally_evioOf (f : Fld) (k i : Nat) (j : Nat) : (s.tally f k i).evioOf j = s.evioOf j := rfl
@[simp] theorem State.tally_coreOf (f : Fld) (k i : Nat) (k' : Nat) : (s.tally f k i).coreOf k' = s.coreOf k' := rfl
@[simp] theorem State.tally_fuseWord (f : Fld) (k i : Nat) (i' : Nat) : (s.tally f k i).fuseWord i' = s.fuseWord i' := rfl
@[simp] theorem State.tally_flashByte (f : Fld) (k i : Nat) (k' a : Nat) : (s.tally f k i).flashByte k' a = s.flashByte k' a := rfl
@[simp] theorem State.tally_domainOn (f : Fld) (k i : Nat) (d : Nat) : (s.tally f k i).domainOn d = s.domainOn d := rfl
@[simp] theorem State.tally_cycle (f : Fld) (k i : Nat)  : (s.tally f k i).cycle = s.cycle := rfl

/-! ### `assertSrc` -/

@[simp] theorem State.assertSrc_now (e : Nat) : (s.assertSrc e).now = s.now := rfl
@[simp] theorem State.assertSrc_regs (e : Nat) : (s.assertSrc e).regs = s.regs := rfl
@[simp] theorem State.assertSrc_dev (e : Nat) : (s.assertSrc e).dev = s.dev := rfl
@[simp] theorem State.assertSrc_tb (e : Nat) : (s.assertSrc e).tb = s.tb := rfl
@[simp] theorem State.assertSrc_force (e : Nat) : (s.assertSrc e).force = s.force := rfl
@[simp] theorem State.assertSrc_seqs (e : Nat) : (s.assertSrc e).seqs = s.seqs := rfl
@[simp] theorem State.assertSrc_engs (e : Nat) : (s.assertSrc e).engs = s.engs := rfl
@[simp] theorem State.assertSrc_ress (e : Nat) : (s.assertSrc e).ress = s.ress := rfl
@[simp] theorem State.assertSrc_guards (e : Nat) : (s.assertSrc e).guards = s.guards := rfl
@[simp] theorem State.assertSrc_que (e : Nat) : (s.assertSrc e).que = s.que := rfl
@[simp] theorem State.assertSrc_memc (e : Nat) : (s.assertSrc e).memc = s.memc := rfl
@[simp] theorem State.assertSrc_hbm (e : Nat) : (s.assertSrc e).hbm = s.hbm := rfl
@[simp] theorem State.assertSrc_losses (e : Nat) : (s.assertSrc e).losses = s.losses := rfl
@[simp] theorem State.assertSrc_vat (e : Nat) : (s.assertSrc e).vat = s.vat := rfl
@[simp] theorem State.assertSrc_web (e : Nat) : (s.assertSrc e).web = s.web := rfl
@[simp] theorem State.assertSrc_jtag (e : Nat) : (s.assertSrc e).jtag = s.jtag := rfl
@[simp] theorem State.assertSrc_flt (e : Nat) : (s.assertSrc e).flt = s.flt := rfl
@[simp] theorem State.assertSrc_cal (e : Nat) : (s.assertSrc e).cal = s.cal := rfl
@[simp] theorem State.assertSrc_boot (e : Nat) : (s.assertSrc e).boot = s.boot := rfl
@[simp] theorem State.assertSrc_pwr (e : Nat) : (s.assertSrc e).pwr = s.pwr := rfl
@[simp] theorem State.assertSrc_fuses (e : Nat) : (s.assertSrc e).fuses = s.fuses := rfl
@[simp] theorem State.assertSrc_flash (e : Nat) : (s.assertSrc e).flash = s.flash := rfl
@[simp] theorem State.assertSrc_resp (e : Nat) : (s.assertSrc e).resp = s.resp := rfl
@[simp] theorem State.assertSrc_free (e : Nat) : (s.assertSrc e).free = s.free := rfl
@[simp] theorem State.assertSrc_pending (e : Nat) : (s.assertSrc e).pending = s.pending := rfl
@[simp] theorem State.assertSrc_forceOf (e : Nat) (n : Nat) : (s.assertSrc e).forceOf n = s.forceOf n := rfl
@[simp] theorem State.assertSrc_seqOf (e : Nat) (n : Nat) : (s.assertSrc e).seqOf n = s.seqOf n := rfl
@[simp] theorem State.assertSrc_engOf (e : Nat) (n : Nat) : (s.assertSrc e).engOf n = s.engOf n := rfl
@[simp] theorem State.assertSrc_resOf (e : Nat) (n : Nat) : (s.assertSrc e).resOf n = s.resOf n := rfl
@[simp] theorem State.assertSrc_feltOf (e : Nat) (f : Nat) : (s.assertSrc e).feltOf f = s.feltOf f := rfl
@[simp] theorem State.assertSrc_creditOf (e : Nat) (p f : Nat) : (s.assertSrc e).creditOf p f = s.creditOf p f := rfl
@[simp] theorem State.assertSrc_sliceOf (e : Nat) (i : Nat) : (s.assertSrc e).sliceOf i = s.sliceOf i := rfl
@[simp] theorem State.assertSrc_couchOf (e : Nat) (t : Nat) : (s.assertSrc e).couchOf t = s.couchOf t := rfl
@[simp] theorem State.assertSrc_genOf (e : Nat) (k : Nat) : (s.assertSrc e).genOf k = s.genOf k := rfl
@[simp] theorem State.assertSrc_beatPortOf (e : Nat) (p : Nat) : (s.assertSrc e).beatPortOf p = s.beatPortOf p := rfl
@[simp] theorem State.assertSrc_portOf (e : Nat) (p : Nat) : (s.assertSrc e).portOf p = s.portOf p := rfl
@[simp] theorem State.assertSrc_bankOf (e : Nat) (k : Nat) : (s.assertSrc e).bankOf k = s.bankOf k := rfl
@[simp] theorem State.assertSrc_injOf (e : Nat) (j : Nat) : (s.assertSrc e).injOf j = s.injOf j := rfl
@[simp] theorem State.assertSrc_rcDynOf (e : Nat) (c : Nat) : (s.assertSrc e).rcDynOf c = s.rcDynOf c := rfl
@[simp] theorem State.assertSrc_pendOf (e : Nat) (i : Nat) : (s.assertSrc e).pendOf i = s.pendOf i := rfl
@[simp] theorem State.assertSrc_evioOf (e : Nat) (j : Nat) : (s.assertSrc e).evioOf j = s.evioOf j := rfl
@[simp] theorem State.assertSrc_coreOf (e : Nat) (k : Nat) : (s.assertSrc e).coreOf k = s.coreOf k := rfl
@[simp] theorem State.assertSrc_fuseWord (e : Nat) (i : Nat) : (s.assertSrc e).fuseWord i = s.fuseWord i := rfl
@[simp] theorem State.assertSrc_flashByte (e : Nat) (k a : Nat) : (s.assertSrc e).flashByte k a = s.flashByte k a := rfl
@[simp] theorem State.assertSrc_domainOn (e : Nat) (d : Nat) : (s.assertSrc e).domainOn d = s.domainOn d := rfl
@[simp] theorem State.assertSrc_rd (e : Nat) (r : Reg) (i j : Nat) : (s.assertSrc e).rd r i j = s.rd r i j := rfl
@[simp] theorem State.assertSrc_fld (e : Nat) (f : Fld) (i j : Nat) : (s.assertSrc e).fld f i j = s.fld f i j := rfl
@[simp] theorem State.assertSrc_on (e : Nat) (f : Fld) (i j : Nat) : (s.assertSrc e).on f i j = s.on f i j := rfl
@[simp] theorem State.assertSrc_cycle (e : Nat)  : (s.assertSrc e).cycle = s.cycle := rfl

/-! ### `setHbm` -/

@[simp] theorem State.setHbm_now (a : Nat) (b : Byte) : (s.setHbm a b).now = s.now := rfl
@[simp] theorem State.setHbm_regs (a : Nat) (b : Byte) : (s.setHbm a b).regs = s.regs := rfl
@[simp] theorem State.setHbm_dev (a : Nat) (b : Byte) : (s.setHbm a b).dev = s.dev := rfl
@[simp] theorem State.setHbm_tb (a : Nat) (b : Byte) : (s.setHbm a b).tb = s.tb := rfl
@[simp] theorem State.setHbm_evm (a : Nat) (b : Byte) : (s.setHbm a b).evm = s.evm := rfl
@[simp] theorem State.setHbm_force (a : Nat) (b : Byte) : (s.setHbm a b).force = s.force := rfl
@[simp] theorem State.setHbm_seqs (a : Nat) (b : Byte) : (s.setHbm a b).seqs = s.seqs := rfl
@[simp] theorem State.setHbm_engs (a : Nat) (b : Byte) : (s.setHbm a b).engs = s.engs := rfl
@[simp] theorem State.setHbm_ress (a : Nat) (b : Byte) : (s.setHbm a b).ress = s.ress := rfl
@[simp] theorem State.setHbm_guards (a : Nat) (b : Byte) : (s.setHbm a b).guards = s.guards := rfl
@[simp] theorem State.setHbm_que (a : Nat) (b : Byte) : (s.setHbm a b).que = s.que := rfl
@[simp] theorem State.setHbm_losses (a : Nat) (b : Byte) : (s.setHbm a b).losses = s.losses := rfl
@[simp] theorem State.setHbm_vat (a : Nat) (b : Byte) : (s.setHbm a b).vat = s.vat := rfl
@[simp] theorem State.setHbm_web (a : Nat) (b : Byte) : (s.setHbm a b).web = s.web := rfl
@[simp] theorem State.setHbm_jtag (a : Nat) (b : Byte) : (s.setHbm a b).jtag = s.jtag := rfl
@[simp] theorem State.setHbm_flt (a : Nat) (b : Byte) : (s.setHbm a b).flt = s.flt := rfl
@[simp] theorem State.setHbm_cal (a : Nat) (b : Byte) : (s.setHbm a b).cal = s.cal := rfl
@[simp] theorem State.setHbm_boot (a : Nat) (b : Byte) : (s.setHbm a b).boot = s.boot := rfl
@[simp] theorem State.setHbm_pwr (a : Nat) (b : Byte) : (s.setHbm a b).pwr = s.pwr := rfl
@[simp] theorem State.setHbm_fuses (a : Nat) (b : Byte) : (s.setHbm a b).fuses = s.fuses := rfl
@[simp] theorem State.setHbm_flash (a : Nat) (b : Byte) : (s.setHbm a b).flash = s.flash := rfl
@[simp] theorem State.setHbm_resp (a : Nat) (b : Byte) : (s.setHbm a b).resp = s.resp := rfl
@[simp] theorem State.setHbm_free (a : Nat) (b : Byte) : (s.setHbm a b).free = s.free := rfl
@[simp] theorem State.setHbm_pending (a : Nat) (b : Byte) : (s.setHbm a b).pending = s.pending := rfl
@[simp] theorem State.setHbm_forceOf (a : Nat) (b : Byte) (n : Nat) : (s.setHbm a b).forceOf n = s.forceOf n := rfl
@[simp] theorem State.setHbm_seqOf (a : Nat) (b : Byte) (n : Nat) : (s.setHbm a b).seqOf n = s.seqOf n := rfl
@[simp] theorem State.setHbm_engOf (a : Nat) (b : Byte) (n : Nat) : (s.setHbm a b).engOf n = s.engOf n := rfl
@[simp] theorem State.setHbm_resOf (a : Nat) (b : Byte) (n : Nat) : (s.setHbm a b).resOf n = s.resOf n := rfl
@[simp] theorem State.setHbm_feltOf (a : Nat) (b : Byte) (f : Nat) : (s.setHbm a b).feltOf f = s.feltOf f := rfl
@[simp] theorem State.setHbm_creditOf (a : Nat) (b : Byte) (p f : Nat) : (s.setHbm a b).creditOf p f = s.creditOf p f := rfl
@[simp] theorem State.setHbm_sliceOf (a : Nat) (b : Byte) (i : Nat) : (s.setHbm a b).sliceOf i = s.sliceOf i := rfl
@[simp] theorem State.setHbm_couchOf (a : Nat) (b : Byte) (t : Nat) : (s.setHbm a b).couchOf t = s.couchOf t := rfl
@[simp] theorem State.setHbm_genOf (a : Nat) (b : Byte) (k : Nat) : (s.setHbm a b).genOf k = s.genOf k := rfl
@[simp] theorem State.setHbm_beatPortOf (a : Nat) (b : Byte) (p : Nat) : (s.setHbm a b).beatPortOf p = s.beatPortOf p := rfl
@[simp] theorem State.setHbm_portOf (a : Nat) (b : Byte) (p : Nat) : (s.setHbm a b).portOf p = s.portOf p := rfl
@[simp] theorem State.setHbm_bankOf (a : Nat) (b : Byte) (k : Nat) : (s.setHbm a b).bankOf k = s.bankOf k := rfl
@[simp] theorem State.setHbm_injOf (a : Nat) (b : Byte) (j : Nat) : (s.setHbm a b).injOf j = s.injOf j := rfl
@[simp] theorem State.setHbm_rcDynOf (a : Nat) (b : Byte) (c : Nat) : (s.setHbm a b).rcDynOf c = s.rcDynOf c := rfl
@[simp] theorem State.setHbm_pendOf (a : Nat) (b : Byte) (i : Nat) : (s.setHbm a b).pendOf i = s.pendOf i := rfl
@[simp] theorem State.setHbm_evioOf (a : Nat) (b : Byte) (j : Nat) : (s.setHbm a b).evioOf j = s.evioOf j := rfl
@[simp] theorem State.setHbm_coreOf (a : Nat) (b : Byte) (k : Nat) : (s.setHbm a b).coreOf k = s.coreOf k := rfl
@[simp] theorem State.setHbm_fuseWord (a : Nat) (b : Byte) (i : Nat) : (s.setHbm a b).fuseWord i = s.fuseWord i := rfl
@[simp] theorem State.setHbm_flashByte (a : Nat) (b : Byte) (k a' : Nat) : (s.setHbm a b).flashByte k a' = s.flashByte k a' := rfl
@[simp] theorem State.setHbm_domainOn (a : Nat) (b : Byte) (d : Nat) : (s.setHbm a b).domainOn d = s.domainOn d := rfl
@[simp] theorem State.setHbm_rd (a : Nat) (b : Byte) (r : Reg) (i j : Nat) : (s.setHbm a b).rd r i j = s.rd r i j := rfl
@[simp] theorem State.setHbm_fld (a : Nat) (b : Byte) (f : Fld) (i j : Nat) : (s.setHbm a b).fld f i j = s.fld f i j := rfl
@[simp] theorem State.setHbm_on (a : Nat) (b : Byte) (f : Fld) (i j : Nat) : (s.setHbm a b).on f i j = s.on f i j := rfl
@[simp] theorem State.setHbm_cycle (a : Nat) (b : Byte)  : (s.setHbm a b).cycle = s.cycle := rfl

/-! ### `burnFuse` -/

@[simp] theorem State.burnFuse_now (i : Nat) (w : Word) : (s.burnFuse i w).now = s.now := rfl
@[simp] theorem State.burnFuse_regs (i : Nat) (w : Word) : (s.burnFuse i w).regs = s.regs := rfl
@[simp] theorem State.burnFuse_dev (i : Nat) (w : Word) : (s.burnFuse i w).dev = s.dev := rfl
@[simp] theorem State.burnFuse_tb (i : Nat) (w : Word) : (s.burnFuse i w).tb = s.tb := rfl
@[simp] theorem State.burnFuse_evm (i : Nat) (w : Word) : (s.burnFuse i w).evm = s.evm := rfl
@[simp] theorem State.burnFuse_force (i : Nat) (w : Word) : (s.burnFuse i w).force = s.force := rfl
@[simp] theorem State.burnFuse_seqs (i : Nat) (w : Word) : (s.burnFuse i w).seqs = s.seqs := rfl
@[simp] theorem State.burnFuse_engs (i : Nat) (w : Word) : (s.burnFuse i w).engs = s.engs := rfl
@[simp] theorem State.burnFuse_ress (i : Nat) (w : Word) : (s.burnFuse i w).ress = s.ress := rfl
@[simp] theorem State.burnFuse_guards (i : Nat) (w : Word) : (s.burnFuse i w).guards = s.guards := rfl
@[simp] theorem State.burnFuse_que (i : Nat) (w : Word) : (s.burnFuse i w).que = s.que := rfl
@[simp] theorem State.burnFuse_memc (i : Nat) (w : Word) : (s.burnFuse i w).memc = s.memc := rfl
@[simp] theorem State.burnFuse_hbm (i : Nat) (w : Word) : (s.burnFuse i w).hbm = s.hbm := rfl
@[simp] theorem State.burnFuse_losses (i : Nat) (w : Word) : (s.burnFuse i w).losses = s.losses := rfl
@[simp] theorem State.burnFuse_vat (i : Nat) (w : Word) : (s.burnFuse i w).vat = s.vat := rfl
@[simp] theorem State.burnFuse_web (i : Nat) (w : Word) : (s.burnFuse i w).web = s.web := rfl
@[simp] theorem State.burnFuse_jtag (i : Nat) (w : Word) : (s.burnFuse i w).jtag = s.jtag := rfl
@[simp] theorem State.burnFuse_flt (i : Nat) (w : Word) : (s.burnFuse i w).flt = s.flt := rfl
@[simp] theorem State.burnFuse_cal (i : Nat) (w : Word) : (s.burnFuse i w).cal = s.cal := rfl
@[simp] theorem State.burnFuse_boot (i : Nat) (w : Word) : (s.burnFuse i w).boot = s.boot := rfl
@[simp] theorem State.burnFuse_pwr (i : Nat) (w : Word) : (s.burnFuse i w).pwr = s.pwr := rfl
@[simp] theorem State.burnFuse_flash (i : Nat) (w : Word) : (s.burnFuse i w).flash = s.flash := rfl
@[simp] theorem State.burnFuse_resp (i : Nat) (w : Word) : (s.burnFuse i w).resp = s.resp := rfl
@[simp] theorem State.burnFuse_free (i : Nat) (w : Word) : (s.burnFuse i w).free = s.free := rfl
@[simp] theorem State.burnFuse_pending (i : Nat) (w : Word) : (s.burnFuse i w).pending = s.pending := rfl
@[simp] theorem State.burnFuse_forceOf (i : Nat) (w : Word) (n : Nat) : (s.burnFuse i w).forceOf n = s.forceOf n := rfl
@[simp] theorem State.burnFuse_seqOf (i : Nat) (w : Word) (n : Nat) : (s.burnFuse i w).seqOf n = s.seqOf n := rfl
@[simp] theorem State.burnFuse_engOf (i : Nat) (w : Word) (n : Nat) : (s.burnFuse i w).engOf n = s.engOf n := rfl
@[simp] theorem State.burnFuse_resOf (i : Nat) (w : Word) (n : Nat) : (s.burnFuse i w).resOf n = s.resOf n := rfl
@[simp] theorem State.burnFuse_feltOf (i : Nat) (w : Word) (f : Nat) : (s.burnFuse i w).feltOf f = s.feltOf f := rfl
@[simp] theorem State.burnFuse_creditOf (i : Nat) (w : Word) (p f : Nat) : (s.burnFuse i w).creditOf p f = s.creditOf p f := rfl
@[simp] theorem State.burnFuse_sliceOf (i : Nat) (w : Word) (i' : Nat) : (s.burnFuse i w).sliceOf i' = s.sliceOf i' := rfl
@[simp] theorem State.burnFuse_couchOf (i : Nat) (w : Word) (t : Nat) : (s.burnFuse i w).couchOf t = s.couchOf t := rfl
@[simp] theorem State.burnFuse_genOf (i : Nat) (w : Word) (k : Nat) : (s.burnFuse i w).genOf k = s.genOf k := rfl
@[simp] theorem State.burnFuse_beatPortOf (i : Nat) (w : Word) (p : Nat) : (s.burnFuse i w).beatPortOf p = s.beatPortOf p := rfl
@[simp] theorem State.burnFuse_portOf (i : Nat) (w : Word) (p : Nat) : (s.burnFuse i w).portOf p = s.portOf p := rfl
@[simp] theorem State.burnFuse_bankOf (i : Nat) (w : Word) (k : Nat) : (s.burnFuse i w).bankOf k = s.bankOf k := rfl
@[simp] theorem State.burnFuse_injOf (i : Nat) (w : Word) (j : Nat) : (s.burnFuse i w).injOf j = s.injOf j := rfl
@[simp] theorem State.burnFuse_rcDynOf (i : Nat) (w : Word) (c : Nat) : (s.burnFuse i w).rcDynOf c = s.rcDynOf c := rfl
@[simp] theorem State.burnFuse_pendOf (i : Nat) (w : Word) (i' : Nat) : (s.burnFuse i w).pendOf i' = s.pendOf i' := rfl
@[simp] theorem State.burnFuse_evioOf (i : Nat) (w : Word) (j : Nat) : (s.burnFuse i w).evioOf j = s.evioOf j := rfl
@[simp] theorem State.burnFuse_coreOf (i : Nat) (w : Word) (k : Nat) : (s.burnFuse i w).coreOf k = s.coreOf k := rfl
@[simp] theorem State.burnFuse_flashByte (i : Nat) (w : Word) (k a : Nat) : (s.burnFuse i w).flashByte k a = s.flashByte k a := rfl
@[simp] theorem State.burnFuse_domainOn (i : Nat) (w : Word) (d : Nat) : (s.burnFuse i w).domainOn d = s.domainOn d := rfl
@[simp] theorem State.burnFuse_rd (i : Nat) (w : Word) (r : Reg) (i' j : Nat) : (s.burnFuse i w).rd r i' j = s.rd r i' j := rfl
@[simp] theorem State.burnFuse_fld (i : Nat) (w : Word) (f : Fld) (i' j : Nat) : (s.burnFuse i w).fld f i' j = s.fld f i' j := rfl
@[simp] theorem State.burnFuse_on (i : Nat) (w : Word) (f : Fld) (i' j : Nat) : (s.burnFuse i w).on f i' j = s.on f i' j := rfl
@[simp] theorem State.burnFuse_cycle (i : Nat) (w : Word)  : (s.burnFuse i w).cycle = s.cycle := rfl

/-! ### `setFlash` -/

@[simp] theorem State.setFlash_now (k a : Nat) (b : Byte) : (s.setFlash k a b).now = s.now := rfl
@[simp] theorem State.setFlash_regs (k a : Nat) (b : Byte) : (s.setFlash k a b).regs = s.regs := rfl
@[simp] theorem State.setFlash_dev (k a : Nat) (b : Byte) : (s.setFlash k a b).dev = s.dev := rfl
@[simp] theorem State.setFlash_tb (k a : Nat) (b : Byte) : (s.setFlash k a b).tb = s.tb := rfl
@[simp] theorem State.setFlash_evm (k a : Nat) (b : Byte) : (s.setFlash k a b).evm = s.evm := rfl
@[simp] theorem State.setFlash_force (k a : Nat) (b : Byte) : (s.setFlash k a b).force = s.force := rfl
@[simp] theorem State.setFlash_seqs (k a : Nat) (b : Byte) : (s.setFlash k a b).seqs = s.seqs := rfl
@[simp] theorem State.setFlash_engs (k a : Nat) (b : Byte) : (s.setFlash k a b).engs = s.engs := rfl
@[simp] theorem State.setFlash_ress (k a : Nat) (b : Byte) : (s.setFlash k a b).ress = s.ress := rfl
@[simp] theorem State.setFlash_guards (k a : Nat) (b : Byte) : (s.setFlash k a b).guards = s.guards := rfl
@[simp] theorem State.setFlash_que (k a : Nat) (b : Byte) : (s.setFlash k a b).que = s.que := rfl
@[simp] theorem State.setFlash_memc (k a : Nat) (b : Byte) : (s.setFlash k a b).memc = s.memc := rfl
@[simp] theorem State.setFlash_hbm (k a : Nat) (b : Byte) : (s.setFlash k a b).hbm = s.hbm := rfl
@[simp] theorem State.setFlash_losses (k a : Nat) (b : Byte) : (s.setFlash k a b).losses = s.losses := rfl
@[simp] theorem State.setFlash_vat (k a : Nat) (b : Byte) : (s.setFlash k a b).vat = s.vat := rfl
@[simp] theorem State.setFlash_web (k a : Nat) (b : Byte) : (s.setFlash k a b).web = s.web := rfl
@[simp] theorem State.setFlash_jtag (k a : Nat) (b : Byte) : (s.setFlash k a b).jtag = s.jtag := rfl
@[simp] theorem State.setFlash_flt (k a : Nat) (b : Byte) : (s.setFlash k a b).flt = s.flt := rfl
@[simp] theorem State.setFlash_cal (k a : Nat) (b : Byte) : (s.setFlash k a b).cal = s.cal := rfl
@[simp] theorem State.setFlash_boot (k a : Nat) (b : Byte) : (s.setFlash k a b).boot = s.boot := rfl
@[simp] theorem State.setFlash_pwr (k a : Nat) (b : Byte) : (s.setFlash k a b).pwr = s.pwr := rfl
@[simp] theorem State.setFlash_fuses (k a : Nat) (b : Byte) : (s.setFlash k a b).fuses = s.fuses := rfl
@[simp] theorem State.setFlash_resp (k a : Nat) (b : Byte) : (s.setFlash k a b).resp = s.resp := rfl
@[simp] theorem State.setFlash_free (k a : Nat) (b : Byte) : (s.setFlash k a b).free = s.free := rfl
@[simp] theorem State.setFlash_pending (k a : Nat) (b : Byte) : (s.setFlash k a b).pending = s.pending := rfl
@[simp] theorem State.setFlash_forceOf (k a : Nat) (b : Byte) (n : Nat) : (s.setFlash k a b).forceOf n = s.forceOf n := rfl
@[simp] theorem State.setFlash_seqOf (k a : Nat) (b : Byte) (n : Nat) : (s.setFlash k a b).seqOf n = s.seqOf n := rfl
@[simp] theorem State.setFlash_engOf (k a : Nat) (b : Byte) (n : Nat) : (s.setFlash k a b).engOf n = s.engOf n := rfl
@[simp] theorem State.setFlash_resOf (k a : Nat) (b : Byte) (n : Nat) : (s.setFlash k a b).resOf n = s.resOf n := rfl
@[simp] theorem State.setFlash_feltOf (k a : Nat) (b : Byte) (f : Nat) : (s.setFlash k a b).feltOf f = s.feltOf f := rfl
@[simp] theorem State.setFlash_creditOf (k a : Nat) (b : Byte) (p f : Nat) : (s.setFlash k a b).creditOf p f = s.creditOf p f := rfl
@[simp] theorem State.setFlash_sliceOf (k a : Nat) (b : Byte) (i : Nat) : (s.setFlash k a b).sliceOf i = s.sliceOf i := rfl
@[simp] theorem State.setFlash_couchOf (k a : Nat) (b : Byte) (t : Nat) : (s.setFlash k a b).couchOf t = s.couchOf t := rfl
@[simp] theorem State.setFlash_genOf (k a : Nat) (b : Byte) (k' : Nat) : (s.setFlash k a b).genOf k' = s.genOf k' := rfl
@[simp] theorem State.setFlash_beatPortOf (k a : Nat) (b : Byte) (p : Nat) : (s.setFlash k a b).beatPortOf p = s.beatPortOf p := rfl
@[simp] theorem State.setFlash_portOf (k a : Nat) (b : Byte) (p : Nat) : (s.setFlash k a b).portOf p = s.portOf p := rfl
@[simp] theorem State.setFlash_bankOf (k a : Nat) (b : Byte) (k' : Nat) : (s.setFlash k a b).bankOf k' = s.bankOf k' := rfl
@[simp] theorem State.setFlash_injOf (k a : Nat) (b : Byte) (j : Nat) : (s.setFlash k a b).injOf j = s.injOf j := rfl
@[simp] theorem State.setFlash_rcDynOf (k a : Nat) (b : Byte) (c : Nat) : (s.setFlash k a b).rcDynOf c = s.rcDynOf c := rfl
@[simp] theorem State.setFlash_pendOf (k a : Nat) (b : Byte) (i : Nat) : (s.setFlash k a b).pendOf i = s.pendOf i := rfl
@[simp] theorem State.setFlash_evioOf (k a : Nat) (b : Byte) (j : Nat) : (s.setFlash k a b).evioOf j = s.evioOf j := rfl
@[simp] theorem State.setFlash_coreOf (k a : Nat) (b : Byte) (k' : Nat) : (s.setFlash k a b).coreOf k' = s.coreOf k' := rfl
@[simp] theorem State.setFlash_fuseWord (k a : Nat) (b : Byte) (i : Nat) : (s.setFlash k a b).fuseWord i = s.fuseWord i := rfl
@[simp] theorem State.setFlash_domainOn (k a : Nat) (b : Byte) (d : Nat) : (s.setFlash k a b).domainOn d = s.domainOn d := rfl
@[simp] theorem State.setFlash_rd (k a : Nat) (b : Byte) (r : Reg) (i j : Nat) : (s.setFlash k a b).rd r i j = s.rd r i j := rfl
@[simp] theorem State.setFlash_fld (k a : Nat) (b : Byte) (f : Fld) (i j : Nat) : (s.setFlash k a b).fld f i j = s.fld f i j := rfl
@[simp] theorem State.setFlash_on (k a : Nat) (b : Byte) (f : Fld) (i j : Nat) : (s.setFlash k a b).on f i j = s.on f i j := rfl
@[simp] theorem State.setFlash_cycle (k a : Nat) (b : Byte)  : (s.setFlash k a b).cycle = s.cycle := rfl

/-! ### `answer` -/

@[simp] theorem State.answer_now (m : Nat) (v : Word) : (s.answer m v).now = s.now := rfl
@[simp] theorem State.answer_regs (m : Nat) (v : Word) : (s.answer m v).regs = s.regs := rfl
@[simp] theorem State.answer_dev (m : Nat) (v : Word) : (s.answer m v).dev = s.dev := rfl
@[simp] theorem State.answer_tb (m : Nat) (v : Word) : (s.answer m v).tb = s.tb := rfl
@[simp] theorem State.answer_evm (m : Nat) (v : Word) : (s.answer m v).evm = s.evm := rfl
@[simp] theorem State.answer_force (m : Nat) (v : Word) : (s.answer m v).force = s.force := rfl
@[simp] theorem State.answer_seqs (m : Nat) (v : Word) : (s.answer m v).seqs = s.seqs := rfl
@[simp] theorem State.answer_engs (m : Nat) (v : Word) : (s.answer m v).engs = s.engs := rfl
@[simp] theorem State.answer_ress (m : Nat) (v : Word) : (s.answer m v).ress = s.ress := rfl
@[simp] theorem State.answer_guards (m : Nat) (v : Word) : (s.answer m v).guards = s.guards := rfl
@[simp] theorem State.answer_que (m : Nat) (v : Word) : (s.answer m v).que = s.que := rfl
@[simp] theorem State.answer_memc (m : Nat) (v : Word) : (s.answer m v).memc = s.memc := rfl
@[simp] theorem State.answer_hbm (m : Nat) (v : Word) : (s.answer m v).hbm = s.hbm := rfl
@[simp] theorem State.answer_losses (m : Nat) (v : Word) : (s.answer m v).losses = s.losses := rfl
@[simp] theorem State.answer_vat (m : Nat) (v : Word) : (s.answer m v).vat = s.vat := rfl
@[simp] theorem State.answer_web (m : Nat) (v : Word) : (s.answer m v).web = s.web := rfl
@[simp] theorem State.answer_jtag (m : Nat) (v : Word) : (s.answer m v).jtag = s.jtag := rfl
@[simp] theorem State.answer_flt (m : Nat) (v : Word) : (s.answer m v).flt = s.flt := rfl
@[simp] theorem State.answer_cal (m : Nat) (v : Word) : (s.answer m v).cal = s.cal := rfl
@[simp] theorem State.answer_boot (m : Nat) (v : Word) : (s.answer m v).boot = s.boot := rfl
@[simp] theorem State.answer_pwr (m : Nat) (v : Word) : (s.answer m v).pwr = s.pwr := rfl
@[simp] theorem State.answer_fuses (m : Nat) (v : Word) : (s.answer m v).fuses = s.fuses := rfl
@[simp] theorem State.answer_flash (m : Nat) (v : Word) : (s.answer m v).flash = s.flash := rfl
@[simp] theorem State.answer_free (m : Nat) (v : Word) : (s.answer m v).free = s.free := rfl
@[simp] theorem State.answer_pending (m : Nat) (v : Word) : (s.answer m v).pending = s.pending := rfl
@[simp] theorem State.answer_forceOf (m : Nat) (v : Word) (n : Nat) : (s.answer m v).forceOf n = s.forceOf n := rfl
@[simp] theorem State.answer_seqOf (m : Nat) (v : Word) (n : Nat) : (s.answer m v).seqOf n = s.seqOf n := rfl
@[simp] theorem State.answer_engOf (m : Nat) (v : Word) (n : Nat) : (s.answer m v).engOf n = s.engOf n := rfl
@[simp] theorem State.answer_resOf (m : Nat) (v : Word) (n : Nat) : (s.answer m v).resOf n = s.resOf n := rfl
@[simp] theorem State.answer_feltOf (m : Nat) (v : Word) (f : Nat) : (s.answer m v).feltOf f = s.feltOf f := rfl
@[simp] theorem State.answer_creditOf (m : Nat) (v : Word) (p f : Nat) : (s.answer m v).creditOf p f = s.creditOf p f := rfl
@[simp] theorem State.answer_sliceOf (m : Nat) (v : Word) (i : Nat) : (s.answer m v).sliceOf i = s.sliceOf i := rfl
@[simp] theorem State.answer_couchOf (m : Nat) (v : Word) (t : Nat) : (s.answer m v).couchOf t = s.couchOf t := rfl
@[simp] theorem State.answer_genOf (m : Nat) (v : Word) (k : Nat) : (s.answer m v).genOf k = s.genOf k := rfl
@[simp] theorem State.answer_beatPortOf (m : Nat) (v : Word) (p : Nat) : (s.answer m v).beatPortOf p = s.beatPortOf p := rfl
@[simp] theorem State.answer_portOf (m : Nat) (v : Word) (p : Nat) : (s.answer m v).portOf p = s.portOf p := rfl
@[simp] theorem State.answer_bankOf (m : Nat) (v : Word) (k : Nat) : (s.answer m v).bankOf k = s.bankOf k := rfl
@[simp] theorem State.answer_injOf (m : Nat) (v : Word) (j : Nat) : (s.answer m v).injOf j = s.injOf j := rfl
@[simp] theorem State.answer_rcDynOf (m : Nat) (v : Word) (c : Nat) : (s.answer m v).rcDynOf c = s.rcDynOf c := rfl
@[simp] theorem State.answer_pendOf (m : Nat) (v : Word) (i : Nat) : (s.answer m v).pendOf i = s.pendOf i := rfl
@[simp] theorem State.answer_evioOf (m : Nat) (v : Word) (j : Nat) : (s.answer m v).evioOf j = s.evioOf j := rfl
@[simp] theorem State.answer_coreOf (m : Nat) (v : Word) (k : Nat) : (s.answer m v).coreOf k = s.coreOf k := rfl
@[simp] theorem State.answer_fuseWord (m : Nat) (v : Word) (i : Nat) : (s.answer m v).fuseWord i = s.fuseWord i := rfl
@[simp] theorem State.answer_flashByte (m : Nat) (v : Word) (k a : Nat) : (s.answer m v).flashByte k a = s.flashByte k a := rfl
@[simp] theorem State.answer_domainOn (m : Nat) (v : Word) (d : Nat) : (s.answer m v).domainOn d = s.domainOn d := rfl
@[simp] theorem State.answer_rd (m : Nat) (v : Word) (r : Reg) (i j : Nat) : (s.answer m v).rd r i j = s.rd r i j := rfl
@[simp] theorem State.answer_fld (m : Nat) (v : Word) (f : Fld) (i j : Nat) : (s.answer m v).fld f i j = s.fld f i j := rfl
@[simp] theorem State.answer_on (m : Nat) (v : Word) (f : Fld) (i j : Nat) : (s.answer m v).on f i j = s.on f i j := rfl
@[simp] theorem State.answer_cycle (m : Nat) (v : Word)  : (s.answer m v).cycle = s.cycle := rfl

/-! ### `answerError` -/

@[simp] theorem State.answerError_now (m : Nat) : (s.answerError m).now = s.now := rfl
@[simp] theorem State.answerError_regs (m : Nat) : (s.answerError m).regs = s.regs := rfl
@[simp] theorem State.answerError_dev (m : Nat) : (s.answerError m).dev = s.dev := rfl
@[simp] theorem State.answerError_tb (m : Nat) : (s.answerError m).tb = s.tb := rfl
@[simp] theorem State.answerError_evm (m : Nat) : (s.answerError m).evm = s.evm := rfl
@[simp] theorem State.answerError_force (m : Nat) : (s.answerError m).force = s.force := rfl
@[simp] theorem State.answerError_seqs (m : Nat) : (s.answerError m).seqs = s.seqs := rfl
@[simp] theorem State.answerError_engs (m : Nat) : (s.answerError m).engs = s.engs := rfl
@[simp] theorem State.answerError_ress (m : Nat) : (s.answerError m).ress = s.ress := rfl
@[simp] theorem State.answerError_guards (m : Nat) : (s.answerError m).guards = s.guards := rfl
@[simp] theorem State.answerError_que (m : Nat) : (s.answerError m).que = s.que := rfl
@[simp] theorem State.answerError_memc (m : Nat) : (s.answerError m).memc = s.memc := rfl
@[simp] theorem State.answerError_hbm (m : Nat) : (s.answerError m).hbm = s.hbm := rfl
@[simp] theorem State.answerError_losses (m : Nat) : (s.answerError m).losses = s.losses := rfl
@[simp] theorem State.answerError_vat (m : Nat) : (s.answerError m).vat = s.vat := rfl
@[simp] theorem State.answerError_web (m : Nat) : (s.answerError m).web = s.web := rfl
@[simp] theorem State.answerError_jtag (m : Nat) : (s.answerError m).jtag = s.jtag := rfl
@[simp] theorem State.answerError_flt (m : Nat) : (s.answerError m).flt = s.flt := rfl
@[simp] theorem State.answerError_cal (m : Nat) : (s.answerError m).cal = s.cal := rfl
@[simp] theorem State.answerError_boot (m : Nat) : (s.answerError m).boot = s.boot := rfl
@[simp] theorem State.answerError_pwr (m : Nat) : (s.answerError m).pwr = s.pwr := rfl
@[simp] theorem State.answerError_fuses (m : Nat) : (s.answerError m).fuses = s.fuses := rfl
@[simp] theorem State.answerError_flash (m : Nat) : (s.answerError m).flash = s.flash := rfl
@[simp] theorem State.answerError_free (m : Nat) : (s.answerError m).free = s.free := rfl
@[simp] theorem State.answerError_pending (m : Nat) : (s.answerError m).pending = s.pending := rfl
@[simp] theorem State.answerError_forceOf (m : Nat) (n : Nat) : (s.answerError m).forceOf n = s.forceOf n := rfl
@[simp] theorem State.answerError_seqOf (m : Nat) (n : Nat) : (s.answerError m).seqOf n = s.seqOf n := rfl
@[simp] theorem State.answerError_engOf (m : Nat) (n : Nat) : (s.answerError m).engOf n = s.engOf n := rfl
@[simp] theorem State.answerError_resOf (m : Nat) (n : Nat) : (s.answerError m).resOf n = s.resOf n := rfl
@[simp] theorem State.answerError_feltOf (m : Nat) (f : Nat) : (s.answerError m).feltOf f = s.feltOf f := rfl
@[simp] theorem State.answerError_creditOf (m : Nat) (p f : Nat) : (s.answerError m).creditOf p f = s.creditOf p f := rfl
@[simp] theorem State.answerError_sliceOf (m : Nat) (i : Nat) : (s.answerError m).sliceOf i = s.sliceOf i := rfl
@[simp] theorem State.answerError_couchOf (m : Nat) (t : Nat) : (s.answerError m).couchOf t = s.couchOf t := rfl
@[simp] theorem State.answerError_genOf (m : Nat) (k : Nat) : (s.answerError m).genOf k = s.genOf k := rfl
@[simp] theorem State.answerError_beatPortOf (m : Nat) (p : Nat) : (s.answerError m).beatPortOf p = s.beatPortOf p := rfl
@[simp] theorem State.answerError_portOf (m : Nat) (p : Nat) : (s.answerError m).portOf p = s.portOf p := rfl
@[simp] theorem State.answerError_bankOf (m : Nat) (k : Nat) : (s.answerError m).bankOf k = s.bankOf k := rfl
@[simp] theorem State.answerError_injOf (m : Nat) (j : Nat) : (s.answerError m).injOf j = s.injOf j := rfl
@[simp] theorem State.answerError_rcDynOf (m : Nat) (c : Nat) : (s.answerError m).rcDynOf c = s.rcDynOf c := rfl
@[simp] theorem State.answerError_pendOf (m : Nat) (i : Nat) : (s.answerError m).pendOf i = s.pendOf i := rfl
@[simp] theorem State.answerError_evioOf (m : Nat) (j : Nat) : (s.answerError m).evioOf j = s.evioOf j := rfl
@[simp] theorem State.answerError_coreOf (m : Nat) (k : Nat) : (s.answerError m).coreOf k = s.coreOf k := rfl
@[simp] theorem State.answerError_fuseWord (m : Nat) (i : Nat) : (s.answerError m).fuseWord i = s.fuseWord i := rfl
@[simp] theorem State.answerError_flashByte (m : Nat) (k a : Nat) : (s.answerError m).flashByte k a = s.flashByte k a := rfl
@[simp] theorem State.answerError_domainOn (m : Nat) (d : Nat) : (s.answerError m).domainOn d = s.domainOn d := rfl
@[simp] theorem State.answerError_rd (m : Nat) (r : Reg) (i j : Nat) : (s.answerError m).rd r i j = s.rd r i j := rfl
@[simp] theorem State.answerError_fld (m : Nat) (f : Fld) (i j : Nat) : (s.answerError m).fld f i j = s.fld f i j := rfl
@[simp] theorem State.answerError_on (m : Nat) (f : Fld) (i j : Nat) : (s.answerError m).on f i j = s.on f i j := rfl
@[simp] theorem State.answerError_cycle (m : Nat)  : (s.answerError m).cycle = s.cycle := rfl

/-! ### Tables: what is put is read back -/

theorem State.forceOf_setForce_same {s : State} {n : Nat} {x : Force} (h : Table.rising s.force = true) : (s.setForce n x).forceOf n = x := Table.get_put_same h
theorem State.forceOf_setForce_ne {s : State} {n : Nat} {x : Force} (h : x ≠ Force.reset n) : (s.setForce n x).forceOf n = x := Table.get_put_ne h
theorem State.forceOf_setForce_other {s : State} {n m : Nat} {x : Force} (hm : m ≠ n) (h : Table.rising s.force = true) :
    (s.setForce n x).forceOf m = s.forceOf m := Table.get_put_other hm h

theorem State.seqOf_setSeq_same {s : State} {n : Nat} {x : Seqr} (h : Table.rising s.seqs = true) : (s.setSeq n x).seqOf n = x := Table.get_put_same h
theorem State.seqOf_setSeq_ne {s : State} {n : Nat} {x : Seqr} (h : x ≠ Seqr.reset) : (s.setSeq n x).seqOf n = x := Table.get_put_ne h
theorem State.seqOf_setSeq_other {s : State} {n m : Nat} {x : Seqr} (hm : m ≠ n) (h : Table.rising s.seqs = true) :
    (s.setSeq n x).seqOf m = s.seqOf m := Table.get_put_other hm h

theorem State.engOf_setEng_same {s : State} {n : Nat} {x : Eng} (h : Table.rising s.engs = true) : (s.setEng n x).engOf n = x := Table.get_put_same h
theorem State.engOf_setEng_ne {s : State} {n : Nat} {x : Eng} (h : x ≠ Eng.reset) : (s.setEng n x).engOf n = x := Table.get_put_ne h
theorem State.engOf_setEng_other {s : State} {n m : Nat} {x : Eng} (hm : m ≠ n) (h : Table.rising s.engs = true) :
    (s.setEng n x).engOf m = s.engOf m := Table.get_put_other hm h

theorem State.resOf_setRes_same {s : State} {n : Nat} {x : Res} (h : Table.rising s.ress = true) : (s.setRes n x).resOf n = x := Table.get_put_same h
theorem State.resOf_setRes_ne {s : State} {n : Nat} {x : Res} (h : x ≠ Res.reset n) : (s.setRes n x).resOf n = x := Table.get_put_ne h
theorem State.resOf_setRes_other {s : State} {n m : Nat} {x : Res} (hm : m ≠ n) (h : Table.rising s.ress = true) :
    (s.setRes n x).resOf m = s.resOf m := Table.get_put_other hm h

theorem State.feltOf_setFelt_same {s : State} {n : Nat} {x : Felt} (h : Table.rising s.que.felts = true) : (s.setFelt n x).feltOf n = x := Table.get_put_same h
theorem State.feltOf_setFelt_ne {s : State} {n : Nat} {x : Felt} (h : x ≠ Felt.reset) : (s.setFelt n x).feltOf n = x := Table.get_put_ne h
theorem State.feltOf_setFelt_other {s : State} {n m : Nat} {x : Felt} (hm : m ≠ n) (h : Table.rising s.que.felts = true) :
    (s.setFelt n x).feltOf m = s.feltOf m := Table.get_put_other hm h

theorem State.sliceOf_setSlice_same {s : State} {n : Nat} {x : Slice} (h : Table.rising s.cal.slices = true) : (s.setSlice n x).sliceOf n = x := Table.get_put_same h
theorem State.sliceOf_setSlice_ne {s : State} {n : Nat} {x : Slice} (h : x ≠ Slice.reset n) : (s.setSlice n x).sliceOf n = x := Table.get_put_ne h
theorem State.sliceOf_setSlice_other {s : State} {n m : Nat} {x : Slice} (hm : m ≠ n) (h : Table.rising s.cal.slices = true) :
    (s.setSlice n x).sliceOf m = s.sliceOf m := Table.get_put_other hm h

theorem State.couchOf_setCouch_same {s : State} {n : Nat} {x : Couch} (h : Table.rising s.cal.couch = true) : (s.setCouch n x).couchOf n = x := Table.get_put_same h
theorem State.couchOf_setCouch_ne {s : State} {n : Nat} {x : Couch} (h : x ≠ Couch.reset) : (s.setCouch n x).couchOf n = x := Table.get_put_ne h
theorem State.couchOf_setCouch_other {s : State} {n m : Nat} {x : Couch} (hm : m ≠ n) (h : Table.rising s.cal.couch = true) :
    (s.setCouch n x).couchOf m = s.couchOf m := Table.get_put_other hm h

theorem State.genOf_setGen_same {s : State} {n : Nat} {x : Gen} (h : Table.rising s.tb.gens = true) : (s.setGen n x).genOf n = x := Table.get_put_same h
theorem State.genOf_setGen_ne {s : State} {n : Nat} {x : Gen} (h : x ≠ Gen.reset) : (s.setGen n x).genOf n = x := Table.get_put_ne h
theorem State.genOf_setGen_other {s : State} {n m : Nat} {x : Gen} (hm : m ≠ n) (h : Table.rising s.tb.gens = true) :
    (s.setGen n x).genOf m = s.genOf m := Table.get_put_other hm h

theorem State.beatPortOf_setBeatPort_same {s : State} {n : Nat} {x : BeatPort} (h : Table.rising s.tb.ports = true) : (s.setBeatPort n x).beatPortOf n = x := Table.get_put_same h
theorem State.beatPortOf_setBeatPort_ne {s : State} {n : Nat} {x : BeatPort} (h : x ≠ BeatPort.reset) : (s.setBeatPort n x).beatPortOf n = x := Table.get_put_ne h
theorem State.beatPortOf_setBeatPort_other {s : State} {n m : Nat} {x : BeatPort} (hm : m ≠ n) (h : Table.rising s.tb.ports = true) :
    (s.setBeatPort n x).beatPortOf m = s.beatPortOf m := Table.get_put_other hm h

theorem State.portOf_setPort_same {s : State} {n : Nat} {x : Port} (h : Table.rising s.web.ports = true) : (s.setPort n x).portOf n = x := Table.get_put_same h
theorem State.portOf_setPort_ne {s : State} {n : Nat} {x : Port} (h : x ≠ Port.reset) : (s.setPort n x).portOf n = x := Table.get_put_ne h
theorem State.portOf_setPort_other {s : State} {n m : Nat} {x : Port} (hm : m ≠ n) (h : Table.rising s.web.ports = true) :
    (s.setPort n x).portOf m = s.portOf m := Table.get_put_other hm h

theorem State.bankOf_setBank_same {s : State} {n : Nat} {x : Bank} (h : Table.rising s.memc.banks = true) : (s.setBank n x).bankOf n = x := Table.get_put_same h
theorem State.bankOf_setBank_ne {s : State} {n : Nat} {x : Bank} (h : x ≠ Bank.reset) : (s.setBank n x).bankOf n = x := Table.get_put_ne h
theorem State.bankOf_setBank_other {s : State} {n m : Nat} {x : Bank} (hm : m ≠ n) (h : Table.rising s.memc.banks = true) :
    (s.setBank n x).bankOf m = s.bankOf m := Table.get_put_other hm h

theorem State.injOf_setInj_same {s : State} {n : Nat} {x : Inj} (h : Table.rising s.flt.inj = true) : (s.setInj n x).injOf n = x := Table.get_put_same h
theorem State.injOf_setInj_ne {s : State} {n : Nat} {x : Inj} (h : x ≠ Inj.reset) : (s.setInj n x).injOf n = x := Table.get_put_ne h
theorem State.injOf_setInj_other {s : State} {n m : Nat} {x : Inj} (hm : m ≠ n) (h : Table.rising s.flt.inj = true) :
    (s.setInj n x).injOf m = s.injOf m := Table.get_put_other hm h

theorem State.rcDynOf_setRcDyn_same {s : State} {n : Nat} {x : RcDyn} (h : Table.rising s.evm.rcs = true) : (s.setRcDyn n x).rcDynOf n = x := Table.get_put_same h
theorem State.rcDynOf_setRcDyn_ne {s : State} {n : Nat} {x : RcDyn} (h : x ≠ RcDyn.reset) : (s.setRcDyn n x).rcDynOf n = x := Table.get_put_ne h
theorem State.rcDynOf_setRcDyn_other {s : State} {n m : Nat} {x : RcDyn} (hm : m ≠ n) (h : Table.rising s.evm.rcs = true) :
    (s.setRcDyn n x).rcDynOf m = s.rcDynOf m := Table.get_put_other hm h

theorem State.evioOf_setEvio_same {s : State} {n : Nat} {x : Evio} (h : Table.rising s.evm.evio = true) : (s.setEvio n x).evioOf n = x := Table.get_put_same h
theorem State.evioOf_setEvio_ne {s : State} {n : Nat} {x : Evio} (h : x ≠ Evio.reset) : (s.setEvio n x).evioOf n = x := Table.get_put_ne h
theorem State.evioOf_setEvio_other {s : State} {n m : Nat} {x : Evio} (hm : m ≠ n) (h : Table.rising s.evm.evio = true) :
    (s.setEvio n x).evioOf m = s.evioOf m := Table.get_put_other hm h

theorem State.coreOf_setCore_same {s : State} {n : Nat} {x : Core4} (h : Table.rising s.boot.cores = true) : (s.setCore n x).coreOf n = x := Table.get_put_same h
theorem State.coreOf_setCore_ne {s : State} {n : Nat} {x : Core4} (h : x ≠ Core4.reset n) : (s.setCore n x).coreOf n = x := Table.get_put_ne h
theorem State.coreOf_setCore_other {s : State} {n m : Nat} {x : Core4} (hm : m ≠ n) (h : Table.rising s.boot.cores = true) :
    (s.setCore n x).coreOf m = s.coreOf m := Table.get_put_other hm h

end Sys2Proof.Machine
end

