-- ==== Sys2Proof/Laws/Steps.lean ====
section
/-!
SUPPORT. How a command runs: what surrounds its own effect, and how `Completes` follows from the effect alone.
-/

namespace Sys2Proof.Machine

open Sys2Proof

/-- The bit that stands for a part in the sets of `Keeps`. -/
def Part.ix : Part → Nat
  | .regs => 1 | .dev => 2 | .tb => 3 | .evm => 4 | .force => 5 | .seqs => 6 | .engs => 7 | .ress => 8 | .guards => 9 | .que => 10
  | .memc => 11 | .hbm => 12 | .losses => 13 | .vat => 14 | .web => 15 | .jtag => 16 | .flt => 17 | .cal => 18 | .boot => 19 | .pwr => 20
  | .fuses => 21 | .flash => 22 | .resp => 23 | .free => 24

/-- Whether the parts of a set of `Keeps` are all listed. -/
def Part.covers (l : List Part) (F : Nat) : Bool :=
  [Part.regs, .dev, .tb, .evm, .force, .seqs, .engs, .ress, .guards, .que, .memc, .hbm, .losses, .vat, .web, .jtag, .flt, .cal, .boot, .pwr,
    .fuses, .flash, .resp, .free].all fun p => l.contains p || ! F.testBit p.ix

theorem Frame.same {F : Nat} {b e : State} (h : Frame F b e) (p : Part) (g : F.testBit p.ix = false) : Part.Same b e p := by
  cases p
  · exact h.regs g
  · exact h.dev g
  · exact h.tb g
  · exact h.evm g
  · exact h.force g
  · exact h.seqs g
  · exact h.engs g
  · exact h.ress g
  · exact h.guards g
  · exact h.que g
  · exact h.memc g
  · exact h.hbm g
  · exact h.losses g
  · exact h.vat g
  · exact h.web g
  · exact h.jtag g
  · exact h.flt g
  · exact h.cal g
  · exact h.boot g
  · exact h.pwr g
  · exact h.fuses g
  · exact h.flash g
  · exact h.resp g
  · exact h.free g

theorem Frame.same_of_covers {F : Nat} {b e : State} {l : List Part} (h : Frame F b e) (c : Part.covers l F = true) (p : Part) (g : p ∉ l) :
    Part.Same b e p := by
  refine h.same p ?_
  have k := List.all_eq_true.1 c p (by cases p <;> decide)
  simpa [g] using k

/-- A way that keeps all but a set of parts changes only those. -/
theorem OnlyChanges.of {F : Nat} {b e : State} {l : List Part} (h : Keeps F b e) (c : Part.covers l F = true) : OnlyChanges l b e :=
  ⟨h.pending, h.now, h.toFrame.same_of_covers c⟩

theorem OnlyChanges.refl (l : List Part) (b : State) : OnlyChanges l b b :=
  .of (F := 0) (Keeps.refl b) (by simp [Part.covers])

theorem OnlyChanges.trans {l : List Part} {b c e : State} (h : OnlyChanges l b c) (g : OnlyChanges l c e) : OnlyChanges l b e := by
  refine ⟨g.1.trans h.1, g.2.1.trans h.2.1, fun p n => ?_⟩
  have x := h.2.2 p n
  have y := g.2.2 p n
  cases p <;> exact Eq.trans y x

/-- A command of a block that is powered with the hub completes with the effect of its body. -/
theorem Completes.act {c : Instr} {t : Nat} {s : State} {l : List Part} {P : State → State → Prop} {ok : Bool} {body : State → State}
    (h : s.powered) (e : exec c s = outIf ok (s.act t body)) (k : ok = true) (f : OnlyChanges l (s.begin t) (body (s.begin t)))
    (p : P (s.begin t) (body (s.begin t))) : Completes c t s l P := by
  refine ⟨body (s.begin t), ?_, f, p⟩
  rw [e, k]
  simp [outIf, State.act, State.go, h.1, h.2]

/-- The same of a command of the always-on domain. -/
theorem Completes.actOn {c : Instr} {t : Nat} {s : State} {l : List Part} {P : State → State → Prop} {ok : Bool} {body : State → State}
    (h : s.pwr.porHeld = false) (e : exec c s = outIf ok (s.actOn t body)) (k : ok = true)
    (f : OnlyChanges l (s.begin t) (body (s.begin t))) (p : P (s.begin t) (body (s.begin t))) : Completes c t s l P := by
  refine ⟨body (s.begin t), ?_, f, p⟩
  rw [e, k]
  simp [outIf, State.actOn, State.go, h]

theorem State.canonical_begin {s : State} (h : s.canonical) (t : Nat) : (s.begin t).canonical :=
  (State.passes_begin (Within.refl _) s t).fine h

/-- Where every command that goes on may lead, but for those that start a POR. -/
theorem exec_leads (c : Instr) (s : State) (h : startsPor c = false) : Leads (2 ^ 25 - 1) s (exec c s) := by
  cases c with
  | registerWrite => exact leads_execRegisterWrite (by rfl) ..
  | reservedAccess => exact leads_execReservedAccess (by rfl) ..
  | unalignedAccess => exact leads_execUnalignedAccess (by rfl) ..
  | vatSramWrite => exact leads_execVatSramWrite (by rfl) ..
  | loRead => exact leads_execLoRead (by rfl) ..
  | hiRead => exact leads_execHiRead (by rfl) ..
  | loWriteStage => exact leads_execLoWriteStage (by rfl) ..
  | hiWriteCommit => exact leads_execHiWriteCommit (by rfl) ..
  | readClear => exact leads_execReadClear (by rfl) ..
  | lineRefEdge => exact leads_execLineRefEdge (by rfl) ..
  | frameStartMark => exact leads_execFrameStartMark (by rfl) ..
  | edgeMissing => exact leads_execEdgeMissing (by rfl) ..
  | pixclkLost => exact leads_execPixclkLost (by rfl) ..
  | pixclkQualified => exact leads_execPixclkQualified (by rfl) ..
  | rasterBeat => exact leads_execRasterBeat (by rfl) ..
  | beatSend => exact leads_execBeatSend (by rfl) ..
  | delayReqSend => exact leads_execDelayReqSend (by rfl) ..
  | delayReq => exact leads_execDelayReq (by rfl) ..
  | delayRsp => exact leads_execDelayRsp (by rfl) ..
  | anchorFire => exact leads_execAnchorFire (by rfl) ..
  | arm => exact leads_execArm (by rfl) ..
  | disarm => exact leads_execDisarm (by rfl) ..
  | dacFrameBoundary => exact leads_execDacFrameBoundary (by rfl) ..
  | forceCommand => exact leads_execForceCommand (by rfl) ..
  | rangeChangeComplete => exact leads_execRangeChangeComplete (by rfl) ..
  | spanHoldEnd => exact leads_execSpanHoldEnd (by rfl) ..
  | attachment => exact leads_execAttachment (by rfl) ..
  | enableClear => exact leads_execEnableClear (by rfl) ..
  | detach => exact leads_execDetach (by rfl) ..
  | deckleHit => exact leads_execDeckleHit (by rfl) ..
  | clampRelease => exact leads_execClampRelease (by rfl) ..
  | short => exact leads_execShort (by rfl) ..
  | shortClear => exact leads_execShortClear (by rfl) ..
  | safeSwitchOpen => exact leads_execSafeSwitchOpen (by rfl) ..
  | boostLoop => exact leads_execBoostLoop (by rfl) ..
  | boostSense => exact leads_execBoostSense (by rfl) ..
  | guardOverload => exact leads_execGuardOverload (by rfl) ..
  | cellRotation => exact leads_execCellRotation (by rfl) ..
  | adcCell => exact leads_execAdcCell (by rfl) ..
  | entryComplete => exact leads_execEntryComplete (by rfl) ..
  | lowPowerSwitchEnd => exact leads_execLowPowerSwitchEnd (by rfl) ..
  | trigger => exact leads_execTrigger (by rfl) ..
  | restart => exact leads_execRestart (by rfl) ..
  | runSet => exact leads_execRunSet (by rfl) ..
  | runClear => exact leads_execRunClear (by rfl) ..
  | autorangeClear => exact leads_execAutorangeClear (by rfl) ..
  | rangeHold => exact leads_execRangeHold (by rfl) ..
  | chMeasSeqWrite => exact leads_execChMeasSeqWrite (by rfl) ..
  | start => exact leads_execStart (by rfl) ..
  | prime => exact leads_execPrime (by rfl) ..
  | primingComplete => exact leads_execPrimingComplete (by rfl) ..
  | startInstant => exact leads_execStartInstant (by rfl) ..
  | stop => exact leads_execStop (by rfl) ..
  | lookAheadPoint => exact leads_execLookAheadPoint (by rfl) ..
  | executionStart => exact leads_execExecutionStart (by rfl) ..
  | mouldPoint => exact leads_execMouldPoint (by rfl) ..
  | advanceConsumed => exact leads_execAdvanceConsumed (by rfl) ..
  | waitTimeout => exact leads_execWaitTimeout (by rfl) ..
  | prefetchArrival => exact leads_execPrefetchArrival (by rfl) ..
  | feltPush => exact leads_execFeltPush (by rfl) ..
  | creditAsk => exact leads_execCreditAsk (by rfl) ..
  | creditGrant => exact leads_execCreditGrant (by rfl) ..
  | feltPop => exact leads_execFeltPop (by rfl) ..
  | popShadowRead => exact leads_execPopShadowRead (by rfl) ..
  | captureTake => exact leads_execCaptureTake (by rfl) ..
  | captureWriteComplete => exact leads_execCaptureWriteComplete (by rfl) ..
  | streamTake => exact leads_execStreamTake (by rfl) ..
  | ringRdAdvance => exact leads_execRingRdAdvance (by rfl) ..
  | refill => exact leads_execRefill (by rfl) ..
  | tailTimeout => exact leads_execTailTimeout (by rfl) ..
  | watermarkEvent => exact leads_execWatermarkEvent (by rfl) ..
  | feltEnable => exact leads_execFeltEnable (by rfl) ..
  | feltDisable => exact leads_execFeltDisable (by rfl) ..
  | drained => exact leads_execDrained (by rfl) ..
  | feltEmptyFor1Us => exact leads_execFeltEmptyFor1Us (by rfl) ..
  | fire => exact leads_execFire (by rfl) ..
  | taskSingleDelivery => exact leads_execTaskSingleDelivery (by rfl) ..
  | commit => exact leads_execCommit (by rfl) ..
  | stage => exact leads_execStage (by rfl) ..
  | rcDirectWrite => exact leads_execRcDirectWrite (by rfl) ..
  | reEntry => exact leads_execReEntry (by rfl) ..
  | farForkSend => exact leads_execFarForkSend (by rfl) ..
  | eventBcast => exact leads_execEventBcast (by rfl) ..
  | farForkDelivery => exact leads_execFarForkDelivery (by rfl) ..
  | evioInputEdge => exact leads_execEvioInputEdge (by rfl) ..
  | evioOutput => exact leads_execEvioOutput (by rfl) ..
  | pulseEnd => exact leads_execPulseEnd (by rfl) ..
  | portRequest => exact leads_execPortRequest (by rfl) ..
  | urgencyLevel3 => exact leads_execUrgencyLevel3 (by rfl) ..
  | commandIssue => exact leads_execCommandIssue (by rfl) ..
  | throttleEnd => exact leads_execThrottleEnd (by rfl) ..
  | readData => exact leads_execReadData (by rfl) ..
  | softRepairComplete => exact leads_execSoftRepairComplete (by rfl) ..
  | refresh => exact leads_execRefresh (by rfl) ..
  | pageClose => exact leads_execPageClose (by rfl) ..
  | selfRefreshEntry => exact leads_execSelfRefreshEntry (by rfl) ..
  | selfRefreshExit => exact leads_execSelfRefreshExit (by rfl) ..
  | retentionEnter => exact leads_execRetentionEnter (by rfl) ..
  | retentionExit => exact leads_execRetentionExit (by rfl) ..
  | trainingRound => exact leads_execTrainingRound (by rfl) ..
  | freqReq => exact leads_execFreqReq (by rfl) ..
  | freqSwitch => exact leads_execFreqSwitch (by rfl) ..
  | portEnable => exact leads_execPortEnable (by rfl) ..
  | signalDetected => exact leads_execSignalDetected (by rfl) ..
  | trainComplete => exact leads_execTrainComplete (by rfl) ..
  | trainTimeout => exact leads_execTrainTimeout (by rfl) ..
  | aligned => exact leads_execAligned (by rfl) ..
  | alignTimeout => exact leads_execAlignTimeout (by rfl) ..
  | hello t p node port rate spare => exact leads_execHello (by rfl) t p node port rate spare s
  | failedRetry => exact leads_execFailedRetry (by rfl) ..
  | retrainTimeout => exact leads_execRetrainTimeout (by rfl) ..
  | retrained => exact leads_execRetrained (by rfl) ..
  | lossOfAlignment => exact leads_execLossOfAlignment (by rfl) ..
  | flitReceive => exact leads_execFlitReceive (by rfl) ..
  | replayTimeout => exact leads_execReplayTimeout (by rfl) ..
  | flitSend => exact leads_execFlitSend (by rfl) ..
  | readReq => exact leads_execReadReq (by rfl) ..
  | writeReq => exact leads_execWriteReq (by rfl) ..
  | eyeMeasurement => exact leads_execEyeMeasurement (by rfl) ..
  | lossOfSignal => exact leads_execLossOfSignal (by rfl) ..
  | spareOn => exact leads_execSpareOn (by rfl) ..
  | spareTrained => exact leads_execSpareTrained (by rfl) ..
  | swapReq => exact leads_execSwapReq (by rfl) ..
  | swapAck => exact leads_execSwapAck (by rfl) ..
  | laneSwap => exact leads_execLaneSwap (by rfl) ..
  | linkEye => exact leads_execLinkEye (by rfl) ..
  | webPortRateReq => exact leads_execWebPortRateReq (by rfl) ..
  | rateReq => exact leads_execRateReq (by rfl) ..
  | rateAck => exact leads_execRateAck (by rfl) ..
  | spiWrite => exact leads_execSpiWrite (by rfl) ..
  | spiRead => exact leads_execSpiRead (by rfl) ..
  | idcode => exact leads_execIdcode (by rfl) ..
  | bypass => exact leads_execBypass (by rfl) ..
  | samplePreload => exact leads_execSamplePreload (by rfl) ..
  | extest => exact leads_execExtest (by rfl) ..
  | extestPulse => exact leads_execExtestPulse (by rfl) ..
  | extestTrain => exact leads_execExtestTrain (by rfl) ..
  | highz => exact leads_execHighz (by rfl) ..
  | clamp => exact leads_execClamp (by rfl) ..
  | mgmtAccess => exact leads_execMgmtAccess (by rfl) ..
  | capture => exact leads_execCapture (by rfl) ..
  | firmwareFault => exact leads_execFirmwareFault (by rfl) ..
  | queuedCapture => exact leads_execQueuedCapture (by rfl) ..
  | conditionClear => exact leads_execConditionClear (by rfl) ..
  | fltAck => exact leads_execFltAck (by rfl) ..
  | release => exact leads_execRelease (by rfl) ..
  | hourlyCountStep => exact leads_execHourlyCountStep (by rfl) ..
  | safeN => exact leads_execSafeN (by rfl) ..
  | safeNRelease => exact leads_execSafeNRelease (by rfl) ..
  | injectionFire => exact leads_execInjectionFire (by rfl) ..
  | injectedDetection => exact leads_execInjectedDetection (by rfl) ..
  | injectionClear => exact leads_execInjectionClear (by rfl) ..
  | firstRearm => exact leads_execFirstRearm (by rfl) ..
  | tempTrigger => exact leads_execTempTrigger (by rfl) ..
  | intervalTrigger => exact leads_execIntervalTrigger (by rfl) ..
  | calRun => exact leads_execCalRun (by rfl) ..
  | sliceStepStart => exact leads_execSliceStepStart (by rfl) ..
  | measurePathStep => exact leads_execMeasurePathStep (by rfl) ..
  | openOutputSlot => exact leads_execOpenOutputSlot (by rfl) ..
  | bridgeEnd => exact leads_execBridgeEnd (by rfl) ..
  | openOutputSlotEnd => exact leads_execOpenOutputSlotEnd (by rfl) ..
  | sliceStepEnd => exact leads_execSliceStepEnd (by rfl) ..
  | deferralRetry => exact leads_execDeferralRetry (by rfl) ..
  | calBurn => exact leads_execCalBurn (by rfl) ..
  | generationCommitted => exact leads_execGenerationCommitted (by rfl) ..
  | calCouchCmd => exact leads_execCalCouchCmd (by rfl) ..
  | couchingStart => exact leads_execCouchingStart (by rfl) ..
  | couchMatch => exact leads_execCouchMatch (by rfl) ..
  | matchTimeout => exact leads_execMatchTimeout (by rfl) ..
  | connect => exact leads_execConnect (by rfl) ..
  | handoverRamp => exact leads_execHandoverRamp (by rfl) ..
  | couchRelease => exact leads_execCouchRelease (by rfl) ..
  | couchRetry => exact leads_execCouchRetry (by rfl) ..
  | wearAccumulate => exact leads_execWearAccumulate (by rfl) ..
  | wearLogSave => exact leads_execWearLogSave (by rfl) ..
  | porRelease => exact leads_execPorRelease (by rfl) ..
  | fuseLoad => exact leads_execFuseLoad (by rfl) ..
  | slotSelection => exact leads_execSlotSelection (by rfl) ..
  | verification => exact leads_execVerification (by rfl) ..
  | hbmTraining => exact leads_execHbmTraining (by rfl) ..
  | webTraining => exact leads_execWebTraining (by rfl) ..
  | tilePowerUp => exact leads_execTilePowerUp (by rfl) ..
  | startUpRun => exact leads_execStartUpRun (by rfl) ..
  | runningEntry => exact leads_execRunningEntry (by rfl) ..
  | flashRead => exact leads_execFlashRead (by rfl) ..
  | flashProgram => exact leads_execFlashProgram (by rfl) ..
  | flashErase => exact leads_execFlashErase (by rfl) ..
  | reboot => exact leads_execReboot (by rfl) ..
  | flashCommandComplete => exact leads_execFlashCommandComplete (by rfl) ..
  | coreFailed => exact leads_execCoreFailed (by rfl) ..
  | coreTakesDuty => exact leads_execCoreTakesDuty (by rfl) ..
  | coreRestart => exact leads_execCoreRestart (by rfl) ..
  | doorbell => exact leads_execDoorbell (by rfl) ..
  | amendSeg => exact leads_execAmendSeg (by rfl) ..
  | staged => exact leads_execStaged (by rfl) ..
  | amendTimeout => exact leads_execAmendTimeout (by rfl) ..
  | abort => exact leads_execAbort (by rfl) ..
  | amendmentBoundary => exact leads_execAmendmentBoundary (by rfl) ..
  | slotWrite => exact leads_execSlotWrite (by rfl) ..
  | slotWriteComplete => exact leads_execSlotWriteComplete (by rfl) ..
  | attestReq => exact leads_execAttestReq (by rfl) ..
  | attestRsp => exact leads_execAttestRsp (by rfl) ..
  | forerunnerWindowAccess => exact leads_execForerunnerWindowAccess (by rfl) ..
  | porstN => exact absurd h (by simp [startsPor])
  | supplyTile => exact leads_execSupplyTile (by rfl) ..
  | tileDomainsOff => exact leads_execTileDomainsOff (by rfl) ..
  | supplyHub => exact leads_execSupplyHub (by rfl) _ _ _ (by simpa [startsPor] using h)
  | hubRestart => exact leads_execHubRestart (by rfl) ..
  | vddAonLoss => exact absurd h (by simp [startsPor])
  | powerMeasurement => exact leads_execPowerMeasurement (by rfl) ..
  | deviceStep => exact leads_execDeviceStep (by rfl) ..
  | tileStep => exact leads_execTileStep (by rfl) ..
  | stepRelease => exact leads_execStepRelease (by rfl) ..
  | domainOn => exact leads_execDomainOn (by rfl) ..
  | domainOff => exact leads_execDomainOff (by rfl) ..
  | sliceGroupPowered => exact leads_execSliceGroupPowered (by rfl) ..

end Sys2Proof.Machine
end

