-- ==== Sys2Proof/Tests/Slice0.lean ====
section
/-!
SUPPORT. Tests of the model. Well-formedness: for each check a command it refuses, beside one at the last value it takes. Worked examples of the
spec, each with the file that gives the expected value. And for each obligation with hypotheses (its name follows test_witness_) states and
operands that meet them, clause by clause, at boundary values.
-/

open Sys2Proof Sys2Proof.Machine

namespace Sys2Proof.Tests

/-- A state of the timebase at instant `u` after reset, with `src` in TB_CTL and ten lines to a frame. -/
def tbState (src u : Nat) (x : Tb) : State :=
  { State.reset with now := u, tb := x, regs := [(regAddr .TB_CTL 0 0, BitVec.ofNat 32 (src * 2 ^ 28)), (regAddr .TB_LINES_PER_FRAME 0 0, 10)] }

/-- Registers of instance `i` set to the values listed. -/
def setRegs (i : Nat) (l : List (Reg × Nat)) (s : State) : State := l.foldl (fun s p => s.wr p.1 (BitVec.ofNat 32 p.2) i) s

/-- Every switched domain is on. -/
def lit (s : State) : State := { s with pwr := { s.pwr with on := BitVec.allOnes _ } }

/-- Channel 511 in force-path state `x` at instant `u`, with some of its registers. -/
def chan (u : Nat) (x : Force) (l : List (Reg × Nat)) : State :=
  setRegs 511 l (lit { State.reset with now := u, force := Table.put (Force.reset 511) 511 x [] })

/-- A channel that forces voltage. -/
def forceV : Force := { Force.reset 511 with st := .forcingV, closed := true, target := 1000, corrTo := 3 }

/-- The sequencer of channel 511 at instant `u`. -/
def seqState (u : Nat) (q : Seqr) (x : Force) (l : List (Reg × Nat)) : State := { chan u x l with seqs := Table.put Seqr.reset 511 q [] }

/-- An entry in progress: profile 0, entry 15, into felt 63. -/
def entry15 : Seqr :=
  { Seqr.reset with running := true, entry := 15, word := 0x003F0102, apStart := 64000, apEnd := 320000, cap := some (7, false, ⟨1, 2, 3⟩) }

/-- The engine of channel 511, which forces voltage and is enabled; list 0 has three entries from byte 16 of region 0. -/
def engState (u : Nat) (e : Eng) (x : Force) (l : List (Reg × Nat)) : State :=
  { (chan u x ([(.CH_CTL, 0x80000000)] ++ l)).wr .MEMC_REGION_ATTR 0x80000000 0 with
    engs := Table.put Eng.reset 511 e [], hbm := [(0, 3), (3, 0x80), (4, 1)], memc := { Memc.reset with st := .service } }

/-- A sweep entry with range 5: its op, value, dwell, repeat and further bits. -/
def entryOf (op v dwell rep more : Nat) : BitVec 128 :=
  BitVec.ofNat 128 (op * 2 ^ 124 + v * 2 ^ 96 + 5 * 2 ^ 72 + rep * 2 ^ 20 + dwell * 2 ^ 4 + more)

/-- The bit that makes an entry anchored. -/
def anchored : Nat := 2 ^ 123

/-- An execution of entry 0 that began at instant 0. -/
def execOf (w : BitVec 128) : Exec :=
  { idx := 0, ord := 0, word := w, start := .at 0, target := RTime.zero, lookDone := false, endAt := none, mBase := 0, mLen := 2, point := 0,
    points := [], placed := 1, mLo := 0, mCodes := [], timedOut := false }

/-- An engine in RUNNING with execution `x` in progress and entries in its buffer. -/
def engRuns (x : Exec) (l : List (BitVec 128)) : Eng := { Eng.reset with state := .running, len := 3, cur := some x, buf := l }

/-- Felt 63 at instant `u`, with credits and some of its registers. -/
def feltState (u : Nat) (y : Felt) (c : List (Nat × Credit)) (l : List (Reg × Nat)) : State :=
  setRegs 63 l (lit { State.reset with now := u, que := { Que.reset with felts := Table.put Felt.reset 63 y [], credits := c } })

/-- An item of felt 63 in the vat. -/
def vatItem : QItem := ⟨{ Item.zero with w0 := 0xABC }, .vat, 0, 0, false⟩

/-- Felt 63 in ACTIVE, with one item in lane 7 or none. -/
def active (l : List QItem) : Felt := { Felt.reset with st := .active, lanes := Table.put [] 7 l [] }

/-- Channel 511 with entries in the stuff FIFO of its slice, in cycle 1. -/
def stuffState (y : Felt) (c : List (Nat × Credit)) (pace nocredit : Bool) (l : List StuffEntry) : State :=
  { feltState 256 y c [] with
    cal := { Cal.reset with slices := Table.put (Slice.reset 539) 539 { Slice.reset 539 with fifo := l } [] }
    ress := Table.put (Res.reset 511) 511 ⟨⟨vatItem.item, 63, 0⟩, if pace then [256] else [], false, none⟩ [] }.wr .CH_RES_CTL
      (BitVec.ofNat 32 (b2n pace * 2 ^ 31 + b2n nocredit * 2 ^ 30 + 4 * 2 ^ 24)) 511

/-- The memory controller in state `x` at instant `u`, with registers. -/
def memState (u : Nat) (x : Memc) (l : List (Reg × Nat)) : State := { setRegs 0 l (lit State.reset) with now := u, memc := x }

/-- A read or write of the last 32 bytes of the stack, pseudo-channel 31, by port 5. -/
def memReq (w : Bool) (at_ : Nat) : MReq :=
  { id := 7, port := 5, write := w, addr := 2 ^ 34 - 32, data := if w then List.replicate 32 1 else [], len := 32, at_, urgent := false, fwd := [] }

def inService : Memc := { Memc.reset with st := .service }

/-- Web port 3 in state `x` at instant `u`, powered, with some of its registers. -/
def portState (u : Nat) (x : Port) (l : List (Reg × Nat)) : State := setRegs 3 l (lit { State.reset with now := u, web := ⟨[(3, x)], [], []⟩ })

/-- A port in a state that it entered at instant 0. -/
def portIn (st : PortState) : Port := { Port.reset with st }

/-- A flit with its type, destination and sequence number, on virtual channel 1: a request is one of the last word of the stack. -/
def flitTo (type dst seq : Nat) : Flit :=
  { dst, src := 4094, type, tag := 65535, len := 4, vc := 1, status := 0, addr := 2 ^ 34 - 4, stamp := 0, payload := [], seq, ack := 511,
    nak := false, cvc := 0, ccount := 0, hops := 62 }

/-- A management transaction of MGMT_SPI: its first byte, the address and the rest. -/
def spiBytes (first : Byte) (a : Nat) (rest : List Byte) : List Byte := first :: ((leBytes a 5).reverse ++ rest)

/-- The fault block in state `x` at instant `u`, with channel 511 in force-path state `y`. -/
def fltState (u : Nat) (x : Flt) (y : Force) : State := { chan u y [] with flt := x }

/-- A fault of the last channel. -/
def faultOf (cls : Nat) : Detect := State.reset.detect 0x100 cls (.channel 511) 0x1100

/-- A record of it, with `n` as its number. -/
def recordOf (cls n : Nat) : Record := ⟨faultOf cls, cls, ⟨false, false, false, false, false, false, false, true⟩, n, 65534, 0, 0⟩

/-- Slice 539, the home of channel 511, in state `y` at instant `u`; the channel is in state `x`, the calibration engine as `f` makes it. -/
def sliceState (u : Nat) (y : Slice) (x : Force) (f : Cal → Cal) : State :=
  { chan u x [] with cal := f { Cal.reset with slices := Table.put (Slice.reset 539) 539 y [] } }

/-- A step of slice 539 in a phase that began at instant 0. -/
def inPhase (p : StepPhase) (loaded disturbed : Bool) : Slice := { Slice.reset 539 with phase := p, loaded, disturbed }

/-! ## Ill-formed commands: one for each check, at the first value out of range, beside the last one in range -/

theorem test_wf_channel : (Instr.deckleHit 0 511).wf = true ∧ (Instr.deckleHit 0 512).wf = false := by decide
theorem test_wf_tile : (Instr.supplyTile 0 7).wf = true ∧ (Instr.supplyTile 0 8).wf = false := by decide
theorem test_wf_no_tile : (Instr.stepRelease 0 none).wf = true ∧ (Instr.stepRelease 0 (some 8)).wf = false := by decide
theorem test_wf_slice : (Instr.bridgeEnd 0 543).wf = true ∧ (Instr.bridgeEnd 0 544).wf = false := by decide
theorem test_wf_group_sensor : (Instr.tempTrigger 0 true 31 0).wf = true ∧ (Instr.tempTrigger 0 true 32 0).wf = false := by decide
theorem test_wf_felt : (Instr.drained 0 63).wf = true ∧ (Instr.drained 0 64).wf = false := by decide
theorem test_wf_port : (Instr.flitSend 0 3).wf = true ∧ (Instr.flitSend 0 4).wf = false := by decide
theorem test_wf_edge : (Instr.edgeMissing 0 .line).wf = true ∧ (Instr.edgeMissing 0 (.beats 4)).wf = false := by decide
theorem test_wf_lane : (Instr.lossOfSignal 0 3 2).wf = true ∧ (Instr.lossOfSignal 0 3 3).wf = false := by decide
theorem test_wf_flit : (Instr.flitReceive 0 3 (List.replicate 255 0) []).wf = false := by decide +kernel
theorem test_wf_memory_port : (Instr.portRequest 0 5 false 0 [] 1).wf = true ∧ (Instr.portRequest 0 6 false 0 [] 1).wf = false := by decide
theorem test_wf_memory_span :
    (Instr.portRequest 0 5 false (2 ^ 34 - 1) [] 1).wf = true ∧ (Instr.portRequest 0 5 false (2 ^ 34 - 1) [] 2).wf = false ∧
      (Instr.portRequest 0 5 true 0 [] 1).wf = false := by decide
theorem test_wf_bank : (Instr.refresh 0 31 31).wf = true ∧ (Instr.refresh 0 32 31).wf = false ∧ (Instr.refresh 0 31 32).wf = false := by decide
theorem test_wf_pseudo_channel : (Instr.commandIssue 0 31).wf = true ∧ (Instr.commandIssue 0 32).wf = false := by decide
theorem test_wf_generator : (Instr.anchorFire 0 63).wf = true ∧ (Instr.anchorFire 0 64).wf = false := by decide
theorem test_wf_octet : (Instr.guardOverload 0 63).wf = true ∧ (Instr.guardOverload 0 64).wf = false := by decide
theorem test_wf_booster : (Instr.boostLoop 0 15).wf = true ∧ (Instr.boostLoop 0 16).wf = false := by decide
theorem test_wf_pair : (Instr.watermarkEvent 0 31).wf = true ∧ (Instr.watermarkEvent 0 32).wf = false := by decide
theorem test_wf_creditor : (Instr.creditAsk 0 583 63).wf = true ∧ (Instr.creditAsk 0 584 63).wf = false ∧ (Instr.creditAsk 0 583 64).wf = false := by
  decide
theorem test_wf_producer : (Instr.feltPush 0 (.agent 39)).wf = true ∧ (Instr.feltPush 0 (.agent 40)).wf = false ∧
    (Instr.feltPush 0 (.channel 512)).wf = false := by decide
theorem test_wf_routing_channel : (Instr.fire 0 0x1000 255 0).wf = true ∧ (Instr.fire 0 0x1000 256 0).wf = false := by decide
theorem test_wf_task_input : (Instr.taskSingleDelivery 0 1791).wf = true ∧ (Instr.taskSingleDelivery 0 1792).wf = false := by decide
theorem test_wf_group : (Instr.farForkDelivery 0 15).wf = true ∧ (Instr.farForkDelivery 0 16).wf = false := by decide
theorem test_wf_evio : (Instr.pulseEnd 0 15).wf = true ∧ (Instr.pulseEnd 0 16).wf = false := by decide
theorem test_wf_injection : (Instr.injectedDetection 0 15).wf = true ∧ (Instr.injectedDetection 0 16).wf = false := by decide
theorem test_wf_core : (Instr.coreFailed 0 3).wf = true ∧ (Instr.coreFailed 0 4).wf = false := by decide
theorem test_wf_duty : (Instr.coreTakesDuty 0 3 2).wf = true ∧ (Instr.coreTakesDuty 0 3 3).wf = false := by decide
theorem test_wf_doorbell : (Instr.doorbell 0 15).wf = true ∧ (Instr.doorbell 0 16).wf = false := by decide
theorem test_wf_entry : (Instr.chMeasSeqWrite 0 0x1020 511 3 15 0).wf = true ∧ (Instr.chMeasSeqWrite 0 0x1020 511 4 15 0).wf = false ∧
    (Instr.chMeasSeqWrite 0 0x1020 511 3 16 0).wf = false := by decide
theorem test_wf_tail_word : (Instr.popShadowRead 0 0x1020 63 7).wf = true ∧ (Instr.popShadowRead 0 0x1020 63 0).wf = false ∧
    (Instr.popShadowRead 0 0x1020 63 8).wf = false := by decide
theorem test_wf_group_domain : (Instr.sliceGroupPowered 0 38).wf = true ∧ (Instr.sliceGroupPowered 0 39).wf = false ∧
    (Instr.sliceGroupPowered 0 40).wf = false := by decide
theorem test_wf_rail : (Instr.supplyHub 0 8).wf = true ∧ (Instr.supplyHub 0 9).wf = false := by decide
theorem test_wf_scope : (Instr.release 0 (.other 2047)).wf = true ∧ (Instr.release 0 (.other 2048)).wf = false := by decide
theorem test_wf_code : (Instr.conditionClear 0 0xB03 .device).wf = true ∧ (Instr.conditionClear 0 0xB04 .device).wf = false := by decide
theorem test_wf_fault : (Instr.capture 0 0x101 3 (.channel 511) 0 0 0 0).wf = true ∧ (Instr.capture 0 0x101 2 (.channel 511) 0 0 0 0).wf = false ∧
    (Instr.capture 0 0x900 2 (.tile 7) 0 0 0 0).wf = false ∧ (Instr.firmwareFault 0 0x101 3 (.channel 511) 0).wf = false := by decide
/-- What is not well formed is a fault and changes nothing. -/
theorem test_ill_formed_is_a_fault : exec (.deckleHit 0 512) State.reset = .fault .noSuchInstance := rfl

/-! ## Worked examples of the spec: expected values are the manual's own -/

/-- The sum of "Raster time" (spec/02_raster_timebase.md). -/
theorem test_raster_sum : rtAdd 2250 ⟨12, 2249, 0xC000⟩ 0 1 0x8000 = ⟨13, 1, 0x4000⟩ := by decide
/-- The register pair that holds 12:540:0x8000 (spec/00_scope.md). -/
theorem test_raster_pair : (RTime.lo ⟨12, 540, 0x8000⟩, RTime.hi ⟨12, 540, 0x8000⟩) = (0x021C8000, 0x0000000C) ∧
    RTime.ofWords 0x021C8000 0x0000000C = ⟨12, 540, 0x8000⟩ := by decide
/-- CH[37] + 0x40 (spec/00_scope.md) and CH[140].CH_MEAS_LAST (spec/09_web_links.md). -/
theorem test_addresses : regAddr .CH_CTL 37 0 + 0x40 = 0x802025040 ∧ regAddr .CH_MEAS_LAST_LO 140 0 = 0x80208C0B0 := by decide
/-- Channel 301 is served by slice 317 (spec/10_faults_and_safe_state.md). -/
theorem test_home_slice : State.reset.sliceIdx 301 = 0x13D := by decide
/-- Byte 0x1_0000 and the copy of entry 2 of list 7 (spec/08_memory_controller.md). -/
theorem test_memory_mapping :
    let s := setRegs 0 [(.MEMC_REGION_ATTR, 0xC0000000), (.MEMC_REGION_SIZE, 512), (.MEMC_REGION_COPY, 0x2000)] State.reset
    (bankIx 0x10000, rowOf 0x10000, pcOf 0x10000) = (0, 2, 0) ∧ s.copyAddr 0x10020 = some 0x200010020 ∧
      (bankIx 0x200010020, rowOf 0x200010020, pcOf 0x200010020) = (16, 2, 0) := by decide
/-- The header words of the READ_REQ of "Web links" (spec/09_web_links.md). -/
theorem test_flit_header : (flitHeader { flitTo 0x10 0x00B 0 with src := 0x800, tag := 0x0123, len := 8, vc := 0, addr := 0x80208C0B0 }).take 3 =
    [0x00B80010, 0x01230808, 0x0208C0B0] := by decide
/-- The first and the last frame of the ramp down of CH[37], and the last of the ramp up (spec/03_force_path.md). -/
theorem test_ramp :
    let ramp := fun (a b : Int) => (({ forceV with present := a, target := b }).calender true 16384 1 1).present
    ramp 5536481 0 = 5536481 - 16384 ∧ ramp 15073 0 = 0 ∧ ramp (6710886 - 9830) 6710886 = 6710886 := by decide
/-- Entries 0 and 1 of profile 1 and the raw code of line 731 (spec/04_measure_path.md). -/
theorem test_measure_words :
    (mMark 0x00850180, mDest 0x00850180, mK 0x00850180, mGain 0x00850180, mSource 0x00850180) = (true, 5, 3, 0, 0) ∧
    (mMark 0x00410205, mDest 0x00410205, mK 0x00410205, mGain 0x00410205, mSource 0x00410205) = (false, 0x41, 4, 0, 5) ∧
    rawCode (meanCode 8 [16630, 16630, 16630, 16630, 16630, 16630, 16630, 16633] false) 3 = 0x0207B3 := by decide
/-- Entry 2 of list 7 (Table 5-9): PLAY_MOULD 12, per line, point_trig, anchored frame-absolute 2,220:0x0000. -/
theorem test_sweep_entry :
    let w : BitVec 128 := 0x580314003FFF23008AC0000000000000#128
    (sOp w, sAnc w, sForm w, sValue w / 2 ^ 14, sPlay w, sPointTrig w) = (5, true, 0, 12, 1, true) ∧
    (sLine w, sPhase w, sDeckle w, sSpan w, sRange w) = (2220, 0, 0x3FFF, 2, 3) ∧ sFieldsOk w = true := by decide
/-- Words 0, 1, 3 and 4 of record 41 (spec/10_faults_and_safe_state.md). -/
theorem test_record_words :
    let s := { State.reset with regs := [(regAddr .DEVICE_NODE 0 0, 5)] }
    let r := { recordOf 2 41 with det := s.detect 0x100 2 (.channel 301) 0x110C, flags := ⟨false, false, false, false, false, false, false, true⟩, recur := 0 }
    [0, 1, 3, 4, 11].map r.word = ([0x1004892D, 0x110C0080, 0x0212D000, 0x00000058, 0x0000013D] : List Word) := by decide
/-- The second and third accesses of Table 1-7: node 0x002 reads the low half past the carry, then node 0x001 reads the high half of its shadow. -/
theorem test_snapshot_reads :
    let s := { State.reset with now := 0x200000010 * 256, dev := { Dev.reset with nodeValid := true, remote := [⟨1, regAddr .DEVICE_ABS_TIME_LO 0 0, 1⟩] } }
    let read := fun (m : Nat) (r : Reg) (s : State) => s.access m fun s => s.readAt m (regAddr r 0 0) false
    (read 2 .DEVICE_ABS_TIME_LO s).resp.data = 0x10 ∧
      (read 1 .DEVICE_ABS_TIME_HI (read 2 .DEVICE_ABS_TIME_LO s)).resp.data = 1 ∧
      (read 2 .DEVICE_ABS_TIME_HI (read 2 .DEVICE_ABS_TIME_LO s)).resp.data = 2 := by decide

/-- The premises of the statements about the whole machine are met at reset: it is canonical, powered and idle, and a step answers a next state. -/
theorem test_witness_Machine :
    (State.reset.pending = [] ∧ State.reset.powered ∧ State.reset.canonical) ∧ (∃ t, Sys2Proof.Machine.step State.reset = .next t) ∧
      (let s := { State.reset with pwr := { Pwr.reset with porHeld := true } }; s.pending = [] ∧ s.pwr.porHeld = true) := by
  refine ⟨by decide, ⟨_, rfl⟩, by decide⟩

/-- The premises of TimeQueueAndPor are met: a command that runs, one that starts a POR, and POR held. -/
theorem test_witness_TimeQueueAndPor :
    (∃ t, exec (.lineRefEdge 5) State.reset = .next t ∧ startsPor (.lineRefEdge 5) = false) ∧
      (∃ t, exec (.porstN 5) State.reset = .next t ∧ startsPor (.porstN 5) = true) ∧
      (∃ t, exec (.lineRefEdge 5) { State.reset with pwr := { Pwr.reset with porHeld := true } } = .next t) :=
  ⟨⟨_, rfl, rfl⟩, ⟨_, rfl, rfl⟩, ⟨_, rfl⟩⟩

/-- The premises of WellFormedCommandsRun are met by channel 511 and by channel 512. -/
theorem test_witness_WellFormedCommandsRun :
    (Instr.deckleHit 0 511).wf = true ∧ (Instr.deckleHit 0 512).wf = false := by decide

/-- The premises of FlashChangesOnlyByItsCommands are met by the erase command of the flash. -/
theorem test_witness_FlashChangesOnlyByItsCommands :
    let s := { State.reset with flash := [(0, 0)], boot := { Boot.reset with flashCmd := some (3, 0) } }
    ∃ t, exec (.flashCommandComplete 0 false) s = .next t ∧ t.flash ≠ s.flash :=
  ⟨_, rfl, by decide⟩

/-- The hypotheses of RegisterWrites are met, clause by clause, at the highest instances: a requester that is not answered, an address that no register
has, an RW register, an RWI one, a pair that is free, one whose generator is armed, one that is locked and one that TEST guards. -/
theorem test_witness_RegisterWrites :
    (let s := State.reset; s.canonical ∧ s.powered ∧ s.answers 0xFFF = false ∧ s.foreign (regAddr .CH_DECKLE 0 0) true = none ∧
      s.answers 0x1020 = true ∧ s.target 0x8000000FC = .unassigned ∧ 0x8000000FC % 4 = 0) ∧
    (let s := State.reset; s.target (regAddr .CH_DECKLE 511 0) = .reg .CH_DECKLE 511 0 ∧ regAddr .CH_DECKLE 511 0 % 4 = 0 ∧
      (s.begin 0).shielded (regAddr .CH_DECKLE 511 0) = 0 ∧
      ((s.begin 0).rd .CH_DECKLE 511 0 ^^^ 0xFFFFFFFF) &&& rwiMask .CH_DECKLE = 0) ∧
    (let s := State.reset; s.target (regAddr .CAL_CTL 0 0) = .reg .CAL_CTL 0 0 ∧ (s.begin 0).shielded (regAddr .CAL_CTL 0 0) = 0 ∧
      ((s.begin 0).rd .CAL_CTL 0 0 ^^^ 0xFFFFFFFF) &&& rwiMask .CAL_CTL ≠ 0) ∧
    (let s := State.reset; pairHi .TB_ANCHOR_TARGET_LO = some .TB_ANCHOR_TARGET_HI ∧
      s.target (regAddr .TB_ANCHOR_TARGET_LO 63 0) = .reg .TB_ANCHOR_TARGET_LO 63 0 ∧ regAddr .TB_ANCHOR_TARGET_LO 63 0 % 4 = 0 ∧
      s.target (regAddr .TB_ANCHOR_TARGET_HI 63 0) = .reg .TB_ANCHOR_TARGET_HI 63 0 ∧ regAddr .TB_ANCHOR_TARGET_HI 63 0 % 4 = 0 ∧
      (s.begin 0).barred 0x1020 .TB_ANCHOR_TARGET_HI 63 5 ((s.begin 0).rd .TB_ANCHOR_TARGET_HI 63) = none ∧
      (s.begin 0).barred 0x1020 .TB_ANCHOR_TARGET_LO 63 0 ((s.begin 0).rd .TB_ANCHOR_TARGET_LO 63) = none ∧
      ((s.begin 0).genOf 63).armed = false) ∧
    (let s := { State.reset with tb := { Tb.reset with ready := true, gens := [(63, { Gen.reset with armed := true, target := ⟨5, 5, 5⟩ })] } };
      s.canonical ∧ s.powered ∧ ((s.begin 0).genOf 63).armed = true ∧ (s.begin 0).genMatches 63 = false ∧ (s.begin 0).tb.ready = true ∧
        genMode (s.begin 0) 63 ≠ 5 ∧ (5 : Word) ≠ (s.begin 0).rd .TB_ANCHOR_TARGET_HI 63) ∧
    (let s := setRegs 63 [(.TB_ANCHOR_CTL, 0x20000000)] State.reset; s.canonical ∧ s.powered ∧
      (s.begin 0).barred 0x1020 .TB_ANCHOR_TARGET_HI 63 5 ((s.begin 0).rd .TB_ANCHOR_TARGET_HI 63) = some 0x001) ∧
    (let s := State.reset; pairHi .TEST_CREDIT_HOLD_LO = some .TEST_CREDIT_HOLD_HI ∧
      s.target (regAddr .TEST_CREDIT_HOLD_HI 0 0) = .reg .TEST_CREDIT_HOLD_HI 0 0 ∧
      (s.begin 0).barred 0x1020 .TEST_CREDIT_HOLD_HI 0 5 ((s.begin 0).rd .TEST_CREDIT_HOLD_HI 0) = some 0x006) := by
  refine ⟨?_, ?_, ?_, ?_, ?_, ?_, ?_⟩ <;> decide

/-- The hypotheses of RegisterReads are met: a register outside a pair, a pair's halves, a shadow held and none. -/
theorem test_witness_RegisterReads :
    let s := { State.reset with dev := { Dev.reset with internal := [⟨0x1020, regAddr .TB_ANCHOR_TARGET_LO 63 0, 7⟩] } }
    s.canonical ∧ s.powered ∧ s.answers 0x1020 = true ∧
    (s.target (regAddr .CH_DECKLE 511 0) = .reg .CH_DECKLE 511 0 ∧ regAddr .CH_DECKLE 511 0 % 4 = 0 ∧ pairHalf .CH_DECKLE 511 0 = none) ∧
    (s.target (regAddr .TB_ANCHOR_TARGET_LO 63 0) = .reg .TB_ANCHOR_TARGET_LO 63 0 ∧ pairHalf .TB_ANCHOR_TARGET_LO 63 0 = some false) ∧
    (s.target (regAddr .TB_ANCHOR_TARGET_HI 63 0) = .reg .TB_ANCHOR_TARGET_HI 63 0 ∧ pairHalf .TB_ANCHOR_TARGET_HI 63 0 = some true ∧
      (s.begin 0).shadowOf 0x1020 (regAddr .TB_ANCHOR_TARGET_HI 63 0 - 4) = some 7 ∧
      (s.begin 0).shadowOf 0x1021 (regAddr .TB_ANCHOR_TARGET_HI 63 0 - 4) = none) := by decide

/-- The hypotheses of AccessesThatAreNotPerformed are met: the end of the address map, an odd address, the last word of vat SRAM with TEST
permission and without, and the ends of the forerunner window. -/
theorem test_witness_AccessesThatAreNotPerformed :
    let s := State.reset
    let u := { State.reset with dev := { Dev.reset with test := true } }
    s.canonical ∧ s.powered ∧ s.answers 0x1020 = true ∧ s.target 0xFFFFFFFFFC = .reserved ∧ 0xFFFFFFFFFC % 4 = 0 ∧ 0xFFFFFFFFFD % 4 ≠ 0 ∧
      s.dev.test = false ∧ (2 ^ 25 - 4) % 4 = 0 ∧ s.dev.forerunner = false ∧ s.target 0x900000000 = .reserved ∧
      s.target 0x900FFFFFC = .reserved ∧
      u.canonical ∧ u.powered ∧ u.answers 0x1020 = true ∧ u.dev.test = true := by decide

def lineState (st : TbState) (u period seen bad : Nat) : State :=
  tbState 1 u { Tb.reset with state := st, period := period, line := ⟨some 0, seen, 0, bad, 0, false⟩ }

def frameState (m : Option Int) : State :=
  tbState 1 0 { Tb.reset with state := .locked, ready := true, raster := ⟨0, 1, 0, 0⟩, mismatch := m }

def pixState (active : Bool) : State :=
  (tbState 3 0 { Tb.reset with state := .locked, ready := true, pixActive := active, period := 1000000 }).wr .TB_H_TOTAL 1000

/-- The hypotheses of LineFrameAndPixelReferences are met, the bounds of the line period and of the closed window among them. -/
theorem test_witness_LineFrameAndPixelReferences :
    State.reset.canonical ∧ State.reset.pwr.porHeld = false ∧ (State.reset.begin 0).external = false ∧
    (let s := tbState 1 0 Tb.reset; s.canonical ∧ (s.begin 0).external = true ∧ (s.begin 0).tb.state = .unlocked) ∧
    (∀ u ∈ [213325, 256000000], let s := lineState .acquiring u 0 1 0;
      s.canonical ∧ (s.begin 0).external = true ∧ (s.begin 0).tb.state = .acquiring ∧ (s.begin 0).tb.line.last = some 0 ∧
        (s.begin 0).tb.line.seen = 1 ∧ 8333 * 256 ≤ 10 * ((s.begin 0).now - 0) ∧ (s.begin 0).now - 0 ≤ 256000000) ∧
    (let s := lineState .acquiring 256000001 0 1 0;
      s.canonical ∧ (s.begin 0).external = true ∧ (s.begin 0).tb.state = .acquiring ∧ (s.begin 0).tb.line.last = some 0 ∧
        (s.begin 0).tb.line.seen = 1 ∧ 256000000 < (s.begin 0).now - 0) ∧
    (∀ bad ∈ [0, 1], let s := lineState .locked 1062501 1000000 5 bad;
      s.canonical ∧ (s.begin 0).external = true ∧ (s.begin 0).tb.state = .locked ∧ (s.begin 0).tb.line.last = some 0 ∧
        (s.begin 0).tb.period ≠ 0 ∧
        ((s.begin 0).tb.line.missed + 1) * (s.begin 0).tb.period * (s.begin 0).windowW + (s.begin 0).tb.period
          < ((s.begin 0).now - 0) * (s.begin 0).windowW ∧ (s.begin 0).tb.line.bad + 1 = bad + 1 ∧ (s.begin 0).lossCount = 2) ∧
    (∀ m ∈ [none, some (-1)], let s := frameState m;
      s.canonical ∧ (s.begin 0).tb.frameLevel = false ∧ (s.begin 0).external = true ∧ (s.begin 0).framed = true ∧
        (s.begin 0).tb.state = .locked ∧ frameOffset (s.begin 0).lines (s.begin 0).raster.line = -1 ∧ (s.begin 0).tb.mismatch = m) ∧
    (let s := pixState true; s.canonical ∧ (s.begin 0).tb.pixActive = true) ∧
    (let s := pixState true; s.canonical ∧ (s.begin 0).tb.frameLevel = false ∧ (s.begin 0).external = true) ∧
    (let s := pixState false; s.canonical ∧ (s.begin 0).tb.pixActive = false ∧ (s.begin 0).src = 3 ∧
      ((s.begin 0).tb.period = 1000000 ∧ (s.begin 0).fld f_TB_H_TOTAL_pixels = 1000 ∧ 1000 * 65542554 / 65536 = 1000100 ∧
        ((1000100 : Int) - 1000000).natAbs * 10000 ≤ 1000000 ∧ 1000 * 65542620 / 65536 = 1000101 ∧
        1000000 < ((1000101 : Int) - 1000000).natAbs * 10000) ∧ (s.begin 0).tb.ready = true ∧ (s.begin 0).tb.state = .locked) ∧
    ((65536 : Int).natAbs ≤ 65536 ∧ 65536 < (-65537 : Int).natAbs) := by
  refine ⟨?_, ?_, ?_, ?_, ?_, ?_, ?_, ?_, ?_, ?_, ?_, ?_⟩ <;> decide

/-- A follower (source 5) whose upstream port is 3, of rank 5, sending to port 3 in every line. -/
def beatState (u : Nat) (x : Tb) : State :=
  { tbState 5 u x with regs := (tbState 5 u x).regs ++ [(regAddr .TB_BEAT_CTL 0 0, 0x00141807)] }

/-- The hypotheses of RasterBeatsAndDelayExchanges are met at port 3. -/
theorem test_witness_RasterBeatsAndDelayExchanges :
    (let s := beatState 0 { Tb.reset with ports := [(3, { BeatPort.reset with delayValid := true })] };
      s.canonical ∧ s.powered ∧ (s.begin 0).on f_TB_CTL_root = false ∧ (s.begin 0).fld f_TB_BEAT_ROOT_root_node = 0 ∧
        (s.begin 0).fld f_TB_BEAT_CTL_rank = 5 ∧ (s.begin 0).src = 5 ∧ (s.begin 0).upPort = some 3 ∧ (s.begin 0).altPort ≠ some 2 ∧
        (s.begin 0).tb.state = .unlocked ∧ ((s.begin 0).beatPortOf 3).delayValid = true ∧ (s.begin 0).beatDue 3 = false) ∧
    (let s := beatState 1062501 { Tb.reset with state := .locked, period := 1000000, ports := [(3, { BeatPort.reset with judge := ⟨some 0, 1, 0, 0, 0, true⟩ })] };
      s.canonical ∧ s.powered ∧ (s.begin 0).src = 5 ∧ (s.begin 0).tb.state = .locked ∧ ((s.begin 0).beatPortOf 3).judge.last = some 0 ∧
        0 < ((s.begin 0).beatPortOf 3).judge.seen ∧ (s.begin 0).tb.period ≠ 0 ∧
        beatLines (s.begin 0).lines (max 1 ((s.begin 0).beatPortOf 3).ivl) (((s.begin 0).beatPortOf 3).beat.elim 0 fun b => b.line)
          (((s.begin 0).beatPortOf 3).judge.missed + 1) * (s.begin 0).tb.period * (s.begin 0).windowW +
          (s.begin 0).tb.period < ((s.begin 0).now - 0) * (s.begin 0).windowW ∧
        ((s.begin 0).beatPortOf 3).judge.bad + 1 < (s.begin 0).lossCount) ∧
    (let s := beatState 0 { Tb.reset with state := .locked, ready := true, period := 1000000, raster := ⟨0, 1, 0, 0⟩ };
      s.canonical ∧ s.powered ∧ (s.begin 0).beatDue 3 = true) ∧
    (let s := beatState 0 { Tb.reset with ports := [(3, { BeatPort.reset with req := some (7, 100) })] };
      s.canonical ∧ s.powered ∧ ((s.begin 0).beatPortOf 3).req = some (7, 100) ∧ ((s.begin 0).beatPortOf 3).hist = []) := by decide

def genState (mode n : Nat) (locked : Bool) (x : Gen) : State :=
  { tbState 0 0 { Tb.reset with ready := true, gens := Table.put Gen.reset 63 x [] } with
    regs := (tbState 0 0 Tb.reset).regs ++ [(regAddr .TB_ANCHOR_CTL 63 0, BitVec.ofNat 32 (b2n locked * 2 ^ 29 + mode * 2 ^ 24 + n * 2 ^ 8))] }

/-- The hypotheses of GlobalGeneratorsFireAndDisarm are met by generator 63. -/
theorem test_witness_GlobalGeneratorsFireAndDisarm :
    (let s := genState 0 0 false Gen.reset; s.canonical ∧ s.pwr.porHeld = false ∧ (s.begin 0).genMatches 63 = false ∧ s.powered ∧
      s.answers 0x1020 = true ∧ (s.begin 0).shielded (regAddr .TB_ANCHOR_CTL 63 0) = 0 ∧ (s.begin 0).on f_TB_ANCHOR_CTL_locked 63 = false ∧
      bit 0x40000000 29 = false ∧ bit 0x40000000 30 = true ∧ bits 0x40000000 24 3 = genMode (s.begin 0) 63 ∧
      bits 0x40000000 8 16 = genN (s.begin 0) 63) ∧
    (∀ mode ∈ [0, 3, 4, 5, 6], let s := genState mode 2 false { Gen.reset with armed := true };
      s.canonical ∧ (s.begin 0).genMatches 63 = true ∧ ((s.begin 0).genOf 63).due = none ∧ genMode (s.begin 0) 63 = mode) ∧
    (let s := genState 0 2 false { Gen.reset with armed := true, target := ⟨5, 5, 5⟩ }; s.canonical ∧ s.powered ∧ s.answers 0x1020 = true ∧
      (s.begin 0).genMatches 63 = false ∧ ((s.begin 0).genOf 63).armed = true ∧ (s.begin 0).shielded (regAddr .TB_ANCHOR_CTL 63 0) = 0 ∧
      bits 0x40000000 8 16 ≠ genN (s.begin 0) 63) ∧
    (let s := genState 0 0 true Gen.reset; s.canonical ∧ s.powered ∧ s.answers 0x1020 = true ∧
      (s.begin 0).on f_TB_ANCHOR_CTL_locked 63 = true ∧ bit 0x60000000 29 = true ∧ bit 0x60000000 30 = true) := by decide

/-- The hypotheses of ArmingAGlobalGenerator are met by generator 63, at the bounds of its forms. -/
theorem test_witness_ArmingAGlobalGenerator :
    let s := genState 0 0 false Gen.reset
    s.canonical ∧ s.powered ∧ s.answers 0x1020 = true ∧ (s.begin 0).shielded (regAddr .TB_ANCHOR_CTL 63 0) = 0 ∧
      (s.begin 0).on f_TB_ANCHOR_CTL_locked 63 = false ∧ ((s.begin 0).genOf 63).armed = false ∧
      ((s.begin 0).genOf 63).offCycle ≠ some (s.begin 0).cycle ∧ ((s.begin 0).genPair 63).line < (s.begin 0).lines ∧
    (∀ v ∈ [0x84000000, 0x86000100, 0x85000000], let w := BitVec.ofNat 32 v; bit w 29 = false ∧ bit w 30 = false ∧ bit w 31 = true ∧
      (bits w 24 3 < 5 ∨ bits w 24 3 = 6 ∧ 0 < bits w 8 16 ∨ bits w 24 3 = 5)) ∧
    (∀ v ∈ [0x87000000, 0x86000000], let w := BitVec.ofNat 32 v; bit w 31 = true ∧ (bits w 24 3 = 7 ∨ bits w 24 3 = 6 ∧ bits w 8 16 = 0)) := by
  decide

/-- The hypotheses of DacFrames are met at the first and at the last instant of a frame, without the calender and with it. -/
theorem test_witness_DacFrames :
    ((State.reset.begin 0).now < ((State.reset.begin 0).forceOf 511).frameAt + 65536) ∧
    (∀ u ∈ [65536, 131071], ∀ c ∈ [(0, 0), (0x80000004, 0), (0x80000004, 1)], let s := chan u forceV [(.CH_CALENDER, c.1), (.CH_CALENDER_RATE, c.2)];
      s.canonical ∧ s.powered ∧ ((s.begin 0).forceOf 511).frameAt + 1 * 65536 ≤ (s.begin 0).now ∧
        (s.begin 0).now < ((s.begin 0).forceOf 511).frameAt + (1 + 1) * 65536 ∧ (s.begin 0).chanPowered 511 = true ∧
        ((s.begin 0).engOf 511).state = .idle ∧ ((s.begin 0).engOf 511).marks = [] ∧ ((s.begin 0).engOf 511).stop = none ∧
        ((s.begin 0).engOf 511).stall = false ∧ ((s.begin 0).forceOf 511).st = .forcingV ∧ ((s.begin 0).forceOf 511).steps = [] ∧
        ((s.begin 0).forceOf 511).disabling = false ∧ ((s.begin 0).forceOf 511).fast = false ∧
        (s.begin 0).on f_CH_CALENDER_enable 511 = decide (c.1 ≠ 0) ∧ (s.begin 0).fld f_CH_CALENDER_RATE_rate_m1 511 = c.2) := by decide

/-- The hypotheses of ForceCommands are met: a refused command for each ground, one carried out in each state, and one that waits. -/
theorem test_witness_ForceCommands :
    (let s := State.reset; s.canonical ∧ s.powered ∧ s.answers 0x1020 = true ∧ (s.begin 0).shielded (regAddr .CH_FORCE_SET 511 0) = 0 ∧
      ((s.begin 0).forceOf 511).st = .detached ∧ (s.begin 0).on f_CH_CTL_enable 511 = false ∧ bits 0x30000000 28 2 = 3 ∧ bits 0x07000000 24 3 = 7) ∧
    (∀ x ∈ [forceV, { forceV with st := .zeroed, mode := true }, { forceV with st := .forcingI, mode := true }], let s := chan 0 x [(.CH_CTL, 0x80000000)];
      s.canonical ∧ s.powered ∧ (s.begin 0).on f_CH_CTL_enable 511 = true ∧ ((s.begin 0).forceOf 511).disabling = false ∧
        (s.begin 0).on f_CH_MEAS_CTL_autorange 511 = false ∧ ((s.begin 0).engOf 511).state = .idle ∧ ((s.begin 0).forceOf 511).st = x.st ∧
        ((s.begin 0).forceOf 511).steps = [] ∧ bits 0x45000007 28 2 = ((s.begin 0).forceOf 511).span ∧
        bits 0x45000007 24 3 = ((s.begin 0).forceOf 511).range ∧ bit (BitVec.ofNat 32 (0x05000007 + b2n x.mode * 2 ^ 30)) 30 = x.mode) ∧
    ((let s := chan 0 forceV [(.CH_CTL, 0x80000000)];
      s.canonical ∧ s.powered ∧ ((s.begin 0).forceOf 511).mode = false ∧ bit 0x45000007 30 = true ∧ ((s.begin 0).forceOf 511).range = 5 ∧
        ((s.begin 0).forceOf 511).span = 0 ∧ bits 0x02000007 28 2 = 0 ∧ bits 0x02000007 24 3 = 2 ∧ bits 0x15000007 28 2 = 1 ∧
        bits 0x15000007 24 3 = 5 ∧ bit 0x15000007 30 = false) ∧
      let s := (chan 0 { forceV with span := 2 } [(.CH_CTL, 0x80000000)]).wr .TILE_BST_BIND 0x8000003F 7 1
      s.canonical ∧ s.powered ∧ (s.begin 0).on f_CH_CTL_enable 511 = true ∧ (s.begin 0).boosterBound 511 = true ∧ bits 0x26000007 28 2 = 2 ∧
        bits 0x26000007 24 3 = 6) ∧
    (∀ x ∈ [{ forceV with st := .ranging }, { forceV with st := .spanChange }], let s := chan 0 x [(.CH_CTL, 0x80000000)];
      s.canonical ∧ s.powered ∧ (s.begin 0).on f_CH_CTL_enable 511 = true ∧ ((s.begin 0).forceOf 511).disabling = false ∧
        ((s.begin 0).forceOf 511).st = x.st) := by decide

/-- The hypotheses of RangeAndSpanChangesEnd are met, at the instant at which the change is due and one before it. -/
theorem test_witness_RangeAndSpanChangesEnd :
    (∀ u ∈ [999, 1000], let s := chan u { forceV with st := .ranging, steps := [.switch 5 2], due := 1000, goal := some true } [];
      s.canonical ∧ s.powered ∧ ((s.begin 0).forceOf 511).steps = [.switch 5 2] ∧ ((s.begin 0).forceOf 511).due = 1000 ∧ (s.begin 0).now = u ∧
        ((s.begin 0).forceOf 511).st = .ranging ∧ ((s.begin 0).forceOf 511).goal = some true ∧
        ((s.begin 0).forceOf 511).disabling = false ∧ ((s.begin 0).forceOf 511).pending = none ∧
        (s.begin 0).on f_CH_MEAS_CTL_autorange 511 = false ∧ ((s.begin 0).forceOf 511).toTop = none) ∧
    (∀ d ∈ [false, true], let s := chan 1000 { forceV with st := .ranging, steps := [.switch 2 5], range := 2, due := 1000, disabling := true, detach := d } [];
      s.canonical ∧ s.powered ∧ ((s.begin 0).forceOf 511).steps = [.switch 2 5] ∧ ((s.begin 0).forceOf 511).due ≠ 0 ∧
        ((s.begin 0).forceOf 511).due ≤ (s.begin 0).now ∧ ((s.begin 0).forceOf 511).st = .ranging ∧ ((s.begin 0).forceOf 511).goal = none ∧
        ((s.begin 0).forceOf 511).disabling = true ∧ ((s.begin 0).forceOf 511).detach = d) ∧
    (∀ u ∈ [999, 1000], let s := chan u { forceV with st := .spanChange, steps := [.hold 2 3, .ramp 7], due := 1000 } [];
      s.canonical ∧ s.powered ∧ ((s.begin 0).forceOf 511).steps = [.hold 2 3, .ramp 7] ∧ ((s.begin 0).forceOf 511).due = 1000 ∧
        (s.begin 0).now = u ∧ (s.begin 0).now < ((s.begin 0).forceOf 511).frameAt + 65536 ∧ ((s.begin 0).forceOf 511).pending = none) := by
  decide

/-- The hypotheses of AttachmentDisableAndDetach are met. -/
theorem test_witness_AttachmentDisableAndDetach :
    (let s := { chan 0 (Force.reset 511) [(.CH_CTL, 0x20000000)] with dev := { Dev.reset with phase := 7 }, tb := { Tb.reset with ready := true } };
      s.canonical ∧ s.powered ∧ ((s.begin 0).forceOf 511).st = .detached ∧ (s.begin 0).on f_CH_CTL_attach_armed 511 = true ∧
        (s.begin 0).dev.phase = 7 ∧ (s.begin 0).chanPowered 511 = true ∧ (s.begin 0).frameBegins ((s.begin 0).attachFrame 511) = true ∧
        (s.begin 0).flt.tileSafe.testBit (511 / 64) = false) ∧
    (State.reset.canonical ∧ (State.reset.begin 0).on f_CH_CTL_attach_armed 511 = false ∧
      (((State.reset.begin 0).rd .CH_CTL 511 ^^^ 0x40000000) &&& 0xBFFFFFFF = 0) ∧ bit 0x40000000 30 = true ∧
      ((State.reset.begin 0).forceOf 511).st = .detached) ∧
    (∀ st ∈ [ChState.forcingV, .forcingI], let s := chan 0 { forceV with st := st } [(.CH_CTL, 0x80000000)];
      s.canonical ∧ s.powered ∧ s.answers 0x1020 = true ∧ (s.begin 0).shielded (regAddr .CH_CTL 511 0) = 0 ∧
        (s.begin 0).on f_CH_CTL_enable 511 = true ∧ 0 = (s.begin 0).rd .CH_CTL 511 &&& 0x3FFFFFFF ∧ ((s.begin 0).forceOf 511).st = st ∧
        ((s.begin 0).engOf 511).state = .idle ∧ ((s.begin 0).seqOf 511).running = false) ∧
    (∀ st ∈ [ChState.zeroed, .safe, .forcingV, .forcingI], let s := chan 0 { forceV with st := st } [(.CH_CTL, 0x80000000)];
      s.canonical ∧ s.powered ∧ (((s.begin 0).rd .CH_CTL 511 ^^^ 0xC0000000) &&& 0xBFFFFFFF = 0) ∧ bit 0xC0000000 30 = true ∧
        ((s.begin 0).forceOf 511).st = st ∧ ((s.begin 0).engOf 511).state = .idle) := by decide

/-- The hypotheses of ProtectionOfTheForcePath are met, the switch at 10 ms among them. -/
theorem test_witness_ProtectionOfTheForcePath :
    (let s := chan 0 forceV []; s.canonical ∧ s.powered ∧ ((s.begin 0).forceOf 511).clamped = false ∧ ((s.begin 0).forceOf 511).st ≠ .detached ∧
      ((s.begin 0).forceOf 511).short = false ∧ (s.begin 0).domainOn (5 * (63 / 8) + 4) = true) ∧
    (let s := chan 0 { forceV with clamped := true, short := true } []; s.canonical ∧ s.powered ∧ ((s.begin 0).forceOf 511).clamped = true ∧
      ((s.begin 0).forceOf 511).st ≠ .safe ∧ ((s.begin 0).forceOf 511).short = true) ∧
    (let s := chan 5 { forceV with clamped := true, st := .safe } []; s.canonical ∧ s.powered ∧ ((s.begin 0).forceOf 511).clamped = true ∧
      ((s.begin 0).forceOf 511).st = .safe) ∧
    (let s := chan 2560000000 { forceV with st := .safe, openWanted := true } []; s.canonical ∧ s.powered ∧ ((s.begin 0).forceOf 511).st = .safe ∧
      ((s.begin 0).forceOf 511).openWanted = true ∧ ((s.begin 0).forceOf 511).safeAt + 10 * 256000000 ≤ (s.begin 0).now) ∧
    (let s := (chan 0 { forceV with range := 6 } []).wr .TILE_BST_BIND 0x8000003F 7 1; s.canonical ∧ s.powered ∧
      (s.begin 0).boundChan 15 = some 511 ∧ ((s.begin 0).forceOf 511).range = 6 ∧ ((s.begin 0).forceOf 511).st ≠ .detached ∧
      ((s.begin 0).forceOf 511).clamped = false) := by decide

/-- The hypotheses of CellsAndLowPower are met, at the bounds of the rotation time and for a cell's first and last failure. -/
theorem test_witness_CellsAndLowPower :
    (∀ u ∈ [3276800000, 6553599999], let s := chan u forceV [];
      s.canonical ∧ s.powered ∧ (s.begin 0).domainOn (sliceDomain 543) = true ∧ ((s.begin 0).sliceOf 543).rotAt + 1 * 3276800000 ≤ (s.begin 0).now ∧
        (s.begin 0).now < ((s.begin 0).sliceOf 543).rotAt + (1 + 1) * 3276800000 ∧ (s.begin 0).sliceChannel 543 = none) ∧
    (let s := { seqState 3276800000 { Seqr.reset with lp := true } forceV [] with
        cal := { Cal.reset with slices := Table.put (Slice.reset 539) 539 { Slice.reset 539 with lpCell := some 3 } [] } };
      s.canonical ∧ s.powered ∧ (s.begin 0).domainOn (sliceDomain 539) = true ∧ ((s.begin 0).sliceOf 539).rotAt + 1 * 3276800000 ≤ (s.begin 0).now ∧
        ((s.begin 0).sliceOf 539).failed = 0 ∧ (s.begin 0).sliceChannel 539 = some 511 ∧ ((s.begin 0).seqOf 511).lp = true ∧
        ((s.begin 0).sliceOf 539).lpCell = some 3) ∧
    ((State.reset.begin 0).now < ((State.reset.begin 0).sliceOf 543).rotAt + 3276800000) ∧
    (∀ k ∈ [0, 4], let s := { chan 0 forceV [] with cal := { Cal.reset with slices := Table.put (Slice.reset 539) 539 { Slice.reset 539 with failed := k } [] } };
      s.canonical ∧ s.powered ∧ (s.begin 0).domainOn (sliceDomain 539) = true ∧ ((s.begin 0).sliceOf 539).failed = k ∧
        (s.begin 0).sliceChannel 539 = some 511) ∧
    (∀ u ∈ [4, 5], let s := seqState u { Seqr.reset with running := true, lpUntil := some 5 } forceV [(.CH_MEAS_CTL, 0xC0000000)];
      s.canonical ∧ s.powered ∧ ((s.begin 0).seqOf 511).lpUntil = some 5 ∧ (s.begin 0).now = u) ∧
    (let s := chan 0 { forceV with range := 3 } [(.CH_MEAS_CTL, 0x02000000)];
      s.canonical ∧ s.powered ∧ (s.begin 0).autorange 511 = true ∧ ((s.begin 0).forceOf 511).range < (s.begin 0).topOf 511) ∧
    (State.reset.begin 0).autorange 511 = false := by decide

/-- The hypotheses of SequencerSettings are met. -/
theorem test_witness_SequencerSettings :
    (let s := chan 0 forceV []; s.canonical ∧ s.powered ∧ s.answers 0x1020 = true ∧ (s.begin 0).shielded (regAddr .CH_MEAS_CTL 511 0) = 0 ∧
      0x80000000 = (s.begin 0).rd .CH_MEAS_CTL 511 ||| 0x80000000 ∧ (s.begin 0).on f_CH_MEAS_CTL_run 511 = false ∧
      (s.begin 0).chanPowered 511 = true ∧ ((s.begin 0).seqOf 511).lpUntil = none ∧
      (s.begin 0).shielded (regAddr .CH_MEAS_SEQ 511 63) = 0 ∧ mRefused 0x003F0102 = false ∧ mRefused 0x00410007 = true ∧
      ((s.begin 0).rd .CH_MEAS_SEQ 511 63 ^^^ 0x00410007) &&& rwMask .CH_MEAS_SEQ ≠ 0) ∧
    (∀ q ∈ [{ entry15 with apEnd := 0 }, entry15], let s := seqState 127999 q forceV [(.CH_MEAS_CTL, 0x80000000)];
      s.canonical ∧ s.powered ∧ (s.begin 0).on f_CH_MEAS_CTL_run 511 = true ∧
        (s.begin 0).on f_CH_MEAS_CTL_low_power 511 = ((s.begin 0).seqOf 511).lp ∧ 0 = (s.begin 0).rd .CH_MEAS_CTL 511 &&& 0x7FFFFFFF ∧
        (((s.begin 0).seqOf 511).apEnd = 0 ∨
          (s.begin 0).now < ((s.begin 0).seqOf 511).apStart + (if ((s.begin 0).seqOf 511).lp then 256000 else 64000))) ∧
    (let s := chan 0 { forceV with range := 3 } [(.CH_MEAS_CTL, 0x02000000)];
      s.canonical ∧ s.powered ∧ 0 = (s.begin 0).rd .CH_MEAS_CTL 511 &&& 0xFDFFFFFF ∧ (s.begin 0).on f_CH_MEAS_CTL_autorange 511 = true ∧
        (s.begin 0).boosterBound 511 = false ∧ ((s.begin 0).forceOf 511).st = .forcingV ∧ ((s.begin 0).forceOf 511).mode = false ∧
        ((s.begin 0).forceOf 511).steps = [] ∧ ((s.begin 0).forceOf 511).range ≠ (s.begin 0).topOf 511) := by decide

/-- The hypotheses of EntriesTriggersAndRestarts are met, at the end of the aperture of the last entry. -/
theorem test_witness_EntriesTriggersAndRestarts :
    (let s := seqState 320000 entry15 forceV [(.CH_MEAS_CTL, 0x80000000)];
      s.canonical ∧ s.powered ∧ ((s.begin 0).seqOf 511).word = 0x003F0102 ∧ ((s.begin 0).seqOf 511).running = true ∧
        ((s.begin 0).seqOf 511).entry < 16 ∧ ((s.begin 0).seqOf 511).apEnd ≠ 0 ∧ ((s.begin 0).seqOf 511).apEnd ≤ (s.begin 0).now ∧
        [-131071, 0, 0, 131070].length = mCount 0x003F0102 ((s.begin 0).seqOf 511).lp ∧ (∀ c ∈ [-131071, 0, 0, 131070], -131072 < c ∧ c < 131071) ∧
        mDest 0x003F0102 < 0x40 ∧ mMark 0x003F0102 = false ∧ mSource 0x003F0102 ≠ 0 ∧
        mSource 0x003F0102 ≠ b2n ((s.begin 0).forceOf 511).mode ∧ ((s.begin 0).seqOf 511).cap = some (7, false, ⟨1, 2, 3⟩) ∧
        ((s.begin 0).seqOf 511).stale = false ∧ ((s.begin 0).seqOf 511).staleEnd ≤ ((s.begin 0).seqOf 511).apStart ∧
        (s.begin 0).on f_CH_MEAS_CTL_low_power 511 = ((s.begin 0).seqOf 511).lp ∧
        (s.begin 0).fld f_CH_MEAS_CTL_profile 511 = ((s.begin 0).seqOf 511).profile ∧
        ((s.begin 0).sliceOf ((s.begin 0).entrySlice 511)).fifo.length < 15 ∧ (s.begin 0).que.overStuff ≠ some 511) ∧
    (let s := State.reset; ((s.begin 0).seqOf 511).apEnd = 0 ∧ s.answers 0x1020 = true ∧ (s.begin 0).shielded (regAddr .CH_MEAS_TRIG 511 0) = 0 ∧
      bit 1 0 = true ∧ (s.begin 0).on f_CH_RES_CTL_pace 511 = false ∧ ((s.begin 0).seqOf 511).pend = none) ∧
    (let s := seqState 100000 { entry15 with start := 64000, pend := some (100000, true) } forceV [(.CH_MEAS_CTL, 0x80000000)];
      s.canonical ∧ s.powered ∧ ((s.begin 0).seqOf 511).pend = some (100000, true) ∧ ((s.begin 0).seqOf 511).running = true ∧
        ((s.begin 0).seqOf 511).lpUntil = none ∧ ((s.begin 0).seqOf 511).start < 100000 ∧ 100000 ≤ (s.begin 0).now ∧
        ((s.begin 0).seqOf 511).apEnd ≠ 0 ∧ mDest ((s.begin 0).seqOf 511).word ≤ 0x40) := by decide

/-- The hypotheses of StartsPrimesAndStops are met. -/
theorem test_witness_StartsPrimesAndStops :
    (let s := engState 0 Eng.reset forceV []; s.canonical ∧ s.powered ∧ s.answers 0x1020 = true ∧
      (s.begin 0).shielded (regAddr .CH_SWEEP_CTL 511 0) = 0 ∧ ((s.begin 0).engOf 511).stopCycle ≠ some (s.begin 0).cycle ∧
      ((s.begin 0).engOf 511).state = .idle ∧ (s.begin 0).startBarred 511 = false ∧
      (s.begin 0).memQuiet ∧ ((s.begin 0).listDesc ((s.begin 0).fld f_CH_SWEEP_LIST_list 511)).1 = true ∧
      0 < ((s.begin 0).listDesc ((s.begin 0).fld f_CH_SWEEP_LIST_list 511)).2.2 ∧
      (s.begin 0).frameMissed ((s.begin 0).fld f_CH_SWEEP_AT_frame 511) = false ∧
      (0x80000000 ^^^ (s.begin 0).rd .CH_SWEEP_CTL 511) &&& 0x1F000000 = 0) ∧
    (let s := engState 0 Eng.reset forceV [(.CH_SWEEP_CTL, 0x10000000)]; s.canonical ∧ s.powered ∧ (s.begin 0).startBarred 511 = false ∧
      bit 0x90000000 28 = true ∧ (0x90000000 ^^^ (s.begin 0).rd .CH_SWEEP_CTL 511) &&& 0x1F000000 = 0) ∧
    (let s := { engState 0 Eng.reset forceV [] with hbm := [(3, 0x80)] }; s.canonical ∧ s.powered ∧ (s.begin 0).startBarred 511 = false ∧
      ((s.begin 0).listDesc ((s.begin 0).fld f_CH_SWEEP_LIST_list 511)).1 = true ∧
      ((s.begin 0).listDesc ((s.begin 0).fld f_CH_SWEEP_LIST_list 511)).2.2 = 0) ∧
    (let s := { engState 0 Eng.reset forceV [] with hbm := [] }; s.canonical ∧ s.powered ∧ (s.begin 0).startBarred 511 = false ∧
      ((s.begin 0).engOf 511).state = .idle ∧ ((s.begin 0).listDesc ((s.begin 0).fld f_CH_SWEEP_LIST_list 511)).1 = false) ∧
    (let s := engState 65536 { Eng.reset with state := .primed, stop := some (4, .at 0) } forceV [];
      s.canonical ∧ s.powered ∧ ((s.begin 0).forceOf 511).frameAt + 65536 ≤ (s.begin 0).now ∧ (s.begin 0).chanPowered 511 = true ∧
        ((s.begin 0).engOf 511).state = .primed ∧ ((s.begin 0).engOf 511).plan = [] ∧ ((s.begin 0).engOf 511).cur = none ∧
        ((s.begin 0).engOf 511).marks = [] ∧ ((s.begin 0).engOf 511).stop = some (4, .at 0) ∧
        (s.begin 0).on f_CH_SWEEP_CTL_stop_zero 511 = false) ∧
    (let s := engState 0 { Eng.reset with state := .primed, len := 3, buf := [entryOf 1 100 9 0 0] } forceV []; s.canonical ∧ s.powered ∧
      (s.begin 0).memQuiet ∧ ((s.begin 0).listDesc ((s.begin 0).fld f_CH_SWEEP_LIST_list 511)).1 = true ∧ ((s.begin 0).engOf 511).stop = none ∧
      ((s.begin 0).engOf 511).state = .primed ∧ ((s.begin 0).engOf 511).priming = none ∧
      ((s.begin 0).engOf 511).list = (s.begin 0).fld f_CH_SWEEP_LIST_list 511 ∧
      ((s.begin 0).engOf 511).next = (s.begin 0).fld f_CH_SWEEP_ENTRY_entry 511 ∧ ((s.begin 0).engOf 511).next < ((s.begin 0).engOf 511).len ∧
      (s.begin 0).startBarred 511 = false ∧ ((s.begin 0).engOf 511).entry? ((s.begin 0).engOf 511).next = some (entryOf 1 100 9 0 0) ∧
      sOp (entryOf 1 100 9 0 0) = 1 ∧ sAnc (entryOf 1 100 9 0 0) = false ∧ sSpan (entryOf 1 100 9 0 0) ≠ 3 ∧ sRange (entryOf 1 100 9 0 0) ≠ 7 ∧
      ((s.begin 0).engOf 511).startCycle ≠ some (s.begin 0).cycle) ∧
    (State.reset.canonical ∧ (State.reset.begin 0).startBarred 511 = true ∧ ((State.reset.begin 0).engOf 511).state = .idle ∧
      bit 0x80000000 31 = true ∧ bit 0x80000000 30 = false ∧ bit 0x20000000 31 = false ∧ bit 0x20000000 30 = false ∧ bit 0x20000000 29 = true ∧
      bit 0x40000000 30 = true ∧ (0x60000000 ^^^ (State.reset.begin 0).rd .CH_SWEEP_CTL 511) &&& 0x1F000000 = 0) ∧
    (∀ st ∈ [EngState.running, .starved, .armed], let s := engState 0 { Eng.reset with state := st } forceV [];
      s.canonical ∧ s.powered ∧ ((s.begin 0).engOf 511).state = st ∧ ((s.begin 0).engOf 511).stop = none ∧
        ((s.begin 0).engOf 511).startCycle ≠ some (s.begin 0).cycle) := by
  refine ⟨?_, ?_, ?_, ?_, ?_, ?_, ?_, ?_⟩ <;> decide

/-- The hypotheses of PrimingStartInstantsAndPrefetch are met. -/
theorem test_witness_PrimingStartInstantsAndPrefetch :
    (let s := engState 0 { Eng.reset with priming := some .prime, len := 3 } forceV []; s.canonical ∧ s.powered ∧
      ((s.begin 0).engOf 511).priming = some .prime) ∧
    (((State.reset.begin 0).engOf 511).priming = none ∧ ((State.reset.begin 0).engOf 511).fetch = none) ∧
    (∀ f ∈ [0, 1], let s := { engState 0 { Eng.reset with state := .armed, frame := some f, plan := [execOf (entryOf 1 100 9 0 0)] } forceV [] with
        tb := { Tb.reset with ready := true } };
      s.canonical ∧ s.powered ∧ ((s.begin 0).engOf 511).state = .armed ∧ ((s.begin 0).engOf 511).frame = some f ∧
        (s.begin 0).came (.raster ⟨f, 0, 0⟩) = decide (f = 0) ∧ ((s.begin 0).engOf 511).priming = none ∧ ((s.begin 0).engOf 511).plan ≠ []) ∧
    (let s := { engState 0 { Eng.reset with state := .armed, frame := some 0, priming := some .startAt } forceV [] with
        tb := { Tb.reset with ready := true } };
      s.canonical ∧ s.powered ∧ (s.begin 0).came (.raster ⟨0, 0, 0⟩) = true ∧ ((s.begin 0).engOf 511).priming ≠ none) ∧
    (let s := { engState 0 { Eng.reset with state := .starved, frame := some 0 } forceV [] with tb := { Tb.reset with ready := true } };
      s.canonical ∧ s.powered ∧ ((s.begin 0).engOf 511).frame = some 0 ∧ ((s.begin 0).engOf 511).state = .starved ∧
        (s.begin 0).came (.raster ⟨0, 0, 0⟩) = true) ∧
    (let s := engState 0 { Eng.reset with state := .running, len := 3, fetch := some (0, 3) } forceV []; s.canonical ∧ s.powered ∧
      ((s.begin 0).engOf 511).fetch = some (0, 3) ∧ 0 = ((s.begin 0).engOf 511).bufLo + ((s.begin 0).engOf 511).buf.length ∧
      ((s.begin 0).engOf 511).state = .running) ∧
    (let s := { engState 0 { Eng.reset with state := .starved, base := 16, len := 3, fetch := some (0, 3) } forceV [] with hbm := [(31, 0x10)] };
      s.canonical ∧ s.powered ∧ ((s.begin 0).engOf 511).fetch = some (0, 3) ∧ ((s.begin 0).engOf 511).buf = [] ∧ ((s.begin 0).engOf 511).next = 0 ∧
        ((s.begin 0).engOf 511).cur = none ∧ ((s.begin 0).engOf 511).state = .starved ∧ ((s.begin 0).engOf 511).stop = none ∧
        0 + 3 ≤ ((s.begin 0).engOf 511).len ∧ (s.begin 0).memQuiet ∧ ((s.begin 0).engOf 511).frame = none ∧ ((s.begin 0).engOf 511).marks = [] ∧
        (let w := (s.begin 0).listEntry ((s.begin 0).engOf 511).base 0; sOp w = 1 ∧ sAnc w = false ∧ sSpan w ≠ 3 ∧ sRange w ≠ 7) ∧
        ((s.begin 0).engOf 511).plan = [] ∧ 0 = ((s.begin 0).engOf 511).bufLo) := by
  refine ⟨?_, ?_, ?_, ?_, ?_, ?_, ?_⟩ <;> decide

/-- A FORCE_V execution of two frames and `r` repetitions from instant 0, with `l` after it in the list. -/
def lookState (u r : Nat) (l : List (BitVec 128)) : State := engState u (engRuns (execOf (entryOf 1 100 2 r 0)) (entryOf 1 100 2 r 0 :: l)) forceV []

/-- The same with raster time running at a million instants a line, in line 1. -/
def lookAnchored (l : List (BitVec 128)) : State :=
  { lookState 54272 0 l with tb := { Tb.reset with state := .locked, ready := true, raster := ⟨0, 1, 0, 0⟩, period := 1000000 } }.wr .TB_LINES_PER_FRAME 10

/-- The hypotheses of LookAheadPoints are met: 300 ns before the end of the execution and one event cycle before that, for a repetition, an unanchored and
an anchored entry, a late one, and a mark before END. -/
theorem test_witness_LookAheadPoints :
    (∀ u ∈ [54271, 54272], ∀ r ∈ [0, 1], let w := entryOf 2 7 1 0 0; let s := lookState u r [w]; let x := execOf (entryOf 1 100 2 r 0);
      s.canonical ∧ s.powered ∧ ((s.begin 0).engOf 511).state = .running ∧ ((s.begin 0).engOf 511).stop = none ∧
        ((s.begin 0).engOf 511).stall = false ∧ ((s.begin 0).engOf 511).plan = [] ∧ ((s.begin 0).engOf 511).frame = none ∧
        ((s.begin 0).engOf 511).marks = [] ∧ x.lookDone = false ∧ x.start = .at 0 ∧ x.endAt = none ∧
        ((s.begin 0).engOf 511).cur = some x ∧ sOp x.word = 1 ∧ sDwell x.word = 2 ∧ sAnc x.word = false ∧ sRepeat x.word = r ∧
        (s.begin 0).cycle = (0 + 2 * 65536 - 76800) / 256 - b2n (decide (u = 54271)) ∧ x.idx + 1 < ((s.begin 0).engOf 511).len ∧
        ((s.begin 0).engOf 511).entry? (x.idx + 1) = some w ∧ sOp w = 2 ∧ sSpan w ≠ 3 ∧ sRange w ≠ 7 ∧ sAnc w = false) ∧
    (∀ a ∈ [5 * 2 ^ 52, 2 ^ 52 + 2 ^ 36], let w := entryOf 1 7 1 0 (anchored + a); let s := lookAnchored [w];
      s.canonical ∧ s.powered ∧ ((s.begin 0).engOf 511).entry? 1 = some w ∧ sAnc w = true ∧ sForm w ≠ 3 ∧ s.dev.forerunner = false ∧
        (s.begin 0).tb.ready = true ∧ (s.begin 0).fld f_CH_SWEEP_CTL_late_policy 511 = 0 ∧
        decide ((s.begin 0).lateBy (s.begin 0).cycleArm ((s.begin 0).anchorTarget (s.begin 0).cycleArm w) ≤ 0) = decide (a = 5 * 2 ^ 52)) ∧
    (let w := entryOf 6 77 0 0 0; let s := lookState 54272 0 [w, 0]; s.canonical ∧ s.powered ∧ 0 + 2 < ((s.begin 0).engOf 511).len ∧
      ((s.begin 0).engOf 511).entry? 1 = some w ∧ sOp w = 6 ∧ sAnc w = false ∧ ((s.begin 0).engOf 511).entry? 2 = some 0 ∧ sOp 0 = 0 ∧ sValue 0 % 2 = 0) := by
  decide

/-- The hypotheses of AdvancesAndTimeouts are met: with an advance and without, for a WAIT_ANCHOR and a mould, and about the instant of a timeout. -/
theorem test_witness_AdvancesAndTimeouts :
    (∀ k ∈ [0, 1], ∀ p ∈ [(4, 0), (5, 2 * 2 ^ 12)], let x := execOf (entryOf p.1 p.2 0 0 0);
      let s := { engState 0 (engRuns x []) forceV [] with evm := { Evm.reset with pend := Table.put 0 (inAdvance 511) k [] } };
      s.canonical ∧ s.powered ∧ ((s.begin 0).engOf 511).state = .running ∧ ((s.begin 0).engOf 511).stopCycle ≠ some (s.begin 0).cycle ∧
        ((s.begin 0).engOf 511).cur = some x ∧ x.endAt = none ∧ (s.begin 0).pendOf (inAdvance 511) = k ∧
        ((s.begin 0).engOf 511).advCycle ≠ some (s.begin 0).cycle ∧ sOp x.word = p.1 ∧ sAnc x.word = false ∧
        (sValue x.word = 0 ∨ sPlay x.word = 2 ∧ x.placed < x.mLen * (sRepeat x.word + 1))) ∧
    (∀ u ∈ [65535, 65536], let x := execOf (entryOf 4 1 0 0 0); let s := engState u (engRuns x []) forceV [];
      s.canonical ∧ s.powered ∧ ((s.begin 0).engOf 511).cur = some x ∧ sOp x.word = 4 ∧ sAnc x.word = false ∧ sValue x.word ≠ 0 ∧
        x.start = .at 0 ∧ x.timedOut = false ∧ (s.begin 0).now = u ∧ 0 + sValue x.word * 65536 = 65536) := by decide

/-- The hypotheses of ExecutionsAndMouldPoints are met, at the instant of the start or point and one before it. -/
theorem test_witness_ExecutionsAndMouldPoints :
    (∀ u ∈ [65535, 65536], ∀ op ∈ [1, 3], let x := { execOf (entryOf op 100 1 0 (2 ^ 80 * 0x7F7F)) with start := .at 65536 };
      let s := engState u { Eng.reset with state := .running, len := 3, plan := [x] } forceV [(.CH_CALENDER, 0)];
      s.canonical ∧ s.powered ∧ ((s.begin 0).engOf 511).state = .running ∧ ((s.begin 0).engOf 511).stop = none ∧
        ((s.begin 0).engOf 511).stall = false ∧ ((s.begin 0).engOf 511).marks = [] ∧ ((s.begin 0).forceOf 511).st = .forcingV ∧
        ((s.begin 0).forceOf 511).mode = false ∧ ((s.begin 0).forceOf 511).steps = [] ∧ ((s.begin 0).forceOf 511).disabling = false ∧
        (s.begin 0).on f_CH_CTL_enable 511 = true ∧ (s.begin 0).on f_CH_MEAS_CTL_autorange 511 = false ∧
        (s.begin 0).on f_CH_CALENDER_enable 511 = false ∧ ((s.begin 0).engOf 511).plan = [x] ∧ sOp x.word = op ∧ sPsel x.word = false ∧
        sTrig x.word = false ∧ sFast x.word = false ∧ sSpan x.word ≠ 3 ∧ sRange x.word < 6 ∧ sSpan x.word = ((s.begin 0).forceOf 511).span ∧
        sRange x.word = ((s.begin 0).forceOf 511).range ∧ ((s.begin 0).forceOf 511).fast = false) ∧
    (∀ u ∈ [65535, 65536], ∀ rep ∈ [0, 1], let x := { execOf (entryOf 5 (3 * 2 ^ 14) 0 rep 0) with points := [(1, .at 65536)], mCodes := [some 5, some (-7)] };
      let s := engState u (engRuns x []) forceV [(.CH_CALENDER, 0)];
      s.canonical ∧ s.powered ∧ ((s.begin 0).engOf 511).cur = some x ∧ x.mLen ≤ 256 ∧ x.mCodes.getD (1 % x.mLen) none = some (-7) ∧
        sOp x.word = 5 ∧ sPlay x.word = 0 ∧ x.start = .at 0 ∧ sPointTrig x.word = false ∧ sFast x.word = false ∧ (ForceCmd.ofWord ((s.begin 0).rd .CH_FORCE_SET 511)).mode = false ∧
        (ForceCmd.ofWord ((s.begin 0).rd .CH_FORCE_SET 511)).span ≠ 3 ∧ (ForceCmd.ofWord ((s.begin 0).rd .CH_FORCE_SET 511)).range < 6 ∧
        (ForceCmd.ofWord ((s.begin 0).rd .CH_FORCE_SET 511)).span = ((s.begin 0).forceOf 511).span ∧
        (ForceCmd.ofWord ((s.begin 0).rd .CH_FORCE_SET 511)).range = ((s.begin 0).forceOf 511).range ∧
        (s.begin 0).on f_CH_CALENDER_enable 511 = false) := by decide

/-- The hypotheses of PushesIntoFelts are met: a push, a hold, a drop for want of a credit and of an ACTIVE felt, an empty FIFO in STREAM and in PACED, and the
last agent with a credit and without. -/
theorem test_witness_PushesIntoFelts :
    (∀ p ∈ [(active [], 1, false), (active [], 0, false), (active [], 0, true), (Felt.reset, 0, false)],
      let s := stuffState p.1 [(539 * 64 + 63, ⟨p.2.1, 0, 0, 0, 0⟩)] false p.2.2 [⟨vatItem.item, 63, 0⟩];
      s.canonical ∧ s.powered ∧ 539 = (s.begin 0).sliceIdx 511 ∧ ((s.begin 0).resOf 511).oldSlice = none ∧
        ((s.begin 0).resOf 511).waiting = false ∧ ((s.begin 0).sliceOf 539).readCycle ≠ some (s.begin 0).cycle ∧
        (s.begin 0).que.overFelt = none ∧ (s.begin 0).on f_CH_RES_CTL_pace 511 = false ∧
        ((s.begin 0).sliceOf 539).fifo = [⟨vatItem.item, 63, 0⟩] ∧ 0 < (s.begin 0).cycle ∧ ((s.begin 0).feltOf 63).st = p.1.st ∧
        ((s.begin 0).creditOf 539 63).vat = p.2.1 ∧ ((s.begin 0).creditOf 539 63).usable (s.begin 0).cycle = p.2.1 ∧
        (s.begin 0).on f_CH_RES_CTL_nocredit 511 = p.2.2 ∧ ((s.begin 0).feltOf 63).accepts (s.begin 0).cycle = decide (p.1.st = .active)) ∧
    (let s := stuffState (active []) [(539 * 64 + 63, ⟨1, 0, 0, 0, 0⟩)] true false [⟨vatItem.item, 63, 0⟩]; s.canonical ∧ s.powered ∧
      (s.begin 0).on f_CH_RES_CTL_pace 511 = true ∧ ((s.begin 0).resOf 511).paced = [256] ∧ 256 ≤ (s.begin 0).now ∧ 0 < 256 / 256 ∧
      ((s.begin 0).sliceOf 539).fifo = [⟨vatItem.item, 63, 0⟩] ∧ ((s.begin 0).feltOf 63).accepts (s.begin 0).cycle = true) ∧
    (∀ pace ∈ [true, false], let s := stuffState (active []) [(539 * 64 + 63, ⟨1, 0, 0, 0, 0⟩)] pace false [];
      s.canonical ∧ s.powered ∧ ((s.begin 0).sliceOf 539).fifo = [] ∧ (s.begin 0).on f_CH_RES_CTL_pace 511 = pace ∧
        ((s.begin 0).resOf 511).paced = (if pace then [256] else []) ∧ 256 ≤ (s.begin 0).now ∧
        ((s.begin 0).resOf 511).lastEntry = ⟨vatItem.item, 63, 0⟩ ∧ ((s.begin 0).feltOf 63).st = .active ∧ 0 < ((s.begin 0).creditOf 539 63).vat) ∧
    (∀ k ∈ [0, 1], let s := (feltState 0 (active []) [(583 * 64 + 63, ⟨k, 0, 0, 0, 0⟩)] []).wr .QUE_AGENT_CTL 0xB800003F 39;
      let u := { s with que := { s.que with agents := [(39, [vatItem.item])] } };
      u.canonical ∧ u.powered ∧ (u.begin 0).backlog 39 = [vatItem.item] ∧ 63 = (u.begin 0).fld f_QUE_AGENT_CTL_felt 39 ∧
        (u.begin 0).on f_QUE_AGENT_CTL_enable 39 = true ∧ ((u.begin 0).feltOf 63).st = .active ∧ Table.rising (u.begin 0).que.agents = true ∧
        ((u.begin 0).creditOf (544 + 39) 63).vat = k ∧ ((u.begin 0).creditOf (544 + 39) 63).usable (u.begin 0).cycle = k ∧
        ((u.begin 0).feltOf 63).accepts (u.begin 0).cycle = true) ∧
    ((State.reset.begin 0).backlog 39 = [] ∧ isProducer (.agent 39) = true) := by
  refine ⟨?_, ?_, ?_, ?_, ?_⟩ <;> decide

/-- The hypotheses of CreditsAreAskedAndGranted are met by the last agent. -/
theorem test_witness_CreditsAreAskedAndGranted :
    (let s := (feltState 0 (active []) [] []).wr .QUE_AGENT_CTL 0x8000003F 39; s.canonical ∧ s.powered ∧
      (s.begin 0).writesFelt 583 63 = true ∧ ((s.begin 0).creditOf 583 63).held < (s.begin 0).batch ∧ (s.begin 0).que.asks = []) ∧
    ((State.reset.begin 0).writesFelt 583 63 = false) ∧
    (∀ r ∈ [0, 100], let s := (feltState 0 (active []) [] [(.QUE_FELT_LIMIT, 3), (.QUE_FELT_RESERVE, r)]).wr .QUE_AGENT_CTL 0x8000003F 39;
      let u := { s with que := { s.que with asks := [(583 * 64 + 63, 0)] } };
      u.canonical ∧ u.powered ∧ (u.begin 0).que.asks = [(583 * 64 + 63, 0)] ∧ (u.begin 0).writesFelt 583 63 = true ∧
        ((u.begin 0).feltOf 63).st = .active ∧ (u.begin 0).creditHeld 63 = false ∧ (∀ a ∈ (u.begin 0).que.asks, 583 ≤ a.1 / 64) ∧
        3 = min (u.begin 0).batch ((u.begin 0).fld f_QUE_FELT_LIMIT_items 63 - (u.begin 0).feltAlloc 63) ∧
        (decide ((u.begin 0).vatAlloc 63 + (u.begin 0).returnedVat 63 + 3 ≤ (u.begin 0).reserve 63) = decide (r = 100))) ∧
    (∀ p ∈ [(0, 0), (0x80000000, 0), (0x80000000, 1)],
      let s := (((feltState 0 (active []) [] [(.QUE_FELT_LIMIT, 3)]).wr .QUE_AGENT_CTL 0x8000003F 39).wr .QUE_FELT_RESERVE 1032192 0);
      let v := (s.wr .QUE_CTL (BitVec.ofNat 32 p.1)).wr .QUE_SPILL_SIZE (BitVec.ofNat 32 p.2);
      let u := { v with que := { v.que with asks := [(583 * 64 + 63, 0)] } };
      u.canonical ∧ u.powered ∧ (u.begin 0).reserve 63 < (u.begin 0).vatAlloc 63 + (u.begin 0).returnedVat 63 + 3 ∧
        (u.begin 0).sharedUsable < (u.begin 0).fld f_QUE_CTL_spill_wm * 1024 + 3 ∧ (u.begin 0).on f_QUE_CTL_spill_en = decide (p.1 ≠ 0) ∧
        (decide (3 ≤ (u.begin 0).spillFree) = decide (p.2 = 1))) := by
  refine ⟨?_, ?_, ?_, ?_⟩ <;> decide

/-- A felt whose lane 7 holds an item, in cycle 1. -/
def popState (y : Felt) (l : List (Reg × Nat)) : State := feltState 256 y [] l

/-- The hypotheses of HostReadsOfFelts are met: an item, none, another consumer, a pop shadow held and none. -/
theorem test_witness_HostReadsOfFelts :
    (∀ l ∈ [[vatItem], []], let s := popState (active l) []; s.canonical ∧ s.powered ∧ s.answers 0x1020 = true ∧
      (s.begin 0).fld f_QUE_FELT_CTL_consumer 63 = 0 ∧ (s.begin 0).consumerHeld 63 = false ∧
      ((s.begin 0).feltOf 63).takeCycle ≠ some (s.begin 0).cycle ∧ (s.begin 0).frontLane 63 = (if l = [] then none else some 7) ∧
      ((s.begin 0).feltOf 63).lane 7 = l ∧ vatItem.place ≠ .spill ∧
      (s.begin 0).popShadow 0x1020 63 = none) ∧
    (let s := (popState (active [vatItem]) []).wr .TEST_CONSUMER_HOLD_HI 0x80000000; s.canonical ∧ s.powered ∧
      (s.begin 0).fld f_QUE_FELT_CTL_consumer 63 = 0 ∧ (s.begin 0).consumerHeld 63 = true) ∧
    (let s := popState (active []) [(.QUE_FELT_CTL, 0x10000000)]; s.canonical ∧ s.powered ∧ (s.begin 0).fld f_QUE_FELT_CTL_consumer 63 ≠ 0) ∧
    (let s := { State.reset with que := { Que.reset with popInternal := [⟨0x1020, 63, vatItem.item⟩] } };
      s.canonical ∧ s.powered ∧ (s.begin 0).popShadow 0x1020 63 = some vatItem.item) := by
  refine ⟨?_, ?_, ?_, ?_⟩ <;> decide

/-- Felt 63 streams to node 1 through port 3; six items stand in its flit. -/
def streamState (u : Nat) (l : List QItem) (c : Table Nat) : State :=
  { (feltState u { active l with burst := List.replicate 6 vatItem.item } [] [(.QUE_FELT_CTL, 0xA0000000), (.QUE_FELT_DEST, 1)]).wr .WEB_ROUTE
      0x80000003 1 with web := ⟨[(3, { Port.reset with st := .active, credits := c })], [], []⟩ }

/-- The hypotheses of CaptureAndStreamConsumers are met: a take by each consumer, a full ring, a felt held back by the web, a burst in flight, an empty felt at
1 µs and one instant before, and a write of RING_RD at the ring size and one beyond. -/
theorem test_witness_CaptureAndStreamConsumers :
    (∀ c ∈ [1, 2], let s := popState (active [vatItem]) [(.QUE_FELT_CTL, 0x80000000 + c * 2 ^ 28), (.QUE_FELT_RING_SIZE, 1)];
      s.canonical ∧ s.powered ∧ (s.begin 0).frontLane 63 = some 7 ∧ ((s.begin 0).feltOf 63).lane 7 = [vatItem] ∧ (s.begin 0).mayTake 63 = true ∧
        ((s.begin 0).feltOf 63).st = .active ∧ (s.begin 0).fld f_QUE_FELT_CTL_consumer 63 = c ∧ (s.begin 0).ringIsFull 63 = false ∧
        ((s.begin 0).feltOf 63).burst.length < 6 ∧ (s.begin 0).heldBack 63 = false ∧ ((s.begin 0).feltOf 63).inflight = []) ∧
    (let s := popState { active [vatItem] with burst := List.replicate 7 vatItem.item } [(.QUE_FELT_CTL, 0x90000000), (.QUE_FELT_RING_SIZE, 1)];
      s.canonical ∧ s.powered ∧ (s.begin 0).mayTake 63 = true ∧ (s.begin 0).ringIsFull 63 = false ∧ ((s.begin 0).feltOf 63).burst.length = 7) ∧
    (∀ l ∈ [[vatItem], []], let s := streamState 256000 l [(6, 1), (7, 1)];
      s.canonical ∧ s.powered ∧ (s.begin 0).fld f_QUE_FELT_CTL_consumer 63 = 2 ∧ (s.begin 0).streamHop 63 = some (3, 6) ∧
        (s.begin 0).heldBack 63 = false ∧ ((s.begin 0).feltOf 63).burst.length = 6 ∧
        (l = [] ∨ (s.begin 0).mayTake 63 = true ∧ (s.begin 0).frontLane 63 = some 7) ∧ (l ≠ [] ∨ ((s.begin 0).feltOf 63).depth = 0)) ∧
    (let s := popState { active [vatItem] with taken := 128 } [(.QUE_FELT_CTL, 0x90000000), (.QUE_FELT_RING_SIZE, 1)];
      s.canonical ∧ s.powered ∧ (s.begin 0).mayTake 63 = true ∧ (s.begin 0).ringIsFull 63 = true ∧ ((s.begin 0).feltOf 63).depth ≠ 0 ∧
        ((s.begin 0).feltOf 63).ringFull = false) ∧
    (let s := streamState 256 [vatItem] []; s.canonical ∧ s.powered ∧ (s.begin 0).heldBack 63 = true) ∧
    (let s := { popState { active [] with inflight := [(5, [vatItem.item])] } [(.QUE_FELT_CTL, 0x90000000), (.QUE_FELT_RING_SIZE, 1)] with
        memc := { Memc.reset with st := .service } };
      s.canonical ∧ s.powered ∧ ((s.begin 0).feltOf 63).inflight = [(5, [vatItem.item])] ∧ (s.begin 0).memc.reqs = [] ∧ (s.begin 0).memc.st = .service ∧
        0 < (s.begin 0).ringItems 63 ∧
        160 = (s.begin 0).fld f_QUE_FELT_RING_BASE_pages 63 * 4096 + 5 % 2 ^ 32 % (s.begin 0).ringItems 63 * 32 ∧
        (∀ j, j < 32 → ((s.begin 0).memAccess 2 160 32).copyAddr (160 + j) = none)) ∧
    (∀ u ∈ [255999, 256000], let s := feltState u { active [] with burst := [vatItem.item], taken := 1 } [] [(.QUE_FELT_CTL, 0x90000000)];
      s.canonical ∧ s.powered ∧ ((s.begin 0).feltOf 63).depth = 0 ∧ ((s.begin 0).feltOf 63).burst ≠ [] ∧
        (s.begin 0).fld f_QUE_FELT_CTL_consumer 63 = 1 ∧ ((s.begin 0).feltOf 63).emptyAt = 0 ∧ (s.begin 0).now = u) ∧
    (let s := popState { active [] with written := 128, taken := 128 } [(.QUE_FELT_CTL, 0x90000000), (.QUE_FELT_RING_SIZE, 1)];
      s.canonical ∧ s.powered ∧ s.answers 0x1020 = true ∧ (s.begin 0).shielded (regAddr .QUE_FELT_RING_RD 63 0) = 0 ∧
        (((s.begin 0).feltOf 63).written + 2 ^ 32 - 0) % 2 ^ 32 ≤ (s.begin 0).ringItems 63 ∧ (0xFFFFFFFF : Word) ≠ (s.begin 0).rd .QUE_FELT_RING_RD 63 ∧
        (s.begin 0).ringItems 63 < (((s.begin 0).feltOf 63).written + 2 ^ 32 - (0xFFFFFFFF : Word).toNat) % 2 ^ 32 ∧
        (s.begin 0).ringIsFull 63 = true) := by
  refine ⟨?_, ?_, ?_, ?_, ?_, ?_, ?_, ?_⟩ <;> decide

/-- A spilled item. -/
def spilled : QItem := { vatItem with place := .spill }

/-- The hypotheses of FeltStatesAndSpill are met. -/
theorem test_witness_FeltStatesAndSpill :
    (let s := { popState (active [vatItem, spilled, vatItem]) [] with memc := { Memc.reset with st := .service } };
      s.canonical ∧ s.powered ∧ ((s.begin 0).feltOf 63).lane 7 = [vatItem] ++ spilled :: [vatItem] ∧
        (∀ r, r < 7 → ((s.begin 0).feltOf 63).lane r = []) ∧ ((s.begin 0).feltOf 63).lanes.length = 1 ∧ ((s.begin 0).feltOf 63).inPlace .refill ≤ 192 ∧
        ((s.begin 0).feltOf 63).st = .active ∧ (s.begin 0).memQuiet ∧ (s.begin 0).srEntering = false ∧
        ((s.begin 0).feltOf 63).depth ≠ 0 ∧ Table.rising ((s.begin 0).feltOf 63).lanes = true ∧
        ((s.begin 0).memRead (portMaster 5) 5 ((s.begin 0).spillAddr 0) 32 []).1.feltOf 63 = (s.begin 0).feltOf 63 ∧
        (let r := (s.begin 0).memRead (portMaster 5) 5 ((s.begin 0).spillAddr 0) 32 [0]
         r.2 ≠ [] ∧ r.1.feltOf 63 = (s.begin 0).feltOf 63 ∧
          ((((r.1.setFelt 63 (((s.begin 0).feltOf 63).setLane 7 [vatItem, vatItem])).giveBack 63 true 1).fault 0x605 2 (.felt 63) 0x111B).feltOf 63).st
            = .active)) ∧
    (∀ u ∈ [255999, 256000], let s := feltState u { active [vatItem] with timer := some 0 } [] [(.QUE_FELT_CTL, 0x80200000)];
      s.canonical ∧ s.powered ∧ (s.begin 0).tailDue 63 = decide (u = 256000) ∧ ((s.begin 0).feltOf 63).burst = [] ∧ (s.begin 0).fld f_QUE_FELT_CTL_consumer 63 = 0) ∧
    (∀ c ∈ [0, 1], let s := { popState (active []) [] with que := { Que.reset with wmDue := [(31, c)] } };
      s.canonical ∧ s.powered ∧ (s.begin 0).que.wmDue = [(31, c)] ∧ (s.begin 0).cycle = 1 ∧ (31, c) ∉ ([] : List (Nat × Nat))) ∧
    (∀ st ∈ [FeltState.off, .drained, .draining], let s := popState { Felt.reset with st := st } [];
      s.canonical ∧ s.powered ∧ s.answers 0x1020 = true ∧ (s.begin 0).shielded (regAddr .QUE_FELT_CTL 63 0) = 0 ∧
        (0x80000000 ^^^ (s.begin 0).rd .QUE_FELT_CTL 63) &&& 0x7FFFFFFF = 0 ∧ bit 0x80000000 31 = true ∧
        (s.begin 0).on f_QUE_FELT_CTL_enable 63 = false ∧ (s.begin 0).fld f_QUE_FELT_CTL_consumer 63 ≠ 1 ∧ ((s.begin 0).feltOf 63).st = st ∧
        ((s.begin 0).feltOf 63).closing = none ∧ ((s.begin 0).feltOf 63).depth = 0 ∧ ((s.begin 0).feltOf 63).burst = [] ∧
        ((s.begin 0).feltOf 63).inflight = []) ∧
    (let s := popState (active [vatItem]) [(.QUE_FELT_CTL, 0x80000000)]; s.canonical ∧ s.powered ∧ bit 0 31 = false ∧
      (0 ^^^ (s.begin 0).rd .QUE_FELT_CTL 63) &&& 0x7FFFFFFF = 0 ∧ (s.begin 0).on f_QUE_FELT_CTL_enable 63 = true ∧
      ((s.begin 0).feltOf 63).st = .active) := by
  refine ⟨?_, ?_, ?_, ?_, ?_⟩ <;> decide

/-- Routing channel 255 is granted to the cores, with `ctl` in service and the targets 6 and 7 as given. -/
def rcState (ctl t6 t7 : Nat) (x : Evm) : State :=
  let s := (setRegs 255 [(.EVM_RC_OWNER, 0x40000000), (.EVM_RC_CTL, ctl)] (lit State.reset))
  { (s.wr .EVM_RC_TARGET (BitVec.ofNat 32 t6) 255 6).wr .EVM_RC_TARGET (BitVec.ofNat 32 t7) 255 7 with evm := x, now := 256 }

/-- The hypotheses of FiringARoutingChannel are met: a firing of the highest Held input, a channel that is disabled or has fired, and another requester. -/
theorem test_witness_FiringARoutingChannel :
    (∀ k ∈ [0, 14], let s := rcState 0x80000FFF 0 (0x80000000 + 1783) { Evm.reset with pend := [(1783, k)] };
      s.canonical ∧ s.powered ∧ s.answers 0x1000 = true ∧ (s.begin 0).shielded (regAddr .EVM_RC_CTL 255 0) = 0 ∧ bit 0xC0000FFF 30 = true ∧
        (s.begin 0).rcGranted 0x1000 255 = true ∧ bit (((s.begin 0).rcState 255).headD 0) 31 = true ∧
        bit (((s.begin 0).rcState 255).headD 0) 26 = false ∧ bit (((s.begin 0).rcState 255).headD 0) 28 = false ∧ (s.begin 0).domainOn 55 = true ∧
        ((s.begin 0).rcDynOf 255).lastFire ≠ some (s.begin 0).cycle ∧
        (∀ k, k < 8 → bit (((s.begin 0).rcState 255).getD (k + 1) 0) 31 = decide (k = 7)) ∧
        bits (((s.begin 0).rcState 255).getD (7 + 1) 0) 0 11 = 1783 ∧ inputHeld 1783 = true ∧ (s.begin 0).inputOn 1783 = true ∧
        (s.begin 0).pendOf 1783 = k) ∧
    (let s := rcState 0 0 0 Evm.reset; s.canonical ∧ s.powered ∧ (s.begin 0).rcGranted 0x1000 255 = true ∧
      bit (((s.begin 0).rcState 255).headD 0) 31 = false) ∧
    (let s := rcState 0x80000FFF 0 0 { Evm.reset with rcs := [(255, { RcDyn.reset with lastFire := some 1 })] }; s.canonical ∧ s.powered ∧
      ((s.begin 0).rcDynOf 255).lastFire = some (s.begin 0).cycle ∧ s.answers 0x1020 = true ∧ (s.begin 0).rcGranted 0x1020 255 = false) := by
  refine ⟨?_, ?_, ?_⟩ <;> decide

/-- The hypotheses of StagingAndCommits are met: nothing staged, a commit that is taken and one with an input in two targets. -/
theorem test_witness_StagingAndCommits :
    ∀ t6 ∈ [0x80000000 + 4, 0x80000000 + 5], let s := rcState 0x0FFF t6 (0x80000000 + 5) Evm.reset
      s.canonical ∧ s.powered ∧ s.answers 0x1000 = true ∧ (s.begin 0).rcGranted 0x1000 255 = true ∧ Table.rising (s.begin 0).evm.staged = true ∧
        (s.begin 0).boot.amend.shieldAt ≠ (s.begin 0).cycle ∧ bit 0x80000FFF 30 = false ∧ bit 0x80000FFF 29 = false ∧
        bit 0xA0000FFF 30 = false ∧ bit 0xA0000FFF 29 = true ∧
        ((s.begin 0).stagedOr .EVM_RC_CTL 255 0 ^^^ (s.begin 0).rd .EVM_RC_CTL 255) &&& ~~~ 0x1BC00FFF = 0 ∧
        ((s.begin 0).rcBad (rcOpen (s.begin 0) 255)
          ((((s.begin 0).rd .EVM_RC_CTL 255 &&& ~~~ 0x9FC00FFF) ||| (0xA0000FFF &&& 0x9FC00FFF)) ::
            (List.range 8).map (fun j => (s.begin 0).stagedOr .EVM_RC_TARGET 255 j) ++ [(s.begin 0).stagedOr .EVM_RC_FAR_OFS 255 0])
          = decide (t6 = 0x80000000 + 5)) := by decide

def evmState (u : Nat) (x : Evm) (l : List (Reg × Nat)) (i : Nat) : State := { setRegs i l (lit State.reset) with now := u, evm := x }

/-- The hypotheses of SingleClassDeliveriesAndReEntries are met: the last EVIO output and injection input, with a firing pending and without, and one
delivered in the event cycle. -/
theorem test_witness_SingleClassDeliveriesAndReEntries :
    (let s := evmState 0 { Evm.reset with pend := [(1615, 1)], reentry := [⟨1, 1, none, 0⟩, ⟨1, 1, none, 1⟩] } [(.EVM_EVIO_CTL, 0x80000000)] 15;
      s.canonical ∧ s.powered ∧ Table.rising (s.begin 0).evm.served = true ∧ Table.rising (s.begin 0).evm.carried = true ∧
        (s.begin 0).pendOf 1615 ≠ 0 ∧ (Table.get (0, 0) 1615 (s.begin 0).evm.served).1 ≠ (s.begin 0).cycle + 1 ∧ (s.begin 0).evioDrives 15 = true) ∧
    (let s := evmState 0 { Evm.reset with pend := [(1615, 1)], served := [(1615, 1, 1)] } [] 15; s.canonical ∧ s.powered ∧
      (Table.get (0, 0) 1615 (s.begin 0).evm.served).1 = (s.begin 0).cycle + 1 ∧ (s.begin 0).pendOf 1614 = 0 ∧ inputSingle 0 = false) ∧
    (∀ c ∈ [1, 5], let s := { evmState 0 { Evm.reset with pend := [(1767, 1)] } [(.FLT_INJ_CTL, c * 2 ^ 26 + 0x100)] 15 with
        dev := { Dev.reset with test := true } };
      s.canonical ∧ s.powered ∧ (s.begin 0).pendOf 1767 ≠ 0 ∧ s.dev.test = true ∧ (s.begin 0).fld f_FLT_INJ_CTL_class 15 = c ∧
        scopeOf ((s.begin 0).fld f_FLT_INJ_CTL_scope 15) ((s.begin 0).fld f_FLT_INJ_CTL_index 15) ≠ none ∧
        faultCodes.contains ((s.begin 0).fld f_FLT_INJ_CTL_code 15) = true ∧ Table.get [] 1767 (s.begin 0).evm.carried = []) := by
  refine ⟨?_, ?_, ?_⟩ <;> decide

def farState (member ready : Bool) (x : Evm) : State :=
  { (evmState 256 x [(.EVM_FAR_GROUP, b2n member * 2 ^ 31), (.WEB_BCAST, 0xC)] 15).wr .WEB_CTL 3 with
    web := ⟨[(3, { Port.reset with st := .active })], [], []⟩, tb := { Tb.reset with ready := ready, raster := ⟨0, 1, 0, 0⟩ } }

def bcast (hops : Nat) : Flit :=
  { dst := 15, src := 0, type := 0x28, tag := 0, len := 10, vc := 0, status := 0, addr := 0, stamp := 0, payload := List.replicate 8 0 ++ [255, 1],
    seq := 0, ack := 0, nak := false, cvc := 0, ccount := 0, hops := hops }

/-- The hypotheses of FarForks are met: nothing to send, a fork sent by a member and by another, a broadcast on a tree port, on another one and on one that is
not ACTIVE, at the hop limit and beyond, too late and not; a delivery due, one late and one waiting. -/
theorem test_witness_FarForks :
    (State.reset.begin 0).evm.farTx = [] ∧
    (∀ m ∈ [false, true], let s := farState m false { Evm.reset with farTx := [⟨15, RTime.zero, 255, true⟩] };
      s.canonical ∧ s.powered ∧ (s.begin 0).evm.farTx = [⟨15, RTime.zero, 255, true⟩] ∧ (s.begin 0).on f_EVM_FAR_GROUP_member 15 = m ∧
        (s.begin 0).on f_EVM_FAR_GROUP_secure_only 15 = false ∧ (s.begin 0).evm.farRx.length < 64 ∧ (s.begin 0).tb.ready = false) ∧
    (∀ m ∈ [false, true], ∀ ready ∈ [false, true], let s := farState m ready Evm.reset;
      s.canonical ∧ s.powered ∧ flitFarFork (bcast 2) = (RTime.zero, 255, true) ∧ flitClass (bcast 2).type = .bcast ∧
        (s.begin 0).portPowered 3 = true ∧ (s.begin 0).portActive 3 = true ∧ (s.begin 0).portActive 2 = false ∧
        bit ((s.begin 0).rd .WEB_BCAST 15) 3 = true ∧ bit ((s.begin 0).rd .WEB_BCAST 15) 2 = true ∧ bit ((s.begin 0).rd .WEB_BCAST 14) 3 = false ∧
        (bcast 2).hops + 1 ≤ (s.begin 0).fld f_WEB_CTL_max_hops ∧ (s.begin 0).fld f_WEB_CTL_max_hops < (bcast 3).hops + 1 ∧
        (s.begin 0).on f_EVM_FAR_GROUP_member 15 = m ∧ (s.begin 0).on f_EVM_FAR_GROUP_secure_only 15 = false ∧
        (s.begin 0).evm.farRx.length < 64 ∧ (s.begin 0).tb.ready = ready ∧ (ready = false ∨ rtBefore RTime.zero (s.begin 0).raster = true)) ∧
    (∀ x ∈ [(⟨15, ⟨0, 1, 0⟩, 0, 0, false, false⟩ : Delivery), ⟨15, ⟨0, 1, 0⟩, 0, 0, true, false⟩, ⟨15, ⟨0, 1, 0⟩, 0, 0, false, true⟩],
      let s := farState true true { Evm.reset with farRx := [x] };
      s.canonical ∧ s.powered ∧ (s.begin 0).evm.farRx = [x] ∧ (s.begin 0).farDue x = ! x.waiting) := by
  refine ⟨?_, ?_, ?_, ?_⟩ <;> decide

def evio (u ctl : Nat) (x : Evio) : State := evmState u { Evm.reset with evio := [(15, x)] } [(.EVM_EVIO_CTL, ctl)] 15

/-- The hypotheses of EvioPins are met: an edge, one at the end of its filter, a firing due and one instant before, each output mode, and a pulse at
its end, one instant before, and with a firing that restarts it. -/
theorem test_witness_EvioPins :
    (let s := evio 0 0 Evio.reset; s.canonical ∧ s.powered ∧ (s.begin 0).evioDrives 15 = false ∧ ((s.begin 0).evioOf 15).raw ≠ true ∧
      ((s.begin 0).evioOf 15).raw = false ∧ ((s.begin 0).evioOf 15).due = [] ∧ ((s.begin 0).evioOf 15).pulseEnd = none) ∧
    (∀ e ∈ [0, 1, 2, 3], ∀ l ∈ [false, true], let s := evio (19 * 256) (e * 2 ^ 28 + 15 * 2 ^ 24) { Evio.reset with raw := l, level := ! l };
      s.canonical ∧ s.powered ∧ s.evioDrives 15 = false ∧ (s.evioOf 15).raw = l ∧ (s.evioOf 15).level ≠ l ∧
        (s.evioOf 15).rawAt + s.fld f_EVM_EVIO_CTL_filter 15 + 4 ≤ s.cycle ∧ s.fld f_EVM_EVIO_CTL_in_edge 15 = e ∧ s.dev.forerunner = false) ∧
    (∀ u ∈ [1279, 1280], ∀ m ∈ [0, 1, 2], let s := evio u (0x80000000 + m * 2 ^ 22) { Evio.reset with due := [1] };
      s.canonical ∧ s.powered ∧ (s.begin 0).evioDrives 15 = true ∧ ((s.begin 0).evioOf 15).due = [1] ∧ (s.begin 0).now = u ∧
        (s.begin 0).fld f_EVM_EVIO_CTL_out_mode 15 = m) ∧
    (∀ u ∈ [1279, 1280], ∀ d ∈ [[4], [5], []], let s := evio u 0x80000000 { Evio.reset with out := true, pulseEnd := some 1280, due := d };
      s.canonical ∧ s.powered ∧ ((s.begin 0).evioOf 15).pulseEnd = some 1280 ∧ ((s.begin 0).evioOf 15).due = d ∧ (s.begin 0).now = u ∧
        (decide (∃ c ∈ ((s.begin 0).evioOf 15).due, c * 256 < 1280) = decide (d = [4]))) := by
  refine ⟨?_, ?_, ?_, ?_⟩ <;> decide

/-- The hypotheses of MemoryRequests are met at the end of the address space and at the bound of level 3. -/
theorem test_witness_MemoryRequests :
    (∀ u ∈ [0, 256000000], let s := memState u inService []; s.canonical ∧ s.powered ∧ 2 ^ 34 - 32 + 32 ≤ 2 ^ 34 ∧
      (s.begin 0).tableWrite (2 ^ 34 - 32) 32 = false ∧ (s.begin 0).wprotected (2 ^ 34 - 32) 32 = false ∧
      (s.begin 0).memc.st = .service ∧ (s.begin 0).srEntering = decide (u ≠ 0)) ∧
    (∀ st ∈ [MemState.selfRefresh, .retention, .untrained], let s := memState 0 { Memc.reset with st := st } []; s.canonical ∧ s.powered ∧
      (s.begin 0).memc.st = st ∧ (s.begin 0).srEntering = false) ∧
    (let s := memState 0 inService [(.MEMC_REGION_ATTR, 0xA0000000), (.MEMC_REGION_SIZE, 1)]; s.canonical ∧ s.powered ∧
      (s.begin 0).tableWrite 0 32 = true ∧ (s.begin 0).tableWrite (2 ^ 20 - 1) 1 = false ∧ (s.begin 0).wprotected (2 ^ 20 - 1) 1 = true) ∧
    (∀ u ∈ [4607999, 4608000], let s := memState u { inService with reqs := [memReq false 0] } []; s.canonical ∧ s.powered ∧
      ((s.begin 0).memc.reqs ++ (s.begin 0).memc.reading).find? (fun q => decide (q.id = 7)) = some (memReq false 0) ∧
      (decide ((s.begin 0).urgency (memReq false 0) = 3) = decide (u = 4608000)) ∧ (memReq false 0).port < 6 ∧
      (s.begin 0).on f_QUE_AGENT_CTL_enable 28 = false) := by
  refine ⟨?_, ?_, ?_, ?_⟩ <;> decide

/-- The hypotheses of MemoryCommands are met: nothing to issue, a write with a copy and without, a read that hits its row, and reads that open a row at the
threshold and below. -/
theorem test_witness_MemoryCommands :
    (∀ st ∈ [MemState.untrained, .service], let s := memState 0 { Memc.reset with st := st } []; s.canonical ∧ s.powered ∧ (s.begin 0).memc.st = st ∧
      (s.begin 0).now < (s.begin 0).memc.windowAt + (s.begin 0).rhWindow ∧ (s.begin 0).nextIssue 31 = none ∧ (s.begin 0).memc.banks = []) ∧
    (let s := memState (32 * 256000000) inService []; s.canonical ∧ s.powered ∧
      (s.begin 0).memc.windowAt + (s.begin 0).rhWindow ≤ (s.begin 0).now) ∧
    (∀ w ∈ [false, true], ∀ dup ∈ [false, true],
      let s := (setRegs 15 [(.MEMC_REGION_ATTR, 0x80000000 + b2n dup * 2 ^ 30), (.MEMC_REGION_BASE, 16383), (.MEMC_REGION_SIZE, 1)]
        (memState 0 { inService with reqs := [memReq w 0], banks := [(1023, { Bank.reset with row := some 16383 })] } []));
      s.canonical ∧ s.powered ∧ (∀ k ∈ (s.begin 0).memc.banks, k.1 % 32 = 31 → (s.begin 0).now < k.2.refAt + (s.begin 0).refreshPeriod) ∧
        (s.begin 0).nextIssue 31 = some (memReq w 0) ∧ (s.begin 0).rowHit (memReq w 0) = true ∧
        (s.begin 0).now - (memReq w 0).at_ ≤ (s.begin 0).portTarget 5 ∧
        (∀ k, k < 32 → (s.begin 0).copyAddr (2 ^ 34 - 32 + k) = (if dup then some (2 ^ 20 - 32) else none).map (· + k)) ∧
        2 ^ 20 - 32 + 32 ≤ 2 ^ 34 - 32) ∧
    (∀ n ∈ [0x0FFF, 0x1000], let s := memState 0 { inService with reqs := [memReq false 0], acts := [(1023 * 2048 + 2047, n)] } []; s.canonical ∧ s.powered ∧
      (s.begin 0).nextIssue 31 = some (memReq false 0) ∧ (s.begin 0).rowHit (memReq false 0) = false ∧ Table.rising (s.begin 0).memc.acts = true ∧
      Table.get 0 (rowGroup (2 ^ 34 - 32)) (s.begin 0).memc.acts = n ∧ (s.begin 0).fld f_MEMC_RH_CTL_threshold = 0x1000) := by
  refine ⟨?_, ?_, ?_, ?_⟩ <;> decide

def isRead (x : MReq) : Memc := { inService with reading := [x] }

/-- The hypotheses of ReadDataReturns are met: a read within its target and beyond it, one whose data fail with a copy and without, and one of a lost bank. -/
theorem test_witness_ReadDataReturns :
    (∀ u ∈ [5120000, 5120001], let r := { memReq false 0 with data := List.replicate 32 7 }; let s := memState u (isRead r) []; s.canonical ∧ s.powered ∧
      s.dev.test = false ∧ ((s.begin 0).memc.reading.find? fun q => decide (q.id = 7)) = some r ∧ 0 < r.len ∧ r.data.length = r.len ∧
      (∀ k, k < 32 → (s.begin 0).lostBank (2 ^ 34 - 32 + k) = false) ∧ (s.begin 0).memc.spoilt = [] ∧
      (decide ((s.begin 0).now - r.at_ ≤ (s.begin 0).portTarget r.port) = decide (u = 5120000)) ∧ r.addr % 32 = 0 ∧ r.len = 32 ∧
      (s.begin 0).copyAddr r.addr = none) ∧
    (let s := setRegs 15 [(.MEMC_REGION_ATTR, 0xC0000000), (.MEMC_REGION_BASE, 16383), (.MEMC_REGION_SIZE, 1)] (memState 0 inService []);
      s.canonical ∧ s.powered ∧ (s.begin 0).copyAddr (2 ^ 34 - 32) = some (2 ^ 20 - 32)) ∧
    (let s := memState 0 inService [(.MEMC_LOST_BANK, 0x80000000), (.MEMC_LOST_PC, 0x80000000)]; s.canonical ∧ s.powered ∧
      ∀ k, k < 32 → (s.begin 0).lostBank (2 ^ 34 - 32 + k) = true) := by
  refine ⟨?_, ?_, ?_⟩ <;> decide

/-- The memory controller with a bank 31/31. -/
def bankState (u : Nat) (x : Memc) (b : Bank) (l : List (Reg × Nat)) : State := memState u { x with banks := [(1023, b)] } l

/-- The hypotheses of RowsAndSelfRefresh are met: a refresh, one that gives way and one that no longer may, an idle row at its time and before, the idle time of
the stack and the 500 ns of its exit. -/
theorem test_witness_RowsAndSelfRefresh :
    (∀ k ∈ [7, 8], let s := bankState 4608000 { inService with reqs := [memReq false 0] } { Bank.reset with postponed := k } []; s.canonical ∧ s.powered ∧
      (s.begin 0).memc.st = .service ∧ (s.begin 0).bankUrgent (31 * 32 + 31) = true ∧ ((s.begin 0).bankOf (31 * 32 + 31)).postponed = k) ∧
    (State.reset.canonical ∧ (State.reset.begin 0).memc.st ≠ .service ∧ (State.reset.begin 0).srEntering = false ∧
      (State.reset.begin 0).memc.srExit = none) ∧
    (∀ u ∈ [51199, 51200], let s := bankState u inService { Bank.reset with row := some 5 } []; s.canonical ∧ s.powered ∧
      (s.begin 0).bankUrgent (31 * 32 + 31) = false ∧ ((s.begin 0).bankOf (31 * 32 + 31)).row ≠ none ∧
      (decide (((s.begin 0).bankOf (31 * 32 + 31)).access + 256 * (s.begin 0).fld f_MEMC_PAGE_idle_ns ≤ (s.begin 0).now) = decide (u = 51200))) ∧
    (let s := memState 256000000 inService []; s.canonical ∧ s.powered ∧ (s.begin 0).on f_QUE_AGENT_CTL_enable 28 = false ∧
      (s.begin 0).memc.st = .service ∧ (s.begin 0).memHeld = false ∧ (s.begin 0).fld f_MEMC_SR_CTL_idle_us ≠ 0 ∧
      (s.begin 0).memc.idleAt + 256000 * (s.begin 0).fld f_MEMC_SR_CTL_idle_us ≤ (s.begin 0).now) ∧
    (∀ u ∈ [127999, 128000], let s := memState u { Memc.reset with st := .selfRefresh, srAt := some 0, srExit := some 5 } []; s.canonical ∧ s.powered ∧
      (s.begin 0).memc.st = .selfRefresh ∧ (s.begin 0).memc.srAt = some 0 ∧ (s.begin 0).memc.srExit = some 5 ∧ (s.begin 0).now = u) := by
  refine ⟨?_, ?_, ?_, ?_, ?_⟩ <;> decide

/-- The hypotheses of PartialRetention are met: entry from either state, its refusal for a held request and out of service, and both exits. -/
theorem test_witness_PartialRetention :
    bit 0x80000000 31 = true ∧ bit 0x40000000 31 = false ∧ bit 0x40000000 30 = true ∧
    (∀ st ∈ [MemState.service, .selfRefresh], let s := memState 0 { Memc.reset with st := st } []; s.canonical ∧ s.powered ∧ s.answers 0x1020 = true ∧
      (s.begin 0).shielded (regAddr .MEMC_PR_CTL 0 0) = 0 ∧ (s.begin 0).memc.st = st ∧ (s.begin 0).retentionRefused = false) ∧
    (let s := memState 0 { inService with reqs := [memReq false 0] } []; s.canonical ∧ s.powered ∧ (s.begin 0).retentionRefused = true) ∧
    (let s := memState 0 Memc.reset []; s.canonical ∧ s.powered ∧ (s.begin 0).memc.st = .untrained) ∧
    (let s := memState 0 { Memc.reset with st := .retention, retBanks := 0x7FFFFFFF } []; s.canonical ∧ s.powered ∧ (s.begin 0).memc.st = .retention ∧
      (s.begin 0).on f_QUE_AGENT_CTL_enable 28 = false) := by
  refine ⟨?_, ?_, ?_, ?_, ?_, ?_, ?_⟩ <;> decide

/-- The hypotheses of RepairTrainingAndRate are met. -/
theorem test_witness_RepairTrainingAndRate :
    (let s := bankState 0 inService { Bank.reset with repair := some (5, 65535) } []; s.canonical ∧ s.powered ∧
      ((s.begin 0).bankOf (31 * 32 + 31)).repair = some (5, 65535) ∧ ((s.begin 0).bankOf 0).repair = none ∧
      (s.begin 0).on f_QUE_AGENT_CTL_enable 28 = false ∧ (s.begin 0).memc.repairs = [] ∧
      (s.begin 0).memc.st = .service ∧ (s.begin 0).memc.trainRate = none) ∧
    (∀ st ∈ [MemState.service, .freqSwitch], let s := memState 0 { Memc.reset with st := st, trainRate := some 4 } []; s.canonical ∧ s.powered ∧
      (s.begin 0).memc.trainRate = some 4 ∧ (s.begin 0).memc.st = st) ∧
    (∀ g ∈ [false, true], let s := memState 0 { inService with gathering := g } []; s.canonical ∧ s.powered ∧ s.answers 0x1020 = true ∧
      (s.begin 0).shielded (regAddr .MEMC_FREQ 0 0) = 0 ∧ bits 0x40000 16 3 = 4 ∧ bits 0x50000 16 3 = 5 ∧ (s.begin 0).fld f_MEMC_FREQ_req = 0 ∧
      (s.begin 0).memc.gathering = g ∧ (s.begin 0).memc.trainRate = none) := by
  refine ⟨?_, ?_, ?_⟩ <;> decide

/-- The fuse places of soft repairs, where the factory left them unburnt, are free. -/
theorem test_free_place (h : ∀ i, Config.factoryFuse i = 0) :
    (State.begin 0 (bankState 0 inService { Bank.reset with repair := some (5, 65535) } [])).freePlace 1984 = some 0 := by
  have e : ∀ s : State, s.fuses = [] → s.freePlace 1984 = some 0 := by
    intro s hs
    simp [State.freePlace, State.fuseWord, hs, h, List.range, List.range.loop, Table.get]
  exact e _ rfl

/-- The hypotheses of PortStates are met in each state of port 3, at the last instant of each limit and past it. -/
theorem test_witness_PortStates :
    (∀ st ∈ [PortState.disabled, .detect, .train, .align, .param, .active, .failed, .retrain], let s := portState 0 (portIn st) []; s.canonical ∧
      s.powered ∧ (s.begin 0).domainOn (40 + 3) = true ∧ (s.begin 0).portOf 3 = portIn st ∧ (s.begin 0).on f_WEB_PORT_CTL_enable 3 = false ∧
      (s.begin 0).webRails = true) ∧
    (let s := portState 0 (portIn .active) [(.WEB_PORT_CTL, 0x80000000)]; s.canonical ∧ s.powered ∧ (s.begin 0).domainOn (40 + 3) = true ∧
      (s.begin 0).on f_WEB_PORT_CTL_enable 3 = true ∧ s.answers 0x1020 = true ∧ (s.begin 0).shielded (regAddr .WEB_PORT_CTL 3 0) = 0 ∧
      (0 ^^^ (s.begin 0).rd .WEB_PORT_CTL 3) &&& (0xC0003FFF : Word) ≠ 0) ∧
    (∀ u ∈ [25600000000, 25600000001], let s := portState u { portIn .train with rateWait := some 1 } []; s.canonical ∧ s.powered ∧
      (decide ((s.begin 0).now ≤ ((s.begin 0).portOf 3).since + 25600000000) = decide (u = 25600000000)) ∧
      ((s.begin 0).portOf 3).since + 25600000000 ≤ (s.begin 0).now ∧ Port.training { (s.begin 0).portOf 3 with st := .align } = false) ∧
    (∀ u ∈ [256000000, 256000001], let s := portState u (portIn .align) []; s.canonical ∧ s.powered ∧
      (decide ((s.begin 0).now ≤ ((s.begin 0).portOf 3).since + 256000000) = decide (u = 256000000)) ∧
      ((s.begin 0).portOf 3).since + 256000000 ≤ (s.begin 0).now) ∧
    (let s := portState 0 (portIn .param) [(.WEB_PORT_CTL, 0x80000000 + 0x40000000)]; s.canonical ∧ s.powered ∧
      (s.begin 0).on f_WEB_PORT_CTL_check_peer 3 = true ∧ (s.begin 0).fld f_WEB_PORT_CTL_peer_node 3 = 0 ∧ (s.begin 0).fld f_WEB_PORT_CTL_peer_port 3 = 0 ∧
      ((s.begin 0).portOf 3).granted = false) ∧
    (let s := portState 256000000000 (portIn .failed) [(.WEB_PORT_CTL, 0x80000000)]; s.canonical ∧ s.powered ∧
      (s.begin 0).on f_WEB_PORT_CTL_enable 3 = true ∧ (s.begin 0).webRails = true ∧ ((s.begin 0).portOf 3).since + 256000000000 ≤ (s.begin 0).now) ∧
    (∀ r ∈ [none, some 1], let s := portState 12800000000 { portIn .retrain with granted := true, rateNew := r } []; s.canonical ∧ s.powered ∧
      ((s.begin 0).portOf 3).since + 12800000000 ≤ (s.begin 0).now ∧ (s.begin 0).now ≤ ((s.begin 0).portOf 3).since + 12800000000 ∧
      ((s.begin 0).portOf 3).rateWait = none ∧ ((s.begin 0).portOf 3).granted = true ∧ ((s.begin 0).portOf 3).rateNew = r) := by decide

/-- Port 3 in ACTIVE. -/
def livePort : Port := { portIn .active with rx0 := 0, rx1 := 1, tx0 := 0, tx1 := 1, credits := fullCredits, granted := true }

/-- The hypotheses of FlitBytesSpellTheFlit are met by a flit with its fields at the ends of their ranges. -/
theorem test_witness_FlitBytesSpellTheFlit :
    ∀ a ∈ [0, 2 ^ 36 - 1], ∀ n ∈ [0, 232], let f : Flit :=
      { flitTo 255 4095 511 with src := 4095, len := 255, status := 7, addr := a, stamp := 2 ^ 32 - 1, payload := List.replicate n 255, cvc := 7, ccount := 7,
                                 hops := 127 }
      f.dst < 2 ^ 12 ∧ f.src < 2 ^ 12 ∧ f.type < 2 ^ 8 ∧ f.tag < 2 ^ 16 ∧ f.len < 2 ^ 8 ∧ f.vc < 2 ∧ f.status < 2 ^ 3 ∧ f.addr < 2 ^ 36 ∧
        f.stamp < 2 ^ 32 ∧ f.payload.length ≤ 232 ∧ f.seq < 2 ^ 9 ∧ f.ack < 2 ^ 9 ∧ f.cvc < 2 ^ 3 ∧ f.ccount < 2 ^ 3 ∧ f.hops < 2 ^ 7 := by decide +kernel

/-- The bytes of a request as Table 9-4 lays them out. -/
theorem test_flit_layout :
    let l := flitBytes (flitTo 0x10 4095 511)
    l.take 12 = [0x10, 0xFE, 0xFF, 0xFF, 0x83, 0x04, 0xFF, 0xFF, 0xFC, 0xFF, 0xFF, 0xFF] ∧ (l.drop 248).take 4 = [0x3E, 0xC0, 0xFF, 0xFF] := by decide

/-- The hypotheses of Flits about errors are met: flits with a wrong CRC, codewords of 15 and of 16 symbols in error. -/
theorem test_witness_Flits_errors :
    (List.replicate 256 (0 : Byte)).length = 256 ∧ ((([543, 543, 544, 0].filter fun k => decide (k < 544)).eraseDups).length = 2) ∧
    (∀ n ∈ [15, 16], (((List.range n).filter fun k => decide (k < 544)).eraseDups).length = n) ∧
    (∀ place ∈ [0, 4], let s := portState 0 { livePort with rxCode := ⟨65534, place, false, false⟩ } []; s.canonical ∧ s.powered ∧
      (s.begin 0).domainOn (40 + 3) = true ∧ ((s.begin 0).portOf 3).st = .active ∧ (((s.begin 0).portOf 3).rxCode.fresh = decide (place = 0)) ∧
      (∀ l, l < 3 → (((s.begin 0).portOf 3).lane l).uncorr < 16) ∧ (((s.begin 0).portOf 3).rxCode.decoded 0).spoils = false) := by
  refine ⟨?_, ?_, ?_, ?_⟩ <;> decide +kernel

/-- Bytes with another CRC fail the check. -/
theorem test_witness_Flits_crc : ∃ data : List Byte, data.length = 256 ∧ flitCrcOk data = false := by
  have h : ∀ c : List Byte, c.length = 252 → ∃ data : List Byte, data.length = 256 ∧ flitCrcOk data = false := by
    intro c hc
    have h := (crc32c c).isLt
    refine ⟨c ++ leBytes (((crc32c c).toNat + 1) % 2 ^ 32) 4, by simp [hc], ?_⟩
    rw [flitCrcOk_append c _ hc (by omega)]
    exact decide_eq_false (by omega)
  exact h _ (flitCovered_length (flitTo 0 0 0))

/-- The hypotheses of Flits about flits in order are met: an IDLE flit, a request for this device, one for another node and one out of order. -/
theorem test_witness_Flits_taken :
    (∀ f : Flit, (flitBytes f).length = 256 ∧ flitCrcOk (flitBytes f) = true) ∧
    (let f := flitOfBytes (flitBytes (flitTo 0 0 511)); f.type = 0 ∧ f.nak = false ∧ f.cvc = 0 ∧ f.seq = 511) ∧
    (let f := flitOfBytes (flitBytes (flitTo 0x10 4095 511)); f.type = 0x10 ∧ f.nak = false ∧ f.cvc = 0 ∧ f.seq = 511 ∧ f.dst = 4095 ∧ f.hops + 1 ≤ 63) ∧
    (let s := portState 0 { livePort with rxSeq := 511 } []
      let s := { s with dev := { s.dev with nodeValid := true } }.wr .DEVICE_NODE 0xFFF
      s.canonical ∧ s.powered ∧ (s.begin 0).domainOn (40 + 3) = true ∧ ((s.begin 0).portOf 3).rxSeq = 511 ∧ ((s.begin 0).portOf 3).replay = [] ∧
      (s.begin 0).node = 4095 ∧ (s.begin 0).dev.nodeValid = true ∧ (s.begin 0).web.serving.length < 256) ∧
    (let s := { portState 0 { livePort with rxSeq := 511 } [] with
        web := ⟨[(2, livePort), (3, { livePort with rxSeq := 511 })], List.replicate 256 (flitTo 0x10 0 0), []⟩ }
      let s := (s.wr .WEB_ROUTE 0x80000002 4095).wr .WEB_CTL 0x3F
      s.canonical ∧ s.powered ∧ 256 ≤ (s.begin 0).web.serving.length ∧ (s.begin 0).isMine 4095 = false ∧
      62 + 1 ≤ (s.begin 0).fld f_WEB_CTL_max_hops ∧ (s.begin 0).routeTo 4095 = some (2, false) ∧ ((s.begin 0).portOf 3).rxSeq = 511) := by
  refine ⟨fun f => ⟨flitBytes_length f, flitCrcOk_flitBytes f⟩, ?_, ?_, ?_, ?_⟩ <;> decide +kernel

/-- The hypotheses of Flits about sending are met. -/
theorem test_witness_Flits_sent :
    (∀ u ∈ [1023999, 1024000], ∀ tries ∈ [7, 8],
      let s := portState u { livePort with replay := [flitTo 0x10 0 0], sentAt := [0], tries } []; s.canonical ∧ s.powered ∧
      ((s.begin 0).portOf 3).sentAt = [0] ∧ ((s.begin 0).portOf 3).replay ≠ [] ∧ (s.begin 0).now = u ∧ ((s.begin 0).portOf 3).tries = tries) ∧
    (let s := portState 0 { livePort with streamWait := 2, qLocal := [flitTo 1 0 0] } []; s.canonical ∧ s.powered ∧
      ((s.begin 0).portOf 3).qLocal = [flitTo 1 0 0] ∧ ((s.begin 0).portOf 3).streamWait < 3) ∧
    (let s := portState 0 { livePort with qReq := [flitTo 0x10 0 0], replay := List.replicate 254 (flitTo 0x10 0 0) } []; s.canonical ∧ s.powered ∧
      let x := (s.begin 0).portOf 3; x.qLocal = [] ∧ x.again = 0 ∧ x.replay.length < 255 ∧ x.qBcast = [] ∧ x.qRsp = [] ∧ (flitTo 0x10 0 0).vc < 2 ∧
        x.qReq = [flitTo 0x10 0 0] ∧ Table.rising x.credits = true ∧ 0 < Table.get 0 (2 + 1) x.credits) ∧
    (let s := portState 0 { livePort with qReq := [flitTo 0x10 0 0], replay := List.replicate 255 (flitTo 0x10 0 0) } []; s.canonical ∧ s.powered ∧
      255 ≤ ((s.begin 0).portOf 3).replay.length) ∧
    (let s := portState 0 { livePort with qStream := [flitTo 0x20 0 0], streamWait := 3, qLocal := [flitTo 1 0 0] } []; s.canonical ∧ s.powered ∧
      let x := (s.begin 0).portOf 3; x.qStream = [flitTo 0x20 0 0] ∧ 3 ≤ x.streamWait ∧ x.again = 0 ∧ x.replay.length < 255 ∧
        0 < Table.get 0 (6 + 1) x.credits) := by
  refine ⟨?_, ?_, ?_, ?_, ?_⟩ <;> decide +kernel

/-- The hypotheses of WebRequests are met: requests at the end of the stack, of a register, a reserved range and of a wrong length; node 4094 asks,
and the port that routing gives for it is port 3. -/
theorem test_witness_WebRequests :
    (let s := portState 0 livePort []
      let s := ({ s with memc := inService, dev := { s.dev with nodeValid := true } }.wr .WEB_ROUTE 0x80000003 4094)
      s.canonical ∧ s.powered ∧ s.answers 4094 = true ∧ (s.begin 0).routeTo 4094 = some (3, false) ∧ (s.begin 0).web.waiting = [] ∧
      reqOk (2 ^ 34 - 4) 4 = true ∧ (s.begin 0).memQuiet ∧ (s.begin 0).srEntering = false ∧ (s.begin 0).tableWrite (2 ^ 34 - 4) 4 = false ∧
      (s.begin 0).wprotected (2 ^ 34 - 4) 4 = false ∧
      (∀ k, k < 4 → (((s.begin 0).served 4094 0x11 7).memTouch 3 (2 ^ 34 - 4) 4).copyAddr (2 ^ 34 - 4 + k) = none) ∧
      s.target (regAddr .CH_DECKLE 511 0) = .reg .CH_DECKLE 511 0 ∧ (s.begin 0).regWaits 4094 0x10 7 isRegAddr = false ∧
      s.foreignIn (regAddr .CH_DECKLE 511 0) 4 false = none ∧ reqOk (regAddr .CH_DECKLE 511 0) 4 = true ∧
      reqOk (2 ^ 34 - 4) 8 = false ∧ s.foreignIn (2 ^ 34 - 4) 8 true = none ∧ s.foreignIn (2 ^ 34 - 4) 8 false = none ∧
      reqOk (2 ^ 34 + 2 ^ 25) 4 = true ∧ s.target (2 ^ 34 + 2 ^ 25) = .reserved ∧ s.foreignIn (2 ^ 34 + 2 ^ 25) 4 true = none) ∧
    (let s := portState 0 livePort []
      let s := { s with memc := inService, dev := { s.dev with nodeValid := true } }
      let s := ((s.wr .WEB_ROUTE 0x80000003 4094).wr .MEMC_REGION_ATTR 0xA0000000 15).wr .MEMC_REGION_SIZE 1 15
      s.canonical ∧ s.powered ∧ s.answers 4094 = true ∧ (s.begin 0).tableWrite 0 4 = false ∧ (s.begin 0).wprotected 0 4 = true) := by
  refine ⟨?_, ?_⟩ <;> decide

/-- Port 3 in ACTIVE with lane 1 carrying logical lane 1. -/
def lanePort (l : Lane) : Port := { portIn .active with rx0 := 0, rx1 := 1, tx0 := 0, tx1 := 1, lanes := [(1, l)], granted := true }

def goodLane : Lane := { Lane.reset with health := .good }

/-- The hypotheses of LaneHealth are met: a lane that is not powered, one that is, before its third bad measurement and after it, the limits met
exactly and missed, a first and a second failure, and the period of LINK_EYE. -/
theorem test_witness_LaneHealth :
    (∀ low ∈ [0, 2], ∀ d ∈ [false, true],
      let s := (portState 0 { lanePort { goodLane with low := low } with degraded := d } []).wr .WEB_LANE_LIMIT 0x00C30082
      s.canonical ∧ s.powered ∧ (s.begin 0).lanePowered 3 1 = true ∧ (s.begin 0).lanePowered 3 2 = false ∧
      (s.begin 0).on f_QUE_AGENT_CTL_enable (16 + 3) = false ∧ (s.begin 0).fld f_WEB_LANE_LIMIT_fail_width = 2 ∧
      (s.begin 0).fld f_WEB_LANE_LIMIT_fail_height = 2 ∧ (s.begin 0).fld f_WEB_LANE_LIMIT_warn_width = 3 ∧
      (s.begin 0).fld f_WEB_LANE_LIMIT_warn_height = 3 ∧ (((s.begin 0).portOf 3).lane 1).health = .good ∧
      (((s.begin 0).portOf 3).lane 1).low = low ∧ ((s.begin 0).portOf 3).logical 1 = some 1 ∧ ((s.begin 0).portOf 3).rxSpare = .free ∧
      ((s.begin 0).portOf 3).st = .active ∧ ((s.begin 0).portOf 3).degraded = d) ∧
    (let s := portState 0 (lanePort { goodLane with health := .failed }) []; s.canonical ∧ s.powered ∧ (s.begin 0).lanePowered 3 1 = true ∧
      (((s.begin 0).portOf 3).lane 1).health = .failed ∧ (s.begin 0).on f_QUE_AGENT_CTL_enable (16 + 3) = false) ∧
    (∀ u ∈ [255999999999, 256000000000], let s := (portState u (lanePort goodLane) []).wr .WEB_EYE_CTL 1; s.canonical ∧ s.powered ∧
      (s.begin 0).fld f_WEB_EYE_CTL_period ≠ 0 ∧
      (decide (((s.begin 0).portOf 3).eyeAt + 256000000000 * (s.begin 0).fld f_WEB_EYE_CTL_period ≤ (s.begin 0).now) = decide (u = 256000000000))) := by
  refine ⟨?_, ?_, ?_⟩ <;> decide

/-- The hypotheses of SpareLanesAndRates are met. -/
theorem test_witness_SpareLanesAndRates :
    (∀ sp ∈ [Spare.free, .asked, .training, .trained 65535, .agreed 1 65535], ∀ w ∈ [none, some 1],
      let s := portState 0 { lanePort goodLane with rxSpare := sp, txSpare := sp, rateWait := w, rateAsked := w, rxBad := 1, txBad := 1 } []
      s.canonical ∧ s.powered ∧ (s.begin 0).domainOn (40 + 3) = true ∧ ((s.begin 0).portOf 3).st = .active ∧ ((s.begin 0).portOf 3).txSpare = sp ∧
      ((s.begin 0).portOf 3).rxSpare = sp ∧ ((s.begin 0).portOf 3).rateWait = w ∧ ((s.begin 0).portOf 3).rateAsked = w ∧
      ((s.begin 0).portOf 3).rxBad = 1 ∧ ((s.begin 0).portOf 3).txBad = 1 ∧ s.answers 0x1020 = true ∧
      (s.begin 0).shielded (regAddr .WEB_PORT_RATE 3 0) = 0 ∧ (s.begin 0).fld f_WEB_PORT_RATE_req 3 = 0) ∧
    (let s := portState 0 { lanePort goodLane with txSpare := .training, rateWait := some 1 } []; s.canonical ∧ s.powered ∧
      ((s.begin 0).portOf 3).rateWait = some 1 ∧ ((s.begin 0).portOf 3).txSpare = .training ∧ ((s.begin 0).portOf 3).rxSpare = .free) ∧
    bits 0x10000 16 2 = 1 ∧ bits 0x20000 16 2 = 2 := by
  refine ⟨?_, ?_, ?_, ?_⟩ <;> decide

/-- The hypotheses of ManagementPorts are met: writes and reads of registers of the last channel and of a reserved range, transactions that are cut
short, and a TAP in Test-Logic-Reset. -/
theorem test_witness_ManagementPorts :
    (State.reset.canonical ∧ State.reset.powered ∧ (State.reset.begin 0).jtag.tap = .reset) ∧
    (∀ r ∈ [Reg.CH_DECKLE, .CH_CALENDER, .CH_CALENDER_RATE, .CH_MEAS_LEN, .CH_MEAS_DELAY, .CH_MEAS_MON, .CH_SWEEP_AT],
      let a := regAddr r 511 0
      spiFrame (spiBytes 2 a [1, 2, 3, 4]) = some (2, a, [1, 2, 3, 4]) ∧ a % 4 = 0 ∧ State.reset.target a = .reg r 511 0 ∧
        (State.reset.begin 0).shielded (regAddr r 511 0) = 0 ∧ pairHalf r 511 0 = none ∧ State.reset.foreign a true = none ∧
        State.reset.foreign a false = none) ∧
    State.reset.target (regAddr .TILE_GUARD_CTL 7 0) = .reg .TILE_GUARD_CTL 7 0 ∧
    (∀ r ∈ [Reg.MEMC_PR_BANK, .MEMC_PR_PC, .WEB_EYE_CTL], State.reset.target (regAddr r 0 0) = .reg r 0 0) ∧
    (let a := 2 ^ 34 + 2 ^ 25;
      spiFrame (spiBytes 3 a [0, 0, 0, 0, 0]) = some (3, a, [0, 0, 0, 0, 0]) ∧ a % 4 = 0 ∧ State.reset.target a = .reserved ∧
        State.reset.foreign a true = none ∧ State.reset.foreign a false = none) ∧
    (spiFrame (spiBytes 2 0 [1, 2, 3]) = some (2, 0, [1, 2, 3]) ∧ spiFrame [2, 0, 0, 0, 0] = none ∧ spiFrame (spiBytes 4 0 []) = some (4, 0, []) ∧
      beNat [1, 2, 3, 4] = 0x01020304) ∧
    (∀ code ∈ [0, 8, 0x1F, 0x21, 0xFF, 0x100], code % 256 ∉ [0x01, 0x02, 0x03, 0x04, 0x05, 0x06, 0x07, 0x20]) := by
  refine ⟨?_, ?_, ?_, ?_, ?_, ?_, ?_⟩ <;> decide

/-- The hypotheses of DrivingInstructions are met in boot phases 0x2, 0x3, 0x7 and 0xF. -/
theorem test_witness_DrivingInstructions :
    ∀ p ∈ [2, 3, 7, 15], let s := { State.reset with dev := { State.reset.dev with phase := p } }; s.canonical ∧ s.powered ∧
      (decide (s.dev.phase ≤ 2 ∨ s.dev.phase = 0xF) = decide (p = 2 ∨ p = 15)) := by decide

/-- The hypotheses of FaultsAreCaptured are met: a fault of each class, one that repeats an old one, one that finds the four captures of the cycle used up, and one more
than the queue holds. -/
theorem test_witness_FaultsAreCaptured :
    (isFault 0x106 1 (.channel 511) = true ∧ isFault 0x100 2 (.channel 511) = true ∧ isFault 0x101 3 (.channel 511) = true ∧
      isFault 0x900 2 (.tile 7) = true ∧ isFirmwareCode 0x100 = false ∧ isFirmwareCode 0x900 = true) ∧
    (let s := fltState 0 Flt.reset forceV; s.canonical ∧ s.pwr.porHeld = false ∧ (s.begin 0).canCapture = true ∧ (s.begin 0).flt.queue = [] ∧
      (s.begin 0).que.overFelt ≠ some ((s.begin 0).fld f_QUE_AGENT_CTL_felt 20) ∧ (s.begin 0).unacked = [] ∧ (s.begin 0).covering 511 = [] ∧
      ((s.begin 0).forceOf 511).st = .forcingV ∧ (s.begin 0).flt.safeN = false) ∧
    (let s := fltState 512 { Flt.reset with ring := [recordOf 2 1], seq := 1 } forceV; s.canonical ∧ (s.begin 0).canCapture = true ∧
      (recordOf 2 1).reaction ≤ 2 ∧ (s.begin 0).recurring (faultOf 2) = some (recordOf 2 1)) ∧
    (∀ n ∈ [63, 64], let s := fltState 512 { Flt.reset with seq := 4, capCycle := 2, capSeqs := [4, 3, 2, 1], queue := List.replicate n (faultOf 2) } forceV
      s.canonical ∧ (s.begin 0).canCapture = false ∧ (s.begin 0).flt.queue.length = n) ∧
    (let s := fltState 512 { Flt.reset with queue := [faultOf 2] } forceV; s.canonical ∧ (s.begin 0).canCapture = true ∧
      (s.begin 0).flt.queue = [faultOf 2] ∧ (faultOf 2).cls = 2 ∧ (s.begin 0).unacked = []) := by
  refine ⟨?_, ?_, ?_, ?_, ?_⟩ <;> decide

/-- The hypotheses of FaultsAreCaptured about the ends of conditions are met. -/
theorem test_witness_FaultsAreCaptured_conditions :
    (isCode 0x103 = true ∧ isScope (.channel 511) = true ∧ 0x103 ∉ [0x010, 0x100, 0x706, 0x800, 0xB01, 0xB02, 0xB03]) ∧
    (∀ st ∈ [TbState.locked, .holdover], let s := tbState 1 0 { Tb.reset with state := st }; s.canonical ∧ s.pwr.porHeld = false ∧
      (s.begin 0).tb.state = st) ∧
    (let s := fltState 0 { Flt.reset with safeN := true } forceV; s.canonical ∧ (s.begin 0).flt.safeN = true) ∧
    (∀ v ∈ ([1839, 1840] : List Nat), let s := { State.reset with pwr := { State.reset.pwr with tileTemp := [(7, v)] } }; s.canonical ∧
      sixteenths (Table.get 0 7 (s.begin 0).pwr.tileTemp) = (v : Int)) ∧
    (∀ st ∈ [PortState.active, .failed, .disabled], let s := portState 0 (portIn st) [(.WEB_PORT_CTL, 0x80000000)]; s.canonical ∧
      ((s.begin 0).portOf 3).st = st ∧ (s.begin 0).domainOn (40 + 3) = true ∧ (s.begin 0).on f_WEB_PORT_CTL_enable 3 = true) ∧
    State.reset.dev.phase < 5 := by
  refine ⟨?_, ?_, ?_, ?_, ?_, ?_⟩ <;> decide

/-- A record of channel 511 or of tile 7, in SAFE, that is cleared, acknowledged or not. -/
def pastRecord (acked : Bool) : Record :=
  ⟨{ faultOf 3 with code := 0x101 }, 3, ⟨acked, true, false, false, false, false, false, true⟩, 1, 0, 0, 0⟩

/-- Channel 511 in SAFE in range `r`, covered by one record; releases of it in the past hour. -/
def safeState (acked : Bool) (r n quiet : Nat) : State :=
  let s := fltState 256000000 { Flt.reset with ring := [pastRecord acked], cover := [(511, 1)], seq := 1, releases := List.replicate n ⟨0, .channel 511⟩ }
    { forceV with st := .safe, range := r }
  s.wr .FLT_RECOVERY (BitVec.ofNat 32 (2 ^ 24 + 2 * 2 ^ 16 + quiet))

/-- Tile 7 in its safe state, covered by one record. -/
def tileSafeState : State :=
  { safeState true 5 0 1 with
    flt := { Flt.reset with ring := [{ pastRecord true with reaction := 4 }], cover := [(511, 1), (519, 1)], seq := 1, tileSafe := 128 } }

/-- The hypotheses of AcknowledgeReleaseInject about releases are met: the quiet period passed to the instant and not, a record acknowledged or released
under auto_en, one below the hourly limit and at it, and a tile. -/
theorem test_witness_AcknowledgeReleaseInject_release :
    (∀ acked ∈ [false, true], ∀ r ∈ [4, 5], ∀ n ∈ [1, 2], ∀ q ∈ [1, 2], let s := safeState acked r n q; s.canonical ∧ s.powered ∧
      ((s.begin 0).forceOf 511).st = .safe ∧ (s.begin 0).flt.queue = [] ∧ (s.begin 0).flt.deviceSafe = false ∧
      (s.begin 0).flt.tileSafe.testBit 7 = false ∧ ((s.begin 0).forceOf 511).steps = [] ∧ ((s.begin 0).forceOf 511).range = r ∧
      (s.begin 0).on f_CH_SWEEP_CTL_auto_resume 511 = false ∧ (s.begin 0).flt.ring = [pastRecord acked] ∧ (s.begin 0).flt.cover = [(511, 1)] ∧
      ((s.begin 0).fld f_FLT_RECOVERY_auto_en).testBit 0 = true ∧ (s.begin 0).releaseCount (.channel 511) = n ∧
      (s.begin 0).fld f_FLT_RECOVERY_hour_limit = 2 ∧
      (decide (256000000 * (s.begin 0).fld f_FLT_RECOVERY_quiet_ms ≤ (s.begin 0).now) = decide (q = 1))) ∧
    (∀ acked ∈ [false, true], (pastRecord acked).flags.cleared = true ∧ (pastRecord acked).reaction = 3 ∧ (pastRecord acked).det.code ≠ 0x010 ∧
      (pastRecord acked).touched = 0 ∧ (pastRecord acked).flags.acked = acked ∧ (pastRecord acked).flags.held = false) ∧
    (let s := tileSafeState; s.canonical ∧ s.powered ∧ (s.begin 0).flt.queue = [] ∧ (s.begin 0).flt.deviceSafe = false ∧ (s.begin 0).flt.tileSafe.testBit 7 = true ∧
      (∀ r ∈ (s.begin 0).flt.ring, r.flags.cleared = true ∧ r.flags.acked = true ∧
        r.touched + 256000000 * (s.begin 0).fld f_FLT_RECOVERY_quiet_ms ≤ (s.begin 0).now)) := by
  refine ⟨?_, ?_, ?_⟩ <;> decide

/-- The hypotheses of AcknowledgeReleaseInject about writes and slots are met, and no channel of the release of a tile has auto_resume set. -/
theorem test_witness_AcknowledgeReleaseInject_writes :
    (let s := safeState false 5 0 1; s.canonical ∧ s.powered ∧ s.answers 0x1020 = true ∧ (s.begin 0).shielded (regAddr .FLT_ACK 0 0) = 0 ∧
      bits 4 0 5 ≠ 0 ∧ (s.begin 0).flt.held = false ∧ (s.begin 0).shielded (regAddr .FLT_CTL 0 0) = 0 ∧ bit 0x80000021 31 = true ∧
      (0x80000021 ^^^ (s.begin 0).rd .FLT_CTL) &&& (0x71 : Word) = 0) ∧
    (∀ test ∈ [false, true], let s := { fltState 0 Flt.reset forceV with dev := { State.reset.dev with test := test } }; s.canonical ∧ s.powered ∧
      s.answers 0x1020 = true ∧ (s.begin 0).shielded (regAddr .FLT_INJ_CTL 15 0) = 0 ∧ s.dev.test = test ∧
      bit 0x88000100 31 = true ∧ bit 0x88000100 29 = false ∧ bits 0x88000100 26 3 = 2 ∧ isCode (bits 0x88000100 0 12) = true ∧
      (scopeOf (bits 0x88000100 23 3) (bits 0x88000100 12 11)).isSome = true ∧ bit 0x20000000 29 = true ∧ bit 0x20000000 31 = false ∧
      (0x20000000 ^^^ (s.begin 0).rd .FLT_INJ_CTL 15) &&& (0x5FFFFFFF : Word) = 0) ∧
    (∀ c ∈ [2, 3], let s := (fltState 512 { Flt.reset with inj := [(15, ⟨false, 1, some c⟩)] } forceV).wr .FLT_INJ_CTL 0x08800100 15
      s.canonical ∧ s.powered ∧ (s.begin 0).que.overFelt ≠ some ((s.begin 0).fld f_QUE_AGENT_CTL_felt 20) ∧ (s.begin 0).canCapture = true ∧
      (s.begin 0).flt.queue = [] ∧ ((s.begin 0).injOf 15).due = some c ∧ (s.begin 0).cycle = 2 ∧
      (scopeOf ((s.begin 0).fld f_FLT_INJ_CTL_scope 15) ((s.begin 0).fld f_FLT_INJ_CTL_index 15)).isSome = true ∧
      (s.begin 0).fld f_FLT_INJ_CTL_class 15 = 2 ∧ (s.begin 0).unacked = []) ∧
    (∀ j < 64, (tileSafeState.begin 0).on f_CH_SWEEP_CTL_auto_resume (448 + j) = false) := by
  refine ⟨?_, ?_, ?_, ?_⟩ <;> decide

/-- The hypotheses of RunsStepsAndBurns about triggers are met: automatic triggers off and on, a temperature, a group's temperature, and the interval. -/
theorem test_witness_RunsStepsAndBurns_triggers :
    (let s := (sliceState 0 (Slice.reset 539) forceV id).wr .CAL_CTL 0; s.canonical ∧ s.powered ∧ (s.begin 0).on f_CAL_CTL_enable = false ∧
      (s.begin 0).on f_QUE_AGENT_CTL_enable (8 + 31 / 4) = false) ∧
    (∀ u ∈ [22118399999999999, 22118400000000000],
      let s := sliceState u { Slice.reset 539 with stepTemp := 10000, stepped := some 0 } forceV fun c => { c with groupTemp := [(31, 10000)] }
      s.canonical ∧ s.powered ∧ Table.rising (s.begin 0).cal.queue = true ∧ Table.rising (s.begin 0).cal.current = true ∧
      (s.begin 0).on f_CAL_CTL_enable = true ∧ (s.begin 0).domainOn (sliceDomain 539) = true ∧ ((s.begin 0).sliceOf 539).st = .serving ∧
      ((s.begin 0).sliceOf 539).stepTemp = 10000 ∧ 128 * (s.begin 0).fld f_CAL_CTL_temp_step = 1024 ∧ ((s.begin 0).sliceOf 539).stepped = some 0 ∧
      (decide (256000000 * ((s.begin 0).fld f_CAL_CTL_interval_h * 3600000) ≤ (s.begin 0).now) = decide (u = 22118400000000000)) ∧
      Table.get 0 31 (s.begin 0).cal.groupTemp = 10000 ∧ (s.begin 0).domainOn (5 * (31 / 4) + 31 % 4) = true ∧
      (s.begin 0).on f_QUE_AGENT_CTL_enable (8 + 31 / 4) = false) := by
  refine ⟨?_, ?_⟩ <;> decide

/-- The hypotheses of RunsStepsAndBurns about writes to CAL_CMD are met. -/
theorem test_witness_RunsStepsAndBurns_writes :
    (bit 0xA000021B 31 = true ∧ bit 0xA000021B 30 = false ∧ bit 0xA000021B 29 = true ∧ bits 0xA000021B 0 10 = 539 ∧ bit 0x80080000 29 = false ∧
      bits 0x8008021F 0 10 < 544 ∧ 544 ≤ bits 0x80000220 0 10 ∧ bit 0x4000021B 31 = false ∧ bit 0x4000021B 30 = true ∧ bits 0x4000021B 0 10 = 539) ∧
    (∀ running ∈ [false, true], ∀ sel ∈ ([[], [(0, 1)]] : List (Table DWord)),
      let s := sliceState 0 (Slice.reset 539) forceV fun c => { c with running, sel }; s.canonical ∧ s.powered ∧ s.answers 0x1020 = true ∧
      (s.begin 0).shielded (regAddr .CAL_CMD 0 0) = 0 ∧ (s.begin 0).domainOn (sliceDomain 539) = true ∧ ((s.begin 0).sliceOf 539).st ≠ .retired ∧
      539 ∉ (s.begin 0).queueOf 7 ∧ (s.begin 0).inStep 7 ≠ some 539 ∧ (s.begin 0).cal.running = running ∧ (s.begin 0).cal.burn = none ∧
      (s.begin 0).cal.sel = sel) ∧
    (let s := sliceState 0 (Slice.reset 539) forceV fun c => { c with burn := some ⟨7, 1392, 1, [1, 2, 3]⟩ }; s.canonical ∧ s.powered ∧
      (s.begin 0).cal.burn = some ⟨7, 1392, 1, [1, 2, 3]⟩ ∧ (s.begin 0).dutyPaused 1 = false ∧ (s.begin 0).cal.burnAgain = false) := by
  refine ⟨?_, ?_, ?_⟩ <;> decide

/-- A fuse array that the factory left unburnt has room for a generation of one record. -/
theorem test_free_generation (h : ∀ i, Config.factoryFuse i = 0) :
    let s := sliceState 0 (Slice.reset 539) forceV fun c => { c with sel := [(0, 1)] }
    (s.begin 0).genClaimed 1 = false ∧ (s.begin 0).poolNext + 3 * (s.begin 0).cal.sel.length ≤ 1920 := by
  have e : ∀ s : State, s.fuses = [] → s.genClaimed 1 = false ∧ s.poolNext = 1392 := by
    intro s hs
    simp [State.poolNext, State.genClaimed, State.genWord, State.fuseWord, hs, h, Table.get]
  obtain ⟨a, b⟩ := e (State.begin 0 (sliceState 0 (Slice.reset 539) forceV fun c => { c with sel := [(0, 1)] })) rfl
  exact ⟨a, by rw [b]; decide⟩

/-- The hypotheses of RunsStepsAndBurns about the start of a step and its phases are met, each at the last instant before its time and at it. -/
theorem test_witness_RunsStepsAndBurns_steps :
    (∀ y ∈ [Slice.reset 539, { Slice.reset 539 with st := .free }], let s := sliceState 0 y forceV fun c => { c with queue := [(7, [539])] }
      s.canonical ∧ s.powered ∧ (s.begin 0).inStep 7 = none ∧ (s.begin 0).dutyPaused 1 = false ∧ (s.begin 0).on f_CAL_CTL_enable = true ∧
      (s.begin 0).nextStep 7 = some 539) ∧
    (∀ u ∈ [16383999, 16384000], let s := sliceState u (inPhase .load false false) forceV id; s.canonical ∧ s.powered ∧
      ((s.begin 0).sliceOf 539).phase = .load ∧ ((s.begin 0).sliceOf 539).phaseAt = 0 ∧ (s.begin 0).now = u ∧ (s.begin 0).sliceChannel 539 = some 511) ∧
    (∀ l ∈ [false, true], ∀ d ∈ [false, true], ∀ x ∈ [Force.reset 511, forceV, { forceV with range := 6 }],
      let s := sliceState 256000000 (inPhase .measure l d) x id; s.canonical ∧ s.powered ∧
      ((s.begin 0).sliceOf 539).phase = .measure ∧ ((s.begin 0).sliceOf 539).phaseAt + 256000000 ≤ (s.begin 0).now ∧
      (s.begin 0).sliceChannel 539 = some 511 ∧ ((s.begin 0).forceOf 511).steps = [] ∧ ((s.begin 0).sliceOf 539).disturbed = d ∧
      ((s.begin 0).sliceOf 539).loaded = l ∧ (decide (((s.begin 0).forceOf 511).st = .detached) = decide (x.st = .detached)) ∧
      (((s.begin 0).forceOf 511).forbidsCheck = decide (x.range = 6 ∧ x.st ≠ .detached)) ∧ (s.begin 0).calibratedSpare 7 = none) ∧
    (let s := sliceState 256000000 (inPhase .measure false false) forceV fun c =>
        { c with slices := c.slices ++ [(543, { Slice.reset 543 with stepped := some 0 })] };
      s.canonical ∧ s.powered ∧ (s.begin 0).calibratedSpare 7 = some 543) := by
  refine ⟨?_, ?_, ?_, ?_⟩ <;> decide

/-- The hypotheses of RunsStepsAndBurns about the ends of a bridge, of the check and of the step are met, and about the retry. -/
theorem test_witness_RunsStepsAndBurns_ends :
    (∀ u ∈ [10239999, 10240000], let s := sliceState u { inPhase .openSlot false false with bridge := some 543 } forceV id; s.canonical ∧ s.powered ∧
      ((s.begin 0).sliceOf 539).bridge = some 543 ∧ ((s.begin 0).sliceOf 539).phaseAt = 0 ∧ (s.begin 0).now = u) ∧
    (∀ u ∈ [61439999, 61440000], let s := sliceState u (inPhase .openSlot false false) forceV id; s.canonical ∧ s.powered ∧
      ((s.begin 0).sliceOf 539).phase = .openSlot ∧ ((s.begin 0).sliceOf 539).phaseAt = 0 ∧ (s.begin 0).now = u ∧
      ((s.begin 0).sliceOf 539).bridge = none ∧ ((s.begin 0).sliceOf 539).disturbed = false) ∧
    (∀ u ∈ [206847999, 206848000], let s := sliceState u (inPhase .rest false false) forceV fun c => { c with current := [(7, 540)], running := true }
      s.canonical ∧ s.powered ∧ ((s.begin 0).sliceOf 539).phase = .rest ∧ ((s.begin 0).sliceOf 539).phaseAt = 0 ∧ (s.begin 0).now = u ∧
      (s.begin 0).inStep 7 = some 539 ∧ (s.begin 0).on f_QUE_AGENT_CTL_enable 21 = false ∧ 0 < (s.begin 0).fld f_CAL_LIMIT_span ∧
      0 < (s.begin 0).fld f_CAL_LIMIT_range ∧ (s.begin 0).fld f_CAL_LIMIT_span < 65535 ∧ (s.begin 0).fld f_CAL_LIMIT_range < 65535) ∧
    (∀ u ∈ [4, 5], let s := sliceState u { Slice.reset 539 with retryAt := some 5 } forceV id; s.canonical ∧ s.powered ∧
      ((s.begin 0).sliceOf 539).retryAt = some 5 ∧ (s.begin 0).now = u ∧ (s.begin 0).domainOn (sliceDomain 539) = true) := by
  refine ⟨?_, ?_, ?_, ?_⟩ <;> decide

/-- Tile 7 couching channel 511 onto spare 67, in a step that began at instant 0. -/
def couchState (u step tries : Nat) (y z : Slice) (x : Force) : State :=
  sliceState u y x fun c =>
    { c with
      slices := c.slices ++ [(543, z)]
      couch := [(7, { Couch.reset with step, slice := 67, channel := 511, tries })] }

/-- The spare of a couching, stepped at instant 5. -/
def spare67 (st : SliceState) : Slice := { Slice.reset 543 with st, stepped := some 5 }

/-- A channel in COUCHING that forced voltage. -/
def inCouch : Force := { forceV with st := .couching, before := .forcingV }

/-- The hypotheses of CouchingAndWear about commands and the start are met. -/
theorem test_witness_CouchingAndWear_start :
    (bit 0xC00001FF 31 = true ∧ bits 0xC00001FF 28 3 = 4 ∧ bits 0xD00001FF 28 3 = 5 ∧ bits 0xE00001FF 28 3 = 6 ∧ bits 0xC00001FF 0 9 = 511) ∧
    (let s := sliceState 0 (Slice.reset 539) forceV id; s.canonical ∧ s.powered ∧ s.answers 0x1020 = true ∧
      (s.begin 0).shielded (regAddr .CAL_COUCH_CMD 0 0) = 0 ∧ (s.begin 0).spareFor 511 (.command 4) = some 67 ∧
      (s.begin 0).spareFor 511 (.command 5) = none ∧ (s.begin 0).nextCouch 7 = none ∧ ((s.begin 0).couchOf 7).step = 0 ∧
      ((s.begin 0).couchOf 7).retryAt = none ∧ (s.begin 0).dutyPaused 1 = false) ∧
    (∀ x ∈ [Force.reset 511, forceV], let s := sliceState 0 { Slice.reset 539 with due := some (.command 4) } x id; s.canonical ∧ s.powered ∧
      (s.begin 0).couchReady 511 = some (.command 4, 67) ∧ (s.begin 0).nextCouch 7 = some (511, .command 4, 67) ∧
      (decide (((s.begin 0).forceOf 511).st = .detached) = decide (x.st = .detached)) ∧ (s.begin 0).sliceIdx 511 ≠ 68 * 7 + 67) := by
  refine ⟨?_, ?_, ?_⟩ <;> decide

/-- The hypotheses of CouchingAndWear about its steps are met, each at the last instant before its time and at it. -/
theorem test_witness_CouchingAndWear_steps :
    (∀ st ∈ [SliceState.precal, .retired], ∀ x ∈ [forceV, { forceV with range := 6 }], let s := couchState 10 1 0 (Slice.reset 539) (spare67 st) x
      s.canonical ∧ s.powered ∧ ((s.begin 0).couchOf 7).step = 1 ∧ 511 / 64 = 7 ∧ (s.begin 0).dutyPaused 1 = false ∧
      ((s.begin 0).sliceOf 543).stepped = some 5 ∧ ((s.begin 0).couchOf 7).at_ < 5 ∧ ((s.begin 0).sliceOf 543).st = st ∧
      ((s.begin 0).forceOf 511).steps = [] ∧ ((s.begin 0).forceOf 511).st = .forcingV ∧ ((s.begin 0).forceOf 511).range = x.range ∧
      (s.begin 0).flt.queue = [] ∧ (s.begin 0).unacked = []) ∧
    (∀ u ∈ [51199999, 51200000], ∀ tries ∈ [2, 3], let s := couchState u 2 tries (Slice.reset 539) (spare67 .matching) inCouch; s.canonical ∧ s.powered ∧
      ((s.begin 0).couchOf 7).step = 2 ∧ ((s.begin 0).couchOf 7).at_ = 0 ∧ (s.begin 0).now = u ∧ ((s.begin 0).couchOf 7).tries = tries ∧
      (s.begin 0).flt.queue = [] ∧ (s.begin 0).unacked = []) ∧
    (∀ u ∈ [511999, 512000], let s := couchState u 3 0 (Slice.reset 539) (spare67 .handover) inCouch; s.canonical ∧ s.powered ∧
      ((s.begin 0).couchOf 7).step = 3 ∧ ((s.begin 0).couchOf 7).at_ = 0 ∧ (s.begin 0).now = u ∧ (s.begin 0).dutyPaused 1 = false ∧
      ((s.begin 0).sliceOf (68 * 7 + 66)).st = .free) ∧
    (∀ u ∈ [16895999, 16896000], let s := couchState u 4 0 { Slice.reset 539 with due := some (.command 4) } (spare67 .handover) inCouch
      s.canonical ∧ s.powered ∧ ((s.begin 0).couchOf 7).step = 4 ∧ ((s.begin 0).couchOf 7).at_ = 0 ∧ (s.begin 0).now = u ∧
      ((s.begin 0).couchOf 7).slice < 68 ∧ ((s.begin 0).forceOf 511).st = .couching ∧ ((s.begin 0).forceOf 511).disabling = false ∧
      ((s.begin 0).forceOf 511).pending = none ∧ ((s.begin 0).forceOf 511).before = .forcingV ∧ (s.begin 0).sliceIdx 511 ≠ 543) := by
  refine ⟨?_, ?_, ?_, ?_⟩ <;> decide

/-- The hypotheses of CouchingAndWear about its last spare, the retry and the wear log are met. -/
theorem test_witness_CouchingAndWear_rest :
    (let s := sliceState 512000 (Slice.reset 539) inCouch fun c =>
        { c with
          slices := c.slices ++ ([540, 541, 542, 543].map fun i => (i, { Slice.reset i with st := .handover }))
          couch := [(7, { Couch.reset with step := 3, slice := 67, channel := 511 })] };
      s.canonical ∧ s.powered ∧ ((s.begin 0).couchOf 7).step = 3 ∧ 64 ≤ ((s.begin 0).couchOf 7).slice ∧
      (∀ q, 64 ≤ q → q < 68 → ((s.begin 0).sliceOf (68 * 7 + q)).st ≠ .free)) ∧
    (∀ u ∈ [4, 5], let s := sliceState u { Slice.reset 539 with due := some .wear } forceV fun c =>
        { c with couch := [(7, { Couch.reset with channel := 511, tries := 1, retryAt := some 5 })] };
      s.canonical ∧ s.powered ∧ ((s.begin 0).couchOf 7).retryAt = some 5 ∧ (s.begin 0).now = u ∧ (s.begin 0).dutyPaused 1 = false ∧
      (s.begin 0).couchReady 511 = some (.wear, 67) ∧ ((s.begin 0).forceOf 511).st ≠ .detached) ∧
    (let s := sliceState 0 { Slice.reset 539 with tMax := some 10000, cycles := 65535 } forceV id; s.canonical ∧ s.powered ∧
      (s.begin 0).domainOn (sliceDomain 539) = true ∧ (s.begin 0).sliceChannel 539 = some 511 ∧ (s.begin 0).sliceChannel 543 = none ∧
      ((s.begin 0).sliceOf 539).tMax = some 10000) ∧
    ((State.begin 0 State.reset).domainOn (sliceDomain 539) = false ∧ (State.begin 0 State.reset).boot.wearLog = none) ∧
    (let s := { State.reset with boot := { State.reset.boot with wearLog := some (1, 65536) } }; s.canonical ∧ s.powered ∧
      (s.begin 0).boot.wearLog = some (1, 65536) ∧ (s.begin 0).dutyPaused 1 = false) := by
  refine ⟨?_, ?_, ?_, ?_, ?_⟩ <;> decide

/-- A device in boot phase `p` at instant `u`. -/
def phaseState (u p : Nat) : State := { State.reset with now := u, dev := { State.reset.dev with phase := p } }

/-- The hypotheses of StartUpAndFlash about the boot phases are met, in each phase, at the end of web training's 100 ms and before it. -/
theorem test_witness_StartUpAndFlash_phases :
    (let s := { State.reset with pwr := { State.reset.pwr with porHeld := true } }; s.canonical ∧ s.pwr.porHeld = true) ∧
    (∀ p ∈ [0, 1, 2, 3, 4, 5, 6, 7, 15], (phaseState 0 p).canonical ∧ (phaseState 0 p).powered ∧ (phaseState 0 p).dev.phase = p) ∧
    (∀ u ∈ [25599999999, 25600000000], ∀ st ∈ [PortState.detect, .active, .failed],
      let s := { portState u (portIn st) [(.WEB_PORT_CTL, 0x80000000)] with dev := { State.reset.dev with phase := 4 } }; s.canonical ∧ s.powered ∧
      s.dev.phase = 4 ∧ (s.begin 0).boot.phaseAt = 0 ∧ (s.begin 0).now = u ∧ (s.begin 0).on f_WEB_PORT_CTL_enable 3 = true ∧
      ((s.begin 0).portOf 3).st = st ∧ (∀ p, p < 3 → (s.begin 0).on f_WEB_PORT_CTL_enable p = false)) ∧
    (∀ running ∈ [false, true], let s := { phaseState 0 5 with cal := { Cal.reset with running, queue := [(7, [539])], current := [(7, 541)] } }
      s.canonical ∧ s.powered ∧ s.dev.phase = 5 ∧ (s.begin 0).cal.running = running ∧ Table.rising (s.begin 0).cal.queue = true ∧
      Table.rising (s.begin 0).cal.current = true) ∧
    (∀ ready ∈ [false, true], ∀ fore ∈ [false, true],
      let s := { phaseState 0 6 with dev := { State.reset.dev with phase := 6, forerunner := fore }, tb := { Tb.reset with ready } }
      s.canonical ∧ s.powered ∧ s.dev.phase = 6 ∧ (s.begin 0).tb.ready = ready ∧ s.dev.forerunner = fore) := by
  refine ⟨?_, ?_, ?_, ?_, ?_⟩ <;> decide

/-- The hypotheses of StartUpAndFlash about the flash are met. -/
theorem test_witness_StartUpAndFlash_flash :
    (∀ p ∈ [7, 15], let s := phaseState 0 p; s.canonical ∧ s.powered ∧ s.answers 0x1020 = true ∧
      (s.begin 0).shielded (regAddr .BOOT_FLASH_CTL 0 0) = 0 ∧ (s.begin 0).boot.flashCmd = none ∧ (decide (s.dev.phase = 0xF) = decide (p = 15))) ∧
    (bits 0x10000001 28 4 = 1 ∧ bits 0x20000001 28 4 = 2 ∧ bits 0x30000001 28 4 = 3 ∧ bits 0xF0000001 28 4 = 0xF ∧ bits 0x10000001 0 1 = 1) ∧
    (∀ c ∈ [1, 2, 3], let s := { phaseState 0 15 with boot := { Boot.reset with flashCmd := some (c, 2 ^ 30 - 64) } }; s.canonical ∧ s.powered ∧
      (s.begin 0).boot.flashCmd = some (c, 2 ^ 30 - 64)) ∧
    (flashLine (2 ^ 30 - 64)).length = 64 ∧ (flashLine (2 ^ 30 - 64)).getLast? = some (2 ^ 30 - 1) := by
  refine ⟨?_, ?_, ?_, ?_, ?_⟩ <;> decide

/-- The hypotheses of StartUpAndFlash about the records in the fuses are met, where the factory left the couching and repair records unburnt. -/
theorem test_free_records (h : ∀ i, Config.factoryFuse i = 0) :
    (∀ r, r < 32 → (State.begin 0 State.reset).fuseWord (1921 + 2 * r) ≠ fuseMarker) ∧
      ∀ r, r < 32 → (State.begin 0 State.reset).fuseWord (1985 + 2 * r) ≠ fuseMarker := by
  have e : ∀ s : State, s.fuses = [] → ∀ i, s.fuseWord i ≠ fuseMarker := by
    intro s hs i
    simp [State.fuseWord, hs, h, Table.get, fuseMarker]
  exact ⟨fun r _ => e _ rfl _, fun r _ => e _ rfl _⟩

/-- The device in RUNNING at instant `u`, its hub lit, with the boot block as `f` makes it. -/
def bootState (u : Nat) (f : Boot → Boot) : State :=
  lit { State.reset with now := u, dev := { State.reset.dev with phase := 7, nodeValid := true }, boot := f Boot.reset }

/-- An amendment in state `st`: a package opened by requester 4094, its header held, for frame `n`. -/
def amendIn (st : AmendState) (n : Nat) : Amend := { Amend.reset with st, opener := 4094, have_ := [(0, 64)], frame := n }

/-- The hypotheses of CoresAmendmentsAttestation about cores and doorbells are met. -/
theorem test_witness_CoresAmendmentsAttestation_cores :
    (let s := bootState 0 id; s.canonical ∧ s.powered ∧ (s.begin 0).domainOn (58 + 3) = true ∧ (∀ k, k < 4 → ((s.begin 0).coreOf k).failed = false ∧
      ((s.begin 0).coreOf k).duty = k ∧ ((s.begin 0).coreOf k).restarting = false)) ∧
    ((State.begin 0 State.reset).domainOn (58 + 3) = false) ∧
    (let s := bootState 0 fun b => { b with cores := [(1, ⟨3, true, false⟩), (3, ⟨3, false, true⟩)] }; s.canonical ∧ s.powered ∧
      ((s.begin 0).coreOf 3).failed = false ∧ ((s.begin 0).coreOf 3).restarting = true ∧ ((s.begin 0).coreOf 3).duty = 3 ∧
      (s.begin 0).dutyCore 1 = none ∧ (s.begin 0).dutyPaused 1 = true ∧ (s.begin 0).dutyPaused 0 = false) ∧
    (∀ l ∈ [[0], [0, 1]], let s := bootState 0 fun b => { b with amend := { amendIn .switching 0 with switch := l, newBank := 1 } }
      s.canonical ∧ s.powered ∧ (s.begin 0).boot.amend.st = .switching ∧ (s.begin 0).boot.amend.switch = l ∧ (s.begin 0).dutyPaused 0 = false ∧
      (s.begin 0).hostPaused = true) ∧
    (∀ a ∈ [0, 1, 2, 3], let s := { bootState 0 fun b => { b with doorbells := [(15, ⟨a, 0x80⟩)] } with evm := { Evm.reset with pend := [(1783, 15)] } }
      s.canonical ∧ s.powered ∧ (s.begin 0).pendOf (1768 + 15) ≠ 0 ∧ (s.begin 0).hostPaused = false ∧ s.dev.phase = 7 ∧
      (Table.get Doorbell.reset 15 (s.begin 0).boot.doorbells).action = a ∧ Table.rising (s.begin 0).evm.pend = true ∧
      Table.rising (s.begin 0).cal.queue = true ∧ (∀ c, c < 4 → (s.begin 0).on f_QUE_AGENT_CTL_enable (24 + c) = false)) := by
  refine ⟨?_, ?_, ?_, ?_, ?_⟩ <;> decide

/-- The hypotheses of CoresAmendmentsAttestation about packages are met: segments, their staging, the timeout at its instant, abort and the boundary. -/
theorem test_witness_CoresAmendmentsAttestation_amendments :
    (∀ st ∈ [AmendState.idle, .receiving, .verifying, .staged, .switching], ∀ u ∈ [2559999999999, 2560000000000],
      let s := bootState u fun b => { b with amend := amendIn st 5, stagingMib := some 1 }; s.canonical ∧ s.powered ∧ s.answers 4094 = true ∧
      (s.begin 0).boot.amend = amendIn st 5 ∧ (s.begin 0).boot.stagingMib = some 1 ∧ (s.begin 0).now = u ∧
      (decide ((s.begin 0).hostPaused = true) = decide (st = .switching)) ∧ (s.begin 0).shielded (regAddr .BOOT_AMEND_CTL 0 0) = 0) ∧
    ((amendIn .receiving 5).segAt = 0 ∧ (amendIn .receiving 5).opener = 4094 ∧ bit 0x80000000 31 = true) ∧
    (∀ l ∈ [[], [(0, 8)]], let a := { amendIn .receiving 0 with have_ := l }; a.holds 12 4 = false) ∧
    (∀ f ∈ [0, 1], ∀ r ∈ [1, 2], let s := { bootState 512 fun b => { b with amend := amendIn .staged f } with
        tb := { Tb.reset with ready := true, readyFrame := r, state := .locked } };
      s.canonical ∧ s.powered ∧ (s.begin 0).boot.amend = amendIn .staged f ∧ (amendIn .staged f).holds 0 36 = true ∧
      (decide ((s.begin 0).boundaryCame f = true) = decide (f = 0)) ∧ s.dev.forerunner = false ∧
      (decide (rtBefore ⟨0, 0, 0⟩ ⟨((s.begin 0).tb.readyFrame + 2 ^ 32 - 1) % 2 ^ 32, 0, 0⟩ = true) = decide (r = 2))) ∧
    (∀ u ∈ [255, 256], let s := { bootState u fun b => { b with amend := amendIn .staged 0 } with
        dev := { State.reset.dev with phase := 7, nodeValid := true, forerunner := true } };
      s.canonical ∧ s.powered ∧ s.dev.forerunner = true ∧ (s.begin 0).boot.amend.st = .staged ∧
      (decide ((s.begin 0).boot.amend.segAt / 256 < (s.begin 0).cycle) = decide (u = 256))) := by
  refine ⟨?_, ?_, ?_, ?_, ?_⟩ <;> decide

/-- The hypotheses of CoresAmendmentsAttestation about slot writes, attestation and windows are met. -/
theorem test_witness_CoresAmendmentsAttestation_rest :
    (∀ n ∈ [0, 1], let s := bootState 0 fun b => { b with slotState := n, slotImage := [1, 2, 3] }; s.canonical ∧ s.powered ∧
      (s.begin 0).boot.slotImage ≠ [] ∧ (s.begin 0).boot.slotState = n ∧ (s.begin 0).dutyPaused 1 = false) ∧
    (∀ n ∈ [0, 3, 4], let s := bootState 0 fun b => { b with attest := List.replicate n (5, 4094, 65535, 0) }; s.canonical ∧ s.powered ∧
      s.answers 4094 = true ∧ (s.begin 0).hostPaused = false ∧ (s.begin 0).boot.attest.length = n) ∧
    (∀ fore ∈ [false, true], let s := { bootState 0 fun b => { b with foreSet := [1, 0, 0, 0, 0xFF, 0x0F, 0, 0] } with
        dev := { State.reset.dev with phase := 7, nodeValid := true, forerunner := fore } };
      s.canonical ∧ s.powered ∧ s.answers 4094 = true ∧ s.dev.forerunner = fore ∧ s.virtualNode 0 = 1 ∧ s.virtualNode 1 = 4095) := by
  refine ⟨?_, ?_, ?_⟩ <;> decide

/-- A lit device at instant `u` with the supplies and the governor as `f` makes them. -/
def pwrState (u : Nat) (f : Pwr → Pwr) : State :=
  let s := lit { State.reset with now := u, force := Table.put (Force.reset 511) 511 forceV [] }
  { s with pwr := f s.pwr }

/-- The hypotheses of SuppliesAndGovernor about supplies are met: a hub in reset and not, a tile rail lost or not, the 50 µs of its domains, and rails that are lost. -/
theorem test_witness_SuppliesAndGovernor_supplies :
    (∀ h ∈ [false, true], let s := pwrState 0 fun p => { p with hubReset := h }; s.canonical ∧ s.pwr.porHeld = false ∧ s.pwr.hubReset = h) ∧
    (∀ u ∈ [12799999, 12800000], ∀ l ∈ [0, 128],
      let s := pwrState u fun p => { p with tileLost := l, offDue := if l = 0 then [] else [(7, 0)] }
      s.canonical ∧ s.pwr.porHeld = false ∧ s.pwr.hubReset = false ∧ (decide ((s.begin 0).pwr.tileLost.testBit 7 = true) = decide (l = 128)) ∧
      (s.begin 0).unacked = [] ∧ ((s.begin 0).pwr.offDue.find? (fun x => decide (x.1 = 7)) = if l = 0 then none else some (7, 0)) ∧
      (decide (12800000 ≤ (s.begin 0).now) = decide (u = 12800000))) ∧
    (∀ h ∈ [0, 511], let s := pwrState 0 fun p => { p with hubOk := h }; s.canonical ∧ s.pwr.porHeld = false ∧ s.pwr.hubReset = false ∧
      (∀ r, r < 9 → (s.begin 0).pwr.hubOk.testBit r = decide (h = 511)) ∧ (s.begin 0).unacked = []) := by
  refine ⟨?_, ?_, ?_⟩ <;> decide

/-- The hypotheses of SuppliesAndGovernor about the governor are met: temperatures at 115 °C and 125 °C and below, the allowance used up, 10 ms after a step and less, 1 s after a
release and less. -/
theorem test_witness_SuppliesAndGovernor_governor :
    (∀ v ∈ ([1839, 1840, 1999, 2000] : List Nat), let s := pwrState 0 fun p => { p with tileTemp := [(7, v)] }; s.canonical ∧
      sixteenths (Table.get 0 7 (s.begin 0).pwr.tileTemp) = (v : Int) ∧ sixteenths (v % 65536) = (v : Int) ∧ Table.rising (s.begin 0).pwr.tileTemp = true ∧
      (s.begin 0).unacked = [] ∧ Table.rising (s.begin 0).pwr.tileSteps = true ∧ (s.begin 0).govSteps 7 = 0 ∧ (s.begin 0).pwr.relAt = none ∧
      (s.begin 0).pwr.tileStepAt.find? (fun x => decide (x.1 = 7)) = none) ∧
    (∀ u ∈ [2559999999, 2560000000], ∀ d ∈ [6, 7], let s := pwrState u fun p => { p with timer := 500, powerMw := 300000, devSteps := d, stepAt := some 0 }
      s.canonical ∧ (s.begin 0).fld f_PWR_CTL_allow_ms ≤ (s.begin 0).pwr.timer ∧ (s.begin 0).fld f_PWR_CTL_budget_w * 1000 < (s.begin 0).pwr.powerMw ∧
      (s.begin 0).pwr.devSteps = d ∧ (s.begin 0).pwr.stepAt = some 0 ∧ (s.begin 0).now = u ∧ (s.begin 0).pwr.relAt = none) ∧
    (∀ u ∈ [255999999999, 256000000000], let s := pwrState u fun p =>
        { p with tileSteps := [(7, 1)], coolSince := [(7, 0)], devSteps := 1, lowSince := some 0, relAt := some 0 };
      s.canonical ∧ (s.begin 0).on f_QUE_AGENT_CTL_enable 29 = false ∧ (s.begin 0).pwr.relAt = some 0 ∧ (s.begin 0).now = u ∧
      Table.get 0 7 (s.begin 0).pwr.tileSteps = 1 ∧ (s.begin 0).pwr.coolSince.find? (fun x => decide (x.1 = 7)) = some (7, 0) ∧
      (s.begin 0).pwr.devSteps = 1 ∧ (s.begin 0).pwr.lowSince = some 0 ∧ Table.get 0 6 (s.begin 0).pwr.tileSteps = 0) := by
  refine ⟨?_, ?_, ?_⟩ <;> decide

/-- The hypotheses of SuppliesAndGovernor about domains are met: the last slice group and web port, on and off, in use and not. -/
theorem test_witness_SuppliesAndGovernor_domains :
    (bits 0x80000026 0 6 = 38 ∧ bits 0x8000002B 0 6 = 43 ∧ bits 0x8000002C 0 6 = 44 ∧ bit 0x80000026 31 = true ∧ bit 0x80000026 30 = false ∧
      bit 0x40000026 31 = false ∧ bit 0x40000026 30 = true ∧ bit 0xC0000026 31 = bit 0xC0000026 30) ∧
    (State.reset.canonical ∧ State.reset.powered ∧ State.reset.answers 0x1020 = true ∧
      (State.begin 0 State.reset).shielded (regAddr .PWR_DOMAIN_REQ 0 0) = 0 ∧ (State.begin 0 State.reset).domainOn 38 = false ∧
      (State.begin 0 State.reset).groupInUse 38 = false) ∧
    (∀ x ∈ [Force.reset 511, forceV], let s := chan 0 x []; s.canonical ∧ (s.begin 0).domainOn 38 = true ∧
      (s.begin 0).groupInUse 38 = decide (x.st ≠ .detached)) ∧
    (∀ st ∈ [PortState.disabled, .active], let s := portState 0 (portIn st) [(.WEB_PORT_CTL, 0x80000000)]; s.canonical ∧
      (s.begin 0).on f_WEB_PORT_CTL_enable (43 - 40) = true ∧ (s.begin 0).webRails = true ∧ ((s.begin 0).portOf (43 - 40)).st = st ∧
      (s.begin 0).webPortInUse (43 - 40) = false ∧ ((s.wr .WEB_ROUTE 0x80000003 4095).begin 0).webPortInUse (43 - 40) = true) ∧
    (let s := pwrState 0 fun p => { p with rising := [(38, 0)] }; s.canonical ∧ (s.begin 0).domainOn 38 = true ∧
      (∃ x ∈ (s.begin 0).pwr.rising, x.1 = 38) ∧ Table.rising (s.begin 0).cal.queue = true) := by
  refine ⟨?_, ?_, ?_, ?_, ?_⟩ <;> decide

end Sys2Proof.Tests
end

section
/-!
PROOFS. Reads of registers, and accesses that are not performed (R7, R24, R26, R28 to R31, R396): what an access of a requester comes to
once it is answered, what a snapshot shadow holds after it is stored, and what vat SRAM holds after a word is written.
-/

namespace Sys2Proof.Machine

open Sys2Proof

section Rules
variable {s : State} {t m a : Nat}

/-! ## What time's passing to the command's instant leaves as it was -/

@[simp] theorem State.begin_dev : (s.begin t).dev = s.dev := (State.passes_begin (Within.refl _) s t).dev rfl

@[simp] theorem State.begin_pwr : (s.begin t).pwr = s.pwr := (State.passes_begin (Within.refl _) s t).pwr rfl

@[simp] theorem State.begin_target : (s.begin t).target a = s.target a := by
  unfold State.target
  rw [State.begin_dev]

@[simp] theorem State.begin_answers : (s.begin t).answers m = s.answers m := by
  unfold State.answers State.dead
  rw [State.begin_dev, State.begin_pwr]

theorem State.canonical.begin_regs_rising (h : s.canonical) (t : Nat) : Table.rising (s.begin t).regs = true :=
  (State.canonical_begin h t).fine.regs

/-! ## An access that is answered -/

theorem State.foreign_of_target_ne_window {w : Bool} (h : s.target a ≠ .window) : s.foreign a w = none :=
  if_neg fun g => h g.1

theorem State.foreign_of_unaligned {w : Bool} (h : a % 4 ≠ 0) : s.foreign a w = none :=
  if_neg fun g => h g.2.1

theorem State.access_of_answers {f : State → Done} (h : s.answers m = true) :
    s.access m f = { (f s).st with resp := ⟨m, decide ((f s).status ≠ 0), (f s).data⟩ } :=
  if_pos h

theorem State.busRead_of_not_foreign (h : s.foreign a false = none) :
    s.busRead t m a = .next (s.act t fun s => s.access m fun s => s.readAt m a false) := by
  unfold State.busRead
  rw [h]

theorem State.busWrite_of_not_foreign {v : Word} (h : s.foreign a true = none) :
    s.busWrite t m a v = .next (s.act t fun s => s.access m fun s => s.writeAt m a v none false) := by
  unfold State.busWrite
  rw [h]

/-- The answer is given after the access has acted, and changes nothing else. -/
theorem OnlyChanges.answered {l : List Part} {b e : State} (h : OnlyChanges l b e) (hl : .resp ∈ l) (x : Resp) :
    OnlyChanges l b { e with resp := x } := by
  obtain ⟨hpending, hnow, hparts⟩ := h
  refine ⟨hpending, hnow, fun p hp => ?_⟩
  cases p
  case resp => exact absurd hl hp
  all_goals exact hparts _ hp

/-- A command that is an answered access completes with what the access itself did and with its answer. -/
theorem Completes.access {c : Instr} {l : List Part} {P : State → State → Prop} {f : State → Done} {d : Done} (hpow : s.powered)
    (hans : s.answers m = true) (hexec : exec c s = .next (s.act t fun s => s.access m f)) (hd : f (s.begin t) = d)
    (hframe : OnlyChanges l (s.begin t) d.st) (hl : .resp ∈ l)
    (hP : P (s.begin t) { d.st with resp := ⟨m, decide (d.status ≠ 0), d.data⟩ }) : Completes c t s l P := by
  have hbody : (s.begin t).access m f = { d.st with resp := ⟨m, decide (d.status ≠ 0), d.data⟩ } := by
    rw [State.access_of_answers (by simpa using hans), hd]
  refine Completes.act (ok := true) hpow hexec rfl ?_ ?_
  · rw [hbody]; exact hframe.answered hl _
  · rw [hbody]; exact hP

/-! ## Reads of registers (R7, R28 to R30) -/

theorem State.readAt_of_reg {r : Reg} {i j : Nat} {bad : Bool} (ha : a % 4 = 0) (h : s.target a = .reg r i j) :
    s.readAt m a bad = ⟨(s.readReg m r i j).1, 0, (s.readReg m r i j).2⟩ := by
  simp [State.readAt, ha, h]

/-- A read that reaches a register completes with what reading that register does and returns. -/
theorem Completes.registerRead {c : Instr} {l : List Part} {P : State → State → Prop} {r : Reg} {i j : Nat} {x : State × Word}
    (hpow : s.powered) (hans : s.answers m = true) (ha : a % 4 = 0) (htarget : s.target a = .reg r i j)
    (hexec : exec c s = s.busRead t m a) (hread : (s.begin t).readReg m r i j = x) (hframe : OnlyChanges l (s.begin t) x.1)
    (hl : .resp ∈ l) (hP : P (s.begin t) { x.1 with resp := ⟨m, false, x.2⟩ }) : Completes c t s l P := by
  have hnot_foreign : s.foreign a false = none := State.foreign_of_target_ne_window (htarget.trans_ne nofun)
  have hdone : (s.begin t).readAt m a false = ⟨x.1, 0, x.2⟩ := by
    rw [State.readAt_of_reg ha (by simpa using htarget), hread]
  exact Completes.access hpow hans (hexec.trans (State.busRead_of_not_foreign hnot_foreign)) hdone hframe hl hP

theorem State.readReg_outside_pair {r : Reg} {i j : Nat} (hpop : r ≠ .QUE_FELT_POP) (h : pairHalf r i j = none) :
    s.readReg m r i j = s.readClear r i j := by
  unfold State.readReg
  split
  · contradiction
  · rw [h]

theorem State.readReg_half {r : Reg} {i j : Nat} {hi : Bool} (h : pairHalf r i j = some hi) :
    s.readReg m r i j = if hi then s.readHi m (regAddr r i j) else s.readLo m (regAddr r i j) := by
  unfold State.readReg
  split
  · cases h
  · rw [h]; cases hi <;> rfl

theorem State.readClear_rd (h : Table.rising s.regs = true) (r : Reg) (i j : Nat) :
    (s.readClear r i j).1.rd r i j = s.rd r i j &&& ~~~ accMask r (fun x => x == .rc) := by
  unfold State.readClear
  dsimp only
  split
  · next hmask => rw [hmask, BitVec.ofNat_eq_ofNat, BitVec.not_zero, BitVec.and_allOnes]
  · exact State.rd_wr_same h ..

theorem State.sameBut_readClear (h : Table.rising s.regs = true) (r : Reg) (i j : Nat) :
    Table.SameBut [regAddr r i j] s.regs (s.readClear r i j).1.regs := by
  unfold State.readClear
  dsimp only
  split
  · exact Table.SameBut.refl _ _
  · exact Table.SameBut.put h _ _ _

/-! ## Snapshot shadows (R28 to R31) -/

/-- A shadow list in which no other shadow is of master `m` holds for `m` the pair of the shadow at its end, and no other. -/
theorem find_shadow_append {l : List Shadow} (h : ∀ x ∈ l, x.master ≠ m) (p q : Nat) (hi : Word) :
    (l ++ [(⟨m, p, hi⟩ : Shadow)]).find? (fun x => decide (x.master = m ∧ x.pair = q)) = if p = q then some ⟨m, p, hi⟩ else none := by
  have hnone : l.find? (fun x => decide (x.master = m ∧ x.pair = q)) = none :=
    List.find?_eq_none.2 fun x hx hf => h x hx (of_decide_eq_true hf).1
  rw [List.find?_append, hnone]
  by_cases hpq : p = q <;> simp [hpq]

/-- A master holds one shadow: storing one replaces whatever it held (R28). -/
theorem State.shadowOf_storeShadow (p q : Nat) (hi : Word) :
    (s.storeShadow m p hi).shadowOf m q = if p = q then some hi else none := by
  have hother : ∀ l : List Shadow, ∀ x ∈ l.filter (fun x => decide (x.master ≠ m)), x.master ≠ m :=
    fun l x hx => of_decide_eq_true (List.mem_filter.1 hx).2
  by_cases hremote : m < 0x1000
  · simp only [State.storeShadow, State.shadowOf, hremote, if_true]
    rw [find_shadow_append]
    · split <;> rfl
    · intro x hx
      split at hx
      · exact hother _ x (List.mem_of_mem_drop hx)
      · exact hother _ x hx
  · simp only [State.storeShadow, State.shadowOf, hremote, if_false]
    rw [find_shadow_append (hother _)]
    split <;> rfl

@[simp] theorem State.storeShadow_stages (p : Nat) (hi : Word) : (s.storeShadow m p hi).dev.stages = s.dev.stages := by
  unfold State.storeShadow
  split <;> rfl

theorem State.readHi_of_shadow {w : Word} (h : s.shadowOf m (a - 4) = some w) : s.readHi m a = (s, w) := by
  unfold State.readHi
  rw [h]

theorem State.readHi_of_no_shadow (h : s.shadowOf m (a - 4) = none) :
    s.readHi m a = (s.tally f_DEVICE_SNAP_MISS_count, s.viewAt a) := by
  unfold State.readHi
  rw [h]

theorem State.snapMiss_tally (h : Table.rising s.regs = true) :
    (s.tally f_DEVICE_SNAP_MISS_count).fld f_DEVICE_SNAP_MISS_count = min 0xFFFF (s.fld f_DEVICE_SNAP_MISS_count + 1) :=
  State.fld_tally h 1 0 (by decide)

theorem State.sameBut_snapMiss_tally (h : Table.rising s.regs = true) :
    Table.SameBut [regAddr .DEVICE_SNAP_MISS 0 0] s.regs (s.tally f_DEVICE_SNAP_MISS_count).regs :=
  State.sameBut_setFld h f_DEVICE_SNAP_MISS_count _ 0 0

/-! ## Accesses that are not performed (R24, R26, R396) -/

theorem State.readAt_of_unaligned {bad : Bool} (ha : a % 4 ≠ 0) : s.readAt m a bad = ⟨s.reservedAccess m a false, 5, 0⟩ :=
  if_pos ha

theorem State.writeAt_of_unaligned {v : Word} {codes : Option (List Int)} {bad : Bool} (ha : a % 4 ≠ 0) :
    s.writeAt m a v codes bad = ⟨s.reservedAccess m a true, 5, 0⟩ :=
  if_pos ha

theorem State.readAt_of_reserved {bad : Bool} (ha : a % 4 = 0) (h : s.target a = .reserved) :
    s.readAt m a bad = ⟨s.reservedAccess m a false, 1, 0⟩ := by
  simp [State.readAt, ha, h]

theorem State.writeAt_of_reserved {v : Word} {codes : Option (List Int)} {bad : Bool} (ha : a % 4 = 0) (h : s.target a = .reserved) :
    s.writeAt m a v codes bad = ⟨s.reservedAccess m a true, 1, 0⟩ := by
  simp [State.writeAt, ha, h]

/-- The parts of the state that logging an access which is not performed may change, with its answer. -/
def notPerformedParts : List Part := [.regs, .evm, .force, .engs, .que, .memc, .vat, .flt, .cal, .resp]

/-- An answered access that only logs its fault, and ends with an error status, completes with that log and an error answer. -/
theorem Completes.notPerformed {c : Instr} {f : State → Done} {w : Bool} {status : Nat} (hpow : s.powered) (hans : s.answers m = true)
    (hexec : exec c s = .next (s.act t fun s => s.access m f)) (hstatus : status ≠ 0)
    (hdone : f (s.begin t) = ⟨(s.begin t).reservedAccess m a w, status, 0⟩) :
    Completes c t s notPerformedParts fun b e =>
      e = { b.accessFault 0x002 1 .none m (accessType a w) a with resp := ⟨m, true, 0⟩ } := by
  refine Completes.access hpow hans hexec hdone (.of (State.keeps_reservedAccess (Within.refl _) (Keeps.refl _) ..) rfl) (by decide) ?_
  simp [hstatus, State.reservedAccess]

/-! ## Vat SRAM (R26) -/

theorem leBytes_word (v : Word) : leBytes v.toNat 4 = [byteOf v 0, byteOf v 1, byteOf v 2, byteOf v 3] := by
  simp [leBytes, byteOf, Nat.shiftRight_eq_div_pow, Nat.div_div_eq_div_mul]

theorem State.target_vat {o : Nat} (h : o < 2 ^ 25) : s.target (2 ^ 34 + o) = .vat := by
  unfold State.target
  rw [if_neg (by omega), if_pos (by omega)]

theorem State.foreign_vat {o : Nat} {w : Bool} (h : o < 2 ^ 25) : s.foreign (2 ^ 34 + o) w = none :=
  State.foreign_of_target_ne_window ((State.target_vat h).trans_ne nofun)

theorem accessType_vatWrite {o : Nat} (h : o < 2 ^ 25) : accessType (2 ^ 34 + o) true = 4 := by
  unfold accessType
  rw [if_pos (by omega)]
  rfl

theorem State.writeAt_of_vat {v : Word} {o : Nat} {codes : Option (List Int)} {bad : Bool} (ho : o % 4 = 0) (h : o < 2 ^ 25) :
    s.writeAt m (2 ^ 34 + o) v codes bad = s.writeVat m (2 ^ 34 + o) (leBytes v.toNat 4) := by
  have ha : (2 ^ 34 + o) % 4 = 0 := by omega
  simp only [State.writeAt, ha, State.target_vat h, ne_eq, not_true_eq_false, if_false]

theorem State.writeVat_without_test {l : List Byte} (h : s.dev.test = false) : s.writeVat m a l = ⟨s.reservedAccess m a true, 1, 0⟩ := by
  simp [State.writeVat, h]

/-- The bytes of word `v` stored at offset `o` of a table of bytes, the lowest first (R5). -/
def Table.insertWord (o : Nat) (v : Word) (t : Table Byte) : Table Byte :=
  Table.insert (o + 3) (byteOf v 3) (Table.insert (o + 2) (byteOf v 2) (Table.insert (o + 1) (byteOf v 1) (Table.insert o (byteOf v 0) t)))

theorem State.writeVat_with_test {v : Word} {o : Nat} (h : s.dev.test = true) :
    s.writeVat m (2 ^ 34 + o) (leBytes v.toNat 4) = ⟨{ s with vat := Table.insertWord o v s.vat }, 0, 0⟩ := by
  simp [State.writeVat, h, leBytes_word, Table.insertWord, List.range_succ]

theorem Table.get_insertWord {o k : Nat} {v : Word} {t : Table Byte} (h : k < 4) :
    Table.get 0 (o + k) (Table.insertWord o v t) = byteOf v k := by
  unfold Table.insertWord
  interval_cases k <;> simp [Table.get_insert_same, Table.get_insert_other]

theorem Table.sameBut_insertWord (o : Nat) (v : Word) (t : Table Byte) :
    Table.SameBut [o, o + 1, o + 2, o + 3] t (Table.insertWord o v t) := by
  intro k hk d
  simp only [List.mem_cons, List.not_mem_nil, or_false, not_or] at hk
  obtain ⟨h0, h1, h2, h3⟩ := hk
  unfold Table.insertWord
  rw [Table.get_insert_other h3, Table.get_insert_other h2, Table.get_insert_other h1, Table.get_insert_other h0]

/-! ## The forerunner window (R24) -/

theorem State.target_window_reserved (h : s.dev.forerunner = false) (hlo : 0x900000000 ≤ a) (hhi : a < 0x901000000) :
    s.target a = .reserved := by
  unfold State.target
  rw [if_neg (by omega), if_neg (by omega), if_pos ⟨hlo, hhi⟩, h]
  rfl

end Rules

/-! ## The obligations -/

/-- Settles O11: each kind of read is what `State.readReg` comes to, with the frame that the read operations keep. -/
theorem registerReads : Obligations.RegisterReads := by
  intro s t m a r i j hcan hpow hans ha htarget
  have hregs := hcan.begin_regs_rising t
  refine ⟨fun hpair hpop => ?_, fun hpair => ?_, fun hpair w hshadow => ?_, fun hpair hshadow => ?_⟩
  · exact Completes.registerRead hpow hans ha htarget rfl (State.readReg_outside_pair hpop hpair)
      (.of (State.keeps_readClear (Within.refl _) (Keeps.refl _) r i j) rfl) (by decide)
      ⟨rfl, State.readClear_rd hregs r i j, State.sameBut_readClear hregs r i j⟩
  · refine Completes.registerRead hpow hans ha htarget rfl (State.readReg_half hpair)
      (.of (State.keeps_readLo (Within.refl _) (Keeps.refl _) m _) rfl) (by decide) ⟨rfl, ?_, fun p hp => ?_, ?_⟩
    · exact (State.shadowOf_storeShadow ..).trans (if_pos rfl)
    · exact (State.shadowOf_storeShadow ..).trans (if_neg hp.symm)
    · exact State.storeShadow_stages ..
  · exact Completes.registerRead hpow hans ha htarget rfl ((State.readReg_half hpair).trans (State.readHi_of_shadow hshadow))
      (.refl ..) (by decide) rfl
  · exact Completes.registerRead hpow hans ha htarget rfl ((State.readReg_half hpair).trans (State.readHi_of_no_shadow hshadow))
      (.of (State.keeps_tally (Within.refl _) (Keeps.refl _) ..) rfl) (by decide)
      ⟨rfl, State.snapMiss_tally hregs, State.sameBut_snapMiss_tally hregs⟩

/-- Settles O12: an access that only logs its fault is one rule (`Completes.notPerformed`) for each way to be refused. -/
theorem accessesThatAreNotPerformed : Obligations.AccessesThatAreNotPerformed := by
  intro s t m a v hcan hpow
  refine ⟨fun hans ha htarget w => ?_, fun hans ha w => ?_, fun hans o ho hlt htest => ?_, fun hans o ho hlt htest => ?_,
    State.target_window_reserved⟩
  · have hbegin : (s.begin t).target a = .reserved := by simpa using htarget
    have hnot_foreign : ∀ w, s.foreign a w = none := fun w => State.foreign_of_target_ne_window (htarget.trans_ne nofun)
    cases w
    · exact .notPerformed hpow hans (State.busRead_of_not_foreign (hnot_foreign _)) one_ne_zero (State.readAt_of_reserved ha hbegin)
    · exact .notPerformed hpow hans (State.busWrite_of_not_foreign (hnot_foreign _)) one_ne_zero (State.writeAt_of_reserved ha hbegin)
  · cases w
    · exact .notPerformed hpow hans (State.busRead_of_not_foreign (State.foreign_of_unaligned ha)) (OfNat.ofNat_ne_zero 5)
        (State.readAt_of_unaligned ha)
    · exact .notPerformed hpow hans (State.busWrite_of_not_foreign (State.foreign_of_unaligned ha)) (OfNat.ofNat_ne_zero 5)
        (State.writeAt_of_unaligned ha)
  · rw [← accessType_vatWrite hlt]
    exact .notPerformed hpow hans (State.busWrite_of_not_foreign (State.foreign_vat hlt)) one_ne_zero
      ((State.writeAt_of_vat ho hlt).trans (State.writeVat_without_test (by simpa using htest)))
  · refine .access hpow hans (State.busWrite_of_not_foreign (State.foreign_vat hlt))
      ((State.writeAt_of_vat ho hlt).trans (State.writeVat_with_test (by simpa using htest))) ?_ (by decide)
      ⟨rfl, fun _ => Table.get_insertWord, Table.sameBut_insertWord _ _ _⟩
    exact ⟨rfl, rfl, (Frame.vat' (Within.refl _) _ _).same_of_covers rfl⟩

end Sys2Proof.Machine
end

section
/-!
PROOFS. The driving instructions of the TAP (R287, R288): the fault collector does not see the TAP, so that a refused instruction logs its
fault as if the TAP had not moved; and what the five instructions come to in the phases of R288 and outside them.

That the collector does not see the TAP is one equation for each operation it is made of: the operation after `State.withJtag` is
`State.withJtag` after the operation. Each follows from those of the operations it calls, by `simp`, which carries `withJtag` outward.
The equations stand on `(rfl)` and not on `rfl`, so that `simp` rewrites with them, conditions with their decisions included, and does not
leave both sides to be unfolded.
-/

namespace Sys2Proof.Machine

open Sys2Proof

/-- The state with another TAP block. -/
def State.withJtag (s : State) (j : Jtag) : State := { s with jtag := j }

section TapUnseen
variable {s : State} {j : Jtag}

/-! ## What the collector reads -/

@[simp] theorem State.withJtag_now : (s.withJtag j).now = s.now := (rfl)
@[simp] theorem State.withJtag_que : (s.withJtag j).que = s.que := (rfl)
@[simp] theorem State.withJtag_memc : (s.withJtag j).memc = s.memc := (rfl)
@[simp] theorem State.withJtag_vat : (s.withJtag j).vat = s.vat := (rfl)
@[simp] theorem State.withJtag_flt : (s.withJtag j).flt = s.flt := (rfl)
@[simp] theorem State.withJtag_cal : (s.withJtag j).cal = s.cal := (rfl)
@[simp] theorem State.withJtag_rd (r : Reg) (i k : Nat) : (s.withJtag j).rd r i k = s.rd r i k := (rfl)
@[simp] theorem State.withJtag_fld (f : Fld) (i k : Nat) : (s.withJtag j).fld f i k = s.fld f i k := (rfl)
@[simp] theorem State.withJtag_on (f : Fld) (i k : Nat) : (s.withJtag j).on f i k = s.on f i k := (rfl)
@[simp] theorem State.withJtag_cycle : (s.withJtag j).cycle = s.cycle := (rfl)
@[simp] theorem State.withJtag_holdover : (s.withJtag j).holdover = s.holdover := (rfl)
@[simp] theorem State.withJtag_forceOf (n : Nat) : (s.withJtag j).forceOf n = s.forceOf n := (rfl)
@[simp] theorem State.withJtag_feltOf (f : Nat) : (s.withJtag j).feltOf f = s.feltOf f := (rfl)
@[simp] theorem State.withJtag_creditOf (p f : Nat) : (s.withJtag j).creditOf p f = s.creditOf p f := (rfl)
@[simp] theorem State.withJtag_sliceOf (i : Nat) : (s.withJtag j).sliceOf i = s.sliceOf i := (rfl)
@[simp] theorem State.withJtag_couchOf (t : Nat) : (s.withJtag j).couchOf t = s.couchOf t := (rfl)
@[simp] theorem State.withJtag_sliceIdx (n : Nat) : (s.withJtag j).sliceIdx n = s.sliceIdx n := (rfl)
@[simp] theorem State.withJtag_backlog (a : Nat) : (s.withJtag j).backlog a = s.backlog a := (rfl)
@[simp] theorem State.withJtag_feltFullUp (f : Nat) : (s.withJtag j).feltFullUp f = s.feltFullUp f := (rfl)
@[simp] theorem State.withJtag_spillSlot : (s.withJtag j).spillSlot = s.spillSlot := (rfl)
@[simp] theorem State.withJtag_spillAddr (k : Nat) : (s.withJtag j).spillAddr k = s.spillAddr k := (rfl)
@[simp] theorem State.withJtag_srEntering : (s.withJtag j).srEntering = s.srEntering := (rfl)
@[simp] theorem State.withJtag_sameCycle : (s.withJtag j).sameCycle = s.sameCycle := (rfl)
@[simp] theorem State.withJtag_canCapture : (s.withJtag j).canCapture = s.canCapture := (rfl)
@[simp] theorem State.withJtag_records : (s.withJtag j).records = s.records := (rfl)
@[simp] theorem State.withJtag_recurring (d : Detect) : (s.withJtag j).recurring d = s.recurring d := (rfl)
@[simp] theorem State.withJtag_safeOpens (n cls code : Nat) : (s.withJtag j).safeOpens n cls code = s.safeOpens n cls code := (rfl)
@[simp] theorem State.withJtag_attachedIn (lo hi : Nat) : (s.withJtag j).attachedIn lo hi = s.attachedIn lo hi := (rfl)
@[simp] theorem State.withJtag_detect (code cls : Nat) (sc : Scope) (m : Nat) :
    (s.withJtag j).detect code cls sc m = s.detect code cls sc m := (rfl)

/-! ## Stores into other blocks -/

@[simp] theorem State.wr_withJtag (r : Reg) (w : Word) (i k : Nat) : (s.withJtag j).wr r w i k = (s.wr r w i k).withJtag j := (rfl)
@[simp] theorem State.stick_withJtag (f : Fld) (i : Nat) : (s.withJtag j).stick f i = (s.stick f i).withJtag j := (rfl)
@[simp] theorem State.tally_withJtag (f : Fld) (n i : Nat) : (s.withJtag j).tally f n i = (s.tally f n i).withJtag j := (rfl)
@[simp] theorem State.setForce_withJtag (n : Nat) (x : Force) : (s.withJtag j).setForce n x = (s.setForce n x).withJtag j := (rfl)
@[simp] theorem State.setFelt_withJtag (f : Nat) (x : Felt) : (s.withJtag j).setFelt f x = (s.setFelt f x).withJtag j := (rfl)
@[simp] theorem State.setCredit_withJtag (p f : Nat) (x : Credit) : (s.withJtag j).setCredit p f x = (s.setCredit p f x).withJtag j := (rfl)
@[simp] theorem State.setBacklog_withJtag (a : Nat) (l : List Item) : (s.withJtag j).setBacklog a l = (s.setBacklog a l).withJtag j := (rfl)
@[simp] theorem State.setMemc_withJtag (x : Memc) : (s.withJtag j).setMemc x = (s.setMemc x).withJtag j := (rfl)
@[simp] theorem State.setSlice_withJtag (i : Nat) (x : Slice) : (s.withJtag j).setSlice i x = (s.setSlice i x).withJtag j := (rfl)
@[simp] theorem State.setCouch_withJtag (t : Nat) (x : Couch) : (s.withJtag j).setCouch t x = (s.setCouch t x).withJtag j := (rfl)
@[simp] theorem State.assertSrc_withJtag (src : Nat) : (s.withJtag j).assertSrc src = (s.assertSrc src).withJtag j := (rfl)
@[simp] theorem State.mapRecords_withJtag (p : Record → Bool) (g : Record → Record) :
    (s.withJtag j).mapRecords p g = (s.mapRecords p g).withJtag j := (rfl)
@[simp] theorem State.pruneRing_withJtag : (s.withJtag j).pruneRing = s.pruneRing.withJtag j := (rfl)

/-! The model writes some updates of one block out as records; under a name they are stores like those above. -/

/-- The state with another fault collector. -/
def State.setFlt (s : State) (x : Flt) : State := { s with flt := x }

/-- The state with other felts. -/
def State.setQue (s : State) (x : Que) : State := { s with que := x }

/-- The state with other vat SRAM. -/
def State.setVat (s : State) (x : Table Byte) : State := { s with vat := x }

theorem State.with_flt (x : Flt) : { s with flt := x } = s.setFlt x := (rfl)
theorem State.with_cal (x : Cal) : { s with cal := x } = s.setCal x := (rfl)
theorem State.with_que (x : Que) : { s with que := x } = s.setQue x := (rfl)
theorem State.with_vat (x : Table Byte) : { s with vat := x } = s.setVat x := (rfl)

@[simp] theorem State.setFlt_withJtag (x : Flt) : (s.withJtag j).setFlt x = (s.setFlt x).withJtag j := (rfl)
@[simp] theorem State.setCal_withJtag (x : Cal) : (s.withJtag j).setCal x = (s.setCal x).withJtag j := (rfl)
@[simp] theorem State.setQue_withJtag (x : Que) : (s.withJtag j).setQue x = (s.setQue x).withJtag j := (rfl)
@[simp] theorem State.setVat_withJtag (x : Table Byte) : (s.withJtag j).setVat x = (s.setVat x).withJtag j := (rfl)

/-! ## Control flow -/

theorem State.withJtag_ite {c : Prop} [Decidable c] (a b : State) :
    (if c then a else b).withJtag j = if c then a.withJtag j else b.withJtag j := apply_ite (fun s : State => s.withJtag j) ..

theorem State.each_withJtag {α : Type} {l : List α} {g : α → State → State}
    (hg : ∀ a s, g a (s.withJtag j) = (g a s).withJtag j) : (s.withJtag j).each l g = (s.each l g).withJtag j :=
  List.foldl_hom (fun s : State => s.withJtag j) (fun s a => hg a s)

theorem State.iff_withJtag {b : Bool} {g : State → State} (hg : ∀ s, g (s.withJtag j) = (g s).withJtag j) :
    (s.withJtag j).iff b g = (s.iff b g).withJtag j := by
  cases b
  · rfl
  · exact hg s

/-! ## Entry to SAFE and to tile safe state -/

@[simp] theorem State.recovered_withJtag (n : Nat) : (s.withJtag j).recovered n = (s.recovered n).withJtag j := by
  unfold State.recovered
  rw [State.withJtag_ite]
  rfl

@[simp] theorem State.haltEngine_withJtag (n reason : Nat) : (s.withJtag j).haltEngine n reason = (s.haltEngine n reason).withJtag j := by
  unfold State.haltEngine
  rw [State.withJtag_ite]
  rfl

@[simp] theorem State.sliceFreed_withJtag (i : Nat) : (s.withJtag j).sliceFreed i = (s.sliceFreed i).withJtag j := by
  unfold State.sliceFreed
  rw [State.withJtag_ite]
  rfl

@[simp] theorem State.addCover_withJtag (u seq : Nat) : (s.withJtag j).addCover u seq = (s.addCover u seq).withJtag j := by
  unfold State.addCover
  rw [State.withJtag_ite]
  rfl

@[simp] theorem State.enterTileSafe_withJtag (t : Nat) : (s.withJtag j).enterTileSafe t = (s.enterTileSafe t).withJtag j := by
  unfold State.enterTileSafe
  rw [State.withJtag_ite]
  rfl

@[simp] theorem State.abandonCouch_withJtag (t : Nat) (retired : Bool) :
    (s.withJtag j).abandonCouch t retired = (s.abandonCouch t retired).withJtag j := by
  simp [State.abandonCouch, State.iff_withJtag, ← State.withJtag_ite]

@[simp] theorem State.enterSafe_withJtag (n : Nat) (opens : Bool) : (s.withJtag j).enterSafe n opens = (s.enterSafe n opens).withJtag j := by
  simp [State.enterSafe, ← State.withJtag_ite]

@[simp] theorem State.react_withJtag (cls : Nat) (sc : Scope) (code seq : Nat) :
    (s.withJtag j).react cls sc code seq = (s.react cls sc code seq).withJtag j := by
  simp [State.react, ↓State.with_flt, State.each_withJtag, ← State.withJtag_ite]

/-! ## The FAULT item of agent 20 -/

@[simp] theorem State.memArrive_withJtag : (s.withJtag j).memArrive = s.memArrive.withJtag j := by
  simp [State.memArrive, ← State.withJtag_ite]

@[simp] theorem State.memAccept_withJtag (p : Nat) (write : Bool) (a : Nat) (data : List Byte) (len : Nat) :
    (s.withJtag j).memAccept p write a data len = (s.memAccept p write a data len).withJtag j := by
  simp [State.memAccept]

@[simp] theorem State.enqueue_withJtag (f prio : Nat) (it : Item) (spill : Bool) :
    (s.withJtag j).enqueue f prio it spill = (s.enqueue f prio it spill).withJtag j := by
  simp [State.enqueue, ↓State.with_vat, ← State.withJtag_ite]

/-- What a push comes to, with another TAP block. -/
def Pushed.withJtag : Pushed → Jtag → Pushed
  | .done s, j => .done (s.withJtag j)
  | .overfull s, j => .overfull (s.withJtag j)
  | .nocredit, _ => .nocredit

@[simp] theorem Pushed.done_withJtag : (Pushed.done s).withJtag j = .done (s.withJtag j) := rfl
@[simp] theorem Pushed.overfull_withJtag : (Pushed.overfull s).withJtag j = .overfull (s.withJtag j) := rfl
@[simp] theorem Pushed.nocredit_withJtag : Pushed.nocredit.withJtag j = .nocredit := rfl

theorem Pushed.withJtag_ite {c : Prop} [Decidable c] (a b : Pushed) :
    (if c then a else b).withJtag j = if c then a.withJtag j else b.withJtag j := apply_ite (fun x : Pushed => x.withJtag j) ..

theorem State.push_withJtag (p f prio : Nat) (it : Item) : (s.withJtag j).push p f prio it = (s.push p f prio it).withJtag j := by
  simp [State.push, ↓State.with_que, Pushed.withJtag_ite]

theorem State.agentWrite_withJtag (a kind : Nat) (value : DWord) (raw : Word) (rt : RTime) (abs flags : Nat) :
    (s.withJtag j).agentWrite a kind value raw rt abs flags =
      ((s.agentWrite a kind value raw rt abs flags).1.withJtag j, (s.agentWrite a kind value raw rt abs flags).2) := by
  simp only [State.agentWrite, State.push_withJtag, State.withJtag_on, State.withJtag_fld, State.withJtag_holdover, State.withJtag_backlog,
    State.withJtag_feltOf, State.withJtag_cycle, State.tally_withJtag, State.setBacklog_withJtag, ← State.withJtag_ite]
  split
  · rfl
  · split
    · rfl
    · cases s.push (544 + a) _ _ _ <;> rfl

@[simp] theorem State.queueDetect_withJtag (d : Detect) : (s.withJtag j).queueDetect d = (s.queueDetect d).withJtag j := by
  unfold State.queueDetect
  rw [State.withJtag_ite]
  rfl

@[simp] theorem State.faultItem_withJtag (d : Detect) : (s.withJtag j).faultItem d = (s.faultItem d).withJtag j := by
  simp [State.faultItem, State.agentWrite_withJtag, ← State.withJtag_ite]

/-! ## Capture -/

@[simp] theorem State.countBFault_withJtag (d : Detect) : (s.withJtag j).countBFault d = (s.countBFault d).withJtag j := by
  unfold State.countBFault
  split
  · simp [↓State.with_cal, ← State.withJtag_ite]
  · rfl

@[simp] theorem State.recur_withJtag (r : Record) (d : Detect) : (s.withJtag j).recur r d = (s.recur r d).withJtag j := by
  simp [State.recur]

@[simp] theorem State.freezeFirst_withJtag (r : Record) : (s.withJtag j).freezeFirst r = (s.freezeFirst r).withJtag j := by
  unfold State.freezeFirst
  rw [State.withJtag_ite]
  rfl

@[simp] theorem State.captureNew_withJtag (d : Detect) : (s.withJtag j).captureNew d = (s.captureNew d).withJtag j := by
  simp [State.captureNew, ↓State.with_flt, State.each_withJtag, ← State.withJtag_ite]

@[simp] theorem State.capture_withJtag (d : Detect) : (s.withJtag j).capture d = (s.capture d).withJtag j := by
  unfold State.capture
  simp only [State.countBFault_withJtag, State.withJtag_recurring]
  split <;> simp

@[simp] theorem State.collect_withJtag (k : Nat) : State.collect k (s.withJtag j) = (State.collect k s).withJtag j := by
  induction k generalizing s with
  | zero => rfl
  | succ k ih =>
    unfold State.collect
    rw [State.withJtag_flt, State.withJtag_canCapture]
    split
    · rfl
    · simp [↓State.with_flt, ih, ← State.withJtag_ite]

@[simp] theorem State.log_withJtag (d : Detect) : (s.withJtag j).log d = (s.log d).withJtag j := by
  simp [State.log, ← State.withJtag_ite]

/-- The fault collector does not see the TAP. -/
theorem State.fault_withJtag (code cls : Nat) (sc : Scope) (m : Nat) :
    (s.withJtag j).fault code cls sc m = (s.fault code cls sc m).withJtag j := by
  simp [State.fault]

end TapUnseen

/-! ## The driving instructions (R288) -/

section Driving
variable {s : State} {c : Instr} {t ir : Nat} {scan : Option (Nat × Nat)}

theorem State.scanPhase_begin : (s.begin t).scanPhase = s.scanPhase := by
  unfold State.scanPhase
  rw [State.begin_dev]

theorem State.scanPhase_eq_true (h : s.dev.phase ≤ 2 ∨ s.dev.phase = 0xF) : s.scanPhase = true := by
  simpa [State.scanPhase] using h

theorem State.scanPhase_eq_false (h : 2 < s.dev.phase) (hF : s.dev.phase ≠ 0xF) : s.scanPhase = false := by
  simp [State.scanPhase, h, hF]

theorem State.tapCapture_tapLoad (n v : Nat) :
    (s.tapLoad ir).tapCapture n v = s.withJtag
      { s.jtag with ir, drives := false, out := v, tap := (s.jtag.tap.walk scanIr).walk (scanDr n) } := (rfl)

/-- EXTEST and its kin load their code, take the pins from the device, and exchange the boundary register for the pins. -/
theorem State.tapDrive_boundary (h : s.scanPhase = true) (pins load : Nat) :
    s.tapDrive ir (some (pins, load)) = s.withJtag
      { s.jtag with
        ir, drives := true, boundary := load, out := pins
        tap := (s.jtag.tap.walk scanIr).walk (scanDr (scanLength (max pins load))) } :=
  if_pos h

/-- HIGHZ and CLAMP load their code and take the pins from the device, with the bypass register between TDI and TDO. -/
theorem State.tapDrive_bypass (h : s.scanPhase = true) :
    s.tapDrive ir none = s.withJtag
      { s.jtag with ir, drives := true, out := 0, tap := (s.jtag.tap.walk scanIr).walk (scanDr 1) } :=
  if_pos h

/-- Outside the phases of R288 the TAP holds BYPASS, and JTAG_REFUSED is logged as if the TAP had not moved. -/
theorem State.tapDrive_refused (h : s.scanPhase = false) :
    s.tapDrive ir scan = (s.fault 0x005 1 .none 0x1021).withJtag
      { s.jtag with ir := 0xFF, drives := false, out := 0, tap := (s.jtag.tap.walk scanIr).walk (scanDr 1) } := by
  unfold State.tapDrive
  rw [if_neg (by simp [h]), State.tapCapture_tapLoad, State.fault_withJtag]

/-- The five driving instructions differ in the code they load and in what they scan. -/
theorem exec_driving {pins load : Nat}
    (hc : c ∈ [Instr.extest t pins load, .extestPulse t pins load, .extestTrain t pins load, .highz t, .clamp t]) :
    ∃ ir scan, exec c s = .next (s.act t fun s => s.tapDrive ir scan) := by
  simp only [List.mem_cons, List.not_mem_nil, or_false] at hc
  obtain rfl | rfl | rfl | rfl | rfl := hc
  · exact ⟨0x03, some (pins, load), rfl⟩
  · exact ⟨0x04, some (pins, load), rfl⟩
  · exact ⟨0x05, some (pins, load), rfl⟩
  · exact ⟨0x06, none, rfl⟩
  · exact ⟨0x07, none, rfl⟩

theorem OnlyChanges.withJtag (b : State) (j : Jtag) : OnlyChanges [.jtag] b (b.withJtag j) :=
  ⟨rfl, rfl, (Frame.jtag' (Within.refl _) b j).same_of_covers rfl⟩

/-- A driving instruction that takes effect completes with a change of the TAP alone. -/
theorem Completes.tapDriven {P : State → State → Prop} {j : Jtag} (hpow : s.powered)
    (hexec : exec c s = .next (s.act t fun s => s.tapDrive ir scan)) (hdrive : (s.begin t).tapDrive ir scan = (s.begin t).withJtag j)
    (hP : P (s.begin t) ((s.begin t).withJtag j)) : Completes c t s [.jtag] P := by
  refine Completes.act (ok := true) hpow hexec rfl ?_ ?_
  · rw [hdrive]; exact OnlyChanges.withJtag ..
  · rwa [hdrive]

/-- One that is refused completes with BYPASS in its place and with what logging JTAG_REFUSED does. -/
theorem Completes.tapRefused (hpow : s.powered) (hphase : s.scanPhase = false)
    (hexec : exec c s = .next (s.act t fun s => s.tapDrive ir scan)) :
    Completes c t s [.regs, .evm, .force, .engs, .que, .memc, .vat, .jtag, .flt, .cal] fun b e =>
      e.jtag = { b.jtag with ir := 0xFF, drives := false, out := 0, tap := e.jtag.tap } ∧ e.flt = (b.fault 0x005 1 .none 0x1021).flt := by
  refine Completes.act (ok := true) hpow hexec rfl ?_ ?_
  · exact .of (State.keeps_tapDrive (Within.refl _) (Keeps.refl _) ir scan) rfl
  · rw [State.tapDrive_refused (State.scanPhase_begin.trans hphase)]
    exact ⟨rfl, rfl⟩

end Driving

/-- Settles O53: a driving instruction is `State.tapDrive` with its own code and scan, which in the phases of R288 changes the TAP alone and
outside them is the fault, since the fault collector does not see the TAP (`State.fault_withJtag`). -/
theorem drivingInstructions : Obligations.DrivingInstructions := by
  intro s t
  refine ⟨fun pins load c hc => ?_, fun _ hpow => ⟨fun hphase => ?_, fun hlo hF pins load c hc => ?_⟩⟩
  · obtain ⟨ir, scan, hexec⟩ := exec_driving (s := s) hc
    exact ⟨_, hexec⟩
  · have hscan : (s.begin t).scanPhase = true := State.scanPhase_begin.trans (State.scanPhase_eq_true hphase)
    refine ⟨fun pins load c hc => ?_, fun c hc => ?_⟩
    · simp only [List.mem_cons, List.not_mem_nil, or_false] at hc
      obtain rfl | rfl | rfl := hc
      · exact .tapDriven hpow rfl (State.tapDrive_boundary hscan pins load) rfl
      · exact .tapDriven hpow rfl (State.tapDrive_boundary hscan pins load) rfl
      · exact .tapDriven hpow rfl (State.tapDrive_boundary hscan pins load) rfl
    · simp only [List.mem_cons, List.not_mem_nil, or_false] at hc
      obtain rfl | rfl := hc
      · exact .tapDriven hpow rfl (State.tapDrive_bypass hscan) rfl
      · exact .tapDriven hpow rfl (State.tapDrive_bypass hscan) rfl
  · obtain ⟨ir, scan, hexec⟩ := exec_driving (s := s) hc
    exact Completes.tapRefused hpow (State.scanPhase_eq_false hlo hF) hexec

end Sys2Proof.Machine
end

section
/-!
PROOFS. What holds of every command and every step: the forms in which a command goes on (`exec_form`), what it leads to (`exec_leads`), and
from these the canonical form, the fuses, the flash, time, the queue and POR.
-/

namespace Sys2Proof.Machine

open Sys2Proof

variable {s t u : State} {c : Instr}

/-! ## The forms of a command -/

/-- The forms in which a command goes on: the effect of a body on a state whose hub (or whose always-on domain) is powered, a refusal by
name (R370), a POR, or the release of one. -/
inductive Form (c : Instr) (s : State) : Prop
  | act (n : Nat) (f : State → State) (h : exec c s = outIf c.wf (s.act n f))
  | actOn (n : Nat) (f : State → State) (h : exec c s = outIf c.wf (s.actOn n f))
  | refused (o : Nat) (h : exec c s = .refused (.forerunnerRegister o)) (w : c.wf = true)
  | por (h : exec c s = .next s.porReset) (w : c.wf = true) (p : startsPor c = true)
  | porRelease (n : Nat) (h : c = .porRelease n)

theorem Form.busWrite {n m a : Nat} {v : Word} (h : exec c s = s.busWrite n m a v) (w : c.wf = true) : Form c s := by
  unfold State.busWrite at h
  split at h
  · exact .refused _ h w
  · exact .act _ _ (by rw [h, w]; rfl)

theorem Form.busRead {n m a : Nat} (h : exec c s = s.busRead n m a) (w : c.wf = true) : Form c s := by
  unfold State.busRead at h
  split at h
  · exact .refused _ h w
  · exact .act _ _ (by rw [h, w]; rfl)

theorem Form.reaching {n : Nat} {o : Option Nat} {f : State → State}
    (h : exec c s = match o with | some o => .refused (.forerunnerRegister o) | none => .next (s.act n f)) (w : c.wf = true) : Form c s := by
  cases o with
  | some o => exact .refused o h w
  | none => exact .act n f (by rw [h, w]; rfl)

theorem Form.next {n : Nat} {f : State → State} (h : exec c s = .next (s.act n f)) (w : c.wf = true) : Form c s := .act n f (by rw [h, w]; rfl)

theorem Form.spiWrite (n : Nat) (mosi : List Byte) : Form (.spiWrite n mosi) s := by
  have h : exec (.spiWrite n mosi) s = execSpiWrite n mosi s := rfl
  unfold execSpiWrite at h
  split at h
  · split at h
    · exact .next h rfl
    · split at h
      · exact .refused _ h rfl
      · exact .next h rfl
  · exact .next h rfl

theorem Form.spiRead (n : Nat) (mosi : List Byte) (busy : Nat) (bad : Bool) : Form (.spiRead n mosi busy bad) s := by
  have h : exec (.spiRead n mosi busy bad) s = execSpiRead n mosi busy bad s := rfl
  unfold execSpiRead at h
  split at h
  · split at h
    · exact .refused _ h rfl
    · exact .next h rfl
  · exact .next h rfl

theorem exec_form (c : Instr) (s : State) : Form c s := by
  cases c with
  | registerWrite => exact .busWrite rfl rfl
  | vatSramWrite => exact .busWrite rfl rfl
  | loWriteStage => exact .busWrite rfl rfl
  | hiWriteCommit => exact .busWrite rfl rfl
  | stage => exact .busWrite rfl rfl
  | loRead => exact .busRead rfl rfl
  | hiRead => exact .busRead rfl rfl
  | readClear => exact .busRead rfl rfl
  | reservedAccess n m a w v => cases w; exacts [.busRead rfl rfl, .busWrite rfl rfl]
  | unalignedAccess n m a w v => cases w; exacts [.busRead rfl rfl, .busWrite rfl rfl]
  | porstN n => exact .por rfl rfl rfl
  | vddAonLoss n => exact .por rfl rfl rfl
  | porRelease n => exact .porRelease n rfl
  | spiWrite n mosi => exact .spiWrite n mosi
  | spiRead n mosi busy bad => exact .spiRead n mosi busy bad
  | mgmtAccess => exact .reaching rfl rfl
  | forerunnerWindowAccess => exact .reaching rfl rfl
  | readReq => exact .reaching rfl rfl
  | writeReq => exact .reaching rfl rfl
  | lineRefEdge | frameStartMark | edgeMissing | pixclkLost | pixclkQualified | anchorFire | capture | firmwareFault | queuedCapture
  | conditionClear | fltAck | release | hourlyCountStep | safeN | safeNRelease | injectionFire | injectedDetection | injectionClear
  | firstRearm | supplyTile | supplyHub | hubRestart | tileDomainsOff => exact .actOn _ _ rfl
  | _ => exact .act _ _ rfl

/-! ## A POR -/

/-- A command that starts a POR leaves the state as it is, or restarts the device as at power-on. -/
theorem exec_startsPor (hc : startsPor c = true) (h : exec c s = .next t) :
    t = s ∨ t = s.porReset ∨ ∃ n b, t = State.finish b (s.begin n).porReset := by
  cases c <;> simp only [startsPor, reduceCtorEq] at hc
  case porstN n => exact .inr (.inl (Host.Outcome.next.inj h).symm)
  case vddAonLoss n => exact .inr (.inl (Host.Outcome.next.inj h).symm)
  case supplyHub n r =>
    obtain rfl : r = 2 := of_decide_eq_true hc
    have ht : s.actOn n (fun s => s.hubRailLost 2) = t := Host.Outcome.next.inj h
    unfold State.actOn at ht
    split at ht
    · exact .inl ht.symm
    · exact .inr (.inr ⟨n, _, ht.symm⟩)

/-! ## What every command and every step keeps -/

/-- What a step keeps of a state, whether or not it starts a POR. -/
structure Carries (s t : State) : Prop where
  pending : t.pending = s.pending
  fuse : s.canonical → s.fusesGrow t
  fine : s.canonical → t.canonical

theorem Passes.carries {F : Nat} (h : Passes F s t) : Carries s t := ⟨h.pending, h.fuse, h.fine⟩

theorem Keeps.carries {F : Nat} (h : Keeps F s t) : Carries s t := h.passes.carries

theorem Carries.trans (h : Carries s t) (g : Carries t u) : Carries s u where
  pending := g.pending.trans h.pending
  fuse := fun c i => by rw [← g.fuse (h.fine c) i, ← BitVec.or_assoc, h.fuse c i]
  fine := g.fine ∘ h.fine

theorem Carries.porReset (s : State) : Carries s s.porReset :=
  ⟨(State.keptBy_porReset s).1, fun _ => (State.keptBy_porReset s).2.1, (State.keptBy_porReset s).2.2⟩

theorem exec_carries (h : exec c s = .next t) : Carries s t := by
  cases hc : startsPor c with
  | false => exact ((exec_leads c s hc).passes t h).carries
  | true =>
    obtain rfl | rfl | ⟨n, b, rfl⟩ := exec_startsPor hc h
    · exact (Keeps.refl (F := 0) t).carries
    · exact .porReset s
    · exact ((State.passes_begin (Within.refl _) s n).carries.trans (.porReset _)).trans
        (State.keeps_finish (Within.refl _) (Keeps.refl _) b).carries

theorem State.passes_tick (s : State) : Passes 458235 s s.tick :=
  State.passes_act (Within.refl _) _ _ _ fun v => (Keeps.refl v).passes

/-- The next state is that of an event cycle, or of the front command on the rest of the queue. -/
theorem step_cases (h : step s = .next t) :
    s.pending = [] ∧ t = s.tick ∨ ∃ c rest, s.pending = c :: rest ∧ exec c { s with pending := rest } = .next t := by
  unfold step at h
  split at h
  case h_1 hp => exact .inl ⟨hp, (Host.Outcome.next.inj h).symm⟩
  case h_2 c rest hp => exact .inr ⟨c, rest, hp, h⟩

theorem step_fuse_fine (h : step s = .next t) (hcan : s.canonical) : s.fusesGrow t ∧ t.canonical := by
  obtain ⟨-, rfl⟩ | ⟨c, rest, -, hexec⟩ := step_cases h
  · exact ⟨(State.passes_tick s).fuse hcan, (State.passes_tick s).fine hcan⟩
  · exact ⟨(exec_carries hexec).fuse hcan, (exec_carries hexec).fine hcan⟩

/-! ## Flash -/

/-- The commands that write flash (R345, R346, R367, R337). -/
def writesFlash : Instr → Bool
  | .wearLogSave _ | .flashCommandComplete _ _ | .doorbell _ _ | .slotWrite _ | .slotWriteComplete _ _ => true
  | _ => false

/-- A command that neither writes flash nor starts a POR changes no part of flash (bit 22). -/
theorem exec_leads_outside_flash (c : Instr) (s : State) (hc : writesFlash c = false) (hpor : startsPor c = false) :
    Leads (2 ^ 25 - 1 - 2 ^ 22) s (exec c s) := by
  cases c with
  | wearLogSave | flashCommandComplete | doorbell | slotWrite | slotWriteComplete => exact absurd hc (by simp [writesFlash])
  | porstN | vddAonLoss => exact absurd hpor (by simp [startsPor])
  | registerWrite => exact leads_execRegisterWrite (by rfl) ..
  | reservedAccess => exact leads_execReservedAccess (by rfl) ..
  | unalignedAccess => exact leads_execUnalignedAccess (by rfl) ..
  | vatSramWrite => exact leads_execVatSramWrite (by rfl) ..
  | loRead => exact leads_execLoRead (by rfl) ..
  | hiRead => exact leads_execHiRead (by rfl) ..
  | loWriteStage => exact leads_execLoWriteStage (by rfl) ..
  | hiWriteCommit => exact leads_execHiWriteCommit (by rfl) ..
  | readClear => exact leads_execReadClear (by rfl) ..
  | lineRefEdge => exact leads_execLineRefEdge (by rfl) ..
  | frameStartMark => exact leads_execFrameStartMark (by rfl) ..
  | edgeMissing => exact leads_execEdgeMissing (by rfl) ..
  | pixclkLost => exact leads_execPixclkLost (by rfl) ..
  | pixclkQualified => exact leads_execPixclkQualified (by rfl) ..
  | rasterBeat => exact leads_execRasterBeat (by rfl) ..
  | beatSend => exact leads_execBeatSend (by rfl) ..
  | delayReqSend => exact leads_execDelayReqSend (by rfl) ..
  | delayReq => exact leads_execDelayReq (by rfl) ..
  | delayRsp => exact leads_execDelayRsp (by rfl) ..
  | anchorFire => exact leads_execAnchorFire (by rfl) ..
  | arm => exact leads_execArm (by rfl) ..
  | disarm => exact leads_execDisarm (by rfl) ..
  | dacFrameBoundary => exact leads_execDacFrameBoundary (by rfl) ..
  | forceCommand => exact leads_execForceCommand (by rfl) ..
  | rangeChangeComplete => exact leads_execRangeChangeComplete (by rfl) ..
  | spanHoldEnd => exact leads_execSpanHoldEnd (by rfl) ..
  | attachment => exact leads_execAttachment (by rfl) ..
  | enableClear => exact leads_execEnableClear (by rfl) ..
  | detach => exact leads_execDetach (by rfl) ..
  | deckleHit => exact leads_execDeckleHit (by rfl) ..
  | clampRelease => exact leads_execClampRelease (by rfl) ..
  | short => exact leads_execShort (by rfl) ..
  | shortClear => exact leads_execShortClear (by rfl) ..
  | safeSwitchOpen => exact leads_execSafeSwitchOpen (by rfl) ..
  | boostLoop => exact leads_execBoostLoop (by rfl) ..
  | boostSense => exact leads_execBoostSense (by rfl) ..
  | guardOverload => exact leads_execGuardOverload (by rfl) ..
  | cellRotation => exact leads_execCellRotation (by rfl) ..
  | adcCell => exact leads_execAdcCell (by rfl) ..
  | entryComplete => exact leads_execEntryComplete (by rfl) ..
  | lowPowerSwitchEnd => exact leads_execLowPowerSwitchEnd (by rfl) ..
  | trigger => exact leads_execTrigger (by rfl) ..
  | restart => exact leads_execRestart (by rfl) ..
  | runSet => exact leads_execRunSet (by rfl) ..
  | runClear => exact leads_execRunClear (by rfl) ..
  | autorangeClear => exact leads_execAutorangeClear (by rfl) ..
  | rangeHold => exact leads_execRangeHold (by rfl) ..
  | chMeasSeqWrite => exact leads_execChMeasSeqWrite (by rfl) ..
  | start => exact leads_execStart (by rfl) ..
  | prime => exact leads_execPrime (by rfl) ..
  | primingComplete => exact leads_execPrimingComplete (by rfl) ..
  | startInstant => exact leads_execStartInstant (by rfl) ..
  | stop => exact leads_execStop (by rfl) ..
  | lookAheadPoint => exact leads_execLookAheadPoint (by rfl) ..
  | executionStart => exact leads_execExecutionStart (by rfl) ..
  | mouldPoint => exact leads_execMouldPoint (by rfl) ..
  | advanceConsumed => exact leads_execAdvanceConsumed (by rfl) ..
  | waitTimeout => exact leads_execWaitTimeout (by rfl) ..
  | prefetchArrival => exact leads_execPrefetchArrival (by rfl) ..
  | feltPush => exact leads_execFeltPush (by rfl) ..
  | creditAsk => exact leads_execCreditAsk (by rfl) ..
  | creditGrant => exact leads_execCreditGrant (by rfl) ..
  | feltPop => exact leads_execFeltPop (by rfl) ..
  | popShadowRead => exact leads_execPopShadowRead (by rfl) ..
  | captureTake => exact leads_execCaptureTake (by rfl) ..
  | captureWriteComplete => exact leads_execCaptureWriteComplete (by rfl) ..
  | streamTake => exact leads_execStreamTake (by rfl) ..
  | ringRdAdvance => exact leads_execRingRdAdvance (by rfl) ..
  | refill => exact leads_execRefill (by rfl) ..
  | tailTimeout => exact leads_execTailTimeout (by rfl) ..
  | watermarkEvent => exact leads_execWatermarkEvent (by rfl) ..
  | feltEnable => exact leads_execFeltEnable (by rfl) ..
  | feltDisable => exact leads_execFeltDisable (by rfl) ..
  | drained => exact leads_execDrained (by rfl) ..
  | feltEmptyFor1Us => exact leads_execFeltEmptyFor1Us (by rfl) ..
  | fire => exact leads_execFire (by rfl) ..
  | taskSingleDelivery => exact leads_execTaskSingleDelivery (by rfl) ..
  | commit => exact leads_execCommit (by rfl) ..
  | stage => exact leads_execStage (by rfl) ..
  | rcDirectWrite => exact leads_execRcDirectWrite (by rfl) ..
  | reEntry => exact leads_execReEntry (by rfl) ..
  | farForkSend => exact leads_execFarForkSend (by rfl) ..
  | eventBcast => exact leads_execEventBcast (by rfl) ..
  | farForkDelivery => exact leads_execFarForkDelivery (by rfl) ..
  | evioInputEdge => exact leads_execEvioInputEdge (by rfl) ..
  | evioOutput => exact leads_execEvioOutput (by rfl) ..
  | pulseEnd => exact leads_execPulseEnd (by rfl) ..
  | portRequest => exact leads_execPortRequest (by rfl) ..
  | urgencyLevel3 => exact leads_execUrgencyLevel3 (by rfl) ..
  | commandIssue => exact leads_execCommandIssue (by rfl) ..
  | throttleEnd => exact leads_execThrottleEnd (by rfl) ..
  | readData => exact leads_execReadData (by rfl) ..
  | softRepairComplete => exact leads_execSoftRepairComplete (by rfl) ..
  | refresh => exact leads_execRefresh (by rfl) ..
  | pageClose => exact leads_execPageClose (by rfl) ..
  | selfRefreshEntry => exact leads_execSelfRefreshEntry (by rfl) ..
  | selfRefreshExit => exact leads_execSelfRefreshExit (by rfl) ..
  | retentionEnter => exact leads_execRetentionEnter (by rfl) ..
  | retentionExit => exact leads_execRetentionExit (by rfl) ..
  | trainingRound => exact leads_execTrainingRound (by rfl) ..
  | freqReq => exact leads_execFreqReq (by rfl) ..
  | freqSwitch => exact leads_execFreqSwitch (by rfl) ..
  | portEnable => exact leads_execPortEnable (by rfl) ..
  | signalDetected => exact leads_execSignalDetected (by rfl) ..
  | trainComplete => exact leads_execTrainComplete (by rfl) ..
  | trainTimeout => exact leads_execTrainTimeout (by rfl) ..
  | aligned => exact leads_execAligned (by rfl) ..
  | alignTimeout => exact leads_execAlignTimeout (by rfl) ..
  | hello t p node port rate spare => exact leads_execHello (by rfl) t p node port rate spare s
  | failedRetry => exact leads_execFailedRetry (by rfl) ..
  | retrainTimeout => exact leads_execRetrainTimeout (by rfl) ..
  | retrained => exact leads_execRetrained (by rfl) ..
  | lossOfAlignment => exact leads_execLossOfAlignment (by rfl) ..
  | flitReceive => exact leads_execFlitReceive (by rfl) ..
  | replayTimeout => exact leads_execReplayTimeout (by rfl) ..
  | flitSend => exact leads_execFlitSend (by rfl) ..
  | readReq => exact leads_execReadReq (by rfl) ..
  | writeReq => exact leads_execWriteReq (by rfl) ..
  | eyeMeasurement => exact leads_execEyeMeasurement (by rfl) ..
  | lossOfSignal => exact leads_execLossOfSignal (by rfl) ..
  | spareOn => exact leads_execSpareOn (by rfl) ..
  | spareTrained => exact leads_execSpareTrained (by rfl) ..
  | swapReq => exact leads_execSwapReq (by rfl) ..
  | swapAck => exact leads_execSwapAck (by rfl) ..
  | laneSwap => exact leads_execLaneSwap (by rfl) ..
  | linkEye => exact leads_execLinkEye (by rfl) ..
  | webPortRateReq => exact leads_execWebPortRateReq (by rfl) ..
  | rateReq => exact leads_execRateReq (by rfl) ..
  | rateAck => exact leads_execRateAck (by rfl) ..
  | spiWrite => exact leads_execSpiWrite (by rfl) ..
  | spiRead => exact leads_execSpiRead (by rfl) ..
  | idcode => exact leads_execIdcode (by rfl) ..
  | bypass => exact leads_execBypass (by rfl) ..
  | samplePreload => exact leads_execSamplePreload (by rfl) ..
  | extest => exact leads_execExtest (by rfl) ..
  | extestPulse => exact leads_execExtestPulse (by rfl) ..
  | extestTrain => exact leads_execExtestTrain (by rfl) ..
  | highz => exact leads_execHighz (by rfl) ..
  | clamp => exact leads_execClamp (by rfl) ..
  | mgmtAccess => exact leads_execMgmtAccess (by rfl) ..
  | capture => exact leads_execCapture (by rfl) ..
  | firmwareFault => exact leads_execFirmwareFault (by rfl) ..
  | queuedCapture => exact leads_execQueuedCapture (by rfl) ..
  | conditionClear => exact leads_execConditionClear (by rfl) ..
  | fltAck => exact leads_execFltAck (by rfl) ..
  | release => exact leads_execRelease (by rfl) ..
  | hourlyCountStep => exact leads_execHourlyCountStep (by rfl) ..
  | safeN => exact leads_execSafeN (by rfl) ..
  | safeNRelease => exact leads_execSafeNRelease (by rfl) ..
  | injectionFire => exact leads_execInjectionFire (by rfl) ..
  | injectedDetection => exact leads_execInjectedDetection (by rfl) ..
  | injectionClear => exact leads_execInjectionClear (by rfl) ..
  | firstRearm => exact leads_execFirstRearm (by rfl) ..
  | tempTrigger => exact leads_execTempTrigger (by rfl) ..
  | intervalTrigger => exact leads_execIntervalTrigger (by rfl) ..
  | calRun => exact leads_execCalRun (by rfl) ..
  | sliceStepStart => exact leads_execSliceStepStart (by rfl) ..
  | measurePathStep => exact leads_execMeasurePathStep (by rfl) ..
  | openOutputSlot => exact leads_execOpenOutputSlot (by rfl) ..
  | bridgeEnd => exact leads_execBridgeEnd (by rfl) ..
  | openOutputSlotEnd => exact leads_execOpenOutputSlotEnd (by rfl) ..
  | sliceStepEnd => exact leads_execSliceStepEnd (by rfl) ..
  | deferralRetry => exact leads_execDeferralRetry (by rfl) ..
  | calBurn => exact leads_execCalBurn (by rfl) ..
  | generationCommitted => exact leads_execGenerationCommitted (by rfl) ..
  | calCouchCmd => exact leads_execCalCouchCmd (by rfl) ..
  | couchingStart => exact leads_execCouchingStart (by rfl) ..
  | couchMatch => exact leads_execCouchMatch (by rfl) ..
  | matchTimeout => exact leads_execMatchTimeout (by rfl) ..
  | connect => exact leads_execConnect (by rfl) ..
  | handoverRamp => exact leads_execHandoverRamp (by rfl) ..
  | couchRelease => exact leads_execCouchRelease (by rfl) ..
  | couchRetry => exact leads_execCouchRetry (by rfl) ..
  | wearAccumulate => exact leads_execWearAccumulate (by rfl) ..
  | porRelease => exact leads_execPorRelease (by rfl) ..
  | fuseLoad => exact leads_execFuseLoad (by rfl) ..
  | slotSelection => exact leads_execSlotSelection (by rfl) ..
  | verification => exact leads_execVerification (by rfl) ..
  | hbmTraining => exact leads_execHbmTraining (by rfl) ..
  | webTraining => exact leads_execWebTraining (by rfl) ..
  | tilePowerUp => exact leads_execTilePowerUp (by rfl) ..
  | startUpRun => exact leads_execStartUpRun (by rfl) ..
  | runningEntry => exact leads_execRunningEntry (by rfl) ..
  | flashRead => exact leads_execFlashRead (by rfl) ..
  | flashProgram => exact leads_execFlashProgram (by rfl) ..
  | flashErase => exact leads_execFlashErase (by rfl) ..
  | reboot => exact leads_execReboot (by rfl) ..
  | coreFailed => exact leads_execCoreFailed (by rfl) ..
  | coreTakesDuty => exact leads_execCoreTakesDuty (by rfl) ..
  | coreRestart => exact leads_execCoreRestart (by rfl) ..
  | amendSeg => exact leads_execAmendSeg (by rfl) ..
  | staged => exact leads_execStaged (by rfl) ..
  | amendTimeout => exact leads_execAmendTimeout (by rfl) ..
  | abort => exact leads_execAbort (by rfl) ..
  | amendmentBoundary => exact leads_execAmendmentBoundary (by rfl) ..
  | attestReq => exact leads_execAttestReq (by rfl) ..
  | attestRsp => exact leads_execAttestRsp (by rfl) ..
  | forerunnerWindowAccess => exact leads_execForerunnerWindowAccess (by rfl) ..
  | supplyTile => exact leads_execSupplyTile (by rfl) ..
  | tileDomainsOff => exact leads_execTileDomainsOff (by rfl) ..
  | supplyHub => exact leads_execSupplyHub (by rfl) _ _ _ (by simpa [startsPor] using hpor)
  | hubRestart => exact leads_execHubRestart (by rfl) ..
  | powerMeasurement => exact leads_execPowerMeasurement (by rfl) ..
  | deviceStep => exact leads_execDeviceStep (by rfl) ..
  | tileStep => exact leads_execTileStep (by rfl) ..
  | stepRelease => exact leads_execStepRelease (by rfl) ..
  | domainOn => exact leads_execDomainOn (by rfl) ..
  | domainOff => exact leads_execDomainOff (by rfl) ..
  | sliceGroupPowered => exact leads_execSliceGroupPowered (by rfl) ..

theorem exec_flash (hc : writesFlash c = false) (h : exec c s = .next t) : t.flash = s.flash := by
  cases hpor : startsPor c with
  | false => exact ((exec_leads_outside_flash c s hc hpor).passes t h).flash rfl
  | true =>
    obtain rfl | rfl | ⟨n, b, rfl⟩ := exec_startsPor hpor h
    · rfl
    · rfl
    · exact ((State.keeps_finish (Within.refl _) (Keeps.refl _) b).flash rfl).trans ((State.passes_begin (Within.refl _) s n).flash rfl)

/-! ## POR holds everything -/

/-- While the device is held in POR, no command but a release or a new POR changes anything (R376). -/
theorem exec_porHeld (hheld : s.pwr.porHeld = true) (hpor : startsPor c = false) (hrel : ∀ n, c ≠ .porRelease n) (h : exec c s = .next t) :
    t = s := by
  cases exec_form c s with
  | act n f hf =>
    rw [hf] at h
    unfold outIf State.act at h
    split at h
    · simpa [hheld] using h.symm
    · cases h
  | actOn n f hf =>
    rw [hf] at h
    unfold outIf State.actOn at h
    split at h
    · simpa [hheld] using h.symm
    · cases h
  | refused o hf => rw [hf] at h; cases h
  | por hf w p => rw [hpor] at p; cases p
  | porRelease n hc => exact absurd hc (hrel n)

/-! ## The obligations -/

/-- Settles O1: `step` is this match on the queue. -/
theorem stepRunsTheFrontCommand : Obligations.StepRunsTheFrontCommand := fun _ _ => rfl

/-- Settles O3: every table of the reset state is empty. -/
theorem resetIsCanonical : Obligations.ResetIsCanonical :=
  ⟨(State.canonical_iff _).2 State.reset_fine, rfl, rfl, ⟨rfl, rfl⟩, rfl, fun _ => by simp [State.fuseWord, State.reset, Table.get]⟩

/-- Settles O4, by what every command keeps (`exec_carries`). -/
theorem stepKeepsTheCanonicalForm : Obligations.StepKeepsTheCanonicalForm := fun _ _ hcan h => (step_fuse_fine h hcan).2

/-- Settles O5, by what every command keeps (`exec_carries`). -/
theorem stepNeverClearsAFuse : Obligations.StepNeverClearsAFuse := fun _ _ i hcan h => (step_fuse_fine h hcan).1 i

/-- Settles O2: the event cycle that passes is `State.tick`, whose body is empty. -/
theorem anEmptyQueuePassesAnEventCycle : Obligations.AnEmptyQueuePassesAnEventCycle := by
  intro s hempty
  have hstep : step s = .next s.tick := by unfold step; rw [hempty]
  refine ⟨fun hheld => ?_, fun ⟨hpor, hhub⟩ => ⟨s.tick, hstep, ?_, ?_, fun p hp => ?_⟩⟩
  · rw [hstep]
    simp [State.tick, State.act, hheld]
  · have htick : s.tick = State.finish (s.begin ((s.cycle + 1) * 256)) (s.begin ((s.cycle + 1) * 256)) := by
      simp [State.tick, State.act, State.go, hpor, hhub]
    rw [htick, (State.keeps_finish (Within.refl _) (Keeps.refl _) _).now, State.begin_now]
    have := Nat.lt_mul_div_succ s.now (by decide : 0 < 256)
    unfold State.cycle
    omega
  · exact (State.passes_tick s).pending.trans hempty
  · exact (State.passes_tick s).toFrame.same_of_covers rfl p hp

/-- Settles O6, by `exec_leads` outside a POR, `exec_startsPor` at one and `exec_porHeld` while it is held. -/
theorem timeQueueAndPor : Obligations.TimeQueueAndPor := by
  intro c s t h
  refine ⟨(exec_carries h).pending, fun hpor => ((exec_leads c s hpor).passes t h).later, fun hpor => ?_,
    fun hheld hpor hrel => exec_porHeld hheld hpor hrel h⟩
  obtain rfl | rfl | ⟨n, b, rfl⟩ := exec_startsPor hpor h
  · exact .inl rfl
  · exact .inr rfl
  · exact .inr (State.keeps_finish (Within.refl _) (Keeps.refl _) b).now

/-- Settles O7, by the form of the command (`exec_form`). -/
theorem wellFormedCommandsRun : Obligations.WellFormedCommandsRun := by
  intro c s
  cases exec_form c s with
  | act n f h | actOn n f h => rw [h]; exact ⟨fun w => .inl ⟨_, by rw [w]; rfl⟩, fun w => by rw [w]; rfl⟩
  | refused o h w => exact ⟨fun _ => .inr ⟨o, h⟩, fun w' => by simp [w] at w'⟩
  | por h w => exact ⟨fun _ => .inl ⟨_, h⟩, fun w' => by simp [w] at w'⟩
  | porRelease n h => subst h; exact ⟨fun _ => .inl ⟨_, rfl⟩, nofun⟩

/-- Settles O8: every command but the five named leaves flash alone (`exec_flash`). -/
theorem flashChangesOnlyByItsCommands : Obligations.FlashChangesOnlyByItsCommands := by
  intro c s t h hne
  have hc : writesFlash c = true := by
    by_contra hc
    exact hne (exec_flash (by simpa using hc) h)
  unfold writesFlash at hc
  split at hc
  · exact .inl ⟨_, rfl⟩
  · exact .inr (.inl ⟨_, _, rfl⟩)
  · exact .inr (.inr (.inl ⟨_, _, rfl⟩))
  · exact .inr (.inr (.inr (.inl ⟨_, rfl⟩)))
  · exact .inr (.inr (.inr (.inr ⟨_, _, rfl⟩)))
  · cases hc

/-- Settles O9, by the parts that `State.begin` and `State.finish` may change. -/
theorem whatSurroundsACommand : Obligations.WhatSurroundsACommand := fun s b e t =>
  have hbegin := State.passes_begin (Within.refl _) s t
  ⟨State.begin_now s t, hbegin.pending, hbegin.toFrame.same_of_covers rfl, .of (State.keeps_finish (Within.refl _) (Keeps.refl e) b) rfl⟩

end Sys2Proof.Machine
end

section
/-!
PROOFS. Rules that the functional obligations share: frames of single updates, a command that runs in its block, and a write to a register by
its name (R7, R397).
-/

namespace Sys2Proof.Machine

open Sys2Proof

section Frames
variable {l : List Part} {b e u : State} {F : Nat}

/-! ## Frames, one update at a time -/

theorem OnlyChanges.then (h : OnlyChanges l b e) (k : Keeps F e u) (hl : Part.covers l F = true) : OnlyChanges l b u := h.trans (.of k hl)

/-- An update of one part that is listed. -/
theorem OnlyChanges.update {p : Part} (h : OnlyChanges l b e) (hl : p ∈ l) (f : Frame F e u) (hnow : u.now = e.now)
    (hF : ∀ q : Part, q ≠ p → F.testBit q.ix = false) : OnlyChanges l b u :=
  h.trans ⟨f.pending, hnow, fun q hq => f.same q (hF q fun hqp => hq (hqp ▸ hl))⟩

theorem OnlyChanges.regs (h : OnlyChanges l b e) (hl : .regs ∈ l) (x : Table Word) : OnlyChanges l b { e with regs := x } :=
  h.update hl (Frame.regs' (Within.refl _) e x) rfl (by intro q; cases q <;> decide)
theorem OnlyChanges.dev (h : OnlyChanges l b e) (hl : .dev ∈ l) (x : Dev) : OnlyChanges l b { e with dev := x } :=
  h.update hl (Frame.dev' (Within.refl _) e x) rfl (by intro q; cases q <;> decide)
theorem OnlyChanges.tb (h : OnlyChanges l b e) (hl : .tb ∈ l) (x : Tb) : OnlyChanges l b { e with tb := x } :=
  h.update hl (Frame.tb' (Within.refl _) e x) rfl (by intro q; cases q <;> decide)
theorem OnlyChanges.evm (h : OnlyChanges l b e) (hl : .evm ∈ l) (x : Evm) : OnlyChanges l b { e with evm := x } :=
  h.update hl (Frame.evm' (Within.refl _) e x) rfl (by intro q; cases q <;> decide)
theorem OnlyChanges.force (h : OnlyChanges l b e) (hl : .force ∈ l) (x : Table Force) : OnlyChanges l b { e with force := x } :=
  h.update hl (Frame.force' (Within.refl _) e x) rfl (by intro q; cases q <;> decide)
theorem OnlyChanges.seqs (h : OnlyChanges l b e) (hl : .seqs ∈ l) (x : Table Seqr) : OnlyChanges l b { e with seqs := x } :=
  h.update hl (Frame.seqs' (Within.refl _) e x) rfl (by intro q; cases q <;> decide)
theorem OnlyChanges.engs (h : OnlyChanges l b e) (hl : .engs ∈ l) (x : Table Eng) : OnlyChanges l b { e with engs := x } :=
  h.update hl (Frame.engs' (Within.refl _) e x) rfl (by intro q; cases q <;> decide)
theorem OnlyChanges.ress (h : OnlyChanges l b e) (hl : .ress ∈ l) (x : Table Res) : OnlyChanges l b { e with ress := x } :=
  h.update hl (Frame.ress' (Within.refl _) e x) rfl (by intro q; cases q <;> decide)
theorem OnlyChanges.guards (h : OnlyChanges l b e) (hl : .guards ∈ l) (x : Nat) : OnlyChanges l b { e with guards := x } :=
  h.update hl (Frame.guards' (Within.refl _) e x) rfl (by intro q; cases q <;> decide)
theorem OnlyChanges.que (h : OnlyChanges l b e) (hl : .que ∈ l) (x : Que) : OnlyChanges l b { e with que := x } :=
  h.update hl (Frame.que' (Within.refl _) e x) rfl (by intro q; cases q <;> decide)
theorem OnlyChanges.memc (h : OnlyChanges l b e) (hl : .memc ∈ l) (x : Memc) : OnlyChanges l b { e with memc := x } :=
  h.update hl (Frame.memc' (Within.refl _) e x) rfl (by intro q; cases q <;> decide)
theorem OnlyChanges.hbm (h : OnlyChanges l b e) (hl : .hbm ∈ l) (x : Table Byte) : OnlyChanges l b { e with hbm := x } :=
  h.update hl (Frame.hbm' (Within.refl _) e x) rfl (by intro q; cases q <;> decide)
theorem OnlyChanges.vat (h : OnlyChanges l b e) (hl : .vat ∈ l) (x : Table Byte) : OnlyChanges l b { e with vat := x } :=
  h.update hl (Frame.vat' (Within.refl _) e x) rfl (by intro q; cases q <;> decide)
theorem OnlyChanges.web (h : OnlyChanges l b e) (hl : .web ∈ l) (x : Web) : OnlyChanges l b { e with web := x } :=
  h.update hl (Frame.web' (Within.refl _) e x) rfl (by intro q; cases q <;> decide)
theorem OnlyChanges.jtag (h : OnlyChanges l b e) (hl : .jtag ∈ l) (x : Jtag) : OnlyChanges l b { e with jtag := x } :=
  h.update hl (Frame.jtag' (Within.refl _) e x) rfl (by intro q; cases q <;> decide)
theorem OnlyChanges.flt (h : OnlyChanges l b e) (hl : .flt ∈ l) (x : Flt) : OnlyChanges l b { e with flt := x } :=
  h.update hl (Frame.flt' (Within.refl _) e x) rfl (by intro q; cases q <;> decide)
theorem OnlyChanges.cal (h : OnlyChanges l b e) (hl : .cal ∈ l) (x : Cal) : OnlyChanges l b { e with cal := x } :=
  h.update hl (Frame.cal' (Within.refl _) e x) rfl (by intro q; cases q <;> decide)
theorem OnlyChanges.boot (h : OnlyChanges l b e) (hl : .boot ∈ l) (x : Boot) : OnlyChanges l b { e with boot := x } :=
  h.update hl (Frame.boot' (Within.refl _) e x) rfl (by intro q; cases q <;> decide)
theorem OnlyChanges.pwr (h : OnlyChanges l b e) (hl : .pwr ∈ l) (x : Pwr) : OnlyChanges l b { e with pwr := x } :=
  h.update hl (Frame.pwr' (Within.refl _) e x) rfl (by intro q; cases q <;> decide)
theorem OnlyChanges.fuses (h : OnlyChanges l b e) (hl : .fuses ∈ l) (x : Table Word) : OnlyChanges l b { e with fuses := x } :=
  h.update hl (Frame.fuses' (Within.refl _) e x) rfl (by intro q; cases q <;> decide)
theorem OnlyChanges.flash (h : OnlyChanges l b e) (hl : .flash ∈ l) (x : Table Byte) : OnlyChanges l b { e with flash := x } :=
  h.update hl (Frame.flash' (Within.refl _) e x) rfl (by intro q; cases q <;> decide)
theorem OnlyChanges.resp (h : OnlyChanges l b e) (hl : .resp ∈ l) (x : Resp) : OnlyChanges l b { e with resp := x } :=
  h.update hl (Frame.resp' (Within.refl _) e x) rfl (by intro q; cases q <;> decide)
theorem OnlyChanges.free (h : OnlyChanges l b e) (hl : .free ∈ l) (x : Nat) : OnlyChanges l b { e with free := x } :=
  h.update hl (Frame.free' (Within.refl _) e x) rfl (by intro q; cases q <;> decide)

theorem OnlyChanges.stick (h : OnlyChanges l b e) (hl : .regs ∈ l) (f : Fld) (i : Nat) : OnlyChanges l b (e.stick f i) := h.regs hl _

theorem OnlyChanges.tally (h : OnlyChanges l b e) (hl : .regs ∈ l) (f : Fld) (n i : Nat) : OnlyChanges l b (e.tally f n i) := h.regs hl _

/-- The parts that logging a fault may change. -/
def faultParts : List Part := [.regs, .evm, .force, .engs, .que, .memc, .vat, .flt, .cal]

theorem OnlyChanges.fault (h : OnlyChanges l b e) (hl : Part.covers l 412850 = true) (code cls : Nat) (sc : Scope) (master : Nat) :
    OnlyChanges l b (e.fault code cls sc master) := h.then (State.keeps_fault (Within.refl _) (Keeps.refl _) code cls sc master) hl

theorem OnlyChanges.accessFault (h : OnlyChanges l b e) (hl : Part.covers l 412850 = true) (code cls : Nat) (sc : Scope) (m access a : Nat) :
    OnlyChanges l b (e.accessFault code cls sc m access a) :=
  h.then (State.keeps_accessFault (Within.refl _) (Keeps.refl _) code cls sc m access a) hl

theorem OnlyChanges.mono {k : List Part} (h : OnlyChanges k b e) (hkl : ∀ p ∈ k, p ∈ l) : OnlyChanges l b e :=
  ⟨h.1, h.2.1, fun p hp => h.2.2 p fun hk => hp (hkl p hk)⟩

end Frames

/-! ## Sticky bits and counts -/

theorem State.sameBut_stick {s : State} (h : Table.rising s.regs = true) (f : Fld) (i : Nat) :
    Table.SameBut [regAddr f.reg i 0] s.regs (s.stick f i).regs := State.sameBut_setFld h f 1 i 0

theorem State.sameBut_tally {s : State} (h : Table.rising s.regs = true) (f : Fld) (n i : Nat) :
    Table.SameBut [regAddr f.reg i 0] s.regs (s.tally f n i).regs := State.sameBut_setFld h f _ i 0

theorem State.rising_wr {s : State} (h : Table.rising s.regs = true) (r : Reg) (w : Word) (i j : Nat) :
    Table.rising (s.wr r w i j).regs = true := Table.rising_put h

theorem State.rising_stick {s : State} (h : Table.rising s.regs = true) (f : Fld) (i : Nat) : Table.rising (s.stick f i).regs = true :=
  Table.rising_put h

theorem State.rising_tally {s : State} (h : Table.rising s.regs = true) (f : Fld) (n i : Nat) : Table.rising (s.tally f n i).regs = true :=
  Table.rising_put h

/-! ## What a fault leaves alone -/

section Faults
variable {s : State} (code cls : Nat) (sc : Scope) (m access a : Nat)

@[simp] theorem State.fault_dev : (s.fault code cls sc m).dev = s.dev :=
  (State.keeps_fault (Within.refl _) (Keeps.refl s) code cls sc m).dev rfl
@[simp] theorem State.fault_tb : (s.fault code cls sc m).tb = s.tb :=
  (State.keeps_fault (Within.refl _) (Keeps.refl s) code cls sc m).tb rfl
@[simp] theorem State.fault_seqs : (s.fault code cls sc m).seqs = s.seqs :=
  (State.keeps_fault (Within.refl _) (Keeps.refl s) code cls sc m).seqs rfl
@[simp] theorem State.fault_ress : (s.fault code cls sc m).ress = s.ress :=
  (State.keeps_fault (Within.refl _) (Keeps.refl s) code cls sc m).ress rfl
@[simp] theorem State.fault_guards : (s.fault code cls sc m).guards = s.guards :=
  (State.keeps_fault (Within.refl _) (Keeps.refl s) code cls sc m).guards rfl
@[simp] theorem State.fault_hbm : (s.fault code cls sc m).hbm = s.hbm :=
  (State.keeps_fault (Within.refl _) (Keeps.refl s) code cls sc m).hbm rfl
@[simp] theorem State.fault_losses : (s.fault code cls sc m).losses = s.losses :=
  (State.keeps_fault (Within.refl _) (Keeps.refl s) code cls sc m).losses rfl
@[simp] theorem State.fault_web : (s.fault code cls sc m).web = s.web :=
  (State.keeps_fault (Within.refl _) (Keeps.refl s) code cls sc m).web rfl
@[simp] theorem State.fault_jtag : (s.fault code cls sc m).jtag = s.jtag :=
  (State.keeps_fault (Within.refl _) (Keeps.refl s) code cls sc m).jtag rfl
@[simp] theorem State.fault_boot : (s.fault code cls sc m).boot = s.boot :=
  (State.keeps_fault (Within.refl _) (Keeps.refl s) code cls sc m).boot rfl
@[simp] theorem State.fault_pwr : (s.fault code cls sc m).pwr = s.pwr :=
  (State.keeps_fault (Within.refl _) (Keeps.refl s) code cls sc m).pwr rfl
@[simp] theorem State.fault_fuses : (s.fault code cls sc m).fuses = s.fuses :=
  (State.keeps_fault (Within.refl _) (Keeps.refl s) code cls sc m).fuses rfl
@[simp] theorem State.fault_flash : (s.fault code cls sc m).flash = s.flash :=
  (State.keeps_fault (Within.refl _) (Keeps.refl s) code cls sc m).flash rfl
@[simp] theorem State.fault_resp : (s.fault code cls sc m).resp = s.resp :=
  (State.keeps_fault (Within.refl _) (Keeps.refl s) code cls sc m).resp rfl
@[simp] theorem State.fault_free : (s.fault code cls sc m).free = s.free :=
  (State.keeps_fault (Within.refl _) (Keeps.refl s) code cls sc m).free rfl
@[simp] theorem State.fault_now : (s.fault code cls sc m).now = s.now :=
  (State.keeps_fault (Within.refl _) (Keeps.refl s) code cls sc m).now
@[simp] theorem State.fault_pending : (s.fault code cls sc m).pending = s.pending :=
  (State.keeps_fault (Within.refl _) (Keeps.refl s) code cls sc m).pending
@[simp] theorem State.accessFault_dev : (s.accessFault code cls sc m access a).dev = s.dev :=
  (State.keeps_accessFault (Within.refl _) (Keeps.refl s) code cls sc m access a).dev rfl
@[simp] theorem State.accessFault_tb : (s.accessFault code cls sc m access a).tb = s.tb :=
  (State.keeps_accessFault (Within.refl _) (Keeps.refl s) code cls sc m access a).tb rfl
@[simp] theorem State.accessFault_seqs : (s.accessFault code cls sc m access a).seqs = s.seqs :=
  (State.keeps_accessFault (Within.refl _) (Keeps.refl s) code cls sc m access a).seqs rfl
@[simp] theorem State.accessFault_ress : (s.accessFault code cls sc m access a).ress = s.ress :=
  (State.keeps_accessFault (Within.refl _) (Keeps.refl s) code cls sc m access a).ress rfl
@[simp] theorem State.accessFault_guards : (s.accessFault code cls sc m access a).guards = s.guards :=
  (State.keeps_accessFault (Within.refl _) (Keeps.refl s) code cls sc m access a).guards rfl
@[simp] theorem State.accessFault_hbm : (s.accessFault code cls sc m access a).hbm = s.hbm :=
  (State.keeps_accessFault (Within.refl _) (Keeps.refl s) code cls sc m access a).hbm rfl
@[simp] theorem State.accessFault_losses : (s.accessFault code cls sc m access a).losses = s.losses :=
  (State.keeps_accessFault (Within.refl _) (Keeps.refl s) code cls sc m access a).losses rfl
@[simp] theorem State.accessFault_web : (s.accessFault code cls sc m access a).web = s.web :=
  (State.keeps_accessFault (Within.refl _) (Keeps.refl s) code cls sc m access a).web rfl
@[simp] theorem State.accessFault_jtag : (s.accessFault code cls sc m access a).jtag = s.jtag :=
  (State.keeps_accessFault (Within.refl _) (Keeps.refl s) code cls sc m access a).jtag rfl
@[simp] theorem State.accessFault_boot : (s.accessFault code cls sc m access a).boot = s.boot :=
  (State.keeps_accessFault (Within.refl _) (Keeps.refl s) code cls sc m access a).boot rfl
@[simp] theorem State.accessFault_pwr : (s.accessFault code cls sc m access a).pwr = s.pwr :=
  (State.keeps_accessFault (Within.refl _) (Keeps.refl s) code cls sc m access a).pwr rfl
@[simp] theorem State.accessFault_fuses : (s.accessFault code cls sc m access a).fuses = s.fuses :=
  (State.keeps_accessFault (Within.refl _) (Keeps.refl s) code cls sc m access a).fuses rfl
@[simp] theorem State.accessFault_flash : (s.accessFault code cls sc m access a).flash = s.flash :=
  (State.keeps_accessFault (Within.refl _) (Keeps.refl s) code cls sc m access a).flash rfl
@[simp] theorem State.accessFault_resp : (s.accessFault code cls sc m access a).resp = s.resp :=
  (State.keeps_accessFault (Within.refl _) (Keeps.refl s) code cls sc m access a).resp rfl
@[simp] theorem State.accessFault_free : (s.accessFault code cls sc m access a).free = s.free :=
  (State.keeps_accessFault (Within.refl _) (Keeps.refl s) code cls sc m access a).free rfl
@[simp] theorem State.accessFault_now : (s.accessFault code cls sc m access a).now = s.now :=
  (State.keeps_accessFault (Within.refl _) (Keeps.refl s) code cls sc m access a).now
@[simp] theorem State.accessFault_pending : (s.accessFault code cls sc m access a).pending = s.pending :=
  (State.keeps_accessFault (Within.refl _) (Keeps.refl s) code cls sc m access a).pending

end Faults

/-! ## A command that runs -/

section Runs
variable {c : Instr} {s b e : State} {t m : Nat} {l : List Part} {P : State → State → Prop} {ok : Bool} {body : State → State}

/-- A command completes with what its body leads to from the state `b` at its instant. -/
theorem Completes.runs (hb : s.begin t = b) (hpow : s.powered) (hexec : exec c s = outIf ok (s.act t body)) (hok : ok = true)
    (he : body b = e) (hframe : OnlyChanges l b e) (hP : P b e) : Completes c t s l P := by
  subst hb he
  exact .act hpow hexec hok hframe hP

/-- The same of a command of the always-on domain. -/
theorem Completes.runsOn (hb : s.begin t = b) (hpor : s.pwr.porHeld = false) (hexec : exec c s = outIf ok (s.actOn t body)) (hok : ok = true)
    (he : body b = e) (hframe : OnlyChanges l b e) (hP : P b e) : Completes c t s l P := by
  subst hb he
  exact .actOn hpor hexec hok hframe hP

/-- A command that is a write to register `r` completes with what the write leads to, and with its answer. -/
theorem Completes.registerWrite {r : Reg} {i j : Nat} {v : Word} {codes : Option (List Int)} {bad : Bool} (hb : s.begin t = b)
    (hpow : s.powered) (hans : s.answers m = true) (hexec : exec c s = outIf ok (s.act t fun s => s.accessReg m r i j v codes bad))
    (hok : ok = true) (he : b.regWrite m r i j v codes bad = e) (hframe : OnlyChanges l b e) (hl : .resp ∈ l)
    (hP : P b { e with resp := ⟨m, false, 0⟩ }) : Completes c t s l P := by
  refine .runs hb hpow hexec hok ?_ (hframe.resp hl ⟨m, false, 0⟩) hP
  have hans' : b.answers m = true := by rw [← hb]; simpa using hans
  unfold State.accessReg
  rw [State.access_of_answers hans', he]
  rfl

end Runs

/-! ## What a write stores (R7, R397) -/

section Writes
variable {s : State} {m i j : Nat} {r : Reg} {v : Word} {codes : Option (List Int)} {bad : Bool}

/-- The registers that a write handles by a rule of their own for the whole word. -/
def ruledRegs : List Reg :=
  [.CH_FORCE_SET, .EVM_RC_CTL, .EVM_RC_TARGET, .EVM_RC_FAR_OFS, .TB_ANCHOR_TARGET_LO, .TB_ANCHOR_TARGET_HI, .TEST_CREDIT_HOLD_LO,
    .TEST_CREDIT_HOLD_HI, .TEST_CONSUMER_HOLD_LO, .TEST_CONSUMER_HOLD_HI]

/-- A write takes all its bits where no amendment shields any. -/
theorem unshielded (v old : Word) : (v &&& ~~~(0 : Word)) ||| (old &&& 0) = v := by
  have h : ~~~(0 : Word) = BitVec.allOnes 32 := by decide
  rw [h]
  simp only [BitVec.ofNat_eq_ofNat, BitVec.and_allOnes, BitVec.and_zero, BitVec.or_zero]

theorem State.regWrite_plain (hr : r ∉ ruledRegs) (hsh : s.shielded (regAddr r i j) = 0) :
    s.regWrite m r i j v codes bad = s.writePlain m r i j v codes bad := by
  simp only [ruledRegs, List.mem_cons, List.not_mem_nil, or_false, not_or] at hr
  obtain ⟨h1, h2, h3, h4, h5, h6, h7, h8, h9, h10⟩ := hr
  have hhi : pairHi r = none := by
    unfold pairHi
    split <;> first | rfl | contradiction
  have hlo : pairLo r = none := by
    unfold pairLo
    split <;> first | rfl | contradiction
  unfold State.regWrite
  rw [hsh]
  dsimp only
  rw [unshielded]
  split <;> first | contradiction | skip
  rw [hhi, hlo]

/-- A write that no rule refuses stores its word, and then what changed and the bits that act take effect. -/
theorem State.writePlain_taken (hwm : r ≠ .QUE_FELT_WM_STATUS) (hrwi : differs (s.rd r i j) v (rwiMask r) = false)
    (hbar : s.barred m r i v (s.rd r i j) = none) (href : ∀ f ∈ s.refusals r i v, f.1 = 0) :
    s.writePlain m r i j v codes bad =
      ((s.wr r (stored r (s.rd r i j) v 0) i j).changed r i j codes (s.rd r i j)).acted m r i v codes bad := by
  have hfilter : ((s.refusals r i v).filter fun f => differs (s.rd r i j) v (f.1 &&& rwMask r)) = [] := by
    refine List.filter_eq_nil_iff.2 fun f hf => ?_
    simp [href f hf, differs]
  have hkeep : ∀ (fs : List (Word × Nat × Scope)), (∀ f ∈ fs, f.1 = 0) → fs.foldl (fun k f => k ||| f.1) 0 = 0 := by
    intro fs
    induction fs with
    | nil => intro _; rfl
    | cons f fs ih =>
      intro h
      rw [List.foldl_cons, h f (List.mem_cons_self ..)]
      exact ih fun g hg => h g (List.mem_cons_of_mem _ hg)
  unfold State.writePlain
  simp only [hwm, if_false, hrwi, Bool.false_eq_true, hbar, hfilter, hkeep _ href]
  rfl

end Writes

end Sys2Proof.Machine
end

section
/-!
PROOFS. LINE_REF, FRAME_REF and PIXCLK at the timebase (R39 to R45): one lemma for each way that an edge, a mark or a qualified PIXCLK acts.
-/

namespace Sys2Proof.Machine

open Sys2Proof

section References
variable {s : State}

theorem periodOk_iff (d : Nat) : periodOk d = true ↔ 8333 * 256 ≤ 10 * d ∧ d ≤ 256000000 := by
  simp [periodOk, ms]

/-! ## LINE_REF -/

theorem State.lineEdge_internal (h : s.external = false) : s.lineEdge = s := by
  simp [State.lineEdge, h]

theorem State.lineEdge_unlocked (hext : s.external = true) (hst : s.tb.state = .unlocked) :
    s.lineEdge = s.setTb { s.tb with
      markAgo := s.tb.markAgo.map (· + 1), state := .acquiring, line := ⟨some s.now, 1, 0, 0, 0, false⟩ } := by
  simp [State.lineEdge, hext, hst, Judge.first, Judge.reset, State.setTb]

/-- The second edge while ACQUIRING gives the line period if it lies in range, and else is the first one again. -/
theorem State.lineEdge_second {l : Nat} (hext : s.external = true) (hst : s.tb.state = .acquiring) (hlast : s.tb.line.last = some l)
    (hseen : s.tb.line.seen = 1) :
    s.lineEdge =
      let x := s.setTb { s.tb with markAgo := s.tb.markAgo.map (· + 1) }
      if periodOk (s.now - l) then x.setTb { x.tb with line := s.tb.line.first s.now, period := s.now - l }
      else (x.setTb { x.tb with line := Judge.reset.first s.now }).stick f_TB_EVENTS_out_of_range := by
  simp [State.lineEdge, hext, hst, hlast, hseen]

/-- The window of the next edge has closed in LOCKED: the edge counts as missing. -/
theorem State.lineMissing_locked {l : Nat} (hext : s.external = true) (hst : s.tb.state = .locked) (hlast : s.tb.line.last = some l)
    (hp : s.tb.period ≠ 0)
    (hw : (s.tb.line.missed + 1) * s.tb.period * s.windowW + s.tb.period < (s.now - l) * s.windowW) :
    s.lineMissing = s.lineFailed { s.tb.line with missed := s.tb.line.missed + 1, bad := s.tb.line.bad + 1, good := 0 } := by
  unfold State.lineMissing
  simp [hlast, hext, hst, hp, Nat.not_le.2 hw]

theorem State.lossCount_setTb_tally (x : Tb) (h : Table.rising s.regs = true) :
    ((s.setTb x).tally f_TB_GLITCH_COUNT_count).lossCount = s.lossCount :=
  State.fld_setFld_other (s := s.setTb x) h _ (by decide)

theorem State.lineFailed_kept {j : Judge} (h : Table.rising s.regs = true) (hj : j.bad < s.lossCount) :
    s.lineFailed j = (s.setTb { s.tb with line := j }).tally f_TB_GLITCH_COUNT_count := by
  unfold State.lineFailed
  dsimp only
  rw [State.lossCount_setTb_tally _ h, if_neg (by omega)]

theorem State.lineFailed_lost {j : Judge} (h : Table.rising s.regs = true) (hj : s.lossCount ≤ j.bad) :
    s.lineFailed j = ((s.setTb { s.tb with line := j }).tally f_TB_GLITCH_COUNT_count).lineLost := by
  unfold State.lineFailed
  dsimp only
  rw [State.lossCount_setTb_tally _ h, if_pos hj]

theorem State.lineLost_locked (hst : s.tb.state = .locked) :
    s.lineLost = ((s.setTb { s.tb with
      line := { Judge.reset with last := s.tb.line.last }, state := .holdover, holdLines := 0, overs := 0, track := 0, mismatch := none }).stick
        f_TB_EVENTS_ref_lost).fault 0x800 1 .none 0x111C := by
  unfold State.lineLost State.enterHoldover
  simp [hst, State.setTb]

/-! ## FRAME_REF -/

theorem State.frameSample_unmarked {a : Bool} (h : a = false ∨ s.tb.frameLevel = true ∨ s.external = false) :
    s.frameSample a = s.setTb { s.tb with frameLevel := a } := by
  have hext : (s.setTb { s.tb with frameLevel := a }).external = s.external := rfl
  unfold State.frameSample
  dsimp only
  rw [hext, if_neg]
  obtain rfl | h | h := h <;> simp [*]

theorem State.frameSample_mark (hlevel : s.tb.frameLevel = false) (hext : s.external = true) :
    s.frameSample true = (s.setTb { s.tb with frameLevel := true }).frameMark := by
  have hext' : (s.setTb { s.tb with frameLevel := true }).external = true := hext
  unfold State.frameSample
  simp [hlevel, hext']

/-- In LOCKED a mark that does not meet a frame start is a glitch (R41). -/
theorem State.frameMark_glitch (hfr : s.framed = true) (hst : s.tb.state = .locked) {k : Int} (hk : k = frameOffset s.lines s.raster.line)
    (hk0 : k ≠ 0) (hm : s.tb.mismatch ≠ some k) :
    s.frameMark = (s.setTb { s.tb with markAgo := some 0, mismatch := some k }).tally f_TB_GLITCH_COUNT_count := by
  subst hk
  unfold State.frameMark
  dsimp only
  split
  case h_2 => exact (if_neg (show ¬ (! s.framed) = true by simp [hfr])).trans ((if_neg hk0).trans (if_neg hm))
  case h_1 h => exact absurd (hst.symm.trans h) nofun
  case h_3 _ h => exact absurd hst h

/-- A second mark with the same mismatch slews the raster (R41). -/
theorem State.frameMark_slip (hfr : s.framed = true) (hst : s.tb.state = .locked) {k : Int} (hk : k = frameOffset s.lines s.raster.line)
    (hk0 : k ≠ 0) (hm : s.tb.mismatch = some k) :
    s.frameMark = (((s.setTb { s.tb with markAgo := some 0 }).stick f_TB_EVENTS_frame_slip).fault 0x801 1 .none 0x111C).setTb { s.tb with
      markAgo := some 0, state := .slewing, err := k * 2 ^ 32, overs := 0, track := 0, mismatch := none } := by
  subst hk
  unfold State.frameMark
  dsimp only
  split
  case h_2 =>
    refine (if_neg (show ¬ (! s.framed) = true by simp [hfr])).trans ((if_neg hk0).trans ((if_pos hm).trans ?_))
    simp only [State.fault_tb]
    rfl
  case h_1 h => exact absurd (hst.symm.trans h) nofun
  case h_3 _ h => exact absurd hst h

/-! ## PIXCLK -/

theorem State.pixLost_active (h : s.tb.pixActive = true) :
    s.pixLost = (s.setTb { s.tb with pix := none, pixActive := false }).stick f_TB_EVENTS_pixclk_lost := by
  simp [State.pixLost, State.stickIf, h]

theorem State.pixLost_inactive (h : s.tb.pixActive = false) : s.pixLost = s.setTb { s.tb with pix := none } := by
  simp [State.pixLost, State.stickIf, h]

theorem State.pixGood_refused {err : Int} {pix : Nat}
    (h : s.src ≠ 3 ∧ s.src ≠ 4 ∨ s.tb.period < ((s.pixLine pix : Int) - s.tb.period).natAbs * 10000) : s.pixGood err pix = s := by
  unfold State.pixGood
  rw [if_neg]
  rintro ⟨hsrc, hclose⟩
  omega

/-- A qualified PIXCLK is kept, and pixel locking resumes where the raster runs on the source. -/
theorem State.pixGood_kept {err : Int} {pix : Nat} (hsrc : s.src = 3 ∨ s.src = 4)
    (hclose : ((s.pixLine pix : Int) - s.tb.period).natAbs * 10000 ≤ s.tb.period) :
    s.pixGood err pix =
      let t := s.setTb { s.tb with pix := some (s.pixLine pix) }
      if s.tb.pixActive = false ∧ s.tb.ready = true ∧ (s.tb.state = .locked ∨ s.tb.state = .slewing) then t.resolve err else t := by
  unfold State.pixGood
  simp [hsrc, hclose]

theorem Tb.takePix_state (x : Tb) : x.takePix.state = x.state := by
  unfold Tb.takePix
  split <;> rfl

/-- An error of at most 1 phase unit is tracked away in LOCKED (R49). -/
theorem State.resolve_tracked {err : Int} (hst : s.tb.state = .locked) (herr : err.natAbs ≤ 65536) :
    s.resolve err = s.setTb { s.tb.takePix with err, overs := 0 } := by
  have hst' : s.tb.takePix.state = .locked := (Tb.takePix_state _).trans hst
  unfold State.resolve
  dsimp only [State.setTb_tb]
  rw [if_pos (show err.natAbs ≤ oneUnit.toNat from herr), hst']
  rfl

/-- A larger error is slewed away (R49). -/
theorem State.resolve_slewed {err : Int} (herr : 65536 < err.natAbs) :
    s.resolve err = s.setTb { s.tb.takePix with state := .slewing, err, overs := 0, track := 0, mismatch := none } :=
  if_neg (show ¬ err.natAbs ≤ oneUnit.toNat from Nat.not_le.2 herr)

end References

/-- Settles O13: each clause is the lemma on the operation of its command. -/
theorem lineFrameAndPixelReferences : Obligations.LineFrameAndPixelReferences := by
  intro s t hcan hpor
  obtain ⟨b, hb⟩ : ∃ b, s.begin t = b := ⟨_, rfl⟩
  have hregs : Table.rising b.regs = true := hb ▸ hcan.begin_regs_rising t
  rw [hb]
  refine ⟨fun hext => ?_, fun hext hst => ?_, fun l hext hst hlast hseen hlo hhi => ?_, fun l hext hst hlast hseen hhi => ?_,
    fun l hext hst hlast hp hw hbad => ?_, fun l hext hst hlast hp hw hbad => ?_, fun a ha => ?_, fun k hlev hext hfr hst hk hk0 hm => ?_,
    fun k hlev hext hfr hst hk hk0 hm => ?_, fun hact => ?_, fun hact => ?_, fun err pix p hp => ?_⟩
  · exact .runsOn (ok := true) hb hpor rfl rfl (State.lineEdge_internal hext) (.refl ..) trivial
  · exact .runsOn (ok := true) hb hpor rfl rfl (State.lineEdge_unlocked hext hst) (.tb (.refl ..) (by decide) _) rfl
  · have hok : periodOk (b.now - l) = true := (periodOk_iff _).2 ⟨hlo, hhi⟩
    refine .runsOn (ok := true) hb hpor rfl rfl (State.lineEdge_second hext hst hlast hseen) ?_ ?_
    · rw [if_pos hok]
      exact .tb (.tb (.refl ..) (by decide) _) (by decide) _
    · rw [if_pos hok]
      exact ⟨rfl, hst, rfl, by simp [Judge.first, hseen], rfl⟩
  · have hok : ¬ periodOk (b.now - l) = true := fun h => by have := (periodOk_iff _).1 h; omega
    refine .runsOn (ok := true) hb hpor rfl rfl (State.lineEdge_second hext hst hlast hseen) ?_ ?_
    · rw [if_neg hok]
      exact .stick (.tb (.tb (.refl ..) (by decide) _) (by decide) _) (by decide) _ _
    · rw [if_neg hok]
      exact ⟨rfl, rfl, rfl, State.on_stick (s := State.setTb _ _) hregs 0 (by decide) (by decide),
        State.sameBut_stick (s := State.setTb _ _) hregs f_TB_EVENTS_out_of_range 0⟩
  · refine .runsOn hb hpor rfl rfl ((State.lineMissing_locked hext hst hlast hp hw).trans (State.lineFailed_kept hregs hbad))
      (.tally (.tb (.refl ..) (by decide) _) (by decide) _ _ _) ⟨rfl, ?_, ?_⟩
    · exact State.fld_tally (s := State.setTb _ _) hregs 1 0 (by decide)
    · exact State.sameBut_tally (s := State.setTb _ _) hregs f_TB_GLITCH_COUNT_count 1 0
  · refine .runsOn hb hpor rfl rfl (((State.lineMissing_locked hext hst hlast hp hw).trans (State.lineFailed_lost hregs hbad)).trans
      (State.lineLost_locked hst)) ?_ ?_
    · exact .fault (.stick (.tb (.tally (.tb (.refl ..) (by decide) _) (by decide) _ _ _) (by decide) _) (by decide) _ _) rfl ..
    · simp only [State.fault_tb]
      refine ⟨rfl, rfl, rfl, rfl, rfl, _, rfl, State.on_stick ?_ 0 (by decide) (by decide)⟩
      exact State.rising_tally (s := State.setTb _ _) hregs f_TB_GLITCH_COUNT_count 1 0
  · exact .runsOn (ok := true) hb hpor rfl rfl (State.frameSample_unmarked ha) (.tb (.refl ..) (by decide) _) rfl
  · have hmark := State.frameMark_glitch (s := b.setTb { b.tb with frameLevel := true }) hfr hst hk hk0 hm
    refine .runsOn (ok := true) hb hpor rfl rfl ((State.frameSample_mark hlev hext).trans hmark)
      (.tally (.tb (.tb (.refl ..) (by decide) _) (by decide) _) (by decide) _ _ _) ?_
    exact ⟨rfl, State.fld_tally (s := State.setTb _ _) hregs 1 0 (by decide),
      State.sameBut_tally (s := State.setTb _ _) hregs f_TB_GLITCH_COUNT_count 1 0⟩
  · have hmark := State.frameMark_slip (s := b.setTb { b.tb with frameLevel := true }) hfr hst hk hk0 hm
    refine .runsOn (ok := true) hb hpor rfl rfl ((State.frameSample_mark hlev hext).trans hmark)
      (.tb (.fault (.stick (.tb (.tb (.refl ..) (by decide) _) (by decide) _) (by decide) _ _) rfl ..) (by decide) _) ?_
    exact ⟨rfl, (b.setTb { b.tb with frameLevel := true, markAgo := some 0 }).stick f_TB_EVENTS_frame_slip, _, rfl,
      State.on_stick (s := b.setTb _) hregs 0 (by decide) (by decide), rfl, rfl⟩
  · exact .runsOn (ok := true) hb hpor rfl rfl (State.pixLost_active hact) (.stick (.tb (.refl ..) (by decide) _) (by decide) _ _)
      ⟨rfl, State.on_stick (s := State.setTb _ _) hregs 0 (by decide) (by decide), State.sameBut_stick (s := State.setTb _ _) hregs f_TB_EVENTS_pixclk_lost 0⟩
  · exact .runsOn (ok := true) hb hpor rfl rfl (State.pixLost_inactive hact) (.tb (.refl ..) (by decide) _) rfl
  · obtain rfl : b.pixLine pix = p := hp.symm
    refine ⟨fun h => ?_, fun hsrc hclose => ⟨fun h => ?_, fun hact hready hst => ?_⟩⟩
    · exact .runsOn (ok := true) hb hpor rfl rfl (State.pixGood_refused h) (.refl ..) trivial
    · refine .runsOn (ok := true) hb hpor rfl rfl ((State.pixGood_kept hsrc hclose).trans (if_neg ?_)) (.tb (.refl ..) (by decide) _) rfl
      rintro ⟨h1, h2, h3⟩
      simp [h1, h2] at h
      obtain h3 | h3 := h3 <;> simp [h3] at h
    · have hgood := (State.pixGood_kept (err := err) hsrc hclose).trans (if_pos ⟨hact, hready, .inl hst⟩)
      refine ⟨fun herr => ?_, fun herr => ?_⟩
      · exact .runsOn (ok := true) hb hpor rfl rfl (hgood.trans (State.resolve_tracked (s := b.setTb _) hst herr))
          (.tb (.tb (.refl ..) (by decide) _) (by decide) _) rfl
      · exact .runsOn (ok := true) hb hpor rfl rfl (hgood.trans (State.resolve_slewed (s := b.setTb _) herr))
          (.tb (.tb (.refl ..) (by decide) _) (by decide) _) rfl

end Sys2Proof.Machine
end

section
/-!
PROOFS. Raster beats (R51): the table of the last beats made due is not among those that the canonical form orders, and where it lists a port
twice, a beat that is all zeros is not what the table answers after it was sent.
-/

namespace Sys2Proof.Machine

open Sys2Proof

/-- Without an asserted source, a slice step or an attached channel, nothing follows a command's own effect. -/
theorem State.finish_quiet {b e : State} (hhub : e.pwr.hubReset = false) (hevm : e.evm.asserted = []) (hcal : e.cal.current = [])
    (hforce : e.force = []) : State.finish b e = e := by
  have hsettle : State.settle 2400 e = e := by
    unfold State.settle
    rw [hevm]
  have hwatch : State.watch b e = e := by
    unfold State.watch State.watchSteps
    simp [State.each, hcal, hforce]
  unfold State.finish
  rw [hhub, hsettle, hwatch, hsettle]
  rfl

/-- A raster root at the start of line 0 whose table of sent beats lists port 0 twice. -/
def beatTwice : State :=
  { State.reset with
    regs := [(regAddr .TB_CTL 0 0, 0x80000000), (regAddr .TB_BEAT_CTL 0 0, 0x00001100)]
    tb := { Tb.reset with ready := true, sent := [(0, ⟨0, 0, false, 0, 5, 0⟩), (0, ⟨0, 0, false, 0, 5, 0⟩)] } }

/-- Refutes O14: the beat that is due is all zeros, so that sending it takes one of the two entries of `beatTwice` away and the table answers
the other one. -/
theorem not_rasterBeatsAndDelayExchanges : ¬ Obligations.RasterBeatsAndDelayExchanges := by
  intro h
  obtain ⟨-, -, hsend, -⟩ := h beatTwice 0 0 (by decide) (by decide) (by decide)
  obtain ⟨e, hexec, hframe, hsent, -⟩ := hsend (by decide)
  have hquiet : State.finish (beatTwice.begin 0) e = e :=
    State.finish_quiet ((congrArg Pwr.hubReset (hframe.2.2 .pwr (by decide))).trans (by decide))
      ((congrArg Evm.asserted (hframe.2.2 .evm (by decide))).trans (by decide))
      ((congrArg Cal.current (hframe.2.2 .cal (by decide))).trans (by decide)) ((hframe.2.2 .force (by decide)).trans (by decide))
  rw [hquiet] at hexec
  have hout : ∀ u, exec (.beatSend 0 0) beatTwice = .next u → Table.get Beat.reset 0 u.tb.sent ≠ (beatTwice.begin 0).ownBeat 0 := by
    intro u hu
    obtain rfl := Host.Outcome.next.inj hu
    decide
  exact hout e hexec hsent

end Sys2Proof.Machine
end

section
/-!
PROOFS. Words that a write stores (R7, R397): which fields it takes from the value written, and when it writes no other value.
-/

namespace Sys2Proof.Machine

open Sys2Proof

variable {s : State}

theorem bits_bit (w : Word) (lo : Nat) : bits w lo 1 = b2n (bit w lo) := by
  apply Nat.eq_of_testBit_eq
  intro i
  rw [bits_testBit]
  unfold bit b2n
  cases i with
  | zero => cases h : w.getLsbD lo <;> simp [h]
  | succ i => cases w.getLsbD lo <;> simp [Nat.testBit_succ]

/-- A flag is the bit at its place. -/
theorem State.on_eq_bit (f : Fld) (i j : Nat) (hf : f.len = 1) : s.on f i j = bit (s.rd f.reg i j) f.lo := by
  unfold State.on State.fld
  rw [hf, bits_bit]
  cases bit (s.rd f.reg i j) f.lo <;> rfl

/-- A write writes none of the bits of a mask where it agrees with the present value on them. -/
theorem differs_eq_false {old v mask : Word} (h : ∀ i, mask.getLsbD i = true → old.getLsbD i = v.getLsbD i) :
    differs old v mask = false := by
  unfold differs
  rw [decide_eq_false_iff_not, not_not]
  refine BitVec.eq_of_getLsbD_eq fun i hi => ?_
  rw [BitVec.getLsbD_and, BitVec.getLsbD_xor]
  cases hm : mask.getLsbD i with
  | false => simp
  | true => simp [h i hm]

theorem differs_self (v mask : Word) : differs v v mask = false := differs_eq_false fun _ _ => rfl

theorem stored_getLsbD (r : Reg) (old v : Word) (i : Nat) :
    (stored r old v 0).getLsbD i =
      ((if (rwMask r).getLsbD i then v.getLsbD i else old.getLsbD i) && ! (v.getLsbD i && (w1cMask r).getLsbD i)) := by
  unfold stored
  have hm : rwMask r &&& ~~~ (0 : Word) = rwMask r := by
    have := unshielded (rwMask r) 0
    simpa using this
  dsimp only
  rw [hm]
  by_cases hi : i < 32
  · simp only [BitVec.getLsbD_and, BitVec.getLsbD_or, BitVec.getLsbD_not, hi, decide_true, Bool.true_and]
    cases (rwMask r).getLsbD i <;> simp
  · have h (w : Word) : w.getLsbD i = false := BitVec.getLsbD_of_ge w i (by omega)
    simp [h]

/-- A field of RW access takes its value from the word written. -/
theorem bits_stored {r : Reg} {lo len : Nat} (old v : Word)
    (h : ∀ i < len, (rwMask r).getLsbD (lo + i) = true ∧ (w1cMask r).getLsbD (lo + i) = false) :
    bits (stored r old v 0) lo len = bits v lo len := by
  apply Nat.eq_of_testBit_eq
  intro i
  rw [bits_testBit, bits_testBit, stored_getLsbD]
  by_cases hi : i < len
  · simp [h i hi]
  · simp [hi]

/-- A field that is neither RW nor W1C keeps its value. -/
theorem bits_stored_kept {r : Reg} {lo len : Nat} (old v : Word)
    (h : ∀ i < len, (rwMask r).getLsbD (lo + i) = false ∧ (w1cMask r).getLsbD (lo + i) = false) :
    bits (stored r old v 0) lo len = bits old lo len := by
  apply Nat.eq_of_testBit_eq
  intro i
  rw [bits_testBit, bits_testBit, stored_getLsbD]
  by_cases hi : i < len
  · simp [h i hi]
  · simp [hi]

end Sys2Proof.Machine
end

section
/-!
PROOFS. Arming a global generator by a write to TB_ANCHOR_CTL (R59, R61).
-/

namespace Sys2Proof.Machine

open Sys2Proof

section Arming
variable {s : State} {m k : Nat} {v : Word}

/-- Generator `k` with what a write of `v` to its control register stores. -/
def State.genWritten (s : State) (k : Nat) (v : Word) : State :=
  s.wr .TB_ANCHOR_CTL (stored .TB_ANCHOR_CTL (s.rd .TB_ANCHOR_CTL k) v 0) k

theorem State.genWritten_mode (h : Table.rising s.regs = true) : genMode (s.genWritten k v) k = bits v 24 3 := by
  have hrd : (s.genWritten k v).rd .TB_ANCHOR_CTL k = _ := State.rd_wr_same h ..
  show bits ((s.genWritten k v).rd .TB_ANCHOR_CTL k) 24 3 = _
  rw [hrd]
  exact bits_stored _ v (by decide)

theorem State.genWritten_n (h : Table.rising s.regs = true) : genN (s.genWritten k v) k = bits v 8 16 := by
  have hrd : (s.genWritten k v).rd .TB_ANCHOR_CTL k = _ := State.rd_wr_same h ..
  show bits ((s.genWritten k v).rd .TB_ANCHOR_CTL k) 8 16 = _
  rw [hrd]
  exact bits_stored _ v (by decide)

theorem State.sameBut_genWritten (h : Table.rising s.regs = true) :
    Table.SameBut [regAddr .TB_ANCHOR_CTL k 0] s.regs (s.genWritten k v).regs := Table.SameBut.put h _ _ _

theorem State.genWritten_pair (h : Table.rising s.regs = true) : (s.genWritten k v).genPair k = s.genPair k := by
  unfold State.genPair
  rw [show (s.genWritten k v).rd .TB_ANCHOR_TARGET_LO k = s.rd .TB_ANCHOR_TARGET_LO k from State.rd_wr_other h _ (by simp [regAddr, regRow]),
    show (s.genWritten k v).rd .TB_ANCHOR_TARGET_HI k = s.rd .TB_ANCHOR_TARGET_HI k from State.rd_wr_other h _ (by simp [regAddr, regRow])]

theorem State.genWritten_lines (h : Table.rising s.regs = true) : (s.genWritten k v).lines = s.lines := by
  have hne : regAddr .TB_LINES_PER_FRAME 0 0 ≠ regAddr .TB_ANCHOR_CTL k 0 := by
    have hl : regAddr .TB_LINES_PER_FRAME 0 0 < regAddr .TB_ANCHOR_CTL 0 0 := by decide
    have hk : regAddr .TB_ANCHOR_CTL 0 0 ≤ regAddr .TB_ANCHOR_CTL k 0 := by simp [regAddr, regRow]
    omega
  have hrd : (s.genWritten k v).rd .TB_LINES_PER_FRAME 0 0 = s.rd .TB_LINES_PER_FRAME 0 0 := State.rd_wr_other h _ hne
  exact congrArg (fun w => max 1 (bits w 0 16)) hrd

/-- A write that arms an unlocked, disarmed generator stores its word and arms (R61). -/
theorem State.regWrite_arm (hsh : s.shielded (regAddr .TB_ANCHOR_CTL k 0) = 0) (hlocked : s.on f_TB_ANCHOR_CTL_locked k = false)
    (h29 : bit v 29 = false) (h30 : bit v 30 = false) (h31 : bit v 31 = true) (harmed : (s.genOf k).armed = false) :
    s.regWrite m .TB_ANCHOR_CTL k 0 v none false = (s.genWritten k v).armGen m k none := by
  have hrwi : differs (s.rd .TB_ANCHOR_CTL k) v (rwiMask .TB_ANCHOR_CTL) = false := by
    refine differs_eq_false fun i hi => ?_
    obtain rfl : i = 29 := by
      by_contra hne
      rw [show rwiMask .TB_ANCHOR_CTL = BitVec.twoPow 32 29 from by decide, BitVec.getLsbD_twoPow] at hi
      simp at hi
      omega
    rw [State.on_eq_bit _ _ _ rfl] at hlocked
    exact hlocked.trans h29.symm
  have hbar : s.barred m .TB_ANCHOR_CTL k v (s.rd .TB_ANCHOR_CTL k) = none := by
    simp [State.barred, hlocked]
  have href : ∀ f ∈ s.refusals .TB_ANCHOR_CTL k v, f.1 = 0 := by simp [State.refusals, harmed]
  rw [State.regWrite_plain (by decide) hsh, State.writePlain_taken (by decide) hrwi hbar href]
  have hacted : ∀ x : State, x.acted m .TB_ANCHOR_CTL k v none false = x.armGen m k none := fun x => by
    simp [State.acted, h30, h31]
  have hchanged : ∀ (x : State) (old : Word), x.changed .TB_ANCHOR_CTL k 0 none old = x := fun x old => by
    simp [State.changed]
  rw [hchanged, hacted]
  rfl

/-- The anchor forms that may not be armed (R59, R395). -/
def State.genRefused (s : State) (k : Nat) : Prop :=
  genMode s k = 7 ∨ genMode s k = 6 ∧ genN s k = 0 ∨ genMode s k = 5 ∧ s.lines ≤ (s.genPair k).line

theorem State.armGen_refused (harmed : (s.genOf k).armed = false) (hoff : (s.genOf k).offCycle ≠ some s.cycle) (h : s.genRefused k) :
    s.armGen m k none = s.accessFault 0x004 1 .none m 2 (regAddr .TB_ANCHOR_CTL k 0) := by
  unfold State.armGen
  rw [if_neg (by simp [harmed, hoff]), if_pos (by unfold State.genRefused at h; simpa [or_assoc] using h)]
  rfl

/-- What arming makes of a generator's record. -/
def State.armedGen (s : State) (k : Nat) : Gen :=
  { s.genOf k with armed := true, waiting := ! s.tb.ready, due := none, dueLate := false, link := none }

theorem State.armGen_taken (harmed : (s.genOf k).armed = false) (hoff : (s.genOf k).offCycle ≠ some s.cycle) (h : ¬ s.genRefused k) :
    s.armGen m k none = if s.tb.ready then (s.setGen k (s.armedGen k)).judgeGen k else s.setGen k (s.armedGen k) := by
  unfold State.armGen
  rw [if_neg (by simp [harmed, hoff]), if_neg (by unfold State.genRefused at h; simpa [or_assoc] using h)]
  rfl

/-- A generator that is judged has its target and waits no longer; its arming and its count stay. -/
theorem State.genOf_judgeGen (hg : Table.rising s.tb.gens = true) :
    ((s.judgeGen k).genOf k).armed = (s.genOf k).armed ∧ ((s.judgeGen k).genOf k).waiting = false ∧
      ((s.judgeGen k).genOf k).target = s.genTarget k ∧ ((s.judgeGen k).genOf k).fires = (s.genOf k).fires := by
  unfold State.judgeGen
  rw [State.genOf_setGen_same hg]
  exact ⟨rfl, rfl, rfl, rfl⟩

theorem State.rising_setGen (hg : Table.rising s.tb.gens = true) (g : Gen) : Table.rising (s.setGen k g).tb.gens = true :=
  Table.rising_put hg

/-- What a generator is once it is armed: it waits, or its target is known. -/
theorem State.genOf_armGen (hg : Table.rising s.tb.gens = true) (harmed : (s.genOf k).armed = false)
    (hoff : (s.genOf k).offCycle ≠ some s.cycle) (h : ¬ s.genRefused k) :
    ((s.armGen m k none).genOf k).armed = true ∧ ((s.armGen m k none).genOf k).waiting = !s.tb.ready ∧
      (s.tb.ready = true → ((s.armGen m k none).genOf k).target = s.genTarget k) ∧
      ((s.armGen m k none).genOf k).fires = (s.genOf k).fires := by
  rw [State.armGen_taken harmed hoff h]
  have hset : (s.setGen k (s.armedGen k)).genOf k = s.armedGen k := State.genOf_setGen_same hg ..
  cases hready : s.tb.ready with
  | false =>
    simp only [Bool.false_eq_true, if_false, false_imp_iff, true_and]
    rw [hset]
    exact ⟨rfl, by simp [State.armedGen, hready], rfl⟩
  | true =>
    simp only [if_true]
    obtain ⟨h1, h2, h3, h4⟩ := State.genOf_judgeGen (k := k) (State.rising_setGen (k := k) hg (s.armedGen k))
    rw [hset] at h1 h4
    exact ⟨h1, h2, fun _ => h3, h4⟩

/-- Arming changes this generator's record alone. -/
theorem State.armGen_tb (hg : Table.rising s.tb.gens = true) (harmed : (s.genOf k).armed = false)
    (hoff : (s.genOf k).offCycle ≠ some s.cycle) (h : ¬ s.genRefused k) :
    ∃ g, s.armGen m k none = s.setTb { s.tb with gens := g } ∧ Table.SameBut [k] s.tb.gens g := by
  rw [State.armGen_taken harmed hoff h]
  have hput : Table.SameBut [k] s.tb.gens (s.setGen k (s.armedGen k)).tb.gens := Table.SameBut.put hg Gen.reset k (s.armedGen k)
  cases s.tb.ready with
  | false => exact ⟨_, rfl, hput⟩
  | true => exact ⟨_, rfl, hput.trans (Table.SameBut.put (State.rising_setGen hg _) _ _ _)⟩

end Arming

/-- Settles O16. -/
theorem armingAGlobalGenerator : Obligations.ArmingAGlobalGenerator := by
  intro s t k m v hcan hk hpow hans hsh hlocked h29 h30 h31 harmed hoff
  obtain ⟨b, hb⟩ : ∃ b, s.begin t = b := ⟨_, rfl⟩
  have hregs : Table.rising b.regs = true := hb ▸ hcan.begin_regs_rising t
  have hgens : Table.rising b.tb.gens = true := hb ▸ (State.canonical_begin hcan t).fine.gens
  rw [hb] at hsh hlocked harmed hoff ⊢
  have hrefused : (b.genWritten k v).genRefused k ↔
      bits v 24 3 = 7 ∨ bits v 24 3 = 6 ∧ bits v 8 16 = 0 ∨ bits v 24 3 = 5 ∧ b.lines ≤ (b.genPair k).line := by
    unfold State.genRefused
    rw [State.genWritten_mode hregs, State.genWritten_n hregs, State.genWritten_lines hregs, State.genWritten_pair hregs]
  have hwrite : OnlyChanges [.regs] b (b.genWritten k v) := (OnlyChanges.refl _ _).regs (by decide) _
  refine ⟨fun h => ?_, fun h => ?_⟩
  · have hok : ¬ (b.genWritten k v).genRefused k := by rw [hrefused]; omega
    have hmode : genMode (b.genWritten k v) k = bits v 24 3 := State.genWritten_mode hregs
    have hn : genN (b.genWritten k v) k = bits v 8 16 := State.genWritten_n hregs
    have hsame := State.sameBut_genWritten (k := k) (v := v) hregs
    have hwritten := State.regWrite_arm (m := m) hsh hlocked h29 h30 h31 harmed
    obtain ⟨x, hx⟩ : ∃ x, b.genWritten k v = x := ⟨_, rfl⟩
    have htb : x.tb = b.tb := hx ▸ rfl
    have hgens' : Table.rising x.tb.gens = true := htb ▸ hgens
    have harmed' : (x.genOf k).armed = false := by rw [← hx]; exact harmed
    have hoff' : (x.genOf k).offCycle ≠ some x.cycle := by rw [← hx]; exact hoff
    rw [hx] at hok hmode hn hsame hwritten hwrite
    obtain ⟨g, hg, hgs⟩ := State.armGen_tb (m := m) hgens' harmed' hoff' hok
    obtain ⟨h1, h2, h3, h4⟩ := State.genOf_armGen (m := m) hgens' harmed' hoff' hok
    rw [hg] at h1 h2 h3 h4
    rw [htb] at h2 h3 hgs
    have hfires : (x.genOf k).fires = (b.genOf k).fires := by rw [← hx]; rfl
    have hraster : x.tb.raster = b.tb.raster := by rw [htb]
    refine .registerWrite (ok := decide (k < 64)) hb hpow hans rfl (by simpa using hk) (hwritten.trans hg)
      ((hwrite.mono (by decide)).tb (by decide) _) (by decide)
      ⟨h1, h2, h3, h4.trans hfires, hmode, hn, hgs, hsame, hraster⟩
  · refine .registerWrite (ok := decide (k < 64)) hb hpow hans rfl (by simpa using hk)
      ((State.regWrite_arm hsh hlocked h29 h30 h31 harmed).trans (State.armGen_refused harmed hoff (hrefused.2 h)))
      ((hwrite.mono (by decide)).accessFault rfl ..) (by decide)
      ⟨b.genWritten k v, rfl, State.genWritten_mode hregs, State.genWritten_n hregs, hwrite, State.sameBut_genWritten hregs⟩

end Sys2Proof.Machine
end

section
/-!
PROOFS. A record that is stored twice: the second store is the one that counts.
-/

namespace Sys2Proof.Machine

open Sys2Proof

section Tables
variable {α : Type} {d : α} {k : Nat} {v w : α}

theorem Table.erase_of_above {j : Nat} (h : k ≤ j) : ∀ {t : Table α}, Table.above j t = true → Table.erase k t = t
  | [], _ => rfl
  | (i, x) :: t, ha => by
    have hi : j < i := by simpa [Table.above] using (Bool.and_eq_true_iff.1 ha).1
    unfold Table.erase
    rw [if_neg (by omega), if_pos (by omega)]

theorem Table.insert_insert : ∀ (t : Table α), Table.insert k w (Table.insert k v t) = Table.insert k w t
  | [] => by simp [Table.insert]
  | (j, x) :: t => by
    by_cases h : k = j
    · simp [Table.insert, h]
    · by_cases hlt : k < j
      · simp [Table.insert, h, hlt]
      · simp [Table.insert, h, hlt, Table.insert_insert t]

theorem Table.insert_erase : ∀ {t : Table α}, Table.rising t = true → Table.insert k w (Table.erase k t) = Table.insert k w t
  | [], _ => rfl
  | (j, x) :: t, hr => by
    simp only [Table.rising, Bool.and_eq_true] at hr
    by_cases h : k = j
    · subst h
      cases t with
      | nil => simp [Table.insert, Table.erase]
      | cons y t =>
        have hy : k < y.1 := by simpa [Table.above] using (Bool.and_eq_true_iff.1 hr.1).1
        simp [Table.insert, Table.erase, hy, Nat.ne_of_lt hy]
    · by_cases hlt : k < j
      · simp [Table.insert, Table.erase, h, hlt]
      · simp [Table.insert, Table.erase, h, hlt, Table.insert_erase hr.2]

theorem Table.erase_insert : ∀ (t : Table α), Table.rising t = true → Table.erase k (Table.insert k w t) = Table.erase k t
  | [], _ => by simp [Table.insert, Table.erase]
  | (j, x) :: t, hr => by
    simp only [Table.rising, Bool.and_eq_true] at hr
    by_cases h : k = j
    · simp [Table.insert, Table.erase, h]
    · by_cases hlt : k < j
      · simp [Table.insert, Table.erase, h, hlt]
      · simp [Table.insert, Table.erase, h, hlt, Table.erase_insert t hr.2]

theorem Table.erase_erase : ∀ {t : Table α}, Table.rising t = true → Table.erase k (Table.erase k t) = Table.erase k t
  | [], _ => rfl
  | (j, x) :: t, hr => by
    simp only [Table.rising, Bool.and_eq_true] at hr
    by_cases h : k = j
    · subst h
      simp only [Table.erase, if_true]
      exact Table.erase_of_above le_rfl hr.1
    · by_cases hlt : k < j
      · simp [Table.erase, h, hlt]
      · simp [Table.erase, h, hlt, Table.erase_erase hr.2]

theorem Table.put_put [DecidableEq α] {t : Table α} (hr : Table.rising t = true) :
    Table.put d k w (Table.put d k v t) = Table.put d k w t := by
  unfold Table.put
  split <;> split
  · exact Table.erase_erase hr
  · exact Table.erase_insert t hr
  · exact Table.insert_erase hr
  · exact Table.insert_insert t

end Tables

section Stores
variable {s : State} {n : Nat}

theorem State.setForce_setForce (h : Table.rising s.force = true) (x y : Force) : (s.setForce n x).setForce n y = s.setForce n y :=
  congrArg (fun f => { s with force := f }) (Table.put_put h)

theorem State.setSeq_setSeq (h : Table.rising s.seqs = true) (x y : Seqr) : (s.setSeq n x).setSeq n y = s.setSeq n y :=
  congrArg (fun f => { s with seqs := f }) (Table.put_put h)

theorem State.setEng_setEng (h : Table.rising s.engs = true) (x y : Eng) : (s.setEng n x).setEng n y = s.setEng n y :=
  congrArg (fun f => { s with engs := f }) (Table.put_put h)

theorem State.rising_setForce (h : Table.rising s.force = true) (x : Force) : Table.rising (s.setForce n x).force = true :=
  Table.rising_put h

theorem State.rising_setSeq (h : Table.rising s.seqs = true) (x : Seqr) : Table.rising (s.setSeq n x).seqs = true := Table.rising_put h

theorem State.rising_setEng (h : Table.rising s.engs = true) (x : Eng) : Table.rising (s.setEng n x).engs = true := Table.rising_put h

theorem State.sameBut_setForce (h : Table.rising s.force = true) (x : Force) : Table.SameBut [n] s.force (s.setForce n x).force :=
  Table.SameBut.put h _ _ _

theorem State.sameBut_setSeq (h : Table.rising s.seqs = true) (x : Seqr) : Table.SameBut [n] s.seqs (s.setSeq n x).seqs :=
  Table.SameBut.put h _ _ _

theorem State.sameBut_setEng (h : Table.rising s.engs = true) (x : Eng) : Table.SameBut [n] s.engs (s.setEng n x).engs :=
  Table.SameBut.put h _ _ _

end Stores

end Sys2Proof.Machine
end

section
/-!
PROOFS. What a DAC frame boundary does to a channel that forces voltage (R85, R86).
-/

namespace Sys2Proof.Machine

open Sys2Proof

section DacFrame
variable {s : State} {n k : Nat} {meas : Int}

theorem State.dueMarks_none (h : (s.engOf n).marks = []) : s.dueMarks n = s := by simp [State.dueMarks, h]

/-- A boundary leaves a sweep engine with no mark, no stop and no stall alone. -/
theorem State.sweepBoundary_none (hm : (s.engOf n).marks = []) (hs : (s.engOf n).stop = none) (hl : (s.engOf n).stall = false) :
    s.sweepBoundary n = s := by
  simp [State.sweepBoundary, State.dueMarks_none hm, hs, hl]

theorem State.startDue_idle (h : (s.engOf n).state = .idle) : s.startDue n = false := by simp [State.startDue, h]

theorem State.dacFrame_within (h : s.now < (s.forceOf n).frameAt + 65536) : s.dacFrame n meas = s := by
  have hk : (s.now - (s.forceOf n).frameAt) / 65536 = 0 := Nat.div_eq_of_lt (by omega)
  simp [State.dacFrame, hk]

/-- The boundary of the `k`-th frame after the last one, of a channel whose engine is idle. -/
theorem State.dacFrame_ended (hlo : (s.forceOf n).frameAt + k * 65536 ≤ s.now) (hhi : s.now < (s.forceOf n).frameAt + (k + 1) * 65536)
    (hk : 0 < k) (hpow : s.chanPowered n = true) (hidle : (s.engOf n).state = .idle) (hm : (s.engOf n).marks = [])
    (hs : (s.engOf n).stop = none) (hl : (s.engOf n).stall = false) :
    s.dacFrame n meas = s.dacBoundary n ((s.forceOf n).frameAt + k * 65536) k meas := by
  have hdiv : (s.now - (s.forceOf n).frameAt) / 65536 = k := Nat.div_eq_of_lt_le (by omega) (by omega)
  simp only [State.dacFrame, hdiv, State.startDue_idle hidle, hpow, State.sweepBoundary_none hm hs hl]
  simp [Nat.pos_iff_ne_zero.1 hk]

/-- A channel that forces voltage with no change under way runs no stage. -/
theorem State.runSteps_none {b f : Nat} {m : Option Int} (hsteps : (s.forceOf n).steps = []) (hst : (s.forceOf n).st = .forcingV)
    (hdis : (s.forceOf n).disabling = false) : State.runSteps n b m (f + 1) s = s := by
  simp [State.runSteps, hsteps, hst, hdis]

theorem Force.view_steps_nil {x : Force} (h : x.steps = []) (now : Nat) : x.view now = x := by simp [Force.view, h]

/-- The settings of a frame that begins at `a` (R73, R93). -/
def State.frameOpened (s : State) (n a : Nat) : Force :=
  { s.forceOf n with deckle := s.rd .CH_DECKLE n, filter := s.fld f_CH_CTL_filter n, gov := s.govSteps (n / 64), frameAt := a }

/-- The calender at the boundary of channel `n`. -/
def State.calendered (s : State) (n a k : Nat) : Force :=
  (s.frameOpened n a).calender (s.on f_CH_CALENDER_enable n) (s.fld f_CH_CALENDER_step_m1 n + 1) (s.fld f_CH_CALENDER_RATE_rate_m1 n + 1) k

/-- What the calender leaves alone. -/
theorem Force.calender_keeps (x : Force) (enable : Bool) (step rate : Nat) :
    ∃ p r, x.calender enable step rate k = { x with present := p, rate := r } := by
  unfold Force.calender
  dsimp only
  split
  · exact ⟨_, _, rfl⟩
  · split
    · exact ⟨_, _, rfl⟩
    · split
      · exact ⟨_, _, rfl⟩
      · exact ⟨_, _, rfl⟩

/-- The record of a channel after the boundary: the calender and then the correction (R85). -/
def State.released (s : State) (n a k : Nat) : Force :=
  let x := (s.calendered n a k).correct k
  { x with dac := clampCode (x.present + x.corr), fast := x.fast && decide (x.present ≠ x.target ∨ x.steps ≠ []) }

theorem State.dacBoundary_forcing {a : Nat} (hf : Table.rising s.force = true) (hst : (s.forceOf n).st = .forcingV)
    (hsteps : (s.forceOf n).steps = []) (hdis : (s.forceOf n).disabling = false) :
    s.dacBoundary n a k meas = s.setForce n (s.released n a k) := by
  have h1 : State.runSteps n a (some meas) 8 (s.setForce n (s.frameOpened n a)) = s.setForce n (s.frameOpened n a) := by
    apply State.runSteps_none <;> rw [State.forceOf_setForce_same hf] <;> assumption
  obtain ⟨p, r, hc⟩ := (s.frameOpened n a).calender_keeps (k := k) (s.on f_CH_CALENDER_enable n) (s.fld f_CH_CALENDER_step_m1 n + 1)
    (s.fld f_CH_CALENDER_RATE_rate_m1 n + 1)
  have h2 : State.runSteps n a none 8 (s.setForce n (s.calendered n a k)) = s.setForce n (s.calendered n a k) := by
    have hcal : s.calendered n a k = _ := hc
    apply State.runSteps_none <;> rw [State.forceOf_setForce_same hf, hcal] <;> assumption
  have h0 : s.dacBoundary n a k meas =
      let y := State.runSteps n a (some meas) 8 (s.setForce n (s.frameOpened n a))
      let x := y.forceOf n
      let x := if x.mode = (s.forceOf n).mode then
          x.calender (y.on f_CH_CALENDER_enable n) (y.fld f_CH_CALENDER_step_m1 n + 1) (y.fld f_CH_CALENDER_RATE_rate_m1 n + 1) k
        else { x with rate := x.rate + k }
      let z := State.runSteps n a none 8 (y.setForce n x)
      let x := (z.forceOf n).correct k
      z.setForce n { x with dac := clampCode (x.present + x.corr), fast := x.fast && decide (x.present ≠ x.target ∨ x.steps ≠ []) } := by
    unfold State.dacBoundary State.frameOpened
    rw [Force.view_steps_nil hsteps]
  rw [h0]
  dsimp only
  rw [h1, State.forceOf_setForce_same hf, if_pos (show (s.frameOpened n a).mode = (s.forceOf n).mode from rfl), State.setForce_setForce hf]
  have hcal : (s.frameOpened n a).calender ((s.setForce n (s.frameOpened n a)).on f_CH_CALENDER_enable n)
      ((s.setForce n (s.frameOpened n a)).fld f_CH_CALENDER_step_m1 n + 1)
      ((s.setForce n (s.frameOpened n a)).fld f_CH_CALENDER_RATE_rate_m1 n + 1) k = s.calendered n a k := rfl
  rw [hcal, h2, State.forceOf_setForce_same hf, State.setForce_setForce hf]
  rfl

end DacFrame

section Calender
variable {x : Force} {step rate k : Nat}

theorem Force.correct_keeps (x : Force) : ∃ c, x.correct k = { x with corr := c } ∧ (x.corrTo - x.corr).natAbs - k = (x.corrTo - c).natAbs ∧
    (c - x.corr).natAbs ≤ k := by
  unfold Force.correct
  refine ⟨_, rfl, ?_, ?_⟩ <;> split_ifs <;> omega

theorem Force.forced_nil (h : x.steps = []) : x.forced = false := by simp [Force.forced, h]

theorem Force.calender_off (hs : x.steps = []) (hf : x.fast = false) :
    x.calender false step rate k = { x with rate := x.rate + k, present := x.target } := by
  simp [Force.calender, Force.forced_nil hs, hf]

theorem Force.calender_counts (hs : x.steps = []) (hf : x.fast = false) (h : x.rate + k < rate) :
    x.calender true step rate k = { x with rate := x.rate + k } := by
  simp [Force.calender, Force.forced_nil hs, hf, Nat.not_le.2 h]

/-- A step of the calender goes towards the target, by at most its step a time. -/
theorem Force.calender_steps {left : Nat} (hs : x.steps = []) (hf : x.fast = false) (h : rate ≤ x.rate + k)
    (hleft : left = x.rate + k - max rate (x.rate + 1)) :
    ∃ p, x.calender true step rate k = { x with rate := left % rate, present := p } ∧
      (p - x.present).natAbs ≤ step * (1 + left / rate) ∧
      (x.target - p).natAbs = (x.target - x.present).natAbs - step * (1 + left / rate) := by
  have hc : x.calender true step rate k =
      let st := step * (1 + left / rate)
      let d := x.target - x.present
      { x with rate := left % rate, present := if d.natAbs ≤ st then x.target else if 0 < d then x.present + st else x.present - st } := by
    simp [Force.calender, Force.forced_nil hs, hf, h, hleft]
  refine ⟨_, hc, ?_, ?_⟩ <;> generalize step * (1 + left / rate) = st <;> split_ifs <;> omega

end Calender

/-- Settles O17. -/
theorem dacFrames : Obligations.DacFrames := by
  intro s t n meas hcan hpow hn
  obtain ⟨b, hb⟩ : ∃ b, s.begin t = b := ⟨_, rfl⟩
  have hforce : Table.rising b.force = true := hb ▸ (State.canonical_begin hcan t).fine.force
  rw [hb]
  have hok : isChan n = true := by simpa [isChan] using hn
  refine ⟨fun h => ?_, fun k hlo hhi hk hchan hidle hm hs hl hst hsteps hdis hfast => ?_⟩
  · exact .runs hb hpow rfl hok (State.dacFrame_within h) (OnlyChanges.refl _ _) trivial
  · refine .runs hb hpow rfl hok ((State.dacFrame_ended hlo hhi hk hchan hidle hm hs hl).trans
      (State.dacBoundary_forcing hforce hst hsteps hdis)) ((OnlyChanges.refl _ _).force (by decide) _) ?_
    obtain ⟨p, r, hcal⟩ := (b.frameOpened n ((b.forceOf n).frameAt + k * 65536)).calender_keeps (k := k) (b.on f_CH_CALENDER_enable n)
      (b.fld f_CH_CALENDER_step_m1 n + 1) (b.fld f_CH_CALENDER_RATE_rate_m1 n + 1)
    obtain ⟨c, hcorr, hless, hmove⟩ := (b.calendered n ((b.forceOf n).frameAt + k * 65536) k).correct_keeps (k := k)
    have hcal' : b.calendered n ((b.forceOf n).frameAt + k * 65536) k = _ := hcal
    rw [hcal'] at hcorr hless hmove
    have hy : b.released n ((b.forceOf n).frameAt + k * 65536) k =
        { b.frameOpened n ((b.forceOf n).frameAt + k * 65536) with
          present := p, rate := r, corr := c, dac := clampCode (p + c), fast := false } := by
      unfold State.released
      rw [hcal', hcorr]
      simp [State.frameOpened, hfast]
    dsimp only
    rw [hy, State.forceOf_setForce_same hforce]
    refine ⟨State.sameBut_setForce hforce _, hst, rfl, rfl, rfl, rfl, rfl, rfl, rfl, hless, rfl, hmove, rfl, fun hoff => ?_,
      fun hon hcount => ?_, fun q left hon hq hle hleft => ?_⟩
    · rw [hoff, Force.calender_off (x := b.frameOpened ..) hsteps hfast] at hcal
      exact (congrArg Force.present hcal).symm
    · rw [hon, Force.calender_counts (x := b.frameOpened ..) hsteps hfast hcount] at hcal
      exact ⟨(congrArg Force.present hcal).symm, (congrArg Force.rate hcal).symm⟩
    · obtain ⟨p', hc', hp1, hp2⟩ := Force.calender_steps (x := b.frameOpened n ((b.forceOf n).frameAt + k * 65536))
        (step := b.fld f_CH_CALENDER_step_m1 n + 1) (rate := q) (k := k) hsteps hfast hle hleft
      rw [hon, ← hq, hc'] at hcal
      obtain rfl : p' = p := congrArg Force.present hcal
      exact ⟨(congrArg Force.rate hcal).symm, hp1, hp2⟩

end Sys2Proof.Machine
end

section
/-!
PROOFS. Force commands: refused, carried out, or waiting (R78 to R90, R105).
-/

namespace Sys2Proof.Machine

open Sys2Proof

section Fields
variable {s : State} {r : Reg} {i j k l : Nat} {w : Word}

theorem State.fld_wr_other (h : Table.rising s.regs = true) {f : Fld} (hne : regAddr f.reg k l ≠ regAddr r i j) :
    (s.wr r w i j).fld f k l = s.fld f k l := congrArg (bits · f.lo f.len) (State.rd_wr_other h w hne)

theorem State.on_wr_other (h : Table.rising s.regs = true) {f : Fld} (hne : regAddr f.reg k l ≠ regAddr r i j) :
    (s.wr r w i j).on f k l = s.on f k l := by
  unfold State.on
  rw [State.fld_wr_other h hne]

end Fields

section ForceCommands
variable {s : State} {m n : Nat} {v : Word} {c : ForceCmd}

theorem State.regWrite_force (h : s.shielded (regAddr .CH_FORCE_SET n 0) = 0) :
    s.regWrite m .CH_FORCE_SET n 0 v none false = s.writeForce m n v := by
  unfold State.regWrite
  simp only [h]
  rw [if_neg (by decide), unshielded]

/-! ## Without autorange a command is what it spells -/

theorem State.autorange_off (h : s.on f_CH_MEAS_CTL_autorange n = false) : s.autorange n = false := by simp [State.autorange, h]

theorem State.rangedCmd_plain (h : s.autorange n = false) : s.rangedCmd n c = c := by simp [State.rangedCmd, h]

theorem State.rangedCmd_span : (s.rangedCmd n c).span = c.span := by unfold State.rangedCmd; split <;> rfl

theorem State.forceRefused_of (h : (s.forceOf n).st = .detached ∨ (s.forceOf n).st = .safe ∨ s.on f_CH_CTL_enable n = false ∨
      (s.forceOf n).disabling = true ∨ (s.engOf n).state ∈ [EngState.running, .waiting, .starved] ∨ c.span = 3 ∨
      s.autorange n = false ∧ (c.range = 7 ∨ c.range = 6 ∧ (s.boosterBound n = false ∨ c.span ≠ 2))) :
    s.forceRefused n c true = true := by
  unfold State.forceRefused
  rcases h with h | h | h | h | h | h | ⟨ha, h | ⟨hr, h | h⟩⟩
  · simp [h]
  · simp [h]
  · simp [h]
  · simp [h]
  · simp only [List.mem_cons, List.not_mem_nil, or_false] at h
    rcases h with h | h | h <;> simp [h]
  · simp [h]
  · simp [State.rangedCmd_plain ha, h]
  · simp [State.rangedCmd_plain ha, hr, h]
  · simp [State.rangedCmd_plain ha, hr, h]

/-- A command that nothing refuses is accepted (R81). -/
theorem State.forceRefused_not (hen : s.on f_CH_CTL_enable n = true) (hdis : (s.forceOf n).disabling = false)
    (hauto : s.autorange n = false) (heng : (s.engOf n).state ∈ [EngState.idle, .armed, .primed])
    (hst : (s.forceOf n).st ≠ .detached ∧ (s.forceOf n).st ≠ .safe) (hspan : c.span ≠ 3)
    (hrange : c.range < 6 ∨ c.range = 6 ∧ s.boosterBound n = true ∧ c.span = 2) : s.forceRefused n c true = false := by
  unfold State.forceRefused
  rw [State.rangedCmd_plain hauto]
  simp only [List.mem_cons, List.not_mem_nil, or_false] at heng
  have he : (decide ((s.engOf n).state = .running) || decide ((s.engOf n).state = .waiting) || decide ((s.engOf n).state = .starved)) = false := by
    rcases heng with h | h | h <;> simp [h]
  simp only [he, hen, hdis, hst, hspan, decide_false, Bool.or_false, Bool.not_true, Bool.and_false]
  rcases hrange with h | ⟨h, hb, h2⟩
  · simp [Nat.ne_of_lt h, show c.range ≠ 7 by omega]
  · simp [h, hb, h2]

theorem State.refuseForce_host : s.refuseForce n (some m) =
    (s.stick f_CH_FORCE_EVENTS_refused n).accessFault 0x105 1 (.channel n) m 2 (regAddr .CH_FORCE_SET n 0) := rfl

/-! ## Commands that are accepted (R82) -/

theorem regAddr_meas_ne_force : regAddr .CH_MEAS_CTL n 0 ≠ regAddr .CH_FORCE_SET n 0 := by simp [regAddr, regRow]

/-- A command outside RANGING, SPAN_CHANGE and COUCHING is carried out at once. -/
theorem State.acceptForce_now (hregs : Table.rising s.regs = true) (hauto : s.on f_CH_MEAS_CTL_autorange n = false)
    (hsteps : (s.forceOf n).steps = []) (hst : (s.forceOf n).st ∈ [ChState.forcingV, .forcingI, .zeroed]) :
    s.acceptForce n c = (s.wr .CH_FORCE_SET c.word n).setForce n ((s.forceOf n).apply c s.now) := by
  have hauto' : (s.wr .CH_FORCE_SET c.word n).autorange n = false :=
    State.autorange_off ((State.on_wr_other hregs regAddr_meas_ne_force).trans hauto)
  simp only [List.mem_cons, List.not_mem_nil, or_false] at hst
  unfold State.acceptForce
  rw [State.rangedCmd_plain (State.autorange_off hauto), Force.view_steps_nil hsteps]
  dsimp only
  rw [if_neg (by rcases hst with h | h | h <;> simp [h]), State.applyForce, State.rangedCmd_plain hauto', if_pos rfl, State.wr_forceOf, State.wr_now]

theorem Force.view_st (x : Force) (now : Nat) : (x.view now).st = x.st := by
  unfold Force.view
  split
  · split <;> rfl
  · rfl

/-- A command that meets a range or a span change waits. -/
theorem State.acceptForce_waits (hauto : s.on f_CH_MEAS_CTL_autorange n = false)
    (hst : (s.forceOf n).st = .ranging ∨ (s.forceOf n).st = .spanChange) :
    s.acceptForce n c = (s.wr .CH_FORCE_SET c.word n).setForce n { s.forceOf n with pending := some c } := by
  unfold State.acceptForce
  rw [State.rangedCmd_plain (State.autorange_off hauto)]
  dsimp only
  rw [if_pos (by rcases hst with h | h <;> simp [Force.view_st, h]), State.wr_forceOf]

end ForceCommands

section Apply
variable {x : Force} {c : ForceCmd} {now : Nat}

theorem Force.apply_same (hsteps : x.steps = []) (hst : x.st ≠ .couching) (hspan : c.span = x.span) (hrange : c.range = x.range)
    (hmode : c.mode = x.mode) : x.apply c now = { x with st := forcing c.mode, target := c.code, fast := c.fast } := by
  unfold Force.apply
  rw [Force.view_steps_nil hsteps]
  simp [hspan, hrange, hsteps, hst, hmode, endMode]

theorem Force.apply_mode (hsteps : x.steps = []) (hst : x.st ≠ .couching) (hspan : c.span = x.span) (hrange : c.range = x.range)
    (hmode : c.mode ≠ x.mode) :
    x.apply c now = { x with st := forcing c.mode, fast := c.fast, steps := [.mode c.mode, .ramp c.code] } := by
  unfold Force.apply
  rw [Force.view_steps_nil hsteps]
  simp [hspan, hrange, hsteps, hst, hmode, endMode]

theorem Force.apply_range (hsteps : x.steps = []) (hspan : c.span = x.span) (hrange : c.range ≠ x.range) (h6 : c.range ≠ 6)
    (h6' : x.range ≠ 6) (hmode : x.mode = false) (hcmode : c.mode = false) :
    x.apply c now = { x with before := x.st, st := .ranging, goal := some false, target := x.present, due := now + us 8, fast := c.fast,
                             steps := [.switch x.range c.range, .aim c.code] } := by
  unfold Force.apply
  rw [Force.view_steps_nil hsteps]
  simp [hspan, hrange, h6, h6', hmode, hcmode, Force.rangeChange]

theorem Force.apply_span (hsteps : x.steps = []) (h : c.span ≠ x.span ∨ c.range ≠ x.range ∧ (c.range = 6 ∨ x.range = 6))
    (hmode : x.mode = false) (hcmode : c.mode = false) :
    x.apply c now = { x with st := .spanChange, fast := c.fast, goal := some false, due := 0,
                             steps := [.ramp 0, .hold c.span c.range, .ramp c.code] } := by
  unfold Force.apply
  rw [Force.view_steps_nil hsteps]
  simp [h, Force.spanChange, zeroSteps, hmode, hcmode]

end Apply

/-- Settles O18. -/
theorem forceCommands : Obligations.ForceCommands := by
  intro s t m n v hcan hpow hn hans hsh
  obtain ⟨b, hb⟩ : ∃ b, s.begin t = b := ⟨_, rfl⟩
  have hregs : Table.rising b.regs = true := hb ▸ hcan.begin_regs_rising t
  have hforce : Table.rising b.force = true := hb ▸ (State.canonical_begin hcan t).fine.force
  rw [hb] at hsh ⊢
  have hok : isChan n = true := by simpa [isChan] using hn
  have hwrite := State.regWrite_force (m := m) (v := v) hsh
  have hsame : ∀ w, Table.SameBut [regAddr .CH_FORCE_SET n 0] b.regs (b.wr .CH_FORCE_SET w n).regs := fun w => .put hregs _ _ _
  have hframe : ∀ w x, OnlyChanges [.regs, .force, .resp] b ((b.wr .CH_FORCE_SET w n).setForce n x) :=
    fun w x => ((OnlyChanges.refl _ _).regs (by decide) _).force (by decide) _
  have hforceOf : ∀ w x, ((b.wr .CH_FORCE_SET w n).setForce n x).forceOf n = x := fun w x => State.forceOf_setForce_same hforce
  have hforces : ∀ w x, Table.SameBut [n] b.force ((b.wr .CH_FORCE_SET w n).setForce n x).force :=
    fun w x => State.sameBut_setForce (s := b.wr .CH_FORCE_SET w n) hforce x
  obtain ⟨w, hw⟩ : ∃ w, (ForceCmd.ofWord v).word = w := ⟨_, rfl⟩
  rw [hw]
  refine ⟨fun h => ?_, fun hen hdis hauto heng hspan hrange => ⟨fun hst hsteps => ?_, fun hst => ?_⟩⟩
  · have hrefused : b.writeForce m n v = _ := if_pos (State.forceRefused_of (c := ForceCmd.ofWord v) h)
    exact .registerWrite hb hpow hans rfl hok (hwrite.trans hrefused)
      (((OnlyChanges.refl _ _).stick (by decide) _ _).accessFault rfl ..) (by decide)
      ⟨_, rfl, State.on_stick hregs _ (by decide) (by decide), (OnlyChanges.refl _ _).stick (by decide) _ _,
        State.sameBut_stick hregs f_CH_FORCE_EVENTS_refused n⟩
  · have hne : (b.forceOf n).st ≠ .couching ∧ (b.forceOf n).st ≠ .detached ∧ (b.forceOf n).st ≠ .safe := by
      simp only [List.mem_cons, List.not_mem_nil, or_false] at hst
      rcases hst with h | h | h <;> simp [h]
    have htaken : b.writeForce m n v = b.acceptForce n (ForceCmd.ofWord v) := if_neg (by
      rw [State.forceRefused_not (c := ForceCmd.ofWord v) hen hdis (State.autorange_off hauto) heng hne.2 hspan hrange]; decide)
    have hdone := hwrite.trans (htaken.trans (State.acceptForce_now hregs hauto hsteps hst))
    obtain ⟨x, hx⟩ : ∃ x, (b.forceOf n).apply (ForceCmd.ofWord v) b.now = x := ⟨_, rfl⟩
    rw [hw, hx] at hdone
    have hshow : (b.wr .CH_FORCE_SET w n).rd .CH_FORCE_SET n = w := State.rd_wr_same hregs ..
    have hrun : ∀ P : State → State → Prop, P b { (b.wr .CH_FORCE_SET w n).setForce n x with resp := ⟨m, false, 0⟩ } →
        Completes (.forceCommand t m n v) t s [.regs, .force, .resp] P :=
      fun _ hP => .registerWrite hb hpow hans rfl hok hdone (hframe w x) (by decide) hP
    refine ⟨fun h1 h2 h3 => ?_, fun h1 h2 h3 => ?_, fun h1 h2 h4 h5 h6 h7 => ?_, fun h1 h2 h3 => ?_⟩
    · exact hrun _ ⟨rfl, hshow, hsame w, (hforceOf w x).trans (hx.symm.trans (Force.apply_same hsteps hne.1 h1 h2 h3)), hforces w x⟩
    · exact hrun _ ⟨rfl, hsame w, (hforceOf w x).trans (hx.symm.trans (Force.apply_mode hsteps hne.1 h1 h2 h3)), hforces w x⟩
    · exact hrun _ ⟨rfl, hsame w, (hforceOf w x).trans (hx.symm.trans (Force.apply_range hsteps h1 h2 h4 h5 h6 h7)), hforces w x⟩
    · exact hrun _ ⟨rfl, hsame w, (hforceOf w x).trans (hx.symm.trans (Force.apply_span hsteps h1 h2 h3)), hforces w x⟩
  · have hne : (b.forceOf n).st ≠ .detached ∧ (b.forceOf n).st ≠ .safe := by rcases hst with h | h <;> simp [h]
    have htaken : b.writeForce m n v = b.acceptForce n (ForceCmd.ofWord v) := if_neg (by
      rw [State.forceRefused_not (c := ForceCmd.ofWord v) hen hdis (State.autorange_off hauto) heng hne hspan hrange]; decide)
    have hdone := hwrite.trans (htaken.trans (State.acceptForce_waits hauto hst))
    rw [hw] at hdone
    exact .registerWrite hb hpow hans rfl hok hdone (hframe _ _) (by decide) ⟨rfl, hforceOf w _, hforces w _, hsame w⟩

end Sys2Proof.Machine
end

section
/-!
PROOFS. The ends of range switches and of span holds (R79, R87, R88, R90, R132).
-/

namespace Sys2Proof.Machine

open Sys2Proof

section Ends
variable {s : State} {n : Nat} {now : Nat}

/-- What the view of a channel leaves alone. -/
theorem Force.view_keeps (x : Force) (now : Nat) : ∃ r p t d, x.view now = { x with range := r, present := p, target := t, dac := d } ∧
    (x.mode = false → p = x.present ∧ t = x.target ∧ d = x.dac) := by
  unfold Force.view
  split
  · split
    · exact ⟨_, _, _, _, rfl, fun h => by simp [h]⟩
    · exact ⟨_, _, _, _, rfl, fun _ => ⟨rfl, rfl, rfl⟩⟩
  · exact ⟨_, _, _, _, rfl, fun _ => ⟨rfl, rfl, rfl⟩⟩

/-- The record of a channel whose range switch to `r` has ended. -/
def Force.switched (x : Force) (now r : Nat) (rest : List FStep) : Force :=
  { x.view now with range := r, rangingEnd := if x.st = .ranging then now else x.rangingEnd, due := 0, steps := rest }

theorem Force.switched_eq (x : Force) (now r : Nat) (rest : List FStep) (hst : x.st = .ranging) :
    ∃ p t d, x.switched now r rest =
        { x with range := r, present := p, target := t, dac := d, rangingEnd := now, due := 0, steps := rest } ∧
      (x.mode = false → p = x.present ∧ t = x.target ∧ d = x.dac) := by
  obtain ⟨_, p, t, d, hv, hm⟩ := x.view_keeps now
  exact ⟨p, t, d, by rw [Force.switched, hv, if_pos hst], hm⟩

/-- The state in which the new range of channel `n` is in force. -/
def State.inRange (s : State) (n : Nat) (x : Force) : State := ((s.setForce n x).stick f_CH_FORCE_EVENTS_range_done n).zeroCounts n

theorem State.endRange_early {o r : Nat} {rest : List FStep} (hs : (s.forceOf n).steps = .switch o r :: rest)
    (h : s.now < (s.forceOf n).due) : s.endRange n = s := by
  simp only [State.endRange, hs, h, or_true, if_true]

theorem State.endRange_forcing {o r : Nat} {g : Bool} {rest : List FStep} (hs : (s.forceOf n).steps = .switch o r :: rest)
    (h0 : (s.forceOf n).due ≠ 0) (hdue : (s.forceOf n).due ≤ s.now) (hst : (s.forceOf n).st = .ranging) (hg : (s.forceOf n).goal = some g) :
    s.endRange n = ((s.inRange n ((s.forceOf n).switched s.now r rest)).afterChange n g).autorangeCheck n := by
  simp only [State.endRange, hs]
  rw [if_neg (by omega), if_pos hst, hg]
  rfl

theorem State.endRange_disabling {o r : Nat} {rest : List FStep} (hs : (s.forceOf n).steps = .switch o r :: rest)
    (h0 : (s.forceOf n).due ≠ 0) (hdue : (s.forceOf n).due ≤ s.now) (hst : (s.forceOf n).st = .ranging) (hg : (s.forceOf n).goal = none)
    (hd : (s.forceOf n).disabling = true) :
    s.endRange n = (s.inRange n ((s.forceOf n).switched s.now r rest)).enterZeroed n := by
  simp only [State.endRange, hs]
  rw [if_neg (by omega), if_pos hst, hg, hd]
  rfl

/-- A change that ends with no command waiting leaves the channel in its forcing state. -/
theorem State.afterChange_plain {x : Force} (g : Bool) (hx : s.forceOf n = x) (hd : x.disabling = false) (hp : x.pending = none)
    (ht : x.toTop = none) : s.afterChange n g = s.setForce n { x with st := forcing g, goal := none, toTop := none } := by
  simp [State.afterChange, hx, hd, hp, ht, Force.belowTop]

theorem State.autorangeCheck_off (h : s.on f_CH_MEAS_CTL_autorange n = false) : s.autorangeCheck n = s := by
  simp [State.autorangeCheck, State.autorange_off h]

theorem State.inRange_forceOf (h : Table.rising s.force = true) (x : Force) : (s.inRange n x).forceOf n = x :=
  State.forceOf_setForce_same h

theorem State.inRange_regs (x : Force) : (s.inRange n x).regs = (s.stick f_CH_FORCE_EVENTS_range_done n).regs := rfl

theorem State.sameBut_inRange (h : Table.rising s.force = true) (x y : Force) :
    Table.SameBut [n] s.force ((s.inRange n x).setForce n y).force :=
  (State.sameBut_setForce h x).trans (State.sameBut_setForce (s := s.inRange n x) (State.rising_setForce h x) y)

theorem State.onlyChanges_inRange {l : List Part} {b : State} (h : OnlyChanges l b s) (hf : .force ∈ l) (hr : .regs ∈ l) (hq : .seqs ∈ l)
    (x : Force) : OnlyChanges l b (s.inRange n x) := ((h.force hf _).stick hr _ _).seqs hq _

/-! ## The hold of a span change (R90) -/

/-- The record of a channel whose span hold has ended. -/
def Force.held (x : Force) (sp r : Nat) (rest : List FStep) : Force := { x with span := sp, range := r, due := 0, steps := rest }

theorem State.endHold_early {sp r : Nat} {rest : List FStep} (hframe : s.now < (s.forceOf n).frameAt + 65536)
    (hs : (s.forceOf n).steps = .hold sp r :: rest) (h : s.now < (s.forceOf n).due) : s.endHold n = s := by
  simp only [State.endHold, State.dacFrame_within hframe, hs, h, or_true, if_true]

theorem State.endHold_done {sp r : Nat} {rest : List FStep} (hframe : s.now < (s.forceOf n).frameAt + 65536)
    (hs : (s.forceOf n).steps = .hold sp r :: rest) (h0 : (s.forceOf n).due ≠ 0) (hdue : (s.forceOf n).due ≤ s.now)
    (hp : (s.forceOf n).pending = none) :
    s.endHold n = if r ≠ (s.forceOf n).range then (s.setForce n ((s.forceOf n).held sp r rest)).stick f_CH_FORCE_EVENTS_range_done n
      else s.setForce n ((s.forceOf n).held sp r rest) := by
  simp only [State.endHold, State.dacFrame_within hframe, hs]
  rw [if_neg (by omega)]
  simp only [Force.rampUp, hp, Force.held]

end Ends

section Addresses
variable (n : Nat)

theorem regAddr_meas_ne_events : regAddr .CH_MEAS_CTL n 0 ≠ regAddr .CH_FORCE_EVENTS n 0 := by simp [regAddr, regRow]
theorem regAddr_events_ne_deckle : regAddr .CH_FORCE_EVENTS n 0 ≠ regAddr .CH_DECKLE n 0 := by simp [regAddr, regRow]
theorem regAddr_default_ne_events : regAddr .CH_DECKLE_DEFAULT n 0 ≠ regAddr .CH_FORCE_EVENTS n 0 := by simp [regAddr, regRow]

end Addresses

/-- Settles O19. -/
theorem rangeAndSpanChangesEnd : Obligations.RangeAndSpanChangesEnd := by
  intro s t n hcan hpow hn
  obtain ⟨b, hb⟩ : ∃ b, s.begin t = b := ⟨_, rfl⟩
  have hregs : Table.rising b.regs = true := hb ▸ hcan.begin_regs_rising t
  have hforce : Table.rising b.force = true := hb ▸ (State.canonical_begin hcan t).fine.force
  have hseqs : Table.rising b.seqs = true := hb ▸ (State.canonical_begin hcan t).fine.seqs
  rw [hb]
  have hok : isChan n = true := by simpa [isChan] using hn
  have hin : ∀ x, (b.inRange n x).seqOf n = { b.seqOf n with up := 0, down := 0, rangeHold := false } := fun x => State.seqOf_setSeq_same hseqs
  have hdone : ∀ x, (b.inRange n x).on f_CH_FORCE_EVENTS_range_done n = true := fun x =>
    State.on_stick (s := b) hregs n (by decide) (by decide)
  have hevents : ∀ x, Table.SameBut [regAddr .CH_FORCE_EVENTS n 0] b.regs (b.inRange n x).regs := fun x =>
    State.sameBut_stick hregs f_CH_FORCE_EVENTS_range_done n
  refine ⟨fun o r rest hs h => ?_, fun o r g hs h0 hdue hst hg hd hp ht hauto => ?_, fun o r hs h0 hdue hst hg hd => ?_,
    fun sp r rest hs h0 hdue hframe hp => ?_, fun sp r rest hs h hframe => ?_⟩
  · exact .runs hb hpow rfl hok (State.endRange_early hs h) (OnlyChanges.refl _ _) trivial
  · obtain ⟨p, tg, d, hx, hm⟩ := (b.forceOf n).switched_eq b.now r [] hst
    obtain ⟨x, hx'⟩ : ∃ x, (b.forceOf n).switched b.now r [] = x := ⟨_, rfl⟩
    have hauto' : ∀ y, ((b.inRange n x).setForce n y).on f_CH_MEAS_CTL_autorange n = false := fun y =>
      (State.on_wr_other (s := b) hregs (regAddr_meas_ne_events n)).trans hauto
    have hend := State.endRange_forcing hs h0 hdue hst hg
    rw [hx', State.afterChange_plain g (State.inRange_forceOf hforce x) (by rw [← hx', hx]; exact hd) (by rw [← hx', hx]; exact hp)
      (by rw [← hx', hx]; exact ht), State.autorangeCheck_off (hauto' _)] at hend
    have hframe := State.onlyChanges_inRange (l := [.force, .regs, .seqs]) (n := n) (OnlyChanges.refl _ b) (by decide) (by decide) (by decide) x
    refine .runs hb hpow rfl hok hend (hframe.force (by decide) _) ?_
    dsimp only
    rw [State.forceOf_setForce_same (s := b.inRange n x) (State.rising_setForce hforce x), ← hx', hx]
    refine ⟨rfl, rfl, rfl, rfl, rfl, rfl, rfl, rfl, hm, ?_, hdone x, hevents x, ?_, ?_, State.sameBut_setSeq hseqs _⟩
    · exact State.sameBut_inRange hforce _ _
    · exact congrArg Seqr.up (hin x)
    · exact congrArg Seqr.down (hin x)
  · obtain ⟨p, tg, d, hx, hm⟩ := (b.forceOf n).switched_eq b.now r [] hst
    obtain ⟨x, hx'⟩ : ∃ x, (b.forceOf n).switched b.now r [] = x := ⟨_, rfl⟩
    have hend := State.endRange_disabling hs h0 hdue hst hg hd
    rw [hx', State.enterZeroed, State.inRange_forceOf hforce x] at hend
    have hframe := State.onlyChanges_inRange (l := [.force, .regs, .seqs]) (n := n) (OnlyChanges.refl _ b) (by decide) (by decide) (by decide) x
    have hregs' : Table.rising (b.inRange n x).regs = true := State.rising_stick hregs f_CH_FORCE_EVENTS_range_done n
    refine .runs hb hpow rfl hok hend ((hframe.regs (by decide) _).force (by decide) _) ?_
    dsimp only
    rw [State.forceOf_setForce_same (s := (b.inRange n x).wr _ _ _) (State.rising_setForce hforce x), ← hx', hx]
    refine ⟨rfl, rfl, rfl, rfl, rfl, rfl, ?_, ?_, ?_, ?_, State.sameBut_setSeq hseqs _⟩
    · exact State.sameBut_inRange hforce _ _
    · exact (State.rd_wr_same (hx ▸ hx' ▸ hregs') ..).trans (State.rd_wr_other (s := b) hregs _ (regAddr_default_ne_events n))
    · exact (State.on_wr_other (s := b.inRange n _) (hx ▸ hx' ▸ hregs') (regAddr_events_ne_deckle n)).trans (hdone _)
    · exact ((hevents _).mono (by simp)).trans ((Table.SameBut.put (hx ▸ hx' ▸ hregs') _ _ _).mono (by simp))
  · have hend := State.endHold_done hframe hs h0 hdue hp
    have hset : OnlyChanges [.force, .regs] b (b.setForce n ((b.forceOf n).held sp r rest)) := (OnlyChanges.refl _ _).force (by decide) _
    by_cases hr : r = (b.forceOf n).range
    · rw [if_neg (not_not.2 hr)] at hend
      exact .runs hb hpow rfl hok hend hset
        ⟨State.forceOf_setForce_same hforce, State.sameBut_setForce hforce _, fun h => absurd hr h, Table.SameBut.refl _ _⟩
    · rw [if_pos hr] at hend
      exact .runs hb hpow rfl hok hend (hset.stick (by decide) _ _)
        ⟨State.forceOf_setForce_same hforce, State.sameBut_setForce hforce _,
          fun _ => State.on_stick (s := b.setForce n _) hregs n (by decide) (by decide),
          State.sameBut_stick (s := b.setForce n _) hregs f_CH_FORCE_EVENTS_range_done n⟩
  · exact .runs hb hpow rfl hok (State.endHold_early hframe hs h) (OnlyChanges.refl _ _) trivial

end Sys2Proof.Machine
end

section
/-!
PROOFS. A detach from ZEROED stores the idle engine's record again (R80): where the table of engines lists a record that is the reset one, the
store takes it out, and the table is not the same.
-/

namespace Sys2Proof.Machine

open Sys2Proof

/-- Without an asserted source, a slice step or autorange set, nothing follows a command's own effect. -/
theorem State.finish_still {b e : State} (hhub : e.pwr.hubReset = false) (hevm : e.evm.asserted = []) (hcal : e.cal.current = [])
    (hauto : ∀ n, e.on f_CH_MEAS_CTL_autorange n = false) : State.finish b e = e := by
  have hsettle : State.settle 2400 e = e := by
    unfold State.settle
    rw [hevm]
  have hfresh : (e.force.filter fun x => e.autorange x.1 && ! b.autorange x.1) = [] :=
    List.filter_eq_nil_iff.2 fun x _ => by simp [State.autorange_off (hauto x.1)]
  have hwatch : State.watch b e = e := by
    unfold State.watch State.watchSteps
    simp [State.each, hcal, hfresh]
  unfold State.finish
  rw [hhub, hsettle, hwatch, hsettle]
  rfl

/-- Channel 0 in ZEROED, its idle engine's record listed though it is the reset one. -/
def zeroedListed : State :=
  { State.reset with force := [(0, { Force.reset 0 with st := .zeroed })], engs := [(0, Eng.reset)] }

/-- Refutes O20: the detach of `zeroedListed` takes the listed record out of the table of engines. -/
theorem not_attachmentDisableAndDetach : ¬ Obligations.AttachmentDisableAndDetach := by
  intro h
  obtain ⟨-, -, -, hdetach⟩ := h zeroedListed 0 0x1020 0 0x40000000 [] (by decide) (by decide) (by decide)
  obtain ⟨e, hexec, hframe, -, -, -, hengs, hregs⟩ :=
    (hdetach (by decide) (by decide) (by decide) (by decide)).1 (by decide) (by decide)
  have hstill : State.finish (zeroedListed.begin 0) e = e :=
    State.finish_still ((congrArg Pwr.hubReset (hframe.2.2 .pwr (by decide))).trans (by decide))
      ((congrArg Evm.asserted (hframe.2.2 .evm (by decide))).trans (by decide))
      ((congrArg Cal.current (hframe.2.2 .cal (by decide))).trans (by decide)) fun n => by
        unfold State.on State.fld
        rw [hregs, State.rd, show (zeroedListed.begin 0).regs = [] from by decide]
        exact show (bits (BitVec.ofNat 32 (regRow .CH_MEAS_CTL).reset) 25 1 != 0) = false by decide
  rw [hstill] at hexec
  have hout : ∀ u, exec (.detach 0 0x1020 0 0x40000000 []) zeroedListed = .next u →
      Table.get { Eng.reset with stall := true } 0 u.engs ≠ Table.get { Eng.reset with stall := true } 0 (zeroedListed.begin 0).engs := by
    intro u hu
    obtain rfl := Host.Outcome.next.inj hu
    decide
  exact hout e hexec (hengs 0 (by decide) _)

end Sys2Proof.Machine
end

section
/-!
PROOFS. The protection of the force path: clamp, limiter, switches in SAFE, boosters and guards (R93 to R104).
-/

namespace Sys2Proof.Machine

open Sys2Proof

section OtherFields
variable {s : State} {f g : Fld} {i k l : Nat}

theorem State.fld_stick_other (h : Table.rising s.regs = true) (hne : regAddr g.reg k l ≠ regAddr f.reg i 0) :
    (s.stick f i).fld g k l = s.fld g k l := State.fld_wr_other h hne

theorem State.on_tally_other (h : Table.rising s.regs = true) {n : Nat} (hne : regAddr g.reg k l ≠ regAddr f.reg i 0) :
    (s.tally f n i).on g k l = s.on g k l := State.on_wr_other h hne

theorem OnlyChanges.assertSrc {p : List Part} {b e : State} (h : OnlyChanges p b e) (hl : .evm ∈ p) (src : Nat) :
    OnlyChanges p b (e.assertSrc src) := h.evm hl _

end OtherFields

theorem Table.SameBut.fst {α : Type} {i j : Nat} {t u : Table α} (h : Table.SameBut [i] t u) : Table.SameBut [i, j] t u :=
  h.mono fun _ hk => List.mem_cons.2 (.inl (List.mem_singleton.1 hk))

theorem Table.SameBut.snd {α : Type} {i j : Nat} {t u : Table α} (h : Table.SameBut [j] t u) : Table.SameBut [i, j] t u :=
  h.mono fun _ hk => List.mem_cons_of_mem _ hk

theorem State.clearCondition_force {s : State} (code : Nat) (sc : Scope) (slot : Option Nat) : (s.clearCondition code sc slot).force = s.force :=
  (State.keeps_clearCondition (Within.refl _) (Keeps.refl s) code sc slot).force rfl

theorem testBit_setBitN_same (x k : Nat) : (setBitN x k true).testBit k = true := by
  simp [setBitN]

theorem testBit_setBitN_other {x j k : Nat} (h : j ≠ k) : (setBitN x k true).testBit j = x.testBit j := by
  simp [setBitN, Ne.symm h]

section Protection
variable {s : State} {n : Nat}

/-! ## The deckle clamp (R93, R94) -/

/-- The state in which the clamp of channel `n` has engaged, its engine's latch apart. -/
def State.clamped (s : State) (n : Nat) : State :=
  (((s.setForce n { s.forceOf n with clamped := true }).stick f_CH_FORCE_EVENTS_deckle_hit n).tally f_CH_DECKLE_COUNT_count 1 n).assertSrc (4 * n)

theorem State.clampOn_engages (hc : (s.forceOf n).clamped = false) (hst : (s.forceOf n).st ≠ .detached) :
    s.clampOn n = (s.clamped n).latchHit n := by
  unfold State.clampOn
  exact if_neg (by simp [hc, hst])

theorem State.clampOn_none (h : (s.forceOf n).clamped = true ∨ (s.forceOf n).st = .detached) : s.clampOn n = s := by
  unfold State.clampOn
  exact if_pos h

theorem regAddr_events_ne_count : regAddr .CH_FORCE_EVENTS n 0 ≠ regAddr .CH_DECKLE_COUNT n 0 := by simp [regAddr, regRow]

/-- The sticky bit, the count and the registers of a clamp that engages. -/
theorem State.clamped_regs (h : Table.rising s.regs = true) :
    (s.clamped n).on f_CH_FORCE_EVENTS_deckle_hit n = true ∧
      (s.clamped n).fld f_CH_DECKLE_COUNT_count n = min 0xFFFFFFFF (s.fld f_CH_DECKLE_COUNT_count n + 1) ∧
      Table.SameBut [regAddr .CH_FORCE_EVENTS n 0, regAddr .CH_DECKLE_COUNT n 0] s.regs (s.clamped n).regs := by
  have h1 : Table.rising (s.stick f_CH_FORCE_EVENTS_deckle_hit n).regs = true := State.rising_stick h ..
  refine ⟨?_, ?_, ?_⟩
  · exact (State.on_tally_other h1 regAddr_events_ne_count).trans (State.on_stick h n (by decide) (by decide))
  · exact (State.fld_tally h1 1 n (by decide)).trans
      (congrArg (satAdd _ · 1) (State.fld_stick_other (s := s) h regAddr_events_ne_count.symm))
  · exact (State.sameBut_stick h f_CH_FORCE_EVENTS_deckle_hit n).fst.trans (State.sameBut_tally h1 f_CH_DECKLE_COUNT_count 1 n).snd

/-- A clamp that engages sets the latch of an engine that is not idle, and changes nothing else of the state. -/
theorem State.latchHit_engs (h : Table.rising s.engs = true) : ∃ x, s.latchHit n = { s with engs := x } ∧
    ((s.engOf n).state ≠ .idle → (Table.get Eng.reset n x).latch = true) ∧ Table.SameBut [n] s.engs x := by
  unfold State.latchHit
  dsimp only
  split
  case isTrue hi => exact ⟨_, rfl, fun hn => absurd hi hn, .refl _ _⟩
  case isFalse hi => exact ⟨_, rfl, fun _ => by rw [Table.get_put_same h], .put h _ _ _⟩

theorem State.clampOff_forces {meas : Int} (hc : (s.forceOf n).clamped = true) :
    s.clampOff n meas =
      (s.setForce n { s.forceOf n with
        clamped := false, clampEnd := s.now, present := if (s.forceOf n).st = .safe then (s.forceOf n).present else clampCode meas,
        dac := clampCode ((if (s.forceOf n).st = .safe then (s.forceOf n).present else clampCode meas) + (s.forceOf n).corr) }).stick
        f_CH_FORCE_EVENTS_clamp_release n := by
  unfold State.clampOff
  exact if_neg (by simp [hc])

/-! ## The limiter, the switch in SAFE, boosters and guards (R95, R97, R102, R104) -/

/-- The state in which the limiter of channel `n` is reported. -/
def State.shorted (s : State) (n : Nat) : State :=
  ((s.setForce n { s.forceOf n with short := true }).stick f_CH_FORCE_EVENTS_short n).assertSrc (2048 + 8 * (n / 64) + 3)

theorem State.shortOn_reports (h : (s.forceOf n).short = false) (hst : (s.forceOf n).st ≠ .detached) :
    s.shortOn n = (s.shorted n).fault 0x100 2 (.channel n) (0x1108 + n / 64) := by
  unfold State.shortOn
  exact if_neg (by simp [h, hst])

theorem State.shortOff_clears (h : (s.forceOf n).short = true) :
    s.shortOff n = (s.setForce n { s.forceOf n with short := false }).clearCondition 0x100 (.channel n) none := by
  unfold State.shortOff
  exact if_pos h

theorem State.openSafe_opens {w : Bool} (hst : (s.forceOf n).st = .safe) (ho : (s.forceOf n).openWanted = true)
    (hw : w = true ∨ (s.forceOf n).safeAt + 10 * 256000000 ≤ s.now) :
    s.openSafe n w = s.setForce n { s.forceOf n with closed := false, openWanted := false } := by
  unfold State.openSafe
  exact if_pos ⟨hst, ho, hw⟩

/-- The booster condition of a channel that forces through the port. -/
theorem State.boostFault_bound {b code : Nat} (hb : s.boundChan b = some n) (hr : (s.forceOf n).range = 6)
    (hst : (s.forceOf n).st ≠ .detached) (hc : code = 0x101 → (s.forceOf n).clamped = false) :
    s.boostFault b code =
      ((s.stick f_CH_FORCE_EVENTS_booster_fault n).assertSrc (srcTile (b / 2) (b % 2))).fault code 3 (.channel n) (0x1108 + n / 64) := by
  unfold State.boostFault
  rw [hb]
  exact if_neg (by simpa [hr, hst] using hc)

theorem State.guardOver_drives {k : Nat} (h : s.domainOn (5 * (k / 8) + 4) = true) :
    s.guardOver k = (({ s with guards := setBitN s.guards k true }).assertSrc (srcTile (k / 8) 2)).fault 0x103 3 (.octet k) (0x1108 + k / 8) := by
  unfold State.guardOver
  exact if_neg (by simp [h])

end Protection

/-- Settles O21. -/
theorem protectionOfTheForcePath : Obligations.ProtectionOfTheForcePath := by
  intro s t n hcan hpow hn
  obtain ⟨b, hb⟩ : ∃ b, s.begin t = b := ⟨_, rfl⟩
  have hregs : Table.rising b.regs = true := hb ▸ hcan.begin_regs_rising t
  have hforce : Table.rising b.force = true := hb ▸ (State.canonical_begin hcan t).fine.force
  have hengs : Table.rising b.engs = true := hb ▸ (State.canonical_begin hcan t).fine.engs
  rw [hb]
  have hok : isChan n = true := by simpa [isChan] using hn
  refine ⟨fun hc hst => ?_, fun meas hc hst => ?_, fun meas hc hst => ?_, fun h => ?_, fun hs hst => ?_, fun hs => ?_,
    fun w hst ho hw => ?_, fun p n' hp hbound hr hst => ⟨fun hc => ?_, ?_⟩, fun k hk hon => ?_⟩
  · obtain ⟨x, hx, hlatch, hsame⟩ := State.latchHit_engs (s := b.clamped n) (n := n) hengs
    obtain ⟨h1, h2, h3⟩ := b.clamped_regs (n := n) hregs
    refine .runs hb hpow rfl hok ((State.clampOn_engages hc hst).trans hx) ?_
      ⟨State.forceOf_setForce_same hforce, State.sameBut_setForce hforce _, h1, h2, rfl, hlatch, hsame, h3⟩
    exact (((((OnlyChanges.refl _ _).force (by decide) _).stick (by decide) _ _).tally (by decide) _ _ _).assertSrc (by decide) _).engs
      (by decide) _
  · have hoff := State.clampOff_forces (meas := meas) hc
    rw [if_neg hst] at hoff
    exact .runs hb hpow rfl hok hoff (((OnlyChanges.refl _ _).force (by decide) _).stick (by decide) _ _)
      ⟨State.forceOf_setForce_same hforce, State.sameBut_setForce hforce _, State.on_stick (s := b.setForce n _) hregs n (by decide) (by decide),
        State.sameBut_stick (s := b.setForce n _) hregs f_CH_FORCE_EVENTS_clamp_release n⟩
  · have hoff := State.clampOff_forces (meas := meas) hc
    rw [if_pos hst] at hoff
    have hforceOf : ∀ x, ((b.setForce n x).stick f_CH_FORCE_EVENTS_clamp_release n).forceOf n = x := fun x =>
      State.forceOf_setForce_same (s := b) hforce
    refine .runs hb hpow rfl hok hoff (((OnlyChanges.refl _ _).force (by decide) _).stick (by decide) _ _) ?_
    rw [hforceOf]
    exact ⟨rfl, rfl, rfl, State.sameBut_setForce hforce _, State.on_stick (s := b.setForce n _) hregs n (by decide) (by decide),
      State.sameBut_stick (s := b.setForce n _) hregs f_CH_FORCE_EVENTS_clamp_release n⟩
  · exact .runs hb hpow rfl hok (State.clampOn_none h) (OnlyChanges.refl _ _) trivial
  · have hx : OnlyChanges [.force, .regs, .evm] b (b.shorted n) :=
      (((OnlyChanges.refl _ _).force (by decide) _).stick (by decide) _ _).assertSrc (by decide) _
    exact .runs hb hpow rfl hok (State.shortOn_reports hs hst) ((hx.mono (by decide)).fault rfl ..)
      ⟨_, rfl, State.forceOf_setForce_same hforce,
        State.on_stick (s := b.setForce n { b.forceOf n with short := true }) hregs n (by decide) (by decide), rfl, hx⟩
  · refine .runs hb hpow rfl hok (State.shortOff_clears hs)
      (((OnlyChanges.refl _ _).force (by decide) _).then (State.keeps_clearCondition (Within.refl _) (Keeps.refl _) _ _ _) rfl) ?_
    unfold State.forceOf
    rw [State.clearCondition_force]
    exact ⟨State.forceOf_setForce_same hforce, State.sameBut_setForce hforce _⟩
  · exact .runs hb hpow rfl hok (State.openSafe_opens hst ho hw) ((OnlyChanges.refl _ _).force (by decide) _)
      ⟨State.forceOf_setForce_same hforce, State.sameBut_setForce hforce _⟩
  · have hx : ∀ src, OnlyChanges [.regs, .evm] b ((b.stick f_CH_FORCE_EVENTS_booster_fault n').assertSrc src) := fun src =>
      ((OnlyChanges.refl _ _).stick (by decide) _ _).assertSrc (by decide) _
    exact .runs hb hpow rfl (by simpa [isBooster] using hp) (State.boostFault_bound hbound hr hst fun _ => hc)
      (((hx _).mono (by decide)).fault rfl ..) ⟨_, rfl, State.on_stick (s := b) hregs n' (by decide) (by decide), hx _⟩
  · have hx : ∀ src, OnlyChanges [.regs, .evm] b ((b.stick f_CH_FORCE_EVENTS_booster_fault n').assertSrc src) := fun src =>
      ((OnlyChanges.refl _ _).stick (by decide) _ _).assertSrc (by decide) _
    exact .runs hb hpow rfl (by simpa [isBooster] using hp) (State.boostFault_bound hbound hr hst fun h => absurd h (by decide))
      (((hx _).mono (by decide)).fault rfl ..) ⟨_, rfl, State.on_stick (s := b) hregs n' (by decide) (by decide), hx _⟩
  · have hx : OnlyChanges [.guards, .evm] b (({ b with guards := setBitN b.guards k true }).assertSrc (srcTile (k / 8) 2)) :=
      ((OnlyChanges.refl _ _).guards (by decide) _).assertSrc (by decide) _
    refine .runs hb hpow rfl (by simpa [isOctet] using hk) (State.guardOver_drives hon) ((hx.mono (by decide)).fault rfl ..) ⟨?_, ?_, _, rfl, hx⟩
    · rw [State.fault_guards]
      exact testBit_setBitN_same ..
    · intro j hj
      rw [State.fault_guards]
      exact testBit_setBitN_other hj

end Sys2Proof.Machine
end

section
/-!
PROOFS. ADC cells, low power and the range hold (R107 to R110, R131).
-/

namespace Sys2Proof.Machine

open Sys2Proof

section Stores
variable {s : State} {i : Nat}

theorem State.sameBut_setSlice (h : Table.rising s.cal.slices = true) (y : Slice) :
    Table.SameBut [i] s.cal.slices (s.setSlice i y).cal.slices := Table.SameBut.put h _ _ _

end Stores

section Cells
variable {s : State} {i n : Nat}

/-- The rotation that comes after `k` periods of 12.8 ms (R107). -/
theorem State.rotate_after {k : Nat} (hon : s.domainOn (sliceDomain i) = true) (hk : 0 < k) (hlo : (s.sliceOf i).rotAt + k * us 12800 ≤ s.now)
    (hhi : s.now < (s.sliceOf i).rotAt + (k + 1) * us 12800) :
    ∃ lp, (∀ c, s.sliceChannel i = some c → lp = (s.seqOf c).lp) ∧ (s.sliceChannel i = none → lp = false) ∧
      s.rotate i = s.setSlice i { (s.sliceOf i).rotated lp k with rotAt := (s.sliceOf i).rotAt + k * us 12800 } := by
  have hdiv : (s.now - (s.sliceOf i).rotAt) / us 12800 = k := Nat.div_eq_of_lt_le (by omega) (by omega)
  refine ⟨match s.sliceChannel i with | some n => (s.seqOf n).lp | none => false, ?_, ?_, ?_⟩
  · intro c hc
    rw [hc]
  · intro hc
    rw [hc]
  · simp only [State.rotate, hdiv, hon]
    rw [if_neg (by simpa using Nat.pos_iff_ne_zero.1 hk)] <;> rfl

theorem State.rotate_early (h : s.now < (s.sliceOf i).rotAt + us 12800) : s.rotate i = s := by
  have hdiv : (s.now - (s.sliceOf i).rotAt) / us 12800 = 0 :=
    Nat.div_eq_of_lt (by have : 0 < us 12800 := by decide
                         omega)
  simp [State.rotate, hdiv]

theorem Slice.rotated_normal {y : Slice} {lp : Bool} {k : Nat} (h : y.failed ≠ 0 ∨ lp = false) :
    y.rotated lp k = { y with cell := if y.failed = 0 then (y.cell + k) % 5 else y.cell, lpCell := if y.failed = 0 then none else y.lpCell } := by
  unfold Slice.rotated
  by_cases hf : y.failed = 0
  · simp [hf, h.resolve_left (not_not.2 hf)]
  · simp [hf]

theorem Slice.rotated_lowPower {y : Slice} {a k : Nat} (hf : y.failed = 0) (ha : y.lpCell = some a) :
    y.rotated true k = { y with cell := if k % 2 = 0 then y.cell else a, lpCell := some (if k % 2 = 0 then a else y.cell) } := by
  unfold Slice.rotated
  by_cases hk : k % 2 = 0 <;> simp [hf, ha, hk]

/-- A cell that fails is counted, and is a fault of the channel that its slice serves (R108). -/
theorem State.cellFails_fault {c : Nat} (hs : Table.rising s.cal.slices = true) (hon : s.domainOn (sliceDomain i) = true)
    (hf : (s.sliceOf i).failed < 5) (hc : s.sliceChannel i = some c) :
    s.cellFails i = (s.setSlice i { s.sliceOf i with failed := (s.sliceOf i).failed + 1 }).fault 0x200
      (if (s.sliceOf i).failed = 0 then 2 else 3) (.channel c) (0x1108 + c / 64) := by
  have hchan : (s.setSlice i { s.sliceOf i with failed := (s.sliceOf i).failed + 1 }).sliceChannel i = some c := by
    rw [← hc]
    unfold State.sliceChannel
    rw [State.sliceOf_setSlice_same hs]
    rfl
  unfold State.cellFails
  rw [if_neg (by simp [hon, hf])]
  dsimp only
  rw [hchan]

end Cells

section LowPower
variable {s : State} {n u : Nat}

theorem slotLen_pos (lp : Bool) : 0 < slotLen lp := by cases lp <;> decide

/-- The next slot boundary is the first one at or after an instant (R111). -/
theorem Seqr.nextSlot_bounds (q : Seqr) (u : Nat) : u ≤ q.nextSlot u ∧ q.nextSlot u < u + slotLen q.lp := by
  have hpos : (0 : Int) < slotLen q.lp := by exact_mod_cast slotLen_pos q.lp
  have hlt := Int.emod_lt_of_pos ((q.grid : Int) - u) hpos
  have hge := Int.emod_nonneg ((q.grid : Int) - u) (ne_of_gt hpos)
  unfold Seqr.nextSlot
  omega

/-- The sequencer in the mode asked for, at the end of a switch (R110). -/
def State.switched (s : State) (n : Nat) : Seqr :=
  { s.seqOf n with lpUntil := none, lp := s.on f_CH_MEAS_CTL_low_power n, prev := none, profile := s.fld f_CH_MEAS_CTL_profile n }

theorem State.switchEnds_early (hu : (s.seqOf n).lpUntil = some u) (h : s.now < u) : s.switchEnds n = s := by
  simp only [State.switchEnds, hu, h, if_true]

theorem State.switchEnds_stopped (hu : (s.seqOf n).lpUntil = some u) (h : u ≤ s.now) (hr : (s.seqOf n).running = false) :
    s.switchEnds n = s.setSeq n (s.switched n) := by
  unfold State.switchEnds
  simp only [hu]
  rw [if_neg (Nat.not_lt.2 h), if_neg (by simp [hr])]
  rfl

theorem State.switchEnds_running (hu : (s.seqOf n).lpUntil = some u) (h : u ≤ s.now) (hr : (s.seqOf n).running = true) :
    s.switchEnds n = (s.setSeq n (s.switched n)).startAtSlot n u := by
  unfold State.switchEnds
  simp only [hu]
  rw [if_neg (Nat.not_lt.2 h), if_pos (by simp [hr])]
  rfl

/-- A sequence that begins has entry 0 of the profile then chosen in progress. -/
theorem State.beginZero_seq (h : Table.rising s.seqs = true) (n v : Nat) :
    ∃ q, s.beginZero n v = s.setSeq n q ∧ q.startAt = none ∧ q.entry = 0 ∧ q.start = v ∧ q.profile = s.fld f_CH_MEAS_CTL_profile n ∧
      q.word = s.rd .CH_MEAS_SEQ n (q.profile * 16) ∧ q.lpUntil = (s.seqOf n).lpUntil ∧ q.lp = (s.seqOf n).lp ∧
      q.running = (s.seqOf n).running ∧ q.grid = (s.seqOf n).grid := by
  unfold State.beginZero State.beginEntry
  rw [State.seqOf_setSeq_same h]
  exact ⟨_, State.setSeq_setSeq h _ _, rfl, rfl, rfl, rfl, rfl, rfl, rfl, rfl, rfl⟩

/-- The sequence starts at its slot, at once where that has come (R111). -/
theorem State.startAtSlot_seq (h : Table.rising s.seqs = true) (n u : Nat) :
    ∃ q w, s.startAtSlot n u = s.setSeq n q ∧ u ≤ w ∧ w < u + slotLen (s.seqOf n).lp ∧
      (w ≤ s.now → q.startAt = none ∧ q.entry = 0 ∧ q.start = w ∧ q.word = s.rd .CH_MEAS_SEQ n (q.profile * 16) ∧
        q.profile = s.fld f_CH_MEAS_CTL_profile n) ∧
      (s.now < w → q.startAt = some w ∧ q.apEnd = 0 ∧ q.profile = (s.seqOf n).profile) ∧ q.lpUntil = (s.seqOf n).lpUntil ∧
      q.lp = (s.seqOf n).lp ∧ q.running = (s.seqOf n).running ∧ q.grid = (s.seqOf n).grid := by
  obtain ⟨hlo, hhi⟩ := (s.seqOf n).nextSlot_bounds u
  by_cases hw : (s.seqOf n).nextSlot u ≤ s.now
  · obtain ⟨q, hq, h1, h2, h3, h4, h5, h6, h7, h8, h9⟩ := State.beginZero_seq h n ((s.seqOf n).nextSlot u)
    exact ⟨q, _, (if_pos hw).trans hq, hlo, hhi, fun _ => ⟨h1, h2, h3, h5, h4⟩, fun hlt => absurd hw (Nat.not_le.2 hlt), h6, h7, h8, h9⟩
  · exact ⟨_, _, if_neg hw, hlo, hhi, fun hle => absurd hle hw, fun _ => ⟨rfl, rfl, rfl⟩, rfl, rfl, rfl, rfl⟩

/-! ## The range hold (R131) -/

theorem State.holdRange_holds (ha : s.autorange n = true) (hr : (s.forceOf n).range < s.topOf n) :
    s.holdRange n = (s.setSeq n { s.seqOf n with rangeHold := true }).stick f_CH_MEAS_EVENTS_range_hold n := if_pos ⟨ha, hr⟩

theorem State.holdRange_none (h : s.autorange n = false ∨ s.topOf n ≤ (s.forceOf n).range) : s.holdRange n = s :=
  if_neg fun hh => h.elim (fun ha => by simp [ha] at hh) fun hr => absurd hh.2 (Nat.not_lt.2 hr)

end LowPower

/-- Settles O22. -/
theorem cellsAndLowPower : Obligations.CellsAndLowPower := by
  intro s t i n hcan hpow hi hn
  obtain ⟨b, hb⟩ : ∃ b, s.begin t = b := ⟨_, rfl⟩
  have hregs : Table.rising b.regs = true := hb ▸ hcan.begin_regs_rising t
  have hslices : Table.rising b.cal.slices = true := hb ▸ (State.canonical_begin hcan t).fine.slices
  have hseqs : Table.rising b.seqs = true := hb ▸ (State.canonical_begin hcan t).fine.seqs
  rw [hb]
  have hchan : isChan n = true := by simpa [isChan] using hn
  have hslice : isSlice i = true := by simpa [isSlice] using hi
  have hcal : ∀ y, OnlyChanges [.cal] b (b.setSlice i y) := fun y => (OnlyChanges.refl _ _).cal (by decide) _
  refine ⟨fun k hon hk hlo hhi hf => ?_, fun k c a hon hk hlo hhi hf hc hlp ha => ?_, fun h => ?_, fun c hon hf hc => ?_, fun u hu hnow => ?_,
    fun u hu hnow => ?_, fun ha hr => ?_, fun h => ?_⟩
  · obtain ⟨lp, hsome, hnone, hrot⟩ := State.rotate_after hon hk hlo hhi
    have hnormal : (b.sliceOf i).failed ≠ 0 ∨ lp = false := by
      refine hf.imp_right fun hall => ?_
      cases hc : b.sliceChannel i with
      | none => exact hnone hc
      | some c => exact (hsome c hc).trans (hall c hc)
    rw [Slice.rotated_normal hnormal] at hrot
    exact .runs hb hpow rfl hslice hrot (hcal _) ⟨State.sliceOf_setSlice_same hslices, State.sameBut_setSlice hslices _, rfl⟩
  · obtain ⟨lp, hsome, -, hrot⟩ := State.rotate_after hon hk hlo hhi
    rw [(hsome c hc).trans hlp, Slice.rotated_lowPower hf ha] at hrot
    exact .runs hb hpow rfl hslice hrot (hcal _) ⟨State.sliceOf_setSlice_same hslices, State.sameBut_setSlice hslices _, rfl⟩
  · exact .runs hb hpow rfl hslice (State.rotate_early h) (OnlyChanges.refl _ _) trivial
  · exact .runs hb hpow rfl hslice (State.cellFails_fault hslices hon hf hc) (((hcal _).mono (by decide)).fault rfl ..)
      ⟨_, rfl, State.sliceOf_setSlice_same hslices, hcal _, State.sameBut_setSlice hslices _⟩
  · have hset : ∀ q, OnlyChanges [.seqs] b (b.setSeq n q) := fun q => (OnlyChanges.refl _ _).seqs (by decide) _
    cases hr : (b.seqOf n).running with
    | false =>
      refine .runs hb hpow rfl hchan (State.switchEnds_stopped hu hnow hr) (hset _) ?_
      dsimp only
      rw [State.seqOf_setSeq_same hseqs]
      exact ⟨rfl, rfl, rfl, rfl, State.sameBut_setSeq hseqs _, fun h => absurd (hr.symm.trans h) (by decide)⟩
    | true =>
      obtain ⟨q, w, hq, hlo, hhi, hcome, hwait, hu', hlp, hrun, -⟩ :=
        State.startAtSlot_seq (s := b.setSeq n (b.switched n)) (State.rising_setSeq hseqs _) n u
      rw [State.setSeq_setSeq hseqs] at hq
      rw [State.seqOf_setSeq_same hseqs] at hhi hwait hu' hlp hrun
      refine .runs hb hpow rfl hchan ((State.switchEnds_running hu hnow hr).trans hq) (hset _) ?_
      dsimp only
      rw [State.seqOf_setSeq_same hseqs]
      have hlen : slotLen (b.switched n).lp = if q.lp then 256000 else 64000 := by rw [hlp]; rfl
      refine ⟨hu', hlp, ?_, hrun, State.sameBut_setSeq hseqs _, fun _ => ⟨w, hlo, hlen ▸ hhi, fun hle => ?_, fun hlt => ?_⟩⟩
      · by_cases hle : w ≤ b.now
        · exact (hcome hle).2.2.2.2
        · exact (hwait (Nat.not_le.1 hle)).2.2
      · obtain ⟨h1, h2, h3, h4, -⟩ := hcome hle
        exact ⟨h1, h2, h3, h4⟩
      · obtain ⟨h1, h2, -⟩ := hwait hlt
        exact ⟨h1, h2⟩
  · exact .runs hb hpow rfl hchan (State.switchEnds_early hu hnow) (OnlyChanges.refl _ _) trivial
  · exact .runs hb hpow rfl hchan (State.holdRange_holds ha hr) (((OnlyChanges.refl _ _).seqs (by decide) _).stick (by decide) _ _)
      ⟨State.seqOf_setSeq_same hseqs, State.sameBut_setSeq hseqs _, State.on_stick (s := b.setSeq n _) hregs n (by decide) (by decide),
        State.sameBut_stick (s := b.setSeq n _) hregs f_CH_MEAS_EVENTS_range_hold n⟩
  · exact .runs hb hpow rfl hchan (State.holdRange_none h) (OnlyChanges.refl _ _) trivial

end Sys2Proof.Machine
end

section
/-!
PROOFS. A write that agrees with the stored word where a refusal would hold bits back (R7, R397).
-/

namespace Sys2Proof.Machine

open Sys2Proof

section Agreed
variable {s : State} {m i j : Nat} {r : Reg} {v : Word} {codes : Option (List Int)} {bad : Bool}

/-- Bits held back make no difference where the word written agrees with the stored one on them. -/
theorem stored_agreed {old v keep : Word} (h : ∀ k, keep.getLsbD k = true → old.getLsbD k = v.getLsbD k) :
    stored r old v keep = stored r old v 0 := by
  refine BitVec.eq_of_getLsbD_eq fun k hk => ?_
  unfold stored
  simp only [BitVec.getLsbD_and, BitVec.getLsbD_or, BitVec.getLsbD_not, BitVec.getLsbD_ofNat, hk, decide_true, Bool.true_and, Nat.zero_testBit,
    Bool.not_false, Bool.and_true, BitVec.ofNat_eq_ofNat]
  cases hkeep : keep.getLsbD k with
  | false => simp
  | true => cases (rwMask r).getLsbD k <;> simp [h k hkeep]

theorem getLsbD_foldl_or {α : Type} (g : α → Word) (k : Nat) : ∀ (l : List α) (w : Word),
    (l.foldl (fun a f => a ||| g f) w).getLsbD k = true → w.getLsbD k = true ∨ ∃ f ∈ l, (g f).getLsbD k = true
  | [], w, h => .inl h
  | f :: l, w, h => by
    rcases getLsbD_foldl_or g k l _ h with h | ⟨x, hx, h⟩
    · rw [BitVec.getLsbD_or, Bool.or_eq_true] at h
      exact h.imp_right fun h => ⟨f, List.mem_cons_self .., h⟩
    · exact .inr ⟨x, List.mem_cons_of_mem _ hx, h⟩

/-- A write takes effect as a whole where every field that is refused would keep its value anyway. -/
theorem State.writePlain_agreed (hwm : r ≠ .QUE_FELT_WM_STATUS) (hrwi : differs (s.rd r i j) v (rwiMask r) = false)
    (hbar : s.barred m r i v (s.rd r i j) = none)
    (href : ∀ f ∈ s.refusals r i v, ∀ k, f.1.getLsbD k = true → (s.rd r i j).getLsbD k = v.getLsbD k) :
    s.writePlain m r i j v codes bad =
      ((s.wr r (stored r (s.rd r i j) v 0) i j).changed r i j codes (s.rd r i j)).acted m r i v codes bad := by
  have hfilter : ((s.refusals r i v).filter fun f => differs (s.rd r i j) v (f.1 &&& rwMask r)) = [] := by
    refine List.filter_eq_nil_iff.2 fun f hf => ?_
    have hagree : differs (s.rd r i j) v (f.1 &&& rwMask r) = false := differs_eq_false fun k hk => by
      rw [BitVec.getLsbD_and, Bool.and_eq_true] at hk
      exact href f hf k hk.1
    simp [hagree]
  have hstored : stored r (s.rd r i j) v ((s.refusals r i v).foldl (fun k f => k ||| f.1) 0) = stored r (s.rd r i j) v 0 := by
    refine stored_agreed fun k hk => ?_
    rcases getLsbD_foldl_or (fun f : Word × Nat × Scope => f.1) k (s.refusals r i v) 0 hk with h | ⟨f, hf, h⟩
    · simp at h
    · exact href f hf k h
  unfold State.writePlain
  dsimp only
  rw [if_neg hwm, hrwi, if_neg Bool.false_ne_true, hbar]
  dsimp only
  rw [hfilter, hstored]
  rfl

end Agreed

end Sys2Proof.Machine
end

section
/-!
PROOFS. The settings of the measure sequencer: run, autorange and the entry words (R111, R130, R134, R138).
-/

namespace Sys2Proof.Machine

open Sys2Proof

section Words
variable {r : Reg} {old v w : Word} {lo len : Nat}

theorem bits_congr (h : ∀ i < len, v.getLsbD (lo + i) = w.getLsbD (lo + i)) : bits v lo len = bits w lo len := by
  apply Nat.eq_of_testBit_eq
  intro i
  rw [bits_testBit, bits_testBit]
  by_cases hi : i < len
  · simp [hi, h i hi]
  · simp [hi]

/-- A word that changes no bit but RW ones is stored as it is. -/
theorem stored_eq (h1c : w1cMask r = 0) (h : ∀ i, (rwMask r).getLsbD i = false → v.getLsbD i = old.getLsbD i) : stored r old v 0 = v := by
  refine BitVec.eq_of_getLsbD_eq fun i _ => ?_
  rw [stored_getLsbD, h1c]
  cases hm : (rwMask r).getLsbD i with
  | false => simp [h i hm]
  | true => simp

theorem and_ones (w : Word) : w &&& 4294967295#32 = w := by
  rw [show (4294967295#32 : Word) = BitVec.allOnes 32 from by decide, BitVec.and_allOnes]

theorem getLsbD_or_twoPow (old : Word) {k i : Nat} (hi : i ≠ k) : (old ||| BitVec.twoPow 32 k).getLsbD i = old.getLsbD i := by
  simp [BitVec.getLsbD_twoPow, Ne.symm hi]

theorem getLsbD_and_not_twoPow (old : Word) {k i : Nat} (hi : i ≠ k) : (old &&& ~~~ BitVec.twoPow 32 k).getLsbD i = old.getLsbD i := by
  by_cases h : i < 32
  · simp only [BitVec.getLsbD_and, BitVec.getLsbD_not, BitVec.getLsbD_twoPow, h]
    simp [Ne.symm hi]
  · simp [BitVec.getLsbD_of_ge old i (by omega)]

end Words

section MeasCtl
variable {s : State} {m n : Nat} {v : Word} {codes : Option (List Int)}

/-- A write to CH_MEAS_CTL that changes one bit, other than those of the policy. -/
theorem State.regWrite_measCtl {k : Nat} (hsh : s.shielded (regAddr .CH_MEAS_CTL n 0) = 0) (hrw : (rwMask .CH_MEAS_CTL).getLsbD k = true)
    (hk : k ≠ 26 ∧ k ≠ 27)
    (hv : ∀ i, i ≠ k → v.getLsbD i = (s.rd .CH_MEAS_CTL n).getLsbD i) :
    s.regWrite m .CH_MEAS_CTL n 0 v codes false = (s.wr .CH_MEAS_CTL v n).changed .CH_MEAS_CTL n 0 codes (s.rd .CH_MEAS_CTL n) := by
  have hbar : s.barred m .CH_MEAS_CTL n v (s.rd .CH_MEAS_CTL n) = none := by simp [State.barred, regRow]
  have hrwi : differs (s.rd .CH_MEAS_CTL n) v (rwiMask .CH_MEAS_CTL) = false := differs_eq_false fun i hi => by
    rw [show rwiMask .CH_MEAS_CTL = 0 from by decide] at hi
    simp at hi
  have href : ∀ f ∈ s.refusals .CH_MEAS_CTL n v, ∀ i, f.1.getLsbD i = true → (s.rd .CH_MEAS_CTL n).getLsbD i = v.getLsbD i := by
    intro f hf i hi
    refine (hv i fun hik => ?_).symm
    obtain rfl : f = (if decide (bits v 26 2 = 3) then maskOf 26 2 else 0, 0x004, .none) := List.mem_singleton.1 hf
    have hmask : (maskOf 26 2).getLsbD i = true := by
      by_cases h3 : bits v 26 2 = 3
      · simpa [h3] using hi
      · simp [h3] at hi
    have h32 : i < 32 := BitVec.lt_of_getLsbD hmask
    have : ∀ i : Nat, i < 32 → (maskOf 26 2).getLsbD i = true → i = 26 ∨ i = 27 := by decide
    rcases this i h32 hmask with h | h
    · exact hk.1 (hik.symm.trans h)
    · exact hk.2 (hik.symm.trans h)
  have hstored : stored .CH_MEAS_CTL (s.rd .CH_MEAS_CTL n) v 0 = v := stored_eq (by decide) fun i hi => hv i fun hik => by
    rw [hik, hrw] at hi
    cases hi
  rw [State.regWrite_plain (by decide) hsh, State.writePlain_agreed (by decide) hrwi hbar href, hstored]
  rfl

/-- What follows where CH_MEAS_CTL has changed in one bit (R110, R111, R130, R134). -/
theorem State.changed_measCtl {k : Nat} (h : Table.rising s.regs = true) (hbit : bit v k ≠ bit (s.rd .CH_MEAS_CTL n) k) :
    (s.wr .CH_MEAS_CTL v n).changed .CH_MEAS_CTL n 0 codes (s.rd .CH_MEAS_CTL n) =
      (s.wr .CH_MEAS_CTL v n).measCtlChanged n codes (s.rd .CH_MEAS_CTL n) := by
  have hne : v ≠ s.rd .CH_MEAS_CTL n := fun h => hbit (by rw [h])
  have hrd : (s.wr .CH_MEAS_CTL v n).rd .CH_MEAS_CTL n = v := State.rd_wr_same h ..
  unfold State.changed
  rw [hrd]
  exact if_neg hne

theorem State.measCtlChanged_runSet {old : Word} (hnew : s.rd .CH_MEAS_CTL n = v) (h31 : bit v 31 = true) (h31' : bit old 31 = false)
    (h25 : bit v 25 = bit old 25) (h30 : bit v 30 = bit old 30) (hp : s.chanPowered n = true) :
    s.measCtlChanged n codes old = s.startSeq n := by
  unfold State.measCtlChanged
  rw [hnew]
  simp [h31, h31', h25, h30, hp]

theorem State.measCtlChanged_runClear {old : Word} {l : List Int} (hnew : s.rd .CH_MEAS_CTL n = v) (h31 : bit v 31 = false)
    (h31' : bit old 31 = true) (h25 : bit v 25 = bit old 25) (h30 : bit v 30 = bit old 30) :
    s.measCtlChanged n (some l) old = (s.cutShort n l).stopSeq n := by
  unfold State.measCtlChanged
  rw [hnew]
  simp [h31, h31', h25, h30, State.cutCodes]

theorem State.measCtlChanged_autorangeClear {old : Word} (hnew : s.rd .CH_MEAS_CTL n = v) (h25 : bit v 25 = false) (h25' : bit old 25 = true)
    (h31 : bit v 31 = bit old 31) (h30 : bit v 30 = bit old 30) :
    s.measCtlChanged n codes old = s.autorangeCleared n old := by
  unfold State.measCtlChanged
  rw [hnew]
  simp only [h25, h25', h31, h30]
  cases bit old 31 <;> simp

/-! ## run (R111, R130) -/

theorem State.startSeq_slot (h : (s.seqOf n).lpUntil = none) :
    s.startSeq n = (s.setSeq n { s.seqOf n with
      running := true, prev := none, profile := s.fld f_CH_MEAS_CTL_profile n, anchored := false, cut := false }).startAtSlot n s.now := by
  unfold State.startSeq
  exact if_neg (by simp [h])

/-- The record of a sequencer that stops. -/
def Seqr.stopped (q : Seqr) : Seqr := { q with running := false, apEnd := 0, startAt := none, pend := none, anchored := false, cut := false }

/-- A sequencer stops without a result where no conversion of the entry in progress is complete (R130). -/
theorem State.cutShort_stopSeq {l : List Int} (hq : Table.rising s.seqs = true) (hlp : s.on f_CH_MEAS_CTL_low_power n = (s.seqOf n).lp)
    (h : (s.seqOf n).apEnd = 0 ∨ s.now < (s.seqOf n).apStart + slotLen (s.seqOf n).lp) :
    (s.cutShort n l).stopSeq n = s.setSeq n (s.seqOf n).stopped := by
  by_cases hb : (s.seqOf n).busy
  · have hap : (s.seqOf n).apEnd ≠ 0 := by
      simp only [Seqr.busy, Bool.and_eq_true, decide_eq_true_eq] at hb
      exact hb.2
    have hpos := slotLen_pos (s.seqOf n).lp
    have hzero : (s.now - (s.seqOf n).apStart) / slotLen (s.seqOf n).lp = 0 := Nat.div_eq_of_lt (by have := h.resolve_left hap; omega)
    have hcut : s.cutShort n l = s.setSeq n { s.seqOf n with apEnd := 0 } := by
      simp [State.cutShort, hb, State.takenCount, hzero]
    have hon : (s.setSeq n { s.seqOf n with apEnd := 0 }).on f_CH_MEAS_CTL_low_power n = (s.seqOf n).lp := hlp
    rw [hcut]
    unfold State.stopSeq
    rw [State.seqOf_setSeq_same hq]
    dsimp only
    rw [if_neg (by simp [hon]), State.setSeq_setSeq hq]
    rfl
  · have hcut : s.cutShort n l = s := by simp [State.cutShort, hb]
    rw [hcut]
    unfold State.stopSeq
    dsimp only
    rw [if_neg (by simp [hlp])]
    rfl

/-! ## autorange (R131, R134) -/

theorem regAddr_bind_ne_meas (j : Nat) (hj : j < 2) : regAddr .TILE_BST_BIND (n / 64) j ≠ regAddr .CH_MEAS_CTL n 0 := by
  simp [regAddr, regRow, blkBase]
  omega

theorem State.boosterBound_wr (h : Table.rising s.regs = true) (w : Word) :
    (s.wr .CH_MEAS_CTL w n).boosterBound n = s.boosterBound n := by
  have hon : ∀ j, j < 2 → (s.wr .CH_MEAS_CTL w n).on f_TILE_BST_BIND_valid (n / 64) j = s.on f_TILE_BST_BIND_valid (n / 64) j := fun j hj =>
    State.on_wr_other h (regAddr_bind_ne_meas j hj)
  have hfld : ∀ j, j < 2 → (s.wr .CH_MEAS_CTL w n).fld f_TILE_BST_BIND_position (n / 64) j = s.fld f_TILE_BST_BIND_position (n / 64) j :=
    fun j hj => State.fld_wr_other h (regAddr_bind_ne_meas j hj)
  simp only [State.boosterBound, List.any_cons, List.any_nil, hon 0 (by decide), hon 1 (by decide), hfld 0 (by decide), hfld 1 (by decide)]

theorem State.topOf_wr (h : Table.rising s.regs = true) (w : Word) : (s.wr .CH_MEAS_CTL w n).topOf n = s.topOf n := by
  unfold State.topOf
  rw [State.fld_wr_other h (by simp [f_CH_AUTORANGE_max, regAddr, regRow]), State.wr_seqOf]

/-- Autorange that is cleared while it is in effect goes to the ceiling range, the code unchanged (R134). -/
theorem State.autorangeCleared_forcing {old : Word} (h : Table.rising s.regs = true) (hf : Table.rising s.force = true)
    (hold : bit old 25 = true) (hb : s.boosterBound n = false) (hst : (s.forceOf n).st = .forcingV) (hm : (s.forceOf n).mode = false)
    (hs : (s.forceOf n).steps = []) (hr : (s.forceOf n).range ≠ s.topOf n) :
    s.autorangeCleared n old = s.setForce n { s.forceOf n with
      toTop := some (s.topOf n), before := .forcingV, st := .ranging, goal := some false, target := (s.forceOf n).present,
      steps := [.switch (s.forceOf n).range (s.topOf n), .aim (s.forceOf n).target], due := s.now + us 8 } := by
  have hrd : (s.wr .CH_MEAS_CTL old n).rd .CH_MEAS_CTL n = old := State.rd_wr_same h ..
  have hon : (s.wr .CH_MEAS_CTL old n).on f_CH_MEAS_CTL_autorange n = true := by
    rw [State.on_eq_bit _ _ _ rfl]
    exact (congrArg (bit · 25) hrd).trans hold
  have hauto : (s.wr .CH_MEAS_CTL old n).autorange n = true := by
    simp [State.autorange, hon, State.boosterBound_wr h, hb, hst]
  unfold State.autorangeCleared
  rw [Force.view_steps_nil hs]
  dsimp only
  rw [if_neg (by simp [hauto]), if_pos hst, if_neg hr]
  unfold State.stepRange
  rw [State.forceOf_setForce_same hf]
  dsimp only
  rw [State.setForce_setForce hf, if_pos hs]
  simp [Force.rangeChange, hm, hst]

/-! ## Entry words (R114, R138) -/

theorem State.regWrite_entry {k : Nat} (hsh : s.shielded (regAddr .CH_MEAS_SEQ n k) = 0) (hv : mRefused v = false) :
    s.regWrite m .CH_MEAS_SEQ n k v none false =
      (s.wr .CH_MEAS_SEQ (stored .CH_MEAS_SEQ (s.rd .CH_MEAS_SEQ n k) v 0) n k).changed .CH_MEAS_SEQ n k none (s.rd .CH_MEAS_SEQ n k) := by
  have hbar : s.barred m .CH_MEAS_SEQ n v (s.rd .CH_MEAS_SEQ n k) = none := by simp [State.barred, regRow]
  have hrwi : differs (s.rd .CH_MEAS_SEQ n k) v (rwiMask .CH_MEAS_SEQ) = false := differs_eq_false fun i hi => by
    rw [show rwiMask .CH_MEAS_SEQ = 0 from by decide] at hi
    simp at hi
  rw [State.regWrite_plain (by decide) hsh, State.writePlain_taken (by decide) hrwi hbar (by simp [State.refusals, hv])]
  rfl

theorem stored_entry (old v : Word) :
    stored .CH_MEAS_SEQ old v 0 = (old &&& ~~~ rwMask .CH_MEAS_SEQ) ||| (v &&& rwMask .CH_MEAS_SEQ) := by
  unfold stored
  rw [show w1cMask .CH_MEAS_SEQ = 0 from by decide, show rwMask .CH_MEAS_SEQ &&& ~~~ (0 : Word) = rwMask .CH_MEAS_SEQ from by decide]
  simp [and_ones]

/-- An entry word that R138 refuses leaves the entry as it is; the refusal is a fault. -/
theorem State.regWrite_entryRefused {k : Nat} (hsh : s.shielded (regAddr .CH_MEAS_SEQ n k) = 0) (hv : mRefused v = true)
    (hd : (s.rd .CH_MEAS_SEQ n k ^^^ v) &&& rwMask .CH_MEAS_SEQ ≠ 0) :
    s.regWrite m .CH_MEAS_SEQ n k v none false =
      let x := (s.stick f_CH_MEAS_EVENTS_entry_refused n).accessFault 0x201 1 (.channel n) m 2 (regAddr .CH_MEAS_SEQ n k)
      (x.wr .CH_MEAS_SEQ (s.rd .CH_MEAS_SEQ n k) n k).changed .CH_MEAS_SEQ n k none (s.rd .CH_MEAS_SEQ n k) := by
  have hbar : s.barred m .CH_MEAS_SEQ n v (s.rd .CH_MEAS_SEQ n k) = none := by simp [State.barred, regRow]
  have hrwi : differs (s.rd .CH_MEAS_SEQ n k) v (rwiMask .CH_MEAS_SEQ) = false := differs_eq_false fun i hi => by
    rw [show rwiMask .CH_MEAS_SEQ = 0 from by decide] at hi
    simp at hi
  have hkept : stored .CH_MEAS_SEQ (s.rd .CH_MEAS_SEQ n k) v (BitVec.allOnes 32) = s.rd .CH_MEAS_SEQ n k := by
    unfold stored
    rw [show w1cMask .CH_MEAS_SEQ = 0 from by decide, show rwMask .CH_MEAS_SEQ &&& ~~~ BitVec.allOnes 32 = 0 from by decide]
    simp [and_ones]
  have hfs : s.refusals .CH_MEAS_SEQ n v = [(BitVec.allOnes 32, 0x201, .channel n)] := by simp [State.refusals, hv]
  have hdiff : differs (s.rd .CH_MEAS_SEQ n k) v (BitVec.allOnes 32 &&& rwMask .CH_MEAS_SEQ) = true := by
    rw [BitVec.allOnes_and]
    simpa [differs] using hd
  rw [State.regWrite_plain (by decide) hsh]
  unfold State.writePlain
  dsimp only
  rw [if_neg (show Reg.CH_MEAS_SEQ ≠ .QUE_FELT_WM_STATUS by decide), hrwi, if_neg Bool.false_ne_true, hbar]
  dsimp only
  rw [hfs]
  simp only [List.filter_cons, List.filter_nil, hdiff, if_true, List.foldl_cons, List.foldl_nil]
  rw [show (0 : Word) ||| BitVec.allOnes 32 = BitVec.allOnes 32 from by decide, hkept]
  rfl

end MeasCtl

end Sys2Proof.Machine
end

section
/-!
PROOFS. Writes that start and stop the sequencer, clear autorange and set entries, as commands (R111, R130, R134, R138).
-/

namespace Sys2Proof.Machine

open Sys2Proof

section OneBit
variable {s : State} {r : Reg} {n : Nat} {f : Fld} {v : Word}

/-- A flag shows the bit written. -/
theorem State.on_wr_same (h : Table.rising s.regs = true) (hf : f.len = 1) : (s.wr f.reg v n).on f n = bit v f.lo := by
  rw [State.on_eq_bit _ _ _ hf, State.rd_wr_same h]

end OneBit

section Run
variable {s : State} {m n : Nat} {v : Word}

theorem State.seqOf_wr (r : Reg) (w : Word) (i j : Nat) : (s.wr r w i j).seqOf n = s.seqOf n := rfl

/-- A sequence that starts does so at the first slot boundary of its grid, in the profile then chosen (R111). -/
theorem State.startSeq_seq (h : Table.rising s.seqs = true) (hlp : (s.seqOf n).lpUntil = none) :
    ∃ q w, s.startSeq n = s.setSeq n q ∧ s.now ≤ w ∧ w < s.now + slotLen q.lp ∧
      (w = s.now → q.startAt = none ∧ q.entry = 0 ∧ q.start = w ∧ q.word = s.rd .CH_MEAS_SEQ n (q.profile * 16)) ∧
      (s.now < w → q.startAt = some w ∧ q.apEnd = 0) ∧ q.running = true ∧ q.profile = s.fld f_CH_MEAS_CTL_profile n ∧
      q.grid = (s.seqOf n).grid ∧ q.lp = (s.seqOf n).lp := by
  obtain ⟨q0, hq0⟩ : ∃ q0, q0 = { s.seqOf n with
    running := true, prev := none, profile := s.fld f_CH_MEAS_CTL_profile n, anchored := false, cut := false } := ⟨_, rfl⟩
  have hstart : s.startSeq n = (s.setSeq n q0).startAtSlot n s.now := hq0 ▸ State.startSeq_slot hlp
  obtain ⟨q, w, hq, hlo, hhi, hcome, hwait, -, hqlp, hqrun, hqgrid⟩ := State.startAtSlot_seq (s := s.setSeq n q0) (State.rising_setSeq h _) n s.now
  rw [State.setSeq_setSeq h] at hq
  rw [State.seqOf_setSeq_same h] at hhi hwait hqlp hqrun hqgrid
  refine ⟨q, w, hstart.trans hq, hlo, hqlp ▸ hhi, fun hw => ?_, fun hw => ?_, hqrun.trans (by rw [hq0]), ?_, hqgrid.trans (by rw [hq0]),
    hqlp.trans (by rw [hq0])⟩
  · obtain ⟨h1, h2, h3, h4, -⟩ := hcome (le_of_eq hw)
    exact ⟨h1, h2, h3, h4⟩
  · obtain ⟨h1, h2, -⟩ := hwait hw
    exact ⟨h1, h2⟩
  · by_cases hw : w ≤ s.now
    · exact (hcome hw).2.2.2.2
    · exact (hwait (Nat.not_le.1 hw)).2.2.trans (by rw [hq0])

/-- Where an entry word changes, the slice hands back the credits of felts that no entry names any more (R199). -/
theorem State.keeps_changed_entry (s : State) (n k : Nat) (old : Word) : Keeps 1024 s (s.changed .CH_MEAS_SEQ n k none old) := by
  have h : s.changed .CH_MEAS_SEQ n k none old =
      if s.rd .CH_MEAS_SEQ n k = old then s else s.returnUnwritten (s.sliceIdx n) := rfl
  rw [h]
  split
  · exact Keeps.refl s
  · exact State.keeps_returnUnwritten (Within.refl _) (Keeps.refl s) _

end Run

/-- Settles O23. -/
theorem sequencerSettings : Obligations.SequencerSettings := by
  intro s t m n v hcan hpow hn hans
  obtain ⟨b, hb⟩ : ∃ b, s.begin t = b := ⟨_, rfl⟩
  have hcb : b.canonical := hb ▸ State.canonical_begin hcan t
  have hregs : Table.rising b.regs = true := hcb.fine.regs
  have hforce : Table.rising b.force = true := hcb.fine.force
  have hseqs : Table.rising b.seqs = true := hcb.fine.seqs
  rw [hb]
  have hok : isChan n = true := by simpa [isChan] using hn
  have hrd : (b.wr .CH_MEAS_CTL v n).rd .CH_MEAS_CTL n = v := State.rd_wr_same hregs ..
  have hsame : Table.SameBut [regAddr .CH_MEAS_CTL n 0] b.regs (b.wr .CH_MEAS_CTL v n).regs := .put hregs _ _ _
  have hframe : ∀ l : List Part, Part.regs ∈ l → OnlyChanges l b (b.wr .CH_MEAS_CTL v n) := fun l hl => (OnlyChanges.refl _ _).regs hl _
  refine ⟨fun hsh hv hrun hpowered hlp => ?_, fun codes hsh hv hrun hlow hcut => ?_, fun hsh hv hauto hbound hst hmode hsteps hrange => ?_,
    fun p k hp hk hsh => ⟨fun hv => ?_, fun hv hd => ?_⟩⟩
  · have hother : ∀ i, i ≠ 31 → v.getLsbD i = (b.rd .CH_MEAS_CTL n).getLsbD i := fun i hi => by
      rw [hv, show (0x80000000 : Word) = BitVec.twoPow 32 31 from by decide]
      exact getLsbD_or_twoPow _ hi
    have h31 : bit v 31 = true := by
      rw [hv]
      simp [bit]
    have h31' : bit (b.rd .CH_MEAS_CTL n) 31 = false := (State.on_eq_bit f_CH_MEAS_CTL_run n 0 rfl).symm.trans hrun
    have hne : bit v 31 ≠ bit (b.rd .CH_MEAS_CTL n) 31 := by rw [h31, h31']; decide
    have hwrite := (State.regWrite_measCtl (m := m) (codes := none) hsh (by decide) (by decide) hother).trans
      ((State.changed_measCtl hregs hne).trans
        (State.measCtlChanged_runSet hrd h31 h31' (hother 25 (by decide)) (hother 30 (by decide)) hpowered))
    have hprofile : (b.wr .CH_MEAS_CTL v n).fld f_CH_MEAS_CTL_profile n = b.fld f_CH_MEAS_CTL_profile n := by
      show bits ((b.wr .CH_MEAS_CTL v n).rd .CH_MEAS_CTL n) 28 2 = _
      rw [hrd]
      exact bits_congr fun i hi => hother _ (by omega)
    have hword : ∀ k, (b.wr .CH_MEAS_CTL v n).rd .CH_MEAS_SEQ n k = b.rd .CH_MEAS_SEQ n k := fun k =>
      State.rd_wr_other hregs v (by simp [regAddr, regRow]; omega)
    have hon : (b.wr .CH_MEAS_CTL v n).on f_CH_MEAS_CTL_run n = true := (State.on_wr_same (f := f_CH_MEAS_CTL_run) hregs rfl).trans h31
    have hstate : (b.wr .CH_MEAS_CTL v n).seqs = b.seqs ∧ (b.wr .CH_MEAS_CTL v n).now = b.now := ⟨rfl, rfl⟩
    have hrun := hframe [.regs, .seqs, .resp] (by decide)
    obtain ⟨x, hx⟩ : ∃ x, b.wr .CH_MEAS_CTL v n = x := ⟨_, rfl⟩
    rw [hx] at hwrite hprofile hword hon hstate hsame hrun
    obtain ⟨hxseqs, hxnow⟩ := hstate
    have hxseq : x.seqOf n = b.seqOf n := by
      unfold State.seqOf
      rw [hxseqs]
    obtain ⟨q, w, hq, hlo, hhi, hcome, hwait, h1, h2, h3, h4⟩ := State.startSeq_seq (s := x) (hxseqs ▸ hseqs) (hxseq ▸ hlp)
    rw [hxnow] at hlo hhi hcome hwait
    rw [hprofile] at h2
    rw [hxseq] at h3 h4
    have hsq : (x.setSeq n q).seqOf n = q := State.seqOf_setSeq_same (hxseqs ▸ hseqs)
    have hsb : Table.SameBut [n] b.seqs (x.setSeq n q).seqs := hxseqs ▸ State.sameBut_setSeq (hxseqs ▸ hseqs) q
    refine .registerWrite hb hpow hans rfl hok (hwrite.trans hq) (hrun.seqs (by decide) _) (by decide) ?_
    have hP : ∀ y, y = q → (y.running = true ∧ y.profile = b.fld f_CH_MEAS_CTL_profile n ∧ y.grid = (b.seqOf n).grid ∧ y.lp = (b.seqOf n).lp ∧
          (∃ w, b.now ≤ w ∧ w < b.now + (if y.lp then 256000 else 64000) ∧
            (w = b.now → y.startAt = none ∧ y.entry = 0 ∧ y.start = w ∧ y.word = b.rd .CH_MEAS_SEQ n (y.profile * 16)) ∧
            (b.now < w → y.startAt = some w ∧ y.apEnd = 0))) := by
      rintro y rfl
      refine ⟨h1, h2, h3, h4, w, hlo, hhi, fun hw => ?_, hwait⟩
      obtain ⟨g1, g2, g3, g4⟩ := hcome hw
      exact ⟨g1, g2, g3, g4.trans (hword _)⟩
    obtain ⟨g1, g2, g3, g4, g5⟩ := hP _ hsq
    exact ⟨rfl, hon, hsame, g1, g2, g3, g4, g5, hsb⟩
  · have hother : ∀ i, i ≠ 31 → v.getLsbD i = (b.rd .CH_MEAS_CTL n).getLsbD i := fun i hi => by
      rw [hv, show (0x7FFFFFFF : Word) = ~~~ BitVec.twoPow 32 31 from by decide]
      exact getLsbD_and_not_twoPow _ hi
    have h31 : bit v 31 = false := by
      rw [hv]
      simp [bit]
    have h31' : bit (b.rd .CH_MEAS_CTL n) 31 = true := (State.on_eq_bit f_CH_MEAS_CTL_run n 0 rfl).symm.trans hrun
    have hne : bit v 31 ≠ bit (b.rd .CH_MEAS_CTL n) 31 := by rw [h31, h31']; decide
    have hlow' : (b.wr .CH_MEAS_CTL v n).on f_CH_MEAS_CTL_low_power n = (b.seqOf n).lp := by
      rw [← hlow, State.on_eq_bit _ _ _ rfl, State.on_eq_bit _ _ _ rfl]
      exact (congrArg (bit · 30) hrd).trans (hother 30 (by decide))
    have hwrite := (State.regWrite_measCtl (m := m) (codes := some codes) hsh (by decide) (by decide) hother).trans
      ((State.changed_measCtl hregs hne).trans
        ((State.measCtlChanged_runClear hrd h31 h31' (hother 25 (by decide)) (hother 30 (by decide))).trans
          (State.cutShort_stopSeq (s := b.wr .CH_MEAS_CTL v n) hseqs hlow' hcut)))
    exact .registerWrite hb hpow hans rfl hok hwrite ((hframe _ (by decide)).seqs (by decide) _) (by decide)
      ⟨rfl, (State.on_wr_same (f := f_CH_MEAS_CTL_run) hregs rfl).trans h31, hsame,
        State.seqOf_setSeq_same (s := b.wr .CH_MEAS_CTL v n) hseqs, State.sameBut_setSeq (s := b.wr .CH_MEAS_CTL v n) hseqs _⟩
  · have hother : ∀ i, i ≠ 25 → v.getLsbD i = (b.rd .CH_MEAS_CTL n).getLsbD i := fun i hi => by
      rw [hv, show (0xFDFFFFFF : Word) = ~~~ BitVec.twoPow 32 25 from by decide]
      exact getLsbD_and_not_twoPow _ hi
    have h25 : bit v 25 = false := by
      rw [hv]
      simp [bit]
    have h25' : bit (b.rd .CH_MEAS_CTL n) 25 = true := (State.on_eq_bit f_CH_MEAS_CTL_autorange n 0 rfl).symm.trans hauto
    have hne : bit v 25 ≠ bit (b.rd .CH_MEAS_CTL n) 25 := by rw [h25, h25']; decide
    have htop : (b.wr .CH_MEAS_CTL v n).topOf n = b.topOf n := State.topOf_wr hregs v
    have hwrite := (State.regWrite_measCtl (m := m) (codes := none) hsh (by decide) (by decide) hother).trans
      ((State.changed_measCtl hregs hne).trans
        ((State.measCtlChanged_autorangeClear hrd h25 h25' (hother 31 (by decide)) (hother 30 (by decide))).trans
          (State.autorangeCleared_forcing (s := b.wr .CH_MEAS_CTL v n) (State.rising_wr hregs ..) hforce h25'
            ((State.boosterBound_wr hregs v).trans hbound) hst hmode hsteps (htop ▸ hrange))))
    rw [htop] at hwrite
    obtain ⟨x, hx⟩ : ∃ x, x = { b.forceOf n with
      toTop := some (b.topOf n), before := .forcingV, st := .ranging, goal := some false, target := (b.forceOf n).present,
      steps := [.switch (b.forceOf n).range (b.topOf n), .aim (b.forceOf n).target], due := b.now + us 8 } := ⟨_, rfl⟩
    have hwrite' : b.regWrite m .CH_MEAS_CTL n 0 v none false = (b.wr .CH_MEAS_CTL v n).setForce n x := hx ▸ hwrite
    have hfields : x.st = .ranging ∧ x.due = b.now + 8 * 256000 ∧ x.present = (b.forceOf n).present ∧
        x.steps = [.switch (b.forceOf n).range (b.topOf n), .aim (b.forceOf n).target] := by
      rw [hx]
      exact ⟨rfl, rfl, rfl, rfl⟩
    obtain ⟨h1, h2, h3, h4⟩ := hfields
    have hforceOf : ((b.wr .CH_MEAS_CTL v n).setForce n x).forceOf n = x := State.forceOf_setForce_same hforce
    refine .registerWrite hb hpow hans rfl hok hwrite' ((hframe _ (by decide)).force (by decide) _) (by decide)
      ⟨rfl, (State.on_wr_same (f := f_CH_MEAS_CTL_autorange) hregs rfl).trans h25, hsame, ?_, ?_, ?_, ?_,
        State.sameBut_setForce (s := b.wr .CH_MEAS_CTL v n) hforce x⟩
    · exact (congrArg Force.st hforceOf).trans h1
    · exact (congrArg Force.due hforceOf).trans h2
    · exact (congrArg Force.present hforceOf).trans h3
    · exact (congrArg Force.steps hforceOf).trans h4
  · have hkeeps := (b.wr .CH_MEAS_SEQ (stored .CH_MEAS_SEQ (b.rd .CH_MEAS_SEQ n (p * 16 + k)) v 0) n (p * 16 + k)).keeps_changed_entry n
      (p * 16 + k) (b.rd .CH_MEAS_SEQ n (p * 16 + k))
    have hwritten : OnlyChanges [.regs, .que, .resp] b
        (b.wr .CH_MEAS_SEQ (stored .CH_MEAS_SEQ (b.rd .CH_MEAS_SEQ n (p * 16 + k)) v 0) n (p * 16 + k)) :=
      (OnlyChanges.refl _ _).regs (by decide) _
    refine .registerWrite hb hpow hans rfl (by simp [isEntry, hok, hp, hk]) (State.regWrite_entry hsh hv) (hwritten.then hkeeps rfl)
      (by decide) ⟨rfl, ?_, ?_⟩
    · refine Eq.trans ?_ (stored_entry (b.rd .CH_MEAS_SEQ n (p * 16 + k)) v)
      show Table.get _ _ _ = _
      rw [hkeeps.regs rfl]
      exact Table.get_put_same hregs
    · show Table.SameBut _ _ (State.changed _ _ _ _ _ _).regs
      rw [hkeeps.regs rfl]
      exact .put hregs _ _ _
  · have hx : OnlyChanges [.regs] b (b.stick f_CH_MEAS_EVENTS_entry_refused n) := (OnlyChanges.refl _ _).stick (by decide) _ _
    obtain ⟨x, hx'⟩ : ∃ x, b.stick f_CH_MEAS_EVENTS_entry_refused n = x := ⟨_, rfl⟩
    have hxc : x.canonical := hx' ▸ (State.keeps_stick (Within.refl _) (Keeps.refl b) _ _).fine hcb
    have hxon : x.on f_CH_MEAS_EVENTS_entry_refused n = true := hx' ▸ State.on_stick hregs n (by decide) (by decide)
    have hrefused := State.regWrite_entryRefused (m := m) hsh hv hd
    dsimp only at hrefused
    rw [hx'] at hx hrefused
    obtain ⟨y, hy⟩ : ∃ y, x.accessFault 0x201 1 (.channel n) m 2 (regAddr .CH_MEAS_SEQ n (p * 16 + k)) = y := ⟨_, rfl⟩
    have hyregs : Table.rising y.regs = true :=
      (hy ▸ (State.keeps_accessFault (Within.refl _) (Keeps.refl x) 0x201 1 (.channel n) m 2 (regAddr .CH_MEAS_SEQ n (p * 16 + k))).fine
        hxc : y.canonical).fine.regs
    have hyframe : OnlyChanges [.regs, .evm, .force, .engs, .que, .memc, .vat, .flt, .cal, .resp] b y :=
      hy ▸ (hx.mono (by decide)).accessFault rfl ..
    have hsame : (y.wr .CH_MEAS_SEQ (b.rd .CH_MEAS_SEQ n (p * 16 + k)) n (p * 16 + k)).changed .CH_MEAS_SEQ n (p * 16 + k) none
        (b.rd .CH_MEAS_SEQ n (p * 16 + k)) = y.wr .CH_MEAS_SEQ (b.rd .CH_MEAS_SEQ n (p * 16 + k)) n (p * 16 + k) :=
      if_pos (State.rd_wr_same hyregs ..)
    rw [hy, hsame] at hrefused
    have hflt : y.flt = (x.accessFault 0x201 1 (.channel n) m 2 (regAddr .CH_MEAS_SEQ n (p * 16 + k))).flt := by rw [hy]
    exact .registerWrite hb hpow hans rfl (by simp [isEntry, hok, hp, hk]) hrefused (hyframe.regs (by decide) _) (by decide)
      ⟨rfl, State.rd_wr_same hyregs .., x, hxon, hx, hflt⟩

end Sys2Proof.Machine
end

section
/-!
PROOFS. Entries give results; triggers and restarts move the grid (R112 to R128, R185).
-/

namespace Sys2Proof.Machine

open Sys2Proof

section Items
variable {n e k f : Nat} {rt : RTime} {v : DWord} {raw pos : Word} {a : Nat}

/-- The fields of a result's first word (Table 6-2). -/
theorem mkItem_fields (hn : n < 512) (he : e < 16) (hk : k < 64) (hf : f < 4096) :
    bits (mkItem n e k f rt v raw pos a).w0 22 9 = n ∧ bits (mkItem n e k f rt v raw pos a).w0 18 4 = e ∧
      bits (mkItem n e k f rt v raw pos a).w0 12 6 = k := by
  have hw : (mkItem n e k f rt v raw pos a).w0.toNat = n * 2 ^ 22 + e * 2 ^ 18 + k * 2 ^ 12 + f := by
    show (BitVec.ofNat 32 _).toNat = _
    rw [BitVec.toNat_ofNat, Nat.mod_eq_of_lt (by omega)]
  unfold bits
  rw [hw]
  omega

/-- The flags of a result: none is as large as 4096, and STALE shows what it stands for. -/
theorem flags_bound : ∀ a b c d e f g h : Bool,
    (if a then flagAnchored else 0) + (if b then flagCut else 0) + (if c then flagStale else 0) + (if d then flagRanging else 0) +
      (if e then flagClamped else 0) + (if f then flagCouching else 0) + (if g then flagHoldover else 0) + (if h then flagInjected else 0) < 4096 := by
  decide

theorem flags_stale : ∀ a b d e f g h : Bool,
    ((if a then flagAnchored else 0) + (if b then flagCut else 0) + 0 + (if d then flagRanging else 0) +
      (if e then flagClamped else 0) + (if f then flagCouching else 0) + (if g then flagHoldover else 0) + (if h then flagInjected else 0)) /
      flagStale % 2 = 0 := by
  decide

end Items

section Entry
variable {s : State} {n : Nat}

theorem State.resultFlags_lt (cut hold : Bool) : s.resultFlags n cut hold < 4096 := flags_bound ..

theorem State.resultFlags_fresh {cut hold : Bool} (h1 : (s.seqOf n).stale = false) (h2 : (s.seqOf n).staleEnd ≤ (s.seqOf n).apStart) :
    s.resultFlags n cut hold / flagStale % 2 = 0 := by
  have h : ((s.seqOf n).stale || decide ((s.seqOf n).apStart < (s.seqOf n).staleEnd)) = false := by simp [h1, h2]
  unfold State.resultFlags
  dsimp only
  rw [h]
  exact flags_stale ..

theorem map_adcCode {codes : List Int} (h : ∀ c ∈ codes, -131072 < c ∧ c < 131071) : codes.map adcCode = codes := by
  refine (List.map_congr_left fun c hc => ?_).trans (List.map_id _)
  obtain ⟨h1, h2⟩ := h c hc
  unfold adcCode
  simp only [id]
  omega

theorem clips_none {codes : List Int} (h : ∀ c ∈ codes, -131072 < c ∧ c < 131071) :
    (codes.any fun c => decide (c = -131072) || decide (c = 131071)) = false := by
  refine List.any_eq_false.2 fun c hc => ?_
  obtain ⟨h1, h2⟩ := h c hc
  simp only [Bool.or_eq_true, decide_eq_true_eq]
  omega

/-- The value of a result that is neither STALE nor clipped (R118). -/
theorem State.resultWords_fresh {codes : List Int} (h : ∀ c ∈ codes, -131072 < c ∧ c < 131071) :
    (s.resultWords n codes false).1 =
      (s.measValue n (meanCode (mCount (s.seqOf n).word (s.seqOf n).lp) codes (mSinc (s.seqOf n).word))).f64 := by
  unfold State.resultWords
  dsimp only
  rw [clips_none h]
  simp only [Bool.false_eq_true, if_false]

/-- A result of a source that the monitor and autorange do not watch goes to its felt's stuff FIFO (R113, R117). -/
theorem State.emit_plain {codes : List Int} {pos : Word} {hold : Bool} {rt : RTime} (h : ∀ c ∈ codes, -131072 < c ∧ c < 131071)
    (hdest : mDest (s.seqOf n).word < 0x40) (hmark : mMark (s.seqOf n).word = false) (hsrc : mSource (s.seqOf n).word ≠ 0)
    (hmode : mSource (s.seqOf n).word ≠ b2n (s.forceOf n).mode) (hcap : (s.seqOf n).cap = some (pos, hold, rt))
    (h1 : (s.seqOf n).stale = false) (h2 : (s.seqOf n).staleEnd ≤ (s.seqOf n).apStart) :
    ∃ v flags info good raw, flags < 4096 ∧
      v = (s.measValue n (meanCode (mCount (s.seqOf n).word (s.seqOf n).lp) codes (mSinc (s.seqOf n).word))).f64 ∧
      s.emit n codes false = (s.setSeq n { s.seqOf n with last := v, info, good, anchored := false, cut := false }).stuffWrite n
        (mDest (s.seqOf n).word)
        (mkItem n (s.seqOf n).entry (1 + mSource (s.seqOf n).word) flags rt v raw pos ((s.seqOf n).apStart / 256)) := by
  have hflags : decide (s.resultFlags n false hold / flagStale % 2 = 1) = false := by simp [State.resultFlags_fresh h1 h2]
  have hget : (s.seqOf n).cap.getD ((s.engOf n).pos, s.holdover, s.rasterTime (s.seqOf n).apStart) = (pos, hold, rt) := by rw [hcap]; rfl
  refine ⟨(s.resultWords n codes false).1, s.resultFlags n false hold,
    BitVec.ofNat 32 ((s.seqOf n).entry * 2 ^ 28 + (s.seqOf n).profile * 2 ^ 26 + mDest (s.seqOf n).word * 2 ^ 19 +
      mSource (s.seqOf n).word * 2 ^ 16 + s.resultFlags n false hold),
    Table.insert ((s.seqOf n).profile * 16 + (s.seqOf n).entry) (s.resultWords n codes false) (s.seqOf n).good,
    (s.resultWords n codes false).2, State.resultFlags_lt .., State.resultWords_fresh h, ?_⟩
  unfold State.emit
  dsimp only
  rw [map_adcCode h, clips_none h, hget]
  dsimp only
  simp only [hflags, hmode, hsrc, hmark, and_false, false_and, if_false, hdest, if_true, Bool.false_eq_true]
  rfl

/-- A result enters a stuff FIFO with a free place (R185). -/
theorem State.stuffWrite_room {felt : Nat} {it : Item} (hroom : (s.sliceOf (s.entrySlice n)).fifo.length < 15)
    (hfill : s.que.overStuff ≠ some n) :
    s.stuffWrite n felt it = s.setSlice (s.entrySlice n) { s.sliceOf (s.entrySlice n) with
      fifo := (s.sliceOf (s.entrySlice n)).fifo ++ [⟨it, felt, s.cycle⟩] } := by
  have hheld : (s.sliceOf (s.entrySlice n)).fifo.length + (if (s.sliceOf (s.entrySlice n)).readCycle = some s.cycle then 1 else 0) < 16 := by
    split <;> omega
  unfold State.stuffWrite
  dsimp only
  rw [if_pos hheld, if_neg (by simp [hfill])]

theorem State.entryEnds_none {codes : List Int} (h : (s.seqOf n).apEnd = 0 ∨ s.now < (s.seqOf n).apEnd) : s.entryEnds n codes = s := by
  unfold State.entryEnds
  refine if_neg fun hh => ?_
  have hb := hh.1
  simp only [Seqr.busy, Bool.and_eq_true, decide_eq_true_eq] at hb
  omega

theorem State.entryEnds_emits {codes : List Int} (hrun : (s.seqOf n).running = true) (h0 : (s.seqOf n).apEnd ≠ 0)
    (hend : (s.seqOf n).apEnd ≤ s.now) (hl : codes.length = mCount (s.seqOf n).word (s.seqOf n).lp) :
    s.entryEnds n codes = (s.emit n codes false).nextEntry n := by
  unfold State.entryEnds
  exact if_pos ⟨by simp [Seqr.busy, hrun, h0], hend, hl⟩

/-- In an unchanged profile and mode the next entry of the profile begins where the last one ended (R112). -/
theorem State.nextEntry_begins (hlp : s.on f_CH_MEAS_CTL_low_power n = (s.seqOf n).lp)
    (hp : s.fld f_CH_MEAS_CTL_profile n = (s.seqOf n).profile) :
    ∃ q, s.nextEntry n = s.setSeq n q ∧ q.last = (s.seqOf n).last ∧
      q.entry = (if s.lenM1 n (s.seqOf n).profile ≤ (s.seqOf n).entry then 0 else (s.seqOf n).entry + 1) ∧ q.start = (s.seqOf n).apEnd ∧
      q.word = s.rd .CH_MEAS_SEQ n ((s.seqOf n).profile * 16 + q.entry) := by
  unfold State.nextEntry
  dsimp only
  rw [if_neg (by simp [hlp]), if_neg (by simp [hp])]
  exact ⟨_, rfl, rfl, rfl, rfl, rfl⟩

/-! ## Triggers and restarts (R125 to R128) -/

theorem State.regWrite_trigger {m : Nat} {v : Word} (h : Table.rising s.regs = true) (hsh : s.shielded (regAddr .CH_MEAS_TRIG n 0) = 0)
    (hv : bit v 0 = true) :
    s.regWrite m .CH_MEAS_TRIG n 0 v none false =
      (s.wr .CH_MEAS_TRIG (s.rd .CH_MEAS_TRIG n) n).deliverTrigger n (s.afterCycle 40) := by
  have hbar : s.barred m .CH_MEAS_TRIG n v (s.rd .CH_MEAS_TRIG n) = none := by simp [State.barred, regRow]
  have hrwi : differs (s.rd .CH_MEAS_TRIG n) v (rwiMask .CH_MEAS_TRIG) = false := differs_eq_false fun i hi => by
    rw [show rwiMask .CH_MEAS_TRIG = 0 from by decide] at hi
    simp at hi
  have hstored : stored .CH_MEAS_TRIG (s.rd .CH_MEAS_TRIG n) v 0 = s.rd .CH_MEAS_TRIG n := by
    unfold stored
    rw [show w1cMask .CH_MEAS_TRIG = 0 from by decide, show rwMask .CH_MEAS_TRIG = 0 from by decide]
    simp [and_ones]
  have hchanged : (s.wr .CH_MEAS_TRIG (s.rd .CH_MEAS_TRIG n) n).changed .CH_MEAS_TRIG n 0 none (s.rd .CH_MEAS_TRIG n) =
      s.wr .CH_MEAS_TRIG (s.rd .CH_MEAS_TRIG n) n := if_pos (State.rd_wr_same h ..)
  rw [State.regWrite_plain (by decide) hsh, State.writePlain_taken (by decide) hrwi hbar (by simp [State.refusals]), hstored, hchanged]
  exact if_pos hv

/-- A trigger 40 ns after the event cycle is still to come. -/
theorem State.deliverTrigger_waits : s.deliverTrigger n (s.afterCycle 40) =
    s.setSeq n { s.seqOf n with trigs := (s.seqOf n).trigs ++ [(s.cycle + 1 + 40) * 256] } := by
  unfold State.deliverTrigger
  refine if_neg ?_
  unfold State.afterCycle State.cycle
  omega

theorem State.restartDue_none (h : (s.seqOf n).pend = none) : s.restartDue n = s := by simp [State.restartDue, State.restartInstant, h]

/-- A restart that cuts takes place at its instant (R126). -/
theorem State.restartDue_cuts {r : Nat} (hp : (s.seqOf n).pend = some (r, true)) (hrun : (s.seqOf n).running = true)
    (hlp : (s.seqOf n).lpUntil = none) (hlo : (s.seqOf n).start < r) (hhi : r ≤ s.now) (h0 : (s.seqOf n).apEnd ≠ 0)
    (hd : mDest (s.seqOf n).word ≤ 0x40) :
    s.restartDue n = ((s.tally f_CH_MEAS_CUT_COUNT_count 1 n).stick f_CH_MEAS_EVENTS_cut n).restartAt n r true := by
  have hr : s.restartInstant n = some r := by
    simp [State.restartInstant, hp, hrun, hlp, Nat.not_lt.2 hhi, h0, Nat.max_eq_left hlo.le]
  unfold State.restartDue
  rw [hr]
  unfold State.doRestart
  simp [Seqr.busy, hrun, h0, hlo, hd]

/-- A restart moves the grid to its instant and begins entry 0 there (R127). -/
theorem State.restartAt_seq (h : Table.rising s.seqs = true) (u : Nat) :
    ∃ q, s.restartAt n u true = s.setSeq n q ∧ q.grid = u ∧ q.entry = 0 ∧ q.start = u ∧ q.pend = none ∧ q.anchored = true ∧ q.cut = true ∧
      q.running = (s.seqOf n).running ∧ q.profile = s.fld f_CH_MEAS_CTL_profile n := by
  unfold State.restartAt State.beginEntry
  dsimp only
  rw [State.seqOf_setSeq_same h]
  exact ⟨_, State.setSeq_setSeq h _ _, rfl, rfl, rfl, rfl, rfl, Bool.or_true _, rfl, rfl⟩

end Entry

section Ends
variable {s : State} {n : Nat}

/-- What an entry that ends with its result leads to: the result in the FIFO of its slice, and the next entry (R112, R113, R185). -/
theorem State.entryEnds_result {codes : List Int} {pos : Word} {hold : Bool} {rt : RTime} (hq : Table.rising s.seqs = true)
    (hrun : (s.seqOf n).running = true) (h0 : (s.seqOf n).apEnd ≠ 0) (hend : (s.seqOf n).apEnd ≤ s.now)
    (hl : codes.length = mCount (s.seqOf n).word (s.seqOf n).lp) (h : ∀ c ∈ codes, -131072 < c ∧ c < 131071)
    (hdest : mDest (s.seqOf n).word < 0x40) (hmark : mMark (s.seqOf n).word = false) (hsrc : mSource (s.seqOf n).word ≠ 0)
    (hmode : mSource (s.seqOf n).word ≠ b2n (s.forceOf n).mode) (hcap : (s.seqOf n).cap = some (pos, hold, rt))
    (h1 : (s.seqOf n).stale = false) (h2 : (s.seqOf n).staleEnd ≤ (s.seqOf n).apStart)
    (hlp : s.on f_CH_MEAS_CTL_low_power n = (s.seqOf n).lp) (hp : s.fld f_CH_MEAS_CTL_profile n = (s.seqOf n).profile)
    (hroom : (s.sliceOf (s.entrySlice n)).fifo.length < 15) (hfill : s.que.overStuff ≠ some n) :
    ∃ q v flags raw, flags < 4096 ∧
      v = (s.measValue n (meanCode (mCount (s.seqOf n).word (s.seqOf n).lp) codes (mSinc (s.seqOf n).word))).f64 ∧ q.last = v ∧
      s.entryEnds n codes = (s.setSlice (s.entrySlice n) { s.sliceOf (s.entrySlice n) with
        fifo := (s.sliceOf (s.entrySlice n)).fifo ++ [⟨mkItem n (s.seqOf n).entry (1 + mSource (s.seqOf n).word) flags rt v raw pos
          ((s.seqOf n).apStart / 256), mDest (s.seqOf n).word, s.cycle⟩] }).setSeq n q ∧
      q.entry = (if s.lenM1 n (s.seqOf n).profile ≤ (s.seqOf n).entry then 0 else (s.seqOf n).entry + 1) ∧ q.start = (s.seqOf n).apEnd ∧
      q.word = s.rd .CH_MEAS_SEQ n ((s.seqOf n).profile * 16 + q.entry) := by
  obtain ⟨v, flags, info, good, raw, hlt, hv, hemit⟩ := State.emit_plain h hdest hmark hsrc hmode hcap h1 h2
  obtain ⟨q1, hq1⟩ : ∃ q1, q1 = { s.seqOf n with last := v, info, good, anchored := false, cut := false } := ⟨_, rfl⟩
  obtain ⟨it, hit⟩ : ∃ it, it = mkItem n (s.seqOf n).entry (1 + mSource (s.seqOf n).word) flags rt v raw pos ((s.seqOf n).apStart / 256) :=
    ⟨_, rfl⟩
  rw [← hq1, ← hit] at hemit
  have hsame : q1.last = v ∧ q1.entry = (s.seqOf n).entry ∧ q1.profile = (s.seqOf n).profile ∧ q1.apEnd = (s.seqOf n).apEnd ∧
      q1.lp = (s.seqOf n).lp ∧ q1.onSlice = (s.seqOf n).onSlice := by
    rw [hq1]
    exact ⟨rfl, rfl, rfl, rfl, rfl, rfl⟩
  obtain ⟨e1, e2, e3, e4, e5, e6⟩ := hsame
  have hslice : (s.setSeq n q1).entrySlice n = s.entrySlice n := by
    unfold State.entrySlice
    rw [State.seqOf_setSeq_same hq, e6]
  obtain ⟨y, hy⟩ : ∃ y, y = { s.sliceOf (s.entrySlice n) with
    fifo := (s.sliceOf (s.entrySlice n)).fifo ++ [(⟨it, mDest (s.seqOf n).word, s.cycle⟩ : StuffEntry)] } := ⟨_, rfl⟩
  have hstuff : (s.setSeq n q1).stuffWrite n (mDest (s.seqOf n).word) it = (s.setSeq n q1).setSlice (s.entrySlice n) y := by
    have := State.stuffWrite_room (s := s.setSeq n q1) (n := n) (felt := mDest (s.seqOf n).word) (it := it)
      (by rw [hslice]; exact hroom) hfill
    rw [hslice] at this
    exact this.trans (hy ▸ rfl)
  have hseq : ((s.setSeq n q1).setSlice (s.entrySlice n) y).seqOf n = q1 := State.seqOf_setSeq_same hq
  obtain ⟨q, hnext, g1, g2, g3, g4⟩ := State.nextEntry_begins (s := (s.setSeq n q1).setSlice (s.entrySlice n) y) (n := n)
    (by rw [hseq, e5]; exact hlp) (by rw [hseq, e3]; exact hp)
  rw [hseq, e1] at g1
  rw [hseq, e2, e3] at g2
  rw [hseq, e4] at g3
  rw [hseq, e3] at g4
  refine ⟨q, v, flags, raw, hlt, hv, g1, ?_, g2, g3, g4⟩
  rw [← hit, ← hy, State.entryEnds_emits hrun h0 hend hl, hemit, hstuff, hnext]
  exact State.setSeq_setSeq (s := s.setSlice (s.entrySlice n) y) hq q1 q

end Ends

/-- Settles O24. -/
theorem entriesTriggersAndRestarts : Obligations.EntriesTriggersAndRestarts := by
  intro s t m n v codes hcan hpow hn
  obtain ⟨b, hb⟩ : ∃ b, s.begin t = b := ⟨_, rfl⟩
  have hcb : b.canonical := hb ▸ State.canonical_begin hcan t
  have hregs : Table.rising b.regs = true := hcb.fine.regs
  have hseqs : Table.rising b.seqs = true := hcb.fine.seqs
  have hslices : Table.rising b.cal.slices = true := hcb.fine.slices
  rw [hb]
  have hok : isChan n = true := by simpa [isChan] using hn
  refine ⟨fun w pos hold rt hw hrun he h0 hend hl hc hd hmark hs hmode hcap h1 h2 hlp hp hroom hfill => ?_, fun h => ?_, fun hans hsh hv => ?_,
    fun r hp hrun hlp hlo hhi h0 hd => ?_, fun h => ?_⟩
  · subst hw
    obtain ⟨q, x, flags, raw, hlt, hx, hlast, hends, g2, g3, g4⟩ :=
      State.entryEnds_result hseqs hrun h0 hend hl hc hd hmark hs hmode hcap h1 h2 hlp hp hroom hfill
    obtain ⟨y, hy⟩ : ∃ y, y = { b.sliceOf (b.entrySlice n) with
      fifo := (b.sliceOf (b.entrySlice n)).fifo ++ [(⟨mkItem n (b.seqOf n).entry (1 + mSource (b.seqOf n).word) flags rt x raw pos
        ((b.seqOf n).apStart / 256), mDest (b.seqOf n).word, b.cycle⟩ : StuffEntry)] } := ⟨_, rfl⟩
    rw [← hy] at hends
    have hseq : ((b.setSlice (b.entrySlice n) y).setSeq n q).seqOf n = q := State.seqOf_setSeq_same hseqs
    have hslice : ((b.setSlice (b.entrySlice n) y).setSeq n q).sliceOf (b.entrySlice n) = y := State.sliceOf_setSlice_same hslices
    have hsrc : 1 + mSource (b.seqOf n).word < 64 := by
      have : mSource (b.seqOf n).word < 8 := Nat.mod_lt _ (by decide)
      omega
    obtain ⟨i1, i2, i3⟩ := mkItem_fields (rt := rt) (v := x) (raw := raw) (pos := pos) (a := (b.seqOf n).apStart / 256) hn he hsrc hlt
    refine .runs hb hpow rfl hok hends (((OnlyChanges.refl _ _).cal (by decide) _).seqs (by decide) _) ?_
    dsimp only
    rw [hseq, hslice]
    refine ⟨hlast.trans hx, ⟨_, congrArg Slice.fifo hy, i1, i2, i3, rfl, rfl, ?_, ?_, rfl, rfl⟩, g2, g3, g4,
      State.sameBut_setSeq (s := b.setSlice (b.entrySlice n) y) hseqs q, State.sameBut_setSlice hslices y⟩
    · rw [hlast]
      rfl
    · rw [hlast]
      rfl
  · exact .runs hb hpow rfl hok (State.entryEnds_none h) (OnlyChanges.refl _ _) trivial
  · have hwrite := (State.regWrite_trigger (m := m) hregs hsh hv).trans
      (State.deliverTrigger_waits (s := b.wr .CH_MEAS_TRIG (b.rd .CH_MEAS_TRIG n) n))
    exact .registerWrite hb hpow hans rfl hok hwrite (((OnlyChanges.refl _ _).regs (by decide) _).seqs (by decide) _) (by decide)
      ⟨rfl, State.seqOf_setSeq_same (s := b.wr .CH_MEAS_TRIG (b.rd .CH_MEAS_TRIG n) n) hseqs,
        State.sameBut_setSeq (s := b.wr .CH_MEAS_TRIG (b.rd .CH_MEAS_TRIG n) n) hseqs _, .put hregs _ _ _, State.rd_wr_same hregs ..⟩
  · obtain ⟨x, hx⟩ : ∃ x, (b.tally f_CH_MEAS_CUT_COUNT_count 1 n).stick f_CH_MEAS_EVENTS_cut n = x := ⟨_, rfl⟩
    have hcuts := State.restartDue_cuts hp hrun hlp hlo hhi h0 hd
    have hframe : OnlyChanges [.seqs, .regs] b x := hx ▸ ((OnlyChanges.refl _ _).tally (by decide) _ _ _).stick (by decide) _ _
    have hxs : x.seqs = b.seqs := hx ▸ rfl
    have htally : Table.rising (b.tally f_CH_MEAS_CUT_COUNT_count 1 n).regs = true := State.rising_tally hregs ..
    have hprofile : x.fld f_CH_MEAS_CTL_profile n = b.fld f_CH_MEAS_CTL_profile n := hx ▸
      (State.fld_wr_other htally (by simp [regAddr, regRow, f_CH_MEAS_CTL_profile, f_CH_MEAS_EVENTS_cut])).trans
        (State.fld_wr_other hregs (by simp [regAddr, regRow, f_CH_MEAS_CTL_profile, f_CH_MEAS_CUT_COUNT_count]))
    have hcount : x.fld f_CH_MEAS_CUT_COUNT_count n = min 0xFFFF (b.fld f_CH_MEAS_CUT_COUNT_count n + 1) := hx ▸
      (State.fld_stick_other htally (by simp [regAddr, regRow, f_CH_MEAS_EVENTS_cut, f_CH_MEAS_CUT_COUNT_count])).trans
        (State.fld_tally (s := b) hregs 1 n (by decide))
    have hon : x.on f_CH_MEAS_EVENTS_cut n = true := hx ▸ State.on_stick htally n (by decide) (by decide)
    have hsame : Table.SameBut [regAddr .CH_MEAS_CUT_COUNT n 0, regAddr .CH_MEAS_EVENTS n 0] b.regs x.regs := hx ▸
      (State.sameBut_tally hregs f_CH_MEAS_CUT_COUNT_count 1 n).fst.trans (State.sameBut_stick htally f_CH_MEAS_EVENTS_cut n).snd
    rw [hx] at hcuts
    obtain ⟨q, hq, g1, g2, g3, g4, g5, g6, g7, g8⟩ := State.restartAt_seq (s := x) (n := n) (hxs ▸ hseqs) r
    have hseq : (x.setSeq n q).seqOf n = q := State.seqOf_setSeq_same (hxs ▸ hseqs)
    have hxseq : x.seqOf n = b.seqOf n := by
      unfold State.seqOf
      rw [hxs]
    refine .runs hb hpow rfl hok (hcuts.trans hq) (hframe.seqs (by decide) _) ?_
    dsimp only
    rw [hseq]
    exact ⟨g1, g2, g3, g4, g5, g6, g7.trans (hxseq ▸ hrun), g8.trans hprofile, hxs ▸ State.sameBut_setSeq (hxs ▸ hseqs) q, hcount, hon, hsame⟩
  · exact .runs hb hpow rfl hok (State.restartDue_none h) (OnlyChanges.refl _ _) trivial

end Sys2Proof.Machine
end

section
/-!
PROOFS. Reads of lists (R141, R172): the read may activate a row that counts as disturbed, whose notice goes through a felt to the spill region.
Where that region lies over the list table, the descriptor read after the notice is another one than that before it.
-/

namespace Sys2Proof.Machine

open Sys2Proof

section Unrouted
variable {s b e : State}

/-- With the event matrix's domain off an assertion leads to nothing (R216). -/
theorem State.settle_unrouted : ∀ (k : Nat) {s : State}, s.domainOn 55 = false → ∃ l, State.settle k s = { s with evm := { s.evm with asserted := l } }
  | 0, s, _ => ⟨s.evm.asserted, rfl⟩
  | k + 1, s, h => by
    cases hl : s.evm.asserted with
    | nil =>
      have hnone : State.settle (k + 1) s = s := by
        unfold State.settle
        rw [hl]
      exact ⟨s.evm.asserted, hnone⟩
    | cons a rest =>
      have hroute : State.route { s with evm := { s.evm with asserted := rest } } a = { s with evm := { s.evm with asserted := rest } } :=
        if_pos (.inl (show (! s.domainOn 55) = true by rw [h]; rfl))
      obtain ⟨l, hk⟩ := State.settle_unrouted k (s := { s with evm := { s.evm with asserted := rest } }) h
      have hone : State.settle (k + 1) s = State.settle k (State.route { s with evm := { s.evm with asserted := rest } } a) := by
        conv => lhs; unfold State.settle
        rw [hl]
      exact ⟨l, by rw [hone, hroute, hk]⟩

/-- Then what follows a command leaves the sweep engines alone. -/
theorem State.finish_engs (h : e.domainOn 55 = false) : (State.finish b e).engs = e.engs := by
  unfold State.finish
  split
  · rfl
  · obtain ⟨l, h1⟩ := State.settle_unrouted 2400 h
    rw [h1]
    have hw := State.keeps_watch (Within.refl _) (Keeps.refl { e with evm := { e.evm with asserted := l } }) b
    have hpwr : (State.watch b { e with evm := { e.evm with asserted := l } }).domainOn 55 = false := by
      unfold State.domainOn
      rw [hw.pwr rfl]
      exact h
    obtain ⟨m, h2⟩ := State.settle_unrouted 2400 hpwr
    rw [h2]
    exact hw.engs rfl

end Unrouted

/-- A device whose list table and spill region both begin at byte 0 of the stack, with a row counted as disturbed at its first activation, and a
felt that takes the notice with a spill-backed credit. -/
def spilling : State :=
  { State.reset with
    regs := [(regAddr .QUE_AGENT_CTL 28 0, 0x80000000), (regAddr .MEMC_RH_CTL 0 0, 0), (regAddr .MEMC_REGION_ATTR 0 0, 0x80000000)]
    que := { State.reset.que with felts := [(0, { Felt.reset with st := .active })], credits := [(572 * 64, ⟨0, 1, 0, 0, 0⟩)] }
    memc := { State.reset.memc with st := .service } }

/-- Refutes O25: PRIME of `spilling` takes the descriptor from the bytes that the notice of its own read has put in the list table, a valid
one, where the table held none. -/
theorem not_startsPrimesAndStops : ¬ Obligations.StartsPrimesAndStops := by
  intro h
  obtain ⟨-, hprime, -⟩ := h spilling 0 0x1020 0 0x20000000 (by decide) (by decide) (by decide) (by decide) (by decide) (by decide)
  obtain ⟨e, hexec, hframe, -, y, z, -, -, -, -, -, heng⟩ :=
    (hprime (by decide) (by decide) (by decide)).1 0 (by decide) (by decide) (by decide)
  have hok : (e.engOf 0).ok = false := by
    rw [heng]
    exact show ((spilling.begin 0).listDesc 0).1 = false by decide
  have hout : ∀ u, exec (.prime 0 0x1020 0 0x20000000) spilling = .next u → (u.engOf 0).ok = true := by
    intro u hu
    obtain rfl := Host.Outcome.next.inj hu
    decide
  have hdomain : e.domainOn 55 = false := by
    unfold State.domainOn
    rw [hframe.2.2 .pwr (by decide)]
    decide
  have hsame : (State.finish (spilling.begin 0) e).engOf 0 = e.engOf 0 := by
    unfold State.engOf
    rw [State.finish_engs hdomain]
  have := hout _ hexec
  rw [hsame, hok] at this
  cases this

/-- The same device with a list of one entry at byte 0, a FORCE_V, for which its engine is starved. -/
def starving : State :=
  { spilling with
    hbm := [(15, 0x10)]
    engs := [(0, { Eng.reset with state := .starved, len := 1, fetch := some (0, 1), ok := true })] }

/-- Refutes O26: the entry that arrives at the starved engine of `starving` is read from the bytes that the notice of its own read has put over
the list, and is not the entry that the list held. -/
theorem not_primingStartInstantsAndPrefetch : ¬ Obligations.PrimingStartInstantsAndPrefetch := by
  intro h
  obtain ⟨-, -, -, -, -, harrival, -⟩ := h starving 0 0 [] (by decide) (by decide) (by decide)
  obtain ⟨e, hexec, hframe, -, -, -, -, x, hplan, -⟩ := harrival 0 1 ((starving.begin 0).listEntry 0 0) (by decide) (by decide) (by decide)
    (by decide) (by decide) (by decide) (by decide) (by decide) (by decide) (by decide) (by decide) (by decide) rfl (by decide) (by decide)
    (by decide) (by decide) (by decide) (by decide) (by decide)
  have hout : ∀ u, exec (.prefetchArrival 0 0 []) starving = .next u → (u.engOf 0).plan = [] := by
    intro u hu
    obtain rfl := Host.Outcome.next.inj hu
    decide
  have hdomain : e.domainOn 55 = false := by
    unfold State.domainOn
    rw [hframe.2.2 .pwr (by decide)]
    decide
  have hsame : (State.finish (starving.begin 0) e).engOf 0 = e.engOf 0 := by
    unfold State.engOf
    rw [State.finish_engs hdomain]
  have := hout _ hexec
  rw [hsame, hplan] at this
  cases this

end Sys2Proof.Machine
end

section
/-!
PROOFS. Look-ahead points (R148 to R154): an engine that runs one execution arms the one that follows, and fills its buffer up.
-/

namespace Sys2Proof.Machine

open Sys2Proof

section Buffer
variable {s t : State} {n : Nat} {e : Eng}

/-- Two words that agree outside some registers hold the same fields of the others. -/
theorem State.fld_sameBut {l : List Nat} {f : Fld} {i j : Nat} (h : Table.SameBut l s.regs t.regs) (hl : regAddr f.reg i j ∉ l) :
    t.fld f i j = s.fld f i j :=
  congrArg (bits · f.lo f.len) (h _ hl _)

theorem State.on_sameBut {l : List Nat} {f : Fld} {i j : Nat} (h : Table.SameBut l s.regs t.regs) (hl : regAddr f.reg i j ∉ l) :
    t.on f i j = s.on f i j := by
  unfold State.on
  rw [State.fld_sameBut h hl]

/-- The registers that count the requests which find the stack in self-refresh. -/
def wakeRegs : List Nat := [regAddr .MEMC_SR_STATS 0 0, regAddr .MEMC_EVENTS 0 0]

theorem not_mem_wakeRegs {a : Nat} (h : a ≠ regAddr .MEMC_SR_STATS 0 0 ∧ a ≠ regAddr .MEMC_EVENTS 0 0) : a ∉ wakeRegs := by
  simpa [wakeRegs] using h

/-- A request that arrives at the HBM controller changes its state and the registers that count it, and nothing else (R248). -/
theorem State.memArrive_counts (h : Table.rising s.regs = true) :
    ∃ r m, s.memArrive = { s with regs := r, memc := m } ∧ Table.SameBut wakeRegs s.regs r := by
  have hsame (f g : Fld) (hf : f.reg = .MEMC_SR_STATS) (hg : g.reg = .MEMC_EVENTS) :
      Table.SameBut wakeRegs s.regs ((s.tally f).stick g).regs :=
    (hf ▸ State.sameBut_tally h f 1 0).fst.trans (hg ▸ State.sameBut_stick (State.rising_tally h ..) g 0).snd
  unfold State.memArrive
  split
  · exact ⟨_, s.memc, rfl, hsame _ _ rfl rfl⟩
  · split
    · exact ⟨_, _, rfl, hsame _ _ rfl rfl⟩
    · exact ⟨s.regs, s.memc, rfl, .refl _ _⟩

/-- Filling the buffer up changes the engine's buffer and its fetch alone (R171). -/
theorem State.topUp_fills (h : Table.rising s.regs = true) : ∃ r m lo buf f,
    s.topUp n = ({ s with regs := r, memc := m }).setEng n { s.engOf n with bufLo := lo, buf := buf, fetch := f } ∧
      Table.SameBut wakeRegs s.regs r := by
  unfold State.topUp
  dsimp only
  split_ifs
  · obtain ⟨r, m, hm, hr⟩ := State.memArrive_counts h
    rw [hm]
    exact ⟨r, m, _, _, _, rfl, hr⟩
  · exact ⟨s.regs, s.memc, _, _, _, rfl, .refl _ _⟩

/-- An instant of the time axis that lies ahead. -/
def State.ahead (s : State) (w : When) : Prop := ∃ u, w = .at u ∧ s.now < u

theorem State.not_came_of_ahead {w : When} (h : s.ahead w) : s.came w = false := by
  obtain ⟨u, rfl, hu⟩ := h
  exact decide_eq_false (Nat.not_le.2 hu)

/-- Marks and a stop that lie ahead wait. -/
theorem State.sweepInstant_waits (hm : ∀ k ∈ (s.engOf n).marks, s.ahead k.due) (hs : ∀ p ∈ (s.engOf n).stop, s.ahead p.2) :
    s.sweepInstant n = s := by
  have hmarks : s.dueMarks n = s := by
    have hdue : ((s.engOf n).marks.filter fun k => s.came k.due) = [] :=
      List.filter_eq_nil_iff.2 fun k hk => by simp [State.not_came_of_ahead (hm k hk)]
    unfold State.dueMarks
    exact if_pos hdue
  unfold State.sweepInstant
  rw [hmarks]
  dsimp only
  split
  · rename_i r w hstop
    have hw : s.came w = false := State.not_came_of_ahead (hs (r, w) (by rw [hstop]; rfl))
    simp [hw]
  · rfl

/-- What the look at an engine's entries leads to, where none of its marks and no stop is due: the buffer is filled up. -/
theorem State.controls_fills {bad : Bool} (hregs : Table.rising t.regs = true) (hengs : Table.rising t.engs = true)
    (hwalk : State.walk n false bad 1200 16 (s.setEng n { s.engOf n with stall := false }) = t.setEng n e)
    (hs : Table.rising s.engs = true) (hfetch : e.fetch = (s.engOf n).fetch)
    (hm : ∀ k ∈ e.marks, t.ahead k.due) (hstop : ∀ p ∈ e.stop, t.ahead p.2) : ∃ r m lo buf f,
    s.controls n false bad = ({ t with regs := r, memc := m }).setEng n { e with bufLo := lo, buf := buf, fetch := f } ∧
      Table.SameBut wakeRegs t.regs r := by
  obtain ⟨r, m, lo, buf, f, htop, hr⟩ := State.topUp_fills (s := t.setEng n e) (n := n) hregs
  have hon : (s.setEng n { s.engOf n with stall := false }).walkOn n 16 false bad = (t.setEng n e).topUp n := by
    unfold State.walkOn
    rw [hwalk]
    dsimp only
    rw [State.engOf_setEng_same hengs, State.engOf_setEng_same hs]
    simp [hfetch]
  rw [State.engOf_setEng_same hengs] at htop
  obtain ⟨y, hy⟩ : ∃ y, y = { e with bufLo := lo, buf := buf, fetch := f } := ⟨_, rfl⟩
  have hput : ({ t.setEng n e with regs := r, memc := m } : State).setEng n y = ({ t with regs := r, memc := m }).setEng n y :=
    State.setEng_setEng (s := { t with regs := r, memc := m }) hengs e y
  rw [← hy, hput] at htop
  refine ⟨r, m, lo, buf, f, ?_, hr⟩
  unfold State.controls
  rw [hon, htop, ← hy]
  have heng : (({ t with regs := r, memc := m } : State).setEng n y).engOf n = y :=
    State.engOf_setEng_same (s := { t with regs := r, memc := m }) hengs
  refine State.sweepInstant_waits ?_ ?_
  · rw [heng, hy]
    exact hm
  · rw [heng, hy]
    exact hstop

end Buffer

section Plans
variable {s : State} {n i ord k len v : Nat} {w : BitVec 128} {start : When} {target : RTime} {x : Exec} {bad : Bool}

/-- The execution of an entry that plays no mould, as it is planned. -/
def Exec.planned (i ord : Nat) (w : BitVec 128) (start : When) (target : RTime) : Exec :=
  { idx := i, ord, word := w, start, target, lookDone := false, endAt := none, mBase := 0, mLen := 1, point := 0, points := [], placed := 0,
    mLo := 0, mCodes := [], timedOut := false }

theorem State.newExec_planned (h : sPlays w = false) : s.newExec i ord 0 w start target = (s, .planned i ord w start target) := by
  simp [State.newExec, Exec.planned, h]

theorem State.addPlan_first (h : (s.engOf n).plan = []) : s.addPlan n x = s.setEng n { s.engOf n with plan := [x], next := x.idx } := by
  simp [State.addPlan, h]

theorem sPlays_of_op (h : sOp w ≠ 5) : sPlays w = false := decide_eq_false h

theorem Exec.not_open (h : sDwell x.word ≠ 0) : x.open_ = false := by simp [Exec.open_, h]

/-- An execution with a dwell ends that many frames after its start (R147). -/
theorem State.endOf_dwell (h : x.endAt = none) (hs : x.start = .at v) (hd : sDwells x.word = true) (h0 : 0 < sDwell x.word) :
    s.endOf x = some (.at (v + sDwell x.word * 65536)) := by
  simp only [State.endOf, h, hd, if_true, hs, Nat.max_eq_right h0]
  exact congrArg some (if_neg h0.ne')

theorem sDwells_of_op (h : sOp w = 1 ∨ sOp w = 2 ∨ sOp w = 3) : sDwells w = true := decide_eq_true (by omega)

/-- What follows the last execution leaves its end alone where that is fixed. -/
theorem State.closeLast_closed {a : Option When} (hl : (s.engOf n).last = some x) (ho : x.open_ = false) : s.closeLast n a = s := by
  simp [State.closeLast, hl, ho]

theorem State.markDue_last {d : When} (hl : (s.engOf n).last = some x) (ho : x.open_ = false) (he : s.endOf x = some d) :
    s.markDue n = d := by
  simp [State.markDue, hl, ho, he]

theorem State.armAt_running (h : (s.engOf n).frame = none) : s.armAt n = s.cycleArm := by simp [State.armAt, h]

theorem Eng.last_cur {e : Eng} (h : e.plan = []) : e.last = e.cur := by simp [Eng.last, h]

/-- An unanchored entry is planned to start as the last one ends (R148). -/
theorem State.arm_unanchored {d : When} (hanc : sAnc w = false) (hp : (s.engOf n).plan = []) (hc : (s.engOf n).cur = some x)
    (ho : x.open_ = false) (he : s.endOf x = some d) (hw : sPlays w = false) :
    s.arm n i ord w false = (s.setEng n { s.engOf n with plan := [.planned i ord w d RTime.zero], next := i }, false) := by
  have hl : (s.engOf n).last = some x := (Eng.last_cur hp).trans hc
  unfold State.arm
  simp only [hanc, Bool.not_false, if_true, hl, he, Option.getD_some, State.closeLast_closed hl ho, State.newExec_planned hw,
    State.addPlan_first hp, Bool.false_eq_true, if_false]
  rfl

/-- An anchored entry whose target lies far enough ahead is planned to start at it (R150). -/
theorem State.arm_onTime (hanc : sAnc w = true) (hf : (s.engOf n).frame = none) (hready : s.tb.ready = true)
    (hlate : s.lateBy s.cycleArm (s.anchorTarget s.cycleArm w) ≤ 0) (hp : (s.engOf n).plan = []) (hc : (s.engOf n).cur = some x)
    (ho : x.open_ = false) (hw : sPlays w = false) :
    s.arm n i ord w false = (s.setEng n { s.engOf n with
      plan := [.planned i ord w (.raster (s.anchorTarget s.cycleArm w)) (s.anchorTarget s.cycleArm w)], next := i }, false) := by
  have hl : (s.engOf n).last = some x := (Eng.last_cur hp).trans hc
  unfold State.arm
  simp only [hanc, Bool.not_true, Bool.false_eq_true, if_false, hready, State.armAt_running hf, hlate, if_true, State.closeLast_closed hl ho,
    State.newExec_planned hw, State.addPlan_first hp]
  rfl

/-- The state in which an anchored entry that comes too late is counted and issued all the same. -/
def State.issuedLate (s : State) (n : Nat) : State := (s.countLate n 1).stick f_CH_SWEEP_EVENTS_late n

theorem State.stick_setEng (f : Fld) (e : Eng) : (s.setEng n e).stick f i = (s.stick f i).setEng n e := rfl

theorem State.tally_setEng (f : Fld) (e : Eng) : (s.setEng n e).tally f k i = (s.tally f k i).setEng n e := rfl

theorem State.issuedLate_setEng (e : Eng) : (s.setEng n e).issuedLate n = (s.issuedLate n).setEng n e := by
  unfold State.issuedLate State.countLate
  rw [State.tally_setEng, State.tally_setEng, State.stick_setEng, State.stick_setEng]

/-- Under the policy ISSUE an anchored entry that comes too late starts 300 ns after its arming (R151, R152). -/
theorem State.arm_late (hanc : sAnc w = true) (hf : (s.engOf n).frame = none) (hready : s.tb.ready = true)
    (hlate : 0 < s.lateBy s.cycleArm (s.anchorTarget s.cycleArm w)) (hpol : s.fld f_CH_SWEEP_CTL_late_policy n = 0)
    (hp : (s.engOf n).plan = []) (hc : (s.engOf n).cur = some x) (ho : x.open_ = false) (hw : sPlays w = false) :
    s.arm n i ord w false = ((s.issuedLate n).setEng n { s.engOf n with
      plan := [.planned i ord w (.at (s.cycleArm + ns 300)) (s.anchorTarget s.cycleArm w)], next := i }, false) := by
  have hl : (s.engOf n).last = some x := (Eng.last_cur hp).trans hc
  have hclose (a : Option When) : (s.countLate n 1).closeLast n a = s.countLate n 1 := State.closeLast_closed (s := s.countLate n 1) hl ho
  have hadd (y : Exec) : (s.issuedLate n).addPlan n y = (s.issuedLate n).setEng n { s.engOf n with plan := [y], next := y.idx } :=
    State.addPlan_first (s := s.issuedLate n) hp
  unfold State.arm
  simp only [hanc, Bool.not_true, Bool.false_eq_true, if_false, hready, State.armAt_running hf, Int.not_le.2 hlate, hclose, hpol,
    State.newExec_planned hw]
  exact congrArg (·, false) (hadd _)

/-- An entry of op 1 or 2 with a span and a range that are not reserved is valid (R144). -/
theorem State.entryValid (hop : sOp w = 1 ∨ sOp w = 2) (hs : sSpan w ≠ 3) (hr : sRange w ≠ 7)
    (ha : sAnc w = true → sForm w ≠ 3 ∧ s.dev.forerunner = false) : s.entryInvalid w i len true = false := by
  have hres : sReserved w i len = false := by
    rcases hop with h | h <;> cases hanc : sAnc w <;> simp [sReserved, h, hs, hr, hanc] <;> exact (ha hanc).1
  have hfore : (s.dev.forerunner && sAnc w) = false := by
    cases hanc : sAnc w with
    | false => simp
    | true => simp [(ha hanc).2]
  unfold State.entryInvalid
  rw [hres, hfore, sPlays_of_op (by omega)]
  rfl

/-- A control entry of op 0 or 6 is valid (R144). -/
theorem State.controlValid (hop : sOp w = 0 ∨ sOp w = 6 ∧ sAnc w = false) : s.entryInvalid w i len true = false := by
  rcases hop with h | ⟨h, ha⟩
  · simp [State.entryInvalid, sReserved, sPlays, h]
  · simp [State.entryInvalid, sReserved, sPlays, h, ha]

/-- The walk ends at a timed entry, which is armed. -/
theorem State.walk_timed {c : Nat} (hlen : (s.engOf n).next < (s.engOf n).len) (hent : (s.engOf n).entry? (s.engOf n).next = some w)
    (hop : sOp w = 1 ∨ sOp w = 2) (hval : s.entryInvalid w (s.engOf n).next (s.engOf n).len true = false) {u : State}
    (harm : s.arm n (s.engOf n).next 0 w false = (u, false)) : State.walk n false bad (k + 1) c s = u := by
  have hctl : sControl w = false := by rcases hop with h | h <;> simp [sControl, h]
  unfold State.walk
  dsimp only
  rw [if_neg (Nat.not_le.2 hlen), hent]
  simp only [sPlays_of_op (w := w) (by omega), Bool.false_eq_true, if_false, hval, hctl, false_and]
  rcases hop with h | h <;> simp only [h, harm] <;> rfl

/-- The walk takes a mark at its instant and goes on (R153). -/
theorem State.walk_mark {c : Nat} (hc : c ≠ 0) (hlen : (s.engOf n).next < (s.engOf n).len)
    (hent : (s.engOf n).entry? (s.engOf n).next = some w) (hop : sOp w = 6) (ha : sAnc w = false) :
    State.walk n false bad (k + 1) c s = State.walk n false bad k (c - 1) (s.setEng n { s.engOf n with
      next := (s.engOf n).next + 1, marks := (s.engOf n).marks ++ [(⟨sValue w % 65536, sTrig w, s.markDue n⟩ : Mark)] }) := by
  have hctl : sControl w = true := by simp [sControl, hop, ha]
  conv => lhs; unfold State.walk
  dsimp only
  rw [if_neg (Nat.not_le.2 hlen), hent]
  simp only [sPlays_of_op (w := w) (by omega), Bool.false_eq_true, if_false, State.controlValid (.inr ⟨hop, ha⟩), hctl, true_and, hc, hop]
  rfl

/-- The walk ends at END, which asks for the end of the run (R161). -/
theorem State.walk_end {c : Nat} (hc : c ≠ 0) (hlen : (s.engOf n).next < (s.engOf n).len)
    (hent : (s.engOf n).entry? (s.engOf n).next = some w) (hop : sOp w = 0) (hv : sValue w % 2 = 0) :
    State.walk n false bad (k + 1) c s = ((s.setEng n (s.engOf n)).askStop n 1 (s.markDue n)).closeLast n none := by
  have hctl : sControl w = true := by simp [sControl, hop]
  unfold State.walk
  dsimp only
  rw [if_neg (Nat.not_le.2 hlen), hent]
  simp only [sPlays_of_op (w := w) (by omega), Bool.false_eq_true, if_false, State.controlValid (.inl hop), hctl, true_and, hc, hop, hv]
  simp

end Plans

section Look
variable {s t : State} {n u : Nat} {x : Exec} {e : Eng} {bad : Bool}

/-- An engine that runs the execution `x` of a dwelling entry from the instant `u`, with nothing planned after it. -/
structure Eng.Runs (e : Eng) (x : Exec) (u : Nat) : Prop where
  running : e.state = .running
  unstopped : e.stop = none
  unplanned : e.plan = []
  frameless : e.frame = none
  unmarked : e.marks = []
  current : e.cur = some x
  fresh : x.lookDone = false
  starts : x.start = .at u
  unended : x.endAt = none
  dwells : sDwells x.word = true
  dwell : 0 < sDwell x.word

/-- The instant at which the execution ends. -/
def Exec.ends (x : Exec) (u : Nat) : Nat := u + sDwell x.word * 65536

/-- The execution once its look-ahead point has been handled. -/
def Exec.looked (x : Exec) : Exec := { x with lookDone := true }

/-- The engine at the look-ahead point of its last repetition. -/
def Eng.pastLook (e : Eng) (x : Exec) : Eng := { e with cur := some x.looked, next := x.idx + 1, stall := false }

section Running
variable (h : (s.engOf n).Runs x u)
include h

theorem State.lookCycle_runs : s.lookCycle x = some ((x.ends u - ns 300) / 256) := by
  unfold State.lookCycle
  rw [State.endOf_dwell h.unended h.starts h.dwells h.dwell]
  rfl

theorem State.issueEarly_running : s.issueEarly n bad = s := by simp [State.issueEarly, h.running]

/-- Before its look-ahead point an execution leads to nothing (R149). -/
theorem State.lookAhead_before (hc : s.cycle < (x.ends u - ns 300) / 256) : s.lookAhead n bad = s := by
  unfold State.lookAhead
  simp [State.issueEarly_running h, Eng.last_cur h.unplanned, h.current, State.lookCycle_runs h, hc]

theorem State.lookAhead_follows (hc : (x.ends u - ns 300) / 256 ≤ s.cycle) (hst : (s.engOf n).stall = false) :
    s.lookAhead n bad = (s.setEng n { s.engOf n with cur := some x.looked }).follow n x bad := by
  unfold State.lookAhead
  simp only [State.issueEarly_running h, h.running, h.unstopped, hst, Eng.last_cur h.unplanned, h.current, State.lookCycle_runs h, h.fresh,
    Nat.not_lt.2 hc, Eng.mapLast, h.unplanned]
  rfl

theorem State.endOf_looked : t.endOf x.looked = some (.at (x.ends u)) := State.endOf_dwell (x := x.looked) h.unended h.starts h.dwells h.dwell

theorem Exec.looked_closed : x.looked.open_ = false := Exec.not_open h.dwell.ne'

/-- An execution with a repetition to come arms it (R154). -/
theorem State.lookAhead_again (hengs : Table.rising s.engs = true) (hc : (x.ends u - ns 300) / 256 ≤ s.cycle)
    (hst : (s.engOf n).stall = false) (hord : x.ord < sRepeat x.word) (hanc : sAnc x.word = false) (hop : sOp x.word ≠ 5)
    (hop' : sOp x.word ≠ 4) :
    s.lookAhead n bad = s.setEng n { s.engOf n with
      cur := some x.looked, plan := [.planned x.idx (x.ord + 1) x.word (.at (x.ends u)) RTime.zero], next := x.idx } := by
  obtain ⟨y, hy⟩ : ∃ y, y = { s.engOf n with cur := some x.looked } := ⟨_, rfl⟩
  have heng : (s.setEng n y).engOf n = y := State.engOf_setEng_same hengs
  have hfollow := State.lookAhead_follows h (bad := bad) hc hst
  rw [← hy] at hfollow
  have harm := State.arm_unanchored (s := s.setEng n y) (n := n) (i := x.idx) (ord := x.ord + 1) (w := x.word) (x := x.looked)
    hanc (by rw [heng, hy]; exact h.unplanned) (by rw [heng, hy]) (Exec.looked_closed h) (State.endOf_looked h) (sPlays_of_op hop)
  rw [heng, State.setEng_setEng hengs] at harm
  rw [hfollow]
  unfold State.follow
  simp only [h.dwells, sWaits, hop', decide_false, Bool.false_and, Bool.true_or, Bool.true_and, hord, decide_true, Bool.not_false, harm, if_true,
    Bool.false_eq_true, if_false]
  rw [hy]

/-- After its last repetition the look goes on to the entry that follows (R154). -/
theorem State.lookAhead_on (hengs : Table.rising s.engs = true) (hregs : Table.rising t.regs = true) (hengs' : Table.rising t.engs = true)
    (hc : (x.ends u - ns 300) / 256 ≤ s.cycle) (hst : (s.engOf n).stall = false) (hord : sRepeat x.word ≤ x.ord)
    (hwalk : State.walk n false bad 1200 16 (s.setEng n ((s.engOf n).pastLook x)) = t.setEng n e)
    (hfetch : e.fetch = (s.engOf n).fetch) (hm : ∀ k ∈ e.marks, t.ahead k.due) (hstop : ∀ p ∈ e.stop, t.ahead p.2) : ∃ r m lo buf f,
    s.lookAhead n bad = ({ t with regs := r, memc := m }).setEng n { e with bufLo := lo, buf := buf, fetch := f } ∧
      Table.SameBut wakeRegs t.regs r := by
  obtain ⟨y, hy⟩ : ∃ y, y = { s.engOf n with cur := some x.looked } := ⟨_, rfl⟩
  obtain ⟨z, hz⟩ : ∃ z, z = { y with next := x.idx + 1 } := ⟨_, rfl⟩
  have heng : (s.setEng n y).engOf n = y := State.engOf_setEng_same hengs
  have hon : s.lookAhead n bad = (s.setEng n z).controls n false bad := by
    rw [State.lookAhead_follows h hc hst, ← hy]
    unfold State.follow
    simp only [Nat.not_lt.2 hord, decide_false, Bool.and_false, Bool.false_and, Bool.false_eq_true, if_false]
    rw [heng, ← hz, State.setEng_setEng hengs]
  have hzeng : (s.setEng n z).engOf n = z := State.engOf_setEng_same hengs
  have hpast : { z with stall := false } = (s.engOf n).pastLook x := by
    rw [hz, hy]
    rfl
  rw [hon]
  refine State.controls_fills hregs hengs' ?_ (State.rising_setEng hengs z) ?_ hm hstop
  · rw [hzeng, hpast, State.setEng_setEng hengs]
    exact hwalk
  · rw [hzeng, hfetch, hz, hy]


section Followed
variable {w w' : BitVec 128} (hengs : Table.rising s.engs = true) (hlen : x.idx + 1 < (s.engOf n).len)
  (hent : (s.engOf n).entry? (x.idx + 1) = some w) (hop : sOp w = 1 ∨ sOp w = 2) (hspan : sSpan w ≠ 3) (hrange : sRange w ≠ 7)
include hengs hlen hent hop hspan hrange

/-- The unanchored entry that follows is armed for the end of the execution. -/
theorem State.walk_unanchored (hanc : sAnc w = false) : State.walk n false bad 1200 16 (s.setEng n ((s.engOf n).pastLook x)) =
    s.setEng n { (s.engOf n).pastLook x with plan := [.planned (x.idx + 1) 0 w (.at (x.ends u)) RTime.zero] } := by
  obtain ⟨p, hp⟩ : ∃ p, p = (s.engOf n).pastLook x := ⟨_, rfl⟩
  have heng : (s.setEng n p).engOf n = p := State.engOf_setEng_same hengs
  have harm := State.arm_unanchored (s := s.setEng n p) (n := n) (i := x.idx + 1) (ord := 0) (w := w) (x := x.looked) hanc
    (by rw [heng, hp]; exact h.unplanned) (by rw [heng, hp]; rfl) (Exec.looked_closed h) (State.endOf_looked h) (sPlays_of_op (by omega))
  rw [heng, State.setEng_setEng hengs] at harm
  have hnext : p.next = x.idx + 1 := hp ▸ rfl
  rw [← hp]
  refine (State.walk_timed (s := s.setEng n p) (w := w) (by rw [heng, hp]; exact hlen) (by rw [heng, hp]; exact hent) hop
    (State.entryValid hop hspan hrange fun ha => absurd ha (by simp [hanc])) (by rw [heng, hnext]; exact harm)).trans ?_
  rw [hp]
  rfl

variable (hanc : sAnc w = true) (hform : sForm w ≠ 3) (hfore : s.dev.forerunner = false) (hready : s.tb.ready = true)
include hanc hform hfore hready

/-- The anchored entry that follows is armed for its target where that lies far enough ahead. -/
theorem State.walk_onTime (hlate : s.lateBy s.cycleArm (s.anchorTarget s.cycleArm w) ≤ 0) :
    State.walk n false bad 1200 16 (s.setEng n ((s.engOf n).pastLook x)) = s.setEng n { (s.engOf n).pastLook x with
      plan := [.planned (x.idx + 1) 0 w (.raster (s.anchorTarget s.cycleArm w)) (s.anchorTarget s.cycleArm w)] } := by
  obtain ⟨p, hp⟩ : ∃ p, p = (s.engOf n).pastLook x := ⟨_, rfl⟩
  have heng : (s.setEng n p).engOf n = p := State.engOf_setEng_same hengs
  have harm := State.arm_onTime (s := s.setEng n p) (n := n) (i := x.idx + 1) (ord := 0) (w := w) (x := x.looked) hanc
    (by rw [heng, hp]; exact h.frameless) hready hlate (by rw [heng, hp]; exact h.unplanned) (by rw [heng, hp]; rfl)
    (Exec.looked_closed h) (sPlays_of_op (by omega))
  rw [heng, State.setEng_setEng hengs] at harm
  have hnext : p.next = x.idx + 1 := hp ▸ rfl
  rw [← hp]
  refine (State.walk_timed (s := s.setEng n p) (w := w) (by rw [heng, hp]; exact hlen) (by rw [heng, hp]; exact hent) hop
    (State.entryValid hop hspan hrange fun _ => ⟨hform, hfore⟩) (by rw [heng, hnext]; exact harm)).trans ?_
  rw [hp]
  rfl

/-- Under the policy ISSUE the anchored entry that follows is armed 300 ns on where its target does not lie far enough ahead. -/
theorem State.walk_late (hlate : 0 < s.lateBy s.cycleArm (s.anchorTarget s.cycleArm w)) (hpol : s.fld f_CH_SWEEP_CTL_late_policy n = 0) :
    State.walk n false bad 1200 16 (s.setEng n ((s.engOf n).pastLook x)) = (s.issuedLate n).setEng n { (s.engOf n).pastLook x with
      plan := [.planned (x.idx + 1) 0 w (.at (s.cycleArm + ns 300)) (s.anchorTarget s.cycleArm w)] } := by
  obtain ⟨p, hp⟩ : ∃ p, p = (s.engOf n).pastLook x := ⟨_, rfl⟩
  have heng : (s.setEng n p).engOf n = p := State.engOf_setEng_same hengs
  have harm := State.arm_late (s := s.setEng n p) (n := n) (i := x.idx + 1) (ord := 0) (w := w) (x := x.looked) hanc
    (by rw [heng, hp]; exact h.frameless) hready hlate hpol (by rw [heng, hp]; exact h.unplanned) (by rw [heng, hp]; rfl)
    (Exec.looked_closed h) (sPlays_of_op (by omega))
  have hput (y : Eng) : ((s.setEng n p).issuedLate n).setEng n y = (s.issuedLate n).setEng n y := by
    rw [State.issuedLate_setEng]
    exact State.setEng_setEng (s := s.issuedLate n) hengs p y
  have hcycle : (s.setEng n p).cycleArm = s.cycleArm := rfl
  rw [heng, hput, hcycle] at harm
  have hnext : p.next = x.idx + 1 := hp ▸ rfl
  rw [← hp]
  refine (State.walk_timed (s := s.setEng n p) (w := w) (by rw [heng, hp]; exact hlen) (by rw [heng, hp]; exact hent) hop
    (State.entryValid hop hspan hrange fun _ => ⟨hform, hfore⟩) (by rw [heng, hnext]; exact harm)).trans ?_
  rw [hp]
  rfl

end Followed

/-- A mark and END that follow take the end of the execution (R153, R161). -/
theorem State.walk_markEnd {w w' : BitVec 128} (hengs : Table.rising s.engs = true) (hlen : x.idx + 2 < (s.engOf n).len)
    (hent : (s.engOf n).entry? (x.idx + 1) = some w) (hop : sOp w = 6) (hanc : sAnc w = false)
    (hent' : (s.engOf n).entry? (x.idx + 2) = some w') (hop' : sOp w' = 0) (hv : sValue w' % 2 = 0) :
    State.walk n false bad 1200 16 (s.setEng n ((s.engOf n).pastLook x)) = s.setEng n { (s.engOf n).pastLook x with
      next := x.idx + 2, marks := [(⟨sValue w % 65536, sTrig w, .at (x.ends u)⟩ : Mark)], stop := some (1, .at (x.ends u)) } := by
  obtain ⟨p, hp⟩ : ∃ p, p = (s.engOf n).pastLook x := ⟨_, rfl⟩
  have heng (z : Eng) : (s.setEng n z).engOf n = z := State.engOf_setEng_same hengs
  have hlast {z : Eng} (hz : z.plan = []) (hcur : z.cur = some x.looked) : ((s.setEng n z).engOf n).last = some x.looked := by
    rw [heng, Eng.last_cur hz, hcur]
  have hdue {z : Eng} (hz : z.plan = []) (hcur : z.cur = some x.looked) : (s.setEng n z).markDue n = .at (x.ends u) :=
    State.markDue_last (hlast hz hcur) (Exec.looked_closed h) (State.endOf_looked h)
  have hpplan : p.plan = [] := hp ▸ h.unplanned
  have hpcur : p.cur = some x.looked := hp ▸ rfl
  obtain ⟨q, hq⟩ : ∃ q, q = { p with
    next := p.next + 1, marks := p.marks ++ [(⟨sValue w % 65536, sTrig w, .at (x.ends u)⟩ : Mark)] } := ⟨_, rfl⟩
  have hqplan : q.plan = [] := hq ▸ hpplan
  have hqcur : q.cur = some x.looked := hq ▸ hpcur
  have hmark := State.walk_mark (s := s.setEng n p) (n := n) (w := w) (k := 1199) (c := 16) (bad := bad) (by decide)
    (by rw [heng, hp]; exact Nat.lt_of_succ_lt hlen) (by rw [heng, hp]; exact hent) hop hanc
  rw [heng, hdue hpplan hpcur, State.setEng_setEng hengs, ← hq] at hmark
  have hend := State.walk_end (s := s.setEng n q) (n := n) (w := w') (k := 1198) (c := 16 - 1) (bad := bad) (by decide)
    (by rw [heng, hq, hp]; exact hlen) (by rw [heng, hq, hp]; exact hent') hop' hv
  rw [heng, hdue hqplan hqcur, State.setEng_setEng hengs] at hend
  have hask : (s.setEng n q).askStop n 1 (.at (x.ends u)) = s.setEng n { q with stop := some (1, .at (x.ends u)) } := by
    have hstop : q.stop = none := by rw [hq, hp]; exact h.unstopped
    have hst : q.state = .running := by rw [hq, hp]; exact h.running
    unfold State.askStop
    simp only [heng, hstop, hst, true_or, if_true, Bool.false_eq_true, if_false, reduceCtorEq, State.setEng_setEng hengs]
  have hclosed : (s.setEng n { q with stop := some (1, .at (x.ends u)) }).closeLast n none =
      s.setEng n { q with stop := some (1, .at (x.ends u)) } :=
    State.closeLast_closed (x := x.looked) (hlast hqplan hqcur) (Exec.looked_closed h)
  rw [← hp]
  refine (hmark.trans (hend.trans ((congrArg (State.closeLast · n none) hask).trans hclosed))).trans ?_
  rw [hq, hp]
  simp only [Eng.pastLook, h.unmarked, List.nil_append]

end Running

end Look

/-- The registers that count and report an entry issued late. -/
def lateRegs (n : Nat) : List Nat :=
  [regAddr .CH_SWEEP_LATE_COUNT n 0, regAddr .TB_LATE_COUNT 0 0, regAddr .TB_EVENTS 0 0, regAddr .CH_SWEEP_EVENTS n 0]

/-- An entry that is issued late is counted and reported (R152). -/
theorem State.issuedLate_reports {s : State} {n : Nat} (h : Table.rising s.regs = true) :
    (s.issuedLate n).on f_CH_SWEEP_EVENTS_late n = true ∧ (s.issuedLate n).on f_TB_EVENTS_late = true ∧
      (s.issuedLate n).fld f_CH_SWEEP_LATE_COUNT_count n = min 0xFFFF (s.fld f_CH_SWEEP_LATE_COUNT_count n + 1) ∧
      Table.SameBut (lateRegs n) s.regs (s.issuedLate n).regs := by
  obtain ⟨s1, h1⟩ : ∃ s1, s1 = s.tally f_CH_SWEEP_LATE_COUNT_count 1 n := ⟨_, rfl⟩
  obtain ⟨s2, h2⟩ : ∃ s2, s2 = s1.tally f_TB_LATE_COUNT_count 1 := ⟨_, rfl⟩
  obtain ⟨s3, h3⟩ : ∃ s3, s3 = s2.stick f_TB_EVENTS_late := ⟨_, rfl⟩
  have r1 : Table.rising s1.regs = true := h1 ▸ State.rising_tally h ..
  have r2 : Table.rising s2.regs = true := h2 ▸ State.rising_tally r1 ..
  have r3 : Table.rising s3.regs = true := h3 ▸ State.rising_stick r2 ..
  have b1 : Table.SameBut [regAddr .CH_SWEEP_LATE_COUNT n 0] s.regs s1.regs := h1 ▸ State.sameBut_tally h f_CH_SWEEP_LATE_COUNT_count 1 n
  have b2 : Table.SameBut [regAddr .TB_LATE_COUNT 0 0] s1.regs s2.regs := h2 ▸ State.sameBut_tally r1 f_TB_LATE_COUNT_count 1 0
  have b3 : Table.SameBut [regAddr .TB_EVENTS 0 0] s2.regs s3.regs := h3 ▸ State.sameBut_stick r2 f_TB_EVENTS_late 0
  have b4 : Table.SameBut [regAddr .CH_SWEEP_EVENTS n 0] s3.regs (s3.stick f_CH_SWEEP_EVENTS_late n).regs :=
    State.sameBut_stick r3 f_CH_SWEEP_EVENTS_late n
  have hs : s.issuedLate n = s3.stick f_CH_SWEEP_EVENTS_late n := by rw [h3, h2, h1, State.issuedLate, State.countLate]
  have hcount : s1.fld f_CH_SWEEP_LATE_COUNT_count n = min 0xFFFF (s.fld f_CH_SWEEP_LATE_COUNT_count n + 1) := by
    rw [h1]
    exact State.fld_tally h 1 n (by decide)
  rw [hs]
  refine ⟨State.on_stick r3 n (by decide) (by decide), ?_, ?_, ?_⟩
  · rw [State.on_sameBut b4 (by simp only [regAddr, regRow, blkBase, f_TB_EVENTS_late, List.mem_singleton]; omega), h3]
    exact State.on_stick r2 0 (by decide) (by decide)
  · rw [State.fld_sameBut b4 (by simp only [regAddr, regRow, blkBase, f_CH_SWEEP_LATE_COUNT_count, List.mem_singleton]; omega),
      State.fld_sameBut b3 (by simp only [regAddr, regRow, blkBase, f_CH_SWEEP_LATE_COUNT_count, List.mem_singleton]; omega),
      State.fld_sameBut b2 (by simp only [regAddr, regRow, blkBase, f_CH_SWEEP_LATE_COUNT_count, List.mem_singleton]; omega), hcount]
  · exact (b1.mono (by simp [lateRegs])).trans ((b2.mono (by simp [lateRegs])).trans ((b3.mono (by simp [lateRegs])).trans
      (b4.mono (by simp [lateRegs]))))

/-- Settles O27. -/
theorem lookAheadPoints : Obligations.LookAheadPoints := by
  intro s t n hcan hpow hn
  obtain ⟨b, hb⟩ : ∃ b, s.begin t = b := ⟨_, rfl⟩
  have hcb : b.canonical := hb ▸ State.canonical_begin hcan t
  have hregs : Table.rising b.regs = true := hcb.fine.regs
  have hengs : Table.rising b.engs = true := hcb.fine.engs
  rw [hb]
  have hok : isChan n = true := by simpa [isChan] using hn
  refine ⟨fun hidle => ?_, fun d u x hrun hstop hstall hplan hframe hmarks hcur hlook hstart hend hop hd hd0 => ?_⟩
  · refine .runs hb hpow rfl hok ?_ (OnlyChanges.refl _ _) trivial
    have hearly : b.issueEarly n false = b := by simp [State.issueEarly, hidle]
    unfold State.lookAhead
    simp [hearly, hidle]
  subst hd
  have hx : (b.engOf n).Runs x u := ⟨hrun, hstop, hplan, hframe, hmarks, hcur, hlook, hstart, hend, sDwells_of_op hop, hd0⟩
  -- what an entry that is armed leads to, from the walk that arms it
  have hon (e' : State) (e : Eng) (hregs' : Table.rising e'.regs = true) (hengs' : e'.engs = b.engs)
      (hframe : OnlyChanges [.engs, .memc, .regs] b e') (hc : (x.ends u - ns 300) / 256 ≤ b.cycle) (hord : sRepeat x.word ≤ x.ord)
      (hwalk : State.walk n false false 1200 16 (b.setEng n ((b.engOf n).pastLook x)) = e'.setEng n e)
      (hfetch : e.fetch = (b.engOf n).fetch) (hm : ∀ k ∈ e.marks, e'.ahead k.due) (hs : ∀ p ∈ e.stop, e'.ahead p.2)
      {P : State → State → Prop} (hP : ∀ (z : State) lo buf f, z.engOf n = { e with bufLo := lo, buf := buf, fetch := f } →
        Table.SameBut [n] b.engs z.engs → Table.SameBut wakeRegs e'.regs z.regs → P b z) :
      Completes (.lookAheadPoint t n false) t s [.engs, .memc, .regs] P := by
    obtain ⟨r, m, lo, buf, f, hlook, hr⟩ := State.lookAhead_on hx hengs hregs' (hengs' ▸ hengs) hc hstall hord hwalk hfetch hm hs
    obtain ⟨y, hy⟩ : ∃ y, y = { e with bufLo := lo, buf := buf, fetch := f } := ⟨_, rfl⟩
    obtain ⟨e'', he⟩ : ∃ e'', e'' = { e' with regs := r, memc := m } := ⟨_, rfl⟩
    rw [← hy, ← he] at hlook
    have hengs'' : e''.engs = b.engs := by rw [he, hengs']
    refine .runs hb hpow rfl hok hlook ((he ▸ (hframe.regs (by decide) r).memc (by decide) m : OnlyChanges _ b e'').engs (by decide) _) ?_
    refine hP _ lo buf f (hy ▸ State.engOf_setEng_same (hengs'' ▸ hengs)) ?_ (he ▸ hr)
    exact hengs'' ▸ State.sameBut_setEng (s := e'') (hengs'' ▸ hengs) y
  have hstay : ∀ p ∈ ((b.engOf n).pastLook x).stop, b.ahead p.2 := by simp [Eng.pastLook, hstop]
  have hnone : ∀ k ∈ ((b.engOf n).pastLook x).marks, b.ahead k.due := by simp [Eng.pastLook, hmarks]
  refine ⟨fun hc => ?_, fun hc hord hanc => ?_, fun w hc hord hlen hent hop' hspan hrange => ⟨fun hanc => ?_, fun hanc hform hfore hready hlate => ?_,
    fun hanc hform hfore hready hlate hpol => ?_⟩, fun w w' hc hnow hord hlen hent hop' hanc hent' hop'' hv => ?_⟩
  · exact .runs hb hpow rfl hok (State.lookAhead_before hx hc) (OnlyChanges.refl _ _) trivial
  · refine .runs hb hpow rfl hok (State.lookAhead_again hx hengs hc hstall hord hanc (by omega) (by omega))
      ((OnlyChanges.refl _ _).engs (by decide) _) ?_
    rw [State.engOf_setEng_same hengs, State.newExec_planned (sPlays_of_op (by omega))]
    exact ⟨rfl, State.sameBut_setEng hengs _⟩
  · refine hon b _ hregs rfl (OnlyChanges.refl _ _) hc hord (State.walk_unanchored hx hengs hlen hent hop' hspan hrange hanc) rfl hnone hstay ?_
    intro z lo buf f hz hsame hr
    rw [hz, State.newExec_planned (sPlays_of_op (by omega))]
    exact ⟨rfl, rfl, rfl, hrun, hstop, hsame, hr⟩
  · refine hon b _ hregs rfl (OnlyChanges.refl _ _) hc hord
      (State.walk_onTime hx hengs hlen hent hop' hspan hrange hanc hform hfore hready hlate) rfl hnone hstay ?_
    intro z lo buf f hz hsame hr
    dsimp only
    rw [hz, State.newExec_planned (sPlays_of_op (by omega))]
    exact ⟨rfl, rfl, hstop, hsame, hr⟩
  · obtain ⟨h1, h2, h3, h4⟩ := State.issuedLate_reports (n := n) hregs
    obtain ⟨e', he'⟩ : ∃ e', e' = b.issuedLate n := ⟨_, rfl⟩
    have hwalk := State.walk_late (bad := false) hx hengs hlen hent hop' hspan hrange hanc hform hfore hready hlate hpol
    have hframe : OnlyChanges [.engs, .memc, .regs] b e' := by
      rw [he', State.issuedLate, State.countLate]
      exact ((((OnlyChanges.refl _ _).tally (by decide) _ _ _).tally (by decide) _ _ _).stick (by decide) _ _).stick (by decide) _ _
    have hregs' : Table.rising e'.regs = true := by
      rw [he', State.issuedLate, State.countLate]
      exact State.rising_stick (State.rising_stick (State.rising_tally (State.rising_tally hregs ..) ..) ..) ..
    rw [← he'] at hwalk h1 h2 h3 h4
    refine hon e' _ hregs' (he' ▸ rfl) hframe hc hord hwalk rfl ?_ ?_ ?_
    · simp [Eng.pastLook, hmarks]
    · simp [Eng.pastLook, hstop]
    intro z lo buf f hz hsame hr
    dsimp only
    rw [hz]
    refine ⟨⟨_, rfl, rfl, rfl, rfl, rfl⟩, hstop, hsame, ?_, ?_, ?_, ?_⟩
    · rw [State.on_sameBut hr (not_mem_wakeRegs (by simp only [regAddr, regRow, blkBase, f_CH_SWEEP_EVENTS_late]; omega))]
      exact h1
    · rw [State.on_sameBut hr (not_mem_wakeRegs (by decide))]
      exact h2
    · rw [State.fld_sameBut hr
        (not_mem_wakeRegs (by simp only [regAddr, regRow, blkBase, f_CH_SWEEP_LATE_COUNT_count]; omega))]
      exact h3
    · exact (h4.mono (List.subset_append_left _ wakeRegs)).trans (hr.mono (List.subset_append_right (lateRegs n) _))
  · refine hon b _ hregs rfl (OnlyChanges.refl _ _) hc hord (State.walk_markEnd hx hengs hlen hent hop' hanc hent' hop'' hv) rfl ?_ ?_ ?_
    · intro k hk
      rw [List.mem_singleton.1 hk]
      exact ⟨_, rfl, hnow⟩
    · intro p hp
      rw [← Option.some.inj hp]
      exact ⟨_, rfl, hnow⟩
    intro z lo buf f hz hsame hr
    rw [hz]
    exact ⟨rfl, rfl, hplan, hsame, hr⟩

end Sys2Proof.Machine
end

section
/-!
PROOFS. Advances and timeouts (R157, R166, R167): what a waiting execution takes from an advance, and how it ends without one.
-/

namespace Sys2Proof.Machine

open Sys2Proof

section Waits
variable {s : State} {n : Nat} {x : Exec}

/-- An execution that an advance may end or lead on: it runs, no stop was taken in the event cycle, and its end is open. -/
structure State.Awaits (s : State) (n : Nat) (x : Exec) : Prop where
  running : (s.engOf n).state = .running
  unstopped : (s.engOf n).stopCycle ≠ some s.cycle
  current : (s.engOf n).cur = some x
  unended : x.endAt = none

theorem State.consumeAdvance_none (hc : (s.engOf n).cur = some x) (h : s.pendOf (inAdvance n) = 0) : s.consumeAdvance n = s := by
  unfold State.consumeAdvance
  simp [hc, h]

/-- The state after an advance is taken: one pending advance less, and the execution as `y`. -/
def State.advanced (s : State) (n : Nat) (y : Exec) : State :=
  (s.setPend (inAdvance n) (s.pendOf (inAdvance n) - 1)).setEng n { s.engOf n with cur := some y, advCycle := some s.cycle }

theorem State.afterCycle_setPend (i v : Nat) : (s.setPend i v).afterCycle 300 = (s.cycle + 301) * 256 := by
  unfold State.afterCycle
  rw [Nat.add_assoc]
  rfl

theorem State.cycle_setPend (i v : Nat) : (s.setPend i v).cycle = s.cycle := rfl

variable (h : s.Awaits n x) (hp : s.pendOf (inAdvance n) ≠ 0) (hadv : (s.engOf n).advCycle ≠ some s.cycle)
include h hp hadv

/-- A WAIT_ANCHOR without a timeout ends 300 ns after the event cycle of the advance (R157). -/
theorem State.consumeAdvance_wait (hop : sOp x.word = 4) (hanc : sAnc x.word = false) (hv : sValue x.word = 0) :
    s.consumeAdvance n = s.advanced n { x with endAt := some (.at ((s.cycle + 301) * 256)) } := by
  have hwait : sWaits x.word = true := by simp [sWaits, hop, hanc]
  have htime (u : State) : u.timeoutOf x = none := by simp [State.timeoutOf, hv]
  have hend : s.endOf x = none := by simp [State.endOf, h.unended, sDwells, hop, hwait, htime]
  unfold State.consumeAdvance
  simp only [h.current, hend, h.running, h.unstopped, h.unended, hp, hadv, hwait, htime, Bool.true_or, Bool.not_true, Bool.false_eq_true,
    Option.isSome_none, reduceCtorEq, or_false, if_false, if_true, State.advanced, State.afterCycle_setPend, State.cycle_setPend]

/-- A mould played per advance places its next point 300 ns after the event cycle of the advance (R167). -/
theorem State.consumeAdvance_point (hop : sOp x.word = 5) (hplay : sPlay x.word = 2)
    (hmore : sRepeat x.word = 0xFFFF ∨ x.placed < x.mLen * (sRepeat x.word + 1)) :
    s.consumeAdvance n = s.advanced n { x with points := x.points ++ [(x.placed, .at ((s.cycle + 301) * 256))], placed := x.placed + 1 } := by
  have hwait : sWaits x.word = false := by simp [sWaits, hop]
  have hplays : sPlays x.word = true := by simp [sPlays, hop]
  have hend : s.endOf x = none := by
    simp only [State.endOf, h.unended, sDwells, hop, hwait, hplays, hplay]
    cases x.total <;> rfl
  have htotal : ∀ m, x.total = some m → ¬ m ≤ x.placed := by
    intro m hm
    unfold Exec.total at hm
    split at hm
    · cases hm
    · rename_i hne
      have := Option.some.inj hm
      have := hmore.resolve_left hne
      omega
  unfold State.consumeAdvance
  simp only [h.current, hend, h.running, h.unstopped, h.unended, hp, hadv, hwait, hplays, hplay, Bool.false_or, Bool.and_self, decide_true,
    Bool.not_true, Bool.false_eq_true, Option.isSome_none, reduceCtorEq, or_false, if_false, State.advanced, State.afterCycle_setPend, State.cycle_setPend]
  cases ht : x.total with
  | none => rfl
  | some m => simp only [htotal m ht, if_false]

end Waits

section Timeouts
variable {s : State} {n u : Nat} {x : Exec}

/-- The instant at which a WAIT_ANCHOR times out (R157). -/
theorem State.timeoutOf_at (hop : sOp x.word = 4) (hanc : sAnc x.word = false) (hv : sValue x.word ≠ 0) (hs : x.start = .at u) :
    s.timeoutOf x = some (.at (u + sValue x.word * 65536)) := by
  have hwait : sWaits x.word = true := by simp [sWaits, hop, hanc]
  unfold State.timeoutOf
  rw [if_pos ⟨hwait, hv⟩, hs]
  exact congrArg some (if_neg hv)

theorem State.waitTimeout_early {v : Nat} (hc : (s.engOf n).cur = some x) (ht : s.timeoutOf x = some (.at v)) (hnow : s.now < v) :
    s.waitTimeout n = s := by
  unfold State.waitTimeout
  simp [hc, ht, State.came, hnow]

theorem State.waitTimeout_ends {v : Nat} (h : s.Awaits n x) (ht : s.timeoutOf x = some (.at v)) (hnow : v ≤ s.now)
    (hfirst : x.timedOut = false) :
    s.waitTimeout n = (s.stick f_CH_SWEEP_EVENTS_wait_timeout n).setEng n { s.engOf n with
      cur := some { x with endAt := some (.at v), timedOut := true } } := by
  unfold State.waitTimeout
  simp [h.current, ht, State.came, hnow, h.running, hfirst, h.unended]

end Timeouts

/-- Settles O28. -/
theorem advancesAndTimeouts : Obligations.AdvancesAndTimeouts := by
  intro s t n x hcan hpow hn
  obtain ⟨b, hb⟩ : ∃ b, s.begin t = b := ⟨_, rfl⟩
  have hcb : b.canonical := hb ▸ State.canonical_begin hcan t
  have hregs : Table.rising b.regs = true := hcb.fine.regs
  have hengs : Table.rising b.engs = true := hcb.fine.engs
  have hpend : Table.rising b.evm.pend = true := hcb.fine.pend
  rw [hb]
  have hok : isChan n = true := by simpa [isChan] using hn
  intro hrun hstop hcur hend
  have hx : b.Awaits n x := ⟨hrun, hstop, hcur, hend⟩
  -- what an advance that is taken leads to
  have htaken (y : State → Exec) (hp : b.pendOf (inAdvance n) ≠ 0) (he : b.consumeAdvance n = b.advanced n (y b)) :
      Completes (.advanceConsumed t n) t s [.engs, .evm] fun b e =>
        e.engOf n = { b.engOf n with cur := some (y b), advCycle := some b.cycle } ∧ Table.SameBut [n] b.engs e.engs ∧
          e.pendOf (inAdvance n) + 1 = b.pendOf (inAdvance n) ∧ Table.SameBut [inAdvance n] b.evm.pend e.evm.pend := by
    refine .runs hb hpow rfl hok he (((OnlyChanges.refl _ _).evm (by decide) _).engs (by decide) _) ?_
    obtain ⟨p, hpeq⟩ : ∃ p, p = b.pendOf (inAdvance n) - 1 := ⟨_, rfl⟩
    have hone : (b.advanced n (y b)).pendOf (inAdvance n) = p := by
      rw [hpeq]
      exact Table.get_put_same hpend
    refine ⟨State.engOf_setEng_same hengs, State.sameBut_setEng hengs _, ?_, .put hpend _ _ _⟩
    rw [hone, hpeq]
    omega
  refine ⟨fun hp => ?_, fun hp hadv hop hanc hv => ?_, fun hp hadv hop hplay hmore => ?_, fun u hop hanc hv hs hfirst => ⟨fun hnow => ?_, fun hnow => ?_⟩⟩
  · exact .runs hb hpow rfl hok (State.consumeAdvance_none hcur hp) (OnlyChanges.refl _ _) trivial
  · exact htaken (fun b => { x with endAt := some (.at ((b.cycle + 301) * 256)) }) hp (State.consumeAdvance_wait hx hp hadv hop hanc hv)
  · exact htaken (fun b => { x with points := x.points ++ [(x.placed, .at ((b.cycle + 301) * 256))], placed := x.placed + 1 }) hp
      (State.consumeAdvance_point hx hp hadv hop hplay hmore)
  · exact .runs hb hpow rfl hok (State.waitTimeout_early hcur (State.timeoutOf_at hop hanc hv hs) hnow) (OnlyChanges.refl _ _) trivial
  · refine .runs hb hpow rfl hok (State.waitTimeout_ends hx (State.timeoutOf_at hop hanc hv hs) hnow hfirst)
      (((OnlyChanges.refl _ _).stick (by decide) _ _).engs (by decide) _) ?_
    exact ⟨State.engOf_setEng_same (s := b.stick f_CH_SWEEP_EVENTS_wait_timeout n) hengs,
      State.sameBut_setEng (s := b.stick f_CH_SWEEP_EVENTS_wait_timeout n) hengs _, State.on_stick (s := b) hregs n (by decide) (by decide),
      State.sameBut_stick hregs f_CH_SWEEP_EVENTS_wait_timeout n⟩

end Sys2Proof.Machine
end

section
/-!
PROOFS. Executions and mould points that are due (R147, R155, R156, R162, R165, R168): the DAC frame that they begin, and the command they issue.
-/

namespace Sys2Proof.Machine

open Sys2Proof

section Steady
variable {s : State} {n a k u : Nat} {meas : Int} {bad : Bool} {c : ForceCmd}

/-- A channel that forces voltage with no change under way, no autorange and no calender. -/
structure State.Steady (s : State) (n : Nat) : Prop where
  forces : (s.forceOf n).st = .forcingV
  mode : (s.forceOf n).mode = false
  steps : (s.forceOf n).steps = []
  stays : (s.forceOf n).disabling = false
  enabled : s.on f_CH_CTL_enable n = true
  manual : s.on f_CH_MEAS_CTL_autorange n = false
  direct : s.on f_CH_CALENDER_enable n = false

/-- A DAC frame of such a channel forces the target at once (R85, R86). -/
theorem State.dacBoundary_steady (hf : Table.rising s.force = true) (h : s.Steady n) (hfast : (s.forceOf n).fast = false) :
    ∃ y : Force, s.dacBoundary n a k meas = s.setForce n y ∧ y.st = .forcingV ∧ y.target = (s.forceOf n).target ∧
      y.present = (s.forceOf n).target ∧ y.dac = clampCode ((s.forceOf n).target + y.corr) ∧ y.deckle = s.rd .CH_DECKLE n ∧ y.frameAt = a := by
  have hcal : s.calendered n a k = { s.frameOpened n a with rate := (s.forceOf n).rate + k, present := (s.forceOf n).target } := by
    unfold State.calendered
    rw [h.direct, Force.calender_off (x := s.frameOpened n a) h.steps hfast]
    rfl
  obtain ⟨corr, hcorr, -, -⟩ := (s.calendered n a k).correct_keeps (k := k)
  obtain ⟨y, hy⟩ : ∃ y, y = s.released n a k := ⟨_, rfl⟩
  have hy' : y = { s.frameOpened n a with
      rate := (s.forceOf n).rate + k, present := (s.forceOf n).target, corr, dac := clampCode ((s.forceOf n).target + corr), fast := false } := by
    rw [hy]
    unfold State.released
    rw [hcorr, hcal]
    simp [State.frameOpened, hfast]
  refine ⟨y, hy ▸ State.dacBoundary_forcing hf h.forces h.steps h.stays, ?_⟩
  rw [hy']
  exact ⟨h.forces, rfl, rfl, rfl, rfl, rfl⟩

/-- What the command of an engine makes of the channel's record. -/
def Force.aimed (x : Force) (code : Int) : Force := { x with st := .forcingV, target := code, fast := false }

/-- A command in the mode, span and range in force is carried out at once (R82, R162). -/
theorem State.engineForce_steady (hregs : Table.rising s.regs = true) (h : s.Steady n) (hmode : c.mode = false)
    (hspan : c.span = (s.forceOf n).span) (hspan3 : c.span ≠ 3) (hrange : c.range = (s.forceOf n).range) (hrange6 : c.range < 6)
    (hfast : c.fast = false) :
    s.engineForce n c = (s.wr .CH_FORCE_SET c.word n).setForce n ((s.forceOf n).aimed c.code) := by
  have hst : (s.forceOf n).st ≠ .couching := by simp [h.forces]
  have hgo : s.forceRefused n c false = false := by
    unfold State.forceRefused
    rw [State.rangedCmd_plain (State.autorange_off h.manual)]
    simp [h.forces, h.enabled, h.stays, hspan3, Nat.ne_of_lt hrange6, show c.range ≠ 7 by omega]
  unfold State.engineForce
  rw [hgo, if_neg Bool.false_ne_true, State.acceptForce_now hregs h.manual h.steps (by simp [h.forces]),
    Force.apply_same h.steps hst hspan hrange (hmode.trans h.mode.symm), hmode, hfast]
  rfl

end Steady

section Frames
variable {s : State} {n a k : Nat} {meas : Int}

/-- What closes an execution's start: the engine fills its buffer up, and the frame forces the target. -/
theorem State.topUp_dacBoundary (hregs : Table.rising s.regs = true) (hf : Table.rising s.force = true) (h : s.Steady n)
    (hfast : (s.forceOf n).fast = false) : ∃ r m lo buf f, ∃ y : Force,
      (s.topUp n).dacBoundary n a k meas =
        (({ s with regs := r, memc := m } : State).setEng n { s.engOf n with bufLo := lo, buf := buf, fetch := f }).setForce n y ∧
      Table.SameBut wakeRegs s.regs r ∧ y.st = .forcingV ∧ y.target = (s.forceOf n).target ∧ y.present = (s.forceOf n).target ∧
      y.dac = clampCode ((s.forceOf n).target + y.corr) ∧ y.deckle = s.rd .CH_DECKLE n ∧ y.frameAt = a := by
  obtain ⟨r, m, lo, buf, f, htop, hr⟩ := State.topUp_fills (n := n) hregs
  obtain ⟨t, ht⟩ : ∃ t, t = ({ s with regs := r, memc := m } : State).setEng n { s.engOf n with bufLo := lo, buf := buf, fetch := f } := ⟨_, rfl⟩
  have hsame : Table.SameBut wakeRegs s.regs t.regs := ht ▸ hr
  have htf : t.force = s.force := ht ▸ rfl
  have hforce : t.forceOf n = s.forceOf n := by unfold State.forceOf; rw [htf]
  have hon (f : Fld) (hf : regAddr f.reg n 0 ≠ regAddr .MEMC_SR_STATS 0 0 ∧ regAddr f.reg n 0 ≠ regAddr .MEMC_EVENTS 0 0) :
      t.on f n = s.on f n := State.on_sameBut hsame (not_mem_wakeRegs hf)
  have hsteady : t.Steady n := by
    refine ⟨?_, ?_, ?_, ?_, ?_, ?_, ?_⟩
    · rw [hforce]; exact h.forces
    · rw [hforce]; exact h.mode
    · rw [hforce]; exact h.steps
    · rw [hforce]; exact h.stays
    · exact (hon _ (by simp only [regAddr, regRow, blkBase, f_CH_CTL_enable]; omega)).trans h.enabled
    · exact (hon _ (by simp only [regAddr, regRow, blkBase, f_CH_MEAS_CTL_autorange]; omega)).trans h.manual
    · exact (hon _ (by simp only [regAddr, regRow, blkBase, f_CH_CALENDER_enable]; omega)).trans h.direct
  obtain ⟨y, hd, h1, h2, h3, h4, h5, h6⟩ := State.dacBoundary_steady (a := a) (k := k) (meas := meas) (htf ▸ hf) hsteady
    (by rw [hforce]; exact hfast)
  rw [hforce] at h2 h3 h4
  have hdeckle : t.rd .CH_DECKLE n = s.rd .CH_DECKLE n :=
    hsame _ (not_mem_wakeRegs (by simp only [regAddr, regRow, blkBase]; omega)) _
  refine ⟨r, m, lo, buf, f, y, ?_, hr, h1, h2, h3, h4, h5.trans hdeckle, h6⟩
  rw [htop, ← ht, hd]

end Frames

section Start
variable {s : State} {n u : Nat} {meas : Int} {bad : Bool} {x : Exec} {rest : List Exec}

/-- The engine once the first execution planned has started. -/
def Eng.started (e : Eng) (x : Exec) (rest : List Exec) (plays : Nat) : Eng :=
  { e with plays, cur := some { x with placed := 1 }, plan := rest, pos := BitVec.ofNat 32 (x.ord % 256 * 2 ^ 24 + x.idx) }

theorem State.startExec_early (hp : (s.engOf n).plan = x :: rest) (hs : x.start = .at u) (hnow : s.now < u) : s.startExec n meas bad = s := by
  unfold State.startExec
  simp [hp, hs, State.came, hnow]

/-- An engine that runs with no mark, stop or stall, and whose first execution planned is due. -/
structure State.Due (s : State) (n u : Nat) (x : Exec) (rest : List Exec) : Prop where
  running : (s.engOf n).state = .running
  unstopped : (s.engOf n).stop = none
  unstalled : (s.engOf n).stall = false
  unmarked : (s.engOf n).marks = []
  planned : (s.engOf n).plan = x :: rest
  starts : x.start = .at u
  due : u ≤ s.now
  profile : sPsel x.word = false
  silent : sTrig x.word = false

/-- The state once the first execution has started the next DAC frame, before its command. -/
def State.startedAt (s : State) (n u : Nat) (x : Exec) (rest : List Exec) : State :=
  (s.rephase n u).setEng n ((s.engOf n).started x rest ((s.rephase n u).playsDone n))

theorem State.startExec_due (hengs : Table.rising s.engs = true) (h : s.Due n u x rest) (hop : sOp x.word = 1 ∨ sOp x.word = 3) : ∃ f,
    s.startExec n meas bad = ((if sOp x.word = 1 then
      ((s.startedAt n u x rest).entryDeckle n x.word).engineForce n
        ⟨false, sSpan x.word, sRange x.word, signed 24 (sValue x.word), sFast x.word⟩
      else s.startedAt n u x rest).topUp n).dacBoundary n u f meas := by
  have hb : min s.now ((s.whenAt x.start).getD s.now) = u := by
    rw [h.starts]
    exact Nat.min_eq_right h.due
  have hstop (v : Nat) : (s.rephase n v).sweepBoundary n = s.rephase n v :=
    State.sweepBoundary_none (s := s.rephase n v) h.unmarked h.unstopped h.unstalled
  have hkeep (v : Nat) : (s.rephase n v).keepPlays n = (s.rephase n v).setEng n { s.engOf n with plays := (s.rephase n v).playsDone n } := rfl
  have hput (v : Nat) (y z : Eng) : ((s.rephase n v).setEng n y).setEng n z = (s.rephase n v).setEng n z :=
    State.setEng_setEng (s := s.rephase n v) hengs y z
  have heng (v : Nat) (y : Eng) : ((s.rephase n v).setEng n y).engOf n = y := State.engOf_setEng_same (s := s.rephase n v) hengs
  have hcame : s.came x.start = true := by simp [h.starts, State.came, h.due]
  have hrun (v : Nat) : ((s.rephase n v).engOf n).state = .running := h.running
  have hx : { x with start := .at u, placed := 1 } = { x with placed := 1 } := by rw [← h.starts]
  refine ⟨s.framesTo n u, ?_⟩
  unfold State.startExec
  rcases hop with hop | hop <;>
    simp only [h.planned, h.running, hcame, hb, hstop, hrun, hkeep, hput, heng, h.profile, h.silent, hop, hx, reduceCtorEq, Bool.not_true,
      Bool.false_eq_true, false_and, or_self, if_false, if_true, State.startedAt, Eng.started] <;> rfl

end Start

section Steadies
variable {s : State} {n u : Nat} {x : Exec} {rest : List Exec}

theorem State.Steady.rephase (hf : Table.rising s.force = true) (h : s.Steady n) : (s.rephase n u).Steady n := by
  have hx : (s.rephase n u).forceOf n = { s.forceOf n with frameAt := u } := State.forceOf_setForce_same hf
  exact ⟨by rw [hx]; exact h.forces, by rw [hx]; exact h.mode, by rw [hx]; exact h.steps, by rw [hx]; exact h.stays, h.enabled, h.manual,
    h.direct⟩

theorem State.Steady.setEng (h : s.Steady n) (e : Eng) : (s.setEng n e).Steady n :=
  ⟨h.forces, h.mode, h.steps, h.stays, h.enabled, h.manual, h.direct⟩

theorem State.Steady.aimed (hf : Table.rising s.force = true) (h : s.Steady n) (code : Int) :
    (s.setForce n ((s.forceOf n).aimed code)).Steady n := by
  have hx : (s.setForce n ((s.forceOf n).aimed code)).forceOf n = (s.forceOf n).aimed code := State.forceOf_setForce_same hf
  exact ⟨by rw [hx]; rfl, by rw [hx]; exact h.mode, by rw [hx]; exact h.steps, by rw [hx]; exact h.stays, h.enabled, h.manual, h.direct⟩

/-- A write of the channel's deckle or of its force command leaves the channel steady. -/
theorem State.Steady.wr (hregs : Table.rising s.regs = true) (h : s.Steady n) {r : Reg} (hr : r = .CH_DECKLE ∨ r = .CH_FORCE_SET) (w : Word) :
    (s.wr r w n).Steady n := by
  have hon (f : Fld) (hf : regAddr f.reg n 0 ≠ regAddr .CH_DECKLE n 0 ∧ regAddr f.reg n 0 ≠ regAddr .CH_FORCE_SET n 0) :
      (s.wr r w n).on f n = s.on f n := by
    refine State.on_wr_other hregs ?_
    rcases hr with rfl | rfl
    · exact hf.1
    · exact hf.2
  exact ⟨h.forces, h.mode, h.steps, h.stays,
    (hon _ (by simp only [regAddr, regRow, blkBase, f_CH_CTL_enable]; omega)).trans h.enabled,
    (hon _ (by simp only [regAddr, regRow, blkBase, f_CH_MEAS_CTL_autorange]; omega)).trans h.manual,
    (hon _ (by simp only [regAddr, regRow, blkBase, f_CH_CALENDER_enable]; omega)).trans h.direct⟩

end Steadies

section Outcomes
variable {s : State} {n a k u : Nat} {meas : Int} {bad : Bool} {x : Exec} {rest : List Exec}

/-- The parts that the start of an execution may change. -/
def execParts : List Part := [.engs, .memc, .regs, .force]

/-- A state in which the records of channel `n` alone have changed. -/
structure State.Only (s t : State) (n : Nat) : Prop where
  frame : OnlyChanges execParts s t
  engs : Table.SameBut [n] s.engs t.engs
  force : Table.SameBut [n] s.force t.force
  risingEngs : Table.rising t.engs = true
  risingForce : Table.rising t.force = true

theorem State.Only.refl (he : Table.rising s.engs = true) (hf : Table.rising s.force = true) : s.Only s n :=
  ⟨.refl _ _, .refl _ _, .refl _ _, he, hf⟩

theorem State.Only.setEng {t : State} (h : s.Only t n) (e : Eng) : s.Only (t.setEng n e) n :=
  ⟨h.frame.engs (by decide) _, h.engs.trans (State.sameBut_setEng h.risingEngs e), h.force, State.rising_setEng h.risingEngs e, h.risingForce⟩

theorem State.Only.setForce {t : State} (h : s.Only t n) (y : Force) : s.Only (t.setForce n y) n :=
  ⟨h.frame.force (by decide) _, h.engs, h.force.trans (State.sameBut_setForce h.risingForce y), h.risingEngs, State.rising_setForce h.risingForce y⟩

theorem State.Only.wr {t : State} (h : s.Only t n) (r : Reg) (w : Word) (i j : Nat) : s.Only (t.wr r w i j) n :=
  ⟨h.frame.regs (by decide) _, h.engs, h.force, h.risingEngs, h.risingForce⟩

theorem State.Only.counts {t : State} (h : s.Only t n) (r : Table Word) (m : Memc) : s.Only { t with regs := r, memc := m } n :=
  ⟨(h.frame.regs (by decide) r).memc (by decide) m, h.engs, h.force, h.risingEngs, h.risingForce⟩

/-- What closes an execution's start: the engine fills its buffer up, and the frame forces the target. -/
theorem State.Only.frameEnds {t : State} (ho : s.Only t n) (hregs : Table.rising t.regs = true) (h : t.Steady n)
    (hfast : (t.forceOf n).fast = false) : ∃ e, (t.topUp n).dacBoundary n a k meas = e ∧ s.Only e n ∧ Table.SameBut wakeRegs t.regs e.regs ∧
      (∃ lo buf f, e.engOf n = { t.engOf n with bufLo := lo, buf := buf, fetch := f }) ∧ (e.forceOf n).st = .forcingV ∧
      (e.forceOf n).target = (t.forceOf n).target ∧ (e.forceOf n).present = (t.forceOf n).target ∧
      (e.forceOf n).dac = clampCode ((t.forceOf n).target + (e.forceOf n).corr) ∧ (e.forceOf n).deckle = t.rd .CH_DECKLE n ∧
      (e.forceOf n).frameAt = a := by
  obtain ⟨r, m, lo, buf, f, y, hd, hr, h1, h2, h3, h4, h5, h6⟩ := State.topUp_dacBoundary (a := a) (k := k) (meas := meas) hregs
    ho.risingForce h hfast
  obtain ⟨z, hz⟩ : ∃ z, z = { t.engOf n with bufLo := lo, buf := buf, fetch := f } := ⟨_, rfl⟩
  obtain ⟨v, hv⟩ : ∃ v, v = { t with regs := r, memc := m } := ⟨_, rfl⟩
  rw [← hz, ← hv] at hd
  have hvo : s.Only v n := hv ▸ ho.counts r m
  have hforce : ((v.setEng n z).setForce n y).forceOf n = y := State.forceOf_setForce_same (s := v.setEng n z) hvo.risingForce
  have heng : ((v.setEng n z).setForce n y).engOf n = z := State.engOf_setEng_same hvo.risingEngs
  refine ⟨_, hd, (hvo.setEng z).setForce y, (hv ▸ hr : Table.SameBut wakeRegs t.regs v.regs), ⟨lo, buf, f, heng.trans hz⟩, ?_⟩
  rw [hforce]
  exact ⟨h1, h2, h3, h4, h5, h6⟩

/-- The state in which an execution has started, before its command. -/
theorem State.startedAt_only (he : Table.rising s.engs = true) (hf : Table.rising s.force = true) (hs : s.Steady n) :
    ∃ p t, s.startedAt n u x rest = t ∧ s.Only t n ∧ t.regs = s.regs ∧ t.Steady n ∧ t.engOf n = (s.engOf n).started x rest p ∧
      t.forceOf n = { s.forceOf n with frameAt := u } := by
  obtain ⟨e, hz⟩ : ∃ e, e = (s.engOf n).started x rest ((s.rephase n u).playsDone n) := ⟨_, rfl⟩
  have ho : s.Only (s.rephase n u) n := (State.Only.refl he hf).setForce { s.forceOf n with frameAt := u }
  refine ⟨(s.rephase n u).playsDone n, (s.rephase n u).setEng n e, by rw [hz]; rfl, ho.setEng e, rfl, (hs.rephase hf).setEng e, ?_, ?_⟩
  · rw [← hz]
    exact State.engOf_setEng_same ho.risingEngs
  · exact State.forceOf_setForce_same hf

/-- HOLD keeps the command in force (R155). -/
theorem State.startExec_hold (hregs : Table.rising s.regs = true) (hforce : Table.rising s.force = true) (hengs : Table.rising s.engs = true)
    (hs : s.Steady n) (h : s.Due n u x rest) (hop : sOp x.word = 3) (hfast : (s.forceOf n).fast = false) :
    ∃ e, s.startExec n meas bad = e ∧ s.Only e n ∧ Table.SameBut wakeRegs s.regs e.regs ∧
      (∃ p lo buf f, e.engOf n = { (s.engOf n).started x rest p with bufLo := lo, buf := buf, fetch := f }) ∧
      (e.forceOf n).target = (s.forceOf n).target ∧ (e.forceOf n).frameAt = u := by
  obtain ⟨k, hstart⟩ := State.startExec_due (meas := meas) (bad := bad) hengs h (.inr hop)
  rw [hop, if_neg (by decide)] at hstart
  obtain ⟨p, t, ht, ho, hreg, hst, heng, hfo⟩ := State.startedAt_only (u := u) (x := x) (rest := rest) hengs hforce hs
  obtain ⟨e, he, hoe, hr, ⟨lo, buf, f, hee⟩, -, h2, -, -, -, h6⟩ := ho.frameEnds (a := u) (k := k) (meas := meas) (hreg ▸ hregs) hst
    (by rw [hfo]; exact hfast)
  rw [ht, he] at hstart
  rw [hfo] at h2
  exact ⟨e, hstart, hoe, hreg ▸ hr, ⟨p, lo, buf, f, hee.trans (by rw [heng])⟩, h2, h6⟩

/-- A command that the engine issues in steady state, with what it changes. -/
theorem State.Only.engineForce {t : State} {c : ForceCmd} (ho : s.Only t n) (hregs : Table.rising t.regs = true) (h : t.Steady n)
    (hmode : c.mode = false) (hspan : c.span = (t.forceOf n).span) (hspan3 : c.span ≠ 3) (hrange : c.range = (t.forceOf n).range)
    (hrange6 : c.range < 6) (hfast : c.fast = false) :
    ∃ e, t.engineForce n c = e ∧ s.Only e n ∧ e.regs = (t.wr .CH_FORCE_SET c.word n).regs ∧ e.Steady n ∧ e.engOf n = t.engOf n ∧
      e.forceOf n = (t.forceOf n).aimed c.code ∧ e.memc = t.memc := by
  obtain ⟨w, hw⟩ : ∃ w, w = c.word := ⟨_, rfl⟩
  have hcmd := State.engineForce_steady hregs h hmode hspan hspan3 hrange hrange6 hfast
  rw [← hw] at hcmd ⊢
  exact ⟨_, hcmd, (ho.wr .CH_FORCE_SET w n 0).setForce _, rfl,
    State.Steady.aimed (s := t.wr .CH_FORCE_SET w n) ho.risingForce (h.wr hregs (.inr rfl) w) c.code, rfl,
    State.forceOf_setForce_same (s := t.wr .CH_FORCE_SET w n) ho.risingForce, rfl⟩

/-- The registers that the start of FORCE_V changes. -/
def forceRegs (n : Nat) : List Nat := [regAddr .CH_DECKLE n 0, regAddr .CH_FORCE_SET n 0, regAddr .MEMC_SR_STATS 0 0, regAddr .MEMC_EVENTS 0 0]

theorem regAddr_deckle_ne_force : regAddr .CH_DECKLE n 0 ≠ regAddr .CH_FORCE_SET n 0 := by simp [regAddr, regRow]

/-- The command of a FORCE_V entry. -/
def sForceV (w : BitVec 128) : ForceCmd := ⟨false, sSpan w, sRange w, signed 24 (sValue w), false⟩

/-- FORCE_V writes its deckle pair and its command, and the frame forces the new target (R155, R156). -/
theorem State.startExec_forceV (hregs : Table.rising s.regs = true) (hforce : Table.rising s.force = true) (hengs : Table.rising s.engs = true)
    (hs : s.Steady n) (h : s.Due n u x rest) (hop : sOp x.word = 1) (hfast : sFast x.word = false) (hspan3 : sSpan x.word ≠ 3)
    (hrange6 : sRange x.word < 6) (hspan : sSpan x.word = (s.forceOf n).span) (hrange : sRange x.word = (s.forceOf n).range) :
    ∃ e, s.startExec n meas bad = e ∧ s.Only e n ∧ Table.SameBut (forceRegs n) s.regs e.regs ∧
      (∃ p lo buf f, e.engOf n = { (s.engOf n).started x rest p with bufLo := lo, buf := buf, fetch := f }) ∧
      e.rd .CH_DECKLE n = BitVec.ofNat 32 (sDeckle x.word * 65537) ∧ e.rd .CH_FORCE_SET n = (sForceV x.word).word ∧
      (e.forceOf n).st = .forcingV ∧ (e.forceOf n).target = signed 24 (sValue x.word) ∧ (e.forceOf n).present = signed 24 (sValue x.word) ∧
      (e.forceOf n).dac = clampCode (signed 24 (sValue x.word) + (e.forceOf n).corr) ∧
      (e.forceOf n).deckle = BitVec.ofNat 32 (sDeckle x.word * 65537) ∧ (e.forceOf n).frameAt = u := by
  obtain ⟨k, hstart⟩ := State.startExec_due (meas := meas) (bad := bad) hengs h (.inl hop)
  rw [hop, if_pos rfl, hfast, State.entryDeckle] at hstart
  obtain ⟨p, t, ht, ho, hreg, hst, heng, hfo⟩ := State.startedAt_only (u := u) (x := x) (rest := rest) hengs hforce hs
  obtain ⟨d, hd⟩ : ∃ d, d = BitVec.ofNat 32 (sDeckle x.word * 65537) := ⟨_, rfl⟩
  rw [← hd] at hstart ⊢
  have htr : Table.rising t.regs = true := hreg ▸ hregs
  obtain ⟨v, hv⟩ : ∃ v, v = t.wr .CH_DECKLE d n := ⟨_, rfl⟩
  have hvr : Table.rising v.regs = true := hv ▸ State.rising_wr htr ..
  have hvfo : v.forceOf n = { s.forceOf n with frameAt := u } := hv ▸ hfo
  have hvd : v.rd .CH_DECKLE n = d := hv ▸ State.rd_wr_same htr ..
  obtain ⟨g, hg, hgo, hgr, hgs, hge, hgf, -⟩ := (hv ▸ ho.wr .CH_DECKLE d n 0 : s.Only v n).engineForce (c := sForceV x.word) hvr
    (hv ▸ hst.wr htr (.inl rfl) d) rfl (by rw [hvfo]; exact hspan) hspan3 (by rw [hvfo]; exact hrange) hrange6 rfl
  obtain ⟨c, hc⟩ : ∃ c, c = (sForceV x.word).word := ⟨_, rfl⟩
  rw [← hc] at hgr ⊢
  have hgrise : Table.rising g.regs = true := hgr ▸ State.rising_wr hvr ..
  have hgd : g.rd .CH_DECKLE n = d := by
    unfold State.rd
    rw [hgr]
    exact (State.rd_wr_other hvr c regAddr_deckle_ne_force).trans hvd
  have hgc : g.rd .CH_FORCE_SET n = c := by
    unfold State.rd
    rw [hgr]
    exact State.rd_wr_same hvr ..
  have hgsame : Table.SameBut (forceRegs n) s.regs g.regs := by
    rw [hgr, ← hreg]
    have h1 : Table.SameBut [regAddr .CH_DECKLE n 0] t.regs v.regs := hv ▸ Table.SameBut.put htr _ _ _
    have h2 : Table.SameBut [regAddr .CH_FORCE_SET n 0] v.regs (v.wr .CH_FORCE_SET c n).regs := Table.SameBut.put hvr _ _ _
    exact (h1.mono (by simp [forceRegs])).trans (h2.mono (by simp [forceRegs]))
  obtain ⟨e, he, hoe, hr, ⟨lo, buf, f, hee⟩, h1, h2, h3, h4, h5, h6⟩ := hgo.frameEnds (a := u) (k := k) (meas := meas) hgrise hgs
    (by rw [hgf]; rfl)
  have hkeep (r : Reg) (hr' : regAddr r n 0 ≠ regAddr .MEMC_SR_STATS 0 0 ∧ regAddr r n 0 ≠ regAddr .MEMC_EVENTS 0 0) : e.rd r n = g.rd r n :=
    hr _ (not_mem_wakeRegs hr') _
  have haim : (g.forceOf n).target = signed 24 (sValue x.word) := by rw [hgf]; rfl
  have heng' : g.engOf n = (s.engOf n).started x rest p := hge.trans (hv ▸ heng)
  have hcmd : v.engineForce n ⟨false, sSpan x.word, sRange x.word, signed 24 (sValue x.word), false⟩ = g := hg
  rw [ht, ← hv, hcmd, he] at hstart
  rw [haim] at h2 h3 h4
  exact ⟨e, hstart, hoe, hgsame.trans (hr.mono (by simp [wakeRegs, forceRegs])), ⟨p, lo, buf, f, hee.trans (by rw [heng'])⟩,
    (hkeep _ (by simp only [regAddr, regRow, blkBase]; omega)).trans hgd, (hkeep _ (by simp only [regAddr, regRow, blkBase]; omega)).trans hgc,
    h1, h2, h3, h4, h5.trans hgd, h6⟩

section Points
variable {u0 : Nat} {c : Int} {left : List (Nat × When)}

/-- An engine that runs with no mark, stop or stall, whose mould's point `k` is due and held in its buffer. -/
structure State.PointDue (s : State) (n u k : Nat) (x : Exec) (left : List (Nat × When)) (c : Int) : Prop where
  running : (s.engOf n).state = .running
  unstopped : (s.engOf n).stop = none
  unstalled : (s.engOf n).stall = false
  unmarked : (s.engOf n).marks = []
  current : (s.engOf n).cur = some x
  points : x.points = (k, .at u) :: left
  due : u ≤ s.now
  later : 0 < k
  silent : sPointTrig x.word = false
  short : x.mLen ≤ 256
  held : x.mCodes.getD (k % x.mLen) none = some c

/-- The points that the mould's point `k` leaves to come: the next one, unless it is the last (R165). -/
def Exec.pointsAfter (x : Exec) (k u0 : Nat) (left : List (Nat × When)) : List (Nat × When) :=
  if sRepeat x.word ≠ 0xFFFF ∧ x.mLen * (sRepeat x.word + 1) ≤ k + 1 then left
  else left ++ [(k + 1, .at (u0 + (k + 1) * (sDwell x.word + 1) * 65536))]

/-- The engine once the mould's point `k` is in force. -/
def Eng.atPoint (e : Eng) (x : Exec) (k : Nat) (points : List (Nat × When)) : Eng :=
  { e with
    cur := some { x with point := k, points }, pos := BitVec.ofNat 32 (k % x.mLen % 256 * 2 ^ 24 + x.idx), mould := sMould x.word
    point := k % x.mLen, plays := k / x.mLen }

theorem State.nextPoints_dwell {t : State} {y : Exec} {b : Nat} (hplay : sPlay y.word = 0)
    (hs : y.start = .at u0) :
    t.nextPoints n y k b = t.setEng n { t.engOf n with cur := some { y with points := y.pointsAfter k u0 y.points } } := by
  unfold State.nextPoints Exec.pointsAfter Exec.total
  simp only [hplay, hs]
  by_cases hr : sRepeat y.word = 0xFFFF
  · simp [hr]
  · by_cases hm : y.mLen * (sRepeat y.word + 1) ≤ k + 1
    · simp [hr, hm, Nat.not_lt.2 hm]
    · simp [hr, hm, Nat.not_le.1 hm]

/-- A point of a mould that the buffer holds whole puts its code into the command in force (R165, R168). -/
theorem State.playPoint_held {t : State} (hsilent : sPointTrig x.word = false) (hk : 0 < k)
    (hshort : x.mLen ≤ 256) (hheld : x.mCodes.getD (k % x.mLen) none = some c) (hfast : sFast x.word = false) :
    t.playPoint n { x with points := left } k u false false =
      ((t.setEng n ((t.engOf n).atPoint x k left)).engineForce n
        { ForceCmd.ofWord (t.rd .CH_FORCE_SET n) with code := c, fast := false }).nextPoints n { x with point := k, points := left } k u := by
  have hne : x.mCodes ≠ [] := by
    intro h
    rw [h] at hheld
    simp at hheld
  obtain ⟨y, hy⟩ : ∃ y, y = { x with points := left } := ⟨_, rfl⟩
  have hword : y.word = x.word := hy ▸ rfl
  have hlen : y.mLen = x.mLen := hy ▸ rfl
  have hcodes : y.mCodes = x.mCodes := hy ▸ rfl
  have hfill : t.mouldFill y k = (t, y) := by
    unfold State.mouldFill
    rw [if_pos (hlen ▸ hshort), if_neg (hcodes ▸ hne)]
  have hcode : ({ y with point := k } : Exec).codeAt k = some c := by
    unfold Exec.codeAt
    dsimp only
    rw [hlen, if_pos hshort, hcodes, hheld]
  rw [← hy]
  unfold State.playPoint
  simp only [Bool.false_eq_true, if_false, hfill, hcode, Option.isNone_some, Bool.not_false, if_true, Option.getD_some]
  simp only [hword, hsilent, hk.ne', false_and, or_self, Bool.false_eq_true, if_false, hfast, hlen]
  rw [hy]
  rfl

theorem State.mouldPoint_early {q : List (Nat × When)} (hrun : (s.engOf n).state = .running) (hcur : (s.engOf n).cur = some x)
    (hp : x.points = (k, .at u) :: q) (hnow : s.now < u) : s.mouldPoint n meas bad = s := by
  unfold State.mouldPoint
  simp [hrun, hcur, hp, State.came, hnow]

/-- The command in force, with the code of a point. -/
def State.pointCmd (s : State) (n : Nat) (c : Int) : ForceCmd := { ForceCmd.ofWord (s.rd .CH_FORCE_SET n) with code := c }

/-- A point of a mould that is due changes the code of the command in force alone, and the frame forces it (R165, R168). -/
theorem State.mouldPoint_due (hregs : Table.rising s.regs = true) (hforce : Table.rising s.force = true) (hengs : Table.rising s.engs = true)
    (hs : s.Steady n) (h : s.PointDue n u k x left c) (hfast : sFast x.word = false) (hplay : sPlay x.word = 0) (h0 : x.start = .at u0)
    (hmode : (s.pointCmd n c).mode = false) (hspan3 : (s.pointCmd n c).span ≠ 3) (hrange6 : (s.pointCmd n c).range < 6)
    (hspan : (s.pointCmd n c).span = (s.forceOf n).span) (hrange : (s.pointCmd n c).range = (s.forceOf n).range) :
    ∃ e, s.mouldPoint n meas false = e ∧ s.Only e n ∧ e.regs = (s.wr .CH_FORCE_SET (s.pointCmd n c).word n).regs ∧ e.memc = s.memc ∧
      e.engOf n = (s.engOf n).atPoint x k (x.pointsAfter k u0 left) ∧ (e.forceOf n).target = c ∧ (e.forceOf n).present = c ∧
      (e.forceOf n).frameAt = u := by
  obtain ⟨t, ht⟩ : ∃ t, t = s.rephase n u := ⟨_, rfl⟩
  have hto : s.Only t n := ht ▸ (State.Only.refl hengs hforce).setForce { s.forceOf n with frameAt := u }
  have htf : t.forceOf n = { s.forceOf n with frameAt := u } := ht ▸ State.forceOf_setForce_same hforce
  have htr : t.regs = s.regs := ht ▸ rfl
  have hte : t.engs = s.engs := ht ▸ rfl
  have heng : t.engOf n = s.engOf n := by
    unfold State.engOf
    rw [hte]
  have hstop : t.sweepBoundary n = t := State.sweepBoundary_none (by rw [heng]; exact h.unmarked) (by rw [heng]; exact h.unstopped)
    (by rw [heng]; exact h.unstalled)
  have hb : min s.now ((s.whenAt (.at u)).getD s.now) = u := Nat.min_eq_right h.due
  have hcame : s.came (.at u) = true := decide_eq_true h.due
  have hmould : s.mouldPoint n meas false = (t.playPoint n { x with points := left } k u false false).dacBoundary n u (s.framesTo n u) meas := by
    unfold State.mouldPoint
    simp only [h.running, h.current, h.points, hcame, hb, ← ht, hstop, heng, Bool.not_true, Bool.false_eq_true, if_false, reduceCtorEq]
  have hcmd : ({ ForceCmd.ofWord (t.rd .CH_FORCE_SET n) with code := c, fast := false } : ForceCmd) = s.pointCmd n c := by
    unfold State.pointCmd State.rd
    rw [htr]
    rfl
  have hplayed := State.playPoint_held (t := t) (n := n) (u := u) (left := left) h.silent h.later h.short h.held hfast
  rw [hcmd, heng] at hplayed
  obtain ⟨v, hv⟩ : ∃ v, v = t.setEng n ((s.engOf n).atPoint x k left) := ⟨_, rfl⟩
  have hvo : s.Only v n := hv ▸ hto.setEng _
  have hvr : v.regs = s.regs := hv ▸ htr
  have hvf : v.forceOf n = { s.forceOf n with frameAt := u } := hv ▸ htf
  have hve : v.engOf n = (s.engOf n).atPoint x k left := hv ▸ State.engOf_setEng_same hto.risingEngs
  obtain ⟨g, hg, hgo, hgr, hgs, hge, hgf, hgm⟩ := hvo.engineForce (c := s.pointCmd n c) (hvr ▸ hregs)
    (hv ▸ ht ▸ (hs.rephase hforce).setEng _) hmode (by rw [hvf]; exact hspan) hspan3 (by rw [hvf]; exact hrange) hrange6 rfl
  rw [← hv, hg] at hplayed
  obtain ⟨e2, he2⟩ : ∃ e2, e2 = { g.engOf n with cur := some { x with point := k, points := x.pointsAfter k u0 left } } := ⟨_, rfl⟩
  have hnext : g.nextPoints n { x with point := k, points := left } k u = g.setEng n e2 :=
    (State.nextPoints_dwell (t := g) (y := { x with point := k, points := left }) hplay h0).trans (by rw [he2]; rfl)
  have haim : ((g.setEng n e2).forceOf n).target = c := by
    show (g.forceOf n).target = c
    rw [hgf]
    rfl
  obtain ⟨y, hd, -, h2, h3, -, -, h6⟩ := State.dacBoundary_steady (a := u) (k := s.framesTo n u) (meas := meas) (s := g.setEng n e2)
    hgo.risingForce (hgs.setEng e2) (by show (g.forceOf n).fast = false; rw [hgf]; rfl)
  have hef : ((g.setEng n e2).setForce n y).forceOf n = y := State.forceOf_setForce_same (s := g.setEng n e2) hgo.risingForce
  have hee : ((g.setEng n e2).setForce n y).engOf n = e2 := State.engOf_setEng_same hgo.risingEngs
  rw [haim] at h2 h3
  obtain ⟨w, hw⟩ : ∃ w, w = (s.pointCmd n c).word := ⟨_, rfl⟩
  rw [← hw] at hgr ⊢
  refine ⟨(g.setEng n e2).setForce n y, ?_, (hgo.setEng e2).setForce y, ?_, hgm.trans (hv ▸ ht ▸ rfl), ?_, ?_, ?_, ?_⟩
  · rw [hmould, hplayed, hnext, hd]
  · show g.regs = _
    rw [hgr]
    unfold State.wr
    rw [hvr]
  · rw [hee, he2, hge, hve]
    rfl
  · rw [hef]; exact h2
  · rw [hef]; exact h3
  · rw [hef]; exact h6

end Points

end Outcomes

/-- Settles O29. -/
theorem executionsAndMouldPoints : Obligations.ExecutionsAndMouldPoints := by
  intro s t n u meas hcan hpow hn
  obtain ⟨b, hb⟩ : ∃ b, s.begin t = b := ⟨_, rfl⟩
  have hcb : b.canonical := hb ▸ State.canonical_begin hcan t
  have hregs : Table.rising b.regs = true := hcb.fine.regs
  have hengs : Table.rising b.engs = true := hcb.fine.engs
  have hforce : Table.rising b.force = true := hcb.fine.force
  rw [hb]
  have hok : isChan n = true := by simpa [isChan] using hn
  intro hrun hstop hstall hmarks hst hmode hsteps hdis hen hauto hcal
  have hs : b.Steady n := ⟨hst, hmode, hsteps, hdis, hen, hauto, hcal⟩
  refine ⟨fun x rest hplan hstart => ⟨fun hnow => ?_, fun hnow hop hpsel htrig hfast hspan3 hrange6 hspan hrange => ?_,
    fun hnow hop hpsel htrig hfast => ?_⟩, fun x k rest u0 c hcur hshort hheld hpoints hop hplay h0 hk htrig hfast hcmode hspan3 hrange6 hspan
    hrange => ⟨fun hnow => ?_, fun hnow => ?_⟩⟩
  · exact .runs hb hpow rfl hok (State.startExec_early hplan hstart hnow) (OnlyChanges.refl _ _) trivial
  · obtain ⟨e, he, ho, hr, ⟨p, lo, buf, f, heng⟩, hdeckle, hset, h1, h2, h3, h4, h5, h6⟩ := State.startExec_forceV (meas := meas) (bad := false)
      hregs hforce hengs hs ⟨hrun, hstop, hstall, hmarks, hplan, hstart, hnow, hpsel, htrig⟩ hop hfast hspan3 hrange6 hspan hrange
    refine .runs hb hpow rfl hok he ho.frame ?_
    dsimp only
    rw [heng]
    exact ⟨rfl, rfl, hrun, rfl, ho.engs, hdeckle, hset, hr, h1, h2, h3, h4, h5.trans hdeckle.symm, h6, ho.force⟩
  · obtain ⟨e, he, ho, hr, ⟨p, lo, buf, f, heng⟩, h2, h6⟩ := State.startExec_hold (meas := meas) (bad := false)
      hregs hforce hengs hs ⟨hrun, hstop, hstall, hmarks, hplan, hstart, hnow, hpsel, htrig⟩ hop hfast
    refine .runs hb hpow rfl hok he ho.frame ?_
    rw [heng]
    exact ⟨rfl, rfl, ho.engs, h2, h6, ho.force, hr⟩
  · exact .runs hb hpow rfl hok (State.mouldPoint_early hrun hcur hpoints hnow) (OnlyChanges.refl _ _) trivial
  · obtain ⟨e, he, ho, hr, hm, heng, h2, h3, h6⟩ := State.mouldPoint_due (meas := meas) (left := rest) hregs hforce hengs hs
      ⟨hrun, hstop, hstall, hmarks, hcur, hpoints, hnow, hk, htrig, hshort, hheld⟩ hfast hplay h0 hcmode hspan3 hrange6 hspan hrange
    have hframe : OnlyChanges [.engs, .regs, .force] b e := by
      refine ⟨ho.frame.1, ho.frame.2.1, fun p hp => ?_⟩
      by_cases hpm : p = .memc
      · rw [hpm]
        exact hm
      · exact ho.frame.2.2 p (by simp [execParts, hpm] at hp ⊢; exact hp)
    refine .runs hb hpow rfl hok he hframe ?_
    dsimp only
    rw [heng]
    refine ⟨?_, rfl, rfl, rfl, ho.engs, ?_, ?_, h2, h3, h6, ho.force⟩
    · simp [Eng.atPoint, Exec.pointsAfter]
    · unfold State.rd
      rw [hr]
      exact State.rd_wr_same hregs ..
    · rw [hr]
      exact .put hregs _ _ _

end Sys2Proof.Machine
end

section
/-!
PROOFS. Pushes into felts (R187 to R189, R199, R200): a push with a credit, an entry that a stamping stage reads, holds or drops, and the turn
of an agent.
-/

namespace Sys2Proof.Machine

open Sys2Proof

section Pushes
variable {s : State} {p f prio : Nat} {it : Item}

/-- The state after producer `p` has pushed an item with a vat credit. -/
def State.pushed (s : State) (p f prio : Nat) (it : Item) : State :=
  (s.setCredit p f { (s.creditOf p f).settle s.cycle with vat := ((s.creditOf p f).settle s.cycle).vat - 1 }).enqueue f prio it false

/-- Felt `y` with an item at the tail of a lane, stored at `now` in event cycle `c`. -/
def Felt.stored (y : Felt) (prio : Nat) (it : Item) (now c : Nat) : Felt :=
  { y.setLane prio (y.lane prio ++ [⟨it, .vat, c, 0, false⟩]) with timer := if y.depth = 0 then some now else y.timer }

theorem Credit.settle_held (c : Credit) (k : Nat) : (c.settle k).held = c.held := by
  unfold Credit.settle Credit.held
  split
  · dsimp only
    omega
  · rfl

theorem Credit.vat_le_settle (c : Credit) (k : Nat) : c.vat ≤ (c.settle k).vat := by
  unfold Credit.settle
  split
  · exact Nat.le_add_right _ _
  · exact le_rfl

theorem State.push_vat (ho : s.que.overFelt ≠ some f) (hv : 0 < (s.creditOf p f).vat) :
    s.push p f prio it = .done (s.pushed p f prio it) := by
  unfold State.push State.pushed
  simp only [ho, if_false, Nat.lt_of_lt_of_le hv (Credit.vat_le_settle _ _), if_true]

/-- Without a usable credit a push is not made (R189). -/
theorem State.push_none (ho : s.que.overFelt ≠ some f) (hv : (s.creditOf p f).usable s.cycle = 0) : s.push p f prio it = .nocredit := by
  have hvat : ((s.creditOf p f).settle s.cycle).vat = 0 := Nat.eq_zero_of_add_eq_zero_right hv
  have hspill : ((s.creditOf p f).settle s.cycle).spill = 0 := Nat.eq_zero_of_add_eq_zero_left hv
  unfold State.push
  simp only [ho, if_false, hvat, hspill, Nat.lt_irrefl]

/-- A push with a vat credit stores the item and uses one credit (R189, R199). -/
theorem State.pushed_stores (hf : Table.rising s.que.felts = true) (hc : Table.rising s.que.credits = true) (hv : 0 < (s.creditOf p f).vat) :
    (s.pushed p f prio it).feltOf f = (s.feltOf f).stored prio it s.now s.cycle ∧
      ((s.pushed p f prio it).creditOf p f).held + 1 = (s.creditOf p f).held ∧
      Table.SameBut [f] s.que.felts (s.pushed p f prio it).que.felts ∧
      Table.SameBut [p * 64 + f] s.que.credits (s.pushed p f prio it).que.credits ∧
      OnlyChanges [.que, .vat] s (s.pushed p f prio it) := by
  obtain ⟨c, hceq⟩ : ∃ c, c = { (s.creditOf p f).settle s.cycle with vat := ((s.creditOf p f).settle s.cycle).vat - 1 } := ⟨_, rfl⟩
  have hpush : s.pushed p f prio it = { (s.setCredit p f c).setFelt f ((s.feltOf f).stored prio it s.now s.cycle) with vat := [] } := by
    rw [hceq]
    rfl
  have hheld : c.held + 1 = (s.creditOf p f).held := by
    have h1 := (s.creditOf p f).vat_le_settle s.cycle
    have h2 := (s.creditOf p f).settle_held s.cycle
    rw [hceq]
    unfold Credit.held at h2 ⊢
    dsimp only
    omega
  rw [hpush]
  refine ⟨Table.get_put_same hf, ?_, Table.SameBut.put hf _ _ _, Table.SameBut.put hc _ _ _, (((OnlyChanges.refl _ _).que (by decide) _).que
    (by decide) _).vat (by decide) _⟩
  have : (State.creditOf { (s.setCredit p f c).setFelt f ((s.feltOf f).stored prio it s.now s.cycle) with vat := [] } p f) = c :=
    Table.get_put_same hc
  rw [this]
  exact hheld

end Pushes

section Stamping
variable {s : State} {n i q f : Nat} {x : StuffEntry} {held : State → State}

theorem State.stampEntry_done {t : State} (ha : (s.feltOf x.felt).accepts s.cycle = true)
    (hp : s.push (s.sliceIdx n) x.felt (s.fld f_CH_RES_CTL_prio n) x.item = .done t) : s.stampEntry n i x held = t.headRead n i x := by
  unfold State.stampEntry
  simp [ha, hp]

theorem State.stampEntry_waits (ha : (s.feltOf x.felt).accepts s.cycle = true)
    (hp : s.push (s.sliceIdx n) x.felt (s.fld f_CH_RES_CTL_prio n) x.item = .nocredit) (hon : s.on f_CH_RES_CTL_nocredit n = false) :
    s.stampEntry n i x held = held s := by
  unfold State.stampEntry
  simp [ha, hp, hon]

/-- An entry for a felt that takes no push, or without a credit under DROP, is dropped (R189). -/
theorem State.stampEntry_drops (h : (s.feltOf x.felt).accepts s.cycle = false ∨
      s.push (s.sliceIdx n) x.felt (s.fld f_CH_RES_CTL_prio n) x.item = .nocredit ∧ s.on f_CH_RES_CTL_nocredit n = true) :
    s.stampEntry n i x held = (s.headRead n i x).nocreditDrop n := by
  unfold State.stampEntry
  rcases h with h | ⟨hp, hon⟩
  · simp [h]
  · simp [hp, hon]

/-- The head entry leaves its FIFO and is the last entry read (R187). -/
theorem State.headRead_plain (hold : (s.resOf n).oldSlice = none) :
    s.headRead n i x = (s.setSlice i { s.sliceOf i with fifo := (s.sliceOf i).fifo.drop 1, readCycle := some s.cycle }).setRes n
      { s.resOf n with lastEntry := x, waiting := false } := by
  unfold State.headRead
  simp only [State.setSlice_resOf, hold]

/-- The entry that waits for a credit. -/
def State.entryWaits (n : Nat) (s : State) : State := s.setRes n { s.resOf n with waiting := true }

/-- What a stamping stage reads in its turn: the head entry in STREAM, and for a trigger instant that has come in PACED (R187). -/
theorem State.stampTurn_entry {rest : List StuffEntry} {P : List Nat} (hi : i = s.sliceIdx n) (hold : (s.resOf n).oldSlice = none)
    (hwait : (s.resOf n).waiting = false) (hread : (s.sliceOf i).readCycle ≠ some s.cycle) (hfifo : (s.sliceOf i).fifo = x :: rest)
    (h : s.on f_CH_RES_CTL_pace n = false ∧ x.cycle < s.cycle ∧ P = [] ∨
      s.on f_CH_RES_CTL_pace n = true ∧ ∃ u, (s.resOf n).paced = [u] ∧ u ≤ s.now ∧ x.cycle < u / 256 ∧ P = []) :
    s.stampTurn n = (s.setRes n { s.resOf n with paced := P }).stampEntry n i x (State.entryWaits n) := by
  have hstamp : s.stampSlice n = i := by
    rw [hi]
    simp [State.stampSlice, hold]
  unfold State.stampTurn
  rw [hstamp]
  rcases h with ⟨hp, hx, rfl⟩ | ⟨hp, u, hu, hnow, hx, rfl⟩
  · simp only [hread, if_false, hwait, Bool.false_eq_true, hp, Bool.not_false, if_true, hfifo, State.setRes_cycle, hx]
    rfl
  · simp only [hread, if_false, hwait, Bool.false_eq_true, hp, Bool.not_true, hu, hfifo, List.find?_cons, hnow, decide_true, hx, if_true,
      List.filter_cons, ne_eq, not_true_eq_false, decide_false, List.filter_nil]
    rfl

theorem State.stampTurn_empty (hold : (s.resOf n).oldSlice = none) (hwait : (s.resOf n).waiting = false)
    (hread : (s.sliceOf (s.sliceIdx n)).readCycle ≠ some s.cycle) (hfifo : (s.sliceOf (s.sliceIdx n)).fifo = [])
    (hp : s.on f_CH_RES_CTL_pace n = false) : s.stampTurn n = s.setRes n { s.resOf n with paced := [] } := by
  have hstamp : s.stampSlice n = s.sliceIdx n := by simp [State.stampSlice, hold]
  unfold State.stampTurn
  rw [hstamp]
  simp [hread, hwait, hp, hfifo]

/-- The entry of an underrun: the last one, marked (R188). -/
def StuffEntry.again (x : StuffEntry) (c : Nat) : StuffEntry := { x with item := x.item.flag flagUnderrun, cycle := c }

/-- The state in which an underrun is reported, with its entry at the head of the FIFO. -/
def State.underran (s : State) (n i : Nat) (x : StuffEntry) : State :=
  (s.setSlice i { s.sliceOf i with fifo := [x.again s.cycle] }).stick f_CH_RES_EVENTS_underrun n

/-- In PACED an empty FIFO gives the last entry again (R188). -/
theorem State.stampTurn_underrun {u : Nat} (hress : Table.rising s.ress = true) (hi : i = s.sliceIdx n) (hold : (s.resOf n).oldSlice = none)
    (hwait : (s.resOf n).waiting = false) (hread : (s.sliceOf i).readCycle ≠ some s.cycle) (hfifo : (s.sliceOf i).fifo = [])
    (hp : s.on f_CH_RES_CTL_pace n = true) (hu : (s.resOf n).paced = [u]) (hnow : u ≤ s.now) (hx : (s.resOf n).lastEntry = x) :
    s.stampTurn n = ((s.setRes n { s.resOf n with paced := [] }).underran n i x).stampEntry n i (x.again s.cycle) (State.entryWaits n) := by
  have hstamp : s.stampSlice n = i := by
    rw [hi]
    simp [State.stampSlice, hold]
  unfold State.stampTurn
  rw [hstamp]
  simp only [hread, if_false, hwait, Bool.false_eq_true, hp, Bool.not_true, hu, hfifo, List.find?_cons, hnow, decide_true,
    List.filter_cons, ne_eq, not_true_eq_false, decide_false, List.filter_nil]
  unfold State.underrun
  rw [State.resOf_setRes_same hress, State.setRes_sliceOf]
  dsimp only
  rw [hfifo, hx]
  rfl

end Stamping

section Agents
variable {s : State} {a f p : Nat} {it : Item} {l : List Item}

theorem State.agentTurn_none (h : s.backlog a = []) : s.agentTurn a = s := by simp [State.agentTurn, h]

/-- An agent pushes the item it holds longest (R200). -/
theorem State.agentTurn_pushes (hl : s.backlog a = it :: l) (hf : f = s.fld f_QUE_AGENT_CTL_felt a) (hp : p = s.fld f_QUE_AGENT_CTL_prio a)
    (hon : s.on f_QUE_AGENT_CTL_enable a = true) (hacc : (s.feltOf f).accepts s.cycle = true) (ho : s.que.overFelt ≠ some f)
    (hv : 0 < (s.creditOf (544 + a) f).vat) : s.agentTurn a = (s.pushed (544 + a) f p it).setBacklog a l := by
  unfold State.agentTurn
  rw [hl, ← hf, ← hp]
  simp only [hon, hacc, Bool.not_true, Bool.false_eq_true, or_self, if_false, State.push_vat ho hv]

theorem State.agentTurn_waits (hl : s.backlog a = it :: l) (hf : f = s.fld f_QUE_AGENT_CTL_felt a) (hp : p = s.fld f_QUE_AGENT_CTL_prio a)
    (ho : s.que.overFelt ≠ some f) (hv : (s.creditOf (544 + a) f).usable s.cycle = 0) : s.agentTurn a = s := by
  unfold State.agentTurn
  rw [hl, ← hf, ← hp]
  simp only [State.push_none ho hv, ite_self]

end Agents

section Reads
variable {s b : State} {n i q f : Nat} {x : StuffEntry}

theorem State.sameBut_setRes (h : Table.rising s.ress = true) (r : Res) : Table.SameBut [n] s.ress (s.setRes n r).ress := .put h _ _ _

theorem State.rising_setRes (h : Table.rising s.ress = true) (r : Res) : Table.rising (s.setRes n r).ress = true := Table.rising_put h

/-- An entry that is pushed with a credit and read: what it leaves of the FIFO and of the channel's record (R187, R189). -/
theorem State.stampEntry_pushes {held : State → State} (hfelts : Table.rising s.que.felts = true) (hcred : Table.rising s.que.credits = true)
    (hslices : Table.rising s.cal.slices = true) (hress : Table.rising s.ress = true) (hold : (s.resOf n).oldSlice = none)
    (hi : i = s.sliceIdx n) (hq : q = s.fld f_CH_RES_CTL_prio n) (hf : x.felt = f) (ha : (s.feltOf f).accepts s.cycle = true)
    (ho : s.que.overFelt ≠ some f) (hv : 0 < (s.creditOf i f).vat) :
    ∃ e, s.stampEntry n i x held = e ∧ OnlyChanges [.que, .vat, .ress, .cal] s e ∧ e.feltOf f = (s.feltOf f).stored q x.item s.now s.cycle ∧
      (e.creditOf i f).held + 1 = (s.creditOf i f).held ∧
      e.sliceOf i = { s.sliceOf i with fifo := (s.sliceOf i).fifo.drop 1, readCycle := some s.cycle } ∧
      e.resOf n = { s.resOf n with lastEntry := x, waiting := false } ∧ Table.SameBut [f] s.que.felts e.que.felts ∧
      Table.SameBut [i * 64 + f] s.que.credits e.que.credits ∧ Table.SameBut [i] s.cal.slices e.cal.slices ∧
      Table.SameBut [n] s.ress e.ress := by
  subst hf
  obtain ⟨h1, h2, h3, h4, h5⟩ := State.pushed_stores (p := i) (prio := q) (it := x.item) hfelts hcred hv
  have hdone : s.push (s.sliceIdx n) x.felt (s.fld f_CH_RES_CTL_prio n) x.item = .done (s.pushed i x.felt q x.item) := by
    rw [hi, hq]
    exact State.push_vat ho (hi ▸ hv)
  obtain ⟨t, ht⟩ : ∃ t, t = s.pushed i x.felt q x.item := ⟨_, rfl⟩
  have htr : t.ress = s.ress := ht ▸ rfl
  have htc : t.cal = s.cal := ht ▸ rfl
  have hres : t.resOf n = s.resOf n := by
    unfold State.resOf
    rw [htr]
  have hslice : t.sliceOf i = s.sliceOf i := by
    unfold State.sliceOf
    rw [htc]
  have hcycle : t.cycle = s.cycle := ht ▸ rfl
  rw [← ht] at h1 h2 h3 h4 h5 hdone
  have hread : t.headRead n i x = _ := State.headRead_plain (by rw [hres]; exact hold)
  rw [hres, hslice, hcycle] at hread
  refine ⟨_, (State.stampEntry_done ha hdone).trans hread, ((h5.mono (by decide)).cal (by decide) _).ress (by decide) _, h1, h2, ?_, ?_, h3, h4, ?_,
    ?_⟩
  · exact State.sliceOf_setSlice_same (s := t) (htc ▸ hslices)
  · exact State.resOf_setRes_same (s := t.setSlice i _) (htr ▸ hress)
  · exact htc ▸ State.sameBut_setSlice (s := t) (htc ▸ hslices) _
  · exact htr ▸ State.sameBut_setRes (s := t.setSlice i _) (htr ▸ hress) _

end Reads

theorem regAddr_resEvents_ne_count : regAddr .CH_RES_EVENTS n 0 ≠ regAddr .CH_RES_NOCREDIT_COUNT n 0 := by simp [regAddr, regRow]

/-- A drop is counted and reported, and changes nothing else (R189). -/
theorem State.nocreditDrop_counts {s : State} {n : Nat} (h : Table.rising s.regs = true) :
    (s.nocreditDrop n).on f_CH_RES_EVENTS_nocredit n = true ∧
      (s.nocreditDrop n).fld f_CH_RES_NOCREDIT_COUNT_count n = min 0xFFFF (s.fld f_CH_RES_NOCREDIT_COUNT_count n + 1) ∧
      Table.SameBut [regAddr .CH_RES_NOCREDIT_COUNT n 0, regAddr .CH_RES_EVENTS n 0] s.regs (s.nocreditDrop n).regs := by
  have h1 : Table.rising (s.tally f_CH_RES_NOCREDIT_COUNT_count 1 n).regs = true := State.rising_tally h ..
  refine ⟨State.on_stick h1 n (by decide) (by decide), ?_, ?_⟩
  · exact (State.fld_stick_other h1 regAddr_resEvents_ne_count.symm).trans (State.fld_tally (s := s) h 1 n (by decide))
  · exact (State.sameBut_tally h f_CH_RES_NOCREDIT_COUNT_count 1 n).fst.trans (State.sameBut_stick h1 f_CH_RES_EVENTS_nocredit n).snd

/-- Settles O30. -/
theorem pushesIntoFelts : Obligations.PushesIntoFelts := by
  intro s t f hcan hpow
  obtain ⟨b, hb⟩ : ∃ b, s.begin t = b := ⟨_, rfl⟩
  have hcb : b.canonical := hb ▸ State.canonical_begin hcan t
  have hregs : Table.rising b.regs = true := hcb.fine.regs
  have hress : Table.rising b.ress = true := hcb.fine.ress
  have hfelts : Table.rising b.que.felts = true := hcb.fine.felts
  have hcred : Table.rising b.que.credits = true := hcb.fine.credits
  have hslices : Table.rising b.cal.slices = true := hcb.fine.slices
  rw [hb]
  intro ho
  refine ⟨fun n i q x rest P hn hi hq hold hwait hread => ⟨fun hfifo hxf hturn => ?_, fun hp hfifo => ?_, fun u hp hfifo hu hnow hx hxf hacc hv => ?_⟩,
    fun a it l p ha hl hf hp hon hacc hag => ⟨fun hv => ?_, fun hv => ?_⟩, fun a ha hl => ?_, fun p hp => ?_⟩
  · have hok : isProducer (.channel n) = true := by simpa [isProducer, isChan] using hn
    have hentry := State.stampTurn_entry hi hold hwait hread hfifo hturn
    obtain ⟨R, hR⟩ : ∃ R, R = { b.resOf n with paced := P } := ⟨_, rfl⟩
    rw [← hR] at hentry
    have hr1 : (b.setRes n R).resOf n = R := State.resOf_setRes_same hress
    have hold1 : ((b.setRes n R).resOf n).oldSlice = none := by rw [hr1, hR]; exact hold
    have hress1 : Table.rising (b.setRes n R).ress = true := State.rising_setRes hress R
    have hsame1 : Table.SameBut [n] b.ress (b.setRes n R).ress := State.sameBut_setRes hress R
    have hframe1 : OnlyChanges [.ress] b (b.setRes n R) := (OnlyChanges.refl _ _).ress (by decide) _
    have hread1 : ({ (b.setRes n R).resOf n with lastEntry := x, waiting := false } : Res) = { b.resOf n with paced := P, lastEntry := x } := by
      rw [hr1, hR, ← hwait]
    have hfifo1 : ((b.setRes n R).sliceOf i).fifo.drop 1 = rest := by
      rw [State.setRes_sliceOf, hfifo]
      rfl
    refine ⟨fun hacc hv => ?_, fun hacc hv hon => ?_, fun hdrop => ?_⟩
    · obtain ⟨e, he, hframe, h1, h2, h3, h4, h5, h6, h7, h8⟩ := State.stampEntry_pushes (s := b.setRes n R) (x := x) (held := State.entryWaits n)
        hfelts hcred hslices hress1 hold1 hi hq hxf hacc ho hv
      rw [hfifo1] at h3
      exact .runs hb hpow rfl hok (hentry.trans he) ((hframe1.mono (by decide)).trans hframe)
        ⟨h1, h2, h3, h4.trans hread1, h5, h6, h7, hsame1.trans h8⟩
    · have hnone : (b.setRes n R).push i x.felt ((b.setRes n R).fld f_CH_RES_CTL_prio n) x.item = .nocredit :=
        State.push_none (s := b.setRes n R) (by rw [hxf]; exact ho) (by rw [hxf]; exact hv)
      have hw : (b.setRes n R).stampEntry n i x (State.entryWaits n) = _ := State.stampEntry_waits (by rw [hxf]; exact hacc) (hi ▸ hnone) hon
      unfold State.entryWaits at hw
      rw [hr1] at hw
      refine .runs hb hpow rfl hok (hentry.trans hw) (hframe1.ress (by decide) _) ⟨?_, hsame1.trans (State.sameBut_setRes hress1 _)⟩
      rw [State.resOf_setRes_same hress1, hR]
    · have hd : (b.setRes n R).stampEntry n i x (State.entryWaits n) = _ := State.stampEntry_drops (i := i) (held := State.entryWaits n) (by
        rcases hdrop with ⟨hv, hon⟩ | hacc
        · exact .inr ⟨State.push_none (s := b.setRes n R) (by rw [hxf]; exact ho) (by rw [hxf]; exact (hi ▸ hv : (b.creditOf (b.sliceIdx n) f).usable b.cycle = 0)), hon⟩
        · exact .inl (by rw [hxf]; exact hacc))
      rw [State.headRead_plain hold1, hread1, hfifo1] at hd
      obtain ⟨y, hy⟩ : ∃ y, y = { b.sliceOf i with fifo := rest, readCycle := some b.cycle } := ⟨_, rfl⟩
      obtain ⟨z, hz⟩ : ∃ z, z = { b.resOf n with paced := P, lastEntry := x } := ⟨_, rfl⟩
      have hy' : ({ (b.setRes n R).sliceOf i with fifo := rest, readCycle := some (b.setRes n R).cycle } : Slice) = y := hy.symm
      rw [hy', ← hz] at hd
      obtain ⟨v, hveq⟩ : ∃ v, v = ((b.setRes n R).setSlice i y).setRes n z := ⟨_, rfl⟩
      rw [← hveq] at hd
      have hvr : Table.rising v.regs = true := hveq ▸ hregs
      have hvf : OnlyChanges [.regs, .ress, .cal] b v := hveq ▸ ((hframe1.mono (by decide)).cal (by decide) _).ress (by decide) _
      obtain ⟨c1, c2, c3⟩ := State.nocreditDrop_counts (n := n) hvr
      have hvregs : v.regs = b.regs := hveq ▸ rfl
      have hvfld : v.fld f_CH_RES_NOCREDIT_COUNT_count n = b.fld f_CH_RES_NOCREDIT_COUNT_count n := by
        unfold State.fld State.rd
        rw [hvregs]
      have hvy : v.sliceOf i = y := by
        rw [hveq]
        exact State.sliceOf_setSlice_same (s := b.setRes n R) hslices
      have hvz : v.resOf n = z := by
        rw [hveq]
        exact State.resOf_setRes_same (s := (b.setRes n R).setSlice i y) hress1
      rw [hvfld] at c2
      have hvslices : Table.SameBut [i] b.cal.slices v.cal.slices := by
        rw [hveq]
        exact State.sameBut_setSlice (s := b.setRes n R) hslices y
      have hvress : Table.SameBut [n] b.ress v.ress := by
        rw [hveq]
        exact hsame1.trans (State.sameBut_setRes (s := (b.setRes n R).setSlice i y) hress1 z)
      exact .runs hb hpow rfl hok (hentry.trans hd) ((hvf.tally (by decide) _ _ _).stick (by decide) _ _)
        ⟨hvy.trans hy, hvz.trans hz, c2, c1, hvregs ▸ c3, hvslices, hvress⟩
  · have hok : isProducer (.channel n) = true := by simpa [isProducer, isChan] using hn
    exact .runs hb hpow rfl hok (State.stampTurn_empty hold hwait (hi ▸ hread) (hi ▸ hfifo) hp) ((OnlyChanges.refl _ _).ress (by decide) _)
      ⟨State.resOf_setRes_same hress, State.sameBut_setRes hress _⟩
  · have hok : isProducer (.channel n) = true := by simpa [isProducer, isChan] using hn
    have hentry := State.stampTurn_underrun hress hi hold hwait hread hfifo hp hu hnow hx
    obtain ⟨R, hR⟩ : ∃ R, R = { b.resOf n with paced := [] } := ⟨_, rfl⟩
    obtain ⟨v, hveq⟩ : ∃ v, v = (b.setRes n R).underran n i x := ⟨_, rfl⟩
    rw [← hR, ← hveq] at hentry
    have hvr : v.regs = (b.stick f_CH_RES_EVENTS_underrun n).regs := hveq ▸ rfl
    have hvq : v.que = b.que := hveq ▸ rfl
    have hvcycle : v.cycle = b.cycle := hveq ▸ rfl
    have hvnow : v.now = b.now := hveq ▸ rfl
    have hvress : v.ress = (b.setRes n R).ress := hveq ▸ rfl
    have hvres : v.resOf n = R := by
      unfold State.resOf
      rw [hvress]
      exact State.resOf_setRes_same hress
    have hvfelt (g : Nat) : v.feltOf g = b.feltOf g := by
      unfold State.feltOf
      rw [hvq]
    have hvcredit (p g : Nat) : v.creditOf p g = b.creditOf p g := by
      unfold State.creditOf
      rw [hvq]
    have hvslice : v.sliceOf i = { b.sliceOf i with fifo := [x.again b.cycle] } := by
      rw [hveq]
      exact State.sliceOf_setSlice_same (s := b.setRes n R) hslices
    have hvs : Table.rising v.cal.slices = true := by
      rw [hveq]
      exact Table.rising_put hslices
    have hvidx : v.sliceIdx n = b.sliceIdx n := hveq ▸ rfl
    have hvprio : v.fld f_CH_RES_CTL_prio n = b.fld f_CH_RES_CTL_prio n := by
      unfold State.fld State.rd
      rw [hvr]
      exact State.fld_stick_other (s := b) hregs (by simp [regAddr, regRow, f_CH_RES_CTL_prio, f_CH_RES_EVENTS_underrun])
    obtain ⟨e, he, hframe, h1, h2, h3, h4, h5, h6, h7, h8⟩ := State.stampEntry_pushes (s := v) (n := n) (i := i) (q := q) (x := x.again b.cycle)
      (held := State.entryWaits n) (hvq ▸ hfelts) (hvq ▸ hcred) hvs (hvress ▸ State.rising_setRes hress R) (by rw [hvres, hR]; exact hold)
      (hi.trans hvidx.symm) (hq.trans hvprio.symm) hxf (by rw [hvfelt, hvcycle]; exact hacc) (hvq ▸ ho) (by rw [hvcredit]; exact hv)
    have hvframe : OnlyChanges [.regs, .que, .vat, .ress, .cal] b v := by
      rw [hveq]
      exact (((OnlyChanges.refl _ _).ress (by decide) _).cal (by decide) _).stick (by decide) _ _
    have her : e.regs = (b.stick f_CH_RES_EVENTS_underrun n).regs := (hframe.2.2 .regs (by decide)).trans hvr
    rw [hvfelt, hvnow, hvcycle] at h1
    rw [hvcredit] at h2
    refine .runs hb hpow rfl hok (hentry.trans he) (hvframe.trans (hframe.mono (by decide))) ⟨h1, ?_, ?_, ?_, h2, ?_, hvq ▸ h5⟩
    · unfold State.on State.fld State.rd
      rw [her]
      exact State.on_stick (s := b) hregs n (by decide) (by decide)
    · rw [h4, hvres, hR]
    · rw [h3, hvslice]
      rfl
    · rw [her]
      exact State.sameBut_stick hregs f_CH_RES_EVENTS_underrun n
  · obtain ⟨h1, h2, h3, h4, h5⟩ := State.pushed_stores (p := 544 + a) (prio := p) (it := it) hfelts hcred hv
    refine .runs hb hpow rfl (decide_eq_true ha) (State.agentTurn_pushes hl hf hp hon hacc ho hv) (h5.que (by decide) _)
      ⟨Table.get_put_same hag, h2, h1, h3, .put hag _ _ _⟩
  · exact .runs hb hpow rfl (decide_eq_true ha) (State.agentTurn_waits hl hf hp ho hv) (OnlyChanges.refl _ _) trivial
  · exact .runs hb hpow rfl (decide_eq_true ha) (State.agentTurn_none hl) (OnlyChanges.refl _ _) trivial
  · cases p with
    | channel n => exact .runs hb hpow rfl hp rfl ((OnlyChanges.refl _ _).then (State.keeps_stampTurn (Within.refl _) (Keeps.refl _) n) (by decide)) trivial
    | agent a => exact .runs hb hpow rfl hp rfl ((OnlyChanges.refl _ _).then (State.keeps_agentTurn (Within.refl _) (Keeps.refl _) a) (by decide)) trivial

end Sys2Proof.Machine
end

section
/-!
PROOFS. Asks and grants of felt credits (R198, R201).
-/

namespace Sys2Proof.Machine

open Sys2Proof

section Asks
variable {s : State} {p f : Nat}

theorem State.ask_asks (hw : s.writesFelt p f = true) (hb : (s.creditOf p f).held < s.batch) (hn : ∀ c, (p * 64 + f, c) ∉ s.que.asks) :
    s.ask p f = { s with que := { s.que with asks := s.que.asks ++ [(p * 64 + f, s.cycle)] } } := by
  unfold State.ask
  refine if_neg ?_
  simpa [hw, hb] using hn

theorem State.ask_none (h : s.writesFelt p f = false ∨ s.batch ≤ (s.creditOf p f).held ∨ ∃ c, (p * 64 + f, c) ∈ s.que.asks) : s.ask p f = s := by
  unfold State.ask
  refine if_pos ?_
  rcases h with h | h | ⟨c, h⟩
  · exact .inl (by simp [h])
  · exact .inr (.inl h)
  · exact .inr (.inr (List.any_eq_true.2 ⟨_, h, by simp⟩))

/-- An ask changes the asks alone. -/
theorem State.ask_asks_only : ∃ l, s.ask p f = { s with que := { s.que with asks := l } } := by
  unfold State.ask
  dsimp only
  split
  · exact ⟨s.que.asks, rfl⟩
  · exact ⟨_, rfl⟩

end Asks

section Grants
variable {s : State} {p f k : Nat}

/-- The batch that a felt could be granted (R198). -/
theorem State.grantable_of (hst : (s.feltOf f).st = .active) (hh : s.creditHeld f = false)
    (hk : k = min s.batch (s.fld f_QUE_FELT_LIMIT_items f - s.feltAlloc f)) : s.grantable f = k := by
  unfold State.grantable
  rw [if_neg (by simp [hst, hh]), hk]

/-- Within the reserve, or above the spill watermark of the shared pool, a grant is of vat credits (R198). -/
theorem State.grant_vat (hg : s.grantable f = k) (hk : 0 < k)
    (h : s.vatAlloc f + s.returnedVat f + k ≤ s.reserve f ∨ s.fld f_QUE_CTL_spill_wm * 1024 + k ≤ s.sharedUsable) : s.grant f = some (k, false) := by
  unfold State.grant
  rw [hg]
  dsimp only
  rw [if_neg hk.ne']
  rcases h with h | h
  · rw [if_pos h]
  · rw [if_pos h, ite_self]

section Spill
variable (hg : s.grantable f = k) (hk : 0 < k) (hr : s.reserve f < s.vatAlloc f + s.returnedVat f + k)
  (hs : s.sharedUsable < s.fld f_QUE_CTL_spill_wm * 1024 + k)
include hg hk hr hs

/-- Otherwise it is of spill-backed credits, while spill is enabled and has place for them (R201). -/
theorem State.grant_spill (hon : s.on f_QUE_CTL_spill_en = true) (hf : k ≤ s.spillFree) : s.grant f = some (k, true) := by
  unfold State.grant
  rw [hg]
  simp [hk.ne', Nat.not_le.2 hr, Nat.not_le.2 hs, hon, hf]

theorem State.grant_none (h : s.on f_QUE_CTL_spill_en = true → s.spillFree < k) : s.grant f = none := by
  unfold State.grant
  rw [hg]
  cases hon : s.on f_QUE_CTL_spill_en with
  | false => simp [hk.ne', Nat.not_le.2 hr, Nat.not_le.2 hs]
  | true => simp [hk.ne', Nat.not_le.2 hr, Nat.not_le.2 hs, Nat.not_le.2 (h hon)]

end Spill

/-- The state once the ask of producer `p` for felt `f` is answered, before any credit is granted. -/
def State.answered (s : State) (p f : Nat) : State := { s with que := { s.que with asks := s.que.asks.filter fun a => decide (a.1 ≠ p * 64 + f) } }

theorem State.answerAsk_none (h : ∀ c, (p * 64 + f, c) ∉ s.que.asks) : s.answerAsk p f = s := by
  have hnone : s.que.asks.find? (fun a => decide (a.1 = p * 64 + f)) = none :=
    List.find?_eq_none.2 fun a ha he => h a.2 (by rw [← of_decide_eq_true he]; exact ha)
  unfold State.answerAsk
  dsimp only
  rw [hnone]

/-- The credits of a producer with a batch added. -/
def Credit.batched (c : Credit) (cycle k : Nat) (spill : Bool) : Credit :=
  if spill then { c.settle cycle with newSpill := (c.settle cycle).newSpill + k, cycle }
  else { c.settle cycle with newVat := (c.settle cycle).newVat + k, cycle }

/-- An ask that is in its felt's turn: the first of its event cycle in order of producers, by one that still writes the felt (R198). -/
structure State.AskDue (s : State) (p f c : Nat) : Prop where
  asked : s.que.asks.find? (fun a => decide (a.1 = p * 64 + f)) = some (p * 64 + f, c)
  first : ∀ a ∈ s.que.asks, a.2 = c → p ≤ a.1 / 64
  writes : s.writesFelt p f = true

section Due
variable {c : Nat} (h : s.AskDue p f c)
include h

theorem State.AskDue.no_earlier : (s.que.asks.any fun e => decide (e.2 = c) && decide (e.1 / 64 < p)) = false := by
  rw [List.any_eq_false]
  intro a ha hlt
  simp only [Bool.and_eq_true, decide_eq_true_eq] at hlt
  exact absurd (h.first a ha hlt.1) (by omega)

theorem State.answerAsk_grants {spill : Bool} (hg : s.grant f = some (k, spill)) :
    s.answerAsk p f = ((s.answered p f).stickIf (spill && ! s.spilling) f_QUE_EVENTS_spill_start).setCredit p f
      ((s.creditOf p f).batched s.cycle k spill) := by
  have hw : (s.answered p f).writesFelt p f = true := h.writes
  have hgrant : (s.answered p f).grant f = some (k, spill) := hg
  have hspill : (s.answered p f).spilling = s.spilling := rfl
  unfold State.answered at hw hgrant hspill
  unfold State.answerAsk
  dsimp only
  rw [h.asked]
  dsimp only
  rw [h.no_earlier, hw, Bool.not_true]
  rw [if_neg Bool.false_ne_true, if_neg Bool.false_ne_true, hgrant]
  dsimp only
  rw [hspill]
  cases spill <;> cases s.spilling <;> rfl

theorem State.answerAsk_fails (hg : s.grant f = none) :
    s.answerAsk p f = (s.answered p f).stickIf (s.grantLacksSpill f) f_QUE_EVENTS_spill_full := by
  have hw : (s.answered p f).writesFelt p f = true := h.writes
  have hgrant : (s.answered p f).grant f = none := hg
  unfold State.answered at hw hgrant
  unfold State.answerAsk
  dsimp only
  rw [h.asked]
  dsimp only
  rw [h.no_earlier, hw, Bool.not_true]
  rw [if_neg Bool.false_ne_true, if_neg Bool.false_ne_true, hgrant]
  rfl

end Due

theorem State.stickIf_que (c : Bool) (g : Fld) : (s.stickIf c g).que = s.que := by cases c <;> rfl

/-- An answer changes the asks and the credits of the producer that asked alone. -/
theorem State.answerAsk_credits (hc : Table.rising s.que.credits = true) :
    Table.SameBut [p * 64 + f] s.que.credits (s.answerAsk p f).que.credits := by
  unfold State.answerAsk
  dsimp only
  split
  · exact .refl _ _
  · split_ifs
    · exact .refl _ _
    · exact .refl _ _
    · split
      · rw [State.stickIf_que]
        exact .refl _ _
      · have hq : ∀ (u : State) (c : Bool) (x : Credit), u.que.credits = s.que.credits → Table.SameBut [p * 64 + f] s.que.credits
            ((u.stickIf c f_QUE_EVENTS_spill_start).setCredit p f x).que.credits := fun u c x hu => by
          cases c <;> exact hu ▸ Table.SameBut.put (hu ▸ hc) _ _ _
        exact hq _ _ _ rfl

end Grants

section Batches
variable (c : Credit) (cycle k : Nat) (spill : Bool)

theorem Credit.batched_held : (c.batched cycle k spill).held = c.held + k := by
  have h := c.settle_held cycle
  unfold Credit.batched
  cases spill <;> (unfold Credit.held at h ⊢; simp; omega)

theorem Credit.batched_cycle : (c.batched cycle k spill).cycle = cycle := by
  unfold Credit.batched
  cases spill <;> rfl

theorem Credit.batched_newVat : (c.batched cycle k false).newVat = (if c.cycle < cycle then 0 else c.newVat) + k := by
  unfold Credit.batched Credit.settle
  rw [if_neg Bool.false_ne_true]
  split <;> rfl

theorem Credit.batched_newSpill : (c.batched cycle k true).newSpill = (if c.cycle < cycle then 0 else c.newSpill) + k := by
  unfold Credit.batched Credit.settle
  rw [if_pos rfl]
  split <;> rfl

end Batches

/-- Settles O31. -/
theorem creditsAreAskedAndGranted : Obligations.CreditsAreAskedAndGranted := by
  intro s t p f hcan hpow hp hf
  obtain ⟨b, hb⟩ : ∃ b, s.begin t = b := ⟨_, rfl⟩
  have hcb : b.canonical := hb ▸ State.canonical_begin hcan t
  have hregs : Table.rising b.regs = true := hcb.fine.regs
  have hcred : Table.rising b.que.credits = true := hcb.fine.credits
  rw [hb]
  have hok : (isCreditor p && isFelt f) = true := by simp [isCreditor, isFelt, hp, hf]
  refine ⟨fun hw hh hn => ?_, fun h => ?_, fun c k hfind hfirst hw hst hheld hk hk0 => ?_, fun h => ?_, ?_, ?_⟩
  · exact .runs hb hpow rfl hok (State.ask_asks hw hh hn) ((OnlyChanges.refl _ _).que (by decide) _) rfl
  · exact .runs hb hpow rfl hok (State.ask_none h) (OnlyChanges.refl _ _) trivial
  · have hdue : b.AskDue p f c := ⟨hfind, hfirst, hw⟩
    have hg := State.grantable_of hst hheld hk
    refine ⟨fun hroom => ?_, fun hres hsh => ⟨fun hon hfree => ?_, fun hon hfree => ?_, fun hon => ?_⟩⟩
    · have hans := State.answerAsk_grants hdue (State.grant_vat hg hk0 hroom)
      obtain ⟨x, hx⟩ : ∃ x, x = (b.creditOf p f).batched b.cycle k false := ⟨_, rfl⟩
      rw [← hx] at hans
      have hcr : ((b.answered p f).setCredit p f x).creditOf p f = x := Table.get_put_same hcred
      have hans : b.answerAsk p f = (b.answered p f).setCredit p f x := hans
      refine .runs hb hpow rfl hok hans (((OnlyChanges.refl _ _).que (by decide) _).que (by decide) _) ⟨rfl, ?_, ?_, ?_, .put hcred _ _ _, rfl⟩
      · rw [hcr, hx, Credit.batched_newVat]
      · rw [hcr, hx, Credit.batched_held]
      · rw [hcr, hx, Credit.batched_cycle]
    · have hans := State.answerAsk_grants hdue (State.grant_spill hg hk0 hres hsh hon hfree)
      obtain ⟨x, hx⟩ : ∃ x, x = (b.creditOf p f).batched b.cycle k true := ⟨_, rfl⟩
      obtain ⟨y, hy⟩ : ∃ y, y = (b.answered p f).stickIf (true && ! b.spilling) f_QUE_EVENTS_spill_start := ⟨_, rfl⟩
      rw [← hx, ← hy] at hans
      have hyq : y.que = (b.answered p f).que := by
        rw [hy]
        cases b.spilling <;> rfl
      have hyf : OnlyChanges [.regs, .que] b y := by
        rw [hy]
        cases b.spilling
        · exact ((OnlyChanges.refl _ _).que (by decide) _).stick (by decide) _ _
        · exact (OnlyChanges.refl _ _).que (by decide) _
      have hyr : Table.SameBut [regAddr .QUE_EVENTS 0 0] b.regs y.regs := by
        rw [hy]
        cases b.spilling
        · exact State.sameBut_stick (s := b.answered p f) hregs f_QUE_EVENTS_spill_start 0
        · exact .refl _ _
      have hyo : y.on f_QUE_EVENTS_spill_start = (b.on f_QUE_EVENTS_spill_start || decide (b.spillUsed = 0)) := by
        have hsp : b.spilling = ! decide (b.spillUsed = 0) := by
          unfold State.spilling
          cases h : b.spillUsed <;> rfl
        rw [hy, hsp]
        cases decide (b.spillUsed = 0)
        · simp [State.stickIf]
          rfl
        · rw [Bool.or_true]
          exact State.on_stick (s := b.answered p f) hregs 0 (by decide) (by decide)
      have hcr : (y.setCredit p f x).creditOf p f = x := Table.get_put_same (by rw [hyq]; exact hcred)
      refine .runs hb hpow rfl hok hans (hyf.que (by decide) _) ⟨?_, ?_, ?_, ?_, hyo, ?_, hyr⟩
      · show y.que.asks = _
        rw [hyq]
        rfl
      · rw [hcr, hx, Credit.batched_newSpill]
      · rw [hcr, hx, Credit.batched_held]
      · show y.que.felts = _
        rw [hyq]
        rfl
      · have : Table.SameBut [p * 64 + f] y.que.credits (y.setCredit p f x).que.credits := .put (by rw [hyq]; exact hcred) _ _ _
        have hyc : y.que.credits = b.que.credits := by
          rw [hyq]
          rfl
        exact hyc ▸ this
    · have hans := State.answerAsk_fails hdue (State.grant_none hg hk0 hres hsh fun _ => hfree)
      have hlack : b.grantLacksSpill f = true := by
        simp [State.grantLacksSpill, hg, hk0.ne', hon, State.grant_none hg hk0 hres hsh fun _ => hfree]
      rw [hlack] at hans
      refine .runs hb hpow rfl hok hans (((OnlyChanges.refl _ _).que (by decide) _).stick (by decide) _ _)
        ⟨rfl, State.on_stick (s := b.answered p f) hregs 0 (by decide) (by decide), ?_⟩
      exact State.sameBut_stick (s := b.answered p f) hregs f_QUE_EVENTS_spill_full 0
    · have hans := State.answerAsk_fails hdue (State.grant_none hg hk0 hres hsh fun h => absurd h (by simp [hon]))
      have hlack : b.grantLacksSpill f = false := by simp [State.grantLacksSpill, hon]
      rw [hlack] at hans
      exact .runs hb hpow rfl hok hans ((OnlyChanges.refl _ _).que (by decide) _) rfl
  · exact .runs hb hpow rfl hok (State.answerAsk_none h) (OnlyChanges.refl _ _) trivial
  · obtain ⟨l, hl⟩ := State.ask_asks_only (s := b) (p := p) (f := f)
    exact .runs hb hpow rfl hok hl ((OnlyChanges.refl _ _).que (by decide) _) rfl
  · exact .runs hb hpow rfl hok rfl ((OnlyChanges.refl _ _).then (State.keeps_answerAsk (Within.refl _) (Keeps.refl _) p f) (by decide))
      (State.answerAsk_credits hcred)

end Sys2Proof.Machine
end

section
/-!
PROOFS. Host reads of felts (R192, R193, R195): word 0 takes an item and leaves it in the reader's pop shadow, which words 1 to 7 are read from.
-/

namespace Sys2Proof.Machine

open Sys2Proof

/-- The words of QUE_FELT_POP stand at their addresses. -/
theorem regAt_pop : ∀ f < 64, ∀ w < 8, regAt (regAddr .QUE_FELT_POP f w) = some (.QUE_FELT_POP, f, w) := by decide

section Pops
variable {s : State} {m f : Nat} {it : Item}

theorem State.readAt_pop {w : Nat} {bad : Bool} (hf : f < 64) (hw : w < 8) :
    s.readAt m (regAddr .QUE_FELT_POP f w) bad =
      ⟨(s.readReg m .QUE_FELT_POP f w).1, 0, (s.readReg m .QUE_FELT_POP f w).2⟩ := by
  have haddr : regAddr .QUE_FELT_POP f w = 0x800301040 + f * 0x100 + w * 4 := rfl
  refine State.readAt_of_reg (by omega) ?_
  have hblk : blkOf (regAddr .QUE_FELT_POP f w) = some (.que, 0x1040 + f * 0x100 + w * 4) := by
    have hdiv : (regAddr .QUE_FELT_POP f w - 0x800000000) / 0x100000 = 3 := by omega
    have hmod : (regAddr .QUE_FELT_POP f w - 0x800000000) % 0x100000 = 0x1040 + f * 0x100 + w * 4 := by omega
    unfold blkOf
    rw [if_neg (by omega), if_pos (by omega), hdiv, hmod]
    rfl
  unfold State.target
  rw [if_neg (by omega), if_neg (by omega), if_neg (by omega), hblk, regAt_pop f hf w hw]
  rfl

/-- A master's pop shadow holds the item stored last, for its felt alone (R193). -/
theorem State.popShadow_storePop (g : Nat) : (s.storePop m f it).popShadow m g = if f = g then some it else none := by
  have hother : ∀ l : List PopShadow, ∀ x ∈ l.filter (fun x => decide (x.master ≠ m)), x.master ≠ m :=
    fun l x hx => of_decide_eq_true (List.mem_filter.1 hx).2
  have hfind (l : List PopShadow) (hl : ∀ x ∈ l, x.master ≠ m) :
      ((l ++ [(⟨m, f, it⟩ : PopShadow)]).find? (fun x => decide (x.master = m ∧ x.felt = g))).map (fun x => x.item) =
        if f = g then some it else none := by
    have hnone : l.find? (fun x => decide (x.master = m ∧ x.felt = g)) = none :=
      List.find?_eq_none.2 fun x hx hx' => hl x hx (of_decide_eq_true hx').1
    rw [List.find?_append, hnone]
    by_cases hfg : f = g <;> simp [hfg]
  unfold State.storePop State.popShadow
  by_cases hm : m < 0x1000
  · simp only [hm, if_true]
    refine hfind _ fun x hx => ?_
    split at hx
    · exact hother _ x (List.mem_of_mem_drop hx)
    · exact hother _ x hx
  · simp only [hm, if_false]
    exact hfind _ (hother _)

/-- Storing a pop shadow changes the shadows alone. -/
theorem State.storePop_only : ∃ r i, s.storePop m f it = { s with que := { s.que with popRemote := r, popInternal := i } } := by
  unfold State.storePop
  dsimp only
  split
  · exact ⟨_, s.que.popInternal, rfl⟩
  · exact ⟨s.que.popRemote, _, rfl⟩

/-- The read of word 0 that answers the idle item (R195). -/
def State.popIdle (s : State) (m f : Nat) : State := s.storePop m f (idleItem s.raster)

theorem idleItem_w0 (t : RTime) : (idleItem t).w0 = 0 := rfl

theorem State.popRead_held (hc : s.fld f_QUE_FELT_CTL_consumer f = 0) (hh : s.consumerHeld f = true) : s.popRead m f = (s.popIdle m f, 0) := by
  unfold State.popRead State.consumer
  simp only [hc, hh, if_true, ne_eq, not_true_eq_false, if_false]
  rfl

theorem State.popRead_other (hc : s.fld f_QUE_FELT_CTL_consumer f ≠ 0) :
    s.popRead m f = ((s.accessFault 0x402 1 (.felt f) m 1 (regAddr .QUE_FELT_POP f 0)).popIdle m f, 0) := by
  unfold State.popRead State.consumer
  simp only [ne_eq, hc, not_false_eq_true, if_true]
  rfl

/-- Where the next item does not wait in the spill region a read fetches nothing. -/
theorem State.fetchFront_none (h : s.refillWait f = false) : ∀ k, State.fetchFront f k s = s
  | 0 => rfl
  | _ + 1 => if_neg (by simp [h])

section Free
variable (hc : s.fld f_QUE_FELT_CTL_consumer f = 0) (hh : s.consumerHeld f = false) (ht : (s.feltOf f).takeCycle ≠ some s.cycle)
include hc hh ht

/-- A felt with nothing to deliver answers the idle item (R195). -/
theorem State.popRead_empty (hl : s.frontLane f = none) : s.popRead m f = (s.popIdle m f, 0) := by
  have hwait : s.refillWait f = false := by simp [State.refillWait, State.front, hl]
  have htake : s.take f = none := by simp [State.take, hl]
  unfold State.popRead State.consumer
  simp only [hc, hh, ht, ne_eq, not_true_eq_false, if_false, Bool.false_eq_true, State.fetchFront_none hwait, htake]
  rfl

end Free

end Pops

section Words
variable {s : State} {m f w : Nat} {it : Item}

theorem State.readReg_popWord (hw : w ≠ 0) : s.readReg m .QUE_FELT_POP f w = s.popWord m f w := if_neg hw

theorem State.popWord_shadow (h : s.popShadow m f = some it) : s.popWord m f w = (s, it.word w) := by
  unfold State.popWord
  rw [h]

theorem State.popWord_none (h : s.popShadow m f = none) : s.popWord m f w = (s.tally f_DEVICE_SNAP_MISS_count, 0) := by
  unfold State.popWord
  rw [h]

end Words

section Takes
variable {s : State} {m f q : Nat} {x : QItem} {rest : List QItem}

/-- The felt once its consumer has taken the head of lane `q` (R192). -/
def Felt.takenFrom (y : Felt) (q : Nat) (rest : List QItem) (now c : Nat) : Felt :=
  let y := y.setLane q rest
  { y with takeCycle := some c, timer := if y.depth = 0 then none else some now, emptyAt := if y.depth = 0 then now else y.emptyAt }

/-- The state once the next item of felt `f` is taken; a vat buffer that it held is returned (R192, R199). -/
def State.taken (s : State) (f q : Nat) (x : QItem) (rest : List QItem) : State :=
  if x.place = .vat then (s.setFelt f ((s.feltOf f).takenFrom q rest s.now s.cycle)).giveBack f false 1
  else s.setFelt f ((s.feltOf f).takenFrom q rest s.now s.cycle)

theorem State.take_front (hl : s.frontLane f = some q) (hx : (s.feltOf f).lane q = x :: rest) (hp : x.place ≠ .spill) :
    s.take f = some (x.item, s.taken f q x rest) := by
  have hdepth : (Felt.takenFrom (s.feltOf f) q rest s.now s.cycle) = { (s.feltOf f).setLane q rest with
      takeCycle := some s.cycle, timer := if decide (((s.feltOf f).setLane q rest).depth = 0) then none else some s.now,
      emptyAt := if decide (((s.feltOf f).setLane q rest).depth = 0) then s.now else ((s.feltOf f).setLane q rest).emptyAt } := by
    simp [Felt.takenFrom]
  unfold State.take
  rw [hl]
  dsimp only
  rw [hx]
  dsimp only
  rw [if_neg hp, ← hdepth]
  rfl

theorem State.taken_felts (hf : Table.rising s.que.felts = true) :
    (s.taken f q x rest).feltOf f = (s.feltOf f).takenFrom q rest s.now s.cycle ∧
      Table.SameBut [f] s.que.felts (s.taken f q x rest).que.felts ∧ OnlyChanges [.que] s (s.taken f q x rest) := by
  unfold State.taken
  split
  · exact ⟨Table.get_put_same hf, .put hf _ _ _, ((OnlyChanges.refl _ _).que (by decide) _).que (by decide) _⟩
  · exact ⟨Table.get_put_same hf, .put hf _ _ _, (OnlyChanges.refl _ _).que (by decide) _⟩

/-- A vat buffer that a take returns counts for its felt in the event cycle (R199). -/
theorem State.taken_returns : (s.taken f q x rest).returnedVat f = s.returnedVat f + if x.place = .vat then 1 else 0 := by
  unfold State.taken
  split
  · unfold State.returnedVat State.giveBack
    by_cases h : s.que.backCycle = s.now / 256 <;> simp [h, State.setFelt, State.cycle]
  · rfl

theorem State.popRead_takes (hc : s.fld f_QUE_FELT_CTL_consumer f = 0) (hh : s.consumerHeld f = false)
    (ht : (s.feltOf f).takeCycle ≠ some s.cycle) (hl : s.frontLane f = some q) (hx : (s.feltOf f).lane q = x :: rest) (hp : x.place ≠ .spill) :
    s.popRead m f = ((s.taken f q x rest).storePop m f x.item, x.item.w0) := by
  have hwait : s.refillWait f = false := by
    have hfront : s.front f = some x := by simp [State.front, hl, hx]
    simpa [State.refillWait, hfront] using hp
  unfold State.popRead State.consumer
  simp only [hc, hh, ht, ne_eq, not_true_eq_false, if_false, Bool.false_eq_true, State.fetchFront_none hwait, State.take_front hl hx hp]

end Takes

/-- Settles O32. -/
theorem hostReadsOfFelts : Obligations.HostReadsOfFelts := by
  intro s t m f hcan hpow hf hans
  obtain ⟨b, hb⟩ : ∃ b, s.begin t = b := ⟨_, rfl⟩
  have hcb : b.canonical := hb ▸ State.canonical_begin hcan t
  have hregs : Table.rising b.regs = true := hcb.fine.regs
  have hfelts : Table.rising b.que.felts = true := hcb.fine.felts
  rw [hb]
  have hokf : isFelt f = true := by simpa [isFelt] using hf
  have hans' : b.answers m = true := by rw [← hb]; simpa using hans
  -- a read of a word of the felt completes with what that read leads to
  have hread {c : Instr} {l : List Part} {P : State → State → Prop} {ok : Bool} (w : Nat) (hw : w < 8) {u : State} {v : Word}
      (hexec : exec c s = outIf ok (s.act t fun s => s.access m fun s => s.readAt m (regAddr .QUE_FELT_POP f w) false)) (hok : ok = true)
      (he : b.readReg m .QUE_FELT_POP f w = (u, v)) (hframe : OnlyChanges l b u) (hl : .resp ∈ l)
      (hP : P b { u with resp := ⟨m, false, v⟩ }) : Completes c t s l P := by
    refine .runs hb hpow hexec hok ?_ (hframe.resp hl ⟨m, false, v⟩) hP
    rw [State.access_of_answers hans', State.readAt_pop hf hw, he]
    rfl
  have hpop {l : List Part} {P : State → State → Prop} {u : State} {v : Word} (he : b.popRead m f = (u, v)) (hframe : OnlyChanges l b u)
      (hl : .resp ∈ l) (hP : P b { u with resp := ⟨m, false, v⟩ }) : Completes (.feltPop t m f) t s l P :=
    hread 0 (by decide) rfl hokf he hframe hl hP
  have hstored (u : State) (it : Item) : OnlyChanges [.que] u (u.storePop m f it) := by
    obtain ⟨r, i, h⟩ := State.storePop_only (s := u) (m := m) (f := f) (it := it)
    rw [h]
    exact (OnlyChanges.refl _ _).que (by decide) _
  have hkeepf (u : State) (it : Item) : (u.storePop m f it).que.felts = u.que.felts := by
    obtain ⟨r, i, h⟩ := State.storePop_only (s := u) (m := m) (f := f) (it := it)
    rw [h]
  have hidle {P : State → State → Prop} (he : b.popRead m f = (b.popIdle m f, 0))
      (hP : ∀ e : State, e.resp = ⟨m, false, 0⟩ → e.popShadow m f = some (idleItem b.raster) → e.que.felts = b.que.felts → P b e) :
      Completes (.feltPop t m f) t s [.que, .resp] P := by
    refine hpop he ((hstored b _).mono (by decide)) (by decide) (hP _ rfl ?_ (hkeepf b _))
    exact (State.popShadow_storePop (s := b) f).trans (if_pos rfl)
  refine ⟨fun hc hh ht => ⟨fun q x rest hl hx hp => ?_, fun hl => ?_⟩, fun hc hh => ?_, fun hc => ?_, fun w h1 h7 => ⟨fun it hit => ?_, fun hnone => ?_⟩,
    fun w h1 h7 r => ?_, fun r => ?_⟩
  · obtain ⟨g1, g2, g3⟩ := State.taken_felts (q := q) (x := x) (rest := rest) (f := f) hfelts
    refine hpop (State.popRead_takes hc hh ht hl hx hp) ((g3.trans (hstored _ _)).mono (by decide)) (by decide) ⟨rfl, ?_, fun g hg => ?_, ?_, ?_, ?_⟩
    · exact (State.popShadow_storePop f).trans (if_pos rfl)
    · exact (State.popShadow_storePop g).trans (if_neg (Ne.symm hg))
    · show Table.get _ _ ((b.taken f q x rest).storePop m f x.item).que.felts = _
      rw [hkeepf]
      exact g1
    · show Table.SameBut [f] b.que.felts ((b.taken f q x rest).storePop m f x.item).que.felts
      rw [hkeepf]
      exact g2
    · obtain ⟨r, i, h⟩ := State.storePop_only (s := b.taken f q x rest) (m := m) (f := f) (it := x.item)
      have hret : ((b.taken f q x rest).storePop m f x.item).returnedVat f = (b.taken f q x rest).returnedVat f := by
        rw [h]
        rfl
      exact hret.trans State.taken_returns
  · exact hidle (State.popRead_empty hc hh ht hl) fun e h1 h2 h3 => ⟨h1, h2, h3⟩
  · exact hidle (State.popRead_held hc hh) fun e h1 h2 h3 => ⟨h1, h2, h3⟩
  · refine hpop (State.popRead_other hc) ?_ (by decide) ⟨rfl, ?_, _, (State.popShadow_storePop f).trans (if_pos rfl)⟩
    · exact ((OnlyChanges.refl _ _).accessFault (by decide) _ _ _ _ _ _).trans ((hstored _ _).mono (by decide))
    · exact (hstored _ _).2.2 .flt (by decide)
  · have hok : (isFelt f && isTailWord w) = true := by simp [hokf, isTailWord, h1, h7]
    exact hread (u := b) (v := it.word w) w (by omega) rfl hok ((State.readReg_popWord (by omega)).trans (State.popWord_shadow hit))
      (OnlyChanges.refl _ _) (by decide) rfl
  · have hok : (isFelt f && isTailWord w) = true := by simp [hokf, isTailWord, h1, h7]
    exact hread w (by omega) rfl hok ((State.readReg_popWord (by omega)).trans (State.popWord_none hnone))
      ((OnlyChanges.refl _ _).tally (by decide) _ _ _) (by decide) ⟨rfl, State.snapMiss_tally hregs, State.sameBut_snapMiss_tally hregs⟩
  · have hok : (isFelt f && isTailWord w) = true := by simp [hokf, isTailWord, h1, h7]
    have hword : ∃ u v, b.readReg r .QUE_FELT_POP f w = (u, v) ∧ OnlyChanges [.regs] b u := by
      cases hs : b.popShadow r f with
      | some it => exact ⟨_, _, (State.readReg_popWord (by omega)).trans (State.popWord_shadow hs), OnlyChanges.refl _ _⟩
      | none =>
        exact ⟨_, _, (State.readReg_popWord (by omega)).trans (State.popWord_none hs), (OnlyChanges.refl _ _).tally (by decide) _ _ _⟩
    obtain ⟨u, v, hu, hframe⟩ := hword
    cases hr : b.answers r with
    | true =>
      refine .runs hb hpow rfl hok (e := { u with resp := ⟨r, false, v⟩ }) ?_ ((hframe.mono (by decide)).resp (by decide) _)
        (hframe.2.2 .que (by decide))
      rw [State.access_of_answers hr, State.readAt_pop hf (by omega), hu]
      rfl
    | false =>
      refine .runs hb hpow rfl hok (e := b.answerError r) ?_ ((OnlyChanges.refl _ _).resp (by decide) _) rfl
      unfold State.access
      rw [hr, if_neg Bool.false_ne_true]
  · exact ⟨_, by show execFeltPop t r f s = _; unfold execFeltPop outIf; rw [hokf]; rfl⟩

end Sys2Proof.Machine
end

section
/-!
PROOFS. The CAPTURE and STREAM consumers (R192, R194): the item taken, the burst or flit it completes, the ring's places and their release.
-/

namespace Sys2Proof.Machine

open Sys2Proof

section Bursts
variable {s : State} {f q p c : Nat} {x : QItem} {rest : List QItem} {y : Felt}

/-- A take changes the queues alone. -/
theorem State.taken_only : ∃ Q, s.taken f q x rest = { s with que := Q } := by
  unfold State.taken
  split
  · exact ⟨_, rfl⟩
  · exact ⟨_, rfl⟩

/-- A burst that a CAPTURE consumer sends is under way to its places in the ring (R194). -/
theorem State.sendBurst_capture (hregs : Table.rising s.regs = true) (hc : s.fld f_QUE_FELT_CTL_consumer f = 1)
    (hb : (s.feltOf f).burst ≠ []) : ∃ r m,
      s.sendBurst f = ({ s with regs := r, memc := m } : State).setFelt f { s.feltOf f with
        burst := []
        inflight := (s.feltOf f).inflight ++ [(((s.feltOf f).taken + 2 ^ 32 - (s.feltOf f).burst.length) % 2 ^ 32, (s.feltOf f).burst)] } ∧
      Table.SameBut wakeRegs s.regs r := by
  obtain ⟨r, m, hm, hr⟩ := State.memArrive_counts hregs
  refine ⟨r, m, ?_, hr⟩
  unfold State.sendBurst State.consumer
  simp only [hb, if_false, hc, hm]

/-- A flit that a STREAM consumer sends leaves on the port that routing gives (R194). -/
theorem State.sendBurst_stream (hc : s.fld f_QUE_FELT_CTL_consumer f = 2) (hb : (s.feltOf f).burst ≠ []) (hh : s.streamHop f = some (p, c)) :
    s.sendBurst f = (s.setFelt f { s.feltOf f with burst := [], streamSeq := ((s.feltOf f).streamSeq + 1) % 2 ^ 32 }).sendOn p
      { s.streamFlit f (s.feltOf f).burst with vc := c - 6 } := by
  obtain ⟨wrap, hr, hvc⟩ : ∃ wrap, s.routeTo (s.fld f_QUE_FELT_DEST_node f) = some (p, wrap) ∧ c = 6 + nextVc 0 p wrap none := by
    unfold State.streamHop at hh
    split at hh
    · rename_i q wrap h
      obtain ⟨rfl, rfl⟩ := Prod.mk.inj (Option.some.inj hh)
      exact ⟨wrap, h, rfl⟩
    · cases hh
  obtain ⟨z, hz⟩ : ∃ z, z = { s.feltOf f with burst := [], streamSeq := ((s.feltOf f).streamSeq + 1) % 2 ^ 32 } := ⟨_, rfl⟩
  have hroute : (s.setFelt f z).tryRoute (s.streamFlit f (s.feltOf f).burst) none =
      some ((s.setFelt f z).sendOn p { s.streamFlit f (s.feltOf f).burst with vc := c - 6 }) := by
    have hr' : (s.setFelt f z).routeTo (s.streamFlit f (s.feltOf f).burst).dst = some (p, wrap) := hr
    unfold State.tryRoute
    rw [hr', hvc, Nat.add_sub_cancel_left]
    rfl
  unfold State.sendBurst State.consumer
  simp only [hb, if_false, hc, ← hz]
  unfold State.routeFlit
  simp [hroute]

/-- A consumer whose felt is ACTIVE sends no part-filled burst. -/
theorem State.drainBurst_active (h : (s.feltOf f).st = .active) : s.drainBurst f = s := by simp [State.drainBurst, h]

section Takes
variable (hfelts : Table.rising s.que.felts = true) (hl : s.frontLane f = some q) (hx : (s.feltOf f).lane q = x :: rest) (hp : x.place ≠ .spill)
  (hm : s.mayTake f = true) (hst : (s.feltOf f).st = .active)
include hfelts hl hx hp hm hst

/-- The felt with an item in its CAPTURE burst. -/
def Felt.captured (y : Felt) (it : Item) : Felt := { y with burst := y.burst ++ [it], taken := (y.taken + 1) % 2 ^ 32, ringFull := false }

/-- A CAPTURE consumer takes the next item into its burst, which is sent once it is full (R194). -/
theorem State.captureTake_takes (hc : s.fld f_QUE_FELT_CTL_consumer f = 1) (hr : s.ringIsFull f = false) :
    s.captureTake f =
      if (s.feltOf f).burst.length = 7 then
        ((s.taken f q x rest).setFelt f (((s.feltOf f).takenFrom q rest s.now s.cycle).captured x.item)).sendBurst f
      else (s.taken f q x rest).setFelt f (((s.feltOf f).takenFrom q rest s.now s.cycle).captured x.item) := by
  have htaken := (State.taken_felts (f := f) (q := q) (x := x) (rest := rest) hfelts).1
  have hrise : Table.rising (s.taken f q x rest).que.felts = true := by
    unfold State.taken
    split <;> exact Table.rising_put hfelts
  unfold State.captureTake State.consumer
  simp only [hc, hm, hr, State.take_front hl hx hp, ne_eq, not_true_eq_false, Bool.not_true, Bool.false_eq_true, or_self, if_false]
  rw [htaken]
  have hburst : ((s.feltOf f).takenFrom q rest s.now s.cycle).burst = (s.feltOf f).burst := rfl
  rw [hburst]
  by_cases h7 : (s.feltOf f).burst.length = 7
  · rw [if_pos h7, if_pos h7]
    rfl
  · rw [if_neg h7, if_neg h7, State.drainBurst_active]
    · rfl
    · rw [State.feltOf_setFelt_same hrise]
      exact hst

/-- A STREAM consumer takes the next item into its flit, which is sent once it is full (R194). -/
theorem State.streamTake_takes (hc : s.fld f_QUE_FELT_CTL_consumer f = 2) (hh : s.heldBack f = false) :
    s.streamTake f =
      if (s.feltOf f).burst.length = 6 then
        ((s.taken f q x rest).setFelt f { (s.feltOf f).takenFrom q rest s.now s.cycle with
          burst := (s.feltOf f).burst ++ [x.item] }).sendBurst f
      else (s.taken f q x rest).setFelt f { (s.feltOf f).takenFrom q rest s.now s.cycle with burst := (s.feltOf f).burst ++ [x.item] } := by
  have htaken := (State.taken_felts (f := f) (q := q) (x := x) (rest := rest) hfelts).1
  have hrise : Table.rising (s.taken f q x rest).que.felts = true := by
    unfold State.taken
    split <;> exact Table.rising_put hfelts
  unfold State.streamTake State.consumer
  simp only [hc, hm, hh, State.take_front hl hx hp, ne_eq, not_true_eq_false, Bool.not_true, Bool.false_eq_true, or_self, if_false]
  rw [htaken]
  have hburst : ((s.feltOf f).takenFrom q rest s.now s.cycle).burst = (s.feltOf f).burst := rfl
  rw [hburst]
  by_cases h6 : (s.feltOf f).burst.length = 6
  · rw [if_pos h6, if_pos h6]
  · rw [if_neg h6, if_neg h6, State.drainBurst_active]
    rw [State.feltOf_setFelt_same hrise]
    exact hst

end Takes

/-- A CAPTURE consumer that meets a full ring stops, and reports it once (R194). -/
theorem State.captureTake_full (hc : s.fld f_QUE_FELT_CTL_consumer f = 1) (hm : s.mayTake f = true) (hr : s.ringIsFull f = true)
    (hd : (s.feltOf f).depth ≠ 0) (hn : (s.feltOf f).ringFull = false) :
    s.captureTake f = (s.setFelt f { s.feltOf f with ringFull := true }).assertSrc (srcMem 15) := by
  unfold State.captureTake State.consumer
  simp [hc, hm, hr, hd, hn]

theorem State.streamTake_held (h : s.heldBack f = true) : s.streamTake f = s := by
  unfold State.streamTake
  exact if_pos (.inr (.inr h))

theorem State.emptyFor_sends (hd : (s.feltOf f).depth = 0) (h : (s.feltOf f).emptyAt + us 1 ≤ s.now) : s.emptyFor f = s.sendBurst f := by
  unfold State.emptyFor
  exact if_pos ⟨hd, h⟩

theorem State.emptyFor_early (h : s.now < (s.feltOf f).emptyAt + us 1) : s.emptyFor f = s := by
  unfold State.emptyFor
  exact if_neg fun g => absurd g.2 (Nat.not_le.2 h)

end Bursts

section Writes
variable {s : State}

theorem Item.bytes_length (x : Item) : x.bytes.length = 32 := by
  unfold Item.bytes
  simp [List.length_flatMap]

/-- The stack's access to its rows in service leaves its bytes and what was lost alone (R239). -/
theorem State.keeps_memAccess_service (h : s.memc.st = .service) (p a len : Nat) : Keeps 412850 s (s.memAccess p a len) := by
  have hne : ¬ s.memc.st = .retention := by simp [h]
  unfold State.memAccess
  simp only [hne, if_false]
  exact State.keeps_setMemc (show 2048 ||| 412850 = 412850 by decide) (State.keeps_each (Keeps.refl s) _ _ fun b v hv => State.keeps_rowAccess (Within.refl _) hv p b) _ id

/-- Bytes written where no copy is kept stand in the stack, and no other byte changes (R238). -/
theorem State.memWrite_stack : ∀ (l : List Byte) {s : State} (a : Nat), Table.rising s.hbm = true →
    (∀ j < l.length, s.copyAddr (a + j) = none) → ∃ H M, s.memWrite a l = { s with hbm := H, memc := M } ∧
      ({ s with hbm := H } : State).stackBytes a l.length = l ∧ Table.SameBut ((List.range l.length).map fun j => a + j) s.hbm H
  | [], s, a, hr, hc => ⟨s.hbm, s.memc, rfl, rfl, .refl _ _⟩
  | b :: bs, s, a, hr, hc => by
    have hnone : (s.setHbm a b).copyAddr a = none := hc 0 (Nat.succ_pos _)
    have hstep : s.memWrite a (b :: bs) = (s.setHbm a b).memWrite (a + 1) bs := by
      conv => lhs; unfold State.memWrite
      dsimp only
      rw [hnone]
    have hput : Table.SameBut [a] s.hbm (s.setHbm a b).hbm := .put hr _ _ _
    have htail : ∀ j < bs.length, (s.setHbm a b).copyAddr (a + 1 + j) = none := fun j hj => by
      have := hc (j + 1) (Nat.succ_lt_succ hj)
      rwa [Nat.add_assoc, Nat.add_comm 1 j]
    obtain ⟨H, M, hw, hs, hsame⟩ := State.memWrite_stack bs (s := s.setHbm a b) (a + 1) (Table.rising_put hr) htail
    have hmem : ∀ k ∈ (List.range bs.length).map fun j => a + 1 + j, k ∈ (List.range (b :: bs).length).map fun j => a + j := fun k hk => by
      obtain ⟨j, hj, rfl⟩ := List.mem_map.1 hk
      exact List.mem_map.2 ⟨j + 1, List.mem_range.2 (Nat.succ_lt_succ (List.mem_range.1 hj)), by omega⟩
    have hhead : a ∉ (List.range bs.length).map fun j => a + 1 + j := fun hk => by
      obtain ⟨j, -, hj⟩ := List.mem_map.1 hk
      omega
    refine ⟨H, M, hstep.trans hw, ?_, (hput.mono ?_).trans (hsame.mono hmem)⟩
    · have hfirst : Table.get (s.hbmDefault a) a H = b := (hsame a hhead _).trans (Table.get_put_same hr)
      have hrange : List.range' a (b :: bs).length = a :: List.range' (a + 1) bs.length := rfl
      unfold State.stackBytes
      rw [hrange, List.map_cons]
      exact congrArg₂ List.cons hfirst hs
    · intro k hk
      exact List.mem_map.2 ⟨0, List.mem_range.2 (Nat.succ_pos _), (List.mem_singleton.1 hk).symm⟩

/-- Where a port has no request under way none of its requests is put in order. -/
theorem State.portOrder_none (h : s.memc.reqs = []) (p a len : Nat) : s.portOrder p a len = s := by
  simp [State.portOrder, h, State.each]

theorem State.captureWritten_none {f : Nat} (h : (s.feltOf f).inflight = []) : s.captureWritten f = s := by simp [State.captureWritten, h]

/-- The place in the ring of the item numbered `k` (R194). -/
def State.ringPlace (s : State) (f k : Nat) : Nat := s.fld f_QUE_FELT_RING_BASE_pages f * 4096 + k % 2 ^ 32 % s.ringItems f * 32

theorem State.captureWritten_one {f k : Nat} {it : Item} {l : List (Nat × List Item)} (h : (s.feltOf f).inflight = (k, [it]) :: l)
    (hr : s.memc.reqs = []) (hs : 0 < s.ringItems f) :
    s.captureWritten f = ((s.memAccess 2 (s.ringPlace f k) 32).memWrite (s.ringPlace f k) it.bytes).setFelt f
      { ((s.memAccess 2 (s.ringPlace f k) 32).memWrite (s.ringPlace f k) it.bytes).feltOf f with
        inflight := l, written := ((s.feltOf f).written + 1) % 2 ^ 32 } := by
  have hplace : s.fld f_QUE_FELT_RING_BASE_pages f * 4096 + (k + 0) % 2 ^ 32 % max 1 (s.ringItems f) * 32 = s.ringPlace f k := by
    unfold State.ringPlace
    rw [Nat.add_zero, Nat.max_eq_right hs]
  unfold State.captureWritten
  simp only [h, List.zipIdx_cons, List.zipIdx_nil, State.each, List.foldl_cons, List.foldl_nil, hplace, State.portOrder_none hr]
  rfl

/-- A completed write of a burst changes memory and what a memory access may, and takes the burst off the felt. -/
theorem State.captureWritten_some {f k : Nat} {items : List Item} {l : List (Nat × List Item)} (h : (s.feltOf f).inflight = (k, items) :: l) :
    ∃ v, Keeps 425138 s v ∧ s.captureWritten f =
      v.setFelt f { v.feltOf f with inflight := l, written := ((s.feltOf f).written + items.length) % 2 ^ 32 } := by
  unfold State.captureWritten
  simp only [h]
  refine ⟨_, State.keeps_each (Keeps.refl s) _ _ fun e u hu => ?_, rfl⟩
  exact State.keeps_memWrite (show 6144 ||| 425138 = 425138 by decide) _
    (State.keeps_memAccess (Within.refl _) (State.keeps_portOrder (show 416946 ||| 425138 = 425138 by decide) hu ..) ..) _

end Writes

section Release
variable {s : State} {m f : Nat} {v : Word}

/-- What writing QUE_FELT_RING_RD makes of the felt: a full ring reported before is one no more where it has places (R194). -/
def State.ringReleased (s : State) (f : Nat) : Felt := { s.feltOf f with ringFull := (s.feltOf f).ringFull && s.ringIsFull f }

theorem State.ringIsFull_of_taken {t : State} (h : (t.feltOf f).taken = (s.feltOf f).taken) (hr : t.regs = s.regs) :
    t.ringIsFull f = s.ringIsFull f := by
  unfold State.ringIsFull State.ringItems State.fld State.rd
  rw [h, hr]

theorem State.acted_ringRd {codes : Option (List Int)} {bad : Bool} (h : Table.rising s.que.felts = true) :
    ∃ e, s.acted m .QUE_FELT_RING_RD f v codes bad = e ∧ OnlyChanges [.que] s e ∧ e.feltOf f = s.ringReleased f ∧
      Table.SameBut [f] s.que.felts e.que.felts ∧ e.ringIsFull f = s.ringIsFull f := by
  unfold State.ringReleased
  show ∃ e, (if s.ringIsFull f then s else s.setFelt f { s.feltOf f with ringFull := false }) = e ∧ _
  cases hr : s.ringIsFull f with
  | true =>
    refine ⟨s, rfl, OnlyChanges.refl _ _, ?_, .refl _ _, hr⟩
    rw [Bool.and_true]
  | false =>
    obtain ⟨z, hz⟩ : ∃ z, z = { s.feltOf f with ringFull := false } := ⟨_, rfl⟩
    have hf : (s.setFelt f z).feltOf f = z := State.feltOf_setFelt_same h
    have htaken : ((s.setFelt f z).feltOf f).taken = (s.feltOf f).taken := by rw [hf, hz]
    rw [← hz]
    refine ⟨_, if_neg Bool.false_ne_true, (OnlyChanges.refl _ _).que (by decide) _, ?_, .put h _ _ _,
      (State.ringIsFull_of_taken htaken rfl).trans hr⟩
    rw [Bool.and_false, ← hz]
    exact hf

theorem rwMask_ringRd : rwMask .QUE_FELT_RING_RD = BitVec.allOnes 32 := by decide

theorem stored_ringRd (old v : Word) : stored .QUE_FELT_RING_RD old v 0 = v := by
  refine BitVec.eq_of_getLsbD_eq fun i hi => ?_
  rw [stored_getLsbD, rwMask_ringRd, show w1cMask .QUE_FELT_RING_RD = 0 by decide]
  simp only [BitVec.getLsbD_allOnes, hi, decide_true, if_true, BitVec.ofNat_eq_ofNat, BitVec.getLsbD_zero, Bool.and_false, Bool.not_false,
    Bool.and_true]

/-- A write to QUE_FELT_RING_RD that is in range is stored, and places of the ring are released (R194). -/
theorem State.regWrite_ringRd (h : s.shielded (regAddr .QUE_FELT_RING_RD f 0) = 0) (hb : s.ringRdBad f v = false) :
    s.regWrite m .QUE_FELT_RING_RD f 0 v none false = (s.wr .QUE_FELT_RING_RD v f).acted m .QUE_FELT_RING_RD f v none false := by
  rw [State.regWrite_plain (by decide) h, State.writePlain_taken (by decide)]
  · rw [stored_ringRd]
    unfold State.changed
    dsimp only
    rw [ite_self]
  · exact differs_eq_false fun i hi => absurd hi (by rw [show rwiMask .QUE_FELT_RING_RD = 0 by decide]; simp)
  · simp [State.barred, regRow]
  · unfold State.refusals
    simp [hb]

/-- A write to QUE_FELT_RING_RD that is refused is a fault and keeps the register (R194). -/
theorem State.regWrite_ringRd_refused (h : s.shielded (regAddr .QUE_FELT_RING_RD f 0) = 0) (hb : s.ringRdBad f v = true)
    (hv : v ≠ s.rd .QUE_FELT_RING_RD f) :
    s.regWrite m .QUE_FELT_RING_RD f 0 v none false =
      ((s.accessFault 0x004 1 .none m 2 (regAddr .QUE_FELT_RING_RD f 0)).wr .QUE_FELT_RING_RD (s.rd .QUE_FELT_RING_RD f) f).acted m
        .QUE_FELT_RING_RD f v none false := by
  rw [State.regWrite_plain (by decide) h]
  have hrwi : differs (s.rd .QUE_FELT_RING_RD f) v (rwiMask .QUE_FELT_RING_RD) = false :=
    differs_eq_false fun i hi => absurd hi (by rw [show rwiMask .QUE_FELT_RING_RD = 0 by decide]; simp)
  have hbar : s.barred m .QUE_FELT_RING_RD f v (s.rd .QUE_FELT_RING_RD f) = none := by simp [State.barred, regRow]
  have hdiff : differs (s.rd .QUE_FELT_RING_RD f) v (BitVec.allOnes 32 &&& rwMask .QUE_FELT_RING_RD) = true := by
    rw [rwMask_ringRd]
    unfold differs
    rw [BitVec.and_self, BitVec.and_allOnes]
    exact decide_eq_true fun h => hv (BitVec.xor_eq_zero_iff.1 h).symm
  have hkeep : stored .QUE_FELT_RING_RD (s.rd .QUE_FELT_RING_RD f) v (BitVec.allOnes 32) = s.rd .QUE_FELT_RING_RD f := by
    unfold stored
    rw [rwMask_ringRd, show w1cMask .QUE_FELT_RING_RD = 0 by decide]
    simp only [BitVec.not_allOnes, BitVec.and_zero, BitVec.ofNat_eq_ofNat, BitVec.or_zero, BitVec.not_zero, BitVec.and_allOnes]
  unfold State.writePlain
  simp only [reduceCtorEq, if_false, hrwi, Bool.false_eq_true, hbar]
  unfold State.refusals
  simp only [hb, if_true, List.filter_cons, hdiff, List.filter_nil, List.foldl_cons, List.foldl_nil, State.each]
  have hkeep' : (0 : Word) ||| BitVec.allOnes 32 = BitVec.allOnes 32 := BitVec.zero_or
  rw [hkeep', hkeep]
  unfold State.changed
  dsimp only
  rw [ite_self]
  rfl

/-- Whatever is written to QUE_FELT_RING_RD changes no more than a refusal and the release of places do. -/
theorem State.keeps_regWrite_ringRd (m : Nat) (v : Word) : Keeps 412850 s (s.regWrite m .QUE_FELT_RING_RD f 0 v none false) := by
  have hplain (w : Word) : Keeps 412850 s (s.writePlain m .QUE_FELT_RING_RD f 0 w none false) := by
    have hrwi : differs (s.rd .QUE_FELT_RING_RD f) w (rwiMask .QUE_FELT_RING_RD) = false :=
      differs_eq_false fun i hi => absurd hi (by rw [show rwiMask .QUE_FELT_RING_RD = 0 by decide]; simp)
    have hbar : s.barred m .QUE_FELT_RING_RD f w (s.rd .QUE_FELT_RING_RD f) = none := by simp [State.barred, regRow]
    unfold State.writePlain
    simp only [reduceCtorEq, if_false, hrwi, Bool.false_eq_true, hbar, decide_false]
    unfold State.changed State.acted
    dsimp only
    rw [ite_self]
    have hfaults := State.keeps_each (Keeps.refl s) ((s.refusals .QUE_FELT_RING_RD f w).filter fun x =>
      differs (s.rd .QUE_FELT_RING_RD f) w (x.1 &&& rwMask .QUE_FELT_RING_RD)) (fun x s => (s.stickIf false f_CH_MEAS_EVENTS_entry_refused f).writeFault x.2.1 x.2.2 m
      (regAddr .QUE_FELT_RING_RD f 0)) fun x u hu => State.keeps_writeFault (Within.refl _) (F := 412850) hu x.2.1 x.2.2 m (regAddr .QUE_FELT_RING_RD f 0)
    have hwr := State.keeps_wr (F := 412850) (show 2 ||| 412850 = 412850 by decide) hfaults .QUE_FELT_RING_RD
      (stored .QUE_FELT_RING_RD (s.rd .QUE_FELT_RING_RD f) w (List.foldl (fun k f => k ||| f.1) 0 (s.refusals .QUE_FELT_RING_RD f w))) f 0
    split
    · exact hwr
    · exact State.keeps_setFelt (show 1024 ||| 412850 = 412850 by decide) hwr _ _
  exact hplain _

end Release

/-- Settles O33. -/
theorem captureAndStreamConsumers : Obligations.CaptureAndStreamConsumers := by
  intro s t f hcan hpow hf
  obtain ⟨b, hb⟩ : ∃ b, s.begin t = b := ⟨_, rfl⟩
  have hcb : b.canonical := hb ▸ State.canonical_begin hcan t
  have hregs : Table.rising b.regs = true := hcb.fine.regs
  have hfelts : Table.rising b.que.felts = true := hcb.fine.felts
  rw [hb]
  have hok : isFelt f = true := by simpa [isFelt] using hf
  -- a take changes the queues alone, and of the felts only `f`
  have htaken (q : Nat) (x : QItem) (rest : List QItem) : ∃ Q, b.taken f q x rest = { b with que := Q } ∧ Table.rising Q.felts = true ∧
      Table.SameBut [f] b.que.felts Q.felts := by
    obtain ⟨Q, hQ⟩ := State.taken_only (s := b) (f := f) (q := q) (x := x) (rest := rest)
    obtain ⟨-, h2, -⟩ := State.taken_felts (s := b) (f := f) (q := q) (x := x) (rest := rest) hfelts
    have hrise : Table.rising (b.taken f q x rest).que.felts = true := by
      unfold State.taken
      split <;> exact Table.rising_put hfelts
    rw [hQ] at h2 hrise
    exact ⟨Q, hQ, hrise, h2⟩
  refine ⟨fun q x rest hl hx hp hm hst => ⟨fun hc hr => ⟨fun h7 => ?_, fun h7 => ?_⟩, fun hc hh => ⟨fun h6 => ?_, fun p c h6 hhop => ?_⟩⟩,
    fun hc hm hr hd hn => ?_, fun hh => ?_, fun k it l a hin hreqs hserv hring ha hcopy => ?_, fun hin => ?_, fun k items l hin => ?_,
    fun hd hne => ⟨fun hnow => ⟨fun hc => ?_, fun p c hc hhop => ?_⟩, fun hnow => ?_⟩, fun m v hans hsh hv => ?_, fun m v hans hsh hv hbad hfull => ?_,
    fun c hc => ?_, fun m v => ?_⟩
  · have htake := State.captureTake_takes hfelts hl hx hp hm hst hc hr
    rw [if_neg (by omega)] at htake
    obtain ⟨Q, hQ, hQr, hQs⟩ := htaken q x rest
    rw [hQ] at htake
    exact .runs hb hpow rfl hok htake (((OnlyChanges.refl _ _).que (by decide) _).que (by decide) _)
      ⟨State.feltOf_setFelt_same (s := { b with que := Q }) hQr, hQs.trans (.put hQr _ _ _)⟩
  · have htake := State.captureTake_takes hfelts hl hx hp hm hst hc hr
    rw [if_pos h7] at htake
    obtain ⟨Q, hQ, hQr, hQs⟩ := htaken q x rest
    obtain ⟨y, hy⟩ : ∃ y, y = ((b.feltOf f).takenFrom q rest b.now b.cycle).captured x.item := ⟨_, rfl⟩
    obtain ⟨u, hu⟩ : ∃ u, u = ({ b with que := Q } : State).setFelt f y := ⟨_, rfl⟩
    have huf : u.feltOf f = y := hu ▸ State.feltOf_setFelt_same (s := { b with que := Q }) hQr
    have hyb : y.burst = (b.feltOf f).burst ++ [x.item] := hy ▸ rfl
    have hyl : y.burst.length = 8 := by rw [hyb, List.length_append, h7]; rfl
    rw [hQ, ← hy, ← hu] at htake
    obtain ⟨r, m, hsend, hr⟩ := State.sendBurst_capture (s := u) (f := f) (hu ▸ hregs) (hu ▸ hc) (by rw [huf, hyb]; simp)
    rw [huf, hyl] at hsend
    have hurise : Table.rising u.que.felts = true := hu ▸ Table.rising_put hQr
    refine .runs hb hpow rfl hok (htake.trans hsend) ?_ ⟨?_, ?_, ?_⟩
    · rw [hu]
      exact (((((OnlyChanges.refl _ _).que (by decide) _).que (by decide) _).regs (by decide) _).memc (by decide) _).que (by decide) _
    · refine (State.feltOf_setFelt_same (s := { u with regs := r, memc := m }) hurise).trans ?_
      rw [hy]
      rfl
    · have h1 : Table.SameBut [f] Q.felts u.que.felts := hu ▸ Table.SameBut.put hQr _ _ _
      exact hQs.trans (h1.trans (.put hurise _ _ _))
    · rw [hu] at hr
      exact hr
  · have htake := State.streamTake_takes hfelts hl hx hp hm hst hc hh
    rw [if_neg (by omega)] at htake
    obtain ⟨Q, hQ, hQr, hQs⟩ := htaken q x rest
    rw [hQ] at htake
    exact .runs hb hpow rfl hok htake (((OnlyChanges.refl _ _).que (by decide) _).que (by decide) _)
      ⟨State.feltOf_setFelt_same (s := { b with que := Q }) hQr, hQs.trans (.put hQr _ _ _)⟩
  · have htake := State.streamTake_takes hfelts hl hx hp hm hst hc hh
    rw [if_pos h6] at htake
    obtain ⟨Q, hQ, hQr, hQs⟩ := htaken q x rest
    obtain ⟨y, hy⟩ : ∃ y, y = { (b.feltOf f).takenFrom q rest b.now b.cycle with burst := (b.feltOf f).burst ++ [x.item] } := ⟨_, rfl⟩
    obtain ⟨u, hu⟩ : ∃ u, u = ({ b with que := Q } : State).setFelt f y := ⟨_, rfl⟩
    have huf : u.feltOf f = y := hu ▸ State.feltOf_setFelt_same (s := { b with que := Q }) hQr
    have hyb : y.burst = (b.feltOf f).burst ++ [x.item] := hy ▸ rfl
    rw [hQ, ← hy, ← hu] at htake
    have hsend := State.sendBurst_stream (s := u) (f := f) (hu ▸ hc) (by rw [huf, hyb]; simp) (by rw [hu]; exact hhop)
    rw [huf] at hsend
    have hurise : Table.rising u.que.felts = true := hu ▸ Table.rising_put hQr
    have hflit : u.streamFlit f y.burst = b.streamFlit f ((b.feltOf f).burst ++ [x.item]) := by
      unfold State.streamFlit
      rw [huf, hyb, hy, hu]
      rfl
    rw [hflit] at hsend
    refine .runs hb hpow rfl hok (htake.trans hsend) ?_ ⟨?_, ?_, ?_⟩
    · rw [hu]
      exact ((((OnlyChanges.refl _ _).que (by decide) _).que (by decide) _).que (by decide) _).web (by decide) _
    · refine (State.feltOf_setFelt_same (s := u) hurise).trans ?_
      rw [hy]
      rfl
    · have h1 : Table.SameBut [f] Q.felts u.que.felts := hu ▸ Table.SameBut.put hQr _ _ _
      exact hQs.trans (h1.trans (.put hurise _ _ _))
    · rw [hu]
      rfl
  · refine .runs hb hpow rfl hok (State.captureTake_full hc hm hr hd hn) (((OnlyChanges.refl _ _).que (by decide) _).evm (by decide) _)
      ⟨State.feltOf_setFelt_same hfelts, .put hfelts _ _ _, ?_⟩
    exact ⟨_, List.mem_append_right _ (List.mem_singleton_self _), rfl⟩
  · exact .runs hb hpow rfl hok (State.streamTake_held hh) (OnlyChanges.refl _ _) trivial
  · subst ha
    have hkeep : Keeps 412850 b (b.memAccess 2 (b.ringPlace f k) 32) := State.keeps_memAccess_service hserv ..
    obtain ⟨v, hv⟩ : ∃ v, v = b.memAccess 2 (b.ringPlace f k) 32 := ⟨_, rfl⟩
    have hone := State.captureWritten_one hin hreqs hring
    have hplace : b.fld f_QUE_FELT_RING_BASE_pages f * 4096 + k % 2 ^ 32 % b.ringItems f * 32 = b.ringPlace f k := rfl
    rw [hplace] at hcopy ⊢
    rw [← hv] at hkeep hone hcopy
    have hfine := (hkeep.fine hcb).fine
    have hlen : it.bytes.length = 32 := Item.bytes_length it
    obtain ⟨H, M, hw, hs, hsame⟩ := State.memWrite_stack it.bytes (s := v) (b.ringPlace f k) (Table.wf_rising hfine.hbm)
      (by rw [hlen]; exact hcopy)
    rw [hlen] at hs hsame
    rw [hw] at hone
    have hmem : OnlyChanges [.regs, .evm, .force, .engs, .que, .memc, .hbm, .vat, .flt, .cal] b ({ v with hbm := H, memc := M } : State) :=
      (((OnlyChanges.refl [.regs, .evm, .force, .engs, .que, .memc, .hbm, .vat, .flt, .cal] b).then hkeep (by decide)).hbm
        (by decide) H).memc (by decide) M
    refine .runs hb hpow rfl hok hone ?_ ⟨?_, (congrArg State.regs hv :), (congrArg State.flt hv :), hs, ?_⟩
    · exact hmem.que (by decide) _
    · refine (State.feltOf_setFelt_same (s := { v with hbm := H, memc := M }) hfine.felts).trans ?_
      rw [← hv]
      rfl
    · exact (hkeep.hbm rfl) ▸ hsame
  · exact .runs hb hpow rfl hok (State.captureWritten_none hin) (OnlyChanges.refl _ _) trivial
  · obtain ⟨v, hv, hfv⟩ := State.captureWritten_some (s := b) hin
    have hfine := (hv.fine hcb).fine
    refine .runs hb hpow rfl hok rfl ((OnlyChanges.refl _ _).then (State.keeps_captureWritten (Within.refl _) (Keeps.refl b) f) (by decide)) ?_
    rw [hfv, State.feltOf_setFelt_same hfine.felts]
    exact ⟨rfl, rfl⟩
  · obtain ⟨r, m, hsend, hr⟩ := State.sendBurst_capture hregs hc hne
    have hframe : OnlyChanges [.regs, .que, .memc] b ({ b with regs := r, memc := m } : State) :=
      ((OnlyChanges.refl [.regs, .que, .memc] b).regs (by decide) r).memc (by decide) m
    exact .runs hb hpow rfl hok ((State.emptyFor_sends hd hnow).trans hsend) (hframe.que (by decide) _)
      ⟨⟨_, State.feltOf_setFelt_same (s := { b with regs := r, memc := m }) hfelts, by omega⟩, .put hfelts _ _ _, hr⟩
  · exact .runs hb hpow rfl hok ((State.emptyFor_sends hd hnow).trans (State.sendBurst_stream hc hne hhop))
      (((OnlyChanges.refl _ _).que (by decide) _).web (by decide) _) ⟨State.feltOf_setFelt_same hfelts, .put hfelts _ _ _, rfl⟩
  · exact .runs hb hpow rfl hok (State.emptyFor_early hnow) (OnlyChanges.refl _ _) trivial
  · have hbad : b.ringRdBad f v = false := decide_eq_false (Nat.not_lt.2 hv)
    obtain ⟨e, he, hframe, h1, h2, h3⟩ := State.acted_ringRd (m := m) (f := f) (v := v) (codes := none) (bad := false)
      (s := b.wr .QUE_FELT_RING_RD v f) hfelts
    have her : e.regs = (b.wr .QUE_FELT_RING_RD v f).regs := hframe.2.2 .regs (by decide)
    refine .registerWrite hb hpow hans rfl hok ((State.regWrite_ringRd hsh hbad).trans he)
      (((OnlyChanges.refl _ _).regs (by decide) _).trans (hframe.mono (by decide))) (by decide) ⟨rfl, ?_, ?_, ?_, h2⟩
    · show Table.get _ _ e.regs = v
      rw [her]
      exact State.rd_wr_same hregs ..
    · show Table.SameBut _ b.regs e.regs
      rw [her]
      exact .put hregs _ _ _
    · refine h1.trans ?_
      unfold State.ringReleased
      rw [show State.ringIsFull _ f = e.ringIsFull f from h3.symm]
      rfl
  · have hbad' : b.ringRdBad f v = true := decide_eq_true hbad
    obtain ⟨w, hw⟩ : ∃ w, w = b.accessFault 0x004 1 .none m 2 (regAddr .QUE_FELT_RING_RD f 0) := ⟨_, rfl⟩
    have hkeep : Keeps 412850 b w := hw ▸ State.keeps_accessFault (Within.refl _) (Keeps.refl _) ..
    have hwrite := State.regWrite_ringRd_refused (m := m) hsh hbad' hv
    rw [← hw] at hwrite
    obtain ⟨e, he, hframe, h1, h2, h3⟩ := State.acted_ringRd (m := m) (f := f) (v := v) (codes := none) (bad := false)
      (s := w.wr .QUE_FELT_RING_RD (b.rd .QUE_FELT_RING_RD f) f) (hkeep.fine hcb).fine.felts
    have her : e.regs = (w.wr .QUE_FELT_RING_RD (b.rd .QUE_FELT_RING_RD f) f).regs := hframe.2.2 .regs (by decide)
    refine .registerWrite hb hpow hans rfl hok (hwrite.trans he)
      ((((OnlyChanges.refl _ _).then hkeep (by decide)).regs (by decide) _).trans (hframe.mono (by decide))) (by decide)
      ⟨rfl, ?_, hw ▸ (hframe.2.2 .flt (by decide) : e.flt = w.flt)⟩
    show Table.get _ _ e.regs = _
    rw [her]
    exact State.rd_wr_same (hkeep.fine hcb).fine.regs ..
  · simp only [List.mem_cons, List.not_mem_nil, or_false] at hc
    rcases hc with rfl | rfl | rfl
    · exact .runs hb hpow rfl hok rfl ((OnlyChanges.refl _ _).then (State.keeps_captureTake (Within.refl _) (Keeps.refl _) f) (by decide)) trivial
    · exact .runs hb hpow rfl hok rfl ((OnlyChanges.refl _ _).then (State.keeps_streamTake (Within.refl _) (Keeps.refl _) f) (by decide)) trivial
    · exact .runs hb hpow rfl hok rfl ((OnlyChanges.refl _ _).then (State.keeps_emptyFor (Within.refl _) (Keeps.refl _) f) (by decide)) trivial
  · have hframe : OnlyChanges [.regs, .evm, .force, .engs, .que, .memc, .vat, .flt, .cal, .resp] b
        (b.accessReg m .QUE_FELT_RING_RD f 0 v none false) := by
      unfold State.accessReg
      cases hr : b.answers m with
      | true =>
        rw [State.access_of_answers hr]
        exact ((OnlyChanges.refl _ _).then (State.keeps_regWrite_ringRd m v) (by decide)).resp (by decide) _
      | false =>
        unfold State.access
        rw [hr, if_neg Bool.false_ne_true]
        exact (OnlyChanges.refl _ _).resp (by decide) _
    exact .runs hb hpow rfl hok rfl hframe trivial

end Sys2Proof.Machine
end

section
/-! PROOFS. What the way of a fault into the log may change: a few counts and sticky bits, sources asserted, and spill writes that join the memory requests. -/

namespace Sys2Proof.Machine
open Sys2Proof

/-- The addresses of the registers that a fault on its way into the log may write: the counts of refused pushes and lost faults, the bits of the memory
controller and of couching, and what a safe state writes of a channel. -/
def faultAddr (a : Nat) : Prop :=
  a = regAddr .MEMC_SR_STATS 0 0 ∨ a = regAddr .MEMC_EVENTS 0 0 ∨ a = regAddr .FLT_RECOVER_COUNT 0 0 ∨ a = regAddr .FLT_LOST 0 0 ∨
    a = regAddr .CAL_EVENTS 0 0 ∨ (∃ f, f < 64 ∧ a = regAddr .QUE_FELT_DROP_COUNT f 0) ∨ (∃ f, f < 64 ∧ a = regAddr .QUE_AGENT_DROP_COUNT f 0) ∨
    blkBase .ch ≤ a

/-- What the way of a fault into the log leaves as it is. -/
structure Logs (s t : State) : Prop where
  rising : Table.rising s.regs = true → Table.rising t.regs = true
  regs : Table.rising s.regs = true → ∀ a, ¬ faultAddr a → ∀ d, Table.get d a t.regs = Table.get d a s.regs
  bits : Table.rising s.regs = true → ∀ k, (s.rd .MEMC_EVENTS).getLsbD k = true → (t.rd .MEMC_EVENTS).getLsbD k = true
  evm : ∃ l, t.evm = { s.evm with asserted := s.evm.asserted ++ l }
  memc : ∃ l n x, t.memc = { s.memc with reqs := s.memc.reqs ++ l, nextId := n, srExit := x }

/-- A register of a channel is none of the memory controller's. -/
theorem faultAddr_channel (r : Reg) (hb : (regRow r).blk = .ch) (n : Nat) :
    faultAddr (regAddr r n 0) ∧ regAddr r n 0 ≠ regAddr .MEMC_EVENTS 0 0 := by
  have hle : blkBase .ch ≤ regAddr r n 0 := by
    unfold regAddr
    dsimp only
    rw [hb]
    omega
  refine ⟨.inr (.inr (.inr (.inr (.inr (.inr (.inr hle)))))), fun he => ?_⟩
  rw [he] at hle
  revert hle
  decide

theorem faultAddr_feltDrop {f : Nat} (hf : f < 64) :
    faultAddr (regAddr .QUE_FELT_DROP_COUNT f 0) ∧ regAddr .QUE_FELT_DROP_COUNT f 0 ≠ regAddr .MEMC_EVENTS 0 0 := by
  refine ⟨.inr (.inr (.inr (.inr (.inr (.inl ⟨f, hf, rfl⟩))))), ?_⟩
  simp only [regAddr, regRow, blkBase]
  omega

theorem faultAddr_agentDrop {a : Nat} (ha : a < 64) :
    faultAddr (regAddr .QUE_AGENT_DROP_COUNT a 0) ∧ regAddr .QUE_AGENT_DROP_COUNT a 0 ≠ regAddr .MEMC_EVENTS 0 0 := by
  refine ⟨.inr (.inr (.inr (.inr (.inr (.inr (.inl ⟨a, ha, rfl⟩)))))), ?_⟩
  simp only [regAddr, regRow, blkBase]
  omega

theorem faultAddr_srStats : faultAddr (regAddr .MEMC_SR_STATS 0 0) ∧ regAddr .MEMC_SR_STATS 0 0 ≠ regAddr .MEMC_EVENTS 0 0 :=
  ⟨.inl rfl, by simp [regAddr, regRow]⟩

theorem faultAddr_recoverCount : faultAddr (regAddr .FLT_RECOVER_COUNT 0 0) ∧ regAddr .FLT_RECOVER_COUNT 0 0 ≠ regAddr .MEMC_EVENTS 0 0 :=
  ⟨.inr (.inr (.inl rfl)), by simp [regAddr, regRow, blkBase]⟩

theorem faultAddr_lost : faultAddr (regAddr .FLT_LOST 0 0) ∧ regAddr .FLT_LOST 0 0 ≠ regAddr .MEMC_EVENTS 0 0 :=
  ⟨.inr (.inr (.inr (.inl rfl))), by simp [regAddr, regRow, blkBase]⟩

theorem faultAddr_calEvents : faultAddr (regAddr .CAL_EVENTS 0 0) ∧ regAddr .CAL_EVENTS 0 0 ≠ regAddr .MEMC_EVENTS 0 0 :=
  ⟨.inr (.inr (.inr (.inr (.inl rfl)))), by simp [regAddr, regRow, blkBase]⟩

section Rules
variable {s t u : State}

theorem Logs.refl (s : State) : Logs s s :=
  ⟨id, fun _ _ _ _ => rfl, fun _ _ h => h, ⟨[], by rw [List.append_nil]⟩, ⟨[], s.memc.nextId, s.memc.srExit, by rw [List.append_nil]⟩⟩

theorem Logs.trans (h : Logs s t) (k : Logs t u) : Logs s u := by
  obtain ⟨l, hl⟩ := h.evm
  obtain ⟨l', hl'⟩ := k.evm
  obtain ⟨m, n, x, hm⟩ := h.memc
  obtain ⟨m', n', x', hm'⟩ := k.memc
  refine ⟨fun hr => k.rising (h.rising hr), fun hr a ha d => (k.regs (h.rising hr) a ha d).trans (h.regs hr a ha d),
    fun hr j hj => k.bits (h.rising hr) j (h.bits hr j hj), ⟨l ++ l', ?_⟩, ⟨m ++ m', n', x', ?_⟩⟩
  · rw [hl', hl, ← List.append_assoc]
  · rw [hm', hm, ← List.append_assoc]

/-- A change that touches neither the registers nor the event matrix nor the memory controller. -/
theorem Logs.same (h : Logs s t) (hr : u.regs = t.regs) (he : u.evm = t.evm) (hm : u.memc = t.memc) : Logs s u :=
  h.trans ⟨fun h => hr ▸ h, fun _ a _ d => by rw [hr], fun _ k hk => by unfold State.rd at hk ⊢; rwa [hr],
    ⟨[], by rw [he, List.append_nil]⟩, ⟨[], t.memc.nextId, t.memc.srExit, by rw [hm, List.append_nil]⟩⟩

/-- A change of the memory controller that adds requests, numbers them and asks for the exit from self-refresh. -/
theorem Logs.requests (h : Logs s t) (l : List MReq) (n : Nat) (x : Option Nat) :
    Logs s (t.setMemc { t.memc with reqs := t.memc.reqs ++ l, nextId := n, srExit := x }) :=
  h.trans ⟨fun h => h, fun _ _ _ _ => rfl, fun _ _ h => h, ⟨[], by rw [List.append_nil]; rfl⟩, ⟨l, n, x, rfl⟩⟩

theorem Logs.que (h : Logs s t) (x : Que) : Logs s { t with que := x } := h.same rfl rfl rfl

theorem Logs.force (h : Logs s t) (x : Table Force) : Logs s { t with force := x } := h.same rfl rfl rfl

theorem Logs.engs (h : Logs s t) (x : Table Eng) : Logs s { t with engs := x } := h.same rfl rfl rfl

theorem Logs.flt (h : Logs s t) (x : Flt) : Logs s { t with flt := x } := h.same rfl rfl rfl

theorem Logs.cal (h : Logs s t) (x : Cal) : Logs s { t with cal := x } := h.same rfl rfl rfl

theorem Logs.setSlice (h : Logs s t) (i : Nat) (x : Slice) : Logs s (t.setSlice i x) := h.cal _

theorem Logs.setCouch (h : Logs s t) (i : Nat) (x : Couch) : Logs s (t.setCouch i x) := h.cal _

theorem Logs.setForce (h : Logs s t) (n : Nat) (x : Force) : Logs s (t.setForce n x) := h.force _

theorem Logs.setEng (h : Logs s t) (n : Nat) (x : Eng) : Logs s (t.setEng n x) := h.engs _

/-- A change of which a frame says that it touches no register and not the memory controller, and that leaves the event matrix alone. -/
theorem Logs.keeps {F : Nat} (h : Logs s t) (k : Keeps F t u) (h2 : F.testBit 1 = false) (h4 : F.testBit 4 = false) (h11 : F.testBit 11 = false) :
    Logs s u := h.same (k.regs h2) (k.evm h4) (k.memc h11)

theorem Logs.each {α : Type} (g : α → State → State) (hg : ∀ a v, Logs s v → Logs s (g a v)) :
    ∀ (l : List α) {t : State} (_ : Logs s t), Logs s (t.each l g)
  | [], _, h => h
  | a :: l, t, h => Logs.each g hg l (t := g a t) (hg a t h)

/-- A register of those a fault may write takes a value. -/
theorem Logs.wr (h : Logs s t) {r : Reg} {i : Nat} (ha : faultAddr (regAddr r i 0) ∧ regAddr r i 0 ≠ regAddr .MEMC_EVENTS 0 0) (w : Word) :
    Logs s (t.wr r w i) :=
  h.trans ⟨fun h => Table.rising_put h, fun h a hna d => (Table.SameBut.put h _ _ _) a (fun hm => hna (List.mem_singleton.1 hm ▸ ha.1)) d,
    fun h k hk => by
      have he : (t.wr r w i).rd .MEMC_EVENTS = t.rd .MEMC_EVENTS :=
        (Table.SameBut.put h _ _ _) _ (fun hm => ha.2 (List.mem_singleton.1 hm).symm) _
      rwa [he],
    ⟨[], by rw [List.append_nil]; rfl⟩, ⟨[], t.memc.nextId, t.memc.srExit, by rw [List.append_nil]; rfl⟩⟩

theorem Logs.tally (h : Logs s t) {f : Fld} {n i : Nat} (ha : faultAddr (regAddr f.reg i 0) ∧ regAddr f.reg i 0 ≠ regAddr .MEMC_EVENTS 0 0) :
    Logs s (t.tally f n i) := h.wr ha _

theorem Logs.stick (h : Logs s t) {f : Fld} {i : Nat} (ha : faultAddr (regAddr f.reg i 0) ∧ regAddr f.reg i 0 ≠ regAddr .MEMC_EVENTS 0 0) :
    Logs s (t.stick f i) := h.wr ha _

theorem Logs.assertSrc (h : Logs s t) (src : Nat) : Logs s (t.assertSrc src) :=
  h.trans ⟨fun h => h, fun _ _ _ _ => rfl, fun _ _ h => h, ⟨_, rfl⟩, ⟨[], t.memc.nextId, t.memc.srExit, by rw [List.append_nil]; rfl⟩⟩

end Rules

section Chain
variable {s t : State}

/-- A sticky bit of MEMC_EVENTS is set, and the others stay. -/
theorem Logs.stick_events (h : Logs s t) {f : Fld} (hreg : f.reg = .MEMC_EVENTS) (hf : f.lo + f.len ≤ 32) (hlen : f.len = 1) :
    Logs s (t.stick f) := by
  refine h.trans ⟨fun h => Table.rising_put h, fun h a hna d => (Table.SameBut.put h _ _ _) a (fun hm => hna ?_) d, fun hr k hk => ?_,
    ⟨[], by rw [List.append_nil]; rfl⟩, ⟨[], t.memc.nextId, t.memc.srExit, by rw [List.append_nil]; rfl⟩⟩
  · rw [List.mem_singleton.1 hm, hreg]
    exact .inr (.inl rfl)
  · unfold State.stick State.setFld
    rw [hreg, State.rd_wr_same hr, setBits_getLsbD _ _ _ _ _ hf, hk, hlen]
    by_cases hlo : f.lo ≤ k ∧ k < f.lo + 1
    · rw [if_pos hlo, show k - f.lo = 0 by omega]
      rfl
    · rw [if_neg hlo]

theorem Logs.memArrive (h : Logs s t) : Logs s t.memArrive := by
  unfold State.memArrive
  split
  · exact Logs.stick_events (h.tally (f := f_MEMC_SR_STATS_aborted) faultAddr_srStats) rfl (by decide) rfl
  · split
    · dsimp only
      generalize hu : ((t.tally f_MEMC_SR_STATS_waited).stick f_MEMC_EVENTS_sr_wait) = u
      have hstuck : Logs s u := hu ▸ Logs.stick_events (h.tally (f := f_MEMC_SR_STATS_waited) faultAddr_srStats) rfl (by decide) rfl
      have hask := hstuck.requests [] u.memc.nextId (some (u.memc.srExit.getD u.now))
      rw [List.append_nil] at hask
      exact hask
    · exact h

theorem Logs.memAccept (h : Logs s t) (p : Nat) (write : Bool) (a : Nat) (data : List Byte) (len : Nat) :
    Logs s (t.memAccept p write a data len) := by
  unfold State.memAccept
  exact h.memArrive.requests _ _ _

theorem Logs.enqueue (h : Logs s t) (f prio : Nat) (it : Item) (spill : Bool) : Logs s (t.enqueue f prio it spill) := by
  unfold State.enqueue
  cases spill with
  | true => exact (h.memAccept 5 true (t.spillAddr t.spillSlot) (it.flag flagSpilled).bytes 32).same rfl rfl rfl
  | false => exact h.same rfl rfl rfl

theorem Logs.push {p f prio : Nat} {it : Item} {u : State} (h : Logs s t) (hf : f < 64)
    (hp : t.push p f prio it = .done u ∨ t.push p f prio it = .overfull u) : Logs s u := by
  have hdrop : Logs s (State.tally { t with que := { t.que with overFelt := none } } f_QUE_FELT_DROP_COUNT_count 1 f) :=
    Logs.tally (f := f_QUE_FELT_DROP_COUNT_count) (h.que _) (faultAddr_feltDrop hf)
  unfold State.push at hp
  split at hp
  · dsimp only at hp
    split at hp
    · obtain hp | hp := hp
      · cases hp
      · cases hp
        exact hdrop
    · obtain hp | hp := hp
      · cases hp
        exact (h.que _).enqueue ..
      · cases hp
  · dsimp only at hp
    split at hp
    · obtain hp | hp := hp
      · cases hp
        exact Logs.enqueue (t := t.setCredit _ _ _) (h.que _) ..
      · cases hp
    · split at hp
      · obtain hp | hp := hp
        · cases hp
          exact Logs.enqueue (t := t.setCredit _ _ _) (h.que _) ..
        · cases hp
      · obtain hp | hp := hp <;> cases hp

theorem State.fld_lt (f : Fld) (i j : Nat) : s.fld f i j < 2 ^ f.len := Nat.mod_lt _ (Nat.two_pow_pos _)

theorem Logs.agentWrite (h : Logs s t) {a : Nat} (ha : a < 64) (kind : Nat) (value : DWord) (raw : Word) (rt : RTime) (abs flags : Nat) :
    Logs s (t.agentWrite a kind value raw rt abs flags).1 := by
  have hlater (l : List Item) : Logs s (if t.on f_QUE_AGENT_CTL_nocredit a then t.tally f_QUE_AGENT_DROP_COUNT_count 1 a else t.setBacklog a l) := by
    split
    · exact h.tally (f := f_QUE_AGENT_DROP_COUNT_count) (faultAddr_agentDrop ha)
    · exact h.same rfl rfl rfl
  unfold State.agentWrite
  split
  · exact h
  · dsimp only
    split
    · exact hlater _
    · split
      · rename_i u hu
        exact h.push (State.fld_lt _ _ _) (.inl hu)
      · rename_i u hu
        exact h.push (State.fld_lt _ _ _) (.inr hu)
      · exact hlater _

theorem Logs.queueDetect (h : Logs s t) (d : Detect) : Logs s (t.queueDetect d) := by
  unfold State.queueDetect
  split
  · exact h.same rfl rfl rfl
  · exact h.tally (f := f_FLT_LOST_lost) faultAddr_lost

theorem Logs.faultItem (h : Logs s t) (d : Detect) : Logs s (t.faultItem d) := by
  unfold State.faultItem
  extract_lets raw r f
  have hr : Logs s r.1 := h.agentWrite (by decide) ..
  split
  · exact hr.queueDetect _
  · exact hr

theorem Logs.recovered (h : Logs s t) (n : Nat) : Logs s (t.recovered n) := by
  unfold State.recovered
  dsimp only
  split
  · exact h.same rfl rfl rfl
  · exact Logs.tally (f := f_FLT_RECOVER_COUNT_count) (h.flt _) faultAddr_recoverCount

theorem Logs.haltEngine (h : Logs s t) (n reason : Nat) : Logs s (t.haltEngine n reason) := by
  unfold State.haltEngine
  dsimp only
  split
  · exact h.same rfl rfl rfl
  · exact (h.stick (f := f_CH_SWEEP_EVENTS_stopped) (faultAddr_channel _ rfl n)).setEng _ _

theorem Logs.abandonCouch (h : Logs s t) (k : Nat) (retired : Bool) : Logs s (t.abandonCouch k retired) := by
  have hadd (u : State) (hu : Logs s u) : Logs s ((u.stick f_CAL_EVENTS_couch_abandoned).assertSrc (srcCal 6)) :=
    (hu.stick (f := f_CAL_EVENTS_couch_abandoned) faultAddr_calEvents).assertSrc _
  have hfreed (u : State) (i : Nat) (hu : Logs s u) : Logs s (u.iff (! retired) fun v => v.sliceFreed i) :=
    hu.keeps (State.keeps_iff (F := 262144) (show 0 ||| 262144 = 262144 by decide) (Keeps.refl u) _ _
      (State.keeps_sliceFreed (show 262144 ||| 262144 = 262144 by decide) (Keeps.refl u) i)) rfl rfl rfl
  unfold State.abandonCouch
  dsimp only
  refine hadd _ ?_
  split
  · exact (hfreed _ _ (h.setSlice _ _)).setCouch _ _
  · exact ((hfreed _ _ (h.setSlice _ _)).setCouch _ _).setSlice _ _

theorem Logs.enterSafe (h : Logs s t) (n : Nat) (opens : Bool) : Logs s (t.enterSafe n opens) := by
  have hmid : Logs s (((((t.wr .CH_DECKLE (t.rd .CH_DECKLE_DEFAULT n) n).setForce n
      ((t.forceOf n).zeroScale (t.rd .CH_DECKLE_DEFAULT n) t.now opens)).recovered n).haltEngine n 6).assertSrc (srcChFault n)) := by
    exact ((((h.wr (r := .CH_DECKLE) (faultAddr_channel _ rfl n) _).setForce n _).recovered n).haltEngine n 6).assertSrc _
  unfold State.enterSafe
  dsimp only
  split
  · exact h
  · split
    · exact h.same rfl rfl rfl
    · split
      · exact hmid.abandonCouch _ _
      · exact hmid

theorem Logs.addCover (h : Logs s t) (u seq : Nat) : Logs s (t.addCover u seq) := by
  unfold State.addCover
  split
  · exact h
  · exact h.same rfl rfl rfl

theorem Logs.enterTileSafe (h : Logs s t) (k : Nat) : Logs s (t.enterTileSafe k) := by
  unfold State.enterTileSafe
  split
  · exact h
  · exact (h.flt _).assertSrc _

theorem Logs.react (h : Logs s t) (cls : Nat) (sc : Scope) (code seq : Nat) : Logs s (t.react cls sc code seq) := by
  have htiles : Logs s (t.each (reactTiles cls sc) fun t s => (s.addCover (512 + t) seq).enterTileSafe t) :=
    Logs.each _ (fun a v hv => (hv.addCover _ _).enterTileSafe a) _ h
  have hsafe (l : List Nat) (u : State) (hu : Logs s u) : Logs s (u.each l fun n s => s.enterSafe n (s.safeOpens n cls code)) :=
    Logs.each _ (fun a v hv => hv.enterSafe a _) _ hu
  unfold State.react
  dsimp only
  split
  · exact h
  · refine hsafe _ _ ?_
    have hcover : Logs s (if cls = 3 then
        (t.each (reactTiles cls sc) fun t s => (s.addCover (512 + t) seq).enterTileSafe t).each
          (t.attachedIn (reactRange cls sc).1 (reactRange cls sc).2) fun n s => s.addCover n seq
        else t.each (reactTiles cls sc) fun t s => (s.addCover (512 + t) seq).enterTileSafe t) := by
      split
      · exact Logs.each _ (fun a v hv => hv.addCover a seq) _ htiles
      · exact htiles
    split
    · exact hcover.same rfl rfl rfl
    · exact hcover

theorem Logs.countBFault (h : Logs s t) (d : Detect) : Logs s (t.countBFault d) :=
  h.keeps (State.keeps_countBFault (F := 262144) (show 262144 ||| 262144 = 262144 by decide) (Keeps.refl t) d) rfl rfl rfl

theorem Logs.recur (h : Logs s t) (r : Record) (d : Detect) : Logs s (t.recur r d) := by
  unfold State.recur
  exact Logs.react (Logs.assertSrc (t := State.mapRecords _ _ _) (h.flt _) _) ..

theorem Logs.freezeFirst (h : Logs s t) (r : Record) : Logs s (t.freezeFirst r) := by
  unfold State.freezeFirst
  split
  · exact h
  · exact (h.flt _).assertSrc _

theorem Logs.captureNew (h : Logs s t) (d : Detect) : Logs s (t.captureNew d) := by
  unfold State.captureNew
  extract_lets +onlyGivenNames same old esc reaction cond rg meets seq r s1 s2 x s3 s4 s5 s6 s7
  have h1 : Logs s s1 := by
    subst s1
    split
    · exact h.tally (f := f_FLT_LOST_overwritten) faultAddr_lost
    · exact h
  have h4 : Logs s s4 := (((h1.flt _ : Logs s s2).flt _ : Logs s s3).flt _ : Logs s s4)
  have h5 : Logs s s5 := ((h4.flt _ : Logs s s4.pruneRing).freezeFirst r).assertSrc _
  have h6 : Logs s s6 := by
    subst s6
    split
    · exact h5.assertSrc _
    · exact h5
  have h7 : Logs s s7 := (h6.faultItem d).react ..
  split
  · exact Logs.each _ (fun a v hv => hv.react ..) _ h7
  · exact h7

theorem Logs.capture (h : Logs s t) (d : Detect) : Logs s (t.capture d) := by
  unfold State.capture
  dsimp only
  split
  · exact (h.countBFault d).recur _ d
  · exact (h.countBFault d).captureNew d

theorem Logs.collect : ∀ (k : Nat) {t : State} (_ : Logs s t), Logs s (State.collect k t)
  | 0, _, h => h
  | k + 1, t, h => by
    unfold State.collect
    split
    · exact h
    · split
      · exact Logs.collect k ((h.flt _).capture _)
      · exact h

/-- The way of a fault into the log. -/
theorem Logs.log (h : Logs s t) (d : Detect) : Logs s (t.log d) := by
  unfold State.log
  dsimp only
  refine Logs.collect 4 ?_
  split
  · exact h.capture d
  · exact (h.queueDetect d).react ..

theorem Logs.fault (h : Logs s t) (code cls : Nat) (sc : Scope) (master : Nat) : Logs s (t.fault code cls sc master) := h.log _

theorem Logs.accessFault (h : Logs s t) (code cls : Nat) (sc : Scope) (m access a : Nat) : Logs s (t.accessFault code cls sc m access a) := h.log _

theorem Logs.memFault (h : Logs s t) (code cls : Nat) (sc : Scope) (m access a : Nat) : Logs s (t.memFault code cls sc m access a) := h.log _

theorem Logs.agentItem (h : Logs s t) {a : Nat} (ha : a < 64) (kind : Nat) (value : DWord) (raw : Word) : Logs s (t.agentItem a kind value raw) := by
  unfold State.agentItem
  extract_lets r
  have hr : Logs s r.1 := h.agentWrite ha ..
  split
  · exact hr.fault ..
  · exact hr

theorem Logs.memNotice (h : Logs s t) (m pc bank port : Nat) : Logs s (t.memNotice m pc bank port) :=
  (h.assertSrc _).agentItem (a := 28) (by decide) ..

end Chain

end Sys2Proof.Machine
end

section
/-!
PROOFS. Spill refills, the tail timer, the watermark sources and the states of a felt (R201 to R209).
-/

namespace Sys2Proof.Machine

open Sys2Proof

section Lanes
variable {s t : State} {f q : Nat} {y : Felt}

/-- The items of a table of lanes: putting a lane of the same length leaves their number alone. -/
theorem Table.put_length (q : Nat) (l : List QItem) : ∀ t : Table (List QItem), l.length = (Table.get [] q t).length →
    ((Table.put [] q l t).flatMap fun e => e.2).length = (t.flatMap fun e => e.2).length
  | [], h => by
    have hl : l = [] := List.length_eq_zero_iff.1 h
    simp [Table.put, hl, Table.erase]
  | (j, v) :: t, h => by
    have ih := Table.put_length q l t
    unfold Table.get at h
    rcases Nat.lt_trichotomy q j with hlt | heq | hgt
    · rw [if_neg (Nat.ne_of_lt hlt), if_pos hlt] at h
      have hl : l = [] := List.length_eq_zero_iff.1 h
      simp [Table.put, hl, Table.erase, hlt, Nat.ne_of_lt hlt]
    · rw [if_pos heq] at h
      unfold Table.put
      split
      · next hl =>
        rw [hl] at h
        simp [Table.erase, heq, List.length_eq_zero_iff.1 h.symm]
      · simp [Table.insert, heq, h]
    · rw [if_neg (Nat.ne_of_gt hgt), if_neg (Nat.not_lt.2 hgt.le)] at h
      have ih := ih h
      unfold Table.put at ih ⊢
      split
      · next hl =>
        rw [if_pos hl] at ih
        simpa [Table.erase, Nat.ne_of_gt hgt, Nat.not_lt.2 hgt.le] using ih
      · next hl =>
        rw [if_neg hl] at ih
        simpa [Table.insert, Nat.ne_of_gt hgt, Nat.not_lt.2 hgt.le] using ih

theorem Felt.depth_setLane {l : List QItem} (h : l.length = (y.lane q).length) : (y.setLane q l).depth = y.depth := Table.put_length q l y.lanes h

theorem Felt.lane_setLane {l : List QItem} (h : l ≠ []) : (y.setLane q l).lane q = l := Table.get_put_ne h

theorem Felt.setLane_setLane {l m : List QItem} (hl : l ≠ []) (hm : m ≠ []) : (y.setLane q l).setLane q m = y.setLane q m := by
  unfold Felt.setLane
  simp only [Table.put, if_neg hl, if_neg hm, Table.insert_insert]

theorem Table.flatMap_ne_nil (q : Nat) : ∀ t : Table (List QItem), Table.get [] q t ≠ [] → t.flatMap (fun e => e.2) ≠ []
  | [], h => absurd rfl h
  | (j, v) :: t, h => by
    unfold Table.get at h
    rw [List.flatMap_cons]
    split at h
    · exact fun he => h (List.append_eq_nil_iff.1 he).1
    · split at h
      · exact absurd rfl h
      · exact fun he => Table.flatMap_ne_nil q t h (List.append_eq_nil_iff.1 he).2

theorem Felt.depth_pos (h : y.lane q ≠ []) : y.depth ≠ 0 := fun hd => Table.flatMap_ne_nil q y.lanes h (List.length_eq_zero_iff.1 hd)

variable {l l' : List QItem} {x : QItem}

theorem takeWhile_unspilled (hl : ∀ y ∈ l, y.place ≠ .spill) : l.takeWhile (fun q => q.place != .spill) = l :=
  List.takeWhile_eq_self_iff.2 fun y hy => by simpa using hl y hy

theorem refillSplit_one {k : Nat} (hl : ∀ y ∈ l, y.place ≠ .spill) (hx : x.place = .spill) (hl' : ∀ y ∈ l', y.place ≠ .spill) :
    refillSplit (l ++ x :: l') (k + 1) = (l, [x], l') := by
  have hahead : (l ++ x :: l').takeWhile (fun q => q.place != .spill) = l := by
    rw [List.takeWhile_append_of_pos fun y hy => by simpa using hl y hy, List.takeWhile_cons_of_neg (by simp [hx]), List.append_nil]
  have hseg : (x :: l').takeWhile (fun q => q.place == .spill) = [x] := by
    rw [List.takeWhile_cons_of_pos (by simp [hx])]
    cases l' with
    | nil => rfl
    | cons y m => rw [List.takeWhile_cons_of_neg (by simpa using hl' y (List.mem_cons_self ..))]
  unfold refillSplit
  simp only [hahead, List.drop_left, hseg]
  simp

theorem refillSplit_none {k : Nat} (hl : ∀ y ∈ l, y.place ≠ .spill) : refillSplit l k = (l, [], []) := by
  unfold refillSplit
  simp only [takeWhile_unspilled hl, List.drop_length, List.takeWhile_nil, List.take_nil, List.length_nil, List.drop_nil]

theorem State.refillDue_one (hlane : (s.feltOf f).lane q = l ++ x :: l') (hl : ∀ y ∈ l, y.place ≠ .spill) (hx : x.place = .spill)
    (hl' : ∀ y ∈ l', y.place ≠ .spill) (hdue : l.length ≤ 256 ∨ x.begun = true) : refillDue ((s.feltOf f).lane q) = true := by
  unfold refillDue
  rw [hlane, refillSplit_one (k := 63) hl hx hl']
  simpa using hdue

theorem State.spillAddr_aligned (k : Nat) : s.spillAddr k % 32 = 0 := by
  unfold State.spillAddr
  omega

/-- Where no lane holds a spilled item nothing is refilled. -/
theorem State.refill_none (h : ∀ q x, x ∈ (s.feltOf f).lane q → x.place ≠ .spill) (bad : List Nat) : s.refill f bad = s := by
  have hdue (q : Nat) : refillDue ((s.feltOf f).lane q) = false := by
    unfold refillDue
    rw [refillSplit_none (h q)]
  unfold State.refill
  simp [hdue]

/-- The highest lane with a segment to refill is refilled. -/
theorem State.refill_lane {bad : List Nat} (hdue : refillDue ((s.feltOf f).lane q) = true)
    (habove : ∀ r, q < r → r < 8 → refillDue ((s.feltOf f).lane r) = false) (hq : q < 8) (hroom : (s.feltOf f).inPlace .refill ≤ 192) :
    s.refill f bad = s.refillLane f q bad := by
  have hfind : ([7, 6, 5, 4, 3, 2, 1, 0] : List Nat).find? (fun q => refillDue ((s.feltOf f).lane q)) = some q := by
    have h (r : Nat) (hr : q < r) (hr8 : r < 8) := habove r hr hr8
    interval_cases q <;> simp [hdue, h]
  unfold State.refill
  simp only [hfind]
  rw [if_neg (by omega)]

end Lanes

section Reads
variable {s : State} {m p a len : Nat}

theorem Logs.spoilt {u v : State} (h : Logs u v) : v.memc.spoilt = u.memc.spoilt := by
  obtain ⟨l, n, x, hm⟩ := h.memc
  rw [hm]

theorem State.rhRoll_spoilt : s.rhRoll.memc.spoilt = s.memc.spoilt := by
  unfold State.rhRoll
  extract_lets w
  split
  · rfl
  · rfl

theorem State.noticed_spoilt (m pc bank port code a' : Nat) :
    ((s.memNotice m pc bank port).memFault code 1 .none (portMaster port) 0 a').memc.spoilt = s.memc.spoilt :=
  (((Logs.refl s).memNotice m pc bank port).memFault ..).spoilt

/-- The throttle that an activation begins (R244). -/
def State.throttleRow (s : State) (p a : Nat) : State :=
  let s := s.setBank (bankKey a) { s.bankOf (bankKey a) with row := none }
  let s := s.setMemc { s.memc with throttled := s.memc.throttled ||| 2 ^ p, rhPort := p, rhPc := pcOf a, rhBank := bankIx a,
                                   rhRows := disturbed a }
  (s.stick f_MEMC_EVENTS_throttle).tally f_MEMC_RH_COUNT_count

/-- The row of an address is opened and counted in its row group (R244). -/
def State.openRow (s : State) (p a : Nat) : State :=
  let s := s.setMemc { s.memc with acts := Table.put 0 (rowGroup a) (Table.get 0 (rowGroup a) s.memc.acts + 1) s.memc.acts,
                                   actAt := Table.put 0 p s.now s.memc.actAt }
  s.setBank (bankKey a) { s.bankOf (bankKey a) with row := some (rowOf a) }

theorem State.activateRow_eq (p a : Nat) : s.activateRow p a =
    if Table.get 0 (rowGroup a) s.rhRoll.memc.acts + 1 = (s.rhRoll.openRow p a).fld f_MEMC_RH_CTL_threshold + 1 then
      (((s.rhRoll.openRow p a).throttleRow p a).memNotice 6 (pcOf a) (bankIx a) p).memFault 0x601 1 .none (portMaster p) 0 a
    else s.rhRoll.openRow p a := rfl

theorem State.openRow_spoilt (p a : Nat) : (s.openRow p a).memc.spoilt = s.memc.spoilt := rfl

theorem State.throttleRow_spoilt (p a : Nat) : (s.throttleRow p a).memc.spoilt = s.memc.spoilt := rfl

theorem State.activateRow_spoilt (p a : Nat) : (s.activateRow p a).memc.spoilt = s.memc.spoilt := by
  rw [State.activateRow_eq]
  split
  · rw [State.noticed_spoilt, State.throttleRow_spoilt, State.openRow_spoilt, State.rhRoll_spoilt]
  · rw [State.openRow_spoilt, State.rhRoll_spoilt]

theorem State.rowAccess_spoilt (p a : Nat) : (s.rowAccess p a).memc.spoilt = s.memc.spoilt := by
  unfold State.rowAccess
  extract_lets k u
  show u.memc.spoilt = s.memc.spoilt
  subst u
  split
  · rfl
  · exact State.activateRow_spoilt p a

theorem State.memAccess_spoilt (h : s.memc.st = .service) (p a len : Nat) : (s.memAccess p a len).memc.spoilt = s.memc.spoilt := by
  have hne : ¬ s.memc.st = .retention := by simp [h]
  have heach (l : List Nat) : ∀ u : State, (u.each l fun b s => s.rowAccess p b).memc.spoilt = u.memc.spoilt := by
    induction l with
    | nil => exact fun _ => rfl
    | cons b l ih => exact fun u => (ih (u.rowAccess p b)).trans (State.rowAccess_spoilt p b)
  unfold State.memAccess
  rw [if_neg hne]
  exact heach _ s

theorem foldl_fixed {α β : Type} {g : β → α → β} {z : β} : ∀ (l : List α), (∀ a ∈ l, g z a = z) → l.foldl g z = z
  | [], _ => rfl
  | a :: l, h => by
    rw [List.foldl_cons, h a (List.mem_cons_self ..)]
    exact foldl_fixed l fun b hb => h b (List.mem_cons_of_mem _ hb)

/-- A read of data none of which is bad meets no error. -/
theorem State.checkRead_good (h : s.memc.spoilt = []) (copyBad : List Nat) : s.checkRead p a len [] copyBad = (s, []) := by
  unfold State.checkRead
  refine foldl_fixed _ fun i _ => ?_
  dsimp only
  split
  · rfl
  · simp [State.checkBurst, State.spoiltIn, h]

/-- A read through the controller that serves at once, of data none of which is bad. -/
theorem State.memRead_good (h : s.memQuiet) : (s.memRead m p a len []).2 = [] := by
  obtain ⟨hst, hreqs, hspoilt, -⟩ := h
  unfold State.memRead
  rw [State.portOrder_none hreqs, State.checkRead_good ((State.memAccess_spoilt hst p a len).trans hspoilt)]

/-- A read of 32 bytes at a burst's start, both of whose places are bad, changes no byte. -/
theorem State.keeps_memRead_bad (h : s.memQuiet) (ha : a % 32 = 0) : Keeps 412850 s (s.memRead m p a 32 [0]).1 := by
  obtain ⟨hst, hreqs, -, -⟩ := h
  have hbursts : burstsOf a 32 = [0] := by
    unfold burstsOf
    rw [show (a + 32 + 31) / 32 - a / 32 = 1 by omega]
    rfl
  have hcheck (u : State) (lo n : Nat) (hu : Keeps 412850 s u) : Keeps 412850 s (u.checkBurst p lo n true true).1 := by
    unfold State.checkBurst
    simp only [Bool.true_or, Bool.not_true, Bool.false_eq_true, if_false, true_or, if_true]
    split
    · exact State.keeps_rowError (Within.refl _) (State.keeps_uncorrectable (Within.refl _)
        (State.keeps_spoil (show 2048 ||| 412850 = 412850 by decide) (State.keeps_spoil (show 2048 ||| 412850 = 412850 by decide) hu ..) ..) ..) ..
    · exact State.keeps_uncorrectable (Within.refl _) (State.keeps_spoil (show 2048 ||| 412850 = 412850 by decide) hu ..) ..
  unfold State.memRead
  rw [State.portOrder_none hreqs]
  refine State.keeps_lostCheck (Within.refl _) ?_ ..
  have hacc : Keeps 412850 s (s.memAccess p a 32) := State.keeps_memAccess_service hst ..
  unfold State.checkRead
  rw [hbursts, List.foldl_cons, List.foldl_nil]
  dsimp only
  split
  · exact hacc
  · exact hcheck _ _ _ hacc

theorem State.keeps_memRead_good (h : s.memQuiet) : Keeps 412850 s (s.memRead m p a len []).1 := by
  obtain ⟨hst, hreqs, hspoilt, -⟩ := h
  unfold State.memRead
  rw [State.portOrder_none hreqs, State.checkRead_good ((State.memAccess_spoilt hst p a len).trans hspoilt)]
  exact State.keeps_lostCheck (Within.refl _) (State.keeps_memAccess_service hst ..) ..

end Reads

section Refilled
variable {s : State} {f q : Nat} {l l' : List QItem} {x : QItem}

/-- The state after the spilled item behind `l` in lane `q` was read, and put back as `back` or removed (R201, R253). -/
def State.broughtBack (s u : State) (f q : Nat) (l back l' : List QItem) : State :=
  (u.setFelt f ((s.feltOf f).setLane q (l ++ back ++ l'))).giveBack f true 1

theorem State.refillOne_good (hlane : (s.feltOf f).lane q = l ++ x :: l') (hl : ∀ y ∈ l, y.place ≠ .spill) (hx : x.place = .spill)
    (hl' : ∀ y ∈ l', y.place ≠ .spill) (hquiet : s.memQuiet) {u : State} (hu : u = (s.memRead (portMaster 5) 5 (s.spillAddr x.slot) 32 []).1)
    (hfelt : u.feltOf f = s.feltOf f) :
    s.refillOne f q false =
      s.broughtBack u f q l [{ x with item := Item.ofBytes (u.hbmBytes (s.spillAddr x.slot) 32), place := .refill }] l' := by
  have hread : s.memRead (portMaster 5) 5 (s.spillAddr x.slot) 32 [] = (u, []) := by
    exact Prod.ext hu.symm (State.memRead_good hquiet)
  unfold State.refillOne State.broughtBack
  simp only [hlane, refillSplit_one (k := 0) hl hx hl', List.drop_left, Bool.false_eq_true, if_false, hread, hfelt, List.isEmpty_nil, if_true,
    List.take_left, List.append_assoc]
  rw [List.drop_append, List.drop_of_length_le (Nat.le_succ _), Nat.add_sub_cancel_left]
  rfl

theorem State.refillOne_bad (hlane : (s.feltOf f).lane q = l ++ x :: l') (hl : ∀ y ∈ l, y.place ≠ .spill) (hx : x.place = .spill)
    (hl' : ∀ y ∈ l', y.place ≠ .spill) {r : State × List Nat} (hr : r = s.memRead (portMaster 5) 5 (s.spillAddr x.slot) 32 [0]) (hbad : r.2 ≠ [])
    (hfelt : r.1.feltOf f = s.feltOf f) : s.refillOne f q true = (s.broughtBack r.1 f q l [] l').fault 0x605 2 (.felt f) 0x111B := by
  unfold State.refillOne State.broughtBack
  simp only [hlane, refillSplit_one (k := 0) hl hx hl', List.drop_left, if_true, ← hr, hfelt, List.isEmpty_iff, hbad, if_false, List.take_left, List.append_assoc]
  rw [List.drop_append, List.drop_of_length_le (Nat.le_succ _), Nat.add_sub_cancel_left]
  rfl

/-- What the read of one item leaves to the end of a refill: the items behind it of its segment are marked, and an empty felt's timer stops. -/
def State.refillEnd (s : State) (f q : Nat) : Felt :=
  let x := s.feltOf f
  let l := x.lane q
  let ahead := (refillSplit l 1).1
  let rest := l.drop ahead.length
  let seg := rest.takeWhile fun i => i.place == .spill
  let y := x.setLane q (ahead ++ seg.map (fun i => { i with begun := true }) ++ rest.drop seg.length)
  if y.depth = 0 then { y with timer := none, emptyAt := s.now } else y

/-- A refill of a segment of one item, in a felt that is active (R201). -/
theorem State.refillLane_one (hlane : (s.feltOf f).lane q = l ++ x :: l') (hl : ∀ y ∈ l, y.place ≠ .spill) (hx : x.place = .spill)
    (hl' : ∀ y ∈ l', y.place ≠ .spill) (hst : s.memc.st = .service) (hsr : s.srEntering = false) {bad : List Nat} {v : State}
    (hv : s.refillOne f q (bad.contains 0) = v) (hact : (v.feltOf f).st = .active) (hrise : Table.rising v.que.felts = true) :
    s.refillLane f q bad = v.setFelt f (v.refillEnd f q) := by
  have harrive : s.memArrive = s := by
    unfold State.memArrive
    simp [hsr, hst]
  have hend : (v.refillEnd f q).st = .active := by
    unfold State.refillEnd
    dsimp only
    split <;> exact hact
  have hdrain : (v.setFelt f (v.refillEnd f q)).drainBurst f = v.setFelt f (v.refillEnd f q) := by
    unfold State.drainBurst
    dsimp only
    rw [State.feltOf_setFelt_same hrise, if_neg]
    rw [hend]
    rintro ⟨h, -⟩
    cases h
  unfold State.refillLane
  rw [hlane, refillSplit_one (k := 63) hl hx hl', harrive]
  dsimp only [List.length_singleton]
  rw [show List.range 1 = [0] from rfl, show s.each [0] (fun i s => s.refillOne f q (bad.contains i)) = v from hv]
  exact hdrain

theorem State.refillEnd_depth : (s.refillEnd f q).depth = (s.feltOf f).depth := by
  have hlen (l : List QItem) (g : QItem → QItem) (p : QItem → Bool) :
      ((refillSplit l 1).1 ++ ((l.drop (refillSplit l 1).1.length).takeWhile p).map g ++
        (l.drop (refillSplit l 1).1.length).drop ((l.drop (refillSplit l 1).1.length).takeWhile p).length).length = l.length := by
    have hle : (refillSplit l 1).1.length ≤ l.length := List.IsPrefix.length_le (List.takeWhile_prefix _)
    have hseg : ((l.drop (refillSplit l 1).1.length).takeWhile p).length ≤ (l.drop (refillSplit l 1).1.length).length :=
      List.IsPrefix.length_le (List.takeWhile_prefix _)
    simp only [List.length_append, List.length_map, List.length_drop] at hseg ⊢
    omega
  unfold State.refillEnd
  dsimp only
  split
  · exact Felt.depth_setLane (hlen _ _ _)
  · exact Felt.depth_setLane (hlen _ _ _)

theorem State.refillEnd_unspilled {y : Felt} {m : List QItem} (h : s.feltOf f = y.setLane q m) (hm : m ≠ []) (hspill : ∀ i ∈ m, i.place ≠ .spill) :
    s.refillEnd f q = y.setLane q m := by
  have hself : ((y.setLane q m).setLane q m).depth ≠ 0 := Felt.depth_pos (by rw [Felt.lane_setLane hm]; exact hm)
  unfold State.refillEnd
  simp only [h, Felt.lane_setLane hm, refillSplit_none hspill, List.drop_length, List.takeWhile_nil, List.map_nil, List.length_nil, List.drop_nil, List.append_nil]
  rw [if_neg hself, Felt.setLane_setLane hm hm]

end Refilled

section Timers
variable {s : State} {f k : Nat}

theorem State.tailTimeout_early (h : s.tailDue f = false) : s.tailTimeout f = s := by
  unfold State.tailTimeout
  rw [h]
  rfl

/-- The state of a felt whose tail timer has run: the bit is set, the pair's source is due, and the timer starts again (R202, R203). -/
def State.tailed (s : State) (f : Nat) : State :=
  ((s.stick f_QUE_FELT_WM_STATUS_tail f).noteWm f).setFelt f { s.feltOf f with timer := some s.now }

theorem State.tailed_only : OnlyChanges [.regs, .que] s (s.tailed f) := by
  unfold State.tailed
  exact ((((OnlyChanges.refl _ s).stick (by decide) f_QUE_FELT_WM_STATUS_tail f).que (by decide) _ :
    OnlyChanges _ s ((s.stick f_QUE_FELT_WM_STATUS_tail f).noteWm f))).que (by decide) _

theorem State.tailed_felts (h : Table.rising s.que.felts = true) : Table.SameBut [f] s.que.felts (s.tailed f).que.felts :=
  Table.SameBut.put h Felt.reset f { s.feltOf f with timer := some s.now }

theorem State.tailed_regs (h : Table.rising s.regs = true) :
    (s.tailed f).on f_QUE_FELT_WM_STATUS_tail f = true ∧ Table.SameBut [regAddr .QUE_FELT_WM_STATUS f 0] s.regs (s.tailed f).regs :=
  ⟨State.on_stick h f (by decide) (by decide), State.sameBut_stick h f_QUE_FELT_WM_STATUS_tail f⟩

theorem State.tailed_wmDue : (s.tailed f).que.wmDue = s.que.wmDue ++ [(f / 2, s.cycle)] := rfl

theorem State.tailTimeout_due (h : s.tailDue f = true) : s.tailTimeout f = (s.tailed f).sendBurst f := by
  unfold State.tailTimeout
  rw [h]
  rfl

theorem State.sendBurst_none (h : (s.feltOf f).burst = [] ∨ s.fld f_QUE_FELT_CTL_consumer f = 0) : s.sendBurst f = s := by
  unfold State.sendBurst
  dsimp only
  split
  · rfl
  · next hne =>
    obtain h | h := h
    · exact absurd h hne
    · unfold State.consumer
      simp only [h]

theorem State.fireWm_front {c : Nat} {l : List (Nat × Nat)} (h : s.que.wmDue = (k, c) :: l) (hc : c < s.cycle) (hl : (k, c) ∉ l) :
    s.fireWm k = State.assertSrc { s with que := { s.que with wmDue := l } } (srcWm k) := by
  have hkeep : l.filter (fun e => decide (e ≠ (k, c))) = l :=
    List.filter_eq_self.2 fun e he => decide_eq_true fun heq => hl (heq ▸ he)
  unfold State.fireWm
  rw [h, List.find?_cons_of_pos (by simp [hc])]
  dsimp only
  rw [List.filter_cons_of_neg (by simp), hkeep]

theorem State.fireWm_none (h : ∀ c, (k, c) ∈ s.que.wmDue → s.cycle ≤ c) : s.fireWm k = s := by
  have hfind : s.que.wmDue.find? (fun e => decide (e.1 = k) && decide (e.2 < s.cycle)) = none := by
    refine List.find?_eq_none.2 fun e he hp => ?_
    obtain ⟨hk, hc⟩ := Bool.and_eq_true_iff.1 hp
    have hmem : (k, e.2) ∈ s.que.wmDue := by
      rw [← of_decide_eq_true hk]
      exact he
    exact absurd (of_decide_eq_true hc) (Nat.not_lt.2 (h e.2 hmem))
  unfold State.fireWm
  rw [hfind]

end Timers

section Control
variable {s : State} {m f : Nat} {v : Word}

/-- What a write stores of a register without W1C fields, some bits of it held back. -/
theorem stored_keep_getLsbD {r : Reg} {old v keep : Word} {k : Nat} (h : w1cMask r = 0) (hk : k < 32) :
    (stored r old v keep).getLsbD k = if (rwMask r).getLsbD k && ! keep.getLsbD k then v.getLsbD k else old.getLsbD k := by
  unfold stored
  dsimp only
  rw [h]
  simp only [BitVec.getLsbD_and, BitVec.getLsbD_or, BitVec.getLsbD_not, hk, decide_true, Bool.true_and, BitVec.and_zero, BitVec.not_zero,
    BitVec.getLsbD_allOnes, Bool.and_true, BitVec.ofNat_eq_ofNat]
  cases (rwMask r).getLsbD k <;> cases keep.getLsbD k <;> simp

theorem rwMask_feltCtl : rwMask .QUE_FELT_CTL = 0x803F0000 := by decide

/-- Words that agree outside the enable bit agree on every other bit. -/
theorem getLsbD_of_agree {old v : Word} (h : (v ^^^ old) &&& 0x7FFFFFFF = 0) {k : Nat} (hk : k ≠ 31) : old.getLsbD k = v.getLsbD k := by
  have hbit : ((v ^^^ old) &&& 0x7FFFFFFF).getLsbD k = false := by rw [h]; simp
  rw [BitVec.getLsbD_and, BitVec.getLsbD_xor] at hbit
  by_cases hk32 : k < 32
  · have hone : (0x7FFFFFFF : Word).getLsbD k = true := by
      have : k < 31 := by omega
      interval_cases k <;> rfl
    rw [hone, Bool.and_true] at hbit
    cases hv : v.getLsbD k <;> cases ho : old.getLsbD k <;> simp_all
  · rw [BitVec.getLsbD_of_ge _ _ (by omega), BitVec.getLsbD_of_ge _ _ (by omega)]

theorem stored_feltCtl {old v : Word} (h : (v ^^^ old) &&& 0x7FFFFFFF = 0) : stored .QUE_FELT_CTL old v 0 = v := by
  refine BitVec.eq_of_getLsbD_eq fun k _ => ?_
  rw [stored_getLsbD, show w1cMask .QUE_FELT_CTL = 0 by decide]
  by_cases hk : k = 31
  · subst hk
    rw [rwMask_feltCtl]
    simp
  · rw [getLsbD_of_agree h hk]
    simp

theorem differs_feltCtl_rwi {old v : Word} (h : (v ^^^ old) &&& 0x7FFFFFFF = 0) : differs old v (rwiMask .QUE_FELT_CTL) = false :=
  differs_eq_false fun k hk => getLsbD_of_agree h fun he => by
    subst he
    revert hk
    decide

theorem State.barred_feltCtl (old : Word) : s.barred m .QUE_FELT_CTL f v old = none := by simp [State.barred, regRow]

/-- A write of QUE_FELT_CTL that changes the enable bit alone and that R208 and R209 allow. -/
theorem State.regWrite_feltCtl (hsh : s.shielded (regAddr .QUE_FELT_CTL f 0) = 0) (h : (v ^^^ s.rd .QUE_FELT_CTL f) &&& 0x7FFFFFFF = 0)
    (hok : bit v 31 = false ∨ (s.feltOf f).st ≠ .draining ∧ (s.fld f_QUE_FELT_CTL_consumer f ≠ 1 ∨ s.ringBad f = false)) :
    s.regWrite m .QUE_FELT_CTL f 0 v none false = (s.wr .QUE_FELT_CTL v f).changed .QUE_FELT_CTL f 0 none (s.rd .QUE_FELT_CTL f) := by
  have hfree : (bit v 31 && (decide ((s.feltOf f).st = .draining) || (decide (s.consumer f = 1) && s.ringBad f))) = false := by
    unfold State.consumer
    obtain hv | ⟨hst, hc | hr⟩ := hok
    · simp [hv]
    · simp [hst, hc]
    · simp [hst, hr]
  rw [State.regWrite_plain (by decide) hsh, State.writePlain_agreed (by decide) (differs_feltCtl_rwi h) (State.barred_feltCtl _), stored_feltCtl h]
  · rfl
  · unfold State.refusals
    dsimp only
    rw [hfree]
    intro x hx k hk
    simp only [List.mem_cons, List.not_mem_nil, or_false] at hx
    obtain rfl | rfl := hx
    · simp at hk
    · refine getLsbD_of_agree h fun he => ?_
      subst he
      dsimp only at hk
      split at hk
      · revert hk
        decide
      · simp at hk

/-- A write of QUE_FELT_CTL that R208 or R209 refuses is a fault and keeps the register. -/
theorem State.regWrite_feltCtl_refused (hr : Table.rising s.regs = true) (hsh : s.shielded (regAddr .QUE_FELT_CTL f 0) = 0) (h : (v ^^^ s.rd .QUE_FELT_CTL f) &&& 0x7FFFFFFF = 0)
    (hv : bit v 31 = true) (hon : s.on f_QUE_FELT_CTL_enable f = false)
    (hbad : (s.feltOf f).st = .draining ∨ s.fld f_QUE_FELT_CTL_consumer f = 1 ∧ s.ringBad f = true) :
    s.regWrite m .QUE_FELT_CTL f 0 v none false =
      (s.accessFault 0x402 1 (.felt f) m 2 (regAddr .QUE_FELT_CTL f 0)).wr .QUE_FELT_CTL (s.rd .QUE_FELT_CTL f) f := by
  obtain ⟨old, hold⟩ : ∃ old, s.rd .QUE_FELT_CTL f = old := ⟨_, rfl⟩
  have hrefuse : (bit v 31 && (decide ((s.feltOf f).st = .draining) || (decide (s.consumer f = 1) && s.ringBad f))) = true := by
    unfold State.consumer
    obtain hst | ⟨hc, hr⟩ := hbad
    · simp [hv, hst]
    · simp [hv, hc, hr]
  have hbit : bit old 31 = false := by
    rw [← hold]
    exact (State.on_eq_bit f_QUE_FELT_CTL_enable f 0 rfl).symm.trans hon
  have hdiff : differs old v (maskOf 31 1 &&& rwMask .QUE_FELT_CTL) = true := by
    refine decide_eq_true fun he => ?_
    have h31 : ((old ^^^ v) &&& (maskOf 31 1 &&& rwMask .QUE_FELT_CTL)).getLsbD 31 = false := by rw [he]; simp
    rw [BitVec.getLsbD_and, BitVec.getLsbD_xor, show (maskOf 31 1 &&& rwMask .QUE_FELT_CTL).getLsbD 31 = true by decide,
      show old.getLsbD 31 = false from hbit, show v.getLsbD 31 = true from hv] at h31
    cases h31
  have hsame (w : Word) (hw : w.getLsbD 31 = false) : differs old v (w &&& rwMask .QUE_FELT_CTL) = false :=
    differs_eq_false fun k hk => getLsbD_of_agree (hold ▸ h) fun he => by
      subst he
      rw [BitVec.getLsbD_and, hw] at hk
      cases hk
  have hkept (w : Word) : stored .QUE_FELT_CTL old v ((0 ||| maskOf 31 1) ||| w) = old := by
    refine BitVec.eq_of_getLsbD_eq fun k hk => ?_
    rw [stored_keep_getLsbD (by decide) hk]
    by_cases h31 : k = 31
    · rw [h31, BitVec.getLsbD_or, show ((0 : Word) ||| maskOf 31 1).getLsbD 31 = true by decide, Bool.true_or, Bool.not_true, Bool.and_false]
      rfl
    · rw [getLsbD_of_agree (old := old) (hold ▸ h) h31, ite_self]
  have htail : (if decide (20 < bits v 16 5) = true then maskOf 16 5 else 0).getLsbD 31 = false := by
    split
    · decide
    · simp
  rw [State.regWrite_plain (by decide) hsh]
  unfold State.writePlain
  rw [hold]
  simp only [reduceCtorEq, if_false, differs_feltCtl_rwi (hold ▸ h), Bool.false_eq_true, State.barred_feltCtl]
  unfold State.refusals
  simp only [hrefuse, if_true, List.filter_cons, hdiff, hsame _ htail, Bool.false_eq_true, if_false, List.filter_nil, List.foldl_cons, List.foldl_nil,
    State.each, hkept]
  obtain ⟨w, hw⟩ : ∃ w, w = s.accessFault 0x402 1 (.felt f) m 2 (regAddr .QUE_FELT_CTL f 0) := ⟨_, rfl⟩
  have hstay : (w.wr .QUE_FELT_CTL old f).rd .QUE_FELT_CTL f = old :=
    State.rd_wr_same (hw ▸ ((Logs.refl s).accessFault ..).rising hr) ..
  show (State.changed (State.wr (s.accessFault 0x402 1 (.felt f) m 2 (regAddr .QUE_FELT_CTL f 0)) .QUE_FELT_CTL old f)
    .QUE_FELT_CTL f 0 none old) = _
  rw [← hw]
  unfold State.changed
  rw [hstay]
  exact if_pos rfl

/-- Whatever is written to QUE_FELT_CTL changes no more than refusals and the felt's state do. -/
theorem State.keeps_regWrite_feltCtl (m : Nat) (v : Word) : Keeps 412850 s (s.regWrite m .QUE_FELT_CTL f 0 v none false) := by
  have hplain (w : Word) : Keeps 412850 s (s.writePlain m .QUE_FELT_CTL f 0 w none false) := by
    unfold State.writePlain
    extract_lets a old u1 u2 fs u3 keep u4
    have h2 : Keeps 412850 s u2 := by
      subst u2
      split
      · exact State.keeps_writeFault (Within.refl _) (Keeps.refl s) ..
      · exact Keeps.refl s
    rw [State.barred_feltCtl]
    have h3 : Keeps 412850 s u3 := State.keeps_each h2 _ _ fun x u hu => State.keeps_writeFault (Within.refl _) hu ..
    have hwr := State.keeps_wr (show 2 ||| 412850 = 412850 by decide) h3 .QUE_FELT_CTL (stored .QUE_FELT_CTL old w keep) f 0
    show Keeps 412850 s (State.changed _ .QUE_FELT_CTL f 0 none old)
    unfold State.changed State.feltCtlChanged State.openFelt State.closeFelt
    dsimp only
    split
    · exact hwr
    · split
      · exact State.keeps_setFelt (show 1024 ||| 412850 = 412850 by decide) hwr _ _
      · split
        · exact State.keeps_setFelt (show 1024 ||| 412850 = 412850 by decide) hwr _ _
        · exact hwr
  exact hplain _

theorem State.openFelt_only (h : Table.rising s.que.felts = true) :
    (s.openFelt f).feltOf f = { s.feltOf f with st := .active, streamSeq := 0 } ∧ Table.SameBut [f] s.que.felts (s.openFelt f).que.felts :=
  ⟨State.feltOf_setFelt_same h, Table.SameBut.put h Felt.reset f { s.feltOf f with st := .active, streamSeq := 0 }⟩

theorem State.closeFelt_only (h : Table.rising s.que.felts = true) :
    (s.closeFelt f).feltOf f = { s.feltOf f with st := .draining, closing := some s.cycle } ∧
      Table.SameBut [f] s.que.felts (s.closeFelt f).que.felts :=
  ⟨State.feltOf_setFelt_same h, Table.SameBut.put h Felt.reset f { s.feltOf f with st := .draining, closing := some s.cycle }⟩

/-- What a change of the enable bit does to a felt (R208). -/
theorem State.changed_feltCtl {old : Word} (hr : Table.rising s.regs = true) (hne : v ≠ old) :
    (s.wr .QUE_FELT_CTL v f).changed .QUE_FELT_CTL f 0 none old =
      if ! bit old 31 ∧ bit v 31 then (s.wr .QUE_FELT_CTL v f).openFelt f
      else if bit old 31 ∧ ! bit v 31 ∧ (s.feltOf f).st = .active then (s.wr .QUE_FELT_CTL v f).closeFelt f else s.wr .QUE_FELT_CTL v f := by
  have hv : (s.wr .QUE_FELT_CTL v f).rd .QUE_FELT_CTL f = v := State.rd_wr_same hr ..
  unfold State.changed State.feltCtlChanged
  rw [hv]
  dsimp only
  rw [if_neg hne]
  rfl

theorem State.becomeDrained_drained (h1 : (s.feltOf f).st = .draining) (h2 : (s.feltOf f).closing = none) (h3 : (s.feltOf f).depth = 0)
    (h4 : (s.feltOf f).burst = []) (h5 : (s.feltOf f).inflight = []) :
    s.becomeDrained f = (s.setFelt f { s.feltOf f with st := .drained }).noteWm f := by
  unfold State.becomeDrained
  dsimp only
  rw [if_pos ⟨h1, by rw [h2]; rfl, h3, h4, h5⟩]

theorem State.becomeDrained_not (h : (s.feltOf f).st ≠ .draining ∨ (s.feltOf f).closing ≠ none ∨ (s.feltOf f).depth ≠ 0 ∨
    (s.feltOf f).burst ≠ [] ∨ (s.feltOf f).inflight ≠ []) : s.becomeDrained f = s := by
  unfold State.becomeDrained
  dsimp only
  rw [if_neg]
  rintro ⟨h1, h2, h3, h4, h5⟩
  obtain h | h | h | h | h := h
  · exact h h1
  · exact h (Option.isNone_iff_eq_none.1 h2)
  · exact h h3
  · exact h h4
  · exact h h5

end Control

/-- Settles O34. -/
theorem feltStatesAndSpill : Obligations.FeltStatesAndSpill := by
  intro s t f hcan hpow hf
  obtain ⟨b, hb⟩ : ∃ b, s.begin t = b := ⟨_, rfl⟩
  have hcb : b.canonical := hb ▸ State.canonical_begin hcan t
  have hregs : Table.rising b.regs = true := hcb.fine.regs
  have hfelts : Table.rising b.que.felts = true := hcb.fine.felts
  rw [hb]
  have hok : isFelt f = true := by simpa [isFelt] using hf
  refine ⟨fun q l x l' a hlane hl hx hl' hdue habove hq hroom hst hquiet hsr hlanes ha => ⟨fun hfelt => ?_, fun r X hr hbad hfelt hX hact => ?_⟩,
    fun hnone bad => ?_, fun bad => ?_, fun hd => ?_, fun hd hburst => ?_, fun hd => ?_, fun k hk => ⟨fun c l hwm hc hl => ?_, fun hnone => ?_, ?_⟩,
    fun m v hans hsh hagree => ⟨fun hv hon hring hst => ?_, fun hv hon hbad => ?_, fun hv hon hst => ?_⟩, fun m v c hc => ?_,
    fun h1 h2 h3 h4 h5 => ?_, fun h => ?_⟩
  · obtain ⟨u, hu⟩ : ∃ u, u = (b.memRead (portMaster 5) 5 a 32 []).1 := ⟨_, rfl⟩
    have hkeep : Keeps 412850 b u := hu ▸ State.keeps_memRead_good hquiet
    have hrise : Table.rising u.que.felts = true := (hkeep.fine hcb).fine.felts
    subst ha
    rw [← hu] at hfelt
    have hone := State.refillOne_good hlane hl hx hl' hquiet hu hfelt
    obtain ⟨x', hx'⟩ : ∃ x', x' = { x with item := Item.ofBytes (u.hbmBytes (b.spillAddr x.slot) 32), place := .refill } := ⟨_, rfl⟩
    have hspill : ∀ y ∈ l ++ [x'] ++ l', y.place ≠ .spill := by
      intro y hy
      simp only [List.mem_append, List.mem_singleton] at hy
      obtain (h | h) | h := hy
      · exact hl y h
      · rw [h, hx']
        simp
      · exact hl' y h
    rw [← hx'] at hone
    have hfv : (b.broughtBack u f q l [x'] l').feltOf f = (b.feltOf f).setLane q (l ++ [x'] ++ l') := State.feltOf_setFelt_same (s := u) hrise
    have hend := State.refillEnd_unspilled hfv (by simp) hspill
    have hact : ((b.broughtBack u f q l [x'] l').feltOf f).st = .active := by
      rw [hfv]
      exact hst
    have hrv : Table.rising (b.broughtBack u f q l [x'] l').que.felts = true := Table.rising_put hrise
    have hlaneEnd := State.refillLane_one hlane hl hx hl' hquiet.1 hsr (bad := []) hone hact hrv
    have hbegin := (State.refill_lane (bad := []) (State.refillDue_one hlane hl hx hl' hdue) habove hq hroom).trans hlaneEnd
    rw [hend] at hbegin
    refine .runs hb hpow rfl hok hbegin ((((OnlyChanges.refl _ _).then hkeep (by decide)).que (by decide) _).que (by decide) _ |>.que (by decide) _) ?_
    dsimp only
    rw [← hu, ← hx']
    refine ⟨(State.feltOf_setFelt_same hrv).trans (by rw [List.append_assoc]; rfl), rfl, rfl, ?_, rfl⟩
    exact (Table.SameBut.put hrise Felt.reset f _).trans (Table.SameBut.put hrv Felt.reset f _)
  · subst ha
    have hkeep : Keeps 412850 b r.1 := hr ▸ State.keeps_memRead_bad hquiet (State.spillAddr_aligned _)
    have hone := State.refillOne_bad hlane hl hx hl' hr hbad hfelt
    have hX' : X = (b.broughtBack r.1 f q l [] l').fault 0x605 2 (.felt f) 0x111B := by
      rw [hX]
      unfold State.broughtBack
      rw [List.append_nil]
    rw [← hX'] at hone
    have hkeepX : Keeps 412850 b X := hX' ▸ State.keeps_fault (Within.refl _)
      (State.keeps_giveBack (show 1024 ||| 412850 = 412850 by decide) (State.keeps_setFelt (show 1024 ||| 412850 = 412850 by decide) hkeep _ _) ..) ..
    have hrise : Table.rising X.que.felts = true := (hkeepX.fine hcb).fine.felts
    have hbegin := (State.refill_lane (bad := [0]) (State.refillDue_one hlane hl hx hl' hdue) habove hq hroom).trans
      (State.refillLane_one hlane hl hx hl' hquiet.1 hsr (bad := [0]) hone hact hrise)
    refine .runs hb hpow rfl hok hbegin (((OnlyChanges.refl _ _).then hkeepX (by decide)).que (by decide) _) ⟨rfl, rfl, ?_, rfl⟩
    rw [State.feltOf_setFelt_same hrise, State.refillEnd_depth]
  · exact .runs hb hpow rfl hok (State.refill_none hnone bad) (OnlyChanges.refl _ _) trivial
  · exact .runs hb hpow rfl hok rfl ((OnlyChanges.refl _ _).then (State.keeps_refill (Within.refl _) (Keeps.refl _) f bad) (by decide)) trivial
  · exact .runs hb hpow rfl hok (State.tailTimeout_early hd) (OnlyChanges.refl _ _) trivial
  · have hy : (b.tailed f).feltOf f = { b.feltOf f with timer := some b.now } :=
      State.feltOf_setFelt_same (s := (b.stick f_QUE_FELT_WM_STATUS_tail f).noteWm f) hfelts
    have hcon : (b.tailed f).fld f_QUE_FELT_CTL_consumer f = b.fld f_QUE_FELT_CTL_consumer f :=
      State.fld_wr_other hregs (by simp [regAddr, regRow, f_QUE_FELT_CTL_consumer, f_QUE_FELT_WM_STATUS_tail])
    have hnone : (b.tailed f).sendBurst f = b.tailed f := State.sendBurst_none (by
      rw [hy, hcon]
      exact hburst.symm)
    refine .runs hb hpow rfl hok ((State.tailTimeout_due hd).trans hnone) State.tailed_only
      ⟨(State.tailed_regs hregs).1, State.tailed_wmDue, hy, State.tailed_felts hfelts, (State.tailed_regs hregs).2⟩
  · have hkeep := State.keeps_tailTimeout (Within.refl _) (Keeps.refl b) f
    exact .runs hb hpow rfl hok rfl ((OnlyChanges.refl _ _).then hkeep (by decide)) trivial
  · exact .runs hb hpow rfl (by simpa [isPair] using hk) (State.fireWm_front hwm hc hl) (((OnlyChanges.refl _ _).que (by decide) _).evm (by decide) _)
      ⟨rfl, _, List.mem_append_right _ (List.mem_singleton_self _), rfl⟩
  · exact .runs hb hpow rfl (by simpa [isPair] using hk) (State.fireWm_none hnone) (OnlyChanges.refl _ _) trivial
  · refine .runs hb hpow rfl (by simpa [isPair] using hk) rfl ((OnlyChanges.refl _ _).then (State.keeps_fireWm (Within.refl _) (Keeps.refl _) k) (by decide)) ?_
    unfold State.fireWm
    split <;> rfl
  · have hne : v ≠ b.rd .QUE_FELT_CTL f := fun he => by
      have hz : bit (b.rd .QUE_FELT_CTL f) 31 = false := (State.on_eq_bit f_QUE_FELT_CTL_enable f 0 rfl).symm.trans hon
      rw [← he, hv] at hz
      cases hz
    have hold : bit (b.rd .QUE_FELT_CTL f) 31 = false := (State.on_eq_bit f_QUE_FELT_CTL_enable f 0 rfl).symm.trans hon
    have he := (State.regWrite_feltCtl (m := m) hsh hagree (.inr ⟨hst, hring⟩)).trans (State.changed_feltCtl hregs hne)
    rw [hold, hv, if_pos ⟨rfl, rfl⟩] at he
    exact .registerWrite hb hpow hans rfl hok he (((OnlyChanges.refl _ _).regs (by decide) _).que (by decide) _) (by decide)
      ⟨rfl, State.rd_wr_same hregs .., (State.openFelt_only (s := b.wr .QUE_FELT_CTL v f) hfelts).1, (State.openFelt_only (s := b.wr .QUE_FELT_CTL v f) hfelts).2, .put hregs (regReset .QUE_FELT_CTL f) _ _⟩
  · have hold : bit (b.rd .QUE_FELT_CTL f) 31 = false := (State.on_eq_bit f_QUE_FELT_CTL_enable f 0 rfl).symm.trans hon
    have hrise : Table.rising (b.accessFault 0x402 1 (.felt f) m 2 (regAddr .QUE_FELT_CTL f 0)).regs = true :=
      ((Logs.refl b).accessFault ..).rising hregs
    refine .registerWrite hb hpow hans rfl hok (State.regWrite_feltCtl_refused hregs hsh hagree hv hon hbad)
      (((OnlyChanges.refl _ _).accessFault (by decide) ..).regs (by decide) _) (by decide) ⟨rfl, ?_, rfl⟩
    have hrd : ((b.accessFault 0x402 1 (.felt f) m 2 (regAddr .QUE_FELT_CTL f 0)).wr .QUE_FELT_CTL (b.rd .QUE_FELT_CTL f) f).rd .QUE_FELT_CTL f =
        b.rd .QUE_FELT_CTL f := State.rd_wr_same hrise ..
    exact (State.on_eq_bit f_QUE_FELT_CTL_enable f 0 rfl).trans ((congrArg (bit · 31) hrd).trans hold)
  · have hold : bit (b.rd .QUE_FELT_CTL f) 31 = true := (State.on_eq_bit f_QUE_FELT_CTL_enable f 0 rfl).symm.trans hon
    have hne : v ≠ b.rd .QUE_FELT_CTL f := fun he => by
      rw [← he, hv] at hold
      cases hold
    have he := (State.regWrite_feltCtl (m := m) hsh hagree (.inl hv)).trans (State.changed_feltCtl hregs hne)
    rw [hold, hv, if_neg (by simp), if_pos ⟨rfl, rfl, hst⟩] at he
    exact .registerWrite hb hpow hans rfl hok he (((OnlyChanges.refl _ _).regs (by decide) _).que (by decide) _) (by decide)
      ⟨rfl, State.rd_wr_same hregs .., (State.closeFelt_only (s := b.wr .QUE_FELT_CTL v f) hfelts).1, (State.closeFelt_only (s := b.wr .QUE_FELT_CTL v f) hfelts).2, .put hregs (regReset .QUE_FELT_CTL f) _ _⟩
  · have hframe : OnlyChanges [.regs, .evm, .force, .engs, .que, .memc, .vat, .flt, .cal, .resp] b
        (b.accessReg m .QUE_FELT_CTL f 0 v none false) := by
      unfold State.accessReg
      cases hr : b.answers m with
      | true =>
        rw [State.access_of_answers hr]
        exact ((OnlyChanges.refl _ _).then (State.keeps_regWrite_feltCtl m v) (by decide)).resp (by decide) _
      | false =>
        unfold State.access
        rw [hr, if_neg Bool.false_ne_true]
        exact (OnlyChanges.refl _ _).resp (by decide) _
    simp only [List.mem_cons, List.not_mem_nil, or_false] at hc
    obtain rfl | rfl := hc
    · exact .runs hb hpow rfl hok rfl hframe trivial
    · exact .runs hb hpow rfl hok rfl hframe trivial
  · exact .runs hb hpow rfl hok (State.becomeDrained_drained h1 h2 h3 h4 h5) (((OnlyChanges.refl _ _).que (by decide) _).que (by decide) _)
      ⟨State.feltOf_setFelt_same (s := b) (n := f) (x := { b.feltOf f with st := .drained }) hfelts, Table.SameBut.put hfelts Felt.reset f { b.feltOf f with st := .drained }, rfl⟩
  · exact .runs hb hpow rfl hok (State.becomeDrained_not h) (OnlyChanges.refl _ _) trivial

end Sys2Proof.Machine
end

section
/-!
PROOFS. Staging, direct writes and commits of a routing channel (R217 to R219).
-/

namespace Sys2Proof.Machine

open Sys2Proof

/-! ## The addresses of the routing channels (R22) -/

section Addresses

theorem rowIndex_none {w : RegRow} {o : Nat} (h : o < w.off ∨ w.s = 0 ∧ w.q = 0 ∧ o ≠ w.off ∨ w.s ≠ 0 ∧ w.n ≤ (o - w.off) / w.s ∨
    w.s ≠ 0 ∧ w.q = 0 ∧ (o - w.off) % w.s ≠ 0) : rowIndex w o = none := by
  unfold rowIndex
  split
  · rfl
  · next hge =>
    dsimp only
    rw [if_neg]
    rintro ⟨hi, -, he⟩
    obtain h | ⟨hs, hq, ho⟩ | ⟨hs, hn⟩ | ⟨hs, hq, hm⟩ := h
    · exact hge h
    · rw [hs, hq] at he
      simp only [if_true, Nat.mul_zero] at he
      omega
    · rw [if_neg hs] at hi
      omega
    · rw [if_neg hs, hq, Nat.mul_zero, Nat.mul_comm, ← Nat.mod_eq_sub_mul_div] at he
      exact hm he

theorem findReg_skip {r : Reg} {rs : List Reg} {o : Nat} (h : rowIndex (regRow r) o = none) : findReg o (r :: rs) = findReg o rs := by
  conv => lhs; unfold findReg
  rw [h]

theorem findReg_hit {r : Reg} {rs : List Reg} {o i j : Nat} (h : rowIndex (regRow r) o = some (i, j)) : findReg o (r :: rs) = some (r, i, j) := by
  conv => lhs; unfold findReg
  rw [h]

theorem blkOf_evm {o : Nat} (h : o < 0x100000) : blkOf (0x800200000 + o) = some (.evm, o) := by
  have hdiv : (0x800200000 + o - 0x800000000) / 0x100000 = 2 := by omega
  have hmod : (0x800200000 + o - 0x800000000) % 0x100000 = o := by omega
  unfold blkOf
  rw [if_neg (by omega), if_pos (by omega), hdiv, hmod]
  rfl

theorem findReg_evm {o : Nat} (h : 0x1004 ≤ o) (hlt : o < 0x5000) (h0 : o % 0x40 ≠ 0) (h4 : o % 0x40 ≠ 4) :
    findReg o (blkRegs .evm) = findReg o ([.EVM_RC_TARGET, .EVM_RC_FAR_OFS] ++ (blkRegs .evm).drop 13) := by
  have hsingle (r : Reg) (rs : List Reg) (hs : (regRow r).s = 0) (hq : (regRow r).q = 0) (ho : (regRow r).off < 0x1000) :
      findReg o (r :: rs) = findReg o rs := findReg_skip (rowIndex_none (.inr (.inl ⟨hs, hq, by omega⟩)))
  have hfew (r : Reg) (rs : List Reg) (hs : (regRow r).s = 4) (hn : (regRow r).n = 16) (ho : (regRow r).off < 0xF00) :
      findReg o (r :: rs) = findReg o rs := findReg_skip (rowIndex_none (.inr (.inr (.inl ⟨by omega, by rw [hs, hn]; omega⟩))))
  unfold blkRegs
  rw [hsingle _ _ rfl rfl (by decide), hsingle _ _ rfl rfl (by decide), hsingle _ _ rfl rfl (by decide), hsingle _ _ rfl rfl (by decide),
    hsingle _ _ rfl rfl (by decide), hsingle _ _ rfl rfl (by decide), hfew _ _ rfl rfl (by decide), hfew _ _ rfl rfl (by decide),
    hsingle _ _ rfl rfl (by decide),
    findReg_skip (rowIndex_none (w := regRow .EVM_RC_CTL) (.inr (.inr (.inr ⟨by decide, rfl, by simp only [regRow]; omega⟩)))),
    findReg_skip (rowIndex_none (w := regRow .EVM_RC_OWNER) (.inr (.inr (.inr ⟨by decide, rfl, by simp only [regRow]; omega⟩))))]
  rfl

theorem regAt_rcTarget {c j : Nat} (hc : c < 256) (hj : j < 8) : regAt (regAddr .EVM_RC_TARGET c j) = some (.EVM_RC_TARGET, c, j) := by
  have haddr : regAddr .EVM_RC_TARGET c j = 0x800200000 + (0x1008 + c * 0x40 + j * 4) := by simp only [regAddr, regRow, blkBase]; omega
  have hrow : rowIndex (regRow .EVM_RC_TARGET) (0x1008 + c * 0x40 + j * 4) = some (c, j) := by
    have h1 : (0x1008 + c * 0x40 + j * 4 - 0x1008) / 0x40 = c := by omega
    unfold rowIndex
    rw [if_neg (by simp only [regRow]; omega)]
    simp only [regRow, OfNat.ofNat_ne_zero, if_false, h1]
    have h2 : (0x1008 + c * 0x40 + j * 4 - 0x1008 - c * 0x40) / 4 = j := by omega
    rw [h2, if_pos ⟨hc, hj, by omega⟩]
  unfold regAt
  rw [haddr, blkOf_evm (by omega)]
  dsimp only
  rw [findReg_evm (by omega) (by omega) (by omega) (by omega)]
  exact findReg_hit hrow

theorem regAt_rcFarOfs {c : Nat} (hc : c < 256) : regAt (regAddr .EVM_RC_FAR_OFS c 0) = some (.EVM_RC_FAR_OFS, c, 0) := by
  have haddr : regAddr .EVM_RC_FAR_OFS c 0 = 0x800200000 + (0x1028 + c * 0x40) := by simp only [regAddr, regRow, blkBase]; omega
  have hrow : rowIndex (regRow .EVM_RC_FAR_OFS) (0x1028 + c * 0x40) = some (c, 0) := by
    have h1 : (0x1028 + c * 0x40 - 0x1028) / 0x40 = c := by omega
    unfold rowIndex
    rw [if_neg (by simp only [regRow]; omega)]
    simp only [regRow, OfNat.ofNat_ne_zero, if_false, h1, if_true]
    rw [if_pos ⟨hc, Nat.one_pos, by omega⟩]
  have hmiss : rowIndex (regRow .EVM_RC_TARGET) (0x1028 + c * 0x40) = none := by
    have h1 : (0x1028 + c * 0x40 - 0x1008) / 0x40 = c := by omega
    unfold rowIndex
    rw [if_neg (by simp only [regRow]; omega)]
    simp only [regRow, OfNat.ofNat_ne_zero, if_false, h1]
    rw [if_neg (by omega)]
  unfold regAt
  rw [haddr, blkOf_evm (by omega)]
  dsimp only
  rw [findReg_evm (by omega) (by omega) (by omega) (by omega), List.cons_append, findReg_skip hmiss]
  exact findReg_hit hrow

variable {s : State}
theorem State.target_evm {o : Nat} {r : Reg} {i j : Nat} (h : o < 0x100000) (hr : regAt (0x800200000 + o) = some (r, i, j)) :
    s.target (0x800200000 + o) = .reg r i j := by
  unfold State.target
  rw [if_neg (by omega), if_neg (by omega), if_neg (by omega), blkOf_evm h, hr]
  rfl


theorem regAddr_rcCtl (c : Nat) : regAddr .EVM_RC_CTL c 0 = 0x800201000 + c * 0x40 := by simp only [regAddr, regRow, blkBase]; omega

theorem regAddr_rcTarget (c j : Nat) : regAddr .EVM_RC_TARGET c j = 0x800200000 + (0x1008 + c * 0x40 + j * 4) := by
  simp only [regAddr, regRow, blkBase]
  omega

theorem regAddr_rcFarOfs (c : Nat) : regAddr .EVM_RC_FAR_OFS c 0 = 0x800200000 + (0x1028 + c * 0x40) := by
  simp only [regAddr, regRow, blkBase]
  omega

theorem mem_rcAddrs {c a : Nat} : a ∈ rcAddrs c ↔
    a = regAddr .EVM_RC_CTL c 0 ∨ (∃ j, j < 8 ∧ a = regAddr .EVM_RC_TARGET c j) ∨ a = regAddr .EVM_RC_FAR_OFS c 0 := by
  unfold rcAddrs
  simp only [List.cons_append, List.mem_cons, List.mem_append, List.mem_map, List.mem_range, List.not_mem_nil, or_false, eq_comm (a := a)]

/-- No register of the event matrix is one that the way of a fault into the log writes. -/
theorem not_faultAddr_evm {a : Nat} (h : 0x800200000 ≤ a) (hlt : a < 0x800300000) : ¬ faultAddr a := by
  rintro (h' | h' | h' | h' | h' | ⟨f, -, h'⟩ | ⟨f, -, h'⟩ | h') <;> simp only [regAddr, regRow, blkBase] at h' <;> omega

end Addresses

section Reads
variable {s t : State}

/-- What the way of a fault into the log does not write keeps its word. -/
theorem Logs.rd {r : Reg} {i j : Nat} (h : Logs s t) (hr : Table.rising s.regs = true) (ha : ¬ faultAddr (regAddr r i j)) : t.rd r i j = s.rd r i j :=
  h.regs hr _ ha _

theorem Logs.fld {f : Fld} {i j : Nat} (h : Logs s t) (hr : Table.rising s.regs = true) (ha : ¬ faultAddr (regAddr f.reg i j)) :
    t.fld f i j = s.fld f i j := by
  unfold State.fld
  rw [h.rd hr ha]

theorem Logs.on {f : Fld} {i j : Nat} (h : Logs s t) (hr : Table.rising s.regs = true) (ha : ¬ faultAddr (regAddr f.reg i j)) :
    t.on f i j = s.on f i j := by
  unfold State.on
  rw [h.fld hr ha]

end Reads

/-! ## Staged values (R217) -/

section Staged
variable {s : State} {r : Reg} {i j m c : Nat} {v w : Word}

theorem Table.find_insert_same {α : Type} (k : Nat) (w : α) : ∀ t : Table α, (Table.insert k w t).find? (fun e => decide (e.1 = k)) = some (k, w)
  | [] => by simp [Table.insert]
  | (j, v) :: t => by
    unfold Table.insert
    split
    · simp
    · split
      · simp
      · next h _ => simp [Ne.symm h, Table.find_insert_same k w t]

theorem Table.find_insert_other {α : Type} {k m : Nat} (h : m ≠ k) (w : α) : ∀ t : Table α,
    (Table.insert k w t).find? (fun e => decide (e.1 = m)) = t.find? (fun e => decide (e.1 = m))
  | [] => by simp [Table.insert, Ne.symm h]
  | (j, v) :: t => by
    unfold Table.insert
    split
    · next e => simp [Ne.symm h, ← e]
    · split
      · simp [Ne.symm h]
      · rw [List.find?_cons, List.find?_cons, Table.find_insert_other h w t]

theorem Table.get_filter {α : Type} {d : α} {k : Nat} (p : Nat → Bool) : ∀ {t : Table α}, Table.rising t = true → p k = true →
    Table.get d k (t.filter fun e => p e.1) = Table.get d k t
  | [], _, _ => rfl
  | (j, v) :: t, hr, hp => by
    obtain ⟨habove, hrt⟩ := Bool.and_eq_true_iff.1 hr
    have ih := Table.get_filter (d := d) (k := k) p hrt hp
    by_cases hj : p j = true
    · rw [List.filter_cons_of_pos (p := fun e : Nat × α => p e.1) (a := (j, v)) hj]
      unfold Table.get
      rw [ih]
    · rw [List.filter_cons_of_neg (p := fun e : Nat × α => p e.1) (a := (j, v)) hj, ih]
      have hkj : k ≠ j := fun e => hj (e ▸ hp)
      conv => rhs; unfold Table.get
      rw [if_neg hkj]
      split
      · next hlt => exact Table.get_of_above (Nat.le_of_lt hlt) habove
      · rfl

/-- Two words that agree on a mask's bits, put onto one word's other bits. -/
theorem differs_false_iff {a b mask : Word} : differs a b mask = false ↔ a &&& mask = b &&& mask := by
  have hx : (a ^^^ b) &&& mask = (a &&& mask) ^^^ (b &&& mask) := by
    refine BitVec.eq_of_getLsbD_eq fun k _ => ?_
    simp only [BitVec.getLsbD_and, BitVec.getLsbD_xor]
    cases mask.getLsbD k <;> simp
  unfold differs
  rw [hx, decide_eq_false_iff_not, not_not]
  exact BitVec.xor_eq_zero_iff

theorem and_or_same (old v mask : Word) : ((old &&& ~~~ mask) ||| (v &&& mask)) &&& mask = v &&& mask := by
  refine BitVec.eq_of_getLsbD_eq fun k hk => ?_
  simp only [BitVec.getLsbD_and, BitVec.getLsbD_or, BitVec.getLsbD_not, hk, decide_true, Bool.true_and]
  cases mask.getLsbD k <;> simp

/-- Staging changes the staged values alone, and of them the one of its register. -/
theorem State.stageRc_only : ∃ S, s.stageRc r i j v = { s with evm := { s.evm with staged := S } } ∧
    Table.SameBut [regAddr r i j] s.evm.staged S ∧ (Table.rising s.evm.staged = true → Table.rising S = true) := by
  unfold State.stageRc
  dsimp only
  split
  · exact ⟨s.evm.staged, rfl, .refl _ _, id⟩
  · exact ⟨_, rfl, fun k hk d => Table.get_insert_other fun he => hk (List.mem_singleton.2 he), fun h => Table.rising_insert h⟩

theorem State.stagedOr_stageRc : (s.stageRc r i j v).stagedOr r i j &&& stagedMask r = v &&& stagedMask r := by
  unfold State.stageRc
  dsimp only
  split
  · next h => exact differs_false_iff.1 (by simpa using h)
  · unfold State.stagedOr
    dsimp only
    rw [Table.find_insert_same]
    exact and_or_same _ _ _

theorem State.stagedOr_stageRc_other {q : Reg} {k l : Nat} (h : regAddr q k l ≠ regAddr r i j) :
    (s.stageRc r i j v).stagedOr q k l = s.stagedOr q k l := by
  unfold State.stageRc
  dsimp only
  split
  · rfl
  · unfold State.stagedOr
    dsimp only
    rw [Table.find_insert_other h]
    rfl

/-- The staged fields of a register whose other bits are those in service. -/
theorem State.stagedOr_stageRc_whole (h : (s.stagedOr r i j ^^^ s.rd r i j) &&& ~~~ stagedMask r = 0) :
    (s.stageRc r i j v).stagedOr r i j = (s.rd r i j &&& ~~~ stagedMask r) ||| (v &&& stagedMask r) := by
  unfold State.stageRc
  dsimp only
  split
  · next hd =>
    have hin : s.stagedOr r i j &&& stagedMask r = v &&& stagedMask r := differs_false_iff.1 (by simpa using hd)
    refine BitVec.eq_of_getLsbD_eq fun k hk => ?_
    have h1 := congrArg (fun w : Word => w.getLsbD k) hin
    have h2 := congrArg (fun w : Word => w.getLsbD k) h
    simp only [BitVec.getLsbD_and, BitVec.getLsbD_or, BitVec.getLsbD_xor, BitVec.getLsbD_not, hk, decide_true, Bool.true_and,
      BitVec.ofNat_eq_ofNat, BitVec.getLsbD_zero] at h1 h2 ⊢
    revert h1 h2
    cases (stagedMask r).getLsbD k <;> cases (s.stagedOr r i j).getLsbD k <;> cases (s.rd r i j).getLsbD k <;> cases v.getLsbD k <;> simp
  · unfold State.stagedOr
    dsimp only
    rw [Table.find_insert_same]
    rfl

/-- What is in service at the event cycle's start is kept, and nothing else changes (R219). -/
theorem State.rcKeep_only (hr : Table.rising s.evm.rcs = true) : ∃ R, s.rcKeep c = { s with evm := { s.evm with rcs := R } } ∧
    Table.SameBut [c] s.evm.rcs R ∧ (Table.get RcDyn.reset c R).was = some (s.cycle, s.rcState c) := by
  unfold State.rcKeep State.rcState
  dsimp only
  cases hw : (s.rcDynOf c).was with
  | none => exact ⟨_, rfl, .put hr _ _ _, congrArg RcDyn.was (Table.get_put_same hr)⟩
  | some p =>
    obtain ⟨k, l⟩ := p
    by_cases hk : k = s.cycle
    · refine ⟨s.evm.rcs, by simp [hk], .refl _ _, ?_⟩
      rw [show (Table.get RcDyn.reset c s.evm.rcs).was = some (k, l) from hw]
      simp [hk]
    · refine ⟨_, if_neg (by simp [hk]), .put hr _ _ _, ?_⟩
      rw [Table.get_put_same hr]
      simp [hk]

theorem State.rcState_of_was {l : List Word} (h : (s.rcDynOf c).was = some (s.cycle, l)) : s.rcState c = l := by
  unfold State.rcState
  rw [h]
  exact if_pos rfl

end Staged

/-! ## Writes (R217, R218) -/

section Writes
variable {s : State} {m c j : Nat} {r : Reg} {v ctl : Word}

theorem State.unshielded_at (h : s.boot.amend.shieldAt ≠ s.cycle) (a : Nat) : s.shielded a = 0 := if_pos h

theorem State.regWrite_rc (h : s.shielded (regAddr r c j) = 0) (hr : r ∈ [Reg.EVM_RC_CTL, .EVM_RC_TARGET, .EVM_RC_FAR_OFS]) :
    s.regWrite m r c j v none false = s.writeRc m r c j v false := by
  simp only [List.mem_cons, List.not_mem_nil, or_false] at hr
  obtain rfl | rfl | rfl := hr <;>
  · unfold State.regWrite
    dsimp only
    rw [h]
    rfl

/-- A write of a target or of the far-fork offset by a granted requester stages its value. -/
theorem State.writeRc_stages (hg : s.rcGranted m c = true) (hr : r ≠ .EVM_RC_CTL) : s.writeRc m r c j v false = s.stageRc r c j v := by
  have hstay (h : differs (s.stagedOr r c j) v (stagedMask r) = false) : s.stageRc r c j v = s := by
    unfold State.stageRc
    simp [h]
  unfold State.writeRc
  simp only [hr, decide_false, Bool.false_and, Bool.false_or, Bool.false_eq_true, if_false, BitVec.ofNat_eq_ofNat, BitVec.or_zero, hg,
    Bool.not_true, or_false, Bool.not_false, if_true]
  cases h : differs (s.stagedOr r c j) v (stagedMask r) with
  | false => simp [hstay h]
  | true => simp

/-- A write of EVM_RC_CTL that neither fires nor commits. -/
theorem State.writeRc_direct (hg : s.rcGranted m c = true) (h30 : bit v 30 = false) (h29 : bit v 29 = false) :
    s.writeRc m .EVM_RC_CTL c 0 v false =
      if differs (s.stagedOr .EVM_RC_CTL c 0) v 0x9FC00FFF then
        ((s.stageRc .EVM_RC_CTL c 0 v).rcKeep c).wr .EVM_RC_CTL
          (((s.stageRc .EVM_RC_CTL c 0 v).rd .EVM_RC_CTL c &&& ~~~ rcNowMask) ||| (v &&& rcNowMask)) c
      else s := by
  have hmask : stagedMask .EVM_RC_CTL ||| rcNowMask = 0x9FC00FFF := by decide
  unfold State.writeRc
  simp only [decide_true, h30, h29, Bool.or_self, Bool.and_false, Bool.false_or, if_true, hmask, hg, Bool.not_true, Bool.false_eq_true, or_self,
    if_false]
  cases differs (s.stagedOr .EVM_RC_CTL c 0) v 0x9FC00FFF <;> simp

/-- A write of EVM_RC_CTL with the commit bit stages its value and commits. -/
theorem State.writeRc_commits (hg : s.rcGranted m c = true) (h30 : bit v 30 = false) (h29 : bit v 29 = true) :
    s.writeRc m .EVM_RC_CTL c 0 v false = (s.stageRc .EVM_RC_CTL c 0 v).commitRc m c v := by
  unfold State.writeRc
  simp [h30, h29, hg]

/-- Writing the targets in turn leaves each its value and every other register as it is. -/
theorem State.each_targets (g : Nat → Word) : ∀ (l : List Nat) {s : State}, Table.rising s.regs = true →
    ∃ R, s.each l (fun j s => s.wr .EVM_RC_TARGET (g j) c j) = { s with regs := R } ∧ Table.rising R = true ∧
      Table.SameBut (l.map fun j => regAddr .EVM_RC_TARGET c j) s.regs R ∧
      ∀ j ∈ l, Table.get (regReset .EVM_RC_TARGET c) (regAddr .EVM_RC_TARGET c j) R = g j
  | [], s, hr => ⟨s.regs, rfl, hr, .refl _ _, fun j hj => by simp at hj⟩
  | k :: l, s, hr => by
    obtain ⟨R, he, hrise, hsame, hget⟩ := State.each_targets g l (s := s.wr .EVM_RC_TARGET (g k) c k) (Table.rising_put hr)
    have hput : Table.SameBut [regAddr .EVM_RC_TARGET c k] s.regs (s.wr .EVM_RC_TARGET (g k) c k).regs := .put hr _ _ _
    refine ⟨R, he, hrise, (hput.mono fun a ha => ?_).trans (hsame.mono fun a ha => List.mem_cons_of_mem _ ha), fun j hj => ?_⟩
    · rw [List.mem_singleton.1 ha]
      exact List.mem_cons_self ..
    · by_cases hjl : j ∈ l
      · exact hget j hjl
      · obtain rfl := (List.mem_cons.1 hj).resolve_right hjl
        refine (hsame _ (fun hm => ?_) _).trans (State.rd_wr_same hr ..)
        obtain ⟨i, hi, he⟩ := List.mem_map.1 hm
        rw [regAddr_rcTarget, regAddr_rcTarget] at he
        have : i = j := by omega
        exact hjl (this ▸ hi)

/-- The registers after a commit (R217). -/
theorem State.commit_regs {ts : List Word} {ofs : Word} (hr : Table.rising s.regs = true) :
    ∃ R, ((s.wr .EVM_RC_CTL ctl c).each (List.range 8) fun j s => s.wr .EVM_RC_TARGET (ts.getD j 0) c j).wr .EVM_RC_FAR_OFS ofs c =
        { s with regs := R } ∧ Table.SameBut (rcAddrs c) s.regs R ∧
      Table.get (regReset .EVM_RC_CTL c) (regAddr .EVM_RC_CTL c 0) R = ctl ∧
      (∀ j, j < 8 → Table.get (regReset .EVM_RC_TARGET c) (regAddr .EVM_RC_TARGET c j) R = ts.getD j 0) ∧
      Table.get (regReset .EVM_RC_FAR_OFS c) (regAddr .EVM_RC_FAR_OFS c 0) R = ofs := by
  have hfirst : Table.SameBut [regAddr .EVM_RC_CTL c 0] s.regs (s.wr .EVM_RC_CTL ctl c).regs := .put hr _ _ _
  obtain ⟨R, he, hrise, hsame, hget⟩ := State.each_targets (c := c) (fun j => ts.getD j 0) (List.range 8) (s := s.wr .EVM_RC_CTL ctl c)
    (Table.rising_put hr)
  have hlast : Table.SameBut [regAddr .EVM_RC_FAR_OFS c 0] R (Table.put (regReset .EVM_RC_FAR_OFS c) (regAddr .EVM_RC_FAR_OFS c 0) ofs R) :=
    .put hrise _ _ _
  rw [he]
  refine ⟨_, rfl, ?_, ?_, fun j hj => ?_, Table.get_put_same hrise⟩
  · refine ((hfirst.mono fun a ha => ?_).trans (hsame.mono fun a ha => ?_)).trans (hlast.mono fun a ha => ?_)
    · exact mem_rcAddrs.2 (.inl (List.mem_singleton.1 ha))
    · obtain ⟨j, hj, he⟩ := List.mem_map.1 ha
      exact mem_rcAddrs.2 (.inr (.inl ⟨j, List.mem_range.1 hj, he.symm⟩))
    · exact mem_rcAddrs.2 (.inr (.inr (List.mem_singleton.1 ha)))
  · refine (hlast _ (fun hm => ?_) _).trans ((hsame _ (fun hm => ?_) _).trans (State.rd_wr_same hr ..))
    · have := List.mem_singleton.1 hm
      rw [regAddr_rcCtl, regAddr_rcFarOfs] at this
      omega
    · obtain ⟨j, hj, he⟩ := List.mem_map.1 hm
      have := List.mem_range.1 hj
      rw [regAddr_rcCtl, regAddr_rcTarget] at he
      omega
  · refine (hlast _ (fun hm => ?_) _).trans (hget j (List.mem_range.2 hj))
    have := List.mem_singleton.1 hm
    rw [regAddr_rcTarget, regAddr_rcFarOfs] at this
    omega

/-- A commit that R218 allows. -/
theorem State.commitRc_done (hr : Table.rising s.regs = true) (hrc : Table.rising s.evm.rcs = true)
    (hctl : (s.stagedOr .EVM_RC_CTL c 0 &&& ~~~ rcNowMask) ||| (v &&& rcNowMask) = ctl)
    (hgood : s.rcBad (rcOpen s c)
      (ctl :: (List.range 8).map (fun j => s.stagedOr .EVM_RC_TARGET c j) ++ [s.stagedOr .EVM_RC_FAR_OFS c 0]) = false) :
    ∃ R D, s.commitRc m c v = { s with
        regs := R, evm := { s.evm with rcs := D, staged := s.evm.staged.filter fun e => ! (rcAddrs c).contains e.1 } } ∧
      Table.SameBut (rcAddrs c) s.regs R ∧ Table.get (regReset .EVM_RC_CTL c) (regAddr .EVM_RC_CTL c 0) R = ctl ∧
      (∀ j, j < 8 → Table.get (regReset .EVM_RC_TARGET c) (regAddr .EVM_RC_TARGET c j) R = s.stagedOr .EVM_RC_TARGET c j) ∧
      Table.get (regReset .EVM_RC_FAR_OFS c) (regAddr .EVM_RC_FAR_OFS c 0) R = s.stagedOr .EVM_RC_FAR_OFS c 0 ∧
      Table.SameBut [c] s.evm.rcs D ∧ (Table.get RcDyn.reset c D).was = some (s.cycle, s.rcState c) := by
  obtain ⟨D, hD, hDs, hwas⟩ := State.rcKeep_only (s := s) (c := c) hrc
  obtain ⟨u, hu⟩ : ∃ u, u = (s.rcKeep c).unstage c := ⟨_, rfl⟩
  obtain ⟨R, he, hsame, h1, h2, h3⟩ := State.commit_regs (s := u) (c := c) (ctl := ctl)
    (ts := (List.range 8).map fun j => s.stagedOr .EVM_RC_TARGET c j) (ofs := s.stagedOr .EVM_RC_FAR_OFS c 0) (by rw [hu, hD]; exact hr)
  rw [hu, hD] at he hsame
  refine ⟨R, D, ?_, hsame, h1, fun j hj => (h2 j hj).trans ?_, h3, hDs, hwas⟩
  · unfold State.commitRc
    simp only [hctl]
    rw [hgood, if_neg Bool.false_ne_true, hD]
    exact he
  · rw [List.getD_eq_getElem _ _ (by simpa using hj)]
    simp

/-- A commit that R218 refuses discards what is staged. -/
theorem State.commitRc_refused (hctl : (s.stagedOr .EVM_RC_CTL c 0 &&& ~~~ rcNowMask) ||| (v &&& rcNowMask) = ctl)
    (hbad : s.rcBad (rcOpen s c)
      (ctl :: (List.range 8).map (fun j => s.stagedOr .EVM_RC_TARGET c j) ++ [s.stagedOr .EVM_RC_FAR_OFS c 0]) = true) :
    s.commitRc m c v = (s.unstage c).refuseRc m c (regAddr .EVM_RC_CTL c 0) := by
  unfold State.commitRc
  simp only [hctl]
  rw [hbad, if_pos rfl]

end Writes

section Accesses
variable {s : State} {m c j a : Nat} {r : Reg} {i : Nat} {v : Word}

theorem State.writeAt_of_reg {codes : Option (List Int)} {bad : Bool} (ha : a % 4 = 0) (h : s.target a = .reg r i j) :
    s.writeAt m a v codes bad = ⟨s.regWrite m r i j v codes bad, 0, 0⟩ := by
  simp [State.writeAt, ha, h]

theorem State.foreign_of_reg {w : Bool} (h : s.target a = .reg r i j) : s.foreign a w = none := by
  unfold State.foreign
  rw [h, if_neg (by simp)]

theorem State.target_rcTarget (hc : c < 256) (hj : j < 8) : s.target (regAddr .EVM_RC_TARGET c j) = .reg .EVM_RC_TARGET c j := by
  have h := regAt_rcTarget hc hj
  rw [regAddr_rcTarget] at h ⊢
  exact State.target_evm (by omega) h

theorem State.target_rcFarOfs (hc : c < 256) : s.target (regAddr .EVM_RC_FAR_OFS c 0) = .reg .EVM_RC_FAR_OFS c 0 := by
  have h := regAt_rcFarOfs hc
  rw [regAddr_rcFarOfs] at h ⊢
  exact State.target_evm (by omega) h

/-- A STAGE command on a register of a granted routing channel stages its value. -/
theorem Completes.stages {s b : State} {t : Nat} {P : State → State → Prop} (hb : s.begin t = b) (hpow : s.powered) (hans : s.answers m = true)
    (htarget : ∀ u : State, u.target (regAddr r c j) = .reg r c j) (ha : regAddr r c j % 4 = 0) (hr : r ∈ [Reg.EVM_RC_TARGET, .EVM_RC_FAR_OFS])
    (hsh : b.shielded (regAddr r c j) = 0) (hg : b.rcGranted m c = true) (hP : P b { b.stageRc r c j v with resp := ⟨m, false, 0⟩ }) :
    Completes (.stage t m (regAddr r c j) v) t s [.evm, .resp] P := by
  subst hb
  obtain ⟨S, hS, -⟩ := State.stageRc_only (s := s.begin t) (r := r) (i := c) (j := j) (v := v)
  have hne : r ≠ .EVM_RC_CTL := by
    rintro rfl
    simp at hr
  have hdone : (s.begin t).writeAt m (regAddr r c j) v none false = ⟨(s.begin t).stageRc r c j v, 0, 0⟩ := by
    rw [State.writeAt_of_reg ha (htarget _), State.regWrite_rc hsh (List.mem_cons_of_mem _ hr), State.writeRc_stages hg hne]
  refine .access hpow hans (State.busWrite_of_not_foreign (State.foreign_of_reg (htarget s))) hdone ?_ (by decide) ?_
  · dsimp only
    rw [hS]
    exact (OnlyChanges.refl _ _).evm (by decide) _
  · simpa using hP

end Accesses

section Bits
variable {s t : State} {r : Reg} {i j : Nat} {old held v : Word}

/-- The staged fields do not depend on the bits in service beside them. -/
theorem State.stagedOr_congr (he : t.evm.staged = s.evm.staged) (hrd : t.rd r i j &&& stagedMask r = s.rd r i j &&& stagedMask r) :
    t.stagedOr r i j &&& stagedMask r = s.stagedOr r i j &&& stagedMask r := by
  unfold State.stagedOr
  rw [he]
  split
  · refine BitVec.eq_of_getLsbD_eq fun k hk => ?_
    simp only [BitVec.getLsbD_and, BitVec.getLsbD_or, BitVec.getLsbD_not, hk, decide_true, Bool.true_and]
    cases (stagedMask r).getLsbD k <;> simp
  · exact hrd

theorem rcMasks_disjoint : ∀ k < 32, rcNowMask.getLsbD k = true →
    (0x9FC00FFF : Word).getLsbD k = true ∧ (stagedMask .EVM_RC_CTL).getLsbD k = false := by decide

theorem rcMasks_cover : ∀ k < 32, (stagedMask .EVM_RC_CTL).getLsbD k = true → (0x9FC00FFF : Word).getLsbD k = true := by decide

/-- The bit of a word under a mask. -/
theorem getLsbD_of_and_eq {a b mask : Word} {k : Nat} (h : a &&& mask = b &&& mask) (hk : mask.getLsbD k = true) : a.getLsbD k = b.getLsbD k := by
  have hbit := congrArg (fun w : Word => w.getLsbD k) h
  simpa only [BitVec.getLsbD_and, hk, Bool.and_true] using hbit

theorem getLsbD_of_xor_and {a b mask : Word} {k : Nat} (h : (a ^^^ b) &&& ~~~ mask = 0) (hk : mask.getLsbD k = false) :
    a.getLsbD k = b.getLsbD k := by
  by_cases hk32 : k < 32
  · have hbit := congrArg (fun w : Word => w.getLsbD k) h
    simp only [BitVec.getLsbD_and, BitVec.getLsbD_xor, BitVec.getLsbD_not, hk32, decide_true, hk, Bool.not_false, Bool.and_true,
      BitVec.ofNat_eq_ofNat, BitVec.getLsbD_zero] at hbit
    revert hbit
    cases a.getLsbD k <;> cases b.getLsbD k <;> simp
  · rw [BitVec.getLsbD_of_ge _ _ (by omega), BitVec.getLsbD_of_ge _ _ (by omega)]

/-- A write of EVM_RC_CTL that differs in nothing keeps the enable and trace bits. -/
theorem rcNow_unchanged (hagree : held &&& 0x9FC00FFF = v &&& 0x9FC00FFF) (hwhole : (held ^^^ old) &&& ~~~ stagedMask .EVM_RC_CTL = 0) :
    old = (old &&& ~~~ rcNowMask) ||| (v &&& rcNowMask) := by
  refine BitVec.eq_of_getLsbD_eq fun k hk => ?_
  simp only [BitVec.getLsbD_and, BitVec.getLsbD_or, BitVec.getLsbD_not, hk, decide_true, Bool.true_and]
  cases hn : rcNowMask.getLsbD k with
  | false => simp
  | true =>
    obtain ⟨hM, hm⟩ := rcMasks_disjoint k hk hn
    rw [← getLsbD_of_and_eq hagree hM, getLsbD_of_xor_and hwhole hm]
    simp

theorem staged_unchanged (hagree : held &&& 0x9FC00FFF = v &&& 0x9FC00FFF) :
    held &&& stagedMask .EVM_RC_CTL = v &&& stagedMask .EVM_RC_CTL := by
  refine BitVec.eq_of_getLsbD_eq fun k hk => ?_
  rw [BitVec.getLsbD_and, BitVec.getLsbD_and]
  cases hm : (stagedMask .EVM_RC_CTL).getLsbD k with
  | false => simp
  | true => rw [getLsbD_of_and_eq hagree (rcMasks_cover k hk hm)]

theorem rcNow_keeps_staged : ((old &&& ~~~ rcNowMask) ||| (v &&& rcNowMask)) &&& stagedMask .EVM_RC_CTL = old &&& stagedMask .EVM_RC_CTL := by
  refine BitVec.eq_of_getLsbD_eq fun k hk => ?_
  simp only [BitVec.getLsbD_and, BitVec.getLsbD_or, BitVec.getLsbD_not, hk, decide_true, Bool.true_and]
  cases hn : rcNowMask.getLsbD k with
  | false => simp
  | true => simp [(rcMasks_disjoint k hk hn).2]

/-- The word that a commit puts in service: the staged fields with the enable and trace bits of the write (R217). -/
theorem rcCommitted : (((old &&& ~~~ stagedMask .EVM_RC_CTL) ||| (v &&& stagedMask .EVM_RC_CTL)) &&& ~~~ rcNowMask) ||| (v &&& rcNowMask) =
    (old &&& ~~~ 0x9FC00FFF) ||| (v &&& 0x9FC00FFF) := by
  have hunion : ∀ k < 32, (0x9FC00FFF : Word).getLsbD k = ((stagedMask .EVM_RC_CTL).getLsbD k || rcNowMask.getLsbD k) := by decide
  refine BitVec.eq_of_getLsbD_eq fun k hk => ?_
  simp only [BitVec.getLsbD_and, BitVec.getLsbD_or, BitVec.getLsbD_not, hk, decide_true, Bool.true_and, hunion k hk]
  cases (stagedMask .EVM_RC_CTL).getLsbD k <;> cases rcNowMask.getLsbD k <;> simp

end Bits

/-- Settles O36. -/
theorem stagingAndCommits : Obligations.StagingAndCommits := by
  intro s t m c v hcan hpow hc hans hg hst hshield
  obtain ⟨b, hb⟩ : ∃ b, s.begin t = b := ⟨_, rfl⟩
  have hcb : b.canonical := hb ▸ State.canonical_begin hcan t
  have hregs : Table.rising b.regs = true := hcb.fine.regs
  have hrcs : Table.rising b.evm.rcs = true := hcb.fine.rcs
  rw [hb] at hg hst hshield ⊢
  have hok : isRc c = true := by simpa [isRc] using hc
  have hsh (a : Nat) : b.shielded a = 0 := State.unshielded_at hshield a
  -- what is staged before a commit
  obtain ⟨S, hS, hSame, hSrise⟩ := State.stageRc_only (s := b) (r := .EVM_RC_CTL) (i := c) (j := 0) (v := v)
  obtain ⟨u, hu⟩ : ∃ u, u = b.stageRc .EVM_RC_CTL c 0 v := ⟨_, rfl⟩
  have hu' : u = { b with evm := { b.evm with staged := S } } := hu.trans hS
  have htargets (j : Nat) (hj : j < 8) : u.stagedOr .EVM_RC_TARGET c j = b.stagedOr .EVM_RC_TARGET c j :=
    hu ▸ State.stagedOr_stageRc_other (by rw [regAddr_rcCtl, regAddr_rcTarget]; omega)
  have hofs : u.stagedOr .EVM_RC_FAR_OFS c 0 = b.stagedOr .EVM_RC_FAR_OFS c 0 :=
    hu ▸ State.stagedOr_stageRc_other (by rw [regAddr_rcCtl, regAddr_rcFarOfs]; omega)
  have hctlOf (hwhole : (b.stagedOr .EVM_RC_CTL c 0 ^^^ b.rd .EVM_RC_CTL c) &&& ~~~ 0x1BC00FFF = 0) :
      (u.stagedOr .EVM_RC_CTL c 0 &&& ~~~ rcNowMask) ||| (v &&& rcNowMask) = (b.rd .EVM_RC_CTL c &&& ~~~ 0x9FC00FFF) ||| (v &&& 0x9FC00FFF) := by
    rw [hu, State.stagedOr_stageRc_whole hwhole, rcCommitted]
  have hbadOf (ctl : Word) : u.rcBad (rcOpen u c) (ctl :: (List.range 8).map (fun j => u.stagedOr .EVM_RC_TARGET c j) ++ [u.stagedOr .EVM_RC_FAR_OFS c 0]) =
      b.rcBad (rcOpen b c) (ctl :: (List.range 8).map (fun j => b.stagedOr .EVM_RC_TARGET c j) ++ [b.stagedOr .EVM_RC_FAR_OFS c 0]) := by
    rw [hofs, List.map_congr_left fun j hj => htargets j (List.mem_range.1 hj), hu']
    rfl
  refine ⟨fun j hj => ?_, ?_, fun h30 h29 hwhole => ?_, fun ctl h30 h29 hwhole hctl => ⟨fun hgood => ?_, fun hbad => ?_⟩, fun r w k hk => ?_⟩
  · obtain ⟨S, hS, hsame, -⟩ := State.stageRc_only (s := b) (r := .EVM_RC_TARGET) (i := c) (j := j) (v := v)
    have hval := State.stagedOr_stageRc (s := b) (r := .EVM_RC_TARGET) (i := c) (j := j) (v := v)
    refine .stages hb hpow hans (fun u => State.target_rcTarget hc hj) (by rw [regAddr_rcTarget]; omega) (by decide) (hsh _) hg ⟨rfl, hval, ?_⟩
    rw [hS]
    exact ⟨rfl, hsame⟩
  · obtain ⟨S, hS, hsame, -⟩ := State.stageRc_only (s := b) (r := .EVM_RC_FAR_OFS) (i := c) (j := 0) (v := v)
    have hval := State.stagedOr_stageRc (s := b) (r := .EVM_RC_FAR_OFS) (i := c) (j := 0) (v := v)
    have hall : stagedMask .EVM_RC_FAR_OFS = BitVec.allOnes 32 := by decide
    rw [hall, BitVec.and_allOnes, BitVec.and_allOnes] at hval
    refine .stages hb hpow hans (fun u => State.target_rcFarOfs hc) (by rw [regAddr_rcFarOfs]; omega) (by decide) (hsh _) hg ⟨rfl, hval, ?_⟩
    rw [hS]
    exact ⟨rfl, hsame⟩
  · have hwrite := (State.regWrite_rc (m := m) (v := v) (hsh _) (by decide)).trans (State.writeRc_direct hg h30 h29)
    cases hd : differs (b.stagedOr .EVM_RC_CTL c 0) v 0x9FC00FFF with
    | false =>
      rw [hd, if_neg Bool.false_ne_true] at hwrite
      have hagree := differs_false_iff.1 hd
      exact .registerWrite hb hpow hans rfl hok hwrite (OnlyChanges.refl _ _) (by decide)
        ⟨rfl, rcNow_unchanged hagree hwhole, .refl _ _, staged_unchanged hagree, .refl _ _, rfl, .refl _ _⟩
    | true =>
      rw [hd, if_pos rfl] at hwrite
      have hval := State.stagedOr_stageRc (s := b) (r := .EVM_RC_CTL) (i := c) (j := 0) (v := v)
      rw [← hu] at hval hwrite
      obtain ⟨D, hD, hDs, -⟩ := State.rcKeep_only (s := u) (c := c) (by rw [hu']; exact hrcs)
      have hrd : u.rd .EVM_RC_CTL c = b.rd .EVM_RC_CTL c := by rw [hu']; rfl
      obtain ⟨w, hw⟩ : ∃ w, w = (b.rd .EVM_RC_CTL c &&& ~~~ rcNowMask) ||| (v &&& rcNowMask) := ⟨_, rfl⟩
      rw [hD, hrd, ← hw, hu'] at hwrite
      rw [hu'] at hDs
      have hframe : OnlyChanges [.regs, .evm, .resp] b ({ b with evm := { b.evm with staged := S, rcs := D } } : State) :=
        (OnlyChanges.refl _ b).evm (by decide) _
      have hnew : (State.wr { b with evm := { b.evm with staged := S, rcs := D } } .EVM_RC_CTL w c).rd .EVM_RC_CTL c = w :=
        State.rd_wr_same (s := { b with evm := { b.evm with staged := S, rcs := D } }) hregs ..
      refine .registerWrite hb hpow hans rfl hok hwrite (hframe.regs (by decide) _) (by decide) ⟨rfl, hnew.trans hw, .put hregs _ _ _, ?_, hSame, rfl, hDs⟩
      refine (State.stagedOr_congr (s := u) (r := .EVM_RC_CTL) (by rw [hu']; rfl) ?_).trans hval
      rw [hrd]
      exact (congrArg (· &&& stagedMask .EVM_RC_CTL) (hnew.trans hw)).trans rcNow_keeps_staged
  · have hwrite := (State.regWrite_rc (m := m) (v := v) (hsh _) (by decide)).trans (State.writeRc_commits hg h30 h29)
    obtain ⟨R, D, he, hR, h1, h2, h3, hDs, hwas⟩ := State.commitRc_done (s := u) (m := m) (c := c) (v := v) (ctl := ctl)
      (by rw [hu']; exact hregs) (by rw [hu']; exact hrcs) ((hctlOf hwhole).trans hctl.symm) ((hbadOf ctl).trans hgood)
    rw [← hu, he] at hwrite
    have hstate : u.rcState c = b.rcState c := by rw [hu']; rfl
    have hcycle : u.cycle = b.cycle := by rw [hu']; rfl
    rw [hu'] at hwrite hR hDs
    rw [hstate, hcycle] at hwas
    obtain ⟨S', hS'⟩ : ∃ S', S' = S.filter fun e => ! (rcAddrs c).contains e.1 := ⟨_, rfl⟩
    have hframe : OnlyChanges [.regs, .evm, .resp] b ({ b with evm := { b.evm with staged := S', rcs := D } } : State) :=
      (OnlyChanges.refl _ b).evm (by decide) _
    dsimp only at hwrite
    rw [← hS'] at hwrite
    refine .registerWrite hb hpow hans rfl hok hwrite (hframe.regs (by decide) R) (by decide)
      ⟨rfl, h1, fun j hj => (h2 j hj).trans (htargets j hj), h3.trans hofs, hR, ?_, ?_, State.rcState_of_was hwas, hDs, rfl⟩
    · intro x hx hmem
      rw [show ({ b with regs := R, evm := { b.evm with staged := S', rcs := D }, resp := ⟨m, false, 0⟩ } : State).evm.staged = S' from rfl, hS'] at hx
      obtain ⟨-, hnot⟩ := List.mem_filter.1 hx
      simp [hmem] at hnot
    · intro k hk d
      show Table.get d k S' = _
      rw [hS', Table.get_filter (fun k => ! (rcAddrs c).contains k) (hSrise hst) (by simpa using hk)]
      exact hSame k (fun hm => hk (mem_rcAddrs.2 (.inl (List.mem_singleton.1 hm)))) d
  · have hwrite := (State.regWrite_rc (m := m) (v := v) (hsh _) (by decide)).trans (State.writeRc_commits hg h30 h29)
    rw [← hu, State.commitRc_refused ((hctlOf hwhole).trans hctl.symm) ((hbadOf ctl).trans hbad), hu'] at hwrite
    obtain ⟨S', hS'⟩ : ∃ S', S' = S.filter fun e => ! (rcAddrs c).contains e.1 := ⟨_, rfl⟩
    obtain ⟨x, hx⟩ : ∃ x, x = State.stick { b with evm := { b.evm with staged := S', lastMaster := m, lastChannel := c } } f_EVM_EVENTS_refused := ⟨_, rfl⟩
    have hxr : Table.rising x.regs = true := hx ▸ State.rising_stick (s := { b with evm := _ }) hregs f_EVM_EVENTS_refused 0
    have hwrite' : b.regWrite m .EVM_RC_CTL c 0 v none false = x.accessFault 0x500 1 (.other c) m 2 (regAddr .EVM_RC_CTL c 0) := by
      rw [hwrite, hx, hS']
      rfl
    obtain ⟨e, he⟩ : ∃ e, e = x.accessFault 0x500 1 (.other c) m 2 (regAddr .EVM_RC_CTL c 0) := ⟨_, rfl⟩
    have hlogs : Logs x e := he ▸ (Logs.refl x).accessFault ..
    obtain ⟨l, hevm⟩ := hlogs.evm
    have hstaged : e.evm.staged = S' := by rw [hevm, hx]; rfl
    have hkept {r : Reg} {j : Nat} (hr : regAddr r c j ∈ rcAddrs c) : e.rd r c j = b.rd r c j := by
      have hrange : 0x800201000 ≤ regAddr r c j ∧ regAddr r c j < 0x800300000 := by
        obtain h | ⟨i, hi, h⟩ | h := mem_rcAddrs.1 hr
        · rw [h, regAddr_rcCtl]
          omega
        · rw [h, regAddr_rcTarget]
          omega
        · rw [h, regAddr_rcFarOfs]
          omega
      refine (hlogs.rd hxr (not_faultAddr_evm (by omega) hrange.2)).trans ?_
      rw [hx]
      refine State.rd_wr_other (s := { b with evm := _ }) hregs _ ?_
      have hevents : regAddr .EVM_EVENTS 0 0 = 0x800200004 := rfl
      rw [show regAddr f_EVM_EVENTS_refused.reg 0 0 = 0x800200004 from hevents]
      omega
    have hon : e.on f_EVM_EVENTS_refused = true := by
      refine (hlogs.on hxr (not_faultAddr_evm (by decide) (by decide))).trans ?_
      rw [hx]
      exact State.on_stick (s := { b with evm := _ }) hregs 0 (by decide) (by decide)
    have hframe : OnlyChanges [.regs, .evm, .force, .engs, .que, .memc, .vat, .flt, .cal, .resp] b e := by
      rw [he, hx]
      exact ((((OnlyChanges.refl _ b).evm (by decide) _).stick (by decide) f_EVM_EVENTS_refused 0)).accessFault (by decide) ..
    rw [← he] at hwrite'
    refine .registerWrite hb hpow hans rfl hok hwrite' hframe (by decide)
      ⟨rfl, ?_, ?_, ?_, hkept (mem_rcAddrs.2 (.inl rfl)), fun j hj => hkept (mem_rcAddrs.2 (.inr (.inl ⟨j, hj, rfl⟩))),
        hkept (mem_rcAddrs.2 (.inr (.inr rfl))), hon, ?_⟩
    · intro y hy hmem
      rw [show ({ e with resp := ⟨m, false, 0⟩ } : State).evm.staged = S' from hstaged, hS'] at hy
      obtain ⟨-, hnot⟩ := List.mem_filter.1 hy
      simp [hmem] at hnot
    · show e.evm.lastMaster = m
      rw [hevm, hx]
      rfl
    · show e.evm.lastChannel = c
      rw [hevm, hx]
      rfl
    · dsimp only
      rw [hstaged, ← hx, he]
  · simp only [List.mem_cons, List.not_mem_nil, or_false] at hk
    obtain rfl | rfl | rfl := hk
    · exact ⟨_, by rw [show exec (.rcDirectWrite t r c w) s = outIf (isRc c) (s.act t fun s => s.accessReg r .EVM_RC_CTL c 0 w none false) from rfl, hok]; rfl⟩
    · exact ⟨_, by rw [show exec (.commit t r c w) s = outIf (isRc c) (s.act t fun s => s.accessReg r .EVM_RC_CTL c 0 w none false) from rfl, hok]; rfl⟩
    · exact ⟨_, State.busWrite_of_not_foreign (State.foreign_of_reg (State.target_rcFarOfs hc))⟩

end Sys2Proof.Machine
end

section
/-!
PROOFS. Single-class deliveries and re-entries (R215, R227, R234).
-/

namespace Sys2Proof.Machine

open Sys2Proof

section Singles
variable {s : State} {i j : Nat}

/-- The state in which a Single-class input acts: one firing fewer, served in this event cycle, and the chain it carried taken (R215). -/
def State.singleServed (s : State) (i : Nat) : State :=
  let s' := s.setPend i (s.pendOf i - 1)
  { s' with evm := { s'.evm with
      served := Table.put (0, 0) i (s.cycle + 1, 1) s.evm.served
      carried := Table.put [] i ((Table.get [] i s.evm.carried).drop 1) s.evm.carried } }

theorem State.deliverSingle_not (h : inputSingle i = false ∨ s.pendOf i = 0 ∨ (Table.get (0, 0) i s.evm.served).1 = s.cycle + 1) :
    s.deliverSingle i = s := by
  unfold State.deliverSingle
  dsimp only
  rw [if_pos]
  simpa using h

/-- An action that asserts no source adds nothing to a chain. -/
theorem State.linkChain_quiet {old : Nat} {a : Assertion} (h : s.evm.asserted.length ≤ old) : s.linkChain old i a = s := by
  unfold State.linkChain
  rw [List.drop_of_length_le h, List.take_of_length_le h]
  simp [State.each]

/-- A pending firing whose input's action asserts no source is delivered with that action. -/
theorem State.deliverSingle_quiet (h : inputSingle i = true) (hp : s.pendOf i ≠ 0) (hs : (Table.get (0, 0) i s.evm.served).1 ≠ s.cycle + 1)
    (hq : ((s.singleServed i).singleAction i).evm.asserted = s.evm.asserted) : s.deliverSingle i = (s.singleServed i).singleAction i := by
  have hlen : ((s.singleServed i).singleAction i).evm.asserted.length ≤ s.evm.asserted.length := by rw [hq]
  unfold State.deliverSingle
  dsimp only
  rw [if_neg (by simp [h, hp, hs])]
  split
  · exact State.linkChain_quiet hlen
  · rfl

/-- A pending firing that carries no chain is delivered with its input's action. -/
theorem State.deliverSingle_unchained (h : inputSingle i = true) (hp : s.pendOf i ≠ 0) (hs : (Table.get (0, 0) i s.evm.served).1 ≠ s.cycle + 1)
    (hc : Table.get [] i s.evm.carried = []) : s.deliverSingle i = (s.singleServed i).singleAction i := by
  unfold State.deliverSingle
  dsimp only
  rw [if_neg (by simp [h, hp, hs])]
  split
  · next a l hl =>
    rw [hc] at hl
    cases hl
  · rfl

theorem State.singleServed_only (hp : Table.rising s.evm.pend = true) (hs : Table.rising s.evm.served = true)
    (hc : Table.rising s.evm.carried = true) (hk : s.pendOf i ≠ 0) :
    (s.singleServed i).pendOf i + 1 = s.pendOf i ∧ Table.SameBut [i] s.evm.pend (s.singleServed i).evm.pend ∧
      Table.get (0, 0) i (s.singleServed i).evm.served = (s.cycle + 1, 1) ∧
      Table.get [] i (s.singleServed i).evm.carried = (Table.get [] i s.evm.carried).drop 1 := by
  have hpend : (s.singleServed i).pendOf i = s.pendOf i - 1 := Table.get_put_same hp
  exact ⟨by omega, Table.SameBut.put hp 0 i (s.pendOf i - 1), Table.get_put_same (w := (s.cycle + 1, 1)) hs,
    Table.get_put_same (w := (Table.get [] i s.evm.carried).drop 1) hc⟩

theorem State.singleAction_evio (hj : j < 16) (hd : s.evioDrives j = true) : s.singleAction (1600 + j) = s.evioFire j := by
  unfold State.singleAction
  rw [if_pos (by omega), Nat.add_sub_cancel_left, hd, if_pos rfl]

theorem State.singleAction_inj : s.singleAction (1752 + j) = s.fireInj 0x1114 6 j := by
  unfold State.singleAction
  rw [if_neg (by omega), Nat.add_sub_cancel_left]

/-- A firing of an injection slot whose fault is one of the tables' and that TEST permits. -/
theorem State.fireInj_fires {m access : Nat} (ht : s.dev.test = true) (h1 : 1 ≤ s.fld f_FLT_INJ_CTL_class j) (h5 : s.fld f_FLT_INJ_CTL_class j ≤ 5)
    (hsc : scopeOf (s.fld f_FLT_INJ_CTL_scope j) (s.fld f_FLT_INJ_CTL_index j) ≠ none)
    (hcode : faultCodes.contains (s.fld f_FLT_INJ_CTL_code j) = true) :
    s.fireInj m access j =
      (s.setInj j { s.injOf j with fires := ((s.injOf j).fires + 1) % 65536, due := some (s.cycle + 1) }).assertSrc (srcFault (12 + j)) := by
  unfold State.fireInj
  dsimp only
  rw [if_neg]
  rw [ht, hcode]
  simp only [Bool.not_true, Bool.false_eq_true, hsc, or_false, false_or]
  omega

end Singles

/-- Settles O37. -/
theorem singleClassDeliveriesAndReEntries : Obligations.SingleClassDeliveriesAndReEntries := by
  intro s t i hcan hpow hi hserved hcarried
  obtain ⟨b, hb⟩ : ∃ b, s.begin t = b := ⟨_, rfl⟩
  have hcb : b.canonical := hb ▸ State.canonical_begin hcan t
  rw [hb] at hserved hcarried ⊢
  have hok : isInput i = true := by simpa [isInput] using hi
  refine ⟨?_, ?_, fun h => ?_, fun hk hs => ⟨fun j hij hj hd => ?_, fun j sc hij hj ht h1 h5 hsc hne hcode hc => ?_⟩⟩
  · exact ⟨_, by rw [show exec (.taskSingleDelivery t i) s = outIf (isInput i) (s.act t fun s => s.deliverSingle i) from rfl, hok]; rfl⟩
  · refine .runs (ok := true) hb hpow rfl rfl rfl ((OnlyChanges.refl _ b).evm (by decide) _) ⟨rfl, fun a => ?_, rfl⟩
    simp [State.reenter, List.mem_filter]
  · exact .runs hb hpow rfl hok (State.deliverSingle_not h) (OnlyChanges.refl _ _) trivial
  · subst hij
    obtain ⟨hpend, hpendSame, hsv, hcr⟩ := State.singleServed_only hcb.fine.pend hserved hcarried hk
    have hact : (b.singleServed (1600 + j)).singleAction (1600 + j) = (b.singleServed (1600 + j)).evioFire j := State.singleAction_evio hj hd
    have hevio : Table.rising b.evm.evio = true := hcb.fine.evio
    have hserve := State.deliverSingle_quiet (by simp [inputSingle]; omega) hk hs (by rw [hact]; rfl)
    rw [hact] at hserve
    exact .runs hb hpow rfl hok hserve (((OnlyChanges.refl _ b).evm (by decide) _).evm (by decide) _)
      ⟨hpend, hpendSame, Table.get_put_same hevio, .put hevio _ _ _, hsv, hcr, rfl, rfl⟩
  · subst hij
    obtain ⟨hpend, hpendSame, hsv, hcr⟩ := State.singleServed_only hcb.fine.pend hserved hcarried hk
    have hinj : Table.rising b.flt.inj = true := hcb.fine.inj
    have hserve := State.deliverSingle_unchained (by simp [inputSingle]; omega) hk hs hc
    rw [State.singleAction_inj, State.fireInj_fires (s := b.singleServed (1752 + j)) ht h1 h5 (hsc ▸ hne) hcode] at hserve
    exact .runs hb hpow rfl hok hserve ((((OnlyChanges.refl _ b).evm (by decide) _).flt (by decide) _).evm (by decide) _)
      ⟨hpend, hpendSame, Table.get_put_same hinj, .put hinj _ _ _, ⟨_, List.mem_append_right _ (List.mem_singleton_self _), by simp [srcFault]; omega⟩, rfl⟩

end Sys2Proof.Machine
end

section
/-!
PROOFS. Far forks: sending, broadcasts received, and deliveries (R228, R230, R231, R278).
-/

namespace Sys2Proof.Machine

open Sys2Proof

section Broadcasts
variable {s : State} {f : Flit} {i : Option Nat} {g c : Nat} {d : RTime} {sec : Bool}

/-- A broadcast on the ports of a list queues the flit on each of them that the group's tree has, once. -/
theorem State.each_broadcast (f : Flit) (i : Option Nat) : ∀ (l : List Nat) {s : State}, l.Nodup → Table.rising s.web.ports = true →
    ∃ T, s.each l (fun p s => if bit (s.rd .WEB_BCAST f.dst) p ∧ i ≠ some p then s.sendOn p f else s) =
        { s with web := { s.web with ports := T } } ∧ Table.SameBut l s.web.ports T ∧
      ∀ p, Table.get Port.reset p T = if p ∈ l ∧ bit (s.rd .WEB_BCAST f.dst) p = true ∧ i ≠ some p then (s.portOf p).enqueue f else s.portOf p
  | [], s, _, _ => ⟨s.web.ports, rfl, .refl _ _, fun p => by simp [State.portOf]⟩
  | k :: l, s, hl, hr => by
    obtain ⟨hk, hl⟩ := List.nodup_cons.1 hl
    have hstep : ∃ U, (if bit (s.rd .WEB_BCAST f.dst) k ∧ i ≠ some k then s.sendOn k f else s) = { s with web := { s.web with ports := U } } ∧
        Table.rising U = true ∧ Table.SameBut [k] s.web.ports U ∧
        Table.get Port.reset k U = if bit (s.rd .WEB_BCAST f.dst) k = true ∧ i ≠ some k then (s.portOf k).enqueue f else s.portOf k := by
      by_cases h : bit (s.rd .WEB_BCAST f.dst) k = true ∧ i ≠ some k
      · rw [if_pos h, if_pos h]
        exact ⟨_, rfl, Table.rising_put hr, .put hr _ _ _, Table.get_put_same hr⟩
      · rw [if_neg h, if_neg h]
        exact ⟨s.web.ports, rfl, hr, .refl _ _, rfl⟩
    obtain ⟨U, hU, hrU, hsU, hgU⟩ := hstep
    obtain ⟨T, hT, hsT, hgT⟩ := State.each_broadcast f i l (s := { s with web := { s.web with ports := U } }) hl hrU
    refine ⟨T, ?_, (hsU.mono fun a ha => ?_).trans (hsT.mono fun a ha => List.mem_cons_of_mem _ ha), fun p => ?_⟩
    · unfold State.each at hT ⊢
      rw [List.foldl_cons]
      dsimp only
      rw [hU]
      exact hT
    · rw [List.mem_singleton.1 ha]
      exact List.mem_cons_self ..
    · refine (hgT p).trans ?_
      by_cases hp : p = k
      · subst hp
        rw [if_neg fun h => hk h.1]
        exact hgU.trans (by simp)
      · have hother : Table.get Port.reset p U = s.portOf p := hsU p (by simpa using hp) _
        simp only [List.mem_cons, hp, false_or]
        show (if _ then Port.enqueue (Table.get Port.reset p U) f else Table.get Port.reset p U) = _
        rw [hother]
        rfl

/-- A broadcast queues its flit on the group's tree ports, but on the one it came from (R230, R278). -/
theorem State.broadcast_ports (hr : Table.rising s.web.ports = true) : ∃ T, s.broadcast f i = { s with web := { s.web with ports := T } } ∧
    Table.SameBut [0, 1, 2, 3] s.web.ports T ∧
    ∀ p, p < 4 → Table.get Port.reset p T = if bit (s.rd .WEB_BCAST f.dst) p = true ∧ i ≠ some p then (s.portOf p).enqueue f else s.portOf p := by
  obtain ⟨T, hT, hsT, hgT⟩ := State.each_broadcast f i (List.range 4) (s := s) (by decide) hr
  refine ⟨T, hT, hsT, fun p hp => (hgT p).trans ?_⟩
  simp only [List.mem_range, hp, true_and]

theorem Port.enqueue_bcast {x : Port} (h : flitClass f.type = .bcast) : x.enqueue f = { x with qBcast := x.qBcast ++ [f] } := by
  unfold Port.enqueue
  rw [h]

/-- An event broadcast within its hops goes on to the other tree ports (R278). -/
theorem State.forwardBcast_near {p : Nat} (h : f.hops + 1 ≤ s.fld f_WEB_CTL_max_hops) : s.forwardBcast f p = s.broadcast f (some p) := by
  unfold State.forwardBcast
  split
  · next hall =>
    have hnone (q : Nat) (hq : q < 4) : ¬ (bit (s.rd .WEB_BCAST f.dst) q = true ∧ some p ≠ some q) := by
      rintro ⟨hb, hne⟩
      have hq' := List.all_eq_true.1 hall q (List.mem_range.2 hq)
      rw [hb] at hq'
      exact hne (by simpa [eq_comm] using hq')
    unfold State.broadcast State.each
    exact (foldl_fixed _ fun q hq => if_neg (hnone q (List.mem_range.1 hq))).symm
  · rw [if_neg (by omega)]

theorem State.forwardBcast_far {p : Nat} (h : s.fld f_WEB_CTL_max_hops < f.hops + 1)
    (hq : ∃ q, q < 4 ∧ q ≠ p ∧ bit (s.rd .WEB_BCAST f.dst) q = true) : s.forwardBcast f p =
      (s.tally f_WEB_DROP_COUNT_ttl).log { (s.tally f_WEB_DROP_COUNT_ttl).detect 0x704 1 .none (webMaster p) with access := 5 } := by
  obtain ⟨q, hq4, hqp, hb⟩ := hq
  unfold State.forwardBcast
  rw [if_neg, if_pos h]
  intro hall
  have hq' := List.all_eq_true.1 hall q (List.mem_range.2 hq4)
  rw [hb] at hq'
  exact hqp (by simpa using hq')

/-- A device that is no member of the group takes nothing. -/
theorem State.acceptFar_other (h : s.on f_EVM_FAR_GROUP_member g = false) : s.acceptFar g d c sec = s := by
  unfold State.acceptFar
  rw [h]
  rfl

/-- A member keeps the far fork till its time (R230). -/
theorem State.acceptFar_early (h : s.on f_EVM_FAR_GROUP_member g = true) (hs : s.on f_EVM_FAR_GROUP_secure_only g = true → sec = true)
    (hlen : s.evm.farRx.length < 64) (hlate : s.tb.ready = true → rtBefore d s.raster = false) :
    s.acceptFar g d c sec = { s with evm := { s.evm with farRx := s.evm.farRx ++ [⟨g, d, c, s.now, false, ! s.tb.ready⟩] } } := by
  have hfalse : (s.tb.ready && rtBefore d s.raster) = false := by
    cases hr : s.tb.ready with
    | false => rfl
    | true => rw [hlate hr]; rfl
  unfold State.acceptFar
  rw [h, if_neg (by simp), if_neg]
  · dsimp only
    rw [hfalse]
    rfl
  · rintro (⟨h1, h2⟩ | h)
    · rw [hs h1] at h2
      cases h2
    · omega

/-- A far fork whose time has passed is counted (R231). -/
theorem State.acceptFar_late (h : s.on f_EVM_FAR_GROUP_member g = true) (hs : s.on f_EVM_FAR_GROUP_secure_only g = true → sec = true)
    (hlen : s.evm.farRx.length < 64) (hready : s.tb.ready = true) (hlate : rtBefore d s.raster = true) :
    s.acceptFar g d c sec = State.farLate { s with evm := { s.evm with farRx := s.evm.farRx ++ [⟨g, d, c, s.now, true, false⟩] } } c := by
  unfold State.acceptFar
  rw [h, if_neg (by simp), if_neg]
  · dsimp only
    rw [hready, hlate]
    rfl
  · rintro (⟨h1, h2⟩ | h)
    · rw [hs h1] at h2
      cases h2
    · omega

end Broadcasts

/-- Settles O38. -/
theorem farForks : Obligations.FarForks := by
  intro s t g c d sec hcan hpow hg hc
  obtain ⟨b, hb⟩ : ∃ b, s.begin t = b := ⟨_, rfl⟩
  have hcb : b.canonical := hb ▸ State.canonical_begin hcan t
  have hports : Table.rising b.web.ports = true := hcb.fine.ports
  have hregs : Table.rising b.regs = true := hcb.fine.regs
  rw [hb]
  have hokg : isGroup g = true := by simpa [isGroup] using hg
  have hokp (p : Nat) (f : Flit) (hp : p < 4) (hdst : f.dst = g) : (isPort p && isGroup f.dst) = true := by simp [isPort, isGroup, hp, hdst, hg]
  -- a broadcast taken from a tree port, within its hops
  have hforwarded (p : Nat) (f : Flit) (hp : p < 4) (hdst : f.dst = g) (hfar : flitFarFork f = (d, c, sec)) (hpwr : b.portPowered p = true)
      (hact : b.portActive p = true) (hbit : bit (b.rd .WEB_BCAST g) p = true) (hhops : f.hops + 1 ≤ b.fld f_WEB_CTL_max_hops) :
      (if b.portPowered p && b.portActive p then b.takeBcast p f else b) = (b.broadcast f (some p)).acceptFar g d c sec := by
    rw [if_pos (by simp [hpwr, hact])]
    unfold State.takeBcast
    rw [hdst, hbit, if_neg (by simp), State.forwardBcast_near hhops]
    dsimp only
    rw [hfar]
  refine ⟨fun hnone => ?_, fun rest htx hm => ?_, fun rest htx hm hsec hlen hlate => ?_, fun p f hp hdst hfar hclass => ⟨fun hoff => ?_, fun hpwr hact =>
      ⟨fun hbit hhops => ⟨fun htake => ?_, fun hm hsec hlen hready hbefore => ?_⟩, fun hbit hhops hq hm => ?_, fun hbit => ?_⟩, ?_⟩,
    ⟨_, rfl⟩, fun hnot => ?_, fun hdue => ?_, fun x hready hwait hlate => ?_, fun x hwait hlate => ?_⟩
  · refine .runs (ok := true) hb hpow rfl rfl (e := b) ?_ (OnlyChanges.refl _ _) trivial
    unfold State.sendFar
    rw [hnone]
  · obtain ⟨T, hT, hsT, hgT⟩ := State.broadcast_ports (s := { b with evm := { b.evm with farTx := rest } }) (f := b.bcastFlit g d c sec) (i := none) hports
    have hsend : b.sendFar = { b with evm := { b.evm with farTx := rest }, web := { b.web with ports := T } } := by
      unfold State.sendFar
      rw [htx]
      dsimp only
      refine (congrArg (fun u : State => u.acceptFar g d c sec) hT).trans ?_
      exact State.acceptFar_other hm
    refine .runs (ok := true) hb hpow rfl rfl hsend (((OnlyChanges.refl [.evm, .web] b).evm (by decide) { b.evm with farTx := rest }).web (by decide) _)
      ⟨rfl, fun p hp => ?_, hsT⟩
    refine (hgT p hp).trans ?_
    rw [Port.enqueue_bcast rfl]
    simp only [reduceCtorEq, ne_eq, not_false_eq_true, and_true]
    rfl
  · obtain ⟨T, hT, hsT, hgT⟩ := State.broadcast_ports (s := { b with evm := { b.evm with farTx := rest } }) (f := b.bcastFlit g d c sec) (i := none) hports
    have hsec' : b.on f_EVM_FAR_GROUP_secure_only g = true → sec = true := fun h => by
      rw [hsec] at h
      cases h
    have hmem : State.acceptFar { b with evm := { b.evm with farTx := rest }, web := { b.web with ports := T } } g d c sec =
        { b with evm := { b.evm with farTx := rest, farRx := b.evm.farRx ++ [⟨g, d, c, b.now, false, ! b.tb.ready⟩] }, web := { b.web with ports := T } } :=
      State.acceptFar_early (s := { b with evm := { b.evm with farTx := rest }, web := { b.web with ports := T } }) hm hsec' hlen hlate
    have hsend : b.sendFar = { b with
        evm := { b.evm with farTx := rest, farRx := b.evm.farRx ++ [⟨g, d, c, b.now, false, ! b.tb.ready⟩] }, web := { b.web with ports := T } } := by
      unfold State.sendFar
      rw [htx]
      dsimp only
      exact (congrArg (fun u : State => u.acceptFar g d c sec) hT).trans hmem
    refine .runs (ok := true) hb hpow rfl rfl hsend
      (((OnlyChanges.refl [.evm, .web] b).evm (by decide)
        { b.evm with farTx := rest, farRx := b.evm.farRx ++ [⟨g, d, c, b.now, false, ! b.tb.ready⟩] }).web (by decide) _) ⟨rfl, fun p hp hbit => ?_⟩
    show _ ∈ (Table.get Port.reset p T).qBcast
    rw [hgT p hp, if_pos ⟨hbit, by simp⟩, Port.enqueue_bcast rfl]
    exact List.mem_append_right _ (List.mem_singleton_self _)
  · refine .runs hb hpow rfl (hokp p f hp hdst) (e := b) (if_neg ?_) (OnlyChanges.refl _ _) trivial
    obtain h | h := hoff <;> simp [h]
  · obtain ⟨T, hT, hsT, hgT⟩ := State.broadcast_ports (s := b) (f := f) (i := some p) hports
    have hforward := (hforwarded p f hp hdst hfar hpwr hact hbit hhops).trans (congrArg (fun u : State => u.acceptFar g d c sec) hT)
    have hsent (q : Nat) (hq : q < 4) : Table.get Port.reset q T =
        if bit (b.rd .WEB_BCAST g) q = true ∧ q ≠ p then { b.portOf q with qBcast := (b.portOf q).qBcast ++ [f] } else b.portOf q := by
      rw [hgT q hq, Port.enqueue_bcast hclass, hdst]
      simp only [ne_eq, Option.some.injEq, eq_comm (a := p)]
    obtain hm | hm := Bool.eq_false_or_eq_true (b.on f_EVM_FAR_GROUP_member g) |>.symm
    · have he := hforward.trans (State.acceptFar_other (s := { b with web := { b.web with ports := T } }) (d := d) (c := c) (sec := sec) hm)
      refine .runs hb hpow rfl (hokp p f hp hdst) he ((OnlyChanges.refl [.evm, .web] b).web (by decide) _) ⟨?_, hsent⟩
      rw [hm, if_neg Bool.false_ne_true, List.append_nil]
    · obtain h | ⟨hsec, hlen, hlate⟩ := htake
      · rw [hm] at h
        cases h
      have he := hforward.trans (State.acceptFar_early (s := { b with web := { b.web with ports := T } }) (c := c) hm hsec hlen hlate)
      refine .runs hb hpow rfl (hokp p f hp hdst) he (((OnlyChanges.refl [.evm, .web] b).web (by decide) _).evm (by decide) _) ⟨?_, hsent⟩
      rw [hm, if_pos rfl]
  · obtain ⟨T, hT, -, -⟩ := State.broadcast_ports (s := b) (f := f) (i := some p) hports
    have hforward := (hforwarded p f hp hdst hfar hpwr hact hbit hhops).trans
      ((congrArg (fun u : State => u.acceptFar g d c sec) hT).trans
        (State.acceptFar_late (s := { b with web := { b.web with ports := T } }) (c := c) hm hsec hlen hready hbefore))
    obtain ⟨u, hu⟩ : ∃ u : State, u = { b with web := { b.web with ports := T }, evm := { b.evm with farRx := b.evm.farRx ++ [⟨g, d, c, b.now, true, false⟩] } } :=
      ⟨_, rfl⟩
    have hkeep : OnlyChanges [.regs, .evm, .force, .engs, .que, .memc, .vat, .web, .flt, .cal] b (u.farLate c) := by
      refine OnlyChanges.then ?_ (State.keeps_farLate (Within.refl _) (Keeps.refl u) c) (by decide)
      rw [hu]
      exact ((OnlyChanges.refl _ b).web (by decide) { b.web with ports := T }).evm (by decide) _
    rw [hu] at hkeep
    refine .runs hb hpow rfl (hokp p f hp hdst) hforward hkeep ?_
    dsimp only
    rw [hT]
  · obtain ⟨x, hx⟩ : ∃ x, x = b.tally f_WEB_DROP_COUNT_ttl := ⟨_, rfl⟩
    have hxr : Table.rising x.regs = true := hx ▸ State.rising_tally hregs f_WEB_DROP_COUNT_ttl 1 0
    have hlogs := (Logs.refl x).log { x.detect 0x704 1 .none (webMaster p) with access := 5 }
    have hmember : (x.log { x.detect 0x704 1 .none (webMaster p) with access := 5 }).on f_EVM_FAR_GROUP_member g = false := by
      have haddr : regAddr f_EVM_FAR_GROUP_member.reg g 0 = 0x800200100 + g * 4 := by
        simp only [regAddr, regRow, blkBase, f_EVM_FAR_GROUP_member]
        omega
      refine (hlogs.on hxr (not_faultAddr_evm (by omega) (by omega))).trans (Eq.trans ?_ hm)
      rw [hx]
      refine State.on_wr_other hregs ?_
      rw [haddr, show regAddr f_WEB_DROP_COUNT_ttl.reg 0 0 = regAddr .WEB_DROP_COUNT 0 0 from rfl]
      simp only [regAddr, regRow, blkBase]
      omega
    have he : (if b.portPowered p && b.portActive p then b.takeBcast p f else b) = x.log { x.detect 0x704 1 .none (webMaster p) with access := 5 } := by
      rw [if_pos (by simp [hpwr, hact])]
      unfold State.takeBcast
      rw [hdst, hbit, if_neg (by simp), State.forwardBcast_far hhops (hdst ▸ hq), ← hx]
      dsimp only
      rw [hfar]
      exact State.acceptFar_other hmember
    have hframe : OnlyChanges [.regs, .evm, .force, .engs, .que, .memc, .vat, .flt, .cal] b
        (x.log { x.detect 0x704 1 .none (webMaster p) with access := 5 }) := by
      rw [hx]
      exact ((OnlyChanges.refl _ b).tally (by decide) f_WEB_DROP_COUNT_ttl 1 0).then (State.keeps_log (Within.refl _) (Keeps.refl _) _) (by decide)
    refine .runs hb hpow rfl (hokp p f hp hdst) he hframe ?_
    dsimp only
    rw [← hx]
    rfl
  · have he : (if b.portPowered p && b.portActive p then b.takeBcast p f else b) = b.log { b.detect 0x705 1 (.port p) (webMaster p) with access := 5 } := by
      rw [if_pos (by simp [hpwr, hact])]
      unfold State.takeBcast
      rw [hdst, hbit]
      rfl
    exact .runs hb hpow rfl (hokp p f hp hdst) he ((OnlyChanges.refl _ b).then (State.keeps_log (Within.refl _) (Keeps.refl _) _) (by decide)) rfl
  · exact ⟨_, by rw [show exec (.eventBcast t p f) s = outIf (isPort p && isGroup f.dst) (s.act t fun s => if s.portPowered p && s.portActive p then
      s.takeBcast p f else s) from rfl, hokp p f hp hdst]; rfl⟩
  · refine .runs hb hpow rfl hokg (e := b) (if_neg ?_) (OnlyChanges.refl _ _) trivial
    intro h
    obtain ⟨x, hx, hp⟩ := List.any_eq_true.1 h
    obtain ⟨h1, h2⟩ := Bool.and_eq_true_iff.1 hp
    rw [hnot x hx (of_decide_eq_true h1)] at h2
    cases h2
  · obtain ⟨x, hx, hxg, hxd⟩ := hdue
    have hany : (b.evm.farRx.any fun x => decide (x.group = g) && b.farDue x) = true :=
      List.any_eq_true.2 ⟨x, hx, by simp [hxg, hxd]⟩
    refine .runs hb hpow rfl hokg (if_pos hany) (((OnlyChanges.refl [.evm] b).evm (by decide) _).evm (by decide) _) ⟨rfl, fun y => ?_, rfl⟩
    simp only [State.assertSrc, List.mem_filter, Bool.not_eq_true', Bool.and_eq_false_imp, decide_eq_true_eq, not_and, Bool.not_eq_true]
  · unfold State.farDue
    simp [hwait, hlate]
  · unfold State.farDue
    simp [hwait, hlate]

end Sys2Proof.Machine
end

section
/-!
PROOFS. EVIO pins: edges accepted as time passes, output actions and pulse ends (R233, R234).
-/

namespace Sys2Proof.Machine

open Sys2Proof

section Pins
variable {s : State} {j : Nat}

/-- No edge of input pin `j` has stood long enough to be accepted (R233). -/
def State.pinSettled (s : State) (j : Nat) : Prop :=
  s.evioDrives j = true ∨ (s.evioOf j).raw = (s.evioOf j).level ∨ s.cycle < (s.evioOf j).rawAt + s.fld f_EVM_EVIO_CTL_filter j + 4

theorem State.evioAccept_settled (h : s.pinSettled j) : s.evioAccept j = s := if_pos h

/-- An edge that has stood long enough is accepted, and asserts the pin's source where it is of the kind. -/
theorem State.evioAccept_accepts (h : ¬ s.pinSettled j) : s.evioAccept j =
    if s.evioHit j (s.evioOf j).raw then (s.setEvio j { s.evioOf j with level := (s.evioOf j).raw }).assertSrc (srcEvio j)
    else s.setEvio j { s.evioOf j with level := (s.evioOf j).raw } := if_neg h

/-- Accepting the edge of a pin changes that pin and the assertions alone. -/
theorem State.evioAccept_only (hr : Table.rising s.evm.evio = true) (h : ¬ s.pinSettled j) : ∃ T A,
    s.evioAccept j = { s with evm := { s.evm with evio := T, asserted := A } } ∧ Table.rising T = true ∧ Table.SameBut [j] s.evm.evio T ∧
      Table.get Evio.reset j T = { s.evioOf j with level := (s.evioOf j).raw } := by
  rw [State.evioAccept_accepts h]
  split
  · exact ⟨_, _, rfl, Table.rising_put hr, .put hr _ _ _, Table.get_put_same hr⟩
  · exact ⟨_, s.evm.asserted, rfl, Table.rising_put hr, .put hr _ _ _, Table.get_put_same hr⟩

/-- Accepting an edge settles its pin and unsettles none. -/
theorem State.evioAccept_step (hr : Table.rising s.evm.evio = true) (k : Nat) : Table.rising (s.evioAccept k).evm.evio = true ∧
    (s.evioAccept k).pinSettled k ∧ (s.pinSettled j → (s.evioAccept k).pinSettled j) := by
  by_cases h : s.pinSettled k
  · rw [State.evioAccept_settled h]
    exact ⟨hr, h, id⟩
  · obtain ⟨T, A, he, hrise, hsame, hget⟩ := State.evioAccept_only hr h
    have hpin : (s.evioAccept k).evioOf k = { s.evioOf k with level := (s.evioOf k).raw } := by
      rw [he]
      exact hget
    have hk : (s.evioAccept k).pinSettled k := .inr (.inl (by rw [hpin]))
    refine ⟨by rw [he]; exact hrise, hk, fun hj => ?_⟩
    by_cases hjk : j = k
    · exact hjk ▸ hk
    · have hevio : (s.evioAccept k).evioOf j = s.evioOf j := by
        rw [he]
        exact hsame j (by simpa using hjk) _
      unfold State.pinSettled at hj ⊢
      rw [hevio, he]
      exact hj

theorem State.each_evioAccept (j : Nat) : ∀ (l : List Nat) {s : State}, Table.rising s.evm.evio = true →
    Table.rising (s.each l fun k s => s.evioAccept k).evm.evio = true ∧ (s.pinSettled j ∨ j ∈ l → (s.each l fun k s => s.evioAccept k).pinSettled j)
  | [], s, hr => ⟨hr, fun h => h.resolve_right (by simp)⟩
  | k :: l, s, hr => by
    obtain ⟨hrk, hk, hkeep⟩ := State.evioAccept_step (j := j) hr k
    obtain ⟨hrl, hl⟩ := State.each_evioAccept j l hrk
    refine ⟨hrl, fun h => hl ?_⟩
    obtain h | h := h
    · exact .inl (hkeep h)
    · obtain rfl | h := List.mem_cons.1 h
      · exact .inl hk
      · exact .inr h

theorem Table.get_not_listed {α : Type} {d : α} {k : Nat} : ∀ {t : Table α}, k ∉ t.map (fun e => e.1) → Table.get d k t = d
  | [], _ => rfl
  | (j, v) :: t, h => by
    simp only [List.map_cons, List.mem_cons, not_or] at h
    unfold Table.get
    rw [if_neg h.1]
    split
    · rfl
    · exact Table.get_not_listed h.2

/-- After time has passed no pin's edge waits that has stood long enough (R233). -/
theorem State.evioAccepts_settled (hr : Table.rising s.evm.evio = true) (j : Nat) : s.evioAccepts.pinSettled j := by
  refine (State.each_evioAccept j _ hr).2 ?_
  by_cases hj : j ∈ s.evm.evio.map fun e => e.1
  · exact .inr hj
  · refine .inl (.inr (.inl ?_))
    have hreset : s.evioOf j = Evio.reset := Table.get_not_listed hj
    rw [hreset]
    rfl

/-- The passing of time ends with the acceptance of edges. -/
theorem State.begin_settled (hcan : s.canonical) (t j : Nat) : (s.begin t).pinSettled j := by
  have hends : Keeps 458235 s (if s.cycle < max t s.now / 256 then s.endBranches.endFelts.endChains else s) :=
    Keeps.ite (State.keeps_endChains (show 16 ||| 458235 = 458235 by decide) (State.keeps_endFelts (show 445618 ||| 458235 = 458235 by decide)
      (State.keeps_endBranches (show 425138 ||| 458235 = 458235 by decide) (Keeps.refl s)))) (Keeps.refl s)
  unfold State.begin
  dsimp only
  simp only [decide_eq_true_eq]
  generalize (if s.cycle < max t s.now / 256 then s.endBranches.endFelts.endChains else s) = v at hends ⊢
  have hpass : Passes 458235 s (((State.measAdvance (max t s.now) v.instantCount v).advanceTime (max t s.now)).freqExpire) :=
    ((hends.passes.trans (State.passes_measAdvance (show 413179 ||| 458235 = 458235 by decide) ..)).trans
      (State.passes_advanceTime (show 131083 ||| 458235 = 458235 by decide) ..)).keeps
        (State.keeps_freqExpire (show 412850 ||| 458235 = 458235 by decide) (Keeps.refl _))
  generalize ((State.measAdvance (max t s.now) v.instantCount v).advanceTime (max t s.now)).freqExpire = w at hpass ⊢
  have hsettled : w.evioAccepts.pinSettled j := State.evioAccepts_settled (hpass.fine hcan).fine.evio j
  split
  · exact hsettled
  · exact hsettled

theorem State.evioEdge_none {level : Bool} (h : s.evioDrives j = true ∨ (s.evioOf j).raw = level) : s.evioEdge j level = s := if_pos h

theorem State.evioEdge_change {level : Bool} (h1 : s.evioDrives j = false) (h2 : (s.evioOf j).raw ≠ level) :
    s.evioEdge j level = s.setEvio j { s.evioOf j with raw := level, rawAt := s.cycle } :=
  if_neg fun h => h.elim (fun h => by rw [h1] at h; cases h) h2

theorem State.evioAct_none (h : (s.evioOf j).due = []) : s.evioAct j = s := by
  unfold State.evioAct
  dsimp only
  rw [h]

variable {c u : Nat} {rest : List Nat}

theorem State.evioAct_early (h : (s.evioOf j).due = c :: rest) (hlt : s.now < (c + 4) * 256) : s.evioAct j = s := by
  unfold State.evioAct
  dsimp only
  rw [h]
  exact if_pos hlt

/-- What an output pin's action makes of the pin (R234). -/
def State.evioActed (s : State) (j c : Nat) (rest : List Nat) : Evio :=
  match s.fld f_EVM_EVIO_CTL_out_mode j with
  | 0 => { s.evioOf j with due := rest, out := true, pulseEnd := some ((c + 5 + s.fld f_EVM_EVIO_CTL_width_m1 j) * 256) }
  | 1 => { s.evioOf j with due := rest, out := ! (s.evioOf j).out }
  | _ => { s.evioOf j with due := rest }

theorem State.evioAct_acts (h : (s.evioOf j).due = c :: rest) (hle : (c + 4) * 256 ≤ s.now) : s.evioAct j = s.setEvio j (s.evioActed j c rest) := by
  unfold State.evioAct State.evioActed
  dsimp only
  rw [h]
  dsimp only
  rw [if_neg (Nat.not_lt.2 hle), show c + 4 + s.fld f_EVM_EVIO_CTL_width_m1 j + 1 = c + 5 + s.fld f_EVM_EVIO_CTL_width_m1 j by omega]
  generalize s.fld f_EVM_EVIO_CTL_out_mode j = k
  match k with
  | 0 => rfl
  | 1 => rfl
  | _ + 2 => rfl

theorem State.evioActed_pulse (h : s.fld f_EVM_EVIO_CTL_out_mode j = 0) : s.evioActed j c rest =
    { s.evioOf j with due := rest, out := true, pulseEnd := some ((c + 5 + s.fld f_EVM_EVIO_CTL_width_m1 j) * 256) } := by
  unfold State.evioActed
  simp only [h]

theorem State.evioActed_toggle (h : s.fld f_EVM_EVIO_CTL_out_mode j = 1) :
    s.evioActed j c rest = { s.evioOf j with due := rest, out := ! (s.evioOf j).out } := by
  unfold State.evioActed
  simp only [h]

theorem State.evioActed_level (h : 2 ≤ s.fld f_EVM_EVIO_CTL_out_mode j) : s.evioActed j c rest = { s.evioOf j with due := rest } := by
  unfold State.evioActed
  split
  · next h0 => omega
  · next h1 => omega
  · rfl

theorem State.evioEnd_none (h : (s.evioOf j).pulseEnd = none) : s.evioEnd j = s := by
  unfold State.evioEnd
  dsimp only
  rw [h]

theorem State.evioEnd_not (h : (s.evioOf j).pulseEnd = some u) (hn : s.now < u ∨ ∃ c ∈ (s.evioOf j).due, c * 256 < u) : s.evioEnd j = s := by
  unfold State.evioEnd
  dsimp only
  rw [h]
  refine if_pos (hn.imp_right fun ⟨c, hc, hlt⟩ => ?_)
  exact List.any_eq_true.2 ⟨c, hc, decide_eq_true hlt⟩

theorem State.evioEnd_ends (h : (s.evioOf j).pulseEnd = some u) (hle : u ≤ s.now) (hall : ∀ c ∈ (s.evioOf j).due, u ≤ c * 256) :
    s.evioEnd j = s.setEvio j { s.evioOf j with out := false, pulseEnd := none } := by
  unfold State.evioEnd
  dsimp only
  rw [h]
  refine if_neg fun hn => ?_
  obtain hlt | hany := hn
  · omega
  · obtain ⟨c, hc, hp⟩ := List.any_eq_true.1 hany
    have := hall c hc
    have := of_decide_eq_true hp
    omega

/-- Which edges assert a pin's source (R233). -/
theorem State.evioHit_iff (hf : s.dev.forerunner = false) (level : Bool) : s.evioHit j level = true ↔
    (s.fld f_EVM_EVIO_CTL_in_edge j = 0 ∧ level = true) ∨ (s.fld f_EVM_EVIO_CTL_in_edge j = 1 ∧ level = false) ∨
      s.fld f_EVM_EVIO_CTL_in_edge j = 2 := by
  unfold State.evioHit
  rw [hf, if_neg Bool.false_ne_true]
  split
  · next h => simp [h]
  · next h => simp [h]
  · next h => simp [h]
  · next h0 h1 h2 => simp [show ¬ s.fld f_EVM_EVIO_CTL_in_edge j = 0 from h0, show ¬ s.fld f_EVM_EVIO_CTL_in_edge j = 1 from h1,
      show ¬ s.fld f_EVM_EVIO_CTL_in_edge j = 2 from h2]

end Pins

/-- Settles O39. -/
theorem evioPins : Obligations.EvioPins := by
  intro s t j level hcan hpow hj
  obtain ⟨b, hb⟩ : ∃ b, s.begin t = b := ⟨_, rfl⟩
  have hcb : b.canonical := hb ▸ State.canonical_begin hcan t
  have hevio : Table.rising b.evm.evio = true := hcb.fine.evio
  have hokj : isEvio j = true := by simpa [isEvio] using hj
  have hsettled : b.pinSettled j := hb ▸ State.begin_settled hcan t j
  rw [hb]
  refine ⟨fun h => ?_, fun h1 h2 => ?_, fun h1 h2 h3 h4 => ?_, hsettled, fun c rest hdue => ⟨fun hlt => ?_, fun hle => ?_⟩, fun hdue => ?_, fun hnone => ?_,
    fun u hu => ⟨fun h => ?_, fun hle hall => ?_⟩⟩
  · exact .runs hb hpow rfl hokj (State.evioEdge_none h) (OnlyChanges.refl _ _) trivial
  · exact .runs hb hpow rfl hokj (State.evioEdge_change h1 h2) ((OnlyChanges.refl [.evm] b).evm (by decide) _)
      ⟨Table.get_put_same hevio, .put hevio _ _ _, rfl⟩
  · have hevs : Table.rising s.evm.evio = true := hcan.fine.evio
    have hnot : ¬ s.pinSettled j := by
      rintro (h | h | h)
      · rw [h1] at h
        cases h
      · rw [h2] at h
        exact h3 h.symm
      · omega
    obtain ⟨T, A, he, -, hsame, hget⟩ := State.evioAccept_only hevs hnot
    refine ⟨?_, by rw [he]; exact hsame, fun hfore => ?_⟩
    · rw [h2] at hget
      rw [he]
      exact hget
    · rw [State.evioAccept_accepts hnot, h2]
      have hhit := State.evioHit_iff (j := j) hfore level
      split
      · next h =>
        rw [if_pos (hhit.1 h)]
        rfl
      · next h =>
        rw [if_neg fun hn => h (hhit.2 hn), List.append_nil]
        rfl
  · exact .runs hb hpow rfl hokj (State.evioAct_early hdue hlt) (OnlyChanges.refl _ _) trivial
  · have hacted : (b.setEvio j (b.evioActed j c rest)).evioOf j = b.evioActed j c rest := Table.get_put_same hevio
    exact .runs hb hpow rfl hokj (State.evioAct_acts hdue hle) ((OnlyChanges.refl [.evm] b).evm (by decide) _)
      ⟨fun h => hacted.trans (State.evioActed_pulse h), fun h => hacted.trans (State.evioActed_toggle h), fun h => hacted.trans (State.evioActed_level h),
        .put hevio _ _ _, rfl⟩
  · exact .runs hb hpow rfl hokj (State.evioAct_none hdue) (OnlyChanges.refl _ _) trivial
  · exact .runs hb hpow rfl hokj (State.evioEnd_none hnone) (OnlyChanges.refl _ _) trivial
  · exact .runs hb hpow rfl hokj (State.evioEnd_not hu h) (OnlyChanges.refl _ _) trivial
  · exact .runs hb hpow rfl hokj (State.evioEnd_ends hu hle hall) ((OnlyChanges.refl [.evm] b).evm (by decide) _)
      ⟨Table.get_put_same hevio, .put hevio _ _ _, rfl⟩

end Sys2Proof.Machine
end

section
/-!
PROOFS. Memory requests: accepted, refused, counted where they find the stack asleep, made urgent (R238 to R240, R248).
-/

namespace Sys2Proof.Machine

open Sys2Proof

section Asks
variable {s : State} {p a len : Nat} {write : Bool} {data : List Byte}

theorem OnlyChanges.memFault {l : List Part} {b e : State} (h : OnlyChanges l b e) (hl : Part.covers l 412850 = true) (code cls : Nat) (sc : Scope)
    (m access a : Nat) : OnlyChanges l b (e.memFault code cls sc m access a) :=
  h.then (State.keeps_memFault (Within.refl _) (Keeps.refl e) code cls sc m access a) hl

/-- A request to an awake stack disturbs nothing (R248). -/
theorem State.memArrive_awake (he : s.srEntering = false) (h1 : s.memc.st ≠ .selfRefresh) (h2 : s.memc.st ≠ .retention) : s.memArrive = s := by
  unfold State.memArrive
  rw [he, if_neg Bool.false_ne_true, if_neg (not_or.2 ⟨h1, h2⟩)]

theorem State.memArrive_entering (he : s.srEntering = true) :
    s.memArrive = (s.tally f_MEMC_SR_STATS_aborted).stick f_MEMC_EVENTS_sr_abort := if_pos he

/-- A stack that sleeps is not about to. -/
theorem State.srEntering_asleep (h : s.memc.st = .selfRefresh ∨ s.memc.st = .retention) : s.srEntering = false := by
  unfold State.srEntering
  rw [decide_eq_false (p := s.memc.st = .service) (by rcases h with h | h <;> rw [h] <;> decide)]
  rfl

theorem State.memArrive_asleep (h : s.memc.st = .selfRefresh ∨ s.memc.st = .retention) :
    s.memArrive = ((s.tally f_MEMC_SR_STATS_waited).stick f_MEMC_EVENTS_sr_wait).setMemc { s.memc with srExit := some (s.memc.srExit.getD s.now) } := by
  unfold State.memArrive
  rw [State.srEntering_asleep h, if_neg Bool.false_ne_true, if_pos h]
  rfl

/-- A count of 16 bits saturates at 0xFFFF. -/
theorem State.fld_tally_half (h : Table.rising s.regs = true) {f : Fld} (i : Nat) (hlen : f.len = 16) (g : f.lo + f.len ≤ 32) :
    (s.tally f 1 i).fld f i = min 0xFFFF (s.fld f i + 1) := by
  have hcount := State.fld_tally h 1 i g
  rw [hlen] at hcount
  exact hcount

/-- What a counted and noted arrival does to the registers. -/
theorem State.noted_arrival (h : Table.rising s.regs = true) {f g : Fld} (hf : f.reg = .MEMC_SR_STATS) (hg : g.reg = .MEMC_EVENTS)
    (hlf : f.len = 16) (hof : f.lo + f.len ≤ 32) (hlg : g.lo + g.len ≤ 32) (hlen : g.len ≠ 0) :
    ((s.tally f).stick g).fld f = min 0xFFFF (s.fld f + 1) ∧ ((s.tally f).stick g).on g = true ∧
      Table.SameBut [regAddr .MEMC_SR_STATS 0 0, regAddr .MEMC_EVENTS 0 0] s.regs ((s.tally f).stick g).regs := by
  have ht : Table.rising (s.tally f).regs = true := State.rising_tally h _ _ _
  refine ⟨?_, State.on_stick ht 0 hlg hlen, ?_⟩
  · rw [State.fld_stick_other ht (by rw [hf, hg]; decide)]
    exact State.fld_tally_half h 0 hlf hof
  · exact ((State.sameBut_tally h f 1 0).mono (by simp [hf])).trans ((State.sameBut_stick ht g 0).mono (by simp [hg]))

theorem State.portAsks_accepted (ht : write = true → p = 3 ∨ p = 4 → s.tableWrite a data.length = false)
    (hw : write = true → p = 3 → s.wprotected a data.length = false) : s.portAsks p write a data len = s.memAccept p write a data len := by
  unfold State.portAsks State.memRequest
  rw [if_neg (by rintro ⟨h1, h2, h3⟩; rw [ht h1 h2] at h3; cases h3), if_neg (by rintro ⟨h1, h2, h3⟩; rw [hw h1 h2] at h3; cases h3)]

theorem State.portAsks_table (hw : write = true) (hp : p = 3 ∨ p = 4) (h : s.tableWrite a data.length = true) :
    s.portAsks p write a data len = s.memFault 0x303 1 .none (0x1116 + p) 4 a := if_pos ⟨hw, hp, h⟩

theorem State.portAsks_protected (hw : write = true) (hp : p = 3) (ht : s.tableWrite a data.length = false) (h : s.wprotected a data.length = true) :
    s.portAsks p write a data len = s.memFault 0x600 1 .none 0x1119 4 a := by
  unfold State.portAsks State.memRequest
  rw [if_neg (by rintro ⟨-, -, h3⟩; rw [ht] at h3; cases h3), if_pos ⟨hw, hp, h⟩]
  rfl

theorem State.setMemc_same {x : Memc} (h : s.memc = x) : s.setMemc x = s := by
  subst h
  rfl

/-- The state in which a request has joined those of its port (R239). -/
def State.joined (s : State) (p : Nat) (write : Bool) (a : Nat) (data : List Byte) (len : Nat) : State :=
  s.setMemc { s.memc with
    reqs := s.memc.reqs ++ [{ id := s.memc.nextId, port := p, write, addr := a, data := if write then data else [], len, at_ := s.now,
                              urgent := false, fwd := [] }]
    nextId := s.memc.nextId + 1 }

theorem State.memAccept_joins : s.memAccept p write a data len = s.memArrive.joined p write a data len := rfl

/-- What a request accepted from a stack that sleeps, or is about to, leaves (R248). -/
theorem State.joined_noted (h : Table.rising s.regs = true) {f g : Fld} (hf : f.reg = .MEMC_SR_STATS) (hg : g.reg = .MEMC_EVENTS)
    (hlf : f.len = 16) (hof : f.lo + f.len ≤ 32) (hlg : g.lo + g.len ≤ 32) (hlen : g.len ≠ 0) (x : Option Nat) {e : State}
    (he : e = (((s.tally f).stick g).setMemc { s.memc with srExit := x }).joined p write a data len) :
    OnlyChanges [.regs, .memc] s e ∧ e.memc.srExit = x ∧ e.memc.st = s.memc.st ∧ (∃ r, e.memc.reqs = s.memc.reqs ++ [r] ∧ r.addr = a ∧ r.port = p) ∧
      e.fld f = min 0xFFFF (s.fld f + 1) ∧ e.on g = true ∧ Table.SameBut [regAddr .MEMC_SR_STATS 0 0, regAddr .MEMC_EVENTS 0 0] s.regs e.regs := by
  obtain ⟨hcount, hbit, hsame⟩ := State.noted_arrival h hf hg hlf hof hlg hlen
  subst he
  exact ⟨(((OnlyChanges.refl [.regs, .memc] s).tally (by decide) f 1 0).stick (by decide) g 0).memc (by decide) _, rfl, rfl, ⟨_, rfl, rfl, rfl⟩, hcount,
    hbit, hsame⟩

/-! ## Urgency (R240) -/

variable {id : Nat} {r : MReq}

/-- A memory source's notice, with agent 28 off. -/
theorem State.memNotice_off (h : s.on f_QUE_AGENT_CTL_enable 28 = false) (m pc bank port : Nat) :
    s.memNotice m pc bank port = s.assertSrc (srcMem m) := by
  have ha : (s.assertSrc (srcMem m)).on f_QUE_AGENT_CTL_enable 28 = false := h
  unfold State.memNotice State.agentItem State.agentWrite
  simp [ha]

/-- The requests with number `id` marked urgent. -/
def markUrgent (id : Nat) : List MReq → List MReq := List.map fun q => if q.id = id then { q with urgent := true } else q

theorem State.urgency_three : s.urgency r = 3 ↔ 9 * (25600 * s.fld f_MEMC_PORT_TARGET_target r.port) ≤ 10 * (s.now - r.at_) := by
  have hT : s.portTarget r.port = 25600 * s.fld f_MEMC_PORT_TARGET_target r.port := by
    unfold State.portTarget ns
    omega
  unfold State.urgency
  dsimp only
  rw [hT]
  split
  · next h => exact ⟨fun _ => h, fun _ => rfl⟩
  · next h =>
    refine ⟨fun hn => absurd hn ?_, fun hn => absurd hn h⟩
    split
    · decide
    · split <;> decide

theorem State.enterUrgent_none (hf : (s.memc.reqs ++ s.memc.reading).find? (fun q => decide (q.id = id)) = some r)
    (h : s.urgency r ≠ 3 ∨ r.urgent = true) : s.enterUrgent id = s := by
  unfold State.enterUrgent
  rw [hf]
  exact if_pos h.symm

theorem State.enterUrgent_enters (hf : (s.memc.reqs ++ s.memc.reading).find? (fun q => decide (q.id = id)) = some r) (h : s.urgency r = 3)
    (hu : r.urgent = false) : s.enterUrgent id =
      ((s.setMemc { s.memc with reqs := markUrgent id s.memc.reqs, reading := markUrgent id s.memc.reading }).tally f_MEMC_PORT_STATS_urgent 1
        r.port).memNotice r.port (pcOf r.addr) (bankIx r.addr) r.port := by
  unfold State.enterUrgent
  rw [hf]
  exact if_neg (by simp [h, hu])

/-- The agents' control words lie elsewhere than the ports' counts. -/
theorem agentCtl_ne_portStats {k : Nat} (hk : k < 64) : regAddr .QUE_AGENT_CTL k 0 ≠ regAddr .MEMC_PORT_STATS p 0 := by
  have hlt : regAddr .QUE_AGENT_CTL k 0 < 0x800400000 := by
    simp only [regAddr, regRow, blkBase]
    omega
  have hle : 0x800400000 ≤ regAddr .MEMC_PORT_STATS p 0 := by
    simp only [regAddr, regRow, blkBase]
    omega
  omega

end Asks

/-- Settles O40. -/
theorem memoryRequests : Obligations.MemoryRequests := by
  intro s t p a len write data hcan hpow hp hlen hspan
  obtain ⟨b, hb⟩ : ∃ b, s.begin t = b := ⟨_, rfl⟩
  have hcb : b.canonical := hb ▸ State.canonical_begin hcan t
  have hregs : Table.rising b.regs = true := hcb.fine.regs
  have hok : (isMemPort p && isMemSpan a (if write then data.length else len)) = true := by
    simp only [isMemPort, isMemSpan, Bool.and_eq_true, decide_eq_true_eq]
    exact ⟨hp, hlen, hspan⟩
  rw [hb]
  refine ⟨fun htab hprot => ⟨fun h1 h2 => ⟨fun he => ?_, fun he => ?_⟩, fun hst => ?_⟩, fun hw hp34 htab => ?_, fun hw hp3 htab hprot => ?_,
    fun id r hf => ⟨State.urgency_three, fun h => ?_, fun h3 hu hport hag => ?_⟩, ?_, fun id => ⟨_, rfl⟩⟩
  · refine .runs hb hpow rfl hok ((State.portAsks_accepted htab hprot).trans ?_) ((OnlyChanges.refl [.memc] b).memc (by decide) _) rfl
    rw [State.memAccept_joins, State.memArrive_awake he h1 h2]
    rfl
  · obtain ⟨e, heq⟩ : ∃ e, e = (((b.tally f_MEMC_SR_STATS_aborted).stick f_MEMC_EVENTS_sr_abort).setMemc
      { b.memc with srExit := b.memc.srExit }).joined p write a data len := ⟨_, rfl⟩
    obtain ⟨hframe, -, hst, hreq, hcount, hbit, hsame⟩ := State.joined_noted hregs rfl rfl rfl (by decide) (by decide) (by decide) _ heq
    refine .runs hb hpow rfl hok ((State.portAsks_accepted htab hprot).trans (State.memAccept_joins.trans ?_)) hframe ⟨hreq, hst, hcount, hbit, hsame⟩
    rw [heq, State.memArrive_entering he]
    exact congrArg (fun v => State.joined v p write a data len) (State.setMemc_same rfl).symm
  · obtain ⟨e, heq⟩ : ∃ e, e = (((b.tally f_MEMC_SR_STATS_waited).stick f_MEMC_EVENTS_sr_wait).setMemc
      { b.memc with srExit := some (b.memc.srExit.getD b.now) }).joined p write a data len := ⟨_, rfl⟩
    obtain ⟨hframe, hexit, hst', hreq, hcount, hbit, hsame⟩ := State.joined_noted hregs rfl rfl rfl (by decide) (by decide) (by decide) _ heq
    refine .runs hb hpow rfl hok ((State.portAsks_accepted htab hprot).trans (State.memAccept_joins.trans ?_)) hframe
      ⟨hexit, hst', hreq, hcount, hbit, hsame⟩
    rw [heq, State.memArrive_asleep hst]
  · exact .runs hb hpow rfl hok (State.portAsks_table hw hp34 htab) ((OnlyChanges.refl faultParts b).memFault (by decide) ..) rfl
  · exact .runs hb hpow rfl hok (State.portAsks_protected hw hp3 htab hprot) ((OnlyChanges.refl faultParts b).memFault (by decide) ..) rfl
  · exact .runs (ok := true) hb hpow rfl rfl (State.enterUrgent_none hf h) (OnlyChanges.refl _ _) trivial
  · obtain ⟨u, hu'⟩ : ∃ u, u = b.setMemc { b.memc with reqs := markUrgent id b.memc.reqs, reading := markUrgent id b.memc.reading } := ⟨_, rfl⟩
    have hur : Table.rising u.regs = true := by rw [hu']; exact hregs
    have hag' : (u.tally f_MEMC_PORT_STATS_urgent 1 r.port).on f_QUE_AGENT_CTL_enable 28 = false := by
      rw [← hag, State.on_sameBut (State.sameBut_tally hur _ _ _) (fun hm => agentCtl_ne_portStats (by decide) (List.mem_singleton.1 hm)), hu']
      rfl
    have hcount := State.fld_tally_half hur (f := f_MEMC_PORT_STATS_urgent) r.port rfl (by decide)
    have hsame := State.sameBut_tally hur f_MEMC_PORT_STATS_urgent 1 r.port
    have he : b.enterUrgent id = (u.tally f_MEMC_PORT_STATS_urgent 1 r.port).assertSrc (2208 + r.port) := by
      rw [State.enterUrgent_enters hf h3 hu, ← hu', State.memNotice_off hag']
      rfl
    subst hu'
    exact .runs (ok := true) hb hpow rfl rfl he
      ((((OnlyChanges.refl [.regs, .evm, .memc] b).memc (by decide)
        { b.memc with reqs := markUrgent id b.memc.reqs, reading := markUrgent id b.memc.reading }).tally (by decide) f_MEMC_PORT_STATS_urgent 1
          r.port).evm (by decide) { b.evm with asserted := b.evm.asserted ++ [⟨2208 + r.port, 0, none, 0⟩] })
      ⟨rfl, hcount, hsame, rfl⟩
  · refine ⟨(s.act t fun s => s.portAsks p write a data len), ?_⟩
    rw [show exec (.portRequest t p write a data len) s = outIf _ (s.act t fun s => s.portAsks p write a data len) from rfl, hok]
    rfl

end Sys2Proof.Machine
end

section
/-!
PROOFS. What a pseudo-channel issues: writes to both addresses of a duplex region, reads with the bytes of queued writes, rows opened, counted and
throttled (R238, R239, R241, R244, R245).
-/

namespace Sys2Proof.Machine

open Sys2Proof

section Issues
variable {s : State} {q p a : Nat} {r : MReq}

/-- The way of a fault into the log leaves the memory controller's sticky bits set. -/
theorem Logs.on_events {t : State} (h : Logs s t) (hr : Table.rising s.regs = true) {f : Fld} (hreg : f.reg = .MEMC_EVENTS) (hlen : f.len = 1)
    (hon : s.on f = true) : t.on f = true := by
  rw [State.on_eq_bit f 0 0 hlen, hreg] at hon ⊢
  exact h.bits hr f.lo hon

/-! ## Writes -/

theorem State.copyAddr_setHbm (x y : Nat) (b : Byte) : (s.setHbm x b).copyAddr y = s.copyAddr y := rfl

theorem State.hbmDefault_setHbm (x y : Nat) (b : Byte) : (s.setHbm x b).hbmDefault y = s.hbmDefault y := rfl

/-- One byte put to its address and to that of its copy, if it has one. -/
def State.setBoth (s : State) (a : Nat) (c : Option Nat) (b : Byte) : State :=
  match c with
  | some d => (s.setHbm a b).setHbm d b
  | none => s.setHbm a b

theorem State.memWrite_cons (b : Byte) (l : List Byte) : s.memWrite a (b :: l) = (s.setBoth a (s.copyAddr a) b).memWrite (a + 1) l := by
  conv => lhs; unfold State.memWrite
  dsimp only
  rw [State.copyAddr_setHbm]
  unfold State.setBoth
  cases s.copyAddr a <;> rfl

/-- The byte stands at both addresses, and all others are as before. -/
theorem State.setBoth_reads (hr : Table.rising s.hbm = true) (c : Option Nat) (b : Byte) (hne : ∀ d, c = some d → a ≠ d) : ∃ H S,
    s.setBoth a c b = { s with hbm := H, memc := { s.memc with spoilt := S } } ∧ Table.rising H = true ∧ Table.get (s.hbmDefault a) a H = b ∧
      (∀ d, c = some d → Table.get (s.hbmDefault d) d H = b) ∧ ∀ x y, x ≠ a → (∀ d, c = some d → x ≠ d) → Table.get y x H = Table.get y x s.hbm := by
  have hset : Table.rising (s.setHbm a b).hbm = true := Table.rising_put hr
  cases c with
  | none => exact ⟨_, _, rfl, hset, Table.get_put_same hr, fun d hd => (by cases hd), fun x y hx _ => Table.get_put_other hx hr⟩
  | some d =>
    refine ⟨_, _, rfl, Table.rising_put hset, (Table.get_put_other (hne d rfl) hset).trans (Table.get_put_same hr), fun d' hd => ?_, fun x y hx hxd => ?_⟩
    · obtain rfl := Option.some.inj hd
      exact Table.get_put_same hset
    · exact (Table.get_put_other (hxd d rfl) hset).trans (Table.get_put_other hx hr)

/-- A write puts its bytes at their addresses and, in a duplex region, at those of the copy (R238). -/
theorem State.memWrite_reads : ∀ (l : List Byte) {s : State} (a : Nat) (c : Option Nat), Table.rising s.hbm = true →
    (∀ k < l.length, s.copyAddr (a + k) = c.map (· + k)) → (∀ d, c = some d → d + l.length ≤ a ∨ a + l.length ≤ d) →
    ∃ H S, s.memWrite a l = { s with hbm := H, memc := { s.memc with spoilt := S } } ∧
      (∀ k < l.length, Table.get (s.hbmDefault (a + k)) (a + k) H = l.getD k 0) ∧
      (∀ d k, c = some d → k < l.length → Table.get (s.hbmDefault (d + k)) (d + k) H = l.getD k 0) ∧
      ∀ x y, (x < a ∨ a + l.length ≤ x) → (∀ d, c = some d → x < d ∨ d + l.length ≤ x) → Table.get y x H = Table.get y x s.hbm
  | [], s, a, c, hr, hc, hd => ⟨s.hbm, s.memc.spoilt, rfl, fun k hk => absurd hk (Nat.not_lt_zero k),
      fun d k _ hk => absurd hk (Nat.not_lt_zero k), fun _ _ _ _ => rfl⟩
  | b :: bs, s, a, c, hr, hc, hd => by
    have hlen : (b :: bs).length = bs.length + 1 := rfl
    rw [hlen] at hc hd ⊢
    have hhead : s.copyAddr a = c := by
      have h0 := hc 0 (by omega)
      rw [Nat.add_zero] at h0
      rw [h0]
      cases c <;> rfl
    obtain ⟨H, S, hset, hrise, hown, hcopy, hother⟩ := State.setBoth_reads hr c b (a := a) fun d h => by have := hd d h; omega
    have htail : ∀ k < bs.length, ({ s with hbm := H, memc := { s.memc with spoilt := S } } : State).copyAddr (a + 1 + k) = (c.map (· + 1)).map (· + k) := by
      intro k hk
      have hk' : s.copyAddr (a + 1 + k) = c.map (· + (k + 1)) := by
        rw [Nat.add_assoc, Nat.add_comm 1 k]
        exact hc (k + 1) (by omega)
      refine (show _ = s.copyAddr (a + 1 + k) from rfl).trans (hk'.trans ?_)
      cases c with
      | none => rfl
      | some d => exact congrArg some (by dsimp only; omega)
    have hapart : ∀ d, c.map (· + 1) = some d → d + bs.length ≤ a + 1 ∨ a + 1 + bs.length ≤ d := by
      intro d h
      obtain ⟨d', hd', rfl⟩ := Option.map_eq_some_iff.1 h
      have := hd d' hd'
      omega
    obtain ⟨H', S', hw, hown', hcopy', hother'⟩ := State.memWrite_reads bs (s := { s with hbm := H, memc := { s.memc with spoilt := S } }) (a + 1)
      (c.map (· + 1)) hrise htail hapart
    have houtside : ∀ x y, x ≤ a ∨ a + 1 + bs.length ≤ x → (∀ d, c = some d → x ≤ d ∨ d + 1 + bs.length ≤ x) → Table.get y x H' = Table.get y x H := by
      intro x y hx hxd
      refine hother' x y (by omega) fun d h => ?_
      obtain ⟨d', hd', rfl⟩ := Option.map_eq_some_iff.1 h
      have := hxd d' hd'
      omega
    refine ⟨H', S', ?_, fun k hk => ?_, fun d k h hk => ?_, fun x y hx hxd => ?_⟩
    · rw [State.memWrite_cons, hhead, hset, hw]
    · cases k with
      | zero =>
        exact (houtside a _ (.inl (Nat.le_refl a)) fun d h => by have := hd d h; omega).trans hown
      | succ k =>
        have := hown' k (by omega)
        rw [Nat.add_assoc, Nat.add_comm 1 k] at this
        exact this
    · cases k with
      | zero =>
        refine (houtside d _ (by have := hd d h; omega) fun d' h' => ?_).trans (hcopy d h)
        obtain rfl := Option.some.inj (h.symm.trans h')
        exact .inl (Nat.le_refl d)
      | succ k =>
        have := hcopy' (d + 1) k (by rw [h]; rfl) (by omega)
        rw [Nat.add_assoc, Nat.add_comm 1 k] at this
        exact this
    · exact (houtside x y (by omega) fun d h => by have := hxd d h; omega).trans (hother x y (by omega) fun d h => by have := hxd d h; omega)

/-- A request that completes within its target leaves the counts alone. -/
theorem State.memDone_timely (h : s.now - r.at_ ≤ s.portTarget r.port) : ∃ i, s.memDone r = { s with memc := { s.memc with idleAt := i } } := by
  unfold State.memDone
  rw [if_neg (Nat.not_lt.2 h)]
  dsimp only
  split
  · exact ⟨s.now, rfl⟩
  · exact ⟨s.memc.idleAt, rfl⟩

/-! ## Rows and windows -/

/-- A bank's idle timer restarts (R243). -/
def State.touchBank (s : State) (k : Nat) : State := s.setBank k { s.bankOf k with access := s.now }

theorem State.rowAccess_hit (h : (s.bankOf (bankKey a)).row = some (rowOf a)) : s.rowAccess p a = s.touchBank (bankKey a) := by
  unfold State.rowAccess
  dsimp only
  rw [if_pos h]
  rfl

theorem State.rowAccess_miss (h : (s.bankOf (bankKey a)).row ≠ some (rowOf a)) : s.rowAccess p a = (s.activateRow p a).touchBank (bankKey a) := by
  unfold State.rowAccess
  dsimp only
  rw [if_neg h]
  rfl

theorem State.touchBank_bankOf (hb : Table.rising s.memc.banks = true) (k : Nat) :
    (s.touchBank k).bankOf k = { s.bankOf k with access := s.now } := Table.get_put_same hb

theorem State.touchBank_only (k : Nat) : ∃ B, s.touchBank k = { s with memc := { s.memc with banks := B } } := ⟨_, rfl⟩

theorem State.rhRoll_open (h : s.now < s.memc.windowAt + s.rhWindow) : s.rhRoll = s := if_neg (Nat.not_le.2 h)

theorem State.rhWindow_pos : 0 < s.rhWindow := by
  have hp : ∀ n, 0 < ms (max 1 n) := fun n => by
    unfold ms
    omega
  exact hp _

theorem State.rhRoll_passed (h : s.memc.windowAt + s.rhWindow ≤ s.now) : ∃ k,
    s.rhRoll = s.setMemc { s.memc with windowAt := s.memc.windowAt + k * s.rhWindow, acts := [], throttled := 0 } ∧
      s.memc.windowAt + k * s.rhWindow ≤ s.now ∧ s.now < s.memc.windowAt + k * s.rhWindow + s.rhWindow := by
  have hpos := State.rhWindow_pos (s := s)
  refine ⟨(s.now - s.memc.windowAt) / s.rhWindow, if_pos h, ?_, ?_⟩
  · have := Nat.div_mul_le_self (s.now - s.memc.windowAt) s.rhWindow
    omega
  · have := Nat.lt_div_mul_add hpos (a := s.now - s.memc.windowAt)
    omega

theorem State.refreshOverdue_none (h : ∀ k ∈ s.memc.banks, k.1 % 32 = q → s.now < k.2.refAt + s.refreshPeriod) : s.refreshOverdue q = s := by
  have hnil : (s.memc.banks.filter fun e => decide (e.1 % 32 = q ∧ e.2.refAt + s.refreshPeriod ≤ s.now)) = [] := by
    refine List.filter_eq_nil_iff.2 fun k hk hd => ?_
    obtain ⟨h1, h2⟩ := of_decide_eq_true hd
    have := h k hk h1
    omega
  unfold State.refreshOverdue
  rw [hnil]
  rfl

theorem State.memIssue_rest (h : s.memc.st ≠ .service) : s.memIssue q = s := if_pos h

section Service
variable (hst : s.memc.st = .service) (hw : s.now < s.memc.windowAt + s.rhWindow)
  (href : ∀ k ∈ s.memc.banks, k.1 % 32 = q → s.now < k.2.refAt + s.refreshPeriod)
include hst hw href

theorem State.memIssue_none (hn : s.nextIssue q = none) : s.memIssue q = s := by
  unfold State.memIssue
  rw [if_neg (fun h => h hst), State.rhRoll_open hw, State.refreshOverdue_none href]
  dsimp only
  rw [hn]

theorem State.memIssue_some (hn : s.nextIssue q = some r) : s.memIssue q = s.issueReq r := by
  unfold State.memIssue
  rw [if_neg (fun h => h hst), State.rhRoll_open hw, State.refreshOverdue_none href]
  dsimp only
  rw [hn]

end Service

/-- A request has left the queue of those that wait. -/
def State.unqueued (s : State) (r : MReq) : State := s.setMemc { s.memc with reqs := s.memc.reqs.filter fun x => decide (x.id ≠ r.id) }

theorem State.issueReq_write (h : r.write = true) :
    s.issueReq r = (((s.rowAccess r.port r.addr).unqueued r).memWrite r.addr r.data).memDone r := by
  unfold State.issueReq
  dsimp only
  rw [if_pos h]
  rfl

/-- The data of a read are on their way (R239). -/
def State.awaited (s : State) (r : MReq) : State := s.setMemc { s.memc with reading := s.memc.reading ++ [r] }

theorem State.issueReq_read (h : r.write = false) :
    s.issueReq r = ((s.rowAccess r.port r.addr).unqueued r).awaited { r with data := s.readBytes r, fwd := s.forwarded r } := by
  unfold State.issueReq
  dsimp only
  rw [h]
  rfl

/-! ## The row that is opened (R245) -/

section Rows
variable (hw : s.now < s.memc.windowAt + s.rhWindow)
include hw

theorem State.activateRow_counts (h : Table.get 0 (rowGroup a) s.memc.acts < s.fld f_MEMC_RH_CTL_threshold) : s.activateRow p a = s.openRow p a := by
  have hne : ¬ Table.get 0 (rowGroup a) s.memc.acts + 1 = (s.openRow p a).fld f_MEMC_RH_CTL_threshold + 1 := fun he => by
    have : (s.openRow p a).fld f_MEMC_RH_CTL_threshold = s.fld f_MEMC_RH_CTL_threshold := rfl
    omega
  rw [State.activateRow_eq, State.rhRoll_open hw, if_neg hne]

theorem State.activateRow_throttles (h : Table.get 0 (rowGroup a) s.memc.acts = s.fld f_MEMC_RH_CTL_threshold) : s.activateRow p a =
    (((s.openRow p a).throttleRow p a).memNotice 6 (pcOf a) (bankIx a) p).memFault 0x601 1 .none (portMaster p) 0 a := by
  have heq : Table.get 0 (rowGroup a) s.memc.acts + 1 = (s.openRow p a).fld f_MEMC_RH_CTL_threshold + 1 := congrArg (· + 1) h
  rw [State.activateRow_eq, State.rhRoll_open hw, if_pos heq]

end Rows

theorem State.openRow_banks : (s.openRow p a).memc.banks =
    Table.put Bank.reset (bankKey a) { s.bankOf (bankKey a) with row := some (rowOf a) } s.memc.banks := rfl

theorem State.openRow_acts : (s.openRow p a).memc.acts =
    Table.put 0 (rowGroup a) (Table.get 0 (rowGroup a) s.memc.acts + 1) s.memc.acts := rfl

/-- The row that is opened is its bank's, and its row group has one activation more. -/
theorem State.openRow_touched (hb : Table.rising s.memc.banks = true) (ha : Table.rising s.memc.acts = true) :
    ((s.openRow p a).touchBank (bankKey a)).bankOf (bankKey a) = { s.bankOf (bankKey a) with row := some (rowOf a), access := s.now } ∧
      Table.SameBut [bankKey a] s.memc.banks ((s.openRow p a).touchBank (bankKey a)).memc.banks ∧
      Table.get 0 (rowGroup a) ((s.openRow p a).touchBank (bankKey a)).memc.acts = Table.get 0 (rowGroup a) s.memc.acts + 1 ∧
      Table.SameBut [rowGroup a] s.memc.acts ((s.openRow p a).touchBank (bankKey a)).memc.acts := by
  have hopen : Table.rising (s.openRow p a).memc.banks = true := State.openRow_banks ▸ Table.rising_put hb
  have hrow : (s.openRow p a).bankOf (bankKey a) = { s.bankOf (bankKey a) with row := some (rowOf a) } := by
    unfold State.bankOf
    rw [State.openRow_banks]
    exact Table.get_put_same hb
  have hsame : Table.SameBut [bankKey a] s.memc.banks (s.openRow p a).memc.banks := by
    rw [State.openRow_banks]
    exact .put hb _ _ _
  have hacts : ((s.openRow p a).touchBank (bankKey a)).memc.acts =
      Table.put 0 (rowGroup a) (Table.get 0 (rowGroup a) s.memc.acts + 1) s.memc.acts := State.openRow_acts (p := p)
  refine ⟨?_, hsame.trans (.put hopen _ _ _), ?_, ?_⟩
  · rw [State.touchBank_bankOf hopen, hrow]
    rfl
  · rw [hacts]
    exact Table.get_put_same ha
  · rw [hacts]
    exact .put ha _ _ _

/-- A row that is opened and its idle timer change the memory controller alone, and none of its requests. -/
theorem State.openRow_frame : OnlyChanges [.memc] s ((s.openRow p a).touchBank (bankKey a)) ∧
    ((s.openRow p a).touchBank (bankKey a)).memc.reqs = s.memc.reqs ∧ ((s.openRow p a).touchBank (bankKey a)).memc.reading = s.memc.reading :=
  ⟨(OnlyChanges.refl [.memc] s).memc (by decide) _, rfl, rfl⟩

theorem State.openRow_keeps : OnlyChanges faultParts s (s.openRow p a) ∧ (s.openRow p a).memc.throttled = s.memc.throttled ∧
    (s.openRow p a).memc.reading = s.memc.reading := ⟨(OnlyChanges.refl _ s).memc (by decide) _, rfl, rfl⟩

theorem State.on_of_regs {t : State} (h : t.regs = s.regs) (f : Fld) : t.on f = s.on f := by
  unfold State.on State.fld State.rd
  rw [h]

theorem State.throttleRow_notes : ∃ M,
    s.throttleRow p a = (({ s with memc := M } : State).stick f_MEMC_EVENTS_throttle).tally f_MEMC_RH_COUNT_count := ⟨_, rfl⟩

theorem OnlyChanges.throttleRow {l : List Part} {b : State} (h : OnlyChanges l b s) (hr : .regs ∈ l) (hm : .memc ∈ l) (p a : Nat) :
    OnlyChanges l b (s.throttleRow p a) := by
  obtain ⟨M, hv⟩ := State.throttleRow_notes (s := s) (p := p) (a := a)
  exact hv ▸ ((h.memc hm M).stick hr _ _).tally hr _ _ _

/-- The note of a throttle stays while it is counted. -/
theorem State.noted_counted (h : Table.rising s.regs = true) :
    Table.rising ((s.stick f_MEMC_EVENTS_throttle).tally f_MEMC_RH_COUNT_count).regs = true ∧
      ((s.stick f_MEMC_EVENTS_throttle).tally f_MEMC_RH_COUNT_count).on f_MEMC_EVENTS_throttle = true :=
  ⟨State.rising_tally (State.rising_stick h _ _) _ _ _,
    (State.on_wr_other (State.rising_stick h _ _) (by decide)).trans (State.on_stick h 0 (by decide) (by decide))⟩

/-- The throttle that an activation begins is noted, its source asserts, and it stays through the fault that logs it. -/
theorem State.throttled_noticed (hr : Table.rising s.regs = true) {w : State}
    (hw : w = ((s.throttleRow p a).memNotice 6 (pcOf a) (bankIx a) p).memFault 0x601 1 .none (portMaster p) 0 a) :
    w.memc.throttled = s.memc.throttled ||| 2 ^ p ∧ w.memc.rhRows = disturbed a ∧ w.memc.rhPort = p ∧ w.memc.rhPc = pcOf a ∧ w.memc.rhBank = bankIx a ∧
      w.memc.reading = s.memc.reading ∧ w.on f_MEMC_EVENTS_throttle = true ∧ ∃ y ∈ w.evm.asserted, y.src = 2214 := by
  obtain ⟨u, hu⟩ : ∃ u, u = (s.throttleRow p a).assertSrc (srcMem 6) := ⟨_, rfl⟩
  have hlogs : Logs u w := by
    rw [hw, hu]
    exact ((Logs.refl _).agentItem (by decide) _ _ _).memFault ..
  obtain ⟨l, n, x, hm⟩ := hlogs.memc
  obtain ⟨l', he⟩ := hlogs.evm
  obtain ⟨M, hv⟩ := State.throttleRow_notes (s := s) (p := p) (a := a)
  obtain ⟨hrise, hbit⟩ := State.noted_counted (s := { s with memc := M }) hr
  rw [← hv] at hrise hbit
  have hbit' : u.on f_MEMC_EVENTS_throttle = true := (State.on_of_regs (hu ▸ rfl) _).trans hbit
  subst hu
  refine ⟨by rw [hm]; rfl, by rw [hm]; rfl, by rw [hm]; rfl, by rw [hm]; rfl, by rw [hm]; rfl, by rw [hm]; rfl, ?_, ⟨⟨2214, 0, none, 0⟩, ?_, rfl⟩⟩
  · exact hlogs.on_events hrise rfl rfl hbit'
  · rw [he]
    exact List.mem_append_left _ (List.mem_append_right _ (List.mem_singleton.2 rfl))

end Issues

/-- Settles O41. -/
theorem memoryCommands : Obligations.MemoryCommands := by
  intro s t q hcan hpow hq
  obtain ⟨b, hb⟩ : ∃ b, s.begin t = b := ⟨_, rfl⟩
  have hcb : b.canonical := hb ▸ State.canonical_begin hcan t
  have hregs : Table.rising b.regs = true := hcb.fine.regs
  have hbanks : Table.rising b.memc.banks = true := hcb.fine.banks
  have hhbm : Table.rising b.hbm = true := Table.wf_rising hcb.fine.hbm
  have hok : isPc q = true := by simpa [isPc] using hq
  rw [hb]
  refine ⟨fun h => ?_, fun h => ?_, fun h => ?_, ?_, fun hst hw href => ⟨fun hn => ?_, fun r hn => ⟨fun c hhit hwr hin hcopy hapart => ?_, fun hhit hrd => ?_,
    fun hmiss hrd hacts => ⟨fun hlt => ?_, fun heq => ?_⟩⟩⟩⟩
  · exact .runs hb hpow rfl hok (State.memIssue_rest h) (OnlyChanges.refl _ _) trivial
  · exact .runs (ok := true) hb hpow rfl rfl (State.rhRoll_open h) (OnlyChanges.refl _ _) trivial
  · obtain ⟨k, hk, hle, hlt⟩ := State.rhRoll_passed h
    exact .runs (ok := true) hb hpow rfl rfl hk ((OnlyChanges.refl [.memc] b).memc (by decide) _) ⟨k, rfl, hle, hlt⟩
  · refine ⟨s.act t fun s => s.memIssue q, ?_⟩
    rw [show exec (.commandIssue t q) s = outIf (isPc q) (s.act t fun s => s.memIssue q) from rfl, hok]
    rfl
  · exact .runs hb hpow rfl hok (State.memIssue_none hst hw href hn) (OnlyChanges.refl _ _) trivial
  all_goals have hissue : b.memIssue q = b.issueReq r := State.memIssue_some hst hw href hn
  · have hrow : b.rowAccess r.port r.addr = b.touchBank (bankKey r.addr) := State.rowAccess_hit (of_decide_eq_true hhit)
    have htouch := State.touchBank_bankOf hbanks (bankKey r.addr)
    obtain ⟨u, hu⟩ : ∃ u, u = (b.touchBank (bankKey r.addr)).unqueued r := ⟨_, rfl⟩
    obtain ⟨H, S, hwrite, hown, hback, hother⟩ := State.memWrite_reads r.data (s := u) r.addr c (hu ▸ hhbm) (hu ▸ hcopy) hapart
    obtain ⟨i, hdone⟩ := State.memDone_timely (r := r) (s := u.memWrite r.addr r.data) (by rw [hwrite, hu]; exact hin)
    have he : b.memIssue q = { u with hbm := H, memc := { u.memc with spoilt := S, idleAt := i } } := by
      rw [hissue, State.issueReq_write hwr, hrow, ← hu, hdone, hwrite]
    have hframe : OnlyChanges [.memc, .hbm] b u := hu ▸ (OnlyChanges.refl [.memc, .hbm] b).memc (by decide) _
    have hframe' := (hframe.memc (by decide) { u.memc with spoilt := S, idleAt := i }).hbm (by decide) H
    subst hu
    exact .runs hb hpow rfl hok he hframe'
      ⟨hown, hback, hother, rfl, htouch, .put hbanks _ _ _, rfl⟩
  · have hrow : b.rowAccess r.port r.addr = b.touchBank (bankKey r.addr) := State.rowAccess_hit (of_decide_eq_true hhit)
    have htouch := State.touchBank_bankOf hbanks (bankKey r.addr)
    have he := hissue.trans (State.issueReq_read hrd)
    rw [hrow] at he
    exact .runs hb hpow rfl hok he ((OnlyChanges.refl [.memc] b).memc (by decide) _) ⟨rfl, rfl, htouch, .put hbanks _ _ _, rfl⟩
  · obtain ⟨v, hv⟩ : ∃ v, v = (b.openRow r.port r.addr).touchBank (bankKey r.addr) := ⟨_, rfl⟩
    have hrow : b.rowAccess r.port r.addr = v := by
      rw [State.rowAccess_miss (of_decide_eq_false hmiss), State.activateRow_counts hw hlt, hv]
    obtain ⟨htouch, hsame, hcount, hgroups⟩ := State.openRow_touched (p := r.port) (a := r.addr) hbanks hacts
    obtain ⟨hframe, hreqs, hreading⟩ := State.openRow_frame (s := b) (p := r.port) (a := r.addr)
    rw [← hv] at htouch hsame hcount hgroups hframe hreqs hreading
    have he := hissue.trans (State.issueReq_read hrd)
    rw [hrow] at he
    exact .runs hb hpow rfl hok he (hframe.memc (by decide) _)
      ⟨congrArg Bank.row htouch, congrArg Bank.access htouch, hsame, hcount, hgroups, congrArg (· ++ _) hreading,
        congrArg (List.filter fun x : MReq => decide (x.id ≠ r.id)) hreqs⟩
  · obtain ⟨v, hv⟩ : ∃ v, v = b.openRow r.port r.addr := ⟨_, rfl⟩
    obtain ⟨w, hwq⟩ : ∃ w, w = ((v.throttleRow r.port r.addr).memNotice 6 (pcOf r.addr) (bankIx r.addr) r.port).memFault 0x601 1
      .none (portMaster r.port) 0 r.addr := ⟨_, rfl⟩
    have hrow : b.rowAccess r.port r.addr = w.touchBank (bankKey r.addr) := by
      rw [State.rowAccess_miss (of_decide_eq_false hmiss), State.activateRow_throttles hw heq, hwq, hv]
    obtain ⟨hopen, hthr, hread⟩ := State.openRow_keeps (s := b) (p := r.port) (a := r.addr)
    rw [← hv] at hopen hthr hread
    obtain ⟨hthrottled, hrows, hport, hpc, hbank, hreading, hbit, hsrc⟩ := State.throttled_noticed (s := v) (hv ▸ hregs) hwq
    have hframe : OnlyChanges faultParts b w :=
      hwq ▸ ((hopen.throttleRow (by decide) (by decide) _ _).then (State.keeps_memNotice (Within.refl _) (Keeps.refl _) 6 (pcOf r.addr) (bankIx r.addr) r.port) (by decide)).memFault (by decide) ..
    have he := hissue.trans (State.issueReq_read hrd)
    rw [hrow] at he
    exact .runs hb hpow rfl hok he (hframe.memc (by decide) _)
      ⟨hthrottled.trans (by rw [hthr]), hrows, hport, hpc, hbank, hbit, hsrc, congrArg (· ++ _) (hreading.trans hread)⟩

end Sys2Proof.Machine
end

section
/-!
PROOFS. Read data that return late (R240, R253): the count of late answers of a port that Table 8-3 does not name stands in the register of the
parity counts.
-/

namespace Sys2Proof.Machine

open Sys2Proof

section Watched
variable {s b e : State}

theorem Table.insert_ne_nil {α : Type} (k : Nat) (w : α) (t : Table α) : Table.insert k w t ≠ [] := by
  cases t with
  | nil => exact List.cons_ne_nil _ _
  | cons x t =>
    unfold Table.insert
    split
    · exact List.cons_ne_nil _ _
    · split <;> exact List.cons_ne_nil _ _

/-- A step of autorange leaves the channel's record listed: it is in RANGING. -/
theorem State.stepRange_listed (n r : Nat) : (s.stepRange n r).force ≠ [] := by
  unfold State.stepRange State.setForce Table.put
  dsimp only
  rw [if_neg fun h => ChState.noConfusion (congrArg Force.st h)]
  exact Table.insert_ne_nil _ _ _

theorem State.autorangeFresh_regs (n : Nat) : (s.autorangeFresh n).force ≠ [] ∨ ((s.autorangeFresh n).regs = s.regs ∧ (s.autorangeFresh n).force = s.force) := by
  unfold State.autorangeFresh State.autorangeCheck
  dsimp only
  split
  · exact .inr ⟨rfl, rfl⟩
  · split
    · exact .inl (State.stepRange_listed _ _)
    · split
      · exact .inl (State.stepRange_listed _ _)
      · exact .inr ⟨rfl, rfl⟩

/-- Where no channel's record is listed in the end, autorange that comes into effect has changed no register. -/
theorem State.autorangeFresh_each : ∀ (l : List Nat) {s : State},
    (s.force ≠ [] → (s.each l fun n s => s.autorangeFresh n).force ≠ []) ∧
      ((s.each l fun n s => s.autorangeFresh n).force = [] → (s.each l fun n s => s.autorangeFresh n).regs = s.regs)
  | [], s => ⟨id, fun _ => rfl⟩
  | n :: l, s => by
    obtain ⟨hlisted, hsame⟩ := State.autorangeFresh_each l (s := s.autorangeFresh n)
    obtain h | ⟨hr, hf⟩ := State.autorangeFresh_regs (s := s) n
    · exact ⟨fun _ => hlisted h, fun hn => absurd hn (hlisted h)⟩
    · exact ⟨fun h => hlisted (hf ▸ h), fun hn => (hsame hn).trans hr⟩

/-- Where the event matrix's domain is off and no channel's record is listed, what follows a command changes no register. -/
theorem State.finish_regs (h : e.domainOn 55 = false) (hhub : e.pwr.hubReset = false) (hf : (State.finish b e).force = []) :
    (State.finish b e).regs = e.regs := by
  obtain ⟨l, h1⟩ := State.settle_unrouted 2400 h
  obtain ⟨u, hu⟩ : ∃ u : State, u = { e with evm := { e.evm with asserted := l } } := ⟨_, rfl⟩
  have hpwr : (State.watch b u).domainOn 55 = false := by
    unfold State.domainOn
    rw [(State.keeps_watch (Within.refl _) (Keeps.refl u) b).pwr rfl, hu]
    exact h
  obtain ⟨m, h2⟩ := State.settle_unrouted 2400 hpwr
  have hfinish : State.finish b e = { State.watch b u with evm := { (State.watch b u).evm with asserted := m } } := by
    unfold State.finish
    rw [hhub, h1, ← hu, h2]
    rfl
  rw [hfinish] at hf ⊢
  have hsteps : u.watchSteps.regs = e.regs := ((State.keeps_watchSteps (Within.refl _) (Keeps.refl u)).regs rfl).trans (hu ▸ rfl)
  exact ((State.autorangeFresh_each _).2 hf).trans hsteps

end Watched

/-- The stack's answer to a read of the stack's first burst, asked for at instant 0 by a port that is none of the six. -/
def lateRead : State :=
  { State.reset with
    now := 6000000
    memc := { State.reset.memc with reading := [⟨0, 32, false, 0, List.replicate 32 0, 32, 0, false, []⟩] } }

/-- Refutes O42: the answer to `lateRead` is uncorrectable and late, and both counts are in one register: that of port 32, which the statement
does not exclude, lies over that of the uncorrectable reads. -/
theorem not_readDataReturns : ¬ Obligations.ReadDataReturns := by
  intro h
  obtain ⟨-, hread⟩ := h lateRead 0 0 ⟨0, 32, false, 0, List.replicate 32 0, 32, 0, false, []⟩ (by decide) (by decide)
  have hbank : ∀ x, (lateRead.begin 0).lostBank x = false := fun x => by
    have hrd : (lateRead.begin 0).rd .MEMC_LOST_BANK = 0 := by decide
    unfold State.lostBank
    rw [hrd]
    simp [bit]
  obtain ⟨-, -, hbad⟩ := (hread (by decide) (by decide) (by decide) (by decide)).1 (fun x _ _ => hbank x) (by decide)
  obtain ⟨e, hexec, hframe, -, -, -, -, -, hcount, -⟩ := (hbad (by decide) (by decide)).2 (by decide)
  have hout : ∀ u, exec (.readData 0 0 [0] []) lateRead = .next u → u.force = [] ∧ u.fld f_MEMC_PAR_STATS_uncorrectable = 2 := by
    intro u hu
    obtain rfl := Host.Outcome.next.inj hu
    decide
  obtain ⟨hforce, htwo⟩ := hout _ hexec
  have hpwr : e.pwr = (lateRead.begin 0).pwr := hframe.2.2 .pwr (by decide)
  have hdomain : e.domainOn 55 = false := by
    unfold State.domainOn
    rw [hpwr]
    decide
  have hregs : (State.finish (lateRead.begin 0) e).regs = e.regs := State.finish_regs hdomain ((congrArg Pwr.hubReset hpwr).trans (by decide)) hforce
  have hone : min 0xFF ((lateRead.begin 0).fld f_MEMC_PAR_STATS_uncorrectable + 1) = 1 := by decide
  have hfld : (State.finish (lateRead.begin 0) e).fld f_MEMC_PAR_STATS_uncorrectable = 1 := by
    unfold State.fld State.rd at hcount ⊢
    rw [hregs, hcount]
    exact hone
  rw [hfld] at htwo
  cases htwo

end Sys2Proof.Machine
end

section
/-!
PROOFS. Rows and self-refresh: refreshes and their postponement, idle rows, and the stack's way into self-refresh and out of it (R241, R243, R246 to
R248).
-/

namespace Sys2Proof.Machine

open Sys2Proof

section Rows
variable {s : State} {k : Nat}

/-- A change of the controller's record with its notice, agent 28 off. -/
theorem State.setMemc_notice (h : s.on f_QUE_AGENT_CTL_enable 28 = false) (x : Memc) (m pc bank port : Nat) : (s.setMemc x).memNotice m pc bank port =
    { s with memc := x, evm := { s.evm with asserted := s.evm.asserted ++ [⟨2208 + m, 0, none, 0⟩] } } :=
  State.memNotice_off (s := s.setMemc x) h m pc bank port

/-! ## Every row closed -/

/-- Closing the rows of listed banks changes the banks alone, closes those rows and opens none. -/
theorem State.each_closeRow (k : Nat) : ∀ (l : List Nat) {s : State}, Table.rising s.memc.banks = true → ∃ B,
    (s.each l fun k s => s.closeRow k) = { s with memc := { s.memc with banks := B } } ∧
      (k ∈ l ∨ (s.bankOf k).row = none → Table.get Bank.reset k B = { s.bankOf k with row := none })
  | [], s, hr => ⟨s.memc.banks, rfl, fun h => by
      have hrow : (s.bankOf k).row = none := h.resolve_left (List.not_mem_nil)
      exact show s.bankOf k = _ by rw [← hrow]⟩
  | j :: l, s, hr => by
    have hrise : Table.rising (s.closeRow j).memc.banks = true := Table.rising_put hr
    obtain ⟨B, he, hget⟩ := State.each_closeRow k l hrise
    have hrow : (s.closeRow j).bankOf k = if k = j then { s.bankOf k with row := none } else s.bankOf k := by
      split
      · next h => exact h ▸ Table.get_put_same hr
      · next h => exact Table.get_put_other h hr
    refine ⟨B, he, fun h => ?_⟩
    rw [hget ?_, hrow]
    · split <;> rfl
    · rw [hrow]
      obtain h | h := h
      · obtain rfl | h := List.mem_cons.1 h
        · exact .inr (by rw [if_pos rfl])
        · exact .inl h
      · refine .inr ?_
        split
        · rfl
        · exact h

/-- A precharge closes every row and changes nothing else. -/
theorem State.precharge_closes (hr : Table.rising s.memc.banks = true) : ∃ B, s.precharge = { s with memc := { s.memc with banks := B } } ∧
    ∀ k, Table.get Bank.reset k B = { s.bankOf k with row := none } := by
  obtain ⟨B, he, -⟩ := State.each_closeRow 0 (s.memc.banks.map fun e => e.1) hr
  refine ⟨B, he, fun k => ?_⟩
  obtain ⟨B', he', hget⟩ := State.each_closeRow k (s.memc.banks.map fun e => e.1) hr
  have hB : B = B' := congrArg (fun s => s.memc.banks) (he.symm.trans he')
  rw [hB]
  refine hget ?_
  by_cases hk : k ∈ s.memc.banks.map fun e => e.1
  · exact .inl hk
  · exact .inr (by rw [show s.bankOf k = Bank.reset from Table.get_not_listed hk]; rfl)

/-! ## Refresh and idle rows -/

theorem State.refreshDue_rest (h : s.memc.st ≠ .service) : s.refreshDue k = s := if_pos h

theorem State.refreshDue_postponed (hst : s.memc.st = .service) (hu : s.bankUrgent k = true) (hp : (s.bankOf k).postponed < 8) :
    s.refreshDue k = s.setBank k { s.bankOf k with postponed := (s.bankOf k).postponed + 1 } := by
  unfold State.refreshDue
  rw [if_neg (fun h => h hst)]
  exact if_pos ⟨hu, hp⟩

theorem State.refreshDue_issued (hst : s.memc.st = .service) (h : s.bankUrgent k = false ∨ 8 ≤ (s.bankOf k).postponed) :
    s.refreshDue k = s.refreshBank k := by
  unfold State.refreshDue
  rw [if_neg (fun h => h hst)]
  refine if_neg fun ⟨hu, hp⟩ => ?_
  obtain h | h := h
  · rw [h] at hu
    cases hu
  · omega

theorem State.pageIdle_closes (hrow : (s.bankOf k).row ≠ none) (h : (s.bankOf k).access + 256 * s.fld f_MEMC_PAGE_idle_ns ≤ s.now) :
    s.pageIdle k = s.closeRow k := by
  refine if_pos ⟨Option.isSome_iff_ne_none.2 hrow, ?_⟩
  unfold ns
  omega

theorem State.pageIdle_waits (h : s.now < (s.bankOf k).access + 256 * s.fld f_MEMC_PAGE_idle_ns) : s.pageIdle k = s := by
  refine if_neg fun hn => ?_
  have := hn.2
  unfold ns at this
  omega

/-! ## Self-refresh -/

theorem State.srEntering_idle (hst : s.memc.st = .service) (hheld : s.memHeld = false) (hidle : s.fld f_MEMC_SR_CTL_idle_us ≠ 0)
    (h : s.memc.idleAt + 256000 * s.fld f_MEMC_SR_CTL_idle_us ≤ s.now) : s.srEntering = true := by
  have hus : s.memc.idleAt + us (s.fld f_MEMC_SR_CTL_idle_us) ≤ s.now := by
    unfold us
    omega
  unfold State.srEntering
  simp [hst, hheld, hidle, hus]

theorem State.enterSelfRefresh_not (h : s.srEntering = false) : s.enterSelfRefresh = s := if_neg (by rw [h]; exact Bool.false_ne_true)

theorem State.enterSelfRefresh_enters (h : s.srEntering = true) :
    s.enterSelfRefresh = (s.precharge.setMemc { s.precharge.memc with st := .selfRefresh, srAt := some s.now }).memNotice 9 0 0 0 := if_pos h

theorem State.stackReady_idle (h : s.memc.srExit = none) : s.stackReady = s := by
  unfold State.stackReady
  rw [h]

variable {u w : Nat}

theorem State.stackReady_early (hx : s.memc.srExit = some w) (ha : s.memc.srAt = some u) (h : s.now < u + 128000) : s.stackReady = s := by
  unfold State.stackReady
  rw [hx, ha]
  exact if_pos h

theorem State.stackReady_wakes (hx : s.memc.srExit = some w) (ha : s.memc.srAt = some u) (h : u + 128000 ≤ s.now) : s.stackReady = s.memWake := by
  unfold State.stackReady
  rw [hx, ha]
  exact if_neg (Nat.not_lt.2 h)

theorem State.memWake_refreshed (h : s.memc.st = .selfRefresh) :
    s.memWake = (s.setMemc { s.memc with st := .service, srAt := none, srExit := none, idleAt := s.now }).memNotice 10 0 0 0 := by
  unfold State.memWake
  rw [h]

end Rows

/-- Settles O43. -/
theorem rowsAndSelfRefresh : Obligations.RowsAndSelfRefresh := by
  intro s t b0 q hcan hpow hb0 hq
  obtain ⟨b, hb⟩ : ∃ b, s.begin t = b := ⟨_, rfl⟩
  have hcb : b.canonical := hb ▸ State.canonical_begin hcan t
  have hbanks : Table.rising b.memc.banks = true := hcb.fine.banks
  have hok : isBank b0 q = true := by simp [isBank, hb0, hq]
  have hq' : (b0 * 32 + q) % 32 = q := by omega
  rw [hb]
  refine ⟨fun hst => ⟨fun h => ?_, fun hu hp => ?_⟩, fun h => ?_, fun hrow => ⟨fun h => ?_, fun h => ?_⟩, fun h => ?_,
    fun hag => ⟨fun hst hheld hidle h => ?_, fun u w hst ha hx => ⟨fun h => ?_, fun h => ?_⟩⟩, fun h => ?_, fun c hc => ?_⟩
  · have he : b.refreshDue (b0 * 32 + q) = b.refreshBank (b0 * 32 + q) := State.refreshDue_issued hst h
    unfold State.refreshBank at he
    rw [hq'] at he
    exact .runs hb hpow rfl hok he ((OnlyChanges.refl [.memc] b).memc (by decide) _) ⟨Table.get_put_same hbanks, .put hbanks _ _ _, rfl⟩
  · exact .runs hb hpow rfl hok (State.refreshDue_postponed hst hu hp) ((OnlyChanges.refl [.memc] b).memc (by decide) _)
      ⟨Table.get_put_same hbanks, .put hbanks _ _ _, rfl⟩
  · exact .runs hb hpow rfl hok (State.refreshDue_rest h) (OnlyChanges.refl _ _) trivial
  · exact .runs hb hpow rfl hok (State.pageIdle_closes hrow h) ((OnlyChanges.refl [.memc] b).memc (by decide) _)
      ⟨Table.get_put_same hbanks, .put hbanks _ _ _, rfl⟩
  · exact .runs hb hpow rfl hok (State.pageIdle_waits h) (OnlyChanges.refl _ _) trivial
  · exact .runs (ok := true) hb hpow rfl rfl (State.enterSelfRefresh_not h) (OnlyChanges.refl _ _) trivial
  · obtain ⟨B, hB, hclosed⟩ := State.precharge_closes hbanks
    have he := State.enterSelfRefresh_enters (State.srEntering_idle hst hheld hidle h)
    rw [hB] at he
    exact .runs (ok := true) hb hpow rfl rfl (he.trans (State.setMemc_notice hag ..))
      (((OnlyChanges.refl [.evm, .memc] b).memc (by decide) { b.memc with banks := B, st := .selfRefresh, srAt := some b.now }).evm (by decide)
        { b.evm with asserted := b.evm.asserted ++ [⟨2217, 0, none, 0⟩] }) ⟨rfl, hclosed, rfl⟩
  · exact .runs (ok := true) hb hpow rfl rfl (State.stackReady_early hx ha h) (OnlyChanges.refl _ _) trivial
  · have he := (State.stackReady_wakes hx ha h).trans (State.memWake_refreshed hst)
    exact .runs (ok := true) hb hpow rfl rfl (he.trans (State.setMemc_notice hag ..))
      (((OnlyChanges.refl [.evm, .memc] b).memc (by decide) { b.memc with st := .service, srAt := none, srExit := none, idleAt := b.now }).evm (by decide)
        { b.evm with asserted := b.evm.asserted ++ [⟨2218, 0, none, 0⟩] }) ⟨rfl, rfl⟩
  · exact .runs (ok := true) hb hpow rfl rfl (State.stackReady_idle h) (OnlyChanges.refl _ _) trivial
  · have hrun (body : State → State) : ∃ e, outIf (isBank b0 q) (s.act t body) = .next e := ⟨s.act t body, by rw [hok]; rfl⟩
    simp only [List.mem_cons, List.not_mem_nil, or_false] at hc
    obtain rfl | rfl | rfl | rfl := hc
    · exact hrun fun s => s.refreshDue (b0 * 32 + q)
    · exact hrun fun s => s.pageIdle (b0 * 32 + q)
    · exact ⟨_, rfl⟩
    · exact ⟨_, rfl⟩

end Sys2Proof.Machine
end

section
/-!
PROOFS. Partial retention: it is entered, refused and left; what the retained banks hold stays (R249, R250).
-/

namespace Sys2Proof.Machine

open Sys2Proof

section Retention
variable {s : State} {m : Nat} {v w : Word}

/-! ## A write to MEMC_PR_CTL stores nothing -/

/-- The state in which MEMC_PR_CTL has been written: both its bits act, and it stores nothing. -/
def State.prWritten (s : State) : State := s.wr .MEMC_PR_CTL (s.rd .MEMC_PR_CTL)

theorem State.regWrite_prCtl (hr : Table.rising s.regs = true) (hsh : s.shielded (regAddr .MEMC_PR_CTL 0 0) = 0) :
    s.regWrite m .MEMC_PR_CTL 0 0 v none false = s.prWritten.acted m .MEMC_PR_CTL 0 v none false := by
  have hmask : rwMask .MEMC_PR_CTL = 0 ∧ rwiMask .MEMC_PR_CTL = 0 ∧ w1cMask .MEMC_PR_CTL = 0 := by decide
  obtain ⟨hrw, hrwi, hw1c⟩ := hmask
  have hstored : stored .MEMC_PR_CTL (s.rd .MEMC_PR_CTL) v 0 = s.rd .MEMC_PR_CTL := by
    unfold stored
    rw [hrw, hw1c]
    refine BitVec.eq_of_getLsbD_eq fun k hk => ?_
    simp only [BitVec.getLsbD_and, BitVec.getLsbD_or, BitVec.getLsbD_not, hk]
    simp
  have hbar : s.barred m .MEMC_PR_CTL 0 v (s.rd .MEMC_PR_CTL) = none := by
    unfold State.barred
    dsimp only
    split
    · rfl
    · exact if_neg fun h => absurd h.1 (by decide)
  rw [State.regWrite_plain (by decide) hsh,
    State.writePlain_taken (by decide) (by rw [hrwi]; simp [differs]) hbar (by intro f hf; cases hf), hstored]
  unfold State.changed
  rw [State.rd_wr_same hr, if_pos rfl]
  rfl

theorem State.prWritten_alike (hr : Table.rising s.regs = true) : RegsAlike .MEMC_PR_CTL 0 s s.prWritten :=
  ⟨.put hr _ _ _, State.rd_wr_same hr ..⟩

theorem State.prWritten_rd (hr : Table.rising s.regs = true) {r : Reg} {i : Nat} (h : regAddr r i 0 ≠ regAddr .MEMC_PR_CTL 0 0) :
    s.prWritten.rd r i = s.rd r i := State.rd_wr_other hr _ h

/-- Whether partial retention is refused does not depend on MEMC_PR_CTL. -/
theorem State.prWritten_refused (hr : Table.rising s.regs = true) : s.prWritten.retentionRefused = s.retentionRefused := by
  have hrd (r : Reg) (i : Nat) (h : regAddr r i 0 ≠ regAddr .MEMC_PR_CTL 0 0) := State.prWritten_rd hr (r := r) (i := i) h
  unfold State.retentionRefused State.regionBase State.regionSize State.regionCopy State.on State.fld
  rw [hrd .MEMC_PR_BANK 0 (by decide), hrd .MEMC_PR_PC 0 (by decide), hrd f_QUE_SPILL_BASE_page.reg 0 (by decide),
    hrd f_QUE_SPILL_SIZE_pages.reg 0 (by decide)]
  dsimp only
  rw [hrd f_MEMC_REGION_ATTR_valid.reg 0 (by decide), hrd f_MEMC_REGION_BASE_mib.reg 0 (by decide), hrd f_MEMC_REGION_SIZE_mib.reg 0 (by decide),
    hrd f_MEMC_REGION_ATTR_duplex.reg 0 (by decide), hrd f_MEMC_REGION_COPY_mib.reg 0 (by decide),
    hrd f_MEMC_REGION_ATTR_valid.reg 1 (by decide), hrd f_MEMC_REGION_BASE_mib.reg 1 (by decide), hrd f_MEMC_REGION_SIZE_mib.reg 1 (by decide),
    hrd f_MEMC_REGION_ATTR_duplex.reg 1 (by decide), hrd f_MEMC_REGION_COPY_mib.reg 1 (by decide)]
  rfl

/-! ## What the bits do -/

theorem State.enterRetention_enters (h : s.memc.st = .service ∨ s.memc.st = .selfRefresh) (hok : s.retentionRefused = false) :
    s.enterRetention = s.precharge.setMemc { s.precharge.memc with
      st := .retention, srAt := some s.now, srExit := none, retBanks := s.rd .MEMC_PR_BANK, retPcs := s.rd .MEMC_PR_PC } := by
  have h1 : ¬ s.memc.st = .retention := by rcases h with h | h <;> rw [h] <;> decide
  have h2 : ¬ (s.memc.st ≠ .service ∧ s.memc.st ≠ .selfRefresh ∨ s.retentionRefused = true) := by
    rintro (⟨ha, hb⟩ | hc)
    · exact h.elim ha hb
    · rw [hok] at hc
      cases hc
  unfold State.enterRetention
  rw [if_neg h1, if_neg h2]

theorem State.enterRetention_refused (h1 : s.memc.st ≠ .retention)
    (h : s.memc.st ≠ .service ∧ s.memc.st ≠ .selfRefresh ∨ s.retentionRefused = true) : s.enterRetention = s.stick f_MEMC_EVENTS_refused := by
  unfold State.enterRetention
  rw [if_neg h1, if_pos h]

theorem State.acted_enters (hv : bit v 31 = true) (h1 : s.memc.st ≠ .retention) (h2 : s.enterRetention.memc.st = .retention) :
    s.acted m .MEMC_PR_CTL 0 v none false = s.enterRetention := by
  unfold State.acted
  dsimp only
  rw [if_pos hv, if_pos ⟨h2, h1⟩]

theorem State.acted_refuses (hv : bit v 31 = true) (h2 : s.enterRetention.memc.st ≠ .retention) :
    s.acted m .MEMC_PR_CTL 0 v none false = s.enterRetention.writeFault 0x004 .none m (regAddr .MEMC_PR_CTL 0 0) := by
  unfold State.acted
  dsimp only
  rw [if_pos hv, if_neg fun h => h2 h.1]

theorem State.acted_exits (hv : bit v 31 = false) (hv' : bit v 30 = true) (h : s.memc.st = .retention) :
    s.acted m .MEMC_PR_CTL 0 v none false = s.leaveRetention := by
  unfold State.acted
  dsimp only
  rw [hv, if_neg Bool.false_ne_true, if_pos ⟨hv', h⟩]

theorem State.acted_exits_not (hv : bit v 31 = false) (h : s.memc.st ≠ .retention) : s.acted m .MEMC_PR_CTL 0 v none false = s := by
  unfold State.acted
  dsimp only
  rw [hv, if_neg Bool.false_ne_true, if_neg fun hn => h hn.2]

/-! ## What is lost (R250) -/

theorem Table.get_count_other {d k : Nat} : ∀ (l : List Nat) {t : Table Nat}, Table.rising t = true → k ∉ l →
    Table.rising (l.foldl (fun l k => Table.put 0 k (Table.get 0 k l + 1) l) t) = true ∧
      Table.get d k (l.foldl (fun l k => Table.put 0 k (Table.get 0 k l + 1) l) t) = Table.get d k t
  | [], t, hr, _ => ⟨hr, rfl⟩
  | j :: l, t, hr, hk => by
    obtain ⟨hkj, hkl⟩ := not_or.1 (fun h => hk (List.mem_cons.2 h))
    obtain ⟨hrise, hget⟩ := Table.get_count_other (d := d) l (t := Table.put 0 j (Table.get 0 j t + 1) t) (Table.rising_put hr) hkl
    exact ⟨hrise, hget.trans (Table.get_put_other hkj hr)⟩

/-- The banks that partial retention does not keep, each as bank × 32 + pseudo-channel. -/
def Memc.lostKeys (x : Memc) : List Nat :=
  (List.range 1024).filter fun k => ! (x.retBanks.getLsbD (k / 32) && x.retPcs.getLsbD (k % 32))

theorem State.loseBanks_losses : s.loseBanks.losses = s.memc.lostKeys.foldl (fun l k => Table.put 0 k (Table.get 0 k l + 1) l) s.losses := by
  simp only [State.loseBanks, Memc.lostKeys]

/-- A byte of a retained bank is as before (R249). -/
theorem State.loseBanks_retained (hh : Table.rising s.hbm = true) (hl : Table.rising s.losses = true) {a : Nat}
    (hb : s.memc.retBanks.getLsbD (bankIx a) = true) (hp : s.memc.retPcs.getLsbD (pcOf a) = true) :
    Table.get (s.loseBanks.hbmDefault a) a s.loseBanks.hbm = Table.get (s.hbmDefault a) a s.hbm := by
  have hkey : bankKey a / 32 = bankIx a ∧ bankKey a % 32 = pcOf a := by
    have hp : pcOf a < 32 := Nat.mod_lt _ (by decide)
    unfold bankKey
    omega
  have hloss : Table.get 0 (bankKey a) s.loseBanks.losses = Table.get 0 (bankKey a) s.losses := by
    rw [State.loseBanks_losses]
    refine (Table.get_count_other s.memc.lostKeys hl fun hm => ?_).2
    unfold Memc.lostKeys at hm
    have hkept := (List.mem_filter.1 hm).2
    rw [hkey.1, hkey.2, hb, hp] at hkept
    cases hkept
  have hdefault : s.loseBanks.hbmDefault a = s.hbmDefault a := by
    unfold State.hbmDefault
    rw [hloss]
  rw [hdefault]
  exact Table.get_filter (fun a => s.memc.retBanks.getLsbD (bankIx a) && s.memc.retPcs.getLsbD (pcOf a)) hh (by rw [hb, hp]; rfl)

theorem State.setMemc_hbmDefault (x : Memc) (a : Nat) : (s.setMemc x).hbmDefault a = s.hbmDefault a := rfl

/-- The banks that have lost their contents: those not retained, where every pseudo-channel was. -/
def Memc.lostBanks (x : Memc) : Word := if x.retPcs = 0xFFFFFFFF then ~~~ x.retBanks else 0xFFFFFFFF
def Memc.lostPcs (x : Memc) : Word := if x.retBanks = 0xFFFFFFFF then ~~~ x.retPcs else 0xFFFFFFFF

/-- The registers in which a stack that has left partial retention shows its losses. -/
def State.lossShown (s : State) (x y : Word) : State :=
  ((s.wr .MEMC_LOST_BANK x).wr .MEMC_LOST_PC y).stick f_MEMC_EVENTS_lost

theorem State.lossShown_reads (hr : Table.rising s.regs = true) (x y : Word) : (s.lossShown x y).rd .MEMC_LOST_BANK = x ∧
    (s.lossShown x y).rd .MEMC_LOST_PC = y ∧ (s.lossShown x y).on f_MEMC_EVENTS_lost = true ∧
      ∀ r i, regAddr r i 0 ∉ [regAddr .MEMC_LOST_BANK 0 0, regAddr .MEMC_LOST_PC 0 0, regAddr .MEMC_EVENTS 0 0] → (s.lossShown x y).rd r i = s.rd r i := by
  have h1 : Table.rising (s.wr .MEMC_LOST_BANK x).regs = true := State.rising_wr hr _ _ _ _
  have h2 : Table.rising ((s.wr .MEMC_LOST_BANK x).wr .MEMC_LOST_PC y).regs = true := State.rising_wr h1 _ _ _ _
  refine ⟨(State.rd_wr_other h2 _ (by decide)).trans ((State.rd_wr_other h1 _ (by decide)).trans (State.rd_wr_same hr ..)),
    (State.rd_wr_other h2 _ (by decide)).trans (State.rd_wr_same h1 ..), State.on_stick h2 0 (by decide) (by decide), fun r i h => ?_⟩
  simp only [List.mem_cons, List.not_mem_nil, or_false, not_or] at h
  obtain ⟨hb, hp, he⟩ := h
  exact (State.rd_wr_other h2 _ he).trans ((State.rd_wr_other h1 _ hp).trans (State.rd_wr_other hr _ hb))

theorem State.leaveRetention_shows : s.leaveRetention =
    ((s.loseBanks.setMemc { s.memc with st := .service, srAt := none, srExit := none, idleAt := s.now }).lossShown
      (s.rd .MEMC_LOST_BANK ||| s.memc.lostBanks) (s.rd .MEMC_LOST_PC ||| s.memc.lostPcs)).memNotice 14 0 0 0 := rfl

end Retention

/-- Settles O44. -/
theorem partialRetention : Obligations.PartialRetention := by
  intro s t m v hcan hpow hans hsh
  obtain ⟨b, hb⟩ : ∃ b, s.begin t = b := ⟨_, rfl⟩
  have hcb : b.canonical := hb ▸ State.canonical_begin hcan t
  have hregs : Table.rising b.regs = true := hcb.fine.regs
  have hbanks : Table.rising b.memc.banks = true := hcb.fine.banks
  have hhbm : Table.rising b.hbm = true := Table.wf_rising hcb.fine.hbm
  have hloss : Table.rising b.losses = true := Table.wf_rising hcb.fine.losses
  rw [hb] at hsh ⊢
  obtain ⟨w, hw⟩ : ∃ w, w = b.prWritten := ⟨_, rfl⟩
  have hwrite : b.regWrite m .MEMC_PR_CTL 0 0 v none false = w.acted m .MEMC_PR_CTL 0 v none false := hw ▸ State.regWrite_prCtl hregs hsh
  have hwregs : Table.rising w.regs = true := hw ▸ State.rising_wr hregs _ _ _ _
  have halike : RegsAlike .MEMC_PR_CTL 0 b w := hw ▸ State.prWritten_alike hregs
  have hrefused : w.retentionRefused = b.retentionRefused := hw ▸ State.prWritten_refused hregs
  have hframe (l : List Part) (hl : .regs ∈ l) : OnlyChanges l b w := hw ▸ (OnlyChanges.refl l b).regs hl _
  have hrd (r : Reg) (h : regAddr r 0 0 ≠ regAddr .MEMC_PR_CTL 0 0) : w.rd r = b.rd r := hw ▸ State.prWritten_rd hregs h
  have hmemc : w.memc = b.memc := by rw [hw]; rfl
  have hnow : w.now = b.now := by rw [hw]; rfl
  have hflt : w.flt = b.flt := by rw [hw]; rfl
  refine ⟨fun hv hst hok => ?_, fun hv hst hno => ?_, fun hv hv' hst hag => ?_, fun hv _ hst => ?_, fun r x => ⟨⟨_, rfl⟩, ⟨_, rfl⟩⟩⟩
  · obtain ⟨B, hB, hclosed⟩ := State.precharge_closes (s := w) (hmemc ▸ hbanks)
    have henter := State.enterRetention_enters (s := w) (hmemc ▸ hst) (hrefused.trans hok)
    rw [hB, hrd .MEMC_PR_BANK (by decide), hrd .MEMC_PR_PC (by decide), hmemc] at henter
    have hne : w.memc.st ≠ .retention := by
      rw [hmemc]
      rcases hst with h | h <;> rw [h] <;> decide
    have he := hwrite.trans ((State.acted_enters hv hne (by rw [henter]; rfl)).trans henter)
    have hclosed' : ∀ k, Table.get Bank.reset k B = { b.bankOf k with row := none } := fun k => by
      rw [hclosed k]
      unfold State.bankOf
      rw [hmemc]
    have hframe' := (hframe [.regs, .memc, .resp] (by decide)).memc (by decide) { b.memc with
      banks := B, st := .retention, srAt := some w.now, srExit := none, retBanks := b.rd .MEMC_PR_BANK, retPcs := b.rd .MEMC_PR_PC }
    have hmem : ({ b.memc with banks := B, st := .retention, srAt := some w.now, srExit := none,
                               retBanks := b.rd .MEMC_PR_BANK, retPcs := b.rd .MEMC_PR_PC } : Memc) =
        { b.memc with banks := B, st := .retention, srAt := some b.now, srExit := none,
                      retBanks := b.rd .MEMC_PR_BANK, retPcs := b.rd .MEMC_PR_PC } := by rw [hnow]
    exact .registerWrite hb hpow hans rfl rfl he hframe' (by decide) ⟨rfl, halike, hclosed', hmem⟩
  · have hrefuse := State.enterRetention_refused (s := w) (hmemc ▸ hst) (by rw [hmemc, hrefused]; exact hno)
    have he := hwrite.trans (State.acted_refuses hv (by rw [hrefuse]; exact hmemc ▸ hst))
    rw [hrefuse] at he
    have hstick : Table.rising (w.stick f_MEMC_EVENTS_refused).regs = true := State.rising_stick hwregs _ _
    have hbit := State.on_stick hwregs (f := f_MEMC_EVENTS_refused) 0 (by decide) (by decide)
    have hlogs := (Logs.refl (w.stick f_MEMC_EVENTS_refused)).accessFault 0x004 1 .none m 2 (regAddr .MEMC_PR_CTL 0 0)
    refine .registerWrite hb hpow hans rfl rfl he (((hframe _ (by decide)).stick (by decide) _ _).accessFault (by decide) ..) (by decide)
      ⟨rfl, hlogs.on_events hstick rfl rfl hbit, w.stick f_MEMC_EVENTS_refused, hflt, hnow, rfl⟩
  · have he := hwrite.trans ((State.acted_exits hv hv' (hmemc ▸ hst)).trans State.leaveRetention_shows)
    rw [hrd .MEMC_LOST_BANK (by decide), hrd .MEMC_LOST_PC (by decide), hnow, hmemc] at he
    obtain ⟨u, hu⟩ : ∃ u, u = w.loseBanks.setMemc { b.memc with st := .service, srAt := none, srExit := none, idleAt := b.now } := ⟨_, rfl⟩
    have hur : u.regs = w.regs := by rw [hu]; rfl
    have hum : u.memc = { b.memc with st := .service, srAt := none, srExit := none, idleAt := b.now } := by rw [hu]; rfl
    have hue : u.evm = b.evm := by rw [hu, hw]; rfl
    obtain ⟨hbank, hpc, hbit, hother⟩ := State.lossShown_reads (s := u) (hur ▸ hwregs) (b.rd .MEMC_LOST_BANK ||| b.memc.lostBanks)
      (b.rd .MEMC_LOST_PC ||| b.memc.lostPcs)
    have hoff : (u.lossShown (b.rd .MEMC_LOST_BANK ||| b.memc.lostBanks) (b.rd .MEMC_LOST_PC ||| b.memc.lostPcs)).on f_QUE_AGENT_CTL_enable 28 = false := by
      have hw28 : w.rd .QUE_AGENT_CTL 28 = b.rd .QUE_AGENT_CTL 28 := hw ▸ State.prWritten_rd hregs (by decide)
      have hu28 : u.rd .QUE_AGENT_CTL 28 = w.rd .QUE_AGENT_CTL 28 := by
        unfold State.rd
        rw [hur]
      rw [← hag]
      unfold State.on State.fld
      rw [show f_QUE_AGENT_CTL_enable.reg = .QUE_AGENT_CTL from rfl, hother .QUE_AGENT_CTL 28 (by decide), hu28, hw28]
    have hframe' : OnlyChanges [.regs, .evm, .hbm, .losses, .memc, .resp] b u :=
      hu ▸ ((hframe [.regs, .evm, .hbm, .losses, .memc, .resp] (by decide)).then (State.keeps_loseBanks (Within.refl _) (Keeps.refl w)) (by decide)).memc
        (by decide) { b.memc with st := .service, srAt := none, srExit := none, idleAt := b.now }
    have hretained : ∀ a, b.memc.retBanks.getLsbD (bankIx a) = true → b.memc.retPcs.getLsbD (pcOf a) = true →
        Table.get (u.hbmDefault a) a u.hbm = Table.get (b.hbmDefault a) a b.hbm := by
      intro a h1 h2
      have hret := State.loseBanks_retained (s := w) (a := a) (hw ▸ hhbm) (hw ▸ hloss) (hmemc ▸ h1) (hmemc ▸ h2)
      rw [hu, State.setMemc_hbm, State.setMemc_hbmDefault, hret, hw]
      rfl
    rw [← hu, State.memNotice_off hoff] at he
    have hframe'' := ((hframe'.regs (by decide)
      (u.lossShown (b.rd .MEMC_LOST_BANK ||| b.memc.lostBanks) (b.rd .MEMC_LOST_PC ||| b.memc.lostPcs)).regs).evm (by decide)
        { u.evm with asserted := u.evm.asserted ++ [⟨2222, 0, none, 0⟩] })
    exact .registerWrite hb hpow hans rfl rfl he hframe'' (by decide)
      ⟨rfl, hum, hretained, hbank, hpc, hbit, by rw [← hue]; rfl⟩
  · exact .registerWrite hb hpow hans rfl rfl (hwrite.trans (State.acted_exits_not hv (hmemc ▸ hst))) (hframe _ (by decide)) (by decide) ⟨rfl, halike⟩

end Sys2Proof.Machine
end

section
/-!
PROOFS. Soft repairs and their records, background training and the change of the data rate (R254 to R256).
-/

namespace Sys2Proof.Machine

open Sys2Proof

section Rates
variable {s t : State} {k m i j : Nat} {r : Reg} {v w mask : Word}

/-! ## Records in the fuse array (R254) -/

theorem State.freePlace_of_fuses (h : t.fuses = s.fuses) (base : Nat) : t.freePlace base = s.freePlace base := by
  unfold State.freePlace State.fuseWord
  rw [h]

theorem State.fuseWord_of_fuses (h : t.fuses = s.fuses) (i : Nat) : t.fuseWord i = s.fuseWord i := by
  unfold State.fuseWord
  rw [h]

/-- A record burnt into a free place reads back, and no other fuse changes. -/
theorem State.burnRecord_reads (hr : Table.rising s.fuses = true) {base : Nat} (hk : s.freePlace base = some k) (w : Word) :
    (s.burnRecord base k w).fuseWord (base + 2 * k) = w ∧ (s.burnRecord base k w).fuseWord (base + 2 * k + 1) = fuseMarker ∧
      ∀ i, i ≠ base + 2 * k → i ≠ base + 2 * k + 1 → (s.burnRecord base k w).fuseWord i = s.fuseWord i := by
  have hfree : s.fuseWord (base + 2 * k) = 0 ∧ s.fuseWord (base + 2 * k + 1) = 0 :=
    of_decide_eq_true (List.find?_some (p := fun k => decide (s.fuseWord (base + 2 * k) = 0 ∧ s.fuseWord (base + 2 * k + 1) = 0)) hk)
  obtain ⟨h0, h1⟩ := hfree
  have hor (w : Word) : (0 : Word) ||| w = w := BitVec.zero_or
  have hzero {a b : Word} (h : a ||| b = 0) : a = 0 ∧ b = 0 := BitVec.or_eq_zero_iff.1 h
  obtain ⟨hf0, hg0⟩ := hzero h0
  obtain ⟨hf1, hg1⟩ := hzero h1
  have hrise : Table.rising (s.burnFuse (base + 2 * k) w).fuses = true := Table.rising_put hr
  have hput : Table.get 0 (base + 2 * k) (s.burnFuse (base + 2 * k) w).fuses = w :=
    (Table.get_put_same hr).trans (by rw [hg0, hor])
  have hnext : Table.get 0 (base + 2 * k + 1) (s.burnFuse (base + 2 * k) w).fuses = 0 := (Table.get_put_other (by omega) hr).trans hg1
  refine ⟨?_, ?_, fun i h h' => ?_⟩
  · unfold State.fuseWord
    rw [show Table.get 0 (base + 2 * k) (s.burnRecord base k w).fuses = w from (Table.get_put_other (by omega) hrise).trans hput, hf0, hor]
  · unfold State.fuseWord
    rw [show Table.get 0 (base + 2 * k + 1) (s.burnRecord base k w).fuses = fuseMarker from
      (Table.get_put_same hrise).trans (by rw [hnext, hor]), hf1, hor]
  · unfold State.fuseWord
    rw [show Table.get 0 i (s.burnRecord base k w).fuses = Table.get 0 i s.fuses from
      (Table.get_put_other h' hrise).trans (Table.get_put_other h hr)]

/-! ## Notices of the controller -/

/-- The controller's record changes, with a sticky bit and the notice of its source, agent 28 off. -/
def State.memMarked (s : State) (x : Memc) (f : Fld) (m : Nat) : State :=
  { (s.stick f) with memc := x, evm := { s.evm with asserted := s.evm.asserted ++ [⟨2208 + m, 0, none, 0⟩] } }

theorem State.marked_notice (hr : Table.rising s.regs = true) (h : s.on f_QUE_AGENT_CTL_enable 28 = false) (x : Memc) {f : Fld} (hf : f.reg = .MEMC_EVENTS)
    (m pc bank port : Nat) : ((s.setMemc x).stick f).memNotice m pc bank port = s.memMarked x f m := by
  have hoff : ((s.setMemc x).stick f).on f_QUE_AGENT_CTL_enable 28 = false :=
    (State.on_wr_other (s := s.setMemc x) hr (by rw [hf]; decide)).trans h
  exact State.memNotice_off hoff m pc bank port

/-- What a marked change of the record shows. -/
theorem State.memMarked_shows (hr : Table.rising s.regs = true) (x : Memc) {f : Fld} (hf : f.reg = .MEMC_EVENTS) (hlo : f.lo + f.len ≤ 32)
    (hlen : f.len ≠ 0) (m : Nat) : (s.memMarked x f m).on f = true ∧ Table.SameBut [regAddr .MEMC_EVENTS 0 0] s.regs (s.memMarked x f m).regs ∧
      OnlyChanges [.regs, .evm, .memc] s (s.memMarked x f m) :=
  ⟨State.on_stick hr 0 hlo hlen, hf ▸ State.sameBut_stick hr f 0,
    (((OnlyChanges.refl [.regs, .evm, .memc] s).stick (by decide) f 0).memc (by decide) x).evm (by decide)
      { s.evm with asserted := s.evm.asserted ++ [⟨2208 + m, 0, none, 0⟩] }⟩

/-! ## Repairs, rounds and rates -/

theorem State.repairEnds_none (h : (s.bankOf k).repair = none) : s.repairEnds k = s := by
  unfold State.repairEnds
  rw [h]

/-- The record of the controller once the soft repair of a row has completed. -/
def State.repairedMemc (s : State) (k row : Nat) : Memc :=
  { s.memc with banks := Table.put Bank.reset k { s.bankOf k with repair := none } s.memc.banks, soft := s.memc.soft + 1
                rowErrs := Table.put 0 (k * 16384 + row) 0 s.memc.rowErrs, repairs := s.memc.repairs ++ [(k, row)] }

theorem State.repairEnds_some {u row : Nat} (h : (s.bankOf k).repair = some (u, row)) : s.repairEnds k =
    (((s.setMemc (s.repairedMemc k row)).stick f_MEMC_EVENTS_ppr).memNotice 13 (k % 32) (k / 32) 0).recordRepairs := by
  unfold State.repairEnds State.softRepaired
  dsimp only
  rw [h]
  rfl

theorem State.recordRepairs_one {p : Nat} {e : Nat × Nat} (h : s.memc.repairs = [e]) (hp : s.freePlace 1984 = some p) :
    s.recordRepairs = (s.setMemc { s.memc with repairs := [] }).burnRecord 1984 p (BitVec.ofNat 32 (e.1 / 32 * 2 ^ 24 + e.1 % 32 * 2 ^ 16 + e.2)) := by
  have hp' : (s.setMemc { s.memc with repairs := [] }).freePlace 1984 = some p := (State.freePlace_of_fuses rfl _).trans hp
  unfold State.recordRepairs
  rw [h]
  unfold State.each
  rw [List.foldl_cons, List.foldl_nil]
  dsimp only
  rw [hp']

/-- What a rate that waits makes of the record once the gathering ends (R256). -/
theorem State.freqResume_resumes : s.freqResume =
    s.setMemc { s.memc with freqWait := none, trainRate := s.memc.freqWait, gathering := s.memc.freqWait.isNone } := by
  unfold State.freqResume
  cases h : s.memc.freqWait with
  | none =>
    exact congrArg s.setMemc (show ({ s.memc with trainRate := none, gathering := true } : Memc) =
      { s.memc with freqWait := none, trainRate := none, gathering := true } by rw [← h])
  | some r => rfl

theorem State.trainRound_rest (h : s.memc.st ≠ .service ∨ s.memc.trainRate ≠ none) : s.trainRound = s :=
  if_pos (h.imp_right Option.isSome_iff_ne_none.2)

theorem State.trainRound_done (hst : s.memc.st = .service) (ht : s.memc.trainRate = none) : s.trainRound =
    (((s.setMemc { s.memc with rounds := (s.memc.rounds + 1) % 65536, setNo := s.memc.setNo + 1 }).stick f_MEMC_EVENTS_train_done).memNotice
      11 0 0 0).freqResume := by
  unfold State.trainRound
  rw [if_neg (by rw [hst, ht]; simp)]

theorem State.freqSwitched_rest (h : s.memc.st ≠ .service ∧ s.memc.st ≠ .freqSwitch ∨ s.memc.trainRate = none) : s.freqSwitched = s := by
  unfold State.freqSwitched
  cases ht : s.memc.trainRate with
  | none => rfl
  | some r =>
    obtain ⟨h1, h2⟩ := h.resolve_right (by rw [ht]; exact Option.some_ne_none r)
    dsimp only
    split
    · next h => exact absurd h h1
    · next h => exact absurd h h2
    · rfl

theorem State.freqSwitched_begins {r : Nat} (ht : s.memc.trainRate = some r) (hst : s.memc.st = .service) :
    s.freqSwitched = s.precharge.setMemc { s.precharge.memc with st := .freqSwitch, switchAt := s.now } := by
  unfold State.freqSwitched
  rw [ht]
  dsimp only
  rw [hst]

theorem State.freqSwitched_ends {r : Nat} (ht : s.memc.trainRate = some r) (hst : s.memc.st = .freqSwitch) : s.freqSwitched = s.freqDone r := by
  unfold State.freqSwitched
  rw [ht]
  dsimp only
  rw [hst]

/-- The parameter sets of all pseudo-channels at number `n`. -/
def allSets (n : Nat) (t : Table Nat) : Table Nat := (List.range 32).foldl (fun l q => Table.put 0 q n l) t

theorem State.freqDone_switches (r : Nat) : s.freqDone r =
    (((s.setMemc { s.memc with st := .service, cur := r, setNo := s.memc.setNo + 1, sets := allSets (s.memc.setNo + 1) s.memc.sets, idleAt := s.now }).stick
      f_MEMC_EVENTS_freq_done).memNotice 12 0 0 0).freqResume := rfl

/-- A rate asked for while training data are gathered waits. -/
theorem State.freqWanted_waits {r : Nat} (h : s.memc.gathering = true ∨ s.memc.trainRate ≠ none) :
    s.freqWanted r = s.setMemc { s.memc with freqWait := some r } := if_pos (h.imp_right Option.isSome_iff_ne_none.2)

/-- Otherwise training at a new rate begins at once. -/
theorem State.freqWanted_begins {r : Nat} (hg : s.memc.gathering = false) (ht : s.memc.trainRate = none) :
    s.freqWanted r = s.setMemc (if r = s.memc.cur then s.memc else { s.memc with trainRate := some r }) := by
  unfold State.freqWanted
  dsimp only
  rw [if_neg (by rw [hg, ht]; simp)]
  split <;> rfl

/-! ## A write to MEMC_FREQ (R256) -/

/-- A write of a plain register's word that a rule refuses whole is a fault and leaves the word. -/
theorem State.writePlain_refused {code : Nat} {sc : Scope} (hwm : r ≠ .QUE_FELT_WM_STATUS) (hseq : r ≠ .CH_MEAS_SEQ)
    (hrwi : differs (s.rd r i j) v (rwiMask r) = false) (hbar : s.barred m r i v (s.rd r i j) = none) (href : s.refusals r i v = [(mask, code, sc)])
    (hdiff : differs (s.rd r i j) v (mask &&& rwMask r) = true) (hstored : stored r (s.rd r i j) v (0 ||| mask) = s.rd r i j) :
    s.writePlain m r i j v none false =
      (((s.writeFault code sc m (regAddr r i j)).wr r (s.rd r i j) i j).changed r i j none (s.rd r i j)).acted m r i v none false := by
  unfold State.writePlain
  simp only [hwm, if_false, hrwi, Bool.false_eq_true, hbar, href, List.filter_cons, hdiff, if_true, List.filter_nil, List.foldl_cons, List.foldl_nil,
    State.each, hstored, hseq, decide_false]
  rfl

theorem freqMasks : rwMask .MEMC_FREQ = maskOf 16 3 ∧ rwiMask .MEMC_FREQ = 0 ∧ w1cMask .MEMC_FREQ = 0 := by decide

theorem State.barred_freq (v old : Word) : s.barred m .MEMC_FREQ i v old = none := by
  unfold State.barred
  dsimp only
  split
  · rfl
  · exact if_neg fun h => absurd h.1 (by decide)

theorem differs_freq {old v : Word} (h : bits v 16 3 ≠ bits old 16 3) : differs old v (maskOf 16 3 &&& rwMask .MEMC_FREQ) = true := by
  by_contra hd
  have hand := differs_false_iff.1 (Bool.eq_false_iff.2 hd)
  exact h (bits_congr fun i hi => (getLsbD_of_and_eq hand (by interval_cases i <;> rfl)).symm)

theorem stored_freq_kept (old v : Word) : stored .MEMC_FREQ old v (0 ||| maskOf 16 3) = old := by
  refine BitVec.eq_of_getLsbD_eq fun k hk => ?_
  rw [stored_keep_getLsbD freqMasks.2.2 hk, freqMasks.1, show (0 : Word) ||| maskOf 16 3 = maskOf 16 3 from by decide]
  cases (maskOf 16 3).getLsbD k <;> rfl

variable (hsh : s.shielded (regAddr .MEMC_FREQ 0 0) = 0) (hne : bits v 16 3 ≠ s.fld f_MEMC_FREQ_req) (hr : Table.rising s.regs = true)
include hsh hne hr

/-- A reserved rate code is refused. -/
theorem State.regWrite_freq_refused (h : 4 < bits v 16 3) : s.regWrite m .MEMC_FREQ 0 0 v none false =
    (s.accessFault 0x004 1 .none m 2 (regAddr .MEMC_FREQ 0 0)).wr .MEMC_FREQ (s.rd .MEMC_FREQ) := by
  have href : s.refusals .MEMC_FREQ 0 v = [(maskOf 16 3, 0x004, .none)] := by
    unfold State.refusals
    simp [h]
  have hrise : Table.rising (s.writeFault 0x004 .none m (regAddr .MEMC_FREQ 0 0)).regs = true := ((Logs.refl s).accessFault ..).rising hr
  rw [State.regWrite_plain (by decide) hsh, State.writePlain_refused (by decide) (by decide) (by rw [freqMasks.2.1]; simp [differs])
    (State.barred_freq _ _) href (differs_freq hne) (stored_freq_kept _ _)]
  unfold State.changed
  rw [State.rd_wr_same hrise, if_pos rfl]
  rfl

/-- A new rate code is stored, and training at it starts or waits. -/
theorem State.regWrite_freq_taken (h : bits v 16 3 ≤ 4) : s.regWrite m .MEMC_FREQ 0 0 v none false =
    (s.wr .MEMC_FREQ (stored .MEMC_FREQ (s.rd .MEMC_FREQ) v 0)).freqWanted (bits v 16 3) := by
  have hbits : bits (stored .MEMC_FREQ (s.rd .MEMC_FREQ) v 0) 16 3 = bits v 16 3 := bits_stored _ _ (by decide)
  have hnew : stored .MEMC_FREQ (s.rd .MEMC_FREQ) v 0 ≠ s.rd .MEMC_FREQ := fun he => hne (by rw [← hbits, he]; rfl)
  have href : ∀ f ∈ s.refusals .MEMC_FREQ 0 v, f.1 = 0 := by
    unfold State.refusals
    simp [Nat.not_lt.2 h]
  rw [State.regWrite_plain (by decide) hsh, State.writePlain_taken (by decide) (by rw [freqMasks.2.1]; simp [differs]) (State.barred_freq _ _) href]
  unfold State.changed
  rw [State.rd_wr_same hr, if_neg hnew]
  dsimp only
  rw [hbits, if_neg fun he => hne he.symm]
  rfl

end Rates

/-- Settles O45. -/
theorem repairTrainingAndRate : Obligations.RepairTrainingAndRate := by
  intro s t m b0 q v hcan hpow hb0 hq
  obtain ⟨b, hb⟩ : ∃ b, s.begin t = b := ⟨_, rfl⟩
  have hcb : b.canonical := hb ▸ State.canonical_begin hcan t
  have hregs : Table.rising b.regs = true := hcb.fine.regs
  have hbanks : Table.rising b.memc.banks = true := hcb.fine.banks
  have hfuses : Table.rising b.fuses = true := Table.wf_rising hcb.fine.fuses
  have hok : isBank b0 q = true := by simp [isBank, hb0, hq]
  have hdiv : (b0 * 32 + q) / 32 = b0 := by omega
  have hmod : (b0 * 32 + q) % 32 = q := by omega
  rw [hb]
  refine ⟨fun u row hrep p hag hnone hp hrow => ?_, fun h => ?_, fun hag => ⟨fun hst ht => ?_, fun r ht => ⟨fun hst => ?_, fun hst => ?_⟩⟩,
    fun h => ?_, fun h => ?_, fun hans hsh hne => ⟨fun hle => ?_, fun hlt => ?_⟩, fun r w c hc => ?_⟩
  · obtain ⟨x, hx⟩ : ∃ x, x = b.memMarked (b.repairedMemc (b0 * 32 + q) row) f_MEMC_EVENTS_ppr 13 := ⟨_, rfl⟩
    have hxr : x.memc.repairs = [(b0 * 32 + q, row)] := by
      rw [hx]
      exact congrArg (· ++ [(b0 * 32 + q, row)]) hnone
    have hxf : x.fuses = b.fuses := by rw [hx]; rfl
    have hxp : x.freePlace 1984 = some p := (State.freePlace_of_fuses hxf _).trans hp
    have he := State.repairEnds_some hrep
    rw [State.marked_notice hregs hag _ rfl, ← hx, State.recordRepairs_one hxr hxp, hdiv, hmod] at he
    obtain ⟨hshow, hsame, hframe⟩ := hx ▸ State.memMarked_shows hregs (b.repairedMemc (b0 * 32 + q) row) (f := f_MEMC_EVENTS_ppr) rfl (by decide)
      (by decide) 13
    obtain ⟨hword, hmark, hothers⟩ := State.burnRecord_reads (s := x.setMemc { x.memc with repairs := [] }) (hxf ▸ hfuses) hxp
      (BitVec.ofNat 32 (b0 * 2 ^ 24 + q * 2 ^ 16 + row))
    have hmemc : ({ x.memc with repairs := [] } : Memc) =
        { b.memc with banks := x.memc.banks, rowErrs := x.memc.rowErrs, soft := b.memc.soft + 1 } := by
      rw [← hnone, hx]
      rfl
    have hevm : x.evm = { b.evm with asserted := b.evm.asserted ++ [⟨2221, 0, none, 0⟩] } := by rw [hx]; rfl
    have hbank : x.bankOf (b0 * 32 + q) = { b.bankOf (b0 * 32 + q) with repair := none } := by
      rw [hx]
      exact Table.get_put_same hbanks
    have hbanks' : Table.SameBut [b0 * 32 + q] b.memc.banks x.memc.banks := by
      rw [hx]
      exact .put hbanks _ _ _
    have hframe' : OnlyChanges [.regs, .evm, .memc, .fuses] b x := hframe.mono (by decide)
    exact .runs hb hpow rfl hok he ((hframe'.memc (by decide) { x.memc with repairs := [] }).fuses (by decide) _)
      ⟨hbank, hbanks', hmemc, hshow, hsame, hevm, hword, by rw [show 1985 + 2 * p = 1984 + 2 * p + 1 by omega]; exact hmark,
        fun i h h' => (hothers i h (by omega)).trans (State.fuseWord_of_fuses hxf i)⟩
  · exact .runs hb hpow rfl hok (State.repairEnds_none h) (OnlyChanges.refl _ _) trivial
  · have he := State.trainRound_done hst ht
    rw [State.marked_notice hregs hag _ rfl, State.freqResume_resumes] at he
    obtain ⟨hshow, hsame, hframe⟩ := State.memMarked_shows hregs { b.memc with rounds := (b.memc.rounds + 1) % 65536, setNo := b.memc.setNo + 1 }
      (f := f_MEMC_EVENTS_train_done) rfl (by decide) (by decide) 11
    exact .runs (ok := true) hb hpow rfl rfl he (hframe.memc (by decide) _) ⟨rfl, hshow, hsame, rfl⟩
  · obtain ⟨B, hB, hclosed⟩ := State.precharge_closes hbanks
    have he := State.freqSwitched_begins ht hst
    rw [hB] at he
    exact .runs (ok := true) hb hpow rfl rfl he
      ((OnlyChanges.refl [.memc] b).memc (by decide) { b.memc with banks := B, st := .freqSwitch, switchAt := b.now }) ⟨rfl, hclosed⟩
  · have he := (State.freqSwitched_ends ht hst).trans (State.freqDone_switches r)
    generalize allSets (b.memc.setNo + 1) b.memc.sets = sets at he
    rw [State.marked_notice hregs hag _ rfl, State.freqResume_resumes] at he
    obtain ⟨hshow, hsame, hframe⟩ := State.memMarked_shows hregs
      { b.memc with st := .service, cur := r, setNo := b.memc.setNo + 1, sets, idleAt := b.now }
      (f := f_MEMC_EVENTS_freq_done) rfl (by decide) (by decide) 12
    exact .runs (ok := true) hb hpow rfl rfl he (hframe.memc (by decide) _) ⟨rfl, hshow, hsame, rfl⟩
  · exact .runs (ok := true) hb hpow rfl rfl (State.trainRound_rest h) (OnlyChanges.refl _ _) trivial
  · exact .runs (ok := true) hb hpow rfl rfl (State.freqSwitched_rest h) (OnlyChanges.refl _ _) trivial
  · obtain ⟨w, hw⟩ : ∃ w, w = b.wr .MEMC_FREQ (stored .MEMC_FREQ (b.rd .MEMC_FREQ) v 0) := ⟨_, rfl⟩
    have he := State.regWrite_freq_taken (m := m) hsh hne hregs hle
    rw [← hw] at he
    have hframe : OnlyChanges [.regs, .memc, .resp] b w := hw ▸ (OnlyChanges.refl _ b).regs (by decide) _
    have hfld : w.fld f_MEMC_FREQ_req = bits v 16 3 := by
      rw [hw]
      exact (congrArg (fun w => bits w 16 3) (State.rd_wr_same hregs ..)).trans (bits_stored _ _ (by decide))
    have hsame : Table.SameBut [regAddr .MEMC_FREQ 0 0] b.regs w.regs := hw ▸ .put hregs _ _ _
    have hmemc : w.memc = b.memc := by rw [hw]; rfl
    by_cases hwait : b.memc.gathering = true ∨ b.memc.trainRate ≠ none
    · have hwait' := State.freqWanted_waits (s := w) (r := bits v 16 3) (hmemc ▸ hwait)
      rw [hmemc] at hwait'
      refine .registerWrite hb hpow hans rfl rfl (he.trans hwait') (hframe.memc (by decide) _) (by decide) ⟨rfl, hfld, hsame, fun _ => rfl, fun h1 h2 => ?_⟩
      rw [h1, h2] at hwait
      simp at hwait
    · obtain ⟨hg, ht⟩ := not_or.1 hwait
      have hbegin := State.freqWanted_begins (s := w) (r := bits v 16 3) (by rw [hmemc]; exact Bool.eq_false_iff.2 hg) (by rw [hmemc]; exact not_not.1 ht)
      rw [hmemc] at hbegin
      exact .registerWrite hb hpow hans rfl rfl (he.trans hbegin) (hframe.memc (by decide) _) (by decide)
        ⟨rfl, hfld, hsame, fun h => absurd h hwait, fun _ _ => rfl⟩
  · have hrise : Table.rising (b.accessFault 0x004 1 .none m 2 (regAddr .MEMC_FREQ 0 0)).regs = true := ((Logs.refl b).accessFault ..).rising hregs
    have hkept := State.rd_wr_same (r := .MEMC_FREQ) (i := 0) (j := 0) hrise (b.rd .MEMC_FREQ)
    exact .registerWrite hb hpow hans rfl rfl (State.regWrite_freq_refused hsh hne hregs hlt)
      (((OnlyChanges.refl _ b).accessFault (by decide) ..).regs (by decide) _) (by decide)
      ⟨rfl, congrArg (fun w => bits w 16 3) hkept, rfl⟩
  · simp only [List.mem_cons, List.not_mem_nil, or_false] at hc
    obtain rfl | rfl | rfl | rfl := hc
    · exact ⟨s.act t fun s => s.repairEnds (b0 * 32 + q), by
        rw [show exec (.softRepairComplete t b0 q) s = outIf (isBank b0 q) (s.act t fun s => s.repairEnds (b0 * 32 + q)) from rfl, hok]; rfl⟩
    · exact ⟨_, rfl⟩
    · exact ⟨_, rfl⟩
    · exact ⟨_, rfl⟩

end Sys2Proof.Machine
end

section
/-!
PROOFS. Rules of a web port's record: what its successive values, its entries to states and the flits it is given make of it.
-/

namespace Sys2Proof.Machine

open Sys2Proof

section Ports
variable {s : State} {p : Nat} {x y : Port}

/-! ## One port's record -/

theorem State.setPort_portOf (hr : Table.rising s.web.ports = true) : (s.setPort p x).portOf p = x := Table.get_put_same hr

theorem State.setPort_setPort (hr : Table.rising s.web.ports = true) : (s.setPort p x).setPort p y = s.setPort p y := by
  have hput : Table.put Port.reset p y (Table.put Port.reset p x s.web.ports) = Table.put Port.reset p y s.web.ports := Table.put_put hr
  unfold State.setPort
  dsimp only
  rw [hput]

theorem State.rising_setPort (hr : Table.rising s.web.ports = true) : Table.rising (s.setPort p x).web.ports = true := Table.rising_put hr

theorem State.sameBut_setPort (hr : Table.rising s.web.ports = true) : Table.SameBut [p] s.web.ports (s.setPort p x).web.ports := .put hr _ _ _

theorem OnlyChanges.setPort {l : List Part} {b e : State} (h : OnlyChanges l b e) (hl : .web ∈ l) (p : Nat) (x : Port) : OnlyChanges l b (e.setPort p x) :=
  h.web hl _

theorem State.enterPort_setPort (hr : Table.rising s.web.ports = true) (st : PortState) :
    (s.setPort p x).enterPort p st = s.setPort p { x with st, since := s.now } := by
  unfold State.enterPort
  rw [State.setPort_portOf hr, State.setPort_setPort hr]
  rfl

theorem State.sendOn_setPort (hr : Table.rising s.web.ports = true) (f : Flit) : (s.setPort p x).sendOn p f = s.setPort p (x.enqueue f) := by
  unfold State.sendOn
  rw [State.setPort_portOf hr, State.setPort_setPort hr]

theorem State.portAligned_enters (hr : Table.rising s.web.ports = true) (count : Nat) (st : PortState) :
    (s.portAligned p count).enterPort p st =
      s.setPort p { s.portOf p with txCode := ⟨0, []⟩, rxCode := ⟨count % 65536, 0, false, false⟩, st, since := s.now } :=
  State.enterPort_setPort hr st

/-- A message to the peer depends on the port's peer alone. -/
theorem State.linkParam_setPort (hr : Table.rising s.web.ports = true) (h : x.peerNode = (s.portOf p).peerNode) (code : Nat) (args : List Nat) :
    (s.setPort p x).linkParam p code args = s.linkParam p code args := by
  unfold State.linkParam
  rw [State.setPort_portOf hr, h]
  rfl

/-! ## Guards of a command -/

theorem State.inPort_in {st : PortState} (g : State → State) (hd : s.domainOn (40 + p) = true) (h : (s.portOf p).st = st) : s.inPort p st g = g s :=
  if_pos ⟨hd, h⟩

theorem State.inPort_out {st : PortState} (g : State → State) (h : (s.portOf p).st ≠ st) : s.inPort p st g = s := if_neg fun hn => h hn.2

theorem State.inPortWithin_in {st : PortState} {w : Nat} (g : State → State) (hd : s.domainOn (40 + p) = true) (h : (s.portOf p).st = st)
    (hw : s.now ≤ (s.portOf p).since + w) : s.inPortWithin p st w g = g s := (State.inPort_in _ hd h).trans (if_pos hw)

theorem State.inPortWithin_late {st : PortState} {w : Nat} (g : State → State) (hw : (s.portOf p).since + w < s.now) : s.inPortWithin p st w g = s := by
  unfold State.inPortWithin State.inPort
  split
  · exact if_neg (Nat.not_le.2 hw)
  · rfl

theorem State.portTime_passed {w : Nat} (h : (s.portOf p).since + w ≤ s.now) : s.portTime p w = true := decide_eq_true h

theorem State.portTime_early {w : Nat} (h : s.now < (s.portOf p).since + w) : s.portTime p w = false := decide_eq_false (Nat.not_le.2 h)

theorem isPort_of (h : p < 4) : isPort p = true := decide_eq_true h

/-! ## Rates (R282) -/

theorem State.rateResume_none (h : (s.portOf p).rateWait = none) : s.rateResume p = s := by
  unfold State.rateResume
  dsimp only
  rw [h]

theorem State.rateResume_asks {r : Nat} (hr : Table.rising s.web.ports = true) (h : (s.portOf p).rateWait = some r)
    (ht : (s.portOf p).training = false) :
    s.rateResume p = s.setPort p { s.portOf p with rateWait := none, rateAsked := some r, qLocal := (s.portOf p).qLocal ++ [s.linkParam p 5 [r]] } := by
  unfold State.rateResume
  dsimp only
  rw [h]
  dsimp only
  rw [ht, if_neg Bool.false_ne_true, State.sendOn_setPort hr]
  rfl

/-! ## Registers of the web -/

/-- The way of a fault into the log does not touch the registers of the web. -/
theorem not_faultAddr_web {a : Nat} (h1 : 0x800500000 ≤ a) (h2 : a < 0x800600000) : ¬ faultAddr a := by
  rintro (h' | h' | h' | h' | h' | ⟨f, hf, h'⟩ | ⟨f, hf, h'⟩ | h') <;> simp only [regAddr, regRow, blkBase] at h' <;> omega

end Ports

end Sys2Proof.Machine
end

section
/-!
PROOFS. The states of a web port (R262, R264, R269, R270, Table 9-3).
-/

namespace Sys2Proof.Machine

open Sys2Proof

section Entries
variable {s t : State} {p m : Nat} {x : Port} {v : Word}

/-! ## Entries to FAILED, RETRAIN and ACTIVE -/

theorem State.portOf_of_web (h : t.web = s.web) : t.portOf p = s.portOf p := by
  unfold State.portOf
  rw [h]

/-- What a port holds once it has failed (R269). -/
def Port.failed (x : Port) (now : Nat) : Port := { x.emptied with st := .failed, since := now, granted := false, rateNew := none, rateAsked := none }

/-- The state of a failed port before its fault is logged. -/
def State.downed (s : State) (p : Nat) : State :=
  ((s.tally f_WEB_PORT_RETRAIN_discarded (s.portOf p).held p).setPort p ((s.portOf p).failed s.now)).stick f_WEB_EVENTS_port_down

theorem State.portFailed_downs : s.portFailed p = (s.downed p).fault 0x706 2 (.port p) (webMaster p) := rfl

/-- The state of a port that retrains before its fault is logged. -/
def State.retrained (s : State) (p : Nat) : State :=
  ((s.setPort p { s.portOf p with st := .retrain, since := s.now }).stick f_WEB_EVENTS_retrain).tally f_WEB_PORT_RETRAIN_count 1 p

theorem State.portRetrain_retrains : s.portRetrain p = (s.retrained p).fault 0x700 1 (.port p) (webMaster p) := rfl

theorem regAddr_retrain_ne_events : regAddr .WEB_PORT_RETRAIN p 0 ≠ regAddr .WEB_EVENTS 0 0 := by
  simp only [regAddr, regRow, blkBase]
  omega

theorem not_faultAddr_retrain (hp : p < 4) : ¬ faultAddr (regAddr .WEB_PORT_RETRAIN p 0) :=
  not_faultAddr_web (by simp only [regAddr, regRow, blkBase]; omega) (by simp only [regAddr, regRow, blkBase]; omega)

theorem not_faultAddr_webEvents : ¬ faultAddr (regAddr .WEB_EVENTS 0 0) := not_faultAddr_web (by decide) (by decide)

/-- A count of a port saturates at its field's 16 bits. -/
theorem State.fld_tally_by (h : Table.rising s.regs = true) {f : Fld} (n i : Nat) (hlen : f.len = 16) (g : f.lo + f.len ≤ 32) :
    (s.tally f n i).fld f i = min 0xFFFF (s.fld f i + n) := by
  have hcount := State.fld_tally h n i g
  rw [hlen] at hcount
  exact hcount

theorem State.downed_rising (hr : Table.rising s.regs = true) : Table.rising (s.downed p).regs = true :=
  State.rising_stick (s := (s.tally f_WEB_PORT_RETRAIN_discarded (s.portOf p).held p).setPort p ((s.portOf p).failed s.now))
    (State.rising_tally hr _ _ _) _ _

/-- A port that fails shows it, and counts what it held. -/
theorem State.downed_shows (hr : Table.rising s.regs = true) : (s.downed p).on f_WEB_EVENTS_port_down = true ∧
    (s.downed p).fld f_WEB_PORT_RETRAIN_discarded p = min 0xFFFF (s.fld f_WEB_PORT_RETRAIN_discarded p + (s.portOf p).held) := by
  obtain ⟨u, hu⟩ : ∃ u, u = s.tally f_WEB_PORT_RETRAIN_discarded (s.portOf p).held p := ⟨_, rfl⟩
  have hur : Table.rising u.regs = true := hu ▸ State.rising_tally hr _ _ _
  have hcount : u.fld f_WEB_PORT_RETRAIN_discarded p = min 0xFFFF (s.fld f_WEB_PORT_RETRAIN_discarded p + (s.portOf p).held) :=
    hu ▸ State.fld_tally_by hr _ _ rfl (by decide)
  unfold State.downed
  rw [← hu]
  exact ⟨State.on_stick (s := u.setPort p _) hur 0 (by decide) (by decide),
    (State.fld_wr_other (s := u.setPort p _) hur regAddr_retrain_ne_events).trans hcount⟩

/-- A port that fails changes in its own record alone. -/
theorem State.portFailed_port (hw : Table.rising s.web.ports = true) : (s.portFailed p).portOf p = (s.portOf p).failed s.now ∧
    Table.SameBut [p] s.web.ports (s.portFailed p).web.ports ∧ (s.portFailed p).web.serving = s.web.serving := by
  have hweb : (s.portFailed p).web = (s.setPort p ((s.portOf p).failed s.now)).web :=
    (congrArg State.web State.portFailed_downs).trans (State.fault_web ..)
  refine ⟨(State.portOf_of_web hweb).trans (State.setPort_portOf hw), ?_, (congrArg Web.serving hweb).trans rfl⟩
  rw [hweb]
  exact State.sameBut_setPort hw

theorem State.portFailed_shows (hr : Table.rising s.regs = true) (hp : p < 4) : (s.portFailed p).on f_WEB_EVENTS_port_down = true ∧
    (s.portFailed p).fld f_WEB_PORT_RETRAIN_discarded p = min 0xFFFF (s.fld f_WEB_PORT_RETRAIN_discarded p + (s.portOf p).held) := by
  obtain ⟨hdown, hcount⟩ := State.downed_shows (p := p) hr
  have hlogs : Logs (s.downed p) (s.portFailed p) := (Logs.refl (s.downed p)).fault 0x706 2 (.port p) (webMaster p)
  exact ⟨(hlogs.on (State.downed_rising hr) not_faultAddr_webEvents).trans hdown,
    (hlogs.fld (State.downed_rising hr) (not_faultAddr_retrain hp)).trans hcount⟩

/-- A port that retrains keeps what it holds, shows it and counts it. -/
theorem State.portRetrain_shows (hr : Table.rising s.regs = true) (hw : Table.rising s.web.ports = true) (hp : p < 4) :
    (s.portRetrain p).portOf p = { s.portOf p with st := .retrain, since := s.now } ∧ Table.SameBut [p] s.web.ports (s.portRetrain p).web.ports ∧
      (s.portRetrain p).web.serving = s.web.serving ∧ (s.portRetrain p).on f_WEB_EVENTS_retrain = true ∧
      (s.portRetrain p).fld f_WEB_PORT_RETRAIN_count p = min 0xFFFF (s.fld f_WEB_PORT_RETRAIN_count p + 1) := by
  obtain ⟨u, hu⟩ : ∃ u, u = s.setPort p { s.portOf p with st := .retrain, since := s.now } := ⟨_, rfl⟩
  have hur : Table.rising u.regs = true := hu ▸ hr
  have hstick : Table.rising (u.stick f_WEB_EVENTS_retrain).regs = true := State.rising_stick hur _ _
  have hq : s.retrained p = (u.stick f_WEB_EVENTS_retrain).tally f_WEB_PORT_RETRAIN_count 1 p := by rw [hu]; rfl
  have hrise : Table.rising (s.retrained p).regs = true := hq ▸ State.rising_tally hstick _ _ _
  have hlogs : Logs (s.retrained p) (s.portRetrain p) := (Logs.refl (s.retrained p)).fault 0x700 1 (.port p) (webMaster p)
  have hbit : (s.retrained p).on f_WEB_EVENTS_retrain = true := by
    rw [hq]
    exact (State.on_wr_other hstick regAddr_retrain_ne_events.symm).trans (State.on_stick hur 0 (by decide) (by decide))
  have hcount : (s.retrained p).fld f_WEB_PORT_RETRAIN_count p = min 0xFFFF (s.fld f_WEB_PORT_RETRAIN_count p + 1) := by
    have hsame : (u.stick f_WEB_EVENTS_retrain).fld f_WEB_PORT_RETRAIN_count p = s.fld f_WEB_PORT_RETRAIN_count p :=
      (State.fld_wr_other hur regAddr_retrain_ne_events).trans (by rw [hu]; rfl)
    rw [hq, State.fld_tally_half hstick p rfl (by decide), hsame]
  have hweb : (s.portRetrain p).web = u.web := by
    rw [State.portRetrain_retrains, State.fault_web, hq]
    rfl
  refine ⟨?_, ?_, ?_, (hlogs.on hrise not_faultAddr_webEvents).trans hbit, (hlogs.fld hrise (not_faultAddr_retrain hp)).trans hcount⟩
  · rw [State.portOf_of_web hweb, hu]
    exact State.setPort_portOf hw
  · rw [hweb, hu]
    exact State.sameBut_setPort hw
  · rw [hweb, hu]
    rfl

/-- A port that has been ACTIVE before comes up with the flits to be sent again (R268). -/
theorem State.portUp_again (hw : Table.rising s.web.ports = true) (h : x.granted = true) :
    (s.setPort p x).portUp p = (s.setPort p { x with again := x.replay.length, tries := 0, sentAt := x.sentAt.map fun _ => s.now
                                                     st := .active, since := s.now }).clearCondition 0x706 (.port p) none := by
  unfold State.portUp
  rw [State.setPort_portOf hw]
  dsimp only
  rw [h]
  simp only [if_true]
  exact congrArg (fun u => State.clearCondition u 0x706 (.port p) none) (State.setPort_setPort hw)

/-- A port that comes up for the first time begins with numbers and credits afresh (R270). -/
def Port.fresh (x : Port) (now : Nat) : Port :=
  { x.emptied with st := .active, since := now, granted := true, txSeq := 0, rxSeq := 0, skipping := false, nakDue := false, credits := fullCredits
                   giveBack := [], streamWait := 0, qLocal := x.qLocal }

theorem State.portUp_first (hw : Table.rising s.web.ports = true) (h : x.granted = false) : (s.setPort p x).portUp p =
    (State.setPort { s with web := { s.web with waiting := s.web.waiting.map fun e => if e.1 = p then (4, e.2) else e } } p
      (x.fresh s.now)).clearCondition 0x706 (.port p) none := by
  unfold State.portUp
  rw [State.setPort_portOf hw]
  dsimp only
  rw [h]
  simp only [Bool.false_eq_true, if_false]
  exact congrArg (fun u => State.clearCondition u 0x706 (.port p) none)
    (State.setPort_setPort (s := { s with web := { s.web with waiting := s.web.waiting.map fun e => if e.1 = p then (4, e.2) else e } }) hw)

/-! ## Lanes come into service (R279) -/

/-- A lane's item does not touch the web's record. -/
theorem State.laneHealth_web (l : Nat) (v : Lane) : (s.laneHealth p l v).web = (s.setPort p ((s.portOf p).setLane l v)).web := by
  unfold State.laneHealth
  dsimp only
  split
  · rfl
  · exact (State.keeps_eyeItem (Within.refl _) (Keeps.refl _) p l).web rfl

theorem Port.setLane_good (l j : Nat) : (x.setLane l { Lane.reset with health := .good }).lane j =
    if j = l then { Lane.reset with health := .good } else x.lane j := by
  have hput : Table.put Lane.reset l { Lane.reset with health := .good } x.lanes = Table.insert l { Lane.reset with health := .good } x.lanes :=
    if_neg (by decide)
  unfold Port.lane Port.setLane
  rw [hput]
  split
  · next h => exact h ▸ Table.get_insert_same _
  · next h => exact Table.get_insert_other h

/-- A lane that carries a logical one comes into service, GOOD where it was off. -/
def Port.lit (x : Port) (l : Nat) : Port :=
  if (x.logical l).isSome ∧ (x.lane l).health = .off then x.setLane l { Lane.reset with health := .good } else x

theorem Port.lit_only (l : Nat) : ∃ T, x.lit l = { x with lanes := T } := by
  unfold Port.lit
  split
  · exact ⟨_, rfl⟩
  · exact ⟨x.lanes, rfl⟩

theorem Port.lits_only : ∀ (l : List Nat) {x : Port}, ∃ T, l.foldl Port.lit x = { x with lanes := T }
  | [], x => ⟨x.lanes, rfl⟩
  | k :: l, x => by
    obtain ⟨T, hT⟩ := x.lit_only k
    obtain ⟨U, hU⟩ := Port.lits_only l (x := x.lit k)
    exact ⟨U, hU.trans (by rw [hT])⟩

/-- The health that lane `j` takes when it comes into service. -/
def Port.litHealth (x : Port) (j : Nat) : Health := if (x.lane j).health = .off then .good else (x.lane j).health

theorem Port.lit_health (l j : Nat) (h : (x.logical j).isSome = true) : ((x.lit l).logical j).isSome = true ∧
    ((x.lit l).lane j).health = if j = l then x.litHealth j else (x.lane j).health := by
  obtain ⟨T, hT⟩ := x.lit_only l
  refine ⟨by rw [hT]; exact h, ?_⟩
  unfold Port.lit Port.litHealth
  by_cases hoff : (x.lane l).health = .off
  · by_cases hl : (x.logical l).isSome = true
    · rw [if_pos ⟨hl, hoff⟩, Port.setLane_good]
      by_cases hj : j = l
      · rw [if_pos hj, if_pos hj, hj, if_pos hoff]
      · rw [if_neg hj, if_neg hj]
    · have hj : j ≠ l := fun hj => hl (hj ▸ h)
      rw [if_neg (fun hn => hl hn.1), if_neg hj]
  · rw [if_neg (fun hn => hoff hn.2)]
    by_cases hj : j = l
    · rw [if_pos hj, hj, if_neg hoff]
    · rw [if_neg hj]

theorem Port.lits_health : ∀ (l : List Nat) {x : Port} {j : Nat}, (x.logical j).isSome = true →
    ((l.foldl Port.lit x).lane j).health = if j ∈ l then x.litHealth j else (x.lane j).health
  | [], x, j, _ => by simp
  | k :: l, x, j, h => by
    obtain ⟨hsome, hhealth⟩ := Port.lit_health (x := x) k j h
    rw [List.foldl_cons, Port.lits_health l hsome]
    unfold Port.litHealth at *
    rw [hhealth]
    by_cases hj : j = k
    · by_cases hoff : (x.lane j).health = .off <;> simp [hj, hj ▸ hoff]
    · simp [hj]

/-- Powering the lanes of a port changes its own record alone. -/
theorem State.each_lit : ∀ (l : List Nat) {s : State}, Table.rising s.web.ports = true → ∃ e, e = (s.each l fun l s =>
      let x := s.portOf p
      if (x.logical l).isSome ∧ (x.lane l).health = .off then s.laneHealth p l { Lane.reset with health := .good } else s) ∧
    e.portOf p = l.foldl Port.lit (s.portOf p) ∧ Table.SameBut [p] s.web.ports e.web.ports ∧ e.web.serving = s.web.serving ∧
    Table.rising e.web.ports = true
  | [], s, hw => ⟨s, rfl, rfl, .refl _ _, rfl, hw⟩
  | k :: l, s, hw => by
    obtain ⟨u, hu⟩ : ∃ u, u = if ((s.portOf p).logical k).isSome ∧ ((s.portOf p).lane k).health = .off then
        s.laneHealth p k { Lane.reset with health := .good } else s := ⟨_, rfl⟩
    have hport : u.portOf p = (s.portOf p).lit k ∧ Table.SameBut [p] s.web.ports u.web.ports ∧ u.web.serving = s.web.serving ∧
        Table.rising u.web.ports = true := by
      rw [hu]
      unfold Port.lit
      split
      · have hweb := State.laneHealth_web (s := s) (p := p) k { Lane.reset with health := .good }
        rw [State.portOf_of_web hweb, hweb]
        exact ⟨State.setPort_portOf hw, State.sameBut_setPort hw, rfl, State.rising_setPort hw⟩
      · exact ⟨rfl, .refl _ _, rfl, hw⟩
    obtain ⟨h1, h2, h3, h4⟩ := hport
    obtain ⟨e, he, g1, g2, g3, g4⟩ := State.each_lit l h4
    refine ⟨e, he.trans (by rw [hu]; rfl), ?_, h2.trans g2, g3.trans h3, g4⟩
    rw [g1, h1, List.foldl_cons]

/-! ## Writes to WEB_PORT_CTL (R8, R350) -/

theorem portCtlMasks : (accMask .WEB_PORT_CTL fun a => a == .rw || a == .rwi) = 0xC0003FFF ∧ rwiMask .WEB_PORT_CTL = 0xC0003FFF ∧
    rwMask .WEB_PORT_CTL = 0 ∧ w1cMask .WEB_PORT_CTL = 0 := by decide

/-- The word that a direct write leaves. -/
def portWord (old v : Word) : Word := (old &&& ~~~ 0xC0003FFF) ||| (v &&& 0xC0003FFF)

theorem bit_portWord (old v : Word) : bit (portWord old v) 31 = bit v 31 := by
  unfold bit portWord
  rw [BitVec.getLsbD_or, BitVec.getLsbD_and, BitVec.getLsbD_and, show (0xC0003FFF : Word).getLsbD 31 = true from rfl,
    show (~~~ (0xC0003FFF : Word)).getLsbD 31 = false from rfl, Bool.and_false, Bool.false_or, Bool.and_true]

/-- The loader's or an amendment's write of the enable bit starts or disables the port. -/
theorem State.loadReg_portCtl (hr : Table.rising s.regs = true) (h : bit v 31 ≠ s.on f_WEB_PORT_CTL_enable p) :
    s.loadReg m .WEB_PORT_CTL p 0 v =
      if bit v 31 then (s.wr .WEB_PORT_CTL (portWord (s.rd .WEB_PORT_CTL p) v) p).portStart p
      else (s.wr .WEB_PORT_CTL (portWord (s.rd .WEB_PORT_CTL p) v) p).portDisabled p := by
  have hold : s.on f_WEB_PORT_CTL_enable p = bit (s.rd .WEB_PORT_CTL p) 31 := State.on_eq_bit f_WEB_PORT_CTL_enable p 0 rfl
  have hne : portWord (s.rd .WEB_PORT_CTL p) v ≠ s.rd .WEB_PORT_CTL p := fun he => h (by rw [hold, ← bit_portWord (s.rd .WEB_PORT_CTL p) v, he])
  have hbit : ¬ bit (s.rd .WEB_PORT_CTL p) 31 = bit (portWord (s.rd .WEB_PORT_CTL p) v) 31 := by
    rw [bit_portWord, ← hold]
    exact fun he => h he.symm
  unfold State.loadReg State.feltGuard
  dsimp only
  rw [if_pos rfl, unshielded]
  unfold State.loadWord
  dsimp only
  rw [portCtlMasks.1]
  show State.changed (s.wr .WEB_PORT_CTL (portWord (s.rd .WEB_PORT_CTL p) v) p) .WEB_PORT_CTL p 0 none (s.rd .WEB_PORT_CTL p) = _
  unfold State.changed
  rw [State.rd_wr_same hr, if_neg hne]
  dsimp only
  rw [if_neg hbit, bit_portWord]

/-- Another requester's write that names RWI bits is refused (R8). -/
theorem State.regWrite_portCtl_refused (hr : Table.rising s.regs = true) (hsh : s.shielded (regAddr .WEB_PORT_CTL p 0) = 0)
    (h : (v ^^^ s.rd .WEB_PORT_CTL p) &&& 0xC0003FFF ≠ 0) : s.regWrite m .WEB_PORT_CTL p 0 v none false =
      (s.accessFault 0x001 1 .none m 2 (regAddr .WEB_PORT_CTL p 0)).wr .WEB_PORT_CTL (s.rd .WEB_PORT_CTL p) p := by
  obtain ⟨-, hrwi, hrw, hw1c⟩ := portCtlMasks
  have hdiff : differs (s.rd .WEB_PORT_CTL p) v (rwiMask .WEB_PORT_CTL) = true := by
    rw [hrwi]
    refine decide_eq_true ?_
    rw [BitVec.xor_comm]
    exact h
  have hstored : stored .WEB_PORT_CTL (s.rd .WEB_PORT_CTL p) v 0 = s.rd .WEB_PORT_CTL p := by
    refine BitVec.eq_of_getLsbD_eq fun k hk => ?_
    rw [stored_getLsbD, hrw, hw1c]
    simp
  obtain ⟨w, hw⟩ : ∃ w, w = s.accessFault 0x001 1 .none m 2 (regAddr .WEB_PORT_CTL p 0) := ⟨_, rfl⟩
  have hrise : Table.rising w.regs = true := hw ▸ ((Logs.refl s).accessFault ..).rising hr
  have hbar : w.barred m .WEB_PORT_CTL p v (s.rd .WEB_PORT_CTL p) = none := by
    unfold State.barred
    dsimp only
    split
    · rfl
    · exact if_neg fun h => absurd h.1 (by decide)
  have hfault : s.writeFault 0x001 .none m (regAddr .WEB_PORT_CTL p 0) = w := hw.symm
  rw [State.regWrite_plain (by decide) hsh, ← hw]
  unfold State.writePlain
  simp only [reduceCtorEq, if_false, hdiff, if_true, hfault, hbar]
  show State.changed (w.wr .WEB_PORT_CTL (stored .WEB_PORT_CTL (s.rd .WEB_PORT_CTL p) v 0) p) .WEB_PORT_CTL p 0 none (s.rd .WEB_PORT_CTL p) = _
  rw [hstored]
  unfold State.changed
  rw [State.rd_wr_same hrise, if_pos rfl]

theorem State.portStart_starts (hd : s.domainOn (40 + p) = true) (hrails : s.webRails = true) (hon : s.on f_WEB_PORT_CTL_enable p = true)
    (hst : (s.portOf p).st = .disabled) : s.portStart p = s.setPort p { s.portOf p with st := .detect, since := s.now } :=
  if_pos ⟨hd, hrails, hon, hst⟩

theorem State.portCtl_loads (h : m = 0x1010 ∨ m = 0x1011) : s.portCtl m p v = s.loadReg m .WEB_PORT_CTL p 0 v := if_pos h

theorem State.portCtl_accesses (h1 : m ≠ 0x1010) (h2 : m ≠ 0x1011) : s.portCtl m p v = s.accessReg m .WEB_PORT_CTL p 0 v none false :=
  if_neg (not_or.2 ⟨h1, h2⟩)

/-- A disabled port's record (R262). -/
def State.portOffOf (s : State) (p : Nat) : Port :=
  { (s.portOf p).emptied with st := .disabled, since := s.now, granted := false, peerValid := false, rx0 := 3, rx1 := 3, tx0 := 3, tx1 := 3
                              rateWait := none, rateNew := none, rateAsked := none }

theorem State.accessReg_answered {r : Reg} {i j : Nat} {codes : Option (List Int)} {bad : Bool} (h : s.answers m = true) :
    s.accessReg m r i j v codes bad = { s.regWrite m r i j v codes bad with resp := ⟨m, false, 0⟩ } := by
  unfold State.accessReg
  rw [State.access_of_answers h]
  rfl

/-- A port that is aligned sends a link-local flit from PARAM. -/
theorem State.aligned_hello {f : Flit} (count : Nat) (hw : Table.rising s.web.ports = true) (hf : flitClass f.type = .linkLocal) :
    ((s.portAligned p count).enterPort p .param).sendOn p f = s.setPort p { s.portOf p with
      txCode := ⟨0, []⟩, rxCode := ⟨count % 65536, 0, false, false⟩, st := .param, since := s.now, qLocal := (s.portOf p).qLocal ++ [f] } := by
  rw [State.portAligned_enters hw, State.sendOn_setPort hw]
  unfold Port.enqueue
  rw [hf]

theorem State.inPortWithin_idle {st : PortState} {w : Nat} (g : State → State) (h : g s = s) : s.inPortWithin p st w g = s := by
  unfold State.inPortWithin State.inPort
  split
  · dsimp only
    rw [h, ite_self]
  · rfl

/-- In PARAM the peer check decides what the peer's HELLO does (R264, R269). -/
theorem State.takeHello_param {node port : Nat} (hd : s.domainOn (40 + p) = true) (hst : (s.portOf p).st = .param) :
    s.takeHello p node port =
      if (s.on f_WEB_PORT_CTL_check_peer p && (decide (node ≠ s.fld f_WEB_PORT_CTL_peer_node p) || decide (port ≠ s.fld f_WEB_PORT_CTL_peer_port p))) then
        (((s.setPort p { s.portOf p with peerNode := node, peerPort := port, peerValid := true }).stick f_WEB_EVENTS_peer_mismatch).fault 0x701 1
          (.port p) (webMaster p)).portFailed p
      else (s.setPort p { s.portOf p with peerNode := node, peerPort := port, peerValid := true }).portUp p := by
  have hlive : ¬ ((! s.portPowered p) = true ∨ (s.portOf p).st = .disabled) := by
    rintro (h | h)
    · rw [show s.portPowered p = true from hd] at h
      cases h
    · rw [hst] at h
      cases h
  unfold State.takeHello
  dsimp only
  rw [if_neg hlive, if_neg (fun h => h hst)]
  rfl

theorem State.on_stick_field (h : Table.rising s.regs = true) {f g : Fld} (hf : f.lo + f.len ≤ 32) (hreg : g.reg = f.reg)
    (hd : f.lo + f.len ≤ g.lo ∨ g.lo + g.len ≤ f.lo) : (s.stick f).on g = s.on g := by
  unfold State.on State.stick
  rw [State.fld_setFld_field h 1 0 0 hf hreg hd]

/-- A port that fails leaves the web's other sticky bits set. -/
theorem State.portFailed_on (h : Table.rising s.regs = true) {g : Fld} (hreg : g.reg = .WEB_EVENTS)
    (hd : f_WEB_EVENTS_port_down.lo + f_WEB_EVENTS_port_down.len ≤ g.lo ∨ g.lo + g.len ≤ f_WEB_EVENTS_port_down.lo) :
    (s.portFailed p).on g = s.on g := by
  obtain ⟨u, hu⟩ : ∃ u, u = (s.tally f_WEB_PORT_RETRAIN_discarded (s.portOf p).held p).setPort p ((s.portOf p).failed s.now) := ⟨_, rfl⟩
  have hur : Table.rising u.regs = true := hu ▸ State.rising_tally h _ _ _
  have hdown : s.downed p = u.stick f_WEB_EVENTS_port_down := by rw [hu]; rfl
  have hlogs : Logs (s.downed p) (s.portFailed p) := (Logs.refl (s.downed p)).fault 0x706 2 (.port p) (webMaster p)
  have htally : u.on g = s.on g := by
    rw [hu]
    exact State.on_wr_other h (by rw [hreg]; exact regAddr_retrain_ne_events.symm)
  rw [hlogs.on (State.downed_rising h) (by rw [hreg]; exact not_faultAddr_webEvents), hdown, State.on_stick_field hur (by decide) hreg hd, htally]

/-! ## Retraining completes -/

/-- A port comes up again with the flits to be resent (R268). -/
def Port.resent (x : Port) (now : Nat) : Port :=
  { x with again := x.replay.length, tries := 0, sentAt := x.sentAt.map fun _ => now, st := .active, since := now }

/-- A port whose codeword streams begin anew. -/
def Port.recoded (x : Port) (count : Nat) : Port := { x with txCode := ⟨0, []⟩, rxCode := ⟨count % 65536, 0, false, false⟩ }

/-- The same at a new rate (R282). -/
def Port.rated (x : Port) (r count : Nat) : Port :=
  { x.recoded count with rate := r, rateNew := none, rxSpare := x.rxSpare.again, txSpare := x.txSpare.again }

/-- A condition that is cleared changes no port, so that no rate resumes where none waits. -/
theorem State.cleared_resumes (hw : Table.rising s.web.ports = true) (h : x.rateWait = none) :
    ((s.setPort p x).clearCondition 0x706 (.port p) none).rateResume p = (s.setPort p x).clearCondition 0x706 (.port p) none := by
  refine State.rateResume_none ?_
  have hport : ((s.setPort p x).clearCondition 0x706 (.port p) none).portOf p = x := State.setPort_portOf hw
  rw [hport, h]

theorem State.retrainDone_same (count : Nat) (hw : Table.rising s.web.ports = true) (hn : (s.portOf p).rateNew = none)
    (hg : (s.portOf p).granted = true) (hwait : (s.portOf p).rateWait = none) : s.retrainDone p count =
      (s.setPort p (((s.portOf p).recoded count).resent s.now)).clearCondition 0x706 (.port p) none := by
  have hcode : s.portAligned p count = s.setPort p ((s.portOf p).recoded count) := rfl
  unfold State.retrainDone
  dsimp only
  rw [hcode, State.setPort_portOf hw, show ((s.portOf p).recoded count).rateNew = none from hn]
  dsimp only
  rw [State.portUp_again (x := (s.portOf p).recoded count) hw hg]
  exact State.cleared_resumes hw hwait

theorem State.retrainDone_rate {r : Nat} (count : Nat) (hw : Table.rising s.web.ports = true) (hn : (s.portOf p).rateNew = some r)
    (hg : (s.portOf p).granted = true) (hwait : (s.portOf p).rateWait = none) : s.retrainDone p count =
      ((s.stick f_WEB_EVENTS_rate_done).setPort p (((s.portOf p).rated r count).resent s.now)).clearCondition 0x706 (.port p) none := by
  have hcode : s.portAligned p count = s.setPort p ((s.portOf p).recoded count) := rfl
  have hstick : (s.setPort p ((s.portOf p).rated r count)).stick f_WEB_EVENTS_rate_done =
      (s.stick f_WEB_EVENTS_rate_done).setPort p ((s.portOf p).rated r count) := rfl
  have hrate : ({ (s.portOf p).recoded count with rate := r, rateNew := none, rxSpare := ((s.portOf p).recoded count).rxSpare.again
                                                  txSpare := ((s.portOf p).recoded count).txSpare.again } : Port) = (s.portOf p).rated r count := rfl
  unfold State.retrainDone
  dsimp only
  rw [hcode, State.setPort_portOf hw, show ((s.portOf p).recoded count).rateNew = some r from hn]
  dsimp only
  rw [State.setPort_setPort hw, hrate, hstick, State.portUp_again (s := s.stick f_WEB_EVENTS_rate_done) (x := (s.portOf p).rated r count) hw hg]
  exact State.cleared_resumes (s := s.stick f_WEB_EVENTS_rate_done) hw hwait

end Entries

/-- Settles O46. -/
theorem portStates : Obligations.PortStates := by
  intro s t p x hcan hpow hp hdom hx
  obtain ⟨b, hb⟩ : ∃ b, s.begin t = b := ⟨_, rfl⟩
  have hcb : b.canonical := hb ▸ State.canonical_begin hcan t
  have hregs : Table.rising b.regs = true := hcb.fine.regs
  have hports : Table.rising b.web.ports = true := hcb.fine.ports
  have hok : isPort p = true := isPort_of hp
  rw [hb] at hdom hx ⊢
  refine ⟨fun m v hm => ⟨fun hv hon hrails hst => ?_, fun hv hon => ?_⟩, fun m v hm1 hm2 hans hsh hv => ?_, fun hst => ?_, fun hst => ?_,
    fun hst => ⟨fun hin hwait => ?_, fun r hin hwait htr => ?_, fun hlate => ?_, fun hlate => ?_, fun hin => ?_⟩,
    fun hst => ⟨fun skew count hskew hin => ?_, fun skew count hno => ?_, fun hlate => ?_, fun hin => ?_⟩,
    fun node port rate spare hst => ⟨fun hpeer hgr => ?_, fun hcheck hpeer => ?_⟩,
    fun hst => ⟨fun hon hrails hlate => ?_, fun hno => ?_⟩,
    fun hst => ⟨fun hlate => ?_, fun hin => ?_, fun skew count hno => ?_, fun skew count hskew hin hwait hgr => ⟨fun hnew => ?_, fun r hnew => ?_⟩⟩,
    fun hst => ?_, fun hst => ?_, ?_⟩
  · have hload := State.loadReg_portCtl (m := m) hregs (p := p) (v := v) (by rw [hon, hv]; decide)
    rw [if_pos hv] at hload
    have hstart := State.portStart_starts (s := b.wr .WEB_PORT_CTL (portWord (b.rd .WEB_PORT_CTL p) v) p) hdom hrails
      ((State.on_eq_bit f_WEB_PORT_CTL_enable p 0 rfl).trans ((congrArg (bit · 31) (State.rd_wr_same hregs ..)).trans ((bit_portWord _ _).trans hv)))
      ((congrArg Port.st hx).trans hst)
    have he := (State.portCtl_loads hm).trans (hload.trans hstart)
    subst hx
    exact .runs hb hpow rfl hok he (((OnlyChanges.refl [.regs, .web] b).regs (by decide) _).setPort (by decide) p _)
      ⟨State.rd_wr_same hregs .., .put hregs _ _ _, State.setPort_portOf hports, State.sameBut_setPort hports, rfl⟩
  · have hload := State.loadReg_portCtl (m := m) hregs (p := p) (v := v) (by rw [hon, hv]; decide)
    rw [hv, if_neg Bool.false_ne_true] at hload
    have he := (State.portCtl_loads hm).trans hload
    have hport : ((b.wr .WEB_PORT_CTL (portWord (b.rd .WEB_PORT_CTL p) v) p).portDisabled p).portOf p = b.portOffOf p := State.setPort_portOf hports
    refine .runs hb hpow rfl hok he (((OnlyChanges.refl [.regs, .web] b).regs (by decide) _).setPort (by decide) p _)
      ⟨State.rd_wr_same hregs .., .put hregs _ _ _, ?_, ?_, State.sameBut_setPort hports, rfl⟩
    · rw [hport]
      rfl
    · rw [hport]
      rfl
  · have hans' : b.answers m = true := by rw [← hb]; simpa using hans
    have hframe := (((OnlyChanges.refl [.regs, .evm, .force, .engs, .que, .memc, .vat, .flt, .cal, .resp] b).accessFault (by decide) 0x001 1 .none m 2
      (regAddr .WEB_PORT_CTL p 0)).regs (by decide) ((b.accessFault 0x001 1 .none m 2 (regAddr .WEB_PORT_CTL p 0)).wr .WEB_PORT_CTL
        (b.rd .WEB_PORT_CTL p) p).regs).resp (by decide) ⟨m, false, 0⟩
    have he := (State.portCtl_accesses (s := b) (p := p) (v := v) hm1 hm2).trans (State.accessReg_answered hans')
    rw [State.regWrite_portCtl_refused hregs hsh hv] at he
    exact .runs hb hpow rfl hok he hframe rfl
  · subst hx
    have hin' := State.inPort_in (fun s => ((s.setPort p (s.portOf p).mapLanes).lanesOn p).enterPort p .train) hdom hst
    obtain ⟨u, hu⟩ : ∃ u, u = (b.setPort p (b.portOf p).mapLanes).lanesOn p := ⟨_, rfl⟩
    obtain ⟨e, he, hport, hsame, hserving, hrise⟩ := State.each_lit (p := p) (List.range 3) (s := b.setPort p (b.portOf p).mapLanes) (State.rising_setPort hports)
    have hue : u = e := hu.trans he.symm
    rw [State.setPort_portOf hports, ← hue] at hport
    rw [← hue] at hsame hserving hrise
    obtain ⟨T, hT⟩ := Port.lits_only (List.range 3) (x := (b.portOf p).mapLanes)
    have hnow : u.now = b.now := by
      rw [hu]
      exact (State.keeps_lanesOn (Within.refl _) (Keeps.refl (b.setPort p (b.portOf p).mapLanes)) p).now
    have hframe : OnlyChanges [.regs, .evm, .force, .engs, .que, .memc, .vat, .web, .flt, .cal] b u :=
      hu ▸ ((OnlyChanges.refl _ b).setPort (by decide) p _).then (State.keeps_lanesOn (Within.refl _) (Keeps.refl _) p) (by decide)
    have hentered : (u.enterPort p .train).portOf p = { (b.portOf p).mapLanes with lanes := T, st := .train, since := b.now } := by
      refine (State.setPort_portOf hrise).trans ?_
      rw [hport, hT, hnow]
    rw [← hu] at hin'
    refine .runs hb hpow rfl hok hin' (hframe.setPort (by decide) p _)
      ⟨⟨T, hentered⟩, (State.sameBut_setPort hports).trans (hsame.trans (State.sameBut_setPort hrise)), hserving, fun l hl hlog => ?_⟩
    have hlane : ((u.enterPort p .train).portOf p).lane l = (((List.range 3).foldl Port.lit (b.portOf p).mapLanes)).lane l := by
      rw [hentered, hT]
      rfl
    refine (congrArg Lane.health hlane).trans ((Port.lits_health _ hlog).trans ?_)
    rw [if_pos (List.mem_range.2 hl)]
    rfl
  · exact .runs hb hpow rfl hok (State.inPort_out _ (hx ▸ hst)) (OnlyChanges.refl _ _) trivial
  · subst hx
    have hin' := State.inPortWithin_in (fun s => (s.enterPort p .align).rateResume p) hdom hst hin
    have hport : (b.enterPort p .align).portOf p = { b.portOf p with st := .align, since := b.now } := State.setPort_portOf hports
    have hnone : (b.enterPort p .align).rateResume p = b.enterPort p .align := State.rateResume_none (by rw [hport]; exact hwait)
    exact .runs hb hpow rfl hok (hin'.trans hnone) ((OnlyChanges.refl [.web] b).setPort (by decide) p _)
      ⟨hport, State.sameBut_setPort hports, rfl⟩
  · subst hx
    have hin' := State.inPortWithin_in (fun s => (s.enterPort p .align).rateResume p) hdom hst hin
    have hport : (b.enterPort p .align).portOf p = { b.portOf p with st := .align, since := b.now } := State.setPort_portOf hports
    have hask := State.rateResume_asks (s := b.enterPort p .align) (p := p) (r := r) (State.rising_setPort hports) (by rw [hport]; exact hwait)
      (by rw [hport]; exact htr)
    have hmsg : (b.enterPort p .align).linkParam p 5 [r] = b.linkParam p 5 [r] := State.linkParam_setPort (x := { b.portOf p with st := .align, since := b.now }) hports rfl 5 [r]
    have hset (y : Port) : (b.enterPort p .align).setPort p y = b.setPort p y := State.setPort_setPort hports
    rw [hport, hmsg, hset] at hask
    exact .runs hb hpow rfl hok (hin'.trans hask) ((OnlyChanges.refl [.web] b).setPort (by decide) p _)
      ⟨State.setPort_portOf hports, State.sameBut_setPort hports⟩
  · exact .runs hb hpow rfl hok (State.inPortWithin_late _ (by rw [hx]; exact hlate)) (OnlyChanges.refl _ _) trivial
  · subst hx
    have hin' := State.inPort_in (fun s => if s.portTime p (ms 100) then s.portRetry p else s) hdom hst
    have hur : Table.rising (b.enterPort p .detect).regs = true := hregs
    exact .runs hb hpow rfl hok (hin'.trans (if_pos (State.portTime_passed hlate))) (((OnlyChanges.refl [.regs, .web] b).setPort (by decide) p _).tally (by decide) _ _ _)
      ⟨State.setPort_portOf hports, State.sameBut_setPort hports, rfl, State.fld_tally_half hur p rfl (by decide), State.sameBut_tally hur f_WEB_PORT_RETRAIN_count 1 p⟩
  · subst hx
    have hin' := State.inPort_in (fun s => if s.portTime p (ms 100) then s.portRetry p else s) hdom hst
    exact .runs hb hpow rfl hok (hin'.trans (if_neg (by rw [State.portTime_early (w := ms 100) hin]; exact Bool.false_ne_true))) (OnlyChanges.refl _ _) trivial
  · subst hx
    have hin' := State.inPortWithin_in (fun s => if deskewable skew then ((s.portAligned p count).enterPort p .param).sendOn p (s.helloFlit p) else s)
      hdom hst hin
    have hhello := State.aligned_hello (p := p) (f := b.helloFlit p) count hports rfl
    exact .runs hb hpow rfl hok (hin'.trans ((if_pos (decide_eq_true hskew)).trans hhello)) ((OnlyChanges.refl [.web] b).setPort (by decide) p _)
      ⟨State.setPort_portOf hports, State.sameBut_setPort hports, rfl⟩
  · subst hx
    refine .runs hb hpow rfl hok ?_ (OnlyChanges.refl _ _) trivial
    obtain hskew | hlate := hno
    · exact State.inPortWithin_idle _ (if_neg (by simpa [deskewable] using hskew))
    · exact State.inPortWithin_late _ hlate
  · subst hx
    have hin' := State.inPort_in (fun s => if s.portTime p (ms 1) then s.enterPort p .detect else s) hdom hst
    exact .runs hb hpow rfl hok (hin'.trans (if_pos (State.portTime_passed hlate))) ((OnlyChanges.refl [.web] b).setPort (by decide) p _)
      ⟨State.setPort_portOf hports, State.sameBut_setPort hports, rfl⟩
  · subst hx
    have hin' := State.inPort_in (fun s => if s.portTime p (ms 1) then s.enterPort p .detect else s) hdom hst
    exact .runs hb hpow rfl hok (hin'.trans (if_neg (by rw [State.portTime_early (w := ms 1) hin]; exact Bool.false_ne_true))) (OnlyChanges.refl _ _) trivial
  · subst hx
    have hwrong : (b.on f_WEB_PORT_CTL_check_peer p && (decide (node ≠ b.fld f_WEB_PORT_CTL_peer_node p) ||
        decide (port ≠ b.fld f_WEB_PORT_CTL_peer_port p))) = false := by
      obtain h | ⟨h1, h2⟩ := hpeer
      · rw [h]; rfl
      · simp [h1, h2]
    have he := (State.takeHello_param (node := node) (port := port) hdom hst).trans (if_neg (by rw [hwrong]; exact Bool.false_ne_true))
    have hup := State.portUp_first (p := p) (x := { b.portOf p with peerNode := node, peerPort := port, peerValid := true }) hports hgr
    have hports' : Table.rising ({ b with web := { b.web with waiting := b.web.waiting.map fun e => if e.1 = p then (4, e.2) else e } } : State).web.ports =
        true := hports
    exact .runs hb hpow rfl hok (he.trans hup) ((((OnlyChanges.refl [.web, .flt] b).web (by decide) _).setPort (by decide) p _).then
      (State.keeps_clearCondition (Within.refl _) (Keeps.refl _) ..) (by decide))
      ⟨State.setPort_portOf hports', State.sameBut_setPort hports', rfl, rfl⟩
  · subst hx
    have hwrong : (b.on f_WEB_PORT_CTL_check_peer p && (decide (node ≠ b.fld f_WEB_PORT_CTL_peer_node p) ||
        decide (port ≠ b.fld f_WEB_PORT_CTL_peer_port p))) = true := by
      rw [hcheck, Bool.true_and]
      simpa using hpeer
    have he := (State.takeHello_param (node := node) (port := port) hdom hst).trans (if_pos hwrong)
    obtain ⟨v, hv⟩ : ∃ v, v = b.setPort p { b.portOf p with peerNode := node, peerPort := port, peerValid := true } := ⟨_, rfl⟩
    obtain ⟨u, hu⟩ : ∃ u, u = (v.stick f_WEB_EVENTS_peer_mismatch).fault 0x701 1 (.port p) (webMaster p) := ⟨_, rfl⟩
    rw [← hv, ← hu] at he
    have hvr : Table.rising v.regs = true := hv ▸ hregs
    have hstick : Table.rising (v.stick f_WEB_EVENTS_peer_mismatch).regs = true := State.rising_stick hvr _ _
    have hlogs : Logs (v.stick f_WEB_EVENTS_peer_mismatch) u := hu ▸ (Logs.refl _).fault ..
    have hweb : u.web = (b.setPort p { b.portOf p with peerNode := node, peerPort := port, peerValid := true }).web := by
      rw [hu, State.fault_web, hv]
      rfl
    have huw : Table.rising u.web.ports = true := hweb ▸ State.rising_setPort hports
    have hframe : OnlyChanges [.regs, .evm, .force, .engs, .que, .memc, .vat, .web, .flt, .cal] b u :=
      hu ▸ (((hv ▸ (OnlyChanges.refl _ b).setPort (by decide) p _ : OnlyChanges _ b v).stick (by decide) _ _).fault (by decide) ..)
    obtain ⟨hport, hsame, -⟩ := State.portFailed_port (p := p) huw
    have hbit : u.on f_WEB_EVENTS_peer_mismatch = true :=
      (hlogs.on hstick not_faultAddr_webEvents).trans (State.on_stick hvr 0 (by decide) (by decide))
    rw [State.portOf_of_web hweb, State.setPort_portOf hports, hframe.2.1] at hport
    exact .runs hb hpow rfl hok he (hframe.then (State.keeps_portFailed (Within.refl _) (Keeps.refl u) p) (by decide))
      ⟨hport, (State.portFailed_on (hlogs.rising hstick) rfl (.inl (by decide))).trans hbit, (State.portFailed_shows (hlogs.rising hstick) hp).1,
        (hweb ▸ State.sameBut_setPort hports).trans hsame⟩
  · subst hx
    have hin' := State.inPort_in (fun s => if s.on f_WEB_PORT_CTL_enable p ∧ s.webRails ∧ s.portTime p (ms 1000) then s.enterPort p .detect else s) hdom hst
    exact .runs hb hpow rfl hok (hin'.trans (if_pos ⟨hon, hrails, State.portTime_passed hlate⟩)) ((OnlyChanges.refl [.web] b).setPort (by decide) p _)
      ⟨State.setPort_portOf hports, State.sameBut_setPort hports, rfl⟩
  · subst hx
    have hin' := State.inPort_in (fun s => if s.on f_WEB_PORT_CTL_enable p ∧ s.webRails ∧ s.portTime p (ms 1000) then s.enterPort p .detect else s) hdom hst
    refine .runs hb hpow rfl hok (hin'.trans (if_neg ?_)) (OnlyChanges.refl _ _) trivial
    rintro ⟨h1, h2, h3⟩
    obtain h | h | h := hno
    · rw [h] at h1; cases h1
    · rw [h] at h2; cases h2
    · rw [State.portTime_early (w := ms 1000) h] at h3; cases h3
  · subst hx
    have hin' := State.inPort_in (fun s => if s.portTime p (ms 50) then s.portFailed p else s) hdom hst
    obtain ⟨hport, hsame, -⟩ := State.portFailed_port (p := p) hports
    obtain ⟨hdown, hcount⟩ := State.portFailed_shows hregs hp
    exact .runs hb hpow rfl hok (hin'.trans (if_pos (State.portTime_passed hlate)))
      ((OnlyChanges.refl _ b).then (State.keeps_portFailed (Within.refl _) (Keeps.refl b) p) (by decide)) ⟨hport, hcount, hdown, hsame⟩
  · subst hx
    have hin' := State.inPort_in (fun s => if s.portTime p (ms 50) then s.portFailed p else s) hdom hst
    exact .runs hb hpow rfl hok (hin'.trans (if_neg (by rw [State.portTime_early (w := ms 50) hin]; exact Bool.false_ne_true))) (OnlyChanges.refl _ _) trivial
  · subst hx
    refine .runs hb hpow rfl hok ?_ (OnlyChanges.refl _ _) trivial
    obtain hskew | hlate := hno
    · exact State.inPortWithin_idle _ (if_neg (by simpa [deskewable] using hskew))
    · exact State.inPortWithin_late _ hlate
  · subst hx
    have hin' := State.inPortWithin_in (fun s => if deskewable skew then s.retrainDone p count else s) hdom hst hin
    have he := State.retrainDone_same count hports hnew hgr hwait
    exact .runs hb hpow rfl hok (hin'.trans ((if_pos (decide_eq_true hskew)).trans he)) (((OnlyChanges.refl [.web, .flt] b).setPort (by decide) p _).then
      (State.keeps_clearCondition (Within.refl _) (Keeps.refl _) ..) (by decide))
      ⟨State.setPort_portOf hports, State.sameBut_setPort hports, rfl, rfl⟩
  · subst hx
    have hin' := State.inPortWithin_in (fun s => if deskewable skew then s.retrainDone p count else s) hdom hst hin
    have he := State.retrainDone_rate count hports hnew hgr hwait
    obtain ⟨y, hy⟩ : ∃ y, y = ((b.portOf p).rated r count).resent b.now := ⟨_, rfl⟩
    rw [← hy] at he
    have hport : (((b.stick f_WEB_EVENTS_rate_done).setPort p y).clearCondition 0x706 (.port p) none).portOf p = y :=
      State.setPort_portOf (s := b.stick f_WEB_EVENTS_rate_done) hports
    refine .runs hb hpow rfl hok (hin'.trans ((if_pos (decide_eq_true hskew)).trans he))
      ((((OnlyChanges.refl [.regs, .web, .flt] b).stick (by decide) _ _).setPort (by decide) p _).then
        (State.keeps_clearCondition (Within.refl _) (Keeps.refl _) ..) (by decide)) ?_
    rw [hport, hy]
    exact ⟨rfl, rfl, rfl, rfl, rfl, rfl, State.on_stick hregs 0 (by decide) (by decide), State.sameBut_stick hregs f_WEB_EVENTS_rate_done 0,
      State.sameBut_setPort (s := b.stick f_WEB_EVENTS_rate_done) hports⟩
  · subst hx
    obtain ⟨hport, hsame, hserving, hbit, hcount⟩ := State.portRetrain_shows hregs hports hp
    exact .runs hb hpow rfl hok (State.inPort_in (fun s => s.portRetrain p) hdom hst)
      ((OnlyChanges.refl _ b).then (State.keeps_portRetrain (Within.refl _) (Keeps.refl b) p) (by decide)) ⟨hport, hsame, hserving, hbit, hcount⟩
  · exact .runs hb hpow rfl hok (State.inPort_out _ (hx ▸ hst)) (OnlyChanges.refl _ _) trivial
  · intro r v node port rate spare skew count c hc
    have hrun (body : State → State) : ∃ e, outIf (isPort p) (s.act t body) = .next e := ⟨s.act t body, by rw [hok]; rfl⟩
    simp only [List.mem_cons, List.not_mem_nil, or_false] at hc
    rcases hc with rfl | rfl | rfl | rfl | rfl | rfl | rfl | rfl | rfl | rfl | rfl <;> exact hrun _

end Sys2Proof.Machine
end

section
/-!
PROOFS. The bytes of a flit and the flit that they spell (R5, R265, Table 9-4).
-/

namespace Sys2Proof

open Sys2Proof.Machine

section FlitBytes
variable {f : Flit} {v : Nat} {c : List Byte}

theorem take_word : (leBytes v 4 ++ c).take 4 = leBytes v 4 := List.take_left' (leBytes_length v 4)

theorem drop_word : (leBytes v 4 ++ c).drop 4 = c := List.drop_left' (leBytes_length v 4)

/-- A flit's payload, filled with zeros. -/
def Flit.filled (f : Flit) : List Byte := f.payload ++ List.replicate (232 - f.payload.length) 0

theorem Flit.filled_length (h : f.payload.length ≤ 232) : f.filled.length = 232 := by
  unfold Flit.filled
  rw [List.length_append, List.length_replicate]
  omega

/-- The fields of a flit fit Table 9-4. -/
structure Flit.Fits (f : Flit) : Prop where
  dst : f.dst < 2 ^ 12
  src : f.src < 2 ^ 12
  type : f.type < 2 ^ 8
  tag : f.tag < 2 ^ 16
  len : f.len < 2 ^ 8
  vc : f.vc < 2
  status : f.status < 2 ^ 3
  addr : f.addr < 2 ^ 36
  stamp : f.stamp < 2 ^ 32
  payload : f.payload.length ≤ 232
  seq : f.seq < 2 ^ 9
  ack : f.ack < 2 ^ 9
  cvc : f.cvc < 2 ^ 3
  ccount : f.ccount < 2 ^ 3
  hops : f.hops < 2 ^ 7

/-- The header and trailer words of a flit whose fields fit (Table 9-4). -/
def Flit.word0 (f : Flit) : Nat := f.dst * 2 ^ 20 + f.src * 2 ^ 8 + f.type
def Flit.word1 (f : Flit) : Nat := f.tag * 2 ^ 16 + f.len * 2 ^ 8 + f.vc * 2 ^ 7 + f.status * 2 ^ 4 + f.addr / 2 ^ 32
def Flit.wordT (f : Flit) : Nat := f.seq * 2 ^ 23 + f.ack * 2 ^ 14 + b2n f.nak * 2 ^ 13 + f.cvc * 2 ^ 10 + f.ccount * 2 ^ 7 + f.hops

theorem b2n_le (x : Bool) : b2n x ≤ 1 := by cases x <;> decide

section Words
variable (h : f.Fits)
include h

theorem Flit.word0_lt : f.word0 < 2 ^ 32 := by
  have := h.dst
  have := h.src
  have := h.type
  unfold Flit.word0
  omega

theorem Flit.word1_lt : f.word1 < 2 ^ 32 := by
  have := h.tag
  have := h.len
  have := h.vc
  have := h.status
  have := h.addr
  unfold Flit.word1
  omega

theorem Flit.wordT_lt : f.wordT < 2 ^ 32 := by
  have := h.seq
  have := h.ack
  have := h.cvc
  have := h.ccount
  have := h.hops
  have := b2n_le f.nak
  unfold Flit.wordT
  omega

theorem flitHeader_words : flitHeader f = [f.word0, f.word1, f.addr % 2 ^ 32, f.stamp] := by
  have haddr : f.addr / 2 ^ 32 % 16 = f.addr / 2 ^ 32 := Nat.mod_eq_of_lt (by have := h.addr; omega)
  unfold flitHeader Flit.word0 Flit.word1
  rw [Nat.mod_eq_of_lt (b := 4096) h.dst, Nat.mod_eq_of_lt (b := 4096) h.src, Nat.mod_eq_of_lt (b := 256) h.type, Nat.mod_eq_of_lt (b := 65536) h.tag,
    Nat.mod_eq_of_lt (b := 256) h.len, Nat.mod_eq_of_lt h.vc, Nat.mod_eq_of_lt (b := 8) h.status, haddr, Nat.mod_eq_of_lt h.stamp]

theorem flitTrailer_word : flitTrailer f = f.wordT := by
  unfold flitTrailer Flit.wordT
  rw [Nat.mod_eq_of_lt (b := 512) h.seq, Nat.mod_eq_of_lt (b := 512) h.ack, Nat.mod_eq_of_lt (b := 8) h.cvc, Nat.mod_eq_of_lt (b := 8) h.ccount,
    Nat.mod_eq_of_lt (b := 128) h.hops]

/-- The bytes of a flit, part by part. -/
theorem flitBytes_parts : ∃ crc, flitBytes f =
    leBytes f.word0 4 ++ (leBytes f.word1 4 ++ (leBytes (f.addr % 2 ^ 32) 4 ++ (leBytes f.stamp 4 ++ (f.filled ++ (leBytes f.wordT 4 ++ crc))))) := by
  refine ⟨leBytes (crc32c (flitCovered f)).toNat 4, ?_⟩
  have hcovered : flitCovered f =
      leBytes f.word0 4 ++ (leBytes f.word1 4 ++ (leBytes (f.addr % 2 ^ 32) 4 ++ (leBytes f.stamp 4 ++ (f.filled ++ leBytes f.wordT 4)))) := by
    have htake : (f.payload ++ List.replicate (232 - f.payload.length) 0).take 232 = f.filled :=
      List.take_of_length_le (Flit.filled_length h.payload).le
    unfold flitCovered
    rw [htake, flitHeader_words h, flitTrailer_word h]
    simp [List.append_assoc]
  unfold flitBytes
  conv => lhs; lhs; rw [hcovered]
  simp [List.append_assoc]

/-- The words of a flit's bytes, and its payload. -/
theorem flitBytes_words : leNat ((flitBytes f).take 4) = f.word0 ∧ leNat (((flitBytes f).drop 4).take 4) = f.word1 ∧
    leNat (((flitBytes f).drop 8).take 4) = f.addr % 2 ^ 32 ∧ leNat (((flitBytes f).drop 12).take 4) = f.stamp ∧
      ((flitBytes f).drop 16).take 232 = f.filled ∧ leNat (((flitBytes f).drop 248).take 4) = f.wordT := by
  obtain ⟨crc, hparts⟩ := flitBytes_parts h
  have hword {w : Nat} (hw : w < 2 ^ 32) : leNat (leBytes w 4) = w := (leNat_leBytes 4 w).trans (Nat.mod_eq_of_lt hw)
  have hlen := Flit.filled_length h.payload
  have h4 : (flitBytes f).drop 4 = leBytes f.word1 4 ++ (leBytes (f.addr % 2 ^ 32) 4 ++ (leBytes f.stamp 4 ++ (f.filled ++ (leBytes f.wordT 4 ++ crc)))) := by
    rw [hparts, drop_word]
  have h8 : (flitBytes f).drop 8 = leBytes (f.addr % 2 ^ 32) 4 ++ (leBytes f.stamp 4 ++ (f.filled ++ (leBytes f.wordT 4 ++ crc))) := by
    rw [show 8 = 4 + 4 from rfl, ← List.drop_drop, h4, drop_word]
  have h12 : (flitBytes f).drop 12 = leBytes f.stamp 4 ++ (f.filled ++ (leBytes f.wordT 4 ++ crc)) := by
    rw [show 12 = 8 + 4 from rfl, ← List.drop_drop, h8, drop_word]
  have h16 : (flitBytes f).drop 16 = f.filled ++ (leBytes f.wordT 4 ++ crc) := by
    rw [show 16 = 12 + 4 from rfl, ← List.drop_drop, h12, drop_word]
  have h248 : (flitBytes f).drop 248 = leBytes f.wordT 4 ++ crc := by
    rw [show 248 = 16 + 232 from rfl, ← List.drop_drop, h16, List.drop_left' hlen]
  refine ⟨?_, ?_, ?_, ?_, ?_, ?_⟩
  · rw [hparts, take_word, hword (Flit.word0_lt h)]
  · rw [h4, take_word, hword (Flit.word1_lt h)]
  · rw [h8, take_word, hword (Nat.mod_lt _ (by decide))]
  · rw [h12, take_word, hword h.stamp]
  · rw [h16, List.take_left' hlen]
  · rw [h248, take_word, hword (Flit.wordT_lt h)]

/-- The fields of words 0 and 1. -/
theorem Flit.word0_fields : f.word0 / 2 ^ 20 % 2 ^ 12 = f.dst ∧ f.word0 / 2 ^ 8 % 2 ^ 12 = f.src ∧ f.word0 / 2 ^ 0 % 2 ^ 8 = f.type := by
  have := h.dst
  have := h.src
  have := h.type
  unfold Flit.word0
  omega

theorem Flit.word1_fields : f.word1 / 2 ^ 16 % 2 ^ 16 = f.tag ∧ f.word1 / 2 ^ 8 % 2 ^ 8 = f.len ∧ f.word1 / 2 ^ 7 % 2 ^ 1 = f.vc ∧
    f.word1 / 2 ^ 4 % 2 ^ 3 = f.status ∧ f.word1 / 2 ^ 0 % 2 ^ 4 * 2 ^ 32 + f.addr % 2 ^ 32 = f.addr := by
  have := h.tag
  have := h.len
  have := h.vc
  have := h.status
  have := h.addr
  unfold Flit.word1
  omega

theorem Flit.wordT_fields : f.wordT / 2 ^ 23 % 2 ^ 9 = f.seq ∧ f.wordT / 2 ^ 14 % 2 ^ 9 = f.ack ∧ f.wordT / 2 ^ 13 % 2 ^ 1 = b2n f.nak ∧
    f.wordT / 2 ^ 10 % 2 ^ 3 = f.cvc ∧ f.wordT / 2 ^ 7 % 2 ^ 3 = f.ccount ∧ f.wordT / 2 ^ 0 % 2 ^ 7 = f.hops := by
  have := h.seq
  have := h.ack
  have := h.cvc
  have := h.ccount
  have := h.hops
  have := b2n_le f.nak
  unfold Flit.wordT
  omega

theorem flitOfBytes_flitBytes : flitOfBytes (flitBytes f) = { f with payload := f.filled } := by
  obtain ⟨h0, h4, h8, h12, hpay, ht⟩ := flitBytes_words h
  obtain ⟨hdst, hsrc, htype⟩ := Flit.word0_fields h
  obtain ⟨htag, hlen, hvc, hstatus, haddr⟩ := Flit.word1_fields h
  obtain ⟨hseq, hack, hnak, hcvc, hccount, hhops⟩ := Flit.wordT_fields h
  have hbool : decide (b2n f.nak = 1) = f.nak := by cases f.nak <;> rfl
  unfold flitOfBytes
  simp only [-Nat.reducePow, List.drop_zero, h0, h4, h8, h12, hpay, ht, hdst, hsrc, htype, htag, hlen, hvc, hstatus, haddr, hseq, hack, hnak, hcvc, hccount, hhops, hbool]

end Words

end FlitBytes

end Sys2Proof

namespace Sys2Proof.Machine

open Sys2Proof

/-- Settles O47. -/
theorem flitBytesSpellTheFlit : Obligations.FlitBytesSpellTheFlit := by
  intro f hdst hsrc htype htag hlen hvc hstatus haddr hstamp hpay hseq hack hcvc hccount hhops
  have hfits : f.Fits := ⟨hdst, hsrc, htype, htag, hlen, hvc, hstatus, haddr, hstamp, hpay, hseq, hack, hcvc, hccount, hhops⟩
  obtain ⟨h0, h4, h8, h12, -, ht⟩ := flitBytes_words hfits
  exact ⟨flitOfBytes_flitBytes hfits, h0, h4, h8, h12, ht⟩

end Sys2Proof.Machine
end

section
/-!
PROOFS. What a flit slot of a web port sends, and what a replay that is due sends again (R267, R268, R270, R271).
-/

namespace Sys2Proof.Machine

open Sys2Proof

section Slots
variable {s : State} {p : Nat} {x : Port} {f : Flit} {rest : List Flit}

/-- The flit of a slot, with the trailer of its link. -/
def Port.stamped (x : Port) (f : Flit) (seq : Nat) (c : Nat × Nat) : Flit :=
  { f with seq, ack := (x.rxSeq + 511) % 512, nak := x.nakDue, cvc := c.1, ccount := c.2, hops := f.hops + 1 }

/-- A port that has sent a flit, the credits `c` going with it. -/
def Port.linked (x : Port) (f : Flit) (seq : Nat) (c : Nat × Nat) : Port :=
  { x with sent := some (x.stamped f seq c), txCode := x.txCode.sendFlit (x.stamped f seq c), nakDue := false
           giveBack := Table.put 0 c.1 (Table.get 0 c.1 x.giveBack - c.2) x.giveBack }

/-- A port that has sent a new flit. -/
def Port.launched (x : Port) (f : Flit) (c : Nat × Nat) (now : Nat) : Port :=
  { x.linked f x.txSeq c with
    txSeq := (x.txSeq + 1) % 512, credits := Table.put 0 (flitCvc f) (x.credit (flitCvc f) - 1) x.credits
    replay := x.replay ++ [{ f with seq := x.txSeq }], sentAt := x.sentAt ++ [now]
    streamWait := if 6 ≤ flitCvc f then 0 else if x.qStream = [] then 0 else x.streamWait + 1 }

/-- A port whose slot leaves a waiting stream flit behind. -/
def Port.waited (x : Port) : Port := { x with streamWait := if x.qStream = [] then 0 else x.streamWait + 1 }

theorem State.putOnLink_setPort (hr : Table.rising s.web.ports = true) (f : Flit) (seq : Nat) :
    ∃ c, (s.setPort p x).putOnLink p f seq = s.setPort p (x.linked f seq c) := by
  refine ⟨(s.setPort p x).creditsDue p, ?_⟩
  unfold State.putOnLink
  rw [State.setPort_portOf hr, State.setPort_setPort hr]
  rfl

theorem State.sendNew_setPort (hr : Table.rising s.web.ports = true) (f : Flit) :
    ∃ c, (s.setPort p x).sendNew p f = s.setPort p (x.launched f c s.now) := by
  obtain ⟨c, hc⟩ := State.putOnLink_setPort (x := x) (p := p) hr f x.txSeq
  refine ⟨c, ?_⟩
  unfold State.sendNew
  rw [State.setPort_portOf hr]
  dsimp only
  rw [hc]
  rw [State.setPort_portOf hr, State.setPort_setPort hr]
  rfl

/-! ## What goes first (R271) -/

/-- The link-local flit that leaves: a beat takes the raster time of its slot. -/
def State.refreshed (s : State) (p : Nat) (f : Flit) : Flit := if f.type = 4 then s.beatFlit p (s.ownBeat p) else f

theorem State.flitSlot_local (hx : s.portOf p = x) (hw : x.streamWait < 3) (hq : x.qLocal = f :: rest) : s.flitSlot p =
    (s.setPort p { x.waited with qLocal := rest }).putOnLink p { s.refreshed p f with dst := x.peerNode } x.txSeq := by
  unfold State.flitSlot
  rw [hx]
  dsimp only
  rw [if_neg fun h => absurd h.2.1 (Nat.not_le.2 hw), hq]
  rfl

theorem Port.ready_nil : x.ready [] = false := rfl

theorem State.flitSlot_req (hx : s.portOf p = x) (hst : x.st = .active) (hw : x.streamWait < 3) (hl : x.qLocal = []) (ha : x.again = 0)
    (hlen : x.replay.length < 255) (hb : x.qBcast = []) (hrsp : x.qRsp = []) (hq : x.qReq = f :: rest) (hc : 0 < x.credit (flitCvc f)) :
    s.flitSlot p = (s.setPort p { x with qReq := rest }).sendNew p f := by
  have hready : x.ready (f :: rest) = true := decide_eq_true hc
  have hfree : (decide (x.st = .active) && decide (x.again = 0) && decide (x.replay.length < 255)) = true := by
    rw [decide_eq_true hst, decide_eq_true ha, decide_eq_true hlen]
    rfl
  unfold State.flitSlot
  rw [hx]
  dsimp only
  rw [if_neg fun h => absurd h.2.1 (Nat.not_le.2 hw), hl]
  dsimp only
  rw [if_neg fun h => absurd h.2 (by rw [ha]; exact Nat.lt_irrefl 0), hb, hrsp, hq, if_neg (by rw [Port.ready_nil]; rintro ⟨-, ⟨⟩⟩),
    if_neg (by rw [Port.ready_nil]; rintro ⟨-, ⟨⟩⟩), if_pos ⟨hfree, hready⟩]

theorem State.flitSlot_idle (hx : s.portOf p = x) (hw : x.streamWait < 3) (hl : x.qLocal = []) (ha : x.again = 0)
    (h : 255 ≤ x.replay.length ∨ (x.qBcast = [] ∧ x.qRsp = [] ∧ x.qReq = [] ∧ x.qStream = [])) :
    s.flitSlot p = (s.setPort p x.waited).putOnLink p (s.formFlit x.peerNode 0 0 0 0 0 []) x.txSeq := by
  have hnone (q : List Flit) (hq : 255 ≤ x.replay.length ∨ q = []) :
      ¬ ((decide (x.st = .active) && decide (x.again = 0) && decide (x.replay.length < 255)) = true ∧ x.ready q = true) := by
    rintro ⟨hfree, hready⟩
    rcases hq with hq | hq
    · rw [decide_eq_false (Nat.not_lt.2 hq), Bool.and_false] at hfree
      cases hfree
    · rw [hq] at hready
      cases hready
  unfold State.flitSlot Port.waited
  rw [hx]
  dsimp only
  rw [if_neg fun h => absurd h.2.1 (Nat.not_le.2 hw), hl]
  dsimp only
  rw [if_neg fun h => absurd h.2 (by rw [ha]; exact Nat.lt_irrefl 0), if_neg (hnone _ (h.imp id fun h => h.1)),
    if_neg (hnone _ (h.imp id fun h => h.2.1)), if_neg (hnone _ (h.imp id fun h => h.2.2.1)), if_neg (hnone _ (h.imp id fun h => h.2.2.2))]

theorem State.flitSlot_stream (hx : s.portOf p = x) (hst : x.st = .active) (hw : 3 ≤ x.streamWait) (ha : x.again = 0) (hlen : x.replay.length < 255)
    (hq : x.qStream = f :: rest) (hc : 0 < x.credit (flitCvc f)) :
    s.flitSlot p = (s.setPort p { x with qStream := rest }).sendNew p f := by
  have hready : x.ready (f :: rest) = true := decide_eq_true hc
  have hfree : (decide (x.st = .active) && decide (x.again = 0) && decide (x.replay.length < 255)) = true := by
    rw [decide_eq_true hst, decide_eq_true ha, decide_eq_true hlen]
    rfl
  unfold State.flitSlot
  rw [hx]
  dsimp only
  rw [hq, if_pos ⟨hfree, hw, hready⟩]

theorem State.flitsCross_active (hd : s.domainOn (40 + p) = true) (h : (s.portOf p).st = .active) : s.flitsCross p = true := by
  unfold State.flitsCross State.portPowered
  rw [hd, decide_eq_true h]
  rfl

theorem State.refreshed_type : (s.refreshed p f).type = f.type := by
  unfold State.refreshed
  split
  next h => exact h.symm
  · rfl

theorem State.refreshed_payload : (s.refreshed p f).payload = if f.type = 4 then (s.beatFlit p (s.ownBeat p)).payload else f.payload := by
  unfold State.refreshed
  split <;> rfl

/-! ## Replays (R268) -/

theorem State.replayDue_none (h : (s.portOf p).sentAt = [] ∨ (s.portOf p).replay = []) : s.replayDue p = s := by
  unfold State.replayDue State.replay
  split
  next a l hs =>
    rcases h with h | h
    · rw [h] at hs
      cases hs
    · dsimp only
      rw [if_pos h, ite_self]
  next => rfl

theorem State.replayDue_early {a : Nat} {l : List Nat} (h : (s.portOf p).sentAt = a :: l) (ht : s.now < a + 1024000) : s.replayDue p = s := by
  unfold State.replayDue
  rw [h]
  exact if_neg (Nat.not_le.2 ht)

theorem State.replayDue_due {a : Nat} {l : List Nat} (h : (s.portOf p).sentAt = a :: l) (ht : a + 1024000 ≤ s.now) : s.replayDue p = s.replay p := by
  unfold State.replayDue
  rw [h]
  exact if_pos ht

theorem State.replay_again (h : (s.portOf p).replay ≠ []) (ht : (s.portOf p).tries < 8) : s.replay p =
    (s.setPort p { s.portOf p with again := (s.portOf p).replay.length, tries := (s.portOf p).tries + 1
                                   sentAt := (s.portOf p).sentAt.map fun _ => s.now }).tally f_WEB_PORT_STATS_replays 1 p := by
  unfold State.replay
  dsimp only
  rw [if_neg h, if_neg (Nat.not_le.2 ht)]

theorem State.replay_retrains (h : (s.portOf p).replay ≠ []) (ht : 8 ≤ (s.portOf p).tries) : s.replay p = s.portRetrain p := by
  unfold State.replay
  dsimp only
  rw [if_neg h, if_pos ht]

end Slots

end Sys2Proof.Machine
end

section
/-!
PROOFS. Symbols in error are charged to the lanes that carried them (R260).
-/

namespace Sys2Proof.Machine

open Sys2Proof

section Charges
variable {s e u : State} {p l j : Nat} {x : Port} {errs : List Nat}

/-- How many of the symbols in error lane `l` carried. -/
def Port.charged (x : Port) (errs : List Nat) (l : Nat) : Nat := (errs.filter fun i => decide (x.carrier i = l)).length

/-- The charge of one lane. -/
def State.chargeLane (x : Port) (errs : List Nat) (p l : Nat) (s : State) : State :=
  let n := x.charged errs l
  if n = 0 then s
  else if errs.length ≤ 15 then
    s.setFld f_WEB_LANE_FEC_corrected (satAdd 0xFFFFFF (s.fld f_WEB_LANE_FEC_corrected p l) n) p l
  else
    let s := s.setFld f_WEB_LANE_FEC_uncorrectable (satAdd 0xFF (s.fld f_WEB_LANE_FEC_uncorrectable p l) 1) p l
    let v := (s.portOf p).lane l
    let s := s.setPort p ((s.portOf p).setLane l { v with uncorr := v.uncorr + 1 })
    if 16 < v.uncorr + 1 then s.laneFailed p l else s

theorem State.chargeLanes_each : s.chargeLanes p errs = s.each (List.range 3) (State.chargeLane (s.portOf p) errs p) := rfl

theorem regAddr_fec_ne (h : j ≠ l) : regAddr .WEB_LANE_FEC p j ≠ regAddr .WEB_LANE_FEC p l := by
  simp only [regAddr, regRow, blkBase]
  omega

theorem regAddr_fec_ne_stats : regAddr .WEB_LANE_FEC p j ≠ regAddr .WEB_PORT_STATS p 0 := by
  simp only [regAddr, regRow, blkBase]
  omega

/-! ## Corrected codewords -/

theorem State.chargeLane_corrects (x : Port) (h : errs.length ≤ 15) (hr : Table.rising s.regs = true) (p l : Nat) :
    ∃ R, State.chargeLane x errs p l s = { s with regs := R } ∧ Table.rising R = true ∧ Table.SameBut [regAddr .WEB_LANE_FEC p l] s.regs R ∧
      (State.chargeLane x errs p l s).fld f_WEB_LANE_FEC_corrected p l = min 0xFFFFFF (s.fld f_WEB_LANE_FEC_corrected p l + x.charged errs l) := by
  unfold State.chargeLane
  dsimp only
  by_cases hn : x.charged errs l = 0
  · have hlt : s.fld f_WEB_LANE_FEC_corrected p l < 16777216 := State.fld_lt _ _ _
    rw [if_pos hn]
    exact ⟨s.regs, rfl, hr, .refl _ _, by omega⟩
  · rw [if_neg hn, if_pos h]
    refine ⟨_, rfl, Table.rising_put hr, .put hr _ _ _, (State.fld_setFld_same hr _ _ _ (by decide)).trans (Nat.mod_eq_of_lt ?_)⟩
    exact Nat.lt_of_le_of_lt (Nat.min_le_left _ _) (by decide)

theorem State.each_corrects (x : Port) (h : errs.length ≤ 15) (p : Nat) : ∀ (l : List Nat) {s : State}, l.Nodup → Table.rising s.regs = true →
    ∃ R, s.each l (fun l s => State.chargeLane x errs p l s) = { s with regs := R } ∧ Table.rising R = true ∧
      Table.SameBut (l.map fun l => regAddr .WEB_LANE_FEC p l) s.regs R ∧ ∀ j ∈ l, (s.each l fun l s => State.chargeLane x errs p l s).fld
        f_WEB_LANE_FEC_corrected p j = min 0xFFFFFF (s.fld f_WEB_LANE_FEC_corrected p j + x.charged errs j)
  | [], s, _, hr => ⟨s.regs, rfl, hr, .refl _ _, fun j hj => by simp at hj⟩
  | k :: l, s, hd, hr => by
    obtain ⟨hk, hd'⟩ := List.nodup_cons.1 hd
    obtain ⟨R, he, hrR, hsame, hval⟩ := State.chargeLane_corrects x h hr p k
    obtain ⟨u, hu⟩ : ∃ u, u = State.chargeLane x errs p k s := ⟨_, rfl⟩
    have hfst : s.each (k :: l) (fun l s => State.chargeLane x errs p l s) = u.each l fun l s => State.chargeLane x errs p l s := hu ▸ rfl
    rw [← hu] at he hval
    have hur : Table.rising u.regs = true := by rw [he]; exact hrR
    have hus : Table.SameBut [regAddr .WEB_LANE_FEC p k] s.regs u.regs := by rw [he]; exact hsame
    obtain ⟨R', he', hrR', hsame', hval'⟩ := State.each_corrects x h p l (s := u) hd' hur
    rw [hfst]
    refine ⟨R', he'.trans (by rw [he]), hrR', (hus.mono (by simp)).trans (hsame'.mono fun a ha => List.mem_cons_of_mem _ ha), fun j hj => ?_⟩
    rcases List.mem_cons.1 hj with rfl | hj'
    · have hlast : (u.each l fun l s => State.chargeLane x errs p l s).fld f_WEB_LANE_FEC_corrected p j = u.fld f_WEB_LANE_FEC_corrected p j := by
        refine State.fld_sameBut (by rw [he']; exact hsame') ?_
        simp only [List.mem_map, not_exists, not_and]
        exact fun a ha => regAddr_fec_ne fun haj => hk (haj ▸ ha)
      exact hlast.trans hval
    · have hfirst : u.fld f_WEB_LANE_FEC_corrected p j = s.fld f_WEB_LANE_FEC_corrected p j :=
        State.fld_sameBut hus fun ha => regAddr_fec_ne (j := j) (l := k) (p := p) (fun hjk => hk (hjk ▸ hj')) (List.mem_singleton.1 ha)
      rw [hval' j hj', hfirst]

/-! ## Uncorrectable codewords -/

/-- What charging uncorrectable codewords to the lanes of port `p` leaves as it was. -/
structure Charged (p : Nat) (s e : State) : Prop where
  frame : OnlyChanges [.regs, .web] s e
  port : ∃ L, e.portOf p = { s.portOf p with lanes := L }
  ports : Table.SameBut [p] s.web.ports e.web.ports
  serving : e.web.serving = s.web.serving
  stats : e.rd .WEB_PORT_STATS p = s.rd .WEB_PORT_STATS p
  regs : Table.rising e.regs = true
  web : Table.rising e.web.ports = true

theorem Charged.refl (hr : Table.rising s.regs = true) (hw : Table.rising s.web.ports = true) : Charged p s s :=
  ⟨.refl _ _, ⟨_, rfl⟩, .refl _ _, rfl, rfl, hr, hw⟩

theorem Charged.trans (h : Charged p s u) (g : Charged p u e) : Charged p s e := by
  obtain ⟨L, hL⟩ := h.port
  obtain ⟨M, hM⟩ := g.port
  exact ⟨h.frame.trans g.frame, ⟨M, hM.trans (by rw [hL])⟩, h.ports.trans g.ports, g.serving.trans h.serving, g.stats.trans h.stats, g.regs, g.web⟩

theorem Port.setLane_other {v : Lane} (hv : v ≠ Lane.reset) (h : j ≠ l) : (x.setLane l v).lane j = x.lane j := by
  unfold Port.setLane Port.lane
  dsimp only
  unfold Table.put
  rw [if_neg hv, Table.get_insert_other h]

theorem State.chargeLane_loses (x : Port) (h : 15 < errs.length) (hr : Table.rising s.regs = true) (hw : Table.rising s.web.ports = true)
    (hu : ((s.portOf p).lane l).uncorr < 16) : Charged p s (State.chargeLane x errs p l s) ∧
      (x.charged errs l ≠ 0 → (State.chargeLane x errs p l s).fld f_WEB_LANE_FEC_uncorrectable p l = min 0xFF (s.fld f_WEB_LANE_FEC_uncorrectable p l + 1)) ∧
      (∀ j, j ≠ l → (State.chargeLane x errs p l s).fld f_WEB_LANE_FEC_uncorrectable p j = s.fld f_WEB_LANE_FEC_uncorrectable p j) ∧
      ∀ j, j ≠ l → ((State.chargeLane x errs p l s).portOf p).lane j = (s.portOf p).lane j := by
  unfold State.chargeLane
  dsimp only
  by_cases hn : x.charged errs l = 0
  · rw [if_pos hn]
    exact ⟨.refl hr hw, fun h => absurd hn h, fun _ _ => rfl, fun _ _ => rfl⟩
  · obtain ⟨c, hc⟩ : ∃ c, c = s.setFld f_WEB_LANE_FEC_uncorrectable (satAdd 0xFF (s.fld f_WEB_LANE_FEC_uncorrectable p l) 1) p l := ⟨_, rfl⟩
    have hcw : c.web = s.web := hc ▸ rfl
    have hcr : Table.rising c.regs = true := hc ▸ Table.rising_put hr
    have hcp : c.portOf p = s.portOf p := State.portOf_of_web hcw
    have hcweb : Table.rising c.web.ports = true := hcw ▸ hw
    obtain ⟨v, hv⟩ : ∃ v, v = { (s.portOf p).lane l with uncorr := ((s.portOf p).lane l).uncorr + 1 } := ⟨_, rfl⟩
    have hvr : v ≠ Lane.reset := fun he => absurd (congrArg Lane.uncorr (hv.symm.trans he)) (Nat.succ_ne_zero _)
    have hport : (c.setPort p ((s.portOf p).setLane l v)).portOf p = (s.portOf p).setLane l v := State.setPort_portOf hcweb
    rw [if_neg hn, if_neg (Nat.not_le.2 h), ← hc, hcp, ← hv, if_neg (by omega)]
    refine ⟨⟨?_, ⟨_, hport⟩, ?_, ?_, ?_, hcr, State.rising_setPort hcweb⟩, fun _ => ?_, fun j hj => ?_, fun j hj => ?_⟩
    · exact hc ▸ ((OnlyChanges.refl _ s).regs (by decide) _).setPort (by decide) p _
    · exact hcw ▸ State.sameBut_setPort hcweb
    · exact (show (c.setPort p _).web.serving = c.web.serving from rfl).trans (congrArg Web.serving hcw)
    · refine Eq.trans (show _ = c.rd .WEB_PORT_STATS p from rfl) ?_
      rw [hc]
      exact State.rd_wr_other hr _ regAddr_fec_ne_stats.symm
    · refine Eq.trans (show _ = c.fld f_WEB_LANE_FEC_uncorrectable p l from rfl) ?_
      rw [hc]
      refine (State.fld_setFld_same hr _ _ _ (by decide)).trans (Nat.mod_eq_of_lt ?_)
      exact Nat.lt_of_le_of_lt (Nat.min_le_left _ _) (by decide)
    · refine Eq.trans (show _ = c.fld f_WEB_LANE_FEC_uncorrectable p j from rfl) ?_
      rw [hc]
      exact State.fld_setFld_other hr _ (regAddr_fec_ne hj)
    · rw [hport]
      exact Port.setLane_other hvr hj

theorem State.each_loses (x : Port) (h : 15 < errs.length) (p : Nat) : ∀ (l : List Nat) {s : State}, l.Nodup → Table.rising s.regs = true →
    Table.rising s.web.ports = true → (∀ k ∈ l, ((s.portOf p).lane k).uncorr < 16) →
    Charged p s (s.each l fun l s => State.chargeLane x errs p l s) ∧
      (∀ j, j ∉ l → (s.each l fun l s => State.chargeLane x errs p l s).fld f_WEB_LANE_FEC_uncorrectable p j = s.fld f_WEB_LANE_FEC_uncorrectable p j) ∧
      ∀ j ∈ l, x.charged errs j ≠ 0 → (s.each l fun l s => State.chargeLane x errs p l s).fld f_WEB_LANE_FEC_uncorrectable p j =
        min 0xFF (s.fld f_WEB_LANE_FEC_uncorrectable p j + 1)
  | [], s, _, hr, hw, _ => ⟨.refl hr hw, fun _ _ => rfl, fun j hj => by simp at hj⟩
  | k :: l, s, hd, hr, hw, hu => by
    obtain ⟨hk, hd'⟩ := List.nodup_cons.1 hd
    obtain ⟨hstep, hval, hother, hlanes⟩ := State.chargeLane_loses x h hr hw (hu k (List.mem_cons_self ..))
    obtain ⟨u, hu'⟩ : ∃ u, u = State.chargeLane x errs p k s := ⟨_, rfl⟩
    have hfst : s.each (k :: l) (fun l s => State.chargeLane x errs p l s) = u.each l fun l s => State.chargeLane x errs p l s := hu' ▸ rfl
    rw [← hu'] at hstep hval hother hlanes
    have hul : ∀ i ∈ l, ((u.portOf p).lane i).uncorr < 16 := fun i hi => by
      rw [hlanes i fun hik => hk (hik ▸ hi)]
      exact hu i (List.mem_cons_of_mem _ hi)
    obtain ⟨hrest, hsame, hset⟩ := State.each_loses x h p l (s := u) hd' hstep.regs hstep.web hul
    rw [hfst]
    refine ⟨hstep.trans hrest, fun j hj => ?_, fun j hj hn => ?_⟩
    · obtain ⟨hjk, hjl⟩ := not_or.1 (mt List.mem_cons.2 hj)
      exact (hsame j hjl).trans (hother j hjk)
    · rcases List.mem_cons.1 hj with rfl | hjl
      · exact (hsame j hk).trans (hval hn)
      · rw [hset j hjl hn, hother j fun hjk => hk (hjk ▸ hjl)]

end Charges

end Sys2Proof.Machine
end

section
/-!
PROOFS. What a received flit makes of its port (R266, R267, R270, R273, R275).
-/

namespace Sys2Proof.Machine

open Sys2Proof

section FlitIns
variable {s : State} {p : Nat} {x y : Port} {f : Flit} {errs : List Nat}

/-! ## The codeword of a flit (R259, R260) -/

/-- The symbols in error that a codeword has. -/
def codeErrs (errs : List Nat) : List Nat := (errs.filter fun k => decide (k < 544)).eraseDups

theorem mem_codeErrs {k : Nat} : k ∈ codeErrs errs ↔ k ∈ errs ∧ k < 544 := by
  unfold codeErrs
  rw [List.mem_eraseDups, List.mem_filter, decide_eq_true_eq]

/-- A port whose receiver has taken a codeword. -/
def Port.decodes (x : Port) (n : Nat) : Port := { x with rxCode := (x.rxCode.decoded n).next }

theorem State.takeCodeword_decodes (hr : Table.rising s.web.ports = true) (hx : s.portOf p = x) (errs : List Nat) : s.takeCodeword p errs =
    (if x.rxCode.fresh then
        (s.setPort p (x.decodes (codeErrs errs).length)).each (List.range 3) fun l s => State.chargeLane x (codeErrs errs) p l s
      else s.setPort p (x.decodes (codeErrs errs).length),
      (x.rxCode.decoded (codeErrs errs).length).spoils) := by
  obtain ⟨n, hn⟩ : ∃ n, n = (codeErrs errs).length := ⟨_, rfl⟩
  have hcharge : (s.setPort p (x.decodes n)).chargeLanes p (codeErrs errs) =
      (s.setPort p (x.decodes n)).each (List.range 3) fun l s => State.chargeLane x (codeErrs errs) p l s := by
    rw [State.chargeLanes_each, State.setPort_portOf hr]
    rfl
  rw [← hn, ← hcharge, hn, ← hx]
  rfl

theorem State.takeCodeword_clean (hr : Table.rising s.web.ports = true) (hx : s.portOf p = x) :
    s.takeCodeword p [] = (s.setPort p (x.decodes 0), (x.rxCode.decoded 0).spoils) := by
  have hnone : (s.setPort p (x.decodes 0)).each (List.range 3) (fun l s => State.chargeLane x [] p l s) = s.setPort p (x.decodes 0) := rfl
  rw [State.takeCodeword_decodes hr hx, show codeErrs [] = [] from rfl, List.length_nil, hnone, ite_self]

theorem RxCode.spoils_lost {c : RxCode} {n : Nat} (hc : c.fresh = true) (h : 15 < n) : (c.decoded n).spoils = true := by
  have hn : decide (15 < n) = true := decide_eq_true h
  obtain ⟨count, place, lost0, lost1⟩ := c
  have hplace : place = 0 ∨ place = 2 := of_decide_eq_true hc
  rcases hplace with rfl | rfl
  · exact hn
  · exact (congrArg (lost0 || ·) hn).trans (Bool.or_true _)

/-! ## Flits that are discarded (R267) -/

/-- A port that discards a flit. -/
def Port.discards (x : Port) : Port := { x with skipping := true, nakDue := x.nakDue || ! x.skipping }

theorem State.discard_discards (hr : Table.rising s.web.ports = true) : (s.setPort p x).discard p = s.setPort p x.discards := by
  unfold State.discard
  rw [State.setPort_portOf hr]
  exact State.setPort_setPort hr

theorem State.receiveFlit_bad : s.receiveFlit p f false = (s.tally f_WEB_PORT_STATS_crc_errors 1 p).setPort p (s.portOf p).discards := rfl

/-! ## The trailer of a flit -/

theorem Port.acked_rxSeq (a : Nat) : (y.acked a).rxSeq = y.rxSeq := by
  unfold Port.acked
  split
  · rfl
  · dsimp only
    split <;> rfl

theorem Port.acked_empty (h : y.replay = []) (a : Nat) : y.acked a = y := by
  unfold Port.acked
  rw [h]

theorem State.trailer_acks (hr : Table.rising s.web.ports = true) (hnak : f.nak = false) (hcvc : f.cvc = 0) :
    (s.setPort p y).trailer p f = s.setPort p (y.acked f.ack) := by
  unfold State.trailer
  dsimp only
  rw [State.setPort_portOf hr, if_pos hcvc, hnak, if_neg Bool.false_ne_true, State.setPort_setPort hr]

/-- A port that has taken a flit in order. -/
def Port.inOrder (x : Port) : Port := { x with rxSeq := (x.rxSeq + 1) % 512, skipping := false }

section Taken
variable (hr : Table.rising s.web.ports = true) (hnak : f.nak = false) (hcvc : f.cvc = 0)
include hr hnak hcvc

theorem State.receiveFlit_idle (ht : f.type = 0) : (s.setPort p y).receiveFlit p f true =
    s.setPort p (if f.seq = y.rxSeq then { y.acked f.ack with skipping := false } else y.acked f.ack) := by
  have hclass : flitClass f.type = .linkLocal := by rw [ht]; rfl
  unfold State.receiveFlit
  rw [if_neg (by decide), State.trailer_acks hr hnak hcvc]
  dsimp only
  rw [State.setPort_portOf hr, if_pos ht, if_pos hclass]
  have hexpected : (y.acked f.ack).rxSeq = y.rxSeq := Port.acked_rxSeq f.ack
  by_cases hseq : f.seq = y.rxSeq
  · rw [if_neg (not_not.2 (hseq.trans hexpected.symm)), if_pos hseq]
    unfold State.seqSeen
    rw [State.setPort_portOf hr, State.setPort_setPort hr]
  · rw [if_pos fun he => hseq (he.trans hexpected), if_neg hseq]

theorem State.receiveFlit_outOfOrder (hrep : y.replay = []) (ht : f.type ≠ 0) (hseq : f.seq ≠ y.rxSeq) :
    (s.setPort p y).receiveFlit p f true = s.setPort p y.discards := by
  unfold State.receiveFlit
  rw [if_neg (by decide), State.trailer_acks hr hnak hcvc, Port.acked_empty hrep]
  dsimp only
  rw [State.setPort_portOf hr, if_pos hseq, if_neg ht, State.discard_discards hr]

theorem State.receiveFlit_inOrder (hrep : y.replay = []) (ht : f.type = 0x10) (hseq : f.seq = y.rxSeq) (hst : y.st = .active) :
    (s.setPort p y).receiveFlit p f true = (s.setPort p y.inOrder).deliverFlit p f := by
  have hclass : flitClass f.type ≠ .linkLocal := by rw [ht]; decide
  unfold State.receiveFlit
  rw [if_neg (by decide), State.trailer_acks hr hnak hcvc, Port.acked_empty hrep]
  dsimp only
  rw [State.setPort_portOf hr, if_neg (not_not.2 hseq), if_neg hclass, if_pos hst, State.setPort_setPort hr]
  unfold State.seqSeen
  rw [State.setPort_portOf hr, State.setPort_setPort hr]
  rfl

end Taken

/-! ## Requests in order (R273, R275) -/

theorem flitCvc_req (ht : f.type = 0x10) : flitCvc f = 2 + f.vc := by
  unfold flitCvc
  rw [ht]
  rfl

theorem State.deliverFlit_mine (ht : f.type = 0x10) (hdst : f.dst = s.node) (hv : s.dev.nodeValid = true) :
    (s.setPort p y).deliverFlit p f = (s.setPort p y).takeReq p f := by
  have hmine : (s.setPort p y).isMine f.dst = true := (congrArg (· || _) (decide_eq_true hdst)).trans (Bool.true_or _)
  have hv' : (s.setPort p y).dev.nodeValid = true := hv
  unfold State.deliverFlit
  rw [ht, hmine, hv']
  rfl

theorem State.takeReq_serves (hr : Table.rising s.web.ports = true) (hp : p < 4) (h : s.web.serving.length < 256) : (s.setPort p y).takeReq p f =
    (s.setPort p (y.owe (flitCvc f))).setWeb { (s.setPort p (y.owe (flitCvc f))).web with serving := s.web.serving ++ [f] } := by
  have hlen : (s.setPort p y).web.serving.length < 256 := h
  unfold State.takeReq
  rw [if_pos hlen, if_pos hp, State.setPort_portOf hr, State.setPort_setPort hr]
  rfl

theorem State.takeReq_waits (h : 256 ≤ s.web.serving.length) :
    (s.setPort p y).takeReq p f = (s.setPort p y).setWeb { (s.setPort p y).web with waiting := s.web.waiting ++ [(p, f)] } :=
  if_neg (Nat.not_lt.2 h)

theorem State.routeTo_setPort (hr : Table.rising s.web.ports = true) (hst : y.st = (s.portOf p).st) (dst : Nat) :
    (s.setPort p y).routeTo dst = s.routeTo dst := by
  have hactive : (s.setPort p y).portActive = s.portActive := by
    funext q
    unfold State.portActive
    by_cases hq : q = p
    · rw [hq, State.setPort_portOf hr, hst]
    · rw [show (s.setPort p y).portOf q = s.portOf q from Table.get_put_other hq hr]
  unfold State.routeTo
  rw [hactive]
  rfl

theorem State.deliverFlit_routes {q : Nat} {w : Bool} (hr : Table.rising s.web.ports = true) (hst : y.st = (s.portOf p).st) (ht : f.type = 0x10)
    (hmine : s.isMine f.dst = false) (hhops : f.hops + 1 ≤ s.fld f_WEB_CTL_max_hops) (hroute : s.routeTo f.dst = some (q, w)) :
    (s.setPort p y).deliverFlit p f = (s.setPort p (y.owe (flitCvc f))).sendOn q { f with vc := nextVc f.vc q w (some p) } := by
  have hst' : (y.owe (flitCvc f)).st = (s.portOf p).st := by
    unfold Port.owe
    rw [← hst]
    split <;> rfl
  have hmine' : (s.setPort p y).isMine f.dst = false := hmine
  have hmax : ¬ (some p : Option Nat).isSome = true ∨ ¬ (s.setPort p (y.owe (flitCvc f))).fld f_WEB_CTL_max_hops < f.hops + 1 := .inr (Nat.not_lt.2 hhops)
  have hdeliver : (s.setPort p y).deliverFlit p f = (s.setPort p (y.owe (flitCvc f))).routeFlit f (some p) := by
    unfold State.deliverFlit
    rw [ht, hmine', State.setPort_portOf hr, State.setPort_setPort hr]
    rfl
  have htry : (s.setPort p (y.owe (flitCvc f))).tryRoute f (some p) =
      some ((s.setPort p (y.owe (flitCvc f))).sendOn q { f with vc := nextVc f.vc q w (some p) }) := by
    unfold State.tryRoute
    rw [State.routeTo_setPort hr hst', hroute]
  rw [hdeliver]
  unfold State.routeFlit
  dsimp only
  rw [if_neg (not_and_or.2 hmax), htry]

end FlitIns

end Sys2Proof.Machine
end

section
/-!
PROOFS. Flits are received, replayed and sent (R260, R265 to R268, R270, R271, R273, R275, R277).
-/

namespace Sys2Proof.Machine

open Sys2Proof

section Codewords
variable {b : State} {p : Nat} {x : Port} {errs : List Nat}

theorem Port.decodes_charged (errs : List Nat) (l : Nat) : (codeErrs errs).filter (fun k => decide (x.carrier k = l)) =
    ((errs.filter fun k => decide (k < 544)).eraseDups).filter fun k => decide (x.carrier k = l) := rfl

/-- A codeword that is corrected changes the receiver and the counts of corrected symbols. -/
theorem State.takeCodeword_corrects (hr : Table.rising b.regs = true) (hw : Table.rising b.web.ports = true) (hx : b.portOf p = x)
    (h : (codeErrs errs).length ≤ 15) : ∃ R, (b.takeCodeword p errs).1 = { b.setPort p (x.decodes (codeErrs errs).length) with regs := R } ∧
      Table.rising R = true ∧ Table.SameBut ((List.range 3).map fun l => regAddr .WEB_LANE_FEC p l) b.regs R ∧
      ∀ l, l < 3 → x.rxCode.fresh = true → (b.takeCodeword p errs).1.fld f_WEB_LANE_FEC_corrected p l =
        min 0xFFFFFF (b.fld f_WEB_LANE_FEC_corrected p l + x.charged (codeErrs errs) l) := by
  obtain ⟨R, he, hrR, hsame, hval⟩ := State.each_corrects x h p (List.range 3) (s := b.setPort p (x.decodes (codeErrs errs).length))
    List.nodup_range hr
  rw [State.takeCodeword_decodes hw hx]
  dsimp only
  by_cases hf : x.rxCode.fresh = true
  · rw [if_pos hf]
    exact ⟨R, he, hrR, hsame, fun l hl _ => hval l (List.mem_range.2 hl)⟩
  · rw [if_neg hf]
    exact ⟨b.regs, rfl, hr, .refl _ _, fun l _ hf' => absurd hf' hf⟩

/-- One that is not changes the receiver, and counts for every lane that carried a symbol in error. -/
theorem State.takeCodeword_loses (hr : Table.rising b.regs = true) (hw : Table.rising b.web.ports = true) (hx : b.portOf p = x)
    (h : 15 < (codeErrs errs).length) (hf : x.rxCode.fresh = true) (hu : ∀ l, l < 3 → (x.lane l).uncorr < 16) :
    Charged p (b.setPort p (x.decodes (codeErrs errs).length)) (b.takeCodeword p errs).1 ∧
      ∀ l, l < 3 → x.charged (codeErrs errs) l ≠ 0 → (b.takeCodeword p errs).1.fld f_WEB_LANE_FEC_uncorrectable p l =
        min 0xFF (b.fld f_WEB_LANE_FEC_uncorrectable p l + 1) := by
  obtain ⟨hc, -, hval⟩ := State.each_loses x h p (List.range 3) (s := b.setPort p (x.decodes (codeErrs errs).length)) List.nodup_range hr
    (State.rising_setPort hw) (fun k hk => by rw [State.setPort_portOf hw]; exact hu k (List.mem_range.1 hk))
  rw [State.takeCodeword_decodes hw hx, if_pos hf]
  exact ⟨hc, fun l hl hn => hval l (List.mem_range.2 hl) hn⟩

theorem regAddr_stats_not_fec : regAddr .WEB_PORT_STATS p 0 ∉ (List.range 3).map fun l => regAddr .WEB_LANE_FEC p l := by
  simp only [List.mem_map, not_exists, not_and]
  exact fun l _ => regAddr_fec_ne_stats

theorem Port.charged_of_mem {k l : Nat} (hk : k ∈ errs) (hlt : k < 544) (hl : x.carrier k = l) : x.charged (codeErrs errs) l ≠ 0 :=
  List.length_pos_iff_ne_nil.2 (List.ne_nil_of_mem (List.mem_filter.2 ⟨mem_codeErrs.2 ⟨hk, hlt⟩, decide_eq_true hl⟩)) |>.ne'

/-- A flit whose codewords are correctable and whose CRC is correct. -/
theorem State.takeFlit_clean {data : List Byte} (hw : Table.rising b.web.ports = true) (hx : b.portOf p = x) (hcrc : flitCrcOk data = true)
    (hs : (x.rxCode.decoded 0).spoils = false) : b.takeFlit p data [] = (b.setPort p (x.decodes 0)).receiveFlit p (flitOfBytes data) true := by
  unfold State.takeFlit
  rw [State.takeCodeword_clean hw hx, hs, hcrc]
  rfl

theorem Port.enqueue_req {f : Flit} (ht : f.type = 0x10) : x.enqueue f = { x with qReq := x.qReq ++ [f] } := by
  have hclass : flitClass f.type = .req := by rw [ht]; rfl
  unfold Port.enqueue
  rw [hclass]

/-- One in order, with nothing to be acknowledged. -/
theorem State.takeFlit_inOrder {data : List Byte} (hw : Table.rising b.web.ports = true) (hx : b.portOf p = x) (hcrc : flitCrcOk data = true)
    (hs : (x.rxCode.decoded 0).spoils = false) (hnak : (flitOfBytes data).nak = false) (hcvc : (flitOfBytes data).cvc = 0) (hrep : x.replay = [])
    (ht : (flitOfBytes data).type = 0x10) (hseq : (flitOfBytes data).seq = x.rxSeq) (hst : x.st = .active) :
    b.takeFlit p data [] = (b.setPort p (x.decodes 0).inOrder).deliverFlit p (flitOfBytes data) :=
  (State.takeFlit_clean hw hx hcrc hs).trans (State.receiveFlit_inOrder (y := x.decodes 0) hw hnak hcvc hrep ht hseq hst)

end Codewords

/-- Settles O48, case by case of the flit received or sent: what a codeword charges to the lanes is the part `Charges`, what a flit makes of
its port the parts `FlitIns` and `FlitSlots`. -/
theorem flits : Obligations.Flits := by
  intro s t p x hcan hpow hp hdom hx hst
  obtain ⟨b, hb⟩ : ∃ b, s.begin t = b := ⟨_, rfl⟩
  have hcb : b.canonical := hb ▸ State.canonical_begin hcan t
  have hregs : Table.rising b.regs = true := hcb.fine.regs
  have hports : Table.rising b.web.ports = true := hcb.fine.ports
  have hok : isPort p = true := isPort_of hp
  rw [hb] at hdom hx ⊢
  have hcross : b.flitsCross p = true := State.flitsCross_active hdom (hx ▸ hst)
  have hokIn {data : List Byte} (h : data.length = 256) : (isPort p && isFlit data) = true := by
    rw [hok]
    exact decide_eq_true h
  have hslot : (if b.flitsCross p then b.flitSlot p else b) = b.flitSlot p := if_pos hcross
  have hstep (g : State → State) : b.inPort p .active g = g b := State.inPort_in g hdom (hx ▸ hst)
  refine ⟨fun data errs n hlen hn => ⟨fun hcrc hn15 => ?_, fun hn15 hfresh hunc => ?_⟩,
    fun data f y hlen hf hcrc hspoil hy hnak hcvc => ⟨fun ht => ?_, fun hrep ht hseq hdst hv => ⟨fun h => ?_, fun h => ?_⟩,
      fun q w hrep ht hseq hmine hhops hroute hq => ?_, fun hrep ht hseq => ?_⟩,
    fun h => ?_, fun a l hs hrep => ⟨fun h => ?_, fun h => ⟨fun ht => ?_, fun ht => ?_⟩⟩,
    fun hw => ⟨fun f rest hq => ?_, fun f rest hl ha hlen hbq hrsp hq ht hvc hcr hc => ?_, fun hl ha h => ?_⟩,
    fun f rest hw hq ha hlen ht hvc hcr hc => ?_, fun data errs hlen c hc => ?_⟩
  · have hn' : n = (codeErrs errs).length := hn
    subst hn'
    obtain ⟨R, hcode, hrR, hsame, hval⟩ := State.takeCodeword_corrects hregs hports hx hn15
    obtain ⟨u, hu⟩ : ∃ u, u = (b.takeCodeword p errs).1 := ⟨_, rfl⟩
    rw [← hu] at hcode hval
    have hur : Table.rising u.regs = true := by rw [hcode]; exact hrR
    have hus : Table.SameBut ((List.range 3).map fun l => regAddr .WEB_LANE_FEC p l) b.regs u.regs := by rw [hcode]; exact hsame
    have huw : Table.rising u.web.ports = true := by rw [hcode]; exact State.rising_setPort hports
    have hup : u.portOf p = x.decodes (codeErrs errs).length := by rw [hcode]; exact State.setPort_portOf hports
    have hubw : Table.SameBut [p] b.web.ports u.web.ports := by rw [hcode]; exact State.sameBut_setPort hports
    have hframe : OnlyChanges [.regs, .web] b u := hcode ▸ ((OnlyChanges.refl _ b).setPort (by decide) p _).regs (by decide) R
    have htake : b.takeFlit p data errs = (u.tally f_WEB_PORT_STATS_crc_errors 1 p).setPort p (x.decodes (codeErrs errs).length).discards := by
      unfold State.takeFlit
      dsimp only
      rw [hcrc, Bool.and_false, ← hu, State.receiveFlit_bad, hup]
    have hcount : u.fld f_WEB_PORT_STATS_crc_errors p = b.fld f_WEB_PORT_STATS_crc_errors p := State.fld_sameBut hus regAddr_stats_not_fec
    have hport : ((u.tally f_WEB_PORT_STATS_crc_errors 1 p).setPort p (x.decodes (codeErrs errs).length).discards).portOf p =
        (x.decodes (codeErrs errs).length).discards := State.setPort_portOf huw
    refine .runs hb hpow rfl (hokIn hlen) ((if_pos hcross).trans htake) ((hframe.tally (by decide) _ _ _).setPort (by decide) p _)
      ⟨hport, hubw.trans (State.sameBut_setPort huw), ?_, fun l hl hf => ?_, ?_⟩
    · exact (State.fld_tally_half hur p rfl (by decide)).trans (by rw [hcount])
    · exact (State.fld_setFld_other hur _ regAddr_fec_ne_stats).trans (hval l hl hf)
    · exact (hus.mono fun k hk => List.mem_cons_of_mem _ hk).trans ((State.sameBut_tally hur f_WEB_PORT_STATS_crc_errors 1 p).mono (by simp [f_WEB_PORT_STATS_crc_errors]))
  · have hn' : n = (codeErrs errs).length := hn
    subst hn'
    obtain ⟨hc, hval⟩ := State.takeCodeword_loses hregs hports hx hn15 hfresh hunc
    have hspoils : (b.takeCodeword p errs).2 = true := by
      rw [State.takeCodeword_decodes hports hx]
      exact RxCode.spoils_lost hfresh hn15
    obtain ⟨u, hu⟩ : ∃ u, u = (b.takeCodeword p errs).1 := ⟨_, rfl⟩
    rw [← hu] at hc hval
    obtain ⟨L, hL⟩ := hc.port
    rw [State.setPort_portOf hports] at hL
    have htake : b.takeFlit p data errs = (u.tally f_WEB_PORT_STATS_crc_errors 1 p).setPort p (u.portOf p).discards := by
      unfold State.takeFlit
      dsimp only
      rw [hspoils, ← hu]
      exact State.receiveFlit_bad
    have hport : ((u.tally f_WEB_PORT_STATS_crc_errors 1 p).setPort p (u.portOf p).discards).portOf p = (u.portOf p).discards :=
      State.setPort_portOf hc.web
    have hcount : u.fld f_WEB_PORT_STATS_crc_errors p = b.fld f_WEB_PORT_STATS_crc_errors p := congrArg (bits · 0 16) hc.stats
    refine .runs hb hpow rfl (hokIn hlen) ((if_pos hcross).trans htake)
      (((((OnlyChanges.refl _ b).setPort (by decide) p _).trans hc.frame).tally (by decide) _ _ _).setPort (by decide) p _)
      ⟨?_, ?_, ?_, ?_, fun l hl hk => ?_, hc.serving, ((State.sameBut_setPort hports).trans hc.ports).trans (State.sameBut_setPort hc.web)⟩
    · rw [hport, hL]
      rfl
    · rw [hport]
      rfl
    · rw [hport, hL]
      rfl
    · exact (State.fld_tally_half hc.regs p rfl (by decide)).trans (by rw [hcount])
    · obtain ⟨k, hk, hlt, hcar⟩ := hk
      exact (State.fld_setFld_other hc.regs _ regAddr_fec_ne_stats).trans (hval l hl (Port.charged_of_mem hk hlt hcar))
  · have hy' : y = x.decodes 0 := hy
    subst hy' hf
    have htake := (State.takeFlit_clean hports hx hcrc hspoil).trans (State.receiveFlit_idle (y := x.decodes 0) hports hnak hcvc ht)
    exact .runs hb hpow rfl (hokIn hlen) ((if_pos hcross).trans htake) ((OnlyChanges.refl _ b).setPort (by decide) p _)
      ⟨State.setPort_portOf hports, State.sameBut_setPort hports, rfl⟩
  · have hy' : y = x.decodes 0 := hy
    subst hf
    have htake := (State.takeFlit_inOrder hports hx hcrc hspoil hnak hcvc hrep ht hseq hst).trans
      ((State.deliverFlit_mine ht hdst hv).trans (State.takeReq_serves hports hp h))
    refine .runs hb hpow rfl (hokIn hlen) ((if_pos hcross).trans htake) ((((OnlyChanges.refl _ b).setPort (by decide) p _)).web (by decide) _)
      ⟨rfl, rfl, ?_, State.sameBut_setPort hports⟩
    refine (State.setPort_portOf hports).trans ?_
    rw [flitCvc_req ht, hy']
    exact if_neg (by omega)
  · have hy' : y = x.decodes 0 := hy
    subst hy' hf
    have htake := (State.takeFlit_inOrder hports hx hcrc hspoil hnak hcvc hrep ht hseq hst).trans
      ((State.deliverFlit_mine ht hdst hv).trans (State.takeReq_waits h))
    exact .runs hb hpow rfl (hokIn hlen) ((if_pos hcross).trans htake) ((((OnlyChanges.refl _ b).setPort (by decide) p _)).web (by decide) _)
      ⟨rfl, rfl, State.setPort_portOf hports, State.sameBut_setPort hports⟩
  · subst hf
    have hst' : (x.decodes 0).inOrder.st = (b.portOf p).st := hx ▸ rfl
    have htake := (State.takeFlit_inOrder hports hx hcrc hspoil hnak hcvc hrep ht hseq hst).trans
      (State.deliverFlit_routes hports hst' ht hmine hhops hroute)
    obtain ⟨z, hz⟩ : ∃ z, z = (x.decodes 0).inOrder.owe (flitCvc (flitOfBytes data)) := ⟨_, rfl⟩
    have hzseq : z.rxSeq = (x.rxSeq + 1) % 512 := by
      rw [hz]
      unfold Port.owe
      split <;> rfl
    have hzw : Table.rising (b.setPort p z).web.ports = true := State.rising_setPort hports
    have hzq : (b.setPort p z).portOf q = b.portOf q := Table.get_put_other hq hports
    rw [← hz] at htake
    refine .runs hb hpow rfl (hokIn hlen) ((if_pos hcross).trans htake) ((((OnlyChanges.refl _ b).setPort (by decide) p _)).setPort (by decide) q _)
      ⟨rfl, ⟨{ flitOfBytes data with vc := nextVc (flitOfBytes data).vc q w (some p) }, ?_, rfl⟩, ?_, ?_⟩
    · unfold State.sendOn
      rw [State.setPort_portOf hzw, hzq, Port.enqueue_req (by exact ht)]
    · refine (congrArg Port.rxSeq ?_).trans hzseq
      exact (Table.get_put_other (Ne.symm hq) hzw).trans (State.setPort_portOf hports)
    · exact ((State.sameBut_setPort hports).fst).trans (Table.SameBut.snd (State.sameBut_setPort hzw))
  · have hy' : y = x.decodes 0 := hy
    subst hy' hf
    have htake := (State.takeFlit_clean hports hx hcrc hspoil).trans (State.receiveFlit_outOfOrder (y := x.decodes 0) hports hnak hcvc hrep ht hseq)
    exact .runs hb hpow rfl (hokIn hlen) ((if_pos hcross).trans htake) ((OnlyChanges.refl _ b).setPort (by decide) p _)
      ⟨State.setPort_portOf hports, State.sameBut_setPort hports, rfl⟩
  · subst hx
    exact .runs hb hpow rfl hok ((hstep _).trans (State.replayDue_none h)) (OnlyChanges.refl _ _) trivial
  · subst hx
    exact .runs hb hpow rfl hok ((hstep _).trans (State.replayDue_early hs h)) (OnlyChanges.refl _ _) trivial
  · subst hx
    have hreplay := (State.replayDue_due hs h).trans (State.replay_again hrep ht)
    obtain ⟨u, hu⟩ : ∃ u, u = b.setPort p { b.portOf p with again := (b.portOf p).replay.length, tries := (b.portOf p).tries + 1
                                                            sentAt := (b.portOf p).sentAt.map fun _ => b.now } := ⟨_, rfl⟩
    have hur : Table.rising u.regs = true := hu ▸ hregs
    have hframe : OnlyChanges [.regs, .web] b (u.tally f_WEB_PORT_STATS_replays 1 p) :=
      hu ▸ ((OnlyChanges.refl _ b).setPort (by decide) p _).tally (by decide) _ _ _
    rw [← hu] at hreplay
    refine .runs hb hpow rfl hok ((hstep _).trans hreplay) hframe ⟨?_, ?_, ?_, ?_⟩
    · exact hu ▸ State.setPort_portOf hports
    · exact hu ▸ State.sameBut_setPort hports
    · exact (State.fld_tally_half hur p rfl (by decide)).trans (by rw [hu]; rfl)
    · exact hu ▸ State.sameBut_tally (s := b.setPort p _) hregs f_WEB_PORT_STATS_replays 1 p
  · subst hx
    have hreplay := (State.replayDue_due hs h).trans (State.replay_retrains hrep ht)
    obtain ⟨hport, hsame, -, hon, -⟩ := State.portRetrain_shows (p := p) hregs hports hp
    exact .runs hb hpow rfl hok ((hstep _).trans hreplay)
      ((((OnlyChanges.refl _ b).setPort (by decide) p _).stick (by decide) f_WEB_EVENTS_retrain 0).tally (by decide) f_WEB_PORT_RETRAIN_count 1 p
        |>.fault rfl 0x700 1 (.port p) (webMaster p)) ⟨hport, hsame, hon⟩
  · have hsend := State.flitSlot_local hx hw hq
    obtain ⟨c, hc⟩ := State.putOnLink_setPort (x := { x.waited with qLocal := rest }) (p := p) hports { b.refreshed p f with dst := x.peerNode } x.txSeq
    have hport := State.setPort_portOf (p := p) (x := Port.linked { x.waited with qLocal := rest } { b.refreshed p f with dst := x.peerNode } x.txSeq c) hports
    refine .runs hb hpow rfl hok (hslot.trans (hsend.trans hc)) ((OnlyChanges.refl _ b).setPort (by decide) p _) ?_
    rw [hport]
    exact ⟨rfl, rfl, rfl, rfl, ⟨_, rfl, State.refreshed_type, rfl, State.refreshed_payload, rfl, rfl⟩, State.sameBut_setPort hports, rfl⟩
  · have hcvc := flitCvc_req ht
    have hsend := State.flitSlot_req hx hst hw hl ha hlen hbq hrsp hq (by rw [hcvc]; exact hc)
    obtain ⟨c, hc'⟩ := State.sendNew_setPort (x := { x with qReq := rest }) (p := p) hports f
    have hport := State.setPort_portOf (p := p) (x := Port.launched { x with qReq := rest } f c b.now) hports
    refine .runs hb hpow rfl hok (hslot.trans (hsend.trans hc')) ((OnlyChanges.refl _ b).setPort (by decide) p _) ?_
    rw [hport]
    refine ⟨rfl, rfl, rfl, ?_, ?_, rfl, ⟨_, rfl, rfl⟩, State.sameBut_setPort hports, rfl⟩
    · have hspent : Table.get 0 (2 + f.vc) (Table.put 0 (flitCvc f) (x.credit (flitCvc f) - 1) x.credits) = x.credit (flitCvc f) - 1 := by
        rw [hcvc]
        exact Table.get_put_same hcr
      refine (congrArg (· + 1) hspent).trans ?_
      rw [hcvc]
      exact Nat.sub_add_cancel hc
    · exact hcvc ▸ Table.SameBut.put hcr _ _ _
  · have hsend := State.flitSlot_idle hx hw hl ha h
    obtain ⟨c, hc⟩ := State.putOnLink_setPort (x := x.waited) (p := p) hports (b.formFlit x.peerNode 0 0 0 0 0 []) x.txSeq
    have hport := State.setPort_portOf (p := p) (x := x.waited.linked (b.formFlit x.peerNode 0 0 0 0 0 []) x.txSeq c) hports
    refine .runs hb hpow rfl hok (hslot.trans (hsend.trans hc)) ((OnlyChanges.refl _ b).setPort (by decide) p _) ?_
    rw [hport]
    exact ⟨⟨_, rfl, rfl, rfl⟩, rfl, rfl, rfl, State.sameBut_setPort hports, rfl⟩
  · have hcvc : flitCvc f = 6 + f.vc := by
      unfold flitCvc
      rw [ht]
      rfl
    have hsend := State.flitSlot_stream hx hst hw ha hlen hq (by rw [hcvc]; exact hc)
    obtain ⟨c, hc'⟩ := State.sendNew_setPort (x := { x with qStream := rest }) (p := p) hports f
    have hport := State.setPort_portOf (p := p) (x := Port.launched { x with qStream := rest } f c b.now) hports
    refine .runs hb hpow rfl hok (hslot.trans (hsend.trans hc')) ((OnlyChanges.refl _ b).setPort (by decide) p _) ?_
    rw [hport]
    exact ⟨rfl, if_pos (by omega), rfl, ⟨_, rfl, ht, rfl⟩, State.sameBut_setPort hports, rfl⟩
  · simp only [List.mem_cons, List.not_mem_nil, or_false] at hc
    rcases hc with rfl | rfl | rfl
    · exact ⟨s.act t fun s => if s.flitsCross p then s.takeFlit p data errs else s,
        by rw [show exec (.flitReceive t p data errs) s = outIf (isPort p && isFlit data) _ from rfl, hokIn hlen]; rfl⟩
    · exact ⟨s.act t fun s => s.inPort p .active fun s => s.replayDue p, by rw [show exec (.replayTimeout t p) s = outIf (isPort p) _ from rfl, hok]; rfl⟩
    · exact ⟨s.act t fun s => if s.flitsCross p then s.flitSlot p else s, by rw [show exec (.flitSend t p) s = outIf (isPort p) _ from rfl, hok]; rfl⟩

end Sys2Proof.Machine
end

section
/-!
PROOFS. What a memory access and a fault leave of the registers that routing reads, so that a response goes to the port that routing gave
before them (R274, R275).
-/

namespace Sys2Proof.Machine

open Sys2Proof

section Nets
variable {s t u : State} {p q a : Nat} {w : Bool}

/-- The addresses of the registers that routing reads: the node ID and the block of the web. -/
def netAddr (a : Nat) : Prop := a = regAddr .DEVICE_NODE 0 0 ∨ 0x800500000 ≤ a ∧ a < 0x800600000

theorem netAddr_not_fault (h : netAddr a) : ¬ faultAddr a := by
  rcases h with rfl | ⟨h1, h2⟩
  · rintro (h' | h' | h' | h' | h' | ⟨f, hf, h'⟩ | ⟨f, hf, h'⟩ | h') <;> simp only [regAddr, regRow, blkBase] at h' <;> omega
  · exact not_faultAddr_web h1 h2

theorem netAddr_not_memc (h : 0x800400000 ≤ a) (h2 : a < 0x800500000) : ¬ netAddr a := by
  rintro (h' | ⟨h1, -⟩)
  · simp only [regAddr, regRow, blkBase] at h'
    omega
  · omega

/-- The registers that routing reads stay as they are. -/
structure Nets (s t : State) : Prop where
  rising : Table.rising s.regs = true → Table.rising t.regs = true
  regs : Table.rising s.regs = true → ∀ a, netAddr a → ∀ d, Table.get d a t.regs = Table.get d a s.regs

theorem Nets.refl (s : State) : Nets s s := ⟨id, fun _ _ _ _ => rfl⟩

theorem Nets.trans (h : Nets s t) (k : Nets t u) : Nets s u :=
  ⟨fun hr => k.rising (h.rising hr), fun hr a ha d => (k.regs (h.rising hr) a ha d).trans (h.regs hr a ha d)⟩

theorem Nets.logs (h : Nets s t) (k : Logs t u) : Nets s u :=
  h.trans ⟨k.rising, fun hr a ha d => k.regs hr a (netAddr_not_fault ha) d⟩

theorem Nets.same (h : Nets s t) (hr : u.regs = t.regs) : Nets s u := ⟨fun h' => hr ▸ h.rising h', fun h' a ha d => hr ▸ h.regs h' a ha d⟩

theorem Nets.wr (h : Nets s t) {r : Reg} {i j : Nat} (ha : ¬ netAddr (regAddr r i j)) (v : Word) : Nets s (t.wr r v i j) :=
  h.trans ⟨fun hr => Table.rising_put hr, fun hr a hn d => (Table.SameBut.put hr _ _ _) a (fun hm => ha ((List.mem_singleton.1 hm : a = regAddr r i j) ▸ hn)) d⟩

theorem Nets.tally (h : Nets s t) {f : Fld} {n i : Nat} (ha : ¬ netAddr (regAddr f.reg i 0)) : Nets s (t.tally f n i) := h.wr ha _

theorem Nets.stick (h : Nets s t) {f : Fld} {i : Nat} (ha : ¬ netAddr (regAddr f.reg i 0)) : Nets s (t.stick f i) := h.wr ha _

theorem Nets.each {α : Type} (g : α → State → State) (hg : ∀ a v, Nets s v → Nets s (g a v)) :
    ∀ (l : List α) {t : State} (_ : Nets s t), Nets s (t.each l g)
  | [], _, h => h
  | a :: l, t, h => Nets.each g hg l (t := g a t) (hg a t h)

/-! ## Memory accesses -/

theorem Nets.setBank (h : Nets s t) (k : Nat) (x : Bank) : Nets s (t.setBank k x) := h.same rfl

theorem Nets.openRow (h : Nets s t) (p a : Nat) : Nets s (t.openRow p a) := h.same rfl

theorem Nets.noticed (h : Nets s t) (m pc bank port code cls : Nat) (sc : Scope) (master access a : Nat) :
    Nets s ((t.memNotice m pc bank port).memFault code cls sc master access a) :=
  h.logs (((Logs.refl t).memNotice m pc bank port).memFault code cls sc master access a)

theorem Nets.rhRoll (h : Nets s t) : Nets s t.rhRoll := by
  unfold State.rhRoll
  dsimp only
  split
  · exact h.same rfl
  · exact h

theorem Nets.throttleRow (h : Nets s t) (p a : Nat) : Nets s (t.throttleRow p a) := by
  obtain ⟨M, hv⟩ := State.throttleRow_notes (s := t) (p := p) (a := a)
  have hmem : Nets s { t with memc := M } := h.same rfl
  rw [hv]
  exact (hmem.stick (f := f_MEMC_EVENTS_throttle) (netAddr_not_memc (by decide) (by decide))).tally (f := f_MEMC_RH_COUNT_count)
    (netAddr_not_memc (by decide) (by decide))

theorem Nets.activateRow (h : Nets s t) (p a : Nat) : Nets s (t.activateRow p a) := by
  have hopen : Nets s (t.rhRoll.openRow p a) := h.rhRoll.openRow p a
  rw [State.activateRow_eq]
  split
  · exact (hopen.throttleRow p a).noticed ..
  · exact hopen

theorem Nets.rowAccess (h : Nets s t) (p a : Nat) : Nets s (t.rowAccess p a) := by
  unfold State.rowAccess
  dsimp only
  split
  · exact h.setBank _ _
  · exact (h.activateRow p a).setBank _ _

theorem Nets.memAccess (h : Nets s t) (hst : t.memc.st = .service) (p a len : Nat) : Nets s (t.memAccess p a len) := by
  have hne : ¬ t.memc.st = .retention := by simp [hst]
  unfold State.memAccess
  dsimp only
  rw [if_neg hne]
  exact (Nets.each _ (fun k v hv => hv.rowAccess p k) _ h).same rfl

theorem Nets.lostCheck (h : Nets s t) (m a len : Nat) : Nets s (t.lostCheck m a len) := by
  unfold State.lostCheck State.lostRead
  split
  · exact (h.tally (f := f_MEMC_PAR_STATS_lost_reads) (netAddr_not_memc (by decide) (by decide))).logs ((Logs.refl _).memFault ..)
  · exact h

theorem Nets.memRead_good (h : t.memQuiet) (m p a len : Nat) : Nets t (t.memRead m p a len []).1 := by
  obtain ⟨hst, hreqs, hspoilt, -⟩ := h
  unfold State.memRead
  rw [State.portOrder_none hreqs, State.checkRead_good ((State.memAccess_spoilt hst p a len).trans hspoilt)]
  exact ((Nets.refl t).memAccess hst p a len).lostCheck m a len

/-! ## Routing -/

theorem State.routeTo_nets (h : Nets s t) (hr : Table.rising s.regs = true) (hw : t.web = s.web) {dst : Nat} (hd : dst < 4096) :
    t.routeTo dst = s.routeTo dst := by
  have hport : t.portActive = s.portActive := by
    funext q
    unfold State.portActive
    rw [State.portOf_of_web hw]
  have hnet (f : Fld) (hf : netAddr (regAddr f.reg 0 0)) : t.fld f = s.fld f := congrArg (bits · f.lo f.len) (h.regs hr _ hf _)
  have hroute : t.rd .WEB_ROUTE dst = s.rd .WEB_ROUTE dst := by
    refine h.regs hr _ (.inr ?_) _
    simp only [regAddr, regRow, blkBase]
    omega
  unfold State.routeTo State.node
  rw [hport, hroute, hnet f_WEB_CTL_topo (.inr (by decide)), hnet f_WEB_CTL_dim_x_m1 (.inr (by decide)), hnet f_WEB_CTL_dim_y_m1 (.inr (by decide)),
    hnet f_WEB_TORUS_BASE_node (.inr (by decide)), hnet f_DEVICE_NODE_node_id (.inl rfl)]

/-- The response of node `me` that leaves on the link to port `q`. -/
def State.responseTo (s : State) (me src type tag len status addr : Nat) (data : List Byte) (q : Nat) (w : Bool) : Flit :=
  { s.response me src type tag len status addr data with vc := nextVc 0 q w none }

/-- A response to a request leaves on the port that routing gives for its requester. -/
theorem State.respond_sends {me src type tag len status addr : Nat} {data : List Byte} (hroute : s.routeTo src = some (q, w))
    (ht : type = 0x10 ∨ type = 0x11) : s.respond me src type tag len status addr data =
      s.setPort q { s.portOf q with qRsp := (s.portOf q).qRsp ++ [s.responseTo me src type tag len status addr data q w] } := by
  have hclass : flitClass (s.responseTo me src type tag len status addr data q w).type = .rsp := by
    show flitClass (type + 8) = .rsp
    rcases ht with rfl | rfl <;> rfl
  have htry : s.tryRoute (s.response me src type tag len status addr data) none =
      some (s.sendOn q (s.responseTo me src type tag len status addr data q w)) := by
    unfold State.tryRoute
    rw [show (s.response me src type tag len status addr data).dst = src from rfl, hroute]
    rfl
  unfold State.respond State.routeFlit
  dsimp only
  rw [if_neg (fun h => absurd h.1 Bool.false_ne_true), htry]
  unfold State.sendOn Port.enqueue
  rw [hclass]

end Nets

end Sys2Proof.Machine
end

section
/-!
PROOFS. READ_REQ and WRITE_REQ of the web (R34, R238, R272, R273).
-/

namespace Sys2Proof.Machine

open Sys2Proof

section WebAnswers
variable {s b u v : State} {src tag a len q : Nat} {w : Bool} {data : List Byte}

/-! ## The request is served no longer (R273) -/

/-- The state without the request. -/
def State.unserved (s : State) (src type tag : Nat) : State :=
  s.setWeb { s.web with serving := s.web.serving.eraseP fun f => flitIsReq f src type tag }

theorem State.served_unserved (h : s.web.waiting = []) (type : Nat) : s.served src type tag = s.unserved src type tag := by
  have hwait : (s.unserved src type tag).web.waiting = [] := h
  unfold State.served
  dsimp only
  rw [show s.setWeb { s.web with serving := s.web.serving.eraseP fun f => flitIsReq f src type tag } = s.unserved src type tag from rfl, hwait]

/-! ## What a request leads to (R272) -/

section Read
variable (hans : s.answers src = true) (hwait : (isRegAddr a && s.regWaits src 0x10 tag isRegAddr) = false) (ha : a % 4 = 0)
  (hu : s.served src 0x10 tag = u)
include hans hwait ha hu

theorem State.webRead_refused (h : reqOk a len = false) (bad : Bool) :
    s.webRead src tag a len bad = u.respond (s.servedAs src 0x10 tag) src 0x10 tag len 5 a [] := by
  unfold State.webRead
  rw [if_neg (by rw [hans, hwait]; decide), hu]
  dsimp only
  rw [if_neg (not_not.2 ha), if_pos (by rw [h]; rfl)]

theorem State.webRead_hbm (h : reqOk a len = true) (ht : u.target a = .hbm) (bad : Bool) : s.webRead src tag a len bad =
    (u.readBlock src a len bad).1.respond (s.servedAs src 0x10 tag) src 0x10 tag len (u.readBlock src a len bad).2.1 a (u.readBlock src a len bad).2.2 := by
  unfold State.webRead
  rw [if_neg (by rw [hans, hwait]; decide), hu]
  dsimp only
  rw [if_neg (not_not.2 ha), if_neg (by rw [h]; decide), ht]

theorem State.webRead_reg {r : Reg} {i j : Nat} (h : reqOk a 4 = true) (ht : u.target a = .reg r i j) (bad : Bool) : s.webRead src tag a 4 bad =
    (u.readAt src a bad).st.respond (s.servedAs src 0x10 tag) src 0x10 tag 4 (u.readAt src a bad).status a
      (leBytes (u.readAt src a bad).data.toNat 4) := by
  have hstatus (n : Nat) : (if n ≠ 0 then n else 0) = n := by
    split
    · rfl
    next hn => exact (not_not.1 hn).symm
  unfold State.webRead
  rw [if_neg (by rw [hans, hwait]; decide), hu]
  dsimp only
  rw [if_neg (not_not.2 ha), if_neg (by rw [h]; decide), ht]
  show State.respond _ _ _ _ _ _ (if _ then _ else 0) _ (_ ++ []) = _
  rw [hstatus, List.append_nil]
  rfl

end Read

section Write
variable (hans : s.answers src = true) (hwait : (isRegAddr a && s.regWaits src 0x11 tag isRegAddr) = false) (ha : a % 4 = 0)
  (hu : s.served src 0x11 tag = u)
include hans hwait ha hu

theorem State.webWrite_refused (h : reqOk a data.length = false) :
    s.webWrite src tag a data = u.respond (s.servedAs src 0x11 tag) src 0x11 tag 0 5 a [] := by
  unfold State.webWrite
  rw [if_neg (by rw [hans, hwait]; decide), hu]
  dsimp only
  rw [if_neg (not_not.2 ha), if_pos (by rw [h]; rfl)]

theorem State.webWrite_reserved (h : reqOk a data.length = true) (ht : u.target a = .reserved) :
    s.webWrite src tag a data = (u.reservedAccess src a true).respond (s.servedAs src 0x11 tag) src 0x11 tag 0 1 a [] := by
  unfold State.webWrite
  rw [if_neg (by rw [hans, hwait]; decide), hu]
  dsimp only
  rw [if_neg (not_not.2 ha), if_neg (by rw [h]; decide), ht]

theorem State.webWrite_hbm (h : reqOk a data.length = true) (ht : u.target a = .hbm) :
    s.webWrite src tag a data = (u.writeMem src a data).st.respond (s.servedAs src 0x11 tag) src 0x11 tag 0 (u.writeMem src a data).status a [] := by
  unfold State.webWrite
  rw [if_neg (by rw [hans, hwait]; decide), hu]
  dsimp only
  rw [if_neg (not_not.2 ha), if_neg (by rw [h]; decide), ht]

end Write

/-! ## Reads and writes of memory -/

theorem reqOk_pos (h : reqOk a len = true) : 4 ≤ len := (of_decide_eq_true h).2.2.1

theorem isRegAddr_memory (h : a < 2 ^ 34) : isRegAddr a = false := by
  unfold isRegAddr reqLimit
  rw [if_neg (by omega)]
  rfl

theorem State.target_memory (h : a < 2 ^ 34) : s.target a = .hbm := if_pos h

theorem State.foreignIn_memory (h : a + len ≤ 2 ^ 34) (write : Bool) : s.foreignIn a len write = none := by
  refine List.findSome?_eq_none_iff.2 fun k hk => State.foreign_of_target_ne_window ?_
  have := List.mem_range.1 hk
  rw [State.target_memory (by omega)]
  nofun

theorem State.memReady_service (h : s.memc.st = .service) : s.memReady = true := by
  unfold State.memReady
  rw [h]
  rfl

theorem State.memArrive_service (h : s.memc.st = .service) (hsr : s.srEntering = false) : s.memArrive = s := by
  unfold State.memArrive
  rw [if_neg (by rw [hsr]; exact Bool.false_ne_true), if_neg (by rw [h]; decide)]

theorem State.readBlock_good (h : s.memQuiet) (hsr : s.srEntering = false) (m : Nat) :
    s.readBlock m a len false = ((s.memRead m 3 a len []).1, 0, (s.memRead m 3 a len []).1.hbmBytes a len) := by
  have hgood : (s.memRead m 3 a len []).2 = [] := State.memRead_good h
  unfold State.readBlock
  rw [if_neg (by rw [State.memReady_service h.1]; decide), State.memArrive_service h.1 hsr, if_neg Bool.false_ne_true]
  dsimp only
  rw [hgood]

theorem State.writeMem_stores (hsrc : src < 0x1000) (ht : s.tableWrite a data.length = false) (hw : s.wprotected a data.length = false)
    (h : s.memQuiet) : s.writeMem src a data = ⟨(s.memTouch 3 a data.length).memWrite a data, 0, 0⟩ := by
  have hport : clientPort src = 3 := if_pos hsrc
  unfold State.writeMem
  rw [if_neg (by rw [ht]; decide), if_neg (by rw [hw]; rintro ⟨-, ⟨⟩⟩), if_neg (by rw [State.memReady_service h.1]; decide), hport,
    State.portOrder_none h.2.1]

theorem State.writeMem_protected (hsrc : src < 0x1000) (ht : s.tableWrite a data.length = false) (hw : s.wprotected a data.length = true) :
    s.writeMem src a data = ⟨s.memFault 0x600 1 .none src 4 a, 2, 0⟩ := by
  unfold State.writeMem
  rw [if_neg (by rw [ht]; decide), if_pos ⟨hsrc, hw⟩]

/-! ## The response -/

/-- A response of a state whose web and routing are those of `b` but for the requests served leaves its flit on port `q`, and changes nothing else. -/
theorem State.respond_from {me type len' status addr : Nat} (hn : Nets b v) (hr : Table.rising b.regs = true) (hp : Table.rising b.web.ports = true) {ty : Nat} (hv : v.web = (b.unserved src ty tag).web) (hroute : b.routeTo src = some (q, w)) (hsrc : src < 0x1000)
    (ht : type = 0x10 ∨ type = 0x11) : ∃ x, v.respond me src type tag len' status addr data = v.setPort q x ∧
      ((v.setPort q x).portOf q).qRsp = (b.portOf q).qRsp ++ [v.responseTo me src type tag len' status addr data q w] ∧
      Table.SameBut [q] b.web.ports (v.setPort q x).web.ports := by
  have hnu : Nets (b.unserved src ty tag) v := ⟨fun h => hn.rising h, fun h => hn.regs h⟩
  have hroute' : v.routeTo src = some (q, w) :=
    (State.routeTo_nets hnu hr hv hsrc).trans ((show (b.unserved src ty tag).routeTo src = b.routeTo src from rfl).trans hroute)
  have hports : v.web.ports = b.web.ports := (congrArg Web.ports hv).trans rfl
  have hpv : Table.rising v.web.ports = true := hports ▸ hp
  have hport : v.portOf q = b.portOf q := congrArg (Table.get Port.reset q) hports
  refine ⟨_, State.respond_sends hroute' ht, ?_, hports ▸ State.sameBut_setPort hpv⟩
  rw [State.setPort_portOf hpv, hport]

end WebAnswers

/-- Settles O49. -/
theorem webRequests : Obligations.WebRequests := by
  intro s t src tag a len q w data
  obtain ⟨b, hb⟩ : ∃ b, s.begin t = b := ⟨_, rfl⟩
  have hread (bad : Bool) (h : s.foreignIn a len false = none) :
      exec (.readReq t src tag a len bad) s = outIf true (s.act t fun s => s.webRead src tag a len bad) := by
    show execReadReq .. = _
    unfold execReadReq
    rw [h]
    rfl
  have hwrite (h : s.foreignIn a data.length true = none) :
      exec (.writeReq t src tag a data) s = outIf true (s.act t fun s => s.webWrite src tag a data) := by
    show execWriteReq .. = _
    unfold execWriteReq
    rw [h]
    rfl
  refine ⟨fun bad h => ⟨_, hread bad h⟩, fun h => ⟨_, hwrite h⟩, fun hcan hpow hsrc hans ha => ?_⟩
  have hcb : b.canonical := hb ▸ State.canonical_begin hcan t
  have hregs : Table.rising b.regs = true := hcb.fine.regs
  have hports : Table.rising b.web.ports = true := hcb.fine.ports
  have hansb : b.answers src = true := by rw [← hb, State.begin_answers, hans]
  have htarget : b.target a = s.target a := by rw [← hb, State.begin_target]
  rw [hb]
  intro hroute hwaiting
  have hserved (type : Nat) : b.served src type tag = b.unserved src type tag := State.served_unserved hwaiting type
  refine ⟨fun hreq hin hquiet hsr => ?_, fun r i j hreg hlen hreq hw hf => ?_, fun hreq hf hw => ?_, fun hreq hf hw => ?_, fun hreq hres hf hw => ?_,
    fun hreq hin htab => ⟨fun hnp hquiet hsr hcopy => ?_, fun hprot => ?_⟩⟩
  · have hpos := reqOk_pos hreq
    obtain ⟨u, hu⟩ : ∃ u, u = b.unserved src 0x10 tag := ⟨_, rfl⟩
    have hq : u.memQuiet := hu ▸ hquiet
    have hsr' : u.srEntering = false := hu ▸ hsr
    obtain ⟨v, hv⟩ : ∃ v, v = (u.memRead src 3 a len []).1 := ⟨_, rfl⟩
    have hwr := State.webRead_hbm (tag := tag) hansb (by rw [isRegAddr_memory (by omega)]; rfl) ha ((hserved 0x10).trans hu.symm) hreq
      (State.target_memory (by omega)) false
    rw [State.readBlock_good hq hsr'] at hwr
    dsimp only at hwr
    rw [← hv] at hwr
    have hkeeps : Keeps 412850 u v := hv ▸ State.keeps_memRead_good hq
    have hnets : Nets u v := hv ▸ Nets.memRead_good hq src 3 a len
    obtain ⟨x, hx, hqrsp, hsame⟩ := State.respond_from (me := b.servedAs src 0x10 tag) (type := 0x10) (len' := len) (status := 0) (addr := a)
      (data := v.hbmBytes a len) (b := b) (v := v) (ty := 0x10) ⟨fun h => hnets.rising (hu ▸ h), fun h a ha d => (hnets.regs (hu ▸ h) a ha d).trans (by rw [hu]; rfl)⟩
      hregs hports ((hkeeps.web rfl).trans (by rw [hu])) hroute hsrc (.inl rfl)
    have hframe : OnlyChanges [.regs, .evm, .force, .engs, .que, .memc, .vat, .web, .flt, .cal] b (v.setPort q x) :=
      (((hu ▸ (OnlyChanges.refl _ b).web (by decide) _ : OnlyChanges _ b u)).then hkeeps (by decide)).setPort (by decide) q x
    refine .runs hb hpow (hread false (State.foreignIn_memory hin false)) rfl (hwr.trans hx) hframe ?_
    dsimp only
    rw [hserved, ← hu, ← hv]
    exact ⟨rfl, rfl, rfl, ⟨_, hqrsp, rfl, rfl, rfl, rfl, rfl, rfl, rfl, rfl⟩, hsame⟩
  · subst hlen
    have hwr := State.webRead_reg (tag := tag) hansb (by rw [hw, Bool.and_false]) ha (hserved 0x10) hreq
      (show (b.unserved src 0x10 tag).target a = .reg r i j from htarget.trans hreg) false
    refine ⟨_, ?_, rfl⟩
    rw [hread false hf, hserved, ← hwr, ← hb]
    simp [outIf, State.act, State.go, hpow.1, hpow.2]
  · have hwr := State.webRead_refused (tag := tag) hansb hw ha (hserved 0x10) hreq false
    obtain ⟨x, hx, hqrsp, hsame⟩ := State.respond_from (me := b.servedAs src 0x10 tag) (type := 0x10) (len' := len) (status := 5) (addr := a) (data := [])
      (v := b.unserved src 0x10 tag) ((Nets.refl b).same rfl) hregs hports rfl hroute hsrc (.inl rfl)
    exact .runs hb hpow (hread false hf) rfl (hwr.trans hx) (((OnlyChanges.refl _ b).web (by decide) _).setPort (by decide) q x)
      ⟨⟨_, hqrsp, rfl, rfl, rfl, rfl⟩, hsame⟩
  · have hwr := State.webWrite_refused (tag := tag) hansb hw ha (hserved 0x11) hreq
    obtain ⟨x, hx, hqrsp, hsame⟩ := State.respond_from (me := b.servedAs src 0x11 tag) (type := 0x11) (len' := 0) (status := 5) (addr := a) (data := [])
      (v := b.unserved src 0x11 tag) ((Nets.refl b).same rfl) hregs hports rfl hroute hsrc (.inr rfl)
    exact .runs hb hpow (hwrite hf) rfl (hwr.trans hx) (((OnlyChanges.refl _ b).web (by decide) _).setPort (by decide) q x)
      ⟨⟨_, hqrsp, rfl, rfl, rfl, rfl⟩, hsame⟩
  · obtain ⟨u, hu⟩ : ∃ u, u = b.unserved src 0x11 tag := ⟨_, rfl⟩
    obtain ⟨v, hv⟩ : ∃ v, v = u.accessFault 0x002 1 .none src (accessType a true) a := ⟨_, rfl⟩
    have hwr := State.webWrite_reserved (tag := tag) hansb hw ha (hserved 0x11) hreq
      (show (b.unserved src 0x11 tag).target a = .reserved from htarget.trans hres)
    rw [← hu, show u.reservedAccess src a true = v from hv.symm] at hwr
    have hnets : Nets b v := hv ▸ (((Nets.refl b).same (by rw [hu]; rfl) : Nets b u)).logs ((Logs.refl u).accessFault ..)
    have hweb : v.web = (b.unserved src 0x11 tag).web := by
      rw [hv, ← hu]
      exact (State.keeps_accessFault (Within.refl _) (Keeps.refl u) ..).web rfl
    obtain ⟨x, hx, hqrsp, hsame⟩ := State.respond_from (me := b.servedAs src 0x11 tag) (type := 0x11) (len' := 0) (status := 1) (addr := a) (data := [])
      hnets hregs hports hweb hroute hsrc (.inr rfl)
    have hframe : OnlyChanges [.regs, .evm, .force, .engs, .que, .memc, .vat, .web, .flt, .cal] b (v.setPort q x) :=
      hv ▸ (((hu ▸ (OnlyChanges.refl _ b).web (by decide) _ : OnlyChanges _ b u)).accessFault rfl 0x002 1 .none src (accessType a true) a).setPort
        (by decide) q x
    refine .runs hb hpow (hwrite hf) rfl (hwr.trans hx) hframe ⟨⟨_, hqrsp, rfl, rfl, rfl, rfl⟩, ?_⟩
    rw [hserved, ← hu, ← hv]
    rfl
  · have hpos := reqOk_pos hreq
    obtain ⟨u, hu⟩ : ∃ u, u = b.unserved src 0x11 tag := ⟨_, rfl⟩
    have hq : u.memQuiet := hu ▸ hquiet
    have hsr' : u.srEntering = false := hu ▸ hsr
    have htouch : u.memTouch 3 a data.length = u.memAccess 3 a data.length :=
      congrArg (State.memAccess · 3 a data.length) (State.memArrive_service hq.1 hsr')
    obtain ⟨m, hm⟩ : ∃ m, m = u.memTouch 3 a data.length := ⟨_, rfl⟩
    have hkeeps : Keeps 412850 u m := hm ▸ htouch ▸ State.keeps_memAccess_service hq.1 3 a data.length
    have hmhbm : m.hbm = b.hbm := (hkeeps.hbm rfl).trans (by rw [hu]; rfl)
    have hrise : Table.rising m.hbm = true := by
      rw [hmhbm]
      exact Table.wf_rising hcb.fine.hbm
    have hcopy' : ∀ k < data.length, m.copyAddr (a + k) = none := fun k hk => by
      rw [hm, hu, ← hserved]
      exact hcopy k hk
    obtain ⟨H, M, hmem, hbytes, hsameH⟩ := State.memWrite_stack data a hrise hcopy'
    obtain ⟨H', S, hmem', -, -, -⟩ := State.memWrite_reads data a none hrise hcopy' nofun
    obtain ⟨v, hv⟩ : ∃ v, v = m.memWrite a data := ⟨_, rfl⟩
    have hvm : v = { m with hbm := H, memc := M } := hv.trans hmem
    have hM : v.memc = { m.memc with spoilt := v.memc.spoilt } := by rw [hv, hmem']
    have hwr := State.webWrite_hbm (tag := tag) hansb (by rw [isRegAddr_memory (by omega)]; rfl) ha ((hserved 0x11).trans hu.symm) hreq
      (State.target_memory (by omega))
    rw [State.writeMem_stores hsrc (hu ▸ htab) (hu ▸ hnp) hq, ← hm, ← hv] at hwr
    have hmn : Nets b m := hm ▸ htouch ▸ (((Nets.refl b).same (by rw [hu]; rfl) : Nets b u)).memAccess hq.1 3 a data.length
    have hnets : Nets b v := hvm ▸ hmn.same rfl
    have hweb : v.web = (b.unserved src 0x11 tag).web := by
      rw [hvm, ← hu]
      exact hkeeps.web rfl
    obtain ⟨x, hx, hqrsp, hsame⟩ := State.respond_from (me := b.servedAs src 0x11 tag) (type := 0x11) (len' := 0) (status := 0) (addr := a) (data := [])
      hnets hregs hports hweb hroute hsrc (.inr rfl)
    have hmframe : OnlyChanges [.regs, .evm, .force, .engs, .que, .memc, .vat, .hbm, .web, .flt, .cal] b m :=
      ((hu ▸ (OnlyChanges.refl _ b).web (by decide) _ : OnlyChanges _ b u)).then hkeeps (by decide)
    have hframe : OnlyChanges [.regs, .evm, .force, .engs, .que, .memc, .vat, .hbm, .web, .flt, .cal] b (v.setPort q x) :=
      hvm ▸ ((hmframe.hbm (by decide) H).memc (by decide) M).setPort (by decide) q x
    refine .runs hb hpow (hwrite (State.foreignIn_memory hin true)) rfl (hwr.trans hx) hframe ?_
    dsimp only
    rw [hserved, ← hu, ← hm]
    refine ⟨?_, hM, ?_, ?_, ?_, ⟨_, hqrsp, rfl, rfl, rfl, rfl⟩, hsame⟩
    · rw [hvm]
      rfl
    · rw [hvm]
      rfl
    · rw [hvm]
      exact hbytes
    · rw [hvm]
      exact hmhbm ▸ hsameH
  · have hpos := reqOk_pos hreq
    obtain ⟨u, hu⟩ : ∃ u, u = b.unserved src 0x11 tag := ⟨_, rfl⟩
    obtain ⟨v, hv⟩ : ∃ v, v = u.memFault 0x600 1 .none src 4 a := ⟨_, rfl⟩
    have hwr := State.webWrite_hbm (tag := tag) hansb (by rw [isRegAddr_memory (by omega)]; rfl) ha ((hserved 0x11).trans hu.symm) hreq
      (State.target_memory (by omega))
    rw [State.writeMem_protected hsrc (hu ▸ htab) (hu ▸ hprot)] at hwr
    dsimp only at hwr
    rw [← hv] at hwr
    have hnets : Nets b v := hv ▸ (((Nets.refl b).same (by rw [hu]; rfl) : Nets b u)).logs ((Logs.refl u).memFault ..)
    have hweb : v.web = (b.unserved src 0x11 tag).web := by
      rw [hv, ← hu]
      exact (State.keeps_memFault (Within.refl _) (Keeps.refl u) ..).web rfl
    obtain ⟨x, hx, hqrsp, hsame⟩ := State.respond_from (me := b.servedAs src 0x11 tag) (type := 0x11) (len' := 0) (status := 2) (addr := a) (data := [])
      hnets hregs hports hweb hroute hsrc (.inr rfl)
    have hframe : OnlyChanges [.regs, .evm, .force, .engs, .que, .memc, .vat, .web, .flt, .cal] b (v.setPort q x) :=
      hv ▸ (((hu ▸ (OnlyChanges.refl _ b).web (by decide) _ : OnlyChanges _ b u)).memFault rfl 0x600 1 .none src 4 a).setPort (by decide) q x
    refine .runs hb hpow (hwrite (State.foreignIn_memory hin true)) rfl (hwr.trans hx) hframe ⟨⟨_, hqrsp, rfl, rfl, rfl, rfl⟩, ?_⟩
    rw [hserved, ← hu, ← hv]
    rfl

end Sys2Proof.Machine
end

section
/-!
PROOFS. The health of the lanes of a web port: measurements, failures and the items that report them (R183, R279 to R281).
-/

namespace Sys2Proof.Machine

open Sys2Proof

section Lanes
variable {s t u : State} {p l k : Nat} {x y : Port}

/-! ## Messages and items -/

theorem Nets.node (h : Nets s t) (hr : Table.rising s.regs = true) : t.node = s.node := congrArg (bits · 0 12) (h.regs hr _ (.inl rfl) _)

/-- A message depends on the device's node, its time and the port's peer. -/
theorem State.linkParam_congr (hn : t.node = s.node) (ht : t.tb = s.tb) (hp : (t.portOf p).peerNode = (s.portOf p).peerNode) (code : Nat) (args : List Nat) :
    t.linkParam p code args = s.linkParam p code args := by
  unfold State.linkParam State.formFlit State.raster
  rw [hn, ht, hp]

theorem State.agentItem_off {a : Nat} (h : s.on f_QUE_AGENT_CTL_enable a = false) (kind : Nat) (value : DWord) (raw : Word) :
    s.agentItem a kind value raw = s := by
  unfold State.agentItem State.agentWrite
  rw [h]
  rfl

/-- With the port's agent disabled a lane takes a health without an item. -/
theorem State.laneHealth_off (h : s.on f_QUE_AGENT_CTL_enable (16 + p) = false) (l : Nat) (v : Lane) :
    s.laneHealth p l v = s.setPort p ((s.portOf p).setLane l v) := by
  unfold State.laneHealth
  dsimp only
  split
  · rfl
  · exact State.agentItem_off (s := s.setPort p ((s.portOf p).setLane l v)) h ..

theorem Port.setLane_same {v : Lane} (hv : v ≠ Lane.reset) : (x.setLane l v).lane l = v := Table.get_put_ne hv

/-! ## The spare is asked for (R280) -/

/-- The spare lanes' domain is powered. -/
theorem State.spareLit (s : State) : ∃ P, (if s.domainOn 44 then s else { s with pwr := { s.pwr with on := s.pwr.on ||| BitVec.ofNat 62 (2 ^ 44) } }) =
    { s with pwr := P } ∧ P.on.getLsbD 44 = true ∧ ∀ d, d ≠ 44 → P.on.getLsbD d = s.domainOn d := by
  by_cases h : s.domainOn 44 = true
  · rw [if_pos h]
    exact ⟨s.pwr, rfl, h, fun _ _ => rfl⟩
  · rw [if_neg h]
    refine ⟨_, rfl, ?_, fun d hd => ?_⟩
    · rw [BitVec.getLsbD_or, show (BitVec.ofNat 62 (2 ^ 44)).getLsbD 44 = true from rfl, Bool.or_true]
    · have hbit : (BitVec.ofNat 62 (2 ^ 44)).getLsbD d = false := by
        rw [BitVec.getLsbD_ofNat, Nat.testBit_two_pow_of_ne (Ne.symm hd), Bool.and_false]
      rw [BitVec.getLsbD_or, hbit, Bool.or_false]
      rfl

theorem State.askSpare_asks (hr : Table.rising s.web.ports = true) (hx : s.portOf p = x) (h : x.rxSpare = .free) (k : Nat) : ∃ P,
    s.askSpare p k = State.setPort { s with pwr := P } p { x with rxSpare := .asked, rxBad := k, qLocal := x.qLocal ++ [s.linkParam p 2 [0, k]] } ∧
      P.on.getLsbD 44 = true ∧ ∀ d, d ≠ 44 → P.on.getLsbD d = s.domainOn d := by
  obtain ⟨P, hP, h44, hother⟩ := State.spareLit s
  refine ⟨P, ?_, h44, hother⟩
  unfold State.askSpare
  rw [hx]
  dsimp only
  rw [if_neg (not_not.2 h), hP, State.sendOn_setPort (s := { s with pwr := P }) hr]
  rfl

/-! ## Failures (R281) -/

/-- A lane that has failed. -/
def Lane.out (v : Lane) : Lane := { v with health := .failed, low := 0, high := 0 }

theorem Lane.out_ne (v : Lane) : v.out ≠ Lane.reset := fun h => nomatch (show Health.failed = Health.off from congrArg Lane.health h)

/-- The fault that a failed lane in service is. -/
def State.laneLogged (s : State) (p l : Nat) : State := s.log { s.detect 0x708 2 (.port p) (webMaster p) with detail := l }

theorem State.laneFailed_again (h : ((s.portOf p).lane l).health = .failed) : s.laneFailed p l = s := if_pos h

theorem State.laneFailed_fails (hoff : s.on f_QUE_AGENT_CTL_enable (16 + p) = false) (hr : Table.rising s.web.ports = true) (hx : s.portOf p = x)
    (h : (x.lane l).health ≠ .failed) (hk : x.logical l = some k) (hst : x.st = .active) {u : State}
    (hu : u = ((s.setPort p (x.setLane l (x.lane l).out)).stick f_WEB_EVENTS_lane_failed).laneLogged p l) : s.laneFailed p l =
      if x.degraded then u.portRetrain p else (u.setPort p { u.portOf p with degraded := true }).askSpare p k := by
  have hlog : (x.setLane l (x.lane l).out).logical l = some k := hk
  have hact : (x.setLane l (x.lane l).out).st = .active := hst
  unfold State.laneFailed
  dsimp only
  rw [hx, if_neg h, State.laneHealth_off hoff, hx, show ({ x.lane l with health := .failed, low := 0, high := 0 } : Lane) = (x.lane l).out from rfl,
    State.setPort_portOf hr, hlog]
  dsimp only
  rw [if_neg (not_not.2 hact), hu]
  rfl

theorem State.keeps_laneLogged (s : State) (p l : Nat) : Keeps 412850 s (s.laneLogged p l) :=
  State.keeps_log (Within.refl _) (Keeps.refl s) _

theorem State.laneLogged_logs (s : State) (p l : Nat) : Logs s (s.laneLogged p l) := (Logs.refl s).log _

/-- The state of a lane's failure before its fault is logged. -/
def State.laneOut (s : State) (p l : Nat) : State :=
  (s.setPort p ((s.portOf p).setLane l ((s.portOf p).lane l).out)).stick f_WEB_EVENTS_lane_failed

theorem regAddr_node_ne_webEvents : regAddr .DEVICE_NODE 0 0 ≠ regAddr .WEB_EVENTS 0 0 := by decide

theorem State.stick_node {f : Fld} (hr : Table.rising s.regs = true) (h : regAddr .DEVICE_NODE 0 0 ≠ regAddr f.reg 0 0) : (s.stick f).node = s.node :=
  congrArg (bits · 0 12) (State.rd_wr_other hr _ h)

theorem State.node_logs (h : Logs s t) (hr : Table.rising s.regs = true) : t.node = s.node := congrArg (bits · 0 12) (h.regs hr _ (netAddr_not_fault (.inl rfl)) _)

/-- What a lane's failure leaves once it is logged. -/
structure LaneLost (s : State) (p l : Nat) (u : State) : Prop where
  frame : OnlyChanges [.regs, .evm, .force, .engs, .que, .memc, .vat, .web, .flt, .cal] s u
  port : u.portOf p = (s.portOf p).setLane l ((s.portOf p).lane l).out
  ports : Table.SameBut [p] s.web.ports u.web.ports
  node : u.node = s.node
  on : u.on f_WEB_EVENTS_lane_failed = true
  regs : Table.rising u.regs = true
  web : Table.rising u.web.ports = true

theorem State.laneLost (hr : Table.rising s.regs = true) (hw : Table.rising s.web.ports = true) (p l : Nat) :
    LaneLost s p l ((s.laneOut p l).laneLogged p l) := by
  obtain ⟨w, hwe⟩ : ∃ w, w = s.laneOut p l := ⟨_, rfl⟩
  have hkeeps := State.keeps_laneLogged w p l
  have hlogs := State.laneLogged_logs w p l
  have hwr : Table.rising w.regs = true := hwe ▸ State.rising_stick (s := s.setPort p _) hr _ _
  have hweb : (w.laneLogged p l).web = (s.setPort p ((s.portOf p).setLane l ((s.portOf p).lane l).out)).web := (hkeeps.web rfl).trans (hwe ▸ rfl)
  have hframe : OnlyChanges [.regs, .evm, .force, .engs, .que, .memc, .vat, .web, .flt, .cal] s w :=
    hwe ▸ ((OnlyChanges.refl _ s).setPort (by decide) p _).stick (by decide) _ _
  have hnode : w.node = s.node := hwe ▸ State.stick_node (s := s.setPort p _) hr regAddr_node_ne_webEvents
  have hon : w.on f_WEB_EVENTS_lane_failed = true := hwe ▸ State.on_stick (s := s.setPort p _) hr 0 (by decide) (by decide)
  rw [← hwe]
  exact ⟨hframe.then hkeeps (by decide), (State.portOf_of_web hweb).trans (State.setPort_portOf hw), hweb ▸ State.sameBut_setPort hw,
    (State.node_logs hlogs hwr).trans hnode, (hlogs.on hwr not_faultAddr_webEvents).trans hon, hlogs.rising hwr, hweb ▸ State.rising_setPort hw⟩

/-- The first failed lane in service is taken out, and the spare asked for. -/
theorem State.laneFailed_first (hoff : s.on f_QUE_AGENT_CTL_enable (16 + p) = false) (hr : Table.rising s.regs = true)
    (hw : Table.rising s.web.ports = true) (hx : s.portOf p = x) (h : (x.lane l).health ≠ .failed) (hk : x.logical l = some k) (hst : x.st = .active)
    (hd : x.degraded = false) (hfree : x.rxSpare = .free) : ∃ e, s.laneFailed p l = e ∧
      OnlyChanges [.regs, .evm, .force, .engs, .que, .memc, .vat, .web, .flt, .cal, .pwr] s e ∧
      e.portOf p = { x.setLane l (x.lane l).out with
        degraded := true, rxSpare := .asked, rxBad := k, qLocal := x.qLocal ++ [s.linkParam p 2 [0, k]] } ∧
      e.on f_WEB_EVENTS_lane_failed = true ∧ e.domainOn 44 = true ∧ (∀ d, d ≠ 44 → e.domainOn d = s.domainOn d) ∧
      Table.SameBut [p] s.web.ports e.web.ports ∧ e.flt = ((s.laneOut p l).laneLogged p l).flt := by
  subst hx
  obtain ⟨u, hu⟩ : ∃ u, u = (s.laneOut p l).laneLogged p l := ⟨_, rfl⟩
  obtain ⟨hframe, hport, hports, hnode, hon, -, huw⟩ := hu ▸ State.laneLost hr hw p l
  have hfails := State.laneFailed_fails hoff hw rfl h hk hst hu
  rw [hd, if_neg Bool.false_ne_true, hport] at hfails
  obtain ⟨P, hP, h44, hother⟩ := State.askSpare_asks (s := u.setPort p { (s.portOf p).setLane l ((s.portOf p).lane l).out with degraded := true })
    (State.rising_setPort huw) (State.setPort_portOf huw) hfree k
  have hpwr : u.pwr = s.pwr := by
    rw [hu]
    exact (State.keeps_laneLogged _ p l).pwr rfl
  have htb : u.tb = s.tb := by
    rw [hu]
    exact (State.keeps_laneLogged _ p l).tb rfl
  have hmsg : (u.setPort p { (s.portOf p).setLane l ((s.portOf p).lane l).out with degraded := true }).linkParam p 2 [0, k] = s.linkParam p 2 [0, k] :=
    State.linkParam_congr (t := u.setPort p _) hnode htb (by rw [State.setPort_portOf huw]; rfl) 2 [0, k]
  rw [hmsg] at hP
  refine ⟨_, hfails.trans hP, ?_, State.setPort_portOf (State.rising_setPort huw), hon, h44, fun d hd => (hother d hd).trans ?_, ?_, ?_⟩
  · exact (((hframe.mono (by decide)).setPort (by decide) p _).pwr (by decide) P).setPort (by decide) p _
  · exact congrArg (BitVec.getLsbD · d) (congrArg Pwr.on hpwr)
  · exact hports.trans ((State.sameBut_setPort huw).trans (State.sameBut_setPort (State.rising_setPort huw)))
  · rw [← hu]
    rfl

/-- A further one makes the port retrain. -/
theorem State.laneFailed_further (hoff : s.on f_QUE_AGENT_CTL_enable (16 + p) = false) (hr : Table.rising s.regs = true)
    (hw : Table.rising s.web.ports = true) (hp : p < 4) (hx : s.portOf p = x) (h : (x.lane l).health ≠ .failed) (hk : x.logical l = some k)
    (hst : x.st = .active) (hd : x.degraded = true) : ∃ e, s.laneFailed p l = e ∧
      OnlyChanges [.regs, .evm, .force, .engs, .que, .memc, .vat, .web, .flt, .cal] s e ∧
      e.portOf p = { x.setLane l (x.lane l).out with st := .retrain, since := s.now } ∧ e.on f_WEB_EVENTS_retrain = true ∧
      Table.SameBut [p] s.web.ports e.web.ports := by
  subst hx
  obtain ⟨u, hu⟩ : ∃ u, u = (s.laneOut p l).laneLogged p l := ⟨_, rfl⟩
  obtain ⟨hframe, hport, hports, -, -, hur, huw⟩ := hu ▸ State.laneLost hr hw p l
  have hfails := State.laneFailed_fails hoff hw rfl h hk hst hu
  rw [if_pos hd] at hfails
  obtain ⟨hport', hsame, -, hon, -⟩ := State.portRetrain_shows (p := p) hur huw hp
  refine ⟨_, hfails, ?_, ?_, hon, hports.trans hsame⟩
  · exact ((((hframe.setPort (by decide) p _).stick (by decide) f_WEB_EVENTS_retrain 0).tally (by decide) f_WEB_PORT_RETRAIN_count 1 p).fault rfl 0x700 1
      (.port p) (webMaster p))
  · rw [hport', hport, hframe.2.1]

end Lanes

end Sys2Proof.Machine
end

section
/-!
PROOFS. Lane health, failures and LINK_EYE items (R183, R279 to R281).
-/

namespace Sys2Proof.Machine

open Sys2Proof

section Measured
variable {s : State} {p l k w h : Nat} {x : Port}

/-- A lane with a new measurement. -/
def Lane.measures (v : Lane) (w h low high : Nat) : Lane := { v with measured := true, width := w, height := h, uncorr := 0, low, high }

theorem Lane.measures_ne (v : Lane) (w h low high : Nat) : v.measures w h low high ≠ Lane.reset :=
  fun he => nomatch (show true = false from congrArg Lane.measured he)

/-- Whether a measurement is below a fail limit, below a warn limit, and above both warn limits. -/
def State.eyeFails (s : State) (w h : Nat) : Bool :=
  decide (w < s.fld f_WEB_LANE_LIMIT_fail_width) || decide (h < s.fld f_WEB_LANE_LIMIT_fail_height)
def State.eyeLow (s : State) (w h : Nat) : Bool :=
  decide (w < s.fld f_WEB_LANE_LIMIT_warn_width) || decide (h < s.fld f_WEB_LANE_LIMIT_warn_height)
def State.eyeAbove (s : State) (w h : Nat) : Bool :=
  decide (s.fld f_WEB_LANE_LIMIT_warn_width < w) && decide (s.fld f_WEB_LANE_LIMIT_warn_height < h)

/-- The lane after a measurement, its health still the old one. -/
def State.eyed (s : State) (v : Lane) (w h : Nat) : Lane :=
  v.measures w h (if s.eyeLow w h then v.low + 1 else 0) (if s.eyeAbove w h then v.high + 1 else 0)

/-- The health of a lane that was `o`, its counts those of `v`. -/
def Lane.judged (v : Lane) (o : Health) : Health :=
  match o with
  | .good => if 3 ≤ v.low then .warn else .good
  | .warn => if 100 ≤ v.high then .good else .warn
  | .failed => if 100 ≤ v.high then .good else .failed
  | .off => if 3 ≤ v.low then .warn else .good

/-- The warning of a lane: its sticky bit, and the spare asked for where the lane carries a logical one. -/
def State.laneWarned (s : State) (p l : Nat) : State :=
  let s := s.stick f_WEB_EVENTS_lane_warn
  match (s.portOf p).logical l with | some k => s.askSpare p k | none => s

theorem State.measureLane_steps : s.measureLane p l w h =
    let o := ((s.portOf p).lane l).health
    let v := s.eyed ((s.portOf p).lane l) w h
    if s.eyeFails w h then (s.setPort p ((s.portOf p).setLane l v)).laneFailed p l
    else if v.judged o = .warn ∧ o ≠ .warn then (s.laneHealth p l { v with health := v.judged o }).laneWarned p l
    else s.laneHealth p l { v with health := v.judged o } := rfl

section Limits
variable (hoff : s.on f_QUE_AGENT_CTL_enable (16 + p) = false) (hx : s.portOf p = x) (hfw : s.fld f_WEB_LANE_LIMIT_fail_width ≤ w)
  (hfh : s.fld f_WEB_LANE_LIMIT_fail_height ≤ h) (hgood : (x.lane l).health = .good)
include hoff hx hfw hfh hgood

theorem State.measureLane_good (hw : s.fld f_WEB_LANE_LIMIT_warn_width < w) (hh : s.fld f_WEB_LANE_LIMIT_warn_height < h) :
    s.measureLane p l w h = s.setPort p (x.setLane l ((x.lane l).measures w h 0 ((x.lane l).high + 1))) := by
  have hlow : s.eyeLow w h = false := by
    unfold State.eyeLow
    rw [decide_eq_false (Nat.lt_asymm hw), decide_eq_false (Nat.lt_asymm hh)]
    rfl
  have habove : s.eyeAbove w h = true := by
    unfold State.eyeAbove
    rw [decide_eq_true hw, decide_eq_true hh]
    rfl
  have hfail : s.eyeFails w h = false := by
    unfold State.eyeFails
    rw [decide_eq_false (Nat.not_lt.2 hfw), decide_eq_false (Nat.not_lt.2 hfh)]
    rfl
  have hv : s.eyed (x.lane l) w h = (x.lane l).measures w h 0 ((x.lane l).high + 1) := by
    unfold State.eyed
    rw [hlow, habove]
    rfl
  have hjudged : ((x.lane l).measures w h 0 ((x.lane l).high + 1)).judged .good = .good := rfl
  have hsame : { (x.lane l).measures w h 0 ((x.lane l).high + 1) with health := .good } = (x.lane l).measures w h 0 ((x.lane l).high + 1) := by
    unfold Lane.measures
    rw [hgood]
  rw [State.measureLane_steps]
  dsimp only
  rw [hx, hfail, if_neg Bool.false_ne_true, hv, hgood, hjudged, hsame, if_neg (by decide), State.laneHealth_off hoff, hx]

theorem State.measureLane_warns (hr : Table.rising s.web.ports = true) (hlow2 : (x.lane l).low = 2) (hw : w < s.fld f_WEB_LANE_LIMIT_warn_width)
    (hk : x.logical l = some k) : s.measureLane p l w h =
      ((s.setPort p (x.setLane l { (x.lane l).measures w h 3 0 with health := .warn })).stick f_WEB_EVENTS_lane_warn).askSpare p k := by
  have hlow : s.eyeLow w h = true := by
    unfold State.eyeLow
    rw [decide_eq_true hw]
    rfl
  have habove : s.eyeAbove w h = false := by
    unfold State.eyeAbove
    rw [decide_eq_false (Nat.lt_asymm hw)]
    rfl
  have hfail : s.eyeFails w h = false := by
    unfold State.eyeFails
    rw [decide_eq_false (Nat.not_lt.2 hfw), decide_eq_false (Nat.not_lt.2 hfh)]
    rfl
  have hv : s.eyed (x.lane l) w h = (x.lane l).measures w h 3 0 := by
    unfold State.eyed
    rw [hlow, habove, hlow2]
    rfl
  have hjudged : ((x.lane l).measures w h 3 0).judged .good = .warn := rfl
  have hlogical (y : Lane) : (((s.setPort p (x.setLane l y)).stick f_WEB_EVENTS_lane_warn).portOf p).logical l = some k :=
    (congrArg (Port.logical · l) (State.setPort_portOf hr)).trans hk
  rw [State.measureLane_steps]
  dsimp only
  rw [hx, hfail, if_neg Bool.false_ne_true, hv, hgood, hjudged, if_pos (by decide), State.laneHealth_off hoff, hx]
  unfold State.laneWarned
  dsimp only
  rw [hlogical]

end Limits

theorem State.measureLane_fails (hx : s.portOf p = x) (hf : w < s.fld f_WEB_LANE_LIMIT_fail_width ∨ h < s.fld f_WEB_LANE_LIMIT_fail_height) :
    s.measureLane p l w h = (s.setPort p (x.setLane l (s.eyed (x.lane l) w h))).laneFailed p l := by
  have hfail : s.eyeFails w h = true := by
    unfold State.eyeFails
    rcases hf with hf | hf <;> rw [decide_eq_true hf]
    · rfl
    · exact Bool.or_true _
  rw [State.measureLane_steps]
  dsimp only
  rw [hx, hfail, if_pos rfl]

/-- The first warning with the spare free asks the peer for it. -/
theorem State.laneWarned_first (hr : Table.rising s.regs = true) (hw : Table.rising s.web.ports = true) (hx : s.portOf p = x) (hfree : x.rxSpare = .free)
    (v : Lane) : ∃ e, ((s.setPort p (x.setLane l v)).stick f_WEB_EVENTS_lane_warn).askSpare p k = e ∧ OnlyChanges [.regs, .web, .pwr] s e ∧
      e.portOf p = { x.setLane l v with rxSpare := .asked, rxBad := k, qLocal := x.qLocal ++ [s.linkParam p 2 [0, k]] } ∧
      e.on f_WEB_EVENTS_lane_warn = true ∧ Table.SameBut [regAddr .WEB_EVENTS 0 0] s.regs e.regs ∧ e.domainOn 44 = true ∧
      (∀ d, d ≠ 44 → e.domainOn d = s.domainOn d) ∧ Table.SameBut [p] s.web.ports e.web.ports := by
  obtain ⟨y, hy⟩ : ∃ y, y = x.setLane l v := ⟨_, rfl⟩
  have hpeer : y.peerNode = x.peerNode := hy ▸ rfl
  have hspare : y.rxSpare = .free := hy ▸ hfree
  have hlocal : y.qLocal = x.qLocal := hy ▸ rfl
  rw [← hy, ← hlocal]
  obtain ⟨u, hu⟩ : ∃ u, u = (s.setPort p y).stick f_WEB_EVENTS_lane_warn := ⟨_, rfl⟩
  have hup : u.portOf p = y := hu ▸ State.setPort_portOf hw
  have huw : Table.rising u.web.ports = true := hu ▸ State.rising_setPort hw
  have hsame : Table.SameBut [p] s.web.ports u.web.ports := hu ▸ State.sameBut_setPort hw
  have hnode : u.node = s.node := hu ▸ State.stick_node (s := s.setPort p y) hr regAddr_node_ne_webEvents
  have hmsg : u.linkParam p 2 [0, k] = s.linkParam p 2 [0, k] := State.linkParam_congr hnode (hu ▸ rfl) (by rw [hup, hx, hpeer]) 2 [0, k]
  have hframe : OnlyChanges [.regs, .web, .pwr] s u := hu ▸ ((OnlyChanges.refl _ s).setPort (by decide) p _).stick (by decide) _ _
  have hon : u.on f_WEB_EVENTS_lane_warn = true := hu ▸ State.on_stick (s := s.setPort p y) hr 0 (by decide) (by decide)
  have hregs : Table.SameBut [regAddr .WEB_EVENTS 0 0] s.regs u.regs := by
    rw [hu]
    exact State.sameBut_stick (s := s.setPort p y) hr f_WEB_EVENTS_lane_warn 0
  have hpwr : u.pwr = s.pwr := hu ▸ rfl
  rw [← hu]
  obtain ⟨P, hP, h44, hother⟩ := State.askSpare_asks huw hup hspare k
  rw [hmsg] at hP
  refine ⟨_, hP, (hframe.pwr (by decide) P).setPort (by decide) p _, State.setPort_portOf huw, hon, hregs, h44, fun d hd => (hother d hd).trans ?_,
    hsame.trans (State.sameBut_setPort huw)⟩
  exact congrArg (fun P : Pwr => P.on.getLsbD d) hpwr

/-! ## Items of a period (R183) -/

theorem State.eyePeriod_early (h : s.fld f_WEB_EYE_CTL_period = 0 ∨ s.now < (s.portOf p).eyeAt + 256000000000 * s.fld f_WEB_EYE_CTL_period) :
    s.eyePeriod p = s := by
  have hms : ms (1000 * s.fld f_WEB_EYE_CTL_period) = 256000000000 * s.fld f_WEB_EYE_CTL_period := by
    unfold ms
    omega
  exact if_pos (hms ▸ h)

theorem State.lanePowered_congr {t : State} (hw : t.portOf p = { s.portOf p with eyeAt := (t.portOf p).eyeAt }) (hp : t.pwr = s.pwr) (l : Nat) :
    t.lanePowered p l = s.lanePowered p l := by
  unfold State.lanePowered State.portPowered State.domainOn
  rw [hp, hw]
  rfl

/-- An item for each powered lane; none of them changes which lanes are powered. -/
theorem State.each_eyeItem {b : State} {y : Port} (hy : y = { b.portOf p with eyeAt := y.eyeAt }) : ∀ (l : List Nat) {t : State}, t.portOf p = y →
    t.pwr = b.pwr → t.each l (fun l s => if s.lanePowered p l then s.eyeItem p l else s) =
      t.each (l.filter fun k => b.lanePowered p k) fun k s =>
        s.agentItem (16 + p) 0x13 (f64 (y.lane k).width 1000) (BitVec.ofNat 32 ((y.lane k).height + k * 2 ^ 12))
  | [], _, _, _ => rfl
  | k :: l, t, ht, hp => by
    have hpow : t.lanePowered p k = b.lanePowered p k := State.lanePowered_congr (by rw [ht]; exact hy) hp k
    by_cases h : b.lanePowered p k = true
    · obtain ⟨u, hu⟩ : ∃ u, u = t.agentItem (16 + p) 0x13 (f64 (y.lane k).width 1000) (BitVec.ofNat 32 ((y.lane k).height + k * 2 ^ 12)) := ⟨_, rfl⟩
      have hitem : (if t.lanePowered p k then t.eyeItem p k else t) = u := by
        rw [hpow, if_pos h, hu]
        unfold State.eyeItem
        rw [ht]
      have hkeeps : Keeps 412850 t u := hu ▸ State.keeps_agentItem (Within.refl _) (Keeps.refl t) ..
      have hrest := State.each_eyeItem hy l (t := u) ((State.portOf_of_web (hkeeps.web rfl)).trans ht) ((hkeeps.pwr rfl).trans hp)
      rw [List.filter_cons_of_pos (by exact h)]
      refine Eq.trans (congrArg (fun v : State => v.each l fun l s => if s.lanePowered p l then s.eyeItem p l else s) hitem) (hrest.trans ?_)
      rw [hu]
      rfl
    · have hitem : (if t.lanePowered p k then t.eyeItem p k else t) = t := if_neg (hpow ▸ h)
      rw [List.filter_cons_of_neg (by exact h)]
      exact (congrArg (fun v : State => v.each l fun l s => if s.lanePowered p l then s.eyeItem p l else s) hitem).trans
        (State.each_eyeItem hy l ht hp)

theorem State.eyePeriod_due (hx : s.portOf p = x) (hr : Table.rising s.web.ports = true) (h0 : s.fld f_WEB_EYE_CTL_period ≠ 0)
    (h : x.eyeAt + 256000000000 * s.fld f_WEB_EYE_CTL_period ≤ s.now) : s.eyePeriod p =
      (s.setPort p { x with eyeAt := s.now }).each ((List.range 3).filter fun k => s.lanePowered p k) fun k y =>
        y.agentItem (16 + p) 0x13 (f64 (x.lane k).width 1000) (BitVec.ofNat 32 ((x.lane k).height + k * 2 ^ 12)) := by
  have hms : ms (1000 * s.fld f_WEB_EYE_CTL_period) = 256000000000 * s.fld f_WEB_EYE_CTL_period := by
    unfold ms
    omega
  have hdue : ¬ (s.fld f_WEB_EYE_CTL_period = 0 ∨ s.now < (s.portOf p).eyeAt + ms (1000 * s.fld f_WEB_EYE_CTL_period)) := by
    rw [hms, hx]
    exact not_or.2 ⟨h0, Nat.not_lt.2 h⟩
  refine (if_neg hdue).trans ?_
  dsimp only
  rw [hx]
  exact State.each_eyeItem (y := { x with eyeAt := s.now }) (by rw [hx]) (List.range 3) (State.setPort_portOf hr) rfl

end Measured

/-- Settles O50, by what a measurement, a failure and a period make of the port (the part `Lanes` and the lemmas above). -/
theorem laneHealth : Obligations.LaneHealth := by
  intro s t p l x hcan hpow hp hl hx
  obtain ⟨b, hb⟩ : ∃ b, s.begin t = b := ⟨_, rfl⟩
  have hcb : b.canonical := hb ▸ State.canonical_begin hcan t
  have hregs : Table.rising b.regs = true := hcb.fine.regs
  have hports : Table.rising b.web.ports = true := hcb.fine.ports
  rw [hb] at hx ⊢
  have hok : isPort p = true := isPort_of hp
  have hokl : (isPort p && isLane l) = true := by
    rw [hok]
    exact decide_eq_true hl
  refine ⟨fun hoff => ⟨?_, fun w h => ?_⟩, fun hon hag => ⟨fun w h hfw hfh => ⟨fun hgood hw hh => ?_, fun k hgood hlow hw hk hfree => ?_⟩,
    fun w h k hf hne hk hst hd hfree => ?_, fun hfailed => ?_, fun k hne hk hst hd hfree => ?_, fun k hne hk hst hd => ?_⟩,
    fun h => ?_, fun h0 h => ?_, fun w h c hc => ?_⟩
  · exact .runs hb hpow rfl hokl (if_neg (by rw [hoff]; decide)) (OnlyChanges.refl _ _) trivial
  · exact .runs hb hpow rfl hokl (if_neg (by rw [hoff]; decide)) (OnlyChanges.refl _ _) trivial
  · exact .runs hb hpow rfl hokl ((if_pos hon).trans (State.measureLane_good hag hx hfw hfh hgood hw hh))
      ((OnlyChanges.refl _ b).setPort (by decide) p _) ⟨State.setPort_portOf hports, State.sameBut_setPort hports, rfl⟩
  · obtain ⟨e, he, hframe, hep, hrest⟩ := State.laneWarned_first (l := l) (k := k) hregs hports hx hfree
      { (x.lane l).measures w h 3 0 with health := .warn }
    exact .runs hb hpow rfl hokl ((if_pos hon).trans ((State.measureLane_warns hag hx hfw hfh hgood hports hlow hw hk).trans he)) hframe ⟨hep, hrest⟩
  · obtain ⟨v, hv⟩ : ∃ v, v = b.eyed (x.lane l) w h := ⟨_, rfl⟩
    have hvne : v ≠ Lane.reset := by rw [hv]; exact Lane.measures_ne _ _ _ _ _
    have hlane : (x.setLane l v).lane l = v := Port.setLane_same hvne
    have hport : (b.setPort p (x.setLane l v)).portOf p = x.setLane l v := State.setPort_portOf hports
    have hfails := State.measureLane_fails (l := l) hx hf
    rw [← hv] at hfails
    obtain ⟨e, he, hframe, hep, hon', h44, -, hsame, -⟩ := State.laneFailed_first (s := b.setPort p (x.setLane l v)) hag hregs
      (State.rising_setPort hports) hport (show ((x.setLane l v).lane l).health ≠ .failed by rw [hlane, hv]; exact hne) hk hst hd hfree
    rw [State.linkParam_setPort hports (by rw [hx]; rfl)] at hep
    refine .runs hb hpow rfl hokl ((if_pos hon).trans (hfails.trans he)) (((OnlyChanges.refl _ b).setPort (by decide) p _).trans hframe) ?_
    rw [hep]
    refine ⟨?_, rfl, rfl, rfl, rfl, hst, hon', h44, (State.sameBut_setPort hports).trans hsame⟩
    exact congrArg Lane.health (Port.setLane_same (x := x.setLane l v) (Lane.out_ne _))
  · exact .runs hb hpow rfl hokl ((if_pos hon).trans (State.laneFailed_again (by rw [hx]; exact hfailed))) (OnlyChanges.refl _ _) trivial
  · obtain ⟨e, he, hframe, hep, hon', h44, hother, hsame, hflt⟩ := State.laneFailed_first hag hregs hports hx hne hk hst hd hfree
    exact .runs hb hpow rfl hokl ((if_pos hon).trans he) hframe ⟨hep, hon', h44, hother, hsame, b.laneOut p l, rfl, rfl, hflt⟩
  · obtain ⟨e, he, hframe, hep, hon', hsame⟩ := State.laneFailed_further hag hregs hports hp hx hne hk hst hd
    refine .runs hb hpow rfl hokl ((if_pos hon).trans he) hframe ?_
    rw [hep]
    exact ⟨rfl, congrArg Lane.health (Port.setLane_same (Lane.out_ne _)), hon', hsame⟩
  · exact .runs hb hpow rfl hok (State.eyePeriod_early (by rw [hx]; exact h)) (OnlyChanges.refl _ _) trivial
  · obtain ⟨u, hu⟩ : ∃ u, u = b.setPort p { x with eyeAt := b.now } := ⟨_, rfl⟩
    obtain ⟨e, he⟩ : ∃ e, e = u.each ((List.range 3).filter fun k => b.lanePowered p k) fun k y =>
        y.agentItem (16 + p) 0x13 (f64 (x.lane k).width 1000) (BitVec.ofNat 32 ((x.lane k).height + k * 2 ^ 12)) := ⟨_, rfl⟩
    have hkeeps : Keeps 412850 u e := he ▸ State.keeps_each (Keeps.refl u) _ _ fun k v hv => State.keeps_agentItem (Within.refl _) hv ..
    have hframe : OnlyChanges [.regs, .evm, .force, .engs, .que, .memc, .vat, .web, .flt, .cal] b u := hu ▸ (OnlyChanges.refl _ b).setPort (by decide) p _
    have hweb : e.web = u.web := hkeeps.web rfl
    refine .runs hb hpow rfl hok ((State.eyePeriod_due hx hports h0 h).trans (by rw [he, hu])) (hframe.then hkeeps (by decide)) ⟨?_, ?_, ?_⟩
    · exact (State.portOf_of_web hweb).trans (hu ▸ State.setPort_portOf hports)
    · rw [hweb, hu]
      exact State.sameBut_setPort hports
    · rw [he, hu]
  · simp only [List.mem_cons, List.not_mem_nil, or_false] at hc
    rcases hc with rfl | rfl | rfl
    · exact ⟨s.act t fun s => if s.lanePowered p l then s.measureLane p l w h else s,
        by rw [show exec (.eyeMeasurement t p l w h) s = outIf (isPort p && isLane l) _ from rfl, hokl]; rfl⟩
    · exact ⟨s.act t fun s => if s.lanePowered p l then s.laneFailed p l else s,
        by rw [show exec (.lossOfSignal t p l) s = outIf (isPort p && isLane l) _ from rfl, hokl]; rfl⟩
    · exact ⟨s.act t fun s => s.eyePeriod p, by rw [show exec (.linkEye t p) s = outIf (isPort p) _ from rfl, hok]; rfl⟩

end Sys2Proof.Machine
end

section
/-!
PROOFS. A lane swap under a test overfill (R214, R280): the item that reports the lane powered down may find its felt full, which is a fault of its
own in front of the swap's.
-/

namespace Sys2Proof.Machine

open Sys2Proof

/-- Where the event matrix's domain is off, what follows a command changes no fault record. -/
theorem State.finish_flt {b e : State} (h : e.domainOn 55 = false) : (State.finish b e).flt = e.flt := by
  unfold State.finish
  split
  · rfl
  · obtain ⟨l, h1⟩ := State.settle_unrouted 2400 h
    obtain ⟨u, hu⟩ : ∃ u : State, u = { e with evm := { e.evm with asserted := l } } := ⟨_, rfl⟩
    have hkeeps := State.keeps_watch (Within.refl _) (Keeps.refl u) b
    have hpwr : (State.watch b u).domainOn 55 = false := by
      unfold State.domainOn
      rw [hkeeps.pwr rfl, hu]
      exact h
    obtain ⟨m, h2⟩ := State.settle_unrouted 2400 hpwr
    rw [h1, ← hu, h2]
    exact (hkeeps.flt rfl).trans (hu ▸ rfl)

/-- A class-B fault with the event cycle's four captures used up and no fault waiting is the one that waits. -/
theorem State.log_waits {y : State} {d : Detect} (hfull : y.flt.capCycle = y.cycle) (hfour : y.flt.capSeqs.length = 4) (hq : y.flt.queue = [])
    (hcls : d.cls < 3) : (y.log d).flt.queue = [d] := by
  have hno (q : List Detect) : State.canCapture { y with flt := { y.flt with queue := q } } = false := by
    have hsame : State.sameCycle { y with flt := { y.flt with queue := q } } = y.flt.capSeqs := if_pos hfull
    unfold State.canCapture
    rw [hsame, hfour]
    rfl
  have hcan : ¬ (y.canCapture = true ∧ y.flt.queue = []) := fun h => by
    have hy := hno y.flt.queue
    rw [show State.canCapture { y with flt := { y.flt with queue := y.flt.queue } } = y.canCapture from rfl, h.1] at hy
    cases hy
  have hqueue : y.queueDetect d = { y with flt := { y.flt with queue := [d] } } := by
    unfold State.queueDetect
    rw [hq, if_pos (by decide)]
    rfl
  unfold State.log
  rw [if_neg hcan, hqueue, show State.react { y with flt := { y.flt with queue := [d] } } d.cls d.scope d.code 0 =
    { y with flt := { y.flt with queue := [d] } } from if_pos hcls]
  unfold State.collect
  dsimp only
  rw [hno]
  rfl

/-- An ACTIVE port 0 whose swap is due while a test overfill awaits the felt of the port's agent and the event cycle's captures are used up. -/
def swapOverfull : State :=
  { State.reset with
    regs := [(regAddr .QUE_AGENT_CTL 16 0, 0x80000000)]
    que := { Que.reset with felts := [(0, { Felt.reset with st := .active })], overFelt := some 0 }
    web := { Web.reset with
      ports := [(0, { Port.reset with st := .active, rx0 := 0, rx1 := 1, rxSpare := .agreed 0 0, lanes := [(0, { Lane.reset with health := .good })] })] }
    flt := { Flt.reset with capSeqs := [1, 2, 3, 4] }
    pwr := { Pwr.reset with on := BitVec.ofNat 62 (2 ^ 40) } }

/-- Refutes O51: in `swapOverfull` two faults wait after the swap, that of the full felt and that of the swap, and the statement gives the second alone. -/
theorem not_spareLanesAndRates : ¬ Obligations.SpareLanesAndRates := by
  intro h
  obtain ⟨-, -, -, -, -, -, -, -, hswap, -⟩ := h swapOverfull 0 0 0 0 _ (by decide) (by decide) (by decide) (by decide) rfl (by decide)
  obtain ⟨e, hexec, hframe, -, -, -, -, -, -, -, y, hyflt, hynow, heflt⟩ := hswap 0 0 (by decide)
  have htwo : ∀ u, exec (.laneSwap 0 0 .rx) swapOverfull = .next u → u.flt.queue.length = 2 := by
    intro u hu
    obtain rfl := Host.Outcome.next.inj hu
    decide
  have hpwr : e.pwr = (swapOverfull.begin 0).pwr := hframe.2.2 .pwr (by decide)
  have hdomain : e.domainOn 55 = false := by
    unfold State.domainOn
    rw [hpwr]
    decide
  have hwaits : (State.finish (swapOverfull.begin 0) e).flt.queue.length = 1 := by
    rw [State.finish_flt hdomain, heflt, State.log_waits (by unfold State.cycle; rw [hyflt, hynow]; decide) (by rw [hyflt]; decide)
      (by rw [hyflt]; decide) (show 2 < 3 by decide)]
    rfl
  rw [htwo _ hexec] at hwaits
  cases hwaits

end Sys2Proof.Machine
end

section
/-!
PROOFS. MGMT_SPI, MGMT_ACCESS and the TAP (R286, R287, Table 9-10).
-/

namespace Sys2Proof.Machine

open Sys2Proof

section Mgmt
variable {s b : State} {t a m i j : Nat} {r : Reg} {v : Word} {x : TapState}

/-! ## Scans of the TAP (R287) -/

theorem TapState.walk_append (l k : List Bool) : x.walk (l ++ k) = (x.walk l).walk k := List.foldl_append

theorem TapState.walk_shift : ∀ n, TapState.walk .shiftDr (List.replicate n false) = .shiftDr
  | 0 => rfl
  | n + 1 => TapState.walk_shift n

theorem TapState.walk_scanDr (n : Nat) : TapState.walk .idle (scanDr n) = .idle := by
  unfold scanDr
  rw [TapState.walk_append, TapState.walk_append, show TapState.walk .idle [true, false, false] = .shiftDr from rfl, TapState.walk_shift]
  rfl

theorem TapState.walk_scanIr (h : x = .reset ∨ x = .idle) : x.walk scanIr = .idle := by
  rcases h with rfl | rfl <;> rfl

/-- Every scan of an instruction and then of data ends in Run-Test/Idle. -/
theorem TapState.walk_scans (h : x = .reset ∨ x = .idle) (n : Nat) : (x.walk scanIr).walk (scanDr n) = .idle := by
  rw [TapState.walk_scanIr h, TapState.walk_scanDr]

/-! ## Registers written without effects beyond themselves -/

/-- Registers whose write stores its word and does nothing else. -/
def plainWrites : List Reg :=
  [.CH_DECKLE, .CH_CALENDER, .CH_CALENDER_RATE, .TILE_GUARD_CTL, .CH_MEAS_LEN, .CH_MEAS_DELAY, .CH_MEAS_MON, .CH_SWEEP_AT, .MEMC_PR_BANK, .MEMC_PR_PC,
    .WEB_EYE_CTL]

/-- What no write to the register meets. -/
structure PlainWrite (r : Reg) : Prop where
  ruled : r ∉ ruledRegs
  marks : r ≠ .QUE_FELT_WM_STATUS
  rwi : rwiMask r = 0
  w1c : w1cMask r = 0
  refusals : ∀ (s : State) i v, s.refusals r i v = []
  barred : ∀ (s : State) m i v old, s.barred m r i v old = none
  changed : ∀ (s : State) i j codes old, s.changed r i j codes old = s
  acted : ∀ (s : State) m i v codes bad, s.acted m r i v codes bad = s

theorem plainWrite_of_mem (h : r ∈ plainWrites) : PlainWrite r := by
  have hbar (s : State) (m i : Nat) (v old : Word) (hr : r ∈ plainWrites) : s.barred m r i v old = none := by
    unfold State.barred
    dsimp only
    split
    · rfl
    · simp only [plainWrites, List.mem_cons, List.not_mem_nil, or_false] at hr
      rcases hr with rfl | rfl | rfl | rfl | rfl | rfl | rfl | rfl | rfl | rfl | rfl <;> rfl
  have hchanged (s : State) (i j : Nat) (codes : Option (List Int)) (old : Word) (hr : r ∈ plainWrites) : s.changed r i j codes old = s := by
    unfold State.changed
    dsimp only
    split
    · rfl
    · simp only [plainWrites, List.mem_cons, List.not_mem_nil, or_false] at hr
      rcases hr with rfl | rfl | rfl | rfl | rfl | rfl | rfl | rfl | rfl | rfl | rfl <;> rfl
  have hr := h
  simp only [plainWrites, List.mem_cons, List.not_mem_nil, or_false] at hr
  rcases hr with rfl | rfl | rfl | rfl | rfl | rfl | rfl | rfl | rfl | rfl | rfl <;>
    exact ⟨by decide, by decide, by decide, by decide, fun _ _ _ => rfl, fun s m i v old => hbar s m i v old h,
      fun s i j codes old => hchanged s i j codes old h, fun _ _ _ _ _ _ => rfl⟩

theorem keep_all (x : Word) : x &&& ~~~0 = x := by rw [show ~~~(0 : Word) = BitVec.allOnes 32 from rfl, BitVec.and_allOnes]

theorem State.regWrite_stores (h : PlainWrite r) (hsh : s.shielded (regAddr r i j) = 0) (codes : Option (List Int)) (bad : Bool) :
    s.regWrite m r i j v codes bad = s.wr r ((s.rd r i j &&& ~~~ rwMask r) ||| (v &&& rwMask r)) i j := by
  have hstored : stored r (s.rd r i j) v 0 = (s.rd r i j &&& ~~~ rwMask r) ||| (v &&& rwMask r) := by
    unfold stored
    rw [h.w1c]
    dsimp only
    rw [keep_all, show v &&& (0 : Word) = 0 from BitVec.and_zero, keep_all]
  rw [State.regWrite_plain h.ruled hsh, State.writePlain_taken h.marks (by rw [h.rwi]; simp [differs]) (h.barred ..)
    (by rw [h.refusals]; simp), h.changed, h.acted, hstored]

/-! ## Accesses by a management port -/

theorem State.answers_of_powered (h : s.powered) (hm : 0x1000 ≤ m) : s.answers m = true := by
  unfold State.answers State.dead
  rw [h.1, h.2, decide_eq_true hm, Bool.or_true]
  rfl

theorem State.writeAt_register (ha : a % 4 = 0) (ht : s.target a = .reg r i j) (codes : Option (List Int)) (bad : Bool) :
    s.writeAt m a v codes bad = ⟨s.regWrite m r i j v codes bad, 0, 0⟩ := by
  unfold State.writeAt
  rw [if_neg (not_not.2 ha), ht]

theorem State.writeAt_reserved (ha : a % 4 = 0) (ht : s.target a = .reserved) (codes : Option (List Int)) (bad : Bool) :
    s.writeAt m a v codes bad = ⟨s.reservedAccess m a true, 1, 0⟩ := by
  unfold State.writeAt
  rw [if_neg (not_not.2 ha), ht]

theorem State.readAt_reserved (ha : a % 4 = 0) (ht : s.target a = .reserved) (bad : Bool) :
    s.readAt m a bad = ⟨s.reservedAccess m a false, 1, 0⟩ := by
  unfold State.readAt
  rw [if_neg (not_not.2 ha), ht]

theorem State.readReg_clears (hp : pairHalf r i j = none) (hq : r ≠ .QUE_FELT_POP) (m : Nat) : s.readReg m r i j = s.readClear r i j := by
  unfold State.readReg
  split
  · exact absurd rfl hq
  · rw [hp]

theorem State.readAt_clears (ha : a % 4 = 0) (ht : s.target a = .reg r i j) (hp : pairHalf r i j = none) (hq : r ≠ .QUE_FELT_POP) (bad : Bool) :
    s.readAt m a bad = ⟨(s.readClear r i j).1, 0, s.viewReg r i j⟩ := by
  unfold State.readAt
  rw [if_neg (not_not.2 ha), ht]
  dsimp only
  rw [State.readReg_clears hp hq]
  rfl

/-- A read that clears reads the word shown, and clears the RC fields alone. -/
theorem State.readClear_reads (hr : Table.rising s.regs = true) : ∃ R, (s.readClear r i j).1 = { s with regs := R } ∧
    Table.get (regReset r i) (regAddr r i j) R = s.rd r i j &&& ~~~ accMask r (fun x => x == .rc) ∧ Table.SameBut [regAddr r i j] s.regs R := by
  unfold State.readClear
  dsimp only
  split
  next h => exact ⟨s.regs, rfl, by rw [h]; exact (keep_all (s.rd r i j)).symm, .refl _ _⟩
  next h => exact ⟨_, rfl, Table.get_put_same hr, .put hr _ _ _⟩

theorem State.accessFault_withJtag (J : Jtag) (code cls : Nat) (sc : Scope) (m access a : Nat) :
    (s.withJtag J).accessFault code cls sc m access a = (s.accessFault code cls sc m access a).withJtag J := by
  exact State.log_withJtag _

theorem State.spiAnswer_refused (h : s.resp.error = true) (busy : Nat) : s.spiAnswer busy = List.replicate busy 0 ++ [2, 0, 0, 0, 0] := by
  unfold State.spiAnswer
  rw [h, if_pos rfl]

/-- Numbers that are read as bytes one by one. -/
theorem bytes_cast (l : List Nat) : (l >>= fun a => pure (Nat.cast a : Byte)) = List.map (fun a : Nat => (Nat.cast a : Byte)) l :=
  (List.bind_eq_flatMap _ l).trans (List.flatMap_pure_eq_map _ l)

/-- The MGMT_ACCESS register after an access: its status, its address and the data (Table 9-10). -/
theorem State.tapAnswer_done (h : s.resp.error = false) : (s.tapAnswer a).jtag.mgmt = 2 ^ 68 + a % 2 ^ 36 * 2 ^ 32 + s.resp.data.toNat := by
  show (if s.resp.error then 2 else 1) * 2 ^ 68 + a % 2 ^ 36 * 2 ^ 32 + s.resp.data.toNat = _
  rw [h, if_neg Bool.false_ne_true, Nat.one_mul]

theorem State.tapAnswer_keeps : ∃ J, s.tapAnswer a = { s with jtag := J } := ⟨_, rfl⟩

theorem State.tapAnswer_flt : (s.tapAnswer a).flt = s.flt := by
  obtain ⟨J, hJ⟩ := State.tapAnswer_keeps (s := s) (a := a)
  rw [hJ]

theorem State.tapAnswer_written (h : s.resp = ⟨m, false, 0⟩) : (s.tapAnswer a).jtag.mgmt = 2 ^ 68 + a % 2 ^ 36 * 2 ^ 32 := by
  rw [State.tapAnswer_done (congrArg Resp.error h), congrArg Resp.data h, show (0 : Word).toNat = 0 from rfl, Nat.add_zero]

theorem State.tapAnswer_refused (h : s.resp = ⟨m, true, 0⟩) : (s.tapAnswer a).jtag.mgmt = 2 ^ 69 + a % 2 ^ 36 * 2 ^ 32 := by
  show (if s.resp.error then 2 else 1) * 2 ^ 68 + a % 2 ^ 36 * 2 ^ 32 + s.resp.data.toNat = _
  rw [h, if_pos rfl, show (0 : Word).toNat = 0 from rfl, Nat.add_zero, show 2 * 2 ^ 68 = 2 ^ 69 by decide]

/-- The fault collector does not see the instruction that the TAP holds. -/
theorem State.accessFault_tapLoad (ir code cls : Nat) (sc : Scope) (m access a : Nat) :
    ((s.tapLoad ir).accessFault code cls sc m access a).flt = (s.accessFault code cls sc m access a).flt := by
  have htap : s.tapLoad ir = s.withJtag { s.jtag with ir, drives := false, tap := s.jtag.tap.walk scanIr } := rfl
  rw [htap, State.accessFault_withJtag]
  rfl

/-! ## The commands as outcomes -/

variable {mosi data rest : List Byte} {busy : Nat} {w bad : Bool}

theorem exec_spiWrite (hf : spiFrame mosi = some (0x02, a, data)) (hlen : 4 ≤ data.length) (hn : s.foreign a true = none) :
    exec (.spiWrite t mosi) s = outIf true (s.act t fun s =>
      (s.access spiMaster fun s => s.writeAt spiMaster a (BitVec.ofNat 32 (beNat (data.take 4))) none false).setMiso []) := by
  show execSpiWrite .. = _
  unfold execSpiWrite
  rw [hf]
  show (if data.length < 4 then _ else _) = _
  rw [if_neg (Nat.not_lt.2 hlen), hn]
  rfl

theorem exec_spiRead (hf : spiFrame mosi = some (0x03, a, rest)) (hn : s.foreign a false = none) :
    exec (.spiRead t mosi busy bad) s = outIf true (s.act t fun s =>
      let s := s.access spiMaster fun s => s.readAt spiMaster a bad
      s.setMiso ((s.spiAnswer busy).take rest.length)) := by
  show execSpiRead .. = _
  unfold execSpiRead
  rw [hf]
  simp only [hn]
  rfl

theorem exec_mgmtAccess (hn : s.foreign a w = none) : exec (.mgmtAccess t w a v bad) s = outIf true (s.act t fun s =>
    ((s.tapLoad 0x20).access jtagMaster fun s =>
      if w then s.writeAt jtagMaster a v none false else s.readAt jtagMaster a bad).tapAnswer a) := by
  show execMgmtAccess .. = _
  unfold execMgmtAccess
  rw [hn]
  rfl

/-- A transaction that is no complete write does nothing. -/
theorem exec_spiWrite_none (h : ∀ a data, spiFrame mosi = some (0x02, a, data) → data.length < 4) :
    exec (.spiWrite t mosi) s = outIf true (s.act t fun s => s.setMiso []) := by
  show execSpiWrite .. = _
  unfold execSpiWrite
  split
  next a data hf => rw [if_pos (h a data hf)]; rfl
  next => rfl

theorem exec_spiRead_none (h : ∀ a rest, spiFrame mosi ≠ some (0x03, a, rest)) :
    exec (.spiRead t mosi busy bad) s = outIf true (s.act t fun s => s.setMiso []) := by
  show execSpiRead .. = _
  unfold execSpiRead
  split
  next a rest hf => exact absurd hf (h a rest)
  next => rfl

/-- What a transaction answers. -/
theorem State.access_done {f : State → Done} {u : State} {st : Nat} {d : Word} (h : s.answers m = true) (hf : f s = ⟨u, st, d⟩) :
    s.access m f = { u with resp := ⟨m, decide (st ≠ 0), d⟩ } := by
  rw [State.access_of_answers h, hf]

end Mgmt

/-- Settles O52. -/
theorem managementPorts : Obligations.ManagementPorts := by
  intro s t
  refine ⟨fun mosi h => ?_, fun mosi busy bad h => ?_, fun w a v bad h => ⟨_, exec_mgmtAccess h⟩, fun trst code pins load c hc => ?_,
    fun hcan hpow => ?_⟩
  · show ∃ e, execSpiWrite .. = _
    unfold execSpiWrite
    split
    next a data hf =>
      rw [hf] at h
      have hnone : s.foreign a true = none := by simpa using h
      split
      · exact ⟨_, rfl⟩
      · rw [hnone]
        exact ⟨_, rfl⟩
    next => exact ⟨_, rfl⟩
  · show ∃ e, execSpiRead .. = _
    unfold execSpiRead
    split
    next a rest hf =>
      rw [hf] at h
      have hnone : s.foreign a false = none := by simpa using h
      rw [hnone]
      exact ⟨_, rfl⟩
    next => exact ⟨_, rfl⟩
  · simp only [List.mem_cons, List.not_mem_nil, or_false] at hc
    rcases hc with rfl | rfl | rfl <;> exact ⟨_, rfl⟩
  obtain ⟨b, hb⟩ : ∃ b, s.begin t = b := ⟨_, rfl⟩
  have hcb : b.canonical := hb ▸ State.canonical_begin hcan t
  have hregs : Table.rising b.regs = true := hcb.fine.regs
  have hpowb : b.powered := by
    have hpwr : b.pwr = s.pwr := hb ▸ State.begin_pwr
    exact ⟨hpwr ▸ hpow.1, hpwr ▸ hpow.2⟩
  have htarget (a : Nat) : b.target a = s.target a := hb ▸ State.begin_target
  have hspi : b.answers spiMaster = true := State.answers_of_powered hpowb (by decide)
  have hjtag : (b.tapLoad 0x20).answers jtagMaster = true := State.answers_of_powered (s := b.tapLoad 0x20) hpowb (by decide)
  have hnotwindow {a : Nat} {w : Bool} (h : s.target a ≠ .window) : s.foreign a w = none := State.foreign_of_target_ne_window h
  have hload : OnlyChanges [.jtag] b (b.tapLoad 0x20) := OnlyChanges.withJtag b _
  rw [hb]
  refine ⟨fun mosi a data v r i j hf hlen hv ha ht hsh hr => ⟨?_, fun bad => ?_⟩, fun mosi h => ?_, fun mosi busy bad h => ?_,
    fun a r i j ha ht hp hq => ⟨fun mosi rest busy bad hf => ?_, fun v bad => ?_⟩,
    fun a ha ht => ⟨fun mosi rest busy bad hf => ?_, fun v w bad => ?_⟩, ?_, ?_, fun code hcode => ?_, fun pins load => ?_⟩
  · have hwrite : b.writeAt spiMaster a v none false = ⟨b.wr r ((b.rd r i j &&& ~~~ rwMask r) ||| (v &&& rwMask r)) i j, 0, 0⟩ := by
      rw [State.writeAt_register ha ((htarget a).trans ht), State.regWrite_stores (plainWrite_of_mem hr) hsh]
    exact .runs hb hpow (exec_spiWrite hf hlen (hnotwindow (by rw [ht]; nofun))) rfl
      (congrArg (State.setMiso · []) (State.access_done hspi (by rw [← hv]; exact hwrite)))
      ((((OnlyChanges.refl _ b).regs (by decide) _).resp (by decide) _).jtag (by decide) _)
      ⟨State.rd_wr_same hregs .., .put hregs _ _ _, rfl, rfl⟩
  · have hwrite : (b.tapLoad 0x20).writeAt jtagMaster a v none false =
        ⟨(b.tapLoad 0x20).wr r ((b.rd r i j &&& ~~~ rwMask r) ||| (v &&& rwMask r)) i j, 0, 0⟩ := by
      rw [State.writeAt_register (s := b.tapLoad 0x20) ha ((htarget a).trans ht), State.regWrite_stores (s := b.tapLoad 0x20) (plainWrite_of_mem hr) hsh]
      rfl
    exact .runs hb hpow (exec_mgmtAccess (hnotwindow (by rw [ht]; nofun))) rfl
      (congrArg (State.tapAnswer · a) (State.access_done (f := fun s => s.writeAt jtagMaster a v none false) hjtag hwrite))
      (((((hload.mono (by decide)).regs (by decide) _).resp (by decide) _).jtag (by decide) _).jtag (by decide) _)
      ⟨State.rd_wr_same hregs .., .put hregs _ _ _, rfl, rfl, rfl, State.tapAnswer_written (m := jtagMaster) rfl, rfl⟩
  · exact .runs hb hpow (exec_spiWrite_none h) rfl rfl ((OnlyChanges.refl _ b).jtag (by decide) _) rfl
  · exact .runs hb hpow (exec_spiRead_none h) rfl rfl ((OnlyChanges.refl _ b).jtag (by decide) _) rfl
  · obtain ⟨R, hR, hrd, hsame⟩ := State.readClear_reads (s := b) (r := r) (i := i) (j := j) hregs
    have hread : b.readAt spiMaster a bad = ⟨{ b with regs := R }, 0, b.viewReg r i j⟩ := by
      rw [State.readAt_clears ha ((htarget a).trans ht) hp hq, hR]
    exact .runs hb hpow (exec_spiRead hf (hnotwindow (by rw [ht]; nofun))) rfl
      (congrArg (fun u : State => u.setMiso ((u.spiAnswer busy).take rest.length)) (State.access_done hspi hread))
      ((((OnlyChanges.refl _ b).regs (by decide) _).resp (by decide) _).jtag (by decide) _) ⟨rfl, hrd, hsame, rfl⟩
  · obtain ⟨R, hR, hrd, hsame⟩ := State.readClear_reads (s := b.tapLoad 0x20) (r := r) (i := i) (j := j) hregs
    have hread : (b.tapLoad 0x20).readAt jtagMaster a bad = ⟨{ b.tapLoad 0x20 with regs := R }, 0, b.viewReg r i j⟩ := by
      rw [State.readAt_clears (s := b.tapLoad 0x20) ha ((htarget a).trans ht) hp hq, hR]
      rfl
    exact .runs hb hpow (exec_mgmtAccess (hnotwindow (by rw [ht]; nofun))) rfl
      (congrArg (State.tapAnswer · a) (State.access_done (f := fun s => s.readAt jtagMaster a bad) hjtag hread))
      (((((hload.mono (by decide)).regs (by decide) _).resp (by decide) _).jtag (by decide) _).jtag (by decide) _)
      ⟨rfl, hrd, hsame, rfl, rfl, State.tapAnswer_done rfl, rfl⟩
  · obtain ⟨u, hu⟩ : ∃ u, u = b.accessFault 0x002 1 .none spiMaster (accessType a false) a := ⟨_, rfl⟩
    have hread : b.readAt spiMaster a bad = ⟨u, 1, 0⟩ := by
      rw [State.readAt_reserved ha ((htarget a).trans ht), hu]
      rfl
    have hjt : u.jtag = b.jtag := hu ▸ (State.keeps_accessFault (Within.refl _) (Keeps.refl b) ..).jtag rfl
    have hframe : OnlyChanges [.regs, .evm, .force, .engs, .que, .memc, .vat, .flt, .cal, .resp, .jtag] b u :=
      hu ▸ (OnlyChanges.refl _ b).accessFault rfl ..
    refine .runs hb hpow (exec_spiRead hf (hnotwindow (by rw [ht]; nofun))) rfl
      (congrArg (fun u : State => u.setMiso ((u.spiAnswer busy).take rest.length)) (State.access_done hspi hread))
      ((hframe.resp (by decide) _).jtag (by decide) _) ⟨rfl, ?_, (congrArg State.flt hu : u.flt = _)⟩
    have hanswer := State.spiAnswer_refused (s := { u with resp := ⟨spiMaster, decide (1 ≠ 0), 0⟩ }) rfl busy
    refine (congrArg (fun l : List Byte => ({ u.jtag with miso := l.take rest.length } : Jtag)) hanswer).trans ?_
    rw [hjt, bytes_cast, List.map_append, List.map_replicate]
    rfl
  · obtain ⟨u, hu⟩ : ∃ u, u = (b.tapLoad 0x20).accessFault 0x002 1 .none jtagMaster (accessType a w) a := ⟨_, rfl⟩
    have hflt : u.flt = (b.accessFault 0x002 1 .none 0x1021 (accessType a w) a).flt := by
      rw [hu]
      exact State.accessFault_tapLoad ..
    have hdone : (if w then (b.tapLoad 0x20).writeAt jtagMaster a v none false else (b.tapLoad 0x20).readAt jtagMaster a bad) = ⟨u, 1, 0⟩ := by
      cases w with
      | true =>
        rw [if_pos rfl, State.writeAt_reserved (s := b.tapLoad 0x20) ha ((htarget a).trans ht), hu]
        rfl
      | false =>
        rw [if_neg Bool.false_ne_true, State.readAt_reserved (s := b.tapLoad 0x20) ha ((htarget a).trans ht), hu]
        rfl
    have hframe : OnlyChanges [.regs, .evm, .force, .engs, .que, .memc, .vat, .flt, .cal, .resp, .jtag] b u :=
      hu ▸ (hload.mono (by decide)).accessFault rfl ..
    refine .runs hb hpow (exec_mgmtAccess (hnotwindow (by rw [ht]; nofun))) rfl
      (congrArg (State.tapAnswer · a) (State.access_done
        (f := fun s => if w then s.writeAt jtagMaster a v none false else s.readAt jtagMaster a bad) hjtag hdone))
      (((hframe.resp (by decide) _).jtag (by decide) _).jtag (by decide) _) ⟨rfl, ?_, ?_⟩
    · exact State.tapAnswer_refused (m := jtagMaster) rfl
    · exact State.tapAnswer_flt.trans hflt
  · exact .runs (ok := true) hb hpow rfl rfl rfl ((OnlyChanges.refl _ b).jtag (by decide) _) rfl
  · exact .runs (ok := true) hb hpow rfl rfl rfl ((hload.jtag (by decide) _)) ⟨rfl, fun h => TapState.walk_scans h 32⟩
  · have hnot : tapCodes.contains (code % 256) = false := by simpa [tapCodes] using hcode
    exact .runs (ok := true) hb hpow rfl rfl (if_neg (by rw [hnot]; decide)) ((OnlyChanges.withJtag b _).jtag (by decide) _)
      ⟨rfl, fun h => TapState.walk_scans h 1⟩
  · exact .runs (ok := true) hb hpow rfl rfl rfl ((((OnlyChanges.withJtag b _).jtag (by decide) _)).jtag (by decide) _)
      ⟨rfl, fun h => TapState.walk_scans h (scanLength (max pins load))⟩

end Sys2Proof.Machine
end

section
/-!
PROOFS. Attestation requests that come while another request waits at a port (R269, R368): the place that the one leaves is taken by the other.
-/

namespace Sys2Proof.Machine

open Sys2Proof

/-- Where the event matrix's domain is off, what follows a command leaves the web alone. -/
theorem State.finish_web {b e : State} (h : e.domainOn 55 = false) : (State.finish b e).web = e.web := by
  unfold State.finish
  split
  · rfl
  · obtain ⟨l, h1⟩ := State.settle_unrouted 2400 h
    obtain ⟨u, hu⟩ : ∃ u : State, u = { e with evm := { e.evm with asserted := l } } := ⟨_, rfl⟩
    have hkeeps := State.keeps_watch (Within.refl _) (Keeps.refl u) b
    have hpwr : (State.watch b u).domainOn 55 = false := by
      unfold State.domainOn
      rw [hkeeps.pwr rfl, hu]
      exact h
    obtain ⟨m, h2⟩ := State.settle_unrouted 2400 hpwr
    rw [h1, ← hu, h2]
    exact (hkeeps.web rfl).trans (hu ▸ rfl)

/-- A running device whose web holds a request that waits at a host port for a place among those served. -/
def waitingRequest : State :=
  { State.reset with web := { Web.reset with waiting := [(4, flitOfBytes [])] } }

/-- Refutes O59: in `waitingRequest` an attestation request that joins those in work leaves its place to the request that waits, and the statement
has all of the web but the requests served stay. -/
theorem not_coresAmendmentsAttestation : ¬ Obligations.CoresAmendmentsAttestation := by
  intro h
  obtain ⟨-, -, -, -, -, -, -, -, -, -, -, -, -, -, -, -, -, -, -, hattest, -⟩ := h waitingRequest 0 _ (by decide) (by decide) rfl
  obtain ⟨e, hexec, hframe, -, hweb⟩ := (hattest 0x1020 0 0 (by decide)).2.1 (by decide) (by decide)
  have hnone : ∀ u, exec (.attestReq 0 0x1020 0 0) waitingRequest = .next u → u.web.waiting = [] := by
    intro u hu
    obtain rfl := Host.Outcome.next.inj hu
    decide
  have hwaits : e.web.waiting = [(4, flitOfBytes [])] := by
    rw [hweb]
    show (waitingRequest.begin 0).web.waiting = [(4, flitOfBytes [])]
    decide
  have hdomain : e.domainOn 55 = false := by
    unfold State.domainOn
    rw [hframe.2.2 .pwr (by decide)]
    decide
  have hleft := hnone _ hexec
  rw [State.finish_web hdomain, hwaits] at hleft
  cases hleft

end Sys2Proof.Machine
end

section
/-!
PROOFS. A hub rail is lost while a release has not ended (R99, R305, R381): the safe state that the loss brings ends the release, whose count stands
in a register that the loss keeps.
-/

namespace Sys2Proof.Machine

open Sys2Proof

/-- A hub in reset routes nothing: what follows a command there changes no register. -/
theorem State.finish_hubReset {b e : State} (h : e.pwr.hubReset = true) : (State.finish b e).regs = e.regs := by
  unfold State.finish
  rw [if_pos h]

/-- A device with channel 0 released and on its way to range 5. -/
def releasedRanging : State :=
  { State.reset with
    force := [(0, { Force.reset 0 with st := .ranging, closed := true })]
    flt := { Flt.reset with recovering := [[0]] } }

/-- Refutes O60: in `releasedRanging` the loss of hub rail 0 counts the release in FLT_RECOVER_COUNT, and the statement has every register kept but
FLT_LOST as before. -/
theorem not_suppliesAndGovernor : ¬ Obligations.SuppliesAndGovernor := by
  intro h
  obtain ⟨-, hrun, -⟩ := h releasedRanging 0 (by decide) (by decide)
  obtain ⟨-, -, -, -, hlost, -⟩ := hrun (by decide)
  obtain ⟨e, hexec, -, hhub, -, -, -, -, -, -, -, hkept⟩ := hlost 0 (by decide) (by decide) (by decide) (by decide) (by decide)
  have hcounted : ∀ u, exec (.supplyHub 0 0) releasedRanging = .next u → u.rd .FLT_RECOVER_COUNT = 1 := by
    intro u hu
    obtain rfl := Host.Outcome.next.inj hu
    decide
  have hrd : (State.finish (releasedRanging.begin 0) e).rd .FLT_RECOVER_COUNT = 0 := by
    unfold State.rd
    rw [State.finish_hubReset hhub]
    exact (hkept .FLT_RECOVER_COUNT 0 0 (by decide) (by decide)).trans (by decide)
  have hone := hcounted _ hexec
  rw [hrd] at hone
  cases hone

end Sys2Proof.Machine
end

section
/-!
PROOFS. A capture without escalation (R296 to R299): the record filed, and the item of agent 20 that tells of it, where no test overfill awaits its felt.
-/

namespace Sys2Proof.Machine

open Sys2Proof

/-! ## The item of agent 20 (R299) -/

section Item
variable {s : State} {a f : Nat}

/-- A spilled or stored item leaves every register but the counts of requests that find the stack in self-refresh. -/
theorem State.enqueue_counts (hr : Table.rising s.regs = true) (f prio : Nat) (it : Item) (spill : Bool) :
    Table.SameBut wakeRegs s.regs (s.enqueue f prio it spill).regs := by
  unfold State.enqueue State.memAccept
  cases spill with
  | false => exact .refl _ _
  | true =>
    obtain ⟨r, m, hm, hsame⟩ := State.memArrive_counts hr
    dsimp only
    rw [if_pos rfl, hm]
    exact hsame

/-- A push with no test overfill waiting is taken or finds no credit, and changes the registers as a stored item does. -/
theorem State.push_quiet {p prio : Nat} {it : Item} (hr : Table.rising s.regs = true) (ho : s.que.overFelt ≠ some f) :
    (∃ u, s.push p f prio it = .done u ∧ Table.SameBut wakeRegs s.regs u.regs) ∨ s.push p f prio it = .nocredit := by
  unfold State.push
  rw [if_neg ho]
  dsimp only
  split
  · exact .inl ⟨_, rfl, State.enqueue_counts (s := s.setCredit p f _) hr _ _ _ _⟩
  · split
    · exact .inl ⟨_, rfl, State.enqueue_counts (s := s.setCredit p f _) hr _ _ _ _⟩
    · exact .inr rfl

/-- The registers that an item of agent `a` may change: its count of refused items and those of requests. -/
def itemRegs (a : Nat) : List Nat := [regAddr .QUE_AGENT_DROP_COUNT a 0, regAddr .MEMC_SR_STATS 0 0, regAddr .MEMC_EVENTS 0 0]

/-- An item of an agent whose felt awaits no test overfill is no fault. -/
theorem State.agentWrite_quiet (hr : Table.rising s.regs = true) (ho : s.que.overFelt ≠ some (s.fld f_QUE_AGENT_CTL_felt a)) (kind : Nat) (value : DWord)
    (raw : Word) (rt : RTime) (abs flags : Nat) :
    (s.agentWrite a kind value raw rt abs flags).2 = false ∧ Table.SameBut (itemRegs a) s.regs (s.agentWrite a kind value raw rt abs flags).1.regs := by
  have hlater (l : List Item) :
      Table.SameBut (itemRegs a) s.regs (if s.on f_QUE_AGENT_CTL_nocredit a then s.tally f_QUE_AGENT_DROP_COUNT_count 1 a else s.setBacklog a l).regs := by
    split
    · exact (State.sameBut_tally hr f_QUE_AGENT_DROP_COUNT_count 1 a).mono fun k hk => List.mem_cons.2 (.inl (List.mem_singleton.1 hk))
    · exact .refl _ _
  unfold State.agentWrite
  split
  · exact ⟨rfl, .refl _ _⟩
  · dsimp only
    split
    · exact ⟨rfl, hlater _⟩
    · obtain ⟨u, hu, hsame⟩ | hnone := State.push_quiet (p := 544 + a) (prio := s.fld f_QUE_AGENT_CTL_prio a) (it := mkItem (512 + a) 0 kind (flags ||| if s.holdover then flagHoldover else 0) rt value raw 0xFFFFFFFF abs) hr ho
      · rw [hu]
        exact ⟨rfl, hsame.mono (by simp [itemRegs, wakeRegs])⟩
      · rw [hnone]
        exact ⟨rfl, hlater _⟩

/-- The FAULT item where no test overfill awaits the felt of agent 20. -/
theorem State.faultItem_quiet (hr : Table.rising s.regs = true) (ho : s.que.overFelt ≠ some (s.fld f_QUE_AGENT_CTL_felt 20)) (d : Detect) :
    Keeps 19458 s (s.faultItem d) ∧ Table.SameBut (itemRegs 20) s.regs (s.faultItem d).regs := by
  obtain ⟨hfull, hsame⟩ := State.agentWrite_quiet hr ho 0x14 (f64 d.code 1) (BitVec.ofNat 32 (d.cls + d.master * 2 ^ 16)) d.rt d.abs
    (if d.slot.isSome then flagInjected else 0)
  unfold State.faultItem
  dsimp only
  rw [if_neg (by rw [hfull]; exact Bool.false_ne_true)]
  exact ⟨State.keeps_agentWrite (Within.refl _) (Keeps.refl s) .., hsame⟩

end Item

end Sys2Proof.Machine
end

section
/-!
PROOFS. The record that a capture files (R296 to R298), and a capture without escalation as the record, its item and the reaction.
-/

namespace Sys2Proof.Machine

open Sys2Proof

section Filing
variable {s : State} {d : Detect}

/-- The records that a new record of its class escalates (R303). -/
def State.escalating (s : State) (d : Detect) : List Record :=
  s.records.filter fun r => ! r.flags.acked && decide (r.det.cls = d.cls) && ! s.sameCycle.contains r.seq

/-- The records of the event cycle that concern what a fault concerns (R304). -/
def State.meets (s : State) (d : Detect) (q : Record) : Bool :=
  let rg := concernRange d.cls d.scope
  let qr := concernRange q.reaction q.det.scope
  s.sameCycle.contains q.seq && decide (qr.1 < rg.2 ∧ rg.1 < qr.2)

/-- The record of a fault that escalates nothing. -/
def State.newRecord (s : State) (d : Detect) : Record :=
  { det := d, reaction := d.cls, seq := s.flt.seq + 1, recur := 0, clr := if d.condition then 0 else d.abs, touched := s.now,
    flags := { acked := decide (d.cls = 1) && s.on f_FLT_CTL_ack_a_auto, cleared := ! d.condition, injected := d.slot.isSome,
               escalated := false, recovered := false, held := false, coincident := s.flt.ring.any (s.meets d), condition := d.condition } }

/-- A record that coincides with another one (R304). -/
def Record.coinciding (q : Record) : Record := { q with flags := { q.flags with coincident := true } }

/-- The count of records that were overwritten before their acknowledgement (R297). -/
def State.overwrite (s : State) : State :=
  if s.records.any fun q => decide (q.seq + 64 = s.flt.seq + 1) && ! q.flags.acked then s.tally f_FLT_LOST_overwritten else s

/-- A record joins the ring, and the records it coincides with are marked. -/
def State.joinRing (s : State) (d : Detect) (r : Record) : State :=
  let v := s.overwrite.mapRecords (s.meets d) Record.coinciding
  { v with flt := { v.flt with ring := r :: v.flt.ring, seq := s.flt.seq + 1, capCycle := v.cycle, capSeqs := (s.flt.seq + 1) :: s.sameCycle } }

/-- The state with a fault's record filed and its source asserted. -/
def State.filed (s : State) (d : Detect) : State :=
  ((s.joinRing d (s.newRecord d)).pruneRing.freezeFirst (s.newRecord d)).assertSrc (srcFault (d.cls - 1))

theorem State.mapRecords_none (g : Record → Record) : s.mapRecords (fun _ => false) g = s := by
  unfold State.mapRecords
  simp

/-- A capture that escalates nothing: the record, its item and the reaction. -/
theorem State.captureNew_alone (h : (decide (d.cls ≤ 4) && decide (d.code ≠ 0x010) && ! (s.escalating d).isEmpty) = false) :
    s.captureNew d = ((s.filed d).faultItem d).react d.cls d.scope d.code (s.flt.seq + 1) := by
  have hesc : (decide (d.cls ≤ 4) && decide (d.code ≠ 0x010) &&
      ! (s.records.filter fun r => ! r.flags.acked && decide (r.det.cls = d.cls) && ! s.sameCycle.contains r.seq).isEmpty) = false := h
  unfold State.captureNew
  simp only [hesc, Bool.false_and, State.mapRecords_none, Bool.false_eq_true, if_false]
  rfl

/-- No record of its class waits for its acknowledgement, so that a fault escalates nothing. -/
theorem State.escalating_none (h : ∀ r ∈ s.unacked, r.det.cls ≠ d.cls) : s.escalating d = [] := by
  refine List.filter_eq_nil_iff.2 fun r hr => ?_
  cases hack : r.flags.acked with
  | true => simp
  | false => simp [h r (List.mem_filter.2 ⟨hr, by rw [hack]; rfl⟩)]

/-- No record that waits for its acknowledgement matches a fault of another class or code. -/
theorem State.recurring_none (h : ∀ r ∈ s.unacked, r.det.cls ≠ d.cls ∨ r.det.code ≠ d.code) : s.recurring d = none := by
  refine List.find?_eq_none.2 fun r hr => ?_
  cases hack : r.flags.acked with
  | true => simp
  | false => obtain hc | hc := h r (List.mem_filter.2 ⟨hr, by rw [hack]; rfl⟩) <;> simp [hc]

/-! ## What the filing changes -/

/-- Filing a record changes the ring, the sequence number, the captures of the event cycle and FLT_FIRST. -/
theorem State.filed_flt : ∃ r x y, (s.filed d).flt =
    { s.flt with ring := r, seq := s.flt.seq + 1, capCycle := s.cycle, capSeqs := (s.flt.seq + 1) :: s.sameCycle, first := x, firstFrozen := y } := by
  have hover : s.overwrite.flt = s.flt := by
    unfold State.overwrite
    split <;> rfl
  have hnow : s.overwrite.now = s.now := by
    unfold State.overwrite
    split <;> rfl
  have hjoin : ∃ r, (s.joinRing d (s.newRecord d)).pruneRing.flt =
      { s.flt with ring := r, seq := s.flt.seq + 1, capCycle := s.cycle, capSeqs := (s.flt.seq + 1) :: s.sameCycle } := by
    unfold State.joinRing State.pruneRing State.mapRecords State.cycle
    dsimp only
    rw [hover, hnow]
    exact ⟨_, rfl⟩
  obtain ⟨r, hr⟩ := hjoin
  unfold State.filed State.freezeFirst
  split
  · exact ⟨r, s.flt.first, s.flt.firstFrozen, hr⟩
  · exact ⟨r, some (s.newRecord d), true, by
      show { (s.joinRing d (s.newRecord d)).pruneRing.flt with first := some (s.newRecord d), firstFrozen := true } = _
      rw [hr]⟩

theorem State.filed_keeps : Keeps 131090 s (s.filed d) := by
  have hF : Within 131090 131090 := Within.refl _
  unfold State.filed State.joinRing State.overwrite
  refine State.keeps_assertSrc (hF.sub rfl) (State.keeps_freezeFirst (hF.sub rfl) (State.keeps_pruneRing (hF.sub rfl) ?_) _) _
  refine Keeps.flt' (hF.sub rfl) (State.keeps_mapRecords (hF.sub rfl) ?_ _ _) rfl
  split
  · exact State.keeps_tally (hF.sub rfl) (Keeps.refl s) _ _ _
  · exact Keeps.refl s

theorem State.overwrite_regs (hr : Table.rising s.regs = true) : Table.SameBut [regAddr .FLT_LOST 0 0] s.regs s.overwrite.regs := by
  unfold State.overwrite
  split
  · exact State.sameBut_tally hr f_FLT_LOST_overwritten 1 0
  · exact .refl _ _

theorem State.freezeFirst_regs (r : Record) : (s.freezeFirst r).regs = s.regs := (State.keeps_freezeFirst (Within.refl _) (Keeps.refl s) r).regs rfl

theorem State.freezeFirst_ring (r : Record) : (s.freezeFirst r).flt.ring = s.flt.ring := by
  unfold State.freezeFirst
  split <;> rfl

/-- Filing a record writes FLT_LOST alone of the registers. -/
theorem State.filed_regs (hr : Table.rising s.regs = true) : Table.SameBut [regAddr .FLT_LOST 0 0] s.regs (s.filed d).regs := by
  have hregs : (s.filed d).regs = s.overwrite.regs := State.freezeFirst_regs _
  rw [hregs]
  exact State.overwrite_regs hr

/-- A record that holds one of the newest 64 places with one more taken, or still covers something (R297). -/
def State.stays (s : State) (r : Record) : Bool := decide (s.flt.seq + 1 < r.seq + 64) || s.flt.cover.any fun c => decide (c.2 = r.seq)

/-- The ring with a record filed. -/
theorem State.filed_ring : (s.filed d).flt.ring =
    (s.newRecord d :: s.flt.ring.map fun r => if s.meets d r then r.coinciding else r).filter s.stays := by
  have hover : s.overwrite.flt = s.flt := by
    unfold State.overwrite
    split <;> rfl
  have hring : (s.filed d).flt.ring = (s.joinRing d (s.newRecord d)).pruneRing.flt.ring := State.freezeFirst_ring _
  rw [hring]
  unfold State.joinRing State.pruneRing State.mapRecords
  dsimp only
  rw [hover]
  rfl

/-- The record filed stands first in the ring, with what R296 to R298 say, and the records of the newest places stay. -/
theorem State.filed_recorded : Recorded d s (s.filed d) := by
  have hstays : s.stays (s.newRecord d) = true := by
    unfold State.stays State.newRecord
    rw [decide_eq_true (show s.flt.seq + 1 < s.flt.seq + 1 + 64 by omega)]
    rfl
  have hring : (s.filed d).flt.ring =
      s.newRecord d :: (s.flt.ring.map fun r => if s.meets d r then r.coinciding else r).filter s.stays := by
    rw [State.filed_ring, List.filter_cons_of_pos hstays]
  obtain ⟨r, x, y, hflt⟩ := State.filed_flt (s := s) (d := d)
  refine ⟨congrArg Flt.seq hflt, ⟨s.newRecord d, by rw [hring]; rfl, rfl, rfl, rfl, rfl, rfl, rfl, rfl, rfl, rfl, rfl, rfl, rfl, rfl⟩, fun q hq hnew => ?_,
    ⟨_, List.mem_append_right _ (List.mem_singleton.2 rfl), rfl⟩⟩
  rw [hring]
  have hseq : s.stays (if s.meets d q then q.coinciding else q) = true := by
    unfold State.stays
    rw [decide_eq_true (show s.flt.seq + 1 < (if s.meets d q then q.coinciding else q).seq + 64 by split <;> exact hnew)]
    rfl
  refine ⟨if s.meets d q then q.coinciding else q, List.mem_cons_of_mem _ (List.mem_filter.2 ⟨List.mem_map_of_mem hq, hseq⟩), ?_⟩
  split <;> exact ⟨rfl, rfl, rfl, rfl, rfl, rfl⟩

end Filing

end Sys2Proof.Machine
end

section
/-!
PROOFS. A detection on its way through the collector (R295, R296, R301): captured, recurring, queued or lost.
-/

namespace Sys2Proof.Machine

open Sys2Proof

/-- What a record filed in a state says stays true where the ring stays and sources are added. -/
theorem Recorded.grow {d : Detect} {b e u : State} (h : Recorded d b e) (hseq : u.flt.seq = e.flt.seq) (hring : u.flt.ring = e.flt.ring)
    (hevm : ∃ l, u.evm = { e.evm with asserted := e.evm.asserted ++ l }) : Recorded d b u := by
  obtain ⟨hs, hhead, hkept, a, ha, hsrc⟩ := h
  obtain ⟨l, hl⟩ := hevm
  refine ⟨hseq.trans hs, by rw [hring]; exact hhead, by rw [hring]; exact hkept, a, ?_, hsrc⟩
  rw [hl]
  exact List.mem_append_left _ ha

section Capture
variable {s : State} {d : Detect}

/-- Counting a class-B fault changes the calibration's state alone (R330). -/
theorem State.countBFault_cal (s : State) (d : Detect) : ∃ c, s.countBFault d = { s with cal := c } := by
  unfold State.countBFault
  split
  · split
    · exact ⟨s.cal, rfl⟩
    · dsimp only
      split
      · exact ⟨_, rfl⟩
      · exact ⟨_, rfl⟩
  · exact ⟨s.cal, rfl⟩

/-- Faults of other classes than B do not count towards couching. -/
theorem State.countBFault_other (h : d.cls ≠ 2) : s.countBFault d = s := by
  unfold State.countBFault
  split
  · exact if_pos (.inl h)
  · rfl

/-- The registers that a capture may write: the count of overwritten records, and those of the FAULT item. -/
def captureRegs : List Nat := regAddr .FLT_LOST 0 0 :: itemRegs 20

/-- A record filed with its item: what it says, and what it leaves alone. -/
theorem State.filed_item (hr : Table.rising s.regs = true) (ho : s.que.overFelt ≠ some (s.fld f_QUE_AGENT_CTL_felt 20)) :
    Keeps 150546 s ((s.filed d).faultItem d) ∧ Recorded d s ((s.filed d).faultItem d) ∧
      ((s.filed d).faultItem d).flt = (s.filed d).flt ∧ Table.SameBut captureRegs s.regs ((s.filed d).faultItem d).regs := by
  have hfiled := State.filed_keeps (s := s) (d := d)
  have hrising : Table.rising (s.filed d).regs = true := by
    rw [show (s.filed d).regs = s.overwrite.regs from State.freezeFirst_regs _]
    unfold State.overwrite
    split
    · exact State.rising_tally hr f_FLT_LOST_overwritten 1 0
    · exact hr
  have hover : (s.filed d).que.overFelt ≠ some ((s.filed d).fld f_QUE_AGENT_CTL_felt 20) := by
    rw [hfiled.que rfl, State.fld_sameBut (State.filed_regs hr) (by decide)]
    exact ho
  obtain ⟨hkeeps, hsame⟩ := State.faultItem_quiet hrising hover d
  refine ⟨?_, State.filed_recorded.grow (congrArg Flt.seq (hkeeps.flt rfl)) (congrArg Flt.ring (hkeeps.flt rfl)) ⟨[], ?_⟩, hkeeps.flt rfl, ?_⟩
  · have hF : Within 150546 150546 := Within.refl _
    exact (State.filed_keeps.mono (hF.sub rfl)).trans (hkeeps.mono (hF.sub rfl))
  · rw [List.append_nil]
    exact hkeeps.evm rfl
  · exact ((State.filed_regs hr).mono (by simp [captureRegs])).trans (hsame.mono fun k hk => List.mem_cons_of_mem _ hk)

theorem State.react_minor (h : d.cls < 3) (seq : Nat) : s.react d.cls d.scope d.code seq = s := if_pos h

/-- What a capture that escalates nothing makes of the collector's state: a record more, and FLT_FIRST perhaps. -/
def State.Filed (s e : State) : Prop := ∃ r x y, e.flt =
  { s.flt with ring := r, seq := s.flt.seq + 1, capCycle := s.cycle, capSeqs := (s.flt.seq + 1) :: s.sameCycle, first := x, firstFrozen := y }

/-- A fault that no record matches is captured anew. -/
theorem State.capture_new (h : s.recurring d = none) : s.capture d = (s.countBFault d).captureNew d := by
  obtain ⟨c, hc⟩ := State.countBFault_cal s d
  unfold State.capture
  dsimp only
  rw [hc, show State.recurring { s with cal := c } d = none from h]

/-- A fault that a record matches recurs. -/
theorem State.capture_again {r : Record} (h : s.recurring d = some r) : s.capture d = (s.countBFault d).recur r d := by
  obtain ⟨c, hc⟩ := State.countBFault_cal s d
  unfold State.capture
  dsimp only
  rw [hc, show State.recurring { s with cal := c } d = some r from h]

/-- A fault of class A or B that escalates nothing is recorded. -/
theorem State.capture_minor (hr : Table.rising s.regs = true) (ho : s.que.overFelt ≠ some (s.fld f_QUE_AGENT_CTL_felt 20)) (hcls : d.cls < 3)
    (hun : ∀ r ∈ s.unacked, r.det.cls ≠ d.cls) :
    OnlyChanges [.regs, .evm, .que, .memc, .vat, .flt, .cal] s (s.capture d) ∧ Recorded d s (s.capture d) ∧ s.Filed (s.capture d) ∧
      Table.SameBut captureRegs s.regs (s.capture d).regs := by
  obtain ⟨c, hc⟩ := State.countBFault_cal s d
  obtain ⟨u, hu⟩ : ∃ u : State, u = { s with cal := c } := ⟨_, rfl⟩
  have hun' : ∀ r ∈ u.unacked, r.det.cls ≠ d.cls := by rw [hu]; exact hun
  have hcapture : s.capture d = (u.filed d).faultItem d := by
    rw [State.capture_new (State.recurring_none fun r hr => .inl (hun r hr)), hc, ← hu, State.captureNew_alone (by rw [State.escalating_none hun']; simp), State.react_minor hcls]
  obtain ⟨hkeeps, hrec, hflt, hregs⟩ := State.filed_item (s := u) (d := d) (by rw [hu]; exact hr) (by rw [hu]; exact ho)
  have hfiled := State.filed_flt (s := u) (d := d)
  rw [hcapture]
  rw [hu] at hkeeps hrec hflt hregs hfiled ⊢
  exact ⟨OnlyChanges.then (.cal (.refl ..) (by decide) c) hkeeps (by decide), hrec, by unfold State.Filed; rw [hflt]; exact hfiled, hregs⟩

/-- With nothing waiting the collector does nothing. -/
theorem State.collect_empty (h : s.flt.queue = []) : ∀ k, State.collect k s = s
  | 0 => rfl
  | k + 1 => by
    unfold State.collect
    rw [h]

/-- A detection that can be captured at once is. -/
theorem State.log_captured (hcan : s.canCapture = true) (hq : s.flt.queue = []) (he : (s.capture d).flt.queue = []) : s.log d = s.capture d := by
  unfold State.log
  rw [if_pos ⟨hcan, hq⟩]
  exact State.collect_empty he 4

/-- A fault of class A or B that can be captured at once, and escalates nothing, is recorded. -/
theorem State.log_minor (hr : Table.rising s.regs = true) (ho : s.que.overFelt ≠ some (s.fld f_QUE_AGENT_CTL_felt 20)) (hcls : d.cls < 3)
    (hun : ∀ r ∈ s.unacked, r.det.cls ≠ d.cls) (hcan : s.canCapture = true) (hq : s.flt.queue = []) : s.log d = s.capture d := by
  obtain ⟨-, -, ⟨r, x, y, hflt⟩, -⟩ := State.capture_minor hr ho hcls hun
  refine State.log_captured hcan hq ?_
  rw [hflt]
  exact hq

end Capture

end Sys2Proof.Machine
end

section
/-!
PROOFS. Entry to SAFE (R97, R98, R177, R291): what a channel of a reaction becomes, and which channels a reaction reaches.
-/

namespace Sys2Proof.Machine

open Sys2Proof

/-! ## Keys of a rising table -/

section Keys
variable {α : Type} {d : α} {n lo hi : Nat} (q : α → Bool)

theorem Table.keys_of_above {j : Nat} (hj : hi ≤ j + 1) : ∀ {t : Table α}, Table.above j t = true →
    (t.filter fun e => decide (lo ≤ e.1 ∧ e.1 < hi) && q e.2).map (fun e => e.1) = []
  | [], _ => rfl
  | (i, v) :: t, ha => by
    simp only [Table.above, Bool.and_eq_true, decide_eq_true_eq] at ha
    have hi' : ¬ (lo ≤ i ∧ i < hi) := by omega
    rw [List.filter_cons_of_neg (by simp only [decide_eq_false hi', Bool.false_and, Bool.false_eq_true, not_false_eq_true])]
    exact Table.keys_of_above hj ha.2

/-- The one key of a range of one, where its entry satisfies what the default does not. -/
theorem Table.keys_one (hd : q d = false) : ∀ {t : Table α}, Table.rising t = true → q (Table.get d n t) = true →
    (t.filter fun e => decide (n ≤ e.1 ∧ e.1 < n + 1) && q e.2).map (fun e => e.1) = [n]
  | [], _, h => by rw [show Table.get d n [] = d from rfl, hd] at h; cases h
  | (j, v) :: t, hr, h => by
    simp only [Table.rising, Bool.and_eq_true] at hr
    obtain ⟨habove, hrise⟩ := hr
    rcases Nat.lt_trichotomy n j with hlt | rfl | hgt
    · rw [show Table.get d n ((j, v) :: t) = d by simp [Table.get, Nat.ne_of_lt hlt, hlt], hd] at h
      cases h
    · have hv : q v = true := by simpa [Table.get] using h
      rw [List.filter_cons_of_pos (by simp [hv]), List.map_cons, Table.keys_of_above q (Nat.le_refl _) habove]
    · have hget : Table.get d n ((j, v) :: t) = Table.get d n t := by simp [Table.get, Nat.ne_of_gt hgt, Nat.not_lt.2 (Nat.le_of_lt hgt)]
      have hj : ¬ (n ≤ j ∧ j < n + 1) := by omega
      rw [List.filter_cons_of_neg (by simp only [decide_eq_false hj, Bool.false_and, Bool.false_eq_true, not_false_eq_true])]
      exact Table.keys_one hd hrise (hget ▸ h)

/-- The keys of a range whose entries satisfy a predicate that the default does not. -/
theorem Table.mem_keys {k : Nat} (hd : q d = false) : ∀ {t : Table α}, Table.rising t = true →
    (k ∈ (t.filter fun e => decide (lo ≤ e.1 ∧ e.1 < hi) && q e.2).map (fun e => e.1) ↔ (lo ≤ k ∧ k < hi) ∧ q (Table.get d k t) = true)
  | [], _ => by simp [Table.get, hd]
  | (j, v) :: t, hr => by
    simp only [Table.rising, Bool.and_eq_true] at hr
    obtain ⟨habove, hrise⟩ := hr
    have ih := Table.mem_keys (k := k) hd hrise
    by_cases hk : k = j
    · subst hk
      have hnot : k ∉ (t.filter fun e => decide (lo ≤ e.1 ∧ e.1 < hi) && q e.2).map (fun e => e.1) := fun hm => by
        have hq := (ih.1 hm).2
        rw [Table.get_of_above (Nat.le_refl k) habove, hd] at hq
        cases hq
      rw [List.filter_cons]
      split
      · rename_i hp
        simpa [Table.get] using hp
      · rename_i hp
        simp only [hnot, false_iff]
        simpa [Table.get] using hp
    · have hget : Table.get d k ((j, v) :: t) = Table.get d k t := by
        simp only [Table.get, hk, if_false]
        split
        · rename_i hlt
          exact (Table.get_of_above (Nat.le_of_lt hlt) habove).symm
        · rfl
      rw [hget, ← ih, List.filter_cons]
      split
      · simp [hk]
      · rfl

end Keys

/-! ## One channel -/

section Channel
variable {s : State} {n seq : Nat} {opens : Bool}

/-- A channel that is neither detached nor in SAFE nor being couched enters SAFE by the zero-scale command, and its engine stops (R97, R177). -/
theorem State.enterSafe_attached (hdet : (s.forceOf n).st ≠ .detached) (hsafe : (s.forceOf n).st ≠ .safe) (hcouch : (s.forceOf n).st ≠ .couching) :
    s.enterSafe n opens = (((((s.wr .CH_DECKLE (s.rd .CH_DECKLE_DEFAULT n) n).setForce n
      ((s.forceOf n).zeroScale (s.rd .CH_DECKLE_DEFAULT n) s.now opens)).recovered n).haltEngine n 6).assertSrc (srcChFault n)) := by
  unfold State.enterSafe
  dsimp only
  rw [if_neg hdet, if_neg hsafe, if_neg fun h => hcouch h.1]

/-- An attached channel is in SAFE after its entry, and no other channel is touched. -/
theorem State.enterSafe_force (hdet : (s.forceOf n).st ≠ .detached) :
    ∃ y : Force, y.st = .safe ∧ (s.enterSafe n opens).force = Table.put (Force.reset n) n y s.force := by
  unfold State.enterSafe
  dsimp only
  rw [if_neg hdet]
  split
  · rename_i hsafe
    exact ⟨{ s.forceOf n with openWanted := (s.forceOf n).openWanted || opens }, hsafe, rfl⟩
  · obtain ⟨u, hu⟩ : ∃ u, u = (s.wr .CH_DECKLE (s.rd .CH_DECKLE_DEFAULT n) n).setForce n
      ((s.forceOf n).zeroScale (s.rd .CH_DECKLE_DEFAULT n) s.now opens) := ⟨_, rfl⟩
    have hforce : (((u.recovered n).haltEngine n 6).assertSrc (srcChFault n)).force = u.force :=
      (((State.keeps_haltEngine (Within.refl _) (Keeps.refl (u.recovered n)) n 6).force rfl).trans
        ((State.keeps_recovered (Within.refl _) (Keeps.refl u) n).force rfl))
    refine ⟨(s.forceOf n).zeroScale (s.rd .CH_DECKLE_DEFAULT n) s.now opens, rfl, ?_⟩
    rw [← hu]
    split
    · rw [(State.keeps_abandonCouch (Within.refl _) (Keeps.refl _) (n / 64) false).force rfl, hforce, hu]
      rfl
    · rw [hforce, hu]
      rfl

theorem State.enterSafe_detached (hdet : (s.forceOf n).st = .detached) : s.enterSafe n opens = s := if_pos hdet

/-- What a list of entries to SAFE leaves: attached channels of the list are in SAFE, and every other channel is as it was. -/
theorem State.each_enterSafe (o : Nat → State → Bool) : ∀ (l : List Nat) {s : State}, Table.rising s.force = true →
    Table.rising (s.each l fun n s => s.enterSafe n (o n s)).force = true ∧
    (∀ m, (m ∈ l ∨ (s.forceOf m).st = .safe) → (s.forceOf m).st ≠ .detached → ((s.each l fun n s => s.enterSafe n (o n s)).forceOf m).st = .safe) ∧
      ∀ m, m ∉ l ∨ (s.forceOf m).st = .detached → (s.each l fun n s => s.enterSafe n (o n s)).forceOf m = s.forceOf m
  | [], s, hf => ⟨hf, fun m hm _ => hm.resolve_left (List.not_mem_nil), fun _ _ => rfl⟩
  | n :: l, s, hf => by
    obtain ⟨u, hu⟩ : ∃ u, u = s.enterSafe n (o n s) := ⟨_, rfl⟩
    have heach : (s.each (n :: l) fun n s => s.enterSafe n (o n s)) = u.each l fun n s => s.enterSafe n (o n s) := by rw [hu]; rfl
    rw [heach]
    by_cases hdet : (s.forceOf n).st = .detached
    · rw [hu, State.enterSafe_detached hdet]
      obtain ⟨hrise, hsafe, hsame⟩ := State.each_enterSafe o l hf
      refine ⟨hrise, fun m hm hne => hsafe m ?_ hne, fun m hm => hsame m (hm.imp_left fun h => fun hml => h (List.mem_cons_of_mem _ hml))⟩
      refine hm.imp_left fun h => (List.mem_cons.1 h).resolve_left ?_
      rintro rfl
      exact hne hdet
    · obtain ⟨y, hy, hforce⟩ := State.enterSafe_force (opens := o n s) hdet
      rw [← hu] at hforce
      have hrise : Table.rising u.force = true := by rw [hforce]; exact Table.rising_put hf
      have hself : u.forceOf n = y := by
        unfold State.forceOf
        rw [hforce]
        exact Table.get_put_same hf
      have hother (m : Nat) (hm : m ≠ n) : u.forceOf m = s.forceOf m := by
        unfold State.forceOf
        rw [hforce]
        exact Table.get_put_other hm hf
      obtain ⟨hrise', hsafe, hsame⟩ := State.each_enterSafe o l hrise
      refine ⟨hrise', fun m hm hne => ?_, fun m hm => ?_⟩
      · by_cases hmn : m = n
        · subst hmn
          exact hsafe m (.inr (by rw [hself]; exact hy)) (by rw [hself, hy]; decide)
        · exact hsafe m ((hother m hmn).symm ▸ hm.imp_left fun h => (List.mem_cons.1 h).resolve_left hmn) ((hother m hmn).symm ▸ hne)
      · have hmn : m ≠ n := by
          rintro rfl
          exact hm.elim (fun h => h List.mem_cons_self) hdet
        rw [hsame m ((hother m hmn).symm ▸ hm.imp_left fun h => fun hml => h (List.mem_cons_of_mem _ hml)), hother m hmn]

/-- Attached channels of a range. -/
theorem State.mem_attachedIn {lo hi m : Nat} (hf : Table.rising s.force = true) :
    m ∈ s.attachedIn lo hi ↔ (lo ≤ m ∧ m < hi) ∧ (s.forceOf m).st ≠ .detached := by
  have h := Table.mem_keys (lo := lo) (hi := hi) (k := m) (d := Force.reset m) (fun x : Force => decide (x.st ≠ .detached)) (decide_eq_false fun h => h rfl) hf
  unfold State.attachedIn State.forceOf
  rw [h, decide_eq_true_eq]

/-- The range of one attached channel. -/
theorem State.attachedIn_one (hf : Table.rising s.force = true) (hdet : (s.forceOf n).st ≠ .detached) : s.attachedIn n (n + 1) = [n] :=
  Table.keys_one (d := Force.reset n) (fun x : Force => decide (x.st ≠ .detached)) (decide_eq_false fun h => h rfl) hf (decide_eq_true hdet)

end Channel

end Sys2Proof.Machine
end

section
/-!
PROOFS. A class-C reaction of one channel (R97, R293, R305): the zero-scale command, the coverage, and whether the switch opens.
-/

namespace Sys2Proof.Machine

open Sys2Proof

section Channel
variable {s : State} {n seq code : Nat} {opens : Bool}

/-- A release that is not counted yet ends with its last channel: what this changes. -/
theorem State.recovered_counts (hr : Table.rising s.regs = true) (n : Nat) : ∃ r l, s.recovered n = { s with regs := r, flt := { s.flt with recovering := l } } ∧
    Table.rising r = true ∧ Table.SameBut [regAddr .FLT_RECOVER_COUNT 0 0] s.regs r := by
  unfold State.recovered
  dsimp only
  split
  · exact ⟨s.regs, _, rfl, hr, .refl _ _⟩
  · exact ⟨_, _, rfl, State.rising_tally hr f_FLT_RECOVER_COUNT_count _ 0, State.sameBut_tally hr f_FLT_RECOVER_COUNT_count _ 0⟩

/-- An engine that is halted is in IDLE, and its channel's sticky bit is all that changes besides. -/
theorem State.haltEngine_idle (hr : Table.rising s.regs = true) (n reason : Nat) : ∃ r x, s.haltEngine n reason = ({ s with regs := r }).setEng n x ∧
    x.state = .idle ∧ Table.rising r = true ∧ Table.SameBut [regAddr .CH_SWEEP_EVENTS n 0] s.regs r := by
  unfold State.haltEngine
  dsimp only
  split
  · rename_i hidle
    exact ⟨s.regs, { s.engOf n with resume := (s.engOf n).resume && decide (reason ≠ 6) }, rfl, hidle, hr, .refl _ _⟩
  · exact ⟨_, _, rfl, rfl, State.rising_stick hr f_CH_SWEEP_EVENTS_stopped n, State.sameBut_stick hr f_CH_SWEEP_EVENTS_stopped n⟩

/-- The registers that an entry to SAFE of a channel may write. -/
def safeRegs (n : Nat) : List Nat := [regAddr .CH_DECKLE n 0, regAddr .CH_SWEEP_EVENTS n 0, regAddr .FLT_RECOVER_COUNT 0 0]

/-- The entry to SAFE of a channel that no couching holds. -/
theorem State.enterSafe_shows (hr : Table.rising s.regs = true) (hdet : (s.forceOf n).st ≠ .detached) (hsafe : (s.forceOf n).st ≠ .safe)
    (hcouch : (s.forceOf n).st ≠ .couching) :
    ∃ r l x, s.enterSafe n opens = ((({ s with regs := r, flt := { s.flt with recovering := l } }).setForce n
        ((s.forceOf n).zeroScale (s.rd .CH_DECKLE_DEFAULT n) s.now opens)).setEng n x).assertSrc (srcChFault n) ∧
      x.state = .idle ∧ Table.SameBut (safeRegs n) s.regs r ∧ State.rd { s with regs := r } .CH_DECKLE n = s.rd .CH_DECKLE_DEFAULT n := by
  obtain ⟨d, hd⟩ : ∃ d, d = s.rd .CH_DECKLE_DEFAULT n := ⟨_, rfl⟩
  obtain ⟨u, hu⟩ : ∃ u, u = (s.wr .CH_DECKLE d n).setForce n ((s.forceOf n).zeroScale d s.now opens) := ⟨_, rfl⟩
  have hwr : Table.SameBut [regAddr .CH_DECKLE n 0] s.regs u.regs := hu ▸ .put hr _ _ _
  have hur : Table.rising u.regs = true := hu ▸ State.rising_wr hr .CH_DECKLE d n 0
  have hrd : u.rd .CH_DECKLE n = d := by rw [hu]; exact State.rd_wr_same (s := s) hr .CH_DECKLE d n 0
  obtain ⟨r1, l, hrec, hr1, hsame1⟩ := State.recovered_counts hur n
  obtain ⟨r2, x, hhalt, hidle, -, hsame2⟩ := State.haltEngine_idle (s := { u with regs := r1, flt := { u.flt with recovering := l } }) hr1 n 6
  refine ⟨r2, l, x, ?_, hidle, ?_, ?_⟩
  · rw [State.enterSafe_attached hdet hsafe hcouch, ← hd, ← hu, hrec, hhalt, hu]
    rfl
  · exact (hwr.mono (by simp [safeRegs])).trans ((hsame1.mono (by simp [safeRegs])).trans (hsame2.mono (by simp [safeRegs])))
  · have hne1 : regAddr .CH_DECKLE n 0 ∉ [regAddr .FLT_RECOVER_COUNT 0 0] := by simp [regAddr, regRow, blkBase]; omega
    have hne2 : regAddr .CH_DECKLE n 0 ∉ [regAddr .CH_SWEEP_EVENTS n 0] := by simp [regAddr, regRow]
    exact (hsame2 _ hne2 _).trans ((hsame1 _ hne1 _).trans (hrd.trans hd))

/-- A pair joins the coverage. -/
theorem State.addCover_covers (s : State) (u seq : Nat) : ∃ c, s.addCover u seq = { s with flt := { s.flt with cover := c } } ∧ (u, seq) ∈ c ∧
    ∀ p ∈ c, p = (u, seq) ∨ p ∈ s.flt.cover := by
  unfold State.addCover
  split
  · rename_i h
    exact ⟨s.flt.cover, rfl, List.contains_iff_mem.1 h, fun p hp => .inr hp⟩
  · exact ⟨_, rfl, List.mem_cons_self, fun p hp => List.mem_cons.1 hp⟩

/-- A class-C reaction of one attached channel: it is covered by the record and enters SAFE. -/
theorem State.react_channel (hf : Table.rising s.force = true) (hdet : (s.forceOf n).st ≠ .detached) :
    s.react 3 (.channel n) code seq = (s.addCover n seq).enterSafe n ((s.addCover n seq).safeOpens n 3 code) := by
  have hone : s.attachedIn (reactRange 3 (.channel n)).1 (reactRange 3 (.channel n)).2 = [n] := State.attachedIn_one hf hdet
  unfold State.react
  rw [if_neg (by decide)]
  dsimp only
  rw [hone]
  rfl

/-- Where every record that covers a channel is of class C and of one code, the policy of class C decides whether its switch opens (R293). -/
theorem State.safeOpens_classC (h : ∀ r ∈ s.covering n, r.reaction = 3 ∧ r.det.code = code) : s.safeOpens n 3 code = s.policyOpens 3 code := by
  have htop (l : List Record) (hl : ∀ r ∈ l, r.reaction = 3 ∧ r.det.code = code) : l.foldl (fun m r => max m r.reaction) 3 = 3 := by
    induction l with
    | nil => rfl
    | cons r l ih =>
      rw [List.foldl_cons, (hl r List.mem_cons_self).1]
      exact ih fun q hq => hl q (List.mem_cons_of_mem _ hq)
  unfold State.safeOpens
  dsimp only
  rw [htop _ h]
  cases hp : s.policyOpens 3 code with
  | true => rfl
  | false =>
    refine List.any_eq_false.2 fun r hr => ?_
    obtain ⟨hreact, hcode⟩ := h r hr
    rw [hreact, hcode, hp]
    decide

end Channel

end Sys2Proof.Machine
end

section
/-!
PROOFS. A class-C fault of a channel, captured (R97, R293, R296): the record and the channel in SAFE under its policy.
-/

namespace Sys2Proof.Machine

open Sys2Proof

/-- The registers that a captured class-C fault of channel `n` may write. -/
def reachedRegs (n : Nat) : List Nat :=
  [regAddr .CH_DECKLE n 0, regAddr .CH_SWEEP_EVENTS n 0, regAddr .FLT_LOST 0 0, regAddr .FLT_RECOVER_COUNT 0 0, regAddr .QUE_AGENT_DROP_COUNT 20 0,
    regAddr .MEMC_SR_STATS 0 0, regAddr .MEMC_EVENTS 0 0]

/-- A captured class-C fault of channel `n` that was in `x`. -/
def ReachedSafe (d : Detect) (n : Nat) (x : Force) (b e : State) : Prop :=
  let y := e.forceOf n
  Recorded d b e ∧
    y.st = .safe ∧ y.mode = false ∧ y.present = 0 ∧ y.target = 0 ∧ y.dac = 0 ∧ y.pending = none ∧ y.closed = x.closed ∧
    y.span = x.span ∧ y.range = x.range ∧ y.deckle = b.rd .CH_DECKLE_DEFAULT n ∧ e.rd .CH_DECKLE n = b.rd .CH_DECKLE_DEFAULT n ∧
    Table.SameBut [n] b.force e.force ∧ (e.engOf n).state = .idle ∧ Table.SameBut [n] b.engs e.engs ∧
    (n, b.flt.seq + 1) ∈ e.flt.cover ∧ e.flt.tileSafe = b.flt.tileSafe ∧ e.flt.deviceSafe = b.flt.deviceSafe ∧
    (b.covering n = [] → (∀ q ∈ b.flt.ring, q.seq ≤ b.flt.seq) → y.openWanted = b.on f_FLT_POLICY_c_open) ∧
    Table.SameBut (reachedRegs n) b.regs e.regs

section Channel
variable {s : State} {d : Detect} {n : Nat}

/-- With no record that covered the channel before, the new one alone covers it. -/
theorem State.filed_covering {v : State} (hring : v.flt.ring = (s.filed d).flt.ring) (hcover : ∀ p ∈ v.flt.cover, p = (n, s.flt.seq + 1) ∨ p ∈ s.flt.cover)
    (hnone : s.covering n = []) (hseq : ∀ q ∈ s.flt.ring, q.seq ≤ s.flt.seq) : ∀ r ∈ v.covering n, r = s.newRecord d := by
  intro r hr
  obtain ⟨hmem, hcov⟩ := List.mem_filter.1 hr
  rw [hring, State.filed_ring] at hmem
  obtain rfl | hmap := List.mem_cons.1 (List.mem_filter.1 hmem).1
  · rfl
  · obtain ⟨q, hq, hqr⟩ := List.mem_map.1 hmap
    have hrq : r.seq = q.seq := by
      rw [← hqr]
      split <;> rfl
    have hold (u : Nat) (hu : (u, r.seq) ∈ v.flt.cover) : (u, q.seq) ∈ s.flt.cover := by
      rw [hrq] at hu
      refine (hcover _ hu).resolve_left fun h => ?_
      have hs := (Prod.mk.inj h).2
      have hle := hseq q hq
      omega
    have hin : q ∈ s.covering n := by
      refine List.mem_filter.2 ⟨hq, ?_⟩
      simp only [Bool.or_eq_true, List.contains_iff_mem] at hcov ⊢
      exact hcov.imp (hold _) (hold _)
    rw [hnone] at hin
    cases hin

/-- A class-C fault of an attached channel that escalates nothing is recorded and takes the channel to SAFE. -/
theorem State.capture_channel {x : Force} (hcan : s.canonical)
    (ho : s.que.overFelt ≠ some (s.fld f_QUE_AGENT_CTL_felt 20)) (hcls : d.cls = 3) (hsc : d.scope = .channel n) (hcode : d.code ≠ 0x010)
    (hx : s.forceOf n = x) (hdet : x.st ≠ .detached) (hsafe : x.st ≠ .safe) (hcouch : x.st ≠ .couching) (hun : ∀ r ∈ s.unacked, r.det.cls ≠ 3) :
    OnlyChanges [.regs, .evm, .force, .engs, .que, .memc, .vat, .flt] s (s.capture d) ∧ ReachedSafe d n x s (s.capture d) ∧
      (s.capture d).flt.queue = s.flt.queue := by
  obtain ⟨hkeeps, hrec, hflt, hregs⟩ := State.filed_item (d := d) hcan.fine.regs ho
  obtain ⟨v, hv⟩ : ∃ v, v = (s.filed d).faultItem d := ⟨_, rfl⟩
  obtain ⟨ring, fst, frozen, hfiled⟩ := State.filed_flt (s := s) (d := d)
  rw [← hv] at hkeeps hrec hflt hregs
  have hvflt := hflt.trans hfiled
  obtain ⟨c, hadd, hin, hcover⟩ := State.addCover_covers v n (s.flt.seq + 1)
  obtain ⟨w, hw⟩ : ∃ w : State, w = { v with flt := { v.flt with cover := c } } := ⟨_, rfl⟩
  have hwforce : w.force = s.force := by rw [hw]; exact hkeeps.force rfl
  have hwrise : Table.rising w.force = true := by rw [hwforce]; exact hcan.fine.force
  have hwengs : w.engs = s.engs := by rw [hw]; exact hkeeps.engs rfl
  have hwx : w.forceOf n = x := by unfold State.forceOf; rw [hwforce]; exact hx
  have hvr : Table.rising v.regs = true := (hkeeps.fine hcan).fine.regs
  obtain ⟨r, l, y, hsafed, hidle, hsame, hdeckle⟩ := State.enterSafe_shows (s := w) (n := n) (opens := w.safeOpens n 3 d.code) (by rw [hw]; exact hvr)
    (by rw [hwx]; exact hdet) (by rw [hwx]; exact hsafe) (by rw [hwx]; exact hcouch)
  have hcapture : s.capture d = w.enterSafe n (w.safeOpens n 3 d.code) := by
    have hun' : ∀ r ∈ s.unacked, r.det.cls ≠ d.cls := by rw [hcls]; exact hun
    rw [State.capture_new (State.recurring_none fun r hr => .inl (hun' r hr)), State.countBFault_other (by rw [hcls]; decide),
      State.captureNew_alone (by rw [State.escalating_none hun']; simp), ← hv, hcls, hsc,
      State.react_channel (by rw [hkeeps.force rfl]; exact hcan.fine.force)
        (by unfold State.forceOf; rw [hkeeps.force rfl, show Table.get (Force.reset n) n s.force = x from hx]; exact hdet), hadd, hw]
  have hframe : OnlyChanges [.regs, .evm, .force, .engs, .que, .memc, .vat, .flt] s w := by
    rw [hw]
    exact .flt (OnlyChanges.then (.refl ..) hkeeps (by decide)) (by decide) _
  have hwflt : w.flt = { s.flt with
      ring, cover := c, seq := s.flt.seq + 1, capCycle := s.cycle, capSeqs := (s.flt.seq + 1) :: s.sameCycle, first := fst, firstFrozen := frozen } := by
    rw [hw, hvflt]
  have hwregs : Table.SameBut captureRegs s.regs w.regs := by rw [hw]; exact hregs
  have hdefault : w.rd .CH_DECKLE_DEFAULT n = s.rd .CH_DECKLE_DEFAULT n := hwregs _ (by simp [captureRegs, itemRegs, regAddr, regRow, blkBase]; omega) _
  obtain ⟨z, hz⟩ : ∃ z, z = x.zeroScale (s.rd .CH_DECKLE_DEFAULT n) w.now (w.safeOpens n 3 d.code) := ⟨_, rfl⟩
  obtain ⟨e, hE⟩ : ∃ e, e = w.enterSafe n (w.safeOpens n 3 d.code) := ⟨_, rfl⟩
  rw [hdefault, hwx, ← hz, ← hE] at hsafed
  have heforce : e.force = Table.put (Force.reset n) n z w.force := by rw [hsafed]; rfl
  have heengs : e.engs = Table.put Eng.reset n y w.engs := by rw [hsafed]; rfl
  have heflt : e.flt = { w.flt with recovering := l } := by rw [hsafed]; rfl
  have heevm : e.evm = { v.evm with asserted := v.evm.asserted ++ [⟨srcChFault n, 0, none, 0⟩] } := by rw [hsafed, hw]; rfl
  have heregs : e.regs = r := by rw [hsafed]; rfl
  have hforce : e.forceOf n = z := by
    unfold State.forceOf
    rw [heforce]
    exact Table.get_put_same hwrise
  rw [hcapture, ← hE]
  refine ⟨?_, ?_, by rw [heflt, hwflt]⟩
  · rw [hsafed]
    exact ((((hframe.regs (by decide) r).flt (by decide) _).force (by decide) _).engs (by decide) _).evm (by decide) _
  · unfold ReachedSafe
    rw [hforce, hz]
    refine ⟨?_, rfl, rfl, rfl, rfl, rfl, rfl, rfl, rfl, rfl, rfl, ?_, ?_, ?_, ?_, ?_, ?_, ?_, ?_, ?_⟩
    · exact hrec.grow (by rw [heflt, hw]) (by rw [heflt, hw]) ⟨_, heevm⟩
    · refine Eq.trans ?_ (hdeckle.trans hdefault)
      unfold State.rd
      rw [heregs]
    · rw [heforce, hwforce]
      exact .put hcan.fine.force _ _ _
    · unfold State.engOf
      rw [heengs, hwengs, Table.get_put_same hcan.fine.engs]
      exact hidle
    · rw [heengs, hwengs]
      exact .put hcan.fine.engs _ _ _
    · rw [heflt, hwflt]
      exact hin
    · rw [heflt, hwflt]
    · rw [heflt, hwflt]
    · intro hnone hseq
      have hold := State.filed_covering (v := w) (d := d) (by rw [hwflt, hfiled])
        (fun p hp => by rw [hw] at hp; exact (hcover p hp).imp_right fun h => by rw [hvflt] at h; exact h) hnone hseq
      show w.safeOpens n 3 d.code = _
      rw [State.safeOpens_classC fun r hr => by rw [hold r hr]; exact ⟨hcls, rfl⟩]
      unfold State.policyOpens
      rw [if_neg hcode]
      exact State.on_sameBut hwregs (by decide)
    · rw [heregs]
      exact (hwregs.mono (by simp [captureRegs, itemRegs, reachedRegs])).trans (hsame.mono (by simp [safeRegs, reachedRegs]))

end Channel

end Sys2Proof.Machine
end

section
/-!
PROOFS. A class-E reaction (R291, R293): every tile in its safe state, and every attached channel in SAFE.
-/

namespace Sys2Proof.Machine

open Sys2Proof

section React
variable {s : State}

/-- An entry to SAFE changes of the collector's state the releases that are not counted yet. -/
theorem State.enterSafe_flt (n : Nat) (opens : Bool) : ∃ l, (s.enterSafe n opens).flt = { s.flt with recovering := l } := by
  unfold State.enterSafe
  dsimp only
  split
  · exact ⟨_, rfl⟩
  · split
    · exact ⟨_, rfl⟩
    · obtain ⟨u, hu⟩ : ∃ u, u = (s.wr .CH_DECKLE (s.rd .CH_DECKLE_DEFAULT n) n).setForce n
        ((s.forceOf n).zeroScale (s.rd .CH_DECKLE_DEFAULT n) s.now opens) := ⟨_, rfl⟩
      rw [← hu]
      have hflt : (((u.recovered n).haltEngine n 6).assertSrc (srcChFault n)).flt = (u.recovered n).flt :=
        (State.keeps_haltEngine (Within.refl _) (Keeps.refl (u.recovered n)) n 6).flt rfl
      have hrec : ∃ l, (u.recovered n).flt = { u.flt with recovering := l } := by
        unfold State.recovered
        dsimp only
        split <;> exact ⟨_, rfl⟩
      obtain ⟨l, hl⟩ := hrec
      refine ⟨l, ?_⟩
      rw [hu] at hl
      split
      · rw [(State.keeps_abandonCouch (Within.refl _) (Keeps.refl _) (n / 64) false).flt rfl, hflt, hu, hl]
        rfl
      · rw [hflt, hu, hl]
        rfl

theorem State.each_enterSafe_flt (o : Nat → State → Bool) : ∀ (l : List Nat) {s : State},
    ∃ k, (s.each l fun n s => s.enterSafe n (o n s)).flt = { s.flt with recovering := k }
  | [], _ => ⟨_, rfl⟩
  | n :: l, s => by
    obtain ⟨k, hk⟩ := State.enterSafe_flt (s := s) n (o n s)
    obtain ⟨m, hm⟩ := State.each_enterSafe_flt o l (s := s.enterSafe n (o n s))
    refine ⟨m, ?_⟩
    rw [hk] at hm
    exact hm

/-- The tiles of a reaction are in their safe state, and those that were stay in it. -/
theorem State.each_tileSafe (seq : Nat) : ∀ (l : List Nat) {s : State},
    ∃ c b, (s.each l fun t s => (s.addCover (512 + t) seq).enterTileSafe t).flt = { s.flt with cover := c, tileSafe := b } ∧
      ∀ k, k ∈ l ∨ s.flt.tileSafe.testBit k = true → b.testBit k = true
  | [], s => ⟨s.flt.cover, s.flt.tileSafe, rfl, fun k hk => hk.resolve_left (List.not_mem_nil)⟩
  | t :: l, s => by
    obtain ⟨c, hadd, -, -⟩ := State.addCover_covers s (512 + t) seq
    obtain ⟨u, hu⟩ : ∃ u, u = (s.addCover (512 + t) seq).enterTileSafe t := ⟨_, rfl⟩
    have hflt : ∃ b, u.flt = { s.flt with cover := c, tileSafe := b } ∧ b.testBit t = true ∧ ∀ k, s.flt.tileSafe.testBit k = true → b.testBit k = true := by
      rw [hu, hadd]
      unfold State.enterTileSafe
      split
      · rename_i h
        exact ⟨s.flt.tileSafe, rfl, h, fun k hk => hk⟩
      · refine ⟨_, rfl, ?_, fun k hk => ?_⟩
        · exact testBit_setBitN_same _ _
        · by_cases hkt : k = t
          · rw [hkt]
            exact testBit_setBitN_same _ _
          · exact (testBit_setBitN_other hkt).trans hk
    obtain ⟨b, hb, hself, hkept⟩ := hflt
    obtain ⟨c', b', hb', hall⟩ := State.each_tileSafe seq l (s := u)
    refine ⟨c', b', ?_, fun k hk => hall k ?_⟩
    · rw [hb] at hb'
      rw [hu] at hb'
      exact hb'
    · rw [hb]
      obtain hk | hk := hk
      · obtain rfl | hk := List.mem_cons.1 hk
        · exact .inr hself
        · exact .inl hk
      · exact .inr (hkept k hk)

/-- A class-E reaction: the device and every tile are in their safe state, attached channels are in SAFE, and detached ones stay as they are. -/
theorem State.react_device (hf : Table.rising s.force = true) (code seq : Nat) :
    (∃ c b l, (s.react 5 .device code seq).flt = { s.flt with cover := c, tileSafe := b, deviceSafe := true, recovering := l } ∧
      ∀ k, k < 8 → b.testBit k = true) ∧
    (∀ n, n < 512 → (s.forceOf n).st ≠ .detached → ((s.react 5 .device code seq).forceOf n).st = .safe) ∧
      ∀ n, (s.forceOf n).st = .detached → (s.react 5 .device code seq).forceOf n = s.forceOf n := by
  obtain ⟨v, hv⟩ : ∃ v, v = s.each (List.range 8) fun t s => (s.addCover (512 + t) seq).enterTileSafe t := ⟨_, rfl⟩
  have hvforce : v.force = s.force := by
    rw [hv]
    exact (State.keeps_each (Keeps.refl s) _ _ fun t u hu => State.keeps_enterTileSafe (F := 131088) (Within.refl _)
      (State.keeps_addCover ((Within.refl _ : Within 131088 131088).sub rfl) hu _ _) t).force rfl
  obtain ⟨c, b, hvflt, hbits⟩ := State.each_tileSafe seq (List.range 8) (s := s)
  rw [← hv] at hvflt
  obtain ⟨w, hw⟩ : ∃ w : State, w = { v with flt := { v.flt with deviceSafe := true } } := ⟨_, rfl⟩
  have hreact : s.react 5 .device code seq = w.each (s.attachedIn 0 512) fun n s => s.enterSafe n (s.safeOpens n 5 code) := by
    rw [hw, hv]
    rfl
  have hwforce : w.force = s.force := by rw [hw]; exact hvforce
  have hof (n : Nat) : w.forceOf n = s.forceOf n := by unfold State.forceOf; rw [hwforce]
  obtain ⟨-, hsafe, hsame⟩ := State.each_enterSafe (fun n s => s.safeOpens n 5 code) (s.attachedIn 0 512) (s := w) (by rw [hwforce]; exact hf)
  obtain ⟨l, hl⟩ := State.each_enterSafe_flt (fun n s => s.safeOpens n 5 code) (s.attachedIn 0 512) (s := w)
  rw [hreact]
  refine ⟨⟨c, b, l, ?_, fun k hk => hbits k (.inl (List.mem_range.2 hk))⟩, fun n hn hdet => ?_, fun n hdet => ?_⟩
  · rw [hl, hw]
    dsimp only
    rw [hvflt]
  · exact hsafe n (.inl ((State.mem_attachedIn hf).2 ⟨⟨Nat.zero_le n, hn⟩, hdet⟩)) (by rw [hof]; exact hdet)
  · rw [hsame n (.inr (by rw [hof]; exact hdet)), hof]

end React

end Sys2Proof.Machine
end

section
/-!
PROOFS. Conditions that end (R95, R300, R380): the records of a cause are cleared, and what follows from it is undone.
-/

namespace Sys2Proof.Machine

open Sys2Proof

/-! ## Clearing a bit -/

theorem setBitN_false (x i : Nat) : setBitN x i false = 2 ^ i * (2 * (x / 2 ^ i / 2)) + x % 2 ^ i := by
  have hx : 2 ^ i * (x / 2 ^ i) + x % 2 ^ i = x := Nat.div_add_mod x (2 ^ i)
  have hbit : x / 2 ^ i = 2 * (x / 2 ^ i / 2) + (x.testBit i).toNat := by
    rw [Nat.toNat_testBit]
    omega
  have hand : x &&& 2 ^ i = (x.testBit i).toNat * 2 ^ i := Nat.and_two_pow x i
  unfold setBitN
  rw [if_neg Bool.false_ne_true, hand]
  generalize hq : x / 2 ^ i / 2 = q at hbit ⊢
  rw [hbit, Nat.mul_add] at hx
  rw [Nat.mul_comm (x.testBit i).toNat]
  omega

theorem testBit_clearBit_same (x i : Nat) : (setBitN x i false).testBit i = false := by
  rw [setBitN_false, Nat.testBit_two_pow_mul_add _ (Nat.mod_lt _ (Nat.two_pow_pos i)), if_neg (Nat.lt_irrefl i), Nat.sub_self, Nat.testBit_zero]
  simp

theorem testBit_clearBit_other {x i j : Nat} (h : j ≠ i) : (setBitN x i false).testBit j = x.testBit j := by
  rw [setBitN_false, Nat.testBit_two_pow_mul_add _ (Nat.mod_lt _ (Nat.two_pow_pos i))]
  conv_rhs => rw [← Nat.div_add_mod x (2 ^ i), Nat.testBit_two_pow_mul_add _ (Nat.mod_lt _ (Nat.two_pow_pos i))]
  split
  · rfl
  · obtain ⟨k, hk⟩ : ∃ k, j - i = k + 1 := ⟨j - i - 1, by omega⟩
    rw [hk, Nat.testBit_add_one, Nat.testBit_add_one, Nat.mul_div_cancel_left _ (show 0 < 2 by decide)]

/-! ## The records of a cause -/

section Causes
variable {s e : State} {code : Nat} {sc : Scope}

/-- Where the collector's state is that of a cleared condition, the condition ends. -/
theorem ConditionEnds.of_flt (h : e.flt = (s.clearCondition code sc none).flt) : ConditionEnds code sc s e := by
  unfold ConditionEnds
  rw [h]
  unfold State.clearCondition State.mapRecords
  refine ⟨rfl, List.length_map _, fun k r hr => ?_⟩
  dsimp only
  rw [List.getElem?_map, hr, Option.map_some]
  congr 1
  simp only [Bool.and_eq_true, Bool.not_eq_true', decide_eq_true_eq, and_assoc]

theorem OnlyChanges.clearCondition {l : List Part} {b : State} (h : OnlyChanges l b s) (hl : .flt ∈ l) (code : Nat) (sc : Scope) (slot : Option Nat) :
    OnlyChanges l b (s.clearCondition code sc slot) := h.flt hl _

/-- One port looks for its peer where it is enabled, powered and DISABLED. -/
theorem State.portStart_state (hrails : s.webRails = true) (hports : Table.rising s.web.ports = true) (q p : Nat) :
    Table.rising (s.portStart q).web.ports = true ∧ ((s.portStart q).portOf p).st =
      if p = q ∧ (s.portOf p).st = .disabled ∧ s.domainOn (40 + p) = true ∧ s.on f_WEB_PORT_CTL_enable p = true then .detect else (s.portOf p).st := by
  by_cases hstart : s.domainOn (40 + q) = true ∧ s.on f_WEB_PORT_CTL_enable q = true ∧ (s.portOf q).st = .disabled
  · obtain ⟨hdom, hon, hst⟩ := hstart
    rw [State.portStart_starts hdom hrails hon hst]
    refine ⟨State.rising_setPort hports, ?_⟩
    by_cases hpq : p = q
    · subst hpq
      rw [State.setPort_portOf hports, if_pos ⟨rfl, hst, hdom, hon⟩]
    · rw [if_neg fun h => hpq h.1]
      rw [State.portOf_setPort_other hpq hports]
  · have hsame : s.portStart q = s := if_neg fun h => hstart ⟨h.1, h.2.2.1, h.2.2.2⟩
    rw [hsame]
    refine ⟨hports, (if_neg ?_).symm⟩
    rintro ⟨rfl, hst, hdom, hon⟩
    exact hstart ⟨hdom, hon, hst⟩

/-- Ports that look for their peer once the web rails are back (R380). -/
theorem State.each_portStart (p : Nat) : ∀ (l : List Nat) {s : State} (_ : s.webRails = true) (_ : Table.rising s.web.ports = true),
    ((s.each l fun p s => s.portStart p).portOf p).st =
      if p ∈ l ∧ (s.portOf p).st = .disabled ∧ s.domainOn (40 + p) = true ∧ s.on f_WEB_PORT_CTL_enable p = true then .detect else (s.portOf p).st
  | [], _, _, _ => by simp [State.each]
  | q :: l, s, hrails, hports => by
    obtain ⟨v, hv⟩ : ∃ v, v = s.portStart q := ⟨_, rfl⟩
    have hkeeps : Keeps 32768 s v := hv ▸ State.keeps_portStart (Within.refl _) (Keeps.refl s) q
    have hdom : v.domainOn (40 + p) = s.domainOn (40 + p) := by unfold State.domainOn; rw [hkeeps.pwr rfl]
    have hon : v.on f_WEB_PORT_CTL_enable p = s.on f_WEB_PORT_CTL_enable p := by
      unfold State.on State.fld State.rd
      rw [hkeeps.regs rfl]
    have hup : v.webRails = true := by unfold State.webRails at hrails ⊢; rw [hkeeps.pwr rfl]; exact hrails
    obtain ⟨hrise, hst⟩ := State.portStart_state hrails hports q p
    rw [← hv] at hrise hst
    have ih := State.each_portStart p l hup hrise
    rw [hdom, hon, hst] at ih
    rw [show (s.each (q :: l) fun p s => s.portStart p) = v.each l fun p s => s.portStart p by rw [hv]; rfl]
    rw [ih]
    by_cases hpq : p = q <;> by_cases hgo : (s.portOf p).st = .disabled ∧ s.domainOn (40 + p) = true ∧ s.on f_WEB_PORT_CTL_enable p = true
    · simp [hpq ▸ hgo, hpq]
    · simp [hpq, hpq ▸ hgo]
    · simp [hpq, hgo]
    · simp [hpq, hgo]

end Causes

end Sys2Proof.Machine
end

section
/-!
PROOFS. Faults that recur, that wait, or that are lost (R295, R301), and SAFE_N recognised low (R307).
-/

namespace Sys2Proof.Machine

open Sys2Proof

section Repeats
variable {s : State} {d : Detect} {r : Record}

/-- A record with one recurrence more (R301). -/
def Record.again (now abs : Nat) (q : Record) : Record :=
  { q with recur := satAdd 0xFFFF q.recur 1, flags := { q.flags with cleared := ! q.flags.condition }, clr := if q.flags.condition then 0 else abs, touched := now }

/-- The recurrence of a record of class A or B counts in it, and asserts its source. -/
theorem State.recur_minor (h : r.reaction ≤ 2) :
    s.recur r d = (s.mapRecords (fun q => decide (q.seq = r.seq)) (Record.again s.now d.abs)).assertSrc (srcFault (r.reaction - 1)) :=
  if_pos (show r.reaction < 3 by omega)

/-- A recurrence of class A or B, captured at once. -/
theorem State.log_recurs (hcan : s.canCapture = true) (hq : s.flt.queue = []) (hr : s.recurring d = some r) (h : r.reaction ≤ 2) :
    OnlyChanges [.evm, .flt, .cal] s (s.log d) ∧ (s.log d).flt.seq = s.flt.seq ∧
      (s.log d).flt.ring.map (fun q => (q.seq, q.det)) = s.flt.ring.map (fun q => (q.seq, q.det)) ∧
      ∃ q ∈ (s.log d).flt.ring, q.seq = r.seq ∧ q.det = r.det ∧ q.recur = min 0xFFFF (r.recur + 1) ∧ q.touched = s.now := by
  obtain ⟨c, hc⟩ := State.countBFault_cal s d
  have hcapture : s.capture d =
      (State.mapRecords { s with cal := c } (fun q => decide (q.seq = r.seq)) (Record.again s.now d.abs)).assertSrc (srcFault (r.reaction - 1)) := by
    rw [State.capture_again hr, hc, State.recur_minor h]
  have hlog : s.log d = s.capture d := State.log_captured hcan hq (by rw [hcapture]; exact hq)
  rw [hlog, hcapture]
  refine ⟨((OnlyChanges.cal (.refl ..) (by decide) c).flt (by decide) _).evm (by decide) _, rfl, ?_, ?_⟩
  · show List.map _ (List.map _ _) = _
    rw [List.map_map]
    refine List.map_congr_left fun q _ => ?_
    show _ = (q.seq, q.det)
    dsimp only [Function.comp]
    split <;> rfl
  · have hin : r ∈ s.flt.ring := (List.mem_filter.1 (List.mem_of_find?_eq_some hr)).1
    refine ⟨r.again s.now d.abs, ?_, rfl, rfl, rfl, rfl⟩
    refine List.mem_map.2 ⟨r, hin, if_pos (decide_eq_true rfl)⟩

/-- With the captures of the event cycle used up the collector does nothing. -/
theorem State.collect_full (h : s.canCapture = false) (k : Nat) : State.collect k s = s := by
  cases k with
  | zero => rfl
  | succ k =>
    unfold State.collect
    split
    · rfl
    · rw [h]
      rfl

/-- A fault of class A or B with the captures used up waits, or is lost. -/
theorem State.log_full (hcan : s.canCapture = false) (hcls : d.cls < 3) : s.log d = s.queueDetect d := by
  have hsame : (s.queueDetect d).canCapture = s.canCapture := by
    unfold State.queueDetect
    split <;> rfl
  unfold State.log
  rw [if_neg fun h => by rw [hcan] at h; cases h.1]
  dsimp only
  rw [State.react_minor hcls, State.collect_full (hsame.trans hcan)]

end Repeats

section SafeN
variable {s : State} {m : Nat}

/-- The state in which SAFE_N has just been recognised low. -/
def State.safeSeen (s : State) : State :=
  State.assertSrc { s.freeWord.2 with flt := { s.freeWord.2.flt with safeN := true } } (srcFault 8)

theorem State.safeLow_seen (h : s.flt.safeN = false) : s.safeLow = s.safeSeen.fault 0x010 5 .device (issuedMaster (s.freeWord.1.toNat % 0x102A)) := by
  unfold State.safeLow
  rw [if_neg (by rw [h]; exact Bool.false_ne_true)]
  rfl

/-- What SAFE_N low brings: the device's, the tiles' and the channels' safe states, a record of class E, and its two sources. -/
theorem State.safeSeen_safes (hcan : s.canonical) (hcap : s.canCapture = true) (hq : s.flt.queue = [])
    (ho : s.que.overFelt ≠ some (s.fld f_QUE_AGENT_CTL_felt 20)) (hun : ∀ r ∈ s.unacked, r.det.code ≠ 0x010) :
    let e := s.safeSeen.fault 0x010 5 .device m
    OnlyChanges [.regs, .evm, .force, .engs, .que, .memc, .vat, .flt, .cal, .free] s e ∧
      e.flt.safeN = true ∧ e.flt.deviceSafe = true ∧ (∀ k, k < 8 → e.flt.tileSafe.testBit k = true) ∧
      (∀ n, n < 512 → (s.forceOf n).st ≠ .detached → (e.forceOf n).st = .safe) ∧
      (∀ n, (s.forceOf n).st = .detached → e.forceOf n = s.forceOf n) ∧ Recorded (s.safeSeen.detect 0x010 5 .device m) s e ∧
      ∃ y ∈ e.evm.asserted, y.src = srcFault 8 := by
  intro e
  obtain ⟨u, hu⟩ : ∃ u, u = s.safeSeen := ⟨_, rfl⟩
  obtain ⟨d, hd⟩ : ∃ d, d = u.detect 0x010 5 .device m := ⟨_, rfl⟩
  have hucan : u.canonical := hu ▸ hcan
  have hun' : ∀ r ∈ u.unacked, r.det.cls ≠ d.cls ∨ r.det.code ≠ d.code := fun r hr => .inr (by rw [hu] at hr; rw [hd]; exact hun r hr)
  obtain ⟨hkeeps, hrec, hflt, -⟩ := State.filed_item (s := u) (d := d) hucan.fine.regs (by rw [hu]; exact ho)
  obtain ⟨ring, fst, frozen, hfiled⟩ := State.filed_flt (s := u) (d := d)
  obtain ⟨v, hv⟩ : ∃ v, v = (u.filed d).faultItem d := ⟨_, rfl⟩
  rw [← hv] at hkeeps hrec hflt
  obtain ⟨⟨c, b, l, hreact, hbits⟩, hsafe, hsame⟩ := State.react_device (s := v) (by rw [hkeeps.force rfl]; exact hucan.fine.force) 0x010 (u.flt.seq + 1)
  have hcapture : u.capture d = v.react 5 .device 0x010 (u.flt.seq + 1) := by
    rw [State.capture_new (State.recurring_none hun'), State.countBFault_other (by rw [hd]; exact show 5 ≠ 2 by decide), State.captureNew_alone (by rw [hd]; rfl), ← hv, hd]
    rfl
  have heflt := hreact.trans (by rw [hflt, hfiled])
  have he : e = v.react 5 .device 0x010 (u.flt.seq + 1) := by
    show s.safeSeen.log (s.safeSeen.detect 0x010 5 .device m) = _
    rw [← hu, ← hd, State.log_captured (by rw [hu]; exact hcap) (by rw [hu]; exact hq) (by rw [hcapture, heflt, hu]; exact hq), hcapture]
  have hof (n : Nat) : v.forceOf n = s.forceOf n := by
    unfold State.forceOf
    rw [hkeeps.force rfl, hu]
    rfl
  have hlog : e = u.log d := by
    show s.safeSeen.log (s.safeSeen.detect 0x010 5 .device m) = _
    rw [hd, hu]
  obtain ⟨k, hevm⟩ := ((Logs.refl v).react 5 .device 0x010 (u.flt.seq + 1)).evm
  rw [he] at hlog ⊢
  refine ⟨?_, ?_, ?_, fun k hk => ?_, fun n hn hdet => hsafe n hn (by rw [hof]; exact hdet), fun n hdet => (hsame n (by rw [hof]; exact hdet)).trans (hof n), ?_, ?_⟩
  · rw [hlog]
    refine OnlyChanges.then ?_ (State.keeps_log (Within.refl _) (Keeps.refl u) d) (by decide)
    rw [hu]
    exact (((OnlyChanges.refl ..).free (by decide) _).flt (by decide) _).evm (by decide) _
  · rw [heflt, hu]
    rfl
  · rw [heflt]
  · rw [heflt]
    exact hbits k hk
  · rw [← hu, ← hd]
    have hrec' : Recorded d s v := by rw [hu] at hrec; exact hrec
    exact hrec'.grow (by rw [hreact]) (by rw [hreact]) ⟨k, hevm⟩
  · obtain ⟨k', hevm'⟩ := ((Logs.refl u).log d).evm
    rw [hlog, hevm']
    refine ⟨⟨srcFault 8, 0, none, 0⟩, List.mem_append_left _ ?_, rfl⟩
    rw [hu]
    exact List.mem_append_right _ (List.mem_singleton.2 rfl)

end SafeN

end Sys2Proof.Machine
end

section
/-!
PROOFS. The commands of the fault collector (R293 to R301, R307, R380).
-/

namespace Sys2Proof.Machine

open Sys2Proof

section Commands
variable {s b : State} {t code : Nat} {sc : Scope} {d : Detect} {c : Instr}

/-- A command that the fault collector carries out with what it logs. -/
theorem Completes.logged (hb : s.begin t = b) (hexec : exec c s = .next (State.finish b (b.log d))) {l : List Part} {P : State → State → Prop}
    (hframe : OnlyChanges l b (b.log d)) (hP : P b (b.log d)) : Completes c t s l P := by
  subst hb
  exact ⟨_, hexec, hframe, hP⟩

theorem State.exec_actOn {ok : Bool} {body : State → State} {e : State} (hb : s.begin t = b) (hpor : s.pwr.porHeld = false)
    (hexec : exec c s = outIf ok (s.actOn t body)) (hok : ok = true) (he : body b = e) : exec c s = .next (State.finish b e) := by
  subst hb he
  rw [hexec, hok]
  simp [outIf, State.actOn, State.go, hpor]

/-- A condition of which nothing but its records is undone ends. -/
theorem State.causeEnds_records (h : code ∉ [0x100, 0xB02, 0xB03]) : b.causeEnds code sc = b.clearCondition code sc none := by
  simp only [List.mem_cons, List.not_mem_nil, or_false, not_or] at h
  obtain ⟨h1, h2, h3⟩ := h
  unfold State.causeEnds
  split
  · exact absurd rfl h1
  · exact absurd rfl h2
  · exact absurd rfl h3
  · rfl

theorem State.causeGone_unsensed (h : code ∉ [0x010, 0x706, 0x800, 0xB01]) : b.causeGone code sc = true := by
  simp only [List.mem_cons, List.not_mem_nil, or_false, not_or] at h
  obtain ⟨h1, h2, h3, h4⟩ := h
  unfold State.causeGone
  split
  · exact absurd rfl h1
  · exact absurd rfl h2
  · exact absurd rfl h3
  · exact absurd rfl h4
  · rfl

/-- A condition whose cause is gone ends. -/
theorem Completes.conditionEnds (hb : s.begin t = b) (hpor : s.pwr.porHeld = false) (hcode : isCode code = true) (hsc : isScope sc = true)
    (hgone : b.causeGone code sc = true) (hrec : code ∉ [0x100, 0xB02, 0xB03]) :
    Completes (.conditionClear t code sc) t s [.flt] fun b e => ConditionEnds code sc b e := by
  refine .runsOn hb hpor rfl (by rw [hcode, hsc]; rfl) (if_pos hgone) ?_ ?_
  · rw [State.causeEnds_records hrec]
    exact .clearCondition (.refl ..) (by decide) _ _ _
  · rw [State.causeEnds_records hrec]
    exact .of_flt rfl

/-- A condition whose cause is still there stays. -/
theorem Completes.conditionStays (hb : s.begin t = b) (hpor : s.pwr.porHeld = false) (hcode : isCode code = true) (hsc : isScope sc = true)
    (hgone : b.causeGone code sc = false) : Completes (.conditionClear t code sc) t s [] fun _ _ => True :=
  .runsOn hb hpor rfl (by rw [hcode, hsc]; rfl) (if_neg (by rw [hgone]; exact Bool.false_ne_true)) (.refl ..) trivial

end Commands

/-- Before the tiles are started a rail that is back is noted, and nothing is switched. -/
theorem State.tileRailBack_early {s : State} (h : s.dev.phase < 5) (k : Nat) : ∃ x : Pwr,
    s.tileRailBack k = { s with pwr := { s.pwr with tileLost := x.tileLost, offDue := x.offDue } } ∧ x.tileLost.testBit k = false ∧ ∀ j, j ≠ k → x.tileLost.testBit j = s.pwr.tileLost.testBit j := by
  unfold State.tileRailBack
  split
  · rename_i hlost
    exact ⟨s.pwr, rfl, by simpa using hlost, fun _ _ => rfl⟩
  · dsimp only
    rw [if_pos (.inl h)]
    exact ⟨{ s.pwr with tileLost := setBitN s.pwr.tileLost k false, offDue := Table.erase k s.pwr.offDue }, rfl, testBit_clearBit_same _ _,
      fun j hj => testBit_clearBit_other hj⟩

/-- A fault that the command posts is logged: what the collector makes of it, by its class, the captures left and the record it meets. -/
theorem State.log_cases {s b : State} {t cls : Nat} {sc : Scope} {d : Detect} {c : Instr} (hb : s.begin t = b) (hcan : b.canonical)
    (hexec : exec c s = .next (State.finish b (b.log d))) (hdc : d.cls = cls) (hds : d.scope = sc) (hcode : cls = 3 → d.code ≠ 0x010) :
    (b.canCapture = true → b.flt.queue = [] → b.que.overFelt ≠ some (b.fld f_QUE_AGENT_CTL_felt 20) →
      (cls ≤ 2 → (∀ r ∈ b.unacked, r.det.cls ≠ cls) →
        Completes c t s [.regs, .evm, .que, .memc, .vat, .flt, .cal] fun b e =>
          Recorded d b e ∧ e.flt.cover = b.flt.cover ∧ e.flt.queue = [] ∧ Table.SameBut captureRegs b.regs e.regs) ∧
      (∀ n x, sc = .channel n → cls = 3 → b.forceOf n = x → x.st ≠ .detached → x.st ≠ .safe → x.st ≠ .couching →
        (∀ r ∈ b.unacked, r.det.cls ≠ 3) →
        Completes c t s [.regs, .evm, .force, .engs, .que, .memc, .vat, .flt] (ReachedSafe d n x))) ∧
    (∀ r, cls ≤ 2 → b.canCapture = true → b.flt.queue = [] → r.reaction ≤ 2 → b.recurring d = some r →
      Completes c t s [.evm, .flt, .cal] fun b e =>
        e.flt.seq = b.flt.seq ∧ e.flt.ring.map (fun q => (q.seq, q.det)) = b.flt.ring.map (fun q => (q.seq, q.det)) ∧
          ∃ q ∈ e.flt.ring, q.seq = r.seq ∧ q.det = r.det ∧ q.recur = min 0xFFFF (r.recur + 1) ∧ q.touched = b.now) ∧
    (cls ≤ 2 → b.canCapture = false →
      (b.flt.queue.length < 64 → Completes c t s [.flt] fun b e => e.flt = { b.flt with queue := queueInsert d b.flt.queue }) ∧
      (64 ≤ b.flt.queue.length →
        Completes c t s [.regs] fun b e =>
          e.fld f_FLT_LOST_lost = min (2 ^ f_FLT_LOST_lost.len - 1) (b.fld f_FLT_LOST_lost + 1) ∧
            Table.SameBut [regAddr .FLT_LOST 0 0] b.regs e.regs)) := by
  refine ⟨fun hcap hq ho => ⟨fun hcls hun => ?_, fun n x hn h3 hx hdet hsafe hcouch hun => ?_⟩, fun r hcls hcap hq hreact hr => ?_,
    fun hcls hcap => ⟨fun hroom => ?_, fun hfull => ?_⟩⟩
  · have hmin : d.cls < 3 := by omega
    rw [← hdc] at hun
    obtain ⟨hframe, hrec, ⟨ring, fst, frozen, hflt⟩, hregs⟩ := State.capture_minor hcan.fine.regs ho hmin hun
    have hlog := State.log_minor hcan.fine.regs ho hmin hun hcap hq
    refine .logged hb hexec ?_ ?_ <;> rw [hlog]
    · exact hframe
    · exact ⟨hrec, by rw [hflt], by rw [hflt]; exact hq, hregs⟩
  · obtain ⟨hframe, hsafed, hqueue⟩ := State.capture_channel hcan ho (hdc.trans h3) (hds.trans hn) (hcode h3) hx hdet hsafe hcouch hun
    have hlog := State.log_captured hcap hq (hqueue.trans hq)
    refine .logged hb hexec ?_ ?_ <;> rw [hlog]
    · exact hframe
    · exact hsafed
  · obtain ⟨hframe, hP⟩ := State.log_recurs hcap hq hr hreact
    exact .logged hb hexec hframe hP
  · have hlog : b.log d = { b with flt := { b.flt with queue := queueInsert d b.flt.queue } } := by
      rw [State.log_full hcap (by omega)]
      exact if_pos hroom
    refine .logged hb hexec ?_ ?_ <;> rw [hlog]
    exact .flt (.refl ..) (by decide) _
  · have hlog : b.log d = b.tally f_FLT_LOST_lost := by
      rw [State.log_full hcap (by omega)]
      exact if_neg (by omega)
    refine .logged hb hexec ?_ ?_ <;> rw [hlog]
    · exact .tally (.refl ..) (by decide) _ _ _
    · exact ⟨(State.fld_tally hcan.fine.regs (f := f_FLT_LOST_lost) 1 0 (by decide)).trans rfl, State.sameBut_tally hcan.fine.regs f_FLT_LOST_lost 1 0⟩

/-- No fault of class C is that of SAFE_N. -/
theorem isFault_classC {code cls : Nat} {sc : Scope} (h : isFault code cls sc = true) (h3 : cls = 3) : code ≠ 0x010 := by
  rintro rfl
  rw [h3] at h
  revert h
  unfold isFault
  simp [codeClasses]

/-- Settles O54: a capture by its class, the captures left and the record it meets; conditions by what says that their cause is gone; SAFE_N by its
width and level. -/
theorem faultsAreCaptured : Obligations.FaultsAreCaptured := by
  intro s t
  refine ⟨fun code cls sc m access a detail hf => ⟨fun hn => ⟨_, if_pos (by rw [hf, hn]; rfl)⟩, fun hy => ⟨_, if_pos (by rw [hf, hy]; rfl)⟩⟩,
    fun code sc hcode hsc => ⟨_, if_pos (by rw [hcode, hsc]; rfl)⟩, fun width c hc => ?_, fun hcan hpor => ?_⟩
  · simp only [List.mem_cons, List.not_mem_nil, or_false] at hc
    obtain rfl | rfl | rfl := hc <;> exact ⟨_, rfl⟩
  obtain ⟨b, hb⟩ : ∃ b, s.begin t = b := ⟨_, rfl⟩
  have hcb : b.canonical := hb ▸ State.canonical_begin hcan t
  rw [hb]
  refine ⟨fun c code cls sc m access a detail hf d hd => ?_, fun hq => ?_, fun d hcap ho hq h1 h2 hun => ?_, fun code sc hcode hsc hnot => ?_,
    fun sc hsc => ⟨fun h => ?_, fun h => ?_, fun h => ?_, fun h => ?_⟩, fun k hk hph => ?_, ?_, fun k hk => ⟨fun h => ?_, fun h => ?_⟩,
    fun p hp => ⟨fun h => ?_, fun h => ?_⟩, fun n hn => ?_, fun width hw hsn hcap hq ho hun => ?_, fun width hw => ?_, fun hsn => ?_, fun hsn => ?_⟩
  · have hdet : d.cls = cls ∧ d.scope = sc ∧ d.code = code := by
      obtain ⟨-, -, hd⟩ | ⟨-, -, hd⟩ := hd <;> rw [hd] <;> exact ⟨rfl, rfl, rfl⟩
    obtain ⟨hdc, hds, hdcode⟩ := hdet
    have hexec : exec c s = .next (State.finish b (b.log d)) := by
      obtain ⟨hn, rfl, hd⟩ | ⟨hy, rfl, hd⟩ := hd
      · exact State.exec_actOn hb hpor rfl (by rw [hf, hn]; rfl) (by rw [hd])
      · exact State.exec_actOn hb hpor rfl (by rw [hf, hy]; rfl) (by rw [hd])
    exact ⟨hexec, State.log_cases hb hcb hexec hdc hds fun h3 => by rw [hdcode]; exact isFault_classC hf h3⟩
  · exact .runsOn (ok := true) hb hpor rfl rfl (State.collect_empty hq 4) (.refl ..) trivial
  · obtain ⟨u, hu⟩ : ∃ u : State, u = { b with flt := { b.flt with queue := [] } } := ⟨_, rfl⟩
    have hun' : ∀ r ∈ u.unacked, r.det.cls ≠ d.cls := by rw [hu]; exact hun
    obtain ⟨hframe, hrec, ⟨ring, fst, frozen, hflt⟩, hregs⟩ := State.capture_minor (s := u) (d := d) (by rw [hu]; exact hcb.fine.regs) (by rw [hu]; exact ho)
      (by omega) hun'
    have hempty : (u.capture d).flt.queue = [] := by rw [hflt, hu]
    have hcollect : State.collect 4 b = u.capture d := by
      unfold State.collect
      rw [hq]
      dsimp only
      rw [if_pos hcap, ← hu]
      exact State.collect_empty hempty 3
    refine .runsOn (ok := true) hb hpor rfl rfl hcollect ?_ ⟨?_, hempty, ?_, ?_⟩
    · refine OnlyChanges.trans ?_ hframe
      rw [hu]
      exact .flt (.refl ..) (by decide) _
    · rw [hu] at hrec ⊢
      exact hrec
    · rw [hflt, hu]
    · rw [hu] at hregs ⊢
      exact hregs
  · simp only [List.mem_cons, List.not_mem_nil, or_false, not_or] at hnot
    obtain ⟨h1, h2, h3, h4, h5, h6, h7⟩ := hnot
    exact .conditionEnds hb hpor hcode hsc (State.causeGone_unsensed (by simp [h1, h3, h4, h5])) (by simp [h2, h6, h7])
  · exact .conditionEnds hb hpor rfl hsc (decide_eq_true h) (by decide)
  · exact .conditionStays hb hpor rfl hsc (decide_eq_false h)
  · exact .conditionStays hb hpor rfl hsc (by show (! b.flt.safeN) = false; rw [h]; rfl)
  · exact .conditionEnds hb hpor rfl hsc (by show (! b.flt.safeN) = true; rw [h]; rfl) (by decide)
  · have hphase : b.dev.phase < 5 := by rw [← hb, State.begin_dev]; exact hph
    obtain ⟨x, hx, hlost, hothers⟩ := State.tileRailBack_early (s := b.clearCondition 0xB02 (.tile k) none) hphase k
    refine .runsOn hb hpor rfl (by rw [show isScope (.tile k) = true from decide_eq_true hk]; rfl) ((if_pos rfl).trans hx) ?_
      ⟨.of_flt rfl, hlost, rfl, fun j hj => hothers j hj⟩
    exact .pwr (.clearCondition (.refl ..) (by decide) _ _ _) (by decide) _
  · obtain ⟨u, hu⟩ : ∃ u : State, u = (b.clearCondition 0xB03 .device none).setPwr { b.pwr with hubOk := 0x1FF } := ⟨_, rfl⟩
    have hkeeps : Keeps 32768 u (u.each (List.range 4) fun p s => s.portStart p) :=
      State.keeps_each (Keeps.refl u) _ _ fun p v hv => State.keeps_portStart (Within.refl _) hv p
    have hends : b.causeEnds 0xB03 .device = u.each (List.range 4) fun p s => s.portStart p := by rw [hu]; rfl
    have hrails : u.webRails = true := by
      unfold State.webRails
      rw [hu]
      exact show (Nat.testBit 0x1FF 3 && Nat.testBit 0x1FF 4) = true by decide
    refine .runsOn hb hpor rfl rfl (?_ : _ = u.each (List.range 4) fun p s => s.portStart p) ?_ ⟨.of_flt ?_, ?_, fun p hp => ?_⟩
    · exact (if_pos rfl).trans hends
    · refine OnlyChanges.then (e := u) ?_ hkeeps (by decide)
      rw [hu]
      exact .pwr (.clearCondition (.refl ..) (by decide) _ _ _) (by decide) _
    · rw [hkeeps.flt rfl, hu]
      rfl
    · rw [hkeeps.pwr rfl, hu]
      rfl
    · have hst := State.each_portStart p (List.range 4) (s := u) hrails (by rw [hu]; exact hcb.fine.ports)
      refine hst.trans ?_
      rw [hu]
      simp only [List.mem_range, hp, true_and]
      rfl
  · exact .conditionEnds hb hpor rfl (decide_eq_true hk) (decide_eq_true h) (by decide)
  · exact .conditionStays hb hpor rfl (decide_eq_true hk) (decide_eq_false (Int.not_lt.2 h))
  · exact .conditionEnds hb hpor rfl (decide_eq_true hp) (decide_eq_true h) (by decide)
  · exact .conditionStays hb hpor rfl (decide_eq_true hp) (decide_eq_false h)
  · refine .runsOn hb hpor rfl (by rw [show isScope (.channel n) = true from decide_eq_true hn]; rfl) (if_pos rfl) ?_ ⟨.of_flt rfl, ?_, ?_⟩
    · exact .clearCondition (.force (.refl ..) (by decide) _) (by decide) _ _ _
    · exact State.forceOf_setForce_same hcb.fine.force
    · exact .put hcb.fine.force _ _ _
  · have hlow : b.safePulse width = b.safeSeen.fault 0x010 5 .device (issuedMaster (b.freeWord.1.toNat % 0x102A)) :=
      (if_pos hw).trans (State.safeLow_seen hsn)
    obtain ⟨hframe, hn, hdev, htiles, hsafe, hsame, hrec, hsrc⟩ := State.safeSeen_safes (m := issuedMaster (b.freeWord.1.toNat % 0x102A)) hcb hcap hq ho hun
    exact .runsOn (ok := true) hb hpor rfl rfl hlow hframe
      ⟨hn, hdev, htiles, hsafe, hsame, ⟨_, rfl, rfl, rfl, rfl, rfl, rfl, ⟨_, rfl⟩, hrec⟩, hsrc⟩
  · refine .runsOn (ok := true) hb hpor rfl rfl (?_ : b.safePulse width = b) (.refl ..) trivial
    unfold State.safePulse
    obtain hw | ⟨hw, hsn⟩ := hw
    · rw [if_neg (by omega), if_pos hw]
    · rw [if_pos hw]
      exact if_pos hsn
  · refine .runsOn (ok := true) hb hpor rfl rfl (if_neg (by rw [hsn]; decide)) ?_ ⟨.of_flt rfl, rfl⟩
    exact .evm (.flt (.refl ..) (by decide) _) (by decide) _
  · exact .runsOn (ok := true) hb hpor rfl rfl (if_pos (by rw [hsn]; rfl)) (.refl ..) trivial

end Sys2Proof.Machine
end

section
/-!
PROOFS. Release from SAFE (R99, R305, R306): which records hold a channel or a tile, and what a release makes of a channel.
-/

namespace Sys2Proof.Machine

open Sys2Proof

section Units
variable {s : State} {n k : Nat}

/-! ## What a release concerns -/

/-- A channel in SAFE is released by itself. -/
theorem State.safeIn_channel (hf : Table.rising s.force = true) (hst : (s.forceOf n).st = .safe) : s.safeIn (.channel n) = [n] :=
  Table.keys_one (d := Force.reset n) (fun x : Force => decide (x.st = .safe)) (decide_eq_false fun h => ChState.noConfusion h) hf (decide_eq_true hst)

/-- The channels of a tile in SAFE. -/
theorem State.mem_safeIn_tile {m : Nat} (hf : Table.rising s.force = true) :
    m ∈ s.safeIn (.tile k) ↔ (64 * k ≤ m ∧ m < 64 * k + 64) ∧ (s.forceOf m).st = .safe := by
  have h := Table.mem_keys (lo := 64 * k) (hi := 64 * k + 64) (k := m) (d := Force.reset m) (fun x : Force => decide (x.st = .safe))
    (decide_eq_false fun h => ChState.noConfusion h) hf
  unfold State.safeIn State.forceOf
  rw [h, decide_eq_true_eq]

/-- With nothing waiting in the capture queue no detection holds a unit. -/
theorem State.waitingDetect_none (hq : s.flt.queue = []) (sc : Scope) : s.waitingDetect sc = false := by
  unfold State.waitingDetect
  rw [hq]
  rfl

/-- The records that cover a channel in SAFE by itself. -/
theorem State.mem_coverRecords (hf : Table.rising s.force = true) (hst : (s.forceOf n).st = .safe) (r : Record) :
    r ∈ s.coverRecords (.channel n) ↔ r ∈ s.flt.ring ∧ (n, r.seq) ∈ s.flt.cover := by
  have hkeys : s.coverKeys (.channel n) = [n] := by
    unfold State.coverKeys
    rw [State.safeIn_channel hf hst]
    rfl
  unfold State.coverRecords
  rw [hkeys, List.mem_filter]
  refine and_congr_right fun _ => ?_
  simp only [State.guardRecord, Bool.false_or, List.any_eq_true, Bool.and_eq_true, List.contains_iff_mem, List.mem_singleton, decide_eq_true_eq]
  exact ⟨fun ⟨c, hc, h1, h2⟩ => by rw [← h1, ← h2]; exact hc, fun h => ⟨_, h, rfl, rfl⟩⟩

/-- The conditions of R305 with nothing waiting. -/
theorem State.quiet_iff (hq : s.flt.queue = []) (sc : Scope) : s.quiet sc = true ↔
    ∀ r ∈ s.coverRecords sc, r.flags.cleared = true ∧ r.touched + ms (s.fld f_FLT_RECOVERY_quiet_ms) ≤ s.now := by
  unfold State.quiet
  rw [State.waitingDetect_none hq]
  simp only [Bool.not_false, Bool.true_and, List.all_eq_true, Bool.and_eq_true, decide_eq_true_eq]

/-! ## One channel leaves SAFE -/

/-- A channel released in range 5 (R99). -/
def Force.freed (x : Force) : Force :=
  { x with st := if x.detach then .detached else .zeroed, closed := ! x.detach, detach := false, disabling := false, openWanted := false, steps := [],
           target := 0, present := 0, goal := none, fast := false, toTop := none }

/-- A channel released in another range, on its way to range 5 (R99). -/
def Force.rerange (x : Force) (now : Nat) : Force :=
  { x with closed := true, openWanted := false, steps := [.switch x.range 5], target := 0, present := 0, goal := none, before := .safe, st := .ranging,
           due := now + us 8 }

theorem State.resumeEngine_off (h : s.on f_CH_SWEEP_CTL_auto_resume n = false) : s.resumeEngine n = s :=
  if_neg fun hon => by rw [h] at hon; exact Bool.false_ne_true hon.1

/-- A release in range 5, with no automatic resumption. -/
theorem State.releaseChannel_zeroed (hr : Table.rising s.regs = true) (hf : Table.rising s.force = true) (h5 : ((s.forceOf n).view s.now).range = 5)
    (hres : s.on f_CH_SWEEP_CTL_auto_resume n = false) :
    s.releaseChannel n = (s.wr .CH_DECKLE (s.rd .CH_DECKLE_DEFAULT n) n).setForce n ((s.forceOf n).view s.now).freed := by
  obtain ⟨x, hx⟩ : ∃ x, x = (s.forceOf n).view s.now := ⟨_, rfl⟩
  obtain ⟨y, hy⟩ : ∃ y : Force, y = { x with closed := true, openWanted := false, steps := [], target := 0, present := 0, goal := none } := ⟨_, rfl⟩
  have hzero : (s.setForce n y).enterZeroed n = (s.wr .CH_DECKLE (s.rd .CH_DECKLE_DEFAULT n) n).setForce n x.freed := by
    unfold State.enterZeroed
    rw [State.forceOf_setForce_same hf]
    dsimp only
    rw [show (((s.setForce n y).wr .CH_DECKLE ((s.setForce n y).rd .CH_DECKLE_DEFAULT n) n)) =
      (s.wr .CH_DECKLE (s.rd .CH_DECKLE_DEFAULT n) n).setForce n y from rfl, State.setForce_setForce (s := s.wr .CH_DECKLE _ n) hf, hy]
    rfl
  have hoff (z : Force) : ((s.wr .CH_DECKLE (s.rd .CH_DECKLE_DEFAULT n) n).setForce n z).on f_CH_SWEEP_CTL_auto_resume n = false := by
    rw [← hres]
    exact State.on_sameBut (s := s) (l := [regAddr .CH_DECKLE n 0]) (.put hr _ _ _) (by simp [f_CH_SWEEP_CTL_auto_resume, regAddr, regRow])
  unfold State.releaseChannel
  rw [← hx] at h5 ⊢
  dsimp only
  rw [if_pos h5, ← hy, hzero]
  split
  · exact State.resumeEngine_off (hoff _)
  · rfl

/-- A release in another range. -/
theorem State.releaseChannel_ranging (h5 : ((s.forceOf n).view s.now).range ≠ 5) :
    s.releaseChannel n = s.setForce n (((s.forceOf n).view s.now).rerange s.now) := by
  unfold State.releaseChannel
  dsimp only
  rw [if_neg h5]
  rfl

/-- A channel with no change under way shows what it holds. -/
theorem Force.view_still {x : Force} (h : x.steps = []) (now : Nat) : x.view now = x := by
  unfold Force.view
  rw [h]

/-- A released channel is out of SAFE, its default deckle pair may be written, and nothing else changes. -/
theorem State.releaseChannel_frees (hr : Table.rising s.regs = true) (hf : Table.rising s.force = true)
    (hres : s.on f_CH_SWEEP_CTL_auto_resume n = false) :
    ∃ r y, s.releaseChannel n = ({ s with regs := r }).setForce n y ∧ y.st ≠ .safe ∧ Table.rising r = true ∧
      Table.SameBut [regAddr .CH_DECKLE n 0] s.regs r := by
  by_cases h5 : ((s.forceOf n).view s.now).range = 5
  · rw [State.releaseChannel_zeroed hr hf h5 hres]
    refine ⟨_, _, rfl, ?_, State.rising_wr hr .CH_DECKLE _ n 0, .put hr _ _ _⟩
    unfold Force.freed
    dsimp only
    split <;> decide
  · rw [State.releaseChannel_ranging h5]
    exact ⟨s.regs, _, rfl, ChState.noConfusion, hr, .refl _ _⟩

end Units

end Sys2Proof.Machine
end

section
/-!
PROOFS. A release that is made (R99, R104, R305): its records, the coverage, the guards, the channels and the count.
-/

namespace Sys2Proof.Machine

open Sys2Proof

section Making
variable {s : State} {n k : Nat} {sc : Scope}

/-- A record that a release concerns (R305). -/
def Record.released (r : Record) : Record := { r with flags := { r.flags with recovered := true } }

/-- The state of a release before its channels leave SAFE: the records marked, the coverage and the safe states lifted, and the guards resumed. -/
def State.lifted (s : State) (sc : Scope) : State :=
  let v := s.mapRecords (fun r => ((s.coverRecords sc).map fun q => q.seq).contains r.seq) Record.released
  let cover := v.flt.cover.filter fun c => ! (s.coverKeys sc).contains c.1
  let left := v.flt.ring.filter fun r => cover.any fun c => decide (c.2 = r.seq)
  State.pruneRing { v with
    flt := { v.flt with cover, tileSafe := (s.safeTiles sc).foldl (fun m t => setBitN m t false) v.flt.tileSafe,
                        deviceSafe := left.any (fun r => decide (r.reaction = 5)), held := left.any fun r => r.flags.held }
    guards := (v.freeOctets sc (s.safeIn sc)).foldl (fun m k => setBitN m k false) v.guards }

/-- The release is counted, or counts once the channels on their way to range 5 have entered ZEROED. -/
def State.counted (s : State) (l : List Nat) : State :=
  if l = [] then s.tally f_FLT_RECOVER_COUNT_count else { s with flt := { s.flt with recovering := s.flt.recovering ++ [l] } }

theorem State.makeRelease_eq (s : State) (sc : Scope) : s.makeRelease sc =
    (((s.lifted sc).each (s.safeIn sc) fun n s => s.releaseChannel n).counted
      ((s.safeIn sc).filter fun n => decide ((((s.lifted sc).each (s.safeIn sc) fun n s => s.releaseChannel n).forceOf n).st = .ranging))).assertSrc
        (srcFault 6) := rfl

/-- What is lifted: the collector's state and the guards. -/
theorem State.lifted_eq : ∃ ring dev held g, s.lifted sc = { s with
      flt := { s.flt with ring, cover := s.flt.cover.filter fun c => ! (s.coverKeys sc).contains c.1, deviceSafe := dev, held,
                          tileSafe := (s.safeTiles sc).foldl (fun m t => setBitN m t false) s.flt.tileSafe }
      guards := g } := ⟨_, _, _, _, rfl⟩

/-- A covered record that the ring still holds is marked as recovered. -/
theorem State.lifted_recovered {r : Record} (hr : r ∈ (s.lifted sc).flt.ring) (hin : ∀ q ∈ s.flt.ring, q.seq = r.seq → q ∈ s.coverRecords sc) :
    r.flags.recovered = true := by
  obtain ⟨q, hq, hqr⟩ := List.mem_map.1 (List.mem_filter.1 hr).1
  have hseq : q.seq = r.seq := by
    rw [← hqr]
    split <;> rfl
  have hmem : ((s.coverRecords sc).map fun q => q.seq).contains q.seq = true :=
    List.contains_iff_mem.2 (List.mem_map_of_mem (hin q hq hseq))
  rw [if_pos hmem] at hqr
  rw [← hqr]
  rfl

/-- Bits of a list are cleared. -/
theorem foldl_clearBits (l : List Nat) {x j : Nat} : (l.foldl (fun m k => setBitN m k false) x).testBit j = (x.testBit j && ! l.contains j) := by
  induction l generalizing x with
  | nil => simp
  | cons k l ih =>
    rw [List.foldl_cons, ih]
    by_cases hj : j = k
    · subst hj
      rw [testBit_clearBit_same]
      simp
    · rw [testBit_clearBit_other hj]
      simp [hj]

/-- The guards of octets without a channel of the release stay as they are (R104). -/
theorem State.lifted_guards (hf : Table.rising s.force = true) (hst : (s.forceOf n).st = .safe) (hk : k ≠ n / 8) :
    (s.lifted (.channel n)).guards.testBit k = s.guards.testBit k := by
  show ((State.freeOctets _ _ _).foldl (fun m k => setBitN m k false) s.guards).testBit k = _
  have hnot : k ∉ State.freeOctets (s.mapRecords (fun r => ((s.coverRecords (.channel n)).map fun q => q.seq).contains r.seq) Record.released)
      (.channel n) (s.safeIn (.channel n)) := fun h => by
    rw [State.safeIn_channel hf hst] at h
    have hm := (List.mem_filter.1 h).1
    simp only [List.nil_append, List.map_cons, List.map_nil, List.mem_singleton] at hm
    exact hk hm
  rw [foldl_clearBits, Bool.eq_false_iff.2 fun h => hnot (List.contains_iff_mem.1 h), Bool.not_false, Bool.and_true]

/-- Channels that are released one after the other. -/
theorem State.each_release : ∀ (l : List Nat) {s : State} (_ : Table.rising s.regs = true) (_ : Table.rising s.force = true)
    (_ : ∀ n ∈ l, s.on f_CH_SWEEP_CTL_auto_resume n = false),
    ∃ r f, (s.each l fun n s => s.releaseChannel n) = { s with regs := r, force := f } ∧
      (∀ n, n ∈ l ∨ (s.forceOf n).st ≠ .safe → (Table.get (Force.reset n) n f).st ≠ .safe) ∧
      ∀ n, n ∉ l → Table.get (Force.reset n) n f = s.forceOf n
  | [], s, _, _, _ => ⟨s.regs, s.force, rfl, fun _ h => h.resolve_left (List.not_mem_nil), fun _ _ => rfl⟩
  | m :: l, s, hr, hf, hoff => by
    obtain ⟨r, y, heq, hy, hrise, hsame⟩ := State.releaseChannel_frees hr hf (hoff m List.mem_cons_self)
    obtain ⟨u, hu⟩ : ∃ u : State, u = ({ s with regs := r }).setForce m y := ⟨_, rfl⟩
    rw [← hu] at heq
    have hself : u.forceOf m = y := by rw [hu]; exact State.forceOf_setForce_same hf
    have hother {n : Nat} (hn : n ≠ m) : u.forceOf n = s.forceOf n := by rw [hu]; exact State.forceOf_setForce_other hn hf
    have hoff' : ∀ n ∈ l, u.on f_CH_SWEEP_CTL_auto_resume n = false := fun n hn => by
      rw [← hoff n (List.mem_cons_of_mem _ hn), hu]
      refine State.on_sameBut (s := s) (t := { s with regs := r }) hsame ?_
      simp only [f_CH_SWEEP_CTL_auto_resume, regAddr, regRow, blkBase, List.mem_singleton]
      omega
    obtain ⟨r', f, heq', hsafe, hkept⟩ := State.each_release l (s := u) (by rw [hu]; exact hrise) (by rw [hu]; exact Table.rising_put hf) hoff'
    refine ⟨r', f, ?_, fun n hn => ?_, fun n hn => ?_⟩
    · rw [show (s.each (m :: l) fun n s => s.releaseChannel n) = u.each l fun n s => s.releaseChannel n by rw [← heq]; rfl, heq', hu]
      rfl
    · by_cases hnm : n = m
      · subst hnm
        exact hsafe n (.inr (by rw [hself]; exact hy))
      · exact hsafe n (by rw [hother hnm]; exact hn.imp_left fun h => (List.mem_cons.1 h).resolve_left hnm)
    · rw [hkept n fun h => hn (List.mem_cons_of_mem _ h), hother fun h => hn (h ▸ List.mem_cons_self)]

end Making

end Sys2Proof.Machine
end

section
/-!
PROOFS. The release of one channel and of a tile (R99, R305, R306).
-/

namespace Sys2Proof.Machine

open Sys2Proof

section Release
variable {s : State} {n k : Nat} {sc : Scope} {x : Force}

/-- The parts that a release changes. -/
def releaseParts : List Part := [.regs, .evm, .force, .guards, .flt]

theorem State.lifted_frame (s : State) (sc : Scope) : OnlyChanges releaseParts s (s.lifted sc) := by
  obtain ⟨y, g, hl⟩ : ∃ y g, s.lifted sc = { s with flt := y, guards := g } := ⟨_, _, rfl⟩
  have hflt : OnlyChanges releaseParts s { s with flt := y } := .flt (.refl ..) (by decide) y
  rw [hl]
  exact hflt.guards (by decide) g

/-- The coverage of a released channel is gone. -/
theorem State.coverKeys_channel (hf : Table.rising s.force = true) (hst : (s.forceOf n).st = .safe) : s.coverKeys (.channel n) = [n] := by
  unfold State.coverKeys
  rw [State.safeIn_channel hf hst]
  rfl

/-- What a release of channel `n` makes of the collector's state, but for what is still to be counted. -/
def Unheld (n : Nat) (b e : State) : Prop :=
  e.flt.cover = b.flt.cover.filter (fun c => decide (c.1 ≠ n)) ∧ e.flt.releases = b.flt.releases ∧ e.flt.seq = b.flt.seq ∧
    (∀ r ∈ e.flt.ring, (n, r.seq) ∈ b.flt.cover → r.flags.recovered = true)

theorem State.lifted_unheld (hf : Table.rising s.force = true) (hst : (s.forceOf n).st = .safe) : Unheld n s (s.lifted (.channel n)) := by
  refine ⟨?_, rfl, rfl, fun r hr hc => State.lifted_recovered hr fun q hq hqr => (State.mem_coverRecords hf hst q).2 ⟨hq, hqr ▸ hc⟩⟩
  show s.flt.cover.filter _ = _
  rw [State.coverKeys_channel hf hst]
  refine List.filter_congr fun c _ => ?_
  by_cases hc : c.1 = n <;> simp [hc]

/-- The release of a channel in range 5 (R99): it is ZEROED, or DETACHED where a detach waits, and counted. -/
theorem State.makeRelease_zeroed (hcan : s.canonical) (hx : s.forceOf n = x) (hst : x.st = .safe) (hsteps : x.steps = []) (h5 : x.range = 5)
    (hoff : s.on f_CH_SWEEP_CTL_auto_resume n = false) :
    let e := s.makeRelease (.channel n)
    OnlyChanges releaseParts s e ∧ e.forceOf n = x.freed ∧ Table.SameBut [n] s.force e.force ∧ Unheld n s e ∧
      e.fld f_FLT_RECOVER_COUNT_count = min (2 ^ f_FLT_RECOVER_COUNT_count.len - 1) (s.fld f_FLT_RECOVER_COUNT_count + 1) ∧
      e.rd .CH_DECKLE n = s.rd .CH_DECKLE_DEFAULT n ∧ Table.SameBut [regAddr .FLT_RECOVER_COUNT 0 0, regAddr .CH_DECKLE n 0] s.regs e.regs ∧
      (∀ k, k ≠ n / 8 → e.guards.testBit k = s.guards.testBit k) ∧ ∃ a ∈ e.evm.asserted, a.src = srcFault 6 := by
  intro e
  have hf : Table.rising s.force = true := hcan.fine.force
  have hr : Table.rising s.regs = true := hcan.fine.regs
  have hst' : (s.forceOf n).st = .safe := by rw [hx]; exact hst
  obtain ⟨u, hu⟩ : ∃ u, u = s.lifted (.channel n) := ⟨_, rfl⟩
  obtain ⟨ring, dev, held, g, hl⟩ := State.lifted_eq (s := s) (sc := .channel n)
  rw [← hu] at hl
  have huforce : u.force = s.force := by rw [hl]
  have huregs : u.regs = s.regs := by rw [hl]
  have hunow : u.now = s.now := by rw [hl]
  have hux : u.forceOf n = x := by unfold State.forceOf; rw [huforce]; exact hx
  obtain ⟨w, hw⟩ : ∃ w, w = (u.wr .CH_DECKLE (u.rd .CH_DECKLE_DEFAULT n) n).setForce n x.freed := ⟨_, rfl⟩
  have hrelease : u.releaseChannel n = w := by
    have hview : (u.forceOf n).view u.now = x := by rw [hux]; exact Force.view_still hsteps _
    rw [State.releaseChannel_zeroed (by rw [huregs]; exact hr) (by rw [huforce]; exact hf) (by rw [hview]; exact h5)
      (by unfold State.on State.fld State.rd at hoff ⊢; rw [huregs]; exact hoff), hview, hw]
  have hwn : w.forceOf n = x.freed := by rw [hw]; exact State.forceOf_setForce_same (s := u.wr .CH_DECKLE _ n) (huforce ▸ hf)
  have he : e = (w.tally f_FLT_RECOVER_COUNT_count).assertSrc (srcFault 6) := by
    have hone : (u.each [n] fun n s => s.releaseChannel n) = w := hrelease
    show s.makeRelease (.channel n) = _
    rw [State.makeRelease_eq, State.safeIn_channel hf hst', ← hu, hone]
    have hleft : ([n].filter fun m => decide ((w.forceOf m).st = .ranging)) = [] := by
      rw [List.filter_cons_of_neg]
      · rfl
      · rw [hwn]
        unfold Force.freed
        dsimp only
        split <;> decide
    rw [hleft]
    rfl
  have hwr : Table.SameBut [regAddr .CH_DECKLE n 0] s.regs w.regs := by
    rw [hw, ← huregs]
    exact .put (huregs ▸ hr) _ _ _
  have hwrise : Table.rising w.regs = true := by rw [hw]; exact State.rising_wr (huregs ▸ hr) .CH_DECKLE _ n 0
  have hdeckle : regAddr .CH_DECKLE n 0 ∉ [regAddr .FLT_RECOVER_COUNT 0 0] := by simp only [regAddr, regRow, blkBase, List.mem_singleton]; omega
  have hcount : regAddr .FLT_RECOVER_COUNT 0 0 ∉ [regAddr .CH_DECKLE n 0] := by simp only [regAddr, regRow, blkBase, List.mem_singleton]; omega
  have htally := State.sameBut_tally hwrise f_FLT_RECOVER_COUNT_count 1 0
  obtain ⟨hcover, hreleases, hseq, hrec⟩ := State.lifted_unheld hf hst'
  rw [← hu] at hcover hreleases hseq hrec
  have hwflt : w.flt = u.flt := by rw [hw]; rfl
  rw [he]
  refine ⟨?_, hwn, ?_, ⟨?_, ?_, ?_, ?_⟩, ?_, ?_, ?_, fun k hk => ?_, ⟨_, List.mem_append_right _ (List.mem_singleton.2 rfl), rfl⟩⟩
  · refine OnlyChanges.evm (OnlyChanges.tally (l := releaseParts) ?_ (by decide) _ _ _) (by decide) _
    rw [hw, hu]
    exact OnlyChanges.force (OnlyChanges.regs (State.lifted_frame s _) (by decide) _) (by decide) _
  · show Table.SameBut [n] s.force w.force
    rw [hw, ← huforce]
    exact .put (huforce ▸ hf) _ _ _
  · exact (congrArg Flt.cover hwflt).trans hcover
  · exact (congrArg Flt.releases hwflt).trans hreleases
  · exact (congrArg Flt.seq hwflt).trans hseq
  · intro r hr
    exact hrec r (hwflt ▸ hr)
  · refine (State.fld_tally hwrise (f := f_FLT_RECOVER_COUNT_count) 1 0 (by decide)).trans ?_
    rw [State.fld_sameBut hwr hcount]
    rfl
  · refine (htally _ hdeckle _).trans ?_
    rw [hw]
    refine (State.rd_wr_same (s := u) (huregs ▸ hr) .CH_DECKLE _ n 0).trans ?_
    unfold State.rd
    rw [huregs]
  · exact (hwr.mono (by simp)).trans (htally.mono fun a ha => List.mem_cons.2 (.inl (List.mem_singleton.1 ha)))
  · have hguards : w.guards = u.guards := by rw [hw]; rfl
    show w.guards.testBit k = _
    rw [hguards, hu]
    exact State.lifted_guards hf hst' hk

end Release

end Sys2Proof.Machine
end

section
/-!
PROOFS. The release of one channel and of a tile safe state, as R305 and R306 let it happen.
-/

namespace Sys2Proof.Machine

open Sys2Proof

section Channel
variable {s : State} {n k : Nat} {sc : Scope} {x : Force}

/-- The release of a channel in another range (R99): it is on its way to range 5, and the release counts once it is there. -/
theorem State.makeRelease_ranging (hcan : s.canonical) (hx : s.forceOf n = x) (hst : x.st = .safe) (hsteps : x.steps = []) (h5 : x.range ≠ 5) :
    let e := s.makeRelease (.channel n)
    OnlyChanges releaseParts s e ∧ e.forceOf n = x.rerange s.now ∧ Table.SameBut [n] s.force e.force ∧ Unheld n s e ∧
      e.flt.recovering = s.flt.recovering ++ [[n]] ∧ ∃ a ∈ e.evm.asserted, a.src = srcFault 6 := by
  intro e
  have hf : Table.rising s.force = true := hcan.fine.force
  have hst' : (s.forceOf n).st = .safe := by rw [hx]; exact hst
  obtain ⟨u, hu⟩ : ∃ u, u = s.lifted (.channel n) := ⟨_, rfl⟩
  obtain ⟨ring, dev, held, g, hl⟩ := State.lifted_eq (s := s) (sc := .channel n)
  rw [← hu] at hl
  have huforce : u.force = s.force := by rw [hl]
  have hunow : u.now = s.now := by rw [hl]
  have hux : (u.forceOf n).view u.now = x := by
    have h : u.forceOf n = x := by unfold State.forceOf; rw [huforce]; exact hx
    rw [h]
    exact Force.view_still hsteps _
  obtain ⟨w, hw⟩ : ∃ w, w = u.setForce n (x.rerange s.now) := ⟨_, rfl⟩
  have hone : (u.each [n] fun n s => s.releaseChannel n) = w := by
    rw [hw, ← hunow, ← hux]
    exact State.releaseChannel_ranging (by rw [hux]; exact h5)
  have hwn : w.forceOf n = x.rerange s.now := by rw [hw]; exact State.forceOf_setForce_same (huforce ▸ hf)
  have he : e = { w with flt := { w.flt with recovering := w.flt.recovering ++ [[n]] } }.assertSrc (srcFault 6) := by
    show s.makeRelease (.channel n) = _
    rw [State.makeRelease_eq, State.safeIn_channel hf hst', ← hu, hone,
      show ([n].filter fun m => decide ((w.forceOf m).st = .ranging)) = [n] from List.filter_cons_of_pos (by rw [hwn]; rfl)]
    rfl
  obtain ⟨hcover, hreleases, hseq, hrec⟩ := State.lifted_unheld hf hst'
  rw [← hu] at hcover hreleases hseq hrec
  have hwflt : w.flt = u.flt := by rw [hw]; rfl
  have hurec : u.flt.recovering = s.flt.recovering := by rw [hl]
  rw [he]
  refine ⟨?_, hwn, ?_, ⟨(congrArg Flt.cover hwflt).trans hcover, (congrArg Flt.releases hwflt).trans hreleases, (congrArg Flt.seq hwflt).trans hseq,
    fun r hr => hrec r (hwflt ▸ hr)⟩, ?_, ⟨_, List.mem_append_right _ (List.mem_singleton.2 rfl), rfl⟩⟩
  · refine OnlyChanges.evm (OnlyChanges.flt (l := releaseParts) ?_ (by decide) _) (by decide) _
    rw [hw, hu]
    exact OnlyChanges.force (State.lifted_frame s _) (by decide) _
  · show Table.SameBut [n] s.force w.force
    have hrise : Table.rising u.force = true := huforce ▸ hf
    rw [hw, ← huforce]
    exact .put hrise (Force.reset n) n (x.rerange s.now)
  · show w.flt.recovering ++ [[n]] = _
    rw [hwflt, hurec]

/-! ## When a channel is released -/

variable (hf : Table.rising s.force = true) (hst : (s.forceOf n).st = .safe)

include hf hst in
/-- A channel in SAFE is released by itself where neither its tile nor the device is in its safe state. -/
theorem State.isUnit_channel (hdev : s.flt.deviceSafe = false) (htile : s.flt.tileSafe.testBit (n / 64) = false) : s.isUnit (.channel n) = true := by
  show (! s.flt.deviceSafe && ! s.flt.tileSafe.testBit (n / 64) && ! (s.safeIn (.channel n)).isEmpty) = true
  rw [hdev, htile, State.safeIn_channel hf hst]
  rfl

include hf hst in
/-- A covering record that is not cleared, or not quiet for long enough, keeps the channel in SAFE. -/
theorem State.release_restless (hq : s.flt.queue = []) {r : Record} (hr : r ∈ s.flt.ring) (hc : (n, r.seq) ∈ s.flt.cover)
    (hbad : r.flags.cleared = false ∨ s.now < r.touched + 256000000 * s.fld f_FLT_RECOVERY_quiet_ms) : s.release (.channel n) = s := by
  refine if_pos (.inr ?_)
  by_contra hquiet
  rw [Bool.not_eq_true', Bool.not_eq_false] at hquiet
  obtain ⟨h1, h2⟩ := (State.quiet_iff hq (.channel n)).1 hquiet r ((State.mem_coverRecords hf hst r).2 ⟨hr, hc⟩)
  unfold ms at h2
  rcases hbad with h | h
  · rw [h1] at h
    exact Bool.noConfusion h
  · omega

end Channel

/-! ## A release that is due -/

section Due
variable {s : State} {n : Nat} {sc : Scope}

/-- The highest reaction class of the records that cover a scope. -/
def State.topReaction (s : State) (sc : Scope) : Nat := (s.coverRecords sc).foldl (fun m r => max m r.reaction) 0

/-- A release that the hourly limit holds back: its records are held until they are acknowledged (R306). -/
def State.holdBack (s : State) (sc : Scope) : State :=
  let v := s.mapRecords (fun r => (s.coverRecords sc).any fun q => decide (q.seq = r.seq)) fun r => { r with flags := { r.flags with held := true } }
  State.assertSrc { v with flt := { v.flt with held := true } } (srcFault 7)

/-- A release that counts towards the hourly limit. -/
def State.marked (s : State) (l : List Scope) : State :=
  { s with flt := { s.flt with releases := s.flt.releases ++ l.map fun c => (⟨s.minute, c⟩ : ReleaseMark) } }

variable (hu : s.isUnit sc = true) (hq : s.quiet sc = true)
include hu hq

/-- A unit all of whose records are acknowledged is released. -/
theorem State.release_acked (hack : ∀ r ∈ s.coverRecords sc, r.flags.acked = true) : s.release sc = s.makeRelease sc := by
  unfold State.release
  dsimp only
  rw [if_neg (by rw [hu, hq]; simp), if_pos (List.all_eq_true.2 hack)]

/-- A unit with a record that nobody has acknowledged waits, unless auto_en lets its class recover. -/
theorem State.release_waits {r : Record} (hr : r ∈ s.coverRecords sc) (hun : r.flags.acked = false)
    (hen : (s.fld f_FLT_RECOVERY_auto_en).testBit (s.topReaction sc - 3) = false) : s.release sc = s := by
  unfold State.release
  dsimp only
  rw [if_neg (by rw [hu, hq]; simp), if_neg fun h => by rw [List.all_eq_true.1 h r hr] at hun; exact Bool.noConfusion hun]
  exact if_pos (.inr (by unfold State.topReaction at hen; rw [hen]; rfl))

/-- Under auto_en a unit is released within the hourly limit and held back beyond it. -/
theorem State.release_auto {r : Record} (hr : r ∈ s.coverRecords sc) (hun : r.flags.acked = false) (htop : s.topReaction sc = 3)
    (hen : (s.fld f_FLT_RECOVERY_auto_en).testBit 0 = true) (hext : ∀ r ∈ s.coverRecords sc, r.det.code ≠ 0x010) :
    s.release sc = if (s.countedFor sc 3).any fun c => decide (s.fld f_FLT_RECOVERY_hour_limit < s.releaseCount c + 1) then
        if (s.coverRecords sc).all fun r => r.flags.held then s else s.holdBack sc
      else (s.marked (s.countedFor sc 3)).makeRelease sc := by
  have hno : ((s.coverRecords sc).any fun r => decide (r.reaction = 3) && decide (r.det.code = 0x010)) = false :=
    List.any_eq_false.2 fun r hr => by simp [hext r hr]
  unfold State.topReaction at htop
  unfold State.release
  dsimp only
  rw [if_neg (by rw [hu, hq]; simp), if_neg fun h => by rw [List.all_eq_true.1 h r hr] at hun; exact Bool.noConfusion hun, htop,
    if_neg (by simp only [Nat.sub_self, hen]; simp), hno, if_neg Bool.false_ne_true]
  rfl

end Due

/-- Records of one reaction class have it as their highest. -/
theorem foldl_max_const {c : Nat} : ∀ {l : List Record} {m : Nat}, l ≠ [] → m ≤ c → (∀ r ∈ l, r.reaction = c) →
    l.foldl (fun m r => max m r.reaction) m = c
  | [r], m, _, hm, h => by
    have hr := h r List.mem_cons_self
    simp only [List.foldl_cons, List.foldl_nil, hr]
    omega
  | r :: q :: l, m, _, hm, h => by
    have hr := h r List.mem_cons_self
    rw [List.foldl_cons]
    exact foldl_max_const (List.cons_ne_nil _ _) (by omega) fun x hx => h x (List.mem_cons_of_mem _ hx)

section Held
variable {s : State} {n : Nat}

/-- What holding back leaves. -/
theorem State.holdBack_shows (hf : Table.rising s.force = true) (hst : (s.forceOf n).st = .safe) : let e := s.holdBack (.channel n)
    OnlyChanges [.evm, .flt] s e ∧ e.flt = { s.flt with ring := e.flt.ring, held := true } ∧
      e.flt.ring.map (fun r => (r.seq, r.det)) = s.flt.ring.map (fun r => (r.seq, r.det)) ∧
      (∀ r ∈ e.flt.ring, (n, r.seq) ∈ s.flt.cover → r.flags.held = true) ∧ ∃ a ∈ e.evm.asserted, a.src = srcFault 7 := by
  intro e
  refine ⟨.evm (.flt (.refl ..) (by decide) _) (by decide) _, rfl, ?_, fun r hr hc => ?_, ⟨_, List.mem_append_right _ (List.mem_singleton.2 rfl), rfl⟩⟩
  · show (s.flt.ring.map _).map _ = _
    rw [List.map_map]
    refine List.map_congr_left fun r _ => ?_
    dsimp only [Function.comp]
    split <;> rfl
  · obtain ⟨q, hq, hqr⟩ := List.mem_map.1 hr
    have hseq : q.seq = r.seq := by
      rw [← hqr]
      split <;> rfl
    have hmem : ((s.coverRecords (.channel n)).any fun p => decide (p.seq = q.seq)) = true :=
      List.any_eq_true.2 ⟨q, (State.mem_coverRecords hf hst q).2 ⟨hq, hseq ▸ hc⟩, decide_eq_true rfl⟩
    rw [if_pos hmem] at hqr
    rw [← hqr]

/-- One channel counts for itself. -/
theorem State.countedFor_channel (hf : Table.rising s.force = true) (hst : (s.forceOf n).st = .safe) : s.countedFor (.channel n) 3 = [.channel n] := by
  have h : s.countedFor (.channel n) 3 = (s.safeIn (.channel n)).map Scope.channel := rfl
  rw [h, State.safeIn_channel hf hst]
  rfl

end Held

end Sys2Proof.Machine
end

section
/-!
PROOFS. The release of a tile safe state, and RELEASE of a channel (R99, R305, R306).
-/

namespace Sys2Proof.Machine

open Sys2Proof

section Tile
variable {s : State} {k : Nat}

/-- Counting a release touches registers and the collector only. -/
theorem State.counted_eq (s : State) (l : List Nat) : ∃ r v, s.counted l = { s with regs := r, flt := { s.flt with recovering := v } } := by
  unfold State.counted
  split
  · exact ⟨_, _, rfl⟩
  · exact ⟨_, _, rfl⟩

/-- The release of a tile safe state: its channels leave SAFE, and its coverage and safe state are gone. -/
theorem State.makeRelease_tile (hcan : s.canonical) (hk : k < 8) (hsafe : s.flt.tileSafe.testBit k = true)
    (hoff : ∀ n, n < 512 → n / 64 = k → s.on f_CH_SWEEP_CTL_auto_resume n = false) :
    let e := s.makeRelease (.tile k)
    OnlyChanges releaseParts s e ∧ e.flt.tileSafe.testBit k = false ∧ (∀ j, j ≠ k → e.flt.tileSafe.testBit j = s.flt.tileSafe.testBit j) ∧
      (∀ n, n < 512 → n / 64 = k → (e.forceOf n).st ≠ .safe) ∧ (∀ n, n / 64 ≠ k → e.forceOf n = s.forceOf n) ∧
      (∀ c ∈ e.flt.cover, c.1 ≠ 512 + k) ∧ ∃ a ∈ e.evm.asserted, a.src = srcFault 6 := by
  intro e
  have hf : Table.rising s.force = true := hcan.fine.force
  have hr : Table.rising s.regs = true := hcan.fine.regs
  have htiles : s.safeTiles (.tile k) = [k] := if_pos hsafe
  have hin {n : Nat} : n ∈ s.safeIn (.tile k) ↔ (64 * k ≤ n ∧ n < 64 * k + 64) ∧ (s.forceOf n).st = .safe := State.mem_safeIn_tile hf
  obtain ⟨u, hu⟩ : ∃ u, u = s.lifted (.tile k) := ⟨_, rfl⟩
  obtain ⟨ring, dev, held, g, hl⟩ := State.lifted_eq (s := s) (sc := .tile k)
  rw [← hu] at hl
  have huforce : u.force = s.force := by rw [hl]
  have huregs : u.regs = s.regs := by rw [hl]
  have huf (n : Nat) : u.forceOf n = s.forceOf n := by unfold State.forceOf; rw [huforce]
  obtain ⟨r, f, hrel, hleft, hkept⟩ := State.each_release (s.safeIn (.tile k)) (s := u) (huregs ▸ hr) (huforce ▸ hf) fun n hn => by
    have hoff' := hoff n (by have h := (hin.1 hn).1; omega) (by have h := (hin.1 hn).1; omega)
    unfold State.on State.fld State.rd at hoff' ⊢
    rw [huregs]
    exact hoff'
  obtain ⟨w, hw⟩ : ∃ w : State, w = { u with regs := r, force := f } := ⟨_, rfl⟩
  obtain ⟨r', v, hcount⟩ := State.counted_eq w ((s.safeIn (.tile k)).filter fun n => decide ((w.forceOf n).st = .ranging))
  have he : e = { w with regs := r', flt := { w.flt with recovering := v } }.assertSrc (srcFault 6) := by
    show s.makeRelease (.tile k) = _
    rw [State.makeRelease_eq, ← hu, hrel, ← hw, hcount]
  have heflt : e.flt = { u.flt with recovering := v } := by rw [he, hw]; rfl
  have heforce (n : Nat) : e.forceOf n = Table.get (Force.reset n) n f := by rw [he, hw]; rfl
  have htile : e.flt.tileSafe = setBitN s.flt.tileSafe k false := by rw [heflt, hl, htiles]; rfl
  have hcover : e.flt.cover = s.flt.cover.filter fun c => ! (s.coverKeys (.tile k)).contains c.1 := by rw [heflt, hl]
  refine ⟨?_, by rw [htile]; exact testBit_clearBit_same _ _, fun j hj => by rw [htile]; exact testBit_clearBit_other hj, fun n hn hnk => ?_,
    fun n hnk => ?_, fun c hc hck => ?_, ?_⟩
  · rw [he, hw]
    have hframe : OnlyChanges releaseParts s u := hu ▸ State.lifted_frame s _
    have hforce : OnlyChanges releaseParts s { u with regs := r, force := f } := OnlyChanges.force (hframe.regs (by decide) r) (by decide) f
    exact OnlyChanges.evm (OnlyChanges.flt (OnlyChanges.regs hforce (by decide) r') (by decide) { u.flt with recovering := v }) (by decide) _
  · rw [heforce]
    refine hleft n ?_
    by_cases hs : (s.forceOf n).st = .safe
    · exact .inl (hin.2 ⟨by omega, hs⟩)
    · exact .inr (by rw [huf]; exact hs)
  · rw [heforce, hkept n fun h => hnk (by have h := (hin.1 h).1; omega), huf]
  · rw [hcover] at hc
    have hkeys : 512 + k ∈ s.coverKeys (.tile k) := List.mem_append_right _ (by rw [htiles]; exact List.mem_singleton.2 rfl)
    have hnot := (List.mem_filter.1 hc).2
    rw [hck, List.contains_iff_mem.2 hkeys] at hnot
    exact Bool.noConfusion hnot
  · rw [he]
    exact ⟨_, List.mem_append_right _ (List.mem_singleton.2 rfl), rfl⟩

end Tile

end Sys2Proof.Machine
end

section
/-!
PROOFS. The registers of the fault collector that act when written (R298, R302, R309), and the detection of an injected fault.
-/

namespace Sys2Proof.Machine

open Sys2Proof

section Writes
variable {s b e : State} {c : Instr} {t m i j : Nat} {r : Reg} {v : Word} {codes : Option (List Int)} {bad ok : Bool} {l : List Part}
  {P : State → State → Prop}

/-- A command of the always-on domain that is a write to a register completes with what the write leads to, and with its answer. -/
theorem Completes.registerWriteOn (hb : s.begin t = b) (hpor : s.pwr.porHeld = false) (hans : s.answers m = true)
    (hexec : exec c s = outIf ok (s.actOn t fun s => s.accessReg m r i j v codes bad)) (hok : ok = true)
    (he : b.regWrite m r i j v codes bad = e) (hframe : OnlyChanges l b e) (hl : .resp ∈ l)
    (hP : P b { e with resp := ⟨m, false, 0⟩ }) : Completes c t s l P := by
  refine .runsOn hb hpor hexec hok ?_ (hframe.resp hl ⟨m, false, 0⟩) hP
  have hans' : b.answers m = true := by rw [← hb]; simpa using hans
  unfold State.accessReg
  rw [State.access_of_answers hans', he]
  rfl

/-- A write that gives every stored field its present value leaves the word. -/
theorem stored_same {old : Word} (hw1c : w1cMask r = 0) (h : (v ^^^ old) &&& rwMask r = 0) : stored r old v 0 = old := by
  unfold stored
  rw [hw1c]
  refine BitVec.eq_of_getLsbD_eq fun k hk => ?_
  have hbit := congrArg (BitVec.getLsbD · k) h
  simp only [BitVec.getLsbD_and, BitVec.getLsbD_xor, BitVec.ofNat_eq_ofNat, BitVec.getLsbD_ofNat, hk, decide_true, Bool.true_and,
    Nat.zero_testBit] at hbit
  simp only [BitVec.getLsbD_and, BitVec.getLsbD_or, BitVec.getLsbD_not, BitVec.getLsbD_ofNat, hk, decide_true, Bool.true_and, Nat.zero_testBit,
    Bool.not_false, Bool.and_true, BitVec.ofNat_eq_ofNat, Bool.and_false]
  cases hm : (rwMask r).getLsbD k with
  | false => simp
  | true => rw [hm, Bool.and_true] at hbit; simp [bne_eq_false_iff_eq.1 hbit]

/-- A write that stores nothing new acts with the bits that act alone. -/
theorem State.regWrite_acts (hr : Table.rising s.regs = true) (hruled : r ∉ ruledRegs) (hwm : r ≠ .QUE_FELT_WM_STATUS)
    (hsh : s.shielded (regAddr r i j) = 0) (hrwi : rwiMask r = 0) (hw1c : w1cMask r = 0) (hbar : s.barred m r i v (s.rd r i j) = none)
    (href : ∀ f ∈ s.refusals r i v, ∀ k, f.1.getLsbD k = true → (s.rd r i j).getLsbD k = v.getLsbD k)
    (h : (v ^^^ s.rd r i j) &&& rwMask r = 0) :
    s.regWrite m r i j v codes bad = (s.wr r (s.rd r i j) i j).acted m r i v codes bad := by
  rw [State.regWrite_plain hruled hsh, State.writePlain_agreed hwm (by rw [hrwi]; simp [differs]) hbar href, stored_same hw1c h]
  unfold State.changed
  rw [State.rd_wr_same hr]
  dsimp only
  rw [if_pos rfl]

end Writes

section Acts
variable {s : State} {m i j : Nat} {v : Word}

/-- FLT_ACK stores nothing. -/
theorem State.regWrite_fltAck (hr : Table.rising s.regs = true) (hsh : s.shielded (regAddr .FLT_ACK 0 0) = 0) :
    s.regWrite m .FLT_ACK 0 0 v none false = (s.wr .FLT_ACK (s.rd .FLT_ACK)).acknowledge (bits v 0 5) := by
  have hbar : s.barred m .FLT_ACK 0 v (s.rd .FLT_ACK) = none := by
    unfold State.barred
    dsimp only
    split
    · rfl
    · exact if_neg fun h => absurd h.1 (by decide)
  refine State.regWrite_acts hr (by decide) (by decide) hsh (by decide) (by decide) hbar (fun f hf => by cases hf) ?_
  rw [show rwMask .FLT_ACK = 0 by decide]
  exact BitVec.and_zero

/-- FLT_CTL with its fields as they are only re-arms FLT_FIRST. -/
theorem State.regWrite_fltCtl (hr : Table.rising s.regs = true) (hsh : s.shielded (regAddr .FLT_CTL 0 0) = 0) (hv : bit v 31 = true)
    (h : (v ^^^ s.rd .FLT_CTL) &&& 0x71 = 0) :
    s.regWrite m .FLT_CTL 0 0 v none false =
      { s.wr .FLT_CTL (s.rd .FLT_CTL) with flt := { s.flt with firstFrozen := false } } := by
  have hbar : s.barred m .FLT_CTL 0 v (s.rd .FLT_CTL) = none := by
    unfold State.barred
    dsimp only
    split
    · rfl
    · exact if_neg fun h => absurd h.1 (by decide)
  have hmask : rwMask .FLT_CTL = 0x71 := by decide
  refine (State.regWrite_acts hr (by decide) (by decide) hsh (by decide) (by decide) hbar (fun f hf k hk => ?_) (by rw [hmask]; exact h)).trans (if_pos hv)
  rw [List.mem_singleton.1 hf] at hk
  have hbits : (maskOf 4 3).getLsbD k = true := by
    dsimp only at hk
    split at hk
    · exact hk
    · simp at hk
  have hin : (0x71 : Word).getLsbD k = true := by
    rw [show (0x71 : Word) = maskOf 4 3 ||| 1 by decide, BitVec.getLsbD_or, hbits, Bool.true_or]
  have hbit := congrArg (BitVec.getLsbD · k) h
  simp only [BitVec.getLsbD_and, BitVec.getLsbD_xor, hin, Bool.and_true] at hbit
  rw [show (0 : Word).getLsbD k = false from BitVec.getLsbD_zero] at hbit
  exact (bne_eq_false_iff_eq.1 hbit).symm

/-! ## Injection slots (R309) -/

theorem injMasks : rwMask .FLT_INJ_CTL = 0x5FFFFFFF ∧ rwiMask .FLT_INJ_CTL = 0 ∧ w1cMask .FLT_INJ_CTL = 0 ∧ actMask .FLT_INJ_CTL = 0xA0000000 := by decide

theorem State.barred_inj_test (h : s.dev.test = true) (old : Word) : s.barred m .FLT_INJ_CTL i v old = none := by
  unfold State.barred
  dsimp only
  rw [if_pos h]
  split <;> rfl

/-- Without TEST permission an injection slot refuses a write that fires. -/
theorem State.barred_inj_fire (h : s.dev.test = false) (hv : bit v 31 = true) (old : Word) : s.barred m .FLT_INJ_CTL i v old = some 0x006 := by
  have hact : v &&& actMask .FLT_INJ_CTL ≠ 0 := fun h0 => by
    have hbit := congrArg (BitVec.getLsbD · 31) h0
    rw [show actMask .FLT_INJ_CTL = 0xA0000000 by decide] at hbit
    simp only [BitVec.getLsbD_and, show v.getLsbD 31 = true from hv] at hbit
    exact absurd hbit (by decide)
  unfold State.barred
  dsimp only
  rw [decide_eq_true hact, Bool.or_true, if_neg (by simp)]
  exact if_neg (by rw [h]; exact Bool.false_ne_true)

/-- A write to an injection slot under TEST permission stores its fields and acts. -/
theorem State.regWrite_inj (hsh : s.shielded (regAddr .FLT_INJ_CTL j 0) = 0) (htest : s.dev.test = true) :
    s.regWrite m .FLT_INJ_CTL j 0 v none false =
      (s.wr .FLT_INJ_CTL ((s.rd .FLT_INJ_CTL j &&& ~~~ 0x5FFFFFFF) ||| (v &&& 0x5FFFFFFF)) j).acted m .FLT_INJ_CTL j v none false := by
  obtain ⟨hrw, hrwi, hw1c, -⟩ := injMasks
  have hstored : stored .FLT_INJ_CTL (s.rd .FLT_INJ_CTL j) v 0 = (s.rd .FLT_INJ_CTL j &&& ~~~ 0x5FFFFFFF) ||| (v &&& 0x5FFFFFFF) := by
    unfold stored
    rw [hw1c, hrw]
    dsimp only
    rw [keep_all, show v &&& (0 : Word) = 0 from BitVec.and_zero, keep_all]
  rw [State.regWrite_plain (by decide) hsh,
    State.writePlain_taken (by decide) (by rw [hrwi]; simp [differs]) (State.barred_inj_test htest _) (by intro f hf; cases hf), hstored]
  congr 1
  unfold State.changed
  dsimp only
  split <;> rfl

/-- A field of an injection slot after the write. -/
theorem State.fld_injWritten (hr : Table.rising s.regs = true) {f : Fld} (hf : f.reg = .FLT_INJ_CTL)
    (hin : ∀ i < f.len, (0x5FFFFFFF : Word).getLsbD (f.lo + i) = true) (old : Word) :
    (s.wr .FLT_INJ_CTL ((old &&& ~~~ 0x5FFFFFFF) ||| (v &&& 0x5FFFFFFF)) j).fld f j = bits v f.lo f.len := by
  unfold State.fld
  rw [hf, State.rd_wr_same hr]
  refine bits_congr fun i hi => ?_
  rw [BitVec.getLsbD_or, BitVec.getLsbD_and, BitVec.getLsbD_and, BitVec.getLsbD_not, hin i hi]
  simp

end Acts

end Sys2Proof.Machine
end

section
/-!
PROOFS. Acknowledgement, release and injected faults (R99, R298, R302, R305, R306, R309).
-/

namespace Sys2Proof.Machine

open Sys2Proof

section Slots
variable {s b e : State} {j n k t m : Nat} {v : Word}

theorem Record.acked_if (p : Bool) (r : Record) :
    (if p then { r with flags := { r.flags with acked := true } } else r).flags.acked = (r.flags.acked || p) := by
  cases p
  · exact (Bool.or_false _).symm
  · exact (Bool.or_true _).symm

/-- The records that an acknowledgement marks, where no release is held (R302). -/
theorem State.acknowledge_marks {u : State} {mask : Nat} (hmask : mask < 32) (hne : mask ≠ 0) (hheld : u.flt.held = false) :
    let e := u.acknowledge mask
    e = { u with flt := { u.flt with ring := e.flt.ring }, evm := { u.evm with asserted := u.evm.asserted ++ [⟨srcFault 11, 0, none, 0⟩] } } ∧
      e.flt.ring = u.flt.ring.map (fun r => if mask.testBit (r.det.cls - 1) && ! u.sameCycle.contains r.seq
        then { r with flags := { r.flags with acked := true } } else r) := by
  have h : u.acknowledge mask = (u.mapRecords (fun r => mask.testBit (r.det.cls - 1) && ! u.sameCycle.contains r.seq)
      fun r => { r with flags := { r.flags with acked := true } }).assertSrc (srcFault 11) := by
    unfold State.acknowledge
    rw [if_neg (by omega)]
    dsimp only
    rw [show (! (State.assertSrc (u.mapRecords _ _) (srcFault 11)).flt.held) = (! u.flt.held) from rfl, hheld]
    rfl
  rw [h]
  exact ⟨rfl, rfl⟩

/-- A condition of a slot that its clear bit ends. -/
theorem State.clearInj_shows (hinj : Table.rising s.flt.inj = true) : let e := s.clearInj j
    OnlyChanges [.flt] s e ∧ e.injOf j = { s.injOf j with active := false } ∧ Table.SameBut [j] s.flt.inj e.flt.inj ∧
      e.flt = { s.flt with ring := e.flt.ring, inj := e.flt.inj } ∧ e.flt.ring.map (fun r => (r.seq, r.det)) = s.flt.ring.map (fun r => (r.seq, r.det)) ∧
      ∀ r ∈ e.flt.ring, r.flags.condition = true → r.det.slot = some j → r.flags.cleared = true := by
  intro e
  refine ⟨.flt (.refl ..) (by decide) _, Table.get_put_same hinj, .put hinj _ _ _, rfl, ?_, fun r hr hcond hslot => ?_⟩
  · show (s.flt.ring.map _).map _ = _
    rw [List.map_map]
    refine List.map_congr_left fun r _ => ?_
    dsimp only [Function.comp]
    split <;> rfl
  · obtain ⟨q, hq, hqr⟩ := List.mem_map.1 hr
    split at hqr
    · rw [← hqr]
    · rename_i hp
      subst hqr
      by_contra hcl
      rw [Bool.not_eq_true] at hcl
      refine hp ?_
      dsimp only
      rw [hcond, hcl, decide_eq_true hslot]
      rfl

/-- A firing that is due is recorded as injected. -/
theorem State.injected_due {c : Nat} {sc : Scope} (hdue : (s.injOf j).due = some c)
    (hsc : scopeOf (s.fld f_FLT_INJ_CTL_scope j) (s.fld f_FLT_INJ_CTL_index j) = some sc) (hc : c ≤ s.cycle) :
    s.injected j = (s.setInj j { s.injOf j with due := none, active := (s.injOf j).active || s.on f_FLT_INJ_CTL_held j }).log
      { s.detect (s.fld f_FLT_INJ_CTL_code j) (s.fld f_FLT_INJ_CTL_class j) sc 0x1120 with
        access := 8, slot := some j, heldInj := s.on f_FLT_INJ_CTL_held j } := by
  unfold State.injected
  dsimp only
  rw [hdue, hsc]
  dsimp only
  exact if_neg (by omega)

/-- One that is not due waits. -/
theorem State.injected_early {c : Nat} {sc : Scope} (hdue : (s.injOf j).due = some c)
    (hsc : scopeOf (s.fld f_FLT_INJ_CTL_scope j) (s.fld f_FLT_INJ_CTL_index j) = some sc) (hc : s.cycle < c) : s.injected j = s := by
  unfold State.injected
  dsimp only
  rw [hdue, hsc]
  dsimp only
  exact if_pos hc

/-- The covering records of a channel all of which have reaction class 3. -/
theorem State.topReaction_channel {r : Record} (hf : Table.rising s.force = true) (hst : (s.forceOf n).st = .safe) (hr : r ∈ s.flt.ring)
    (hc : (n, r.seq) ∈ s.flt.cover) (h : ∀ r ∈ s.flt.ring, (n, r.seq) ∈ s.flt.cover → r.reaction = 3) : s.topReaction (.channel n) = 3 := by
  refine foldl_max_const (fun h0 => ?_) (by omega) fun q hq => ?_
  · have hmem := (State.mem_coverRecords hf hst r).2 ⟨hr, hc⟩
    rw [h0] at hmem
    cases hmem
  · obtain ⟨h1, h2⟩ := (State.mem_coverRecords hf hst q).1 hq
    exact h q h1 h2

end Slots

/-- Settles O55: a release by the records that cover its unit and by who lets it happen; the acting bits of FLT_ACK, FLT_INJ_CTL and FLT_CTL; the
detection of an injected fault. -/
theorem acknowledgeReleaseInject : Obligations.AcknowledgeReleaseInject := by
  intro s t m v hcan hpow
  obtain ⟨b, hb⟩ : ∃ b, s.begin t = b := ⟨_, rfl⟩
  have hcb : b.canonical := hb ▸ State.canonical_begin hcan t
  have hpor := hpow.1
  have hdev : b.dev = s.dev := by rw [← hb]; exact State.begin_dev ..
  have hregs : Table.rising b.regs = true := hcb.fine.regs
  have hforce : Table.rising b.force = true := hcb.fine.force
  have hinj : Table.rising b.flt.inj = true := hcb.fine.inj
  rw [hb]
  refine ⟨fun hans hsh hmask hheld => ?_, fun n x hn hx hst hq hsafe htile => ⟨?_, fun hcov => ⟨fun hsteps h5 hoff hack => ?_, ?_⟩⟩,
    fun k hk hq hsafe htile hoff hall => ?_, ?_, fun j hj hans hsh => ⟨fun htest hv31 hv29 h1 h5 hcode hsc => ?_, fun htest hv31 => ?_,
      fun htest hv29 hv31 hsame => ?_⟩, fun j c sc hj ho hcap hq hdue hsc h1 h2 hun => ⟨fun hc => ?_, fun hc => ?_⟩,
    fun hans hsh hv hsame => ?_, fun sc hsc => ⟨_, if_pos hsc⟩, fun j hj c hc => ?_⟩
  · have he := State.regWrite_fltAck (m := m) (v := v) hregs hsh
    obtain ⟨heq, hring⟩ := State.acknowledge_marks (u := b.wr .FLT_ACK (b.rd .FLT_ACK)) (bits_lt v 0 5) hmask hheld
    obtain ⟨e, hedef⟩ : ∃ e, e = (b.wr .FLT_ACK (b.rd .FLT_ACK)).acknowledge (bits v 0 5) := ⟨_, rfl⟩
    rw [← hedef] at he heq hring
    have heregs : e.regs = (b.wr .FLT_ACK (b.rd .FLT_ACK)).regs := by rw [heq]
    have hread : e.rd .FLT_ACK = b.rd .FLT_ACK := by
      have h := State.rd_wr_same hregs .FLT_ACK (b.rd .FLT_ACK) 0 0
      unfold State.rd at h ⊢
      rw [heregs]
      exact h
    have hflt : e.flt = { b.flt with ring := e.flt.ring } := by rw [heq]; rfl
    refine .registerWriteOn hb hpor hans rfl rfl he ?_ (by decide) ⟨rfl, ⟨?_, hread⟩, hflt, ?_, fun k r q hr hq => ?_, by rw [heq]; rfl⟩
    · have hwritten : OnlyChanges [.regs, .evm, .flt, .resp] b (b.wr .FLT_ACK (b.rd .FLT_ACK)) := .regs (.refl ..) (by decide) _
      have hmarked := OnlyChanges.flt hwritten (by decide) { b.flt with ring := e.flt.ring }
      rw [heq]
      exact hmarked.evm (by decide) _
    · show Table.SameBut _ b.regs e.regs
      rw [heregs]
      exact .put hregs _ _ _
    · show e.flt.ring.map _ = _
      rw [hring, List.map_map]
      refine List.map_congr_left fun r _ => ?_
      dsimp only [Function.comp]
      split <;> rfl
    · have hq' : e.flt.ring[k]? = some q := hq
      rw [hring, List.getElem?_map, show (b.wr .FLT_ACK (b.rd .FLT_ACK)).flt.ring[k]? = some r from hr] at hq'
      have hqr := Option.some.inj hq'
      have hmark : ((bits v 0 5).testBit (r.det.cls - 1) && ! b.sameCycle.contains r.seq) =
          (bit v (r.det.cls - 1) && decide (r.det.cls - 1 < 5) && ! b.sameCycle.contains r.seq) := by
        rw [bits_testBit, Nat.zero_add, Bool.and_comm (decide _)]
        rfl
      rw [← hqr, ← hmark]
      exact Record.acked_if _ r
  · rintro ⟨r, hr, hc, hbad⟩
    exact .runsOn hb hpor rfl (decide_eq_true hn) (State.release_restless hforce (hx ▸ hst) hq hr hc hbad) (.refl ..) trivial
  · have hst' : (b.forceOf n).st = .safe := hx ▸ hst
    have hquiet : b.quiet (.channel n) = true := (State.quiet_iff hq _).2 fun r hr => by
      obtain ⟨h1, h2⟩ := (State.mem_coverRecords hforce hst' r).1 hr
      obtain ⟨hcl, -, -, hqt⟩ := hcov r h1 h2
      exact ⟨hcl, by unfold ms; omega⟩
    obtain ⟨hframe, hxn, hsame, ⟨hcover, hrel, hseq, hrec⟩, hcount, hdk, hrs, hg, hev⟩ := State.makeRelease_zeroed hcb hx hst hsteps h5 hoff
    have he := State.release_acked (State.isUnit_channel hforce hst' hsafe htile) hquiet fun r hr =>
      hack r ((State.mem_coverRecords hforce hst' r).1 hr).1 ((State.mem_coverRecords hforce hst' r).1 hr).2
    refine .runsOn hb hpor rfl (decide_eq_true hn) he hframe ?_
    dsimp only
    rw [hxn]
    exact ⟨rfl, rfl, rfl, rfl, rfl, h5, rfl, rfl, hsame, hcover, hrel, hseq, hrec, hcount, hdk, hrs, hg, hev⟩
  · rintro ⟨r, hr, hc, hun⟩
    have hst' : (b.forceOf n).st = .safe := hx ▸ hst
    have hquiet : b.quiet (.channel n) = true := (State.quiet_iff hq _).2 fun r hr => by
      obtain ⟨h1, h2⟩ := (State.mem_coverRecords hforce hst' r).1 hr
      obtain ⟨hcl, -, -, hqt⟩ := hcov r h1 h2
      exact ⟨hcl, by unfold ms; omega⟩
    have hunit := State.isUnit_channel hforce hst' hsafe htile
    have hmem := (State.mem_coverRecords hforce hst' r).2 ⟨hr, hc⟩
    have htop := State.topReaction_channel hforce hst' hr hc fun r h1 h2 => (hcov r h1 h2).2.1
    have hone := State.countedFor_channel hforce hst'
    refine ⟨fun hen => ?_, fun hen => ?_⟩
    · exact .runsOn hb hpor rfl (decide_eq_true hn) (State.release_waits hunit hquiet hmem hun (by rw [htop]; exact hen)) (.refl ..) trivial
    have hauto := State.release_auto hunit hquiet hmem hun htop hen fun r hr => by
      obtain ⟨h1, h2⟩ := (State.mem_coverRecords hforce hst' r).1 hr
      exact (hcov r h1 h2).2.2.1
    simp only [hone, List.any_cons, List.any_nil, Bool.or_false, decide_eq_true_eq] at hauto
    refine ⟨fun hlim hsteps h5 => ?_, fun hlim ⟨q, hqr, hqc, hqh⟩ => ?_⟩
    · rw [if_neg (by omega)] at hauto
      obtain ⟨u, hu⟩ : ∃ u, u = b.marked [.channel n] := ⟨_, rfl⟩
      have huf : u.force = b.force := by rw [hu]; rfl
      have hucan : u.canonical := hu ▸ hcb
      rw [← hu] at hauto
      obtain ⟨hframe, hxn, hsame, ⟨hcover, hrel, -, -⟩, hrecov, hev⟩ := State.makeRelease_ranging hucan (x := x) (by rw [hu]; exact hx) hst hsteps h5
      have hmark : OnlyChanges releaseParts b u := hu ▸ OnlyChanges.flt (.refl ..) (by decide) _
      refine .runsOn hb hpor rfl (decide_eq_true hn) hauto (hmark.trans hframe) ?_
      rw [hxn]
      exact ⟨rfl, rfl, rfl, by rw [hu]; rfl, huf ▸ hsame, by rw [hrel, hu]; rfl, by rw [hrecov, hu]; rfl, by rw [hcover, hu]; rfl, hev⟩
    · rw [if_pos (by omega), if_neg fun h => by
        have h' := List.all_eq_true.1 h q ((State.mem_coverRecords hforce hst' q).2 ⟨hqr, hqc⟩)
        rw [hqh] at h'
        exact Bool.noConfusion h'] at hauto
      obtain ⟨hframe, hP⟩ := State.holdBack_shows hforce hst'
      exact .runsOn hb hpor rfl (decide_eq_true hn) hauto hframe hP
  · obtain ⟨hframe, hP⟩ := State.makeRelease_tile hcb hk htile hoff
    have hunit : b.isUnit (.tile k) = true := by
      show (! b.flt.deviceSafe && b.flt.tileSafe.testBit k) = true
      rw [hsafe, htile]
      rfl
    have hin {r : Record} (hr : r ∈ b.coverRecords (.tile k)) : r ∈ b.flt.ring := (List.mem_filter.1 hr).1
    have hquiet : b.quiet (.tile k) = true := (State.quiet_iff hq _).2 fun r hr => by
      obtain ⟨hcl, -, hqt⟩ := hall r (hin hr)
      exact ⟨hcl, by unfold ms; omega⟩
    exact .runsOn hb hpor rfl (decide_eq_true hk) (State.release_acked hunit hquiet fun r hr => (hall r (hin hr)).2.1) hframe hP
  · exact .runsOn (ok := true) hb hpor rfl rfl rfl (.flt (.refl ..) (by decide) _) rfl
  · obtain ⟨w, hw⟩ : ∃ w, w = (b.rd .FLT_INJ_CTL j &&& ~~~ 0x5FFFFFFF) ||| (v &&& 0x5FFFFFFF) := ⟨_, rfl⟩
    obtain ⟨u, hu⟩ : ∃ u, u = b.wr .FLT_INJ_CTL w j := ⟨_, rfl⟩
    have hwrite := State.regWrite_inj (s := b) (m := m) (v := v) hsh (hdev ▸ htest)
    rw [← hw, ← hu] at hwrite
    have hfld {f : Fld} (hf : f.reg = .FLT_INJ_CTL) (hin : ∀ i < f.len, (0x5FFFFFFF : Word).getLsbD (f.lo + i) = true) :
        u.fld f j = bits v f.lo f.len := by
      rw [hu, hw]
      exact State.fld_injWritten hregs hf hin _
    have hcls : u.fld f_FLT_INJ_CTL_class j = bits v 26 3 := hfld rfl (by decide)
    have hfire : u.fireInj m 2 j =
        (u.setInj j { u.injOf j with fires := ((u.injOf j).fires + 1) % 65536, due := some (u.cycle + 1) }).assertSrc (srcFault (12 + j)) := by
      refine State.fireInj_fires (by rw [hu]; exact hdev ▸ htest) (hcls ▸ h1) (hcls ▸ h5) ?_ ?_
      · rw [hfld (f := f_FLT_INJ_CTL_scope) rfl (by decide), hfld (f := f_FLT_INJ_CTL_index) rfl (by decide)]
        exact Option.isSome_iff_ne_none.1 hsc
      · rw [hfld (f := f_FLT_INJ_CTL_code) rfl (by decide)]
        exact hcode
    have he : b.regWrite m .FLT_INJ_CTL j 0 v none false = u.fireInj m 2 j := by
      rw [hwrite]
      unfold State.acted
      dsimp only
      rw [hv31, hv29]
      rfl
    rw [hfire] at he
    refine .registerWriteOn hb hpor hans rfl (decide_eq_true hj) he ?_ (by decide) ⟨rfl, ?_, ?_, ?_, ?_, ?_, ?_⟩
    · have hwritten : OnlyChanges [.regs, .evm, .flt, .resp] b u := hu ▸ OnlyChanges.regs (.refl ..) (by decide) _
      exact OnlyChanges.evm (hwritten.flt (by decide) _) (by decide) _
    · rw [← hw]
      have h := State.rd_wr_same hregs .FLT_INJ_CTL w j 0
      rw [← hu] at h
      exact h
    · show Table.SameBut _ b.regs u.regs
      rw [hu]
      exact .put hregs _ _ _
    · rw [hu]
      exact Table.get_put_same hinj
    · rw [hu]
      exact .put hinj _ _ _
    · rw [hu]
      rfl
    · rw [hu]
      rfl
  · have hbar := State.barred_inj_fire (s := b) (m := m) (i := j) (hdev ▸ htest) hv31 (b.rd .FLT_INJ_CTL j)
    have he : b.regWrite m .FLT_INJ_CTL j 0 v none false = b.accessFault 0x006 1 .none m 2 (regAddr .FLT_INJ_CTL j 0) := by
      rw [State.regWrite_plain (by decide) hsh]
      unfold State.writePlain
      dsimp only
      have hno : differs (b.rd .FLT_INJ_CTL j) v (rwiMask .FLT_INJ_CTL) = false := by rw [injMasks.2.1]; simp [differs]
      rw [hno, if_neg Bool.false_ne_true, if_neg (by decide), hbar]
      rfl
    exact .registerWriteOn hb hpor hans rfl (decide_eq_true hj) he (.accessFault (.refl ..) (by decide) ..) (by decide) rfl
  · obtain ⟨u, hu⟩ : ∃ u, u = b.wr .FLT_INJ_CTL (b.rd .FLT_INJ_CTL j) j := ⟨_, rfl⟩
    obtain ⟨hrw, hrwi, hw1c, -⟩ := injMasks
    have hwrite := State.regWrite_acts (m := m) (codes := none) (bad := false) hregs (by decide) (by decide) hsh hrwi hw1c
      (State.barred_inj_test (hdev ▸ htest) _) (fun f hf => by cases hf) (by rw [hrw]; exact hsame)
    have he : b.regWrite m .FLT_INJ_CTL j 0 v none false = u.clearInj j := by
      rw [hwrite, ← hu]
      unfold State.acted
      dsimp only
      rw [hv31, hv29]
      rfl
    obtain ⟨hframe, hn, hsm, hflt, hmap, hcl⟩ := State.clearInj_shows (s := u) (j := j) (by rw [hu]; exact hinj)
    have hframe' : OnlyChanges [.regs, .flt, .resp] b (u.clearInj j) :=
      OnlyChanges.trans (by rw [hu]; exact OnlyChanges.regs (.refl ..) (by decide) _) (hframe.mono (by decide))
    have hureg : (u.clearInj j).regs = u.regs := rfl
    have huflt : u.flt = b.flt := by rw [hu]; rfl
    rw [huflt] at hsm hflt hmap
    refine .registerWriteOn hb hpor hans rfl (decide_eq_true hj) he hframe' (by decide) ⟨rfl, ⟨?_, ?_⟩, ?_, hsm, hflt, hmap, hcl⟩
    · show Table.SameBut _ b.regs u.regs
      rw [hu]
      exact .put hregs _ _ _
    · have h := State.rd_wr_same hregs .FLT_INJ_CTL (b.rd .FLT_INJ_CTL j) j 0
      rw [← hu] at h
      exact h
    · refine hn.trans ?_
      unfold State.injOf
      rw [huflt]
  · exact .runsOn hb hpor rfl (decide_eq_true hj) (State.injected_early hdue hsc hc) (.refl ..) trivial
  · obtain ⟨u, hu⟩ : ∃ u, u = b.setInj j { b.injOf j with due := none, active := (b.injOf j).active || b.on f_FLT_INJ_CTL_held j } := ⟨_, rfl⟩
    obtain ⟨d, hd⟩ : ∃ d, d = { b.detect (b.fld f_FLT_INJ_CTL_code j) (b.fld f_FLT_INJ_CTL_class j) sc 0x1120 with
        access := 8, slot := some j, heldInj := b.on f_FLT_INJ_CTL_held j } := ⟨_, rfl⟩
    have he := State.injected_due hdue hsc hc
    rw [← hu, ← hd] at he
    have hcls : d.cls = b.fld f_FLT_INJ_CTL_class j := by rw [hd]; rfl
    have hur : Table.rising u.regs = true := by rw [hu]; exact hregs
    have huo : u.que.overFelt ≠ some (u.fld f_QUE_AGENT_CTL_felt 20) := by rw [hu]; exact ho
    have hun' : ∀ r ∈ u.unacked, r.det.cls ≠ d.cls := by rw [hcls, hu]; exact hun
    obtain ⟨hframe, hrec, ⟨ring, fst, frozen, hflt⟩, hrs⟩ := State.capture_minor hur huo (by omega) hun'
    have hlog := State.log_minor hur huo (by omega) hun' (by rw [hu]; exact hcap) (by rw [hu]; exact hq)
    rw [hlog] at he
    have hfirst : OnlyChanges [.regs, .evm, .que, .memc, .vat, .flt, .cal] b u := hu ▸ OnlyChanges.flt (.refl ..) (by decide) _
    refine .runsOn hb hpor rfl (decide_eq_true hj) he (hfirst.trans hframe) ⟨?_, ?_, ?_, ?_⟩
    · rw [← hd]
      rw [hu] at hrec ⊢
      exact hrec
    · unfold State.injOf
      rw [hflt, hu]
      exact Table.get_put_same hinj
    · rw [hflt, hu]
      exact .put hinj _ _ _
    · rw [hu] at hrs ⊢
      exact hrs
  · have he := State.regWrite_fltCtl (m := m) hregs hsh hv hsame
    exact .registerWriteOn hb hpor hans rfl rfl he (OnlyChanges.flt (OnlyChanges.regs (.refl ..) (by decide) _) (by decide) _) (by decide)
      ⟨rfl, ⟨.put hregs _ _ _, State.rd_wr_same hregs ..⟩, rfl⟩
  · simp only [List.mem_cons, List.not_mem_nil, or_false] at hc
    rcases hc with rfl | rfl | rfl | rfl | rfl | rfl
    · exact ⟨_, rfl⟩
    · exact ⟨_, rfl⟩
    · exact ⟨_, if_pos (decide_eq_true hj)⟩
    · exact ⟨_, if_pos (decide_eq_true hj)⟩
    · exact ⟨_, if_pos (decide_eq_true hj)⟩
    · exact ⟨_, rfl⟩

end Sys2Proof.Machine
end

section
/-!
PROOFS. What leaves the slice steps alone: the collector's reactions, and with them every fault, neither queue nor begin nor end a slice step, and
retire no slice (R290 to R304, R319, R334).
-/

namespace Sys2Proof.Machine

open Sys2Proof

/-- From `c` to `d` no slice step is queued, begun or ended, no run begins or ends, and no slice is retired. -/
structure StepsKept (c d : Cal) : Prop where
  queue : d.queue = c.queue
  current : d.current = c.current
  running : d.running = c.running
  slices : Table.rising c.slices = true → Table.rising d.slices = true ∧
    ∀ i, (Table.get (Slice.reset i) i c.slices).st ≠ .retired → (Table.get (Slice.reset i) i d.slices).st ≠ .retired

section Kept
variable {b c d : Cal}

theorem StepsKept.refl (c : Cal) : StepsKept c c := ⟨rfl, rfl, rfl, fun h => ⟨h, fun _ h => h⟩⟩

/-- The later part of a way, and the earlier one. -/
theorem StepsKept.after (h : StepsKept c d) (g : StepsKept b c) : StepsKept b d :=
  ⟨h.queue.trans g.queue, h.current.trans g.current, h.running.trans g.running, fun hr =>
    have hg := g.slices hr
    have hh := h.slices hg.1
    ⟨hh.1, fun i hi => hh.2 i (hg.2 i hi)⟩⟩

/-- The other figures of the calibration do not matter. -/
theorem StepsKept.frame (hq : d.queue = c.queue) (hc : d.current = c.current) (hr : d.running = c.running) (hs : d.slices = c.slices) : StepsKept c d :=
  ⟨hq, hc, hr, fun h => by rw [hs]; exact ⟨h, fun _ h => h⟩⟩

theorem StepsKept.of_eq (h : d = c) : StepsKept c d := h ▸ .refl c

theorem StepsKept.each {α : Type} {g : α → State → State} (h : ∀ x s, StepsKept s.cal (g x s).cal) : ∀ (l : List α) (s : State),
    StepsKept s.cal (s.each l g).cal
  | [], _ => .refl _
  | x :: l, s => (StepsKept.each h l (g x s)).after (h x s)

theorem StepsKept.ite {p : Prop} [Decidable p] {x y : State} (hx : StepsKept c x.cal) (hy : StepsKept c y.cal) :
    StepsKept c (if p then x else y).cal := by
  split
  · exact hx
  · exact hy

end Kept

section Reactions
variable (s : State)

/-- A slice that stays as it is, or out of retirement. -/
theorem State.steps_setSlice {i : Nat} {x : Slice} (h : (s.sliceOf i).st ≠ .retired → x.st ≠ .retired) : StepsKept s.cal (s.setSlice i x).cal := by
  refine ⟨rfl, rfl, rfl, fun hr => ⟨Table.rising_put hr, fun j hj => ?_⟩⟩
  by_cases hij : j = i
  · subst hij
    rw [show Table.get (Slice.reset j) j (s.setSlice j x).cal.slices = x from Table.get_put_same hr]
    exact h hj
  · rw [show Table.get (Slice.reset j) j (s.setSlice i x).cal.slices = Table.get (Slice.reset j) j s.cal.slices from Table.get_put_other hij hr]
    exact hj

theorem State.steps_sliceFreed (i : Nat) : StepsKept s.cal (s.sliceFreed i).cal := by
  unfold State.sliceFreed
  split
  · exact .frame rfl rfl rfl rfl
  · exact .refl _

theorem State.steps_abandonCouch (t : Nat) : StepsKept s.cal (s.abandonCouch t false).cal := by
  obtain ⟨u, hu⟩ : ∃ u : State, u = s.setSlice (t * 68 + (s.couchOf t).slice)
      { s.sliceOf (t * 68 + (s.couchOf t).slice) with st := .free, channel := 0x3FF, bridge := none } := ⟨_, rfl⟩
  have h1 : StepsKept s.cal u.cal := hu ▸ s.steps_setSlice fun _ => SliceState.noConfusion
  have h2 := (u.steps_sliceFreed (t * 68 + (s.couchOf t).slice)).after h1
  unfold State.abandonCouch
  dsimp only [State.iff, Bool.not_false]
  rw [if_neg Bool.false_ne_true, if_pos (show (! false) = true from rfl), ← hu]
  have h3 (x : Couch) : StepsKept s.cal ((u.sliceFreed (t * 68 + (s.couchOf t).slice)).setCouch t x).cal := by
    have h : StepsKept (u.sliceFreed (t * 68 + (s.couchOf t).slice)).cal ((u.sliceFreed (t * 68 + (s.couchOf t).slice)).setCouch t x).cal :=
      .frame rfl rfl rfl rfl
    exact h.after h2
  split
  · exact h3 _
  · refine StepsKept.after (State.steps_setSlice _ ?_) (h3 _)
    exact fun h => h

theorem State.steps_enterSafe (n : Nat) (opens : Bool) : StepsKept s.cal (s.enterSafe n opens).cal := by
  unfold State.enterSafe
  dsimp only
  split
  · exact .refl _
  split
  · exact .refl _
  obtain ⟨v, hv⟩ : ∃ v, v = (((s.wr .CH_DECKLE (s.rd .CH_DECKLE_DEFAULT n) n).setForce n
    ((s.forceOf n).zeroScale (s.rd .CH_DECKLE_DEFAULT n) s.now opens)).recovered n).haltEngine n 6 := ⟨_, rfl⟩
  have hcal : v.cal = s.cal := by
    rw [hv]
    exact ((State.keeps_haltEngine (Within.refl _) (.refl _) n 6).cal rfl).trans ((State.keeps_recovered (Within.refl _) (.refl _) n).cal rfl)
  rw [← hv]
  split
  · exact (State.steps_abandonCouch _ _).after (.of_eq hcal)
  · exact .of_eq hcal

theorem State.steps_react (cls : Nat) (sc : Scope) (code seq : Nat) : StepsKept s.cal (s.react cls sc code seq).cal := by
  unfold State.react
  split
  · exact .refl _
  have hcover (n q : Nat) (s : State) : (s.addCover n q).cal = s.cal := (State.keeps_addCover (Within.refl _) (.refl _) n q).cal rfl
  have htile (t : Nat) (s : State) : (s.enterTileSafe t).cal = s.cal := (State.keeps_enterTileSafe (Within.refl _) (.refl _) t).cal rfl
  have h1 := StepsKept.each (g := fun t s => (s.addCover (512 + t) seq).enterTileSafe t) (fun t s => .of_eq ((htile t _).trans (hcover ..)))
    (reactTiles cls sc) s
  have h2 (s : State) : StepsKept s.cal (if cls = 3 then s.each (State.attachedIn s (reactRange cls sc).1 (reactRange cls sc).2)
      fun n s => s.addCover n seq else s).cal := by
    split
    · exact StepsKept.each (fun n s => .of_eq (hcover n seq s)) _ s
    · exact .refl _
  dsimp only
  refine (StepsKept.each (fun n s => s.steps_enterSafe n _) _ _).after ?_
  have h3 (s : State) : StepsKept s.cal (if cls = 5 then { s with flt := { s.flt with deviceSafe := true } } else s).cal := by
    split <;> exact .refl _
  refine (h3 _).after (StepsKept.after ?_ h1)
  split
  · exact StepsKept.each (fun n s => .of_eq (hcover n seq s)) _ _
  · exact .refl _

theorem State.steps_countBFault (d : Detect) : StepsKept s.cal (s.countBFault d).cal := by
  unfold State.countBFault
  split
  · split
    · exact .refl _
    dsimp only
    refine .ite (StepsKept.after (State.steps_setSlice _ ?_) (.frame rfl rfl rfl rfl)) (.frame rfl rfl rfl rfl)
    exact fun h => h
  · exact .refl _

theorem State.steps_recur (r : Record) (d : Detect) : StepsKept s.cal (s.recur r d).cal :=
  (State.steps_react _ _ _ _ _).after (.refl _)

theorem State.faultItem_cal (d : Detect) : (s.faultItem d).cal = s.cal := (State.keeps_faultItem (Within.refl _) (.refl _) d).cal rfl

theorem State.pruneRing_cal : s.pruneRing.cal = s.cal := rfl

theorem State.mapRecords_cal (p : Record → Bool) (g : Record → Record) : (s.mapRecords p g).cal = s.cal := rfl

theorem State.steps_captureNew (d : Detect) : StepsKept s.cal (s.captureNew d).cal := by
  have hfiled (u : State) (cls seq : Nat) (h : StepsKept s.cal u.cal) : StepsKept s.cal ((u.faultItem d).react cls d.scope d.code seq).cal :=
    (State.steps_react ..).after ((StepsKept.of_eq (u.faultItem_cal d)).after h)
  have hfirst (u : State) (r : Record) : (u.freezeFirst r).cal = u.cal := (State.keeps_freezeFirst (Within.refl _) (.refl _) r).cal rfl
  have hcount (p : Prop) [Decidable p] : (if p then s.tally f_FLT_LOST_overwritten else s).cal = s.cal := by split <;> rfl
  unfold State.captureNew
  dsimp only
  refine .ite ((StepsKept.each (fun q s => s.steps_react ..) _ _).after (hfiled _ _ _ (.ite ?_ ?_))) (hfiled _ _ _ (.ite ?_ ?_)) <;>
    simp only [State.assertSrc_cal, hfirst, State.pruneRing_cal, State.mapRecords_cal, hcount] <;>
    exact .refl _

theorem State.steps_capture (d : Detect) : StepsKept s.cal (s.capture d).cal := by
  unfold State.capture
  dsimp only
  split
  · exact (State.steps_recur ..).after (s.steps_countBFault d)
  · exact (State.steps_captureNew ..).after (s.steps_countBFault d)

theorem State.steps_collect : ∀ (k : Nat) (s : State), StepsKept s.cal (State.collect k s).cal
  | 0, _ => .refl _
  | k + 1, s => by
    unfold State.collect
    split
    · exact .refl _
    · split
      · exact (State.steps_collect k _).after ((State.steps_capture _ _).after (.refl _))
      · exact .refl _

theorem State.steps_log (d : Detect) : StepsKept s.cal (s.log d).cal := by
  unfold State.log
  refine (State.steps_collect 4 _).after ?_
  split
  · exact s.steps_capture d
  · exact (State.steps_react ..).after (.of_eq ((State.keeps_queueDetect (Within.refl _) (.refl _) d).cal rfl))

theorem State.steps_fault (code cls : Nat) (sc : Scope) (m : Nat) : StepsKept s.cal (s.fault code cls sc m).cal := s.steps_log _

theorem State.steps_accessFault (code cls : Nat) (sc : Scope) (m access a : Nat) : StepsKept s.cal (s.accessFault code cls sc m access a).cal :=
  s.steps_log _

theorem State.steps_agentItem (a kind : Nat) (value : DWord) (raw : Word) : StepsKept s.cal (s.agentItem a kind value raw).cal := by
  have h := (State.keeps_agentWrite (Within.refl _) (.refl s) a kind value raw s.raster s.abs 0).cal rfl
  unfold State.agentItem
  dsimp only
  split
  · exact (State.steps_fault ..).after (.of_eq h)
  · exact .of_eq h

end Reactions

end Sys2Proof.Machine
end

section
/-!
PROOFS. Accesses to the stack, results and sweeps leave the slice steps alone (R149, R185, R239 to R253, R319).
-/

namespace Sys2Proof.Machine

open Sys2Proof

/-- What does not change the calibration at all. -/
theorem StepsKept.calm {F : Nat} {s u : State} (k : Keeps F s u) (hF : F.testBit 18 = false) : StepsKept s.cal u.cal := .of_eq (k.cal hF)

/-! ## The stack -/

section Stack
variable (s : State)

theorem State.steps_memFault (code cls : Nat) (sc : Scope) (m access a : Nat) : StepsKept s.cal (s.memFault code cls sc m access a).cal := s.steps_log _

theorem State.steps_memNotice (m pc bank port : Nat) : StepsKept s.cal (s.memNotice m pc bank port).cal :=
  (State.steps_agentItem ..).after (.refl _)

theorem State.steps_rowError (port a : Nat) : StepsKept s.cal (s.rowError port a).cal := by
  unfold State.rowError
  dsimp only
  exact .ite (.refl _) (.ite (.refl _) (.ite (.refl _) ((State.steps_memFault ..).after (.refl _))))

theorem State.steps_uncorrectable (p a : Nat) : StepsKept s.cal (s.uncorrectable p a).cal :=
  (State.steps_rowError ..).after ((State.steps_memNotice ..).after (.refl _))

theorem State.steps_repaired (p a : Nat) (good : List Byte) : StepsKept s.cal (s.repaired p a good).cal := by
  have h : StepsKept s.cal (s.writeHbm a good).cal := .calm (State.keeps_writeHbm (Within.refl _) good (.refl s) a) rfl
  exact (State.steps_rowError ..).after ((State.steps_memFault ..).after ((State.steps_memNotice ..).after h))

theorem State.steps_checkBurst (p a len : Nat) (bad copyBad : Bool) : StepsKept s.cal (s.checkBurst p a len bad copyBad).1.cal := by
  unfold State.checkBurst
  split
  · exact .refl _
  split
  · split
    · exact (State.steps_rowError ..).after ((State.steps_uncorrectable ..).after (.refl _))
    · exact State.steps_repaired ..
  · exact (State.steps_uncorrectable ..).after (.refl _)

theorem State.steps_checkRead (p a len : Nat) (bad copyBad : List Nat) : StepsKept s.cal (s.checkRead p a len bad copyBad).1.cal := by
  unfold State.checkRead
  refine List.foldlRecOn (motive := fun r : State × List Nat => StepsKept s.cal r.1.cal) _ _ (.refl _) fun r hr i _ => ?_
  dsimp only
  split
  · exact hr
  · exact (State.steps_checkBurst ..).after hr

theorem State.steps_lostCheck (m a len : Nat) : StepsKept s.cal (s.lostCheck m a len).cal := by
  unfold State.lostCheck
  split
  · exact (State.steps_memFault ..).after (.refl _)
  · exact .refl _

theorem State.openRow_cal (p a : Nat) : (s.openRow p a).cal = s.cal := rfl

theorem State.throttleRow_cal (p a : Nat) : (s.throttleRow p a).cal = s.cal := rfl

theorem State.steps_activateRow (p a : Nat) : StepsKept s.cal (s.activateRow p a).cal := by
  have h : StepsKept s.cal s.rhRoll.cal := .calm (State.keeps_rhRoll (Within.refl _) (.refl s)) rfl
  have hopen : StepsKept s.cal (s.rhRoll.openRow p a).cal := by rw [State.openRow_cal]; exact h
  have hrow : StepsKept s.cal ((s.rhRoll.openRow p a).throttleRow p a).cal := by rw [State.throttleRow_cal]; exact hopen
  rw [State.activateRow_eq]
  exact .ite ((State.steps_memFault ..).after ((State.steps_memNotice ..).after hrow)) hopen

theorem State.steps_rowAccess (p a : Nat) : StepsKept s.cal (s.rowAccess p a).cal := by
  have h : StepsKept s.cal (if (s.bankOf (bankKey a)).row = some (rowOf a) then s else s.activateRow p a).cal := .ite (.refl _) (s.steps_activateRow p a)
  exact h

theorem State.steps_leaveRetention : StepsKept s.cal s.leaveRetention.cal := (State.steps_memNotice ..).after (.refl _)

theorem State.steps_memAccess (p a len : Nat) : StepsKept s.cal (s.memAccess p a len).cal := by
  have h : StepsKept s.cal (State.each (if s.memc.st = .retention then s.leaveRetention else s) (blocksOf a len) fun b s => s.rowAccess p b).cal :=
    (StepsKept.each (fun b s => s.steps_rowAccess p b) _ _).after (.ite s.steps_leaveRetention (.refl _))
  exact h

theorem State.steps_issueReq (r : MReq) : StepsKept s.cal (s.issueReq r).cal := by
  unfold State.issueReq
  dsimp only
  refine .ite ?_ (s.steps_rowAccess r.port r.addr)
  exact (StepsKept.calm (State.keeps_memDone (Within.refl _) (.refl _) r) rfl).after
    ((StepsKept.calm (State.keeps_memWrite (Within.refl _) r.data (.refl _) r.addr) rfl).after (s.steps_rowAccess r.port r.addr))

theorem State.steps_portOrder (p a len : Nat) : StepsKept s.cal (s.portOrder p a len).cal :=
  StepsKept.each (fun r s => s.steps_issueReq r) _ _

theorem State.steps_memRead (m p a len : Nat) (bad : List Nat) : StepsKept s.cal (s.memRead m p a len bad).1.cal :=
  (State.steps_lostCheck ..).after ((State.steps_checkRead ..).after ((State.steps_memAccess ..).after (s.steps_portOrder p a len)))

theorem State.steps_descRead (p r k : Nat) (bad : Bool) : StepsKept s.cal (s.descRead p r k bad).1.cal := by
  unfold State.descRead
  split
  · exact .refl _
  · exact (State.steps_memRead ..).after (.calm (State.keeps_memArrive (Within.refl _) (.refl s)) rfl)

end Stack

/-! ## Sweeps and results -/

section Channels
variable (s : State) (n : Nat)

theorem State.steps_selectList : StepsKept s.cal (s.selectList n).cal :=
  (StepsKept.calm (State.keeps_useList (Within.refl _) (.refl _) n _ _) rfl).after (s.steps_descRead 0 0 _ false)

theorem State.steps_reprime : StepsKept s.cal (s.reprime n).cal := by
  have h (p : Priming) : StepsKept s.cal ((s.selectList n).setEng n
      { (s.selectList n).engOf n with priming := some p, plan := [], marks := [] }).cal := s.steps_selectList n
  unfold State.reprime
  dsimp only
  split
  · exact .ite (h _) (.refl _)
  · exact h _
  · split
    · exact h _
    · exact .ite (.refl _) (h _)
  · exact .refl _

theorem State.steps_stuffWrite (felt : Nat) (it : Item) : StepsKept s.cal (s.stuffWrite n felt it).cal := by
  have hfill (p : Prop) [Decidable p] : StepsKept s.cal (if p then { s with que := { s.que with overStuff := none } } else s).cal :=
    .ite (.refl _) (.refl _)
  have hslices (p : Prop) [Decidable p] (i : Nat) : (if p then { s with que := { s.que with overStuff := none } } else s).sliceOf i = s.sliceOf i := by
    split <;> rfl
  unfold State.stuffWrite
  dsimp only
  refine .ite ?_ (.ite ((State.steps_fault ..).after (hfill _)) (hfill _))
  refine StepsKept.after (State.steps_setSlice _ ?_) (hfill _)
  rw [hslices]
  exact fun h => h

theorem State.steps_emit (l : List Int) (cut : Bool) : StepsKept s.cal (s.emit n l cut).cal := by
  have hmonitor (u : State) (v : DWord) : StepsKept u.cal (u.monitor n v).cal := .calm (State.keeps_monitor (Within.refl _) (.refl u) n v) rfl
  have hrange (u : State) (high low : Bool) : StepsKept u.cal (u.autorangeResult n high low).cal :=
    .calm (State.keeps_autorangeResult (Within.refl _) (.refl u) n high low) rfl
  have hstick (u : State) (b : Bool) (f : Fld) (i : Nat) : StepsKept u.cal (u.stickIf b f i).cal := by
    unfold State.stickIf
    exact .ite (.refl _) (.refl _)
  have hmark (u : State) (p : Prop) [Decidable p] (k : Nat) : StepsKept u.cal (if p then u.assertSrc k else u).cal := .ite (.refl _) (.refl _)
  unfold State.emit
  dsimp only
  refine .ite ((State.steps_stuffWrite ..).after ((hmark _ _ _).after ?_)) ((hmark _ _ _).after ?_) <;>
  · refine .ite (.ite ?_ ((hrange _ _ _).after ?_)) ?_ <;>
    exact StepsKept.ite ((hmonitor _ _).after ((hstick _ _ _ _).after (.refl _))) ((hstick _ _ _ _).after (.refl _))

theorem State.steps_cutShort (codes : List Int) : StepsKept s.cal (s.cutShort n codes).cal := by
  unfold State.cutShort
  dsimp only
  refine .ite (.refl _) (StepsKept.ite (x := s) (.refl _) ((State.steps_emit ..).after (.calm (keeps_freeCodes (Within.refl _) _ (.refl s)) rfl)))

theorem State.steps_enableCleared (codes : List Int) : StepsKept s.cal (s.enableCleared n codes).cal := by
  unfold State.enableCleared
  dsimp only
  refine .ite (.refl _) ?_
  have h := s.steps_cutShort n codes
  exact .ite h (.ite h ((StepsKept.calm (State.keeps_startAtSlot (Within.refl _) (.refl _) n _) rfl).after h))

theorem State.steps_clearEnable (codes : Option (List Int)) : StepsKept s.cal (s.clearEnable n codes).cal :=
  (State.steps_enableCleared ..).after ((StepsKept.calm (State.keeps_haltEngine (Within.refl _) (.refl _) n 5) rfl).after
    ((StepsKept.calm (State.keeps_disableForce (Within.refl _) (.refl _) n) rfl).after
      (.calm (State.keeps_cutCodes (Within.refl _) (.refl s) n codes) rfl)))

theorem State.steps_measCtlChanged (codes : Option (List Int)) (old : Word) : StepsKept s.cal (s.measCtlChanged n codes old).cal := by
  have hclear (u : State) : StepsKept u.cal (u.autorangeCleared n old).cal := .calm (State.keeps_autorangeCleared (Within.refl _) (.refl u) n old) rfl
  have hfresh (u : State) : StepsKept u.cal (u.autorangeFresh n).cal := .calm (State.keeps_autorangeFresh (Within.refl _) (.refl u) n) rfl
  have hlow (u : State) : StepsKept u.cal (u.lowPowerChanged n).cal := .calm (State.keeps_lowPowerChanged (Within.refl _) (.refl u) n) rfl
  have hstart (u : State) : StepsKept u.cal (u.startSeq n).cal := .calm (State.keeps_startSeq (Within.refl _) (.refl u) n) rfl
  have hstop (u : State) : StepsKept u.cal (((u.cutCodes n codes).2.cutShort n (u.cutCodes n codes).1).stopSeq n).cal :=
    (State.steps_cutShort ..).after (.calm (State.keeps_cutCodes (Within.refl _) (.refl u) n codes) rfl)
  have hif (u : State) (p : Prop) [Decidable p] (x : State) (hx : StepsKept u.cal x.cal) : StepsKept u.cal (if p then x else u).cal := .ite hx (.refl _)
  unfold State.measCtlChanged
  dsimp only
  exact (hif _ _ _ (hstart _)).after ((hif _ _ _ (hlow _)).after ((hif _ _ _ (hstop _)).after ((hif _ _ _ (hfresh _)).after (hif _ _ _ (hclear _)))))

end Channels

end Sys2Proof.Machine
end

section
/-!
PROOFS. What an image loads, and the tiles that power up, leave the slice steps alone (R319, R341, R350, R378).
-/

namespace Sys2Proof.Machine

open Sys2Proof

section Loads
variable (s : State)

theorem State.steps_writeForce (m n : Nat) (v : Word) : StepsKept s.cal (s.writeForce m n v).cal := by
  unfold State.writeForce
  dsimp only
  refine .ite ?_ (.calm (State.keeps_acceptForce (Within.refl _) (.refl s) n _) rfl)
  exact (State.steps_accessFault ..).after (.refl _)

theorem State.steps_changed (r : Reg) (i j : Nat) (codes : Option (List Int)) (old : Word) : StepsKept s.cal (s.changed r i j codes old).cal := by
  have hreturn (p : Nat) : StepsKept s.cal (s.returnUnwritten p).cal := .calm (State.keeps_returnUnwritten (Within.refl _) (.refl s) p) rfl
  have hlevel : StepsKept s.cal (s.levelWritten i).cal := .calm (State.keeps_levelWritten (Within.refl _) (.refl s) i) rfl
  unfold State.changed
  dsimp only
  refine .ite (.refl _) ?_
  split
  · exact .ite (s.steps_clearEnable i codes) (.refl _)
  · exact s.steps_measCtlChanged i codes old
  · exact .calm (State.keeps_autorangeHeld (Within.refl _) (.refl s) i old) rfl
  · exact hreturn _
  · exact s.steps_reprime i
  · exact s.steps_reprime i
  · exact hreturn _
  · exact .calm (State.keeps_feltCtlChanged (Within.refl _) (.refl s) i old) rfl
  · exact hlevel
  · exact hlevel
  · exact .ite (.refl _) (.refl _)
  · exact .ite (.refl _) (.calm (State.keeps_freqWanted (Within.refl _) (.refl s) _) rfl)
  · exact .ite (.refl _) (.calm (State.keeps_rateWanted (Within.refl _) (.refl s) i _) rfl)
  · exact .ite (.refl _) (.ite (.calm (State.keeps_portStart (Within.refl _) (.refl s) i) rfl)
      (.calm (State.keeps_portDisabled (Within.refl _) (.refl s) i) rfl))
  · exact .refl _

theorem State.steps_loadReg (m : Nat) (r : Reg) (i j : Nat) (v : Word) : StepsKept s.cal (State.loadReg m s r i j v).cal := by
  unfold State.loadReg
  split
  · exact s.steps_writeForce m i v
  · dsimp only
    refine (State.steps_changed ..).after ((StepsKept.calm (State.keeps_loadWord (Within.refl _) (.refl _) _ i j _) rfl).after ?_)
    exact .ite (.refl _) (s.steps_accessFault ..)

theorem State.steps_applyBlocks (g : Bytes) (l : List Section) (blocks : List Nat) : StepsKept s.cal (s.applyBlocks g l blocks).cal := by
  refine StepsKept.each (fun b s => ?_) blocks s
  split
  · refine StepsKept.each (fun r s => ?_) _ s
    unfold State.applyRecord
    split
    · exact s.steps_loadReg ..
    · exact .refl _
  · exact .refl _

theorem State.steps_armGen (m k : Nat) (link : Option Assertion) : StepsKept s.cal (s.armGen m k link).cal := by
  unfold State.armGen
  dsimp only
  refine .ite (.refl _) (.ite (s.steps_accessFault ..) (.ite ?_ (.refl _)))
  exact (StepsKept.calm (State.keeps_judgeGen (Within.refl _) (.refl _) k) rfl).after (.refl _)

theorem State.steps_applyArms (m : Nat) (g : Bytes) (l : List Section) : StepsKept s.cal (s.applyArms m g l).cal := by
  refine StepsKept.each (fun x s => StepsKept.each (fun r s => ?_) _ s) _ s
  split
  · unfold State.loadArm
    split
    · exact .ite (s.steps_armGen ..) (.refl _)
    · exact .refl _
  · exact .refl _

theorem State.steps_loadWear : StepsKept s.cal s.loadWear.cal := by
  have hhalf (seq : Nat) (d : List Byte) : StepsKept s.cal (s.loadHalf seq d).cal := by
    refine (StepsKept.each (fun i s => s.steps_setSlice ?_) _ _).after (.frame rfl rfl rfl rfl)
    exact fun h => h
  unfold State.loadWear
  split
  · exact .refl _
  · rename_i k off _
    obtain ⟨o, ho⟩ : ∃ o, o = s.wearPick k off := ⟨_, rfl⟩
    rw [show s.loadNewest k off = (s.wearPick k off).elim s fun x => s.loadHalf x.1 x.2 from rfl, ← ho]
    cases o with
    | none => rw [Option.elim_none]; exact .refl _
    | some x => rw [Option.elim_some]; exact hhalf _ _

theorem State.steps_firstTileOn (k : Nat) : StepsKept s.cal (s.firstTileOn k).cal := by
  unfold State.firstTileOn
  exact .ite (s.steps_fault ..) (.calm (State.keeps_tileOn (Within.refl _) (.refl s) k) rfl)

theorem State.steps_domainsOn (l : List Nat) : StepsKept s.cal (s.domainsOn l).cal := StepsKept.each (g := fun d s => s.markDomain d true) (fun _ _ => .refl _) l s

theorem State.steps_applyWearLog (d : List Byte) : StepsKept s.cal (s.applyWearLog d).cal := .refl _

end Loads

/-! ## A step of the start-up run -/

/-- From `c` to `d` no slice step is queued, begun or ended, and no run begins or ends; the slices themselves may change. -/
def RunKept (c d : Cal) : Prop := d.queue = c.queue ∧ d.current = c.current ∧ d.running = c.running

section Run
variable {b c d : Cal}

theorem RunKept.refl (c : Cal) : RunKept c c := ⟨rfl, rfl, rfl⟩

theorem StepsKept.run (h : StepsKept c d) : RunKept c d := ⟨h.queue, h.current, h.running⟩

theorem RunKept.after (h : RunKept c d) (g : RunKept b c) : RunKept b d := ⟨h.1.trans g.1, h.2.1.trans g.2.1, h.2.2.trans g.2.2⟩

theorem RunKept.ite {p : Prop} [Decidable p] {x y : State} (hx : RunKept c x.cal) (hy : RunKept c y.cal) : RunKept c (if p then x else y).cal := by
  split
  · exact hx
  · exact hy

theorem RunKept.each {α : Type} {g : α → State → State} (h : ∀ x s, RunKept s.cal (g x s).cal) : ∀ (l : List α) (s : State),
    RunKept s.cal (s.each l g).cal
  | [], _ => .refl _
  | x :: l, s => (RunKept.each h l (g x s)).after (h x s)

variable (s : State)

theorem State.run_setSlice (i : Nat) (x : Slice) : RunKept s.cal (s.setSlice i x).cal := ⟨rfl, rfl, rfl⟩

theorem State.run_drifted (i : Nat) (short : Bool) : RunKept s.cal (s.drifted i short).cal := by
  unfold State.drifted
  dsimp only
  split
  · exact (State.steps_log _ _).run.after (State.run_setSlice ..)
  · exact .ite (State.run_setSlice ..) (.refl _)

theorem State.run_newCorrections (i : Nat) : RunKept s.cal (s.newCorrections i).cal := by
  unfold State.newCorrections
  dsimp only
  split
  · exact State.run_setSlice ..
  · exact .ite (State.run_setSlice ..) (State.run_setSlice ..)

theorem State.run_newForceCorr (i : Nat) (corr : Int) : RunKept s.cal (s.newForceCorr i corr).cal := by
  unfold State.newForceCorr
  dsimp only
  refine .ite (.refl _) ?_
  split
  · exact State.run_setSlice ..
  · exact .ite (State.run_setSlice ..) (State.run_setSlice ..)

theorem State.run_startUpStep (i : Nat) : RunKept s.cal (s.startUpStep i).cal := by
  unfold State.startUpStep
  dsimp only
  have hkept (u : State) (e : Nat) (v : DWord) (n : Nat) : RunKept u.cal ((u.setSel e v).setCal { (u.setSel e v).cal with lastRun := n }).cal :=
    ⟨rfl, rfl, rfl⟩
  refine .ite ((State.run_drifted ..).after ?_) ?_ <;>
    exact (State.steps_agentItem ..).run.after ((State.steps_agentItem ..).run.after ((hkept _ _ _ _).after
      ((State.run_newForceCorr ..).after ((State.run_newCorrections ..).after ((State.run_setSlice ..).after (.refl _))))))

end Run

end Sys2Proof.Machine
end

section
/-!
PROOFS. Power domains that go on, and the slices that the start-up run queues (R319, R378, R386).
-/

namespace Sys2Proof.Machine

open Sys2Proof

/-- From `x` to `y` no domain goes off and no rail is lost or back. -/
def DomainsGrow (x y : Pwr) : Prop := y.tileLost = x.tileLost ∧ ∀ d, x.on.getLsbD d = true → y.on.getLsbD d = true

section Domains
variable {x y z : Pwr} {s : State}

theorem DomainsGrow.refl (x : Pwr) : DomainsGrow x x := ⟨rfl, fun _ h => h⟩

theorem DomainsGrow.after (h : DomainsGrow y z) (g : DomainsGrow x y) : DomainsGrow x z := ⟨h.1.trans g.1, fun d hd => h.2 d (g.2 d hd)⟩

theorem DomainsGrow.of_eq (h : y = x) : DomainsGrow x y := h ▸ .refl x

theorem DomainsGrow.each {α : Type} {g : α → State → State} (h : ∀ a s, DomainsGrow s.pwr (g a s).pwr) : ∀ (l : List α) (s : State),
    DomainsGrow s.pwr (s.each l g).pwr
  | [], _ => .refl _
  | a :: l, s => (DomainsGrow.each h l (g a s)).after (h a s)

theorem getLsbD_on (x : BitVec 62) {d k : Nat} (hd : d < 62) :
    (BitVec.ofNat 62 (setBitN x.toNat d true)).getLsbD k = (decide (k = d) || x.getLsbD k) := by
  rw [BitVec.getLsbD_ofNat]
  by_cases hk : k = d
  · subst hk
    rw [testBit_setBitN_same, decide_eq_true hd, decide_eq_true rfl]
    rfl
  · rw [testBit_setBitN_other hk, decide_eq_false hk, Bool.false_or, BitVec.testBit_toNat]
    by_cases h62 : k < 62
    · rw [decide_eq_true h62, Bool.true_and]
    · rw [decide_eq_false h62, Bool.false_and, BitVec.getLsbD_of_ge _ _ (by omega)]

theorem State.markDomain_on {d k : Nat} (hd : d < 62) : (s.markDomain d true).domainOn k = (decide (k = d) || s.domainOn k) := getLsbD_on _ hd

theorem State.markDomain_grows {d : Nat} (hd : d < 62) : DomainsGrow s.pwr (s.markDomain d true).pwr :=
  ⟨rfl, fun k hk => by
    have h := State.markDomain_on (s := s) (k := k) hd
    unfold State.domainOn at h
    rw [h, hk, Bool.or_true]⟩

/-- Each domain of a list is on. -/
theorem State.domainsOn_on : ∀ (l : List Nat) (s : State), (∀ d ∈ l, d < 62) → ∀ k, (s.domainsOn l).domainOn k = (l.contains k || s.domainOn k)
  | [], _, _, _ => rfl
  | d :: l, s, h, k => by
    rw [show s.domainsOn (d :: l) = (s.markDomain d true).domainsOn l from rfl, State.domainsOn_on l _ (fun e he => h e (List.mem_cons_of_mem _ he)),
      State.markDomain_on (h d List.mem_cons_self), List.contains_cons]
    by_cases hk : k = d
    · subst hk
      simp
    · rw [decide_eq_false hk, beq_eq_false_iff_ne.2 hk, Bool.false_or, Bool.false_or]

theorem State.domainsOn_lost : ∀ (l : List Nat) (s : State), (s.domainsOn l).pwr.tileLost = s.pwr.tileLost
  | [], _ => rfl
  | d :: l, s => State.domainsOn_lost l (s.markDomain d true)

/-- The common domain of a tile is on. -/
theorem State.tileCommonOn_on {k : Nat} (hk : k < 8) : DomainsGrow s.pwr (s.tileCommonOn k).pwr ∧ (s.tileCommonOn k).domainOn (5 * k + 4) = true := by
  unfold State.tileCommonOn
  split
  · rename_i h
    exact ⟨.refl _, h⟩
  · exact ⟨State.markDomain_grows (by omega), by rw [State.assertSrc_domainOn, State.markDomain_on (by omega), decide_eq_true rfl, Bool.true_or]⟩

/-- A slice group is on. -/
theorem State.groupOn_on {d : Nat} (hd : d < 62) : DomainsGrow s.pwr (s.groupOn d).pwr ∧ (s.groupOn d).domainOn d = true := by
  unfold State.groupOn
  split
  · rename_i h
    exact ⟨.refl _, h⟩
  · dsimp only
    obtain ⟨u, hu⟩ : ∃ u : State, u = (s.markDomain d true).setPwr { (s.markDomain d true).pwr with
      rising := Table.insert d (s.markDomain d true).now (s.markDomain d true).pwr.rising } := ⟨_, rfl⟩
    have hon : u.domainOn d = true := by
      rw [hu]
      exact (State.markDomain_on hd).trans (by rw [decide_eq_true rfl, Bool.true_or])
    have hgrow : DomainsGrow s.pwr u.pwr := by
      rw [hu]
      exact State.markDomain_grows (s := s) hd
    have hchannels := DomainsGrow.each (g := fun n s => if (s.dropForce n).on f_CH_MEAS_CTL_run n = true then (s.dropForce n).startSeq n else s.dropForce n)
      (fun n s => ?_) (u.domainChannels d) u
    · rw [← hu]
      exact ⟨hchannels.after hgrow, hchannels.2 d hon⟩
    · have hdrop : (s.dropForce n).pwr = s.pwr := (State.keeps_dropForce (Within.refl _) (.refl s) n).pwr rfl
      split
      · exact .of_eq (((State.keeps_startSeq (Within.refl _) (.refl _) n).pwr rfl).trans hdrop)
      · exact .of_eq hdrop

/-- A tile that is on. -/
theorem State.tileOn_on {k : Nat} (hk : k < 8) : DomainsGrow s.pwr (s.tileOn k).pwr ∧ ∀ d, 5 * k ≤ d → d < 5 * k + 5 → (s.tileOn k).domainOn d = true := by
  obtain ⟨hc, hcon⟩ := State.tileCommonOn_on (s := s) hk
  obtain ⟨h0, h0on⟩ := State.groupOn_on (s := s.tileCommonOn k) (d := 5 * k) (by omega)
  obtain ⟨h1, h1on⟩ := State.groupOn_on (s := (s.tileCommonOn k).groupOn (5 * k)) (d := 5 * k + 1) (by omega)
  obtain ⟨h2, h2on⟩ := State.groupOn_on (s := ((s.tileCommonOn k).groupOn (5 * k)).groupOn (5 * k + 1)) (d := 5 * k + 2) (by omega)
  obtain ⟨h3, h3on⟩ := State.groupOn_on (s := (((s.tileCommonOn k).groupOn (5 * k)).groupOn (5 * k + 1)).groupOn (5 * k + 2)) (d := 5 * k + 3) (by omega)
  have hall : s.tileOn k = ((((s.tileCommonOn k).groupOn (5 * k)).groupOn (5 * k + 1)).groupOn (5 * k + 2)).groupOn (5 * k + 3) := rfl
  rw [hall]
  refine ⟨h3.after (h2.after (h1.after (h0.after hc))), fun d hlo hhi => ?_⟩
  obtain rfl | rfl | rfl | rfl | rfl : d = 5 * k ∨ d = 5 * k + 1 ∨ d = 5 * k + 2 ∨ d = 5 * k + 3 ∨ d = 5 * k + 4 := by omega
  · exact h3.2 _ (h2.2 _ (h1.2 _ h0on))
  · exact h3.2 _ (h2.2 _ h1on)
  · exact h3.2 _ h2on
  · exact h3on
  · exact h3.2 _ (h2.2 _ (h1.2 _ (h0.2 _ hcon)))

theorem State.firstTileOn_grows {k : Nat} (hk : k < 8) : DomainsGrow s.pwr (s.firstTileOn k).pwr := by
  unfold State.firstTileOn
  split
  · exact .of_eq ((State.keeps_fault (Within.refl _) (.refl s) ..).pwr rfl)
  · exact (State.tileOn_on hk).1

/-- The first start of a list of tiles: those whose rails are within limits are on. -/
theorem State.firstTilesOn : ∀ (l : List Nat) (s : State), (∀ k ∈ l, k < 8) →
    DomainsGrow s.pwr (s.each l fun t s => s.firstTileOn t).pwr ∧
      ∀ k ∈ l, s.pwr.tileLost.testBit k = false → ∀ d, 5 * k ≤ d → d < 5 * k + 5 → (s.each l fun t s => s.firstTileOn t).domainOn d = true
  | [], _, _ => ⟨.refl _, fun _ h => absurd h List.not_mem_nil⟩
  | j :: l, s, h => by
    obtain ⟨hg, hon⟩ := State.firstTilesOn l (s.firstTileOn j) fun k hk => h k (List.mem_cons_of_mem _ hk)
    have hj := State.firstTileOn_grows (s := s) (h j List.mem_cons_self)
    refine ⟨hg.after hj, fun k hk hlost d hlo hhi => ?_⟩
    by_cases hkj : k = j
    · subst hkj
      have hfirst : s.firstTileOn k = s.tileOn k := if_neg (by rw [hlost]; exact Bool.false_ne_true)
      have hd : (s.firstTileOn k).domainOn d = true := by rw [hfirst]; exact (State.tileOn_on (h k List.mem_cons_self)).2 d hlo hhi
      exact hg.2 d hd
    · exact hon k ((List.mem_cons.1 hk).resolve_left hkj) (by rw [hj.1]; exact hlost) d hlo hhi

end Domains

/-! ## Slices that a run queues -/

section Queues
variable {s : State} {i t : Nat}

/-- Slices are queued one by one on their tiles. -/
theorem State.enqueueSlices : ∀ (l : List Nat) (s : State), Table.rising s.cal.queue = true →
    (∀ t j, j ∈ s.queueOf t → j ∈ (s.each l fun i s => s.setQueue (i / 68) (s.queueOf (i / 68) ++ [i])).queueOf t) ∧
      ∀ i ∈ l, i ∈ (s.each l fun i s => s.setQueue (i / 68) (s.queueOf (i / 68) ++ [i])).queueOf (i / 68)
  | [], _, _ => ⟨fun _ _ h => h, fun _ h => absurd h List.not_mem_nil⟩
  | i :: l, s, hr => by
    obtain ⟨u, hu⟩ : ∃ u, u = s.setQueue (i / 68) (s.queueOf (i / 68) ++ [i]) := ⟨_, rfl⟩
    have hself : u.queueOf (i / 68) = s.queueOf (i / 68) ++ [i] := by rw [hu]; exact Table.get_put_same hr
    have hother {t : Nat} (ht : t ≠ i / 68) : u.queueOf t = s.queueOf t := by rw [hu]; exact Table.get_put_other ht hr
    obtain ⟨hsub, hin⟩ := State.enqueueSlices l u (by rw [hu]; exact Table.rising_put hr)
    rw [show (s.each (i :: l) fun i s => s.setQueue (i / 68) (s.queueOf (i / 68) ++ [i])) =
      u.each l fun i s => s.setQueue (i / 68) (s.queueOf (i / 68) ++ [i]) by rw [hu]; rfl]
    refine ⟨fun t j hj => hsub t j ?_, fun j hj => ?_⟩
    · by_cases ht : t = i / 68
      · rw [ht, hself]
        exact List.mem_append_left _ (ht ▸ hj)
      · rw [hother ht]
        exact hj
    · rcases List.mem_cons.1 hj with rfl | hj
      · exact hsub _ _ (by rw [hself]; exact List.mem_append_right _ (List.mem_singleton.2 rfl))
      · exact hin j hj

/-- Every slice of a run that is powered and not retired waits for its step or is in it (R319). -/
theorem State.addRun_queues {l : List Nat} {commanded : Bool} (hr : Table.rising s.cal.queue = true) (hi : i ∈ l) (hst : (s.sliceOf i).st ≠ .retired)
    (hon : s.domainOn (sliceDomain i) = true) : i ∈ (s.addRun l commanded).queueOf (i / 68) ∨ s.inStep (i / 68) = some i := by
  obtain ⟨fresh, hfresh⟩ : ∃ fresh, fresh = l.filter fun i =>
    ! (s.queueOf (i / 68)).contains i && decide (s.inStep (i / 68) ≠ some i) && decide ((s.sliceOf i).st ≠ .retired) && s.domainOn (sliceDomain i) :=
    ⟨_, rfl⟩
  obtain ⟨hsub, hin⟩ := State.enqueueSlices fresh s hr
  have hqueue (t : Nat) : (s.addRun l commanded).queueOf t =
      (s.each fresh fun i s => s.setQueue (i / 68) (s.queueOf (i / 68) ++ [i])).queueOf t := by
    unfold State.addRun
    rw [← hfresh]
    dsimp only
    split
    · rename_i h
      rw [h]
      rfl
    · split <;> rfl
  rw [hqueue]
  by_cases hq : i ∈ s.queueOf (i / 68)
  · exact .inl (hsub _ _ hq)
  by_cases hstep : s.inStep (i / 68) = some i
  · exact .inr hstep
  refine .inl (hin i (hfresh ▸ List.mem_filter.2 ⟨hi, ?_⟩))
  rw [hon, decide_eq_true hst, decide_eq_true hstep]
  simp [hq]

theorem State.inStep_of_current {u : State} (h : u.cal.current = s.cal.current) (t : Nat) : u.inStep t = s.inStep t := by
  unfold State.inStep
  rw [h]

theorem State.queueOf_of_queue {u : State} (h : u.cal.queue = s.cal.queue) (t : Nat) : u.queueOf t = s.queueOf t := by
  unfold State.queueOf
  rw [h]

end Queues

end Sys2Proof.Machine
end

section
/-!
PROOFS. Phase 0x5: the tiles power up and the start-up run ends (R319, R341, R378).
-/

namespace Sys2Proof.Machine

open Sys2Proof

section Tiles
variable {s : State}

/-- The wear log of the CAL section is noted. -/
def State.wearNoted (s : State) (g : Bytes) (l : List Section) : State :=
  match sectionOf l 0x107 with
  | some x => s.applyWearLog (x.bytes g)
  | none => s

theorem State.wearNoted_kept (s : State) (g : Bytes) (l : List Section) : (s.wearNoted g l).cal = s.cal ∧ (s.wearNoted g l).pwr = s.pwr := by
  unfold State.wearNoted
  split <;> exact ⟨rfl, rfl⟩

/-- The state of phase 0x5 before the tiles power up: sections applied, the wear log read and the hub's domains on. -/
def State.tilesReady (s : State) : State :=
  ((s.applyBlocks s.image s.imageSections [8, 10, 7]).wearNoted s.image s.imageSections).loadWear.domainsOn [47, 48, 49, 50, 51, 52, 53, 54, 55, 56]

theorem State.powerTiles_eq (hph : s.dev.phase = 5) (hrun : s.cal.running = false) : s.powerTiles =
    ((s.tilesReady.each (List.range 8) fun t s => s.firstTileOn t).setPwr
      { (s.tilesReady.each (List.range 8) fun t s => s.firstTileOn t).pwr with rising := [] }).addRun (List.range 544) true := by
  unfold State.powerTiles
  rw [if_neg (by rw [hph, hrun]; simp)]
  rfl

/-- Applying the sections and reading the wear log changes neither the steps nor the power, and the hub's domains are on. -/
theorem State.tilesReady_shows (s : State) : StepsKept s.cal s.tilesReady.cal ∧ s.tilesReady.pwr.tileLost = s.pwr.tileLost ∧
    ∀ d, 47 ≤ d → d ≤ 56 → s.tilesReady.domainOn d = true := by
  obtain ⟨u, hu⟩ : ∃ u, u = s.applyBlocks s.image s.imageSections [8, 10, 7] := ⟨_, rfl⟩
  obtain ⟨v, hv⟩ : ∃ v, v = u.wearNoted s.image s.imageSections := ⟨_, rfl⟩
  obtain ⟨w, hw⟩ : ∃ w, w = v.loadWear := ⟨_, rfl⟩
  have hready : s.tilesReady = w.domainsOn [47, 48, 49, 50, 51, 52, 53, 54, 55, 56] := by rw [hw, hv, hu]; rfl
  have hpu : u.pwr = s.pwr := hu ▸ (State.keeps_applyBlocks (Within.refl _) (.refl s) _ _ [8, 10, 7]).pwr rfl
  have hcu : StepsKept s.cal u.cal := hu ▸ s.steps_applyBlocks ..
  obtain ⟨hcv, hpv⟩ := u.wearNoted_kept s.image s.imageSections
  rw [← hv] at hcv hpv
  have hpw : w.pwr = v.pwr := hw ▸ (State.keeps_loadWear (Within.refl _) (.refl v)).pwr rfl
  have hcw : StepsKept v.cal w.cal := hw ▸ v.steps_loadWear
  rw [hready]
  refine ⟨(State.steps_domainsOn _ _).after (hcw.after (hcv ▸ hcu)), ?_, fun d hlo hhi => ?_⟩
  · rw [State.domainsOn_lost, hpw, hpv, hpu]
  · rw [State.domainsOn_on _ _ (by decide), List.contains_iff_mem.2 (by simp; omega), Bool.true_or]

/-- TILE_POWER_UP in phase 0x5: the hub's domains and those of the tiles with their rails within limits are on, and each of their slices that is not
retired waits for its step of the start-up run or is in one. -/
theorem State.powerTiles_shows (hph : s.dev.phase = 5) (hrun : s.cal.running = false) (hq : Table.rising s.cal.queue = true)
    (hsl : Table.rising s.cal.slices = true) : let e := s.powerTiles
    (∀ d, 47 ≤ d → d ≤ 56 → e.domainOn d = true) ∧ e.pwr.rising = [] ∧ ∀ k, k < 8 → s.pwr.tileLost.testBit k = false →
      (∀ d, 5 * k ≤ d → d < 5 * k + 5 → e.domainOn d = true) ∧
        ∀ i, i / 68 = k → (s.sliceOf i).st ≠ .retired → i ∈ e.queueOf k ∨ s.inStep k = some i := by
  intro e
  obtain ⟨hkept, hlost, hhub⟩ := State.tilesReady_shows s
  obtain ⟨r, hr⟩ : ∃ r, r = s.tilesReady := ⟨_, rfl⟩
  rw [← hr] at hkept hlost hhub
  obtain ⟨u, hu⟩ : ∃ u, u = r.each (List.range 8) fun t s => s.firstTileOn t := ⟨_, rfl⟩
  obtain ⟨hgrow, htiles⟩ := State.firstTilesOn (List.range 8) r fun k hk => List.mem_range.1 hk
  rw [← hu] at hgrow htiles
  obtain ⟨v, hv⟩ : ∃ v, v = u.setPwr { u.pwr with rising := [] } := ⟨_, rfl⟩
  have he : e = v.addRun (List.range 544) true := by
    rw [hv, hu, hr]
    exact State.powerTiles_eq hph hrun
  have hpwr : e.pwr = v.pwr := he ▸ (State.keeps_addRun (Within.refl _) (.refl v) (List.range 544) true).pwr rfl
  have hdom (d : Nat) : e.domainOn d = u.domainOn d := by
    unfold State.domainOn
    rw [hpwr, hv]
    rfl
  have hsteps : StepsKept s.cal v.cal := by
    have h : StepsKept r.cal u.cal := hu ▸ StepsKept.each (fun t s => s.steps_firstTileOn t) (List.range 8) r
    rw [hv]
    exact h.after hkept
  refine ⟨fun d hlo hhi => ?_, by rw [hpwr, hv]; rfl, fun k hk hl => ⟨fun d hlo hhi => ?_, fun i hik hst => ?_⟩⟩
  · rw [hdom]
    exact hgrow.2 d (hhub d hlo hhi)
  · rw [hdom]
    exact htiles k (List.mem_range.2 hk) (hlost ▸ hl) d hlo hhi
  · have hdi : v.domainOn (sliceDomain i) = true := by
      have h := htiles k (List.mem_range.2 hk) (hlost ▸ hl) (sliceDomain i) (by unfold sliceDomain; omega)
        (by unfold sliceDomain groupOf; split <;> omega)
      rw [← h, hv]
      rfl
    have hin := State.addRun_queues (commanded := true) (s := v) (by rw [hsteps.queue]; exact hq) (List.mem_range.2 (by omega : i < 544))
      ((hsteps.slices hsl).2 i hst) hdi
    rw [hik, State.inStep_of_current hsteps.current, ← he] at hin
    exact hin

end Tiles

end Sys2Proof.Machine
end

section
/-!
PROOFS. Phase 0x5 ends: the start-up run is over on every tile, and phase 0x6 applies its sections (R319, R341, R354, R355).
-/

namespace Sys2Proof.Machine

open Sys2Proof

section Runs
variable {s : State} {k : Nat}

/-- The slices of a tile that still wait for their step or are in it. -/
def State.stepsLeft (s : State) (k : Nat) : List Nat :=
  (match s.inStep k with
    | some i => [i]
    | none => []) ++ s.queueOf k

/-- Each of them has had its step. -/
def State.stepsDone (s : State) (k : Nat) : State := s.each (s.stepsLeft k) fun i s => s.startUpStep i

theorem State.endTileRun_cases (s : State) (k : Nat) :
    ((s.stepsDone k).inStep k = none ∧ s.endTileRun k = (s.stepsDone k).setQueue k []) ∨
      ∃ i x, s.endTileRun k = (((s.stepsDone k).setSlice i x).setStep k 0).setQueue k [] := by
  unfold State.endTileRun
  dsimp only
  split
  · exact .inr ⟨_, _, rfl⟩
  · rename_i h
    exact .inl ⟨h, rfl⟩

/-- The start-up run of a tile is over: nothing waits and nothing is in its step there, and the other tiles go on. -/
theorem State.endTileRun_ends (hq : Table.rising s.cal.queue = true) (hc : Table.rising s.cal.current = true) (k : Nat) : let e := s.endTileRun k
    Table.rising e.cal.queue = true ∧ Table.rising e.cal.current = true ∧ e.cal.running = s.cal.running ∧ e.queueOf k = [] ∧ e.inStep k = none ∧
      ∀ j, j ≠ k → e.queueOf j = s.queueOf j ∧ e.inStep j = s.inStep j := by
  intro e
  obtain ⟨u, hu⟩ : ∃ u, u = s.stepsDone k := ⟨_, rfl⟩
  obtain ⟨hque, hcur, hrun⟩ : RunKept s.cal u.cal := hu ▸ RunKept.each (fun i s => s.run_startUpStep i) (s.stepsLeft k) s
  have hstep (j : Nat) : u.inStep j = s.inStep j := State.inStep_of_current hcur j
  have hwait (j : Nat) : u.queueOf j = s.queueOf j := State.queueOf_of_queue hque j
  have huq : Table.rising u.cal.queue = true := by rw [hque]; exact hq
  have huc : Table.rising u.cal.current = true := by rw [hcur]; exact hc
  obtain ⟨q, hqdef⟩ : ∃ q, q = Table.put [] k [] u.cal.queue := ⟨_, rfl⟩
  have hqr : Table.rising q = true := hqdef ▸ Table.rising_put huq
  have hqk : Table.get [] k q = [] := hqdef ▸ Table.get_put_same huq
  have hqj {j : Nat} (hj : j ≠ k) : Table.get [] j q = s.queueOf j := by
    rw [← hwait, hqdef]
    exact Table.get_put_other hj huq
  have hcase := s.endTileRun_cases k
  rw [← hu] at hcase
  obtain ⟨hin, he⟩ | ⟨i, x, he⟩ := hcase
  · have hequeue : e.cal.queue = q := by rw [show e = _ from he, hqdef]; rfl
    have hecur : e.cal.current = u.cal.current := by rw [show e = _ from he]; rfl
    have herun : e.cal.running = u.cal.running := by rw [show e = _ from he]; rfl
    refine ⟨by rw [hequeue]; exact hqr, by rw [hecur]; exact huc, herun.trans hrun, ?_, (State.inStep_of_current hecur k).trans hin, fun j hj => ⟨?_, ?_⟩⟩
    · unfold State.queueOf
      rw [hequeue]
      exact hqk
    · rw [← hqj hj]
      unfold State.queueOf
      rw [hequeue]
    · exact (State.inStep_of_current hecur j).trans (hstep j)
  · obtain ⟨c, hcdef⟩ : ∃ c, c = Table.put 0 k 0 u.cal.current := ⟨_, rfl⟩
    have hequeue : e.cal.queue = q := by rw [show e = _ from he, hqdef]; rfl
    have hecur : e.cal.current = c := by rw [show e = _ from he, hcdef]; rfl
    have herun : e.cal.running = u.cal.running := by rw [show e = _ from he]; rfl
    have hck : Table.get 0 k c = 0 := hcdef ▸ Table.get_put_same huc
    refine ⟨by rw [hequeue]; exact hqr, by rw [hecur, hcdef]; exact Table.rising_put huc, herun.trans hrun, ?_, ?_, fun j hj => ⟨?_, ?_⟩⟩
    · unfold State.queueOf
      rw [hequeue]
      exact hqk
    · unfold State.inStep
      rw [hecur, hck]
      rfl
    · rw [← hqj hj]
      unfold State.queueOf
      rw [hequeue]
    · have hcj : Table.get 0 j c = Table.get 0 j u.cal.current := hcdef ▸ Table.get_put_other hj huc
      rw [← hstep]
      unfold State.inStep
      rw [hecur, hcj]

/-- The start-up run of a list of tiles is over. -/
theorem State.endTileRuns : ∀ (l : List Nat) (s : State), Table.rising s.cal.queue = true → Table.rising s.cal.current = true →
    (s.each l fun t s => s.endTileRun t).cal.running = s.cal.running ∧
      ∀ k, k ∈ l ∨ (s.queueOf k = [] ∧ s.inStep k = none) →
        (s.each l fun t s => s.endTileRun t).queueOf k = [] ∧ (s.each l fun t s => s.endTileRun t).inStep k = none
  | [], _, _, _ => ⟨rfl, fun _ h => h.resolve_left List.not_mem_nil⟩
  | t :: l, s, hq, hc => by
    obtain ⟨hq', hc', hrun, hwait, hstep, hother⟩ := State.endTileRun_ends hq hc t
    obtain ⟨hr, hall⟩ := State.endTileRuns l (s.endTileRun t) hq' hc'
    refine ⟨hr.trans hrun, fun k hk => hall k ?_⟩
    by_cases hkt : k = t
    · subst hkt
      exact .inr ⟨hwait, hstep⟩
    · obtain ⟨h1, h2⟩ := hother k hkt
      rw [h1, h2]
      exact hk.imp_left fun h => (List.mem_cons.1 h).resolve_left hkt

/-- A burn that is asked for leaves the run alone. -/
theorem State.run_requestBurn (s : State) : RunKept s.cal s.requestBurn.cal := by
  unfold State.requestBurn
  refine .ite ⟨rfl, rfl, rfl⟩ ?_
  have hwords (i : Nat) (l : List Word) (u : State) : RunKept u.cal (u.burnWords i l).cal :=
    (StepsKept.calm (State.keeps_burnWords (Within.refl _) l (.refl u) i) rfl).run
  have hburn (u : State) (x : Option Burn) : RunKept u.cal (u.setCal { u.cal with burn := x }).cal := ⟨rfl, rfl, rfl⟩
  unfold State.startBurn
  dsimp only
  split
  · exact .ite (.refl _) ⟨rfl, rfl, rfl⟩
  · exact .ite (.refl _) (.ite ⟨rfl, rfl, rfl⟩ ((hburn _ _).after ((hwords _ _ _).after (.refl _))))

/-- With nothing waiting and nothing in a step the run ends. -/
theorem State.endRun_ends (hrun : s.cal.running = true) (h : ∀ k, k < 8 → s.queueOf k = [] ∧ s.inStep k = none) : let e := s.endRun
    e.cal.running = false ∧ e.cal.queue = s.cal.queue ∧ e.cal.current = s.cal.current := by
  intro e
  have hbusy : ((List.range 8).any fun t => (s.inStep t).isSome || ! (s.queueOf t).isEmpty) = false :=
    List.any_eq_false.2 fun t ht => by
      obtain ⟨h1, h2⟩ := h t (List.mem_range.1 ht)
      rw [h1, h2]
      simp
  obtain ⟨u, hu⟩ : ∃ u : State, u = ((s.setCal { s.cal with running := false, commanded := false, segLost := false }).stick f_CAL_EVENTS_run_done).assertSrc
    (srcCal 1) := ⟨_, rfl⟩
  have hkept : RunKept u.cal e.cal := by
    show RunKept u.cal s.endRun.cal
    unfold State.endRun
    rw [if_neg (by rw [hbusy, hrun]; simp)]
    dsimp only
    rw [← hu]
    exact .ite u.run_requestBurn (.refl _)
  obtain ⟨h1, h2, h3⟩ := hkept
  exact ⟨by rw [h3, hu]; rfl, by rw [h1, hu]; rfl, by rw [h2, hu]; rfl⟩

theorem State.flashBytes_of {u : State} (h : u.flash = s.flash) (k : Nat) : ∀ (o n : Nat), u.flashBytes k o n = s.flashBytes k o n
  | _, 0 => rfl
  | o, n + 1 => by
    have hbyte : u.flashByte k o = s.flashByte k o := by
      unfold State.flashByte
      rw [h]
    unfold State.flashBytes
    rw [hbyte, State.flashBytes_of h k (o + 1) n]

/-- The image is a matter of the flash and of the slot selected. -/
theorem State.imageHead_of {u : State} (hflash : u.flash = s.flash) (hslot : u.boot.slot = s.boot.slot) : u.imageHead = s.imageHead := by
  have himage : u.image = s.image := by
    unfold State.image State.slotBytes
    rw [hslot]
    funext o n
    exact State.flashBytes_of hflash _ _ _
  unfold State.imageHead
  rw [himage]

/-- What is stored with the sections of the FW header and of the keys. -/
def State.keysApplied (s : State) : State :=
  let g := s.image
  let l := s.imageSections
  let u := { s with dev := { s.dev with test := s.imageHead.test } }
  let u := match sectionOf l 4 with | some x => u.applyManagement (x.bytes g) | none => u
  (u.burnKeys g l u.boot.signer).raiseFloor

theorem State.keysApplied_shows (s : State) : s.keysApplied.cal = s.cal ∧ s.keysApplied.dev = { s.dev with test := s.imageHead.test } := by
  obtain ⟨u, hu⟩ : ∃ u : State, u = { s with dev := { s.dev with test := s.imageHead.test } } := ⟨_, rfl⟩
  obtain ⟨v, hv⟩ : ∃ v : State, v = match sectionOf s.imageSections 4 with | some x => u.applyManagement (x.bytes s.image) | none => u := ⟨_, rfl⟩
  have he : s.keysApplied = (v.burnKeys s.image s.imageSections v.boot.signer).raiseFloor := by
    rw [hv, hu]
    rfl
  have hvu : v.cal = u.cal ∧ v.dev = u.dev := by
    rw [hv]
    split <;> exact ⟨rfl, rfl⟩
  have hburn := State.keeps_burnKeys (Within.refl _) (.refl v) s.image s.imageSections v.boot.signer
  have hfloor := State.keeps_raiseFloor (Within.refl _) hburn
  rw [he]
  exact ⟨(hfloor.cal rfl).trans (hvu.1.trans (by rw [hu])), (hfloor.dev rfl).trans (hvu.2.trans (by rw [hu]))⟩

theorem State.endStartUpRun_eq (hph : s.dev.phase = 5) (hrun : s.cal.running = true) : s.endStartUpRun =
    let w := ((s.each (List.range 8) fun t s => s.endTileRun t).endRun).setPhase 6
    (w.keysApplied.applyBlocks w.image w.imageSections [2, 3, 6, 9, 11]).applyArms 0x1010 w.image w.imageSections := by
  unfold State.endStartUpRun
  rw [if_neg (by rw [hph, hrun]; simp)]
  dsimp only
  generalize ((s.each (List.range 8) fun t s => s.endTileRun t).endRun).setPhase 6 = w
  unfold State.keysApplied
  rfl

/-- START_UP_RUN in phase 0x5 while the run is on: it is over on every tile, and phase 0x6 has begun with the image's TEST permission. -/
theorem State.endStartUpRun_shows (hph : s.dev.phase = 5) (hrun : s.cal.running = true) (hq : Table.rising s.cal.queue = true)
    (hc : Table.rising s.cal.current = true) : let e := s.endStartUpRun
    e.dev.phase = 6 ∧ e.dev.test = s.imageHead.test ∧ e.cal.running = false ∧ ∀ k, k < 8 → e.queueOf k = [] ∧ e.inStep k = none := by
  intro e
  obtain ⟨u, hu⟩ : ∃ u, u = s.each (List.range 8) fun t s => s.endTileRun t := ⟨_, rfl⟩
  obtain ⟨hurun, hidle⟩ := State.endTileRuns (List.range 8) s hq hc
  rw [← hu] at hurun hidle
  have hkeepU : Keeps 17190130 s u := hu ▸ State.keeps_each (.refl s) _ _ fun t v h => State.keeps_endTileRun (Within.refl _) h t
  have hall (k : Nat) (hk : k < 8) := hidle k (.inl (List.mem_range.2 hk))
  obtain ⟨hvrun, hvq, hvc⟩ := State.endRun_ends (hurun.trans hrun) hall
  have hkeepV := State.keeps_endRun (Within.refl _) (.refl u)
  obtain ⟨w, hw⟩ : ∃ w, w = u.endRun.setPhase 6 := ⟨_, rfl⟩
  have hhead : w.imageHead = s.imageHead := State.imageHead_of (by rw [hw]; exact (hkeepV.flash rfl).trans (hkeepU.flash rfl))
    (by rw [hw]; show u.endRun.boot.slot = _; rw [hkeepV.boot rfl, hkeepU.boot rfl])
  obtain ⟨x, hx⟩ : ∃ x, x = w.keysApplied := ⟨_, rfl⟩
  obtain ⟨hxcal, hxdev⟩ := w.keysApplied_shows
  rw [← hx] at hxcal hxdev
  have he : e = (x.applyBlocks w.image w.imageSections [2, 3, 6, 9, 11]).applyArms 0x1010 w.image w.imageSections := by
    rw [hx, hw, hu]
    exact State.endStartUpRun_eq hph hrun
  have hblocks := State.keeps_applyBlocks (Within.refl _) (.refl x) w.image w.imageSections [2, 3, 6, 9, 11]
  have harms := State.keeps_applyArms (Within.refl _) (.refl (x.applyBlocks w.image w.imageSections [2, 3, 6, 9, 11])) 0x1010 w.image w.imageSections
  have hedev : e.dev = x.dev := by rw [he]; exact (harms.dev rfl).trans (hblocks.dev rfl)
  have hecal : StepsKept x.cal e.cal := by rw [he]; exact (State.steps_applyArms ..).after (State.steps_applyBlocks ..)
  have hxq : x.cal.queue = u.cal.queue := by rw [hxcal, hw]; exact hvq
  have hxc : x.cal.current = u.cal.current := by rw [hxcal, hw]; exact hvc
  refine ⟨by rw [hedev, hxdev, hw]; rfl, by rw [hedev, hxdev, hhead], ?_, fun k hk => ?_⟩
  · rw [hecal.running, hxcal, hw]
    exact hvrun
  · obtain ⟨h1, h2⟩ := hall k hk
    exact ⟨(State.queueOf_of_queue (hecal.queue.trans hxq) k).trans h1, (State.inStep_of_current (hecal.current.trans hxc) k).trans h2⟩

end Runs

end Sys2Proof.Machine
end

section
/-!
PROOFS. Phase 0x0: the fuses are read (R316, R318).
-/

namespace Sys2Proof.Machine

open Sys2Proof

section Sums
variable (f : Nat → Bool)

/-- The last of the numbers below `n` for which `f` holds. -/
def lastSet (n : Nat) : Nat := (List.range n).foldl (fun m g => if f g then g else m) 0

theorem lastSet_succ (n : Nat) : lastSet f (n + 1) = if f n then n else lastSet f n := by
  unfold lastSet
  rw [List.range_succ, List.foldl_append]
  rfl

theorem lastSet_shows : ∀ n : Nat, (lastSet f n = 0 ∨ f (lastSet f n) = true) ∧ ∀ g, g < n → f g = true → g ≤ lastSet f n
  | 0 => ⟨.inl rfl, fun _ h => absurd h (by omega)⟩
  | n + 1 => by
    obtain ⟨h1, h2⟩ := lastSet_shows n
    rw [lastSet_succ]
    cases hn : f n with
    | true => exact ⟨.inr (by rw [if_pos rfl]; exact hn), fun g hg _ => by rw [if_pos rfl]; omega⟩
    | false =>
      rw [if_neg Bool.false_ne_true]
      refine ⟨h1, fun g hg hf => h2 g ?_ hf⟩
      have hgn : g ≠ n := fun h => by rw [h, hn] at hf; exact Bool.noConfusion hf
      omega

/-- The bits below `n` for which `f` holds. -/
def bitSum (n : Nat) : Nat := (List.range n).foldl (fun m g => m + b2n (f g) * 2 ^ g) 0

theorem bitSum_succ (n : Nat) : bitSum f (n + 1) = 2 ^ n * b2n (f n) + bitSum f n := by
  unfold bitSum
  rw [List.range_succ, List.foldl_append]
  show _ + _ = _
  rw [Nat.add_comm, Nat.mul_comm]

theorem bitSum_shows : ∀ n : Nat, bitSum f n < 2 ^ n ∧ ∀ g, g < n → (bitSum f n).testBit g = f g
  | 0 => ⟨Nat.one_pos, fun _ h => absurd h (by omega)⟩
  | n + 1 => by
    obtain ⟨h1, h2⟩ := bitSum_shows n
    have hb : b2n (f n) ≤ 1 := by cases f n <;> decide
    rw [bitSum_succ]
    refine ⟨?_, fun g hg => ?_⟩
    · have h := Nat.mul_le_mul_left (2 ^ n) hb
      rw [Nat.pow_succ]
      omega
    · rw [Nat.testBit_two_pow_mul_add _ h1]
      by_cases hgn : g < n
      · rw [if_pos hgn]
        exact h2 g hgn
      · obtain rfl : g = n := by omega
        rw [if_neg hgn, Nat.sub_self]
        cases f g <;> decide

end Sums

/-! ## Records -/

section Records
variable {s : State} {k r : Nat}

/-- Of a list of steps all but one leave every state with these fuses alone. -/
theorem State.each_only {g : Nat → State → State} (hr : (g r s).fuses = s.fuses) : ∀ (l : List Nat) (_ : l.Nodup) (_ : r ∈ l)
    (_ : ∀ p ∈ l, p ≠ r → ∀ u : State, u.fuses = s.fuses → g p u = u), s.each l g = g r s
  | [], _, h, _ => absurd h List.not_mem_nil
  | p :: l, hnd, hin, hid => by
    obtain ⟨hp, hnd'⟩ := List.nodup_cons.1 hnd
    by_cases hpr : p = r
    · subst hpr
      have hrest : ∀ (l : List Nat) (u : State), u.fuses = s.fuses → (∀ q ∈ l, q ≠ p ∧ ∀ u : State, u.fuses = s.fuses → g q u = u) → u.each l g = u := by
        intro l
        induction l with
        | nil => exact fun _ _ _ => rfl
        | cons q l ih =>
          intro u hu h
          rw [show u.each (q :: l) g = (g q u).each l g from rfl, (h q List.mem_cons_self).2 u hu]
          exact ih u hu fun x hx => h x (List.mem_cons_of_mem _ hx)
      exact hrest l _ hr fun q hq => have hqp : q ≠ p := fun h => hp (h ▸ hq)
        ⟨hqp, hid q (List.mem_cons_of_mem _ hq) hqp⟩
    · rw [show s.each (p :: l) g = (g p s).each l g from rfl, hid p List.mem_cons_self hpr s rfl]
      exact State.each_only hr l hnd' ((List.mem_cons.1 hin).resolve_left fun h => hpr h.symm) fun q hq => hid q (List.mem_cons_of_mem _ hq)

/-- Of a list of steps all leave every state with these fuses alone. -/
theorem State.each_none {g : Nat → State → State} : ∀ (l : List Nat) (_ : ∀ p ∈ l, g p s = s), s.each l g = s
  | [], _ => rfl
  | p :: l, h => by
    rw [show s.each (p :: l) g = (g p s).each l g from rfl, h p List.mem_cons_self]
    exact State.each_none l fun q hq => h q (List.mem_cons_of_mem _ hq)

/-- A couching record without its marker has no effect. -/
theorem State.applyCouchRecord_unmarked (h : s.fuseWord (1921 + 2 * k) ≠ fuseMarker) : s.applyCouchRecord k = s := if_pos (.inl h)

theorem State.applyRepairRecord_unmarked (h : s.fuseWord (1985 + 2 * k) ≠ fuseMarker) : s.applyRepairRecord k = s := if_pos h

/-- A couching record changes slices and a channel's slice. -/
theorem State.applyCouchRecord_eq (s : State) (k : Nat) : ∃ x f, s.applyCouchRecord k = { s with cal := { s.cal with slices := x }, force := f } := by
  have hite {p : Prop} [Decidable p] {a b : State} (ha : ∃ x f, a = { s with cal := { s.cal with slices := x }, force := f })
      (hb : ∃ x f, b = { s with cal := { s.cal with slices := x }, force := f }) :
      ∃ x f, (if p then a else b) = { s with cal := { s.cal with slices := x }, force := f } := by
    split
    · exact ha
    · exact hb
  unfold State.applyCouchRecord
  dsimp only
  exact hite ⟨_, _, rfl⟩ (hite ⟨_, _, rfl⟩ ⟨_, _, rfl⟩)

theorem State.applyCouchRecords_eq : ∀ (l : List Nat) (s : State), ∃ x f,
    (s.each l fun k s => s.applyCouchRecord k) = { s with cal := { s.cal with slices := x }, force := f }
  | [], _ => ⟨_, _, rfl⟩
  | k :: l, s => by
    obtain ⟨x, f, h⟩ := s.applyCouchRecord_eq k
    obtain ⟨x', f', h'⟩ := State.applyCouchRecords_eq l (s.applyCouchRecord k)
    exact ⟨x', f', by rw [show (s.each (k :: l) fun k s => s.applyCouchRecord k) = (s.applyCouchRecord k).each l fun k s => s.applyCouchRecord k from rfl,
      h', h]⟩

theorem State.applyRepairRecords_eq : ∀ (l : List Nat) (s : State), ∃ x, (s.each l fun k s => s.applyRepairRecord k) = { s with memc := x }
  | [], _ => ⟨_, rfl⟩
  | k :: l, s => by
    obtain ⟨x, h⟩ : ∃ x, s.applyRepairRecord k = { s with memc := x } := by
      unfold State.applyRepairRecord
      dsimp only
      split <;> exact ⟨_, rfl⟩
    obtain ⟨x', h'⟩ := State.applyRepairRecords_eq l (s.applyRepairRecord k)
    exact ⟨x', by rw [show (s.each (k :: l) fun k s => s.applyRepairRecord k) = (s.applyRepairRecord k).each l fun k s => s.applyRepairRecord k from rfl,
      h', h]⟩

/-- A couching record with its marker: the channel is on its new slice, and its old one is free or retired (R318). -/
theorem State.applyCouchRecord_marked {n q : Nat} (hsl : Table.rising s.cal.slices = true) (hf : Table.rising s.force = true)
    (hm : s.fuseWord (1921 + 2 * k) = fuseMarker) (hn : n = bits (s.fuseWord (1920 + 2 * k)) 16 9) (hq : q = bits (s.fuseWord (1920 + 2 * k)) 0 7)
    (hq68 : q < 68) (hst : (s.sliceOf (n / 64 * 68 + q)).st ≠ .retired) (hne : n / 64 * 68 + q ≠ s.sliceIdx n) :
    let e := s.applyCouchRecord k
    e.forceOf n = { s.forceOf n with slice := q } ∧ Table.SameBut [n] s.force e.force ∧ (e.sliceOf (n / 64 * 68 + q)).st = .serving ∧
      (e.sliceOf (n / 64 * 68 + q)).channel = n ∧ (e.sliceOf (s.sliceIdx n)).channel = 0x3FF ∧
      (e.sliceOf (s.sliceIdx n)).st = if bit (s.fuseWord (1920 + 2 * k)) 15 then .retired else .free := by
  intro e
  obtain ⟨new, hnew⟩ : ∃ new, new = n / 64 * 68 + q := ⟨_, rfl⟩
  obtain ⟨old, hold⟩ : ∃ old, old = s.sliceIdx n := ⟨_, rfl⟩
  obtain ⟨u, hu⟩ : ∃ u, u = s.setSlice old
    { s.sliceOf old with st := if bit (s.fuseWord (1920 + 2 * k)) 15 then .retired else .free, channel := 0x3FF } := ⟨_, rfl⟩
  rw [← hnew, ← hold] at hne
  rw [← hnew] at hst
  have hunew : u.sliceOf new = s.sliceOf new := by rw [hu]; exact State.sliceOf_setSlice_other hne hsl
  have husl : Table.rising u.cal.slices = true := by rw [hu]; exact Table.rising_put hsl
  have huold : u.sliceOf old = { s.sliceOf old with st := if bit (s.fuseWord (1920 + 2 * k)) 15 then .retired else .free, channel := 0x3FF } := by
    rw [hu]
    exact State.sliceOf_setSlice_same hsl
  have he : e = (u.setSlice new { u.sliceOf new with st := .serving, channel := n }).setForce n { s.forceOf n with slice := q } := by
    show s.applyCouchRecord k = _
    unfold State.applyCouchRecord
    dsimp only
    rw [if_neg (by rw [← hq]; rintro (h | h) <;> [exact h hm; omega]), ← hn, ← hq, ← hnew, ← hold, ← hu, if_neg (by rw [hunew]; exact hst), hu]
    rfl
  have hslice (i : Nat) : e.sliceOf i = (u.setSlice new { u.sliceOf new with st := .serving, channel := n }).sliceOf i := by rw [he]; rfl
  rw [← hnew, ← hold]
  have hforce : e.force = Table.put (Force.reset n) n { s.forceOf n with slice := q } s.force := by rw [he, hu]; rfl
  refine ⟨?_, ?_, ?_, ?_, ?_, ?_⟩
  · unfold State.forceOf
    rw [hforce]
    exact Table.get_put_same hf
  · rw [hforce]
    exact .put hf _ _ _
  · rw [hslice, State.sliceOf_setSlice_same husl]
  · rw [hslice, State.sliceOf_setSlice_same husl]
  · rw [hslice, State.sliceOf_setSlice_other (Ne.symm hne) husl, huold]
  · rw [hslice, State.sliceOf_setSlice_other (Ne.symm hne) husl, huold]

end Records

end Sys2Proof.Machine
end

section
/-!
PROOFS. FUSE_LOAD, and the phases that only pass (R34, R263, R316, R318, R341, R342, R376).
-/

namespace Sys2Proof.Machine

open Sys2Proof

theorem OnlyChanges.setPhase {l : List Part} {b e : State} (h : OnlyChanges l b e) (hd : .dev ∈ l) (hb : .boot ∈ l) (p : Nat) :
    OnlyChanges l b (e.setPhase p) :=
  (h.dev hd { e.dev with phase := p }).boot hb { e.boot with phaseAt := e.now }

section Fuses
variable {s : State}

/-- The generations are counted, and an abandoned burn is noted. -/
def State.gensCounted (s : State) : State :=
  (s.setCal { s.cal with gen := lastSet s.genOk 8, claimed := bitSum s.genClaimed 8, committed := bitSum s.genOk 8 }).stickIf
    ((List.range 8).any fun g => s.genClaimed g && ! s.genOk g) f_CAL_EVENTS_burn_abandoned

theorem State.gensCounted_eq (s : State) : ∃ r, s.gensCounted = { s with
      cal := { s.cal with gen := lastSet s.genOk 8, claimed := bitSum s.genClaimed 8, committed := bitSum s.genOk 8 }, regs := r } ∧
    (((List.range 8).any fun g => s.genClaimed g && ! s.genOk g) = true → r = (s.stick f_CAL_EVENTS_burn_abandoned).regs) := by
  unfold State.gensCounted State.stickIf
  split
  · exact ⟨_, rfl, fun _ => rfl⟩
  · rename_i h
    exact ⟨_, rfl, fun h' => absurd h' h⟩

theorem State.loadFuses_eq (h : s.dev.phase = 0) : s.loadFuses =
    ((s.gensCounted.each (List.range 32) fun k s => s.applyCouchRecord k).each (List.range 32) fun k s => s.applyRepairRecord k).setPhase 1 := by
  unfold State.loadFuses
  rw [if_neg (by rw [h]; decide)]
  rfl

/-- FUSE_LOAD in phase 0x0. -/
theorem State.loadFuses_shows (hcan : s.canonical) (h : s.dev.phase = 0) : let e := s.loadFuses
    OnlyChanges [.regs, .dev, .force, .memc, .cal, .boot] s e ∧
      e.dev = { s.dev with phase := 1 } ∧ e.boot = { s.boot with phaseAt := s.now } ∧
      (∀ g, g < 8 → e.cal.committed.testBit g = s.genOk g ∧ e.cal.claimed.testBit g = s.genClaimed g ∧ (s.genOk g = true → g ≤ e.cal.gen)) ∧
      (e.cal.gen = 0 ∨ s.genOk e.cal.gen = true) ∧
      ((∃ g, g < 8 ∧ s.genClaimed g = true ∧ s.genOk g = false) → e.on f_CAL_EVENTS_burn_abandoned = true) ∧
      ((∀ r, r < 32 → s.fuseWord (1921 + 2 * r) ≠ fuseMarker) → e.force = s.force ∧ e.cal.slices = s.cal.slices) ∧
      ((∀ r, r < 32 → s.fuseWord (1985 + 2 * r) ≠ fuseMarker) → e.memc = s.memc) ∧
      (∀ r n q, r < 32 → n = bits (s.fuseWord (1920 + 2 * r)) 16 9 → q = bits (s.fuseWord (1920 + 2 * r)) 0 7 → q < 68 →
        s.fuseWord (1921 + 2 * r) = fuseMarker → (∀ p, p < 32 → p ≠ r → s.fuseWord (1921 + 2 * p) ≠ fuseMarker) →
        (s.sliceOf (n / 64 * 68 + q)).st ≠ .retired → n / 64 * 68 + q ≠ s.sliceIdx n →
        e.forceOf n = { s.forceOf n with slice := q } ∧ Table.SameBut [n] s.force e.force ∧
          (e.sliceOf (n / 64 * 68 + q)).st = .serving ∧ (e.sliceOf (n / 64 * 68 + q)).channel = n ∧
          (e.sliceOf (s.sliceIdx n)).channel = 0x3FF ∧
          (e.sliceOf (s.sliceIdx n)).st = if bit (s.fuseWord (1920 + 2 * r)) 15 then .retired else .free) := by
  intro e
  obtain ⟨rg, hv, hrg⟩ := s.gensCounted_eq
  obtain ⟨v, hvdef⟩ : ∃ v, v = s.gensCounted := ⟨_, rfl⟩
  rw [← hvdef] at hv
  obtain ⟨w, hw⟩ : ∃ w, w = v.each (List.range 32) fun k s => s.applyCouchRecord k := ⟨_, rfl⟩
  obtain ⟨x, f, hwx⟩ := State.applyCouchRecords_eq (List.range 32) v
  rw [← hw] at hwx
  obtain ⟨u, hu⟩ : ∃ u, u = w.each (List.range 32) fun k s => s.applyRepairRecord k := ⟨_, rfl⟩
  obtain ⟨y, huy⟩ := State.applyRepairRecords_eq (List.range 32) w
  rw [← hu] at huy
  have he : e = u.setPhase 1 := by
    rw [hu, hw, hvdef]
    exact State.loadFuses_eq h
  have hecal : e.cal = { s.cal with slices := x, gen := lastSet s.genOk 8, claimed := bitSum s.genClaimed 8, committed := bitSum s.genOk 8 } := by
    rw [he, huy, hwx, hv]; rfl
  have hvfuse (i : Nat) : v.fuseWord i = s.fuseWord i := by rw [hv]; rfl
  have hwfuse (i : Nat) : w.fuseWord i = s.fuseWord i := by rw [hwx, hv]; rfl
  have heforce : e.force = w.force := by rw [he, huy]; rfl
  have heslices : e.cal.slices = w.cal.slices := by rw [he, huy]; rfl
  obtain ⟨hgen, hlast⟩ := lastSet_shows s.genOk 8
  refine ⟨?_, ?_, ?_, fun g hg => ⟨?_, ?_, fun hok => ?_⟩, ?_, fun ⟨g, hg, hcl, hok⟩ => ?_, fun hno => ?_, fun hno => ?_,
    fun r n q hr hn hq hq68 hm hother hst hne => ?_⟩
  · have hregs : OnlyChanges [.regs, .dev, .force, .memc, .cal, .boot] s { s with regs := rg } := .regs (.refl ..) (by decide) rg
    have hload := ((hregs.cal (by decide) e.cal).force (by decide) f).memc (by decide) y
    rw [hecal] at hload
    rw [he, huy, hwx, hv]
    exact (hload.dev (by decide) { s.dev with phase := 1 }).boot (by decide) { s.boot with phaseAt := s.now }
  · rw [he, huy, hwx, hv]; rfl
  · rw [he, huy, hwx, hv]; rfl
  · rw [hecal]; exact (bitSum_shows s.genOk 8).2 g hg
  · rw [hecal]; exact (bitSum_shows s.genClaimed 8).2 g hg
  · rw [hecal]; exact hlast g hg hok
  · rw [hecal]; exact hgen
  · have hany : ((List.range 8).any fun g => s.genClaimed g && ! s.genOk g) = true :=
      List.any_eq_true.2 ⟨g, List.mem_range.2 hg, by rw [hcl, hok]; rfl⟩
    have hregs : e.regs = (s.stick f_CAL_EVENTS_burn_abandoned).regs := by rw [← hrg hany, he, huy, hwx, hv]; rfl
    rw [State.on_of_regs (s := s.stick f_CAL_EVENTS_burn_abandoned) hregs]
    exact State.on_stick hcan.fine.regs 0 (by decide) (by decide)
  · have hwv : w = v := by
      rw [hw]
      exact State.each_none _ fun p hp => State.applyCouchRecord_unmarked (by rw [hvfuse]; exact hno p (List.mem_range.1 hp))
    exact ⟨by rw [heforce, hwv, hv], by rw [heslices, hwv, hv]⟩
  · have huw : u = w := by
      rw [hu]
      exact State.each_none _ fun p hp => State.applyRepairRecord_unmarked (by rw [hwfuse]; exact hno p (List.mem_range.1 hp))
    rw [he, huw, hwx, hv]; rfl
  · have hone : w = v.applyCouchRecord r := by
      rw [hw]
      refine State.each_only ?_ _ List.nodup_range (List.mem_range.2 hr) fun p hp hpr z hz => State.applyCouchRecord_unmarked ?_
      · obtain ⟨x', f', h'⟩ := v.applyCouchRecord_eq r
        rw [h']
      · have hzp : z.fuseWord (1921 + 2 * p) = s.fuseWord (1921 + 2 * p) := by
          rw [← hvfuse]
          unfold State.fuseWord
          rw [hz]
        rw [hzp]
        exact hother p (List.mem_range.1 hp) hpr
    have hvs (i : Nat) : v.sliceOf i = s.sliceOf i := by rw [hv]; rfl
    have hvx : v.sliceIdx n = s.sliceIdx n := by rw [hv]; rfl
    have hvfo (i : Nat) : v.forceOf i = s.forceOf i := by rw [hv]; rfl
    have hvf : v.force = s.force := by rw [hv]
    have hslr : Table.rising v.cal.slices = true := by rw [hv]; exact hcan.fine.slices
    have hfr : Table.rising v.force = true := by rw [hv]; exact hcan.fine.force
    have hmain := State.applyCouchRecord_marked (s := v) (k := r) (n := n) (q := q) hslr hfr (by rw [hvfuse]; exact hm) (by rw [hvfuse]; exact hn)
      (by rw [hvfuse]; exact hq) hq68 (by rw [hvs]; exact hst) (by rw [hvx]; exact hne)
    rw [← hone, hvfo, hvf, hvx, hvfuse] at hmain
    unfold State.forceOf State.sliceOf at hmain ⊢
    rw [heforce, heslices]
    exact hmain

end Fuses

end Sys2Proof.Machine
end

section
/-!
PROOFS. SLOT_SELECTION (R344 to R347).
-/

namespace Sys2Proof.Machine

open Sys2Proof

section Slots
variable {s : State}

/-- BOOT_FAIL of a slot once it has been judged: a slot that was tried or has failed is not judged again. -/
def slotFail (tried : Bool) (fail : Nat) (absent plausible : Bool) : Nat :=
  if tried ∨ fail ≠ 0 then fail else if absent then 1 else if plausible then fail else 2

/-- A slot may be tried. -/
theorem slotFail_iff {tried absent plausible : Bool} {fail : Nat} : (! tried && decide (slotFail tried fail absent plausible = 0)) = true ↔
    tried = false ∧ fail = 0 ∧ absent = false ∧ plausible = true := by
  unfold slotFail
  cases tried
  · by_cases hf : fail = 0
    · subst hf
      cases absent <;> cases plausible <;> simp
    · simp [hf]
  · simp

theorem slotFail_fresh (absent plausible : Bool) : slotFail false 0 absent plausible = if absent then 1 else if plausible then 0 else 2 :=
  if_neg (by simp)

/-- Slot `k` is tried. -/
def State.pickSlot (s : State) (k : Nat) : State :=
  (s.setBoot { s.boot with slot := k, triedA := s.boot.triedA || decide (k = 0), triedB := s.boot.triedB || decide (k = 1) }).setPhase 2

/-- Slot `k` is judged by its header. -/
def State.judgeSlot (s : State) (k : Nat) (absent : Bool) : State :=
  if s.tried k ∨ s.failed k ≠ 0 then s
  else if absent then s.setFail k whyRead
  else if plausible (s.slotBytes k) 0 then s
  else s.setFail k whyHeader

theorem State.judgeSlot_A (s : State) (absent : Bool) : s.judgeSlot 0 absent =
    s.setBoot { s.boot with failA := slotFail s.boot.triedA s.boot.failA absent (plausible (s.slotBytes 0) 0) } := by
  unfold State.judgeSlot slotFail
  by_cases h : s.tried 0 = true ∨ s.failed 0 ≠ 0
  · have h' : s.boot.triedA = true ∨ s.boot.failA ≠ 0 := h
    rw [if_pos h, if_pos h']
    rfl
  · have h' : ¬ (s.boot.triedA = true ∨ s.boot.failA ≠ 0) := h
    rw [if_neg h, if_neg h']
    cases absent <;> cases plausible (s.slotBytes 0) 0 <;> rfl

theorem State.judgeSlot_B (s : State) (absent : Bool) : s.judgeSlot 1 absent =
    s.setBoot { s.boot with failB := slotFail s.boot.triedB s.boot.failB absent (plausible (s.slotBytes 1) 0) } := by
  unfold State.judgeSlot slotFail
  by_cases h : s.tried 1 = true ∨ s.failed 1 ≠ 0
  · have h' : s.boot.triedB = true ∨ s.boot.failB ≠ 0 := h
    rw [if_pos h, if_pos h']
    rfl
  · have h' : ¬ (s.boot.triedB = true ∨ s.boot.failB ≠ 0) := h
    rw [if_neg h, if_neg h']
    cases absent <;> cases plausible (s.slotBytes 1) 0 <;> rfl

/-- Which slot is taken. -/
theorem State.selectSlot_eq (h : s.dev.phase = 1) (x y : Bool) :
    let fa := slotFail s.boot.triedA s.boot.failA x (plausible (s.slotBytes 0) 0)
    let fb := slotFail s.boot.triedB s.boot.failB y (plausible (s.slotBytes 1) 0)
    let u := s.setBoot { s.boot with failA := fa, failB := fb }
    let okA := ! s.boot.triedA && decide (fa = 0)
    let okB := ! s.boot.triedB && decide (fb = 0)
    s.selectSlot x y = if okA ∧ okB then
        u.pickSlot (if later (headerOf (s.slotBytes 0)).sequence (headerOf (s.slotBytes 1)).sequence then 1 else 0)
      else if okA then u.pickSlot 0 else if okB then u.pickSlot 1 else u.setPhase 0xF := by
  have hboth : (s.judgeSlot 0 x).judgeSlot 1 y = s.setBoot { s.boot with
      failA := slotFail s.boot.triedA s.boot.failA x (plausible (s.slotBytes 0) 0)
      failB := slotFail s.boot.triedB s.boot.failB y (plausible (s.slotBytes 1) 0) } := by
    rw [State.judgeSlot_A, State.judgeSlot_B]
    rfl
  intro fa fb u okA okB
  have hu : (s.judgeSlot 0 x).judgeSlot 1 y = u := hboth
  have hdef : s.selectSlot x y = if s.dev.phase ≠ 1 then s else
      let v := (s.judgeSlot 0 x).judgeSlot 1 y
      let ok := fun k => ! v.tried k && decide (v.failed k = 0)
      if ok 0 ∧ ok 1 then v.pickSlot (if later (headerOf (v.slotBytes 0)).sequence (headerOf (v.slotBytes 1)).sequence then 1 else 0)
      else if ok 0 then v.pickSlot 0 else if ok 1 then v.pickSlot 1 else v.setPhase 0xF := rfl
  rw [hdef, if_neg (by rw [h]; decide), hu]
  rfl

/-- SLOT_SELECTION in phase 0x1. -/
theorem State.selectSlot_shows (h : s.dev.phase = 1) (x y : Bool) : let e := s.selectSlot x y
    let fresh := s.boot.triedA = false ∧ s.boot.triedB = false ∧ s.boot.failA = 0 ∧ s.boot.failB = 0
    let p := plausible (s.slotBytes 0) 0
    let q := plausible (s.slotBytes 1) 0
    OnlyChanges [.dev, .boot] s e ∧ (x = true → y = true → e.dev.phase = 0xF) ∧
      (fresh → x = true → e.boot.failA = 0x01) ∧ (fresh → y = true → e.boot.failB = 0x01) ∧
      (fresh → x = false → p = false → e.boot.failA = 0x02) ∧ (fresh → y = false → q = false → e.boot.failB = 0x02) ∧
      (fresh → x = false → p = true → y = true ∨ q = false → e.boot.slot = 0 ∧ e.boot.triedA = true ∧ e.dev.phase = 2) ∧
      (fresh → y = false → q = true → x = true ∨ p = false → e.boot.slot = 1 ∧ e.boot.triedB = true ∧ e.dev.phase = 2) ∧
      (fresh → x = false → y = false → p = true → q = true →
        e.dev.phase = 2 ∧ e.boot.slot = if later (headerOf (s.slotBytes 0)).sequence (headerOf (s.slotBytes 1)).sequence then 1 else 0) ∧
      (s.boot.triedA = true ∨ s.boot.failA ≠ 0 → s.boot.triedB = true ∨ s.boot.failB ≠ 0 → e.dev.phase = 0xF) := by
  intro e fresh p q
  obtain ⟨fa, hfa⟩ : ∃ fa, fa = slotFail s.boot.triedA s.boot.failA x p := ⟨_, rfl⟩
  obtain ⟨fb, hfb⟩ : ∃ fb, fb = slotFail s.boot.triedB s.boot.failB y q := ⟨_, rfl⟩
  obtain ⟨u, hu⟩ : ∃ u, u = s.setBoot { s.boot with failA := fa, failB := fb } := ⟨_, rfl⟩
  have he := State.selectSlot_eq h x y
  dsimp only at he
  rw [show plausible (s.slotBytes 0) 0 = p from rfl, show plausible (s.slotBytes 1) 0 = q from rfl, ← hfa, ← hfb, ← hu,
    show s.selectSlot x y = e from rfl] at he
  obtain ⟨okA, hokA⟩ : ∃ okA, okA = (! s.boot.triedA && decide (fa = 0)) := ⟨_, rfl⟩
  obtain ⟨okB, hokB⟩ : ∃ okB, okB = (! s.boot.triedB && decide (fb = 0)) := ⟨_, rfl⟩
  rw [← hokA, ← hokB] at he
  have hA : okA = true ↔ s.boot.triedA = false ∧ s.boot.failA = 0 ∧ x = false ∧ p = true := by rw [hokA, hfa]; exact slotFail_iff
  have hB : okB = true ↔ s.boot.triedB = false ∧ s.boot.failB = 0 ∧ y = false ∧ q = true := by rw [hokB, hfb]; exact slotFail_iff
  have hframe : OnlyChanges [.dev, .boot] s u := by rw [hu]; exact .boot (.refl ..) (by decide) _
  have hpick (k : Nat) : OnlyChanges [.dev, .boot] s (u.pickSlot k) ∧ (u.pickSlot k).boot.failA = fa ∧ (u.pickSlot k).boot.failB = fb :=
    ⟨OnlyChanges.setPhase (hframe.boot (by decide) _) (by decide) (by decide) 2, by rw [hu]; rfl, by rw [hu]; rfl⟩
  have hnone : OnlyChanges [.dev, .boot] s (u.setPhase 0xF) ∧ (u.setPhase 0xF).boot.failA = fa ∧ (u.setPhase 0xF).boot.failB = fb :=
    ⟨hframe.setPhase (by decide) (by decide) 0xF, by rw [hu]; rfl, by rw [hu]; rfl⟩
  have hall : OnlyChanges [.dev, .boot] s e ∧ e.boot.failA = fa ∧ e.boot.failB = fb := by
    rw [he]
    split
    · exact hpick _
    · split
      · exact hpick _
      · split
        · exact hpick _
        · exact hnone
  obtain ⟨hfr, hfailA, hfailB⟩ := hall
  have hstop (h1 : okA ≠ true) (h2 : okB ≠ true) : e.dev.phase = 0xF := by
    rw [he, if_neg fun h => h1 h.1, if_neg h1, if_neg h2]
    rfl
  have hfreshA (hf : fresh) : fa = if x then 1 else if p then 0 else 2 := by
    obtain ⟨h1, -, h2, -⟩ := hf
    rw [hfa, h1, h2]
    exact slotFail_fresh ..
  have hfreshB (hf : fresh) : fb = if y then 1 else if q then 0 else 2 := by
    obtain ⟨-, h1, -, h2⟩ := hf
    rw [hfb, h1, h2]
    exact slotFail_fresh ..
  refine ⟨hfr, fun hx hy => ?_, fun hf hx => ?_, fun hf hy => ?_, fun hf hx hp => ?_, fun hf hy hq => ?_, fun hf hx hp hno => ?_, fun hf hy hq hno => ?_,
    fun hf hx hy hp hq => ?_, fun h1 h2 => ?_⟩
  · refine hstop (fun h => ?_) fun h => ?_
    · exact Bool.noConfusion (hx.symm.trans (hA.1 h).2.2.1)
    · exact Bool.noConfusion (hy.symm.trans (hB.1 h).2.2.1)
  · rw [hfailA, hfreshA hf, hx]
    rfl
  · rw [hfailB, hfreshB hf, hy]
    rfl
  · rw [hfailA, hfreshA hf, hx, hp]
    rfl
  · rw [hfailB, hfreshB hf, hy, hq]
    rfl
  · have h1 : okA = true := hA.2 ⟨hf.1, hf.2.2.1, hx, hp⟩
    have h2 : ¬ okB = true := fun h => by
      obtain ⟨-, -, hy, hq⟩ := hB.1 h
      rcases hno with h' | h'
      · exact Bool.noConfusion (h'.symm.trans hy)
      · exact Bool.noConfusion (h'.symm.trans hq)
    rw [he, if_neg fun h => h2 h.2, if_pos h1]
    exact ⟨rfl, Bool.or_true _, rfl⟩
  · have h1 : okB = true := hB.2 ⟨hf.2.1, hf.2.2.2, hy, hq⟩
    have h2 : ¬ okA = true := fun h => by
      obtain ⟨-, -, hx, hp⟩ := hA.1 h
      rcases hno with h' | h'
      · exact Bool.noConfusion (h'.symm.trans hx)
      · exact Bool.noConfusion (h'.symm.trans hp)
    rw [he, if_neg fun h => h2 h.1, if_neg h2, if_pos h1]
    exact ⟨rfl, Bool.or_true _, rfl⟩
  · rw [he, if_pos ⟨hA.2 ⟨hf.1, hf.2.2.1, hx, hp⟩, hB.2 ⟨hf.2.1, hf.2.2.2, hy, hq⟩⟩]
    exact ⟨rfl, rfl⟩
  · refine hstop (fun h => ?_) fun h => ?_
    · obtain ⟨ht, hfl, -, -⟩ := hA.1 h
      rcases h1 with h' | h'
      · exact Bool.noConfusion (h'.symm.trans ht)
      · exact h' hfl
    · obtain ⟨ht, hfl, -, -⟩ := hB.1 h
      rcases h2 with h' | h'
      · exact Bool.noConfusion (h'.symm.trans ht)
      · exact h' hfl

end Slots

end Sys2Proof.Machine
end

section
/-!
PROOFS. VERIFICATION and HBM_TRAINING (R341, R343, R344, R350, R351).
-/

namespace Sys2Proof.Machine

open Sys2Proof

section Rejected
variable {s : State} {k : Nat}

theorem State.failed_setFail (s : State) (k reason : Nat) : (s.setFail k reason).failed k = reason := by
  unfold State.setFail State.failed
  split <;> rfl

theorem State.failed_setFail_other (s : State) (k reason : Nat) : (s.setFail k reason).failed (1 - k) = s.failed (1 - k) := by
  unfold State.setFail State.failed
  by_cases h : k = 0
  · rw [if_pos h, if_neg (by omega), if_neg (by omega)]
    rfl
  · rw [if_neg h, if_pos (by omega), if_pos (by omega)]
    rfl

/-- A rejected slot: its reason is kept, the device is back at the end of phase 0x0, and goes on with the other slot or to phase 0xF. -/
theorem State.rejectSlot_shows (s : State) (k reason : Nat) : let e := s.rejectSlot k reason
    e.failed k = reason ∧ e.pwr.on = 0 ∧ e.hbm = [] ∧ e.force = s.force ∧ e.flt = s.flt ∧
      e.dev.phase = if s.tried (1 - k) ∨ s.failed (1 - k) ≠ 0 then 0xF else 1 := by
  intro e
  obtain ⟨v, hv⟩ : ∃ v, v = s.setFail k reason := ⟨_, rfl⟩
  obtain ⟨u, hu⟩ : ∃ u, u = v.bootBack.setPhase 1 := ⟨_, rfl⟩
  have hvb : v.force = s.force ∧ v.flt = s.flt ∧ v.tried (1 - k) = s.tried (1 - k) := by
    rw [hv]
    unfold State.setFail
    split <;> exact ⟨rfl, rfl, rfl⟩
  have hfk : v.failed k = reason := by rw [hv]; exact s.failed_setFail k reason
  have hfo : v.failed (1 - k) = s.failed (1 - k) := by rw [hv]; exact s.failed_setFail_other k reason
  have hfailed (j : Nat) : u.failed j = v.failed j := by rw [hu]; rfl
  have htried (j : Nat) : u.tried j = v.tried j := by rw [hu]; rfl
  have he : e = if u.tried (1 - k) ∨ u.failed (1 - k) ≠ 0 then u.setPhase 0xF else u := by
    rw [hu, hv]
    rfl
  have hu' : u.pwr.on = 0 ∧ u.hbm = [] ∧ u.force = s.force ∧ u.flt = s.flt := by
    obtain ⟨h1, h2, -⟩ := hvb
    rw [← h1, ← h2, hu]
    exact ⟨rfl, rfl, rfl, rfl⟩
  obtain ⟨hon, hhbm, hforce, hflt⟩ := hu'
  rw [htried, hfailed, hvb.2.2, hfo] at he
  rw [he]
  split
  · exact ⟨(hfailed k).trans hfk, hon, hhbm, hforce, hflt, rfl⟩
  · exact ⟨(hfailed k).trans hfk, hon, hhbm, hforce, hflt, by rw [hu]; rfl⟩

end Rejected

section Phases
variable {s : State}

/-- VERIFICATION of an image that is accepted. -/
theorem State.verifySlot_accepts (h : s.dev.phase = 2) (hwhy : s.imageReason s.image (2 ^ 28) false = 0) : let e := s.verifySlot
    e.dev.phase = 3 ∧ e.memc.st = .training ∧ e.boot.bank0.good = true ∧ e.boot.active = 0 ∧ e.boot.secVersion = s.imageHead.secVersion ∧
      e.boot.imageDigest = Config.sm3 (s.image s.imageHead.manOff s.imageHead.manSize) ∧ e.boot.configDigest = e.boot.imageDigest ∧
      ∀ d, d ∈ [45, 46, 57, 58, 59, 60] → e.domainOn d = true := by
  intro e
  obtain ⟨version, hversion⟩ : ∃ v, v = match sectionOf s.imageSections 1 with | some x => firmwareVersion (x.bytes s.image) | none => 0 := ⟨_, rfl⟩
  obtain ⟨digest, hdigest⟩ : ∃ d, d = Config.sm3 (s.image s.imageHead.manOff s.imageHead.manSize) := ⟨_, rfl⟩
  obtain ⟨u, hu⟩ : ∃ u, u = s.setBoot { s.boot with
        bank0 := ⟨version, true⟩, bank1 := ⟨0, false⟩, active := 0, secVersion := s.imageHead.secVersion,
        signer := s.image.num (s.imageHead.manOff + 40) 1 % 4,
        imageDigest := digest, configDigest := digest, raiseFloor := s.imageHead.raiseFloor } := ⟨_, rfl⟩
  obtain ⟨v, hv⟩ : ∃ v, v = u.domainsOn [45, 46, 57, 58, 59, 60] := ⟨_, rfl⟩
  obtain ⟨w, hw⟩ : ∃ w, w = v.applyBlocks s.image s.imageSections [4] := ⟨_, rfl⟩
  have he : e = (w.setMemc { w.memc with st := .training }).setPhase 3 := by
    show s.verifySlot = _
    unfold State.verifySlot
    rw [if_neg (by rw [h]; decide)]
    dsimp only
    rw [if_neg (by rw [hwhy]; decide), hw, hv, hu, hversion, hdigest] <;> rfl
  have hkeepV := State.keeps_domainsOn (Within.refl _) (.refl u) [45, 46, 57, 58, 59, 60]
  have hkeepW := State.keeps_applyBlocks (Within.refl _) (.refl v) s.image s.imageSections [4]
  rw [← hv] at hkeepV
  rw [← hw] at hkeepW
  have hboot : e.boot = { u.boot with phaseAt := w.now } := by
    rw [he, ← hkeepV.boot rfl, ← hkeepW.boot rfl]
    rfl
  have hdom (d : Nat) : e.domainOn d = v.domainOn d := by
    unfold State.domainOn
    rw [he, ← hkeepW.pwr rfl]
    rfl
  refine ⟨by rw [he]; rfl, by rw [he]; rfl, by rw [hboot, hu]; rfl, by rw [hboot, hu]; rfl, by rw [hboot, hu]; rfl, ?_, by rw [hboot, hu]; rfl,
    fun d hd => ?_⟩
  · rw [hboot, hu, ← hdigest]
    rfl
  · rw [hdom, hv, State.domainsOn_on _ _ (by decide), List.contains_iff_mem.2 hd, Bool.true_or]

/-- VERIFICATION of an image that is rejected. -/
theorem State.verifySlot_rejects (h : s.dev.phase = 2) (hwhy : s.imageReason s.image (2 ^ 28) false ≠ 0) :
    s.verifySlot = s.rejectSlot s.boot.slot (s.imageReason s.image (2 ^ 28) false) := by
  unfold State.verifySlot
  rw [if_neg (by rw [h]; decide)]
  exact if_pos hwhy

/-- The sections of HBM_DATA of the image. -/
def State.dataSections (s : State) : List Section := s.imageSections.filter fun x => decide (x.type = 2)

/-- The stack is in service and holds HBM_DATA. -/
def State.dataWritten (s : State) : State :=
  (s.setMemc { s.memc with st := .service, gathering := true, idleAt := s.now, windowAt := s.now }).each s.dataSections
    fun x u => u.memWrite x.target (x.bytes s.image)

theorem State.dataWritten_keeps (s : State) : Keeps 6144 s s.dataWritten :=
  have hF : Within 6144 6144 := Within.refl _
  State.keeps_each (State.keeps_setMemc (hF.sub rfl) (.refl s) { s.memc with st := .service, gathering := true, idleAt := s.now, windowAt := s.now } id)
    s.dataSections _ fun x _ h => State.keeps_memWrite hF (x.bytes s.image) h x.target

/-- The identity list of forerunner mode is kept. -/
def State.foreNoted (s : State) (g : Bytes) (l : List Section) : State :=
  match sectionOf l 5 with
  | some x => s.setBoot { s.boot with foreSet := (x.bytes g).take 16 }
  | none => s

theorem State.foreNoted_dev (s : State) (g : Bytes) (l : List Section) : (s.foreNoted g l).dev = s.dev := by
  unfold State.foreNoted
  split <;> rfl

/-- The hub is started: its sections applied, the web's domains on, and the ports that are enabled begin. -/
def State.hubStarted (s : State) (g : Bytes) (l : List Section) (fore : Bool) : State :=
  ((((({ s with dev := { s.dev with forerunner := fore } } : State).foreNoted g l).applyBlocks g l [0, 5, 1]).domainsOn [40, 41, 42, 43, 44]).each
    (List.range 4) fun p s => s.portStart p).setPhase 4

theorem State.trainHbm_eq (h : s.dev.phase = 3) : s.trainHbm =
    if ! s.dataSections.all fun x => decide (Config.sm3 (x.bytes s.image) = x.digest) then s.dataWritten.rejectSlot s.dataWritten.boot.slot whyDigest
    else s.dataWritten.hubStarted s.image s.imageSections s.imageHead.forerunner := by
  unfold State.trainHbm
  rw [if_neg (by rw [h]; decide)]
  dsimp only
  unfold State.hubStarted State.foreNoted
  rw [show State.each _ (List.filter (fun x => decide (x.type = 2)) s.imageSections) _ = s.dataWritten from rfl]
  generalize s.dataWritten = d
  rfl

/-- HBM_TRAINING of an image whose data are sound. -/
theorem State.trainHbm_accepts (h : s.dev.phase = 3) (hok : ∀ x ∈ s.dataSections, Config.sm3 (x.bytes s.image) = x.digest) : let e := s.trainHbm
    e.dev.phase = 4 ∧ e.dev.forerunner = s.imageHead.forerunner ∧ ∀ d, d ∈ [40, 41, 42, 43, 44] → e.domainOn d = true := by
  intro e
  have hall : (s.dataSections.all fun x => decide (Config.sm3 (x.bytes s.image) = x.digest)) = true :=
    List.all_eq_true.2 fun x hx => decide_eq_true (hok x hx)
  obtain ⟨u, hu⟩ : ∃ u : State, u = { s.dataWritten with dev := { s.dataWritten.dev with forerunner := s.imageHead.forerunner } } := ⟨_, rfl⟩
  obtain ⟨f, hf⟩ : ∃ f, f = u.foreNoted s.image s.imageSections := ⟨_, rfl⟩
  obtain ⟨v, hv⟩ : ∃ v, v = f.applyBlocks s.image s.imageSections [0, 5, 1] := ⟨_, rfl⟩
  obtain ⟨w, hw⟩ : ∃ w, w = v.domainsOn [40, 41, 42, 43, 44] := ⟨_, rfl⟩
  obtain ⟨x, hx⟩ : ∃ x, x = w.each (List.range 4) fun p s => s.portStart p := ⟨_, rfl⟩
  have he : e = x.setPhase 4 := by
    show s.trainHbm = _
    rw [State.trainHbm_eq h, hall, if_neg (by decide)]
    unfold State.hubStarted
    rw [← hu, ← hf, ← hv, ← hw, ← hx]
  have hblocks := State.keeps_applyBlocks (Within.refl _) (.refl f) s.image s.imageSections [0, 5, 1]
  have hdomains := State.keeps_domainsOn (Within.refl _) (.refl v) [40, 41, 42, 43, 44]
  have hports : Keeps 32768 w x := hx ▸ State.keeps_each (.refl w) _ _ fun p _ h => State.keeps_portStart (Within.refl _) h p
  rw [← hv] at hblocks
  rw [← hw] at hdomains
  have hdev : x.dev = u.dev := by
    rw [hports.dev rfl, hdomains.dev rfl, hblocks.dev rfl, hf]
    exact u.foreNoted_dev _ _
  refine ⟨by rw [he]; rfl, ?_, fun d hd => ?_⟩
  · rw [he]
    show x.dev.forerunner = _
    rw [hdev, hu]
  · have hdom : e.domainOn d = w.domainOn d := by
      unfold State.domainOn
      rw [he, ← hports.pwr rfl]
      rfl
    rw [hdom, hw, State.domainsOn_on _ _ (by decide), List.contains_iff_mem.2 hd, Bool.true_or]

/-- HBM_TRAINING of an image with a section of HBM_DATA that is not sound. -/
theorem State.trainHbm_rejects (h : s.dev.phase = 3) (hbad : ∃ x ∈ s.dataSections, Config.sm3 (x.bytes s.image) ≠ x.digest) :
    s.trainHbm = s.dataWritten.rejectSlot s.dataWritten.boot.slot 0x07 := by
  obtain ⟨x, hx, hne⟩ := hbad
  have hall : (s.dataSections.all fun x => decide (Config.sm3 (x.bytes s.image) = x.digest)) = false :=
    List.all_eq_false.2 ⟨x, hx, by simp [hne]⟩
  rw [State.trainHbm_eq h, hall]
  exact if_pos rfl

end Phases

end Sys2Proof.Machine
end

section
/-!
PROOFS. Flash access in phase 0xF (R345).
-/

namespace Sys2Proof.Machine

open Sys2Proof

section Writes
variable {s : State} {m : Nat} {v : Word}

theorem flashMasks : rwMask .BOOT_FLASH_CTL = 1 ∧ rwiMask .BOOT_FLASH_CTL = 0 ∧ w1cMask .BOOT_FLASH_CTL = 0 ∧ actMask .BOOT_FLASH_CTL = 0xF0000000 := by
  decide

/-- A write to BOOT_FLASH_CTL in phase 0xF stores the slot and gives the command. -/
theorem State.regWrite_flash (hsh : s.shielded (regAddr .BOOT_FLASH_CTL 0 0) = 0) (hph : s.dev.phase = 0xF) :
    s.regWrite m .BOOT_FLASH_CTL 0 0 v none false =
      (s.wr .BOOT_FLASH_CTL ((s.rd .BOOT_FLASH_CTL &&& ~~~ 1) ||| (v &&& 1))).flashCommand (bits v 28 4) := by
  obtain ⟨hrw, hrwi, hw1c, -⟩ := flashMasks
  have hstored : stored .BOOT_FLASH_CTL (s.rd .BOOT_FLASH_CTL) v 0 = (s.rd .BOOT_FLASH_CTL &&& ~~~ 1) ||| (v &&& 1) := by
    unfold stored
    rw [hw1c, hrw]
    dsimp only
    rw [keep_all, show v &&& (0 : Word) = 0 from BitVec.and_zero, keep_all]
  have hbar : s.barred m .BOOT_FLASH_CTL 0 v (s.rd .BOOT_FLASH_CTL) = none := by
    unfold State.barred
    dsimp only
    rw [if_pos hph]
    split <;> rfl
  rw [State.regWrite_plain (by decide) hsh, State.writePlain_taken (by decide) (by rw [hrwi]; simp [differs]) hbar (by intro f hf; cases hf), hstored]
  unfold State.acted
  dsimp only
  congr 1
  unfold State.changed
  dsimp only
  split <;> rfl

/-- One in another phase that gives a command is refused. -/
theorem State.regWrite_flash_refused (hsh : s.shielded (regAddr .BOOT_FLASH_CTL 0 0) = 0) (hph : s.dev.phase ≠ 0xF) (hcmd : bits v 28 4 ≠ 0) :
    s.regWrite m .BOOT_FLASH_CTL 0 0 v none false = s.accessFault 0x004 1 .none m 2 (regAddr .BOOT_FLASH_CTL 0 0) := by
  obtain ⟨-, hrwi, -, hact⟩ := flashMasks
  have hacts : v &&& actMask .BOOT_FLASH_CTL ≠ 0 := fun h0 => hcmd <| by
    refine Nat.eq_of_testBit_eq fun i => ?_
    rw [bits_testBit, Nat.zero_testBit]
    by_cases hi : i < 4
    · have hbit := congrArg (BitVec.getLsbD · (28 + i)) h0
      have hin : (0xF0000000 : Word).getLsbD (28 + i) = true := by
        interval_cases i <;> decide
      rw [hact] at hbit
      simp only [BitVec.getLsbD_and, hin, Bool.and_true] at hbit
      rw [hbit, show (0 : Word).getLsbD (28 + i) = false from BitVec.getLsbD_zero, Bool.and_false]
    · rw [decide_eq_false hi, Bool.false_and]
  have hbar : s.barred m .BOOT_FLASH_CTL 0 v (s.rd .BOOT_FLASH_CTL) = some 0x004 := by
    unfold State.barred
    dsimp only
    rw [decide_eq_true hacts, Bool.or_true, if_neg (by simp)]
    exact if_neg hph
  have hno : differs (s.rd .BOOT_FLASH_CTL) v (rwiMask .BOOT_FLASH_CTL) = false := by rw [hrwi]; simp [differs]
  rw [State.regWrite_plain (by decide) hsh]
  unfold State.writePlain
  dsimp only
  rw [hno, if_neg Bool.false_ne_true, if_neg (by decide), hbar]
  rfl

/-- The slot that a write leaves. -/
theorem State.fld_flashSlot (hr : Table.rising s.regs = true) :
    (s.wr .BOOT_FLASH_CTL ((s.rd .BOOT_FLASH_CTL &&& ~~~ 1) ||| (v &&& 1))).fld f_BOOT_FLASH_CTL_slot = bits v 0 1 := by
  unfold State.fld
  rw [show f_BOOT_FLASH_CTL_slot.reg = .BOOT_FLASH_CTL from rfl, State.rd_wr_same hr]
  refine bits_congr fun i hi => ?_
  have hin : (1 : Word).getLsbD (f_BOOT_FLASH_CTL_slot.lo + i) = true := by
    have hlen : i < 1 := hi
    obtain rfl : i = 0 := by omega
    decide
  rw [BitVec.getLsbD_or, BitVec.getLsbD_and, BitVec.getLsbD_and, BitVec.getLsbD_not, hin]
  simp [show f_BOOT_FLASH_CTL_slot.lo = 0 from rfl]

/-- A command that reads, programs or erases. -/
theorem State.flashCommand_begins {c : Nat} (hr : s.boot.flashCmd = none) (h1 : 1 ≤ c) (h3 : c ≤ 3) :
    s.flashCommand c = s.setBoot { s.boot with flashCmd := some (c, s.fld f_BOOT_FLASH_CTL_slot * 2 ^ 29 + s.fld f_BOOT_FLASH_ADDR_addr) } := by
  unfold State.flashCommand
  rw [hr]
  dsimp only
  rw [if_neg (by decide), if_pos ⟨h1, h3⟩]

/-- The command that boots again. -/
theorem State.flashCommand_boots (hr : s.boot.flashCmd = none) : s.flashCommand 0xF = (s.bootBack.setBoot Boot.reset).setPhase 1 := by
  unfold State.flashCommand
  rw [hr]
  rfl

end Writes

/-! ## A flash command completes -/

section Done
variable {s : State} {cmd key : Nat}

theorem State.flashDone_none (h : s.boot.flashCmd = none) (x : Bool) : s.flashDone x = s := by
  unfold State.flashDone
  rw [h]

theorem State.flashDone_fails (h : s.boot.flashCmd = some (cmd, key)) :
    s.flashDone true = s.setBoot { s.boot with flashCmd := none, flashError := true } := by
  unfold State.flashDone
  rw [h]
  rfl

/-- The state in which no flash command is in progress. -/
def State.flashIdle (s : State) : State := s.setBoot { s.boot with flashCmd := none, flashError := false }

/-- The words of the data registers are written in turn. -/
theorem State.each_wr (f : Nat → Word) : ∀ (n : Nat) (s : State), Table.rising s.regs = true →
    let e := s.each (List.range n) fun w s => s.wr .BOOT_FLASH_DATA (f w) w
    (∃ r, e = { s with regs := r }) ∧ Table.rising e.regs = true ∧ (∀ w, w < n → e.rd .BOOT_FLASH_DATA w = f w) ∧
      Table.SameBut ((List.range n).map fun w => regAddr .BOOT_FLASH_DATA w 0) s.regs e.regs
  | 0, s, hr => ⟨⟨_, rfl⟩, hr, fun _ h => absurd h (by omega), .refl _ _⟩
  | n + 1, s, hr => by
    obtain ⟨⟨r, hu⟩, hur, hrd, hsame⟩ := State.each_wr f n s hr
    obtain ⟨u, hudef⟩ : ∃ u, u = s.each (List.range n) fun w s => s.wr .BOOT_FLASH_DATA (f w) w := ⟨_, rfl⟩
    have he : (s.each (List.range (n + 1)) fun w s => s.wr .BOOT_FLASH_DATA (f w) w) = u.wr .BOOT_FLASH_DATA (f n) n := by
      rw [hudef]
      unfold State.each
      rw [List.range_succ, List.foldl_append]
      rfl
    rw [← hudef] at hu hur hrd hsame
    intro e
    rw [show e = _ from he]
    refine ⟨⟨_, by rw [hu]; rfl⟩, State.rising_wr hur _ _ _ _, fun w hw => ?_, ?_⟩
    · by_cases hwn : w = n
      · subst hwn
        exact State.rd_wr_same hur ..
      · rw [State.rd_wr_other hur _ (by simp only [regAddr, regRow, blkBase]; omega)]
        exact hrd w (by omega)
    · refine (hsame.mono fun a ha => ?_).trans ((Table.SameBut.put hur _ _ _).mono fun a ha => ?_)
      · obtain ⟨w, hw, rfl⟩ := List.mem_map.1 ha
        exact List.mem_map.2 ⟨w, List.mem_range.2 (by have h := List.mem_range.1 hw; omega), rfl⟩
      · rw [List.mem_singleton.1 ha]
        exact List.mem_map.2 ⟨n, List.mem_range.2 (by omega), rfl⟩

/-- A command that reads puts the line into the data registers. -/
theorem State.flashDone_reads (h : s.boot.flashCmd = some (1, key)) : s.flashDone false = s.flashIdle.each (List.range 16) fun w u =>
    u.wr .BOOT_FLASH_DATA (BitVec.ofNat 32 (leNat ((((flashLine key).map fun a => Table.get flashDefault a s.flash).drop (4 * w)).take 4))) w := by
  unfold State.flashDone
  rw [h]
  rfl

/-- A command that erases clears its sector. -/
theorem State.flashDone_erases (h : s.boot.flashCmd = some (3, key)) :
    s.flashDone false = { s.flashIdle with flash := s.flash.filter fun e => decide (e.1 / 65536 ≠ key / 65536) } := by
  unfold State.flashDone
  rw [h]
  rfl

/-- A byte of the line and its place in the data registers. -/
def State.programByte (s : State) (e : Nat × Nat) : State :=
  { s with flash := Table.put flashDefault e.1 (Table.get flashDefault e.1 s.flash &&& byteOf (s.rd .BOOT_FLASH_DATA (e.2 / 4)) (e.2 % 4)) s.flash }

/-- A command that programs clears bits of the line. -/
theorem State.flashDone_programs (h : s.boot.flashCmd = some (2, key)) :
    s.flashDone false = s.flashIdle.each ((flashLine key).zip (List.range 64)) fun e u => u.programByte e := by
  unfold State.flashDone
  rw [h]
  rfl

/-- Bytes of the flash that are programmed one after the other. -/
theorem State.each_programByte : ∀ (l : List (Nat × Nat)) (s : State), (l.map fun e => e.1).Nodup → Table.rising s.flash = true →
    let e := s.each l fun e u => u.programByte e
    (∃ f, e = { s with flash := f }) ∧
      (∀ p ∈ l, Table.get flashDefault p.1 e.flash = Table.get flashDefault p.1 s.flash &&& byteOf (s.rd .BOOT_FLASH_DATA (p.2 / 4)) (p.2 % 4)) ∧
      Table.SameBut (l.map fun e => e.1) s.flash e.flash
  | [], s, _, _ => ⟨⟨_, rfl⟩, fun _ h => absurd h List.not_mem_nil, .refl _ _⟩
  | p :: l, s, hnd, hr => by
    obtain ⟨hp, hnd'⟩ := List.nodup_cons.1 hnd
    obtain ⟨u, hu⟩ : ∃ u, u = s.programByte p := ⟨_, rfl⟩
    have hflash : u.flash = Table.put flashDefault p.1 (Table.get flashDefault p.1 s.flash &&& byteOf (s.rd .BOOT_FLASH_DATA (p.2 / 4)) (p.2 % 4)) s.flash := by
      rw [hu]
      rfl
    have hrd (i : Nat) : u.rd .BOOT_FLASH_DATA i = s.rd .BOOT_FLASH_DATA i := by rw [hu]; rfl
    have hsame : Table.SameBut [p.1] s.flash u.flash := by rw [hflash]; exact .put hr _ _ _
    obtain ⟨⟨f, hf⟩, hin, hout⟩ := State.each_programByte l u hnd' (by rw [hflash]; exact Table.rising_put hr)
    have he : (s.each (p :: l) fun e u => u.programByte e) = u.each l fun e u => u.programByte e := by rw [hu]; rfl
    intro e
    rw [show e = _ from he]
    refine ⟨⟨f, by rw [hf, hu]; rfl⟩, fun q hq => ?_, ?_⟩
    · rcases List.mem_cons.1 hq with rfl | hq
      · refine (hout _ hp _).trans ?_
        rw [hflash]
        exact Table.get_put_same hr
      · have hqp : q.1 ∉ [p.1] := fun h => hp (List.mem_map.2 ⟨q, hq, List.mem_singleton.1 h⟩)
        rw [hin q hq, hrd, hsame _ hqp]
    · exact (hsame.mono fun a ha => List.mem_cons.2 (.inl (List.mem_singleton.1 ha))).trans (hout.mono fun a ha => List.mem_cons_of_mem _ ha)

theorem flashLine_nodup (key : Nat) : (flashLine key).Nodup := by
  refine List.Nodup.map_on (fun i hi j hj h => ?_) List.nodup_range
  have hi' := List.mem_range.1 hi
  have hj' := List.mem_range.1 hj
  omega

/-- What a command that programs leaves. -/
theorem State.flashDone_line (h : s.boot.flashCmd = some (2, key)) (hr : Table.rising s.flash = true) : let e := s.flashDone false
    (∃ f, e = { s.flashIdle with flash := f }) ∧ Table.SameBut (flashLine key) s.flash e.flash ∧
      ∀ (j a : Nat), (flashLine key)[j]? = some a →
        Table.get flashDefault a e.flash = Table.get flashDefault a s.flash &&& byteOf (s.rd .BOOT_FLASH_DATA (j / 4)) (j % 4) := by
  have hfst : ((flashLine key).zip (List.range 64)).map (fun e => e.1) = flashLine key := List.map_fst_zip (by simp [flashLine])
  obtain ⟨hf, hin, hout⟩ := State.each_programByte ((flashLine key).zip (List.range 64)) s.flashIdle (by rw [hfst]; exact flashLine_nodup key) hr
  rw [hfst] at hout
  intro e
  rw [show e = _ from State.flashDone_programs h]
  refine ⟨hf, hout, fun j a hj => ?_⟩
  have hj64 : j < 64 := by
    have hlen := (List.getElem?_eq_some_iff.1 hj).1
    simpa [flashLine] using hlen
  have hmem : (a, j) ∈ (flashLine key).zip (List.range 64) :=
    List.mem_of_getElem? (List.getElem?_zip_eq_some.2 ⟨hj, by rw [List.getElem?_range hj64]⟩ : ((flashLine key).zip (List.range 64))[j]? = some (a, j))
  exact hin (a, j) hmem

/-- Entries that are filtered out read as the default. -/
theorem Table.get_filtered {α : Type} {d : α} {k : Nat} (p : Nat → Bool) (hk : p k = false) : ∀ t : Table α,
    Table.get d k (t.filter fun e => p e.1) = d
  | [] => rfl
  | (j, v) :: t => by
    cases hj : p j with
    | false =>
      rw [List.filter_cons_of_neg (p := fun e : Nat × α => p e.1) (a := (j, v)) (by rw [hj]; exact Bool.false_ne_true)]
      exact Table.get_filtered p hk t
    | true =>
      rw [List.filter_cons_of_pos (p := fun e : Nat × α => p e.1) (a := (j, v)) hj]
      have hkj : k ≠ j := fun h => by rw [h, hj] at hk; exact Bool.noConfusion hk
      unfold Table.get
      rw [if_neg hkj, Table.get_filtered p hk t]
      split <;> rfl

/-- What a command that erases leaves. -/
theorem State.flashDone_sector (h : s.boot.flashCmd = some (3, key)) (hr : Table.rising s.flash = true) : let e := s.flashDone false
    (∃ f, e = { s.flashIdle with flash := f }) ∧ (∀ a, a / 65536 = key / 65536 → Table.get flashDefault a e.flash = 0xFF) ∧
      ∀ a, a / 65536 ≠ key / 65536 → Table.get flashDefault a e.flash = Table.get flashDefault a s.flash := by
  intro e
  rw [show e = _ from State.flashDone_erases h]
  refine ⟨⟨_, rfl⟩, fun a ha => ?_, fun a ha => ?_⟩
  · exact Table.get_filtered (fun k => decide (k / 65536 ≠ key / 65536)) (by rw [ha]; simp) s.flash
  · exact Table.get_filter (fun k => decide (k / 65536 ≠ key / 65536)) hr (decide_eq_true ha)

end Done

end Sys2Proof.Machine
end

section
/-!
PROOFS. The boot phases and the flash commands (R13, R34, R263, R315, R316, R341 to R347, R376).
-/

namespace Sys2Proof.Machine

open Sys2Proof

section Commands
variable {s b : State} {c : Instr} {t m : Nat} {v : Word}

/-- A command of the start-up whose phase it is not changes nothing. -/
theorem Completes.rests {body : State → State} (hb : s.begin t = b) (hpow : s.powered) (hexec : exec c s = .next (s.act t body)) (he : body b = b) :
    Completes c t s [] fun _ _ => True := .runs (ok := true) hb hpow hexec rfl he (.refl ..) trivial

/-- A write to BOOT_FLASH_CTL that reads, programs or erases. -/
theorem Completes.flashBegins {n : Nat} (hb : s.begin t = b) (hcan : b.canonical) (hpow : s.powered) (hans : s.answers m = true)
    (hexec : exec c s = .next (s.act t fun s => s.accessReg m .BOOT_FLASH_CTL 0 0 v none false)) (hsh : b.shielded (regAddr .BOOT_FLASH_CTL 0 0) = 0)
    (hph : b.dev.phase = 0xF) (hidle : b.boot.flashCmd = none) (hn : bits v 28 4 = n) (h1 : 1 ≤ n) (h3 : n ≤ 3) :
    Completes c t s [.regs, .boot, .resp] fun b e =>
      e.resp = ⟨m, false, 0⟩ ∧ e.fld f_BOOT_FLASH_CTL_slot = bits v 0 1 ∧ Table.SameBut [regAddr .BOOT_FLASH_CTL 0 0] b.regs e.regs ∧
        e.boot = { b.boot with flashCmd := some (n, bits v 0 1 * 2 ^ 29 + b.fld f_BOOT_FLASH_ADDR_addr) } := by
  have hr : Table.rising b.regs = true := hcan.fine.regs
  obtain ⟨u, hu⟩ : ∃ u, u = b.wr .BOOT_FLASH_CTL ((b.rd .BOOT_FLASH_CTL &&& ~~~ 1) ||| (v &&& 1)) := ⟨_, rfl⟩
  have hslot : u.fld f_BOOT_FLASH_CTL_slot = bits v 0 1 := hu ▸ State.fld_flashSlot hr
  have hsame : Table.SameBut [regAddr .BOOT_FLASH_CTL 0 0] b.regs u.regs := hu ▸ .put hr _ _ _
  have haddr : u.fld f_BOOT_FLASH_ADDR_addr = b.fld f_BOOT_FLASH_ADDR_addr := State.fld_sameBut hsame (by decide)
  have hboot : u.boot = b.boot := by rw [hu]; rfl
  have he : b.regWrite m .BOOT_FLASH_CTL 0 0 v none false = u.setBoot { b.boot with flashCmd := some (n, bits v 0 1 * 2 ^ 29 + b.fld f_BOOT_FLASH_ADDR_addr) } := by
    rw [State.regWrite_flash hsh hph, ← hu, hn, State.flashCommand_begins (hboot ▸ hidle) h1 h3, hslot, haddr, hboot]
  have hframe : OnlyChanges [.regs, .boot, .resp] b u := hu ▸ .regs (.refl ..) (by decide) _
  exact .registerWrite (ok := true) hb hpow hans hexec rfl he (hframe.boot (by decide) _) (by decide) ⟨rfl, hslot, hsame, rfl⟩

/-- One that comes in another phase. -/
theorem Completes.flashRefused {n : Nat} (hb : s.begin t = b) (hpow : s.powered) (hans : s.answers m = true)
    (hexec : exec c s = .next (s.act t fun s => s.accessReg m .BOOT_FLASH_CTL 0 0 v none false)) (hsh : b.shielded (regAddr .BOOT_FLASH_CTL 0 0) = 0)
    (hph : b.dev.phase ≠ 0xF) (hn : bits v 28 4 = n) (h1 : 1 ≤ n) :
    Completes c t s [.regs, .evm, .force, .engs, .que, .memc, .vat, .flt, .cal, .resp] fun b e =>
      e = { b.accessFault 0x004 1 .none m 2 (regAddr .BOOT_FLASH_CTL 0 0) with resp := ⟨m, false, 0⟩ } :=
  .registerWrite (ok := true) hb hpow hans hexec rfl (State.regWrite_flash_refused hsh hph (by omega)) (.accessFault (.refl ..) (by decide) ..) (by decide) rfl

/-- REBOOT in phase 0xF. -/
theorem Completes.reboots (hb : s.begin t = b) (hpow : s.powered) (hans : s.answers m = true) (hsh : b.shielded (regAddr .BOOT_FLASH_CTL 0 0) = 0)
    (hph : b.dev.phase = 0xF) (hidle : b.boot.flashCmd = none) (hn : bits v 28 4 = 0xF) :
    Completes (.reboot t m v) t s [.regs, .dev, .evm, .seqs, .engs, .ress, .guards, .que, .memc, .hbm, .losses, .vat, .web, .jtag, .boot, .pwr, .resp]
      fun b e => e.dev = { State.reset.dev with phase := 1 } ∧ e.boot = { Boot.reset with phaseAt := b.now } ∧ e.pwr.on = 0 ∧ e.resp = ⟨m, false, 0⟩ := by
  obtain ⟨u, hu⟩ : ∃ u, u = b.wr .BOOT_FLASH_CTL ((b.rd .BOOT_FLASH_CTL &&& ~~~ 1) ||| (v &&& 1)) := ⟨_, rfl⟩
  have hboot : u.boot = b.boot := by rw [hu]; rfl
  have hnow : u.now = b.now := by rw [hu]; rfl
  have he : b.regWrite m .BOOT_FLASH_CTL 0 0 v none false = (u.bootBack.setBoot Boot.reset).setPhase 1 := by
    rw [State.regWrite_flash hsh hph, ← hu, hn, State.flashCommand_boots (hboot ▸ hidle)]
  have hwrite : OnlyChanges [.regs, .dev, .evm, .seqs, .engs, .ress, .guards, .que, .memc, .hbm, .losses, .vat, .web, .jtag, .boot, .pwr, .resp] b u :=
    hu ▸ .regs (.refl ..) (by decide) _
  have hback := hwrite.then (State.keeps_bootBack (Within.refl _) (.refl u)) (by decide)
  exact .registerWrite (ok := true) hb hpow hans rfl rfl he (OnlyChanges.setPhase (hback.boot (by decide) Boot.reset) (by decide) (by decide) 1) (by decide)
    ⟨rfl, by rw [← hnow]; rfl, rfl, rfl⟩

/-- The end of the web's training. -/
theorem State.endWebTraining_ends (hph : b.dev.phase = 4) (h : b.boot.phaseAt + 25600000000 ≤ b.now ∨
      (∀ p, p < 4 → b.on f_WEB_PORT_CTL_enable p = false ∨ (b.portOf p).st = .active ∨ (b.portOf p).st = .failed)) :
    b.endWebTraining = ({ b with dev := { b.dev with nodeValid := true } } : State).setPhase 5 := by
  refine if_neg fun hno => ?_
  rcases hno with hno | ⟨hup, hnow⟩
  · exact hno hph
  · rcases h with h | h
    · rw [show ms 100 = 25600000000 by decide] at hnow
      omega
    · rw [Bool.not_eq_true', List.all_eq_false] at hup
      obtain ⟨p, hp, hbad⟩ := hup
      refine hbad ?_
      rcases h p (List.mem_range.1 hp) with h | h | h <;> rw [h] <;> simp

theorem State.endWebTraining_waits (h : b.dev.phase ≠ 4 ∨ (b.now < b.boot.phaseAt + 25600000000 ∧
      ∃ p, p < 4 ∧ b.on f_WEB_PORT_CTL_enable p = true ∧ (b.portOf p).st ≠ .active ∧ (b.portOf p).st ≠ .failed)) : b.endWebTraining = b := by
  refine if_pos (h.imp_right fun ⟨hnow, p, hp, hon, ha, hf⟩ => ⟨?_, ?_⟩)
  · rw [Bool.not_eq_true', List.all_eq_false]
    exact ⟨p, List.mem_range.2 hp, by rw [hon, decide_eq_false ha, decide_eq_false hf]; exact Bool.false_ne_true⟩
  · rw [show ms 100 = 25600000000 by decide]
    exact hnow

/-- Neither outcome of VERIFICATION touches the fuse array. -/
theorem State.verifySlot_keepsFuses : Keeps 18874358 b b.verifySlot := by
  have hF : Within 18874358 18874358 := .refl _
  unfold State.verifySlot
  refine Keeps.ite (.refl b) ?_
  extract_lets k g h l why version digest boot u v memc
  refine Keeps.ite (State.keeps_rejectSlot (hF.sub rfl) (.refl b) ..) ?_
  have hu : Keeps 18874358 b u := State.keeps_setBoot (hF.sub rfl) (.refl b) _ id
  clear_value u
  have hv : Keeps 18874358 b v := State.keeps_applyBlocks (hF.sub rfl) (State.keeps_domainsOn (hF.sub rfl) hu _) ..
  clear_value v
  refine State.keeps_setPhase (hF.sub rfl) (State.keeps_setMemc (hF.sub rfl) hv _ ?_) 3
  exact id

end Commands

/-- Settles O58: each command in its own phase, and without effect in the others; the flash commands in phase 0xF. -/
theorem startUpAndFlash : Obligations.StartUpAndFlash := by
  intro s t hcan
  obtain ⟨b, hb⟩ : ∃ b, s.begin t = b := ⟨_, rfl⟩
  have hcb : b.canonical := hb ▸ State.canonical_begin hcan t
  have hdev : b.dev = s.dev := by rw [← hb]; exact State.begin_dev ..
  have hregs : Table.rising b.regs = true := hcb.fine.regs
  have hflash : Table.rising b.flash = true := Table.wf_rising hcb.fine.flash
  rw [hb, ← hdev]
  refine ⟨fun h => ?_, fun hpow => ⟨?_, fun h => ?_, fun h => ?_, fun x y h => ?_, fun x y h => ?_, fun h => ?_, fun h => ?_, fun h => ?_, fun h => ?_,
    fun h => ?_, fun h hup => ?_, fun h => ?_, fun h hrun hq => ?_, fun h => ?_, fun h hrun hq hc => ?_, fun h => ?_, fun h hready => ?_,
    fun m v hans hsh => ⟨fun c hc hn => ⟨fun h hidle => ?_, fun h => ?_⟩, fun h hidle hn => ?_⟩, fun h x => ?_,
    fun cmd key h => ⟨?_, fun h1 => ?_, fun h2 => ?_, fun h3 => ?_⟩⟩, fun m v x y c hc => ?_⟩
  · rw [hdev]
    exact congrArg Host.Outcome.next (if_pos h)
  · have hexec : exec (.porRelease t) s = .next (s.act t fun s => s) := congrArg Host.Outcome.next (if_neg (Bool.eq_false_iff.1 hpow.1))
    exact .rests hb hpow hexec rfl
  · exact .rests hb hpow rfl (if_pos h)
  · obtain ⟨hframe, hP⟩ := State.loadFuses_shows hcb h
    exact .runs (ok := true) hb hpow rfl rfl rfl hframe hP
  · exact .rests hb hpow rfl (if_pos h)
  · obtain ⟨hframe, hP⟩ := State.selectSlot_shows h x y
    exact .runs (ok := true) hb hpow rfl rfl rfl hframe hP
  · exact .rests hb hpow rfl (if_pos h)
  · refine .runs (ok := true) hb hpow rfl rfl rfl (.of State.verifySlot_keepsFuses (by decide)) ⟨fun hwhy => ?_, fun hwhy => ?_⟩
    · exact State.verifySlot_accepts h hwhy
    · rw [State.verifySlot_rejects h hwhy]
      exact State.rejectSlot_shows ..
  · exact .rests hb hpow rfl (if_pos h)
  · refine .runs (ok := true) hb hpow rfl rfl rfl (.of (State.keeps_trainHbm (Within.refl _) (.refl b)) (by decide)) ⟨fun hok => ?_, fun hbad => ?_⟩
    · exact State.trainHbm_accepts h hok
    · have hboot : b.dataWritten.boot = b.boot := b.dataWritten_keeps.boot rfl
      obtain ⟨hf, -, -, -, -, hp⟩ := State.rejectSlot_shows b.dataWritten b.dataWritten.boot.slot 0x07
      have htried (k : Nat) : b.dataWritten.tried k = b.tried k := by unfold State.tried; rw [hboot]
      have hfailed (k : Nat) : b.dataWritten.failed k = b.failed k := by unfold State.failed; rw [hboot]
      rw [State.trainHbm_rejects h hbad]
      rw [htried, hfailed, hboot] at hp
      rw [hboot] at hf ⊢
      exact ⟨hf, hp⟩
  · exact .rests hb hpow rfl (State.endWebTraining_waits h)
  · exact .runs (ok := true) hb hpow rfl rfl (State.endWebTraining_ends h hup)
      (OnlyChanges.setPhase (OnlyChanges.dev (.refl ..) (by decide) _) (by decide) (by decide) 5) ⟨rfl, rfl⟩
  · exact .rests hb hpow rfl (if_pos h)
  · exact .runs (ok := true) hb hpow rfl rfl rfl (.of (State.keeps_powerTiles (Within.refl _) (.refl b)) (by decide))
      (State.powerTiles_shows h hrun hq hcb.fine.slices)
  · exact .rests hb hpow rfl (if_pos (h.imp_right fun h => by rw [h]; rfl))
  · have hkeeps := State.keeps_endStartUpRun (Within.refl _) (.refl b)
    obtain ⟨hph, htest, hrunning, hidle⟩ := State.endStartUpRun_shows h hrun hq hc
    exact .runs (ok := true) hb hpow rfl rfl rfl (.of hkeeps (by decide)) ⟨hph, htest, hrunning, hidle, hkeeps.fuse hcb⟩
  · refine .rests hb hpow rfl (if_neg fun hgo => ?_)
    rcases h with h | ⟨h1, h2⟩
    · exact h hgo.1
    · rcases hgo.2 with hg | hg
      · exact Bool.noConfusion (h1.symm.trans hg)
      · exact Bool.noConfusion (h2.symm.trans hg)
  · exact .runs (ok := true) hb hpow rfl rfl (if_pos ⟨h, hready⟩) (OnlyChanges.setPhase (.refl ..) (by decide) (by decide) 7) ⟨rfl, rfl⟩
  · simp only [List.mem_cons, List.not_mem_nil, or_false] at hc
    rcases hc with rfl | rfl | rfl <;> exact .flashBegins hb hcb hpow hans rfl hsh h hidle hn (Nat.le_of_ble_eq_true rfl) (Nat.le_of_ble_eq_true rfl)
  · simp only [List.mem_cons, List.not_mem_nil, or_false] at hc
    rcases hc with rfl | rfl | rfl <;> exact .flashRefused hb hpow hans rfl hsh h hn (Nat.le_of_ble_eq_true rfl)
  · exact .reboots hb hpow hans hsh h hidle hn
  · exact .rests hb hpow rfl (State.flashDone_none h x)
  · exact .runs (ok := true) hb hpow rfl rfl (State.flashDone_fails h) (.boot (.refl ..) (by decide) _) rfl
  · subst h1
    obtain ⟨⟨r, he⟩, -, hrd, hsame⟩ := State.each_wr (fun w => BitVec.ofNat 32 (leNat ((((flashLine key).map fun a => Table.get flashDefault a b.flash).drop
      (4 * w)).take 4))) 16 b.flashIdle hregs
    have hidle : OnlyChanges [.regs, .boot] b b.flashIdle := .boot (.refl ..) (by decide) _
    refine .runs (ok := true) hb hpow rfl rfl (State.flashDone_reads h) ?_ ⟨?_, hrd, hsame⟩
    · rw [he]
      exact hidle.regs (by decide) r
    · rw [he]
      rfl
  · subst h2
    obtain ⟨⟨f, he⟩, hsame, hline⟩ := State.flashDone_line h hflash
    have hidle : OnlyChanges [.boot, .flash] b b.flashIdle := .boot (.refl ..) (by decide) _
    refine .runs (ok := true) hb hpow rfl rfl rfl ?_ ⟨?_, hsame, hline⟩
    · rw [he]
      exact hidle.flash (by decide) f
    · rw [he]
      rfl
  · subst h3
    obtain ⟨⟨f, he⟩, hsector, hother⟩ := State.flashDone_sector h hflash
    have hidle : OnlyChanges [.boot, .flash] b b.flashIdle := .boot (.refl ..) (by decide) _
    refine .runs (ok := true) hb hpow rfl rfl rfl ?_ ⟨?_, hsector, hother⟩
    · rw [he]
      exact hidle.flash (by decide) f
    · rw [he]
      rfl
  · simp only [List.mem_cons, List.not_mem_nil, or_false] at hc
    rcases hc with rfl | rfl | rfl | rfl | rfl | rfl | rfl | rfl | rfl | rfl | rfl | rfl | rfl | rfl <;> exact ⟨_, rfl⟩

end Sys2Proof.Machine
end
